-- ==== Sys2Proof/Word.lean ====
section
/-! DEFINITION. The word types of the Scapor package and nothing else: bytes, register words and wide words.
All bit-field, byte-order and arithmetic helpers stand in Sys2Proof/Machine/Bits.lean. -/

namespace Sys2Proof

/-- One byte of memory (R21). -/
abbrev Byte := BitVec 8

/-- A 32-bit register or FP32 word (R610). -/
abbrev W32 := BitVec 32

/-- A 64-bit word: a doorbell value or a counter pair. -/
abbrev W64 := BitVec 64

end Sys2Proof
end

