-- ==== Sys2Proof/Syntax.lean ====
section
/-! DEFINITION. The commands of the Scapor package: one constructor of `Instr` per row of spec/opcode_table.json,
and the operand types that they carry. The table gives no operand bits, so the operands are those the rules of each
row name: which ring, die, port, descriptor or register the event concerns, and the value that arrives with it.

Conventions. `d` is a die number (0 to 7), which is also the number of the Ethernet port and of the flash port that
the die owns (R14). `id` is the number the sequencer gave a descriptor when it accepted it. `ring` is a package ring
(R407). `p` is a partition. -/

namespace Sys2Proof

/-- Who gives an order to a register, a doorbell or a mailbox bell (Table 18-10, LOSER and WINNER). -/
inductive Master where
  | guard
  | pf
  | vf (n : Nat)
  | remote (die conn : Nat)
  | sequencer
  | hardware
  | jtag
deriving DecidableEq, Repr

/-- A register write: four aligned bytes at an offset in a die's window (R610), or, from a virtual function, in its BAR0
(Table 15-3). `be` are the byte enables. -/
structure RegWrite where
  master : Master
  die    : Nat
  off    : Nat
  value  : W32
  be     : BitVec 4
deriving DecidableEq, Repr

/-- Where a fence falls: the die, and the register write of the same cycle, if there is one (R130, R229). -/
structure FenceAt where
  d     : Nat
  rival : Option RegWrite
deriving DecidableEq, Repr

/-- A doorbell write of eight bytes (R417). -/
structure Bell where
  master : Master
  value  : W64
deriving DecidableEq, Repr

/-- The fields of a vector instruction word (R201). -/
structure VFields where
  d   : Nat
  a   : Nat
  b   : Nat
  c   : Nat
  bs  : Bool
  cs  : Bool
  sc  : Bool
  imm : W32
deriving DecidableEq, Repr

/-- Cycles of a pass that have no other cause in Table 04-4: of those before the SWAP, the ones in which no started descriptor
had a row to issue, and the bubbles among the pass's rows that wait for data. -/
structure Gaps where
  idle : Nat
  data : Nat
deriving DecidableEq, Repr

/-- Cycles of a pass that the brake, or the drain, claims (Table 04-4): of the wait for its load, of the wait for the accumulation
gap, and among its rows. -/
structure Waits where
  load : Nat
  acc  : Nat
  rows : Nat
deriving DecidableEq, Repr

/-- A row taken from a drain FIFO: the die, and where the row is the last of an engine's run, how many cycles have passed since
that run's last row was issued. -/
structure RowTake where
  d    : Nat
  tail : Nat
deriving DecidableEq, Repr

/-- A slot of an EXCHANGE whose batch is built, and which words of the batch will fail their parity (R157). -/
structure SlotBuild where
  slot   : Nat
  parity : List Nat
deriving DecidableEq, Repr

/-- The tokens of a combine, and which words of their gate descriptor fail their parity (R157). -/
structure TokenWords where
  n      : Nat
  parity : List Nat
deriving DecidableEq, Repr

/-- What a drive does at the end of a piece: bits [31:16] of Dword 3 of its completion, and the bus addresses at which it tried to
access anything else since its last one (R241, R246). -/
structure DriveEnd where
  status : Nat
  strays : List Nat
deriving DecidableEq, Repr

/-- What a peer's capability frame tells: its part, its stepping, and whether it offers Ximel Link (R279). -/
structure Peer where
  part     : Nat
  stepping : Nat
  offers   : Bool
deriving DecidableEq, Repr

/-- A lane group: its width code and number (R285). -/
structure Lanes where
  width : Nat
  group : Nat
deriving DecidableEq, Repr

/-- An Ethernet frame as the port sees it: addresses, the optional 802.1Q tag (its 16 bits of tag control information, PCP
highest), EtherType and payload, and what the receiver's checks found (Table 09-3): the codewords that the FEC corrected and those
it could not, whether the FCS matches, and under MACsec the association number, the packet number and whether the ICV checks.
`len` counts the frame's bytes as received, FCS included. -/
structure Frame where
  dst       : Nat
  src       : Nat
  tag       : Option Nat
  etype     : Nat
  payload   : List Byte
  len       : Nat
  fecUncorr : Nat
  fecCorr   : Nat
  fcsOk     : Bool
  macsec    : Option (Nat × Nat × Bool)
deriving DecidableEq, Repr

/-- A PAUSE or PFC frame: the priorities it names, each with its time in quanta (R270). -/
structure PauseFrame where
  pfc   : Bool
  times : List (Nat × Nat)
deriving DecidableEq, Repr

/-- What a Ximel Link control frame carries beside its KIND and group: the destination address, what MACsec found of it, and the
ACK that every frame carries (R277, R281). -/
structure LinkCtl where
  dst    : Nat
  macsec : Option (Nat × Nat × Bool)
  ack    : Nat
deriving DecidableEq, Repr

/-- A Ximel Link control frame and the port that it arrives on. -/
structure CtlIn where
  d : Nat
  x : LinkCtl
deriving DecidableEq, Repr

/-- A data frame on Ximel Link: PRIO of its link header, and the frame. -/
structure DataIn where
  prio : Nat
  f    : Frame
deriving DecidableEq, Repr

/-- A transport packet (Tables 10-1 and 10-2): base header, the headers after it, and the payload. -/
structure Packet where
  opcode  : Nat
  first   : Bool
  last    : Bool
  fence   : Bool
  notify  : Bool
  poison  : Bool
  ackReq  : Bool
  dstConn : Nat
  prio    : Nat
  psn     : Nat
  msn     : Nat
  moff    : Nat
  key     : Nat
  roff    : Nat
  len     : Nat
  imm     : W32
  synd    : Nat
  aMsn    : Nat
  payload : List Byte
deriving DecidableEq, Repr

/-- A wheel frame (Table 11-5) with its payload; `mesh` says that it travels over the die mesh, for a MESH group, and not on a port. -/
structure WheelFrame where
  kind    : Nat
  phase   : Nat
  dir     : Nat
  last    : Bool
  poison  : Bool
  slice   : Nat
  seq     : Nat
  group   : Nat
  coll    : Nat
  srcRank : Nat
  dstRank : Nat
  dstXyz  : Nat
  srcXyz  : Nat
  index   : Nat
  piece   : Nat
  credit  : Nat
  ack     : Nat
  ver     : Nat
  mesh    : Bool
  payload : List Byte
deriving DecidableEq, Repr

/-- A commit frame (Table 12-3) with its payload. -/
structure CommitFrame where
  kind      : Nat
  poison    : Bool
  verdict   : Nat
  seq       : Nat
  ack       : Nat
  domain    : Nat
  gen       : Nat
  commit    : Nat
  srcRank   : Nat
  dstXyz    : Nat
  srcXyz    : Nat
  hold      : Nat
  offset    : Nat
  causeRank : Nat
  cause     : Nat
  ver       : Nat
  payload   : List Byte
deriving DecidableEq, Repr

/-- A discovery frame (Table 17-3). Coordinates are two's complement there and integers here. -/
structure DiscFrame where
  kind     : Nat
  ver      : Nat
  estab    : Bool
  role     : Nat
  part     : Nat
  stepping : Nat
  noroot   : Nat
  serial   : Nat
  u        : Int × Int × Int
  min      : Int × Int × Int
  max      : Int × Int × Int
  g        : Nat × Nat × Nat
deriving DecidableEq, Repr

/-- A change frame (Table 19-3). -/
structure ChangeFrame where
  kind    : Nat
  ver     : Nat
  role    : Nat
  seq     : Nat
  origin  : Nat
  subject : Nat
  side    : Bool
  serial  : Nat
deriving DecidableEq, Repr

/-- The path by which a guard request comes (R561). A mailbox request carries its bytes in MB_DATA. -/
inductive GPath where
  | mailbox (m : Nat)
  | sb
  | ses (session : Nat)
deriving DecidableEq, Repr

/-- A guard request (Table 18-1): its path, and its bytes when the path is not a mailbox. -/
structure GReq where
  path  : GPath
  bytes : List Byte
deriving DecidableEq, Repr

/-- An SPDM message: its transport (DOE or MCTP), the secured session it came in, and its bytes (R575). -/
structure SpdmMsg where
  doe     : Bool
  session : Option Nat
  bytes   : List Byte
deriving DecidableEq, Repr

/-- A memory request from the host or from a peer adapter: its Requester ID, the function it came through
(0 the physical function, p + 1 virtual function p + 1), the BAR and the offset in it. -/
structure BusReq where
  rid  : Nat
  fn   : Nat
  bar  : Nat
  off  : Nat
  len  : Nat
  data : List Byte
deriving DecidableEq, Repr

/-- A waiting request at a weir: the partition it is charged to, or none for uncharged traffic, and its size in
bytes (R458, R459). -/
structure WeirReq where
  part : Option Nat
  size : Nat
deriving DecidableEq, Repr

/-- What the activity estimator counted in one 2 µs window of a die, already weighted by the fused table, in mW:
each matrix engine's part, and everything else (R511). -/
structure Activity where
  engines : List Nat
  rest    : Nat
deriving DecidableEq, Repr

/-- The commands: one constructor per row of the opcode table, in the table's order. -/
inductive Instr where
  -- descriptor rings, doorbells, interrupts
  | doorbellPi (ring : Nat) (bell : Bell) (rival : Option Bell)
  | doorbellCqHead (ring : Nat) (bell : Bell) (rival : Option Bell)
  | doorbellEvqHead (ring : Nat) (bell : Bell) (rival : Option Bell)
  | descriptorFetch (ring n : Nat)
  | descriptorAccept (d : Nat)
  | descriptorComplete (id : Nat)
  | msixUnmask (fn vector : Nat)
  -- movers and placement
  | nop (id : Nat)
  | copy (id : Nat)
  | copyInline (id : Nat)
  | layerMark (id : Nat)
  | place (id : Nat)
  | prefetch (id : Nat)
  | prefetchEntryIssue (id : Nat)
  -- matrix engines
  | matrix (id : Nat)
  | stationaryLoad (d e staged : Nat)
  | passStart (d e : Nat) (gaps : Gaps) (brake drain : Waits)
  | passSkip (d e : Nat)
  | drainRowTake (x : RowTake)
  -- converter and history
  | convert (id : Nat)
  | histInit (id : Nat)
  | histClose (id : Nat)
  | histRearm (id : Nat)
  | histClear (id : Nat)
  | histFold (id : Nat)
  -- vector engines
  | vector (id : Nat)
  | veNop (d v : Nat) (f : VFields)
  | ld (d v : Nat) (f : VFields)
  | st (d v : Nat) (f : VFields)
  | movi (d v : Nat) (f : VFields)
  | add (d v : Nat) (f : VFields)
  | sub (d v : Nat) (f : VFields)
  | mul (d v : Nat) (f : VFields)
  | fma (d v : Nat) (f : VFields)
  | fnma (d v : Nat) (f : VFields)
  | max (d v : Nat) (f : VFields)
  | min (d v : Nat) (f : VFields)
  | maxnum (d v : Nat) (f : VFields)
  | minnum (d v : Nat) (f : VFields)
  | abs (d v : Nat) (f : VFields)
  | neg (d v : Nat) (f : VFields)
  | sellt (d v : Nat) (f : VFields)
  | exp (d v : Nat) (f : VFields)
  | rcp (d v : Nat) (f : VFields)
  | rsqrt (d v : Nat) (f : VFields)
  | ssum (d v : Nat) (f : VFields)
  | smaxa (d v : Nat) (f : VFields)
  | update (id : Nat)
  | stageReplay (id : Nat)
  -- token router
  | gate (id : Nat)
  | batchBuild (id : Nat) (x : SlotBuild)
  | batchReplay (d unit : Nat)
  | routerCombine (d p src dst : Nat) (tokens : TokenWords) (width ofmt rnd : Nat) (sat : Bool) (srStep : W32)
  -- collectives
  | allreduce (id : Nat)
  | reduceScatter (id : Nat)
  | allgather (id : Nat)
  | shift (id : Nat)
  | permute (id : Nat)
  | exchange (id : Nat)
  | ret (id : Nat)
  | groupSet (id : Nat)
  -- remote access descriptors
  | connCreate (id : Nat)
  | connModify (id : Nat)
  | connDestroy (id : Nat)
  | connQuery (id : Nat)
  | register (id : Nat)
  | invalidate (id : Nat)
  | write (id : Nat)
  | writeInline (id : Nat)
  | send (id : Nat)
  | read (id : Nat)
  | postBuf (id : Nat)
  -- flash
  | flashRead (id : Nat)
  | flashWrite (id : Nat)
  | flashZero (id : Nat)
  | flashTrim (id : Nat)
  | flashFlush (id : Nat)
  | flashPieceComplete (id piece : Nat) (x : DriveEnd)
  | flashPieceTimeout (id piece : Nat)
  | flashAbortTimeout (port : Nat)
  | decode (id : Nat)
  -- layer commit descriptors
  | twin (id : Nat)
  | revert (id : Nat)
  | commit (id : Nat)
  | domainSet (id : Nat)
  | holdSet (id : Nat)
  | manifest (id : Nat) (failPort : Option (Nat × Nat))
  | manifestScan
  -- mailboxes
  | mbQuery (m : Nat) (seq : BitVec 16) (master : Master)
  | mbPause (m : Nat) (seq : BitVec 16) (master : Master)
  | mbResume (m : Nat) (seq : BitVec 16) (master : Master)
  | mbReset (m : Nat) (seq : BitVec 16) (master : Master)
  | mbEcho (m : Nat) (seq : BitVec 16) (master : Master)
  | mbGuard (m : Nat) (seq : BitVec 16) (master : Master)
  -- guard requests
  | guardQuery (r : GReq)
  | setClkLimit (r : GReq)
  | setCapCeil (r : GReq)
  | setCapSb (r : GReq)
  | setTherm (r : GReq)
  | setDisc (r : GReq)
  | startDisc (r : GReq)
  | guardReset (r : GReq)
  | guardResetDelay
  | readLog (r : GReq)
  | fwBegin (r : GReq)
  | fwWrite (r : GReq)
  | fwCommit (r : GReq)
  | debugNonce (r : GReq)
  | debugUnlock (r : GReq)
  | svnAdvance (r : GReq)
  -- SPDM, TDISP and keys
  | getVersion (m : SpdmMsg)
  | getCapabilities (m : SpdmMsg)
  | negotiateAlgorithms (m : SpdmMsg)
  | getDigests (m : SpdmMsg)
  | getCertificate (m : SpdmMsg)
  | challenge (m : SpdmMsg)
  | getMeasurements (m : SpdmMsg)
  | keyExchange (m : SpdmMsg)
  | finish (m : SpdmMsg)
  | keyUpdate (m : SpdmMsg)
  | heartbeat (m : SpdmMsg)
  | endSession (m : SpdmMsg)
  | chunkSend (m : SpdmMsg)
  | chunkGet (m : SpdmMsg)
  | vendorDefinedRequest (m : SpdmMsg)
  | getLog (m : SpdmMsg)
  | xsak (session port : Nat) (tx : Bool) (an : Nat) (sak : BitVec 256) (salt : BitVec 96) (ssci : W32)
  | xsaSet (session port : Nat) (value : W32)
  | lockInterface (session fn : Nat)
  | ideKm (session stream : Nat) (key : BitVec 256)
  | measureObject (obj : Nat)
  -- Ethernet port
  | frameReceive (d : Nat) (f : Frame)
  | frameTransmit (d : Nat)
  | pauseFrameReceive (d : Nat) (f : Frame)
  | pauseTimerExpire (d prio : Nat)
  | poolHighCross (d : Nat) (prios : List Nat)
  | poolLowCross (d : Nat) (prios : List Nat)
  | pauseRepeat (d prio : Nat)
  -- Ximel Link
  | ximelCapability (d : Nat) (peer : Peer) (x : LinkCtl)
  | ximelDataReceive (d seq ack : Nat) (x : DataIn)
  | ximelAckTimer (d : Nat)
  | ximelNakReceive (d : Nat) (x : LinkCtl)
  | ximelNakResend (d : Nat)
  | ximelReplayTimeout (d : Nat)
  | laneFail (d lane : Nat)
  | narrowRequestRepeat (d : Nat)
  | narrowRequest (d : Nat) (lanes : Lanes) (x : LinkCtl)
  | narrowAck (d : Nat) (lanes : Lanes) (x : LinkCtl)
  | narrowAckTimeout (d : Nat)
  | narrowAlign (d peerAck : Nat)
  | narrowAlignFail (d : Nat)
  | widen (d : Nat)
  | widenTrainEnd (d : Nat) (locked : List Nat)
  | widenRequest (x : CtlIn)
  | widenAck (x : CtlIn)
  | retrain (d : Nat)
  | retrainDeferEnd (d : Nat)
  | portLinkUp (d : Nat)
  | portHoldoutTimeout (d : Nat)
  -- transport packets and timers
  | sendPacket (d : Nat) (k : Packet)
  | writePacket (d : Nat) (k : Packet)
  | readReqPacket (d : Nat) (k : Packet)
  | readRespPacket (d : Nat) (k : Packet)
  | ackPacket (d : Nat) (k : Packet)
  | nakPacket (d : Nat) (k : Packet)
  | xtAckTimer (d conn : Nat)
  | xtNakResend (d conn : Nat)
  | retransmitTimeout (d conn : Nat)
  | rnrWait (d conn : Nat)
  | readRetryTimeout (d conn : Nat)
  | contextFetch (d conn : Nat) (ok : Bool)
  | fenceRelease (d conn : Nat)
  | receiveCompletion (d conn : Nat)
  | xtDisable (d : Nat)
  -- wheel frames and timers
  | wheelDataFrame (d : Nat) (f : WheelFrame)
  | wheelCreditFrame (d : Nat) (f : WheelFrame)
  | wheelCountsFrame (d : Nat) (f : WheelFrame)
  | wheelStartFrame (d : Nat) (f : WheelFrame)
  | wheelAckFrame (d : Nat) (f : WheelFrame)
  | wheelNakFrame (d : Nat) (f : WheelFrame)
  | wheelReplayTimeout (d : Nat)
  | collectiveTimeout (id : Nat)
  | wheelDisable (d : Nat)
  -- commit frames and timers
  | voteReady (group : Nat)
  | prepareFrame (d : Nat) (f : CommitFrame)
  | decideFrame (d : Nat) (f : CommitFrame)
  | buddyPushStart (group obj : Nat)
  | pushFrame (d : Nat) (f : CommitFrame)
  | pushRevertFrame (d : Nat) (f : CommitFrame)
  | pushAckFrame (d : Nat) (f : CommitFrame)
  | cmtLinkAck (d : Nat) (f : CommitFrame)
  | cmtLinkNak (d : Nat) (f : CommitFrame)
  | commitStallTimer (dom what commit : Nat)
  | memberLost (dom rank : Nat)
  | queryFrame (d : Nat) (f : CommitFrame)
  | reportFrame (d : Nat) (f : CommitFrame)
  | cmtDisable (d : Nat)
  | driveEnumerate (d : Nat) (accept : Bool) (lbas rate granted mqes mdts : Nat)
  | refetchComplete (d : Nat) (ok : Bool)
  -- partitions, contexts, weirs, serving
  | sliceExpire (d p : Nat)
  | contextSwitch (d p drainNs : Nat)
  | partitionEnable (d p slice : Nat)
  | partitionDisable (d p : Nat)
  | partMaskWrite (d p : Nat) (value : W32) (master : Master)
  | weirGrant (d path link elapsedNs : Nat) (waiting : List WeirReq)
  | servingEnable (p : Nat) (value : W32)
  | servingStepBuild (p : Nat)
  | servingStepComplete (p : Nat)
  -- host link
  | bar2Read (r : BusReq)
  | bar2Write (r : BusReq)
  | peerRequest (r : BusReq) (isWrite : Bool)
  | cxlMemRead (dpa : Nat)
  | cxlMemWrite (dpa : Nat) (data : List Byte)
  | cacheAnswer (page : Nat) (data : Option (List Byte))
  | biasToShared
  | biasToDevice
  | biasEnable
  | configRequest (fn off : Nat) (wr : Option W32)
  -- power, clocks and heat
  | activityWindow (d : Nat) (a : Activity)
  | sensorRead (d : Nat) (mw : Option Nat)
  | capAllocation
  | freqDecision
  | freqSwitch
  | vrRdyRise (d : Nat)
  | vrRdyFall (d : Nat)
  | uvwAssert (d : Nat)
  | uvwClear (d : Nat)
  | uvwHoldEnd
  | clkModeWrite (mode : Bool)
  | cadenceBroken (cause : Nat)
  | capExceeded (mw : Nat)
  | thermalRead (d : Nat) (sensors : List Int)
  | throttleStep (d : Nat)
  | fanFail (rpm : Nat)
  | fanRecover (rpm : Nat)
  | domainStart (d dom : Nat)
  | domainStop (d dom : Nat)
  -- resets and bring-up
  | powerOn (straps : W32)
  | pwrgoodFall
  | coldReset (pin : Bool) (straps : W32)
  | warmReset (pin : Bool)
  | dieWarmReset (d : Nat)
  | hostFundamentalReset
  | flrPf
  | flrVf (fn : Nat)
  | guardRestart (d : Nat)
  | testReset
  | resetEnd
  | guardBoot (okA okB : Bool)
  | dieEnumeration (selfTestOk : Bool)
  | enumerationTimeout (d : Nat)
  | hostLinkTrain
  | portEnableAuto
  | discoveryFrame (d : Nat) (f : DiscFrame)
  | discoverySendTimer (d : Nat)
  | discoveryValid
  -- faults and spares
  | scrubRead (d : Nat) (ts : Bool) (corrected : Nat) (uncorrectable : Bool)
  | poisonFound (line : Nat) (demand : Bool)
  | ownerSearch (d : Nat)
  | rowRepair (d bank row : Nat)
  | unitFence (x : FenceAt) (unit cause : Nat)
  | progressWatchdog (x : FenceAt) (unit : Nat)
  | rasFence (x : FenceAt) (value : W32)
  | rasReturn (d : Nat) (value : W32)
  | autoReturnTimer (d unit : Nat)
  | selfTestEnd (d unit : Nat) (pass : Bool)
  | serviceEntry (d unit : Nat)
  | meshChange
  | meshChangeAck (d : Nat)
  | ucieRetrain (d : Nat) (value : W32)
  | ucieRetrainEnd (d k : Nat) (ok : Bool)
  | torusLinkDown (d : Nat)
  | torusLinkUp (d : Nat)
  | linkDown (d : Nat) (f : ChangeFrame)
  | linkUp (d : Nat) (f : ChangeFrame)
  | pkgFailed (d : Nat) (f : ChangeFrame)
  | rasDeclare (hi : W32)
  -- register-driven events
  | ringEnable (ring : Nat) (cfg : W32)
  | ringDisable (ring : Nat)
  | evqEnable (p : Nat) (cfg : W32)
  | seqActPeakClr (d : Nat) (value : W32)
  | rasLogClr (d : Nat) (value : W32)
  | grdLostClr (d : Nat) (value : W32)
  | counterClear (d off : Nat) (value : W32) (incs : W32)
  | w1cClear (d off : Nat) (value : W32) (sets : W32)
  | registerWrite (w : RegWrite) (rival : Option RegWrite)
  | counterLoRead (d off : Nat) (wide : Bool)
  | hbmTrainingEnd (d : Nat) (ok : Bool)
  | hostLinkUp (rate width : Nat) (flit memEn cacheEn : Bool)
  | hostLinkDown
  | portLinkDown (d : Nat)
  | ucieLinkLost (d k : Nat)
  | wheelAckTimer (d : Nat)
  | wheelNakResend (d : Nat)
  | cmtReplayTimeout (d : Nat)
  | cmtAckTimer (d : Nat)
  | cmtNakResend (d : Nat)
  | startInterfaceRequest (session fn : Nat)
  | stopInterfaceRequest (session fn : Nat)
  | servingDisable (p : Nat)
  | mbBellRejected (m : Nat) (seq : BitVec 16) (master : Master)
  | unknownService (m : Nat) (seq : BitVec 16) (master : Master)
  | guardUnknownOpcode (r : GReq)
deriving DecidableEq, Repr

end Sys2Proof
end

