-- ==== Sys2Proof/Decode.lean ====
section
/-! DEFINITION. The reader of table words. Every row of spec/opcode_table.json gives its command no bits ("fields" is empty
in all 303 rows): the commands are events, and no word spells one. -/

namespace Sys2Proof

/-- The command that a word of the opcode table spells: none, since no row of the table gives bits. -/
def decodeTableWord (_nbits _w : Nat) : Option Instr := none

end Sys2Proof
end

