-- ==== Sys2Proof/Config.lean ====
section
/-! DEFINITION. What the spec leaves open and what one piece of silicon fuses: constants with no body, so that a claim
holds for every value of them. The step applies them to a fresh number (`State.freeCtr`) or to the operands that the
value depends on. Each is named in the assumption log. -/

namespace Sys2Proof.Config

/-- A byte whose value the spec leaves open: the byte at an address of a region that an event left undefined
(assumption 3). -/
opaque freeByte : Nat → Nat → Byte

/-- A number of a given width in bits whose value the spec leaves open: fresh number, width (assumption 3). -/
opaque freeBits : Nat → Nat → Nat

/-- A fused register word of a die: die, offset of the register in the die's window (GEN_SERIAL, CLK_OPP, GRD_ID)
(assumption 4). -/
opaque fusedWord : Nat → Nat → W32

/-- MIN_SVN and CRIT_MAX as fused when the part left test (assumption 4). -/
opaque fusedSvn : W32

/-- How far a JPEG sample of the stepping lies from the exact inverse DCT of its block, which R259 bounds by 1: the block's
coefficients and the sample's place (assumption 23). -/
opaque idctError : List (Nat × Int) → Nat → Int

/-- Which way a tile of a reduction of more than two members travels in free mode: R351 measures the bytes queued at the member that
first sends it, which hangs on the direction itself. Collective number, piece, tile; true for + rank order (assumption 27). -/
opaque ringDir : Nat → Nat → Nat → Bool

/-- The coordinates of the package that has a serial number, none for a side member: how the RAS block of die 0 learns them is
not stated (assumption 28). -/
opaque peerXyz : Nat → Option Nat

/-- The serial number of the package at some coordinates (assumption 28). -/
opaque peerSerial : Nat → Nat

/-- The MAC address at which groups and domains name the side member that has a serial number (assumption 28). -/
opaque sideMac : Nat → Nat

/-- A dword of configuration space that software cannot write: function and offset (assumption 5). -/
opaque cfgWired : Nat → Nat → Nat

/-- The three entries of the matrix from which a die's recursive least squares start (R512 does not give them; assumption 29). -/
opaque rlsStart : Nat → Rat

/-- Whether a boot-flash slot (0 A, 1 B) holds a whole manifest as the part left manufacture (assumption 31). -/
opaque factoryValid : Nat → Bool

/-- The sequence number of that manifest (assumption 31). -/
opaque factorySeq : Nat → Nat

/-- The SVN of that manifest (assumption 31). -/
opaque factorySvn : Nat → Nat

/-- The SHA-384 digest of that slot's image (assumption 31). -/
opaque factoryDigest : Nat → List Byte

/-- The SHA-384 digest of the guard ROM (assumption 31). -/
opaque romDigest : List Byte

/-- Whether an image passes the digest and signature checks of a manifest with some SVN under the Dravomar firmware key: image, SVN
(assumption 32). -/
opaque fwSigned : List Byte → Nat → Bool

/-- Whether a debug token binds this package's serial and a nonce and is signed under the Dravomar debug key: serial, nonce, token
(assumption 32). -/
opaque tokenOk : Nat → List Byte → List Byte → Bool

/-- Whether the fused debug policy lets a token unlock (assumption 4). -/
opaque debugAllowed : Bool

/-- The certificate chain of slot 0 in the SPDM format: digest, SVN and slot of the running firmware, and whether debug is unlocked;
the unique device secret goes into it (assumption 33). -/
opaque certChain : List Byte → Nat → Nat → Bool → List Byte

/-- Whether the verify data of a FINISH is right: the session's number and the message (assumption 33). -/
opaque finishOk : Nat → List Byte → Bool

/-- Where the 8 MiB staging SRAM of a die's flash port lies on the bus that its drive sees (assumption 74). -/
opaque stageBus : Nat → Nat

/-- The Identification field of an IPv4 packet, which R293 does not give: connection number and PSN (assumption 76). -/
opaque ipIdent : Nat → Nat → Nat

/-- The longest SPDM response that is sent whole, in bytes (assumption 34). -/
opaque spdmMax : Nat

end Sys2Proof.Config
end

