-- ==== Sys2Proof/Machine/Bits.lean ====
section
/-! DEFINITION. Bit fields, little-endian and network byte order, the sorted lists of keyed values that hold sparse
state, and CRC-32C. -/

namespace Sys2Proof.Machine

/-- Bits [lo + len − 1 : lo] of a number. -/
def fld (n lo len : Nat) : Nat := n / 2 ^ lo % 2 ^ len

/-- One bit of a number. -/
def bit (n i : Nat) : Bool := n / 2 ^ i % 2 == 1

/-- A number with bits [lo + len − 1 : lo] replaced by the low bits of `v`. -/
def setFld (n lo len v : Nat) : Nat := n - 2 ^ lo * fld n lo len + 2 ^ lo * (v % 2 ^ len)

/-- A number with one bit set to `b`. -/
def setBit (n i : Nat) (b : Bool) : Nat := setFld n i 1 (if b then 1 else 0)

/-- A Bool as a number. -/
def b2n (b : Bool) : Nat := if b then 1 else 0

/-- Signed reading of the low `len` bits (two's complement). -/
def sext (n len : Nat) : Int :=
  let v := n % 2 ^ len
  if v < 2 ^ (len - 1) then (v : Int) else (v : Int) - 2 ^ len

/-- Two's complement of an integer in `len` bits. -/
def twos (i : Int) (len : Nat) : Nat := (i % (2 ^ len : Nat)).toNat

/-- The number that little-endian bytes spell (R21). -/
def leNat : List Byte → Nat
  | [] => 0
  | b :: bs => b.toNat + 256 * leNat bs

/-- The low `len` bytes of a number, little-endian (R21). -/
def natLe : Nat → Nat → List Byte
  | 0, _ => []
  | len + 1, n => BitVec.ofNat 8 n :: natLe len (n / 256)

/-- The number that bytes in network order spell. -/
def beNat (bs : List Byte) : Nat := leNat bs.reverse

/-- The low `len` bytes of a number in network order. -/
def natBe (len n : Nat) : List Byte := (natLe len n).reverse

/-- `len` bytes of a list from `off`, as a little-endian number; bytes past the end count as zero. -/
def leAt (bs : List Byte) (off len : Nat) : Nat := leNat ((bs.drop off).take len)

/-- `len` bytes of a list from `off`, as a number in network order. -/
def beAt (bs : List Byte) (off len : Nat) : Nat := beNat ((bs.drop off).take len)

/-- A list of bytes with the bytes from `off` replaced by `v`. -/
def spliceAt (bs : List Byte) (off : Nat) (v : List Byte) : List Byte :=
  bs.take off ++ v ++ bs.drop (off + v.length)

/-- A list cut or filled with zero bytes to a length. -/
def padTo (len : Nat) (bs : List Byte) : List Byte :=
  bs.take len ++ List.replicate (len - bs.length) 0

/-! Sparse state: lists of (key, value) with keys strictly rising. -/

/-- The value listed for a key. -/
def kvFind {α : Type} : List (Nat × α) → Nat → Option α
  | [], _ => none
  | (k, v) :: l, x => if k = x then some v else kvFind l x

/-- The value of a key, or `dflt` when none is listed. -/
def kvGet {α : Type} (dflt : α) (l : List (Nat × α)) (k : Nat) : α := (kvFind l k).getD dflt

/-- Lists a value for a key, in order, in place of the one listed before. -/
def kvPut {α : Type} : List (Nat × α) → Nat → α → List (Nat × α)
  | [], x, v => [(x, v)]
  | (k, w) :: l, x, v =>
    if x < k then (x, v) :: (k, w) :: l
    else if x = k then (x, v) :: l
    else (k, w) :: kvPut l x v

/-- Takes a key out. -/
def kvErase {α : Type} : List (Nat × α) → Nat → List (Nat × α)
  | [], _ => []
  | (k, w) :: l, x => if k = x then l else (k, w) :: kvErase l x

/-- Lists a value for a key, or takes the key out when the value is what an unlisted key reads as. -/
def kvSet {α : Type} [DecidableEq α] (dflt : α) (l : List (Nat × α)) (k : Nat) (v : α) : List (Nat × α) :=
  if v = dflt then kvErase l k else kvPut l k v

/-- The keys rise strictly from above a bound and no listed value is the default: the canonical form. -/
def kvWfFrom {α : Type} [DecidableEq α] (dflt : α) : Option Nat → List (Nat × α) → Bool
  | _, [] => true
  | lo, (k, v) :: l =>
    (match lo with | none => true | some b => decide (b < k)) && decide (v ≠ dflt) && kvWfFrom dflt (some k) l

/-- The canonical form of a sparse list. -/
def kvWf {α : Type} [DecidableEq α] (dflt : α) (l : List (Nat × α)) : Bool := kvWfFrom dflt none l

/-- Applies a function to every member that a test picks. -/
def mapIf {α : Type} (p : α → Bool) (f : α → α) (l : List α) : List α := l.map fun x => if p x then f x else x

/-- Adds a member that is not there yet, at the end. -/
def addNew {α : Type} [DecidableEq α] (x : α) (l : List α) : List α := if x ∈ l then l else l ++ [x]

/-- A list with later repeats taken out. -/
def nub {α : Type} [DecidableEq α] (l : List α) : List α := l.foldl (fun a x => addNew x a) []

/-- A list without a member. -/
def without {α : Type} [DecidableEq α] (x : α) (l : List α) : List α := l.filter (· ≠ x)

/-- The first member of least key. -/
def minBy {α : Type} (key : α → Nat) : List α → Option α
  | [] => none
  | x :: l =>
    match minBy key l with
    | none => some x
    | some y => if key y < key x then some y else some x

/-- The sum of a list of numbers. -/
def sumNat : List Nat → Nat
  | [] => 0
  | x :: l => x + sumNat l

/-- The greatest of a list of numbers, 0 for none. -/
def maxNat : List Nat → Nat
  | [] => 0
  | x :: l => Nat.max x (maxNat l)

/-- The numbers of the bits set in the low `len` bits. -/
def bitsOf (n len : Nat) : List Nat := (List.range len).filter (bit n)

/-- How many of the low `len` bits are set. -/
def popcount (n len : Nat) : Nat := (bitsOf n len).length

/-- The distance (a − b) modulo 2^w of two free-running numbers. -/
def modSub (w a b : Nat) : Nat := (a % 2 ^ w + 2 ^ w - b % 2 ^ w) % 2 ^ w

/-! CRC-32C (Castagnoli), R22: reflected polynomial 0x82F6_3B78, all ones before and inverted after. -/

/-- One bit of the CRC-32C register. -/
def crcBit (c : Nat) : Nat := if c % 2 = 1 then Nat.xor (c / 2) 0x82F63B78 else c / 2

/-- One byte into the CRC-32C register. -/
def crcByte (c : Nat) (b : Byte) : Nat :=
  crcBit (crcBit (crcBit (crcBit (crcBit (crcBit (crcBit (crcBit (Nat.xor c b.toNat))))))))

/-- CRC-32C of a sequence of bytes. -/
def crc32c (bs : List Byte) : Nat := Nat.xor (bs.foldl crcByte 0xFFFFFFFF) 0xFFFFFFFF

end Sys2Proof.Machine
end

