-- ==== Sys2Proof/Machine/Flags.lean ====
section
/-! DEFINITION. Exact values, rounding, the eight sticky flags (Table 03-1), and every computation that raises them:
conversion to a stored element (R57 to R66, Table 03-6), FP32 arithmetic (R75 to R80), the ACC format (R81 to R84),
comparisons (R88) and the transcendentals (R90). A value is exact: a sign and a fraction times a power of two. -/

namespace Sys2Proof.Machine

/-! ## Sticky flags (Table 03-1), as a mask -/

namespace Flag
/-- Inexact. -/
def nx : Nat := 1
/-- Underflow. -/
def uf : Nat := 2
/-- Overflow. -/
def ovf : Nat := 4
/-- Division by zero. -/
def dz : Nat := 8
/-- Invalid. -/
def iv : Nat := 16
/-- Clamped. -/
def cl : Nat := 32
/-- NaN operand. -/
def ni : Nat := 64
/-- Flushed to zero. -/
def fz : Nat := 128
end Flag

/-! ## Exact values -/

/-- A value before it is stored: NaN or infinity with a sign, or (−1)^neg × n / d × 2^e. A zero has n = 0 and keeps its
sign (R46). -/
inductive Val where
  | nan (neg : Bool)
  | inf (neg : Bool)
  | fin (neg : Bool) (n d : Nat) (e : Int)
deriving DecidableEq, Repr

/-- The sign of a value. -/
def Val.neg : Val → Bool
  | .nan b => b
  | .inf b => b
  | .fin b _ _ _ => b

/-- A zero of a sign. -/
def Val.zero (neg : Bool) : Val := .fin neg 0 1 0

/-- An integer as a value. -/
def Val.ofInt (i : Int) : Val := .fin (decide (i < 0)) i.natAbs 1 0

/-- Whether a value is NaN. -/
def Val.isNan : Val → Bool
  | .nan _ => true
  | _ => false

/-- Whether a value is a zero. -/
def Val.isZero : Val → Bool
  | .fin _ n _ _ => n == 0
  | _ => false

/-- Whether a value is infinite. -/
def Val.isInf : Val → Bool
  | .inf _ => true
  | _ => false

/-- The value with its sign inverted. -/
def Val.negate : Val → Val
  | .nan b => .nan !b
  | .inf b => .inf !b
  | .fin b n d e => .fin (!b) n d e

/-- The value with its sign cleared. -/
def Val.abs : Val → Val
  | .nan _ => .nan false
  | .inf _ => .inf false
  | .fin _ n d e => .fin false n d e

/-- n × 2^k for k ≥ 0, n when k is negative: one side of a scaled fraction. -/
def shl (n : Nat) (k : Int) : Nat := n * 2 ^ k.toNat

/-- A number aligned to the exponent `e'` ≤ e. -/
def alignTo (n : Nat) (e e' : Int) : Nat := shl n (e - e')

/-- Exact sum of two finite values; an exact zero from opposite signs is +0, and −0 + −0 is −0 (R76). -/
def addFin (b1 : Bool) (n1 d1 : Nat) (e1 : Int) (b2 : Bool) (n2 d2 : Nat) (e2 : Int) : Val :=
  let e := min e1 e2
  let x : Int := (alignTo n1 e1 e * d2 : Nat)
  let y : Int := (alignTo n2 e2 e * d1 : Nat)
  let t := (if b1 then -x else x) + (if b2 then -y else y)
  if t = 0 then .fin (b1 && b2) 0 1 0 else .fin (decide (t < 0)) t.natAbs (d1 * d2) e

/-- Exact product of two finite values (R76). -/
def mulFin (b1 : Bool) (n1 d1 : Nat) (e1 : Int) (b2 : Bool) (n2 d2 : Nat) (e2 : Int) : Val :=
  .fin (xor b1 b2) (n1 * n2) (d1 * d2) (e1 + e2)

/-- A product, exact, with its flags (Table 03-2). The first NaN operand gives the sign (R75). -/
def mulVal : Val → Val → Val × Nat
  | .nan b, _ => (.nan b, Flag.ni)
  | _, .nan b => (.nan b, Flag.ni)
  | .inf a, .inf b => (.inf (xor a b), 0)
  | .inf a, .fin b n _ _ => if n = 0 then (.nan false, Flag.iv) else (.inf (xor a b), 0)
  | .fin a n _ _, .inf b => if n = 0 then (.nan false, Flag.iv) else (.inf (xor a b), 0)
  | .fin a n d e, .fin b n' d' e' => (mulFin a n d e b n' d' e', 0)

/-- A sum, exact, with its flags (Table 03-3). -/
def addVal : Val → Val → Val × Nat
  | .nan b, _ => (.nan b, Flag.ni)
  | _, .nan b => (.nan b, Flag.ni)
  | .inf a, .inf b => if a = b then (.inf a, 0) else (.nan false, Flag.iv)
  | .inf a, _ => (.inf a, 0)
  | _, .inf b => (.inf b, 0)
  | .fin a n d e, .fin b n' d' e' => (addFin a n d e b n' d' e', 0)

/-- The value divided by a positive finite value; used for tensor and block scales (R57). -/
def Val.divBy (v : Val) (n d : Nat) (e : Int) : Val :=
  match v with
  | .fin b n' d' e' => .fin b (n' * d) (d' * n) (e' - e)
  | x => x

/-- The value times 2^k. -/
def Val.scale (v : Val) (k : Int) : Val :=
  match v with
  | .fin b n d e => .fin b n d (e + k)
  | x => x

/-- floor(log2(n / d × 2^e)) of a positive fraction. -/
def flog2 (n d : Nat) (e : Int) : Int :=
  let k : Int := (Nat.log2 n : Int) - Nat.log2 d
  (if shl n (-k) < shl d k then k - 1 else k) + e

/-- Compares two magnitudes: whether n / d × 2^e < n' / d' × 2^e'. -/
def magLt (n d : Nat) (e : Int) (n' d' : Nat) (e' : Int) : Bool :=
  let m := min e e'
  decide (alignTo n e m * d' < alignTo n' e' m * d)

/-- Whether a number value is less than another: NaN is not compared; zeros are equal whatever their signs. -/
def Val.lt : Val → Val → Bool
  | .nan _, _ => false
  | _, .nan _ => false
  | .inf a, .inf b => a && !b
  | .inf a, .fin .. => a
  | .fin .., .inf b => !b
  | .fin a n d e, .fin b n' d' e' =>
    if n = 0 && n' = 0 then false
    else if n = 0 then !b
    else if n' = 0 then a
    else if a && !b then true
    else if !a && b then false
    else if a then magLt n' d' e' n d e
    else magLt n d e n' d' e'

/-! ## Rounding (Table 02-5, R64, R65) -/

/-- The rounding modes of RND; 0b11 is reserved and never reaches a rounding. -/
inductive Rnd where
  | nearest
  | zero
  | stoch
deriving DecidableEq, Repr

/-- RND as a mode; none for the reserved code. -/
def rndOf : Nat → Option Rnd
  | 0 => some .nearest
  | 1 => some .zero
  | 2 => some .stoch
  | _ => none

/-- Rounds n / d × 2^e to a multiple of 2^u: the multiple, and whether it differs. `r` is the 24-bit random number. -/
def roundTo (m : Rnd) (r : Nat) (n d : Nat) (e u : Int) : Nat × Bool :=
  let nn := shl n (e - u)
  let dd := shl d (u - e)
  let k := nn / dd
  let rest := nn % dd
  let up := match m with
    | .nearest => decide (2 * rest > dd) || (decide (2 * rest = dd) && k % 2 == 1)
    | .zero => false
    | .stoch => decide (rest * 2 ^ 24 / dd + r ≥ 2 ^ 24)
  (if up then k + 1 else k, rest != 0)

/-! ## Floating-point formats (Table 02-2) -/

/-- A floating-point element format. `top` is the largest finite magnitude as a code; `hasInf` and `hasNan` say which
specials it encodes; `nan` is its canonical NaN without the sign. -/
structure FFmt where
  ebits  : Nat
  mbits  : Nat
  bias   : Int
  top    : Nat
  hasInf : Bool
  hasNan : Bool
  nan    : Nat
deriving DecidableEq, Repr

/-- FP32. -/
def fp32 : FFmt := ⟨8, 23, 127, 0x7F7FFFFF, true, true, 0x7FC00000⟩
/-- BF16. -/
def bf16 : FFmt := ⟨8, 7, 127, 0x7F7F, true, true, 0x7FC0⟩
/-- FP16. -/
def fp16 : FFmt := ⟨5, 10, 15, 0x7BFF, true, true, 0x7E00⟩
/-- FP8 E5M2. -/
def e5m2 : FFmt := ⟨5, 2, 15, 0x7B, true, true, 0x7E⟩
/-- FP8 E4M3. -/
def e4m3 : FFmt := ⟨4, 3, 7, 0x7E, false, true, 0x7F⟩
/-- FP6 E3M2. -/
def e3m2 : FFmt := ⟨3, 2, 3, 0x1F, false, false, 0⟩
/-- FP6 E2M3. -/
def e2m3 : FFmt := ⟨2, 3, 1, 0x1F, false, false, 0⟩
/-- FP4 E2M1. -/
def e2m1 : FFmt := ⟨2, 1, 1, 0x7, false, false, 0⟩

/-- Bits of a format below its sign. -/
def FFmt.width (f : FFmt) : Nat := f.ebits + f.mbits

/-- The sign bit of a format as a number. -/
def FFmt.sign (f : FFmt) (neg : Bool) : Nat := if neg then 2 ^ f.width else 0

/-- The exponent of the smallest normal. -/
def FFmt.emin (f : FFmt) : Int := 1 - f.bias

/-- The magnitude that a code below the specials encodes (R45): a significand and the exponent of its last place. -/
def FFmt.mag (f : FFmt) (c : Nat) : Nat × Int :=
  let ex := c / 2 ^ f.mbits
  let m := c % 2 ^ f.mbits
  if ex = 0 then (m, f.emin - f.mbits) else (m + 2 ^ f.mbits, (ex : Int) - f.bias - f.mbits)

/-- The value that the bits of an element encode (Table 02-2). -/
def FFmt.decode (f : FFmt) (bits : Nat) : Val :=
  let neg := bit bits f.width
  let c := bits % 2 ^ f.width
  if f.hasInf && c = f.top + 1 then .inf neg
  else if f.hasNan && c > f.top then .nan neg
  else let (m, e) := f.mag c; .fin neg m 1 e

/-- Whether bits encode a subnormal. -/
def FFmt.isSub (f : FFmt) (bits : Nat) : Bool :=
  let c := bits % 2 ^ f.width
  decide (c / 2 ^ f.mbits = 0) && c % 2 ^ f.mbits != 0

/-- The code of k × 2^u, where u is the last place that rounding chose. -/
def FFmt.code (f : FFmt) (k : Nat) (u : Int) : Nat :=
  if k < 2 ^ f.mbits then k
  else
    let k' := if k = 2 ^ (f.mbits + 1) then 2 ^ f.mbits else k
    let u' := if k = 2 ^ (f.mbits + 1) then u + 1 else u
    (u' + f.mbits + f.bias).toNat * 2 ^ f.mbits + (k' - 2 ^ f.mbits)

/-- How a conversion is asked to round: mode, SAT, whether tiny results are flushed, and the element's random number. -/
structure Conv where
  rnd : Rnd
  sat : Bool
  ftz : Bool
  r   : Nat
deriving DecidableEq, Repr

/-- The last place to which a magnitude is rounded in a format. -/
def FFmt.place (f : FFmt) (n d : Nat) (e : Int) : Int := max (flog2 n d e) f.emin - f.mbits

/-- Whether a magnitude, rounded as if the exponent range were unbounded, passes the largest finite one (R62). -/
def FFmt.overflows (f : FFmt) (c : Conv) (n d : Nat) (e : Int) : Bool :=
  let u := flog2 n d e - f.mbits
  let (k, _) := roundTo c.rnd c.r n d e u
  let (m, t) := f.mag f.top
  magLt m 1 t k 1 u

/-- Whether a magnitude, rounded as if the exponent range were unbounded, lies below the smallest normal (R85). -/
def FFmt.tiny (f : FFmt) (c : Conv) (n d : Nat) (e : Int) : Bool :=
  let u := flog2 n d e - f.mbits
  let (k, _) := roundTo c.rnd c.r n d e u
  k != 0 && magLt k 1 u 1 1 f.emin

/-- Conversion to FP32, BF16, FP16 or FP8: the element and its flags (Tables 02-4 and 03-6). -/
def convFloat (f : FFmt) (c : Conv) : Val → Nat × Nat
  | .nan b => (f.sign b + f.nan, Flag.ni)
  | .inf b =>
    if f.hasInf then (f.sign b + f.top + 1, 0)
    else if c.sat then (f.sign b + f.top, Flag.cl)
    else (f.sign b + f.nan, Flag.iv)
  | .fin b n d e =>
    if n = 0 then (f.sign b, 0)
    else if f.overflows c n d e then
      if c.sat || c.rnd = .zero then (f.sign b + f.top, Flag.ovf + Flag.cl + Flag.nx)
      else if f.hasInf then (f.sign b + f.top + 1, Flag.ovf + Flag.nx)
      else (f.sign b + f.nan, Flag.ovf + Flag.iv + Flag.nx)
    else if c.ftz && f.tiny c n d e then (f.sign b, Flag.fz + Flag.uf + Flag.nx)
    else
      let u := f.place n d e
      let (k, inex) := roundTo c.rnd c.r n d e u
      (f.sign b + f.code k u,
        if !inex then 0 else if f.tiny c n d e || k = 0 then Flag.uf + Flag.nx else Flag.nx)

/-- Conversion to an element of a block-scaled format, already divided by its scales; the element saturates whatever SAT
holds (R62). NaN and infinite sources are the block's business (`convBlock`). -/
def convElem (f : FFmt) (c : Conv) (b : Bool) (n d : Nat) (e : Int) : Nat × Nat :=
  if n = 0 then (f.sign b, 0)
  else if f.overflows c n d e then (f.sign b + f.top, Flag.ovf + Flag.cl + Flag.nx)
  else
    let u := f.place n d e
    let (k, inex) := roundTo c.rnd c.r n d e u
    (f.sign b + f.code k u, if !inex then 0 else if k = 0 then Flag.uf + Flag.nx else Flag.nx)

/-- Conversion to an MXINT8 element: q × 2⁻⁶ with q from −127 to 127 (R54). -/
def convMxInt8 (c : Conv) (b : Bool) (n d : Nat) (e : Int) : Nat × Nat :=
  let (k, inex) := roundTo c.rnd c.r n d e (-6)
  let enc := fun (q : Nat) => if b && q != 0 then 256 - q else q
  if k > 127 then (enc 127, Flag.ovf + Flag.cl + Flag.nx)
  else (enc k, if n = 0 || !inex then 0 else if k = 0 then Flag.uf + Flag.nx else Flag.nx)

/-- Conversion to a two's-complement integer of `w` bits with a zero point (R62, Table 03-6). -/
def convInt (w : Nat) (zp : Int) (c : Conv) : Val → Nat × Nat
  | .nan _ => (0, Flag.ni + Flag.iv)
  | .inf b => (if b then 2 ^ (w - 1) else 2 ^ (w - 1) - 1, Flag.cl)
  | .fin b n d e =>
    let (k, inex) := roundTo c.rnd c.r n d e 0
    let q : Int := (if b then -(k : Int) else k) + zp
    let hi : Int := 2 ^ (w - 1) - 1
    let lo : Int := -(2 ^ (w - 1))
    if q > hi then (2 ^ (w - 1) - 1, Flag.ovf + Flag.cl + Flag.nx)
    else if q < lo then (2 ^ (w - 1), Flag.ovf + Flag.cl + Flag.nx)
    else (twos q w, if inex then Flag.nx else 0)

/-! ## FP32 arithmetic of the vector engines and the wheel (R77 to R80) -/

/-- Round to nearest even, no saturation; `ftz` flushes tiny results. -/
def rne (ftz : Bool) : Conv := ⟨.nearest, false, ftz, 0⟩

/-- An FP32 operand, flushed when asked and subnormal (R91): its value and the flag. -/
def f32in (daz : Bool) (x : Nat) : Val × Nat :=
  if daz && fp32.isSub x then (.zero (bit x 31), Flag.fz) else (fp32.decode x, 0)

/-- An exact result rounded once to FP32 with nearest-even, tiny results flushed when asked. The flags of NaN results are
those of the operation, so none is added for them here. -/
def f32out (ftz : Bool) (v : Val) : Nat × Nat :=
  match v with
  | .nan b => (fp32.sign b + fp32.nan, 0)
  | x => convFloat fp32 (rne ftz) x

/-- A two-operand FP32 operation with input and output flushes. -/
def f32op2 (op : Val → Val → Val × Nat) (daz ftz : Bool) (x y : Nat) : Nat × Nat :=
  let (a, fa) := f32in daz x
  let (b, fb) := f32in daz y
  let (v, fo) := op a b
  let (r, fr) := f32out ftz v
  (r, Nat.lor (Nat.lor fa fb) (Nat.lor fo fr))

/-- ADD. -/
def f32add := f32op2 addVal

/-- MUL. -/
def f32mul := f32op2 mulVal

/-- SUB, V[A] + (−B): the negation leaves a NaN's sign (R75). -/
def subVal (a b : Val) : Val × Nat := addVal a (if b.isNan then b else b.negate)

/-- SUB. -/
def f32sub := f32op2 subVal

/-- a × b + c, exact, with its flags (R79). `negp` negates a product that is not NaN, as FNMA does (R75). -/
def fmaVal (negp : Bool) (a b c : Val) : Val × Nat :=
  let p := mulVal a b
  let p' := if negp && !p.1.isNan then p.1.negate else p.1
  if a.isNan || b.isNan then (p.1, Flag.ni)
  else if c.isNan then (c, Nat.lor Flag.ni p.2)
  else if p.1.isNan then p
  else addVal p' c

/-- FMA and FNMA. -/
def f32fma (negp daz ftz : Bool) (x y z : Nat) : Nat × Nat :=
  let (a, fa) := f32in daz x
  let (b, fb) := f32in daz y
  let (c, fc) := f32in daz z
  let (v, fo) := fmaVal negp a b c
  let (r, fr) := f32out ftz v
  (r, Nat.lor (Nat.lor fa fb) (Nat.lor fc (Nat.lor fo fr)))

/-! ## Comparisons (Table 03-5) -/

/-- The larger or smaller of two numbers: +0 above −0. -/
def pick (mx : Bool) (a b : Val) : Val :=
  if a.isZero && b.isZero then .zero (if mx then a.neg && b.neg else a.neg || b.neg)
  else if mx then (if a.lt b then b else a) else (if b.lt a then b else a)

/-- MAX, MIN (`num` false) and MAXNUM, MINNUM (`num` true). -/
def pickVal (mx num : Bool) (a b : Val) : Val × Nat :=
  if a.isNan && b.isNan then (a, Flag.ni)
  else if a.isNan then (if num then b else a, Flag.ni)
  else if b.isNan then (if num then a else b, Flag.ni)
  else (pick mx a b, 0)

/-- A comparison on FP32 words: inputs may be flushed, the result is exact and never flushed (R91). -/
def f32pick (mx num daz : Bool) (x y : Nat) : Nat × Nat := f32op2 (pickVal mx num) daz false x y

/-! ## The accumulator format ACC (R81): 24-bit significand, the exponent range of binary64 -/

/-- Rounds an exact value to ACC, nearest-even. -/
def accRound (v : Val) : Val × Nat :=
  match v with
  | .fin b n d e =>
    if n = 0 then (.zero b, 0)
    else
      let u := flog2 n d e - 23
      let (k, inex) := roundTo .nearest 0 n d e u
      if magLt (2 ^ 24 - 1) 1 (1023 - 23) k 1 u then (.inf b, Flag.ovf + Flag.nx)
      else (.fin b k 1 u, if inex then Flag.nx else 0)
  | x => (x, 0)

/-- P + G rounded once to ACC (R82, R84). -/
def accAdd (p g : Val) : Val × Nat :=
  let (v, f) := addVal p g
  let (r, f') := accRound v
  (r, Nat.lor f f')

/-- The exact sum of finite products. -/
def sumVals : List Val → Val
  | [] => .zero false
  | v :: vs => vs.foldl (fun a b => (addVal a b).1) v

/-- The exact G of a group from its products, with the flags (R83, R84): the first product with a NaN operand decides the
NaN (R75); ∞ × 0 and infinite products of both signs make NaN, the latter with IV of its own; any other infinite product
decides an infinity; and a zero G is −0 when every product is −0, +0 otherwise. -/
def groupSum (ps : List (Val × Nat)) : Val × Nat :=
  let clash := (ps.any fun p => p.1 == .inf false) && ps.any fun p => p.1 == .inf true
  let f := ps.foldl (fun f p => Nat.lor f p.2) (if clash then Flag.iv else 0)
  match ps.find? fun p => bit p.2 6 with
  | some p => (p.1, f)
  | none =>
    if clash || ps.any fun p => p.1.isNan then (.nan false, f)
    else match ps.find? fun p => p.1.isInf with
      | some p => (p.1, f)
      | none => (sumVals (ps.map Prod.fst), f)

/-- A saturating INT32 addition (R86). -/
def satAdd32 (a b : Int) : Int × Nat :=
  let t := a + b
  if t > 2 ^ 31 - 1 then (2 ^ 31 - 1, Flag.ovf + Flag.cl)
  else if t < -(2 ^ 31) then (-(2 ^ 31), Flag.ovf + Flag.cl)
  else (t, 0)

/-! ## Transcendentals (Table 03-7) -/

/-- floor(√n), found bit by bit from 2^i downward. -/
def isqrtFrom (n : Nat) : Nat → Nat → Nat
  | 0, r => r
  | i + 1, r => isqrtFrom n i (if (r + 2 ^ i) * (r + 2 ^ i) ≤ n then r + 2 ^ i else r)

/-- RCP of a value. -/
def rcpVal : Val → Val × Nat
  | .nan b => (.nan b, Flag.ni)
  | .inf b => (.zero b, 0)
  | .fin b n d e => if n = 0 then (.inf b, Flag.dz) else (.fin b d n (-e), 0)

/-- Places after the point kept by the square root and the exponential. -/
def trPlaces : Nat := 400

/-- RSQRT of a value: the root is exact, or its first bits with a last bit that stands for the rest. -/
def rsqrtVal : Val → Val × Nat
  | .nan b => (.nan b, Flag.ni)
  | .inf b => if b then (.nan false, Flag.iv) else (.zero false, 0)
  | .fin b n d e =>
    if n = 0 then (.inf b, Flag.dz)
    else if b then (.nan false, Flag.iv)
    else
      let nn := shl d (2 * trPlaces - e)
      let dd := shl n (e - 2 * trPlaces)
      let r := isqrtFrom (nn / dd) (trPlaces + 80) 0
      if r * r * dd = nn then (.fin false r 1 (-trPlaces), 0)
      else (.fin false (2 * r + 1) 1 (-trPlaces - 1), 0)

/-- The Taylor sum of exp at y / 2^trPlaces, |y| < 2^(trPlaces − 1), in units of 2^(−trPlaces), rounded down term by
term: `k` terms left, `j` the next index, `t` the term. -/
def expSeries (y : Int) : Nat → Nat → Int → Int → Int
  | 0, _, _, s => s
  | k + 1, j, t, s =>
    let t' := t * y / (2 ^ trPlaces * (j : Int))
    expSeries y k (j + 1) t' (s + t')

/-- Squares a fixed-point number `k` times. -/
def sqTimes : Nat → Int → Int
  | 0, s => s
  | k + 1, s => sqTimes k (s * s / 2 ^ trPlaces)

/-- exp of a finite value from −104 to 89 in units of 2^(−trPlaces), to within 2⁻¹⁰⁰ of its own size: the argument is
divided by 2^9, summed over 60 terms and squared nine times. -/
def expFixed (b : Bool) (n d : Nat) (e : Int) : Nat :=
  let x : Int := (shl n (e + trPlaces) / shl d (-e - trPlaces) : Nat)
  let y : Int := (if b then -x else x) / 2 ^ 9
  (sqTimes 9 (expSeries y 60 1 (2 ^ trPlaces) (2 ^ trPlaces))).toNat

/-- EXP of a value; the last bit stands for the rest of an inexact result. -/
def expVal : Val → Val × Nat
  | .nan b => (.nan b, Flag.ni)
  | .inf b => (if b then .zero false else .inf false, 0)
  | .fin b n d e =>
    if n = 0 then (.fin false 1 1 0, 0)
    else if b && magLt 104 1 0 n d e then (.fin false 1 1 (-200), 0)
    else if !b && magLt 89 1 0 n d e then (.fin false 1 1 200, 0)
    else (.fin false (2 * expFixed b n d e + 1) 1 (-trPlaces - 1), 0)

/-- A one-operand FP32 operation with input and output flushes. -/
def f32op1 (op : Val → Val × Nat) (daz ftz : Bool) (x : Nat) : Nat × Nat :=
  let (a, fa) := f32in daz x
  let (v, fo) := op a
  let (r, fr) := f32out ftz v
  (r, Nat.lor fa (Nat.lor fo fr))

/-! ## Philox4x32-10 (R66) -/

/-- One round on (c0, c1, c2, c3) with key (k0, k1). -/
def philoxRound (c : Nat × Nat × Nat × Nat) (k0 k1 : Nat) : Nat × Nat × Nat × Nat :=
  let (c0, c1, c2, c3) := c
  let p0 := 0xD2511F53 * c0
  let p1 := 0xCD9E8D57 * c2
  (Nat.xor (Nat.xor (p1 / 2 ^ 32) c1) k0, p1 % 2 ^ 32, Nat.xor (Nat.xor (p0 / 2 ^ 32) c3) k1, p0 % 2 ^ 32)

/-- `n` rounds. -/
def philoxN : Nat → Nat × Nat × Nat × Nat → Nat → Nat → Nat × Nat × Nat × Nat
  | 0, c, _, _ => c
  | n + 1, c, k0, k1 => philoxN n (philoxRound c k0 k1) ((k0 + 0x9E3779B9) % 2 ^ 32) ((k1 + 0xBB67AE85) % 2 ^ 32)

/-- The 24-bit random number of the element at index `i` of a destination tile (R66, Table 02-6). `key` is k1:k0. -/
def randomOf (key i tileIndex objectId step : Nat) : Nat :=
  let (w0, w1, w2, w3) := philoxN 10 (i / 4 % 2 ^ 12, tileIndex, objectId, step) (key % 2 ^ 32) (key / 2 ^ 32)
  (match i % 4 with | 0 => w0 | 1 => w1 | 2 => w2 | _ => w3) / 256

end Sys2Proof.Machine
end

