-- ==== Sys2Proof/Machine/State.lean ====
section
/-! DEFINITION. The state of a Scapor package as plain data, the reasons a command can stop, and the state right after
reset. Every architectural register lies in one sparse list (`regs`, keyed by `regKey die offset`); an unlisted register
reads as its reset value (Machine/Regs.lean). Beside the registers stand the memories, the 64-bit counters, and what
each chapter gives its unit beyond registers. -/

namespace Sys2Proof.Machine

/-- The orderable parts (R1). -/
inductive Part where
  | t8
  | t4
  | t2
deriving DecidableEq, Repr

/-- The fields of the IP, UDP and 802.1Q headers of a packet sent that are not constants of R293. -/
structure IpHead where
  v6    : Bool
  src   : Nat
  dst   : Nat
  dscp  : Nat
  sport : Nat
  dport : Nat
  vlan  : Option Nat
deriving DecidableEq, Repr

/-- What one frame on a port carries. `ctl` is a Ximel Link control frame, all of which lies in its link header (R280). -/
inductive TxItem where
  | ctl
  | pause (f : PauseFrame)
  | frame (f : Frame)
  | packet (k : Packet) (ip : IpHead)
  | wheel (f : WheelFrame)
  | commit (f : CommitFrame)
  | disc (f : DiscFrame)
  | change (f : ChangeFrame)
deriving DecidableEq, Repr

/-- A frame in a port's transmit queues (R268): its priority, its destination address (0 on a torus port), whether it leaves
ahead of frames queued before it (R320, R341), the die whose wheel or commit logic forwards it, if it does, and what it carries. -/
structure TxFrame where
  prio  : Nat
  mac   : Nat
  front : Bool
  via   : Option Nat
  item  : TxItem
deriving DecidableEq, Repr

/-- The link header of a frame on an active Ximel Link (Table 09-4). -/
structure LinkHdr where
  kind  : Nat
  seq   : Nat
  ack   : Nat
  width : Nat
  group : Nat
  prio  : Nat
  etype : Nat
deriving DecidableEq, Repr

/-- What leaves the package or answers a request: frames on a port, messages on the host link, reads answered. A frame sent
carries its packet number under MACsec and, on an active Ximel Link, its link header; `bytes` is the whole frame on the wire. A request to host memory carries the function whose Requester ID it bears and
whether it is relaxed in order; No Snoop is 0 in all (R488). -/
inductive Output where
  | msix (fn vector addr data : Nat)
  | readData (value : Nat)
  | busData (rid : Nat) (data : List Byte) (poison : Bool)
  | busRefused (rid : Nat)
  | cxlData (dpa : Nat) (data : List Byte) (poison : Bool)
  | cacheReq (line : Nat) (own : Bool)
  | cacheEvict (line : Nat)
  | cfgData (fn off : Nat) (value : W32)
  | cfgRetry (fn off : Nat)
  | sent (d : Nat) (f : TxFrame) (pn : Option Nat) (link : Option LinkHdr) (bytes : List Byte)
  | mesh (d : Nat) (route : List Nat) (f : WheelFrame)
  | driveUr (d : Nat) (addr : Nat)
  | guardAnswer (path : GPath) (bytes : List Byte)
  | spdm (doe : Bool) (session : Option Nat) (bytes : List Byte)
  | hostReq (fn : Nat) (wr : Bool) (addr len : Nat) (relaxed : Bool)
  | pin (name : String) (d : Nat) (level : Bool)
deriving DecidableEq, Repr

/-! ## Ports and links (chapter 9) -/

/-- A frame in a replay buffer: its SEQ, how often it was replayed, and the frame. -/
structure Held where
  seq   : Nat
  count : Nat
  f     : TxFrame
deriving DecidableEq, Repr

/-- A sequenced link (R281 to R283): of a port's Ximel Link (`unit` 0), of its wheel (1) or of its commit logic (2) off
Ximel Link. The next SEQ to send, the frames held until acknowledged, the SEQs to replay in order, the next SEQ expected,
whether an acknowledgement is owed, and whether a NAK is out for the expected SEQ. -/
structure Link where
  d      : Nat
  unit   : Nat
  next   : Nat
  held   : List Held
  replay : List Nat
  expect : Nat
  owed   : Bool
  nakked : Bool
deriving DecidableEq, Repr

/-- A narrowing or widening under way (R286, R287): the width code and group aimed at, whether this end started it, and
whether its transmitter has switched. -/
structure Narrow where
  width    : Nat
  group    : Nat
  mine     : Bool
  switched : Bool
deriving DecidableEq, Repr

/-- A MACsec association (R277, R579): its direction and number, key, salt and SSCI, and the last packet number used or
the highest accepted. -/
structure Sa where
  tx   : Bool
  an   : Nat
  key  : BitVec 256
  salt : BitVec 96
  ssci : W32
  pn   : Nat
deriving DecidableEq, Repr

/-- An Ethernet port beyond its registers: the transmit queues in order of arrival, the priority served last, the priorities
whose pause timers run, the priorities for which it has sent a pause, the frames in the receive pools by claimant (an
EtherType), priority and bytes, the settings in force since the link came up (ETH_CTRL, ETH_MAC_LO, ETH_MAC_HI,
ETH_MAXFRM), the lanes known failed here, the first lane group in the order of R285 that the peer's requests and failed alignments
leave open, a narrowing or widening, whether idle lanes train, for a retrain asked for the priority-7 frames that it waits for
(R289), and the MACsec associations. -/
structure Eth where
  d        : Nat
  txq      : List TxFrame
  last     : Nat
  paused   : List Nat
  pausing  : List Nat
  rx       : List (Nat × Nat × Nat)
  eff      : List Nat
  failed   : List Nat
  floor    : Nat
  narrow   : Option Narrow
  training : Bool
  retrain  : Option (List TxFrame)
  sas      : List Sa
deriving DecidableEq, Repr

/-! ## Rings and descriptors (chapter 13) -/

/-- A descriptor slot that a fetch has delivered and that is not yet accepted. -/
structure Slot where
  ring   : Nat
  idx    : Nat
  bytes  : List Byte
  poison : Bool
deriving DecidableEq, Repr

/-- A completion record before it is written (Table 13-4). -/
structure Rec where
  tag      : Nat
  idx      : Nat
  kind     : Nat
  status   : Nat
  flags    : Nat
  poison   : Bool
  checksum : Bool
  retained : Bool
  degraded : Bool
  receive  : Bool
  detail0  : Nat
  detail1  : Nat
deriving DecidableEq, Repr

/-- An accepted descriptor, or a prefetch entry (`entry`), until its completion record is written (R409).
`on` is the die whose units it runs on: the ring's die, or that of the router for a descriptor of a batch (`batch`).
`pre`: the status code that acceptance found, which the checks before its start count in. `ended`: its work has ended
and its record `res` may be written. `held`: output bytes that are not in memory until then (R29). `again`: a descriptor of a
replayed batch whose record has been written already (R160). `drawn`: the descriptor has started once and keeps its options
and its rounding key (R68, R92). `stages`: the engines that an UPDATE's stages run on, by die and RAS_UNIT number (R223). `waits`: at its last turn it had to wait
for something other than its unit, so that it takes no turn there (R411). -/
structure Work where
  id      : Nat
  ring    : Nat
  on      : Nat
  idx     : Nat
  bytes   : List Byte
  part    : Nat
  ctx     : Nat
  entry   : Option Nat
  batch   : Option Nat
  pre     : Nat
  started : Bool
  engine  : Option Nat
  ftz     : Nat
  srKey   : Nat
  drawn   : Bool
  det     : Bool
  ended   : Bool
  res     : Rec
  held    : List (Nat × List Byte)
  again   : Bool
  stages  : List (Nat × Nat)
  waits   : Bool
deriving DecidableEq, Repr

/-- The sequencers' state beyond their registers: descriptors, arms and rotations. -/
structure Seq where
  works    : List Work
  nextId   : Nat
  fetched  : List Slot
  cqArm    : List Nat
  evqArm   : List Nat
  lastRing : List (Nat × Nat)
  evLost   : List (Nat × Nat)
  switchTo : List (Nat × Nat)
deriving DecidableEq, Repr

/-- A push of a staged twin to its buddy holder (R389): the object, whether it is a revert, and its state: 0 to start, 1 sent
and not answered, 2 accepted, 3 failed. -/
structure Push where
  obj    : Nat
  revert : Bool
  st     : Nat
deriving DecidableEq, Repr

/-- A commit group's slot in use (R428): its partition, whether its COMMIT has been accepted, how many actions naming it have
been accepted, whether one ended with a status other than success (R378), the ownership entries it has staged (R213), its
pushes (R389), the number of its COMMIT descriptor once that has started, with the domain (0xF: local) and the commit number
it took, and its verdict once the group's vote is ready: 0 none yet, 1 yes, 2 abort with its cause (a cause set before the vote
is ready will make it an abort), 3 a group that its commit logic's disabling aborts before it closed (R405). -/
structure Group where
  slot    : Nat
  part    : Nat
  closed  : Bool
  actions : Nat
  failed  : Bool
  own     : List Nat
  pushes  : List Push
  commit  : Option Nat
  dom     : Nat
  k       : Nat
  vote    : Nat
  cause   : Nat
deriving DecidableEq, Repr

/-- A running prefetch list (R250): the PREFETCH descriptor's number, ring, die and partition, its fields, and the index of
the next entry to issue. -/
structure PfList where
  id     : Nat
  ring   : Nat
  part   : Nat
  list   : Nat
  count  : Nat
  ahead  : Nat
  dir    : Bool
  maxFly : Nat
  next   : Nat
deriving DecidableEq, Repr

/-- A block of a poisoned object queued for its re-fetch from flash (R256): the die whose queue holds it, the object, the
block's address and length, and the volume unit that holds its clean copy. -/
structure Refetch where
  d    : Nat
  obj  : Nat
  addr : Nat
  len  : Nat
  unit : Nat
deriving DecidableEq, Repr

/-! ## Flash volume and measurement (chapters 8 and 18) -/

/-- An enumerated drive (R239, R241): the die of its port, its largest transfer in units (0 for no limit), its queue
pairs and their depth. Its LBA count is in FL_DRV_LBAS. -/
structure Drive where
  d     : Nat
  mdts  : Nat
  pairs : Nat
  depth : Nat
deriving DecidableEq, Repr

/-- A piece of a flash transfer (R246): its port, drive LBA and units, the first volume unit, where it lies in the transfer
and how many of the transfer's bytes it carries, and its state: 0 outstanding, 1 being aborted, 2 completed, 3 failed. -/
structure Piece where
  port  : Nat
  lba   : Nat
  units : Nat
  unit  : Nat
  off   : Nat
  bytes : Nat
  st    : Nat
deriving DecidableEq, Repr

/-- A running flash transfer: the descriptor or prefetch entry it belongs to, the die that issued it, its operation, the
volume range and the memory address, FUA, the unit ranges that another transfer clashes on (R248), the objects whose
records it uses (R38), and its pieces. -/
structure Xfer where
  id     : Nat
  d      : Nat
  fop    : Nat
  vlba   : Nat
  units  : Nat
  addr   : Nat
  fua    : Bool
  clash  : List (Nat × Nat)
  objs   : List Nat
  pieces : List Piece
deriving DecidableEq, Repr

/-- A measurement that the guard of a die is making (R572): object, HOME_DIE, partition, and where its bytes lie. -/
structure Meas where
  obj   : Nat
  d     : Nat
  part  : Nat
  flash : Bool
  addr  : Nat
  len   : Nat
deriving DecidableEq, Repr

/-- The measurement log of die 0's guard (R572 to R574): the stored entries, the running value, and the partitions and
digests of the program images already logged. -/
structure MeasLog where
  entries : List (List Byte)
  value   : List Byte
  images  : List (Nat × List Byte)
deriving DecidableEq, Repr

/-- An empty log: D_0 is 48 zero bytes. -/
def MeasLog.reset : MeasLog := ⟨[], List.replicate 48 0, []⟩

/-- An object in a die's retained set (R253), with its claim in units of 64 KiB. -/
structure Kept where
  d     : Nat
  p     : Nat
  obj   : Nat
  units : Nat
deriving DecidableEq, Repr

/-! ## Converter (chapter 6) -/

/-- The statistics of a fold (R176): the extremes as exact values, NaN where there is none, and the counts. -/
structure Stats where
  max  : Val
  min  : Val
  elem : Nat
  sat  : Nat
  uf   : Nat
  nan  : Nat
deriving DecidableEq, Repr

/-- A fold on its way to its record's home: the descriptor, the die that sends it, the record's address as the registers gave it
when the descriptor started (R194), and whether the descriptor reports poison. -/
structure Fold where
  id     : Nat
  die    : Nat
  addr   : Nat
  stats  : Stats
  poison : Bool
deriving DecidableEq, Repr

/-! ## Matrix engines (chapter 4) -/

/-- Output rows waiting in one drain FIFO of an engine (R112): the drain, the descriptor and how many rows. -/
structure DrainRows where
  drain : Nat
  id    : Nat
  rows  : Nat
deriving DecidableEq, Repr

/-- A pass of a matrix descriptor that has not started (R113): its descriptor, gear, rows of the descriptor, rows whose
slots are not issued (R144), σ, whether every product is excluded (R143), whether it is in the last chunk, the number that
its column group has in the descriptor, and whether it reads partial sums of an earlier pass. -/
structure Pass where
  id     : Nat
  gearW  : Bool
  rows   : Nat
  idle   : Nat
  sigma  : Nat
  skip   : Bool
  last   : Bool
  group  : Nat
  reads  : Bool
deriving DecidableEq, Repr

/-- The timing of the last pass of a run: its start, the start and the interval of its load, its busy cycles (R116), and the
cycle after the last one that the counters have charged (R131). -/
structure PassTime where
  start  : Int
  load   : Int
  lint   : Int
  busy   : Int
  done   : Int
deriving DecidableEq, Repr

/-- A matrix engine: the passes queued in issue order, the load time of the front pass once its load has started, the
cycles for which the first load of a run was late, the timing of the last pass (none before a run's first pass, R656), the
start of the last pass of each column group of the running descriptor, the pass whose rows are issuing with the rows that
still wait for credits (R112), the cycles that the rows issued last take to leave the grid and those that the rows skipped
since take in the drain bypass (R111), the rows waiting in the drain FIFOs, and the gear of the last SWAP, none before the
first. -/
structure Eng where
  d      : Nat
  e      : Nat
  queue  : List Pass
  loadAt : Option Int
  late   : Nat
  prev   : Option PassTime
  starts : List (Nat × Int)
  issue  : Option Pass
  tail   : Nat
  bypass : Nat
  fifo   : List DrainRows
  gearW  : Option Bool
deriving DecidableEq, Repr

/-! ## Vector engines (chapter 7) -/

/-- A stream-table entry (R199). -/
structure VStream where
  base : Nat
  fmt  : Nat
  rnd  : Nat
  sat  : Bool
  sreg : Nat
  obj  : Nat
  tile0 : Nat
deriving DecidableEq, Repr

/-- A vector engine: its program store of 64-bit instruction words (R197), its scalar registers (FP32 words by number), its vector registers (lanes by number, lanes not listed
are +0), the eight input and four output streams of its descriptor, NT, how many LDs each input stream and STs each output
stream has seen in the pass, the strips stored and not yet written as tiles (keyed stream × 2^32 + strip), the flush
options, and the flags, poison and checksum errors met. -/
structure Ve where
  d     : Nat
  v     : Nat
  prog  : List Nat
  sregs : List (Nat × Nat)
  vregs : List (Nat × List Nat)
  ins   : List VStream
  outs  : List VStream
  nt    : Nat
  lds   : List (Nat × Nat)
  sts   : List (Nat × Nat)
  buf   : List (Nat × List Nat)
  ftz   : Nat
  flags : Nat
  bad   : Bool
  crc   : Bool
deriving DecidableEq, Repr

/-! ## Token router (chapter 5) -/

/-- A word of a die's assignment queue (R156): the gate descriptor that wrote it, the fields of the word, the rank that the
assignment had before any move, and the row that it takes in the return matrix (R360). -/
structure AWord where
  d      : Nat
  gate   : Nat
  token  : Nat
  expert : Nat
  rank   : Nat
  admitted : Bool
  moved  : Bool
  weight : Nat
  orig   : Nat
  row    : Nat
deriving DecidableEq, Repr

/-- A batch in a die's expert work queue (R153 to R161): its number, die and partition, the descriptors it put in the queue,
from its mark on, as they were put there, the words of 64 bits among them whose parity fails on every read (eight for each
descriptor, R157, R587), and the output matrices whose addresses it substituted: address, rows, columns and format. -/
structure Batch where
  num   : Nat
  d     : Nat
  p     : Nat
  works : List Work
  parity : List Nat
  outs  : List (Nat × Nat × Nat × Nat)
deriving DecidableEq, Repr

/-! ## Remote memory access (chapter 10) -/

/-- A message that a connection sends and whose descriptor has not ended (R312): the descriptor, opcode (0 SEND, 1 WRITE, 2
READ_REQ), MSN, first PSN and number of PSNs, its length, how many of its packets have been sent, and for a read which
response packets are placed. -/
structure XMsg where
  id   : Nat
  op   : Nat
  msn  : Nat
  psn  : Nat
  n    : Nat
  len  : Nat
  sent : Nat
  got  : List Nat
deriving DecidableEq, Repr

/-- A message that a connection receives: MSN, opcode, the PSNs of its first and last packets once known, how many packets
have been placed, the packets held by a fence, its header fields, the receive buffer it fills, whether a packet of it
carried poison, and whether it is wholly visible. -/
structure XIn where
  msn    : Nat
  op     : Nat
  first  : Option Nat
  last   : Option Nat
  placed : Nat
  held   : List Packet
  notify : Bool
  imm    : W32
  len    : Nat
  buf    : Option Nat
  poison : Bool
  whole  : Bool
deriving DecidableEq, Repr

/-- A connection beyond its context: messages being sent, descriptors ended and not yet completed, the lowest PSN not
acknowledged, timeouts without progress, RNR tries and the message that waits after an RNR NAK, messages being received,
whether an acknowledgement is owed, and whether a NAK is out for EXP_PSN. -/
structure Conn where
  c     : Nat
  msgs  : List XMsg
  done  : List Nat
  acked : Nat
  tries : Nat
  rnr   : Nat
  wait  : Option Nat
  ins   : List XIn
  owed  : Bool
  nak   : Bool
deriving DecidableEq, Repr

/-- A cached context (R304): the port's die, the connection and its 256 bytes. The list is in order of last use. -/
structure Ctx where
  d     : Nat
  c     : Nat
  bytes : List Byte
deriving DecidableEq, Repr

/-- A packet that waits for a context (R306). -/
structure Miss where
  d : Nat
  c : Nat
  k : Packet
deriving DecidableEq, Repr

/-- The transport's state beyond registers and tables. -/
structure Xt where
  conns    : List Conn
  ctxs     : List Ctx
  misses   : List Miss
  fetching : List (Nat × Nat)
deriving DecidableEq, Repr

/-- A transport with nothing cached or running. -/
def Xt.reset : Xt := ⟨[], [], [], []⟩

/-! ## Torus and collectives (chapters 11 and 19) -/

/-- What a package knows of its torus: links down as (package coordinates, port role), failed packages as (coordinates,
serial), the changes applied as (origin, number), and the number of its next own change. Coordinates are encoded as in
Table 11-5. -/
structure Torus where
  down   : List (Nat × Nat)
  failed : List (Nat × Nat)
  seen   : List (Nat × Nat)
  next   : Nat
deriving DecidableEq, Repr

/-- A tile or row that a collective is to send to a member: phase, direction, piece and index, and its bytes or the address
and length to read them from when it is sent. -/
structure CSend where
  dst    : Nat
  phase  : Nat
  dir    : Nat
  piece  : Nat
  index  : Nat
  addr   : Option (Nat × Nat)
  bytes  : List Byte
  poison : Bool
deriving DecidableEq, Repr

/-- A tile or row of which some slices have arrived. -/
structure CIn where
  src    : Nat
  phase  : Nat
  dir    : Nat
  piece  : Nat
  index  : Nat
  bytes  : List Byte
  poison : Bool
  full   : Bool
deriving DecidableEq, Repr

/-- A token row that waits for its destination tile to fill (R359): the rank that sent it, its row in the matrix (until every row of
a RETURN is here, its place in the list of that rank), its bytes and its poison. -/
structure CRow where
  src    : Nat
  row    : Nat
  bytes  : List Byte
  poison : Bool
deriving DecidableEq, Repr

/-- A running collective: its descriptor, die, group and number, operation, size and rank; the ranks whose start frames
matched and those that retain the object (R354); tiles or rows that each member may still be sent, and that each may still
send here; what waits to be sent and what has partly arrived; how many tiles or rows have arrived and how many must (none
until counts are known); counts by source (R356, R358); rows waiting and tile rows written; where tiles have been written by
which source (R357); its destination ranges; and flags, poison and checksum errors met. -/
structure Coll where
  id     : Nat
  d      : Nat
  group  : Nat
  num    : Nat
  cop    : Nat
  n      : Nat
  rank   : Nat
  starts : List Nat
  keeps  : List Nat
  open_  : Bool
  credit : List (Nat × Nat)
  grant  : List (Nat × Nat)
  queue  : List CSend
  ins    : List CIn
  got    : Nat
  need   : Option Nat
  counts : List (Nat × List Nat)
  rows   : List CRow
  wrote  : List Nat
  spans  : List (Nat × Nat × Nat)
  dst    : List (Nat × Nat)
  built  : List Nat
  prio   : Nat
  budget : Nat
  flags  : Nat
  poison : Bool
  crc    : Bool
deriving DecidableEq, Repr

/-- The wheels' state beyond registers: running collectives, start and counts frames that came before the descriptor they
are for (with the die), and by the address of a group or domain record the member entries that a GROUP_SET or DOMAIN_SET copied (R334, R381). -/
structure Whl where
  colls : List Coll
  early : List (Nat × WheelFrame)
  entries : List (Nat × List Byte)
deriving DecidableEq, Repr

/-! ## Layer commit (chapter 12) -/

/-- A verdict on commit `k` of a domain (Table 12-3): 1 commit, 2 abort, with the rank and cause of an abort. -/
structure Verdict where
  k     : Nat
  v     : Nat
  rank  : Nat
  cause : Nat
deriving DecidableEq, Repr

/-- A commit domain beyond its record: the PREPAREs received and not forwarded, rank 0's next PREPARE, the decisions not yet
applied, those applied, the ranks lost, whether its ring has stopped (R394), whether the holder is lost (R392), the leader that
queried this member, whether this member leads a recovery, the verdicts reported to it (rank, commit, verdict) and the ends of
report (rank, NEXT), and the waits past CMT_TIMEOUT (what, commit). -/
structure Dom where
  dom      : Nat
  prepared : List Verdict
  sent     : Nat
  decided  : List Verdict
  applied  : List Verdict
  lost     : List Nat
  stopped  : Bool
  noHolder : Bool
  leader   : Option Nat
  leads    : Bool
  reports  : List (Nat × Nat × Nat)
  ends     : List (Nat × Nat)
  stalled  : List (Nat × Nat)
deriving DecidableEq, Repr

/-! ## Serving and weirs (chapter 14) -/

/-- The serving stream of a partition: where its next build starts, the step in flight, the entries that the step
included (entry, model, position), the descriptors not yet copied into the ring, and how many copied descriptors have
not completed. -/
structure Srv where
  p        : Nat
  last     : Nat
  inFlight : Bool
  included : List (Nat × Nat × Nat)
  batched  : List Nat
  toCopy   : List (Nat × List Byte)
  firstIdx : Nat
  copied   : Nat
  left     : Nat
  seqs     : List (Nat × Nat)
  models   : List Nat
deriving DecidableEq, Repr

/-- The buckets of one partition at one weir, in 1/256 byte (R459). -/
structure Bucket where
  d    : Nat
  path : Nat
  link : Nat
  p    : Nat
  guar : Int
  ceil : Int
deriving DecidableEq, Repr

/-! ## Host link (chapter 15) -/

/-- A bias flip command running: its operation, the page it is at and the pages after it, the lines of the page already
answered, and the restarts of this page (R494). -/
structure Flip where
  toDevice : Bool
  page     : Nat
  left     : Nat
  restarts : Nat
deriving DecidableEq, Repr

/-- The host link's state beyond its registers: MSI-X tables and pending bits (keyed `2048 * fn + dword`,
`512 * fn + vector`), configuration space (keyed `4096 * fn + offset`), the bias command, pages the host has answered
for a waiting device access and those asked for, the CXL component registers, the TDIs that are not CONFIG_UNLOCKED (function
and state: 1 CONFIG_LOCKED, 2 RUN, 3 ERROR; R577), the IDE keys by stream (R578), whether the link trains (R544), and whether
clearing BIAS_EN waits for the command to end (R502). -/
structure Hst where
  msix     : List (Nat × Nat)
  pba      : List (Nat × Bool)
  cfg      : List (Nat × Nat)
  flip     : Option Flip
  answered : List Nat
  asked    : List Nat
  cxlRegs  : List (Nat × Nat)
  tdi      : List (Nat × Nat)
  ide      : List (Nat × BitVec 256)
  training : Bool
  biasOff  : Bool
deriving DecidableEq, Repr

/-- The state right after power-on is built from these: no work, no arms. -/
def Seq.reset : Seq := ⟨[], 0, [], [], [], [], [], []⟩

/-- No tables written, no command running. -/
def Hst.reset : Hst := ⟨[], [], [], none, [], [], [], [], [], false, false⟩

/-! ## Power (chapters 16 and 21) -/

/-- The fit of a die's power estimate (R512, R513): the gain and offset, the matrix of the recursive least squares once it has
been used (its three entries), the last 64 windows (S, mean of E) newest first, how many windows in a row R has stayed below
3 %, and the sum and number of the estimates E since the last sensor reading. -/
structure Cal where
  d    : Nat
  g    : Rat
  o    : Rat
  p    : Option (Rat × Rat × Rat)
  hist : List (Nat × Rat)
  calm : Nat
  sum  : Nat
  n    : Nat
deriving DecidableEq, Repr

/-- The power managers beyond their registers: the fits; F of each die and each engine's share (key 4d + e) in mW; the sum, the
number and the non-zero ones of the brake levels since the last decision (R519); the point being changed to and the one that
waits (R520, R531); whether the domains have switched; the dies whose regulator has reached its voltage; the VID codes that are
not 60 (R638); the warnings asserted (2d for UVW_N, 2d + 1 for VR_RDY); when a warning hold began; assertions since the last
DROOP event by die; events whose condition lasts (die, code; R529); by die the sensors at or above CRIT in the last reading
as a mask (R527), whether its share returns, and how many sixteenths of its demand throttling takes (R526). -/
structure Pwr where
  cals   : List Cal
  fixed  : List (Nat × Nat)
  shares : List (Nat × Nat)
  brakes : Nat × Nat × Nat
  freqTo : Option Nat
  freqWant : Option Nat
  switched : Bool
  reached : List Nat
  vid    : List (Nat × Nat)
  warn   : List Nat
  holdAt : Option Nat
  droops : List (Nat × Nat)
  active : List (Nat × Nat)
  hot    : List (Nat × Nat)
  cooling : List Nat
  level  : List (Nat × Nat)
deriving DecidableEq, Repr

/-- No measurement, no change, no warning. -/
def Pwr.reset : Pwr := ⟨[], [], [], (0, 0, 0), none, none, false, [], [], [], none, [], [], [], [], []⟩

/-! ## Reset and discovery (chapter 17) -/

/-- Resets in progress (R534): the dies reached with whether RG1 and RG0's registers are reset too, the causes of
GEN_RST_CAUSE by die, whether die 0's host link is held, and whether PWRGOOD is low. -/
structure Rst where
  dies   : List (Nat × Bool)
  causes : List (Nat × Nat)
  host   : Bool
  off    : Bool
deriving DecidableEq, Repr

/-- The discovery state of the package (R548 to R554): whether the key comes from an established package, the key, the
unwrapped coordinates, the extremes and the divisors, the ports whose first frame has been checked, the last coordinates heard
on each port, and the ports that owe a frame after a change. -/
structure Disc where
  estab  : Bool
  noroot : Nat
  serial : Nat
  u      : Int × Int × Int
  min    : Int × Int × Int
  max    : Int × Int × Int
  g      : Nat × Nat × Nat
  heard  : List Nat
  peers  : List (Nat × (Int × Int × Int))
  owes   : List Nat
deriving DecidableEq, Repr

/-- Discovery not started. -/
def Disc.reset : Disc := ⟨false, 1, 0, (0, 0, 0), (0, 0, 0), (0, 0, 0), (0, 0, 0), [], [], []⟩

/-! ## Guard (chapter 18) -/

/-- A boot-flash slot that an update has written (R565): whether its manifest is whole, its sequence number, SVN and image. -/
structure BootSlot where
  valid : Bool
  seq   : Nat
  svn   : Nat
  image : List Byte
deriving DecidableEq, Repr

/-- An update between FW_BEGIN and FW_COMMIT: the length and SVN announced, and the bytes programmed. -/
structure FwUpd where
  len  : Nat
  svn  : Nat
  data : List Host.Cell
deriving DecidableEq, Repr

/-- An SPDM connection of one transport (R575): how far its negotiation has come (1 version, 2 capabilities, 3 algorithms), the
message that CHUNK_SEND collects and the answer that CHUNK_GET returns. -/
structure Spdm where
  doe   : Bool
  phase : Nat
  taken : List Byte
  left  : List Byte
deriving DecidableEq, Repr

/-- A secured session: its number, its transport, and whether FINISH has completed. -/
structure Sess where
  id  : Nat
  doe : Bool
  up  : Bool
deriving DecidableEq, Repr

/-- The guards beyond their registers: the last value set in each RWG register by register key (R559), the boot-flash slots
written since manufacture, the update in progress, the sticky log with how many records were ever appended (R581), the unused
nonce last returned, the token of an unlock, the reset that waits to start (kind and die), the SPDM connections and sessions,
and the ports whose rekey report waits for their next key (R580). -/
structure Grd where
  rwg    : List (Nat × W32)
  slots  : List (Nat × BootSlot)
  upd    : Option FwUpd
  sticky : List (List Byte)
  nonce  : Option (List Byte)
  token  : Option (List Byte)
  resetReq : Option (Nat × Nat)
  spdm   : List Spdm
  sess   : List Sess
  rekey  : List Nat
deriving DecidableEq, Repr

/-- A guard that has set nothing. -/
def Grd.reset : Grd := ⟨[], [], none, [], none, none, none, [], [], []⟩

/-! ## Faults and spares (chapter 19) -/

/-- The RAS blocks beyond their registers: the units that have passed self-test and wait to enter service; the mesh changes not
yet applied, oldest first, as the usable dies and the usable links (8a + b for a < b); the view in force; the dies that have not
acknowledged it; the next line of each scrubber (key 2d, or 2d + 1 for the tile store); corrected errors in the running pass by
bank row (key (32d + bank) × 2048 + row); the lines whose owner search runs (die, line, found on demand); retraining failures
since the last success (key 4d + k); the DEGRADED resources posted (R604); and the accesses of drives that were refused, as port
and bus address, oldest first (R241); and the COUNTER_SATURATED events with which later ones merge, as partition, die and the tail
of the queue when they were written (R288, R605). -/
structure Ras where
  passed   : List (Nat × Nat)
  views    : List (List Nat × List Nat)
  view     : List Nat × List Nat
  owe      : List Nat
  scrub    : List (Nat × Nat)
  rowErrs  : List (Nat × Nat)
  badRows  : List Nat
  searches : List (Nat × Nat × Bool)
  fails    : List (Nat × Nat)
  degraded : List (List Nat)
  strays   : List (Nat × Nat)
  merged   : List (Nat × Nat × Nat)
deriving DecidableEq, Repr

/-- Nothing found, nothing fenced. -/
def Ras.reset : Ras := ⟨[], [], ([], []), [], [], [], [], [], [], [], [], []⟩

/-- What can stop a command: nothing. Every command of the table has an effect, a descriptor that fails ends with a status, and a
command that names a die which the part does not have changes nothing (R4, R6; assumption 67). -/
inductive Fault where
deriving DecidableEq, Repr

/-- Why a command has no meaning. -/
inductive Refusal where
  /-- The command has no meaning in this model yet. Raised by the dispatcher alone. Safe: it stops. -/
  | notModelled (mnemonic : String)
deriving DecidableEq, Repr

/-- The state of the package. `wiped` lists the address ranges whose contents a reset left undefined, newest first, as first
address, length and the number that marks the free values there (R535), or none where the range was zeroed since (R491). `mbSeq` holds the SEQ of the GUARD request that runs at each busy mailbox (R439), and whether its bell came through a virtual function (R561); `tripped` says
that a thermal trip has stopped the package (R527). -/
structure State where
  pending  : List Instr
  part     : Part
  mem      : List Host.Cell
  poison   : List (Nat × Bool)
  wiped    : List (Nat × Nat × Option Nat)
  regs     : List (Nat × W32)
  ctrs     : List (Nat × Nat)
  freeCtr  : Nat
  refCount : Nat
  out      : List Output
  seq      : Seq
  groups   : List Group
  doms     : List Dom
  lists    : List PfList
  refetch  : List Refetch
  drives   : List Drive
  flash    : List Host.Cell
  dirty    : List Nat
  xfers    : List Xfer
  measuring : List Meas
  measLog  : MeasLog
  kept     : List Kept
  actStale : List (Nat × Nat)
  actSum : List (Nat × Nat)
  engs     : List Eng
  ves      : List Ve
  folds    : List Fold
  aq       : List AWord
  batches  : List Batch
  cnvLast  : List (Nat × Nat)
  eths     : List Eth
  wires    : List Link
  xt       : Xt
  torus    : Torus
  whl      : Whl
  srvs     : List Srv
  buckets  : List Bucket
  lastGrant : List (Nat × Nat)
  hst      : Hst
  mbSeq    : List (Nat × Nat × Bool)
  pwr      : Pwr
  rst      : Rst
  disc     : Disc
  grd      : Grd
  ras      : Ras
  tripped  : Bool
deriving DecidableEq, Repr

/-- The package right after reset: a T8 with every register at its reset value and nothing in memory. -/
def State.reset : State :=
  { pending := [], part := .t8, mem := [], poison := [], wiped := [], regs := [], ctrs := [], freeCtr := 0, refCount := 0,
    out := [], seq := Seq.reset, groups := [], doms := [], lists := [], refetch := [],
    drives := [], flash := [], dirty := [], xfers := [], measuring := [], measLog := MeasLog.reset, kept := [], actStale := [], actSum := [], engs := [], ves := [], folds := [], aq := [], batches := [], cnvLast := [], eths := [], wires := [], xt := Xt.reset, torus := ⟨[], [], [], 0⟩, whl := ⟨[], [], []⟩, srvs := [], buckets := [], lastGrant := [], hst := Hst.reset, mbSeq := [],
    pwr := Pwr.reset, rst := ⟨[], [], false, false⟩, disc := Disc.reset, grd := Grd.reset, ras := Ras.reset, tripped := false }

end Sys2Proof.Machine
end

