-- ==== Sys2Proof/Machine/Regs.lean ====
section
/-! DEFINITION. The register map (chapter 20 and the register tables of every chapter): the offset of each register in
its die's window, and for each offset which bits are RW, W1C or RWG, the reset value, and whether it exists in die 0
only. -/

namespace Sys2Proof.Machine

/-! ## Offsets (Tables xx of the block named) -/

namespace Reg

/-- GEN_ID. -/
def genId : Nat := 0x000000
/-- GEN_SERIAL_LO. -/
def genSerialLo : Nat := 0x000004
/-- GEN_SERIAL_HI. -/
def genSerialHi : Nat := 0x000008
/-- GEN_STRAPS. -/
def genStraps : Nat := 0x00000C
/-- GEN_BOOT. -/
def genBoot : Nat := 0x000010
/-- GEN_RST_CAUSE. -/
def genRstCause : Nat := 0x000014
/-- GEN_WARM_COUNT. -/
def genWarmCount : Nat := 0x000018
/-- GEN_DISC_CTRL. -/
def genDiscCtrl : Nat := 0x000020
/-- GEN_DISC_STATUS. -/
def genDiscStatus : Nat := 0x000024
/-- GEN_DISC_ROOT_LO. -/
def genDiscRootLo : Nat := 0x000028
/-- GEN_DISC_ROOT_HI. -/
def genDiscRootHi : Nat := 0x00002C
/-- GRD_ID. -/
def grdId : Nat := 0x010000
/-- GRD_STATUS. -/
def grdStatus : Nat := 0x010004
/-- GRD_FUSE_SVN. -/
def grdFuseSvn : Nat := 0x010008
/-- GRD_MEAS_COUNT. -/
def grdMeasCount : Nat := 0x01000C
/-- GRD_LOST_CNT_LO. -/
def grdLostCntLo : Nat := 0x010010
/-- GRD_LOST_CNT_HI. -/
def grdLostCntHi : Nat := 0x010014
/-- GRD_LOST_HEAD. -/
def grdLostHead : Nat := 0x010018
/-- GRD_LOST_CLR. -/
def grdLostClr : Nat := 0x01001C
/-- GRD_LOST_LOG. -/
def grdLostLog (i w : Nat) : Nat := 0x010100 + 0x10 * i + 4 * w
/-- CLK_CTRL. -/
def clkCtrl : Nat := 0x020000
/-- CLK_STATUS. -/
def clkStatus : Nat := 0x020004
/-- CLK_LIMIT. -/
def clkLimit : Nat := 0x020008
/-- CLK_IDLE. -/
def clkIdle : Nat := 0x02000C
/-- CLK_RUN_LO. -/
def clkRunLo : Nat := 0x020010
/-- CLK_RUN_HI. -/
def clkRunHi : Nat := 0x020014
/-- CLK_HOLD_LO. -/
def clkHoldLo : Nat := 0x020018
/-- CLK_HOLD_HI. -/
def clkHoldHi : Nat := 0x02001C
/-- CLK_OPP. -/
def clkOpp (i : Nat) : Nat := 0x020040 + 4 * i
/-- CLK_CNT_CLR. -/
def clkCntClr : Nat := 0x020080
/-- CLK_CNT_LO. -/
def clkCntLo (i : Nat) : Nat := 0x020100 + 8 * i
/-- CLK_CNT_HI. -/
def clkCntHi (i : Nat) : Nat := 0x020104 + 8 * i
/-- PWR_CTRL. -/
def pwrCtrl : Nat := 0x030000
/-- PWR_STATUS. -/
def pwrStatus : Nat := 0x030004
/-- PWR_CAP. -/
def pwrCap : Nat := 0x030008
/-- PWR_CAP_SB. -/
def pwrCapSb : Nat := 0x03000C
/-- PWR_CAP_CEIL. -/
def pwrCapCeil : Nat := 0x030010
/-- PWR_CAP_EFF. -/
def pwrCapEff : Nat := 0x030014
/-- PWR_EST. -/
def pwrEst : Nat := 0x030018
/-- PWR_SENSE. -/
def pwrSense : Nat := 0x03001C
/-- PWR_CAL_GAIN. -/
def pwrCalGain : Nat := 0x030020
/-- PWR_CAL_OFS. -/
def pwrCalOfs : Nat := 0x030024
/-- PWR_RESID. -/
def pwrResid : Nat := 0x030028
/-- PWR_SHARE. -/
def pwrShare : Nat := 0x03002C
/-- PWR_BRAKE. -/
def pwrBrake (e : Nat) : Nat := 0x030040 + 4 * e
/-- THERM_TEMP. -/
def thermTemp : Nat := 0x030060
/-- THERM_LIMITS. -/
def thermLimits : Nat := 0x030064
/-- FAN_CTRL. -/
def fanCtrl : Nat := 0x030068
/-- FAN_STATUS. -/
def fanStatus : Nat := 0x03006C
/-- FAN_FAIL_RPM. -/
def fanFailRpm : Nat := 0x030070
/-- PWR_CNT_CLR. -/
def pwrCntClr : Nat := 0x030080
/-- PWR_CNT_LO. -/
def pwrCntLo (i : Nat) : Nat := 0x030100 + 8 * i
/-- PWR_CNT_HI. -/
def pwrCntHi (i : Nat) : Nat := 0x030104 + 8 * i
/-- PWR_PHASE. -/
def pwrPhase (t : Nat) : Nat := 0x030200 + 4 * t
/-- ME_CTRL. -/
def meCtrl (e : Nat) : Nat := 0x040000 + 0x10000 * e
/-- ME_STATUS. -/
def meStatus (e : Nat) : Nat := 0x040004 + 0x10000 * e
/-- ME_CAP. -/
def meCap (e : Nat) : Nat := 0x040008 + 0x10000 * e
/-- ME_CNT_CLR. -/
def meCntClr (e : Nat) : Nat := 0x040010 + 0x10000 * e
/-- ME_SKIP_CLR. -/
def meSkipClr (e : Nat) : Nat := 0x040018 + 0x10000 * e
/-- ME_CNT_LO. -/
def meCntLo (e i : Nat) : Nat := 0x040100 + 0x10000 * e + 8 * i
/-- ME_CNT_HI. -/
def meCntHi (e i : Nat) : Nat := 0x040104 + 0x10000 * e + 8 * i
/-- ME_SKIP_LO. -/
def meSkipLo (e j : Nat) : Nat := 0x040200 + 0x10000 * e + 8 * j
/-- ME_SKIP_HI. -/
def meSkipHi (e j : Nat) : Nat := 0x040204 + 0x10000 * e + 8 * j
/-- VE_CTRL. -/
def veCtrl (v : Nat) : Nat := 0x080000 + 0x10000 * v
/-- VE_STATUS. -/
def veStatus (v : Nat) : Nat := 0x080004 + 0x10000 * v
/-- VE_CAP. -/
def veCap (v : Nat) : Nat := 0x080008 + 0x10000 * v
/-- VE_CNT_CLR. -/
def veCntClr (v : Nat) : Nat := 0x080010 + 0x10000 * v
/-- VE_CNT_LO. -/
def veCntLo (v i : Nat) : Nat := 0x080100 + 0x10000 * v + 8 * i
/-- VE_CNT_HI. -/
def veCntHi (v i : Nat) : Nat := 0x080104 + 0x10000 * v + 8 * i
/-- TS_CNT_CLR. -/
def tsCntClr : Nat := 0x0A0010
/-- TS_CNT_LO. -/
def tsCntLo (i : Nat) : Nat := 0x0A0100 + 8 * i
/-- TS_CNT_HI. -/
def tsCntHi (i : Nat) : Nat := 0x0A0104 + 8 * i
/-- HBM_CTRL. -/
def hbmCtrl : Nat := 0x0B0000
/-- HBM_STATUS. -/
def hbmStatus : Nat := 0x0B0004
/-- HBM_CNT_CLR. -/
def hbmCntClr : Nat := 0x0B0010
/-- HBM_CNT_LO. -/
def hbmCntLo (i : Nat) : Nat := 0x0B0100 + 8 * i
/-- HBM_CNT_HI. -/
def hbmCntHi (i : Nat) : Nat := 0x0B0104 + 8 * i
/-- ETH_CTRL. -/
def ethCtrl : Nat := 0x0C0000
/-- ETH_STATUS. -/
def ethStatus : Nat := 0x0C0004
/-- ETH_MAC_LO. -/
def ethMacLo : Nat := 0x0C0008
/-- ETH_MAC_HI. -/
def ethMacHi : Nat := 0x0C000C
/-- ETH_MAXFRM. -/
def ethMaxfrm : Nat := 0x0C0010
/-- ETH_PAUSE_TIME. -/
def ethPauseTime : Nat := 0x0C0014
/-- ETH_CMD. -/
def ethCmd : Nat := 0x0C0018
/-- ETH_ERR_ACT. -/
def ethErrAct : Nat := 0x0C001C
/-- ETH_POOL. -/
def ethPool (p : Nat) : Nat := 0x0C0020 + 4 * p
/-- ETH_WM. -/
def ethWm (p : Nat) : Nat := 0x0C0040 + 4 * p
/-- ETH_CNT_CLR. -/
def ethCntClr : Nat := 0x0C0060
/-- ETH_SEC_CTRL. -/
def ethSecCtrl : Nat := 0x0C0064
/-- ETH_ERR_LIMIT. -/
def ethErrLimit (i : Nat) : Nat := 0x0C0080 + 4 * i
/-- ETH_CNT_LO. -/
def ethCntLo (i : Nat) : Nat := 0x0C0100 + 8 * i
/-- ETH_CNT_HI. -/
def ethCntHi (i : Nat) : Nat := 0x0C0104 + 8 * i
/-- XT_CTRL. -/
def xtCtrl : Nat := 0x0D0000
/-- XT_STATUS. -/
def xtStatus : Nat := 0x0D0004
/-- XT_UDP_PORT. -/
def xtUdpPort : Nat := 0x0D0008
/-- XT_CTX_COUNT. -/
def xtCtxCount : Nat := 0x0D000C
/-- XT_CTX_BASE_LO. -/
def xtCtxBaseLo : Nat := 0x0D0010
/-- XT_CTX_BASE_HI. -/
def xtCtxBaseHi : Nat := 0x0D0014
/-- XT_REG_BASE_LO. -/
def xtRegBaseLo : Nat := 0x0D0018
/-- XT_REG_BASE_HI. -/
def xtRegBaseHi : Nat := 0x0D001C
/-- XT_REG_COUNT. -/
def xtRegCount : Nat := 0x0D0020
/-- XT_IP4. -/
def xtIp4 : Nat := 0x0D0030
/-- XT_IP6. -/
def xtIp6 (i : Nat) : Nat := 0x0D0040 + 4 * i
/-- XT_CNT_CLR. -/
def xtCntClr : Nat := 0x0D0050
/-- XT_CNT_LO. -/
def xtCntLo (i : Nat) : Nat := 0x0D0100 + 8 * i
/-- XT_CNT_HI. -/
def xtCntHi (i : Nat) : Nat := 0x0D0104 + 8 * i
/-- FL_CTRL. -/
def flCtrl : Nat := 0x0E0000
/-- FL_STATUS. -/
def flStatus : Nat := 0x0E0004
/-- FL_VOL. -/
def flVol : Nat := 0x0E0008
/-- FL_TIMEOUT. -/
def flTimeout : Nat := 0x0E000C
/-- FL_QBASE_LO. -/
def flQbaseLo : Nat := 0x0E0010
/-- FL_QBASE_HI. -/
def flQbaseHi : Nat := 0x0E0014
/-- FL_DRV_LBAS_LO. -/
def flDrvLbasLo : Nat := 0x0E0018
/-- FL_DRV_LBAS_HI. -/
def flDrvLbasHi : Nat := 0x0E001C
/-- FL_VOL_UNITS_LO. -/
def flVolUnitsLo : Nat := 0x0E0020
/-- FL_VOL_UNITS_HI. -/
def flVolUnitsHi : Nat := 0x0E0024
/-- FL_CNT_CLR. -/
def flCntClr : Nat := 0x0E0030
/-- FL_CNT_LO. -/
def flCntLo (i : Nat) : Nat := 0x0E0100 + 8 * i
/-- FL_CNT_HI. -/
def flCntHi (i : Nat) : Nat := 0x0E0104 + 8 * i
/-- TRB_CTRL. -/
def trbCtrl : Nat := 0x0F0000
/-- TRB_STATUS. -/
def trbStatus : Nat := 0x0F0004
/-- TRB_CNT_CLR. -/
def trbCntClr : Nat := 0x0F0010
/-- TRB_CNT_LO. -/
def trbCntLo (i : Nat) : Nat := 0x0F0100 + 8 * i
/-- TRB_CNT_HI. -/
def trbCntHi (i : Nat) : Nat := 0x0F0104 + 8 * i
/-- SEQ_STATUS. -/
def seqStatus : Nat := 0x100000
/-- SEQ_CAP. -/
def seqCap : Nat := 0x100004
/-- SEQ_OBJ_BASE_LO. -/
def seqObjBaseLo : Nat := 0x100010
/-- SEQ_OBJ_BASE_HI. -/
def seqObjBaseHi : Nat := 0x100014
/-- SEQ_DET. -/
def seqDet : Nat := 0x100018
/-- SEQ_CNT_CLR. -/
def seqCntClr : Nat := 0x100020
/-- SEQ_CUR_LAYER. -/
def seqCurLayer (p : Nat) : Nat := 0x100040 + 4 * p
/-- SEQ_CNT_LO. -/
def seqCntLo (i : Nat) : Nat := 0x100100 + 8 * i
/-- SEQ_CNT_HI. -/
def seqCntHi (i : Nat) : Nat := 0x100104 + 8 * i
/-- SEQ_OWN_BASE_LO. -/
def seqOwnBaseLo : Nat := 0x100300
/-- SEQ_OWN_BASE_HI. -/
def seqOwnBaseHi : Nat := 0x100304
/-- SEQ_OWN_COUNT. -/
def seqOwnCount : Nat := 0x100308
/-- SEQ_OWN_SELF. -/
def seqOwnSelf : Nat := 0x10030C
/-- SEQ_RETAIN_BUDGET. -/
def seqRetainBudget (p : Nat) : Nat := 0x100400 + 4 * p
/-- SEQ_RETAIN_USED. -/
def seqRetainUsed (p : Nat) : Nat := 0x100440 + 4 * p
/-- SEQ_ACT_FIRST. -/
def seqActFirst (p : Nat) : Nat := 0x100500 + 4 * p
/-- SEQ_ACT_LAST. -/
def seqActLast (p : Nat) : Nat := 0x100540 + 4 * p
/-- SEQ_ACT_CUR. -/
def seqActCur (p : Nat) : Nat := 0x100580 + 4 * p
/-- SEQ_ACT_PEAK. -/
def seqActPeak (p : Nat) : Nat := 0x1005C0 + 4 * p
/-- SEQ_ACT_PEAK_CLR. -/
def seqActPeakClr : Nat := 0x100600
/-- SEQ_PART_CFG. -/
def seqPartCfg (p : Nat) : Nat := 0x100700 + 4 * p
/-- SEQ_PART_MASK. -/
def seqPartMask (p : Nat) : Nat := 0x100740 + 4 * p
/-- SEQ_PART_STATUS. -/
def seqPartStatus (p : Nat) : Nat := 0x100780 + 4 * p
/-- SEQ_PART_ERR. -/
def seqPartErr : Nat := 0x1007C0
/-- SEQ_SRV_CTRL. -/
def seqSrvCtrl (p : Nat) : Nat := 0x100800 + 0x20 * p
/-- SEQ_SRV_BASE_LO. -/
def seqSrvBaseLo (p : Nat) : Nat := 0x100804 + 0x20 * p
/-- SEQ_SRV_BASE_HI. -/
def seqSrvBaseHi (p : Nat) : Nat := 0x100808 + 0x20 * p
/-- SEQ_SRV_COUNT. -/
def seqSrvCount (p : Nat) : Nat := 0x10080C + 0x20 * p
/-- SEQ_SRV_LIMITS. -/
def seqSrvLimits (p : Nat) : Nat := 0x100810 + 0x20 * p
/-- SEQ_SRV_STEP. -/
def seqSrvStep (p : Nat) : Nat := 0x100814 + 0x20 * p
/-- SEQ_MODEL_BASE_LO. -/
def seqModelBaseLo : Nat := 0x100A00
/-- SEQ_MODEL_BASE_HI. -/
def seqModelBaseHi : Nat := 0x100A04
/-- SEQ_MODEL_VICTIM. -/
def seqModelVictim (p : Nat) : Nat := 0x100A40 + 4 * p
/-- SEQ_SCH_CNT_CLR. -/
def seqSchCntClr : Nat := 0x100B00
/-- SEQ_SCH_CNT_LO. -/
def seqSchCntLo (p i : Nat) : Nat := 0x100C00 + 0x40 * p + 8 * i
/-- SEQ_SCH_CNT_HI. -/
def seqSchCntHi (p i : Nat) : Nat := 0x100C04 + 0x40 * p + 8 * i
/-- RING_CFG. -/
def ringCfg (i : Nat) : Nat := 0x110000 + 0x40 * i
/-- RING_STATUS. -/
def ringStatus (i : Nat) : Nat := 0x110004 + 0x40 * i
/-- RING_BASE_LO. -/
def ringBaseLo (i : Nat) : Nat := 0x110008 + 0x40 * i
/-- RING_BASE_HI. -/
def ringBaseHi (i : Nat) : Nat := 0x11000C + 0x40 * i
/-- CQ_BASE_LO. -/
def cqBaseLo (i : Nat) : Nat := 0x110010 + 0x40 * i
/-- CQ_BASE_HI. -/
def cqBaseHi (i : Nat) : Nat := 0x110014 + 0x40 * i
/-- RING_PI. -/
def ringPi (i : Nat) : Nat := 0x110018 + 0x40 * i
/-- RING_CI. -/
def ringCi (i : Nat) : Nat := 0x11001C + 0x40 * i
/-- CQ_TAIL. -/
def cqTail (i : Nat) : Nat := 0x110020 + 0x40 * i
/-- CQ_HEAD. -/
def cqHead (i : Nat) : Nat := 0x110024 + 0x40 * i
/-- EVQ_CFG. -/
def evqCfg (p : Nat) : Nat := 0x110800 + 0x20 * p
/-- EVQ_BASE_LO. -/
def evqBaseLo (p : Nat) : Nat := 0x110804 + 0x20 * p
/-- EVQ_BASE_HI. -/
def evqBaseHi (p : Nat) : Nat := 0x110808 + 0x20 * p
/-- EVQ_TAIL. -/
def evqTail (p : Nat) : Nat := 0x11080C + 0x20 * p
/-- EVQ_HEAD. -/
def evqHead (p : Nat) : Nat := 0x110810 + 0x20 * p
/-- RING_CNT_CLR. -/
def ringCntClr : Nat := 0x110C00
/-- RING_CNT_LO. -/
def ringCntLo (i : Nat) : Nat := 0x110D00 + 8 * i
/-- RING_CNT_HI. -/
def ringCntHi (i : Nat) : Nat := 0x110D04 + 8 * i
/-- MB_CFG. -/
def mbCfg (m : Nat) : Nat := 0x111000 + 0x10 * m
/-- MB_BELL. -/
def mbBell (m : Nat) : Nat := 0x111004 + 0x10 * m
/-- MB_STATE. -/
def mbState (m : Nat) : Nat := 0x111008 + 0x10 * m
/-- MB_DATA. -/
def mbData (m w : Nat) : Nat := 0x118000 + 0x200 * m + 4 * w
/-- WEIR_CTRL. -/
def weirCtrl : Nat := 0x120000
/-- WEIR_STATUS. -/
def weirStatus : Nat := 0x120004
/-- WEIR_SHARE. -/
def weirShare (j p : Nat) : Nat := 0x120100 + 0x40 * j + 4 * p
/-- WEIR_CNT_CLR. -/
def weirCntClr : Nat := 0x120800
/-- WEIR_BYTES_LO. -/
def weirBytesLo (j p : Nat) : Nat := 0x121000 + 0x80 * j + 8 * p
/-- WEIR_BYTES_HI. -/
def weirBytesHi (j p : Nat) : Nat := 0x121004 + 0x80 * j + 8 * p
/-- CMT_CTRL. -/
def cmtCtrl : Nat := 0x130000
/-- CMT_STATUS. -/
def cmtStatus : Nat := 0x130004
/-- CMT_TIMEOUT. -/
def cmtTimeout : Nat := 0x130008
/-- CMT_TWIN_BASE_LO. -/
def cmtTwinBaseLo : Nat := 0x130010
/-- CMT_TWIN_BASE_HI. -/
def cmtTwinBaseHi : Nat := 0x130014
/-- CMT_DOM_BASE_LO. -/
def cmtDomBaseLo : Nat := 0x130018
/-- CMT_DOM_BASE_HI. -/
def cmtDomBaseHi : Nat := 0x13001C
/-- CMT_DOM_COUNT. -/
def cmtDomCount : Nat := 0x130020
/-- CMT_HOLD_BASE_LO. -/
def cmtHoldBaseLo : Nat := 0x130024
/-- CMT_HOLD_BASE_HI. -/
def cmtHoldBaseHi : Nat := 0x130028
/-- CMT_HOLD_COUNT. -/
def cmtHoldCount : Nat := 0x13002C
/-- CMT_MAN_VLBA_LO. -/
def cmtManVlbaLo : Nat := 0x130030
/-- CMT_MAN_VLBA_HI. -/
def cmtManVlbaHi : Nat := 0x130034
/-- CMT_MAN_STATUS. -/
def cmtManStatus : Nat := 0x130038
/-- CMT_MAN_SEQ_LO. -/
def cmtManSeqLo : Nat := 0x130040
/-- CMT_MAN_SEQ_HI. -/
def cmtManSeqHi : Nat := 0x130044
/-- CMT_CNT_CLR. -/
def cmtCntClr : Nat := 0x130050
/-- CMT_CNT_LO. -/
def cmtCntLo (i : Nat) : Nat := 0x130100 + 8 * i
/-- CMT_CNT_HI. -/
def cmtCntHi (i : Nat) : Nat := 0x130104 + 8 * i
/-- WHL_CTRL. -/
def whlCtrl : Nat := 0x140000
/-- WHL_STATUS. -/
def whlStatus : Nat := 0x140004
/-- WHL_CAP. -/
def whlCap : Nat := 0x140008
/-- WHL_COORD. -/
def whlCoord : Nat := 0x14000C
/-- WHL_DIMS. -/
def whlDims : Nat := 0x140010
/-- WHL_TIMEOUT. -/
def whlTimeout : Nat := 0x140014
/-- WHL_GRP_BASE_LO. -/
def whlGrpBaseLo : Nat := 0x140018
/-- WHL_GRP_BASE_HI. -/
def whlGrpBaseHi : Nat := 0x14001C
/-- WHL_GRP_COUNT. -/
def whlGrpCount : Nat := 0x140020
/-- WHL_STAGE_LO. -/
def whlStageLo : Nat := 0x140024
/-- WHL_STAGE_HI. -/
def whlStageHi : Nat := 0x140028
/-- WHL_CNT_CLR. -/
def whlCntClr : Nat := 0x140030
/-- WHL_CNT_LO. -/
def whlCntLo (i : Nat) : Nat := 0x140100 + 8 * i
/-- WHL_CNT_HI. -/
def whlCntHi (i : Nat) : Nat := 0x140104 + 8 * i
/-- TOK_CTRL. -/
def tokCtrl : Nat := 0x150000
/-- TOK_STATUS. -/
def tokStatus : Nat := 0x150004
/-- TOK_CAP. -/
def tokCap : Nat := 0x150008
/-- TOK_CNT_CLR. -/
def tokCntClr : Nat := 0x150010
/-- TOK_CNT_LO. -/
def tokCntLo (i : Nat) : Nat := 0x150100 + 8 * i
/-- TOK_CNT_HI. -/
def tokCntHi (i : Nat) : Nat := 0x150104 + 8 * i
/-- CNV_CTRL. -/
def cnvCtrl : Nat := 0x160000
/-- CNV_STATUS. -/
def cnvStatus : Nat := 0x160004
/-- CNV_CAP. -/
def cnvCap : Nat := 0x160008
/-- CNV_HIST_BASE_LO. -/
def cnvHistBaseLo : Nat := 0x160010
/-- CNV_HIST_BASE_HI. -/
def cnvHistBaseHi : Nat := 0x160014
/-- CNV_HIST_COUNT. -/
def cnvHistCount : Nat := 0x160018
/-- CNV_CNT_CLR. -/
def cnvCntClr : Nat := 0x160020
/-- CNV_SR_CTRL. -/
def cnvSrCtrl : Nat := 0x160100
/-- CNV_SR_SEED_LO. -/
def cnvSrSeedLo (p : Nat) : Nat := 0x160200 + 8 * p
/-- CNV_SR_SEED_HI. -/
def cnvSrSeedHi (p : Nat) : Nat := 0x160204 + 8 * p
/-- CNV_FLAGS. -/
def cnvFlags (p : Nat) : Nat := 0x160300 + 4 * p
/-- CNV_FTZ. -/
def cnvFtz (p : Nat) : Nat := 0x160400 + 4 * p
/-- CNV_CNT_LO. -/
def cnvCntLo (i : Nat) : Nat := 0x160500 + 8 * i
/-- CNV_CNT_HI. -/
def cnvCntHi (i : Nat) : Nat := 0x160504 + 8 * i
/-- RAS_CTRL. -/
def rasCtrl : Nat := 0x170000
/-- RAS_STATUS. -/
def rasStatus : Nat := 0x170004
/-- RAS_CAP_LIVE. -/
def rasCapLive : Nat := 0x170008
/-- RAS_FENCE. -/
def rasFence : Nat := 0x17000C
/-- RAS_RETURN. -/
def rasReturn : Nat := 0x170010
/-- RAS_SCRUB_RATE. -/
def rasScrubRate : Nat := 0x170014
/-- RAS_SCRUB_PASS. -/
def rasScrubPass : Nat := 0x170018
/-- RAS_EPOCH. -/
def rasEpoch : Nat := 0x17001C
/-- RAS_DECLARE_LO. -/
def rasDeclareLo : Nat := 0x170020
/-- RAS_DECLARE_HI. -/
def rasDeclareHi : Nat := 0x170024
/-- RAS_UNIT. -/
def rasUnit (u : Nat) : Nat := 0x170040 + 4 * u
/-- RAS_TS_SPARES. -/
def rasTsSpares (i : Nat) : Nat := 0x170080 + 4 * i
/-- RAS_LOG. -/
def rasLog (i w : Nat) : Nat := 0x170100 + 0x10 * i + 4 * w
/-- RAS_LOG_HEAD. -/
def rasLogHead : Nat := 0x170500
/-- RAS_LOG_CLR. -/
def rasLogClr : Nat := 0x170504
/-- RAS_TS_FENCED. -/
def rasTsFenced (i : Nat) : Nat := 0x170600 + 4 * i
/-- RAS_CNT_CLR. -/
def rasCntClr : Nat := 0x170800
/-- RAS_CNT_LO. -/
def rasCntLo (i : Nat) : Nat := 0x170900 + 8 * i
/-- RAS_CNT_HI. -/
def rasCntHi (i : Nat) : Nat := 0x170904 + 8 * i
/-- HST_CTRL. -/
def hstCtrl : Nat := 0x182000
/-- HST_STATUS. -/
def hstStatus : Nat := 0x182004
/-- HST_BIAS_BASE_LO. -/
def hstBiasBaseLo : Nat := 0x182010
/-- HST_BIAS_BASE_HI. -/
def hstBiasBaseHi : Nat := 0x182014
/-- HST_BIAS_FIRST. -/
def hstBiasFirst : Nat := 0x182018
/-- HST_BIAS_COUNT. -/
def hstBiasCount : Nat := 0x18201C
/-- HST_BIAS_CMD. -/
def hstBiasCmd : Nat := 0x182020
/-- HST_BIAS_STATUS. -/
def hstBiasStatus : Nat := 0x182024
/-- HST_PEER_ID. -/
def hstPeerId (i : Nat) : Nat := 0x182100 + 8 * i
/-- HST_PEER_KEY. -/
def hstPeerKey (i : Nat) : Nat := 0x182104 + 8 * i
/-- HST_CNT_CLR. -/
def hstCntClr : Nat := 0x182200
/-- HST_CNT_LO. -/
def hstCntLo (i : Nat) : Nat := 0x182300 + 8 * i
/-- HST_CNT_HI. -/
def hstCntHi (i : Nat) : Nat := 0x182304 + 8 * i
/-- D2D_STATUS. -/
def d2dStatus : Nat := 0x190000
/-- D2D_CMD. -/
def d2dCmd : Nat := 0x190004
/-- D2D_LINK. -/
def d2dLink (k : Nat) : Nat := 0x190010 + 4 * k
/-- D2D_CNT_CLR. -/
def d2dCntClr : Nat := 0x190030
/-- D2D_CNT_LO. -/
def d2dCntLo (i : Nat) : Nat := 0x190100 + 8 * i
/-- D2D_CNT_HI. -/
def d2dCntHi (i : Nat) : Nat := 0x190104 + 8 * i

end Reg

/-- A row of the map: `n1` rows at stride `s1` of `n2` registers at stride `s2` from `base`; the bits software writes
(`rw`), clears by a 1 (`w1c`) or the guard alone writes (`rwg`); the reset value; whether it is the LO word of a 64-bit
counter whose HI word follows; whether it exists in die 0 only (R618). -/
structure RegDesc where
  base  : Nat
  n1    : Nat
  s1    : Nat
  n2    : Nat
  s2    : Nat
  rw    : Nat
  w1c   : Nat
  rwg   : Nat
  reset : Nat
  ctr   : Bool
  die0  : Bool
deriving DecidableEq, Repr

/-- Registers of the GEN block. -/
def rowsGen : List RegDesc := [
  ⟨Reg.genId, 1, 0x4, 1, 0x4, 0x0, 0x0, 0x0, 0x0, false, false⟩,
  ⟨Reg.genSerialLo, 1, 0x4, 1, 0x4, 0x0, 0x0, 0x0, 0x0, false, false⟩,
  ⟨Reg.genSerialHi, 1, 0x4, 1, 0x4, 0x0, 0x0, 0x0, 0x0, false, false⟩,
  ⟨Reg.genStraps, 1, 0x4, 1, 0x4, 0x0, 0x0, 0x0, 0x0, false, false⟩,
  ⟨Reg.genBoot, 1, 0x4, 1, 0x4, 0x0, 0x0, 0x0, 0x0, false, false⟩,
  ⟨Reg.genRstCause, 1, 0x4, 1, 0x4, 0x0, 0x0, 0x0, 0x1, false, false⟩,
  ⟨Reg.genWarmCount, 1, 0x4, 1, 0x4, 0x0, 0x0, 0x0, 0x0, false, false⟩,
  ⟨Reg.genDiscCtrl, 1, 0x4, 1, 0x4, 0x0, 0x0, 0xfff1, 0x641, false, false⟩,
  ⟨Reg.genDiscStatus, 1, 0x4, 1, 0x4, 0x0, 0x0, 0x0, 0x0, false, false⟩,
  ⟨Reg.genDiscRootLo, 1, 0x4, 1, 0x4, 0x0, 0x0, 0x0, 0x0, false, false⟩,
  ⟨Reg.genDiscRootHi, 1, 0x4, 1, 0x4, 0x0, 0x0, 0x0, 0x0, false, false⟩]

/-- Registers of the GRD block. -/
def rowsGrd : List RegDesc := [
  ⟨Reg.grdId, 1, 0x4, 1, 0x4, 0x0, 0x0, 0x0, 0x0, false, false⟩,
  ⟨Reg.grdStatus, 1, 0x4, 1, 0x4, 0x0, 0x0, 0x0, 0x0, false, false⟩,
  ⟨Reg.grdFuseSvn, 1, 0x4, 1, 0x4, 0x0, 0x0, 0x0, 0x0, false, false⟩,
  ⟨Reg.grdMeasCount, 1, 0x4, 1, 0x4, 0x0, 0x0, 0x0, 0x0, false, false⟩,
  ⟨Reg.grdLostCntLo, 1, 0x4, 1, 0x4, 0x0, 0x0, 0x0, 0x0, true, false⟩,
  ⟨Reg.grdLostHead, 1, 0x4, 1, 0x4, 0x0, 0x0, 0x0, 0x0, false, false⟩,
  ⟨Reg.grdLostClr, 1, 0x4, 1, 0x4, 0x0, 0x0, 0x0, 0x0, false, false⟩,
  ⟨(Reg.grdLostLog 0 0), 32, 0x10, 4, 0x4, 0x0, 0x0, 0x0, 0x0, false, false⟩]

/-- Registers of the CLK block. -/
def rowsClk : List RegDesc := [
  ⟨Reg.clkCtrl, 1, 0x4, 1, 0x4, 0x1, 0x0, 0x0, 0x0, false, true⟩,
  ⟨Reg.clkStatus, 1, 0x4, 1, 0x4, 0x0, 0x0, 0x0, 0x0, false, false⟩,
  ⟨Reg.clkLimit, 1, 0x4, 1, 0x4, 0x0, 0x0, 0xff, 0xd0, false, false⟩,
  ⟨Reg.clkIdle, 1, 0x4, 1, 0x4, 0xffff, 0x0, 0x0, 0x64, false, false⟩,
  ⟨Reg.clkRunLo, 1, 0x4, 1, 0x4, 0x0, 0x0, 0x0, 0x1, false, false⟩,
  ⟨Reg.clkRunHi, 1, 0x4, 1, 0x4, 0x0, 0x0, 0x0, 0x0, false, false⟩,
  ⟨Reg.clkHoldLo, 1, 0x4, 1, 0x4, 0xffffffff, 0x0, 0x0, 0x0, false, false⟩,
  ⟨Reg.clkHoldHi, 1, 0x4, 1, 0x4, 0xfff, 0x0, 0x0, 0x0, false, false⟩,
  ⟨(Reg.clkOpp 0), 14, 0x4, 1, 0x4, 0x0, 0x0, 0x0, 0x0, false, false⟩,
  ⟨Reg.clkCntClr, 1, 0x4, 1, 0x4, 0x0, 0x0, 0x0, 0x0, false, false⟩,
  ⟨(Reg.clkCntLo 0), 4, 0x8, 1, 0x4, 0x0, 0x0, 0x0, 0x0, true, false⟩]

/-- Registers of the PWR block. -/
def rowsPwr : List RegDesc := [
  ⟨Reg.pwrCtrl, 1, 0x4, 1, 0x4, 0x3, 0x0, 0x0, 0x0, false, false⟩,
  ⟨Reg.pwrStatus, 1, 0x4, 1, 0x4, 0x0, 0x0, 0x0, 0x1, false, false⟩,
  ⟨Reg.pwrCap, 1, 0x4, 1, 0x4, 0xffff, 0x0, 0x0, 0x0, false, true⟩,
  ⟨Reg.pwrCapSb, 1, 0x4, 1, 0x4, 0x0, 0x0, 0xffff, 0xffff, false, true⟩,
  ⟨Reg.pwrCapCeil, 1, 0x4, 1, 0x4, 0x0, 0x0, 0xffff, 0x0, false, true⟩,
  ⟨Reg.pwrCapEff, 1, 0x4, 1, 0x4, 0x0, 0x0, 0x0, 0x0, false, true⟩,
  ⟨Reg.pwrEst, 1, 0x4, 1, 0x4, 0x0, 0x0, 0x0, 0x0, false, false⟩,
  ⟨Reg.pwrSense, 1, 0x4, 1, 0x4, 0x0, 0x0, 0x0, 0x0, false, false⟩,
  ⟨Reg.pwrCalGain, 1, 0x4, 1, 0x4, 0x0, 0x0, 0x0, 0x10000, false, false⟩,
  ⟨Reg.pwrCalOfs, 1, 0x4, 1, 0x4, 0x0, 0x0, 0x0, 0x0, false, false⟩,
  ⟨Reg.pwrResid, 1, 0x4, 1, 0x4, 0x0, 0x0, 0x0, 0x0, false, false⟩,
  ⟨Reg.pwrShare, 1, 0x4, 1, 0x4, 0x0, 0x0, 0x0, 0x0, false, false⟩,
  ⟨(Reg.pwrBrake 0), 4, 0x4, 1, 0x4, 0x0, 0x0, 0x0, 0x0, false, false⟩,
  ⟨Reg.thermTemp, 1, 0x4, 1, 0x4, 0x0, 0x0, 0x0, 0x0, false, false⟩,
  ⟨Reg.thermLimits, 1, 0x4, 1, 0x4, 0x0, 0x0, 0xffff, 0x6e5f, false, false⟩,
  ⟨Reg.fanCtrl, 1, 0x4, 1, 0x4, 0xffffff01, 0x0, 0x0, 0x5a3c1900, false, true⟩,
  ⟨Reg.fanStatus, 1, 0x4, 1, 0x4, 0x0, 0x0, 0x0, 0x0, false, true⟩,
  ⟨Reg.fanFailRpm, 1, 0x4, 1, 0x4, 0xffff, 0x0, 0x0, 0x1f4, false, true⟩,
  ⟨Reg.pwrCntClr, 1, 0x4, 1, 0x4, 0x0, 0x0, 0x0, 0x0, false, false⟩,
  ⟨(Reg.pwrCntLo 0), 8, 0x8, 1, 0x4, 0x0, 0x0, 0x0, 0x0, true, false⟩,
  ⟨(Reg.pwrPhase 0), 64, 0x4, 1, 0x4, 0x0, 0x0, 0x0, 0x445c, false, false⟩]

/-- Registers of the ME0 to ME3 blocks. -/
def rowsMe : List RegDesc := [
  ⟨(Reg.meCtrl 0), 4, 0x10000, 1, 0x4, 0x7, 0x0, 0x0, 0x0, false, false⟩,
  ⟨(Reg.meStatus 0), 4, 0x10000, 1, 0x4, 0x0, 0x0, 0x0, 0x0, false, false⟩,
  ⟨(Reg.meCap 0), 4, 0x10000, 1, 0x4, 0x0, 0x0, 0x0, 0x7, false, false⟩,
  ⟨(Reg.meCntClr 0), 4, 0x10000, 1, 0x4, 0x0, 0x0, 0x0, 0x0, false, false⟩,
  ⟨(Reg.meSkipClr 0), 4, 0x10000, 1, 0x4, 0x0, 0x0, 0x0, 0x0, false, false⟩,
  ⟨(Reg.meCntLo 0 0), 4, 0x10000, 9, 0x8, 0x0, 0x0, 0x0, 0x0, true, false⟩,
  ⟨(Reg.meSkipLo 0 0), 4, 0x10000, 2, 0x8, 0x0, 0x0, 0x0, 0x0, true, false⟩]

/-- Registers of the VE0 and VE1 blocks. -/
def rowsVe : List RegDesc := [
  ⟨(Reg.veCtrl 0), 2, 0x10000, 1, 0x4, 0x1, 0x0, 0x0, 0x0, false, false⟩,
  ⟨(Reg.veStatus 0), 2, 0x10000, 1, 0x4, 0x0, 0x0, 0x0, 0x0, false, false⟩,
  ⟨(Reg.veCap 0), 2, 0x10000, 1, 0x4, 0x0, 0x0, 0x0, 0x1f, false, false⟩,
  ⟨(Reg.veCntClr 0), 2, 0x10000, 1, 0x4, 0x0, 0x0, 0x0, 0x0, false, false⟩,
  ⟨(Reg.veCntLo 0 0), 2, 0x10000, 8, 0x8, 0x0, 0x0, 0x0, 0x0, true, false⟩]

/-- Registers of the TS block. -/
def rowsTs : List RegDesc := [
  ⟨Reg.tsCntClr, 1, 0x4, 1, 0x4, 0x0, 0x0, 0x0, 0x0, false, false⟩,
  ⟨(Reg.tsCntLo 0), 3, 0x8, 1, 0x4, 0x0, 0x0, 0x0, 0x0, true, false⟩]

/-- Registers of the HBM block. -/
def rowsHbm : List RegDesc := [
  ⟨Reg.hbmCtrl, 1, 0x4, 1, 0x4, 0x1, 0x0, 0x0, 0x0, false, false⟩,
  ⟨Reg.hbmStatus, 1, 0x4, 1, 0x4, 0x0, 0x0, 0x0, 0x0, false, false⟩,
  ⟨Reg.hbmCntClr, 1, 0x4, 1, 0x4, 0x0, 0x0, 0x0, 0x0, false, false⟩,
  ⟨(Reg.hbmCntLo 0), 3, 0x8, 1, 0x4, 0x0, 0x0, 0x0, 0x0, true, false⟩]

/-- Registers of the ETH block. -/
def rowsEth : List RegDesc := [
  ⟨Reg.ethCtrl, 1, 0x4, 1, 0x4, 0x3f, 0x0, 0x0, 0x0, false, false⟩,
  ⟨Reg.ethStatus, 1, 0x4, 1, 0x4, 0x0, 0x0, 0x0, 0x0, false, false⟩,
  ⟨Reg.ethMacLo, 1, 0x4, 1, 0x4, 0xffffffff, 0x0, 0x0, 0x0, false, false⟩,
  ⟨Reg.ethMacHi, 1, 0x4, 1, 0x4, 0xffff, 0x0, 0x0, 0x0, false, false⟩,
  ⟨Reg.ethMaxfrm, 1, 0x4, 1, 0x4, 0x3fff, 0x0, 0x0, 0x2400, false, false⟩,
  ⟨Reg.ethPauseTime, 1, 0x4, 1, 0x4, 0xffff, 0x0, 0x0, 0xffff, false, false⟩,
  ⟨Reg.ethCmd, 1, 0x4, 1, 0x4, 0x0, 0x0, 0x0, 0x0, false, false⟩,
  ⟨Reg.ethErrAct, 1, 0x4, 1, 0x4, 0xffff, 0x0, 0x0, 0x0, false, false⟩,
  ⟨(Reg.ethPool 0), 8, 0x4, 1, 0x4, 0xfff, 0x0, 0x0, 0x0, false, false⟩,
  ⟨(Reg.ethWm 0), 8, 0x4, 1, 0x4, 0xfff0fff, 0x0, 0x0, 0x0, false, false⟩,
  ⟨Reg.ethCntClr, 1, 0x4, 1, 0x4, 0x0, 0x0, 0x0, 0x0, false, false⟩,
  ⟨Reg.ethSecCtrl, 1, 0x4, 1, 0x4, 0x0, 0x0, 0xffffff1f, 0x0, false, false⟩,
  ⟨(Reg.ethErrLimit 0), 16, 0x4, 1, 0x4, 0xffffffff, 0x0, 0x0, 0xffffffff, false, false⟩,
  ⟨(Reg.ethCntLo 0), 16, 0x8, 1, 0x4, 0x0, 0x0, 0x0, 0x0, true, false⟩]

/-- Registers of the XT block. -/
def rowsXt : List RegDesc := [
  ⟨Reg.xtCtrl, 1, 0x4, 1, 0x4, 0x7, 0x0, 0x0, 0x0, false, false⟩,
  ⟨Reg.xtStatus, 1, 0x4, 1, 0x4, 0x0, 0x0, 0x0, 0x0, false, false⟩,
  ⟨Reg.xtUdpPort, 1, 0x4, 1, 0x4, 0xffff, 0x0, 0x0, 0xd7a0, false, false⟩,
  ⟨Reg.xtCtxCount, 1, 0x4, 1, 0x4, 0x1fffff, 0x0, 0x0, 0x0, false, false⟩,
  ⟨Reg.xtCtxBaseLo, 1, 0x4, 1, 0x4, 0xffffff00, 0x0, 0x0, 0x0, false, false⟩,
  ⟨Reg.xtCtxBaseHi, 1, 0x4, 1, 0x4, 0xffff, 0x0, 0x0, 0x0, false, false⟩,
  ⟨Reg.xtRegBaseLo, 1, 0x4, 1, 0x4, 0xffffffc0, 0x0, 0x0, 0x0, false, false⟩,
  ⟨Reg.xtRegBaseHi, 1, 0x4, 1, 0x4, 0xffff, 0x0, 0x0, 0x0, false, false⟩,
  ⟨Reg.xtRegCount, 1, 0x4, 1, 0x4, 0x1ffff, 0x0, 0x0, 0x0, false, false⟩,
  ⟨Reg.xtIp4, 1, 0x4, 1, 0x4, 0xffffffff, 0x0, 0x0, 0x0, false, false⟩,
  ⟨(Reg.xtIp6 0), 4, 0x4, 1, 0x4, 0xffffffff, 0x0, 0x0, 0x0, false, false⟩,
  ⟨Reg.xtCntClr, 1, 0x4, 1, 0x4, 0x0, 0x0, 0x0, 0x0, false, false⟩,
  ⟨(Reg.xtCntLo 0), 16, 0x8, 1, 0x4, 0x0, 0x0, 0x0, 0x0, true, false⟩]

/-- Registers of the FL block. -/
def rowsFl : List RegDesc := [
  ⟨Reg.flCtrl, 1, 0x4, 1, 0x4, 0x1, 0x0, 0x0, 0x0, false, false⟩,
  ⟨Reg.flStatus, 1, 0x4, 1, 0x4, 0x0, 0x0, 0x0, 0x0, false, false⟩,
  ⟨Reg.flVol, 1, 0x4, 1, 0x4, 0xfff, 0x0, 0x0, 0x600, false, false⟩,
  ⟨Reg.flTimeout, 1, 0x4, 1, 0x4, 0xffff, 0x0, 0x0, 0x3e8, false, false⟩,
  ⟨Reg.flQbaseLo, 1, 0x4, 1, 0x4, 0xfffff000, 0x0, 0x0, 0x0, false, false⟩,
  ⟨Reg.flQbaseHi, 1, 0x4, 1, 0x4, 0xffff, 0x0, 0x0, 0x0, false, false⟩,
  ⟨Reg.flDrvLbasLo, 1, 0x4, 1, 0x4, 0x0, 0x0, 0x0, 0x0, false, false⟩,
  ⟨Reg.flDrvLbasHi, 1, 0x4, 1, 0x4, 0x0, 0x0, 0x0, 0x0, false, false⟩,
  ⟨Reg.flVolUnitsLo, 1, 0x4, 1, 0x4, 0x0, 0x0, 0x0, 0x0, false, false⟩,
  ⟨Reg.flVolUnitsHi, 1, 0x4, 1, 0x4, 0x0, 0x0, 0x0, 0x0, false, false⟩,
  ⟨Reg.flCntClr, 1, 0x4, 1, 0x4, 0x0, 0x0, 0x0, 0x0, false, false⟩,
  ⟨(Reg.flCntLo 0), 8, 0x8, 1, 0x4, 0x0, 0x0, 0x0, 0x0, true, false⟩]

/-- Registers of the TRB block. -/
def rowsTrb : List RegDesc := [
  ⟨Reg.trbCtrl, 1, 0x4, 1, 0x4, 0x7, 0x0, 0x0, 0x0, false, false⟩,
  ⟨Reg.trbStatus, 1, 0x4, 1, 0x4, 0x0, 0x0, 0x0, 0x0, false, false⟩,
  ⟨Reg.trbCntClr, 1, 0x4, 1, 0x4, 0x0, 0x0, 0x0, 0x0, false, false⟩,
  ⟨(Reg.trbCntLo 0), 5, 0x8, 1, 0x4, 0x0, 0x0, 0x0, 0x0, true, false⟩]

/-- Registers of the SEQ block. -/
def rowsSeq : List RegDesc := [
  ⟨Reg.seqStatus, 1, 0x4, 1, 0x4, 0x0, 0x0, 0x0, 0x0, false, false⟩,
  ⟨Reg.seqCap, 1, 0x4, 1, 0x4, 0x0, 0x0, 0x0, 0x0, false, false⟩,
  ⟨Reg.seqObjBaseLo, 1, 0x4, 1, 0x4, 0xffffffc0, 0x0, 0x0, 0x0, false, false⟩,
  ⟨Reg.seqObjBaseHi, 1, 0x4, 1, 0x4, 0xffff, 0x0, 0x0, 0x0, false, false⟩,
  ⟨Reg.seqDet, 1, 0x4, 1, 0x4, 0xffff, 0x0, 0x0, 0x0, false, false⟩,
  ⟨Reg.seqCntClr, 1, 0x4, 1, 0x4, 0x0, 0x0, 0x0, 0x0, false, false⟩,
  ⟨(Reg.seqCurLayer 0), 16, 0x4, 1, 0x4, 0x0, 0x0, 0x0, 0x0, false, false⟩,
  ⟨(Reg.seqCntLo 0), 4, 0x8, 1, 0x4, 0x0, 0x0, 0x0, 0x0, true, false⟩,
  ⟨Reg.seqOwnBaseLo, 1, 0x4, 1, 0x4, 0xffffffc0, 0x0, 0x0, 0x0, false, false⟩,
  ⟨Reg.seqOwnBaseHi, 1, 0x4, 1, 0x4, 0xffff, 0x0, 0x0, 0x0, false, false⟩,
  ⟨Reg.seqOwnCount, 1, 0x4, 1, 0x4, 0x1fffff, 0x0, 0x0, 0x0, false, false⟩,
  ⟨Reg.seqOwnSelf, 1, 0x4, 1, 0x4, 0x7ff, 0x0, 0x0, 0x0, false, false⟩,
  ⟨(Reg.seqRetainBudget 0), 16, 0x4, 1, 0x4, 0xffffff, 0x0, 0x0, 0x0, false, false⟩,
  ⟨(Reg.seqRetainUsed 0), 16, 0x4, 1, 0x4, 0x0, 0x0, 0x0, 0x0, false, false⟩,
  ⟨(Reg.seqActFirst 0), 16, 0x4, 1, 0x4, 0xfffff, 0x0, 0x0, 0x0, false, false⟩,
  ⟨(Reg.seqActLast 0), 16, 0x4, 1, 0x4, 0xfffff, 0x0, 0x0, 0x0, false, false⟩,
  ⟨(Reg.seqActCur 0), 16, 0x4, 1, 0x4, 0x0, 0x0, 0x0, 0x0, false, false⟩,
  ⟨(Reg.seqActPeak 0), 16, 0x4, 1, 0x4, 0x0, 0x0, 0x0, 0x0, false, false⟩,
  ⟨Reg.seqActPeakClr, 1, 0x4, 1, 0x4, 0x0, 0x0, 0x0, 0x0, false, false⟩,
  ⟨(Reg.seqPartCfg 0), 16, 0x4, 1, 0x4, 0x1ffff, 0x0, 0x0, 0x0, false, false⟩,
  ⟨(Reg.seqPartMask 0), 16, 0x4, 1, 0x4, 0xffff, 0x0, 0x0, 0x0, false, false⟩,
  ⟨(Reg.seqPartStatus 0), 16, 0x4, 1, 0x4, 0x0, 0x0, 0x0, 0x0, false, false⟩,
  ⟨Reg.seqPartErr, 1, 0x4, 1, 0x4, 0x0, 0xffff, 0x0, 0x0, false, false⟩,
  ⟨(Reg.seqSrvCtrl 0), 16, 0x20, 1, 0x4, 0x1ff, 0x0, 0x0, 0x0, false, true⟩,
  ⟨(Reg.seqSrvBaseLo 0), 16, 0x20, 1, 0x4, 0xffffffc0, 0x0, 0x0, 0x0, false, true⟩,
  ⟨(Reg.seqSrvBaseHi 0), 16, 0x20, 1, 0x4, 0xffff, 0x0, 0x0, 0x0, false, true⟩,
  ⟨(Reg.seqSrvCount 0), 16, 0x20, 1, 0x4, 0x7fff, 0x0, 0x0, 0x0, false, true⟩,
  ⟨(Reg.seqSrvLimits 0), 16, 0x20, 1, 0x4, 0x7ff7fff, 0x0, 0x0, 0x1000100, false, true⟩,
  ⟨(Reg.seqSrvStep 0), 16, 0x20, 1, 0x4, 0x0, 0x0, 0x0, 0x0, false, true⟩,
  ⟨Reg.seqModelBaseLo, 1, 0x4, 1, 0x4, 0xffffffc0, 0x0, 0x0, 0x0, false, true⟩,
  ⟨Reg.seqModelBaseHi, 1, 0x4, 1, 0x4, 0xffff, 0x0, 0x0, 0x0, false, true⟩,
  ⟨(Reg.seqModelVictim 0), 16, 0x4, 1, 0x4, 0x0, 0x0, 0x0, 0x7f, false, true⟩,
  ⟨Reg.seqSchCntClr, 1, 0x4, 1, 0x4, 0x0, 0x0, 0x0, 0x0, false, false⟩,
  ⟨(Reg.seqSchCntLo 0 0), 16, 0x40, 8, 0x8, 0x0, 0x0, 0x0, 0x0, true, false⟩]

/-- Registers of the RING block. -/
def rowsRing : List RegDesc := [
  ⟨(Reg.ringCfg 0), 32, 0x40, 1, 0x4, 0x3fffff, 0x0, 0x0, 0x0, false, false⟩,
  ⟨(Reg.ringStatus 0), 32, 0x40, 1, 0x4, 0x0, 0x0, 0x0, 0x0, false, false⟩,
  ⟨(Reg.ringBaseLo 0), 32, 0x40, 1, 0x4, 0xfffff000, 0x0, 0x0, 0x0, false, false⟩,
  ⟨(Reg.ringBaseHi 0), 32, 0x40, 1, 0x4, 0xffff, 0x0, 0x0, 0x0, false, false⟩,
  ⟨(Reg.cqBaseLo 0), 32, 0x40, 1, 0x4, 0xfffff000, 0x0, 0x0, 0x0, false, false⟩,
  ⟨(Reg.cqBaseHi 0), 32, 0x40, 1, 0x4, 0xffff, 0x0, 0x0, 0x0, false, false⟩,
  ⟨(Reg.ringPi 0), 32, 0x40, 1, 0x4, 0x0, 0x0, 0x0, 0x0, false, false⟩,
  ⟨(Reg.ringCi 0), 32, 0x40, 1, 0x4, 0x0, 0x0, 0x0, 0x0, false, false⟩,
  ⟨(Reg.cqTail 0), 32, 0x40, 1, 0x4, 0x0, 0x0, 0x0, 0x0, false, false⟩,
  ⟨(Reg.cqHead 0), 32, 0x40, 1, 0x4, 0x0, 0x0, 0x0, 0x0, false, false⟩,
  ⟨(Reg.evqCfg 0), 16, 0x20, 1, 0x4, 0x3f, 0x0, 0x0, 0x0, false, true⟩,
  ⟨(Reg.evqBaseLo 0), 16, 0x20, 1, 0x4, 0xfffff000, 0x0, 0x0, 0x0, false, true⟩,
  ⟨(Reg.evqBaseHi 0), 16, 0x20, 1, 0x4, 0xffff, 0x0, 0x0, 0x0, false, true⟩,
  ⟨(Reg.evqTail 0), 16, 0x20, 1, 0x4, 0x0, 0x0, 0x0, 0x0, false, true⟩,
  ⟨(Reg.evqHead 0), 16, 0x20, 1, 0x4, 0x0, 0x0, 0x0, 0x0, false, true⟩,
  ⟨Reg.ringCntClr, 1, 0x4, 1, 0x4, 0x0, 0x0, 0x0, 0x0, false, false⟩,
  ⟨(Reg.ringCntLo 0), 8, 0x8, 1, 0x4, 0x0, 0x0, 0x0, 0x0, true, false⟩,
  ⟨(Reg.mbCfg 0), 64, 0x10, 1, 0x4, 0x3f, 0x0, 0x0, 0x0, false, true⟩,
  ⟨(Reg.mbBell 0), 64, 0x10, 1, 0x4, 0x0, 0x0, 0x0, 0x0, false, true⟩,
  ⟨(Reg.mbState 0), 64, 0x10, 1, 0x4, 0x0, 0x0, 0x0, 0x0, false, true⟩,
  ⟨(Reg.mbData 0 0), 64, 0x200, 128, 0x4, 0xffffffff, 0x0, 0x0, 0x0, false, true⟩]

/-- Registers of the WEIR block. -/
def rowsWeir : List RegDesc := [
  ⟨Reg.weirCtrl, 1, 0x4, 1, 0x4, 0xff7f, 0x0, 0x0, 0x4000, false, false⟩,
  ⟨Reg.weirStatus, 1, 0x4, 1, 0x4, 0x0, 0x0, 0x0, 0x0, false, false⟩,
  ⟨(Reg.weirShare 0 0), 7, 0x40, 16, 0x4, 0xffff, 0x0, 0x0, 0x0, false, false⟩,
  ⟨Reg.weirCntClr, 1, 0x4, 1, 0x4, 0x0, 0x0, 0x0, 0x0, false, false⟩,
  ⟨(Reg.weirBytesLo 0 0), 7, 0x80, 16, 0x8, 0x0, 0x0, 0x0, 0x0, true, false⟩]

/-- Registers of the CMT block. -/
def rowsCmt : List RegDesc := [
  ⟨Reg.cmtCtrl, 1, 0x4, 1, 0x4, 0xf, 0x0, 0x0, 0xc, false, false⟩,
  ⟨Reg.cmtStatus, 1, 0x4, 1, 0x4, 0x0, 0x0, 0x0, 0x0, false, false⟩,
  ⟨Reg.cmtTimeout, 1, 0x4, 1, 0x4, 0xffff, 0x0, 0x0, 0xa, false, false⟩,
  ⟨Reg.cmtTwinBaseLo, 1, 0x4, 1, 0x4, 0xffffffc0, 0x0, 0x0, 0x0, false, false⟩,
  ⟨Reg.cmtTwinBaseHi, 1, 0x4, 1, 0x4, 0xffff, 0x0, 0x0, 0x0, false, false⟩,
  ⟨Reg.cmtDomBaseLo, 1, 0x4, 1, 0x4, 0xffffffc0, 0x0, 0x0, 0x0, false, false⟩,
  ⟨Reg.cmtDomBaseHi, 1, 0x4, 1, 0x4, 0xffff, 0x0, 0x0, 0x0, false, false⟩,
  ⟨Reg.cmtDomCount, 1, 0x4, 1, 0x4, 0xf, 0x0, 0x0, 0x0, false, false⟩,
  ⟨Reg.cmtHoldBaseLo, 1, 0x4, 1, 0x4, 0xffffffc0, 0x0, 0x0, 0x0, false, false⟩,
  ⟨Reg.cmtHoldBaseHi, 1, 0x4, 1, 0x4, 0xffff, 0x0, 0x0, 0x0, false, false⟩,
  ⟨Reg.cmtHoldCount, 1, 0x4, 1, 0x4, 0x1ffff, 0x0, 0x0, 0x0, false, false⟩,
  ⟨Reg.cmtManVlbaLo, 1, 0x4, 1, 0x4, 0xffffffff, 0x0, 0x0, 0x0, false, false⟩,
  ⟨Reg.cmtManVlbaHi, 1, 0x4, 1, 0x4, 0xffff, 0x0, 0x0, 0x0, false, false⟩,
  ⟨Reg.cmtManStatus, 1, 0x4, 1, 0x4, 0x0, 0x0, 0x0, 0x0, false, false⟩,
  ⟨Reg.cmtManSeqLo, 1, 0x4, 1, 0x4, 0x0, 0x0, 0x0, 0x0, false, false⟩,
  ⟨Reg.cmtManSeqHi, 1, 0x4, 1, 0x4, 0x0, 0x0, 0x0, 0x0, false, false⟩,
  ⟨Reg.cmtCntClr, 1, 0x4, 1, 0x4, 0x0, 0x0, 0x0, 0x0, false, false⟩,
  ⟨(Reg.cmtCntLo 0), 8, 0x8, 1, 0x4, 0x0, 0x0, 0x0, 0x0, true, false⟩]

/-- Registers of the WHL block. -/
def rowsWhl : List RegDesc := [
  ⟨Reg.whlCtrl, 1, 0x4, 1, 0x4, 0xf, 0x0, 0x0, 0xc, false, false⟩,
  ⟨Reg.whlStatus, 1, 0x4, 1, 0x4, 0x0, 0x0, 0x0, 0x0, false, false⟩,
  ⟨Reg.whlCap, 1, 0x4, 1, 0x4, 0x0, 0x0, 0x0, 0x0, false, false⟩,
  ⟨Reg.whlCoord, 1, 0x4, 1, 0x4, 0x0, 0x0, 0x0, 0x0, false, false⟩,
  ⟨Reg.whlDims, 1, 0x4, 1, 0x4, 0x0, 0x0, 0x0, 0x0, false, false⟩,
  ⟨Reg.whlTimeout, 1, 0x4, 1, 0x4, 0xffff, 0x0, 0x0, 0x64, false, false⟩,
  ⟨Reg.whlGrpBaseLo, 1, 0x4, 1, 0x4, 0xffffffc0, 0x0, 0x0, 0x0, false, false⟩,
  ⟨Reg.whlGrpBaseHi, 1, 0x4, 1, 0x4, 0xffff, 0x0, 0x0, 0x0, false, false⟩,
  ⟨Reg.whlGrpCount, 1, 0x4, 1, 0x4, 0x1fff, 0x0, 0x0, 0x0, false, false⟩,
  ⟨Reg.whlStageLo, 1, 0x4, 1, 0x4, 0xffe00000, 0x0, 0x0, 0x0, false, false⟩,
  ⟨Reg.whlStageHi, 1, 0x4, 1, 0x4, 0xffff, 0x0, 0x0, 0x0, false, false⟩,
  ⟨Reg.whlCntClr, 1, 0x4, 1, 0x4, 0x0, 0x0, 0x0, 0x0, false, false⟩,
  ⟨(Reg.whlCntLo 0), 8, 0x8, 1, 0x4, 0x0, 0x0, 0x0, 0x0, true, false⟩]

/-- Registers of the TOK block. -/
def rowsTok : List RegDesc := [
  ⟨Reg.tokCtrl, 1, 0x4, 1, 0x4, 0x1, 0x0, 0x0, 0x0, false, false⟩,
  ⟨Reg.tokStatus, 1, 0x4, 1, 0x4, 0x0, 0x0, 0x0, 0x0, false, false⟩,
  ⟨Reg.tokCap, 1, 0x4, 1, 0x4, 0x0, 0x0, 0x0, 0xc400, false, false⟩,
  ⟨Reg.tokCntClr, 1, 0x4, 1, 0x4, 0x0, 0x0, 0x0, 0x0, false, false⟩,
  ⟨(Reg.tokCntLo 0), 8, 0x8, 1, 0x4, 0x0, 0x0, 0x0, 0x0, true, false⟩]

/-- Registers of the CNV block. -/
def rowsCnv : List RegDesc := [
  ⟨Reg.cnvCtrl, 1, 0x4, 1, 0x4, 0x3, 0x0, 0x0, 0x0, false, false⟩,
  ⟨Reg.cnvStatus, 1, 0x4, 1, 0x4, 0x0, 0x0, 0x0, 0x0, false, false⟩,
  ⟨Reg.cnvCap, 1, 0x4, 1, 0x4, 0x0, 0x0, 0x0, 0xf, false, false⟩,
  ⟨Reg.cnvHistBaseLo, 1, 0x4, 1, 0x4, 0xffffffc0, 0x0, 0x0, 0x0, false, false⟩,
  ⟨Reg.cnvHistBaseHi, 1, 0x4, 1, 0x4, 0xffff, 0x0, 0x0, 0x0, false, false⟩,
  ⟨Reg.cnvHistCount, 1, 0x4, 1, 0x4, 0x1ffff, 0x0, 0x0, 0x0, false, false⟩,
  ⟨Reg.cnvCntClr, 1, 0x4, 1, 0x4, 0x0, 0x0, 0x0, 0x0, false, false⟩,
  ⟨Reg.cnvSrCtrl, 1, 0x4, 1, 0x4, 0x1, 0x0, 0x0, 0x0, false, false⟩,
  ⟨(Reg.cnvSrSeedLo 0), 16, 0x8, 1, 0x4, 0xffffffff, 0x0, 0x0, 0x0, false, false⟩,
  ⟨(Reg.cnvSrSeedHi 0), 16, 0x8, 1, 0x4, 0xffffffff, 0x0, 0x0, 0x0, false, false⟩,
  ⟨(Reg.cnvFlags 0), 16, 0x4, 1, 0x4, 0x0, 0xff, 0x0, 0x0, false, false⟩,
  ⟨(Reg.cnvFtz 0), 16, 0x4, 1, 0x4, 0x1f, 0x0, 0x0, 0x0, false, false⟩,
  ⟨(Reg.cnvCntLo 0), 8, 0x8, 1, 0x4, 0x0, 0x0, 0x0, 0x0, true, false⟩]

/-- Registers of the RAS block. -/
def rowsRas : List RegDesc := [
  ⟨Reg.rasCtrl, 1, 0x4, 1, 0x4, 0xff03, 0x0, 0x0, 0x1000, false, false⟩,
  ⟨Reg.rasStatus, 1, 0x4, 1, 0x4, 0x0, 0x0, 0x0, 0x0, false, false⟩,
  ⟨Reg.rasCapLive, 1, 0x4, 1, 0x4, 0x0, 0x0, 0x0, 0x0, false, false⟩,
  ⟨Reg.rasFence, 1, 0x4, 1, 0x4, 0x0, 0x0, 0x0, 0x0, false, false⟩,
  ⟨Reg.rasReturn, 1, 0x4, 1, 0x4, 0x0, 0x0, 0x0, 0x0, false, false⟩,
  ⟨Reg.rasScrubRate, 1, 0x4, 1, 0x4, 0xffffffff, 0x0, 0x0, 0x100040, false, false⟩,
  ⟨Reg.rasScrubPass, 1, 0x4, 1, 0x4, 0x0, 0x0, 0x0, 0x0, false, false⟩,
  ⟨Reg.rasEpoch, 1, 0x4, 1, 0x4, 0x0, 0x0, 0x0, 0x0, false, false⟩,
  ⟨Reg.rasDeclareLo, 1, 0x4, 1, 0x4, 0xffffffff, 0x0, 0x0, 0x0, false, true⟩,
  ⟨Reg.rasDeclareHi, 1, 0x4, 1, 0x4, 0x0, 0x0, 0x0, 0x0, false, true⟩,
  ⟨(Reg.rasUnit 0), 16, 0x4, 1, 0x4, 0x0, 0x0, 0x0, 0x0, false, false⟩,
  ⟨(Reg.rasTsSpares 0), 4, 0x4, 1, 0x4, 0x0, 0x0, 0x0, 0x88888888, false, false⟩,
  ⟨(Reg.rasLog 0 0), 64, 0x10, 4, 0x4, 0x0, 0x0, 0x0, 0x0, false, false⟩,
  ⟨Reg.rasLogHead, 1, 0x4, 1, 0x4, 0x0, 0x0, 0x0, 0x0, false, false⟩,
  ⟨Reg.rasLogClr, 1, 0x4, 1, 0x4, 0x0, 0x0, 0x0, 0x0, false, false⟩,
  ⟨(Reg.rasTsFenced 0), 64, 0x4, 1, 0x4, 0x0, 0x0, 0x0, 0x0, false, false⟩,
  ⟨Reg.rasCntClr, 1, 0x4, 1, 0x4, 0x0, 0x0, 0x0, 0x0, false, false⟩,
  ⟨(Reg.rasCntLo 0), 8, 0x8, 1, 0x4, 0x0, 0x0, 0x0, 0x0, true, false⟩]

/-- Registers of the HST block. -/
def rowsHst : List RegDesc := [
  ⟨Reg.hstCtrl, 1, 0x4, 1, 0x4, 0x7, 0x0, 0x0, 0x0, false, true⟩,
  ⟨Reg.hstStatus, 1, 0x4, 1, 0x4, 0x0, 0x0, 0x0, 0x0, false, true⟩,
  ⟨Reg.hstBiasBaseLo, 1, 0x4, 1, 0x4, 0xfffff000, 0x0, 0x0, 0x0, false, true⟩,
  ⟨Reg.hstBiasBaseHi, 1, 0x4, 1, 0x4, 0xffff, 0x0, 0x0, 0x0, false, true⟩,
  ⟨Reg.hstBiasFirst, 1, 0x4, 1, 0x4, 0x7ffffff, 0x0, 0x0, 0x0, false, true⟩,
  ⟨Reg.hstBiasCount, 1, 0x4, 1, 0x4, 0x7ffffff, 0x0, 0x0, 0x1, false, true⟩,
  ⟨Reg.hstBiasCmd, 1, 0x4, 1, 0x4, 0x0, 0x0, 0x0, 0x0, false, true⟩,
  ⟨Reg.hstBiasStatus, 1, 0x4, 1, 0x4, 0x0, 0x6, 0x0, 0x0, false, true⟩,
  ⟨(Reg.hstPeerId 0), 16, 0x8, 1, 0x4, 0x800fffff, 0x0, 0x0, 0x0, false, true⟩,
  ⟨(Reg.hstPeerKey 0), 16, 0x8, 1, 0x4, 0xffffffff, 0x0, 0x0, 0x0, false, true⟩,
  ⟨Reg.hstCntClr, 1, 0x4, 1, 0x4, 0x0, 0x0, 0x0, 0x0, false, true⟩,
  ⟨(Reg.hstCntLo 0), 8, 0x8, 1, 0x4, 0x0, 0x0, 0x0, 0x0, true, true⟩]

/-- Registers of the D2D block. -/
def rowsD2d : List RegDesc := [
  ⟨Reg.d2dStatus, 1, 0x4, 1, 0x4, 0x0, 0x0, 0x0, 0x0, false, false⟩,
  ⟨Reg.d2dCmd, 1, 0x4, 1, 0x4, 0x0, 0x0, 0x0, 0x0, false, false⟩,
  ⟨(Reg.d2dLink 0), 3, 0x4, 1, 0x4, 0x0, 0x0, 0x0, 0x0, false, false⟩,
  ⟨Reg.d2dCntClr, 1, 0x4, 1, 0x4, 0x0, 0x0, 0x0, 0x0, false, false⟩,
  ⟨(Reg.d2dCntLo 0), 12, 0x8, 1, 0x4, 0x0, 0x0, 0x0, 0x0, true, false⟩]


end Sys2Proof.Machine
end

