-- ==== Sys2Proof/Machine/Ops.lean ====
section
/-! DEFINITION. The named operations over registers, counters, memory, the address map, events, interrupts and
completion records that every family shares. -/

namespace Sys2Proof.Machine

/-- The outcome of a command. -/
abbrev Res := Host.Outcome State Fault Refusal

/-! ## Parts (Table 00-1) -/

/-- C-dies of a part. -/
def Part.dies : Part → Nat
  | .t8 => 8
  | .t4 => 4
  | .t2 => 2

/-- Partitions of a part: one per half-die (Table 00-1). -/
def Part.parts (p : Part) : Nat := 2 * p.dies

/-- Package rings of a part. -/
def Part.rings (p : Part) : Nat := 32 * p.dies

/-- Columns of the die mesh: a T8 has two rows of four, a T4 two rows of two, a T2 one row of two. -/
def Part.cols : Part → Nat
  | .t8 => 4
  | .t4 => 2
  | .t2 => 2

/-- Design power in W (Table 00-1). -/
def Part.design : Part → Nat
  | .t8 => 1200
  | .t4 => 620
  | .t2 => 320

/-- The neighbours of a die in the order that numbers its UCIe links: lower column, higher column, other row (R625). -/
def Part.links (p : Part) (d : Nat) : List Nat :=
  let c := p.cols
  (if d % c = 0 then [] else [d - 1]) ++ (if d % c + 1 < c then [d + 1] else []) ++
    (if p = .t2 then [] else [if d < c then d + c else d - c])

/-- Whether a die is in reset (R533, R534). -/
def State.inReset (s : State) (d : Nat) : Bool := s.rst.dies.any fun x => x.1 == d

/-- Runs an effect of the package's fast domains: after a thermal trip every one of them is stopped (R527). -/
def live (s t : State) : Res := .next (if s.tripped then s else t)

/-- Runs an effect of the always-on island of die `d`. A die that the part lacks has no units, and writes to its registers are
discarded (R4, R6): a command that names one changes nothing. -/
def onIsland (s : State) (d : Nat) (t : State) : Res := .next (if d < s.part.dies then t else s)

/-- Runs an effect of die `d` outside its island: none comes about while the die is in reset or after a trip. -/
def onDie (s : State) (d : Nat) (t : State) : Res := onIsland s d (if s.tripped || s.inReset d then s else t)

/-! ## Registers (chapter 20) -/

/-- The rows of a register block, by the block's number (Table 20-1). -/
def blockRows : Nat → List RegDesc
  | 0x00 => rowsGen | 0x01 => rowsGrd | 0x02 => rowsClk | 0x03 => rowsPwr
  | 0x04 => rowsMe | 0x05 => rowsMe | 0x06 => rowsMe | 0x07 => rowsMe
  | 0x08 => rowsVe | 0x09 => rowsVe | 0x0A => rowsTs | 0x0B => rowsHbm
  | 0x0C => rowsEth | 0x0D => rowsXt | 0x0E => rowsFl | 0x0F => rowsTrb
  | 0x10 => rowsSeq | 0x11 => rowsRing | 0x12 => rowsWeir | 0x13 => rowsCmt
  | 0x14 => rowsWhl | 0x15 => rowsTok | 0x16 => rowsCnv | 0x17 => rowsRas
  | 0x18 => rowsHst | 0x19 => rowsD2d
  | _ => []

/-- Whether a row of the map holds an offset: one of its registers, or the HI word of one of its counters. -/
def RegDesc.holds (r : RegDesc) (off : Nat) : Bool :=
  let o := if r.ctr && off / 4 % 2 == 1 then off - 4 else off
  decide (r.base ≤ o) &&
    (let x := o - r.base
     let a := if r.n1 = 1 then 0 else x / r.s1
     let y := x - a * r.s1
     decide (a < r.n1) && decide (y % r.s2 = 0) && decide (y / r.s2 < r.n2))

/-- The row that holds an offset of the die window; none for an offset that no table names (R611). -/
def regDesc (off : Nat) : Option RegDesc := (blockRows (off / 0x10000)).find? fun r => r.holds off

/-- The key of a register of a die in the register list. -/
def regKey (d off : Nat) : Nat := 2 ^ 24 * d + off

/-- D2D_LINK[k] as wired: the far die and PRESENT (Table 20-6). -/
def linkReset (p : Part) (d k : Nat) : Nat :=
  match (p.links d)[k]? with
  | some e => e + 8
  | none => 0

/-- The voltage of operating point `i` of a die in mV, as its fuses hold it: a multiple of 5 from 650 to 900, never lower than the
point below (R521). -/
def oppMv (d i : Nat) : Nat := 650 + 5 * Nat.min 50 (sumNat ((List.range (i + 1)).map fun j => (Config.fusedWord d (Reg.clkOpp j)).toNat))

/-- CLK_OPP[i] of a die: MHZ is 1,000 + 50i on every part, and the reserved bits read zero (R12, R521). -/
def oppWord (d i : Nat) : W32 := BitVec.ofNat 32 (1000 + 50 * i + 65536 * oppMv d i)

/-- GRD_ID of a die as fused, without its reserved bits (R12). -/
def fusedId (d : Nat) : W32 := BitVec.ofNat 32 (setFld (Config.fusedWord d Reg.grdId).toNat 9 7 0)

/-- GRD_FUSE_SVN as fused: MIN_SVN, and CRIT_MAX from 110 to 115 (R568); the reserved bits read zero (R12). -/
def fuseWord : W32 := BitVec.ofNat 32 (fld Config.fusedSvn.toNat 0 8 + 256 * (110 + fld Config.fusedSvn.toNat 8 24 % 6))

/-- The reset value of a register (the Reset columns of the register tables); fused words are constants of the part. -/
def resetValue (p : Part) (d off : Nat) : W32 :=
  if off = Reg.genId then BitVec.ofNat 32 (0x11 + 0x100 * p.dies + 0x10000 * d)
  else if off = Reg.seqCap then BitVec.ofNat 32 (0x400020 + 0x100 * p.parts)
  else if off = Reg.whlCap then (if p = .t8 then 0x38 else 0x18)
  else if off = Reg.d2dLink 0 then BitVec.ofNat 32 (linkReset p d 0)
  else if off = Reg.d2dLink 1 then BitVec.ofNat 32 (linkReset p d 1)
  else if off = Reg.d2dLink 2 then BitVec.ofNat 32 (linkReset p d 2)
  else if off = Reg.pwrCap || off = Reg.pwrCapCeil || off = Reg.pwrCapEff then
    (if d = 0 then BitVec.ofNat 32 p.design else 0)
  else if off = Reg.genSerialLo || off = Reg.genSerialHi then Config.fusedWord 0 off
  else if off = Reg.grdId then fusedId d
  else if Reg.clkOpp 0 ≤ off && off ≤ Reg.clkOpp 13 && off % 4 = 0 then oppWord d ((off - Reg.clkOpp 0) / 4)
  else if off = Reg.grdFuseSvn then fuseWord
  else match regDesc off with
    | some r => if r.die0 && d ≠ 0 then 0 else BitVec.ofNat 32 r.reset
    | none => 0

/-- The word a register of a die holds. -/
def State.reg (s : State) (d off : Nat) : W32 := (kvFind s.regs (regKey d off)).getD (resetValue s.part d off)

/-- The word a register holds, as a number. -/
def State.regN (s : State) (d off : Nat) : Nat := (s.reg d off).toNat

/-- Bits [lo + len − 1 : lo] of a register. -/
def State.rf (s : State) (d off lo len : Nat) : Nat := fld (s.regN d off) lo len

/-- One bit of a register. -/
def State.rbit (s : State) (d off i : Nat) : Bool := bit (s.regN d off) i

/-- Sets a register: the hardware's own write. -/
def State.setReg (s : State) (d off : Nat) (v : W32) : State := { s with regs := kvPut s.regs (regKey d off) v }

/-- Sets a register from a number. -/
def State.setRegN (s : State) (d off v : Nat) : State := s.setReg d off (BitVec.ofNat 32 v)

/-- Sets a field of a register. -/
def State.setRf (s : State) (d off lo len v : Nat) : State := s.setRegN d off (setFld (s.regN d off) lo len v)

/-- Sets or clears one bit of a register. -/
def State.setRbit (s : State) (d off i : Nat) (b : Bool) : State := s.setRf d off i 1 (b2n b)

/-- Two registers, LO at `off` and HI at `off + 4`, as one number. -/
def State.regPair (s : State) (d off : Nat) : Nat := s.regN d off + 2 ^ 32 * s.regN d (off + 4)

/-- Sets a pair of registers from one number. -/
def State.setRegPair (s : State) (d off v : Nat) : State := (s.setRegN d off v).setRegN d (off + 4) (v / 2 ^ 32)

/-- An address held in a LO and a HI register: bits [47:0]. -/
def State.regAddr (s : State) (d lo : Nat) : Nat := s.regPair d lo % 2 ^ 48

/-- The fused serial number of the package. -/
def State.serial (s : State) : Nat := s.regPair 0 Reg.genSerialLo

/-- A copy of a state with one operation done on each die of the part. -/
def State.eachDie (s : State) (f : State → Nat → State) : State := (List.range s.part.dies).foldl f s

/-! ## Counters -/

/-- The largest count (R622). -/
def ctrMax : Nat := 2 ^ 64 - 1

/-- A 64-bit counter, by the offset of its LO register. -/
def State.ctr (s : State) (d off : Nat) : Nat := kvGet 0 s.ctrs (regKey d off)

/-- Sets a counter. -/
def State.setCtr (s : State) (d off v : Nat) : State := { s with ctrs := kvPut s.ctrs (regKey d off) v }

/-- Adds to a counter, which saturates. -/
def State.bump (s : State) (d off n : Nat) : State := s.setCtr d off (Nat.min ctrMax (s.ctr d off + n))

/-! ## Free values -/

/-- Takes a fresh number for a value that the spec leaves open. -/
def State.fresh (s : State) : Nat × State := (s.freeCtr, { s with freeCtr := s.freeCtr + 1 })

/-- A free value of `w` bits, and the state with the number used up. -/
def State.freeVal (s : State) (w : Nat) : Nat × State :=
  (Config.freeBits s.freeCtr w % 2 ^ w, { s with freeCtr := s.freeCtr + 1 })

/-- Adds to a counter of cycles or stalls a number that the spec leaves to time (assumption 69). -/
def State.bumpFree (s : State) (d off : Nat) : State := (s.freeVal 32).2.bump d off (s.freeVal 32).1

/-- One tick of the 25 MHz reference, which the log's TIME words count (R583, R606). -/
def State.tick (s : State) : State := { s with refCount := s.refCount + 1 }

/-- Adds to what leaves the package. -/
def State.emit (s : State) (o : Output) : State := { s with out := s.out ++ [o] }

/-- ALERT_N: driven low while REKEY or LOG_OVERFLOW of GRD_STATUS is set. Sets or clears one of the two bits (4, 5) and
drives the pin when its level changes. -/
def State.setAlert (s : State) (i : Nat) (b : Bool) : State :=
  let was := s.rbit 0 Reg.grdStatus 4 || s.rbit 0 Reg.grdStatus 5
  let s := s.setRbit 0 Reg.grdStatus i b
  let now := s.rbit 0 Reg.grdStatus 4 || s.rbit 0 Reg.grdStatus 5
  if was == now then s else s.emit (.pin "ALERT_N" 0 (!now))

/-! ## The address map (Table 01-4) -/

/-- 48 GiB: the HBM of one die. -/
def hbmSize : Nat := 0xC00000000

/-- 24 GiB: the HBM of one half-die. -/
def hbmHalf : Nat := 0x600000000

/-- Where the tile stores begin. -/
def tsBase : Nat := 0x8000000000

/-- The stride of the dies' tile stores. -/
def tsStride : Nat := 0x10000000

/-- 128 MiB: one tile store. -/
def tsSize : Nat := 0x8000000

/-- Where the register windows begin. -/
def regBase : Nat := 0xF000000000

/-- Where host memory begins. -/
def hostBase : Nat := 0x100000000000

/-- What a device address names. -/
inductive Space where
  | hbm (d off : Nat)
  | ts (d off : Nat)
  | regs (d off : Nat)
  | host (bus : Nat)
  | unmapped
deriving DecidableEq, Repr

/-- The range of Table 01-4 that holds a device address, in a part with `n` dies. -/
def spaceOf (n a : Nat) : Space :=
  if a < hbmSize * n then .hbm (a / hbmSize) (a % hbmSize)
  else if a < tsBase then .unmapped
  else if a < tsBase + tsStride * n then
    let x := a - tsBase
    if x % tsStride < tsSize then .ts (x / tsStride) (x % tsStride) else .unmapped
  else if a < regBase then .unmapped
  else if a < regBase + 0x1000000 * n then .regs ((a - regBase) / 0x1000000) ((a - regBase) % 0x1000000)
  else if a < hostBase then .unmapped
  else if a < 2 ^ 48 then .host (a - hostBase)
  else .unmapped

/-- Whether `len` bytes from an address lie wholly in HBM. -/
def inHbm (n a len : Nat) : Bool := decide (a + len ≤ hbmSize * n)

/-- Whether `len` bytes from an address lie wholly in one tile store. -/
def inTs (n a len : Nat) : Bool :=
  decide (tsBase ≤ a) && decide ((a - tsBase) / tsStride < n) && decide ((a - tsBase) % tsStride + len ≤ tsSize)

/-- Whether `len` bytes from an address lie wholly in host memory. -/
def inHost (a len : Nat) : Bool := decide (hostBase ≤ a) && decide (a + len ≤ 2 ^ 48)

/-- Whether a range touches neither an unmapped range nor the registers (R31, R7). -/
def mappedRange (n a len : Nat) : Bool := inHbm n a len || inTs n a len || inHost a len

/-- The half-dies that a range touches (R445); none for host memory. -/
def halvesOf (n a len : Nat) : List Nat :=
  if inHbm n a len then
    let lo := a / hbmHalf
    let hi := (a + len - 1) / hbmHalf
    (List.range (hi + 1 - lo)).map (lo + ·)
  else if inTs n a len then
    let d := (a - tsBase) / tsStride
    let o := (a - tsBase) % tsStride
    let lo := o / (tsSize / 2)
    let hi := (o + len - 1) / (tsSize / 2)
    (List.range (hi + 1 - lo)).map (2 * d + lo + ·)
  else []

/-- The dies whose memory a range touches. -/
def diesOf (n a len : Nat) : List Nat := (halvesOf n a len).map (· / 2)

/-! ## Memory -/

/-- What an address that no cell lists reads as where no reset has left the contents undefined (assumption 2). -/
def memDflt : Byte := 0

/-- The mark of the reset that left an address undefined and is newest there; none where no reset has. -/
def State.wipedAt (s : State) (a : Nat) : Option Nat :=
  (s.wiped.find? fun w => decide (w.1 ≤ a) && decide (a < w.1 + w.2.1)).bind fun w => w.2.2

/-- What an address that no cell lists reads as: a free value where a reset left the contents undefined (R535). -/
def State.dflt (s : State) (a : Nat) : Byte :=
  match s.wipedAt a with
  | none => memDflt
  | some t => Config.freeByte t a

/-- Whether a line that the poison list does not name is marked: open where a reset left the contents undefined (R535). -/
def State.poisonDflt (s : State) (line : Nat) : Bool :=
  match s.wipedAt (line * 64) with
  | none => false
  | some t => Config.freeBits t (line + 2) % 2 == 1

/-- Leaves the contents and the poison marks of a range undefined (R535), as a reset and a unit that keeps its own data there do. -/
def State.wipe (s : State) (a len : Nat) : State :=
  let (t, s) := s.fresh
  let out := fun (x : Nat) => x < a || a + len ≤ x
  { s with mem := s.mem.filter (fun c => out c.1), poison := s.poison.filter (fun c => out (c.1 * 64)), wiped := (a, len, some t) :: s.wiped.filter fun w => w.1 < a || a + len < w.1 + w.2.1 }

/-- One byte of memory. -/
def State.byte (s : State) (a : Nat) : Byte := kvGet (s.dflt a) s.mem a

/-- `len` bytes of memory from an address. -/
def State.bytes (s : State) (a len : Nat) : List Byte := (List.range len).map fun i => s.byte (a + i)

/-- A little-endian number of `len` bytes in memory. -/
def State.memN (s : State) (a len : Nat) : Nat := leNat (s.bytes a len)

/-- The 64-byte line of an address (R588). -/
def lineOf (a : Nat) : Nat := a / 64

/-- Whether a line carries the poison mark. -/
def State.poisoned (s : State) (line : Nat) : Bool := kvGet (s.poisonDflt line) s.poison line

/-- Whether any line that a range touches is poisoned. -/
def State.tagged (s : State) (a len : Nat) : Bool :=
  (List.range (lineOf (a + len - 1) + 1 - lineOf a)).any fun i => s.poisoned (lineOf a + i) && decide (0 < len)

/-- Marks or clears a line. -/
def State.markLine (s : State) (line : Nat) (b : Bool) : State := { s with poison := kvSet (s.poisonDflt line) s.poison line b }

/-- Cells with bytes written from an address; `df` is what an unlisted address reads as. -/
def cellsWrite (df : Nat → Byte) : List Host.Cell → Nat → List Byte → List Host.Cell
  | m, _, [] => m
  | m, a, b :: bs => cellsWrite df (kvSet (df a) m a b) (a + 1) bs

/-- The addresses rise strictly from a bound on, and no cell holds what an unlisted address reads as. -/
def cellsWfFrom (df : Nat → Byte) : Nat → List Host.Cell → Bool
  | _, [] => true
  | lo, (k, v) :: l => decide (lo ≤ k) && decide (v ≠ df k) && cellsWfFrom df (k + 1) l

/-- The canonical form of memory. -/
def State.memWf (s : State) : Bool := cellsWfFrom s.dflt 0 s.mem

/-- The whole lines inside a range. -/
def wholeLines (a len : Nat) : List Nat :=
  (List.range ((a + len) / 64 - (a + 63) / 64)).map ((a + 63) / 64 + ·)

/-- The lines that a range touches. -/
def touchedLines (a len : Nat) : List Nat :=
  if len = 0 then [] else (List.range (lineOf (a + len - 1) + 1 - lineOf a)).map (lineOf a + ·)

/-- Writes bytes to memory. A line that the write covers whole loses its poison mark (R588); with `tag`, the data carries
poison and each line written is marked (R589). -/
def State.write (s : State) (a : Nat) (bs : List Byte) (tag : Bool := false) : State :=
  let s := { s with mem := cellsWrite s.dflt s.mem a bs }
  let s := (wholeLines a bs.length).foldl (fun s l => s.markLine l false) s
  if tag then (touchedLines a bs.length).foldl (fun s l => s.markLine l true) s else s

/-- Writes a little-endian number of `len` bytes. -/
def State.writeN (s : State) (a len v : Nat) : State := s.write a (natLe len v)

/-- Leaves `len` bytes from an address undefined: each takes a free value (assumption 3). -/
def State.scramble (s : State) (a len : Nat) : State :=
  let (t, s) := s.fresh
  s.write a ((List.range len).map fun i => Config.freeByte t (a + i))

/-! ## Access counters (Table 08-7) -/

/-- Counts one pass over a range: the 64-byte accesses of each HBM stack and the 512-byte accesses of each tile store, with the
requests that a bank deferred, whose number the spec leaves to time (R233, assumption 69). -/
def State.access (s : State) (wr : Bool) (a len : Nat) : State :=
  if len = 0 then s
  else if inHbm s.part.dies a len then
    (List.range s.part.dies).foldl (fun s d =>
      let lo := Nat.max a (hbmSize * d)
      let hi := Nat.min (a + len) (hbmSize * (d + 1))
      if lo < hi then s.bump d (Reg.hbmCntLo (b2n wr)) ((hi - 1) / 64 + 1 - lo / 64) else s) s
  else if inTs s.part.dies a len then
    let d := (a - tsBase) / tsStride
    (s.bump d (Reg.tsCntLo (b2n wr)) ((a + len - 1) / 512 + 1 - a / 512)).bumpFree d (Reg.tsCntLo 2)
  else s

/-- Counts what a descriptor does to a range: how often its units come back to the same bytes the spec leaves to them, so the
numbers are free (assumption 69). -/
def State.touch (s : State) (wr : Bool) (a len : Nat) : State :=
  if len = 0 then s
  else if inHbm s.part.dies a len then
    (List.range s.part.dies).foldl (fun s d =>
      if a < hbmSize * (d + 1) && hbmSize * d < a + len then s.bumpFree d (Reg.hbmCntLo (b2n wr)) else s) s
  else if inTs s.part.dies a len then
    let d := (a - tsBase) / tsStride
    (s.bumpFree d (Reg.tsCntLo (b2n wr))).bumpFree d (Reg.tsCntLo 2)
  else s

/-! ## Partitions and units -/

/-- Whether a partition's half-dies (SEQ_PART_MASK[p], R446) include half-die u, as die `d` holds the register. -/
def State.ownsHalf (s : State) (d p u : Nat) : Bool := s.rbit d (Reg.seqPartMask p) u

/-- Whether a partition is enabled, as die `d` holds the register. -/
def State.partOn (s : State) (d p : Nat) : Bool := decide (p < s.part.parts) && s.rbit d (Reg.seqPartCfg p) 0

/-- The enabled partitions. -/
def State.partsOn (s : State) : List Nat := (List.range s.part.parts).filter (s.partOn 0)

/-- The partition that owns a half-die, if any. -/
def State.ownerOf (s : State) (d u : Nat) : Option Nat := (List.range s.part.parts).find? fun p => s.ownsHalf d p u

/-- RAS_UNIT STATE of a unit: 0 in service or absent, 1 fenced, 2 self-test, 3 permanent (Table 19-7). -/
def State.unitState (s : State) (d u : Nat) : Nat := s.rf d (Reg.rasUnit u) 0 2

/-- Whether a unit is out of service. -/
def State.unitOut (s : State) (d u : Nat) : Bool := s.unitState d u != 0

/-- Whether a die is fenced whole. -/
def State.dieOut (s : State) (d : Nat) : Bool := s.unitOut d 0x0F

/-! ## Interrupts (R486, R487) -/

/-- A dword of a function's MSI-X table. Vector control reads masked until written, as PCIe requires. -/
def State.msixWord (s : State) (fn i : Nat) : Nat := kvGet (if i % 4 = 3 then 1 else 0) s.hst.msix (2048 * fn + i)

/-- A dword of a function's configuration space. -/
def State.cfgWord (s : State) (fn off : Nat) : Nat := kvGet 0 s.hst.cfg (4096 * fn + off)

/-- Offset of the MSI-X capability in configuration space (assumption 5). -/
def cfgMsix : Nat := 0xB0

/-- Offset of the SR-IOV control and status word in configuration space (assumption 5). -/
def cfgSriov : Nat := 0x168

/-- Whether a function is there: the physical function, or a virtual function with VF Enable set. -/
def State.fnOn (s : State) (fn : Nat) : Bool :=
  fn == 0 || (decide (fn ≤ s.part.parts) && bit (s.cfgWord 0 cfgSriov) 0)

/-- A function's MSI-X Enable bit. -/
def State.msixEn (s : State) (fn : Nat) : Bool := bit (s.cfgWord fn cfgMsix) 31

/-- A function's MSI-X Function Mask bit. -/
def State.msixFnMask (s : State) (fn : Nat) : Bool := bit (s.cfgWord fn cfgMsix) 30

/-- The message of a vector. -/
def State.sendVector (s : State) (fn v : Nat) : State :=
  s.emit (.msix fn v (s.msixWord fn (4 * v) + 2 ^ 32 * s.msixWord fn (4 * v + 1)) (s.msixWord fn (4 * v + 2)))

/-- Whether a vector may send now. -/
def State.vectorOpen (s : State) (fn v : Nat) : Bool :=
  s.msixEn fn && !s.msixFnMask fn && !bit (s.msixWord fn (4 * v + 3)) 0

/-- Raises a vector of a partition: on its virtual function while that is enabled with MSI-X on, else on the physical
function. A masked vector sets its pending bit instead, and merges with one pending (R486, R487). -/
def State.interrupt (s : State) (p v : Nat) : State :=
  let fn := if s.fnOn (p + 1) && s.msixEn (p + 1) then p + 1 else 0
  if s.vectorOpen fn v then s.sendVector fn v
  else { s with hst.pba := kvSet false s.hst.pba (512 * fn + v) true }

/-! ## Event queues (R436, R437) -/

/-- A request to host memory: charged to a partition it carries the Requester ID of the partition's virtual function, while that is
there, uncharged that of the physical function; a write of data is relaxed in order under HST_CTRL.RO_EN (R458, R488). -/
def State.hostReq (s : State) (p : Option Nat) (wr data : Bool) (a len : Nat) : State :=
  let fn := match p with | some p => if s.fnOn (p + 1) then p + 1 else 0 | none => 0
  if inHost a len && len != 0 then s.emit (.hostReq fn wr a len (wr && data && s.rbit 0 Reg.hstCtrl 0)) else s

/-- Counts one pass of a charged unit over a range, and sends the request that it makes where the range is the host's. -/
def State.reach (s : State) (p : Nat) (wr : Bool) (a len : Nat) : State := (s.access wr a len).hostReq (some p) wr true a len

/-- Size in records of a partition's event queue. -/
def State.evqSize (s : State) (p : Nat) : Nat := 2 ^ s.rf 0 (Reg.evqCfg p) 1 5

/-- Records of a partition's event queue written and not yet taken. -/
def State.evqUsed (s : State) (p : Nat) : Nat := modSub 32 (s.regN 0 (Reg.evqTail p)) (s.regN 0 (Reg.evqHead p))

/-- Whether the queue is enabled and has room. -/
def State.evqRoom (s : State) (p : Nat) : Bool := s.rbit 0 (Reg.evqCfg p) 0 && decide (s.evqUsed p < s.evqSize p)

/-- Writes one event record at the tail, byte 31 last, and raises the queue's interrupt when it is armed. -/
def State.evqWrite (s : State) (p code d src : Nat) (payload : List Byte) : State :=
  let v := s.regN 0 (Reg.evqTail p)
  let size := s.evqSize p
  let a := s.regAddr 0 (Reg.evqBaseLo p) + 32 * (v % size)
  let s := s.write a (natLe 1 code ++ natLe 1 d ++ natLe 2 src ++ padTo 27 payload)
  let s := ((s.write (a + 31) (natLe 1 (1 - v / size % 2))).access true a 32).hostReq none true false a 32
  let s := s.setRegN 0 (Reg.evqTail p) (v + 1)
  let s := s.bump d (Reg.ringCntLo 5) 1
  if p ∈ s.seq.evqArm then ({ s with seq.evqArm := without p s.seq.evqArm }).interrupt p (256 + p) else s

/-- Posts an event to a partition's queue; one that finds no room is lost and counted (R437). -/
def State.event (s : State) (p code d src : Nat) (payload : List Byte) : State :=
  if s.evqRoom p then s.evqWrite p code d src payload
  else
    let s := s.bump d (Reg.ringCntLo 6) 1
    { s with seq.evLost := kvSet 0 s.seq.evLost p (kvGet 0 s.seq.evLost p + 1) }

/-- Posts an event to every enabled partition. -/
def State.eventAll (s : State) (code d src : Nat) (payload : List Byte) : State :=
  s.partsOn.foldl (fun s p => s.event p code d src payload) s

/-- Event SOURCE values of R436. -/
def srcCnv : Nat := 0x0116
/-- SOURCE of the layer commit block. -/
def srcCmt : Nat := 0x0113
/-- SOURCE of the ring block. -/
def srcRing : Nat := 0x0111
/-- SOURCE of the RAS block. -/
def srcRas : Nat := 0x0117
/-- SOURCE of the power block. -/
def srcPwr : Nat := 0x0103

/-- Whether a COUNTER_SATURATED event of a die still lies in a partition's queue, not taken by its reader. -/
def State.satPending (s : State) (p d : Nat) : Bool :=
  s.ras.merged.any fun x => x.1 == p && x.2.1 == d && decide (modSub 32 x.2.2 (s.regN 0 (Reg.evqHead p)) < s.evqUsed p)

/-- Posts COUNTER_SATURATED to one partition; it merges with one of the same die that is still in the queue (R288, R605). -/
def State.satEvent (s : State) (p d off i : Nat) : State :=
  if s.satPending p d then s
  else
    let rest := s.ras.merged.filter fun x => !(x.1 == p && x.2.1 == d)
    let mark := if s.evqRoom p then [(p, d, s.regN 0 (Reg.evqTail p))] else []
    ({ s with ras := { s.ras with merged := rest ++ mark } }).event p 0x14 d srcRas (natLe 3 off ++ natLe 1 i)

/-- Posts COUNTER_SATURATED for a counter to every enabled partition (Table 19-5). -/
def State.saturated (s : State) (d off i : Nat) : State := s.partsOn.foldl (fun s p => s.satEvent p d off i) s

/-- Adds to an error counter; when it saturates it posts COUNTER_SATURATED once to every enabled partition (R605, R608,
R628). `i` is the counter's index. -/
def State.bumpErr (s : State) (d off i n : Nat) : State :=
  let t := s.bump d off n
  if t.ctr d off = ctrMax && s.ctr d off ≠ ctrMax then t.saturated d off i else t

/-- The resource of a DEGRADED event: bytes 4, 6 and 7 (Table 19-5). It sets RAS_STATUS.DEGRADED, and a repeated resource merges
(R604, R605). -/
def State.degrade (s : State) (d res b6 b7 : Nat) : State :=
  let s := s.setRbit d Reg.rasStatus 0 true
  let key := [d, res, b6, b7]
  if s.ras.degraded.contains key then s
  else
    let s := { s with ras := { s.ras with degraded := s.ras.degraded ++ [key] } }
    let pay := natLe 2 res ++ natLe 1 b6 ++ natLe 1 b7
    if res = 4 then s.event b7 0x13 d srcRas pay else s.eventAll 0x13 d srcRas pay

/-! ## Rings (R407, R408) -/

/-- The die of a package ring. -/
def ringDie (r : Nat) : Nat := r / 32

/-- A package ring's number on its die. -/
def ringNo (r : Nat) : Nat := r % 32

/-- A register of a package ring, as a number. -/
def State.ringReg (s : State) (r : Nat) (f : Nat → Nat) : Nat := s.regN (ringDie r) (f (ringNo r))

/-- Sets a register of a package ring. -/
def State.setRing (s : State) (r : Nat) (f : Nat → Nat) (v : Nat) : State := s.setRegN (ringDie r) (f (ringNo r)) v

/-- RING_CFG.ENABLE. -/
def State.ringOn (s : State) (r : Nat) : Bool := bit (s.ringReg r Reg.ringCfg) 0

/-- RING_CFG.MODE: a receive ring. -/
def State.ringRx (s : State) (r : Nat) : Bool := bit (s.ringReg r Reg.ringCfg) 1

/-- RING_CFG.PARTITION. -/
def State.ringPart (s : State) (r : Nat) : Nat := fld (s.ringReg r Reg.ringCfg) 2 4

/-- RING_CFG.CONTEXT. -/
def State.ringCtx (s : State) (r : Nat) : Nat := fld (s.ringReg r Reg.ringCfg) 6 4

/-- RING_CFG.PRIO. -/
def State.ringPrio (s : State) (r : Nat) : Nat := fld (s.ringReg r Reg.ringCfg) 10 2

/-- Slots of a ring. -/
def State.ringSize (s : State) (r : Nat) : Nat := 2 ^ fld (s.ringReg r Reg.ringCfg) 12 5

/-- Records of a ring's completion queue. -/
def State.cqSize (s : State) (r : Nat) : Nat := 2 ^ fld (s.ringReg r Reg.ringCfg) 17 5

/-- PI of a ring. -/
def State.ringPi (s : State) (r : Nat) : Nat := s.ringReg r Reg.ringPi

/-- CI of a ring. -/
def State.ringCi (s : State) (r : Nat) : Nat := s.ringReg r Reg.ringCi

/-- CQ_TAIL of a ring. -/
def State.cqTail (s : State) (r : Nat) : Nat := s.ringReg r Reg.cqTail

/-- CQ_HEAD of a ring. -/
def State.cqHead (s : State) (r : Nat) : Nat := s.ringReg r Reg.cqHead

/-- A bit of RING_STATUS as stored: 1 PAUSED, 2 ERROR, 3 BAD_DOORBELL, 5 GROUP_WAIT. -/
def State.ringStat (s : State) (r i : Nat) : Bool := bit (s.ringReg r Reg.ringStatus) i

/-- Sets a bit of RING_STATUS. -/
def State.setRingStat (s : State) (r i : Nat) (b : Bool) : State :=
  s.setRbit (ringDie r) (Reg.ringStatus (ringNo r)) i b

/-- Records that a ring's accepted descriptors, its unissued prefetch entries aside, still owe: each accepted work item
owes one (R410). -/
def State.owed (s : State) (r : Nat) : Nat := (s.seq.works.filter fun w => w.ring == r).length

/-! ## Completion records (R430) -/

/-- The bytes of a completion record before OWN (Table 13-4). -/
def Rec.bytes (c : Rec) : List Byte :=
  natLe 4 c.tag ++ natLe 4 c.idx ++ natLe 1 c.kind ++ natLe 1 c.status ++ natLe 1 c.flags ++
  natLe 1 (b2n c.poison + 2 * b2n c.checksum + 4 * b2n c.retained + 8 * b2n c.degraded + 16 * b2n c.receive) ++
  natLe 4 c.detail0 ++ natLe 8 c.detail1 ++ natLe 7 0

/-- Writes a completion record at the tail of a ring's queue, OWN last, moves the tail, counts it, ORs its flags into the
partition's sticky flags (R72), and raises the ring's interrupt when asked or armed (R421). DESIGN CHOICE (log 20): the die on
which a descriptor completes is that of its ring, also for an UPDATE with another HOME_DIE and for a batch on a slot's die. -/
def State.writeRec (s : State) (r : Nat) (c : Rec) (irq : Bool) : State :=
  let v := s.cqTail r
  let size := s.cqSize r
  let a := s.regAddr (ringDie r) (Reg.cqBaseLo (ringNo r)) + 32 * (v % size)
  let s := s.write a c.bytes
  let s := ((s.write (a + 31) (natLe 1 (1 - v / size % 2))).access true a 32).hostReq none true false a 32
  let s := s.setRing r Reg.cqTail (v + 1)
  let s := s.bump (ringDie r) (Reg.ringCntLo 1) 1
  let p := s.ringPart r
  let s := s.setRegN (ringDie r) (Reg.cnvFlags p) (Nat.lor (s.regN (ringDie r) (Reg.cnvFlags p)) c.flags)
  if irq || r ∈ s.seq.cqArm then ({ s with seq.cqArm := without r s.seq.cqArm }).interrupt p r else s

/-! ## Works -/

/-- An empty record. -/
def Rec.empty : Rec := ⟨0, 0, 0, 0, 0, false, false, false, false, false, 0, 0⟩

/-- The accepted descriptor of a number. -/
def State.work (s : State) (id : Nat) : Option Work := s.seq.works.find? fun w => w.id == id

/-- Replaces an accepted descriptor. -/
def State.setWork (s : State) (w : Work) : State :=
  { s with seq.works := mapIf (fun x => x.id == w.id) (fun _ => w) s.seq.works }

/-- Changes an accepted descriptor. -/
def State.modWork (s : State) (id : Nat) (f : Work → Work) : State :=
  { s with seq.works := mapIf (fun x => x.id == id) f s.seq.works }

/-- Takes an accepted descriptor out. -/
def State.dropWork (s : State) (id : Nat) : State := { s with seq.works := s.seq.works.filter fun w => w.id != id }

/-- KIND of a descriptor. -/
def Work.kind (w : Work) : Nat := leAt w.bytes 0 1

/-- A field of a descriptor: `len` bytes from byte `off`. -/
def Work.f (w : Work) (off len : Nat) : Nat := leAt w.bytes off len

/-- A bit of a descriptor byte. -/
def Work.bit (w : Work) (off i : Nat) : Bool := Machine.bit (leAt w.bytes off 1) i

/-- An address field: bits [47:0] of six bytes. -/
def Work.addr (w : Work) (off : Nat) : Nat := w.f off 6

/-- The die whose units the descriptor runs on. -/
def Work.die (w : Work) : Nat := w.on

/-- Whether the work is a descriptor taken from a ring slot, rather than a prefetch entry or a batch's descriptor. -/
def Work.inRing (w : Work) : Bool := w.entry.isNone && w.batch.isNone

/-- CTL.IRQ. -/
def Work.irq (w : Work) : Bool := w.bit 1 0
/-- CTL.BARRIER (R412). -/
def Work.barrier (w : Work) : Bool := w.bit 1 1
/-- CTL.GRP. -/
def Work.grp (w : Work) : Bool := w.bit 1 2
/-- CTL.GORDER (R427). -/
def Work.gorder (w : Work) : Bool := w.bit 1 3
/-- GROUP slot. -/
def Work.group (w : Work) : Nat := fld (w.f 3 1) 0 6
/-- PHASE tag. -/
def Work.phase (w : Work) : Nat := fld (w.f 2 1) 0 6

/-- Ends the work of a descriptor: the record that DESCRIPTOR_COMPLETE writes is `c`. -/
def State.endWork (s : State) (id : Nat) (c : Rec → Rec) : State :=
  s.modWork id fun w => { w with started := true, ended := true, res := c w.res }

/-- Ends the work of a descriptor with a status. -/
def State.endStatus (s : State) (id status : Nat) : State := s.endWork id fun c => { c with status := status }

/-- The lowest of several status codes; 0, success, when there is none (R431). -/
def lowest : List Nat → Nat
  | [] => 0
  | c :: cs => let r := lowest cs; if c = 0 then r else if r = 0 then c else Nat.min c r

end Sys2Proof.Machine
end

