-- ==== Sys2Proof/Machine/Contend.lean ====
section
/-! DEFINITION. Two orders in one cycle: the precedence table (Table 18-8, R582) and the lost-write log (R583). -/

namespace Sys2Proof.Machine

/-- LOSER and WINNER codes of Table 18-10. -/
def masterCode : Master → Nat
  | .guard => 0
  | .pf => 1
  | .vf _ => 2
  | .remote .. => 3
  | .sequencer => 4
  | .hardware => 5
  | .jtag => 6

/-- FUNCTION of Table 18-10: the virtual function's number, 0 for other masters. -/
def masterFn : Master → Nat
  | .vf n => n
  | _ => 0

/-- Whether a master is remote. -/
def isRemote : Master → Bool
  | .remote .. => true
  | _ => false

/-- Whether a master is a virtual function. -/
def isVf : Master → Bool
  | .vf _ => true
  | _ => false

/-- Row 7 of Table 18-8 as one number: the die an order comes in on, then its port or function, then its connection. -/
def masterRank : Master → Nat
  | .vf n => 2 ^ 24 * n
  | .remote die conn => 2 ^ 40 * die + 2 ^ 24 * die + conn
  | _ => 0

/-- The first row of Table 18-8 that separates two orders from masters alone, for a doorbell or a plain field: whether
the first one wins, and the reason code (rows 2, 5, 6 and 7). -/
def precede (a b : Master) : Bool × Nat :=
  if a = .guard then (true, 2)
  else if b = .guard then (false, 2)
  else if a = .pf && isVf b then (true, 5)
  else if isVf a && b = .pf then (false, 5)
  else if !isRemote a && isRemote b then (true, 6)
  else if isRemote a && !isRemote b then (false, 6)
  else (decide (masterRank a ≤ masterRank b), 7)

/-- Counts a discarded write and enters it in the lost-write log of its target's die (R583, Table 18-10). -/
def State.lostWrite (s : State) (d target reason value : Nat) (loser winner : Master) : State :=
  let i := s.rf d Reg.grdLostHead 0 5
  let s := s.bump d Reg.grdLostCntLo 1
  let s := s.setRegN d (Reg.grdLostLog i 0) s.refCount
  let s := s.setRegN d (Reg.grdLostLog i 1) (target % 2 ^ 24 + 2 ^ 24 * reason)
  let s := s.setRegN d (Reg.grdLostLog i 2) value
  let s := s.setRegN d (Reg.grdLostLog i 3)
    (masterCode loser + 16 * (masterFn loser % 32) + 4096 * masterCode winner)
  s.setRegN d Reg.grdLostHead ((i + 1) % 32)

end Sys2Proof.Machine
end

