-- ==== Sys2Proof/Machine/Rings.lean ====
section
/-! DEFINITION. Descriptor rings, doorbells and interrupts (chapter 13): the three doorbells, fetch and acceptance, the
conditions under which a descriptor starts, and the unmasking of a vector. -/

namespace Sys2Proof.Machine

/-! ## The running context of a partition (R452 to R454) -/

/-- Whether a context of a partition is runnable on a die (R452). -/
def State.runnable (s : State) (d p c : Nat) : Bool :=
  ((List.range 32).any fun i =>
    let r := 32 * d + i
    s.ringOn r && s.ringPart r == p && s.ringCtx r == c && s.ringCi r != s.ringPi r) ||
  s.seq.works.any fun w => w.on == d && w.part == p && w.ctx == c && !w.started && w.entry.isNone

/-- SEQ_PART_STATUS.CONTEXT. -/
def State.curCtx (s : State) (d p : Nat) : Nat := s.rf d (Reg.seqPartStatus p) 0 4

/-- Sets SEQ_PART_STATUS. -/
def State.setPartStatus (s : State) (d p ctx : Nat) (switching running : Bool) : State :=
  s.setRegN d (Reg.seqPartStatus p) (ctx % 16 + 16 * b2n switching + 32 * b2n running)

/-- The next other runnable context in increasing number, wrapping, after the one running (R453). -/
def State.nextCtx (s : State) (d p : Nat) : Option Nat :=
  let c := s.curCtx d p
  minBy (fun x => (x + 15 - c) % 16) ((List.range 16).filter fun x => x != c && s.runnable d p x)

/-- Begins a switch: the outgoing context stops accepting and starting (R454). -/
def State.beginSwitch (s : State) (d p c : Nat) : State :=
  let s := s.setPartStatus d p (s.curCtx d p) true true
  { s with seq.switchTo := kvPut s.seq.switchTo (16 * d + p) c }

/-- What a die does when the running context of a partition is not runnable: it begins a switch to the next runnable one, and
with no context running that one runs at once (R453, R456). -/
def State.leaveIdle (s : State) (d p : Nat) : State :=
  let v := s.regN d (Reg.seqPartStatus p)
  if !s.partOn d p || bit v 4 || s.runnable d p (fld v 0 4) && bit v 5 then s
  else if bit v 5 then
    match s.nextCtx d p with
    | some c => s.beginSwitch d p c
    | none => s
  else if s.runnable d p (fld v 0 4) then s.setPartStatus d p (fld v 0 4) false true
  else
    match s.nextCtx d p with
    | some c => s.setPartStatus d p c false true
    | none => s

/-! ## Doorbells (R417 to R419, R474, R483, R484) -/

/-- Whether a package ring is the serving ring of an enabled stream (R474). -/
def State.isServing (s : State) (r : Nat) : Bool :=
  (List.range s.part.parts).any fun p =>
    let c := s.regN 0 (Reg.seqSrvCtrl p)
    bit c 0 && r == 32 * fld c 1 3 + fld c 4 5

/-- The DOORBELL event of a ring (Table 13-7): payload from byte 4. -/
def State.doorbellEvent (s : State) (r value cause : Nat) : State :=
  s.event (s.ringPart r) 0x04 (ringDie r) r (natLe 1 r ++ natLe 3 0 ++ natLe 8 value ++ natLe 1 cause)

/-- A rejected doorbell: counted, BAD_DOORBELL set, event posted (R418). -/
def State.rejectBell (s : State) (r value cause : Nat) : State :=
  let s := s.bump (ringDie r) (Reg.ringCntLo 3) 1
  let s := s.setRingStat r 3 true
  s.doorbellEvent r value cause

/-- Counts a taken doorbell. -/
def State.takenBell (s : State) (r : Nat) : State := s.bump (ringDie r) (Reg.ringCntLo 2) 1

/-- The producer doorbell at offset 0x000, with its tests (R418, R474). -/
def State.bellPi (s : State) (r value : Nat) (m : Master) : State :=
  let v := value % 2 ^ 32
  if s.isServing r && m ≠ .sequencer then
    (s.bump (ringDie r) (Reg.ringCntLo 3) 1).doorbellEvent r value 4
  else if value / 2 ^ 32 ≠ 0 then s.rejectBell r value 1
  else if !s.ringOn r then s.rejectBell r value 2
  else if modSub 32 v (s.ringPi r) ≤ s.ringSize r - modSub 32 (s.ringPi r) (s.ringCi r) then
    ((s.setRing r Reg.ringPi v).takenBell r).leaveIdle (ringDie r) (s.ringPart r)
  else s.rejectBell r value 0

/-- ARM asks for an interrupt at the next completion (Table 13-1): arming only records the wish. -/
def armList (l : List Nat) (x : Nat) (arm : Bool) : List Nat := if arm then addNew x l else l

/-- The completion-queue doorbell at offset 0x008 (R418). -/
def State.bellCq (s : State) (r value : Nat) : State :=
  let v := value % 2 ^ 32
  if value / 2 ^ 33 ≠ 0 then s.rejectBell r value 1
  else if !s.ringOn r then s.rejectBell r value 2
  else if modSub 32 v (s.cqHead r) ≤ modSub 32 (s.cqTail r) (s.cqHead r) then
    let s := (s.setRing r Reg.cqHead v).takenBell r
    { s with seq.cqArm := armList s.seq.cqArm r (bit value 32) }
  else s.rejectBell r value 0

/-- Posts the OVERFLOW event that a queue owes, once a head doorbell has made room (R437). -/
def State.postOverflow (s : State) (p d : Nat) : State :=
  let n := kvGet 0 s.seq.evLost p
  if n = 0 || !s.evqRoom p then s
  else ({ s with seq.evLost := kvErase s.seq.evLost p }).evqWrite p 0x06 d srcRing (natLe 4 n)

/-- The event-queue doorbell at offset 0x010 of a ring: the head of the queue of the ring's partition (R418). -/
def State.bellEvq (s : State) (r value : Nat) : State :=
  let v := value % 2 ^ 32
  let p := s.ringPart r
  let head := s.regN 0 (Reg.evqHead p)
  if value / 2 ^ 33 ≠ 0 then s.rejectBell r value 1
  else if !s.ringOn r then s.rejectBell r value 2
  else if modSub 32 v head ≤ s.evqUsed p then
    let s := (s.setRegN 0 (Reg.evqHead p) v).takenBell r
    let s := { s with seq.evqArm := armList s.seq.evqArm p (bit value 32) }
    s.postOverflow p (ringDie r)
  else s.rejectBell r value 0

/-- Whether a doorbell write is turned away before it reaches the ring: the ring does not exist on the part (R484), or a
virtual function does not own it (R483). -/
def State.bellBarred (s : State) (r : Nat) (m : Master) : Bool :=
  decide (s.part.rings ≤ r) ||
    match m with
    | .vf n => s.ringPart r + 1 != n
    | _ => false

/-- A doorbell write turned away before it reaches the ring: discarded and counted in BAR_REFUSED. -/
def State.barRefuse (s : State) : State := s.bump 0 (Reg.hstCntLo 6) 1

/-- One doorbell write that met no other. `act` is the location's effect. -/
def State.bell1 (s : State) (r : Nat) (b : Bell) (act : State → Nat → Master → State) : State :=
  if s.bellBarred r b.master then s.barRefuse else act s b.value.toNat b.master

/-- The doorbell that lost a contention: counted, logged, and reported with cause 0x3 (R419, R583). `loc` is the offset in
the page. -/
def State.bellLost (s : State) (r loc reason : Nat) (loser : Bell) (winner : Master) : State :=
  let s := s.bump (ringDie r) (Reg.ringCntLo 4) 1
  let s := s.lostWrite (ringDie r) (0xFF0000 + 0x100 * ringNo r + loc) reason (loser.value.toNat % 2 ^ 32)
    loser.master winner
  s.doorbellEvent r loser.value.toNat 3

/-- A doorbell write, with the one that arrived in the same cycle if any (R419). Doorbells that leave the same result do
not contradict: both are taken. -/
def State.bell (s : State) (r loc : Nat) (b : Bell) (rival : Option Bell) (act : State → Nat → Master → State) : State :=
  if s.inReset (ringDie r) then s
  else match rival with
  | none => s.bell1 r b act
  | some c =>
    if s.bellBarred r b.master || s.bellBarred r c.master || b.value = c.value then
      (s.bell1 r b act).bell1 r c act
    else
      let (first, reason) := precede b.master c.master
      if first then (s.bellLost r loc reason c b.master).bell1 r b act
      else (s.bellLost r loc reason b c.master).bell1 r c act

/-- DOORBELL_PI (R418). -/
def execDoorbellPi (ring : Nat) (b : Bell) (rival : Option Bell) (s : State) : Res :=
  live s (s.bell ring 0x000 b rival fun s v m => s.bellPi ring v m)

/-- DOORBELL_CQ_HEAD (R418). -/
def execDoorbellCqHead (ring : Nat) (b : Bell) (rival : Option Bell) (s : State) : Res :=
  live s (s.bell ring 0x008 b rival fun s v _ => s.bellCq ring v)

/-- DOORBELL_EVQ_HEAD (R418). -/
def execDoorbellEvqHead (ring : Nat) (b : Bell) (rival : Option Bell) (s : State) : Res :=
  live s (s.bell ring 0x010 b rival fun s v _ => s.bellEvq ring v)

/-! ## Fetch (R415, R416, R420) -/

/-- The slots of a ring already fetched and not yet accepted. -/
def State.ringFetched (s : State) (r : Nat) : List Slot := s.seq.fetched.filter fun x => x.ring == r

/-- The free-running index of the next slot to fetch. -/
def State.nextFetch (s : State) (r : Nat) : Nat := (s.ringCi r + (s.ringFetched r).length) % 2 ^ 32

/-- The address of a slot. -/
def State.slotAddr (s : State) (r idx : Nat) : Nat :=
  s.regAddr (ringDie r) (Reg.ringBaseLo (ringNo r)) + 64 * (idx % s.ringSize r)

/-- HST_STATUS.LINK_UP. -/
def State.linkUp (s : State) : Bool := s.rbit 0 Reg.hstStatus 0

/-- Whether a slot can be read: mapped, and over a host link that is up when it lies in host memory (R416). -/
def State.slotReadable (s : State) (a : Nat) : Bool :=
  inHbm s.part.dies a 64 || (inHost a 64 && s.linkUp)

/-- Whether the package serves (R19, R654): die 0 not fenced and no PKG_FAILED applied to itself. -/
def State.serves (s : State) : Bool := !s.dieOut 0 && !s.rbit 0 Reg.rasStatus 3

/-- DESCRIPTOR_FETCH: a read of up to 16 slots, as many as lie before PI. A slot that cannot be read puts the ring in error
and posts RING_ERROR; slots read before it are delivered. -/
def State.fetchSlots (r : Nat) : Nat → State → State
  | 0, s => s
  | n + 1, s =>
    let idx := s.nextFetch r
    if idx = s.ringPi r || s.ringStat r 2 then s
    else
      let a := s.slotAddr r idx
      if s.slotReadable a then
        let x : Slot := ⟨r, idx, s.bytes a 64, s.tagged a 64⟩
        State.fetchSlots r n (({ s with seq.fetched := s.seq.fetched ++ [x] } : State).access false a 64 |>.hostReq none false false a 64)
      else
        (s.setRingStat r 2 true).event (s.ringPart r) 0x05 (ringDie r) r (natLe 1 r ++ natLe 3 0 ++ natLe 6 a)

/-- DESCRIPTOR_FETCH (R420). -/
def execDescriptorFetch (ring n : Nat) (s : State) : Res :=
  live s (if ring < s.part.rings && s.ringOn ring then State.fetchSlots ring (Nat.min n 16) s else s)

/-! ## Acceptance (R409 to R411, R415, R422, R426, R428, R433, R451) -/

/-- Whether a partition owns a half-die of a die. -/
def State.ownsOn (s : State) (d p : Nat) : Bool := s.ownsHalf d p (2 * d) || s.ownsHalf d p (2 * d + 1)

/-- Whether context `c` of a partition runs on a die and no switch is waiting (R452, R454). -/
def State.ctxRuns (s : State) (d p c : Nat) : Bool :=
  let v := s.regN d (Reg.seqPartStatus p)
  bit v 5 && !bit v 4 && fld v 0 4 == c

/-- NOTIFY completions that connections still owe a receive ring, by the RECV_RING that each context names (R434). -/
def State.notifyOwed (s : State) (r : Nat) : Nat :=
  sumNat (s.xt.conns.map fun c =>
    if s.xt.ctxs.any fun x => x.c == c.c && leAt x.bytes 35 1 == r then (c.ins.filter fun m => m.notify).length else 0)

/-- Unissued prefetch entries and held receive buffers count among the works; entries not yet issued are counted from the
prefetch lists, and NOTIFY completions from the connections (R410, R434). -/
def State.cqOwed (s : State) (r : Nat) : Nat :=
  s.owed r + s.notifyOwed r + sumNat ((s.lists.filter fun l => l.ring == r).map fun l => l.count - l.next) +
    sumNat ((s.seq.works.filter fun w => w.ring == r && w.kind == 5 && w.inRing && !w.started).map fun w => w.f 14 2)

/-- Room for one more completion under R410. -/
def State.cqRoom (s : State) (r : Nat) : Bool :=
  decide (s.cqOwed r + modSub 32 (s.cqTail r) (s.cqHead r) < s.cqSize r)

/-- Descriptors in a die's fetch queue: accepted and not started. -/
def State.fqCount (s : State) (d : Nat) : Nat :=
  (s.seq.works.filter fun w => w.die == d && !w.started && w.inRing).length

/-- The kinds of Table 13-3. -/
def kindKnown (k : Nat) : Bool :=
  decide (k ≤ 0x05) || (decide (0x10 ≤ k) && decide (k ≤ 0x15)) || k == 0x20 || (decide (0x28 ≤ k) && decide (k ≤ 0x2E)) ||
    k == 0x30 || k == 0x31 || (decide (0x38 ≤ k) && decide (k ≤ 0x3D))

/-- Whether a descriptor may carry GRP = 1 as an action (R426). -/
def isAction (bytes : List Byte) : Bool :=
  let k := leAt bytes 0 1
  k == 0x01 || k == 0x11 || k == 0x10 || k == 0x14 || k == 0x39 || (k == 0x30 && leAt bytes 8 1 % 8 == 0)

/-- The GRP bit against the kind (R426): whether the combination is allowed. -/
def grpOk (bytes : List Byte) : Bool :=
  let k := leAt bytes 0 1
  if bit (leAt bytes 1 1) 2 then isAction bytes || k == 0x3A else k != 0x3A && k != 0x39

/-- Reserved bits of the header (Table 13-2). -/
def headerOk (bytes : List Byte) : Bool :=
  leAt bytes 1 1 / 16 == 0 && leAt bytes 2 1 / 64 == 0 && leAt bytes 3 1 / 64 == 0

/-- The commit group in a slot, if the slot is in use. -/
def State.groupAt (s : State) (slot : Nat) : Option Group := s.groups.find? fun g => g.slot == slot

/-- Whether the descriptor names a slot whose group is closed but not complete (R428). -/
def State.groupWaits (s : State) (bytes : List Byte) : Bool :=
  bit (leAt bytes 1 1) 2 && grpOk bytes &&
    match s.groupAt (leAt bytes 3 1 % 64) with
    | some g => g.closed
    | none => false

/-- Whether a ring meets the conditions of R410 but for the fetched slot. -/
def State.ringOpen (s : State) (r : Nat) : Bool :=
  let d := ringDie r
  let p := s.ringPart r
  s.serves && !s.dieOut d && s.ringOn r && !s.ringStat r 1 && !s.ringStat r 2 && decide (s.ringCi r ≠ s.ringPi r) &&
    s.cqRoom r && s.partOn d p && (!s.ownsOn d p || s.ctxRuns d p (s.ringCtx r)) && decide (s.fqCount d < 1024)

/-- The slot at a ring's CI, when fetched. -/
def State.headSlot (s : State) (r : Nat) : Option Slot :=
  s.seq.fetched.find? fun x => x.ring == r && x.idx == s.ringCi r

/-- Whether a ring can accept now. -/
def State.canAccept (s : State) (r : Nat) : Bool :=
  s.ringOpen r &&
    match s.headSlot r with
    | some x => !s.groupWaits x.bytes
    | none => false

/-- The ring that the sequencer of a die takes from: the highest PRIO, and among equals in rotation after the ring taken
last (R411). -/
def State.pickRing (s : State) (d : Nat) : Option Nat :=
  let rs := (List.range 32).filter fun i => s.canAccept (32 * d + i)
  let top := maxNat (rs.map fun i => s.ringPrio (32 * d + i))
  let last := kvGet 31 s.seq.lastRing d
  (minBy (fun i => (i + 31 - last) % 32) (rs.filter fun i => s.ringPrio (32 * d + i) == top)).map (32 * d + ·)

/-- Sets or clears GROUP_WAIT of every ring of a die from the slot at its head (R428). -/
def State.markGroupWait (s : State) (d : Nat) : State :=
  (List.range 32).foldl (fun s i =>
    let r := 32 * d + i
    let w := s.ringOpen r && match s.headSlot r with | some x => s.groupWaits x.bytes | none => false
    if w = s.ringStat r 5 then s else s.setRingStat r 5 w) s

/-- What acceptance finds wrong with a descriptor before the checks of its kind: the code it carries to its start. -/
def State.acceptCode (s : State) (r : Nat) (bytes : List Byte) : Nat :=
  let p := s.ringPart r
  let other := match s.groupAt (leAt bytes 3 1 % 64) with | some g => g.part != p | none => false
  lowest [if headerOk bytes && grpOk bytes then 0 else 1,
    if bit (leAt bytes 1 1) 2 && grpOk bytes && other then 4 else 0,
    if s.ownsOn (ringDie r) p then 0 else 4]

/-- Actions that a descriptor of a group stands for: each ownership entry of an UPDATE is one (R375). -/
def actionCount (bytes : List Byte) : Nat := if leAt bytes 0 1 = 0x14 then leAt bytes 8 4 / 2 ^ 20 else 1

/-- Opens, joins or closes the group that a descriptor names (R428). -/
def State.joinGroup (s : State) (p : Nat) (bytes : List Byte) : State :=
  if bit (leAt bytes 1 1) 2 && grpOk bytes then
    let slot := leAt bytes 3 1 % 64
    let close := leAt bytes 0 1 == 0x3A
    let n := if close then 0 else actionCount bytes
    match s.groupAt slot with
    | none => { s with groups := s.groups ++ [⟨slot, p, close, n, false, [], [], none, 0xF, 0, 0, 0⟩] }
    | some g =>
      if g.part = p then
        let upd := fun (x : Group) => { x with closed := close, actions := x.actions + n }
        { s with groups := mapIf (fun x => x.slot == slot) upd s.groups }
      else s
  else s

/-- Accepts the slot at the head of a ring: CI moves past it, and its descriptor joins the fetch queue. A poisoned
descriptor completes with the poison status (R415), a reserved kind or the wrong kind for the ring's mode with the
parameter-error status (R422, R433). -/
def State.acceptSlot (s : State) (x : Slot) : State :=
  let r := x.ring
  let p := s.ringPart r
  let k := leAt x.bytes 0 1
  let bad := !kindKnown k || (s.ringRx r != (k == 0x2E))
  let st := if x.poison then 8 else if bad then 1 else 0
  let res : Rec := { Rec.empty with tag := leAt x.bytes 4 4, idx := x.idx, kind := k, status := st, poison := x.poison }
  let w : Work := ⟨s.seq.nextId, r, ringDie r, x.idx, x.bytes, p, s.ringCtx r, none, none, s.acceptCode r x.bytes, x.poison || bad, none,
    0, 0, false, false, x.poison || bad, res, [], false, [], false⟩
  let rest := s.seq.fetched.filter fun y => !(y.ring == r && y.idx == x.idx)
  let last := kvPut s.seq.lastRing (ringDie r) (ringNo r)
  let s := { s with seq.works := s.seq.works ++ [w], seq.nextId := s.seq.nextId + 1, seq.fetched := rest, seq.lastRing := last }
  let s := s.setRing r Reg.ringCi (s.ringCi r + 1)
  let s := s.bump (ringDie r) (Reg.ringCntLo 0) 1
  if x.poison || bad then s else s.joinGroup p x.bytes

/-- DESCRIPTOR_ACCEPT (R410, R411). -/
def State.acceptNext (s : State) (d : Nat) : State :=
  match s.pickRing d with
  | none => s.markGroupWait d
  | some r =>
    match s.headSlot r with
    | none => s
    | some x => (s.acceptSlot x).markGroupWait d

/-! ## Starting a descriptor (R409, R411, R412, R427, R431, R452) -/

/-- The unit class for which descriptors of a kind wait (R411). -/
def unitClass (k : Nat) : Nat :=
  if k = 0x00 || k = 0x03 || k = 0x04 then 11 else if k = 0x05 then 12 else if k = 0x10 then 1 else if k = 0x11 || k = 0x12 then 2 else if k = 0x13 then 3 else if k = 0x14 then 4
  else if k = 0x15 then 5 else if k = 0x20 then 6 else if 0x28 ≤ k && k ≤ 0x2E then 7 else if k = 0x30 then 8
  else if k = 0x31 then 9 else if 0x38 ≤ k && k ≤ 0x3D then 10 else 0

/-- Whether a descriptor may start but for the other descriptors that wait for its unit: ring order (R409), BARRIER (R412),
GORDER (R427) and a running context (R452). The descriptors of a batch start one after the other's end (R159, R160). -/
def State.ready (s : State) (w : Work) : Bool :=
  let before := s.seq.works.filter fun v =>
    decide (v.id < w.id) && (if w.batch.isSome then v.batch == w.batch else v.ring == w.ring && v.inRing)
  !w.started && !w.ended && w.entry.isNone &&
    before.all (fun v => if w.batch.isSome then v.ended else v.started) &&
    (!w.barrier || before.isEmpty) &&
    (!(w.grp && w.gorder) || before.all fun v => !(v.grp && v.group == w.group)) &&
    (!s.ownsOn w.die w.part || s.ctxRuns w.die w.part w.ctx)

/-- The one unit of its class that a descriptor's UNIT or TRIB field names, plus 1; none where any will do or the class has one. -/
def Work.unitSel (w : Work) : Option Nat :=
  let u := if w.kind = 0x10 then fld (w.f 26 8) 58 3 else if w.kind = 0x13 then w.f 32 1 % 4 else if w.kind = 0x31 then (w.f 8 1 + 1) % 4 else 0
  if u = 0 then none else some u

/-- Whether descriptor `v` waits for the unit for which `w` waits. One that names an engine does not hold up one that may take
another. -/
def sameUnit (v w : Work) : Bool :=
  v.die == w.die && unitClass v.kind == unitClass w.kind &&
    match v.unitSel, w.unitSel with
    | some a, some b => a == b
    | some _, none => false
    | none, _ => true

/-- Whether a unit takes `v` before `w`: a ring of higher PRIO, or one of equal PRIO and accepted earlier (R411). -/
def State.outranks (s : State) (v w : Work) : Bool :=
  decide (s.ringPrio v.ring > s.ringPrio w.ring) || (s.ringPrio v.ring == s.ringPrio w.ring && decide (v.id < w.id))

/-- Whether engine `u` of its class, plus 1, is due to a descriptor that names it before descriptor `w`, which may take any. -/
def State.spokenFor (s : State) (w : Work) (u : Nat) : Bool :=
  s.seq.works.any fun v =>
    v.die == w.die && unitClass v.kind == unitClass w.kind && v.unitSel == some u && s.ready v && !v.waits && s.outranks v w

/-- Whether the unit starts this descriptor next: the package serves (R19), it is ready, and no ready descriptor that waits for the
same unit comes from a ring of higher PRIO, or from one of equal PRIO accepted earlier (R411). -/
def State.canStart (s : State) (w : Work) : Bool :=
  s.serves && s.ready w &&
    (s.seq.works.all fun v =>
      !(sameUnit v w && s.ready v && !v.waits && s.outranks v w))

/-- Notes that a descriptor whose turn has come waits for something other than a free engine of its kind: its unit takes the next
one (R411). -/
def State.setAside (s : State) (w : Work) : State :=
  if unitClass w.kind = 1 || unitClass w.kind = 3 || unitClass w.kind = 9 then s else s.setWork { w with waits := true }

/-- Gives every descriptor that waits its turn again. -/
def State.retry (s : State) : State := { s with seq.works := s.seq.works.map fun w => { w with waits := false } }

/-- Whether a descriptor of this kind converts, so that it draws a rounding key when it starts (R68). -/
def drawsKey (k : Nat) : Bool := k == 0x10 || k == 0x11 || k == 0x13 || k == 0x14 || k == 0x15 || k == 0x31 || k == 0x20

/-- The rounding key that a narrowing unit of die `d` uses for a partition (R67 to R69): a fresh one from the entropy source,
which is a free value (log 6), with KEY_SRC = 1 outside deterministic mode, or the seed pair. -/
def State.roundKey (s : State) (d p : Nat) (det : Bool) : Nat × State :=
  if s.rbit d Reg.cnvSrCtrl 0 && !det then s.freeVal 64 else (s.regPair d (Reg.cnvSrSeedLo p), s)

/-- Marks a descriptor started and latches what it keeps until it completes: the flush options (R92), the mode (R623) and
the rounding key (R68, R69). One that runs again keeps what it first took. DESIGN CHOICE (log 19): an UPDATE takes the options
of its ring's die whatever HOME_DIE its entries name. -/
def State.latch (s : State) (w : Work) : State × Work :=
  let d := w.die
  if w.drawn then let w := { w with started := true }; (s.setWork w, w)
  else
    let det := s.rbit d Reg.seqDet w.part
    let (k, s) := if drawsKey w.kind then s.roundKey d w.part det else (s.regPair d (Reg.cnvSrSeedLo w.part), s)
    let w := { w with started := true, ftz := s.rf d (Reg.cnvFtz w.part) 0 5, det := det, srKey := k, drawn := true }
    (s.setWork w, w)

/-- Counts a refusal under R449 to R451 (Table 14-6). -/
def State.accessRefused (s : State) (w : Work) : State := s.bump w.die (Reg.seqSchCntLo w.part 7) 1

/-- What a kind's own checks answer for the access error of R449: status code 4, told apart from the access errors that
ACCESS_REFUSED does not count. -/
def codeBarred : Nat := 0x104

/-- The status code that a check's answer stands for. -/
def plainCode (c : Nat) : Nat := if c = codeBarred then 4 else c

/-- Whether the UNIT field of a descriptor names an engine outside the partition's half-dies (R450). -/
def State.unitForeign (s : State) (w : Work) : Bool :=
  match w.unitSel with
  | some u =>
    (w.kind == 0x10 && !s.ownsHalf w.die w.part (2 * w.die + (u - 1) / 2)) || (w.kind == 0x13 && !s.ownsHalf w.die w.part (2 * w.die + (u - 1)))
  | none => false

/-- Whether R449, R450 or R451 bars a descriptor: `rcs` and `cs` are what the checks of its ranges and of its kind answer. -/
def State.barred (s : State) (w : Work) (rcs cs : List Nat) : Bool :=
  (w.inRing && !s.ownsOn (ringDie w.ring) w.part) || s.unitForeign w || rcs.contains 4 || cs.contains codeBarred

/-- Ends a descriptor that its checks refuse, with the lowest code (R431); `counts` says that R449 to R451 are among the reasons. -/
def State.refuse (s : State) (w : Work) (code : Nat) (counts : Bool) : State :=
  let s := if code = 4 && counts then s.accessRefused w else s
  let s := if w.kind = 4 && (code = 4 || code = 5) then s.bump w.die (Reg.seqCntLo 1) 1 else s
  s.endStatus w.id code

/-! ## Interrupts (R487) -/

/-- MSIX_UNMASK: clears the vector's mask bit, and sends the held message when the vector's pending bit is set. -/
def execMsixUnmask (fn vector : Nat) (s : State) : Res :=
  live s (
    if vector < 336 && s.fnOn fn then
      let i := 4 * vector + 3
      let s := { s with hst.msix := kvPut s.hst.msix (2048 * fn + i) (setBit (s.msixWord fn i) 0 false) }
      if kvGet false s.hst.pba (512 * fn + vector) && s.vectorOpen fn vector then
        ({ s with hst.pba := kvSet false s.hst.pba (512 * fn + vector) false }).sendVector fn vector
      else s
    else s)

end Sys2Proof.Machine
end

