-- ==== Sys2Proof/Machine/Operands.lean ====
section
/-! DEFINITION. Operand forms: the address ranges that a descriptor touches and the checks on them (R7, R18, R31, R449,
R489, R596), the start of a descriptor after its checks (R431), and tiles: headers (Table 01-2), payloads (Tables 01-3,
02-1 and 05-1), decoding, and the writing of a converted tile (R57 to R66). -/

namespace Sys2Proof.Machine

/-! ## Ranges -/

/-- A range of device addresses that a descriptor reads or writes. -/
structure Rng where
  a   : Nat
  len : Nat
  wr  : Bool
deriving DecidableEq, Repr

/-- A model entry of the model table (Table 14-3), as bytes; all zero where it lies outside the HBM (R651). -/
def State.modelEntry (s : State) (m : Nat) : List Byte :=
  let a := s.regAddr 0 Reg.seqModelBaseLo + 64 * m
  if inHbm s.part.dies a 64 then s.bytes a 64 else List.replicate 64 0

/-- Whether a model entry is well formed (R464): reserved fields zero and the shared window inside the home partition's
half-dies. -/
def State.modelOk (s : State) (e : List Byte) : Bool :=
  let p := leAt e 0 1 / 16
  let a := leAt e 12 6
  let len := leAt e 18 6
  !bit (leAt e 0 1) 3 && leAt e 1 1 / 16 == 0 && leAt e 4 4 / 2 ^ 20 == 0 && leAt e 8 4 / 2 ^ 21 == 0 &&
    leAt e 30 2 / 2 ^ 13 == 0 && leAt e 38 2 == 0 && leAt e 50 14 == 0 &&
    (len == 0 || (mappedRange s.part.dies a len && (halvesOf s.part.dies a len).all fun u => s.ownsHalf 0 p u))

/-- STATE of a model as the hardware takes it: 0 absent, 1 loading, 2 resident, 3 retiring. -/
def State.modelState (s : State) (e : List Byte) : Nat := if s.modelOk e then leAt e 0 1 % 4 else 0

/-- Whether a range lies wholly inside the shared window of a resident model whose READERS include p (R449, R482). -/
def State.inShared (s : State) (p a len : Nat) : Bool :=
  (List.range 64).any fun m =>
    let e := s.modelEntry m
    s.modelState e == 2 && bit (leAt e 2 2) p && decide (leAt e 12 6 ≤ a) && decide (a + len ≤ leAt e 12 6 + leAt e 18 6)

/-- The banks and rows of a tile store that a range of offsets touches are fenced (R596): whether any entry of
RAS_TS_FENCED lies in it. -/
def State.fencedRow (s : State) (d off len : Nat) : Bool :=
  (List.range 64).any fun i =>
    let v := s.regN d (Reg.rasTsFenced i)
    let row := fld v 0 11
    let bank := fld v 11 5
    bit v 31 && (List.range 4).any fun k =>
      let lo := 65536 * row + 16384 * k + 512 * bank
      decide (lo < off + len) && decide (off < lo + 512)

/-- Whether the memory of a die that a range lies in is out of service: the die fenced, its stack fenced or failed, or a
fenced row (R594, R596, Table 13-5). -/
def State.memOut (s : State) (a len : Nat) : Bool :=
  let n := s.part.dies
  (diesOf n a len).any (fun d => s.dieOut d) ||
    (inHbm n a len && (diesOf n a len).any fun d => s.unitOut d 0x0E || s.rbit d Reg.hbmStatus 1) ||
    (inTs n a len && s.fencedRow ((a - tsBase) / tsStride) ((a - tsBase) % tsStride) len)

/-! ## Routes over the die mesh (R16, R17) -/

/-- The dies visited from die `a` along its row to die `b`, `a` left out. The first argument bounds the hops. -/
def rowHops : Nat → Nat → Nat → List Nat
  | 0, _, _ => []
  | n + 1, a, b => if a = b then [] else let x := if a < b then a + 1 else a - 1; x :: rowHops n x b

/-- The primary route: along the row, then across (R16). -/
def Part.primary (p : Part) (a b : Nat) : List Nat :=
  let c := p.cols
  rowHops 4 a (a / c * c + b % c) ++ (if a / c = b / c then [] else [b])

/-- The alternate route (R17): across first, then along the row; for dies of one row, across, along the other row and back. A T2
has none. -/
def Part.alternate (p : Part) (a b : Nat) : Option (List Nat) :=
  let c := p.cols
  let other := fun (d : Nat) => if d < c then d + c else d - c
  match p with
  | .t2 => none
  | _ =>
    if a / c = b / c then some (other a :: rowHops 4 (other a) (other b) ++ [b])
    else some (other a :: rowHops 4 (other a) b)

/-- The key of the link between two dies. -/
def linkKey (a b : Nat) : Nat := 8 * Nat.min a b + Nat.max a b

/-- Whether a route is usable in a view: every die between its ends and every link. -/
def routeOk (view : List Nat × List Nat) : Nat → List Nat → Bool
  | _, [] => true
  | a, [b] => view.2.contains (linkKey a b)
  | a, b :: rest => view.2.contains (linkKey a b) && view.1.contains b && routeOk view b rest

/-- Whether the mesh leaves no route between two dies that are in service (R18). -/
def State.cutPair (s : State) (d e : Nat) : Bool := s.rbit d Reg.d2dStatus (16 + e) && !s.dieOut e

/-- The route in force between two dies, as D2D_STATUS shows it; none where the pair is cut off (R16 to R18). -/
def State.dieRoute (s : State) (a b : Nat) : Option (List Nat) :=
  if s.rbit a Reg.d2dStatus (16 + b) || s.dieOut b then none
  else if s.rbit a Reg.d2dStatus (8 + b) then s.part.alternate a b
  else some (s.part.primary a b)

/-- The dies that serve a range: those whose memory it touches, and die 0 for host memory (R5). -/
def servedBy (n a len : Nat) : List Nat := if inHost a len then [0] else diesOf n a len

/-- The code of work of die `d` that needs the ports of some dies and some ranges: unreachable where die `d` and a port's die, or a
port's die and the memory that it moves data to or from, have no route (R18). -/
def State.pairCode (s : State) (d : Nat) (ports : List Nat) (rs : List Rng) : Nat :=
  if ports.any fun p => s.cutPair d p || rs.any fun r => (servedBy s.part.dies r.a r.len).any (s.cutPair p) then 6 else 0

/-- The status codes that a range gives a descriptor of partition `p` on die `d`. -/
def State.rangeCodes (s : State) (d p : Nat) (r : Rng) : List Nat :=
  let n := s.part.dies
  if r.len = 0 then []
  else if !mappedRange n r.a r.len then [2]
  else
    [if (halvesOf n r.a r.len).all (fun u => s.ownsHalf d p u) || (!r.wr && s.inShared p r.a r.len) then 0 else 4,
     if (servedBy n r.a r.len).any (s.cutPair d) then 6 else 0,
     if s.memOut r.a r.len || (inHost r.a r.len && !s.linkUp) then 7 else 0]

/-- Whether a page of HBM is marked shared (R491, R492). -/
def State.pageShared (s : State) (n : Nat) : Bool :=
  s.rbit 0 Reg.hstStatus 12 && bit (s.byte (s.regAddr 0 Reg.hstBiasBaseLo + n / 8)).toNat (n % 8)

/-- The shared pages that a range touches. -/
def State.sharedPages (s : State) (r : Rng) : List Nat :=
  if inHbm s.part.dies r.a r.len && s.rbit 0 Reg.hstStatus 12 && r.len != 0 then
    ((List.range ((r.a + r.len - 1) / 4096 + 1 - r.a / 4096)).map (r.a / 4096 + ·)).filter fun n => s.pageShared n
  else []

/-- Whether a range meets a block whose re-fetch is queued (R257). -/
def State.refetching (s : State) (r : Rng) : Bool :=
  s.refetch.any fun b => decide (b.addr < r.a + r.len) && decide (r.a < b.addr + b.len)

/-- Asks the host for every line of a shared page: RdCurr to read, RdOwnNoData to write (Table 15-5). -/
def State.askPage (s : State) (n : Nat) (own : Bool) : State :=
  let s := { s with hst.asked := addNew n s.hst.asked }
  let s := s.bump 0 (Reg.hstCntLo 3) 64
  (List.range 64).foldl (fun s i => s.emit (.cacheReq (n * 64 + i) own)) s

/-- Releases the lines of an answered page that a write owned (CleanEvictNoData), and forgets the answer. -/
def State.releasePage (s : State) (n : Nat) (own : Bool) : State :=
  let s := { s with hst.answered := without n s.hst.answered }
  if own then (List.range 64).foldl (fun s i => s.emit (.cacheEvict (n * 64 + i))) s else s

/-- The shared pages of several ranges with whether any range writes them. -/
def State.pagesOf (s : State) (rs : List Rng) : List (Nat × Bool) :=
  (nub (rs.flatMap fun r => s.sharedPages r)).map fun n =>
    (n, rs.any fun r => r.wr && decide (r.a < 4096 * (n + 1)) && decide (4096 * n < r.a + r.len))

/-- Whether a range is written under measurement (R572). -/
def State.measured (s : State) (r : Rng) : Bool :=
  r.wr && s.measuring.any fun m => !m.flash && decide (m.addr < r.a + r.len) && decide (r.a < m.addr + m.len)

/-- Counts the accesses of a descriptor to its ranges (Table 08-7) and sends the requests to host memory that they make (R488). A
held receive buffer makes them when it is filled. -/
def State.touched (s : State) (w : Work) (rs : List Rng) : State :=
  if w.kind = 0x2E then s else rs.foldl (fun s r => (s.touch r.wr r.a r.len).hostReq (some w.part) r.wr true r.a r.len) s

/-- Runs the work of a descriptor on some ranges once nothing holds them. While a block of them is being re-fetched (R257) or a range that the
work writes is being measured (R572), nothing happens. While the host has not answered for a shared page, the lines are asked for
(R492). -/
def State.onRanges (s : State) (w : Work) (rs : List Rng) (run : State → State) : State :=
  let pages := s.pagesOf rs
  if rs.any (fun r => s.refetching r || s.measured r) then s
  else
    let missing := pages.filter fun x => !(s.hst.answered.contains x.1)
    if missing.isEmpty then pages.foldl (fun s x => s.releasePage x.1 x.2) (run (s.touched w rs))
    else (missing.filter fun x => !(s.hst.asked.contains x.1)).foldl (fun s x => s.askPage x.1 x.2) s

/-- The codes of some ranges for work of partition `p` on die `d`; shared pages need the coherence link (R492). -/
def State.rangesCodes (s : State) (d p : Nat) (rs : List Rng) : List Nat :=
  (rs.flatMap fun r => s.rangeCodes d p r) ++ [if (s.pagesOf rs).isEmpty || s.rbit 0 Reg.hstStatus 11 then 0 else 7]

/-- What the checks made before a descriptor starts find: the lowest code among what acceptance found, what its ranges give and what
its kind gives (R431); 0 when they pass. -/
def State.startCode (s : State) (w : Work) (rs : List Rng) (cs : List Nat) : Nat :=
  lowest (w.pre :: s.rangesCodes w.die w.part rs ++ (cs.filter (· ≠ 255)).map plainCode)

/-- Starts a descriptor whose kind a test picks. When the sequencer would start it now, its checks run first, and a code
that they find ends it (R431). A code of 255 among the
kind's codes says that a rule makes a descriptor that passes its checks wait, and lets the unit take another meanwhile. Otherwise it is latched and its body runs, once nothing holds its
ranges. A context that this leaves with nothing to run gives up the die (R453). When the sequencer would not start it, the event does not come about and nothing changes (assumption 7). -/
def State.begin (s : State) (id : Nat) (isKind : Work → Bool) (ranges : State → Work → List Rng)
    (codes : State → Work → List Nat) (body : State → Work → State) : State :=
  match s.work id with
  | none => s
  | some w =>
    if isKind w && s.canStart w then
      let cs := codes s w
      let c := s.startCode w (ranges s w) cs
      let s := if c ≠ 0 then s.refuse w c (s.barred w (s.rangesCodes w.die w.part (ranges s w)) cs)
        else if cs.contains 255 then s.setAside w
        else s.onRanges w (ranges s w) fun s => let (s, w) := s.latch w; body s w
      s.leaveIdle w.on w.part
    else s

/-- No ranges. -/
def noRanges (_ : State) (_ : Work) : List Rng := []

/-- No checks beyond the shared ones. -/
def noCodes (_ : State) (_ : Work) : List Nat := []

/-- 1, parameter error, unless a test holds. -/
def need (b : Bool) : Nat := if b then 0 else 1

/-! ## Tile formats (Table 01-3) -/

/-- Element bits of a format. -/
def elemBits (f : Nat) : Nat :=
  match f with
  | 0 | 14 => 32
  | 1 | 2 => 16
  | 7 | 8 => 6
  | 9 | 12 | 13 => 4
  | _ => 8

/-- Bytes of the element array. -/
def elemBytes (f : Nat) : Nat := 2048 * elemBits f

/-- Bytes of the block-scale array. -/
def scaleBytes (f : Nat) : Nat := if f = 13 then 1024 else if 5 ≤ f && f ≤ 10 then 512 else 0

/-- Payload bytes of a format. -/
def payloadBytes (f : Nat) : Nat := elemBytes f + scaleBytes f

/-- The stride at which tiles of a format are packed: header and payload (R20). -/
def tileStride (f : Nat) : Nat := 64 + payloadBytes f

/-- Whether a format is block-scaled. -/
def isBlock (f : Nat) : Bool := (decide (5 ≤ f) && decide (f ≤ 10)) || f == 13

/-- Whether TENSOR_SCALE applies to a format (R22, R24). -/
def usesScale (f : Nat) : Bool := decide (3 ≤ f) && decide (f ≤ 13)

/-- Whether a format is an integer one. -/
def isInt (f : Nat) : Bool := f == 11 || f == 12 || f == 14

/-- The floating-point element of a format, integers aside. -/
def elemFmt (f : Nat) : FFmt :=
  match f with
  | 0 => fp32 | 1 => bf16 | 2 => fp16 | 3 => e4m3 | 4 => e5m2 | 5 => e4m3 | 6 => e5m2 | 7 => e3m2 | 8 => e2m3
  | _ => e2m1

/-- emax of a block-scaled format (Table 02-3). -/
def blockEmax (f : Nat) : Int :=
  match f with
  | 5 => 8 | 6 => 15 | 7 => 4 | 8 => 2 | 10 => 0 | _ => 2

/-- The value that an element code stands for before any scale; `zp` is the zero point of an INT8 tile (R50, R54). -/
def codeVal (f : Nat) (zp : Int) (c : Nat) : Val :=
  match f with
  | 10 => (Val.ofInt (sext c 8)).scale (-6)
  | 11 => Val.ofInt (sext c 8 - zp)
  | 12 => Val.ofInt (sext c 4)
  | 14 => Val.ofInt (sext c 32)
  | _ => (elemFmt f).decode c

/-! ## Tile headers (Table 01-2) -/

/-- A tile header. -/
structure Hdr where
  fmt   : Nat
  flags : Nat
  rows  : Nat
  cols  : Nat
  ts    : Nat
  zp    : Nat
  amax  : Nat
  zmap  : Nat
  obj   : Nat
  idx   : Nat
  rsvd  : Nat
  crc   : Nat
deriving DecidableEq, Repr

/-- The header of the tile at an address. -/
def State.hdr (s : State) (a : Nat) : Hdr :=
  let b := s.bytes a 64
  ⟨leAt b 0 1, leAt b 1 1, leAt b 2 1, leAt b 3 1, leAt b 4 4, leAt b 8 1, leAt b 12 4, leAt b 16 32, leAt b 48 4,
    leAt b 52 4, leAt b 9 3 + leAt b 56 4 + leAt b 1 1 / 16, leAt b 60 4⟩

/-- The header's bytes 0 to 59. -/
def Hdr.front (h : Hdr) : List Byte :=
  natLe 1 h.fmt ++ natLe 1 h.flags ++ natLe 1 h.rows ++ natLe 1 h.cols ++ natLe 4 h.ts ++ natLe 1 h.zp ++ natLe 3 0 ++
    natLe 4 h.amax ++ natLe 32 h.zmap ++ natLe 4 h.obj ++ natLe 4 h.idx ++ natLe 4 0

/-- FLAGS.POISON. -/
def Hdr.poison (h : Hdr) : Bool := bit h.flags 0
/-- FLAGS.ZMAP_VALID. -/
def Hdr.zmapOn (h : Hdr) : Bool := bit h.flags 1
/-- FLAGS.SPARSE24. -/
def Hdr.sparse (h : Hdr) : Bool := bit h.flags 2
/-- FLAGS.ZP_PRESENT. -/
def Hdr.zpOn (h : Hdr) : Bool := bit h.flags 3

/-- The zero point in force. -/
def Hdr.zpVal (h : Hdr) : Int := if h.zpOn then sext h.zp 8 else 0

/-- Whether FP32 bits are positive, normal and finite. -/
def goodScale (x : Nat) : Bool := decide (0x00800000 ≤ x) && decide (x < 0x7F800000)

/-- Whether a consumer takes the header (R24). -/
def Hdr.ok (h : Hdr) : Bool :=
  decide (h.fmt ≤ 14) && decide (1 ≤ h.rows) && decide (h.rows ≤ 128) && decide (1 ≤ h.cols) && decide (h.cols ≤ 128) &&
    (!h.zpOn || h.fmt == 11) && h.rsvd == 0 && (!usesScale h.fmt || goodScale h.ts)

/-! ## Reading a tile -/

/-- The code of element `i` of the tile at `a`, in format `f` (Table 02-1). -/
def State.code (s : State) (a f i : Nat) : Nat :=
  match elemBits f with
  | 32 => s.memN (a + 64 + 4 * i) 4
  | 16 => s.memN (a + 64 + 2 * i) 2
  | 6 => s.memN (a + 64 + 3 * (i / 4)) 3 / 2 ^ (6 * (i % 4)) % 64
  | 4 => s.memN (a + 64 + i / 2) 1 / 2 ^ (4 * (i % 2)) % 16
  | _ => s.memN (a + 64 + i) 1

/-- The 2:4 metadata nibble of group g of row r (R134, R135). -/
def State.nibble (s : State) (a f r g : Nat) : Nat :=
  s.memN (a + 64 + (128 * r + 64) * elemBits f / 8 + g / 2) 1 / 2 ^ (4 * (g % 2)) % 16

/-- The element index that holds logical element (r, c); none for an element that a 2:4 tile does not keep (R134). -/
def State.stored (s : State) (a : Nat) (h : Hdr) (r c : Nat) : Option Nat :=
  if h.sparse then
    let n := s.nibble a h.fmt r (c / 4)
    if n % 4 = c % 4 then some (128 * r + 2 * (c / 4))
    else if n / 4 = c % 4 then some (128 * r + 2 * (c / 4) + 1)
    else none
  else some (128 * r + c)

/-- Whether the ZMAP marks the block of a logical element. -/
def Hdr.marked (h : Hdr) (r c : Nat) : Bool := h.zmapOn && bit h.zmap (r / 8 * 16 + c / 8)

/-- Logical element (r, c) of a valid extent as the payload holds it, with its block scales but without TENSOR_SCALE: zero
where a 2:4 tile keeps nothing (R137). -/
def State.elemHeld (s : State) (a : Nat) (h : Hdr) (r c : Nat) : Val :=
  match s.stored a h r c with
  | none => .zero false
  | some i =>
    let v := codeVal h.fmt h.zpVal (s.code a h.fmt i)
    let b := 4 * r + c / 32
    if h.fmt = 13 then
      let x := s.memN (a + 64 + elemBytes 13 + 2 * b) 1
      let k := s.memN (a + 64 + elemBytes 13 + 2 * b + 1) 1 / 4 ^ (c % 32 / 8) % 4
      if x = 255 then .nan false else v.scale ((x : Int) - 127 - k)
    else if isBlock h.fmt then
      let x := s.memN (a + 64 + elemBytes h.fmt + b) 1
      if x = 255 then .nan false else v.scale ((x : Int) - 127)
    else v

/-- Logical element (r, c) with its block scales but without TENSOR_SCALE: zero outside the valid extent (R25) and in a block
that ZMAP marks (R141), where an element that is held as a zero keeps its sign (R46). DEDUCED, assumption 70. -/
def State.elem (s : State) (a : Nat) (h : Hdr) (r c : Nat) : Val :=
  if r ≥ h.rows || c ≥ h.cols then .zero false
  else if h.marked r c && !(s.elemHeld a h r c).isZero then .zero false
  else s.elemHeld a h r c

/-- Multiplies by an FP32 scale that is positive and finite. -/
def Val.times (v : Val) (ts : Nat) : Val :=
  match v, fp32.decode ts with
  | .fin b n d e, .fin _ n' d' e' => .fin b (n * n') (d * d') (e + e')
  | x, _ => x

/-- Logical element (r, c) at its full value, TENSOR_SCALE included (R57). -/
def State.elemFull (s : State) (a : Nat) (h : Hdr) (r c : Nat) : Val :=
  let v := s.elem a h r c
  if usesScale h.fmt then v.times h.ts else v

/-- Whether the checksum of the tile matches (R26). -/
def State.crcOk (s : State) (a : Nat) (h : Hdr) : Bool :=
  crc32c (s.bytes a 60 ++ s.bytes (a + 64) (payloadBytes h.fmt)) == h.crc

/-- What a consumer finds of a tile: poison by its flag or a tag, and a failed checksum (R26, R27). -/
def State.tileBad (s : State) (a : Nat) : Bool × Bool :=
  let h := s.hdr a
  let c := !s.crcOk a h
  (h.poison || s.tagged a (tileStride h.fmt) || c, c)

/-- Whether every group inside the extent of a 2:4 tile has I0 < I1 (R138). -/
def State.nibblesOk (s : State) (a : Nat) (h : Hdr) : Bool :=
  (List.range h.rows).all fun r => (List.range (h.cols / 4)).all fun g =>
    let n := s.nibble a h.fmt r g
    decide (n % 4 < n / 4)

/-- Whether a consumer other than a matrix engine's stationary side takes a tile (R24, R138); `sp` says whether the unit
reads 2:4 tiles at all. -/
def State.tileOk (s : State) (a : Nat) (sp : Bool) : Bool :=
  let h := s.hdr a
  h.ok && (!h.sparse || (sp && h.fmt != 14 && h.fmt != 0 && h.cols % 4 == 0 && s.nibblesOk a h))

/-! ## Writing a tile -/

/-- Byte `j` of the element array whose codes are given by element index. -/
def packByte (f : Nat) (code : Nat → Nat) (j : Nat) : Nat :=
  match elemBits f with
  | 32 => code (j / 4) / 256 ^ (j % 4) % 256
  | 16 => code (j / 2) / 256 ^ (j % 2) % 256
  | 6 =>
    let g := j / 3
    (code (4 * g) + 64 * code (4 * g + 1) + 4096 * code (4 * g + 2) + 262144 * code (4 * g + 3)) / 256 ^ (j % 3) % 256
  | 4 => code (2 * j) + 16 * code (2 * j + 1)
  | _ => code j

/-- The payload bytes: elements by code, scales by block (two bytes each for NB4), and 2:4 metadata nibbles by row and
group when the tile is sparse. -/
def payloadOf (f : Nat) (code scale : Nat → Nat) (meta? : Option (Nat → Nat → Nat)) : List Byte :=
  let el := fun (j : Nat) =>
    match meta? with
    | none => packByte f code j
    | some m =>
      let rowB := 16 * elemBits f
      let r := j / rowB
      let o := j % rowB
      let half := 8 * elemBits f
      if o < half then packByte f code j
      else if o < half + 16 then m r (2 * (o - half)) + 16 * m r (2 * (o - half) + 1)
      else 0
  (List.range (elemBytes f)).map (fun j => BitVec.ofNat 8 (el j)) ++
    (List.range (scaleBytes f)).map fun j =>
      BitVec.ofNat 8 (if f = 13 then scale (j / 2) / 256 ^ (j % 2) else scale j)

/-- The magnitude of a value as FP32 rounded toward +Inf; +Inf beyond the range (R169). NaN gives 0. -/
def f32up : Val → Nat
  | .nan _ => 0
  | .inf _ => 0x7F800000
  | .fin _ n d e =>
    if n = 0 then 0
    else
      let u := fp32.place n d e
      let (k, inex) := roundTo .zero 0 n d e u
      let c := fp32.code (if inex then k + 1 else k) u
      if c > fp32.top then 0x7F800000 else c

/-- TILE_AMAX of a tile whose payload is in memory (R169). -/
def State.amaxOf (s : State) (a : Nat) (h : Hdr) : Nat :=
  maxNat ((List.range h.rows).flatMap fun r => (List.range h.cols).map fun c => f32up (s.elemFull a h r c))

/-- The exact ZMAP of a tile whose payload is in memory (R28). -/
def State.zmapOf (s : State) (a : Nat) (h : Hdr) : Nat :=
  (List.range 256).foldl (fun z n =>
    if (List.range 64).all fun i => (s.elem a h (n / 16 * 8 + i / 8) (n % 16 * 8 + i % 8)).isZero then z + 2 ^ n else z) 0

/-- What a producer puts in a tile's header beside what it computes. -/
structure NewTile where
  fmt    : Nat
  rows   : Nat
  cols   : Nat
  ts     : Nat
  zp     : Option Nat
  obj    : Nat
  idx    : Nat
  poison : Bool
deriving DecidableEq, Repr

/-- Writes a tile: payload first, then the header with TILE_AMAX, ZMAP and CHECKSUM (R26, R28). -/
def State.writeTile (s : State) (a : Nat) (t : NewTile) (code scale : Nat → Nat) (meta? : Option (Nat → Nat → Nat)) :
    State :=
  let s := s.write (a + 64) (payloadOf t.fmt code scale meta?)
  let fl := b2n t.poison + (if meta?.isSome then 4 else 0) + (if t.zp.isSome then 8 else 0)
  let h : Hdr := ⟨t.fmt, fl, t.rows, t.cols, t.ts, t.zp.getD 0, 0, 0, t.obj, t.idx, 0, 0⟩
  let h := { h with amax := s.amaxOf a h, zmap := s.zmapOf a h, flags := fl + 2 }
  let front := h.front
  let crc := crc32c (front ++ s.bytes (a + 64) (payloadBytes t.fmt))
  s.write a (front ++ natLe 4 crc)

/-! ## Converting a tile (R57 to R66, R140) -/

/-- How a descriptor asks for a conversion: the destination, its scale and zero point, rounding, and the generator's
inputs (Table 02-6). -/
structure Dest where
  fmt  : Nat
  ts   : Nat
  zp   : Option Nat
  rnd  : Rnd
  sat  : Bool
  ftz  : Bool
  key  : Nat
  step : Nat
deriving DecidableEq, Repr

/-- No element yet; NaN stands for no extreme. -/
def Stats.none : Stats := ⟨.nan false, .nan false, 0, 0, 0, 0⟩

/-- The larger of two values, NaN giving way. -/
def vmax (a b : Val) : Val := if a.isNan then b else if b.isNan then a else if a.lt b then b else a

/-- The smaller of two values, NaN giving way. -/
def vmin (a b : Val) : Val := if a.isNan then b else if b.isNan then a else if b.lt a then b else a

/-- One element into the statistics: its exact value, the flags its conversion raised, and whether its result is zero.
`asym` tracks signed extremes, otherwise magnitudes. -/
def Stats.add (t : Stats) (asym : Bool) (v : Val) (flags : Nat) (zero : Bool) : Stats :=
  let x := if asym then v else v.abs
  ⟨if v.isNan then t.max else vmax t.max x, if v.isNan then t.min else vmin t.min x, t.elem + 1,
    t.sat + b2n (bit flags 2 || bit flags 5), t.uf + b2n (zero && !v.isZero && !v.isNan && !v.isInf), t.nan + b2n v.isNan⟩

/-- The rounding that a destination asks for at element index `i` of a tile. -/
def Dest.conv (d : Dest) (obj idx i : Nat) : Conv :=
  ⟨d.rnd, d.sat, d.ftz, if d.rnd = .stoch then randomOf d.key i idx obj d.step else 0⟩

/-- A value divided by an FP32 scale. -/
def Val.overScale (v : Val) (ts : Nat) : Val :=
  match fp32.decode ts with
  | .fin _ n d e => v.divBy n d e
  | _ => v

/-- One element of a format without block scales: code and flags. -/
def Dest.scalar (d : Dest) (c : Conv) (v : Val) : Nat × Nat :=
  let v := if usesScale d.fmt then v.overScale d.ts else v
  match d.fmt with
  | 11 => convInt 8 (match d.zp with | some z => sext z 8 | none => 0) c v
  | 12 => convInt 4 0 c v
  | 14 => convInt 32 0 c v
  | f => convFloat (elemFmt f) c v

/-- The largest finite magnitude of some values, and floor(log2) of it; none when it is zero. -/
def topExp (vs : List Val) : Option Int :=
  match vs.foldl (fun a v => if v.isInf then a else vmax a v.abs) (Val.zero false) with
  | .fin _ n d e => if n = 0 then none else some (flog2 n d e)
  | _ => none

/-- The scale word and the elements of one block: values already divided by TENSOR_SCALE, each with its rounding
(R60, R61, R62). A block with a NaN or an infinite source is a NaN block, but for infinities in MXFP8 E5M2. In a block without a
magnitude a zero keeps its sign (R46) but for NB4, where R61 writes element code 0x0 (DEDUCED, assumption 14). -/
def convBlock (f : Nat) (vs : List (Val × Conv)) : Nat × List (Nat × Nat) :=
  let vals := vs.map Prod.fst
  if vals.any (fun v => v.isNan) || (f != 6 && vals.any fun v => v.isInf) then
    (255, vals.map fun v => (0, if v.isNan then Flag.ni else if v.isInf && f != 6 then Flag.iv else 0))
  else
    match topExp vals with
    | none =>
      (0, vals.map fun v => (match v with
        | .inf b => e5m2.sign b + 0x7C
        | .fin b _ _ _ => if f = 13 || f = 10 then 0 else (elemFmt f).sign b
        | .nan _ => 0, 0))
    | some e =>
      let x := max (-127) (min 127 (e - blockEmax f))
      let subs : List Int := (List.range 4).map fun k =>
        match topExp ((vals.drop (8 * k)).take 8) with
        | none => 0
        | some ek => min 3 (e - ek)
      let scale := (x + 127).toNat +
        (if f = 13 then 256 * sumNat (subs.zipIdx.map fun y => y.1.toNat * 4 ^ y.2) else 0)
      (scale, vs.zipIdx.map fun y =>
        let sh := if f = 13 then x - (subs[y.2 / 8]?).getD 0 else x
        match y.1.1 with
        | .inf b => (e5m2.sign b + 0x7C, 0)
        | .nan _ => (0, 0)
        | .fin b n d e' =>
          if f = 10 then convMxInt8 y.1.2 b n d (e' - sh) else convElem (elemFmt f) y.1.2 b n d (e' - sh))

/-- The rank of a value when SPARSIFY keeps the two largest of a group: whether the first is kept before the second
(R140): NaN, then infinity, then magnitude; the earlier column on a tie. -/
def keptBefore (a b : Val) : Bool :=
  if a.isNan then true else if b.isNan then false else !(a.abs.lt b.abs)

/-- The columns of a group of four that SPARSIFY keeps, in increasing order. -/
def keepTwo (v : Nat → Val) : Nat × Nat :=
  let score := fun (i : Nat) => ((List.range 4).filter fun j =>
    j != i && (if j < i then keptBefore (v j) (v i) else !keptBefore (v i) (v j))).length
  match (List.range 4).filter fun i => decide (score i < 2) with
  | [i, j] => (i, j)
  | _ => (0, 1)

/-- The result of converting one tile: codes by element index, scales by block, metadata when sparse, flags and
statistics. -/
structure Converted where
  codes : List (Nat × Nat)
  scale : List (Nat × Nat)
  nibs  : Option (List (Nat × Nat))
  flags : Nat
  stats : Stats
deriving DecidableEq, Repr

/-- Whether a code of a destination stands for zero. -/
def Dest.isZeroCode (d : Dest) (c : Nat) : Bool :=
  (codeVal d.fmt (match d.zp with | some z => sext z 8 | none => 0) c).isZero

/-- Converts the values of one tile. `val r c` is the exact value of element (r, c) of the destination's extent, `keep r`
the columns of row r that are stored (all of them, or the two of each group under SPARSIFY, which also gives the element
index of each). -/
def convertTile (d : Dest) (t : NewTile) (asym sparse : Bool) (val : Nat → Nat → Val) : Converted :=
  let kept := fun (r : Nat) =>
    if sparse then (List.range (t.cols / 4)).flatMap fun g =>
      let (i, j) := keepTwo fun k => val r (4 * g + k)
      [(4 * g + i, 128 * r + 2 * g), (4 * g + j, 128 * r + 2 * g + 1)]
    else (List.range t.cols).map fun c => (c, 128 * r + c)
  let add := fun (x : Converted) (i : Nat) (v : Val) (cf : Nat × Nat) =>
    ({ x with codes := x.codes ++ [(i, cf.1)], flags := Nat.lor x.flags cf.2,
              stats := x.stats.add asym v cf.2 (d.isZeroCode cf.1) } : Converted)
  let row := fun (x : Converted) (r : Nat) =>
    if isBlock d.fmt then
      (List.range 4).foldl (fun x b =>
        let ks := (kept r).filter fun k => k.1 / 32 == b
        if ks.isEmpty then x
        else
          let dense := (List.range 32).map fun i => ks.find? fun k => k.1 == 32 * b + i
          let vs := dense.map fun o => match o with
            | some k => ((val r k.1).overScale d.ts, d.conv t.obj t.idx k.2)
            | none => (Val.zero false, d.conv t.obj t.idx 0)
          let (sc, out) := convBlock d.fmt vs
          let x := { x with scale := x.scale ++ [(4 * r + b, sc)] }
          (dense.zip out).foldl (fun x p => match p.1 with
            | some k => add x k.2 (val r k.1) p.2
            | none => x) x) x
    else (kept r).foldl (fun x k => add x k.2 (val r k.1) (d.scalar (d.conv t.obj t.idx k.2) (val r k.1))) x
  let nibs := if sparse then
      some ((List.range t.rows).flatMap fun r => (List.range (t.cols / 4)).map fun g =>
        let (i, j) := keepTwo fun k => val r (4 * g + k)
        (32 * r + g, i + 4 * j))
    else none
  (List.range t.rows).foldl row ⟨[], [], nibs, 0, Stats.none⟩

/-- Writes a converted tile. -/
def State.putTile (s : State) (a : Nat) (t : NewTile) (x : Converted) : State :=
  s.writeTile a t (kvGet 0 x.codes) (kvGet 0 x.scale) (x.nibs.map fun l => fun r g => kvGet 0 l (32 * r + g))

/-- Two sets of statistics together. -/
def Stats.merge (a b : Stats) : Stats :=
  ⟨vmax a.max b.max, vmin a.min b.min, a.elem + b.elem, a.sat + b.sat, a.uf + b.uf, a.nan + b.nan⟩

end Sys2Proof.Machine
end

