-- ==== Sys2Proof/Machine/Objects.lean ====
section
/-! DEFINITION. Objects: placement records (R34, R35), twin entries (R368, R369), and what an action of a commit group does
to the twin it names when it starts (R371, R376, R426). -/

namespace Sys2Proof.Machine

/-- A placement record (Table 01-5). -/
structure ObjRec where
  base   : Nat
  len    : Nat
  tier   : Nat
  home   : Nat
  clean  : Bool
  retain : Bool
  meas   : Bool
  part   : Nat
  valid  : Bool
  loc    : List Byte
  rsvd   : Bool
deriving DecidableEq, Repr

/-- A placement record from its 32 bytes. `rsvd` says that a reserved field is not zero. -/
def ObjRec.ofBytes (b : List Byte) : ObjRec :=
  let w := leAt b 16 4
  ⟨leAt b 0 6, leAt b 8 6, w % 8, fld w 4 3, bit w 8, bit w 9, bit w 10, fld w 12 4, bit w 31, b.drop 20,
    leAt b 6 2 != 0 || leAt b 14 2 != 0 || bit w 3 || bit w 7 || bit w 11 || fld w 16 15 != 0 || leAt b 26 6 != 0⟩

/-- CLEAN_LOC.VLBA: the volume unit that holds the object's first byte (R244). -/
def ObjRec.vlba (r : ObjRec) : Nat := leAt r.loc 0 6

/-- Units of 4,096 bytes that a number of bytes fills. -/
def unitsOf (len : Nat) : Nat := (len + 4095) / 4096

/-- The address of an object's record, as die `d` holds the table's base. -/
def State.objAddr (s : State) (d o : Nat) : Nat := s.regAddr d Reg.seqObjBaseLo + 32 * o

/-- Whether an object's record lies in the HBM that the part has (R651). -/
def State.objIn (s : State) (d o : Nat) : Bool := inHbm s.part.dies (s.objAddr d o) 32

/-- An object's record as every hardware use reads it: not in use where it lies outside the HBM (R651). -/
def State.obj (s : State) (d o : Nat) : ObjRec :=
  if s.objIn d o then ObjRec.ofBytes (s.bytes (s.objAddr d o) 32) else ObjRec.ofBytes []

/-- A twin entry (Table 12-1). -/
structure Twin where
  shadow : Nat
  twin   : Bool
  buddy  : Bool
  staged : Bool
  prev   : Bool
  revert : Bool
  group  : Nat
  hold   : Nat
deriving DecidableEq, Repr

/-- A twin entry from its 16 bytes. -/
def Twin.ofBytes (b : List Byte) : Twin :=
  let f := leAt b 6 1
  ⟨leAt b 0 6, bit f 0, bit f 1, bit f 2, bit f 3, bit f 4, leAt b 7 1 % 64, leAt b 8 2⟩

/-- The first ten bytes of a twin entry. -/
def Twin.bytes (t : Twin) : List Byte :=
  natLe 6 t.shadow ++ natLe 1 (b2n t.twin + 2 * b2n t.buddy + 4 * b2n t.staged + 8 * b2n t.prev + 16 * b2n t.revert) ++
    natLe 1 t.group ++ natLe 2 t.hold

/-- The address of an object's twin entry. -/
def State.twinAddr (s : State) (d o : Nat) : Nat := s.regAddr d Reg.cmtTwinBaseLo + 16 * o

/-- Whether an object's twin entry lies in the HBM that the part has. -/
def State.twinIn (s : State) (d o : Nat) : Bool := inHbm s.part.dies (s.twinAddr d o) 16

/-- An object's twin entry; TWIN reads 0 where it lies outside the HBM (R651). -/
def State.twin (s : State) (d o : Nat) : Twin :=
  if s.twinIn d o then Twin.ofBytes (s.bytes (s.twinAddr d o) 16) else Twin.ofBytes []

/-- Writes an object's twin entry. -/
def State.setTwin (s : State) (d o : Nat) (t : Twin) : State := s.write (s.twinAddr d o) t.bytes

/-- Writes an object's BASE. -/
def State.setObjBase (s : State) (d o base : Nat) : State := s.write (s.objAddr d o) (natLe 6 base)

/-- The OBJECT_ID that tiles written under an object field carry (R422). -/
def objectId (field : Nat) : Nat := if field % 2 ^ 20 = 0xFFFFF then 0xFFFFFFFF else field % 2 ^ 20

/-- Codes of an action that names twin `o` under commit group `g` (R371, R375, R376): 255 while another unresolved group
has it staged; placement error when it is no twin or has a clean copy; address error when it writes outside the shadow. -/
def State.twinCodes (s : State) (d o g : Nat) (wr : Option (Nat × Nat)) : List Nat :=
  let t := s.twin d o
  let r := s.obj d o
  if !s.twinIn d o then [2]
  else if t.staged && t.group != g && (s.groupAt t.group).isSome then [255]
  else
    [if !t.twin || r.clean then 5 else 0,
     match wr with
     | some (a, len) => if !t.twin || (t.shadow ≤ a && a + len ≤ t.shadow + r.len) then 0 else 2
     | none => 0]

/-- Stages twin `o` under group `g` before the action writes (R371). -/
def State.stage (s : State) (d o g : Nat) : State :=
  s.setTwin d o { s.twin d o with staged := true, group := g, prev := false }

/-- Codes that a descriptor's commit group gives it, when it names one (R375, R426): `obj` is its DST_OBJ field and
`wr` the range it writes. -/
def State.groupCodes (s : State) (w : Work) (obj : Nat) (wr : Nat × Nat) : List Nat :=
  if w.grp then
    (match s.groupAt w.group with
      | some g => need (decide (g.actions ≤ 4096))
      | none => 0) :: s.twinCodes w.die (obj % 2 ^ 20) w.group (some wr)
  else []

/-- Stages the twin of a descriptor that is an action of a commit group. -/
def State.stageIf (s : State) (w : Work) (obj : Nat) : State :=
  if w.grp then s.stage w.die (obj % 2 ^ 20) w.group else s

/-- The address of a history record, as die `d` holds the table. -/
def State.histAddr (s : State) (d h : Nat) : Nat := s.regAddr d Reg.cnvHistBaseLo + 64 * h

/-- The objects that hold a byte of memory: records with VALID = 1 and TIER 0x0 or 0x1 whose bytes cover the address, in
increasing number (R591). -/
def State.ownersAt (s : State) (d a : Nat) : List Nat :=
  (List.range' 0 (2 ^ 20)).filter fun o =>
    let r := s.obj d o
    r.valid && decide (r.tier < 2) && decide (r.base ≤ a) && decide (a < r.base + r.len)

end Sys2Proof.Machine
end

