-- ==== Sys2Proof/Machine/Convert.lean ====
section
/-! DEFINITION. The converter and the history (chapter 6): history records, where a destination scale comes from, CONVERT,
the history operations and the fold of a descriptor's statistics. -/

namespace Sys2Proof.Machine

/-! ## History records (Table 06-2) -/

/-- A history record. `rsvd` says that a reserved field is not zero. -/
structure HRec where
  scale   : Nat
  zp      : Nat
  valid   : Bool
  asym    : Bool
  mode    : Bool
  pow2    : Bool
  role    : Nat
  pend    : Bool
  seen    : Bool
  len     : Nat
  dest    : Nat
  margin  : Nat
  ema     : Nat
  head    : Nat
  fill    : Nat
  satT    : Nat
  ufT     : Nat
  curMax  : Nat
  curMin  : Nat
  hMax    : Nat
  hMin    : Nat
  entries : Nat
  part    : Nat
  elem    : Nat
  sat     : Nat
  uf      : Nat
  nan     : Nat
  init    : Nat
  step    : Nat
  rsvd    : Bool
deriving DecidableEq, Repr

/-- A record from its 64 bytes. -/
def HRec.ofBytes (b : List Byte) : HRec :=
  let f := leAt b 5 1
  ⟨leAt b 0 4, leAt b 4 1, bit f 0, bit f 1, bit f 2, bit f 3, fld f 4 2, bit f 6, bit f 7, leAt b 6 2, leAt b 8 1,
    fld (leAt b 9 1) 0 4, fld (leAt b 9 1) 4 4, leAt b 10 2, leAt b 12 2, fld (leAt b 14 1) 0 5, fld (leAt b 15 1) 0 5,
    leAt b 16 4, leAt b 20 4, leAt b 24 4, leAt b 28 4, leAt b 32 6, fld (leAt b 38 1) 0 4, leAt b 40 4, leAt b 44 4,
    leAt b 48 4, leAt b 52 4, leAt b 56 4, leAt b 60 4,
    leAt b 14 1 / 32 != 0 || leAt b 15 1 / 32 != 0 || leAt b 38 1 / 16 != 0 || leAt b 39 1 != 0⟩

/-- The 64 bytes of a record. -/
def HRec.bytes (r : HRec) : List Byte :=
  natLe 4 r.scale ++ natLe 1 r.zp ++
    natLe 1 (b2n r.valid + 2 * b2n r.asym + 4 * b2n r.mode + 8 * b2n r.pow2 + 16 * r.role + 64 * b2n r.pend + 128 * b2n r.seen) ++
    natLe 2 r.len ++ natLe 1 r.dest ++ natLe 1 (r.margin + 16 * r.ema) ++ natLe 2 r.head ++ natLe 2 r.fill ++
    natLe 1 r.satT ++ natLe 1 r.ufT ++ natLe 4 r.curMax ++ natLe 4 r.curMin ++ natLe 4 r.hMax ++ natLe 4 r.hMin ++
    natLe 6 r.entries ++ natLe 1 r.part ++ natLe 1 0 ++ natLe 4 r.elem ++ natLe 4 r.sat ++ natLe 4 r.uf ++
    natLe 4 r.nan ++ natLe 4 r.init ++ natLe 4 r.step

/-- Whether a history record lies in the HBM that the part has (R651). -/
def State.histIn (s : State) (d h : Nat) : Bool := inHbm s.part.dies (s.histAddr d h) 64

/-- A history record as every hardware use reads it (R651). -/
def State.hist (s : State) (d h : Nat) : HRec :=
  if s.histIn d h then HRec.ofBytes (s.bytes (s.histAddr d h) 64) else HRec.ofBytes []

/-- Writes a history record. -/
def State.setHist (s : State) (d h : Nat) (r : HRec) : State := s.write (s.histAddr d h) r.bytes

/-- The home of a history record: the die whose HBM holds it (R170). -/
def State.histHome (s : State) (d h : Nat) : Nat := s.histAddr d h / hbmSize

/-! ## Scaling fields and their checks (R165 to R168, R184) -/

/-- The scaling byte of a descriptor with the fields it governs (Table 06-1). -/
structure Scaling where
  rnd    : Nat
  sat    : Bool
  src    : Nat
  zpEn   : Bool
  histEn : Bool
  rescEn : Bool
  zp     : Nat
  scale  : Nat
  hist   : Nat
deriving DecidableEq, Repr

/-- The scaling fields of a descriptor whose scaling byte, ZP, SCALE and HIST lie at these offsets. -/
def Work.scaling (w : Work) (byte zp scale hist : Nat) : Scaling :=
  let b := w.f byte 1
  ⟨fld b 0 2, w.bit byte 2, fld b 3 2, w.bit byte 5, w.bit byte 6, w.bit byte 7, w.f zp 1, w.f scale 4, w.f hist 2⟩

/-- Whether a zero point may be carried: INT8 under an activation record (R184). -/
def zpAllowed (g : Scaling) (fmt : Nat) (r : HRec) : Bool := fmt == 11 && g.histEn && r.role == 1

/-- The codes that a descriptor's scaling fields give it (R165, R167, R651, Table 06-6). -/
def State.scalingCodes (s : State) (w : Work) (g : Scaling) (fmt : Nat) (matrix : Bool) : List Nat :=
  let d := w.die
  let inTable := decide (g.hist < s.regN d Reg.cnvHistCount)
  let r := s.hist d g.hist
  [need (g.rnd != 3 && g.src != 3 && (g.src == 0 || g.histEn) && !(matrix && g.src == 2)),
   need (!(g.src == 0 && usesScale fmt) || goodScale g.scale),
   if !g.histEn then 0 else if !inTable then 1 else if !s.histIn d g.hist then 2
     else need (r.valid && fmt != 14 && fmt == r.dest && !(g.src == 2 && r.asym)),
   need (!g.zpEn || (g.src == 0 && zpAllowed g fmt r)),
   if g.histEn && inTable && r.valid && r.part != w.part then 4 else 0,
   if s.rbit d Reg.cnvCtrl 0 && (!g.histEn || s.rbit d Reg.cnvCtrl 1) then 0 else 7]

/-- FMAX of a format (Table 06-4); none when its scale is not derived. -/
def fmaxOf : Nat → Option Nat
  | 3 => some 448
  | 4 => some 57344
  | 11 => some 127
  | 12 => some 7
  | _ => none

/-- The least power of two at or above FP32 bits that are positive. -/
def pow2Up (x : Nat) : Nat := if x % 2 ^ 23 = 0 then x else (x / 2 ^ 23 + 1) * 2 ^ 23

/-- The scale that a magnitude n / d × 2^e gives: times 2^margin, over `fmax`, rounded toward +Inf, raised to a power of
two when asked, and clamped to 2⁻¹²⁶ to 2¹²⁷ (R181). -/
def deriveScale (n d : Nat) (e : Int) (margin fmax : Nat) (pow2 : Bool) : Nat :=
  let x := f32up (.fin false n (d * fmax) (e + margin))
  let x := if pow2 then pow2Up x else x
  Nat.max 0x00800000 (Nat.min 0x7F000000 x)

/-- The symmetric scale of an FP32 magnitude (R181). -/
def symScale (h fmt margin : Nat) (pow2 : Bool) : Nat :=
  match fp32.decode h, fmaxOf fmt with
  | .fin _ n d e, some m => deriveScale n d e margin m pow2
  | _, _ => 0x3F800000

/-- The destination scale and zero point that a descriptor settles at its start (R166, R168, R184). `amax` is the largest
TILE_AMAX of the source tiles. -/
def State.settle (s : State) (w : Work) (g : Scaling) (fmt amax : Nat) : Nat × Option Nat :=
  let r := s.hist w.die g.hist
  if !usesScale fmt then (0x3F800000, none)
  else if isBlock fmt then (if g.src = 0 then g.scale else 0x3F800000, none)
  else if g.src = 0 then (g.scale, if g.zpEn then some g.zp else none)
  else if g.src = 1 then (r.scale, if r.asym && zpAllowed g fmt r then some r.zp else none)
  else (if amax = 0 || amax = 0x7F800000 then r.scale else symScale amax fmt r.margin r.pow2, none)

/-! ## Statistics folds (R176 to R179) -/

/-- An FP32 word at or above a value, rounded toward +Inf; a value beyond the FP32 range is an infinity of its sign (R176). -/
def f32ceil (v : Val) : Nat :=
  if v.neg then
    match v with
    | .fin _ n d e =>
      if (fp32.decode fp32.top).lt (.fin false n d e) then 0xFF800000
      else 2 ^ 31 + (convFloat fp32 ⟨.zero, false, false, 0⟩ (.fin false n d e)).1
    | _ => 0xFF800000
  else f32up v

/-- An FP32 word at or below a value, rounded toward −Inf. -/
def f32floor (v : Val) : Nat :=
  let c := f32ceil v.negate
  if c < 2 ^ 31 then c + 2 ^ 31 else c - 2 ^ 31

/-- A saturating 32-bit count. -/
def sat32 (n : Nat) : Nat := Nat.min (2 ^ 32 - 1) n

/-- The larger of two FP32 words by value. -/
def f32maxBits (a b : Nat) : Nat := if (fp32.decode a).lt (fp32.decode b) then b else a

/-- The smaller of two FP32 words by value. -/
def f32minBits (a b : Nat) : Nat := if (fp32.decode b).lt (fp32.decode a) then b else a

/-- A record with a fold applied (R177). A descriptor that converted no number other than NaN has no extremes. -/
def HRec.fold (r : HRec) (t : Stats) : HRec :=
  let mx := if t.max.isNan then 0 else f32ceil t.max
  let mn := if t.min.isNan then 0 else f32floor t.min
  let first := !r.seen
  { r with seen := true, elem := sat32 (r.elem + t.elem), sat := sat32 (r.sat + t.sat), uf := sat32 (r.uf + t.uf), nan := sat32 (r.nan + t.nan), curMax := if first then mx else if t.max.isNan then r.curMax else f32maxBits r.curMax mx, curMin := if !r.asym then r.curMin else if first then mn else if t.min.isNan then r.curMin else f32minBits r.curMin mn }

/-- Queues a descriptor's fold for its record's home. -/
def State.queueFold (s : State) (w : Work) (g : Scaling) (t : Stats) (poison : Bool) : State :=
  if g.histEn then { s with folds := s.folds ++ [⟨w.id, w.die, s.histAddr w.die g.hist, t, poison⟩] } else s

/-- Applies or discards a fold of a descriptor whose work has ended (R177, R178). -/
def State.applyFold (s : State) (f : Fold) (poison : Bool) : State :=
  let s := { s with folds := s.folds.erase f }
  let home := f.addr / hbmSize
  if poison then s.bump home (Reg.cnvCntLo 3) 1
  else if inHbm s.part.dies f.addr 64 then
    (s.write f.addr ((HRec.ofBytes (s.bytes f.addr 64)).fold f.stats).bytes).bump home (Reg.cnvCntLo 2) 1
  else s

/-- HIST_FOLD (R177): the fold of a descriptor reaches its record's home. -/
def execHistFold (id : Nat) (s : State) : Res :=
  live s (
    match s.folds.find? fun f => f.id == id with
    | none => s
    | some f =>
      match s.work id with
      | some w => if w.ended then s.applyFold f (f.poison || w.res.poison) else s
      | none => s.applyFold f f.poison)

/-! ## CONVERT (R99, R140, R166, R188 to R191) -/

/-- The fields of a CONVERT (Table 13-3). -/
structure Cvt where
  src    : Nat
  dst    : Nat
  nt     : Nat
  cols   : Nat
  dfmt   : Nat
  tr     : Bool
  sp     : Bool
  dens   : Bool
  step   : Nat
  resc   : Nat
  obj    : Nat
deriving DecidableEq, Repr

/-- The fields of an accepted CONVERT. -/
def Work.cvt (w : Work) : Cvt :=
  ⟨w.addr 8, w.addr 14, w.f 20 4, w.f 24 2, fld (w.f 26 1) 0 4, w.bit 26 4, w.bit 26 5, w.bit 26 6, w.f 36 4, w.addr 40, w.f 48 4⟩

/-- The scaling fields of a CONVERT. -/
def Work.cvtScaling (w : Work) : Scaling := w.scaling 27 28 32 30

/-- The format of the first source tile. -/
def State.srcFmt (s : State) (a : Nat) : Nat := (s.hdr a).fmt

/-- The source address of tile `t`. -/
def State.cvtTile (s : State) (c : Cvt) (t : Nat) : Nat := c.src + t * tileStride (s.srcFmt c.src)

/-- How many columns of tile column `tc` a CONVERT's source tiles hold: the rescale table has an entry for each (R188). -/
def State.rescCols (s : State) (c : Cvt) (tc : Nat) : Nat :=
  Nat.min 128 (maxNat ((List.range ((c.nt - tc + c.cols - 1) / c.cols)).map fun i => (s.hdr (s.cvtTile c (tc + i * c.cols))).cols))

/-- The parts of a rescale table that a CONVERT's columns use, one for each tile column it has (R188). -/
def State.rescRanges (s : State) (c : Cvt) : List Rng :=
  (List.range (Nat.min c.cols c.nt)).map fun tc => ⟨c.resc + 1024 * tc, 8 * s.rescCols c tc, false⟩

/-- The ranges of a CONVERT. -/
def cvtRanges (s : State) (w : Work) : List Rng :=
  let c := w.cvt
  [⟨c.src, c.nt * tileStride (s.srcFmt c.src), false⟩, ⟨c.dst, c.nt * tileStride c.dfmt, true⟩] ++
    (if w.cvtScaling.rescEn then s.rescRanges c else [])

/-- Whether the rescale entries of a part of a table have zero reserved bits (R188). -/
def State.rescaleOk (s : State) (r : Rng) : Bool := (List.range (r.len / 8)).all fun i => s.memN (r.a + 8 * i) 8 / 2 ^ 38 == 0

/-- Whether a TILE_AMAX is neither NaN nor negative (R166). -/
def amaxOk (x : Nat) : Bool := decide (x ≤ 0x7F800000)

/-- The codes of a CONVERT beside its ranges. -/
def cvtCodes (s : State) (w : Work) : List Nat :=
  let c := w.cvt
  let g := w.cvtScaling
  let f := s.srcFmt c.src
  let n := s.part.dies
  [need (!w.bit 26 7 && w.f 29 1 == 0 && w.f 46 2 == 0 && leAt w.bytes 52 12 == 0 && c.obj / 2 ^ 20 == 0),
   need (c.src % 64 == 0 && c.dst % 64 == 0 && c.nt != 0 && c.dfmt != 15),
   need (!c.tr || (c.cols != 0 && c.nt % c.cols == 0)),
   need (!(c.sp && c.dens) && !(c.sp && (c.dfmt == 0 || c.dfmt == 14))),
   need (!g.rescEn || (c.resc % 64 == 0 && c.cols != 0 && decide (c.cols ≤ 512) && isInt f &&
     (s.rescRanges c).all fun r => !mappedRange n r.a r.len || s.rescaleOk r))] ++
  (if mappedRange n c.src 64 && !s.tileOk c.src true then [3] else []) ++
  (if g.src = 2 && f ≤ 14 && mappedRange n c.src (c.nt * tileStride f) &&
      !((List.range c.nt).all fun t => amaxOk (s.hdr (s.cvtTile c t)).amax) then [3] else []) ++
  s.scalingCodes w g c.dfmt false ++ s.groupCodes w c.obj (c.dst, c.nt * tileStride c.dfmt)

/-- The exact value of element (r, k) of a source tile in tile column `tc`: with the rescale factor in place of
TENSOR_SCALE when asked (R189). -/
def State.cvtVal (s : State) (c : Cvt) (resc : Bool) (a : Nat) (h : Hdr) (tc r k : Nat) : Val :=
  if resc then
    let e := s.memN (c.resc + 8 * (128 * tc + k)) 8
    match s.elem a h r k with
    | .fin b n d x => .fin b (n * (e % 2 ^ 32)) d (x - fld e 32 6 - 16)
    | v => v
  else s.elemFull a h r k

/-- The code that an exact transpose gives element (r, k): as stored, or the format's zero where the element is taken as
zero. -/
def State.exactCode (s : State) (a : Nat) (h : Hdr) (r k : Nat) : Nat :=
  let z0 := twos h.zpVal (elemBits h.fmt)
  if r ≥ h.rows || k ≥ h.cols || (h.marked r k && !(s.elemHeld a h r k).isZero) then z0
  else match s.stored a h r k with
    | some i => s.code a h.fmt i
    | none => z0

/-- An exact transpose of one tile (R99): codes moved, no flag raised. -/
def State.exactTile (s : State) (a : Nat) (h : Hdr) (t : NewTile) (asym sparse : Bool) : Converted :=
  let val := fun (r c : Nat) => s.elemFull a h c r
  let pair := fun (r g : Nat) => keepTwo fun k => val r (4 * g + k)
  let kept := fun (r : Nat) =>
    if sparse then (List.range (t.cols / 4)).flatMap fun g =>
      [(4 * g + (pair r g).1, 128 * r + 2 * g), (4 * g + (pair r g).2, 128 * r + 2 * g + 1)]
    else (List.range t.cols).map fun c => (c, 128 * r + c)
  let all := (List.range t.rows).flatMap fun r => (kept r).map fun k => (k.2, s.exactCode a h k.1 r, val r k.1)
  let nibs := if sparse then
      some ((List.range t.rows).flatMap fun r => (List.range (t.cols / 4)).map fun g =>
        (32 * r + g, (pair r g).1 + 4 * (pair r g).2))
    else none
  ⟨all.map fun x => (x.1, x.2.1), [], nibs, 0, all.foldl (fun st x => st.add asym x.2.2 0 x.2.2.isZero) Stats.none⟩

/-- What a run over tiles has found so far. -/
structure Tally where
  flags  : Nat
  poison : Bool
  crc    : Bool
  stats  : Stats
  status : Nat
deriving DecidableEq, Repr

/-- Nothing found. -/
def Tally.none : Tally := ⟨0, false, false, Stats.none, 0⟩

/-- Converts source tile `t` of a CONVERT and writes its destination tile; a refused tile ends the run, and so does one that is no
integer tile under a rescale table (R189). An exact transpose carries TENSOR_SCALE over where the format has one (R22, R99, R168)
and its codes unchanged; an INT8 tile carries only the zero point that R184 gives, and where that is not the source's the elements
are converted at the scale carried over (DEDUCED, assumption 14). -/
def State.cvtOne (w : Work) (g : Scaling) (c : Cvt) (dst : Dest) (first : Nat) (x : State × Tally) (t : Nat) :
    State × Tally :=
  let (s, y) := x
  let a := s.cvtTile c t
  let h := s.hdr a
  if y.status ≠ 0 then x
  else if g.rescEn && !isInt h.fmt then (s, { y with status := 1 })
  else if !s.tileOk a true then (s, { y with status := 3 })
  else
    let (bad, crc) := s.tileBad a
    let (tr, tc) := (t / Nat.max 1 c.cols, if c.cols = 0 then 0 else t % c.cols)
    let q := if c.tr then tc * (c.nt / c.cols) + tr else t
    let rows := if c.tr then h.cols else h.rows
    let cols := if c.tr then h.rows else h.cols
    let cols := if c.sp then (cols + 3) / 4 * 4 else cols
    let exact := c.tr && !isBlock c.dfmt && c.dfmt == h.fmt && !g.rescEn
    let idx := (first + q) % 2 ^ 32
    let asym := (s.hist w.die g.hist).asym && g.histEn
    let dst := if exact && usesScale c.dfmt then { dst with ts := h.ts } else dst
    let moved := exact && (h.fmt != 11 || dst.zp == (if h.zpOn then some h.zp else none))
    let out : NewTile := ⟨c.dfmt, rows, cols, dst.ts, dst.zp, objectId c.obj, idx, bad⟩
    let val := fun (i k : Nat) => if c.tr then s.cvtVal c g.rescEn a h tc k i else s.cvtVal c g.rescEn a h tc i k
    let v := if moved then s.exactTile a h out asym c.sp else convertTile dst out asym c.sp val
    let s' := (s.putTile (c.dst + q * tileStride c.dfmt) out v).bump w.die (Reg.cnvCntLo 0) v.stats.elem
    (s', ⟨Nat.lor y.flags v.flags, y.poison || bad, y.crc || crc, y.stats.merge v.stats, 0⟩)

/-- Ends a descriptor with what a run over tiles found. -/
def State.endTally (s : State) (id : Nat) (y : Tally) : State :=
  s.endWork id fun r =>
    { r with status := y.status, flags := Nat.lor r.flags y.flags, poison := r.poison || y.poison, checksum := r.checksum || y.crc }

/-- Runs a CONVERT that has started: its tiles are converted in source order. No order among the writes is promised (R99), so where
ranges overlap or a tile is refused midway, which destination tiles are written is the model's choice (assumption 14). -/
def State.cvtBody (s : State) (w : Work) : State :=
  let c := w.cvt
  let g := w.cvtScaling
  let s := s.stageIf w c.obj
  let heads := if g.src = 2 then (List.range c.nt).map fun t => (s.hdr (s.cvtTile c t)).amax else []
  let s := if g.src = 2 then s.bump w.die (Reg.cnvCntLo 7) c.nt else s
  let (ts, zp) := s.settle w g c.dfmt (maxNat heads)
  let dst : Dest := ⟨c.dfmt, ts, zp, (rndOf g.rnd).getD .nearest, g.sat, bit w.ftz 3, w.srKey, c.step⟩
  let first := (s.hdr c.src).idx
  let (s, y) := (List.range c.nt).foldl (State.cvtOne w g c dst first) (s, Tally.none)
  (s.queueFold w g y.stats y.poison).endTally w.id y

/-- CONVERT (R191). -/
def execConvert (id : Nat) (s : State) : Res :=
  live s (s.begin id (fun w => w.kind == 0x11) cvtRanges cvtCodes State.cvtBody)

/-! ## History operations (R174, R175, R180 to R187) -/

/-- HIST of a HISTORY descriptor. -/
def Work.hFirst (w : Work) : Nat := w.f 10 2

/-- HCOUNT of a HISTORY descriptor. -/
def Work.hCount (w : Work) : Nat := w.f 12 2 % 2 ^ 13

/-- SRC of a HISTORY descriptor. -/
def Work.hSrc (w : Work) : Nat := w.addr 16

/-- HIST_OP of a HISTORY descriptor. -/
def Work.hOp (w : Work) : Nat := w.f 8 1 % 8

/-- The ranges of a HISTORY descriptor: the templates of an INIT. -/
def histRanges (_ : State) (w : Work) : List Rng := if w.hOp = 0 then [⟨w.hSrc, 64 * w.hCount, false⟩] else []

/-- Whether an INIT template passes R175. -/
def State.histTemplateOk (s : State) (r : HRec) : Bool :=
  let n := r.len * (if r.asym then 8 else 4)
  r.valid && decide (16 ≤ r.len) && decide (r.len ≤ 1024) && decide (r.dest ≤ 0x0D) && (!r.mode || r.ema != 0) &&
    (!r.asym || (r.dest == 11 && r.role == 1)) && goodScale r.init && !r.rsvd && r.entries % 64 == 0 &&
    inHbm s.part.dies r.entries n && r.entries / hbmSize == (r.entries + n - 1) / hbmSize

/-- The codes of a HISTORY descriptor (R174, R175, R651). -/
def histCodes (s : State) (w : Work) : List Nat :=
  let d := w.die
  let hs := (List.range w.hCount).map (w.hFirst + ·)
  [need (w.f 8 2 / 8 == 0 && w.f 12 2 / 2 ^ 13 == 0 && w.f 14 2 == 0 && leAt w.bytes 22 42 == 0 && decide (w.hOp ≤ 3)),
   need (decide (1 ≤ w.hCount) && decide (w.hCount ≤ 4096) && decide (w.hFirst + w.hCount ≤ s.regN d Reg.cnvHistCount)),
   need (w.hOp != 0 || w.hSrc % 64 == 0),
   if s.rbit d Reg.cnvCtrl 1 then 0 else 7] ++
  hs.flatMap (fun h =>
    let r := s.hist d h
    if !s.histIn d h then [2]
    else [need (w.hOp == 0 || r.valid), if r.valid && r.part != w.part then 4 else 0]) ++
  (if w.hOp = 0 && mappedRange s.part.dies w.hSrc (64 * w.hCount) then
    (List.range w.hCount).flatMap fun j =>
      let r := HRec.ofBytes (s.bytes (w.hSrc + 64 * j) 64)
      [need (s.histTemplateOk r), if r.part != w.part then 4 else 0]
   else [])

/-- INIT of one record (Table 06-3). -/
def HRec.initFrom (t : HRec) : HRec :=
  { t with scale := t.init, pend := false, seen := false, head := 0, fill := 0, curMax := 0, curMin := 0, hMax := 0, hMin := 0, elem := 0, sat := 0, uf := 0, nan := 0, step := 0 }

/-- CLEAR of one record (Table 06-3). -/
def HRec.clear (r : HRec) : HRec :=
  { r with head := 0, fill := 0, hMax := 0, hMin := 0, curMax := 0, curMin := 0, seen := false, elem := 0, sat := 0, uf := 0, nan := 0, scale := r.init }

/-- h + (x − h) × 2^(−a) with each operation rounded to nearest in FP32; an infinity takes over, the new entry's first
(R180). -/
def emaStep (h x a : Nat) : Nat :=
  if (fp32.decode x).isInf then x
  else if (fp32.decode h).isInf then h
  else
    let d := (f32sub false false x h).1
    let m := (f32mul false false d ((127 - a) * 2 ^ 23)).1
    (f32add false false h m).1

/-- The maxima (or, in an asymmetric record, the minima at offset 4) of the entries of a record. -/
def State.histEntries (s : State) (r : HRec) (off : Nat) : List Nat :=
  (List.range r.fill).map fun i => s.memN (r.entries + (if r.asym then 8 else 4) * i + off) 4

/-- The FP32 fold of a list that is not empty. -/
def foldBits (f : Nat → Nat → Nat) : List Nat → Nat
  | [] => 0
  | x :: l => l.foldl f x

/-- SCALE and ZERO_POINT derived from the history values (R181 to R183). -/
def HRec.derive (r : HRec) : HRec :=
  let mx := fp32.decode r.hMax
  let mn := fp32.decode r.hMin
  if mx.isInf || (r.asym && mn.isInf) then r
  else if r.asym then
    let lo := if mn.neg then mn else .zero false
    let hi := if mx.neg then .zero false else mx
    match (addVal hi lo.negate).1 with
    | .fin _ n d e =>
      if n = 0 then r
      else
        let sc := deriveScale n d e r.margin 255 r.pow2
        let k := match lo.overScale sc with
          | .fin _ n d e => (roundTo .nearest 0 n d e 0).1
          | _ => 0
        let z : Int := max (-128) (min 127 (-128 + k))
        { r with scale := sc, zp := twos z 8 }
    | _ => r
  else if r.hMax = 0 then r
  else match fmaxOf r.dest with
    | some _ => { r with scale := symScale r.hMax r.dest r.margin r.pow2 }
    | none => r

/-- The cause bits of a recalibration event (R185). -/
def HRec.causes (r : HRec) : Nat :=
  let inf := (fp32.decode r.hMax).isInf || (fp32.decode r.hMin).isInf
  b2n (r.satT != 0 && decide (r.sat * 2 ^ r.satT > r.elem)) + 2 * b2n (r.ufT != 0 && decide (r.uf * 2 ^ r.ufT > r.elem)) +
    4 * b2n inf + 8 * b2n (decide (r.nan > 0))

/-- The part of CLOSE that a step with a fold runs: the entry, the history values and the scale. -/
def State.closeSeen (s : State) (r : HRec) : State × HRec :=
  if !r.seen then (s, r)
  else
    let s := if r.asym then (s.writeN (r.entries + 8 * r.head) 4 r.curMax).writeN (r.entries + 8 * r.head + 4) 4 r.curMin
      else s.writeN (r.entries + 4 * r.head) 4 r.curMax
    let r := { r with head := (r.head + 1) % Nat.max 1 r.len, fill := Nat.min (r.fill + 1) r.len }
    let mx := if !r.mode then foldBits f32maxBits (s.histEntries r 0) else if r.fill = 1 then r.curMax else emaStep r.hMax r.curMax r.ema
    let mn := if !r.mode then foldBits f32minBits (s.histEntries r 4) else if r.fill = 1 then r.curMin else emaStep r.hMin r.curMin r.ema
    (s, ({ r with hMax := mx, hMin := if r.asym then mn else r.hMin }).derive)

/-- CLOSE of one record (R180, R185, R186). -/
def State.closeOne (s : State) (d h : Nat) : State :=
  let (s, r) := s.closeSeen (s.hist d h)
  let home := s.histHome d h
  let c := r.causes
  let post := c != 0 && !r.pend
  let s := if post then
      (s.event r.part 0x01 home srcCnv (natLe 2 h ++ natLe 1 c ++ natLe 1 0 ++ natLe 4 r.step ++ natLe 4 r.elem ++
        natLe 4 r.sat ++ natLe 4 r.uf ++ natLe 4 r.scale)).bump home (Reg.cnvCntLo 5) 1
    else if c != 0 then s.bump home (Reg.cnvCntLo 6) 1
    else s
  let r := { r with pend := r.pend || post, curMax := 0, curMin := 0, seen := false, elem := 0, sat := 0, uf := 0, nan := 0, step := sat32 (r.step + 1) }
  (s.setHist d h r).bump home (Reg.cnvCntLo 4) 1

/-- Runs one history operation over the records of a descriptor in increasing order. `op` acts on the j-th record. -/
def State.histRun (s : State) (id op : Nat) (f : State → Work → Nat → State) : State :=
  s.begin id (fun w => w.kind == 0x12 && (w.hOp == op || (op == 0 && w.hOp > 3))) histRanges histCodes fun s w =>
    ((List.range w.hCount).foldl (fun s j => f s w j) s).endStatus w.id 0

/-- HIST_INIT (R174); a reserved HIST_OP also ends here, with the parameter-error status. -/
def execHistInit (id : Nat) (s : State) : Res :=
  live s (s.histRun id 0 fun s w j =>
    s.setHist w.die (w.hFirst + j) (HRec.ofBytes (s.bytes (w.hSrc + 64 * j) 64)).initFrom)

/-- HIST_CLOSE (R180). -/
def execHistClose (id : Nat) (s : State) : Res :=
  live s (s.histRun id 1 fun s w j => s.closeOne w.die (w.hFirst + j))

/-- HIST_REARM (R174, R187). -/
def execHistRearm (id : Nat) (s : State) : Res :=
  live s (s.histRun id 2 fun s w j =>
    s.setHist w.die (w.hFirst + j) { s.hist w.die (w.hFirst + j) with pend := false })

/-- HIST_CLEAR (R174). -/
def execHistClear (id : Nat) (s : State) : Res :=
  live s (s.histRun id 3 fun s w j => s.setHist w.die (w.hFirst + j) (s.hist w.die (w.hFirst + j)).clear)

end Sys2Proof.Machine
end

