-- ==== Sys2Proof/Machine/Matrix.lean ====
section
/-! DEFINITION. The matrix engines (chapter 4) with zero skipping and 2:4 operands (chapter 5): the MATRIX descriptor, the
stationary front, passes, skips and drains. -/

namespace Sys2Proof.Machine

/-! ## Engines of a partition (Table 14-1, R450, R653) -/

/-- ME_CTRL bit `i` of an engine. -/
def State.meCtrl (s : State) (d e i : Nat) : Bool := s.rbit d (Reg.meCtrl e) i

/-- Whether a matrix engine takes work: enabled, in service, its die not fenced (R130). -/
def State.meOn (s : State) (d e : Nat) : Bool := s.meCtrl d e 0 && !s.unitOut d e && !s.dieOut d

/-- Whether a matrix engine belongs to a partition. -/
def State.meOwned (s : State) (d p e : Nat) : Bool := s.ownsHalf d p (2 * d + e / 2)

/-- A matrix engine at rest. -/
def Eng.idle (d e : Nat) : Eng := ⟨d, e, [], none, 0, none, [], none, 0, 0, [], none⟩

/-- The state of a matrix engine. -/
def State.eng (s : State) (d e : Nat) : Eng := (s.engs.find? fun x => x.d == d && x.e == e).getD (Eng.idle d e)

/-- Replaces the state of a matrix engine. -/
def State.setEng (s : State) (x : Eng) : State :=
  { s with engs := (s.engs.filter fun y => !(y.d == x.d && y.e == x.e)) ++ [x] }

/-- Descriptors started on unit `u` of a die (RAS_UNIT number) and not completed: its queued descriptors (R653). -/
def State.queued (s : State) (d u : Nat) : Nat :=
  (s.seq.works.filter fun w => (w.die == d && w.engine == some u) || w.stages.contains (d, u)).length

/-- What binding to one unit of a kind gives (R450, R653): a status code, the wait code 255, or the unit. `us` are the
units of the kind on the die, `named` the one that UNIT names. -/
def chooseUnit (us : List Nat) (named : Option Nat) (owned on can : Nat → Bool) (queued : Nat → Nat) : Nat × Nat :=
  match named with
  | some u => if !owned u then (4, 0) else if !on u then (7, 0) else if can u then (0, u) else (255, 0)
  | none =>
    let live := us.filter fun u => owned u && on u
    match minBy queued (live.filter can) with
    | some u => (0, u)
    | none => (if live.isEmpty then 7 else 255, 0)

/-- The matrix engine that a descriptor binds to when it starts now (R653). -/
def State.chooseMe (s : State) (w : Work) (unit : Nat) : Nat × Nat :=
  let d := w.die
  chooseUnit [0, 1, 2, 3] (if unit = 0 then none else some (unit - 1)) (s.meOwned d w.part) (s.meOn d)
    (fun e => (s.eng d e).queue.isEmpty && (unit != 0 || !s.spokenFor w (e + 1))) (s.queued d)

/-! ## Operand pairs (Table 04-1) -/

/-- Classes of element formats in Table 04-1: 0 FP32, 1 16-bit, 2 the seven 8- and 6-bit formats, 3 MXFP4 and NB4,
4 INT8, 5 INT4, 6 none. -/
def pairClass (f : Nat) : Nat :=
  match f with
  | 0 => 0 | 1 | 2 => 1 | 3 | 4 | 5 | 6 | 7 | 8 | 10 => 2 | 9 | 13 => 3 | 11 => 4 | 12 => 5 | _ => 6

/-- κ and σ of a pair of stationary and moving formats; none for a pair not in Table 04-1 (R100, R101). -/
def pairOf (fs fx : Nat) : Option (Nat × Nat) :=
  match pairClass fs, pairClass fx with
  | 0, 0 => some (1, 16)
  | 1, 1 | 1, 2 | 1, 3 | 2, 1 | 3, 1 => some (1, 2)
  | 2, 2 | 3, 2 | 2, 3 => some (1, 1)
  | 3, 3 => some (2, 1)
  | 4, 4 | 4, 5 | 5, 4 => some (1, 1)
  | 5, 5 => some (2, 1)
  | _, _ => none

/-! ## The descriptor -/

/-- The fields of a MATRIX descriptor (Table 13-3). -/
structure Mtx where
  x      : Nat
  s      : Nat
  o      : Nat
  m      : Nat
  k      : Nat
  n      : Nat
  gear   : Nat
  acc    : Bool
  ofmt   : Nat
  unit   : Nat
  rsvd   : Nat
  step   : Nat
  kw     : Nat
  cc     : Nat
  span   : Nat
  obj    : Nat
deriving DecidableEq, Repr

/-- The fields of an accepted MATRIX. -/
def Work.mtx (w : Work) : Mtx :=
  let v := w.f 26 8
  ⟨w.addr 8, w.addr 14, w.addr 20, fld v 0 11, fld v 11 20, fld v 31 20, fld v 51 2, fld v 53 1 == 1, fld v 54 4,
    fld v 58 3, fld v 61 3 + w.f 46 1 / 16 + leAt w.bytes 54 10, w.f 34 4, w.f 46 1 % 16, w.f 47 1, w.f 48 2, w.f 50 4⟩

/-- The scaling fields of a MATRIX. -/
def Work.mtxScaling (w : Work) : Scaling := w.scaling 38 39 40 44

/-- Tiles that cover a length. -/
def tilesOf (n : Nat) : Nat := (n + 127) / 128

/-- The gear that GEAR selects (R119): whether it is gear W. -/
def Mtx.gearW (c : Mtx) (wEn : Bool) (sigma : Nat) : Bool :=
  c.gear == 2 || (c.gear == 0 && wEn && decide (c.m ≤ 256) && decide (c.m * sigma < 128))

/-- Whether row reuse is asked for. -/
def Mtx.reuse (c : Mtx) : Bool := c.kw != 0

/-- Whether row reuse may run (R124). -/
def Mtx.reuseOk (c : Mtx) (en gearW : Bool) (kappa fx : Nat) : Bool :=
  !c.reuse ||
    (en && decide (2 ≤ c.kw) && decide (c.kw ≤ 8) && (c.cc == 16 || c.cc == 32 || c.cc == 64 || c.cc == 128) &&
      decide (c.kw * c.cc ≤ 128) && decide (1 ≤ c.span) && !gearW && kappa == 1 && (!isBlock fx || c.cc % 32 == 0))

/-- The ranges of a MATRIX. The strides are those of the formats in the first tile of each operand. -/
def mtxRanges (s : State) (w : Work) : List Rng :=
  let c := w.mtx
  let tx := tilesOf c.m * tilesOf c.k
  let ts := tilesOf c.n * tilesOf c.k
  let dest := tilesOf c.m * tilesOf c.n * tileStride c.ofmt
  [⟨c.x, tx * tileStride (s.srcFmt c.x), false⟩, ⟨c.s, ts * tileStride (s.srcFmt c.s), false⟩, ⟨c.o, dest, true⟩]

/-- κ of a descriptor, doubled for a 2:4 stationary operand (R102), with σ. -/
def State.mtxPair (s : State) (c : Mtx) : Option (Nat × Nat) :=
  let hs := s.hdr c.s
  (pairOf hs.fmt (s.hdr c.x).fmt).map fun p => (if hs.sparse then 2 * p.1 else p.1, p.2)

/-- Whether the incoming accumulator tile at an address may be taken (R101, R138). -/
def State.accTileOk (s : State) (a : Nat) (int : Bool) : Bool :=
  let h := s.hdr a
  h.ok && !h.sparse && (!int || h.fmt == 14)

/-- Whether a stationary tile may be taken (R24, R138). -/
def State.statTileOk (s : State) (a : Nat) : Bool :=
  let h := s.hdr a
  h.ok && (!h.sparse || (h.fmt != 14 && h.cols % 4 == 0 && s.nibblesOk a h))

/-- The engine whose ME_CTRL a descriptor's fields are held against: the one that UNIT names, or the one that a descriptor
without a unit binds to when it can start; none before that (R123, R124). -/
def State.mtxEngine (s : State) (w : Work) : Option Nat :=
  let c := w.mtx
  let (uc, e) := s.chooseMe w c.unit
  if c.unit = 0 then (if uc = 0 then some e else none) else some (c.unit - 1)

/-- The codes that the gear and row-reuse fields give (R119, R123, R124), whether or not the operands can be read: `pair` holds
κ and σ where the operands' formats make a pair, and a condition that nothing decides yet is taken as met. The range of M is
the gear's, and the automatic choice takes gear W only for an M that gear W allows. -/
def State.mtxGearCodes (s : State) (w : Work) (pair : Option (Nat × Nat)) : List Nat :=
  let c := w.mtx
  let on := fun i => match s.mtxEngine w with | some e => s.meCtrl w.die e i | none => true
  let gw := match s.mtxEngine w, pair with
    | some e, some (_, sigma) => c.gearW (s.meCtrl w.die e 1) sigma
    | _, _ => c.gear == 2
  let kappa := match pair with | some p => p.1 | none => 1
  let fx := if pair.isSome then (s.hdr c.x).fmt else 0
  [need (decide (1 ≤ c.m) && decide (c.m ≤ (if c.gear = 2 then 256 else 1024)) && (c.gear != 2 || on 1)),
   need (c.reuseOk (on 2) gw kappa fx)]

/-- The codes that the first tiles of the operands give (R101, R102, R138). -/
def State.mtxFieldCodes (s : State) (w : Work) : List Nat :=
  let c := w.mtx
  let hs := s.hdr c.s
  let hx := s.hdr c.x
  let int := isInt hx.fmt || isInt hs.fmt
  match s.mtxPair c with
  | none => [if hs.fmt ≤ 14 && hx.fmt ≤ 14 then 1 else 3]
  | some _ => [need (!(hs.sparse && hs.fmt == 0) && !hx.sparse && (!int || !c.acc || c.ofmt == 14))]

/-- The codes of a MATRIX beside its ranges. -/
def mtxCodes (s : State) (w : Work) : List Nat :=
  let c := w.mtx
  let g := w.mtxScaling
  let n := s.part.dies
  let uc := (s.chooseMe w c.unit).1
  let fit := mappedRange n c.x 64 && mappedRange n c.s 64
  let out := tilesOf c.m * tilesOf c.n * tileStride c.ofmt
  let int := isInt (s.hdr c.x).fmt
  [need (c.rsvd == 0 && !g.rescEn && c.obj / 2 ^ 20 == 0 && decide (c.unit ≤ 4) && c.gear != 3 && c.ofmt != 15),
   need (c.x % 64 == 0 && c.s % 64 == 0 && c.o % 64 == 0 && c.m != 0 && c.k != 0 && c.n != 0)] ++
  s.mtxGearCodes w (if fit then s.mtxPair c else none) ++ (if fit then s.mtxFieldCodes w else []) ++
  (if fit && (!s.statTileOk c.s || !(s.hdr c.x).ok) then [3] else []) ++
  (if c.acc && mappedRange n c.o 64 && !s.accTileOk c.o int then [3] else []) ++
  s.scalingCodes w g c.ofmt true ++ s.groupCodes w c.obj (c.o, out) ++ (if c.unit ≤ 4 then [uc] else [])

/-! ## Values (R82 to R87, R98, R124 to R126, R136, R139, R141, R142) -/

/-- An operand laid out in tiles: address, format, tiles along the reduction. -/
structure Opnd where
  a   : Nat
  fmt : Nat
  kt  : Nat
deriving DecidableEq, Repr

/-- The tile that holds row r, reduction index k. -/
def Opnd.tile (o : Opnd) (r k : Nat) : Nat := o.a + (r / 128 * o.kt + k / 128) * tileStride o.fmt

/-- The element at row r, reduction index k, without TENSOR_SCALE. -/
def State.opElem (s : State) (o : Opnd) (r k : Nat) : Val :=
  let a := o.tile r k
  s.elem a (s.hdr a) (r % 128) (k % 128)

/-- Whether a subnormal FP32, BF16 or FP16 value is one that ME_DAZ flushes (R91). -/
def dazHits (f : Nat) (v : Val) : Bool :=
  decide (f ≤ 2) &&
    match v with
    | .fin _ n d e => n != 0 && magLt n d e 1 1 (elemFmt f).emin
    | _ => false

/-- An operand value after the input flush, with its flag. -/
def dazVal (daz : Bool) (f : Nat) (v : Val) : Val × Nat := if daz && dazHits f v then (.zero v.neg, Flag.fz) else (v, 0)

/-- Where the moving element of row m, index k comes from under row reuse (R125, R126): none for an index outside the
reduction. -/
def Mtx.moving (c : Mtx) (m k : Nat) : Option (Nat × Nat) :=
  if !c.reuse then some (m, k)
  else
    let r := k % 128
    if r ≥ c.kw * c.cc then none
    else
      let t := Nat.min (r / c.cc) (m % Nat.max 1 c.span)
      some (m - t, k - t * c.cc)

/-- The moving element at row m, index k; zero outside the reduction. -/
def State.movElem (s : State) (c : Mtx) (o : Opnd) (m k : Nat) : Val :=
  match c.moving m k with
  | some (i, j) => s.opElem o i j
  | none => .zero false

/-- Whether the stationary side forms no product at (n, k): its ZMAP marks the block, or a 2:4 tile does not keep the
element (R137, R139, R141). -/
def State.statOut (s : State) (o : Opnd) (n k : Nat) : Bool :=
  let a := o.tile n k
  let h := s.hdr a
  h.marked (n % 128) (k % 128) || (s.stored a h (n % 128) (k % 128)).isNone

/-- The reduction indices of R82 group g. -/
def groupKs (c : Mtx) (g : Nat) : List Nat := ((List.range 32).map (32 * g + ·)).filter fun k => k < c.k

/-- Whether the moving block of rows 32b to 32b + 31 and group g is all zero (R141). -/
def State.movZero (s : State) (c : Mtx) (o : Opnd) (b g : Nat) : Bool :=
  (((List.range 32).map (32 * b + ·)).filter fun m => m < c.m).all fun m =>
    (groupKs c g).all fun k => (s.movElem c o m k).isZero

/-- The products that are formed for output (m, n) in group g, in increasing k, each with its flags (R141, R142). -/
def State.products (s : State) (c : Mtx) (x t : Opnd) (daz : Bool) (m n g : Nat) : List (Val × Nat) :=
  if s.movZero c x (m / 32) g then []
  else (groupKs c g).filterMap fun k =>
    if s.statOut t n k || (c.moving m k).isNone then none
    else
      let (a, fa) := dazVal daz x.fmt (s.movElem c x m k)
      let (b, fb) := dazVal daz t.fmt (s.opElem t n k)
      let (v, f) := mulVal a b
      some (v, Nat.lor f (Nat.lor fa fb))

/-- TENSOR_SCALE of the tile that holds (r, k), as bits. -/
def State.opScale (s : State) (o : Opnd) (r k : Nat) : Nat := if usesScale o.fmt then (s.hdr (o.tile r k)).ts else 0x3F800000

/-- P and its flags after all groups of a floating-point reduction (R82 to R84): the groups `0 … gs − 1` in order. DESIGN
CHOICE (log 14): an incoming accumulator value `p0` that has no place in ACC is rounded to it before the first group, with no
flag, and ME_DAZ does not flush it, since the spec says neither. -/
def State.reduceF (s : State) (c : Mtx) (x t : Opnd) (daz : Bool) (p0 : Option Val) (m n gs : Nat) : Val × Nat :=
  let step := fun (acc : Option Val × Nat) (g : Nat) =>
    let (v, f) := groupSum (s.products c x t daz m n g)
    let v := (v.times (s.opScale x m (32 * g))).times (s.opScale t n (32 * g))
    match acc.1 with
    | none => let (r, f') := accRound v; (some r, Nat.lor acc.2 (Nat.lor f f'))
    | some p => let (r, f') := accAdd p v; (some r, Nat.lor acc.2 (Nat.lor f f'))
  let (v, f) := (List.range gs).foldl step (p0.map fun v => (accRound v).1, 0)
  (v.getD (.zero false), f)

/-- An integer value. -/
def Val.toInt : Val → Int
  | .fin b n _ _ => if b then -(n : Int) else n
  | _ => 0

/-- The sum of an integer reduction, saturating at each addition (R86). -/
def State.reduceI (s : State) (c : Mtx) (x t : Opnd) (p0 : Int) (m n gs : Nat) : Int × Nat :=
  ((List.range gs).flatMap fun g => s.products c x t false m n g).foldl
    (fun acc p => let (v, f) := satAdd32 acc.1 p.1.toInt; (v, Nat.lor acc.2 f)) (p0, 0)

/-- The address of output tile (i, j). -/
def Mtx.oTile (c : Mtx) (i j : Nat) : Nat := c.o + (i * tilesOf c.n + j) * tileStride c.ofmt

/-- The value that output (m, n) hands to the converter, with the flags of its reduction (R87). DESIGN CHOICE (log 14): an
INT32 sum bound for an INT8 or INT4 destination is handed over as TS_a × TS_b × sum, like one bound for a floating-point
destination; R87 names only the latter and INT32. -/
def State.outVal (s : State) (c : Mtx) (x t : Opnd) (daz : Bool) (m n : Nat) : Val × Nat :=
  let gs := (c.k + 31) / 32
  let a := c.oTile (m / 128) (n / 128)
  let h := s.hdr a
  if isInt x.fmt then
    let p0 : Int := if c.acc && m % 128 < h.rows && n % 128 < h.cols then sext (s.code a 14 (128 * (m % 128) + n % 128)) 32 else 0
    let (v, f) := s.reduceI c x t p0 m n gs
    (if c.ofmt = 14 then .ofInt v else ((Val.ofInt v).times (s.opScale x 0 0)).times (s.opScale t 0 0), f)
  else s.reduceF c x t daz (if c.acc then some (s.elemFull a h (m % 128) (n % 128)) else none) m n gs

/-- Whether every tile of the operands and every incoming tile may be taken: a tile that differs from its operand's first
one is refused (R101). -/
def State.mtxTilesOk (s : State) (c : Mtx) (x t : Opnd) : Bool :=
  let hx := s.hdr x.a
  let hs := s.hdr t.a
  let int := isInt x.fmt
  ((List.range (tilesOf c.m * x.kt)).all fun i =>
    let h := s.hdr (x.a + i * tileStride x.fmt)
    h.ok && h.fmt == hx.fmt && !h.sparse && (!int || h.ts == hx.ts)) &&
  ((List.range (tilesOf c.n * t.kt)).all fun i =>
    let a := t.a + i * tileStride t.fmt
    let h := s.hdr a
    s.statTileOk a && h.fmt == hs.fmt && h.sparse == hs.sparse && (!int || h.ts == hs.ts)) &&
  (!c.acc || (List.range (tilesOf c.m * tilesOf c.n)).all fun i => s.accTileOk (c.o + i * tileStride c.ofmt) int)

/-- What the tiles that output tile (i, j) comes from carry: poison and a failed checksum (R26, R27). -/
def State.outBad (s : State) (c : Mtx) (x t : Opnd) (i j : Nat) : Bool × Bool :=
  let l := (List.range x.kt).map (fun k => s.tileBad (x.tile (128 * i) (128 * k))) ++
    (List.range t.kt).map (fun k => s.tileBad (t.tile (128 * j) (128 * k))) ++
    (if c.acc then [s.tileBad (c.oTile i j)] else [])
  (l.any Prod.fst, l.any Prod.snd)

/-- The operands of a descriptor. -/
def State.opnds (s : State) (c : Mtx) : Opnd × Opnd :=
  (⟨c.x, (s.hdr c.x).fmt, tilesOf c.k⟩, ⟨c.s, (s.hdr c.s).fmt, tilesOf c.k⟩)

/-- Writes output tile number `q`, from the values that the operands had at the start (`src`). -/
def State.mtxOne (src : State) (w : Work) (g : Scaling) (c : Mtx) (dst : Dest) (x : State × Tally) (q : Nat) :
    State × Tally :=
  let (s, y) := x
  let (i, j) := (q / tilesOf c.n, q % tilesOf c.n)
  let (ox, os) := src.opnds c
  let (bad, crc) := src.outBad c ox os i j
  let rows := Nat.min 128 (c.m - 128 * i)
  let cols := Nat.min 128 (c.n - 128 * j)
  let out := fun (r k : Nat) => src.outVal c ox os (bit w.ftz 0) (128 * i + r) (128 * j + k)
  let fl := (List.range rows).foldl (fun f r => (List.range cols).foldl (fun f k => Nat.lor f (out r k).2) f) 0
  let t : NewTile := ⟨c.ofmt, rows, cols, dst.ts, dst.zp, objectId c.obj, q, bad⟩
  let asym := (src.hist w.die g.hist).asym && g.histEn
  let v := convertTile dst t asym false fun r k => (out r k).1
  (s.putTile (c.oTile i j) t v,
    ⟨Nat.lor y.flags (Nat.lor fl v.flags), y.poison || bad, y.crc || crc, y.stats.merge v.stats, 0⟩)

/-! ## Passes (R103 to R123, R143, R144) -/

/-- Kp, Np, L and A of a gear (Table 04-2). -/
def kpOf (gearW : Bool) (kappa : Nat) : Nat := if gearW then 32 * kappa else 128 * kappa
/-- Output columns of a pass. -/
def npOf (gearW : Bool) : Nat := if gearW then 2048 else 512
/-- Stationary load interval. -/
def lintOf (gearW : Bool) : Nat := if gearW then 8 else 128
/-- Accumulation gap. -/
def gapOf (gearW : Bool) : Nat := if gearW then 33 else 129

/-- Rows of a pass whose products are all excluded: those of each moving block of 32 rows for which every group of the
chunk is excluded (R144). -/
def State.idleRows (s : State) (c : Mtx) (x t : Opnd) (gearW : Bool) (kappa ch gr : Nat) : Nat :=
  let kp := kpOf gearW kappa
  let np := npOf gearW
  let gs := (List.range (kp / 32)).map (ch * (kp / 32) + ·)
  let ns := ((List.range np).map (gr * np + ·)).filter fun n => n < c.n
  sumNat ((List.range ((c.m + 31) / 32)).map fun b =>
    if gs.all (fun g => s.movZero c x b g || (groupKs c g).all fun k => (c.moving (32 * b) k).isNone || ns.all fun n => s.statOut t n k) then
      Nat.min 32 (c.m - 32 * b)
    else 0)

/-- The passes of a descriptor in issue order: column blocks, then chunks, then the block's column groups (R113). -/
def State.passes (s : State) (id : Nat) (c : Mtx) (gearW : Bool) (kappa sigma : Nat) : List Pass :=
  let (x, t) := s.opnds c
  let np := npOf gearW
  let gn := (c.n + np - 1) / np
  let gk := (c.k + kpOf gearW kappa - 1) / kpOf gearW kappa
  let gb := Nat.max 1 (Nat.min gn (524288 / (c.m * np)))
  (List.range ((gn + gb - 1) / gb)).flatMap fun blk =>
    (List.range gk).flatMap fun ch =>
      (List.range (Nat.min gb (gn - blk * gb))).map fun i =>
        let gr := blk * gb + i
        let idle := s.idleRows c x t gearW kappa ch gr
        ⟨id, gearW, c.m, idle, sigma, idle == c.m, ch + 1 == gk, gr, ch != 0⟩

/-- Runs a MATRIX that has started: binds it to its engine, reduces and converts every output tile, and queues its passes.
The bytes of O are not defined until the descriptor ends (R29), so the converted tiles are held with the descriptor. A tile
refused now ends it with the format error and leaves O undefined (R101). -/
def State.mtxBody (s : State) (w : Work) : State :=
  let c := w.mtx
  let g := w.mtxScaling
  let e := (s.chooseMe w c.unit).2
  let (x, t) := s.opnds c
  let n := tilesOf c.m * tilesOf c.n
  let s := s.stageIf w c.obj
  if !s.mtxTilesOk c x t then (s.scramble c.o (n * tileStride c.ofmt)).endStatus w.id 3
  else
    let (kappa, sigma) := (s.mtxPair c).getD (1, 1)
    let gw := c.gearW (s.meCtrl w.die e 1) sigma
    let ps := s.passes w.id c gw kappa sigma
    let (ts, zp) := s.settle w g c.ofmt 0
    let dst : Dest := ⟨c.ofmt, ts, zp, (rndOf g.rnd).getD .nearest, g.sat, bit w.ftz 3, w.srKey, c.step⟩
    let (r, y) := (List.range n).foldl (State.mtxOne s w g c dst) (s, Tally.none)
    let o := (c.o, r.bytes c.o (n * tileStride c.ofmt))
    let r := r.scramble c.o (n * tileStride c.ofmt)
    let r := r.bump w.die (Reg.cnvCntLo 0) (c.m * c.n)
    let r := r.queueFold w g y.stats y.poison
    let r := r.modWork w.id fun v =>
      { v with started := true, engine := some e, held := [o], res := { v.res with flags := y.flags, poison := y.poison, checksum := y.crc } }
    r.setEng { r.eng w.die e with queue := ps, starts := [] }

/-- MATRIX (R98). -/
def execMatrix (id : Nat) (s : State) : Res :=
  live s (s.begin id (fun w => w.kind == 0x10) mtxRanges mtxCodes State.mtxBody)

/-- Whether a descriptor has nothing left on an engine. -/
def Eng.done (x : Eng) (id : Nat) : Bool :=
  (x.queue.all fun p => p.id != id) && (x.issue.all fun p => p.id != id) && x.fifo.all fun r => r.id != id

/-- Writes the output that a descriptor holds back until it ends (R29). -/
def State.release (s : State) (id : Nat) : State :=
  match s.work id with
  | none => s
  | some w => (w.held.foldl (fun s x => s.write x.1 x.2) s).modWork id fun w => { w with held := [] }

/-- An engine after its run: nothing is left of the run's timing. -/
def Eng.rest (x : Eng) : Eng := { x with prev := none, starts := [], loadAt := none, late := 0, tail := 0, bypass := 0 }

/-- Ends a matrix descriptor whose last row has left the engine, and ends the engine's run when it holds no work. The cycles
since the run's last row was issued are charged to TAIL (R111): `tail` says how many, and they are no fewer than the last rows
take to leave the grid or the drain bypass. -/
def State.settleEng (s : State) (x : Eng) (id tail : Nat) : State :=
  let s := if x.done id then (s.release id).endStatus id 0 else s
  if x.queue.isEmpty && x.issue.isNone && x.fifo.isEmpty then
    (s.setEng x.rest).bump x.d (Reg.meCntLo x.e 8) (Nat.max tail (Nat.max x.tail x.bypass))
  else s.setEng x

/-- STATIONARY_LOAD: the load of the front pass starts (R114 to R116, R656). `staged` is the first cycle of the run at
which R115 allows it; for the first pass of a run, whose load is cycle −1, by how many cycles the operand was late. -/
def execStationaryLoad (d e staged : Nat) (s : State) : Res :=
  onDie s d (
    let x := s.eng d e
    match x.queue, x.loadAt with
    | p :: _, none =>
      if p.skip then s
      else match x.prev with
        | none => s.setEng { x with loadAt := some (-1), late := staged }
        | some t => s.setEng { x with loadAt := some (max (t.start + 1) (max (t.load + t.lint) staged)) }
    | _, _ => s)

/-- Rows waiting in one drain FIFO. -/
def Eng.fill (x : Eng) (k : Nat) : Nat := sumNat ((x.fifo.filter fun r => r.drain == k).map fun r => r.rows)

/-- The drains that a pass's rows reach: four in gear W, the one at row 127 in gear T (R109, R121). -/
def Pass.drains (p : Pass) : List Nat := if p.gearW then [0, 1, 2, 3] else [3]

/-- The rows for which every drain that a pass reaches has a credit (R112, R143). -/
def Eng.credits (x : Eng) (p : Pass) : Nat := p.drains.foldl (fun n k => Nat.min n (1024 - x.fill k)) 1024

/-- Rows of the pass that is issuing enter the drain FIFOs, one credit of each drain for each row, until the pass or the
credits are used up (R112). Rows of earlier chunks end in the accumulator buffer and take none. -/
def Eng.feed (x : Eng) : Eng :=
  match x.issue with
  | none => x
  | some p =>
    let n := if p.last then Nat.min p.rows (x.credits p) else p.rows
    let left := if p.rows ≤ n then none else some { p with rows := p.rows - n }
    { x with issue := left, fifo := x.fifo ++ if p.last && n != 0 then p.drains.map fun k => ⟨k, p.id, n⟩ else [] }

/-- The accumulation bound of a pass: A cycles after the last pass of its column group started (R113). -/
def Eng.accBound (x : Eng) (p : Pass) : Option Int :=
  if p.reads then (kvFind (α := Int) x.starts p.group).map fun t => t + gapOf p.gearW else none

/-- The latest of two times. -/
def maxOpt (a : Int) (b : Option Int) : Int := match b with | some x => max a x | none => a

/-- The cycles before a pass's SWAP, from cycle `from_` on: those that the load makes it wait, then those that the accumulation
gap adds, the pass starting at `start` (R116, R118). -/
def waitOf (from_ loaded start : Int) : Nat × Nat := ((loaded - from_).toNat, (start - max loaded from_).toNat)

/-- The cycles charged to each cause of Table 04-4 for a pass whose SWAP waits `load` cycles for its load and `acc` for the
accumulation gap, as counters 0x1 to 0x5 and 0x8; `b` is what the brake claims and `k` what the drain does. The brake and the drain come before the causes that they overlap, and
cycles in which no started descriptor had a row to issue are no bubbles (R111). Rows of earlier chunks reach no drain. -/
def chargeBubbles (g : Gaps) (b k : Waits) (last : Bool) (load acc : Nat) : List (Nat × Nat) :=
  let t := Nat.min g.idle load
  let lb := Nat.min b.load (load - t)
  let ld := if last then Nat.min k.load (load - t - lb) else 0
  let ab := Nat.min b.acc acc
  let ad := if last then Nat.min k.acc (acc - ab) else 0
  [(1, g.data), (2, load - t - lb - ld), (3, acc - ab - ad), (4, ld + ad + if last then k.rows else 0), (5, lb + ab + b.rows), (8, t)]

/-- The bubbles among the rows of a pass, after its SWAP could go. -/
def insideBubbles (g : Gaps) (b k : Waits) (last : Bool) : Nat := g.data + b.rows + if last then k.rows else 0

/-- PASS_START: the front pass's SWAP slot enters the grid (R103, R108, R110 to R117, R120, R656), once the rows of the pass
before it have all been issued. `g`, `b` and `k` say how many cycles before the SWAP and among the rows the causes of Table 04-4
other than the load and the accumulation gap claim. Rows of the last chunk for which a drain has no credit follow as credits return
(R112). -/
def execPassStart (d e : Nat) (g : Gaps) (b k : Waits) (s : State) : Res :=
  onDie s d (
    let x := s.eng d e
    match x.queue, x.loadAt with
    | p :: rest, some a =>
      if p.skip || x.issue.isSome then s
      else
        let base := match x.prev with | some t => max (t.start + t.busy) (a + 1) | none => a + 1
        let start := maxOpt base (x.accBound p)
        let free := match x.prev with | some t => t.done | none => a + 1 - x.late
        let (load, acc) := waitOf free base start
        let rows := p.rows - p.idle
        let busy : Int := (rows * p.sigma + insideBubbles g b k p.last : Nat)
        let t : PassTime := ⟨start, a, lintOf p.gearW, busy, start + busy⟩
        let c := Reg.meCntLo e
        let s := s.bump d (c 0) (rows * p.sigma)
        let s := (chargeBubbles g b k p.last load acc).foldl (fun s x => s.bump d (c x.1) x.2) s
        let s := s.bump d (c 6) 1
        let s := s.bump d (c 7) (b2n (x.gearW == some (!p.gearW)))
        let s := s.bump d (Reg.meSkipLo e 1) p.idle
        let y : Eng := { x with queue := rest, loadAt := none, late := 0, prev := some t, starts := kvPut x.starts p.group start, issue := some p, tail := 639, bypass := 0, gearW := some p.gearW }
        s.settleEng y.feed p.id 0
    | _, _ => s)

/-- The timing of a skipped pass: the cycles that R116 gives its load and its start, with no load interval and no busy cycle
(R143). -/
def Eng.skipTime (x : Eng) (p : Pass) : PassTime :=
  match x.prev with
  | none => ⟨0, -1, 0, 0, 0⟩
  | some t =>
    let a := max (t.start + 1) (t.load + t.lint)
    ⟨maxOpt (max (t.start + t.busy) (a + 1)) (x.accBound p), a, 0, 0, t.done⟩

/-- PASS_SKIP: the front pass, every product of which is excluded, is skipped with its load and its SWAP, and counts as
started and finished at the cycle R116 would have given it; in the last chunk its rows go through the drain bypass, one a
cycle and with a credit each (R112, R143, R144). -/
def execPassSkip (d e : Nat) (s : State) : Res :=
  onDie s d (
    let x := s.eng d e
    match x.queue with
    | p :: rest =>
      if !p.skip || x.issue.isSome then s
      else
        let t := x.skipTime p
        let s := s.bump d (Reg.meSkipLo e 0) 1
        let y : Eng := { x with queue := rest, prev := some t, starts := kvPut x.starts p.group t.start, issue := some p, bypass := x.bypass + if p.last then p.rows else 0 }
        s.settleEng y.feed p.id 0
    | [] => s)

/-- DRAIN_ROW_TAKE: the converter takes a row from a drain FIFO of the engine whose turn it is, its credit returns, and rows
that waited for credits follow (R112, R192). -/
def execDrainRowTake (k : RowTake) (s : State) : Res :=
  onDie s k.d (
    let d := k.d
    let last := kvGet 3 s.cnvLast d
    match minBy (fun e => (e + 3 - last) % 4) ([0, 1, 2, 3].filter fun e => !(s.eng d e).fifo.isEmpty) with
    | none => s
    | some e =>
      let x := s.eng d e
      match x.fifo with
      | [] => s
      | r :: rest =>
        let f := if r.rows ≤ 1 then rest else { r with rows := r.rows - 1 } :: rest
        let s := ({ s with cnvLast := kvPut s.cnvLast d e }).bump d (Reg.cnvCntLo 1) 1
        s.settleEng { x with fifo := f }.feed r.id k.tail)

end Sys2Proof.Machine
end

