-- ==== Sys2Proof/Machine/Router.lean ====
section
/-! DEFINITION. The token router (chapter 5): the GATE descriptor and the combining of returned rows. Batches of expert
work stand in Machine/Batch.lean, after the exchange that feeds them. -/

namespace Sys2Proof.Machine

/-! ## GATE (R145 to R152, R156) -/

/-- The fields of a GATE descriptor (Table 05-2). -/
structure Gate where
  logits : Nat
  expmap : Nat
  out    : Nat
  t      : Nat
  e      : Nat
  k      : Nat
  spill  : Nat
  fn     : Nat
  renorm : Bool
  ovf    : Nat
  cf     : Nat
  d      : Nat
  quota  : Nat
  rsvd   : Nat
deriving DecidableEq, Repr

/-- The fields of an accepted GATE; `rsvd` sums its reserved bits. -/
def Work.gate (w : Work) : Gate :=
  ⟨w.addr 8, w.addr 14, w.addr 20, w.f 26 2 % 2 ^ 15, w.f 28 2 % 2 ^ 11, w.f 30 1 % 16, fld (w.f 30 1) 4 3,
    w.f 31 1 % 4, w.bit 31 2, fld (w.f 31 1) 3 2, w.f 32 1, w.f 33 1 % 128, w.f 34 2,
    w.f 26 2 / 2 ^ 15 + w.f 28 2 / 2 ^ 11 + w.f 30 1 / 128 + w.f 31 1 / 32 + w.f 33 1 / 128 + w.f 36 2 / 1024 +
      leAt w.bytes 38 26⟩

/-- An expert-map entry (R146): HOME, SLOT, ENABLED, and whether its reserved bits are zero. -/
structure Expert where
  home : Nat
  slot : Nat
  on   : Bool
  ok   : Bool
deriving DecidableEq, Repr

/-- Expert-map entry `e`. -/
def State.expert (s : State) (g : Gate) (e : Nat) : Expert :=
  let v := s.memN (g.expmap + 4 * e) 4
  ⟨v % 2 ^ 16, fld v 16 6, bit v 24, fld v 22 2 == 0 && v / 2 ^ 25 == 0⟩

/-- Whether the expert map passes R146. -/
def State.expmapOk (s : State) (g : Gate) : Bool :=
  let es := (List.range g.e).map fun e => s.expert g e
  let on := es.filter fun x => x.on
  es.all (fun x => x.ok && decide (x.home < g.d)) && decide (g.k ≤ on.length) &&
    (nub (on.map fun x => x.home * 64 + x.slot)).length == on.length

/-- The address of the logits tile that holds token t, expert e. -/
def State.logitTile (s : State) (g : Gate) (t e : Nat) : Nat :=
  g.logits + (t / 128 * tilesOf g.e + e / 128) * tileStride (s.srcFmt g.logits)

/-- The logit of token t for expert e, as FP32 bits. -/
def State.logit (s : State) (g : Gate) (t e : Nat) : Nat :=
  let a := s.logitTile g t e
  let h := s.hdr a
  match s.elem a h (t % 128) (e % 128) with
  | .nan b => fp32.sign b + fp32.nan
  | v => (convFloat fp32 (rne false) v).1

/-- Whether logit `x` ranks before `y` (R147); on a tie the expert listed first stays first. -/
def ranksBefore (x y : Nat) : Bool :=
  let (a, b) := (fp32.decode x, fp32.decode y)
  !a.isNan && (b.isNan || b.lt a)

/-- Inserts an expert with its logit into a ranking, after its equals. -/
def rankInsert (e : Nat × Nat) : List (Nat × Nat) → List (Nat × Nat)
  | [] => [e]
  | x :: l => if ranksBefore e.2 x.2 then e :: x :: l else x :: rankInsert e l

/-- The ranking of a token: enabled experts with their logits, highest first (R147). -/
def State.ranking (s : State) (g : Gate) (t : Nat) : List (Nat × Nat) :=
  (((List.range g.e).filter fun e => (s.expert g e).on).map fun e => (e, s.logit g t e)).foldl (fun l e => rankInsert e l) []

/-- The quota (R148). -/
def Gate.q (g : Gate) : Nat := if g.quota ≠ 0 then g.quota else (g.cf * g.t * g.k + 16 * g.e - 1) / (16 * g.e)

/-- An assignment: token, expert, the rank it was admitted at, the rank it was made at, and its logit. -/
structure Assign where
  token  : Nat
  expert : Nat
  rank   : Nat
  orig   : Nat
  logit  : Nat
deriving DecidableEq, Repr

/-- Admission so far: the assignments admitted, those over quota (token, rank), and how many were dropped. -/
structure Admit where
  kept    : List Assign
  excess    : List (Nat × Nat)
  dropped : Nat
deriving DecidableEq, Repr

/-- Assignments admitted to an expert. -/
def Admit.count (a : Admit) (e : Nat) : Nat := (a.kept.filter fun x => x.expert == e).length

/-- Whether an expert is already admitted for a token. -/
def Admit.has (a : Admit) (t e : Nat) : Bool := a.kept.any fun x => x.token == t && x.expert == e

/-- The first sweep of R149, rank-major. -/
def sweep (g : Gate) (ranks : Nat → List (Nat × Nat)) : Admit :=
  (List.range g.k).foldl (fun a r => (List.range g.t).foldl (fun a t =>
    match (ranks t)[r]? with
    | none => a
    | some (e, l) =>
      if a.count e < g.q then { a with kept := a.kept ++ [⟨t, e, r + 1, r + 1, l⟩] }
      else { a with excess := a.excess ++ [(t, r + 1)] }) a) ⟨[], [], 0⟩

/-- The overflow pass of R149, in token order; without it every assignment over quota is dropped. -/
def spillOver (g : Gate) (ranks : Nat → List (Nat × Nat)) (a : Admit) : Admit :=
  if g.ovf = 0 then { a with dropped := a.excess.length }
  else (List.range g.t).foldl (fun a t =>
    (a.excess.filter fun o => o.1 == t).foldl (fun a o =>
      let try_ := (List.range g.spill).find? fun i =>
        match (ranks t)[g.k + i]? with
        | some (e, _) => !a.has t e && decide (a.count e < g.q)
        | none => false
      match try_ with
      | some i =>
        match (ranks t)[g.k + i]? with
        | some (e, l) => { a with kept := a.kept ++ [⟨t, e, g.k + i + 1, o.2, l⟩] }
        | none => a
      | none => { a with dropped := a.dropped + 1 }) a) a

/-- FP32 division rounded once. -/
def f32div (ftz : Bool) (x y : Nat) : Nat × Nat :=
  let (a, b) := (fp32.decode x, fp32.decode y)
  let (r, f) := rcpVal b
  let (v, f') := mulVal a r
  let (o, f'') := f32out ftz v
  (o, Nat.lor f (Nat.lor f' f''))

/-- FP32 1.0. -/
def f32one : Nat := 0x3F800000

/-- exp(l − m) with its flags. -/
def expDiff (ftz : Bool) (l m : Nat) : Nat × Nat :=
  let (x, f) := f32sub false ftz l m
  let (y, f') := f32op1 expVal false ftz x
  (y, Nat.lor f f')

/-- The FP32 sum of values in order, starting from the first, with its flags. -/
def f32sum (ftz : Bool) (l : List Nat) : Nat × Nat :=
  match l with
  | [] => (0, 0)
  | x :: xs => xs.foldl (fun a y => let (s, f) := f32add false ftz a.1 y; (s, Nat.lor a.2 f)) (x, 0)

/-- The largest of some FP32 numbers. -/
def f32largest (l : List Nat) : Nat := foldBits f32maxBits l

/-- The weights of one token's admitted assignments, in rank order (R150). `all` are the logits of every enabled expert in
rank order. -/
def gateWeights (g : Gate) (ftz : Bool) (adm : List Assign) (all : List Nat) : List Nat × Nat :=
  let soft := fun (excess : List Nat) =>
    let m := f32largest excess
    let es := excess.map fun l => expDiff ftz l m
    let (sum, fs) := f32sum ftz (es.map Prod.fst)
    let ws := adm.map fun a => let (x, f) := expDiff ftz a.logit m; let (y, f') := f32div ftz x sum; (y, Nat.lor f f')
    (ws.map Prod.fst, Nat.lor fs ((es ++ ws).foldl (fun f x => Nat.lor f x.2) 0))
  let renorm := fun (ws : List Nat × Nat) =>
    if g.renorm then
      let (sum, fs) := f32sum ftz ws.1
      let ys := ws.1.map fun w => f32div ftz w sum
      (ys.map Prod.fst, Nat.lor ws.2 (ys.foldl (fun f x => Nat.lor f x.2) fs))
    else ws
  if g.fn = 0 then soft (adm.map fun a => a.logit)
  else if g.fn = 1 then renorm (soft all)
  else
    let ys := adm.map fun a =>
      let (e, f) := f32op1 expVal false ftz (Nat.xor a.logit (2 ^ 31))
      let (d, f') := f32add false ftz f32one e
      let (y, f'') := f32div ftz f32one d
      (y, Nat.lor f (Nat.lor f' f''))
    renorm (ys.map Prod.fst, ys.foldl (fun f x => Nat.lor f x.2) 0)

/-- Admission of a whole descriptor. -/
def State.gateAdmit (s : State) (g : Gate) : Admit :=
  let table := (List.range g.t).map fun t => (s.ranking g t).take (g.k + g.spill)
  let ranks := fun (t : Nat) => (table[t]?).getD []
  spillOver g ranks (sweep g ranks)

/-- The assignments for home h, in slot order and in token order within a slot (R152). -/
def State.sendList (s : State) (g : Gate) (a : Admit) (h : Nat) : List Assign :=
  (List.range 64).flatMap fun slot => (List.range g.t).flatMap fun t =>
    a.kept.filter fun x => x.token == t && (s.expert g x.expert).home == h && (s.expert g x.expert).slot == slot

/-- Whether GATE's own fields and expert map pass (R145, R146). -/
def State.gateOk (s : State) (g : Gate) : Bool :=
  g.rsvd == 0 && g.logits % 64 == 0 && g.expmap % 64 == 0 && g.out % 64 == 0 && decide (1 ≤ g.t) &&
    decide (g.t ≤ 16384) && decide (1 ≤ g.k) && decide (g.k ≤ 8) && decide (g.k ≤ g.e) && decide (g.e ≤ 1024) &&
    g.fn != 3 && decide (g.ovf ≤ 1) && (g.ovf == 1 || g.spill == 0) && g.cf != 0 && decide (g.quota ≤ 16384) &&
    decide (1 ≤ g.d) && decide (g.d ≤ 64) && (!mappedRange s.part.dies g.expmap (4 * g.e) || s.expmapOk g)

/-- Bytes of the logits. -/
def State.logitBytes (s : State) (g : Gate) : Nat := tilesOf g.t * tilesOf g.e * tileStride (s.srcFmt g.logits)

/-- Whether the logits and the map can be read, so that admission is defined. -/
def State.gateReads (s : State) (g : Gate) : Bool :=
  s.gateOk g && mappedRange s.part.dies g.logits (s.logitBytes g) && mappedRange s.part.dies g.expmap (4 * g.e)

/-- A length rounded up to 64 bytes. -/
def up64 (n : Nat) : Nat := (n + 63) / 64 * 64

/-- Bytes that a GATE leaves at OUT: the counts vectors and the send lists. -/
def State.gateOut (s : State) (g : Gate) : Nat :=
  if s.gateReads g then
    let a := s.gateAdmit g
    256 * g.d + sumNat ((List.range g.d).map fun h => up64 (4 * (s.sendList g a h).length))
  else 256 * g.d

/-- The ranges of a GATE. -/
def gateRanges (s : State) (w : Work) : List Rng :=
  let g := w.gate
  [⟨g.logits, s.logitBytes g, false⟩, ⟨g.expmap, 4 * g.e, false⟩, ⟨g.out, s.gateOut g, true⟩]

/-- Whether every logits tile is FP32 or BF16 and passes R24 and R138. -/
def State.logitsOk (s : State) (g : Gate) : Bool :=
  (List.range (tilesOf g.t * tilesOf g.e)).all fun i =>
    let a := g.logits + i * tileStride (s.srcFmt g.logits)
    s.tileOk a false && decide ((s.hdr a).fmt ≤ 1) && (s.hdr a).fmt == s.srcFmt g.logits

/-- Free words of a die's assignment queue (R156, R158). -/
def State.aqFree (s : State) (d : Nat) : Nat := 131072 - (s.aq.filter fun x => x.d == d).length

/-- The codes of a GATE: its fields, the logits' format, TOK_CTRL.ENABLE, and the wait for room in the assignment queue. -/
def gateCodes (s : State) (w : Work) : List Nat :=
  let g := w.gate
  [need (s.gateOk g), if s.rbit w.die Reg.tokCtrl 0 then 0 else 7,
    if s.gateReads g && !s.logitsOk g then 3 else 0,
    if s.gateReads g && s.logitsOk g && decide (s.aqFree w.die < (s.gateAdmit g).kept.length) then 255 else 0]

/-- Runs a GATE that has started. -/
def State.gateBody (s : State) (w : Work) : State :=
  let g := w.gate
  let d := w.die
  let a := s.gateAdmit g
  let ftz := bit w.ftz 2
  let lists := (List.range g.d).map fun h => s.sendList g a h
  let rows := lists.flatten
  let rowOf := fun (x : Assign) => (rows.takeWhile fun y => y != x).length
  let words := (List.range g.t).map fun t =>
    let adm := (List.range (g.k + g.spill + 1)).flatMap fun r => a.kept.filter fun x => x.token == t && x.rank == r
    let (ws, f) := gateWeights g ftz adm ((s.ranking g t).map Prod.snd)
    ((adm.zip ws).map fun x => (⟨d, w.id, t, x.1.expert, x.1.rank, true, x.1.rank != x.1.orig, x.2, x.1.orig, rowOf x.1⟩ : AWord),
      if adm.isEmpty then 0 else f)
  let nans := (List.range g.t).filter fun t => (s.ranking g t).any fun x => (fp32.decode x.2).isNan
  let flags := words.foldl (fun f x => Nat.lor f x.2) (if nans.isEmpty then 0 else Flag.ni)
  let tiles := (List.range (tilesOf g.t * tilesOf g.e)).map fun i => s.tileBad (g.logits + i * tileStride (s.srcFmt g.logits))
  let counts := fun (h : Nat) => (List.range 64).flatMap fun slot =>
    natLe 4 ((a.kept.filter fun x => (s.expert g x.expert).home == h && (s.expert g x.expert).slot == slot).length)
  let moved := (a.kept.filter fun x => x.rank != x.orig).length
  let r := (List.range g.d).foldl (fun r h => r.write (g.out + 256 * h) (counts h)) s
  let (r, _) := lists.foldl (fun (x : State × Nat) l =>
    (x.1.write x.2 (l.flatMap fun y => natLe 4 y.token), x.2 + up64 (4 * l.length))) (r, g.out + 256 * g.d)
  let r := { r with aq := r.aq ++ words.flatMap Prod.fst }
  let c := Reg.tokCntLo
  let r := (r.bump d (c 0) (a.kept.length - moved)).bump d (c 1) moved
  let r := ((r.bump d (c 2) a.dropped).bump d (c 3) g.t).bump d (c 4) nans.length
  r.endWork w.id fun x => { x with flags := flags, poison := tiles.any Prod.fst, checksum := tiles.any Prod.snd }

/-- GATE (R145). -/
def execGate (id : Nat) (s : State) : Res :=
  live s (s.begin id (fun w => w.kind == 0x15) gateRanges gateCodes State.gateBody)

/-! ## ROUTER_COMBINE (R155, R157) -/

/-- The rows of one token's output: w × y of its first assignment, then a fused multiply-add for each further one, by the
rank each was made at. `y x c` is column c of the returned row of assignment x. DESIGN CHOICE (log 22): no flush option of
CNV_FTZ applies to them and no FLAGS report them, since a combine belongs to no descriptor. -/
def combineElem (ws : List AWord) (y : AWord → Nat → Nat) (c : Nat) : Nat × Nat :=
  match ws with
  | [] => (0, 0)
  | x :: xs => xs.foldl (fun a z => let (v, f) := f32fma false false false z.weight (y z c) a.1; (v, Nat.lor a.2 f))
      (f32mul false false x.weight (y x c))

/-- The words as the router reads them: one whose parity fails is delivered with a poison tag, and its weight is then not
known (R157). `parity` numbers the words that fail. -/
def State.deliverWords (s : State) (ws : List AWord) (parity : List Nat) : List AWord × State :=
  ws.zipIdx.foldl (fun x y =>
    if parity.contains y.2 then let (v, s) := x.2.freeVal 32; (x.1 ++ [{ y.1 with weight := v }], s) else (x.1 ++ [y.1], x.2)) ([], s)

/-- How many of `n` words fail their parity. -/
def badWords (parity : List Nat) (n : Nat) : Nat := ((List.range n).filter fun i => parity.contains i).length

/-- Counts the words of a queue of the token router that were delivered with poison (R157, R163, R587). -/
def State.countPoisoned (s : State) (d n : Nat) : State :=
  if n = 0 then s else (s.bumpErr d (Reg.tokCntLo 5) 5 n).bumpErr d (Reg.rasCntLo 4) 4 n

/-- ROUTER_COMBINE: the router of die `d` combines the returned rows at `src` for the oldest gate descriptor in its
assignment queue, into a matrix of a row for each token and `width` columns at `dst`, and takes that descriptor's words from the
queue (R155 to R158); `tw` numbers the words whose parity fails. A returned tile that R24 or R138 refuses is not decoded:
the destination is then left undefined. The output's TENSOR_SCALE is 1.0 and its tiles name no object (log 22). -/
def execRouterCombine (d p src dst : Nat) (tw : TokenWords) (width ofmt rnd : Nat) (sat : Bool) (srStep : W32) (s : State) : Res :=
  onDie s d (
    let (tokens, parity) := (tw.n, tw.parity)
    match s.aq.find? fun x => x.d == d with
    | none => s
    | some first =>
      let (ws, s) := s.deliverWords (s.aq.filter fun x => x.d == d && x.gate == first.gate) parity
      let failed := badWords parity ws.length
      let wt := tilesOf width
      let f := s.srcFmt src
      let tile := fun (row c : Nat) => src + (row / 128 * wt + c / 128) * tileStride f
      let y := fun (x : AWord) (c : Nat) =>
        let a := tile x.row c
        let v := s.elemFull a (s.hdr a) (x.row % 128) (c % 128)
        match v with
        | .nan b => fp32.sign b + fp32.nan
        | v => (convFloat fp32 (rne false) v).1
      let key := s.regPair d (Reg.cnvSrSeedLo p)
      let ent := s.rbit d Reg.cnvSrCtrl 0 && !s.rbit d Reg.seqDet p
      let (key, s0) := if ent then s.freeVal 64 else (key, s)
      let dst' : Dest := ⟨ofmt, f32one, none, (rndOf rnd).getD .nearest, sat, s.rbit d (Reg.cnvFtz p) 3, key, srStep.toNat⟩
      let mine := fun (t : Nat) => (List.range 16).flatMap fun r => ws.filter fun x => x.token == t && x.orig == r
      let s1 := (List.range (tilesOf tokens * wt)).foldl (fun r q =>
        let (i, j) := (q / wt, q % wt)
        let rows := Nat.min 128 (tokens - 128 * i)
        let cols := Nat.min 128 (width - 128 * j)
        let used := (List.range rows).flatMap fun t => mine (128 * i + t)
        let bad := failed != 0 || used.any fun x => (s.tileBad (tile x.row (128 * j))).1
        let out : NewTile := ⟨ofmt, rows, cols, f32one, none, 0xFFFFFFFF, q, bad⟩
        let v := convertTile dst' out false false fun t c => fp32.decode (combineElem (mine (128 * i + t)) y (128 * j + c)).1
        r.putTile (dst + q * tileStride ofmt) out v) s0
      let good := ws.all fun x => (List.range wt).all fun j => s.tileOk (tile x.row (128 * j)) false && (s.hdr (tile x.row (128 * j))).fmt == f
      let s1 := if good then s1 else s.scramble dst (tilesOf tokens * wt * tileStride ofmt)
      let s1 := s1.countPoisoned d failed
      { s1 with aq := s1.aq.filter fun x => !(x.d == d && x.gate == first.gate) })

end Sys2Proof.Machine
end

