-- ==== Sys2Proof/Machine/Crypto.lean ====
section
/-! DEFINITION. SHA-384 (R572 to R574), as FIPS 180-4 gives it: the digest of the measurement log, of certificates and of
firmware images; and AES-256 in Galois/Counter Mode (R277), as FIPS 197 and NIST SP 800-38D give it. -/

namespace Sys2Proof.Machine

/-- A 64-bit word rotated right. -/
def rotr64 (x n : Nat) : Nat := x / 2 ^ n + x % 2 ^ n * 2 ^ (64 - n)

/-- Sum of words modulo 2^64. -/
def add64 (xs : List Nat) : Nat := sumNat xs % 2 ^ 64

/-- Exclusive or of three words. -/
def xor3 (a b c : Nat) : Nat := Nat.xor (Nat.xor a b) c

/-- The round constants, first half. -/
def shaKLo : List Nat :=
  [0x428A2F98D728AE22, 0x7137449123EF65CD, 0xB5C0FBCFEC4D3B2F, 0xE9B5DBA58189DBBC, 0x3956C25BF348B538,
   0x59F111F1B605D019, 0x923F82A4AF194F9B, 0xAB1C5ED5DA6D8118, 0xD807AA98A3030242, 0x12835B0145706FBE,
   0x243185BE4EE4B28C, 0x550C7DC3D5FFB4E2, 0x72BE5D74F27B896F, 0x80DEB1FE3B1696B1, 0x9BDC06A725C71235,
   0xC19BF174CF692694, 0xE49B69C19EF14AD2, 0xEFBE4786384F25E3, 0x0FC19DC68B8CD5B5, 0x240CA1CC77AC9C65,
   0x2DE92C6F592B0275, 0x4A7484AA6EA6E483, 0x5CB0A9DCBD41FBD4, 0x76F988DA831153B5, 0x983E5152EE66DFAB,
   0xA831C66D2DB43210, 0xB00327C898FB213F, 0xBF597FC7BEEF0EE4, 0xC6E00BF33DA88FC2, 0xD5A79147930AA725,
   0x06CA6351E003826F, 0x142929670A0E6E70, 0x27B70A8546D22FFC, 0x2E1B21385C26C926, 0x4D2C6DFC5AC42AED,
   0x53380D139D95B3DF, 0x650A73548BAF63DE, 0x766A0ABB3C77B2A8, 0x81C2C92E47EDAEE6, 0x92722C851482353B]

/-- The round constants, second half. -/
def shaKHi : List Nat :=
  [0xA2BFE8A14CF10364, 0xA81A664BBC423001, 0xC24B8B70D0F89791, 0xC76C51A30654BE30, 0xD192E819D6EF5218,
   0xD69906245565A910, 0xF40E35855771202A, 0x106AA07032BBD1B8, 0x19A4C116B8D2D0C8, 0x1E376C085141AB53,
   0x2748774CDF8EEB99, 0x34B0BCB5E19B48A8, 0x391C0CB3C5C95A63, 0x4ED8AA4AE3418ACB, 0x5B9CCA4F7763E373,
   0x682E6FF3D6B2B8A3, 0x748F82EE5DEFB2FC, 0x78A5636F43172F60, 0x84C87814A1F0AB72, 0x8CC702081A6439EC,
   0x90BEFFFA23631E28, 0xA4506CEBDE82BDE9, 0xBEF9A3F7B2C67915, 0xC67178F2E372532B, 0xCA273ECEEA26619C,
   0xD186B8C721C0C207, 0xEADA7DD6CDE0EB1E, 0xF57D4F7FEE6ED178, 0x06F067AA72176FBA, 0x0A637DC5A2C898A6,
   0x113F9804BEF90DAE, 0x1B710B35131C471B, 0x28DB77F523047D84, 0x32CAAB7B40C72493, 0x3C9EBE0A15C9BEBC,
   0x431D67C49C100D4C, 0x4CC5D4BECB3E42B6, 0x597F299CFC657E2A, 0x5FCB6FAB3AD6FAEC, 0x6C44198C4A475817]

/-- The initial hash value of SHA-384. -/
def sha384Init : List Nat :=
  [0xCBBB9D5DC1059ED8, 0x629A292A367CD507, 0x9159015A3070DD17, 0x152FECD8F70E5939, 0x67332667FFC00B31,
   0x8EB44A8768581511, 0xDB0C2E0D64F98FA7, 0x47B5481DBEFA4FA4]

/-- The message schedule: the last 16 words, newest first, and how many more words to make. Oldest word out first. -/
def shaSchedule : Nat → List Nat → List Nat
  | 0, w => w
  | n + 1, w =>
    let x := fun (i : Nat) => (w[w.length - i]?).getD 0
    let s0 := xor3 (rotr64 (x 15) 1) (rotr64 (x 15) 8) (x 15 / 2 ^ 7)
    let s1 := xor3 (rotr64 (x 2) 19) (rotr64 (x 2) 61) (x 2 / 2 ^ 6)
    shaSchedule n (w ++ [add64 [s1, x 7, s0, x 16]])

/-- One round: the working variables, the constant and the schedule word. -/
def shaRound (v : List Nat) (kw : Nat × Nat) : List Nat :=
  match v with
  | [a, b, c, d, e, f, g, h] =>
    let s1 := xor3 (rotr64 e 14) (rotr64 e 18) (rotr64 e 41)
    let ch := Nat.xor (Nat.land e f) (Nat.land (2 ^ 64 - 1 - e) g)
    let t1 := add64 [h, s1, ch, kw.1, kw.2]
    let s0 := xor3 (rotr64 a 28) (rotr64 a 34) (rotr64 a 39)
    let maj := xor3 (Nat.land a b) (Nat.land a c) (Nat.land b c)
    [add64 [t1, s0, maj], a, b, c, add64 [d, t1], e, f, g]
  | _ => v

/-- One 128-byte block into the hash value. -/
def shaBlock (h : List Nat) (block : List Byte) : List Nat :=
  let w := shaSchedule 64 ((List.range 16).map fun i => beAt block (8 * i) 8)
  let v := ((shaKLo ++ shaKHi).zip w).foldl shaRound h
  (h.zip v).map fun x => add64 [x.1, x.2]

/-- The message padded to whole blocks: a one bit, zeros and the length in bits. -/
def shaPad (bs : List Byte) : List Byte :=
  let n := bs.length
  bs ++ [0x80] ++ List.replicate ((128 - (n + 17) % 128) % 128) 0 ++ natBe 16 (8 * n)

/-- SHA-384 of a sequence of bytes: 48 bytes. -/
def sha384 (bs : List Byte) : List Byte :=
  let m := shaPad bs
  let h := (List.range (m.length / 128)).foldl (fun h i => shaBlock h ((m.drop (128 * i)).take 128)) sha384Init
  (h.take 6).flatMap (natBe 8)

/-! ## AES-256 in Galois/Counter Mode -/

/-- Twice an element of the field of AES. -/
def aesDouble (a : Nat) : Nat := if 128 ≤ a then Nat.xor (2 * a - 256) 0x1B else 2 * a

/-- The product of two elements of the field of AES; the first argument bounds the bits of the multiplier. -/
def aesMul : Nat → Nat → Nat → Nat
  | 0, _, _ => 0
  | n + 1, a, b => Nat.xor (if b % 2 = 1 then a else 0) (aesMul n (aesDouble a) (b / 2))

/-- The inverse in the field of AES, 0 for 0: the 254th power. -/
def aesInv (a : Nat) : Nat :=
  let m := aesMul 8
  let a2 := m a a
  let a3 := m a2 a
  let a6 := m a3 a3
  let a12 := m a6 a6
  let a15 := m a12 a3
  let a30 := m a15 a15
  let a60 := m a30 a30
  let a120 := m a60 a60
  let a126 := m a120 a6
  let a127 := m a126 a
  m a127 a127

/-- A byte rotated left. -/
def rotl8 (a n : Nat) : Nat := a * 2 ^ n % 256 + a / 2 ^ (8 - n)

/-- SubBytes of one byte. -/
def aesSub (a : Nat) : Nat :=
  let x := aesInv a
  Nat.xor (xor3 (xor3 x (rotl8 x 1) (rotl8 x 2)) (rotl8 x 3) (rotl8 x 4)) 0x63

/-- The exclusive or of two lists, item by item. -/
def xorList (a b : List Nat) : List Nat := List.zipWith Nat.xor a b

/-- The key schedule from word `i` on, of four bytes each: how many more words, the words so far. -/
def aesExpand : Nat → Nat → List (List Nat) → List (List Nat)
  | 0, _, w => w
  | n + 1, i, w =>
    let last := (w[i - 1]?).getD []
    let t := if i % 8 = 0 then xorList ((last.drop 1 ++ last.take 1).map aesSub) [((List.range (i / 8 - 1)).foldl (fun c _ => aesDouble c) 1), 0, 0, 0]
      else if i % 8 = 4 then last.map aesSub else last
    aesExpand n (i + 1) (w ++ [xorList ((w[i - 8]?).getD []) t])

/-- The 15 round keys of AES-256, 16 bytes each. -/
def aesKeys (key : List Nat) : List (List Nat) :=
  let w := aesExpand 52 8 ((List.range 8).map fun i => (key.drop (4 * i)).take 4)
  (List.range 15).map fun r => ((w.drop (4 * r)).take 4).flatten

/-- ShiftRows: column by column, row r comes from r columns on. -/
def aesShift (s : List Nat) : List Nat := (List.range 16).map fun i => (s[(i + 4 * (i % 4)) % 16]?).getD 0

/-- MixColumns. -/
def aesMix (s : List Nat) : List Nat :=
  (List.range 16).map fun i =>
    let at_ := fun (k : Nat) => (s[i / 4 * 4 + (i + k) % 4]?).getD 0
    Nat.xor (xor3 (aesDouble (at_ 0)) (Nat.xor (aesDouble (at_ 1)) (at_ 1)) (at_ 2)) (at_ 3)

/-- One block through AES-256. -/
def aesBlock (keys : List (List Nat)) (s : List Nat) : List Nat :=
  let key := fun (r : Nat) => (keys[r]?).getD []
  let sub := fun (s : List Nat) => aesShift (s.map aesSub)
  let s := (List.range 13).foldl (fun s r => xorList (aesMix (sub s)) (key (r + 1))) (xorList s (key 0))
  xorList (sub s) (key 14)

/-- The product of two blocks in the field of GHASH, whose first bit is the most significant. -/
def ghashMul : Nat → Nat → Nat → Nat → Nat
  | 0, _, _, z => z
  | n + 1, x, v, z =>
    let z := if x / 2 ^ n % 2 = 1 then Nat.xor z v else z
    ghashMul n x (if v % 2 = 1 then Nat.xor (v / 2) (0xE1 * 2 ^ 120) else v / 2) z

/-- Bytes padded with zeros to whole blocks. -/
def gcmPad (bs : List Byte) : List Byte := bs ++ List.replicate ((16 - bs.length % 16) % 16) 0

/-- GHASH of whole blocks. -/
def ghash (h : Nat) (bs : List Byte) : Nat :=
  (List.range (bs.length / 16)).foldl (fun y i => ghashMul 128 (Nat.xor y (beAt bs (16 * i) 16)) h 0) 0

/-- A number as its 16 bytes in network order. -/
def blockOf (n : Nat) : List Nat := (natBe 16 n).map fun b => b.toNat

/-- AES-256-GCM under a 96-bit IV: the ciphertext and the 16-byte tag over the additional data and it. -/
def gcmSeal (key : List Nat) (iv : Nat) (aad plain : List Byte) : List Byte × List Byte :=
  let keys := aesKeys key
  let block := fun (i : Nat) => (aesBlock keys (blockOf (iv * 2 ^ 32 + i % 2 ^ 32))).map (BitVec.ofNat 8)
  let stream := (List.range ((plain.length + 15) / 16)).flatMap fun i => block (i + 2)
  let cipher := List.zipWith (fun (a b : Byte) => a ^^^ b) plain stream
  let h := beNat ((aesBlock keys (blockOf 0)).map (BitVec.ofNat 8))
  let y := ghash h (gcmPad aad ++ gcmPad cipher ++ natBe 8 (8 * aad.length) ++ natBe 8 (8 * cipher.length))
  (cipher, List.zipWith (fun (a b : Byte) => a ^^^ b) (natBe 16 y) (block 1))

end Sys2Proof.Machine
end

