-- ==== Sys2Proof/Machine/Frames.lean ====
section
/-! DEFINITION. The bytes of the frames that a port sends: the headers of Tables 09-4, 10-1, 10-2, 11-5, 12-3, 17-3 and 19-3, the IP
and UDP headers of R293, the frame around them, and its protection by MACsec (R277). -/

namespace Sys2Proof.Machine

/-! ## Checksums -/

/-- One bit of the register of the CRC-32 of IEEE 802.3. -/
def fcsBit (c : Nat) : Nat := if c % 2 = 1 then Nat.xor (c / 2) 0xEDB88320 else c / 2

/-- One byte into that register. -/
def fcsByte (c : Nat) (b : Byte) : Nat :=
  fcsBit (fcsBit (fcsBit (fcsBit (fcsBit (fcsBit (fcsBit (fcsBit (Nat.xor c b.toNat))))))))

/-- The FCS of a frame, in the order of its bytes on the wire. -/
def fcsOf (bs : List Byte) : List Byte := natLe 4 (Nat.xor (bs.foldl fcsByte 0xFFFFFFFF) 0xFFFFFFFF)

/-- The sum of 16-bit words in network order; an odd last byte is padded with zero. -/
def sum16 : List Byte → Nat
  | [] => 0
  | [a] => 256 * a.toNat
  | a :: b :: bs => 256 * a.toNat + b.toNat + sum16 bs

/-- Whether words that include their Internet checksum sum as they should. -/
def sumOk (bs : List Byte) : Bool := decide (sum16 bs % 65535 = 0)

/-- The Internet checksum of words in which its own field is zero. -/
def ipSum (bs : List Byte) : Nat :=
  let n := sum16 bs
  65535 - (if n = 0 then 0 else (n - 1) % 65535 + 1)

/-! ## Headers -/

/-- The 8 bytes of the link header (Table 09-4). -/
def LinkHdr.bytes (h : LinkHdr) : List Byte :=
  natBe 2 (h.seq % 4096 + 4096 * h.kind) ++ natBe 2 (h.ack % 4096) ++ natBe 1 (h.width % 16 + 16 * (h.group % 8)) ++ natBe 1 (h.prio % 8) ++
    natBe 2 h.etype

/-- The 32 bytes of the wheel header (Table 11-5). -/
def wheelHead (f : WheelFrame) : List Byte :=
  natBe 1 (f.kind % 16 + 16 * (f.ver % 4)) ++
    natBe 1 (f.phase % 2 + 2 * (f.dir % 2) + 4 * b2n f.last + 8 * b2n f.poison + 16 * (f.slice % 8)) ++
    natBe 2 (f.seq % 4096) ++ natBe 2 (f.group % 4096) ++ natBe 4 f.coll ++ natBe 1 (f.srcRank % 64) ++ natBe 1 (f.dstRank % 64) ++
    natBe 2 (f.dstXyz % 2 ^ 14) ++ natBe 2 (f.srcXyz % 2 ^ 14) ++ natBe 4 f.index ++ natBe 2 f.piece ++ natBe 2 f.payload.length ++
    natBe 4 f.credit ++ natBe 2 (f.ack % 4096) ++ natBe 2 0

/-- The 32 bytes of the commit header (Table 12-3). -/
def commitHead (f : CommitFrame) : List Byte :=
  natBe 1 (f.kind % 16 + 16 * (f.ver % 4) + 64 * b2n f.poison) ++ natBe 1 (f.verdict % 4) ++ natBe 2 (f.seq % 4096) ++
    natBe 2 (f.ack % 4096) ++ natBe 1 (f.domain % 16) ++ natBe 1 f.gen ++ natBe 4 f.commit ++ natBe 2 (f.srcRank % 2048) ++
    natBe 2 (f.dstXyz % 2 ^ 14) ++ natBe 2 (f.srcXyz % 2 ^ 14) ++ natBe 2 f.hold ++ natBe 6 f.offset ++ natBe 2 f.payload.length ++
    natBe 2 (f.causeRank % 2048) ++ natBe 1 f.cause ++ natBe 1 0

/-- The 48 bytes of the discovery header (Table 17-3). -/
def discHead (f : DiscFrame) : List Byte :=
  let three := fun (u : Int × Int × Int) => natBe 2 (twos u.1 16) ++ natBe 2 (twos u.2.1 16) ++ natBe 2 (twos u.2.2 16)
  natBe 1 (f.kind % 16 + 16 * (f.ver % 4) + 64 * b2n f.estab) ++ natBe 1 (f.role % 8) ++ natBe 1 f.part ++ natBe 1 f.stepping ++
    natBe 1 (f.noroot % 2) ++ natBe 3 0 ++ natBe 8 f.serial ++ three f.u ++ three f.min ++ three f.max ++
    natBe 2 f.g.1 ++ natBe 2 f.g.2.1 ++ natBe 2 f.g.2.2 ++ natBe 8 0

/-- The 32 bytes of the change header (Table 19-3). -/
def changeHead (f : ChangeFrame) : List Byte :=
  natBe 1 (f.kind % 16 + 16 * (f.ver % 4)) ++ natBe 1 (f.role % 8) ++ natBe 2 f.seq ++ natBe 2 (f.origin % 2 ^ 14) ++
    natBe 2 (f.subject % 2 ^ 14 + 2 ^ 14 * b2n f.side) ++ natBe 8 f.serial ++ natBe 16 0

/-- A MAC Control frame from its opcode: PAUSE, or priority flow control with its vector and eight times (IEEE 802.3 Annex 31B and
802.1Qbb, Table 09-1). -/
def pauseBody (f : PauseFrame) : List Byte :=
  if f.pfc then
    natBe 2 0x0101 ++ natBe 2 (sumNat (f.times.map fun x => 2 ^ x.1)) ++
      (List.range 8).flatMap fun p => natBe 2 (((f.times.find? fun x => x.1 == p).map Prod.snd).getD 0)
  else natBe 2 1 ++ natBe 2 ((f.times.head?.map Prod.snd).getD 0)

/-! ## Transport packets (R292 to R297) -/

/-- Bytes of headers after the base header of a packet (Table 10-2). -/
def packetExtra (k : Packet) : Nat :=
  match k.opcode with
  | 1 => 16 + (if k.notify && k.last then 4 else 0)
  | 2 => 16
  | 4 => 4
  | 5 => 4
  | _ => 0

/-- The 16-byte base header (Table 10-1). -/
def xtBase (k : Packet) : List Byte :=
  natBe 1 k.opcode ++
    natBe 1 (b2n k.first + 2 * b2n k.last + 4 * b2n k.fence + 8 * b2n k.notify + 16 * b2n k.poison + 32 * b2n k.ackReq + 64) ++
    natBe 3 k.dstConn ++ natBe 1 (k.prio % 8) ++ natBe 3 k.psn ++ natBe 3 k.msn ++ natBe 4 k.moff

/-- RETH: KEY, ROFF with its bits [63:48] zero, and LEN (R296). -/
def xtReth (k : Packet) : List Byte := natBe 4 k.key ++ natBe 8 (k.roff % 2 ^ 48) ++ natBe 4 k.len

/-- The headers after the base header (Table 10-2). -/
def xtExtra (k : Packet) : List Byte :=
  match k.opcode with
  | 1 => xtReth k ++ (if k.notify && k.last then natBe 4 k.imm.toNat else [])
  | 2 => xtReth k
  | 4 => natBe 1 k.synd ++ natBe 3 k.aMsn
  | 5 => natBe 1 k.synd ++ natBe 3 k.aMsn
  | _ => []

/-- The transport headers, the payload and the ICRC over them (R297). -/
def xtBytes (k : Packet) : List Byte :=
  let b := xtBase k ++ xtExtra k ++ k.payload
  b ++ natBe 4 (crc32c b)

/-- The UDP datagram: its checksum is zero on IPv4 and generated on IPv6, where zero is sent as all ones (R293). -/
def udpBytes (h : IpHead) (body : List Byte) : List Byte :=
  let len := 8 + body.length
  let seg := fun (sum : Nat) => natBe 2 h.sport ++ natBe 2 h.dport ++ natBe 2 len ++ natBe 2 sum ++ body
  if h.v6 then
    let c := ipSum (natBe 16 h.src ++ natBe 16 h.dst ++ natBe 4 len ++ natBe 4 17 ++ seg 0)
    seg (if c = 0 then 0xFFFF else c)
  else seg 0

/-- The IP packet of a transport packet (R293): IPv4 without options, DF set, TTL 64 and a generated checksum, its Identification
open; IPv6 without extension headers, hop limit 64 and flow label 0. DSCP stands in the upper six bits of the traffic class, ECN is
zero. -/
def ipBytes (k : Packet) (h : IpHead) : List Byte :=
  let udp := udpBytes h (xtBytes k)
  if h.v6 then
    natBe 4 (6 * 2 ^ 28 + 4 * h.dscp * 2 ^ 20) ++ natBe 2 udp.length ++ natBe 1 17 ++ natBe 1 64 ++ natBe 16 h.src ++ natBe 16 h.dst ++ udp
  else
    let head := fun (sum : Nat) =>
      natBe 1 0x45 ++ natBe 1 (4 * h.dscp) ++ natBe 2 (20 + udp.length) ++ natBe 2 (Config.ipIdent k.dstConn k.psn) ++ natBe 2 0x4000 ++
        natBe 1 64 ++ natBe 1 17 ++ natBe 2 sum ++ natBe 4 h.src ++ natBe 4 h.dst
    head (ipSum (head 0)) ++ udp

/-! ## Frames -/

/-- EtherType and payload of what a frame carries. -/
def TxItem.body : TxItem → Nat × List Byte
  | .ctl => (0, [])
  | .pause f => (0x8808, pauseBody f)
  | .frame f => (f.etype, f.payload)
  | .packet k ip => (if ip.v6 then 0x86DD else 0x0800, ipBytes k ip)
  | .wheel f => (0x88B6, wheelHead f ++ f.payload)
  | .commit f => (0x88B7, commitHead f ++ f.payload)
  | .disc f => (0x88B8, discHead f)
  | .change f => (0x88B9, changeHead f)

/-- The tag control information of a frame that leaves with an 802.1Q tag. -/
def TxItem.tci : TxItem → Option Nat
  | .frame f => f.tag
  | .packet k ip => ip.vlan.map fun v => v + 8192 * (k.prio % 8)
  | _ => none

/-- The destination address of a frame: the group address of MAC Control frames, the one it names, or on a torus port, where no
other is given, broadcast (assumption 75). -/
def TxFrame.dst (f : TxFrame) : Nat :=
  match f.item with
  | .pause _ => 0x0180C2000001
  | _ => if f.mac = 0 then 2 ^ 48 - 1 else f.mac

/-- A frame from after its source address to before its FCS, without MACsec: on an active Ximel Link EtherType 0x88B5 and the link
header come first (R280), then any tag, and the EtherType and payload. -/
def TxFrame.inner (f : TxFrame) (link : Option LinkHdr) : List Byte :=
  let (etype, body) := f.item.body
  let own := (match f.item.tci with | some t => natBe 2 0x8100 ++ natBe 2 t | none => []) ++ natBe 2 etype ++ body
  match link with
  | some h => natBe 2 0x88B5 ++ h.bytes ++ (if h.kind = 0 then own else [])
  | none => own

/-- The SecTAG: EtherType 0x88E5, an explicit SCI with encryption on, the association number, the low half of the packet number, and
the SCI, which is the port's address followed by port identifier 1 (R277, assumption 75). -/
def secTag (an pn mac short : Nat) : List Byte :=
  natBe 2 0x88E5 ++ natBe 1 (0x2C + an % 4) ++ natBe 1 short ++ natBe 4 pn ++ natBe 6 mac ++ natBe 2 1

/-- The frame on the wire: padded to 64 bytes, protected under an association where there is one, with its FCS. -/
def wireFrame (mac : Nat) (f : TxFrame) (link : Option LinkHdr) (sec : Option (Sa × Nat)) : List Byte :=
  let head := natBe 6 f.dst ++ natBe 6 mac
  let body := f.inner link
  let bs := match sec with
    | none => padTo (Nat.max 60 (12 + body.length)) (head ++ body)
    | some (a, pn) =>
      let tag := secTag a.an pn mac (if body.length < 48 then body.length else 0)
      let iv := Nat.xor (a.ssci.toNat * 2 ^ 64 + pn % 2 ^ 64) a.salt.toNat
      let (c, icv) := gcmSeal ((natBe 32 a.key.toNat).map fun b => b.toNat) iv (head ++ tag) body
      let x := head ++ tag ++ c ++ icv
      padTo (Nat.max 60 x.length) x
  bs ++ fcsOf bs

end Sys2Proof.Machine
end

