-- ==== Sys2Proof/Machine/Ethernet.lean ====
section
/-! DEFINITION. Ethernet ports and Ximel Link (chapter 9): the checks on received frames, pools and pauses, transmission,
MACsec, the sequenced link of R281 to R283 that Ximel Link, the wheel and the commit logic share, lane narrowing, and
retraining. -/

namespace Sys2Proof.Machine

/-! ## Ports -/

/-- A port right after its group's reset. Rotation starts at priority 0. -/
def Eth.idle (d : Nat) : Eth := ⟨d, [], 6, [], [], [], [], [], 0, none, false, none, []⟩

/-- The port of a die. -/
def State.eth (s : State) (d : Nat) : Eth := (s.eths.find? fun e => e.d == d).getD (Eth.idle d)

/-- Changes the port of a die. -/
def State.modEth (s : State) (d : Nat) (f : Eth → Eth) : State :=
  if s.eths.any fun e => e.d == d then { s with eths := mapIf (fun e => e.d == d) f s.eths }
  else { s with eths := s.eths ++ [f (Eth.idle d)] }

/-- Torus ports of a part: all but the side ports 6 and 7 of a T8 (R8, R15). -/
def Part.torusPorts (p : Part) : Nat := Nat.min 6 p.dies

/-- ETH_STATUS.LINK_UP. -/
def State.portUp (s : State) (d : Nat) : Bool := s.rbit d Reg.ethStatus 0

/-- ETH_STATUS.XIMEL_ACTIVE. -/
def State.ximelOn (s : State) (d : Nat) : Bool := s.rbit d Reg.ethStatus 1

/-- One of the settings ETH_CTRL (0), ETH_MAC_LO (1), ETH_MAC_HI (2) and ETH_MAXFRM (3) in force: as latched when the link came
up, or the register while it is down (R291). -/
def State.ethSetting (s : State) (d i : Nat) : Nat :=
  let reg := s.regN d (if i = 0 then Reg.ethCtrl else if i = 1 then Reg.ethMacLo else if i = 2 then Reg.ethMacHi else Reg.ethMaxfrm)
  if s.portUp d then ((s.eth d).eff[i]?).getD reg else reg

/-- Latches the settings at a link-up (R291). -/
def State.latchEth (s : State) (d : Nat) : State :=
  let l := [s.regN d Reg.ethCtrl, s.regN d Reg.ethMacLo, s.regN d Reg.ethMacHi, s.regN d Reg.ethMaxfrm]
  s.modEth d fun e => { e with eff := l }

/-- A bit of ETH_CTRL in force. -/
def State.ethCtrl (s : State) (d i : Nat) : Bool := bit (s.ethSetting d 0) i

/-- FC_MODE in force: 0 none, 1 PAUSE, 2 PFC. -/
def State.fcMode (s : State) (d : Nat) : Nat := fld (s.ethSetting d 0) 2 2

/-- The port's MAC address in force. -/
def State.ethMac (s : State) (d : Nat) : Nat := s.ethSetting d 1 + 2 ^ 32 * (s.ethSetting d 2 % 65536)

/-- ETH_MAXFRM in force. -/
def State.ethMaxfrm (s : State) (d : Nat) : Nat := s.ethSetting d 3 % 2 ^ 14

/-- Offset of an Ethernet counter. -/
def ethCnt (i : Nat) : Nat := Reg.ethCntLo i

/-! ## Sizes of frames -/

/-- Bytes of a frame from its destination address to its FCS (Tables 10-1, 11-5, 12-3, 17-3 and 19-3). -/
def TxItem.size : TxItem → Nat
  | .ctl => 64
  | .pause _ => 64
  | .frame f => f.len
  | .packet k ip =>
    Nat.max 64 (14 + (if ip.vlan.isSome then 4 else 0) + (if ip.v6 then 40 else 20) + 8 + 16 + packetExtra k + k.payload.length + 8)
  | .wheel f => Nat.max 64 (14 + 32 + f.payload.length + 4)
  | .commit f => Nat.max 64 (14 + 32 + f.payload.length + 4)
  | .disc _ => 68
  | .change _ => 64

/-! ## Sequenced links (R281 to R283, R340, R383) -/

/-- A link with nothing sent or received. The first SEQ is 0. -/
def Link.idle (d u : Nat) : Link := ⟨d, u, 0, [], [], 0, false, false⟩

/-- A sequenced link of a die's port. -/
def State.wire (s : State) (d u : Nat) : Link := (s.wires.find? fun l => l.d == d && l.unit == u).getD (Link.idle d u)

/-- Changes a sequenced link. -/
def State.modWire (s : State) (d u : Nat) (f : Link → Link) : State :=
  let is := fun (l : Link) => l.d == d && l.unit == u
  if s.wires.any is then { s with wires := mapIf is f s.wires } else { s with wires := s.wires ++ [f (Link.idle d u)] }

/-- The last SEQ received in order, which every frame carries as ACK. -/
def Link.ack (l : Link) : Nat := modSub 12 l.expect 1

/-- Whether an ACK value covers a SEQ: fewer than 2,048 frames lie from the SEQ to the ACK. -/
def ackCovers (ack seq : Nat) : Bool := decide (modSub 12 ack seq < 2048)

/-- Frees the held frames that an ACK covers. -/
def Link.acked (l : Link) (ack : Nat) : Link :=
  { l with held := l.held.filter fun h => !ackCovers ack h.seq, replay := l.replay.filter fun q => !ackCovers ack q }

/-- Whether a new data frame may be sent: at most 2,048 frames held, and 512 KiB, or 64 KiB for the commit logic (R281,
R340, R383). -/
def Link.room (l : Link) (bytes : Nat) : Bool :=
  decide (l.held.length < 2048) &&
    decide (sumNat (l.held.map fun h => h.f.item.size) + bytes ≤ (if l.unit = 2 then 65536 else 524288))

/-- Whether some held frame has been replayed 8 times (R283). -/
def Link.worn (l : Link) : Bool := l.held.any fun h => decide (8 ≤ h.count)

/-- Orders every held frame to be sent again, in SEQ order (R282). -/
def Link.resend (l : Link) : Link := { l with replay := l.held.map fun h => h.seq }

/-- The frame next to be sent again leaves: its replays count one more (R283). -/
def Link.replayed (l : Link) (q : Nat) : Link :=
  { l with held := mapIf (fun h => h.seq == q) (fun h => { h with count := h.count + 1 }) l.held, replay := l.replay.drop 1, owed := false }

/-- Numbers and holds a new frame. -/
def Link.push (l : Link) (f : TxFrame) : Link := { l with next := (l.next + 1) % 4096, held := l.held ++ [⟨l.next, 0, f⟩], owed := false }

/-- What the receiver finds of a numbered frame: whether it is taken, whether a NAK leaves now, and the link after it. -/
def Link.take (l : Link) (seq : Nat) (intact : Bool) : Bool × Bool × Link :=
  if intact && seq % 4096 = l.expect then (true, false, { l with expect := (l.expect + 1) % 4096, owed := true, nakked := false })
  else (false, !l.nakked, { l with nakked := true })

/-! ## Sending -/

/-- The unit whose sequenced link numbers an item off Ximel Link: 1 the wheel, 2 the commit logic; acknowledgement and NAK
frames are not numbered. -/
def TxItem.wireUnit : TxItem → Option Nat
  | .wheel f => if f.kind = 4 || f.kind = 5 then none else some 1
  | .commit f => if f.kind = 7 || f.kind = 8 then none else some 2
  | _ => none

/-- Puts the SEQ and ACK of a link into an item. -/
def TxItem.stamp (seq ack : Nat) : TxItem → TxItem
  | .wheel f => .wheel { f with seq := seq, ack := ack }
  | .commit f => .commit { f with seq := seq, ack := ack }
  | x => x

/-- Queues a frame on a port. Forwarded wheel frames and retransmissions leave ahead of the frames of the same priority that
are neither (R320, R341). -/
def State.queueTx (s : State) (d : Nat) (f : TxFrame) : State :=
  s.modEth d fun e =>
    if f.front then
      let ahead := e.txq.filter fun x => x.front
      let rest := e.txq.filter fun x => !x.front
      { e with txq := ahead ++ [f] ++ rest }
    else { e with txq := e.txq ++ [f] }

/-- Queues an item on a port. -/
def State.sendItem (s : State) (d prio mac : Nat) (item : TxItem) : State := s.queueTx d ⟨prio, mac, false, none, item⟩

/-- The transmit association in use, and whether the guard has installed it and set it valid (R277). -/
def State.txSa (s : State) (d : Nat) : Option Sa :=
  let an := s.rf d Reg.ethSecCtrl 0 1
  if s.rbit d Reg.ethSecCtrl (1 + an) then (s.eth d).sas.find? fun a => a.tx && a.an == an else none

/-- Whether the port can protect a frame: with MACsec on nothing leaves without an association (assumption 75). -/
def State.secReady (s : State) (d : Nat) : Bool := !s.ethCtrl d 4 || (s.txSa d).isSome

/-- The next packet number on the transmit association in use, with the association; a number past 2^62 reports a rekey (R277, R278,
R580). -/
def State.nextPn (s : State) (d : Nat) : Option (Sa × Nat) × State :=
  match (if s.ethCtrl d 4 then s.txSa d else none) with
  | some a =>
    let pn := a.pn + 1
    let s := s.modEth d fun e => { e with sas := mapIf (fun x => x.tx && x.an == a.an) (fun x => { x with pn := pn }) e.sas }
    (some (a, pn), if pn > 2 ^ 62 then ({ s with grd := { s.grd with rekey := addNew d s.grd.rekey } }).setAlert 4 true else s)
  | none => (none, s)

/-- Sends one frame: counted, protected and shown. -/
def State.sendFrame (s : State) (d : Nat) (f : TxFrame) (link : Option LinkHdr) : State :=
  if !s.secReady d then s
  else
    let (sec, t) := s.nextPn d
    (t.bump d (ethCnt 1) 1).emit (.sent d f (sec.map Prod.snd) link (wireFrame (s.ethMac d) f link sec))

/-- A Ximel Link control frame, which leaves ahead of every queue (R271, R280). -/
def State.ximelCtl (s : State) (d kind width group etype : Nat) : State :=
  let l := s.wire d 0
  let s := s.modWire d 0 fun l => { l with owed := false }
  s.sendFrame d ⟨7, 0, false, none, .ctl⟩ (some ⟨kind, 0, l.ack, width, group, 0, etype⟩)

/-- The link header of a data frame (Table 09-4). -/
def dataHdr (seq ack : Nat) (f : TxFrame) : LinkHdr := ⟨0, seq, ack, 0, 0, f.prio, f.item.body.1⟩

/-- Sends a numbered frame: with a link header on an active Ximel Link, where the numbers of wheel and commit frames are zero (R337),
and stamped with its SEQ and ACK off it. -/
def State.sendNumbered (s : State) (d u seq ack : Nat) (f : TxFrame) : State :=
  if u = 0 then let f := { f with item := f.item.stamp 0 0 }; s.sendFrame d f (some (dataHdr seq ack f))
  else s.sendFrame d { f with item := f.item.stamp seq ack } none

/-- Whether no data leaves: this end's transmitter has switched to a new group and both ends are not yet aligned on it (R286). -/
def State.txQuiet (s : State) (d : Nat) : Bool := match (s.eth d).narrow with | some n => n.switched | none => false

/-- Whether a queued frame may leave now: its priority is not paused, and its sequenced link has room and no replay before
it. -/
def State.txReady (s : State) (d : Nat) (f : TxFrame) : Bool :=
  !((s.eth d).paused.contains f.prio) &&
    (if s.ximelOn d then (s.wire d 0).replay.isEmpty && (s.wire d 0).room f.item.size
     else match f.item.wireUnit with
       | some u => (s.wire d u).replay.isEmpty && (s.wire d u).room f.item.size
       | none => true)

/-- The links whose replays are served on a port. -/
def State.replayUnits (s : State) (d : Nat) : List Nat := if s.ximelOn d then [0] else [1, 2]

/-- The frame that a sequenced link replays next: replays leave in SEQ order and obey pauses like new frames (R283). -/
def State.replayOf (s : State) (d u : Nat) : Option Held :=
  match (s.wire d u).replay.head? with
  | none => none
  | some q => (s.wire d u).held.find? fun h => h.seq == q && !((s.eth d).paused.contains h.f.prio)

/-- What may leave a port next: a frame that a sequenced link replays, or the frame at an index of the queues. -/
inductive TxPick where
  | replay (u : Nat) (h : Held)
  | fresh (i : Nat) (f : TxFrame)
deriving DecidableEq, Repr

/-- The priority of a candidate. -/
def TxPick.prio : TxPick → Nat
  | .replay _ h => h.f.prio
  | .fresh _ f => f.prio

/-- The head of the transmit queue of a priority, when it may leave. -/
def State.queueHead (s : State) (d p : Nat) : Option TxPick :=
  let q := (s.eth d).txq
  match q.findIdx? fun f => f.prio == p with
  | none => none
  | some i =>
    match q[i]? with
    | some f => if s.txReady d f then some (.fresh i f) else none
    | none => none

/-- The candidates to leave a port: replays, then the heads of the queues. -/
def State.txPicks (s : State) (d : Nat) : List TxPick :=
  if s.txQuiet d || !s.secReady d then []
  else ((s.replayUnits d).filterMap fun u => (s.replayOf d u).map (TxPick.replay u)) ++ (List.range 8).filterMap (s.queueHead d)

/-- The frame that leaves next: priority 7 first, then priorities 0 to 6 in rotation after the one served last (R268). -/
def State.txNext (s : State) (d : Nat) : Option TxPick :=
  match (s.txPicks d).find? fun x => x.prio == 7 with
  | some x => some x
  | none => minBy (fun x => (x.prio + 6 - (s.eth d).last) % 7) (s.txPicks d)

/-- Takes the frame at an index out of the queues. -/
def Eth.dropTx (e : Eth) (i : Nat) : Eth := { e with txq := e.txq.take i ++ e.txq.drop (i + 1) }

/-- Whether an item travels by the routes of R341. -/
def TxItem.routed : TxItem → Bool
  | .wheel _ => true
  | .commit _ => true
  | _ => false

/-- The link of a port goes down: status bits cleared, a narrowing or widening and a deferral dropped, pauses ended. Wheel and
commit frames that the Ximel Link holds unacknowledged go back to the queue, from where they leave again (R601). -/
def State.portDown (s : State) (d : Nat) : State :=
  let v := s.regN d Reg.ethStatus
  let s := s.setRegN d Reg.ethStatus (setFld (setFld v 0 13 0) 13 1 (fld v 13 1))
  let back := ((s.wire d 0).held.filter fun h => h.f.item.routed).map fun h => h.f
  let s := s.modWire d 0 fun _ => Link.idle d 0
  let s := s.modEth d fun e => { e with txq := back ++ e.txq }
  s.modEth d fun e => { e with paused := [], pausing := [], narrow := none, training := false, retrain := none }

/-- Frames of priority 7 have gone: the deferral of a retrain waits for those of them that were queued when it was asked for, and
ends with the last (R289). -/
def State.gone7 (s : State) (d : Nat) (fs : List TxFrame) : State :=
  match (s.eth d).retrain with
  | none => s
  | some l =>
    let l := (fs.filter fun f => f.prio == 7).foldl List.erase l
    if l.isEmpty && s.rbit d Reg.ethStatus 12 then s.portDown d else s.modEth d fun e => { e with retrain := some l }

/-! ## Retraining and loss of the link (R284, R288, R289) -/

/-- The frames of priority 7 queued, or on a Ximel Link held unacknowledged (R289). -/
def State.prio7 (s : State) (d : Nat) : List TxFrame :=
  ((if s.ximelOn d then (s.wire d 0).held.map (fun h => h.f) else []) ++ (s.eth d).txq).filter fun f => f.prio == 7

/-- A retrain that has been asked for starts, or its deferral does (R289). -/
def State.retrainNow (s : State) (d : Nat) (waits : List TxFrame) : State :=
  if waits.isEmpty then s.portDown d else s.setRbit d Reg.ethStatus 12 true

/-- A request to retrain (R289): after a narrowing in progress, then deferred while priority-7 frames that are queued now remain. -/
def State.retrainPort (s : State) (d : Nat) : State :=
  if !s.portUp d || (s.eth d).retrain.isSome then s
  else
    let fs := s.prio7 d
    let t := s.modEth d fun e => { e with retrain := some fs }
    if (s.eth d).narrow.isSome then t else t.retrainNow d fs

/-- Counts in an error counter of the port: it stops at its limit, and on reaching it posts COUNTER_SATURATED once and may
request a retrain (R288). -/
def State.ethErr (s : State) (d i n : Nat) : State :=
  let lim := s.regN d (Reg.ethErrLimit i)
  let c := s.ctr d (ethCnt i)
  if lim ≤ c then s
  else
    let s := s.setCtr d (ethCnt i) (Nat.min lim (c + n))
    if s.ctr d (ethCnt i) = lim then
      let s := s.saturated d (ethCnt i) i
      if s.rbit d Reg.ethErrAct i then s.retrainPort d else s
    else s

/-- Counts a replay: XL_REPLAYS of the port, REPLAYS of the wheel (Tables 09-7 and 11-8); the commit logic has no such counter. -/
def State.countReplay (s : State) (d u : Nat) : State :=
  if u = 0 then s.ethErr d 0xE 1 else if u = 1 then s.bump d (Reg.whlCntLo 6) 1 else s

/-- FRAME_TRANSMIT (R268, R271, R280, R281). -/
def State.transmit (s : State) (d : Nat) : State :=
  if !s.portUp d then s
  else
    match s.txNext d with
    | none => s
    | some (.replay u h) =>
      let s := s.modEth d fun e => { e with last := if h.f.prio = 7 then e.last else h.f.prio }
      let s := s.modWire d u fun l => l.replayed h.seq
      (s.sendNumbered d u h.seq (s.wire d u).ack h.f).countReplay d u
    | some (.fresh i f) =>
      let s := s.modEth d fun e => { e.dropTx i with last := if f.prio = 7 then e.last else f.prio }
      match (if s.ximelOn d then some 0 else f.item.wireUnit) with
      | none => (s.sendFrame d f none).gone7 d [f]
      | some u =>
        let l := s.wire d u
        let s := (s.modWire d u fun l => l.push f).sendNumbered d u l.next l.ack f
        if u = 0 then s else s.gone7 d [f]

/-- FRAME_TRANSMIT (R268). -/
def execFrameTransmit (d : Nat) (s : State) : Res := onDie s d (s.transmit d)

/-- RETRAIN: the order of ETH_CMD (R289). -/
def execRetrain (d : Nat) (s : State) : Res := onDie s d (s.retrainPort d)

/-- RETRAIN_DEFER_END: 100 µs after the request (R289). -/
def execRetrainDeferEnd (d : Nat) (s : State) : Res :=
  onDie s d (if s.rbit d Reg.ethStatus 12 then s.portDown d else s)

/-! ## Received frames (R269, R272, R276, R278, R435) -/

/-- Rows 1 to 4 of Table 09-3: the counter charged, if any. -/
def State.frameBroken (s : State) (d : Nat) (f : Frame) : Option Nat :=
  if f.fecUncorr ≠ 0 then some 6
  else if !f.fcsOk then some 2
  else if f.len < 64 then some 3
  else if s.ethMaxfrm d + (if s.ximelOn d then 8 else 0) < f.len then some 4
  else none

/-- Counts a frame that rows 1 to 4 drop: for row 1 its uncorrectable codewords (Table 09-3). -/
def State.countBroken (s : State) (d : Nat) (f : Frame) (row : Option Nat) : State :=
  match row with
  | none => s
  | some i => s.ethErr d i (if i = 6 then f.fecUncorr else 1)

/-- Whether a destination address is the port's or broadcast (row 5). -/
def State.addressed (s : State) (d dst : Nat) : Bool := dst == s.ethMac d || dst == 2 ^ 48 - 1

/-- Whether a frame passes MACsec (R278): its association number, packet number and whether its ICV checks; without MACSEC_EN every
frame does. -/
def State.macsecOk (s : State) (d : Nat) (m : Option (Nat × Nat × Bool)) : Bool :=
  !s.ethCtrl d 4 ||
    match m with
    | none => false
    | some (an, pn, icv) =>
      let top := match (s.eth d).sas.find? fun a => !a.tx && a.an == an with | some a => a.pn | none => 0
      decide (an < 2) && s.rbit d Reg.ethSecCtrl (3 + an) && icv && decide (top ≤ pn + s.rf d Reg.ethSecCtrl 8 24)

/-- Records the highest packet number accepted. -/
def State.notePn (s : State) (d : Nat) (m : Option (Nat × Nat × Bool)) : State :=
  match m with
  | none => s
  | some (an, pn, _) => s.modEth d fun e => { e with sas := mapIf (fun a => !a.tx && a.an == an) (fun a => { a with pn := Nat.max a.pn pn }) e.sas }

/-- Runs an effect on a frame that passes rows 5 and 6 of Table 09-3; a frame that does not is counted. -/
def State.screened (s : State) (d dst : Nat) (m : Option (Nat × Nat × Bool)) (act : State → State) : State :=
  if !s.addressed d dst then s.bump d (ethCnt 7) 1
  else if !s.macsecOk d m then s.ethErr d 0xA 1
  else act (s.notePn d m)

/-- A frame without what MACsec adds to it: a SecTAG with its SCI, and the ICV, of 16 bytes each (R277, assumption 75). -/
def State.unprotect (s : State) (d : Nat) (f : Frame) : Frame :=
  if s.ethCtrl d 4 && f.macsec.isSome then { f with len := f.len - 32 } else f

/-- The priority of a received frame: the PCP of its tag, 0 without one (Table 09-1). -/
def framePrio (f : Frame) : Nat := f.tag.getD 0 / 8192 % 8

/-- Bytes held in a receive pool. -/
def State.poolUsed (s : State) (d p : Nat) : Nat := sumNat (((s.eth d).rx.filter fun x => x.2.1 == p).map fun x => x.2.2)

/-- ETH_POOL[p].SIZE in bytes. -/
def State.poolSize (s : State) (d p : Nat) : Nat := 1024 * s.rf d (Reg.ethPool p) 0 12

/-- ETH_STATUS.POOL_ERR: the pool sizes sum to more than 2,048 KiB (R272). -/
def State.poolErr (s : State) (d : Nat) : Bool := decide (2097152 < sumNat ((List.range 8).map (s.poolSize d)))

/-- The UDP destination port of an IPv4 or IPv6 frame, if it carries UDP. -/
def frameUdp (f : Frame) : Option Nat :=
  if f.etype = 0x0800 then
    if beAt f.payload 9 1 = 17 then some (beAt f.payload (4 * (beAt f.payload 0 1 % 16) + 2) 2) else none
  else if f.etype = 0x86DD then
    if beAt f.payload 6 1 = 17 then some (beAt f.payload 42 2) else none
  else none

/-- The place that claims a frame (R269): an EtherType standing for it (0x0800 for the transport), or none. -/
def State.claim (s : State) (d : Nat) (f : Frame) : Option Nat :=
  if frameUdp f = some (s.rf d Reg.xtUdpPort 0 16) then some 0x0800
  else if f.etype = 0x88B6 || f.etype = 0x88B7 || f.etype = 0x88B9 then some f.etype
  else if f.etype = 0x88B8 && d < s.part.torusPorts then some 0x88B8
  else none

/-- What makes the transport drop a frame for it without notice, as the counter charged: CRC_ERRORS (0xC) for a checksum or the
ICRC, NO_CONN (0xB) otherwise; none for a packet that it takes (R294, Table 10-8). -/
def State.xtDrop (s : State) (d : Nat) (f : Frame) : Option Nat :=
  let b := f.payload
  let v4 := f.etype == 0x0800
  let seg := if v4 then b.drop 20 else b.drop 40
  let ulen := beAt seg 4 2
  let udp := seg.take ulen
  let addrs := if v4 then (b.drop 12).take 8 else (b.drop 8).take 32
  let v6dst := sumNat ((List.range 4).map fun i => 2 ^ (96 - 32 * i) * s.regN d (Reg.xtIp6 i))
  let dst := if v4 then beAt b 16 4 == s.regN d Reg.xtIp4 else beAt b 24 16 == v6dst
  let x := udp.drop 8
  if !s.rbit d Reg.xtCtrl 0 || !s.rbit d Reg.xtCtrl (if v4 then 1 else 2) then some 0xB
  else if v4 && (beAt b 0 1 % 16 ≠ 5 || beAt b 6 2 % 2 ^ 14 ≠ 0) then some 0xB
  else if v4 && !sumOk (b.take 20) then some 0xC
  else if beAt seg 6 2 ≠ 0 && !sumOk (addrs ++ natBe 2 17 ++ natBe 2 ulen ++ udp) then some 0xC
  else if !dst then some 0xB
  else if crc32c (x.take (x.length - 4)) ≠ beAt x (x.length - 4) 4 then some 0xC
  else if beAt x 1 1 / 64 ≠ 1 || 6 ≤ beAt x 0 1 then some 0xB
  else none

/-- Counts a drop under row 9. -/
def State.unclaimed (s : State) (d : Nat) : State := s.bump d (ethCnt 8) 1

/-- The bytes that a host receive buffer gets: destination address first, any tag kept, the FCS removed (R435). -/
def frameBytes (f : Frame) : List Byte :=
  let tag := match f.tag with | some t => natBe 2 0x8100 ++ natBe 2 t | none => []
  let head := natBe 6 f.dst ++ natBe 6 f.src ++ tag ++ natBe 2 f.etype
  padTo (f.len - 4) (head ++ f.payload)

/-- The next held buffer of a receive ring: its oldest POST_BUF that is started and not filled (R433). -/
def State.heldBuf (s : State) (r : Nat) : Option Work :=
  s.seq.works.find? fun w => w.ring == r && w.kind == 0x2E && w.started && !w.ended

/-- HOST_RX_FRAME: an unclaimed frame of priority `p` fills the next held buffer of the port's host receive ring (R435). -/
def State.hostRx (s : State) (d p : Nat) (f : Frame) : State :=
  let r := 32 * d + 31
  match s.heldBuf r with
  | some w =>
    let bs := frameBytes f
    if s.ethCtrl d 5 && s.ringOn r && s.ringRx r && bs.length ≤ w.f 14 4 then
      let s := ((s.write (w.addr 8) bs).reach w.part true (w.addr 8) bs.length).bump d (ethCnt 0) 1
      s.endWork w.id fun c => { c with receive := true, detail0 := p, detail1 := bs.length }
    else s.unclaimed d
  | none => s.unclaimed d

/-- Whether no place claims a frame, the host receive ring included: a discovery frame on a side port (R269), and a frame with stacked
tags, an option that the port does not implement (R267). -/
def unclaimable (f : Frame) : Bool := f.etype == 0x88B8 || f.etype == 0x8100 || f.etype == 0x88A8

/-- The pauses that a MAC Control frame asks for: PAUSE names all eight priorities (R270). -/
def pauseOf (f : Frame) : Option PauseFrame :=
  let op := beAt f.payload 0 2
  if op = 1 then some ⟨false, (List.range 8).map fun p => (p, beAt f.payload 2 2)⟩
  else if op = 0x0101 then some ⟨true, (bitsOf (beAt f.payload 2 2) 8).map fun p => (p, beAt f.payload (4 + 2 * p) 2)⟩
  else none

/-- A MAC Control frame: one that FC_MODE accepts loads the pause timers, and a time of zero ends a pause; any other is dropped
(R270). -/
def State.pauseIn (s : State) (d : Nat) (f : Frame) : State :=
  match pauseOf f with
  | some x =>
    if s.fcMode d ≠ (if x.pfc then 2 else 1) then s.bump d (ethCnt 0xB) 1
    else x.times.foldl (fun s y => s.modEth d fun e => { e with paused := if y.2 = 0 then without y.1 e.paused else addNew y.1 e.paused }) (s.bump d (ethCnt 0xC) 1)
  | none => s.bump d (ethCnt 0xB) 1

/-- Rows 7 to 9 and the delivery of a frame of priority `p`. -/
def State.place (s : State) (d p : Nat) (f : Frame) : State :=
  if f.etype = 0x8808 then s.pauseIn d f
  else if s.poolSize d p < s.poolUsed d p + f.len then s.ethErr d 9 1
  else
    match s.claim d f with
    | some c =>
      let s := s.bump d (ethCnt 0) 1
      match if c = 0x0800 then s.xtDrop d f else none with
      | some i => if i = 0xC then s.bumpErr d (Reg.xtCntLo i) i 1 else s.bump d (Reg.xtCntLo i) 1
      | none => s.modEth d fun e => { e with rx := e.rx ++ [(c, p, f.len)] }
    | none => if unclaimable f then s.unclaimed d else s.hostRx d p f

/-- Rows 5 to 9 and the delivery of an intact frame of priority `p`. The group address at which IEEE 802.3 Annex 31B sends MAC Control
frames counts as the port's own for them (Table 09-1, assumption 75). -/
def State.deliver (s : State) (d p : Nat) (f : Frame) : State :=
  s.screened d (if f.etype = 0x8808 && f.dst = 0x0180C2000001 then s.ethMac d else f.dst) f.macsec fun s => s.place d p (s.unprotect d f)

/-- Whether a port takes frames at all. -/
def State.receives (s : State) (d : Nat) : Bool := s.portUp d && !s.poolErr d

/-- A unit takes the oldest frame for it out of the pools. -/
def State.takeRx (s : State) (d c : Nat) : State :=
  s.modEth d fun e =>
    match e.rx.findIdx? fun x => x.1 == c with
    | some i => { e with rx := e.rx.take i ++ e.rx.drop (i + 1) }
    | none => e

/-- Runs an effect on a frame that a port receives; the codewords of it that the FEC corrected are counted (Table 09-7). -/
def State.onFrame (s : State) (d : Nat) (f : Frame) (act : State → State) : State :=
  if s.receives d then act (s.bump d (ethCnt 5) f.fecCorr) else s

/-! ## Ximel Link (R279 to R287) -/

/-- An ACK arrived on the Ximel Link. -/
def State.ximelAck (s : State) (d ack : Nat) : State :=
  let gone := ((s.wire d 0).held.filter fun h => ackCovers ack h.seq).map fun h => h.f
  (s.modWire d 0 fun l => l.acked ack).gone7 d gone

/-- Orders the held frames of the Ximel Link to be sent again; after 8 replays of a frame the port retrains (R282, R283). -/
def State.ximelResend (s : State) (d : Nat) : State :=
  let l := s.wire d 0
  if l.held.isEmpty then s
  else if l.worn then s.retrainPort d
  else s.modWire d 0 Link.resend

/-- Whether this end has stopped decoding: it declared a lane failed, and both ends are not yet aligned on the new group (Table
09-5, T1). -/
def State.deaf (s : State) (d : Nat) : Bool := match (s.eth d).narrow with | some n => n.mine && n.width != 3 | none => false

/-- A numbered frame of priority `p` on an active Ximel Link (R281 to R283). `f` has the EtherType and payload that follow the link
header; the header and the EtherType before it are 10 bytes of its length. -/
def State.ximelData (s : State) (d seq ack p : Nat) (f : Frame) : State :=
  if !s.ximelOn d || s.deaf d then s
  else
    let broken := s.frameBroken d f
    let s := s.countBroken d f broken
    let s := if broken.isNone then s.ximelAck d ack else s
    if !s.ximelOn d then s
    else
      let (ok, nak, l) := (s.wire d 0).take seq broken.isNone
      let s := s.modWire d 0 fun _ => l
      if ok then s.deliver d p { f with len := f.len - 10 } else if nak then s.ximelCtl d 2 0 0 0 else s

/-- XIMEL_DATA_RECEIVE (R282). -/
def execXimelDataReceive (d seq ack : Nat) (x : DataIn) (s : State) : Res :=
  onDie s d (s.onFrame d x.f fun s => s.ximelData d seq ack x.prio x.f)

/-- XIMEL_ACK_TIMER (R281). -/
def execXimelAckTimer (d : Nat) (s : State) : Res :=
  onDie s d (if s.ximelOn d && (s.wire d 0).owed then s.ximelCtl d 1 0 0 0 else s)

/-- Runs the effect of a Ximel Link control frame that arrives on a port: it passes rows 5 and 6 of Table 09-3, and on an active link
its ACK is taken first (R276, R278, R281). -/
def State.ctlIn (s : State) (d : Nat) (x : LinkCtl) (act : State → State) : State :=
  if !s.receives d then s
  else s.screened d x.dst x.macsec fun s => act (if s.ximelOn d then s.ximelAck d x.ack else s)

/-- A NAK on the Ximel Link (R282). -/
def State.ximelNak (s : State) (d : Nat) : State := if s.ximelOn d then s.ximelResend d else s

/-- XIMEL_NAK_RECEIVE (R282, R283). -/
def execXimelNakReceive (d : Nat) (x : LinkCtl) (s : State) : Res := onDie s d (s.ctlIn d x fun s => s.ximelNak d)

/-- XIMEL_NAK_RESEND (R282). -/
def execXimelNakResend (d : Nat) (s : State) : Res :=
  onDie s d (if s.ximelOn d && (s.wire d 0).nakked then s.ximelCtl d 2 0 0 0 else s)

/-- XIMEL_REPLAY_TIMEOUT (R282, R283). -/
def execXimelReplayTimeout (d : Nat) (s : State) : Res := onDie s d (if s.ximelOn d then s.ximelResend d else s)

/-- The peer's capability frame (R9, R279): Ximel Link becomes active when both ends have XIMEL_EN = 1, the peer's being `offers`, and
report the same part and stepping; another part or stepping holds a torus port out. -/
def State.ximelCap (s : State) (d part stepping : Nat) (offers : Bool) : State :=
  if !s.portUp d || s.part.torusPorts ≤ d then s
  else if part ≠ s.part.dies || stepping ≠ 0x11 then
    (s.setRbit d Reg.ethStatus 13 true).eachDie fun s e => (s.setRbit e Reg.genDiscStatus (16 + d) true).setRbit e Reg.genDiscStatus (8 + d) true
  else if s.ethCtrl d 1 && offers then (s.modWire d 0 fun _ => Link.idle d 0).setRbit d Reg.ethStatus 1 true
  else s

/-- XIMEL_CAPABILITY (R279). -/
def execXimelCapability (d : Nat) (p : Peer) (x : LinkCtl) (s : State) : Res :=
  onDie s d (s.ctlIn d x fun s => s.ximelCap d p.part p.stepping p.offers)

/-- Lanes of a width code. -/
def laneCount (w : Nat) : Nat := 2 ^ w

/-- The lanes of a group at a width code (R285). -/
def laneGroup (w g : Nat) : List Nat := (List.range (laneCount w)).map (laneCount w * g + ·)

/-- The place of a group in the order in which R285 chooses: the wider first, then the lower. -/
def groupRank (w g : Nat) : Nat := 8 / laneCount w - 1 + g

/-- The group at a place of that order: width code and group. -/
def lanesAt (i : Nat) : Nat × Nat := if i < 1 then (3, i) else if i < 3 then (2, i - 1) else if i < 7 then (1, i - 3) else (0, i - 7)

/-- The first group from a place on that holds none of some lanes. -/
def firstGroup (failed : List Nat) (from_ : Nat) : Option Nat :=
  (List.range 15).find? fun i => decide (from_ ≤ i) && (laneGroup (lanesAt i).1 (lanesAt i).2).all fun l => !failed.contains l

/-- Starts a narrowing to the first group below the full width that no failed lane known here rules out, or takes the port down when
no lane is left (R285, R286). A group that comes before the peer's choice holds a lane that failed there (assumption 77). -/
def State.startNarrow (s : State) (d : Nat) : State :=
  match firstGroup (s.eth d).failed (Nat.max 1 (s.eth d).floor) with
  | none => s.portDown d
  | some i =>
    let (w, g) := lanesAt i
    let s := s.modEth d fun e => { e with floor := i, narrow := some ⟨w, g, true, false⟩ }
    s.ximelCtl d 3 w g 0

/-- A lane of a port fails (R284 to R286): in standard mode, or at 1 lane, the port goes down. -/
def State.laneFail (s : State) (d lane : Nat) : State :=
  if !s.portUp d || 8 ≤ lane then s
  else
    let s := s.setRbit d Reg.ethStatus (4 + lane) false
    let s := s.modEth d fun e => { e with failed := addNew lane e.failed }
    if !s.ximelOn d || s.rf d Reg.ethStatus 2 2 = 0 then s.portDown d else s.startNarrow d

/-- Changes a narrowing under way. -/
def State.modNarrow (s : State) (d : Nat) (f : Narrow → Narrow) : State := s.modEth d fun e => { e with narrow := e.narrow.map f }

/-- NARROW_REQUEST_REPEAT (R286): until its transmitter has switched, the requester repeats its request. -/
def execNarrowRequestRepeat (d : Nat) (s : State) : Res :=
  onDie s d (match (s.eth d).narrow with
    | some n => if n.mine && !n.switched && s.ximelOn d then s.ximelCtl d (if n.width = 3 then 5 else 3) n.width n.group 0 else s
    | none => s)

/-- This end agrees to a group: it acknowledges, and its transmitter switches (R286, R287). -/
def State.narrowAgree (s : State) (d width group : Nat) : State :=
  let s := s.ximelCtl d (if width = 3 then 6 else 4) width group 0
  s.modEth d fun e => { e with narrow := some ⟨width, group, false, true⟩ }

/-- A narrow request from the peer. A group that holds a lane failed here, or that comes before one already asked for, is answered with
this end's own choice (R285, R286, assumption 77). -/
def State.narrowAsked (s : State) (d width group : Nat) : State :=
  if !s.ximelOn d || 3 ≤ width || 8 / laneCount width ≤ group then s
  else
    let s := s.modEth d fun e => { e with floor := Nat.max e.floor (groupRank width group) }
    if firstGroup (s.eth d).failed (s.eth d).floor = some (groupRank width group) then s.narrowAgree d width group else s.startNarrow d

/-- NARROW_REQUEST (R286). -/
def execNarrowRequest (d : Nat) (lanes : Lanes) (x : LinkCtl) (s : State) : Res :=
  onDie s d (s.ctlIn d x fun s => s.narrowAsked d lanes.width lanes.group)

/-- The requester's transmitter switches: on the acknowledgement, or 8 µs after T1. -/
def State.narrowSwitch (s : State) (d : Nat) : State := s.modNarrow d fun n => if n.mine then { n with switched := true } else n

/-- An acknowledgement from the peer of the group asked for. -/
def State.narrowAcked (s : State) (d width group : Nat) : State :=
  match (s.eth d).narrow with
  | some n => if n.width = width && n.group = group then s.narrowSwitch d else s
  | none => s

/-- NARROW_ACK (R286). -/
def execNarrowAck (d : Nat) (lanes : Lanes) (x : LinkCtl) (s : State) : Res :=
  onDie s d (s.ctlIn d x fun s => s.narrowAcked d lanes.width lanes.group)

/-- NARROW_ACK_TIMEOUT (R286). -/
def execNarrowAckTimeout (d : Nat) (s : State) : Res := onDie s d (s.narrowSwitch d)

/-- A narrowing is reported as degraded (R287): RAS_STATUS.DEGRADED, and the event, for which Table 19-5 gives no resource code, so its
payload is open. -/
def State.narrowReport (s : State) (d : Nat) : State :=
  let (v, s) := s.freeVal 32
  ((s.bump d (ethCnt 0xF) 1).setRbit d Reg.rasStatus 0 true).eventAll 0x13 d srcRas (natLe 4 v)

/-- Both ends are aligned on the group: the width is in force, ACK values are exchanged and the sender replays from the
peer's (R286, R287). A retrain that waited for the narrowing starts, or its deferral does (R289). -/
def State.narrowDone (s : State) (d peerAck : Nat) : State :=
  match (s.eth d).narrow with
  | none => s
  | some n =>
    if !n.switched || !s.ximelOn d then s
    else
      let s := s.setRf d Reg.ethStatus 2 2 n.width
      let s := s.setRf d Reg.ethStatus 4 8 (sumNat ((laneGroup n.width n.group).map fun l => 2 ^ l))
      let s := if n.width = 3 then s.modEth d fun e => { e with failed := [], floor := 0 } else s.narrowReport d
      let s := (s.modEth d fun e => { e with narrow := none }).ximelCtl d 1 0 0 0
      let s := (s.ximelAck d peerAck).ximelResend d
      match (s.eth d).retrain with
      | some l => if s.rbit d Reg.ethStatus 12 then s else s.retrainNow d l
      | none => s

/-- NARROW_ALIGN (R286). -/
def execNarrowAlign (d peerAck : Nat) (s : State) : Res := onDie s d (s.narrowDone d peerAck)

/-- Alignment has failed for 50 µs: both ends step down to the next width (R286). -/
def State.stepDown (s : State) (d : Nat) : State :=
  match (s.eth d).narrow with
  | some n =>
    if n.width = 0 then s.portDown d
    else (s.modEth d fun e => { e with floor := Nat.max e.floor (groupRank (n.width - 1) 0) }).startNarrow d
  | none => s

/-- A write of ETH_CMD.WIDEN trains the idle lanes of a narrowed link (R287). -/
def State.widenStart (s : State) (d : Nat) : State :=
  let s := s.setRbit d Reg.ethStatus 15 false
  if s.portUp d && s.ximelOn d && s.rf d Reg.ethStatus 2 2 ≠ 3 && (s.eth d).narrow.isNone then
    s.modEth d fun e => { e with training := true }
  else s

/-- WIDEN (R287). -/
def execWiden (d : Nat) (s : State) : Res := onDie s d (s.widenStart d)

/-- WIDEN_TRAIN_END (R287). -/
def execWidenTrainEnd (d : Nat) (locked : List Nat) (s : State) : Res :=
  onDie s d (
    if !(s.eth d).training then s
    else
      let s := s.modEth d fun e => { e with training := false }
      if (List.range 8).all fun l => locked.contains l then
        (s.modEth d fun e => { e with narrow := some ⟨3, 0, true, false⟩ }).ximelCtl d 5 3 0 0
      else s.setRbit d Reg.ethStatus 15 true)

/-- A widen request from the peer (R287). -/
def State.widenAsked (s : State) (d : Nat) : State := if s.ximelOn d then s.narrowAgree d 3 0 else s

/-- WIDEN_REQUEST (R287). -/
def execWidenRequest (c : CtlIn) (s : State) : Res := onDie s c.d (s.ctlIn c.d c.x fun s => s.widenAsked c.d)

/-- WIDEN_ACK (R287). -/
def execWidenAck (c : CtlIn) (s : State) : Res := onDie s c.d (s.ctlIn c.d c.x fun s => s.narrowAcked c.d 3 0)

/-! ## FRAME_RECEIVE -/

/-- The control frame that a Ximel Link frame is. -/
def frameCtl (f : Frame) : LinkCtl := ⟨f.dst, f.macsec, beAt f.payload 2 2 % 4096⟩

/-- A Ximel Link frame, from its link header on (Table 09-4). A capability frame does not show XIMEL_EN, so whether a peer that sends one
offers the link is open here (R279, assumption 77). -/
def State.linkFrame (s : State) (d : Nat) (f : Frame) : State :=
  let b := f.payload
  let seq := beAt b 0 2 % 4096
  let kind := beAt b 0 2 / 4096
  let width := beAt b 4 1 % 16
  let group := beAt b 4 1 / 16 % 8
  let x := b.drop 8
  let inner := if beAt x 0 2 = 0x8100 then { f with tag := some (beAt x 2 2), etype := beAt x 4 2, payload := x.drop 6 }
    else { f with etype := beAt x 0 2, payload := x.drop 2 }
  if kind = 0 then s.ximelData d seq (beAt b 2 2 % 4096) (beAt b 5 1 % 8) inner
  else s.ctlIn d (frameCtl f) fun s =>
    match kind with
    | 1 => s
    | 2 => s.ximelNak d
    | 3 => s.narrowAsked d width group
    | 4 => s.narrowAcked d width group
    | 5 => s.widenAsked d
    | 6 => s.narrowAcked d 3 0
    | 7 => let (v, s) := s.freeVal 1; s.ximelCap d (beAt b 7 1) (beAt b 6 1) (v == 1)
    | _ => s.bump d (ethCnt 0xB) 1

/-- A frame that arrives at a port: the drops of Table 09-3 in their order, and the delivery of R269. A numbered frame of an
active Ximel Link is checked as the link layer takes it. -/
def State.frameIn (s : State) (d : Nat) (f : Frame) : State :=
  match s.frameBroken d f with
  | some i =>
    if s.ximelOn d then s.ximelData d (s.wire d 0).expect (s.wire d 0).ack 0 f else s.countBroken d f (some i)
  | none => if f.etype = 0x88B5 then s.linkFrame d f else s.deliver d (framePrio f) f

/-- FRAME_RECEIVE (R269, R276). -/
def execFrameReceive (d : Nat) (f : Frame) (s : State) : Res := onDie s d (s.onFrame d f fun s => s.frameIn d f)

/-! ## Pauses (R270, R271, R273) -/

/-- PAUSE_FRAME_RECEIVE: a MAC Control frame (R270). -/
def execPauseFrameReceive (d : Nat) (f : Frame) (s : State) : Res :=
  onDie s d (s.onFrame d f fun s => s.frameIn d { f with etype := 0x8808 })

/-- PAUSE_TIMER_EXPIRE (R270). -/
def execPauseTimerExpire (d prio : Nat) (s : State) : Res :=
  onDie s d (s.modEth d fun e => { e with paused := without prio e.paused })

/-- LOW and HIGH of a pool in bytes, when it sends pauses: 0 < LOW < HIGH ≤ SIZE (R273). -/
def State.marks (s : State) (d p : Nat) : Option (Nat × Nat) :=
  let hi := 1024 * s.rf d (Reg.ethWm p) 0 12
  let lo := 1024 * s.rf d (Reg.ethWm p) 16 12
  if 0 < lo && lo < hi && hi ≤ s.poolSize d p then some (lo, hi) else none

/-- Sends a MAC Control frame, ahead of every queue (R271): on an active Ximel Link it is a data frame like any other (R280, R281). -/
def State.sendMacCtl (s : State) (d : Nat) (x : PauseFrame) : State :=
  let f : TxFrame := ⟨7, 0, false, none, .pause x⟩
  let s := s.bump d (ethCnt 0xD) 1
  if s.ximelOn d then
    let l := s.wire d 0
    (s.modWire d 0 fun l => l.push f).sendNumbered d 0 l.next l.ack f
  else s.sendFrame d f none

/-- Sends a PFC frame for some priorities, or a link PAUSE frame, with a time (R271, R273). -/
def State.sendPause (s : State) (d : Nat) (ps : List Nat) (time : Nat) : State :=
  if s.fcMode d = 2 then s.sendMacCtl d ⟨true, ps.map fun p => (p, time)⟩
  else if s.fcMode d = 1 then s.sendMacCtl d ⟨false, [(0, time)]⟩
  else s

/-- Whether a pool stands above its HIGH mark. -/
def State.poolHigh (s : State) (d p : Nat) : Bool :=
  match s.marks d p with | some (_, hi) => decide (hi < s.poolUsed d p) | none => false

/-- Whether a pool stands at or below its LOW mark. -/
def State.poolLow (s : State) (d p : Nat) : Bool :=
  match s.marks d p with | some (lo, _) => decide (s.poolUsed d p ≤ lo) | none => true

/-- POOL_HIGH_CROSS: the pools that rose past HIGH in one cycle; every rise sends a frame (R273). -/
def execPoolHighCross (d : Nat) (prios : List Nat) (s : State) : Res :=
  onDie s d (
    let ps := (nub prios).filter (s.poolHigh d)
    if ps.isEmpty || s.fcMode d = 0 || !s.portUp d then s
    else (s.modEth d fun e => { e with pausing := nub (e.pausing ++ ps) }).sendPause d ps (s.rf d Reg.ethPauseTime 0 16))

/-- POOL_LOW_CROSS: the pools that fell to LOW in one cycle (R273). Under PAUSE the pause ends once every pool is low. -/
def execPoolLowCross (d : Nat) (prios : List Nat) (s : State) : Res :=
  onDie s d (
    let ps := (nub prios).filter fun p => s.poolLow d p && (s.eth d).pausing.contains p
    if ps.isEmpty then s
    else
      let s := s.modEth d fun e => { e with pausing := e.pausing.filter fun p => !ps.contains p }
      if s.fcMode d = 2 || (List.range 8).all (s.poolLow d) then s.sendPause d ps 0 else s)

/-- PAUSE_REPEAT: every ETH_PAUSE_TIME / 2 quanta while the occupancy stays above LOW (R273). -/
def execPauseRepeat (d prio : Nat) (s : State) : Res :=
  onDie s d (
    if (s.eth d).pausing.contains prio && !s.poolLow d prio then s.sendPause d [prio] (s.rf d Reg.ethPauseTime 0 16) else s)

end Sys2Proof.Machine
end

