-- ==== Sys2Proof/Machine/Torus.lean ====
section
/-! DEFINITION. Routing on the torus (R330, R331, R341, R601), the sending of wheel and commit frames, and the sequenced
links of wheel and commit logic off Ximel Link (R340, R383). -/

namespace Sys2Proof.Machine

/-! ## Coordinates -/

/-- This package's coordinates, encoded as in Table 11-5. -/
def State.selfXyz (s : State) : Nat :=
  let v := s.regN 0 Reg.whlCoord
  fld v 0 6 + 64 * fld v 8 4 + 1024 * fld v 16 4

/-- Coordinate `a` (0 x, 1 y, 2 z) of encoded coordinates. -/
def coordOf (xyz a : Nat) : Nat := if a = 0 then fld xyz 0 6 else if a = 1 then fld xyz 6 4 else fld xyz 10 4

/-- Encoded coordinates with one replaced. -/
def withCoord (xyz a v : Nat) : Nat := if a = 0 then setFld xyz 0 6 v else if a = 1 then setFld xyz 6 4 v else setFld xyz 10 4 v

/-- The torus size on an axis, at least 1 (WHL_DIMS). -/
def State.dimOf (s : State) (a : Nat) : Nat :=
  let v := s.regN 0 Reg.whlDims
  Nat.max 1 (if a = 0 then fld v 0 7 else if a = 1 then fld v 8 5 else fld v 16 5)

/-- The package one step on along an axis, in + or − direction. -/
def State.stepXyz (s : State) (xyz a : Nat) (plus : Bool) : Nat :=
  let n := s.dimOf a
  withCoord xyz a ((coordOf xyz a + (if plus then 1 else n - 1)) % n)

/-- The port role of an axis and direction (R15). -/
def roleOf (a : Nat) (plus : Bool) : Nat := 2 * a + (if plus then 0 else 1)

/-- Whether one hop is open: neither end of the link counted down, the next package not failed (R601), and this package's own
port not held out (R548, R553). -/
def State.hopOpen (s : State) (xyz a : Nat) (plus : Bool) : Bool :=
  let nxt := s.stepXyz xyz a plus
  !(xyz == s.selfXyz && s.rbit 0 Reg.genDiscStatus (8 + roleOf a plus)) &&
  !s.torus.down.contains (xyz, roleOf a plus) && !s.torus.down.contains (nxt, roleOf a (!plus)) &&
    !s.torus.failed.any fun x => x.1 == nxt

/-- Whether `k` hops on along an axis are open. -/
def State.wayOpen (s : State) (a : Nat) (plus : Bool) : Nat → Nat → Bool
  | 0, _ => true
  | k + 1, xyz => s.hopOpen xyz a plus && s.wayOpen a plus k (s.stepXyz xyz a plus)

/-- The way round an axis from one package to a coordinate: the shorter one that is open, + on a tie (R341, R601). -/
def State.axisWay (s : State) (xyz a goal : Nat) : Option Bool :=
  let n := s.dimOf a
  let up := (goal + n - coordOf xyz a) % n
  let dn := (coordOf xyz a + n - goal) % n
  let plusFirst := decide (up ≤ dn)
  let ok := fun (plus : Bool) => s.wayOpen a plus (if plus then up else dn) xyz
  if ok plusFirst then some plusFirst else if ok (!plusFirst) then some (!plusFirst) else none

/-- The role of the port by which a frame leaves a package for another, in dimension order; none when no route is open.
`none` in the second place stands for a frame that has arrived. -/
def State.routeFrom (s : State) (dst : Nat) : List Nat → Nat → Option (Option Nat)
  | [], _ => some none
  | a :: rest, xyz =>
    if coordOf xyz a = coordOf dst a then s.routeFrom dst rest xyz
    else
      match s.axisWay xyz a (coordOf dst a) with
      | none => none
      | some plus =>
        match s.routeFrom dst rest (withCoord xyz a (coordOf dst a)) with
        | none => none
        | some _ => some (some (roleOf a plus))

/-- The route of a frame to a package. -/
def State.route (s : State) (dst : Nat) : Option (Option Nat) := s.routeFrom dst [0, 1, 2] s.selfXyz

/-- The side port in use: 6, or 7 while 6 is down (R341). -/
def State.sidePort (s : State) : Nat := if s.portUp 6 then 6 else 7

/-- The destination coordinates of a routed frame. -/
def TxItem.dstXyz : TxItem → Nat
  | .wheel f => f.dstXyz
  | .commit f => f.dstXyz
  | _ => 0

/-- Whether a port carries an item: wheel frames and pushes of buddy copies only while its ETH_MAXFRM is at least 8,256 (R338,
R389). -/
def State.carries (s : State) (d : Nat) (item : TxItem) : Bool :=
  match item with
  | .wheel _ => decide (8256 ≤ s.ethMaxfrm d)
  | .commit f => f.kind != 2 || decide (8256 ≤ s.ethMaxfrm d)
  | _ => true

/-- The place in the order of starts of the running collective whose data an item is; frames of none come first (R346). -/
def State.startOrder (s : State) (item : TxItem) : Nat :=
  match item with
  | .wheel f =>
    if f.kind = 0 then (match s.whl.colls.findIdx? fun c => c.group == f.group && c.num == f.coll && c.rank == f.srcRank with | some i => i + 1 | none => 0)
    else 0
  | _ => 0

/-- Queues a wheel or commit frame on a port that carries it. Data of an earlier collective leaves before the data of later ones of
the same priority that wait there (R346). -/
def State.queueRouted (s : State) (d : Nat) (f : TxFrame) : State :=
  if !s.carries d f.item then s
  else
    let k := s.startOrder f.item
    let later := fun (x : TxFrame) => !x.front && x.prio == f.prio && decide (k < s.startOrder x.item)
    if f.front || k = 0 then s.queueTx d f
    else
      s.modEth d fun e =>
        match e.txq.findIdx? later with
        | some i => { e with txq := e.txq.take i ++ [f] ++ e.txq.drop i }
        | none => { e with txq := e.txq ++ [f] }

/-- Sends a wheel or commit frame by the route in force; a frame with no open route is dropped and counted in ROUTE_DROPS
(R341, R601). `via` is the die whose unit forwards it, if it is forwarded. -/
def State.sendRouted (s : State) (prio : Nat) (via : Option Nat) (item : TxItem) : State :=
  match s.route item.dstXyz with
  | some (some role) => s.queueRouted role ⟨prio, 0, via.isSome, via, item⟩
  | _ => s.bump 0 (Reg.rasCntLo 7) 1

/-- Sends a wheel or commit frame to a side member at its MAC address. -/
def State.sendSide (s : State) (prio mac : Nat) (item : TxItem) : State := s.queueRouted s.sidePort ⟨prio, mac, false, none, item⟩

/-- Routed frames that a port holds are taken from it. -/
def State.takeRouted (s : State) (d : Nat) : List TxFrame × State :=
  let q := (s.eth d).txq
  (q.filter fun f => f.item.routed && f.mac == 0, s.modEth d fun e => { e with txq := q.filter fun f => !(f.item.routed && f.mac == 0) })

/-- The map has changed: the wheel and commit frames that wait on the torus ports are queued again by the routes now in force, in
their order on each port (R342, R601). -/
def State.requeue (s : State) : State :=
  let (fs, s) := (List.range s.part.torusPorts).foldl (fun (a : List TxFrame × State) d =>
    let (l, t) := a.2.takeRouted d
    (a.1 ++ l, t)) ([], s)
  fs.foldl (fun s f => s.sendRouted f.prio f.via f.item) s

/-! ## Sequenced links of the wheel (`u` = 1) and the commit logic (`u` = 2) off Ximel Link -/

/-- A wheel frame of a kind with every other field zero. -/
def WheelFrame.bare (kind seq ack : Nat) : WheelFrame := ⟨kind, 0, 0, false, false, 0, seq, 0, 0, 0, 0, 0, 0, 0, 0, 0, ack, 1, false, []⟩

/-- A commit frame of a kind with every other field zero. -/
def CommitFrame.bare (kind seq ack : Nat) : CommitFrame := ⟨kind, false, 0, seq, ack, 0, 0, 0, 0, 0, 0, 0, 0, 0, 0, 1, []⟩

/-- Sends an acknowledgement or a NAK of a sequenced link, at priority 7 (R339, R383). -/
def State.linkCtl (s : State) (d u : Nat) (nak : Bool) : State :=
  let a := (s.wire d u).ack
  let s := s.modWire d u fun l => { l with owed := false }
  let item : TxItem := if u = 1 then .wheel (WheelFrame.bare (if nak then 5 else 4) 0 a) else .commit (CommitFrame.bare (if nak then 8 else 7) 0 a)
  if s.carries d item then s.sendItem d 7 0 item else s

/-- Takes a numbered frame on a port: whether it is delivered. On an active Ximel Link every frame is. -/
def State.linkTake (s : State) (d u seq ack : Nat) : Bool × State :=
  if s.ximelOn d then (true, s)
  else
    let s := s.modWire d u fun l => l.acked ack
    let (ok, nak, l) := (s.wire d u).take seq true
    let s := s.modWire d u fun _ => l
    (ok, if nak then s.linkCtl d u true else s)

/-- Orders the held frames of a sequenced link to be sent again; after 8 replays of a frame the port retrains (R282, R283). -/
def State.linkResend (s : State) (d u : Nat) : State :=
  let l := s.wire d u
  if s.ximelOn d || l.held.isEmpty then s
  else if l.worn then s.retrainPort d
  else s.modWire d u Link.resend

/-- A received acknowledgement of a sequenced link. -/
def State.linkAckIn (s : State) (d u ack : Nat) : State := if s.ximelOn d then s else s.modWire d u fun l => l.acked ack

/-- A received NAK of a sequenced link. -/
def State.linkNakIn (s : State) (d u ack : Nat) : State := (s.linkAckIn d u ack).linkResend d u

/-- 500 ns without a frame while an acknowledgement is owed. -/
def State.linkAckTimer (s : State) (d u : Nat) : State :=
  if !s.ximelOn d && (s.wire d u).owed then s.linkCtl d u false else s

/-- 10 µs without the expected SEQ after a NAK. -/
def State.linkNakTimer (s : State) (d u : Nat) : State :=
  if !s.ximelOn d && (s.wire d u).nakked then s.linkCtl d u true else s

end Sys2Proof.Machine
end

