-- ==== Sys2Proof/Machine/Volume.lean ====
section
/-! DEFINITION. The flash volume (R242, R243), flash transfers and their pieces (R245 to R248), the re-fetch of clean copies
(R256, R257), the retained set (R253, R254), and the measurement log (R572 to R574). -/

namespace Sys2Proof.Machine

/-! ## The volume -/

/-- FL_VOL.DRIVES as the numbers of the named ports, in increasing order. -/
def State.volPorts (s : State) (d : Nat) : List Nat := bitsOf (s.rf d Reg.flVol 0 8) 8

/-- U: the units of a stripe. -/
def State.volStripe (s : State) (d : Nat) : Nat := 2 ^ s.rf d Reg.flVol 8 4

/-- FL_STATUS.VOL_READY: every named port's drive is ready and FL_VOL matches that of die 0 (R243). -/
def State.volReady (s : State) (d : Nat) : Bool :=
  let ps := s.volPorts d
  !ps.isEmpty && ps.all (fun p => decide (p < s.part.dies) && s.rbit p Reg.flStatus 3) &&
    s.reg d Reg.flVol == s.reg 0 Reg.flVol

/-- The smallest of some numbers; 0 for none. -/
def leastOf : List Nat → Nat
  | [] => 0
  | [x] => x
  | x :: l => Nat.min x (leastOf l)

/-- FL_VOL_UNITS: ND × floor(Lmin / U) × U (R242). -/
def State.volUnits (s : State) (d : Nat) : Nat :=
  let ps := s.volPorts d
  let u := s.volStripe d
  ps.length * (leastOf (ps.map fun p => s.regPair p Reg.flDrvLbasLo) / u) * u

/-- Where volume unit v lies: port and drive LBA (R242). -/
def State.unitAt (s : State) (d v : Nat) : Nat × Nat :=
  let ps := s.volPorts d
  let u := s.volStripe d
  let k := v / u
  ((ps[k % ps.length]?).getD 0, k / ps.length * u + v % u)

/-- The ports whose drives hold volume units [v, v + n). -/
def State.volPortsOf (s : State) (d v n : Nat) : List Nat :=
  let u := s.volStripe d
  nub ((List.range (Nat.min (s.volPorts d).length ((v + n - 1) / u + 1 - v / u))).map fun k => (s.unitAt d (v + k * u)).1)

/-- The key of a byte of a drive. -/
def flashKey (port lba off : Nat) : Nat := 2 ^ 64 * port + 4096 * lba + off

/-- Bytes of a drive from the start of an LBA. -/
def State.flashBytes (s : State) (port lba len : Nat) : List Byte :=
  (List.range len).map fun i => kvGet memDflt s.flash (flashKey port lba i)

/-- Stores bytes on a drive from the start of an LBA. -/
def State.flashStore (s : State) (port lba : Nat) (bs : List Byte) : State :=
  { s with flash := cellsWrite (fun _ => memDflt) s.flash (flashKey port lba 0) bs }

/-- One unit of the volume. -/
def State.volUnit (s : State) (d v : Nat) : List Byte :=
  let (p, l) := s.unitAt d v
  s.flashBytes p l 4096

/-- The bytes of an image that fills units from `v`. -/
def State.volBytes (s : State) (d v len : Nat) : List Byte :=
  ((List.range (unitsOf len)).flatMap fun i => s.volUnit d (v + i)).take len

/-- The key under which a unit of a drive is listed as not yet durable (R247). -/
def dirtyKey (port lba : Nat) : Nat := 2 ^ 48 * port + lba

/-- Marks units of a drive durable or not. -/
def State.setDirty (s : State) (port lba units : Nat) (on : Bool) : State :=
  (List.range units).foldl (fun s i =>
    { s with dirty := if on then addNew (dirtyKey port (lba + i)) s.dirty else without (dirtyKey port (lba + i)) s.dirty }) s

/-! ## Pieces (R246) -/

/-- The largest transfer of a drive in units; 0 for no limit. -/
def State.mdts (s : State) (port : Nat) : Nat :=
  match s.drives.find? fun x => x.d == port with
  | some x => x.mdts
  | none => 0

/-- Cuts volume units [v, v + n) into pieces by stripe and by each drive's largest transfer; `off` is the offset of `v` in
the transfer and `len` the transfer's bytes from there. The first argument bounds the number of pieces. -/
def State.cutPieces (s : State) (d : Nat) : Nat → Nat → Nat → Nat → Nat → List Piece
  | 0, _, _, _, _ => []
  | fuel + 1, v, n, off, len =>
    if n = 0 then []
    else
      let u := s.volStripe d
      let (port, lba) := s.unitAt d v
      let m := s.mdts port
      let k := Nat.min (u - v % u) n
      let k := if m = 0 then k else Nat.min m k
      ⟨port, lba, k, v, off, Nat.min len (4096 * k), 0⟩ :: s.cutPieces d fuel (v + k) (n - k) (off + 4096 * k) (len - 4096 * k)

/-- Whether an operation of a flash descriptor changes the volume. -/
def fopWrites (fop : Nat) : Bool := fop == 1 || fop == 2 || fop == 3

/-- The units that two ranges share, as a list of at most one range. -/
def overlap (a n b m : Nat) : List (Nat × Nat) :=
  let lo := Nat.max a b
  let hi := Nat.min (a + n) (b + m)
  if lo < hi then [(lo, hi - lo)] else []

/-- Leaves a unit of a drive undefined. -/
def State.blurUnit (s : State) (port lba : Nat) : State :=
  let (t, s) := s.fresh
  s.flashStore port lba ((List.range 4096).map fun i => Config.freeByte t i)

/-- Leaves undefined what a completed piece has moved of some volume units (R248): the memory that a READ wrote. What a piece wrote
on the drive is left undefined with the units themselves. -/
def State.blurMoved (s : State) (y : Xfer) (hits : List (Nat × Nat)) (p : Piece) : State :=
  if y.fop ≠ 0 || p.st ≠ 2 then s
  else (hits.flatMap fun r => overlap p.unit p.units r.1 r.2).foldl (fun s r =>
    let o := 4096 * (r.1 - p.unit)
    s.scramble (y.addr + p.off + o) (Nat.min (4096 * r.2) (p.bytes - o))) s

/-- Leaves undefined the units that two transfers clash on, and what the older one has moved of them (R248). -/
def State.clash (s : State) (y : Xfer) (hits : List (Nat × Nat)) : State :=
  let units := hits.flatMap fun r => (List.range r.2).map (r.1 + ·)
  let s := units.foldl (fun s v => s.blurUnit (s.unitAt y.d v).1 (s.unitAt y.d v).2) s
  y.pieces.foldl (fun s p => s.blurMoved y hits p) s

/-- Starts a flash transfer: its pieces are issued, each is a command, and a clash with a running transfer is noted on both, the
units and what has been read of them being undefined (R248). -/
def State.startXfer (s : State) (x : Xfer) : State :=
  let hit := fun (a b : Xfer) => if fopWrites a.fop || fopWrites b.fop then overlap a.vlba a.units b.vlba b.units else []
  let s := x.pieces.foldl (fun s p => s.bump p.port (Reg.flCntLo 2) 1) s
  let s := s.xfers.foldl (fun s y => s.clash y (hit x y)) s
  let olds := s.xfers.map fun y => { y with clash := y.clash ++ hit x y }
  { s with xfers := olds ++ [{ x with clash := s.xfers.flatMap fun y => hit x y }] }

/-- The transfer of a descriptor or prefetch entry. -/
def State.xfer (s : State) (id : Nat) : Option Xfer := s.xfers.find? fun x => x.id == id

/-- Whether a unit is in the clash of a transfer. -/
def Xfer.clashes (x : Xfer) (v : Nat) : Bool := x.clash.any fun r => decide (r.1 ≤ v) && decide (v < r.1 + r.2)

/-- Bytes of a piece with those of clashing units replaced by free values (R248). -/
def Xfer.blur (x : Xfer) (p : Piece) (t : Nat) (bs : List Byte) : List Byte :=
  if x.clash.isEmpty then bs
  else bs.zipIdx.map fun y => if x.clashes (p.unit + y.2 / 4096) then Config.freeByte t y.2 else y.1

/-- What a piece that the drive completed without error does: a READ writes its bytes to memory, a WRITE stores the
transfer's bytes padded with zeros, a ZERO stores zeros, a TRIM leaves the units undefined, and a FLUSH makes the drive's
data durable (R245 to R247). -/
def State.pieceDone (s : State) (x : Xfer) (p : Piece) : State :=
  let (t, s) := s.fresh
  let n := 4096 * p.units
  match x.fop with
  | 0 => (s.write (x.addr + p.off) ((x.blur p t (s.flashBytes p.port p.lba n)).take p.bytes)).bump p.port (Reg.flCntLo 0) p.units
  | 1 =>
    let s := s.modWork x.id fun w => { w with res := { w.res with poison := w.res.poison || s.tagged (x.addr + p.off) p.bytes } }
    let s := s.flashStore p.port p.lba (x.blur p t (padTo n (s.bytes (x.addr + p.off) p.bytes)))
    (s.setDirty p.port p.lba p.units (!x.fua)).bump p.port (Reg.flCntLo 1) p.units
  | 2 => (s.flashStore p.port p.lba (x.blur p t (List.replicate n 0))).setDirty p.port p.lba p.units true
  | 3 => (s.flashStore p.port p.lba ((List.range n).map fun i => Config.freeByte t i)).setDirty p.port p.lba p.units true
  | _ => { s with dirty := s.dirty.filter fun k => k / 2 ^ 48 != p.port }

/-- Whether a piece has ended. -/
def Piece.over (p : Piece) : Bool := decide (2 ≤ p.st)

/-- Ends a transfer whose pieces have all ended: its descriptor or entry completes with the status it has by then. -/
def State.settleXfer (s : State) (id : Nat) : State :=
  match s.xfer id with
  | some x =>
    if x.pieces.all Piece.over then
      ({ s with xfers := s.xfers.filter fun y => y.id != id }).endWork id (fun c => c)
    else s
  | none => s

/-- Sets the state of the piece of an index of a transfer. -/
def State.setPiece (s : State) (id i st : Nat) : State :=
  let upd := fun (x : Xfer) => { x with pieces := x.pieces.zipIdx.map fun y => if y.2 = i then { y.1 with st := st } else y.1 }
  { s with xfers := mapIf (fun x => x.id == id) upd s.xfers }

/-- Fails a piece: the drive error is counted, and the flash-error status with its details is kept unless an earlier
failure has set it (R246, R431, Table 13-6). -/
def State.failPiece (s : State) (x : Xfer) (i : Nat) (p : Piece) (dword : Nat) : State :=
  let s := s.modWork x.id fun w =>
    if w.res.status = 0 then { w with res := { w.res with status := 0x0D, detail0 := p.port + 65536 * dword } } else w
  (s.setPiece x.id i 3).settleXfer x.id

/-- Fails every piece outstanding on a port, no NVMe completion having arrived. `pick` says which transfers are meant. -/
def State.failPort (s : State) (port : Nat) : State :=
  (s.xfers.flatMap fun x => (x.pieces.zipIdx.filter fun y => y.1.port == port && !y.1.over).map fun y => (x, y)).foldl
    (fun s z => s.failPiece z.1 z.2.2 z.2.1 0) s

/-- The piece of an index of a transfer that has not ended. -/
def State.livePiece (s : State) (id i : Nat) : Option (Xfer × Piece) :=
  match s.xfer id with
  | some x =>
    match x.pieces[i]? with
    | some p => if p.over then none else some (x, p)
    | none => none
  | none => none

/-- Whether the drive of a port may access a bus address: its queue region and the port's staging SRAM (R241). -/
def State.driveSees (s : State) (port a : Nat) : Bool :=
  let q := s.regAddr port Reg.flQbaseLo
  (decide (q ≤ a) && decide (a < q + 2 ^ 22)) || (decide (Config.stageBus port ≤ a) && decide (a < Config.stageBus port + 2 ^ 23))

/-- Any other access of a drive receives Unsupported Request, and the RAS block logs it (R241). -/
def State.stray (s : State) (port a : Nat) : State :=
  if s.driveSees port a then s
  else ({ s with ras := { s.ras with strays := s.ras.strays ++ [(port, a)] } }).emit (.driveUr port a)

/-- Whether the memory that a piece reads or writes meets a block whose re-fetch is queued: the transfer waits (R257). -/
def State.pieceWaits (s : State) (x : Xfer) (p : Piece) : Bool := decide (x.fop ≤ 1) && s.refetching ⟨x.addr + p.off, p.bytes, true⟩

/-- FLASH_PIECE_COMPLETE: the drive completes a piece. The phase bit of the status is its lowest bit, and SC and SCT zero mean
success. A piece being aborted fails whatever it reports (R246). The accesses that the drive tried come with it (assumption 74). -/
def execFlashPieceComplete (id piece : Nat) (c : DriveEnd) (s : State) : Res :=
  live s (
    match s.livePiece id piece with
    | none => s
    | some (x, p) =>
      if s.pieceWaits x p then s
      else
      let s := c.strays.foldl (fun s a => s.stray p.port a) s
      if p.st = 0 && fld c.status 1 11 = 0 then ((s.pieceDone x p).setPiece id piece 2).settleXfer id
      else (s.bump p.port (Reg.flCntLo 3) 1).failPiece x piece p (c.status % 65536))

/-- FLASH_PIECE_TIMEOUT: a piece outstanding after FL_TIMEOUT is aborted (R246). -/
def execFlashPieceTimeout (id piece : Nat) (s : State) : Res :=
  live s (
    match s.livePiece id piece with
    | none => s
    | some (_, p) => if p.st = 0 then (s.setPiece id piece 1).bump p.port (Reg.flCntLo 4) 1 else s)

/-- FLASH_ABORT_TIMEOUT: an abort on the port has not completed within 100 ms. The port resets the drive's controller, and
every piece outstanding on the port fails (R246). -/
def execFlashAbortTimeout (port : Nat) (s : State) : Res :=
  onDie s port (if s.xfers.any (fun x => x.pieces.any fun p => p.port == port && p.st == 1) then s.failPort port else s)

/-! ## Flash descriptors (R245, R423) -/

/-- FOP of a FLASH descriptor. -/
def Work.fop (w : Work) : Nat := w.f 8 1 % 8
/-- VLBA of a FLASH descriptor. -/
def Work.flVlba (w : Work) : Nat := w.addr 10
/-- ADDR of a FLASH descriptor. -/
def Work.flAddr (w : Work) : Nat := w.addr 16
/-- LEN of a FLASH descriptor. -/
def Work.flLen (w : Work) : Nat := w.f 22 4
/-- DST_OBJ of a FLASH descriptor. -/
def Work.flObj (w : Work) : Nat := w.f 28 4

/-- The memory range of a FLASH descriptor: READ writes it and WRITE reads it. -/
def flashRanges (_ : State) (w : Work) : List Rng :=
  if w.fop = 0 then [⟨w.flAddr, w.flLen, true⟩] else if w.fop = 1 then [⟨w.flAddr, w.flLen, false⟩] else []

/-- Whether a volume range is being read for a measurement (R572). -/
def State.volMeasured (s : State) (v n : Nat) : Bool :=
  s.measuring.any fun m => m.flash && !(overlap m.addr (unitsOf m.len) v n).isEmpty

/-- The codes of a FLASH descriptor (R243, R245): fields, volume range, volume not ready; 255 while it would write units
under measurement. -/
def flashCodes (s : State) (w : Work) : List Nat :=
  let d := w.die
  let n := unitsOf w.flLen
  let moves := w.fop == 0 || w.fop == 1
  [need (w.f 8 1 / 16 == 0 && w.f 9 1 == 0 && w.f 26 2 == 0 && leAt w.bytes 32 32 == 0 && w.flObj / 2 ^ 20 == 0),
   need (decide (w.fop ≤ 4) && (!moves || w.flAddr % 64 == 0) && (w.fop == 4 || (w.flLen != 0 && w.flLen % 64 == 0))),
   if s.rbit d Reg.flCtrl 0 && s.volReady d then 0 else 7,
   if w.fop == 4 || w.flVlba + n ≤ s.volUnits d then 0 else 2,
   s.pairCode d (if w.fop == 4 then s.volPorts d else s.volPortsOf d w.flVlba n) (flashRanges s w),
   if fopWrites w.fop && s.volMeasured w.flVlba n then 255 else 0] ++
  s.groupCodes w w.flObj (w.flAddr, w.flLen)

/-- Starts the transfer of a FLASH descriptor. A FLUSH sends one Flush to every named drive. -/
def State.flashBody (s : State) (w : Work) : State :=
  let d := w.die
  let s := s.stageIf w w.flObj
  let n := unitsOf w.flLen
  let ps := if w.fop = 4 then (s.volPorts d).map fun p => (⟨p, 0, 0, 0, 0, 0, 0⟩ : Piece)
    else s.cutPieces d n w.flVlba n 0 w.flLen
  let n := if w.fop = 4 then 0 else n
  s.startXfer ⟨w.id, d, w.fop, w.flVlba, n, w.flAddr, w.bit 8 3, [], [], ps⟩

/-- Starts a FLASH descriptor whose FOP a test picks. -/
def State.flash1 (s : State) (id : Nat) (op : Nat → Bool) : Res :=
  live s (s.begin id (fun w => w.kind == 0x30 && op w.fop) flashRanges flashCodes State.flashBody)

/-- FLASH READ; a descriptor with a reserved FOP, which ends with the parameter-error status, comes here too. -/
def execFlashRead (id : Nat) (s : State) : Res := s.flash1 id fun o => o == 0 || decide (5 ≤ o)
/-- FLASH WRITE. -/
def execFlashWrite (id : Nat) (s : State) : Res := s.flash1 id (· == 1)
/-- FLASH ZERO. -/
def execFlashZero (id : Nat) (s : State) : Res := s.flash1 id (· == 2)
/-- FLASH TRIM. -/
def execFlashTrim (id : Nat) (s : State) : Res := s.flash1 id (· == 3)
/-- FLASH FLUSH. -/
def execFlashFlush (id : Nat) (s : State) : Res := s.flash1 id (· == 4)

/-! ## The retained set (R253 to R255) -/

/-- Units of 64 KiB that a length fills. -/
def units64k (len : Nat) : Nat := (len + 65535) / 65536

/-- Takes an object out of the retained sets that a test picks and returns its claims. -/
def State.releaseKept (s : State) (pick : Kept → Bool) : State :=
  let s := (s.kept.filter pick).foldl (fun s k =>
    s.setRegN k.d (Reg.seqRetainUsed k.p) (s.rf k.d (Reg.seqRetainUsed k.p) 0 24 - k.units)) s
  { s with kept := s.kept.filter fun k => !pick k }

/-- A claim of partition `p` on die `d` at the end of a gather: the object enters the set when RETAIN is set, the budget, as it
stood when the gather started (R265), holds it and the set has room (R253). -/
def State.claimKept (s : State) (d p obj budget : Nat) : State :=
  let r := s.obj d obj
  let n := units64k r.len
  let used := s.rf d (Reg.seqRetainUsed p) 0 24
  if r.valid && r.retain && decide (used + n ≤ budget) &&
      decide ((s.kept.filter fun k => k.d == d).length < 1024) && !(s.kept.any fun k => k.d == d && k.obj == obj) then
    ({ s with kept := s.kept ++ [(⟨d, p, obj, n⟩ : Kept)] }).setRegN d (Reg.seqRetainUsed p) (used + n)
  else s

/-! ## The poison log and the re-fetch (R256, R257, R591) -/

/-- Writes an entry of a die's poison log (Table 19-7). -/
def State.rasLogAdd (s : State) (d addr src refetch owner : Nat) : State :=
  let i := s.rf d Reg.rasLogHead 0 6
  let s := s.setRegN d (Reg.rasLog i 0) s.refCount
  let s := s.setRegN d (Reg.rasLog i 1) addr
  let s := s.setRegN d (Reg.rasLog i 2) (addr / 2 ^ 32 % 65536 + 65536 * src + 2 ^ 17 * refetch)
  let s := s.setRegN d (Reg.rasLog i 3) owner
  s.setRegN d Reg.rasLogHead ((i + 1) % 64)

/-- The end of the die's oldest re-fetch. One that succeeds rewrites the block and clears its marks; one that
fails, or finds the volume not ready, leaves the lines poisoned, and the RAS block logs it (R257). -/
def State.refetchEnd (s : State) (d : Nat) (ok : Bool) : State :=
    match s.refetch.find? fun b => b.d == d with
    | none => s
    | some b =>
      let s := { s with refetch := s.refetch.erase b }
      let s := s.setRbit d Reg.rasStatus 2 false
      let (port, lba) := s.unitAt d b.unit
      if ok && s.volReady d && decide (b.unit < s.volUnits d) then
        let s := (s.write b.addr ((s.flashBytes port lba 4096).take b.len)).bump d (Reg.flCntLo 5) 1
        ((s.bump port (Reg.flCntLo 0) 1).bump port (Reg.flCntLo 2) 1).access true b.addr b.len
      else (s.bump d (Reg.flCntLo 6) 1).rasLogAdd d b.addr 0 1 b.obj

/-! ## The measurement log (R572 to R574) -/

/-- Appends an entry to the log of die 0's guard: the running value takes it, and it is stored while fewer than 8,192 are. -/
def State.measAppend (s : State) (entry : List Byte) : State :=
  let l := s.measLog
  let full := decide (8192 ≤ l.entries.length)
  let s := { s with measLog := { l with entries := if full then l.entries else l.entries ++ [entry], value := sha384 (l.value ++ entry) } }
  let s := s.setRegN 0 Reg.grdMeasCount (s.regN 0 Reg.grdMeasCount + 1)
  if full then s.setAlert 5 true else s

/-- A log entry (R573). -/
def measEntry (kind p d obj len : Nat) (digest : List Byte) : List Byte :=
  natLe 1 kind ++ natLe 1 (p + 16 * d) ++ natLe 2 0 ++ natLe 4 obj ++ natLe 6 len ++ natLe 2 0 ++ digest

/-- The first load of a program image in a partition appends an entry of KIND 0x1 (R572). `bytes` are the image's header
and instructions. -/
def State.measProgram (s : State) (p d obj : Nat) (bytes : List Byte) : State :=
  let h := sha384 bytes
  if s.measLog.images.contains (p, h) then s
  else ({ s with measLog := { s.measLog with images := s.measLog.images ++ [(p, h)] } }).measAppend
    (measEntry 1 p d obj bytes.length h)

/-- MEASURE_OBJECT: the guard of the object's HOME_DIE ends a measurement and appends an entry of KIND 0x2 (R572). -/
def execMeasureObject (obj : Nat) (s : State) : Res :=
  live s (
    match s.measuring.find? fun m => m.obj == obj with
    | none => s
    | some m =>
      let bs := if m.flash then s.volBytes m.d m.addr m.len else s.bytes m.addr m.len
      ({ s with measuring := s.measuring.erase m }).measAppend (measEntry 2 m.part m.d obj m.len (sha384 bs)))

end Sys2Proof.Machine
end

