-- ==== Sys2Proof/Machine/Wheel.lean ====
section
/-! DEFINITION. The wheel (chapter 11): groups, the fields of a collective descriptor, wheel frames to a member, reduction of
one tile, token rows, and the progress of a collective from its start frames to its completion. -/

namespace Sys2Proof.Machine

/-! ## Groups (Tables 11-3 and 11-4) -/

/-- A group record, with its number; `rsvd` says that a reserved field is not zero, `entries` holds the member entries that a
GROUP_SET copied with it. -/
structure Grp where
  num     : Nat
  axis    : Nat
  part    : Nat
  n       : Nat
  valid   : Bool
  rank    : Nat
  gen     : Nat
  die     : Nat
  members : Nat
  coll    : Nat
  rsvd    : Bool
  entries : Option (List Byte)
deriving DecidableEq, Repr

/-- A group record from its 64 bytes. -/
def Grp.ofBytes (num : Nat) (b : List Byte) : Grp :=
  let b0 := leAt b 0 1
  let b1 := leAt b 1 1
  ⟨num, b0 % 8, b0 / 16, b1 % 128, bit b1 7, leAt b 2 1 % 64, leAt b 3 1, leAt b 4 1 % 8, leAt b 8 6, leAt b 16 4,
    bit b0 3 || leAt b 2 1 / 64 != 0 || leAt b 4 1 / 8 != 0 || leAt b 5 3 != 0 || leAt b 14 2 != 0 || leAt b 20 44 != 0, none⟩

/-- The address of a group record, as die `d` holds the table. -/
def State.grpAddr (s : State) (d g : Nat) : Nat := s.regAddr d Reg.whlGrpBaseLo + 64 * g

/-- Whether a group record lies in the HBM that the part has (R651). -/
def State.grpIn (s : State) (d g : Nat) : Bool := inHbm s.part.dies (s.grpAddr d g) 64

/-- A group record; not in use outside the table or the HBM (R332, R651). -/
def State.grp (s : State) (d g : Nat) : Grp :=
  if decide (g < s.regN d Reg.whlGrpCount) && s.grpIn d g then
    { Grp.ofBytes g (s.bytes (s.grpAddr d g) 64) with entries := kvFind s.whl.entries (s.grpAddr d g) }
  else Grp.ofBytes g []

/-- A member entry: MAC address, coordinates encoded as in Table 11-5 (the die number for MESH), SIDE, and whether a reserved
bit is set. -/
structure Member where
  mac  : Nat
  xyz  : Nat
  side : Bool
  rsvd : Bool
deriving DecidableEq, Repr

/-- A member entry from its 8 bytes. -/
def Member.ofBytes (b : List Byte) : Member :=
  let x := leAt b 6 1
  let yz := leAt b 7 1
  ⟨leAt b 0 6, x % 64 + 64 * (yz % 16) + 1024 * (yz / 16), bit x 6, bit x 7⟩

/-- The entry of a rank: as GROUP_SET copied it (R334), and in memory for a template and for a record that no GROUP_SET wrote. -/
def State.member (s : State) (g : Grp) (r : Nat) : Member :=
  match g.entries with
  | some b => Member.ofBytes ((b.drop (8 * r)).take 8)
  | none => Member.ofBytes (s.bytes (g.members + 8 * r) 8)

/-- The other ranks of a group. -/
def Grp.others (g : Grp) : List Nat := without g.rank (List.range g.n)

/-- Whether a member is lost to the group: reported failed, or no route reaches it (R343). -/
def State.memberLost (s : State) (g : Grp) (r : Nat) : Bool :=
  let m := s.member g r
  if r = g.rank then false
  else if g.axis = 0 then s.dieOut m.xyz || s.cutPair g.die m.xyz
  else if m.side then !(s.portUp 6 || s.portUp 7) || s.torus.failed.any fun x => x.1 == 2 ^ 14 && Config.sideMac x.2 == m.mac
  else (s.torus.failed.any fun x => x.1 == m.xyz) || (s.route m.xyz).isNone

/-- The own port by which frames to a member leave; none on the die mesh and where no route is open (R341). -/
def State.portTo (s : State) (g : Grp) (r : Nat) : Option Nat :=
  let m := s.member g r
  if g.axis = 0 then none
  else if m.side then some s.sidePort
  else (s.route m.xyz).join

/-- Whether the own port by which frames to a member leave carries wheel frames (R338). -/
def State.memberFrames (s : State) (g : Grp) (r : Nat) : Bool :=
  match s.portTo g r with
  | some p => decide (8256 ≤ s.ethMaxfrm p)
  | none => true

/-! ## The descriptor (Tables 11-6 and 13-3) -/

/-- COP. -/
def Work.cop (w : Work) : Nat := w.f 8 1 % 16
/-- GROUP of a collective. -/
def Work.cgrp (w : Work) : Nat := w.f 8 2 / 16
/-- SRC of a collective. -/
def Work.cSrc (w : Work) : Nat := w.addr 10
/-- DST of a collective. -/
def Work.cDst (w : Work) : Nat := w.addr 16
/-- LISTS. -/
def Work.cLists (w : Work) : Nat := w.addr 28
/-- DSCALE. -/
def Work.cScale (w : Work) : Nat := w.f 38 4
/-- WIDTH. -/
def Work.cWidth (w : Work) : Nat := w.f 42 2
/-- ROWS. -/
def Work.cRows (w : Work) : Nat := w.f 44 2 % 2 ^ 15
/-- FMT_OUT. -/
def Work.cOut (w : Work) : Nat := w.f 46 1 % 2
/-- KEEP. -/
def Work.cKeep (w : Work) : Nat := fld (w.f 46 1) 4 2
/-- DIST. -/
def Work.cDist (w : Work) : Int := sext (w.f 47 1) 7
/-- SLOTS. -/
def Work.cSlots (w : Work) : Nat := w.addr 48
/-- Tile columns of a row. -/
def Work.cCols (w : Work) : Nat := w.cWidth / 128

/-- The conversion that a collective asks for, to a format and scale. -/
def Work.cDest (w : Work) (fmt ts : Nat) : Dest :=
  ⟨fmt, ts, none, (rndOf (fld (w.f 46 1) 1 2)).getD .nearest, w.bit 46 3, Machine.bit w.ftz 3, w.srKey, w.f 34 4⟩

/-- A piece-table entry (R349). -/
structure Pce where
  src  : Nat
  dst  : Nat
  n    : Nat
  rsvd : Bool
deriving DecidableEq, Repr

/-- The piece-table entry of a rank. -/
def State.piece (s : State) (w : Work) (k : Nat) : Pce :=
  let b := s.bytes (w.addr 22 + 16 * k) 16
  ⟨leAt b 0 4, leAt b 4 4, leAt b 8 4, leAt b 12 4 != 0⟩

/-- The format of a collective's source tiles. -/
def State.collFmt (s : State) (w : Work) : Nat := s.srcFmt w.cSrc

/-- The address of source tile `t` of piece `k`. -/
def State.pieceSrc (s : State) (w : Work) (k t : Nat) : Nat := w.cSrc + ((s.piece w k).src + t) * tileStride (s.collFmt w)

/-- The address of destination tile `t` of piece `k` in a format. -/
def State.pieceDst (s : State) (w : Work) (fmt k t : Nat) : Nat := w.cDst + ((s.piece w k).dst + t) * tileStride fmt

/-- Rank `r + k` of a group of `n`, for an integer `k`. -/
def rankPlus (n r : Nat) (k : Int) : Nat := (((r : Int) + k) % (Nat.max 1 n : Nat)).toNat

/-- The next rank in a direction: `false` for +. -/
def nextRank (n r : Nat) (minus : Bool) : Nat := rankPlus n r (if minus then -1 else 1)

/-- The formats of the tiles that a collective writes, where its descriptor settles it. -/
def State.collOut (s : State) (w : Work) : Nat := if w.cop ≤ 1 then w.cOut else s.collFmt w

/-! ## Progress of a collective -/

/-- A running collective by its descriptor. -/
def State.coll (s : State) (id : Nat) : Option Coll := s.whl.colls.find? fun c => c.id == id

/-- Changes a running collective. -/
def State.modColl (s : State) (id : Nat) (f : Coll → Coll) : State :=
  { s with whl := { s.whl with colls := mapIf (fun c => c.id == id) f s.whl.colls } }

/-- Runs an effect on a running collective with its descriptor and group; nothing where it has ended. -/
def State.onColl (s : State) (id : Nat) (f : State → Work → Coll → Grp → State) : State :=
  match s.coll id, s.work id with
  | some c, some w => f s w c (s.grp c.d c.group)
  | _, _ => s

/-- Ends a collective: COLLECTIVES counts it, its record takes the flags and poison met, and its destination is left undefined
when a peer was lost or did not advance (R343, R347). -/
def State.endColl (s : State) (id status : Nat) : State :=
  match s.coll id with
  | none => s
  | some c =>
    let s := { s with whl := { s.whl with colls := s.whl.colls.filter fun x => x.id != id } }
    let s := s.bump c.d (Reg.whlCntLo 0) 1
    let s := if status = 0x12 || status = 0x14 then c.dst.foldl (fun s r => s.scramble r.1 r.2) s else s
    s.endWork id fun x =>
      { x with status := status, flags := c.flags, poison := c.poison, checksum := c.crc, detail0 := c.num }

/-- Counts a wheel frame that does not match. -/
def State.whlMismatch (s : State) (d : Nat) : State := s.bump d (Reg.whlCntLo 4) 1

/-- Sends a wheel frame of a collective to a member, at the priority that WHL_CTRL.PRIO held when it started (R339, R365): by its
port, or for MESH over the die route in force, without which it is dropped (R341). -/
def State.whlSend (s : State) (c : Coll) (dest : Nat) (f : WheelFrame) : State :=
  let g := s.grp c.d c.group
  let m := s.member g dest
  let f := { f with group := c.group, coll := c.num, srcRank := c.rank, dstRank := dest, dstXyz := m.xyz, srcXyz := if g.axis = 0 then c.d else s.selfXyz }
  let prio := if f.kind = 1 then 7 else c.prio
  if g.axis = 0 then
    match s.dieRoute c.d m.xyz with
    | some route => s.emit (.mesh c.d route { f with mesh := true })
    | none => s
  else if m.side then s.sendSide prio m.mac (.wheel f)
  else s.sendRouted prio none (.wheel f)

/-- The pieces whose source tiles this member reads. -/
def Work.readPieces (w : Work) (g : Grp) : List Nat :=
  if w.cop ≤ 1 || w.cop = 4 then List.range g.n else [g.rank]

/-- The source format that a member's digest names; 255 where it reads no tile, so that it has none (assumption 38). -/
def State.digestFmt (s : State) (w : Work) (g : Grp) : Nat :=
  if w.cop ≤ 4 && (w.readPieces g).all fun k => (s.piece w k).n == 0 then 255 else s.collFmt w

/-- The digest of a collective (R344), 32 bytes in this model's layout: COP, GEN, SIZE, formats, and the CRC-32C over the COUNT
fields where the members hold the same (assumption 38). -/
def State.digest (s : State) (w : Work) (g : Grp) : List Byte :=
  let counts := (List.range g.n).flatMap fun k => natLe 4 (s.piece w k).n
  natLe 1 w.cop ++ natLe 1 g.gen ++ natLe 1 g.n ++ natLe 1 (if w.cop ≤ 1 then w.cOut else 0) ++
    natLe 4 (s.digestFmt w g) ++ natLe 4 (if w.cop ≤ 3 then crc32c counts else 0) ++
    natLe 4 (if 5 ≤ w.cop then w.cWidth else 0) ++ List.replicate 16 0

/-- Whether two digests agree: in every byte, the source format aside where a member has none. -/
def digestSame (a b : List Byte) : Bool :=
  a.take 4 == b.take 4 && a.drop 8 == b.drop 8 && (leAt a 4 4 == 255 || leAt b 4 4 == 255 || leAt a 4 4 == leAt b 4 4)

/-- The ranks that a collective sends start frames to (R344, R354). -/
def Work.partners (w : Work) (g : Grp) : List Nat :=
  if w.cop ≤ 1 || (w.cop = 2 && w.cKeep ≠ 2) then without g.rank (nub [nextRank g.n g.rank false, nextRank g.n g.rank true])
  else if w.cop = 3 then without g.rank (nub [rankPlus g.n g.rank w.cDist, rankPlus g.n g.rank (-w.cDist)])
  else g.others

/-- The ranks that send data to this member. -/
def Work.senders (w : Work) (g : Grp) : List Nat :=
  if w.cop = 3 then without g.rank [rankPlus g.n g.rank (-w.cDist)] else w.partners g

/-- Tiles, or rows for EXCHANGE and RETURN, that one grant allows (R345). -/
def Work.grantSize (w : Work) : Nat := if 5 ≤ w.cop then 256 else 32

/-- Grants credits to a sender that has none left (R345). -/
def State.grantTo (s : State) (id from_ : Nat) : State :=
  s.onColl id fun s w c _ =>
    if kvGet 0 c.grant from_ = 0 then
      let n := w.grantSize
      (s.modColl id fun c => { c with grant := kvPut c.grant from_ n }).whlSend c from_ { WheelFrame.bare 1 0 0 with credit := n }
    else s

/-- Counts one tile or row that a sender's credit brought here. -/
def State.spent (s : State) (id from_ : Nat) : State :=
  (s.modColl id fun c => { c with grant := kvPut c.grant from_ (kvGet 0 c.grant from_ - 1) }).grantTo id from_

/-- The sizes of the slices of a tile: eight of equal size; of a row, at most 8,200 bytes each (R338). -/
def sliceSize (tile : Bool) (len : Nat) : Nat := if tile then len / 8 else Nat.min len 8200

/-- Cuts bytes into slices. -/
def slicesOf (size : Nat) : Nat → List Byte → List (List Byte)
  | 0, _ => []
  | fuel + 1, bs => if bs.isEmpty then [] else bs.take size :: slicesOf size fuel (bs.drop size)

/-- Takes what a collective read or one addition found into it. -/
def State.noteColl (s : State) (id flags : Nat) (bad crc : Bool) : State :=
  s.modColl id fun c => { c with flags := Nat.lor c.flags flags, poison := c.poison || bad, crc := c.crc || crc }

/-- Sends one tile or row as data frames, the last slice marked (R338); poison that it reads is the sender's too (R27). -/
def State.sendData (s : State) (w : Work) (c : Coll) (x : CSend) : State :=
  let bs := match x.addr with
    | some (a, len) => s.bytes a len
    | none => x.bytes
  let bad := x.poison || match x.addr with | some (a, len) => s.tagged a len | none => false
  let tile := decide (w.cop ≤ 4)
  let parts := slicesOf (Nat.max 1 (sliceSize tile bs.length)) 8 bs
  let s := parts.zipIdx.foldl (fun s y => s.whlSend c x.dst { WheelFrame.bare 0 0 0 with
    phase := x.phase, dir := x.dir, last := y.2 + 1 == parts.length, poison := bad, slice := y.2, index := x.index, piece := x.piece, payload := y.1 }) s
  if tile then (s.bump c.d (Reg.whlCntLo 1) 1).noteColl c.id 0 (bad || bit (leAt bs 1 1) 0) false else s

/-- Bytes queued on the port by which frames to a rank leave. -/
def State.queuedTo (s : State) (g : Grp) (r : Nat) : Nat :=
  match s.portTo g r with
  | some p => sumNat ((s.eth p).txq.map fun f => f.item.size)
  | none => 0

/-- Aims a tile of free mode that is about to be sent first (`dir` 2): the direction with fewer bytes queued, + on a tie (R351). -/
def State.aim (s : State) (c : Coll) (x : CSend) : CSend :=
  if x.dir ≠ 2 then x
  else
    let g := s.grp c.d c.group
    let up := nextRank c.n c.rank false
    let dn := nextRank c.n c.rank true
    let m := decide (s.queuedTo g dn < s.queuedTo g up)
    { x with dir := b2n m, dst := if m then dn else up }

/-- Whether the source of a queued tile meets a block whose re-fetch is queued: its collective waits (R257). -/
def State.sendWaits (s : State) (x : CSend) : Bool :=
  match x.addr with
  | some (a, len) => s.refetching ⟨a, len, false⟩
  | none => false

/-- Sends what a collective has queued, in order, to each member while its credits last. -/
def State.pumpColl (id : Nat) : Nat → State → State
  | 0, s => s
  | fuel + 1, s =>
    match s.coll id, s.work id with
    | some c, some w =>
      match c.queue.findIdx? fun x => decide (0 < kvGet 0 c.credit (s.aim c x).dst) with
      | none => s
      | some i =>
        match c.queue[i]? with
        | none => s
        | some x =>
          if s.sendWaits x then s
          else
          let x := s.aim c x
          let s := s.modColl id fun c => { c with queue := c.queue.take i ++ c.queue.drop (i + 1), credit := kvPut c.credit x.dst (kvGet 0 c.credit x.dst - 1) }
          State.pumpColl id fuel (s.sendData w c x)
    | _, _ => s

/-- Whether a frame of a collective is still queued or unacknowledged on some port (R355, R356). -/
def State.collUnacked (s : State) (c : Coll) : Bool :=
  let is := fun (i : TxItem) => match i with
    | .wheel f => f.kind == 0 && f.group == c.group && f.coll == c.num && f.srcRank == c.rank
    | _ => false
  (s.eths.any fun e => e.txq.any fun x => is x.item) || s.wires.any fun l => l.held.any fun h => is h.f.item

/-! ## Token rows (R358 to R360) -/

/-- The entry of a counts vector in memory. -/
def State.countsAt (s : State) (a : Nat) : List Nat := (List.range 64).map fun i => s.memN (a + 4 * i) 4

/-- The count for slot `sl` from source `q`. -/
def Coll.count (c : Coll) (q sl : Nat) : Nat := ((kvGet [] c.counts q)[sl]?).getD 0

/-- Rows of a slot from all sources. -/
def Coll.total (c : Coll) (sl : Nat) : Nat := sumNat ((List.range c.n).map fun q => c.count q sl)

/-- B(s): the first row of a slot's matrix (R358). -/
def Coll.first (c : Coll) (sl : Nat) : Nat := sumNat ((List.range sl).map fun x => 128 * tilesOf (c.total x))

/-- The slot of the row at index `i` of source `q`'s list, and its place among that source's rows of the slot. -/
def Coll.slotOf (c : Coll) (q : Nat) : Nat → Nat → Nat → Nat × Nat
  | 0, sl, i => (sl, i)
  | fuel + 1, sl, i => if i < c.count q sl then (sl, i) else c.slotOf q fuel (sl + 1) (i - c.count q sl)

/-- The row of the home's matrix that holds row `i` of source `q`'s list (R358). -/
def Coll.rowOf (c : Coll) (q i : Nat) : Nat :=
  let (sl, o) := c.slotOf q 64 0 i
  c.first sl + sumNat ((List.range q).map fun x => c.count x sl) + o

/-- Rows in source `q`'s list. -/
def Coll.listLen (c : Coll) (q : Nat) : Nat := sumNat ((List.range 64).map fun sl => c.count q sl)

/-- Valid rows of tile row `b` of the matrix that a collective writes. -/
def Coll.validRows (c : Coll) (w : Work) (b : Nat) : Nat :=
  if w.cop = 6 then Nat.min 128 (w.cRows - 128 * b)
  else
    sumNat ((List.range 64).map fun sl =>
      let lo := c.first sl / 128
      if lo ≤ b && b < lo + tilesOf (c.total sl) then Nat.min 128 (c.total sl - 128 * (b - lo)) else 0)

/-- The bytes of a row of a token matrix as it travels, in this model's layout: the format, for each tile column the
TENSOR_SCALE, whether a zero point is present and the zero point where the format uses a scale, then the elements, then the
block scales. -/
def State.rowBytes (s : State) (base f cols row : Nat) : List Byte :=
  let tile := fun (j : Nat) => base + (row / 128 * cols + j) * tileStride f
  let r := row % 128
  natLe 1 f ++
  (if usesScale f then (List.range cols).flatMap fun j =>
    let h := s.hdr (tile j)
    natLe 4 h.ts ++ natLe 1 (b2n h.zpOn) ++ natLe 1 h.zp else []) ++
  ((List.range cols).flatMap fun j =>
    let h := s.hdr (tile j)
    (List.range (16 * elemBits f)).map fun i => BitVec.ofNat 8 (packByte f (fun k => s.exactCode (tile j) h r k) i)) ++
  (List.range cols).flatMap fun j =>
    let n := scaleBytes f / 128
    s.bytes (tile j + 64 + elemBytes f + n * r) n

/-- Whether a row of a token matrix carries poison: a tag, a flag or a failed checksum of one of its tiles (R26, R27). -/
def State.rowBad (s : State) (base f cols row : Nat) : Bool × Bool :=
  let xs := (List.range cols).map fun j => s.tileBad (base + (row / 128 * cols + j) * tileStride f)
  (xs.any Prod.fst, xs.any Prod.snd)

/-- FORMAT of a travelling row. -/
def rowFmt (b : List Byte) : Nat := leAt b 0 1
/-- TENSOR_SCALE of tile column `j` of a travelling row. -/
def rowTs (b : List Byte) (j : Nat) : Nat := if usesScale (rowFmt b) then leAt b (1 + 6 * j) 4 else f32one
/-- The zero point of tile column `j` of a travelling row. -/
def rowZp (b : List Byte) (j : Nat) : Option Nat :=
  if usesScale (rowFmt b) && leAt b (5 + 6 * j) 1 != 0 then some (leAt b (6 + 6 * j) 1) else none
/-- Where the elements of a travelling row begin. -/
def rowBody (b : List Byte) (cols : Nat) : Nat := 1 + (if usesScale (rowFmt b) then 6 * cols else 0)

/-- The code of column `k` of tile column `j` of a travelling row. -/
def State.rowCode (s : State) (b : List Byte) (cols j k : Nat) : Nat :=
  let f := rowFmt b
  let v := { s with wiped := [], mem := cellsWrite (fun _ => memDflt) [] 64 (b.drop (rowBody b cols + j * (16 * elemBits f))) }
  v.code 0 f k

/-- The scale word of block `i` of tile column `j` of a travelling row (two bytes for NB4). -/
def rowScale (b : List Byte) (cols j i : Nat) : Nat :=
  let f := rowFmt b
  let n := scaleBytes f / 512
  leAt b (rowBody b cols + cols * (16 * elemBits f) + (4 * j + i) * n) n

/-- The exact value of column `k` of tile column `j` of a travelling row. -/
def State.rowVal (s : State) (b : List Byte) (cols j k : Nat) : Val :=
  let f := rowFmt b
  let v := codeVal f (match rowZp b j with | some z => sext z 8 | none => 0) (s.rowCode b cols j k)
  let x := rowScale b cols j (k / 32)
  let v := if f = 13 then (if x % 256 = 255 then .nan false else v.scale ((x % 256 : Nat) - (127 : Int) - (x / 256 / 4 ^ (k % 32 / 8) % 4 : Nat)))
    else if isBlock f then (if x = 255 then .nan false else v.scale ((x : Int) - 127)) else v
  if usesScale f then v.times (rowTs b j) else v

/-- A row brought to DSCALE, for matrix row `row`: its bytes and the flags raised (R359). A tile column whose TENSOR_SCALE
equals DSCALE and that carries no zero point stays as it is. -/
def State.rescaleRow (s : State) (w : Work) (row : Nat) (b : List Byte) : List Byte × Nat :=
  let f := rowFmt b
  let cols := w.cCols
  if !usesScale f then (b, 0)
  else
    let r := row % 128
    let one := fun (j : Nat) =>
      if rowTs b j = w.cScale && (rowZp b j).isNone then none
      else
        let t : NewTile := ⟨f, r + 1, 128, w.cScale, none, 0xFFFFFFFF, row / 128 * cols + j, false⟩
        some (convertTile (w.cDest f w.cScale) t false false fun i k => if i = r then s.rowVal b cols j k else .zero false)
    let out := (List.range cols).map one
    let at_ := fun (j : Nat) => (out[j]?).getD none
    let code := fun (j k : Nat) => match at_ j with | some x => kvGet 0 x.codes (128 * r + k) | none => s.rowCode b cols j k
    let scale := fun (j i : Nat) => match at_ j with | some x => kvGet 0 x.scale (4 * r + i) | none => rowScale b cols j i
    (natLe 1 f ++ ((List.range cols).flatMap fun _ => natLe 4 w.cScale ++ natLe 2 0) ++
      ((List.range cols).flatMap fun j => (List.range (16 * elemBits f)).map fun i => BitVec.ofNat 8 (packByte f (code j) i)) ++
      ((List.range cols).flatMap fun j => (List.range 4).flatMap fun i => natLe (scaleBytes f / 512) (scale j i)),
      out.foldl (fun fl x => match x with | some x => Nat.lor fl x.flags | none => fl) 0)

/-- The value that all rows of a tile share, if they do. -/
def sameAll (l : List Nat) : Option Nat :=
  match l with
  | [] => none
  | x :: xs => if xs.all fun y => y == x then some x else none

/-- Where the token matrix that a collective writes begins. -/
def Work.matBase (w : Work) : Nat := if w.cop = 5 then w.cDst + 16384 else w.cDst

/-- Writes the tiles of tile row `b` once all its valid rows have arrived (R359, R360). Rows of a RETURN whose TENSOR_SCALE or
zero point differ leave the tile's a free value, a TENSOR_SCALE that is positive, normal and finite as R24 asks: the spec states
none (assumption 37). -/
def State.writeRows (s : State) (id b : Nat) : State :=
  s.onColl id fun s w c _ =>
    let n := c.validRows w b
    let rows := c.rows.filter fun x => x.row / 128 == b
    if n = 0 || rows.length < n then s
    else
      let f := s.collFmt w
      let cols := w.cCols
      let rowAt := fun (r : Nat) => ((rows.find? fun x => x.row % 128 == r).map fun x => x.bytes).getD []
      let bad := rows.any fun x => x.poison
      let s := (List.range cols).foldl (fun s j =>
        let (v, s) := s.freeVal 40
        let ts := if !usesScale f then f32one else (sameAll (rows.map fun x => rowTs x.bytes j)).getD (0x00800000 + v % 0x7F000000)
        let zs := rows.map fun x => match rowZp x.bytes j with | some z => z + 1 | none => 0
        let zp := match sameAll zs with
          | some 0 => none
          | some z => some (z - 1)
          | none => some (v / 2 ^ 32)
        let q := b * cols + j
        s.writeTile (w.matBase + q * tileStride f) ⟨f, n, 128, ts, zp, 0xFFFFFFFF, q, bad⟩
          (fun i => if i / 128 < n then s.rowCode (rowAt (i / 128)) cols j (i % 128) else 0)
          (fun i => if i / 4 < n then rowScale (rowAt (i / 4)) cols j (i % 4) else 0) none) s
      s.modColl id fun c => { c with rows := c.rows.filter (fun x => x.row / 128 != b), wrote := addNew b c.wrote, poison := c.poison || bad }

/-- Writes the elements and block scales of a row in its place in the matrix (R358). -/
def State.putRow (s : State) (w : Work) (row : Nat) (b : List Byte) (bad : Bool) : State :=
  let f := rowFmt b
  let cols := w.cCols
  let m := 16 * elemBits f
  let n := scaleBytes f / 128
  (List.range cols).foldl (fun s j =>
    let a := w.matBase + (row / 128 * cols + j) * tileStride f + 64
    let s := s.write (a + m * (row % 128)) ((b.drop (rowBody b cols + m * j)).take m) bad
    if n = 0 then s else s.write (a + elemBytes f + n * (row % 128)) ((b.drop (rowBody b cols + m * cols + n * j)).take n) bad) s

/-- The lengths of a RETURN's lists, by rank, once every row is here: as many as came from each. -/
def Coll.lens (c : Coll) : List Nat := (List.range c.n).map fun q => (c.rows.filter fun x => x.src == q).length

/-- Takes row `i` of rank `src`. A row of an EXCHANGE is rescaled and written in place at once, and its tiles get their headers when
full (R358, R359). Rows of a RETURN lie list after list (R360), so their places are known when all are here. -/
def State.placeRow (s : State) (id src i : Nat) (b : List Byte) (bad : Bool) : State :=
  s.onColl id fun s w c _ =>
    if w.cop = 5 then
      let row := c.rowOf src i
      let (b, fl) := s.rescaleRow w row b
      let s := s.putRow w row b bad
      let s := s.modColl id fun c =>
        { c with rows := c.rows ++ [(⟨src, row, b, bad⟩ : CRow)], flags := Nat.lor c.flags fl, got := c.got + 1, poison := c.poison || bad }
      s.writeRows id (row / 128)
    else
      let rows := c.rows ++ [(⟨src, i, b, bad⟩ : CRow)]
      let s := s.modColl id fun c => { c with rows := rows, got := c.got + 1, poison := c.poison || bad }
      if rows.length < w.cRows then s
      else
        let lens := ({ c with rows := rows } : Coll).lens
        let s := s.modColl id fun c => { c with rows := rows.map fun x => { x with row := sumNat (lens.take x.src) + x.row } }
        (List.range (tilesOf w.cRows)).foldl (fun s b => s.writeRows id b) s

/-! ## Reduction of one tile (R350 to R353) -/

/-- The FP32 bits of element (r, c) of an FP32 or BF16 tile, +0 where it counts as zero. -/
def State.redCode (s : State) (a : Nat) (h : Hdr) (r c : Nat) : Nat :=
  if r ≥ h.rows || c ≥ h.cols || (h.marked r c && !(s.elemHeld a h r c).isZero) then 0
  else if h.fmt = 0 then s.code a 0 (128 * r + c) else 65536 * s.code a 1 (128 * r + c)

/-- A state whose memory holds only the given bytes, from address 0. -/
def State.only (s : State) (b : List Byte) : State := { s with wiped := [], mem := cellsWrite (fun _ => memDflt) [] 0 b, poison := [] }

/-- One addition of a reduction: the own tile `t` of piece `k` with the arriving partial, if there is one. Answers the sum's
codes, its flags, whether it carries poison, whether a checksum failed, and the own tile's header. DESIGN CHOICE (assumption 37):
where the members' tiles differ in extent, the sum has the own tile's ROWS and COLS, and is zero outside it (R25). -/
def State.addTile (s : State) (w : Work) (k t : Nat) (part : Option (List Byte × Bool)) : (Nat → Nat) × Nat × Bool × Bool × Hdr :=
  let a := s.pieceSrc w k t
  let h := s.hdr a
  let (bad, crc) := s.tileBad a
  let z := Machine.bit w.ftz 4
  match part with
  | none => (fun i => s.redCode a h (i / 128) (i % 128), 0, bad, crc, h)
  | some (b, p) =>
    let v := s.only b
    let hv := v.hdr 0
    let sum := fun (i : Nat) => f32add z z (v.redCode 0 hv (i / 128) (i % 128)) (s.redCode a h (i / 128) (i % 128))
    let idx := (List.range h.rows).flatMap fun r => (List.range h.cols).map fun c => 128 * r + c
    let (vb, vc) := v.tileBad 0
    (fun i => if i / 128 < h.rows && i % 128 < h.cols then (sum i).1 else 0, idx.foldl (fun f i => Nat.lor f (sum i).2) 0, bad || p || vb, crc || vc, h)

/-- The bytes of an FP32 tile. -/
def State.tileBytes (s : State) (t : NewTile) (code : Nat → Nat) : List Byte :=
  ((s.only []).writeTile 0 t code (fun _ => 0) none).bytes 0 (tileStride t.fmt)

/-- Writes the reduced tile `t` of piece `k`, converted to FMT_OUT: the flags of the conversion (R352, R353). `one` says that the
group has one member, which copies, and converts where FMT_OUT asks for another format than the tile has (R350). -/
def State.putReduced (s : State) (w : Work) (k t : Nat) (h : Hdr) (one bad : Bool) (code : Nat → Nat) : State × Nat :=
  let a := s.pieceDst w w.cOut k t
  let out : NewTile := ⟨w.cOut, h.rows, h.cols, f32one, none, h.obj, h.idx, bad⟩
  if one && h.fmt = w.cOut || !one && w.cOut = 0 then
    (s.writeTile a out (fun i => if w.cOut = 1 then code i / 65536 else code i) (fun _ => 0) none, 0)
  else
    let v := convertTile (w.cDest w.cOut f32one) out false false fun r c => fp32.decode (code (128 * r + c))
    (s.putTile a out v, v.flags)

/-- Queues a tile or row for a member. -/
def State.queueColl (s : State) (id : Nat) (x : CSend) : State := s.modColl id fun c => { c with queue := c.queue ++ [x] }

/-- The step of a reduction at this member for tile `t` of piece `k` going in direction `minus`: at rank `k` the last addition,
written and, in ALLREDUCE, sent on; elsewhere the sum goes to the next member (R350). -/
def State.reduceStep (s : State) (id k t : Nat) (minus : Bool) (part : Option (List Byte × Bool)) : State :=
  s.onColl id fun s w c g =>
    let (code, fl, bad, crc, h) := s.addTile w k t part
    let s := if part.isSome then s.bump c.d (Reg.whlCntLo 2) 1 else s
    let s := s.noteColl id fl bad crc
    let nxt := nextRank g.n g.rank minus
    if g.rank = k then
      let (s, fl) := s.putReduced w k t h (g.n == 1) bad code
      let s := s.noteColl id fl false false
      if w.cop = 0 && g.n ≠ 1 then
        s.queueColl id ⟨nxt, 1, b2n minus, k, t, some (s.pieceDst w w.cOut k t, tileStride w.cOut), [], bad⟩
      else s
    else s.queueColl id ⟨nxt, 0, b2n minus, k, t, none, s.tileBytes ⟨0, h.rows, h.cols, f32one, none, h.obj, h.idx, bad⟩ code, bad⟩

/-! ## Writing whole tiles -/

/-- Writes a tile that travelled unchanged at an address; a range that the partition may not write ends the collective with
its status. -/
def State.placeTile (s : State) (id a : Nat) (b : List Byte) (bad : Bool) : State :=
  s.onColl id fun s w c _ =>
    let code := lowest (s.rangeCodes c.d w.part ⟨a, b.length, true⟩)
    if code ≠ 0 then (if code = 4 then s.accessRefused w else s).endColl id code
    else (s.write a b bad).noteColl id 0 (bad || ((s.only b).hdr 0).poison) false

/-- Copies tiles of this member locally. -/
def State.copyTiles (s : State) (id src dst fmt n : Nat) : State :=
  (List.range n).foldl (fun s t =>
    let a := src + t * tileStride fmt
    s.placeTile id (dst + t * tileStride fmt) (s.bytes a (tileStride fmt)) (s.tagged a (tileStride fmt))) s

/-! ## Completion -/

/-- Slots of an EXCHANGE whose batch is still to be built: VALID entries with rows (R154). -/
def State.slotsLeft (s : State) (w : Work) (c : Coll) : List Nat :=
  if w.cop ≠ 5 || w.cSlots = 0 then []
  else (List.range 64).filter fun sl =>
    bit (s.memN (w.cSlots + 32 * sl) 1) 7 && decide (0 < c.total sl) && !c.built.contains sl

/-- Whether the destination ranges of two senders of a PERMUTE overlap (R357). -/
def spansClash (l : List (Nat × Nat × Nat)) : Bool :=
  l.any fun x => l.any fun y =>
    x.1 != y.1 && decide (0 < x.2.2) && decide (0 < y.2.2) && decide (x.2.1 < y.2.1 + y.2.2) && decide (y.2.1 < x.2.1 + x.2.2)

/-- The objects that hold the first byte of DST: the destination object is the lowest (R253). -/
def State.destObj (s : State) (d : Nat) (w : Work) : Option Nat := (s.ownersAt d w.cDst).head?

/-- Whether the destination object is in the die's retained set. -/
def State.retains (s : State) (d : Nat) (w : Work) : Bool :=
  match s.destObj d w with
  | some o => s.kept.any fun k => k.d == d && k.obj == o
  | none => false

/-- Takes the destination object out of the die's retained set. -/
def State.unretain (s : State) (d : Nat) (w : Work) : State :=
  match s.destObj d w with
  | some o => s.releaseKept fun k => k.d == d && k.obj == o
  | none => s

/-- Completes a collective once everything it must do is done (R350, R355, R356). -/
def State.settleColl (s : State) (id : Nat) : State :=
  s.onColl id fun s w c _ =>
    if c.open_ && c.queue.isEmpty && c.need == some c.got && !((w.cop == 3 || w.cop == 4) && s.collUnacked c) &&
        (s.slotsLeft w c).isEmpty then
      let s := if w.cop = 2 && w.cKeep = 1 then
        (match s.destObj c.d w with | some o => s.claimKept c.d w.part o c.budget | none => s) else s
      s.endColl id (if w.cop = 4 && spansClash c.spans then 0x13 else 0)
    else s

/-! ## The phases of a collective -/

/-- Whether tile `t` of piece `k` of a reduction travels in − rank order (R351). In free mode with two members both directions have
the same queue, so it goes in + order; with more, the direction is decided between the two ranks that might first send it
(assumption 27). -/
def Coll.minus (c : Coll) (w : Work) (k t : Nat) : Bool :=
  if w.det then t % 2 == 1 else decide (2 < c.n) && !Config.ringDir c.num k t

/-- Tiles of piece `k` that this member is first to send in a reduction (R350). -/
def State.startsTile (s : State) (w : Work) (c : Coll) (g : Grp) (k : Nat) : List Nat :=
  (List.range (s.piece w k).n).filter fun t => decide (rankPlus g.n k (if c.minus w k t then -1 else 1) = g.rank)

/-- Data begins: local copies are made, the first tiles or rows are queued, what must arrive is known, and credits are granted
(R345, R350, R355). -/
def State.openColl (s : State) (id : Nat) : State :=
  s.onColl id fun s w c g =>
    let s := s.modColl id fun c => { c with open_ := true }
    let ks := List.range g.n
    let cnt := fun (k : Nat) => (s.piece w k).n
    let f := s.collFmt w
    let (s, n) : State × Nat :=
      if w.cop ≤ 1 then
        if g.n = 1 then ((List.range (cnt 0)).foldl (fun s t => s.reduceStep id 0 t false none) s, 0)
        else
          let s := ks.foldl (fun s k => (s.startsTile w c g k).foldl (fun s t => s.reduceStep id k t (c.minus w k t) none) s) s
          (s, sumNat (ks.map fun k => cnt k - (s.startsTile w c g k).length + (if w.cop = 0 && k ≠ g.rank then cnt k else 0)))
      else if w.cop = 2 then
        let r := g.rank
        let s := s.copyTiles id (s.pieceSrc w r 0) (s.pieceDst w f r 0) f (cnt r)
        let s := if g.n = 1 then s else (List.range (cnt r)).foldl (fun s t =>
          s.queueColl id ⟨nextRank g.n r (t % 2 == 1), 1, if w.det then t % 2 else 2, r, t, some (s.pieceSrc w r t, tileStride f), [], false⟩) s
        (s, sumNat ((g.others).map cnt))
      else if w.cop = 3 then
        let dest := rankPlus g.n g.rank w.cDist
        let from_ := rankPlus g.n g.rank (-w.cDist)
        if dest = g.rank then (s.copyTiles id (s.pieceSrc w dest 0) (s.pieceDst w f dest 0) f (cnt dest), 0)
        else ((List.range (cnt g.rank)).foldl (fun s t =>
          s.queueColl id ⟨dest, 1, 0, g.rank, t, some (s.pieceSrc w g.rank t, tileStride f), [], false⟩) s, cnt from_)
      else if w.cop = 4 then
        let r := g.rank
        let s := s.copyTiles id (s.pieceSrc w r 0) (s.pieceDst w f r 0) f (cnt r)
        ((g.others).foldl (fun s j => (List.range (cnt j)).foldl (fun s t =>
          s.queueColl id ⟨j, 1, 0, r, t, some (s.pieceSrc w j t, tileStride f), [], false⟩) s) s,
          sumNat ((g.others).map fun q => ((kvGet [] c.counts q)[0]?).getD 0))
      else if w.cop = 5 then
        let lens := ks.map fun h => sumNat (s.countsAt (w.cLists + 256 * h))
        let listAt := fun (h : Nat) => w.cLists + 256 * g.n + sumNat ((lens.take h).map fun l => up64 (4 * l))
        let row := fun (h i : Nat) => s.memN (listAt h + 4 * i) 4 % 2 ^ 14
        let s := ks.foldl (fun s h => (List.range ((lens[h]?).getD 0)).foldl (fun s i =>
          let b := s.rowBytes w.cSrc f w.cCols (row h i)
          let (bad, crc) := s.rowBad w.cSrc f w.cCols (row h i)
          let s := s.noteColl id 0 bad crc
          if h = g.rank then s.placeRow id h i b bad else s.queueColl id ⟨h, 1, 0, 0, i, none, b, bad⟩) s) s
        (s, sumNat (ks.map fun q => c.listLen q))
      else
        let s := ks.foldl (fun s q => (List.range (c.listLen q)).foldl (fun s i =>
          let b := s.rowBytes w.cSrc f w.cCols (c.rowOf q i)
          let (bad, crc) := s.rowBad w.cSrc f w.cCols (c.rowOf q i)
          let s := s.noteColl id 0 bad crc
          if q = g.rank then s.placeRow id q i b bad else s.queueColl id ⟨q, 1, 0, 0, i, none, b, bad⟩) s) s
        (s, w.cRows)
    let s := s.modColl id fun c => { c with need := some n }
    (w.senders g).foldl (fun s r => s.grantTo id r) s

/-- All counts are here: the layout of a PERMUTE or EXCHANGE is known, and data begins (R356 to R358). -/
def State.countsIn (s : State) (id : Nat) : State :=
  s.onColl id fun s w c g =>
    if c.open_ || (g.others.any fun q => (kvFind c.counts q).isNone) then s
    else if w.cop = 4 then
      let f := s.collFmt w
      let own := s.piece w g.rank
      let span := fun (q : Nat) =>
        let l := if q = g.rank then [own.n, own.dst] else kvGet [] c.counts q
        (q, w.cDst + (l[1]?).getD 0 * tileStride f, (l[0]?).getD 0 * tileStride f)
      let spans := (List.range g.n).map span
      let src := (List.range g.n).map fun j => (s.pieceSrc w j 0, (s.piece w j).n * tileStride f)
      if spans.any fun x => src.any fun y => decide (0 < x.2.2) && decide (0 < y.2) && decide (x.2.1 < y.1 + y.2) && decide (y.1 < x.2.1 + x.2.2)
      then s.endColl id 1
      else (s.modColl id fun c => { c with spans := spans, dst := spans.map Prod.snd }).openColl id
    else
      let s := (List.range g.n).foldl (fun s q =>
        s.write (w.cDst + 256 * q) ((kvGet [] c.counts q).flatMap fun x => natLe 4 x)) s
      let len := (c.first 64 / 128) * w.cCols * tileStride (s.collFmt w)
      let code := lowest (s.rangeCodes c.d w.part ⟨w.matBase, len, true⟩)
      if code ≠ 0 then (if code = 4 then s.accessRefused w else s).endColl id code
      else (s.modColl id fun c => { c with dst := c.dst ++ [(w.matBase, len)] }).openColl id

/-- All start frames of a use gather are here: it ends at once when every member retains the object, else it runs in full and
the member's own object leaves its retained set (R354). -/
def State.useIn (s : State) (id : Nat) : State :=
  s.onColl id fun s w c g =>
    if c.open_ || (g.others.any fun q => !c.starts.contains q) then s
    else
      let all := s.retains c.d w && g.others.all fun q => c.keeps.contains q
      let s := s.unretain c.d w
      if all then (s.endColl id 0).modWork id fun x => { x with res := { x.res with retained := true } }
      else s.openColl id

/-! ## Frames of a running collective -/

/-- A start frame of a collective that runs here (R344, R354). -/
def State.startIn (s : State) (id : Nat) (f : WheelFrame) : State :=
  s.onColl id fun s w c g =>
    if !digestSame (f.payload.take 32) (s.digest w g) then (s.whlMismatch c.d).endColl id 0x13
    else
      let keep := leAt f.payload 36 1 = 1
      let stride := tileStride (s.collFmt w)
      let span := (f.srcRank, w.cDst + leAt f.payload 32 4 * stride, (s.piece w f.srcRank).n * stride)
      let lands := w.cop = 3 && (w.senders g).contains f.srcRank && !c.starts.contains f.srcRank
      let s := s.modColl id fun c =>
        { c with starts := addNew f.srcRank c.starts, keeps := if keep then addNew f.srcRank c.keeps else c.keeps, spans := if lands then c.spans ++ [span] else c.spans, dst := if lands then c.dst ++ [span.2] else c.dst }
      if w.cop = 2 && w.cKeep = 2 then s.useIn id else s

/-- A counts frame of a collective that runs here (R356, R358). -/
def State.countsFrame (s : State) (id : Nat) (f : WheelFrame) : State :=
  s.onColl id fun s w c g =>
    if !(w.cop == 4 || w.cop == 5) || f.srcRank = g.rank || g.n ≤ f.srcRank || c.open_ then s.whlMismatch c.d
    else
      let l := if w.cop = 4 then [beAt f.payload 0 4, beAt f.payload 4 4] else (List.range 64).map fun i => leAt f.payload (4 * i) 4
      (s.modColl id fun c => { c with counts := kvPut c.counts f.srcRank l }).countsIn id

/-- A whole tile arrived for a collective. -/
def State.tileIn (s : State) (id : Nat) (x : CIn) : State :=
  s.onColl id fun s w c g =>
    let n := if w.cop = 4 then ((kvGet [] c.counts x.src)[0]?).getD 0 else (s.piece w x.piece).n
    let minus := x.dir == 1
    let f := leAt x.bytes 0 1
    if g.n ≤ x.piece || n ≤ x.index || x.bytes.length ≠ tileStride f then s.whlMismatch c.d
    else
      let s := s.modColl id fun c => { c with got := c.got + 1 }
      if w.cop ≤ 1 && x.phase = 0 then s.reduceStep id x.piece x.index minus (some (x.bytes, x.poison))
      else if w.cop ≤ 2 then
        let a := s.pieceDst w f x.piece x.index
        let s := s.placeTile id a x.bytes x.poison
        let nxt := nextRank g.n g.rank minus
        if nxt = x.piece then s else s.queueColl id ⟨nxt, 1, x.dir, x.piece, x.index, some (a, x.bytes.length), [], x.poison⟩
      else if w.cop = 3 then
        s.placeTile id (((c.spans.find? fun y => y.1 == x.src).map fun y => y.2.1).getD 0 + x.index * tileStride f) x.bytes x.poison
      else
        let t := ((kvGet [] c.counts x.src)[1]?).getD 0
        s.placeTile id (w.cDst + (t + x.index) * tileStride f) x.bytes x.poison

/-- A whole row arrived for an EXCHANGE or a RETURN. -/
def State.rowIn (s : State) (id : Nat) (x : CIn) : State :=
  s.onColl id fun s w c _ =>
    let n := if w.cop = 5 then c.listLen x.src else if c.rows.length < w.cRows then w.cRows else 0
    if n ≤ x.index || rowFmt x.bytes ≠ s.collFmt w then s.whlMismatch c.d
    else s.placeRow id x.src x.index x.bytes x.poison

/-- Where a whole tile or row that arrived would be written. -/
def State.landing (s : State) (w : Work) (c : Coll) (g : Grp) (x : CIn) : Rng :=
  let f := leAt x.bytes 0 1
  let n := tileStride f
  if w.cop ≤ 1 && x.phase = 0 then
    if g.rank = x.piece then ⟨s.pieceDst w w.cOut x.piece x.index, tileStride w.cOut, true⟩ else ⟨s.pieceSrc w x.piece x.index, tileStride (s.collFmt w), false⟩
  else if w.cop ≤ 2 then ⟨s.pieceDst w f x.piece x.index, n, true⟩
  else if w.cop = 3 then ⟨((c.spans.find? fun y => y.1 == x.src).map fun y => y.2.1).getD 0 + x.index * n, n, true⟩
  else if w.cop = 4 then ⟨w.cDst + (((kvGet [] c.counts x.src)[1]?).getD 0 + x.index) * n, n, true⟩
  else if w.cop = 5 then ⟨w.matBase + c.rowOf x.src x.index / 128 * w.cCols * n, w.cCols * n, true⟩
  else ⟨w.matBase, tilesOf w.cRows * w.cCols * n, true⟩

/-- A whole tile or row that waits here is written, and its credit is spent, unless the block that it meets is being re-fetched
(R257). -/
def State.land (s : State) (id : Nat) (x : CIn) : State :=
  s.onColl id fun s w c g =>
    if s.refetching (s.landing w c g x) then s
    else
      let s := s.modColl id fun c => { c with ins := c.ins.erase x }
      (if w.cop ≤ 4 then s.tileIn id x else s.rowIn id x).spent id x.src

/-- The staging area of a die takes incoming data, wherever in it (R345): its bytes are undefined from then on (assumption 37). -/
def State.staged (s : State) (d : Nat) : State :=
  let a := s.regAddr d Reg.whlStageLo
  if hbmSize * d ≤ a && a + 2 ^ 26 ≤ hbmSize * (d + 1) then s.wipe a (2 ^ 26) else s

/-- A data slice of a collective that runs here: slices of a tile or row gather in order in the staging area, and its last completes
it. -/
def State.sliceIn (s : State) (id : Nat) (f : WheelFrame) : State :=
  s.onColl id fun s _ c _ =>
    if !c.open_ then s.whlMismatch c.d
    else
      let is := fun (x : CIn) => !x.full && x.src == f.srcRank && x.phase == f.phase && x.dir == f.dir && x.piece == f.piece && x.index == f.index
      let old := (c.ins.find? is).getD ⟨f.srcRank, f.phase, f.dir, f.piece, f.index, [], false, false⟩
      let x : CIn := { old with bytes := old.bytes ++ f.payload, poison := old.poison || f.poison, full := f.last }
      let rest := c.ins.filter fun x => !is x
      let s := (s.staged c.d).modColl id fun c => { c with ins := rest ++ [x] }
      if f.last then s.land id x else s

/-- Writes what waited whole, sends, and settles every collective of a die, the earliest start first (R346). -/
def State.pumpDie (s : State) (d : Nat) : State :=
  (s.whl.colls.filter fun c => c.d == d).foldl (fun s c =>
    let s := (c.ins.filter fun x => x.full).foldl (fun s x => s.land c.id x) s
    (State.pumpColl c.id (c.queue.length + 1) s).settleColl c.id) s

/-- A credit frame for a collective that runs here; where data was queued for its sender without a credit, the cycles that it
waited count in CREDIT_WAIT (R345). -/
def State.creditIn (s : State) (id : Nat) (f : WheelFrame) : State :=
  let waited := match s.coll id with
    | some c => kvGet 0 c.credit f.srcRank = 0 && c.queue.any fun x => x.dst == f.srcRank
    | none => false
  let d := match s.coll id with | some c => c.d | none => 0
  (if waited then s.bumpFree d (Reg.whlCntLo 7) else s).modColl id fun c => { c with credit := kvPut c.credit f.srcRank (kvGet 0 c.credit f.srcRank + f.credit) }

/-- One frame of kinds 0 to 3 for a collective that runs here. -/
def State.collFrame (s : State) (id : Nat) (f : WheelFrame) : State :=
  match f.kind with
  | 0 => s.sliceIn id f
  | 1 => s.creditIn id f
  | 2 => s.countsFrame id f
  | _ => s.startIn id f

/-! ## Arriving wheel frames -/

/-- A frame for a member here, of a wheel that runs the group on die `d`. A start, counts or credit frame that came before its
collective has started here waits for it. -/
def State.localFrame (s : State) (d : Nat) (g : Grp) (f : WheelFrame) : State :=
  if !g.valid || f.dstRank ≠ g.rank || g.n ≤ f.srcRank || f.srcRank = g.rank then s.whlMismatch d
  else
    match s.whl.colls.find? fun c => c.d == d && c.group == f.group && c.num == f.coll with
    | some c => (s.collFrame c.id f).pumpDie d
    | none =>
      let mine := fun (x : Nat × WheelFrame) => x.1 == d && x.2.group == f.group && x.2.coll == f.coll && x.2.srcRank == f.srcRank
      if f.kind = 2 || f.kind = 3 || (f.kind = 1 && s.whl.early.any mine) then
        { s with whl := { s.whl with early := s.whl.early ++ [(d, f)] } }
      else s

/-- A wheel frame at die `d`, of a collective: dropped and counted while the wheel is off or its kind or version is reserved. One that
came by the die mesh is of a MESH group of this die. One that came by the port is taken from the sequenced link, forwarded when it
is for another coordinate, and else handed to the die that runs its group (R337, R338, R340, R341). -/
def State.wheelIn (s : State) (d : Nat) (f : WheelFrame) : State :=
  let s := if f.mesh then s else s.takeRx d 0x88B6
  let g := s.grp d f.group
  if !s.rbit d Reg.whlCtrl 0 || 6 ≤ f.kind || f.ver ≠ 1 then s.whlMismatch d
  else if f.mesh then (if g.axis = 0 then s.localFrame d g f else s.whlMismatch d)
  else if !s.carries d (.wheel f) then s
  else
    let (ok, s) := s.linkTake d 1 f.seq f.ack
    if !ok then s
    else if d < s.part.torusPorts && f.dstXyz ≠ s.selfXyz then
      (s.bump d (Reg.whlCntLo 3) 1).sendRouted (if f.kind = 1 then 7 else s.rf d Reg.whlCtrl 1 3) (some d) (.wheel f)
    else if g.axis = 0 then s.whlMismatch d
    else s.localFrame g.die g f

/-- WHEEL_DATA_FRAME (R338, R341, R350). -/
def execWheelDataFrame (d : Nat) (f : WheelFrame) (s : State) : Res := onDie s d (s.wheelIn d { f with kind := if 6 ≤ f.kind then f.kind else 0 })

/-- WHEEL_CREDIT_FRAME (R345). -/
def execWheelCreditFrame (d : Nat) (f : WheelFrame) (s : State) : Res := onDie s d (s.wheelIn d { f with kind := 1 })

/-- WHEEL_COUNTS_FRAME (R356, R358). -/
def execWheelCountsFrame (d : Nat) (f : WheelFrame) (s : State) : Res := onDie s d (s.wheelIn d { f with kind := 2 })

/-- WHEEL_START_FRAME (R344, R354). -/
def execWheelStartFrame (d : Nat) (f : WheelFrame) (s : State) : Res := onDie s d (s.wheelIn d { f with kind := 3 })

/-- An acknowledgement or NAK frame of the wheel's link: taken, and dropped while the wheel is off. -/
def State.wheelLink (s : State) (d : Nat) (act : State → State) : State :=
  let s := s.takeRx d 0x88B6
  if s.rbit d Reg.whlCtrl 0 then (if s.carries d (.wheel (WheelFrame.bare 4 0 0)) then (act s).pumpDie d else s) else s.whlMismatch d

/-- WHEEL_ACK_FRAME (R340). -/
def execWheelAckFrame (d : Nat) (f : WheelFrame) (s : State) : Res := onDie s d (s.wheelLink d fun s => s.linkAckIn d 1 f.ack)

/-- WHEEL_NAK_FRAME (R340). -/
def execWheelNakFrame (d : Nat) (f : WheelFrame) (s : State) : Res := onDie s d (s.wheelLink d fun s => s.linkNakIn d 1 f.ack)

/-- WHEEL_REPLAY_TIMEOUT (R282, R340). -/
def execWheelReplayTimeout (d : Nat) (s : State) : Res := onDie s d (s.linkResend d 1)

/-- WHEEL_ACK_TIMER (R340). -/
def execWheelAckTimer (d : Nat) (s : State) : Res := onDie s d (s.linkAckTimer d 1)

/-- WHEEL_NAK_RESEND (R340). -/
def execWheelNakResend (d : Nat) (s : State) : Res := onDie s d (s.linkNakTimer d 1)

/-- COLLECTIVE_TIMEOUT (R347). -/
def execCollectiveTimeout (id : Nat) (s : State) : Res :=
  live s (match s.coll id with
    | some c => ((s.bump c.d (Reg.whlCntLo 5) 1).endColl id 0x14).pumpDie c.d
    | none => s)

/-- Ends the running collectives of a die that a test picks. -/
def State.endColls (s : State) (pick : Coll → Bool) (status : Nat) : State :=
  (s.whl.colls.filter pick).foldl (fun s c => s.endColl c.id status) s

/-- WHEEL_DISABLE: ENABLE goes to 0, running collectives end unavailable, and frames that this wheel forwards are dropped, on whatever
port they wait (R366). -/
def State.wheelOff (s : State) (d : Nat) : State :=
  let s := s.setRbit d Reg.whlCtrl 0 false
  let s := s.endColls (fun c => c.d == d) 7
  let s := { s with whl := { s.whl with early := s.whl.early.filter fun x => x.1 != d } }
  let fwd := fun (x : TxFrame) => x.via == some d && match x.item with | .wheel _ => true | _ => false
  { s with eths := s.eths.map fun (e : Eth) => { e with txq := e.txq.filter fun x => !fwd x } }

/-- WHEEL_DISABLE (R366). -/
def execWheelDisable (d : Nat) (s : State) : Res := onDie s d (if s.rbit d Reg.whlCtrl 0 then s.wheelOff d else s)

/-- Ends every collective whose group has lost a member, with the peer-lost status (R343). -/
def State.loseMembers (s : State) : State :=
  s.endColls (fun c => let g := s.grp c.d c.group; (List.range g.n).any fun r => s.memberLost g r) 0x12

/-- Ends every collective whose own descriptor sends by a port that no longer carries wheel frames (R338). -/
def State.loseFrames (s : State) : State :=
  s.endColls (fun c => match s.work c.id with | some w => let g := s.grp c.d c.group; (w.partners g).any fun r => !s.memberFrames g r | none => false) 0x13

/-- REFETCH_COMPLETE: the oldest re-fetch of a die ends, and collectives that waited for it go on (R257). -/
def execRefetchComplete (d : Nat) (ok : Bool) (s : State) : Res :=
  onDie s d ((List.range s.part.dies).foldl State.pumpDie (s.refetchEnd d ok))

end Sys2Proof.Machine
end

