-- ==== Sys2Proof/Machine/Collect.lean ====
section
/-! DEFINITION. Collective descriptors (chapter 11): their checks, their start, and GROUP_SET. -/

namespace Sys2Proof.Machine

/-- Whether a slot-table entry of an EXCHANGE passes the check at its start (R154). -/
def State.slotOk (s : State) (w : Work) (sl : Nat) : Bool :=
  let b := s.bytes (w.cSlots + 32 * sl) 32
  let die := leAt b 0 1 % 8
  let n := leAt b 2 2
  let kinds := (List.range n).map fun i => s.memN (leAt b 8 6 + 64 * i) 1
  fld (leAt b 0 1) 3 4 == 0 && leAt b 1 1 / 16 == 0 && n / 1024 == 0 && leAt b 6 2 == 0 && leAt b 14 2 == 0 && leAt b 22 10 == 0 &&
    (!bit (leAt b 0 1) 7 ||
      (decide (die < s.part.dies) && !s.dieOut die && s.ownsOn die w.part && decide (1 ≤ n) && decide (n ≤ 512) &&
        kinds.all fun k => k == 0x10 || k == 0x13 || k == 0x11 || k == 0x01))

/-- The rows of the token matrix that an EXCHANGE or RETURN reads at this member: for an EXCHANGE those its send lists name, for
a RETURN those its receive counts place. -/
def State.collRows (s : State) (w : Work) (g : Grp) : List Nat :=
  if w.cop = 5 then
    let lens := (List.range g.n).map fun h => sumNat (s.countsAt (w.cLists + 256 * h))
    let listAt := fun (h : Nat) => w.cLists + 256 * g.n + sumNat ((lens.take h).map fun l => up64 (4 * l))
    (List.range g.n).flatMap fun h => (List.range ((lens[h]?).getD 0)).map fun i => s.memN (listAt h + 4 * i) 4 % 2 ^ 14
  else
    let counts := (List.range g.n).map fun q => s.countsAt (w.cLists + 256 * q)
    let total := fun (sl : Nat) => sumNat (counts.map fun v => (v[sl]?).getD 0)
    let first := fun (sl : Nat) => sumNat ((List.range sl).map fun x => 128 * tilesOf (total x))
    (List.range 64).flatMap fun sl => (List.range (total sl)).map (first sl + ·)

/-- The fields of a collective descriptor against their ranges (R348). -/
def Work.collFieldsOk (w : Work) : Bool :=
  let c := w.cop
  decide (c ≤ 6) && w.cSrc % 64 == 0 && w.cDst % 64 == 0 && w.f 44 2 / 2 ^ 15 == 0 && w.f 46 1 / 64 == 0 && w.f 47 1 / 128 == 0 &&
    leAt w.bytes 54 10 == 0 && (decide (5 ≤ c) || w.addr 22 % 64 == 0) && (c != 2 || w.cKeep != 3) &&
    (c != 3 || w.cDist != -64) && fld (w.f 46 1) 1 2 != 3 && (decide (c ≤ 4) || w.cLists % 64 == 0) &&
    (decide (c ≤ 4) || (w.cWidth % 128 == 0 && decide (128 ≤ w.cWidth) && decide (w.cWidth ≤ 16384))) &&
    (c != 6 || (decide (1 ≤ w.cRows) && decide (w.cRows ≤ 16384))) && (c != 5 || w.cSlots % 64 == 0)

/-- The code that the group of a collective descriptor gives it (R332, R335, R651). -/
def State.grpCode (s : State) (w : Work) : Nat :=
  let d := w.die
  let g := s.grp d w.cgrp
  if s.regN d Reg.whlGrpCount ≤ w.cgrp then 1
  else if !s.grpIn d w.cgrp then 2
  else need (g.valid && g.die == d && g.part == w.part && decide (g.rank < g.n))

/-- Whether a collective's fields and group are good, so that what it reads and writes is defined. -/
def State.collUsable (s : State) (w : Work) : Bool := w.collFieldsOk && s.grpCode w == 0

/-- The pieces whose destination tiles this member's own descriptor places. -/
def Work.writePieces (w : Work) (g : Grp) : List Nat :=
  if w.cop = 0 || w.cop = 2 then List.range g.n
  else if w.cop = 3 then (if rankPlus g.n g.rank w.cDist = g.rank then [g.rank] else [])
  else [g.rank]

/-- The destination ranges known at the start. -/
def State.collDst (s : State) (w : Work) (g : Grp) : List (Nat × Nat) :=
  let f := s.collOut w
  if w.cop ≤ 4 then (w.writePieces g).map fun k => (s.pieceDst w f k 0, (s.piece w k).n * tileStride f)
  else if w.cop = 5 then [(w.cDst, 16384)]
  else [(w.cDst, tilesOf w.cRows * w.cCols * tileStride f)]

/-- The ranges of a collective. -/
def collRanges (s : State) (w : Work) : List Rng :=
  let g := s.grp w.die w.cgrp
  let f := s.collFmt w
  if !s.collUsable w then []
  else
    (s.collDst w g).map (fun r => (⟨r.1, r.2, true⟩ : Rng)) ++
    if w.cop ≤ 4 then
      ⟨w.addr 22, 16 * g.n, false⟩ :: (w.readPieces g).map fun k => (⟨s.pieceSrc w k 0, (s.piece w k).n * tileStride f, false⟩ : Rng)
    else
      [⟨w.cSrc, (if (s.collRows w g).isEmpty then 0 else (maxNat (s.collRows w g) / 128 + 1) * w.cCols * tileStride f), false⟩,
       ⟨w.cLists, 256 * g.n, false⟩, ⟨w.cSlots, (if w.cop = 5 && w.cSlots ≠ 0 then 2048 else 0), false⟩]

/-- Whether the source tiles have formats that the collective takes (R24, R352). -/
def State.collFmtOk (s : State) (w : Work) (g : Grp) : Bool :=
  let f := s.collFmt w
  if w.cop ≤ 1 then
    (List.range g.n).all fun k => (List.range (s.piece w k).n).all fun t =>
      let a := s.pieceSrc w k t
      s.tileOk a false && decide (f ≤ 1) && (s.hdr a).fmt == f
  else if w.cop ≤ 4 then decide (f ≤ 14) || (w.readPieces g).all fun k => (s.piece w k).n == 0
  else (nub ((s.collRows w g).map (· / 128))).all fun b => (List.range w.cCols).all fun j =>
    let a := w.cSrc + (b * w.cCols + j) * tileStride f
    s.tileOk a false && (s.hdr a).fmt == f

/-- Whether a destination of a PERMUTE that is known before anything is sent overlaps a source range: that of the own copy, and those
that counts frames of this collective which are here already announce (R357). -/
def State.permuteClash (s : State) (w : Work) (g : Grp) : Bool :=
  let stride := tileStride (s.collFmt w)
  let own := s.piece w g.rank
  let told := s.whl.early.filter fun x => x.1 == w.die && x.2.group == w.cgrp && x.2.coll == g.coll && x.2.kind == 2
  let dsts := (own.dst, own.n) :: told.map fun x => (beAt x.2.payload 4 4, beAt x.2.payload 0 4)
  dsts.any fun x => (List.range g.n).any fun j =>
    let a := w.cDst + x.1 * stride
    let b := s.pieceSrc w j 0
    let n := (s.piece w j).n * stride
    decide (0 < x.2) && decide (0 < n) && decide (a < b + n) && decide (b < a + x.2 * stride)

/-- The codes of a collective: its fields, its group, the wheel, its tables, its members, the formats, and the wait for one of
the eight places (R335, R338, R343, R346, R348, R349, R357, R359). -/
def collCodes (s : State) (w : Work) : List Nat :=
  let d := w.die
  let g := s.grp d w.cgrp
  [need w.collFieldsOk, s.grpCode w, if s.rbit d Reg.whlCtrl 0 then 0 else 7] ++
  (if !s.collUsable w then []
  else
    [need (decide (5 ≤ w.cop) || (List.range g.n).all fun k => !(s.piece w k).rsvd),
     need (w.cop != 5 || !usesScale (s.collFmt w) || goodScale w.cScale),
     need (w.cop != 5 || w.cSlots == 0 || (List.range 64).all fun sl => s.slotOk w sl),
     need (!(w.cop == 4 && s.permuteClash w g)),
     if g.others.any fun r => s.memberLost g r then 0x12 else 0,
     if (w.partners g).all fun r => s.memberFrames g r then 0 else 0x13,
     if s.collFmtOk w g then 0 else 3,
     if 8 ≤ (s.whl.colls.filter fun c => c.d == d).length then 255 else 0])

/-- The counts that a collective knows at its start. -/
def State.ownCounts (s : State) (w : Work) (g : Grp) : List (Nat × List Nat) :=
  if w.cop = 5 then [(g.rank, s.countsAt (w.cLists + 256 * g.rank))]
  else if w.cop = 6 then (List.range g.n).map fun q => (q, s.countsAt (w.cLists + 256 * q))
  else []

/-- Starts a collective: it takes the group's number, sends its start and counts frames, opens where nothing must arrive first,
and takes the frames that came early (R344, R354, R356, R358). -/
def State.collBody (s : State) (w : Work) : State :=
  let d := w.die
  let g := s.grp d w.cgrp
  let c : Coll := { id := w.id, d := d, group := w.cgrp, num := g.coll, cop := w.cop, n := g.n, rank := g.rank, starts := [], keeps := [], open_ := false, credit := [], grant := [], queue := [], ins := [], got := 0, need := none, counts := s.ownCounts w g, rows := [], wrote := [], spans := [], dst := s.collDst w g, built := [], prio := s.rf d Reg.whlCtrl 1 3, budget := s.rf d (Reg.seqRetainBudget w.part) 0 24, flags := 0, poison := false, crc := false }
  let start := s.digest w g ++ natLe 4 (if w.cop = 3 then (s.piece w g.rank).dst else 0) ++
    natLe 1 (b2n (w.cop == 2 && w.cKeep == 2 && s.retains d w))
  let s := s.writeN (s.grpAddr d w.cgrp + 16) 4 (g.coll + 1)
  let s := { s with whl := { s.whl with colls := s.whl.colls ++ [c] } }
  let s := (w.partners g).foldl (fun s r => s.whlSend c r { WheelFrame.bare 3 0 0 with payload := start }) s
  let counts := fun (r : Nat) => if w.cop = 4 then natBe 4 (s.piece w r).n ++ natBe 4 (s.piece w r).dst else s.bytes (w.cLists + 256 * r) 256
  let s := if w.cop = 4 || w.cop = 5 then g.others.foldl (fun s r => s.whlSend c r { WheelFrame.bare 2 0 0 with payload := counts r }) s else s
  let s := if w.cop = 4 || w.cop = 5 then s.countsIn w.id
    else if w.cop = 2 && w.cKeep = 2 then s.useIn w.id
    else s.openColl w.id
  let mine := fun (x : Nat × WheelFrame) => x.1 == d && x.2.group == w.cgrp && x.2.coll == c.num
  let held := s.whl.early.filter mine
  let s := { s with whl := { s.whl with early := s.whl.early.filter fun x => !mine x } }
  (held.foldl (fun s x => s.collFrame w.id x.2) s).pumpDie d

/-- Starts a collective descriptor whose COP a test picks. -/
def State.collRun (s : State) (id : Nat) (op : Nat → Bool) : Res :=
  live s (s.begin id (fun w => w.kind == 0x20 && op w.cop) collRanges collCodes State.collBody)

/-- ALLREDUCE (R350); a reserved COP ends with the parameter-error status here (R348). -/
def execAllreduce (id : Nat) (s : State) : Res := s.collRun id fun o => o == 0 || decide (8 ≤ o)

/-- REDUCE_SCATTER (R350). -/
def execReduceScatter (id : Nat) (s : State) : Res := s.collRun id (· == 1)

/-- ALLGATHER (R253, R350, R354). -/
def execAllgather (id : Nat) (s : State) : Res := s.collRun id (· == 2)

/-- SHIFT (R355). -/
def execShift (id : Nat) (s : State) : Res := s.collRun id (· == 3)

/-- PERMUTE (R356, R357). -/
def execPermute (id : Nat) (s : State) : Res := s.collRun id (· == 4)

/-- EXCHANGE (R154, R358, R359). -/
def execExchange (id : Nat) (s : State) : Res := s.collRun id (· == 5)

/-- RETURN (R360). -/
def execRet (id : Nat) (s : State) : Res := s.collRun id (· == 6)

/-! ## GROUP_SET (R334) -/

/-- The template of a GROUP_SET. -/
def State.grpTemplate (s : State) (w : Work) : Grp := Grp.ofBytes w.cgrp (s.bytes w.cSrc 64)

/-- Whether a template and its member entries pass R334. -/
def State.groupSetOk (s : State) (g : Grp) : Bool :=
  let ms := (List.range g.n).map fun r => s.member g r
  let who := fun (m : Member) => if m.side then (1, m.mac) else (0, m.xyz)
  !g.rsvd && decide (g.axis ≤ 3) && decide (1 ≤ g.n) && decide (g.n ≤ 64) && decide (g.rank < g.n) && decide (g.die < s.part.dies) &&
    g.members % 64 == 0 && ms.all (fun m => !m.rsvd && (m.side || m.mac == 0)) &&
    (nub (ms.map who)).length == ms.length &&
    (s.member g g.rank).xyz == (if g.axis = 0 then g.die else s.selfXyz) && !(s.member g g.rank).side &&
    ms.all (fun m => if g.axis = 0 then !m.side && decide (m.xyz < s.part.dies) else !m.side || s.part == .t8)

/-- The ranges of a GROUP_SET: its template and the member entries. -/
def groupSetRanges (s : State) (w : Work) : List Rng :=
  let g := s.grpTemplate w
  [⟨w.cSrc, 64, false⟩, ⟨g.members, 8 * g.n, false⟩]

/-- The codes of a GROUP_SET; it waits while a collective of the group runs. -/
def groupSetCodes (s : State) (w : Work) : List Nat :=
  let d := w.die
  let g := s.grpTemplate w
  let old := s.grp d w.cgrp
  [need (w.cSrc % 64 == 0 && leAt w.bytes 54 10 == 0 && !w.bit 45 7 && w.f 46 1 / 64 == 0 && !w.bit 47 7),
   if s.regN d Reg.whlGrpCount ≤ w.cgrp then 1 else if !s.grpIn d w.cgrp then 2 else 0,
   if s.rbit d Reg.whlCtrl 0 then 0 else 7,
   need (s.groupSetOk g),
   if g.part = w.part && (!old.valid || old.part = w.part) then 0 else 4,
   if s.whl.colls.any fun c => c.group == w.cgrp then 255 else 0]

/-- Copies the template into the table, with COLL 0, and takes the member entries that it names. -/
def State.groupSetBody (s : State) (w : Work) : State :=
  let b := s.bytes w.cSrc 64
  let g := s.grpTemplate w
  let a := s.grpAddr w.die w.cgrp
  let s := { s with whl := { s.whl with entries := kvPut s.whl.entries a (s.bytes g.members (8 * g.n)) } }
  (s.write a (spliceAt b 16 (natLe 4 0))).endStatus w.id 0

/-- GROUP_SET (R334, R361). -/
def execGroupSet (id : Nat) (s : State) : Res :=
  live s (s.begin id (fun w => w.kind == 0x20 && w.cop == 7) groupSetRanges groupSetCodes State.groupSetBody)

end Sys2Proof.Machine
end

