-- ==== Sys2Proof/Machine/Movers.lean ====
section
/-! DEFINITION. The descriptors that the sequencer and the movers run (Table 13-3): NOP, COPY, COPY_INLINE, LAYER_MARK,
PLACE (R34 to R38) and PREFETCH (R249 to R252). -/

namespace Sys2Proof.Machine

/-- Whether the bytes of a descriptor from `off` on are zero, where Table 13-3 names none of them. -/
def Work.zeroFrom (w : Work) (off : Nat) : Bool := leAt w.bytes off (64 - off) == 0

/-! ## NOP and the copies -/

/-- The codes of a NOP: bytes 8 to 63 are reserved. -/
def nopCodes (_ : State) (w : Work) : List Nat := [need (w.zeroFrom 8)]

/-- NOP ends at once. -/
def execNop (id : Nat) (s : State) : Res :=
  live s (s.begin id (fun w => w.kind == 0x00) noRanges nopCodes fun s w => s.endStatus w.id 0)

/-- SRC of a COPY. -/
def Work.cpSrc (w : Work) : Nat := w.addr 8
/-- DST of a COPY. -/
def Work.cpDst (w : Work) : Nat := w.addr 14
/-- LEN of a COPY. -/
def Work.cpLen (w : Work) : Nat := w.f 20 4

/-- Copies `len` bytes between 64-byte-aligned places, each line with its poison tag (R28, R589); overlapping places leave
the destination undefined (Table 13-3). -/
def State.copyLines (s : State) (src dst len : Nat) : State :=
  if src < dst + len && dst < src + len then s.scramble dst len
  else
    let bs := s.bytes src len
    let tags := (List.range (len / 64)).map fun i => s.poisoned (lineOf src + i)
    tags.zipIdx.foldl (fun s t => s.markLine (lineOf dst + t.2) t.1) (s.write dst bs)

/-- The ranges of a COPY. -/
def copyRanges (_ : State) (w : Work) : List Rng := [⟨w.cpSrc, w.cpLen, false⟩, ⟨w.cpDst, w.cpLen, true⟩]

/-- The codes of a COPY. -/
def copyCodes (s : State) (w : Work) : List Nat :=
  [need (w.zeroFrom 28 && w.f 24 4 / 2 ^ 20 == 0 && w.cpSrc % 64 == 0 && w.cpDst % 64 == 0),
   need (w.cpLen != 0 && w.cpLen % 64 == 0)] ++ s.groupCodes w (w.f 24 4) (w.cpDst, w.cpLen)

/-- What a COPY does. -/
def State.copyBody (s : State) (w : Work) : State :=
  let s := s.stageIf w (w.f 24 4)
  let bad := s.tagged w.cpSrc w.cpLen
  (s.copyLines w.cpSrc w.cpDst w.cpLen).endWork w.id fun r => { r with poison := r.poison || bad }

/-- COPY. -/
def execCopy (id : Nat) (s : State) : Res :=
  live s (s.begin id (fun w => w.kind == 0x01) copyRanges copyCodes State.copyBody)

/-- The bytes that a COPY_INLINE writes: LEN bytes of the accepted descriptor's DATA (R424). -/
def Work.inlineData (w : Work) : List Byte := (w.bytes.drop 16).take (w.f 14 1)

/-- The range of a COPY_INLINE. -/
def inlineRanges (_ : State) (w : Work) : List Rng := [⟨w.addr 8, w.f 14 1 % 64, true⟩]

/-- The codes of a COPY_INLINE. -/
def inlineCodes (_ : State) (w : Work) : List Nat :=
  [need (w.f 14 1 / 64 == 0 && w.f 15 1 == 0 && decide (1 ≤ w.f 14 1) && decide (w.f 14 1 ≤ 48))]

/-- COPY_INLINE. -/
def execCopyInline (id : Nat) (s : State) : Res :=
  live s (s.begin id (fun w => w.kind == 0x02) inlineRanges inlineCodes fun s w => (s.write (w.addr 8) w.inlineData).endStatus w.id 0)

/-! ## Layer marks and prefetch (R249 to R252) -/

/-- The record of a prefetch entry before it ends. -/
def entryRec (w : Work) (i : Nat) : Rec := { Rec.empty with tag := w.f 4 4, idx := w.idx, kind := w.kind, detail0 := i }

/-- Adds an entry of a PREFETCH as work of its own, ended with a status or running. -/
def State.addEntry (s : State) (w : Work) (i status : Nat) (ended : Bool) : State :=
  let e := { w with id := s.seq.nextId, entry := some i, batch := some w.id, started := true, ended := ended, res := { entryRec w i with status := status } }
  { s with seq.works := s.seq.works ++ [e], seq.nextId := s.seq.nextId + 1 }

/-- Ends a running list: each entry not yet issued completes with the cancelled status (R252). -/
def State.cancelList (s : State) (l : PfList) : State :=
  let s := { s with lists := s.lists.filter fun x => x.id != l.id }
  match s.work l.id with
  | none => s
  | some w => (List.range (l.count - l.next)).foldl (fun s i => s.addEntry w (l.next + i) 0x0A true) s

/-- The codes of a LAYER_MARK. -/
def markCodes (_ : State) (w : Work) : List Nat := [need (w.zeroFrom 11 && w.f 10 1 / 2 == 0)]

/-- Sets CUR[p] of a LAYER_MARK's die, and with CANCEL ends every running list of its partition there. -/
def State.markBody (s : State) (w : Work) : State :=
  let s := s.setRegN w.die (Reg.seqCurLayer w.part) (w.f 8 2)
  let s := if w.bit 10 0 then (s.lists.filter fun l => l.part == w.part && ringDie l.ring == w.die).foldl State.cancelList s else s
  s.endStatus w.id 0

/-- LAYER_MARK. -/
def execLayerMark (id : Nat) (s : State) : Res :=
  live s (s.begin id (fun w => w.kind == 0x03) noRanges markCodes State.markBody)

/-- The list of a PREFETCH is what it reads. -/
def pfRanges (_ : State) (w : Work) : List Rng := [⟨w.addr 8, 16 * w.f 14 2, false⟩]

/-- The codes of a PREFETCH. -/
def pfCodes (_ : State) (w : Work) : List Nat :=
  [need (w.zeroFrom 18 && w.f 17 1 / 32 == 0 && w.addr 8 % 64 == 0 && w.f 14 2 != 0 && fld (w.f 17 1) 1 4 != 0)]

/-- The list that a PREFETCH starts. -/
def Work.pfList (w : Work) : PfList := ⟨w.id, w.ring, w.part, w.addr 8, w.f 14 2, w.f 16 1, w.bit 17 0, fld (w.f 17 1) 1 4, 0⟩

/-- PREFETCH: starts a list; its record follows that of its last entry (R251). -/
def execPrefetch (id : Nat) (s : State) : Res :=
  live s (s.begin id (fun w => w.kind == 0x05) pfRanges pfCodes fun s w => { s with lists := s.lists ++ [w.pfList] })

/-- The entries of a list that are issued and not completed. -/
def State.outstanding (s : State) (id : Nat) : Nat := (s.seq.works.filter fun w => w.entry.isSome && w.batch == some id).length

/-- Whether the layer condition of the next entry holds (R251). -/
def State.layerOk (s : State) (l : PfList) (layer : Nat) : Bool :=
  let cur := s.rf (ringDie l.ring) (Reg.seqCurLayer l.part) 0 16
  if l.dir then decide (cur ≤ layer + l.ahead) else decide (layer ≤ cur + l.ahead)

/-- The source range of a prefetch entry's copy, unless it comes from flash. -/
def ObjRec.srcRanges (r : ObjRec) : List Rng := if r.tier = 2 then [] else [⟨r.base, r.len, false⟩]

/-- What the checks of one entry find, `src` and `dst` being the records of its objects (R250, R251, R651). A record that is
not in use gives the parameter-error status (assumption 21). -/
def State.entryCode (s : State) (d p : Nat) (e : List Byte) (src dst : ObjRec) : Nat :=
  lowest ([need (leAt e 0 4 / 2 ^ 20 == 0 && leAt e 4 4 / 2 ^ 20 == 0 && leAt e 10 6 == 0),
    need (src.valid && dst.valid && src.len == dst.len && dst.tier != 2)] ++
    (if src.valid && dst.valid then s.rangesCodes d p (src.srcRanges ++ [⟨dst.base, dst.len, true⟩]) else []) ++
    (if src.valid && src.tier == 2 then
      [if s.rbit d Reg.flCtrl 0 && s.volReady d then 0 else 7,
       if src.vlba + unitsOf src.len ≤ s.volUnits d then 0 else 2,
       s.pairCode d (s.volPortsOf d src.vlba (unitsOf src.len)) [⟨dst.base, dst.len, true⟩]]
    else []))

/-- PREFETCH_ENTRY_ISSUE: issues the next entry of a list when R251 lets it. The entry becomes work of its own, which ends
at once when its copy reads memory and when its pieces have ended when it reads the volume. -/
def execPrefetchEntryIssue (id : Nat) (s : State) : Res :=
  live s (
    match s.lists.find? (fun l => l.id == id), s.work id with
    | some l, some w =>
      let d := w.die
      let e := s.bytes (l.list + 16 * l.next) 16
      if l.count ≤ l.next || l.maxFly ≤ s.outstanding id || !s.layerOk l (leAt e 8 2) then s
      else
        let so := leAt e 0 4 % 2 ^ 20
        let do_ := leAt e 4 4 % 2 ^ 20
        let src := s.obj d so
        let dst := s.obj d do_
        let c := s.entryCode d l.part e src dst
        let issue := fun (s : State) (status : Nat) (ended : Bool) =>
          let s := { s with lists := mapIf (fun x => x.id == id) (fun x => { x with next := x.next + 1 }) s.lists }
          (s.bump d (Reg.seqCntLo 2) 1).addEntry w l.next status ended
        if c ≠ 0 then issue (if c = 4 then s.accessRefused w else s) c true
        else s.onRanges w (src.srcRanges ++ [⟨dst.base, dst.len, true⟩]) fun s =>
          let me := s.seq.nextId
          if src.tier = 2 then
            let n := unitsOf src.len
            (issue s 0 false).startXfer ⟨me, d, 0, src.vlba, n, dst.base, false, [], [so, do_], s.cutPieces d n src.vlba n 0 src.len⟩
          else
            let bad := s.tagged src.base src.len
            ((issue s 0 true).copyLines src.base dst.base src.len).modWork me fun w => { w with res := { w.res with poison := bad } }
    | _, _ => s)

/-! ## PLACE (R36 to R38) -/

/-- OBJ of a PLACE. -/
def Work.plObj (w : Work) : Nat := w.f 8 4
/-- The new record of a PLACE. -/
def Work.plNew (w : Work) : ObjRec := ObjRec.ofBytes ((w.bytes.drop 12).take 32)

/-- Whether BASE and LENGTH of a record fall wholly inside one range of Table 01-4 that belongs to HOME_DIE and matches
TIER (R36). -/
def ObjRec.homed (r : ObjRec) (n : Nat) : Bool :=
  match r.tier with
  | 0 => inTs n r.base r.len && (r.base - tsBase) / tsStride == r.home
  | 1 => inHbm n r.base r.len && r.base / hbmSize == r.home && (r.base + r.len - 1) / hbmSize == r.home
  | 3 => inHost r.base r.len
  | _ => true

/-- Whether a new record passes R36 and R244. -/
def State.recOk (s : State) (d : Nat) (r : ObjRec) : Bool :=
  !r.rsvd && (!r.valid ||
    (r.base % 64 == 0 && r.len != 0 && r.len % 64 == 0 && decide (r.tier ≤ 3) && r.homed s.part.dies &&
      (r.tier != 2 || (r.base == 0 && r.clean && decide (r.home < s.part.dies))) && (r.tier != 3 || r.home == 0) &&
      (!r.clean || decide (r.vlba + unitsOf r.len ≤ s.volUnits d))))

/-- Whether a serving batch of a model is in flight (R466). -/
def State.modelBusy (s : State) (m : Nat) : Bool :=
  s.srvs.any fun x => x.inFlight && x.models.contains m

/-- Whether a resident model, or a retiring one with a batch in flight, holds an object (R466). -/
def State.modelHolds (s : State) (o : Nat) : Bool :=
  (List.range 64).any fun m =>
    let e := s.modelEntry m
    let st := s.modelState e
    let first := leAt e 4 4 % 2 ^ 20
    (st == 2 || (st == 3 && s.modelBusy m)) && decide (first ≤ o) && decide (o < first + leAt e 8 4)

/-- Whether a hardware use of an object's record is in progress: a flash copy of a prefetch entry, a re-fetch, or a
measurement (R38). -/
def State.objInUse (s : State) (o : Nat) : Bool :=
  s.xfers.any (fun x => x.objs.contains o) || s.refetch.any (fun b => b.obj == o) || s.measuring.any (fun m => m.obj == o)

/-- The codes of a PLACE (R36, R37, R244, R374, R422, R466, R651); 255 while a use of the record is in progress (R38). -/
def placeCodes (s : State) (w : Work) : List Nat :=
  let d := w.die
  let o := w.plObj
  let old := s.obj d o
  [need (w.zeroFrom 44 && decide (o < 0xFFFFF)), if s.objIn d o then 0 else 2, if old.valid && old.part != w.part then 4 else 0,
   if s.recOk d w.plNew && !(s.twin d o).staged && !s.modelHolds o then 0 else 5,
   if s.objInUse o then 255 else 0]

/-- Whether an object counts as an activation object of partition `p` on die `d` (R362). -/
def State.isAct (s : State) (d p o : Nat) (r : ObjRec) : Bool :=
  decide (s.rf d (Reg.seqActFirst p) 0 20 ≤ o) && decide (o ≤ s.rf d (Reg.seqActLast p) 0 20) && r.valid && r.part == p &&
    r.home == d && decide (r.tier ≤ 1)

/-- What an object counts in SEQ_ACT_CUR[p] of die `d`. -/
def State.actUnits (s : State) (d p o : Nat) (r : ObjRec) : Nat := if s.isAct d p o r then units64k r.len else 0

/-- Counts SEQ_ACT_CUR[p] of die `d` afresh over its range (R365). -/
def State.actRecount (s : State) (d p : Nat) : Nat :=
  let a := s.rf d (Reg.seqActFirst p) 0 20
  let b := s.rf d (Reg.seqActLast p) 0 20
  sumNat ((List.range (b + 1 - a)).map fun i => s.actUnits d p (a + i) (s.obj d (a + i)))

/-- Sets what partition `p` holds on die `d`: SEQ_ACT_CUR[p] shows it saturated, and SEQ_ACT_PEAK[p] follows. -/
def State.setAct (s : State) (d p v : Nat) : State :=
  let s := { s with actSum := kvPut s.actSum (16 * d + p) v }
  let v := Nat.min 0xFFFFFF v
  let s := s.setRegN d (Reg.seqActCur p) v
  if s.rf d (Reg.seqActPeak p) 0 24 < v then s.setRegN d (Reg.seqActPeak p) v else s

/-- Recounts a stale range before the next placement change is counted (R365). -/
def State.freshenAct (s : State) (d p : Nat) : State :=
  if s.actStale.contains (d, p) then ({ s with actStale := s.actStale.erase (d, p) }).setAct d p (s.actRecount d p) else s

/-- Follows a placement change in the counts of R362. -/
def State.followAct (s : State) (o : Nat) (old new : ObjRec) : State :=
  (List.range s.part.dies).foldl (fun s d => (List.range s.part.parts).foldl (fun s p =>
    let a := s.actUnits d p o old
    let b := s.actUnits d p o new
    if a = b then s else s.setAct d p (kvGet 0 s.actSum (16 * d + p) - a + b)) s) s

/-- PLACE takes effect: the record is written, a retained object leaves its set (R254), the activation counts follow, and
an object with MEASURE set is measured by the guard of its HOME_DIE (R572). -/
def State.placeBody (s : State) (w : Work) : State :=
  let d := w.die
  let o := w.plObj
  let s := (List.range s.part.dies).foldl (fun s d => (List.range s.part.parts).foldl (fun s p => s.freshenAct d p) s) s
  let old := s.obj d o
  let new := w.plNew
  let s := s.write (s.objAddr d o) ((w.bytes.drop 12).take 32)
  let s := s.releaseKept fun k => k.obj == o
  let s := s.followAct o old new
  let m : Meas := ⟨o, new.home, w.part, new.tier == 2, if new.tier = 2 then new.vlba else new.base, new.len⟩
  let s := if new.valid && new.meas then { s with measuring := s.measuring ++ [m] } else s
  (s.bump d (Reg.seqCntLo 0) 1).endStatus w.id 0

/-- PLACE (R36). -/
def execPlace (id : Nat) (s : State) : Res :=
  live s (s.begin id (fun w => w.kind == 0x04) noRanges placeCodes State.placeBody)

end Sys2Proof.Machine
end

