-- ==== Sys2Proof/Machine/Vector.lean ====
section
/-! DEFINITION. The vector engines: lanes and strips (R196), the operations of Table 07-2, and vector programs (R198 to
R204, R652). -/

namespace Sys2Proof.Machine

/-! ## Engines -/

/-- An engine before its first descriptor. -/
def Ve.idle (d v : Nat) : Ve := ⟨d, v, [], [], [], [], [], 0, [], [], [], 0, 0, false, false⟩

/-- A vector engine of a die. -/
def State.ve (s : State) (d v : Nat) : Ve := (s.ves.find? fun x => x.d == d && x.v == v).getD (Ve.idle d v)

/-- Replaces a vector engine. -/
def State.setVe (s : State) (x : Ve) : State :=
  { s with ves := (s.ves.filter fun y => !(y.d == x.d && y.v == x.v)) ++ [x] }

/-- VE_CTRL.ENABLE and not fenced. -/
def State.veOn (s : State) (d v : Nat) : Bool := s.rbit d (Reg.veCtrl v) 0 && !s.unitOut d (4 + v)

/-- Whether a vector engine lies in the partition's half of the die (R450). -/
def State.veOwned (s : State) (d p v : Nat) : Bool := s.ownsHalf d p (2 * d + v)

/-- The vector engine that a descriptor binds to when it starts now (R653): a code, and the engine. -/
def State.chooseVe (s : State) (w : Work) (unit : Nat) : Nat × Nat :=
  let d := w.die
  chooseUnit [0, 1] (if unit = 0 then none else some (unit - 1)) (s.veOwned d w.part) (s.veOn d) (fun v => unit != 0 || !s.spokenFor w (v + 1))
    (fun v => s.queued d (4 + v))

/-! ## Registers and lanes -/

/-- Lanes of an engine. -/
def lanes : Nat := 2048

/-- S[i]. -/
def Ve.s (x : Ve) (i : Nat) : Nat := kvGet 0 x.sregs i

/-- Lane l of V[i]. -/
def Ve.lane (x : Ve) (i l : Nat) : Nat := ((kvGet [] x.vregs i)[l]?).getD 0

/-- Sets S[i]. -/
def Ve.setS (x : Ve) (i v : Nat) : Ve := { x with sregs := kvPut x.sregs i v }

/-- Sets every lane of V[i]. -/
def Ve.setV (x : Ve) (i : Nat) (f : Nat → Nat) : Ve := { x with vregs := kvPut x.vregs i ((List.range lanes).map f) }

/-- ORs flags in. -/
def Ve.raise (x : Ve) (f : Nat) : Ve := { x with flags := Nat.lor x.flags f }

/-- VE_DAZ in force. -/
def Ve.daz (x : Ve) : Bool := bit x.ftz 1

/-- VE_FTZ in force. -/
def Ve.fz (x : Ve) : Bool := bit x.ftz 2

/-- An operation on three FP32 words, with its result and flags. -/
abbrev LaneOp := Nat → Nat → Nat → Nat × Nat

/-- Runs an operation in every lane, or on the scalar registers when SC is set. Lanes that `valid` excludes compute and
raise no flag (R196). `keep` says in which lanes D is written. -/
def Ve.each (x : Ve) (f : VFields) (valid : Nat → Bool) (op : LaneOp) (keep : Nat → Nat → Bool := fun _ _ => true) : Ve :=
  if f.sc then
    let (r, fl) := op (x.s f.a) (x.s f.b) (x.s f.c)
    if keep (x.s f.a) (x.s f.b) then (x.setS f.d r).raise fl else x.raise fl
  else
    let b := fun (l : Nat) => if f.bs then x.s f.b else x.lane f.b l
    let c := fun (l : Nat) => if f.cs then x.s f.c else x.lane f.c l
    let out := (List.range lanes).map fun l => op (x.lane f.a l) (b l) (c l)
    let fl := out.zipIdx.foldl (fun a y => if valid y.2 then Nat.lor a y.1.2 else a) 0
    (x.setV f.d fun l => if keep (x.lane f.a l) (b l) then ((out[l]?).getD (0, 0)).1 else x.lane f.d l).raise fl

/-! ## The operations of Table 07-2 -/

/-- MOVI: IMM to every lane, or to S[D]. -/
def Ve.opMovi (x : Ve) (f : VFields) : Ve := if f.sc then x.setS f.d f.imm.toNat else x.setV f.d fun _ => f.imm.toNat
/-- ADD. -/
def Ve.opAdd (x : Ve) (f : VFields) (ok : Nat → Bool) : Ve := x.each f ok fun a b _ => f32add x.daz x.fz a b
/-- SUB. -/
def Ve.opSub (x : Ve) (f : VFields) (ok : Nat → Bool) : Ve := x.each f ok fun a b _ => f32sub x.daz x.fz a b
/-- MUL. -/
def Ve.opMul (x : Ve) (f : VFields) (ok : Nat → Bool) : Ve := x.each f ok fun a b _ => f32mul x.daz x.fz a b
/-- FMA. -/
def Ve.opFma (x : Ve) (f : VFields) (ok : Nat → Bool) : Ve := x.each f ok fun a b c => f32fma false x.daz x.fz a b c
/-- FNMA. -/
def Ve.opFnma (x : Ve) (f : VFields) (ok : Nat → Bool) : Ve := x.each f ok fun a b c => f32fma true x.daz x.fz a b c
/-- MAX, MIN, MAXNUM and MINNUM. -/
def Ve.opPick (x : Ve) (f : VFields) (ok : Nat → Bool) (mx num : Bool) : Ve :=
  x.each f ok fun a b _ => f32pick mx num x.daz a b

/-- A sign operation: a NaN gives the canonical NaN of sign `neg` with NI, a number takes sign `neg` (Table 07-2). -/
def signOp (daz : Bool) (neg : Bool → Bool) (a : Nat) : Nat × Nat :=
  match f32in daz a with
  | (.nan b, f) => (fp32.sign (neg b) + fp32.nan, Nat.lor f Flag.ni)
  | (.fin b n _ _, f) => (if n = 0 then fp32.sign (neg b) else a % 2 ^ 31 + fp32.sign (neg b), f)
  | (.inf b, f) => (fp32.sign (neg b) + 0x7F800000, f)

/-- ABS. -/
def Ve.opAbs (x : Ve) (f : VFields) (ok : Nat → Bool) : Ve := x.each f ok fun a _ _ => signOp x.daz (fun _ => false) a
/-- NEG. -/
def Ve.opNeg (x : Ve) (f : VFields) (ok : Nat → Bool) : Ve := x.each f ok fun a _ _ => signOp x.daz not a

/-- SELLT: where A < B by value, D takes C; A, B and C are flushed as operands under VE_DAZ, which raises FZ and nothing
else. -/
def Ve.opSellt (x : Ve) (f : VFields) (ok : Nat → Bool) : Ve :=
  let word := fun (c : Nat) => if x.daz && fp32.isSub c then fp32.sign (bit c 31) else c
  x.each f ok (fun a b c => (word c, Nat.lor (f32in x.daz a).2 (Nat.lor (f32in x.daz b).2 (f32in x.daz c).2)))
    fun a b => (f32in x.daz a).1.lt (f32in x.daz b).1

/-- EXP. -/
def Ve.opExp (x : Ve) (f : VFields) (ok : Nat → Bool) : Ve := x.each f ok fun a _ _ => f32op1 expVal x.daz x.fz a
/-- RCP. -/
def Ve.opRcp (x : Ve) (f : VFields) (ok : Nat → Bool) : Ve := x.each f ok fun a _ _ => f32op1 rcpVal x.daz x.fz a
/-- RSQRT. -/
def Ve.opRsqrt (x : Ve) (f : VFields) (ok : Nat → Bool) : Ve := x.each f ok fun a _ _ => f32op1 rsqrtVal x.daz x.fz a

/-- One addition of the tree: an absent operand passes the other on (R203). -/
def treeAdd (daz ftz : Bool) : Option Nat × Nat → Option Nat × Nat → Option Nat × Nat
  | (none, f), (b, g) => (b, Nat.lor f g)
  | (a, f), (none, g) => (a, Nat.lor f g)
  | (some a, f), (some b, g) => let (r, h) := f32add daz ftz a b; (some r, Nat.lor (Nat.lor f g) h)

/-- The tree sum of R94: lane i with lane i + n/2, halving down to one lane; `k` halvings. -/
def treeSum (daz ftz : Bool) : Nat → List (Option Nat × Nat) → Option Nat × Nat
  | 0, l => (l[0]?).getD (none, 0)
  | k + 1, l => treeSum daz ftz k ((l.take (2 ^ k)).zip (l.drop (2 ^ k)) |>.map fun y => treeAdd daz ftz y.1 y.2)

/-- SSUM: S[D] plus the tree sum over the lanes of the valid extent (R203). -/
def Ve.opSsum (x : Ve) (f : VFields) (ok : Nat → Bool) : Ve :=
  let l := (List.range lanes).map fun i => (if ok i then some (x.lane f.a i) else none, 0)
  match treeSum x.daz x.fz 11 l with
  | (none, _) => x
  | (some t, fl) => let (r, g) := f32add x.daz x.fz (x.s f.d) t; (x.setS f.d r).raise (Nat.lor fl g)

/-- SMAXA: S[D] against the largest magnitude among the lanes of the valid extent, by MAXNUM (R203). -/
def Ve.opSmaxa (x : Ve) (f : VFields) (ok : Nat → Bool) : Ve :=
  let l := ((List.range lanes).filter ok).map fun i => x.lane f.a i
  let isNan := fun (a : Nat) => (fp32.decode a).isNan
  let fl := l.foldl (fun g a => Nat.lor g (Nat.lor (f32in x.daz a).2 (if isNan a then Flag.ni else 0))) 0
  match l.filter fun a => !isNan a with
  | [] => x.raise fl
  | y :: ys =>
    let big := ys.foldl (fun m a => (f32pick true true x.daz m (a % 2 ^ 31)).1) (f32pick true true x.daz (y % 2 ^ 31) (y % 2 ^ 31)).1
    let (r, g) := f32pick true true x.daz (x.s f.d) big
    (x.setS f.d r).raise (Nat.lor fl g)

/-- The next strip of input stream A into V[D] (R198, R200): converted to FP32 with nearest-even and SAT = 0. Past the last
strip no memory is read and every lane takes +0. -/
def State.opLd (s : State) (x : Ve) (f : VFields) : Ve :=
  let k := kvGet 0 x.lds f.a
  let x := { x with lds := kvPut x.lds f.a (k + 1) }
  match x.ins[f.a]? with
  | none => x.setV f.d fun _ => 0
  | some e =>
    if 8 * x.nt ≤ k then x.setV f.d fun _ => 0
    else
      let a := e.base + k / 8 * tileStride e.fmt
      let h := s.hdr a
      let (bad, crc) := s.tileBad a
      let el := (List.range lanes).map fun l =>
        let i := 2048 * (k % 8) + l
        let out := convFloat fp32 (rne false) (s.elemFull a h (i / 128) (i % 128))
        (out.1, if i / 128 < h.rows && i % 128 < h.cols then out.2 else 0)
      let fl := el.foldl (fun g y => Nat.lor g y.2) 0
      ({ x with vregs := kvPut x.vregs f.d (el.map Prod.fst), bad := x.bad || bad, crc := x.crc || crc }).raise fl

/-- V[A] as the next strip of output stream D (R198). The strip's tile is written when the pass ends. -/
def Ve.opSt (x : Ve) (f : VFields) : Ve :=
  let k := kvGet 0 x.sts f.d
  { x with sts := kvPut x.sts f.d (k + 1), buf := kvPut x.buf (2 ^ 32 * f.d + k) ((List.range lanes).map (x.lane f.a)) }

/-! ## Each operation as a command

A vector engine issues one instruction. What it acts on is what the engine's last descriptor left: registers, streams, and
how many strips of each the pass has seen. It belongs to no tile, so every lane counts as valid (assumption 24). -/

/-- Every lane. -/
def allLanes (_ : Nat) : Bool := true

/-- One instruction on an engine of a die. An engine that is out of service issues nothing (assumption 7). -/
def State.issue (s : State) (d v : Nat) (four : Bool) (run : Ve → Ve) : Res :=
  onDie s d (
    if s.veOn d v then
      let s := s.setVe (run (s.ve d v))
      (s.bump d (Reg.veCntLo v 0) 1).bump d (Reg.veCntLo v 4) (b2n four)
    else s)

/-- NOP. -/
def execVeNop (d v : Nat) (_ : VFields) (s : State) : Res := s.issue d v false fun x => x
/-- LD; SC = 1 and A above 7 are refused when a program is loaded (R202), so such an instruction is never issued. -/
def execLd (d v : Nat) (f : VFields) (s : State) : Res :=
  if f.sc || 7 < f.a then onDie s d s else s.issue d v false fun x => s.opLd x f
/-- ST; SC = 1 and D above 3 are refused when a program is loaded (R202). -/
def execSt (d v : Nat) (f : VFields) (s : State) : Res :=
  if f.sc || 3 < f.d then onDie s d s else s.issue d v false fun x => x.opSt f
/-- MOVI. -/
def execMovi (d v : Nat) (f : VFields) (s : State) : Res := s.issue d v false fun x => x.opMovi f
/-- ADD. -/
def execAdd (d v : Nat) (f : VFields) (s : State) : Res := s.issue d v false fun x => x.opAdd f allLanes
/-- SUB. -/
def execSub (d v : Nat) (f : VFields) (s : State) : Res := s.issue d v false fun x => x.opSub f allLanes
/-- MUL. -/
def execMul (d v : Nat) (f : VFields) (s : State) : Res := s.issue d v false fun x => x.opMul f allLanes
/-- FMA. -/
def execFma (d v : Nat) (f : VFields) (s : State) : Res := s.issue d v false fun x => x.opFma f allLanes
/-- FNMA. -/
def execFnma (d v : Nat) (f : VFields) (s : State) : Res := s.issue d v false fun x => x.opFnma f allLanes
/-- MAX. -/
def execMax (d v : Nat) (f : VFields) (s : State) : Res := s.issue d v false fun x => x.opPick f allLanes true false
/-- MIN. -/
def execMin (d v : Nat) (f : VFields) (s : State) : Res := s.issue d v false fun x => x.opPick f allLanes false false
/-- MAXNUM. -/
def execMaxnum (d v : Nat) (f : VFields) (s : State) : Res := s.issue d v false fun x => x.opPick f allLanes true true
/-- MINNUM. -/
def execMinnum (d v : Nat) (f : VFields) (s : State) : Res := s.issue d v false fun x => x.opPick f allLanes false true
/-- ABS. -/
def execAbs (d v : Nat) (f : VFields) (s : State) : Res := s.issue d v false fun x => x.opAbs f allLanes
/-- NEG. -/
def execNeg (d v : Nat) (f : VFields) (s : State) : Res := s.issue d v false fun x => x.opNeg f allLanes
/-- SELLT. -/
def execSellt (d v : Nat) (f : VFields) (s : State) : Res := s.issue d v false fun x => x.opSellt f allLanes
/-- EXP. -/
def execExp (d v : Nat) (f : VFields) (s : State) : Res := s.issue d v true fun x => x.opExp f allLanes
/-- RCP. -/
def execRcp (d v : Nat) (f : VFields) (s : State) : Res := s.issue d v true fun x => x.opRcp f allLanes
/-- RSQRT. -/
def execRsqrt (d v : Nat) (f : VFields) (s : State) : Res := s.issue d v true fun x => x.opRsqrt f allLanes
/-- SSUM; SC = 1 is refused when a program is loaded (R202). -/
def execSsum (d v : Nat) (f : VFields) (s : State) : Res :=
  if f.sc then onDie s d s else s.issue d v false fun x => x.opSsum f allLanes
/-- SMAXA; SC = 1 is refused when a program is loaded (R202). -/
def execSmaxa (d v : Nat) (f : VFields) (s : State) : Res :=
  if f.sc then onDie s d s else s.issue d v false fun x => x.opSmaxa f allLanes

/-! ## Programs (R198, R201, R202) -/

/-- OP and the fields of an instruction word. -/
def vDecode (w : Nat) : Nat × VFields :=
  (w % 256, ⟨fld w 8 5, fld w 13 5, fld w 18 5, fld w 23 5, bit w 28, bit w 29, bit w 30, BitVec.ofNat 32 (w / 2 ^ 32)⟩)

/-- The opcodes of Table 07-2. -/
def vopKnown (o : Nat) : Bool :=
  decide (o ≤ 3) || (decide (0x10 ≤ o) && decide (o ≤ 0x14)) || (decide (0x18 ≤ o) && decide (o ≤ 0x1E)) ||
    (decide (0x20 ≤ o) && decide (o ≤ 0x22)) || o == 0x30 || o == 0x31

/-- Whether an instruction word passes R202. -/
def vwordOk (w : Nat) : Bool :=
  let (o, f) := vDecode w
  vopKnown o && !bit w 31 && !((o == 1 || o == 2 || o == 0x30 || o == 0x31) && f.sc) && !(o == 1 && 7 < f.a) &&
    !(o == 2 && 3 < f.d)

/-- Runs one instruction of a program. -/
def State.vrun (s : State) (x : Ve) (valid : Nat → Bool) (i : Nat × VFields) : Ve :=
  let f := i.2
  match i.1 with
  | 0x01 => s.opLd x f
  | 0x02 => x.opSt f
  | 0x03 => x.opMovi f
  | 0x10 => x.opAdd f valid
  | 0x11 => x.opSub f valid
  | 0x12 => x.opMul f valid
  | 0x13 => x.opFma f valid
  | 0x14 => x.opFnma f valid
  | 0x18 => x.opPick f valid true false
  | 0x19 => x.opPick f valid false false
  | 0x1A => x.opPick f valid true true
  | 0x1B => x.opPick f valid false true
  | 0x1C => x.opAbs f valid
  | 0x1D => x.opNeg f valid
  | 0x1E => x.opSellt f valid
  | 0x20 => x.opExp f valid
  | 0x21 => x.opRcp f valid
  | 0x22 => x.opRsqrt f valid
  | 0x30 => x.opSsum f valid
  | 0x31 => x.opSmaxa f valid
  | _ => x

/-- One pass of a program: its prologue and its body. -/
structure VPass where
  pro  : List (Nat × VFields)
  body : List (Nat × VFields)
deriving DecidableEq, Repr

/-- A vector descriptor's fields (Table 13-3). -/
structure Vec where
  image   : Nat
  params  : Nat
  streams : Nat
  nt      : Nat
  step    : Nat
  unit    : Nat
deriving DecidableEq, Repr

/-- The fields of a VECTOR descriptor. -/
def Work.vec (w : Work) : Vec := ⟨w.f 8 4, w.addr 12, w.addr 18, w.f 24 4, w.f 28 4, w.f 32 1 % 4⟩

/-- Bytes of the object that holds an image, from memory or from flash (R652). -/
def State.imageBytes (s : State) (d : Nat) (r : ObjRec) (len : Nat) : List Byte :=
  if r.tier = 2 then s.volBytes d r.vlba len else s.bytes r.base len

/-- The prologue and body lengths of an image's passes, from its header. -/
def imageLens (h : List Byte) : List (Nat × Nat) :=
  (List.range (leAt h 0 1 % 4 + 1)).map fun k => (leAt h (1 + 2 * k) 1, leAt h (2 + 2 * k) 1)

/-- Instructions of an image. -/
def imageCount (h : List Byte) : Nat := sumNat ((imageLens h).map fun l => l.1 + l.2)

/-- The instruction words of an image. -/
def imageWords (b : List Byte) : List Nat := (List.range (imageCount b)).map fun i => leAt b (16 + 8 * i) 8

/-- The passes that a program store holds, whose prologue and body lengths the image's header gives. -/
def storePasses (lens : List (Nat × Nat)) (prog : List Nat) : List VPass :=
  (lens.foldl (fun (a : List VPass × List Nat) l =>
    (a.1 ++ [⟨(a.2.take l.1).map vDecode, ((a.2.drop l.1).take l.2).map vDecode⟩], a.2.drop (l.1 + l.2))) ([], prog)).1

/-- The passes of an image. -/
def imagePasses (b : List Byte) : List VPass := storePasses (imageLens b) (imageWords b)

/-- The stream-table entry at an address (R199). -/
def State.vstream (s : State) (a : Nat) : VStream :=
  let b := s.bytes a 16
  let ctl := leAt b 7 1
  ⟨leAt b 0 6, leAt b 6 1, ctl % 4, bit ctl 2, ctl / 8, leAt b 8 4, leAt b 12 4⟩

/-- The input streams that a program reads, in increasing number. -/
def usedIns (ps : List VPass) : List Nat :=
  (List.range 8).filter fun i => ps.any fun p => (p.pro ++ p.body).any fun x => x.1 == 1 && x.2.a == i

/-- Whether a pass writes an output stream. -/
def VPass.writes (p : VPass) (i : Nat) : Bool := (p.pro ++ p.body).any fun x => x.1 == 2 && x.2.d == i

/-- STs of a pass to an output stream. -/
def VPass.stCount (p : VPass) (i nt : Nat) : Nat :=
  let n := fun (l : List (Nat × VFields)) => (l.filter fun x => x.1 == 2 && x.2.d == i).length
  n p.pro + n p.body * (8 * nt)

/-- The output streams that a program writes. -/
def usedOuts (ps : List VPass) : List Nat := (List.range 4).filter fun i => ps.any fun p => p.writes i

/-- The ranges of a VECTOR descriptor: parameters, stream table, image, and the tiles of every stream it uses. -/
def vecRanges (s : State) (w : Work) : List Rng :=
  let c := w.vec
  let n := s.part.dies
  let r := s.obj w.die (c.image % 2 ^ 20)
  let fixed : List Rng := [⟨c.params, 128, false⟩, ⟨c.streams, 192, false⟩]
  if !mappedRange n c.streams 192 || !r.valid || (r.tier == 2 && !s.volReady w.die) then fixed
  else
    let h := s.imageBytes w.die r 16
    let len := 16 + 8 * imageCount h
    let ps := imagePasses (s.imageBytes w.die r len)
    let rng := fun (i : Nat) (wr : Bool) =>
      let e := s.vstream (c.streams + 16 * i)
      (⟨e.base, c.nt * tileStride e.fmt, wr⟩ : Rng)
    fixed ++ (if r.tier = 2 then [] else [⟨r.base, len, false⟩]) ++ (usedIns ps).map (fun i => rng i false) ++
      (usedOuts ps).map fun i => rng (8 + i) true

/-- The codes of the streams of a program (R199, R202). DESIGN CHOICE (log 19): an output stream may have FORMAT 0x0E, since R202
lists no refusal of it, although R51 names only integer accumulation and the converter as sources of INT32. -/
def State.streamCodes (s : State) (c : Vec) (ps : List VPass) : List Nat :=
  let n := s.part.dies
  let ins := usedIns ps
  let ent := fun (i : Nat) => s.vstream (c.streams + 16 * i)
  let tile := fun (i t : Nat) => (ent i).base + t * tileStride (ent i).fmt
  let ready := fun (i : Nat) => decide ((ent i).fmt ≤ 14) && mappedRange n (ent i).base (c.nt * tileStride (ent i).fmt)
  [need ((ins ++ (usedOuts ps).map (8 + ·)).all fun i => decide ((ent i).fmt ≤ 14) && (ent i).base % 64 == 0),
   need ((usedOuts ps).all fun i => (ent (8 + i)).rnd != 3),
   need ((List.range 4).all fun i => decide ((ps.filter fun p => p.writes i).length ≤ 1) && ps.all fun p => decide (p.stCount i c.nt ≤ 8 * c.nt))] ++
  (if ins.all ready then
    (ins.flatMap fun i => (List.range c.nt).map fun t =>
      if s.tileOk (tile i t) false && (s.hdr (tile i t)).fmt == (ent i).fmt then 0 else 3) ++
    (match ins with
      | [] => []
      | _ => (List.range c.nt).map fun t =>
          let h0 := s.hdr (tile 0 t)
          let ext := if ins.contains 0 then (h0.rows, h0.cols) else
            let h := s.hdr (tile ((ins[0]?).getD 0) t)
            (h.rows, h.cols)
          need (ins.all fun i => ((s.hdr (tile i t)).rows, (s.hdr (tile i t)).cols) == ext))
  else [])

/-- The codes of a VECTOR descriptor (R202, R652, R653). -/
def vecCodes (s : State) (w : Work) : List Nat :=
  let c := w.vec
  let d := w.die
  let n := s.part.dies
  let o := c.image
  let r := s.obj d o
  [need (w.zeroFrom 33 && w.f 32 1 / 4 == 0 && decide (o < 0xFFFFF) && c.nt != 0 && c.unit != 3 && c.params % 64 == 0 && c.streams % 64 == 0),
   (s.chooseVe w c.unit).1] ++
  (if 0xFFFFF ≤ o then []
   else if !r.valid then [1]
   else if r.tier = 2 && !s.volReady d then [if r.part == w.part then 0 else 4, 7]
   else
    let h := s.imageBytes d r 16
    let len := 16 + 8 * imageCount h
    let b := s.imageBytes d r len
    [if r.part == w.part then 0 else 4, need (decide (len ≤ r.len)),
     need (leAt h 0 1 / 4 == 0 && leAt h 9 7 == 0 && decide (imageCount h ≤ 256) && (imageWords b).all vwordOk)] ++
    (if mappedRange n c.streams 192 && decide (len ≤ r.len) then s.streamCodes c (imagePasses b) else []))

/-- The extent of input tile t of the lowest-numbered stream that a program reads; 128 × 128 when it reads none. -/
def State.vextent (s : State) (x : Ve) (ins : List Nat) (t : Nat) : Nat × Nat :=
  match ins with
  | [] => (128, 128)
  | i :: _ =>
    match x.ins[i]? with
    | some e => let h := s.hdr (e.base + t * tileStride e.fmt); (h.rows, h.cols)
    | none => (128, 128)

/-- Whether lane l of strip j lies in an extent. -/
def inExtent (ext : Nat × Nat) (j l : Nat) : Bool :=
  let i := 2048 * j + l
  decide (i / 128 < ext.1) && decide (i % 128 < ext.2)

/-- Writes the tiles of an output stream that have at least one stored strip, at the end of the pass that wrote them: +0 in
strips that no ST wrote (R198), converted with the entry's RND and SAT (R200). `ts` is the TENSOR_SCALE (R199). -/
def State.vflush (s : State) (w : Work) (ins : List Nat) (x : Ve) (i ts : Nat) : State × Ve :=
  match x.outs[i]? with
  | none => (s, x)
  | some e =>
    (List.range x.nt).foldl (fun (a : State × Ve) t =>
      let (s, x) := a
      let strip := fun (j : Nat) => kvFind x.buf (2 ^ 32 * i + 8 * t + j)
      if (List.range 8).all fun j => (strip j).isNone then (s, x)
      else
        let (rows, cols) := s.vextent x ins t
        let val := fun (r c : Nat) =>
          let k := 128 * r + c
          fp32.decode ((((strip (k / 2048)).getD [])[k % 2048]?).getD 0)
        let dst : Dest := ⟨e.fmt, ts, none, (rndOf e.rnd).getD .nearest, e.sat, bit w.ftz 3, w.srKey, w.vec.step⟩
        let tile : NewTile := ⟨e.fmt, rows, cols, ts, none, e.obj, (e.tile0 + t) % 2 ^ 32, x.bad⟩
        let y := convertTile dst tile false false val
        (s.putTile (e.base + t * tileStride e.fmt) tile y, x.raise y.flags)) (s, x)

/-- Cycles of a run of one list of instructions: arithmetic, read port, write port and transcendentals (R204). -/
def vcycles (x : Ve) (l : List (Nat × VFields)) : Nat × Nat × Nat × Nat :=
  let four := fun (i : Nat × VFields) => decide (0x20 ≤ i.1) && decide (i.1 ≤ 0x22)
  let bytes := fun (e : Option VStream) => match e with | some e => payloadBytes e.fmt / 8 | none => 0
  let port := fun (n per : Nat) => Nat.max 1 ((n + per - 1) / per)
  (sumNat (l.map fun i => if four i then 4 else 1),
   sumNat (l.map fun i => if i.1 = 1 then port (bytes x.ins[i.2.a]?) 2048 else 0),
   sumNat (l.map fun i => if i.1 = 2 then port (bytes x.outs[i.2.d]?) 1024 else 0),
   (l.filter four).length)

/-- Counts a list of instructions run `n` times on an engine (Table 07-10). -/
def State.vcount (s : State) (d v : Nat) (x : Ve) (l : List (Nat × VFields)) (n : Nat) : State :=
  let (ar, rd, wr, tr) := vcycles x l
  let k := Reg.veCntLo v
  let excess := Nat.max ar (Nat.max rd wr) - ar
  let s := (s.bump d (k 0) (l.length * n)).bump d (k 4) (tr * n)
  if wr ≤ rd then s.bump d (k 1) (excess * n) else s.bump d (k 2) (excess * n)

/-- TENSOR_SCALE of an output stream at the start of the pass that writes it (R199, R168). -/
def Ve.outScale (x : Ve) (i : Nat) : Nat :=
  match x.outs[i]? with
  | some e => if [3, 4, 11, 12].contains e.fmt then x.s e.sreg else 0x3F800000
  | none => 0x3F800000

/-- Runs the passes of a program: state, engine and status. A pass that finds an output scale that is not positive, normal
and finite ends the descriptor there with the parameter-error status (R202). -/
def State.vpasses (w : Work) (ins : List Nat) : List VPass → State × Ve × Nat → State × Ve × Nat
  | [], a => a
  | p :: ps, (s, x, st) =>
    let outs := (List.range 4).filter p.writes
    let scales := outs.map fun i => (i, x.outScale i)
    if st ≠ 0 then (s, x, st)
    else if scales.any fun y => !goodScale y.2 then (s, x, 1)
    else
      let x := { x with lds := [], sts := [], buf := [] }
      let x := p.pro.foldl (fun x i => s.vrun x allLanes i) x
      let x := (List.range (8 * x.nt)).foldl (fun x b =>
        let ext := s.vextent x ins (b / 8)
        p.body.foldl (fun x i => s.vrun x (inExtent ext (b % 8)) i) x) x
      let s := (s.vcount x.d x.v x p.pro 1).vcount x.d x.v x p.body (8 * x.nt)
      let s := s.bump x.d (Reg.veCntLo x.v 3) (8 * x.nt)
      let (s, x) := scales.foldl (fun a y => a.1.vflush w ins a.2 y.1 y.2) (s, x)
      State.vpasses w ins ps (s, x, 0)

/-- Runs a VECTOR descriptor that has started: the engine loads the image into its program store, measures it (R572), loads S0 to S31 and clears
V0 to V31, and runs the passes. -/
def State.vecBody (s : State) (w : Work) : State :=
  let c := w.vec
  let d := w.die
  let (_, v) := s.chooseVe w c.unit
  let r := s.obj d c.image
  let b := s.imageBytes d r (16 + 8 * imageCount (s.imageBytes d r 16))
  let prog := imageWords b
  let ps := storePasses (imageLens b) prog
  let s := s.modWork w.id fun x => { x with engine := some (4 + v) }
  let s := s.measProgram w.part d c.image b
  let sregs := (List.range 32).foldl (fun l i => kvSet 0 l i (s.memN (c.params + 4 * i) 4)) []
  let ents := fun (lo n : Nat) => (List.range n).map fun i => s.vstream (c.streams + 16 * (lo + i))
  let taint := s.tagged c.params 128 || s.tagged c.streams 192 || (r.tier != 2 && s.tagged r.base b.length)
  let x : Ve := ⟨d, v, prog, sregs, [], ents 0 8, ents 8 4, c.nt, [], [], [], w.ftz, 0, taint, false⟩
  let (s, x, st) := State.vpasses w (usedIns ps) ps (s, x, 0)
  (s.setVe x).endWork w.id fun q =>
    { q with status := st, flags := Nat.lor q.flags x.flags, poison := q.poison || x.bad, checksum := q.checksum || x.crc }

/-- VECTOR (R198). -/
def execVector (id : Nat) (s : State) : Res :=
  live s (s.begin id (fun w => w.kind == 0x13) vecRanges vecCodes State.vecBody)

end Sys2Proof.Machine
end

