-- ==== Sys2Proof/Machine/Batch.lean ====
section
/-! DEFINITION. Batches of expert work (R153, R154, R158 to R161): the descriptors that a token router builds for a slot of an
EXCHANGE, and their re-issue after a fence. -/

namespace Sys2Proof.Machine

/-- A slot-table entry (Table 05-10). -/
structure SlotEnt where
  die   : Nat
  valid : Bool
  ifmt  : Nat
  n     : Nat
  vcols : Nat
  tmpl  : Nat
  out   : Nat
deriving DecidableEq, Repr

/-- Entry `sl` of an EXCHANGE's slot table. -/
def State.slotEnt (s : State) (w : Work) (sl : Nat) : SlotEnt :=
  let b := s.bytes (w.cSlots + 32 * sl) 32
  ⟨leAt b 0 1 % 8, bit (leAt b 0 1) 7, leAt b 1 1 % 16, leAt b 2 2 % 1024, leAt b 4 2, leAt b 8 6, leAt b 16 6⟩

/-- The X field that stands for the slot's first input row. -/
def subInput : Nat := 0x6000000000

/-- The O field that stands for the slot's output rows. -/
def subOutput : Nat := 0x6000000040

/-- A copy of a template descriptor for `m` rows from matrix row `first` of the EXCHANGE `w` (R154; an M that its field cannot
hold leaves it 0, which the descriptor's own check refuses), and the output matrix whose
address was put in, if any. -/
def batchCopy (w : Work) (e : SlotEnt) (m first : Nat) (b : List Byte) : List Byte × List (Nat × Nat × Nat × Nat) :=
  let k := leAt b 0 1
  if k = 0x10 then
    let v := leAt b 26 8
    let v := if v % 2 ^ 11 = 0 && m < 2 ^ 11 then v + m else v
    let n := fld v 31 20
    let ofmt := fld v 54 4
    let x := w.cDst + 16384 + first / 128 * w.cCols * tileStride e.ifmt
    let o := e.out + first / 128 * tilesOf n * tileStride ofmt
    let isOut := leAt b 20 6 == subOutput
    let b := spliceAt b 26 (natLe 8 v)
    let b := if leAt b 8 6 = subInput then spliceAt b 8 (natLe 6 x) else b
    (if isOut then spliceAt b 20 (natLe 6 o) else b, if isOut then [(o, m, n, ofmt)] else [])
  else if k = 0x13 then (if leAt b 24 4 = 0 then spliceAt b 24 (natLe 4 (tilesOf m * e.vcols)) else b, [])
  else (b, [])

/-- Whether every row of a slot has been written at the home (R154). -/
def Coll.slotDone (c : Coll) (sl : Nat) : Bool :=
  (List.range (tilesOf (c.total sl))).all fun i => c.wrote.contains (c.first sl / 128 + i)

/-- The descriptors of a batch. -/
def Batch.ids (b : Batch) : List Nat := b.works.map fun w => w.id

/-- Descriptors in a die's expert work queue that have not been released (R158, R159). -/
def State.workQueue (s : State) (d : Nat) : Nat := sumNat ((s.batches.filter fun b => b.d == d).map fun b => b.works.length)

/-- One descriptor of a batch as it stands in the expert work queue. With the router off it ends unavailable; one with a word
that fails its parity (`bad`) ends with the poison status (R157, R162). -/
def batchWork (x : Work) (id num die : Nat) (off bad : Bool) (b : List Byte) : Work :=
  let st := if off then 7 else if bad then 8 else 0
  let res : Rec := { Rec.empty with tag := leAt b 4 4, idx := x.idx, kind := leAt b 0 1, status := st, poison := bad }
  { x with id := id, on := die, bytes := b, batch := some num, pre := need (headerOk b && grpOk b), started := st != 0, engine := none, ended := st != 0, res := res, held := [], again := false, drawn := false, stages := [], waits := false }

/-- A matrix of +0 rows with POISON set (R161). -/
def State.poisonRows (s : State) (x : Nat × Nat × Nat × Nat) : State :=
  let (a, m, n, f) := x
  (List.range (tilesOf m * tilesOf n)).foldl (fun s q =>
    let (i, j) := (q / tilesOf n, q % tilesOf n)
    s.writeTile (a + q * tileStride f) ⟨f, Nat.min 128 (m - 128 * i), Nat.min 128 (n - 128 * j), f32one, none, 0xFFFFFFFF, q, true⟩ (fun _ => 0) (fun _ => 0) none) s

/-- What a descriptor that a poisoned word stops leaves where it would have written: tiles with POISON, or bytes with poison
tags, so that R27 carries the poison to the batch's outputs (R157). -/
def State.poisonOutput (s : State) (w : Work) : State :=
  let c := w.mtx
  if w.kind = 0x10 then s.poisonRows (c.o, c.m, c.n, c.ofmt)
  else
    let rs := if w.kind = 0x11 then cvtRanges s w else if w.kind = 0x13 then vecRanges s w else copyRanges s w
    (rs.filter fun r => r.wr && mappedRange s.part.dies r.a r.len).foldl (fun s r => s.write r.a (s.bytes r.a r.len) true) s

/-- Puts a batch, or a batch that is rewound to its mark, in the hands of the units: its descriptors wait for their starts, and
the words that fail their parity are counted and stop theirs (R157, R159, R160). -/
def State.issueBatch (s : State) (b : Batch) (ws : List Work) : State :=
  let s := { s with seq.works := s.seq.works ++ ws }
  let s := s.countPoisoned b.d (badWords b.parity (8 * ws.length))
  (ws.filter fun w => w.res.status == 8).foldl State.poisonOutput s

/-- Hands slot `sl` of EXCHANGE `id` to the router of its die: the router marks its queue and copies the template (R154, R159).
It waits for the slot's rows and for room in the queue; a batch of no rows is skipped (R153). `parity` numbers the words of the
batch that will fail their parity. -/
def State.buildBatch (s : State) (id sl : Nat) (parity : List Nat) : State :=
  s.onColl id fun s w c _ =>
    let e := s.slotEnt w sl
    let m := c.total sl
    if w.cop ≠ 5 || w.cSlots = 0 || 64 ≤ sl || !e.valid || c.built.contains sl || !c.open_ || m = 0 || !c.slotDone sl ||
        512 < s.workQueue e.die + e.n then s
    else
      let num := s.seq.nextId
      let copies := (List.range e.n).map fun i => batchCopy w e m (c.first sl) (s.bytes (e.tmpl + 64 * i) 64)
      let off := !s.rbit e.die Reg.tokCtrl 0
      let ws := copies.zipIdx.map fun x => batchWork w (num + 1 + x.2) num e.die off (parity.any fun k => k / 8 == x.2) x.1.1
      let b : Batch := ⟨num, e.die, w.part, ws, parity, copies.flatMap Prod.snd⟩
      let s := { s with batches := s.batches ++ [b], seq.nextId := num + 1 + e.n }
      let s := (s.issueBatch b ws)
      let s := (ws.filter fun w => !w.ended).foldl (fun s x => s.joinGroup x.part x.bytes) s
      (s.modColl id fun c => { c with built := c.built ++ [sl] }).pumpDie c.d

/-- BATCH_BUILD (R154). -/
def execBatchBuild (id : Nat) (x : SlotBuild) (s : State) : Res := live s (s.buildBatch id x.slot x.parity)

/-- A descriptor with its UNIT field naming engine `u` (RAS_UNIT number). -/
def withUnit (b : List Byte) (u : Nat) : List Byte :=
  if leAt b 0 1 = 0x10 then spliceAt b 26 (natLe 8 (setFld (leAt b 26 8) 58 3 (u + 1)))
  else spliceAt b 32 (natLe 1 (setFld (leAt b 32 1) 0 2 (u - 3)))

/-- The engine that a descriptor is bound to or names, as a RAS_UNIT number. -/
def Work.unitNamed (w : Work) : Option Nat :=
  match w.engine with
  | some u => some u
  | none =>
    let u := if w.kind = 0x10 then fld (w.f 26 8) 58 3 else if w.kind = 0x13 then w.f 32 1 % 4 else 0
    if u = 0 then none else some (if w.kind = 0x10 then u - 1 else u + 3)

/-- The siblings of an engine that can take its work: enabled, unfenced, in the partition (R160, R450). -/
def State.siblings (s : State) (d p u : Nat) : List Nat :=
  if u < 4 then [0, 1, 2, 3].filter fun e => e != u && s.meOwned d p e && s.meOn d e
  else [4, 5].filter fun e => e != u && s.veOwned d p (e - 4) && s.veOn d (e - 4)

/-- Takes the passes and drain rows of some descriptors from a matrix engine. -/
def Eng.without (x : Eng) (ids : List Nat) : Eng :=
  { x with queue := x.queue.filter (fun p => !ids.contains p.id), issue := x.issue.filter (fun p => !ids.contains p.id), fifo := x.fifo.filter fun r => !ids.contains r.id }

/-- A descriptor of a batch as it waits again after a rewind to the mark, bound to engine `v` if it was bound to `u`, or named it.
One that has its record already runs again without a second one. -/
def State.rewound (s : State) (u v : Nat) (w : Work) : Work :=
  match s.work w.id with
  | none => { w with again := true, bytes := if w.unitNamed == some u then withUnit w.bytes v else w.bytes }
  | some x => { w with again := x.again, ftz := x.ftz, srKey := x.srKey, det := x.det, drawn := x.drawn, bytes := if x.unitNamed == some u then withUnit w.bytes v else w.bytes }

/-- Re-issues one batch bound to the fenced engine `u`: the router rewinds it to its mark, and every descriptor of it runs again
from the first on the sibling with the fewest queued descriptors (R160). With no sibling they end unavailable and the output
rows are +0 with POISON (R161). -/
def State.replayBatch (s : State) (b : Batch) (u : Nat) : State :=
  let works := s.seq.works.filter fun w => b.ids.contains w.id
  if !(works.any fun w => w.unitNamed == some u) then s
  else
    let s := s.bump b.d (Reg.tokCntLo 6) 1
    let s := { s with engs := s.engs.map (fun (x : Eng) => x.without b.ids) }
    match minBy (s.queued b.d) (s.siblings b.d b.p u) with
    | some v =>
      let s := s.bump b.d (Reg.tokCntLo 7) b.works.length
      let ws := b.works.map (s.rewound u v)
      let out := fun (id : Nat) => b.ids.contains id
      let s := { s with seq.works := s.seq.works.filter (fun w => !out w.id), folds := s.folds.filter fun f => !out f.id }
      s.issueBatch b ws
    | none => b.outs.foldl State.poisonRows ((works.map fun w => w.id).foldl (fun s id => s.endStatus id 7) s)

/-- BATCH_REPLAY: every incomplete batch of the die that is bound to a fenced engine (R160). -/
def execBatchReplay (d unit : Nat) (s : State) : Res :=
  onDie s d (
    if 5 < unit || !s.unitOut d unit then s
    else (s.batches.filter fun b => b.d == d).foldl (fun s b => s.replayBatch b unit) s)

end Sys2Proof.Machine
end

