-- ==== Sys2Proof/Machine/Transport.lean ====
section
/-! DEFINITION. Remote memory access (chapter 10): contexts and their cache, regions and keys, messages and packets on both
sides, reliability and ordering, and the descriptors CONN, REGION, WRITE, WRITE_INLINE, SEND, READ and POST_BUF. -/

namespace Sys2Proof.Machine

/-! ## Contexts (R299 to R306) -/

/-- Offset of a transport counter. -/
def xtCnt (i : Nat) : Nat := Reg.xtCntLo i

/-- XT_CTRL.ENABLE of a die. -/
def State.xtOn (s : State) (d : Nat) : Bool := s.rbit d Reg.xtCtrl 0

/-- XT_CTX_COUNT as a die holds it. -/
def State.ctxCount (s : State) (d : Nat) : Nat := s.rf d Reg.xtCtxCount 0 21

/-- The address of a context in the table. -/
def State.ctxAddr (s : State) (d c : Nat) : Nat := s.regAddr d Reg.xtCtxBaseLo + 256 * c

/-- Whether a context lies in HBM or in host memory (R299, R651). -/
def State.ctxIn (s : State) (d c : Nat) : Bool := inHbm s.part.dies (s.ctxAddr d c) 256 || inHost (s.ctxAddr d c) 256

/-- Whether a connection is cached anywhere. -/
def State.cached (s : State) (c : Nat) : Bool := s.xt.ctxs.any fun x => x.c == c

/-- A connection's context: the cached copy, or the table entry; zeros where the entry lies outside the range allowed. -/
def State.ctx (s : State) (d c : Nat) : List Byte :=
  match s.xt.ctxs.find? fun x => x.c == c with
  | some x => x.bytes
  | none => if s.ctxIn d c then s.bytes (s.ctxAddr d c) 256 else List.replicate 256 0

/-- Replaces a context where it is held. -/
def State.setCtx (s : State) (d c : Nat) (b : List Byte) : State :=
  if s.cached c then { s with xt.ctxs := mapIf (fun x => x.c == c) (fun x => { x with bytes := b }) s.xt.ctxs }
  else s.write (s.ctxAddr d c) b

/-- Sets some bytes of a context. -/
def State.ctxPut (s : State) (d c off : Nat) (v : List Byte) : State := s.setCtx d c (spliceAt (s.ctx d c) off v)

/-- STATE of a context: 0 free, 1 ready, 2 error. -/
def ctxState (b : List Byte) : Nat := leAt b 3 1 % 8
/-- MODE: strict. -/
def ctxStrict (b : List Byte) : Bool := bit (leAt b 3 1) 3
/-- PORT. -/
def ctxPort (b : List Byte) : Nat := leAt b 4 1 % 8
/-- PRIO. -/
def ctxPrio (b : List Byte) : Nat := leAt b 4 1 / 8 % 8
/-- PARTITION. -/
def ctxPart (b : List Byte) : Nat := leAt b 5 1 % 16
/-- MTU in bytes. -/
def ctxMtu (b : List Byte) : Nat := 1024 * 2 ^ (leAt b 5 1 / 16 % 4)
/-- RECV_RING. -/
def ctxRing (b : List Byte) : Nat := leAt b 35 1
/-- NEXT_PSN. -/
def ctxNext (b : List Byte) : Nat := leAt b 64 3
/-- EXP_PSN. -/
def ctxExp (b : List Byte) : Nat := leAt b 68 3
/-- SEND_MSN. -/
def ctxSendMsn (b : List Byte) : Nat := leAt b 72 3
/-- RECV_MSN. -/
def ctxRecvMsn (b : List Byte) : Nat := leAt b 76 3

/-- Whether the first 64 bytes of a context meet Table 10-3 on a part with `n` dies and `r` rings, STATE aside. -/
def ctxOk (n r : Nat) (b : List Byte) : Bool :=
  leAt b 3 1 / 64 == 0 && decide (ctxState b ≤ 2) && !(bit (leAt b 3 1) 5 && ctxStrict b) &&
    decide (ctxPort b < n) && ctxPrio b != 7 && leAt b 4 1 / 64 == 0 && leAt b 5 1 / 64 == 0 &&
    (bit (leAt b 3 1) 4 || leAt b 8 12 == 0) && leAt b 30 2 / 8192 == 0 && leAt b 32 1 % 16 != 0 &&
    decide (leAt b 33 1 ≤ 20) && decide (1 ≤ leAt b 34 1) && decide (leAt b 34 1 ≤ 16) && decide (ctxRing b < r) &&
    leAt b 36 28 == 0

/-- A connection with nothing running, from its starting PSN. -/
def Conn.idle (c psn : Nat) : Conn := ⟨c, [], [], psn, 0, 0, none, [], false, false⟩

/-- A connection's state beyond its context. -/
def State.conn (s : State) (c : Nat) : Conn := (s.xt.conns.find? fun x => x.c == c).getD (Conn.idle c 0)

/-- Changes a connection's state beyond its context. -/
def State.modConn (s : State) (c : Nat) (f : Conn → Conn) : State :=
  if s.xt.conns.any fun x => x.c == c then { s with xt.conns := mapIf (fun x => x.c == c) f s.xt.conns }
  else { s with xt.conns := s.xt.conns ++ [f (Conn.idle c 0)] }

/-- CONN of a transfer descriptor. -/
def Work.xConn (w : Work) : Nat := w.f 8 3

/-- Whether a descriptor is a transfer descriptor of a connection. -/
def Work.transfers (w : Work) (c : Nat) : Bool := decide (0x2A ≤ w.kind) && decide (w.kind ≤ 0x2D) && w.xConn == c

/-- Whether a cached context is pinned: a transfer descriptor accepted and not completed, with its unacknowledged packets, or a held
fenced message (R305). -/
def State.pinned (s : State) (c : Nat) : Bool :=
  (s.seq.works.any fun w => w.transfers c) || !(s.conn c).msgs.isEmpty || (s.conn c).ins.any fun m => !m.held.isEmpty

/-- The contexts that a port caches. -/
def State.ctxsOf (s : State) (d : Nat) : List Ctx := s.xt.ctxs.filter fun x => x.d == d

/-- XT_STATUS.CACHE_FULL: all 4,096 cached contexts of a port are pinned (R305). -/
def State.cacheFull (s : State) (d : Nat) : Bool :=
  decide (4096 ≤ (s.ctxsOf d).length) && (s.ctxsOf d).all fun x => s.pinned x.c

/-- Writes a cached context back and drops it from the cache. -/
def State.dropCtx (s : State) (c : Nat) : State :=
  match s.xt.ctxs.find? fun x => x.c == c with
  | some x =>
    let s := s.write (s.ctxAddr x.d c) x.bytes
    { s with xt.ctxs := s.xt.ctxs.filter fun y => y.c != c }
  | none => s

/-- CONTEXT_EVICT: makes room in a full cache by writing back the least recently used unpinned context (R305). -/
def State.evict (s : State) (d : Nat) : State :=
  if (s.ctxsOf d).length < 4096 then s
  else
    match (s.ctxsOf d).find? fun x => !s.pinned x.c with
    | some x => (s.dropCtx x.c).bump d (xtCnt 7) 1
    | none => s

/-- Starts the fetch of a context; a second miss on a connection causes no second fetch (R306). -/
def State.wantCtx (s : State) (d c : Nat) : State := { s with xt.fetching := addNew (d, c) s.xt.fetching }

/-- Marks a context as used last. -/
def State.touchCtx (s : State) (c : Nat) : State :=
  let hit := s.xt.ctxs.filter fun x => x.c == c
  { s with xt.ctxs := (s.xt.ctxs.filter fun x => x.c != c) ++ hit }

/-! ## Regions (R307 to R310) -/

/-- A region entry (Table 10-4). -/
structure Region where
  base   : Nat
  len    : Nat
  rd     : Bool
  wr     : Bool
  bell   : Bool
  peer   : Bool
  valid  : Bool
  gen    : Nat
  part   : Nat
deriving DecidableEq, Repr

/-- A region entry from its 32 bytes. -/
def Region.ofBytes (b : List Byte) : Region :=
  let f := leAt b 16 1
  ⟨leAt b 0 6, leAt b 8 6, bit f 0, bit f 1, bit f 2, bit f 3, bit f 7, leAt b 17 1, leAt b 18 1 % 16⟩

/-- The 32 bytes of a region entry. -/
def Region.bytes (r : Region) : List Byte :=
  natLe 6 r.base ++ natLe 2 0 ++ natLe 6 r.len ++ natLe 2 0 ++
    natLe 1 (b2n r.rd + 2 * b2n r.wr + 4 * b2n r.bell + 8 * b2n r.peer + 128 * b2n r.valid) ++ natLe 1 r.gen ++
    natLe 1 r.part ++ natLe 13 0

/-- The address of a region entry. -/
def State.regnAddr (s : State) (d i : Nat) : Nat := s.regAddr d Reg.xtRegBaseLo + 32 * i

/-- Whether a region entry lies in the HBM that the part has (R651). -/
def State.regnIn (s : State) (d i : Nat) : Bool := inHbm s.part.dies (s.regnAddr d i) 32

/-- A region entry; not in use where it lies outside the HBM. -/
def State.region (s : State) (d i : Nat) : Region :=
  if s.regnIn d i then Region.ofBytes (s.bytes (s.regnAddr d i) 32) else Region.ofBytes []

/-- XT_REG_COUNT as a die holds it. -/
def State.regnCount (s : State) (d : Nat) : Nat := s.rf d Reg.xtRegCount 0 17

/-- The first failing check of Table 10-5 on an access of `len` bytes at `roff`; 0 when all pass. -/
def State.keyCheck (s : State) (d part key roff len : Nat) (wr : Bool) : Nat :=
  let i := key / 256
  let r := s.region d i
  if !(decide (i < s.regnCount d) && decide (i < 65536) && r.valid) then 0x10
  else if r.gen ≠ key % 256 then 0x11
  else if r.part ≠ part then 0x12
  else if !(if wr then r.wr else r.rd && !r.bell) then 0x13
  else if (if r.bell then roff = 0 && len = 8 else roff + len ≤ r.len) then 0
  else 0x14

/-! ## Sending packets -/

/-- The IP, UDP and tag fields of a connection's packets (R293). -/
def State.ipHead (s : State) (b : List Byte) (msn : Nat) : IpHead :=
  let d := ctxPort b
  let v6 := bit (leAt b 3 1) 4
  let src := if v6 then sumNat ((List.range 4).map fun i => 2 ^ (96 - 32 * i) * s.regN d (Reg.xtIp6 i)) else s.regN d Reg.xtIp4
  let dst := if v6 then beAt b 8 16 else beAt b 20 4
  let spray := bit (leAt b 3 1) 5 && !ctxStrict b
  let vlan := leAt b 30 2
  ⟨v6, src, dst, 8 * ctxPrio b, leAt b 6 2 + (if spray then msn % 16 else 0), s.rf d Reg.xtUdpPort 0 16,
    if bit vlan 12 then some (vlan % 4096) else none⟩

/-- Sends a packet of a connection on its port, while the transport there is in service and sends the connection's IP version
(Table 10-8). -/
def State.sendPacket (s : State) (b : List Byte) (k : Packet) (front : Bool) : State :=
  let d := ctxPort b
  let mac := if s.part.torusPorts ≤ d then beAt b 24 6 else 0
  if s.xtOn d && s.rbit d Reg.xtCtrl (if bit (leAt b 3 1) 4 then 2 else 1) then
    (s.bump d (xtCnt 0) 1).queueTx d ⟨ctxPrio b, mac, front, none, .packet k (s.ipHead b k.msn)⟩
  else s

/-- A packet without payload fields. -/
def Packet.plain (op : Nat) (b : List Byte) (psn msn : Nat) : Packet :=
  ⟨op, false, false, false, false, false, false, leAt b 0 3, ctxPrio b, psn, msn, 0, 0, 0, 0, 0, 0, 0, []⟩

/-- Sends an acknowledgement: PSN carries EXP_PSN, and the AETH the last completed MSN (R296, R319). -/
def State.sendAck (s : State) (d c : Nat) : State :=
  let b := s.ctx d c
  let s := s.modConn c fun x => { x with owed := false }
  s.sendPacket b { Packet.plain 4 b (ctxExp b) (modSub 24 (ctxRecvMsn b) 1) with aMsn := modSub 24 (ctxRecvMsn b) 1 } false

/-- Sends a NAK with a syndrome. MSN names the message that it answers. -/
def State.sendNak (s : State) (d c synd msn : Nat) : State :=
  let b := s.ctx d c
  let s := s.bump (ctxPort b) (xtCnt 3) 1
  s.sendPacket b { Packet.plain 5 b (ctxExp b) msn with synd := synd, aMsn := modSub 24 (ctxRecvMsn b) 1 } false

/-- Source address, length and inline bytes of a transfer descriptor (Table 13-3). -/
def Work.xSrc (w : Work) : Nat × Nat × Option (List Byte) :=
  match w.kind with
  | 0x2B => (0, w.f 22 1 % 64, some ((w.bytes.drop 32).take (w.f 22 1 % 64)))
  | 0x2C => (w.addr 12, w.f 18 4, none)
  | _ => (w.addr 22, w.f 28 4, none)

/-- IMM of a write. -/
def Work.xImm (w : Work) : W32 := BitVec.ofNat 32 (if w.kind = 0x2B then w.f 24 4 else w.f 32 4)

/-- Packet `i` of a message, read from its source now (R295 to R297, R317, R319). -/
def State.packetOf (s : State) (b : List Byte) (m : XMsg) (w : Work) (i : Nat) : Packet :=
  let mtu := ctxMtu b
  let (src, len, inl) := w.xSrc
  let base := Packet.plain m.op b ((m.psn + i) % 2 ^ 24) m.msn
  if m.op = 2 then
    { base with first := true, last := true, ackReq := true, fence := w.bit 11 0, key := w.f 12 4, roff := w.f 16 6, len := len }
  else
    let off := i * mtu
    let n := Nat.min mtu (len - off)
    let last := decide (i + 1 = m.n)
    let pay := match inl with | some d => (d.drop off).take n | none => s.bytes (src + off) n
    let p := { base with first := i == 0, last := last, ackReq := last || (m.psn + i) % 64 == 63, moff := off, payload := pay, poison := inl.isNone && s.tagged (src + off) n }
    if m.op = 1 then
      let notify := w.bit 11 1
      { p with fence := w.bit 11 0, notify := notify, key := w.f 12 4, roff := w.f 16 6 + off, len := len, imm := if notify && last then w.xImm else 0 }
    else p

/-- How many packets a message sends: one request for a read. -/
def XMsg.packets (m : XMsg) : Nat := if m.op = 2 then 1 else m.n

/-- Reads outstanding: requests sent whose responses are not all placed. -/
def Conn.reads (x : Conn) : Nat := (x.msgs.filter fun m => m.op == 2 && decide (0 < m.sent)).length

/-- The next packet that a connection may send for the first time: its message's index, in MSN order, while its PSNs lie among the
1,024 that may be unacknowledged, and a read has a request to spare (R320, RD_MAX). A read of more PSNs than that leaves while
nothing else is unacknowledged (assumption 26). -/
def Conn.nextSend (x : Conn) (rdMax : Nat) : Option XMsg :=
  match x.msgs.find? fun m => decide (m.sent < m.packets) with
  | some m =>
    let last := if m.op = 2 then m.psn + m.n - 1 else m.psn + m.sent
    let fits := decide (modSub 24 last x.acked < 1024) && decide (m.n ≤ 1024 ∨ m.op ≠ 2) || (m.op == 2 && m.psn == x.acked)
    if fits && (m.op != 2 || decide (x.reads < rdMax)) then some m else none
  | none => none

/-- Whether packets that a connection sent are held unacknowledged (R320). -/
def Conn.unacked (x : Conn) : Bool :=
  x.msgs.any fun m =>
    let k := modSub 24 (m.psn + (if m.op = 2 then m.n else m.sent)) x.acked
    decide (0 < m.sent) && decide (0 < k) && decide (k < 2 ^ 23)

/-- Sends what the window allows, at most `fuel` packets. -/
def State.pump (d c : Nat) : Nat → State → State
  | 0, s => s
  | fuel + 1, s =>
    let b := s.ctx d c
    if ctxState b ≠ 1 then s
    else
      match (s.conn c).nextSend (leAt b 34 1) with
      | none => s
      | some m =>
        match s.work m.id with
        | none => s
        | some w =>
          let s := s.sendPacket b (s.packetOf b m w m.sent) false
          let s := s.modConn c fun x => { x with msgs := mapIf (fun y => y.id == m.id) (fun y => { y with sent := y.sent + 1 }) x.msgs }
          State.pump d c fuel s

/-- Sends again the packets of PSNs in a test that have been sent (R320): ahead of new packets. -/
def State.resend (s : State) (d c : Nat) (pick : Nat → Bool) : State :=
  let b := s.ctx d c
  (s.conn c).msgs.foldl (fun s m =>
    match s.work m.id with
    | none => s
    | some w =>
      (List.range m.sent).foldl (fun s i =>
        let psn := (m.psn + i) % 2 ^ 24
        if pick psn then (s.bump (ctxPort b) (xtCnt 2) 1).sendPacket b (s.packetOf b m w i) true else s) s) s

/-! ## Ends of descriptors and errors (R302, R311, R316, R320) -/

/-- Whether a sent message is done: acknowledged past its last PSN, or a read with every response placed (R316). -/
def Conn.msgDone (x : Conn) (m : XMsg) : Bool :=
  if m.op = 2 then decide (m.n ≤ m.got.length)
  else m.sent == m.n && decide (modSub 24 x.acked m.psn < 2 ^ 23) && decide (m.n ≤ modSub 24 x.acked m.psn)

/-- Ends the leading descriptors of a connection whose messages are done, in MSN order. -/
def State.settleMsgs (c : Nat) : Nat → State → State
  | 0, s => s
  | fuel + 1, s =>
    match (s.conn c).msgs with
    | [] => s
    | m :: rest =>
      if (s.conn c).msgDone m then
        let s := s.modConn c fun x => { x with msgs := rest, done := x.done ++ [m.id] }
        State.settleMsgs c fuel (s.endWork m.id fun r => r)
      else s

/-- Ends every descriptor of a connection: the one of MSN `msn` with a status and detail, the others as flushed (R302, R311, R328). What
the connection has received stays. -/
def State.flushMsgs (s : State) (c : Nat) (msn : Option Nat) (status detail : Nat) : State :=
  let ms := (s.conn c).msgs
  let s := ms.foldl (fun s m =>
    if msn = some m.msn then s.endWork m.id fun r => { r with status := status, detail0 := detail } else s.endStatus m.id 0x0B) s
  s.modConn c fun x => { x with msgs := [], done := x.done ++ ms.map (fun m => m.id), wait := none }

/-- Ends every descriptor of a connection, and drops what it was receiving. -/
def State.flushConn (s : State) (c : Nat) (msn : Option Nat) (status detail : Nat) : State :=
  (s.flushMsgs c msn status detail).modConn c fun x => { x with ins := [], owed := false, nak := false }

/-- Puts a connection in error with a syndrome and the PSN of the event (R311). -/
def State.connError (s : State) (d c synd psn : Nat) (msn : Option Nat) (status : Nat) : State :=
  let b := s.ctx d c
  let s := s.ctxPut d c 3 (natLe 1 (leAt b 3 1 / 8 * 8 + 2))
  let s := s.ctxPut d c 80 (natLe 1 synd ++ natLe 3 psn)
  s.flushConn c msn status synd

/-- Counts the syndrome of a failed check (Table 10-8). -/
def State.countSynd (s : State) (d synd : Nat) : State :=
  match synd with
  | 0x10 => s.bump d (xtCnt 8) 1
  | 0x11 => s.bump d (xtCnt 8) 1
  | 0x12 => s.bump d (xtCnt 9) 1
  | 0x13 => s.bump d (xtCnt 9) 1
  | 0x14 => s.bump d (xtCnt 0xA) 1
  | _ => s

/-- A packet that fails a check: NAK, error, counted (R311). -/
def State.refusePacket (s : State) (d c synd : Nat) (k : Packet) : State :=
  let s := s.countSynd (ctxPort (s.ctx d c)) synd
  (s.sendNak d c synd k.msn).connError d c synd k.psn none 0

/-! ## Receiving (R312 to R324) -/

/-- Bit of the receive bitmap for a PSN: the bitmap is indexed by PSN mod 1,024. -/
def bitmapBit (b : List Byte) (psn : Nat) : Bool := bit (leAt b (128 + psn % 1024 / 8) 1) (psn % 8)

/-- Sets or clears the bit of a PSN. -/
def State.setBitmap (s : State) (d c psn : Nat) (v : Bool) : State :=
  let o := 128 + psn % 1024 / 8
  s.ctxPut d c o (natLe 1 (setBit (leAt (s.ctx d c) o 1) (psn % 8) v))

/-- Marks the PSNs of a run of `n` that lie in the window of 1,024 from EXP_PSN, as a read request takes them (R312, R318). -/
def State.markRun (s : State) (d c psn n : Nat) : State :=
  let b := s.ctx d c
  let e := ctxExp b
  let one := fun (i : Nat) => decide (modSub 24 ((e + (i + 1024 - e % 1024) % 1024) % 2 ^ 24) psn < n)
  s.ctxPut d c 128 ((List.range 128).flatMap fun j => natLe 1 (Nat.lor (leAt b (128 + j) 1) (sumNat ((List.range 8).map fun i => b2n (one (8 * j + i)) * 2 ^ i))))

/-- Whether a message is a read request that takes a PSN. -/
def XIn.spans (m : XIn) (psn : Nat) : Bool :=
  m.op == 2 &&
    match m.first, m.last with
    | some f, some l => decide (modSub 24 psn f ≤ modSub 24 l f)
    | _, _ => false

/-- Whether a PSN at or above EXP_PSN has been received: its bit, or beyond the window a read request's run of PSNs. -/
def State.received (s : State) (d c psn : Nat) : Bool :=
  (decide (modSub 24 psn (ctxExp (s.ctx d c)) < 1024) && bitmapBit (s.ctx d c) psn) || (s.conn c).ins.any fun m => m.spans psn

/-- EXP_PSN advances past every marked PSN (R318). -/
def State.advanceExp (d c : Nat) : Nat → State → State
  | 0, s => s
  | fuel + 1, s =>
    let e := ctxExp (s.ctx d c)
    if bitmapBit (s.ctx d c) e then
      let s := (s.setBitmap d c e false).ctxPut d c 68 (natLe 3 (e + 1))
      State.advanceExp d c fuel (s.modConn c fun x => { x with nak := false })
    else
      match (s.conn c).ins.find? fun m => m.spans e with
      | some m =>
        let s := s.ctxPut d c 68 (natLe 3 ((m.last.getD e + 1) % 2 ^ 24))
        State.advanceExp d c fuel (s.modConn c fun x => { x with nak := false })
      | none => s

/-- The message of an MSN that a connection is receiving. -/
def Conn.inMsg (x : Conn) (msn : Nat) : Option XIn := x.ins.find? fun m => m.msn == msn

/-- Changes a message being received. -/
def State.modIn (s : State) (c msn : Nat) (f : XIn → XIn) : State :=
  s.modConn c fun x => { x with ins := mapIf (fun m => m.msn == msn) f x.ins }

/-- Notes a packet in the record of its message. -/
def XIn.note (m : XIn) (k : Packet) (n : Nat) : XIn :=
  { m with
    first := if k.first then some k.psn else m.first,
    last := if k.last then some ((k.psn + n - 1) % 2 ^ 24) else m.last,
    notify := m.notify || k.notify,
    imm := if k.notify && k.last then k.imm else m.imm,
    poison := m.poison || k.poison,
    len := if k.opcode = 0 then Nat.max m.len (k.moff + k.payload.length) else k.len }

/-- Whether every packet of a message has been placed. -/
def XIn.complete (m : XIn) : Bool :=
  match m.first, m.last with
  | some f, some l => decide (modSub 24 l f + 1 ≤ m.placed)
  | _, _ => false

/-- RECV_MSN advances past the messages that are wholly visible and post no receive completion (R316). -/
def State.advanceMsn (d c : Nat) : Nat → State → State
  | 0, s => s
  | fuel + 1, s =>
    let r := ctxRecvMsn (s.ctx d c)
    match (s.conn c).inMsg r with
    | some m =>
      if m.whole && m.op ≠ 0 && !m.notify then
        let s := s.modConn c fun x => { x with ins := x.ins.filter fun y => y.msn != r }
        State.advanceMsn d c fuel (s.ctxPut d c 76 (natLe 3 (r + 1)))
      else s
    | none => s

/-- Counts placed packets of a message, and marks it whole when all are. -/
def State.placedIn (s : State) (d c msn n : Nat) : State :=
  let s := s.modIn c msn fun m => { m with placed := m.placed + n }
  let s := s.modIn c msn fun m => { m with whole := m.complete }
  State.advanceMsn d c (s.conn c).ins.length s

/-- Whether a fenced message may be placed: EXP_PSN has passed its first PSN, and every lower MSN is wholly visible
(R323). -/
def State.fenceOpen (s : State) (d c : Nat) (m : XIn) : Bool :=
  let b := s.ctx d c
  let r := ctxRecvMsn b
  (match m.first with | some f => decide (0 < modSub 24 (ctxExp b) f) && decide (modSub 24 (ctxExp b) f < 2 ^ 23) | none => false) &&
    (List.range (modSub 24 m.msn r)).all fun i =>
      match (s.conn c).inMsg ((r + i) % 2 ^ 24) with | some x => x.whole | none => false

/-- Sends the response packets of a read request (R312, R314, R321); FIRST marks the first packet of the message, which a resumed read
does not send again (Table 10-1). -/
def State.respond (s : State) (d c : Nat) (k : Packet) : State :=
  let b := s.ctx d c
  let mtu := ctxMtu b
  let n := (k.len + mtu - 1) / mtu
  let a := (s.region d (k.key / 256)).base + k.roff
  (List.range n).foldl (fun s i =>
    let off := i * mtu
    let len := Nat.min mtu (k.len - off)
    let p := Packet.plain 3 b ((k.psn + i) % 2 ^ 24) k.msn
    let s := s.reach (ctxPart b) false (a + off) len
    s.sendPacket b { p with first := decide (k.moff + off = 0), last := decide (i + 1 = n), moff := k.moff + off, payload := s.bytes (a + off) len, poison := s.tagged (a + off) len } false) s

/-- Places the bytes of a checked WRITE: the region's memory, or the producer doorbell of a DOORBELL region (R312, R314,
R315). -/
def State.placeWrite (s : State) (d c : Nat) (k : Packet) : State :=
  let r := s.region d (k.key / 256)
  if r.bell then
    s.bell (r.base % 256) 0x000 ⟨.remote (ctxPort (s.ctx d c)) c, BitVec.ofNat 64 (leNat k.payload)⟩ none fun s v m => s.bellPi (r.base % 256) v m
  else (s.write (r.base + k.roff) k.payload k.poison).reach (ctxPart (s.ctx d c)) true (r.base + k.roff) k.payload.length

/-- Places a packet of a SEND in its buffer. -/
def State.placeSend (s : State) (c : Nat) (k : Packet) : State :=
  match ((s.conn c).inMsg k.msn).bind fun m => m.buf.bind s.work with
  | some w => (s.write (w.addr 8 + k.moff) k.payload k.poison).reach w.part true (w.addr 8 + k.moff) k.payload.length
  | none => s

/-- Places an accepted packet now. -/
def State.placePacket (s : State) (d c : Nat) (k : Packet) (n : Nat) : State :=
  let s := match k.opcode with
    | 0 => s.placeSend c k
    | 1 => s.placeWrite d c k
    | _ => s.respond d c k
  s.placedIn d c k.msn n

/-- Bytes held in the fence buffer of a port (R323). -/
def State.fenceUsed (s : State) (e : Nat) : Nat :=
  sumNat (s.xt.conns.map fun x =>
    if s.xt.ctxs.any fun y => y.c == x.c && y.d == e then sumNat (x.ins.map fun m => sumNat (m.held.map fun k => k.payload.length)) else 0)

/-- The buffer of a receive ring for the SEND of MSN `msn`: buffers go to messages in their order (R312), so those that lower MSNs not
here yet may need are left for them. A lower MSN not seen yet counts as a SEND (assumption 26). -/
def State.freeBuf (s : State) (d c r msn : Nat) : Option Work :=
  let used := s.xt.conns.flatMap fun x => x.ins.filterMap fun m => m.buf
  let next := ctxRecvMsn (s.ctx d c)
  let ahead := (List.range (modSub 24 msn next)).filter fun i => ((s.conn c).inMsg ((next + i) % 2 ^ 24)).all fun m => m.op == 0 && m.buf.isNone
  if s.ringOn r && s.ringRx r then
    (s.seq.works.filter fun w => w.ring == r && w.kind == 0x2E && w.started && !w.ended && !used.contains w.id)[ahead.length]?
  else none

/-- What refuses an accepted PSN before it is marked: a syndrome, with the buffer that a SEND takes. 0x02 is RNR. -/
def State.packetCheck (s : State) (d c : Nat) (k : Packet) : Nat × Option Nat :=
  let b := s.ctx d c
  match k.opcode with
  | 0 =>
    let have_ := ((s.conn c).inMsg k.msn).bind fun m => m.buf
    let buf := match have_ with | some i => s.work i | none => s.freeBuf d c (ctxRing b) k.msn
    match buf with
    | none => (2, none)
    | some w => if k.moff + k.payload.length ≤ w.f 14 4 then (0, some w.id) else (0x15, none)
  | 1 =>
    let x := s.keyCheck d (ctxPart b) k.key k.roff k.payload.length true
    if x ≠ 0 then (x, none)
    else if k.notify && ((s.conn c).inMsg k.msn).all (fun m => !m.notify) && !(s.ringOn (ctxRing b) && s.cqRoom (ctxRing b)) then (2, none)
    else (0, none)
  | _ => (s.keyCheck d (ctxPart b) k.key k.roff k.len false, none)

/-- An incoming SEND, WRITE or READ_REQ on a ready connection whose context is at hand (R318, R319). Of a SEND without a buffer, only the
first packet is answered with RNR (R313). -/
def State.dataPacket (s : State) (d c : Nat) (k : Packet) : State :=
  let b := s.ctx d c
  let e := ctxPort b
  let strict := ctxStrict b
  let dist := modSub 24 k.psn (ctxExp b)
  let n := if k.opcode = 2 then (k.len + ctxMtu b - 1) / ctxMtu b else 1
  let owe := fun (s : State) => if k.ackReq then s.sendAck d c else s.modConn c fun x => { x with owed := true }
  let gap := fun (s : State) =>
    if dist ≠ 0 && !(s.conn c).nak then (s.modConn c fun x => { x with nak := true }).sendNak d c 1 k.msn else s
  if 2 ^ 23 ≤ dist || s.received d c k.psn then
    if k.opcode = 2 then
      let x := s.keyCheck d (ctxPart b) k.key k.roff k.len false
      let waits := ((s.conn c).inMsg k.msn).any fun m => !m.held.isEmpty
      if x ≠ 0 then s.refusePacket d c x k else if waits then owe s else owe (s.respond d c k)
    else owe s
  else if strict && dist ≠ 0 then gap s
  else if 1024 ≤ dist then gap (s.bump e (xtCnt 0xD) 1)
  else
    let (synd, buf) := s.packetCheck d c k
    if synd = 2 then (if k.opcode = 0 && !k.first then gap s else (s.bump e (xtCnt 0xE) 1).sendNak d c 2 k.msn)
    else if synd ≠ 0 then s.refusePacket d c synd k
    else
      let m0 : XIn := ((s.conn c).inMsg k.msn).getD ⟨k.msn, k.opcode, none, none, 0, [], false, 0, 0, buf, false, false⟩
      let m := m0.note k n
      let put := fun (s : State) (m : XIn) =>
        if ((s.conn c).inMsg k.msn).isSome then s.modIn c k.msn fun _ => m else s.modConn c fun x => { x with ins := x.ins ++ [m] }
      let mark := fun (s : State) =>
        let s := if k.opcode = 2 then s.markRun d c k.psn n else s.setBitmap d c k.psn true
        State.advanceExp d c (1025 + (s.conn c).ins.length) s
      let s1 := mark (put s m)
      let held := k.fence && !strict && (!m.held.isEmpty || !s1.fenceOpen d c m)
      if held then
        if 262144 < s.fenceUsed e + k.payload.length then gap (s.bump e (xtCnt 0xF) 1)
        else owe (gap (s1.modIn c k.msn fun m => { m with held := m.held ++ [k] }))
      else owe (gap (s1.placePacket d c k n))

/-- Runs a packet on its connection once its context is at hand: a free connection drops it, a connection in error answers
0x20 (R303, R311). -/
def State.onConn (s : State) (d c : Nat) (k : Packet) (run : State → State) : State :=
  let b := s.ctx d c
  let s := s.bump (ctxPort b) (xtCnt 1) 1
  if ctxState b = 0 then s.bump (ctxPort b) (xtCnt 0xB) 1
  else if ctxState b = 2 then s.sendNak d c 0x20 k.msn
  else run s

/-! ## Acknowledgements and responses at the sender -/

/-- An acknowledgement of every PSN below one (R316): progress clears the timeout counts. -/
def State.ackTo (s : State) (d c psn : Nat) : State :=
  let x := s.conn c
  let step := modSub 24 psn x.acked
  let s := if 0 < step && step < 2 ^ 23 then s.modConn c fun x => { x with acked := psn, tries := 0, rnr := 0 } else s
  State.pump d c 1024 (State.settleMsgs c (s.conn c).msgs.length s)

/-- A received ACK. -/
def State.ackIn (s : State) (d c : Nat) (k : Packet) : State := s.ackTo d c k.psn

/-- A received NAK (R311, R313, R320). -/
def State.nakIn (s : State) (d c : Nat) (k : Packet) : State :=
  let b := s.ctx d c
  match k.synd with
  | 1 =>
    let s := s.ackTo d c k.psn
    if ctxStrict b then s.resend d c fun p => decide (modSub 24 p k.psn < 2 ^ 23) else s.resend d c fun p => p == k.psn
  | 2 =>
    let lim := leAt b 32 1 / 16
    let s := s.ackTo d c k.psn
    if (s.conn c).wait = some k.msn then s
    else if lim ≠ 15 && lim ≤ (s.conn c).rnr then s.connError d c 2 k.psn (some k.msn) 0x10
    else s.modConn c fun x => { x with rnr := x.rnr + 1, wait := some k.msn }
  | y => (s.ackTo d c k.psn).connError d c y k.psn (some k.msn) 0x10

/-- A received READ_RESP: placed at the requester's destination (R312, R314). -/
def State.respIn (s : State) (d c : Nat) (k : Packet) : State :=
  let b := s.ctx d c
  match (s.conn c).msgs.find? fun m => m.op == 2 && m.msn == k.msn with
  | none => s
  | some m =>
    let i := modSub 24 k.psn m.psn
    if m.n ≤ i || m.got.contains i then s
    else
      match s.work m.id with
      | none => s
      | some w =>
        let s := s.write (w.addr 22 + i * ctxMtu b) k.payload k.poison
        let s := if k.poison then s.modWork m.id fun w => { w with res := { w.res with poison := true } } else s
        let s := s.modConn c fun x =>
          { x with msgs := mapIf (fun y => y.id == m.id) (fun y => { y with got := y.got ++ [i] }) x.msgs, tries := 0 }
        State.pump d c 1024 (State.settleMsgs c (s.conn c).msgs.length s)

/-- The effect of a packet on its connection, by opcode (Table 10-2). -/
def State.packetRun (s : State) (d c : Nat) (k : Packet) : State :=
  s.onConn d c k fun s =>
    match k.opcode with
    | 0 => s.dataPacket d c k
    | 1 => s.dataPacket d c k
    | 2 => s.dataPacket d c k
    | 3 => s.respIn d c k
    | 4 => s.ackIn d c k
    | _ => s.nakIn d c k

/-- A packet that arrived at port `d`: it goes to the transport of the connection's PORT die, which uses the cached context or
fetches it (R303 to R306). -/
def State.packetIn (s : State) (d : Nat) (k : Packet) : State :=
  let s := s.takeRx d 0x0800
  let c := k.dstConn
  if !s.xtOn d || s.ctxCount d ≤ c || !s.ctxIn d c then s.bump d (xtCnt 0xB) 1
  else
    let e := if s.cached c then ctxPort (s.ctx d c) else Nat.min (ctxPort (s.ctx d c)) (s.part.dies - 1)
    if s.dieOut e || s.cutPair d e then s
    else if !s.xtOn e then s.bump e (xtCnt 0xB) 1
    else if s.cached c then ((s.bump e (xtCnt 5) 1).touchCtx c).packetRun e c k
    else
      let s := s.bump e (xtCnt 6) 1
      if s.cacheFull e || 64 ≤ (s.xt.misses.filter fun m => m.d == e).length then s
      else ({ s with xt.misses := s.xt.misses ++ [(⟨e, c, k⟩ : Miss)] }).wantCtx e c

/-- SEND_PACKET (R312, R313, R318). -/
def execSendPacket (d : Nat) (k : Packet) (s : State) : Res := onDie s d (s.packetIn d { k with opcode := 0 })

/-- WRITE_PACKET (R310, R312, R318). -/
def execWritePacket (d : Nat) (k : Packet) (s : State) : Res := onDie s d (s.packetIn d { k with opcode := 1 })

/-- READ_REQ_PACKET (R310, R321). -/
def execReadReqPacket (d : Nat) (k : Packet) (s : State) : Res := onDie s d (s.packetIn d { k with opcode := 2 })

/-- READ_RESP_PACKET (R312). -/
def execReadRespPacket (d : Nat) (k : Packet) (s : State) : Res := onDie s d (s.packetIn d { k with opcode := 3 })

/-- ACK_PACKET (R316). -/
def execAckPacket (d : Nat) (k : Packet) (s : State) : Res := onDie s d (s.packetIn d { k with opcode := 4 })

/-- NAK_PACKET (R311, R313, R320). -/
def execNakPacket (d : Nat) (k : Packet) (s : State) : Res := onDie s d (s.packetIn d { k with opcode := 5 })

/-- Loads a fetched context into the cache, an unpinned one leaving a full cache first. -/
def State.loadCtx (s : State) (d c : Nat) : State :=
  let s := s.evict d
  let b := s.bytes (s.ctxAddr d c) 256
  { s with xt.ctxs := s.xt.ctxs ++ [(⟨d, c, b⟩ : Ctx)] }

/-- CONTEXT_FETCH (R305, R306): the read of a context ends, and the packets that wait for it run in order. A failed read puts the
connection in error with syndrome 0x21 and drops them; they are dropped too when every entry of the cache is pinned. -/
def execContextFetch (d conn : Nat) (ok : Bool) (s : State) : Res :=
  onDie s d (
    if !s.xt.fetching.contains (d, conn) then s
    else
      let s := s.retry
      let s := { s with xt.fetching := without (d, conn) s.xt.fetching }
      let waiting := s.xt.misses.filter fun m => m.d == d && m.c == conn
      let s := { s with xt.misses := s.xt.misses.filter fun (m : Miss) => !(m.d == d && m.c == conn) }
      if !ok then s.connError d conn 0x21 0 none 0
      else if !s.cached conn && s.cacheFull d then s
      else waiting.foldl (fun s m => s.packetRun d conn m.k) (if s.cached conn then s else s.loadCtx d conn))

/-! ## Timers -/

/-- XT_ACK_TIMER: 2 µs with an acknowledgement owed (R319), whether or not the context is still cached. -/
def execXtAckTimer (d conn : Nat) (s : State) : Res :=
  onDie s d (if (s.conn conn).owed then s.sendAck d conn else s)

/-- XT_NAK_RESEND: EXP_PSN still missing 10 µs after a NAK (R319). -/
def execXtNakResend (d conn : Nat) (s : State) : Res :=
  onDie s d (if (s.conn conn).nak then s.sendNak d conn 1 (ctxRecvMsn (s.ctx d conn)) else s)

/-- RETRANSMIT_TIMEOUT: 2^TIMEOUT µs without progress while packets are held (R320). -/
def execRetransmitTimeout (d conn : Nat) (s : State) : Res :=
  onDie s d (
    let x := s.conn conn
    let b := s.ctx d conn
    if ctxState b ≠ 1 || !x.unacked then s
    else
      let s := s.bump (ctxPort b) (xtCnt 4) 1
      if leAt b 32 1 % 16 ≤ x.tries + 1 then
        let late := (s.conn conn).msgs
        let s := late.foldl (fun s m => s.endStatus m.id 0x11) s
        let s := s.modConn conn fun y => { y with msgs := [], done := y.done ++ late.map (fun m => m.id) }
        s.connError d conn 0x22 x.acked none 0
      else
        let s := s.modConn conn fun y => { y with tries := y.tries + 1 }
        s.resend d conn fun p => decide (modSub 24 p x.acked < 2 ^ 23))

/-- RNR_WAIT: the wait after an RNR NAK ends and the message leaves again from its first PSN (R313). -/
def execRnrWait (d conn : Nat) (s : State) : Res :=
  onDie s d (
    match (s.conn conn).wait.bind fun n => (s.conn conn).msgs.find? fun m => m.msn == n with
    | none => s
    | some m =>
      let s := s.modConn conn fun x => { x with wait := none }
      s.resend d conn fun p => decide (modSub 24 p m.psn < m.n))

/-- READ_RETRY_TIMEOUT: a read response is missing; the request leaves again from the first missing packet with ROFF and LEN
advanced and the same PSNs (R321). -/
def execReadRetryTimeout (d conn : Nat) (s : State) : Res :=
  onDie s d (
    let b := s.ctx d conn
    match (s.conn conn).msgs.find? fun m => m.op == 2 && decide (0 < m.sent) && decide (m.got.length < m.n) with
    | none => s
    | some m =>
      match s.work m.id with
      | none => s
      | some w =>
        let i := ((List.range m.n).find? fun i => !m.got.contains i).getD 0
        let k := s.packetOf b m w 0
        let off := i * ctxMtu b
        (s.bump (ctxPort b) (xtCnt 2) 1).sendPacket b
          { k with psn := (m.psn + i) % 2 ^ 24, moff := off, roff := k.roff + off, len := k.len - off } true)

/-! ## Completions at the receiver and fences -/

/-- Ends an INVALIDATE once no held packet was checked under the old key (R309). -/
def State.settleInval (s : State) : State :=
  let using_ := s.xt.conns.flatMap fun x => x.ins.flatMap fun m => m.held.map fun k => k.key / 256
  (s.seq.works.filter fun w => w.kind == 0x29 && w.started && !w.ended && !using_.contains (w.f 12 3)).foldl
    (fun s w => s.endStatus w.id 0) s

/-- FENCE_RELEASE: places the held messages of a connection whose fence has opened (R323). -/
def execFenceRelease (d conn : Nat) (s : State) : Res :=
  onDie s d (
    let ms := (s.conn conn).ins.filter fun m => !m.held.isEmpty
    let s := ms.foldl (fun s m =>
      if s.fenceOpen d conn m then
        let s := s.modIn conn m.msn fun x => { x with held := [] }
        m.held.foldl (fun s k => s.placePacket d conn k (if k.opcode = 2 then (k.len + ctxMtu (s.ctx d conn) - 1) / ctxMtu (s.ctx d conn) else 1)) s
      else s) s
    s.settleInval)

/-- RECEIVE_COMPLETION: the message at RECV_MSN is wholly visible, and its receive completion is posted (R312, R316, R434). -/
def execReceiveCompletion (d conn : Nat) (s : State) : Res :=
  onDie s d (
    let b := s.ctx d conn
    let r := ctxRecvMsn b
    match (s.conn conn).inMsg r with
    | none => s
    | some m =>
      if !m.whole || (m.op ≠ 0 && !m.notify) then s
      else
        let ring := ctxRing b
        let w := m.buf.bind s.work
        let rec_ : Rec := { Rec.empty with tag := (match w with | some w => w.f 4 4 | none => 0),
                                           idx := (match w with | some w => w.idx | none => 0xFFFFFFFF), kind := 0x2E,
                                           poison := m.poison, receive := true, detail0 := r,
                                           detail1 := m.len + 2 ^ 32 * m.imm.toNat }
        let s := s.modConn conn fun x => { x with ins := x.ins.filter fun y => y.msn != r }
        let s := s.ctxPut d conn 76 (natLe 3 (r + 1))
        let s := match w with | some w => s.dropWork w.id | none => s
        let s := s.writeRec ring rec_ (match w with | some w => w.irq | none => false)
        State.advanceMsn d conn (s.conn conn).ins.length s)

/-! ## Transfer descriptors (R302, R305, R312) -/

/-- A transfer's opcode. -/
def Work.xOp (w : Work) : Nat := if w.kind = 0x2C then 0 else if w.kind = 0x2D then 2 else 1

/-- The range that a transfer reads or writes here. -/
def xferRanges (_ : State) (w : Work) : List Rng :=
  let (a, len, inl) := w.xSrc
  if inl.isSome then [] else [⟨a, len, w.kind == 0x2D⟩]

/-- Whether the bytes of a transfer descriptor that Table 13-3 leaves reserved are zero. -/
def Work.xRsvd (w : Work) : Bool :=
  match w.kind with
  | 0x2A => w.f 11 1 / 4 == 0 && w.f 36 28 == 0
  | 0x2B => w.f 11 1 / 4 == 0 && w.f 22 1 / 64 == 0 && w.f 23 1 == 0 && w.f 28 4 == 0
  | 0x2C => w.f 11 1 == 0 && w.f 22 42 == 0
  | _ => w.f 11 1 / 2 == 0 && w.f 32 32 == 0

/-- The checks of a transfer descriptor; 255 while its context is not cached. -/
def xferCodes (s : State) (w : Work) : List Nat :=
  let c := w.xConn
  let (src, len, inl) := w.xSrc
  let wr := w.kind == 0x2A || w.kind == 0x2B
  let shape := need (w.xRsvd && decide (1 ≤ len) && decide (len ≤ (if inl.isSome then 32 else 2 ^ 31)) && !(wr && w.bit 11 1 && !w.bit 11 0))
  if s.ctxCount w.die ≤ c then [shape, 1, if s.xtOn w.die then 0 else 7]
  else if !s.ctxIn w.die c then [shape, 2, if s.xtOn w.die then 0 else 7]
  else
    let b := s.ctx w.die c
    let e := ctxPort b
    [shape, if s.xtOn w.die && s.xtOn e && !s.unitOut e 0x0C && !s.dieOut e then 0 else 7,
     if ctxState b = 0 then 1 else if ctxPart b ≠ w.part then 4 else if ctxState b = 2 then 0x0B else 0,
     s.pairCode w.die [e] (if inl.isSome then [] else [⟨src, len, w.kind == 0x2D⟩]),
     if s.cached c then 0 else 255]

/-- Starts a transfer: it takes the next MSN and PSNs, and packets leave as the window allows (R312, R320). -/
def xferBody (s : State) (w : Work) : State :=
  let c := w.xConn
  let d := w.die
  let b := s.ctx d c
  let (_, len, _) := w.xSrc
  let n := (len + ctxMtu b - 1) / ctxMtu b
  let m : XMsg := ⟨w.id, w.xOp, ctxSendMsn b, ctxNext b, n, len, 0, []⟩
  let s := s.ctxPut d c 64 (natLe 3 (ctxNext b + n))
  let s := s.ctxPut d c 72 (natLe 3 (ctxSendMsn b + 1))
  let idle := (s.conn c).msgs.isEmpty
  let s := s.modConn c fun x => { x with msgs := x.msgs ++ [m], acked := if idle then ctxNext b else x.acked }
  State.pump d c 1024 (s.touchCtx c)

/-- Runs a transfer descriptor of a kind. When only its context is missing, the fetch starts (R305). -/
def State.beginXfer (s : State) (id kind : Nat) : State :=
  let t := s.begin id (fun w => w.kind == kind) xferRanges xferCodes xferBody
  match t.work id with
  | some w =>
    let c := w.xConn
    if w.kind == kind && !w.started && t.canStart w && !t.cached c && decide (c < t.ctxCount w.die) &&
      !t.cacheFull (ctxPort (t.ctx w.die c)) then t.wantCtx (ctxPort (t.ctx w.die c)) c
    else t
  | none => t

/-- WRITE (R312). -/
def execWrite (id : Nat) (s : State) : Res := live s (s.beginXfer id 0x2A)

/-- WRITE_INLINE (R312, R424). -/
def execWriteInline (id : Nat) (s : State) : Res := live s (s.beginXfer id 0x2B)

/-- SEND (R312, R313). -/
def execSend (id : Nat) (s : State) : Res := live s (s.beginXfer id 0x2C)

/-- READ (R312, R321). -/
def execRead (id : Nat) (s : State) : Res := live s (s.beginXfer id 0x2D)

/-- The buffer of a POST_BUF. -/
def postRanges (_ : State) (w : Work) : List Rng := [⟨w.addr 8, w.f 14 4, true⟩]

/-- The codes of a POST_BUF. -/
def postCodes (_ : State) (w : Work) : List Nat := [need (w.f 18 46 == 0 && decide (64 ≤ w.f 14 4) && decide (w.f 14 4 ≤ 2 ^ 31))]

/-- POST_BUF: the buffer is checked and held in ring order (R433). -/
def execPostBuf (id : Nat) (s : State) : Res :=
  live s (s.begin id (fun w => w.kind == 0x2E) postRanges postCodes fun s _ => s)

/-! ## Connection descriptors (R302, R303) -/

/-- CONN of a connection descriptor. -/
def Work.cConn (w : Work) : Nat := w.f 9 3

/-- ADDR of a connection descriptor. -/
def Work.cAddr (w : Work) : Nat := w.addr 12

/-- Whether a descriptor is a connection descriptor of one operation. -/
def isConn (op : Nat) (w : Work) : Bool := w.kind == 0x28 && w.f 8 1 % 4 == op

/-- The range of a connection descriptor: CREATE and MODIFY read 64 bytes, and QUERY writes 256. -/
def tmplRanges (_ : State) (w : Work) : List Rng := [⟨w.cAddr, 64, false⟩]

/-- The range that a QUERY writes. -/
def queryRanges (_ : State) (w : Work) : List Rng := [⟨w.cAddr, 256, true⟩]

/-- Checks that all connection descriptors share. -/
def State.connCodes (s : State) (w : Work) (psns toReady : Bool) : List Nat :=
  [need ((toReady || !w.bit 8 2) && w.f 8 1 / 8 == 0 && (psns || w.f 18 6 == 0) && w.f 24 40 == 0 && w.cAddr % 64 == 0 && decide (w.cConn < s.ctxCount w.die)),
   if s.xtOn w.die then 0 else 7,
   if s.ctxIn w.die w.cConn then 0 else 2]

/-- The template of a connection descriptor. -/
def State.template (s : State) (w : Work) : List Byte := s.bytes w.cAddr 64

/-- The codes of a CREATE. -/
def createCodes (s : State) (w : Work) : List Nat :=
  let t := s.template w
  let port := ctxPort t
  s.connCodes w true false ++
    [need (ctxOk s.part.dies s.part.rings t && decide (ctxMtu t + 110 ≤ s.ethMaxfrm port) && ctxState (s.ctx w.die w.cConn) == 0),
     if ctxPart t = w.part then 0 else 4]

/-- The context that a CREATE writes: the template in state READY with its two PSNs, and the hardware's bytes zero. -/
def State.newCtx (s : State) (w : Work) : List Byte :=
  let t := s.template w
  spliceAt t 3 (natLe 1 (leAt t 3 1 / 8 * 8 + 1)) ++ natLe 4 (w.f 18 3) ++ natLe 4 (w.f 21 3) ++ List.replicate 184 0

/-- What a CREATE does: the entry is written in the table, from where the cache of the PORT that it names takes it (R304). -/
def State.createBody (s : State) (w : Work) : State :=
  let new := s.newCtx w
  let s := (s.dropCtx w.cConn).setCtx w.die w.cConn new
  let s := { s with xt.conns := s.xt.conns.filter fun x => x.c != w.cConn }
  (s.modConn w.cConn fun _ => Conn.idle w.cConn (w.f 18 3)).endStatus w.id 0

/-- CONN_CREATE (R298, R302). -/
def execConnCreate (id : Nat) (s : State) : Res := live s (s.begin id (isConn 0) tmplRanges createCodes State.createBody)

/-- A context's first 64 bytes with the fields that MODIFY may change, and STATE, set to zero. -/
def ctxFixed (b : List Byte) : List Byte :=
  let b := b.take 64
  let b := spliceAt b 3 (natLe 1 (leAt b 3 1 / 8 * 8))
  let b := spliceAt b 4 (natLe 1 (setFld (leAt b 4 1) 3 3 0))
  let b := spliceAt b 6 (natLe 2 0)
  let b := spliceAt b 24 (natLe 6 0)
  spliceAt b 32 (natLe 2 0)

/-- The codes of a MODIFY. -/
def modifyCodes (s : State) (w : Work) : List Nat :=
  let t := s.template w
  let b := s.ctx w.die w.cConn
  let ready := w.bit 8 2
  s.connCodes w ready true ++
    [need (ctxOk s.part.dies s.part.rings t && ctxFixed t == ctxFixed b && ctxState b != 0 &&
        (ctxState t == ctxState b || (ready && ctxState t == 1)) && (!ready || ctxState b == 2)),
     if ctxPart b = w.part then 0 else 4]

/-- The context that a MODIFY writes: the template in the state it keeps, or in READY with new PSNs. -/
def State.modCtx (s : State) (w : Work) : List Byte :=
  let b := s.ctx w.die w.cConn
  let ready := w.bit 8 2
  let t := s.template w
  let t := spliceAt t 3 (natLe 1 (leAt t 3 1 / 8 * 8 + (if ready then 1 else ctxState b)))
  if ready then t ++ natLe 4 (w.f 18 3) ++ natLe 4 (w.f 21 3) ++ List.replicate 184 0 else t ++ b.drop 64

/-- What a MODIFY does. -/
def State.modifyBody (s : State) (w : Work) : State :=
  let s := s.setCtx w.die w.cConn (s.modCtx w)
  (if w.bit 8 2 then s.modConn w.cConn fun x => { Conn.idle w.cConn (w.f 18 3) with done := x.done } else s).endStatus w.id 0

/-- CONN_MODIFY (R302). -/
def execConnModify (id : Nat) (s : State) : Res := live s (s.begin id (isConn 1) tmplRanges modifyCodes State.modifyBody)

/-- The codes of a DESTROY. -/
def destroyCodes (s : State) (w : Work) : List Nat :=
  s.connCodes w false false ++ [need (w.f 12 6 == 0), if ctxPart (s.ctx w.die w.cConn) = w.part then 0 else 4]

/-- What a DESTROY does: descriptors of the connection not yet completed take the flushed status, and STATE goes to 0. -/
def State.destroyBody (s : State) (w : Work) : State :=
  let c := w.cConn
  let b := s.ctx w.die c
  let s := s.flushConn c none 0 0
  let s := (s.seq.works.filter fun v => v.transfers c && !v.ended).foldl
    (fun s v => s.endStatus v.id 0x0B) s
  (s.ctxPut w.die c 3 (natLe 1 (leAt b 3 1 / 8 * 8))).endStatus w.id 0

/-- CONN_DESTROY (R302). -/
def execConnDestroy (id : Nat) (s : State) : Res := live s (s.begin id (isConn 2) noRanges destroyCodes State.destroyBody)

/-- The codes of a QUERY. -/
def queryCodes (s : State) (w : Work) : List Nat :=
  s.connCodes w false false ++ [if ctxPart (s.ctx w.die w.cConn) = w.part then 0 else 4]

/-- CONN_QUERY (R302). -/
def execConnQuery (id : Nat) (s : State) : Res :=
  live s (s.begin id (isConn 3) queryRanges queryCodes fun s w => (s.write w.cAddr (s.ctx w.die w.cConn)).endStatus w.id 0)

/-! ## Region descriptors (R308, R309, R484) -/

/-- Whether a descriptor is a REGISTER or an INVALIDATE. -/
def isRegion (inval : Bool) (w : Work) : Bool := w.kind == 0x29 && w.bit 8 0 == inval

/-- Checks that both region descriptors share. -/
def State.regionCodes (s : State) (w : Work) : List Nat :=
  [need (w.f 8 1 / 2 == 0 && w.f 9 3 == 0 && w.f 15 1 == 0 && decide (w.f 12 3 < s.regnCount w.die) && decide (w.f 12 3 < 65536)),
   if s.regnIn w.die (w.f 12 3) then 0 else 2]

/-- The entry that a REGISTER writes. -/
def State.newRegion (s : State) (w : Work) : Region :=
  let f := w.f 28 1
  ⟨w.addr 16, w.f 22 6, bit f 0, bit f 1, bit f 2, bit f 3, true, (s.region w.die (w.f 12 3)).gen, w.part⟩

/-- Whether bytes lie wholly inside one range of Table 01-4: the HBM of one die, one tile store, or host memory (R308). -/
def oneRange (n a len : Nat) : Bool := (inHbm n a len && decide (a / hbmSize = (a + len - 1) / hbmSize)) || inTs n a len || inHost a len

/-- The codes of a REGISTER. -/
def registerCodes (s : State) (w : Work) : List Nat :=
  let r := s.newRegion w
  let n := s.part.dies
  let ring := r.base % 256
  let ok := if r.bell then r.len == 8 && decide (ring < s.part.rings) else r.len != 0 && oneRange n r.base r.len
  s.regionCodes w ++
    [need (ok && w.f 28 1 / 16 == 0 && w.f 29 35 == 0 && !(s.region w.die (w.f 12 3)).valid),
     if r.bell then (if s.ringPart ring = w.part || s.part.rings ≤ ring then 0 else 4)
     else if (halvesOf n r.base r.len).all (fun u => s.ownsHalf w.die w.part u) then 0 else 4]

/-- What a REGISTER does: the entry is written, and the record carries the key. -/
def State.registerBody (s : State) (w : Work) : State :=
  let r := s.newRegion w
  let i := w.f 12 3
  (s.write (s.regnAddr w.die i) r.bytes).endWork w.id fun c => { c with detail0 := 256 * i + r.gen }

/-- REGISTER (R308, R484). -/
def execRegister (id : Nat) (s : State) : Res := live s (s.begin id (isRegion false) noRanges registerCodes State.registerBody)

/-- The codes of an INVALIDATE. -/
def invalCodes (s : State) (w : Work) : List Nat :=
  s.regionCodes w ++ [need (w.f 16 48 == 0), if (s.region w.die (w.f 12 3)).part = w.part then 0 else 4]

/-- What an INVALIDATE does: the key fails from now on, and the descriptor ends once no packet checked under it is held. -/
def State.invalBody (s : State) (w : Work) : State :=
  let i := w.f 12 3
  let r := s.region w.die i
  (s.write (s.regnAddr w.die i) { r with valid := false, gen := (r.gen + 1) % 256 }.bytes).settleInval

/-- INVALIDATE (R309). -/
def execInvalidate (id : Nat) (s : State) : Res := live s (s.begin id (isRegion true) noRanges invalCodes State.invalBody)

/-- XT_CTRL.ENABLE goes to 0: transfer descriptors still running take the flushed status, cached contexts are written back, and
connections keep their state (R328). -/
def State.xtOff (s : State) (d : Nat) : State :=
  let cs := (s.ctxsOf d).map fun x => x.c
  let s := s.setRbit d Reg.xtCtrl 0 false
  let s := cs.foldl (fun s c => (s.flushMsgs c none 0 0).dropCtx c) s
  { s with xt.misses := s.xt.misses.filter (fun m => m.d != d), xt.fetching := s.xt.fetching.filter fun x => x.1 != d }

/-- XT_DISABLE (R328). -/
def execXtDisable (d : Nat) (s : State) : Res := onDie s d (s.xtOff d)

end Sys2Proof.Machine
end

