-- ==== Sys2Proof/Machine/Host.lean ====
section
/-! DEFINITION. The host link (chapter 15): requests through BAR2 from the host and from peers (R480 to R484, R496 to R500), CXL.mem
and the bias of device pages (R490 to R494), configuration requests (R544), and the link's state. -/

namespace Sys2Proof.Machine

/-! ## Interfaces of virtual functions (R500, R577) -/

/-- The state of the TDI of a function: 0 CONFIG_UNLOCKED, 1 CONFIG_LOCKED, 2 RUN, 3 ERROR. -/
def State.tdi (s : State) (fn : Nat) : Nat := kvGet 0 s.hst.tdi fn

/-- Sets the state of a TDI. -/
def State.setTdi (s : State) (fn v : Nat) : State := { s with hst := { s.hst with tdi := kvSet 0 s.hst.tdi fn v } }

/-- Whether the TDI that serves a partition is locked or runs. -/
def State.tdiLocked (s : State) (p : Nat) : Bool := s.tdi (p + 1) == 1 || s.tdi (p + 1) == 2

/-- A write that R500 discards: counted, and the TDI goes to ERROR. -/
def State.lockedWrite (s : State) (p : Nat) : State := (s.bump 0 (Reg.hstCntLo 7) 1).setTdi (p + 1) 3

/-- The locked partitions whose half-dies a range of HBM touches. -/
def State.lockedIn (s : State) (a len : Nat) : List Nat :=
  (List.range s.part.parts).filter fun p => s.tdiLocked p && (halvesOf s.part.dies a len).any fun u => s.ownsHalf 0 p u

/-! ## BAR2 (R481, R482, R496 to R499) -/

/-- Offset of the control word of the Resizable BAR capability, and of the VF Resizable BAR capability (assumption 5). -/
def cfgRebar (vf : Bool) : Nat := if vf then 0x1B8 else 0x1A8

/-- Whether a value of the BAR Size field is one of the sizes of BAR2: 64, 128, 256 or 512 GiB (R480). -/
def rebarOk (size : Nat) : Bool := decide (16 ≤ size) && decide (size ≤ 19)

/-- The size of BAR2 as a power of two, of the physical function or of every virtual function: 64 GiB until it is resized
(R480, Table 15-2; assumption 5). -/
def State.bar2Bits (s : State) (vf : Bool) : Nat :=
  let v := fld (s.cfgWord 0 (cfgRebar vf)) 8 6
  20 + if rebarOk v then v else 16

/-- Refuses a request as R481 gives: a read completes with Unsupported Request, a write is discarded; counted in BAR_REFUSED. -/
def State.refuseBus (s : State) (r : BusReq) (wr : Bool) : State :=
  let s := s.barRefuse
  if wr then s else s.emit (.busRefused r.rid)

/-- Serves a request in HBM. Memory out of service returns a read with poison and does not do a write (R510). -/
def State.serveBus (s : State) (r : BusReq) (wr : Bool) : State :=
  let out := s.memOut r.off r.len
  let s := if out then s else s.access wr r.off r.len
  if wr then (if out then s else s.write r.off (padTo r.len r.data))
  else if out then
    let (t, s) := s.fresh
    s.emit (.busData r.rid ((List.range r.len).map (Config.freeByte t)) true)
  else s.emit (.busData r.rid (s.bytes r.off r.len) (s.tagged r.off r.len))

/-- The entries of HST_PEER_ID that name a Requester ID. -/
def State.peerEntries (s : State) (rid : Nat) : List Nat :=
  (List.range 16).filter fun i => s.rbit 0 (Reg.hstPeerId i) 31 && s.rf 0 (Reg.hstPeerId i) 0 16 == rid

/-- Whether some entry of a peer lets its request through (R496). -/
def State.peerPasses (s : State) (r : BusReq) (wr : Bool) : Bool :=
  s.rbit 0 Reg.hstCtrl 1 && (s.peerEntries r.rid).any fun i =>
    let key := s.regN 0 (Reg.hstPeerKey i)
    let g := s.region 0 (key / 256)
    g.peer && !g.bell && decide (g.base ≤ r.off) &&
      s.keyCheck 0 (s.rf 0 (Reg.hstPeerId i) 16 4) key (r.off - g.base) r.len wr == 0

/-- A peer request: to BAR0 or BAR4 discarded (R497), through BAR2 checked against its region (R496). -/
def State.peerBus (s : State) (r : BusReq) (wr : Bool) : State :=
  let miss := s.bump 0 (Reg.hstCntLo 5) 1
  if r.bar ≠ 2 then (if wr then miss else miss.emit (.busRefused r.rid))
  else if !inHbm s.part.dies r.off r.len || !s.peerPasses r wr then miss.refuseBus r wr
  else
    let s := s.serveBus r wr
    if wr then s.bump 0 (Reg.hstCntLo 4) ((r.len + 63) / 64) else s

/-- A request of the host through BAR2 (R481, R482, R500). -/
def State.hostBus (s : State) (r : BusReq) (wr : Bool) : State :=
  let n := s.part.dies
  if !inHbm n r.off r.len then s.refuseBus r wr
  else if r.fn = 0 then
    match s.lockedIn r.off r.len with
    | [] => s.serveBus r wr
    | ps => if wr then ps.foldl State.lockedWrite s else s.refuseBus r wr
  else
    let p := r.fn - 1
    if (halvesOf n r.off r.len).all (fun u => s.ownsHalf 0 p u) || (!wr && s.inShared p r.off r.len) then s.serveBus r wr
    else s.refuseBus r wr

/-- A request that arrives at BAR2: over a link that is up, through a function that is there, and inside the BAR as it is sized. -/
def State.bus2 (s : State) (r : BusReq) (wr : Bool) : State :=
  if !s.linkUp || !s.fnOn r.fn || r.bar ≠ 2 || r.len = 0 || 2 ^ s.bar2Bits (r.fn != 0) < r.off + r.len then s
  else if (s.peerEntries r.rid).isEmpty then s.hostBus r wr
  else s.peerBus r wr

/-- BAR2_READ (R481, R482, R499). -/
def execBar2Read (r : BusReq) (s : State) : Res := onDie s 0 (s.bus2 r false)

/-- BAR2_WRITE (R481, R482, R500). -/
def execBar2Write (r : BusReq) (s : State) : Res := onDie s 0 (s.bus2 r true)

/-- PEER_REQUEST: a request whose Requester ID is registered (R496, R497). -/
def execPeerRequest (r : BusReq) (isWrite : Bool) (s : State) : Res :=
  onDie s 0 (if !s.linkUp || (s.peerEntries r.rid).isEmpty || r.len = 0 then s else s.peerBus r isWrite)

/-! ## CXL.mem and bias (R490 to R494) -/

/-- Pages of HBM of the part. -/
def State.hbmPages (s : State) : Nat := hbmSize * s.part.dies / 4096

/-- HST_STATUS.BIAS_READY. -/
def State.biasReady (s : State) : Bool := s.rbit 0 Reg.hstStatus 12

/-- Sets the bias bit of a page: 1 shared, 0 device-owned (R491). -/
def State.setBias (s : State) (n : Nat) (shared : Bool) : State :=
  let a := s.regAddr 0 Reg.hstBiasBaseLo + n / 8
  s.write a [BitVec.ofNat 8 (setBit (s.byte a).toNat (n % 8) shared)]

/-- Clears BIAS_EN and BIAS_READY. -/
def State.biasClear (s : State) : State :=
  let s := (s.setRbit 0 Reg.hstCtrl 2 false).setRbit 0 Reg.hstStatus 12 false
  { s with hst := { s.hst with biasOff := false } }

/-- Ends the running bias command; a clearing of BIAS_EN that waited for it takes effect (R494, R502). -/
def State.biasEnd (s : State) : State :=
  let s := { s with hst := { s.hst with flip := none } }
  let s := s.setRbit 0 Reg.hstBiasStatus 0 false
  if s.hst.biasOff then s.biasClear else s

/-- Asks for every line of the page that the command is at. -/
def State.flipAsk (s : State) (n : Nat) : State := s.askPage n true

/-- Goes on to the next page of the command, or ends it. -/
def State.flipNext (s : State) (f : Flip) : State :=
  let s := { s with hst := { s.hst with asked := without f.page s.hst.asked } }
  if f.left = 0 then s.biasEnd
  else
    let s := { s with hst := { s.hst with flip := some { f with page := f.page + 1, left := f.left - 1, restarts := 0 } } }
    s.flipAsk (f.page + 1)

/-- A CXL.mem access to the page being flipped to device-owned restarts its flip; the fourth leaves the page shared (R494). -/
def State.flipTouched (s : State) (n : Nat) : State :=
  match s.hst.flip with
  | none => s
  | some f =>
    if f.page ≠ n then s
    else
      let s := s.bump 0 (Reg.hstCntLo 2) 1
      if 4 ≤ f.restarts + 1 then (s.setRbit 0 Reg.hstBiasStatus 2 true).flipNext f
      else ({ s with hst := { s.hst with flip := some { f with restarts := f.restarts + 1 } } }).flipAsk n

/-- The bias a CXL.mem access leaves on its page: a device-owned page flips to shared (Table 15-5). -/
def State.memTouch (s : State) (n : Nat) : State :=
  if s.pageShared n then s.flipTouched n else (s.setBias n true).bump 0 (Reg.hstCntLo 0) 1

/-- Whether CXL.mem requests arrive: the link up and the host's CXL.mem enable set. -/
def State.memOn (s : State) : Bool := s.linkUp && s.rbit 0 Reg.hstStatus 10

/-- A CXL.mem read that is refused returns poisoned data of no stated value (R490, R492). -/
def State.memPoison (s : State) (dpa : Nat) : State :=
  let (t, s) := s.barRefuse.fresh
  s.emit (.cxlData dpa ((List.range 64).map (Config.freeByte t)) true)

/-- CXL_MEM_READ: one line (R490, R492). -/
def State.memRead (s : State) (dpa : Nat) : State :=
  let a := dpa / 64 * 64
  if !s.memOn then s
  else if !inHbm s.part.dies a 64 || !s.biasReady then s.memPoison a
  else
    let s := s.memTouch (a / 4096)
    if s.memOut a 64 then
      let (t, s) := s.fresh
      s.emit (.cxlData a ((List.range 64).map (Config.freeByte t)) true)
    else (s.emit (.cxlData a (s.bytes a 64) (s.tagged a 64))).access false a 64

/-- CXL_MEM_READ (R492). -/
def execCxlMemRead (dpa : Nat) (s : State) : Res := onDie s 0 (s.memRead dpa)

/-- CXL_MEM_WRITE: one line (R490, R492). -/
def State.memWrite (s : State) (dpa : Nat) (data : List Byte) : State :=
  let a := dpa / 64 * 64
  if !s.memOn then s
  else if !inHbm s.part.dies a 64 || !s.biasReady then s.barRefuse
  else
    let s := s.memTouch (a / 4096)
    if s.memOut a 64 then s else (s.write a (padTo 64 data)).access true a 64

/-- CXL_MEM_WRITE (R492). -/
def execCxlMemWrite (dpa : Nat) (data : List Byte) (s : State) : Res := onDie s 0 (s.memWrite dpa data)

/-- CACHE_ANSWER: the host has answered for every line of a page, with what its cache held, if anything. A waiting access may
go on, and the running command clears the page's bit (R492, R494). -/
def State.cacheIn (s : State) (page : Nat) (data : Option (List Byte)) : State :=
  let flips := match s.hst.flip with | some f => f.page == page | none => false
  if !(flips || s.hst.asked.contains page) then s
  else
    let s := match data with | some b => s.write (4096 * page) (padTo 4096 b) | none => s
    match s.hst.flip with
    | some f =>
      if f.page = page then ((s.setBias page false).bump 0 (Reg.hstCntLo 1) 1).flipNext f
      else { s with hst := { s.hst with asked := without page s.hst.asked, answered := addNew page s.hst.answered } }
    | none => { s with hst := { s.hst with asked := without page s.hst.asked, answered := addNew page s.hst.answered } }

/-- CACHE_ANSWER (R492, R494). -/
def execCacheAnswer (page : Nat) (data : Option (List Byte)) (s : State) : Res := onDie s 0 (if s.linkUp then s.cacheIn page data else s)

/-- A write to HST_BIAS_CMD (R494): discarded while a command runs; a range past the last page sets RANGE_ERR. -/
def State.biasCmd (s : State) (toDevice : Bool) : State :=
  let first := s.rf 0 Reg.hstBiasFirst 0 27
  let count := s.rf 0 Reg.hstBiasCount 0 27
  if s.rbit 0 Reg.hstBiasStatus 0 then s
  else if s.hbmPages < first + count then s.setRbit 0 Reg.hstBiasStatus 1 true
  else if !s.biasReady || count = 0 then s
  else if toDevice then
    let s := s.setRbit 0 Reg.hstBiasStatus 0 true
    ({ s with hst := { s.hst with flip := some ⟨true, first, count - 1, 0⟩ } }).flipAsk first
  else (List.range count).foldl (fun s i => s.setBias (first + i) true) s

/-- BIAS_TO_SHARED (R494). -/
def execBiasToShared (s : State) : Res := onDie s 0 (s.biasCmd false)

/-- BIAS_TO_DEVICE (R494). -/
def execBiasToDevice (s : State) : Res := onDie s 0 (s.biasCmd true)

/-- HST_CTRL.BIAS_EN goes to 1: every bit of the table is written 0, and BIAS_READY is set (R491). -/
def State.biasStart (s : State) : State :=
  if s.rbit 0 Reg.hstCtrl 2 then s
  else
    let a := s.regAddr 0 Reg.hstBiasBaseLo
    let n := s.hbmPages / 8
    let inside := fun (x : Nat) => decide (a ≤ x) && decide (x < a + n)
    let s := { s with mem := s.mem.filter (fun c => !inside c.1), poison := s.poison.filter (fun c => !(inside (c.1 * 64) && inside (c.1 * 64 + 63))), wiped := if s.wiped.isEmpty then [] else (a, n, none) :: s.wiped }
    (s.setRbit 0 Reg.hstCtrl 2 true).setRbit 0 Reg.hstStatus 12 true

/-- BIAS_ENABLE (R491). -/
def execBiasEnable (s : State) : Res := onDie s 0 s.biasStart

/-- HST_CTRL.BIAS_EN is cleared: at once, or when the running command ends (R502). -/
def State.biasStop (s : State) : State :=
  if s.hst.flip.isSome then { s with hst := { s.hst with biasOff := true } } else s.biasClear

/-! ## Configuration requests (R544) -/

/-- GEN_BOOT.STAGE. -/
def State.stage_ (s : State) : Nat := s.rf 0 Reg.genBoot 0 4

/-- The address bits of the low or high dword of a 64-bit BAR of 2^k bytes. -/
def barBits (k : Nat) (high : Bool) : Nat :=
  if high then 2 ^ 32 - 2 ^ (k - 32) else if 32 ≤ k then 0 else 2 ^ 32 - 2 ^ k

/-- The BAR dwords of the physical function and those of the SR-IOV capability (Table 15-2): for a dword of either, the size as a
power of two, whether it is the high dword, and the type bits (64-bit; BAR2 prefetchable too). -/
def State.barAt (s : State) (off : Nat) : Option (Nat × Bool × Nat) :=
  match off with
  | 0x10 => some (27, false, 4)
  | 0x14 => some (27, true, 0)
  | 0x18 => some (s.bar2Bits false, false, 12)
  | 0x1C => some (s.bar2Bits false, true, 0)
  | 0x20 => some (20, false, 4)
  | 0x24 => some (20, true, 0)
  | 0x184 => some (16, false, 4)
  | 0x188 => some (16, true, 0)
  | 0x18C => some (s.bar2Bits true, false, 12)
  | 0x190 => some (s.bar2Bits true, true, 0)
  | 0x194 => some (20, false, 4)
  | 0x198 => some (20, true, 0)
  | _ => none

/-- The dwords of configuration space that software writes, with the bits it writes: command, BARs, MSI-X, SR-IOV control, and the
size of BAR2 while the memory space that it lies in is not enabled (R480, R481; assumption 5). -/
def State.cfgMask (s : State) (fn off : Nat) : Nat :=
  if off = 4 then (if fn = 0 then 0x0547 else 0x0004)
  else if off = cfgMsix then 0xC0000000
  else if fn ≠ 0 then 0
  else if off = cfgSriov then 0x0000001F
  else if off = cfgRebar false then (if bit (s.cfgWord 0 4) 1 then 0 else 0x3F00)
  else if off = cfgRebar true then (if bit (s.cfgWord 0 cfgSriov) 3 then 0 else 0x3F00)
  else match s.barAt off with
    | some (k, high, _) => barBits k high
    | none => 0

/-- The dwords whose read-only bits the spec gives: the BARs' type bits, InitialVFs and TotalVFs (R479), and the sizes of BAR2 that
both Resizable BAR capabilities offer. The BARs of a virtual function read zero, as SR-IOV has it. -/
def State.cfgGiven (s : State) (fn off : Nat) : Option Nat :=
  if fn ≠ 0 then (if 0x10 ≤ off && off ≤ 0x24 then some 0 else none)
  else if off = 0x16C then some (s.part.parts + 65536 * s.part.parts)
  else if off = 0x1A4 || off = 0x1B4 then some 0xF00000
  else if off = cfgRebar false then some (0x22 + 256 * (s.bar2Bits false - 20))
  else if off = cfgRebar true then some (0x22 + 256 * (s.bar2Bits true - 20))
  else (s.barAt off).map fun x => x.2.2

/-- A dword of a function's configuration space as it reads. -/
def State.cfgRead (s : State) (fn off : Nat) : Nat :=
  let m := if off = cfgRebar false || off = cfgRebar true then 0 else s.cfgMask fn off
  Nat.lor (Nat.land (s.cfgWord fn off) m) (Nat.land ((s.cfgGiven fn off).getD (Config.cfgWired fn off) % 2 ^ 32) (0xFFFFFFFF - m))

/-- Whether a write to a dword is taken: some bit of it can be written, and a size of BAR2 is one that the package offers. -/
def State.cfgTakes (s : State) (fn off v : Nat) : Bool :=
  s.cfgMask fn off != 0 && (!(fn == 0 && (off == cfgRebar false || off == cfgRebar true)) || rebarOk (fld v 8 6))

/-- Sends the pending vectors of a function that are open now (R487). -/
def State.sendPending (s : State) (fn : Nat) : State :=
  ((List.range 336).filter fun v => kvGet false s.hst.pba (512 * fn + v) && s.vectorOpen fn v).foldl (fun s v =>
    ({ s with hst := { s.hst with pba := kvSet false s.hst.pba (512 * fn + v) false } }).sendVector fn v) s

/-- A configuration request that is served. -/
def State.cfgServe (s : State) (fn off : Nat) (wr : Option W32) : State :=
  match wr with
  | none => s.emit (.cfgData fn off (BitVec.ofNat 32 (s.cfgRead fn off)))
  | some v =>
    if !s.cfgTakes fn off v.toNat then s
    else ({ s with hst := { s.hst with cfg := kvSet 0 s.hst.cfg (4096 * fn + off) (Nat.land v.toNat (s.cfgMask fn off)) } }).sendPending fn

/-- CONFIG_REQUEST: served, or answered with Request Retry Status until STAGE reaches DIES (R544). -/
def execConfigRequest (fn off : Nat) (wr : Option W32) (s : State) : Res :=
  onDie s 0 (
    if !s.linkUp || !s.fnOn fn || 4096 ≤ off then s
    else if s.stage_ < 2 || s.stage_ = 0xF then s.emit (.cfgRetry fn off)
    else s.cfgServe fn (off / 4 * 4) wr)

/-! ## The link -/

/-- Whether the host link is lost with die 0 (R19); a package only declared failed keeps it (R654). -/
def State.hostLost (s : State) : Bool := s.dieOut 0 && !s.rbit 0 Reg.rasStatus 3

/-- HOST_LINK_TRAIN: the link starts training once PERST_N is high and RG19 is out of reset (R544). -/
def execHostLinkTrain (s : State) : Res :=
  onDie s 0 (if s.rst.host || s.hostLost then s else { s with hst := { s.hst with training := true } })

/-- HOST_LINK_UP: a training link comes up at a rate and width of Table 15-1; at 64 GT/s it runs in FLIT mode (R478). -/
def execHostLinkUp (rate width : Nat) (flit memEn cacheEn : Bool) (s : State) : Res :=
  onDie s 0 (
    if !s.hst.training || s.rst.host || s.hostLost || rate = 0 || 6 < rate || !([1, 2, 4, 8, 16].contains width) || (rate = 6 && !flit) then s
    else s.setRf 0 Reg.hstStatus 0 12 (1 + 2 * rate + 16 * width + 512 * b2n flit + 1024 * b2n memEn + 2048 * b2n cacheEn))

/-- The link goes down: its status clears, and answers that device accesses wait for will not come (R489). -/
def State.hostDown (s : State) : State :=
  let s := s.setRf 0 Reg.hstStatus 0 12 0
  { s with hst := { s.hst with asked := [], answered := [] } }

/-- HOST_LINK_DOWN (R489, R539). -/
def execHostLinkDown (s : State) : Res := onDie s 0 s.hostDown

end Sys2Proof.Machine
end

