-- ==== Sys2Proof/Machine/Update.lean ====
section
/-! DEFINITION. The optimiser step: the ownership map (R205 to R207), rule records (R208, R209), the four rules (R215 to
R223) and UPDATE (R211 to R214, R218, R224, R225), and the replay of a stage (R226). -/

namespace Sys2Proof.Machine

/-! ## Matrices of FP32 words -/

/-- A matrix: its rows, each a list of FP32 words. -/
abbrev Mat := List (List Nat)

/-- The word at row i, column j. -/
def Mat.at (m : Mat) (i j : Nat) : Nat := (((m[i]?).getD [])[j]?).getD 0

/-- A matrix of a shape from its words, each with flags; the flags are joined. -/
def Mat.make (rows cols : Nat) (f : Nat → Nat → Nat × Nat) : Mat × Nat :=
  let m := (List.range rows).map fun i => (List.range cols).map fun j => f i j
  (m.map fun r => r.map Prod.fst, m.foldl (fun a r => r.foldl (fun b x => Nat.lor b x.2) a) 0)

/-- A matrix without flags. -/
def Mat.of (rows cols : Nat) (f : Nat → Nat → Nat) : Mat := (List.range rows).map fun i => (List.range cols).map fun j => f i j

/-- The transpose of a matrix of a shape. -/
def Mat.tr (m : Mat) (rows cols : Nat) : Mat := Mat.of cols rows fun i j => m.at j i

/-- A matrix with the flags raised so far. -/
abbrev Flagged (α : Type) := α × Nat

/-- The flush options of an entry's partition: bits of CNV_FTZ (Table 03-10). -/
structure Ftz where
  me  : Bool
  veI : Bool
  veO : Bool
  cnv : Bool
deriving DecidableEq, Repr

/-- The options that a descriptor latched. -/
def Work.ftzOpts (w : Work) : Ftz := ⟨Machine.bit w.ftz 0, Machine.bit w.ftz 1, Machine.bit w.ftz 2, Machine.bit w.ftz 3⟩

/-- FP32 multiplication on a vector engine. -/
def Ftz.mul (z : Ftz) : Nat → Nat → Nat × Nat := f32mul z.veI z.veO
/-- FP32 fused multiply-add. -/
def Ftz.fma (z : Ftz) : Nat → Nat → Nat → Nat × Nat := f32fma false z.veI z.veO
/-- FP32 subtraction. -/
def Ftz.sub (z : Ftz) : Nat → Nat → Nat × Nat := f32sub z.veI z.veO
/-- FP32 addition. -/
def Ftz.add (z : Ftz) : Nat → Nat → Nat × Nat := f32add z.veI z.veO
/-- RSQRT. -/
def Ftz.rsqrt (z : Ftz) : Nat → Nat × Nat := f32op1 rsqrtVal z.veI z.veO
/-- RCP. -/
def Ftz.rcp (z : Ftz) : Nat → Nat × Nat := f32op1 rcpVal z.veI z.veO

/-- A word stored as an FP32 element by an R57 conversion. -/
def Ftz.store (z : Ftz) (x : Nat) : Nat × Nat := convFloat fp32 ⟨.nearest, false, z.cnv, 0⟩ (fp32.decode x)

/-- A word stored in the product format: BF16 under MFMT = 1 and FP32 otherwise, as the FP32 word of the same value (R222). -/
def Ftz.prod (z : Ftz) (bf : Bool) (x : Nat) : Nat × Nat :=
  if bf then
    let (c, f) := convFloat bf16 ⟨.nearest, false, z.cnv, 0⟩ (fp32.decode x)
    (c * 65536, f)
  else z.store x

/-- Several results in a row: the word with all flags. -/
def chain (x : Nat × Nat) (f : Nat → Nat × Nat) : Nat × Nat := let y := f x.1; (y.1, Nat.lor x.2 y.2)

/-- The FP32 word −x. -/
def f32neg (x : Nat) : Nat := Nat.xor x (2 ^ 31)

/-- Applies an operation to every element. -/
def Mat.mapF (m : Mat) (f : Nat → Nat × Nat) : Mat × Nat :=
  let y := m.map fun r => r.map f
  (y.map fun r => r.map Prod.fst, y.foldl (fun a r => r.foldl (fun b x => Nat.lor b x.2) a) 0)

/-- The tree sum over a matrix tiled row-major: each strip's tree, strips in order within a tile and tiles in order
(R203, R215). It starts from +0. -/
def Ftz.treeTotal (z : Ftz) (m : Mat) (rows cols : Nat) : Nat × Nat :=
  let tc := (cols + 127) / 128
  (List.range ((rows + 127) / 128 * tc * 8)).foldl (fun (a : Nat × Nat) q =>
    let t := q / 8
    let i0 := t / tc * 128 + q % 8 * 16
    let j0 := t % tc * 128
    let l := (List.range lanes).map fun l =>
      let i := i0 + l / 128
      let j := j0 + l % 128
      (if i < rows && j < cols then some (m.at i j) else none, 0)
    match treeSum z.veI z.veO 11 l with
    | (none, _) => a
    | (some v, f) => let (r, g) := z.add a.1 v; (r, Nat.lor a.2 (Nat.lor f g))) (0, 0)

/-- The square of every element, for a tree sum. -/
def Ftz.squares (z : Ftz) (m : Mat) : Mat × Nat := m.mapF fun x => z.mul x x

/-- A matrix product on the matrix engines (R81 to R84, R141, R222): moving operand `x` (rows × kk) and stationary operand
`t` (cols × kk), both in the product format, each output reduced in groups of 32 and drained to FP32 with nearest-even.
`acc` is the incoming accumulator. `bf` says whether operands are BF16. -/
def Ftz.product (z : Ftz) (bf : Bool) (rows cols kk : Nat) (x t : Mat) (acc : Option Mat) : Mat × Nat :=
  let f := if bf then 1 else 0
  let val := fun (w : Nat) => dazVal z.me f (fp32.decode w)
  let ks := fun (g : Nat) => ((List.range 32).map (32 * g + ·)).filter fun k => k < kk
  let movZero := fun (b g : Nat) => (((List.range 32).map (32 * b + ·)).filter fun m => m < rows).all fun m =>
    (ks g).all fun k => (fp32.decode (x.at m k)).isZero
  let statZero := fun (n k : Nat) => (List.range 8).all fun i => (List.range 8).all fun j =>
    (fp32.decode (t.at (n / 8 * 8 + i) (k / 8 * 8 + j))).isZero
  Mat.make rows cols fun m n =>
    let start : Option Val × Nat := (acc.map fun a => (accRound (fp32.decode (a.at m n))).1, 0)
    let (p, fl) := (List.range ((kk + 31) / 32)).foldl (fun (a : Option Val × Nat) g =>
      let ps := if movZero (m / 32) g then [] else (ks g).filterMap fun k =>
        if statZero n k then none
        else
          let (u, fu) := val (x.at m k)
          let (v, fv) := val (t.at n k)
          let (w, fw) := mulVal u v
          some (w, Nat.lor fw (Nat.lor fu fv))
      let (v, fv) := groupSum ps
      match a.1 with
      | none => let (r, fr) := accRound v; (some r, Nat.lor a.2 (Nat.lor fv fr))
      | some q => let (r, fr) := accAdd q v; (some r, Nat.lor a.2 (Nat.lor fv fr))) start
    let (w, fw) := convFloat fp32 ⟨.nearest, false, z.cnv, 0⟩ (p.getD (.zero false))
    (w, Nat.lor fl fw)

/-- P · Q for P (rows × kk) and Q (kk × cols), both first written in the product format. -/
def Ftz.mm (z : Ftz) (bf : Bool) (rows cols kk : Nat) (p q : Mat) : Mat × Nat :=
  let (a, f) := p.mapF (z.prod bf)
  let (b, g) := q.mapF (z.prod bf)
  let (m, h) := z.product bf rows cols kk a (b.tr kk cols) none
  (m, Nat.lor f (Nat.lor g h))

/-! ## Ownership entries and rule records (Tables 07-3 and 07-4) -/

/-- An ownership entry. -/
structure Own where
  grad    : Nat
  weight  : Nat
  slots   : List Nat
  owner   : Nat
  valid   : Bool
  home    : Nat
  part    : Nat
  rows    : Nat
  cols    : Nat
  rule    : Nat
  scratch : Nat
  slen    : Nat
  rsvd    : Bool
deriving DecidableEq, Repr

/-- An ownership entry from its 64 bytes. -/
def Own.ofBytes (b : List Byte) : Own :=
  let o := leAt b 32 2
  let h := leAt b 34 1
  ⟨leAt b 0 4, leAt b 4 4, (List.range 6).map fun i => leAt b (8 + 4 * i) 4, o % 2 ^ 11, bit o 15, h % 8, h / 16,
    leAt b 36 2, leAt b 38 2, leAt b 40 6, leAt b 48 6, leAt b 56 4,
    fld o 11 4 != 0 || bit h 3 || leAt b 35 1 != 0 || leAt b 46 2 != 0 || leAt b 54 2 != 0 || leAt b 60 4 != 0⟩

/-- The address of an ownership entry. -/
def State.ownAddr (s : State) (d i : Nat) : Nat := s.regAddr d Reg.seqOwnBaseLo + 64 * i

/-- A rule record. -/
structure Rule where
  rule  : Nat
  clipM : Nat
  nonf  : Bool
  rnd   : Nat
  sat   : Bool
  bf    : Bool
  root2 : Bool
  ns    : Nat
  kf    : Nat
  wsrc  : Nat
  whist : Nat
  every : Nat
  lr    : Nat
  wd    : Nat
  b1    : Nat
  b2    : Nat
  eps   : Nat
  clip  : Nat
  gmul  : Nat
  gain  : Nat
  na    : Nat
  nb    : Nat
  nc    : Nat
  kfb   : Nat
  damp  : Nat
  rsvd  : Bool
deriving DecidableEq, Repr

/-- A rule record from its 64 bytes. -/
def Rule.ofBytes (b : List Byte) : Rule :=
  let x := leAt b 0 1
  let y := leAt b 1 1
  let z := leAt b 3 1
  ⟨x % 8, fld x 4 2, bit x 6, y % 4, bit y 2, bit y 3, bit y 4, leAt b 2 1 % 16, leAt b 2 1 / 16, z % 4, leAt b 4 2, leAt b 6 2,
    leAt b 8 4, leAt b 12 4, leAt b 16 4, leAt b 20 4, leAt b 24 4, leAt b 28 4, leAt b 32 4, leAt b 36 4, leAt b 40 4,
    leAt b 44 4, leAt b 48 4, leAt b 52 4, leAt b 56 4,
    bit x 3 || bit x 7 || y / 32 != 0 || z / 4 != 0 || leAt b 60 4 != 0⟩

/-- Whether an FP32 word is a number from 0 to `top`, `top` itself only when `incl`. -/
def unitOk (x top : Nat) (incl : Bool) : Bool :=
  match fp32.decode x with
  | .nan _ => false
  | v => !(v.lt (.zero false)) && (v.lt (fp32.decode top) || (incl && !((fp32.decode top).lt v)))

/-- Whether an FP32 word is finite. -/
def finiteOk (x : Nat) : Bool := x % 2 ^ 31 / 2 ^ 23 != 255

/-- Whether every field of a rule record lies in its range (Table 07-4). -/
def Rule.ok (r : Rule) : Bool :=
  let one := 0x3F800000
  !r.rsvd && decide (r.rule ≤ 3) && r.clipM != 3 && r.rnd != 3 && decide (r.ns ≤ 8) && r.wsrc != 3 && r.every != 0 &&
    unitOk r.lr one true && unitOk r.wd one true && unitOk r.b1 one false && unitOk r.b2 one false &&
    unitOk r.eps one true && decide (0x20000000 ≤ r.eps) && (r.clipM == 0 || goodScale r.clip) && finiteOk r.gmul &&
    finiteOk r.gain && unitOk r.kfb one false && goodScale r.damp

/-- State slots that a rule uses, each with its size in FP32 tiles (Table 07-5). -/
def Own.slotTiles (e : Own) (rule : Nat) : List Nat :=
  let a := (e.rows + 127) / 128
  let b := (e.cols + 127) / 128
  match rule with
  | 0 | 2 => [a * b, a * b]
  | 1 => [a * b, a * b, a * b]
  | _ => [a * b, a * b, a * a, b * b, a * a, b * b]

/-- Scratch that a rule uses, in FP32 tiles (Table 07-5). -/
def Own.scratchTiles (e : Own) (rule : Nat) : Nat :=
  let a := (e.rows + 127) / 128
  let b := (e.cols + 127) / 128
  let m := (Nat.min e.rows e.cols + 127) / 128
  match rule with
  | 2 => 3 * (a * b) + 2 * (m * m)
  | 3 => 4 * (a * b) + 3 * (a * a + b * b)
  | _ => 0

/-- The objects that an entry's update changes: the weight and the slots of its rule. -/
def Own.twins (e : Own) (rule : Nat) : List Nat := e.weight :: e.slots.take (e.slotTiles rule).length

/-- Bytes of an FP32 tile. -/
def tile32 : Nat := 65600

/-! ## UPDATE: fields and checks -/

/-- OWN of an UPDATE. -/
def Work.upOwn (w : Work) : Nat := w.f 8 4 % 2 ^ 20
/-- COUNT of an UPDATE. -/
def Work.upCount (w : Work) : Nat := w.f 8 4 / 2 ^ 20
/-- STEP of an UPDATE. -/
def Work.upStep (w : Work) : Nat := w.f 12 4
/-- LR_MULT of an UPDATE. -/
def Work.upMult (w : Work) : Nat := w.f 20 4

/-- The entry of an index, and its rule record (R212). -/
def State.ownEntry (s : State) (d i : Nat) : Own × Rule :=
  let e := Own.ofBytes (s.bytes (s.ownAddr d i) 64)
  (e, Rule.ofBytes (s.bytes e.rule 64))

/-- The ranges of one entry's update. -/
def State.ownRanges (s : State) (d : Nat) (e : Own) (r : Rule) : List Rng :=
  let n := (e.rows + 127) / 128 * ((e.cols + 127) / 128)
  let at_ := fun (o : Nat) => s.obj d (o % 2 ^ 20)
  [⟨e.rule, 64, false⟩, ⟨(at_ e.grad).base, n * tile32, false⟩, ⟨e.scratch, e.scratchTiles r.rule * tile32, true⟩] ++
    (e.twins r.rule).flatMap fun o =>
      let rec_ := at_ o
      [⟨rec_.base, rec_.len, false⟩, ⟨(s.twin d (o % 2 ^ 20)).shadow, rec_.len, true⟩]

/-- Whether an entry's staged update has not been resolved (R213). -/
def State.ownBusy (s : State) (i : Nat) : Bool := s.groups.any fun g => g.own.contains i

/-- What the checks of one entry find (R206, R207, R209, R371, R375, R376, R651). -/
def State.ownCodes (s : State) (w : Work) (i : Nat) : List Nat :=
  let d := w.die
  let (e, r) := s.ownEntry d i
  let tx := (e.rows + 127) / 128 * ((e.cols + 127) / 128)
  let small := Nat.min e.rows e.cols
  let used := (e.slotTiles r.rule).length
  let named := fun (o : Nat) => o != 0xFFFFFFFF
  let rec_ := fun (o : Nat) => s.obj d (o % 2 ^ 20)
  let objs := (e.grad :: e.twins r.rule).filter named
  if !inHbm s.part.dies (s.ownAddr d i) 64 then [2]
  else if !e.valid then [4]
  else
    [if e.owner == s.rf d Reg.seqOwnSelf 0 11 && e.part == w.part then 0 else 4,
     need (!e.rsvd && decide (1 ≤ e.rows) && decide (1 ≤ e.cols) && e.rule % 64 == 0 && e.scratch % 64 == 0 && decide (e.home < s.part.dies)),
     need ((e.grad :: e.weight :: e.slots).all fun o => !named o || o / 2 ^ 20 == 0),
     if ((e.twins r.rule).filter named).all fun o => s.twinIn d (o % 2 ^ 20) then 0 else 2,
     if objs.all fun o => (rec_ o).part == w.part then 0 else 4] ++
    (if mappedRange s.part.dies e.rule 64 then
      [need (r.ok && named e.grad && named e.weight && (e.slots.take used).all named && (e.slots.drop used).all fun o => !named o),
       need (e.slen * 64 == e.scratchTiles r.rule * tile32),
       need ((rec_ e.grad).len == tx * tile32 && ((e.slots.take used).zip (e.slotTiles r.rule)).all fun x => (rec_ x.1).len == x.2 * tile32),
       need (!mappedRange s.part.dies (rec_ e.weight).base 64 || (rec_ e.weight).len == tx * tileStride (s.hdr (rec_ e.weight).base).fmt),
       need (r.rule != 1 || w.upStep != 0), need (r.rule != 2 || decide (small ≤ 16384)),
       need (r.rule != 3 || (decide (e.rows ≤ 16384) && decide (e.cols ≤ 16384)))] ++
      (s.rangesCodes d w.part (s.ownRanges d e r)).map (fun c => if c = 4 then codeBarred else c) ++
      ((e.twins r.rule).filter named).map (fun o =>
        let t := s.twin d (o % 2 ^ 20)
        if t.staged && w.grp && t.group != w.group && (s.groupAt t.group).isSome then 255
        else if t.twin && !(rec_ o).clean then 0 else 5) ++
      (if r.wsrc = 0 then [] else s.scalingCodes w ⟨r.rnd, r.sat, r.wsrc, false, true, false, 0, 0x3F800000, r.whist⟩ (s.hdr (rec_ e.weight).base).fmt false) ++
      [s.pairCode w.die [e.home] (s.ownRanges d e r), if [0, 1].any fun v => s.veOwned e.home w.part v && s.veOn e.home v then 0 else 7,
       if r.rule < 2 || [0, 1, 2, 3].any fun m => s.meOwned e.home w.part m && s.meOn e.home m then 0 else 7]
    else [2])

/-! ## The rules -/

/-- What one entry's update computes: the new states in slot order (master first), and what it found. -/
structure Updated where
  slots : List Mat
  flags : Nat
  nonf  : Bool
deriving DecidableEq, Repr

/-- b^t by binary exponentiation from the most significant bit of t (R216); `n` bits left. -/
def Ftz.pow (z : Ftz) (b t : Nat) : Nat → Nat × Nat → Nat × Nat
  | 0, r => r
  | n + 1, r =>
    let r := chain r fun x => z.mul x x
    let r := if bit t n then chain r fun x => z.mul x b else r
    z.pow b t n r

/-- One as an FP32 word. -/
def w1 : Nat := 0x3F800000

/-- The gradient after GMUL and clipping (R215, R217). -/
def Ftz.clipped (z : Ftz) (r : Rule) (g : Mat) (rows cols : Nat) : Mat × Nat :=
  match r.clipM with
  | 1 =>
    let (a, f) := g.mapF fun x => z.mul x r.gmul
    let (q, fq) := z.squares a
    let (ss, fs) := z.treeTotal q rows cols
    let u := chain (chain (z.rsqrt ss) fun x => z.mul r.clip x) fun x => f32pick false true z.veI w1 x
    let gs := chain u fun x => z.mul r.gmul x
    let (m, fm) := g.mapF fun x => z.mul x gs.1
    (m, Nat.lor (Nat.lor f fq) (Nat.lor fs (Nat.lor gs.2 fm)))
  | 2 => g.mapF fun x =>
      chain (chain (z.mul x r.gmul) fun y => f32pick true false z.veI (f32neg r.clip) y) fun y => f32pick false false z.veI r.clip y
  | _ => g.mapF fun x => z.mul x r.gmul

/-- Elementwise over two matrices of a shape. -/
def map2 (rows cols : Nat) (a b : Mat) (f : Nat → Nat → Nat × Nat) : Mat × Nat :=
  Mat.make rows cols fun i j => f (a.at i j) (b.at i j)

/-- The Newton–Schulz iterations of ORTHO on x (rows × cols, rows ≤ cols), `n` left (R219 stage 3). Each iteration ends by
converting x to the product format; what the last one converts is read by nothing and leaves its flags. -/
def Ftz.newtonSchulz (z : Ftz) (bf : Bool) (a b c rows cols : Nat) : Nat → Mat × Nat → Mat × Nat
  | 0, (x, f) => (x, Nat.lor f (x.mapF (z.prod bf)).2)
  | n + 1, (x, f) =>
    let (xp, f1) := x.mapF (z.prod bf)
    let (am, f2) := z.product bf rows rows cols xp xp none
    let (ba, f3) := am.mapF fun y => z.mul b y
    let (bm, f4) :=
      if (fp32.decode c).isZero then (ba, 0)
      else
        let (aa, g) := z.mm bf rows rows rows am am
        let (m, h) := map2 rows rows aa ba fun u v => z.fma c u v
        (m, Nat.lor g h)
    let (bp, f5) := bm.mapF (z.prod bf)
    let (ax, f6) := x.mapF fun y => chain (z.mul a y) z.store
    let (y, f7) := z.product bf rows cols rows bp (xp.tr rows cols) (some ax)
    z.newtonSchulz bf a b c rows cols n (y, [f, f1, f2, f3, f4, f5, f6, f7].foldl Nat.lor 0)

/-- The orthogonalised momentum of ORTHO (R219 stages 2 to 4); all +0 when the momentum is. -/
def Ftz.ortho (z : Ftz) (r : Rule) (m : Mat) (rows cols : Nat) : Mat × Nat :=
  let (q, f0) := z.squares m
  let (ss, f1) := z.treeTotal q rows cols
  if (fp32.decode ss).isZero then (Mat.of rows cols fun _ _ => 0, Nat.lor f0 f1)
  else
    let dflt := (fp32.decode r.na).isZero && (fp32.decode r.nb).isZero && (fp32.decode r.nc).isZero
    let (a, b, c) := if dflt then (0x3FC00000, 0xBF000000, 0) else (r.na, r.nb, r.nc)
    let (k, f2) := z.rsqrt ss
    let (x, f3) := m.mapF fun y => chain (z.mul y k) z.store
    let tall := decide (cols < rows)
    let (h, wd) := if tall then (cols, rows) else (rows, cols)
    let x := if tall then x.tr rows cols else x
    let (y, f4) := z.newtonSchulz r.bf a b c h wd (if r.ns = 0 then 5 else r.ns) (x, 0)
    (if tall then y.tr h wd else y, [f0, f1, f2, f3, f4].foldl Nat.lor 0)

/-- The coupled Newton iterations of an inverse root: x, mm and flags, `n` left (R221). -/
def Ftz.rootIter (z : Ftz) (bf sq : Bool) (n : Nat) : Nat → Mat × Mat × Nat → Mat × Mat × Nat
  | 0, a => a
  | k + 1, (x, mm, f) =>
    let p1 := if sq then 0x40400000 else 0x40A00000
    let ip := if sq then 0x3F000000 else 0x3E800000
    let (t, f1) := Mat.make n n fun i j => chain (chain (z.sub (if i = j then p1 else 0) (mm.at i j)) fun y => z.mul y ip) z.store
    let (x, f2) := z.mm bf n n n x t
    let (t2, f3) := z.mm bf n n n t t
    let (tp, f4) := if sq then (t2, 0) else z.mm bf n n n t2 t2
    let (mm, f5) := z.mm bf n n n tp mm
    z.rootIter bf sq n k (x, mm, [f, f1, f2, f3, f4, f5].foldl Nat.lor 0)

/-- The inverse root of a factor of side n (R221). -/
def Ftz.inverseRoot (z : Ftz) (r : Rule) (f : Mat) (n : Nat) : Mat × Nat :=
  let (a, f0) := Mat.make n n fun i j => if i = j then z.add (f.at i j) r.damp else (f.at i j, 0)
  let (q, f1) := z.squares a
  let (ss, f2) := z.treeTotal q n n
  let zz := chain (z.rsqrt ss) fun y => z.mul ss y
  let k := chain zz z.rcp
  let (mm, f3) := a.mapF fun y => chain (z.mul y k.1) z.store
  let x0 := if r.root2 then chain zz z.rsqrt else chain (chain (chain zz z.rsqrt) fun y => z.mul zz.1 y) z.rsqrt
  let (x, f4) := Mat.make n n fun i j => chain (z.mul (if i = j then w1 else 0) x0.1) z.store
  let (y, _, f5) := z.rootIter r.bf r.root2 n (if r.kf = 0 then 8 else r.kf) (x, mm, 0)
  (y, [f0, f1, f2, f3, f4, f5, k.2, x0.2].foldl Nat.lor 0)

/-- One rule over the whole matrix, from the gradient and the committed state slots (R215 to R221). A stage that reads a state
value formed before it reads what the shadow holds, after the conversion that stored it. -/
def Ftz.runRule (z : Ftz) (r : Rule) (e : Own) (step mult : Nat) (g : Mat) (st : List Mat) : Updated :=
  let rows := e.rows
  let cols := e.cols
  let sl := fun (i : Nat) => (st[i]?).getD []
  let (lr, fl) := z.mul r.lr mult
  let (dk, fd) := z.fma (f32neg lr) r.wd w1
  let (gc, fg) := z.clipped r g rows cols
  let base := [fl, fd, fg]
  let keep := fun (s : Mat × Nat) => let (m, f) := s.1.mapF z.store; (m, Nat.lor s.2 f)
  let done := fun (slots : List (Mat × Nat)) (copied : List Mat) (fs : List Nat) =>
    let kept := slots.map keep
    let bad := fun (m : Mat) => m.any fun row => row.any fun x => !finiteOk x
    (⟨kept.map Prod.fst ++ copied, (fs ++ kept.map Prod.snd).foldl Nat.lor 0, bad gc || bad ((slots.map Prod.fst).headD [])⟩ : Updated)
  let (m, fm) := map2 rows cols (sl 1) gc fun a b => z.fma r.b1 a b
  let decayed := fun (x : Nat) => z.mul x dk
  match r.rule with
  | 0 =>
    let p := map2 rows cols (sl 0) m fun p m => chain (decayed p) fun q => z.fma (f32neg lr) m q
    done [p, (m, fm)] [] base
  | 1 =>
    let c1 := z.sub w1 r.b1
    let c2 := z.sub w1 r.b2
    let e2 := z.mul r.eps r.eps
    let k1 := chain (chain (z.pow r.b1 step 32 (w1, 0)) fun x => z.sub w1 x) z.rcp
    let k2 := chain (chain (z.pow r.b2 step 32 (w1, 0)) fun x => z.sub w1 x) z.rcp
    let (m, fm) := map2 rows cols (sl 1) gc fun a b => chain (z.mul c1.1 b) fun y => z.fma r.b1 a y
    let (v, fv) := map2 rows cols (sl 2) gc fun a b => chain (chain (z.mul c2.1 b) fun y => z.mul y b) fun y => z.fma r.b2 a y
    let p := Mat.make rows cols fun i j =>
      let q := decayed ((sl 0).at i j)
      let d := chain (z.fma (v.at i j) k2.1 e2.1) z.rsqrt
      let u := z.mul (m.at i j) k1.1
      let y := z.mul u.1 d.1
      let o := z.fma (f32neg lr) y.1 q.1
      (o.1, [q.2, d.2, u.2, y.2, o.2].foldl Nat.lor 0)
    done [p, (m, fm), (v, fv)] [] (base ++ [c1.2, c2.2, e2.2, k1.2, k2.2])
  | 2 =>
    let (m, fm) := keep (m, fm)
    let (x, fx) := z.ortho r m rows cols
    let s := z.mul (f32neg lr) r.gain
    let p := map2 rows cols (sl 0) x fun p x => chain (decayed p) fun q => z.fma s.1 x q
    done [p, (m, fm)] [] (base ++ [fx, s.2])
  | _ =>
    let (m, fm) := keep (m, fm)
    let (gp, f1) := gc.mapF (z.prod r.bf)
    let (pl, f2) := z.product r.bf rows rows cols gp gp none
    let gt := gp.tr rows cols
    let (pr, f3) := z.product r.bf cols cols rows gt gt none
    let k := z.sub w1 r.kfb
    let fac := fun (n : Nat) (f p : Mat) => map2 n n f p fun a b => chain (z.mul k.1 b) fun y => z.fma r.kfb a y
    let (lf, f4) := keep (fac rows (sl 2) pl)
    let (rf, f5) := keep (fac cols (sl 3) pr)
    let fresh := step % r.every = 0 || step = 1
    let (lt, f6) := if fresh then keep (z.inverseRoot r lf rows) else (sl 4, 0)
    let (rt, f7) := if fresh then keep (z.inverseRoot r rf cols) else (sl 5, 0)
    let (u1, f8) := z.mm r.bf rows cols rows lt m
    let (u, f9) := z.mm r.bf rows cols cols u1 rt
    let s := z.mul (f32neg lr) r.gain
    let p := map2 rows cols (sl 0) u fun p x => chain (decayed p) fun q => z.fma s.1 x q
    done [p] [m, lf, rf, lt, rt] (base ++ [fm, f1, f2, f3, f4, f5, f6, f7, k.2, f8, f9, s.2])

/-! ## Running an UPDATE -/

/-- A matrix of FP32 tiles laid row-major at an address, and whether any of its tiles is poisoned or fails its checksum. -/
def State.readMat (s : State) (a rows cols : Nat) : Mat × Bool × Bool :=
  let tc := (cols + 127) / 128
  let n := (rows + 127) / 128 * tc
  let bad := (List.range n).map fun t => s.tileBad (a + t * tile32)
  (Mat.of rows cols fun i j =>
    let t := a + (i / 128 * tc + j / 128) * tile32
    let h := s.hdr t
    if i % 128 < h.rows && j % 128 < h.cols && (!h.marked (i % 128) (j % 128) || (s.elemHeld t h (i % 128) (j % 128)).isZero) then s.code t 0 (128 * (i % 128) + j % 128) else 0,
   bad.any Prod.fst, bad.any Prod.snd)

/-- Whether every tile of a state matrix is an FP32 tile that a vector engine takes (R24, R138, R210). -/
def State.matOk (s : State) (a rows cols : Nat) : Bool :=
  (List.range ((rows + 127) / 128 * ((cols + 127) / 128))).all fun t =>
    s.tileOk (a + t * tile32) false && (s.hdr (a + t * tile32)).fmt == 0

/-- Writes a matrix as FP32 tiles of an object. -/
def State.writeMat (s : State) (a obj rows cols : Nat) (m : Mat) (poison : Bool) : State :=
  let tc := (cols + 127) / 128
  (List.range ((rows + 127) / 128 * tc)).foldl (fun s t =>
    let (i0, j0) := (t / tc * 128, t % tc * 128)
    let n : NewTile := ⟨0, Nat.min 128 (rows - i0), Nat.min 128 (cols - j0), 0x3F800000, none, obj, t, poison⟩
    let code := fun (q : Nat) => if q / 128 < n.rows && q % 128 < n.cols then m.at (i0 + q / 128) (j0 + q % 128) else 0
    s.writeTile (a + t * tile32) n code (fun _ => 0) none) s

/-- The shape of state slot `i` under a rule (R208): KRON's factors and roots are square. -/
def Own.slotShape (e : Own) (rule i : Nat) : Nat × Nat :=
  if rule = 3 && (i = 2 || i = 4) then (e.rows, e.rows)
  else if rule = 3 && (i = 3 || i = 5) then (e.cols, e.cols)
  else (e.rows, e.cols)

/-- Converts the new master into the WEIGHT shadow (R218): each tile in the format of the committed one, with no zero point unless
R184 allows one. `src` is the state before the update, and `key` the rounding key of HOME_DIE's converter. -/
def State.writeWeight (src : State) (w : Work) (key : Nat) (e : Own) (r : Rule) (master : Mat) (bad : Bool) (x : State × Tally) :
    State × Tally :=
  let d := w.die
  let o := e.weight % 2 ^ 20
  let rec_ := src.obj d o
  let sh := (src.twin d o).shadow
  let fmt := (src.hdr rec_.base).fmt
  let g : Scaling := ⟨r.rnd, r.sat, r.wsrc, false, r.wsrc != 0, false, 0, 0x3F800000, r.whist⟩
  let tc := (e.cols + 127) / 128
  let n := (e.rows + 127) / 128 * tc
  let mo := ((e.slots[0]?).getD 0) % 2 ^ 20
  let heads := (List.range n).map fun t => (x.1.hdr ((src.twin d mo).shadow + t * tile32)).amax
  let (ts, zp) := src.settle w g fmt (maxNat heads)
  let asym := (src.hist d g.hist).asym && g.histEn
  (List.range n).foldl (fun (x : State × Tally) t =>
    let (s, y) := x
    let h := src.hdr (rec_.base + t * tileStride fmt)
    let (i0, j0) := (t / tc * 128, t % tc * 128)
    let ts := if r.wsrc = 0 then (if usesScale fmt then h.ts else 0x3F800000) else ts
    let zp := if r.wsrc = 0 then none else zp
    let tile : NewTile := ⟨fmt, Nat.min 128 (e.rows - i0), Nat.min 128 (e.cols - j0), ts, zp, o, t, bad⟩
    let dst : Dest := ⟨fmt, ts, zp, (rndOf r.rnd).getD .nearest, r.sat, bit w.ftz 3, key, w.f 16 4⟩
    let v := convertTile dst tile asym false fun i j => fp32.decode (master.at (i0 + i) (j0 + j))
    (s.putTile (sh + t * tileStride fmt) tile v, { y with flags := Nat.lor y.flags v.flags, stats := y.stats.merge v.stats })) x

/-! ## The engines of an update (R223, R226) -/

/-- The row descriptors of one matrix-rule product: 4 × ceil(rows / 4,096) of them, each of an equal share of the rows rounded up
to a multiple of 128, the last with what is left; first row and rows of each. A share past the last row is empty (R223). -/
def productShares (rows : Nat) : List (Nat × Nat) :=
  let n := 4 * ((rows + 4095) / 4096)
  let each := ((rows + n - 1) / n + 127) / 128 * 128
  (List.range n).map fun i => (i * each, Nat.min each (rows - i * each))

/-- The engine that runs descriptor `i` of a product: `i` mod 4, and for a fenced engine's share the next remaining engine in the
same rotation (R223). -/
def shareEngine (live : List Nat) (i : Nat) : Option Nat :=
  if live.contains (i % 4) then some (i % 4)
  else ((List.range 4).map fun k => (i % 4 + 1 + k) % 4).find? fun e => live.contains e

/-- The matrix engines of a die that take work of a partition. -/
def State.liveMes (s : State) (d p : Nat) : List Nat := [0, 1, 2, 3].filter fun m => s.meOwned d p m && s.meOn d m

/-- The rows of the products of a rule (R219 to R222): those of x and of B for ORTHO, those of the factors for KRON. -/
def Own.productRows (e : Own) (r : Rule) : List Nat :=
  match r.rule with
  | 2 => [Nat.min e.rows e.cols]
  | 3 => [e.rows, e.cols]
  | _ => []

/-- The engines of HOME_DIE that an update's stages run on (RAS_UNIT numbers): both vector engines of the partition, and for a
matrix rule the matrix engines that have a share of a product. `v` is the vector engine that completes the entry. -/
def Own.units (e : Own) (s : State) (p : Nat) (r : Rule) (v : Nat) : List Nat :=
  let ves := ([0, 1].filter fun x => s.veOwned e.home p x && s.veOn e.home x).map (4 + ·)
  let live := s.liveMes e.home p
  let mes := (e.productRows r).flatMap fun n => (productShares n).zipIdx.filterMap fun x => if x.1.2 = 0 then none else shareEngine live x.2
  nub (mes ++ (4 + v) :: ves)

/-- The counters of an engine that ran stages of an update: cycles, passes, skips, strips and transcendentals, which hang on how the
sequencer cuts the stages into instructions and passes, each by a free number (log 69). -/
def State.stageCounts (s : State) (d u : Nat) : State :=
  if u < 4 then
    let s := (List.range 9).foldl (fun s i => s.bumpFree d (Reg.meCntLo u i)) s
    (s.bumpFree d (Reg.meSkipLo u 0)).bumpFree d (Reg.meSkipLo u 1)
  else (List.range 5).foldl (fun s i => s.bumpFree d (Reg.veCntLo (u - 4) i)) s

/-- What an UPDATE has found so far. -/
structure UpSt where
  s      : State
  done   : Nat
  status : Nat
  flags  : Nat
  poison : Bool
  crc    : Bool
  stop   : Bool

/-- Writes what a rule computed for entry `i` to the shadows of its slots, which its group stages, its scratch being used up. -/
def State.putSlots (s : State) (w : Work) (i : Nat) (e : Own) (r : Rule) (shapes : List (Nat × Nat × Nat)) (slots : List Mat) (bad : Bool) : State :=
  let t := if w.grp then (e.twins r.rule).foldl (fun s o => s.stage w.die (o % 2 ^ 20) w.group) s else s
  let t := if w.grp then { t with groups := mapIf (fun g => g.slot == w.group) (fun g => { g with own := addNew i g.own }) t.groups } else t
  let t := if e.scratchTiles r.rule = 0 then t else t.scramble e.scratch (e.scratchTiles r.rule * tile32)
  (shapes.zip slots).foldl (fun t x => t.writeMat (s.twin w.die x.1.1).shadow x.1.1 x.1.2.1 x.1.2.2 x.2 bad) t

/-- Writes the weight of an entry, `src` being the state before the entry and `t` the one with its slots written, and counts what its
engines did. -/
def State.putWeight (src t : State) (w : Work) (e : Own) (r : Rule) (slots : List Mat) (nonf bad : Bool) : State × Tally :=
  let (key, t) := if e.home = w.die then (w.srKey, t) else t.roundKey e.home w.part w.det
  let (t, y) := src.writeWeight w key e r (slots.headD []) bad (t, Tally.none)
  let g : Scaling := ⟨r.rnd, r.sat, r.wsrc, false, r.wsrc == 1, false, 0, 0, r.whist⟩
  let t := t.queueFold w g y.stats bad
  let v := (minBy (fun v => t.queued e.home (4 + v)) ([0, 1].filter fun v => t.veOwned e.home w.part v && t.veOn e.home v)).getD 0
  let t := (t.bump e.home (Reg.veCntLo v 5) 1).bump e.home (Reg.veCntLo v 6) (b2n nonf)
  let us := e.units src w.part r v
  let t := us.foldl (fun t u => t.stageCounts e.home u) t
  (t.modWork w.id fun x => { x with engine := some (4 + v), stages := x.stages ++ us.map fun u => (e.home, u) }, y)

/-- Runs the update of one entry (R212 to R225); a check that fails, or an input tile that is refused, ends the descriptor
there. `unit` is the vector engine of the entry's HOME_DIE that completes it. -/
def UpSt.entry (w : Work) (a : UpSt) (i : Nat) : UpSt :=
  let s := a.s
  let d := w.die
  let fail := fun (s : State) (c : Nat) => { a with s := s, status := if a.status = 0 then c else a.status, stop := true }
  if a.stop then a
  else
    let cs := s.ownCodes w i
    let c := lowest ((cs.filter (· ≠ 255)).map plainCode)
    if c ≠ 0 then fail (if c = 4 && cs.contains codeBarred then s.accessRefused w else s) c
    else
      let (e, r) := s.ownEntry d i
      let sl := (e.slots.take (e.slotTiles r.rule).length).map (· % 2 ^ 20)
      let base := fun (o : Nat) => (s.obj d o).base
      let shapes := sl.zipIdx.map fun o => (o.1, e.slotShape r.rule o.2)
      let wt := base (e.weight % 2 ^ 20)
      let fmt := (s.hdr wt).fmt
      let nt := (e.rows + 127) / 128 * ((e.cols + 127) / 128)
      let okIn := s.matOk (base (e.grad % 2 ^ 20)) e.rows e.cols && shapes.all fun o => s.matOk (base o.1) o.2.1 o.2.2
      let okW := (List.range nt).all fun t => s.tileOk (wt + t * tileStride fmt) false && (s.hdr (wt + t * tileStride fmt)).fmt == fmt
      if !okIn || !okW then fail s 3
      else
        let (gm, gp, gx) := s.readMat (base (e.grad % 2 ^ 20)) e.rows e.cols
        let ms := shapes.map fun o => s.readMat (base o.1) o.2.1 o.2.2
        let wb := (List.range nt).map fun t => s.tileBad (wt + t * tileStride fmt)
        let bad := gp || ms.any (fun m => m.2.1) || wb.any Prod.fst
        let crc := gx || ms.any (fun m => m.2.2) || wb.any Prod.snd
        let u := w.ftzOpts.runRule r e w.upStep w.upMult gm (ms.map Prod.fst)
        let (t, y) := s.putWeight (s.putSlots w i e r shapes u.slots bad) w e r u.slots u.nonf bad
        let st := if bad then 8 else if u.nonf && r.nonf then 9 else 0
        ⟨t, a.done + 1, if a.status = 0 then st else a.status, Nat.lor a.flags (Nat.lor u.flags y.flags), a.poison || bad, a.crc || crc, false⟩

/-- The ownership entries of an UPDATE. -/
def Work.upEntries (w : Work) : List Nat := (List.range w.upCount).map (w.upOwn + ·)

/-- The ranges that an UPDATE waits for when it starts: those of its entries. -/
def State.upRanges (s : State) (w : Work) (is : List Nat) : List Rng :=
  is.flatMap fun i => let (e, r) := s.ownEntry w.die i; if e.valid then s.ownRanges w.die e r else []

/-- The scratch areas of some entries, for the rules that use one. -/
def State.scratchOf (s : State) (d : Nat) (is : List Nat) : List (Nat × Nat) :=
  is.filterMap fun i =>
    let (e, r) := s.ownEntry d i
    let n := e.scratchTiles r.rule
    if e.valid && n != 0 then some (e.scratch, n * tile32) else none

/-- Whether an update that has started and not completed names one of this one's entries, or uses scratch that overlaps this one's
(R213, R214). -/
def State.upClash (s : State) (w : Work) : Bool :=
  let mine := s.scratchOf w.die w.upEntries
  s.seq.works.any fun v => v.kind == 0x14 && v.started && v.id != w.id && v.bytes != [] &&
    (w.upEntries.any (fun i => v.upEntries.contains i) ||
      (s.scratchOf v.die v.upEntries).any fun x => mine.any fun y => decide (x.1 < y.1 + y.2) && decide (y.1 < x.1 + x.2))

/-- The codes of an UPDATE (R211, R213, R214): its fields and its first entry; 255 while an entry is busy or held, or another update
is in its way. -/
def upCodes (s : State) (w : Work) : List Nat :=
  let d := w.die
  [need (w.zeroFrom 24 && w.upCount != 0 && finiteOk w.upMult && decide (w.upOwn + w.upCount ≤ s.rf d Reg.seqOwnCount 0 21)),
   if w.grp then (match s.groupAt w.group with | some g => need (decide (g.actions ≤ 4096)) | none => 0) else 0] ++
  (if w.upOwn + w.upCount ≤ s.rf d Reg.seqOwnCount 0 21 then
    s.ownCodes w w.upOwn ++
    [if s.upClash w || w.upEntries.any (fun i => s.ownBusy i || (s.ownCodes w i).contains 255) || (s.upRanges w w.upEntries).any (fun r => s.refetching r || s.measured r)
      then 255 else 0]
  else [])

/-- Runs an UPDATE that has started: its entries in increasing order. -/
def State.upBody (s : State) (w : Work) : State :=
  let u := w.upEntries.foldl (UpSt.entry w) ⟨s, 0, 0, 0, false, false, false⟩
  u.s.endWork w.id fun r =>
    { r with status := u.status, flags := Nat.lor r.flags u.flags, poison := r.poison || u.poison, checksum := r.checksum || u.crc, detail0 := u.done }

/-- UPDATE (R211). -/
def execUpdate (id : Nat) (s : State) : Res :=
  live s (s.begin id (fun w => w.kind == 0x14) noRanges upCodes State.upBody)

/-- Moves the stages of an update off one fenced engine: to a remaining engine of the kind in the partition on the die, which
writes the same bits, or, with none left, to the unavailable status (R226, R450). -/
def State.moveStage (w : Work) (s : State) (x : Nat × Nat) : State :=
  let (d, u) := x
  if !s.unitOut d u then s
  else
    let live := if u < 4 then s.liveMes d w.part else ([0, 1].filter fun v => s.veOwned d w.part v && s.veOn d v).map (4 + ·)
    let next := if u < 4 then shareEngine live u else minBy (s.queued d) live
    match next with
    | some v =>
      let s := s.modWork w.id fun y => { y with engine := if y.engine = some u && !(u < 4) then some v else y.engine, stages := nub (y.stages.map fun z => if z = x then (d, v) else z) }
      if u < 4 then s else s.bump d (Reg.veCntLo (v - 4) 7) 1
    | none => s.modWork w.id fun y => { y with stages := without x y.stages, res := { y.res with status := if y.res.status = 0 then 7 else y.res.status } }

/-- STAGE_REPLAY: fenced engines ran stages of this update. Each stage is issued again on the remaining engines of the kind on
HOME_DIE (R226). -/
def execStageReplay (id : Nat) (s : State) : Res :=
  live s (
    match s.work id with
    | some w => if w.kind ≠ 0x14 || !w.started then s else w.stages.foldl (State.moveStage w) s
    | none => s)

end Sys2Proof.Machine
end

