-- ==== Sys2Proof/Machine/Commit.lean ====
section
/-! DEFINITION. Layer commit (chapter 12): domains and hold entries, the vote of a group, the commit ring, buddy copies,
recovery, and the TWIN, REVERT, COMMIT, DOMAIN_SET, HOLD_SET and MANIFEST descriptors. -/

namespace Sys2Proof.Machine

/-! ## Domain records (Table 12-2) -/

/-- A domain record; `rsvd` says that a reserved field is not zero, `entries` holds the member entries that a DOMAIN_SET copied
with it. -/
structure DomRec where
  part    : Nat
  die     : Nat
  valid   : Bool
  n       : Nat
  rank    : Nat
  gen     : Nat
  buddy   : Nat
  pushes  : Bool
  members : Nat
  next    : Nat
  done    : Nat
  broken  : Bool
  rsvd    : Bool
  entries : Option (List Byte)
deriving DecidableEq, Repr

/-- A domain record from its 64 bytes. -/
def DomRec.ofBytes (b : List Byte) : DomRec :=
  let b0 := leAt b 0 1
  let n := leAt b 1 2
  let r := leAt b 3 2
  let h := leAt b 6 2
  ⟨b0 % 16, fld b0 4 3, bit b0 7, n % 4096, r % 2048, leAt b 5 1, h % 2048, bit h 15, leAt b 8 6, leAt b 16 4, leAt b 20 4,
    bit (leAt b 24 1) 0, n / 4096 != 0 || r / 2048 != 0 || fld h 11 4 != 0 || leAt b 14 2 != 0 || leAt b 24 1 / 2 != 0 || leAt b 25 39 != 0, none⟩

/-- The address of a domain record. Every die holds the same table (R380). -/
def State.domAddr (s : State) (m : Nat) : Nat := s.regAddr 0 Reg.cmtDomBaseLo + 64 * m

/-- Whether a domain record lies in the HBM that the part has (R651). -/
def State.domIn (s : State) (m : Nat) : Bool := inHbm s.part.dies (s.domAddr m) 64

/-- CMT_DOM_COUNT. -/
def State.domCount (s : State) : Nat := s.rf 0 Reg.cmtDomCount 0 4

/-- A domain record; not in use outside the table or the HBM. -/
def State.domRec (s : State) (m : Nat) : DomRec :=
  if decide (m < s.domCount) && s.domIn m then
    { DomRec.ofBytes (s.bytes (s.domAddr m) 64) with entries := kvFind s.whl.entries (s.domAddr m) }
  else DomRec.ofBytes []

/-- The member entry of a rank: as DOMAIN_SET copied it (R381), and in memory for a template and for a record that no DOMAIN_SET
wrote. -/
def State.domMember (s : State) (r : DomRec) (k : Nat) : Member :=
  match r.entries with
  | some b => Member.ofBytes ((b.drop (8 * k)).take 8)
  | none => Member.ofBytes (s.bytes (r.members + 8 * k) 8)

/-- A domain with nothing under way. -/
def Dom.idle (m : Nat) : Dom := ⟨m, [], 0, [], [], [], false, false, none, false, [], [], []⟩

/-- The state of a domain beyond its record. -/
def State.dom (s : State) (m : Nat) : Dom := (s.doms.find? fun x => x.dom == m).getD (Dom.idle m)

/-- Changes the state of a domain. -/
def State.modDom (s : State) (m : Nat) (f : Dom → Dom) : State :=
  let is := fun (x : Dom) => x.dom == m
  if s.doms.any is then { s with doms := mapIf is f s.doms } else { s with doms := s.doms ++ [f (Dom.idle m)] }

/-- Counts in the commit block of a die (Table 12-10). -/
def State.cmtCount (s : State) (d i n : Nat) : State := s.bump d (Reg.cmtCntLo i) n

/-- Sends a commit frame of a domain to a member (R383). -/
def State.cmtSend (s : State) (m dest : Nat) (f : CommitFrame) : State :=
  let r := s.domRec m
  let e := s.domMember r dest
  let f := { f with domain := m, gen := r.gen, srcRank := r.rank, dstXyz := e.xyz, srcXyz := s.selfXyz }
  let prio := if f.kind = 2 then s.rf r.die Reg.cmtCtrl 1 3 else 7
  if e.side then s.sendSide prio e.mac (.commit f) else s.sendRouted prio none (.commit f)

/-! ## Groups -/

/-- Changes a commit group. -/
def State.modGroup (s : State) (slot : Nat) (f : Group → Group) : State :=
  { s with groups := mapIf (fun g => g.slot == slot) f s.groups }

/-- The group of commit `k` of a domain, once its COMMIT has started here. -/
def State.groupOf (s : State) (m k : Nat) : Option Group := s.groups.find? fun g => g.commit.isSome && g.dom == m && g.k == k

/-- Whether an action of a group has not completed. -/
def State.groupActs (s : State) (slot : Nat) : Bool := s.seq.works.any fun w => w.grp && w.group == slot && w.kind != 0x3A && !w.again

/-- The twins that a group has staged. -/
def State.groupTwins (s : State) (slot : Nat) : List Nat :=
  (List.range' 0 (2 ^ 20)).filter fun o => (s.twin 0 o).staged && (s.twin 0 o).group == slot

/-- The twins that a group pushes to its buddy holder (R389, R392). -/
def State.pushTwins (s : State) (g : Group) : List Nat :=
  if g.dom = 0xF || !(s.domRec g.dom).pushes || (s.dom g.dom).noHolder then []
  else (s.groupTwins g.slot).filter fun o => (s.twin 0 o).buddy

/-- Whether a group's vote is ready: closed, every action completed, every push accepted or failed (R378). -/
def State.voteReady (s : State) (g : Group) : Bool :=
  g.closed && g.commit.isSome && g.vote == 0 && !s.groupActs g.slot &&
    (s.pushTwins g).all fun o => g.pushes.any fun x => x.obj == o && decide (2 ≤ x.st)

/-- Commits a group: BASE and SHADOW of each twin are exchanged (R372). Answers how many, and whether a copy now in force carries
poison (R379). -/
def State.commitGroup (s : State) (slot : Nat) : Nat × Bool × State :=
  let os := s.groupTwins slot
  let s' := os.foldl (fun s o =>
    let t := s.twin 0 o
    let base := (s.obj 0 o).base
    (s.setObjBase 0 o t.shadow).setTwin 0 o { t with shadow := base, staged := false, prev := !t.revert, revert := false }) s
  (os.length, os.any fun o => s'.tagged (s'.obj 0 o).base (s'.obj 0 o).len, s')

/-- Aborts a group: each of its twins is no longer staged, and the contents of its shadow are not defined (R373). -/
def State.abortGroup (s : State) (slot : Nat) : State :=
  (s.groupTwins slot).foldl (fun s o =>
    let t := s.twin 0 o
    (s.scramble t.shadow (s.obj 0 o).len).setTwin 0 o { t with staged := false, revert := false }) s

/-- Resolves a group and ends its COMMIT (R385, Table 13-6). The ownership entries that its updates kept busy are busy no
longer (R213). -/
def State.resolve (s : State) (g : Group) (d : Nat) (x : Verdict) : State :=
  let yes := x.v == 1
  let (n, bad, s) := if yes then s.commitGroup g.slot else (0, false, s.abortGroup g.slot)
  let s := s.modGroup g.slot fun g => { g with own := [] }
  let s := s.cmtCount d (if yes then 0 else 1) 1
  let s := s.cmtCount d 3 n
  let detail1 := x.cause + 256 * x.rank + 524288 * b2n yes + 2 ^ 32 * n
  s.endWork (g.commit.getD 0) fun c =>
    { c with status := if yes then 0 else 0x0C, poison := bad, degraded := g.dom != 0xF && (s.dom g.dom).noHolder, detail0 := if g.dom = 0xF then 0 else x.k, detail1 := detail1 }

/-! ## Hold entries (Table 12-5) -/

/-- A hold entry; `rsvd` says that a reserved field is not zero. -/
structure Hold where
  side0   : Nat
  side1   : Nat
  len     : Nat
  valid   : Bool
  side    : Bool
  staged  : Bool
  prev    : Bool
  revert  : Bool
  part    : Nat
  dom     : Nat
  partner : Nat
  stage   : Nat
  rsvd    : Bool
deriving DecidableEq, Repr

/-- A hold entry from its 32 bytes. -/
def Hold.ofBytes (b : List Byte) : Hold :=
  let f := leAt b 22 1
  let p := leAt b 24 2
  ⟨leAt b 0 6, leAt b 8 6, leAt b 16 6, bit f 0, bit f 1, bit f 2, bit f 3, bit f 4, leAt b 23 1 % 16, leAt b 23 1 / 16, p % 2048, leAt b 28 4,
    leAt b 6 2 != 0 || leAt b 14 2 != 0 || f / 32 != 0 || p / 2048 != 0 || leAt b 26 2 != 0⟩

/-- The bytes of a hold entry. -/
def Hold.bytes (h : Hold) : List Byte :=
  natLe 6 h.side0 ++ natLe 2 0 ++ natLe 6 h.side1 ++ natLe 2 0 ++ natLe 6 h.len ++
    natLe 1 (b2n h.valid + 2 * b2n h.side + 4 * b2n h.staged + 8 * b2n h.prev + 16 * b2n h.revert) ++
    natLe 1 (h.part + 16 * h.dom) ++ natLe 2 h.partner ++ natLe 2 0 ++ natLe 4 h.stage

/-- The address of a hold entry. -/
def State.holdAddr (s : State) (h : Nat) : Nat := s.regAddr 0 Reg.cmtHoldBaseLo + 32 * h

/-- CMT_HOLD_COUNT. -/
def State.holdCount (s : State) : Nat := s.rf 0 Reg.cmtHoldCount 0 17

/-- Whether a hold entry lies in the HBM that the part has (R651). -/
def State.holdIn (s : State) (h : Nat) : Bool := inHbm s.part.dies (s.holdAddr h) 32

/-- A hold entry; not in use outside the table or the HBM. -/
def State.hold (s : State) (h : Nat) : Hold :=
  if decide (h < s.holdCount) && s.holdIn h then Hold.ofBytes (s.bytes (s.holdAddr h) 32) else Hold.ofBytes []

/-- Writes a hold entry. -/
def State.setHold (s : State) (h : Nat) (x : Hold) : State := s.write (s.holdAddr h) x.bytes

/-- Applies a decision to the hold entries staged under it (R391). -/
def State.applyHolds (s : State) (m : Nat) (x : Verdict) : State :=
  ((List.range s.holdCount).filter fun i => let h := s.hold i; h.valid && h.staged && h.dom == m && h.stage == x.k).foldl (fun s i =>
    let h := s.hold i
    s.setHold i (if x.v = 1 then { h with side := !h.side, staged := false, prev := !h.revert, revert := false }
      else { h with staged := false, revert := false })) s

/-! ## Applying decisions (R385) -/

/-- Takes a decision on a domain's commit, once. -/
def State.decide_ (s : State) (m : Nat) (x : Verdict) : State :=
  let y := s.dom m
  if x.k < (s.domRec m).done || y.decided.any fun v => v.k == x.k then s
  else s.modDom m fun y => { y with decided := y.decided ++ [x] }

/-- A recovery REPORT of one commit (R394). -/
def reportFrame (x : Verdict) : CommitFrame :=
  { CommitFrame.bare 6 0 0 with verdict := x.v, commit := x.k, causeRank := x.rank, cause := x.cause }

/-- Applies the domain's decisions in increasing number, as long as the next one is known and its group's actions have
completed. After a query each is reported to the leader. -/
def State.applyLoop (m : Nat) : Nat → State → State
  | 0, s => s
  | fuel + 1, s =>
    let r := s.domRec m
    match (s.dom m).decided.find? fun v => v.k == r.done with
    | none => s
    | some x =>
      let g := s.groupOf m x.k
      if match g with | some g => s.groupActs g.slot | none => false then s
      else
        let s := match g with
          | some g => s.resolve g r.die x
          | none => s
        let s := s.applyHolds m x
        let s := s.writeN (s.domAddr m + 20) 4 (r.done + 1)
        let s := s.modDom m fun y =>
          { y with decided := y.decided.filter (fun v => v.k != x.k), applied := y.applied ++ [x], prepared := y.prepared.filter (fun v => v.k != x.k), stalled := y.stalled.filter (fun z => z.2 != x.k) }
        let s := match (s.dom m).leader with
          | some l => s.cmtSend m l (reportFrame x)
          | none => s
        State.applyLoop m fuel s

/-- A group's own verdict, as a member of rank `rank`. -/
def Group.verdict (g : Group) (rank : Nat) : Verdict := ⟨g.k, g.vote, if g.vote = 2 then rank else 0, if g.vote = 2 then g.cause else 0⟩

/-- A PREPARE or DECIDE frame with a verdict. -/
def voteFrame (kind : Nat) (x : Verdict) : CommitFrame :=
  { CommitFrame.bare kind 0 0 with verdict := x.v, commit := x.k, causeRank := x.rank, cause := x.cause }

/-- Rank 0 sends the PREPAREs whose turn and vote have come; a domain of one member decides at once (R384, R385). -/
def State.sendPrepares (m : Nat) : Nat → State → State
  | 0, s => s
  | fuel + 1, s =>
    let r := s.domRec m
    let y := s.dom m
    match s.groupOf m y.sent with
    | none => s
    | some g =>
      if g.vote = 0 then s
      else
        let x := g.verdict 0
        let s := s.modDom m fun y => { y with sent := y.sent + 1 }
        State.sendPrepares m fuel (if r.n = 1 then s.decide_ m x else s.cmtSend m 1 (voteFrame 0 x))

/-- Another rank forwards the PREPAREs it holds: an abort once its own COMMIT has started, a yes once its own vote is ready, with
that vote (R384). -/
def State.forwardPrepares (s : State) (m : Nat) : State :=
  let r := s.domRec m
  (s.dom m).prepared.foldl (fun s x =>
    match s.groupOf m x.k with
    | none => s
    | some g =>
      if x.v = 1 && g.vote = 0 then s
      else
        let out := if x.v = 1 then g.verdict r.rank else x
        (s.modDom m fun y => { y with prepared := y.prepared.filter fun v => v.k != x.k }).cmtSend m ((r.rank + 1) % Nat.max 1 r.n) (voteFrame 0 out)) s

/-- Moves a domain's ring on as far as it can go, and applies what is decided. -/
def State.domStep (s : State) (m : Nat) : State :=
  let r := s.domRec m
  let s := if (s.dom m).stopped || r.broken then s
    else if r.rank = 0 then State.sendPrepares m (s.groups.length + 1) s else s.forwardPrepares m
  State.applyLoop m ((s.dom m).decided.length + 1) s

/-- The vote of a group becomes final once it is ready (R378). A local commit resolves on it (R377). -/
def State.voteGroup (s : State) (g : Group) : State :=
  if !s.voteReady g then s
  else
    let refused := g.cause == 3 || g.pushes.any fun x => x.st == 3
    let g := { g with vote := if g.failed || refused then 2 else 1, cause := if g.failed then 1 else if refused then 3 else 0 }
    let s := s.modGroup g.slot fun _ => g
    if g.dom = 0xF then
      match s.work (g.commit.getD 0) with
      | some w => s.resolve g w.die (g.verdict 0)
      | none => s
    else s.domStep g.dom

/-- VOTE_READY (R377, R378, R384). -/
def execVoteReady (group : Nat) (s : State) : Res :=
  live s (match s.groupAt group with | some g => s.voteGroup g | none => s)

/-! ## Commit frames -/

/-- A commit frame that arrives at die `d`: dropped and counted there while the commit logic is off and when its kind is reserved
or its VER is not 0b01, taken from the sequenced link, forwarded when it is for another coordinate, dropped and counted at the
domain's die (at this die if the domain is not known) when its generation is not this member's or its sender is lost, and else
acted on (R383, R393). -/
def State.cmtIn (s : State) (d : Nat) (f : CommitFrame) (act : State → DomRec → State) : State :=
  let s := s.takeRx d 0x88B7
  if !s.rbit d Reg.cmtCtrl 0 || 9 ≤ f.kind || f.ver ≠ 1 then s.cmtCount d 7 1
  else if !s.carries d (.commit f) then s
  else
    let (ok, s) := s.linkTake d 2 f.seq f.ack
    if !ok then s
    else if d < s.part.torusPorts && f.dstXyz ≠ s.selfXyz then
      (s.bump d (Reg.whlCntLo 3) 1).sendRouted (if f.kind = 2 then s.rf d Reg.cmtCtrl 1 3 else 7) (some d) (.commit f)
    else
      let r := s.domRec f.domain
      if !r.valid then s.cmtCount d 7 1
      else if s.dieOut r.die || s.cutPair d r.die then s
      else if f.gen ≠ r.gen || !s.rbit r.die Reg.cmtCtrl 0 || (s.dom f.domain).lost.contains f.srcRank then s.cmtCount r.die 7 1
      else act s r

/-- The verdict that a frame carries. -/
def frameVerdict (f : CommitFrame) : Verdict := ⟨f.commit, f.verdict, f.causeRank, f.cause⟩

/-- A PREPARE: at rank 0 it is the decision, elsewhere it waits for this member's vote (R384). -/
def State.prepareIn (s : State) (f : CommitFrame) (r : DomRec) : State :=
  let m := f.domain
  let x := frameVerdict f
  if (s.dom m).stopped || r.broken then s
  else if r.rank = 0 then ((s.cmtSend m (1 % Nat.max 1 r.n) (voteFrame 1 x)).decide_ m x).domStep m
  else if (s.dom m).prepared.any fun v => v.k == x.k then s
  else (s.modDom m fun y => { y with prepared := y.prepared ++ [x] }).domStep m

/-- PREPARE_FRAME (R384). -/
def execPrepareFrame (d : Nat) (f : CommitFrame) (s : State) : Res :=
  onDie s d (s.cmtIn d { f with kind := if 9 ≤ f.kind then f.kind else 0 } fun s r => s.prepareIn f r)

/-- A DECIDE: from the ring it is forwarded and applied; once the ring has stopped only the leader's own is (R384, R394). -/
def State.decideIn (s : State) (f : CommitFrame) (r : DomRec) : State :=
  let m := f.domain
  let x := frameVerdict f
  let y := s.dom m
  if y.stopped || r.broken then
    if y.leader = some f.srcRank then (s.decide_ m x).domStep m else s
  else
    let s := if r.rank + 1 < r.n then s.cmtSend m (r.rank + 1) (voteFrame 1 x) else s
    (s.decide_ m x).domStep m

/-- DECIDE_FRAME (R385). -/
def execDecideFrame (d : Nat) (f : CommitFrame) (s : State) : Res :=
  onDie s d (s.cmtIn d { f with kind := 1 } fun s r => s.decideIn f r)

/-- CMT_LINK_ACK (R383). -/
def execCmtLinkAck (d : Nat) (f : CommitFrame) (s : State) : Res :=
  onDie s d (let s := s.takeRx d 0x88B7; if s.rbit d Reg.cmtCtrl 0 then s.linkAckIn d 2 f.ack else s.cmtCount d 7 1)

/-- CMT_LINK_NAK (R383). -/
def execCmtLinkNak (d : Nat) (f : CommitFrame) (s : State) : Res :=
  onDie s d (let s := s.takeRx d 0x88B7; if s.rbit d Reg.cmtCtrl 0 then s.linkNakIn d 2 f.ack else s.cmtCount d 7 1)

/-- CMT_REPLAY_TIMEOUT (R282, R383). -/
def execCmtReplayTimeout (d : Nat) (s : State) : Res := onDie s d (s.linkResend d 2)

/-- CMT_ACK_TIMER (R383). -/
def execCmtAckTimer (d : Nat) (s : State) : Res := onDie s d (s.linkAckTimer d 2)

/-- CMT_NAK_RESEND (R383). -/
def execCmtNakResend (d : Nat) (s : State) : Res := onDie s d (s.linkNakTimer d 2)

/-! ## Buddy copies (R388 to R392) -/

/-- Whether an accepted action names object `o` and has not completed. -/
def State.actionOn (s : State) (slot o : Nat) : Bool :=
  s.seq.works.any fun w => w.grp && w.group == slot &&
    (match w.kind with
      | 0x01 => w.f 24 4 == o
      | 0x11 => w.f 48 4 == o
      | 0x10 => w.f 50 4 == o
      | 0x30 => w.f 28 4 == o
      | 0x39 => w.f 8 4 == o
      | 0x14 => w.upEntries.any fun i => let e := s.ownEntry w.die i; (e.1.twins e.2.rule).contains o
      | _ => false)

/-- Whether the route to the holder carries push frames (R389). -/
def State.pushRoute (s : State) (e : Member) : Bool :=
  if e.side then decide (8256 ≤ s.ethMaxfrm s.sidePort)
  else match s.route e.xyz with
    | some (some role) => decide (8256 ≤ s.ethMaxfrm role)
    | _ => false

/-- Starts the push of a staged twin (R389). -/
def State.startPush (s : State) (g : Group) (o : Nat) : State :=
  let r := s.domRec g.dom
  let t := s.twin 0 o
  if !g.closed || g.commit.isNone || s.actionOn g.slot o || !(s.pushTwins g).contains o || g.pushes.any (fun x => x.obj == o) then s
  else
    let ok := s.pushRoute (s.domMember r r.buddy)
    let s := s.modGroup g.slot fun g => { g with pushes := g.pushes ++ [(⟨o, t.revert, if ok then 1 else 3⟩ : Push)] }
    if !ok then s
    else if t.revert then s.cmtSend g.dom r.buddy { CommitFrame.bare 3 0 0 with commit := g.k, hold := t.hold }
    else
      let len := (s.obj 0 o).len
      let s := s.cmtCount r.die 4 (len / 64)
      (List.range ((len + 8191) / 8192)).foldl (fun s i =>
        let off := 8192 * i
        let n := Nat.min 8192 (len - off)
        s.cmtSend g.dom r.buddy { CommitFrame.bare 2 0 0 with commit := g.k, hold := t.hold, offset := off, poison := s.tagged (t.shadow + off) n, payload := s.bytes (t.shadow + off) n }) s

/-- BUDDY_PUSH_START (R389). -/
def execBuddyPushStart (group obj : Nat) (s : State) : Res :=
  live s (match s.groupAt group with | some g => s.startPush g obj | none => s)

/-- A push frame at the holder: refused, or staged and placed; the last one is answered (R390). -/
def State.pushIn (s : State) (f : CommitFrame) (r : DomRec) : State :=
  let h := s.hold f.hold
  let rev := f.kind == 3
  let answer := fun (s : State) (v : Nat) => s.cmtSend f.domain f.srcRank { CommitFrame.bare 4 0 0 with verdict := v, commit := f.commit, hold := f.hold }
  if !h.valid || h.dom ≠ f.domain || h.partner ≠ f.srcRank || h.len < f.offset + f.payload.length || (h.staged && h.stage ≠ f.commit) ||
      (rev && !h.prev) then answer s 2
  else
    let h := if h.staged then h else { h with staged := true, stage := f.commit, prev := h.prev && rev, revert := rev }
    let s := s.setHold f.hold h
    if rev then answer s 1
    else
      let a := (if h.side then h.side0 else h.side1) + f.offset
      let s := (s.write a f.payload f.poison).cmtCount r.die 5 (f.payload.length / 64)
      if f.offset + f.payload.length = h.len then answer s 1 else s

/-- PUSH_FRAME (R390). -/
def execPushFrame (d : Nat) (f : CommitFrame) (s : State) : Res :=
  onDie s d (s.cmtIn d { f with kind := 2 } fun s r => s.pushIn { f with kind := 2 } r)

/-- PUSH_REVERT_FRAME (R390). -/
def execPushRevertFrame (d : Nat) (f : CommitFrame) (s : State) : Res :=
  onDie s d (s.cmtIn d { f with kind := 3 } fun s r => s.pushIn { f with kind := 3 } r)

/-- PUSH_ACK_FRAME: the push is accepted, or has failed (R378, R392). -/
def execPushAckFrame (d : Nat) (f : CommitFrame) (s : State) : Res :=
  onDie s d (s.cmtIn d { f with kind := 4 } fun s r =>
    match s.groupOf f.domain f.commit with
    | some g =>
      if f.srcRank ≠ r.buddy then s
      else
        let hit := fun (x : Push) => x.st == 1 && (s.twin 0 x.obj).hold == f.hold
        s.modGroup g.slot fun g => { g with pushes := mapIf hit (fun x => { x with st := if f.verdict = 1 then 2 else 3 }) g.pushes }
    | none => s)

/-! ## Recovery (R393, R394) -/

/-- The survivors of a domain other than this member. -/
def State.survivors (s : State) (m : Nat) : List Nat :=
  let r := s.domRec m
  (List.range r.n).filter fun k => k != r.rank && !(s.dom m).lost.contains k

/-- Sends a QUERY with this member's DONE to some survivors. -/
def State.sendQueries (s : State) (m : Nat) (dest : List Nat) : State :=
  dest.foldl (fun s k => s.cmtSend m k { CommitFrame.bare 5 0 0 with commit := (s.domRec m).done }) s

/-- The verdict that a member has applied for commit `k`: 0 none. -/
def Dom.appliedV (y : Dom) (k : Nat) : Nat := ((y.applied.find? fun v => v.k == k).map fun v => v.v).getD 0

/-- The verdict that survivor `q` reported for commit `k`. -/
def Dom.reported (y : Dom) (q k : Nat) : Nat := ((y.reports.find? fun x => x.1 == q && x.2.1 == k).map fun x => x.2.2).getD 0

/-- Once every survivor has reported, the leader decides each commit that some survivor has not applied, tells each of those
directly, and applies it itself; recovery ends when all have applied all (R394). A report of 3 stands for a survivor told. -/
def State.leadOnce (s : State) (m : Nat) : State :=
  let y := s.dom m
  let r := s.domRec m
  let qs := s.survivors m
  if !y.leads || qs.any fun q => (kvFind y.ends q).isNone then s
  else
    let top := maxNat (r.next :: qs.map fun q => kvGet 0 y.ends q)
    let low := leastOf (r.done :: (y.reports.map fun x => x.2.1))
    let ks := (List.range (top - low)).map (low + ·)
    let has := fun (q k : Nat) => y.reported q k == 1 || y.reported q k == 2
    let open_ := ks.filter fun k => y.appliedV k == 0 || qs.any fun q => !has q k
    if open_.isEmpty then s.modDom m fun y => { y with leads := false, stalled := [] }
    else
      let s := open_.foldl (fun s k =>
        let yes := qs.any fun q => y.reported q k == 1
        let x : Verdict := ((y.applied ++ y.decided).find? fun v => v.k == k).getD (if yes then ⟨k, 1, 0, 0⟩ else ⟨k, 2, leastOf y.lost, 2⟩)
        let s := (qs.filter fun q => y.reported q k == 0).foldl (fun s q =>
          (s.modDom m fun y => { y with reports := y.reports.filter (fun z => !(z.1 == q && z.2.1 == k)) ++ [(q, k, 3)] }).cmtSend m q (voteFrame 1 x)) s
        s.decide_ m x) s
      State.applyLoop m ((s.dom m).decided.length + 1) s

/-- Leads a recovery on: what is decided may already be applied. -/
def State.leadOn (s : State) (m : Nat) : State := (s.leadOnce m).leadOnce m

/-- This member stops acting on the ring's frames and leads the recovery where it is the survivor of lowest rank (R394). -/
def State.startRecovery (s : State) (m : Nat) : State :=
  let r := s.domRec m
  let qs := s.survivors m
  let s := s.modDom m fun y => { y with stopped := true, prepared := [], decided := y.decided.filter fun v => v.cause == 2, reports := [], ends := [], leads := false }
  if qs.any fun q => decide (q < r.rank) then s
  else
    let s := (s.modDom m fun y => { y with leads := true, leader := none }).cmtCount r.die 2 1
    (s.sendQueries m qs).leadOn m

/-- The holder of a domain is lost: groups whose pushes it has not all acknowledged will abort, no more pushes are sent, and
HOLDER_LOST is posted (R392). -/
def State.loseHolder (s : State) (m : Nat) : State :=
  let r := s.domRec m
  let hit := fun (g : Group) => g.commit.isSome && g.dom == m && g.vote == 0 &&
    (s.pushTwins g).any fun o => !(g.pushes.any fun x => x.obj == o && x.st == 2)
  let s := { s with groups := mapIf hit (fun g => { g with cause := 3 }) s.groups }
  (s.modDom m fun y => { y with noHolder := true }).event r.part 0x03 r.die srcCmt (natLe 1 m ++ natLe 1 0 ++ natLe 2 r.buddy)

/-- A member of a domain becomes lost (R393). -/
def State.loseMember (s : State) (m k : Nat) : State :=
  let r := s.domRec m
  if !r.valid || r.n ≤ k || k = r.rank || (s.dom m).lost.contains k then s
  else
    let s := s.writeN (s.domAddr m + 24) 1 1
    let s := s.modDom m fun y => { y with lost := y.lost ++ [k] }
    let s := if r.pushes && r.buddy = k && !(s.dom m).noHolder then s.loseHolder m else s
    s.startRecovery m

/-- MEMBER_LOST (R393). -/
def execMemberLost (dom rank : Nat) (s : State) : Res := live s (s.loseMember dom rank)

/-- Makes lost, in every domain, the members that some test picks. -/
def State.loseDomMembers (s : State) (pick : Member → Bool) : State :=
  (List.range s.domCount).foldl (fun s m =>
    (List.range (s.domRec m).n).foldl (fun s k => if pick (s.domMember (s.domRec m) k) then s.loseMember m k else s) s) s

/-- Whether no route reaches a member (R343, R393). -/
def State.unreached (s : State) (e : Member) : Bool :=
  if e.side then !(s.portUp 6 || s.portUp 7) else e.xyz != s.selfXyz && (s.route e.xyz).isNone

/-- What has become lost by a change of the mesh, a link or a die: members of running collectives (R343) and of commit domains
(R393). -/
def State.loseUnreached (s : State) : State :=
  let s := s.loseMembers
  s.loseDomMembers s.unreached

/-- A QUERY: the survivor stops, and reports each commit from the number asked for, or from its own DONE where that is lower, up
to its NEXT, and then the end (R394). -/
def State.queryIn (s : State) (f : CommitFrame) (r : DomRec) : State :=
  let m := f.domain
  let s := s.writeN (s.domAddr m + 24) 1 1
  let s := s.modDom m fun y => { y with stopped := true, prepared := [], decided := y.decided.filter (fun v => v.cause == 2), leader := some f.srcRank, leads := false }
  let lo := Nat.min f.commit r.done
  let y := s.dom m
  let s := ((List.range (r.next - lo)).map (lo + ·)).foldl (fun s k =>
    s.cmtSend m f.srcRank (reportFrame ((y.applied.find? fun v => v.k == k).getD ⟨k, 0, 0, 0⟩))) s
  s.cmtSend m f.srcRank { CommitFrame.bare 6 0 0 with verdict := 3, commit := r.next }

/-- QUERY_FRAME (R394). -/
def execQueryFrame (d : Nat) (f : CommitFrame) (s : State) : Res :=
  onDie s d (s.cmtIn d { f with kind := 5 } fun s r => s.queryIn f r)

/-- REPORT_FRAME (R394). -/
def execReportFrame (d : Nat) (f : CommitFrame) (s : State) : Res :=
  onDie s d (s.cmtIn d { f with kind := 6 } fun s _ =>
    let m := f.domain
    if !(s.dom m).leads then s
    else
      let s := s.modDom m fun y =>
        if f.verdict = 3 then { y with ends := kvPut y.ends f.srcRank f.commit }
        else { y with reports := y.reports.filter (fun x => !(x.1 == f.srcRank && x.2.1 == f.commit)) ++ [(f.srcRank, f.commit, f.verdict)] }
      s.leadOn m)

/-- Whether a wait of a domain is real: 0 for PREPARE `k`, 1 for DECIDE `k`, 2 for this member's own vote, 3 for a recovery
REPORT. -/
def State.waits (s : State) (m what k : Nat) : Bool :=
  let r := s.domRec m
  let y := s.dom m
  let g := s.groupOf m k
  match what with
  | 0 => g.isSome && r.rank != 0 && decide (r.done ≤ k) && !(y.prepared.any fun v => v.k == k)
  | 1 => g.isSome && decide (r.done ≤ k) && !(y.decided.any fun v => v.k == k)
  | 2 => match g with | some g => g.vote == 0 | none => false
  | 3 => y.leads && (s.survivors m).any fun q => (kvFind y.ends q).isNone
  | _ => false

/-- COMMIT_STALL_TIMER: a STALLED event, and during recovery a new QUERY to those that have not answered (R387, R394). -/
def execCommitStallTimer (dom what commit : Nat) (s : State) : Res :=
  live s (
    if !s.waits dom what commit then s
    else
      let r := s.domRec dom
      let s := s.cmtCount r.die 6 1
      let s := s.modDom dom fun y => { y with stalled := addNew (what, commit) y.stalled }
      let s := s.event r.part 0x02 r.die srcCmt (natLe 1 dom ++ natLe 3 0 ++ natLe 4 commit ++ natLe 1 what)
      if what = 3 then s.sendQueries dom ((s.survivors dom).filter fun q => (kvFind (s.dom dom).ends q).isNone) else s)

/-! ## COMMIT (R377, R382, R395) -/

/-- DOMAIN of a COMMIT or DOMAIN_SET. -/
def Work.domain (w : Work) : Nat := w.f 8 1 % 16

/-- The codes of a COMMIT. -/
def commitCodes (s : State) (w : Work) : List Nat :=
  let m := w.domain
  let r := s.domRec m
  [need (w.zeroFrom 9 && w.f 8 1 / 16 == 0), if s.rbit w.die Reg.cmtCtrl 0 then 0 else 7] ++
  (if m = 0xF then []
  else if s.domCount ≤ m then [1]
  else if !s.domIn m then [2]
  else [need (r.valid && r.die == w.die), if r.valid && r.part ≠ w.part then 4 else 0])

/-- Starts a COMMIT: in a domain it takes the next number; a broken domain aborts it with cause LOST (R382, R395). -/
def State.commitBody (s : State) (w : Work) : State :=
  let m := w.domain
  let r := s.domRec m
  let s := s.modGroup w.group fun g => { g with commit := some w.id, dom := m, k := if m = 0xF then 0 else r.next }
  if m = 0xF then s
  else
    let s := s.writeN (s.domAddr m + 16) 4 (r.next + 1)
    if !r.broken then s.domStep m
    else
      let x : Verdict := ⟨r.next, 2, leastOf (s.dom m).lost, 2⟩
      if r.next < r.done then
        match s.groupAt w.group with
        | some g => if s.groupActs g.slot then s.modDom m fun y => { y with decided := y.decided ++ [x] } else s.resolve g r.die x
        | none => s
      else (s.decide_ m x).domStep m

/-- COMMIT (R377). -/
def execCommit (id : Nat) (s : State) : Res :=
  live s (s.begin id (fun w => w.kind == 0x3A) noRanges commitCodes State.commitBody)

/-- Commits that a broken domain aborts, below its DONE, once their actions have completed (R395). -/
def State.abortLate (s : State) (m : Nat) : State :=
  let r := s.domRec m
  (s.dom m).decided.foldl (fun s x =>
    match s.groupOf m x.k with
    | some g =>
      if r.done ≤ x.k || s.groupActs g.slot then s
      else (s.modDom m fun y => { y with decided := y.decided.filter fun v => v.k != x.k }).resolve g r.die x
    | none => s) s

/-! ## TWIN and REVERT (R370, R396) -/

/-- OBJ of a TWIN or REVERT. -/
def Work.twObj (w : Work) : Nat := w.f 8 4

/-- Whether `len` bytes at `a` lie in the range of Table 01-4 that holds BASE of a record: its die's HBM or tile store. -/
def State.sameRange (s : State) (r : ObjRec) (a : Nat) : Bool :=
  let n := s.part.dies
  match spaceOf n r.base with
  | .hbm d _ => inHbm n a r.len && a / hbmSize == d && (a + r.len - 1) / hbmSize == d
  | .ts d _ => inTs n a r.len && (a - tsBase) / tsStride == d
  | _ => false

/-- The codes of a TWIN. -/
def twinSetCodes (s : State) (w : Work) : List Nat :=
  let d := w.die
  let o := w.twObj
  let t := s.twin d o
  let r := s.obj d o
  let on := w.bit 18 0
  let sh := w.addr 12
  [need (decide (o < 0xFFFFF) && sh % 64 == 0 && w.f 18 1 / 4 == 0 && w.f 19 1 == 0 && w.zeroFrom 22),
   if s.twinIn d o then 0 else 2,
   if r.valid && r.part != w.part then 4 else 0,
   if t.staged || leAt (s.bytes (s.twinAddr d o) 16) 6 1 / 32 != 0 || leAt (s.bytes (s.twinAddr d o) 16) 7 1 / 64 != 0 ||
      leAt (s.bytes (s.twinAddr d o) 16) 10 6 != 0 then 5 else 0,
   if on && (!r.valid || decide (2 ≤ r.tier) || !s.sameRange r sh || (decide (sh < r.base + r.len) && decide (r.base < sh + r.len))) then 5 else 0,
   if s.rbit d Reg.cmtCtrl 0 then 0 else 7]

/-- The record that a TWIN writes. -/
def Work.twNew (w : Work) : Twin := ⟨w.addr 12, w.bit 18 0, w.bit 18 1, false, false, false, 0, w.f 20 2⟩

/-- TWIN (R370). -/
def execTwin (id : Nat) (s : State) : Res :=
  live s (s.begin id (fun w => w.kind == 0x38) noRanges twinSetCodes fun s w =>
    (s.write (s.twinAddr w.die w.twObj) (w.twNew.bytes ++ natLe 6 0)).endStatus w.id 0)

/-- The codes of a REVERT. -/
def revertCodes (s : State) (w : Work) : List Nat :=
  let d := w.die
  let o := w.twObj
  let t := s.twin d o
  let r := s.obj d o
  [need (decide (o < 0xFFFFF) && w.zeroFrom 12),
   (match s.groupAt w.group with | some g => need (decide (g.actions ≤ 4096)) | none => 0),
   if r.valid && r.part != w.part then 4 else 0] ++
  (let cs := s.twinCodes d o w.group none
   if cs.contains 255 then cs else cs ++ [need (!s.twinIn d o || (!t.staged && t.prev))])

/-- REVERT: an action like any other, so its staging clears PREV (R371, R375, R396). -/
def execRevert (id : Nat) (s : State) : Res :=
  live s (s.begin id (fun w => w.kind == 0x39) noRanges revertCodes fun s w =>
    (s.setTwin w.die w.twObj { s.twin w.die w.twObj with staged := true, revert := true, group := w.group, prev := false }).endStatus w.id 0)

/-! ## DOMAIN_SET and HOLD_SET (R381, R388) -/

/-- The template of a DOMAIN_SET. -/
def State.domTemplate (s : State) (w : Work) : DomRec := DomRec.ofBytes (s.bytes (w.addr 10) 64)

/-- Whether a domain template and its member entries pass R381. -/
def State.domainOk (s : State) (r : DomRec) : Bool :=
  let ms := (List.range r.n).map fun k => s.domMember r k
  let who := fun (m : Member) => if m.side then (1, m.mac) else (0, m.xyz)
  !r.rsvd && decide (r.die < s.part.dies) && decide (1 ≤ r.n) && decide (r.n ≤ 2048) && decide (r.rank < r.n) && r.members % 64 == 0 &&
    ms.all (fun m => !m.rsvd && (m.side || m.mac == 0) && (!m.side || s.part == .t8)) && (nub (ms.map who)).length == ms.length &&
    (s.domMember r r.rank).xyz == s.selfXyz && !(s.domMember r r.rank).side &&
    (!r.pushes || (r.buddy != r.rank && decide (r.buddy < r.n)))

/-- The codes of a DOMAIN_SET; it waits while a commit of the domain is unresolved. -/
def domainSetCodes (s : State) (w : Work) : List Nat :=
  let m := w.domain
  let r := s.domTemplate w
  let old := s.domRec m
  [need (w.f 8 1 / 16 == 0 && w.f 9 1 == 0 && w.addr 10 % 64 == 0 && w.zeroFrom 16 && m != 0xF && decide (m < s.domCount) && s.domainOk r),
   if decide (m < s.domCount) && !s.domIn m then 2 else 0,
   if r.part = w.part && (!old.valid || old.part = w.part) then 0 else 4,
   if s.rbit w.die Reg.cmtCtrl 0 then 0 else 7,
   if s.groups.any fun g => g.commit.isSome && g.dom == m then 255 else 0]

/-- The ranges of a DOMAIN_SET: its template and the member entries. -/
def domainSetRanges (s : State) (w : Work) : List Rng := [⟨w.addr 10, 64, false⟩, ⟨(s.domTemplate w).members, 8 * (s.domTemplate w).n, false⟩]

/-- The record of a domain takes the template, with NEXT, DONE and BROKEN 0, and the member entries that it names. -/
def State.domainSetBody (s : State) (w : Work) : State :=
  let m := w.domain
  let b := s.bytes (w.addr 10) 64
  let r := s.domTemplate w
  let s := { s with whl := { s.whl with entries := kvPut s.whl.entries (s.domAddr m) (s.bytes r.members (8 * r.n)) } }
  let s := s.write (s.domAddr m) (spliceAt b 16 (natLe 9 0))
  ({ s with doms := s.doms.filter fun x => x.dom != m }).endStatus w.id 0

/-- DOMAIN_SET (R381). -/
def execDomainSet (id : Nat) (s : State) : Res :=
  live s (s.begin id (fun w => w.kind == 0x3B) domainSetRanges domainSetCodes State.domainSetBody)

/-- HOLD of a HOLD_SET. -/
def Work.hsHold (w : Work) : Nat := w.f 8 2

/-- The template of a HOLD_SET. -/
def State.holdTemplate (s : State) (w : Work) : Hold := Hold.ofBytes (s.bytes (w.addr 10) 32)

/-- Whether a region lies wholly inside the HBM of one die. -/
def State.oneStack (s : State) (a len : Nat) : Bool := inHbm s.part.dies a len && a / hbmSize == (a + len - 1) / hbmSize

/-- The codes of a HOLD_SET. -/
def holdSetCodes (s : State) (w : Work) : List Nat :=
  let i := w.hsHold
  let h := s.holdTemplate w
  [need (w.addr 10 % 64 == 0 && w.zeroFrom 16 && decide (i < s.holdCount) && h.side0 % 64 == 0 && h.side1 % 64 == 0 && h.len != 0 && h.len % 64 == 0),
   if decide (i < s.holdCount) && !s.holdIn i then 2 else 0,
   if (s.hold i).staged || h.rsvd || !s.oneStack h.side0 h.len || !s.oneStack h.side1 h.len ||
      (decide (h.side0 < h.side1 + h.len) && decide (h.side1 < h.side0 + h.len)) then 5 else 0,
   if s.rbit w.die Reg.cmtCtrl 0 then 0 else 7]

/-- The template of a HOLD_SET is what it reads. -/
def holdSetRanges (_ : State) (w : Work) : List Rng := [⟨w.addr 10, 32, false⟩]

/-- HOLD_SET (R388): the entry takes the template, with the package's own fields zero. -/
def execHoldSet (id : Nat) (s : State) : Res :=
  live s (s.begin id (fun w => w.kind == 0x3C) holdSetRanges holdSetCodes fun s w =>
    (s.setHold w.hsHold { s.holdTemplate w with staged := false, prev := false, revert := false, stage := 0 }).endStatus w.id 0)

/-! ## Manifests (R397 to R399) -/

/-- Whether a manifest is valid (R397). -/
def manifestOk (b : List Byte) : Bool :=
  leAt b 0 4 == 0x53434B50 && leAt b 4 2 == 1 && leAt b 4092 4 == crc32c (b.take 4092) && leAt b 8 8 != 0

/-- The volume unit of a manifest slot. -/
def State.manSlot (s : State) (k : Nat) : Nat := s.regAddr 0 Reg.cmtManVlbaLo + k

/-- MANIFEST_SCAN: both slots are read once the volume of die 0 is ready (R398). -/
def State.manScan (s : State) : State :=
  if !s.volReady 0 then s
  else
    let a := s.volUnit 0 (s.manSlot 0)
    let b := s.volUnit 0 (s.manSlot 1)
    let (va, vb) := (manifestOk a, manifestOk b)
    let (sa, sb) := (leAt a 8 8, leAt b 8 8)
    let cur := vb && (!va || decide (sa < sb))
    let s := s.setRegN 0 Reg.cmtManStatus (1 + 2 * b2n va + 4 * b2n vb + 8 * b2n cur)
    s.setRegPair 0 Reg.cmtManSeqLo (if cur then sb else if va then sa else 0)

/-- MANIFEST_SCAN (R398). -/
def execManifestScan (s : State) : Res := live s s.manScan

/-- The codes of a MANIFEST. -/
def manifestCodes (s : State) (w : Work) : List Nat :=
  let b := s.bytes (w.addr 8) 4096
  [need (w.addr 8 % 64 == 0 && w.zeroFrom 14 && manifestOk b && decide (s.regPair 0 Reg.cmtManSeqLo < leAt b 8 8)),
   if s.rbit w.die Reg.cmtCtrl 0 && s.volReady 0 then 0 else 7,
   if s.volMeasured (s.manSlot 0) 2 then 255 else 0]

/-- Makes every unit written on a drive durable. -/
def State.flushDrive (s : State) (port : Nat) : State := { s with dirty := s.dirty.filter fun k => k / 2 ^ 48 != port }

/-- Runs a MANIFEST: FLUSH on every named drive, the write with FUA to the slot that is not current, the read back, and the
registers. `failPort` is a drive that fails on the way, with Dword 3 of its completion; the current checkpoint then stands
(R399). -/
def State.manifestBody (failPort : Option (Nat × Nat)) (s : State) (w : Work) : State :=
  let b := s.bytes (w.addr 8) 4096
  match failPort with
  | some (p, dw) => s.endWork w.id fun c => { c with status := 0x0D, detail0 := p % 8 + dw / 65536 * 65536 }
  | none =>
    let v := s.regN 0 Reg.cmtManStatus
    let k := if fld v 1 2 = 0 then 0 else 1 - fld v 3 1
    let (port, lba) := s.unitAt 0 (s.manSlot k)
    let s := (s.volPorts 0).foldl State.flushDrive s
    let s := (s.flashStore port lba b).setDirty port lba 1 false
    if !manifestOk (s.volUnit 0 (s.manSlot k)) then s.endStatus w.id 0x0D
    else
      let s := s.setRegN 0 Reg.cmtManStatus (setFld (setBit v (1 + k) true) 3 1 k)
      (s.setRegPair 0 Reg.cmtManSeqLo (leAt b 8 8)).endStatus w.id 0

/-- A MANIFEST reads one unit. -/
def manifestRanges (_ : State) (w : Work) : List Rng := [⟨w.addr 8, 4096, false⟩]

/-- MANIFEST (R399). -/
def execManifest (id : Nat) (failPort : Option (Nat × Nat)) (s : State) : Res :=
  live s (s.begin id (fun w => w.kind == 0x3D) manifestRanges manifestCodes (State.manifestBody failPort))

/-! ## CMT_DISABLE (R393, R405) -/

/-- Takes out the groups that are being aborted before they closed, once their actions have completed. -/
def State.reapGroups (s : State) : State :=
  let dead := s.groups.filter fun g => g.vote == 3 && !s.groupActs g.slot
  dead.foldl (fun s g => let s := s.abortGroup g.slot; { s with groups := s.groups.filter fun x => x.slot != g.slot }) s

/-- Aborts the groups of a die's partitions that are not closed, and the unresolved commits of the domains that the die runs: this
member is lost to them. -/
def State.cmtOff (s : State) (d : Nat) : State :=
  let s := s.setRbit d Reg.cmtCtrl 0 false
  let s := { s with groups := mapIf (fun g => !g.closed && s.ownsOn d g.part) (fun g => { g with vote := 3 }) s.groups }
  let s := s.reapGroups
  (List.range s.domCount).foldl (fun s m =>
    let r := s.domRec m
    let ks := (s.groups.filter fun g => g.commit.isSome && g.dom == m && decide (r.done ≤ g.k)).map fun g => g.k
    if !r.valid || r.die ≠ d || ks.isEmpty then s
    else
      let s := s.writeN (s.domAddr m + 24) 1 1
      let s := s.modDom m fun y => { y with stopped := true, prepared := [], leads := false, leader := none, decided := ks.map fun k => ⟨k, 2, r.rank, 2⟩ }
      State.applyLoop m (ks.length + 1) s) s

/-- The commit logic of a fenced die is gone: this member is lost to the domains that the die runs, and the groups whose COMMIT is
on the die abort (R393, R594). -/
def State.domainsLost (s : State) (d : Nat) : State :=
  let here := fun (g : Group) => match g.commit.bind s.work with | some w => w.on == d || ringDie w.ring == d | none => false
  let s := (s.groups.filter here).foldl (fun s g => (s.abortGroup g.slot).modGroup g.slot fun g => { g with own := [] }) s
  (List.range s.domCount).foldl (fun s m =>
    let r := s.domRec m
    if !r.valid || r.die ≠ d then s
    else (s.writeN (s.domAddr m + 24) 1 1).modDom m fun y => { y with stopped := true, prepared := [], decided := [], leads := false, leader := none }) s

/-- CMT_DISABLE (R405). -/
def execCmtDisable (d : Nat) (s : State) : Res := onDie s d (if s.rbit d Reg.cmtCtrl 0 then s.cmtOff d else s)

end Sys2Proof.Machine
end

