-- ==== Sys2Proof/Machine/Complete.lean ====
section
/-! DEFINITION. Completion of descriptors (R421, R430): the record, and what follows it in the
group, list, batch, connection or serving step that the descriptor belongs to. -/

namespace Sys2Proof.Machine

/-- Whether a transfer's turn to complete has come: its connection's ended descriptors complete in MSN order (R312). -/
def State.doneTurn (s : State) (id : Nat) : Bool :=
  s.xt.conns.all fun c => !c.done.contains id || c.done.head? == some id

/-- Whether a COMMIT that its checks refused still waits for its group's actions, which end the group with it. -/
def State.commitHeld (s : State) (w : Work) : Bool :=
  w.kind == 0x3A && w.grp && (match s.groupAt w.group with | some g => g.closed && g.commit.isNone && s.groupActs g.slot | none => false)

/-- Whether a descriptor's record may be written now. -/
def State.canComplete (s : State) (w : Work) : Bool :=
  w.ended && s.folds.all (fun f => f.id != w.id) && s.doneTurn w.id && !s.commitHeld w &&
    (w.batch.isNone || decide (modSub 32 (s.cqTail w.ring) (s.cqHead w.ring) < s.cqSize w.ring))

/-- Takes a completed transfer off its connection's list. -/
def State.popDone (s : State) (id : Nat) : State :=
  { s with xt := { s.xt with conns := s.xt.conns.map fun c => { c with done := without id c.done } } }

/-- What a completed action or COMMIT means to its group (R378, R385, R428). -/
def State.groupDone (s : State) (w : Work) : State :=
  if !w.grp then s
  else
    match s.groupAt w.group with
    | none => s
    | some g =>
      if g.part ≠ w.part then s
      else if w.kind = 0x3A then
        if g.commit = some w.id then { s with groups := s.groups.filter fun x => x.slot != g.slot }
        else if g.closed && g.commit.isNone && !(s.seq.works.any fun v => v.kind == 0x3A && v.grp && v.group == g.slot) then
          let s := s.abortGroup g.slot
          { s with groups := s.groups.filter fun x => x.slot != g.slot }
        else s
      else
        let s := if w.res.status ≠ 0 && isAction w.bytes then s.modGroup g.slot fun g => { g with failed := true } else s
        let s := if g.commit.isSome && g.dom ≠ 0xF then ((s.domStep g.dom).abortLate g.dom).leadOn g.dom else s
        s.reapGroups

/-- What a completed prefetch entry means to its list: the PREFETCH descriptor ends after its last entry (R251). -/
def State.entryDone (s : State) (w : Work) : State :=
  match w.entry, w.batch with
  | some _, some id =>
    let left := match s.lists.find? fun l => l.id == id with | some l => decide (l.next < l.count) | none => false
    if left || s.outstanding id ≠ 0 then s
    else ({ s with lists := s.lists.filter fun l => l.id != id }).endStatus id 0
  | _, _ => s

/-- Releases a batch whose last record has been written (R159). Until then the batch keeps with each descriptor the options and
the key that it took, for a replay (R68). -/
def State.batchDone (s : State) (w : Work) : State :=
  match w.entry, w.batch with
  | none, some num =>
    let keep := fun (x : Work) => { x with ftz := w.ftz, srKey := w.srKey, det := w.det, drawn := w.drawn }
    let s := { s with batches := mapIf (fun b => b.num == num) (fun b => { b with works := mapIf (fun x => x.id == w.id) keep b.works }) s.batches }
    if s.seq.works.any fun v => v.entry.isNone && v.batch == some num then s
    else { s with batches := s.batches.filter fun b => b.num != num }
  | _, _ => s

/-- The serving ring of a partition. -/
def State.servingRing (s : State) (p : Nat) : Nat :=
  let c := s.regN 0 (Reg.seqSrvCtrl p)
  32 * fld c 1 3 + fld c 4 5

/-- Counts a completed descriptor of a serving step (R472). -/
def State.servingDone (s : State) (w : Work) : State :=
  if !w.inRing then s
  else
    let mine := fun (x : Srv) => x.p == w.part && s.servingRing x.p == w.ring && decide (modSub 32 w.idx x.firstIdx < x.copied) && decide (0 < x.left)
    { s with srvs := mapIf mine (fun x => { x with left := x.left - 1 }) s.srvs }

/-- Writes the completion record of a descriptor whose work has ended, and does what follows it. A descriptor of a replayed
batch that has its record gets no second one. -/
def State.complete (s : State) (id : Nat) : State :=
  let s := match s.coll id with | some c => s.pumpDie c.d | none => s
  match s.work id with
  | none => s
  | some w =>
    if !s.canComplete w then s
    else
      let s := s.retry
      if w.again then ((s.dropWork id).batchDone w).leaveIdle w.on w.part
      else
      let s := s.writeRec w.ring w.res w.irq
      let s := (s.dropWork id).popDone id
      (((((s.groupDone w).entryDone w).batchDone w).servingDone w).leaveIdle w.on w.part)

/-- DESCRIPTOR_COMPLETE (R430, R421). -/
def execDescriptorComplete (id : Nat) (s : State) : Res := live s (s.complete id)

end Sys2Proof.Machine
end

