-- ==== Sys2Proof/Machine/Streams.lean ====
section
/-! DEFINITION. The stream decoders of the tributaries: baseline JPEG (ITU-T T.81) and JPEG-LS (ITU-T T.87), as far as Table
08-4 takes them (R258, R259, R263). The two recommendations themselves are taken from general knowledge, PRESUMED
(assumption 23). -/

namespace Sys2Proof.Machine

/-! ## What a decoder gives -/

/-- A decoded frame. `status` is 0, 0x0E (unsupported stream) or 0x0F (decode error), `err` the byte offset of the first
error, `back` the restarts after an error. `comps` is 0 while no frame header was read. `get i x y` is sample (x, y) of
component i, upsampled: none when it was never decoded, and whether it was zero-filled. -/
structure Pic where
  status : Nat
  err    : Nat
  back   : Nat
  w      : Nat
  h      : Nat
  comps  : Nat
  get    : Nat → Nat → Nat → Option (Nat × Bool)

/-- A frame with no samples. -/
def Pic.empty (status err w h comps : Nat) : Pic := ⟨status, err, 0, w, h, comps, fun _ _ _ => none⟩

/-! ## Bits of an entropy-coded segment -/

/-- Bits left to read: items of a value, how many of its low bits are left, and its byte offset; and the offset that a read
past the end reports. -/
structure Bits where
  items : List (Nat × Nat × Nat)
  stop  : Nat
deriving DecidableEq, Repr

/-- The byte offset of the next bit. -/
def Bits.at (b : Bits) : Nat :=
  match b.items with
  | (_, _, o) :: _ => o
  | [] => b.stop

/-- The next bit. -/
def Bits.take1 (b : Bits) : Except Nat (Nat × Bits) :=
  match b.items with
  | [] => .error b.stop
  | (v, n, o) :: l => .ok (v / 2 ^ (n - 1) % 2, if n ≤ 1 then { b with items := l } else { b with items := (v, n - 1, o) :: l })

/-- The next `n` bits as a number, first bit highest. -/
def Bits.take : Nat → Bits → Except Nat (Nat × Bits)
  | 0, b => .ok (0, b)
  | n + 1, b => do
    let (x, b) ← b.take1
    let (y, b) ← Bits.take n b
    return (x * 2 ^ n + y, b)

/-- A stream: its bytes by offset, and its length. -/
structure Strm where
  byte : Nat → Nat
  len  : Nat

/-- Two bytes, high byte first. -/
def Strm.be16 (z : Strm) (p : Nat) : Nat := 256 * z.byte p + z.byte (p + 1)

/-- The entropy-coded data from `p` to the next marker: its bytes with their offsets, and the marker's offset. `ls` says
whether JPEG-LS stuffing holds (a marker's second byte is 0x80 or more) instead of a stuffed zero byte. The first argument
bounds the bytes read. -/
def Strm.coded (z : Strm) (ls : Bool) : Nat → Nat → List (Nat × Nat) × Nat
  | 0, p => ([], p)
  | fuel + 1, p =>
    if z.len ≤ p then ([], z.len)
    else if z.byte p = 0xFF then
      let n := z.byte (p + 1)
      if z.len ≤ p + 1 then ([], z.len)
      else if ls then
        if 0x80 ≤ n then ([], p) else let (l, q) := z.coded ls fuel (p + 1); ((0xFF, p) :: l, q)
      else if n = 0 then let (l, q) := z.coded ls fuel (p + 2); ((0xFF, p) :: l, q)
      else ([], p)
    else let (l, q) := z.coded ls fuel (p + 1); ((z.byte p, p) :: l, q)

/-- Coded bytes as bits; in JPEG-LS the byte after 0xFF carries seven bits. -/
def toBits (ls : Bool) (data : List (Nat × Nat)) (stop : Nat) : Bits :=
  ⟨data.zipIdx.map fun x =>
    let after := ls && x.2 != 0 && ((data[x.2 - 1]?).map Prod.fst).getD 0 == 0xFF
    (x.1.1, if after then 7 else 8, x.1.2), stop⟩

/-- The restart intervals of a scan from `p`: the number of each (counted from `n`), its bits, and the offset of the marker
that ends the scan. A restart marker RSTm starts the next interval whose number less one is m modulo 8. -/
def Strm.intervals (z : Strm) (ls : Bool) : Nat → Nat → Nat → List (Nat × Bits) × Nat
  | 0, _, p => ([], p)
  | fuel + 1, n, p =>
    let (data, q) := z.coded ls z.len p
    let m := z.byte (q + 1)
    let here := (n, toBits ls data q)
    if q + 1 < z.len && 0xD0 ≤ m && m ≤ 0xD7 then
      let next := n + 1 + (m - 0xD0 + 8 - n % 8) % 8
      let (l, e) := z.intervals ls fuel next (q + 2)
      (here :: l, e)
    else ([here], q)

/-- Whether EOI follows from offset `p` on; markers in between are skipped by length. -/
def Strm.reachesEoi (z : Strm) : Nat → Nat → Bool
  | 0, _ => false
  | fuel + 1, p =>
    if z.len < p + 2 || z.byte p ≠ 0xFF then false
    else if z.byte (p + 1) = 0xD9 then true
    else if z.byte (p + 1) = 0xFF then z.reachesEoi fuel (p + 1)
    else z.reachesEoi fuel (p + 2 + Nat.max 2 (z.be16 (p + 2)))

/-! ## Headers -/

/-- A component of a frame: identifier, sampling factors and quantisation table. -/
structure Comp where
  cid : Nat
  hs  : Nat
  vs  : Nat
  tq  : Nat
deriving DecidableEq, Repr

/-- Everything read before the scan. A Huffman table is a list of (length, code, value), keyed by class × 4 + number. `lse`
holds the five preset parameters. `bad` is the offset of an error in the headers. -/
structure Head where
  qt    : List (Nat × List Nat)
  huff  : List (Nat × List (Nat × Nat × Nat))
  ri    : Nat
  prec  : Nat
  w     : Nat
  h     : Nat
  comps : List Comp
  tabs  : List (Nat × Nat)
  lse   : List Nat
  near  : Nat
  scan  : Nat
  unsup : Bool
  bad   : Option Nat
deriving DecidableEq, Repr

/-- Before the first marker. -/
def Head.init : Head := ⟨[], [], 0, 0, 0, 0, [], [], [0, 0, 0, 0, 0], 0, 0, false, none⟩

/-- The codes of a Huffman table from its sixteen counts, by increasing length (T.81 annex C). -/
def huffCodes (counts vals : List Nat) : List (Nat × Nat × Nat) :=
  (counts.zipIdx.foldl (fun (a : List (Nat × Nat × Nat) × Nat × List Nat) n =>
    let (l, code, vs) := a
    let here := (vs.take n.1).zipIdx.map fun v => (n.2 + 1, code + v.2, v.1)
    (l ++ here, (code + n.1) * 2, vs.drop n.1)) ([], 0, vals)).1

/-- The tables of a DHT segment from `p` to its end. -/
def Strm.dht (z : Strm) : Nat → Nat → Nat → Head → Head
  | 0, _, _, h => h
  | fuel + 1, p, stop, h =>
    if stop ≤ p then h
    else
      let tc := z.byte p / 16
      let th := z.byte p % 16
      let counts := (List.range 16).map fun i => z.byte (p + 1 + i)
      let n := sumNat counts
      if stop < p + 17 + n then { h with bad := some p }
      else
        let t := huffCodes counts ((List.range n).map fun i => z.byte (p + 17 + i))
        z.dht fuel (p + 17 + n) stop { h with huff := kvPut h.huff (4 * tc + th) t, unsup := h.unsup || decide (1 < tc) || decide (1 < th) }

/-- The tables of a DQT segment. -/
def Strm.dqt (z : Strm) : Nat → Nat → Nat → Head → Head
  | 0, _, _, h => h
  | fuel + 1, p, stop, h =>
    if stop ≤ p then h
    else if z.byte p / 16 ≠ 0 || 3 < z.byte p % 16 then { h with unsup := true }
    else if stop < p + 65 then { h with bad := some p }
    else z.dqt fuel (p + 65) stop { h with qt := kvPut h.qt (z.byte p) ((List.range 64).map fun i => z.byte (p + 1 + i)) }

/-- A frame header: SOF0, or SOF55 when `ls`. -/
def Strm.sof (z : Strm) (ls : Bool) (p stop : Nat) (h : Head) : Head :=
  let n := z.byte (p + 5)
  if stop < p + 6 + 3 * n then { h with bad := some p }
  else
    let cs := (List.range n).map fun i =>
      let q := p + 6 + 3 * i
      (⟨z.byte q, z.byte (q + 1) / 16, z.byte (q + 1) % 16, z.byte (q + 2)⟩ : Comp)
    let sizeOk := decide (1 ≤ z.be16 (p + 1)) && decide (z.be16 (p + 1) ≤ 16384) && decide (1 ≤ z.be16 (p + 3)) && decide (z.be16 (p + 3) ≤ 16384)
    let ok :=
      if ls then n == 1 && decide (2 ≤ z.byte p) && decide (z.byte p ≤ 16)
      else z.byte p == 8 && (match cs with
        | [_] => true
        | [a, b, c] => [(1, 1), (2, 1), (2, 2)].contains (a.hs, a.vs) && (b.hs, b.vs) == (1, 1) && (c.hs, c.vs) == (1, 1)
        | _ => false)
    { h with prec := z.byte p, h := z.be16 (p + 1), w := z.be16 (p + 3), comps := cs, unsup := h.unsup || !ok || !sizeOk }

/-- A scan header. -/
def Strm.sos (z : Strm) (ls : Bool) (p stop : Nat) (h : Head) : Head :=
  let n := z.byte p
  if stop < p + 4 + 2 * n || h.comps.isEmpty then { h with bad := some p }
  else
    let cs := (List.range n).map fun i => (z.byte (p + 1 + 2 * i), z.byte (p + 2 + 2 * i))
    let q := p + 1 + 2 * n
    if ls then
      { h with near := z.byte q, scan := stop, unsup := h.unsup || n != 1 || z.byte (q + 1) != 0 || z.byte (q + 2) != 0 || cs.any (fun c => c.2 != 0) }
    else
      let same := cs.map Prod.fst == h.comps.map (fun c => c.cid)
      let plain := z.byte q == 0 && z.byte (q + 1) == 63 && z.byte (q + 2) == 0 && n == h.comps.length
      { h with tabs := cs.map (fun c => (c.2 / 16, c.2 % 16)), scan := stop, bad := if same || !plain then h.bad else some p, unsup := h.unsup || !plain || cs.any (fun c => 1 < c.2 / 16 || 1 < c.2 % 16) }

/-- Reads markers from `p` up to the scan. Markers that Table 08-4 does not list are skipped by length (R258). -/
def Strm.head (z : Strm) (ls : Bool) : Nat → Nat → Head → Head
  | 0, p, h => { h with bad := some p }
  | fuel + 1, p, h =>
    if h.bad.isSome || h.unsup then h
    else if z.len < p + 2 then { h with bad := some z.len }
    else if z.byte p ≠ 0xFF then { h with bad := some p }
    else
      let m := z.byte (p + 1)
      if m = 0xFF then z.head ls fuel (p + 1) h
      else if m = 0xD8 || m = 0x01 then z.head ls fuel (p + 2) h
      else if 0xD0 ≤ m && m ≤ 0xD9 then { h with bad := some p }
      else
        let stop := p + 2 + z.be16 (p + 2)
        if z.len < stop || z.be16 (p + 2) < 2 then { h with bad := some (if z.len < stop then z.len else p) }
        else if m = 0xDA then z.sos ls (p + 4) stop h
        else
          let sofs := decide (0xC0 ≤ m) && decide (m ≤ 0xCF) && m != 0xC4 && m != 0xCC
          let h :=
            if m = 0xC4 && !ls then z.dht 16 (p + 4) stop h
            else if m = 0xDB && !ls then z.dqt 16 (p + 4) stop h
            else if m = 0xDD then { h with ri := (List.range (stop - (p + 4))).foldl (fun r i => 256 * r + z.byte (p + 4 + i)) 0 }
            else if m = (if ls then 0xF7 else 0xC0) then z.sof ls (p + 4) stop h
            else if sofs || m = 0xF7 then { h with unsup := true }
            else if m = 0xF8 && ls then
              if z.byte (p + 4) = 1 then { h with lse := (List.range 5).map fun i => z.be16 (p + 5 + 2 * i) } else { h with unsup := true }
            else h
          z.head ls fuel stop h

/-! ## Baseline JPEG -/

/-- Decodes one Huffman code: `code` has `n` bits so far. -/
def huffDec (t : List (Nat × Nat × Nat)) (start : Nat) : Nat → Nat → Nat → Bits → Except Nat (Nat × Bits)
  | 0, _, _, _ => .error start
  | fuel + 1, n, code, b => do
    let (x, b) ← b.take1
    let c := 2 * code + x
    match t.find? fun e => e.1 == n + 1 && e.2.1 == c with
    | some e => return (e.2.2, b)
    | none => huffDec t start fuel (n + 1) c b

/-- One Huffman code from the start. -/
def huffNext (t : List (Nat × Nat × Nat)) (b : Bits) : Except Nat (Nat × Bits) := huffDec t b.at 16 0 0 b

/-- The value that `n` extra bits stand for (T.81 EXTEND). -/
def extend (v n : Nat) : Int := if n = 0 then 0 else if v < 2 ^ (n - 1) then (v : Int) - 2 ^ n + 1 else v

/-- The AC coefficients of a block from position `k` on, as (position, value). -/
def acCoefs (t : List (Nat × Nat × Nat)) : Nat → Nat → Bits → Except Nat (List (Nat × Int) × Bits)
  | 0, _, b => .ok ([], b)
  | fuel + 1, k, b =>
    if 64 ≤ k then .ok ([], b)
    else do
      let start := b.at
      let (rs, b) ← huffNext t b
      let r := rs / 16
      let n := rs % 16
      if n = 0 then
        if r = 15 then acCoefs t fuel (k + 16) b else return ([], b)
      else if 63 < k + r || 10 < n then throw start
      else
        let (v, b) ← b.take n
        let (l, b) ← acCoefs t fuel (k + r + 1) b
        return ((k + r, extend v n) :: l, b)

/-- The zigzag order: where coefficient k lies in the block, as 8 × row + column. -/
def zigzag : List Nat :=
  [0, 1, 8, 16, 9, 2, 3, 10, 17, 24, 32, 25, 18, 11, 4, 5, 12, 19, 26, 33, 40, 48, 41, 34, 27, 20, 13, 6, 7, 14, 21, 28,
   35, 42, 49, 56, 57, 50, 43, 36, 29, 22, 15, 23, 30, 37, 44, 51, 58, 59, 52, 45, 38, 31, 39, 46, 53, 60, 61, 54, 47, 55, 62, 63]

/-- cos(kπ/16) × 2^256, k = 0 to 7, rounded. -/
def cosTable : List Nat :=
  [0x10000000000000000000000000000000000000000000000000000000000000000,
   0xFB14BE7FBAE581562172A361FD2A722EC5F40E3FD8F18AE1B1997321B48E8B1C,
   0xEC835E79946A31457E610231AC1D6180F0A83D3CD0DAE9B5DB897C2384083747,
   0xD4DB3148750D1819F630E8B6DAC83E68B4691D2F99EC9EAAAC08E58A7CD39544,
   0xB504F333F9DE6484597D89B3754ABE9F1D6F60BA893BA84CED17AC8583339915,
   0x8E39D9CD73464364BBA4CFECBFF548677CA7D749ADFBA33ECA996068C296FD79,
   0x61F78A9ABAA58B4698916152CF7EEE1BBDF1F5B4AB3DE24C3A3C159062718F71,
   0x31F17078D34C156C9732300393F33613F394E58D12972F1D39438767895414C2]

/-- cos(kπ/16) as a sign and an index into the basis cos(0) to cos(7π/16); none for zero. -/
def cosAt (k : Int) : Option (Bool × Nat) :=
  let m := (k % 32).toNat
  let m := if 16 < m then 32 - m else m
  if m = 8 then none else if m < 8 then some (false, m) else some (true, 16 - m)

/-- Adds an integer times cos(kπ/16) to a combination of the basis. -/
def cosAdd (l : List Int) (k v : Int) : List Int :=
  match cosAt k with
  | none => l
  | some (neg, i) => l.zipIdx.map fun y => if y.2 = i then (if neg then y.1 - v else y.1 + v) else y.1

/-- Eight times the exact inverse DCT at column x, row y, as integer weights of the basis: a product of two cosines is half
the sum of the cosines of the sum and the difference, and the weight of frequency 0 is cos(4π/16). -/
def idctComb (coefs : List (Nat × Int)) (x y : Nat) : List Int :=
  coefs.foldl (fun l c =>
    let u := c.1 % 8
    let v := c.1 / 8
    let a : Int := if u = 0 then 4 else ((2 * x + 1) * u : Nat)
    let b : Int := if v = 0 then 4 else ((2 * y + 1) * v : Nat)
    cosAdd (cosAdd l (a + b) c.2) (a - b) c.2) [0, 0, 0, 0, 0, 0, 0, 0]

/-- The exact inverse DCT rounded to the nearest integer. The eight cosines are independent over the rationals, so a
combination is rational only when the others' weights are zero; otherwise 256 places decide every rounding. -/
def idctExact (coefs : List (Nat × Int)) (x y : Nat) : Int :=
  match idctComb coefs x y with
  | [] => 0
  | n0 :: l =>
    if l.all (· == 0) then (n0 + 4) / 8
    else
      let t := ((n0 :: l).zip cosTable).foldl (fun (a : Int) p => a + p.1 * (p.2 : Int)) 0
      (t + 4 * 2 ^ 256) / (8 * 2 ^ 256)

/-- A decoded sample: the exact one, level-shifted, plus an error of at most 1 that the stepping fixes (R259), clamped. -/
def jpegSample (coefs : List (Nat × Int)) (x y : Nat) : Nat :=
  let e := max (-1) (min 1 (Config.idctError coefs (8 * y + x)))
  (max 0 (min 255 (max 0 (min 255 (idctExact coefs x y + 128)) + e))).toNat

/-- One block: the DC difference, the AC coefficients, dequantised and placed. Gives the new predictor too. -/
def jpegBlock (h : Head) (i : Nat) (pred : Int) (b : Bits) : Except Nat (Int × List (Nat × Int) × Bits) := do
  let (td, ta) := (h.tabs[i]?).getD (0, 0)
  let start := b.at
  let (n, b) ← huffNext (kvGet [] h.huff td) b
  if 11 < n then throw start
  else
    let (v, b) ← b.take n
    let dc := pred + extend v n
    let (ac, b) ← acCoefs (kvGet [] h.huff (4 + ta)) 64 1 b
    let q := kvGet [] h.qt (((h.comps[i]?).map (fun c => c.tq)).getD 0)
    return (dc, ((0, dc) :: ac).map fun c => ((zigzag[c.1]?).getD 0, c.2 * (((q[c.1]?).getD 0 : Nat) : Int)), b)

/-- The blocks of one MCU, in the order of the scan: component, block column and row. -/
def mcuBlocks (h : Head) (cols m : Nat) : List (Nat × Nat × Nat) :=
  let mx := m % cols
  let my := m / cols
  match h.comps with
  | [_] => [(0, mx, my)]
  | cs => cs.zipIdx.flatMap fun c => (List.range c.1.vs).flatMap fun v => (List.range c.1.hs).map fun u =>
      (c.2, mx * c.1.hs + u, my * c.1.vs + v)

/-- The key of a block. -/
def blockKey (i bx by_ : Nat) : Nat := 2 ^ 40 * i + 2 ^ 20 * by_ + bx

/-- Decodes the blocks of a list; the predictors are by component. -/
def jpegBlocks (h : Head) : List (Nat × Nat × Nat) → List Int → Bits → List (Nat × List (Nat × Int)) →
    Except Nat (List (Nat × List (Nat × Int)))
  | [], _, _, acc => .ok acc
  | (i, bx, by_) :: l, ps, b, acc => do
    let (dc, coefs, b) ← jpegBlock h i ((ps[i]?).getD 0) b
    jpegBlocks h l (ps.zipIdx.map fun p => if p.2 = i then dc else p.1) b ((blockKey i bx by_, coefs) :: acc)

/-- Puts the intervals of a scan together: what was decoded, which interval numbers were zero-filled, the number from
which nothing has been dealt with, the first error and the restarts after an error. -/
structure Assembled (α : Type) where
  goods : List (Nat × α)
  zeros : List Nat
  upto  : Nat
  err   : Option Nat
  back  : Nat

/-- Runs the intervals found in the stream against those the frame has. An interval that fails is zero-filled when a later
restart marker lets decoding resume; when none does, everything from it on is missing (R263). -/
def assemble {α : Type} (total stop : Nat) (dec : Nat → Bits → Except Nat α) (l : List (Nat × Bits)) : Assembled α :=
  let l := l.filter fun x => decide (x.1 < total)
  let lastNo := maxNat (l.map Prod.fst)
  let a := l.foldl (fun (a : Assembled α) x =>
    let gap := (List.range (x.1 - a.upto)).map (a.upto + ·)
    let gapErr := if gap.isEmpty || a.err.isSome then a.err else some x.2.at
    match dec x.1 x.2 with
    | .ok v => ⟨a.goods ++ [(x.1, v)], a.zeros ++ gap, x.1 + 1, gapErr, a.back + b2n (!gap.isEmpty)⟩
    | .error e =>
      let err := some (gapErr.getD e)
      if x.1 < lastNo then ⟨a.goods, a.zeros ++ gap ++ [x.1], x.1 + 1, err, a.back + 1⟩
      else ⟨a.goods, a.zeros ++ gap, total, err, a.back⟩) ⟨[], [], 0, none, 0⟩
  if a.upto < total then { a with err := some (a.err.getD stop) }
  else a

/-- The chroma and luma planes of a component, upsampled by replication. -/
def Head.place (h : Head) (i x y : Nat) : Nat × Nat :=
  match h.comps with
  | [a, _, _] => if i = 0 then (x, y) else (x / a.hs, y / a.vs)
  | _ => (x, y)

/-- MCU columns of a frame. -/
def Head.mcuCols (h : Head) : Nat :=
  let hm := match h.comps with | [a, _, _] => a.hs | _ => 1
  (h.w + 8 * hm - 1) / (8 * hm)

/-- MCU rows of a frame. -/
def Head.mcuRows (h : Head) : Nat :=
  let vm := match h.comps with | [a, _, _] => a.vs | _ => 1
  (h.h + 8 * vm - 1) / (8 * vm)

/-- What a decoder answers before any scan data: unsupported, or an error in the headers. -/
def Head.early (h : Head) : Option Pic :=
  if h.unsup then some (Pic.empty 0x0E 0 h.w h.h h.comps.length)
  else match h.bad with
    | some e => some (Pic.empty 0x0F e h.w h.h h.comps.length)
    | none => none

/-- Decodes a JPEG frame. -/
def jpegDecode (z : Strm) : Pic :=
  let h := if z.len < 2 || z.be16 0 ≠ 0xFFD8 then { Head.init with bad := some (if z.len < 2 then z.len else 0) }
    else z.head false z.len 2 Head.init
  match h.early with
  | some p => p
  | none =>
    let missing := h.tabs.zip h.comps |>.any fun x => (kvFind h.huff x.1.1).isNone || (kvFind h.huff (4 + x.1.2)).isNone || (kvFind h.qt x.2.tq).isNone
    if missing then Pic.empty 0x0F h.scan h.w h.h h.comps.length
    else
      let cols := h.mcuCols
      let n := cols * h.mcuRows
      let per := if h.ri = 0 then n else h.ri
      let total := (n + per - 1) / per
      let (l, stop) := z.intervals false z.len 0 h.scan
      let mcus := fun (i : Nat) => (List.range (Nat.min per (n - i * per))).flatMap fun j => mcuBlocks h cols (i * per + j)
      let a := assemble total stop (fun i b => jpegBlocks h (mcus i) (h.comps.map fun _ => 0) b []) l
      let eoi := z.reachesEoi z.len stop
      let err := if a.err.isNone && !eoi then some z.len else a.err
      let blocks := a.goods.flatMap Prod.snd
      let zeroed := a.zeros.flatMap fun i => (mcus i).map fun m => blockKey m.1 m.2.1 m.2.2
      ⟨if err.isSome then 0x0F else 0, err.getD 0, a.back, h.w, h.h, h.comps.length, fun i x y =>
        let (px, py) := h.place i x y
        let k := blockKey i (px / 8) (py / 8)
        match blocks.find? fun e => e.1 == k with
        | some e => some (jpegSample e.2 (px % 8) (py % 8), false)
        | none => if zeroed.contains k then some (0, true) else none⟩

/-! ## JPEG-LS -/

/-- The parameters of a JPEG-LS scan. -/
structure Ls where
  maxval : Int
  near   : Int
  t1     : Int
  t2     : Int
  t3     : Int
  reset  : Int
  range  : Int
  qbpp   : Nat
  limit  : Nat
deriving DecidableEq, Repr

/-- ceil(log2 n). -/
def clog2 (n : Nat) : Nat := if n ≤ 1 then 0 else Nat.log2 (n - 1) + 1

/-- The parameters that a header gives: preset ones where LSE gives them, otherwise the defaults of T.87 C.2.4.1.1. -/
def Head.ls (h : Head) : Ls :=
  let pre := fun (i : Nat) (d : Int) => let v := (h.lse[i]?).getD 0; if v = 0 then d else (v : Int)
  let maxval := pre 0 (2 ^ h.prec - 1)
  let near : Int := h.near
  let clampTo := fun (lo v : Int) => if v > maxval || v < lo then lo else v
  let fh := (min maxval 4095 + 128) / 256
  let fl := 256 / (maxval + 1)
  let big := decide (128 ≤ maxval)
  let d1 := clampTo (near + 1) (if big then fh * 1 + 2 + 3 * near else max 2 (3 / fl + 3 * near))
  let t1 := pre 1 d1
  let d2 := clampTo t1 (if big then fh * 4 + 3 + 5 * near else max 3 (7 / fl + 5 * near))
  let t2 := pre 2 d2
  let d3 := clampTo t2 (if big then fh * 17 + 4 + 7 * near else max 4 (21 / fl + 7 * near))
  let range := (maxval + 2 * near) / (2 * near + 1) + 1
  let bpp := Nat.max 2 (clog2 (maxval.toNat + 1))
  ⟨maxval, near, t1, t2, pre 3 d3, pre 4 64, range, clog2 range.toNat, 2 * (bpp + Nat.max 8 bpp)⟩

/-- The adaptive state of a JPEG-LS scan: A, B, C and N by context (365 and 366 are the run-interruption contexts), Nn, and
RUNindex. -/
structure LsSt where
  a   : List (Nat × Int)
  b   : List (Nat × Int)
  c   : List (Nat × Int)
  n   : List (Nat × Int)
  nn  : List (Nat × Int)
  run : Nat
  bits : Bits
deriving DecidableEq, Repr

/-- A fresh state on some bits. -/
def LsSt.start (b : Bits) : LsSt := ⟨[], [], [], [], [], 0, b⟩

/-- A of a context. -/
def LsSt.ctxA (s : LsSt) (p : Ls) (q : Nat) : Int := kvGet (max 2 ((p.range + 32) / 64)) s.a q

/-- J, the run-length orders. -/
def lsJ (i : Nat) : Nat :=
  ([0, 0, 0, 0, 1, 1, 1, 1, 2, 2, 2, 2, 3, 3, 3, 3, 4, 4, 5, 5, 6, 6, 7, 7, 8, 9, 10, 11, 12, 13, 14, 15][i]?).getD 15

/-- The quantised gradient. -/
def Ls.quant (p : Ls) (d : Int) : Int :=
  if d ≤ -p.t3 then -4 else if d ≤ -p.t2 then -3 else if d ≤ -p.t1 then -2 else if d < -p.near then -1
  else if d ≤ p.near then 0 else if d < p.t1 then 1 else if d < p.t2 then 2 else if d < p.t3 then 3 else 4

/-- The Golomb parameter: the least k with n × 2^k ≥ a. -/
def golombK (n a : Int) : Nat → Nat → Nat
  | 0, k => k
  | fuel + 1, k => if n * 2 ^ k < a then golombK n a fuel (k + 1) else k

/-- Counts zero bits before a one. -/
def zerosRun (start : Nat) : Nat → Nat → Bits → Except Nat (Nat × Bits)
  | 0, _, _ => .error start
  | fuel + 1, n, b => do
    let (x, b) ← b.take1
    if x = 1 then return (n, b) else zerosRun start fuel (n + 1) b

/-- A code of the limited-length Golomb code LG(k, limit). -/
def Ls.golomb (p : Ls) (k limit : Nat) (b : Bits) : Except Nat (Nat × Bits) := do
  let (z, b) ← zerosRun b.at (limit + 1) 0 b
  if z < limit - p.qbpp - 1 then
    let (r, b) ← b.take k
    return (z * 2 ^ k + r, b)
  else
    let (r, b) ← b.take p.qbpp
    return (r + 1, b)

/-- A sample rebuilt from a prediction and an error, modulo the range and clamped. -/
def Ls.rebuild (p : Ls) (px err : Int) : Int :=
  let m := p.range * (2 * p.near + 1)
  let x := px + err * (2 * p.near + 1)
  let x := if x < -p.near then x + m else if x > p.maxval + p.near then x - m else x
  max 0 (min p.maxval x)

/-- One sample in regular mode from its four neighbours. -/
def Ls.regular (p : Ls) (s : LsSt) (ra rb rc rd : Int) : Except Nat (Int × LsSt) := do
  let q := 81 * p.quant (rd - rb) + 9 * p.quant (rb - rc) + p.quant (rc - ra)
  let sign : Int := if q < 0 then -1 else 1
  let i := q.natAbs
  let px := if max ra rb ≤ rc then min ra rb else if rc ≤ min ra rb then max ra rb else ra + rb - rc
  let px := max 0 (min p.maxval (px + sign * kvGet 0 s.c i))
  let a := s.ctxA p i
  let b := kvGet 0 s.b i
  let n := kvGet 1 s.n i
  let k := golombK n a 32 0
  let (m, bits) ← p.golomb k p.limit s.bits
  let e : Int :=
    if p.near = 0 && k = 0 && 2 * b ≤ -n then (if m % 2 = 1 then ((m - 1) / 2 : Nat) else -((m / 2 : Nat) : Int) - 1)
    else if m % 2 = 0 then (m / 2 : Nat) else -(((m + 1) / 2 : Nat) : Int)
  let b := b + e * (2 * p.near + 1)
  let a := a + e.natAbs
  let halve := decide (n = p.reset)
  let a := if halve then a / 2 else a
  let b := if halve then (if 0 ≤ b then b / 2 else -((1 - b) / 2)) else b
  let n := (if halve then n / 2 else n) + 1
  let c := kvGet 0 s.c i
  let (b, c) :=
    if b ≤ -n then (max (b + n) (-n + 1), max (-128) (c - 1))
    else if 0 < b then (min (b - n) 0, min 127 (c + 1))
    else (b, c)
  return (p.rebuild px (sign * e),
    { s with a := kvPut s.a i a, b := kvPut s.b i b, c := kvPut s.c i c, n := kvPut s.n i n, bits := bits })

/-- The sample that interrupts a run. -/
def Ls.interrupt (p : Ls) (s : LsSt) (ra rb : Int) : Except Nat (Int × LsSt) := do
  let ri : Nat := if (ra - rb).natAbs ≤ p.near.natAbs then 1 else 0
  let i := 365 + ri
  let a := s.ctxA p i
  let n := kvGet 1 s.n i
  let nn := kvGet 0 s.nn i
  let k := golombK n (if ri = 0 then a else a + n / 2) 32 0
  let (em, bits) ← p.golomb k (p.limit - lsJ s.run - 1) s.bits
  let t := em + ri
  let mag : Int := ((t + t % 2) / 2 : Nat)
  let e := if decide (k ≠ 0 ∨ n ≤ 2 * nn) == decide (t % 2 = 1) then -mag else mag
  let nn := if e < 0 then nn + 1 else nn
  let a := a + ((em + 1 - ri) / 2 : Nat)
  let halve := decide (n = p.reset)
  let s := { s with a := kvPut s.a i (if halve then a / 2 else a), n := kvPut s.n i ((if halve then n / 2 else n) + 1), nn := kvPut s.nn i (if halve then nn / 2 else nn), bits := bits }
  return (if ri = 1 then p.rebuild ra e else p.rebuild rb (if rb < ra then -e else e), s)

/-- The length of a run of at most `left` samples, and whether it was interrupted. -/
def lsRun : Nat → Nat → LsSt → Except Nat (Nat × Bool × LsSt)
  | 0, _, s => .ok (0, false, s)
  | fuel + 1, left, s =>
    if left = 0 then .ok (0, false, s)
    else do
      let (x, bits) ← s.bits.take1
      let n := 2 ^ lsJ s.run
      if x = 1 then
        let m := Nat.min n left
        let s := { s with bits := bits, run := if n ≤ left then Nat.min 31 (s.run + 1) else s.run }
        let (k, i, s) ← lsRun fuel (left - m) s
        return (m + k, i, s)
      else
        let (k, bits) ← bits.take (lsJ s.run)
        if left ≤ k then throw bits.at else return (k, true, { s with bits := bits })

/-- Decodes one line of `w` samples; `prev` is the line above, `above0` what lies left of it, and `acc` the samples of this
line so far, newest first. -/
def Ls.line (p : Ls) (w : Nat) (prev : List Int) (above0 : Int) : Nat → LsSt → List Int → Except Nat (List Int × LsSt)
  | 0, s, acc => .ok (acc.reverse, s)
  | fuel + 1, s, acc =>
    let x := acc.length
    if w ≤ x then .ok (acc.reverse, s)
    else
      let up := fun (i : Nat) => (prev[i]?).getD 0
      let rb := up x
      let rd := if x + 1 < w then up (x + 1) else rb
      let rc := if x = 0 then above0 else up (x - 1)
      let ra := match acc with | v :: _ => v | [] => up 0
      let flat := fun (d : Int) => decide (d.natAbs ≤ p.near.natAbs)
      if flat (rd - rb) && flat (rb - rc) && flat (rc - ra) then do
        let (k, cut, s) ← lsRun (w + 1) (w - x) s
        let acc := List.replicate k ra ++ acc
        if cut then
          let (v, s) ← p.interrupt s ra (up (x + k))
          p.line w prev above0 fuel { s with run := s.run - 1 } (v :: acc)
        else p.line w prev above0 fuel s acc
      else do
        let (v, s) ← p.regular s ra rb rc rd
        p.line w prev above0 fuel s (v :: acc)

/-- Decodes `n` lines of a restart interval: the line above and what lies left of it go on from line to line. -/
def Ls.lines (p : Ls) (w : Nat) : Nat → List Int → Int → LsSt → List (List Int) → Except Nat (List (List Int))
  | 0, _, _, _, acc => .ok acc.reverse
  | n + 1, prev, above0, s, acc => do
    let (l, s) ← p.line w prev above0 w s []
    p.lines w n l ((prev[0]?).getD 0) s (l :: acc)

/-- Decodes a JPEG-LS frame. A restart interval counts lines, and each starts from fresh contexts and a line of zeros. -/
def lsDecode (z : Strm) : Pic :=
  let h := if z.len < 2 || z.be16 0 ≠ 0xFFD8 then { Head.init with bad := some (if z.len < 2 then z.len else 0) }
    else z.head true z.len 2 Head.init
  match h.early with
  | some p => p
  | none =>
    let p := h.ls
    let per := if h.ri = 0 then h.h else h.ri
    let total := (h.h + per - 1) / per
    let (l, stop) := z.intervals true z.len 0 h.scan
    let count := fun (i : Nat) => Nat.min per (h.h - i * per)
    let a := assemble total stop (fun i b => p.lines h.w (count i) (List.replicate h.w 0) 0 (LsSt.start b) []) l
    let eoi := z.reachesEoi z.len stop
    let err := if a.err.isNone && !eoi then some z.len else a.err
    ⟨if err.isSome then 0x0F else 0, err.getD 0, a.back, h.w, h.h, h.comps.length, fun _ x y =>
      match a.goods.find? fun e => e.1 == y / per with
      | some e => ((e.2[y % per]?).bind fun l => l[x]?).map fun v => (v.toNat, false)
      | none => if a.zeros.contains (y / per) then some (0, true) else none⟩

end Sys2Proof.Machine
end

