-- ==== Sys2Proof/Machine/Tributary.lean ====
section
/-! DEFINITION. The tributaries: the DECODE descriptor turns a compressed frame into tiles (R258 to R263). -/

namespace Sys2Proof.Machine

/-- The fields of a DECODE descriptor (Tables 08-5 and 13-3). -/
structure Dec where
  trib   : Nat
  ls     : Bool
  colour : Bool
  patch  : Bool
  p      : Nat
  ofmt   : Nat
  ch0    : Nat
  nc     : Nat
  src    : Nat
  len    : Nat
  w      : Nat
  h      : Nat
  dst    : Nat
  param  : Nat
  obj    : Nat
  tile0  : Nat
deriving DecidableEq, Repr

/-- The fields of a DECODE descriptor. -/
def Work.dec (w : Work) : Dec :=
  let b := w.f 8 1
  ⟨b % 4, w.bit 8 2, w.bit 8 3, w.bit 8 4, if w.bit 8 5 then 32 else 16, fld b 6 2, fld (w.f 9 1) 0 3, fld (w.f 9 1) 3 4,
    w.addr 10, w.f 16 4, w.f 20 2 % 2 ^ 15, w.f 22 2 % 2 ^ 15, w.addr 24, w.addr 30, w.f 36 4, w.f 40 4⟩

/-- The tile format that OFMT names. -/
def Dec.fmt (c : Dec) : Nat := match c.ofmt with | 0 => 1 | 1 => 2 | _ => 11

/-- Tiles that cover `n` rows or columns. -/
def tiles128 (n : Nat) : Nat := (n + 127) / 128

/-- Rows of the output: pixel rows, or patches. -/
def Dec.rows (c : Dec) : Nat := if c.patch then c.h / c.p * (c.w / c.p) else c.h

/-- Tile columns of one channel. -/
def Dec.chCols (c : Dec) : Nat := if c.patch then c.p * c.p / 128 else tiles128 c.w

/-- Tile rows of the output, or of one channel's plane. -/
def Dec.tileRows (c : Dec) : Nat := tiles128 c.rows

/-- The number of the tile in row `i` and tile column `j` of channel `ch` (R262). -/
def Dec.tileNo (c : Dec) (ch i j : Nat) : Nat :=
  if c.patch then i * (c.nc * c.chCols) + ch * c.chCols + j else ch * (c.tileRows * c.chCols) + i * c.chCols + j

/-- The pixel at element (r, k) of tile (i, j) of a channel. -/
def Dec.pixel (c : Dec) (i j r k : Nat) : Nat × Nat :=
  if c.patch then
    let m := 128 * i + r
    let q := 128 * j + k
    let across := c.w / c.p
    (m % across * c.p + q % c.p, m / across * c.p + q / c.p)
  else (128 * j + k, 128 * i + r)

/-- The stream at SRC. -/
def State.stream (s : State) (c : Dec) : Strm := ⟨fun i => if i < c.len then (s.byte (c.src + i)).toNat else 0, c.len⟩

/-- What the tributary decodes. -/
def State.picture (s : State) (c : Dec) : Pic := if c.ls then lsDecode (s.stream c) else jpegDecode (s.stream c)

/-- Whether a tributary is in service and not fenced. -/
def State.tribOn (s : State) (d t : Nat) : Bool := s.rbit d Reg.trbCtrl t && !s.unitOut d (6 + t)

/-- Whether a tributary runs a descriptor. -/
def State.tribBusy (s : State) (d t : Nat) : Bool :=
  s.seq.works.any fun w => w.on == d && w.kind == 0x31 && w.started && w.engine == some (6 + t)

/-- The tributary that a descriptor binds to now: 255 with none idle (Table 08-5, TRIB). -/
def State.chooseTrib (s : State) (w : Work) (trib : Nat) : Nat × Nat :=
  let d := w.die
  if trib < 3 then (if !s.tribOn d trib then (7, 0) else if s.tribBusy d trib then (255, 0) else (0, trib))
  else
    let on := [0, 1, 2].filter (s.tribOn d)
    match on.find? fun t => !s.tribBusy d t && !s.spokenFor w (t + 1) with
    | some t => (0, t)
    | none => (if on.isEmpty then 7 else 255, 0)

/-- The channels that a frame of `n` components writes. -/
def Dec.channels (c : Dec) (n : Nat) : List Nat := (List.range n).map (c.ch0 + ·)

/-- The tiles of the channels of `n` components: number, channel, tile row and tile column. -/
def Dec.tiles (c : Dec) (n : Nat) : List (Nat × Nat × Nat × Nat) :=
  (c.channels n).flatMap fun ch => (List.range c.tileRows).flatMap fun i => (List.range c.chCols).map fun j => (c.tileNo ch i j, ch, i, j)

/-- The ranges of a DECODE: the stream, the parameters, and each tile it writes. -/
def decRanges (s : State) (w : Work) : List Rng :=
  let c := w.dec
  let n := if inHbm s.part.dies c.src c.len || inTs s.part.dies c.src c.len || inHost c.src c.len then (s.picture c).comps else 0
  [⟨c.src, c.len, false⟩, ⟨c.param, 32, false⟩] ++
    (c.tiles n).map fun t => ⟨c.dst + t.1 * tileStride c.fmt, tileStride c.fmt, true⟩

/-- The codes of a DECODE (R258, R260). -/
def decCodes (s : State) (w : Work) : List Nat :=
  let c := w.dec
  let p := s.picture c
  let readable := mappedRange s.part.dies c.src c.len && mappedRange s.part.dies c.param 32
  [need (!w.bit 9 7 && w.zeroFrom 44 && w.f 20 2 / 2 ^ 15 == 0 && w.f 22 2 / 2 ^ 15 == 0 && c.obj / 2 ^ 20 == 0),
   need (decide (1 ≤ c.w) && decide (c.w ≤ 16384) && decide (1 ≤ c.h) && decide (c.h ≤ 16384) && c.ofmt != 3 && decide (1 ≤ c.nc) && decide (c.nc ≤ 8)),
   need (c.dst % 64 == 0 && c.src % 64 == 0 && c.param % 64 == 0 && c.len != 0 && !(c.ofmt == 2 && c.ls)),
   need (!c.patch || (c.w % c.p == 0 && c.h % c.p == 0))] ++
  (if readable then
    [need (c.ofmt != 2 || goodScale (s.memN (c.param + 24) 4)),
     need (s.memN (c.param + 28) 4 == 0),
     need (p.status == 0x0E || p.comps == 0 || (p.w == c.w && p.h == c.h && decide (c.ch0 + p.comps ≤ c.nc))),
     need (!c.patch || decide (c.nc * c.chCols * tileStride c.fmt ≤ 2 ^ 20)),
     if p.status = 0x0E then 0x0E else 0]
  else []) ++ [(s.chooseTrib w c.trib).1]

/-- The clamp of the colour conversion. -/
def clamp255 (v : Int) : Nat := (max 0 (min 255 v)).toNat

/-- Sample (x, y) of output component i: the frame's own, or R, G, B from Y, Cb and Cr (R259). -/
def Pic.out (p : Pic) (colour : Bool) (i x y : Nat) : Option (Nat × Bool) :=
  if colour && p.comps = 3 then
    match p.get 0 x y, p.get 1 x y, p.get 2 x y with
    | some (l, z0), some (b, z1), some (r, z2) =>
      let yy : Int := 65536 * l
      let cb : Int := (b : Int) - 128
      let cr : Int := (r : Int) - 128
      let v := match i with
        | 0 => (yy + 91881 * cr + 32768) / 65536
        | 1 => (yy - 22554 * cb - 46802 * cr + 32768) / 65536
        | _ => (yy + 116130 * cb + 32768) / 65536
      some (clamp255 v, z0 || z1 || z2)
    | _, _, _ => none
  else p.get i x y

/-- The element that sample `v` of component `i` becomes, and its flags (R261). -/
def State.decElem (s : State) (c : Dec) (ftz : Bool) (i v : Nat) : Nat × Nat :=
  if c.fmt = 11 then (twos ((v : Int) - 128) 8, 0)
  else
    let sample := (convFloat fp32 (rne false) (Val.ofInt v)).1
    let (x, f) := f32fma false false false sample (s.memN (c.param + 4 * i) 4) (s.memN (c.param + 12 + 4 * i) 4)
    let (y, g) := convFloat (elemFmt c.fmt) ⟨.nearest, true, ftz, 0⟩ (fp32.decode x)
    (y, Nat.lor f g)

/-- Writes one tile of a frame and gives its flags: a tile with a sample that was never decoded is all zero with POISON, one
with a zero-filled sample carries POISON (R263). -/
def State.decTile (s : State) (c : Dec) (p : Pic) (ftz tag : Bool) (t : Nat × Nat × Nat × Nat) : State × Nat :=
  let (no, ch, i, j) := t
  let rows := Nat.min 128 (c.rows - 128 * i)
  let cols := if c.patch then 128 else Nat.min 128 (c.w - 128 * j)
  let at_ := fun (r k : Nat) => let (x, y) := c.pixel i j r k; p.out c.colour (ch - c.ch0) x y
  let cells := (List.range rows).flatMap fun r => (List.range cols).map fun k => (128 * r + k, at_ r k)
  let lost := cells.any fun e => e.2.isNone
  let zeroed := cells.any fun e => match e.2 with | some (_, z) => z | none => false
  let els := if lost then [] else cells.map fun e => (e.1, s.decElem c ftz (ch - c.ch0) ((e.2.map Prod.fst).getD 0))
  let ts := if c.fmt = 11 then s.memN (c.param + 24) 4 else 0x3F800000
  let new : NewTile := ⟨c.fmt, rows, cols, ts, none, objectId c.obj, (c.tile0 + no) % 2 ^ 32, lost || zeroed || tag⟩
  let codes := els.map fun e => (e.1, e.2.1)
  (s.writeTile (c.dst + no * tileStride c.fmt) new (kvGet 0 codes) (fun _ => 0) none, els.foldl (fun f e => Nat.lor f e.2.2) 0)

/-- Runs a DECODE that has started: every tile of the frame's channels is written once. Poison in the stream or the
parameters marks every tile (R27). -/
def State.decBody (s : State) (w : Work) : State :=
  let c := w.dec
  let d := w.die
  let p := s.picture c
  let (_, t) := s.chooseTrib w c.trib
  let s := s.modWork w.id fun x => { x with engine := some (6 + t) }
  let tag := s.tagged c.src c.len || s.tagged c.param 32
  let (s, f) := (c.tiles p.comps).foldl (fun (a : State × Nat) t =>
    let (s, g) := a.1.decTile c p (bit w.ftz 3) tag t
    (s, Nat.lor a.2 g)) (s, 0)
  let k := Reg.trbCntLo
  let s := (s.bump d (k 0) (p.w * p.h)).bump d (k 1) 1
  let s := (s.bump d (k 2) (b2n (p.status == 0x0F))).bump d (k 4) p.back
  s.endWork w.id fun r => { r with status := p.status, flags := Nat.lor r.flags f, poison := r.poison || tag, detail1 := p.err }

/-- DECODE (R260). A stream outside the subset is counted (R258). -/
def execDecode (id : Nat) (s : State) : Res :=
  let t := s.begin id (fun w => w.kind == 0x31) decRanges decCodes State.decBody
  live s (
    match s.work id, t.work id with
    | some a, some b => if !a.ended && b.ended && b.res.status = 0x0E then t.bump b.on (Reg.trbCntLo 3) 1 else t
    | _, _ => t)

end Sys2Proof.Machine
end

