-- ==== Sys2Proof/Machine/Ras.lean ====
section
/-! DEFINITION. Faults and spares (chapter 19): the patrol scrubber and poison finds (R588 to R591), fencing (R592 to R594),
tile-store rows (R595, R596), the die mesh (R16 to R18, R597), change frames (R598 to R601, R654), and return to service (R602,
R603). -/

namespace Sys2Proof.Machine

/-! ## Poison and the scrubber -/

/-- The die whose memory holds an address. -/
def State.memDie (s : State) (a : Nat) : Nat :=
  match spaceOf s.part.dies a with
  | .hbm d _ => d
  | .ts d _ => d
  | _ => 0

/-- The key of a bank row of a die. -/
def rowKey (d bank row : Nat) : Nat := 2048 * (32 * d + bank) + row

/-- A line is found uncorrectable: it is marked and counted, its tile-store row needs repair, and the owner search starts. One already
poisoned is no new find (R588, R591, R595). -/
def State.foundBad (s : State) (line : Nat) (demand : Bool) : State :=
  let a := line * 64
  if s.poisoned line || !(inHbm s.part.dies a 64 || inTs s.part.dies a 64) then s
  else
    let d := s.memDie a
    let i := if inHbm s.part.dies a 64 then 1 else 3
    let s := (s.markLine line true).bumpErr d (Reg.rasCntLo i) i 1
    let s := s.setRbit d Reg.rasStatus 1 true
    let off := a - tsBase - tsStride * d
    let bad := if i = 3 then addNew (rowKey d (off / 512 % 32) (off / 65536)) s.ras.badRows else s.ras.badRows
    { s with ras := { s.ras with badRows := bad, searches := s.ras.searches ++ [(d, line, demand)] } }

/-- POISON_FOUND (R588, R591). -/
def execPoisonFound (line : Nat) (demand : Bool) (s : State) : Res := onDie s (s.memDie (line * 64)) (s.foundBad line demand)

/-- Lines of one HBM stack and of one tile store. -/
def scrubLines (ts : Bool) : Nat := (if ts then tsSize else hbmSize) / 64

/-- The next position of a scrubber: at the end of a pass it wraps, and the pass is counted; the corrected errors of a
tile-store pass are forgotten (R590, R595). -/
def State.scrubStep (s : State) (d : Nat) (ts : Bool) : State :=
  let k := 2 * d + b2n ts
  let x := kvGet 0 s.ras.scrub k + 1
  if x < scrubLines ts then { s with ras := { s.ras with scrub := kvSet 0 s.ras.scrub k x } }
  else
    let lo := if ts then 16 else 0
    let s := s.setRf d Reg.rasScrubPass lo 16 (Nat.min 0xFFFF (s.rf d Reg.rasScrubPass lo 16 + 1))
    let errs := if ts then s.ras.rowErrs.filter (fun r => r.1 / 65536 != d) else s.ras.rowErrs
    { s with ras := { s.ras with scrub := kvSet 0 s.ras.scrub k 0, rowErrs := errs } }

/-- SCRUB_READ: the patrol scrubber reads its next line, writes back what it corrects, and counts it; fenced rows and stacks
that are fenced or failed are skipped (R590). -/
def execScrubRead (d : Nat) (ts : Bool) (corrected : Nat) (uncorrectable : Bool) (s : State) : Res :=
  onDie s d (
    if !s.rbit d Reg.rasCtrl 0 || s.dieOut d then s
    else
      let off := 64 * kvGet 0 s.ras.scrub (2 * d + b2n ts)
      let a := if ts then tsBase + tsStride * d + off else hbmSize * d + off
      let skip := if ts then s.fencedRow d off 64 else s.unitOut d 0x0E || s.rbit d Reg.hbmStatus 1
      let s :=
        if skip then s
        else
        let s := s.access false a 64
        if uncorrectable then s.foundBad (lineOf a) false
        else
          let s := s.bump d (Reg.rasCntLo (if ts then 2 else 0)) corrected
          let s := if ts then s else s.bump d (Reg.hbmCntLo 2) corrected
          let k := rowKey d (off / 512 % 32) (off / 65536)
          if ts then { s with ras := { s.ras with rowErrs := kvSet 0 s.ras.rowErrs k (kvGet 0 s.ras.rowErrs k + corrected) } } else s
      s.scrubStep d ts)

/-- The re-fetch of one owner of a found line: queued, no room, or none for an object without a clean copy (R256). The answer is
REFETCH of the log. -/
def State.refetchFor (s : State) (d obj a : Nat) : Nat × State :=
  let r := s.obj d obj
  if !r.clean then (0, s)
  else if 256 ≤ (s.refetch.filter fun b => b.d == d).length then
    (2, (s.bump d (Reg.flCntLo 7) 1).setRbit d Reg.rasStatus 2 true)
  else
    let blk := (a - r.base) / 4096
    let b : Refetch := ⟨d, obj, r.base + 4096 * blk, Nat.min 4096 (r.len - 4096 * blk), r.vlba + blk⟩
    (1, { s with refetch := s.refetch ++ [b] })

/-- The payload of POISON_FOUND from byte 4 (Table 19-5). -/
def poisonPayload (a src owner refetch : Nat) : List Byte := natLe 6 a ++ natLe 2 src ++ natLe 4 owner ++ natLe 1 refetch

/-- What the search finds for one owner: the log entry, the event, the queued re-fetch, and the end of retention (R591). -/
def State.reportOwner (s : State) (d a src obj : Nat) : State :=
  let p := (s.obj d obj).part
  let (f, s) := s.refetchFor d obj a
  let s := s.rasLogAdd d a src f obj
  let s := s.event p 0x10 d srcRas (poisonPayload a src obj f)
  s.releaseKept fun k => k.obj == obj

/-- OWNER_SEARCH: the oldest owner search of a die ends (R591). -/
def execOwnerSearch (d : Nat) (s : State) : Res :=
  onDie s d (
    match s.ras.searches.find? fun x => x.1 == d with
    | none => s
    | some x =>
      let s := { s with ras := { s.ras with searches := s.ras.searches.erase x } }
      let s := s.setRbit d Reg.rasStatus 1 (s.ras.searches.any fun y => y.1 == d)
      let a := x.2.1 * 64
      let src := b2n x.2.2
      match s.ownersAt d a with
      | [] =>
        let s := s.rasLogAdd d a src 0 0xFFFFFFFF
        s.eventAll 0x10 d srcRas (poisonPayload a src 0xFFFFFFFF 0)
      | os => os.foldl (fun s o => s.reportOwner d a src o) s)

/-! ## The die mesh (R16 to R18, R597) -/

/-- ALT and CUT of D2D_STATUS of a die under a view. -/
def Part.meshBits (p : Part) (view : List Nat × List Nat) (d : Nat) : List Nat × List Nat :=
  let far := (List.range p.dies).filter fun e => e != d && !routeOk view d (p.primary d e)
  let alt := fun (e : Nat) => match p.alternate d e with | some r => routeOk view d r | none => false
  (far.filter alt, far.filter fun e => !alt e)

/-- The usable dies and links as they stand (R597): a link is usable while it is up at both ends. -/
def State.meshNow (s : State) : List Nat × List Nat :=
  let dies := (List.range s.part.dies).filter fun d => !s.dieOut d
  let up := fun (a b : Nat) => match (s.part.links a).findIdx? fun x => x == b with | some k => s.rbit a Reg.d2dStatus k | none => false
  (dies, dies.flatMap fun a => ((s.part.links a).filter fun b => decide (a < b) && up a b && up b a).map fun b => linkKey a b)

/-- Notes a change of the usable dies and links, which die 0 numbers and sends. -/
def State.meshNote (s : State) : State :=
  let v := s.meshNow
  if v = s.ras.views.getLastD s.ras.view then s else { s with ras := { s.ras with views := s.ras.views ++ [v] } }

/-- One die applies a mesh change. -/
def State.meshApply (s : State) (d : Nat) : State :=
  let (alt, cut) := s.part.meshBits s.ras.view d
  let old := s.rf d Reg.d2dStatus 16 8
  let s := s.setRf d Reg.d2dStatus 8 8 (sumNat (alt.map fun e => 2 ^ e))
  let s := s.setRf d Reg.d2dStatus 16 8 (sumNat (cut.map fun e => 2 ^ e))
  let s := s.setRegN d Reg.rasEpoch (s.regN d Reg.rasEpoch + 1)
  (cut.filter fun e => !s.dieOut e && !bit old e).foldl (fun s e => s.degrade d 5 e 0) s

/-- MESH_CHANGE: with every acknowledgement of the last change in, die 0 sends the next one and each usable die applies it
(R597). -/
def execMeshChange (s : State) : Res :=
  live s (
    match s.ras.views with
    | [] => s
    | v :: rest =>
      if !s.ras.owe.isEmpty then s
      else
        let s := { s with ras := { s.ras with views := rest, view := v, owe := v.1 } }
        (v.1.foldl State.meshApply s).loseUnreached)

/-- MESH_CHANGE_ACK (R597). -/
def execMeshChangeAck (d : Nat) (s : State) : Res := onDie s d { s with ras := { s.ras with owe := without d s.ras.owe } }

/-! ## Units (Table 19-2) -/

/-- Whether the part has a unit on a die. -/
def State.unitThere (s : State) (d u : Nat) : Bool :=
  decide (u ≤ 0x0F) && (decide (u < 9) || decide (0x0C ≤ u) || decide (u - 9 < (s.part.links d).length))

/-- The causes that Table 19-2 gives a unit. -/
def unitCauses (u : Nat) : List Nat :=
  if u < 4 then [1, 2, 3] else if u < 6 then [2, 3] else if u < 9 then [3] else if u < 0x0E then [4]
  else if u = 0x0E then [5] else [6, 7, 8]

/-- The half-die that a unit serves, if it serves one. -/
def unitHalf (d u : Nat) : Option Nat := if u < 4 then some (2 * d + u / 2) else if u < 6 then some (2 * d + u - 4) else none

/-- Posts an event about a unit: to the partition that owns its half-die, or to every enabled partition (R605). -/
def State.unitEvent (s : State) (d u code : Nat) (payload : List Byte) : State :=
  match (unitHalf d u).bind (s.ownerOf d) with
  | some p => s.event p code d srcRas payload
  | none => s.eventAll code d srcRas payload

/-- Sets or clears FENCED of an engine's status register (Tables 04-9 and 07-8). -/
def State.fencedBit (s : State) (d u : Nat) (b : Bool) : State :=
  if u < 4 then s.setRbit d (Reg.meStatus u) 2 b else if u < 6 then s.setRbit d (Reg.veStatus (u - 4)) 1 b else s

/-- The fence itself (R592): STATE fenced, or permanent at the third fence (R602), the cause, CAP_LIVE, the counter and the
event. -/
def State.fenceMark (s : State) (d u cause : Nat) : State :=
  let n := Nat.min 15 (s.rf d (Reg.rasUnit u) 2 4 + 1)
  let s := s.setRegN d (Reg.rasUnit u) ((if 3 ≤ n then 3 else 1) + 4 * n + 256 * cause)
  let s := s.setRbit d Reg.rasCapLive u false
  let s := s.bump d (Reg.rasCntLo 6) 1
  let s := s.fencedBit d u true
  let s := { s with ras := { s.ras with passed := without (d, u) s.ras.passed } }
  s.unitEvent d u 0x11 (natLe 1 u ++ natLe 1 cause ++ natLe 2 n ++ natLe 4 (s.regN d Reg.rasCapLive))

/-! ## What was running on a fenced unit (R593) -/

/-- Queues the passes of a matrix descriptor from its first on engine `v`. -/
def State.rePass (s : State) (w : Work) (v : Nat) : State :=
  let c := w.mtx
  let (kappa, sigma) := (s.mtxPair c).getD (1, 1)
  let ps := s.passes w.id c (c.gearW (s.meCtrl w.die v 1) sigma) kappa sigma
  let x := s.eng w.die v
  (s.setEng { x with queue := x.queue ++ ps }).modWork w.id fun y => { y with engine := some v, ended := false }

/-- Whether the descriptor's UNIT or TRIB field leaves the choice to the hardware. -/
def Work.unitFree (w : Work) : Bool :=
  if w.kind = 0x10 then fld (w.f 26 8) 58 3 == 0 else if w.kind = 0x13 then w.f 32 1 % 4 == 0 else w.dec.trib == 3

/-- Where one descriptor started on fenced unit `u` goes (R593): to the sibling with the fewest queued descriptors, to another
tributary, or to its end with the unavailable status. -/
def State.restartOne (s : State) (d u : Nat) (w : Work) : State :=
  if !w.unitFree then s.endStatus w.id 7
  else if u < 6 then
    match minBy (s.queued d) (s.siblings d w.part u) with
    | none => s.endStatus w.id 7
    | some v => if u < 4 then s.rePass w v else s.modWork w.id fun y => { y with engine := some v }
  else
    match minBy (fun t => s.queued d (6 + t)) ([0, 1, 2].filter (s.tribOn d)) with
    | none => s.endStatus w.id 7
    | some t => s.modWork w.id fun y => { y with engine := some (6 + t) }

/-- Empties a fenced engine and restarts its descriptors. Batches follow R160 and optimiser stages R226, by commands of their
own. -/
def State.restartUnit (s : State) (d u : Nat) : State :=
  let ws := s.seq.works.filter fun w => w.on == d && w.engine == some u && w.started && w.batch.isNone && w.kind != 0x14
  let ids := ws.map fun w => w.id
  let x := s.eng d u
  let s := if u < 4 then s.setEng (x.without ids).rest else s
  ws.foldl (fun s w => s.restartOne d u w) s

/-- After an engine's fence: DEGRADED for the partition that has lost its last engine of the kind on the die (Table 19-5). -/
def State.lastOfKind (s : State) (d u : Nat) : State :=
  match (unitHalf d u).bind (s.ownerOf d) with
  | none => s
  | some p =>
    let mine := if u < 4 then [0, 1, 2, 3].filter (s.meOwned d p) else ([0, 1].filter (s.veOwned d p)).map (4 + ·)
    if mine.all fun v => s.unitOut d v then s.degrade d 4 u p else s

/-! ## UCIe links (R603, R625, R627) -/

/-- The far end of link `k` of a die: the die and the link's number there. -/
def State.farEnd (s : State) (d k : Nat) : Option (Nat × Nat) :=
  match (s.part.links d)[k]? with
  | none => none
  | some e => ((s.part.links e).findIdx? fun x => x == d).map fun j => (e, j)

/-- Sets UP and RETRAINING of one end of a link. -/
def State.linkBits (s : State) (d k : Nat) (up retraining : Bool) : State :=
  ((s.setRbit d Reg.d2dStatus k up).setRbit d (Reg.d2dLink k) 4 up).setRbit d (Reg.d2dLink k) 5 retraining

/-- Sets UP and RETRAINING of both ends. -/
def State.linkBoth (s : State) (d k : Nat) (up retraining : Bool) : State :=
  match s.farEnd d k with
  | some (e, j) => (s.linkBits d k up retraining).linkBits e j up retraining
  | none => s

/-- Counts a retrain at one end (Table 20-6). -/
def State.countRetrain (s : State) (d k : Nat) : State :=
  (s.setRf d (Reg.d2dLink k) 8 8 (Nat.min 255 (s.rf d (Reg.d2dLink k) 8 8 + 1))).bump d (Reg.d2dCntLo (4 * k + 3)) 1

/-- Whether either end of a link is fenced. -/
def State.linkFenced (s : State) (d k : Nat) : Bool :=
  match s.farEnd d k with
  | some (e, j) => s.unitOut d (9 + k) || s.unitOut e (9 + j) || s.dieOut d || s.dieOut e
  | none => true

/-- A link goes down to retrain in quiet (R627). -/
def State.linkRetrain (s : State) (d k : Nat) : State :=
  match s.farEnd d k with
  | some (e, j) => (((s.linkBoth d k false true).countRetrain d k).countRetrain e j).meshNote
  | none => s

/-- A write to D2D_CMD: a RETRAIN that names a link absent, fenced, or not up is discarded (R627). -/
def State.d2dCmdWrite (s : State) (d v : Nat) : State :=
  (bitsOf v 3).foldl (fun s k => if s.rbit d Reg.d2dStatus k && !s.linkFenced d k then s.linkRetrain d k else s) s

/-- UCIE_RETRAIN (R627). -/
def execUcieRetrain (d : Nat) (value : W32) (s : State) : Res := onDie s d (s.d2dCmdWrite d value.toNat)

/-- UCIE_LINK_LOST: a link that is up fails on its own and retrains (R592, R603). -/
def execUcieLinkLost (d k : Nat) (s : State) : Res :=
  onDie s d (if k < 3 && s.rbit d Reg.d2dStatus k && !s.linkFenced d k then s.linkRetrain d k else s)

/-! ## Change frames (R598 to R601) -/

/-- A change frame on its way out: broadcast on side ports. -/
def changeTx (side : Bool) (f : ChangeFrame) : TxFrame := ⟨7, if side then 2 ^ 48 - 1 else 0, true, none, .change f⟩

/-- The ports that carry a change: torus ports, and for PKG_FAILED side ports too, that are up (R598). -/
def State.changePorts (s : State) (kind : Nat) : List Nat :=
  (List.range s.part.dies).filter fun d => s.portUp d && (decide (d < s.part.torusPorts) || kind == 2)

/-- Sends a change on every port that carries it but the one it came by, ahead of what is forwarded later (R599). -/
def State.floodChange (s : State) (f : ChangeFrame) (from_ : Option Nat) : State :=
  ((s.changePorts f.kind).filter fun d => some d != from_).foldl (fun s d => s.queueTx d (changeTx (decide (s.part.torusPorts ≤ d)) f)) s

/-- Frames held in the replay buffers of a port's sequenced links go back to its queue, from where they leave by the new route (R601). -/
def State.unhold (s : State) (d : Nat) : State :=
  let held := ((s.wire d 1).held ++ (s.wire d 2).held).map fun h => h.f
  let s := s.modEth d fun e => { e with txq := held.filter (fun f => f.item.routed) ++ e.txq }
  (s.modWire d 1 fun _ => Link.idle d 1).modWire d 2 fun _ => Link.idle d 2

/-- Sends what waits by the map now in force, with what is held for the torus ports that are not open any more (R342, R601). -/
def State.reroute (s : State) : State :=
  (((List.range s.part.torusPorts).filter fun r => !s.hopOpen s.selfXyz (r / 2) (r % 2 == 0)).foldl State.unhold s).requeue

/-- Reports a package failed (R600): the event, and the loss of the member to its groups and domains. -/
def State.peerFailed (s : State) (xyz serial : Nat) : State :=
  let s := s.eventAll 0x15 0 srcRas (natLe 2 (xyz % 2 ^ 14) ++ natLe 2 0 ++ natLe 8 serial)
  let s := s.loseUnreached
  s.loseDomMembers fun m => if xyz = 2 ^ 14 then m.side && m.mac == Config.sideMac serial else !m.side && m.xyz == xyz

/-- Whether every torus link of a package is down: both directions of every axis that has another package (R600). -/
def State.cutOff (s : State) (xyz : Nat) : Bool :=
  let axes := [0, 1, 2].filter fun a => decide (1 < s.dimOf a)
  let gone := fun (a : Nat) (plus : Bool) =>
    s.torus.down.contains (xyz, roleOf a plus) || s.torus.down.contains (s.stepXyz xyz a plus, roleOf a (!plus))
  !axes.isEmpty && axes.all fun a => gone a true && gone a false

/-- Applies what a change says of links and packages. -/
def State.applyView (s : State) (f : ChangeFrame) : State :=
  let t := s.torus
  let xyz := if f.side then 2 ^ 14 else f.subject
  if f.kind = 0 then { s with torus := { t with down := addNew (xyz, f.role) t.down } }
  else if f.kind = 1 then { s with torus := { t with down := without (xyz, f.role) t.down } }
  else { s with torus := { t with failed := addNew (xyz, f.serial) t.failed } }

/-- R654: the package has applied PKG_FAILED naming itself. Every descriptor not completed ends with the unavailable status,
transmitters go idle, and RAS_UNIT[0x0F] of die 0 reads fenced with cause 0xA. -/
def State.declaredFailed (s : State) : State :=
  let s := s.setRbit 0 Reg.rasStatus 3 true
  let s := if s.dieOut 0 then s else s.fenceMark 0 0x0F 0xA
  let s := s.endColls (fun _ => true) 7
  let s := (s.seq.works.filter fun w => !w.ended).foldl (fun s w => s.endStatus w.id 7) s
  let s := { s with engs := [], lists := [], xfers := [] }
  s.eachDie fun s d => (s.portDown d).modEth d fun e => { e with txq := [] }

/-- Applies a change once and sends it on (R599). Links of this package's own torus are no cause to report itself (R654). -/
def State.change (s : State) (f : ChangeFrame) (from_ : Option Nat) : State :=
  let key := (f.origin, f.seq)
  if s.torus.seen.contains key then s
  else
    let before := fun (x : Nat) => s.cutOff x
    let s := { s with torus := { s.torus with seen := s.torus.seen ++ [key] } }
    let s := s.eachDie fun s d => if s.dieOut d then s else s.setRegN d Reg.rasEpoch (s.regN d Reg.rasEpoch + 1)
    if f.kind = 2 && f.serial = s.serial then
      let s := if from_.isNone then (s.changePorts 2).foldl (fun s d => s.sendFrame d (changeTx (decide (s.part.torusPorts ≤ d)) f) none) s else s
      s.declaredFailed
    else
      let s := ((s.applyView f).floodChange f from_).reroute.loseUnreached
      if f.kind = 2 then s.peerFailed (if f.side then 2 ^ 14 else f.subject) f.serial
      else if f.kind = 0 then
        let near := s.stepXyz f.subject (f.role / 2) (f.role % 2 == 0)
        ((nub [f.subject, near]).filter fun x => x != s.selfXyz && s.cutOff x && !before x).foldl
          (fun s x => s.peerFailed x (if x = f.subject then f.serial else Config.peerSerial x)) s
      else s

/-- Originates a change of this package. -/
def State.originate (s : State) (kind role subject : Nat) (side : Bool) (serial : Nat) : State :=
  let n := s.torus.next
  let s := { s with torus := { s.torus with next := (n + 1) % 65536 } }
  s.change ⟨kind, 1, role, n, s.selfXyz, subject, side, serial⟩ none

/-- Whether the package has its place in a torus: GEN_DISC_STATUS.STATE reads VALID. -/
def State.discValid (s : State) : Bool := s.rf 0 Reg.genDiscStatus 0 2 == 2

/-- The torus link of a port goes down (R599). -/
def State.torusDown (s : State) (d : Nat) : State :=
  let s := s.portDown d
  let s := { s with disc := { s.disc with heard := without d s.disc.heard } }
  if s.discValid && !s.torus.down.contains (s.selfXyz, d) then s.originate 0 d s.selfXyz false s.serial else s

/-- TORUS_LINK_DOWN (R599). -/
def execTorusLinkDown (d : Nat) (s : State) : Res := onDie s d (if d < s.part.torusPorts then s.torusDown d else s)

/-- A port's link comes up in standard mode at full width; the pending settings apply (R291, R546). A torus port sends its
capability frame (R279). -/
def State.linkUpNow (s : State) (d : Nat) : State :=
  let s := s.latchEth d
  let s := s.modEth d fun e => { e with failed := [], floor := 0 }
  let s := s.modWire d 0 fun _ => Link.idle d 0
  let v := setFld (setFld (setFld (s.regN d Reg.ethStatus) 0 2 1) 2 2 3) 4 8 0xFF
  let s := s.setRegN d Reg.ethStatus v
  if d < s.part.torusPorts then s.ximelCtl d 7 0 0 (0x1100 + s.part.dies) else s

/-- Whether a port may come up: enabled, its unit in service, and the package not declared failed. -/
def State.portMayUp (s : State) (d : Nat) : Bool :=
  s.rbit d Reg.ethCtrl 0 && !s.unitOut d 0x0C && !s.dieOut d && !s.rbit 0 Reg.rasStatus 3

/-- TORUS_LINK_UP: a returned torus link that has trained in quiet is in service again (R599, R603); a port held out only because
it came up late joins (R546). -/
def execTorusLinkUp (d : Nat) (s : State) : Res :=
  onDie s d (
    if !(decide (d < s.part.torusPorts) && s.portMayUp d) then s
    else
      let s := if s.portUp d then s else (s.linkUpNow d).loseFrames
      let late := !s.rbit 0 Reg.genDiscStatus (16 + d) && !s.rbit 0 Reg.genDiscStatus (24 + d)
      let s := if late then s.eachDie fun s e => s.setRbit e Reg.genDiscStatus (8 + d) false else s
      if s.discValid && s.torus.down.contains (s.selfXyz, d) then s.originate 1 d s.selfXyz false s.serial else s)

/-- A change frame arrives on a port and is applied; one of a reserved kind is dropped (Table 19-3). -/
def State.changeIn (s : State) (d : Nat) (f : ChangeFrame) : State :=
  let s := s.takeRx d 0x88B9
  if 3 ≤ f.kind || s.rbit 0 Reg.rasStatus 3 || s.dieOut 0 then s else s.change f (some d)

/-- LINK_DOWN (R599, R600). -/
def execLinkDown (d : Nat) (f : ChangeFrame) (s : State) : Res := onDie s d (s.changeIn d { f with kind := if 3 ≤ f.kind then f.kind else 0 })

/-- LINK_UP (R599). -/
def execLinkUp (d : Nat) (f : ChangeFrame) (s : State) : Res := onDie s d (s.changeIn d { f with kind := if 3 ≤ f.kind then f.kind else 1 })

/-- PKG_FAILED (R599, R600, R654). -/
def execPkgFailed (d : Nat) (f : ChangeFrame) (s : State) : Res := onDie s d (s.changeIn d { f with kind := if 3 ≤ f.kind then f.kind else 2 })

/-- The write to RAS_DECLARE_HI originates PKG_FAILED for the serial written (R599, R654). -/
def State.declare (s : State) (hi : Nat) : State :=
  let serial := 2 ^ 32 * hi + s.regN 0 Reg.rasDeclareLo
  if serial = s.serial then s.originate 2 0 s.selfXyz false serial
  else match Config.peerXyz serial with
    | some xyz => s.originate 2 0 (xyz % 2 ^ 14) false serial
    | none => s.originate 2 0 0 true serial

/-- RAS_DECLARE (R599, R654). -/
def execRasDeclare (hi : W32) (s : State) : Res := onDie s 0 (s.declare hi.toNat)

/-! ## Fencing -/

/-- Ends with the unavailable status what uses the flash port of a die: its outstanding pieces are abandoned (R510, R541). -/
def State.abandonPort (s : State) (port : Nat) : State :=
  (s.xfers.flatMap fun x => (x.pieces.zipIdx.filter fun y => y.1.port == port && !y.1.over).map fun y => (x.id, y.2)).foldl
    (fun s z => ((s.modWork z.1 fun w => if w.res.status = 0 then { w with res := { w.res with status := 7 } } else w).setPiece z.1 z.2 3).settleXfer z.1) s

/-- The flash port of a die loses its drive, which it holds in reset (Table 17-2). -/
def State.flashGone (s : State) (d : Nat) : State :=
  let s := s.abandonPort d
  let s := { s with drives := s.drives.filter fun x => x.d != d }
  (s.setRegN d Reg.flStatus 0).emit (.pin "FL_DRV_RST_N" d false)

/-- The ranges that a descriptor reads and writes as data. -/
def State.workRanges (s : State) (w : Work) : List Rng :=
  match w.kind with
  | 0x01 => copyRanges s w
  | 0x02 => [⟨w.addr 8, w.f 14 1 % 64, true⟩]
  | 0x05 => [⟨w.addr 8, 16 * w.f 14 2, false⟩]
  | 0x10 => mtxRanges s w
  | 0x11 => cvtRanges s w
  | 0x12 => histRanges s w
  | 0x13 => vecRanges s w
  | 0x14 => s.upRanges w w.upEntries
  | 0x15 => gateRanges s w
  | 0x20 => if w.cop = 7 then groupSetRanges s w else collRanges s w
  | 0x28 => if w.f 8 1 % 4 = 3 then [⟨w.cAddr, 256, true⟩] else [⟨w.cAddr, 64, false⟩]
  | 0x2A => xferRanges s w
  | 0x2B => xferRanges s w
  | 0x2C => xferRanges s w
  | 0x2D => xferRanges s w
  | 0x2E => [⟨w.addr 8, w.f 14 4, true⟩]
  | 0x30 => flashRanges s w
  | 0x31 => decRanges s w
  | 0x3B => [⟨w.addr 10, 64, false⟩]
  | 0x3C => [⟨w.addr 10, 32, false⟩]
  | 0x3D => [⟨w.addr 8, 4096, false⟩]
  | _ => []

/-- Every descriptor that has started and needs a stack, a tile store or a row that is out of service now ends with the unavailable
status (R510, R594, R596). -/
def State.memLost (s : State) : State :=
  let ws := s.seq.works.filter fun w => w.started && !w.ended && (s.workRanges w).any fun r => r.len != 0 && s.memOut r.a r.len
  let ids := ws.map fun w => w.id
  let s := s.endColls (fun c => ids.contains c.id) 7
  let s := (ws.filter fun w => w.kind != 0x20).foldl (fun s w => s.endStatus w.id 7) s
  { s with engs := s.engs.map (fun (x : Eng) => x.without ids), xfers := s.xfers.filter (fun x => !ids.contains x.id), lists := s.lists.filter fun l => !ids.contains l.id }

/-- What fencing a unit does besides the fence (R592, R593, Table 19-4). A stack whose group is held in reset must train again, and
its contents are not defined: R535 keeps them through warm resets alone. -/
def State.fenceEffect (s : State) (d u : Nat) : State :=
  if u < 6 then (s.restartUnit d u).lastOfKind d u
  else if u < 9 then s.restartUnit d u
  else if u < 0x0C then (s.linkBoth d (u - 9) false false).meshNote
  else if u = 0x0C then (if d < s.part.torusPorts && s.portUp d then s.torusDown d else s.portDown d).degrade d 2 u 0
  else if u = 0x0D then s.flashGone d
  else if u = 0x0E then (s.memLost.wipe (hbmSize * d) hbmSize).setRbit d Reg.hbmStatus 0 false
  else s

/-- Fences one unit. -/
def State.fenceOne (s : State) (d u cause : Nat) : State :=
  if !s.unitThere d u || s.unitState d u = 1 || s.unitState d u = 3 then s else (s.fenceMark d u cause).fenceEffect d u

/-- What runs on a fenced die ends with the unavailable status (R594). -/
def State.dieWorkLost (s : State) (d : Nat) : State :=
  let s := (s.endColls (fun c => c.d == d) 7).domainsLost d
  let s := (s.seq.works.filter fun w => !w.ended && (w.on == d || ringDie w.ring == d)).foldl (fun s w => s.endStatus w.id 7) s
  { s with engs := s.engs.filter (fun x => x.d != d), ves := s.ves.filter (fun x => x.d != d), aq := s.aq.filter (fun x => x.d != d), lists := s.lists.filter (fun x => ringDie x.ring != d), ras := { s.ras with owe := without d s.ras.owe } }

/-- A package whose die 0 is fenced reports itself failed on the torus ports of its surviving dies, and goes silent; the host link
and the root of trust are lost with the die (R19, R594). -/
def State.packageLost (s : State) : State :=
  let f : ChangeFrame := ⟨2, 1, 0, s.torus.next, s.selfXyz, s.selfXyz, false, s.serial⟩
  let ps := (List.range s.part.torusPorts).filter fun d => s.portUp d && !s.dieOut d
  let s := ps.foldl (fun s d => s.sendFrame d (changeTx false f) none) s
  let s := s.hostDown.setRbit 0 Reg.grdStatus 0 false
  let s := { s with hst := { s.hst with training := false } }
  s.eachDie fun s d => (s.portDown d).modEth d fun e => { e with txq := [] }

/-- Fences a unit: for unit 0x0F every unit of the die (R592, R594). A fence of a unit fenced or permanent changes nothing. -/
def State.fence (s : State) (d u cause : Nat) : State :=
  if u ≠ 0x0F then s.fenceOne d u cause
  else if s.unitState d 0x0F = 1 || s.unitState d 0x0F = 3 then s
  else
    let s := ((s.fenceMark d 0x0F cause).dieWorkLost d).memLost
    let s := (List.range 0x0F).foldl (fun s v => s.fenceOne d v cause) s
    let s := ((s.degrade d 3 0x0F 0).meshNote).loseUnreached
    if d = 0 then s.packageLost else s

/-- A port that has gone down for want of lanes is fenced (Table 19-2, cause 0x4; Table 19-4): `t` is the state after a lane failed or an
alignment did, `s` the one before. -/
def State.fenceLost (s t : State) (d : Nat) : State :=
  if s.portUp d && s.ximelOn d && !t.portUp d then t.fence d 0x0C 4 else t

/-- LANE_FAIL (R284 to R286). -/
def execLaneFail (d lane : Nat) (s : State) : Res := onDie s d (s.fenceLost (s.laneFail d lane) d)

/-- NARROW_ALIGN_FAIL (R286). -/
def execNarrowAlignFail (d : Nat) (s : State) : Res := onDie s d (s.fenceLost (s.stepDown d) d)

/-! ## Tile-store rows (R595, R596) -/

/-- Whether a row needs repair: an uncorrectable word found in it, or the limit of corrected errors reached. -/
def State.rowNeeds (s : State) (d bank row : Nat) : Bool :=
  decide (s.rf d Reg.rasCtrl 8 8 ≤ kvGet 0 s.ras.rowErrs (rowKey d bank row)) || s.ras.badRows.contains (rowKey d bank row)

/-- Repairs a row with a spare, or fences it when its bank has none left; a 65th fenced row fences the die. -/
def State.repairRow (s : State) (d bank row : Nat) : State :=
  let reg := Reg.rasTsSpares (bank / 8)
  let left := s.rf d reg (4 * (bank % 8)) 4
  let s := { s with ras := { s.ras with rowErrs := kvSet 0 s.ras.rowErrs (rowKey d bank row) 0, badRows := without (rowKey d bank row) s.ras.badRows } }
  let place := 2048 * bank + row
  if 0 < left then
    let s := (s.setRf d reg (4 * (bank % 8)) 4 (left - 1)).bump d (Reg.rasCntLo 5) 1
    if left = 1 then s.degrade d 1 (place % 256) (place / 256) else s
  else
    match (List.range 64).find? fun i => !s.rbit d (Reg.rasTsFenced i) 31 with
    | some i => (s.setRegN d (Reg.rasTsFenced i) (place + 2 ^ 31)).memLost.degrade d 0 (place % 256) (place / 256)
    | none => s.fence d 0x0F 7

/-- ROW_REPAIR (R595, R596). -/
def execRowRepair (d bank row : Nat) (s : State) : Res :=
  onDie s d (
    if bank < 32 && row < 2048 && s.rowNeeds d bank row && !s.fencedRow d (65536 * row + 512 * bank) 1 && !s.dieOut d then s.repairRow d bank row
    else s)

/-! ## Return to service (R602, R603) -/

/-- A fenced unit leaves reset: self-test for most units, retraining for a UCIe link, and at once ready for the port (R602,
R603). A unit not fenced, permanent, 0x0F, or of a fenced die does not return. -/
def State.giveBack (s : State) (d u : Nat) : State :=
  if u = 0x0F || !s.unitThere d u || s.unitState d u ≠ 1 || s.dieOut d then s
  else if 9 ≤ u && u < 0x0C then s.linkBoth d (u - 9) false true
  else if u = 0x0C then { s with ras := { s.ras with passed := addNew (d, u) s.ras.passed } }
  else s.setRf d (Reg.rasUnit u) 0 2 2

/-- RAS_RETURN (R602, R607). -/
def execRasReturn (d : Nat) (value : W32) (s : State) : Res := onDie s d (s.giveBack d (value.toNat % 256))

/-- AUTO_RETURN_TIMER (R602). -/
def execAutoReturnTimer (d unit : Nat) (s : State) : Res := onDie s d (if s.rbit d Reg.rasCtrl 1 then s.giveBack d unit else s)

/-- SELF_TEST_END (R602). -/
def execSelfTestEnd (d unit : Nat) (pass : Bool) (s : State) : Res :=
  onDie s d (
    if 0x0F < unit || s.unitState d unit ≠ 2 then s
    else if pass then { s with ras := { s.ras with passed := addNew (d, unit) s.ras.passed } }
    else s.setRf d (Reg.rasUnit unit) 0 2 1)

/-- A unit enters service (R602). -/
def State.enterService (s : State) (d u : Nat) : State :=
  let s := { s with ras := { s.ras with passed := without (d, u) s.ras.passed } }
  let s := (s.setRf d (Reg.rasUnit u) 0 2 0).setRbit d Reg.rasCapLive u true
  let s := s.fencedBit d u false
  s.unitEvent d u 0x12 (natLe 4 u ++ natLe 4 (s.regN d Reg.rasCapLive))

/-- SERVICE_ENTRY (R602). -/
def execServiceEntry (d unit : Nat) (s : State) : Res :=
  onDie s d (if s.ras.passed.contains (d, unit) then s.enterService d unit else s)

/-- A link that trained comes up at both ends unless an end stays fenced; an end that was returning enters service (R603). -/
def State.linkTrained (s : State) (d k : Nat) : State :=
  let s := { s with ras := { s.ras with fails := kvSet 0 s.ras.fails (4 * d + k) 0 } }
  let s := s.linkBoth d k false false
  let s := if s.unitState d (9 + k) = 1 then s.enterService d (9 + k) else s
  if s.linkFenced d k then s else (s.linkBoth d k true false).meshNote

/-- A training fails; the third failure in a row fences both ends (Table 19-2, cause 0x4). -/
def State.linkTrainFailed (s : State) (d k : Nat) : State :=
  let n := kvGet 0 s.ras.fails (4 * d + k) + 1
  if n < 3 then { s with ras := { s.ras with fails := kvSet 0 s.ras.fails (4 * d + k) n } }
  else
    let s := { s with ras := { s.ras with fails := kvSet 0 s.ras.fails (4 * d + k) 0 } }
    let s := s.linkBoth d k false false
    match s.farEnd d k with
    | some (e, j) => (s.fence d (9 + k) 4).fence e (9 + j) 4
    | none => s

/-- UCIE_RETRAIN_END (R592, R603). -/
def execUcieRetrainEnd (d k : Nat) (ok : Bool) (s : State) : Res :=
  onDie s d (
    if !(decide (k < 3) && s.rbit d (Reg.d2dLink k) 5) then s
    else if ok then s.linkTrained d k else s.linkTrainFailed d k)

end Sys2Proof.Machine
end

