-- ==== Sys2Proof/Machine/Power.lean ====
section
/-! DEFINITION. Power, clocks and heat (chapter 16): the estimator and its calibration (R511 to R513), shares and phases (R514 to
R516), the brake (R517), frequency changes (R519 to R523), regulator warnings (R522, R639, R640), heat and the fan (R526 to
R528), and clock domains (R504 to R507). -/

namespace Sys2Proof.Machine

/-! ## Events (R529) -/

/-- Posts an event of the power manager to every enabled partition; while its condition lasts, further ones on the die merge
into it and are counted (R529). -/
def State.pwrEvent (s : State) (d code : Nat) (payload : List Byte) : State :=
  if s.pwr.active.contains (d, code) then s.bump d (Reg.pwrCntLo 7) 1
  else ({ s with pwr := { s.pwr with active := s.pwr.active ++ [(d, code)] } }).eventAll code d srcPwr payload

/-- The condition of an event has cleared. -/
def State.pwrClear (s : State) (d code : Nat) : State :=
  { s with pwr := { s.pwr with active := without (d, code) s.pwr.active } }

/-! ## Calibration (R511 to R513) -/

/-- A die's fit right after reset. -/
def Cal.idle (d : Nat) : Cal := ⟨d, 1, 0, none, [], 0, 0, 0⟩

/-- A die's fit. -/
def State.cal (s : State) (d : Nat) : Cal := (s.pwr.cals.find? fun c => c.d == d).getD (Cal.idle d)

/-- Replaces a die's fit. -/
def State.setCal (s : State) (c : Cal) : State :=
  { s with pwr := { s.pwr with cals := (s.pwr.cals.filter fun x => x.d != c.d) ++ [c] } }

/-- Whether cadence mode is in force: MODE set and not broken (R524). -/
def State.cadence (s : State) : Bool := s.rbit 0 Reg.clkCtrl 0 && !s.rbit 0 Reg.clkStatus 6

/-- The gain and offset with which a die controls: 1 and 0 in cadence mode (R524). -/
def State.gains (s : State) (d : Nat) : Rat × Rat := if s.cadence then (1, 0) else ((s.cal d).g, (s.cal d).o)

/-- A power as a register holds it: whole milliwatts, not below 0. -/
def mwOf (x : Rat) : Nat := Nat.min (2 ^ 32 - 1) x.floor.toNat

/-- The sum of some fractions. -/
def sumRat : List Rat → Rat
  | [] => 0
  | x :: l => x + sumRat l

/-- The mean of some fractions. -/
def meanRat (l : List Rat) : Rat := sumRat l / (l.length : Rat)

/-- Whether the standard deviation of the windows lies below 2 % of their mean (R512). -/
def flatLoad (l : List Rat) : Bool :=
  let m := meanRat l
  decide (meanRat (l.map fun x => (x - m) * (x - m)) * 2500 < m * m)

/-- The fit after a window with sensor power `x` and mean estimate `e`: recursive least squares with forgetting factor 255/256,
or the offset alone under flat load (R512). -/
def Cal.fit (c : Cal) (x : Nat) (e : Rat) : Cal :=
  let hist := ((x, e) :: c.hist).take 64
  let err := (x : Rat) - c.g * e - c.o
  let c := { c with hist := hist, sum := 0, n := 0 }
  if flatLoad (hist.map Prod.snd) then { c with o := c.o + err / 64 }
  else
    let (p, q, r) := c.p.getD (Config.rlsStart 0, Config.rlsStart 1, Config.rlsStart 2)
    let lam : Rat := 255 / 256
    let a := p * e + q
    let b := q * e + r
    let den := lam + e * a + b
    { c with g := c.g + a / den * err, o := c.o + b / den * err, p := some ((p - a * a / den) / lam, (q - a * b / den) / lam, (r - b * b / den) / lam) }

/-- The mean square of the relative residuals of the windows kept (R513). -/
def Cal.meanSq (c : Cal) : Rat :=
  meanRat (c.hist.map fun w => let x := ((w.1 : Rat) - c.g * w.2 - c.o) / (w.1 : Rat); x * x)

/-- Whether a die controls on its sensor alone: uncalibrated, and cadence mode not in force (R513, R524). -/
def State.onSensor (s : State) (d : Nat) : Bool := s.rbit d Reg.pwrStatus 0 && !s.cadence

/-- CLK_STATUS.HOLD: a warning hold (R522). -/
def State.holding (s : State) : Bool := s.rbit 0 Reg.clkStatus 5

/-- Sets the brake levels of a die's four engines. -/
def State.setBrakes (s : State) (d : Nat) (f : Nat → Nat) : State :=
  (List.range 4).foldl (fun s e => s.setRegN d (Reg.pwrBrake e) (f e)) s

/-- The step that control on the sensor takes once a millisecond: all levels alike, toward the share, by 1 to 4; which of them R513
leaves open (assumption 30). -/
def State.sensorBrake (s : State) (d : Nat) : State :=
  if !s.onSensor d || s.holding || !s.rbit d Reg.pwrCtrl 0 then s
  else
    let (v, s) := s.freeVal 2
    let b := s.rf d (Reg.pwrBrake 0) 0 6
    let x := s.regN d Reg.pwrSense
    let share := s.regN d Reg.pwrShare
    let b := if share < x then Nat.min 56 (b + v + 1) else if x < share then b - (v + 1) else b
    s.setBrakes d fun _ => b

/-- The residual after a window: RESID in 0.01 %, and its mean square. A window with S = 0 makes it a free value. -/
def State.residual (s : State) (c : Cal) : Rat × State :=
  if c.hist.any fun w => w.1 == 0 then
    let (v, s) := s.freeVal 32
    ((v : Rat) / 100000000, s)
  else (c.meanSq, s)

/-- Sets or clears UNCAL by the residual, with the events (R513). -/
def State.judgeCal (s : State) (d : Nat) (q : Rat) : State :=
  let c := s.cal d
  let calm := if q * 10000 < 9 then c.calm + 1 else 0
  let s := s.setCal { c with calm := calm }
  let r := Nat.min 0xFFFF (isqrtFrom (q * 100000000).floor.toNat 32 0)
  let s := s.setRegN d Reg.pwrResid r
  let uncal := s.rbit d Reg.pwrStatus 0
  if 16 < q * 10000 && !uncal then
    let s := (s.setRbit d Reg.pwrStatus 0 true).bump d (Reg.pwrCntLo 1) 1
    (s.pwrClear d 0x21).pwrEvent d 0x20 (natLe 4 r ++ natLe 4 (s.regN d Reg.pwrSense))
  else if uncal && 64 ≤ calm then
    let s := s.setRbit d Reg.pwrStatus 0 false
    (s.pwrClear d 0x20).pwrEvent d 0x21 (natLe 4 (s.regN d Reg.pwrCalGain) ++ natLe 4 (s.regN d Reg.pwrCalOfs))
  else s

/-- One window of calibration (R512, R513). -/
def State.calibrate (s : State) (d x : Nat) : State :=
  let c := s.cal d
  if c.n = 0 then s
  else
    let c := c.fit x ((c.sum : Rat) / (c.n : Rat))
    let s := (s.setCal c).bump d (Reg.pwrCntLo 0) 1
    let s := s.setRegN d Reg.pwrCalGain (mwOf (c.g * 65536))
    let s := s.setRegN d Reg.pwrCalOfs (twos c.o.floor 32)
    let (q, s) := s.residual c
    s.judgeCal d q

/-- SENSOR_READ: the core-rail power in mW, or none where the read and its retry failed and the last value stands (R512, R513,
R641). -/
def execSensorRead (d : Nat) (mw : Option Nat) (s : State) : Res :=
  onDie s d (
    let x := mw.getD (s.regN d Reg.pwrSense)
    ((s.setRegN d Reg.pwrSense x).calibrate d x).sensorBrake d)

/-! ## Demands, the estimate and the brake (R511, R515 to R517) -/

/-- The phase tag that an engine runs: of the descriptor whose pass or rows are at its front. -/
def State.engTag (s : State) (d e : Nat) : Option Nat :=
  let x := s.eng d e
  let id := match x.queue, x.fifo with
    | p :: _, _ => some p.id
    | [], r :: _ => some r.id
    | [], [] => none
  (id.bind s.work).map Work.phase

/-- D_e in mW: the learned demand of the tag, or a quarter of the die's share with LEARN = 0; 0 without a descriptor (R516). -/
def State.demand (s : State) (d e : Nat) : Nat :=
  match s.engTag d e with
  | none => 0
  | some t => if s.rbit d Reg.pwrCtrl 1 then s.regN d (Reg.pwrPhase t) else s.regN d Reg.pwrShare / 4

/-- U_e in mW: what the engine would have drawn unbraked (R511). -/
def unbraked (mw b : Nat) (g : Rat) : Nat := mwOf (g * (mw : Rat) * 64 / ((64 - b : Nat) : Rat))

/-- PHASE_LEARN: the demand of a running tag moves a sixteenth of the way to U_e (R516). -/
def State.learn (s : State) (d e u : Nat) : State :=
  match s.engTag d e with
  | none => s
  | some t => if s.rbit d Reg.pwrCtrl 1 then s.setRegN d (Reg.pwrPhase t) ((15 * s.regN d (Reg.pwrPhase t) + u) / 16) else s

/-- b_e = ceil(64 × (1 − share / U)), from 0 to 56 (R517). -/
def brakeOf (share u : Nat) : Nat := if u ≤ share then 0 else Nat.min 56 ((64 * (u - share) + u - 1) / u)

/-- The share of an engine in mW. -/
def State.engShare (s : State) (d e : Nat) : Nat := kvGet 0 s.pwr.shares (4 * d + e)

/-- BRAKE_UPDATE (R517): none while a warning hold lasts; 0 with the controller off; by the sensor while uncalibrated. -/
def State.brakeUpdate (s : State) (d : Nat) (us : List Nat) : State :=
  if s.holding || s.onSensor d && s.rbit d Reg.pwrCtrl 0 then s
  else if !s.rbit d Reg.pwrCtrl 0 then s.setBrakes d fun _ => 0
  else s.setBrakes d fun e => brakeOf (s.engShare d e) ((us[e]?).getD 0)

/-- The levels of a window enter the mean of the millisecond (R519). -/
def State.noteBrakes (s : State) (bs : List Nat) : State :=
  let (a, n, k) := s.pwr.brakes
  { s with pwr := { s.pwr with brakes := (a + sumNat bs, n + bs.length, k + (bs.filter fun b => b != 0).length) } }

/-- ACTIVITY_WINDOW: E of 2 µs, the estimate, the demands and the brakes (R511, R516, R517). -/
def execActivityWindow (d : Nat) (a : Activity) (s : State) : Res :=
  onDie s d (
    let parts := (List.range 4).map fun e => (a.engines[e]?).getD 0
    let total := sumNat parts + a.rest
    let c := s.cal d
    let s := s.setCal { c with sum := c.sum + total, n := c.n + 1 }
    let s := s.setRegN d Reg.pwrEst (mwOf (c.g * (total : Rat) + c.o))
    let (g, o) := s.gains d
    let s := { s with pwr := { s.pwr with fixed := kvSet 0 s.pwr.fixed d (mwOf (g * (a.rest : Rat) + o)) } }
    let bs := (List.range 4).map fun e => s.rf d (Reg.pwrBrake e) 0 6
    let us := (List.range 4).map fun e => unbraked ((parts[e]?).getD 0) ((bs[e]?).getD 0) g
    let s := (List.range 4).foldl (fun s e => s.learn d e ((us[e]?).getD 0)) s
    (s.noteBrakes bs).brakeUpdate d us)

/-! ## Caps and shares (R514, R515) -/

/-- PWR_CAP_EFF: the smallest of the three caps (R514). -/
def State.capUpdate (s : State) : State :=
  s.setRegN 0 Reg.pwrCapEff (Nat.min (s.rf 0 Reg.pwrCap 0 16) (Nat.min (s.rf 0 Reg.pwrCapSb 0 16) (s.rf 0 Reg.pwrCapCeil 0 16)))

/-- The dies among which power is shared. -/
def State.powerDies (s : State) : List Nat := (List.range s.part.dies).filter fun d => !s.dieOut d && !s.inReset d

/-- F_d of a die. -/
def State.fixedOf (s : State) (d : Nat) : Nat := kvGet 0 s.pwr.fixed d

/-- The engine demand of a die. -/
def State.dieDemand (s : State) (d : Nat) : Nat := sumNat ((List.range 4).map (s.demand d))

/-- The share of a die before throttling (R515): none where the rule divides by an engine demand of zero. -/
def State.dieShare (s : State) (d : Nat) : Option Nat :=
  let ds := s.powerDies
  let cap := 1000 * s.rf 0 Reg.pwrCapEff 0 16
  let f := sumNat (ds.map s.fixedOf)
  let e := sumNat (ds.map s.dieDemand)
  if !s.rbit d Reg.pwrCtrl 0 then some (1000 * s.part.design / s.part.dies)
  else if f + e ≤ cap then some (s.fixedOf d + s.dieDemand d + (cap - f - e) / ds.length)
  else if e = 0 then none
  else some ((s.fixedOf d : Int) + ((cap : Int) - f) * s.dieDemand d / e).toNat

/-- The share of an engine of a die with share `share` (R515). -/
def State.shareOf (s : State) (d e share : Nat) : Nat :=
  let ds := s.powerDies
  let cap := 1000 * s.rf 0 Reg.pwrCapEff 0 16
  let f := s.fixedOf d
  let x := s.dieDemand d
  if s.rbit d Reg.pwrCtrl 0 && cap < sumNat (ds.map s.fixedOf) then 0
  else if f + x ≤ share then s.demand d e + (share - f - x) / 4
  else if share ≤ f then 0
  else (share - f) * s.demand d e / x

/-- Shares one die's power: lowered by the sixteenths of its demand that throttling takes (R515, R526). -/
def State.allocateDie (s : State) (d : Nat) : State :=
  let (share, s) := match s.dieShare d with
    | some x => (x, s)
    | none => s.freeVal 32
  let low := kvGet 0 s.pwr.level d * (s.fixedOf d + s.dieDemand d) / 16
  let share := share - low
  let shares := (List.range 4).foldl (fun l e => kvSet 0 l (4 * d + e) (s.shareOf d e share)) s.pwr.shares
  ({ s with pwr := { s.pwr with shares := shares } }).setRegN d Reg.pwrShare share

/-- Shares the effective cap; every share is taken from the demands as they stood before. -/
def State.allocate (s : State) : State :=
  s.powerDies.foldl (fun t d =>
    let u := { t with regs := s.regs }.allocateDie d
    { u with regs := kvPut t.regs (regKey d Reg.pwrShare) (u.reg d Reg.pwrShare) }) s

/-- CAP_ALLOCATION (R515). -/
def execCapAllocation (s : State) : Res := onDie s 0 s.allocate

/-- CAP_EXCEEDED: sensor power of the package over 10 ms, in mW. Above the effective cap with every engine at level 56 it is
reported; otherwise the condition has cleared (R529). -/
def execCapExceeded (mw : Nat) (s : State) : Res :=
  onDie s 0 (
    let cap := s.rf 0 Reg.pwrCapEff 0 16
    if 1000 * cap < mw && s.powerDies.all (fun d => (List.range 4).all fun e => s.rf d (Reg.pwrBrake e) 0 6 == 56) then
      ((s.setRbit 0 Reg.pwrStatus 3 true).bump 0 (Reg.pwrCntLo 5) 10).pwrEvent 0 0x24 (natLe 4 mw ++ natLe 4 cap)
    else (s.setRbit 0 Reg.pwrStatus 3 false).pwrClear 0 0x24)

/-! ## Frequency changes (R519 to R523, R531) -/

/-- CLK_STATUS.INDEX: the operating point in force. -/
def State.freqIdx (s : State) : Nat := s.rf 0 Reg.clkStatus 0 4

/-- The VID code of a die (R638). -/
def State.vidOf (s : State) (d : Nat) : Nat := kvGet 60 s.pwr.vid d

/-- The die requests the voltage of an operating point; without a change of code it is reached (R520, R638). -/
def State.askVolt (s : State) (j d : Nat) : State :=
  let code := (s.rf d (Reg.clkOpp j) 16 11 - 500) / 5
  if code = s.vidOf d then { s with pwr := { s.pwr with reached := addNew d s.pwr.reached } }
  else { s with pwr := { s.pwr with vid := kvSet 60 s.pwr.vid d code } }

/-- Sets a bit of CLK_STATUS on every die. -/
def State.clkBit (s : State) (i : Nat) (b : Bool) : State := s.eachDie fun s d => s.setRbit d Reg.clkStatus i b

/-- Starts a change to point `j` on every die; a raise requests its voltage at once (R520). -/
def State.startFreq (s : State) (j : Nat) : State :=
  let i := s.freqIdx
  if i = j then s
  else
    let s := { s with pwr := { s.pwr with freqTo := some j, switched := false, reached := [] } }
    let s := s.clkBit 4 true
    if i < j then s.powerDies.foldl (fun s d => s.askVolt j d) s else s

/-- Asks for a change: it starts now, or waits for the change in progress or, unless `force`, for the end of a hold. -/
def State.wantFreq (s : State) (j : Nat) (force : Bool) : State :=
  if s.pwr.freqTo.isSome || (s.holding && !force) then { s with pwr := { s.pwr with freqWant := some j } }
  else ({ s with pwr := { s.pwr with freqWant := none } }).startFreq j

/-- Starts a change that waited. -/
def State.wakeFreq (s : State) : State :=
  match s.pwr.freqWant with
  | some j => s.wantFreq j (decide (s.freqIdx < s.rf 0 Reg.clkLimit 0 4) || decide (s.rf 0 Reg.clkLimit 4 4 < s.freqIdx))
  | none => s

/-- Ends a change once its domains have switched and every voltage is reached. -/
def State.settleFreq (s : State) : State :=
  if s.pwr.freqTo.isSome && s.pwr.switched && s.powerDies.all (fun d => s.pwr.reached.contains d) then
    let s := { s with pwr := { s.pwr with freqTo := none, switched := false, reached := [] } }
    (s.clkBit 4 false).wakeFreq
  else s

/-- FREQ_SWITCH: the idle PLLs have locked. A raise waits for its voltage; a lowering requests its voltage once it has switched
(R520). -/
def execFreqSwitch (s : State) : Res :=
  onDie s 0 (
    match s.pwr.freqTo with
    | none => s
    | some j =>
      let up := decide (s.freqIdx < j)
      if s.pwr.switched || (up && !s.powerDies.all fun d => s.pwr.reached.contains d) then s
      else
        let s := s.eachDie fun s d => (s.setRf d Reg.clkStatus 0 4 j).bump d (Reg.clkCntLo 2) 1
        let s := { s with pwr := { s.pwr with switched := true } }
        (if up then s else s.powerDies.foldl (fun s d => s.askVolt j d) s).settleFreq)

/-- The calibrated estimate of the package at another operating point, by f × V² (R519). -/
def State.estAt (s : State) (i j : Nat) : Rat :=
  sumRat (s.powerDies.map fun d =>
    let f := fun (k : Nat) => (s.rf d (Reg.clkOpp k) 0 11 : Rat) * (s.rf d (Reg.clkOpp k) 16 11 : Rat) * (s.rf d (Reg.clkOpp k) 16 11 : Rat)
    (s.regN d Reg.pwrEst : Rat) * f j / f i)

/-- FREQ_DECISION: in free mode die 0 steps the index down, up or not (R519); none starts during a change or a hold. -/
def execFreqDecision (s : State) : Res :=
  onDie s 0 (
    let (a, n, k) := s.pwr.brakes
    let s := { s with pwr := { s.pwr with brakes := (0, 0, 0) } }
    let i := s.freqIdx
    if s.rbit 0 Reg.clkCtrl 0 || s.pwr.freqTo.isSome || s.holding || n = 0 then s
    else if 8 * n < a && s.rf 0 Reg.clkLimit 0 4 < i then
      (s.eachDie fun s d => s.bump d (Reg.pwrCntLo 6) 1).startFreq (i - 1)
    else if k = 0 && i < s.rf 0 Reg.clkLimit 4 4 && s.estAt i (i + 1) ≤ 950 * (s.rf 0 Reg.pwrCapEff 0 16 : Rat) then s.startFreq (i + 1)
    else s)

/-- Cadence mode is broken: CADENCE_BROKEN of every die and the event (R524). -/
def State.breakCadence (s : State) (cause : Nat) : State :=
  if s.cadence then (s.clkBit 6 true).pwrEvent 0 0x26 (natLe 4 cause) else s

/-- CADENCE_BROKEN: sensor over share (0x0) or uncalibrated (0x1) for 10 ms, a throttle (0x2) or a guard limit (0x3) (R524). -/
def execCadenceBroken (cause : Nat) (s : State) : Res := onDie s 0 (if cause < 4 then s.breakCadence cause else s)

/-- A write of CLK_CTRL.MODE (R523): refused where index 7 lies outside CLK_LIMIT. -/
def State.modeWrite (s : State) (mode : Bool) : State :=
  if mode && (decide (7 < s.rf 0 Reg.clkLimit 0 4) || decide (s.rf 0 Reg.clkLimit 4 4 < 7)) then s.clkBit 7 true
  else
    let s := ((s.setRegN 0 Reg.clkCtrl (b2n mode)).clkBit 6 false).clkBit 7 false
    let s := s.pwrClear 0 0x26
    if mode then s.wantFreq 7 false else s

/-- CLK_MODE_WRITE (R523). -/
def execClkModeWrite (mode : Bool) (s : State) : Res := onDie s 0 (s.modeWrite mode)

/-- A new CLK_LIMIT on every die: an index outside it starts a change to the nearest limit at once, even during a hold (R531),
which breaks cadence mode (R524). -/
def State.limitWrite (s : State) (fmin fmax : Nat) : State :=
  let s := s.eachDie fun s d => s.setRegN d Reg.clkLimit (fmin + 16 * fmax)
  let i := s.freqIdx
  if i < fmin then (s.breakCadence 3).wantFreq fmin true
  else if fmax < i then (s.breakCadence 3).wantFreq fmax true
  else s

/-! ## The regulator (R522, R639, R640) -/

/-- A warning is asserted on a die: by UVW_N (`src` 0) or a fall of VR_RDY (1). Every engine of the package goes to level 56
(R522). -/
def State.warnOn (s : State) (d src : Nat) : State :=
  if s.pwr.warn.contains (2 * d + src) then s
  else
    let s := { s with pwr := { s.pwr with warn := s.pwr.warn ++ [2 * d + src], holdAt := some (s.pwr.holdAt.getD s.refCount) } }
    let s := (s.setRbit d Reg.pwrStatus 1 true).clkBit 5 true
    let s := s.eachDie fun s e => s.setBrakes e fun _ => 56
    let s := s.bump d (Reg.pwrCntLo 2) 1
    let n := kvGet 0 s.pwr.droops d + 1
    let was := s.pwr.active.contains (d, 0x22)
    let s := { s with pwr := { s.pwr with droops := kvSet 0 s.pwr.droops d (if was then n else 0) } }
    s.pwrEvent d 0x22 (natLe 4 n)

/-- A warning clears on a die. -/
def State.warnOff (s : State) (d src : Nat) : State :=
  let s := { s with pwr := { s.pwr with warn := without (2 * d + src) s.pwr.warn } }
  if s.pwr.warn.contains (2 * d) || s.pwr.warn.contains (2 * d + 1) then s else s.setRbit d Reg.pwrStatus 1 false

/-- UVW_ASSERT (R522). -/
def execUvwAssert (d : Nat) (s : State) : Res := onDie s d (s.warnOn d 0)

/-- UVW_CLEAR (R522). -/
def execUvwClear (d : Nat) (s : State) : Res := onDie s d (s.warnOff d 0)

/-- UVW_HOLD_END: 50 µs after the last warning has cleared the hold ends (R522). -/
def execUvwHoldEnd (s : State) : Res :=
  onDie s 0 (
    if !s.holding || !s.pwr.warn.isEmpty then s
    else
      let us := (s.refCount - s.pwr.holdAt.getD s.refCount) / 25
      let s := s.eachDie fun s d => (s.bump d (Reg.pwrCntLo 3) us).pwrClear d 0x22
      let s := { s with pwr := { s.pwr with holdAt := none } }
      (s.clkBit 5 false).wakeFreq)

/-- VR_RDY_RISE: the requested voltage is reached, or a fall that acted as a warning is over (R639). -/
def execVrRdyRise (d : Nat) (s : State) : Res :=
  onDie s d (
    let s := s.warnOff d 1
    if s.pwr.freqTo.isSome && (s.pwr.switched || decide (s.freqIdx < s.pwr.freqTo.getD 0)) then
      ({ s with pwr := { s.pwr with reached := addNew d s.pwr.reached } }).settleFreq
    else s)

/-- VR_RDY_FALL: outside a change it acts as a warning (R639). -/
def execVrRdyFall (d : Nat) (s : State) : Res := onDie s d (if s.pwr.freqTo.isSome then s else s.warnOn d 1)

/-! ## Heat (R526, R527) -/

/-- Appends a record to the sticky log: kind, die, detail bytes and the time; the log holds 1,024 (R581). -/
def State.stickyAdd (s : State) (kind d : Nat) (detail : List Byte) : State :=
  let r := natLe 1 kind ++ natLe 1 d ++ natLe 2 0 ++ natLe 8 s.refCount ++ padTo 52 detail
  let l := s.grd.sticky ++ [r]
  { s with grd := { s.grd with sticky := l.drop (l.length - 1024) } }

/-- The thermal trip (R527): recorded, then every fast domain stops, transmitters go idle and FAULT_N is driven low. -/
def State.trip (s : State) (d sensor : Nat) (temp : Int) : State :=
  let s := s.stickyAdd 1 d (natLe 4 sensor ++ natLe 4 (twos temp 32))
  let s := s.eachDie fun s e => ((s.setRegN e Reg.clkRunLo 1).setRegN e Reg.clkRunHi 0).portDown e
  let s := s.hostDown
  ({ s with tripped := true }).emit (.pin "FAULT_N" 0 false)

/-- The greatest of some readings with the first sensor that gives it. -/
def hottest : List Int → Nat × Int
  | [] => (0, 0)
  | [x] => (0, x)
  | x :: l => let (i, y) := hottest l; if y ≤ x then (0, x) else (i + 1, y)

/-- Entering and leaving throttling (R526): THROTTLE reads 1 while a sensor reads above the limit, and the share returns once all
have read 3 °C below it. -/
def State.throttle (s : State) (d : Nat) (ts : List Int) : State :=
  let lim : Int := 8 * (s.rf d Reg.thermLimits 0 8 : Nat)
  let (i, t) := hottest ts
  let was := s.rbit d Reg.pwrStatus 2
  let s := { s with pwr := { s.pwr with cooling := if t ≤ lim - 24 then addNew d s.pwr.cooling else without d s.pwr.cooling } }
  if lim < t then
    let s := s.setRbit d Reg.pwrStatus 2 true
    if was then s else s.pwrEvent d 0x23 (natLe 2 i ++ natLe 2 (twos t 16))
  else (s.setRbit d Reg.pwrStatus 2 false).pwrClear d 0x23

/-- THERMAL_READ: the four junction sensors of a die in 0.125 °C (R526, R527). -/
def execThermalRead (d : Nat) (sensors : List Int) (s : State) : Res :=
  onIsland s d (
    let ts := sensors.take 4
    if ts.isEmpty then s
    else
      let (i, t) := hottest ts
      let s := s.setRegN d Reg.thermTemp (twos t 16 + 65536 * i)
      if s.tripped || s.inReset d then s
      else
        let crit : Int := 8 * (s.rf d Reg.thermLimits 8 8 : Nat)
        let hot := (List.range ts.length).filter fun k => decide (crit ≤ (ts[k]?).getD 0)
        let old := kvGet 0 s.pwr.hot d
        let s := { s with pwr := { s.pwr with hot := kvSet 0 s.pwr.hot d (sumNat (hot.map fun k => 2 ^ k)) } }
        match hot.find? (bit old) with
        | some k => s.trip d k ((ts[k]?).getD 0)
        | none => s.throttle d ts)

/-- THROTTLE_STEP: one millisecond of throttling lowers the share of a die by a sixteenth of its demand, or returns one (R526). -/
def execThrottleStep (d : Nat) (s : State) : Res :=
  onDie s d (
    let n := kvGet 0 s.pwr.level d
    let set := fun (s : State) (v : Nat) => ({ s with pwr := { s.pwr with level := kvSet 0 s.pwr.level d v } }).allocate
    if s.rbit d Reg.pwrStatus 2 then set ((s.bump d (Reg.pwrCntLo 4) 1).breakCadence 2) (n + 1)
    else if s.pwr.cooling.contains d && n ≠ 0 then set s (n - 1)
    else s)

/-! ## The fan (R528) -/

/-- The duty of the fan output in per cent, none while it is high-impedance (R528). -/
def State.fanDuty (s : State) : Option Rat :=
  if !s.rbit 0 Reg.fanCtrl 0 then none
  else if s.rbit 0 Reg.fanStatus 16 then some 100
  else
    let lo : Rat := (s.rf 0 Reg.fanCtrl 8 8 : Rat)
    let tl : Rat := (s.rf 0 Reg.fanCtrl 16 8 : Rat)
    let th : Rat := (s.rf 0 Reg.fanCtrl 24 8 : Rat)
    let t : Rat := ((hottest ((List.range s.part.dies).map fun d => sext (s.regN d Reg.thermTemp) 16)).2 : Rat) / 8
    some (if t ≤ tl then lo else if th ≤ t then 100 else lo + (100 - lo) * (t - tl) / (th - tl))

/-- FAN_FAIL: the speed has stayed below FAIL_RPM for 2 s (R528). The always-on island notes it; no event leaves a die in reset or a
stopped package. -/
def execFanFail (rpm : Nat) (s : State) : Res :=
  onIsland s 0 (
    if s.rf 0 Reg.fanFailRpm 0 16 ≤ rpm then s
    else
      let t := s.setRegN 0 Reg.fanStatus (rpm % 65536 + 65536)
      if s.tripped || s.inReset 0 then t else t.pwrEvent 0 0x25 (natLe 4 rpm))

/-- FAN_RECOVER: the speed has stayed above FAIL_RPM for 2 s (R530). -/
def execFanRecover (rpm : Nat) (s : State) : Res :=
  onIsland s 0 (
    if rpm ≤ s.rf 0 Reg.fanFailRpm 0 16 then s else (s.setRegN 0 Reg.fanStatus (rpm % 65536)).pwrClear 0 0x25)

/-! ## Clock domains (R504 to R507) -/

/-- Whether a domain of a die ever runs (R505). -/
def State.domainThere (s : State) (d dom : Nat) : Bool :=
  decide (dom < 44) && (d == 0 || !(dom == 2 || decide (41 ≤ dom))) && !(decide (38 ≤ dom) && decide (dom ≤ 40) && !decide (dom - 38 < (s.part.links d).length))

/-- Whether a domain runs (CLK_RUN). -/
def State.domainOn (s : State) (d dom : Nat) : Bool := bit (s.regPair d Reg.clkRunLo) dom

/-- Sets the run bit of a domain. -/
def State.setDomain (s : State) (d dom : Nat) (b : Bool) : State := s.setRegPair d Reg.clkRunLo (setBit (s.regPair d Reg.clkRunLo) dom b)

/-- Whether a domain is fast: driven by a PLL of its own or of the fabric. -/
def fastDomain (dom : Nat) : Bool := !(dom == 0 || dom == 2 || dom == 3 || dom == 4)

/-- Starts a domain that is stopped; counted in WAKES, and the accesses that it kept waiting in WAKE_STALLS (R506). -/
def State.wakeDomain (s : State) (d dom : Nat) : State :=
  if s.domainThere d dom && !s.domainOn d dom then ((s.setDomain d dom true).bump d (Reg.clkCntLo 0) 1).bumpFree d (Reg.clkCntLo 3) else s

/-- DOMAIN_START: with any fast domain, domains 5 to 7 start too (R506). -/
def execDomainStart (d dom : Nat) (s : State) : Res :=
  onDie s d (
    if !s.domainThere d dom then s
    else (if fastDomain dom then [5, 6, 7] else []).foldl (fun s x => s.wakeDomain d x) (s.wakeDomain d dom))

/-- Whether the units of a domain hold work (R507). -/
def State.domainBusy (s : State) (d dom : Nat) : Bool :=
  let runs := fun (k : Nat → Bool) => s.seq.works.any fun w => w.on == d && k w.kind
  let on := fun (u : Nat) => s.seq.works.any fun w => w.on == d && w.engine == some u
  if dom = 5 then s.seq.works.any (fun w => ringDie w.ring == d)
  else if dom = 9 then s.whl.colls.any (fun c => c.d == d) || runs fun k => decide (0x38 ≤ k)
  else if dom = 10 then runs fun k => decide (0x28 ≤ k) && decide (k ≤ 0x2E)
  else if 12 ≤ dom && dom ≤ 15 then on (dom - 12) || !(s.eng d (dom - 12)).queue.isEmpty || !(s.eng d (dom - 12)).fifo.isEmpty
  else if dom = 16 || dom = 17 then on (dom - 12)
  else if dom = 19 then runs (fun k => decide (0x10 ≤ k) && decide (k ≤ 0x12)) || s.folds.any fun f => f.die == d
  else if dom = 20 then runs (fun k => k == 0x15) || s.aq.any fun a => a.d == d
  else if dom = 6 || dom = 18 || (21 ≤ dom && dom ≤ 23) then s.seq.works.any fun w => w.on == d && w.started && !w.ended
  else if dom = 24 then !(s.eth d).txq.isEmpty
  else if 25 ≤ dom && dom ≤ 32 then s.rbit d Reg.ethCtrl 0
  else if dom = 33 || dom = 34 then s.xfers.any fun x => x.pieces.any fun p => p.port == d && !p.over
  else if 35 ≤ dom && dom ≤ 37 then on (dom - 29)
  else if 41 ≤ dom then s.hst.flip.isSome
  else false

/-- DOMAIN_STOP: a domain whose units hold no work, whose CLK_HOLD bit is 0, with CLK_IDLE not 0, stops; domains 5 to 7 are the
last (R506, R507). -/
def execDomainStop (d dom : Nat) (s : State) : Res :=
  onDie s d (
    let later := (List.range 44).any fun x => s.domainOn d x && fastDomain x && x != dom && !(5 ≤ x && x ≤ 7 : Bool)
    if dom = 0 || !s.domainOn d dom || s.rf d Reg.clkIdle 0 16 = 0 || bit (s.regPair d Reg.clkHoldLo) dom || s.domainBusy d dom ||
        (5 ≤ dom && dom ≤ 7 && later) then s
    else (s.setDomain d dom false).bump d (Reg.clkCntLo 1) 1)

end Sys2Proof.Machine
end

