-- ==== Sys2Proof/Machine/Mailbox.lean ====
section
/-! DEFINITION. Mailboxes (R438 to R441, R655). -/

namespace Sys2Proof.Machine

/-- The 512 bytes of a mailbox. -/
def State.mbBytes (s : State) (m : Nat) : List Byte := (List.range 128).flatMap fun i => natLe 4 (s.regN 0 (Reg.mbData m i))

/-- Writes the 512 bytes of a mailbox. -/
def State.setMbBytes (s : State) (m : Nat) (b : List Byte) : State :=
  (List.range 128).foldl (fun s i => s.setRegN 0 (Reg.mbData m i) (leAt b (4 * i) 4)) s

/-- MB_STATE.BUSY. -/
def State.mbBusy (s : State) (m : Nat) : Bool := s.rbit 0 (Reg.mbState m) 16

/-- MB_CFG.PARTITION. -/
def State.mbPart (s : State) (m : Nat) : Nat := s.rf 0 (Reg.mbCfg m) 1 4

/-- Descriptors of a ring accepted and not completed. -/
def State.accepted (s : State) (r : Nat) : Nat := (s.seq.works.filter fun w => w.ring == r && w.inRing).length

/-- RING_STATUS as it reads: the stored bits with ACTIVE and CQ_WAIT (Table 13-10). -/
def State.ringStatusNow (s : State) (r : Nat) : Nat :=
  let held := s.ringOn r && !s.ringStat r 1 && !s.ringStat r 2 && decide (s.ringCi r ≠ s.ringPi r) && !s.cqRoom r
  setBit (setBit (s.ringReg r Reg.ringStatus) 0 (decide (0 < s.accepted r))) 4 held

/-- RESULT of a request for services 0x01 to 0x05, checked in the order of R655. -/
def State.mbResult (s : State) (m : Nat) (b : List Byte) : Nat :=
  let sv := leAt b 0 1
  let len := leAt b 2 2
  let arg0 := leAt b 4 4
  let arg1 := leAt b 8 8
  let r := arg0 % 256
  if sv = 0 || 5 < sv then 1
  else if 496 < len then 3
  else if sv = 5 then (if arg0 ≠ 0 || arg1 ≠ 0 then 3 else 0)
  else if len ≠ 0 || arg0 / 256 ≠ 0 || arg1 ≠ 0 || s.part.rings ≤ r then 3
  else if s.ringPart r ≠ s.mbPart m then 2
  else if sv = 4 && (!s.ringStat r 1 || s.owed r ≠ 0) then 4
  else 0

/-- Resets a paused ring (R440). -/
def State.resetRing (s : State) (r : Nat) : State :=
  let s := { s with seq.fetched := s.seq.fetched.filter fun x => x.ring != r }
  let s := (((s.setRing r Reg.ringPi 0).setRing r Reg.ringCi 0).setRing r Reg.cqTail 0).setRing r Reg.cqHead 0
  (s.setRingStat r 2 false).setRingStat r 3 false

/-- What a service does to its ring once its RESULT is 0x00, and the body of its answer; ECHO keeps the body (R440). -/
def State.mbAct (s : State) (sv r : Nat) (body : List Byte) : List Byte × State :=
  match sv with
  | 1 => (([s.ringPi r, s.ringCi r, s.cqTail r, s.cqHead r, s.ringStatusNow r, s.accepted r].flatMap fun x => natLe 4 x), s)
  | 2 => ([], s.setRingStat r 1 true)
  | 3 => ([], s.setRingStat r 1 false)
  | 4 => ([], s.resetRing r)
  | _ => (body, s)

/-- Writes the answer of a request, sets MB_STATE and raises the interrupt (R439). -/
def State.mbAnswer (s : State) (m seq result : Nat) (body : List Byte) : State :=
  let b := s.mbBytes m
  let b := spliceAt b 1 (natLe 1 result ++ natLe 2 body.length)
  let s := s.setMbBytes m (if body.isEmpty then b else spliceAt b 16 body)
  let s := s.setRegN 0 (Reg.mbState m) seq
  if s.rbit 0 (Reg.mbCfg m) 5 then s.interrupt (s.mbPart m) (272 + m) else s

/-- Whether a bell reaches its mailbox: the mailbox is there and on, and a virtual function is that of its partition. -/
def State.mbReaches (s : State) (m : Nat) (who : Master) : Bool :=
  decide (m < 64) && s.rbit 0 (Reg.mbCfg m) 0 && match who with | .vf n => n == s.mbPart m + 1 | _ => true

/-- A bell: discarded where it does not reach the mailbox, rejected while a request runs (R441), else the request in MB_DATA runs.
A GUARD request keeps the mailbox busy until the guard answers. -/
def State.mbBell (s : State) (m seq : Nat) (who : Master) : State :=
  if !s.mbReaches m who then s
  else if s.mbBusy m then s.setRbit 0 (Reg.mbState m) 17 true
  else
    let s := s.bump 0 (Reg.ringCntLo 7) 1
    let s := s.setRbit 0 (Reg.mbState m) 17 false
    let b := s.mbBytes m
    let sv := leAt b 0 1
    if sv = 0x10 then { s.setRbit 0 (Reg.mbState m) 16 true with mbSeq := kvPut s.mbSeq m (seq, isVf who) }
    else
      let res := s.mbResult m b
      if res ≠ 0 then s.mbAnswer m seq res []
      else
        let (body, s) := s.mbAct sv (leAt b 4 1) ((b.drop 16).take (leAt b 2 2))
        s.mbAnswer m seq 0 body

/-- The answer of the guard to the GUARD request of a mailbox: discarded where a reset has ended the request (R441). -/
def State.mbGuardAnswer (s : State) (m : Nat) (body : List Byte) : State :=
  match kvFind s.mbSeq m with
  | some (seq, _) => { s with mbSeq := kvErase s.mbSeq m }.mbAnswer m seq 0 body
  | none => s

/-- A bell whose mailbox holds a request for a service that a test picks; a bell of another request is another command. -/
def State.mbService (s : State) (m : Nat) (seq : BitVec 16) (who : Master) (is : Nat → Bool) : Res :=
  live s (if is (leAt (s.mbBytes m) 0 1) then s.mbBell m seq.toNat who else s)

/-- MB_QUERY (R440). -/
def execMbQuery (m : Nat) (seq : BitVec 16) (master : Master) (s : State) : Res := s.mbService m seq master (· == 1)

/-- MB_PAUSE (R440). -/
def execMbPause (m : Nat) (seq : BitVec 16) (master : Master) (s : State) : Res := s.mbService m seq master (· == 2)

/-- MB_RESUME (R440). -/
def execMbResume (m : Nat) (seq : BitVec 16) (master : Master) (s : State) : Res := s.mbService m seq master (· == 3)

/-- MB_RESET (R440). -/
def execMbReset (m : Nat) (seq : BitVec 16) (master : Master) (s : State) : Res := s.mbService m seq master (· == 4)

/-- MB_ECHO (R440). -/
def execMbEcho (m : Nat) (seq : BitVec 16) (master : Master) (s : State) : Res := s.mbService m seq master (· == 5)

/-- MB_GUARD (R439, R561). -/
def execMbGuard (m : Nat) (seq : BitVec 16) (master : Master) (s : State) : Res := s.mbService m seq master (· == 0x10)

/-- UNKNOWN_SERVICE (R655). -/
def execUnknownService (m : Nat) (seq : BitVec 16) (master : Master) (s : State) : Res :=
  s.mbService m seq master fun v => v == 0 || (decide (5 < v) && v != 0x10)

/-- MB_BELL_REJECTED (R441): a bell while a request runs. -/
def execMbBellRejected (m : Nat) (_seq : BitVec 16) (master : Master) (s : State) : Res :=
  live s (if s.mbReaches m master && s.mbBusy m then s.setRbit 0 (Reg.mbState m) 17 true else s)

end Sys2Proof.Machine
end

