-- ==== Sys2Proof/Machine/Partition.lean ====
section
/-! DEFINITION. Partitions, contexts (R446 to R456) and weirs (R457 to R461). -/

namespace Sys2Proof.Machine

/-! ## Contexts -/

/-- Whether the running context of a partition has an engine-bound descriptor started and not completed on a die (R454). -/
def State.engineBusy (s : State) (d p : Nat) : Bool :=
  s.seq.works.any fun w =>
    w.on == d && w.part == p && w.ctx == s.curCtx d p && w.started && w.entry.isNone && decide (0x10 ≤ w.kind) && decide (w.kind ≤ 0x15)

/-- SEQ_PART_CFG.SLICE in µs. -/
def State.sliceOf (s : State) (d p : Nat) : Nat := s.rf d (Reg.seqPartCfg p) 1 16

/-- The end of a switch: the incoming context runs, and the switch is counted (R454, Table 14-6). -/
def State.endSwitch (s : State) (d p drainNs : Nat) : State :=
  match kvFind s.seq.switchTo (16 * d + p) with
  | none => s
  | some c =>
    let s := { s with seq.switchTo := kvErase s.seq.switchTo (16 * d + p) }
    let s := s.setPartStatus d p c false true
    let s := s.bump d (Reg.seqSchCntLo p 0) 1
    let s := s.bump d (Reg.seqSchCntLo p 2) drainNs
    if s.sliceOf d p ≠ 0 && s.sliceOf d p * 1000 < drainNs then s.bump d (Reg.seqSchCntLo p 1) 1 else s

/-- CONTEXT_SWITCH: the switch waiting on a die ends once no engine-bound descriptor of the outgoing context runs (R453, R454). -/
def execContextSwitch (d p drainNs : Nat) (s : State) : Res :=
  onDie s d (
    if !s.partOn d p then s
    else
      let s := s.leaveIdle d p
      if s.rbit d (Reg.seqPartStatus p) 4 && !s.engineBusy d p then s.endSwitch d p drainNs else s)

/-- What the expiry of a slice timer does to the context: with another context runnable, a switch begins (R453). -/
def State.sliceEnd (s : State) (d p : Nat) : State :=
  if !s.partOn d p || s.sliceOf d p = 0 || s.rbit d (Reg.seqPartStatus p) 4 then s
  else
    match s.nextCtx d p with
    | some c => if s.rbit d (Reg.seqPartStatus p) 5 then s.beginSwitch d p c else s.leaveIdle d p
    | none => s

/-- SLICE_EXPIRE (R453). -/
def execSliceExpire (d p : Nat) (s : State) : Res := onDie s d (s.sliceEnd d p)

/-! ## Partition registers -/

/-- What ENABLE of SEQ_PART_CFG[p] going to 1 does on a die: context 0 runs if it is runnable (R456). -/
def State.partStart (s : State) (d p : Nat) : State := (s.setPartStatus d p 0 false false).leaveIdle d p

/-- What ENABLE going to 0 does: descriptors accepted and not started end unavailable, and no context runs (R456). -/
def State.partStop (s : State) (d p : Nat) : State :=
  let s := { s with seq.switchTo := kvErase s.seq.switchTo (16 * d + p) }
  let s := s.setPartStatus d p (s.curCtx d p) false false
  (s.seq.works.filter fun w => w.on == d && w.part == p && !w.started && !w.ended && w.entry.isNone).foldl (fun s w => s.endStatus w.id 7) s

/-- A write to SEQ_PART_CFG[p]. -/
def State.partCfgWrite (s : State) (d p v : Nat) : State :=
  let was := s.rbit d (Reg.seqPartCfg p) 0
  let s := s.setRegN d (Reg.seqPartCfg p) (v % 2 ^ 17)
  if !was && bit v 0 then s.partStart d p else if was && !bit v 0 then s.partStop d p else s

/-- PARTITION_ENABLE (R456). -/
def execPartitionEnable (d p slice : Nat) (s : State) : Res :=
  onDie s d (if p < 16 then s.partCfgWrite d p (1 + 2 * (slice % 2 ^ 16)) else s)

/-- PARTITION_DISABLE (R456). -/
def execPartitionDisable (d p : Nat) (s : State) : Res :=
  onDie s d (if p < 16 then s.partCfgWrite d p (setBit (s.regN d (Reg.seqPartCfg p)) 0 false) else s)

/-- HBM_STATUS.SPLIT_ACTIVE. -/
def State.splitOn (s : State) (d : Nat) : Bool := s.rbit d Reg.hbmStatus 2

/-- Whether a new mask is one that R446 discards: it shares a half-die with another partition, names one that the part lacks,
splits a die whose HBM is not split, or the partition is enabled. -/
def State.maskBad (s : State) (d p v : Nat) : Bool :=
  let others := (List.range 16).filter fun q => q != p
  let held := fun u => others.any fun q => s.ownsHalf d q u
  s.rbit d (Reg.seqPartCfg p) 0 || decide (2 ^ (2 * s.part.dies) ≤ v) || ((bitsOf v 16).any held) ||
    ((List.range s.part.dies).any fun e =>
      !s.splitOn e && ((bit v (2 * e) && held (2 * e + 1)) || (bit v (2 * e + 1) && held (2 * e))))

/-- A write to SEQ_PART_MASK[p] (R446). -/
def State.partMaskWrite (s : State) (d p v : Nat) : State :=
  if s.maskBad d p v then s.setRbit d Reg.seqPartErr p true else s.setRegN d (Reg.seqPartMask p) v

/-- Whether a master reaches the registers of chapter 14: the physical function, the guard, and a debugger (R448). -/
def Master.system : Master → Bool
  | .pf => true
  | .guard => true
  | .jtag => true
  | _ => false

/-- PART_MASK_WRITE (R446, R448). -/
def execPartMaskWrite (d p : Nat) (value : W32) (master : Master) (s : State) : Res :=
  onDie s d (if p < 16 && Master.system master then s.partMaskWrite d p (value.toNat % 2 ^ 16) else s)

/-! ## Weirs -/

/-- The nominal rate of a path in bytes per ns (Table 14-2); 0 where the die has no such weir. -/
def State.weirRate (s : State) (d path : Nat) : Nat :=
  match path with
  | 0 => if s.splitOn d then 1024 else 2048
  | 1 => if s.splitOn d then 1024 else 0
  | 2 => 256
  | 3 => 100
  | 4 => 30
  | 5 => if d = 0 then 128 else 0
  | 6 => if d = 0 then 128 else 0
  | _ => 0

/-- GUAR of a path and partition. -/
def State.guarOf (s : State) (d path p : Nat) : Nat := s.rf d (Reg.weirShare path p) 0 8

/-- CEIL of a path and partition; 0 for none. -/
def State.ceilOf (s : State) (d path p : Nat) : Nat := s.rf d (Reg.weirShare path p) 8 8

/-- The most that a bucket holds, in 1/256 byte. -/
def State.burstOf (s : State) (d : Nat) : Int := (s.rf d Reg.weirCtrl 8 8 * 1024 * 256 : Nat)

/-- A partition's buckets at a weir; full before its first use. -/
def State.bucket (s : State) (d path link p : Nat) : Bucket :=
  (s.buckets.find? fun b => b.d == d && b.path == path && b.link == link && b.p == p).getD ⟨d, path, link, p, s.burstOf d, s.burstOf d⟩

/-- Puts a partition's buckets back. -/
def State.setBucket (s : State) (b : Bucket) : State :=
  { s with buckets := s.buckets.filter (fun x => !(x.d == b.d && x.path == b.path && x.link == b.link && x.p == b.p)) ++ [b] }

/-- A bucket after some time at a share of the rate, no fuller than it can be. -/
def fillBucket (cap level : Int) (rate share ns : Nat) : Int := min cap (level + (rate * share * ns : Nat))

/-- Every partition's buckets at a weir after `ns` more (R459, R461). -/
def State.fillWeir (s : State) (d path link ns : Nat) : State :=
  (List.range 16).foldl (fun s p =>
    let b := s.bucket d path link p
    let cap := s.burstOf d
    let rate := s.weirRate d path
    s.setBucket { b with guar := fillBucket cap b.guar rate (s.guarOf d path p) ns, ceil := fillBucket cap b.ceil rate (s.ceilOf d path p) ns }) s

/-- Whether the guarantees of a path sum to more than 256: a bit of WEIR_STATUS (R460). -/
def State.overcommit (s : State) (d path : Nat) : Bool :=
  decide (256 < sumNat ((List.range 16).map fun p => s.guarOf d path p))

/-- Whether a partition's ceiling lets it be granted. -/
def State.underCeil (s : State) (d path link p : Nat) : Bool :=
  s.ceilOf d path p == 0 || decide (0 < (s.bucket d path link p).ceil)

/-- The key of a weir in the record of the partition granted last. -/
def weirKey (d path link : Nat) : Nat := (d * 8 + path) * 4 + link

/-- The first partition of a list in rotation after the one granted last. -/
def State.rotate (s : State) (d path link : Nat) (ps : List Nat) : Option Nat :=
  let last := kvGet 15 s.lastGrant (weirKey d path link)
  minBy (fun p => (p + 15 - last) % 16) ps

/-- The waiting request that a free path's weir grants (R459): uncharged traffic, then guarantees, then the rest under their
ceilings; in rotation alone with the path's ENABLE bit 0. -/
def State.weirPick (s : State) (d path link : Nat) (waiting : List WeirReq) : Option WeirReq :=
  match waiting.find? fun r => r.part.isNone with
  | some r => some r
  | none =>
    let ps := (List.range 16).filter fun p => waiting.any fun r => r.part == some p
    let first := fun (x : Option Nat) => match x with | some p => waiting.find? fun r => r.part == some p | none => none
    if !s.rbit d Reg.weirCtrl path then first (s.rotate d path link ps)
    else
      let open_ := ps.filter fun p => s.underCeil d path link p
      let sure := if s.overcommit d path then [] else open_.filter fun p => decide (0 < (s.bucket d path link p).guar)
      first (match s.rotate d path link sure with | some p => some p | none => s.rotate d path link open_)

/-- A grant to a partition: both buckets, the rotation and the bytes in units of 64 (R459, Table 14-5). -/
def State.weirTake (s : State) (d path link p size : Nat) : State :=
  let b := s.bucket d path link p
  let c : Int := (size * 256 : Nat)
  let s := if s.rbit d Reg.weirCtrl path then s.setBucket { b with guar := b.guar - c, ceil := if s.ceilOf d path p = 0 then b.ceil else b.ceil - c } else s
  let s := { s with lastGrant := kvPut s.lastGrant (weirKey d path link) p }
  s.bump d (Reg.weirBytesLo path p) ((size + 63) / 64)

/-- WEIR_GRANT: a free path grants one waiting request (R459). -/
def execWeirGrant (d path link elapsedNs : Nat) (waiting : List WeirReq) (s : State) : Res :=
  onDie s d (
    if s.weirRate d path = 0 then s
    else
      let link := if path = 2 then link else 0
      let s := if s.rbit d Reg.weirCtrl path then s.fillWeir d path link elapsedNs else s
      match s.weirPick d path link waiting with
      | some r => (match r.part with | some p => s.weirTake d path link p r.size | none => s)
      | none => s)

/-- Notes what the buckets of the weirs that regulate hold, those not used yet among them (R461). -/
def State.keepBuckets (s : State) (d : Nat) : State :=
  (List.range 7).foldl (fun s j =>
    if s.rbit d Reg.weirCtrl j then
      (List.range (if j = 2 then 4 else 1)).foldl (fun s l => (List.range 16).foldl (fun s p => s.setBucket (s.bucket d j l p)) s) s
    else s) s

/-- A write to WEIR_CTRL: a path whose ENABLE bit is set anew starts with full buckets, and BURST 0 is stored as 1; a lowered
BURST clips (R459, R461, Table 14-6). -/
def State.weirCtrlWrite (s : State) (d v : Nat) : State :=
  let old := s.regN d Reg.weirCtrl
  let v := if fld v 8 8 = 0 then setFld v 8 8 1 else v
  let s := if fld v 8 8 = fld old 8 8 then s else s.keepBuckets d
  let s := s.setRegN d Reg.weirCtrl v
  let s := { s with buckets := s.buckets.filter fun b => !(b.d == d && bit v b.path && !bit old b.path) }
  let cap := s.burstOf d
  { s with buckets := mapIf (fun b => b.d == d) (fun b => { b with guar := min cap b.guar, ceil := min cap b.ceil }) s.buckets }

end Sys2Proof.Machine
end

