-- ==== Sys2Proof/Machine/RegRead.lean ====
section
/-! DEFINITION. What a read of a register returns (R611, R614, R618): the stored word, or for a status field the state of its
unit; and COUNTER_LO_READ. -/

namespace Sys2Proof.Machine

/-- The index of an offset in a row of registers, if it is one of them. -/
def rowAt (off base stride n : Nat) : Option Nat :=
  if base ≤ off && (off - base) % stride = 0 && (off - base) / stride < n then some ((off - base) / stride) else none

/-- Whether some descriptor started and not ended on a die has a kind and engine that a test picks. -/
def State.busyWork (s : State) (d : Nat) (is : Work → Bool) : Bool := s.seq.works.any fun w => w.on == d && w.started && !w.ended && is w

/-- Whether a die's port has a forwarded wheel frame queued. -/
def State.forwards (s : State) (d : Nat) : Bool :=
  s.eths.any fun e => e.txq.any fun x => x.via == some d && match x.item with | .wheel _ => true | _ => false

/-- The domains whose record names a die. -/
def State.domsOf (s : State) (d : Nat) : List Nat := (List.range s.domCount).filter fun m => (s.domRec m).valid && (s.domRec m).die == d

/-- CMT_STATUS (Table 12-10). -/
def State.cmtStatusNow (s : State) (d : Nat) : Nat :=
  let open_ := (s.groups.filter fun g => s.ownsOn d g.part).length
  let ms := s.domsOf d
  let rec_ := ms.any fun m => (s.dom m).leads || ((s.dom m).stopped && decide ((s.domRec m).done < (s.domRec m).next))
  let stall := ms.any fun m => !(s.dom m).stalled.isEmpty
  b2n (0 < open_ || rec_) + 2 * Nat.min 127 open_ + 256 * b2n rec_ + 512 * b2n stall

/-- The live fields of the status registers, none for a register that reads as stored. -/
def State.statusNow (s : State) (d off : Nat) : Option Nat :=
  let v := s.regN d off
  if off = Reg.seqStatus then
    let n := s.fqCount d
    some (b2n (0 < n) + 2 * b2n (1024 ≤ n) + 4 * Nat.min 1024 n)
  else if off = Reg.xtStatus then
    let busy := s.busyWork d (fun w => decide (0x2A ≤ w.kind) && decide (w.kind ≤ 0x2D)) || s.xt.fetching.any fun x => x.1 == d
    some (b2n busy + 2 * b2n (s.cacheFull d))
  else if off = Reg.whlStatus then
    let n := (s.whl.colls.filter fun c => c.d == d).length
    some (b2n (0 < n || s.forwards d) + 2 * Nat.min 8 n)
  else if off = Reg.cmtStatus then some (s.cmtStatusNow d)
  else if off = Reg.flStatus then some (setBit v 5 (s.volReady d))
  else if off = Reg.flVolUnitsLo then some (s.volUnits d % 2 ^ 32)
  else if off = Reg.flVolUnitsHi then some (s.volUnits d / 2 ^ 32)
  else if off = Reg.trbStatus then some (sumNat ([0, 1, 2].map fun t => 2 ^ t * b2n (s.busyWork d fun w => w.engine == some (6 + t))))
  else if off = Reg.cnvStatus then
    let rows := s.engs.any fun x => x.d == d && !x.fifo.isEmpty
    some (b2n (rows || s.folds.any (fun f => f.die == d) || s.busyWork d fun w => decide (0x10 ≤ w.kind) && decide (w.kind ≤ 0x12)) + 2 * b2n rows)
  else if off = Reg.tokStatus then
    let words := (s.aq.filter fun a => a.d == d).length
    let descs := s.workQueue d
    some (b2n (s.batches.any (fun b => b.d == d) || s.busyWork d fun w => w.kind == 0x15) + 2 * b2n (131072 ≤ words) + 4 * b2n (512 ≤ descs))
  else if off = Reg.weirStatus then some (sumNat ((List.range 7).map fun j => 2 ^ j * b2n (s.overcommit d j)))
  else if off = Reg.ethStatus then some (setBit v 14 (s.poolErr d))
  else
    match rowAt off (Reg.ringStatus 0) 0x40 32, rowAt off (Reg.meStatus 0) 0x10000 4, rowAt off (Reg.veStatus 0) 0x10000 2 with
    | some i, _, _ => some (s.ringStatusNow (32 * d + i))
    | _, some e, _ =>
      let x := s.eng d e
      some (setBit (setBit v 0 (s.busyWork d (fun w => w.engine == some e) || !x.queue.isEmpty || !x.fifo.isEmpty)) 1 (x.gearW == some true))
    | _, _, some u => some (setBit v 0 (s.busyWork d fun w => w.engine == some (4 + u)))
    | _, _, _ => none

/-- The registers of RG0 and RG1 (Table 20-1): the blocks GEN and GRD, and the heat and fan registers of PWR. -/
def lowReg (off : Nat) : Bool := decide (off < 0x20000) || [Reg.thermTemp, Reg.fanCtrl, Reg.fanStatus, Reg.fanFailRpm].contains off

/-- Whether an offset of die 0's window is of RG19: the MSI-X structures and the CXL component registers (Table 20-1). -/
def linkReg (off : Nat) : Bool :=
  (rowAt off 0x188000 4 1344).isSome || (rowAt off 0x18C000 4 12).isSome || (decide (0x181000 ≤ off) && decide (off < 0x182000)) ||
    (decide (0x18E000 ≤ off) && decide (off < 0x190000))

/-- Whether the reset group of a register of a die is in reset (R537, R609, Table 20-1): a warm reset holds RG2 and above, a cold
one RG1 too, and a reset of the host link RG19. -/
def State.regInReset (s : State) (d off : Nat) : Bool :=
  s.rst.off || (s.rst.host && d == 0 && linkReg off) ||
    s.rst.dies.any fun x => x.1 == d && (!lowReg off || (x.2 && decide (0x10000 ≤ off) && decide (off < 0x20000)))

/-- The 48 bytes of pending bits of a function, as a word (R487). -/
def State.pbaWord (s : State) (fn i : Nat) : Nat := sumNat ((List.range 32).map fun b => 2 ^ b * b2n (kvGet false s.hst.pba (512 * fn + 32 * i + b)))

/-- A read of the MSI-X structures or the CXL component registers of the physical function in die 0's window (R486, R501). -/
def State.hostRead (s : State) (off : Nat) : Option Nat :=
  match rowAt off 0x188000 4 1344, rowAt off 0x18C000 4 12 with
  | some i, _ => some (s.msixWord 0 i)
  | _, some i => some (s.pbaWord 0 i)
  | _, _ =>
    if (0x181000 ≤ off && off < 0x182000) || (0x18E000 ≤ off && off < 0x190000) then some (kvGet 0 s.hst.cxlRegs (off - 0x180000)) else none

/-- What a read of four bytes at an offset of a die's window returns: zero for an absent die, a block in reset, an offset that no
table names, and a register that only die 0 has (R6, R537, R611, R618). The LO word of a counter shows its count. -/
def State.regRead (s : State) (d off : Nat) : Nat :=
  if s.part.dies ≤ d || s.regInReset d off then 0
  else
    match (if d = 0 then s.hostRead off else none), regDesc off with
    | some v, _ => v
    | none, none => 0
    | none, some r =>
      if r.die0 && d ≠ 0 then 0
      else if r.ctr && off / 4 % 2 == 0 then s.ctr d off % 2 ^ 32
      else (s.statusNow d off).getD (s.regN d off)

/-- Whether an offset is the LO word of a counter. -/
def isCtrLo (off : Nat) : Bool := match regDesc off with | some r => r.ctr && off / 4 % 2 == 0 | none => false

/-- Whether a register exists in die 0 only and the die is another (R618). -/
def regElsewhere (d off : Nat) : Bool := d != 0 && match regDesc off with | some r => r.die0 | none => false

/-- Whether a counter counts events of which the commands name only some: accesses to a stack and a tile store, and the flits, errors
and replays of a link that the die has (Tables 08-7 and 20-6). -/
def State.partSeen (s : State) (d off : Nat) : Bool :=
  match rowAt off (Reg.hbmCntLo 0) 8 2, rowAt off (Reg.tsCntLo 0) 8 3, rowAt off (Reg.d2dCntLo 0) 8 12 with
  | none, none, some i => i % 4 != 3 && decide (i / 4 < (s.part.links d).length)
  | none, none, none => false
  | _, _, _ => true

/-- COUNTER_LO_READ: a read of an LO word captures its HI word; a read of 8 bytes there returns both (R610, R614). Elsewhere a read
changes nothing. -/
def execCounterLoRead (d off : Nat) (wide : Bool) (s : State) : Res :=
  live s (
    let off := off / 4 * 4
    let held := isCtrLo off && decide (d < s.part.dies) && !s.regInReset d off && !regElsewhere d off
    let s := if held && s.partSeen d off then s.bumpFree d off else s
    let s := if held then s.setRegN d (off + 4) (s.ctr d off / 2 ^ 32) else s
    s.emit (.readData (s.regRead d off + if wide then 2 ^ 32 * s.regRead d (off + 4) else 0)))

end Sys2Proof.Machine
end

