-- ==== Sys2Proof/Machine/Serving.lean ====
section
/-! DEFINITION. The model cache and the serving streams (R462 to R476). -/

namespace Sys2Proof.Machine

/-- The serving stream of a partition beyond its registers. -/
def State.srv (s : State) (p : Nat) : Srv := (s.srvs.find? fun x => x.p == p).getD ⟨p, 0, false, [], [], [], 0, 0, 0, [], []⟩

/-- Puts a serving stream back. -/
def State.setSrv (s : State) (x : Srv) : State := { s with srvs := s.srvs.filter (fun y => y.p != x.p) ++ [x] }

/-- SEQ_SRV_CTRL.ENABLE. -/
def State.srvOn (s : State) (p : Nat) : Bool := s.rbit 0 (Reg.seqSrvCtrl p) 0

/-- SEQ_SRV_COUNT. -/
def State.srvCount (s : State) (p : Nat) : Nat := s.rf 0 (Reg.seqSrvCount p) 0 15

/-- The sequence entries of all enabled streams. -/
def State.srvTotal (s : State) : Nat := sumNat (((List.range 16).filter s.srvOn).map s.srvCount)

/-- A sequence entry (Table 14-4), zero where it lies outside the HBM (R651). -/
def State.seqEntry (s : State) (p i : Nat) : List Byte :=
  let a := s.regAddr 0 (Reg.seqSrvBaseLo p) + 32 * i
  if inHbm s.part.dies a 32 then s.bytes a 32 else List.replicate 32 0

/-! ## The victim (R467) -/

/-- Whether a model may be named as the victim of a partition. -/
def State.victimOk (s : State) (p m : Nat) : Bool :=
  let e := s.modelEntry m
  s.modelState e == 2 && leAt e 0 1 / 16 == p && !bit (leAt e 0 1) 2 && leAt e 48 2 % 2 ^ 15 == 0 && !s.modelBusy m

/-- Names the victim of a partition in SEQ_MODEL_VICTIM. -/
def State.nameVictim (s : State) (p : Nat) : State :=
  let key := fun m => 2 ^ 32 * (leAt (s.modelEntry m) 1 1 % 16) + leAt (s.modelEntry m) 40 4
  s.setRegN 0 (Reg.seqModelVictim p) ((minBy key ((List.range 64).filter fun m => s.victimOk p m)).getD 0x7F)

/-! ## Enabling and disabling (R468, R476) -/

/-- A write to SEQ_SRV_CTRL[p] (R468, R470, R476). -/
def State.srvCtrlWrite (s : State) (p v : Nat) : State :=
  let old := s.regN 0 (Reg.seqSrvCtrl p)
  if bit old 0 then
    let s := s.setRegN 0 (Reg.seqSrvCtrl p) (setBit old 0 (bit v 0))
    if bit v 0 then s else s.nameVictim p
  else if !bit v 0 then s.setRegN 0 (Reg.seqSrvCtrl p) (v % 2 ^ 9)
  else if 16384 < s.srvTotal + s.srvCount p then s
  else
    let s := s.setRegN 0 (Reg.seqSrvCtrl p) (v % 2 ^ 9)
    let s := s.setRegN 0 (Reg.seqSrvStep p) 0
    s.setSrv { s.srv p with last := s.srvCount p - 1 }

/-- SERVING_ENABLE (R468). -/
def execServingEnable (p : Nat) (value : W32) (s : State) : Res :=
  live s (if p < 16 && bit value.toNat 0 then s.srvCtrlWrite p value.toNat else s)

/-- SERVING_DISABLE (R476, R467). -/
def execServingDisable (p : Nat) (s : State) : Res :=
  live s (if p < 16 && s.srvOn p then s.srvCtrlWrite p (setBit (s.regN 0 (Reg.seqSrvCtrl p)) 0 false) else s)

/-! ## Building a step (R470, R471) -/

/-- A row that a step includes: entry, model, position, KV and TAG. -/
structure SRow where
  i     : Nat
  model : Nat
  pos   : Nat
  kv    : Nat
  tag   : Nat
deriving DecidableEq, Repr

/-- What a scan has found: the rows in order, active sequences by model, and the entries passed over. -/
structure Scan where
  rows : List SRow
  seqs : List (Nat × Nat)
  wait : Nat
deriving DecidableEq, Repr

/-- Rows of a model in a scan. -/
def Scan.count (x : Scan) (m : Nat) : Nat := (x.rows.filter fun r => r.model == m).length

/-- One entry of the scan of R470. `ents` are the model entries as taken at the start of the build (R464). -/
def State.scanEntry (s : State) (p : Nat) (ents : List (List Byte)) (x : Scan) (i : Nat) : Scan :=
  let b := s.seqEntry p i
  let m := leAt b 3 1 % 64
  if !bit (leAt b 3 1) 7 || bit (leAt b 2 1) 7 then x
  else
    let e := (ents[m]?).getD []
    let x := { x with seqs := kvPut x.seqs m (kvGet 0 x.seqs m + 1) }
    if s.modelState e = 2 && (leAt e 0 1 / 16 == p || bit (leAt e 2 2) p) then
      if x.count m < s.rf 0 (Reg.seqSrvLimits p) 16 11 && x.rows.length < s.rf 0 (Reg.seqSrvLimits p) 0 15 then
        { x with rows := x.rows ++ [⟨i, m, leAt b 0 3 % 2 ^ 20, leAt b 8 6, leAt b 4 4⟩] }
      else x
    else { x with wait := x.wait + 1 }

/-- The scan of the sequence table from the entry after the last included one (R470). -/
def State.scan (s : State) (p : Nat) (ents : List (List Byte)) : Scan :=
  let n := s.srvCount p
  ((List.range n).map fun k => ((s.srv p).last + 1 + k) % n).foldl (s.scanEntry p ents) ⟨[], [], 0⟩

/-- The batch record of a model (R471). -/
def batchRecord (step m : Nat) (rows : List SRow) : List Byte :=
  padTo 64 (natLe 4 step ++ natLe 2 m ++ natLe 2 rows.length) ++
    rows.flatMap fun r => natLe 2 r.i ++ natLe 4 r.pos ++ natLe 6 r.kv ++ natLe 4 r.tag

/-- A template descriptor with the row count put in where its field is 0 (R471). -/
def serveCopy (count : Nat) (b : List Byte) : List Byte :=
  let k := leAt b 0 1
  if k = 0x10 && leAt b 26 8 % 2 ^ 11 = 0 then spliceAt b 26 (natLe 8 (leAt b 26 8 + count % 2 ^ 11))
  else if k = 0x15 && leAt b 26 2 % 2 ^ 15 = 0 then spliceAt b 26 (natLe 2 (leAt b 26 2 + count))
  else b

/-- Writes the batch record of a model and gives the copies of its template (R471). -/
def State.serveModel (s : State) (p : Nat) (ents : List (List Byte)) (x : Scan) (m : Nat) : State × List (Nat × List Byte) :=
  let e := (ents[m]?).getD []
  let rows := x.rows.filter fun r => r.model == m
  let bs := batchRecord (s.regN 0 (Reg.seqSrvStep p)) m rows
  let a := leAt e 32 6
  let s := if mappedRange s.part.dies a bs.length then s.write a bs else s
  (s, (List.range (leAt e 30 2 % 2 ^ 13)).map fun i => (m, serveCopy rows.length (s.bytes (leAt e 24 6 + 64 * i) 64)))

/-- Writes SEQS of a model (Table 14-3). -/
def State.writeSeqs (s : State) (m n : Nat) : State :=
  let a := s.regAddr 0 Reg.seqModelBaseLo + 64 * m
  if inHbm s.part.dies a 64 then s.writeN (a + 48) 2 (n % 2 ^ 15) else s

/-- The models whose SEQS a scan of a partition's table settles: those its entries name, and those at home in it. -/
def State.scanned (s : State) (p : Nat) (seqs : List (Nat × Nat)) : List Nat :=
  (List.range 64).filter fun m => decide (0 < kvGet 0 seqs m) || leAt (s.modelEntry m) 0 1 / 16 == p

/-- Copies template descriptors into the serving ring while it has room, ringing it as a local producer (R471). -/
def State.feedRing (s : State) (p : Nat) : List (Nat × List Byte) → State
  | [] => s.setSrv { s.srv p with toCopy := [] }
  | c :: rest =>
    let r := s.servingRing p
    if s.part.rings ≤ r || !s.ringOn r || s.ringSize r ≤ modSub 32 (s.ringPi r) (s.ringCi r) then s.setSrv { s.srv p with toCopy := c :: rest }
    else
      let pi := s.ringPi r
      let s := s.write (s.slotAddr r pi) c.2
      let s := s.setSrv { s.srv p with copied := (s.srv p).copied + 1, left := (s.srv p).left + 1 }
      State.feedRing (s.bellPi r ((pi + 1) % 2 ^ 32) .sequencer) p rest

/-- Copies what a partition's step still owes its ring. -/
def State.feed (s : State) (p : Nat) : State := s.feedRing p (s.srv p).toCopy

/-- SERVING_STEP_BUILD: the build of a step, or of none when no row is ready (R470, R471). -/
def State.buildStep (s : State) (p : Nat) : State :=
  if !s.srvOn p || (s.srv p).inFlight || !s.serves then s
  else
    let ents := (List.range 64).map s.modelEntry
    let x := s.scan p ents
    let s := s.bump 0 (Reg.seqSchCntLo p 5) x.wait
    match x.rows.getLast? with
    | none => (s.scanned p x.seqs).foldl (fun s m => s.writeSeqs m (kvGet 0 x.seqs m)) s
    | some r =>
      let s := s.bump 0 (Reg.seqSchCntLo p 4) x.rows.length
      let models := (List.range 64).filter fun m => decide (0 < x.count m)
      let (s, copies) := models.foldl (fun (a : State × List (Nat × List Byte)) m =>
        let (s, l) := a.1.serveModel p ents x m
        (s, a.2 ++ l)) (s, [])
      let inc := x.rows.map fun r => (r.i, r.model, r.pos)
      let y : Srv := ⟨p, r.i, true, inc, [], copies, s.ringPi (s.servingRing p), 0, 0, x.seqs, models⟩
      (s.setSrv y).feed p

/-- SERVING_STEP_BUILD (R470). -/
def execServingStepBuild (p : Nat) (s : State) : Res := live s (if p < 16 then s.buildStep p else s)

/-- DESCRIPTOR_ACCEPT (R410, R411). A context that it leaves with nothing to run gives up the die
(R453), and the slot that it frees in a serving ring takes a copy that waits for room (R471). -/
def execDescriptorAccept (d : Nat) (s : State) : Res :=
  onDie s d (
    let s := s.acceptNext d
    let s := (List.range s.part.parts).foldl (fun s p => s.leaveIdle d p) s
    (s.srvs.filter fun x => !x.toCopy.isEmpty).foldl (fun s x => s.feed x.p) s)

/-! ## Completing a step (R472) -/

/-- Moves the position of an included entry, or sets LIMIT at the last one: bytes 0 to 2 in one write. -/
def State.advance (s : State) (p : Nat) (e : Nat × Nat × Nat) : State :=
  let a := s.regAddr 0 (Reg.seqSrvBaseLo p) + 32 * e.1
  if e.2.2 = 2 ^ 20 - 1 then (s.writeN a 3 (e.2.2 + 2 ^ 23)).bump 0 (Reg.seqSchCntLo p 6) 1 else s.writeN a 3 (e.2.2 + 1)

/-- LAST_STEP and USES of a model that a step batched. -/
def State.useModel (s : State) (m : Nat) : State :=
  let a := s.regAddr 0 Reg.seqModelBaseLo + 64 * m
  let home := leAt (s.modelEntry m) 0 1 / 16
  let s := s.writeN (a + 40) 4 (s.regN 0 (Reg.seqSrvStep home))
  s.writeN (a + 44) 4 (Nat.min (2 ^ 32 - 1) (s.memN (a + 44) 4 + 1))

/-- SERVING_STEP_COMPLETE: once every descriptor copied has its record, positions advance, the models' counts are written,
SEQ_SRV_STEP moves, and the victim is named (R472, R467). A step whose copies have waited for room goes on copying. -/
def State.finishStep (s : State) (p : Nat) : State :=
  let s := if (s.srv p).inFlight then s.feed p else s
  let x := s.srv p
  if !x.inFlight || !x.toCopy.isEmpty || x.left ≠ 0 then s
  else
    let s := x.included.foldl (fun s e => s.advance p e) s
    let s := x.models.foldl (fun s m => s.useModel m) s
    let s := (s.scanned p x.seqs).foldl (fun s m => s.writeSeqs m (kvGet 0 x.seqs m)) s
    let s := s.setRegN 0 (Reg.seqSrvStep p) (s.regN 0 (Reg.seqSrvStep p) + 1)
    let s := s.bump 0 (Reg.seqSchCntLo p 3) 1
    (s.setSrv { x with inFlight := false, included := [], models := [], copied := 0 }).nameVictim p

/-- SERVING_STEP_COMPLETE (R472). -/
def execServingStepComplete (p : Nat) (s : State) : Res := live s (if p < 16 then s.finishStep p else s)

end Sys2Proof.Machine
end

