-- ==== Sys2Proof/Machine/RegWrite.lean ====
section
/-! DEFINITION. Writes to registers (chapter 20): who may write, the locks, the ranges, the registers whose writes do more than
store, two writes in one cycle (Table 18-8), and the clearing registers. -/

namespace Sys2Proof.Machine

/-! ## Rings and event queues (R408, R416, R436, R443) -/

/-- A size field of five bits: 4 to 16, other values are stored as 4 (Table 13-10). -/
def fixLog2 (v lo : Nat) : Nat := if 4 ≤ fld v lo 5 && fld v lo 5 ≤ 16 then v else setFld v lo 5 4

/-- RING_CFG.ENABLE goes to 1: the indices become 0, ERROR and BAD_DOORBELL clear (R408, R416), and what a function level reset
ended gives up its place (R536). -/
def State.ringStart (s : State) (r : Nat) : State :=
  let s := { s with seq := { s.seq with works := s.seq.works.filter fun w => !(w.ring == r && w.bytes.isEmpty) } }
  s.resetRing r

/-- RING_CFG.ENABLE goes to 0: the ring accepts nothing more (R443). Slots fetched and not accepted are dropped. -/
def State.ringStop (s : State) (r : Nat) : State :=
  let s := s.setRing r Reg.ringCfg (setBit (s.ringReg r Reg.ringCfg) 0 false)
  { s with seq := { s.seq with fetched := s.seq.fetched.filter fun x => x.ring != r } }

/-- A write to RING_CFG: while ENABLE is 1 the other fields keep their values (R443). -/
def State.ringCfgWrite (s : State) (r v : Nat) : State :=
  if s.ringOn r then (if bit v 0 then s else s.ringStop r)
  else
    let s := s.setRing r Reg.ringCfg (fixLog2 (fixLog2 (v % 2 ^ 22) 12) 17)
    if bit v 0 then s.ringStart r else s

/-- RING_ENABLE (R408). -/
def execRingEnable (ring : Nat) (cfg : W32) (s : State) : Res :=
  onDie s (ringDie ring) (s.ringCfgWrite ring (setBit cfg.toNat 0 true))

/-- RING_DISABLE (R443). -/
def execRingDisable (ring : Nat) (s : State) : Res := onDie s (ringDie ring) (if s.ringOn ring then s.ringStop ring else s)

/-- A write to EVQ_CFG[p]: enabling sets head and tail to 0 (R436, R443). -/
def State.evqCfgWrite (s : State) (p v : Nat) : State :=
  let old := s.regN 0 (Reg.evqCfg p)
  if bit old 0 then s.setRegN 0 (Reg.evqCfg p) (setBit old 0 (bit v 0))
  else
    let s := s.setRegN 0 (Reg.evqCfg p) (fixLog2 (v % 64) 1)
    if bit v 0 then (s.setRegN 0 (Reg.evqTail p) 0).setRegN 0 (Reg.evqHead p) 0 else s

/-- EVQ_ENABLE (R436). -/
def execEvqEnable (p : Nat) (cfg : W32) (s : State) : Res := onDie s 0 (if p < 16 then s.evqCfgWrite p (setBit cfg.toNat 0 true) else s)

/-! ## Clearing registers -/

/-- SEQ_ACT_PEAK_CLR (R364). -/
def State.peakClear (s : State) (d v : Nat) : State :=
  (bitsOf v 16).foldl (fun s p => s.setRegN d (Reg.seqActPeak p) (s.regN d (Reg.seqActCur p))) s

/-- SEQ_ACT_PEAK_CLR as a command. -/
def execSeqActPeakClr (d : Nat) (value : W32) (s : State) : Res := onDie s d (s.peakClear d value.toNat)

/-- RAS_LOG_CLR: the entries and INDEX (R606). -/
def State.rasLogClear (s : State) (d v : Nat) : State :=
  if bit v 0 then
    let s := { s with regs := s.regs.filter fun x => !(decide (regKey d (Reg.rasLog 0 0) ≤ x.1) && decide (x.1 < regKey d (Reg.rasLog 64 0))) }
    s.setRegN d Reg.rasLogHead 0
  else s

/-- RAS_LOG_CLR as a command. -/
def execRasLogClr (d : Nat) (value : W32) (s : State) : Res := onDie s d (s.rasLogClear d value.toNat)

/-- GRD_LOST_CLR: the count, the entries and INDEX (R585). -/
def State.lostClear (s : State) (d v : Nat) : State :=
  if bit v 0 then
    let s := { s with regs := s.regs.filter fun x => !(decide (regKey d (Reg.grdLostLog 0 0) ≤ x.1) && decide (x.1 < regKey d (Reg.grdLostLog 32 0))) }
    (s.setRegN d Reg.grdLostHead 0).setCtr d Reg.grdLostCntLo 0
  else s

/-- GRD_LOST_CLR as a command. -/
def execGrdLostClr (d : Nat) (value : W32) (s : State) : Res := onDie s d (s.lostClear d value.toNat)

/-- The counters that the bits of a clearing register name, as bit and LO offset: a register whose bit i clears the i-th of `n`
counters. -/
def clearRows : List (Nat × Nat × Nat) :=
  [(Reg.clkCntClr, Reg.clkCntLo 0, 4), (Reg.pwrCntClr, Reg.pwrCntLo 0, 8), (Reg.tsCntClr, Reg.tsCntLo 0, 3), (Reg.hbmCntClr, Reg.hbmCntLo 0, 3),
    (Reg.ethCntClr, Reg.ethCntLo 0, 16), (Reg.xtCntClr, Reg.xtCntLo 0, 16), (Reg.flCntClr, Reg.flCntLo 0, 8), (Reg.trbCntClr, Reg.trbCntLo 0, 5),
    (Reg.seqCntClr, Reg.seqCntLo 0, 4), (Reg.ringCntClr, Reg.ringCntLo 0, 8), (Reg.cmtCntClr, Reg.cmtCntLo 0, 8), (Reg.whlCntClr, Reg.whlCntLo 0, 8),
    (Reg.tokCntClr, Reg.tokCntLo 0, 8), (Reg.cnvCntClr, Reg.cnvCntLo 0, 8), (Reg.rasCntClr, Reg.rasCntLo 0, 8), (Reg.hstCntClr, Reg.hstCntLo 0, 8),
    (Reg.d2dCntClr, Reg.d2dCntLo 0, 12)] ++
  ((List.range 4).flatMap fun e => [(Reg.meCntClr e, Reg.meCntLo e 0, 9), (Reg.meSkipClr e, Reg.meSkipLo e 0, 2)]) ++
  ((List.range 2).map fun v => (Reg.veCntClr v, Reg.veCntLo v 0, 8))

/-- The counters that a write to a clearing register clears: bit of the write and LO offset. -/
def clearedBy (off v : Nat) : List (Nat × Nat) :=
  if off = Reg.seqSchCntClr then (bitsOf v 8).map fun i => (i, Reg.seqSchCntLo (fld v 8 4) i)
  else if off = Reg.weirCntClr then (bitsOf v 7).flatMap fun j => (List.range 16).map fun p => (j, Reg.weirBytesLo j p)
  else match clearRows.find? fun r => r.1 == off with
    | some r => (bitsOf v r.2.2).map fun i => (i, r.2.1 + 8 * i)
    | none => []

/-- A write to a clearing register. A counter that also counts in the same cycle is left at 1; `incs` names those, by the bits of
the write. -/
def State.clearCounters (s : State) (d off v incs : Nat) : State :=
  (clearedBy off v).foldl (fun s x => s.setCtr d x.2 (b2n (bit incs x.1))) s

/-- COUNTER_CLEAR (R131 and the counter rule of each block). -/
def execCounterClear (d off : Nat) (value : W32) (incs : W32) (s : State) : Res :=
  onDie s d (if regElsewhere d off then s else s.clearCounters d off value.toNat incs.toNat)

/-- A write of 1s to a register's W1C bits; `sets` names the bits that the package sets in the same cycle (R616). -/
def State.clearBits (s : State) (d off v sets : Nat) : State :=
  match regDesc off with
  | some r =>
    let m := r.w1c
    let old := s.regN d off
    s.setRegN d off (Nat.lor (old - Nat.land old (Nat.land v m)) (Nat.land sets m))
  | none => s

/-- W1C_CLEAR (R616). -/
def execW1cClear (d off : Nat) (value : W32) (sets : W32) (s : State) : Res :=
  onDie s d (if regElsewhere d off then s else s.clearBits d off value.toNat sets.toNat)

/-! ## Ranges (R650 and the field tables) -/

/-- A number moved to the nearest end of a range. -/
def clamp (lo hi x : Nat) : Nat := Nat.max lo (Nat.min hi x)

/-- A field replaced where a test fails. -/
def fixField (v lo len : Nat) (ok : Nat → Bool) (other : Nat) : Nat := if ok (fld v lo len) then v else setFld v lo len other

/-- A field of counts that larger values leave at its end. -/
def capField (v len most : Nat) : Nat := if most < fld v 0 len then setFld v 0 len most else v

/-- A cap in W: values below a quarter of design power are stored as a quarter (Table 16-9). -/
def Part.fixCap (p : Part) (v : Nat) : Nat := Nat.max (p.design / 4) (v % 65536)

/-- FAN_CTRL as stored. -/
def fixFan (v : Nat) : Nat :=
  let v := fixField v 8 8 (fun x => decide (x ≤ 100)) 100
  let v := fixField v 16 8 (fun x => decide (x ≤ 254)) 254
  fixField v 24 8 (fun x => decide (fld v 16 8 < x)) (fld v 16 8 + 1)

/-- THERM_LIMITS as stored. -/
def fixTherm (v : Nat) : Nat :=
  let v := fixField v 0 8 (fun x => decide (60 ≤ x) && decide (x ≤ 105)) 95
  fixField v 8 8 (fun x => decide (fld v 0 8 + 5 ≤ x) && decide (x ≤ 115)) 110

/-- ETH_CTRL as stored: FC_MODE 3 is none, and a side port offers no Ximel Link. -/
def Part.fixEth (p : Part) (d v : Nat) : Nat :=
  let v := fixField v 2 2 (· != 3) 0
  if p.torusPorts ≤ d then setBit v 1 false else v

/-- A value as the field table of its register stores it. -/
def Part.regFix (p : Part) (d off v : Nat) : Nat :=
  let zero1 := fun (len : Nat) => fixField v 0 len (· != 0) 1
  if off = Reg.cnvHistCount || off = Reg.xtRegCount || off = Reg.cmtHoldCount then capField v 17 65536
  else if off = Reg.seqOwnCount || off = Reg.xtCtxCount then capField v 21 1048576
  else if off = Reg.whlGrpCount then capField v 13 4096
  else if off = Reg.flVol then fixField v 8 4 (fun x => decide (4 ≤ x) && decide (x ≤ 10)) 6
  else if off = Reg.flTimeout || off = Reg.ethPauseTime || off = Reg.whlTimeout || off = Reg.cmtTimeout then zero1 16
  else if off = Reg.ethCtrl then p.fixEth d v
  else if off = Reg.ethMaxfrm then setFld v 0 14 (clamp 1518 9216 (fld v 0 14))
  else if off = Reg.xtUdpPort then fixField v 0 16 (· != 0) 0xD7A0
  else if off = Reg.whlCtrl || off = Reg.cmtCtrl then fixField v 1 3 (· != 7) 6
  else if off = Reg.hstBiasCount then setFld v 0 27 (clamp 1 100663296 (fld v 0 27))
  else if off = Reg.pwrCap || off = Reg.pwrCapSb || off = Reg.pwrCapCeil then p.fixCap v
  else if off = Reg.thermLimits then fixTherm v
  else if off = Reg.fanCtrl then fixFan v
  else if off = Reg.genDiscCtrl then fixField v 4 12 (· != 0) 1
  else if off = Reg.rasCtrl then fixField v 8 8 (· != 0) 1
  else if off = Reg.rasScrubRate then fixField (zero1 16) 16 16 (· != 0) 1
  else match rowAt off (Reg.ethPool 0) 4 8, rowAt off (Reg.seqSrvCount 0) 0x20 16, rowAt off (Reg.seqSrvLimits 0) 0x20 16 with
    | some _, _, _ => capField v 12 2048
    | _, some _, _ => capField v 15 16384
    | _, _, some _ =>
      fixField (fixField v 0 15 (fun x => decide (1 ≤ x) && decide (x ≤ 16384)) 256) 16 11 (fun x => decide (1 ≤ x) && decide (x ≤ 1024)) 256
    | _, _, _ => v

/-! ## Locks -/

/-- Whether a register takes no writes now (R265, R327, R365, R405, R441, R443, R476, R502, R620). -/
def State.regLocked (s : State) (d off : Nat) : Bool :=
  let at_ := fun (l : List Nat) => l.contains off
  let ring := fun (base : Nat) => match rowAt off base 0x40 32 with | some i => s.ringOn (32 * d + i) | none => false
  let evq := fun (base : Nat) => match rowAt off base 0x20 16 with | some p => s.rbit 0 (Reg.evqCfg p) 0 | none => false
  let srv := fun (base : Nat) => match rowAt off base 0x20 16 with | some p => s.srvOn p | none => false
  (at_ [Reg.flVol, Reg.flQbaseLo, Reg.flQbaseHi] && s.rbit d Reg.flCtrl 0) ||
  (at_ [Reg.xtUdpPort, Reg.xtCtxCount, Reg.xtCtxBaseLo, Reg.xtCtxBaseHi, Reg.xtRegBaseLo, Reg.xtRegBaseHi, Reg.xtRegCount] && s.xtOn d) ||
  (at_ [Reg.whlGrpBaseLo, Reg.whlGrpBaseHi, Reg.whlGrpCount, Reg.whlStageLo, Reg.whlStageHi] && s.rbit d Reg.whlCtrl 0) ||
  (at_ [Reg.cmtTwinBaseLo, Reg.cmtTwinBaseHi, Reg.cmtDomBaseLo, Reg.cmtDomBaseHi, Reg.cmtDomCount, Reg.cmtHoldBaseLo, Reg.cmtHoldBaseHi,
      Reg.cmtHoldCount, Reg.cmtManVlbaLo, Reg.cmtManVlbaHi] && s.rbit d Reg.cmtCtrl 0) ||
  (at_ [Reg.seqModelBaseLo, Reg.seqModelBaseHi] && (List.range 16).any s.srvOn) ||
  (at_ [Reg.hstBiasBaseLo, Reg.hstBiasBaseHi] && s.rbit 0 Reg.hstCtrl 2) ||
  (at_ [Reg.seqObjBaseLo, Reg.seqObjBaseHi] && (List.range 32).any fun i => s.ringOn (32 * d + i)) ||
  [Reg.ringBaseLo 0, Reg.ringBaseHi 0, Reg.cqBaseLo 0, Reg.cqBaseHi 0].any ring ||
  [Reg.evqBaseLo 0, Reg.evqBaseHi 0].any evq ||
  [Reg.seqSrvBaseLo 0, Reg.seqSrvBaseHi 0, Reg.seqSrvCount 0, Reg.seqSrvLimits 0].any srv ||
  (match rowAt off (Reg.mbData 0 0) 4 8192 with | some i => s.mbBusy (i / 128) | none => false)

/-- The partition whose TDI, when locked, covers a register (R500). -/
def State.regTdi (s : State) (d off : Nat) : Option Nat :=
  let at_ := fun (base stride n : Nat) => rowAt off base stride n
  let ring := fun (base : Nat) => (at_ base 0x40 32).map fun i => s.ringPart (32 * d + i)
  [at_ (Reg.seqPartCfg 0) 4 16, at_ (Reg.seqPartMask 0) 4 16, at_ (Reg.evqCfg 0) 0x20 16, at_ (Reg.evqBaseLo 0) 0x20 16, at_ (Reg.evqBaseHi 0) 0x20 16,
    (at_ (Reg.weirShare 0 0) 4 112).map (· % 16), at_ (Reg.cnvSrSeedLo 0) 8 16, at_ (Reg.cnvSrSeedHi 0) 8 16, at_ (Reg.cnvFtz 0) 4 16,
    ring (Reg.ringCfg 0), ring (Reg.ringBaseLo 0), ring (Reg.ringBaseHi 0), ring (Reg.cqBaseLo 0), ring (Reg.cqBaseHi 0),
    (at_ (Reg.mbCfg 0) 0x10 64).map s.mbPart].findSome? id

/-! ## Registers whose writes do more than store -/

/-- HST_CTRL (R491, R502). -/
def State.hstCtrlWrite (s : State) (v : Nat) : State :=
  let s := (s.setRbit 0 Reg.hstCtrl 0 (bit v 0)).setRbit 0 Reg.hstCtrl 1 (bit v 1)
  if bit v 2 then { s.biasStart with hst := { s.biasStart.hst with biasOff := false } } else if s.rbit 0 Reg.hstCtrl 2 then s.biasStop else s

/-- FL_CTRL: the port of a die is held in reset while ENABLE is 0 (Table 08-6), and a write of 1 lets go of the drive (Table 17-2). -/
def State.flCtrlWrite (s : State) (d v : Nat) : State :=
  let was := s.rbit d Reg.flCtrl 0
  let s := s.setRegN d Reg.flCtrl (v % 2)
  if bit v 0 then s.emit (.pin "FL_DRV_RST_N" d true) else if was then s.flashGone d else s

/-- A word of the write-only registers of a die acts; none for a register that is not write-only. -/
def State.wroteOnly (s : State) (d off v : Nat) : Option State :=
  if off = Reg.seqActPeakClr then some (s.peakClear d v)
  else if off = Reg.rasLogClr then some (s.rasLogClear d v)
  else if off = Reg.grdLostClr then some (s.lostClear d v)
  else if off = Reg.rasFence then some (if v % 256 ≤ 0x0F then s.fence d (v % 256) 9 else s)
  else if off = Reg.rasReturn then some (s.giveBack d (v % 256))
  else if off = Reg.rasDeclareHi then some (s.declare v)
  else if off = Reg.d2dCmd then some (s.d2dCmdWrite d v)
  else if off = Reg.ethCmd then
    let s := if bit v 0 then s.retrainPort d else s
    some (if bit v 1 then s.widenStart d else s)
  else if off = Reg.hstBiasCmd then some (if v % 4 = 1 then s.biasCmd false else if v % 4 = 2 then s.biasCmd true else s)
  else if !(clearedBy off v).isEmpty then some (s.clearCounters d off v 0)
  else none

/-- Stores a value that has passed every check; the shared operation of the register's own rule does the rest. -/
def State.regStore (s : State) (d off v : Nat) : State :=
  let plain := s.setRegN d off v
  if off = Reg.hstCtrl then s.hstCtrlWrite v
  else if off = Reg.clkCtrl then s.modeWrite (bit v 0)
  else if off = Reg.pwrCap then plain.capUpdate
  else if off = Reg.flCtrl then s.flCtrlWrite d v
  else if off = Reg.whlCtrl then (if s.rbit d Reg.whlCtrl 0 && !bit v 0 then plain.wheelOff d else plain)
  else if off = Reg.cmtCtrl then (if s.rbit d Reg.cmtCtrl 0 && !bit v 0 then plain.cmtOff d else plain)
  else if off = Reg.xtCtrl then (if s.xtOn d && !bit v 0 then plain.xtOff d else plain)
  else if off = Reg.weirCtrl then s.weirCtrlWrite d v
  else match rowAt off (Reg.ringCfg 0) 0x40 32, rowAt off (Reg.evqCfg 0) 0x20 16, rowAt off (Reg.seqPartCfg 0) 4 16 with
    | some i, _, _ => s.ringCfgWrite (32 * d + i) v
    | _, some p, _ => s.evqCfgWrite p v
    | _, _, some p => s.partCfgWrite d p v
    | _, _, _ =>
      match rowAt off (Reg.seqPartMask 0) 4 16, rowAt off (Reg.seqSrvCtrl 0) 0x20 16, rowAt off (Reg.seqActFirst 0) 4 16, rowAt off (Reg.seqActLast 0) 4 16 with
      | some p, _, _, _ => s.partMaskWrite d p v
      | _, some p, _, _ => s.srvCtrlWrite p v
      | _, _, some p, _ => { plain with actStale := addNew (d, p) plain.actStale }
      | _, _, _, some p => { plain with actStale := addNew (d, p) plain.actStale }
      | _, _, _, _ => plain

/-! ## Guard-owned fields (R559) -/

/-- The guard sets an RWG register of a die, and keeps the value (R559). -/
def State.guardSet (s : State) (d off v : Nat) : State :=
  let v := s.part.regFix d off v
  let s := s.setRegN d off v
  let s := { s with grd := { s.grd with rwg := kvPut s.grd.rwg (regKey d off) (BitVec.ofNat 32 v) } }
  if off = Reg.pwrCapSb || off = Reg.pwrCapCeil then s.capUpdate else s

/-- The guard sets CLK_LIMIT on every die (R531, R562). -/
def State.guardLimit (s : State) (fmin fmax : Nat) : State :=
  (s.eachDie fun s d => s.guardSet d Reg.clkLimit (fmin + 16 * fmax)).limitWrite fmin fmax

/-- Whether a CLK_LIMIT value is one that a write stores (Table 16-9). -/
def limitOk (fmin fmax : Nat) : Bool := decide (fmin ≤ 13) && decide (fmax ≤ 13) && decide (fmin ≤ fmax)

/-! ## One write -/

/-- A write to the MSI-X table or the CXL component registers of the physical function in die 0's window (R486, R501). -/
def State.hostWrite (s : State) (off v : Nat) : Option State :=
  match rowAt off 0x188000 4 1344 with
  | some i => some (({ s with hst := { s.hst with msix := kvPut s.hst.msix i v } }).sendPending 0)
  | none =>
    if (0x181000 ≤ off && off < 0x182000) || (0x18E000 ≤ off && off < 0x190000) then
      some { s with hst := { s.hst with cxlRegs := kvSet 0 s.hst.cxlRegs (off - 0x180000) v } }
    else none

/-- A write of a virtual function through its BAR0 (R485): its own mailboxes and its MSI-X table. -/
def State.vfWrite (s : State) (n off v : Nat) : State :=
  if !s.fnOn n then s
  else match rowAt off 4 0x10 64, rowAt off 0x1000 4 1344, rowAt off 0x8000 4 8192 with
    | some m, _, _ => s.mbBell m (v % 65536) (.vf n)
    | _, some i, _ => ({ s with hst := { s.hst with msix := kvPut s.hst.msix (2048 * n + i) v } }).sendPending n
    | _, _, some i => if s.mbReaches (i / 128) (.vf n) && !s.mbBusy (i / 128) then s.setRegN 0 (Reg.mbData (i / 128) (i % 128)) v else s
    | _, _, _ => s

/-- Whether a master reaches the registers: the physical function, the guards, and JTAG while an unlock is in force (R569, R616). -/
def State.regReach (s : State) (m : Master) : Bool := m == .pf || m == .guard || (m == .jtag && s.rbit 0 Reg.grdStatus 1)

/-- A write to a register by the physical function, a guard or JTAG (R559, R560, R500, R610 to R618). -/
def State.sysWrite (s : State) (m : Master) (d off v : Nat) : State :=
  if s.part.dies ≤ d || s.regInReset d off || regElsewhere d off then s
  else
    match (if d = 0 then s.hostWrite off v else none), s.wroteOnly d off v, rowAt off (Reg.mbBell 0) 0x10 64, regDesc off with
    | some t, _, _, _ => t
    | _, some t, _, _ => t
    | _, _, some b, _ => s.mbBell b (v % 65536) m
    | _, _, _, none => s
    | _, _, _, some r =>
      let old := s.regN d off
      if r.rwg ≠ 0 then
        if m ≠ .guard then s.lostWrite d off 0 v m .guard
        else if off = Reg.clkLimit then (if limitOk (fld v 0 4) (fld v 4 4) then s.guardLimit (fld v 0 4) (fld v 4 4) else s)
        else s.guardSet d off (Nat.land v r.rwg)
      else if r.w1c ≠ 0 then s.clearBits d off v 0
      else if r.rw = 0 then s
      else
        let locked := match s.regTdi d off with | some p => if s.tdiLocked p then some p else none | none => none
        if m = .pf && locked.isSome then s.lockedWrite (locked.getD 0)
        else if s.regLocked d off then s
        else
          let new := s.part.regFix d off (Nat.land v r.rw + (old - Nat.land old r.rw))
          let t := s.regStore d off new
          match locked with
          | some p => if m = .guard then t.setTdi (p + 1) 3 else t
          | none => t

/-- One write from any master; descriptors and hardware never reach registers (R31, R616). A write whose byte enables do not cover
the register is discarded (R610). -/
def State.regWrite1 (s : State) (w : RegWrite) : State :=
  if w.be ≠ 0xF then s
  else
    match w.master with
    | .vf n => s.vfWrite n (w.off / 4 * 4) w.value.toNat
    | m => if s.regReach m then s.sysWrite m w.die (w.off / 4 * 4) w.value.toNat else s

/-! ## Two writes in one cycle (R582) -/

/-- The fields of a register as low bit and width; a register of one field is one of 32 bits. -/
def regFields (off : Nat) : List (Nat × Nat) :=
  let is := fun (base stride n : Nat) => (rowAt off base stride n).isSome
  if off = Reg.clkLimit then [(0, 4), (4, 4)]
  else if off = Reg.pwrCtrl || off = Reg.cnvCtrl then [(0, 1), (1, 1)]
  else if off = Reg.thermLimits then [(0, 8), (8, 8)]
  else if off = Reg.fanCtrl then [(0, 1), (8, 8), (16, 8), (24, 8)]
  else if is (Reg.meCtrl 0) 0x10000 4 || off = Reg.xtCtrl || off = Reg.hstCtrl then [(0, 1), (1, 1), (2, 1)]
  else if off = Reg.ethCtrl then [(0, 1), (1, 1), (2, 2), (4, 1), (5, 1)]
  else if is (Reg.ethWm 0) 4 8 then [(0, 12), (16, 12)]
  else if off = Reg.ethSecCtrl then [(0, 1), (1, 4), (8, 24)]
  else if off = Reg.flVol then [(0, 8), (8, 4)]
  else if is (Reg.seqPartCfg 0) 4 16 then [(0, 1), (1, 16)]
  else if is (Reg.seqSrvCtrl 0) 0x20 16 then [(0, 1), (1, 3), (4, 5)]
  else if is (Reg.seqSrvLimits 0) 0x20 16 then [(0, 15), (16, 11)]
  else if is (Reg.ringCfg 0) 0x40 32 then [(0, 1), (1, 1), (2, 4), (6, 4), (10, 2), (12, 5), (17, 5)]
  else if is (Reg.evqCfg 0) 0x20 16 then [(0, 1), (1, 5)]
  else if is (Reg.mbCfg 0) 0x10 64 then [(0, 1), (1, 4), (5, 1)]
  else if off = Reg.weirCtrl then [(0, 7), (8, 8)]
  else if is (Reg.weirShare 0 0) 4 112 then [(0, 8), (8, 8)]
  else if off = Reg.cmtCtrl || off = Reg.whlCtrl then [(0, 1), (1, 3)]
  else if is (Reg.cnvFtz 0) 4 16 then [(0, 1), (1, 1), (2, 1), (3, 1), (4, 1)]
  else if off = Reg.rasCtrl then [(0, 1), (1, 1), (8, 8)]
  else if off = Reg.rasScrubRate then [(0, 16), (16, 16)]
  else if is (Reg.hstPeerId 0) 8 16 then [(0, 16), (16, 4), (31, 1)]
  else if off = Reg.genDiscCtrl then [(0, 1), (4, 12)]
  else [(0, 32)]

/-- The fields that enable a unit, bit by bit: those named ENABLE or EN (row 3 of Table 18-8). -/
def enableField (off lo : Nat) : Bool :=
  let is := fun (base stride n : Nat) => (rowAt off base stride n).isSome
  let first := [Reg.pwrCtrl, Reg.fanCtrl, Reg.ethCtrl, Reg.flCtrl, Reg.tokCtrl, Reg.cnvCtrl, Reg.xtCtrl, Reg.weirCtrl, Reg.cmtCtrl, Reg.whlCtrl, Reg.rasCtrl, Reg.trbCtrl].contains off
  (lo == 0 && (first || is (Reg.veCtrl 0) 0x10000 2 || is (Reg.seqPartCfg 0) 4 16 || is (Reg.seqSrvCtrl 0) 0x20 16 || is (Reg.ringCfg 0) 0x40 32 ||
    is (Reg.evqCfg 0) 0x20 16 || is (Reg.mbCfg 0) 0x10 64)) ||
  is (Reg.meCtrl 0) 0x10000 4 || off == Reg.hstCtrl || (off == Reg.ethCtrl && (lo == 1 || lo == 4)) || (off == Reg.xtCtrl) || (off == Reg.cnvCtrl && lo == 1)

/-- What two writes leave in one field: the value, and the reason for which each lost, 0 for none. Row 1 of Table 18-8 is
State.afterFence: no write comes from the hardware. -/
def fieldMerge (off lo : Nat) (ma mb : Master) (a b : Nat) : Nat × Nat × Nat :=
  if a = b then (a, 0, 0)
  else if ma = .guard then (a, 0, 2)
  else if mb = .guard then (b, 2, 0)
  else if enableField off lo then
    let both := Nat.land a b
    (both, if a = both then 0 else 3, if b = both then 0 else 3)
  else if off = Reg.pwrCap then (if a < b then (a, 0, 4) else (b, 4, 0))
  else
    let (first, reason) := precede ma mb
    if first then (a, 0, reason) else (b, reason, 0)

/-- The lower of two reasons, 0 standing for none. -/
def lowReason (x y : Nat) : Nat := if x = 0 then y else if y = 0 then x else Nat.min x y

/-- What two writes leave in a register, and the first row that decided against each. -/
def regMerge (off : Nat) (ma mb : Master) (a b : Nat) : Nat × Nat × Nat :=
  (regFields off).foldl (fun x f =>
    let (v, ra, rb) := fieldMerge off f.1 ma mb (fld a f.1 f.2) (fld b f.1 f.2)
    (setFld x.1 f.1 f.2 v, lowReason x.2.1 ra, lowReason x.2.2 rb)) (0, 0, 0)

/-- Where a write goes, as a die and an offset in its window; a virtual function's MB_DATA and MB_BELL lie in die 0. -/
def regTarget (w : RegWrite) : Nat × Nat :=
  let off := w.off / 4 * 4
  if isVf w.master then
    match rowAt off 0x8000 4 8192, rowAt off 4 0x10 64 with
    | some i, _ => (0, Reg.mbData (i / 128) (i % 128))
    | _, some m => (0, Reg.mbBell m)
    | _, _ => (0, 0)
  else (w.die, off)

/-- Whether a write would reach an RW or RWG field if it came alone: only such writes contradict each other. -/
def State.contends (s : State) (w : RegWrite) : Bool :=
  let (d, off) := regTarget w
  let who := match w.master with
    | .vf n => s.fnOn n && match rowAt off (Reg.mbData 0 0) 4 8192 with | some i => s.mbReaches (i / 128) w.master | none => false
    | m => s.regReach m
  w.be == 0xF && who && decide (d < s.part.dies) && match regDesc off with
    | some r => r.rw != 0 || (r.rwg != 0 && w.master == Master.guard)
    | none => false

/-- The mailbox whose bell a write rings, if it reaches one. -/
def State.bellOf (s : State) (w : RegWrite) : Option Nat :=
  match rowAt (regTarget w).2 (Reg.mbBell 0) 0x10 64 with
  | some m => if w.be == 0xF && (regTarget w).1 == 0 && (isVf w.master || s.regReach w.master) && s.mbReaches m w.master then some m else none
  | none => none

/-- Two bells to one mailbox: the winner's is taken, the loser's is discarded, sets REJECTED and is logged (R441, R582, R583). -/
def State.twoBells (s : State) (m : Nat) (a b : RegWrite) : State :=
  let (first, reason) := precede a.master b.master
  let (w, l) := if first then (a, b) else (b, a)
  let s := s.mbBell m (w.value.toNat % 65536) w.master
  (s.setRbit 0 (Reg.mbState m) 17 true).lostWrite 0 (Reg.mbBell m) reason l.value.toNat l.master w.master

/-- Two writes that meet: merged field by field when both are to one register, else one after the other (R582, R583). -/
def State.regWrite2 (s : State) (a b : RegWrite) : State :=
  let off := (regTarget a).2
  if regTarget a ≠ regTarget b || a.master = b.master then (s.regWrite1 a).regWrite1 b
  else if (s.bellOf a).isSome && (s.bellOf b).isSome && a.value.toNat % 65536 ≠ b.value.toNat % 65536 then s.twoBells ((s.bellOf a).getD 0) a b
  else if s.contends a && s.contends b then
    let (v, ra, rb) := regMerge off a.master b.master a.value.toNat b.value.toNat
    let w := if b.master = .guard then b else a
    let s := s.regWrite1 { w with value := BitVec.ofNat 32 v }
    let s := if ra = 0 then s else s.lostWrite (regTarget a).1 off ra a.value.toNat a.master b.master
    if rb = 0 then s else s.lostWrite (regTarget b).1 off rb b.value.toNat b.master a.master
  else (s.regWrite1 a).regWrite1 b

/-- REGISTER_WRITE (R613, R582). -/
def execRegisterWrite (w : RegWrite) (rival : Option RegWrite) (s : State) : Res :=
  live s (match rival with | none => s.regWrite1 w | some r => s.regWrite2 w r)

/-! ## A fence and a write in one cycle (R130, R229, row 1 of Table 18-8) -/

/-- The engines of a die that a fence has just taken out of service. -/
def newlyOut (s t : State) (d : Nat) : List Nat := (List.range 6).filter fun u => !s.unitOut d u && t.unitOut d u

/-- The control register of an engine (RAS_UNIT number). -/
def engineCtrl (u : Nat) : Nat := if u < 4 then Reg.meCtrl u else Reg.veCtrl (u - 4)

/-- Takes a write of the cycle in which a fence led from `s` to `t`: one that sets ENABLE of an engine fenced now loses that
field to the hardware and is reported; any other is taken. -/
def State.afterFence (s t : State) (d : Nat) (w : RegWrite) : State :=
  let (e, off) := regTarget w
  if e = d && s.contends w && bit w.value.toNat 0 && (newlyOut s t d).any (fun u => engineCtrl u == off) then
    let v := setBit w.value.toNat 0 (s.rbit d off 0)
    (t.regWrite1 { w with value := BitVec.ofNat 32 v }).lostWrite d off 1 w.value.toNat w.master .hardware
  else t.regWrite1 w

/-- Fences a unit where `hit` says so, in the cycle of a write if there is one. -/
def State.fenceMeeting (s : State) (hit : Bool) (d u cause : Nat) (rival : Option RegWrite) : State :=
  let t := if hit then s.fence d u cause else s
  match rival with | none => t | some w => s.afterFence t d w

/-- UNIT_FENCE: a unit fails a check of Table 19-2 (R592). -/
def execUnitFence (x : FenceAt) (unit cause : Nat) (s : State) : Res :=
  onDie s x.d (s.fenceMeeting ((unitCauses unit).contains cause) x.d unit cause x.rival)

/-- PROGRESS_WATCHDOG: an engine or tributary that holds a descriptor made no progress for 10 ms (R592, Table 19-2). -/
def execProgressWatchdog (x : FenceAt) (unit : Nat) (s : State) : Res :=
  let hit := unit < 9 && s.seq.works.any fun w => w.on == x.d && w.engine == some unit && !w.ended
  onDie s x.d (s.fenceMeeting hit x.d unit 3 x.rival)

/-- RAS_FENCE (R592, R607). -/
def execRasFence (x : FenceAt) (value : W32) (s : State) : Res :=
  onDie s x.d (s.fenceMeeting true x.d (value.toNat % 256) 9 x.rival)

end Sys2Proof.Machine
end

