-- ==== Sys2Proof/Machine/Reset.lean ====
section
/-! DEFINITION. Resets (R533 to R541): which state each source reaches, what survives, and the end of a reset. -/

namespace Sys2Proof.Machine

/-! ## What a reset of a die reaches -/

/-- What a warm reset leaves of the registers: those of RG0 and RG1, HBM_CTRL (R236), and what the always-on island keeps of the RAS
block: the repair map (R595), fences (R602) and DEGRADED (R604). -/
def warmKeeps (off : Nat) : Bool :=
  lowReg off || [Reg.hbmCtrl, Reg.rasStatus].contains off || (rowAt off (Reg.rasUnit 0) 4 16).isSome ||
    (rowAt off (Reg.rasTsSpares 0) 4 4).isSome || (rowAt off (Reg.rasTsFenced 0) 4 64).isSome

/-- What power-on and cold reset leave: fuses alone (R567). -/
def coldKeeps (off : Nat) : Bool := off == Reg.grdFuseSvn

/-- Returns the registers and counters of a die to their reset values, but those that a test keeps. -/
def State.dropRegs (s : State) (d : Nat) (keep : Nat → Bool) : State :=
  let stays := fun (k : Nat) => decide (k / 2 ^ 24 ≠ d) || keep (k % 2 ^ 24)
  { s with regs := s.regs.filter (fun x => stays x.1), ctrs := s.ctrs.filter fun x => stays x.1 }

/-- The RAS block of a die after a warm reset: a permanent unit stays permanent, another that was out of service runs its self-test
unless it is a link, a port or the die itself (R602, R603), and of RAS_STATUS only DEGRADED stays (R604). -/
def State.rasAfterWarm (s : State) (d : Nat) : State :=
  let s := s.setRegN d Reg.rasStatus (s.regN d Reg.rasStatus % 2)
  (List.range 16).foldl (fun s u =>
    let v := s.regN d (Reg.rasUnit u)
    let noTest := (9 ≤ u && u ≤ 0x0C) || u = 0x0F
    let st := if fld v 0 2 = 3 then 3 else if fld v 0 2 = 0 || noTest then 0 else 2
    if v = 0 then s else (s.setRegN d (Reg.rasUnit u) (st + 4 * fld v 2 4)).fencedBit d u (st != 0)) s

/-- What runs on a die and what its units hold is gone; MACsec keys stay with the guard (R579). No record is written. -/
def State.clearDie (s : State) (d : Nat) : State :=
  let mine := fun (r : Nat) => ringDie r == d
  let seq := { s.seq with works := s.seq.works.filter (fun w => w.on != d && !mine w.ring), fetched := s.seq.fetched.filter (fun x => !mine x.ring), cqArm := s.seq.cqArm.filter (fun r => !mine r), lastRing := kvErase s.seq.lastRing d, switchTo := s.seq.switchTo.filter fun x => x.1 / 16 != d }
  let s := { s with seq := seq, lists := s.lists.filter (fun l => !mine l.ring), refetch := s.refetch.filter (fun x => x.d != d), drives := s.drives.filter (fun x => x.d != d), xfers := s.xfers.filter (fun x => x.d != d), kept := s.kept.filter (fun x => x.d != d), actStale := s.actStale.filter (fun x => x.1 != d), actSum := s.actSum.filter fun x => x.1 / 16 != d }
  let s := { s with engs := s.engs.filter (fun x => x.d != d), ves := s.ves.filter (fun x => x.d != d), folds := s.folds.filter (fun x => x.die != d), aq := s.aq.filter (fun x => x.d != d), batches := s.batches.filter (fun x => x.d != d), cnvLast := kvErase s.cnvLast d }
  let s := { s with eths := s.eths.map (fun (e : Eth) => if e.d == d then { Eth.idle d with sas := e.sas } else e), wires := s.wires.filter (fun l => l.d != d), buckets := s.buckets.filter (fun b => b.d != d), lastGrant := s.lastGrant.filter fun x => x.1 / 32 != d }
  let gone : List Nat := (s.ctxsOf d).map fun (x : Ctx) => x.c
  let s := { s with xt := { s.xt with conns := s.xt.conns.filter (fun x => !gone.contains x.c), ctxs := s.xt.ctxs.filter (fun x => x.d != d), misses := s.xt.misses.filter (fun x => x.d != d), fetching := s.xt.fetching.filter fun x => x.1 != d } }
  let s := { s with whl := { s.whl with colls := s.whl.colls.filter (fun c => c.d != d), early := s.whl.early.filter fun x => x.1 != d } }
  let p := s.pwr
  let s := { s with pwr := { p with cals := p.cals.filter (fun c => c.d != d), fixed := kvErase p.fixed d, shares := p.shares.filter (fun x => x.1 / 4 != d), reached := without d p.reached, vid := kvErase p.vid d, warn := p.warn.filter (fun x => x / 2 != d), droops := kvErase p.droops d, active := p.active.filter (fun x => x.1 != d), hot := kvErase p.hot d, cooling := without d p.cooling, level := kvErase p.level d } }
  let r := s.ras
  { s with ras := { r with passed := r.passed.filter (fun x => x.1 != d), owe := without d r.owe, scrub := r.scrub.filter (fun x => x.1 / 2 != d), rowErrs := r.rowErrs.filter (fun x => x.1 / 65536 != d), badRows := r.badRows.filter (fun x => x / 65536 != d), searches := r.searches.filter (fun x => x.1 != d), fails := r.fails.filter fun x => x.1 / 4 != d } }

/-- A reset of RG19: the link goes down, and the configuration state of every function, the MSI-X structures, the CXL component
registers and the IDE keys are lost (R533, R539, R578). -/
def State.hostReset (s : State) : State :=
  let s := s.hostDown
  { s with hst := { s.hst with msix := [], pba := [], cfg := [], cxlRegs := [], tdi := [], ide := [], training := false } }

/-- What die 0 holds for the package: commit groups and domains, serving streams, mailboxes, the bias command, the torus and the
discovery that runs, the state of the regulator and clock, and the mesh changes waiting. -/
def State.clearPackage (s : State) : State :=
  let s := { s with groups := [], doms := [], srvs := [], mbSeq := [], torus := ⟨[], [], [], 0⟩, disc := Disc.reset, seq := { s.seq with evqArm := [], evLost := [] } }
  let s := { s with ras := { s.ras with views := [] }, hst := { s.hst with flip := none, biasOff := false } }
  let s := { s with pwr := { s.pwr with brakes := (0, 0, 0), freqTo := none, freqWant := none, switched := false, holdAt := none } }
  s.hostReset

/-- Releases what a cold reset releases beyond the dies: the guard's state but the boot flash, the measurement log, MACsec keys,
latched DEGRADED resources, and the outputs ALERT_N and FAULT_N (Table 17-2). -/
def State.coldPackage (s : State) : State :=
  let s := { s with grd := { Grd.reset with slots := s.grd.slots, sticky := s.grd.sticky }, measLog := MeasLog.reset, measuring := [], ras := { s.ras with degraded := [] } }
  let s := { s with eths := s.eths.map fun (e : Eth) => { e with sas := [] } }
  let s := if s.tripped || s.stage_ == 0xF then s.emit (.pin "FAULT_N" 0 true) else s
  { s with tripped := false }

/-- Resets a die: RG2 to RG19, and with `cold` RG1 and the registers of RG0 too. Its HBM keeps its contents through a warm reset
that leaves the split mode as it is (R236, R535). -/
def State.resetDie (s : State) (d : Nat) (cold : Bool) : State :=
  let split := s.rbit d Reg.hbmCtrl 0 != s.rbit d Reg.hbmStatus 2
  let s := s.clearDie d
  let s := if d = 0 then s.clearPackage else s
  let s := if cold then s.dropRegs d coldKeeps else (s.dropRegs d warmKeeps).rasAfterWarm d
  let s := s.wipe (tsBase + tsStride * d) tsSize
  if cold || split then s.wipe (hbmSize * d) hbmSize else s

/-! ## Resets in progress (R534) -/

/-- The mark of a die in reset, widened when a wider reset merges into it. -/
def markDie (l : List (Nat × Bool)) (d : Nat) (cold : Bool) : List (Nat × Bool) :=
  if l.any fun x => x.1 == d then mapIf (fun x => x.1 == d) (fun x => (d, x.2 || cold)) l else l ++ [(d, cold)]

/-- Starts a reset of some dies by a source of GEN_RST_CAUSE, or widens the one in progress. What their flash ports have outstanding
is abandoned first, and their drives are held in reset (R541, Table 17-2). -/
def State.startReset (s : State) (ds : List Nat) (cold : Bool) (cause : Nat) : State :=
  let s := ds.foldl (fun s d => if s.rbit d Reg.flCtrl 0 then (s.abandonPort d).emit (.pin "FL_DRV_RST_N" d false) else s.abandonPort d) s
  let s := ds.foldl (fun s d => s.resetDie d cold) s
  let dies := ds.foldl (fun l d => markDie l d cold) s.rst.dies
  let causes := ds.foldl (fun l d => kvPut l d (setBit (kvGet 0 l d) cause true)) s.rst.causes
  { s with rst := { s.rst with dies := dies, causes := causes } }

/-- Power-on or a cold reset: after a thermal trip AFTER_TRIP joins the causes, and the straps are sampled (R538). -/
def State.coldStart (s : State) (cause : Nat) (straps : W32) : State :=
  let ds := List.range s.part.dies
  let was := s.tripped
  let s := s.coldPackage.startReset ds true cause
  let s := if was then { s with rst := { s.rst with causes := s.rst.causes.map fun x => (x.1, setBit x.2 6 true) } } else s
  ds.foldl (fun s d => s.setRegN d Reg.genStraps (straps.toNat % 65536)) s

/-- POWER_ON: PWRGOOD rises with the supplies in range (R533). -/
def execPowerOn (straps : W32) (s : State) : Res :=
  let s := s.coldStart 0 straps
  .next { s with rst := { s.rst with off := false } }

/-- The units that a piece of a running WRITE, ZERO or TRIM may have changed. -/
def State.unitsOnDrive (s : State) : List (Nat × Nat) :=
  s.xfers.flatMap fun x => if fopWrites x.fop then x.pieces.flatMap fun p => (List.range p.units).map fun i => (p.port, p.lba + i) else []

/-- The supplies collapse: a unit written and not yet durable, or being written, may hold what it held before, what was being
written or a torn block, so its contents are undefined; all that FUA or a FLUSH made durable stays (R247, R403, Table 12-8). -/
def State.flashLost (s : State) : State :=
  let us := s.unitsOnDrive ++ s.dirty.map fun k => (k / 2 ^ 48, k % 2 ^ 48)
  let s := us.foldl (fun s u => s.blurUnit u.1 u.2) s
  { s with dirty := [] }

/-- PWRGOOD_FALL: power-on reset, which no source lets go before PWRGOOD rises (R637). -/
def execPwrgoodFall (s : State) : Res :=
  let s := s.flashLost.coldPackage.startReset (List.range s.part.dies) true 0
  .next { s with rst := { s.rst with off := true } }

/-- COLD_RESET: by the pin or a request (R533). -/
def execColdReset (pin : Bool) (straps : W32) (s : State) : Res :=
  .next (if s.rst.off then s else s.coldStart (if pin then 1 else 2) straps)

/-- WARM_RESET: by the pin or a request (R533). A stopped package leaves a trip only by power-on or cold reset. -/
def execWarmReset (pin : Bool) (s : State) : Res :=
  live s (if s.rst.off then s else s.startReset (List.range s.part.dies) false (if pin then 3 else 4))

/-- A warm reset of one die. While die 0 stays, the peer of the die's torus link is told that the link goes down (R599). A fenced die 0
stays fenced: it returns only by a reset of the package (R602, R654). -/
def State.warmDie (s : State) (d : Nat) : State :=
  if s.rst.off then s
  else
    let (out, unit, declared) := (s.dieOut 0, s.regN 0 (Reg.rasUnit 0x0F), s.rbit 0 Reg.rasStatus 3)
    let s := if d ≠ 0 && d < s.part.torusPorts && s.portUp d && !s.inReset 0 then s.torusDown d else s
    let s := s.startReset [d] false 5
    if d ≠ 0 then s.meshNote else if out then (s.setRegN 0 (Reg.rasUnit 0x0F) unit).setRbit 0 Reg.rasStatus 3 declared else s

/-- DIE_WARM_RESET (R533). -/
def execDieWarmReset (d : Nat) (s : State) : Res := onIsland s d (if s.tripped then s else s.warmDie d)

/-- HOST_FUNDAMENTAL_RESET: RG19 of die 0 and the configuration state of every function (R533). -/
def execHostFundamentalReset (s : State) : Res :=
  live s { s.hostReset with rst := { s.rst with host := true } }

/-- FLR_PF: the configuration, MSI-X and SR-IOV state of every function (R533). -/
def execFlrPf (s : State) : Res := onDie s 0 { s with hst := { s.hst with msix := [], pba := [], cfg := [] } }

/-- GUARD_RESTART: RG1 of one die. The guard of die 0 discards the requests that it has not answered, and a mailbox's is answered
with REFUSAL 0x05 (R564); sessions, an update in progress and an unused nonce are lost with it. -/
def execGuardRestart (d : Nat) (s : State) : Res :=
  onIsland s d (
    if s.inReset d then s
    else
      let keep := fun (off : Nat) => off < 0x10000 || 0x20000 ≤ off || [Reg.grdStatus, Reg.grdFuseSvn, Reg.grdId, Reg.grdMeasCount].contains off
      let s := s.dropRegs d keep
      if d ≠ 0 then s
      else
        let s := s.setRegN 0 Reg.grdStatus (Nat.land (s.regN 0 Reg.grdStatus) 0x3B)
        let s := { s with grd := { s.grd with upd := none, nonce := none, resetReq := none, spdm := [], sess := [] } }
        s.mbSeq.foldl (fun s x =>
          let b := s.mbBytes x.1
          s.mbGuardAnswer x.1 ((b.drop 16).take 2 ++ natLe 1 5 ++ natLe 1 0 ++ (b.drop 20).take 4)) s)

/-- TEST_RESET: the test logic of domain 3 holds nothing of this model (R533). -/
def execTestReset (s : State) : Res := .next s

/-- The guard writes its fields again on a die whose RG2 leaves reset (R559). -/
def State.guardAgain (s : State) (d : Nat) : State :=
  let s := (s.grd.rwg.filter fun x => x.1 / 2 ^ 24 == d).foldl (fun s x => { s with regs := kvPut s.regs x.1 x.2 }) s
  if d = 0 then s.capUpdate else s

/-- One die leaves reset: its causes, the count of warm resets, and the guard's fields (R534, R558, R559). -/
def State.releaseDie (s : State) (d : Nat) : State :=
  let c := kvGet 0 s.rst.causes d
  let s := s.setRegN d Reg.genRstCause c
  let s := if c % 8 = 0 && c ≠ 0 then s.setRegN d Reg.genWarmCount (Nat.min 0xFFFF (s.regN d Reg.genWarmCount + 1)) else s
  s.guardAgain d

/-- RESET_END: 10 µs after the last source has let go (R534). -/
def execResetEnd (s : State) : Res :=
  .next (
    if s.rst.off then s
    else
      let s := s.rst.dies.foldl (fun s x => s.releaseDie x.1) s
      { s with rst := ⟨[], [], false, false⟩ })

/-! ## Function level reset of a virtual function (R536) -/

/-- Whether a descriptor would still send a request to host memory, for its data or for its record. -/
def State.usesHost (s : State) (w : Work) : Bool :=
  decide (hostBase ≤ s.regAddr (ringDie w.ring) (Reg.cqBaseLo (ringNo w.ring))) || (!w.ended && (s.workRanges w).any fun r => decide (hostBase ≤ r.a))

/-- A descriptor ends at once with no record: it keeps its place in its ring's accounting until the ring is enabled again. -/
def State.endMute (s : State) (id : Nat) : State :=
  let s := { s with xfers := s.xfers.filter (fun x => x.id != id), whl := { s.whl with colls := s.whl.colls.filter fun c => c.id != id }, lists := s.lists.filter fun l => l.id != id }
  let s := { s with engs := s.engs.map fun (x : Eng) => x.without [id] }
  s.modWork id fun w => { w with bytes := [], started := true, ended := false, engine := none, held := [] }

/-- FLR_VF: the partition, its rings, event queue and mailboxes are disabled on every die, and what needs the host ends (R536). -/
def execFlrVf (fn : Nat) (s : State) : Res :=
  onDie s 0 (
    if fn = 0 || s.part.parts < fn then s
    else
      let p := fn - 1
      let s := s.eachDie fun s d => if s.rbit d (Reg.seqPartCfg p) 0 then s.partCfgWrite d p (setBit (s.regN d (Reg.seqPartCfg p)) 0 false) else s
      let s := ((List.range s.part.rings).filter fun r => s.ringOn r && s.ringPart r == p).foldl State.ringStop s
      let s := s.setRbit 0 (Reg.evqCfg p) 0 false
      let s := ((List.range 64).filter fun m => s.mbPart m == p).foldl (fun s m => s.setRbit 0 (Reg.mbCfg m) 0 false) s
      let s := ((s.seq.works.filter fun w => w.part == p && s.usesHost w).map fun w => w.id).foldl State.endMute s
      let own := fun (k n : Nat) => k / n == fn
      { s with hst := { s.hst with msix := s.hst.msix.filter (fun x => !own x.1 2048), pba := s.hst.pba.filter (fun x => !own x.1 512), cfg := s.hst.cfg.filter fun x => !own x.1 4096 } })

end Sys2Proof.Machine
end

