-- ==== Sys2Proof/Machine/Boot.lean ====
section
/-! DEFINITION. Bring-up and discovery (R542 to R558), and the end of training of HBM stacks, drives and ports (R236 to R241, R546). -/

namespace Sys2Proof.Machine

/-- Sets a register of Table 17-4 alike on every die (R558). -/
def State.setGen (s : State) (off v : Nat) : State := s.eachDie fun s d => s.setRegN d off v

/-- Sets GEN_BOOT.STAGE. -/
def State.setStage (s : State) (v : Nat) : State := s.setGen Reg.genBoot (setFld (s.regN 0 Reg.genBoot) 0 4 v)

/-- Bring-up fails: STAGE FAILED with a cause in FAIL. -/
def State.bootFail (s : State) (why : Nat) : State := s.setGen Reg.genBoot (setFld (setFld (s.regN 0 Reg.genBoot) 0 4 0xF) 5 3 why)

/-! ## The guards boot (R542) -/

/-- Whether a slot of the boot flash holds a whole manifest. -/
def State.slotValid (s : State) (k : Nat) : Bool := match kvFind s.grd.slots k with | some b => b.valid | none => Config.factoryValid k

/-- The sequence number of a slot's manifest. -/
def State.slotSeq (s : State) (k : Nat) : Nat := match kvFind s.grd.slots k with | some b => b.seq | none => Config.factorySeq k

/-- The SVN of a slot's manifest. -/
def State.slotSvn (s : State) (k : Nat) : Nat := match kvFind s.grd.slots k with | some b => b.svn | none => Config.factorySvn k

/-- The digest of a slot's image. -/
def State.slotDigest (s : State) (k : Nat) : List Byte := match kvFind s.grd.slots k with | some b => sha384 b.image | none => Config.factoryDigest k

/-- The slot that the ROM boots: the valid one with the higher sequence number if its image passes, else the other (R542). -/
def State.bootSlot (s : State) (okA okB : Bool) : Option Nat :=
  let ok := fun (k : Nat) => s.slotValid k && if k = 0 then okA else okB
  let first := if s.slotValid 1 && (!s.slotValid 0 || decide (s.slotSeq 0 < s.slotSeq 1)) then 1 else 0
  if ok first then some first else if ok (1 - first) then some (1 - first) else none

/-- GRD_STATUS.RUNNING of die 0's guard. -/
def State.guardRuns (s : State) : Bool := s.rbit 0 Reg.grdStatus 0

/-- GUARD_BOOT (R542): `okA` and `okB` say whether the image of each slot passes its digest and signature checks. -/
def execGuardBoot (okA okB : Bool) (s : State) : Res :=
  onDie s 0 (
    if s.guardRuns || s.stage_ ≠ 0 then s
    else
      match s.bootSlot okA okB with
      | none => (((s.bootFail 1).stickyAdd 2 0 [1]).emit (.pin "FAULT_N" 0 false))
      | some k =>
        let s := s.setGen Reg.genBoot (setFld (setFld (s.regN 0 Reg.genBoot) 0 4 1) 4 1 k)
        s.eachDie fun s d =>
          let s := s.setRbit d Reg.grdStatus 0 true
          s.setRegN d Reg.grdId (setFld (setFld (s.regN d Reg.grdId) 0 8 (s.slotSvn k)) 8 1 k))

/-! ## Enumeration (R543) -/

/-- Whether a die takes part in the mesh: out of reset and not fenced. -/
def State.dieReached (s : State) (d : Nat) : Bool := decide (d < s.part.dies) && !s.inReset d && !s.dieOut d

/-- The units of a die that are there and in service, as RAS_CAP_LIVE shows them at the end of enumeration. -/
def State.liveUnits (s : State) (d : Nat) : Nat := sumNat (((List.range 16).filter fun u => s.unitThere d u && !s.unitOut d u).map fun u => 2 ^ u)

/-- Trains the links of a die toward the dies that are reached. -/
def State.trainLinks (s : State) (d : Nat) : State :=
  (List.range 3).foldl (fun s k =>
    match s.farEnd d k with
    | some (e, _) => if s.dieReached e && !s.linkFenced d k then s.linkBoth d k true false else s
    | none => s) s

/-- Brings a die that has not been enumerated into service. -/
def State.enumerate (s : State) (d : Nat) : State :=
  if !s.dieReached d || s.regN d Reg.rasCapLive ≠ 0 then s
  else
    let s := (s.trainLinks d).setRegN d Reg.rasCapLive (s.liveUnits d)
    s.setGen Reg.genBoot (setBit (s.regN 0 Reg.genBoot) (8 + d) true)

/-- DIE_ENUMERATION: the end of enumeration. After a reset of die 0 the package's bring-up runs on from STAGE DIES with discovery
not started; otherwise the dies that a reset took come back (R543, R602). -/
def execDieEnumeration (selfTestOk : Bool) (s : State) : Res :=
  onDie s 0 (
    if !s.guardRuns || s.stage_ = 0xF then s
    else if !selfTestOk then s.bootFail 2
    else
      let full := s.regN 0 Reg.rasCapLive = 0
      let s := if full then s.setGen Reg.genBoot (setFld (s.regN 0 Reg.genBoot) 8 8 0) else s
      let s := (s.eachDie State.enumerate).meshNote
      if full then ((s.setGen Reg.genDiscStatus 0).setGen Reg.genDiscRootLo 0).setGen Reg.genDiscRootHi 0 |>.setStage 2 else s)

/-- ENUMERATION_TIMEOUT: a die not reached in time is absent, and fenced (R543). -/
def execEnumerationTimeout (d : Nat) (s : State) : Res :=
  onDie s d (if d = 0 || !s.guardRuns || s.regN d Reg.rasCapLive ≠ 0 then s else s.fence d 0x0F 6)

/-! ## Discovery (R545 to R555) -/

/-- GEN_DISC_STATUS.STATE. -/
def State.discState (s : State) : Nat := s.rf 0 Reg.genDiscStatus 0 2

/-- GEN_STRAPS.POS_VALID. -/
def State.strapped (s : State) : Bool := s.rbit 0 Reg.genStraps 1

/-- The coordinates from which a package starts: its straps' or the origin (R550). -/
def State.startXyz (s : State) : Int × Int × Int :=
  if s.strapped then ((s.rf 0 Reg.genStraps 2 6 : Nat), (s.rf 0 Reg.genStraps 8 4 : Nat), (s.rf 0 Reg.genStraps 12 4 : Nat)) else (0, 0, 0)

/-- Shows the key: its serial number and whether it is the package's own. -/
def State.showKey (s : State) : State :=
  let s := (s.setGen Reg.genDiscRootLo (s.disc.serial % 2 ^ 32)).setGen Reg.genDiscRootHi (s.disc.serial / 2 ^ 32)
  s.setGen Reg.genDiscStatus (setBit (s.regN 0 Reg.genDiscStatus) 2 (s.disc.serial == s.serial))

/-- Starts discovery from the package's own key: the torus ports are enabled, every other field at its reset value (R545). -/
def State.startDiscovery (s : State) : State :=
  let u := s.startXyz
  let s := { s with disc := { Disc.reset with noroot := b2n (!s.rbit 0 Reg.genStraps 0), serial := s.serial, u := u, min := u, max := u }, torus := ⟨[], [], [], 0⟩ }
  let ds := (List.range s.part.torusPorts).filter s.dieReached
  let s := ds.foldl (fun s d => s.setRegN d Reg.ethCtrl 1) s
  ((s.setGen Reg.genDiscStatus 1).showKey).setStage 3

/-- PORT_ENABLE_AUTO (R545). -/
def execPortEnableAuto (s : State) : Res := onDie s 0 (if s.stage_ = 2 && s.discState = 0 && s.rbit 0 Reg.genDiscCtrl 0 then s.startDiscovery else s)

/-- Whether a torus port is held out. -/
def State.heldOut (s : State) (d : Nat) : Bool := s.rbit 0 Reg.genDiscStatus (8 + d)

/-- Holds a torus port out, with a bit group of its reason: 16 PEER_DIFF, 24 MISWIRED, none for a port that is late. -/
def State.holdOut (s : State) (d : Nat) (why : Option Nat) : State :=
  let v := setBit (s.regN 0 Reg.genDiscStatus) (8 + d) true
  s.setGen Reg.genDiscStatus (match why with | some lo => setBit v (lo + d) true | none => v)

/-- The discovery frame of this package on a port (Table 17-3). -/
def State.discTx (s : State) (d : Nat) : DiscFrame :=
  let x := s.disc
  ⟨0, 1, s.discState == 2, d, s.part.dies, 0x11, x.noroot, x.serial, x.u, x.min, x.max, x.g⟩

/-- Sends this package's state on a torus port that is up and not held out. -/
def State.sendDisc (s : State) (d : Nat) : State :=
  if d < s.part.torusPorts && s.portUp d && !s.heldOut d && s.discState ≠ 0 then
    { s with disc := { s.disc with owes := without d s.disc.owes } }.sendItem d 7 0 (.disc (s.discTx d))
  else s

/-- After a change every torus port owes a frame (R548, R555). -/
def State.discChanged (s : State) : State := { s.showKey with disc := { s.disc with owes := List.range s.part.torusPorts } }

/-- DISCOVERY_SEND_TIMER: until VALID, and on a port that owes a frame (R548). -/
def execDiscoverySendTimer (d : Nat) (s : State) : Res :=
  onDie s d (if s.discState = 1 || s.disc.owes.contains d then s.sendDisc d else s)

/-- One component of coordinates. -/
def axisOf (u : Int × Int × Int) (a : Nat) : Int := if a = 0 then u.1 else if a = 1 then u.2.1 else u.2.2

/-- A divisor of coordinates, by axis. -/
def axisNat (g : Nat × Nat × Nat) (a : Nat) : Nat := if a = 0 then g.1 else if a = 1 then g.2.1 else g.2.2

/-- Coordinates moved along an axis. -/
def moveAxis (u : Int × Int × Int) (a : Nat) (k : Int) : Int × Int × Int :=
  if a = 0 then (u.1 + k, u.2.1, u.2.2) else if a = 1 then (u.1, u.2.1 + k, u.2.2) else (u.1, u.2.1, u.2.2 + k)

/-- The candidate coordinates from a frame on a port: one step up on a − port, one down on a + port (R550). -/
def candidate (d : Nat) (u : Int × Int × Int) : Int × Int × Int := moveAxis u (d / 2) (if d % 2 = 1 then 1 else -1)

/-- Component by component. -/
def zip3 {α : Type} (f : α → α → α) (x y : α × α × α) : α × α × α := (f x.1 y.1, f x.2.1 y.2.1, f x.2.2 y.2.2)

/-- How a frame's key stands to the package's: 0 better, 1 same, 2 worse (R549). -/
def Disc.rank (x : Disc) (f : DiscFrame) : Nat :=
  if f.noroot = x.noroot && f.serial = x.serial then 1
  else if f.estab && !x.estab then 0
  else if !f.estab && x.estab then 2
  else if f.noroot < x.noroot || (f.noroot = x.noroot && f.serial < x.serial) then 0
  else 2

/-- A better key: adopted with its coordinates, extremes and divisors; strapped coordinates stay (R550). -/
def State.discAdopt (s : State) (d : Nat) (f : DiscFrame) : State :=
  let u := if s.strapped then s.disc.u else candidate d f.u
  { s with disc := { s.disc with estab := f.estab, noroot := f.noroot, serial := f.serial, u := u, min := zip3 min f.min u, max := zip3 max f.max u, g := f.g } }.discChanged

/-- The same key: divisors from the differences and the frame, extremes merged (R550). -/
def State.discMerge (s : State) (d : Nat) (f : DiscFrame) : State :=
  let x := s.disc
  let c := candidate d f.u
  let diff := fun (a : Nat) => (axisOf c a - axisOf x.u a).natAbs
  let g := zip3 Nat.gcd (zip3 Nat.gcd x.g (diff 0, diff 1, diff 2)) f.g
  let y := { x with estab := x.estab || f.estab, min := zip3 min x.min f.min, max := zip3 max x.max f.max, g := g }
  if y = x then s else { s with disc := y }.discChanged

/-- The torus sizes that the state gives (R552). -/
def Disc.dims (x : Disc) : Nat × Nat × Nat :=
  let one := fun (a : Nat) => if axisNat x.g a ≠ 0 then axisNat x.g a else (axisOf x.max a - axisOf x.min a + 1).toNat
  (one 0, one 1, one 2)

/-- Whether the peer on a port has the coordinates that its place asks for, reduced by the torus sizes (R553). -/
def Disc.peerRight (x : Disc) (d : Nat) (peer : Int × Int × Int) : Bool :=
  let step : Int := if d % 2 = 0 then 1 else -1
  [0, 1, 2].all fun a =>
    let n : Int := (axisNat x.dims a : Nat)
    (axisOf peer a - axisOf x.u a - (if a = d / 2 then step else 0)) % n == 0

/-- The checks on the first frame of a port: the peer's part and stepping, and its port's role (R548). -/
def State.firstFrame (s : State) (d : Nat) (f : DiscFrame) : State :=
  let s := if f.part ≠ s.part.dies || f.stepping ≠ 0x11 then (s.holdOut d (some 16)).setRbit d Reg.ethStatus 13 true else s
  if f.role ≠ Nat.xor d 1 then s.holdOut d (some 24) else s

/-- What a package that has set VALID does with a frame: it holds out a port with another established key or the wrong place, and
answers a package that is not established (R553, R554). -/
def State.discEstab (s : State) (d : Nat) (f : DiscFrame) : State :=
  let same := f.noroot = s.disc.noroot && f.serial = s.disc.serial
  if f.estab && !same then s.holdOut d (some 24)
  else if same then (if s.disc.peerRight d f.u then s else s.holdOut d (some 24))
  else s.sendDisc d

/-- A frame on a port in use. -/
def State.discTake (s : State) (d : Nat) (f : DiscFrame) : State :=
  let s := if s.disc.heard.contains d then s else { s.firstFrame d f with disc := { s.disc with heard := s.disc.heard ++ [d] } }
  if s.heldOut d then s
  else
    let s := if f.noroot = s.disc.noroot && f.serial = s.disc.serial || s.disc.rank f = 0 then { s with disc := { s.disc with peers := kvPut s.disc.peers d f.u } } else s
    if s.discState = 2 then s.discEstab d f
    else match s.disc.rank f with
      | 0 => let t := s.discAdopt d f; { t with disc := { t.disc with peers := [(d, f.u)] } }
      | 1 => s.discMerge d f
      | _ => s.sendDisc d

/-- DISCOVERY_FRAME (R547 to R550, R553 to R555); a reserved KIND or VER is dropped. A port that is held out takes its link from the
routes (R343, R548). -/
def execDiscoveryFrame (d : Nat) (f : DiscFrame) (s : State) : Res :=
  onDie s d (
    let s := s.takeRx d 0x88B8
    if s.part.torusPorts ≤ d || !s.portUp d || s.heldOut d || s.discState = 0 || f.kind ≠ 0 || f.ver ≠ 1 then s else (s.discTake d f).loseUnreached)

/-- DISCOVERY_VALID: coordinates and sizes are written on every die, and each torus port that is up is checked (R552, R553). -/
def execDiscoveryValid (s : State) : Res :=
  onDie s 0 (
    if s.discState ≠ 1 then s
    else
      let x := { s.disc with estab := true }
      let (dx, dy, dz) := x.dims
      let at_ := fun (a n : Nat) => (axisOf x.u a % (n : Int)).toNat
      let s := { s with disc := x }
      let s := s.setGen Reg.whlCoord (at_ 0 dx % 64 + 256 * (at_ 1 dy % 16) + 65536 * (at_ 2 dz % 16) + 2 ^ 31)
      let s := s.setGen Reg.whlDims (dx % 128 + 256 * (dy % 32) + 65536 * (dz % 32))
      let s := (s.setGen Reg.genDiscStatus (setFld (s.regN 0 Reg.genDiscStatus) 0 2 2)).setStage 5
      let s := (x.peers.filter fun y => s.portUp y.1 && !s.heldOut y.1 && !x.peerRight y.1 y.2).foldl (fun s y => s.holdOut y.1 (some 24)) s
      s.discChanged)

/-! ## Ports, stacks and drives -/

/-- PORT_LINK_UP: a port's link comes up; on a torus port discovery's state follows (R546, R548). -/
def execPortLinkUp (d : Nat) (s : State) : Res :=
  onDie s d (
    if s.portUp d || !s.portMayUp d then s
    else
      let s := (s.linkUpNow d).loseFrames
      if s.part.torusPorts ≤ d then s
      else
        let s := if s.stage_ = 3 then s.setStage 4 else s
        s.sendDisc d)

/-- PORT_HOLDOUT_TIMEOUT: a torus port not up 2,000 ms after its enable (R546). -/
def execPortHoldoutTimeout (d : Nat) (s : State) : Res :=
  onDie s d (if d < s.part.torusPorts && s.rbit d Reg.ethCtrl 0 && !s.portUp d && s.discState ≠ 0 then (s.holdOut d none).loseUnreached else s)

/-- PORT_LINK_DOWN: a side port's link goes down, and the frames for side members go to the other side port (R341). -/
def execPortLinkDown (d : Nat) (s : State) : Res :=
  onDie s d (
    if d < s.part.torusPorts || !s.portUp d then s
    else
      let s := s.portDown d
      let q := (s.eth d).txq
      let fs := ((s.wire d 1).held ++ (s.wire d 2).held).map (fun h => h.f) ++ q.filter fun f => f.item.routed
      let s := s.modEth d fun e => { e with txq := q.filter fun f => !f.item.routed }
      let s := (s.modWire d 1 fun _ => Link.idle d 1).modWire d 2 fun _ => Link.idle d 2
      (fs.foldl (fun s f => s.queueRouted s.sidePort f) s).loseUnreached)

/-- HBM_TRAINING_END: the stack is ready in the split mode of HBM_CTRL, or it is fenced (R236, R237). -/
def execHbmTrainingEnd (d : Nat) (ok : Bool) (s : State) : Res :=
  onDie s d (
    if s.rbit d Reg.hbmStatus 0 then s
    else if ok then s.setRegN d Reg.hbmStatus (1 + 4 * s.rf d Reg.hbmCtrl 0 1)
    else (s.setRegN d Reg.hbmStatus 2).fence d 0x0E 5)

/-- The most LBAs of namespace 1: 64 TB (R239). -/
def maxLbas : Nat := 15625000000

/-- DRIVE_ENUMERATE: the drive is ready with its queues, or held out and its port fenced (R239, R241). `accept` stands for the
conditions of R239 on the drive and its namespace. -/
def execDriveEnumerate (d : Nat) (accept : Bool) (lbas rate granted mqes mdts : Nat) (s : State) : Res :=
  onDie s d (
    if !s.rbit d Reg.flCtrl 0 || s.rbit d Reg.flStatus 3 || s.unitOut d 0x0D || s.dieOut d || rate = 0 || 3 < rate then s
    else if accept && 0 < lbas && lbas ≤ maxLbas && 1 ≤ granted then
      let s := (s.setRegN d Reg.flStatus (1 + 2 * rate + 8)).setRegPair d Reg.flDrvLbasLo lbas
      let s := { s with drives := s.drives.filter (fun x => x.d != d) ++ [⟨d, mdts, Nat.min 16 granted, Nat.min 1024 (mqes + 1)⟩] }
      let base := s.regPair d Reg.flQbaseLo
      if hbmSize * d ≤ base && base + 2 ^ 22 ≤ hbmSize * (d + 1) then s.wipe base (2 ^ 22) else s
    else (s.fence d 0x0D 4).setRegN d Reg.flStatus (1 + 2 * rate + 16))

end Sys2Proof.Machine
end

