-- ==== Sys2Proof/Machine/Guard.lean ====
section
/-! DEFINITION. Requests to the guard of die 0 (R561 to R571, R581). -/

namespace Sys2Proof.Machine

/-! ## Requests and answers (R561 to R564) -/

/-- The classes of path by which a guard request comes. -/
inductive PathClass where
  | pf
  | vf
  | sb
  | ses
deriving DecidableEq, Repr

/-- The secured session of a number. -/
def State.sessOf (s : State) (id : Nat) : Option Sess := s.grd.sess.find? fun x => x.id == id

/-- Whether a session has completed its handshake. -/
def State.sessUp (s : State) (id : Nat) : Bool := match s.sessOf id with | some x => x.up | none => false

/-- The path of a request, none where no request can come by it. A mailbox is on the path of the function through which its
bell came (R561; DEDUCED, assumption 71). -/
def State.pathClass (s : State) : GPath → Option PathClass
  | .mailbox m => (kvFind s.mbSeq m).map fun x => if x.2 then .vf else .pf
  | .sb => some .sb
  | .ses i => if s.sessUp i then some .ses else none

/-- The bytes of a request: those of its mailbox's body, or those that the message carries (Table 18-1). -/
def State.reqBytes (s : State) (r : GReq) : List Byte :=
  match r.path with
  | .mailbox m => ((s.mbBytes m).drop 16).take (leAt (s.mbBytes m) 2 2)
  | _ => r.bytes

/-- OPCODE of a request. -/
def reqOp (b : List Byte) : Nat := leAt b 0 2

/-- ARG_LEN of a request. -/
def reqLen (b : List Byte) : Nat := leAt b 2 2

/-- Sends an answer: OPCODE and REQ_ID echoed, the refusal code, and the result. -/
def State.answer (s : State) (path : GPath) (b : List Byte) (refusal : Nat) (result : List Byte) : State :=
  let a := padTo 2 (b.take 2) ++ natLe 1 refusal ++ natLe 1 0 ++ padTo 4 ((b.drop 4).take 4) ++ result
  match path with
  | .mailbox m => s.mbGuardAnswer m a
  | _ => s.emit (.guardAnswer path a)

/-- Whether a path may carry an opcode (Table 18-2). -/
def opPath (op : Nat) (c : PathClass) : Bool :=
  match op with
  | 0x1 => true
  | 0x2 => c != .vf
  | 0x3 => c == .pf || c == .ses
  | 0x4 => c == .sb
  | 0x5 => c != .vf
  | 0x6 => c == .pf || c == .ses
  | 0xF => c == .pf || c == .ses
  | _ => c == .pf || c == .sb

/-- Whether ARG_LEN suits an opcode (Table 18-2). -/
def opLen (op n : Nat) : Bool :=
  match op with
  | 0x2 => n == 2
  | 0x3 => n == 2
  | 0x4 => n == 2
  | 0x5 => n == 2
  | 0x6 => n == 4
  | 0x8 => n == 2
  | 0x9 => n == 5
  | 0xA => n == 5
  | 0xB => decide (4 ≤ n) && decide (n ≤ 452)
  | 0xE => n == 96
  | _ => n == 0

/-! ## What each opcode does, once its path and ARG_LEN are right: the refusal code, the result and the state -/

/-- What a request ends with. -/
structure Reply where
  code   : Nat
  result : List Byte
  st     : State
deriving DecidableEq, Repr

/-- A refusal, which changes nothing. -/
def State.deny (s : State) (code : Nat) : Reply := ⟨code, [], s⟩

/-- The four words of a QUERY. -/
def State.queryWords (s : State) : List Byte :=
  natLe 4 (s.regN 0 Reg.grdStatus) ++ natLe 4 (s.regN 0 Reg.grdId) ++ natLe 4 (s.regN 0 Reg.grdFuseSvn) ++ natLe 4 (s.regN 0 Reg.genBoot)

/-- MIN_SVN. -/
def State.minSvn (s : State) : Nat := s.rf 0 Reg.grdFuseSvn 0 8

/-- The slot whose image runs. -/
def State.runSlot (s : State) : Nat := s.rf 0 Reg.genBoot 4 1

/-- Sets a bit of GRD_STATUS of die 0's guard. -/
def State.setGrd (s : State) (i : Nat) (b : Bool) : State := s.setRbit 0 Reg.grdStatus i b

/-- SET_CLK_LIMIT. -/
def State.opClk (s : State) (b : List Byte) : Reply :=
  if limitOk (leAt b 8 1) (leAt b 9 1) then ⟨0, [], s.guardLimit (leAt b 8 1) (leAt b 9 1)⟩ else s.deny 3

/-- SET_CAP_CEIL: above design power it is refused (Table 18-3). -/
def State.opCeil (s : State) (b : List Byte) : Reply :=
  if s.part.design < leAt b 8 2 then s.deny 4 else ⟨0, [], s.guardSet 0 Reg.pwrCapCeil (leAt b 8 2)⟩

/-- SET_THERM: the ranges of Table 16-9, then the fused maximum (R568). -/
def State.opTherm (s : State) (b : List Byte) : Reply :=
  let throttle := leAt b 8 1
  let crit := leAt b 9 1
  if throttle < 60 || 105 < throttle || crit < throttle + 5 || 115 < crit then s.deny 3
  else if s.rf 0 Reg.grdFuseSvn 8 8 < crit then s.deny 4
  else ⟨0, [], s.eachDie fun s d => s.guardSet d Reg.thermLimits (throttle + 256 * crit)⟩

/-- SET_DISC. -/
def State.opDisc (s : State) (b : List Byte) : Reply :=
  if 1 < leAt b 8 1 || leAt b 10 2 = 0 || 4095 < leAt b 10 2 then s.deny 3
  else ⟨0, [], s.eachDie fun s d => s.guardSet d Reg.genDiscCtrl (leAt b 8 1 + 16 * leAt b 10 2)⟩

/-- START_DISC: from STAGE DIES on, with discovery not started (R545). -/
def State.opStart (s : State) : Reply :=
  if s.discState ≠ 0 || s.stage_ < 2 || s.stage_ = 0xF then s.deny 9 else ⟨0, [], s.startDiscovery⟩

/-- RESET: the reset waits 1 ms. -/
def State.opReset (s : State) (b : List Byte) : Reply :=
  if 2 < leAt b 8 1 || (leAt b 8 1 = 2 && decide (s.part.dies ≤ leAt b 9 1)) then s.deny 3
  else if s.grd.resetReq.isSome then s.deny 5
  else ⟨0, [], { s with grd := { s.grd with resetReq := some (leAt b 8 1, leAt b 9 1) } }⟩

/-- READ_LOG. -/
def State.opLog (s : State) (b : List Byte) : Reply :=
  if leAt b 12 1 = 0 || 7 < leAt b 12 1 then s.deny 3
  else ⟨0, ((s.grd.sticky.drop (leAt b 8 4)).take (leAt b 12 1)).flatten, s⟩

/-- A slot's manifest is no longer whole. -/
def State.eraseSlot (s : State) (k : Nat) : State :=
  { s with grd := { s.grd with slots := kvPut s.grd.slots k ⟨false, s.slotSeq k, s.slotSvn k, []⟩ } }

/-- FW_BEGIN: step 1 of Table 18-4 (R565, R566). -/
def State.opFwBegin (s : State) (b : List Byte) : Reply :=
  let len := leAt b 8 4
  let svn := leAt b 12 1
  if len = 0 || 24 * 2 ^ 20 < len then s.deny 3
  else if s.grd.upd.isSome then s.deny 5
  else if svn < s.minSvn then s.deny 7
  else
    let s := (s.eraseSlot (1 - s.runSlot)).setGrd 3 false
    ⟨0, [], ({ s with grd := { s.grd with upd := some ⟨len, svn, []⟩ } }).setGrd 2 true⟩

/-- FW_WRITE: step 2 (R565). -/
def State.opFwWrite (s : State) (b : List Byte) : Reply :=
  match s.grd.upd with
  | none => s.deny 9
  | some u =>
    let off := leAt b 8 4
    let bytes := (b.drop 12).take (reqLen b - 4)
    if u.len < off + bytes.length then s.deny 3
    else ⟨0, [], { s with grd := { s.grd with upd := some { u with data := bytes.zipIdx.foldl (fun m x => kvPut m (off + x.2) x.1) u.data } } }⟩

/-- The image of an update; bytes that no FW_WRITE programmed are free values. -/
def FwUpd.image (u : FwUpd) (t : Nat) : List Byte :=
  (List.range u.len).map fun i => match kvFind u.data i with | some b => b | none => Config.freeByte t i

/-- FW_COMMIT: steps 3 to 5 (R565). -/
def State.opFwCommit (s : State) : Reply :=
  match s.grd.upd with
  | none => s.deny 9
  | some u =>
    let (t, s') := s.fresh
    let image := u.image t
    if !Config.fwSigned image u.svn then s.deny 6
    else if u.svn < s.minSvn then s.deny 7
    else
      let k := 1 - s.runSlot
      let slot : BootSlot := ⟨true, s.slotSeq s.runSlot + 1, u.svn, image⟩
      let s' := { s' with grd := { s'.grd with slots := kvPut s'.grd.slots k slot, upd := none } }
      ⟨0, [], ((s'.setGrd 3 true).setGrd 2 false).stickyAdd 5 0 (natLe 1 k ++ natLe 1 u.svn ++ natLe 4 (s.slotSeq s.runSlot + 1))⟩

/-- DEBUG_NONCE. -/
def State.opNonce (s : State) : Reply :=
  let (t, s) := s.fresh
  let nonce := (List.range 48).map (Config.freeByte t)
  ⟨0, nonce, { s with grd := { s.grd with nonce := some nonce } }⟩

/-- DEBUG_UNLOCK (R569): the identity chain follows GRD_STATUS.DEBUG (R571). -/
def State.opUnlock (s : State) (b : List Byte) : Reply :=
  let token := (b.drop 8).take 96
  match s.grd.nonce with
  | none => s.deny 6
  | some n =>
    if !Config.debugAllowed || !Config.tokenOk s.serial n token then s.deny 6
    else ⟨0, [], (({ s with grd := { s.grd with nonce := none, token := some token } }).setGrd 1 true).stickyAdd 3 0 (token.take 48)⟩

/-- SVN_ADVANCE (R567); the counter never falls. -/
def State.opSvn (s : State) : Reply :=
  let svn := s.rf 0 Reg.grdId 0 8
  if svn ≤ s.minSvn then s.deny 9
  else
    let t := s.eachDie fun s d => s.setRegN d Reg.grdFuseSvn (setFld (s.regN d Reg.grdFuseSvn) 0 8 svn)
    ⟨0, [], t.stickyAdd 4 0 (natLe 1 svn)⟩

/-- What an opcode does. -/
def State.opcode (s : State) (b : List Byte) : Reply :=
  match reqOp b with
  | 0x1 => ⟨0, s.queryWords, s⟩
  | 0x2 => s.opClk b
  | 0x3 => s.opCeil b
  | 0x4 => ⟨0, [], s.guardSet 0 Reg.pwrCapSb (leAt b 8 2)⟩
  | 0x5 => s.opTherm b
  | 0x6 => s.opDisc b
  | 0x7 => s.opStart
  | 0x8 => s.opReset b
  | 0x9 => s.opLog b
  | 0xA => s.opFwBegin b
  | 0xB => s.opFwWrite b
  | 0xC => s.opFwCommit
  | 0xD => s.opNonce
  | 0xE => s.opUnlock b
  | _ => s.opSvn

/-- Whether a request has an opcode of Table 18-2 and its ARG_LEN. -/
def reqKnown (b : List Byte) : Bool :=
  decide (1 ≤ reqOp b) && decide (reqOp b ≤ 0xF) && opLen (reqOp b) (reqLen b) && decide (8 + reqLen b ≤ b.length)

/-- One request on a path of some class: the refusal codes are tried in the order of Table 18-3. -/
def State.guardReply (s : State) (c : PathClass) (b : List Byte) : Reply :=
  if !reqKnown b then s.deny 1
  else if !opPath (reqOp b) c then s.deny 2
  else s.opcode b

/-- The guard runs a request that reaches it and answers. -/
def State.guardServe (s : State) (path : GPath) (b : List Byte) : State :=
  match (if s.guardRuns then s.pathClass path else none) with
  | none => s
  | some c => let r := s.guardReply c b; r.st.answer path b r.code r.result

/-- A request command: it runs where its bytes hold its opcode. -/
def State.guardOp (s : State) (r : GReq) (op : Nat) : Res :=
  live s (if reqOp (s.reqBytes r) = op then s.guardServe r.path (s.reqBytes r) else s)

/-- QUERY (R562). -/
def execGuardQuery (r : GReq) (s : State) : Res := s.guardOp r 0x1

/-- SET_CLK_LIMIT (R531, R562). -/
def execSetClkLimit (r : GReq) (s : State) : Res := s.guardOp r 0x2

/-- SET_CAP_CEIL (R514, R562). -/
def execSetCapCeil (r : GReq) (s : State) : Res := s.guardOp r 0x3

/-- SET_CAP_SB (R514, R562). -/
def execSetCapSb (r : GReq) (s : State) : Res := s.guardOp r 0x4

/-- SET_THERM (R562, R568). -/
def execSetTherm (r : GReq) (s : State) : Res := s.guardOp r 0x5

/-- SET_DISC (R558, R562). -/
def execSetDisc (r : GReq) (s : State) : Res := s.guardOp r 0x6

/-- START_DISC (R545). -/
def execStartDisc (r : GReq) (s : State) : Res := s.guardOp r 0x7

/-- RESET (R562). -/
def execGuardReset (r : GReq) (s : State) : Res := s.guardOp r 0x8

/-- GUARD_RESET_DELAY: the reset asked for starts (R533, R562). -/
def execGuardResetDelay (s : State) : Res :=
  live s (
    match s.grd.resetReq with
    | none => s
    | some (kind, d) =>
      let s := { s with grd := { s.grd with resetReq := none } }
      match kind with
      | 0 => s.coldStart 2 (s.reg 0 Reg.genStraps)
      | 1 => s.startReset (List.range s.part.dies) false 4
      | _ => s.warmDie d)

/-- READ_LOG (R581). -/
def execReadLog (r : GReq) (s : State) : Res := s.guardOp r 0x9

/-- FW_BEGIN (R565, R566). -/
def execFwBegin (r : GReq) (s : State) : Res := s.guardOp r 0xA

/-- FW_WRITE (R565). -/
def execFwWrite (r : GReq) (s : State) : Res := s.guardOp r 0xB

/-- FW_COMMIT (R565). -/
def execFwCommit (r : GReq) (s : State) : Res := s.guardOp r 0xC

/-- DEBUG_NONCE (R569). -/
def execDebugNonce (r : GReq) (s : State) : Res := s.guardOp r 0xD

/-- DEBUG_UNLOCK (R569). -/
def execDebugUnlock (r : GReq) (s : State) : Res := s.guardOp r 0xE

/-- SVN_ADVANCE (R567). -/
def execSvnAdvance (r : GReq) (s : State) : Res := s.guardOp r 0xF

/-- GUARD_UNKNOWN_OPCODE: an opcode outside Table 18-2 or a wrong ARG_LEN (R563). -/
def execGuardUnknownOpcode (r : GReq) (s : State) : Res :=
  live s (if reqKnown (s.reqBytes r) then s else s.guardServe r.path (s.reqBytes r))

end Sys2Proof.Machine
end

