-- ==== Sys2Proof/Machine/Spdm.lean ====
section
/-! DEFINITION. The guard's SPDM responder, TDISP, and keys for IDE and MACsec (R575 to R580). Message codes and layouts are those
of DSP0274, DSP0277 and TDISP (assumption 35). -/

namespace Sys2Proof.Machine

/-! ## Connections and sessions -/

/-- The SPDM connection of a transport. -/
def State.spdmOf (s : State) (doe : Bool) : Spdm := (s.grd.spdm.find? fun x => x.doe == doe).getD ⟨doe, 0, [], []⟩

/-- Changes the SPDM connection of a transport. -/
def State.modSpdm (s : State) (doe : Bool) (f : Spdm → Spdm) : State :=
  { s with grd := { s.grd with spdm := (s.grd.spdm.filter fun x => x.doe != doe) ++ [f (s.spdmOf doe)] } }

/-- GRD_STATUS.SESSIONS follows the sessions open. -/
def State.countSess (s : State) : State :=
  s.setRegN 0 Reg.grdStatus (setFld (s.regN 0 Reg.grdStatus) 6 3 (s.grd.sess.filter fun x => x.up).length)

/-- Sets the sessions. -/
def State.setSess (s : State) (l : List Sess) : State := { s with grd := { s.grd with sess := l } }.countSess

/-- Sends a message to the requester. -/
def State.spdmOut (s : State) (doe : Bool) (sess : Option Nat) (b : List Byte) : State := s.emit (.spdm doe sess b)

/-- Some bytes that the spec leaves open. -/
def State.freeBytes (s : State) (n : Nat) : List Byte × State :=
  let (t, s) := s.fresh
  ((List.range n).map (Config.freeByte t), s)

/-! ## What is measured and certified (R570, R571, R576) -/

/-- The certificate chain of slot 0. -/
def State.certs (s : State) : List Byte :=
  Config.certChain (s.slotDigest s.runSlot) (s.rf 0 Reg.grdId 0 8) s.runSlot (s.rbit 0 Reg.grdStatus 1)

/-- The 36 bytes of a partition in block 5. -/
def State.partBlock (s : State) (p : Nat) : List Byte :=
  natLe 4 (s.regN 0 (Reg.seqPartCfg p)) ++ natLe 4 (s.regN 0 (Reg.seqPartMask p)) ++ (List.range 7).flatMap fun j => natLe 4 (s.regN 0 (Reg.weirShare j p))

/-- Block 5: 584 bytes. -/
def State.block5 (s : State) : List Byte :=
  ((List.range 16).flatMap s.partBlock) ++ (List.range 8).map fun d => BitVec.ofNat 8 (b2n (decide (d < s.part.dies) && s.rbit d Reg.hbmStatus 2))

/-- The contents of a measurement block (Table 18-7). -/
def State.measBlock (s : State) (i : Nat) : List Byte :=
  match i with
  | 1 => Config.romDigest
  | 2 => s.slotDigest s.runSlot
  | 3 => natLe 1 s.runSlot ++ natLe 4 (s.slotSeq s.runSlot) ++ natLe 1 (s.slotSvn s.runSlot)
  | 4 => natLe 4 (s.regN 0 Reg.grdFuseSvn) ++ natLe 4 (s.regN 0 Reg.grdStatus) ++ natLe 4 (s.regN 0 Reg.clkLimit) ++ natLe 4 (s.regN 0 Reg.pwrCapCeil) ++ natLe 4 (s.regN 0 Reg.thermLimits)
  | 5 => s.block5
  | _ => s.measLog.value ++ natLe 4 (s.regN 0 Reg.grdMeasCount)

/-- A block in DMTF measurement form; the type of a raw block is free. -/
def State.dmtfBlock (s : State) (i : Nat) : List Byte × State :=
  let v := s.measBlock i
  let (k, s) := if i ≤ 2 then (i - 1, s) else (s.freeVal 7).map (128 + ·) id
  (natLe 1 i ++ natLe 1 1 ++ natLe 2 (v.length + 3) ++ natLe 1 k ++ natLe 2 v.length ++ v, s)

/-! ## Responses -/

/-- An ERROR response. -/
def spdmError (v code data : Nat) : List Byte := natLe 1 v ++ natLe 1 0x7F ++ natLe 1 code ++ natLe 1 data

/-- The four bytes that start a response. -/
def spdmHead (v code p1 p2 : Nat) : List Byte := natLe 1 v ++ natLe 1 code ++ natLe 1 p1 ++ natLe 1 p2

/-- GET_VERSION begins a connection anew; the versions are 1.2 and 1.3. -/
def State.getVersion (s : State) (doe : Bool) : List Byte × State :=
  (spdmHead 0x10 0x04 0 0 ++ natLe 1 0 ++ natLe 1 2 ++ natLe 2 0x1200 ++ natLe 2 0x1300, s.modSpdm doe fun _ => ⟨doe, 1, [], []⟩)

/-- GET_CAPABILITIES. -/
def State.getCapabilities (s : State) (doe : Bool) (v : Nat) : List Byte × State :=
  let (x, s) := s.freeBytes 16
  (spdmHead v 0x61 0 0 ++ x, s.modSpdm doe fun c => { c with phase := 2 })

/-- NEGOTIATE_ALGORITHMS. -/
def State.negotiate (s : State) (doe : Bool) (v : Nat) : List Byte × State :=
  let (x, s) := s.freeBytes 48
  (spdmHead v 0x63 0 0 ++ x, s.modSpdm doe fun c => { c with phase := 3 })

/-- GET_CERTIFICATE: a portion of the chain of slot 0. -/
def State.getCertificate (s : State) (v : Nat) (b : List Byte) : List Byte × State :=
  let chain := s.certs
  let off := leAt b 4 2
  let part := (chain.drop off).take (leAt b 6 2)
  if leAt b 2 1 % 16 ≠ 0 || chain.length < off then (spdmError v 1 0, s)
  else (spdmHead v 0x02 0 0 ++ natLe 2 part.length ++ natLe 2 (chain.length - off - part.length) ++ part, s)

/-- CHALLENGE: nonce, summary and signature are free. -/
def State.challenge (s : State) (v : Nat) (b : List Byte) : List Byte × State :=
  if leAt b 2 1 % 16 ≠ 0 then (spdmError v 1 0, s)
  else
    let (x, s) := s.freeBytes (32 + (if leAt b 3 1 = 0 then 0 else 48) + 2 + 96)
    (spdmHead v 0x03 0 1 ++ sha384 s.certs ++ x, s)

/-- GET_MEASUREMENTS (R576): the count, one block or all of them, and a signature where asked. -/
def State.getMeasurements (s : State) (v : Nat) (b : List Byte) : List Byte × State :=
  let op := leAt b 3 1
  let sign := bit (leAt b 2 1) 0
  let is := if op = 0xFF then [1, 2, 3, 4, 5, 6] else if op = 0 then [] else [op]
  if 6 < op && op ≠ 0xFF then (spdmError v 1 0, s)
  else
    let (body, s) := is.foldl (fun (x : List Byte × State) i => let (y, s) := x.2.dmtfBlock i; (x.1 ++ y, s)) ([], s)
    let (x, s) := s.freeBytes (34 + if sign then 96 else 0)
    (spdmHead v 0x60 (if op = 0 then 6 else 0) 0 ++ natLe 1 is.length ++ natLe 3 body.length ++ body ++ x, s)

/-- KEY_EXCHANGE opens a session where fewer than 4 are open. -/
def State.keyExchange (s : State) (doe : Bool) (v : Nat) (b : List Byte) : List Byte × State :=
  if leAt b 3 1 ≠ 0 then (spdmError v 1 0, s)
  else
    match (List.range 4).find? fun i => (s.sessOf i).isNone with
    | none => (spdmError v 0x0A 0, s)
    | some i =>
      let (x, s) := s.freeBytes 276
      (spdmHead v 0x64 0 0 ++ natLe 2 i ++ x, s.setSess (s.grd.sess ++ [⟨i, doe, false⟩]))

/-- FINISH completes the handshake of its session, or ends the session where its verify data is wrong. -/
def State.finish (s : State) (v i : Nat) (b : List Byte) : List Byte × State :=
  if s.sessUp i then (spdmError v 4 0, s)
  else if !Config.finishOk i b then (spdmError v 6 0, s.setSess (s.grd.sess.filter fun x => x.id != i))
  else (spdmHead v 0x65 0 0, s.setSess (s.grd.sess.map fun (x : Sess) => if x.id = i then { x with up := true } else x))

/-- END_SESSION (R577): the states of TDIs and the keys installed stay. -/
def State.endSession (s : State) (v i : Nat) : List Byte × State :=
  (spdmHead v 0x6C 0 0, s.setSess (s.grd.sess.filter fun x => x.id != i))

/-! ## Vendor messages and TDISP -/

/-- Where a vendor-defined request's payload starts, and the payload. -/
def vendorAt (b : List Byte) : Nat := 7 + leAt b 6 1 + 2

/-- The payload of a vendor-defined request. -/
def vendorLoad (b : List Byte) : List Byte := (b.drop (vendorAt b)).take (leAt b (vendorAt b - 2) 2)

/-- A vendor-defined response: the request's identifiers and a payload. -/
def vendorHead (v : Nat) (b : List Byte) (load : List Byte) : List Byte :=
  spdmHead v 0x7E 0 0 ++ (b.drop 4).take (3 + leAt b 6 1) ++ natLe 2 load.length ++ load

/-- XSAK (R579, R580): the guard installs an association with packet number 0; a rekey report of the port is answered. -/
def State.installSak (s : State) (d : Nat) (a : Sa) : State :=
  if s.part.dies ≤ d || 1 < a.an then s
  else
    let s := s.modEth d fun e => { e with sas := (e.sas.filter fun x => x.tx != a.tx || x.an != a.an) ++ [a] }
    let waits := s.grd.rekey.filter (· != d)
    let s := { s with grd := { s.grd with rekey := waits } }
    if waits.isEmpty then s.setAlert 4 false else s

/-- XSA_SET (R579). -/
def State.setSa (s : State) (d v : Nat) : State := if s.part.dies ≤ d then s else s.guardSet d Reg.ethSecCtrl (Nat.land v 0xFFFFFF1F)

/-- A TDISP response on a function. -/
def tdispMsg (code fn : Nat) (load : List Byte) : List Byte := natLe 1 0x10 ++ natLe 1 code ++ natLe 2 0 ++ natLe 12 fn ++ load

/-- The interface report of a function: its partition's part of block 5; its BAR ranges are free (assumption 35). -/
def State.report (s : State) (fn : Nat) : List Byte × State :=
  let (x, s) := s.freeBytes 48
  (tdispMsg 0x04 fn (s.partBlock (fn - 1) ++ x), s)

/-- A TDISP request on a function in one of the states given sets its state and is answered, with some free bytes; in another state
it is refused. -/
def State.tdiMove (s : State) (fn code : Nat) (from_ : List Nat) (dest extra : Nat) : List Byte × State :=
  if fn = 0 || s.part.parts < fn || !from_.contains (s.tdi fn) then (tdispMsg 0x7F fn (natLe 4 4 ++ natLe 4 0), s)
  else
    let (x, s) := s.freeBytes extra
    (tdispMsg code fn x, s.setTdi fn dest)

/-- LOCK_INTERFACE: CONFIG_UNLOCKED to CONFIG_LOCKED, with a nonce (R577). -/
def State.tdiLock (s : State) (fn : Nat) : List Byte × State := s.tdiMove fn 0x03 [0] 1 32

/-- START_INTERFACE_REQUEST: CONFIG_LOCKED to RUN (R577). -/
def State.tdiStart (s : State) (fn : Nat) : List Byte × State := s.tdiMove fn 0x06 [1] 2 0

/-- STOP_INTERFACE_REQUEST: back to CONFIG_UNLOCKED (R577). -/
def State.tdiStop (s : State) (fn : Nat) : List Byte × State := s.tdiMove fn 0x07 [0, 1, 2, 3] 0 0

/-- The acknowledgement of an IDE key. -/
def ideAck (stream status : Nat) : List Byte := natLe 1 3 ++ natLe 2 0 ++ natLe 1 stream ++ natLe 1 status

/-- A key of the link stream (0) or of one of the 16 selective streams (R578), acknowledged. -/
def State.ideKey (s : State) (stream : Nat) (key : BitVec 256) : List Byte × State :=
  if 16 < stream then (ideAck stream 3, s) else (ideAck stream 0, { s with hst := { s.hst with ide := kvPut s.hst.ide stream key } })

/-- A message of the PCI-SIG in a session: an IDE key (protocol 0) or a TDISP request (protocol 1). -/
def State.pciServe (s : State) (p : List Byte) : Option (List Byte × State) :=
  let fn := leAt p 5 12
  match leAt p 0 1, (if leAt p 0 1 = 0 then leAt p 1 1 else leAt p 2 1) with
  | 0, 2 => some (s.ideKey (leAt p 4 1) (BitVec.ofNat 256 (leAt p 8 32)))
  | 1, 0x83 => some (s.tdiLock fn)
  | 1, 0x84 => some (s.report fn)
  | 1, 0x86 => some (s.tdiStart fn)
  | 1, 0x87 => some (s.tdiStop fn)
  | _, _ => none

/-- A vendor-defined request is dispatched by its vendor message number: 1 returns the log with or without a session; 2, 3 and 4 need
a session and hold a MACsec key, ETH_SEC_CTRL of a port, and a guard request (R561, R576, R579). Standard 3 is the PCI-SIG's. -/
def State.vendorServe (s : State) (doe : Bool) (sess : Option Nat) (v : Nat) (b : List Byte) : List Byte × State :=
  let p := vendorLoad b
  let yes := vendorHead v b (p.take 1)
  let bad := (spdmError v 7 0xFE, s)
  if leAt b 4 2 = 3 then
    match sess.isSome && doe, s.pciServe p with
    | true, some (x, s) => (vendorHead v b (p.take 1 ++ x), s)
    | _, _ => bad
  else match leAt p 0 1, sess with
  | 1, _ => (vendorHead v b (p.take 1 ++ s.measLog.entries.flatten), s)
  | 2, some _ => (yes, s.installSak (leAt p 1 1) ⟨leAt p 2 1 != 0, leAt p 3 1, BitVec.ofNat 256 (leAt p 4 32), BitVec.ofNat 96 (leAt p 36 12), BitVec.ofNat 32 (leAt p 48 4), 0⟩)
  | 3, some _ => (yes, s.setSa (leAt p 1 1) (leAt p 2 4))
  | 4, some i => (yes, s.guardServe (.ses i) (p.drop 1))
  | _, _ => bad

/-! ## One message -/

/-- The SPDM version that a message names is one of those supported, 1.0 for GET_VERSION. -/
def spdmVersion (b : List Byte) : Bool := if leAt b 1 1 = 0x84 then leAt b 0 1 == 0x10 else leAt b 0 1 == 0x12 || leAt b 0 1 == 0x13

/-- Requests that negotiate: not in a session. -/
def spdmOpens (c : Nat) : Bool := c == 0x84 || c == 0xE1 || c == 0xE3 || c == 0xE4

/-- Requests of a session. -/
def spdmInner (c : Nat) : Bool := c == 0xE5 || c == 0xE8 || c == 0xE9 || c == 0xEC

/-- The steps of negotiation that must have been taken before a request. -/
def spdmNeeds (c : Nat) : Nat := if c = 0x84 then 0 else if c = 0xE1 then 1 else if c = 0xE3 then 2 else 3

/-- A request other than a chunk: its response (R575). -/
def State.spdmCore (s : State) (doe : Bool) (sess : Option Nat) (b : List Byte) : List Byte × State :=
  let v := leAt b 0 1
  let c := leAt b 1 1
  if !spdmVersion b then (spdmError 0x12 0x41 0, s)
  else if (s.spdmOf doe).phase < spdmNeeds c || (spdmOpens c && sess.isSome) || (spdmInner c && sess.isNone) then (spdmError v 4 0, s)
  else if c ≠ 0xE5 && (match sess with | some i => !s.sessUp i | none => false) then (spdmError v 4 0, s)
  else
    match c, sess with
    | 0x84, _ => s.getVersion doe
    | 0xE1, _ => s.getCapabilities doe v
    | 0xE3, _ => s.negotiate doe v
    | 0x81, _ => (spdmHead v 0x01 0 1 ++ sha384 s.certs, s)
    | 0x82, _ => s.getCertificate v b
    | 0x83, _ => s.challenge v b
    | 0xE0, _ => s.getMeasurements v b
    | 0xE4, _ => s.keyExchange doe v b
    | 0xE5, some i => s.finish v i b
    | 0xE9, _ => (spdmHead v 0x69 (leAt b 2 1) (leAt b 3 1), s)
    | 0xE8, _ => (spdmHead v 0x68 0 0, s)
    | 0xEC, some i => s.endSession v i
    | 0xFE, _ => s.vendorServe doe sess v b
    | _, _ => (spdmError v 7 c, s)

/-- CHUNK_SEND: the message is collected, and run once its last chunk has come. -/
def State.chunkSend (s : State) (doe : Bool) (sess : Option Nat) (b : List Byte) : List Byte × State :=
  let first := leAt b 4 2 = 0
  let chunk := (b.drop (if first then 16 else 12)).take (leAt b 8 4)
  let all := (if first then [] else (s.spdmOf doe).taken) ++ chunk
  let ack := spdmHead (leAt b 0 1) 0x05 0 (leAt b 3 1) ++ natLe 2 (leAt b 4 2)
  if !bit (leAt b 2 1) 0 then (ack, s.modSpdm doe fun c => { c with taken := all })
  else
    let (r, s) := (s.modSpdm doe fun c => { c with taken := [] }).spdmCore doe sess all
    (ack ++ r, s)

/-- CHUNK_GET: the next chunk of a large response; the last one carries the mark in its attributes. -/
def State.chunkGet (s : State) (doe : Bool) (b : List Byte) : List Byte × State :=
  let left := (s.spdmOf doe).left
  if left.isEmpty then (spdmError (leAt b 0 1) 4 0, s)
  else
    let n := Nat.max 1 Config.spdmMax
    let chunk := left.take n
    let rest := left.drop n
    (spdmHead (leAt b 0 1) 0x06 (b2n rest.isEmpty) (leAt b 3 1) ++ natLe 2 (leAt b 4 2) ++ natLe 2 0 ++ natLe 4 chunk.length ++
      (if leAt b 4 2 = 0 then natLe 4 left.length else []) ++ chunk, s.modSpdm doe fun c => { c with left := rest })

/-- Any request: a response too long to be sent whole waits for CHUNK_GET. -/
def State.spdmServe (s : State) (doe : Bool) (sess : Option Nat) (b : List Byte) : State :=
  let v := leAt b 0 1
  let ready := decide (3 ≤ (s.spdmOf doe).phase)
  match leAt b 1 1 with
  | 0x86 => let (r, s) := if ready then s.chunkGet doe b else (spdmError v 4 0, s); s.spdmOut doe sess r
  | c =>
    let (r, s) := if c ≠ 0x85 then s.spdmCore doe sess b else if ready then s.chunkSend doe sess b else (spdmError v 4 0, s)
    if r.length ≤ Config.spdmMax then s.spdmOut doe sess r
    else (s.modSpdm doe fun x => { x with left := r }).spdmOut doe sess (spdmError v 0x0F 0 ++ natLe 1 0)

/-- Whether a message can reach the guard: it runs, and the session is one of that transport. -/
def State.spdmReach (s : State) (m : SpdmMsg) : Bool :=
  s.guardRuns && match m.session with
    | none => true
    | some i => match s.sessOf i with | some x => x.doe == m.doe | none => false

/-- A message command: it runs where its bytes hold its request code. -/
def State.spdmMsg (s : State) (m : SpdmMsg) (code : Nat) : Res :=
  live s (if s.spdmReach m && decide (leAt m.bytes 1 1 = code) then s.spdmServe m.doe m.session m.bytes else s)

/-- GET_VERSION (R575). -/
def execGetVersion (m : SpdmMsg) (s : State) : Res := s.spdmMsg m 0x84

/-- GET_CAPABILITIES (R575). -/
def execGetCapabilities (m : SpdmMsg) (s : State) : Res := s.spdmMsg m 0xE1

/-- NEGOTIATE_ALGORITHMS (R575). -/
def execNegotiateAlgorithms (m : SpdmMsg) (s : State) : Res := s.spdmMsg m 0xE3

/-- GET_DIGESTS (R575). -/
def execGetDigests (m : SpdmMsg) (s : State) : Res := s.spdmMsg m 0x81

/-- GET_CERTIFICATE (R575). -/
def execGetCertificate (m : SpdmMsg) (s : State) : Res := s.spdmMsg m 0x82

/-- CHALLENGE (R575). -/
def execChallenge (m : SpdmMsg) (s : State) : Res := s.spdmMsg m 0x83

/-- GET_MEASUREMENTS (R576). -/
def execGetMeasurements (m : SpdmMsg) (s : State) : Res := s.spdmMsg m 0xE0

/-- KEY_EXCHANGE (R575). -/
def execKeyExchange (m : SpdmMsg) (s : State) : Res := s.spdmMsg m 0xE4

/-- FINISH (R575). -/
def execFinish (m : SpdmMsg) (s : State) : Res := s.spdmMsg m 0xE5

/-- KEY_UPDATE (R575). -/
def execKeyUpdate (m : SpdmMsg) (s : State) : Res := s.spdmMsg m 0xE9

/-- HEARTBEAT (R575). -/
def execHeartbeat (m : SpdmMsg) (s : State) : Res := s.spdmMsg m 0xE8

/-- END_SESSION (R577). -/
def execEndSession (m : SpdmMsg) (s : State) : Res := s.spdmMsg m 0xEC

/-- CHUNK_SEND (R575). -/
def execChunkSend (m : SpdmMsg) (s : State) : Res := s.spdmMsg m 0x85

/-- CHUNK_GET (R575). -/
def execChunkGet (m : SpdmMsg) (s : State) : Res := s.spdmMsg m 0x86

/-- VENDOR_DEFINED_REQUEST (R575). -/
def execVendorDefinedRequest (m : SpdmMsg) (s : State) : Res := s.spdmMsg m 0xFE

/-- GET_LOG: vendor message 0x01 (R576). -/
def execGetLog (m : SpdmMsg) (s : State) : Res :=
  if leAt (vendorLoad m.bytes) 0 1 = 1 then s.spdmMsg m 0xFE else .next s

/-- A message inside a session that is up, and on the DOE where asked. -/
def State.inSess (s : State) (i : Nat) (doe : Bool) (t : State) : Res :=
  live s (if s.guardRuns && s.sessUp i && (!doe || match s.sessOf i with | some x => x.doe | none => false) then t else s)

/-- XSAK: vendor message 0x02 (R579, R580). -/
def execXsak (session port : Nat) (tx : Bool) (an : Nat) (sak : BitVec 256) (salt : BitVec 96) (ssci : W32) (s : State) : Res :=
  s.inSess session false (s.installSak port ⟨tx, an, sak, salt, ssci, 0⟩)

/-- XSA_SET: vendor message 0x03 (R579). -/
def execXsaSet (session port : Nat) (value : W32) (s : State) : Res := s.inSess session false (s.setSa port value.toNat)

/-- Sends what a request inside a session on the DOE is answered with. -/
def State.sessAnswer (s : State) (i : Nat) (r : List Byte × State) : Res := s.inSess i true (r.2.spdmOut true (some i) r.1)

/-- LOCK_INTERFACE (R577). -/
def execLockInterface (session fn : Nat) (s : State) : Res := s.sessAnswer session (s.tdiLock fn)

/-- START_INTERFACE_REQUEST (R577). -/
def execStartInterfaceRequest (session fn : Nat) (s : State) : Res := s.sessAnswer session (s.tdiStart fn)

/-- STOP_INTERFACE_REQUEST (R577). -/
def execStopInterfaceRequest (session fn : Nat) (s : State) : Res := s.sessAnswer session (s.tdiStop fn)

/-- IDE_KM (R578). -/
def execIdeKm (session stream : Nat) (key : BitVec 256) (s : State) : Res := s.sessAnswer session (s.ideKey stream key)

end Sys2Proof.Machine
end

