-- ==== Sys2Proof/Machine/Dispatch.lean ====
section
/-! DEFINITION. The dispatcher: one arm per command, each a direct call of its meaning. -/

namespace Sys2Proof.Machine

/-- The effect of a command on everything but the queue. -/
def exec (i : Instr) (s : State) : Host.Outcome State Fault Refusal :=
  match i with
  | .doorbellPi ring bell rival => Sys2Proof.Machine.execDoorbellPi ring bell rival s
  | .doorbellCqHead ring bell rival => Sys2Proof.Machine.execDoorbellCqHead ring bell rival s
  | .doorbellEvqHead ring bell rival => Sys2Proof.Machine.execDoorbellEvqHead ring bell rival s
  | .descriptorFetch ring n => Sys2Proof.Machine.execDescriptorFetch ring n s
  | .descriptorAccept d => Sys2Proof.Machine.execDescriptorAccept d s
  | .descriptorComplete id => Sys2Proof.Machine.execDescriptorComplete id s
  | .msixUnmask fn vector => Sys2Proof.Machine.execMsixUnmask fn vector s
  | .nop id => Sys2Proof.Machine.execNop id s
  | .copy id => Sys2Proof.Machine.execCopy id s
  | .copyInline id => Sys2Proof.Machine.execCopyInline id s
  | .layerMark id => Sys2Proof.Machine.execLayerMark id s
  | .place id => Sys2Proof.Machine.execPlace id s
  | .prefetch id => Sys2Proof.Machine.execPrefetch id s
  | .prefetchEntryIssue id => Sys2Proof.Machine.execPrefetchEntryIssue id s
  | .matrix id => Sys2Proof.Machine.execMatrix id s
  | .stationaryLoad d e staged => Sys2Proof.Machine.execStationaryLoad d e staged s
  | .passStart d e gaps brake drain => Sys2Proof.Machine.execPassStart d e gaps brake drain s
  | .passSkip d e => Sys2Proof.Machine.execPassSkip d e s
  | .drainRowTake x => Sys2Proof.Machine.execDrainRowTake x s
  | .convert id => Sys2Proof.Machine.execConvert id s
  | .histInit id => Sys2Proof.Machine.execHistInit id s
  | .histClose id => Sys2Proof.Machine.execHistClose id s
  | .histRearm id => Sys2Proof.Machine.execHistRearm id s
  | .histClear id => Sys2Proof.Machine.execHistClear id s
  | .histFold id => Sys2Proof.Machine.execHistFold id s
  | .vector id => Sys2Proof.Machine.execVector id s
  | .veNop d v f => Sys2Proof.Machine.execVeNop d v f s
  | .ld d v f => Sys2Proof.Machine.execLd d v f s
  | .st d v f => Sys2Proof.Machine.execSt d v f s
  | .movi d v f => Sys2Proof.Machine.execMovi d v f s
  | .add d v f => Sys2Proof.Machine.execAdd d v f s
  | .sub d v f => Sys2Proof.Machine.execSub d v f s
  | .mul d v f => Sys2Proof.Machine.execMul d v f s
  | .fma d v f => Sys2Proof.Machine.execFma d v f s
  | .fnma d v f => Sys2Proof.Machine.execFnma d v f s
  | .max d v f => Sys2Proof.Machine.execMax d v f s
  | .min d v f => Sys2Proof.Machine.execMin d v f s
  | .maxnum d v f => Sys2Proof.Machine.execMaxnum d v f s
  | .minnum d v f => Sys2Proof.Machine.execMinnum d v f s
  | .abs d v f => Sys2Proof.Machine.execAbs d v f s
  | .neg d v f => Sys2Proof.Machine.execNeg d v f s
  | .sellt d v f => Sys2Proof.Machine.execSellt d v f s
  | .exp d v f => Sys2Proof.Machine.execExp d v f s
  | .rcp d v f => Sys2Proof.Machine.execRcp d v f s
  | .rsqrt d v f => Sys2Proof.Machine.execRsqrt d v f s
  | .ssum d v f => Sys2Proof.Machine.execSsum d v f s
  | .smaxa d v f => Sys2Proof.Machine.execSmaxa d v f s
  | .update id => Sys2Proof.Machine.execUpdate id s
  | .stageReplay id => Sys2Proof.Machine.execStageReplay id s
  | .gate id => Sys2Proof.Machine.execGate id s
  | .batchBuild id x => Sys2Proof.Machine.execBatchBuild id x s
  | .batchReplay d unit => Sys2Proof.Machine.execBatchReplay d unit s
  | .routerCombine d p src dst tokens width ofmt rnd sat srStep => Sys2Proof.Machine.execRouterCombine d p src dst tokens width ofmt rnd sat srStep s
  | .allreduce id => Sys2Proof.Machine.execAllreduce id s
  | .reduceScatter id => Sys2Proof.Machine.execReduceScatter id s
  | .allgather id => Sys2Proof.Machine.execAllgather id s
  | .shift id => Sys2Proof.Machine.execShift id s
  | .permute id => Sys2Proof.Machine.execPermute id s
  | .exchange id => Sys2Proof.Machine.execExchange id s
  | .ret id => Sys2Proof.Machine.execRet id s
  | .groupSet id => Sys2Proof.Machine.execGroupSet id s
  | .connCreate id => Sys2Proof.Machine.execConnCreate id s
  | .connModify id => Sys2Proof.Machine.execConnModify id s
  | .connDestroy id => Sys2Proof.Machine.execConnDestroy id s
  | .connQuery id => Sys2Proof.Machine.execConnQuery id s
  | .register id => Sys2Proof.Machine.execRegister id s
  | .invalidate id => Sys2Proof.Machine.execInvalidate id s
  | .write id => Sys2Proof.Machine.execWrite id s
  | .writeInline id => Sys2Proof.Machine.execWriteInline id s
  | .send id => Sys2Proof.Machine.execSend id s
  | .read id => Sys2Proof.Machine.execRead id s
  | .postBuf id => Sys2Proof.Machine.execPostBuf id s
  | .flashRead id => Sys2Proof.Machine.execFlashRead id s
  | .flashWrite id => Sys2Proof.Machine.execFlashWrite id s
  | .flashZero id => Sys2Proof.Machine.execFlashZero id s
  | .flashTrim id => Sys2Proof.Machine.execFlashTrim id s
  | .flashFlush id => Sys2Proof.Machine.execFlashFlush id s
  | .flashPieceComplete id piece x => Sys2Proof.Machine.execFlashPieceComplete id piece x s
  | .flashPieceTimeout id piece => Sys2Proof.Machine.execFlashPieceTimeout id piece s
  | .flashAbortTimeout port => Sys2Proof.Machine.execFlashAbortTimeout port s
  | .decode id => Sys2Proof.Machine.execDecode id s
  | .twin id => Sys2Proof.Machine.execTwin id s
  | .revert id => Sys2Proof.Machine.execRevert id s
  | .commit id => Sys2Proof.Machine.execCommit id s
  | .domainSet id => Sys2Proof.Machine.execDomainSet id s
  | .holdSet id => Sys2Proof.Machine.execHoldSet id s
  | .manifest id failPort => Sys2Proof.Machine.execManifest id failPort s
  | .manifestScan => Sys2Proof.Machine.execManifestScan s
  | .mbQuery m seq master => Sys2Proof.Machine.execMbQuery m seq master s
  | .mbPause m seq master => Sys2Proof.Machine.execMbPause m seq master s
  | .mbResume m seq master => Sys2Proof.Machine.execMbResume m seq master s
  | .mbReset m seq master => Sys2Proof.Machine.execMbReset m seq master s
  | .mbEcho m seq master => Sys2Proof.Machine.execMbEcho m seq master s
  | .mbGuard m seq master => Sys2Proof.Machine.execMbGuard m seq master s
  | .guardQuery r => Sys2Proof.Machine.execGuardQuery r s
  | .setClkLimit r => Sys2Proof.Machine.execSetClkLimit r s
  | .setCapCeil r => Sys2Proof.Machine.execSetCapCeil r s
  | .setCapSb r => Sys2Proof.Machine.execSetCapSb r s
  | .setTherm r => Sys2Proof.Machine.execSetTherm r s
  | .setDisc r => Sys2Proof.Machine.execSetDisc r s
  | .startDisc r => Sys2Proof.Machine.execStartDisc r s
  | .guardReset r => Sys2Proof.Machine.execGuardReset r s
  | .guardResetDelay => Sys2Proof.Machine.execGuardResetDelay s
  | .readLog r => Sys2Proof.Machine.execReadLog r s
  | .fwBegin r => Sys2Proof.Machine.execFwBegin r s
  | .fwWrite r => Sys2Proof.Machine.execFwWrite r s
  | .fwCommit r => Sys2Proof.Machine.execFwCommit r s
  | .debugNonce r => Sys2Proof.Machine.execDebugNonce r s
  | .debugUnlock r => Sys2Proof.Machine.execDebugUnlock r s
  | .svnAdvance r => Sys2Proof.Machine.execSvnAdvance r s
  | .getVersion m => Sys2Proof.Machine.execGetVersion m s
  | .getCapabilities m => Sys2Proof.Machine.execGetCapabilities m s
  | .negotiateAlgorithms m => Sys2Proof.Machine.execNegotiateAlgorithms m s
  | .getDigests m => Sys2Proof.Machine.execGetDigests m s
  | .getCertificate m => Sys2Proof.Machine.execGetCertificate m s
  | .challenge m => Sys2Proof.Machine.execChallenge m s
  | .getMeasurements m => Sys2Proof.Machine.execGetMeasurements m s
  | .keyExchange m => Sys2Proof.Machine.execKeyExchange m s
  | .finish m => Sys2Proof.Machine.execFinish m s
  | .keyUpdate m => Sys2Proof.Machine.execKeyUpdate m s
  | .heartbeat m => Sys2Proof.Machine.execHeartbeat m s
  | .endSession m => Sys2Proof.Machine.execEndSession m s
  | .chunkSend m => Sys2Proof.Machine.execChunkSend m s
  | .chunkGet m => Sys2Proof.Machine.execChunkGet m s
  | .vendorDefinedRequest m => Sys2Proof.Machine.execVendorDefinedRequest m s
  | .getLog m => Sys2Proof.Machine.execGetLog m s
  | .xsak session port tx an sak salt ssci => Sys2Proof.Machine.execXsak session port tx an sak salt ssci s
  | .xsaSet session port value => Sys2Proof.Machine.execXsaSet session port value s
  | .lockInterface session fn => Sys2Proof.Machine.execLockInterface session fn s
  | .ideKm session stream key => Sys2Proof.Machine.execIdeKm session stream key s
  | .measureObject obj => Sys2Proof.Machine.execMeasureObject obj s
  | .frameReceive d f => Sys2Proof.Machine.execFrameReceive d f s
  | .frameTransmit d => Sys2Proof.Machine.execFrameTransmit d s
  | .pauseFrameReceive d f => Sys2Proof.Machine.execPauseFrameReceive d f s
  | .pauseTimerExpire d prio => Sys2Proof.Machine.execPauseTimerExpire d prio s
  | .poolHighCross d prios => Sys2Proof.Machine.execPoolHighCross d prios s
  | .poolLowCross d prios => Sys2Proof.Machine.execPoolLowCross d prios s
  | .pauseRepeat d prio => Sys2Proof.Machine.execPauseRepeat d prio s
  | .ximelCapability d peer x => Sys2Proof.Machine.execXimelCapability d peer x s
  | .ximelDataReceive d seq ack x => Sys2Proof.Machine.execXimelDataReceive d seq ack x s
  | .ximelAckTimer d => Sys2Proof.Machine.execXimelAckTimer d s
  | .ximelNakReceive d x => Sys2Proof.Machine.execXimelNakReceive d x s
  | .ximelNakResend d => Sys2Proof.Machine.execXimelNakResend d s
  | .ximelReplayTimeout d => Sys2Proof.Machine.execXimelReplayTimeout d s
  | .laneFail d lane => Sys2Proof.Machine.execLaneFail d lane s
  | .narrowRequestRepeat d => Sys2Proof.Machine.execNarrowRequestRepeat d s
  | .narrowRequest d lanes x => Sys2Proof.Machine.execNarrowRequest d lanes x s
  | .narrowAck d lanes x => Sys2Proof.Machine.execNarrowAck d lanes x s
  | .narrowAckTimeout d => Sys2Proof.Machine.execNarrowAckTimeout d s
  | .narrowAlign d peerAck => Sys2Proof.Machine.execNarrowAlign d peerAck s
  | .narrowAlignFail d => Sys2Proof.Machine.execNarrowAlignFail d s
  | .widen d => Sys2Proof.Machine.execWiden d s
  | .widenTrainEnd d locked => Sys2Proof.Machine.execWidenTrainEnd d locked s
  | .widenRequest x => Sys2Proof.Machine.execWidenRequest x s
  | .widenAck x => Sys2Proof.Machine.execWidenAck x s
  | .retrain d => Sys2Proof.Machine.execRetrain d s
  | .retrainDeferEnd d => Sys2Proof.Machine.execRetrainDeferEnd d s
  | .portLinkUp d => Sys2Proof.Machine.execPortLinkUp d s
  | .portHoldoutTimeout d => Sys2Proof.Machine.execPortHoldoutTimeout d s
  | .sendPacket d k => Sys2Proof.Machine.execSendPacket d k s
  | .writePacket d k => Sys2Proof.Machine.execWritePacket d k s
  | .readReqPacket d k => Sys2Proof.Machine.execReadReqPacket d k s
  | .readRespPacket d k => Sys2Proof.Machine.execReadRespPacket d k s
  | .ackPacket d k => Sys2Proof.Machine.execAckPacket d k s
  | .nakPacket d k => Sys2Proof.Machine.execNakPacket d k s
  | .xtAckTimer d conn => Sys2Proof.Machine.execXtAckTimer d conn s
  | .xtNakResend d conn => Sys2Proof.Machine.execXtNakResend d conn s
  | .retransmitTimeout d conn => Sys2Proof.Machine.execRetransmitTimeout d conn s
  | .rnrWait d conn => Sys2Proof.Machine.execRnrWait d conn s
  | .readRetryTimeout d conn => Sys2Proof.Machine.execReadRetryTimeout d conn s
  | .contextFetch d conn ok => Sys2Proof.Machine.execContextFetch d conn ok s
  | .fenceRelease d conn => Sys2Proof.Machine.execFenceRelease d conn s
  | .receiveCompletion d conn => Sys2Proof.Machine.execReceiveCompletion d conn s
  | .xtDisable d => Sys2Proof.Machine.execXtDisable d s
  | .wheelDataFrame d f => Sys2Proof.Machine.execWheelDataFrame d f s
  | .wheelCreditFrame d f => Sys2Proof.Machine.execWheelCreditFrame d f s
  | .wheelCountsFrame d f => Sys2Proof.Machine.execWheelCountsFrame d f s
  | .wheelStartFrame d f => Sys2Proof.Machine.execWheelStartFrame d f s
  | .wheelAckFrame d f => Sys2Proof.Machine.execWheelAckFrame d f s
  | .wheelNakFrame d f => Sys2Proof.Machine.execWheelNakFrame d f s
  | .wheelReplayTimeout d => Sys2Proof.Machine.execWheelReplayTimeout d s
  | .collectiveTimeout id => Sys2Proof.Machine.execCollectiveTimeout id s
  | .wheelDisable d => Sys2Proof.Machine.execWheelDisable d s
  | .voteReady group => Sys2Proof.Machine.execVoteReady group s
  | .prepareFrame d f => Sys2Proof.Machine.execPrepareFrame d f s
  | .decideFrame d f => Sys2Proof.Machine.execDecideFrame d f s
  | .buddyPushStart group obj => Sys2Proof.Machine.execBuddyPushStart group obj s
  | .pushFrame d f => Sys2Proof.Machine.execPushFrame d f s
  | .pushRevertFrame d f => Sys2Proof.Machine.execPushRevertFrame d f s
  | .pushAckFrame d f => Sys2Proof.Machine.execPushAckFrame d f s
  | .cmtLinkAck d f => Sys2Proof.Machine.execCmtLinkAck d f s
  | .cmtLinkNak d f => Sys2Proof.Machine.execCmtLinkNak d f s
  | .commitStallTimer dom what commit => Sys2Proof.Machine.execCommitStallTimer dom what commit s
  | .memberLost dom rank => Sys2Proof.Machine.execMemberLost dom rank s
  | .queryFrame d f => Sys2Proof.Machine.execQueryFrame d f s
  | .reportFrame d f => Sys2Proof.Machine.execReportFrame d f s
  | .cmtDisable d => Sys2Proof.Machine.execCmtDisable d s
  | .driveEnumerate d accept lbas rate granted mqes mdts => Sys2Proof.Machine.execDriveEnumerate d accept lbas rate granted mqes mdts s
  | .refetchComplete d ok => Sys2Proof.Machine.execRefetchComplete d ok s
  | .sliceExpire d p => Sys2Proof.Machine.execSliceExpire d p s
  | .contextSwitch d p drainNs => Sys2Proof.Machine.execContextSwitch d p drainNs s
  | .partitionEnable d p slice => Sys2Proof.Machine.execPartitionEnable d p slice s
  | .partitionDisable d p => Sys2Proof.Machine.execPartitionDisable d p s
  | .partMaskWrite d p value master => Sys2Proof.Machine.execPartMaskWrite d p value master s
  | .weirGrant d path link elapsedNs waiting => Sys2Proof.Machine.execWeirGrant d path link elapsedNs waiting s
  | .servingEnable p value => Sys2Proof.Machine.execServingEnable p value s
  | .servingStepBuild p => Sys2Proof.Machine.execServingStepBuild p s
  | .servingStepComplete p => Sys2Proof.Machine.execServingStepComplete p s
  | .bar2Read r => Sys2Proof.Machine.execBar2Read r s
  | .bar2Write r => Sys2Proof.Machine.execBar2Write r s
  | .peerRequest r isWrite => Sys2Proof.Machine.execPeerRequest r isWrite s
  | .cxlMemRead dpa => Sys2Proof.Machine.execCxlMemRead dpa s
  | .cxlMemWrite dpa data => Sys2Proof.Machine.execCxlMemWrite dpa data s
  | .cacheAnswer page data => Sys2Proof.Machine.execCacheAnswer page data s
  | .biasToShared => Sys2Proof.Machine.execBiasToShared s
  | .biasToDevice => Sys2Proof.Machine.execBiasToDevice s
  | .biasEnable => Sys2Proof.Machine.execBiasEnable s
  | .configRequest fn off wr => Sys2Proof.Machine.execConfigRequest fn off wr s
  | .activityWindow d a => Sys2Proof.Machine.execActivityWindow d a s
  | .sensorRead d mw => Sys2Proof.Machine.execSensorRead d mw s
  | .capAllocation => Sys2Proof.Machine.execCapAllocation s
  | .freqDecision => Sys2Proof.Machine.execFreqDecision s
  | .freqSwitch => Sys2Proof.Machine.execFreqSwitch s
  | .vrRdyRise d => Sys2Proof.Machine.execVrRdyRise d s
  | .vrRdyFall d => Sys2Proof.Machine.execVrRdyFall d s
  | .uvwAssert d => Sys2Proof.Machine.execUvwAssert d s
  | .uvwClear d => Sys2Proof.Machine.execUvwClear d s
  | .uvwHoldEnd => Sys2Proof.Machine.execUvwHoldEnd s
  | .clkModeWrite mode => Sys2Proof.Machine.execClkModeWrite mode s
  | .cadenceBroken cause => Sys2Proof.Machine.execCadenceBroken cause s
  | .capExceeded mw => Sys2Proof.Machine.execCapExceeded mw s
  | .thermalRead d sensors => Sys2Proof.Machine.execThermalRead d sensors s
  | .throttleStep d => Sys2Proof.Machine.execThrottleStep d s
  | .fanFail rpm => Sys2Proof.Machine.execFanFail rpm s
  | .fanRecover rpm => Sys2Proof.Machine.execFanRecover rpm s
  | .domainStart d dom => Sys2Proof.Machine.execDomainStart d dom s
  | .domainStop d dom => Sys2Proof.Machine.execDomainStop d dom s
  | .powerOn straps => Sys2Proof.Machine.execPowerOn straps s
  | .pwrgoodFall => Sys2Proof.Machine.execPwrgoodFall s
  | .coldReset pin straps => Sys2Proof.Machine.execColdReset pin straps s
  | .warmReset pin => Sys2Proof.Machine.execWarmReset pin s
  | .dieWarmReset d => Sys2Proof.Machine.execDieWarmReset d s
  | .hostFundamentalReset => Sys2Proof.Machine.execHostFundamentalReset s
  | .flrPf => Sys2Proof.Machine.execFlrPf s
  | .flrVf fn => Sys2Proof.Machine.execFlrVf fn s
  | .guardRestart d => Sys2Proof.Machine.execGuardRestart d s
  | .testReset => Sys2Proof.Machine.execTestReset s
  | .resetEnd => Sys2Proof.Machine.execResetEnd s
  | .guardBoot okA okB => Sys2Proof.Machine.execGuardBoot okA okB s
  | .dieEnumeration selfTestOk => Sys2Proof.Machine.execDieEnumeration selfTestOk s
  | .enumerationTimeout d => Sys2Proof.Machine.execEnumerationTimeout d s
  | .hostLinkTrain => Sys2Proof.Machine.execHostLinkTrain s
  | .portEnableAuto => Sys2Proof.Machine.execPortEnableAuto s
  | .discoveryFrame d f => Sys2Proof.Machine.execDiscoveryFrame d f s
  | .discoverySendTimer d => Sys2Proof.Machine.execDiscoverySendTimer d s
  | .discoveryValid => Sys2Proof.Machine.execDiscoveryValid s
  | .scrubRead d ts corrected uncorrectable => Sys2Proof.Machine.execScrubRead d ts corrected uncorrectable s
  | .poisonFound line demand => Sys2Proof.Machine.execPoisonFound line demand s
  | .ownerSearch d => Sys2Proof.Machine.execOwnerSearch d s
  | .rowRepair d bank row => Sys2Proof.Machine.execRowRepair d bank row s
  | .unitFence x unit cause => Sys2Proof.Machine.execUnitFence x unit cause s
  | .progressWatchdog x unit => Sys2Proof.Machine.execProgressWatchdog x unit s
  | .rasFence x value => Sys2Proof.Machine.execRasFence x value s
  | .rasReturn d value => Sys2Proof.Machine.execRasReturn d value s
  | .autoReturnTimer d unit => Sys2Proof.Machine.execAutoReturnTimer d unit s
  | .selfTestEnd d unit pass => Sys2Proof.Machine.execSelfTestEnd d unit pass s
  | .serviceEntry d unit => Sys2Proof.Machine.execServiceEntry d unit s
  | .meshChange => Sys2Proof.Machine.execMeshChange s
  | .meshChangeAck d => Sys2Proof.Machine.execMeshChangeAck d s
  | .ucieRetrain d value => Sys2Proof.Machine.execUcieRetrain d value s
  | .ucieRetrainEnd d k ok => Sys2Proof.Machine.execUcieRetrainEnd d k ok s
  | .torusLinkDown d => Sys2Proof.Machine.execTorusLinkDown d s
  | .torusLinkUp d => Sys2Proof.Machine.execTorusLinkUp d s
  | .linkDown d f => Sys2Proof.Machine.execLinkDown d f s
  | .linkUp d f => Sys2Proof.Machine.execLinkUp d f s
  | .pkgFailed d f => Sys2Proof.Machine.execPkgFailed d f s
  | .rasDeclare hi => Sys2Proof.Machine.execRasDeclare hi s
  | .ringEnable ring cfg => Sys2Proof.Machine.execRingEnable ring cfg s
  | .ringDisable ring => Sys2Proof.Machine.execRingDisable ring s
  | .evqEnable p cfg => Sys2Proof.Machine.execEvqEnable p cfg s
  | .seqActPeakClr d value => Sys2Proof.Machine.execSeqActPeakClr d value s
  | .rasLogClr d value => Sys2Proof.Machine.execRasLogClr d value s
  | .grdLostClr d value => Sys2Proof.Machine.execGrdLostClr d value s
  | .counterClear d off value incs => Sys2Proof.Machine.execCounterClear d off value incs s
  | .w1cClear d off value sets => Sys2Proof.Machine.execW1cClear d off value sets s
  | .registerWrite w rival => Sys2Proof.Machine.execRegisterWrite w rival s
  | .counterLoRead d off wide => Sys2Proof.Machine.execCounterLoRead d off wide s
  | .hbmTrainingEnd d ok => Sys2Proof.Machine.execHbmTrainingEnd d ok s
  | .hostLinkUp rate width flit memEn cacheEn => Sys2Proof.Machine.execHostLinkUp rate width flit memEn cacheEn s
  | .hostLinkDown => Sys2Proof.Machine.execHostLinkDown s
  | .portLinkDown d => Sys2Proof.Machine.execPortLinkDown d s
  | .ucieLinkLost d k => Sys2Proof.Machine.execUcieLinkLost d k s
  | .wheelAckTimer d => Sys2Proof.Machine.execWheelAckTimer d s
  | .wheelNakResend d => Sys2Proof.Machine.execWheelNakResend d s
  | .cmtReplayTimeout d => Sys2Proof.Machine.execCmtReplayTimeout d s
  | .cmtAckTimer d => Sys2Proof.Machine.execCmtAckTimer d s
  | .cmtNakResend d => Sys2Proof.Machine.execCmtNakResend d s
  | .startInterfaceRequest session fn => Sys2Proof.Machine.execStartInterfaceRequest session fn s
  | .stopInterfaceRequest session fn => Sys2Proof.Machine.execStopInterfaceRequest session fn s
  | .servingDisable p => Sys2Proof.Machine.execServingDisable p s
  | .mbBellRejected m seq master => Sys2Proof.Machine.execMbBellRejected m seq master s
  | .unknownService m seq master => Sys2Proof.Machine.execUnknownService m seq master s
  | .guardUnknownOpcode r => Sys2Proof.Machine.execGuardUnknownOpcode r s

end Sys2Proof.Machine
end

