-- ==== Sys2Proof/Laws/Lists.lean ====
section
/-! SUPPORT. Laws of the sorted lists of keyed values: what a key reads as after a key is listed or taken out. -/

namespace Sys2Proof.Machine

theorem kvFind_kvPut_same {α : Type} (l : List (Nat × α)) (k : Nat) (v : α) : kvFind (kvPut l k v) k = some v := by
  induction l with
  | nil => simp [kvPut, kvFind]
  | cons x l ih =>
    simp only [kvPut]
    split
    · simp [kvFind]
    · split
      · simp [kvFind]
      · rename_i h1 h2
        simp only [kvFind, ih]
        rw [if_neg (fun h => h2 h.symm)]

theorem kvFind_kvPut_other {α : Type} (l : List (Nat × α)) (k j : Nat) (v : α) (h : j ≠ k) :
    kvFind (kvPut l k v) j = kvFind l j := by
  induction l with
  | nil => simp [kvPut, kvFind, Ne.symm h]
  | cons x l ih =>
    simp only [kvPut]
    split
    · simp [kvFind, Ne.symm h]
    · split
      · rename_i h2
        subst h2
        simp [kvFind, Ne.symm h]
      · simp only [kvFind, ih]

/-- Every key of a list lies at or above a bound. -/
def kvFrom {α : Type} (lo : Nat) (l : List (Nat × α)) : Prop := ∀ x ∈ l, lo ≤ x.1

/-- The keys of a list rise strictly. -/
def kvSorted {α : Type} : List (Nat × α) → Prop
  | [] => True
  | x :: l => kvFrom (x.1 + 1) l ∧ kvSorted l

theorem kvFind_none_of_from {α : Type} {lo : Nat} {l : List (Nat × α)} (h : kvFrom lo l) {k : Nat} (hk : k < lo) :
    kvFind l k = none := by
  induction l with
  | nil => rfl
  | cons x l ih =>
    have hx := h x (by simp)
    have hl : kvFrom lo l := fun y hy => h y (by simp [hy])
    simp only [kvFind]
    rw [if_neg (by omega)]
    exact ih hl

theorem kvFind_kvErase_same {α : Type} {l : List (Nat × α)} (h : kvSorted l) (k : Nat) : kvFind (kvErase l k) k = none := by
  induction l with
  | nil => rfl
  | cons x l ih =>
    simp only [kvErase]
    split
    · rename_i hk
      exact kvFind_none_of_from h.1 (by omega)
    · rename_i hk
      simp only [kvFind]
      rw [if_neg hk]
      exact ih h.2

theorem kvFind_kvErase_other {α : Type} (l : List (Nat × α)) (k j : Nat) (h : j ≠ k) : kvFind (kvErase l k) j = kvFind l j := by
  induction l with
  | nil => rfl
  | cons x l ih =>
    simp only [kvErase]
    split
    · rename_i hk
      subst hk
      simp [kvFind, Ne.symm h]
    · simp only [kvFind, ih]

theorem kvGet_kvSet_same {α : Type} [DecidableEq α] (d : α) {l : List (Nat × α)} (h : kvSorted l) (k : Nat) (v : α) :
    kvGet d (kvSet d l k v) k = v := by
  unfold kvGet kvSet
  split
  · rename_i hv
    rw [kvFind_kvErase_same h]
    exact hv.symm
  · rw [kvFind_kvPut_same]
    rfl

theorem kvGet_kvSet_other {α : Type} [DecidableEq α] (d d' : α) (l : List (Nat × α)) (k j : Nat) (v : α) (h : j ≠ k) :
    kvGet d (kvSet d' l k v) j = kvGet d l j := by
  unfold kvGet kvSet
  split
  · rw [kvFind_kvErase_other _ _ _ h]
  · rw [kvFind_kvPut_other _ _ _ _ h]

theorem kvFrom_kvPut {α : Type} {lo : Nat} {l : List (Nat × α)} (h : kvFrom lo l) {k : Nat} (hk : lo ≤ k) (v : α) :
    kvFrom lo (kvPut l k v) := by
  induction l with
  | nil => intro x hx; simp [kvPut] at hx; simp [hx, hk]
  | cons y l ih =>
    have hy := h y (by simp)
    have hl : kvFrom lo l := fun z hz => h z (by simp [hz])
    simp only [kvPut]
    split
    · intro x hx
      simp at hx
      rcases hx with rfl | rfl | hx
      · exact hk
      · exact hy
      · exact hl x hx
    · split
      · intro x hx
        simp at hx
        rcases hx with rfl | hx
        · exact hk
        · exact hl x hx
      · intro x hx
        simp at hx
        rcases hx with rfl | hx
        · exact hy
        · exact ih hl x hx

theorem kvSorted_kvPut {α : Type} {l : List (Nat × α)} (h : kvSorted l) (k : Nat) (v : α) : kvSorted (kvPut l k v) := by
  induction l with
  | nil => exact ⟨fun x hx => by simp at hx, trivial⟩
  | cons y l ih =>
    simp only [kvPut]
    split
    · rename_i hk
      refine ⟨fun x hx => ?_, h⟩
      simp at hx
      rcases hx with rfl | hx
      · exact hk
      · have := h.1 x hx
        simp only at this ⊢
        omega
    · split
      · rename_i hk
        refine ⟨?_, h.2⟩
        have := h.1
        rw [← hk] at this
        exact this
      · rename_i h1 h2
        exact ⟨kvFrom_kvPut h.1 (by omega) v, ih h.2⟩

end Sys2Proof.Machine
end

