-- ==== Sys2Proof/Laws/State.lean ====
section
/-! SUPPORT. What the basic updates leave in each field of the state, one lemma for each update and field. -/

namespace Sys2Proof.Machine

namespace State

variable (s : State)

@[simp] theorem setReg_pending (d off : Nat) (v : W32) : (s.setReg d off v).pending = s.pending := rfl
@[simp] theorem setReg_part (d off : Nat) (v : W32) : (s.setReg d off v).part = s.part := rfl
@[simp] theorem setReg_mem (d off : Nat) (v : W32) : (s.setReg d off v).mem = s.mem := rfl
@[simp] theorem setReg_poison (d off : Nat) (v : W32) : (s.setReg d off v).poison = s.poison := rfl
@[simp] theorem setReg_wiped (d off : Nat) (v : W32) : (s.setReg d off v).wiped = s.wiped := rfl
@[simp] theorem setReg_ctrs (d off : Nat) (v : W32) : (s.setReg d off v).ctrs = s.ctrs := rfl
@[simp] theorem setReg_freeCtr (d off : Nat) (v : W32) : (s.setReg d off v).freeCtr = s.freeCtr := rfl
@[simp] theorem setReg_refCount (d off : Nat) (v : W32) : (s.setReg d off v).refCount = s.refCount := rfl
@[simp] theorem setReg_out (d off : Nat) (v : W32) : (s.setReg d off v).out = s.out := rfl
@[simp] theorem setReg_seq (d off : Nat) (v : W32) : (s.setReg d off v).seq = s.seq := rfl
@[simp] theorem setReg_groups (d off : Nat) (v : W32) : (s.setReg d off v).groups = s.groups := rfl
@[simp] theorem setReg_doms (d off : Nat) (v : W32) : (s.setReg d off v).doms = s.doms := rfl
@[simp] theorem setReg_lists (d off : Nat) (v : W32) : (s.setReg d off v).lists = s.lists := rfl
@[simp] theorem setReg_refetch (d off : Nat) (v : W32) : (s.setReg d off v).refetch = s.refetch := rfl
@[simp] theorem setReg_drives (d off : Nat) (v : W32) : (s.setReg d off v).drives = s.drives := rfl
@[simp] theorem setReg_flash (d off : Nat) (v : W32) : (s.setReg d off v).flash = s.flash := rfl
@[simp] theorem setReg_dirty (d off : Nat) (v : W32) : (s.setReg d off v).dirty = s.dirty := rfl
@[simp] theorem setReg_xfers (d off : Nat) (v : W32) : (s.setReg d off v).xfers = s.xfers := rfl
@[simp] theorem setReg_measuring (d off : Nat) (v : W32) : (s.setReg d off v).measuring = s.measuring := rfl
@[simp] theorem setReg_measLog (d off : Nat) (v : W32) : (s.setReg d off v).measLog = s.measLog := rfl
@[simp] theorem setReg_kept (d off : Nat) (v : W32) : (s.setReg d off v).kept = s.kept := rfl
@[simp] theorem setReg_actStale (d off : Nat) (v : W32) : (s.setReg d off v).actStale = s.actStale := rfl
@[simp] theorem setReg_actSum (d off : Nat) (v : W32) : (s.setReg d off v).actSum = s.actSum := rfl
@[simp] theorem setReg_engs (d off : Nat) (v : W32) : (s.setReg d off v).engs = s.engs := rfl
@[simp] theorem setReg_ves (d off : Nat) (v : W32) : (s.setReg d off v).ves = s.ves := rfl
@[simp] theorem setReg_folds (d off : Nat) (v : W32) : (s.setReg d off v).folds = s.folds := rfl
@[simp] theorem setReg_aq (d off : Nat) (v : W32) : (s.setReg d off v).aq = s.aq := rfl
@[simp] theorem setReg_batches (d off : Nat) (v : W32) : (s.setReg d off v).batches = s.batches := rfl
@[simp] theorem setReg_cnvLast (d off : Nat) (v : W32) : (s.setReg d off v).cnvLast = s.cnvLast := rfl
@[simp] theorem setReg_eths (d off : Nat) (v : W32) : (s.setReg d off v).eths = s.eths := rfl
@[simp] theorem setReg_wires (d off : Nat) (v : W32) : (s.setReg d off v).wires = s.wires := rfl
@[simp] theorem setReg_xt (d off : Nat) (v : W32) : (s.setReg d off v).xt = s.xt := rfl
@[simp] theorem setReg_torus (d off : Nat) (v : W32) : (s.setReg d off v).torus = s.torus := rfl
@[simp] theorem setReg_whl (d off : Nat) (v : W32) : (s.setReg d off v).whl = s.whl := rfl
@[simp] theorem setReg_srvs (d off : Nat) (v : W32) : (s.setReg d off v).srvs = s.srvs := rfl
@[simp] theorem setReg_buckets (d off : Nat) (v : W32) : (s.setReg d off v).buckets = s.buckets := rfl
@[simp] theorem setReg_lastGrant (d off : Nat) (v : W32) : (s.setReg d off v).lastGrant = s.lastGrant := rfl
@[simp] theorem setReg_hst (d off : Nat) (v : W32) : (s.setReg d off v).hst = s.hst := rfl
@[simp] theorem setReg_mbSeq (d off : Nat) (v : W32) : (s.setReg d off v).mbSeq = s.mbSeq := rfl
@[simp] theorem setReg_pwr (d off : Nat) (v : W32) : (s.setReg d off v).pwr = s.pwr := rfl
@[simp] theorem setReg_rst (d off : Nat) (v : W32) : (s.setReg d off v).rst = s.rst := rfl
@[simp] theorem setReg_disc (d off : Nat) (v : W32) : (s.setReg d off v).disc = s.disc := rfl
@[simp] theorem setReg_grd (d off : Nat) (v : W32) : (s.setReg d off v).grd = s.grd := rfl
@[simp] theorem setReg_ras (d off : Nat) (v : W32) : (s.setReg d off v).ras = s.ras := rfl
@[simp] theorem setReg_tripped (d off : Nat) (v : W32) : (s.setReg d off v).tripped = s.tripped := rfl

@[simp] theorem setRegN_pending (d off v : Nat) : (s.setRegN d off v).pending = s.pending := rfl
@[simp] theorem setRegN_part (d off v : Nat) : (s.setRegN d off v).part = s.part := rfl
@[simp] theorem setRegN_mem (d off v : Nat) : (s.setRegN d off v).mem = s.mem := rfl
@[simp] theorem setRegN_poison (d off v : Nat) : (s.setRegN d off v).poison = s.poison := rfl
@[simp] theorem setRegN_wiped (d off v : Nat) : (s.setRegN d off v).wiped = s.wiped := rfl
@[simp] theorem setRegN_ctrs (d off v : Nat) : (s.setRegN d off v).ctrs = s.ctrs := rfl
@[simp] theorem setRegN_freeCtr (d off v : Nat) : (s.setRegN d off v).freeCtr = s.freeCtr := rfl
@[simp] theorem setRegN_refCount (d off v : Nat) : (s.setRegN d off v).refCount = s.refCount := rfl
@[simp] theorem setRegN_out (d off v : Nat) : (s.setRegN d off v).out = s.out := rfl
@[simp] theorem setRegN_seq (d off v : Nat) : (s.setRegN d off v).seq = s.seq := rfl
@[simp] theorem setRegN_groups (d off v : Nat) : (s.setRegN d off v).groups = s.groups := rfl
@[simp] theorem setRegN_doms (d off v : Nat) : (s.setRegN d off v).doms = s.doms := rfl
@[simp] theorem setRegN_lists (d off v : Nat) : (s.setRegN d off v).lists = s.lists := rfl
@[simp] theorem setRegN_refetch (d off v : Nat) : (s.setRegN d off v).refetch = s.refetch := rfl
@[simp] theorem setRegN_drives (d off v : Nat) : (s.setRegN d off v).drives = s.drives := rfl
@[simp] theorem setRegN_flash (d off v : Nat) : (s.setRegN d off v).flash = s.flash := rfl
@[simp] theorem setRegN_dirty (d off v : Nat) : (s.setRegN d off v).dirty = s.dirty := rfl
@[simp] theorem setRegN_xfers (d off v : Nat) : (s.setRegN d off v).xfers = s.xfers := rfl
@[simp] theorem setRegN_measuring (d off v : Nat) : (s.setRegN d off v).measuring = s.measuring := rfl
@[simp] theorem setRegN_measLog (d off v : Nat) : (s.setRegN d off v).measLog = s.measLog := rfl
@[simp] theorem setRegN_kept (d off v : Nat) : (s.setRegN d off v).kept = s.kept := rfl
@[simp] theorem setRegN_actStale (d off v : Nat) : (s.setRegN d off v).actStale = s.actStale := rfl
@[simp] theorem setRegN_actSum (d off v : Nat) : (s.setRegN d off v).actSum = s.actSum := rfl
@[simp] theorem setRegN_engs (d off v : Nat) : (s.setRegN d off v).engs = s.engs := rfl
@[simp] theorem setRegN_ves (d off v : Nat) : (s.setRegN d off v).ves = s.ves := rfl
@[simp] theorem setRegN_folds (d off v : Nat) : (s.setRegN d off v).folds = s.folds := rfl
@[simp] theorem setRegN_aq (d off v : Nat) : (s.setRegN d off v).aq = s.aq := rfl
@[simp] theorem setRegN_batches (d off v : Nat) : (s.setRegN d off v).batches = s.batches := rfl
@[simp] theorem setRegN_cnvLast (d off v : Nat) : (s.setRegN d off v).cnvLast = s.cnvLast := rfl
@[simp] theorem setRegN_eths (d off v : Nat) : (s.setRegN d off v).eths = s.eths := rfl
@[simp] theorem setRegN_wires (d off v : Nat) : (s.setRegN d off v).wires = s.wires := rfl
@[simp] theorem setRegN_xt (d off v : Nat) : (s.setRegN d off v).xt = s.xt := rfl
@[simp] theorem setRegN_torus (d off v : Nat) : (s.setRegN d off v).torus = s.torus := rfl
@[simp] theorem setRegN_whl (d off v : Nat) : (s.setRegN d off v).whl = s.whl := rfl
@[simp] theorem setRegN_srvs (d off v : Nat) : (s.setRegN d off v).srvs = s.srvs := rfl
@[simp] theorem setRegN_buckets (d off v : Nat) : (s.setRegN d off v).buckets = s.buckets := rfl
@[simp] theorem setRegN_lastGrant (d off v : Nat) : (s.setRegN d off v).lastGrant = s.lastGrant := rfl
@[simp] theorem setRegN_hst (d off v : Nat) : (s.setRegN d off v).hst = s.hst := rfl
@[simp] theorem setRegN_mbSeq (d off v : Nat) : (s.setRegN d off v).mbSeq = s.mbSeq := rfl
@[simp] theorem setRegN_pwr (d off v : Nat) : (s.setRegN d off v).pwr = s.pwr := rfl
@[simp] theorem setRegN_rst (d off v : Nat) : (s.setRegN d off v).rst = s.rst := rfl
@[simp] theorem setRegN_disc (d off v : Nat) : (s.setRegN d off v).disc = s.disc := rfl
@[simp] theorem setRegN_grd (d off v : Nat) : (s.setRegN d off v).grd = s.grd := rfl
@[simp] theorem setRegN_ras (d off v : Nat) : (s.setRegN d off v).ras = s.ras := rfl
@[simp] theorem setRegN_tripped (d off v : Nat) : (s.setRegN d off v).tripped = s.tripped := rfl

@[simp] theorem setRf_pending (d off lo len v : Nat) : (s.setRf d off lo len v).pending = s.pending := rfl
@[simp] theorem setRf_part (d off lo len v : Nat) : (s.setRf d off lo len v).part = s.part := rfl
@[simp] theorem setRf_mem (d off lo len v : Nat) : (s.setRf d off lo len v).mem = s.mem := rfl
@[simp] theorem setRf_poison (d off lo len v : Nat) : (s.setRf d off lo len v).poison = s.poison := rfl
@[simp] theorem setRf_wiped (d off lo len v : Nat) : (s.setRf d off lo len v).wiped = s.wiped := rfl
@[simp] theorem setRf_ctrs (d off lo len v : Nat) : (s.setRf d off lo len v).ctrs = s.ctrs := rfl
@[simp] theorem setRf_freeCtr (d off lo len v : Nat) : (s.setRf d off lo len v).freeCtr = s.freeCtr := rfl
@[simp] theorem setRf_refCount (d off lo len v : Nat) : (s.setRf d off lo len v).refCount = s.refCount := rfl
@[simp] theorem setRf_out (d off lo len v : Nat) : (s.setRf d off lo len v).out = s.out := rfl
@[simp] theorem setRf_seq (d off lo len v : Nat) : (s.setRf d off lo len v).seq = s.seq := rfl
@[simp] theorem setRf_groups (d off lo len v : Nat) : (s.setRf d off lo len v).groups = s.groups := rfl
@[simp] theorem setRf_doms (d off lo len v : Nat) : (s.setRf d off lo len v).doms = s.doms := rfl
@[simp] theorem setRf_lists (d off lo len v : Nat) : (s.setRf d off lo len v).lists = s.lists := rfl
@[simp] theorem setRf_refetch (d off lo len v : Nat) : (s.setRf d off lo len v).refetch = s.refetch := rfl
@[simp] theorem setRf_drives (d off lo len v : Nat) : (s.setRf d off lo len v).drives = s.drives := rfl
@[simp] theorem setRf_flash (d off lo len v : Nat) : (s.setRf d off lo len v).flash = s.flash := rfl
@[simp] theorem setRf_dirty (d off lo len v : Nat) : (s.setRf d off lo len v).dirty = s.dirty := rfl
@[simp] theorem setRf_xfers (d off lo len v : Nat) : (s.setRf d off lo len v).xfers = s.xfers := rfl
@[simp] theorem setRf_measuring (d off lo len v : Nat) : (s.setRf d off lo len v).measuring = s.measuring := rfl
@[simp] theorem setRf_measLog (d off lo len v : Nat) : (s.setRf d off lo len v).measLog = s.measLog := rfl
@[simp] theorem setRf_kept (d off lo len v : Nat) : (s.setRf d off lo len v).kept = s.kept := rfl
@[simp] theorem setRf_actStale (d off lo len v : Nat) : (s.setRf d off lo len v).actStale = s.actStale := rfl
@[simp] theorem setRf_actSum (d off lo len v : Nat) : (s.setRf d off lo len v).actSum = s.actSum := rfl
@[simp] theorem setRf_engs (d off lo len v : Nat) : (s.setRf d off lo len v).engs = s.engs := rfl
@[simp] theorem setRf_ves (d off lo len v : Nat) : (s.setRf d off lo len v).ves = s.ves := rfl
@[simp] theorem setRf_folds (d off lo len v : Nat) : (s.setRf d off lo len v).folds = s.folds := rfl
@[simp] theorem setRf_aq (d off lo len v : Nat) : (s.setRf d off lo len v).aq = s.aq := rfl
@[simp] theorem setRf_batches (d off lo len v : Nat) : (s.setRf d off lo len v).batches = s.batches := rfl
@[simp] theorem setRf_cnvLast (d off lo len v : Nat) : (s.setRf d off lo len v).cnvLast = s.cnvLast := rfl
@[simp] theorem setRf_eths (d off lo len v : Nat) : (s.setRf d off lo len v).eths = s.eths := rfl
@[simp] theorem setRf_wires (d off lo len v : Nat) : (s.setRf d off lo len v).wires = s.wires := rfl
@[simp] theorem setRf_xt (d off lo len v : Nat) : (s.setRf d off lo len v).xt = s.xt := rfl
@[simp] theorem setRf_torus (d off lo len v : Nat) : (s.setRf d off lo len v).torus = s.torus := rfl
@[simp] theorem setRf_whl (d off lo len v : Nat) : (s.setRf d off lo len v).whl = s.whl := rfl
@[simp] theorem setRf_srvs (d off lo len v : Nat) : (s.setRf d off lo len v).srvs = s.srvs := rfl
@[simp] theorem setRf_buckets (d off lo len v : Nat) : (s.setRf d off lo len v).buckets = s.buckets := rfl
@[simp] theorem setRf_lastGrant (d off lo len v : Nat) : (s.setRf d off lo len v).lastGrant = s.lastGrant := rfl
@[simp] theorem setRf_hst (d off lo len v : Nat) : (s.setRf d off lo len v).hst = s.hst := rfl
@[simp] theorem setRf_mbSeq (d off lo len v : Nat) : (s.setRf d off lo len v).mbSeq = s.mbSeq := rfl
@[simp] theorem setRf_pwr (d off lo len v : Nat) : (s.setRf d off lo len v).pwr = s.pwr := rfl
@[simp] theorem setRf_rst (d off lo len v : Nat) : (s.setRf d off lo len v).rst = s.rst := rfl
@[simp] theorem setRf_disc (d off lo len v : Nat) : (s.setRf d off lo len v).disc = s.disc := rfl
@[simp] theorem setRf_grd (d off lo len v : Nat) : (s.setRf d off lo len v).grd = s.grd := rfl
@[simp] theorem setRf_ras (d off lo len v : Nat) : (s.setRf d off lo len v).ras = s.ras := rfl
@[simp] theorem setRf_tripped (d off lo len v : Nat) : (s.setRf d off lo len v).tripped = s.tripped := rfl

@[simp] theorem setRbit_pending (d off i : Nat) (b : Bool) : (s.setRbit d off i b).pending = s.pending := rfl
@[simp] theorem setRbit_part (d off i : Nat) (b : Bool) : (s.setRbit d off i b).part = s.part := rfl
@[simp] theorem setRbit_mem (d off i : Nat) (b : Bool) : (s.setRbit d off i b).mem = s.mem := rfl
@[simp] theorem setRbit_poison (d off i : Nat) (b : Bool) : (s.setRbit d off i b).poison = s.poison := rfl
@[simp] theorem setRbit_wiped (d off i : Nat) (b : Bool) : (s.setRbit d off i b).wiped = s.wiped := rfl
@[simp] theorem setRbit_ctrs (d off i : Nat) (b : Bool) : (s.setRbit d off i b).ctrs = s.ctrs := rfl
@[simp] theorem setRbit_freeCtr (d off i : Nat) (b : Bool) : (s.setRbit d off i b).freeCtr = s.freeCtr := rfl
@[simp] theorem setRbit_refCount (d off i : Nat) (b : Bool) : (s.setRbit d off i b).refCount = s.refCount := rfl
@[simp] theorem setRbit_out (d off i : Nat) (b : Bool) : (s.setRbit d off i b).out = s.out := rfl
@[simp] theorem setRbit_seq (d off i : Nat) (b : Bool) : (s.setRbit d off i b).seq = s.seq := rfl
@[simp] theorem setRbit_groups (d off i : Nat) (b : Bool) : (s.setRbit d off i b).groups = s.groups := rfl
@[simp] theorem setRbit_doms (d off i : Nat) (b : Bool) : (s.setRbit d off i b).doms = s.doms := rfl
@[simp] theorem setRbit_lists (d off i : Nat) (b : Bool) : (s.setRbit d off i b).lists = s.lists := rfl
@[simp] theorem setRbit_refetch (d off i : Nat) (b : Bool) : (s.setRbit d off i b).refetch = s.refetch := rfl
@[simp] theorem setRbit_drives (d off i : Nat) (b : Bool) : (s.setRbit d off i b).drives = s.drives := rfl
@[simp] theorem setRbit_flash (d off i : Nat) (b : Bool) : (s.setRbit d off i b).flash = s.flash := rfl
@[simp] theorem setRbit_dirty (d off i : Nat) (b : Bool) : (s.setRbit d off i b).dirty = s.dirty := rfl
@[simp] theorem setRbit_xfers (d off i : Nat) (b : Bool) : (s.setRbit d off i b).xfers = s.xfers := rfl
@[simp] theorem setRbit_measuring (d off i : Nat) (b : Bool) : (s.setRbit d off i b).measuring = s.measuring := rfl
@[simp] theorem setRbit_measLog (d off i : Nat) (b : Bool) : (s.setRbit d off i b).measLog = s.measLog := rfl
@[simp] theorem setRbit_kept (d off i : Nat) (b : Bool) : (s.setRbit d off i b).kept = s.kept := rfl
@[simp] theorem setRbit_actStale (d off i : Nat) (b : Bool) : (s.setRbit d off i b).actStale = s.actStale := rfl
@[simp] theorem setRbit_actSum (d off i : Nat) (b : Bool) : (s.setRbit d off i b).actSum = s.actSum := rfl
@[simp] theorem setRbit_engs (d off i : Nat) (b : Bool) : (s.setRbit d off i b).engs = s.engs := rfl
@[simp] theorem setRbit_ves (d off i : Nat) (b : Bool) : (s.setRbit d off i b).ves = s.ves := rfl
@[simp] theorem setRbit_folds (d off i : Nat) (b : Bool) : (s.setRbit d off i b).folds = s.folds := rfl
@[simp] theorem setRbit_aq (d off i : Nat) (b : Bool) : (s.setRbit d off i b).aq = s.aq := rfl
@[simp] theorem setRbit_batches (d off i : Nat) (b : Bool) : (s.setRbit d off i b).batches = s.batches := rfl
@[simp] theorem setRbit_cnvLast (d off i : Nat) (b : Bool) : (s.setRbit d off i b).cnvLast = s.cnvLast := rfl
@[simp] theorem setRbit_eths (d off i : Nat) (b : Bool) : (s.setRbit d off i b).eths = s.eths := rfl
@[simp] theorem setRbit_wires (d off i : Nat) (b : Bool) : (s.setRbit d off i b).wires = s.wires := rfl
@[simp] theorem setRbit_xt (d off i : Nat) (b : Bool) : (s.setRbit d off i b).xt = s.xt := rfl
@[simp] theorem setRbit_torus (d off i : Nat) (b : Bool) : (s.setRbit d off i b).torus = s.torus := rfl
@[simp] theorem setRbit_whl (d off i : Nat) (b : Bool) : (s.setRbit d off i b).whl = s.whl := rfl
@[simp] theorem setRbit_srvs (d off i : Nat) (b : Bool) : (s.setRbit d off i b).srvs = s.srvs := rfl
@[simp] theorem setRbit_buckets (d off i : Nat) (b : Bool) : (s.setRbit d off i b).buckets = s.buckets := rfl
@[simp] theorem setRbit_lastGrant (d off i : Nat) (b : Bool) : (s.setRbit d off i b).lastGrant = s.lastGrant := rfl
@[simp] theorem setRbit_hst (d off i : Nat) (b : Bool) : (s.setRbit d off i b).hst = s.hst := rfl
@[simp] theorem setRbit_mbSeq (d off i : Nat) (b : Bool) : (s.setRbit d off i b).mbSeq = s.mbSeq := rfl
@[simp] theorem setRbit_pwr (d off i : Nat) (b : Bool) : (s.setRbit d off i b).pwr = s.pwr := rfl
@[simp] theorem setRbit_rst (d off i : Nat) (b : Bool) : (s.setRbit d off i b).rst = s.rst := rfl
@[simp] theorem setRbit_disc (d off i : Nat) (b : Bool) : (s.setRbit d off i b).disc = s.disc := rfl
@[simp] theorem setRbit_grd (d off i : Nat) (b : Bool) : (s.setRbit d off i b).grd = s.grd := rfl
@[simp] theorem setRbit_ras (d off i : Nat) (b : Bool) : (s.setRbit d off i b).ras = s.ras := rfl
@[simp] theorem setRbit_tripped (d off i : Nat) (b : Bool) : (s.setRbit d off i b).tripped = s.tripped := rfl

@[simp] theorem setRegPair_pending (d off v : Nat) : (s.setRegPair d off v).pending = s.pending := rfl
@[simp] theorem setRegPair_part (d off v : Nat) : (s.setRegPair d off v).part = s.part := rfl
@[simp] theorem setRegPair_mem (d off v : Nat) : (s.setRegPair d off v).mem = s.mem := rfl
@[simp] theorem setRegPair_poison (d off v : Nat) : (s.setRegPair d off v).poison = s.poison := rfl
@[simp] theorem setRegPair_wiped (d off v : Nat) : (s.setRegPair d off v).wiped = s.wiped := rfl
@[simp] theorem setRegPair_ctrs (d off v : Nat) : (s.setRegPair d off v).ctrs = s.ctrs := rfl
@[simp] theorem setRegPair_freeCtr (d off v : Nat) : (s.setRegPair d off v).freeCtr = s.freeCtr := rfl
@[simp] theorem setRegPair_refCount (d off v : Nat) : (s.setRegPair d off v).refCount = s.refCount := rfl
@[simp] theorem setRegPair_out (d off v : Nat) : (s.setRegPair d off v).out = s.out := rfl
@[simp] theorem setRegPair_seq (d off v : Nat) : (s.setRegPair d off v).seq = s.seq := rfl
@[simp] theorem setRegPair_groups (d off v : Nat) : (s.setRegPair d off v).groups = s.groups := rfl
@[simp] theorem setRegPair_doms (d off v : Nat) : (s.setRegPair d off v).doms = s.doms := rfl
@[simp] theorem setRegPair_lists (d off v : Nat) : (s.setRegPair d off v).lists = s.lists := rfl
@[simp] theorem setRegPair_refetch (d off v : Nat) : (s.setRegPair d off v).refetch = s.refetch := rfl
@[simp] theorem setRegPair_drives (d off v : Nat) : (s.setRegPair d off v).drives = s.drives := rfl
@[simp] theorem setRegPair_flash (d off v : Nat) : (s.setRegPair d off v).flash = s.flash := rfl
@[simp] theorem setRegPair_dirty (d off v : Nat) : (s.setRegPair d off v).dirty = s.dirty := rfl
@[simp] theorem setRegPair_xfers (d off v : Nat) : (s.setRegPair d off v).xfers = s.xfers := rfl
@[simp] theorem setRegPair_measuring (d off v : Nat) : (s.setRegPair d off v).measuring = s.measuring := rfl
@[simp] theorem setRegPair_measLog (d off v : Nat) : (s.setRegPair d off v).measLog = s.measLog := rfl
@[simp] theorem setRegPair_kept (d off v : Nat) : (s.setRegPair d off v).kept = s.kept := rfl
@[simp] theorem setRegPair_actStale (d off v : Nat) : (s.setRegPair d off v).actStale = s.actStale := rfl
@[simp] theorem setRegPair_actSum (d off v : Nat) : (s.setRegPair d off v).actSum = s.actSum := rfl
@[simp] theorem setRegPair_engs (d off v : Nat) : (s.setRegPair d off v).engs = s.engs := rfl
@[simp] theorem setRegPair_ves (d off v : Nat) : (s.setRegPair d off v).ves = s.ves := rfl
@[simp] theorem setRegPair_folds (d off v : Nat) : (s.setRegPair d off v).folds = s.folds := rfl
@[simp] theorem setRegPair_aq (d off v : Nat) : (s.setRegPair d off v).aq = s.aq := rfl
@[simp] theorem setRegPair_batches (d off v : Nat) : (s.setRegPair d off v).batches = s.batches := rfl
@[simp] theorem setRegPair_cnvLast (d off v : Nat) : (s.setRegPair d off v).cnvLast = s.cnvLast := rfl
@[simp] theorem setRegPair_eths (d off v : Nat) : (s.setRegPair d off v).eths = s.eths := rfl
@[simp] theorem setRegPair_wires (d off v : Nat) : (s.setRegPair d off v).wires = s.wires := rfl
@[simp] theorem setRegPair_xt (d off v : Nat) : (s.setRegPair d off v).xt = s.xt := rfl
@[simp] theorem setRegPair_torus (d off v : Nat) : (s.setRegPair d off v).torus = s.torus := rfl
@[simp] theorem setRegPair_whl (d off v : Nat) : (s.setRegPair d off v).whl = s.whl := rfl
@[simp] theorem setRegPair_srvs (d off v : Nat) : (s.setRegPair d off v).srvs = s.srvs := rfl
@[simp] theorem setRegPair_buckets (d off v : Nat) : (s.setRegPair d off v).buckets = s.buckets := rfl
@[simp] theorem setRegPair_lastGrant (d off v : Nat) : (s.setRegPair d off v).lastGrant = s.lastGrant := rfl
@[simp] theorem setRegPair_hst (d off v : Nat) : (s.setRegPair d off v).hst = s.hst := rfl
@[simp] theorem setRegPair_mbSeq (d off v : Nat) : (s.setRegPair d off v).mbSeq = s.mbSeq := rfl
@[simp] theorem setRegPair_pwr (d off v : Nat) : (s.setRegPair d off v).pwr = s.pwr := rfl
@[simp] theorem setRegPair_rst (d off v : Nat) : (s.setRegPair d off v).rst = s.rst := rfl
@[simp] theorem setRegPair_disc (d off v : Nat) : (s.setRegPair d off v).disc = s.disc := rfl
@[simp] theorem setRegPair_grd (d off v : Nat) : (s.setRegPair d off v).grd = s.grd := rfl
@[simp] theorem setRegPair_ras (d off v : Nat) : (s.setRegPair d off v).ras = s.ras := rfl
@[simp] theorem setRegPair_tripped (d off v : Nat) : (s.setRegPair d off v).tripped = s.tripped := rfl

@[simp] theorem setRing_pending (r : Nat) (f : Nat → Nat) (v : Nat) : (s.setRing r f v).pending = s.pending := rfl
@[simp] theorem setRing_part (r : Nat) (f : Nat → Nat) (v : Nat) : (s.setRing r f v).part = s.part := rfl
@[simp] theorem setRing_mem (r : Nat) (f : Nat → Nat) (v : Nat) : (s.setRing r f v).mem = s.mem := rfl
@[simp] theorem setRing_poison (r : Nat) (f : Nat → Nat) (v : Nat) : (s.setRing r f v).poison = s.poison := rfl
@[simp] theorem setRing_wiped (r : Nat) (f : Nat → Nat) (v : Nat) : (s.setRing r f v).wiped = s.wiped := rfl
@[simp] theorem setRing_ctrs (r : Nat) (f : Nat → Nat) (v : Nat) : (s.setRing r f v).ctrs = s.ctrs := rfl
@[simp] theorem setRing_freeCtr (r : Nat) (f : Nat → Nat) (v : Nat) : (s.setRing r f v).freeCtr = s.freeCtr := rfl
@[simp] theorem setRing_refCount (r : Nat) (f : Nat → Nat) (v : Nat) : (s.setRing r f v).refCount = s.refCount := rfl
@[simp] theorem setRing_out (r : Nat) (f : Nat → Nat) (v : Nat) : (s.setRing r f v).out = s.out := rfl
@[simp] theorem setRing_seq (r : Nat) (f : Nat → Nat) (v : Nat) : (s.setRing r f v).seq = s.seq := rfl
@[simp] theorem setRing_groups (r : Nat) (f : Nat → Nat) (v : Nat) : (s.setRing r f v).groups = s.groups := rfl
@[simp] theorem setRing_doms (r : Nat) (f : Nat → Nat) (v : Nat) : (s.setRing r f v).doms = s.doms := rfl
@[simp] theorem setRing_lists (r : Nat) (f : Nat → Nat) (v : Nat) : (s.setRing r f v).lists = s.lists := rfl
@[simp] theorem setRing_refetch (r : Nat) (f : Nat → Nat) (v : Nat) : (s.setRing r f v).refetch = s.refetch := rfl
@[simp] theorem setRing_drives (r : Nat) (f : Nat → Nat) (v : Nat) : (s.setRing r f v).drives = s.drives := rfl
@[simp] theorem setRing_flash (r : Nat) (f : Nat → Nat) (v : Nat) : (s.setRing r f v).flash = s.flash := rfl
@[simp] theorem setRing_dirty (r : Nat) (f : Nat → Nat) (v : Nat) : (s.setRing r f v).dirty = s.dirty := rfl
@[simp] theorem setRing_xfers (r : Nat) (f : Nat → Nat) (v : Nat) : (s.setRing r f v).xfers = s.xfers := rfl
@[simp] theorem setRing_measuring (r : Nat) (f : Nat → Nat) (v : Nat) : (s.setRing r f v).measuring = s.measuring := rfl
@[simp] theorem setRing_measLog (r : Nat) (f : Nat → Nat) (v : Nat) : (s.setRing r f v).measLog = s.measLog := rfl
@[simp] theorem setRing_kept (r : Nat) (f : Nat → Nat) (v : Nat) : (s.setRing r f v).kept = s.kept := rfl
@[simp] theorem setRing_actStale (r : Nat) (f : Nat → Nat) (v : Nat) : (s.setRing r f v).actStale = s.actStale := rfl
@[simp] theorem setRing_actSum (r : Nat) (f : Nat → Nat) (v : Nat) : (s.setRing r f v).actSum = s.actSum := rfl
@[simp] theorem setRing_engs (r : Nat) (f : Nat → Nat) (v : Nat) : (s.setRing r f v).engs = s.engs := rfl
@[simp] theorem setRing_ves (r : Nat) (f : Nat → Nat) (v : Nat) : (s.setRing r f v).ves = s.ves := rfl
@[simp] theorem setRing_folds (r : Nat) (f : Nat → Nat) (v : Nat) : (s.setRing r f v).folds = s.folds := rfl
@[simp] theorem setRing_aq (r : Nat) (f : Nat → Nat) (v : Nat) : (s.setRing r f v).aq = s.aq := rfl
@[simp] theorem setRing_batches (r : Nat) (f : Nat → Nat) (v : Nat) : (s.setRing r f v).batches = s.batches := rfl
@[simp] theorem setRing_cnvLast (r : Nat) (f : Nat → Nat) (v : Nat) : (s.setRing r f v).cnvLast = s.cnvLast := rfl
@[simp] theorem setRing_eths (r : Nat) (f : Nat → Nat) (v : Nat) : (s.setRing r f v).eths = s.eths := rfl
@[simp] theorem setRing_wires (r : Nat) (f : Nat → Nat) (v : Nat) : (s.setRing r f v).wires = s.wires := rfl
@[simp] theorem setRing_xt (r : Nat) (f : Nat → Nat) (v : Nat) : (s.setRing r f v).xt = s.xt := rfl
@[simp] theorem setRing_torus (r : Nat) (f : Nat → Nat) (v : Nat) : (s.setRing r f v).torus = s.torus := rfl
@[simp] theorem setRing_whl (r : Nat) (f : Nat → Nat) (v : Nat) : (s.setRing r f v).whl = s.whl := rfl
@[simp] theorem setRing_srvs (r : Nat) (f : Nat → Nat) (v : Nat) : (s.setRing r f v).srvs = s.srvs := rfl
@[simp] theorem setRing_buckets (r : Nat) (f : Nat → Nat) (v : Nat) : (s.setRing r f v).buckets = s.buckets := rfl
@[simp] theorem setRing_lastGrant (r : Nat) (f : Nat → Nat) (v : Nat) : (s.setRing r f v).lastGrant = s.lastGrant := rfl
@[simp] theorem setRing_hst (r : Nat) (f : Nat → Nat) (v : Nat) : (s.setRing r f v).hst = s.hst := rfl
@[simp] theorem setRing_mbSeq (r : Nat) (f : Nat → Nat) (v : Nat) : (s.setRing r f v).mbSeq = s.mbSeq := rfl
@[simp] theorem setRing_pwr (r : Nat) (f : Nat → Nat) (v : Nat) : (s.setRing r f v).pwr = s.pwr := rfl
@[simp] theorem setRing_rst (r : Nat) (f : Nat → Nat) (v : Nat) : (s.setRing r f v).rst = s.rst := rfl
@[simp] theorem setRing_disc (r : Nat) (f : Nat → Nat) (v : Nat) : (s.setRing r f v).disc = s.disc := rfl
@[simp] theorem setRing_grd (r : Nat) (f : Nat → Nat) (v : Nat) : (s.setRing r f v).grd = s.grd := rfl
@[simp] theorem setRing_ras (r : Nat) (f : Nat → Nat) (v : Nat) : (s.setRing r f v).ras = s.ras := rfl
@[simp] theorem setRing_tripped (r : Nat) (f : Nat → Nat) (v : Nat) : (s.setRing r f v).tripped = s.tripped := rfl

@[simp] theorem setCtr_pending (d off v : Nat) : (s.setCtr d off v).pending = s.pending := rfl
@[simp] theorem setCtr_part (d off v : Nat) : (s.setCtr d off v).part = s.part := rfl
@[simp] theorem setCtr_mem (d off v : Nat) : (s.setCtr d off v).mem = s.mem := rfl
@[simp] theorem setCtr_poison (d off v : Nat) : (s.setCtr d off v).poison = s.poison := rfl
@[simp] theorem setCtr_wiped (d off v : Nat) : (s.setCtr d off v).wiped = s.wiped := rfl
@[simp] theorem setCtr_regs (d off v : Nat) : (s.setCtr d off v).regs = s.regs := rfl
@[simp] theorem setCtr_freeCtr (d off v : Nat) : (s.setCtr d off v).freeCtr = s.freeCtr := rfl
@[simp] theorem setCtr_refCount (d off v : Nat) : (s.setCtr d off v).refCount = s.refCount := rfl
@[simp] theorem setCtr_out (d off v : Nat) : (s.setCtr d off v).out = s.out := rfl
@[simp] theorem setCtr_seq (d off v : Nat) : (s.setCtr d off v).seq = s.seq := rfl
@[simp] theorem setCtr_groups (d off v : Nat) : (s.setCtr d off v).groups = s.groups := rfl
@[simp] theorem setCtr_doms (d off v : Nat) : (s.setCtr d off v).doms = s.doms := rfl
@[simp] theorem setCtr_lists (d off v : Nat) : (s.setCtr d off v).lists = s.lists := rfl
@[simp] theorem setCtr_refetch (d off v : Nat) : (s.setCtr d off v).refetch = s.refetch := rfl
@[simp] theorem setCtr_drives (d off v : Nat) : (s.setCtr d off v).drives = s.drives := rfl
@[simp] theorem setCtr_flash (d off v : Nat) : (s.setCtr d off v).flash = s.flash := rfl
@[simp] theorem setCtr_dirty (d off v : Nat) : (s.setCtr d off v).dirty = s.dirty := rfl
@[simp] theorem setCtr_xfers (d off v : Nat) : (s.setCtr d off v).xfers = s.xfers := rfl
@[simp] theorem setCtr_measuring (d off v : Nat) : (s.setCtr d off v).measuring = s.measuring := rfl
@[simp] theorem setCtr_measLog (d off v : Nat) : (s.setCtr d off v).measLog = s.measLog := rfl
@[simp] theorem setCtr_kept (d off v : Nat) : (s.setCtr d off v).kept = s.kept := rfl
@[simp] theorem setCtr_actStale (d off v : Nat) : (s.setCtr d off v).actStale = s.actStale := rfl
@[simp] theorem setCtr_actSum (d off v : Nat) : (s.setCtr d off v).actSum = s.actSum := rfl
@[simp] theorem setCtr_engs (d off v : Nat) : (s.setCtr d off v).engs = s.engs := rfl
@[simp] theorem setCtr_ves (d off v : Nat) : (s.setCtr d off v).ves = s.ves := rfl
@[simp] theorem setCtr_folds (d off v : Nat) : (s.setCtr d off v).folds = s.folds := rfl
@[simp] theorem setCtr_aq (d off v : Nat) : (s.setCtr d off v).aq = s.aq := rfl
@[simp] theorem setCtr_batches (d off v : Nat) : (s.setCtr d off v).batches = s.batches := rfl
@[simp] theorem setCtr_cnvLast (d off v : Nat) : (s.setCtr d off v).cnvLast = s.cnvLast := rfl
@[simp] theorem setCtr_eths (d off v : Nat) : (s.setCtr d off v).eths = s.eths := rfl
@[simp] theorem setCtr_wires (d off v : Nat) : (s.setCtr d off v).wires = s.wires := rfl
@[simp] theorem setCtr_xt (d off v : Nat) : (s.setCtr d off v).xt = s.xt := rfl
@[simp] theorem setCtr_torus (d off v : Nat) : (s.setCtr d off v).torus = s.torus := rfl
@[simp] theorem setCtr_whl (d off v : Nat) : (s.setCtr d off v).whl = s.whl := rfl
@[simp] theorem setCtr_srvs (d off v : Nat) : (s.setCtr d off v).srvs = s.srvs := rfl
@[simp] theorem setCtr_buckets (d off v : Nat) : (s.setCtr d off v).buckets = s.buckets := rfl
@[simp] theorem setCtr_lastGrant (d off v : Nat) : (s.setCtr d off v).lastGrant = s.lastGrant := rfl
@[simp] theorem setCtr_hst (d off v : Nat) : (s.setCtr d off v).hst = s.hst := rfl
@[simp] theorem setCtr_mbSeq (d off v : Nat) : (s.setCtr d off v).mbSeq = s.mbSeq := rfl
@[simp] theorem setCtr_pwr (d off v : Nat) : (s.setCtr d off v).pwr = s.pwr := rfl
@[simp] theorem setCtr_rst (d off v : Nat) : (s.setCtr d off v).rst = s.rst := rfl
@[simp] theorem setCtr_disc (d off v : Nat) : (s.setCtr d off v).disc = s.disc := rfl
@[simp] theorem setCtr_grd (d off v : Nat) : (s.setCtr d off v).grd = s.grd := rfl
@[simp] theorem setCtr_ras (d off v : Nat) : (s.setCtr d off v).ras = s.ras := rfl
@[simp] theorem setCtr_tripped (d off v : Nat) : (s.setCtr d off v).tripped = s.tripped := rfl

@[simp] theorem bump_pending (d off n : Nat) : (s.bump d off n).pending = s.pending := rfl
@[simp] theorem bump_part (d off n : Nat) : (s.bump d off n).part = s.part := rfl
@[simp] theorem bump_mem (d off n : Nat) : (s.bump d off n).mem = s.mem := rfl
@[simp] theorem bump_poison (d off n : Nat) : (s.bump d off n).poison = s.poison := rfl
@[simp] theorem bump_wiped (d off n : Nat) : (s.bump d off n).wiped = s.wiped := rfl
@[simp] theorem bump_regs (d off n : Nat) : (s.bump d off n).regs = s.regs := rfl
@[simp] theorem bump_freeCtr (d off n : Nat) : (s.bump d off n).freeCtr = s.freeCtr := rfl
@[simp] theorem bump_refCount (d off n : Nat) : (s.bump d off n).refCount = s.refCount := rfl
@[simp] theorem bump_out (d off n : Nat) : (s.bump d off n).out = s.out := rfl
@[simp] theorem bump_seq (d off n : Nat) : (s.bump d off n).seq = s.seq := rfl
@[simp] theorem bump_groups (d off n : Nat) : (s.bump d off n).groups = s.groups := rfl
@[simp] theorem bump_doms (d off n : Nat) : (s.bump d off n).doms = s.doms := rfl
@[simp] theorem bump_lists (d off n : Nat) : (s.bump d off n).lists = s.lists := rfl
@[simp] theorem bump_refetch (d off n : Nat) : (s.bump d off n).refetch = s.refetch := rfl
@[simp] theorem bump_drives (d off n : Nat) : (s.bump d off n).drives = s.drives := rfl
@[simp] theorem bump_flash (d off n : Nat) : (s.bump d off n).flash = s.flash := rfl
@[simp] theorem bump_dirty (d off n : Nat) : (s.bump d off n).dirty = s.dirty := rfl
@[simp] theorem bump_xfers (d off n : Nat) : (s.bump d off n).xfers = s.xfers := rfl
@[simp] theorem bump_measuring (d off n : Nat) : (s.bump d off n).measuring = s.measuring := rfl
@[simp] theorem bump_measLog (d off n : Nat) : (s.bump d off n).measLog = s.measLog := rfl
@[simp] theorem bump_kept (d off n : Nat) : (s.bump d off n).kept = s.kept := rfl
@[simp] theorem bump_actStale (d off n : Nat) : (s.bump d off n).actStale = s.actStale := rfl
@[simp] theorem bump_actSum (d off n : Nat) : (s.bump d off n).actSum = s.actSum := rfl
@[simp] theorem bump_engs (d off n : Nat) : (s.bump d off n).engs = s.engs := rfl
@[simp] theorem bump_ves (d off n : Nat) : (s.bump d off n).ves = s.ves := rfl
@[simp] theorem bump_folds (d off n : Nat) : (s.bump d off n).folds = s.folds := rfl
@[simp] theorem bump_aq (d off n : Nat) : (s.bump d off n).aq = s.aq := rfl
@[simp] theorem bump_batches (d off n : Nat) : (s.bump d off n).batches = s.batches := rfl
@[simp] theorem bump_cnvLast (d off n : Nat) : (s.bump d off n).cnvLast = s.cnvLast := rfl
@[simp] theorem bump_eths (d off n : Nat) : (s.bump d off n).eths = s.eths := rfl
@[simp] theorem bump_wires (d off n : Nat) : (s.bump d off n).wires = s.wires := rfl
@[simp] theorem bump_xt (d off n : Nat) : (s.bump d off n).xt = s.xt := rfl
@[simp] theorem bump_torus (d off n : Nat) : (s.bump d off n).torus = s.torus := rfl
@[simp] theorem bump_whl (d off n : Nat) : (s.bump d off n).whl = s.whl := rfl
@[simp] theorem bump_srvs (d off n : Nat) : (s.bump d off n).srvs = s.srvs := rfl
@[simp] theorem bump_buckets (d off n : Nat) : (s.bump d off n).buckets = s.buckets := rfl
@[simp] theorem bump_lastGrant (d off n : Nat) : (s.bump d off n).lastGrant = s.lastGrant := rfl
@[simp] theorem bump_hst (d off n : Nat) : (s.bump d off n).hst = s.hst := rfl
@[simp] theorem bump_mbSeq (d off n : Nat) : (s.bump d off n).mbSeq = s.mbSeq := rfl
@[simp] theorem bump_pwr (d off n : Nat) : (s.bump d off n).pwr = s.pwr := rfl
@[simp] theorem bump_rst (d off n : Nat) : (s.bump d off n).rst = s.rst := rfl
@[simp] theorem bump_disc (d off n : Nat) : (s.bump d off n).disc = s.disc := rfl
@[simp] theorem bump_grd (d off n : Nat) : (s.bump d off n).grd = s.grd := rfl
@[simp] theorem bump_ras (d off n : Nat) : (s.bump d off n).ras = s.ras := rfl
@[simp] theorem bump_tripped (d off n : Nat) : (s.bump d off n).tripped = s.tripped := rfl

@[simp] theorem fresh_pending : (s.fresh).2.pending = s.pending := rfl
@[simp] theorem fresh_part : (s.fresh).2.part = s.part := rfl
@[simp] theorem fresh_mem : (s.fresh).2.mem = s.mem := rfl
@[simp] theorem fresh_poison : (s.fresh).2.poison = s.poison := rfl
@[simp] theorem fresh_wiped : (s.fresh).2.wiped = s.wiped := rfl
@[simp] theorem fresh_regs : (s.fresh).2.regs = s.regs := rfl
@[simp] theorem fresh_ctrs : (s.fresh).2.ctrs = s.ctrs := rfl
@[simp] theorem fresh_refCount : (s.fresh).2.refCount = s.refCount := rfl
@[simp] theorem fresh_out : (s.fresh).2.out = s.out := rfl
@[simp] theorem fresh_seq : (s.fresh).2.seq = s.seq := rfl
@[simp] theorem fresh_groups : (s.fresh).2.groups = s.groups := rfl
@[simp] theorem fresh_doms : (s.fresh).2.doms = s.doms := rfl
@[simp] theorem fresh_lists : (s.fresh).2.lists = s.lists := rfl
@[simp] theorem fresh_refetch : (s.fresh).2.refetch = s.refetch := rfl
@[simp] theorem fresh_drives : (s.fresh).2.drives = s.drives := rfl
@[simp] theorem fresh_flash : (s.fresh).2.flash = s.flash := rfl
@[simp] theorem fresh_dirty : (s.fresh).2.dirty = s.dirty := rfl
@[simp] theorem fresh_xfers : (s.fresh).2.xfers = s.xfers := rfl
@[simp] theorem fresh_measuring : (s.fresh).2.measuring = s.measuring := rfl
@[simp] theorem fresh_measLog : (s.fresh).2.measLog = s.measLog := rfl
@[simp] theorem fresh_kept : (s.fresh).2.kept = s.kept := rfl
@[simp] theorem fresh_actStale : (s.fresh).2.actStale = s.actStale := rfl
@[simp] theorem fresh_actSum : (s.fresh).2.actSum = s.actSum := rfl
@[simp] theorem fresh_engs : (s.fresh).2.engs = s.engs := rfl
@[simp] theorem fresh_ves : (s.fresh).2.ves = s.ves := rfl
@[simp] theorem fresh_folds : (s.fresh).2.folds = s.folds := rfl
@[simp] theorem fresh_aq : (s.fresh).2.aq = s.aq := rfl
@[simp] theorem fresh_batches : (s.fresh).2.batches = s.batches := rfl
@[simp] theorem fresh_cnvLast : (s.fresh).2.cnvLast = s.cnvLast := rfl
@[simp] theorem fresh_eths : (s.fresh).2.eths = s.eths := rfl
@[simp] theorem fresh_wires : (s.fresh).2.wires = s.wires := rfl
@[simp] theorem fresh_xt : (s.fresh).2.xt = s.xt := rfl
@[simp] theorem fresh_torus : (s.fresh).2.torus = s.torus := rfl
@[simp] theorem fresh_whl : (s.fresh).2.whl = s.whl := rfl
@[simp] theorem fresh_srvs : (s.fresh).2.srvs = s.srvs := rfl
@[simp] theorem fresh_buckets : (s.fresh).2.buckets = s.buckets := rfl
@[simp] theorem fresh_lastGrant : (s.fresh).2.lastGrant = s.lastGrant := rfl
@[simp] theorem fresh_hst : (s.fresh).2.hst = s.hst := rfl
@[simp] theorem fresh_mbSeq : (s.fresh).2.mbSeq = s.mbSeq := rfl
@[simp] theorem fresh_pwr : (s.fresh).2.pwr = s.pwr := rfl
@[simp] theorem fresh_rst : (s.fresh).2.rst = s.rst := rfl
@[simp] theorem fresh_disc : (s.fresh).2.disc = s.disc := rfl
@[simp] theorem fresh_grd : (s.fresh).2.grd = s.grd := rfl
@[simp] theorem fresh_ras : (s.fresh).2.ras = s.ras := rfl
@[simp] theorem fresh_tripped : (s.fresh).2.tripped = s.tripped := rfl

@[simp] theorem freeVal_pending (w : Nat) : (s.freeVal w).2.pending = s.pending := rfl
@[simp] theorem freeVal_part (w : Nat) : (s.freeVal w).2.part = s.part := rfl
@[simp] theorem freeVal_mem (w : Nat) : (s.freeVal w).2.mem = s.mem := rfl
@[simp] theorem freeVal_poison (w : Nat) : (s.freeVal w).2.poison = s.poison := rfl
@[simp] theorem freeVal_wiped (w : Nat) : (s.freeVal w).2.wiped = s.wiped := rfl
@[simp] theorem freeVal_regs (w : Nat) : (s.freeVal w).2.regs = s.regs := rfl
@[simp] theorem freeVal_ctrs (w : Nat) : (s.freeVal w).2.ctrs = s.ctrs := rfl
@[simp] theorem freeVal_refCount (w : Nat) : (s.freeVal w).2.refCount = s.refCount := rfl
@[simp] theorem freeVal_out (w : Nat) : (s.freeVal w).2.out = s.out := rfl
@[simp] theorem freeVal_seq (w : Nat) : (s.freeVal w).2.seq = s.seq := rfl
@[simp] theorem freeVal_groups (w : Nat) : (s.freeVal w).2.groups = s.groups := rfl
@[simp] theorem freeVal_doms (w : Nat) : (s.freeVal w).2.doms = s.doms := rfl
@[simp] theorem freeVal_lists (w : Nat) : (s.freeVal w).2.lists = s.lists := rfl
@[simp] theorem freeVal_refetch (w : Nat) : (s.freeVal w).2.refetch = s.refetch := rfl
@[simp] theorem freeVal_drives (w : Nat) : (s.freeVal w).2.drives = s.drives := rfl
@[simp] theorem freeVal_flash (w : Nat) : (s.freeVal w).2.flash = s.flash := rfl
@[simp] theorem freeVal_dirty (w : Nat) : (s.freeVal w).2.dirty = s.dirty := rfl
@[simp] theorem freeVal_xfers (w : Nat) : (s.freeVal w).2.xfers = s.xfers := rfl
@[simp] theorem freeVal_measuring (w : Nat) : (s.freeVal w).2.measuring = s.measuring := rfl
@[simp] theorem freeVal_measLog (w : Nat) : (s.freeVal w).2.measLog = s.measLog := rfl
@[simp] theorem freeVal_kept (w : Nat) : (s.freeVal w).2.kept = s.kept := rfl
@[simp] theorem freeVal_actStale (w : Nat) : (s.freeVal w).2.actStale = s.actStale := rfl
@[simp] theorem freeVal_actSum (w : Nat) : (s.freeVal w).2.actSum = s.actSum := rfl
@[simp] theorem freeVal_engs (w : Nat) : (s.freeVal w).2.engs = s.engs := rfl
@[simp] theorem freeVal_ves (w : Nat) : (s.freeVal w).2.ves = s.ves := rfl
@[simp] theorem freeVal_folds (w : Nat) : (s.freeVal w).2.folds = s.folds := rfl
@[simp] theorem freeVal_aq (w : Nat) : (s.freeVal w).2.aq = s.aq := rfl
@[simp] theorem freeVal_batches (w : Nat) : (s.freeVal w).2.batches = s.batches := rfl
@[simp] theorem freeVal_cnvLast (w : Nat) : (s.freeVal w).2.cnvLast = s.cnvLast := rfl
@[simp] theorem freeVal_eths (w : Nat) : (s.freeVal w).2.eths = s.eths := rfl
@[simp] theorem freeVal_wires (w : Nat) : (s.freeVal w).2.wires = s.wires := rfl
@[simp] theorem freeVal_xt (w : Nat) : (s.freeVal w).2.xt = s.xt := rfl
@[simp] theorem freeVal_torus (w : Nat) : (s.freeVal w).2.torus = s.torus := rfl
@[simp] theorem freeVal_whl (w : Nat) : (s.freeVal w).2.whl = s.whl := rfl
@[simp] theorem freeVal_srvs (w : Nat) : (s.freeVal w).2.srvs = s.srvs := rfl
@[simp] theorem freeVal_buckets (w : Nat) : (s.freeVal w).2.buckets = s.buckets := rfl
@[simp] theorem freeVal_lastGrant (w : Nat) : (s.freeVal w).2.lastGrant = s.lastGrant := rfl
@[simp] theorem freeVal_hst (w : Nat) : (s.freeVal w).2.hst = s.hst := rfl
@[simp] theorem freeVal_mbSeq (w : Nat) : (s.freeVal w).2.mbSeq = s.mbSeq := rfl
@[simp] theorem freeVal_pwr (w : Nat) : (s.freeVal w).2.pwr = s.pwr := rfl
@[simp] theorem freeVal_rst (w : Nat) : (s.freeVal w).2.rst = s.rst := rfl
@[simp] theorem freeVal_disc (w : Nat) : (s.freeVal w).2.disc = s.disc := rfl
@[simp] theorem freeVal_grd (w : Nat) : (s.freeVal w).2.grd = s.grd := rfl
@[simp] theorem freeVal_ras (w : Nat) : (s.freeVal w).2.ras = s.ras := rfl
@[simp] theorem freeVal_tripped (w : Nat) : (s.freeVal w).2.tripped = s.tripped := rfl

@[simp] theorem tick_pending : (s.tick).pending = s.pending := rfl
@[simp] theorem tick_part : (s.tick).part = s.part := rfl
@[simp] theorem tick_mem : (s.tick).mem = s.mem := rfl
@[simp] theorem tick_poison : (s.tick).poison = s.poison := rfl
@[simp] theorem tick_wiped : (s.tick).wiped = s.wiped := rfl
@[simp] theorem tick_regs : (s.tick).regs = s.regs := rfl
@[simp] theorem tick_ctrs : (s.tick).ctrs = s.ctrs := rfl
@[simp] theorem tick_freeCtr : (s.tick).freeCtr = s.freeCtr := rfl
@[simp] theorem tick_out : (s.tick).out = s.out := rfl
@[simp] theorem tick_seq : (s.tick).seq = s.seq := rfl
@[simp] theorem tick_groups : (s.tick).groups = s.groups := rfl
@[simp] theorem tick_doms : (s.tick).doms = s.doms := rfl
@[simp] theorem tick_lists : (s.tick).lists = s.lists := rfl
@[simp] theorem tick_refetch : (s.tick).refetch = s.refetch := rfl
@[simp] theorem tick_drives : (s.tick).drives = s.drives := rfl
@[simp] theorem tick_flash : (s.tick).flash = s.flash := rfl
@[simp] theorem tick_dirty : (s.tick).dirty = s.dirty := rfl
@[simp] theorem tick_xfers : (s.tick).xfers = s.xfers := rfl
@[simp] theorem tick_measuring : (s.tick).measuring = s.measuring := rfl
@[simp] theorem tick_measLog : (s.tick).measLog = s.measLog := rfl
@[simp] theorem tick_kept : (s.tick).kept = s.kept := rfl
@[simp] theorem tick_actStale : (s.tick).actStale = s.actStale := rfl
@[simp] theorem tick_actSum : (s.tick).actSum = s.actSum := rfl
@[simp] theorem tick_engs : (s.tick).engs = s.engs := rfl
@[simp] theorem tick_ves : (s.tick).ves = s.ves := rfl
@[simp] theorem tick_folds : (s.tick).folds = s.folds := rfl
@[simp] theorem tick_aq : (s.tick).aq = s.aq := rfl
@[simp] theorem tick_batches : (s.tick).batches = s.batches := rfl
@[simp] theorem tick_cnvLast : (s.tick).cnvLast = s.cnvLast := rfl
@[simp] theorem tick_eths : (s.tick).eths = s.eths := rfl
@[simp] theorem tick_wires : (s.tick).wires = s.wires := rfl
@[simp] theorem tick_xt : (s.tick).xt = s.xt := rfl
@[simp] theorem tick_torus : (s.tick).torus = s.torus := rfl
@[simp] theorem tick_whl : (s.tick).whl = s.whl := rfl
@[simp] theorem tick_srvs : (s.tick).srvs = s.srvs := rfl
@[simp] theorem tick_buckets : (s.tick).buckets = s.buckets := rfl
@[simp] theorem tick_lastGrant : (s.tick).lastGrant = s.lastGrant := rfl
@[simp] theorem tick_hst : (s.tick).hst = s.hst := rfl
@[simp] theorem tick_mbSeq : (s.tick).mbSeq = s.mbSeq := rfl
@[simp] theorem tick_pwr : (s.tick).pwr = s.pwr := rfl
@[simp] theorem tick_rst : (s.tick).rst = s.rst := rfl
@[simp] theorem tick_disc : (s.tick).disc = s.disc := rfl
@[simp] theorem tick_grd : (s.tick).grd = s.grd := rfl
@[simp] theorem tick_ras : (s.tick).ras = s.ras := rfl
@[simp] theorem tick_tripped : (s.tick).tripped = s.tripped := rfl

@[simp] theorem emit_pending (o : Output) : (s.emit o).pending = s.pending := rfl
@[simp] theorem emit_part (o : Output) : (s.emit o).part = s.part := rfl
@[simp] theorem emit_mem (o : Output) : (s.emit o).mem = s.mem := rfl
@[simp] theorem emit_poison (o : Output) : (s.emit o).poison = s.poison := rfl
@[simp] theorem emit_wiped (o : Output) : (s.emit o).wiped = s.wiped := rfl
@[simp] theorem emit_regs (o : Output) : (s.emit o).regs = s.regs := rfl
@[simp] theorem emit_ctrs (o : Output) : (s.emit o).ctrs = s.ctrs := rfl
@[simp] theorem emit_freeCtr (o : Output) : (s.emit o).freeCtr = s.freeCtr := rfl
@[simp] theorem emit_refCount (o : Output) : (s.emit o).refCount = s.refCount := rfl
@[simp] theorem emit_seq (o : Output) : (s.emit o).seq = s.seq := rfl
@[simp] theorem emit_groups (o : Output) : (s.emit o).groups = s.groups := rfl
@[simp] theorem emit_doms (o : Output) : (s.emit o).doms = s.doms := rfl
@[simp] theorem emit_lists (o : Output) : (s.emit o).lists = s.lists := rfl
@[simp] theorem emit_refetch (o : Output) : (s.emit o).refetch = s.refetch := rfl
@[simp] theorem emit_drives (o : Output) : (s.emit o).drives = s.drives := rfl
@[simp] theorem emit_flash (o : Output) : (s.emit o).flash = s.flash := rfl
@[simp] theorem emit_dirty (o : Output) : (s.emit o).dirty = s.dirty := rfl
@[simp] theorem emit_xfers (o : Output) : (s.emit o).xfers = s.xfers := rfl
@[simp] theorem emit_measuring (o : Output) : (s.emit o).measuring = s.measuring := rfl
@[simp] theorem emit_measLog (o : Output) : (s.emit o).measLog = s.measLog := rfl
@[simp] theorem emit_kept (o : Output) : (s.emit o).kept = s.kept := rfl
@[simp] theorem emit_actStale (o : Output) : (s.emit o).actStale = s.actStale := rfl
@[simp] theorem emit_actSum (o : Output) : (s.emit o).actSum = s.actSum := rfl
@[simp] theorem emit_engs (o : Output) : (s.emit o).engs = s.engs := rfl
@[simp] theorem emit_ves (o : Output) : (s.emit o).ves = s.ves := rfl
@[simp] theorem emit_folds (o : Output) : (s.emit o).folds = s.folds := rfl
@[simp] theorem emit_aq (o : Output) : (s.emit o).aq = s.aq := rfl
@[simp] theorem emit_batches (o : Output) : (s.emit o).batches = s.batches := rfl
@[simp] theorem emit_cnvLast (o : Output) : (s.emit o).cnvLast = s.cnvLast := rfl
@[simp] theorem emit_eths (o : Output) : (s.emit o).eths = s.eths := rfl
@[simp] theorem emit_wires (o : Output) : (s.emit o).wires = s.wires := rfl
@[simp] theorem emit_xt (o : Output) : (s.emit o).xt = s.xt := rfl
@[simp] theorem emit_torus (o : Output) : (s.emit o).torus = s.torus := rfl
@[simp] theorem emit_whl (o : Output) : (s.emit o).whl = s.whl := rfl
@[simp] theorem emit_srvs (o : Output) : (s.emit o).srvs = s.srvs := rfl
@[simp] theorem emit_buckets (o : Output) : (s.emit o).buckets = s.buckets := rfl
@[simp] theorem emit_lastGrant (o : Output) : (s.emit o).lastGrant = s.lastGrant := rfl
@[simp] theorem emit_hst (o : Output) : (s.emit o).hst = s.hst := rfl
@[simp] theorem emit_mbSeq (o : Output) : (s.emit o).mbSeq = s.mbSeq := rfl
@[simp] theorem emit_pwr (o : Output) : (s.emit o).pwr = s.pwr := rfl
@[simp] theorem emit_rst (o : Output) : (s.emit o).rst = s.rst := rfl
@[simp] theorem emit_disc (o : Output) : (s.emit o).disc = s.disc := rfl
@[simp] theorem emit_grd (o : Output) : (s.emit o).grd = s.grd := rfl
@[simp] theorem emit_ras (o : Output) : (s.emit o).ras = s.ras := rfl
@[simp] theorem emit_tripped (o : Output) : (s.emit o).tripped = s.tripped := rfl

@[simp] theorem markLine_pending (line : Nat) (b : Bool) : (s.markLine line b).pending = s.pending := rfl
@[simp] theorem markLine_part (line : Nat) (b : Bool) : (s.markLine line b).part = s.part := rfl
@[simp] theorem markLine_mem (line : Nat) (b : Bool) : (s.markLine line b).mem = s.mem := rfl
@[simp] theorem markLine_wiped (line : Nat) (b : Bool) : (s.markLine line b).wiped = s.wiped := rfl
@[simp] theorem markLine_regs (line : Nat) (b : Bool) : (s.markLine line b).regs = s.regs := rfl
@[simp] theorem markLine_ctrs (line : Nat) (b : Bool) : (s.markLine line b).ctrs = s.ctrs := rfl
@[simp] theorem markLine_freeCtr (line : Nat) (b : Bool) : (s.markLine line b).freeCtr = s.freeCtr := rfl
@[simp] theorem markLine_refCount (line : Nat) (b : Bool) : (s.markLine line b).refCount = s.refCount := rfl
@[simp] theorem markLine_out (line : Nat) (b : Bool) : (s.markLine line b).out = s.out := rfl
@[simp] theorem markLine_seq (line : Nat) (b : Bool) : (s.markLine line b).seq = s.seq := rfl
@[simp] theorem markLine_groups (line : Nat) (b : Bool) : (s.markLine line b).groups = s.groups := rfl
@[simp] theorem markLine_doms (line : Nat) (b : Bool) : (s.markLine line b).doms = s.doms := rfl
@[simp] theorem markLine_lists (line : Nat) (b : Bool) : (s.markLine line b).lists = s.lists := rfl
@[simp] theorem markLine_refetch (line : Nat) (b : Bool) : (s.markLine line b).refetch = s.refetch := rfl
@[simp] theorem markLine_drives (line : Nat) (b : Bool) : (s.markLine line b).drives = s.drives := rfl
@[simp] theorem markLine_flash (line : Nat) (b : Bool) : (s.markLine line b).flash = s.flash := rfl
@[simp] theorem markLine_dirty (line : Nat) (b : Bool) : (s.markLine line b).dirty = s.dirty := rfl
@[simp] theorem markLine_xfers (line : Nat) (b : Bool) : (s.markLine line b).xfers = s.xfers := rfl
@[simp] theorem markLine_measuring (line : Nat) (b : Bool) : (s.markLine line b).measuring = s.measuring := rfl
@[simp] theorem markLine_measLog (line : Nat) (b : Bool) : (s.markLine line b).measLog = s.measLog := rfl
@[simp] theorem markLine_kept (line : Nat) (b : Bool) : (s.markLine line b).kept = s.kept := rfl
@[simp] theorem markLine_actStale (line : Nat) (b : Bool) : (s.markLine line b).actStale = s.actStale := rfl
@[simp] theorem markLine_actSum (line : Nat) (b : Bool) : (s.markLine line b).actSum = s.actSum := rfl
@[simp] theorem markLine_engs (line : Nat) (b : Bool) : (s.markLine line b).engs = s.engs := rfl
@[simp] theorem markLine_ves (line : Nat) (b : Bool) : (s.markLine line b).ves = s.ves := rfl
@[simp] theorem markLine_folds (line : Nat) (b : Bool) : (s.markLine line b).folds = s.folds := rfl
@[simp] theorem markLine_aq (line : Nat) (b : Bool) : (s.markLine line b).aq = s.aq := rfl
@[simp] theorem markLine_batches (line : Nat) (b : Bool) : (s.markLine line b).batches = s.batches := rfl
@[simp] theorem markLine_cnvLast (line : Nat) (b : Bool) : (s.markLine line b).cnvLast = s.cnvLast := rfl
@[simp] theorem markLine_eths (line : Nat) (b : Bool) : (s.markLine line b).eths = s.eths := rfl
@[simp] theorem markLine_wires (line : Nat) (b : Bool) : (s.markLine line b).wires = s.wires := rfl
@[simp] theorem markLine_xt (line : Nat) (b : Bool) : (s.markLine line b).xt = s.xt := rfl
@[simp] theorem markLine_torus (line : Nat) (b : Bool) : (s.markLine line b).torus = s.torus := rfl
@[simp] theorem markLine_whl (line : Nat) (b : Bool) : (s.markLine line b).whl = s.whl := rfl
@[simp] theorem markLine_srvs (line : Nat) (b : Bool) : (s.markLine line b).srvs = s.srvs := rfl
@[simp] theorem markLine_buckets (line : Nat) (b : Bool) : (s.markLine line b).buckets = s.buckets := rfl
@[simp] theorem markLine_lastGrant (line : Nat) (b : Bool) : (s.markLine line b).lastGrant = s.lastGrant := rfl
@[simp] theorem markLine_hst (line : Nat) (b : Bool) : (s.markLine line b).hst = s.hst := rfl
@[simp] theorem markLine_mbSeq (line : Nat) (b : Bool) : (s.markLine line b).mbSeq = s.mbSeq := rfl
@[simp] theorem markLine_pwr (line : Nat) (b : Bool) : (s.markLine line b).pwr = s.pwr := rfl
@[simp] theorem markLine_rst (line : Nat) (b : Bool) : (s.markLine line b).rst = s.rst := rfl
@[simp] theorem markLine_disc (line : Nat) (b : Bool) : (s.markLine line b).disc = s.disc := rfl
@[simp] theorem markLine_grd (line : Nat) (b : Bool) : (s.markLine line b).grd = s.grd := rfl
@[simp] theorem markLine_ras (line : Nat) (b : Bool) : (s.markLine line b).ras = s.ras := rfl
@[simp] theorem markLine_tripped (line : Nat) (b : Bool) : (s.markLine line b).tripped = s.tripped := rfl

@[simp] theorem modWork_pending (id : Nat) (f : Work → Work) : (s.modWork id f).pending = s.pending := rfl
@[simp] theorem modWork_part (id : Nat) (f : Work → Work) : (s.modWork id f).part = s.part := rfl
@[simp] theorem modWork_mem (id : Nat) (f : Work → Work) : (s.modWork id f).mem = s.mem := rfl
@[simp] theorem modWork_poison (id : Nat) (f : Work → Work) : (s.modWork id f).poison = s.poison := rfl
@[simp] theorem modWork_wiped (id : Nat) (f : Work → Work) : (s.modWork id f).wiped = s.wiped := rfl
@[simp] theorem modWork_regs (id : Nat) (f : Work → Work) : (s.modWork id f).regs = s.regs := rfl
@[simp] theorem modWork_ctrs (id : Nat) (f : Work → Work) : (s.modWork id f).ctrs = s.ctrs := rfl
@[simp] theorem modWork_freeCtr (id : Nat) (f : Work → Work) : (s.modWork id f).freeCtr = s.freeCtr := rfl
@[simp] theorem modWork_refCount (id : Nat) (f : Work → Work) : (s.modWork id f).refCount = s.refCount := rfl
@[simp] theorem modWork_out (id : Nat) (f : Work → Work) : (s.modWork id f).out = s.out := rfl
@[simp] theorem modWork_groups (id : Nat) (f : Work → Work) : (s.modWork id f).groups = s.groups := rfl
@[simp] theorem modWork_doms (id : Nat) (f : Work → Work) : (s.modWork id f).doms = s.doms := rfl
@[simp] theorem modWork_lists (id : Nat) (f : Work → Work) : (s.modWork id f).lists = s.lists := rfl
@[simp] theorem modWork_refetch (id : Nat) (f : Work → Work) : (s.modWork id f).refetch = s.refetch := rfl
@[simp] theorem modWork_drives (id : Nat) (f : Work → Work) : (s.modWork id f).drives = s.drives := rfl
@[simp] theorem modWork_flash (id : Nat) (f : Work → Work) : (s.modWork id f).flash = s.flash := rfl
@[simp] theorem modWork_dirty (id : Nat) (f : Work → Work) : (s.modWork id f).dirty = s.dirty := rfl
@[simp] theorem modWork_xfers (id : Nat) (f : Work → Work) : (s.modWork id f).xfers = s.xfers := rfl
@[simp] theorem modWork_measuring (id : Nat) (f : Work → Work) : (s.modWork id f).measuring = s.measuring := rfl
@[simp] theorem modWork_measLog (id : Nat) (f : Work → Work) : (s.modWork id f).measLog = s.measLog := rfl
@[simp] theorem modWork_kept (id : Nat) (f : Work → Work) : (s.modWork id f).kept = s.kept := rfl
@[simp] theorem modWork_actStale (id : Nat) (f : Work → Work) : (s.modWork id f).actStale = s.actStale := rfl
@[simp] theorem modWork_actSum (id : Nat) (f : Work → Work) : (s.modWork id f).actSum = s.actSum := rfl
@[simp] theorem modWork_engs (id : Nat) (f : Work → Work) : (s.modWork id f).engs = s.engs := rfl
@[simp] theorem modWork_ves (id : Nat) (f : Work → Work) : (s.modWork id f).ves = s.ves := rfl
@[simp] theorem modWork_folds (id : Nat) (f : Work → Work) : (s.modWork id f).folds = s.folds := rfl
@[simp] theorem modWork_aq (id : Nat) (f : Work → Work) : (s.modWork id f).aq = s.aq := rfl
@[simp] theorem modWork_batches (id : Nat) (f : Work → Work) : (s.modWork id f).batches = s.batches := rfl
@[simp] theorem modWork_cnvLast (id : Nat) (f : Work → Work) : (s.modWork id f).cnvLast = s.cnvLast := rfl
@[simp] theorem modWork_eths (id : Nat) (f : Work → Work) : (s.modWork id f).eths = s.eths := rfl
@[simp] theorem modWork_wires (id : Nat) (f : Work → Work) : (s.modWork id f).wires = s.wires := rfl
@[simp] theorem modWork_xt (id : Nat) (f : Work → Work) : (s.modWork id f).xt = s.xt := rfl
@[simp] theorem modWork_torus (id : Nat) (f : Work → Work) : (s.modWork id f).torus = s.torus := rfl
@[simp] theorem modWork_whl (id : Nat) (f : Work → Work) : (s.modWork id f).whl = s.whl := rfl
@[simp] theorem modWork_srvs (id : Nat) (f : Work → Work) : (s.modWork id f).srvs = s.srvs := rfl
@[simp] theorem modWork_buckets (id : Nat) (f : Work → Work) : (s.modWork id f).buckets = s.buckets := rfl
@[simp] theorem modWork_lastGrant (id : Nat) (f : Work → Work) : (s.modWork id f).lastGrant = s.lastGrant := rfl
@[simp] theorem modWork_hst (id : Nat) (f : Work → Work) : (s.modWork id f).hst = s.hst := rfl
@[simp] theorem modWork_mbSeq (id : Nat) (f : Work → Work) : (s.modWork id f).mbSeq = s.mbSeq := rfl
@[simp] theorem modWork_pwr (id : Nat) (f : Work → Work) : (s.modWork id f).pwr = s.pwr := rfl
@[simp] theorem modWork_rst (id : Nat) (f : Work → Work) : (s.modWork id f).rst = s.rst := rfl
@[simp] theorem modWork_disc (id : Nat) (f : Work → Work) : (s.modWork id f).disc = s.disc := rfl
@[simp] theorem modWork_grd (id : Nat) (f : Work → Work) : (s.modWork id f).grd = s.grd := rfl
@[simp] theorem modWork_ras (id : Nat) (f : Work → Work) : (s.modWork id f).ras = s.ras := rfl
@[simp] theorem modWork_tripped (id : Nat) (f : Work → Work) : (s.modWork id f).tripped = s.tripped := rfl

@[simp] theorem dropWork_pending (id : Nat) : (s.dropWork id).pending = s.pending := rfl
@[simp] theorem dropWork_part (id : Nat) : (s.dropWork id).part = s.part := rfl
@[simp] theorem dropWork_mem (id : Nat) : (s.dropWork id).mem = s.mem := rfl
@[simp] theorem dropWork_poison (id : Nat) : (s.dropWork id).poison = s.poison := rfl
@[simp] theorem dropWork_wiped (id : Nat) : (s.dropWork id).wiped = s.wiped := rfl
@[simp] theorem dropWork_regs (id : Nat) : (s.dropWork id).regs = s.regs := rfl
@[simp] theorem dropWork_ctrs (id : Nat) : (s.dropWork id).ctrs = s.ctrs := rfl
@[simp] theorem dropWork_freeCtr (id : Nat) : (s.dropWork id).freeCtr = s.freeCtr := rfl
@[simp] theorem dropWork_refCount (id : Nat) : (s.dropWork id).refCount = s.refCount := rfl
@[simp] theorem dropWork_out (id : Nat) : (s.dropWork id).out = s.out := rfl
@[simp] theorem dropWork_groups (id : Nat) : (s.dropWork id).groups = s.groups := rfl
@[simp] theorem dropWork_doms (id : Nat) : (s.dropWork id).doms = s.doms := rfl
@[simp] theorem dropWork_lists (id : Nat) : (s.dropWork id).lists = s.lists := rfl
@[simp] theorem dropWork_refetch (id : Nat) : (s.dropWork id).refetch = s.refetch := rfl
@[simp] theorem dropWork_drives (id : Nat) : (s.dropWork id).drives = s.drives := rfl
@[simp] theorem dropWork_flash (id : Nat) : (s.dropWork id).flash = s.flash := rfl
@[simp] theorem dropWork_dirty (id : Nat) : (s.dropWork id).dirty = s.dirty := rfl
@[simp] theorem dropWork_xfers (id : Nat) : (s.dropWork id).xfers = s.xfers := rfl
@[simp] theorem dropWork_measuring (id : Nat) : (s.dropWork id).measuring = s.measuring := rfl
@[simp] theorem dropWork_measLog (id : Nat) : (s.dropWork id).measLog = s.measLog := rfl
@[simp] theorem dropWork_kept (id : Nat) : (s.dropWork id).kept = s.kept := rfl
@[simp] theorem dropWork_actStale (id : Nat) : (s.dropWork id).actStale = s.actStale := rfl
@[simp] theorem dropWork_actSum (id : Nat) : (s.dropWork id).actSum = s.actSum := rfl
@[simp] theorem dropWork_engs (id : Nat) : (s.dropWork id).engs = s.engs := rfl
@[simp] theorem dropWork_ves (id : Nat) : (s.dropWork id).ves = s.ves := rfl
@[simp] theorem dropWork_folds (id : Nat) : (s.dropWork id).folds = s.folds := rfl
@[simp] theorem dropWork_aq (id : Nat) : (s.dropWork id).aq = s.aq := rfl
@[simp] theorem dropWork_batches (id : Nat) : (s.dropWork id).batches = s.batches := rfl
@[simp] theorem dropWork_cnvLast (id : Nat) : (s.dropWork id).cnvLast = s.cnvLast := rfl
@[simp] theorem dropWork_eths (id : Nat) : (s.dropWork id).eths = s.eths := rfl
@[simp] theorem dropWork_wires (id : Nat) : (s.dropWork id).wires = s.wires := rfl
@[simp] theorem dropWork_xt (id : Nat) : (s.dropWork id).xt = s.xt := rfl
@[simp] theorem dropWork_torus (id : Nat) : (s.dropWork id).torus = s.torus := rfl
@[simp] theorem dropWork_whl (id : Nat) : (s.dropWork id).whl = s.whl := rfl
@[simp] theorem dropWork_srvs (id : Nat) : (s.dropWork id).srvs = s.srvs := rfl
@[simp] theorem dropWork_buckets (id : Nat) : (s.dropWork id).buckets = s.buckets := rfl
@[simp] theorem dropWork_lastGrant (id : Nat) : (s.dropWork id).lastGrant = s.lastGrant := rfl
@[simp] theorem dropWork_hst (id : Nat) : (s.dropWork id).hst = s.hst := rfl
@[simp] theorem dropWork_mbSeq (id : Nat) : (s.dropWork id).mbSeq = s.mbSeq := rfl
@[simp] theorem dropWork_pwr (id : Nat) : (s.dropWork id).pwr = s.pwr := rfl
@[simp] theorem dropWork_rst (id : Nat) : (s.dropWork id).rst = s.rst := rfl
@[simp] theorem dropWork_disc (id : Nat) : (s.dropWork id).disc = s.disc := rfl
@[simp] theorem dropWork_grd (id : Nat) : (s.dropWork id).grd = s.grd := rfl
@[simp] theorem dropWork_ras (id : Nat) : (s.dropWork id).ras = s.ras := rfl
@[simp] theorem dropWork_tripped (id : Nat) : (s.dropWork id).tripped = s.tripped := rfl

@[simp] theorem endWork_pending (id : Nat) (c : Rec → Rec) : (s.endWork id c).pending = s.pending := rfl
@[simp] theorem endWork_part (id : Nat) (c : Rec → Rec) : (s.endWork id c).part = s.part := rfl
@[simp] theorem endWork_mem (id : Nat) (c : Rec → Rec) : (s.endWork id c).mem = s.mem := rfl
@[simp] theorem endWork_poison (id : Nat) (c : Rec → Rec) : (s.endWork id c).poison = s.poison := rfl
@[simp] theorem endWork_wiped (id : Nat) (c : Rec → Rec) : (s.endWork id c).wiped = s.wiped := rfl
@[simp] theorem endWork_regs (id : Nat) (c : Rec → Rec) : (s.endWork id c).regs = s.regs := rfl
@[simp] theorem endWork_ctrs (id : Nat) (c : Rec → Rec) : (s.endWork id c).ctrs = s.ctrs := rfl
@[simp] theorem endWork_freeCtr (id : Nat) (c : Rec → Rec) : (s.endWork id c).freeCtr = s.freeCtr := rfl
@[simp] theorem endWork_refCount (id : Nat) (c : Rec → Rec) : (s.endWork id c).refCount = s.refCount := rfl
@[simp] theorem endWork_out (id : Nat) (c : Rec → Rec) : (s.endWork id c).out = s.out := rfl
@[simp] theorem endWork_groups (id : Nat) (c : Rec → Rec) : (s.endWork id c).groups = s.groups := rfl
@[simp] theorem endWork_doms (id : Nat) (c : Rec → Rec) : (s.endWork id c).doms = s.doms := rfl
@[simp] theorem endWork_lists (id : Nat) (c : Rec → Rec) : (s.endWork id c).lists = s.lists := rfl
@[simp] theorem endWork_refetch (id : Nat) (c : Rec → Rec) : (s.endWork id c).refetch = s.refetch := rfl
@[simp] theorem endWork_drives (id : Nat) (c : Rec → Rec) : (s.endWork id c).drives = s.drives := rfl
@[simp] theorem endWork_flash (id : Nat) (c : Rec → Rec) : (s.endWork id c).flash = s.flash := rfl
@[simp] theorem endWork_dirty (id : Nat) (c : Rec → Rec) : (s.endWork id c).dirty = s.dirty := rfl
@[simp] theorem endWork_xfers (id : Nat) (c : Rec → Rec) : (s.endWork id c).xfers = s.xfers := rfl
@[simp] theorem endWork_measuring (id : Nat) (c : Rec → Rec) : (s.endWork id c).measuring = s.measuring := rfl
@[simp] theorem endWork_measLog (id : Nat) (c : Rec → Rec) : (s.endWork id c).measLog = s.measLog := rfl
@[simp] theorem endWork_kept (id : Nat) (c : Rec → Rec) : (s.endWork id c).kept = s.kept := rfl
@[simp] theorem endWork_actStale (id : Nat) (c : Rec → Rec) : (s.endWork id c).actStale = s.actStale := rfl
@[simp] theorem endWork_actSum (id : Nat) (c : Rec → Rec) : (s.endWork id c).actSum = s.actSum := rfl
@[simp] theorem endWork_engs (id : Nat) (c : Rec → Rec) : (s.endWork id c).engs = s.engs := rfl
@[simp] theorem endWork_ves (id : Nat) (c : Rec → Rec) : (s.endWork id c).ves = s.ves := rfl
@[simp] theorem endWork_folds (id : Nat) (c : Rec → Rec) : (s.endWork id c).folds = s.folds := rfl
@[simp] theorem endWork_aq (id : Nat) (c : Rec → Rec) : (s.endWork id c).aq = s.aq := rfl
@[simp] theorem endWork_batches (id : Nat) (c : Rec → Rec) : (s.endWork id c).batches = s.batches := rfl
@[simp] theorem endWork_cnvLast (id : Nat) (c : Rec → Rec) : (s.endWork id c).cnvLast = s.cnvLast := rfl
@[simp] theorem endWork_eths (id : Nat) (c : Rec → Rec) : (s.endWork id c).eths = s.eths := rfl
@[simp] theorem endWork_wires (id : Nat) (c : Rec → Rec) : (s.endWork id c).wires = s.wires := rfl
@[simp] theorem endWork_xt (id : Nat) (c : Rec → Rec) : (s.endWork id c).xt = s.xt := rfl
@[simp] theorem endWork_torus (id : Nat) (c : Rec → Rec) : (s.endWork id c).torus = s.torus := rfl
@[simp] theorem endWork_whl (id : Nat) (c : Rec → Rec) : (s.endWork id c).whl = s.whl := rfl
@[simp] theorem endWork_srvs (id : Nat) (c : Rec → Rec) : (s.endWork id c).srvs = s.srvs := rfl
@[simp] theorem endWork_buckets (id : Nat) (c : Rec → Rec) : (s.endWork id c).buckets = s.buckets := rfl
@[simp] theorem endWork_lastGrant (id : Nat) (c : Rec → Rec) : (s.endWork id c).lastGrant = s.lastGrant := rfl
@[simp] theorem endWork_hst (id : Nat) (c : Rec → Rec) : (s.endWork id c).hst = s.hst := rfl
@[simp] theorem endWork_mbSeq (id : Nat) (c : Rec → Rec) : (s.endWork id c).mbSeq = s.mbSeq := rfl
@[simp] theorem endWork_pwr (id : Nat) (c : Rec → Rec) : (s.endWork id c).pwr = s.pwr := rfl
@[simp] theorem endWork_rst (id : Nat) (c : Rec → Rec) : (s.endWork id c).rst = s.rst := rfl
@[simp] theorem endWork_disc (id : Nat) (c : Rec → Rec) : (s.endWork id c).disc = s.disc := rfl
@[simp] theorem endWork_grd (id : Nat) (c : Rec → Rec) : (s.endWork id c).grd = s.grd := rfl
@[simp] theorem endWork_ras (id : Nat) (c : Rec → Rec) : (s.endWork id c).ras = s.ras := rfl
@[simp] theorem endWork_tripped (id : Nat) (c : Rec → Rec) : (s.endWork id c).tripped = s.tripped := rfl

@[simp] theorem setReg_regs (d off : Nat) (v : W32) : (s.setReg d off v).regs = kvPut s.regs (regKey d off) v := rfl
@[simp] theorem setCtr_ctrs (d off v : Nat) : (s.setCtr d off v).ctrs = kvPut s.ctrs (regKey d off) v := rfl
@[simp] theorem fresh_freeCtr : s.fresh.2.freeCtr = s.freeCtr + 1 := rfl
@[simp] theorem tick_refCount : s.tick.refCount = s.refCount + 1 := rfl
@[simp] theorem emit_out (o : Output) : (s.emit o).out = s.out ++ [o] := rfl

end State

end Sys2Proof.Machine
end

