-- ==== Sys2Proof/Laws/Registers.lean ====
section
/-! SUPPORT. What a register, a field or a counter reads as after a write of one. -/

namespace Sys2Proof.Machine

namespace State

variable (s : State)

theorem regKey_inj {d e off o : Nat} (h : off < 2 ^ 24) (g : o < 2 ^ 24) (e1 : regKey d off = regKey e o) : d = e ∧ off = o := by
  unfold regKey at e1
  omega

theorem regKey_ne {d e off o : Nat} (h : off < 2 ^ 24) (g : o < 2 ^ 24) (n : d ≠ e ∨ off ≠ o) : regKey d off ≠ regKey e o := by
  intro e1
  have := regKey_inj h g e1
  omega

@[simp] theorem reg_setReg_same (d off : Nat) (v : W32) : (s.setReg d off v).reg d off = v := by
  unfold reg setReg
  simp [kvFind_kvPut_same]

theorem reg_setReg_other (d off e o : Nat) (v : W32) (h : regKey e o ≠ regKey d off) : (s.setReg d off v).reg e o = s.reg e o := by
  unfold reg setReg
  simp [kvFind_kvPut_other _ _ _ _ h]

@[simp] theorem regN_setRegN_same (d off v : Nat) : (s.setRegN d off v).regN d off = v % 2 ^ 32 := by
  simp [regN, setRegN]

theorem regN_setRegN_other (d off e o v : Nat) (h : regKey e o ≠ regKey d off) : (s.setRegN d off v).regN e o = s.regN e o := by
  simp [regN, setRegN, reg_setReg_other _ _ _ _ _ _ h]

@[simp] theorem reg_setCtr (d off v e o : Nat) : (s.setCtr d off v).reg e o = s.reg e o := rfl
@[simp] theorem regN_setCtr (d off v e o : Nat) : (s.setCtr d off v).regN e o = s.regN e o := rfl
@[simp] theorem rf_setCtr (d off v e o lo len : Nat) : (s.setCtr d off v).rf e o lo len = s.rf e o lo len := rfl
@[simp] theorem rbit_setCtr (d off v e o i : Nat) : (s.setCtr d off v).rbit e o i = s.rbit e o i := rfl
@[simp] theorem reg_bump (d off n e o : Nat) : (s.bump d off n).reg e o = s.reg e o := rfl
@[simp] theorem regN_bump (d off n e o : Nat) : (s.bump d off n).regN e o = s.regN e o := rfl
@[simp] theorem rf_bump (d off n e o lo len : Nat) : (s.bump d off n).rf e o lo len = s.rf e o lo len := rfl
@[simp] theorem rbit_bump (d off n e o i : Nat) : (s.bump d off n).rbit e o i = s.rbit e o i := rfl
@[simp] theorem ctr_setReg (d off e o : Nat) (v : W32) : (s.setReg d off v).ctr e o = s.ctr e o := rfl
@[simp] theorem ctr_setRegN (d off v e o : Nat) : (s.setRegN d off v).ctr e o = s.ctr e o := rfl
@[simp] theorem regN_emit (x : Output) (e o : Nat) : (s.emit x).regN e o = s.regN e o := rfl
@[simp] theorem ctr_emit (x : Output) (e o : Nat) : (s.emit x).ctr e o = s.ctr e o := rfl

theorem ctr_setCtr_other (d off v e o : Nat) (h : regKey e o ≠ regKey d off) : (s.setCtr d off v).ctr e o = s.ctr e o := by
  unfold ctr setCtr kvGet
  rw [kvFind_kvPut_other _ _ _ _ h]

@[simp] theorem ctr_setCtr_same (d off v : Nat) : (s.setCtr d off v).ctr d off = v := by
  unfold ctr setCtr kvGet
  rw [kvFind_kvPut_same]
  rfl

@[simp] theorem ctr_bump_same (d off n : Nat) : (s.bump d off n).ctr d off = Nat.min ctrMax (s.ctr d off + n) :=
  ctr_setCtr_same s d off _

theorem ctr_bump_other (d off n e o : Nat) (h : regKey e o ≠ regKey d off) : (s.bump d off n).ctr e o = s.ctr e o :=
  ctr_setCtr_other s d off _ e o h

/-- Bytes of memory do not follow registers or counters. -/
@[simp] theorem byte_setReg (d off : Nat) (v : W32) (a : Nat) : (s.setReg d off v).byte a = s.byte a := rfl
@[simp] theorem byte_setRegN (d off v a : Nat) : (s.setRegN d off v).byte a = s.byte a := rfl
@[simp] theorem byte_bump (d off n a : Nat) : (s.bump d off n).byte a = s.byte a := rfl
@[simp] theorem byte_emit (x : Output) (a : Nat) : (s.emit x).byte a = s.byte a := rfl

end State

/-! ## Fields -/

theorem fld_lt (n lo len : Nat) : fld n lo len < 2 ^ len := Nat.mod_lt _ (Nat.two_pow_pos len)

theorem fld_mul_le (n lo len : Nat) : 2 ^ lo * fld n lo len ≤ n := by
  unfold fld
  calc 2 ^ lo * (n / 2 ^ lo % 2 ^ len) ≤ 2 ^ lo * (n / 2 ^ lo) := Nat.mul_le_mul_left _ (Nat.mod_le _ _)
    _ ≤ n := Nat.mul_div_le _ _

/-- A number by a field, what lies below it and what lies above it. -/
theorem fld_split (n lo len : Nat) : n = n % 2 ^ lo + 2 ^ lo * fld n lo len + 2 ^ (lo + len) * (n / 2 ^ (lo + len)) := by
  unfold fld
  have h1 := Nat.mod_add_div n (2 ^ lo)
  have h2 := Nat.mod_add_div (n / 2 ^ lo) (2 ^ len)
  rw [Nat.pow_add, ← Nat.div_div_eq_div_mul, Nat.mul_assoc, Nat.add_assoc, ← Nat.mul_add, h2, h1]

theorem setFld_eq (n lo len v : Nat) :
    setFld n lo len v = n % 2 ^ lo + 2 ^ lo * (v % 2 ^ len) + 2 ^ (lo + len) * (n / 2 ^ (lo + len)) := by
  have h := fld_split n lo len
  unfold setFld
  omega

@[simp] theorem fld_setFld_same (n lo len v : Nat) : fld (setFld n lo len v) lo len = v % 2 ^ len := by
  rw [setFld_eq]
  unfold fld
  have p : 0 < 2 ^ lo := Nat.two_pow_pos lo
  have e : n % 2 ^ lo + 2 ^ lo * (v % 2 ^ len) + 2 ^ (lo + len) * (n / 2 ^ (lo + len)) =
      n % 2 ^ lo + 2 ^ lo * (v % 2 ^ len + 2 ^ len * (n / 2 ^ (lo + len))) := by
    rw [Nat.pow_add, Nat.mul_assoc, Nat.add_assoc, ← Nat.mul_add]
  rw [e, Nat.add_mul_div_left _ _ p, Nat.div_eq_of_lt (Nat.mod_lt _ p), Nat.zero_add, Nat.add_mul_mod_self_left, Nat.mod_mod]

theorem setFld_lt {n lo len v w : Nat} (h : n < 2 ^ w) (g : lo + len ≤ w) : setFld n lo len v < 2 ^ w := by
  rw [setFld_eq]
  have h1 : n % 2 ^ lo < 2 ^ lo := Nat.mod_lt _ (Nat.two_pow_pos lo)
  have h2 : v % 2 ^ len < 2 ^ len := Nat.mod_lt _ (Nat.two_pow_pos len)
  have h3 : n / 2 ^ (lo + len) < 2 ^ (w - (lo + len)) := by
    rw [Nat.div_lt_iff_lt_mul (Nat.two_pow_pos _), ← Nat.pow_add]
    rwa [Nat.sub_add_cancel g]
  have h4 : 2 ^ lo * (v % 2 ^ len) + 2 ^ lo ≤ 2 ^ (lo + len) := by
    rw [Nat.pow_add, ← Nat.mul_succ]
    exact Nat.mul_le_mul_left _ h2
  have h5 : 2 ^ (lo + len) * (n / 2 ^ (lo + len)) + 2 ^ (lo + len) ≤ 2 ^ w := by
    rw [← Nat.mul_succ]
    calc 2 ^ (lo + len) * (n / 2 ^ (lo + len) + 1) ≤ 2 ^ (lo + len) * 2 ^ (w - (lo + len)) := Nat.mul_le_mul_left _ h3
      _ = 2 ^ w := by rw [← Nat.pow_add, Nat.add_sub_cancel' g]
  omega

theorem bit_eq_fld (n i : Nat) : bit n i = (fld n i 1 == 1) := rfl

@[simp] theorem bit_setFld_same (n i : Nat) (b : Bool) : bit (setFld n i 1 (b2n b)) i = b := by
  rw [bit_eq_fld, fld_setFld_same]
  cases b <;> rfl

namespace State

variable (s : State)

theorem regN_lt (d off : Nat) : s.regN d off < 2 ^ 32 := (s.reg d off).isLt

theorem rf_setRf_same (d off lo len v : Nat) (h : lo + len ≤ 32) : (s.setRf d off lo len v).rf d off lo len = v % 2 ^ len := by
  unfold rf setRf
  rw [regN_setRegN_same, Nat.mod_eq_of_lt (setFld_lt (s.regN_lt d off) h), fld_setFld_same]

theorem rbit_setRbit_same (d off i : Nat) (b : Bool) (h : i < 32) : (s.setRbit d off i b).rbit d off i = b := by
  unfold rbit setRbit setRf
  rw [regN_setRegN_same, Nat.mod_eq_of_lt (setFld_lt (s.regN_lt d off) h), bit_setFld_same]

theorem rf_setRegN_same (d off v lo len : Nat) : (s.setRegN d off v).rf d off lo len = fld (v % 2 ^ 32) lo len := by
  simp [rf]

theorem rf_setRegN_other (d off v e o lo len : Nat) (h : regKey e o ≠ regKey d off) : (s.setRegN d off v).rf e o lo len = s.rf e o lo len := by
  simp [rf, regN_setRegN_other _ _ _ _ _ _ h]

theorem rbit_setRegN_other (d off v e o i : Nat) (h : regKey e o ≠ regKey d off) : (s.setRegN d off v).rbit e o i = s.rbit e o i := by
  simp [rbit, regN_setRegN_other _ _ _ _ _ _ h]

end State

end Sys2Proof.Machine
end

