-- ==== Sys2Proof/Safety.lean ====
section
/-! DEFINITION. What a state must hold to be one that the machine can be in, and what counts as a safe run: the terms in which
claims over all steps are stated. -/

namespace Sys2Proof.Machine

/-! ## The invariant -/

/-- What every step keeps: memory is in its canonical form; the measurement log stores at most 8,192 entries (R574); the sticky log
holds at most 1,024 records (R581); the sessions have distinct numbers below 4, so that at most 4 are open (R575). -/
structure State.Inv (s : State) : Prop where
  memory : s.memWf = true
  log    : s.measLog.entries.length ≤ 8192
  sticky : s.grd.sticky.length ≤ 1024
  fresh  : (s.grd.sess.map fun x => x.id).Nodup
  small  : ∀ x ∈ s.grd.sess, x.id < 4

/-- What a command may do to the rest of the machine while it runs: `t` follows `s` with the queue and the part as they were, and
with the invariant where `s` has it. -/
structure Keeps (s t : State) : Prop where
  pending : t.pending = s.pending
  part    : t.part = s.part
  inv     : s.Inv → t.Inv

/-! ## Starting a descriptor -/

/-- Nothing holds some ranges: no block of them waits for its re-fetch (R257), none that is written is being measured (R572), and the
host has answered for every shared page of them (R492). -/
structure Clear (s : State) (rs : List Rng) : Prop where
  quiet    : ∀ r ∈ rs, s.refetching r = false ∧ s.measured r = false
  answered : ∀ x ∈ s.pagesOf rs, x.1 ∈ s.hst.answered

/-- The KIND of a descriptor is `k`. -/
def ofKind (k : Nat) (w : Work) : Bool := w.kind == k

/-- Descriptor `id` is `w`, of a kind that a test picks; its unit starts it now, no check finds a code against it, its ranges `rs` and what its kind
checks (`cs`) included, and nothing holds its ranges. -/
structure Starts (s : State) (id : Nat) (isKind : Work → Bool) (w : Work) (rs : List Rng) (cs : List Nat) : Prop where
  up    : s.tripped = false
  work  : s.work id = some w
  kind  : isKind w = true
  can   : s.canStart w = true
  pre   : w.pre = 0
  rngs  : ∀ c ∈ s.rangesCodes w.die w.part rs, c = 0
  codes : ∀ c ∈ cs, c = 0
  clear : Clear s rs

/-- The host takes back the shared pages that the work `t` on some ranges owned (R492). -/
def State.released (s : State) (rs : List Rng) (t : State) : State := (s.pagesOf rs).foldl (fun s x => s.releasePage x.1 x.2) t

/-- The descriptor of a number has ended with a record to be written. -/
def Ended (s : State) (id : Nat) (c : Rec) : Prop := ∃ w, s.work id = some w ∧ w.ended = true ∧ w.res = c

/-! ## Descriptors -/

/-- KIND and COP of a collective descriptor. -/
def isColl (op : Nat → Bool) (w : Work) : Bool := w.kind == 0x20 && op w.cop

/-- KIND and FOP of a FLASH descriptor. -/
def isFlash (op : Nat → Bool) (w : Work) : Bool := w.kind == 0x30 && op w.fop

/-- KIND and HIST_OP of a HISTORY descriptor; a reserved HIST_OP goes with 0. -/
def isHist (op : Nat) (w : Work) : Bool := w.kind == 0x12 && (w.hOp == op || (op == 0 && decide (w.hOp > 3)))

/-- A history operation on each record of a descriptor in turn, and its end. -/
def eachHist (f : State → Work → Nat → State) (s : State) (w : Work) : State :=
  ((List.range w.hCount).foldl (fun s j => f s w j) s).endStatus w.id 0

/-- What the start of a descriptor goes by: its number, the test of its kind, the ranges that it touches, the codes that its kind's
checks give, and what it does once it is latched. -/
structure Desc where
  id     : Nat
  isKind : Work → Bool
  ranges : State → Work → List Rng
  codes  : State → Work → List Nat
  body   : State → Work → State

/-- The commands that start a descriptor of Table 13-3, but for DECODE, which counts what it finds as well. -/
def descOf : Instr → Option Desc
  | .nop id => some ⟨id, ofKind 0x00, noRanges, nopCodes, fun s w => s.endStatus w.id 0⟩
  | .copy id => some ⟨id, ofKind 0x01, copyRanges, copyCodes, State.copyBody⟩
  | .copyInline id => some ⟨id, ofKind 0x02, inlineRanges, inlineCodes, fun s w => (s.write (w.addr 8) w.inlineData).endStatus w.id 0⟩
  | .layerMark id => some ⟨id, ofKind 0x03, noRanges, markCodes, State.markBody⟩
  | .place id => some ⟨id, ofKind 0x04, noRanges, placeCodes, State.placeBody⟩
  | .prefetch id => some ⟨id, ofKind 0x05, pfRanges, pfCodes, fun s w => { s with lists := s.lists ++ [w.pfList] }⟩
  | .matrix id => some ⟨id, ofKind 0x10, mtxRanges, mtxCodes, State.mtxBody⟩
  | .convert id => some ⟨id, ofKind 0x11, cvtRanges, cvtCodes, State.cvtBody⟩
  | .vector id => some ⟨id, ofKind 0x13, vecRanges, vecCodes, State.vecBody⟩
  | .update id => some ⟨id, ofKind 0x14, noRanges, upCodes, State.upBody⟩
  | .gate id => some ⟨id, ofKind 0x15, gateRanges, gateCodes, State.gateBody⟩
  | .write id => some ⟨id, ofKind 0x2A, xferRanges, xferCodes, xferBody⟩
  | .writeInline id => some ⟨id, ofKind 0x2B, xferRanges, xferCodes, xferBody⟩
  | .send id => some ⟨id, ofKind 0x2C, xferRanges, xferCodes, xferBody⟩
  | .read id => some ⟨id, ofKind 0x2D, xferRanges, xferCodes, xferBody⟩
  | .postBuf id => some ⟨id, ofKind 0x2E, postRanges, postCodes, fun s _ => s⟩
  | .twin id => some ⟨id, ofKind 0x38, noRanges, twinSetCodes, fun s w => (s.write (s.twinAddr w.die w.twObj) (w.twNew.bytes ++ natLe 6 0)).endStatus w.id 0⟩
  | .revert id => some ⟨id, ofKind 0x39, noRanges, revertCodes, fun s w => (s.setTwin w.die w.twObj { s.twin w.die w.twObj with staged := true, revert := true, group := w.group, prev := false }).endStatus w.id 0⟩
  | .commit id => some ⟨id, ofKind 0x3A, noRanges, commitCodes, State.commitBody⟩
  | .domainSet id => some ⟨id, ofKind 0x3B, domainSetRanges, domainSetCodes, State.domainSetBody⟩
  | .holdSet id => some ⟨id, ofKind 0x3C, holdSetRanges, holdSetCodes, fun s w => (s.setHold w.hsHold { s.holdTemplate w with staged := false, prev := false, revert := false, stage := 0 }).endStatus w.id 0⟩
  | .manifest id f => some ⟨id, ofKind 0x3D, manifestRanges, manifestCodes, State.manifestBody f⟩
  | .connCreate id => some ⟨id, isConn 0, tmplRanges, createCodes, State.createBody⟩
  | .connModify id => some ⟨id, isConn 1, tmplRanges, modifyCodes, State.modifyBody⟩
  | .connDestroy id => some ⟨id, isConn 2, noRanges, destroyCodes, State.destroyBody⟩
  | .connQuery id => some ⟨id, isConn 3, queryRanges, queryCodes, fun s w => (s.write w.cAddr (s.ctx w.die w.cConn)).endStatus w.id 0⟩
  | .register id => some ⟨id, isRegion false, noRanges, registerCodes, State.registerBody⟩
  | .invalidate id => some ⟨id, isRegion true, noRanges, invalCodes, State.invalBody⟩
  | .allreduce id => some ⟨id, isColl (fun o => o == 0 || decide (8 ≤ o)), collRanges, collCodes, State.collBody⟩
  | .reduceScatter id => some ⟨id, isColl (· == 1), collRanges, collCodes, State.collBody⟩
  | .allgather id => some ⟨id, isColl (· == 2), collRanges, collCodes, State.collBody⟩
  | .shift id => some ⟨id, isColl (· == 3), collRanges, collCodes, State.collBody⟩
  | .permute id => some ⟨id, isColl (· == 4), collRanges, collCodes, State.collBody⟩
  | .exchange id => some ⟨id, isColl (· == 5), collRanges, collCodes, State.collBody⟩
  | .ret id => some ⟨id, isColl (· == 6), collRanges, collCodes, State.collBody⟩
  | .groupSet id => some ⟨id, isColl (· == 7), groupSetRanges, groupSetCodes, State.groupSetBody⟩
  | .flashRead id => some ⟨id, isFlash (fun o => o == 0 || decide (5 ≤ o)), flashRanges, flashCodes, State.flashBody⟩
  | .flashWrite id => some ⟨id, isFlash (· == 1), flashRanges, flashCodes, State.flashBody⟩
  | .flashZero id => some ⟨id, isFlash (· == 2), flashRanges, flashCodes, State.flashBody⟩
  | .flashTrim id => some ⟨id, isFlash (· == 3), flashRanges, flashCodes, State.flashBody⟩
  | .flashFlush id => some ⟨id, isFlash (· == 4), flashRanges, flashCodes, State.flashBody⟩
  | .histInit id => some ⟨id, isHist 0, histRanges, histCodes, eachHist (fun s w j => s.setHist w.die (w.hFirst + j) (HRec.ofBytes (s.bytes (w.hSrc + 64 * j) 64)).initFrom)⟩
  | .histClose id => some ⟨id, isHist 1, histRanges, histCodes, eachHist (fun s w j => s.closeOne w.die (w.hFirst + j))⟩
  | .histRearm id => some ⟨id, isHist 2, histRanges, histCodes, eachHist (fun s w j => s.setHist w.die (w.hFirst + j) { s.hist w.die (w.hFirst + j) with pend := false })⟩
  | .histClear id => some ⟨id, isHist 3, histRanges, histCodes, eachHist (fun s w j => s.setHist w.die (w.hFirst + j) (s.hist w.die (w.hFirst + j)).clear)⟩
  | _ => none

/-! ## Completion -/

/-- From `s` to `t`, bytes were stored from an address, and every other byte of memory reads as before. -/
def Wrote (s t : State) (a : Nat) (bs : List Byte) : Prop :=
  t.bytes a bs.length = bs ∧ ∀ x, x < a ∨ a + bs.length ≤ x → t.byte x = s.byte x

/-- Every byte of memory reads as before. -/
def SameMem (s t : State) : Prop := ∀ x, t.byte x = s.byte x

/-- A die that is up: it is there, out of reset, and the package has not tripped. -/
structure DieUp (s : State) (d : Nat) : Prop where
  live  : s.tripped = false
  there : d < s.part.dies
  up    : s.inReset d = false

/-- The packets of a connection with the context `b` leave: the transport of its PORT die is on, for the IP version of the context
(R303, Table 10-8). -/
structure Sends (s : State) (b : List Byte) : Prop where
  on  : s.xtOn (ctxPort b) = true
  ver : s.rbit (ctxPort b) Reg.xtCtrl (if bit (leAt b 3 1) 4 then 2 else 1) = true

/-- A packet for connection `c` that reaches die `d` finds a transport that is on there and on the connection's PORT die, which is in service and
joined with `d`, and the context's 256 bytes at hand in state READY (R303). -/
structure AtConn (s : State) (d c : Nat) : Prop where
  die    : DieUp s d
  on     : s.xtOn d = true
  count  : c < s.ctxCount d
  inside : s.ctxIn d c = true
  cached : s.cached c = true
  ready  : ctxState (s.ctx d c) = 1
  whole  : (s.ctx d c).length = 256
  sends  : Sends s (s.ctx d c)
  port   : s.dieOut (ctxPort (s.ctx d c)) = false
  joined : s.cutPair d (ctxPort (s.ctx d c)) = false

/-- A packet waits in the transmit queue of a die's port. -/
def Queued (s : State) (d : Nat) (P : Packet → Prop) : Prop := ∃ f ∈ (s.eth d).txq, ∃ k ip, f.item = .packet k ip ∧ P k

/-- The address for which a port takes a frame: the group address of MAC Control frames counts as its own for them (R270). -/
def State.frameFor (s : State) (d : Nat) (f : Frame) : Nat := if f.etype = 0x8808 && f.dst = 0x0180C2000001 then s.ethMac d else f.dst

/-- An intact frame that is no Ximel Link frame reaches a port that receives, for the port's address and with MACsec in order: rows 1 to 6
of Table 09-3 pass. -/
structure Hears (s : State) (d : Nat) (f : Frame) : Prop where
  die    : DieUp s d
  on     : s.receives d = true
  intact : s.frameBroken d f = none
  plain  : f.etype ≠ 0x88B5
  here   : s.addressed d (s.frameFor d f) = true
  secure : s.macsecOk d f.macsec = true

/-- The port after rows 1 to 6: the corrected codewords are counted and the packet number is noted. -/
def State.heard (s : State) (d : Nat) (f : Frame) : State := (s.bump d (ethCnt 5) f.fecCorr).notePn d f.macsec

/-- A Ximel Link control frame reaches a port that receives, for its address and with MACsec in order, while no retrain is asked for. -/
structure CtlHeard (s : State) (d : Nat) (x : LinkCtl) : Prop where
  die     : DieUp s d
  on      : s.receives d = true
  here    : s.addressed d x.dst = true
  secure  : s.macsecOk d x.macsec = true
  settled : (s.eth d).retrain = none

/-- A port can protect what it sends, and the packet number does not ask for a new key (R277, R278). -/
structure CanSend (s : State) (d : Nat) : Prop where
  ready : s.secReady d = true
  fresh : ∀ a, s.txSa d = some a → a.pn < 2 ^ 62

/-- What leaves a port when it sends a frame: the frame with the packet number that it takes, and its bytes. -/
def State.sentOf (s : State) (d : Nat) (f : TxFrame) (link : Option LinkHdr) : Output :=
  .sent d f ((s.nextPn d).1.map Prod.snd) link (wireFrame (s.ethMac d) f link (s.nextPn d).1)

/-- What leaves a port when it sends a Ximel Link control frame. -/
def State.ctlOf (s : State) (d kind width group : Nat) : Output :=
  s.sentOf d ⟨7, 0, false, none, .ctl⟩ (some ⟨kind, 0, (s.wire d 0).ack, width, group, 0, 0⟩)

/-- What leaves a port when it sends a MAC Control frame: on an active Ximel Link a numbered data frame (R280). -/
def State.pauseSent (s : State) (d : Nat) (x : PauseFrame) : Output :=
  let f : TxFrame := ⟨7, 0, false, none, .pause x⟩
  s.sentOf d f (if s.ximelOn d then some (dataHdr (s.wire d 0).next (s.wire d 0).ack f) else none)

/-- A wheel frame that comes by the die mesh to die `d` for its member of a MESH group there, from another member (R332, R337, R341). -/
structure AtMesh (s : State) (d : Nat) (f : WheelFrame) : Prop where
  die   : DieUp s d
  on    : s.rbit d Reg.whlCtrl 0 = true
  mine  : f.mesh = true
  ver   : f.ver = 1
  valid : (s.grp d f.group).valid = true
  mesh  : (s.grp d f.group).axis = 0
  here  : f.dstRank = (s.grp d f.group).rank
  src   : f.srcRank < (s.grp d f.group).n
  other : f.srcRank ≠ (s.grp d f.group).rank

/-- A commit frame of the version in use that reaches die `d` in sequence, for a domain that this package is a member of, from a member
that is not lost; the die that runs the domain is in service and joined with `d` (R18, R383, R393). -/
structure AtDomain (s : State) (d : Nat) (f : CommitFrame) : Prop where
  die   : DieUp s d
  on    : s.rbit d Reg.cmtCtrl 0 = true
  seq   : s.ximelOn d = true ∨ f.seq % 4096 = (s.wire d 2).expect
  here  : 6 ≤ d ∨ f.dstXyz = s.selfXyz
  valid : (s.domRec f.domain).valid = true
  gen   : f.gen = (s.domRec f.domain).gen
  runs  : s.rbit (s.domRec f.domain).die Reg.cmtCtrl 0 = true
  found : f.srcRank ∉ (s.dom f.domain).lost
  ver   : f.ver = 1
  home  : s.dieOut (s.domRec f.domain).die = false
  joined : s.cutPair d (s.domRec f.domain).die = false

/-- A request that reaches the guard of die 0 by a path of a class, with an opcode of Table 18-2 that the path may carry and the right
ARG_LEN (R561 to R563). -/
structure GuardHears (s : State) (r : GReq) (c : PathClass) (op : Nat) : Prop where
  up    : s.tripped = false
  runs  : s.guardRuns = true
  path  : s.pathClass r.path = some c
  isOp  : reqOp (s.reqBytes r) = op
  known : reqKnown (s.reqBytes r) = true
  may   : opPath op c = true

/-- A request command is answered with a refusal code and a result, and the guard leaves the state `u` behind it. -/
def Answers (c : Instr) (s : State) (r : GReq) (code : Nat) (result : List Byte) (u : State) : Prop :=
  exec c s = .next (u.answer r.path (s.reqBytes r) code result)

/-- The commands that carry a request of Table 18-2, with its opcode. -/
def guardOps (r : GReq) : List (Instr × Nat) :=
  [(.guardQuery r, 0x1), (.setClkLimit r, 0x2), (.setCapCeil r, 0x3), (.setCapSb r, 0x4), (.setTherm r, 0x5), (.setDisc r, 0x6),
   (.startDisc r, 0x7), (.guardReset r, 0x8), (.readLog r, 0x9), (.fwBegin r, 0xA), (.fwWrite r, 0xB), (.fwCommit r, 0xC),
   (.debugNonce r, 0xD), (.debugUnlock r, 0xE), (.svnAdvance r, 0xF)]

/-- An SPDM request of a supported version that reaches the guard once `steps` steps of the negotiation are done, in no session or in one
that is up (R575). -/
structure SpdmHears (s : State) (m : SpdmMsg) (code steps : Nat) : Prop where
  up      : s.tripped = false
  reach   : s.spdmReach m = true
  code    : leAt m.bytes 1 1 = code
  version : spdmVersion m.bytes = true
  phase   : steps ≤ (s.spdmOf m.doe).phase
  session : ∀ i, m.session = some i → s.sessUp i = true

/-- The answer to an SPDM request: whole, or an error that announces chunks where it is longer than a message may be (R575). -/
def State.spdmSend (s : State) (m : SpdmMsg) (r : List Byte) : State :=
  if r.length ≤ Config.spdmMax then s.spdmOut m.doe m.session r
  else (s.modSpdm m.doe fun x => { x with left := r }).spdmOut m.doe m.session (spdmError (leAt m.bytes 0 1) 0x0F 0 ++ natLe 1 0)

/-- A session over the DOE mailbox whose handshake is complete, with the guard running (R577). -/
structure OnDoe (s : State) (i : Nat) : Prop where
  up   : s.tripped = false
  runs : s.guardRuns = true
  sess : ∃ x, s.sessOf i = some x ∧ x.up = true ∧ x.doe = true

/-- Every register reads as before, but those of some keys. -/
def RegsBut (s t : State) (ks : List Nat) : Prop := ∀ d off, regKey d off ∉ ks → t.reg d off = s.reg d off

/-- A request of the host or of a peer arrives at BAR2: the link is up, the function is there, and it asks for bytes inside the BAR as
it is sized (R480, R481). -/
structure AtBar2 (s : State) (r : BusReq) : Prop where
  die  : DieUp s 0
  link : s.linkUp = true
  fn   : s.fnOn r.fn = true
  bar  : r.bar = 2
  len  : r.len ≠ 0
  inside : r.off + r.len ≤ 2 ^ s.bar2Bits (r.fn != 0)

/-- The half-dies of a request are the ones that its function may touch: all for the physical function where no locked partition owns
one, those of its partition for a virtual function (R481, R500). -/
def State.busMay (s : State) (r : BusReq) : Prop :=
  (r.fn = 0 ∧ s.lockedIn r.off r.len = []) ∨
  (r.fn ≠ 0 ∧ (halvesOf s.part.dies r.off r.len).all (fun u => s.ownsHalf 0 (r.fn - 1) u) = true)

/-- A write of four bytes reaches the register `r` that the map has at its offset, from a master that reaches the registers of its
die's block; the offset has no store of another kind behind it (R610, R611, R616, R618). -/
structure RegHit (s : State) (w : RegWrite) (r : RegDesc) : Prop where
  up    : s.tripped = false
  whole : w.be = 0xF
  word  : w.off % 4 = 0
  may   : s.regReach w.master = true
  die   : w.die < s.part.dies
  runs  : s.regInReset w.die w.off = false
  here  : regElsewhere w.die w.off = false
  row   : regDesc w.off = some r
  plain : s.wroteOnly w.die w.off w.value.toNat = none
  bell  : rowAt w.off (Reg.mbBell 0) 0x10 64 = none
  host  : w.die = 0 → s.hostWrite w.off w.value.toNat = none

/-- What an event of a matrix engine that it leaves as `x` does to memory: nothing while the engine holds work of descriptor `id`;
once it holds none, the descriptor ends and the output held for it is written (R29). -/
def Settles (s t : State) (x : Eng) (id : Nat) : Prop :=
  (x.done id = false → SameMem s t) ∧
  (x.done id = true → t.mem = (s.release id).mem ∧ ∀ w, s.work id = some w → ∃ v, t.work id = some v ∧ v.ended = true ∧ v.res.status = 0)

/-- Operand B of a lane: V[B], or S[B] broadcast. -/
def Ve.argB (x : Ve) (f : VFields) (l : Nat) : Nat := if f.bs then x.s f.b else x.lane f.b l

/-- Operand C of a lane: V[C], or S[C] broadcast. -/
def Ve.argC (x : Ve) (f : VFields) (l : Nat) : Nat := if f.cs then x.s f.c else x.lane f.c l

/-- From `s` to `t`, vector engine `v` of die `d` has applied `op` under the flushes in force: to the operands of every lane of V[D], or
with SC to those of S[D]; its other registers, memory and the registers are as before, and the instruction is counted (Table 07-2). -/
structure LaneDone (s t : State) (d v : Nat) (f : VFields) (op : Ve → Nat → Nat → Nat → Nat) : Prop where
  lanes   : f.sc = false → ∀ l, l < 2048 →
    (t.ve d v).lane f.d l = op (s.ve d v) ((s.ve d v).lane f.a l) ((s.ve d v).argB f l) ((s.ve d v).argC f l)
  others  : f.sc = false → (∀ i, i ≠ f.d → ∀ l, (t.ve d v).lane i l = (s.ve d v).lane i l) ∧ ∀ i, (t.ve d v).s i = (s.ve d v).s i
  scalar  : f.sc = true → (t.ve d v).s f.d = op (s.ve d v) ((s.ve d v).s f.a) ((s.ve d v).s f.b) ((s.ve d v).s f.c)
  scalars : f.sc = true → (∀ i, i ≠ f.d → (t.ve d v).s i = (s.ve d v).s i) ∧ ∀ i l, (t.ve d v).lane i l = (s.ve d v).lane i l
  memory  : SameMem s t
  regs    : t.regs = s.regs
  issued  : t.ctr d (Reg.veCntLo v 0) = Nat.min ctrMax (s.ctr d (Reg.veCntLo v 0) + 1)

/-- The command completes, and the state that it leaves has a property. -/
def Does (c : Instr) (s : State) (P : State → Prop) : Prop := ∃ t, exec c s = .next t ∧ P t

/-- A run is safe for `n` steps when none of them stops. -/
def Safe : Nat → State → Prop
  | 0, _ => True
  | n + 1, s => ∃ t, step s = .next t ∧ Safe n t

end Sys2Proof.Machine
end

