-- ==== Sys2Proof/Laws/Begin.lean ====
section
/-! SUPPORT. What starting a descriptor can do (R409, R431, R492), and what latching it and ending its work leave. -/

namespace Sys2Proof.Machine

theorem lowest_eq_zero {l : List Nat} : lowest l = 0 ↔ ∀ c ∈ l, c = 0 := by
  induction l with
  | nil => simp [lowest]
  | cons c l ih =>
    simp only [lowest]
    constructor
    · intro h
      split at h
      · rename_i hc
        intro x hx
        rcases List.mem_cons.mp hx with rfl | hx
        · exact hc
        · exact ih.mp h x hx
      · rename_i hc
        split at h
        · exact absurd h hc
        · rename_i hr
          simp only [Nat.min_def] at h
          split at h
          · exact absurd h hc
          · exact absurd h hr
    · intro h
      rw [if_pos (h c (by simp))]
      exact ih.mpr fun x hx => h x (by simp [hx])

/-! ## Works -/

theorem work_modWork (s : State) (id : Nat) (f : Work → Work) (hf : ∀ w, (f w).id = w.id) :
    (s.modWork id f).work id = (s.work id).map f := by
  unfold State.work State.modWork mapIf
  dsimp only
  induction s.seq.works with
  | nil => rfl
  | cons x l ih =>
    simp only [List.map_cons, List.find?_cons]
    by_cases h : (x.id == id) = true
    · simp [h, hf]
    · have h' : (x.id == id) = false := by simpa using h
      simp only [h', Bool.false_eq_true, if_false]
      exact ih

theorem work_modWork_other (s : State) (id j : Nat) (f : Work → Work) (hf : ∀ w, (f w).id = w.id) (h : j ≠ id) :
    (s.modWork id f).work j = s.work j := by
  unfold State.work State.modWork mapIf
  dsimp only
  induction s.seq.works with
  | nil => rfl
  | cons x l ih =>
    simp only [List.map_cons, List.find?_cons]
    by_cases hx : (x.id == id) = true
    · have e : x.id = id := by simpa using hx
      have hj : (x.id == j) = false := by simpa [e] using h.symm
      rw [if_pos hx, hf, hj]
      exact ih
    · rw [if_neg hx, ih]

theorem work_id {s : State} {id : Nat} {w : Work} (h : s.work id = some w) : w.id = id := by
  have := List.find?_some h
  simpa using this

theorem work_endWork (s : State) (id : Nat) (c : Rec → Rec) :
    (s.endWork id c).work id = (s.work id).map fun w => { w with started := true, ended := true, res := c w.res } :=
  work_modWork s id _ fun _ => rfl

theorem ended_endWork {s : State} {id : Nat} {w : Work} (h : s.work id = some w) (c : Rec → Rec) : Ended (s.endWork id c) id (c w.res) :=
  ⟨_, by rw [work_endWork, h]; rfl, rfl, rfl⟩

theorem ended_endStatus {s : State} {id : Nat} {w : Work} (h : s.work id = some w) (st : Nat) :
    Ended (s.endStatus id st) id { w.res with status := st } := ended_endWork h _

/-! ## Latching -/

theorem roundKey_state (s : State) (d p : Nat) (det : Bool) : ∃ n, (s.roundKey d p det).2 = { s with freeCtr := n } := by
  unfold State.roundKey
  split <;> exact ⟨_, rfl⟩

theorem latch_state (s : State) (w : Work) : ∃ q n, (s.latch w).1 = { s with seq := { s.seq with works := q }, freeCtr := n } := by
  unfold State.latch
  dsimp only
  repeat' split
  · exact ⟨_, _, rfl⟩
  · obtain ⟨n, e⟩ := roundKey_state s w.die w.part (s.rbit w.die Reg.seqDet w.part)
    rw [e]
    exact ⟨_, n, rfl⟩
  · exact ⟨_, _, rfl⟩

/-- What a descriptor has latched: its options, its mode and its key, or what it took before. -/
theorem latch_work_fields (s : State) (w : Work) : ∃ f m k b, (s.latch w).2 =
    { w with started := true, ftz := f, det := m, srKey := k, drawn := b } := by
  unfold State.latch
  dsimp only
  repeat' split
  all_goals exact ⟨_, _, _, _, rfl⟩

theorem latch_work_drawn (s : State) {w : Work} (h : w.drawn = true) : (s.latch w).2 = { w with started := true } := by
  unfold State.latch
  dsimp only
  rw [if_pos h]

theorem work_setWork {s : State} {w v : Work} (h : s.work w.id = some v) : (s.setWork w).work w.id = some w := by
  have h' := h
  unfold State.work at h' ⊢
  unfold State.setWork mapIf
  dsimp only
  revert h'
  induction s.seq.works with
  | nil => intro h'; cases h'
  | cons x l ih =>
    intro h'
    simp only [List.map_cons, List.find?_cons] at h' ⊢
    by_cases hx : (x.id == w.id) = true
    · simp [hx]
    · have hx' : (x.id == w.id) = false := by simpa using hx
      simp only [hx', Bool.false_eq_true, if_false] at h' ⊢
      exact ih h'

theorem latch_work {s : State} {w : Work} (h : s.work w.id = some w) : (s.latch w).1.work w.id = some (s.latch w).2 := by
  unfold State.latch
  dsimp only
  repeat' split
  · exact work_setWork (v := w) h
  · refine work_setWork (v := w) ?_
    obtain ⟨n, e⟩ := roundKey_state s w.die w.part (s.rbit w.die Reg.seqDet w.part)
    rw [e]
    exact h
  · exact work_setWork (v := w) h

/-! ## Counting accesses -/

theorem bumpFree_state (s : State) (d off : Nat) : ∃ c n, s.bumpFree d off = { s with ctrs := c, freeCtr := n } := ⟨_, _, rfl⟩

theorem touch_state (s : State) (wr : Bool) (a len : Nat) : ∃ c n, s.touch wr a len = { s with ctrs := c, freeCtr := n } := by
  have hf : ∀ (p : Nat → Bool) (off : Nat) (l : List Nat) (t : State),
      ∃ c n, l.foldl (fun (s : State) d => if p d = true then s.bumpFree d off else s) t = { t with ctrs := c, freeCtr := n } := by
    intro p off l
    induction l with
    | nil => exact fun t => ⟨t.ctrs, t.freeCtr, rfl⟩
    | cons d l ih =>
      intro t
      rw [List.foldl_cons]
      split
      · obtain ⟨c, n, e⟩ := ih (t.bumpFree d off)
        exact ⟨c, n, e⟩
      · exact ih t
  unfold State.touch
  repeat' split
  · exact ⟨_, _, rfl⟩
  · exact hf _ _ _ _
  · exact ⟨_, _, rfl⟩
  · exact ⟨_, _, rfl⟩

theorem hostReq_state (s : State) (p : Option Nat) (wr data : Bool) (a len : Nat) : ∃ o, s.hostReq p wr data a len = { s with out := o } := by
  unfold State.hostReq
  dsimp only
  split
  · exact ⟨_, rfl⟩
  · exact ⟨s.out, rfl⟩

/-- Counting accesses and sending the requests that they make changes counters, draws free values and gives output, and nothing else. -/
theorem touched_state (s : State) (w : Work) (rs : List Rng) : ∃ c n o, s.touched w rs = { s with ctrs := c, freeCtr := n, out := o } := by
  unfold State.touched
  split
  · exact ⟨_, _, s.out, rfl⟩
  · induction rs generalizing s with
    | nil => exact ⟨_, _, s.out, rfl⟩
    | cons r l ih =>
      rw [List.foldl_cons]
      obtain ⟨c, n, e⟩ := touch_state s r.wr r.a r.len
      obtain ⟨o, e1⟩ := hostReq_state (s.touch r.wr r.a r.len) (some w.part) r.wr true r.a r.len
      obtain ⟨c', n', o', e'⟩ := ih ((s.touch r.wr r.a r.len).hostReq (some w.part) r.wr true r.a r.len)
      rw [e', e1, e]
      exact ⟨_, _, _, rfl⟩

theorem touched_nil (s : State) (w : Work) : s.touched w [] = s := by
  unfold State.touched
  split <;> rfl

theorem touched_work (s : State) (w : Work) (rs : List Rng) (id : Nat) : (s.touched w rs).work id = s.work id := by
  obtain ⟨c, n, o, e⟩ := touched_state s w rs
  rw [e]
  rfl

/-! ## Giving up a die -/

/-- A context that gives up a die changes what SEQ_PART_STATUS and the switches under way say, and nothing else. -/
theorem leaveIdle_state (s : State) (d p : Nat) : ∃ r q, s.leaveIdle d p = { s with regs := r, seq := { s.seq with switchTo := q } } := by
  unfold State.leaveIdle State.beginSwitch State.setPartStatus
  dsimp only
  repeat' split
  all_goals exact ⟨_, _, rfl⟩

theorem leaveIdle_work (s : State) (d p id : Nat) : (s.leaveIdle d p).work id = s.work id := by
  obtain ⟨r, q, e⟩ := leaveIdle_state s d p
  rw [e]
  rfl

theorem leaveIdle_mem (s : State) (d p : Nat) : (s.leaveIdle d p).mem = s.mem := by
  obtain ⟨r, q, e⟩ := leaveIdle_state s d p
  rw [e]

theorem ended_leaveIdle {s : State} {id : Nat} {c : Rec} (h : Ended s id c) (d p : Nat) : Ended (s.leaveIdle d p) id c := by
  obtain ⟨w, hw, he, hr⟩ := h
  exact ⟨w, by rw [leaveIdle_work]; exact hw, he, hr⟩

/-- SEQ_PART_STATUS of a partition on a die is the only register that giving up a die changes. -/
theorem leaveIdle_reg (s : State) (d p e off : Nat) (h : regKey e off ≠ regKey d (Reg.seqPartStatus p)) :
    (s.leaveIdle d p).reg e off = s.reg e off := by
  have hp : ∀ c sw run, (s.setPartStatus d p c sw run).reg e off = s.reg e off := fun c sw run => State.reg_setReg_other s d _ e off _ h
  unfold State.leaveIdle State.beginSwitch
  dsimp only
  repeat' split
  all_goals first | rfl | exact hp _ _ _

/-! ## Releasing shared pages -/

theorem releasePage_state (s : State) (n : Nat) (own : Bool) :
    ∃ h o, s.releasePage n own = { s with hst := h, out := o } := by
  have hf : ∀ (l : List Nat) (t : State), ∃ o, l.foldl (fun (s : State) i => s.emit (.cacheEvict (n * 64 + i))) t = { t with out := o } := by
    intro l
    induction l with
    | nil => exact fun t => ⟨t.out, rfl⟩
    | cons i l ih =>
      intro t
      obtain ⟨o, e⟩ := ih (t.emit (.cacheEvict (n * 64 + i)))
      exact ⟨o, e⟩
  unfold State.releasePage
  dsimp only
  split
  · obtain ⟨o, e⟩ := hf (List.range 64) { s with hst := { s.hst with answered := without n s.hst.answered } }
    exact ⟨_, o, e⟩
  · exact ⟨_, s.out, rfl⟩

theorem released_state (s : State) (rs : List Rng) (t : State) : ∃ h o, s.released rs t = { t with hst := h, out := o } := by
  unfold State.released
  induction s.pagesOf rs generalizing t with
  | nil => exact ⟨t.hst, t.out, rfl⟩
  | cons x l ih =>
    obtain ⟨h, o, e⟩ := releasePage_state t x.1 x.2
    obtain ⟨h', o', e'⟩ := ih (t.releasePage x.1 x.2)
    refine ⟨h', o', ?_⟩
    rw [List.foldl_cons, e', e]

/-- With no shared page there is nothing to take back. -/
theorem released_nil (s : State) {rs : List Rng} (t : State) (h : s.pagesOf rs = []) : s.released rs t = t := by
  unfold State.released
  rw [h]
  rfl

theorem pagesOf_nil (s : State) : s.pagesOf [] = [] := rfl

theorem Clear.nil (s : State) : Clear s [] := ⟨fun _ h => absurd h (by simp), fun _ h => absurd h (by simp [pagesOf_nil])⟩

/-! ## Starting -/

theorem onRanges_clear {s : State} {rs : List Rng} (w : Work) (h : Clear s rs) (run : State → State) :
    s.onRanges w rs run = s.released rs (run (s.touched w rs)) := by
  unfold State.onRanges State.released
  dsimp only
  have h1 : rs.any (fun r => s.refetching r || s.measured r) = false := by
    rw [List.any_eq_false]
    intro r hr
    have := h.quiet r hr
    simp [this.1, this.2]
  have h2 : (s.pagesOf rs).filter (fun x => !(s.hst.answered.contains x.1)) = [] := by
    rw [List.filter_eq_nil_iff]
    intro x hx
    have := h.answered x hx
    simp [this]
  rw [if_neg (by simp [h1]), h2]
  rfl

/-- A descriptor that starts is latched and its body runs. -/
theorem begin_starts {s : State} {id : Nat} {isKind : Work → Bool} {w : Work} (ranges : State → Work → List Rng) (codes : State → Work → List Nat)
    (body : State → Work → State) (h : Starts s id isKind w (ranges s w) (codes s w)) :
    s.begin id isKind ranges codes body = (s.released (ranges s w)
      (body ((s.touched w (ranges s w)).latch w).1 ((s.touched w (ranges s w)).latch w).2)).leaveIdle w.on w.part := by
  unfold State.begin
  rw [h.work]
  dsimp only
  have hl : s.startCode w (ranges s w) (codes s w) = 0 := by
    unfold State.startCode
    rw [lowest_eq_zero]
    intro c hcm
    simp only [List.cons_append, List.mem_cons, List.mem_append, List.mem_map, List.mem_filter] at hcm
    rcases hcm with rfl | hcm | ⟨x, hx, rfl⟩
    · exact h.pre
    · exact h.rngs c hcm
    · rw [h.codes x hx.1]
      rfl
  have h255 : (codes s w).contains 255 = false := by
    rw [Bool.eq_false_iff]
    intro hc
    have := h.codes 255 (by simpa using hc)
    omega
  rw [if_pos (by rw [h.kind, h.can]; rfl), if_neg (by rw [hl]; simp), if_neg (by rw [h255]; simp), onRanges_clear w h.clear]

/-- A descriptor that its unit would start and that a check refuses ends with the lowest code (R431). -/
theorem begin_refuses {s : State} {id : Nat} {w : Work} (isKind : Work → Bool) (ranges : State → Work → List Rng)
    (codes : State → Work → List Nat) (body : State → Work → State) (hw : s.work id = some w) (hk : isKind w = true)
    (hc : s.canStart w = true) (h : s.startCode w (ranges s w) (codes s w) ≠ 0) :
    ∃ b, s.begin id isKind ranges codes body = (s.refuse w (s.startCode w (ranges s w) (codes s w)) b).leaveIdle w.on w.part := by
  unfold State.begin
  rw [hw]
  dsimp only
  rw [if_pos (by rw [hk, hc]; rfl), if_pos h]
  exact ⟨_, rfl⟩

/-- A descriptor that its unit does not start leaves everything as it is. -/
theorem begin_waits {s : State} {id : Nat} (isKind : Work → Bool) (ranges : State → Work → List Rng)
    (codes : State → Work → List Nat) (body : State → Work → State)
    (h : ∀ w, s.work id = some w → (isKind w && s.canStart w) = false) : s.begin id isKind ranges codes body = s := by
  unfold State.begin
  split
  · rfl
  · rename_i w hw
    rw [h w hw]
    rfl

end Sys2Proof.Machine
end

