-- ==== Sys2Proof/Laws/Memory.lean ====
section
/-! SUPPORT. Laws of memory: reading after a write, and the canonical form, which every operation that writes memory keeps. -/

namespace Sys2Proof.Machine

variable {df : Nat → Byte}

theorem wfFrom_mono {lo lo' : Nat} (h : lo' ≤ lo) {m : List Host.Cell} (w : cellsWfFrom df lo m = true) :
    cellsWfFrom df lo' m = true := by
  cases m with
  | nil => rfl
  | cons x m =>
    simp only [cellsWfFrom, Bool.and_eq_true, decide_eq_true_eq] at w ⊢
    exact ⟨⟨by omega, w.1.2⟩, w.2⟩

theorem wf_sorted {lo : Nat} {m : List Host.Cell} (w : cellsWfFrom df lo m = true) : kvFrom lo m ∧ kvSorted m := by
  induction m generalizing lo with
  | nil => exact ⟨fun x hx => by simp at hx, trivial⟩
  | cons x m ih =>
    simp only [cellsWfFrom, Bool.and_eq_true, decide_eq_true_eq] at w
    have := ih w.2
    refine ⟨fun y hy => ?_, this.1, this.2⟩
    simp at hy
    rcases hy with rfl | hy
    · exact w.1.1
    · have := this.1 y hy
      omega

theorem wf_put {lo : Nat} {m : List Host.Cell} (w : cellsWfFrom df lo m = true) {a : Nat} (ha : lo ≤ a) {b : Byte} (hb : b ≠ df a) :
    cellsWfFrom df lo (kvPut m a b) = true := by
  induction m generalizing lo with
  | nil => simp [kvPut, cellsWfFrom, ha, hb]
  | cons x m ih =>
    simp only [cellsWfFrom, Bool.and_eq_true, decide_eq_true_eq] at w
    simp only [kvPut]
    split
    · rename_i h
      simp only [cellsWfFrom, Bool.and_eq_true, decide_eq_true_eq]
      exact ⟨⟨ha, hb⟩, ⟨by omega, w.1.2⟩, w.2⟩
    · split
      · rename_i h
        subst h
        simp only [cellsWfFrom, Bool.and_eq_true, decide_eq_true_eq]
        exact ⟨⟨ha, hb⟩, w.2⟩
      · simp only [cellsWfFrom, Bool.and_eq_true, decide_eq_true_eq]
        exact ⟨w.1, ih w.2 (by omega)⟩

theorem wf_erase {lo : Nat} {m : List Host.Cell} (w : cellsWfFrom df lo m = true) (a : Nat) :
    cellsWfFrom df lo (kvErase m a) = true := by
  induction m generalizing lo with
  | nil => rfl
  | cons x m ih =>
    simp only [cellsWfFrom, Bool.and_eq_true, decide_eq_true_eq] at w
    simp only [kvErase]
    split
    · exact wfFrom_mono (by omega) w.2
    · simp only [cellsWfFrom, Bool.and_eq_true, decide_eq_true_eq]
      exact ⟨w.1, ih w.2⟩

theorem wf_set {m : List Host.Cell} (w : cellsWfFrom df 0 m = true) (a : Nat) (b : Byte) :
    cellsWfFrom df 0 (kvSet (df a) m a b) = true := by
  unfold kvSet
  split
  · exact wf_erase w a
  · rename_i h
    exact wf_put w (Nat.zero_le a) h

theorem wf_cellsWrite {m : List Host.Cell} (w : cellsWfFrom df 0 m = true) (a : Nat) (bs : List Byte) :
    cellsWfFrom df 0 (cellsWrite df m a bs) = true := by
  induction bs generalizing m a with
  | nil => exact w
  | cons b bs ih => exact ih (wf_set w a b) (a + 1)

theorem cellsWrite_before {m : List Host.Cell} (a x : Nat) (bs : List Byte) (h : x < a) :
    kvGet (df x) (cellsWrite df m a bs) x = kvGet (df x) m x := by
  induction bs generalizing m a with
  | nil => rfl
  | cons b bs ih =>
    simp only [cellsWrite]
    rw [ih (a + 1) (by omega), kvGet_kvSet_other _ _ _ _ _ _ (by omega)]

theorem cellsWrite_after {m : List Host.Cell} (a x : Nat) (bs : List Byte) (h : a + bs.length ≤ x) :
    kvGet (df x) (cellsWrite df m a bs) x = kvGet (df x) m x := by
  induction bs generalizing m a with
  | nil => rfl
  | cons b bs ih =>
    simp only [List.length_cons] at h
    simp only [cellsWrite]
    rw [ih (a + 1) (by omega), kvGet_kvSet_other _ _ _ _ _ _ (by omega)]

theorem cellsWrite_at {m : List Host.Cell} (w : cellsWfFrom df 0 m = true) (a i : Nat) (bs : List Byte) (h : i < bs.length) :
    kvGet (df (a + i)) (cellsWrite df m a bs) (a + i) = bs[i] := by
  induction bs generalizing m a i with
  | nil => simp at h
  | cons b bs ih =>
    simp only [cellsWrite]
    cases i with
    | zero =>
      simp only [Nat.add_zero, List.getElem_cons_zero]
      rw [cellsWrite_before _ _ _ (by omega), kvGet_kvSet_same _ (wf_sorted w).2]
    | succ i =>
      simp only [List.length_cons] at h
      have := ih (wf_set w a b) (a + 1) i (by omega)
      rw [show a + (i + 1) = a + 1 + i by omega]
      simpa using this

/-- Filtering cells keeps the form where what unlisted addresses read as is the same at the cells kept. -/
theorem wf_filter {df' : Nat → Byte} (p : Host.Cell → Bool) {lo : Nat} {m : List Host.Cell} (w : cellsWfFrom df lo m = true)
    (h : ∀ c ∈ m, p c = true → df' c.1 = df c.1) : cellsWfFrom df' lo (m.filter p) = true := by
  induction m generalizing lo with
  | nil => rfl
  | cons x m ih =>
    simp only [cellsWfFrom, Bool.and_eq_true, decide_eq_true_eq] at w
    have hm : ∀ c ∈ m, p c = true → df' c.1 = df c.1 := fun c hc => h c (by simp [hc])
    simp only [List.filter]
    split
    · rename_i hp
      simp only [cellsWfFrom, Bool.and_eq_true, decide_eq_true_eq]
      exact ⟨⟨w.1.1, by rw [h x (by simp) hp]; exact w.1.2⟩, ih w.2 hm⟩
    · exact wfFrom_mono (by omega) (ih w.2 hm)

/-! ## Marks and writes of a state -/

/-- Marking lines touches the poison list alone. -/
theorem markLines_poison (b : Bool) (ls : List Nat) (s : State) :
    ls.foldl (fun s l => s.markLine l b) s = { s with poison := (ls.foldl (fun s l => s.markLine l b) s).poison } := by
  induction ls generalizing s with
  | nil => rfl
  | cons l ls ih =>
    simp only [List.foldl_cons]
    rw [ih]
    rfl

/-- A write touches memory and poison marks alone. -/
theorem State.write_fields (s : State) (a : Nat) (bs : List Byte) (tag : Bool) :
    s.write a bs tag = { s with mem := cellsWrite s.dflt s.mem a bs, poison := (s.write a bs tag).poison } := by
  unfold State.write
  cases tag
  · simp only [Bool.false_eq_true, ↓reduceIte]
    rw [markLines_poison]
  · simp only [↓reduceIte]
    rw [markLines_poison, markLines_poison]

theorem State.dflt_congr {s t : State} (h : t.wiped = s.wiped) : t.dflt = s.dflt := by
  funext a
  unfold State.dflt State.wipedAt
  rw [h]

theorem State.write_wiped (s : State) (a : Nat) (bs : List Byte) (tag : Bool) : (s.write a bs tag).wiped = s.wiped := by
  rw [State.write_fields]

theorem State.write_mem (s : State) (a : Nat) (bs : List Byte) (tag : Bool) :
    (s.write a bs tag).mem = cellsWrite s.dflt s.mem a bs := by
  rw [State.write_fields]

/-- A write leaves every byte outside its range as it was. -/
theorem State.byte_write_outside (s : State) (a : Nat) (bs : List Byte) (tag : Bool) (x : Nat)
    (h : x < a ∨ a + bs.length ≤ x) : (s.write a bs tag).byte x = s.byte x := by
  unfold State.byte
  rw [State.write_mem, State.dflt_congr (State.write_wiped s a bs tag)]
  cases h with
  | inl h => exact cellsWrite_before _ _ _ h
  | inr h => exact cellsWrite_after _ _ _ h

/-- A byte reads as a write left it. -/
theorem State.byte_write_at (s : State) (w : s.memWf = true) (a : Nat) (bs : List Byte) (tag : Bool) (i : Nat) (h : i < bs.length) :
    (s.write a bs tag).byte (a + i) = bs[i] := by
  unfold State.byte
  rw [State.write_mem, State.dflt_congr (State.write_wiped s a bs tag)]
  exact cellsWrite_at w a i bs h

/-- The bytes of a range read as a write left them. -/
theorem State.bytes_write (s : State) (w : s.memWf = true) (a : Nat) (bs : List Byte) (tag : Bool) :
    (s.write a bs tag).bytes a bs.length = bs := by
  unfold State.bytes
  apply List.ext_getElem
  · simp
  · intro i h1 h2
    simp only [List.length_map, List.length_range] at h1
    simp only [List.getElem_map, List.getElem_range]
    exact State.byte_write_at s w a bs tag i h1

/-- A write keeps the canonical form. -/
theorem State.write_memWf (s : State) (w : s.memWf = true) (a : Nat) (bs : List Byte) (tag : Bool) :
    (s.write a bs tag).memWf = true := by
  unfold State.memWf
  rw [State.write_mem, State.dflt_congr (State.write_wiped s a bs tag)]
  exact wf_cellsWrite w a bs

/-- Leaving a range undefined keeps the canonical form. -/
theorem State.scramble_memWf (s : State) (w : s.memWf = true) (a len : Nat) : (s.scramble a len).memWf = true := by
  unfold State.scramble State.fresh
  exact State.write_memWf { s with freeCtr := s.freeCtr + 1 } w a _ false

end Sys2Proof.Machine
end

