-- ==== Sys2Proof/Laws/Events.lean ====
section
/-! SUPPORT. What raising an interrupt, posting an event and writing a completion record can change. -/

namespace Sys2Proof.Machine

namespace State

variable (s : State)

theorem interrupt_state (p v : Nat) : ∃ h o, s.interrupt p v = { s with hst := h, out := o } := by
  unfold interrupt sendVector
  dsimp only
  generalize (if (s.fnOn (p + 1) && s.msixEn (p + 1)) = true then p + 1 else 0) = fn
  split
  · exact ⟨s.hst, _, rfl⟩
  · exact ⟨_, s.out, rfl⟩

@[simp] theorem write_regs (a : Nat) (bs : List Byte) (tag : Bool) : (s.write a bs tag).regs = s.regs := by rw [write_fields]
@[simp] theorem write_part (a : Nat) (bs : List Byte) (tag : Bool) : (s.write a bs tag).part = s.part := by rw [write_fields]
@[simp] theorem write_ctrs (a : Nat) (bs : List Byte) (tag : Bool) : (s.write a bs tag).ctrs = s.ctrs := by rw [write_fields]
@[simp] theorem write_seq (a : Nat) (bs : List Byte) (tag : Bool) : (s.write a bs tag).seq = s.seq := by rw [write_fields]
@[simp] theorem write_hst (a : Nat) (bs : List Byte) (tag : Bool) : (s.write a bs tag).hst = s.hst := by rw [write_fields]
@[simp] theorem write_out (a : Nat) (bs : List Byte) (tag : Bool) : (s.write a bs tag).out = s.out := by rw [write_fields]
@[simp] theorem write_work (a : Nat) (bs : List Byte) (tag : Bool) (id : Nat) : (s.write a bs tag).work id = s.work id := by
  unfold work
  rw [write_seq]
theorem write_reg (a : Nat) (bs : List Byte) (tag : Bool) (d off : Nat) : (s.write a bs tag).reg d off = s.reg d off := by
  unfold reg
  rw [write_regs, write_part]
theorem write_regN (a : Nat) (bs : List Byte) (tag : Bool) (d off : Nat) : (s.write a bs tag).regN d off = s.regN d off := by
  unfold regN
  rw [write_reg]

/-- Counting one pass over a range changes the access counters and draws free values, and nothing else. -/
theorem access_state (wr : Bool) (a len : Nat) : ∃ c n, s.access wr a len = { s with ctrs := c, freeCtr := n } := by
  have hf : ∀ (p : Nat → Bool) (off : Nat) (g : Nat → Nat) (l : List Nat) (t : State),
      ∃ c, l.foldl (fun (s : State) d => if p d = true then s.bump d off (g d) else s) t = { t with ctrs := c } := by
    intro p off g l
    induction l with
    | nil => exact fun t => ⟨t.ctrs, rfl⟩
    | cons d l ih =>
      intro t
      rw [List.foldl_cons]
      split
      · obtain ⟨c, e⟩ := ih (t.bump d off (g d))
        exact ⟨c, e⟩
      · exact ih t
  unfold access
  repeat' split
  · exact ⟨_, _, rfl⟩
  · obtain ⟨c, e⟩ := hf (fun d => decide (Nat.max a (hbmSize * d) < Nat.min (a + len) (hbmSize * (d + 1)))) (Reg.hbmCntLo (b2n wr))
      (fun d => (Nat.min (a + len) (hbmSize * (d + 1)) - 1) / 64 + 1 - Nat.max a (hbmSize * d) / 64) (List.range s.part.dies) s
    simp only [decide_eq_true_eq] at e
    exact ⟨c, s.freeCtr, e⟩
  · exact ⟨_, _, rfl⟩
  · exact ⟨_, _, rfl⟩

/-- A record of bytes written and then its last byte, counted as one access, with the request that it makes. -/
theorem record_state (a b : Nat) (x y : List Byte) (n len : Nat) (p : Option Nat) (wr data : Bool) :
    ∃ m po c k o, (((s.write a x).write b y).access true n len).hostReq p wr data n len =
    { s with mem := m, poison := po, ctrs := c, freeCtr := k, out := o } := by
  obtain ⟨m, po, e⟩ : ∃ m po, s.write a x = { s with mem := m, poison := po } := ⟨_, _, s.write_fields a x false⟩
  obtain ⟨m', po', e'⟩ : ∃ m po, (s.write a x).write b y = { s with mem := m, poison := po } := by
    rw [e]
    exact ⟨_, _, write_fields _ b y false⟩
  rw [e']
  obtain ⟨c, k, e''⟩ := access_state (s := { s with mem := m', poison := po' }) true n len
  rw [e'']
  obtain ⟨o, e3⟩ := hostReq_state { s with mem := m', poison := po', ctrs := c, freeCtr := k } p wr data n len
  exact ⟨m', po', c, k, o, e3⟩

/-- An event record's write: 32 bytes of memory, EVQ_TAIL, counts, and the interrupt. -/
theorem evqWrite_state (p code d src : Nat) (payload : List Byte) : ∃ m po c k q h o, s.evqWrite p code d src payload =
    { s.setRegN 0 (Reg.evqTail p) (s.regN 0 (Reg.evqTail p) + 1) with mem := m, poison := po, ctrs := c, freeCtr := k, seq := { s.seq with evqArm := q }, hst := h, out := o } := by
  unfold evqWrite
  dsimp only
  obtain ⟨m, po, c, k, o, e⟩ := s.record_state (s.regAddr 0 (Reg.evqBaseLo p) + 32 * (s.regN 0 (Reg.evqTail p) % s.evqSize p))
    (s.regAddr 0 (Reg.evqBaseLo p) + 32 * (s.regN 0 (Reg.evqTail p) % s.evqSize p) + 31)
    (natLe 1 code ++ natLe 1 d ++ natLe 2 src ++ padTo 27 payload) (natLe 1 (1 - s.regN 0 (Reg.evqTail p) / s.evqSize p % 2))
    (s.regAddr 0 (Reg.evqBaseLo p) + 32 * (s.regN 0 (Reg.evqTail p) % s.evqSize p)) 32 none true false
  rw [e]
  generalize hu : State.bump _ _ _ _ = u
  have hu' : ∃ c, u = { s.setRegN 0 (Reg.evqTail p) (s.regN 0 (Reg.evqTail p) + 1) with mem := m, poison := po, ctrs := c, freeCtr := k, out := o } :=
    ⟨u.ctrs, by rw [← hu]; rfl⟩
  obtain ⟨c', rfl⟩ := hu'
  split
  · obtain ⟨h, o, e⟩ := interrupt_state (s := { s.setRegN 0 (Reg.evqTail p) (s.regN 0 (Reg.evqTail p) + 1) with mem := m, poison := po, ctrs := c', freeCtr := k, out := o, seq := { s.seq with evqArm := without p s.seq.evqArm } }) p (256 + p)
    exact ⟨m, po, c', k, _, h, o, e⟩
  · exact ⟨m, po, c', k, s.seq.evqArm, s.hst, o, rfl⟩

/-- Everything that posting an event can change. -/
theorem event_state (p code d src : Nat) (payload : List Byte) : ∃ c k r m po q l h o, s.event p code d src payload =
    { s with regs := r, ctrs := c, freeCtr := k, mem := m, poison := po, seq := { s.seq with evqArm := q, evLost := l }, hst := h, out := o } ∧
    (r = s.regs ∨ r = kvPut s.regs (regKey 0 (Reg.evqTail p)) (BitVec.ofNat 32 (s.regN 0 (Reg.evqTail p) + 1))) := by
  unfold event
  dsimp only
  split
  · obtain ⟨m, po, c, k, q, h, o, e⟩ := s.evqWrite_state p code d src payload
    exact ⟨c, k, _, m, po, q, _, h, o, e, Or.inr rfl⟩
  · exact ⟨_, s.freeCtr, s.regs, s.mem, s.poison, s.seq.evqArm, _, s.hst, s.out, rfl, Or.inl rfl⟩

theorem event_part (p code d src : Nat) (payload : List Byte) : (s.event p code d src payload).part = s.part := by
  obtain ⟨c, k, r, m, po, q, l, h, o, e, _⟩ := s.event_state p code d src payload
  rw [e]

theorem event_reg (p code d src : Nat) (payload : List Byte) (e off : Nat) (hk : regKey e off ≠ regKey 0 (Reg.evqTail p)) :
    (s.event p code d src payload).reg e off = s.reg e off := by
  obtain ⟨c, k, r, m, po, q, l, h, o, he, hr⟩ := s.event_state p code d src payload
  rw [he]
  unfold reg
  rcases hr with rfl | rfl
  · rfl
  · dsimp only
    rw [kvFind_kvPut_other _ _ _ _ hk]

theorem event_regN (p code d src : Nat) (payload : List Byte) (e off : Nat) (hk : regKey e off ≠ regKey 0 (Reg.evqTail p)) :
    (s.event p code d src payload).regN e off = s.regN e off := by
  unfold regN
  rw [event_reg _ _ _ _ _ _ _ _ hk]

theorem event_works (p code d src : Nat) (payload : List Byte) : (s.event p code d src payload).seq.works = s.seq.works := by
  obtain ⟨c, k, r, m, po, q, l, h, o, he, _⟩ := s.event_state p code d src payload
  rw [he]

theorem ringPart_setRing (r v : Nat) : (s.setRing r Reg.cqTail v).ringPart r = s.ringPart r := by
  have h : regKey (ringDie r) (Reg.ringCfg (ringNo r)) ≠ regKey (ringDie r) (Reg.cqTail (ringNo r)) := by
    unfold regKey Reg.ringCfg Reg.cqTail
    omega
  unfold ringPart ringReg setRing
  rw [regN_setRegN_other _ _ _ _ _ _ h]

/-- A completion record's write: 32 bytes of memory, CQ_TAIL, counts, the partition's sticky flags, and the interrupt. -/
theorem writeRec_state (r : Nat) (x : Rec) (irq : Bool) : ∃ m po c k q h o, s.writeRec r x irq =
    { (s.setRing r Reg.cqTail (s.cqTail r + 1)).setRegN (ringDie r) (Reg.cnvFlags (s.ringPart r)) (Nat.lor ((s.setRing r Reg.cqTail (s.cqTail r + 1)).regN (ringDie r) (Reg.cnvFlags (s.ringPart r))) x.flags) with mem := m, poison := po, ctrs := c, freeCtr := k, seq := { s.seq with cqArm := q }, hst := h, out := o } := by
  unfold writeRec
  dsimp only
  obtain ⟨m, po, c, k, o, e⟩ := s.record_state (s.regAddr (ringDie r) (Reg.cqBaseLo (ringNo r)) + 32 * (s.cqTail r % s.cqSize r))
    (s.regAddr (ringDie r) (Reg.cqBaseLo (ringNo r)) + 32 * (s.cqTail r % s.cqSize r) + 31) x.bytes (natLe 1 (1 - s.cqTail r / s.cqSize r % 2))
    (s.regAddr (ringDie r) (Reg.cqBaseLo (ringNo r)) + 32 * (s.cqTail r % s.cqSize r)) 32 none true false
  rw [e]
  generalize hu : State.bump (State.setRing _ _ _ _) _ _ _ = u
  have hu' : ∃ c, u = { s.setRing r Reg.cqTail (s.cqTail r + 1) with mem := m, poison := po, ctrs := c, freeCtr := k, out := o } :=
    ⟨u.ctrs, by rw [← hu]; rfl⟩
  obtain ⟨c', rfl⟩ := hu'
  have hp : ({ s.setRing r Reg.cqTail (s.cqTail r + 1) with mem := m, poison := po, ctrs := c', freeCtr := k, out := o } : State).ringPart r = s.ringPart r :=
    s.ringPart_setRing r (s.cqTail r + 1)
  rw [hp]
  split
  · obtain ⟨h, o, e⟩ := interrupt_state (s := { (s.setRing r Reg.cqTail (s.cqTail r + 1)).setRegN (ringDie r) (Reg.cnvFlags (s.ringPart r)) (Nat.lor ((s.setRing r Reg.cqTail (s.cqTail r + 1)).regN (ringDie r) (Reg.cnvFlags (s.ringPart r))) x.flags) with mem := m, poison := po, ctrs := c', freeCtr := k, out := o, seq := { s.seq with cqArm := without r s.seq.cqArm } }) (s.ringPart r) r
    exact ⟨m, po, c', k, _, h, o, e⟩
  · exact ⟨m, po, c', k, s.seq.cqArm, s.hst, o, rfl⟩

end State

end Sys2Proof.Machine
end

