-- ==== Sys2Proof/Laws/Descriptors.lean ====
section
/-! SUPPORT. What every descriptor command is: the start of its descriptor. A transfer that starts, and one that its checks refuse,
leave no context fetch behind. -/

namespace Sys2Proof.Machine

theorem live_eq {s t : State} (h : s.tripped = false) : live s t = .next t := by
  unfold live
  rw [h]
  rfl

theorem modConn_seq (s : State) (c : Nat) (f : Conn → Conn) : (s.modConn c f).seq = s.seq := by
  unfold State.modConn
  split <;> rfl

theorem setCtx_seq (s : State) (d c : Nat) (b : List Byte) : (s.setCtx d c b).seq = s.seq := by
  unfold State.setCtx
  split
  · rfl
  · exact State.write_seq _ _ _ _

theorem ctxPut_seq (s : State) (d c o : Nat) (b : List Byte) : (s.ctxPut d c o b).seq = s.seq := setCtx_seq _ _ _ _

theorem queueTx_seq (s : State) (d : Nat) (f : TxFrame) : (s.queueTx d f).seq = s.seq := by
  unfold State.queueTx State.modEth
  dsimp only
  repeat' split
  all_goals rfl

theorem sendPacket_seq (s : State) (b : List Byte) (k : Packet) (f : Bool) : (s.sendPacket b k f).seq = s.seq := by
  unfold State.sendPacket
  dsimp only
  repeat' split
  all_goals first | rfl | (rw [queueTx_seq]; rfl)

theorem pump_seq (d c n : Nat) (s : State) : (State.pump d c n s).seq = s.seq := by
  induction n generalizing s with
  | zero => rfl
  | succ n ih =>
    unfold State.pump
    dsimp only
    repeat' split
    all_goals first | rfl | skip
    rw [ih, modConn_seq, sendPacket_seq]

theorem xferBody_seq (s : State) (w : Work) : (xferBody s w).seq = s.seq := by
  unfold xferBody
  dsimp only
  rw [pump_seq]
  unfold State.touchCtx
  dsimp only
  rw [modConn_seq, ctxPut_seq, ctxPut_seq]

theorem beginXfer_starts {s : State} {id k : Nat} {w : Work} (h : Starts s id (ofKind k) w (xferRanges s w) (xferCodes s w)) :
    s.beginXfer id k = (s.released (xferRanges s w)
      (xferBody ((s.touched w (xferRanges s w)).latch w).1 ((s.touched w (xferRanges s w)).latch w).2)).leaveIdle w.on w.part := by
  unfold State.beginXfer
  have e := begin_starts xferRanges xferCodes xferBody h
  dsimp only
  rw [show (fun (w : Work) => w.kind == k) = ofKind k from rfl, e]
  have hid := work_id h.work
  have hw : ((s.released (xferRanges s w) (xferBody ((s.touched w (xferRanges s w)).latch w).1 ((s.touched w (xferRanges s w)).latch w).2)).leaveIdle
      w.on w.part).work id = some ((s.touched w (xferRanges s w)).latch w).2 := by
    rw [leaveIdle_work]
    obtain ⟨hh, o, e2⟩ := released_state s (xferRanges s w) (xferBody ((s.touched w (xferRanges s w)).latch w).1 ((s.touched w (xferRanges s w)).latch w).2)
    rw [e2]
    unfold State.work
    dsimp only
    rw [xferBody_seq]
    have := latch_work (s := s.touched w (xferRanges s w)) (w := w) (by rw [hid, touched_work]; exact h.work)
    rw [hid] at this
    exact this
  rw [hw]
  dsimp only
  have hs : ((s.touched w (xferRanges s w)).latch w).2.started = true := by
    obtain ⟨_, _, _, _, e⟩ := latch_work_fields (s.touched w (xferRanges s w)) w
    rw [e]
  rw [if_neg (by simp [hs])]

theorem ended_refuse {s : State} {w : Work} (h : s.work w.id = some w) (c : Nat) (b : Bool) :
    Ended (s.refuse w c b) w.id { w.res with status := c } ∧ (s.refuse w c b).mem = s.mem ∧ (s.refuse w c b).regs = s.regs := by
  unfold State.refuse State.accessRefused
  dsimp only
  refine ⟨ended_endStatus (w := w) ?_ c, ?_, ?_⟩
  · repeat' split
    all_goals exact h
  · repeat' split
    all_goals rfl
  · repeat' split
    all_goals rfl

theorem beginXfer_refused {s : State} {id k c : Nat} {w : Work} (hw : s.work id = some w) (hk : ofKind k w = true) (hc : s.canStart w = true)
    (e : c = s.startCode w (xferRanges s w) (xferCodes s w)) (h0 : c ≠ 0) :
    ∃ b, s.beginXfer id k = (s.refuse w c b).leaveIdle w.on w.part := by
  unfold State.beginXfer
  dsimp only
  obtain ⟨b, eb⟩ := begin_refuses _ xferRanges xferCodes xferBody hw hk hc (e ▸ h0)
  rw [show (fun (w : Work) => w.kind == k) = ofKind k from rfl, eb, ← e]
  have hid := work_id hw
  subst hid
  have hv : (s.refuse w c b).work w.id = some { w with started := true, ended := true, res := { w.res with status := c } } := by
    unfold State.refuse State.accessRefused
    dsimp only
    unfold State.endStatus
    rw [work_endWork]
    have : ∀ t : State, t.seq = s.seq → t.work w.id = some w := by
      intro t ht
      unfold State.work
      rw [ht]
      exact hw
    rw [this]
    · rfl
    · repeat' split
      all_goals rfl
  rw [leaveIdle_work, hv]
  dsimp only
  rw [if_neg (by simp)]
  exact ⟨b, rfl⟩

/-- A descriptor command runs on the live package the start of its descriptor; a transfer may ask for its context as well. -/
theorem desc_exec {c : Instr} {D : Desc} (hD : descOf c = some D) (s : State) :
    exec c s = live s (s.begin D.id D.isKind D.ranges D.codes D.body) ∨
      ∃ k, D = ⟨D.id, ofKind k, xferRanges, xferCodes, xferBody⟩ ∧ exec c s = live s (s.beginXfer D.id k) := by
  unfold descOf at hD
  split at hD
  all_goals first | (injection hD with hD; subst hD) | cases hD
  all_goals first | exact Or.inr ⟨_, rfl, rfl⟩ | exact Or.inl rfl

end Sys2Proof.Machine
end

