-- ==== Sys2Proof/Certificates/Slice0/Obligations.lean ====
section
/-! DEFINITION. The statements for the provers. Each docstring names the rules of the spec that it rests on, and the entries of the
assumption log where part of it is the model's own choice. -/

section

open Sys2Proof Sys2Proof.Machine

/-- A step runs the command at the front of the queue on the state with the rest of it. The model's own choices in it: log 8. -/
def Obligations.StepRunsFront : Prop :=
  (∀ (s : State) (c : Instr) (rest : List Instr), s.pending = c :: rest → step s = exec c { s with pending := rest }) ∧
  (∀ s : State, s.pending = [] → step s = .next { s with refCount := s.refCount + 1 })

/-- The state after reset. R574. The model's own choices in it: log 2, 9, 10. -/
def Obligations.ResetState : Prop :=
  State.reset.Inv ∧ State.reset.pending = [] ∧ State.reset.mem = [] ∧ State.reset.tripped = false ∧ State.reset.grd.sess = [] ∧
  State.reset.measLog.entries = [] ∧ (∀ d off, State.reset.reg d off = resetValue .t8 d off) ∧ (∀ d off, State.reset.ctr d off = 0) ∧
  (∀ r, r < 256 → State.reset.ringOn r = false) ∧ (∀ d p, p < 16 → State.reset.partOn d p = false) ∧
  State.reset.linkUp = false ∧ (∀ d, State.reset.portUp d = false) ∧ State.reset.discState = 0 ∧ State.reset.stage_ = 0

/-- Every step keeps the invariant, the part and the order of the queue. R574, R575, R581. The model's own choices in it: log 9. -/
def Obligations.StepKeepsInvariant : Prop :=
  ∀ s t : State, s.Inv → step s = .next t → t.Inv ∧ t.part = s.part ∧ t.pending = s.pending.tail

/-- Every command answers a next state. R6. The model's own choices in it: log 67. -/
def Obligations.CommandsComplete : Prop :=
  ∀ (c : Instr) (s : State), ∃ t, exec c s = .next t

/-- What commands leave unchanged. R614. The model's own choices in it: log 11, 69. -/
def Obligations.CommandFrames : Prop :=
  (∀ (c : Instr) (s t : State), exec c s = .next t → t.pending = s.pending ∧ t.part = s.part) ∧
  (∀ (s t : State) (d i : Nat) (b : Bool) (x y : W32) (c : Instr),
    c ∈ [Instr.counterLoRead d i b, .counterClear d i x y, .w1cClear d i x y, .seqActPeakClr d x, .rasLogClr d x, .grdLostClr d x, .domainStart d i,
      .domainStop d i, .evqEnable i x] → exec c s = .next t → t = { s with regs := t.regs, ctrs := t.ctrs, out := t.out, freeCtr := t.freeCtr }) ∧
  (∀ (s t : State) (d v : Nat) (f : VFields) (c : Instr),
    c ∈ [Instr.veNop d v f, .ld d v f, .st d v f, .movi d v f, .add d v f, .sub d v f, .mul d v f, .fma d v f, .fnma d v f, .max d v f, .min d v f,
      .maxnum d v f, .minnum d v f, .abs d v f, .neg d v f, .sellt d v f, .exp d v f, .rcp d v f, .rsqrt d v f, .ssum d v f, .smaxa d v f] →
    exec c s = .next t → t = { s with ves := t.ves, ctrs := t.ctrs }) ∧
  (∀ (s t : State) (d i : Nat) (ps : List Nat) (c : Instr),
    c ∈ [Instr.pauseTimerExpire d i, .poolHighCross d ps, .poolLowCross d ps, .pauseRepeat d i, .ximelAckTimer d, .ximelNakResend d] → exec c s = .next t →
    t = { s with eths := t.eths, wires := t.wires, ctrs := t.ctrs, out := t.out, grd := t.grd, regs := t.regs } ∧
      RegsBut s t [regKey 0 Reg.grdStatus])

/-- After a thermal trip no command but a reset changes the package. R527. The model's own choices in it: log 54. -/
def Obligations.TrippedPackage : Prop :=
  ∀ (c : Instr) (s t : State), s.tripped = true → exec c s = .next t → (∀ x, c ≠ .powerOn x) → (∀ p x, c ≠ .coldReset p x) → c ≠ .pwrgoodFall →
    c ≠ .resetEnd → (∀ d x, c ≠ .thermalRead d x) → (∀ r, c ≠ .fanFail r) → (∀ r, c ≠ .fanRecover r) → (∀ d, c ≠ .guardRestart d) → t = s

/-- An offset that no table names reads zero and takes no write. R611. -/
def Obligations.UnnamedOffsets : Prop :=
  ∀ (s : State) (d off : Nat), s.tripped = false → off < 2 ^ 24 → off % 4 = 0 → regDesc off = none → (d = 0 → s.hostRead off = none) →
    exec (.counterLoRead d off false) s = .next (s.emit (.readData 0)) ∧
    ∀ w : RegWrite, w.off = off → w.die = d → (∀ n, w.master ≠ .vf n) → exec (.registerWrite w none) s = .next s

/-- What a register write does. R500, R559, R560, R610, R613, R616, R618. The model's own choices in it: log 61. -/
def Obligations.RegisterWrites : Prop :=
  (∀ (s : State) (w : RegWrite) (r : RegDesc), RegHit s w r →
    let d := w.die; let off := w.off; let v := w.value.toNat; let old := s.regN d off
    (r.rwg = 0 → r.w1c = 0 → r.rw = 0 → exec (.registerWrite w none) s = .next s) ∧
    (r.rwg = 0 → r.w1c = 0 → r.rw ≠ 0 → (∀ p, s.regTdi d off = some p → s.tdiLocked p = false) →
      (s.regLocked d off = true → exec (.registerWrite w none) s = .next s) ∧
      (s.regLocked d off = false →
        exec (.registerWrite w none) s = .next (s.regStore d off (s.part.regFix d off (Nat.land v r.rw + (old - Nat.land old r.rw)))))) ∧
    (∀ p, r.rwg = 0 → r.w1c = 0 → r.rw ≠ 0 → w.master = .pf → s.regTdi d off = some p → s.tdiLocked p = true →
      Does (.registerWrite w none) s fun t => t.regs = s.regs ∧ t.mem = s.mem ∧ t.tdi (p + 1) = 3 ∧
        t.ctr 0 (Reg.hstCntLo 7) = Nat.min ctrMax (s.ctr 0 (Reg.hstCntLo 7) + 1)) ∧
    (r.rwg = 0 → r.w1c ≠ 0 → Does (.registerWrite w none) s fun t =>
      (∀ i, i < 32 → t.rbit d off i = (s.rbit d off i && !(bit v i && bit r.w1c i))) ∧ RegsBut s t [regKey d off] ∧ t.mem = s.mem) ∧
    (r.rwg ≠ 0 → w.master ≠ .guard → Does (.registerWrite w none) s fun t => t.mem = s.mem ∧
      t.ctr d Reg.grdLostCntLo = Nat.min ctrMax (s.ctr d Reg.grdLostCntLo + 1) ∧
      t.regN d (Reg.grdLostLog (s.rf d Reg.grdLostHead 0 5) 1) = off % 2 ^ 24 ∧
      RegsBut s t (regKey d Reg.grdLostHead :: (List.range 4).map fun k => regKey d (Reg.grdLostLog (s.rf d Reg.grdLostHead 0 5) k))) ∧
    (r.rwg ≠ 0 → w.master = .guard → off ≠ Reg.clkLimit → off ≠ Reg.pwrCapSb → off ≠ Reg.pwrCapCeil → Does (.registerWrite w none) s fun t =>
      t.regN d off = s.part.regFix d off (Nat.land v r.rwg) % 2 ^ 32 ∧ RegsBut s t [regKey d off] ∧ t.mem = s.mem)) ∧
  (∀ (s : State) (w : RegWrite), s.tripped = false → (w.be ≠ 0xF ∨ (∀ n, w.master ≠ .vf n) ∧ s.regReach w.master = false) →
    exec (.registerWrite w none) s = .next s) ∧
  (∀ (s : State) (a b : RegWrite), s.tripped = false → (regTarget a ≠ regTarget b ∨ a.master = b.master) →
    exec (.registerWrite a (some b)) s = .next ((s.regWrite1 a).regWrite1 b))

/-- A W1C bit set in the cycle that clears it reads 1; reads of counters and the clearing registers. R614, R616. The model's own
choices in it: log 69. -/
def Obligations.CountersAndClears : Prop :=
  ∀ (s : State) (d : Nat), DieUp s d →
    (∀ (off : Nat) (wide : Bool), off % 4 = 0 → isCtrLo off = true → s.regInReset d off = false → regElsewhere d off = false →
      Does (.counterLoRead d off wide) s fun t => (s.partSeen d off = false → t.ctrs = s.ctrs) ∧
        (∃ n, t.ctr d off = Nat.min ctrMax (s.ctr d off + n)) ∧ (∀ e o, regKey e o ≠ regKey d off → t.ctr e o = s.ctr e o) ∧
        t.regN d (off + 4) = t.ctr d off / 2 ^ 32 % 2 ^ 32 ∧ RegsBut s t [regKey d (off + 4)] ∧ t.mem = s.mem ∧
        t.out = s.out ++ [.readData (t.ctr d off % 2 ^ (if wide then 64 else 32))]) ∧
    (∀ off, off % 4 = 0 → isCtrLo off = false → exec (.counterLoRead d off false) s = .next (s.emit (.readData (s.regRead d off)))) ∧
    (∀ (off : Nat) (value incs : W32), regElsewhere d off = false → Does (.counterClear d off value incs) s fun t =>
      (∀ x ∈ clearedBy off value.toNat, t.ctr d x.2 = b2n (bit incs.toNat x.1)) ∧ t.regs = s.regs ∧ t.mem = s.mem ∧
      ∀ e o, (∀ x ∈ clearedBy off value.toNat, regKey e o ≠ regKey d x.2) → t.ctr e o = s.ctr e o) ∧
    (∀ (off : Nat) (value sets : W32) (r : RegDesc), regElsewhere d off = false → regDesc off = some r → Does (.w1cClear d off value sets) s fun t =>
      (∀ i, i < 32 → t.rbit d off i = (bit r.w1c i && bit sets.toNat i || s.rbit d off i && !(bit r.w1c i && bit value.toNat i))) ∧
      RegsBut s t [regKey d off] ∧ t.mem = s.mem ∧ t.ctrs = s.ctrs) ∧
    (∀ value : W32, Does (.seqActPeakClr d value) s fun t => (∀ p, p < 16 → bit value.toNat p = true → t.regN d (Reg.seqActPeak p) = s.regN d (Reg.seqActCur p)) ∧
      RegsBut s t ((bitsOf value.toNat 16).map fun p => regKey d (Reg.seqActPeak p)) ∧ t.mem = s.mem ∧ t.ctrs = s.ctrs) ∧
    (∀ value : W32, bit value.toNat 0 = true →
      (Does (.rasLogClr d value) s fun t => (∀ i k, i < 64 → k < 4 → t.regN d (Reg.rasLog i k) = 0) ∧ t.regN d Reg.rasLogHead = 0 ∧ t.mem = s.mem ∧
        t.ctrs = s.ctrs) ∧
      Does (.grdLostClr d value) s fun t => (∀ i k, i < 32 → k < 4 → t.regN d (Reg.grdLostLog i k) = 0) ∧ t.regN d Reg.grdLostHead = 0 ∧
        t.ctr d Reg.grdLostCntLo = 0 ∧ t.mem = s.mem) ∧
    (∀ value : W32, bit value.toNat 0 = false → exec (.rasLogClr d value) s = .next s ∧ exec (.grdLostClr d value) s = .next s)

/-- The three doorbells of a ring, taken and turned away. R417, R418, R419. The model's own choices in it: log 43. -/
def Obligations.Doorbells : Prop :=
  ((∀ (s : State) (r : Nat) (b : Bell), s.tripped = false → s.inReset (ringDie r) = false → s.bellBarred r b.master = false →
    (s.isServing r = false ∨ b.master = .sequencer) → b.value.toNat < 2 ^ 32 → s.ringOn r = true →
    modSub 32 b.value.toNat (s.ringPi r) ≤ s.ringSize r - modSub 32 (s.ringPi r) (s.ringCi r) →
    Does (.doorbellPi r b none) s fun t => t.ringPi r = b.value.toNat ∧
      t.ctr (ringDie r) (Reg.ringCntLo 2) = Nat.min ctrMax (s.ctr (ringDie r) (Reg.ringCntLo 2) + 1) ∧
      t.mem = s.mem ∧ t.seq.works = s.seq.works) ∧
  (∀ (s : State) (r : Nat) (b : Bell), s.tripped = false → s.inReset (ringDie r) = false → s.bellBarred r b.master = false →
    b.value.toNat < 2 ^ 33 → s.ringOn r = true →
    modSub 32 (b.value.toNat % 2 ^ 32) (s.cqHead r) ≤ modSub 32 (s.cqTail r) (s.cqHead r) →
    Does (.doorbellCqHead r b none) s fun t => t.cqHead r = b.value.toNat % 2 ^ 32 ∧
      t.ctr (ringDie r) (Reg.ringCntLo 2) = Nat.min ctrMax (s.ctr (ringDie r) (Reg.ringCntLo 2) + 1) ∧
      (bit b.value.toNat 32 = true → r ∈ t.seq.cqArm) ∧ (bit b.value.toNat 32 = false → t.seq.cqArm = s.seq.cqArm) ∧ t.mem = s.mem) ∧
  (∀ (s : State) (r : Nat) (b : Bell), s.tripped = false → s.inReset (ringDie r) = false → s.bellBarred r b.master = false →
    b.value.toNat < 2 ^ 33 → s.ringOn r = true →
    modSub 32 (b.value.toNat % 2 ^ 32) (s.regN 0 (Reg.evqHead (s.ringPart r))) ≤ s.evqUsed (s.ringPart r) →
    Does (.doorbellEvqHead r b none) s fun t => t.regN 0 (Reg.evqHead (s.ringPart r)) = b.value.toNat % 2 ^ 32 ∧
      t.ctr (ringDie r) (Reg.ringCntLo 2) = Nat.min ctrMax (s.ctr (ringDie r) (Reg.ringCntLo 2) + 1))) ∧
  (∀ (s : State) (r : Nat) (b : Bell), s.tripped = false → s.inReset (ringDie r) = false → s.bellBarred r b.master = false →
    (s.ringOn r = false ∨ 2 ^ 33 ≤ b.value.toNat) →
    (∀ c : Instr, c = .doorbellPi r b none ∧ s.isServing r = false ∨ c = .doorbellCqHead r b none ∨ c = .doorbellEvqHead r b none →
      Does c s fun t => t.ringStat r 3 = true ∧ t.ringPi r = s.ringPi r ∧ t.cqHead r = s.cqHead r ∧
        t.regN 0 (Reg.evqHead (s.ringPart r)) = s.regN 0 (Reg.evqHead (s.ringPart r)) ∧
        t.ctr (ringDie r) (Reg.ringCntLo 3) = Nat.min ctrMax (s.ctr (ringDie r) (Reg.ringCntLo 3) + 1)))

/-- Fetching and accepting a slot, and unmasking a vector. R410, R411, R415, R416, R420, R487. The model's own choices in it: log 7,
43. -/
def Obligations.FetchAccept : Prop :=
  (∀ (s : State) (r n : Nat), s.tripped = false → r < s.part.rings → s.ringOn r = true → 1 ≤ n → s.nextFetch r ≠ s.ringPi r →
    s.ringStat r 2 = false → s.slotReadable (s.slotAddr r (s.nextFetch r)) = true →
    Does (.descriptorFetch r n) s fun t => (⟨r, s.nextFetch r, s.bytes (s.slotAddr r (s.nextFetch r)) 64,
      s.tagged (s.slotAddr r (s.nextFetch r)) 64⟩ : Slot) ∈ t.seq.fetched) ∧
  (∀ (s : State) (r n : Nat), s.tripped = false → r < s.part.rings → s.ringOn r = true → 1 ≤ n → s.nextFetch r ≠ s.ringPi r →
    s.ringStat r 2 = false → s.slotReadable (s.slotAddr r (s.nextFetch r)) = false →
    Does (.descriptorFetch r n) s fun t => t.ringStat r 2 = true ∧ t.seq.fetched = s.seq.fetched) ∧
  (∀ (s : State) (d r : Nat) (x : Slot), DieUp s d → s.pickRing d = some r → s.headSlot r = some x →
    Does (.descriptorAccept d) s fun t => t.ringCi r = (s.ringCi r + 1) % 2 ^ 32 ∧ t.seq.nextId = s.seq.nextId + 1 ∧
      (∃ w ∈ t.seq.works, w.id = s.seq.nextId ∧ w.ring = r ∧ w.bytes = x.bytes ∧ w.part = s.ringPart r ∧ (x.poison = true → w.ended = true ∧ w.res.status = 8) ∧
        (x.poison = false → kindKnown (leAt x.bytes 0 1) = true → s.ringRx r = (leAt x.bytes 0 1 == 0x2E) → w.started = false ∧ w.ended = false)) ∧
      x ∉ t.seq.fetched ∧ ((∀ y ∈ s.srvs, y.toCopy = []) → t.mem = s.mem)) ∧
  (∀ (s : State) (fn v : Nat), s.tripped = false → v < 336 → s.fnOn fn = true →
    Does (.msixUnmask fn v) s fun t => bit (t.msixWord fn (4 * v + 3)) 0 = false)

/-- A descriptor that no check refuses runs. R409, R411, R427, R431, R492. The model's own choices in it: log 13, 43, 69. -/
def Obligations.DescriptorRuns : Prop :=
  ∀ (c : Instr) (D : Desc) (s : State) (w : Work), descOf c = some D → Starts s D.id D.isKind w (D.ranges s w) (D.codes s w) →
    exec c s = .next ((s.released (D.ranges s w)
      (D.body ((s.touched w (D.ranges s w)).latch w).1 ((s.touched w (D.ranges s w)).latch w).2)).leaveIdle w.on w.part)

/-- A descriptor that a check refuses ends with the lowest code and does nothing. R431. The model's own choices in it: log 7. -/
def Obligations.DescriptorRefused : Prop :=
  ∀ (c : Instr) (D : Desc) (s : State) (w : Work) (k : Nat), descOf c = some D → s.tripped = false → s.work D.id = some w → D.isKind w = true →
    s.canStart w = true → k = s.startCode w (D.ranges s w) (D.codes s w) → k ≠ 0 →
    Does c s fun t => Ended t D.id { w.res with status := k } ∧ t.mem = s.mem ∧ RegsBut s t [regKey w.on (Reg.seqPartStatus w.part)]

/-- What the movers and the table descriptors store. R36, R249, R302, R308, R334, R370, R381. The model's own choices in it: log 38,
40, 42. -/
def Obligations.DescriptorEffects : Prop :=
  ((∀ (s : State) (id : Nat) (w : Work), Starts s id (ofKind 0x00) w [] (nopCodes s w) →
    Does (.nop id) s fun t => Ended t id { w.res with status := 0 } ∧ SameMem s t ∧ RegsBut s t [regKey w.on (Reg.seqPartStatus w.part)] ∧ t.ctrs = s.ctrs) ∧
  (∀ (s : State) (id : Nat) (w : Work), s.memWf = true → Starts s id (ofKind 0x01) w (copyRanges s w) (copyCodes s w) →
    (w.cpSrc + w.cpLen ≤ w.cpDst ∨ w.cpDst + w.cpLen ≤ w.cpSrc) →
    Does (.copy id) s fun t => Wrote (s.stageIf w (w.f 24 4)) t w.cpDst ((s.stageIf w (w.f 24 4)).bytes w.cpSrc w.cpLen) ∧
      Ended t id { w.res with poison := w.res.poison || (s.stageIf w (w.f 24 4)).tagged w.cpSrc w.cpLen } ∧ RegsBut s t [regKey w.on (Reg.seqPartStatus w.part)]) ∧
  (∀ (s : State) (id : Nat) (w : Work), s.memWf = true → Starts s id (ofKind 0x02) w (inlineRanges s w) (inlineCodes s w) →
    Does (.copyInline id) s fun t => Wrote s t (w.addr 8) w.inlineData ∧ Ended t id { w.res with status := 0 } ∧ RegsBut s t [regKey w.on (Reg.seqPartStatus w.part)]) ∧
  (∀ (s : State) (id : Nat) (w : Work), Starts s id (ofKind 0x03) w [] (markCodes s w) →
    Does (.layerMark id) s fun t => t.regN w.die (Reg.seqCurLayer w.part) = w.f 8 2 % 2 ^ 32 ∧ SameMem s t ∧
      (∃ v, t.work id = some v ∧ v.ended = true ∧ v.res.status = 0) ∧
      (w.bit 10 0 = false → t.lists = s.lists)) ∧
  (∀ (s : State) (id : Nat) (w : Work), s.memWf = true → Starts s id (ofKind 0x04) w [] (placeCodes s w) →
    Does (.place id) s fun t => Wrote s t (s.objAddr w.die w.plObj) ((w.bytes.drop 12).take 32) ∧ Ended t id { w.res with status := 0 } ∧
      t.ctr w.die (Reg.seqCntLo 0) = Nat.min ctrMax (s.ctr w.die (Reg.seqCntLo 0) + 1)) ∧
  (∀ (s : State) (id : Nat) (w : Work), Starts s id (ofKind 0x05) w (pfRanges s w) (pfCodes s w) →
    Does (.prefetch id) s fun t => t.lists = s.lists ++ [w.pfList] ∧ SameMem s t ∧ RegsBut s t [regKey w.on (Reg.seqPartStatus w.part)] ∧
      ∃ v, t.work id = some v ∧ v.started = true ∧ v.ended = w.ended)) ∧
  ((∀ (s : State) (id : Nat) (w : Work), s.memWf = true → Starts s id (ofKind 0x38) w [] (twinSetCodes s w) →
    Does (.twin id) s fun t => Wrote s t (s.twinAddr w.die w.twObj) (w.twNew.bytes ++ natLe 6 0) ∧ Ended t id { w.res with status := 0 }) ∧
  (∀ (s : State) (id : Nat) (w : Work), s.memWf = true → Starts s id (ofKind 0x39) w [] (revertCodes s w) →
    Does (.revert id) s fun t => Wrote s t (s.twinAddr w.die w.twObj)
      { s.twin w.die w.twObj with staged := true, revert := true, group := w.group, prev := false }.bytes ∧ Ended t id { w.res with status := 0 }) ∧
  (∀ (s : State) (id : Nat) (w : Work), s.memWf = true → Starts s id (ofKind 0x3B) w (domainSetRanges s w) (domainSetCodes s w) →
    Does (.domainSet id) s fun t => Wrote s t (s.domAddr w.domain) (spliceAt (s.bytes (w.addr 10) 64) 16 (natLe 9 0)) ∧
      kvFind t.whl.entries (s.domAddr w.domain) = some (s.bytes (s.domTemplate w).members (8 * (s.domTemplate w).n)) ∧
      Ended t id { w.res with status := 0 }) ∧
  (∀ (s : State) (id : Nat) (w : Work), s.memWf = true → Starts s id (isColl (· == 7)) w (groupSetRanges s w) (groupSetCodes s w) →
    Does (.groupSet id) s fun t => Wrote s t (s.grpAddr w.die w.cgrp) (spliceAt (s.bytes w.cSrc 64) 16 (natLe 4 0)) ∧
      kvFind t.whl.entries (s.grpAddr w.die w.cgrp) = some (s.bytes (s.grpTemplate w).members (8 * (s.grpTemplate w).n)) ∧
      Ended t id { w.res with status := 0 }) ∧
  (∀ (s : State) (id : Nat) (w : Work), Starts s id (isConn 0) w (tmplRanges s w) (createCodes s w) →
    s.memWf = true → Does (.connCreate id) s fun t => t.ctx w.die w.cConn = s.newCtx w ∧ Ended t id { w.res with status := 0 }) ∧
  (∀ (s : State) (id : Nat) (w : Work), s.memWf = true → Starts s id (isConn 3) w (queryRanges s w) (queryCodes s w) →
    Does (.connQuery id) s fun t => Wrote s t w.cAddr (s.ctx w.die w.cConn) ∧ Ended t id { w.res with status := 0 }) ∧
  (∀ (s : State) (id : Nat) (w : Work), s.memWf = true → Starts s id (isRegion false) w [] (registerCodes s w) →
    Does (.register id) s fun t => Wrote s t (s.regnAddr w.die (w.f 12 3)) (s.newRegion w).bytes ∧
      Ended t id { w.res with detail0 := 256 * w.f 12 3 + (s.newRegion w).gen }) ∧
  (∀ (s : State) (id : Nat) (w : Work), s.memWf = true → Starts s id (isRegion true) w [] (invalCodes s w) →
    Does (.invalidate id) s fun t => Wrote s t (s.regnAddr w.die (w.f 12 3))
      { s.region w.die (w.f 12 3) with valid := false, gen := ((s.region w.die (w.f 12 3)).gen + 1) % 256 }.bytes))

/-- Vector instructions: lanes, scalars and moves. Table 07-2. The model's own choices in it: log 24. -/
def Obligations.VectorEngine : Prop :=
  (∀ (s : State) (d v : Nat) (f : VFields), DieUp s d → s.veOn d v = true →
    (∃ t, exec (.add d v f) s = .next t ∧ LaneDone s t d v f (fun x a b _ => (f32add x.daz x.fz a b).1)) ∧
    (∃ t, exec (.sub d v f) s = .next t ∧ LaneDone s t d v f (fun x a b _ => (f32sub x.daz x.fz a b).1)) ∧
    (∃ t, exec (.mul d v f) s = .next t ∧ LaneDone s t d v f (fun x a b _ => (f32mul x.daz x.fz a b).1)) ∧
    (∃ t, exec (.fma d v f) s = .next t ∧ LaneDone s t d v f (fun x a b c => (f32fma false x.daz x.fz a b c).1)) ∧
    (∃ t, exec (.fnma d v f) s = .next t ∧ LaneDone s t d v f (fun x a b c => (f32fma true x.daz x.fz a b c).1)) ∧
    (∃ t, exec (.max d v f) s = .next t ∧ LaneDone s t d v f (fun x a b _ => (f32pick true false x.daz a b).1)) ∧
    (∃ t, exec (.min d v f) s = .next t ∧ LaneDone s t d v f (fun x a b _ => (f32pick false false x.daz a b).1)) ∧
    (∃ t, exec (.maxnum d v f) s = .next t ∧ LaneDone s t d v f (fun x a b _ => (f32pick true true x.daz a b).1)) ∧
    (∃ t, exec (.minnum d v f) s = .next t ∧ LaneDone s t d v f (fun x a b _ => (f32pick false true x.daz a b).1)) ∧
    (∃ t, exec (.abs d v f) s = .next t ∧ LaneDone s t d v f (fun x a _ _ => (signOp x.daz (fun _ => false) a).1)) ∧
    (∃ t, exec (.neg d v f) s = .next t ∧ LaneDone s t d v f (fun x a _ _ => (signOp x.daz not a).1)) ∧
    (∃ t, exec (.exp d v f) s = .next t ∧ LaneDone s t d v f (fun x a _ _ => (f32op1 expVal x.daz x.fz a).1)) ∧
    (∃ t, exec (.rcp d v f) s = .next t ∧ LaneDone s t d v f (fun x a _ _ => (f32op1 rcpVal x.daz x.fz a).1)) ∧
    (∃ t, exec (.rsqrt d v f) s = .next t ∧ LaneDone s t d v f (fun x a _ _ => (f32op1 rsqrtVal x.daz x.fz a).1))) ∧
  (∀ (s : State) (d v : Nat) (f : VFields), DieUp s d → s.veOn d v = true →
    (∃ t, exec (.veNop d v f) s = .next t ∧ (t.ve d v).vregs = (s.ve d v).vregs ∧ (t.ve d v).sregs = (s.ve d v).sregs ∧
      t.ctr d (Reg.veCntLo v 0) = Nat.min ctrMax (s.ctr d (Reg.veCntLo v 0) + 1)) ∧
    (∃ t, exec (.movi d v f) s = .next t ∧ (f.sc = true → (t.ve d v).s f.d = f.imm.toNat ∧ (t.ve d v).vregs = (s.ve d v).vregs) ∧
      (f.sc = false → (∀ l, l < 2048 → (t.ve d v).lane f.d l = f.imm.toNat) ∧ (t.ve d v).sregs = (s.ve d v).sregs)) ∧
    (∃ t, exec (.sellt d v f) s = .next t ∧ (f.sc = false → ∀ l, l < 2048 → (t.ve d v).lane f.d l =
      if (f32in (s.ve d v).daz ((s.ve d v).lane f.a l)).1.lt (f32in (s.ve d v).daz ((s.ve d v).argB f l)).1 = true then
        (if (s.ve d v).daz && fp32.isSub ((s.ve d v).argC f l) then fp32.sign (bit ((s.ve d v).argC f l) 31) else (s.ve d v).argC f l)
      else (s.ve d v).lane f.d l) ∧
      (f.sc = true → (t.ve d v).s f.d =
        if (f32in (s.ve d v).daz ((s.ve d v).s f.a)).1.lt (f32in (s.ve d v).daz ((s.ve d v).s f.b)).1 = true then
          (if (s.ve d v).daz && fp32.isSub ((s.ve d v).s f.c) then fp32.sign (bit ((s.ve d v).s f.c) 31) else (s.ve d v).s f.c)
        else (s.ve d v).s f.d)) ∧
    (f.sc = false → f.a ≤ 7 → ∃ t, exec (.ld d v f) s = .next t ∧ kvGet 0 (t.ve d v).lds f.a = kvGet 0 (s.ve d v).lds f.a + 1 ∧
      ((s.ve d v).ins[f.a]? = none → ∀ l, l < 2048 → (t.ve d v).lane f.d l = 0) ∧ SameMem s t) ∧
    (f.sc = true ∨ 7 < f.a → exec (.ld d v f) s = .next s) ∧
    (f.sc = false → f.d ≤ 3 → ∃ t, exec (.st d v f) s = .next t ∧ kvGet 0 (t.ve d v).sts f.d = kvGet 0 (s.ve d v).sts f.d + 1 ∧
      kvGet [] (t.ve d v).buf (2 ^ 32 * f.d + kvGet 0 (s.ve d v).sts f.d) = (List.range 2048).map ((s.ve d v).lane f.a) ∧ SameMem s t) ∧
    (f.sc = true ∨ 3 < f.d → exec (.st d v f) s = .next s) ∧
    (f.sc = false → ∃ t, exec (.ssum d v f) s = .next t ∧ ∃ y g, treeSum (s.ve d v).daz (s.ve d v).fz 11 ((List.range 2048).map fun l =>
        (some ((s.ve d v).lane f.a l), 0)) = (some y, g) ∧ (t.ve d v).s f.d = (f32add (s.ve d v).daz (s.ve d v).fz ((s.ve d v).s f.d) y).1) ∧
    (f.sc = true → exec (.ssum d v f) s = .next s) ∧
    (f.sc = false → ∃ t, exec (.smaxa d v f) s = .next t ∧ (t.ve d v).vregs = (s.ve d v).vregs ∧ ∀ i, i ≠ f.d → (t.ve d v).s i = (s.ve d v).s i) ∧
    (f.sc = true → exec (.smaxa d v f) s = .next s))

/-- Loads, passes, skips and drained rows of a matrix engine. R29, R111, R112, R116, R118, R143, R144, R192. The model's own choices
in it: log 14. -/
def Obligations.MatrixEngineEvents : Prop :=
  (∀ (s : State) (d e staged : Nat) (p : Pass) (rest : List Pass), DieUp s d → (s.eng d e).queue = p :: rest → (s.eng d e).loadAt = none →
    p.skip = false → Does (.stationaryLoad d e staged) s fun t =>
      ((s.eng d e).prev = none → (t.eng d e).loadAt = some (-1) ∧ (t.eng d e).late = staged) ∧
      (∀ y, (s.eng d e).prev = some y → (t.eng d e).loadAt = some (max (y.start + 1) (max (y.load + y.lint) staged))) ∧
      (t.eng d e).queue = p :: rest ∧ SameMem s t ∧ t.regs = s.regs ∧ t.ctrs = s.ctrs) ∧
  (∀ (s : State) (d e : Nat) (g : Gaps) (b k : Waits) (p : Pass) (rest : List Pass) (a : Int), DieUp s d → (s.eng d e).queue = p :: rest →
    (s.eng d e).loadAt = some a → p.skip = false → (s.eng d e).issue = none →
    Does (.passStart d e g b k) s fun t => (t.eng d e).queue = rest ∧ (t.eng d e).loadAt = none ∧
      (rest ≠ [] → ∃ y, (t.eng d e).prev = some y ∧ y.load = a ∧ y.lint = lintOf p.gearW ∧
        y.start = maxOpt (match (s.eng d e).prev with | some x => max (x.start + x.busy) (a + 1) | none => a + 1) ((s.eng d e).accBound p)) ∧
      (p.last = true → Nat.min p.rows ((s.eng d e).credits p) ≠ 0 → (t.eng d e).fifo =
        (s.eng d e).fifo ++ p.drains.map fun k => ⟨k, p.id, Nat.min p.rows ((s.eng d e).credits p)⟩) ∧
      t.ctr d (Reg.meCntLo e 6) = Nat.min ctrMax (s.ctr d (Reg.meCntLo e 6) + 1) ∧
      t.ctr d (Reg.meCntLo e 0) = Nat.min ctrMax (s.ctr d (Reg.meCntLo e 0) + (p.rows - p.idle) * p.sigma) ∧ t.regs = s.regs ∧
      Settles s t ({ s.eng d e with queue := rest, issue := some p } : Eng).feed p.id) ∧
  (∀ (s : State) (d e : Nat) (p : Pass) (rest : List Pass), DieUp s d → (s.eng d e).queue = p :: rest → p.skip = true →
    (s.eng d e).issue = none → Does (.passSkip d e) s fun t => (t.eng d e).queue = rest ∧
      (rest ≠ [] → (t.eng d e).prev = some ((s.eng d e).skipTime p)) ∧
      t.ctr d (Reg.meSkipLo e 0) = Nat.min ctrMax (s.ctr d (Reg.meSkipLo e 0) + 1) ∧ t.regs = s.regs ∧
      Settles s t ({ s.eng d e with queue := rest, issue := some p } : Eng).feed p.id) ∧
  (∀ (s : State) (d e tail : Nat) (r : DrainRows) (rest : List DrainRows), DieUp s d →
    minBy (fun e => (e + 3 - kvGet 3 s.cnvLast d) % 4) ([0, 1, 2, 3].filter fun e => !(s.eng d e).fifo.isEmpty) = some e →
    (s.eng d e).fifo = r :: rest →
    let f := if r.rows ≤ 1 then rest else { r with rows := r.rows - 1 } :: rest
    Does (.drainRowTake ⟨d, tail⟩) s fun t => ((s.eng d e).issue = none → (t.eng d e).fifo = f) ∧
      (∃ l, (t.eng d e).fifo = f ++ l) ∧
      kvGet 3 t.cnvLast d = e ∧ t.ctr d (Reg.cnvCntLo 1) = Nat.min ctrMax (s.ctr d (Reg.cnvCntLo 1) + 1) ∧ t.regs = s.regs ∧
      Settles s t ({ s.eng d e with fifo := f } : Eng).feed r.id)

/-- History folds, stage and batch replays, and combined rows. R155 to R158, R160, R177, R226. The model's own choices in it: log 15,
22. -/
def Obligations.DeferredWork : Prop :=
  (∀ (s : State) (id : Nat) (f : Fold) (bad : Bool), s.tripped = false → s.memWf = true → s.folds.find? (fun f => f.id == id) = some f →
    (∀ w, s.work id = some w → w.ended = true) → bad = (f.poison || (s.work id).any fun w => w.res.poison) →
    Does (.histFold id) s fun t => t.folds = s.folds.erase f ∧ t.regs = s.regs ∧
      (bad = true → SameMem s t ∧ t.ctr (f.addr / hbmSize) (Reg.cnvCntLo 3) = Nat.min ctrMax (s.ctr (f.addr / hbmSize) (Reg.cnvCntLo 3) + 1)) ∧
      (bad = false → inHbm s.part.dies f.addr 64 = true → Wrote s t f.addr ((HRec.ofBytes (s.bytes f.addr 64)).fold f.stats).bytes ∧
        t.ctr (f.addr / hbmSize) (Reg.cnvCntLo 2) = Nat.min ctrMax (s.ctr (f.addr / hbmSize) (Reg.cnvCntLo 2) + 1)) ∧
      (bad = false → inHbm s.part.dies f.addr 64 = false → SameMem s t)) ∧
  (∀ (s : State) (id h u : Nat) (w : Work), s.tripped = false → s.work id = some w → w.kind = 0x14 → w.started = true → w.stages = [(h, u)] →
    let live := if u < 4 then s.liveMes h w.part else ([0, 1].filter fun v => s.veOwned h w.part v && s.veOn h v).map (4 + ·)
    let next := if u < 4 then shareEngine live u else minBy (s.queued h) live
    Does (.stageReplay id) s fun t => SameMem s t ∧ t.regs = s.regs ∧
      (s.unitOut h u = false → t = s) ∧
      (s.unitOut h u = true → ∀ v, next = some v → ∃ y, t.work id = some y ∧ y.stages = [(h, v)] ∧ y.res = w.res ∧
        (4 ≤ u → w.engine = some u → y.engine = some v) ∧
        (4 ≤ u → t.ctr h (Reg.veCntLo (v - 4) 7) = Nat.min ctrMax (s.ctr h (Reg.veCntLo (v - 4) 7) + 1))) ∧
      (s.unitOut h u = true → next = none →
        t.work id = some { w with stages := [], res := { w.res with status := if w.res.status = 0 then 7 else w.res.status } })) ∧
  (∀ (s : State) (d unit : Nat), DieUp s d → unit ≤ 5 → s.unitOut d unit = true →
    exec (.batchReplay d unit) s = .next ((s.batches.filter fun b => b.d == d).foldl (fun s b => s.replayBatch b unit) s)) ∧
  (∀ (s : State) (d p src dst tokens width ofmt rnd : Nat) (sat : Bool) (step : W32) (parity : List Nat) (first : AWord), DieUp s d →
    s.aq.find? (fun x => x.d == d) = some first →
    let ws := s.aq.filter fun x => x.d == d && x.gate == first.gate
    Does (.routerCombine d p src dst ⟨tokens, parity⟩ width ofmt rnd sat step) s fun t =>
      t.aq = s.aq.filter (fun x => !(x.d == d && x.gate == first.gate)) ∧
      (badWords parity ws.length = 0 → (∀ x, x < dst → t.byte x = s.byte x) ∧ t.regs = s.regs ∧ t.ctrs = s.ctrs) ∧
      (badWords parity ws.length ≠ 0 → t.ctr d (Reg.tokCntLo 5) = Nat.min ctrMax (s.ctr d (Reg.tokCntLo 5) + badWords parity ws.length)))

/-- Flash transfers and their pieces. R241, R245, R246, R247, R248, R257. The model's own choices in it: log 17, 74. -/
def Obligations.Flash : Prop :=
  (∀ (c : Instr) (op : Nat → Bool) (s : State) (id : Nat) (w : Work),
    (c, op) ∈ ([(.flashRead id, fun o => o == 0 || decide (5 ≤ o)), (.flashWrite id, (· == 1)), (.flashZero id, (· == 2)), (.flashTrim id, (· == 3)),
      (.flashFlush id, (· == 4))] : List (Instr × (Nat → Bool))) →
    Starts s id (isFlash op) w (flashRanges s w) (flashCodes s w) →
    Does c s fun t => (∃ x ∈ t.xfers, x.id = id ∧ x.fop = w.fop ∧ x.vlba = w.flVlba ∧ x.addr = w.flAddr ∧ x.fua = w.bit 8 3 ∧
      (w.fop ≠ 4 → x.pieces = s.cutPieces w.die (unitsOf w.flLen) w.flVlba (unitsOf w.flLen) 0 w.flLen)) ∧
      (w.grp = false → (∀ y ∈ s.xfers, overlap w.flVlba (unitsOf w.flLen) y.vlba y.units = []) → SameMem s t) ∧
      RegsBut s t [regKey w.on (Reg.seqPartStatus w.part)]) ∧
  ((∀ (s : State) (id piece status : Nat) (strays : List Nat) (x : Xfer) (p : Piece), s.tripped = false → s.livePiece id piece = some (x, p) →
    s.pieceWaits x p = false → p.st = 0 → fld status 1 11 = 0 → Does (.flashPieceComplete id piece ⟨status, strays⟩) s fun t =>
      t = (((strays.foldl (fun s a => s.stray p.port a) s).pieceDone x p).setPiece id piece 2).settleXfer id ∧
      (s.memWf = true → x.fop = 0 → x.clash = [] → Wrote s t (x.addr + p.off) ((s.flashBytes p.port p.lba (4096 * p.units)).take p.bytes)) ∧
      (x.fop ≠ 0 → SameMem s t)) ∧
  (∀ (s : State) (id piece status : Nat) (strays : List Nat) (x : Xfer) (p : Piece) (w : Work), s.tripped = false →
    s.livePiece id piece = some (x, p) → s.pieceWaits x p = false →
    (p.st ≠ 0 ∨ fld status 1 11 ≠ 0) → s.work id = some w → w.res.status = 0 → Does (.flashPieceComplete id piece ⟨status, strays⟩) s fun t =>
      (∃ v, t.work id = some v ∧ v.res.status = 0x0D ∧ v.res.detail0 = p.port + 65536 * (status % 65536)) ∧ SameMem s t ∧ t.regs = s.regs ∧
      t.ctr p.port (Reg.flCntLo 3) = Nat.min ctrMax (s.ctr p.port (Reg.flCntLo 3) + 1)) ∧
  (∀ (s : State) (id piece status : Nat) (strays : List Nat) (x : Xfer) (p : Piece), s.tripped = false → s.livePiece id piece = some (x, p) →
    s.pieceWaits x p = true → exec (.flashPieceComplete id piece ⟨status, strays⟩) s = .next s) ∧
  (∀ (s : State) (a : Nat) (p : Nat), s.driveSees p a = false → (s.stray p a).ras.strays = s.ras.strays ++ [(p, a)] ∧
    (s.stray p a).out = s.out ++ [.driveUr p a]) ∧
  (∀ (s : State) (id piece : Nat) (x : Xfer) (p : Piece), s.tripped = false → s.livePiece id piece = some (x, p) → p.st = 0 →
    Does (.flashPieceTimeout id piece) s fun t => ((t.xfer id).bind fun y => (y.pieces[piece]?).map fun q => q.st) = some 1 ∧
      t.ctr p.port (Reg.flCntLo 4) = Nat.min ctrMax (s.ctr p.port (Reg.flCntLo 4) + 1) ∧ SameMem s t ∧ t.regs = s.regs) ∧
  (∀ (s : State) (d : Nat), DieUp s d → s.xfers.any (fun x => x.pieces.any fun p => p.port == d && p.st == 1) = true →
    Does (.flashAbortTimeout d) s fun t => t = s.failPort d ∧ SameMem s t ∧ t.regs = s.regs))

/-- Prefetch entries, drives, re-fetches, measurements and manifests. R249, R256, R257, R398, R572, R574. The model's own choices in
it: log 17, 21, 66. -/
def Obligations.VolumeEvents : Prop :=
  (∀ (s : State) (id : Nat) (l : PfList) (w : Work), s.tripped = false → s.lists.find? (fun l => l.id == id) = some l → s.work id = some w →
    l.next < l.count → s.outstanding id < l.maxFly → s.layerOk l (leAt (s.bytes (l.list + 16 * l.next) 16) 8 2) = true →
    let e := s.bytes (l.list + 16 * l.next) 16
    let a := s.obj w.die (leAt e 0 4 % 2 ^ 20)
    let b := s.obj w.die (leAt e 4 4 % 2 ^ 20)
    s.entryCode w.die l.part e a b = 0 → Clear s (a.srcRanges ++ [⟨b.base, b.len, true⟩]) →
    Does (.prefetchEntryIssue id) s fun t => (∃ v ∈ t.seq.works, v.id = s.seq.nextId ∧ v.entry = some l.next ∧ v.batch = some id) ∧
      t.lists = mapIf (fun x => x.id == id) (fun x => { x with next := x.next + 1 }) s.lists ∧
      t.ctr w.die (Reg.seqCntLo 2) = Nat.min ctrMax (s.ctr w.die (Reg.seqCntLo 2) + 1)) ∧
  (∀ (s : State) (d lbas rate granted mqes mdts : Nat), DieUp s d → s.rbit d Reg.flCtrl 0 = true → s.rbit d Reg.flStatus 3 = false →
    s.unitOut d 0x0D = false → s.dieOut d = false → 1 ≤ rate → rate ≤ 3 → 0 < lbas → lbas ≤ maxLbas → 1 ≤ granted →
    Does (.driveEnumerate d true lbas rate granted mqes mdts) s fun t => t.regN d Reg.flStatus = 1 + 2 * rate + 8 ∧
      t.drives = s.drives.filter (fun x => x.d != d) ++ [⟨d, mdts, Nat.min 16 granted, Nat.min 1024 (mqes + 1)⟩] ∧
      ∀ x, (x < s.regPair d Reg.flQbaseLo ∨ s.regPair d Reg.flQbaseLo + 2 ^ 22 ≤ x) → t.byte x = s.byte x) ∧
  (∀ (s : State) (d : Nat) (b : Refetch), DieUp s d → s.memWf = true → s.refetch.find? (fun b => b.d == d) = some b → s.volReady d = true →
    b.unit < s.volUnits d → Does (.refetchComplete d true) s fun t => t.refetch = s.refetch.erase b ∧
      (s.whl.colls = [] → Wrote s t b.addr ((s.flashBytes (s.unitAt d b.unit).1 (s.unitAt d b.unit).2 4096).take b.len))) ∧
  (∀ (s : State) (obj : Nat) (m : Meas), s.tripped = false → s.measuring.find? (fun m => m.obj == obj) = some m →
    let entry := measEntry 2 m.part m.d obj m.len (sha384 (if m.flash then s.volBytes m.d m.addr m.len else s.bytes m.addr m.len))
    Does (.measureObject obj) s fun t => t.measLog.value = sha384 (s.measLog.value ++ entry) ∧
      (s.measLog.entries.length < 8192 → t.measLog.entries = s.measLog.entries ++ [entry]) ∧
      (8192 ≤ s.measLog.entries.length → t.measLog.entries = s.measLog.entries ∧ t.rbit 0 Reg.grdStatus 5 = true) ∧
      t.regN 0 Reg.grdMeasCount = (s.regN 0 Reg.grdMeasCount + 1) % 2 ^ 32 ∧ t.measuring = s.measuring.erase m ∧ SameMem s t) ∧
  (∀ s : State, s.tripped = false → s.volReady 0 = true → manifestOk (s.volUnit 0 (s.manSlot 0)) = true →
    manifestOk (s.volUnit 0 (s.manSlot 1)) = true →
    Does .manifestScan s fun t => t.regN 0 Reg.cmtManStatus =
        7 + (if leAt (s.volUnit 0 (s.manSlot 0)) 8 8 < leAt (s.volUnit 0 (s.manSlot 1)) 8 8 then 8 else 0) ∧ SameMem s t)

/-- Bring-up of the dies. R236, R237, R542, R543, R545. The model's own choices in it: log 62. -/
def Obligations.BringUp : Prop :=
  (∀ (s : State) (okA okB : Bool) (k : Nat), DieUp s 0 → s.guardRuns = false → s.stage_ = 0 → s.bootSlot okA okB = some k →
    Does (.guardBoot okA okB) s fun t => t.stage_ = 1 ∧ t.rf 0 Reg.genBoot 4 1 = k % 2 ∧
      (∀ d, d < s.part.dies → t.rbit d Reg.grdStatus 0 = true ∧ t.rf d Reg.grdId 0 8 = s.slotSvn k % 256 ∧ t.rf d Reg.grdId 8 1 = k % 2) ∧
      SameMem s t) ∧
  (∀ (s : State) (okA okB : Bool), DieUp s 0 → s.guardRuns = false → s.stage_ = 0 → s.bootSlot okA okB = none →
    Does (.guardBoot okA okB) s fun t => t.stage_ = 0xF ∧ t.rf 0 Reg.genBoot 5 3 = 1 ∧ t.out = s.out ++ [.pin "FAULT_N" 0 false] ∧ SameMem s t) ∧
  (∀ s : State, DieUp s 0 → s.guardRuns = true → s.stage_ ≠ 0xF →
    Does (.dieEnumeration false) s fun t => t.stage_ = 0xF ∧ t.rf 0 Reg.genBoot 5 3 = 2 ∧ SameMem s t) ∧
  (∀ s : State, DieUp s 0 → s.guardRuns = true → s.stage_ ≠ 0xF → s.regN 0 Reg.rasCapLive = 0 →
    Does (.dieEnumeration true) s fun t => t.stage_ = 2 ∧ t.regN 0 Reg.genDiscStatus = 0 ∧ t.regN 0 Reg.genDiscRootLo = 0 ∧
      t.regN 0 Reg.genDiscRootHi = 0) ∧
  (∀ (s : State) (d : Nat), DieUp s d → d ≠ 0 → s.guardRuns = true → s.regN d Reg.rasCapLive = 0 →
    exec (.enumerationTimeout d) s = .next (s.fence d 0x0F 6)) ∧
  (∀ s : State, DieUp s 0 → s.stage_ = 2 → s.discState = 0 → s.rbit 0 Reg.genDiscCtrl 0 = true →
    Does .portEnableAuto s fun t => t.stage_ = 3 ∧ t.discState = 1 ∧ t.disc.serial = s.serial ∧
      (∀ d, d < s.part.torusPorts → s.dieReached d = true → t.regN d Reg.ethCtrl = 1) ∧ SameMem s t) ∧
  (∀ (s : State) (d : Nat), DieUp s d → s.rbit d Reg.hbmStatus 0 = false →
    (Does (.hbmTrainingEnd d true) s fun t => t.regN d Reg.hbmStatus = 1 + 4 * s.rf d Reg.hbmCtrl 0 1 ∧ SameMem s t) ∧
    exec (.hbmTrainingEnd d false) s = .next ((s.setRegN d Reg.hbmStatus 2).fence d 0x0E 5))

/-- Discovery of the torus. R545 to R550, R553 to R555. The model's own choices in it: log 63. -/
def Obligations.Discovery : Prop :=
  (∀ (s : State) (d : Nat), DieUp s d → (s.discState = 1 ∨ d ∈ s.disc.owes) → d < s.part.torusPorts → s.portUp d = true → s.heldOut d = false →
    s.discState ≠ 0 → Does (.discoverySendTimer d) s fun t => d ∉ t.disc.owes ∧ t = ({ s with disc := { s.disc with owes := without d s.disc.owes } } :
      State).sendItem d 7 0 (.disc (s.discTx d))) ∧
  (∀ (s : State) (d : Nat) (f : DiscFrame), DieUp s d → d < s.part.torusPorts → s.portUp d = true → s.heldOut d = false → s.discState = 1 →
    s.disc.heard.contains d = true → s.disc.rank f = 0 → f.kind = 0 → f.ver = 1 →
    Does (.discoveryFrame d f) s fun t => t.disc.serial = f.serial ∧ t.disc.noroot = f.noroot ∧ t.disc.estab = f.estab ∧ t.disc.g = f.g ∧
      t.disc.u = (if s.strapped then s.disc.u else candidate d f.u) ∧ t.disc.owes = List.range s.part.torusPorts) ∧
  (∀ s : State, DieUp s 0 → s.discState = 1 → Does .discoveryValid s fun t => t.discState = 2 ∧ t.stage_ = 5 ∧ t.disc.estab = true ∧
    t.regN 0 Reg.whlDims = ((s.disc.dims).1 % 128 + 256 * ((s.disc.dims).2.1 % 32) + 65536 * ((s.disc.dims).2.2 % 32)) ∧ SameMem s t) ∧
  (∀ (s : State) (d : Nat), DieUp s d → s.portUp d = false → s.portMayUp d = true → Does (.portLinkUp d) s fun t => t.portUp d = true) ∧
  (∀ (s : State) (d : Nat), DieUp s d → d < s.part.torusPorts → s.rbit d Reg.ethCtrl 0 = true → s.portUp d = false → s.discState ≠ 0 →
    Does (.portHoldoutTimeout d) s fun t => t.heldOut d = true ∧ ∀ e, e ≠ d → t.heldOut e = s.heldOut e) ∧
  (∀ (s : State) (d : Nat), DieUp s d → s.part.torusPorts ≤ d → s.portUp d = true → Does (.portLinkDown d) s fun t => t.portUp d = false ∧ ∀ e, e ≠ d → t.portUp e = s.portUp e)

/-- Frames that a port receives: the checks in order, and where a frame goes. R269, R276, R435, Table 09-3. The model's own choices in
it: log 25, 75. -/
def Obligations.FrameReceipt : Prop :=
  ((∀ (s : State) (d i : Nat) (f : Frame), DieUp s d → s.receives d = true → s.frameBroken d f = some i → s.ximelOn d = false →
    s.ctr d (ethCnt i) + (if i = 6 then f.fecUncorr else 1) < s.regN d (Reg.ethErrLimit i) →
    exec (.frameReceive d f) s = .next ((s.bump d (ethCnt 5) f.fecCorr).setCtr d (ethCnt i) (s.ctr d (ethCnt i) + if i = 6 then f.fecUncorr else 1))) ∧
  (∀ (s : State) (d : Nat) (f : Frame), DieUp s d → s.receives d = true → s.frameBroken d f = none → f.etype ≠ 0x88B5 →
    (s.addressed d (s.frameFor d f) = false → exec (.frameReceive d f) s = .next ((s.bump d (ethCnt 5) f.fecCorr).bump d (ethCnt 7) 1)) ∧
    (s.addressed d (s.frameFor d f) = true → s.macsecOk d f.macsec = false → s.ctr d (ethCnt 0xA) + 1 < s.regN d (Reg.ethErrLimit 0xA) →
      exec (.frameReceive d f) s = .next ((s.bump d (ethCnt 5) f.fecCorr).setCtr d (ethCnt 0xA) (s.ctr d (ethCnt 0xA) + 1)))) ∧
  (∀ (s : State) (d : Nat) (f : Frame), Hears s d f →
    (f.etype = 0x8808 → (∀ x, pauseOf f = some x → s.fcMode d ≠ if x.pfc then 2 else 1) →
      exec (.frameReceive d f) s = .next ((s.heard d f).bump d (ethCnt 0xB) 1)) ∧
    (f.etype ≠ 0x8808 → s.poolSize d (framePrio f) < s.poolUsed d (framePrio f) + (s.unprotect d f).len →
      s.ctr d (ethCnt 9) + 1 < s.regN d (Reg.ethErrLimit 9) →
      exec (.frameReceive d f) s = .next ((s.heard d f).setCtr d (ethCnt 9) (s.ctr d (ethCnt 9) + 1))))) ∧
  (∀ (s : State) (d : Nat) (f : Frame), Hears s d f → f.etype ≠ 0x8808 →
    s.poolUsed d (framePrio f) + (s.unprotect d f).len ≤ s.poolSize d (framePrio f) →
    (∀ c, s.claim d f = some c → (c = 0x0800 → s.xtDrop d f = none) → Does (.frameReceive d f) s fun t =>
      (t.eth d).rx = (s.eth d).rx ++ [(c, framePrio f, (s.unprotect d f).len)] ∧ t.ctr d (ethCnt 0) = Nat.min ctrMax (s.ctr d (ethCnt 0) + 1) ∧
      SameMem s t ∧ t.regs = s.regs ∧ t.seq = s.seq) ∧
    (s.claim d f = some 0x0800 → s.xtDrop d f = some 0xB →
      exec (.frameReceive d f) s = .next (((s.heard d f).bump d (ethCnt 0) 1).bump d (Reg.xtCntLo 0xB) 1)) ∧
    (∀ w, s.claim d f = none → unclaimable f = false → s.heldBuf (32 * d + 31) = some w → s.work w.id = some w → s.ethCtrl d 5 = true →
      s.ringOn (32 * d + 31) = true → s.ringRx (32 * d + 31) = true → (frameBytes (s.unprotect d f)).length ≤ w.f 14 4 → s.memWf = true →
      Does (.frameReceive d f) s fun t => Wrote s t (w.addr 8) (frameBytes (s.unprotect d f)) ∧
      Ended t w.id { w.res with receive := true, detail0 := framePrio f, detail1 := (frameBytes (s.unprotect d f)).length } ∧
      t.ctr d (ethCnt 0) = Nat.min ctrMax (s.ctr d (ethCnt 0) + 1) ∧ t.regs = s.regs) ∧
    (s.claim d f = none → unclaimable f = true ∨ s.heldBuf (32 * d + 31) = none →
      exec (.frameReceive d f) s = .next ((s.heard d f).bump d (ethCnt 8) 1)))

/-- Which frame a port sends, and what sending leaves. R268, R271, R281, R283. The model's own choices in it: log 25, 75. -/
def Obligations.FrameSending : Prop :=
  ∀ (s : State) (d : Nat) (x : TxPick), DieUp s d → s.portUp d = true → s.txNext d = some x →
    x ∈ s.txPicks d ∧ ((∃ y ∈ s.txPicks d, y.prio = 7) → x.prio = 7) ∧
    (∀ i f, x = .fresh i f → s.txReady d f = true ∧ (s.eth d).txq[i]? = some f ∧ ∀ j < i, ∀ g, (s.eth d).txq[j]? = some g → g.prio ≠ f.prio) ∧
    (∀ i f, x = .fresh i f → CanSend s d → (s.eth d).retrain = none → Does (.frameTransmit d) s fun t =>
      (t.eth d).txq = (s.eth d).txq.take i ++ (s.eth d).txq.drop (i + 1) ∧ (t.eth d).last = (if f.prio = 7 then (s.eth d).last else f.prio) ∧
      t.ctr d (ethCnt 1) = Nat.min ctrMax (s.ctr d (ethCnt 1) + 1) ∧ SameMem s t ∧ t.regs = s.regs ∧
      (s.ximelOn d = false → f.item.wireUnit = none → t.out = s.out ++ [s.sentOf d f none] ∧ t.wires = s.wires) ∧
      (s.ximelOn d = true → (t.wire d 0).held = (s.wire d 0).held ++ [⟨(s.wire d 0).next, 0, f⟩] ∧
        (t.wire d 0).next = ((s.wire d 0).next + 1) % 4096 ∧
        t.out = s.out ++ [s.sentOf d { f with item := f.item.stamp 0 0 } (some (dataHdr (s.wire d 0).next (s.wire d 0).ack { f with item := f.item.stamp 0 0 }))]) ∧
      (∀ u, s.ximelOn d = false → f.item.wireUnit = some u → (t.wire d u).held = (s.wire d u).held ++ [⟨(s.wire d u).next, 0, f⟩] ∧
        (t.wire d u).next = ((s.wire d u).next + 1) % 4096 ∧
        t.out = s.out ++ [s.sentOf d { f with item := f.item.stamp (s.wire d u).next (s.wire d u).ack } none])) ∧
    (∀ u h, x = .replay u h → CanSend s d → s.ctr d (ethCnt 0xE) + 1 < s.regN d (Reg.ethErrLimit 0xE) → Does (.frameTransmit d) s fun t =>
      t.wire d u = (s.wire d u).replayed h.seq ∧ (t.eth d).txq = (s.eth d).txq ∧ t.ctr d (ethCnt 1) = Nat.min ctrMax (s.ctr d (ethCnt 1) + 1) ∧
      (u = 0 → t.ctr d (ethCnt 0xE) = s.ctr d (ethCnt 0xE) + 1) ∧ SameMem s t ∧ t.regs = s.regs)

/-- Pause timers and the pauses that a port sends. R270, R272, R273. The model's own choices in it: log 25. -/
def Obligations.Pauses : Prop :=
  (∀ (s : State) (d : Nat) (f : Frame) (x : PauseFrame), Hears s d { f with etype := 0x8808 } → pauseOf f = some x →
    (s.fcMode d = (if x.pfc then 2 else 1) → Does (.pauseFrameReceive d f) s fun t =>
      (∀ p q, (p, q) ∈ x.times → (q ≠ 0 → p ∈ (t.eth d).paused) ∧ (q = 0 → p ∉ (t.eth d).paused)) ∧
      (∀ r, (∀ q, (r, q) ∉ x.times) → (r ∈ (t.eth d).paused ↔ r ∈ (s.eth d).paused)) ∧
      t.ctr d (ethCnt 0xC) = Nat.min ctrMax (s.ctr d (ethCnt 0xC) + 1) ∧
      t = { s with eths := t.eths, ctrs := t.ctrs }) ∧
    (s.fcMode d ≠ (if x.pfc then 2 else 1) → exec (.pauseFrameReceive d f) s = .next ((s.heard d f).bump d (ethCnt 0xB) 1))) ∧
  (∀ (s : State) (d p : Nat), DieUp s d → Does (.pauseTimerExpire d p) s fun t => p ∉ (t.eth d).paused ∧
    (∀ r, r ≠ p → (r ∈ (t.eth d).paused ↔ r ∈ (s.eth d).paused)) ∧ t.regs = s.regs ∧ SameMem s t) ∧
  (∀ (s : State) (d : Nat) (ps : List Nat), DieUp s d → s.portUp d = true → CanSend s d → s.fcMode d = 2 → ps ≠ [] → ps.Nodup →
    (∀ p ∈ ps, s.poolHigh d p = true) → Does (.poolHighCross d ps) s fun t =>
    t.out = s.out ++ [s.pauseSent d ⟨true, ps.map fun p => (p, s.rf d Reg.ethPauseTime 0 16)⟩] ∧ (∀ p ∈ ps, p ∈ (t.eth d).pausing) ∧
    t.ctr d (ethCnt 0xD) = Nat.min ctrMax (s.ctr d (ethCnt 0xD) + 1) ∧ t.regs = s.regs ∧ SameMem s t) ∧
  (∀ (s : State) (d : Nat) (ps : List Nat), DieUp s d → CanSend s d → s.fcMode d = 2 → ps ≠ [] → ps.Nodup →
    (∀ p ∈ ps, s.poolLow d p = true ∧ p ∈ (s.eth d).pausing) → Does (.poolLowCross d ps) s fun t =>
    t.out = s.out ++ [s.pauseSent d ⟨true, ps.map fun p => (p, 0)⟩] ∧ (∀ p ∈ ps, p ∉ (t.eth d).pausing) ∧ t.regs = s.regs ∧ SameMem s t) ∧
  (∀ (s : State) (d : Nat) (ps : List Nat), DieUp s d → CanSend s d → s.fcMode d = 1 → (∀ p ∈ ps, s.poolLow d p = true ∧ p ∈ (s.eth d).pausing) →
    ps ≠ [] → Does (.poolLowCross d ps) s fun t => (∀ p ∈ ps, p ∉ (t.eth d).pausing) ∧ t.regs = s.regs ∧ SameMem s t ∧
      ((∀ p, p < 8 → s.poolLow d p = true) → t.out = s.out ++ [s.pauseSent d ⟨false, [(0, 0)]⟩]) ∧
      (∀ p, p < 8 → s.poolLow d p = false → t.out = s.out)) ∧
  (∀ (s : State) (d p : Nat), DieUp s d → CanSend s d → s.fcMode d = 2 → p ∈ (s.eth d).pausing → s.poolLow d p = false → Does (.pauseRepeat d p) s fun t =>
    t.out = s.out ++ [s.pauseSent d ⟨true, [(p, s.rf d Reg.ethPauseTime 0 16)]⟩] ∧ t.regs = s.regs ∧ SameMem s t)

/-- Ximel Link: sequence, acknowledgement and replay. R281, R282, R283. The model's own choices in it: log 25. -/
def Obligations.XimelReplay : Prop :=
  (∀ (s : State) (d seq ack prio : Nat) (f : Frame), DieUp s d → s.receives d = true → s.ximelOn d = true → s.deaf d = false →
    s.frameBroken d f = none → (s.eth d).retrain = none →
    (seq % 4096 = (s.wire d 0).expect → ∃ u : State, exec (.ximelDataReceive d seq ack ⟨prio, f⟩) s = .next (u.deliver d prio { f with len := f.len - 10 }) ∧
      (u.wire d 0).expect = ((s.wire d 0).expect + 1) % 4096 ∧ (u.wire d 0).owed = true ∧ (u.wire d 0).nakked = false ∧
      (u.wire d 0).held = (s.wire d 0).held.filter (fun h => !ackCovers ack h.seq) ∧ SameMem s u ∧ u.regs = s.regs ∧ u.eths = s.eths ∧ u.out = s.out) ∧
    (seq % 4096 ≠ (s.wire d 0).expect → CanSend s d → Does (.ximelDataReceive d seq ack ⟨prio, f⟩) s fun t =>
      (t.wire d 0).expect = (s.wire d 0).expect ∧ (t.wire d 0).nakked = true ∧ (t.eth d).rx = (s.eth d).rx ∧ SameMem s t ∧ t.regs = s.regs ∧
      t.out = s.out ++ (if (s.wire d 0).nakked then [] else [s.ctlOf d 2 0 0]))) ∧
  (∀ (s : State) (d seq ack prio i : Nat) (f : Frame), DieUp s d → s.receives d = true → s.ximelOn d = true → s.deaf d = false → CanSend s d →
    s.frameBroken d f = some i → s.ctr d (ethCnt i) + (if i = 6 then f.fecUncorr else 1) < s.regN d (Reg.ethErrLimit i) →
    Does (.ximelDataReceive d seq ack ⟨prio, f⟩) s fun t => (t.wire d 0).expect = (s.wire d 0).expect ∧ (t.wire d 0).nakked = true ∧
      (t.wire d 0).held = (s.wire d 0).held ∧ (t.eth d).rx = (s.eth d).rx ∧ SameMem s t ∧ t.regs = s.regs) ∧
  (∀ (s : State) (d : Nat), DieUp s d → CanSend s d → s.ximelOn d = true → (s.wire d 0).owed = true → Does (.ximelAckTimer d) s fun t =>
    t.out = s.out ++ [s.ctlOf d 1 0 0] ∧ (t.wire d 0).owed = false ∧ t.regs = s.regs ∧ SameMem s t) ∧
  (∀ (s : State) (d : Nat), DieUp s d → CanSend s d → s.ximelOn d = true → (s.wire d 0).nakked = true → Does (.ximelNakResend d) s fun t =>
    t.out = s.out ++ [s.ctlOf d 2 0 0] ∧ t.regs = s.regs ∧ SameMem s t) ∧
  (∀ (s : State) (d : Nat) (x : LinkCtl), CtlHeard s d x → s.ximelOn d = true → ((s.wire d 0).acked x.ack).held ≠ [] →
    ((s.wire d 0).acked x.ack).worn = false → Does (.ximelNakReceive d x) s fun t =>
      t.wire d 0 = ((s.wire d 0).acked x.ack).resend ∧ t.ctrs = s.ctrs ∧ t.regs = s.regs ∧ SameMem s t) ∧
  (∀ (s : State) (d : Nat), DieUp s d → s.ximelOn d = true → (s.wire d 0).held ≠ [] → (s.wire d 0).worn = false →
    Does (.ximelReplayTimeout d) s fun t => t.wire d 0 = (s.wire d 0).resend ∧ t = { s with wires := t.wires }) ∧
  (∀ (s : State) (d : Nat), DieUp s d → s.ximelOn d = true → (s.wire d 0).held ≠ [] → (s.wire d 0).worn = true →
    exec (.ximelReplayTimeout d) s = .next (s.retrainPort d))

/-- Ximel Link: capability, lane failures, narrowing, widening and retraining. R279, R284, R285, R286, R287, R289. The model's own
choices in it: log 25, 77. -/
def Obligations.LinkWidth : Prop :=
  (∀ (s : State) (d part step : Nat) (offers : Bool) (x : LinkCtl), CtlHeard s d x → d < s.part.torusPorts →
    (part = s.part.dies → step = 0x11 → s.ethCtrl d 1 = true → offers = true → Does (.ximelCapability d ⟨part, step, offers⟩ x) s fun t =>
      t.ximelOn d = true ∧ (t.wire d 0).next = 0 ∧ (t.wire d 0).expect = 0 ∧ SameMem s t) ∧
    (part = s.part.dies → step = 0x11 → s.ethCtrl d 1 = false ∨ offers = false → Does (.ximelCapability d ⟨part, step, offers⟩ x) s fun t =>
      t.ximelOn d = s.ximelOn d ∧ t.regs = s.regs ∧ SameMem s t) ∧
    ((part ≠ s.part.dies ∨ step ≠ 0x11) → Does (.ximelCapability d ⟨part, step, offers⟩ x) s fun t => t.heldOut d = true ∧ SameMem s t ∧
      ∀ e, e < s.part.dies → t.rbit e Reg.genDiscStatus (8 + d) = true)) ∧
  (∀ (s : State) (d lane : Nat), DieUp s d → s.portUp d = true → lane < 8 →
    (s.ximelOn d = false → Does (.laneFail d lane) s fun t => t.portUp d = false ∧ lane ∈ (t.eth d).failed ∧ SameMem s t) ∧
    (∀ i, s.ximelOn d = true → s.rf d Reg.ethStatus 2 2 ≠ 0 → firstGroup (addNew lane (s.eth d).failed) (Nat.max 1 (s.eth d).floor) = some i →
      CanSend s d → Does (.laneFail d lane) s fun t => (t.eth d).narrow = some ⟨(lanesAt i).1, (lanesAt i).2, true, false⟩ ∧
        t.rbit d Reg.ethStatus (4 + lane) = false ∧ t.out = s.out ++ [s.ctlOf d 3 (lanesAt i).1 (lanesAt i).2] ∧ SameMem s t)) ∧
  (∀ (s : State) (d width group i : Nat) (x : LinkCtl), CtlHeard s d x → CanSend s d → s.ximelOn d = true →
    (width < 3 → group < 8 / laneCount width → firstGroup (s.eth d).failed (Nat.max (s.eth d).floor (groupRank width group)) = some i →
      Does (.narrowRequest d ⟨width, group⟩ x) s fun t => t.regs = s.regs ∧
        (i = groupRank width group → (t.eth d).narrow = some ⟨width, group, false, true⟩ ∧ t.out = s.out ++ [s.ctlOf d 4 width group]) ∧
        (i ≠ groupRank width group → (t.eth d).narrow = some ⟨(lanesAt i).1, (lanesAt i).2, true, false⟩ ∧
          t.out = s.out ++ [s.ctlOf d 3 (lanesAt i).1 (lanesAt i).2])) ∧
    (Does (.widenRequest ⟨d, x⟩) s fun t => (t.eth d).narrow = some ⟨3, 0, false, true⟩ ∧ t.regs = s.regs ∧ t.out = s.out ++ [s.ctlOf d 6 3 0])) ∧
  (∀ (s : State) (d : Nat) (n : Narrow), DieUp s d → (s.eth d).narrow = some n →
    (n.mine = true → ∀ (x : LinkCtl) (c : Instr), c = .narrowAckTimeout d ∨ (c = .narrowAck d ⟨n.width, n.group⟩ x ∧ CtlHeard s d x) ∨
        (c = .widenAck ⟨d, x⟩ ∧ CtlHeard s d x ∧ n.width = 3 ∧ n.group = 0) →
      Does c s fun t => (t.eth d).narrow = some { n with switched := true } ∧ t.regs = s.regs ∧ t.out = s.out) ∧
    (n.mine = true → n.switched = false → s.ximelOn d = true → CanSend s d → Does (.narrowRequestRepeat d) s fun t => t.regs = s.regs ∧
      t.out = s.out ++ [s.ctlOf d (if n.width = 3 then 5 else 3) n.width n.group]) ∧
    (∀ ack, n.switched = true → s.ximelOn d = true → ((s.wire d 0).acked ack).worn = false → (s.eth d).retrain = none →
      Does (.narrowAlign d ack) s fun t => (t.eth d).narrow = none ∧ t.rf d Reg.ethStatus 2 2 = n.width % 4 ∧
        t.rf d Reg.ethStatus 4 8 = sumNat ((laneGroup n.width n.group).map fun l => 2 ^ l) % 256 ∧
        (n.width = 3 → SameMem s t) ∧ (n.width ≠ 3 → t.rbit d Reg.rasStatus 0 = true ∧
          t.ctr d (ethCnt 0xF) = Nat.min ctrMax (s.ctr d (ethCnt 0xF) + 1))) ∧
    (n.width = 0 → Does (.narrowAlignFail d) s fun t => t.portUp d = false) ∧
    (∀ i, n.width ≠ 0 → s.portUp d = true → CanSend s d →
      firstGroup (s.eth d).failed (Nat.max 1 (Nat.max (s.eth d).floor (groupRank (n.width - 1) 0))) = some i → Does (.narrowAlignFail d) s fun t =>
      (t.eth d).narrow = some ⟨(lanesAt i).1, (lanesAt i).2, true, false⟩ ∧ t.out = s.out ++ [s.ctlOf d 3 (lanesAt i).1 (lanesAt i).2] ∧
        t.regs = s.regs)) ∧
  (∀ (s : State) (d : Nat), DieUp s d → s.portUp d = true → s.ximelOn d = true → s.rf d Reg.ethStatus 2 2 ≠ 3 → (s.eth d).narrow = none →
    Does (.widen d) s fun t => (t.eth d).training = true ∧ t.rbit d Reg.ethStatus 15 = false ∧ SameMem s t) ∧
  (∀ (s : State) (d : Nat) (lanes : List Nat), DieUp s d → (s.eth d).training = true →
    ((∀ l, l < 8 → l ∈ lanes) → CanSend s d → Does (.widenTrainEnd d lanes) s fun t => (t.eth d).narrow = some ⟨3, 0, true, false⟩ ∧ t.regs = s.regs ∧
      t.out = s.out ++ [s.ctlOf d 5 3 0]) ∧
    (∀ l, l < 8 → l ∉ lanes → Does (.widenTrainEnd d lanes) s fun t => t.rbit d Reg.ethStatus 15 = true ∧ (t.eth d).training = false ∧ SameMem s t)) ∧
  (∀ (s : State) (d : Nat), DieUp s d → s.portUp d = true → (s.eth d).narrow = none → (s.eth d).retrain = none →
    (s.prio7 d = [] → Does (.retrain d) s fun t => t.portUp d = false ∧ SameMem s t) ∧
    (s.prio7 d ≠ [] → Does (.retrain d) s fun t => t.portUp d = true ∧ t.rbit d Reg.ethStatus 12 = true ∧ (t.eth d).retrain = some (s.prio7 d) ∧
      SameMem s t)) ∧
  (∀ (s : State) (d : Nat), DieUp s d → s.rbit d Reg.ethStatus 12 = true → Does (.retrainDeferEnd d) s fun t => t.portUp d = false ∧ SameMem s t)

/-- Remote access: packets that store and answer. R310, R311, R312, R313, R318. The model's own choices in it: log 26. -/
def Obligations.PacketsPlaced : Prop :=
  ∀ (s : State) (d : Nat) (k : Packet), AtConn s d k.dstConn → s.memWf = true → k.fence = false → k.psn < 2 ^ 24 →
    k.psn = ctxExp (s.ctx d k.dstConn) → s.received (ctxPort (s.ctx d k.dstConn)) k.dstConn k.psn = false →
    (∀ w, s.packetCheck (ctxPort (s.ctx d k.dstConn)) k.dstConn { k with opcode := 0 } = (0, some w.id) → s.work w.id = some w →
      (∀ m, (s.conn k.dstConn).inMsg k.msn = some m → m.buf = some w.id) →
      Does (.sendPacket d k) s fun t => Wrote s t (w.addr 8 + k.moff) k.payload ∧ t.regs = s.regs) ∧
    (s.packetCheck (ctxPort (s.ctx d k.dstConn)) k.dstConn { k with opcode := 1 } = (0, none) →
      (s.region (ctxPort (s.ctx d k.dstConn)) (k.key / 256)).bell = false →
      Does (.writePacket d k) s fun t => Wrote s t ((s.region (ctxPort (s.ctx d k.dstConn)) (k.key / 256)).base + k.roff) k.payload ∧ t.regs = s.regs) ∧
    (s.packetCheck (ctxPort (s.ctx d k.dstConn)) k.dstConn { k with opcode := 2 } = (0, none) → 1 ≤ k.len →
      Does (.readReqPacket d k) s fun t => SameMem s t ∧ t.regs = s.regs ∧
        Queued t (ctxPort (s.ctx d k.dstConn)) fun p => p.opcode = 3 ∧ p.psn = k.psn ∧ p.moff = k.moff ∧
          p.payload = s.bytes ((s.region (ctxPort (s.ctx d k.dstConn)) (k.key / 256)).base + k.roff) (Nat.min (ctxMtu (s.ctx d k.dstConn)) k.len)) ∧
    (∀ synd, s.packetCheck (ctxPort (s.ctx d k.dstConn)) k.dstConn { k with opcode := 1 } = (synd, none) → synd ≠ 0 → synd ≠ 2 →
      Does (.writePacket d k) s fun t => SameMem s t ∧ t.regs = s.regs ∧ ctxState (t.ctx d k.dstConn) = 2 ∧
        Queued t (ctxPort (s.ctx d k.dstConn)) fun p => p.opcode = 5 ∧ p.synd = synd)

/-- Remote access: responses, acknowledgements and NAKs. R303, R311, R313, R316, R320. The model's own choices in it: log 26. -/
def Obligations.PacketsAnswered : Prop :=
  (∀ (s : State) (d : Nat) (k : Packet) (m : XMsg) (w : Work), AtConn s d k.dstConn → s.memWf = true →
    ((s.conn k.dstConn).msgs.find? fun m => m.op == 2 && m.msn == k.msn) = some m → s.work m.id = some w →
    modSub 24 k.psn m.psn < m.n → modSub 24 k.psn m.psn ∉ m.got → Does (.readRespPacket d k) s fun t => t.regs = s.regs ∧
      Wrote s t (w.addr 22 + modSub 24 k.psn m.psn * ctxMtu (s.ctx d k.dstConn)) k.payload) ∧
  (∀ (s : State) (d : Nat) (k : Packet), AtConn s d k.dstConn → 0 < modSub 24 k.psn (s.conn k.dstConn).acked →
    modSub 24 k.psn (s.conn k.dstConn).acked < 2 ^ 23 → Does (.ackPacket d k) s fun t => (t.conn k.dstConn).acked = k.psn ∧
      SameMem s t ∧ t.regs = s.regs ∧ ∀ m rest w, (s.conn k.dstConn).msgs = m :: rest → s.work m.id = some w →
        ({ s.conn k.dstConn with acked := k.psn }).msgDone m = true → m.id ∈ (t.conn k.dstConn).done ∧ ∃ v, t.work m.id = some v ∧ v.ended = true) ∧
  (∀ (s : State) (d : Nat) (k : Packet), AtConn s d k.dstConn → k.synd ≠ 1 → k.synd ≠ 2 →
    Does (.nakPacket d k) s fun t => ctxState (t.ctx d k.dstConn) = 2 ∧ (t.conn k.dstConn).msgs = [] ∧ SameMem s t ∧ t.regs = s.regs) ∧
  (∀ (s : State) (d : Nat) (k : Packet), AtConn s d k.dstConn → k.synd = 2 → leAt (s.ctx d k.dstConn) 32 1 / 16 = 15 →
    Does (.nakPacket d k) s fun t => (t.conn k.dstConn).wait = some k.msn ∧ SameMem s t ∧ t.regs = s.regs) ∧
  (∀ (s : State) (d : Nat) (k : Packet) (c : Instr), DieUp s d → (s.xtOn d = false ∨ s.ctxCount d ≤ k.dstConn) →
    c ∈ [Instr.sendPacket d k, .writePacket d k, .readReqPacket d k, .readRespPacket d k, .ackPacket d k, .nakPacket d k] →
    Does c s fun t => t.ctr d (xtCnt 0xB) = Nat.min ctrMax (s.ctr d (xtCnt 0xB) + 1) ∧ t.xt = s.xt ∧ SameMem s t ∧ t.regs = s.regs ∧ t.seq = s.seq)

/-- Remote access: context fetches, timers, fences and receive completions. R304, R312, R313, R316, R320, R323, R328. The model's own
choices in it: log 26. -/
def Obligations.TransportTimers : Prop :=
  (∀ (s : State) (d c : Nat), DieUp s d → (d, c) ∈ s.xt.fetching → s.cached c = false → (s.ctxsOf d).length < 4096 →
    (∀ m ∈ s.xt.misses, m.d ≠ d ∨ m.c ≠ c) → Does (.contextFetch d c true) s fun t => t.cached c = true ∧
      t.ctx d c = s.bytes (s.ctxAddr d c) 256 ∧ SameMem s t ∧ t.regs = s.regs) ∧
  (∀ (s : State) (d c : Nat), DieUp s d → Sends s (s.ctx d c) → (s.conn c).owed = true → Does (.xtAckTimer d c) s fun t =>
    (t.conn c).owed = false ∧ SameMem s t ∧ t.regs = s.regs ∧
      Queued t (ctxPort (s.ctx d c)) fun p => p.opcode = 4 ∧ p.psn = ctxExp (s.ctx d c) ∧ p.aMsn = modSub 24 (ctxRecvMsn (s.ctx d c)) 1) ∧
  (∀ (s : State) (d c : Nat), DieUp s d → Sends s (s.ctx d c) → (s.conn c).nak = true → Does (.xtNakResend d c) s fun t =>
    SameMem s t ∧ t.regs = s.regs ∧ Queued t (ctxPort (s.ctx d c)) fun p => p.opcode = 5 ∧ p.synd = 1 ∧ p.psn = ctxExp (s.ctx d c)) ∧
  (∀ (s : State) (d c : Nat), DieUp s d → ctxState (s.ctx d c) = 1 → (s.conn c).unacked = true →
    ((s.conn c).tries + 1 < leAt (s.ctx d c) 32 1 % 16 → Does (.retransmitTimeout d c) s fun t => (t.conn c).tries = (s.conn c).tries + 1 ∧
      (t.conn c).msgs = (s.conn c).msgs ∧ SameMem s t ∧ t.regs = s.regs) ∧
    (leAt (s.ctx d c) 32 1 % 16 ≤ (s.conn c).tries + 1 → Does (.retransmitTimeout d c) s fun t => (t.conn c).msgs = [] ∧
      ∀ m ∈ (s.conn c).msgs, ∀ w, s.work m.id = some w → Ended t m.id { w.res with status := 0x11 })) ∧
  (∀ (s : State) (d c n : Nat) (m : XMsg), DieUp s d → (s.conn c).wait = some n → ((s.conn c).msgs.find? fun m => m.msn == n) = some m →
    Does (.rnrWait d c) s fun t => (t.conn c).wait = none ∧ SameMem s t ∧ t.regs = s.regs) ∧
  (∀ (s : State) (d c i : Nat) (m : XMsg) (w : Work), DieUp s d → Sends s (s.ctx d c) →
    ((s.conn c).msgs.find? fun m => m.op == 2 && decide (0 < m.sent) && decide (m.got.length < m.n)) = some m → s.work m.id = some w →
    ((List.range m.n).find? fun i => !m.got.contains i) = some i → Does (.readRetryTimeout d c) s fun t => SameMem s t ∧ t.regs = s.regs ∧
      Queued t (ctxPort (s.ctx d c)) fun p => p.opcode = 2 ∧ p.psn = (m.psn + i) % 2 ^ 24 ∧ p.roff = w.f 16 6 + i * ctxMtu (s.ctx d c)) ∧
  (∀ (s : State) (d c : Nat) (m : XIn) (k : Packet), DieUp s d → s.memWf = true → s.cached c = true → (s.conn c).ins = [m] → m.held = [k] →
    k.opcode = 1 → (s.region d (k.key / 256)).bell = false → s.fenceOpen d c m = true → Does (.fenceRelease d c) s fun t =>
      Wrote s t ((s.region d (k.key / 256)).base + k.roff) k.payload ∧ t.regs = s.regs) ∧
  (∀ (s : State) (d c : Nat) (m : XIn), DieUp s d → s.cached c = true → (s.conn c).inMsg (ctxRecvMsn (s.ctx d c)) = some m → m.whole = true →
    (m.op = 0 ∨ m.notify = true) → Does (.receiveCompletion d c) s fun t =>
      t.cqTail (ctxRing (s.ctx d c)) = (s.cqTail (ctxRing (s.ctx d c)) + 1) % 2 ^ 32 ∧ (t.conn c).inMsg (ctxRecvMsn (s.ctx d c)) = none ∧
      (∀ w, m.buf.bind s.work = some w → t.work w.id = none)) ∧
  (∀ (s : State) (d : Nat), DieUp s d → Does (.xtDisable d) s fun t => t.xtOn d = false ∧ t.ctxsOf d = [] ∧
    (∀ m ∈ t.xt.misses, m.d ≠ d) ∧ ∀ x ∈ t.xt.fetching, x.1 ≠ d)

/-- Wheel frames, collective timeouts and disabling the wheel. R338, R341, R345, R347, R350, R356, R366. The model's own choices in
it: log 36, 37. -/
def Obligations.WheelFrames : Prop :=
  (∀ (s : State) (d : Nat) (f : WheelFrame) (c : Instr), DieUp s d → s.rbit d Reg.whlCtrl 0 = false →
    c ∈ [Instr.wheelDataFrame d f, .wheelCreditFrame d f, .wheelCountsFrame d f, .wheelStartFrame d f, .wheelAckFrame d f, .wheelNakFrame d f] →
    Does c s fun t => t.ctr d (Reg.whlCntLo 4) = Nat.min ctrMax (s.ctr d (Reg.whlCntLo 4) + 1) ∧ t.whl = s.whl ∧ t.wires = s.wires ∧
      SameMem s t ∧ t.regs = s.regs) ∧
  (∀ (s : State) (d : Nat) (f : WheelFrame) (c : Instr) (k : Nat), AtMesh s d f →
    (c, k) ∈ [(Instr.wheelCountsFrame d f, 2), (.wheelStartFrame d f, 3)] →
    (∀ x ∈ s.whl.colls, ¬ (x.d = d ∧ x.group = f.group ∧ x.num = f.coll)) →
    exec c s = .next { s with whl := { s.whl with early := s.whl.early ++ [(d, { f with kind := k })] } }) ∧
  (∀ (s : State) (d : Nat) (f : WheelFrame) (c : Instr) (k : Nat) (x : Coll), AtMesh s d f → f.kind < 6 →
    (c, k) ∈ [(Instr.wheelDataFrame d f, 0), (.wheelCreditFrame d f, 1), (.wheelCountsFrame d f, 2), (.wheelStartFrame d f, 3)] →
    (s.whl.colls.find? fun x => x.d == d && x.group == f.group && x.num == f.coll) = some x →
    exec c s = .next ((s.collFrame x.id { f with kind := k }).pumpDie d)) ∧
  (∀ (s : State) (d : Nat) (f : WheelFrame) (x : Coll), AtMesh s d f →
    (s.whl.colls.find? fun x => x.d == d && x.group == f.group && x.num == f.coll) = some x → s.coll x.id = some x → x.queue = [] → x.ins = [] →
    (∀ y ∈ s.whl.colls, y.d = d → y = x) → x.open_ = false →
    Does (.wheelCreditFrame d f) s fun t => ∃ y, t.coll x.id = some y ∧ kvGet 0 y.credit f.srcRank = kvGet 0 x.credit f.srcRank + f.credit) ∧
  (∀ (s u : State) (d : Nat) (f : WheelFrame) (x : Coll) (w : Work), AtMesh s d f → s.memWf = true → f.kind < 6 → u = s.staged d →
    (s.whl.colls.find? fun x => x.d == d && x.group == f.group && x.num == f.coll) = some x → s.coll x.id = some x → s.work x.id = some w →
    w.cop = 3 → x.open_ = true → x.ins = [] → (∀ y ∈ s.whl.colls, y.d = d → y = x) → f.last = true → f.piece < (u.grp d f.group).n →
    f.index < (u.piece w f.piece).n → f.payload.length = tileStride (leAt f.payload 0 1) →
    let a := ((x.spans.find? fun y => y.1 == f.srcRank).map fun y => y.2.1).getD 0 + f.index * tileStride (leAt f.payload 0 1)
    u.refetching ⟨a, f.payload.length, true⟩ = false → (∀ c ∈ u.rangeCodes d w.part ⟨a, f.payload.length, true⟩, c = 0) →
    Does (.wheelDataFrame d f) s fun t => Wrote u t a f.payload ∧
      ∀ x, x < s.regAddr d Reg.whlStageLo ∨ s.regAddr d Reg.whlStageLo + 2 ^ 26 ≤ x → u.byte x = s.byte x) ∧
  (∀ (s : State) (id : Nat) (x : Coll) (w : Work), s.tripped = false → s.coll id = some x → s.work id = some w →
    Does (.collectiveTimeout id) s fun t => t.coll id = none ∧ t.ctr x.d (Reg.whlCntLo 5) = Nat.min ctrMax (s.ctr x.d (Reg.whlCntLo 5) + 1) ∧
      Ended t id { w.res with status := 0x14, flags := x.flags, poison := x.poison, checksum := x.crc, detail0 := x.num }) ∧
  (∀ (s : State) (d : Nat), DieUp s d → s.rbit d Reg.whlCtrl 0 = true → Does (.wheelDisable d) s fun t =>
    t.rbit d Reg.whlCtrl 0 = false ∧ (∀ x ∈ t.whl.colls, x.d ≠ d) ∧ (∀ x ∈ t.whl.early, x.1 ≠ d) ∧ SameMem s t)

/-- Sequenced links of the wheel and of the commit logic. R281, R282, R283, R383. The model's own choices in it: log 25, 39. -/
def Obligations.SequencedLinks : Prop :=
  ∀ (s : State) (d u : Nat) (late owe nak : Instr), DieUp s d → s.ximelOn d = false →
    (u, late, owe, nak) ∈ [(1, Instr.wheelReplayTimeout d, Instr.wheelAckTimer d, Instr.wheelNakResend d),
      (2, .cmtReplayTimeout d, .cmtAckTimer d, .cmtNakResend d)] →
    let ctl : Nat → Nat → TxItem := fun wheel commit =>
      if u = 1 then .wheel (WheelFrame.bare wheel 0 (s.wire d u).ack) else .commit (CommitFrame.bare commit 0 (s.wire d u).ack)
    ((s.wire d u).held ≠ [] → (s.wire d u).worn = false → Does late s fun t =>
      (t.wire d u).replay = (s.wire d u).held.map (fun h => h.seq) ∧ (t.wire d u).held = (s.wire d u).held ∧
      t = { s with wires := t.wires }) ∧
    ((s.wire d u).held ≠ [] → (s.wire d u).worn = true → exec late s = .next (s.retrainPort d)) ∧
    (s.carries d (ctl 4 7) = true → (s.wire d u).owed = true → Does owe s fun t => (t.wire d u).owed = false ∧ SameMem s t ∧ t.regs = s.regs ∧
      (t.eth d).txq = (s.eth d).txq ++ [⟨7, 0, false, none, ctl 4 7⟩]) ∧
    (s.carries d (ctl 5 8) = true → (s.wire d u).nakked = true → Does nak s fun t => SameMem s t ∧ t.regs = s.regs ∧
      (t.eth d).txq = (s.eth d).txq ++ [⟨7, 0, false, none, ctl 5 8⟩]) ∧
    (∀ f : CommitFrame, s.rbit d Reg.cmtCtrl 0 = true → Does (.cmtLinkAck d f) s fun t =>
      (t.wire d 2).held = (s.wire d 2).held.filter (fun h => !ackCovers f.ack h.seq) ∧ SameMem s t ∧ t.regs = s.regs) ∧
    (∀ f : CommitFrame, s.rbit d Reg.cmtCtrl 0 = true → ((s.wire d 2).acked f.ack).held ≠ [] → ((s.wire d 2).acked f.ack).worn = false →
      Does (.cmtLinkNak d f) s fun t => (t.wire d 2).replay = ((s.wire d 2).acked f.ack).held.map (fun h => h.seq) ∧ SameMem s t ∧ t.regs = s.regs) ∧
    (∀ f : WheelFrame, s.rbit d Reg.whlCtrl 0 = true → 8256 ≤ s.ethMaxfrm d → (∀ x ∈ s.whl.colls, x.d ≠ d) → Does (.wheelAckFrame d f) s fun t =>
      (t.wire d 1).held = (s.wire d 1).held.filter (fun h => !ackCovers f.ack h.seq) ∧ SameMem s t ∧ t.regs = s.regs) ∧
    (∀ f : WheelFrame, s.rbit d Reg.whlCtrl 0 = true → 8256 ≤ s.ethMaxfrm d → (∀ x ∈ s.whl.colls, x.d ≠ d) → ((s.wire d 1).acked f.ack).held ≠ [] →
      ((s.wire d 1).acked f.ack).worn = false → Does (.wheelNakFrame d f) s fun t =>
        (t.wire d 1).replay = ((s.wire d 1).acked f.ack).held.map (fun h => h.seq) ∧ SameMem s t ∧ t.regs = s.regs)

/-- Commit frames, votes, stall timers and disabling the commit logic. R377, R378, R384, R387, R405. The model's own choices in it:
log 41. -/
def Obligations.CommitRing : Prop :=
  (∀ (s : State) (d : Nat) (f : CommitFrame) (c : Instr), DieUp s d → s.rbit d Reg.cmtCtrl 0 = false →
    c ∈ [Instr.prepareFrame d f, .decideFrame d f, .pushFrame d f, .pushRevertFrame d f, .pushAckFrame d f, .queryFrame d f, .reportFrame d f,
      .cmtLinkAck d f, .cmtLinkNak d f] →
    Does c s fun t => t.ctr d (Reg.cmtCntLo 7) = Nat.min ctrMax (s.ctr d (Reg.cmtCntLo 7) + 1) ∧ t.doms = s.doms ∧ t.groups = s.groups ∧
      SameMem s t ∧ t.regs = s.regs) ∧
  (∀ (s : State) (d : Nat) (f : CommitFrame), AtDomain s d f → f.kind < 9 → (s.dom f.domain).stopped = false →
    (s.domRec f.domain).broken = false → (s.domRec f.domain).rank ≠ 0 → (∀ v ∈ (s.dom f.domain).prepared, v.k ≠ f.commit) →
    (∀ v ∈ (s.dom f.domain).decided, v.k ≠ f.commit) → s.groupOf f.domain f.commit = none →
    Does (.prepareFrame d f) s fun t => frameVerdict f ∈ (t.dom f.domain).prepared) ∧
  (∀ (s : State) (d : Nat) (f : CommitFrame), AtDomain s d f → f.kind < 9 → (s.dom f.domain).stopped = false →
    (s.domRec f.domain).broken = false → (s.domRec f.domain).done ≤ f.commit → (∀ v ∈ (s.dom f.domain).decided, v.k ≠ f.commit) →
    ((s.domRec f.domain).rank = 0 → Does (.prepareFrame d f) s fun t =>
      frameVerdict f ∈ (t.dom f.domain).decided ∨ frameVerdict f ∈ (t.dom f.domain).applied) ∧
    (Does (.decideFrame d f) s fun t => frameVerdict f ∈ (t.dom f.domain).decided ∨ frameVerdict f ∈ (t.dom f.domain).applied)) ∧
  (∀ (s : State) (slot : Nat) (g : Group) (w : Work), s.tripped = false → s.groupAt slot = some g → s.voteReady g = true → g.dom = 0xF →
    s.work (g.commit.getD 0) = some w →
    (g.failed = false → g.cause ≠ 3 → (∀ x ∈ g.pushes, x.st ≠ 3) → Does (.voteReady slot) s fun t =>
      ∃ v, t.work (g.commit.getD 0) = some v ∧ v.ended = true ∧ v.res.status = 0 ∧
        t.ctr w.die (Reg.cmtCntLo 0) = Nat.min ctrMax (s.ctr w.die (Reg.cmtCntLo 0) + 1)) ∧
    (g.failed = true → Does (.voteReady slot) s fun t =>
      ∃ v, t.work (g.commit.getD 0) = some v ∧ v.ended = true ∧ v.res.status = 0x0C ∧ v.res.detail1 = 1 ∧
        t.ctr w.die (Reg.cmtCntLo 1) = Nat.min ctrMax (s.ctr w.die (Reg.cmtCntLo 1) + 1))) ∧
  (∀ (s : State) (m what k : Nat), s.tripped = false → s.waits m what k = true → Does (.commitStallTimer m what k) s fun t =>
    (what, k) ∈ (t.dom m).stalled ∧
      t.ctr (s.domRec m).die (Reg.cmtCntLo 6) = Nat.min ctrMax (s.ctr (s.domRec m).die (Reg.cmtCntLo 6) + 1)) ∧
  (∀ (s : State) (d : Nat), DieUp s d → s.rbit d Reg.cmtCtrl 0 = true → Does (.cmtDisable d) s fun t => t.rbit d Reg.cmtCtrl 0 = false ∧
    ∀ g ∈ t.groups, g.closed = false → s.ownsOn d g.part = true → g.vote = 3)

/-- Buddy copies and the recovery of a commit ring. R388, R389, R390, R392, R394. The model's own choices in it: log 40, 41. -/
def Obligations.CommitTraffic : Prop :=
  ((∀ (s : State) (slot o : Nat) (g : Group), s.tripped = false → s.groupAt slot = some g → g.closed = true → g.commit.isSome = true →
    s.actionOn g.slot o = false → o ∈ s.pushTwins g → (∀ x ∈ g.pushes, x.obj ≠ o) → Does (.buddyPushStart slot o) s fun t => SameMem s t ∧
      t.groups = mapIf (fun x => x.slot == g.slot) (fun x => { x with pushes := x.pushes ++ [⟨o, (s.twin 0 o).revert, if s.pushRoute (s.domMember (s.domRec g.dom) (s.domRec g.dom).buddy) then 1 else 3⟩] }) s.groups) ∧
  (∀ (s : State) (d : Nat) (f : CommitFrame), AtDomain s d f → s.memWf = true → (s.hold f.hold).valid = true →
    (s.hold f.hold).dom = f.domain → (s.hold f.hold).partner = f.srcRank → f.offset + f.payload.length ≤ (s.hold f.hold).len →
    (s.hold f.hold).staged = false →
    (8256 ≤ s.ethMaxfrm d → Does (.pushFrame d f) s fun t =>
      let a := (if (s.hold f.hold).side then (s.hold f.hold).side0 else (s.hold f.hold).side1) + f.offset
      t.bytes a f.payload.length = f.payload ∧
      (∀ x, (x < a ∨ a + f.payload.length ≤ x) → (x < s.holdAddr f.hold ∨ s.holdAddr f.hold + 32 ≤ x) → t.byte x = s.byte x) ∧
      t.ctr (s.domRec f.domain).die (Reg.cmtCntLo 5) =
        Nat.min ctrMax (s.ctr (s.domRec f.domain).die (Reg.cmtCntLo 5) + f.payload.length / 64) ∧ t.regs = s.regs) ∧
    ((s.hold f.hold).prev = true → Does (.pushRevertFrame d f) s fun t => t.regs = s.regs ∧
      Wrote s t (s.holdAddr f.hold) { s.hold f.hold with staged := true, stage := f.commit, prev := true, revert := true }.bytes)) ∧
  (∀ (s : State) (d : Nat) (f : CommitFrame) (g : Group), AtDomain s d f → s.groupOf f.domain f.commit = some g →
    f.srcRank = (s.domRec f.domain).buddy → Does (.pushAckFrame d f) s fun t => SameMem s t ∧ t.regs = s.regs ∧
      t.groups = mapIf (fun x => x.slot == g.slot) (fun x => { x with pushes := mapIf (fun y => y.st == 1 && (s.twin 0 y.obj).hold == f.hold) (fun y => { y with st := if f.verdict = 1 then 2 else 3 }) x.pushes }) s.groups)) ∧
  ((∀ (s : State) (m k : Nat), s.tripped = false → (s.domRec m).valid = true → k < (s.domRec m).n → k ≠ (s.domRec m).rank →
    k ∉ (s.dom m).lost → Does (.memberLost m k) s fun t => k ∈ (t.dom m).lost ∧ (t.dom m).stopped = true) ∧
  (∀ (s : State) (d : Nat) (f : CommitFrame), AtDomain s d f → s.memWf = true → Does (.queryFrame d f) s fun t =>
    (t.dom f.domain).stopped = true ∧ (t.dom f.domain).leader = some f.srcRank ∧ (t.dom f.domain).leads = false ∧
    (t.dom f.domain).prepared = [] ∧ Wrote s t (s.domAddr f.domain + 24) [1] ∧ t.regs = s.regs) ∧
  (∀ (s : State) (d : Nat) (f : CommitFrame), AtDomain s d f → (s.dom f.domain).leads = true →
    (f.verdict = 3 → Does (.reportFrame d f) s fun t => kvFind (t.dom f.domain).ends f.srcRank = some f.commit) ∧
    (f.verdict ≠ 3 → (∃ q ∈ s.survivors f.domain, kvFind (s.dom f.domain).ends q = none) → Does (.reportFrame d f) s fun t =>
      (f.srcRank, f.commit, f.verdict) ∈ (t.dom f.domain).reports ∧ SameMem s t ∧ t.regs = s.regs)))

/-- Mailbox services, and the bell of a busy mailbox. R440, R441, R655. The model's own choices in it: log 71. -/
def Obligations.Mailboxes : Prop :=
  (∀ (s : State) (m : Nat) (seq : BitVec 16) (who : Master) (c : Instr) (sv : Nat), s.tripped = false → s.mbReaches m who = true →
    s.mbBusy m = false → leAt (s.mbBytes m) 0 1 = sv →
    (∀ k, (c, k) ∈ [(Instr.mbQuery m seq who, 1), (.mbPause m seq who, 2), (.mbResume m seq who, 3), (.mbReset m seq who, 4),
        (.mbEcho m seq who, 5), (.unknownService m seq who, 6)] → (k = sv ∨ k = 6 ∧ (sv = 0 ∨ 5 < sv ∧ sv ≠ 0x10)) →
      Does c s fun t => t.regN 0 (Reg.mbState m) = seq.toNat ∧ fld (t.regN 0 (Reg.mbData m 0)) 8 8 = s.mbResult m (s.mbBytes m) ∧
        t.ctr 0 (Reg.ringCntLo 7) = Nat.min ctrMax (s.ctr 0 (Reg.ringCntLo 7) + 1) ∧ SameMem s t ∧
        (s.mbResult m (s.mbBytes m) = 0 →
          (sv = 1 → t.regN 0 (Reg.mbData m 4) = s.ringPi (leAt (s.mbBytes m) 4 1) ∧ t.regN 0 (Reg.mbData m 5) = s.ringCi (leAt (s.mbBytes m) 4 1) ∧
            t.regN 0 (Reg.mbData m 6) = s.cqTail (leAt (s.mbBytes m) 4 1) ∧ t.regN 0 (Reg.mbData m 7) = s.cqHead (leAt (s.mbBytes m) 4 1)) ∧
          (sv = 2 → t.ringStat (leAt (s.mbBytes m) 4 1) 1 = true) ∧
          (sv = 3 → t.ringStat (leAt (s.mbBytes m) 4 1) 1 = false) ∧
          (sv = 4 → t.ringPi (leAt (s.mbBytes m) 4 1) = 0 ∧ t.ringCi (leAt (s.mbBytes m) 4 1) = 0 ∧ t.cqTail (leAt (s.mbBytes m) 4 1) = 0 ∧
            t.cqHead (leAt (s.mbBytes m) 4 1) = 0 ∧ t.ringStat (leAt (s.mbBytes m) 4 1) 2 = false ∧ t.ringStat (leAt (s.mbBytes m) 4 1) 3 = false) ∧
          (sv = 5 → ∀ i, 4 ≤ i → i < 128 → t.regN 0 (Reg.mbData m i) = s.regN 0 (Reg.mbData m i)))) ∧
    (sv = 0x10 → Does (.mbGuard m seq who) s fun t => t.mbBusy m = true ∧ kvFind t.mbSeq m = some (seq.toNat, isVf who) ∧ SameMem s t)) ∧
  (∀ (s : State) (m : Nat) (seq : BitVec 16) (who : Master) (c : Instr), s.tripped = false → s.mbReaches m who = true → s.mbBusy m = true →
    (c = .mbBellRejected m seq who ∨ c = .mbQuery m seq who ∧ leAt (s.mbBytes m) 0 1 = 1) →
    Does c s fun t => t.rbit 0 (Reg.mbState m) 17 = true ∧ (∀ i, i < 128 → t.regN 0 (Reg.mbData m i) = s.regN 0 (Reg.mbData m i)) ∧
      SameMem s t ∧ t.mbSeq = s.mbSeq)

/-- Guard requests: refusals and settings. R561, R562, R563. The model's own choices in it: log 64, 65. -/
def Obligations.GuardRequests : Prop :=
  (∀ (s : State) (r : GReq) (c : PathClass), s.tripped = false → s.guardRuns = true → s.pathClass r.path = some c →
    (∀ p, p ∈ guardOps r → reqOp (s.reqBytes r) = p.2 →
      (reqKnown (s.reqBytes r) = false → Answers p.1 s r 1 [] s) ∧
      (reqKnown (s.reqBytes r) = true → opPath p.2 c = false → Answers p.1 s r 2 [] s)) ∧
    (reqKnown (s.reqBytes r) = false → Answers (.guardUnknownOpcode r) s r 1 [] s)) ∧
  (∀ (s : State) (r : GReq) (c : PathClass), let b := s.reqBytes r
    (GuardHears s r c 0x1 → Answers (.guardQuery r) s r 0 s.queryWords s) ∧
    (GuardHears s r c 0x2 → (limitOk (leAt b 8 1) (leAt b 9 1) = true → Answers (.setClkLimit r) s r 0 [] (s.guardLimit (leAt b 8 1) (leAt b 9 1))) ∧
      (limitOk (leAt b 8 1) (leAt b 9 1) = false → Answers (.setClkLimit r) s r 3 [] s)) ∧
    (GuardHears s r c 0x3 → (leAt b 8 2 ≤ s.part.design → Answers (.setCapCeil r) s r 0 [] (s.guardSet 0 Reg.pwrCapCeil (leAt b 8 2))) ∧
      (s.part.design < leAt b 8 2 → Answers (.setCapCeil r) s r 4 [] s)) ∧
    (GuardHears s r c 0x4 → Answers (.setCapSb r) s r 0 [] (s.guardSet 0 Reg.pwrCapSb (leAt b 8 2))) ∧
    (GuardHears s r c 0x5 → let bad := leAt b 8 1 < 60 ∨ 105 < leAt b 8 1 ∨ leAt b 9 1 < leAt b 8 1 + 5 ∨ 115 < leAt b 9 1
      (bad → Answers (.setTherm r) s r 3 [] s) ∧
      (¬ bad → s.rf 0 Reg.grdFuseSvn 8 8 < leAt b 9 1 → Answers (.setTherm r) s r 4 [] s) ∧
      (¬ bad → leAt b 9 1 ≤ s.rf 0 Reg.grdFuseSvn 8 8 → ∃ u, Answers (.setTherm r) s r 0 [] u ∧
        ∀ d, d < s.part.dies → u.regN d Reg.thermLimits = leAt b 8 1 + 256 * leAt b 9 1)) ∧
    (GuardHears s r c 0x6 → (leAt b 8 1 ≤ 1 → 1 ≤ leAt b 10 2 → leAt b 10 2 ≤ 4095 → ∃ u, Answers (.setDisc r) s r 0 [] u ∧
        ∀ d, d < s.part.dies → u.regN d Reg.genDiscCtrl = leAt b 8 1 + 16 * leAt b 10 2) ∧
      ((1 < leAt b 8 1 ∨ leAt b 10 2 = 0 ∨ 4095 < leAt b 10 2) → Answers (.setDisc r) s r 3 [] s)) ∧
    (GuardHears s r c 0x7 → (s.discState = 0 → 2 ≤ s.stage_ → s.stage_ ≠ 0xF → Answers (.startDisc r) s r 0 [] s.startDiscovery) ∧
      ((s.discState ≠ 0 ∨ s.stage_ < 2 ∨ s.stage_ = 0xF) → Answers (.startDisc r) s r 9 [] s)) ∧
    (GuardHears s r c 0x8 → leAt b 8 1 ≤ 2 → (leAt b 8 1 = 2 → leAt b 9 1 < s.part.dies) →
      (s.grd.resetReq = none → Answers (.guardReset r) s r 0 [] { s with grd := { s.grd with resetReq := some (leAt b 8 1, leAt b 9 1) } }) ∧
      (∀ x, s.grd.resetReq = some x → Answers (.guardReset r) s r 5 [] s)) ∧
    (GuardHears s r c 0x9 → 1 ≤ leAt b 12 1 → leAt b 12 1 ≤ 7 →
      Answers (.readLog r) s r 0 ((s.grd.sticky.drop (leAt b 8 4)).take (leAt b 12 1)).flatten s))

/-- Guard requests: firmware, debug and security version. R562, R565, R566, R567, R568, R569. The model's own choices in it: log 32,
65. -/
def Obligations.GuardFirmware : Prop :=
  ∀ (s : State) (r : GReq) (c : PathClass), let b := s.reqBytes r
    (GuardHears s r c 0xA → leAt b 8 4 ≠ 0 → leAt b 8 4 ≤ 24 * 2 ^ 20 →
      (s.grd.upd = none → s.minSvn ≤ leAt b 12 1 → ∃ u, Answers (.fwBegin r) s r 0 [] u ∧ u.grd.upd = some ⟨leAt b 8 4, leAt b 12 1, []⟩ ∧
        u.slotValid (1 - s.runSlot) = false ∧ u.rbit 0 Reg.grdStatus 2 = true ∧ u.rbit 0 Reg.grdStatus 3 = false) ∧
      (s.grd.upd = none → leAt b 12 1 < s.minSvn → Answers (.fwBegin r) s r 7 [] s) ∧
      (∀ x, s.grd.upd = some x → Answers (.fwBegin r) s r 5 [] s)) ∧
    (GuardHears s r c 0xB → (s.grd.upd = none → Answers (.fwWrite r) s r 9 [] s) ∧
      (∀ x, s.grd.upd = some x → leAt b 8 4 + ((b.drop 12).take (reqLen b - 4)).length ≤ x.len → ∃ u y, Answers (.fwWrite r) s r 0 [] u ∧
        u.grd.upd = some y ∧ y.len = x.len ∧ y.svn = x.svn ∧
        (∀ i, (h : i < ((b.drop 12).take (reqLen b - 4)).length) → kvFind y.data (leAt b 8 4 + i) = some ((b.drop 12).take (reqLen b - 4))[i]) ∧
        ∀ a, (a < leAt b 8 4 ∨ leAt b 8 4 + ((b.drop 12).take (reqLen b - 4)).length ≤ a) → kvFind y.data a = kvFind x.data a)) ∧
    (GuardHears s r c 0xC → (s.grd.upd = none → Answers (.fwCommit r) s r 9 [] s) ∧
      (∀ x, s.grd.upd = some x → s.minSvn ≤ x.svn →
        if Config.fwSigned (x.image s.freeCtr) x.svn = true then ∃ u, Answers (.fwCommit r) s r 0 [] u ∧ u.grd.upd = none ∧
          kvFind u.grd.slots (1 - s.runSlot) = some ⟨true, s.slotSeq s.runSlot + 1, x.svn, x.image s.freeCtr⟩ ∧
          u.rbit 0 Reg.grdStatus 3 = true ∧ u.rbit 0 Reg.grdStatus 2 = false
        else Answers (.fwCommit r) s r 6 [] s)) ∧
    (GuardHears s r c 0xD → ∃ u n, Answers (.debugNonce r) s r 0 n u ∧ n.length = 48 ∧ u.grd.nonce = some n ∧ u.freeCtr = s.freeCtr + 1) ∧
    (GuardHears s r c 0xE → (s.grd.nonce = none → Answers (.debugUnlock r) s r 6 [] s) ∧
      ∀ n, s.grd.nonce = some n → if (Config.debugAllowed && Config.tokenOk s.serial n ((b.drop 8).take 96)) = true then
          ∃ u, Answers (.debugUnlock r) s r 0 [] u ∧ u.grd.nonce = none ∧ u.rbit 0 Reg.grdStatus 1 = true
        else Answers (.debugUnlock r) s r 6 [] s) ∧
    (GuardHears s r c 0xF → (s.rf 0 Reg.grdId 0 8 ≤ s.minSvn → Answers (.svnAdvance r) s r 9 [] s) ∧
      (s.minSvn < s.rf 0 Reg.grdId 0 8 → ∃ u, Answers (.svnAdvance r) s r 0 [] u ∧
        ∀ d, d < s.part.dies → u.rf d Reg.grdFuseSvn 0 8 = s.rf 0 Reg.grdId 0 8))

/-- SPDM: negotiation, certificates, measurements, chunks and vendor messages. R575, R576, R579. The model's own choices in it: log
33, 34, 35. -/
def Obligations.SpdmConnection : Prop :=
  ∀ (s : State) (m : SpdmMsg), let b := m.bytes
    let v := leAt m.bytes 0 1
    (SpdmHears s m 0x84 0 → m.session = none →
      exec (.getVersion m) s = .next ((s.modSpdm m.doe fun _ => ⟨m.doe, 1, [], []⟩).spdmSend m [0x10, 0x04, 0, 0, 0, 2, 0x00, 0x12, 0x00, 0x13])) ∧
    (SpdmHears s m 0xE1 1 → m.session = none → Does (.getCapabilities m) s fun t => (t.spdmOf m.doe).phase = 2 ∧ t.freeCtr = s.freeCtr + 1 ∧
      t.regs = s.regs ∧ t.mem = s.mem) ∧
    (SpdmHears s m 0xE3 2 → m.session = none → Does (.negotiateAlgorithms m) s fun t => (t.spdmOf m.doe).phase = 3 ∧ t.freeCtr = s.freeCtr + 1 ∧
      t.regs = s.regs ∧ t.mem = s.mem) ∧
    (SpdmHears s m 0x81 3 → exec (.getDigests m) s = .next (s.spdmSend m (spdmHead v 0x01 0 1 ++ sha384 s.certs))) ∧
    (SpdmHears s m 0x82 3 → leAt b 2 1 % 16 = 0 → exec (.getCertificate m) s = .next (s.spdmSend m (if s.certs.length < leAt b 4 2 then spdmError v 1 0
      else spdmHead v 0x02 0 0 ++ natLe 2 ((s.certs.drop (leAt b 4 2)).take (leAt b 6 2)).length ++
        natLe 2 (s.certs.length - leAt b 4 2 - ((s.certs.drop (leAt b 4 2)).take (leAt b 6 2)).length) ++ (s.certs.drop (leAt b 4 2)).take (leAt b 6 2)))) ∧
    (SpdmHears s m 0x83 3 → leAt b 2 1 % 16 = 0 → ∃ x : List Byte, x.length = 130 + (if leAt b 3 1 = 0 then 0 else 48) ∧
      exec (.challenge m) s = .next ({ s with freeCtr := s.freeCtr + 1 }.spdmSend m (spdmHead v 0x03 0 1 ++ sha384 s.certs ++ x))) ∧
    (SpdmHears s m 0xE0 3 → bit (leAt b 2 1) 0 = false →
      (leAt b 3 1 = 0 → ∃ x : List Byte, x.length = 34 ∧
        exec (.getMeasurements m) s = .next ({ s with freeCtr := s.freeCtr + 1 }.spdmSend m (spdmHead v 0x60 6 0 ++ natLe 4 0 ++ x))) ∧
      (∀ i, leAt b 3 1 = i → i = 1 ∨ i = 2 → ∃ x : List Byte, x.length = 34 ∧
        exec (.getMeasurements m) s = .next ({ s with freeCtr := s.freeCtr + 1 }.spdmSend m (spdmHead v 0x60 0 0 ++ natLe 1 1 ++
          natLe 3 ((s.measBlock i).length + 7) ++ (natLe 1 i ++ natLe 1 1 ++ natLe 2 ((s.measBlock i).length + 3) ++ natLe 1 (i - 1) ++
            natLe 2 (s.measBlock i).length ++ s.measBlock i) ++ x))) ∧
      (6 < leAt b 3 1 → leAt b 3 1 ≠ 0xFF → exec (.getMeasurements m) s = .next (s.spdmSend m (spdmError v 1 0)))) ∧
    (SpdmHears s m 0x85 3 → bit (leAt b 2 1) 0 = false → Does (.chunkSend m) s fun t => (t.spdmOf m.doe).taken =
      (if leAt b 4 2 = 0 then (b.drop 16).take (leAt b 8 4) else (s.spdmOf m.doe).taken ++ (b.drop 12).take (leAt b 8 4)) ∧ t.regs = s.regs) ∧
    (SpdmHears s m 0x86 3 → (s.spdmOf m.doe).left ≠ [] → Does (.chunkGet m) s fun t =>
      (t.spdmOf m.doe).left = (s.spdmOf m.doe).left.drop (Nat.max 1 Config.spdmMax) ∧ t.out.length = s.out.length + 1 ∧ t.regs = s.regs) ∧
    (SpdmHears s m 0xFE 3 → leAt b 4 2 ≠ 3 →
      (leAt (vendorLoad b) 0 1 = 1 → ∀ c, c = .getLog m ∨ c = .vendorDefinedRequest m →
        exec c s = .next (s.spdmSend m (vendorHead v b ((vendorLoad b).take 1 ++ s.measLog.entries.flatten)))) ∧
      (∀ i, m.session = some i → leAt (vendorLoad b) 0 1 = 4 →
        exec (.vendorDefinedRequest m) s = .next ((s.guardServe (.ses i) ((vendorLoad b).drop 1)).spdmSend m (vendorHead v b ((vendorLoad b).take 1)))))

/-- SPDM: sessions. R575. The model's own choices in it: log 33, 35. -/
def Obligations.SpdmSessions : Prop :=
  ∀ (s : State) (m : SpdmMsg), let b := m.bytes
    let v := leAt m.bytes 0 1
    (SpdmHears s m 0xE4 3 → m.session = none → leAt b 3 1 = 0 →
      (∀ i, ((List.range 4).find? fun i => (s.sessOf i).isNone) = some i → Does (.keyExchange m) s fun t =>
        t.grd.sess = s.grd.sess ++ [⟨i, m.doe, false⟩] ∧ t.freeCtr = s.freeCtr + 1 ∧ t.mem = s.mem) ∧
      (((List.range 4).find? fun i => (s.sessOf i).isNone) = none → exec (.keyExchange m) s = .next (s.spdmSend m (spdmError v 0x0A 0)))) ∧
    (∀ i, s.tripped = false → s.spdmReach m = true → leAt b 1 1 = 0xE5 → spdmVersion b = true → 3 ≤ (s.spdmOf m.doe).phase → m.session = some i →
      s.sessUp i = false → Does (.finish m) s fun t =>
        t.grd.sess = (if Config.finishOk i b = true then s.grd.sess.map (fun (x : Sess) => if x.id = i then { x with up := true } else x)
          else s.grd.sess.filter fun x => x.id != i) ∧
        t.rf 0 Reg.grdStatus 6 3 = (t.grd.sess.filter fun x => x.up).length % 8 ∧ t.mem = s.mem) ∧
    (∀ i, m.session = some i →
      (SpdmHears s m 0xE9 3 → exec (.keyUpdate m) s = .next (s.spdmSend m (spdmHead v 0x69 (leAt b 2 1) (leAt b 3 1)))) ∧
      (SpdmHears s m 0xE8 3 → exec (.heartbeat m) s = .next (s.spdmSend m (spdmHead v 0x68 0 0))) ∧
      (SpdmHears s m 0xEC 3 → Does (.endSession m) s fun t => t.grd.sess = s.grd.sess.filter (fun x => x.id != i) ∧ s.hst.tdi = t.hst.tdi ∧
        t.hst.ide = s.hst.ide ∧ t.rf 0 Reg.grdStatus 6 3 = (t.grd.sess.filter fun x => x.up).length % 8 ∧ t.mem = s.mem))

/-- TDISP interfaces, IDE keys and MACsec keys. R577, R578, R579, R580. The model's own choices in it: log 35. -/
def Obligations.InterfacesAndKeys : Prop :=
  (∀ (s : State) (i fn : Nat) (c : Instr) (from_ : List Nat) (dest : Nat), OnDoe s i → 1 ≤ fn → fn ≤ s.part.parts →
    (c, from_, dest) ∈ [(Instr.lockInterface i fn, [0], 1), (.startInterfaceRequest i fn, [1], 2), (.stopInterfaceRequest i fn, [0, 1, 2, 3], 0)] →
    (s.tdi fn ∈ from_ → Does c s fun t => t.tdi fn = dest ∧ (∀ g, g ≠ fn → t.tdi g = s.tdi g) ∧ t.mem = s.mem ∧ t.regs = s.regs) ∧
    (s.tdi fn ∉ from_ → exec c s = .next (s.emit (.spdm true (some i) (tdispMsg 0x7F fn (natLe 4 4 ++ natLe 4 0)))))) ∧
  (∀ (s : State) (i stream : Nat) (key : BitVec 256), OnDoe s i → stream ≤ 16 → Does (.ideKm i stream key) s fun t =>
    kvFind t.hst.ide stream = some key ∧ t.out = s.out ++ [.spdm true (some i) (ideAck stream 0)] ∧ t.mem = s.mem ∧ t.regs = s.regs) ∧
  (∀ (s : State) (i d an : Nat) (tx : Bool) (sak : BitVec 256) (salt : BitVec 96) (ssci : W32), s.tripped = false → s.guardRuns = true →
    s.sessUp i = true → d < s.part.dies → an ≤ 1 → Does (.xsak i d tx an sak salt ssci) s fun t =>
      (⟨tx, an, sak, salt, ssci, 0⟩ : Sa) ∈ (t.eth d).sas ∧ (∀ a ∈ (t.eth d).sas, a.tx = tx → a.an = an → a = ⟨tx, an, sak, salt, ssci, 0⟩) ∧
      d ∉ t.grd.rekey ∧ t.mem = s.mem) ∧
  (∀ (s : State) (i d : Nat) (x : W32), s.tripped = false → s.guardRuns = true → s.sessUp i = true → d < s.part.dies →
    Does (.xsaSet i d x) s fun t => t.regN d Reg.ethSecCtrl = Nat.land x.toNat 0xFFFFFF1F ∧ t.mem = s.mem)

/-- Partitions and contexts. R446, R452, R453, R454, R456. The model's own choices in it: log 43. -/
def Obligations.Partitions : Prop :=
  (∀ (s : State) (d p slice : Nat), DieUp s d → p < 16 → Does (.partitionEnable d p slice) s fun t =>
    t.regN d (Reg.seqPartCfg p) = 1 + 2 * (slice % 2 ^ 16) ∧ t.mem = s.mem ∧
    (s.rbit d (Reg.seqPartCfg p) 0 = false → p < s.part.parts → s.runnable d p 0 = true → t.curCtx d p = 0 ∧ t.rbit d (Reg.seqPartStatus p) 5 = true)) ∧
  (∀ (s : State) (d p : Nat), DieUp s d → p < 16 → s.rbit d (Reg.seqPartCfg p) 0 = true → Does (.partitionDisable d p) s fun t =>
    t.rbit d (Reg.seqPartCfg p) 0 = false ∧ t.rbit d (Reg.seqPartStatus p) 5 = false ∧ t.mem = s.mem ∧
    ∀ w ∈ s.seq.works, w.on = d → w.part = p → w.started = false → w.ended = false → w.entry = none →
      ∃ v, t.work w.id = some v ∧ v.ended = true ∧ v.res.status = 7) ∧
  (∀ (s : State) (d p : Nat) (v : W32) (who : Master), DieUp s d → p < 16 → Master.system who = true →
    (s.maskBad d p (v.toNat % 2 ^ 16) = false → exec (.partMaskWrite d p v who) s = .next (s.setRegN d (Reg.seqPartMask p) (v.toNat % 2 ^ 16))) ∧
    (s.maskBad d p (v.toNat % 2 ^ 16) = true → Does (.partMaskWrite d p v who) s fun t => t.rbit d Reg.seqPartErr p = true ∧
      t.regN d (Reg.seqPartMask p) = s.regN d (Reg.seqPartMask p) ∧ t.mem = s.mem)) ∧
  (∀ (s : State) (d p c ns : Nat), DieUp s d → p < 16 → s.partOn d p = true → s.rbit d (Reg.seqPartStatus p) 4 = true → s.engineBusy d p = false →
    kvFind s.seq.switchTo (16 * d + p) = some c → Does (.contextSwitch d p ns) s fun t => t.curCtx d p = c % 16 ∧
      t.rbit d (Reg.seqPartStatus p) 4 = false ∧ t.rbit d (Reg.seqPartStatus p) 5 = true ∧ t.mem = s.mem ∧
      t.ctr d (Reg.seqSchCntLo p 0) = Nat.min ctrMax (s.ctr d (Reg.seqSchCntLo p 0) + 1) ∧
      t.ctr d (Reg.seqSchCntLo p 2) = Nat.min ctrMax (s.ctr d (Reg.seqSchCntLo p 2) + ns)) ∧
  (∀ (s : State) (d p c : Nat), DieUp s d → p < 16 → s.partOn d p = true → s.sliceOf d p ≠ 0 → s.rbit d (Reg.seqPartStatus p) 4 = false →
    s.rbit d (Reg.seqPartStatus p) 5 = true → s.nextCtx d p = some c → Does (.sliceExpire d p) s fun t => t.rbit d (Reg.seqPartStatus p) 4 = true ∧
      t.curCtx d p = s.curCtx d p ∧ kvFind t.seq.switchTo (16 * d + p) = some c ∧ t.mem = s.mem)

/-- Grants of the weirs. R457, R458, R459. The model's own choices in it: log 44. -/
def Obligations.WeirGrants : Prop :=
  ∀ (s : State) (d path link ns : Nat) (waiting : List WeirReq) (r : WeirReq) (p : Nat), DieUp s d → s.weirRate d path ≠ 0 → (path = 2 → link < 4) →
    let k := if path = 2 then link else 0
    (s.rbit d Reg.weirCtrl path = false → s.weirPick d path k waiting = some r → r.part = some p →
      Does (.weirGrant d path link ns waiting) s fun t => kvGet 15 t.lastGrant (weirKey d path k) = p ∧ t.buckets = s.buckets ∧
        t.ctr d (Reg.weirBytesLo path p) = Nat.min ctrMax (s.ctr d (Reg.weirBytesLo path p) + (r.size + 63) / 64) ∧ t.mem = s.mem ∧ t.regs = s.regs) ∧
    (s.rbit d Reg.weirCtrl path = true → (s.fillWeir d path k ns).weirPick d path k waiting = some r → r.part = some p →
      Does (.weirGrant d path link ns waiting) s fun t =>
        (t.bucket d path k p).guar = ((s.fillWeir d path k ns).bucket d path k p).guar - (r.size * 256 : Nat) ∧
        t.ctr d (Reg.weirBytesLo path p) = Nat.min ctrMax (s.ctr d (Reg.weirBytesLo path p) + (r.size + 63) / 64) ∧ t.regs = s.regs)

/-- Serving streams. R467, R470, R471, R472, R476. The model's own choices in it: log 45. -/
def Obligations.ServingStream : Prop :=
  (∀ (s : State) (p : Nat) (v : W32), s.tripped = false → p < 16 → bit v.toNat 0 = true → s.srvOn p = false →
    (s.srvTotal + s.srvCount p ≤ 16384 → Does (.servingEnable p v) s fun t => t.regN 0 (Reg.seqSrvCtrl p) = v.toNat % 2 ^ 9 ∧
      t.regN 0 (Reg.seqSrvStep p) = 0 ∧ (t.srv p).last = s.srvCount p - 1 ∧ t.mem = s.mem) ∧
    (16384 < s.srvTotal + s.srvCount p → exec (.servingEnable p v) s = .next s)) ∧
  (∀ (s : State) (p : Nat), s.tripped = false → p < 16 → s.srvOn p = true → Does (.servingDisable p) s fun t =>
    t.srvOn p = false ∧ t.srvs = s.srvs ∧ t.mem = s.mem) ∧
  (∀ (s : State) (p : Nat), s.tripped = false → p < 16 → s.srvOn p = true → (s.srv p).inFlight = false → s.serves = true →
    let x := s.scan p ((List.range 64).map s.modelEntry)
    (x.rows = [] → Does (.servingStepBuild p) s fun t => (t.srv p).inFlight = false ∧
      t.ctr 0 (Reg.seqSchCntLo p 5) = Nat.min ctrMax (s.ctr 0 (Reg.seqSchCntLo p 5) + x.wait) ∧ t.regs = s.regs) ∧
    (∀ r, x.rows.getLast? = some r → Does (.servingStepBuild p) s fun t => (t.srv p).inFlight = true ∧ (t.srv p).last = r.i ∧
      (t.srv p).included = x.rows.map (fun r => (r.i, r.model, r.pos)) ∧
      t.ctr 0 (Reg.seqSchCntLo p 4) = Nat.min ctrMax (s.ctr 0 (Reg.seqSchCntLo p 4) + x.rows.length))) ∧
  (∀ (s : State) (p : Nat), s.tripped = false → p < 16 → (s.srv p).inFlight = true → (s.srv p).toCopy = [] → (s.srv p).left = 0 →
    Does (.servingStepComplete p) s fun t => (t.srv p).inFlight = false ∧ (t.srv p).included = [] ∧
      t.regN 0 (Reg.seqSrvStep p) = (s.regN 0 (Reg.seqSrvStep p) + 1) % 2 ^ 32 ∧
      t.ctr 0 (Reg.seqSchCntLo p 3) = Nat.min ctrMax (s.ctr 0 (Reg.seqSchCntLo p 3) + 1))

/-- Completion records, batches of experts and decoded pictures. R157, R159, R160, R410, R430. The model's own choices in it: log 15,
18. -/
def Obligations.Completions : Prop :=
  (∀ (s : State) (id : Nat) (w : Work), s.tripped = false → s.coll id = none → s.work id = some w → s.canComplete w = true →
    (w.again = false → exec (.descriptorComplete id) s =
      .next ((((((((s.retry.writeRec w.ring w.res w.irq).dropWork id).popDone id).groupDone w).entryDone w).batchDone w).servingDone w).leaveIdle w.on w.part)) ∧
    (w.again = true → exec (.descriptorComplete id) s = .next (((s.retry.dropWork id).batchDone w).leaveIdle w.on w.part)) ∧
    (w.again = false → w.grp = false → w.entry = none → s.memWf = true → Does (.descriptorComplete id) s fun t => t.work id = none ∧
      Wrote s t (s.regAddr (ringDie w.ring) (Reg.cqBaseLo (ringNo w.ring)) + 32 * (s.cqTail w.ring % s.cqSize w.ring))
        (w.res.bytes ++ natLe 1 (1 - s.cqTail w.ring / s.cqSize w.ring % 2)) ∧
      t.cqTail w.ring = (s.cqTail w.ring + 1) % 2 ^ 32 ∧
      t.ctr (ringDie w.ring) (Reg.ringCntLo 1) = Nat.min ctrMax (s.ctr (ringDie w.ring) (Reg.ringCntLo 1) + 1) ∧
      t.regN (ringDie w.ring) (Reg.cnvFlags (s.ringPart w.ring)) =
        Nat.lor (s.regN (ringDie w.ring) (Reg.cnvFlags (s.ringPart w.ring))) w.res.flags % 2 ^ 32)) ∧
  (∀ (s : State) (id sl : Nat) (parity : List Nat) (w : Work) (x : Coll), s.tripped = false → s.coll id = some x → s.work id = some w → w.cop = 5 → w.cSlots ≠ 0 →
    sl < 64 → (s.slotEnt w sl).valid = true → sl ∉ x.built → x.open_ = true → 0 < x.total sl → x.slotDone sl = true →
    s.workQueue (s.slotEnt w sl).die + (s.slotEnt w sl).n ≤ 512 → Does (.batchBuild id ⟨sl, parity⟩) s fun t => ∃ y : Batch, t.batches = s.batches ++ [y] ∧
      y.num = s.seq.nextId ∧ y.parity = parity ∧ y.d = (s.slotEnt w sl).die ∧ y.p = w.part ∧ y.ids = (List.range (s.slotEnt w sl).n).map (s.seq.nextId + 1 + ·)) ∧
  (∀ (s : State) (id : Nat) (w : Work), Starts s id (ofKind 0x31) w (decRanges s w) (decCodes s w) → Does (.decode id) s fun t =>
    (∃ v, t.work id = some v ∧ v.ended = true ∧ v.res.status = (s.picture w.dec).status ∧ v.res.detail1 = (s.picture w.dec).err) ∧ RegsBut s t [regKey w.on (Reg.seqPartStatus w.part)] ∧
    t.ctr w.die (Reg.trbCntLo 0) = Nat.min ctrMax (s.ctr w.die (Reg.trbCntLo 0) + (s.picture w.dec).w * (s.picture w.dec).h) ∧
    t.ctr w.die (Reg.trbCntLo 1) = Nat.min ctrMax (s.ctr w.die (Reg.trbCntLo 1) + 1))

/-- Requests through BAR2 by the host and by peers. R481, R482, R496, R497, R500. The model's own choices in it: log 49. -/
def Obligations.BusRequests : Prop :=
  (∀ (s : State) (r : BusReq), AtBar2 s r → (s.peerEntries r.rid) = [] →
    (inHbm s.part.dies r.off r.len = true → s.busMay r → s.memOut r.off r.len = false →
      exec (.bar2Read r) s = .next ((s.access false r.off r.len).emit (.busData r.rid (s.bytes r.off r.len) (s.tagged r.off r.len))) ∧
      (s.memWf = true → Does (.bar2Write r) s fun t => Wrote s t r.off (padTo r.len r.data) ∧ t.regs = s.regs ∧
        t.ctrs = (s.access true r.off r.len).ctrs ∧ t.out = s.out)) ∧
    ((inHbm s.part.dies r.off r.len = false ∨ (r.fn ≠ 0 ∧ (halvesOf s.part.dies r.off r.len).all (fun u => s.ownsHalf 0 (r.fn - 1) u) = false ∧
        s.inShared (r.fn - 1) r.off r.len = false)) →
      exec (.bar2Read r) s = .next ((s.bump 0 (Reg.hstCntLo 6) 1).emit (.busRefused r.rid)) ∧
      exec (.bar2Write r) s = .next (s.bump 0 (Reg.hstCntLo 6) 1)) ∧
    (inHbm s.part.dies r.off r.len = true → r.fn = 0 → s.lockedIn r.off r.len ≠ [] →
      exec (.bar2Read r) s = .next ((s.bump 0 (Reg.hstCntLo 6) 1).emit (.busRefused r.rid)) ∧
      Does (.bar2Write r) s fun t => SameMem s t ∧ t.regs = s.regs ∧ t.out = s.out ∧ (∀ p ∈ s.lockedIn r.off r.len, t.tdi (p + 1) = 3) ∧
        t.ctr 0 (Reg.hstCntLo 7) = Nat.min ctrMax (s.ctr 0 (Reg.hstCntLo 7) + (s.lockedIn r.off r.len).length))) ∧
  (∀ (s : State) (r : BusReq), DieUp s 0 → s.linkUp = true → r.len ≠ 0 → s.peerEntries r.rid ≠ [] →
    (r.bar = 2 → inHbm s.part.dies r.off r.len = true → s.memOut r.off r.len = false →
      (s.peerPasses r false = true →
        exec (.peerRequest r false) s = .next ((s.access false r.off r.len).emit (.busData r.rid (s.bytes r.off r.len) (s.tagged r.off r.len)))) ∧
      (s.peerPasses r true = true → s.memWf = true → Does (.peerRequest r true) s fun t => Wrote s t r.off (padTo r.len r.data) ∧ t.regs = s.regs ∧
        t.out = s.out ∧ t.ctr 0 (Reg.hstCntLo 4) = Nat.min ctrMax (s.ctr 0 (Reg.hstCntLo 4) + (r.len + 63) / 64))) ∧
    (∀ wr, r.bar = 2 → (inHbm s.part.dies r.off r.len = false ∨ s.peerPasses r wr = false) → Does (.peerRequest r wr) s fun t =>
      t.mem = s.mem ∧ t.regs = s.regs ∧ t.out = s.out ++ (if wr then [] else [.busRefused r.rid]) ∧
      t.ctr 0 (Reg.hstCntLo 5) = Nat.min ctrMax (s.ctr 0 (Reg.hstCntLo 5) + 1) ∧ t.ctr 0 (Reg.hstCntLo 6) = Nat.min ctrMax (s.ctr 0 (Reg.hstCntLo 6) + 1)) ∧
    (∀ wr, r.bar ≠ 2 → Does (.peerRequest r wr) s fun t => t.mem = s.mem ∧ t.regs = s.regs ∧
      t.out = s.out ++ (if wr then [] else [.busRefused r.rid]) ∧ t.ctr 0 (Reg.hstCntLo 5) = Nat.min ctrMax (s.ctr 0 (Reg.hstCntLo 5) + 1)))

/-- CXL.mem reads and writes. R490, R491, R492. The model's own choices in it: log 50. -/
def Obligations.CxlRequests : Prop :=
  ∀ (s : State) (dpa : Nat), let a := dpa / 64 * 64; DieUp s 0 → s.memOn = true →
    (inHbm s.part.dies a 64 = true → s.biasReady = true → s.pageShared (a / 4096) = true → s.hst.flip = none → s.memOut a 64 = false →
      exec (.cxlMemRead dpa) s = .next ((s.emit (.cxlData a (s.bytes a 64) (s.tagged a 64))).access false a 64) ∧
      ∀ data, s.memWf = true → Does (.cxlMemWrite dpa data) s fun t => Wrote s t a (padTo 64 data) ∧ t.regs = s.regs ∧
        t.ctrs = (s.access true a 64).ctrs ∧ t.out = s.out) ∧
    (inHbm s.part.dies a 64 = true → s.biasReady = true → s.pageShared (a / 4096) = false → s.memWf = true →
      Does (.cxlMemRead dpa) s fun t => t.pageShared (a / 4096) = true ∧ t.regs = s.regs ∧
        t.ctr 0 (Reg.hstCntLo 0) = Nat.min ctrMax (s.ctr 0 (Reg.hstCntLo 0) + 1)) ∧
    ((inHbm s.part.dies a 64 = false ∨ s.biasReady = false) →
      (Does (.cxlMemRead dpa) s fun t => (∃ bs, bs.length = 64 ∧ t.out = s.out ++ [.cxlData a bs true]) ∧ t.mem = s.mem ∧ t.regs = s.regs ∧
        t.ctr 0 (Reg.hstCntLo 6) = Nat.min ctrMax (s.ctr 0 (Reg.hstCntLo 6) + 1)) ∧
      ∀ data, exec (.cxlMemWrite dpa data) s = .next (s.bump 0 (Reg.hstCntLo 6) 1))

/-- The bias table, its commands and the host's answers. R491, R492, R494. The model's own choices in it: log 50. -/
def Obligations.BiasCommands : Prop :=
  ∀ s : State, let first := s.rf 0 Reg.hstBiasFirst 0 27; let count := s.rf 0 Reg.hstBiasCount 0 27; DieUp s 0 →
    (s.memWf = true → s.rbit 0 Reg.hstCtrl 2 = false → Does .biasEnable s fun t => t.biasReady = true ∧ t.rbit 0 Reg.hstCtrl 2 = true ∧
      (∀ n, n < s.hbmPages → t.pageShared n = false) ∧ (∀ x, x < s.regAddr 0 Reg.hstBiasBaseLo ∨ s.regAddr 0 Reg.hstBiasBaseLo + s.hbmPages / 8 ≤ x →
        t.byte x = s.byte x) ∧ RegsBut s t [regKey 0 Reg.hstCtrl, regKey 0 Reg.hstStatus]) ∧
    (s.rbit 0 Reg.hstBiasStatus 0 = true → exec .biasToShared s = .next s ∧ exec .biasToDevice s = .next s) ∧
    (s.rbit 0 Reg.hstBiasStatus 0 = false → s.hbmPages < first + count →
      exec .biasToShared s = .next (s.setRbit 0 Reg.hstBiasStatus 1 true) ∧ exec .biasToDevice s = .next (s.setRbit 0 Reg.hstBiasStatus 1 true)) ∧
    (s.rbit 0 Reg.hstBiasStatus 0 = false → first + count ≤ s.hbmPages → s.biasReady = true → count ≠ 0 →
      (s.memWf = true → Does .biasToShared s fun t => (∀ n, first ≤ n → n < first + count → t.pageShared n = true) ∧
        (∀ n, n < first ∨ first + count ≤ n → t.pageShared n = s.pageShared n) ∧ t.regs = s.regs ∧ t.ctrs = s.ctrs) ∧
      Does .biasToDevice s fun t => t.hst.flip = some ⟨true, first, count - 1, 0⟩ ∧ t.rbit 0 Reg.hstBiasStatus 0 = true ∧
        t.out = s.out ++ ((List.range 64).map fun i => Output.cacheReq (first * 64 + i) true) ∧ t.mem = s.mem ∧
        RegsBut s t [regKey 0 Reg.hstBiasStatus]) ∧
    (∀ page, s.linkUp = true → page ∈ s.hst.asked → s.hst.flip = none →
      (Does (.cacheAnswer page none) s fun t => page ∉ t.hst.asked ∧ page ∈ t.hst.answered ∧ t.mem = s.mem ∧ t.regs = s.regs) ∧
      ∀ b, s.memWf = true → Does (.cacheAnswer page (some b)) s fun t => Wrote s t (4096 * page) (padTo 4096 b) ∧ page ∉ t.hst.asked ∧
        page ∈ t.hst.answered ∧ t.regs = s.regs) ∧
    (∀ f, s.linkUp = true → s.hst.flip = some f → s.biasReady = true → s.memWf = true → Does (.cacheAnswer f.page none) s fun t =>
      t.pageShared f.page = false ∧ t.ctr 0 (Reg.hstCntLo 1) = Nat.min ctrMax (s.ctr 0 (Reg.hstCntLo 1) + 1) ∧
      (f.left = 0 → t.hst.flip = none ∧ t.rbit 0 Reg.hstBiasStatus 0 = false) ∧
      (f.left ≠ 0 → t.hst.flip = some { f with page := f.page + 1, left := f.left - 1, restarts := 0 }))

/-- The host link and configuration requests. R4, R478, R489, R544. The model's own choices in it: log 5. -/
def Obligations.HostLink : Prop :=
  ∀ s : State, DieUp s 0 →
    (s.rst.host = false → s.hostLost = false → exec .hostLinkTrain s = .next { s with hst := { s.hst with training := true } }) ∧
    (∀ (rate width : Nat) (flit memEn cacheEn : Bool), s.hst.training = true → s.rst.host = false → s.hostLost = false → 1 ≤ rate → rate ≤ 6 →
      width ∈ [1, 2, 4, 8, 16] → (rate = 6 → flit = true) → Does (.hostLinkUp rate width flit memEn cacheEn) s fun t =>
        t.linkUp = true ∧ t.rf 0 Reg.hstStatus 1 3 = rate ∧ t.rf 0 Reg.hstStatus 4 5 = width ∧ t.rbit 0 Reg.hstStatus 9 = flit ∧
        t.rbit 0 Reg.hstStatus 10 = memEn ∧ t.rbit 0 Reg.hstStatus 11 = cacheEn ∧ t.rbit 0 Reg.hstStatus 12 = s.rbit 0 Reg.hstStatus 12 ∧
        t.mem = s.mem ∧ RegsBut s t [regKey 0 Reg.hstStatus]) ∧
    (Does .hostLinkDown s fun t => t.rf 0 Reg.hstStatus 0 12 = 0 ∧ t.hst.asked = [] ∧ t.hst.answered = [] ∧ t.mem = s.mem ∧
      t.rbit 0 Reg.hstStatus 12 = s.rbit 0 Reg.hstStatus 12 ∧ RegsBut s t [regKey 0 Reg.hstStatus]) ∧
    (∀ (fn off : Nat), s.linkUp = true → s.fnOn fn = true → off < 4096 →
      ((s.stage_ < 2 ∨ s.stage_ = 0xF) → ∀ wr, exec (.configRequest fn off wr) s = .next (s.emit (.cfgRetry fn off))) ∧
      (2 ≤ s.stage_ → s.stage_ ≠ 0xF →
        exec (.configRequest fn off none) s = .next (s.emit (.cfgData fn (off / 4 * 4) (BitVec.ofNat 32 (s.cfgRead fn (off / 4 * 4))))) ∧
        ∀ v : W32, (s.cfgTakes fn (off / 4 * 4) v.toNat = false → exec (.configRequest fn off (some v)) s = .next s) ∧
          (s.cfgTakes fn (off / 4 * 4) v.toNat = true → Does (.configRequest fn off (some v)) s fun t => t.mem = s.mem ∧ t.regs = s.regs ∧
            t.hst.cfg = kvSet 0 s.hst.cfg (4096 * fn + off / 4 * 4) (Nat.land v.toNat (s.cfgMask fn (off / 4 * 4))))))

/-- Enabling and disabling rings and event queues. R408, R416, R436, R443. The model's own choices in it: log 43, 61. -/
def Obligations.RingSwitches : Prop :=
  (∀ (s : State) (r : Nat) (cfg : W32), DieUp s (ringDie r) →
    (s.ringOn r = false → Does (.ringEnable r cfg) s fun t => t.ringOn r = true ∧ t.ringPi r = 0 ∧ t.ringCi r = 0 ∧ t.cqHead r = 0 ∧
      t.cqTail r = 0 ∧ t.ringStat r 2 = false ∧ t.ringStat r 3 = false ∧ t.mem = s.mem ∧
      t.ringReg r Reg.ringCfg = fixLog2 (fixLog2 (setBit cfg.toNat 0 true % 2 ^ 22) 12) 17) ∧
    (s.ringOn r = true → exec (.ringEnable r cfg) s = .next s) ∧
    (s.ringOn r = true → Does (.ringDisable r) s fun t => t.ringOn r = false ∧ (∀ x ∈ t.seq.fetched, x.ring ≠ r) ∧ t.seq.works = s.seq.works ∧
      t.mem = s.mem ∧ t.ringPi r = s.ringPi r ∧ t.ringCi r = s.ringCi r ∧ RegsBut s t [regKey (ringDie r) (Reg.ringCfg (ringNo r))]) ∧
    (s.ringOn r = false → exec (.ringDisable r) s = .next s)) ∧
  (∀ (s : State) (p : Nat) (cfg : W32), DieUp s 0 → p < 16 → s.rbit 0 (Reg.evqCfg p) 0 = false → Does (.evqEnable p cfg) s fun t =>
    t.rbit 0 (Reg.evqCfg p) 0 = true ∧ t.regN 0 (Reg.evqHead p) = 0 ∧ t.regN 0 (Reg.evqTail p) = 0 ∧
    t.regN 0 (Reg.evqCfg p) = fixLog2 (setBit cfg.toNat 0 true % 64) 1 ∧ t.mem = s.mem ∧
    RegsBut s t [regKey 0 (Reg.evqCfg p), regKey 0 (Reg.evqHead p), regKey 0 (Reg.evqTail p)])

/-- Power-on, cold reset and the fall of PWRGOOD. R533, R534, R537, R538, R567, R637. The model's own choices in it: log 10, 58. -/
def Obligations.ColdResets : Prop :=
  (∀ (s : State) (c : Instr) (cause : Nat) (straps : W32), (c = .powerOn straps ∧ cause = 0 ∨ s.rst.off = false ∧ c = .coldReset true straps ∧ cause = 1 ∨
      s.rst.off = false ∧ c = .coldReset false straps ∧ cause = 2) → Does c s fun t =>
    t.tripped = false ∧ t.rst.off = false ∧ t.grd.slots = s.grd.slots ∧ t.grd.sticky = s.grd.sticky ∧ t.measLog = MeasLog.reset ∧
    (∀ d, d < s.part.dies → t.inReset d = true ∧ bit (kvGet 0 t.rst.causes d) cause = true ∧
      (s.tripped = true → bit (kvGet 0 t.rst.causes d) 6 = true) ∧ t.regN d Reg.genStraps = straps.toNat % 65536 ∧
      (∀ off, off < 2 ^ 24 → off ≠ Reg.grdFuseSvn → t.ctr d off = 0) ∧
      ∀ off, off < 2 ^ 24 → off ≠ Reg.genStraps → off ≠ Reg.grdFuseSvn → t.reg d off = resetValue s.part d off)) ∧
  (∀ (s : State) (pin : Bool) (straps : W32), s.rst.off = true → exec (.coldReset pin straps) s = .next s) ∧
  (∀ s : State, Does .pwrgoodFall s fun t => t.rst.off = true ∧ t.tripped = false ∧ ∀ d, d < s.part.dies → t.inReset d = true) ∧
  (∀ s : State, s.tripped = false → s.grd.resetReq = none → exec .guardResetDelay s = .next s) ∧
  (∀ (s : State) (d : Nat), s.tripped = false → s.grd.resetReq = some (0, d) → Does .guardResetDelay s fun t =>
    ∀ e, e < s.part.dies → t.inReset e = true ∧ bit (kvGet 0 t.rst.causes e) 2 = true ∧ t.regN e Reg.genStraps = s.regN 0 Reg.genStraps % 65536) ∧
  (∀ s : State, exec .testReset s = .next s)

/-- Warm resets of the package and of a die, and their end. R236, R533, R534, R535, R558, R559. The model's own choices in it: log 57,
58. -/
def Obligations.WarmResets : Prop :=
  (∀ (s : State) (c : Instr) (cause : Nat), s.tripped = false → s.rst.off = false → (c = .warmReset true ∧ cause = 3 ∨ c = .warmReset false ∧ cause = 4 ∨
      c = .guardResetDelay ∧ cause = 4 ∧ ∃ d, s.grd.resetReq = some (1, d)) → Does c s fun t =>
    (∀ d, d < s.part.dies → t.inReset d = true ∧ bit (kvGet 0 t.rst.causes d) cause = true ∧ (∀ off, off < 2 ^ 24 → warmKeeps off = false → t.ctr d off = 0) ∧
      (∀ off, off < 2 ^ 24 → lowReg off = true → t.reg d off = s.reg d off) ∧
      ∀ off, off < 2 ^ 24 → warmKeeps off = false → off ∉ (List.range 4).map Reg.meStatus → off ∉ (List.range 2).map Reg.veStatus →
        t.reg d off = resetValue s.part d off) ∧
    ((∀ d, d < s.part.dies → s.rbit d Reg.hbmCtrl 0 = s.rbit d Reg.hbmStatus 2) → ∀ x, x < hbmSize * s.part.dies → t.byte x = s.byte x)) ∧
  (∀ (s : State) (d : Nat), DieUp s d → s.rst.off = false → (d = 0 ∨ s.part.torusPorts ≤ d ∨ s.portUp d = false) →
    ∀ c : Instr, (c = .dieWarmReset d ∨ c = .guardResetDelay ∧ s.grd.resetReq = some (2, d)) → Does c s fun t => t.inReset d = true ∧
      bit (kvGet 0 t.rst.causes d) 5 = true ∧ (∀ e, e ≠ d → t.inReset e = s.inReset e) ∧
      (∀ e off, e ≠ d → off < 2 ^ 24 → t.reg e off = s.reg e off) ∧
      (s.rbit d Reg.hbmCtrl 0 = s.rbit d Reg.hbmStatus 2 → ∀ x, x < hbmSize * s.part.dies → t.byte x = s.byte x)) ∧
  (∀ s : State, s.rst.off = false → (s.rst.dies.map Prod.fst).Nodup → (s.grd.rwg.map Prod.fst).Nodup →
      (∀ x ∈ s.grd.rwg, x.1 % 2 ^ 24 ≠ Reg.genRstCause ∧ x.1 % 2 ^ 24 ≠ Reg.genWarmCount ∧ x.1 % 2 ^ 24 ≠ Reg.pwrCapEff) → Does .resetEnd s fun t =>
    t.rst = ⟨[], [], false, false⟩ ∧ t.mem = s.mem ∧ ∀ d ∈ s.rst.dies.map Prod.fst,
      t.regN d Reg.genRstCause = kvGet 0 s.rst.causes d % 2 ^ 32 ∧
      t.regN d Reg.genWarmCount = (if kvGet 0 s.rst.causes d % 8 = 0 ∧ kvGet 0 s.rst.causes d ≠ 0 then Nat.min 0xFFFF (s.regN d Reg.genWarmCount + 1)
        else s.regN d Reg.genWarmCount) ∧
      ∀ x ∈ s.grd.rwg, x.1 / 2 ^ 24 = d → kvFind t.regs x.1 = some x.2) ∧
  (∀ s : State, s.rst.off = true → exec .resetEnd s = .next s)

/-- Resets of the host link, of functions and of a guard. R533, R536, R539, R564. The model's own choices in it: log 59, 60. -/
def Obligations.PartialResets : Prop :=
  (∀ s : State, s.tripped = false → Does .hostFundamentalReset s fun t => t.linkUp = false ∧ t.rst.host = true ∧ t.hst.training = false ∧ t.hst.cfg = [] ∧
    t.hst.msix = [] ∧ t.hst.pba = [] ∧ t.hst.ide = [] ∧ t.hst.tdi = [] ∧ t.mem = s.mem ∧ t.seq = s.seq ∧ RegsBut s t [regKey 0 Reg.hstStatus]) ∧
  (∀ s : State, DieUp s 0 → exec .flrPf s = .next { s with hst := { s.hst with msix := [], pba := [], cfg := [] } }) ∧
  (∀ (s : State) (d : Nat), d < s.part.dies → s.inReset d = false → d ≠ 0 → Does (.guardRestart d) s fun t =>
    (∀ off, 0x10000 ≤ off → off < 0x20000 → off ∉ [Reg.grdStatus, Reg.grdFuseSvn, Reg.grdId, Reg.grdMeasCount] → t.reg d off = resetValue s.part d off) ∧
    (∀ e off, off < 2 ^ 24 → (e ≠ d ∨ off < 0x10000 ∨ 0x20000 ≤ off) → t.reg e off = s.reg e off) ∧ t.mem = s.mem ∧ t.grd = s.grd) ∧
  (∀ s : State, s.inReset 0 = false → Does (.guardRestart 0) s fun t => t.grd.upd = none ∧ t.grd.nonce = none ∧ t.grd.resetReq = none ∧ t.grd.sess = [] ∧
    t.grd.spdm = [] ∧ t.grd.slots = s.grd.slots ∧ t.grd.sticky = s.grd.sticky ∧ t.mem = s.mem ∧
    (s.mbSeq = [] → ∀ off, 0x10000 ≤ off → off < 0x20000 → off ∉ [Reg.grdStatus, Reg.grdFuseSvn, Reg.grdId, Reg.grdMeasCount] →
      t.reg 0 off = resetValue s.part 0 off)) ∧
  (∀ (s : State) (fn : Nat), DieUp s 0 → 1 ≤ fn → fn ≤ s.part.parts → Does (.flrVf fn) s fun t =>
    (∀ d, d < s.part.dies → t.rbit d (Reg.seqPartCfg (fn - 1)) 0 = false) ∧ t.rbit 0 (Reg.evqCfg (fn - 1)) 0 = false ∧
    (∀ r, r < s.part.rings → s.ringPart r = fn - 1 → t.ringOn r = false) ∧
    (∀ m, m < 64 → s.mbPart m = fn - 1 → t.rbit 0 (Reg.mbCfg m) 0 = false) ∧
    (∀ x ∈ t.hst.msix, x.1 / 2048 ≠ fn) ∧ (∀ x ∈ t.hst.cfg, x.1 / 4096 ≠ fn) ∧ t.mem = s.mem)

/-- Power sensing, brakes, shares and the cap. R511, R512, R515, R517, R529. The model's own choices in it: log 29, 30, 51, 52. -/
def Obligations.PowerControl : Prop :=
  (∀ (s : State) (d : Nat) (mw : Option Nat), DieUp s d → Does (.sensorRead d mw) s fun t =>
    t.regN d Reg.pwrSense = mw.getD (s.regN d Reg.pwrSense) % 2 ^ 32 ∧
    ((s.cal d).n = 0 → s.onSensor d = false → t = s.setRegN d Reg.pwrSense (mw.getD (s.regN d Reg.pwrSense))) ∧
    ((s.cal d).n ≠ 0 → let c := (s.cal d).fit (mw.getD (s.regN d Reg.pwrSense)) (((s.cal d).sum : Rat) / ((s.cal d).n : Rat))
      t.ctr d (Reg.pwrCntLo 0) = Nat.min ctrMax (s.ctr d (Reg.pwrCntLo 0) + 1) ∧ t.regN d Reg.pwrCalGain = mwOf (c.g * 65536) ∧
      (t.cal d).g = c.g ∧ (t.cal d).o = c.o ∧ (t.cal d).n = 0)) ∧
  (∀ (s : State) (d : Nat) (a : Activity), DieUp s d → let total := sumNat ((List.range 4).map fun e => (a.engines[e]?).getD 0) + a.rest
    Does (.activityWindow d a) s fun t =>
      t.regN d Reg.pwrEst = mwOf ((s.cal d).g * (total : Rat) + (s.cal d).o) ∧ (t.cal d).sum = (s.cal d).sum + total ∧ (t.cal d).n = (s.cal d).n + 1 ∧
      t.mem = s.mem ∧ t.ctrs = s.ctrs ∧
      (s.holding = true → ∀ e, e < 4 → t.regN d (Reg.pwrBrake e) = s.regN d (Reg.pwrBrake e)) ∧
      (s.holding = false → s.rbit d Reg.pwrCtrl 0 = false → ∀ e, e < 4 → t.regN d (Reg.pwrBrake e) = 0) ∧
      (s.holding = false → s.rbit d Reg.pwrCtrl 0 = true → s.onSensor d = false → ∀ e, e < 4 → t.regN d (Reg.pwrBrake e) =
        brakeOf (s.engShare d e) (unbraked ((a.engines[e]?).getD 0) (s.rf d (Reg.pwrBrake e) 0 6) (s.gains d).1))) ∧
  (∀ s : State, DieUp s 0 → Does .capAllocation s fun t => t.mem = s.mem ∧ t.ctrs = s.ctrs ∧ ∀ d x, d ∈ s.powerDies → s.dieShare d = some x →
    let share := x - kvGet 0 s.pwr.level d * (s.fixedOf d + s.dieDemand d) / 16
    t.regN d Reg.pwrShare = share % 2 ^ 32 ∧ ∀ e, e < 4 → s.shareOf d e share ≠ 0 → t.engShare d e = s.shareOf d e share) ∧
  (∀ (s : State) (mw : Nat), DieUp s 0 →
    let excess := 1000 * s.rf 0 Reg.pwrCapEff 0 16 < mw ∧ s.powerDies.all (fun d => (List.range 4).all fun e => s.rf d (Reg.pwrBrake e) 0 6 == 56) = true
    (excess → Does (.capExceeded mw) s fun t => t.rbit 0 Reg.pwrStatus 3 = true ∧
      t.ctr 0 (Reg.pwrCntLo 5) = Nat.min ctrMax (s.ctr 0 (Reg.pwrCntLo 5) + 10) ∧ (0, 0x24) ∈ t.pwr.active) ∧
    (¬ excess → exec (.capExceeded mw) s = .next ((s.setRbit 0 Reg.pwrStatus 3 false).pwrClear 0 0x24)))

/-- Frequency decisions, switches and the cadence mode. R519, R520, R523, R524, R639. The model's own choices in it: log 53. -/
def Obligations.FrequencyChanges : Prop :=
  ∀ s : State, DieUp s 0 → let i := s.freqIdx
    (s.pwr.freqTo = none → exec .freqSwitch s = .next s) ∧
    (∀ j, j < 16 → s.pwr.freqTo = some j → s.pwr.switched = false → (j ≤ i ∨ s.powerDies.all (fun d => s.pwr.reached.contains d) = true) →
      Does .freqSwitch s fun t => t.mem = s.mem ∧ ∀ d, d < s.part.dies → t.rf d Reg.clkStatus 0 4 = j ∧
        t.ctr d (Reg.clkCntLo 2) = Nat.min ctrMax (s.ctr d (Reg.clkCntLo 2) + 1)) ∧
    (s.rbit 0 Reg.clkCtrl 0 = false → s.pwr.freqTo = none → s.holding = false → s.pwr.brakes.2.1 ≠ 0 →
      (8 * s.pwr.brakes.2.1 < s.pwr.brakes.1 → s.rf 0 Reg.clkLimit 0 4 < i → Does .freqDecision s fun t => t.pwr.freqTo = some (i - 1) ∧
        t.pwr.brakes = (0, 0, 0) ∧ t.mem = s.mem ∧ t.freqIdx = i ∧
        ∀ d, d < s.part.dies → t.rbit d Reg.clkStatus 4 = true ∧ t.ctr d (Reg.pwrCntLo 6) = Nat.min ctrMax (s.ctr d (Reg.pwrCntLo 6) + 1)) ∧
      (s.pwr.brakes.1 ≤ 8 * s.pwr.brakes.2.1 → s.pwr.brakes.2.2 = 0 → i < s.rf 0 Reg.clkLimit 4 4 →
        s.estAt i (i + 1) ≤ 950 * (s.rf 0 Reg.pwrCapEff 0 16 : Rat) → Does .freqDecision s fun t => t.pwr.freqTo = some (i + 1) ∧
        t.pwr.brakes = (0, 0, 0) ∧ t.mem = s.mem ∧ t.freqIdx = i ∧ ∀ d, d < s.part.dies → t.rbit d Reg.clkStatus 4 = true)) ∧
    ((s.rbit 0 Reg.clkCtrl 0 = true ∨ s.pwr.freqTo ≠ none ∨ s.holding = true) →
      exec .freqDecision s = .next { s with pwr := { s.pwr with brakes := (0, 0, 0) } }) ∧
    (∀ cause, cause < 4 → (s.cadence = false → exec (.cadenceBroken cause) s = .next s) ∧
      (s.cadence = true → Does (.cadenceBroken cause) s fun t => ∀ d, d < s.part.dies → t.rbit d Reg.clkStatus 6 = true)) ∧
    ((7 < s.rf 0 Reg.clkLimit 0 4 ∨ s.rf 0 Reg.clkLimit 4 4 < 7) → exec (.clkModeWrite true) s = .next (s.clkBit 7 true)) ∧
    (Does (.clkModeWrite false) s fun t => t.regN 0 Reg.clkCtrl = 0 ∧ t.freqIdx = i ∧ t.mem = s.mem ∧
      ∀ d, d < s.part.dies → t.rbit d Reg.clkStatus 6 = false ∧ t.rbit d Reg.clkStatus 7 = false) ∧
    (s.rf 0 Reg.clkLimit 0 4 ≤ 7 → 7 ≤ s.rf 0 Reg.clkLimit 4 4 → i ≠ 7 → s.pwr.freqTo = none → s.holding = false →
      Does (.clkModeWrite true) s fun t => t.regN 0 Reg.clkCtrl = 1 ∧ t.pwr.freqTo = some 7 ∧ t.mem = s.mem) ∧
    (∀ (d j : Nat), DieUp s d →
      (s.pwr.freqTo = none → exec (.vrRdyRise d) s = .next (s.warnOff d 1)) ∧
      (s.pwr.freqTo = some j → i < j → s.pwr.switched = false → Does (.vrRdyRise d) s fun t => d ∈ t.pwr.reached ∧ t.pwr.freqTo = some j ∧ t.mem = s.mem) ∧
      (s.pwr.freqTo = some j → s.pwr.switched = true → s.pwr.freqWant = none → (∀ e ∈ s.powerDies, e ≠ d → e ∈ s.pwr.reached) →
        Does (.vrRdyRise d) s fun t => t.pwr.freqTo = none ∧ t.mem = s.mem ∧ ∀ e, e < s.part.dies → t.rbit e Reg.clkStatus 4 = false))

/-- Regulator warnings and their hold. R522, R639. The model's own choices in it: log 53. -/
def Obligations.RegulatorWarnings : Prop :=
  ∀ (s : State) (d : Nat), DieUp s d →
    (∀ (c : Instr) (src : Nat), (c = .uvwAssert d ∧ src = 0 ∨ s.pwr.freqTo = none ∧ c = .vrRdyFall d ∧ src = 1) → 2 * d + src ∉ s.pwr.warn →
      Does c s fun t => 2 * d + src ∈ t.pwr.warn ∧ t.rbit d Reg.pwrStatus 1 = true ∧
        t.ctr d (Reg.pwrCntLo 2) = Nat.min ctrMax (s.ctr d (Reg.pwrCntLo 2) + 1) ∧
        ∀ e, e < s.part.dies → t.rbit e Reg.clkStatus 5 = true ∧ ∀ k, k < 4 → t.regN e (Reg.pwrBrake k) = 56) ∧
    (∀ j, s.pwr.freqTo = some j → exec (.vrRdyFall d) s = .next s) ∧
    (Does (.uvwClear d) s fun t => 2 * d ∉ t.pwr.warn ∧ (∀ x, x ≠ 2 * d → (x ∈ t.pwr.warn ↔ x ∈ s.pwr.warn)) ∧ t.mem = s.mem ∧
      (2 * d + 1 ∉ s.pwr.warn → t.rbit d Reg.pwrStatus 1 = false) ∧ (2 * d + 1 ∈ s.pwr.warn → t.regs = s.regs)) ∧
    (DieUp s 0 → (s.holding = false ∨ s.pwr.warn ≠ []) → exec .uvwHoldEnd s = .next s) ∧
    (DieUp s 0 → s.holding = true → s.pwr.warn = [] → Does .uvwHoldEnd s fun t => t.pwr.holdAt = none ∧ t.mem = s.mem ∧
      ∀ e, e < s.part.dies → t.rbit e Reg.clkStatus 5 = false ∧ (∀ k, k < 4 → t.regN e (Reg.pwrBrake k) = s.regN e (Reg.pwrBrake k)) ∧
        t.ctr e (Reg.pwrCntLo 3) = Nat.min ctrMax (s.ctr e (Reg.pwrCntLo 3) + (s.refCount - s.pwr.holdAt.getD s.refCount) / 25))

/-- Heat: readings, throttling, the trip and the fan. R526, R527, R528. The model's own choices in it: log 52, 54. -/
def Obligations.Heat : Prop :=
  (∀ (s : State) (d : Nat) (sensors : List Int), DieUp s d → sensors ≠ [] → let ts := sensors.take 4
    let lim : Int := 8 * (s.rf d Reg.thermLimits 0 8 : Nat); let crit : Int := 8 * (s.rf d Reg.thermLimits 8 8 : Nat)
    Does (.thermalRead d sensors) s fun t => t.regN d Reg.thermTemp = twos (hottest ts).2 16 + 65536 * (hottest ts).1 ∧
      ((∃ k x, ts[k]? = some x ∧ crit ≤ x ∧ bit (kvGet 0 s.pwr.hot d) k = true) → t.tripped = true ∧ t.linkUp = false ∧
        t.out = s.out ++ [.pin "FAULT_N" 0 false] ∧ t.mem = s.mem ∧
        ∀ e, e < s.part.dies → t.regN e Reg.clkRunLo = 1 ∧ t.regN e Reg.clkRunHi = 0 ∧ t.portUp e = false) ∧
      ((∀ k x, ts[k]? = some x → crit ≤ x → bit (kvGet 0 s.pwr.hot d) k = false) → t.tripped = false ∧
        t.rbit d Reg.pwrStatus 2 = decide (lim < (hottest ts).2))) ∧
  (∀ (s : State) (d : Nat), DieUp s d → let n := kvGet 0 s.pwr.level d
    (s.rbit d Reg.pwrStatus 2 = true → Does (.throttleStep d) s fun t => kvGet 0 t.pwr.level d = n + 1 ∧
      t.ctr d (Reg.pwrCntLo 4) = Nat.min ctrMax (s.ctr d (Reg.pwrCntLo 4) + 1)) ∧
    (s.rbit d Reg.pwrStatus 2 = false → d ∈ s.pwr.cooling → n ≠ 0 → Does (.throttleStep d) s fun t =>
      t.pwr.level = kvSet 0 s.pwr.level d (n - 1) ∧ t.mem = s.mem ∧ t.ctrs = s.ctrs) ∧
    (s.rbit d Reg.pwrStatus 2 = false → (d ∉ s.pwr.cooling ∨ n = 0) → exec (.throttleStep d) s = .next s)) ∧
  (∀ (s : State) (rpm : Nat),
    (s.rf 0 Reg.fanFailRpm 0 16 ≤ rpm → exec (.fanFail rpm) s = .next s) ∧
    (rpm < s.rf 0 Reg.fanFailRpm 0 16 → Does (.fanFail rpm) s fun t => t.regN 0 Reg.fanStatus = rpm + 65536 ∧
      ((s.rbit 0 Reg.fanCtrl 0 = true → t.fanDuty = some 100))) ∧
    (rpm ≤ s.rf 0 Reg.fanFailRpm 0 16 → exec (.fanRecover rpm) s = .next s) ∧
    (s.rf 0 Reg.fanFailRpm 0 16 < rpm → Does (.fanRecover rpm) s fun t => t.regN 0 Reg.fanStatus = rpm % 65536 ∧ t.mem = s.mem ∧
      RegsBut s t [regKey 0 Reg.fanStatus] ∧ (0, 0x25) ∉ t.pwr.active))

/-- Starting and stopping clock domains. R504, R505, R506, R507. The model's own choices in it: log 69. -/
def Obligations.ClockDomains : Prop :=
  ∀ (s : State) (d dom : Nat), DieUp s d →
    (s.domainThere d dom = false → exec (.domainStart d dom) s = .next s) ∧
    (s.domainThere d dom = true → Does (.domainStart d dom) s fun t => t.domainOn d dom = true ∧ t.mem = s.mem ∧
      (fastDomain dom = true → t.domainOn d 5 = true ∧ t.domainOn d 6 = true ∧ t.domainOn d 7 = true) ∧
      ∀ x, x ≠ dom → ¬ (5 ≤ x ∧ x ≤ 7) → t.domainOn d x = s.domainOn d x) ∧
    (let later := (List.range 44).any fun x => s.domainOn d x && fastDomain x && x != dom && !(5 ≤ x && x ≤ 7 : Bool)
     let stays := dom = 0 ∨ s.domainOn d dom = false ∨ s.rf d Reg.clkIdle 0 16 = 0 ∨ bit (s.regPair d Reg.clkHoldLo) dom = true ∨
       s.domainBusy d dom = true ∨ (5 ≤ dom ∧ dom ≤ 7 ∧ later = true)
     (stays → exec (.domainStop d dom) s = .next s) ∧
     (dom < 64 → ¬ stays → Does (.domainStop d dom) s fun t => t.domainOn d dom = false ∧ (∀ x, x ≠ dom → t.domainOn d x = s.domainOn d x) ∧
       t.ctr d (Reg.clkCntLo 1) = Nat.min ctrMax (s.ctr d (Reg.clkCntLo 1) + 1) ∧ t.mem = s.mem))

/-- Poison, the patrol scrubber, owner searches and row repair. R588, R590, R591, R595, R596. The model's own choices in it: log 47. -/
def Obligations.MemoryFaults : Prop :=
  (∀ (s : State) (line : Nat) (demand : Bool), let d := s.memDie (line * 64); DieUp s d →
    (s.poisoned line = true → exec (.poisonFound line demand) s = .next s) ∧
    (s.poisoned line = false → (inHbm s.part.dies (line * 64) 64 = true ∨ inTs s.part.dies (line * 64) 64 = true) → (s.poison.map Prod.fst).Nodup →
      let i := if inHbm s.part.dies (line * 64) 64 then 1 else 3
      s.ctr d (Reg.rasCntLo i) + 1 < ctrMax → Does (.poisonFound line demand) s fun t => t.poisoned line = true ∧ t.rbit d Reg.rasStatus 1 = true ∧
        t.ras.searches = s.ras.searches ++ [(d, line, demand)] ∧ t.ctr d (Reg.rasCntLo i) = s.ctr d (Reg.rasCntLo i) + 1 ∧ t.mem = s.mem)) ∧
  (∀ (s : State) (d : Nat) (ts : Bool) (n : Nat) (bad : Bool), DieUp s d → let x := kvGet 0 s.ras.scrub (2 * d + b2n ts)
    let skip := if ts then s.fencedRow d (64 * x) 64 else s.unitOut d 0x0E || s.rbit d Reg.hbmStatus 1
    let a := if ts then tsBase + tsStride * d + 64 * x else hbmSize * d + 64 * x
    (s.rbit d Reg.rasCtrl 0 = false → exec (.scrubRead d ts n bad) s = .next s) ∧
    (s.rbit d Reg.rasCtrl 0 = true → s.dieOut d = false →
      (x + 1 < scrubLines ts → Does (.scrubRead d ts n bad) s fun t => kvGet 0 t.ras.scrub (2 * d + b2n ts) = x + 1) ∧
      (scrubLines ts ≤ x + 1 → Does (.scrubRead d ts n bad) s fun t => t.ras.scrub = kvSet 0 s.ras.scrub (2 * d + b2n ts) 0 ∧
        t.rf d Reg.rasScrubPass (if ts then 16 else 0) 16 = Nat.min 0xFFFF (s.rf d Reg.rasScrubPass (if ts then 16 else 0) 16 + 1)) ∧
      (skip = true → Does (.scrubRead d ts n bad) s fun t => t.ctrs = s.ctrs ∧ t.poison = s.poison ∧ t.mem = s.mem) ∧
      (skip = false → bad = false → Does (.scrubRead d ts n bad) s fun t => t.poison = s.poison ∧ t.mem = s.mem ∧
        t.ctr d (Reg.rasCntLo (if ts then 2 else 0)) = Nat.min ctrMax (s.ctr d (Reg.rasCntLo (if ts then 2 else 0)) + n)) ∧
      (skip = false → bad = true → s.poisoned (lineOf a) = false → x < scrubLines ts → Does (.scrubRead d ts n bad) s fun t =>
        t.ras.searches = s.ras.searches ++ [(d, lineOf a, false)]))) ∧
  (∀ (s : State) (d : Nat), DieUp s d →
    ((∀ y ∈ s.ras.searches, y.1 ≠ d) → exec (.ownerSearch d) s = .next s) ∧
    (∀ x, s.ras.searches.find? (fun y => y.1 == d) = some x → Does (.ownerSearch d) s fun t => t.ras.searches = s.ras.searches.erase x ∧
      (s.ownersAt d (x.2.1 * 64) = [] → let i := s.rf d Reg.rasLogHead 0 6
        t.regN d (Reg.rasLog i 0) = s.refCount % 2 ^ 32 ∧ t.regN d (Reg.rasLog i 1) = x.2.1 * 64 % 2 ^ 32 ∧ t.regN d (Reg.rasLog i 3) = 0xFFFFFFFF ∧
        t.regN d Reg.rasLogHead = (i + 1) % 64))) ∧
  (∀ (s : State) (d bank row : Nat), DieUp s d → bank < 32 → row < 2048 → s.dieOut d = false → s.fencedRow d (65536 * row + 512 * bank) 1 = false →
    let left := s.rf d (Reg.rasTsSpares (bank / 8)) (4 * (bank % 8)) 4
    (s.rowNeeds d bank row = false → exec (.rowRepair d bank row) s = .next s) ∧
    (s.rowNeeds d bank row = true → 0 < left → Does (.rowRepair d bank row) s fun t =>
      t.rf d (Reg.rasTsSpares (bank / 8)) (4 * (bank % 8)) 4 = left - 1 ∧ t.ctr d (Reg.rasCntLo 5) = Nat.min ctrMax (s.ctr d (Reg.rasCntLo 5) + 1) ∧
      t.ras.rowErrs = kvSet 0 s.ras.rowErrs (rowKey d bank row) 0 ∧ (1 < left → t.mem = s.mem) ∧ (left = 1 → t.rbit d Reg.rasStatus 0 = true)) ∧
    (∀ i, s.rowNeeds d bank row = true → left = 0 → (List.range 64).find? (fun i => !s.rbit d (Reg.rasTsFenced i) 31) = some i →
      Does (.rowRepair d bank row) s fun t => t.regN d (Reg.rasTsFenced i) = 2 ^ 31 + 2048 * bank + row ∧ t.rbit d Reg.rasStatus 0 = true ∧
        t.fencedRow d (65536 * row + 512 * bank) 1 = true))

/-- Mesh changes and UCIe links. R16, R17, R597, R603, R627. The model's own choices in it: log 46. -/
def Obligations.DieMesh : Prop :=
  (∀ s : State, s.tripped = false →
    (s.ras.views = [] → exec .meshChange s = .next s) ∧
    (∀ v rest, s.ras.views = v :: rest → s.ras.owe ≠ [] → exec .meshChange s = .next s) ∧
    (∀ v rest, s.ras.views = v :: rest → s.ras.owe = [] → v.1.Nodup → Does .meshChange s fun t => t.ras.views = rest ∧ t.ras.view = v ∧ t.ras.owe = v.1 ∧
      ∀ d ∈ v.1, t.regN d Reg.rasEpoch = (s.regN d Reg.rasEpoch + 1) % 2 ^ 32 ∧
        t.rf d Reg.d2dStatus 8 8 = sumNat ((s.part.meshBits v d).1.map fun e => 2 ^ e) % 256 ∧
        t.rf d Reg.d2dStatus 16 8 = sumNat ((s.part.meshBits v d).2.map fun e => 2 ^ e) % 256)) ∧
  (∀ (s : State) (d : Nat), DieUp s d → exec (.meshChangeAck d) s = .next { s with ras := { s.ras with owe := without d s.ras.owe } }) ∧
  (∀ (s : State) (d k e j : Nat), DieUp s d → k < 3 → s.farEnd d k = some (e, j) →
    (∀ c : Instr, (c = .ucieRetrain d (BitVec.ofNat 32 (2 ^ k)) ∨ c = .ucieLinkLost d k) →
      ((s.rbit d Reg.d2dStatus k = false ∨ s.linkFenced d k = true) → exec c s = .next s) ∧
      (s.rbit d Reg.d2dStatus k = true → s.linkFenced d k = false → Does c s fun t => t.mem = s.mem ∧
        t.rf d (Reg.d2dLink k) 8 8 = Nat.min 255 (s.rf d (Reg.d2dLink k) 8 8 + 1) ∧
        t.ctr d (Reg.d2dCntLo (4 * k + 3)) = Nat.min ctrMax (s.ctr d (Reg.d2dCntLo (4 * k + 3)) + 1) ∧
        t.rbit d Reg.d2dStatus k = false ∧ t.rbit d (Reg.d2dLink k) 5 = true ∧ t.rbit e Reg.d2dStatus j = false ∧ t.rbit e (Reg.d2dLink j) 5 = true)) ∧
    (∀ ok, s.rbit d (Reg.d2dLink k) 5 = false → exec (.ucieRetrainEnd d k ok) s = .next s) ∧
    (s.rbit d (Reg.d2dLink k) 5 = true → s.linkFenced d k = false → Does (.ucieRetrainEnd d k true) s fun t => t.mem = s.mem ∧
      t.rbit d Reg.d2dStatus k = true ∧ t.rbit d (Reg.d2dLink k) 5 = false ∧ t.rbit e Reg.d2dStatus j = true ∧ t.rbit e (Reg.d2dLink j) 5 = false) ∧
    (s.rbit d (Reg.d2dLink k) 5 = true → kvGet 0 s.ras.fails (4 * d + k) + 1 < 3 → exec (.ucieRetrainEnd d k false) s =
      .next { s with ras := { s.ras with fails := kvSet 0 s.ras.fails (4 * d + k) (kvGet 0 s.ras.fails (4 * d + k) + 1) } }) ∧
    (s.rbit d (Reg.d2dLink k) 5 = true → 3 ≤ kvGet 0 s.ras.fails (4 * d + k) + 1 → Does (.ucieRetrainEnd d k false) s fun t =>
      t.unitOut d (9 + k) = true ∧ t.unitOut e (9 + j) = true ∧ t.rbit d Reg.d2dStatus k = false ∧ t.rbit e Reg.d2dStatus j = false))

/-- Changes of the torus and packages declared failed. R598, R599, R600, R654. The model's own choices in it: log 48. -/
def Obligations.TorusChanges : Prop :=
  (∀ (s : State) (d : Nat), DieUp s d → d < s.part.torusPorts → s.discValid = true → (s.selfXyz, s.torus.next) ∉ s.torus.seen →
    ((s.selfXyz, d) ∉ s.torus.down → Does (.torusLinkDown d) s fun t => t.portUp d = false ∧ (s.selfXyz, d) ∈ t.torus.down ∧
      t.torus.next = (s.torus.next + 1) % 65536 ∧ (s.selfXyz, s.torus.next) ∈ t.torus.seen) ∧
    ((s.selfXyz, d) ∈ s.torus.down → s.portUp d = false → s.portMayUp d = true → Does (.torusLinkUp d) s fun t => t.portUp d = true ∧
      (s.selfXyz, d) ∉ t.torus.down ∧ t.torus.next = (s.torus.next + 1) % 65536 ∧ (s.selfXyz, s.torus.next) ∈ t.torus.seen)) ∧
  (∀ (s : State) (d : Nat) (f : ChangeFrame), DieUp s d → s.rbit 0 Reg.rasStatus 3 = false → s.dieOut 0 = false →
    let xyz := if f.side then 2 ^ 14 else f.subject
    ((3 ≤ f.kind ∨ (f.origin, f.seq) ∈ s.torus.seen) → ∀ c : Instr, (c = .linkDown d f ∨ c = .linkUp d f ∨ c = .pkgFailed d f) → exec c s = .next (s.takeRx d 0x88B9)) ∧
    (f.kind < 3 → (f.origin, f.seq) ∉ s.torus.seen →
      (Does (.linkDown d f) s fun t => (xyz, f.role) ∈ t.torus.down ∧ (f.origin, f.seq) ∈ t.torus.seen ∧
        ∀ e, e < s.part.dies → s.dieOut e = false → t.regN e Reg.rasEpoch = (s.regN e Reg.rasEpoch + 1) % 2 ^ 32) ∧
      (Does (.linkUp d f) s fun t => (xyz, f.role) ∉ t.torus.down ∧ (f.origin, f.seq) ∈ t.torus.seen ∧
        ∀ e, e < s.part.dies → s.dieOut e = false → t.regN e Reg.rasEpoch = (s.regN e Reg.rasEpoch + 1) % 2 ^ 32) ∧
      (f.serial ≠ s.serial → Does (.pkgFailed d f) s fun t => (xyz, f.serial) ∈ t.torus.failed ∧ (f.origin, f.seq) ∈ t.torus.seen) ∧
      (f.serial = s.serial → Does (.pkgFailed d f) s fun t => t.rbit 0 Reg.rasStatus 3 = true ∧ t.unitOut 0 0x0F = true ∧ t.engs = [] ∧ t.xfers = [] ∧
        t.lists = [] ∧ ∀ e, e < s.part.dies → t.portUp e = false))) ∧
  (∀ (s : State) (hi : W32), DieUp s 0 → (s.selfXyz, s.torus.next) ∉ s.torus.seen → let serial := 2 ^ 32 * hi.toNat + s.regN 0 Reg.rasDeclareLo
    (serial = s.serial → Does (.rasDeclare hi) s fun t => t.rbit 0 Reg.rasStatus 3 = true ∧ t.unitOut 0 0x0F = true ∧
      ∀ e, e < s.part.dies → t.portUp e = false) ∧
    (serial ≠ s.serial → Does (.rasDeclare hi) s fun t =>
      ((match Config.peerXyz serial with | some xyz => xyz % 2 ^ 14 | none => 2 ^ 14), serial) ∈ t.torus.failed))

/-- Fencing units and returning them to service. R130, R229, R592, R594, R602, R603. The model's own choices in it: log 46, 47. -/
def Obligations.Fencing : Prop :=
  (∀ (s : State) (d u cause : Nat), DieUp s d →
    (∀ c : Instr, (c = .unitFence ⟨d, none⟩ u cause ∧ cause ∈ unitCauses u ∨ (∃ v : W32, c = .rasFence ⟨d, none⟩ v ∧ v.toNat % 256 = u ∧ cause = 9) ∨
        c = .progressWatchdog ⟨d, none⟩ u ∧ cause = 3 ∧ u < 9 ∧ ∃ w ∈ s.seq.works, w.on = d ∧ w.engine = some u ∧ w.ended = false) →
      exec c s = .next (s.fence d u cause) ∧
      (s.unitThere d u = true → (s.unitState d u = 0 ∨ s.unitState d u = 2) → let n := Nat.min 15 (s.rf d (Reg.rasUnit u) 2 4 + 1)
        Does c s fun t => t.unitOut d u = true ∧
          (u ≠ 0x0F → t.regN d (Reg.rasUnit u) = ((if 3 ≤ n then 3 else 1) + 4 * n + 256 * cause) % 2 ^ 32 ∧ t.rbit d Reg.rasCapLive u = false ∧
            t.ctr d (Reg.rasCntLo 6) = Nat.min ctrMax (s.ctr d (Reg.rasCntLo 6) + 1)) ∧
          (u = 0x0F → ∀ v, v < 0x0F → s.unitThere d v = true → t.unitOut d v = true)) ∧
      ((s.unitState d u = 1 ∨ s.unitState d u = 3) → exec c s = .next s)) ∧
    (cause ∉ unitCauses u → exec (.unitFence ⟨d, none⟩ u cause) s = .next s) ∧
    (∀ w : RegWrite, (cause ∈ unitCauses u → exec (.unitFence ⟨d, some w⟩ u cause) s = .next (s.afterFence (s.fence d u cause) d w)) ∧
      (∀ v : W32, v.toNat % 256 = u → exec (.rasFence ⟨d, some w⟩ v) s = .next (s.afterFence (s.fence d u 9) d w)) ∧
      (u < 9 → (∃ x ∈ s.seq.works, x.on = d ∧ x.engine = some u ∧ x.ended = false) →
        exec (.progressWatchdog ⟨d, some w⟩ u) s = .next (s.afterFence (s.fence d u 3) d w)) ∧
      (u < 6 → cause ∈ unitCauses u → s.unitOut d u = false → s.contends w = true → regTarget w = (d, engineCtrl u) → w.value.toNat % 2 = 1 →
        s.rbit d (engineCtrl u) 0 = false → Does (.unitFence ⟨d, some w⟩ u cause) s fun t => let i := (t.rf d Reg.grdLostHead 0 5 + 31) % 32
          t.unitOut d u = true ∧ t.rbit d (engineCtrl u) 0 = false ∧ t.regN d (Reg.grdLostLog i 1) = engineCtrl u + 2 ^ 24 ∧
          t.regN d (Reg.grdLostLog i 2) = w.value.toNat))) ∧
  (∀ (s : State) (d u : Nat), DieUp s d → u ≠ 0x0F → s.unitThere d u = true → s.dieOut d = false →
    (∀ c : Instr, ((∃ v : W32, c = .rasReturn d v ∧ v.toNat % 256 = u) ∨ s.rbit d Reg.rasCtrl 1 = true ∧ c = .autoReturnTimer d u) →
      (s.unitState d u ≠ 1 → exec c s = .next s) ∧
      (s.unitState d u = 1 → (u < 9 ∨ 0x0D ≤ u) → Does c s fun t => t.unitState d u = 2 ∧ RegsBut s t [regKey d (Reg.rasUnit u)] ∧ t.mem = s.mem) ∧
      (s.unitState d u = 1 → u = 0x0C → Does c s fun t => (d, u) ∈ t.ras.passed ∧ t.regs = s.regs ∧ t.mem = s.mem) ∧
      (∀ e j, s.unitState d u = 1 → 9 ≤ u → u < 0x0C → s.farEnd d (u - 9) = some (e, j) → Does c s fun t => t.mem = s.mem ∧
        t.rbit d (Reg.d2dLink (u - 9)) 5 = true ∧ t.rbit e (Reg.d2dLink j) 5 = true)) ∧
    (s.rbit d Reg.rasCtrl 1 = false → exec (.autoReturnTimer d u) s = .next s)) ∧
  (∀ (s : State) (d u : Nat), DieUp s d → u ≤ 0x0F →
    (∀ pass, s.unitState d u ≠ 2 → exec (.selfTestEnd d u pass) s = .next s) ∧
    (s.unitState d u = 2 → (Does (.selfTestEnd d u true) s fun t => (d, u) ∈ t.ras.passed ∧ t.regs = s.regs ∧ t.mem = s.mem) ∧
      Does (.selfTestEnd d u false) s fun t => t.unitState d u = 1 ∧ t.ras = s.ras ∧ t.mem = s.mem) ∧
    ((d, u) ∉ s.ras.passed → exec (.serviceEntry d u) s = .next s) ∧
    ((d, u) ∈ s.ras.passed → Does (.serviceEntry d u) s fun t => t.unitState d u = 0 ∧ t.rbit d Reg.rasCapLive u = true ∧ (d, u) ∉ t.ras.passed))

end
end

