-- ==== Sys2Proof/Laws/KeepsBase.lean ====
section
/-! SUPPORT. `Keeps s t` composes, and the few operations that write a field it speaks of keep it: memory, resets of memory, the
measurement log, the sticky log and the sessions. -/

namespace Sys2Proof.Machine

variable {s0 s t : State}

theorem Keeps.rfl' (s : State) : Keeps s s := ⟨rfl, rfl, id⟩

theorem Keeps.trans {u : State} (h : Keeps s t) (g : Keeps t u) : Keeps s u :=
  ⟨g.pending.trans h.pending, g.part.trans h.part, fun i => g.inv (h.inv i)⟩

/-- A state that differs only in fields that `Keeps` does not speak of. -/
theorem Keeps.same (h : Keeps s0 s) (pending : t.pending = s.pending) (part : t.part = s.part) (mem : t.mem = s.mem)
    (wiped : t.wiped = s.wiped) (log : t.measLog.entries = s.measLog.entries) (sticky : t.grd.sticky = s.grd.sticky)
    (sess : t.grd.sess = s.grd.sess) : Keeps s0 t := by
  refine ⟨pending.trans h.pending, part.trans h.part, fun i => ?_⟩
  obtain ⟨hm, hl, hs, hf, hb⟩ := h.inv i
  refine ⟨?_, by rw [log]; exact hl, by rw [sticky]; exact hs, by rw [sess]; exact hf, by rw [sess]; exact hb⟩
  unfold State.memWf at hm ⊢
  rw [mem, State.dflt_congr wiped]
  exact hm

/-- Marks that a state was written as an update of another: `Keeps.same` applies to no plain state. -/
def Moved (_s _t : State) : Prop := True

theorem Moved.refl (s : State) : Moved s s := trivial

theorem Moved.any (s t : State) : Moved s t := trivial

theorem Keeps.upd {s : State} (h : Keeps s0 s)  {poison : List (Nat × Bool)} {regs : List (Nat × W32)} {ctrs : List (Nat × Nat)} {freeCtr : Nat} {refCount : Nat} {out : List Output} {seq : Seq} {groups : List Group} {doms : List Dom} {lists : List PfList} {refetch : List Refetch} {drives : List Drive} {flash : List Host.Cell} {dirty : List Nat} {xfers : List Xfer} {measuring : List Meas} {measLog : MeasLog} {kept : List Kept} {actStale actSum : List (Nat × Nat)} {engs : List Eng} {ves : List Ve} {folds : List Fold} {aq : List AWord} {batches : List Batch} {cnvLast : List (Nat × Nat)} {eths : List Eth} {wires : List Link} {xt : Xt} {torus : Torus} {whl : Whl} {srvs : List Srv} {buckets : List Bucket} {lastGrant : List (Nat × Nat)} {hst : Hst} {mbSeq : List (Nat × Nat × Bool)} {pwr : Pwr} {rst : Rst} {disc : Disc} {grd : Grd} {ras : Ras} {tripped : Bool}
    (log : measLog.entries = s.measLog.entries) (sticky : grd.sticky = s.grd.sticky) (sess : grd.sess = s.grd.sess)
    (_ : Moved s (State.mk s.pending s.part s.mem poison s.wiped regs ctrs freeCtr refCount out seq groups doms lists refetch drives flash dirty xfers measuring measLog kept actStale actSum engs ves folds aq batches cnvLast eths wires xt torus whl srvs buckets lastGrant hst mbSeq pwr rst disc grd ras tripped)) :
    Keeps s0 (State.mk s.pending s.part s.mem poison s.wiped regs ctrs freeCtr refCount out seq groups doms lists refetch drives flash dirty xfers measuring measLog kept actStale actSum engs ves folds aq batches cnvLast eths wires xt torus whl srvs buckets lastGrant hst mbSeq pwr rst disc grd ras tripped) :=
  h.same rfl rfl rfl rfl log sticky sess

theorem Keeps.write (h : Keeps s0 s) (a : Nat) (bs : List Byte) (tag : Bool) : Keeps s0 (s.write a bs tag) := by
  rw [State.write_fields]
  refine ⟨h.pending, h.part, fun i => ?_⟩
  obtain ⟨hm, hl, hs, hf, hb⟩ := h.inv i
  refine ⟨?_, hl, hs, hf, hb⟩
  have := State.write_memWf s hm a bs tag
  rw [State.write_fields] at this
  exact this

theorem Keeps.foldl {α : Type} {f : State → α → State} (hf : ∀ s x, Keeps s0 s → Keeps s0 (f s x)) (l : List α) (h : Keeps s0 s) :
    Keeps s0 (l.foldl f s) := by
  induction l generalizing s with
  | nil => exact h
  | cons x l ih => exact ih (hf s x h)

theorem Keeps.ite {c : Prop} [Decidable c] {a b : State} (ha : Keeps s0 a) (hb : Keeps s0 b) : Keeps s0 (if c then a else b) := by
  split
  · exact ha
  · exact hb

theorem Keeps.foldlFst {α β : Type} {f : State × β → α → State × β} (hf : ∀ x a, Keeps s0 x.1 → Keeps s0 (f x a).1) (l : List α)
    {x : State × β} (h : Keeps s0 x.1) : Keeps s0 (l.foldl f x).1 := by
  induction l generalizing x with
  | nil => exact h
  | cons a l ih => exact ih (hf x a h)

theorem Keeps.foldlSnd {α β : Type} {f : β × State → α → β × State} (hf : ∀ x a, Keeps s0 x.2 → Keeps s0 (f x a).2) (l : List α)
    {x : β × State} (h : Keeps s0 x.2) : Keeps s0 (l.foldl f x).2 := by
  induction l generalizing x with
  | nil => exact h
  | cons a l ih => exact ih (hf x a h)

theorem Keeps.eachDie {f : State → Nat → State} (hf : ∀ s x, Keeps s0 s → Keeps s0 (f s x)) (h : Keeps s0 s) :
    Keeps s0 (s.eachDie f) := Keeps.foldl hf _ h

theorem Keeps.snd {α : Type} {p : α × State} {a : α} (e : p = (a, t)) (h : Keeps s0 p.2) : Keeps s0 t := by
  rw [e] at h
  exact h

theorem Keeps.fst {α : Type} {p : State × α} {a : α} (e : p = (t, a)) (h : Keeps s0 p.1) : Keeps s0 t := by
  rw [e] at h
  exact h

/-- Dropping cells, with a reset's mark or a zeroed overlay where they were, keeps the invariant. -/
theorem Keeps.drop (h : Keeps s0 s) (p : Host.Cell → Bool) (pending : t.pending = s.pending) (part : t.part = s.part)
    (mem : t.mem = s.mem.filter p) (dflt : ∀ c, p c = true → t.dflt c.1 = s.dflt c.1)
    (log : t.measLog.entries = s.measLog.entries) (sticky : t.grd.sticky = s.grd.sticky)
    (sess : t.grd.sess = s.grd.sess) : Keeps s0 t := by
  refine ⟨pending.trans h.pending, part.trans h.part, fun i => ?_⟩
  obtain ⟨hm, hl, hs, hf, hb⟩ := h.inv i
  refine ⟨?_, by rw [log]; exact hl, by rw [sticky]; exact hs, by rw [sess]; exact hf, by rw [sess]; exact hb⟩
  unfold State.memWf at hm ⊢
  rw [mem]
  exact wf_filter p hm fun c _ hc => dflt c hc

theorem find?_filter_of_imp {α : Type} {p q : α → Bool} (l : List α) (h : ∀ x ∈ l, p x = true → q x = true) :
    (l.filter q).find? p = l.find? p := by
  induction l with
  | nil => rfl
  | cons x l ih =>
    have ih := ih fun y hy => h y (by simp [hy])
    simp only [List.filter, List.find?]
    by_cases hq : q x = true
    · simp only [hq, List.find?]
      cases hp : p x with
      | true => rfl
      | false => simpa using ih
    · have hq' : q x = false := by simpa using hq
      simp only [hq']
      cases hp : p x with
      | true => exact absurd (h x (by simp) hp) hq
      | false => simpa using ih

theorem State.wipe_keeps {s0 : State} (s : State) (a len : Nat) (h : Keeps s0 s) : Keeps s0 (s.wipe a len) := by
  unfold State.wipe State.fresh
  refine Keeps.drop h _ rfl rfl rfl (fun c hc => ?_) rfl rfl rfl
  have hc : c.1 < a ∨ a + len ≤ c.1 := by simpa using hc
  have e : ∀ w : Nat × Nat × Option Nat, (decide (w.1 ≤ c.1) && decide (c.1 < w.1 + w.2.1)) = true →
      (decide (w.1 < a) || decide (a + len < w.1 + w.2.1)) = true := by
    intro w hw
    simp only [Bool.and_eq_true, Bool.or_eq_true, decide_eq_true_eq] at hw ⊢
    omega
  unfold State.dflt State.wipedAt
  simp only [List.find?]
  have hn : (decide (a ≤ c.1) && decide (c.1 < a + len)) = false := by
    simp only [Bool.and_eq_false_iff, decide_eq_false_iff_not]
    omega
  rw [hn, find?_filter_of_imp _ fun w _ => e w]

/-- Keeping the last `n` of a list. -/
theorem drop_tail_length {α : Type} (n : Nat) (l : List α) : (l.drop (l.length - n)).length ≤ n := by
  rw [List.length_drop]
  omega

/-- Whatever state a command answers with is kept from `s0`. -/
structure KeepsRes (s0 : State) (r : Res) : Prop where
  keeps : ∀ t, r = .next t → Keeps s0 t

theorem KeepsRes.next (h : Keeps s0 s) : KeepsRes s0 (.next s) :=
  ⟨fun t e => by cases e; exact h⟩

theorem Keeps.sticky {s0 s : State} (hk : Keeps s0 s) (l : List (List Byte)) (h : l.length ≤ 1024) :
    Keeps s0 { s with grd := { s.grd with sticky := l } } :=
  ⟨hk.pending, hk.part, fun i => ⟨(hk.inv i).memory, (hk.inv i).log, h, (hk.inv i).fresh, (hk.inv i).small⟩⟩

theorem keeps_some {s0 t : State} (h : Keeps s0 t) : ∀ u, some t = some u → Keeps s0 u := fun _ e => Option.some.inj e ▸ h

theorem keeps_none {s0 : State} : ∀ u, (none : Option State) = some u → Keeps s0 u := fun _ e => nomatch e

theorem keeps_optIte {s0 : State} {c : Prop} [Decidable c] {a b : Option State} (ha : ∀ u, a = some u → Keeps s0 u)
    (hb : ∀ u, b = some u → Keeps s0 u) : ∀ u, (if c then a else b) = some u → Keeps s0 u := by
  split
  · exact ha
  · exact hb

theorem sess_filter_inv (s : State) (h : s.Inv) (p : Sess → Bool) :
    ((s.grd.sess.filter p).map fun x => x.id).Nodup ∧ ∀ x ∈ s.grd.sess.filter p, x.id < 4 :=
  ⟨h.fresh.sublist (List.Sublist.map _ List.filter_sublist), fun x hx => h.small x (List.mem_filter.mp hx).1⟩

end Sys2Proof.Machine
end

