-- ==== Sys2Proof/Laws/KeepsOps.lean ====
section
/-! SUPPORT. What the operations of Machine/Ops.lean keep: the queue, the part and the invariant. -/

namespace Sys2Proof.Machine

theorem live_keeps {s0 : State} (s t : State) (h : Keeps s0 s) (g : Keeps s0 t) : KeepsRes s0 (live s t) := by
  unfold live
  split
  · exact KeepsRes.next h
  · exact KeepsRes.next g

theorem onIsland_keeps {s0 : State} (s : State) (d : Nat) (t : State) (h : Keeps s0 s) (g : Keeps s0 t) : KeepsRes s0 (onIsland s d t) :=
  KeepsRes.next (Keeps.ite g h)

theorem onDie_keeps {s0 : State} (s : State) (d : Nat) (t : State) (h : Keeps s0 s) (g : Keeps s0 t) : KeepsRes s0 (onDie s d t) :=
  onIsland_keeps s d _ h (Keeps.ite h g)

theorem State.setReg_keeps {s0 : State} (s : State) (d off : Nat) (v : W32) (hk_s : Keeps s0 s) : Keeps s0 (State.setReg s d off v) := by
  unfold State.setReg
  (try dsimp only [State.fresh, State.freeVal])
  repeat' (first | with_reducible assumption | intro _ | (with_reducible refine Keeps.ite ?_ ?_) | split | (with_reducible refine Keeps.upd ?_ rfl rfl rfl ?_; rotate_left; (fail_if_success with_reducible exact Moved.refl _); exact Moved.any _ _) | dsimp only)

theorem State.setRegN_keeps {s0 : State} (s : State) (d off v : Nat) (hk_s : Keeps s0 s) : Keeps s0 (State.setRegN s d off v) := by
  unfold State.setRegN
  (try dsimp only [State.fresh, State.freeVal])
  repeat' (first | with_reducible assumption | with_reducible apply State.setReg_keeps | intro _ | (with_reducible refine Keeps.ite ?_ ?_) | split | (with_reducible refine Keeps.upd ?_ rfl rfl rfl ?_; rotate_left; (fail_if_success with_reducible exact Moved.refl _); exact Moved.any _ _) | dsimp only)

theorem State.setRf_keeps {s0 : State} (s : State) (d off lo len v : Nat) (hk_s : Keeps s0 s) : Keeps s0 (State.setRf s d off lo len v) := by
  unfold State.setRf
  (try dsimp only [State.fresh, State.freeVal])
  repeat' (first | with_reducible assumption | with_reducible apply State.setRegN_keeps | intro _ | (with_reducible refine Keeps.ite ?_ ?_) | split | (with_reducible refine Keeps.upd ?_ rfl rfl rfl ?_; rotate_left; (fail_if_success with_reducible exact Moved.refl _); exact Moved.any _ _) | dsimp only)

theorem State.setRbit_keeps {s0 : State} (s : State) (d off i : Nat) (b : Bool) (hk_s : Keeps s0 s) : Keeps s0 (State.setRbit s d off i b) := by
  unfold State.setRbit
  (try dsimp only [State.fresh, State.freeVal])
  repeat' (first | with_reducible assumption | with_reducible apply State.setRf_keeps | intro _ | (with_reducible refine Keeps.ite ?_ ?_) | split | (with_reducible refine Keeps.upd ?_ rfl rfl rfl ?_; rotate_left; (fail_if_success with_reducible exact Moved.refl _); exact Moved.any _ _) | dsimp only)

theorem State.setRegPair_keeps {s0 : State} (s : State) (d off v : Nat) (hk_s : Keeps s0 s) : Keeps s0 (State.setRegPair s d off v) := by
  unfold State.setRegPair
  (try dsimp only [State.fresh, State.freeVal])
  repeat' (first | with_reducible assumption | with_reducible apply State.setRegN_keeps | intro _ | (with_reducible refine Keeps.ite ?_ ?_) | split | (with_reducible refine Keeps.upd ?_ rfl rfl rfl ?_; rotate_left; (fail_if_success with_reducible exact Moved.refl _); exact Moved.any _ _) | dsimp only)


theorem State.setCtr_keeps {s0 : State} (s : State) (d off v : Nat) (hk_s : Keeps s0 s) : Keeps s0 (State.setCtr s d off v) := by
  unfold State.setCtr
  (try dsimp only [State.fresh, State.freeVal])
  repeat' (first | with_reducible assumption | intro _ | (with_reducible refine Keeps.ite ?_ ?_) | split | (with_reducible refine Keeps.upd ?_ rfl rfl rfl ?_; rotate_left; (fail_if_success with_reducible exact Moved.refl _); exact Moved.any _ _) | dsimp only)

theorem State.bump_keeps {s0 : State} (s : State) (d off n : Nat) (hk_s : Keeps s0 s) : Keeps s0 (State.bump s d off n) := by
  unfold State.bump
  (try dsimp only [State.fresh, State.freeVal])
  repeat' (first | with_reducible assumption | with_reducible apply State.setCtr_keeps | intro _ | (with_reducible refine Keeps.ite ?_ ?_) | split | (with_reducible refine Keeps.upd ?_ rfl rfl rfl ?_; rotate_left; (fail_if_success with_reducible exact Moved.refl _); exact Moved.any _ _) | dsimp only)

theorem State.fresh_keeps {s0 : State} (s : State) (hk_s : Keeps s0 s) : Keeps s0 (State.fresh s).2 := by
  unfold State.fresh
  (try dsimp only [State.fresh, State.freeVal])
  repeat' (first | with_reducible assumption | intro _ | (with_reducible refine Keeps.ite ?_ ?_) | split | (with_reducible refine Keeps.upd ?_ rfl rfl rfl ?_; rotate_left; (fail_if_success with_reducible exact Moved.refl _); exact Moved.any _ _) | dsimp only)

theorem State.freeVal_keeps {s0 : State} (s : State) (w : Nat) (hk_s : Keeps s0 s) : Keeps s0 (State.freeVal s w).2 := by
  unfold State.freeVal
  (try dsimp only [State.fresh, State.freeVal])
  repeat' (first | with_reducible assumption | intro _ | (with_reducible refine Keeps.ite ?_ ?_) | split | (with_reducible refine Keeps.upd ?_ rfl rfl rfl ?_; rotate_left; (fail_if_success with_reducible exact Moved.refl _); exact Moved.any _ _) | dsimp only)

theorem State.bumpFree_keeps {s0 : State} (s : State) (d off : Nat) (hk_s : Keeps s0 s) : Keeps s0 (State.bumpFree s d off) := by
  unfold State.bumpFree
  (try dsimp only [State.fresh, State.freeVal])
  repeat' (first | with_reducible assumption | with_reducible apply State.bump_keeps | with_reducible apply State.freeVal_keeps | intro _ | (with_reducible refine Keeps.ite ?_ ?_) | split | (with_reducible refine Keeps.upd ?_ rfl rfl rfl ?_; rotate_left; (fail_if_success with_reducible exact Moved.refl _); exact Moved.any _ _) | dsimp only)

theorem State.tick_keeps {s0 : State} (s : State) (hk_s : Keeps s0 s) : Keeps s0 (State.tick s) := by
  unfold State.tick
  (try dsimp only [State.fresh, State.freeVal])
  repeat' (first | with_reducible assumption | intro _ | (with_reducible refine Keeps.ite ?_ ?_) | split | (with_reducible refine Keeps.upd ?_ rfl rfl rfl ?_; rotate_left; (fail_if_success with_reducible exact Moved.refl _); exact Moved.any _ _) | dsimp only)

theorem State.emit_keeps {s0 : State} (s : State) (o : Output) (hk_s : Keeps s0 s) : Keeps s0 (State.emit s o) := by
  unfold State.emit
  (try dsimp only [State.fresh, State.freeVal])
  repeat' (first | with_reducible assumption | intro _ | (with_reducible refine Keeps.ite ?_ ?_) | split | (with_reducible refine Keeps.upd ?_ rfl rfl rfl ?_; rotate_left; (fail_if_success with_reducible exact Moved.refl _); exact Moved.any _ _) | dsimp only)

theorem State.setAlert_keeps {s0 : State} (s : State) (i : Nat) (b : Bool) (hk_s : Keeps s0 s) : Keeps s0 (State.setAlert s i b) := by
  unfold State.setAlert
  (try dsimp only [State.fresh, State.freeVal])
  repeat' (first | with_reducible assumption | with_reducible apply State.setRbit_keeps | with_reducible apply State.emit_keeps | intro _ | (with_reducible refine Keeps.ite ?_ ?_) | split | (with_reducible refine Keeps.upd ?_ rfl rfl rfl ?_; rotate_left; (fail_if_success with_reducible exact Moved.refl _); exact Moved.any _ _) | dsimp only)


theorem State.markLine_keeps {s0 : State} (s : State) (line : Nat) (b : Bool) (hk_s : Keeps s0 s) : Keeps s0 (State.markLine s line b) := by
  unfold State.markLine
  (try dsimp only [State.fresh, State.freeVal])
  repeat' (first | with_reducible assumption | intro _ | (with_reducible refine Keeps.ite ?_ ?_) | split | (with_reducible refine Keeps.upd ?_ rfl rfl rfl ?_; rotate_left; (fail_if_success with_reducible exact Moved.refl _); exact Moved.any _ _) | dsimp only)


theorem State.writeN_keeps {s0 : State} (s : State) (a len v : Nat) (hk_s : Keeps s0 s) : Keeps s0 (State.writeN s a len v) := by
  unfold State.writeN
  (try dsimp only [State.fresh, State.freeVal])
  repeat' (first | with_reducible assumption | with_reducible apply State.write_keeps | with_reducible apply Keeps.write | intro _ | (with_reducible refine Keeps.ite ?_ ?_) | split | (with_reducible refine Keeps.upd ?_ rfl rfl rfl ?_; rotate_left; (fail_if_success with_reducible exact Moved.refl _); exact Moved.any _ _) | dsimp only)

theorem State.scramble_keeps {s0 : State} (s : State) (a len : Nat) (hk_s : Keeps s0 s) : Keeps s0 (State.scramble s a len) := by
  unfold State.scramble
  (try dsimp only [State.fresh, State.freeVal])
  repeat' (first | with_reducible assumption | with_reducible apply State.fresh_keeps | with_reducible apply State.write_keeps | with_reducible apply Keeps.write | intro _ | (with_reducible refine Keeps.ite ?_ ?_) | split | (with_reducible refine Keeps.snd ‹_› ?_) | (with_reducible refine Keeps.fst ‹_› ?_) | (with_reducible refine Keeps.upd ?_ rfl rfl rfl ?_; rotate_left; (fail_if_success with_reducible exact Moved.refl _); exact Moved.any _ _) | dsimp only)

theorem State.access_keeps {s0 : State} (s : State) (wr : Bool) (a len : Nat) (hk_s : Keeps s0 s) : Keeps s0 (State.access s wr a len) := by
  unfold State.access
  (try dsimp only [State.fresh, State.freeVal])
  repeat' (first | with_reducible assumption | with_reducible apply State.bump_keeps | with_reducible apply State.bumpFree_keeps | with_reducible apply Keeps.foldl | with_reducible apply Keeps.foldlFst | with_reducible apply Keeps.foldlSnd | intro _ | (with_reducible refine Keeps.ite ?_ ?_) | split | (with_reducible refine Keeps.upd ?_ rfl rfl rfl ?_; rotate_left; (fail_if_success with_reducible exact Moved.refl _); exact Moved.any _ _) | dsimp only)

theorem State.touch_keeps {s0 : State} (s : State) (wr : Bool) (a len : Nat) (hk_s : Keeps s0 s) : Keeps s0 (State.touch s wr a len) := by
  unfold State.touch
  (try dsimp only [State.fresh, State.freeVal])
  repeat' (first | with_reducible assumption | with_reducible apply State.bumpFree_keeps | with_reducible apply Keeps.foldl | with_reducible apply Keeps.foldlFst | with_reducible apply Keeps.foldlSnd | intro _ | (with_reducible refine Keeps.ite ?_ ?_) | split | (with_reducible refine Keeps.upd ?_ rfl rfl rfl ?_; rotate_left; (fail_if_success with_reducible exact Moved.refl _); exact Moved.any _ _) | dsimp only)

theorem State.sendVector_keeps {s0 : State} (s : State) (fn v : Nat) (hk_s : Keeps s0 s) : Keeps s0 (State.sendVector s fn v) := by
  unfold State.sendVector
  (try dsimp only [State.fresh, State.freeVal])
  repeat' (first | with_reducible assumption | with_reducible apply State.emit_keeps | intro _ | (with_reducible refine Keeps.ite ?_ ?_) | split | (with_reducible refine Keeps.upd ?_ rfl rfl rfl ?_; rotate_left; (fail_if_success with_reducible exact Moved.refl _); exact Moved.any _ _) | dsimp only)

theorem State.interrupt_keeps {s0 : State} (s : State) (p v : Nat) (hk_s : Keeps s0 s) : Keeps s0 (State.interrupt s p v) := by
  unfold State.interrupt
  (try dsimp only [State.fresh, State.freeVal])
  repeat' (first | with_reducible assumption | with_reducible apply State.sendVector_keeps | intro _ | (with_reducible refine Keeps.ite ?_ ?_) | split | (with_reducible refine Keeps.upd ?_ rfl rfl rfl ?_; rotate_left; (fail_if_success with_reducible exact Moved.refl _); exact Moved.any _ _) | dsimp only)

theorem State.hostReq_keeps {s0 : State} (s : State) (p : Option Nat) (wr data : Bool) (a len : Nat) (hk_s : Keeps s0 s) : Keeps s0 (State.hostReq s p wr data a len) := by
  unfold State.hostReq
  (try dsimp only [State.fresh, State.freeVal])
  repeat' (first | with_reducible assumption | with_reducible apply State.emit_keeps | intro _ | (with_reducible refine Keeps.ite ?_ ?_) | split | (with_reducible refine Keeps.snd ‹_› ?_) | (with_reducible refine Keeps.fst ‹_› ?_) | (with_reducible refine Keeps.upd ?_ rfl rfl rfl ?_; rotate_left; (fail_if_success with_reducible exact Moved.refl _); exact Moved.any _ _) | dsimp only)

theorem State.reach_keeps {s0 : State} (s : State) (p : Nat) (wr : Bool) (a len : Nat) (hk_s : Keeps s0 s) : Keeps s0 (State.reach s p wr a len) := by
  unfold State.reach
  (try dsimp only [State.fresh, State.freeVal])
  repeat' (first | with_reducible assumption | with_reducible apply State.access_keeps | with_reducible apply State.hostReq_keeps | intro _ | (with_reducible refine Keeps.ite ?_ ?_) | split | (with_reducible refine Keeps.upd ?_ rfl rfl rfl ?_; rotate_left; (fail_if_success with_reducible exact Moved.refl _); exact Moved.any _ _) | dsimp only)

theorem State.evqWrite_keeps {s0 : State} (s : State) (p code d src : Nat) (payload : List Byte) (hk_s : Keeps s0 s) : Keeps s0 (State.evqWrite s p code d src payload) := by
  unfold State.evqWrite
  (try dsimp only [State.fresh, State.freeVal])
  repeat' (first | with_reducible assumption | with_reducible apply State.setRegN_keeps | with_reducible apply State.bump_keeps | with_reducible apply State.write_keeps | with_reducible apply State.access_keeps | with_reducible apply State.interrupt_keeps | with_reducible apply State.hostReq_keeps | with_reducible apply Keeps.write | intro _ | (with_reducible refine Keeps.ite ?_ ?_) | split | (with_reducible refine Keeps.upd ?_ rfl rfl rfl ?_; rotate_left; (fail_if_success with_reducible exact Moved.refl _); exact Moved.any _ _) | dsimp only)

theorem State.event_keeps {s0 : State} (s : State) (p code d src : Nat) (payload : List Byte) (hk_s : Keeps s0 s) : Keeps s0 (State.event s p code d src payload) := by
  unfold State.event
  (try dsimp only [State.fresh, State.freeVal])
  repeat' (first | with_reducible assumption | with_reducible apply State.bump_keeps | with_reducible apply State.evqWrite_keeps | intro _ | (with_reducible refine Keeps.ite ?_ ?_) | split | (with_reducible refine Keeps.upd ?_ rfl rfl rfl ?_; rotate_left; (fail_if_success with_reducible exact Moved.refl _); exact Moved.any _ _) | dsimp only)

theorem State.eventAll_keeps {s0 : State} (s : State) (code d src : Nat) (payload : List Byte) (hk_s : Keeps s0 s) : Keeps s0 (State.eventAll s code d src payload) := by
  unfold State.eventAll
  (try dsimp only [State.fresh, State.freeVal])
  repeat' (first | with_reducible assumption | with_reducible apply State.event_keeps | with_reducible apply Keeps.foldl | with_reducible apply Keeps.foldlFst | with_reducible apply Keeps.foldlSnd | intro _ | (with_reducible refine Keeps.ite ?_ ?_) | split | (with_reducible refine Keeps.upd ?_ rfl rfl rfl ?_; rotate_left; (fail_if_success with_reducible exact Moved.refl _); exact Moved.any _ _) | dsimp only)

theorem State.satEvent_keeps {s0 : State} (s : State) (p d off i : Nat) (hk_s : Keeps s0 s) : Keeps s0 (State.satEvent s p d off i) := by
  unfold State.satEvent
  (try dsimp only [State.fresh, State.freeVal])
  repeat' (first | with_reducible assumption | with_reducible apply State.event_keeps | intro _ | (with_reducible refine Keeps.ite ?_ ?_) | split | (with_reducible refine Keeps.upd ?_ rfl rfl rfl ?_; rotate_left; (fail_if_success with_reducible exact Moved.refl _); exact Moved.any _ _) | dsimp only)

theorem State.saturated_keeps {s0 : State} (s : State) (d off i : Nat) (hk_s : Keeps s0 s) : Keeps s0 (State.saturated s d off i) := by
  unfold State.saturated
  (try dsimp only [State.fresh, State.freeVal])
  repeat' (first | with_reducible assumption | with_reducible apply State.satEvent_keeps | with_reducible apply Keeps.foldl | with_reducible apply Keeps.foldlFst | with_reducible apply Keeps.foldlSnd | intro _ | (with_reducible refine Keeps.ite ?_ ?_) | split | (with_reducible refine Keeps.upd ?_ rfl rfl rfl ?_; rotate_left; (fail_if_success with_reducible exact Moved.refl _); exact Moved.any _ _) | dsimp only)

theorem State.bumpErr_keeps {s0 : State} (s : State) (d off i n : Nat) (hk_s : Keeps s0 s) : Keeps s0 (State.bumpErr s d off i n) := by
  unfold State.bumpErr
  (try dsimp only [State.fresh, State.freeVal])
  repeat' (first | with_reducible assumption | with_reducible apply State.bump_keeps | with_reducible apply State.saturated_keeps | intro _ | (with_reducible refine Keeps.ite ?_ ?_) | split | (with_reducible refine Keeps.upd ?_ rfl rfl rfl ?_; rotate_left; (fail_if_success with_reducible exact Moved.refl _); exact Moved.any _ _) | dsimp only)

theorem State.degrade_keeps {s0 : State} (s : State) (d res b6 b7 : Nat) (hk_s : Keeps s0 s) : Keeps s0 (State.degrade s d res b6 b7) := by
  unfold State.degrade
  (try dsimp only [State.fresh, State.freeVal])
  repeat' (first | with_reducible assumption | with_reducible apply State.setRbit_keeps | with_reducible apply State.event_keeps | with_reducible apply State.eventAll_keeps | intro _ | (with_reducible refine Keeps.ite ?_ ?_) | split | (with_reducible refine Keeps.upd ?_ rfl rfl rfl ?_; rotate_left; (fail_if_success with_reducible exact Moved.refl _); exact Moved.any _ _) | dsimp only)

theorem State.setRing_keeps {s0 : State} (s : State) (r : Nat) (f : Nat → Nat) (v : Nat) (hk_s : Keeps s0 s) : Keeps s0 (State.setRing s r f v) := by
  unfold State.setRing
  (try dsimp only [State.fresh, State.freeVal])
  repeat' (first | with_reducible assumption | with_reducible apply State.setRegN_keeps | intro _ | (with_reducible refine Keeps.ite ?_ ?_) | split | (with_reducible refine Keeps.upd ?_ rfl rfl rfl ?_; rotate_left; (fail_if_success with_reducible exact Moved.refl _); exact Moved.any _ _) | dsimp only)

theorem State.setRingStat_keeps {s0 : State} (s : State) (r i : Nat) (b : Bool) (hk_s : Keeps s0 s) : Keeps s0 (State.setRingStat s r i b) := by
  unfold State.setRingStat
  (try dsimp only [State.fresh, State.freeVal])
  repeat' (first | with_reducible assumption | with_reducible apply State.setRbit_keeps | intro _ | (with_reducible refine Keeps.ite ?_ ?_) | split | (with_reducible refine Keeps.upd ?_ rfl rfl rfl ?_; rotate_left; (fail_if_success with_reducible exact Moved.refl _); exact Moved.any _ _) | dsimp only)

theorem State.writeRec_keeps {s0 : State} (s : State) (r : Nat) (c : Rec) (irq : Bool) (hk_s : Keeps s0 s) : Keeps s0 (State.writeRec s r c irq) := by
  unfold State.writeRec
  (try dsimp only [State.fresh, State.freeVal])
  repeat' (first | with_reducible assumption | with_reducible apply State.setRegN_keeps | with_reducible apply State.bump_keeps | with_reducible apply State.write_keeps | with_reducible apply State.access_keeps | with_reducible apply State.interrupt_keeps | with_reducible apply State.hostReq_keeps | with_reducible apply State.setRing_keeps | with_reducible apply Keeps.write | intro _ | (with_reducible refine Keeps.ite ?_ ?_) | split | (with_reducible refine Keeps.upd ?_ rfl rfl rfl ?_; rotate_left; (fail_if_success with_reducible exact Moved.refl _); exact Moved.any _ _) | dsimp only)

theorem State.setWork_keeps {s0 : State} (s : State) (w : Work) (hk_s : Keeps s0 s) : Keeps s0 (State.setWork s w) := by
  unfold State.setWork
  (try dsimp only [State.fresh, State.freeVal])
  repeat' (first | with_reducible assumption | intro _ | (with_reducible refine Keeps.ite ?_ ?_) | split | (with_reducible refine Keeps.upd ?_ rfl rfl rfl ?_; rotate_left; (fail_if_success with_reducible exact Moved.refl _); exact Moved.any _ _) | dsimp only)

theorem State.modWork_keeps {s0 : State} (s : State) (id : Nat) (f : Work → Work) (hk_s : Keeps s0 s) : Keeps s0 (State.modWork s id f) := by
  unfold State.modWork
  (try dsimp only [State.fresh, State.freeVal])
  repeat' (first | with_reducible assumption | intro _ | (with_reducible refine Keeps.ite ?_ ?_) | split | (with_reducible refine Keeps.upd ?_ rfl rfl rfl ?_; rotate_left; (fail_if_success with_reducible exact Moved.refl _); exact Moved.any _ _) | dsimp only)

theorem State.dropWork_keeps {s0 : State} (s : State) (id : Nat) (hk_s : Keeps s0 s) : Keeps s0 (State.dropWork s id) := by
  unfold State.dropWork
  (try dsimp only [State.fresh, State.freeVal])
  repeat' (first | with_reducible assumption | intro _ | (with_reducible refine Keeps.ite ?_ ?_) | split | (with_reducible refine Keeps.upd ?_ rfl rfl rfl ?_; rotate_left; (fail_if_success with_reducible exact Moved.refl _); exact Moved.any _ _) | dsimp only)

theorem State.endWork_keeps {s0 : State} (s : State) (id : Nat) (c : Rec → Rec) (hk_s : Keeps s0 s) : Keeps s0 (State.endWork s id c) := by
  unfold State.endWork
  (try dsimp only [State.fresh, State.freeVal])
  repeat' (first | with_reducible assumption | with_reducible apply State.modWork_keeps | intro _ | (with_reducible refine Keeps.ite ?_ ?_) | split | (with_reducible refine Keeps.upd ?_ rfl rfl rfl ?_; rotate_left; (fail_if_success with_reducible exact Moved.refl _); exact Moved.any _ _) | dsimp only)

theorem State.endStatus_keeps {s0 : State} (s : State) (id status : Nat) (hk_s : Keeps s0 s) : Keeps s0 (State.endStatus s id status) := by
  unfold State.endStatus
  (try dsimp only [State.fresh, State.freeVal])
  repeat' (first | with_reducible assumption | with_reducible apply State.endWork_keeps | intro _ | (with_reducible refine Keeps.ite ?_ ?_) | split | (with_reducible refine Keeps.upd ?_ rfl rfl rfl ?_; rotate_left; (fail_if_success with_reducible exact Moved.refl _); exact Moved.any _ _) | dsimp only)

end Sys2Proof.Machine
end

