-- ==== Sys2Proof/Laws/KeepsContend.lean ====
section
/-! SUPPORT. What the operations of Machine/Contend.lean keep: the queue, the part and the invariant. -/

namespace Sys2Proof.Machine

theorem State.lostWrite_keeps {s0 : State} (s : State) (d target reason value : Nat) (loser winner : Master) (hk_s : Keeps s0 s) : Keeps s0 (State.lostWrite s d target reason value loser winner) := by
  unfold State.lostWrite
  (try dsimp only [State.fresh, State.freeVal])
  repeat' (first | with_reducible assumption | with_reducible apply State.setRegN_keeps | with_reducible apply State.bump_keeps | intro _ | (with_reducible refine Keeps.ite ?_ ?_) | split | (with_reducible refine Keeps.upd ?_ rfl rfl rfl ?_; rotate_left; (fail_if_success with_reducible exact Moved.refl _); exact Moved.any _ _) | dsimp only)

end Sys2Proof.Machine
end

