-- ==== Sys2Proof/Laws/KeepsRings.lean ====
section
/-! SUPPORT. What the operations of Machine/Rings.lean keep: the queue, the part and the invariant. -/

namespace Sys2Proof.Machine

theorem State.setPartStatus_keeps {s0 : State} (s : State) (d p ctx : Nat) (switching running : Bool) (hk_s : Keeps s0 s) : Keeps s0 (State.setPartStatus s d p ctx switching running) := by
  unfold State.setPartStatus
  (try dsimp only [State.fresh, State.freeVal])
  repeat' (first | with_reducible assumption | with_reducible apply State.setRegN_keeps | intro _ | (with_reducible refine Keeps.ite ?_ ?_) | split | (with_reducible refine Keeps.upd ?_ rfl rfl rfl ?_; rotate_left; (fail_if_success with_reducible exact Moved.refl _); exact Moved.any _ _) | dsimp only)

theorem State.beginSwitch_keeps {s0 : State} (s : State) (d p c : Nat) (hk_s : Keeps s0 s) : Keeps s0 (State.beginSwitch s d p c) := by
  unfold State.beginSwitch
  (try dsimp only [State.fresh, State.freeVal])
  repeat' (first | with_reducible assumption | with_reducible apply State.setPartStatus_keeps | intro _ | (with_reducible refine Keeps.ite ?_ ?_) | split | (with_reducible refine Keeps.upd ?_ rfl rfl rfl ?_; rotate_left; (fail_if_success with_reducible exact Moved.refl _); exact Moved.any _ _) | dsimp only)

theorem State.leaveIdle_keeps {s0 : State} (s : State) (d p : Nat) (hk_s : Keeps s0 s) : Keeps s0 (State.leaveIdle s d p) := by
  unfold State.leaveIdle
  (try dsimp only [State.fresh, State.freeVal])
  repeat' (first | with_reducible assumption | with_reducible apply State.setPartStatus_keeps | with_reducible apply State.beginSwitch_keeps | intro _ | (with_reducible refine Keeps.ite ?_ ?_) | split | (with_reducible refine Keeps.snd ‹_› ?_) | (with_reducible refine Keeps.fst ‹_› ?_) | (with_reducible refine Keeps.upd ?_ rfl rfl rfl ?_; rotate_left; (fail_if_success with_reducible exact Moved.refl _); exact Moved.any _ _) | dsimp only)

theorem State.doorbellEvent_keeps {s0 : State} (s : State) (r value cause : Nat) (hk_s : Keeps s0 s) : Keeps s0 (State.doorbellEvent s r value cause) := by
  unfold State.doorbellEvent
  (try dsimp only [State.fresh, State.freeVal])
  repeat' (first | with_reducible assumption | with_reducible apply State.event_keeps | intro _ | (with_reducible refine Keeps.ite ?_ ?_) | split | (with_reducible refine Keeps.upd ?_ rfl rfl rfl ?_; rotate_left; (fail_if_success with_reducible exact Moved.refl _); exact Moved.any _ _) | dsimp only)

theorem State.rejectBell_keeps {s0 : State} (s : State) (r value cause : Nat) (hk_s : Keeps s0 s) : Keeps s0 (State.rejectBell s r value cause) := by
  unfold State.rejectBell
  (try dsimp only [State.fresh, State.freeVal])
  repeat' (first | with_reducible assumption | with_reducible apply State.bump_keeps | with_reducible apply State.setRingStat_keeps | with_reducible apply State.doorbellEvent_keeps | intro _ | (with_reducible refine Keeps.ite ?_ ?_) | split | (with_reducible refine Keeps.upd ?_ rfl rfl rfl ?_; rotate_left; (fail_if_success with_reducible exact Moved.refl _); exact Moved.any _ _) | dsimp only)

theorem State.takenBell_keeps {s0 : State} (s : State) (r : Nat) (hk_s : Keeps s0 s) : Keeps s0 (State.takenBell s r) := by
  unfold State.takenBell
  (try dsimp only [State.fresh, State.freeVal])
  repeat' (first | with_reducible assumption | with_reducible apply State.bump_keeps | intro _ | (with_reducible refine Keeps.ite ?_ ?_) | split | (with_reducible refine Keeps.upd ?_ rfl rfl rfl ?_; rotate_left; (fail_if_success with_reducible exact Moved.refl _); exact Moved.any _ _) | dsimp only)

theorem State.bellPi_keeps {s0 : State} (s : State) (r value : Nat) (m : Master) (hk_s : Keeps s0 s) : Keeps s0 (State.bellPi s r value m) := by
  unfold State.bellPi
  (try dsimp only [State.fresh, State.freeVal])
  repeat' (first | with_reducible assumption | with_reducible apply State.bump_keeps | with_reducible apply State.setRing_keeps | with_reducible apply State.leaveIdle_keeps | with_reducible apply State.doorbellEvent_keeps | with_reducible apply State.rejectBell_keeps | with_reducible apply State.takenBell_keeps | intro _ | (with_reducible refine Keeps.ite ?_ ?_) | split | (with_reducible refine Keeps.upd ?_ rfl rfl rfl ?_; rotate_left; (fail_if_success with_reducible exact Moved.refl _); exact Moved.any _ _) | dsimp only)

theorem State.bellCq_keeps {s0 : State} (s : State) (r value : Nat) (hk_s : Keeps s0 s) : Keeps s0 (State.bellCq s r value) := by
  unfold State.bellCq
  (try dsimp only [State.fresh, State.freeVal])
  repeat' (first | with_reducible assumption | with_reducible apply State.setRing_keeps | with_reducible apply State.rejectBell_keeps | with_reducible apply State.takenBell_keeps | intro _ | (with_reducible refine Keeps.ite ?_ ?_) | split | (with_reducible refine Keeps.upd ?_ rfl rfl rfl ?_; rotate_left; (fail_if_success with_reducible exact Moved.refl _); exact Moved.any _ _) | dsimp only)

theorem State.postOverflow_keeps {s0 : State} (s : State) (p d : Nat) (hk_s : Keeps s0 s) : Keeps s0 (State.postOverflow s p d) := by
  unfold State.postOverflow
  (try dsimp only [State.fresh, State.freeVal])
  repeat' (first | with_reducible assumption | with_reducible apply State.evqWrite_keeps | intro _ | (with_reducible refine Keeps.ite ?_ ?_) | split | (with_reducible refine Keeps.upd ?_ rfl rfl rfl ?_; rotate_left; (fail_if_success with_reducible exact Moved.refl _); exact Moved.any _ _) | dsimp only)

theorem State.bellEvq_keeps {s0 : State} (s : State) (r value : Nat) (hk_s : Keeps s0 s) : Keeps s0 (State.bellEvq s r value) := by
  unfold State.bellEvq
  (try dsimp only [State.fresh, State.freeVal])
  repeat' (first | with_reducible assumption | with_reducible apply State.setRegN_keeps | with_reducible apply State.rejectBell_keeps | with_reducible apply State.takenBell_keeps | with_reducible apply State.postOverflow_keeps | intro _ | (with_reducible refine Keeps.ite ?_ ?_) | split | (with_reducible refine Keeps.upd ?_ rfl rfl rfl ?_; rotate_left; (fail_if_success with_reducible exact Moved.refl _); exact Moved.any _ _) | dsimp only)

theorem State.barRefuse_keeps {s0 : State} (s : State) (hk_s : Keeps s0 s) : Keeps s0 (State.barRefuse s) := by
  unfold State.barRefuse
  (try dsimp only [State.fresh, State.freeVal])
  repeat' (first | with_reducible assumption | with_reducible apply State.bump_keeps | intro _ | (with_reducible refine Keeps.ite ?_ ?_) | split | (with_reducible refine Keeps.upd ?_ rfl rfl rfl ?_; rotate_left; (fail_if_success with_reducible exact Moved.refl _); exact Moved.any _ _) | dsimp only)

theorem State.bell1_keeps {s0 : State} (s : State) (r : Nat) (b : Bell) (act : State → Nat → Master → State) (hk_s : Keeps s0 s) (hk_act : ∀ y0 y1 y2, Keeps s0 y0 → Keeps s0 (act y0 y1 y2)) : Keeps s0 (State.bell1 s r b act) := by
  unfold State.bell1
  (try dsimp only [State.fresh, State.freeVal])
  repeat' (first | with_reducible assumption | with_reducible apply hk_act | with_reducible apply State.barRefuse_keeps | intro _ | (with_reducible refine Keeps.ite ?_ ?_) | split | (with_reducible refine Keeps.upd ?_ rfl rfl rfl ?_; rotate_left; (fail_if_success with_reducible exact Moved.refl _); exact Moved.any _ _) | dsimp only)

theorem State.bellLost_keeps {s0 : State} (s : State) (r loc reason : Nat) (loser : Bell) (winner : Master) (hk_s : Keeps s0 s) : Keeps s0 (State.bellLost s r loc reason loser winner) := by
  unfold State.bellLost
  (try dsimp only [State.fresh, State.freeVal])
  repeat' (first | with_reducible assumption | with_reducible apply State.bump_keeps | with_reducible apply State.lostWrite_keeps | with_reducible apply State.doorbellEvent_keeps | intro _ | (with_reducible refine Keeps.ite ?_ ?_) | split | (with_reducible refine Keeps.upd ?_ rfl rfl rfl ?_; rotate_left; (fail_if_success with_reducible exact Moved.refl _); exact Moved.any _ _) | dsimp only)

theorem State.bell_keeps {s0 : State} (s : State) (r loc : Nat) (b : Bell) (rival : Option Bell) (act : State → Nat → Master → State) (hk_s : Keeps s0 s) (hk_act : ∀ y0 y1 y2, Keeps s0 y0 → Keeps s0 (act y0 y1 y2)) : Keeps s0 (State.bell s r loc b rival act) := by
  unfold State.bell
  (try dsimp only [State.fresh, State.freeVal])
  repeat' (first | with_reducible assumption | with_reducible apply hk_act | with_reducible apply State.bell1_keeps | with_reducible apply State.bellLost_keeps | intro _ | (with_reducible refine Keeps.ite ?_ ?_) | split | (with_reducible refine Keeps.snd ‹_› ?_) | (with_reducible refine Keeps.fst ‹_› ?_) | (with_reducible refine Keeps.upd ?_ rfl rfl rfl ?_; rotate_left; (fail_if_success with_reducible exact Moved.refl _); exact Moved.any _ _) | dsimp only)

theorem execDoorbellPi_keeps {s0 : State} (ring : Nat) (b : Bell) (rival : Option Bell) (s : State) (hk_s : Keeps s0 s) : KeepsRes s0 (execDoorbellPi ring b rival s) := by
  unfold execDoorbellPi
  (try dsimp only [State.fresh, State.freeVal])
  repeat' (first | with_reducible assumption | with_reducible apply live_keeps | with_reducible apply State.bellPi_keeps | with_reducible apply State.bell_keeps | intro _ | (with_reducible refine Keeps.ite ?_ ?_) | split | (with_reducible refine KeepsRes.next ?_) | (with_reducible refine Keeps.upd ?_ rfl rfl rfl ?_; rotate_left; (fail_if_success with_reducible exact Moved.refl _); exact Moved.any _ _) | dsimp only)

theorem execDoorbellCqHead_keeps {s0 : State} (ring : Nat) (b : Bell) (rival : Option Bell) (s : State) (hk_s : Keeps s0 s) : KeepsRes s0 (execDoorbellCqHead ring b rival s) := by
  unfold execDoorbellCqHead
  (try dsimp only [State.fresh, State.freeVal])
  repeat' (first | with_reducible assumption | with_reducible apply live_keeps | with_reducible apply State.bellCq_keeps | with_reducible apply State.bell_keeps | intro _ | (with_reducible refine Keeps.ite ?_ ?_) | split | (with_reducible refine KeepsRes.next ?_) | (with_reducible refine Keeps.upd ?_ rfl rfl rfl ?_; rotate_left; (fail_if_success with_reducible exact Moved.refl _); exact Moved.any _ _) | dsimp only)

theorem execDoorbellEvqHead_keeps {s0 : State} (ring : Nat) (b : Bell) (rival : Option Bell) (s : State) (hk_s : Keeps s0 s) : KeepsRes s0 (execDoorbellEvqHead ring b rival s) := by
  unfold execDoorbellEvqHead
  (try dsimp only [State.fresh, State.freeVal])
  repeat' (first | with_reducible assumption | with_reducible apply live_keeps | with_reducible apply State.bellEvq_keeps | with_reducible apply State.bell_keeps | intro _ | (with_reducible refine Keeps.ite ?_ ?_) | split | (with_reducible refine KeepsRes.next ?_) | (with_reducible refine Keeps.upd ?_ rfl rfl rfl ?_; rotate_left; (fail_if_success with_reducible exact Moved.refl _); exact Moved.any _ _) | dsimp only)

theorem State.fetchSlots_keeps {s0 : State} (r : Nat) (n : Nat) (s : State) (hk_s : Keeps s0 s) : Keeps s0 (State.fetchSlots r n s) := by
  induction n generalizing s with
  | zero =>
    unfold State.fetchSlots
    (try dsimp only)
    repeat' (first | with_reducible assumption | with_reducible apply State.access_keeps | with_reducible apply State.hostReq_keeps | with_reducible apply State.event_keeps | with_reducible apply State.setRingStat_keeps | intro _ | (with_reducible refine Keeps.ite ?_ ?_) | split | (with_reducible refine Keeps.upd ?_ rfl rfl rfl ?_; rotate_left; (fail_if_success with_reducible exact Moved.refl _); exact Moved.any _ _) | dsimp only)
  | succ n ih =>
    unfold State.fetchSlots
    (try dsimp only [State.fresh, State.freeVal])
    repeat' (first | with_reducible assumption | with_reducible apply ih | with_reducible apply State.access_keeps | with_reducible apply State.hostReq_keeps | with_reducible apply State.event_keeps | with_reducible apply State.setRingStat_keeps | intro _ | (with_reducible refine Keeps.ite ?_ ?_) | split | (with_reducible refine Keeps.upd ?_ rfl rfl rfl ?_; rotate_left; (fail_if_success with_reducible exact Moved.refl _); exact Moved.any _ _) | dsimp only)

theorem execDescriptorFetch_keeps {s0 : State} (ring n : Nat) (s : State) (hk_s : Keeps s0 s) : KeepsRes s0 (execDescriptorFetch ring n s) := by
  unfold execDescriptorFetch
  (try dsimp only [State.fresh, State.freeVal])
  repeat' (first | with_reducible assumption | with_reducible apply live_keeps | with_reducible apply State.fetchSlots_keeps | intro _ | (with_reducible refine Keeps.ite ?_ ?_) | split | (with_reducible refine KeepsRes.next ?_) | (with_reducible refine Keeps.upd ?_ rfl rfl rfl ?_; rotate_left; (fail_if_success with_reducible exact Moved.refl _); exact Moved.any _ _) | dsimp only)

theorem State.markGroupWait_keeps {s0 : State} (s : State) (d : Nat) (hk_s : Keeps s0 s) : Keeps s0 (State.markGroupWait s d) := by
  unfold State.markGroupWait
  (try dsimp only [State.fresh, State.freeVal])
  repeat' (first | with_reducible assumption | with_reducible apply State.setRingStat_keeps | with_reducible apply Keeps.foldl | with_reducible apply Keeps.foldlFst | with_reducible apply Keeps.foldlSnd | intro _ | (with_reducible refine Keeps.ite ?_ ?_) | split | (with_reducible refine Keeps.snd ‹_› ?_) | (with_reducible refine Keeps.fst ‹_› ?_) | (with_reducible refine Keeps.upd ?_ rfl rfl rfl ?_; rotate_left; (fail_if_success with_reducible exact Moved.refl _); exact Moved.any _ _) | dsimp only)

theorem State.joinGroup_keeps {s0 : State} (s : State) (p : Nat) (bytes : List Byte) (hk_s : Keeps s0 s) : Keeps s0 (State.joinGroup s p bytes) := by
  unfold State.joinGroup
  (try dsimp only [State.fresh, State.freeVal])
  repeat' (first | with_reducible assumption | intro _ | (with_reducible refine Keeps.ite ?_ ?_) | split | (with_reducible refine Keeps.snd ‹_› ?_) | (with_reducible refine Keeps.fst ‹_› ?_) | (with_reducible refine Keeps.upd ?_ rfl rfl rfl ?_; rotate_left; (fail_if_success with_reducible exact Moved.refl _); exact Moved.any _ _) | dsimp only)

theorem State.acceptSlot_keeps {s0 : State} (s : State) (x : Slot) (hk_s : Keeps s0 s) : Keeps s0 (State.acceptSlot s x) := by
  unfold State.acceptSlot
  (try dsimp only [State.fresh, State.freeVal])
  repeat' (first | with_reducible assumption | with_reducible apply State.bump_keeps | with_reducible apply State.setRing_keeps | with_reducible apply State.joinGroup_keeps | intro _ | (with_reducible refine Keeps.ite ?_ ?_) | split | (with_reducible refine Keeps.upd ?_ rfl rfl rfl ?_; rotate_left; (fail_if_success with_reducible exact Moved.refl _); exact Moved.any _ _) | dsimp only)

theorem State.acceptNext_keeps {s0 : State} (s : State) (d : Nat) (hk_s : Keeps s0 s) : Keeps s0 (State.acceptNext s d) := by
  unfold State.acceptNext
  (try dsimp only [State.fresh, State.freeVal])
  repeat' (first | with_reducible assumption | with_reducible apply State.markGroupWait_keeps | with_reducible apply State.acceptSlot_keeps | intro _ | (with_reducible refine Keeps.ite ?_ ?_) | split | (with_reducible refine Keeps.snd ‹_› ?_) | (with_reducible refine Keeps.fst ‹_› ?_) | (with_reducible refine Keeps.upd ?_ rfl rfl rfl ?_; rotate_left; (fail_if_success with_reducible exact Moved.refl _); exact Moved.any _ _) | dsimp only)

theorem State.setAside_keeps {s0 : State} (s : State) (w : Work) (hk_s : Keeps s0 s) : Keeps s0 (State.setAside s w) := by
  unfold State.setAside
  (try dsimp only [State.fresh, State.freeVal])
  repeat' (first | with_reducible assumption | with_reducible apply State.setWork_keeps | intro _ | (with_reducible refine Keeps.ite ?_ ?_) | split | (with_reducible refine Keeps.upd ?_ rfl rfl rfl ?_; rotate_left; (fail_if_success with_reducible exact Moved.refl _); exact Moved.any _ _) | dsimp only)

theorem State.retry_keeps {s0 : State} (s : State) (hk_s : Keeps s0 s) : Keeps s0 (State.retry s) := by
  unfold State.retry
  (try dsimp only [State.fresh, State.freeVal])
  repeat' (first | with_reducible assumption | intro _ | (with_reducible refine Keeps.ite ?_ ?_) | split | (with_reducible refine Keeps.upd ?_ rfl rfl rfl ?_; rotate_left; (fail_if_success with_reducible exact Moved.refl _); exact Moved.any _ _) | dsimp only)

theorem State.roundKey_keeps {s0 : State} (s : State) (d p : Nat) (det : Bool) (hk_s : Keeps s0 s) : Keeps s0 (State.roundKey s d p det).2 := by
  unfold State.roundKey
  (try dsimp only [State.fresh, State.freeVal])
  repeat' (first | with_reducible assumption | with_reducible apply State.freeVal_keeps | intro _ | (with_reducible refine Keeps.ite ?_ ?_) | split | (with_reducible refine Keeps.upd ?_ rfl rfl rfl ?_; rotate_left; (fail_if_success with_reducible exact Moved.refl _); exact Moved.any _ _) | dsimp only)

theorem State.latch_keeps {s0 : State} (s : State) (w : Work) (hk_s : Keeps s0 s) : Keeps s0 (State.latch s w).1 := by
  unfold State.latch
  (try dsimp only [State.fresh, State.freeVal])
  repeat' (first | with_reducible assumption | with_reducible apply State.setWork_keeps | with_reducible apply State.roundKey_keeps | intro _ | (with_reducible refine Keeps.ite ?_ ?_) | split | (with_reducible refine Keeps.snd ‹_› ?_) | (with_reducible refine Keeps.fst ‹_› ?_) | (with_reducible refine Keeps.upd ?_ rfl rfl rfl ?_; rotate_left; (fail_if_success with_reducible exact Moved.refl _); exact Moved.any _ _) | dsimp only)

theorem State.accessRefused_keeps {s0 : State} (s : State) (w : Work) (hk_s : Keeps s0 s) : Keeps s0 (State.accessRefused s w) := by
  unfold State.accessRefused
  (try dsimp only [State.fresh, State.freeVal])
  repeat' (first | with_reducible assumption | with_reducible apply State.bump_keeps | intro _ | (with_reducible refine Keeps.ite ?_ ?_) | split | (with_reducible refine Keeps.upd ?_ rfl rfl rfl ?_; rotate_left; (fail_if_success with_reducible exact Moved.refl _); exact Moved.any _ _) | dsimp only)

theorem State.refuse_keeps {s0 : State} (s : State) (w : Work) (code : Nat) (counts : Bool) (hk_s : Keeps s0 s) : Keeps s0 (State.refuse s w code counts) := by
  unfold State.refuse
  (try dsimp only [State.fresh, State.freeVal])
  repeat' (first | with_reducible assumption | with_reducible apply State.bump_keeps | with_reducible apply State.endStatus_keeps | with_reducible apply State.accessRefused_keeps | intro _ | (with_reducible refine Keeps.ite ?_ ?_) | split | (with_reducible refine Keeps.upd ?_ rfl rfl rfl ?_; rotate_left; (fail_if_success with_reducible exact Moved.refl _); exact Moved.any _ _) | dsimp only)

theorem execMsixUnmask_keeps {s0 : State} (fn vector : Nat) (s : State) (hk_s : Keeps s0 s) : KeepsRes s0 (execMsixUnmask fn vector s) := by
  unfold execMsixUnmask
  (try dsimp only [State.fresh, State.freeVal])
  repeat' (first | with_reducible assumption | with_reducible apply live_keeps | with_reducible apply State.sendVector_keeps | intro _ | (with_reducible refine Keeps.ite ?_ ?_) | split | (with_reducible refine KeepsRes.next ?_) | (with_reducible refine Keeps.upd ?_ rfl rfl rfl ?_; rotate_left; (fail_if_success with_reducible exact Moved.refl _); exact Moved.any _ _) | dsimp only)

end Sys2Proof.Machine
end

