-- ==== Sys2Proof/Laws/KeepsEthernet.lean ====
section
/-! SUPPORT. What the operations of Machine/Ethernet.lean keep: the queue, the part and the invariant. -/

namespace Sys2Proof.Machine

theorem State.modEth_keeps {s0 : State} (s : State) (d : Nat) (f : Eth → Eth) (hk_s : Keeps s0 s) : Keeps s0 (State.modEth s d f) := by
  unfold State.modEth
  (try dsimp only [State.fresh, State.freeVal])
  repeat' (first | with_reducible assumption | intro _ | (with_reducible refine Keeps.ite ?_ ?_) | split | (with_reducible refine Keeps.upd ?_ rfl rfl rfl ?_; rotate_left; (fail_if_success with_reducible exact Moved.refl _); exact Moved.any _ _) | dsimp only)

theorem State.latchEth_keeps {s0 : State} (s : State) (d : Nat) (hk_s : Keeps s0 s) : Keeps s0 (State.latchEth s d) := by
  unfold State.latchEth
  (try dsimp only [State.fresh, State.freeVal])
  repeat' (first | with_reducible assumption | with_reducible apply State.modEth_keeps | intro _ | (with_reducible refine Keeps.ite ?_ ?_) | split | (with_reducible refine Keeps.upd ?_ rfl rfl rfl ?_; rotate_left; (fail_if_success with_reducible exact Moved.refl _); exact Moved.any _ _) | dsimp only)

theorem State.modWire_keeps {s0 : State} (s : State) (d u : Nat) (f : Link → Link) (hk_s : Keeps s0 s) : Keeps s0 (State.modWire s d u f) := by
  unfold State.modWire
  (try dsimp only [State.fresh, State.freeVal])
  repeat' (first | with_reducible assumption | intro _ | (with_reducible refine Keeps.ite ?_ ?_) | split | (with_reducible refine Keeps.upd ?_ rfl rfl rfl ?_; rotate_left; (fail_if_success with_reducible exact Moved.refl _); exact Moved.any _ _) | dsimp only)

theorem State.queueTx_keeps {s0 : State} (s : State) (d : Nat) (f : TxFrame) (hk_s : Keeps s0 s) : Keeps s0 (State.queueTx s d f) := by
  unfold State.queueTx
  (try dsimp only [State.fresh, State.freeVal])
  repeat' (first | with_reducible assumption | with_reducible apply State.modEth_keeps | intro _ | (with_reducible refine Keeps.ite ?_ ?_) | split | (with_reducible refine Keeps.upd ?_ rfl rfl rfl ?_; rotate_left; (fail_if_success with_reducible exact Moved.refl _); exact Moved.any _ _) | dsimp only)

theorem State.sendItem_keeps {s0 : State} (s : State) (d prio mac : Nat) (item : TxItem) (hk_s : Keeps s0 s) : Keeps s0 (State.sendItem s d prio mac item) := by
  unfold State.sendItem
  (try dsimp only [State.fresh, State.freeVal])
  repeat' (first | with_reducible assumption | with_reducible apply State.queueTx_keeps | intro _ | (with_reducible refine Keeps.ite ?_ ?_) | split | (with_reducible refine Keeps.upd ?_ rfl rfl rfl ?_; rotate_left; (fail_if_success with_reducible exact Moved.refl _); exact Moved.any _ _) | dsimp only)

theorem State.nextPn_keeps {s0 : State} (s : State) (d : Nat) (hk : Keeps s0 s) : Keeps s0 (s.nextPn d).2 := by
  unfold State.nextPn
  split
  · rename_i a _
    have h := State.modEth_keeps s d (fun e => { e with sas := mapIf (fun x => x.tx && x.an == a.an) (fun x => { x with pn := a.pn + 1 }) e.sas }) hk
    refine Keeps.ite (State.setAlert_keeps _ 4 true ?_) h
    exact h.same rfl rfl rfl rfl rfl rfl rfl
  · exact hk

theorem State.sendFrame_keeps {s0 : State} (s : State) (d : Nat) (f : TxFrame) (link : Option LinkHdr) (hk_s : Keeps s0 s) : Keeps s0 (State.sendFrame s d f link) := by
  unfold State.sendFrame
  (try dsimp only [State.fresh, State.freeVal])
  repeat' (first | with_reducible assumption | with_reducible apply State.bump_keeps | with_reducible apply State.emit_keeps | with_reducible apply State.nextPn_keeps | intro _ | (with_reducible refine Keeps.ite ?_ ?_) | split | (with_reducible refine Keeps.snd ‹_› ?_) | (with_reducible refine Keeps.fst ‹_› ?_) | (with_reducible refine Keeps.upd ?_ rfl rfl rfl ?_; rotate_left; (fail_if_success with_reducible exact Moved.refl _); exact Moved.any _ _) | dsimp only)

theorem State.ximelCtl_keeps {s0 : State} (s : State) (d kind width group etype : Nat) (hk_s : Keeps s0 s) : Keeps s0 (State.ximelCtl s d kind width group etype) := by
  unfold State.ximelCtl
  (try dsimp only [State.fresh, State.freeVal])
  repeat' (first | with_reducible assumption | with_reducible apply State.modWire_keeps | with_reducible apply State.sendFrame_keeps | intro _ | (with_reducible refine Keeps.ite ?_ ?_) | split | (with_reducible refine Keeps.upd ?_ rfl rfl rfl ?_; rotate_left; (fail_if_success with_reducible exact Moved.refl _); exact Moved.any _ _) | dsimp only)

theorem State.sendNumbered_keeps {s0 : State} (s : State) (d u seq ack : Nat) (f : TxFrame) (hk_s : Keeps s0 s) : Keeps s0 (State.sendNumbered s d u seq ack f) := by
  unfold State.sendNumbered
  (try dsimp only [State.fresh, State.freeVal])
  repeat' (first | with_reducible assumption | with_reducible apply State.sendFrame_keeps | intro _ | (with_reducible refine Keeps.ite ?_ ?_) | split | (with_reducible refine Keeps.upd ?_ rfl rfl rfl ?_; rotate_left; (fail_if_success with_reducible exact Moved.refl _); exact Moved.any _ _) | dsimp only)

theorem State.portDown_keeps {s0 : State} (s : State) (d : Nat) (hk_s : Keeps s0 s) : Keeps s0 (State.portDown s d) := by
  unfold State.portDown
  (try dsimp only [State.fresh, State.freeVal])
  repeat' (first | with_reducible assumption | with_reducible apply State.setRegN_keeps | with_reducible apply State.modEth_keeps | with_reducible apply State.modWire_keeps | intro _ | (with_reducible refine Keeps.ite ?_ ?_) | split | (with_reducible refine Keeps.upd ?_ rfl rfl rfl ?_; rotate_left; (fail_if_success with_reducible exact Moved.refl _); exact Moved.any _ _) | dsimp only)

theorem State.gone7_keeps {s0 : State} (s : State) (d : Nat) (fs : List TxFrame) (hk_s : Keeps s0 s) : Keeps s0 (State.gone7 s d fs) := by
  unfold State.gone7
  (try dsimp only [State.fresh, State.freeVal])
  repeat' (first | with_reducible assumption | with_reducible apply State.modEth_keeps | with_reducible apply State.portDown_keeps | with_reducible apply Keeps.foldl | with_reducible apply Keeps.foldlFst | with_reducible apply Keeps.foldlSnd | intro _ | (with_reducible refine Keeps.ite ?_ ?_) | split | (with_reducible refine Keeps.snd ‹_› ?_) | (with_reducible refine Keeps.fst ‹_› ?_) | (with_reducible refine Keeps.upd ?_ rfl rfl rfl ?_; rotate_left; (fail_if_success with_reducible exact Moved.refl _); exact Moved.any _ _) | dsimp only)

theorem State.retrainNow_keeps {s0 : State} (s : State) (d : Nat) (waits : List TxFrame) (hk_s : Keeps s0 s) : Keeps s0 (State.retrainNow s d waits) := by
  unfold State.retrainNow
  (try dsimp only [State.fresh, State.freeVal])
  repeat' (first | with_reducible assumption | with_reducible apply State.setRbit_keeps | with_reducible apply State.portDown_keeps | intro _ | (with_reducible refine Keeps.ite ?_ ?_) | split | (with_reducible refine Keeps.upd ?_ rfl rfl rfl ?_; rotate_left; (fail_if_success with_reducible exact Moved.refl _); exact Moved.any _ _) | dsimp only)

theorem State.retrainPort_keeps {s0 : State} (s : State) (d : Nat) (hk_s : Keeps s0 s) : Keeps s0 (State.retrainPort s d) := by
  unfold State.retrainPort
  (try dsimp only [State.fresh, State.freeVal])
  repeat' (first | with_reducible assumption | with_reducible apply State.modEth_keeps | with_reducible apply State.retrainNow_keeps | intro _ | (with_reducible refine Keeps.ite ?_ ?_) | split | (with_reducible refine Keeps.upd ?_ rfl rfl rfl ?_; rotate_left; (fail_if_success with_reducible exact Moved.refl _); exact Moved.any _ _) | dsimp only)

theorem State.ethErr_keeps {s0 : State} (s : State) (d i n : Nat) (hk_s : Keeps s0 s) : Keeps s0 (State.ethErr s d i n) := by
  unfold State.ethErr
  (try dsimp only [State.fresh, State.freeVal])
  repeat' (first | with_reducible assumption | with_reducible apply State.setCtr_keeps | with_reducible apply State.saturated_keeps | with_reducible apply State.retrainPort_keeps | intro _ | (with_reducible refine Keeps.ite ?_ ?_) | split | (with_reducible refine Keeps.upd ?_ rfl rfl rfl ?_; rotate_left; (fail_if_success with_reducible exact Moved.refl _); exact Moved.any _ _) | dsimp only)

theorem State.countReplay_keeps {s0 : State} (s : State) (d u : Nat) (hk_s : Keeps s0 s) : Keeps s0 (State.countReplay s d u) := by
  unfold State.countReplay
  (try dsimp only [State.fresh, State.freeVal])
  repeat' (first | with_reducible assumption | with_reducible apply State.bump_keeps | with_reducible apply State.ethErr_keeps | intro _ | (with_reducible refine Keeps.ite ?_ ?_) | split | (with_reducible refine Keeps.upd ?_ rfl rfl rfl ?_; rotate_left; (fail_if_success with_reducible exact Moved.refl _); exact Moved.any _ _) | dsimp only)

theorem State.transmit_keeps {s0 : State} (s : State) (d : Nat) (hk_s : Keeps s0 s) : Keeps s0 (State.transmit s d) := by
  unfold State.transmit
  (try dsimp only [State.fresh, State.freeVal])
  repeat' (first | with_reducible assumption | with_reducible apply State.fresh_keeps | with_reducible apply State.modEth_keeps | with_reducible apply State.modWire_keeps | with_reducible apply State.sendFrame_keeps | with_reducible apply State.sendNumbered_keeps | with_reducible apply State.gone7_keeps | with_reducible apply State.countReplay_keeps | intro _ | (with_reducible refine Keeps.ite ?_ ?_) | split | (with_reducible refine Keeps.snd ‹_› ?_) | (with_reducible refine Keeps.fst ‹_› ?_) | (with_reducible refine Keeps.upd ?_ rfl rfl rfl ?_; rotate_left; (fail_if_success with_reducible exact Moved.refl _); exact Moved.any _ _) | dsimp only)

theorem execFrameTransmit_keeps {s0 : State} (d : Nat) (s : State) (hk_s : Keeps s0 s) : KeepsRes s0 (execFrameTransmit d s) := by
  unfold execFrameTransmit
  (try dsimp only [State.fresh, State.freeVal])
  repeat' (first | with_reducible assumption | with_reducible apply onDie_keeps | with_reducible apply State.transmit_keeps | intro _ | (with_reducible refine Keeps.ite ?_ ?_) | split | (with_reducible refine KeepsRes.next ?_) | (with_reducible refine Keeps.upd ?_ rfl rfl rfl ?_; rotate_left; (fail_if_success with_reducible exact Moved.refl _); exact Moved.any _ _) | dsimp only)

theorem execRetrain_keeps {s0 : State} (d : Nat) (s : State) (hk_s : Keeps s0 s) : KeepsRes s0 (execRetrain d s) := by
  unfold execRetrain
  (try dsimp only [State.fresh, State.freeVal])
  repeat' (first | with_reducible assumption | with_reducible apply onDie_keeps | with_reducible apply State.retrainPort_keeps | intro _ | (with_reducible refine Keeps.ite ?_ ?_) | split | (with_reducible refine KeepsRes.next ?_) | (with_reducible refine Keeps.upd ?_ rfl rfl rfl ?_; rotate_left; (fail_if_success with_reducible exact Moved.refl _); exact Moved.any _ _) | dsimp only)

theorem execRetrainDeferEnd_keeps {s0 : State} (d : Nat) (s : State) (hk_s : Keeps s0 s) : KeepsRes s0 (execRetrainDeferEnd d s) := by
  unfold execRetrainDeferEnd
  (try dsimp only [State.fresh, State.freeVal])
  repeat' (first | with_reducible assumption | with_reducible apply onDie_keeps | with_reducible apply State.portDown_keeps | intro _ | (with_reducible refine Keeps.ite ?_ ?_) | split | (with_reducible refine KeepsRes.next ?_) | (with_reducible refine Keeps.upd ?_ rfl rfl rfl ?_; rotate_left; (fail_if_success with_reducible exact Moved.refl _); exact Moved.any _ _) | dsimp only)

theorem State.countBroken_keeps {s0 : State} (s : State) (d : Nat) (f : Frame) (row : Option Nat) (hk_s : Keeps s0 s) : Keeps s0 (State.countBroken s d f row) := by
  unfold State.countBroken
  (try dsimp only [State.fresh, State.freeVal])
  repeat' (first | with_reducible assumption | with_reducible apply State.ethErr_keeps | intro _ | (with_reducible refine Keeps.ite ?_ ?_) | split | (with_reducible refine Keeps.snd ‹_› ?_) | (with_reducible refine Keeps.fst ‹_› ?_) | (with_reducible refine Keeps.upd ?_ rfl rfl rfl ?_; rotate_left; (fail_if_success with_reducible exact Moved.refl _); exact Moved.any _ _) | dsimp only)

theorem State.notePn_keeps {s0 : State} (s : State) (d : Nat) (m : Option (Nat × Nat × Bool)) (hk_s : Keeps s0 s) : Keeps s0 (State.notePn s d m) := by
  unfold State.notePn
  (try dsimp only [State.fresh, State.freeVal])
  repeat' (first | with_reducible assumption | with_reducible apply State.modEth_keeps | intro _ | (with_reducible refine Keeps.ite ?_ ?_) | split | (with_reducible refine Keeps.snd ‹_› ?_) | (with_reducible refine Keeps.fst ‹_› ?_) | (with_reducible refine Keeps.upd ?_ rfl rfl rfl ?_; rotate_left; (fail_if_success with_reducible exact Moved.refl _); exact Moved.any _ _) | dsimp only)

theorem State.screened_keeps {s0 : State} (s : State) (d dst : Nat) (m : Option (Nat × Nat × Bool)) (act : State → State) (hk_s : Keeps s0 s) (hk_act : ∀ y0, Keeps s0 y0 → Keeps s0 (act y0)) : Keeps s0 (State.screened s d dst m act) := by
  unfold State.screened
  (try dsimp only [State.fresh, State.freeVal])
  repeat' (first | with_reducible assumption | with_reducible apply hk_act | with_reducible apply State.bump_keeps | with_reducible apply State.ethErr_keeps | with_reducible apply State.notePn_keeps | intro _ | (with_reducible refine Keeps.ite ?_ ?_) | split | (with_reducible refine Keeps.upd ?_ rfl rfl rfl ?_; rotate_left; (fail_if_success with_reducible exact Moved.refl _); exact Moved.any _ _) | dsimp only)

theorem State.unclaimed_keeps {s0 : State} (s : State) (d : Nat) (hk_s : Keeps s0 s) : Keeps s0 (State.unclaimed s d) := by
  unfold State.unclaimed
  (try dsimp only [State.fresh, State.freeVal])
  repeat' (first | with_reducible assumption | with_reducible apply State.bump_keeps | intro _ | (with_reducible refine Keeps.ite ?_ ?_) | split | (with_reducible refine Keeps.upd ?_ rfl rfl rfl ?_; rotate_left; (fail_if_success with_reducible exact Moved.refl _); exact Moved.any _ _) | dsimp only)

theorem State.hostRx_keeps {s0 : State} (s : State) (d p : Nat) (f : Frame) (hk_s : Keeps s0 s) : Keeps s0 (State.hostRx s d p f) := by
  unfold State.hostRx
  (try dsimp only [State.fresh, State.freeVal])
  repeat' (first | with_reducible assumption | with_reducible apply State.bump_keeps | with_reducible apply State.write_keeps | with_reducible apply State.reach_keeps | with_reducible apply State.endWork_keeps | with_reducible apply State.unclaimed_keeps | with_reducible apply Keeps.write | intro _ | (with_reducible refine Keeps.ite ?_ ?_) | split | (with_reducible refine Keeps.snd ‹_› ?_) | (with_reducible refine Keeps.fst ‹_› ?_) | (with_reducible refine Keeps.upd ?_ rfl rfl rfl ?_; rotate_left; (fail_if_success with_reducible exact Moved.refl _); exact Moved.any _ _) | dsimp only)

theorem State.pauseIn_keeps {s0 : State} (s : State) (d : Nat) (f : Frame) (hk_s : Keeps s0 s) : Keeps s0 (State.pauseIn s d f) := by
  unfold State.pauseIn
  (try dsimp only [State.fresh, State.freeVal])
  repeat' (first | with_reducible assumption | with_reducible apply State.bump_keeps | with_reducible apply State.modEth_keeps | with_reducible apply Keeps.foldl | with_reducible apply Keeps.foldlFst | with_reducible apply Keeps.foldlSnd | intro _ | (with_reducible refine Keeps.ite ?_ ?_) | split | (with_reducible refine Keeps.snd ‹_› ?_) | (with_reducible refine Keeps.fst ‹_› ?_) | (with_reducible refine Keeps.upd ?_ rfl rfl rfl ?_; rotate_left; (fail_if_success with_reducible exact Moved.refl _); exact Moved.any _ _) | dsimp only)

theorem State.place_keeps {s0 : State} (s : State) (d p : Nat) (f : Frame) (hk_s : Keeps s0 s) : Keeps s0 (State.place s d p f) := by
  unfold State.place
  (try dsimp only [State.fresh, State.freeVal])
  repeat' (first | with_reducible assumption | with_reducible apply State.bump_keeps | with_reducible apply State.bumpErr_keeps | with_reducible apply State.modEth_keeps | with_reducible apply State.ethErr_keeps | with_reducible apply State.unclaimed_keeps | with_reducible apply State.hostRx_keeps | with_reducible apply State.pauseIn_keeps | intro _ | (with_reducible refine Keeps.ite ?_ ?_) | split | (with_reducible refine Keeps.snd ‹_› ?_) | (with_reducible refine Keeps.fst ‹_› ?_) | (with_reducible refine Keeps.upd ?_ rfl rfl rfl ?_; rotate_left; (fail_if_success with_reducible exact Moved.refl _); exact Moved.any _ _) | dsimp only)

theorem State.deliver_keeps {s0 : State} (s : State) (d p : Nat) (f : Frame) (hk_s : Keeps s0 s) : Keeps s0 (State.deliver s d p f) := by
  unfold State.deliver
  (try dsimp only [State.fresh, State.freeVal])
  repeat' (first | with_reducible assumption | with_reducible apply State.screened_keeps | with_reducible apply State.place_keeps | intro _ | (with_reducible refine Keeps.ite ?_ ?_) | split | (with_reducible refine Keeps.upd ?_ rfl rfl rfl ?_; rotate_left; (fail_if_success with_reducible exact Moved.refl _); exact Moved.any _ _) | dsimp only)

theorem State.takeRx_keeps {s0 : State} (s : State) (d c : Nat) (hk_s : Keeps s0 s) : Keeps s0 (State.takeRx s d c) := by
  unfold State.takeRx
  (try dsimp only [State.fresh, State.freeVal])
  repeat' (first | with_reducible assumption | with_reducible apply State.modEth_keeps | intro _ | (with_reducible refine Keeps.ite ?_ ?_) | split | (with_reducible refine Keeps.snd ‹_› ?_) | (with_reducible refine Keeps.fst ‹_› ?_) | (with_reducible refine Keeps.upd ?_ rfl rfl rfl ?_; rotate_left; (fail_if_success with_reducible exact Moved.refl _); exact Moved.any _ _) | dsimp only)

theorem State.onFrame_keeps {s0 : State} (s : State) (d : Nat) (f : Frame) (act : State → State) (hk_s : Keeps s0 s) (hk_act : ∀ y0, Keeps s0 y0 → Keeps s0 (act y0)) : Keeps s0 (State.onFrame s d f act) := by
  unfold State.onFrame
  (try dsimp only [State.fresh, State.freeVal])
  repeat' (first | with_reducible assumption | with_reducible apply hk_act | with_reducible apply State.bump_keeps | intro _ | (with_reducible refine Keeps.ite ?_ ?_) | split | (with_reducible refine Keeps.upd ?_ rfl rfl rfl ?_; rotate_left; (fail_if_success with_reducible exact Moved.refl _); exact Moved.any _ _) | dsimp only)

theorem State.ximelAck_keeps {s0 : State} (s : State) (d ack : Nat) (hk_s : Keeps s0 s) : Keeps s0 (State.ximelAck s d ack) := by
  unfold State.ximelAck
  (try dsimp only [State.fresh, State.freeVal])
  repeat' (first | with_reducible assumption | with_reducible apply State.modWire_keeps | with_reducible apply State.gone7_keeps | intro _ | (with_reducible refine Keeps.ite ?_ ?_) | split | (with_reducible refine Keeps.upd ?_ rfl rfl rfl ?_; rotate_left; (fail_if_success with_reducible exact Moved.refl _); exact Moved.any _ _) | dsimp only)

theorem State.ximelResend_keeps {s0 : State} (s : State) (d : Nat) (hk_s : Keeps s0 s) : Keeps s0 (State.ximelResend s d) := by
  unfold State.ximelResend
  (try dsimp only [State.fresh, State.freeVal])
  repeat' (first | with_reducible assumption | with_reducible apply State.modWire_keeps | with_reducible apply State.retrainPort_keeps | intro _ | (with_reducible refine Keeps.ite ?_ ?_) | split | (with_reducible refine Keeps.upd ?_ rfl rfl rfl ?_; rotate_left; (fail_if_success with_reducible exact Moved.refl _); exact Moved.any _ _) | dsimp only)

theorem State.ximelData_keeps {s0 : State} (s : State) (d seq ack p : Nat) (f : Frame) (hk_s : Keeps s0 s) : Keeps s0 (State.ximelData s d seq ack p f) := by
  unfold State.ximelData
  (try dsimp only [State.fresh, State.freeVal])
  repeat' (first | with_reducible assumption | with_reducible apply State.modWire_keeps | with_reducible apply State.ximelCtl_keeps | with_reducible apply State.countBroken_keeps | with_reducible apply State.deliver_keeps | with_reducible apply State.ximelAck_keeps | intro _ | (with_reducible refine Keeps.ite ?_ ?_) | split | (with_reducible refine Keeps.snd ‹_› ?_) | (with_reducible refine Keeps.fst ‹_› ?_) | (with_reducible refine Keeps.upd ?_ rfl rfl rfl ?_; rotate_left; (fail_if_success with_reducible exact Moved.refl _); exact Moved.any _ _) | dsimp only)

theorem execXimelDataReceive_keeps {s0 : State} (d seq ack : Nat) (x : DataIn) (s : State) (hk_s : Keeps s0 s) : KeepsRes s0 (execXimelDataReceive d seq ack x s) := by
  unfold execXimelDataReceive
  (try dsimp only [State.fresh, State.freeVal])
  repeat' (first | with_reducible assumption | with_reducible apply onDie_keeps | with_reducible apply State.onFrame_keeps | with_reducible apply State.ximelData_keeps | intro _ | (with_reducible refine Keeps.ite ?_ ?_) | split | (with_reducible refine KeepsRes.next ?_) | (with_reducible refine Keeps.upd ?_ rfl rfl rfl ?_; rotate_left; (fail_if_success with_reducible exact Moved.refl _); exact Moved.any _ _) | dsimp only)

theorem execXimelAckTimer_keeps {s0 : State} (d : Nat) (s : State) (hk_s : Keeps s0 s) : KeepsRes s0 (execXimelAckTimer d s) := by
  unfold execXimelAckTimer
  (try dsimp only [State.fresh, State.freeVal])
  repeat' (first | with_reducible assumption | with_reducible apply onDie_keeps | with_reducible apply State.ximelCtl_keeps | intro _ | (with_reducible refine Keeps.ite ?_ ?_) | split | (with_reducible refine KeepsRes.next ?_) | (with_reducible refine Keeps.upd ?_ rfl rfl rfl ?_; rotate_left; (fail_if_success with_reducible exact Moved.refl _); exact Moved.any _ _) | dsimp only)

theorem State.ctlIn_keeps {s0 : State} (s : State) (d : Nat) (x : LinkCtl) (act : State → State) (hk_s : Keeps s0 s) (hk_act : ∀ y0, Keeps s0 y0 → Keeps s0 (act y0)) : Keeps s0 (State.ctlIn s d x act) := by
  unfold State.ctlIn
  (try dsimp only [State.fresh, State.freeVal])
  repeat' (first | with_reducible assumption | with_reducible apply hk_act | with_reducible apply State.screened_keeps | with_reducible apply State.ximelAck_keeps | intro _ | (with_reducible refine Keeps.ite ?_ ?_) | split | (with_reducible refine Keeps.upd ?_ rfl rfl rfl ?_; rotate_left; (fail_if_success with_reducible exact Moved.refl _); exact Moved.any _ _) | dsimp only)

theorem State.ximelNak_keeps {s0 : State} (s : State) (d : Nat) (hk_s : Keeps s0 s) : Keeps s0 (State.ximelNak s d) := by
  unfold State.ximelNak
  (try dsimp only [State.fresh, State.freeVal])
  repeat' (first | with_reducible assumption | with_reducible apply State.ximelResend_keeps | intro _ | (with_reducible refine Keeps.ite ?_ ?_) | split | (with_reducible refine Keeps.upd ?_ rfl rfl rfl ?_; rotate_left; (fail_if_success with_reducible exact Moved.refl _); exact Moved.any _ _) | dsimp only)

theorem execXimelNakReceive_keeps {s0 : State} (d : Nat) (x : LinkCtl) (s : State) (hk_s : Keeps s0 s) : KeepsRes s0 (execXimelNakReceive d x s) := by
  unfold execXimelNakReceive
  (try dsimp only [State.fresh, State.freeVal])
  repeat' (first | with_reducible assumption | with_reducible apply onDie_keeps | with_reducible apply State.ctlIn_keeps | with_reducible apply State.ximelNak_keeps | intro _ | (with_reducible refine Keeps.ite ?_ ?_) | split | (with_reducible refine KeepsRes.next ?_) | (with_reducible refine Keeps.upd ?_ rfl rfl rfl ?_; rotate_left; (fail_if_success with_reducible exact Moved.refl _); exact Moved.any _ _) | dsimp only)

theorem execXimelNakResend_keeps {s0 : State} (d : Nat) (s : State) (hk_s : Keeps s0 s) : KeepsRes s0 (execXimelNakResend d s) := by
  unfold execXimelNakResend
  (try dsimp only [State.fresh, State.freeVal])
  repeat' (first | with_reducible assumption | with_reducible apply onDie_keeps | with_reducible apply State.ximelCtl_keeps | intro _ | (with_reducible refine Keeps.ite ?_ ?_) | split | (with_reducible refine KeepsRes.next ?_) | (with_reducible refine Keeps.upd ?_ rfl rfl rfl ?_; rotate_left; (fail_if_success with_reducible exact Moved.refl _); exact Moved.any _ _) | dsimp only)

theorem execXimelReplayTimeout_keeps {s0 : State} (d : Nat) (s : State) (hk_s : Keeps s0 s) : KeepsRes s0 (execXimelReplayTimeout d s) := by
  unfold execXimelReplayTimeout
  (try dsimp only [State.fresh, State.freeVal])
  repeat' (first | with_reducible assumption | with_reducible apply onDie_keeps | with_reducible apply State.ximelResend_keeps | intro _ | (with_reducible refine Keeps.ite ?_ ?_) | split | (with_reducible refine KeepsRes.next ?_) | (with_reducible refine Keeps.upd ?_ rfl rfl rfl ?_; rotate_left; (fail_if_success with_reducible exact Moved.refl _); exact Moved.any _ _) | dsimp only)

theorem State.ximelCap_keeps {s0 : State} (s : State) (d part stepping : Nat) (offers : Bool) (hk_s : Keeps s0 s) : Keeps s0 (State.ximelCap s d part stepping offers) := by
  unfold State.ximelCap
  (try dsimp only [State.fresh, State.freeVal])
  repeat' (first | with_reducible assumption | with_reducible apply State.setRbit_keeps | with_reducible apply State.eachDie_keeps | with_reducible apply State.modWire_keeps | with_reducible apply Keeps.eachDie | intro _ | (with_reducible refine Keeps.ite ?_ ?_) | split | (with_reducible refine Keeps.upd ?_ rfl rfl rfl ?_; rotate_left; (fail_if_success with_reducible exact Moved.refl _); exact Moved.any _ _) | dsimp only)

theorem execXimelCapability_keeps {s0 : State} (d : Nat) (peer : Peer) (x : LinkCtl) (s : State) (hk_s : Keeps s0 s) : KeepsRes s0 (execXimelCapability d peer x s) := by
  unfold execXimelCapability
  (try dsimp only [State.fresh, State.freeVal])
  repeat' (first | with_reducible assumption | with_reducible apply onDie_keeps | with_reducible apply State.ctlIn_keeps | with_reducible apply State.ximelCap_keeps | intro _ | (with_reducible refine Keeps.ite ?_ ?_) | split | (with_reducible refine KeepsRes.next ?_) | (with_reducible refine Keeps.upd ?_ rfl rfl rfl ?_; rotate_left; (fail_if_success with_reducible exact Moved.refl _); exact Moved.any _ _) | dsimp only)

theorem State.startNarrow_keeps {s0 : State} (s : State) (d : Nat) (hk_s : Keeps s0 s) : Keeps s0 (State.startNarrow s d) := by
  unfold State.startNarrow
  (try dsimp only [State.fresh, State.freeVal])
  repeat' (first | with_reducible assumption | with_reducible apply State.modEth_keeps | with_reducible apply State.ximelCtl_keeps | with_reducible apply State.portDown_keeps | intro _ | (with_reducible refine Keeps.ite ?_ ?_) | split | (with_reducible refine Keeps.snd ‹_› ?_) | (with_reducible refine Keeps.fst ‹_› ?_) | (with_reducible refine Keeps.upd ?_ rfl rfl rfl ?_; rotate_left; (fail_if_success with_reducible exact Moved.refl _); exact Moved.any _ _) | dsimp only)

theorem State.laneFail_keeps {s0 : State} (s : State) (d lane : Nat) (hk_s : Keeps s0 s) : Keeps s0 (State.laneFail s d lane) := by
  unfold State.laneFail
  (try dsimp only [State.fresh, State.freeVal])
  repeat' (first | with_reducible assumption | with_reducible apply State.setRbit_keeps | with_reducible apply State.modEth_keeps | with_reducible apply State.portDown_keeps | with_reducible apply State.startNarrow_keeps | intro _ | (with_reducible refine Keeps.ite ?_ ?_) | split | (with_reducible refine Keeps.upd ?_ rfl rfl rfl ?_; rotate_left; (fail_if_success with_reducible exact Moved.refl _); exact Moved.any _ _) | dsimp only)

theorem State.modNarrow_keeps {s0 : State} (s : State) (d : Nat) (f : Narrow → Narrow) (hk_s : Keeps s0 s) : Keeps s0 (State.modNarrow s d f) := by
  unfold State.modNarrow
  (try dsimp only [State.fresh, State.freeVal])
  repeat' (first | with_reducible assumption | with_reducible apply State.modEth_keeps | intro _ | (with_reducible refine Keeps.ite ?_ ?_) | split | (with_reducible refine Keeps.upd ?_ rfl rfl rfl ?_; rotate_left; (fail_if_success with_reducible exact Moved.refl _); exact Moved.any _ _) | dsimp only)

theorem execNarrowRequestRepeat_keeps {s0 : State} (d : Nat) (s : State) (hk_s : Keeps s0 s) : KeepsRes s0 (execNarrowRequestRepeat d s) := by
  unfold execNarrowRequestRepeat
  (try dsimp only [State.fresh, State.freeVal])
  repeat' (first | with_reducible assumption | with_reducible apply onDie_keeps | with_reducible apply State.ximelCtl_keeps | intro _ | (with_reducible refine Keeps.ite ?_ ?_) | split | (with_reducible refine Keeps.snd ‹_› ?_) | (with_reducible refine Keeps.fst ‹_› ?_) | (with_reducible refine KeepsRes.next ?_) | (with_reducible refine Keeps.upd ?_ rfl rfl rfl ?_; rotate_left; (fail_if_success with_reducible exact Moved.refl _); exact Moved.any _ _) | dsimp only)

theorem State.narrowAgree_keeps {s0 : State} (s : State) (d width group : Nat) (hk_s : Keeps s0 s) : Keeps s0 (State.narrowAgree s d width group) := by
  unfold State.narrowAgree
  (try dsimp only [State.fresh, State.freeVal])
  repeat' (first | with_reducible assumption | with_reducible apply State.modEth_keeps | with_reducible apply State.ximelCtl_keeps | intro _ | (with_reducible refine Keeps.ite ?_ ?_) | split | (with_reducible refine Keeps.upd ?_ rfl rfl rfl ?_; rotate_left; (fail_if_success with_reducible exact Moved.refl _); exact Moved.any _ _) | dsimp only)

theorem State.narrowAsked_keeps {s0 : State} (s : State) (d width group : Nat) (hk_s : Keeps s0 s) : Keeps s0 (State.narrowAsked s d width group) := by
  unfold State.narrowAsked
  (try dsimp only [State.fresh, State.freeVal])
  repeat' (first | with_reducible assumption | with_reducible apply State.modEth_keeps | with_reducible apply State.startNarrow_keeps | with_reducible apply State.narrowAgree_keeps | intro _ | (with_reducible refine Keeps.ite ?_ ?_) | split | (with_reducible refine Keeps.upd ?_ rfl rfl rfl ?_; rotate_left; (fail_if_success with_reducible exact Moved.refl _); exact Moved.any _ _) | dsimp only)

theorem execNarrowRequest_keeps {s0 : State} (d : Nat) (lanes : Lanes) (x : LinkCtl) (s : State) (hk_s : Keeps s0 s) : KeepsRes s0 (execNarrowRequest d lanes x s) := by
  unfold execNarrowRequest
  (try dsimp only [State.fresh, State.freeVal])
  repeat' (first | with_reducible assumption | with_reducible apply onDie_keeps | with_reducible apply State.ctlIn_keeps | with_reducible apply State.narrowAsked_keeps | intro _ | (with_reducible refine Keeps.ite ?_ ?_) | split | (with_reducible refine KeepsRes.next ?_) | (with_reducible refine Keeps.upd ?_ rfl rfl rfl ?_; rotate_left; (fail_if_success with_reducible exact Moved.refl _); exact Moved.any _ _) | dsimp only)

theorem State.narrowSwitch_keeps {s0 : State} (s : State) (d : Nat) (hk_s : Keeps s0 s) : Keeps s0 (State.narrowSwitch s d) := by
  unfold State.narrowSwitch
  (try dsimp only [State.fresh, State.freeVal])
  repeat' (first | with_reducible assumption | with_reducible apply State.modNarrow_keeps | intro _ | (with_reducible refine Keeps.ite ?_ ?_) | split | (with_reducible refine Keeps.upd ?_ rfl rfl rfl ?_; rotate_left; (fail_if_success with_reducible exact Moved.refl _); exact Moved.any _ _) | dsimp only)

theorem State.narrowAcked_keeps {s0 : State} (s : State) (d width group : Nat) (hk_s : Keeps s0 s) : Keeps s0 (State.narrowAcked s d width group) := by
  unfold State.narrowAcked
  (try dsimp only [State.fresh, State.freeVal])
  repeat' (first | with_reducible assumption | with_reducible apply State.narrowSwitch_keeps | intro _ | (with_reducible refine Keeps.ite ?_ ?_) | split | (with_reducible refine Keeps.snd ‹_› ?_) | (with_reducible refine Keeps.fst ‹_› ?_) | (with_reducible refine Keeps.upd ?_ rfl rfl rfl ?_; rotate_left; (fail_if_success with_reducible exact Moved.refl _); exact Moved.any _ _) | dsimp only)

theorem execNarrowAck_keeps {s0 : State} (d : Nat) (lanes : Lanes) (x : LinkCtl) (s : State) (hk_s : Keeps s0 s) : KeepsRes s0 (execNarrowAck d lanes x s) := by
  unfold execNarrowAck
  (try dsimp only [State.fresh, State.freeVal])
  repeat' (first | with_reducible assumption | with_reducible apply onDie_keeps | with_reducible apply State.ctlIn_keeps | with_reducible apply State.narrowAcked_keeps | intro _ | (with_reducible refine Keeps.ite ?_ ?_) | split | (with_reducible refine KeepsRes.next ?_) | (with_reducible refine Keeps.upd ?_ rfl rfl rfl ?_; rotate_left; (fail_if_success with_reducible exact Moved.refl _); exact Moved.any _ _) | dsimp only)

theorem execNarrowAckTimeout_keeps {s0 : State} (d : Nat) (s : State) (hk_s : Keeps s0 s) : KeepsRes s0 (execNarrowAckTimeout d s) := by
  unfold execNarrowAckTimeout
  (try dsimp only [State.fresh, State.freeVal])
  repeat' (first | with_reducible assumption | with_reducible apply onDie_keeps | with_reducible apply State.narrowSwitch_keeps | intro _ | (with_reducible refine Keeps.ite ?_ ?_) | split | (with_reducible refine KeepsRes.next ?_) | (with_reducible refine Keeps.upd ?_ rfl rfl rfl ?_; rotate_left; (fail_if_success with_reducible exact Moved.refl _); exact Moved.any _ _) | dsimp only)

theorem State.narrowReport_keeps {s0 : State} (s : State) (d : Nat) (hk_s : Keeps s0 s) : Keeps s0 (State.narrowReport s d) := by
  unfold State.narrowReport
  (try dsimp only [State.fresh, State.freeVal])
  repeat' (first | with_reducible assumption | with_reducible apply State.setRbit_keeps | with_reducible apply State.bump_keeps | with_reducible apply State.freeVal_keeps | with_reducible apply State.eventAll_keeps | intro _ | (with_reducible refine Keeps.ite ?_ ?_) | split | (with_reducible refine Keeps.snd ‹_› ?_) | (with_reducible refine Keeps.fst ‹_› ?_) | (with_reducible refine Keeps.upd ?_ rfl rfl rfl ?_; rotate_left; (fail_if_success with_reducible exact Moved.refl _); exact Moved.any _ _) | dsimp only)

theorem State.narrowDone_keeps {s0 : State} (s : State) (d peerAck : Nat) (hk_s : Keeps s0 s) : Keeps s0 (State.narrowDone s d peerAck) := by
  unfold State.narrowDone
  (try dsimp only [State.fresh, State.freeVal])
  repeat' (first | with_reducible assumption | with_reducible apply State.setRf_keeps | with_reducible apply State.modEth_keeps | with_reducible apply State.ximelCtl_keeps | with_reducible apply State.retrainNow_keeps | with_reducible apply State.ximelAck_keeps | with_reducible apply State.ximelResend_keeps | with_reducible apply State.narrowReport_keeps | intro _ | (with_reducible refine Keeps.ite ?_ ?_) | split | (with_reducible refine Keeps.snd ‹_› ?_) | (with_reducible refine Keeps.fst ‹_› ?_) | (with_reducible refine Keeps.upd ?_ rfl rfl rfl ?_; rotate_left; (fail_if_success with_reducible exact Moved.refl _); exact Moved.any _ _) | dsimp only)

theorem execNarrowAlign_keeps {s0 : State} (d peerAck : Nat) (s : State) (hk_s : Keeps s0 s) : KeepsRes s0 (execNarrowAlign d peerAck s) := by
  unfold execNarrowAlign
  (try dsimp only [State.fresh, State.freeVal])
  repeat' (first | with_reducible assumption | with_reducible apply onDie_keeps | with_reducible apply State.narrowDone_keeps | intro _ | (with_reducible refine Keeps.ite ?_ ?_) | split | (with_reducible refine KeepsRes.next ?_) | (with_reducible refine Keeps.upd ?_ rfl rfl rfl ?_; rotate_left; (fail_if_success with_reducible exact Moved.refl _); exact Moved.any _ _) | dsimp only)

theorem State.stepDown_keeps {s0 : State} (s : State) (d : Nat) (hk_s : Keeps s0 s) : Keeps s0 (State.stepDown s d) := by
  unfold State.stepDown
  (try dsimp only [State.fresh, State.freeVal])
  repeat' (first | with_reducible assumption | with_reducible apply State.modEth_keeps | with_reducible apply State.portDown_keeps | with_reducible apply State.startNarrow_keeps | intro _ | (with_reducible refine Keeps.ite ?_ ?_) | split | (with_reducible refine Keeps.snd ‹_› ?_) | (with_reducible refine Keeps.fst ‹_› ?_) | (with_reducible refine Keeps.upd ?_ rfl rfl rfl ?_; rotate_left; (fail_if_success with_reducible exact Moved.refl _); exact Moved.any _ _) | dsimp only)

theorem State.widenStart_keeps {s0 : State} (s : State) (d : Nat) (hk_s : Keeps s0 s) : Keeps s0 (State.widenStart s d) := by
  unfold State.widenStart
  (try dsimp only [State.fresh, State.freeVal])
  repeat' (first | with_reducible assumption | with_reducible apply State.setRbit_keeps | with_reducible apply State.modEth_keeps | intro _ | (with_reducible refine Keeps.ite ?_ ?_) | split | (with_reducible refine Keeps.upd ?_ rfl rfl rfl ?_; rotate_left; (fail_if_success with_reducible exact Moved.refl _); exact Moved.any _ _) | dsimp only)

theorem execWiden_keeps {s0 : State} (d : Nat) (s : State) (hk_s : Keeps s0 s) : KeepsRes s0 (execWiden d s) := by
  unfold execWiden
  (try dsimp only [State.fresh, State.freeVal])
  repeat' (first | with_reducible assumption | with_reducible apply onDie_keeps | with_reducible apply State.widenStart_keeps | intro _ | (with_reducible refine Keeps.ite ?_ ?_) | split | (with_reducible refine KeepsRes.next ?_) | (with_reducible refine Keeps.upd ?_ rfl rfl rfl ?_; rotate_left; (fail_if_success with_reducible exact Moved.refl _); exact Moved.any _ _) | dsimp only)

theorem execWidenTrainEnd_keeps {s0 : State} (d : Nat) (locked : List Nat) (s : State) (hk_s : Keeps s0 s) : KeepsRes s0 (execWidenTrainEnd d locked s) := by
  unfold execWidenTrainEnd
  (try dsimp only [State.fresh, State.freeVal])
  repeat' (first | with_reducible assumption | with_reducible apply onDie_keeps | with_reducible apply State.setRbit_keeps | with_reducible apply State.modEth_keeps | with_reducible apply State.ximelCtl_keeps | intro _ | (with_reducible refine Keeps.ite ?_ ?_) | split | (with_reducible refine KeepsRes.next ?_) | (with_reducible refine Keeps.upd ?_ rfl rfl rfl ?_; rotate_left; (fail_if_success with_reducible exact Moved.refl _); exact Moved.any _ _) | dsimp only)

theorem State.widenAsked_keeps {s0 : State} (s : State) (d : Nat) (hk_s : Keeps s0 s) : Keeps s0 (State.widenAsked s d) := by
  unfold State.widenAsked
  (try dsimp only [State.fresh, State.freeVal])
  repeat' (first | with_reducible assumption | with_reducible apply State.narrowAgree_keeps | intro _ | (with_reducible refine Keeps.ite ?_ ?_) | split | (with_reducible refine Keeps.upd ?_ rfl rfl rfl ?_; rotate_left; (fail_if_success with_reducible exact Moved.refl _); exact Moved.any _ _) | dsimp only)

theorem execWidenRequest_keeps {s0 : State} (c : CtlIn) (s : State) (hk_s : Keeps s0 s) : KeepsRes s0 (execWidenRequest c s) := by
  unfold execWidenRequest
  (try dsimp only [State.fresh, State.freeVal])
  repeat' (first | with_reducible assumption | with_reducible apply onDie_keeps | with_reducible apply State.ctlIn_keeps | with_reducible apply State.widenAsked_keeps | intro _ | (with_reducible refine Keeps.ite ?_ ?_) | split | (with_reducible refine KeepsRes.next ?_) | (with_reducible refine Keeps.upd ?_ rfl rfl rfl ?_; rotate_left; (fail_if_success with_reducible exact Moved.refl _); exact Moved.any _ _) | dsimp only)

theorem execWidenAck_keeps {s0 : State} (c : CtlIn) (s : State) (hk_s : Keeps s0 s) : KeepsRes s0 (execWidenAck c s) := by
  unfold execWidenAck
  (try dsimp only [State.fresh, State.freeVal])
  repeat' (first | with_reducible assumption | with_reducible apply onDie_keeps | with_reducible apply State.ctlIn_keeps | with_reducible apply State.narrowAcked_keeps | intro _ | (with_reducible refine Keeps.ite ?_ ?_) | split | (with_reducible refine KeepsRes.next ?_) | (with_reducible refine Keeps.upd ?_ rfl rfl rfl ?_; rotate_left; (fail_if_success with_reducible exact Moved.refl _); exact Moved.any _ _) | dsimp only)

theorem State.linkFrame_keeps {s0 : State} (s : State) (d : Nat) (f : Frame) (hk_s : Keeps s0 s) : Keeps s0 (State.linkFrame s d f) := by
  unfold State.linkFrame
  (try dsimp only [State.fresh, State.freeVal])
  repeat' (first | with_reducible assumption | with_reducible apply State.bump_keeps | with_reducible apply State.freeVal_keeps | with_reducible apply State.ximelData_keeps | with_reducible apply State.ctlIn_keeps | with_reducible apply State.ximelNak_keeps | with_reducible apply State.ximelCap_keeps | with_reducible apply State.narrowAsked_keeps | with_reducible apply State.narrowAcked_keeps | with_reducible apply State.widenAsked_keeps | intro _ | (with_reducible refine Keeps.ite ?_ ?_) | split | (with_reducible refine Keeps.snd ‹_› ?_) | (with_reducible refine Keeps.fst ‹_› ?_) | (with_reducible refine Keeps.upd ?_ rfl rfl rfl ?_; rotate_left; (fail_if_success with_reducible exact Moved.refl _); exact Moved.any _ _) | dsimp only)

theorem State.frameIn_keeps {s0 : State} (s : State) (d : Nat) (f : Frame) (hk_s : Keeps s0 s) : Keeps s0 (State.frameIn s d f) := by
  unfold State.frameIn
  (try dsimp only [State.fresh, State.freeVal])
  repeat' (first | with_reducible assumption | with_reducible apply State.countBroken_keeps | with_reducible apply State.deliver_keeps | with_reducible apply State.ximelData_keeps | with_reducible apply State.linkFrame_keeps | intro _ | (with_reducible refine Keeps.ite ?_ ?_) | split | (with_reducible refine Keeps.snd ‹_› ?_) | (with_reducible refine Keeps.fst ‹_› ?_) | (with_reducible refine Keeps.upd ?_ rfl rfl rfl ?_; rotate_left; (fail_if_success with_reducible exact Moved.refl _); exact Moved.any _ _) | dsimp only)

theorem execFrameReceive_keeps {s0 : State} (d : Nat) (f : Frame) (s : State) (hk_s : Keeps s0 s) : KeepsRes s0 (execFrameReceive d f s) := by
  unfold execFrameReceive
  (try dsimp only [State.fresh, State.freeVal])
  repeat' (first | with_reducible assumption | with_reducible apply onDie_keeps | with_reducible apply State.onFrame_keeps | with_reducible apply State.frameIn_keeps | intro _ | (with_reducible refine Keeps.ite ?_ ?_) | split | (with_reducible refine KeepsRes.next ?_) | (with_reducible refine Keeps.upd ?_ rfl rfl rfl ?_; rotate_left; (fail_if_success with_reducible exact Moved.refl _); exact Moved.any _ _) | dsimp only)

theorem execPauseFrameReceive_keeps {s0 : State} (d : Nat) (f : Frame) (s : State) (hk_s : Keeps s0 s) : KeepsRes s0 (execPauseFrameReceive d f s) := by
  unfold execPauseFrameReceive
  (try dsimp only [State.fresh, State.freeVal])
  repeat' (first | with_reducible assumption | with_reducible apply onDie_keeps | with_reducible apply State.onFrame_keeps | with_reducible apply State.frameIn_keeps | intro _ | (with_reducible refine Keeps.ite ?_ ?_) | split | (with_reducible refine KeepsRes.next ?_) | (with_reducible refine Keeps.upd ?_ rfl rfl rfl ?_; rotate_left; (fail_if_success with_reducible exact Moved.refl _); exact Moved.any _ _) | dsimp only)

theorem execPauseTimerExpire_keeps {s0 : State} (d prio : Nat) (s : State) (hk_s : Keeps s0 s) : KeepsRes s0 (execPauseTimerExpire d prio s) := by
  unfold execPauseTimerExpire
  (try dsimp only [State.fresh, State.freeVal])
  repeat' (first | with_reducible assumption | with_reducible apply onDie_keeps | with_reducible apply State.modEth_keeps | intro _ | (with_reducible refine Keeps.ite ?_ ?_) | split | (with_reducible refine KeepsRes.next ?_) | (with_reducible refine Keeps.upd ?_ rfl rfl rfl ?_; rotate_left; (fail_if_success with_reducible exact Moved.refl _); exact Moved.any _ _) | dsimp only)

theorem State.sendMacCtl_keeps {s0 : State} (s : State) (d : Nat) (x : PauseFrame) (hk_s : Keeps s0 s) : Keeps s0 (State.sendMacCtl s d x) := by
  unfold State.sendMacCtl
  (try dsimp only [State.fresh, State.freeVal])
  repeat' (first | with_reducible assumption | with_reducible apply State.bump_keeps | with_reducible apply State.modWire_keeps | with_reducible apply State.sendFrame_keeps | with_reducible apply State.sendNumbered_keeps | intro _ | (with_reducible refine Keeps.ite ?_ ?_) | split | (with_reducible refine Keeps.upd ?_ rfl rfl rfl ?_; rotate_left; (fail_if_success with_reducible exact Moved.refl _); exact Moved.any _ _) | dsimp only)

theorem State.sendPause_keeps {s0 : State} (s : State) (d : Nat) (ps : List Nat) (time : Nat) (hk_s : Keeps s0 s) : Keeps s0 (State.sendPause s d ps time) := by
  unfold State.sendPause
  (try dsimp only [State.fresh, State.freeVal])
  repeat' (first | with_reducible assumption | with_reducible apply State.sendMacCtl_keeps | intro _ | (with_reducible refine Keeps.ite ?_ ?_) | split | (with_reducible refine Keeps.upd ?_ rfl rfl rfl ?_; rotate_left; (fail_if_success with_reducible exact Moved.refl _); exact Moved.any _ _) | dsimp only)

theorem execPoolHighCross_keeps {s0 : State} (d : Nat) (prios : List Nat) (s : State) (hk_s : Keeps s0 s) : KeepsRes s0 (execPoolHighCross d prios s) := by
  unfold execPoolHighCross
  (try dsimp only [State.fresh, State.freeVal])
  repeat' (first | with_reducible assumption | with_reducible apply onDie_keeps | with_reducible apply State.modEth_keeps | with_reducible apply State.sendPause_keeps | intro _ | (with_reducible refine Keeps.ite ?_ ?_) | split | (with_reducible refine KeepsRes.next ?_) | (with_reducible refine Keeps.upd ?_ rfl rfl rfl ?_; rotate_left; (fail_if_success with_reducible exact Moved.refl _); exact Moved.any _ _) | dsimp only)

theorem execPoolLowCross_keeps {s0 : State} (d : Nat) (prios : List Nat) (s : State) (hk_s : Keeps s0 s) : KeepsRes s0 (execPoolLowCross d prios s) := by
  unfold execPoolLowCross
  (try dsimp only [State.fresh, State.freeVal])
  repeat' (first | with_reducible assumption | with_reducible apply onDie_keeps | with_reducible apply State.modEth_keeps | with_reducible apply State.sendPause_keeps | intro _ | (with_reducible refine Keeps.ite ?_ ?_) | split | (with_reducible refine KeepsRes.next ?_) | (with_reducible refine Keeps.upd ?_ rfl rfl rfl ?_; rotate_left; (fail_if_success with_reducible exact Moved.refl _); exact Moved.any _ _) | dsimp only)

theorem execPauseRepeat_keeps {s0 : State} (d prio : Nat) (s : State) (hk_s : Keeps s0 s) : KeepsRes s0 (execPauseRepeat d prio s) := by
  unfold execPauseRepeat
  (try dsimp only [State.fresh, State.freeVal])
  repeat' (first | with_reducible assumption | with_reducible apply onDie_keeps | with_reducible apply State.sendPause_keeps | intro _ | (with_reducible refine Keeps.ite ?_ ?_) | split | (with_reducible refine KeepsRes.next ?_) | (with_reducible refine Keeps.upd ?_ rfl rfl rfl ?_; rotate_left; (fail_if_success with_reducible exact Moved.refl _); exact Moved.any _ _) | dsimp only)

end Sys2Proof.Machine
end

