-- ==== Sys2Proof/Laws/KeepsTorus.lean ====
section
/-! SUPPORT. What the operations of Machine/Torus.lean keep: the queue, the part and the invariant. -/

namespace Sys2Proof.Machine

theorem State.queueRouted_keeps {s0 : State} (s : State) (d : Nat) (f : TxFrame) (hk_s : Keeps s0 s) : Keeps s0 (State.queueRouted s d f) := by
  unfold State.queueRouted
  (try dsimp only [State.fresh, State.freeVal])
  repeat' (first | with_reducible assumption | with_reducible apply State.modEth_keeps | with_reducible apply State.queueTx_keeps | intro _ | (with_reducible refine Keeps.ite ?_ ?_) | split | (with_reducible refine Keeps.snd ‹_› ?_) | (with_reducible refine Keeps.fst ‹_› ?_) | (with_reducible refine Keeps.upd ?_ rfl rfl rfl ?_; rotate_left; (fail_if_success with_reducible exact Moved.refl _); exact Moved.any _ _) | dsimp only)

theorem State.sendRouted_keeps {s0 : State} (s : State) (prio : Nat) (via : Option Nat) (item : TxItem) (hk_s : Keeps s0 s) : Keeps s0 (State.sendRouted s prio via item) := by
  unfold State.sendRouted
  (try dsimp only [State.fresh, State.freeVal])
  repeat' (first | with_reducible assumption | with_reducible apply State.bump_keeps | with_reducible apply State.queueRouted_keeps | intro _ | (with_reducible refine Keeps.ite ?_ ?_) | split | (with_reducible refine Keeps.snd ‹_› ?_) | (with_reducible refine Keeps.fst ‹_› ?_) | (with_reducible refine Keeps.upd ?_ rfl rfl rfl ?_; rotate_left; (fail_if_success with_reducible exact Moved.refl _); exact Moved.any _ _) | dsimp only)

theorem State.sendSide_keeps {s0 : State} (s : State) (prio mac : Nat) (item : TxItem) (hk_s : Keeps s0 s) : Keeps s0 (State.sendSide s prio mac item) := by
  unfold State.sendSide
  (try dsimp only [State.fresh, State.freeVal])
  repeat' (first | with_reducible assumption | with_reducible apply State.queueRouted_keeps | intro _ | (with_reducible refine Keeps.ite ?_ ?_) | split | (with_reducible refine Keeps.upd ?_ rfl rfl rfl ?_; rotate_left; (fail_if_success with_reducible exact Moved.refl _); exact Moved.any _ _) | dsimp only)

theorem State.takeRouted_keeps {s0 : State} (s : State) (d : Nat) (hk_s : Keeps s0 s) : Keeps s0 (State.takeRouted s d).2 := by
  unfold State.takeRouted
  (try dsimp only [State.fresh, State.freeVal])
  repeat' (first | with_reducible assumption | with_reducible apply State.modEth_keeps | intro _ | (with_reducible refine Keeps.ite ?_ ?_) | split | (with_reducible refine Keeps.upd ?_ rfl rfl rfl ?_; rotate_left; (fail_if_success with_reducible exact Moved.refl _); exact Moved.any _ _) | dsimp only)

theorem State.requeue_keeps {s0 : State} (s : State) (hk_s : Keeps s0 s) : Keeps s0 (State.requeue s) := by
  unfold State.requeue
  (try dsimp only [State.fresh, State.freeVal])
  repeat' (first | with_reducible assumption | with_reducible apply State.sendRouted_keeps | with_reducible apply State.takeRouted_keeps | with_reducible apply Keeps.foldl | with_reducible apply Keeps.foldlFst | with_reducible apply Keeps.foldlSnd | intro _ | (with_reducible refine Keeps.ite ?_ ?_) | split | (with_reducible refine Keeps.snd ‹_› ?_) | (with_reducible refine Keeps.fst ‹_› ?_) | (with_reducible refine Keeps.upd ?_ rfl rfl rfl ?_; rotate_left; (fail_if_success with_reducible exact Moved.refl _); exact Moved.any _ _) | dsimp only)

theorem State.linkCtl_keeps {s0 : State} (s : State) (d u : Nat) (nak : Bool) (hk_s : Keeps s0 s) : Keeps s0 (State.linkCtl s d u nak) := by
  unfold State.linkCtl
  (try dsimp only [State.fresh, State.freeVal])
  repeat' (first | with_reducible assumption | with_reducible apply State.modWire_keeps | with_reducible apply State.sendItem_keeps | intro _ | (with_reducible refine Keeps.ite ?_ ?_) | split | (with_reducible refine Keeps.upd ?_ rfl rfl rfl ?_; rotate_left; (fail_if_success with_reducible exact Moved.refl _); exact Moved.any _ _) | dsimp only)

theorem State.linkTake_keeps {s0 : State} (s : State) (d u seq ack : Nat) (hk_s : Keeps s0 s) : Keeps s0 (State.linkTake s d u seq ack).2 := by
  unfold State.linkTake
  (try dsimp only [State.fresh, State.freeVal])
  repeat' (first | with_reducible assumption | with_reducible apply State.modWire_keeps | with_reducible apply State.linkCtl_keeps | intro _ | (with_reducible refine Keeps.ite ?_ ?_) | split | (with_reducible refine Keeps.snd ‹_› ?_) | (with_reducible refine Keeps.fst ‹_› ?_) | (with_reducible refine Keeps.upd ?_ rfl rfl rfl ?_; rotate_left; (fail_if_success with_reducible exact Moved.refl _); exact Moved.any _ _) | dsimp only)

theorem State.linkResend_keeps {s0 : State} (s : State) (d u : Nat) (hk_s : Keeps s0 s) : Keeps s0 (State.linkResend s d u) := by
  unfold State.linkResend
  (try dsimp only [State.fresh, State.freeVal])
  repeat' (first | with_reducible assumption | with_reducible apply State.modWire_keeps | with_reducible apply State.retrainPort_keeps | intro _ | (with_reducible refine Keeps.ite ?_ ?_) | split | (with_reducible refine Keeps.upd ?_ rfl rfl rfl ?_; rotate_left; (fail_if_success with_reducible exact Moved.refl _); exact Moved.any _ _) | dsimp only)

theorem State.linkAckIn_keeps {s0 : State} (s : State) (d u ack : Nat) (hk_s : Keeps s0 s) : Keeps s0 (State.linkAckIn s d u ack) := by
  unfold State.linkAckIn
  (try dsimp only [State.fresh, State.freeVal])
  repeat' (first | with_reducible assumption | with_reducible apply State.modWire_keeps | intro _ | (with_reducible refine Keeps.ite ?_ ?_) | split | (with_reducible refine Keeps.upd ?_ rfl rfl rfl ?_; rotate_left; (fail_if_success with_reducible exact Moved.refl _); exact Moved.any _ _) | dsimp only)

theorem State.linkNakIn_keeps {s0 : State} (s : State) (d u ack : Nat) (hk_s : Keeps s0 s) : Keeps s0 (State.linkNakIn s d u ack) := by
  unfold State.linkNakIn
  (try dsimp only [State.fresh, State.freeVal])
  repeat' (first | with_reducible assumption | with_reducible apply State.linkResend_keeps | with_reducible apply State.linkAckIn_keeps | intro _ | (with_reducible refine Keeps.ite ?_ ?_) | split | (with_reducible refine Keeps.upd ?_ rfl rfl rfl ?_; rotate_left; (fail_if_success with_reducible exact Moved.refl _); exact Moved.any _ _) | dsimp only)

theorem State.linkAckTimer_keeps {s0 : State} (s : State) (d u : Nat) (hk_s : Keeps s0 s) : Keeps s0 (State.linkAckTimer s d u) := by
  unfold State.linkAckTimer
  (try dsimp only [State.fresh, State.freeVal])
  repeat' (first | with_reducible assumption | with_reducible apply State.linkCtl_keeps | intro _ | (with_reducible refine Keeps.ite ?_ ?_) | split | (with_reducible refine Keeps.upd ?_ rfl rfl rfl ?_; rotate_left; (fail_if_success with_reducible exact Moved.refl _); exact Moved.any _ _) | dsimp only)

theorem State.linkNakTimer_keeps {s0 : State} (s : State) (d u : Nat) (hk_s : Keeps s0 s) : Keeps s0 (State.linkNakTimer s d u) := by
  unfold State.linkNakTimer
  (try dsimp only [State.fresh, State.freeVal])
  repeat' (first | with_reducible assumption | with_reducible apply State.linkCtl_keeps | intro _ | (with_reducible refine Keeps.ite ?_ ?_) | split | (with_reducible refine Keeps.upd ?_ rfl rfl rfl ?_; rotate_left; (fail_if_success with_reducible exact Moved.refl _); exact Moved.any _ _) | dsimp only)

end Sys2Proof.Machine
end

