-- ==== Sys2Proof/Laws/KeepsOperands.lean ====
section
/-! SUPPORT. What the operations of Machine/Operands.lean keep: the queue, the part and the invariant. -/

namespace Sys2Proof.Machine

theorem State.askPage_keeps {s0 : State} (s : State) (n : Nat) (own : Bool) (hk_s : Keeps s0 s) : Keeps s0 (State.askPage s n own) := by
  unfold State.askPage
  (try dsimp only [State.fresh, State.freeVal])
  repeat' (first | with_reducible assumption | with_reducible apply State.bump_keeps | with_reducible apply State.emit_keeps | with_reducible apply Keeps.foldl | with_reducible apply Keeps.foldlFst | with_reducible apply Keeps.foldlSnd | intro _ | (with_reducible refine Keeps.ite ?_ ?_) | split | (with_reducible refine Keeps.upd ?_ rfl rfl rfl ?_; rotate_left; (fail_if_success with_reducible exact Moved.refl _); exact Moved.any _ _) | dsimp only)

theorem State.releasePage_keeps {s0 : State} (s : State) (n : Nat) (own : Bool) (hk_s : Keeps s0 s) : Keeps s0 (State.releasePage s n own) := by
  unfold State.releasePage
  (try dsimp only [State.fresh, State.freeVal])
  repeat' (first | with_reducible assumption | with_reducible apply State.emit_keeps | with_reducible apply Keeps.foldl | with_reducible apply Keeps.foldlFst | with_reducible apply Keeps.foldlSnd | intro _ | (with_reducible refine Keeps.ite ?_ ?_) | split | (with_reducible refine Keeps.upd ?_ rfl rfl rfl ?_; rotate_left; (fail_if_success with_reducible exact Moved.refl _); exact Moved.any _ _) | dsimp only)

theorem State.touched_keeps {s0 : State} (s : State) (w : Work) (rs : List Rng) (hk_s : Keeps s0 s) : Keeps s0 (State.touched s w rs) := by
  unfold State.touched
  (try dsimp only [State.fresh, State.freeVal])
  repeat' (first | with_reducible assumption | with_reducible apply State.touch_keeps | with_reducible apply State.hostReq_keeps | with_reducible apply Keeps.foldl | with_reducible apply Keeps.foldlFst | with_reducible apply Keeps.foldlSnd | intro _ | (with_reducible refine Keeps.ite ?_ ?_) | split | (with_reducible refine Keeps.upd ?_ rfl rfl rfl ?_; rotate_left; (fail_if_success with_reducible exact Moved.refl _); exact Moved.any _ _) | dsimp only)

theorem State.onRanges_keeps {s0 : State} (s : State) (w : Work) (rs : List Rng) (run : State → State) (hk_s : Keeps s0 s) (hk_run : ∀ y0, Keeps s0 y0 → Keeps s0 (run y0)) : Keeps s0 (State.onRanges s w rs run) := by
  unfold State.onRanges
  (try dsimp only [State.fresh, State.freeVal])
  repeat' (first | with_reducible assumption | with_reducible apply hk_run | with_reducible apply State.askPage_keeps | with_reducible apply State.releasePage_keeps | with_reducible apply State.touched_keeps | with_reducible apply Keeps.foldl | with_reducible apply Keeps.foldlFst | with_reducible apply Keeps.foldlSnd | intro _ | (with_reducible refine Keeps.ite ?_ ?_) | split | (with_reducible refine Keeps.upd ?_ rfl rfl rfl ?_; rotate_left; (fail_if_success with_reducible exact Moved.refl _); exact Moved.any _ _) | dsimp only)

theorem State.begin_keeps {s0 : State} (s : State) (id : Nat) (isKind : Work → Bool) (ranges : State → Work → List Rng) (codes : State → Work → List Nat) (body : State → Work → State) (hk_s : Keeps s0 s) (hk_body : ∀ y0 y1, Keeps s0 y0 → Keeps s0 (body y0 y1)) : Keeps s0 (State.begin s id isKind ranges codes body) := by
  unfold State.begin
  (try dsimp only [State.fresh, State.freeVal])
  repeat' (first | with_reducible assumption | with_reducible apply hk_body | with_reducible apply State.leaveIdle_keeps | with_reducible apply State.setAside_keeps | with_reducible apply State.latch_keeps | with_reducible apply State.refuse_keeps | with_reducible apply State.onRanges_keeps | intro _ | (with_reducible refine Keeps.ite ?_ ?_) | split | (with_reducible refine Keeps.snd ‹_› ?_) | (with_reducible refine Keeps.fst ‹_› ?_) | (with_reducible refine Keeps.upd ?_ rfl rfl rfl ?_; rotate_left; (fail_if_success with_reducible exact Moved.refl _); exact Moved.any _ _) | dsimp only)

theorem State.writeTile_keeps {s0 : State} (s : State) (a : Nat) (t : NewTile) (code scale : Nat → Nat) (meta? : Option (Nat → Nat → Nat)) (hk_s : Keeps s0 s) : Keeps s0 (State.writeTile s a t code scale meta?) := by
  unfold State.writeTile
  (try dsimp only [State.fresh, State.freeVal])
  repeat' (first | with_reducible assumption | with_reducible apply State.write_keeps | with_reducible apply Keeps.write | intro _ | (with_reducible refine Keeps.ite ?_ ?_) | split | (with_reducible refine Keeps.upd ?_ rfl rfl rfl ?_; rotate_left; (fail_if_success with_reducible exact Moved.refl _); exact Moved.any _ _) | dsimp only)

theorem State.putTile_keeps {s0 : State} (s : State) (a : Nat) (t : NewTile) (x : Converted) (hk_s : Keeps s0 s) : Keeps s0 (State.putTile s a t x) := by
  unfold State.putTile
  (try dsimp only [State.fresh, State.freeVal])
  repeat' (first | with_reducible assumption | with_reducible apply State.writeTile_keeps | intro _ | (with_reducible refine Keeps.ite ?_ ?_) | split | (with_reducible refine Keeps.upd ?_ rfl rfl rfl ?_; rotate_left; (fail_if_success with_reducible exact Moved.refl _); exact Moved.any _ _) | dsimp only)

end Sys2Proof.Machine
end

