-- ==== Sys2Proof/Laws/KeepsObjects.lean ====
section
/-! SUPPORT. What the operations of Machine/Objects.lean keep: the queue, the part and the invariant. -/

namespace Sys2Proof.Machine

theorem State.setTwin_keeps {s0 : State} (s : State) (d o : Nat) (t : Twin) (hk_s : Keeps s0 s) : Keeps s0 (State.setTwin s d o t) := by
  unfold State.setTwin
  (try dsimp only [State.fresh, State.freeVal])
  repeat' (first | with_reducible assumption | with_reducible apply State.write_keeps | with_reducible apply Keeps.write | intro _ | (with_reducible refine Keeps.ite ?_ ?_) | split | (with_reducible refine Keeps.upd ?_ rfl rfl rfl ?_; rotate_left; (fail_if_success with_reducible exact Moved.refl _); exact Moved.any _ _) | dsimp only)

theorem State.setObjBase_keeps {s0 : State} (s : State) (d o base : Nat) (hk_s : Keeps s0 s) : Keeps s0 (State.setObjBase s d o base) := by
  unfold State.setObjBase
  (try dsimp only [State.fresh, State.freeVal])
  repeat' (first | with_reducible assumption | with_reducible apply State.write_keeps | with_reducible apply Keeps.write | intro _ | (with_reducible refine Keeps.ite ?_ ?_) | split | (with_reducible refine Keeps.upd ?_ rfl rfl rfl ?_; rotate_left; (fail_if_success with_reducible exact Moved.refl _); exact Moved.any _ _) | dsimp only)

theorem State.stage_keeps {s0 : State} (s : State) (d o g : Nat) (hk_s : Keeps s0 s) : Keeps s0 (State.stage s d o g) := by
  unfold State.stage
  (try dsimp only [State.fresh, State.freeVal])
  repeat' (first | with_reducible assumption | with_reducible apply State.setTwin_keeps | intro _ | (with_reducible refine Keeps.ite ?_ ?_) | split | (with_reducible refine Keeps.upd ?_ rfl rfl rfl ?_; rotate_left; (fail_if_success with_reducible exact Moved.refl _); exact Moved.any _ _) | dsimp only)

theorem State.stageIf_keeps {s0 : State} (s : State) (w : Work) (obj : Nat) (hk_s : Keeps s0 s) : Keeps s0 (State.stageIf s w obj) := by
  unfold State.stageIf
  (try dsimp only [State.fresh, State.freeVal])
  repeat' (first | with_reducible assumption | with_reducible apply State.stage_keeps | intro _ | (with_reducible refine Keeps.ite ?_ ?_) | split | (with_reducible refine Keeps.upd ?_ rfl rfl rfl ?_; rotate_left; (fail_if_success with_reducible exact Moved.refl _); exact Moved.any _ _) | dsimp only)

end Sys2Proof.Machine
end

