-- ==== Sys2Proof/Laws/KeepsConvert.lean ====
section
/-! SUPPORT. What the operations of Machine/Convert.lean keep: the queue, the part and the invariant. -/

namespace Sys2Proof.Machine

theorem State.setHist_keeps {s0 : State} (s : State) (d h : Nat) (r : HRec) (hk_s : Keeps s0 s) : Keeps s0 (State.setHist s d h r) := by
  unfold State.setHist
  (try dsimp only [State.fresh, State.freeVal])
  repeat' (first | with_reducible assumption | with_reducible apply State.write_keeps | with_reducible apply Keeps.write | intro _ | (with_reducible refine Keeps.ite ?_ ?_) | split | (with_reducible refine Keeps.upd ?_ rfl rfl rfl ?_; rotate_left; (fail_if_success with_reducible exact Moved.refl _); exact Moved.any _ _) | dsimp only)

theorem State.queueFold_keeps {s0 : State} (s : State) (w : Work) (g : Scaling) (t : Stats) (poison : Bool) (hk_s : Keeps s0 s) : Keeps s0 (State.queueFold s w g t poison) := by
  unfold State.queueFold
  (try dsimp only [State.fresh, State.freeVal])
  repeat' (first | with_reducible assumption | intro _ | (with_reducible refine Keeps.ite ?_ ?_) | split | (with_reducible refine Keeps.upd ?_ rfl rfl rfl ?_; rotate_left; (fail_if_success with_reducible exact Moved.refl _); exact Moved.any _ _) | dsimp only)

theorem State.applyFold_keeps {s0 : State} (s : State) (f : Fold) (poison : Bool) (hk_s : Keeps s0 s) : Keeps s0 (State.applyFold s f poison) := by
  unfold State.applyFold
  (try dsimp only [State.fresh, State.freeVal])
  repeat' (first | with_reducible assumption | with_reducible apply State.bump_keeps | with_reducible apply State.write_keeps | with_reducible apply Keeps.write | intro _ | (with_reducible refine Keeps.ite ?_ ?_) | split | (with_reducible refine Keeps.upd ?_ rfl rfl rfl ?_; rotate_left; (fail_if_success with_reducible exact Moved.refl _); exact Moved.any _ _) | dsimp only)

theorem execHistFold_keeps {s0 : State} (id : Nat) (s : State) (hk_s : Keeps s0 s) : KeepsRes s0 (execHistFold id s) := by
  unfold execHistFold
  (try dsimp only [State.fresh, State.freeVal])
  repeat' (first | with_reducible assumption | with_reducible apply live_keeps | with_reducible apply State.applyFold_keeps | intro _ | (with_reducible refine Keeps.ite ?_ ?_) | split | (with_reducible refine Keeps.snd ‹_› ?_) | (with_reducible refine Keeps.fst ‹_› ?_) | (with_reducible refine KeepsRes.next ?_) | (with_reducible refine Keeps.upd ?_ rfl rfl rfl ?_; rotate_left; (fail_if_success with_reducible exact Moved.refl _); exact Moved.any _ _) | dsimp only)

theorem State.cvtOne_keeps {s0 : State} (w : Work) (g : Scaling) (c : Cvt) (dst : Dest) (first : Nat) (x : State × Tally) (t : Nat) (hk_x : Keeps s0 x.1) : Keeps s0 (State.cvtOne w g c dst first x t).1 := by
  unfold State.cvtOne
  (try dsimp only [State.fresh, State.freeVal])
  repeat' (first | with_reducible assumption | with_reducible apply State.bump_keeps | with_reducible apply State.putTile_keeps | intro _ | (with_reducible refine Keeps.ite ?_ ?_) | split | (with_reducible refine Keeps.snd ‹_› ?_) | (with_reducible refine Keeps.fst ‹_› ?_) | (with_reducible refine Keeps.upd ?_ rfl rfl rfl ?_; rotate_left; (fail_if_success with_reducible exact Moved.refl _); exact Moved.any _ _) | dsimp only)

theorem State.endTally_keeps {s0 : State} (s : State) (id : Nat) (y : Tally) (hk_s : Keeps s0 s) : Keeps s0 (State.endTally s id y) := by
  unfold State.endTally
  (try dsimp only [State.fresh, State.freeVal])
  repeat' (first | with_reducible assumption | with_reducible apply State.endWork_keeps | intro _ | (with_reducible refine Keeps.ite ?_ ?_) | split | (with_reducible refine Keeps.upd ?_ rfl rfl rfl ?_; rotate_left; (fail_if_success with_reducible exact Moved.refl _); exact Moved.any _ _) | dsimp only)

theorem State.cvtBody_keeps {s0 : State} (s : State) (w : Work) (hk_s : Keeps s0 s) : Keeps s0 (State.cvtBody s w) := by
  unfold State.cvtBody
  (try dsimp only [State.fresh, State.freeVal])
  repeat' (first | with_reducible assumption | with_reducible apply State.bump_keeps | with_reducible apply State.stageIf_keeps | with_reducible apply State.queueFold_keeps | with_reducible apply State.cvtOne_keeps | with_reducible apply State.endTally_keeps | with_reducible apply Keeps.foldl | with_reducible apply Keeps.foldlFst | with_reducible apply Keeps.foldlSnd | intro _ | (with_reducible refine Keeps.ite ?_ ?_) | split | (with_reducible refine Keeps.snd ‹_› ?_) | (with_reducible refine Keeps.fst ‹_› ?_) | (with_reducible refine Keeps.upd ?_ rfl rfl rfl ?_; rotate_left; (fail_if_success with_reducible exact Moved.refl _); exact Moved.any _ _) | dsimp only)

theorem execConvert_keeps {s0 : State} (id : Nat) (s : State) (hk_s : Keeps s0 s) : KeepsRes s0 (execConvert id s) := by
  unfold execConvert
  (try dsimp only [State.fresh, State.freeVal])
  repeat' (first | with_reducible assumption | with_reducible apply live_keeps | with_reducible apply State.begin_keeps | with_reducible apply State.cvtBody_keeps | intro _ | (with_reducible refine Keeps.ite ?_ ?_) | split | (with_reducible refine KeepsRes.next ?_) | (with_reducible refine Keeps.upd ?_ rfl rfl rfl ?_; rotate_left; (fail_if_success with_reducible exact Moved.refl _); exact Moved.any _ _) | dsimp only)

theorem State.closeSeen_keeps {s0 : State} (s : State) (r : HRec) (hk_s : Keeps s0 s) : Keeps s0 (State.closeSeen s r).1 := by
  unfold State.closeSeen
  (try dsimp only [State.fresh, State.freeVal])
  repeat' (first | with_reducible assumption | with_reducible apply State.writeN_keeps | intro _ | (with_reducible refine Keeps.ite ?_ ?_) | split | (with_reducible refine Keeps.upd ?_ rfl rfl rfl ?_; rotate_left; (fail_if_success with_reducible exact Moved.refl _); exact Moved.any _ _) | dsimp only)

theorem State.closeOne_keeps {s0 : State} (s : State) (d h : Nat) (hk_s : Keeps s0 s) : Keeps s0 (State.closeOne s d h) := by
  unfold State.closeOne
  (try dsimp only [State.fresh, State.freeVal])
  repeat' (first | with_reducible assumption | with_reducible apply State.bump_keeps | with_reducible apply State.event_keeps | with_reducible apply State.setHist_keeps | with_reducible apply State.closeSeen_keeps | intro _ | (with_reducible refine Keeps.ite ?_ ?_) | split | (with_reducible refine Keeps.snd ‹_› ?_) | (with_reducible refine Keeps.fst ‹_› ?_) | (with_reducible refine Keeps.upd ?_ rfl rfl rfl ?_; rotate_left; (fail_if_success with_reducible exact Moved.refl _); exact Moved.any _ _) | dsimp only)

theorem State.histRun_keeps {s0 : State} (s : State) (id op : Nat) (f : State → Work → Nat → State) (hk_s : Keeps s0 s) (hk_f : ∀ y0 y1 y2, Keeps s0 y0 → Keeps s0 (f y0 y1 y2)) : Keeps s0 (State.histRun s id op f) := by
  unfold State.histRun
  (try dsimp only [State.fresh, State.freeVal])
  repeat' (first | with_reducible assumption | with_reducible apply hk_f | with_reducible apply State.endStatus_keeps | with_reducible apply State.begin_keeps | with_reducible apply Keeps.foldl | with_reducible apply Keeps.foldlFst | with_reducible apply Keeps.foldlSnd | intro _ | (with_reducible refine Keeps.ite ?_ ?_) | split | (with_reducible refine Keeps.upd ?_ rfl rfl rfl ?_; rotate_left; (fail_if_success with_reducible exact Moved.refl _); exact Moved.any _ _) | dsimp only)

theorem execHistInit_keeps {s0 : State} (id : Nat) (s : State) (hk_s : Keeps s0 s) : KeepsRes s0 (execHistInit id s) := by
  unfold execHistInit
  (try dsimp only [State.fresh, State.freeVal])
  repeat' (first | with_reducible assumption | with_reducible apply live_keeps | with_reducible apply State.setHist_keeps | with_reducible apply State.histRun_keeps | intro _ | (with_reducible refine Keeps.ite ?_ ?_) | split | (with_reducible refine KeepsRes.next ?_) | (with_reducible refine Keeps.upd ?_ rfl rfl rfl ?_; rotate_left; (fail_if_success with_reducible exact Moved.refl _); exact Moved.any _ _) | dsimp only)

theorem execHistClose_keeps {s0 : State} (id : Nat) (s : State) (hk_s : Keeps s0 s) : KeepsRes s0 (execHistClose id s) := by
  unfold execHistClose
  (try dsimp only [State.fresh, State.freeVal])
  repeat' (first | with_reducible assumption | with_reducible apply live_keeps | with_reducible apply State.closeOne_keeps | with_reducible apply State.histRun_keeps | intro _ | (with_reducible refine Keeps.ite ?_ ?_) | split | (with_reducible refine KeepsRes.next ?_) | (with_reducible refine Keeps.upd ?_ rfl rfl rfl ?_; rotate_left; (fail_if_success with_reducible exact Moved.refl _); exact Moved.any _ _) | dsimp only)

theorem execHistRearm_keeps {s0 : State} (id : Nat) (s : State) (hk_s : Keeps s0 s) : KeepsRes s0 (execHistRearm id s) := by
  unfold execHistRearm
  (try dsimp only [State.fresh, State.freeVal])
  repeat' (first | with_reducible assumption | with_reducible apply live_keeps | with_reducible apply State.setHist_keeps | with_reducible apply State.histRun_keeps | intro _ | (with_reducible refine Keeps.ite ?_ ?_) | split | (with_reducible refine KeepsRes.next ?_) | (with_reducible refine Keeps.upd ?_ rfl rfl rfl ?_; rotate_left; (fail_if_success with_reducible exact Moved.refl _); exact Moved.any _ _) | dsimp only)

theorem execHistClear_keeps {s0 : State} (id : Nat) (s : State) (hk_s : Keeps s0 s) : KeepsRes s0 (execHistClear id s) := by
  unfold execHistClear
  (try dsimp only [State.fresh, State.freeVal])
  repeat' (first | with_reducible assumption | with_reducible apply live_keeps | with_reducible apply State.setHist_keeps | with_reducible apply State.histRun_keeps | intro _ | (with_reducible refine Keeps.ite ?_ ?_) | split | (with_reducible refine KeepsRes.next ?_) | (with_reducible refine Keeps.upd ?_ rfl rfl rfl ?_; rotate_left; (fail_if_success with_reducible exact Moved.refl _); exact Moved.any _ _) | dsimp only)

end Sys2Proof.Machine
end

