-- ==== Sys2Proof/Laws/KeepsMatrix.lean ====
section
/-! SUPPORT. What the operations of Machine/Matrix.lean keep: the queue, the part and the invariant. -/

namespace Sys2Proof.Machine

theorem State.setEng_keeps {s0 : State} (s : State) (x : Eng) (hk_s : Keeps s0 s) : Keeps s0 (State.setEng s x) := by
  unfold State.setEng
  (try dsimp only [State.fresh, State.freeVal])
  repeat' (first | with_reducible assumption | intro _ | (with_reducible refine Keeps.ite ?_ ?_) | split | (with_reducible refine Keeps.upd ?_ rfl rfl rfl ?_; rotate_left; (fail_if_success with_reducible exact Moved.refl _); exact Moved.any _ _) | dsimp only)

theorem State.mtxOne_keeps {s0 : State} (src : State) (w : Work) (g : Scaling) (c : Mtx) (dst : Dest) (x : State × Tally) (q : Nat) (hk_x : Keeps s0 x.1) : Keeps s0 (State.mtxOne src w g c dst x q).1 := by
  unfold State.mtxOne
  (try dsimp only [State.fresh, State.freeVal])
  repeat' (first | with_reducible assumption | with_reducible apply State.putTile_keeps | with_reducible apply Keeps.foldl | with_reducible apply Keeps.foldlFst | with_reducible apply Keeps.foldlSnd | intro _ | (with_reducible refine Keeps.ite ?_ ?_) | split | (with_reducible refine Keeps.snd ‹_› ?_) | (with_reducible refine Keeps.fst ‹_› ?_) | (with_reducible refine Keeps.upd ?_ rfl rfl rfl ?_; rotate_left; (fail_if_success with_reducible exact Moved.refl _); exact Moved.any _ _) | dsimp only)

theorem State.mtxBody_keeps {s0 : State} (s : State) (w : Work) (hk_s : Keeps s0 s) : Keeps s0 (State.mtxBody s w) := by
  unfold State.mtxBody
  (try dsimp only [State.fresh, State.freeVal])
  repeat' (first | with_reducible assumption | with_reducible apply State.bump_keeps | with_reducible apply State.scramble_keeps | with_reducible apply State.modWork_keeps | with_reducible apply State.endStatus_keeps | with_reducible apply State.stageIf_keeps | with_reducible apply State.queueFold_keeps | with_reducible apply State.setEng_keeps | with_reducible apply State.mtxOne_keeps | with_reducible apply Keeps.foldl | with_reducible apply Keeps.foldlFst | with_reducible apply Keeps.foldlSnd | intro _ | (with_reducible refine Keeps.ite ?_ ?_) | split | (with_reducible refine Keeps.snd ‹_› ?_) | (with_reducible refine Keeps.fst ‹_› ?_) | (with_reducible refine Keeps.upd ?_ rfl rfl rfl ?_; rotate_left; (fail_if_success with_reducible exact Moved.refl _); exact Moved.any _ _) | dsimp only)

theorem execMatrix_keeps {s0 : State} (id : Nat) (s : State) (hk_s : Keeps s0 s) : KeepsRes s0 (execMatrix id s) := by
  unfold execMatrix
  (try dsimp only [State.fresh, State.freeVal])
  repeat' (first | with_reducible assumption | with_reducible apply live_keeps | with_reducible apply State.begin_keeps | with_reducible apply State.mtxBody_keeps | intro _ | (with_reducible refine Keeps.ite ?_ ?_) | split | (with_reducible refine KeepsRes.next ?_) | (with_reducible refine Keeps.upd ?_ rfl rfl rfl ?_; rotate_left; (fail_if_success with_reducible exact Moved.refl _); exact Moved.any _ _) | dsimp only)

theorem State.release_keeps {s0 : State} (s : State) (id : Nat) (hk_s : Keeps s0 s) : Keeps s0 (State.release s id) := by
  unfold State.release
  (try dsimp only [State.fresh, State.freeVal])
  repeat' (first | with_reducible assumption | with_reducible apply State.write_keeps | with_reducible apply State.modWork_keeps | with_reducible apply Keeps.write | with_reducible apply Keeps.foldl | with_reducible apply Keeps.foldlFst | with_reducible apply Keeps.foldlSnd | intro _ | (with_reducible refine Keeps.ite ?_ ?_) | split | (with_reducible refine Keeps.snd ‹_› ?_) | (with_reducible refine Keeps.fst ‹_› ?_) | (with_reducible refine Keeps.upd ?_ rfl rfl rfl ?_; rotate_left; (fail_if_success with_reducible exact Moved.refl _); exact Moved.any _ _) | dsimp only)

theorem State.settleEng_keeps {s0 : State} (s : State) (x : Eng) (id tail : Nat) (hk_s : Keeps s0 s) : Keeps s0 (State.settleEng s x id tail) := by
  unfold State.settleEng
  (try dsimp only [State.fresh, State.freeVal])
  repeat' (first | with_reducible assumption | with_reducible apply State.bump_keeps | with_reducible apply State.endStatus_keeps | with_reducible apply State.setEng_keeps | with_reducible apply State.release_keeps | intro _ | (with_reducible refine Keeps.ite ?_ ?_) | split | (with_reducible refine Keeps.upd ?_ rfl rfl rfl ?_; rotate_left; (fail_if_success with_reducible exact Moved.refl _); exact Moved.any _ _) | dsimp only)

theorem execStationaryLoad_keeps {s0 : State} (d e staged : Nat) (s : State) (hk_s : Keeps s0 s) : KeepsRes s0 (execStationaryLoad d e staged s) := by
  unfold execStationaryLoad
  (try dsimp only [State.fresh, State.freeVal])
  repeat' (first | with_reducible assumption | with_reducible apply onDie_keeps | with_reducible apply State.setEng_keeps | intro _ | (with_reducible refine Keeps.ite ?_ ?_) | split | (with_reducible refine Keeps.snd ‹_› ?_) | (with_reducible refine Keeps.fst ‹_› ?_) | (with_reducible refine KeepsRes.next ?_) | (with_reducible refine Keeps.upd ?_ rfl rfl rfl ?_; rotate_left; (fail_if_success with_reducible exact Moved.refl _); exact Moved.any _ _) | dsimp only)

theorem execPassStart_keeps {s0 : State} (d e : Nat) (g : Gaps) (b k : Waits) (s : State) (hk_s : Keeps s0 s) : KeepsRes s0 (execPassStart d e g b k s) := by
  unfold execPassStart
  (try dsimp only [State.fresh, State.freeVal])
  repeat' (first | with_reducible assumption | with_reducible apply onDie_keeps | with_reducible apply State.bump_keeps | with_reducible apply State.settleEng_keeps | with_reducible apply Keeps.foldl | with_reducible apply Keeps.foldlFst | with_reducible apply Keeps.foldlSnd | intro _ | (with_reducible refine Keeps.ite ?_ ?_) | split | (with_reducible refine Keeps.snd ‹_› ?_) | (with_reducible refine Keeps.fst ‹_› ?_) | (with_reducible refine KeepsRes.next ?_) | (with_reducible refine Keeps.upd ?_ rfl rfl rfl ?_; rotate_left; (fail_if_success with_reducible exact Moved.refl _); exact Moved.any _ _) | dsimp only)

theorem execPassSkip_keeps {s0 : State} (d e : Nat) (s : State) (hk_s : Keeps s0 s) : KeepsRes s0 (execPassSkip d e s) := by
  unfold execPassSkip
  (try dsimp only [State.fresh, State.freeVal])
  repeat' (first | with_reducible assumption | with_reducible apply onDie_keeps | with_reducible apply State.bump_keeps | with_reducible apply State.settleEng_keeps | intro _ | (with_reducible refine Keeps.ite ?_ ?_) | split | (with_reducible refine Keeps.snd ‹_› ?_) | (with_reducible refine Keeps.fst ‹_› ?_) | (with_reducible refine KeepsRes.next ?_) | (with_reducible refine Keeps.upd ?_ rfl rfl rfl ?_; rotate_left; (fail_if_success with_reducible exact Moved.refl _); exact Moved.any _ _) | dsimp only)

theorem execDrainRowTake_keeps {s0 : State} (k : RowTake) (s : State) (hk_s : Keeps s0 s) : KeepsRes s0 (execDrainRowTake k s) := by
  unfold execDrainRowTake
  (try dsimp only [State.fresh, State.freeVal])
  repeat' (first | with_reducible assumption | with_reducible apply onDie_keeps | with_reducible apply State.bump_keeps | with_reducible apply State.settleEng_keeps | intro _ | (with_reducible refine Keeps.ite ?_ ?_) | split | (with_reducible refine Keeps.snd ‹_› ?_) | (with_reducible refine Keeps.fst ‹_› ?_) | (with_reducible refine KeepsRes.next ?_) | (with_reducible refine Keeps.upd ?_ rfl rfl rfl ?_; rotate_left; (fail_if_success with_reducible exact Moved.refl _); exact Moved.any _ _) | dsimp only)

end Sys2Proof.Machine
end

