-- ==== Sys2Proof/Laws/KeepsRouter.lean ====
section
/-! SUPPORT. What the operations of Machine/Router.lean keep: the queue, the part and the invariant. -/

namespace Sys2Proof.Machine

theorem State.gateBody_keeps {s0 : State} (s : State) (w : Work) (hk_s : Keeps s0 s) : Keeps s0 (State.gateBody s w) := by
  unfold State.gateBody
  (try dsimp only [State.fresh, State.freeVal])
  repeat' (first | with_reducible assumption | with_reducible apply State.bump_keeps | with_reducible apply State.write_keeps | with_reducible apply State.endWork_keeps | with_reducible apply Keeps.write | with_reducible apply Keeps.foldl | with_reducible apply Keeps.foldlFst | with_reducible apply Keeps.foldlSnd | intro _ | (with_reducible refine Keeps.ite ?_ ?_) | split | (with_reducible refine Keeps.snd ‹_› ?_) | (with_reducible refine Keeps.fst ‹_› ?_) | (with_reducible refine Keeps.upd ?_ rfl rfl rfl ?_; rotate_left; (fail_if_success with_reducible exact Moved.refl _); exact Moved.any _ _) | dsimp only)

theorem execGate_keeps {s0 : State} (id : Nat) (s : State) (hk_s : Keeps s0 s) : KeepsRes s0 (execGate id s) := by
  unfold execGate
  (try dsimp only [State.fresh, State.freeVal])
  repeat' (first | with_reducible assumption | with_reducible apply live_keeps | with_reducible apply State.begin_keeps | with_reducible apply State.gateBody_keeps | intro _ | (with_reducible refine Keeps.ite ?_ ?_) | split | (with_reducible refine KeepsRes.next ?_) | (with_reducible refine Keeps.upd ?_ rfl rfl rfl ?_; rotate_left; (fail_if_success with_reducible exact Moved.refl _); exact Moved.any _ _) | dsimp only)

theorem State.deliverWords_keeps {s0 : State} (s : State) (ws : List AWord) (parity : List Nat) (hk_s : Keeps s0 s) : Keeps s0 (State.deliverWords s ws parity).2 := by
  unfold State.deliverWords
  (try dsimp only [State.fresh, State.freeVal])
  repeat' (first | with_reducible assumption | with_reducible apply State.freeVal_keeps | with_reducible apply Keeps.foldl | with_reducible apply Keeps.foldlFst | with_reducible apply Keeps.foldlSnd | intro _ | (with_reducible refine Keeps.ite ?_ ?_) | split | (with_reducible refine Keeps.snd ‹_› ?_) | (with_reducible refine Keeps.fst ‹_› ?_) | (with_reducible refine Keeps.upd ?_ rfl rfl rfl ?_; rotate_left; (fail_if_success with_reducible exact Moved.refl _); exact Moved.any _ _) | dsimp only)

theorem State.countPoisoned_keeps {s0 : State} (s : State) (d n : Nat) (hk_s : Keeps s0 s) : Keeps s0 (State.countPoisoned s d n) := by
  unfold State.countPoisoned
  (try dsimp only [State.fresh, State.freeVal])
  repeat' (first | with_reducible assumption | with_reducible apply State.bumpErr_keeps | intro _ | (with_reducible refine Keeps.ite ?_ ?_) | split | (with_reducible refine Keeps.upd ?_ rfl rfl rfl ?_; rotate_left; (fail_if_success with_reducible exact Moved.refl _); exact Moved.any _ _) | dsimp only)

theorem execRouterCombine_keeps {s0 : State} (d p src dst : Nat) (tokens : TokenWords) (width ofmt rnd : Nat) (sat : Bool) (srStep : W32) (s : State) (hk_s : Keeps s0 s) : KeepsRes s0 (execRouterCombine d p src dst tokens width ofmt rnd sat srStep s) := by
  unfold execRouterCombine
  (try dsimp only [State.fresh, State.freeVal])
  repeat' (first | with_reducible assumption | with_reducible apply onDie_keeps | with_reducible apply State.freeVal_keeps | with_reducible apply State.scramble_keeps | with_reducible apply State.putTile_keeps | with_reducible apply State.deliverWords_keeps | with_reducible apply State.countPoisoned_keeps | with_reducible apply Keeps.foldl | with_reducible apply Keeps.foldlFst | with_reducible apply Keeps.foldlSnd | intro _ | (with_reducible refine Keeps.ite ?_ ?_) | split | (with_reducible refine Keeps.snd ‹_› ?_) | (with_reducible refine Keeps.fst ‹_› ?_) | (with_reducible refine KeepsRes.next ?_) | (with_reducible refine Keeps.upd ?_ rfl rfl rfl ?_; rotate_left; (fail_if_success with_reducible exact Moved.refl _); exact Moved.any _ _) | dsimp only)

end Sys2Proof.Machine
end

