-- ==== Sys2Proof/Laws/KeepsVolume.lean ====
section
/-! SUPPORT. What the operations of Machine/Volume.lean keep: the queue, the part and the invariant. -/

namespace Sys2Proof.Machine

theorem State.flashStore_keeps {s0 : State} (s : State) (port lba : Nat) (bs : List Byte) (hk_s : Keeps s0 s) : Keeps s0 (State.flashStore s port lba bs) := by
  unfold State.flashStore
  (try dsimp only [State.fresh, State.freeVal])
  repeat' (first | with_reducible assumption | intro _ | (with_reducible refine Keeps.ite ?_ ?_) | split | (with_reducible refine Keeps.upd ?_ rfl rfl rfl ?_; rotate_left; (fail_if_success with_reducible exact Moved.refl _); exact Moved.any _ _) | dsimp only)

theorem State.setDirty_keeps {s0 : State} (s : State) (port lba units : Nat) (on : Bool) (hk_s : Keeps s0 s) : Keeps s0 (State.setDirty s port lba units on) := by
  unfold State.setDirty
  (try dsimp only [State.fresh, State.freeVal])
  repeat' (first | with_reducible assumption | with_reducible apply Keeps.foldl | with_reducible apply Keeps.foldlFst | with_reducible apply Keeps.foldlSnd | intro _ | (with_reducible refine Keeps.ite ?_ ?_) | split | (with_reducible refine Keeps.upd ?_ rfl rfl rfl ?_; rotate_left; (fail_if_success with_reducible exact Moved.refl _); exact Moved.any _ _) | dsimp only)

theorem State.blurUnit_keeps {s0 : State} (s : State) (port lba : Nat) (hk_s : Keeps s0 s) : Keeps s0 (State.blurUnit s port lba) := by
  unfold State.blurUnit
  (try dsimp only [State.fresh, State.freeVal])
  repeat' (first | with_reducible assumption | with_reducible apply State.fresh_keeps | with_reducible apply State.flashStore_keeps | intro _ | (with_reducible refine Keeps.ite ?_ ?_) | split | (with_reducible refine Keeps.snd ‹_› ?_) | (with_reducible refine Keeps.fst ‹_› ?_) | (with_reducible refine Keeps.upd ?_ rfl rfl rfl ?_; rotate_left; (fail_if_success with_reducible exact Moved.refl _); exact Moved.any _ _) | dsimp only)

theorem State.blurMoved_keeps {s0 : State} (s : State) (y : Xfer) (hits : List (Nat × Nat)) (p : Piece) (hk_s : Keeps s0 s) : Keeps s0 (State.blurMoved s y hits p) := by
  unfold State.blurMoved
  (try dsimp only [State.fresh, State.freeVal])
  repeat' (first | with_reducible assumption | with_reducible apply State.scramble_keeps | with_reducible apply Keeps.foldl | with_reducible apply Keeps.foldlFst | with_reducible apply Keeps.foldlSnd | intro _ | (with_reducible refine Keeps.ite ?_ ?_) | split | (with_reducible refine Keeps.upd ?_ rfl rfl rfl ?_; rotate_left; (fail_if_success with_reducible exact Moved.refl _); exact Moved.any _ _) | dsimp only)

theorem State.clash_keeps {s0 : State} (s : State) (y : Xfer) (hits : List (Nat × Nat)) (hk_s : Keeps s0 s) : Keeps s0 (State.clash s y hits) := by
  unfold State.clash
  (try dsimp only [State.fresh, State.freeVal])
  repeat' (first | with_reducible assumption | with_reducible apply State.blurUnit_keeps | with_reducible apply State.blurMoved_keeps | with_reducible apply Keeps.foldl | with_reducible apply Keeps.foldlFst | with_reducible apply Keeps.foldlSnd | intro _ | (with_reducible refine Keeps.ite ?_ ?_) | split | (with_reducible refine Keeps.upd ?_ rfl rfl rfl ?_; rotate_left; (fail_if_success with_reducible exact Moved.refl _); exact Moved.any _ _) | dsimp only)

theorem State.startXfer_keeps {s0 : State} (s : State) (x : Xfer) (hk_s : Keeps s0 s) : Keeps s0 (State.startXfer s x) := by
  unfold State.startXfer
  (try dsimp only [State.fresh, State.freeVal])
  repeat' (first | with_reducible assumption | with_reducible apply State.bump_keeps | with_reducible apply State.clash_keeps | with_reducible apply Keeps.foldl | with_reducible apply Keeps.foldlFst | with_reducible apply Keeps.foldlSnd | intro _ | (with_reducible refine Keeps.ite ?_ ?_) | split | (with_reducible refine Keeps.upd ?_ rfl rfl rfl ?_; rotate_left; (fail_if_success with_reducible exact Moved.refl _); exact Moved.any _ _) | dsimp only)

theorem State.pieceDone_keeps {s0 : State} (s : State) (x : Xfer) (p : Piece) (hk_s : Keeps s0 s) : Keeps s0 (State.pieceDone s x p) := by
  unfold State.pieceDone
  (try dsimp only [State.fresh, State.freeVal])
  repeat' (first | with_reducible assumption | with_reducible apply State.bump_keeps | with_reducible apply State.fresh_keeps | with_reducible apply State.write_keeps | with_reducible apply State.modWork_keeps | with_reducible apply State.flashStore_keeps | with_reducible apply State.setDirty_keeps | with_reducible apply Keeps.write | intro _ | (with_reducible refine Keeps.ite ?_ ?_) | split | (with_reducible refine Keeps.snd ‹_› ?_) | (with_reducible refine Keeps.fst ‹_› ?_) | (with_reducible refine Keeps.upd ?_ rfl rfl rfl ?_; rotate_left; (fail_if_success with_reducible exact Moved.refl _); exact Moved.any _ _) | dsimp only)

theorem State.settleXfer_keeps {s0 : State} (s : State) (id : Nat) (hk_s : Keeps s0 s) : Keeps s0 (State.settleXfer s id) := by
  unfold State.settleXfer
  (try dsimp only [State.fresh, State.freeVal])
  repeat' (first | with_reducible assumption | with_reducible apply State.endWork_keeps | intro _ | (with_reducible refine Keeps.ite ?_ ?_) | split | (with_reducible refine Keeps.snd ‹_› ?_) | (with_reducible refine Keeps.fst ‹_› ?_) | (with_reducible refine Keeps.upd ?_ rfl rfl rfl ?_; rotate_left; (fail_if_success with_reducible exact Moved.refl _); exact Moved.any _ _) | dsimp only)

theorem State.setPiece_keeps {s0 : State} (s : State) (id i st : Nat) (hk_s : Keeps s0 s) : Keeps s0 (State.setPiece s id i st) := by
  unfold State.setPiece
  (try dsimp only [State.fresh, State.freeVal])
  repeat' (first | with_reducible assumption | intro _ | (with_reducible refine Keeps.ite ?_ ?_) | split | (with_reducible refine Keeps.upd ?_ rfl rfl rfl ?_; rotate_left; (fail_if_success with_reducible exact Moved.refl _); exact Moved.any _ _) | dsimp only)

theorem State.failPiece_keeps {s0 : State} (s : State) (x : Xfer) (i : Nat) (p : Piece) (dword : Nat) (hk_s : Keeps s0 s) : Keeps s0 (State.failPiece s x i p dword) := by
  unfold State.failPiece
  (try dsimp only [State.fresh, State.freeVal])
  repeat' (first | with_reducible assumption | with_reducible apply State.modWork_keeps | with_reducible apply State.settleXfer_keeps | with_reducible apply State.setPiece_keeps | intro _ | (with_reducible refine Keeps.ite ?_ ?_) | split | (with_reducible refine Keeps.upd ?_ rfl rfl rfl ?_; rotate_left; (fail_if_success with_reducible exact Moved.refl _); exact Moved.any _ _) | dsimp only)

theorem State.failPort_keeps {s0 : State} (s : State) (port : Nat) (hk_s : Keeps s0 s) : Keeps s0 (State.failPort s port) := by
  unfold State.failPort
  (try dsimp only [State.fresh, State.freeVal])
  repeat' (first | with_reducible assumption | with_reducible apply State.failPiece_keeps | with_reducible apply Keeps.foldl | with_reducible apply Keeps.foldlFst | with_reducible apply Keeps.foldlSnd | intro _ | (with_reducible refine Keeps.ite ?_ ?_) | split | (with_reducible refine Keeps.upd ?_ rfl rfl rfl ?_; rotate_left; (fail_if_success with_reducible exact Moved.refl _); exact Moved.any _ _) | dsimp only)

theorem State.stray_keeps {s0 : State} (s : State) (port a : Nat) (hk_s : Keeps s0 s) : Keeps s0 (State.stray s port a) := by
  unfold State.stray
  (try dsimp only [State.fresh, State.freeVal])
  repeat' (first | with_reducible assumption | with_reducible apply State.emit_keeps | intro _ | (with_reducible refine Keeps.ite ?_ ?_) | split | (with_reducible refine Keeps.upd ?_ rfl rfl rfl ?_; rotate_left; (fail_if_success with_reducible exact Moved.refl _); exact Moved.any _ _) | dsimp only)

theorem execFlashPieceComplete_keeps {s0 : State} (id piece : Nat) (x : DriveEnd) (s : State) (hk_s : Keeps s0 s) : KeepsRes s0 (execFlashPieceComplete id piece x s) := by
  unfold execFlashPieceComplete
  (try dsimp only [State.fresh, State.freeVal])
  repeat' (first | with_reducible assumption | with_reducible apply live_keeps | with_reducible apply State.bump_keeps | with_reducible apply State.pieceDone_keeps | with_reducible apply State.settleXfer_keeps | with_reducible apply State.setPiece_keeps | with_reducible apply State.failPiece_keeps | with_reducible apply State.stray_keeps | with_reducible apply Keeps.foldl | with_reducible apply Keeps.foldlFst | with_reducible apply Keeps.foldlSnd | intro _ | (with_reducible refine Keeps.ite ?_ ?_) | split | (with_reducible refine Keeps.snd ‹_› ?_) | (with_reducible refine Keeps.fst ‹_› ?_) | (with_reducible refine KeepsRes.next ?_) | (with_reducible refine Keeps.upd ?_ rfl rfl rfl ?_; rotate_left; (fail_if_success with_reducible exact Moved.refl _); exact Moved.any _ _) | dsimp only)

theorem execFlashPieceTimeout_keeps {s0 : State} (id piece : Nat) (s : State) (hk_s : Keeps s0 s) : KeepsRes s0 (execFlashPieceTimeout id piece s) := by
  unfold execFlashPieceTimeout
  (try dsimp only [State.fresh, State.freeVal])
  repeat' (first | with_reducible assumption | with_reducible apply live_keeps | with_reducible apply State.bump_keeps | with_reducible apply State.setPiece_keeps | intro _ | (with_reducible refine Keeps.ite ?_ ?_) | split | (with_reducible refine Keeps.snd ‹_› ?_) | (with_reducible refine Keeps.fst ‹_› ?_) | (with_reducible refine KeepsRes.next ?_) | (with_reducible refine Keeps.upd ?_ rfl rfl rfl ?_; rotate_left; (fail_if_success with_reducible exact Moved.refl _); exact Moved.any _ _) | dsimp only)

theorem execFlashAbortTimeout_keeps {s0 : State} (port : Nat) (s : State) (hk_s : Keeps s0 s) : KeepsRes s0 (execFlashAbortTimeout port s) := by
  unfold execFlashAbortTimeout
  (try dsimp only [State.fresh, State.freeVal])
  repeat' (first | with_reducible assumption | with_reducible apply onDie_keeps | with_reducible apply State.failPort_keeps | intro _ | (with_reducible refine Keeps.ite ?_ ?_) | split | (with_reducible refine KeepsRes.next ?_) | (with_reducible refine Keeps.upd ?_ rfl rfl rfl ?_; rotate_left; (fail_if_success with_reducible exact Moved.refl _); exact Moved.any _ _) | dsimp only)

theorem State.flashBody_keeps {s0 : State} (s : State) (w : Work) (hk_s : Keeps s0 s) : Keeps s0 (State.flashBody s w) := by
  unfold State.flashBody
  (try dsimp only [State.fresh, State.freeVal])
  repeat' (first | with_reducible assumption | with_reducible apply State.stageIf_keeps | with_reducible apply State.startXfer_keeps | intro _ | (with_reducible refine Keeps.ite ?_ ?_) | split | (with_reducible refine Keeps.upd ?_ rfl rfl rfl ?_; rotate_left; (fail_if_success with_reducible exact Moved.refl _); exact Moved.any _ _) | dsimp only)

theorem State.flash1_keeps {s0 : State} (s : State) (id : Nat) (op : Nat → Bool) (hk_s : Keeps s0 s) : KeepsRes s0 (State.flash1 s id op) := by
  unfold State.flash1
  (try dsimp only [State.fresh, State.freeVal])
  repeat' (first | with_reducible assumption | with_reducible apply live_keeps | with_reducible apply State.begin_keeps | with_reducible apply State.flashBody_keeps | intro _ | (with_reducible refine Keeps.ite ?_ ?_) | split | (with_reducible refine KeepsRes.next ?_) | (with_reducible refine Keeps.upd ?_ rfl rfl rfl ?_; rotate_left; (fail_if_success with_reducible exact Moved.refl _); exact Moved.any _ _) | dsimp only)

theorem execFlashRead_keeps {s0 : State} (id : Nat) (s : State) (hk_s : Keeps s0 s) : KeepsRes s0 (execFlashRead id s) := by
  unfold execFlashRead
  (try dsimp only [State.fresh, State.freeVal])
  repeat' (first | with_reducible assumption | with_reducible apply State.flash1_keeps | intro _ | (with_reducible refine Keeps.ite ?_ ?_) | split | (with_reducible refine KeepsRes.next ?_) | (with_reducible refine Keeps.upd ?_ rfl rfl rfl ?_; rotate_left; (fail_if_success with_reducible exact Moved.refl _); exact Moved.any _ _) | dsimp only)

theorem execFlashWrite_keeps {s0 : State} (id : Nat) (s : State) (hk_s : Keeps s0 s) : KeepsRes s0 (execFlashWrite id s) := by
  unfold execFlashWrite
  (try dsimp only [State.fresh, State.freeVal])
  repeat' (first | with_reducible assumption | with_reducible apply State.flash1_keeps | intro _ | (with_reducible refine Keeps.ite ?_ ?_) | split | (with_reducible refine KeepsRes.next ?_) | (with_reducible refine Keeps.upd ?_ rfl rfl rfl ?_; rotate_left; (fail_if_success with_reducible exact Moved.refl _); exact Moved.any _ _) | dsimp only)

theorem execFlashZero_keeps {s0 : State} (id : Nat) (s : State) (hk_s : Keeps s0 s) : KeepsRes s0 (execFlashZero id s) := by
  unfold execFlashZero
  (try dsimp only [State.fresh, State.freeVal])
  repeat' (first | with_reducible assumption | with_reducible apply State.flash1_keeps | intro _ | (with_reducible refine Keeps.ite ?_ ?_) | split | (with_reducible refine KeepsRes.next ?_) | (with_reducible refine Keeps.upd ?_ rfl rfl rfl ?_; rotate_left; (fail_if_success with_reducible exact Moved.refl _); exact Moved.any _ _) | dsimp only)

theorem execFlashTrim_keeps {s0 : State} (id : Nat) (s : State) (hk_s : Keeps s0 s) : KeepsRes s0 (execFlashTrim id s) := by
  unfold execFlashTrim
  (try dsimp only [State.fresh, State.freeVal])
  repeat' (first | with_reducible assumption | with_reducible apply State.flash1_keeps | intro _ | (with_reducible refine Keeps.ite ?_ ?_) | split | (with_reducible refine KeepsRes.next ?_) | (with_reducible refine Keeps.upd ?_ rfl rfl rfl ?_; rotate_left; (fail_if_success with_reducible exact Moved.refl _); exact Moved.any _ _) | dsimp only)

theorem execFlashFlush_keeps {s0 : State} (id : Nat) (s : State) (hk_s : Keeps s0 s) : KeepsRes s0 (execFlashFlush id s) := by
  unfold execFlashFlush
  (try dsimp only [State.fresh, State.freeVal])
  repeat' (first | with_reducible assumption | with_reducible apply State.flash1_keeps | intro _ | (with_reducible refine Keeps.ite ?_ ?_) | split | (with_reducible refine KeepsRes.next ?_) | (with_reducible refine Keeps.upd ?_ rfl rfl rfl ?_; rotate_left; (fail_if_success with_reducible exact Moved.refl _); exact Moved.any _ _) | dsimp only)

theorem State.releaseKept_keeps {s0 : State} (s : State) (pick : Kept → Bool) (hk_s : Keeps s0 s) : Keeps s0 (State.releaseKept s pick) := by
  unfold State.releaseKept
  (try dsimp only [State.fresh, State.freeVal])
  repeat' (first | with_reducible assumption | with_reducible apply State.setRegN_keeps | with_reducible apply Keeps.foldl | with_reducible apply Keeps.foldlFst | with_reducible apply Keeps.foldlSnd | intro _ | (with_reducible refine Keeps.ite ?_ ?_) | split | (with_reducible refine Keeps.upd ?_ rfl rfl rfl ?_; rotate_left; (fail_if_success with_reducible exact Moved.refl _); exact Moved.any _ _) | dsimp only)

theorem State.claimKept_keeps {s0 : State} (s : State) (d p obj budget : Nat) (hk_s : Keeps s0 s) : Keeps s0 (State.claimKept s d p obj budget) := by
  unfold State.claimKept
  (try dsimp only [State.fresh, State.freeVal])
  repeat' (first | with_reducible assumption | with_reducible apply State.setRegN_keeps | intro _ | (with_reducible refine Keeps.ite ?_ ?_) | split | (with_reducible refine Keeps.upd ?_ rfl rfl rfl ?_; rotate_left; (fail_if_success with_reducible exact Moved.refl _); exact Moved.any _ _) | dsimp only)

theorem State.rasLogAdd_keeps {s0 : State} (s : State) (d addr src refetch owner : Nat) (hk_s : Keeps s0 s) : Keeps s0 (State.rasLogAdd s d addr src refetch owner) := by
  unfold State.rasLogAdd
  (try dsimp only [State.fresh, State.freeVal])
  repeat' (first | with_reducible assumption | with_reducible apply State.setRegN_keeps | intro _ | (with_reducible refine Keeps.ite ?_ ?_) | split | (with_reducible refine Keeps.upd ?_ rfl rfl rfl ?_; rotate_left; (fail_if_success with_reducible exact Moved.refl _); exact Moved.any _ _) | dsimp only)

theorem State.refetchEnd_keeps {s0 : State} (s : State) (d : Nat) (ok : Bool) (hk_s : Keeps s0 s) : Keeps s0 (State.refetchEnd s d ok) := by
  unfold State.refetchEnd
  (try dsimp only [State.fresh, State.freeVal])
  repeat' (first | with_reducible assumption | with_reducible apply State.setRbit_keeps | with_reducible apply State.bump_keeps | with_reducible apply State.write_keeps | with_reducible apply State.access_keeps | with_reducible apply State.rasLogAdd_keeps | with_reducible apply Keeps.write | intro _ | (with_reducible refine Keeps.ite ?_ ?_) | split | (with_reducible refine Keeps.snd ‹_› ?_) | (with_reducible refine Keeps.fst ‹_› ?_) | (with_reducible refine Keeps.upd ?_ rfl rfl rfl ?_; rotate_left; (fail_if_success with_reducible exact Moved.refl _); exact Moved.any _ _) | dsimp only)

theorem State.measAppend_keeps {s0 : State} (s : State) (entry : List Byte) (hk : Keeps s0 s) : Keeps s0 (s.measAppend entry) := by
  unfold State.measAppend
  have h1 : Keeps s0 { s with measLog := { s.measLog with entries := if decide (8192 ≤ s.measLog.entries.length) = true then s.measLog.entries else s.measLog.entries ++ [entry], value := sha384 (s.measLog.value ++ entry) } } := by
    refine ⟨hk.pending, hk.part, fun i => ?_⟩
    obtain ⟨hm, hl, hs, hf, hb⟩ := hk.inv i
    refine ⟨hm, ?_, hs, hf, hb⟩
    dsimp only
    split
    · exact hl
    · rename_i hc
      have : ¬ 8192 ≤ s.measLog.entries.length := by simpa using hc
      rw [List.length_append, List.length_singleton]
      omega
  exact Keeps.ite (State.setAlert_keeps _ 5 true (State.setRegN_keeps _ _ _ _ h1)) (State.setRegN_keeps _ _ _ _ h1)

theorem State.measProgram_keeps {s0 : State} (s : State) (p d obj : Nat) (bytes : List Byte) (hk_s : Keeps s0 s) : Keeps s0 (State.measProgram s p d obj bytes) := by
  unfold State.measProgram
  (try dsimp only [State.fresh, State.freeVal])
  repeat' (first | with_reducible assumption | with_reducible apply State.measAppend_keeps | intro _ | (with_reducible refine Keeps.ite ?_ ?_) | split | (with_reducible refine Keeps.upd ?_ rfl rfl rfl ?_; rotate_left; (fail_if_success with_reducible exact Moved.refl _); exact Moved.any _ _) | dsimp only)

theorem execMeasureObject_keeps {s0 : State} (obj : Nat) (s : State) (hk_s : Keeps s0 s) : KeepsRes s0 (execMeasureObject obj s) := by
  unfold execMeasureObject
  (try dsimp only [State.fresh, State.freeVal])
  repeat' (first | with_reducible assumption | with_reducible apply live_keeps | with_reducible apply State.measAppend_keeps | intro _ | (with_reducible refine Keeps.ite ?_ ?_) | split | (with_reducible refine Keeps.snd ‹_› ?_) | (with_reducible refine Keeps.fst ‹_› ?_) | (with_reducible refine KeepsRes.next ?_) | (with_reducible refine Keeps.upd ?_ rfl rfl rfl ?_; rotate_left; (fail_if_success with_reducible exact Moved.refl _); exact Moved.any _ _) | dsimp only)

end Sys2Proof.Machine
end

