-- ==== Sys2Proof/Laws/KeepsWheel.lean ====
section
/-! SUPPORT. What the operations of Machine/Wheel.lean keep: the queue, the part and the invariant. -/

namespace Sys2Proof.Machine

theorem State.modColl_keeps {s0 : State} (s : State) (id : Nat) (f : Coll → Coll) (hk_s : Keeps s0 s) : Keeps s0 (State.modColl s id f) := by
  unfold State.modColl
  (try dsimp only [State.fresh, State.freeVal])
  repeat' (first | with_reducible assumption | intro _ | (with_reducible refine Keeps.ite ?_ ?_) | split | (with_reducible refine Keeps.upd ?_ rfl rfl rfl ?_; rotate_left; (fail_if_success with_reducible exact Moved.refl _); exact Moved.any _ _) | dsimp only)

theorem State.onColl_keeps {s0 : State} (s : State) (id : Nat) (f : State → Work → Coll → Grp → State) (hk_s : Keeps s0 s) (hk_f : ∀ y0 y1 y2 y3, Keeps s0 y0 → Keeps s0 (f y0 y1 y2 y3)) : Keeps s0 (State.onColl s id f) := by
  unfold State.onColl
  (try dsimp only [State.fresh, State.freeVal])
  repeat' (first | with_reducible assumption | with_reducible apply hk_f | intro _ | (with_reducible refine Keeps.ite ?_ ?_) | split | (with_reducible refine Keeps.snd ‹_› ?_) | (with_reducible refine Keeps.fst ‹_› ?_) | (with_reducible refine Keeps.upd ?_ rfl rfl rfl ?_; rotate_left; (fail_if_success with_reducible exact Moved.refl _); exact Moved.any _ _) | dsimp only)

theorem State.endColl_keeps {s0 : State} (s : State) (id status : Nat) (hk_s : Keeps s0 s) : Keeps s0 (State.endColl s id status) := by
  unfold State.endColl
  (try dsimp only [State.fresh, State.freeVal])
  repeat' (first | with_reducible assumption | with_reducible apply State.bump_keeps | with_reducible apply State.scramble_keeps | with_reducible apply State.endWork_keeps | with_reducible apply Keeps.foldl | with_reducible apply Keeps.foldlFst | with_reducible apply Keeps.foldlSnd | intro _ | (with_reducible refine Keeps.ite ?_ ?_) | split | (with_reducible refine Keeps.snd ‹_› ?_) | (with_reducible refine Keeps.fst ‹_› ?_) | (with_reducible refine Keeps.upd ?_ rfl rfl rfl ?_; rotate_left; (fail_if_success with_reducible exact Moved.refl _); exact Moved.any _ _) | dsimp only)

theorem State.whlMismatch_keeps {s0 : State} (s : State) (d : Nat) (hk_s : Keeps s0 s) : Keeps s0 (State.whlMismatch s d) := by
  unfold State.whlMismatch
  (try dsimp only [State.fresh, State.freeVal])
  repeat' (first | with_reducible assumption | with_reducible apply State.bump_keeps | intro _ | (with_reducible refine Keeps.ite ?_ ?_) | split | (with_reducible refine Keeps.upd ?_ rfl rfl rfl ?_; rotate_left; (fail_if_success with_reducible exact Moved.refl _); exact Moved.any _ _) | dsimp only)

theorem State.whlSend_keeps {s0 : State} (s : State) (c : Coll) (dest : Nat) (f : WheelFrame) (hk_s : Keeps s0 s) : Keeps s0 (State.whlSend s c dest f) := by
  unfold State.whlSend
  (try dsimp only [State.fresh, State.freeVal])
  repeat' (first | with_reducible assumption | with_reducible apply State.emit_keeps | with_reducible apply State.sendRouted_keeps | with_reducible apply State.sendSide_keeps | intro _ | (with_reducible refine Keeps.ite ?_ ?_) | split | (with_reducible refine Keeps.snd ‹_› ?_) | (with_reducible refine Keeps.fst ‹_› ?_) | (with_reducible refine Keeps.upd ?_ rfl rfl rfl ?_; rotate_left; (fail_if_success with_reducible exact Moved.refl _); exact Moved.any _ _) | dsimp only)

theorem State.grantTo_keeps {s0 : State} (s : State) (id from_ : Nat) (hk_s : Keeps s0 s) : Keeps s0 (State.grantTo s id from_) := by
  unfold State.grantTo
  (try dsimp only [State.fresh, State.freeVal])
  repeat' (first | with_reducible assumption | with_reducible apply State.modColl_keeps | with_reducible apply State.onColl_keeps | with_reducible apply State.whlSend_keeps | intro _ | (with_reducible refine Keeps.ite ?_ ?_) | split | (with_reducible refine Keeps.upd ?_ rfl rfl rfl ?_; rotate_left; (fail_if_success with_reducible exact Moved.refl _); exact Moved.any _ _) | dsimp only)

theorem State.spent_keeps {s0 : State} (s : State) (id from_ : Nat) (hk_s : Keeps s0 s) : Keeps s0 (State.spent s id from_) := by
  unfold State.spent
  (try dsimp only [State.fresh, State.freeVal])
  repeat' (first | with_reducible assumption | with_reducible apply State.modColl_keeps | with_reducible apply State.grantTo_keeps | intro _ | (with_reducible refine Keeps.ite ?_ ?_) | split | (with_reducible refine Keeps.upd ?_ rfl rfl rfl ?_; rotate_left; (fail_if_success with_reducible exact Moved.refl _); exact Moved.any _ _) | dsimp only)

theorem State.noteColl_keeps {s0 : State} (s : State) (id flags : Nat) (bad crc : Bool) (hk_s : Keeps s0 s) : Keeps s0 (State.noteColl s id flags bad crc) := by
  unfold State.noteColl
  (try dsimp only [State.fresh, State.freeVal])
  repeat' (first | with_reducible assumption | with_reducible apply State.modColl_keeps | intro _ | (with_reducible refine Keeps.ite ?_ ?_) | split | (with_reducible refine Keeps.upd ?_ rfl rfl rfl ?_; rotate_left; (fail_if_success with_reducible exact Moved.refl _); exact Moved.any _ _) | dsimp only)

theorem State.sendData_keeps {s0 : State} (s : State) (w : Work) (c : Coll) (x : CSend) (hk_s : Keeps s0 s) : Keeps s0 (State.sendData s w c x) := by
  unfold State.sendData
  (try dsimp only [State.fresh, State.freeVal])
  repeat' (first | with_reducible assumption | with_reducible apply State.bump_keeps | with_reducible apply State.whlSend_keeps | with_reducible apply State.noteColl_keeps | with_reducible apply Keeps.foldl | with_reducible apply Keeps.foldlFst | with_reducible apply Keeps.foldlSnd | intro _ | (with_reducible refine Keeps.ite ?_ ?_) | split | (with_reducible refine Keeps.snd ‹_› ?_) | (with_reducible refine Keeps.fst ‹_› ?_) | (with_reducible refine Keeps.upd ?_ rfl rfl rfl ?_; rotate_left; (fail_if_success with_reducible exact Moved.refl _); exact Moved.any _ _) | dsimp only)

theorem State.pumpColl_keeps {s0 : State} (id : Nat) (n : Nat) (s : State) (hk_s : Keeps s0 s) : Keeps s0 (State.pumpColl id n s) := by
  induction n generalizing s with
  | zero =>
    unfold State.pumpColl
    (try dsimp only)
    repeat' (first | with_reducible assumption | with_reducible apply State.modColl_keeps | with_reducible apply State.sendData_keeps | intro _ | (with_reducible refine Keeps.ite ?_ ?_) | split | (with_reducible refine Keeps.snd ‹_› ?_) | (with_reducible refine Keeps.fst ‹_› ?_) | (with_reducible refine Keeps.upd ?_ rfl rfl rfl ?_; rotate_left; (fail_if_success with_reducible exact Moved.refl _); exact Moved.any _ _) | dsimp only)
  | succ n ih =>
    unfold State.pumpColl
    (try dsimp only [State.fresh, State.freeVal])
    repeat' (first | with_reducible assumption | with_reducible apply ih | with_reducible apply State.modColl_keeps | with_reducible apply State.sendData_keeps | intro _ | (with_reducible refine Keeps.ite ?_ ?_) | split | (with_reducible refine Keeps.snd ‹_› ?_) | (with_reducible refine Keeps.fst ‹_› ?_) | (with_reducible refine Keeps.upd ?_ rfl rfl rfl ?_; rotate_left; (fail_if_success with_reducible exact Moved.refl _); exact Moved.any _ _) | dsimp only)

theorem State.writeRows_keeps {s0 : State} (s : State) (id b : Nat) (hk_s : Keeps s0 s) : Keeps s0 (State.writeRows s id b) := by
  unfold State.writeRows
  (try dsimp only [State.fresh, State.freeVal])
  repeat' (first | with_reducible assumption | with_reducible apply State.freeVal_keeps | with_reducible apply State.writeTile_keeps | with_reducible apply State.modColl_keeps | with_reducible apply State.onColl_keeps | with_reducible apply Keeps.foldl | with_reducible apply Keeps.foldlFst | with_reducible apply Keeps.foldlSnd | intro _ | (with_reducible refine Keeps.ite ?_ ?_) | split | (with_reducible refine Keeps.snd ‹_› ?_) | (with_reducible refine Keeps.fst ‹_› ?_) | (with_reducible refine Keeps.upd ?_ rfl rfl rfl ?_; rotate_left; (fail_if_success with_reducible exact Moved.refl _); exact Moved.any _ _) | dsimp only)

theorem State.putRow_keeps {s0 : State} (s : State) (w : Work) (row : Nat) (b : List Byte) (bad : Bool) (hk_s : Keeps s0 s) : Keeps s0 (State.putRow s w row b bad) := by
  unfold State.putRow
  (try dsimp only [State.fresh, State.freeVal])
  repeat' (first | with_reducible assumption | with_reducible apply State.write_keeps | with_reducible apply Keeps.write | with_reducible apply Keeps.foldl | with_reducible apply Keeps.foldlFst | with_reducible apply Keeps.foldlSnd | intro _ | (with_reducible refine Keeps.ite ?_ ?_) | split | (with_reducible refine Keeps.upd ?_ rfl rfl rfl ?_; rotate_left; (fail_if_success with_reducible exact Moved.refl _); exact Moved.any _ _) | dsimp only)

theorem State.placeRow_keeps {s0 : State} (s : State) (id src i : Nat) (b : List Byte) (bad : Bool) (hk_s : Keeps s0 s) : Keeps s0 (State.placeRow s id src i b bad) := by
  unfold State.placeRow
  (try dsimp only [State.fresh, State.freeVal])
  repeat' (first | with_reducible assumption | with_reducible apply State.modColl_keeps | with_reducible apply State.onColl_keeps | with_reducible apply State.writeRows_keeps | with_reducible apply State.putRow_keeps | with_reducible apply Keeps.foldl | with_reducible apply Keeps.foldlFst | with_reducible apply Keeps.foldlSnd | intro _ | (with_reducible refine Keeps.ite ?_ ?_) | split | (with_reducible refine Keeps.snd ‹_› ?_) | (with_reducible refine Keeps.fst ‹_› ?_) | (with_reducible refine Keeps.upd ?_ rfl rfl rfl ?_; rotate_left; (fail_if_success with_reducible exact Moved.refl _); exact Moved.any _ _) | dsimp only)


theorem State.putReduced_keeps {s0 : State} (s : State) (w : Work) (k t : Nat) (h : Hdr) (one bad : Bool) (code : Nat → Nat) (hk_s : Keeps s0 s) : Keeps s0 (State.putReduced s w k t h one bad code).1 := by
  unfold State.putReduced
  (try dsimp only [State.fresh, State.freeVal])
  repeat' (first | with_reducible assumption | with_reducible apply State.writeTile_keeps | with_reducible apply State.putTile_keeps | intro _ | (with_reducible refine Keeps.ite ?_ ?_) | split | (with_reducible refine Keeps.upd ?_ rfl rfl rfl ?_; rotate_left; (fail_if_success with_reducible exact Moved.refl _); exact Moved.any _ _) | dsimp only)

theorem State.queueColl_keeps {s0 : State} (s : State) (id : Nat) (x : CSend) (hk_s : Keeps s0 s) : Keeps s0 (State.queueColl s id x) := by
  unfold State.queueColl
  (try dsimp only [State.fresh, State.freeVal])
  repeat' (first | with_reducible assumption | with_reducible apply State.modColl_keeps | intro _ | (with_reducible refine Keeps.ite ?_ ?_) | split | (with_reducible refine Keeps.upd ?_ rfl rfl rfl ?_; rotate_left; (fail_if_success with_reducible exact Moved.refl _); exact Moved.any _ _) | dsimp only)

theorem State.reduceStep_keeps {s0 : State} (s : State) (id k t : Nat) (minus : Bool) (part : Option (List Byte × Bool)) (hk_s : Keeps s0 s) : Keeps s0 (State.reduceStep s id k t minus part) := by
  unfold State.reduceStep
  (try dsimp only [State.fresh, State.freeVal])
  repeat' (first | with_reducible assumption | with_reducible apply State.bump_keeps | with_reducible apply State.onColl_keeps | with_reducible apply State.noteColl_keeps | with_reducible apply State.putReduced_keeps | with_reducible apply State.queueColl_keeps | intro _ | (with_reducible refine Keeps.ite ?_ ?_) | split | (with_reducible refine Keeps.snd ‹_› ?_) | (with_reducible refine Keeps.fst ‹_› ?_) | (with_reducible refine Keeps.upd ?_ rfl rfl rfl ?_; rotate_left; (fail_if_success with_reducible exact Moved.refl _); exact Moved.any _ _) | dsimp only)

theorem State.placeTile_keeps {s0 : State} (s : State) (id a : Nat) (b : List Byte) (bad : Bool) (hk_s : Keeps s0 s) : Keeps s0 (State.placeTile s id a b bad) := by
  unfold State.placeTile
  (try dsimp only [State.fresh, State.freeVal])
  repeat' (first | with_reducible assumption | with_reducible apply State.write_keeps | with_reducible apply State.accessRefused_keeps | with_reducible apply State.onColl_keeps | with_reducible apply State.endColl_keeps | with_reducible apply State.noteColl_keeps | with_reducible apply State.only_keeps | with_reducible apply Keeps.write | intro _ | (with_reducible refine Keeps.ite ?_ ?_) | split | (with_reducible refine Keeps.upd ?_ rfl rfl rfl ?_; rotate_left; (fail_if_success with_reducible exact Moved.refl _); exact Moved.any _ _) | dsimp only)

theorem State.copyTiles_keeps {s0 : State} (s : State) (id src dst fmt n : Nat) (hk_s : Keeps s0 s) : Keeps s0 (State.copyTiles s id src dst fmt n) := by
  unfold State.copyTiles
  (try dsimp only [State.fresh, State.freeVal])
  repeat' (first | with_reducible assumption | with_reducible apply State.placeTile_keeps | with_reducible apply Keeps.foldl | with_reducible apply Keeps.foldlFst | with_reducible apply Keeps.foldlSnd | intro _ | (with_reducible refine Keeps.ite ?_ ?_) | split | (with_reducible refine Keeps.upd ?_ rfl rfl rfl ?_; rotate_left; (fail_if_success with_reducible exact Moved.refl _); exact Moved.any _ _) | dsimp only)

theorem State.unretain_keeps {s0 : State} (s : State) (d : Nat) (w : Work) (hk_s : Keeps s0 s) : Keeps s0 (State.unretain s d w) := by
  unfold State.unretain
  (try dsimp only [State.fresh, State.freeVal])
  repeat' (first | with_reducible assumption | with_reducible apply State.releaseKept_keeps | intro _ | (with_reducible refine Keeps.ite ?_ ?_) | split | (with_reducible refine Keeps.snd ‹_› ?_) | (with_reducible refine Keeps.fst ‹_› ?_) | (with_reducible refine Keeps.upd ?_ rfl rfl rfl ?_; rotate_left; (fail_if_success with_reducible exact Moved.refl _); exact Moved.any _ _) | dsimp only)

theorem State.settleColl_keeps {s0 : State} (s : State) (id : Nat) (hk_s : Keeps s0 s) : Keeps s0 (State.settleColl s id) := by
  unfold State.settleColl
  (try dsimp only [State.fresh, State.freeVal])
  repeat' (first | with_reducible assumption | with_reducible apply State.claimKept_keeps | with_reducible apply State.onColl_keeps | with_reducible apply State.endColl_keeps | intro _ | (with_reducible refine Keeps.ite ?_ ?_) | split | (with_reducible refine Keeps.snd ‹_› ?_) | (with_reducible refine Keeps.fst ‹_› ?_) | (with_reducible refine Keeps.upd ?_ rfl rfl rfl ?_; rotate_left; (fail_if_success with_reducible exact Moved.refl _); exact Moved.any _ _) | dsimp only)

theorem State.openColl_keeps {s0 : State} (s : State) (id : Nat) (hk_s : Keeps s0 s) : Keeps s0 (State.openColl s id) := by
  unfold State.openColl
  (try dsimp only [State.fresh, State.freeVal])
  repeat' (first | with_reducible assumption | with_reducible apply State.modColl_keeps | with_reducible apply State.onColl_keeps | with_reducible apply State.grantTo_keeps | with_reducible apply State.noteColl_keeps | with_reducible apply State.placeRow_keeps | with_reducible apply State.queueColl_keeps | with_reducible apply State.reduceStep_keeps | with_reducible apply State.copyTiles_keeps | with_reducible apply Keeps.foldl | with_reducible apply Keeps.foldlFst | with_reducible apply Keeps.foldlSnd | intro _ | (with_reducible refine Keeps.ite ?_ ?_) | split | (with_reducible refine Keeps.snd ‹_› ?_) | (with_reducible refine Keeps.fst ‹_› ?_) | (with_reducible refine Keeps.upd ?_ rfl rfl rfl ?_; rotate_left; (fail_if_success with_reducible exact Moved.refl _); exact Moved.any _ _) | dsimp only)

theorem State.countsIn_keeps {s0 : State} (s : State) (id : Nat) (hk_s : Keeps s0 s) : Keeps s0 (State.countsIn s id) := by
  unfold State.countsIn
  (try dsimp only [State.fresh, State.freeVal])
  repeat' (first | with_reducible assumption | with_reducible apply State.write_keeps | with_reducible apply State.accessRefused_keeps | with_reducible apply State.modColl_keeps | with_reducible apply State.onColl_keeps | with_reducible apply State.endColl_keeps | with_reducible apply State.openColl_keeps | with_reducible apply Keeps.write | with_reducible apply Keeps.foldl | with_reducible apply Keeps.foldlFst | with_reducible apply Keeps.foldlSnd | intro _ | (with_reducible refine Keeps.ite ?_ ?_) | split | (with_reducible refine Keeps.upd ?_ rfl rfl rfl ?_; rotate_left; (fail_if_success with_reducible exact Moved.refl _); exact Moved.any _ _) | dsimp only)

theorem State.useIn_keeps {s0 : State} (s : State) (id : Nat) (hk_s : Keeps s0 s) : Keeps s0 (State.useIn s id) := by
  unfold State.useIn
  (try dsimp only [State.fresh, State.freeVal])
  repeat' (first | with_reducible assumption | with_reducible apply State.modWork_keeps | with_reducible apply State.onColl_keeps | with_reducible apply State.endColl_keeps | with_reducible apply State.unretain_keeps | with_reducible apply State.openColl_keeps | intro _ | (with_reducible refine Keeps.ite ?_ ?_) | split | (with_reducible refine Keeps.upd ?_ rfl rfl rfl ?_; rotate_left; (fail_if_success with_reducible exact Moved.refl _); exact Moved.any _ _) | dsimp only)

theorem State.startIn_keeps {s0 : State} (s : State) (id : Nat) (f : WheelFrame) (hk_s : Keeps s0 s) : Keeps s0 (State.startIn s id f) := by
  unfold State.startIn
  (try dsimp only [State.fresh, State.freeVal])
  repeat' (first | with_reducible assumption | with_reducible apply State.modColl_keeps | with_reducible apply State.onColl_keeps | with_reducible apply State.endColl_keeps | with_reducible apply State.whlMismatch_keeps | with_reducible apply State.useIn_keeps | intro _ | (with_reducible refine Keeps.ite ?_ ?_) | split | (with_reducible refine Keeps.snd ‹_› ?_) | (with_reducible refine Keeps.fst ‹_› ?_) | (with_reducible refine Keeps.upd ?_ rfl rfl rfl ?_; rotate_left; (fail_if_success with_reducible exact Moved.refl _); exact Moved.any _ _) | dsimp only)

theorem State.countsFrame_keeps {s0 : State} (s : State) (id : Nat) (f : WheelFrame) (hk_s : Keeps s0 s) : Keeps s0 (State.countsFrame s id f) := by
  unfold State.countsFrame
  (try dsimp only [State.fresh, State.freeVal])
  repeat' (first | with_reducible assumption | with_reducible apply State.modColl_keeps | with_reducible apply State.onColl_keeps | with_reducible apply State.whlMismatch_keeps | with_reducible apply State.countsIn_keeps | intro _ | (with_reducible refine Keeps.ite ?_ ?_) | split | (with_reducible refine Keeps.snd ‹_› ?_) | (with_reducible refine Keeps.fst ‹_› ?_) | (with_reducible refine Keeps.upd ?_ rfl rfl rfl ?_; rotate_left; (fail_if_success with_reducible exact Moved.refl _); exact Moved.any _ _) | dsimp only)

theorem State.tileIn_keeps {s0 : State} (s : State) (id : Nat) (x : CIn) (hk_s : Keeps s0 s) : Keeps s0 (State.tileIn s id x) := by
  unfold State.tileIn
  (try dsimp only [State.fresh, State.freeVal])
  repeat' (first | with_reducible assumption | with_reducible apply State.modColl_keeps | with_reducible apply State.onColl_keeps | with_reducible apply State.whlMismatch_keeps | with_reducible apply State.queueColl_keeps | with_reducible apply State.reduceStep_keeps | with_reducible apply State.placeTile_keeps | intro _ | (with_reducible refine Keeps.ite ?_ ?_) | split | (with_reducible refine Keeps.snd ‹_› ?_) | (with_reducible refine Keeps.fst ‹_› ?_) | (with_reducible refine Keeps.upd ?_ rfl rfl rfl ?_; rotate_left; (fail_if_success with_reducible exact Moved.refl _); exact Moved.any _ _) | dsimp only)

theorem State.rowIn_keeps {s0 : State} (s : State) (id : Nat) (x : CIn) (hk_s : Keeps s0 s) : Keeps s0 (State.rowIn s id x) := by
  unfold State.rowIn
  (try dsimp only [State.fresh, State.freeVal])
  repeat' (first | with_reducible assumption | with_reducible apply State.onColl_keeps | with_reducible apply State.whlMismatch_keeps | with_reducible apply State.placeRow_keeps | intro _ | (with_reducible refine Keeps.ite ?_ ?_) | split | (with_reducible refine Keeps.snd ‹_› ?_) | (with_reducible refine Keeps.fst ‹_› ?_) | (with_reducible refine Keeps.upd ?_ rfl rfl rfl ?_; rotate_left; (fail_if_success with_reducible exact Moved.refl _); exact Moved.any _ _) | dsimp only)

theorem State.land_keeps {s0 : State} (s : State) (id : Nat) (x : CIn) (hk_s : Keeps s0 s) : Keeps s0 (State.land s id x) := by
  unfold State.land
  (try dsimp only [State.fresh, State.freeVal])
  repeat' (first | with_reducible assumption | with_reducible apply State.modColl_keeps | with_reducible apply State.onColl_keeps | with_reducible apply State.spent_keeps | with_reducible apply State.tileIn_keeps | with_reducible apply State.rowIn_keeps | intro _ | (with_reducible refine Keeps.ite ?_ ?_) | split | (with_reducible refine Keeps.upd ?_ rfl rfl rfl ?_; rotate_left; (fail_if_success with_reducible exact Moved.refl _); exact Moved.any _ _) | dsimp only)

theorem State.staged_keeps {s0 : State} (s : State) (d : Nat) (hk_s : Keeps s0 s) : Keeps s0 (State.staged s d) := by
  unfold State.staged
  (try dsimp only [State.fresh, State.freeVal])
  repeat' (first | with_reducible assumption | with_reducible apply State.wipe_keeps | intro _ | (with_reducible refine Keeps.ite ?_ ?_) | split | (with_reducible refine Keeps.upd ?_ rfl rfl rfl ?_; rotate_left; (fail_if_success with_reducible exact Moved.refl _); exact Moved.any _ _) | dsimp only)

theorem State.sliceIn_keeps {s0 : State} (s : State) (id : Nat) (f : WheelFrame) (hk_s : Keeps s0 s) : Keeps s0 (State.sliceIn s id f) := by
  unfold State.sliceIn
  (try dsimp only [State.fresh, State.freeVal])
  repeat' (first | with_reducible assumption | with_reducible apply State.modColl_keeps | with_reducible apply State.onColl_keeps | with_reducible apply State.whlMismatch_keeps | with_reducible apply State.land_keeps | with_reducible apply State.staged_keeps | intro _ | (with_reducible refine Keeps.ite ?_ ?_) | split | (with_reducible refine Keeps.snd ‹_› ?_) | (with_reducible refine Keeps.fst ‹_› ?_) | (with_reducible refine Keeps.upd ?_ rfl rfl rfl ?_; rotate_left; (fail_if_success with_reducible exact Moved.refl _); exact Moved.any _ _) | dsimp only)

theorem State.pumpDie_keeps {s0 : State} (s : State) (d : Nat) (hk_s : Keeps s0 s) : Keeps s0 (State.pumpDie s d) := by
  unfold State.pumpDie
  (try dsimp only [State.fresh, State.freeVal])
  repeat' (first | with_reducible assumption | with_reducible apply State.pumpColl_keeps | with_reducible apply State.settleColl_keeps | with_reducible apply State.land_keeps | with_reducible apply Keeps.foldl | with_reducible apply Keeps.foldlFst | with_reducible apply Keeps.foldlSnd | intro _ | (with_reducible refine Keeps.ite ?_ ?_) | split | (with_reducible refine Keeps.upd ?_ rfl rfl rfl ?_; rotate_left; (fail_if_success with_reducible exact Moved.refl _); exact Moved.any _ _) | dsimp only)

theorem State.creditIn_keeps {s0 : State} (s : State) (id : Nat) (f : WheelFrame) (hk_s : Keeps s0 s) : Keeps s0 (State.creditIn s id f) := by
  unfold State.creditIn
  (try dsimp only [State.fresh, State.freeVal])
  repeat' (first | with_reducible assumption | with_reducible apply State.bumpFree_keeps | with_reducible apply State.modColl_keeps | intro _ | (with_reducible refine Keeps.ite ?_ ?_) | split | (with_reducible refine Keeps.snd ‹_› ?_) | (with_reducible refine Keeps.fst ‹_› ?_) | (with_reducible refine Keeps.upd ?_ rfl rfl rfl ?_; rotate_left; (fail_if_success with_reducible exact Moved.refl _); exact Moved.any _ _) | dsimp only)

theorem State.collFrame_keeps {s0 : State} (s : State) (id : Nat) (f : WheelFrame) (hk_s : Keeps s0 s) : Keeps s0 (State.collFrame s id f) := by
  unfold State.collFrame
  (try dsimp only [State.fresh, State.freeVal])
  repeat' (first | with_reducible assumption | with_reducible apply State.startIn_keeps | with_reducible apply State.countsFrame_keeps | with_reducible apply State.sliceIn_keeps | with_reducible apply State.creditIn_keeps | intro _ | (with_reducible refine Keeps.ite ?_ ?_) | split | (with_reducible refine Keeps.snd ‹_› ?_) | (with_reducible refine Keeps.fst ‹_› ?_) | (with_reducible refine Keeps.upd ?_ rfl rfl rfl ?_; rotate_left; (fail_if_success with_reducible exact Moved.refl _); exact Moved.any _ _) | dsimp only)

theorem State.localFrame_keeps {s0 : State} (s : State) (d : Nat) (g : Grp) (f : WheelFrame) (hk_s : Keeps s0 s) : Keeps s0 (State.localFrame s d g f) := by
  unfold State.localFrame
  (try dsimp only [State.fresh, State.freeVal])
  repeat' (first | with_reducible assumption | with_reducible apply State.whlMismatch_keeps | with_reducible apply State.pumpDie_keeps | with_reducible apply State.collFrame_keeps | intro _ | (with_reducible refine Keeps.ite ?_ ?_) | split | (with_reducible refine Keeps.snd ‹_› ?_) | (with_reducible refine Keeps.fst ‹_› ?_) | (with_reducible refine Keeps.upd ?_ rfl rfl rfl ?_; rotate_left; (fail_if_success with_reducible exact Moved.refl _); exact Moved.any _ _) | dsimp only)

theorem State.wheelIn_keeps {s0 : State} (s : State) (d : Nat) (f : WheelFrame) (hk_s : Keeps s0 s) : Keeps s0 (State.wheelIn s d f) := by
  unfold State.wheelIn
  (try dsimp only [State.fresh, State.freeVal])
  repeat' (first | with_reducible assumption | with_reducible apply State.bump_keeps | with_reducible apply State.takeRx_keeps | with_reducible apply State.sendRouted_keeps | with_reducible apply State.linkTake_keeps | with_reducible apply State.whlMismatch_keeps | with_reducible apply State.localFrame_keeps | intro _ | (with_reducible refine Keeps.ite ?_ ?_) | split | (with_reducible refine Keeps.snd ‹_› ?_) | (with_reducible refine Keeps.fst ‹_› ?_) | (with_reducible refine Keeps.upd ?_ rfl rfl rfl ?_; rotate_left; (fail_if_success with_reducible exact Moved.refl _); exact Moved.any _ _) | dsimp only)

theorem execWheelDataFrame_keeps {s0 : State} (d : Nat) (f : WheelFrame) (s : State) (hk_s : Keeps s0 s) : KeepsRes s0 (execWheelDataFrame d f s) := by
  unfold execWheelDataFrame
  (try dsimp only [State.fresh, State.freeVal])
  repeat' (first | with_reducible assumption | with_reducible apply onDie_keeps | with_reducible apply State.wheelIn_keeps | intro _ | (with_reducible refine Keeps.ite ?_ ?_) | split | (with_reducible refine KeepsRes.next ?_) | (with_reducible refine Keeps.upd ?_ rfl rfl rfl ?_; rotate_left; (fail_if_success with_reducible exact Moved.refl _); exact Moved.any _ _) | dsimp only)

theorem execWheelCreditFrame_keeps {s0 : State} (d : Nat) (f : WheelFrame) (s : State) (hk_s : Keeps s0 s) : KeepsRes s0 (execWheelCreditFrame d f s) := by
  unfold execWheelCreditFrame
  (try dsimp only [State.fresh, State.freeVal])
  repeat' (first | with_reducible assumption | with_reducible apply onDie_keeps | with_reducible apply State.wheelIn_keeps | intro _ | (with_reducible refine Keeps.ite ?_ ?_) | split | (with_reducible refine KeepsRes.next ?_) | (with_reducible refine Keeps.upd ?_ rfl rfl rfl ?_; rotate_left; (fail_if_success with_reducible exact Moved.refl _); exact Moved.any _ _) | dsimp only)

theorem execWheelCountsFrame_keeps {s0 : State} (d : Nat) (f : WheelFrame) (s : State) (hk_s : Keeps s0 s) : KeepsRes s0 (execWheelCountsFrame d f s) := by
  unfold execWheelCountsFrame
  (try dsimp only [State.fresh, State.freeVal])
  repeat' (first | with_reducible assumption | with_reducible apply onDie_keeps | with_reducible apply State.wheelIn_keeps | intro _ | (with_reducible refine Keeps.ite ?_ ?_) | split | (with_reducible refine KeepsRes.next ?_) | (with_reducible refine Keeps.upd ?_ rfl rfl rfl ?_; rotate_left; (fail_if_success with_reducible exact Moved.refl _); exact Moved.any _ _) | dsimp only)

theorem execWheelStartFrame_keeps {s0 : State} (d : Nat) (f : WheelFrame) (s : State) (hk_s : Keeps s0 s) : KeepsRes s0 (execWheelStartFrame d f s) := by
  unfold execWheelStartFrame
  (try dsimp only [State.fresh, State.freeVal])
  repeat' (first | with_reducible assumption | with_reducible apply onDie_keeps | with_reducible apply State.wheelIn_keeps | intro _ | (with_reducible refine Keeps.ite ?_ ?_) | split | (with_reducible refine KeepsRes.next ?_) | (with_reducible refine Keeps.upd ?_ rfl rfl rfl ?_; rotate_left; (fail_if_success with_reducible exact Moved.refl _); exact Moved.any _ _) | dsimp only)

theorem State.wheelLink_keeps {s0 : State} (s : State) (d : Nat) (act : State → State) (hk_s : Keeps s0 s) (hk_act : ∀ y0, Keeps s0 y0 → Keeps s0 (act y0)) : Keeps s0 (State.wheelLink s d act) := by
  unfold State.wheelLink
  (try dsimp only [State.fresh, State.freeVal])
  repeat' (first | with_reducible assumption | with_reducible apply hk_act | with_reducible apply State.takeRx_keeps | with_reducible apply State.whlMismatch_keeps | with_reducible apply State.pumpDie_keeps | intro _ | (with_reducible refine Keeps.ite ?_ ?_) | split | (with_reducible refine Keeps.snd ‹_› ?_) | (with_reducible refine Keeps.fst ‹_› ?_) | (with_reducible refine Keeps.upd ?_ rfl rfl rfl ?_; rotate_left; (fail_if_success with_reducible exact Moved.refl _); exact Moved.any _ _) | dsimp only)

theorem execWheelAckFrame_keeps {s0 : State} (d : Nat) (f : WheelFrame) (s : State) (hk_s : Keeps s0 s) : KeepsRes s0 (execWheelAckFrame d f s) := by
  unfold execWheelAckFrame
  (try dsimp only [State.fresh, State.freeVal])
  repeat' (first | with_reducible assumption | with_reducible apply onDie_keeps | with_reducible apply State.linkAckIn_keeps | with_reducible apply State.wheelLink_keeps | intro _ | (with_reducible refine Keeps.ite ?_ ?_) | split | (with_reducible refine KeepsRes.next ?_) | (with_reducible refine Keeps.upd ?_ rfl rfl rfl ?_; rotate_left; (fail_if_success with_reducible exact Moved.refl _); exact Moved.any _ _) | dsimp only)

theorem execWheelNakFrame_keeps {s0 : State} (d : Nat) (f : WheelFrame) (s : State) (hk_s : Keeps s0 s) : KeepsRes s0 (execWheelNakFrame d f s) := by
  unfold execWheelNakFrame
  (try dsimp only [State.fresh, State.freeVal])
  repeat' (first | with_reducible assumption | with_reducible apply onDie_keeps | with_reducible apply State.linkNakIn_keeps | with_reducible apply State.wheelLink_keeps | intro _ | (with_reducible refine Keeps.ite ?_ ?_) | split | (with_reducible refine KeepsRes.next ?_) | (with_reducible refine Keeps.upd ?_ rfl rfl rfl ?_; rotate_left; (fail_if_success with_reducible exact Moved.refl _); exact Moved.any _ _) | dsimp only)

theorem execWheelReplayTimeout_keeps {s0 : State} (d : Nat) (s : State) (hk_s : Keeps s0 s) : KeepsRes s0 (execWheelReplayTimeout d s) := by
  unfold execWheelReplayTimeout
  (try dsimp only [State.fresh, State.freeVal])
  repeat' (first | with_reducible assumption | with_reducible apply onDie_keeps | with_reducible apply State.linkResend_keeps | intro _ | (with_reducible refine Keeps.ite ?_ ?_) | split | (with_reducible refine KeepsRes.next ?_) | (with_reducible refine Keeps.upd ?_ rfl rfl rfl ?_; rotate_left; (fail_if_success with_reducible exact Moved.refl _); exact Moved.any _ _) | dsimp only)

theorem execWheelAckTimer_keeps {s0 : State} (d : Nat) (s : State) (hk_s : Keeps s0 s) : KeepsRes s0 (execWheelAckTimer d s) := by
  unfold execWheelAckTimer
  (try dsimp only [State.fresh, State.freeVal])
  repeat' (first | with_reducible assumption | with_reducible apply onDie_keeps | with_reducible apply State.linkAckTimer_keeps | intro _ | (with_reducible refine Keeps.ite ?_ ?_) | split | (with_reducible refine KeepsRes.next ?_) | (with_reducible refine Keeps.upd ?_ rfl rfl rfl ?_; rotate_left; (fail_if_success with_reducible exact Moved.refl _); exact Moved.any _ _) | dsimp only)

theorem execWheelNakResend_keeps {s0 : State} (d : Nat) (s : State) (hk_s : Keeps s0 s) : KeepsRes s0 (execWheelNakResend d s) := by
  unfold execWheelNakResend
  (try dsimp only [State.fresh, State.freeVal])
  repeat' (first | with_reducible assumption | with_reducible apply onDie_keeps | with_reducible apply State.linkNakTimer_keeps | intro _ | (with_reducible refine Keeps.ite ?_ ?_) | split | (with_reducible refine KeepsRes.next ?_) | (with_reducible refine Keeps.upd ?_ rfl rfl rfl ?_; rotate_left; (fail_if_success with_reducible exact Moved.refl _); exact Moved.any _ _) | dsimp only)

theorem execCollectiveTimeout_keeps {s0 : State} (id : Nat) (s : State) (hk_s : Keeps s0 s) : KeepsRes s0 (execCollectiveTimeout id s) := by
  unfold execCollectiveTimeout
  (try dsimp only [State.fresh, State.freeVal])
  repeat' (first | with_reducible assumption | with_reducible apply live_keeps | with_reducible apply State.bump_keeps | with_reducible apply State.endColl_keeps | with_reducible apply State.pumpDie_keeps | intro _ | (with_reducible refine Keeps.ite ?_ ?_) | split | (with_reducible refine Keeps.snd ‹_› ?_) | (with_reducible refine Keeps.fst ‹_› ?_) | (with_reducible refine KeepsRes.next ?_) | (with_reducible refine Keeps.upd ?_ rfl rfl rfl ?_; rotate_left; (fail_if_success with_reducible exact Moved.refl _); exact Moved.any _ _) | dsimp only)

theorem State.endColls_keeps {s0 : State} (s : State) (pick : Coll → Bool) (status : Nat) (hk_s : Keeps s0 s) : Keeps s0 (State.endColls s pick status) := by
  unfold State.endColls
  (try dsimp only [State.fresh, State.freeVal])
  repeat' (first | with_reducible assumption | with_reducible apply State.endColl_keeps | with_reducible apply Keeps.foldl | with_reducible apply Keeps.foldlFst | with_reducible apply Keeps.foldlSnd | intro _ | (with_reducible refine Keeps.ite ?_ ?_) | split | (with_reducible refine Keeps.upd ?_ rfl rfl rfl ?_; rotate_left; (fail_if_success with_reducible exact Moved.refl _); exact Moved.any _ _) | dsimp only)

theorem State.wheelOff_keeps {s0 : State} (s : State) (d : Nat) (hk_s : Keeps s0 s) : Keeps s0 (State.wheelOff s d) := by
  unfold State.wheelOff
  (try dsimp only [State.fresh, State.freeVal])
  repeat' (first | with_reducible assumption | with_reducible apply State.setRbit_keeps | with_reducible apply State.endColls_keeps | intro _ | (with_reducible refine Keeps.ite ?_ ?_) | split | (with_reducible refine Keeps.snd ‹_› ?_) | (with_reducible refine Keeps.fst ‹_› ?_) | (with_reducible refine Keeps.upd ?_ rfl rfl rfl ?_; rotate_left; (fail_if_success with_reducible exact Moved.refl _); exact Moved.any _ _) | dsimp only)

theorem execWheelDisable_keeps {s0 : State} (d : Nat) (s : State) (hk_s : Keeps s0 s) : KeepsRes s0 (execWheelDisable d s) := by
  unfold execWheelDisable
  (try dsimp only [State.fresh, State.freeVal])
  repeat' (first | with_reducible assumption | with_reducible apply onDie_keeps | with_reducible apply State.wheelOff_keeps | intro _ | (with_reducible refine Keeps.ite ?_ ?_) | split | (with_reducible refine KeepsRes.next ?_) | (with_reducible refine Keeps.upd ?_ rfl rfl rfl ?_; rotate_left; (fail_if_success with_reducible exact Moved.refl _); exact Moved.any _ _) | dsimp only)

theorem State.loseMembers_keeps {s0 : State} (s : State) (hk_s : Keeps s0 s) : Keeps s0 (State.loseMembers s) := by
  unfold State.loseMembers
  (try dsimp only [State.fresh, State.freeVal])
  repeat' (first | with_reducible assumption | with_reducible apply State.endColls_keeps | intro _ | (with_reducible refine Keeps.ite ?_ ?_) | split | (with_reducible refine Keeps.upd ?_ rfl rfl rfl ?_; rotate_left; (fail_if_success with_reducible exact Moved.refl _); exact Moved.any _ _) | dsimp only)

theorem State.loseFrames_keeps {s0 : State} (s : State) (hk_s : Keeps s0 s) : Keeps s0 (State.loseFrames s) := by
  unfold State.loseFrames
  (try dsimp only [State.fresh, State.freeVal])
  repeat' (first | with_reducible assumption | with_reducible apply State.endColls_keeps | intro _ | (with_reducible refine Keeps.ite ?_ ?_) | split | (with_reducible refine Keeps.snd ‹_› ?_) | (with_reducible refine Keeps.fst ‹_› ?_) | (with_reducible refine Keeps.upd ?_ rfl rfl rfl ?_; rotate_left; (fail_if_success with_reducible exact Moved.refl _); exact Moved.any _ _) | dsimp only)

theorem execRefetchComplete_keeps {s0 : State} (d : Nat) (ok : Bool) (s : State) (hk_s : Keeps s0 s) : KeepsRes s0 (execRefetchComplete d ok s) := by
  unfold execRefetchComplete
  (try dsimp only [State.fresh, State.freeVal])
  repeat' (first | with_reducible assumption | with_reducible apply onDie_keeps | with_reducible apply State.refetchEnd_keeps | with_reducible apply State.pumpDie_keeps | with_reducible apply Keeps.foldl | with_reducible apply Keeps.foldlFst | with_reducible apply Keeps.foldlSnd | intro _ | (with_reducible refine Keeps.ite ?_ ?_) | split | (with_reducible refine KeepsRes.next ?_) | (with_reducible refine Keeps.upd ?_ rfl rfl rfl ?_; rotate_left; (fail_if_success with_reducible exact Moved.refl _); exact Moved.any _ _) | dsimp only)

end Sys2Proof.Machine
end

