-- ==== Sys2Proof/Laws/KeepsVector.lean ====
section
/-! SUPPORT. What the operations of Machine/Vector.lean keep: the queue, the part and the invariant. -/

namespace Sys2Proof.Machine

theorem State.setVe_keeps {s0 : State} (s : State) (x : Ve) (hk_s : Keeps s0 s) : Keeps s0 (State.setVe s x) := by
  unfold State.setVe
  (try dsimp only [State.fresh, State.freeVal])
  repeat' (first | with_reducible assumption | intro _ | (with_reducible refine Keeps.ite ?_ ?_) | split | (with_reducible refine Keeps.upd ?_ rfl rfl rfl ?_; rotate_left; (fail_if_success with_reducible exact Moved.refl _); exact Moved.any _ _) | dsimp only)

theorem State.issue_keeps {s0 : State} (s : State) (d v : Nat) (four : Bool) (run : Ve → Ve) (hk_s : Keeps s0 s) : KeepsRes s0 (State.issue s d v four run) := by
  unfold State.issue
  (try dsimp only [State.fresh, State.freeVal])
  repeat' (first | with_reducible assumption | with_reducible apply onDie_keeps | with_reducible apply State.bump_keeps | with_reducible apply State.setVe_keeps | intro _ | (with_reducible refine Keeps.ite ?_ ?_) | split | (with_reducible refine KeepsRes.next ?_) | (with_reducible refine Keeps.upd ?_ rfl rfl rfl ?_; rotate_left; (fail_if_success with_reducible exact Moved.refl _); exact Moved.any _ _) | dsimp only)

theorem execVeNop_keeps {s0 : State} (d v : Nat) (_u0 : VFields) (s : State) (hk_s : Keeps s0 s) : KeepsRes s0 (execVeNop d v _u0 s) := by
  unfold execVeNop
  (try dsimp only [State.fresh, State.freeVal])
  repeat' (first | with_reducible assumption | with_reducible apply State.issue_keeps | intro _ | (with_reducible refine Keeps.ite ?_ ?_) | split | (with_reducible refine KeepsRes.next ?_) | (with_reducible refine Keeps.upd ?_ rfl rfl rfl ?_; rotate_left; (fail_if_success with_reducible exact Moved.refl _); exact Moved.any _ _) | dsimp only)

theorem execLd_keeps {s0 : State} (d v : Nat) (f : VFields) (s : State) (hk_s : Keeps s0 s) : KeepsRes s0 (execLd d v f s) := by
  unfold execLd
  (try dsimp only [State.fresh, State.freeVal])
  repeat' (first | with_reducible assumption | with_reducible apply onDie_keeps | with_reducible apply State.issue_keeps | intro _ | (with_reducible refine Keeps.ite ?_ ?_) | split | (with_reducible refine KeepsRes.next ?_) | (with_reducible refine Keeps.upd ?_ rfl rfl rfl ?_; rotate_left; (fail_if_success with_reducible exact Moved.refl _); exact Moved.any _ _) | dsimp only)

theorem execSt_keeps {s0 : State} (d v : Nat) (f : VFields) (s : State) (hk_s : Keeps s0 s) : KeepsRes s0 (execSt d v f s) := by
  unfold execSt
  (try dsimp only [State.fresh, State.freeVal])
  repeat' (first | with_reducible assumption | with_reducible apply onDie_keeps | with_reducible apply State.issue_keeps | intro _ | (with_reducible refine Keeps.ite ?_ ?_) | split | (with_reducible refine KeepsRes.next ?_) | (with_reducible refine Keeps.upd ?_ rfl rfl rfl ?_; rotate_left; (fail_if_success with_reducible exact Moved.refl _); exact Moved.any _ _) | dsimp only)

theorem execMovi_keeps {s0 : State} (d v : Nat) (f : VFields) (s : State) (hk_s : Keeps s0 s) : KeepsRes s0 (execMovi d v f s) := by
  unfold execMovi
  (try dsimp only [State.fresh, State.freeVal])
  repeat' (first | with_reducible assumption | with_reducible apply State.issue_keeps | intro _ | (with_reducible refine Keeps.ite ?_ ?_) | split | (with_reducible refine KeepsRes.next ?_) | (with_reducible refine Keeps.upd ?_ rfl rfl rfl ?_; rotate_left; (fail_if_success with_reducible exact Moved.refl _); exact Moved.any _ _) | dsimp only)

theorem execAdd_keeps {s0 : State} (d v : Nat) (f : VFields) (s : State) (hk_s : Keeps s0 s) : KeepsRes s0 (execAdd d v f s) := by
  unfold execAdd
  (try dsimp only [State.fresh, State.freeVal])
  repeat' (first | with_reducible assumption | with_reducible apply State.issue_keeps | intro _ | (with_reducible refine Keeps.ite ?_ ?_) | split | (with_reducible refine KeepsRes.next ?_) | (with_reducible refine Keeps.upd ?_ rfl rfl rfl ?_; rotate_left; (fail_if_success with_reducible exact Moved.refl _); exact Moved.any _ _) | dsimp only)

theorem execSub_keeps {s0 : State} (d v : Nat) (f : VFields) (s : State) (hk_s : Keeps s0 s) : KeepsRes s0 (execSub d v f s) := by
  unfold execSub
  (try dsimp only [State.fresh, State.freeVal])
  repeat' (first | with_reducible assumption | with_reducible apply State.issue_keeps | intro _ | (with_reducible refine Keeps.ite ?_ ?_) | split | (with_reducible refine KeepsRes.next ?_) | (with_reducible refine Keeps.upd ?_ rfl rfl rfl ?_; rotate_left; (fail_if_success with_reducible exact Moved.refl _); exact Moved.any _ _) | dsimp only)

theorem execMul_keeps {s0 : State} (d v : Nat) (f : VFields) (s : State) (hk_s : Keeps s0 s) : KeepsRes s0 (execMul d v f s) := by
  unfold execMul
  (try dsimp only [State.fresh, State.freeVal])
  repeat' (first | with_reducible assumption | with_reducible apply State.issue_keeps | intro _ | (with_reducible refine Keeps.ite ?_ ?_) | split | (with_reducible refine KeepsRes.next ?_) | (with_reducible refine Keeps.upd ?_ rfl rfl rfl ?_; rotate_left; (fail_if_success with_reducible exact Moved.refl _); exact Moved.any _ _) | dsimp only)

theorem execFma_keeps {s0 : State} (d v : Nat) (f : VFields) (s : State) (hk_s : Keeps s0 s) : KeepsRes s0 (execFma d v f s) := by
  unfold execFma
  (try dsimp only [State.fresh, State.freeVal])
  repeat' (first | with_reducible assumption | with_reducible apply State.issue_keeps | intro _ | (with_reducible refine Keeps.ite ?_ ?_) | split | (with_reducible refine KeepsRes.next ?_) | (with_reducible refine Keeps.upd ?_ rfl rfl rfl ?_; rotate_left; (fail_if_success with_reducible exact Moved.refl _); exact Moved.any _ _) | dsimp only)

theorem execFnma_keeps {s0 : State} (d v : Nat) (f : VFields) (s : State) (hk_s : Keeps s0 s) : KeepsRes s0 (execFnma d v f s) := by
  unfold execFnma
  (try dsimp only [State.fresh, State.freeVal])
  repeat' (first | with_reducible assumption | with_reducible apply State.issue_keeps | intro _ | (with_reducible refine Keeps.ite ?_ ?_) | split | (with_reducible refine KeepsRes.next ?_) | (with_reducible refine Keeps.upd ?_ rfl rfl rfl ?_; rotate_left; (fail_if_success with_reducible exact Moved.refl _); exact Moved.any _ _) | dsimp only)

theorem execMax_keeps {s0 : State} (d v : Nat) (f : VFields) (s : State) (hk_s : Keeps s0 s) : KeepsRes s0 (execMax d v f s) := by
  unfold execMax
  (try dsimp only [State.fresh, State.freeVal])
  repeat' (first | with_reducible assumption | with_reducible apply State.issue_keeps | intro _ | (with_reducible refine Keeps.ite ?_ ?_) | split | (with_reducible refine KeepsRes.next ?_) | (with_reducible refine Keeps.upd ?_ rfl rfl rfl ?_; rotate_left; (fail_if_success with_reducible exact Moved.refl _); exact Moved.any _ _) | dsimp only)

theorem execMin_keeps {s0 : State} (d v : Nat) (f : VFields) (s : State) (hk_s : Keeps s0 s) : KeepsRes s0 (execMin d v f s) := by
  unfold execMin
  (try dsimp only [State.fresh, State.freeVal])
  repeat' (first | with_reducible assumption | with_reducible apply State.issue_keeps | intro _ | (with_reducible refine Keeps.ite ?_ ?_) | split | (with_reducible refine KeepsRes.next ?_) | (with_reducible refine Keeps.upd ?_ rfl rfl rfl ?_; rotate_left; (fail_if_success with_reducible exact Moved.refl _); exact Moved.any _ _) | dsimp only)

theorem execMaxnum_keeps {s0 : State} (d v : Nat) (f : VFields) (s : State) (hk_s : Keeps s0 s) : KeepsRes s0 (execMaxnum d v f s) := by
  unfold execMaxnum
  (try dsimp only [State.fresh, State.freeVal])
  repeat' (first | with_reducible assumption | with_reducible apply State.issue_keeps | intro _ | (with_reducible refine Keeps.ite ?_ ?_) | split | (with_reducible refine KeepsRes.next ?_) | (with_reducible refine Keeps.upd ?_ rfl rfl rfl ?_; rotate_left; (fail_if_success with_reducible exact Moved.refl _); exact Moved.any _ _) | dsimp only)

theorem execMinnum_keeps {s0 : State} (d v : Nat) (f : VFields) (s : State) (hk_s : Keeps s0 s) : KeepsRes s0 (execMinnum d v f s) := by
  unfold execMinnum
  (try dsimp only [State.fresh, State.freeVal])
  repeat' (first | with_reducible assumption | with_reducible apply State.issue_keeps | intro _ | (with_reducible refine Keeps.ite ?_ ?_) | split | (with_reducible refine KeepsRes.next ?_) | (with_reducible refine Keeps.upd ?_ rfl rfl rfl ?_; rotate_left; (fail_if_success with_reducible exact Moved.refl _); exact Moved.any _ _) | dsimp only)

theorem execAbs_keeps {s0 : State} (d v : Nat) (f : VFields) (s : State) (hk_s : Keeps s0 s) : KeepsRes s0 (execAbs d v f s) := by
  unfold execAbs
  (try dsimp only [State.fresh, State.freeVal])
  repeat' (first | with_reducible assumption | with_reducible apply State.issue_keeps | intro _ | (with_reducible refine Keeps.ite ?_ ?_) | split | (with_reducible refine KeepsRes.next ?_) | (with_reducible refine Keeps.upd ?_ rfl rfl rfl ?_; rotate_left; (fail_if_success with_reducible exact Moved.refl _); exact Moved.any _ _) | dsimp only)

theorem execNeg_keeps {s0 : State} (d v : Nat) (f : VFields) (s : State) (hk_s : Keeps s0 s) : KeepsRes s0 (execNeg d v f s) := by
  unfold execNeg
  (try dsimp only [State.fresh, State.freeVal])
  repeat' (first | with_reducible assumption | with_reducible apply State.issue_keeps | intro _ | (with_reducible refine Keeps.ite ?_ ?_) | split | (with_reducible refine KeepsRes.next ?_) | (with_reducible refine Keeps.upd ?_ rfl rfl rfl ?_; rotate_left; (fail_if_success with_reducible exact Moved.refl _); exact Moved.any _ _) | dsimp only)

theorem execSellt_keeps {s0 : State} (d v : Nat) (f : VFields) (s : State) (hk_s : Keeps s0 s) : KeepsRes s0 (execSellt d v f s) := by
  unfold execSellt
  (try dsimp only [State.fresh, State.freeVal])
  repeat' (first | with_reducible assumption | with_reducible apply State.issue_keeps | intro _ | (with_reducible refine Keeps.ite ?_ ?_) | split | (with_reducible refine KeepsRes.next ?_) | (with_reducible refine Keeps.upd ?_ rfl rfl rfl ?_; rotate_left; (fail_if_success with_reducible exact Moved.refl _); exact Moved.any _ _) | dsimp only)

theorem execExp_keeps {s0 : State} (d v : Nat) (f : VFields) (s : State) (hk_s : Keeps s0 s) : KeepsRes s0 (execExp d v f s) := by
  unfold execExp
  (try dsimp only [State.fresh, State.freeVal])
  repeat' (first | with_reducible assumption | with_reducible apply State.issue_keeps | intro _ | (with_reducible refine Keeps.ite ?_ ?_) | split | (with_reducible refine KeepsRes.next ?_) | (with_reducible refine Keeps.upd ?_ rfl rfl rfl ?_; rotate_left; (fail_if_success with_reducible exact Moved.refl _); exact Moved.any _ _) | dsimp only)

theorem execRcp_keeps {s0 : State} (d v : Nat) (f : VFields) (s : State) (hk_s : Keeps s0 s) : KeepsRes s0 (execRcp d v f s) := by
  unfold execRcp
  (try dsimp only [State.fresh, State.freeVal])
  repeat' (first | with_reducible assumption | with_reducible apply State.issue_keeps | intro _ | (with_reducible refine Keeps.ite ?_ ?_) | split | (with_reducible refine KeepsRes.next ?_) | (with_reducible refine Keeps.upd ?_ rfl rfl rfl ?_; rotate_left; (fail_if_success with_reducible exact Moved.refl _); exact Moved.any _ _) | dsimp only)

theorem execRsqrt_keeps {s0 : State} (d v : Nat) (f : VFields) (s : State) (hk_s : Keeps s0 s) : KeepsRes s0 (execRsqrt d v f s) := by
  unfold execRsqrt
  (try dsimp only [State.fresh, State.freeVal])
  repeat' (first | with_reducible assumption | with_reducible apply State.issue_keeps | intro _ | (with_reducible refine Keeps.ite ?_ ?_) | split | (with_reducible refine KeepsRes.next ?_) | (with_reducible refine Keeps.upd ?_ rfl rfl rfl ?_; rotate_left; (fail_if_success with_reducible exact Moved.refl _); exact Moved.any _ _) | dsimp only)

theorem execSsum_keeps {s0 : State} (d v : Nat) (f : VFields) (s : State) (hk_s : Keeps s0 s) : KeepsRes s0 (execSsum d v f s) := by
  unfold execSsum
  (try dsimp only [State.fresh, State.freeVal])
  repeat' (first | with_reducible assumption | with_reducible apply onDie_keeps | with_reducible apply State.issue_keeps | intro _ | (with_reducible refine Keeps.ite ?_ ?_) | split | (with_reducible refine KeepsRes.next ?_) | (with_reducible refine Keeps.upd ?_ rfl rfl rfl ?_; rotate_left; (fail_if_success with_reducible exact Moved.refl _); exact Moved.any _ _) | dsimp only)

theorem execSmaxa_keeps {s0 : State} (d v : Nat) (f : VFields) (s : State) (hk_s : Keeps s0 s) : KeepsRes s0 (execSmaxa d v f s) := by
  unfold execSmaxa
  (try dsimp only [State.fresh, State.freeVal])
  repeat' (first | with_reducible assumption | with_reducible apply onDie_keeps | with_reducible apply State.issue_keeps | intro _ | (with_reducible refine Keeps.ite ?_ ?_) | split | (with_reducible refine KeepsRes.next ?_) | (with_reducible refine Keeps.upd ?_ rfl rfl rfl ?_; rotate_left; (fail_if_success with_reducible exact Moved.refl _); exact Moved.any _ _) | dsimp only)

theorem State.vflush_keeps {s0 : State} (s : State) (w : Work) (ins : List Nat) (x : Ve) (i ts : Nat) (hk_s : Keeps s0 s) : Keeps s0 (State.vflush s w ins x i ts).1 := by
  unfold State.vflush
  (try dsimp only [State.fresh, State.freeVal])
  repeat' (first | with_reducible assumption | with_reducible apply State.putTile_keeps | with_reducible apply Keeps.foldl | with_reducible apply Keeps.foldlFst | with_reducible apply Keeps.foldlSnd | intro _ | (with_reducible refine Keeps.ite ?_ ?_) | split | (with_reducible refine Keeps.snd ‹_› ?_) | (with_reducible refine Keeps.fst ‹_› ?_) | (with_reducible refine Keeps.upd ?_ rfl rfl rfl ?_; rotate_left; (fail_if_success with_reducible exact Moved.refl _); exact Moved.any _ _) | dsimp only)

theorem State.vcount_keeps {s0 : State} (s : State) (d v : Nat) (x : Ve) (l : List (Nat × VFields)) (n : Nat) (hk_s : Keeps s0 s) : Keeps s0 (State.vcount s d v x l n) := by
  unfold State.vcount
  (try dsimp only [State.fresh, State.freeVal])
  repeat' (first | with_reducible assumption | with_reducible apply State.bump_keeps | intro _ | (with_reducible refine Keeps.ite ?_ ?_) | split | (with_reducible refine Keeps.snd ‹_› ?_) | (with_reducible refine Keeps.fst ‹_› ?_) | (with_reducible refine Keeps.upd ?_ rfl rfl rfl ?_; rotate_left; (fail_if_success with_reducible exact Moved.refl _); exact Moved.any _ _) | dsimp only)

theorem State.vpasses_keeps {s0 : State} (w : Work) (ins : List Nat) (ps : List VPass) (x : State × Ve × Nat) (hk : Keeps s0 x.1) :
    Keeps s0 (State.vpasses w ins ps x).1 := by
  induction ps generalizing x with
  | nil => exact hk
  | cons p ps ih =>
    obtain ⟨s, x, st⟩ := x
    unfold State.vpasses
    dsimp only
    split
    · exact hk
    · split
      · exact hk
      · apply ih
        apply Keeps.foldlFst
        · intro y a h
          exact State.vflush_keeps _ _ _ _ _ _ h
        · apply State.bump_keeps
          apply State.vcount_keeps
          apply State.vcount_keeps
          exact hk

theorem State.vecBody_keeps {s0 : State} (s : State) (w : Work) (hk_s : Keeps s0 s) : Keeps s0 (State.vecBody s w) := by
  unfold State.vecBody
  (try dsimp only [State.fresh, State.freeVal])
  repeat' (first | with_reducible assumption | with_reducible apply State.modWork_keeps | with_reducible apply State.endWork_keeps | with_reducible apply State.measProgram_keeps | with_reducible apply State.setVe_keeps | with_reducible apply State.vpasses_keeps | with_reducible apply Keeps.foldl | with_reducible apply Keeps.foldlFst | with_reducible apply Keeps.foldlSnd | intro _ | (with_reducible refine Keeps.ite ?_ ?_) | split | (with_reducible refine Keeps.snd ‹_› ?_) | (with_reducible refine Keeps.fst ‹_› ?_) | (with_reducible refine Keeps.upd ?_ rfl rfl rfl ?_; rotate_left; (fail_if_success with_reducible exact Moved.refl _); exact Moved.any _ _) | dsimp only)

theorem execVector_keeps {s0 : State} (id : Nat) (s : State) (hk_s : Keeps s0 s) : KeepsRes s0 (execVector id s) := by
  unfold execVector
  (try dsimp only [State.fresh, State.freeVal])
  repeat' (first | with_reducible assumption | with_reducible apply live_keeps | with_reducible apply State.begin_keeps | with_reducible apply State.vecBody_keeps | intro _ | (with_reducible refine Keeps.ite ?_ ?_) | split | (with_reducible refine KeepsRes.next ?_) | (with_reducible refine Keeps.upd ?_ rfl rfl rfl ?_; rotate_left; (fail_if_success with_reducible exact Moved.refl _); exact Moved.any _ _) | dsimp only)

end Sys2Proof.Machine
end

