-- ==== Sys2Proof/Laws/KeepsBatch.lean ====
section
/-! SUPPORT. What the operations of Machine/Batch.lean keep: the queue, the part and the invariant. -/

namespace Sys2Proof.Machine

theorem State.poisonRows_keeps {s0 : State} (s : State) (x : Nat × Nat × Nat × Nat) (hk_s : Keeps s0 s) : Keeps s0 (State.poisonRows s x) := by
  unfold State.poisonRows
  (try dsimp only [State.fresh, State.freeVal])
  repeat' (first | with_reducible assumption | with_reducible apply State.writeTile_keeps | with_reducible apply Keeps.foldl | with_reducible apply Keeps.foldlFst | with_reducible apply Keeps.foldlSnd | intro _ | (with_reducible refine Keeps.ite ?_ ?_) | split | (with_reducible refine Keeps.snd ‹_› ?_) | (with_reducible refine Keeps.fst ‹_› ?_) | (with_reducible refine Keeps.upd ?_ rfl rfl rfl ?_; rotate_left; (fail_if_success with_reducible exact Moved.refl _); exact Moved.any _ _) | dsimp only)

theorem State.poisonOutput_keeps {s0 : State} (s : State) (w : Work) (hk_s : Keeps s0 s) : Keeps s0 (State.poisonOutput s w) := by
  unfold State.poisonOutput
  (try dsimp only [State.fresh, State.freeVal])
  repeat' (first | with_reducible assumption | with_reducible apply State.write_keeps | with_reducible apply State.poisonRows_keeps | with_reducible apply Keeps.write | with_reducible apply Keeps.foldl | with_reducible apply Keeps.foldlFst | with_reducible apply Keeps.foldlSnd | intro _ | (with_reducible refine Keeps.ite ?_ ?_) | split | (with_reducible refine Keeps.upd ?_ rfl rfl rfl ?_; rotate_left; (fail_if_success with_reducible exact Moved.refl _); exact Moved.any _ _) | dsimp only)

theorem State.issueBatch_keeps {s0 : State} (s : State) (b : Batch) (ws : List Work) (hk_s : Keeps s0 s) : Keeps s0 (State.issueBatch s b ws) := by
  unfold State.issueBatch
  (try dsimp only [State.fresh, State.freeVal])
  repeat' (first | with_reducible assumption | with_reducible apply State.countPoisoned_keeps | with_reducible apply State.poisonOutput_keeps | with_reducible apply Keeps.foldl | with_reducible apply Keeps.foldlFst | with_reducible apply Keeps.foldlSnd | intro _ | (with_reducible refine Keeps.ite ?_ ?_) | split | (with_reducible refine Keeps.upd ?_ rfl rfl rfl ?_; rotate_left; (fail_if_success with_reducible exact Moved.refl _); exact Moved.any _ _) | dsimp only)

theorem State.buildBatch_keeps {s0 : State} (s : State) (id sl : Nat) (parity : List Nat) (hk_s : Keeps s0 s) : Keeps s0 (State.buildBatch s id sl parity) := by
  unfold State.buildBatch
  (try dsimp only [State.fresh, State.freeVal])
  repeat' (first | with_reducible assumption | with_reducible apply State.joinGroup_keeps | with_reducible apply State.modColl_keeps | with_reducible apply State.onColl_keeps | with_reducible apply State.pumpDie_keeps | with_reducible apply State.issueBatch_keeps | with_reducible apply Keeps.foldl | with_reducible apply Keeps.foldlFst | with_reducible apply Keeps.foldlSnd | intro _ | (with_reducible refine Keeps.ite ?_ ?_) | split | (with_reducible refine Keeps.upd ?_ rfl rfl rfl ?_; rotate_left; (fail_if_success with_reducible exact Moved.refl _); exact Moved.any _ _) | dsimp only)

theorem execBatchBuild_keeps {s0 : State} (id : Nat) (x : SlotBuild) (s : State) (hk_s : Keeps s0 s) : KeepsRes s0 (execBatchBuild id x s) := by
  unfold execBatchBuild
  (try dsimp only [State.fresh, State.freeVal])
  repeat' (first | with_reducible assumption | with_reducible apply live_keeps | with_reducible apply State.buildBatch_keeps | intro _ | (with_reducible refine Keeps.ite ?_ ?_) | split | (with_reducible refine KeepsRes.next ?_) | (with_reducible refine Keeps.upd ?_ rfl rfl rfl ?_; rotate_left; (fail_if_success with_reducible exact Moved.refl _); exact Moved.any _ _) | dsimp only)

theorem State.replayBatch_keeps {s0 : State} (s : State) (b : Batch) (u : Nat) (hk_s : Keeps s0 s) : Keeps s0 (State.replayBatch s b u) := by
  unfold State.replayBatch
  (try dsimp only [State.fresh, State.freeVal])
  repeat' (first | with_reducible assumption | with_reducible apply State.bump_keeps | with_reducible apply State.endStatus_keeps | with_reducible apply State.poisonRows_keeps | with_reducible apply State.issueBatch_keeps | with_reducible apply Keeps.foldl | with_reducible apply Keeps.foldlFst | with_reducible apply Keeps.foldlSnd | intro _ | (with_reducible refine Keeps.ite ?_ ?_) | split | (with_reducible refine Keeps.snd ‹_› ?_) | (with_reducible refine Keeps.fst ‹_› ?_) | (with_reducible refine Keeps.upd ?_ rfl rfl rfl ?_; rotate_left; (fail_if_success with_reducible exact Moved.refl _); exact Moved.any _ _) | dsimp only)

theorem execBatchReplay_keeps {s0 : State} (d unit : Nat) (s : State) (hk_s : Keeps s0 s) : KeepsRes s0 (execBatchReplay d unit s) := by
  unfold execBatchReplay
  (try dsimp only [State.fresh, State.freeVal])
  repeat' (first | with_reducible assumption | with_reducible apply onDie_keeps | with_reducible apply State.replayBatch_keeps | with_reducible apply Keeps.foldl | with_reducible apply Keeps.foldlFst | with_reducible apply Keeps.foldlSnd | intro _ | (with_reducible refine Keeps.ite ?_ ?_) | split | (with_reducible refine KeepsRes.next ?_) | (with_reducible refine Keeps.upd ?_ rfl rfl rfl ?_; rotate_left; (fail_if_success with_reducible exact Moved.refl _); exact Moved.any _ _) | dsimp only)

end Sys2Proof.Machine
end

