-- ==== Sys2Proof/Laws/KeepsUpdate.lean ====
section
/-! SUPPORT. What the operations of Machine/Update.lean keep: the queue, the part and the invariant. -/

namespace Sys2Proof.Machine

theorem State.writeMat_keeps {s0 : State} (s : State) (a obj rows cols : Nat) (m : Mat) (poison : Bool) (hk_s : Keeps s0 s) : Keeps s0 (State.writeMat s a obj rows cols m poison) := by
  unfold State.writeMat
  (try dsimp only [State.fresh, State.freeVal])
  repeat' (first | with_reducible assumption | with_reducible apply State.writeTile_keeps | with_reducible apply Keeps.foldl | with_reducible apply Keeps.foldlFst | with_reducible apply Keeps.foldlSnd | intro _ | (with_reducible refine Keeps.ite ?_ ?_) | split | (with_reducible refine Keeps.snd ‹_› ?_) | (with_reducible refine Keeps.fst ‹_› ?_) | (with_reducible refine Keeps.upd ?_ rfl rfl rfl ?_; rotate_left; (fail_if_success with_reducible exact Moved.refl _); exact Moved.any _ _) | dsimp only)

theorem State.writeWeight_keeps {s0 : State} (src : State) (w : Work) (key : Nat) (e : Own) (r : Rule) (master : Mat) (bad : Bool) (x : State × Tally) (hk_x : Keeps s0 x.1) : Keeps s0 (State.writeWeight src w key e r master bad x).1 := by
  unfold State.writeWeight
  (try dsimp only [State.fresh, State.freeVal])
  repeat' (first | with_reducible assumption | with_reducible apply State.putTile_keeps | with_reducible apply Keeps.foldl | with_reducible apply Keeps.foldlFst | with_reducible apply Keeps.foldlSnd | intro _ | (with_reducible refine Keeps.ite ?_ ?_) | split | (with_reducible refine Keeps.snd ‹_› ?_) | (with_reducible refine Keeps.fst ‹_› ?_) | (with_reducible refine Keeps.upd ?_ rfl rfl rfl ?_; rotate_left; (fail_if_success with_reducible exact Moved.refl _); exact Moved.any _ _) | dsimp only)

theorem State.stageCounts_keeps {s0 : State} (s : State) (d u : Nat) (hk_s : Keeps s0 s) : Keeps s0 (State.stageCounts s d u) := by
  unfold State.stageCounts
  (try dsimp only [State.fresh, State.freeVal])
  repeat' (first | with_reducible assumption | with_reducible apply State.bumpFree_keeps | with_reducible apply Keeps.foldl | with_reducible apply Keeps.foldlFst | with_reducible apply Keeps.foldlSnd | intro _ | (with_reducible refine Keeps.ite ?_ ?_) | split | (with_reducible refine Keeps.upd ?_ rfl rfl rfl ?_; rotate_left; (fail_if_success with_reducible exact Moved.refl _); exact Moved.any _ _) | dsimp only)

theorem State.putSlots_keeps {s0 : State} (s : State) (w : Work) (i : Nat) (e : Own) (r : Rule) (shapes : List (Nat × Nat × Nat)) (slots : List Mat) (bad : Bool) (hk_s : Keeps s0 s) : Keeps s0 (State.putSlots s w i e r shapes slots bad) := by
  unfold State.putSlots
  (try dsimp only [State.fresh, State.freeVal])
  repeat' (first | with_reducible assumption | with_reducible apply State.scramble_keeps | with_reducible apply State.stage_keeps | with_reducible apply State.writeMat_keeps | with_reducible apply Keeps.foldl | with_reducible apply Keeps.foldlFst | with_reducible apply Keeps.foldlSnd | intro _ | (with_reducible refine Keeps.ite ?_ ?_) | split | (with_reducible refine Keeps.upd ?_ rfl rfl rfl ?_; rotate_left; (fail_if_success with_reducible exact Moved.refl _); exact Moved.any _ _) | dsimp only)

theorem State.putWeight_keeps {s0 : State} (src t : State) (w : Work) (e : Own) (r : Rule) (slots : List Mat) (nonf bad : Bool) (hk : Keeps s0 t) :
    Keeps s0 (State.putWeight src t w e r slots nonf bad).1 := by
  have hr : Keeps s0 (if e.home = w.die then (w.srKey, t) else t.roundKey e.home w.part w.det).2 := by
    split
    · exact hk
    · exact State.roundKey_keeps _ _ _ _ hk
  unfold State.putWeight
  dsimp only
  apply State.modWork_keeps
  refine Keeps.foldl (fun s u h => State.stageCounts_keeps s _ u h) _ ?_
  apply State.bump_keeps
  apply State.bump_keeps
  apply State.queueFold_keeps
  apply State.writeWeight_keeps
  exact hr

theorem UpSt.entry_keeps {s0 : State} (w : Work) (a : UpSt) (i : Nat) (hk : Keeps s0 a.s) : Keeps s0 (UpSt.entry w a i).s := by
  unfold UpSt.entry
  dsimp only
  split
  · exact hk
  · split
    · exact Keeps.ite (State.accessRefused_keeps _ _ hk) hk
    · split
      · exact hk
      · exact State.putWeight_keeps _ _ _ _ _ _ _ _ (State.putSlots_keeps _ _ _ _ _ _ _ _ hk)

theorem State.upBody_keeps {s0 : State} (s : State) (w : Work) (hk : Keeps s0 s) : Keeps s0 (s.upBody w) := by
  have hf : ∀ (l : List Nat) (a : UpSt), Keeps s0 a.s → Keeps s0 (l.foldl (UpSt.entry w) a).s := by
    intro l
    induction l with
    | nil => exact fun a h => h
    | cons i l ih => exact fun a h => ih _ (UpSt.entry_keeps w a i h)
  unfold State.upBody
  apply State.endWork_keeps
  exact hf _ _ hk

theorem execUpdate_keeps {s0 : State} (id : Nat) (s : State) (hk_s : Keeps s0 s) : KeepsRes s0 (execUpdate id s) := by
  unfold execUpdate
  (try dsimp only [State.fresh, State.freeVal])
  repeat' (first | with_reducible assumption | with_reducible apply live_keeps | with_reducible apply State.begin_keeps | with_reducible apply State.upBody_keeps | intro _ | (with_reducible refine Keeps.ite ?_ ?_) | split | (with_reducible refine KeepsRes.next ?_) | (with_reducible refine Keeps.upd ?_ rfl rfl rfl ?_; rotate_left; (fail_if_success with_reducible exact Moved.refl _); exact Moved.any _ _) | dsimp only)

theorem State.moveStage_keeps {s0 : State} (w : Work) (s : State) (x : Nat × Nat) (hk_s : Keeps s0 s) : Keeps s0 (State.moveStage w s x) := by
  unfold State.moveStage
  (try dsimp only [State.fresh, State.freeVal])
  repeat' (first | with_reducible assumption | with_reducible apply live_keeps | with_reducible apply State.bump_keeps | with_reducible apply State.modWork_keeps | intro _ | (with_reducible refine Keeps.ite ?_ ?_) | split | (with_reducible refine Keeps.snd ‹_› ?_) | (with_reducible refine Keeps.fst ‹_› ?_) | (with_reducible refine Keeps.upd ?_ rfl rfl rfl ?_; rotate_left; (fail_if_success with_reducible exact Moved.refl _); exact Moved.any _ _) | dsimp only)

theorem execStageReplay_keeps {s0 : State} (id : Nat) (s : State) (hk_s : Keeps s0 s) : KeepsRes s0 (execStageReplay id s) := by
  unfold execStageReplay
  (try dsimp only [State.fresh, State.freeVal])
  repeat' (first | with_reducible assumption | with_reducible apply live_keeps | with_reducible apply State.moveStage_keeps | with_reducible apply Keeps.foldl | with_reducible apply Keeps.foldlFst | with_reducible apply Keeps.foldlSnd | intro _ | (with_reducible refine Keeps.ite ?_ ?_) | split | (with_reducible refine Keeps.snd ‹_› ?_) | (with_reducible refine Keeps.fst ‹_› ?_) | (with_reducible refine KeepsRes.next ?_) | (with_reducible refine Keeps.upd ?_ rfl rfl rfl ?_; rotate_left; (fail_if_success with_reducible exact Moved.refl _); exact Moved.any _ _) | dsimp only)

end Sys2Proof.Machine
end

