-- ==== Sys2Proof/Laws/KeepsCommit.lean ====
section
/-! SUPPORT. What the operations of Machine/Commit.lean keep: the queue, the part and the invariant. -/

namespace Sys2Proof.Machine

theorem State.modDom_keeps {s0 : State} (s : State) (m : Nat) (f : Dom → Dom) (hk_s : Keeps s0 s) : Keeps s0 (State.modDom s m f) := by
  unfold State.modDom
  (try dsimp only [State.fresh, State.freeVal])
  repeat' (first | with_reducible assumption | intro _ | (with_reducible refine Keeps.ite ?_ ?_) | split | (with_reducible refine Keeps.upd ?_ rfl rfl rfl ?_; rotate_left; (fail_if_success with_reducible exact Moved.refl _); exact Moved.any _ _) | dsimp only)

theorem State.cmtCount_keeps {s0 : State} (s : State) (d i n : Nat) (hk_s : Keeps s0 s) : Keeps s0 (State.cmtCount s d i n) := by
  unfold State.cmtCount
  (try dsimp only [State.fresh, State.freeVal])
  repeat' (first | with_reducible assumption | with_reducible apply State.bump_keeps | intro _ | (with_reducible refine Keeps.ite ?_ ?_) | split | (with_reducible refine Keeps.upd ?_ rfl rfl rfl ?_; rotate_left; (fail_if_success with_reducible exact Moved.refl _); exact Moved.any _ _) | dsimp only)

theorem State.cmtSend_keeps {s0 : State} (s : State) (m dest : Nat) (f : CommitFrame) (hk_s : Keeps s0 s) : Keeps s0 (State.cmtSend s m dest f) := by
  unfold State.cmtSend
  (try dsimp only [State.fresh, State.freeVal])
  repeat' (first | with_reducible assumption | with_reducible apply State.sendRouted_keeps | with_reducible apply State.sendSide_keeps | intro _ | (with_reducible refine Keeps.ite ?_ ?_) | split | (with_reducible refine Keeps.upd ?_ rfl rfl rfl ?_; rotate_left; (fail_if_success with_reducible exact Moved.refl _); exact Moved.any _ _) | dsimp only)

theorem State.modGroup_keeps {s0 : State} (s : State) (slot : Nat) (f : Group → Group) (hk_s : Keeps s0 s) : Keeps s0 (State.modGroup s slot f) := by
  unfold State.modGroup
  (try dsimp only [State.fresh, State.freeVal])
  repeat' (first | with_reducible assumption | intro _ | (with_reducible refine Keeps.ite ?_ ?_) | split | (with_reducible refine Keeps.upd ?_ rfl rfl rfl ?_; rotate_left; (fail_if_success with_reducible exact Moved.refl _); exact Moved.any _ _) | dsimp only)

theorem State.commitGroup_keeps {s0 : State} (s : State) (slot : Nat) (hk_s : Keeps s0 s) : Keeps s0 (State.commitGroup s slot).2.2 := by
  unfold State.commitGroup
  (try dsimp only [State.fresh, State.freeVal])
  repeat' (first | with_reducible assumption | with_reducible apply State.setTwin_keeps | with_reducible apply State.setObjBase_keeps | with_reducible apply State.staged_keeps | with_reducible apply Keeps.foldl | with_reducible apply Keeps.foldlFst | with_reducible apply Keeps.foldlSnd | intro _ | (with_reducible refine Keeps.ite ?_ ?_) | split | (with_reducible refine Keeps.upd ?_ rfl rfl rfl ?_; rotate_left; (fail_if_success with_reducible exact Moved.refl _); exact Moved.any _ _) | dsimp only)

theorem State.abortGroup_keeps {s0 : State} (s : State) (slot : Nat) (hk_s : Keeps s0 s) : Keeps s0 (State.abortGroup s slot) := by
  unfold State.abortGroup
  (try dsimp only [State.fresh, State.freeVal])
  repeat' (first | with_reducible assumption | with_reducible apply State.scramble_keeps | with_reducible apply State.setTwin_keeps | with_reducible apply State.staged_keeps | with_reducible apply Keeps.foldl | with_reducible apply Keeps.foldlFst | with_reducible apply Keeps.foldlSnd | intro _ | (with_reducible refine Keeps.ite ?_ ?_) | split | (with_reducible refine Keeps.upd ?_ rfl rfl rfl ?_; rotate_left; (fail_if_success with_reducible exact Moved.refl _); exact Moved.any _ _) | dsimp only)

theorem State.resolve_keeps {s0 : State} (s : State) (g : Group) (d : Nat) (x : Verdict) (hk_s : Keeps s0 s) : Keeps s0 (State.resolve s g d x) := by
  unfold State.resolve
  (try dsimp only [State.fresh, State.freeVal])
  repeat' (first | with_reducible assumption | with_reducible apply State.endWork_keeps | with_reducible apply State.cmtCount_keeps | with_reducible apply State.modGroup_keeps | with_reducible apply State.commitGroup_keeps | with_reducible apply State.abortGroup_keeps | intro _ | (with_reducible refine Keeps.ite ?_ ?_) | split | (with_reducible refine Keeps.snd ‹_› ?_) | (with_reducible refine Keeps.fst ‹_› ?_) | (with_reducible refine Keeps.upd ?_ rfl rfl rfl ?_; rotate_left; (fail_if_success with_reducible exact Moved.refl _); exact Moved.any _ _) | dsimp only)

theorem State.setHold_keeps {s0 : State} (s : State) (h : Nat) (x : Hold) (hk_s : Keeps s0 s) : Keeps s0 (State.setHold s h x) := by
  unfold State.setHold
  (try dsimp only [State.fresh, State.freeVal])
  repeat' (first | with_reducible assumption | with_reducible apply State.write_keeps | with_reducible apply Keeps.write | intro _ | (with_reducible refine Keeps.ite ?_ ?_) | split | (with_reducible refine Keeps.upd ?_ rfl rfl rfl ?_; rotate_left; (fail_if_success with_reducible exact Moved.refl _); exact Moved.any _ _) | dsimp only)

theorem State.applyHolds_keeps {s0 : State} (s : State) (m : Nat) (x : Verdict) (hk_s : Keeps s0 s) : Keeps s0 (State.applyHolds s m x) := by
  unfold State.applyHolds
  (try dsimp only [State.fresh, State.freeVal])
  repeat' (first | with_reducible assumption | with_reducible apply State.stage_keeps | with_reducible apply State.staged_keeps | with_reducible apply State.setHold_keeps | with_reducible apply Keeps.foldl | with_reducible apply Keeps.foldlFst | with_reducible apply Keeps.foldlSnd | intro _ | (with_reducible refine Keeps.ite ?_ ?_) | split | (with_reducible refine Keeps.upd ?_ rfl rfl rfl ?_; rotate_left; (fail_if_success with_reducible exact Moved.refl _); exact Moved.any _ _) | dsimp only)

theorem State.decide__keeps {s0 : State} (s : State) (m : Nat) (x : Verdict) (hk_s : Keeps s0 s) : Keeps s0 (State.decide_ s m x) := by
  unfold State.decide_
  (try dsimp only [State.fresh, State.freeVal])
  repeat' (first | with_reducible assumption | with_reducible apply State.modDom_keeps | intro _ | (with_reducible refine Keeps.ite ?_ ?_) | split | (with_reducible refine Keeps.upd ?_ rfl rfl rfl ?_; rotate_left; (fail_if_success with_reducible exact Moved.refl _); exact Moved.any _ _) | dsimp only)

theorem State.applyLoop_keeps {s0 : State} (m : Nat) (n : Nat) (s : State) (hk_s : Keeps s0 s) : Keeps s0 (State.applyLoop m n s) := by
  induction n generalizing s with
  | zero =>
    unfold State.applyLoop
    (try dsimp only)
    repeat' (first | with_reducible assumption | with_reducible apply State.writeN_keeps | with_reducible apply State.modDom_keeps | with_reducible apply State.cmtSend_keeps | with_reducible apply State.resolve_keeps | with_reducible apply State.applyHolds_keeps | intro _ | (with_reducible refine Keeps.ite ?_ ?_) | split | (with_reducible refine Keeps.snd ‹_› ?_) | (with_reducible refine Keeps.fst ‹_› ?_) | (with_reducible refine Keeps.upd ?_ rfl rfl rfl ?_; rotate_left; (fail_if_success with_reducible exact Moved.refl _); exact Moved.any _ _) | dsimp only)
  | succ n ih =>
    unfold State.applyLoop
    (try dsimp only [State.fresh, State.freeVal])
    repeat' (first | with_reducible assumption | with_reducible apply ih | with_reducible apply State.writeN_keeps | with_reducible apply State.modDom_keeps | with_reducible apply State.cmtSend_keeps | with_reducible apply State.resolve_keeps | with_reducible apply State.applyHolds_keeps | intro _ | (with_reducible refine Keeps.ite ?_ ?_) | split | (with_reducible refine Keeps.snd ‹_› ?_) | (with_reducible refine Keeps.fst ‹_› ?_) | (with_reducible refine Keeps.upd ?_ rfl rfl rfl ?_; rotate_left; (fail_if_success with_reducible exact Moved.refl _); exact Moved.any _ _) | dsimp only)

theorem State.sendPrepares_keeps {s0 : State} (m : Nat) (n : Nat) (s : State) (hk_s : Keeps s0 s) : Keeps s0 (State.sendPrepares m n s) := by
  induction n generalizing s with
  | zero =>
    unfold State.sendPrepares
    (try dsimp only)
    repeat' (first | with_reducible assumption | with_reducible apply State.modDom_keeps | with_reducible apply State.cmtSend_keeps | with_reducible apply State.decide__keeps | intro _ | (with_reducible refine Keeps.ite ?_ ?_) | split | (with_reducible refine Keeps.snd ‹_› ?_) | (with_reducible refine Keeps.fst ‹_› ?_) | (with_reducible refine Keeps.upd ?_ rfl rfl rfl ?_; rotate_left; (fail_if_success with_reducible exact Moved.refl _); exact Moved.any _ _) | dsimp only)
  | succ n ih =>
    unfold State.sendPrepares
    (try dsimp only [State.fresh, State.freeVal])
    repeat' (first | with_reducible assumption | with_reducible apply ih | with_reducible apply State.modDom_keeps | with_reducible apply State.cmtSend_keeps | with_reducible apply State.decide__keeps | intro _ | (with_reducible refine Keeps.ite ?_ ?_) | split | (with_reducible refine Keeps.snd ‹_› ?_) | (with_reducible refine Keeps.fst ‹_› ?_) | (with_reducible refine Keeps.upd ?_ rfl rfl rfl ?_; rotate_left; (fail_if_success with_reducible exact Moved.refl _); exact Moved.any _ _) | dsimp only)

theorem State.forwardPrepares_keeps {s0 : State} (s : State) (m : Nat) (hk_s : Keeps s0 s) : Keeps s0 (State.forwardPrepares s m) := by
  unfold State.forwardPrepares
  (try dsimp only [State.fresh, State.freeVal])
  repeat' (first | with_reducible assumption | with_reducible apply State.modDom_keeps | with_reducible apply State.cmtSend_keeps | with_reducible apply Keeps.foldl | with_reducible apply Keeps.foldlFst | with_reducible apply Keeps.foldlSnd | intro _ | (with_reducible refine Keeps.ite ?_ ?_) | split | (with_reducible refine Keeps.snd ‹_› ?_) | (with_reducible refine Keeps.fst ‹_› ?_) | (with_reducible refine Keeps.upd ?_ rfl rfl rfl ?_; rotate_left; (fail_if_success with_reducible exact Moved.refl _); exact Moved.any _ _) | dsimp only)

theorem State.domStep_keeps {s0 : State} (s : State) (m : Nat) (hk_s : Keeps s0 s) : Keeps s0 (State.domStep s m) := by
  unfold State.domStep
  (try dsimp only [State.fresh, State.freeVal])
  repeat' (first | with_reducible assumption | with_reducible apply State.applyLoop_keeps | with_reducible apply State.sendPrepares_keeps | with_reducible apply State.forwardPrepares_keeps | intro _ | (with_reducible refine Keeps.ite ?_ ?_) | split | (with_reducible refine Keeps.upd ?_ rfl rfl rfl ?_; rotate_left; (fail_if_success with_reducible exact Moved.refl _); exact Moved.any _ _) | dsimp only)

theorem State.voteGroup_keeps {s0 : State} (s : State) (g : Group) (hk_s : Keeps s0 s) : Keeps s0 (State.voteGroup s g) := by
  unfold State.voteGroup
  (try dsimp only [State.fresh, State.freeVal])
  repeat' (first | with_reducible assumption | with_reducible apply State.modGroup_keeps | with_reducible apply State.resolve_keeps | with_reducible apply State.domStep_keeps | intro _ | (with_reducible refine Keeps.ite ?_ ?_) | split | (with_reducible refine Keeps.snd ‹_› ?_) | (with_reducible refine Keeps.fst ‹_› ?_) | (with_reducible refine Keeps.upd ?_ rfl rfl rfl ?_; rotate_left; (fail_if_success with_reducible exact Moved.refl _); exact Moved.any _ _) | dsimp only)

theorem execVoteReady_keeps {s0 : State} (group : Nat) (s : State) (hk_s : Keeps s0 s) : KeepsRes s0 (execVoteReady group s) := by
  unfold execVoteReady
  (try dsimp only [State.fresh, State.freeVal])
  repeat' (first | with_reducible assumption | with_reducible apply live_keeps | with_reducible apply State.voteGroup_keeps | intro _ | (with_reducible refine Keeps.ite ?_ ?_) | split | (with_reducible refine Keeps.snd ‹_› ?_) | (with_reducible refine Keeps.fst ‹_› ?_) | (with_reducible refine KeepsRes.next ?_) | (with_reducible refine Keeps.upd ?_ rfl rfl rfl ?_; rotate_left; (fail_if_success with_reducible exact Moved.refl _); exact Moved.any _ _) | dsimp only)

theorem State.cmtIn_keeps {s0 : State} (s : State) (d : Nat) (f : CommitFrame) (act : State → DomRec → State) (hk_s : Keeps s0 s) (hk_act : ∀ y0 y1, Keeps s0 y0 → Keeps s0 (act y0 y1)) : Keeps s0 (State.cmtIn s d f act) := by
  unfold State.cmtIn
  (try dsimp only [State.fresh, State.freeVal])
  repeat' (first | with_reducible assumption | with_reducible apply hk_act | with_reducible apply State.bump_keeps | with_reducible apply State.takeRx_keeps | with_reducible apply State.sendRouted_keeps | with_reducible apply State.linkTake_keeps | with_reducible apply State.cmtCount_keeps | intro _ | (with_reducible refine Keeps.ite ?_ ?_) | split | (with_reducible refine Keeps.snd ‹_› ?_) | (with_reducible refine Keeps.fst ‹_› ?_) | (with_reducible refine Keeps.upd ?_ rfl rfl rfl ?_; rotate_left; (fail_if_success with_reducible exact Moved.refl _); exact Moved.any _ _) | dsimp only)

theorem State.prepareIn_keeps {s0 : State} (s : State) (f : CommitFrame) (r : DomRec) (hk_s : Keeps s0 s) : Keeps s0 (State.prepareIn s f r) := by
  unfold State.prepareIn
  (try dsimp only [State.fresh, State.freeVal])
  repeat' (first | with_reducible assumption | with_reducible apply State.modDom_keeps | with_reducible apply State.cmtSend_keeps | with_reducible apply State.decide__keeps | with_reducible apply State.domStep_keeps | intro _ | (with_reducible refine Keeps.ite ?_ ?_) | split | (with_reducible refine Keeps.upd ?_ rfl rfl rfl ?_; rotate_left; (fail_if_success with_reducible exact Moved.refl _); exact Moved.any _ _) | dsimp only)

theorem execPrepareFrame_keeps {s0 : State} (d : Nat) (f : CommitFrame) (s : State) (hk_s : Keeps s0 s) : KeepsRes s0 (execPrepareFrame d f s) := by
  unfold execPrepareFrame
  (try dsimp only [State.fresh, State.freeVal])
  repeat' (first | with_reducible assumption | with_reducible apply onDie_keeps | with_reducible apply State.cmtIn_keeps | with_reducible apply State.prepareIn_keeps | intro _ | (with_reducible refine Keeps.ite ?_ ?_) | split | (with_reducible refine KeepsRes.next ?_) | (with_reducible refine Keeps.upd ?_ rfl rfl rfl ?_; rotate_left; (fail_if_success with_reducible exact Moved.refl _); exact Moved.any _ _) | dsimp only)

theorem State.decideIn_keeps {s0 : State} (s : State) (f : CommitFrame) (r : DomRec) (hk_s : Keeps s0 s) : Keeps s0 (State.decideIn s f r) := by
  unfold State.decideIn
  (try dsimp only [State.fresh, State.freeVal])
  repeat' (first | with_reducible assumption | with_reducible apply State.cmtSend_keeps | with_reducible apply State.decide__keeps | with_reducible apply State.domStep_keeps | intro _ | (with_reducible refine Keeps.ite ?_ ?_) | split | (with_reducible refine Keeps.upd ?_ rfl rfl rfl ?_; rotate_left; (fail_if_success with_reducible exact Moved.refl _); exact Moved.any _ _) | dsimp only)

theorem execDecideFrame_keeps {s0 : State} (d : Nat) (f : CommitFrame) (s : State) (hk_s : Keeps s0 s) : KeepsRes s0 (execDecideFrame d f s) := by
  unfold execDecideFrame
  (try dsimp only [State.fresh, State.freeVal])
  repeat' (first | with_reducible assumption | with_reducible apply onDie_keeps | with_reducible apply State.cmtIn_keeps | with_reducible apply State.decideIn_keeps | intro _ | (with_reducible refine Keeps.ite ?_ ?_) | split | (with_reducible refine KeepsRes.next ?_) | (with_reducible refine Keeps.upd ?_ rfl rfl rfl ?_; rotate_left; (fail_if_success with_reducible exact Moved.refl _); exact Moved.any _ _) | dsimp only)

theorem execCmtLinkAck_keeps {s0 : State} (d : Nat) (f : CommitFrame) (s : State) (hk_s : Keeps s0 s) : KeepsRes s0 (execCmtLinkAck d f s) := by
  unfold execCmtLinkAck
  (try dsimp only [State.fresh, State.freeVal])
  repeat' (first | with_reducible assumption | with_reducible apply onDie_keeps | with_reducible apply State.takeRx_keeps | with_reducible apply State.linkAckIn_keeps | with_reducible apply State.cmtCount_keeps | intro _ | (with_reducible refine Keeps.ite ?_ ?_) | split | (with_reducible refine KeepsRes.next ?_) | (with_reducible refine Keeps.upd ?_ rfl rfl rfl ?_; rotate_left; (fail_if_success with_reducible exact Moved.refl _); exact Moved.any _ _) | dsimp only)

theorem execCmtLinkNak_keeps {s0 : State} (d : Nat) (f : CommitFrame) (s : State) (hk_s : Keeps s0 s) : KeepsRes s0 (execCmtLinkNak d f s) := by
  unfold execCmtLinkNak
  (try dsimp only [State.fresh, State.freeVal])
  repeat' (first | with_reducible assumption | with_reducible apply onDie_keeps | with_reducible apply State.takeRx_keeps | with_reducible apply State.linkNakIn_keeps | with_reducible apply State.cmtCount_keeps | intro _ | (with_reducible refine Keeps.ite ?_ ?_) | split | (with_reducible refine KeepsRes.next ?_) | (with_reducible refine Keeps.upd ?_ rfl rfl rfl ?_; rotate_left; (fail_if_success with_reducible exact Moved.refl _); exact Moved.any _ _) | dsimp only)

theorem execCmtReplayTimeout_keeps {s0 : State} (d : Nat) (s : State) (hk_s : Keeps s0 s) : KeepsRes s0 (execCmtReplayTimeout d s) := by
  unfold execCmtReplayTimeout
  (try dsimp only [State.fresh, State.freeVal])
  repeat' (first | with_reducible assumption | with_reducible apply onDie_keeps | with_reducible apply State.linkResend_keeps | intro _ | (with_reducible refine Keeps.ite ?_ ?_) | split | (with_reducible refine KeepsRes.next ?_) | (with_reducible refine Keeps.upd ?_ rfl rfl rfl ?_; rotate_left; (fail_if_success with_reducible exact Moved.refl _); exact Moved.any _ _) | dsimp only)

theorem execCmtAckTimer_keeps {s0 : State} (d : Nat) (s : State) (hk_s : Keeps s0 s) : KeepsRes s0 (execCmtAckTimer d s) := by
  unfold execCmtAckTimer
  (try dsimp only [State.fresh, State.freeVal])
  repeat' (first | with_reducible assumption | with_reducible apply onDie_keeps | with_reducible apply State.linkAckTimer_keeps | intro _ | (with_reducible refine Keeps.ite ?_ ?_) | split | (with_reducible refine KeepsRes.next ?_) | (with_reducible refine Keeps.upd ?_ rfl rfl rfl ?_; rotate_left; (fail_if_success with_reducible exact Moved.refl _); exact Moved.any _ _) | dsimp only)

theorem execCmtNakResend_keeps {s0 : State} (d : Nat) (s : State) (hk_s : Keeps s0 s) : KeepsRes s0 (execCmtNakResend d s) := by
  unfold execCmtNakResend
  (try dsimp only [State.fresh, State.freeVal])
  repeat' (first | with_reducible assumption | with_reducible apply onDie_keeps | with_reducible apply State.linkNakTimer_keeps | intro _ | (with_reducible refine Keeps.ite ?_ ?_) | split | (with_reducible refine KeepsRes.next ?_) | (with_reducible refine Keeps.upd ?_ rfl rfl rfl ?_; rotate_left; (fail_if_success with_reducible exact Moved.refl _); exact Moved.any _ _) | dsimp only)

theorem State.startPush_keeps {s0 : State} (s : State) (g : Group) (o : Nat) (hk_s : Keeps s0 s) : Keeps s0 (State.startPush s g o) := by
  unfold State.startPush
  (try dsimp only [State.fresh, State.freeVal])
  repeat' (first | with_reducible assumption | with_reducible apply State.cmtCount_keeps | with_reducible apply State.cmtSend_keeps | with_reducible apply State.modGroup_keeps | with_reducible apply Keeps.foldl | with_reducible apply Keeps.foldlFst | with_reducible apply Keeps.foldlSnd | intro _ | (with_reducible refine Keeps.ite ?_ ?_) | split | (with_reducible refine Keeps.upd ?_ rfl rfl rfl ?_; rotate_left; (fail_if_success with_reducible exact Moved.refl _); exact Moved.any _ _) | dsimp only)

theorem execBuddyPushStart_keeps {s0 : State} (group obj : Nat) (s : State) (hk_s : Keeps s0 s) : KeepsRes s0 (execBuddyPushStart group obj s) := by
  unfold execBuddyPushStart
  (try dsimp only [State.fresh, State.freeVal])
  repeat' (first | with_reducible assumption | with_reducible apply live_keeps | with_reducible apply State.startPush_keeps | intro _ | (with_reducible refine Keeps.ite ?_ ?_) | split | (with_reducible refine Keeps.snd ‹_› ?_) | (with_reducible refine Keeps.fst ‹_› ?_) | (with_reducible refine KeepsRes.next ?_) | (with_reducible refine Keeps.upd ?_ rfl rfl rfl ?_; rotate_left; (fail_if_success with_reducible exact Moved.refl _); exact Moved.any _ _) | dsimp only)

theorem State.pushIn_keeps {s0 : State} (s : State) (f : CommitFrame) (r : DomRec) (hk_s : Keeps s0 s) : Keeps s0 (State.pushIn s f r) := by
  unfold State.pushIn
  (try dsimp only [State.fresh, State.freeVal])
  repeat' (first | with_reducible assumption | with_reducible apply State.write_keeps | with_reducible apply State.stage_keeps | with_reducible apply State.staged_keeps | with_reducible apply State.cmtCount_keeps | with_reducible apply State.cmtSend_keeps | with_reducible apply State.setHold_keeps | with_reducible apply Keeps.write | intro _ | (with_reducible refine Keeps.ite ?_ ?_) | split | (with_reducible refine Keeps.upd ?_ rfl rfl rfl ?_; rotate_left; (fail_if_success with_reducible exact Moved.refl _); exact Moved.any _ _) | dsimp only)

theorem execPushFrame_keeps {s0 : State} (d : Nat) (f : CommitFrame) (s : State) (hk_s : Keeps s0 s) : KeepsRes s0 (execPushFrame d f s) := by
  unfold execPushFrame
  (try dsimp only [State.fresh, State.freeVal])
  repeat' (first | with_reducible assumption | with_reducible apply onDie_keeps | with_reducible apply State.cmtIn_keeps | with_reducible apply State.pushIn_keeps | intro _ | (with_reducible refine Keeps.ite ?_ ?_) | split | (with_reducible refine KeepsRes.next ?_) | (with_reducible refine Keeps.upd ?_ rfl rfl rfl ?_; rotate_left; (fail_if_success with_reducible exact Moved.refl _); exact Moved.any _ _) | dsimp only)

theorem execPushRevertFrame_keeps {s0 : State} (d : Nat) (f : CommitFrame) (s : State) (hk_s : Keeps s0 s) : KeepsRes s0 (execPushRevertFrame d f s) := by
  unfold execPushRevertFrame
  (try dsimp only [State.fresh, State.freeVal])
  repeat' (first | with_reducible assumption | with_reducible apply onDie_keeps | with_reducible apply State.cmtIn_keeps | with_reducible apply State.pushIn_keeps | intro _ | (with_reducible refine Keeps.ite ?_ ?_) | split | (with_reducible refine KeepsRes.next ?_) | (with_reducible refine Keeps.upd ?_ rfl rfl rfl ?_; rotate_left; (fail_if_success with_reducible exact Moved.refl _); exact Moved.any _ _) | dsimp only)

theorem execPushAckFrame_keeps {s0 : State} (d : Nat) (f : CommitFrame) (s : State) (hk_s : Keeps s0 s) : KeepsRes s0 (execPushAckFrame d f s) := by
  unfold execPushAckFrame
  (try dsimp only [State.fresh, State.freeVal])
  repeat' (first | with_reducible assumption | with_reducible apply onDie_keeps | with_reducible apply State.modGroup_keeps | with_reducible apply State.cmtIn_keeps | intro _ | (with_reducible refine Keeps.ite ?_ ?_) | split | (with_reducible refine Keeps.snd ‹_› ?_) | (with_reducible refine Keeps.fst ‹_› ?_) | (with_reducible refine KeepsRes.next ?_) | (with_reducible refine Keeps.upd ?_ rfl rfl rfl ?_; rotate_left; (fail_if_success with_reducible exact Moved.refl _); exact Moved.any _ _) | dsimp only)

theorem State.sendQueries_keeps {s0 : State} (s : State) (m : Nat) (dest : List Nat) (hk_s : Keeps s0 s) : Keeps s0 (State.sendQueries s m dest) := by
  unfold State.sendQueries
  (try dsimp only [State.fresh, State.freeVal])
  repeat' (first | with_reducible assumption | with_reducible apply State.cmtSend_keeps | with_reducible apply Keeps.foldl | with_reducible apply Keeps.foldlFst | with_reducible apply Keeps.foldlSnd | intro _ | (with_reducible refine Keeps.ite ?_ ?_) | split | (with_reducible refine Keeps.upd ?_ rfl rfl rfl ?_; rotate_left; (fail_if_success with_reducible exact Moved.refl _); exact Moved.any _ _) | dsimp only)

theorem State.leadOnce_keeps {s0 : State} (s : State) (m : Nat) (hk_s : Keeps s0 s) : Keeps s0 (State.leadOnce s m) := by
  unfold State.leadOnce
  (try dsimp only [State.fresh, State.freeVal])
  repeat' (first | with_reducible assumption | with_reducible apply State.modDom_keeps | with_reducible apply State.cmtSend_keeps | with_reducible apply State.decide__keeps | with_reducible apply State.applyLoop_keeps | with_reducible apply Keeps.foldl | with_reducible apply Keeps.foldlFst | with_reducible apply Keeps.foldlSnd | intro _ | (with_reducible refine Keeps.ite ?_ ?_) | split | (with_reducible refine Keeps.upd ?_ rfl rfl rfl ?_; rotate_left; (fail_if_success with_reducible exact Moved.refl _); exact Moved.any _ _) | dsimp only)

theorem State.leadOn_keeps {s0 : State} (s : State) (m : Nat) (hk_s : Keeps s0 s) : Keeps s0 (State.leadOn s m) := by
  unfold State.leadOn
  (try dsimp only [State.fresh, State.freeVal])
  repeat' (first | with_reducible assumption | with_reducible apply State.leadOnce_keeps | intro _ | (with_reducible refine Keeps.ite ?_ ?_) | split | (with_reducible refine Keeps.upd ?_ rfl rfl rfl ?_; rotate_left; (fail_if_success with_reducible exact Moved.refl _); exact Moved.any _ _) | dsimp only)

theorem State.startRecovery_keeps {s0 : State} (s : State) (m : Nat) (hk_s : Keeps s0 s) : Keeps s0 (State.startRecovery s m) := by
  unfold State.startRecovery
  (try dsimp only [State.fresh, State.freeVal])
  repeat' (first | with_reducible assumption | with_reducible apply State.modDom_keeps | with_reducible apply State.cmtCount_keeps | with_reducible apply State.sendQueries_keeps | with_reducible apply State.leadOn_keeps | intro _ | (with_reducible refine Keeps.ite ?_ ?_) | split | (with_reducible refine Keeps.upd ?_ rfl rfl rfl ?_; rotate_left; (fail_if_success with_reducible exact Moved.refl _); exact Moved.any _ _) | dsimp only)

theorem State.loseHolder_keeps {s0 : State} (s : State) (m : Nat) (hk_s : Keeps s0 s) : Keeps s0 (State.loseHolder s m) := by
  unfold State.loseHolder
  (try dsimp only [State.fresh, State.freeVal])
  repeat' (first | with_reducible assumption | with_reducible apply State.event_keeps | with_reducible apply State.modDom_keeps | intro _ | (with_reducible refine Keeps.ite ?_ ?_) | split | (with_reducible refine Keeps.upd ?_ rfl rfl rfl ?_; rotate_left; (fail_if_success with_reducible exact Moved.refl _); exact Moved.any _ _) | dsimp only)

theorem State.loseMember_keeps {s0 : State} (s : State) (m k : Nat) (hk_s : Keeps s0 s) : Keeps s0 (State.loseMember s m k) := by
  unfold State.loseMember
  (try dsimp only [State.fresh, State.freeVal])
  repeat' (first | with_reducible assumption | with_reducible apply State.writeN_keeps | with_reducible apply State.modDom_keeps | with_reducible apply State.startRecovery_keeps | with_reducible apply State.loseHolder_keeps | intro _ | (with_reducible refine Keeps.ite ?_ ?_) | split | (with_reducible refine Keeps.upd ?_ rfl rfl rfl ?_; rotate_left; (fail_if_success with_reducible exact Moved.refl _); exact Moved.any _ _) | dsimp only)

theorem execMemberLost_keeps {s0 : State} (dom rank : Nat) (s : State) (hk_s : Keeps s0 s) : KeepsRes s0 (execMemberLost dom rank s) := by
  unfold execMemberLost
  (try dsimp only [State.fresh, State.freeVal])
  repeat' (first | with_reducible assumption | with_reducible apply live_keeps | with_reducible apply State.loseMember_keeps | intro _ | (with_reducible refine Keeps.ite ?_ ?_) | split | (with_reducible refine KeepsRes.next ?_) | (with_reducible refine Keeps.upd ?_ rfl rfl rfl ?_; rotate_left; (fail_if_success with_reducible exact Moved.refl _); exact Moved.any _ _) | dsimp only)

theorem State.loseDomMembers_keeps {s0 : State} (s : State) (pick : Member → Bool) (hk_s : Keeps s0 s) : Keeps s0 (State.loseDomMembers s pick) := by
  unfold State.loseDomMembers
  (try dsimp only [State.fresh, State.freeVal])
  repeat' (first | with_reducible assumption | with_reducible apply State.loseMember_keeps | with_reducible apply Keeps.foldl | with_reducible apply Keeps.foldlFst | with_reducible apply Keeps.foldlSnd | intro _ | (with_reducible refine Keeps.ite ?_ ?_) | split | (with_reducible refine Keeps.upd ?_ rfl rfl rfl ?_; rotate_left; (fail_if_success with_reducible exact Moved.refl _); exact Moved.any _ _) | dsimp only)

theorem State.loseUnreached_keeps {s0 : State} (s : State) (hk_s : Keeps s0 s) : Keeps s0 (State.loseUnreached s) := by
  unfold State.loseUnreached
  (try dsimp only [State.fresh, State.freeVal])
  repeat' (first | with_reducible assumption | with_reducible apply State.loseMembers_keeps | with_reducible apply State.loseDomMembers_keeps | intro _ | (with_reducible refine Keeps.ite ?_ ?_) | split | (with_reducible refine Keeps.upd ?_ rfl rfl rfl ?_; rotate_left; (fail_if_success with_reducible exact Moved.refl _); exact Moved.any _ _) | dsimp only)

theorem State.queryIn_keeps {s0 : State} (s : State) (f : CommitFrame) (r : DomRec) (hk_s : Keeps s0 s) : Keeps s0 (State.queryIn s f r) := by
  unfold State.queryIn
  (try dsimp only [State.fresh, State.freeVal])
  repeat' (first | with_reducible assumption | with_reducible apply State.writeN_keeps | with_reducible apply State.modDom_keeps | with_reducible apply State.cmtSend_keeps | with_reducible apply Keeps.foldl | with_reducible apply Keeps.foldlFst | with_reducible apply Keeps.foldlSnd | intro _ | (with_reducible refine Keeps.ite ?_ ?_) | split | (with_reducible refine Keeps.upd ?_ rfl rfl rfl ?_; rotate_left; (fail_if_success with_reducible exact Moved.refl _); exact Moved.any _ _) | dsimp only)

theorem execQueryFrame_keeps {s0 : State} (d : Nat) (f : CommitFrame) (s : State) (hk_s : Keeps s0 s) : KeepsRes s0 (execQueryFrame d f s) := by
  unfold execQueryFrame
  (try dsimp only [State.fresh, State.freeVal])
  repeat' (first | with_reducible assumption | with_reducible apply onDie_keeps | with_reducible apply State.cmtIn_keeps | with_reducible apply State.queryIn_keeps | intro _ | (with_reducible refine Keeps.ite ?_ ?_) | split | (with_reducible refine KeepsRes.next ?_) | (with_reducible refine Keeps.upd ?_ rfl rfl rfl ?_; rotate_left; (fail_if_success with_reducible exact Moved.refl _); exact Moved.any _ _) | dsimp only)

theorem execReportFrame_keeps {s0 : State} (d : Nat) (f : CommitFrame) (s : State) (hk_s : Keeps s0 s) : KeepsRes s0 (execReportFrame d f s) := by
  unfold execReportFrame
  (try dsimp only [State.fresh, State.freeVal])
  repeat' (first | with_reducible assumption | with_reducible apply onDie_keeps | with_reducible apply State.modDom_keeps | with_reducible apply State.cmtIn_keeps | with_reducible apply State.leadOn_keeps | intro _ | (with_reducible refine Keeps.ite ?_ ?_) | split | (with_reducible refine KeepsRes.next ?_) | (with_reducible refine Keeps.upd ?_ rfl rfl rfl ?_; rotate_left; (fail_if_success with_reducible exact Moved.refl _); exact Moved.any _ _) | dsimp only)

theorem execCommitStallTimer_keeps {s0 : State} (dom what commit : Nat) (s : State) (hk_s : Keeps s0 s) : KeepsRes s0 (execCommitStallTimer dom what commit s) := by
  unfold execCommitStallTimer
  (try dsimp only [State.fresh, State.freeVal])
  repeat' (first | with_reducible assumption | with_reducible apply live_keeps | with_reducible apply State.event_keeps | with_reducible apply State.modDom_keeps | with_reducible apply State.cmtCount_keeps | with_reducible apply State.sendQueries_keeps | intro _ | (with_reducible refine Keeps.ite ?_ ?_) | split | (with_reducible refine KeepsRes.next ?_) | (with_reducible refine Keeps.upd ?_ rfl rfl rfl ?_; rotate_left; (fail_if_success with_reducible exact Moved.refl _); exact Moved.any _ _) | dsimp only)

theorem State.commitBody_keeps {s0 : State} (s : State) (w : Work) (hk_s : Keeps s0 s) : Keeps s0 (State.commitBody s w) := by
  unfold State.commitBody
  (try dsimp only [State.fresh, State.freeVal])
  repeat' (first | with_reducible assumption | with_reducible apply State.writeN_keeps | with_reducible apply State.modDom_keeps | with_reducible apply State.modGroup_keeps | with_reducible apply State.resolve_keeps | with_reducible apply State.decide__keeps | with_reducible apply State.domStep_keeps | intro _ | (with_reducible refine Keeps.ite ?_ ?_) | split | (with_reducible refine Keeps.snd ‹_› ?_) | (with_reducible refine Keeps.fst ‹_› ?_) | (with_reducible refine Keeps.upd ?_ rfl rfl rfl ?_; rotate_left; (fail_if_success with_reducible exact Moved.refl _); exact Moved.any _ _) | dsimp only)

theorem execCommit_keeps {s0 : State} (id : Nat) (s : State) (hk_s : Keeps s0 s) : KeepsRes s0 (execCommit id s) := by
  unfold execCommit
  (try dsimp only [State.fresh, State.freeVal])
  repeat' (first | with_reducible assumption | with_reducible apply live_keeps | with_reducible apply State.begin_keeps | with_reducible apply State.commitBody_keeps | intro _ | (with_reducible refine Keeps.ite ?_ ?_) | split | (with_reducible refine KeepsRes.next ?_) | (with_reducible refine Keeps.upd ?_ rfl rfl rfl ?_; rotate_left; (fail_if_success with_reducible exact Moved.refl _); exact Moved.any _ _) | dsimp only)

theorem State.abortLate_keeps {s0 : State} (s : State) (m : Nat) (hk_s : Keeps s0 s) : Keeps s0 (State.abortLate s m) := by
  unfold State.abortLate
  (try dsimp only [State.fresh, State.freeVal])
  repeat' (first | with_reducible assumption | with_reducible apply State.modDom_keeps | with_reducible apply State.resolve_keeps | with_reducible apply Keeps.foldl | with_reducible apply Keeps.foldlFst | with_reducible apply Keeps.foldlSnd | intro _ | (with_reducible refine Keeps.ite ?_ ?_) | split | (with_reducible refine Keeps.snd ‹_› ?_) | (with_reducible refine Keeps.fst ‹_› ?_) | (with_reducible refine Keeps.upd ?_ rfl rfl rfl ?_; rotate_left; (fail_if_success with_reducible exact Moved.refl _); exact Moved.any _ _) | dsimp only)

theorem execTwin_keeps {s0 : State} (id : Nat) (s : State) (hk_s : Keeps s0 s) : KeepsRes s0 (execTwin id s) := by
  unfold execTwin
  (try dsimp only [State.fresh, State.freeVal])
  repeat' (first | with_reducible assumption | with_reducible apply live_keeps | with_reducible apply State.write_keeps | with_reducible apply State.endStatus_keeps | with_reducible apply State.begin_keeps | with_reducible apply Keeps.write | intro _ | (with_reducible refine Keeps.ite ?_ ?_) | split | (with_reducible refine KeepsRes.next ?_) | (with_reducible refine Keeps.upd ?_ rfl rfl rfl ?_; rotate_left; (fail_if_success with_reducible exact Moved.refl _); exact Moved.any _ _) | dsimp only)

theorem execRevert_keeps {s0 : State} (id : Nat) (s : State) (hk_s : Keeps s0 s) : KeepsRes s0 (execRevert id s) := by
  unfold execRevert
  (try dsimp only [State.fresh, State.freeVal])
  repeat' (first | with_reducible assumption | with_reducible apply live_keeps | with_reducible apply State.endStatus_keeps | with_reducible apply State.begin_keeps | with_reducible apply State.setTwin_keeps | with_reducible apply State.staged_keeps | intro _ | (with_reducible refine Keeps.ite ?_ ?_) | split | (with_reducible refine KeepsRes.next ?_) | (with_reducible refine Keeps.upd ?_ rfl rfl rfl ?_; rotate_left; (fail_if_success with_reducible exact Moved.refl _); exact Moved.any _ _) | dsimp only)

theorem State.domainSetBody_keeps {s0 : State} (s : State) (w : Work) (hk_s : Keeps s0 s) : Keeps s0 (State.domainSetBody s w) := by
  unfold State.domainSetBody
  (try dsimp only [State.fresh, State.freeVal])
  repeat' (first | with_reducible assumption | with_reducible apply State.write_keeps | with_reducible apply State.endStatus_keeps | with_reducible apply Keeps.write | intro _ | (with_reducible refine Keeps.ite ?_ ?_) | split | (with_reducible refine Keeps.upd ?_ rfl rfl rfl ?_; rotate_left; (fail_if_success with_reducible exact Moved.refl _); exact Moved.any _ _) | dsimp only)

theorem execDomainSet_keeps {s0 : State} (id : Nat) (s : State) (hk_s : Keeps s0 s) : KeepsRes s0 (execDomainSet id s) := by
  unfold execDomainSet
  (try dsimp only [State.fresh, State.freeVal])
  repeat' (first | with_reducible assumption | with_reducible apply live_keeps | with_reducible apply State.begin_keeps | with_reducible apply State.domainSetBody_keeps | intro _ | (with_reducible refine Keeps.ite ?_ ?_) | split | (with_reducible refine KeepsRes.next ?_) | (with_reducible refine Keeps.upd ?_ rfl rfl rfl ?_; rotate_left; (fail_if_success with_reducible exact Moved.refl _); exact Moved.any _ _) | dsimp only)

theorem execHoldSet_keeps {s0 : State} (id : Nat) (s : State) (hk_s : Keeps s0 s) : KeepsRes s0 (execHoldSet id s) := by
  unfold execHoldSet
  (try dsimp only [State.fresh, State.freeVal])
  repeat' (first | with_reducible assumption | with_reducible apply live_keeps | with_reducible apply State.endStatus_keeps | with_reducible apply State.begin_keeps | with_reducible apply State.stage_keeps | with_reducible apply State.staged_keeps | with_reducible apply State.setHold_keeps | intro _ | (with_reducible refine Keeps.ite ?_ ?_) | split | (with_reducible refine KeepsRes.next ?_) | (with_reducible refine Keeps.upd ?_ rfl rfl rfl ?_; rotate_left; (fail_if_success with_reducible exact Moved.refl _); exact Moved.any _ _) | dsimp only)

theorem State.manScan_keeps {s0 : State} (s : State) (hk_s : Keeps s0 s) : Keeps s0 (State.manScan s) := by
  unfold State.manScan
  (try dsimp only [State.fresh, State.freeVal])
  repeat' (first | with_reducible assumption | with_reducible apply State.setRegN_keeps | with_reducible apply State.setRegPair_keeps | intro _ | (with_reducible refine Keeps.ite ?_ ?_) | split | (with_reducible refine Keeps.snd ‹_› ?_) | (with_reducible refine Keeps.fst ‹_› ?_) | (with_reducible refine Keeps.upd ?_ rfl rfl rfl ?_; rotate_left; (fail_if_success with_reducible exact Moved.refl _); exact Moved.any _ _) | dsimp only)

theorem execManifestScan_keeps {s0 : State} (s : State) (hk_s : Keeps s0 s) : KeepsRes s0 (execManifestScan s) := by
  unfold execManifestScan
  (try dsimp only [State.fresh, State.freeVal])
  repeat' (first | with_reducible assumption | with_reducible apply live_keeps | with_reducible apply State.manScan_keeps | intro _ | (with_reducible refine Keeps.ite ?_ ?_) | split | (with_reducible refine KeepsRes.next ?_) | (with_reducible refine Keeps.upd ?_ rfl rfl rfl ?_; rotate_left; (fail_if_success with_reducible exact Moved.refl _); exact Moved.any _ _) | dsimp only)

theorem State.flushDrive_keeps {s0 : State} (s : State) (port : Nat) (hk_s : Keeps s0 s) : Keeps s0 (State.flushDrive s port) := by
  unfold State.flushDrive
  (try dsimp only [State.fresh, State.freeVal])
  repeat' (first | with_reducible assumption | intro _ | (with_reducible refine Keeps.ite ?_ ?_) | split | (with_reducible refine Keeps.upd ?_ rfl rfl rfl ?_; rotate_left; (fail_if_success with_reducible exact Moved.refl _); exact Moved.any _ _) | dsimp only)

theorem State.manifestBody_keeps {s0 : State} (failPort : Option (Nat × Nat)) (s : State) (w : Work) (hk_s : Keeps s0 s) : Keeps s0 (State.manifestBody failPort s w) := by
  unfold State.manifestBody
  (try dsimp only [State.fresh, State.freeVal])
  repeat' (first | with_reducible assumption | with_reducible apply State.setRegN_keeps | with_reducible apply State.setRegPair_keeps | with_reducible apply State.endWork_keeps | with_reducible apply State.endStatus_keeps | with_reducible apply State.flashStore_keeps | with_reducible apply State.setDirty_keeps | with_reducible apply State.failPort_keeps | with_reducible apply State.flushDrive_keeps | with_reducible apply Keeps.foldl | with_reducible apply Keeps.foldlFst | with_reducible apply Keeps.foldlSnd | intro _ | (with_reducible refine Keeps.ite ?_ ?_) | split | (with_reducible refine Keeps.snd ‹_› ?_) | (with_reducible refine Keeps.fst ‹_› ?_) | (with_reducible refine Keeps.upd ?_ rfl rfl rfl ?_; rotate_left; (fail_if_success with_reducible exact Moved.refl _); exact Moved.any _ _) | dsimp only)

theorem execManifest_keeps {s0 : State} (id : Nat) (failPort : Option (Nat × Nat)) (s : State) (hk_s : Keeps s0 s) : KeepsRes s0 (execManifest id failPort s) := by
  unfold execManifest
  (try dsimp only [State.fresh, State.freeVal])
  repeat' (first | with_reducible assumption | with_reducible apply live_keeps | with_reducible apply State.begin_keeps | with_reducible apply State.failPort_keeps | with_reducible apply State.manifestBody_keeps | intro _ | (with_reducible refine Keeps.ite ?_ ?_) | split | (with_reducible refine KeepsRes.next ?_) | (with_reducible refine Keeps.upd ?_ rfl rfl rfl ?_; rotate_left; (fail_if_success with_reducible exact Moved.refl _); exact Moved.any _ _) | dsimp only)

theorem State.reapGroups_keeps {s0 : State} (s : State) (hk_s : Keeps s0 s) : Keeps s0 (State.reapGroups s) := by
  unfold State.reapGroups
  (try dsimp only [State.fresh, State.freeVal])
  repeat' (first | with_reducible assumption | with_reducible apply State.abortGroup_keeps | with_reducible apply Keeps.foldl | with_reducible apply Keeps.foldlFst | with_reducible apply Keeps.foldlSnd | intro _ | (with_reducible refine Keeps.ite ?_ ?_) | split | (with_reducible refine Keeps.upd ?_ rfl rfl rfl ?_; rotate_left; (fail_if_success with_reducible exact Moved.refl _); exact Moved.any _ _) | dsimp only)

theorem State.cmtOff_keeps {s0 : State} (s : State) (d : Nat) (hk_s : Keeps s0 s) : Keeps s0 (State.cmtOff s d) := by
  unfold State.cmtOff
  (try dsimp only [State.fresh, State.freeVal])
  repeat' (first | with_reducible assumption | with_reducible apply State.setRbit_keeps | with_reducible apply State.writeN_keeps | with_reducible apply State.modDom_keeps | with_reducible apply State.applyLoop_keeps | with_reducible apply State.reapGroups_keeps | with_reducible apply Keeps.foldl | with_reducible apply Keeps.foldlFst | with_reducible apply Keeps.foldlSnd | intro _ | (with_reducible refine Keeps.ite ?_ ?_) | split | (with_reducible refine Keeps.upd ?_ rfl rfl rfl ?_; rotate_left; (fail_if_success with_reducible exact Moved.refl _); exact Moved.any _ _) | dsimp only)

theorem State.domainsLost_keeps {s0 : State} (s : State) (d : Nat) (hk_s : Keeps s0 s) : Keeps s0 (State.domainsLost s d) := by
  unfold State.domainsLost
  (try dsimp only [State.fresh, State.freeVal])
  repeat' (first | with_reducible assumption | with_reducible apply State.writeN_keeps | with_reducible apply State.modDom_keeps | with_reducible apply State.modGroup_keeps | with_reducible apply State.abortGroup_keeps | with_reducible apply Keeps.foldl | with_reducible apply Keeps.foldlFst | with_reducible apply Keeps.foldlSnd | intro _ | (with_reducible refine Keeps.ite ?_ ?_) | split | (with_reducible refine Keeps.snd ‹_› ?_) | (with_reducible refine Keeps.fst ‹_› ?_) | (with_reducible refine Keeps.upd ?_ rfl rfl rfl ?_; rotate_left; (fail_if_success with_reducible exact Moved.refl _); exact Moved.any _ _) | dsimp only)

theorem execCmtDisable_keeps {s0 : State} (d : Nat) (s : State) (hk_s : Keeps s0 s) : KeepsRes s0 (execCmtDisable d s) := by
  unfold execCmtDisable
  (try dsimp only [State.fresh, State.freeVal])
  repeat' (first | with_reducible assumption | with_reducible apply onDie_keeps | with_reducible apply State.cmtOff_keeps | intro _ | (with_reducible refine Keeps.ite ?_ ?_) | split | (with_reducible refine KeepsRes.next ?_) | (with_reducible refine Keeps.upd ?_ rfl rfl rfl ?_; rotate_left; (fail_if_success with_reducible exact Moved.refl _); exact Moved.any _ _) | dsimp only)

end Sys2Proof.Machine
end

