-- ==== Sys2Proof/Laws/KeepsTransport.lean ====
section
/-! SUPPORT. What the operations of Machine/Transport.lean keep: the queue, the part and the invariant. -/

namespace Sys2Proof.Machine

theorem State.setCtx_keeps {s0 : State} (s : State) (d c : Nat) (b : List Byte) (hk_s : Keeps s0 s) : Keeps s0 (State.setCtx s d c b) := by
  unfold State.setCtx
  (try dsimp only [State.fresh, State.freeVal])
  repeat' (first | with_reducible assumption | with_reducible apply State.write_keeps | with_reducible apply Keeps.write | intro _ | (with_reducible refine Keeps.ite ?_ ?_) | split | (with_reducible refine Keeps.upd ?_ rfl rfl rfl ?_; rotate_left; (fail_if_success with_reducible exact Moved.refl _); exact Moved.any _ _) | dsimp only)

theorem State.ctxPut_keeps {s0 : State} (s : State) (d c off : Nat) (v : List Byte) (hk_s : Keeps s0 s) : Keeps s0 (State.ctxPut s d c off v) := by
  unfold State.ctxPut
  (try dsimp only [State.fresh, State.freeVal])
  repeat' (first | with_reducible assumption | with_reducible apply State.setCtx_keeps | intro _ | (with_reducible refine Keeps.ite ?_ ?_) | split | (with_reducible refine Keeps.upd ?_ rfl rfl rfl ?_; rotate_left; (fail_if_success with_reducible exact Moved.refl _); exact Moved.any _ _) | dsimp only)

theorem State.modConn_keeps {s0 : State} (s : State) (c : Nat) (f : Conn → Conn) (hk_s : Keeps s0 s) : Keeps s0 (State.modConn s c f) := by
  unfold State.modConn
  (try dsimp only [State.fresh, State.freeVal])
  repeat' (first | with_reducible assumption | intro _ | (with_reducible refine Keeps.ite ?_ ?_) | split | (with_reducible refine Keeps.upd ?_ rfl rfl rfl ?_; rotate_left; (fail_if_success with_reducible exact Moved.refl _); exact Moved.any _ _) | dsimp only)

theorem State.dropCtx_keeps {s0 : State} (s : State) (c : Nat) (hk_s : Keeps s0 s) : Keeps s0 (State.dropCtx s c) := by
  unfold State.dropCtx
  (try dsimp only [State.fresh, State.freeVal])
  repeat' (first | with_reducible assumption | with_reducible apply State.write_keeps | with_reducible apply Keeps.write | intro _ | (with_reducible refine Keeps.ite ?_ ?_) | split | (with_reducible refine Keeps.snd ‹_› ?_) | (with_reducible refine Keeps.fst ‹_› ?_) | (with_reducible refine Keeps.upd ?_ rfl rfl rfl ?_; rotate_left; (fail_if_success with_reducible exact Moved.refl _); exact Moved.any _ _) | dsimp only)

theorem State.evict_keeps {s0 : State} (s : State) (d : Nat) (hk_s : Keeps s0 s) : Keeps s0 (State.evict s d) := by
  unfold State.evict
  (try dsimp only [State.fresh, State.freeVal])
  repeat' (first | with_reducible assumption | with_reducible apply State.bump_keeps | with_reducible apply State.dropCtx_keeps | intro _ | (with_reducible refine Keeps.ite ?_ ?_) | split | (with_reducible refine Keeps.snd ‹_› ?_) | (with_reducible refine Keeps.fst ‹_› ?_) | (with_reducible refine Keeps.upd ?_ rfl rfl rfl ?_; rotate_left; (fail_if_success with_reducible exact Moved.refl _); exact Moved.any _ _) | dsimp only)

theorem State.wantCtx_keeps {s0 : State} (s : State) (d c : Nat) (hk_s : Keeps s0 s) : Keeps s0 (State.wantCtx s d c) := by
  unfold State.wantCtx
  (try dsimp only [State.fresh, State.freeVal])
  repeat' (first | with_reducible assumption | intro _ | (with_reducible refine Keeps.ite ?_ ?_) | split | (with_reducible refine Keeps.upd ?_ rfl rfl rfl ?_; rotate_left; (fail_if_success with_reducible exact Moved.refl _); exact Moved.any _ _) | dsimp only)

theorem State.touchCtx_keeps {s0 : State} (s : State) (c : Nat) (hk_s : Keeps s0 s) : Keeps s0 (State.touchCtx s c) := by
  unfold State.touchCtx
  (try dsimp only [State.fresh, State.freeVal])
  repeat' (first | with_reducible assumption | intro _ | (with_reducible refine Keeps.ite ?_ ?_) | split | (with_reducible refine Keeps.upd ?_ rfl rfl rfl ?_; rotate_left; (fail_if_success with_reducible exact Moved.refl _); exact Moved.any _ _) | dsimp only)

theorem State.sendPacket_keeps {s0 : State} (s : State) (b : List Byte) (k : Packet) (front : Bool) (hk_s : Keeps s0 s) : Keeps s0 (State.sendPacket s b k front) := by
  unfold State.sendPacket
  (try dsimp only [State.fresh, State.freeVal])
  repeat' (first | with_reducible assumption | with_reducible apply State.bump_keeps | with_reducible apply State.queueTx_keeps | intro _ | (with_reducible refine Keeps.ite ?_ ?_) | split | (with_reducible refine Keeps.upd ?_ rfl rfl rfl ?_; rotate_left; (fail_if_success with_reducible exact Moved.refl _); exact Moved.any _ _) | dsimp only)

theorem State.sendAck_keeps {s0 : State} (s : State) (d c : Nat) (hk_s : Keeps s0 s) : Keeps s0 (State.sendAck s d c) := by
  unfold State.sendAck
  (try dsimp only [State.fresh, State.freeVal])
  repeat' (first | with_reducible assumption | with_reducible apply State.modConn_keeps | with_reducible apply State.sendPacket_keeps | intro _ | (with_reducible refine Keeps.ite ?_ ?_) | split | (with_reducible refine Keeps.upd ?_ rfl rfl rfl ?_; rotate_left; (fail_if_success with_reducible exact Moved.refl _); exact Moved.any _ _) | dsimp only)

theorem State.sendNak_keeps {s0 : State} (s : State) (d c synd msn : Nat) (hk_s : Keeps s0 s) : Keeps s0 (State.sendNak s d c synd msn) := by
  unfold State.sendNak
  (try dsimp only [State.fresh, State.freeVal])
  repeat' (first | with_reducible assumption | with_reducible apply State.bump_keeps | with_reducible apply State.sendPacket_keeps | intro _ | (with_reducible refine Keeps.ite ?_ ?_) | split | (with_reducible refine Keeps.upd ?_ rfl rfl rfl ?_; rotate_left; (fail_if_success with_reducible exact Moved.refl _); exact Moved.any _ _) | dsimp only)

theorem State.pump_keeps {s0 : State} (d c : Nat) (n : Nat) (s : State) (hk_s : Keeps s0 s) : Keeps s0 (State.pump d c n s) := by
  induction n generalizing s with
  | zero =>
    unfold State.pump
    (try dsimp only)
    repeat' (first | with_reducible assumption | with_reducible apply State.modConn_keeps | with_reducible apply State.sendPacket_keeps | intro _ | (with_reducible refine Keeps.ite ?_ ?_) | split | (with_reducible refine Keeps.snd ‹_› ?_) | (with_reducible refine Keeps.fst ‹_› ?_) | (with_reducible refine Keeps.upd ?_ rfl rfl rfl ?_; rotate_left; (fail_if_success with_reducible exact Moved.refl _); exact Moved.any _ _) | dsimp only)
  | succ n ih =>
    unfold State.pump
    (try dsimp only [State.fresh, State.freeVal])
    repeat' (first | with_reducible assumption | with_reducible apply ih | with_reducible apply State.modConn_keeps | with_reducible apply State.sendPacket_keeps | intro _ | (with_reducible refine Keeps.ite ?_ ?_) | split | (with_reducible refine Keeps.snd ‹_› ?_) | (with_reducible refine Keeps.fst ‹_› ?_) | (with_reducible refine Keeps.upd ?_ rfl rfl rfl ?_; rotate_left; (fail_if_success with_reducible exact Moved.refl _); exact Moved.any _ _) | dsimp only)

theorem State.resend_keeps {s0 : State} (s : State) (d c : Nat) (pick : Nat → Bool) (hk_s : Keeps s0 s) : Keeps s0 (State.resend s d c pick) := by
  unfold State.resend
  (try dsimp only [State.fresh, State.freeVal])
  repeat' (first | with_reducible assumption | with_reducible apply State.bump_keeps | with_reducible apply State.sendPacket_keeps | with_reducible apply Keeps.foldl | with_reducible apply Keeps.foldlFst | with_reducible apply Keeps.foldlSnd | intro _ | (with_reducible refine Keeps.ite ?_ ?_) | split | (with_reducible refine Keeps.snd ‹_› ?_) | (with_reducible refine Keeps.fst ‹_› ?_) | (with_reducible refine Keeps.upd ?_ rfl rfl rfl ?_; rotate_left; (fail_if_success with_reducible exact Moved.refl _); exact Moved.any _ _) | dsimp only)

theorem State.settleMsgs_keeps {s0 : State} (c : Nat) (n : Nat) (s : State) (hk_s : Keeps s0 s) : Keeps s0 (State.settleMsgs c n s) := by
  induction n generalizing s with
  | zero =>
    unfold State.settleMsgs
    (try dsimp only)
    repeat' (first | with_reducible assumption | with_reducible apply State.endWork_keeps | with_reducible apply State.modConn_keeps | intro _ | (with_reducible refine Keeps.ite ?_ ?_) | split | (with_reducible refine Keeps.snd ‹_› ?_) | (with_reducible refine Keeps.fst ‹_› ?_) | (with_reducible refine Keeps.upd ?_ rfl rfl rfl ?_; rotate_left; (fail_if_success with_reducible exact Moved.refl _); exact Moved.any _ _) | dsimp only)
  | succ n ih =>
    unfold State.settleMsgs
    (try dsimp only [State.fresh, State.freeVal])
    repeat' (first | with_reducible assumption | with_reducible apply ih | with_reducible apply State.endWork_keeps | with_reducible apply State.modConn_keeps | intro _ | (with_reducible refine Keeps.ite ?_ ?_) | split | (with_reducible refine Keeps.snd ‹_› ?_) | (with_reducible refine Keeps.fst ‹_› ?_) | (with_reducible refine Keeps.upd ?_ rfl rfl rfl ?_; rotate_left; (fail_if_success with_reducible exact Moved.refl _); exact Moved.any _ _) | dsimp only)

theorem State.flushMsgs_keeps {s0 : State} (s : State) (c : Nat) (msn : Option Nat) (status detail : Nat) (hk_s : Keeps s0 s) : Keeps s0 (State.flushMsgs s c msn status detail) := by
  unfold State.flushMsgs
  (try dsimp only [State.fresh, State.freeVal])
  repeat' (first | with_reducible assumption | with_reducible apply State.endWork_keeps | with_reducible apply State.endStatus_keeps | with_reducible apply State.modConn_keeps | with_reducible apply Keeps.foldl | with_reducible apply Keeps.foldlFst | with_reducible apply Keeps.foldlSnd | intro _ | (with_reducible refine Keeps.ite ?_ ?_) | split | (with_reducible refine Keeps.upd ?_ rfl rfl rfl ?_; rotate_left; (fail_if_success with_reducible exact Moved.refl _); exact Moved.any _ _) | dsimp only)

theorem State.flushConn_keeps {s0 : State} (s : State) (c : Nat) (msn : Option Nat) (status detail : Nat) (hk_s : Keeps s0 s) : Keeps s0 (State.flushConn s c msn status detail) := by
  unfold State.flushConn
  (try dsimp only [State.fresh, State.freeVal])
  repeat' (first | with_reducible assumption | with_reducible apply State.modConn_keeps | with_reducible apply State.flushMsgs_keeps | intro _ | (with_reducible refine Keeps.ite ?_ ?_) | split | (with_reducible refine Keeps.upd ?_ rfl rfl rfl ?_; rotate_left; (fail_if_success with_reducible exact Moved.refl _); exact Moved.any _ _) | dsimp only)

theorem State.connError_keeps {s0 : State} (s : State) (d c synd psn : Nat) (msn : Option Nat) (status : Nat) (hk_s : Keeps s0 s) : Keeps s0 (State.connError s d c synd psn msn status) := by
  unfold State.connError
  (try dsimp only [State.fresh, State.freeVal])
  repeat' (first | with_reducible assumption | with_reducible apply State.ctxPut_keeps | with_reducible apply State.flushConn_keeps | intro _ | (with_reducible refine Keeps.ite ?_ ?_) | split | (with_reducible refine Keeps.upd ?_ rfl rfl rfl ?_; rotate_left; (fail_if_success with_reducible exact Moved.refl _); exact Moved.any _ _) | dsimp only)

theorem State.countSynd_keeps {s0 : State} (s : State) (d synd : Nat) (hk_s : Keeps s0 s) : Keeps s0 (State.countSynd s d synd) := by
  unfold State.countSynd
  (try dsimp only [State.fresh, State.freeVal])
  repeat' (first | with_reducible assumption | with_reducible apply State.bump_keeps | intro _ | (with_reducible refine Keeps.ite ?_ ?_) | split | (with_reducible refine Keeps.snd ‹_› ?_) | (with_reducible refine Keeps.fst ‹_› ?_) | (with_reducible refine Keeps.upd ?_ rfl rfl rfl ?_; rotate_left; (fail_if_success with_reducible exact Moved.refl _); exact Moved.any _ _) | dsimp only)

theorem State.refusePacket_keeps {s0 : State} (s : State) (d c synd : Nat) (k : Packet) (hk_s : Keeps s0 s) : Keeps s0 (State.refusePacket s d c synd k) := by
  unfold State.refusePacket
  (try dsimp only [State.fresh, State.freeVal])
  repeat' (first | with_reducible assumption | with_reducible apply State.sendNak_keeps | with_reducible apply State.connError_keeps | with_reducible apply State.countSynd_keeps | intro _ | (with_reducible refine Keeps.ite ?_ ?_) | split | (with_reducible refine Keeps.upd ?_ rfl rfl rfl ?_; rotate_left; (fail_if_success with_reducible exact Moved.refl _); exact Moved.any _ _) | dsimp only)

theorem State.setBitmap_keeps {s0 : State} (s : State) (d c psn : Nat) (v : Bool) (hk_s : Keeps s0 s) : Keeps s0 (State.setBitmap s d c psn v) := by
  unfold State.setBitmap
  (try dsimp only [State.fresh, State.freeVal])
  repeat' (first | with_reducible assumption | with_reducible apply State.ctxPut_keeps | intro _ | (with_reducible refine Keeps.ite ?_ ?_) | split | (with_reducible refine Keeps.upd ?_ rfl rfl rfl ?_; rotate_left; (fail_if_success with_reducible exact Moved.refl _); exact Moved.any _ _) | dsimp only)

theorem State.markRun_keeps {s0 : State} (s : State) (d c psn n : Nat) (hk_s : Keeps s0 s) : Keeps s0 (State.markRun s d c psn n) := by
  unfold State.markRun
  (try dsimp only [State.fresh, State.freeVal])
  repeat' (first | with_reducible assumption | with_reducible apply State.ctxPut_keeps | intro _ | (with_reducible refine Keeps.ite ?_ ?_) | split | (with_reducible refine Keeps.upd ?_ rfl rfl rfl ?_; rotate_left; (fail_if_success with_reducible exact Moved.refl _); exact Moved.any _ _) | dsimp only)

theorem State.advanceExp_keeps {s0 : State} (d c : Nat) (n : Nat) (s : State) (hk_s : Keeps s0 s) : Keeps s0 (State.advanceExp d c n s) := by
  induction n generalizing s with
  | zero =>
    unfold State.advanceExp
    (try dsimp only)
    repeat' (first | with_reducible assumption | with_reducible apply State.ctxPut_keeps | with_reducible apply State.modConn_keeps | with_reducible apply State.setBitmap_keeps | intro _ | (with_reducible refine Keeps.ite ?_ ?_) | split | (with_reducible refine Keeps.snd ‹_› ?_) | (with_reducible refine Keeps.fst ‹_› ?_) | (with_reducible refine Keeps.upd ?_ rfl rfl rfl ?_; rotate_left; (fail_if_success with_reducible exact Moved.refl _); exact Moved.any _ _) | dsimp only)
  | succ n ih =>
    unfold State.advanceExp
    (try dsimp only [State.fresh, State.freeVal])
    repeat' (first | with_reducible assumption | with_reducible apply ih | with_reducible apply State.ctxPut_keeps | with_reducible apply State.modConn_keeps | with_reducible apply State.setBitmap_keeps | intro _ | (with_reducible refine Keeps.ite ?_ ?_) | split | (with_reducible refine Keeps.snd ‹_› ?_) | (with_reducible refine Keeps.fst ‹_› ?_) | (with_reducible refine Keeps.upd ?_ rfl rfl rfl ?_; rotate_left; (fail_if_success with_reducible exact Moved.refl _); exact Moved.any _ _) | dsimp only)

theorem State.modIn_keeps {s0 : State} (s : State) (c msn : Nat) (f : XIn → XIn) (hk_s : Keeps s0 s) : Keeps s0 (State.modIn s c msn f) := by
  unfold State.modIn
  (try dsimp only [State.fresh, State.freeVal])
  repeat' (first | with_reducible assumption | with_reducible apply State.modConn_keeps | intro _ | (with_reducible refine Keeps.ite ?_ ?_) | split | (with_reducible refine Keeps.upd ?_ rfl rfl rfl ?_; rotate_left; (fail_if_success with_reducible exact Moved.refl _); exact Moved.any _ _) | dsimp only)

theorem State.advanceMsn_keeps {s0 : State} (d c : Nat) (n : Nat) (s : State) (hk_s : Keeps s0 s) : Keeps s0 (State.advanceMsn d c n s) := by
  induction n generalizing s with
  | zero =>
    unfold State.advanceMsn
    (try dsimp only)
    repeat' (first | with_reducible assumption | with_reducible apply State.ctxPut_keeps | with_reducible apply State.modConn_keeps | intro _ | (with_reducible refine Keeps.ite ?_ ?_) | split | (with_reducible refine Keeps.snd ‹_› ?_) | (with_reducible refine Keeps.fst ‹_› ?_) | (with_reducible refine Keeps.upd ?_ rfl rfl rfl ?_; rotate_left; (fail_if_success with_reducible exact Moved.refl _); exact Moved.any _ _) | dsimp only)
  | succ n ih =>
    unfold State.advanceMsn
    (try dsimp only [State.fresh, State.freeVal])
    repeat' (first | with_reducible assumption | with_reducible apply ih | with_reducible apply State.ctxPut_keeps | with_reducible apply State.modConn_keeps | intro _ | (with_reducible refine Keeps.ite ?_ ?_) | split | (with_reducible refine Keeps.snd ‹_› ?_) | (with_reducible refine Keeps.fst ‹_› ?_) | (with_reducible refine Keeps.upd ?_ rfl rfl rfl ?_; rotate_left; (fail_if_success with_reducible exact Moved.refl _); exact Moved.any _ _) | dsimp only)

theorem State.placedIn_keeps {s0 : State} (s : State) (d c msn n : Nat) (hk_s : Keeps s0 s) : Keeps s0 (State.placedIn s d c msn n) := by
  unfold State.placedIn
  (try dsimp only [State.fresh, State.freeVal])
  repeat' (first | with_reducible assumption | with_reducible apply State.modIn_keeps | with_reducible apply State.advanceMsn_keeps | intro _ | (with_reducible refine Keeps.ite ?_ ?_) | split | (with_reducible refine Keeps.upd ?_ rfl rfl rfl ?_; rotate_left; (fail_if_success with_reducible exact Moved.refl _); exact Moved.any _ _) | dsimp only)

theorem State.respond_keeps {s0 : State} (s : State) (d c : Nat) (k : Packet) (hk_s : Keeps s0 s) : Keeps s0 (State.respond s d c k) := by
  unfold State.respond
  (try dsimp only [State.fresh, State.freeVal])
  repeat' (first | with_reducible assumption | with_reducible apply State.reach_keeps | with_reducible apply State.sendPacket_keeps | with_reducible apply Keeps.foldl | with_reducible apply Keeps.foldlFst | with_reducible apply Keeps.foldlSnd | intro _ | (with_reducible refine Keeps.ite ?_ ?_) | split | (with_reducible refine Keeps.upd ?_ rfl rfl rfl ?_; rotate_left; (fail_if_success with_reducible exact Moved.refl _); exact Moved.any _ _) | dsimp only)

theorem State.placeWrite_keeps {s0 : State} (s : State) (d c : Nat) (k : Packet) (hk_s : Keeps s0 s) : Keeps s0 (State.placeWrite s d c k) := by
  unfold State.placeWrite
  (try dsimp only [State.fresh, State.freeVal])
  repeat' (first | with_reducible assumption | with_reducible apply State.write_keeps | with_reducible apply State.reach_keeps | with_reducible apply State.bellPi_keeps | with_reducible apply State.bell_keeps | with_reducible apply Keeps.write | intro _ | (with_reducible refine Keeps.ite ?_ ?_) | split | (with_reducible refine Keeps.upd ?_ rfl rfl rfl ?_; rotate_left; (fail_if_success with_reducible exact Moved.refl _); exact Moved.any _ _) | dsimp only)

theorem State.placeSend_keeps {s0 : State} (s : State) (c : Nat) (k : Packet) (hk_s : Keeps s0 s) : Keeps s0 (State.placeSend s c k) := by
  unfold State.placeSend
  (try dsimp only [State.fresh, State.freeVal])
  repeat' (first | with_reducible assumption | with_reducible apply State.write_keeps | with_reducible apply State.reach_keeps | with_reducible apply Keeps.write | intro _ | (with_reducible refine Keeps.ite ?_ ?_) | split | (with_reducible refine Keeps.snd ‹_› ?_) | (with_reducible refine Keeps.fst ‹_› ?_) | (with_reducible refine Keeps.upd ?_ rfl rfl rfl ?_; rotate_left; (fail_if_success with_reducible exact Moved.refl _); exact Moved.any _ _) | dsimp only)

theorem State.placePacket_keeps {s0 : State} (s : State) (d c : Nat) (k : Packet) (n : Nat) (hk_s : Keeps s0 s) : Keeps s0 (State.placePacket s d c k n) := by
  unfold State.placePacket
  (try dsimp only [State.fresh, State.freeVal])
  repeat' (first | with_reducible assumption | with_reducible apply State.placedIn_keeps | with_reducible apply State.respond_keeps | with_reducible apply State.placeWrite_keeps | with_reducible apply State.placeSend_keeps | intro _ | (with_reducible refine Keeps.ite ?_ ?_) | split | (with_reducible refine Keeps.snd ‹_› ?_) | (with_reducible refine Keeps.fst ‹_› ?_) | (with_reducible refine Keeps.upd ?_ rfl rfl rfl ?_; rotate_left; (fail_if_success with_reducible exact Moved.refl _); exact Moved.any _ _) | dsimp only)

theorem State.dataPacket_keeps {s0 : State} (s : State) (d c : Nat) (k : Packet) (hk_s : Keeps s0 s) : Keeps s0 (State.dataPacket s d c k) := by
  unfold State.dataPacket
  (try dsimp only [State.fresh, State.freeVal])
  repeat' (first | with_reducible assumption | with_reducible apply State.bump_keeps | with_reducible apply State.modConn_keeps | with_reducible apply State.sendAck_keeps | with_reducible apply State.sendNak_keeps | with_reducible apply State.refusePacket_keeps | with_reducible apply State.setBitmap_keeps | with_reducible apply State.markRun_keeps | with_reducible apply State.advanceExp_keeps | with_reducible apply State.modIn_keeps | with_reducible apply State.respond_keeps | with_reducible apply State.placePacket_keeps | intro _ | (with_reducible refine Keeps.ite ?_ ?_) | split | (with_reducible refine Keeps.snd ‹_› ?_) | (with_reducible refine Keeps.fst ‹_› ?_) | (with_reducible refine Keeps.upd ?_ rfl rfl rfl ?_; rotate_left; (fail_if_success with_reducible exact Moved.refl _); exact Moved.any _ _) | dsimp only)

theorem State.onConn_keeps {s0 : State} (s : State) (d c : Nat) (k : Packet) (run : State → State) (hk_s : Keeps s0 s) (hk_run : ∀ y0, Keeps s0 y0 → Keeps s0 (run y0)) : Keeps s0 (State.onConn s d c k run) := by
  unfold State.onConn
  (try dsimp only [State.fresh, State.freeVal])
  repeat' (first | with_reducible assumption | with_reducible apply hk_run | with_reducible apply State.bump_keeps | with_reducible apply State.sendNak_keeps | intro _ | (with_reducible refine Keeps.ite ?_ ?_) | split | (with_reducible refine Keeps.upd ?_ rfl rfl rfl ?_; rotate_left; (fail_if_success with_reducible exact Moved.refl _); exact Moved.any _ _) | dsimp only)

theorem State.ackTo_keeps {s0 : State} (s : State) (d c psn : Nat) (hk_s : Keeps s0 s) : Keeps s0 (State.ackTo s d c psn) := by
  unfold State.ackTo
  (try dsimp only [State.fresh, State.freeVal])
  repeat' (first | with_reducible assumption | with_reducible apply State.modConn_keeps | with_reducible apply State.pump_keeps | with_reducible apply State.settleMsgs_keeps | intro _ | (with_reducible refine Keeps.ite ?_ ?_) | split | (with_reducible refine Keeps.upd ?_ rfl rfl rfl ?_; rotate_left; (fail_if_success with_reducible exact Moved.refl _); exact Moved.any _ _) | dsimp only)

theorem State.ackIn_keeps {s0 : State} (s : State) (d c : Nat) (k : Packet) (hk_s : Keeps s0 s) : Keeps s0 (State.ackIn s d c k) := by
  unfold State.ackIn
  (try dsimp only [State.fresh, State.freeVal])
  repeat' (first | with_reducible assumption | with_reducible apply State.ackTo_keeps | intro _ | (with_reducible refine Keeps.ite ?_ ?_) | split | (with_reducible refine Keeps.upd ?_ rfl rfl rfl ?_; rotate_left; (fail_if_success with_reducible exact Moved.refl _); exact Moved.any _ _) | dsimp only)

theorem State.nakIn_keeps {s0 : State} (s : State) (d c : Nat) (k : Packet) (hk_s : Keeps s0 s) : Keeps s0 (State.nakIn s d c k) := by
  unfold State.nakIn
  (try dsimp only [State.fresh, State.freeVal])
  repeat' (first | with_reducible assumption | with_reducible apply State.modConn_keeps | with_reducible apply State.resend_keeps | with_reducible apply State.connError_keeps | with_reducible apply State.ackTo_keeps | intro _ | (with_reducible refine Keeps.ite ?_ ?_) | split | (with_reducible refine Keeps.snd ‹_› ?_) | (with_reducible refine Keeps.fst ‹_› ?_) | (with_reducible refine Keeps.upd ?_ rfl rfl rfl ?_; rotate_left; (fail_if_success with_reducible exact Moved.refl _); exact Moved.any _ _) | dsimp only)

theorem State.respIn_keeps {s0 : State} (s : State) (d c : Nat) (k : Packet) (hk_s : Keeps s0 s) : Keeps s0 (State.respIn s d c k) := by
  unfold State.respIn
  (try dsimp only [State.fresh, State.freeVal])
  repeat' (first | with_reducible assumption | with_reducible apply State.write_keeps | with_reducible apply State.modWork_keeps | with_reducible apply State.modConn_keeps | with_reducible apply State.pump_keeps | with_reducible apply State.settleMsgs_keeps | with_reducible apply Keeps.write | intro _ | (with_reducible refine Keeps.ite ?_ ?_) | split | (with_reducible refine Keeps.snd ‹_› ?_) | (with_reducible refine Keeps.fst ‹_› ?_) | (with_reducible refine Keeps.upd ?_ rfl rfl rfl ?_; rotate_left; (fail_if_success with_reducible exact Moved.refl _); exact Moved.any _ _) | dsimp only)

theorem State.packetRun_keeps {s0 : State} (s : State) (d c : Nat) (k : Packet) (hk_s : Keeps s0 s) : Keeps s0 (State.packetRun s d c k) := by
  unfold State.packetRun
  (try dsimp only [State.fresh, State.freeVal])
  repeat' (first | with_reducible assumption | with_reducible apply State.dataPacket_keeps | with_reducible apply State.onConn_keeps | with_reducible apply State.ackIn_keeps | with_reducible apply State.nakIn_keeps | with_reducible apply State.respIn_keeps | intro _ | (with_reducible refine Keeps.ite ?_ ?_) | split | (with_reducible refine Keeps.snd ‹_› ?_) | (with_reducible refine Keeps.fst ‹_› ?_) | (with_reducible refine Keeps.upd ?_ rfl rfl rfl ?_; rotate_left; (fail_if_success with_reducible exact Moved.refl _); exact Moved.any _ _) | dsimp only)

theorem State.packetIn_keeps {s0 : State} (s : State) (d : Nat) (k : Packet) (hk_s : Keeps s0 s) : Keeps s0 (State.packetIn s d k) := by
  unfold State.packetIn
  (try dsimp only [State.fresh, State.freeVal])
  repeat' (first | with_reducible assumption | with_reducible apply State.bump_keeps | with_reducible apply State.takeRx_keeps | with_reducible apply State.wantCtx_keeps | with_reducible apply State.touchCtx_keeps | with_reducible apply State.packetRun_keeps | intro _ | (with_reducible refine Keeps.ite ?_ ?_) | split | (with_reducible refine Keeps.upd ?_ rfl rfl rfl ?_; rotate_left; (fail_if_success with_reducible exact Moved.refl _); exact Moved.any _ _) | dsimp only)

theorem execSendPacket_keeps {s0 : State} (d : Nat) (k : Packet) (s : State) (hk_s : Keeps s0 s) : KeepsRes s0 (execSendPacket d k s) := by
  unfold execSendPacket
  (try dsimp only [State.fresh, State.freeVal])
  repeat' (first | with_reducible assumption | with_reducible apply onDie_keeps | with_reducible apply State.packetIn_keeps | intro _ | (with_reducible refine Keeps.ite ?_ ?_) | split | (with_reducible refine KeepsRes.next ?_) | (with_reducible refine Keeps.upd ?_ rfl rfl rfl ?_; rotate_left; (fail_if_success with_reducible exact Moved.refl _); exact Moved.any _ _) | dsimp only)

theorem execWritePacket_keeps {s0 : State} (d : Nat) (k : Packet) (s : State) (hk_s : Keeps s0 s) : KeepsRes s0 (execWritePacket d k s) := by
  unfold execWritePacket
  (try dsimp only [State.fresh, State.freeVal])
  repeat' (first | with_reducible assumption | with_reducible apply onDie_keeps | with_reducible apply State.packetIn_keeps | intro _ | (with_reducible refine Keeps.ite ?_ ?_) | split | (with_reducible refine KeepsRes.next ?_) | (with_reducible refine Keeps.upd ?_ rfl rfl rfl ?_; rotate_left; (fail_if_success with_reducible exact Moved.refl _); exact Moved.any _ _) | dsimp only)

theorem execReadReqPacket_keeps {s0 : State} (d : Nat) (k : Packet) (s : State) (hk_s : Keeps s0 s) : KeepsRes s0 (execReadReqPacket d k s) := by
  unfold execReadReqPacket
  (try dsimp only [State.fresh, State.freeVal])
  repeat' (first | with_reducible assumption | with_reducible apply onDie_keeps | with_reducible apply State.packetIn_keeps | intro _ | (with_reducible refine Keeps.ite ?_ ?_) | split | (with_reducible refine KeepsRes.next ?_) | (with_reducible refine Keeps.upd ?_ rfl rfl rfl ?_; rotate_left; (fail_if_success with_reducible exact Moved.refl _); exact Moved.any _ _) | dsimp only)

theorem execReadRespPacket_keeps {s0 : State} (d : Nat) (k : Packet) (s : State) (hk_s : Keeps s0 s) : KeepsRes s0 (execReadRespPacket d k s) := by
  unfold execReadRespPacket
  (try dsimp only [State.fresh, State.freeVal])
  repeat' (first | with_reducible assumption | with_reducible apply onDie_keeps | with_reducible apply State.packetIn_keeps | intro _ | (with_reducible refine Keeps.ite ?_ ?_) | split | (with_reducible refine KeepsRes.next ?_) | (with_reducible refine Keeps.upd ?_ rfl rfl rfl ?_; rotate_left; (fail_if_success with_reducible exact Moved.refl _); exact Moved.any _ _) | dsimp only)

theorem execAckPacket_keeps {s0 : State} (d : Nat) (k : Packet) (s : State) (hk_s : Keeps s0 s) : KeepsRes s0 (execAckPacket d k s) := by
  unfold execAckPacket
  (try dsimp only [State.fresh, State.freeVal])
  repeat' (first | with_reducible assumption | with_reducible apply onDie_keeps | with_reducible apply State.packetIn_keeps | intro _ | (with_reducible refine Keeps.ite ?_ ?_) | split | (with_reducible refine KeepsRes.next ?_) | (with_reducible refine Keeps.upd ?_ rfl rfl rfl ?_; rotate_left; (fail_if_success with_reducible exact Moved.refl _); exact Moved.any _ _) | dsimp only)

theorem execNakPacket_keeps {s0 : State} (d : Nat) (k : Packet) (s : State) (hk_s : Keeps s0 s) : KeepsRes s0 (execNakPacket d k s) := by
  unfold execNakPacket
  (try dsimp only [State.fresh, State.freeVal])
  repeat' (first | with_reducible assumption | with_reducible apply onDie_keeps | with_reducible apply State.packetIn_keeps | intro _ | (with_reducible refine Keeps.ite ?_ ?_) | split | (with_reducible refine KeepsRes.next ?_) | (with_reducible refine Keeps.upd ?_ rfl rfl rfl ?_; rotate_left; (fail_if_success with_reducible exact Moved.refl _); exact Moved.any _ _) | dsimp only)

theorem State.loadCtx_keeps {s0 : State} (s : State) (d c : Nat) (hk_s : Keeps s0 s) : Keeps s0 (State.loadCtx s d c) := by
  unfold State.loadCtx
  (try dsimp only [State.fresh, State.freeVal])
  repeat' (first | with_reducible assumption | with_reducible apply State.evict_keeps | intro _ | (with_reducible refine Keeps.ite ?_ ?_) | split | (with_reducible refine Keeps.upd ?_ rfl rfl rfl ?_; rotate_left; (fail_if_success with_reducible exact Moved.refl _); exact Moved.any _ _) | dsimp only)

theorem execContextFetch_keeps {s0 : State} (d conn : Nat) (ok : Bool) (s : State) (hk_s : Keeps s0 s) : KeepsRes s0 (execContextFetch d conn ok s) := by
  unfold execContextFetch
  (try dsimp only [State.fresh, State.freeVal])
  repeat' (first | with_reducible assumption | with_reducible apply onDie_keeps | with_reducible apply State.retry_keeps | with_reducible apply State.connError_keeps | with_reducible apply State.packetRun_keeps | with_reducible apply State.loadCtx_keeps | with_reducible apply Keeps.foldl | with_reducible apply Keeps.foldlFst | with_reducible apply Keeps.foldlSnd | intro _ | (with_reducible refine Keeps.ite ?_ ?_) | split | (with_reducible refine KeepsRes.next ?_) | (with_reducible refine Keeps.upd ?_ rfl rfl rfl ?_; rotate_left; (fail_if_success with_reducible exact Moved.refl _); exact Moved.any _ _) | dsimp only)

theorem execXtAckTimer_keeps {s0 : State} (d conn : Nat) (s : State) (hk_s : Keeps s0 s) : KeepsRes s0 (execXtAckTimer d conn s) := by
  unfold execXtAckTimer
  (try dsimp only [State.fresh, State.freeVal])
  repeat' (first | with_reducible assumption | with_reducible apply onDie_keeps | with_reducible apply State.sendAck_keeps | intro _ | (with_reducible refine Keeps.ite ?_ ?_) | split | (with_reducible refine KeepsRes.next ?_) | (with_reducible refine Keeps.upd ?_ rfl rfl rfl ?_; rotate_left; (fail_if_success with_reducible exact Moved.refl _); exact Moved.any _ _) | dsimp only)

theorem execXtNakResend_keeps {s0 : State} (d conn : Nat) (s : State) (hk_s : Keeps s0 s) : KeepsRes s0 (execXtNakResend d conn s) := by
  unfold execXtNakResend
  (try dsimp only [State.fresh, State.freeVal])
  repeat' (first | with_reducible assumption | with_reducible apply onDie_keeps | with_reducible apply State.sendNak_keeps | intro _ | (with_reducible refine Keeps.ite ?_ ?_) | split | (with_reducible refine KeepsRes.next ?_) | (with_reducible refine Keeps.upd ?_ rfl rfl rfl ?_; rotate_left; (fail_if_success with_reducible exact Moved.refl _); exact Moved.any _ _) | dsimp only)

theorem execRetransmitTimeout_keeps {s0 : State} (d conn : Nat) (s : State) (hk_s : Keeps s0 s) : KeepsRes s0 (execRetransmitTimeout d conn s) := by
  unfold execRetransmitTimeout
  (try dsimp only [State.fresh, State.freeVal])
  repeat' (first | with_reducible assumption | with_reducible apply onDie_keeps | with_reducible apply State.bump_keeps | with_reducible apply State.endStatus_keeps | with_reducible apply State.modConn_keeps | with_reducible apply State.resend_keeps | with_reducible apply State.connError_keeps | with_reducible apply Keeps.foldl | with_reducible apply Keeps.foldlFst | with_reducible apply Keeps.foldlSnd | intro _ | (with_reducible refine Keeps.ite ?_ ?_) | split | (with_reducible refine KeepsRes.next ?_) | (with_reducible refine Keeps.upd ?_ rfl rfl rfl ?_; rotate_left; (fail_if_success with_reducible exact Moved.refl _); exact Moved.any _ _) | dsimp only)

theorem execRnrWait_keeps {s0 : State} (d conn : Nat) (s : State) (hk_s : Keeps s0 s) : KeepsRes s0 (execRnrWait d conn s) := by
  unfold execRnrWait
  (try dsimp only [State.fresh, State.freeVal])
  repeat' (first | with_reducible assumption | with_reducible apply onDie_keeps | with_reducible apply State.modConn_keeps | with_reducible apply State.resend_keeps | intro _ | (with_reducible refine Keeps.ite ?_ ?_) | split | (with_reducible refine Keeps.snd ‹_› ?_) | (with_reducible refine Keeps.fst ‹_› ?_) | (with_reducible refine KeepsRes.next ?_) | (with_reducible refine Keeps.upd ?_ rfl rfl rfl ?_; rotate_left; (fail_if_success with_reducible exact Moved.refl _); exact Moved.any _ _) | dsimp only)

theorem execReadRetryTimeout_keeps {s0 : State} (d conn : Nat) (s : State) (hk_s : Keeps s0 s) : KeepsRes s0 (execReadRetryTimeout d conn s) := by
  unfold execReadRetryTimeout
  (try dsimp only [State.fresh, State.freeVal])
  repeat' (first | with_reducible assumption | with_reducible apply onDie_keeps | with_reducible apply State.bump_keeps | with_reducible apply State.sendPacket_keeps | intro _ | (with_reducible refine Keeps.ite ?_ ?_) | split | (with_reducible refine Keeps.snd ‹_› ?_) | (with_reducible refine Keeps.fst ‹_› ?_) | (with_reducible refine KeepsRes.next ?_) | (with_reducible refine Keeps.upd ?_ rfl rfl rfl ?_; rotate_left; (fail_if_success with_reducible exact Moved.refl _); exact Moved.any _ _) | dsimp only)

theorem State.settleInval_keeps {s0 : State} (s : State) (hk_s : Keeps s0 s) : Keeps s0 (State.settleInval s) := by
  unfold State.settleInval
  (try dsimp only [State.fresh, State.freeVal])
  repeat' (first | with_reducible assumption | with_reducible apply State.endStatus_keeps | with_reducible apply Keeps.foldl | with_reducible apply Keeps.foldlFst | with_reducible apply Keeps.foldlSnd | intro _ | (with_reducible refine Keeps.ite ?_ ?_) | split | (with_reducible refine Keeps.upd ?_ rfl rfl rfl ?_; rotate_left; (fail_if_success with_reducible exact Moved.refl _); exact Moved.any _ _) | dsimp only)

theorem execFenceRelease_keeps {s0 : State} (d conn : Nat) (s : State) (hk_s : Keeps s0 s) : KeepsRes s0 (execFenceRelease d conn s) := by
  unfold execFenceRelease
  (try dsimp only [State.fresh, State.freeVal])
  repeat' (first | with_reducible assumption | with_reducible apply onDie_keeps | with_reducible apply State.modIn_keeps | with_reducible apply State.placePacket_keeps | with_reducible apply State.settleInval_keeps | with_reducible apply Keeps.foldl | with_reducible apply Keeps.foldlFst | with_reducible apply Keeps.foldlSnd | intro _ | (with_reducible refine Keeps.ite ?_ ?_) | split | (with_reducible refine KeepsRes.next ?_) | (with_reducible refine Keeps.upd ?_ rfl rfl rfl ?_; rotate_left; (fail_if_success with_reducible exact Moved.refl _); exact Moved.any _ _) | dsimp only)

theorem execReceiveCompletion_keeps {s0 : State} (d conn : Nat) (s : State) (hk_s : Keeps s0 s) : KeepsRes s0 (execReceiveCompletion d conn s) := by
  unfold execReceiveCompletion
  (try dsimp only [State.fresh, State.freeVal])
  repeat' (first | with_reducible assumption | with_reducible apply onDie_keeps | with_reducible apply State.writeRec_keeps | with_reducible apply State.dropWork_keeps | with_reducible apply State.ctxPut_keeps | with_reducible apply State.modConn_keeps | with_reducible apply State.advanceMsn_keeps | intro _ | (with_reducible refine Keeps.ite ?_ ?_) | split | (with_reducible refine Keeps.snd ‹_› ?_) | (with_reducible refine Keeps.fst ‹_› ?_) | (with_reducible refine KeepsRes.next ?_) | (with_reducible refine Keeps.upd ?_ rfl rfl rfl ?_; rotate_left; (fail_if_success with_reducible exact Moved.refl _); exact Moved.any _ _) | dsimp only)

theorem xferBody_keeps {s0 : State} (s : State) (w : Work) (hk_s : Keeps s0 s) : Keeps s0 (xferBody s w) := by
  unfold xferBody
  (try dsimp only [State.fresh, State.freeVal])
  repeat' (first | with_reducible assumption | with_reducible apply State.ctxPut_keeps | with_reducible apply State.modConn_keeps | with_reducible apply State.touchCtx_keeps | with_reducible apply State.pump_keeps | intro _ | (with_reducible refine Keeps.ite ?_ ?_) | split | (with_reducible refine Keeps.snd ‹_› ?_) | (with_reducible refine Keeps.fst ‹_› ?_) | (with_reducible refine Keeps.upd ?_ rfl rfl rfl ?_; rotate_left; (fail_if_success with_reducible exact Moved.refl _); exact Moved.any _ _) | dsimp only)

theorem State.beginXfer_keeps {s0 : State} (s : State) (id kind : Nat) (hk_s : Keeps s0 s) : Keeps s0 (State.beginXfer s id kind) := by
  unfold State.beginXfer
  (try dsimp only [State.fresh, State.freeVal])
  repeat' (first | with_reducible assumption | with_reducible apply State.begin_keeps | with_reducible apply State.wantCtx_keeps | with_reducible apply xferBody_keeps | intro _ | (with_reducible refine Keeps.ite ?_ ?_) | split | (with_reducible refine Keeps.snd ‹_› ?_) | (with_reducible refine Keeps.fst ‹_› ?_) | (with_reducible refine Keeps.upd ?_ rfl rfl rfl ?_; rotate_left; (fail_if_success with_reducible exact Moved.refl _); exact Moved.any _ _) | dsimp only)

theorem execWrite_keeps {s0 : State} (id : Nat) (s : State) (hk_s : Keeps s0 s) : KeepsRes s0 (execWrite id s) := by
  unfold execWrite
  (try dsimp only [State.fresh, State.freeVal])
  repeat' (first | with_reducible assumption | with_reducible apply live_keeps | with_reducible apply State.beginXfer_keeps | intro _ | (with_reducible refine Keeps.ite ?_ ?_) | split | (with_reducible refine KeepsRes.next ?_) | (with_reducible refine Keeps.upd ?_ rfl rfl rfl ?_; rotate_left; (fail_if_success with_reducible exact Moved.refl _); exact Moved.any _ _) | dsimp only)

theorem execWriteInline_keeps {s0 : State} (id : Nat) (s : State) (hk_s : Keeps s0 s) : KeepsRes s0 (execWriteInline id s) := by
  unfold execWriteInline
  (try dsimp only [State.fresh, State.freeVal])
  repeat' (first | with_reducible assumption | with_reducible apply live_keeps | with_reducible apply State.beginXfer_keeps | intro _ | (with_reducible refine Keeps.ite ?_ ?_) | split | (with_reducible refine KeepsRes.next ?_) | (with_reducible refine Keeps.upd ?_ rfl rfl rfl ?_; rotate_left; (fail_if_success with_reducible exact Moved.refl _); exact Moved.any _ _) | dsimp only)

theorem execSend_keeps {s0 : State} (id : Nat) (s : State) (hk_s : Keeps s0 s) : KeepsRes s0 (execSend id s) := by
  unfold execSend
  (try dsimp only [State.fresh, State.freeVal])
  repeat' (first | with_reducible assumption | with_reducible apply live_keeps | with_reducible apply State.beginXfer_keeps | intro _ | (with_reducible refine Keeps.ite ?_ ?_) | split | (with_reducible refine KeepsRes.next ?_) | (with_reducible refine Keeps.upd ?_ rfl rfl rfl ?_; rotate_left; (fail_if_success with_reducible exact Moved.refl _); exact Moved.any _ _) | dsimp only)

theorem execRead_keeps {s0 : State} (id : Nat) (s : State) (hk_s : Keeps s0 s) : KeepsRes s0 (execRead id s) := by
  unfold execRead
  (try dsimp only [State.fresh, State.freeVal])
  repeat' (first | with_reducible assumption | with_reducible apply live_keeps | with_reducible apply State.beginXfer_keeps | intro _ | (with_reducible refine Keeps.ite ?_ ?_) | split | (with_reducible refine KeepsRes.next ?_) | (with_reducible refine Keeps.upd ?_ rfl rfl rfl ?_; rotate_left; (fail_if_success with_reducible exact Moved.refl _); exact Moved.any _ _) | dsimp only)

theorem execPostBuf_keeps {s0 : State} (id : Nat) (s : State) (hk_s : Keeps s0 s) : KeepsRes s0 (execPostBuf id s) := by
  unfold execPostBuf
  (try dsimp only [State.fresh, State.freeVal])
  repeat' (first | with_reducible assumption | with_reducible apply live_keeps | with_reducible apply State.begin_keeps | intro _ | (with_reducible refine Keeps.ite ?_ ?_) | split | (with_reducible refine KeepsRes.next ?_) | (with_reducible refine Keeps.upd ?_ rfl rfl rfl ?_; rotate_left; (fail_if_success with_reducible exact Moved.refl _); exact Moved.any _ _) | dsimp only)

theorem State.createBody_keeps {s0 : State} (s : State) (w : Work) (hk_s : Keeps s0 s) : Keeps s0 (State.createBody s w) := by
  unfold State.createBody
  (try dsimp only [State.fresh, State.freeVal])
  repeat' (first | with_reducible assumption | with_reducible apply State.endStatus_keeps | with_reducible apply State.setCtx_keeps | with_reducible apply State.modConn_keeps | with_reducible apply State.dropCtx_keeps | intro _ | (with_reducible refine Keeps.ite ?_ ?_) | split | (with_reducible refine Keeps.upd ?_ rfl rfl rfl ?_; rotate_left; (fail_if_success with_reducible exact Moved.refl _); exact Moved.any _ _) | dsimp only)

theorem execConnCreate_keeps {s0 : State} (id : Nat) (s : State) (hk_s : Keeps s0 s) : KeepsRes s0 (execConnCreate id s) := by
  unfold execConnCreate
  (try dsimp only [State.fresh, State.freeVal])
  repeat' (first | with_reducible assumption | with_reducible apply live_keeps | with_reducible apply State.begin_keeps | with_reducible apply State.createBody_keeps | intro _ | (with_reducible refine Keeps.ite ?_ ?_) | split | (with_reducible refine KeepsRes.next ?_) | (with_reducible refine Keeps.upd ?_ rfl rfl rfl ?_; rotate_left; (fail_if_success with_reducible exact Moved.refl _); exact Moved.any _ _) | dsimp only)

theorem State.modifyBody_keeps {s0 : State} (s : State) (w : Work) (hk_s : Keeps s0 s) : Keeps s0 (State.modifyBody s w) := by
  unfold State.modifyBody
  (try dsimp only [State.fresh, State.freeVal])
  repeat' (first | with_reducible assumption | with_reducible apply State.endStatus_keeps | with_reducible apply State.setCtx_keeps | with_reducible apply State.modConn_keeps | intro _ | (with_reducible refine Keeps.ite ?_ ?_) | split | (with_reducible refine Keeps.upd ?_ rfl rfl rfl ?_; rotate_left; (fail_if_success with_reducible exact Moved.refl _); exact Moved.any _ _) | dsimp only)

theorem execConnModify_keeps {s0 : State} (id : Nat) (s : State) (hk_s : Keeps s0 s) : KeepsRes s0 (execConnModify id s) := by
  unfold execConnModify
  (try dsimp only [State.fresh, State.freeVal])
  repeat' (first | with_reducible assumption | with_reducible apply live_keeps | with_reducible apply State.begin_keeps | with_reducible apply State.modifyBody_keeps | intro _ | (with_reducible refine Keeps.ite ?_ ?_) | split | (with_reducible refine KeepsRes.next ?_) | (with_reducible refine Keeps.upd ?_ rfl rfl rfl ?_; rotate_left; (fail_if_success with_reducible exact Moved.refl _); exact Moved.any _ _) | dsimp only)

theorem State.destroyBody_keeps {s0 : State} (s : State) (w : Work) (hk_s : Keeps s0 s) : Keeps s0 (State.destroyBody s w) := by
  unfold State.destroyBody
  (try dsimp only [State.fresh, State.freeVal])
  repeat' (first | with_reducible assumption | with_reducible apply State.endStatus_keeps | with_reducible apply State.ctxPut_keeps | with_reducible apply State.flushConn_keeps | with_reducible apply Keeps.foldl | with_reducible apply Keeps.foldlFst | with_reducible apply Keeps.foldlSnd | intro _ | (with_reducible refine Keeps.ite ?_ ?_) | split | (with_reducible refine Keeps.upd ?_ rfl rfl rfl ?_; rotate_left; (fail_if_success with_reducible exact Moved.refl _); exact Moved.any _ _) | dsimp only)

theorem execConnDestroy_keeps {s0 : State} (id : Nat) (s : State) (hk_s : Keeps s0 s) : KeepsRes s0 (execConnDestroy id s) := by
  unfold execConnDestroy
  (try dsimp only [State.fresh, State.freeVal])
  repeat' (first | with_reducible assumption | with_reducible apply live_keeps | with_reducible apply State.begin_keeps | with_reducible apply State.destroyBody_keeps | intro _ | (with_reducible refine Keeps.ite ?_ ?_) | split | (with_reducible refine KeepsRes.next ?_) | (with_reducible refine Keeps.upd ?_ rfl rfl rfl ?_; rotate_left; (fail_if_success with_reducible exact Moved.refl _); exact Moved.any _ _) | dsimp only)

theorem execConnQuery_keeps {s0 : State} (id : Nat) (s : State) (hk_s : Keeps s0 s) : KeepsRes s0 (execConnQuery id s) := by
  unfold execConnQuery
  (try dsimp only [State.fresh, State.freeVal])
  repeat' (first | with_reducible assumption | with_reducible apply live_keeps | with_reducible apply State.write_keeps | with_reducible apply State.endStatus_keeps | with_reducible apply State.begin_keeps | with_reducible apply Keeps.write | intro _ | (with_reducible refine Keeps.ite ?_ ?_) | split | (with_reducible refine KeepsRes.next ?_) | (with_reducible refine Keeps.upd ?_ rfl rfl rfl ?_; rotate_left; (fail_if_success with_reducible exact Moved.refl _); exact Moved.any _ _) | dsimp only)

theorem State.registerBody_keeps {s0 : State} (s : State) (w : Work) (hk_s : Keeps s0 s) : Keeps s0 (State.registerBody s w) := by
  unfold State.registerBody
  (try dsimp only [State.fresh, State.freeVal])
  repeat' (first | with_reducible assumption | with_reducible apply State.write_keeps | with_reducible apply State.endWork_keeps | with_reducible apply Keeps.write | intro _ | (with_reducible refine Keeps.ite ?_ ?_) | split | (with_reducible refine Keeps.upd ?_ rfl rfl rfl ?_; rotate_left; (fail_if_success with_reducible exact Moved.refl _); exact Moved.any _ _) | dsimp only)

theorem execRegister_keeps {s0 : State} (id : Nat) (s : State) (hk_s : Keeps s0 s) : KeepsRes s0 (execRegister id s) := by
  unfold execRegister
  (try dsimp only [State.fresh, State.freeVal])
  repeat' (first | with_reducible assumption | with_reducible apply live_keeps | with_reducible apply State.begin_keeps | with_reducible apply State.registerBody_keeps | intro _ | (with_reducible refine Keeps.ite ?_ ?_) | split | (with_reducible refine KeepsRes.next ?_) | (with_reducible refine Keeps.upd ?_ rfl rfl rfl ?_; rotate_left; (fail_if_success with_reducible exact Moved.refl _); exact Moved.any _ _) | dsimp only)

theorem State.invalBody_keeps {s0 : State} (s : State) (w : Work) (hk_s : Keeps s0 s) : Keeps s0 (State.invalBody s w) := by
  unfold State.invalBody
  (try dsimp only [State.fresh, State.freeVal])
  repeat' (first | with_reducible assumption | with_reducible apply State.write_keeps | with_reducible apply State.settleInval_keeps | with_reducible apply Keeps.write | intro _ | (with_reducible refine Keeps.ite ?_ ?_) | split | (with_reducible refine Keeps.upd ?_ rfl rfl rfl ?_; rotate_left; (fail_if_success with_reducible exact Moved.refl _); exact Moved.any _ _) | dsimp only)

theorem execInvalidate_keeps {s0 : State} (id : Nat) (s : State) (hk_s : Keeps s0 s) : KeepsRes s0 (execInvalidate id s) := by
  unfold execInvalidate
  (try dsimp only [State.fresh, State.freeVal])
  repeat' (first | with_reducible assumption | with_reducible apply live_keeps | with_reducible apply State.begin_keeps | with_reducible apply State.invalBody_keeps | intro _ | (with_reducible refine Keeps.ite ?_ ?_) | split | (with_reducible refine KeepsRes.next ?_) | (with_reducible refine Keeps.upd ?_ rfl rfl rfl ?_; rotate_left; (fail_if_success with_reducible exact Moved.refl _); exact Moved.any _ _) | dsimp only)

theorem State.xtOff_keeps {s0 : State} (s : State) (d : Nat) (hk_s : Keeps s0 s) : Keeps s0 (State.xtOff s d) := by
  unfold State.xtOff
  (try dsimp only [State.fresh, State.freeVal])
  repeat' (first | with_reducible assumption | with_reducible apply State.setRbit_keeps | with_reducible apply State.dropCtx_keeps | with_reducible apply State.flushMsgs_keeps | with_reducible apply Keeps.foldl | with_reducible apply Keeps.foldlFst | with_reducible apply Keeps.foldlSnd | intro _ | (with_reducible refine Keeps.ite ?_ ?_) | split | (with_reducible refine Keeps.upd ?_ rfl rfl rfl ?_; rotate_left; (fail_if_success with_reducible exact Moved.refl _); exact Moved.any _ _) | dsimp only)

theorem execXtDisable_keeps {s0 : State} (d : Nat) (s : State) (hk_s : Keeps s0 s) : KeepsRes s0 (execXtDisable d s) := by
  unfold execXtDisable
  (try dsimp only [State.fresh, State.freeVal])
  repeat' (first | with_reducible assumption | with_reducible apply onDie_keeps | with_reducible apply State.xtOff_keeps | intro _ | (with_reducible refine Keeps.ite ?_ ?_) | split | (with_reducible refine KeepsRes.next ?_) | (with_reducible refine Keeps.upd ?_ rfl rfl rfl ?_; rotate_left; (fail_if_success with_reducible exact Moved.refl _); exact Moved.any _ _) | dsimp only)

end Sys2Proof.Machine
end

