-- ==== Sys2Proof/Laws/KeepsPartition.lean ====
section
/-! SUPPORT. What the operations of Machine/Partition.lean keep: the queue, the part and the invariant. -/

namespace Sys2Proof.Machine

theorem State.endSwitch_keeps {s0 : State} (s : State) (d p drainNs : Nat) (hk_s : Keeps s0 s) : Keeps s0 (State.endSwitch s d p drainNs) := by
  unfold State.endSwitch
  (try dsimp only [State.fresh, State.freeVal])
  repeat' (first | with_reducible assumption | with_reducible apply State.bump_keeps | with_reducible apply State.setPartStatus_keeps | intro _ | (with_reducible refine Keeps.ite ?_ ?_) | split | (with_reducible refine Keeps.snd ‹_› ?_) | (with_reducible refine Keeps.fst ‹_› ?_) | (with_reducible refine Keeps.upd ?_ rfl rfl rfl ?_; rotate_left; (fail_if_success with_reducible exact Moved.refl _); exact Moved.any _ _) | dsimp only)

theorem execContextSwitch_keeps {s0 : State} (d p drainNs : Nat) (s : State) (hk_s : Keeps s0 s) : KeepsRes s0 (execContextSwitch d p drainNs s) := by
  unfold execContextSwitch
  (try dsimp only [State.fresh, State.freeVal])
  repeat' (first | with_reducible assumption | with_reducible apply onDie_keeps | with_reducible apply State.leaveIdle_keeps | with_reducible apply State.endSwitch_keeps | intro _ | (with_reducible refine Keeps.ite ?_ ?_) | split | (with_reducible refine KeepsRes.next ?_) | (with_reducible refine Keeps.upd ?_ rfl rfl rfl ?_; rotate_left; (fail_if_success with_reducible exact Moved.refl _); exact Moved.any _ _) | dsimp only)

theorem State.sliceEnd_keeps {s0 : State} (s : State) (d p : Nat) (hk_s : Keeps s0 s) : Keeps s0 (State.sliceEnd s d p) := by
  unfold State.sliceEnd
  (try dsimp only [State.fresh, State.freeVal])
  repeat' (first | with_reducible assumption | with_reducible apply State.beginSwitch_keeps | with_reducible apply State.leaveIdle_keeps | intro _ | (with_reducible refine Keeps.ite ?_ ?_) | split | (with_reducible refine Keeps.snd ‹_› ?_) | (with_reducible refine Keeps.fst ‹_› ?_) | (with_reducible refine Keeps.upd ?_ rfl rfl rfl ?_; rotate_left; (fail_if_success with_reducible exact Moved.refl _); exact Moved.any _ _) | dsimp only)

theorem execSliceExpire_keeps {s0 : State} (d p : Nat) (s : State) (hk_s : Keeps s0 s) : KeepsRes s0 (execSliceExpire d p s) := by
  unfold execSliceExpire
  (try dsimp only [State.fresh, State.freeVal])
  repeat' (first | with_reducible assumption | with_reducible apply onDie_keeps | with_reducible apply State.sliceEnd_keeps | intro _ | (with_reducible refine Keeps.ite ?_ ?_) | split | (with_reducible refine KeepsRes.next ?_) | (with_reducible refine Keeps.upd ?_ rfl rfl rfl ?_; rotate_left; (fail_if_success with_reducible exact Moved.refl _); exact Moved.any _ _) | dsimp only)

theorem State.partStart_keeps {s0 : State} (s : State) (d p : Nat) (hk_s : Keeps s0 s) : Keeps s0 (State.partStart s d p) := by
  unfold State.partStart
  (try dsimp only [State.fresh, State.freeVal])
  repeat' (first | with_reducible assumption | with_reducible apply State.setPartStatus_keeps | with_reducible apply State.leaveIdle_keeps | intro _ | (with_reducible refine Keeps.ite ?_ ?_) | split | (with_reducible refine Keeps.upd ?_ rfl rfl rfl ?_; rotate_left; (fail_if_success with_reducible exact Moved.refl _); exact Moved.any _ _) | dsimp only)

theorem State.partStop_keeps {s0 : State} (s : State) (d p : Nat) (hk_s : Keeps s0 s) : Keeps s0 (State.partStop s d p) := by
  unfold State.partStop
  (try dsimp only [State.fresh, State.freeVal])
  repeat' (first | with_reducible assumption | with_reducible apply State.endStatus_keeps | with_reducible apply State.setPartStatus_keeps | with_reducible apply Keeps.foldl | with_reducible apply Keeps.foldlFst | with_reducible apply Keeps.foldlSnd | intro _ | (with_reducible refine Keeps.ite ?_ ?_) | split | (with_reducible refine Keeps.upd ?_ rfl rfl rfl ?_; rotate_left; (fail_if_success with_reducible exact Moved.refl _); exact Moved.any _ _) | dsimp only)

theorem State.partCfgWrite_keeps {s0 : State} (s : State) (d p v : Nat) (hk_s : Keeps s0 s) : Keeps s0 (State.partCfgWrite s d p v) := by
  unfold State.partCfgWrite
  (try dsimp only [State.fresh, State.freeVal])
  repeat' (first | with_reducible assumption | with_reducible apply State.setRegN_keeps | with_reducible apply State.partStart_keeps | with_reducible apply State.partStop_keeps | intro _ | (with_reducible refine Keeps.ite ?_ ?_) | split | (with_reducible refine Keeps.upd ?_ rfl rfl rfl ?_; rotate_left; (fail_if_success with_reducible exact Moved.refl _); exact Moved.any _ _) | dsimp only)

theorem execPartitionEnable_keeps {s0 : State} (d p slice : Nat) (s : State) (hk_s : Keeps s0 s) : KeepsRes s0 (execPartitionEnable d p slice s) := by
  unfold execPartitionEnable
  (try dsimp only [State.fresh, State.freeVal])
  repeat' (first | with_reducible assumption | with_reducible apply onDie_keeps | with_reducible apply State.partCfgWrite_keeps | intro _ | (with_reducible refine Keeps.ite ?_ ?_) | split | (with_reducible refine KeepsRes.next ?_) | (with_reducible refine Keeps.upd ?_ rfl rfl rfl ?_; rotate_left; (fail_if_success with_reducible exact Moved.refl _); exact Moved.any _ _) | dsimp only)

theorem execPartitionDisable_keeps {s0 : State} (d p : Nat) (s : State) (hk_s : Keeps s0 s) : KeepsRes s0 (execPartitionDisable d p s) := by
  unfold execPartitionDisable
  (try dsimp only [State.fresh, State.freeVal])
  repeat' (first | with_reducible assumption | with_reducible apply onDie_keeps | with_reducible apply State.partCfgWrite_keeps | intro _ | (with_reducible refine Keeps.ite ?_ ?_) | split | (with_reducible refine KeepsRes.next ?_) | (with_reducible refine Keeps.upd ?_ rfl rfl rfl ?_; rotate_left; (fail_if_success with_reducible exact Moved.refl _); exact Moved.any _ _) | dsimp only)

theorem State.partMaskWrite_keeps {s0 : State} (s : State) (d p v : Nat) (hk_s : Keeps s0 s) : Keeps s0 (State.partMaskWrite s d p v) := by
  unfold State.partMaskWrite
  (try dsimp only [State.fresh, State.freeVal])
  repeat' (first | with_reducible assumption | with_reducible apply State.setRegN_keeps | with_reducible apply State.setRbit_keeps | intro _ | (with_reducible refine Keeps.ite ?_ ?_) | split | (with_reducible refine Keeps.upd ?_ rfl rfl rfl ?_; rotate_left; (fail_if_success with_reducible exact Moved.refl _); exact Moved.any _ _) | dsimp only)

theorem execPartMaskWrite_keeps {s0 : State} (d p : Nat) (value : W32) (master : Master) (s : State) (hk_s : Keeps s0 s) : KeepsRes s0 (execPartMaskWrite d p value master s) := by
  unfold execPartMaskWrite
  (try dsimp only [State.fresh, State.freeVal])
  repeat' (first | with_reducible assumption | with_reducible apply onDie_keeps | with_reducible apply State.partMaskWrite_keeps | intro _ | (with_reducible refine Keeps.ite ?_ ?_) | split | (with_reducible refine KeepsRes.next ?_) | (with_reducible refine Keeps.upd ?_ rfl rfl rfl ?_; rotate_left; (fail_if_success with_reducible exact Moved.refl _); exact Moved.any _ _) | dsimp only)

theorem State.setBucket_keeps {s0 : State} (s : State) (b : Bucket) (hk_s : Keeps s0 s) : Keeps s0 (State.setBucket s b) := by
  unfold State.setBucket
  (try dsimp only [State.fresh, State.freeVal])
  repeat' (first | with_reducible assumption | intro _ | (with_reducible refine Keeps.ite ?_ ?_) | split | (with_reducible refine Keeps.upd ?_ rfl rfl rfl ?_; rotate_left; (fail_if_success with_reducible exact Moved.refl _); exact Moved.any _ _) | dsimp only)

theorem State.fillWeir_keeps {s0 : State} (s : State) (d path link ns : Nat) (hk_s : Keeps s0 s) : Keeps s0 (State.fillWeir s d path link ns) := by
  unfold State.fillWeir
  (try dsimp only [State.fresh, State.freeVal])
  repeat' (first | with_reducible assumption | with_reducible apply State.setBucket_keeps | with_reducible apply Keeps.foldl | with_reducible apply Keeps.foldlFst | with_reducible apply Keeps.foldlSnd | intro _ | (with_reducible refine Keeps.ite ?_ ?_) | split | (with_reducible refine Keeps.upd ?_ rfl rfl rfl ?_; rotate_left; (fail_if_success with_reducible exact Moved.refl _); exact Moved.any _ _) | dsimp only)

theorem State.weirTake_keeps {s0 : State} (s : State) (d path link p size : Nat) (hk_s : Keeps s0 s) : Keeps s0 (State.weirTake s d path link p size) := by
  unfold State.weirTake
  (try dsimp only [State.fresh, State.freeVal])
  repeat' (first | with_reducible assumption | with_reducible apply State.bump_keeps | with_reducible apply State.setBucket_keeps | intro _ | (with_reducible refine Keeps.ite ?_ ?_) | split | (with_reducible refine Keeps.upd ?_ rfl rfl rfl ?_; rotate_left; (fail_if_success with_reducible exact Moved.refl _); exact Moved.any _ _) | dsimp only)

theorem execWeirGrant_keeps {s0 : State} (d path link elapsedNs : Nat) (waiting : List WeirReq) (s : State) (hk_s : Keeps s0 s) : KeepsRes s0 (execWeirGrant d path link elapsedNs waiting s) := by
  unfold execWeirGrant
  (try dsimp only [State.fresh, State.freeVal])
  repeat' (first | with_reducible assumption | with_reducible apply onDie_keeps | with_reducible apply State.fillWeir_keeps | with_reducible apply State.weirTake_keeps | intro _ | (with_reducible refine Keeps.ite ?_ ?_) | split | (with_reducible refine Keeps.snd ‹_› ?_) | (with_reducible refine Keeps.fst ‹_› ?_) | (with_reducible refine KeepsRes.next ?_) | (with_reducible refine Keeps.upd ?_ rfl rfl rfl ?_; rotate_left; (fail_if_success with_reducible exact Moved.refl _); exact Moved.any _ _) | dsimp only)

theorem State.keepBuckets_keeps {s0 : State} (s : State) (d : Nat) (hk_s : Keeps s0 s) : Keeps s0 (State.keepBuckets s d) := by
  unfold State.keepBuckets
  (try dsimp only [State.fresh, State.freeVal])
  repeat' (first | with_reducible assumption | with_reducible apply State.setBucket_keeps | with_reducible apply Keeps.foldl | with_reducible apply Keeps.foldlFst | with_reducible apply Keeps.foldlSnd | intro _ | (with_reducible refine Keeps.ite ?_ ?_) | split | (with_reducible refine Keeps.upd ?_ rfl rfl rfl ?_; rotate_left; (fail_if_success with_reducible exact Moved.refl _); exact Moved.any _ _) | dsimp only)

theorem State.weirCtrlWrite_keeps {s0 : State} (s : State) (d v : Nat) (hk_s : Keeps s0 s) : Keeps s0 (State.weirCtrlWrite s d v) := by
  unfold State.weirCtrlWrite
  (try dsimp only [State.fresh, State.freeVal])
  repeat' (first | with_reducible assumption | with_reducible apply State.setRegN_keeps | with_reducible apply State.keepBuckets_keeps | intro _ | (with_reducible refine Keeps.ite ?_ ?_) | split | (with_reducible refine Keeps.upd ?_ rfl rfl rfl ?_; rotate_left; (fail_if_success with_reducible exact Moved.refl _); exact Moved.any _ _) | dsimp only)

end Sys2Proof.Machine
end

