-- ==== Sys2Proof/Laws/KeepsServing.lean ====
section
/-! SUPPORT. What the operations of Machine/Serving.lean keep: the queue, the part and the invariant. -/

namespace Sys2Proof.Machine

theorem State.setSrv_keeps {s0 : State} (s : State) (x : Srv) (hk_s : Keeps s0 s) : Keeps s0 (State.setSrv s x) := by
  unfold State.setSrv
  (try dsimp only [State.fresh, State.freeVal])
  repeat' (first | with_reducible assumption | intro _ | (with_reducible refine Keeps.ite ?_ ?_) | split | (with_reducible refine Keeps.upd ?_ rfl rfl rfl ?_; rotate_left; (fail_if_success with_reducible exact Moved.refl _); exact Moved.any _ _) | dsimp only)

theorem State.nameVictim_keeps {s0 : State} (s : State) (p : Nat) (hk_s : Keeps s0 s) : Keeps s0 (State.nameVictim s p) := by
  unfold State.nameVictim
  (try dsimp only [State.fresh, State.freeVal])
  repeat' (first | with_reducible assumption | with_reducible apply State.setRegN_keeps | intro _ | (with_reducible refine Keeps.ite ?_ ?_) | split | (with_reducible refine Keeps.upd ?_ rfl rfl rfl ?_; rotate_left; (fail_if_success with_reducible exact Moved.refl _); exact Moved.any _ _) | dsimp only)

theorem State.srvCtrlWrite_keeps {s0 : State} (s : State) (p v : Nat) (hk_s : Keeps s0 s) : Keeps s0 (State.srvCtrlWrite s p v) := by
  unfold State.srvCtrlWrite
  (try dsimp only [State.fresh, State.freeVal])
  repeat' (first | with_reducible assumption | with_reducible apply State.setRegN_keeps | with_reducible apply State.setSrv_keeps | with_reducible apply State.nameVictim_keeps | intro _ | (with_reducible refine Keeps.ite ?_ ?_) | split | (with_reducible refine Keeps.upd ?_ rfl rfl rfl ?_; rotate_left; (fail_if_success with_reducible exact Moved.refl _); exact Moved.any _ _) | dsimp only)

theorem execServingEnable_keeps {s0 : State} (p : Nat) (value : W32) (s : State) (hk_s : Keeps s0 s) : KeepsRes s0 (execServingEnable p value s) := by
  unfold execServingEnable
  (try dsimp only [State.fresh, State.freeVal])
  repeat' (first | with_reducible assumption | with_reducible apply live_keeps | with_reducible apply State.srvCtrlWrite_keeps | intro _ | (with_reducible refine Keeps.ite ?_ ?_) | split | (with_reducible refine KeepsRes.next ?_) | (with_reducible refine Keeps.upd ?_ rfl rfl rfl ?_; rotate_left; (fail_if_success with_reducible exact Moved.refl _); exact Moved.any _ _) | dsimp only)

theorem execServingDisable_keeps {s0 : State} (p : Nat) (s : State) (hk_s : Keeps s0 s) : KeepsRes s0 (execServingDisable p s) := by
  unfold execServingDisable
  (try dsimp only [State.fresh, State.freeVal])
  repeat' (first | with_reducible assumption | with_reducible apply live_keeps | with_reducible apply State.srvCtrlWrite_keeps | intro _ | (with_reducible refine Keeps.ite ?_ ?_) | split | (with_reducible refine KeepsRes.next ?_) | (with_reducible refine Keeps.upd ?_ rfl rfl rfl ?_; rotate_left; (fail_if_success with_reducible exact Moved.refl _); exact Moved.any _ _) | dsimp only)

theorem State.serveModel_keeps {s0 : State} (s : State) (p : Nat) (ents : List (List Byte)) (x : Scan) (m : Nat) (hk_s : Keeps s0 s) : Keeps s0 (State.serveModel s p ents x m).1 := by
  unfold State.serveModel
  (try dsimp only [State.fresh, State.freeVal])
  repeat' (first | with_reducible assumption | with_reducible apply State.write_keeps | with_reducible apply Keeps.write | intro _ | (with_reducible refine Keeps.ite ?_ ?_) | split | (with_reducible refine Keeps.upd ?_ rfl rfl rfl ?_; rotate_left; (fail_if_success with_reducible exact Moved.refl _); exact Moved.any _ _) | dsimp only)

theorem State.writeSeqs_keeps {s0 : State} (s : State) (m n : Nat) (hk_s : Keeps s0 s) : Keeps s0 (State.writeSeqs s m n) := by
  unfold State.writeSeqs
  (try dsimp only [State.fresh, State.freeVal])
  repeat' (first | with_reducible assumption | with_reducible apply State.writeN_keeps | intro _ | (with_reducible refine Keeps.ite ?_ ?_) | split | (with_reducible refine Keeps.upd ?_ rfl rfl rfl ?_; rotate_left; (fail_if_success with_reducible exact Moved.refl _); exact Moved.any _ _) | dsimp only)

theorem State.feedRing_keeps {s0 : State} (s : State) (p : Nat) (n : List (Nat × List Byte)) (hk_s : Keeps s0 s) : Keeps s0 (State.feedRing s p n) := by
  induction n generalizing s with
  | nil =>
    unfold State.feedRing
    (try dsimp only)
    repeat' (first | with_reducible assumption | with_reducible apply State.write_keeps | with_reducible apply State.bellPi_keeps | with_reducible apply State.setSrv_keeps | with_reducible apply Keeps.write | intro _ | (with_reducible refine Keeps.ite ?_ ?_) | split | (with_reducible refine Keeps.upd ?_ rfl rfl rfl ?_; rotate_left; (fail_if_success with_reducible exact Moved.refl _); exact Moved.any _ _) | dsimp only)
  | cons _ _ ih =>
    unfold State.feedRing
    (try dsimp only [State.fresh, State.freeVal])
    repeat' (first | with_reducible assumption | with_reducible apply ih | with_reducible apply State.write_keeps | with_reducible apply State.bellPi_keeps | with_reducible apply State.setSrv_keeps | with_reducible apply Keeps.write | intro _ | (with_reducible refine Keeps.ite ?_ ?_) | split | (with_reducible refine Keeps.upd ?_ rfl rfl rfl ?_; rotate_left; (fail_if_success with_reducible exact Moved.refl _); exact Moved.any _ _) | dsimp only)

theorem State.feed_keeps {s0 : State} (s : State) (p : Nat) (hk_s : Keeps s0 s) : Keeps s0 (State.feed s p) := by
  unfold State.feed
  (try dsimp only [State.fresh, State.freeVal])
  repeat' (first | with_reducible assumption | with_reducible apply State.feedRing_keeps | intro _ | (with_reducible refine Keeps.ite ?_ ?_) | split | (with_reducible refine Keeps.upd ?_ rfl rfl rfl ?_; rotate_left; (fail_if_success with_reducible exact Moved.refl _); exact Moved.any _ _) | dsimp only)

theorem State.buildStep_keeps {s0 : State} (s : State) (p : Nat) (hk_s : Keeps s0 s) : Keeps s0 (State.buildStep s p) := by
  unfold State.buildStep
  (try dsimp only [State.fresh, State.freeVal])
  repeat' (first | with_reducible assumption | with_reducible apply State.bump_keeps | with_reducible apply State.setSrv_keeps | with_reducible apply State.serveModel_keeps | with_reducible apply State.writeSeqs_keeps | with_reducible apply State.feed_keeps | with_reducible apply Keeps.foldl | with_reducible apply Keeps.foldlFst | with_reducible apply Keeps.foldlSnd | intro _ | (with_reducible refine Keeps.ite ?_ ?_) | split | (with_reducible refine Keeps.snd ‹_› ?_) | (with_reducible refine Keeps.fst ‹_› ?_) | (with_reducible refine Keeps.upd ?_ rfl rfl rfl ?_; rotate_left; (fail_if_success with_reducible exact Moved.refl _); exact Moved.any _ _) | dsimp only)

theorem execServingStepBuild_keeps {s0 : State} (p : Nat) (s : State) (hk_s : Keeps s0 s) : KeepsRes s0 (execServingStepBuild p s) := by
  unfold execServingStepBuild
  (try dsimp only [State.fresh, State.freeVal])
  repeat' (first | with_reducible assumption | with_reducible apply live_keeps | with_reducible apply State.buildStep_keeps | intro _ | (with_reducible refine Keeps.ite ?_ ?_) | split | (with_reducible refine KeepsRes.next ?_) | (with_reducible refine Keeps.upd ?_ rfl rfl rfl ?_; rotate_left; (fail_if_success with_reducible exact Moved.refl _); exact Moved.any _ _) | dsimp only)

theorem execDescriptorAccept_keeps {s0 : State} (d : Nat) (s : State) (hk_s : Keeps s0 s) : KeepsRes s0 (execDescriptorAccept d s) := by
  unfold execDescriptorAccept
  (try dsimp only [State.fresh, State.freeVal])
  repeat' (first | with_reducible assumption | with_reducible apply onDie_keeps | with_reducible apply State.leaveIdle_keeps | with_reducible apply State.acceptNext_keeps | with_reducible apply State.feed_keeps | with_reducible apply Keeps.foldl | with_reducible apply Keeps.foldlFst | with_reducible apply Keeps.foldlSnd | intro _ | (with_reducible refine Keeps.ite ?_ ?_) | split | (with_reducible refine KeepsRes.next ?_) | (with_reducible refine Keeps.upd ?_ rfl rfl rfl ?_; rotate_left; (fail_if_success with_reducible exact Moved.refl _); exact Moved.any _ _) | dsimp only)

theorem State.advance_keeps {s0 : State} (s : State) (p : Nat) (e : Nat × Nat × Nat) (hk_s : Keeps s0 s) : Keeps s0 (State.advance s p e) := by
  unfold State.advance
  (try dsimp only [State.fresh, State.freeVal])
  repeat' (first | with_reducible assumption | with_reducible apply State.bump_keeps | with_reducible apply State.writeN_keeps | intro _ | (with_reducible refine Keeps.ite ?_ ?_) | split | (with_reducible refine Keeps.upd ?_ rfl rfl rfl ?_; rotate_left; (fail_if_success with_reducible exact Moved.refl _); exact Moved.any _ _) | dsimp only)

theorem State.useModel_keeps {s0 : State} (s : State) (m : Nat) (hk_s : Keeps s0 s) : Keeps s0 (State.useModel s m) := by
  unfold State.useModel
  (try dsimp only [State.fresh, State.freeVal])
  repeat' (first | with_reducible assumption | with_reducible apply State.writeN_keeps | intro _ | (with_reducible refine Keeps.ite ?_ ?_) | split | (with_reducible refine Keeps.upd ?_ rfl rfl rfl ?_; rotate_left; (fail_if_success with_reducible exact Moved.refl _); exact Moved.any _ _) | dsimp only)

theorem State.finishStep_keeps {s0 : State} (s : State) (p : Nat) (hk_s : Keeps s0 s) : Keeps s0 (State.finishStep s p) := by
  unfold State.finishStep
  (try dsimp only [State.fresh, State.freeVal])
  repeat' (first | with_reducible assumption | with_reducible apply State.setRegN_keeps | with_reducible apply State.bump_keeps | with_reducible apply State.setSrv_keeps | with_reducible apply State.nameVictim_keeps | with_reducible apply State.writeSeqs_keeps | with_reducible apply State.feed_keeps | with_reducible apply State.advance_keeps | with_reducible apply State.useModel_keeps | with_reducible apply Keeps.foldl | with_reducible apply Keeps.foldlFst | with_reducible apply Keeps.foldlSnd | intro _ | (with_reducible refine Keeps.ite ?_ ?_) | split | (with_reducible refine Keeps.upd ?_ rfl rfl rfl ?_; rotate_left; (fail_if_success with_reducible exact Moved.refl _); exact Moved.any _ _) | dsimp only)

theorem execServingStepComplete_keeps {s0 : State} (p : Nat) (s : State) (hk_s : Keeps s0 s) : KeepsRes s0 (execServingStepComplete p s) := by
  unfold execServingStepComplete
  (try dsimp only [State.fresh, State.freeVal])
  repeat' (first | with_reducible assumption | with_reducible apply live_keeps | with_reducible apply State.finishStep_keeps | intro _ | (with_reducible refine Keeps.ite ?_ ?_) | split | (with_reducible refine KeepsRes.next ?_) | (with_reducible refine Keeps.upd ?_ rfl rfl rfl ?_; rotate_left; (fail_if_success with_reducible exact Moved.refl _); exact Moved.any _ _) | dsimp only)

end Sys2Proof.Machine
end

