-- ==== Sys2Proof/Laws/KeepsMailbox.lean ====
section
/-! SUPPORT. What the operations of Machine/Mailbox.lean keep: the queue, the part and the invariant. -/

namespace Sys2Proof.Machine

theorem State.setMbBytes_keeps {s0 : State} (s : State) (m : Nat) (b : List Byte) (hk_s : Keeps s0 s) : Keeps s0 (State.setMbBytes s m b) := by
  unfold State.setMbBytes
  (try dsimp only [State.fresh, State.freeVal])
  repeat' (first | with_reducible assumption | with_reducible apply State.setRegN_keeps | with_reducible apply Keeps.foldl | with_reducible apply Keeps.foldlFst | with_reducible apply Keeps.foldlSnd | intro _ | (with_reducible refine Keeps.ite ?_ ?_) | split | (with_reducible refine Keeps.upd ?_ rfl rfl rfl ?_; rotate_left; (fail_if_success with_reducible exact Moved.refl _); exact Moved.any _ _) | dsimp only)

theorem State.resetRing_keeps {s0 : State} (s : State) (r : Nat) (hk_s : Keeps s0 s) : Keeps s0 (State.resetRing s r) := by
  unfold State.resetRing
  (try dsimp only [State.fresh, State.freeVal])
  repeat' (first | with_reducible assumption | with_reducible apply State.setRing_keeps | with_reducible apply State.setRingStat_keeps | intro _ | (with_reducible refine Keeps.ite ?_ ?_) | split | (with_reducible refine Keeps.upd ?_ rfl rfl rfl ?_; rotate_left; (fail_if_success with_reducible exact Moved.refl _); exact Moved.any _ _) | dsimp only)

theorem State.mbAct_keeps {s0 : State} (s : State) (sv r : Nat) (body : List Byte) (hk_s : Keeps s0 s) : Keeps s0 (State.mbAct s sv r body).2 := by
  unfold State.mbAct
  (try dsimp only [State.fresh, State.freeVal])
  repeat' (first | with_reducible assumption | with_reducible apply State.setRingStat_keeps | with_reducible apply State.resetRing_keeps | intro _ | (with_reducible refine Keeps.ite ?_ ?_) | split | (with_reducible refine Keeps.snd ‹_› ?_) | (with_reducible refine Keeps.fst ‹_› ?_) | (with_reducible refine Keeps.upd ?_ rfl rfl rfl ?_; rotate_left; (fail_if_success with_reducible exact Moved.refl _); exact Moved.any _ _) | dsimp only)

theorem State.mbAnswer_keeps {s0 : State} (s : State) (m seq result : Nat) (body : List Byte) (hk_s : Keeps s0 s) : Keeps s0 (State.mbAnswer s m seq result body) := by
  unfold State.mbAnswer
  (try dsimp only [State.fresh, State.freeVal])
  repeat' (first | with_reducible assumption | with_reducible apply State.setRegN_keeps | with_reducible apply State.interrupt_keeps | with_reducible apply State.setMbBytes_keeps | intro _ | (with_reducible refine Keeps.ite ?_ ?_) | split | (with_reducible refine Keeps.upd ?_ rfl rfl rfl ?_; rotate_left; (fail_if_success with_reducible exact Moved.refl _); exact Moved.any _ _) | dsimp only)

theorem State.mbBell_keeps {s0 : State} (s : State) (m seq : Nat) (who : Master) (hk_s : Keeps s0 s) : Keeps s0 (State.mbBell s m seq who) := by
  unfold State.mbBell
  (try dsimp only [State.fresh, State.freeVal])
  repeat' (first | with_reducible assumption | with_reducible apply State.setRbit_keeps | with_reducible apply State.bump_keeps | with_reducible apply State.mbAct_keeps | with_reducible apply State.mbAnswer_keeps | intro _ | (with_reducible refine Keeps.ite ?_ ?_) | split | (with_reducible refine Keeps.snd ‹_› ?_) | (with_reducible refine Keeps.fst ‹_› ?_) | (with_reducible refine Keeps.upd ?_ rfl rfl rfl ?_; rotate_left; (fail_if_success with_reducible exact Moved.refl _); exact Moved.any _ _) | dsimp only)

theorem State.mbGuardAnswer_keeps {s0 : State} (s : State) (m : Nat) (body : List Byte) (hk_s : Keeps s0 s) : Keeps s0 (State.mbGuardAnswer s m body) := by
  unfold State.mbGuardAnswer
  (try dsimp only [State.fresh, State.freeVal])
  repeat' (first | with_reducible assumption | with_reducible apply State.mbAnswer_keeps | intro _ | (with_reducible refine Keeps.ite ?_ ?_) | split | (with_reducible refine Keeps.snd ‹_› ?_) | (with_reducible refine Keeps.fst ‹_› ?_) | (with_reducible refine Keeps.upd ?_ rfl rfl rfl ?_; rotate_left; (fail_if_success with_reducible exact Moved.refl _); exact Moved.any _ _) | dsimp only)

theorem State.mbService_keeps {s0 : State} (s : State) (m : Nat) (seq : BitVec 16) (who : Master) (is : Nat → Bool) (hk_s : Keeps s0 s) : KeepsRes s0 (State.mbService s m seq who is) := by
  unfold State.mbService
  (try dsimp only [State.fresh, State.freeVal])
  repeat' (first | with_reducible assumption | with_reducible apply live_keeps | with_reducible apply State.mbBell_keeps | intro _ | (with_reducible refine Keeps.ite ?_ ?_) | split | (with_reducible refine KeepsRes.next ?_) | (with_reducible refine Keeps.upd ?_ rfl rfl rfl ?_; rotate_left; (fail_if_success with_reducible exact Moved.refl _); exact Moved.any _ _) | dsimp only)

theorem execMbQuery_keeps {s0 : State} (m : Nat) (seq : BitVec 16) (master : Master) (s : State) (hk_s : Keeps s0 s) : KeepsRes s0 (execMbQuery m seq master s) := by
  unfold execMbQuery
  (try dsimp only [State.fresh, State.freeVal])
  repeat' (first | with_reducible assumption | with_reducible apply State.mbService_keeps | intro _ | (with_reducible refine Keeps.ite ?_ ?_) | split | (with_reducible refine KeepsRes.next ?_) | (with_reducible refine Keeps.upd ?_ rfl rfl rfl ?_; rotate_left; (fail_if_success with_reducible exact Moved.refl _); exact Moved.any _ _) | dsimp only)

theorem execMbPause_keeps {s0 : State} (m : Nat) (seq : BitVec 16) (master : Master) (s : State) (hk_s : Keeps s0 s) : KeepsRes s0 (execMbPause m seq master s) := by
  unfold execMbPause
  (try dsimp only [State.fresh, State.freeVal])
  repeat' (first | with_reducible assumption | with_reducible apply State.mbService_keeps | intro _ | (with_reducible refine Keeps.ite ?_ ?_) | split | (with_reducible refine KeepsRes.next ?_) | (with_reducible refine Keeps.upd ?_ rfl rfl rfl ?_; rotate_left; (fail_if_success with_reducible exact Moved.refl _); exact Moved.any _ _) | dsimp only)

theorem execMbResume_keeps {s0 : State} (m : Nat) (seq : BitVec 16) (master : Master) (s : State) (hk_s : Keeps s0 s) : KeepsRes s0 (execMbResume m seq master s) := by
  unfold execMbResume
  (try dsimp only [State.fresh, State.freeVal])
  repeat' (first | with_reducible assumption | with_reducible apply State.mbService_keeps | intro _ | (with_reducible refine Keeps.ite ?_ ?_) | split | (with_reducible refine KeepsRes.next ?_) | (with_reducible refine Keeps.upd ?_ rfl rfl rfl ?_; rotate_left; (fail_if_success with_reducible exact Moved.refl _); exact Moved.any _ _) | dsimp only)

theorem execMbReset_keeps {s0 : State} (m : Nat) (seq : BitVec 16) (master : Master) (s : State) (hk_s : Keeps s0 s) : KeepsRes s0 (execMbReset m seq master s) := by
  unfold execMbReset
  (try dsimp only [State.fresh, State.freeVal])
  repeat' (first | with_reducible assumption | with_reducible apply State.mbService_keeps | intro _ | (with_reducible refine Keeps.ite ?_ ?_) | split | (with_reducible refine KeepsRes.next ?_) | (with_reducible refine Keeps.upd ?_ rfl rfl rfl ?_; rotate_left; (fail_if_success with_reducible exact Moved.refl _); exact Moved.any _ _) | dsimp only)

theorem execMbEcho_keeps {s0 : State} (m : Nat) (seq : BitVec 16) (master : Master) (s : State) (hk_s : Keeps s0 s) : KeepsRes s0 (execMbEcho m seq master s) := by
  unfold execMbEcho
  (try dsimp only [State.fresh, State.freeVal])
  repeat' (first | with_reducible assumption | with_reducible apply State.mbService_keeps | intro _ | (with_reducible refine Keeps.ite ?_ ?_) | split | (with_reducible refine KeepsRes.next ?_) | (with_reducible refine Keeps.upd ?_ rfl rfl rfl ?_; rotate_left; (fail_if_success with_reducible exact Moved.refl _); exact Moved.any _ _) | dsimp only)

theorem execMbGuard_keeps {s0 : State} (m : Nat) (seq : BitVec 16) (master : Master) (s : State) (hk_s : Keeps s0 s) : KeepsRes s0 (execMbGuard m seq master s) := by
  unfold execMbGuard
  (try dsimp only [State.fresh, State.freeVal])
  repeat' (first | with_reducible assumption | with_reducible apply State.mbService_keeps | intro _ | (with_reducible refine Keeps.ite ?_ ?_) | split | (with_reducible refine KeepsRes.next ?_) | (with_reducible refine Keeps.upd ?_ rfl rfl rfl ?_; rotate_left; (fail_if_success with_reducible exact Moved.refl _); exact Moved.any _ _) | dsimp only)

theorem execUnknownService_keeps {s0 : State} (m : Nat) (seq : BitVec 16) (master : Master) (s : State) (hk_s : Keeps s0 s) : KeepsRes s0 (execUnknownService m seq master s) := by
  unfold execUnknownService
  (try dsimp only [State.fresh, State.freeVal])
  repeat' (first | with_reducible assumption | with_reducible apply State.mbService_keeps | intro _ | (with_reducible refine Keeps.ite ?_ ?_) | split | (with_reducible refine KeepsRes.next ?_) | (with_reducible refine Keeps.upd ?_ rfl rfl rfl ?_; rotate_left; (fail_if_success with_reducible exact Moved.refl _); exact Moved.any _ _) | dsimp only)

theorem execMbBellRejected_keeps {s0 : State} (m : Nat) (_seq : BitVec 16) (master : Master) (s : State) (hk_s : Keeps s0 s) : KeepsRes s0 (execMbBellRejected m _seq master s) := by
  unfold execMbBellRejected
  (try dsimp only [State.fresh, State.freeVal])
  repeat' (first | with_reducible assumption | with_reducible apply live_keeps | with_reducible apply State.setRbit_keeps | intro _ | (with_reducible refine Keeps.ite ?_ ?_) | split | (with_reducible refine KeepsRes.next ?_) | (with_reducible refine Keeps.upd ?_ rfl rfl rfl ?_; rotate_left; (fail_if_success with_reducible exact Moved.refl _); exact Moved.any _ _) | dsimp only)

end Sys2Proof.Machine
end

