-- ==== Sys2Proof/Laws/KeepsHost.lean ====
section
/-! SUPPORT. What the operations of Machine/Host.lean keep: the queue, the part and the invariant. -/

namespace Sys2Proof.Machine

theorem State.setTdi_keeps {s0 : State} (s : State) (fn v : Nat) (hk_s : Keeps s0 s) : Keeps s0 (State.setTdi s fn v) := by
  unfold State.setTdi
  (try dsimp only [State.fresh, State.freeVal])
  repeat' (first | with_reducible assumption | intro _ | (with_reducible refine Keeps.ite ?_ ?_) | split | (with_reducible refine Keeps.upd ?_ rfl rfl rfl ?_; rotate_left; (fail_if_success with_reducible exact Moved.refl _); exact Moved.any _ _) | dsimp only)

theorem State.lockedWrite_keeps {s0 : State} (s : State) (p : Nat) (hk_s : Keeps s0 s) : Keeps s0 (State.lockedWrite s p) := by
  unfold State.lockedWrite
  (try dsimp only [State.fresh, State.freeVal])
  repeat' (first | with_reducible assumption | with_reducible apply State.bump_keeps | with_reducible apply State.setTdi_keeps | intro _ | (with_reducible refine Keeps.ite ?_ ?_) | split | (with_reducible refine Keeps.upd ?_ rfl rfl rfl ?_; rotate_left; (fail_if_success with_reducible exact Moved.refl _); exact Moved.any _ _) | dsimp only)

theorem State.refuseBus_keeps {s0 : State} (s : State) (r : BusReq) (wr : Bool) (hk_s : Keeps s0 s) : Keeps s0 (State.refuseBus s r wr) := by
  unfold State.refuseBus
  (try dsimp only [State.fresh, State.freeVal])
  repeat' (first | with_reducible assumption | with_reducible apply State.emit_keeps | with_reducible apply State.barRefuse_keeps | intro _ | (with_reducible refine Keeps.ite ?_ ?_) | split | (with_reducible refine Keeps.upd ?_ rfl rfl rfl ?_; rotate_left; (fail_if_success with_reducible exact Moved.refl _); exact Moved.any _ _) | dsimp only)

theorem State.serveBus_keeps {s0 : State} (s : State) (r : BusReq) (wr : Bool) (hk_s : Keeps s0 s) : Keeps s0 (State.serveBus s r wr) := by
  unfold State.serveBus
  (try dsimp only [State.fresh, State.freeVal])
  repeat' (first | with_reducible assumption | with_reducible apply State.fresh_keeps | with_reducible apply State.emit_keeps | with_reducible apply State.write_keeps | with_reducible apply State.access_keeps | with_reducible apply Keeps.write | intro _ | (with_reducible refine Keeps.ite ?_ ?_) | split | (with_reducible refine Keeps.snd ‹_› ?_) | (with_reducible refine Keeps.fst ‹_› ?_) | (with_reducible refine Keeps.upd ?_ rfl rfl rfl ?_; rotate_left; (fail_if_success with_reducible exact Moved.refl _); exact Moved.any _ _) | dsimp only)

theorem State.peerBus_keeps {s0 : State} (s : State) (r : BusReq) (wr : Bool) (hk_s : Keeps s0 s) : Keeps s0 (State.peerBus s r wr) := by
  unfold State.peerBus
  (try dsimp only [State.fresh, State.freeVal])
  repeat' (first | with_reducible assumption | with_reducible apply State.bump_keeps | with_reducible apply State.emit_keeps | with_reducible apply State.refuseBus_keeps | with_reducible apply State.serveBus_keeps | intro _ | (with_reducible refine Keeps.ite ?_ ?_) | split | (with_reducible refine Keeps.upd ?_ rfl rfl rfl ?_; rotate_left; (fail_if_success with_reducible exact Moved.refl _); exact Moved.any _ _) | dsimp only)

theorem State.hostBus_keeps {s0 : State} (s : State) (r : BusReq) (wr : Bool) (hk_s : Keeps s0 s) : Keeps s0 (State.hostBus s r wr) := by
  unfold State.hostBus
  (try dsimp only [State.fresh, State.freeVal])
  repeat' (first | with_reducible assumption | with_reducible apply State.lockedWrite_keeps | with_reducible apply State.refuseBus_keeps | with_reducible apply State.serveBus_keeps | with_reducible apply Keeps.foldl | with_reducible apply Keeps.foldlFst | with_reducible apply Keeps.foldlSnd | intro _ | (with_reducible refine Keeps.ite ?_ ?_) | split | (with_reducible refine Keeps.snd ‹_› ?_) | (with_reducible refine Keeps.fst ‹_› ?_) | (with_reducible refine Keeps.upd ?_ rfl rfl rfl ?_; rotate_left; (fail_if_success with_reducible exact Moved.refl _); exact Moved.any _ _) | dsimp only)

theorem State.bus2_keeps {s0 : State} (s : State) (r : BusReq) (wr : Bool) (hk_s : Keeps s0 s) : Keeps s0 (State.bus2 s r wr) := by
  unfold State.bus2
  (try dsimp only [State.fresh, State.freeVal])
  repeat' (first | with_reducible assumption | with_reducible apply State.peerBus_keeps | with_reducible apply State.hostBus_keeps | intro _ | (with_reducible refine Keeps.ite ?_ ?_) | split | (with_reducible refine Keeps.upd ?_ rfl rfl rfl ?_; rotate_left; (fail_if_success with_reducible exact Moved.refl _); exact Moved.any _ _) | dsimp only)

theorem execBar2Read_keeps {s0 : State} (r : BusReq) (s : State) (hk_s : Keeps s0 s) : KeepsRes s0 (execBar2Read r s) := by
  unfold execBar2Read
  (try dsimp only [State.fresh, State.freeVal])
  repeat' (first | with_reducible assumption | with_reducible apply onDie_keeps | with_reducible apply State.bus2_keeps | intro _ | (with_reducible refine Keeps.ite ?_ ?_) | split | (with_reducible refine KeepsRes.next ?_) | (with_reducible refine Keeps.upd ?_ rfl rfl rfl ?_; rotate_left; (fail_if_success with_reducible exact Moved.refl _); exact Moved.any _ _) | dsimp only)

theorem execBar2Write_keeps {s0 : State} (r : BusReq) (s : State) (hk_s : Keeps s0 s) : KeepsRes s0 (execBar2Write r s) := by
  unfold execBar2Write
  (try dsimp only [State.fresh, State.freeVal])
  repeat' (first | with_reducible assumption | with_reducible apply onDie_keeps | with_reducible apply State.bus2_keeps | intro _ | (with_reducible refine Keeps.ite ?_ ?_) | split | (with_reducible refine KeepsRes.next ?_) | (with_reducible refine Keeps.upd ?_ rfl rfl rfl ?_; rotate_left; (fail_if_success with_reducible exact Moved.refl _); exact Moved.any _ _) | dsimp only)

theorem execPeerRequest_keeps {s0 : State} (r : BusReq) (isWrite : Bool) (s : State) (hk_s : Keeps s0 s) : KeepsRes s0 (execPeerRequest r isWrite s) := by
  unfold execPeerRequest
  (try dsimp only [State.fresh, State.freeVal])
  repeat' (first | with_reducible assumption | with_reducible apply onDie_keeps | with_reducible apply State.peerBus_keeps | intro _ | (with_reducible refine Keeps.ite ?_ ?_) | split | (with_reducible refine KeepsRes.next ?_) | (with_reducible refine Keeps.upd ?_ rfl rfl rfl ?_; rotate_left; (fail_if_success with_reducible exact Moved.refl _); exact Moved.any _ _) | dsimp only)

theorem State.setBias_keeps {s0 : State} (s : State) (n : Nat) (shared : Bool) (hk_s : Keeps s0 s) : Keeps s0 (State.setBias s n shared) := by
  unfold State.setBias
  (try dsimp only [State.fresh, State.freeVal])
  repeat' (first | with_reducible assumption | with_reducible apply State.write_keeps | with_reducible apply Keeps.write | intro _ | (with_reducible refine Keeps.ite ?_ ?_) | split | (with_reducible refine Keeps.upd ?_ rfl rfl rfl ?_; rotate_left; (fail_if_success with_reducible exact Moved.refl _); exact Moved.any _ _) | dsimp only)

theorem State.biasClear_keeps {s0 : State} (s : State) (hk_s : Keeps s0 s) : Keeps s0 (State.biasClear s) := by
  unfold State.biasClear
  (try dsimp only [State.fresh, State.freeVal])
  repeat' (first | with_reducible assumption | with_reducible apply State.setRbit_keeps | intro _ | (with_reducible refine Keeps.ite ?_ ?_) | split | (with_reducible refine Keeps.upd ?_ rfl rfl rfl ?_; rotate_left; (fail_if_success with_reducible exact Moved.refl _); exact Moved.any _ _) | dsimp only)

theorem State.biasEnd_keeps {s0 : State} (s : State) (hk_s : Keeps s0 s) : Keeps s0 (State.biasEnd s) := by
  unfold State.biasEnd
  (try dsimp only [State.fresh, State.freeVal])
  repeat' (first | with_reducible assumption | with_reducible apply State.setRbit_keeps | with_reducible apply State.biasClear_keeps | intro _ | (with_reducible refine Keeps.ite ?_ ?_) | split | (with_reducible refine Keeps.upd ?_ rfl rfl rfl ?_; rotate_left; (fail_if_success with_reducible exact Moved.refl _); exact Moved.any _ _) | dsimp only)

theorem State.flipAsk_keeps {s0 : State} (s : State) (n : Nat) (hk_s : Keeps s0 s) : Keeps s0 (State.flipAsk s n) := by
  unfold State.flipAsk
  (try dsimp only [State.fresh, State.freeVal])
  repeat' (first | with_reducible assumption | with_reducible apply State.askPage_keeps | intro _ | (with_reducible refine Keeps.ite ?_ ?_) | split | (with_reducible refine Keeps.upd ?_ rfl rfl rfl ?_; rotate_left; (fail_if_success with_reducible exact Moved.refl _); exact Moved.any _ _) | dsimp only)

theorem State.flipNext_keeps {s0 : State} (s : State) (f : Flip) (hk_s : Keeps s0 s) : Keeps s0 (State.flipNext s f) := by
  unfold State.flipNext
  (try dsimp only [State.fresh, State.freeVal])
  repeat' (first | with_reducible assumption | with_reducible apply State.biasEnd_keeps | with_reducible apply State.flipAsk_keeps | intro _ | (with_reducible refine Keeps.ite ?_ ?_) | split | (with_reducible refine Keeps.upd ?_ rfl rfl rfl ?_; rotate_left; (fail_if_success with_reducible exact Moved.refl _); exact Moved.any _ _) | dsimp only)

theorem State.flipTouched_keeps {s0 : State} (s : State) (n : Nat) (hk_s : Keeps s0 s) : Keeps s0 (State.flipTouched s n) := by
  unfold State.flipTouched
  (try dsimp only [State.fresh, State.freeVal])
  repeat' (first | with_reducible assumption | with_reducible apply State.setRbit_keeps | with_reducible apply State.bump_keeps | with_reducible apply State.flipAsk_keeps | with_reducible apply State.flipNext_keeps | intro _ | (with_reducible refine Keeps.ite ?_ ?_) | split | (with_reducible refine Keeps.snd ‹_› ?_) | (with_reducible refine Keeps.fst ‹_› ?_) | (with_reducible refine Keeps.upd ?_ rfl rfl rfl ?_; rotate_left; (fail_if_success with_reducible exact Moved.refl _); exact Moved.any _ _) | dsimp only)

theorem State.memTouch_keeps {s0 : State} (s : State) (n : Nat) (hk_s : Keeps s0 s) : Keeps s0 (State.memTouch s n) := by
  unfold State.memTouch
  (try dsimp only [State.fresh, State.freeVal])
  repeat' (first | with_reducible assumption | with_reducible apply State.bump_keeps | with_reducible apply State.setBias_keeps | with_reducible apply State.flipTouched_keeps | intro _ | (with_reducible refine Keeps.ite ?_ ?_) | split | (with_reducible refine Keeps.upd ?_ rfl rfl rfl ?_; rotate_left; (fail_if_success with_reducible exact Moved.refl _); exact Moved.any _ _) | dsimp only)

theorem State.memPoison_keeps {s0 : State} (s : State) (dpa : Nat) (hk_s : Keeps s0 s) : Keeps s0 (State.memPoison s dpa) := by
  unfold State.memPoison
  (try dsimp only [State.fresh, State.freeVal])
  repeat' (first | with_reducible assumption | with_reducible apply State.fresh_keeps | with_reducible apply State.emit_keeps | with_reducible apply State.barRefuse_keeps | intro _ | (with_reducible refine Keeps.ite ?_ ?_) | split | (with_reducible refine Keeps.snd ‹_› ?_) | (with_reducible refine Keeps.fst ‹_› ?_) | (with_reducible refine Keeps.upd ?_ rfl rfl rfl ?_; rotate_left; (fail_if_success with_reducible exact Moved.refl _); exact Moved.any _ _) | dsimp only)

theorem State.memRead_keeps {s0 : State} (s : State) (dpa : Nat) (hk_s : Keeps s0 s) : Keeps s0 (State.memRead s dpa) := by
  unfold State.memRead
  (try dsimp only [State.fresh, State.freeVal])
  repeat' (first | with_reducible assumption | with_reducible apply State.fresh_keeps | with_reducible apply State.emit_keeps | with_reducible apply State.access_keeps | with_reducible apply State.memTouch_keeps | with_reducible apply State.memPoison_keeps | intro _ | (with_reducible refine Keeps.ite ?_ ?_) | split | (with_reducible refine Keeps.snd ‹_› ?_) | (with_reducible refine Keeps.fst ‹_› ?_) | (with_reducible refine Keeps.upd ?_ rfl rfl rfl ?_; rotate_left; (fail_if_success with_reducible exact Moved.refl _); exact Moved.any _ _) | dsimp only)

theorem execCxlMemRead_keeps {s0 : State} (dpa : Nat) (s : State) (hk_s : Keeps s0 s) : KeepsRes s0 (execCxlMemRead dpa s) := by
  unfold execCxlMemRead
  (try dsimp only [State.fresh, State.freeVal])
  repeat' (first | with_reducible assumption | with_reducible apply onDie_keeps | with_reducible apply State.memRead_keeps | intro _ | (with_reducible refine Keeps.ite ?_ ?_) | split | (with_reducible refine KeepsRes.next ?_) | (with_reducible refine Keeps.upd ?_ rfl rfl rfl ?_; rotate_left; (fail_if_success with_reducible exact Moved.refl _); exact Moved.any _ _) | dsimp only)

theorem State.memWrite_keeps {s0 : State} (s : State) (dpa : Nat) (data : List Byte) (hk_s : Keeps s0 s) : Keeps s0 (State.memWrite s dpa data) := by
  unfold State.memWrite
  (try dsimp only [State.fresh, State.freeVal])
  repeat' (first | with_reducible assumption | with_reducible apply State.write_keeps | with_reducible apply State.access_keeps | with_reducible apply State.barRefuse_keeps | with_reducible apply State.memTouch_keeps | with_reducible apply Keeps.write | intro _ | (with_reducible refine Keeps.ite ?_ ?_) | split | (with_reducible refine Keeps.upd ?_ rfl rfl rfl ?_; rotate_left; (fail_if_success with_reducible exact Moved.refl _); exact Moved.any _ _) | dsimp only)

theorem execCxlMemWrite_keeps {s0 : State} (dpa : Nat) (data : List Byte) (s : State) (hk_s : Keeps s0 s) : KeepsRes s0 (execCxlMemWrite dpa data s) := by
  unfold execCxlMemWrite
  (try dsimp only [State.fresh, State.freeVal])
  repeat' (first | with_reducible assumption | with_reducible apply onDie_keeps | with_reducible apply State.memWrite_keeps | intro _ | (with_reducible refine Keeps.ite ?_ ?_) | split | (with_reducible refine KeepsRes.next ?_) | (with_reducible refine Keeps.upd ?_ rfl rfl rfl ?_; rotate_left; (fail_if_success with_reducible exact Moved.refl _); exact Moved.any _ _) | dsimp only)

theorem State.cacheIn_keeps {s0 : State} (s : State) (page : Nat) (data : Option (List Byte)) (hk_s : Keeps s0 s) : Keeps s0 (State.cacheIn s page data) := by
  unfold State.cacheIn
  (try dsimp only [State.fresh, State.freeVal])
  repeat' (first | with_reducible assumption | with_reducible apply State.bump_keeps | with_reducible apply State.write_keeps | with_reducible apply State.setBias_keeps | with_reducible apply State.flipNext_keeps | with_reducible apply Keeps.write | intro _ | (with_reducible refine Keeps.ite ?_ ?_) | split | (with_reducible refine Keeps.snd ‹_› ?_) | (with_reducible refine Keeps.fst ‹_› ?_) | (with_reducible refine Keeps.upd ?_ rfl rfl rfl ?_; rotate_left; (fail_if_success with_reducible exact Moved.refl _); exact Moved.any _ _) | dsimp only)

theorem execCacheAnswer_keeps {s0 : State} (page : Nat) (data : Option (List Byte)) (s : State) (hk_s : Keeps s0 s) : KeepsRes s0 (execCacheAnswer page data s) := by
  unfold execCacheAnswer
  (try dsimp only [State.fresh, State.freeVal])
  repeat' (first | with_reducible assumption | with_reducible apply onDie_keeps | with_reducible apply State.cacheIn_keeps | intro _ | (with_reducible refine Keeps.ite ?_ ?_) | split | (with_reducible refine KeepsRes.next ?_) | (with_reducible refine Keeps.upd ?_ rfl rfl rfl ?_; rotate_left; (fail_if_success with_reducible exact Moved.refl _); exact Moved.any _ _) | dsimp only)

theorem State.biasCmd_keeps {s0 : State} (s : State) (toDevice : Bool) (hk_s : Keeps s0 s) : Keeps s0 (State.biasCmd s toDevice) := by
  unfold State.biasCmd
  (try dsimp only [State.fresh, State.freeVal])
  repeat' (first | with_reducible assumption | with_reducible apply State.setRbit_keeps | with_reducible apply State.setBias_keeps | with_reducible apply State.flipAsk_keeps | with_reducible apply Keeps.foldl | with_reducible apply Keeps.foldlFst | with_reducible apply Keeps.foldlSnd | intro _ | (with_reducible refine Keeps.ite ?_ ?_) | split | (with_reducible refine Keeps.upd ?_ rfl rfl rfl ?_; rotate_left; (fail_if_success with_reducible exact Moved.refl _); exact Moved.any _ _) | dsimp only)

theorem execBiasToShared_keeps {s0 : State} (s : State) (hk_s : Keeps s0 s) : KeepsRes s0 (execBiasToShared s) := by
  unfold execBiasToShared
  (try dsimp only [State.fresh, State.freeVal])
  repeat' (first | with_reducible assumption | with_reducible apply onDie_keeps | with_reducible apply State.biasCmd_keeps | intro _ | (with_reducible refine Keeps.ite ?_ ?_) | split | (with_reducible refine KeepsRes.next ?_) | (with_reducible refine Keeps.upd ?_ rfl rfl rfl ?_; rotate_left; (fail_if_success with_reducible exact Moved.refl _); exact Moved.any _ _) | dsimp only)

theorem execBiasToDevice_keeps {s0 : State} (s : State) (hk_s : Keeps s0 s) : KeepsRes s0 (execBiasToDevice s) := by
  unfold execBiasToDevice
  (try dsimp only [State.fresh, State.freeVal])
  repeat' (first | with_reducible assumption | with_reducible apply onDie_keeps | with_reducible apply State.biasCmd_keeps | intro _ | (with_reducible refine Keeps.ite ?_ ?_) | split | (with_reducible refine KeepsRes.next ?_) | (with_reducible refine Keeps.upd ?_ rfl rfl rfl ?_; rotate_left; (fail_if_success with_reducible exact Moved.refl _); exact Moved.any _ _) | dsimp only)

theorem State.biasStart_keeps {s0 : State} (s : State) (h : Keeps s0 s) : Keeps s0 s.biasStart := by
  unfold State.biasStart
  refine Keeps.ite h ?_
  apply State.setRbit_keeps
  apply State.setRbit_keeps
  refine Keeps.drop h _ rfl rfl rfl (fun c hc => ?_) rfl rfl rfl
  have hc : (decide (s.regAddr 0 Reg.hstBiasBaseLo ≤ c.1) && decide (c.1 < s.regAddr 0 Reg.hstBiasBaseLo + s.hbmPages / 8)) = false :=
    Bool.not_eq_true' _ |>.mp hc
  unfold State.dflt State.wipedAt
  dsimp only
  by_cases he : s.wiped.isEmpty = true
  · have : s.wiped = [] := by simpa using he
    simp only [this, List.isEmpty_nil, if_true, List.find?]
  · simp only [if_neg he, List.find?]
    rw [hc]

theorem execBiasEnable_keeps {s0 : State} (s : State) (hk_s : Keeps s0 s) : KeepsRes s0 (execBiasEnable s) := by
  unfold execBiasEnable
  (try dsimp only [State.fresh, State.freeVal])
  repeat' (first | with_reducible assumption | with_reducible apply onDie_keeps | with_reducible apply State.biasStart_keeps | intro _ | (with_reducible refine Keeps.ite ?_ ?_) | split | (with_reducible refine KeepsRes.next ?_) | (with_reducible refine Keeps.upd ?_ rfl rfl rfl ?_; rotate_left; (fail_if_success with_reducible exact Moved.refl _); exact Moved.any _ _) | dsimp only)

theorem State.biasStop_keeps {s0 : State} (s : State) (hk_s : Keeps s0 s) : Keeps s0 (State.biasStop s) := by
  unfold State.biasStop
  (try dsimp only [State.fresh, State.freeVal])
  repeat' (first | with_reducible assumption | with_reducible apply State.biasClear_keeps | intro _ | (with_reducible refine Keeps.ite ?_ ?_) | split | (with_reducible refine Keeps.upd ?_ rfl rfl rfl ?_; rotate_left; (fail_if_success with_reducible exact Moved.refl _); exact Moved.any _ _) | dsimp only)

theorem State.sendPending_keeps {s0 : State} (s : State) (fn : Nat) (hk_s : Keeps s0 s) : Keeps s0 (State.sendPending s fn) := by
  unfold State.sendPending
  (try dsimp only [State.fresh, State.freeVal])
  repeat' (first | with_reducible assumption | with_reducible apply State.sendVector_keeps | with_reducible apply Keeps.foldl | with_reducible apply Keeps.foldlFst | with_reducible apply Keeps.foldlSnd | intro _ | (with_reducible refine Keeps.ite ?_ ?_) | split | (with_reducible refine Keeps.upd ?_ rfl rfl rfl ?_; rotate_left; (fail_if_success with_reducible exact Moved.refl _); exact Moved.any _ _) | dsimp only)

theorem State.cfgServe_keeps {s0 : State} (s : State) (fn off : Nat) (wr : Option W32) (hk_s : Keeps s0 s) : Keeps s0 (State.cfgServe s fn off wr) := by
  unfold State.cfgServe
  (try dsimp only [State.fresh, State.freeVal])
  repeat' (first | with_reducible assumption | with_reducible apply State.emit_keeps | with_reducible apply State.land_keeps | with_reducible apply State.sendPending_keeps | intro _ | (with_reducible refine Keeps.ite ?_ ?_) | split | (with_reducible refine Keeps.snd ‹_› ?_) | (with_reducible refine Keeps.fst ‹_› ?_) | (with_reducible refine Keeps.upd ?_ rfl rfl rfl ?_; rotate_left; (fail_if_success with_reducible exact Moved.refl _); exact Moved.any _ _) | dsimp only)

theorem execConfigRequest_keeps {s0 : State} (fn off : Nat) (wr : Option W32) (s : State) (hk_s : Keeps s0 s) : KeepsRes s0 (execConfigRequest fn off wr s) := by
  unfold execConfigRequest
  (try dsimp only [State.fresh, State.freeVal])
  repeat' (first | with_reducible assumption | with_reducible apply onDie_keeps | with_reducible apply State.emit_keeps | with_reducible apply State.cfgServe_keeps | intro _ | (with_reducible refine Keeps.ite ?_ ?_) | split | (with_reducible refine KeepsRes.next ?_) | (with_reducible refine Keeps.upd ?_ rfl rfl rfl ?_; rotate_left; (fail_if_success with_reducible exact Moved.refl _); exact Moved.any _ _) | dsimp only)

theorem execHostLinkTrain_keeps {s0 : State} (s : State) (hk_s : Keeps s0 s) : KeepsRes s0 (execHostLinkTrain s) := by
  unfold execHostLinkTrain
  (try dsimp only [State.fresh, State.freeVal])
  repeat' (first | with_reducible assumption | with_reducible apply onDie_keeps | intro _ | (with_reducible refine Keeps.ite ?_ ?_) | split | (with_reducible refine KeepsRes.next ?_) | (with_reducible refine Keeps.upd ?_ rfl rfl rfl ?_; rotate_left; (fail_if_success with_reducible exact Moved.refl _); exact Moved.any _ _) | dsimp only)

theorem execHostLinkUp_keeps {s0 : State} (rate width : Nat) (flit memEn cacheEn : Bool) (s : State) (hk_s : Keeps s0 s) : KeepsRes s0 (execHostLinkUp rate width flit memEn cacheEn s) := by
  unfold execHostLinkUp
  (try dsimp only [State.fresh, State.freeVal])
  repeat' (first | with_reducible assumption | with_reducible apply onDie_keeps | with_reducible apply State.setRf_keeps | intro _ | (with_reducible refine Keeps.ite ?_ ?_) | split | (with_reducible refine KeepsRes.next ?_) | (with_reducible refine Keeps.upd ?_ rfl rfl rfl ?_; rotate_left; (fail_if_success with_reducible exact Moved.refl _); exact Moved.any _ _) | dsimp only)

theorem State.hostDown_keeps {s0 : State} (s : State) (hk_s : Keeps s0 s) : Keeps s0 (State.hostDown s) := by
  unfold State.hostDown
  (try dsimp only [State.fresh, State.freeVal])
  repeat' (first | with_reducible assumption | with_reducible apply State.setRf_keeps | intro _ | (with_reducible refine Keeps.ite ?_ ?_) | split | (with_reducible refine Keeps.upd ?_ rfl rfl rfl ?_; rotate_left; (fail_if_success with_reducible exact Moved.refl _); exact Moved.any _ _) | dsimp only)

theorem execHostLinkDown_keeps {s0 : State} (s : State) (hk_s : Keeps s0 s) : KeepsRes s0 (execHostLinkDown s) := by
  unfold execHostLinkDown
  (try dsimp only [State.fresh, State.freeVal])
  repeat' (first | with_reducible assumption | with_reducible apply onDie_keeps | with_reducible apply State.hostDown_keeps | intro _ | (with_reducible refine Keeps.ite ?_ ?_) | split | (with_reducible refine KeepsRes.next ?_) | (with_reducible refine Keeps.upd ?_ rfl rfl rfl ?_; rotate_left; (fail_if_success with_reducible exact Moved.refl _); exact Moved.any _ _) | dsimp only)

end Sys2Proof.Machine
end

