-- ==== Sys2Proof/Laws/KeepsRas.lean ====
section
/-! SUPPORT. What the operations of Machine/Ras.lean keep: the queue, the part and the invariant. -/

namespace Sys2Proof.Machine

theorem State.foundBad_keeps {s0 : State} (s : State) (line : Nat) (demand : Bool) (hk_s : Keeps s0 s) : Keeps s0 (State.foundBad s line demand) := by
  unfold State.foundBad
  (try dsimp only [State.fresh, State.freeVal])
  repeat' (first | with_reducible assumption | with_reducible apply State.setRbit_keeps | with_reducible apply State.markLine_keeps | with_reducible apply State.bumpErr_keeps | intro _ | (with_reducible refine Keeps.ite ?_ ?_) | split | (with_reducible refine Keeps.upd ?_ rfl rfl rfl ?_; rotate_left; (fail_if_success with_reducible exact Moved.refl _); exact Moved.any _ _) | dsimp only)

theorem execPoisonFound_keeps {s0 : State} (line : Nat) (demand : Bool) (s : State) (hk_s : Keeps s0 s) : KeepsRes s0 (execPoisonFound line demand s) := by
  unfold execPoisonFound
  (try dsimp only [State.fresh, State.freeVal])
  repeat' (first | with_reducible assumption | with_reducible apply onDie_keeps | with_reducible apply State.foundBad_keeps | intro _ | (with_reducible refine Keeps.ite ?_ ?_) | split | (with_reducible refine KeepsRes.next ?_) | (with_reducible refine Keeps.upd ?_ rfl rfl rfl ?_; rotate_left; (fail_if_success with_reducible exact Moved.refl _); exact Moved.any _ _) | dsimp only)

theorem State.scrubStep_keeps {s0 : State} (s : State) (d : Nat) (ts : Bool) (hk_s : Keeps s0 s) : Keeps s0 (State.scrubStep s d ts) := by
  unfold State.scrubStep
  (try dsimp only [State.fresh, State.freeVal])
  repeat' (first | with_reducible assumption | with_reducible apply State.setRf_keeps | intro _ | (with_reducible refine Keeps.ite ?_ ?_) | split | (with_reducible refine Keeps.upd ?_ rfl rfl rfl ?_; rotate_left; (fail_if_success with_reducible exact Moved.refl _); exact Moved.any _ _) | dsimp only)

theorem execScrubRead_keeps {s0 : State} (d : Nat) (ts : Bool) (corrected : Nat) (uncorrectable : Bool) (s : State) (hk_s : Keeps s0 s) : KeepsRes s0 (execScrubRead d ts corrected uncorrectable s) := by
  unfold execScrubRead
  (try dsimp only [State.fresh, State.freeVal])
  repeat' (first | with_reducible assumption | with_reducible apply onDie_keeps | with_reducible apply State.bump_keeps | with_reducible apply State.access_keeps | with_reducible apply State.foundBad_keeps | with_reducible apply State.scrubStep_keeps | intro _ | (with_reducible refine Keeps.ite ?_ ?_) | split | (with_reducible refine KeepsRes.next ?_) | (with_reducible refine Keeps.upd ?_ rfl rfl rfl ?_; rotate_left; (fail_if_success with_reducible exact Moved.refl _); exact Moved.any _ _) | dsimp only)

theorem State.refetchFor_keeps {s0 : State} (s : State) (d obj a : Nat) (hk_s : Keeps s0 s) : Keeps s0 (State.refetchFor s d obj a).2 := by
  unfold State.refetchFor
  (try dsimp only [State.fresh, State.freeVal])
  repeat' (first | with_reducible assumption | with_reducible apply State.setRbit_keeps | with_reducible apply State.bump_keeps | intro _ | (with_reducible refine Keeps.ite ?_ ?_) | split | (with_reducible refine Keeps.upd ?_ rfl rfl rfl ?_; rotate_left; (fail_if_success with_reducible exact Moved.refl _); exact Moved.any _ _) | dsimp only)

theorem State.reportOwner_keeps {s0 : State} (s : State) (d a src obj : Nat) (hk_s : Keeps s0 s) : Keeps s0 (State.reportOwner s d a src obj) := by
  unfold State.reportOwner
  (try dsimp only [State.fresh, State.freeVal])
  repeat' (first | with_reducible assumption | with_reducible apply State.event_keeps | with_reducible apply State.releaseKept_keeps | with_reducible apply State.rasLogAdd_keeps | with_reducible apply State.refetchFor_keeps | intro _ | (with_reducible refine Keeps.ite ?_ ?_) | split | (with_reducible refine Keeps.snd ‹_› ?_) | (with_reducible refine Keeps.fst ‹_› ?_) | (with_reducible refine Keeps.upd ?_ rfl rfl rfl ?_; rotate_left; (fail_if_success with_reducible exact Moved.refl _); exact Moved.any _ _) | dsimp only)

theorem execOwnerSearch_keeps {s0 : State} (d : Nat) (s : State) (hk_s : Keeps s0 s) : KeepsRes s0 (execOwnerSearch d s) := by
  unfold execOwnerSearch
  (try dsimp only [State.fresh, State.freeVal])
  repeat' (first | with_reducible assumption | with_reducible apply onDie_keeps | with_reducible apply State.setRbit_keeps | with_reducible apply State.eventAll_keeps | with_reducible apply State.rasLogAdd_keeps | with_reducible apply State.reportOwner_keeps | with_reducible apply Keeps.foldl | with_reducible apply Keeps.foldlFst | with_reducible apply Keeps.foldlSnd | intro _ | (with_reducible refine Keeps.ite ?_ ?_) | split | (with_reducible refine Keeps.snd ‹_› ?_) | (with_reducible refine Keeps.fst ‹_› ?_) | (with_reducible refine KeepsRes.next ?_) | (with_reducible refine Keeps.upd ?_ rfl rfl rfl ?_; rotate_left; (fail_if_success with_reducible exact Moved.refl _); exact Moved.any _ _) | dsimp only)

theorem State.meshNote_keeps {s0 : State} (s : State) (hk_s : Keeps s0 s) : Keeps s0 (State.meshNote s) := by
  unfold State.meshNote
  (try dsimp only [State.fresh, State.freeVal])
  repeat' (first | with_reducible assumption | intro _ | (with_reducible refine Keeps.ite ?_ ?_) | split | (with_reducible refine Keeps.upd ?_ rfl rfl rfl ?_; rotate_left; (fail_if_success with_reducible exact Moved.refl _); exact Moved.any _ _) | dsimp only)

theorem State.meshApply_keeps {s0 : State} (s : State) (d : Nat) (hk_s : Keeps s0 s) : Keeps s0 (State.meshApply s d) := by
  unfold State.meshApply
  (try dsimp only [State.fresh, State.freeVal])
  repeat' (first | with_reducible assumption | with_reducible apply State.setRegN_keeps | with_reducible apply State.setRf_keeps | with_reducible apply State.degrade_keeps | with_reducible apply Keeps.foldl | with_reducible apply Keeps.foldlFst | with_reducible apply Keeps.foldlSnd | intro _ | (with_reducible refine Keeps.ite ?_ ?_) | split | (with_reducible refine Keeps.snd ‹_› ?_) | (with_reducible refine Keeps.fst ‹_› ?_) | (with_reducible refine Keeps.upd ?_ rfl rfl rfl ?_; rotate_left; (fail_if_success with_reducible exact Moved.refl _); exact Moved.any _ _) | dsimp only)

theorem execMeshChange_keeps {s0 : State} (s : State) (hk_s : Keeps s0 s) : KeepsRes s0 (execMeshChange s) := by
  unfold execMeshChange
  (try dsimp only [State.fresh, State.freeVal])
  repeat' (first | with_reducible assumption | with_reducible apply live_keeps | with_reducible apply State.loseUnreached_keeps | with_reducible apply State.meshApply_keeps | with_reducible apply Keeps.foldl | with_reducible apply Keeps.foldlFst | with_reducible apply Keeps.foldlSnd | intro _ | (with_reducible refine Keeps.ite ?_ ?_) | split | (with_reducible refine Keeps.snd ‹_› ?_) | (with_reducible refine Keeps.fst ‹_› ?_) | (with_reducible refine KeepsRes.next ?_) | (with_reducible refine Keeps.upd ?_ rfl rfl rfl ?_; rotate_left; (fail_if_success with_reducible exact Moved.refl _); exact Moved.any _ _) | dsimp only)

theorem execMeshChangeAck_keeps {s0 : State} (d : Nat) (s : State) (hk_s : Keeps s0 s) : KeepsRes s0 (execMeshChangeAck d s) := by
  unfold execMeshChangeAck
  (try dsimp only [State.fresh, State.freeVal])
  repeat' (first | with_reducible assumption | with_reducible apply onDie_keeps | intro _ | (with_reducible refine Keeps.ite ?_ ?_) | split | (with_reducible refine KeepsRes.next ?_) | (with_reducible refine Keeps.upd ?_ rfl rfl rfl ?_; rotate_left; (fail_if_success with_reducible exact Moved.refl _); exact Moved.any _ _) | dsimp only)

theorem State.unitEvent_keeps {s0 : State} (s : State) (d u code : Nat) (payload : List Byte) (hk_s : Keeps s0 s) : Keeps s0 (State.unitEvent s d u code payload) := by
  unfold State.unitEvent
  (try dsimp only [State.fresh, State.freeVal])
  repeat' (first | with_reducible assumption | with_reducible apply State.event_keeps | with_reducible apply State.eventAll_keeps | intro _ | (with_reducible refine Keeps.ite ?_ ?_) | split | (with_reducible refine Keeps.snd ‹_› ?_) | (with_reducible refine Keeps.fst ‹_› ?_) | (with_reducible refine Keeps.upd ?_ rfl rfl rfl ?_; rotate_left; (fail_if_success with_reducible exact Moved.refl _); exact Moved.any _ _) | dsimp only)

theorem State.fencedBit_keeps {s0 : State} (s : State) (d u : Nat) (b : Bool) (hk_s : Keeps s0 s) : Keeps s0 (State.fencedBit s d u b) := by
  unfold State.fencedBit
  (try dsimp only [State.fresh, State.freeVal])
  repeat' (first | with_reducible assumption | with_reducible apply State.setRbit_keeps | intro _ | (with_reducible refine Keeps.ite ?_ ?_) | split | (with_reducible refine Keeps.upd ?_ rfl rfl rfl ?_; rotate_left; (fail_if_success with_reducible exact Moved.refl _); exact Moved.any _ _) | dsimp only)

theorem State.fenceMark_keeps {s0 : State} (s : State) (d u cause : Nat) (hk_s : Keeps s0 s) : Keeps s0 (State.fenceMark s d u cause) := by
  unfold State.fenceMark
  (try dsimp only [State.fresh, State.freeVal])
  repeat' (first | with_reducible assumption | with_reducible apply State.setRegN_keeps | with_reducible apply State.setRbit_keeps | with_reducible apply State.bump_keeps | with_reducible apply State.unitEvent_keeps | with_reducible apply State.fencedBit_keeps | intro _ | (with_reducible refine Keeps.ite ?_ ?_) | split | (with_reducible refine Keeps.upd ?_ rfl rfl rfl ?_; rotate_left; (fail_if_success with_reducible exact Moved.refl _); exact Moved.any _ _) | dsimp only)

theorem State.rePass_keeps {s0 : State} (s : State) (w : Work) (v : Nat) (hk_s : Keeps s0 s) : Keeps s0 (State.rePass s w v) := by
  unfold State.rePass
  (try dsimp only [State.fresh, State.freeVal])
  repeat' (first | with_reducible assumption | with_reducible apply State.modWork_keeps | with_reducible apply State.setEng_keeps | intro _ | (with_reducible refine Keeps.ite ?_ ?_) | split | (with_reducible refine Keeps.snd ‹_› ?_) | (with_reducible refine Keeps.fst ‹_› ?_) | (with_reducible refine Keeps.upd ?_ rfl rfl rfl ?_; rotate_left; (fail_if_success with_reducible exact Moved.refl _); exact Moved.any _ _) | dsimp only)

theorem State.restartOne_keeps {s0 : State} (s : State) (d u : Nat) (w : Work) (hk_s : Keeps s0 s) : Keeps s0 (State.restartOne s d u w) := by
  unfold State.restartOne
  (try dsimp only [State.fresh, State.freeVal])
  repeat' (first | with_reducible assumption | with_reducible apply State.modWork_keeps | with_reducible apply State.endStatus_keeps | with_reducible apply State.rePass_keeps | intro _ | (with_reducible refine Keeps.ite ?_ ?_) | split | (with_reducible refine Keeps.snd ‹_› ?_) | (with_reducible refine Keeps.fst ‹_› ?_) | (with_reducible refine Keeps.upd ?_ rfl rfl rfl ?_; rotate_left; (fail_if_success with_reducible exact Moved.refl _); exact Moved.any _ _) | dsimp only)

theorem State.restartUnit_keeps {s0 : State} (s : State) (d u : Nat) (hk_s : Keeps s0 s) : Keeps s0 (State.restartUnit s d u) := by
  unfold State.restartUnit
  (try dsimp only [State.fresh, State.freeVal])
  repeat' (first | with_reducible assumption | with_reducible apply State.setEng_keeps | with_reducible apply State.restartOne_keeps | with_reducible apply Keeps.foldl | with_reducible apply Keeps.foldlFst | with_reducible apply Keeps.foldlSnd | intro _ | (with_reducible refine Keeps.ite ?_ ?_) | split | (with_reducible refine Keeps.upd ?_ rfl rfl rfl ?_; rotate_left; (fail_if_success with_reducible exact Moved.refl _); exact Moved.any _ _) | dsimp only)

theorem State.lastOfKind_keeps {s0 : State} (s : State) (d u : Nat) (hk_s : Keeps s0 s) : Keeps s0 (State.lastOfKind s d u) := by
  unfold State.lastOfKind
  (try dsimp only [State.fresh, State.freeVal])
  repeat' (first | with_reducible assumption | with_reducible apply State.degrade_keeps | intro _ | (with_reducible refine Keeps.ite ?_ ?_) | split | (with_reducible refine Keeps.snd ‹_› ?_) | (with_reducible refine Keeps.fst ‹_› ?_) | (with_reducible refine Keeps.upd ?_ rfl rfl rfl ?_; rotate_left; (fail_if_success with_reducible exact Moved.refl _); exact Moved.any _ _) | dsimp only)

theorem State.linkBits_keeps {s0 : State} (s : State) (d k : Nat) (up retraining : Bool) (hk_s : Keeps s0 s) : Keeps s0 (State.linkBits s d k up retraining) := by
  unfold State.linkBits
  (try dsimp only [State.fresh, State.freeVal])
  repeat' (first | with_reducible assumption | with_reducible apply State.setRbit_keeps | intro _ | (with_reducible refine Keeps.ite ?_ ?_) | split | (with_reducible refine Keeps.upd ?_ rfl rfl rfl ?_; rotate_left; (fail_if_success with_reducible exact Moved.refl _); exact Moved.any _ _) | dsimp only)

theorem State.linkBoth_keeps {s0 : State} (s : State) (d k : Nat) (up retraining : Bool) (hk_s : Keeps s0 s) : Keeps s0 (State.linkBoth s d k up retraining) := by
  unfold State.linkBoth
  (try dsimp only [State.fresh, State.freeVal])
  repeat' (first | with_reducible assumption | with_reducible apply State.linkBits_keeps | intro _ | (with_reducible refine Keeps.ite ?_ ?_) | split | (with_reducible refine Keeps.snd ‹_› ?_) | (with_reducible refine Keeps.fst ‹_› ?_) | (with_reducible refine Keeps.upd ?_ rfl rfl rfl ?_; rotate_left; (fail_if_success with_reducible exact Moved.refl _); exact Moved.any _ _) | dsimp only)

theorem State.countRetrain_keeps {s0 : State} (s : State) (d k : Nat) (hk_s : Keeps s0 s) : Keeps s0 (State.countRetrain s d k) := by
  unfold State.countRetrain
  (try dsimp only [State.fresh, State.freeVal])
  repeat' (first | with_reducible assumption | with_reducible apply State.setRf_keeps | with_reducible apply State.bump_keeps | intro _ | (with_reducible refine Keeps.ite ?_ ?_) | split | (with_reducible refine Keeps.upd ?_ rfl rfl rfl ?_; rotate_left; (fail_if_success with_reducible exact Moved.refl _); exact Moved.any _ _) | dsimp only)

theorem State.linkRetrain_keeps {s0 : State} (s : State) (d k : Nat) (hk_s : Keeps s0 s) : Keeps s0 (State.linkRetrain s d k) := by
  unfold State.linkRetrain
  (try dsimp only [State.fresh, State.freeVal])
  repeat' (first | with_reducible assumption | with_reducible apply State.meshNote_keeps | with_reducible apply State.linkBoth_keeps | with_reducible apply State.countRetrain_keeps | intro _ | (with_reducible refine Keeps.ite ?_ ?_) | split | (with_reducible refine Keeps.snd ‹_› ?_) | (with_reducible refine Keeps.fst ‹_› ?_) | (with_reducible refine Keeps.upd ?_ rfl rfl rfl ?_; rotate_left; (fail_if_success with_reducible exact Moved.refl _); exact Moved.any _ _) | dsimp only)

theorem State.d2dCmdWrite_keeps {s0 : State} (s : State) (d v : Nat) (hk_s : Keeps s0 s) : Keeps s0 (State.d2dCmdWrite s d v) := by
  unfold State.d2dCmdWrite
  (try dsimp only [State.fresh, State.freeVal])
  repeat' (first | with_reducible assumption | with_reducible apply State.linkRetrain_keeps | with_reducible apply Keeps.foldl | with_reducible apply Keeps.foldlFst | with_reducible apply Keeps.foldlSnd | intro _ | (with_reducible refine Keeps.ite ?_ ?_) | split | (with_reducible refine Keeps.upd ?_ rfl rfl rfl ?_; rotate_left; (fail_if_success with_reducible exact Moved.refl _); exact Moved.any _ _) | dsimp only)

theorem execUcieRetrain_keeps {s0 : State} (d : Nat) (value : W32) (s : State) (hk_s : Keeps s0 s) : KeepsRes s0 (execUcieRetrain d value s) := by
  unfold execUcieRetrain
  (try dsimp only [State.fresh, State.freeVal])
  repeat' (first | with_reducible assumption | with_reducible apply onDie_keeps | with_reducible apply State.d2dCmdWrite_keeps | intro _ | (with_reducible refine Keeps.ite ?_ ?_) | split | (with_reducible refine KeepsRes.next ?_) | (with_reducible refine Keeps.upd ?_ rfl rfl rfl ?_; rotate_left; (fail_if_success with_reducible exact Moved.refl _); exact Moved.any _ _) | dsimp only)

theorem execUcieLinkLost_keeps {s0 : State} (d k : Nat) (s : State) (hk_s : Keeps s0 s) : KeepsRes s0 (execUcieLinkLost d k s) := by
  unfold execUcieLinkLost
  (try dsimp only [State.fresh, State.freeVal])
  repeat' (first | with_reducible assumption | with_reducible apply onDie_keeps | with_reducible apply State.linkRetrain_keeps | intro _ | (with_reducible refine Keeps.ite ?_ ?_) | split | (with_reducible refine KeepsRes.next ?_) | (with_reducible refine Keeps.upd ?_ rfl rfl rfl ?_; rotate_left; (fail_if_success with_reducible exact Moved.refl _); exact Moved.any _ _) | dsimp only)

theorem State.floodChange_keeps {s0 : State} (s : State) (f : ChangeFrame) (from_ : Option Nat) (hk_s : Keeps s0 s) : Keeps s0 (State.floodChange s f from_) := by
  unfold State.floodChange
  (try dsimp only [State.fresh, State.freeVal])
  repeat' (first | with_reducible assumption | with_reducible apply State.queueTx_keeps | with_reducible apply Keeps.foldl | with_reducible apply Keeps.foldlFst | with_reducible apply Keeps.foldlSnd | intro _ | (with_reducible refine Keeps.ite ?_ ?_) | split | (with_reducible refine Keeps.upd ?_ rfl rfl rfl ?_; rotate_left; (fail_if_success with_reducible exact Moved.refl _); exact Moved.any _ _) | dsimp only)

theorem State.unhold_keeps {s0 : State} (s : State) (d : Nat) (hk_s : Keeps s0 s) : Keeps s0 (State.unhold s d) := by
  unfold State.unhold
  (try dsimp only [State.fresh, State.freeVal])
  repeat' (first | with_reducible assumption | with_reducible apply State.modEth_keeps | with_reducible apply State.modWire_keeps | intro _ | (with_reducible refine Keeps.ite ?_ ?_) | split | (with_reducible refine Keeps.upd ?_ rfl rfl rfl ?_; rotate_left; (fail_if_success with_reducible exact Moved.refl _); exact Moved.any _ _) | dsimp only)

theorem State.reroute_keeps {s0 : State} (s : State) (hk_s : Keeps s0 s) : Keeps s0 (State.reroute s) := by
  unfold State.reroute
  (try dsimp only [State.fresh, State.freeVal])
  repeat' (first | with_reducible assumption | with_reducible apply State.requeue_keeps | with_reducible apply State.unhold_keeps | with_reducible apply Keeps.foldl | with_reducible apply Keeps.foldlFst | with_reducible apply Keeps.foldlSnd | intro _ | (with_reducible refine Keeps.ite ?_ ?_) | split | (with_reducible refine Keeps.upd ?_ rfl rfl rfl ?_; rotate_left; (fail_if_success with_reducible exact Moved.refl _); exact Moved.any _ _) | dsimp only)

theorem State.peerFailed_keeps {s0 : State} (s : State) (xyz serial : Nat) (hk_s : Keeps s0 s) : Keeps s0 (State.peerFailed s xyz serial) := by
  unfold State.peerFailed
  (try dsimp only [State.fresh, State.freeVal])
  repeat' (first | with_reducible assumption | with_reducible apply State.eventAll_keeps | with_reducible apply State.loseDomMembers_keeps | with_reducible apply State.loseUnreached_keeps | intro _ | (with_reducible refine Keeps.ite ?_ ?_) | split | (with_reducible refine Keeps.upd ?_ rfl rfl rfl ?_; rotate_left; (fail_if_success with_reducible exact Moved.refl _); exact Moved.any _ _) | dsimp only)

theorem State.applyView_keeps {s0 : State} (s : State) (f : ChangeFrame) (hk_s : Keeps s0 s) : Keeps s0 (State.applyView s f) := by
  unfold State.applyView
  (try dsimp only [State.fresh, State.freeVal])
  repeat' (first | with_reducible assumption | intro _ | (with_reducible refine Keeps.ite ?_ ?_) | split | (with_reducible refine Keeps.upd ?_ rfl rfl rfl ?_; rotate_left; (fail_if_success with_reducible exact Moved.refl _); exact Moved.any _ _) | dsimp only)

theorem State.declaredFailed_keeps {s0 : State} (s : State) (hk_s : Keeps s0 s) : Keeps s0 (State.declaredFailed s) := by
  unfold State.declaredFailed
  (try dsimp only [State.fresh, State.freeVal])
  repeat' (first | with_reducible assumption | with_reducible apply State.setRbit_keeps | with_reducible apply State.eachDie_keeps | with_reducible apply State.endStatus_keeps | with_reducible apply State.modEth_keeps | with_reducible apply State.portDown_keeps | with_reducible apply State.endColls_keeps | with_reducible apply State.fenceMark_keeps | with_reducible apply Keeps.eachDie | with_reducible apply Keeps.foldl | with_reducible apply Keeps.foldlFst | with_reducible apply Keeps.foldlSnd | intro _ | (with_reducible refine Keeps.ite ?_ ?_) | split | (with_reducible refine Keeps.upd ?_ rfl rfl rfl ?_; rotate_left; (fail_if_success with_reducible exact Moved.refl _); exact Moved.any _ _) | dsimp only)

theorem State.change_keeps {s0 : State} (s : State) (f : ChangeFrame) (from_ : Option Nat) (hk_s : Keeps s0 s) : Keeps s0 (State.change s f from_) := by
  unfold State.change
  (try dsimp only [State.fresh, State.freeVal])
  repeat' (first | with_reducible assumption | with_reducible apply State.setRegN_keeps | with_reducible apply State.eachDie_keeps | with_reducible apply State.sendFrame_keeps | with_reducible apply State.loseUnreached_keeps | with_reducible apply State.floodChange_keeps | with_reducible apply State.reroute_keeps | with_reducible apply State.peerFailed_keeps | with_reducible apply State.applyView_keeps | with_reducible apply State.declaredFailed_keeps | with_reducible apply Keeps.eachDie | with_reducible apply Keeps.foldl | with_reducible apply Keeps.foldlFst | with_reducible apply Keeps.foldlSnd | intro _ | (with_reducible refine Keeps.ite ?_ ?_) | split | (with_reducible refine Keeps.upd ?_ rfl rfl rfl ?_; rotate_left; (fail_if_success with_reducible exact Moved.refl _); exact Moved.any _ _) | dsimp only)

theorem State.originate_keeps {s0 : State} (s : State) (kind role subject : Nat) (side : Bool) (serial : Nat) (hk_s : Keeps s0 s) : Keeps s0 (State.originate s kind role subject side serial) := by
  unfold State.originate
  (try dsimp only [State.fresh, State.freeVal])
  repeat' (first | with_reducible assumption | with_reducible apply State.change_keeps | intro _ | (with_reducible refine Keeps.ite ?_ ?_) | split | (with_reducible refine Keeps.upd ?_ rfl rfl rfl ?_; rotate_left; (fail_if_success with_reducible exact Moved.refl _); exact Moved.any _ _) | dsimp only)

theorem State.torusDown_keeps {s0 : State} (s : State) (d : Nat) (hk_s : Keeps s0 s) : Keeps s0 (State.torusDown s d) := by
  unfold State.torusDown
  (try dsimp only [State.fresh, State.freeVal])
  repeat' (first | with_reducible assumption | with_reducible apply State.portDown_keeps | with_reducible apply State.originate_keeps | intro _ | (with_reducible refine Keeps.ite ?_ ?_) | split | (with_reducible refine Keeps.upd ?_ rfl rfl rfl ?_; rotate_left; (fail_if_success with_reducible exact Moved.refl _); exact Moved.any _ _) | dsimp only)

theorem execTorusLinkDown_keeps {s0 : State} (d : Nat) (s : State) (hk_s : Keeps s0 s) : KeepsRes s0 (execTorusLinkDown d s) := by
  unfold execTorusLinkDown
  (try dsimp only [State.fresh, State.freeVal])
  repeat' (first | with_reducible assumption | with_reducible apply onDie_keeps | with_reducible apply State.torusDown_keeps | intro _ | (with_reducible refine Keeps.ite ?_ ?_) | split | (with_reducible refine KeepsRes.next ?_) | (with_reducible refine Keeps.upd ?_ rfl rfl rfl ?_; rotate_left; (fail_if_success with_reducible exact Moved.refl _); exact Moved.any _ _) | dsimp only)

theorem State.linkUpNow_keeps {s0 : State} (s : State) (d : Nat) (hk_s : Keeps s0 s) : Keeps s0 (State.linkUpNow s d) := by
  unfold State.linkUpNow
  (try dsimp only [State.fresh, State.freeVal])
  repeat' (first | with_reducible assumption | with_reducible apply State.setRegN_keeps | with_reducible apply State.modEth_keeps | with_reducible apply State.latchEth_keeps | with_reducible apply State.modWire_keeps | with_reducible apply State.ximelCtl_keeps | intro _ | (with_reducible refine Keeps.ite ?_ ?_) | split | (with_reducible refine Keeps.upd ?_ rfl rfl rfl ?_; rotate_left; (fail_if_success with_reducible exact Moved.refl _); exact Moved.any _ _) | dsimp only)

theorem execTorusLinkUp_keeps {s0 : State} (d : Nat) (s : State) (hk_s : Keeps s0 s) : KeepsRes s0 (execTorusLinkUp d s) := by
  unfold execTorusLinkUp
  (try dsimp only [State.fresh, State.freeVal])
  repeat' (first | with_reducible assumption | with_reducible apply onDie_keeps | with_reducible apply State.setRbit_keeps | with_reducible apply State.eachDie_keeps | with_reducible apply State.loseFrames_keeps | with_reducible apply State.originate_keeps | with_reducible apply State.linkUpNow_keeps | with_reducible apply Keeps.eachDie | intro _ | (with_reducible refine Keeps.ite ?_ ?_) | split | (with_reducible refine KeepsRes.next ?_) | (with_reducible refine Keeps.upd ?_ rfl rfl rfl ?_; rotate_left; (fail_if_success with_reducible exact Moved.refl _); exact Moved.any _ _) | dsimp only)

theorem State.changeIn_keeps {s0 : State} (s : State) (d : Nat) (f : ChangeFrame) (hk_s : Keeps s0 s) : Keeps s0 (State.changeIn s d f) := by
  unfold State.changeIn
  (try dsimp only [State.fresh, State.freeVal])
  repeat' (first | with_reducible assumption | with_reducible apply State.takeRx_keeps | with_reducible apply State.change_keeps | intro _ | (with_reducible refine Keeps.ite ?_ ?_) | split | (with_reducible refine Keeps.upd ?_ rfl rfl rfl ?_; rotate_left; (fail_if_success with_reducible exact Moved.refl _); exact Moved.any _ _) | dsimp only)

theorem execLinkDown_keeps {s0 : State} (d : Nat) (f : ChangeFrame) (s : State) (hk_s : Keeps s0 s) : KeepsRes s0 (execLinkDown d f s) := by
  unfold execLinkDown
  (try dsimp only [State.fresh, State.freeVal])
  repeat' (first | with_reducible assumption | with_reducible apply onDie_keeps | with_reducible apply State.changeIn_keeps | intro _ | (with_reducible refine Keeps.ite ?_ ?_) | split | (with_reducible refine KeepsRes.next ?_) | (with_reducible refine Keeps.upd ?_ rfl rfl rfl ?_; rotate_left; (fail_if_success with_reducible exact Moved.refl _); exact Moved.any _ _) | dsimp only)

theorem execLinkUp_keeps {s0 : State} (d : Nat) (f : ChangeFrame) (s : State) (hk_s : Keeps s0 s) : KeepsRes s0 (execLinkUp d f s) := by
  unfold execLinkUp
  (try dsimp only [State.fresh, State.freeVal])
  repeat' (first | with_reducible assumption | with_reducible apply onDie_keeps | with_reducible apply State.changeIn_keeps | intro _ | (with_reducible refine Keeps.ite ?_ ?_) | split | (with_reducible refine KeepsRes.next ?_) | (with_reducible refine Keeps.upd ?_ rfl rfl rfl ?_; rotate_left; (fail_if_success with_reducible exact Moved.refl _); exact Moved.any _ _) | dsimp only)

theorem execPkgFailed_keeps {s0 : State} (d : Nat) (f : ChangeFrame) (s : State) (hk_s : Keeps s0 s) : KeepsRes s0 (execPkgFailed d f s) := by
  unfold execPkgFailed
  (try dsimp only [State.fresh, State.freeVal])
  repeat' (first | with_reducible assumption | with_reducible apply onDie_keeps | with_reducible apply State.changeIn_keeps | intro _ | (with_reducible refine Keeps.ite ?_ ?_) | split | (with_reducible refine KeepsRes.next ?_) | (with_reducible refine Keeps.upd ?_ rfl rfl rfl ?_; rotate_left; (fail_if_success with_reducible exact Moved.refl _); exact Moved.any _ _) | dsimp only)

theorem State.declare_keeps {s0 : State} (s : State) (hi : Nat) (hk_s : Keeps s0 s) : Keeps s0 (State.declare s hi) := by
  unfold State.declare
  (try dsimp only [State.fresh, State.freeVal])
  repeat' (first | with_reducible assumption | with_reducible apply State.originate_keeps | intro _ | (with_reducible refine Keeps.ite ?_ ?_) | split | (with_reducible refine Keeps.snd ‹_› ?_) | (with_reducible refine Keeps.fst ‹_› ?_) | (with_reducible refine Keeps.upd ?_ rfl rfl rfl ?_; rotate_left; (fail_if_success with_reducible exact Moved.refl _); exact Moved.any _ _) | dsimp only)

theorem execRasDeclare_keeps {s0 : State} (hi : W32) (s : State) (hk_s : Keeps s0 s) : KeepsRes s0 (execRasDeclare hi s) := by
  unfold execRasDeclare
  (try dsimp only [State.fresh, State.freeVal])
  repeat' (first | with_reducible assumption | with_reducible apply onDie_keeps | with_reducible apply State.declare_keeps | intro _ | (with_reducible refine Keeps.ite ?_ ?_) | split | (with_reducible refine KeepsRes.next ?_) | (with_reducible refine Keeps.upd ?_ rfl rfl rfl ?_; rotate_left; (fail_if_success with_reducible exact Moved.refl _); exact Moved.any _ _) | dsimp only)

theorem State.abandonPort_keeps {s0 : State} (s : State) (port : Nat) (hk_s : Keeps s0 s) : Keeps s0 (State.abandonPort s port) := by
  unfold State.abandonPort
  (try dsimp only [State.fresh, State.freeVal])
  repeat' (first | with_reducible assumption | with_reducible apply State.modWork_keeps | with_reducible apply State.settleXfer_keeps | with_reducible apply State.setPiece_keeps | with_reducible apply Keeps.foldl | with_reducible apply Keeps.foldlFst | with_reducible apply Keeps.foldlSnd | intro _ | (with_reducible refine Keeps.ite ?_ ?_) | split | (with_reducible refine Keeps.upd ?_ rfl rfl rfl ?_; rotate_left; (fail_if_success with_reducible exact Moved.refl _); exact Moved.any _ _) | dsimp only)

theorem State.flashGone_keeps {s0 : State} (s : State) (d : Nat) (hk_s : Keeps s0 s) : Keeps s0 (State.flashGone s d) := by
  unfold State.flashGone
  (try dsimp only [State.fresh, State.freeVal])
  repeat' (first | with_reducible assumption | with_reducible apply State.setRegN_keeps | with_reducible apply State.emit_keeps | with_reducible apply State.abandonPort_keeps | intro _ | (with_reducible refine Keeps.ite ?_ ?_) | split | (with_reducible refine Keeps.upd ?_ rfl rfl rfl ?_; rotate_left; (fail_if_success with_reducible exact Moved.refl _); exact Moved.any _ _) | dsimp only)

theorem State.memLost_keeps {s0 : State} (s : State) (hk_s : Keeps s0 s) : Keeps s0 (State.memLost s) := by
  unfold State.memLost
  (try dsimp only [State.fresh, State.freeVal])
  repeat' (first | with_reducible assumption | with_reducible apply State.endStatus_keeps | with_reducible apply State.endColls_keeps | with_reducible apply Keeps.foldl | with_reducible apply Keeps.foldlFst | with_reducible apply Keeps.foldlSnd | intro _ | (with_reducible refine Keeps.ite ?_ ?_) | split | (with_reducible refine Keeps.upd ?_ rfl rfl rfl ?_; rotate_left; (fail_if_success with_reducible exact Moved.refl _); exact Moved.any _ _) | dsimp only)

theorem State.fenceEffect_keeps {s0 : State} (s : State) (d u : Nat) (hk_s : Keeps s0 s) : Keeps s0 (State.fenceEffect s d u) := by
  unfold State.fenceEffect
  (try dsimp only [State.fresh, State.freeVal])
  repeat' (first | with_reducible assumption | with_reducible apply State.setRbit_keeps | with_reducible apply State.wipe_keeps | with_reducible apply State.degrade_keeps | with_reducible apply State.portDown_keeps | with_reducible apply State.meshNote_keeps | with_reducible apply State.restartUnit_keeps | with_reducible apply State.lastOfKind_keeps | with_reducible apply State.linkBoth_keeps | with_reducible apply State.torusDown_keeps | with_reducible apply State.flashGone_keeps | with_reducible apply State.memLost_keeps | intro _ | (with_reducible refine Keeps.ite ?_ ?_) | split | (with_reducible refine Keeps.upd ?_ rfl rfl rfl ?_; rotate_left; (fail_if_success with_reducible exact Moved.refl _); exact Moved.any _ _) | dsimp only)

theorem State.fenceOne_keeps {s0 : State} (s : State) (d u cause : Nat) (hk_s : Keeps s0 s) : Keeps s0 (State.fenceOne s d u cause) := by
  unfold State.fenceOne
  (try dsimp only [State.fresh, State.freeVal])
  repeat' (first | with_reducible assumption | with_reducible apply State.fenceMark_keeps | with_reducible apply State.fenceEffect_keeps | intro _ | (with_reducible refine Keeps.ite ?_ ?_) | split | (with_reducible refine Keeps.upd ?_ rfl rfl rfl ?_; rotate_left; (fail_if_success with_reducible exact Moved.refl _); exact Moved.any _ _) | dsimp only)

theorem State.dieWorkLost_keeps {s0 : State} (s : State) (d : Nat) (hk_s : Keeps s0 s) : Keeps s0 (State.dieWorkLost s d) := by
  unfold State.dieWorkLost
  (try dsimp only [State.fresh, State.freeVal])
  repeat' (first | with_reducible assumption | with_reducible apply State.endStatus_keeps | with_reducible apply State.endColls_keeps | with_reducible apply State.domainsLost_keeps | with_reducible apply Keeps.foldl | with_reducible apply Keeps.foldlFst | with_reducible apply Keeps.foldlSnd | intro _ | (with_reducible refine Keeps.ite ?_ ?_) | split | (with_reducible refine Keeps.upd ?_ rfl rfl rfl ?_; rotate_left; (fail_if_success with_reducible exact Moved.refl _); exact Moved.any _ _) | dsimp only)

theorem State.packageLost_keeps {s0 : State} (s : State) (hk_s : Keeps s0 s) : Keeps s0 (State.packageLost s) := by
  unfold State.packageLost
  (try dsimp only [State.fresh, State.freeVal])
  repeat' (first | with_reducible assumption | with_reducible apply State.setRbit_keeps | with_reducible apply State.eachDie_keeps | with_reducible apply State.modEth_keeps | with_reducible apply State.sendFrame_keeps | with_reducible apply State.portDown_keeps | with_reducible apply State.hostDown_keeps | with_reducible apply Keeps.eachDie | with_reducible apply Keeps.foldl | with_reducible apply Keeps.foldlFst | with_reducible apply Keeps.foldlSnd | intro _ | (with_reducible refine Keeps.ite ?_ ?_) | split | (with_reducible refine Keeps.upd ?_ rfl rfl rfl ?_; rotate_left; (fail_if_success with_reducible exact Moved.refl _); exact Moved.any _ _) | dsimp only)

theorem State.fence_keeps {s0 : State} (s : State) (d u cause : Nat) (hk_s : Keeps s0 s) : Keeps s0 (State.fence s d u cause) := by
  unfold State.fence
  (try dsimp only [State.fresh, State.freeVal])
  repeat' (first | with_reducible assumption | with_reducible apply State.degrade_keeps | with_reducible apply State.loseUnreached_keeps | with_reducible apply State.meshNote_keeps | with_reducible apply State.fenceMark_keeps | with_reducible apply State.memLost_keeps | with_reducible apply State.fenceOne_keeps | with_reducible apply State.dieWorkLost_keeps | with_reducible apply State.packageLost_keeps | with_reducible apply Keeps.foldl | with_reducible apply Keeps.foldlFst | with_reducible apply Keeps.foldlSnd | intro _ | (with_reducible refine Keeps.ite ?_ ?_) | split | (with_reducible refine Keeps.upd ?_ rfl rfl rfl ?_; rotate_left; (fail_if_success with_reducible exact Moved.refl _); exact Moved.any _ _) | dsimp only)

theorem State.fenceLost_keeps {s0 : State} (s t : State) (d : Nat) (hk_s : Keeps s0 s) (hk_t : Keeps s0 t) : Keeps s0 (State.fenceLost s t d) := by
  unfold State.fenceLost
  (try dsimp only [State.fresh, State.freeVal])
  repeat' (first | with_reducible assumption | with_reducible apply State.fence_keeps | intro _ | (with_reducible refine Keeps.ite ?_ ?_) | split | (with_reducible refine Keeps.upd ?_ rfl rfl rfl ?_; rotate_left; (fail_if_success with_reducible exact Moved.refl _); exact Moved.any _ _) | dsimp only)

theorem execLaneFail_keeps {s0 : State} (d lane : Nat) (s : State) (hk_s : Keeps s0 s) : KeepsRes s0 (execLaneFail d lane s) := by
  unfold execLaneFail
  (try dsimp only [State.fresh, State.freeVal])
  repeat' (first | with_reducible assumption | with_reducible apply onDie_keeps | with_reducible apply State.laneFail_keeps | with_reducible apply State.fenceLost_keeps | intro _ | (with_reducible refine Keeps.ite ?_ ?_) | split | (with_reducible refine KeepsRes.next ?_) | (with_reducible refine Keeps.upd ?_ rfl rfl rfl ?_; rotate_left; (fail_if_success with_reducible exact Moved.refl _); exact Moved.any _ _) | dsimp only)

theorem execNarrowAlignFail_keeps {s0 : State} (d : Nat) (s : State) (hk_s : Keeps s0 s) : KeepsRes s0 (execNarrowAlignFail d s) := by
  unfold execNarrowAlignFail
  (try dsimp only [State.fresh, State.freeVal])
  repeat' (first | with_reducible assumption | with_reducible apply onDie_keeps | with_reducible apply State.stepDown_keeps | with_reducible apply State.fenceLost_keeps | intro _ | (with_reducible refine Keeps.ite ?_ ?_) | split | (with_reducible refine KeepsRes.next ?_) | (with_reducible refine Keeps.upd ?_ rfl rfl rfl ?_; rotate_left; (fail_if_success with_reducible exact Moved.refl _); exact Moved.any _ _) | dsimp only)

theorem State.repairRow_keeps {s0 : State} (s : State) (d bank row : Nat) (hk_s : Keeps s0 s) : Keeps s0 (State.repairRow s d bank row) := by
  unfold State.repairRow
  (try dsimp only [State.fresh, State.freeVal])
  repeat' (first | with_reducible assumption | with_reducible apply State.setRegN_keeps | with_reducible apply State.setRf_keeps | with_reducible apply State.bump_keeps | with_reducible apply State.degrade_keeps | with_reducible apply State.place_keeps | with_reducible apply State.memLost_keeps | with_reducible apply State.fence_keeps | intro _ | (with_reducible refine Keeps.ite ?_ ?_) | split | (with_reducible refine Keeps.snd ‹_› ?_) | (with_reducible refine Keeps.fst ‹_› ?_) | (with_reducible refine Keeps.upd ?_ rfl rfl rfl ?_; rotate_left; (fail_if_success with_reducible exact Moved.refl _); exact Moved.any _ _) | dsimp only)

theorem execRowRepair_keeps {s0 : State} (d bank row : Nat) (s : State) (hk_s : Keeps s0 s) : KeepsRes s0 (execRowRepair d bank row s) := by
  unfold execRowRepair
  (try dsimp only [State.fresh, State.freeVal])
  repeat' (first | with_reducible assumption | with_reducible apply onDie_keeps | with_reducible apply State.repairRow_keeps | intro _ | (with_reducible refine Keeps.ite ?_ ?_) | split | (with_reducible refine KeepsRes.next ?_) | (with_reducible refine Keeps.upd ?_ rfl rfl rfl ?_; rotate_left; (fail_if_success with_reducible exact Moved.refl _); exact Moved.any _ _) | dsimp only)

theorem State.giveBack_keeps {s0 : State} (s : State) (d u : Nat) (hk_s : Keeps s0 s) : Keeps s0 (State.giveBack s d u) := by
  unfold State.giveBack
  (try dsimp only [State.fresh, State.freeVal])
  repeat' (first | with_reducible assumption | with_reducible apply State.setRf_keeps | with_reducible apply State.linkBoth_keeps | intro _ | (with_reducible refine Keeps.ite ?_ ?_) | split | (with_reducible refine Keeps.upd ?_ rfl rfl rfl ?_; rotate_left; (fail_if_success with_reducible exact Moved.refl _); exact Moved.any _ _) | dsimp only)

theorem execRasReturn_keeps {s0 : State} (d : Nat) (value : W32) (s : State) (hk_s : Keeps s0 s) : KeepsRes s0 (execRasReturn d value s) := by
  unfold execRasReturn
  (try dsimp only [State.fresh, State.freeVal])
  repeat' (first | with_reducible assumption | with_reducible apply onDie_keeps | with_reducible apply State.giveBack_keeps | intro _ | (with_reducible refine Keeps.ite ?_ ?_) | split | (with_reducible refine KeepsRes.next ?_) | (with_reducible refine Keeps.upd ?_ rfl rfl rfl ?_; rotate_left; (fail_if_success with_reducible exact Moved.refl _); exact Moved.any _ _) | dsimp only)

theorem execAutoReturnTimer_keeps {s0 : State} (d unit : Nat) (s : State) (hk_s : Keeps s0 s) : KeepsRes s0 (execAutoReturnTimer d unit s) := by
  unfold execAutoReturnTimer
  (try dsimp only [State.fresh, State.freeVal])
  repeat' (first | with_reducible assumption | with_reducible apply onDie_keeps | with_reducible apply State.giveBack_keeps | intro _ | (with_reducible refine Keeps.ite ?_ ?_) | split | (with_reducible refine KeepsRes.next ?_) | (with_reducible refine Keeps.upd ?_ rfl rfl rfl ?_; rotate_left; (fail_if_success with_reducible exact Moved.refl _); exact Moved.any _ _) | dsimp only)

theorem execSelfTestEnd_keeps {s0 : State} (d unit : Nat) (pass : Bool) (s : State) (hk_s : Keeps s0 s) : KeepsRes s0 (execSelfTestEnd d unit pass s) := by
  unfold execSelfTestEnd
  (try dsimp only [State.fresh, State.freeVal])
  repeat' (first | with_reducible assumption | with_reducible apply onDie_keeps | with_reducible apply State.setRf_keeps | intro _ | (with_reducible refine Keeps.ite ?_ ?_) | split | (with_reducible refine KeepsRes.next ?_) | (with_reducible refine Keeps.upd ?_ rfl rfl rfl ?_; rotate_left; (fail_if_success with_reducible exact Moved.refl _); exact Moved.any _ _) | dsimp only)

theorem State.enterService_keeps {s0 : State} (s : State) (d u : Nat) (hk_s : Keeps s0 s) : Keeps s0 (State.enterService s d u) := by
  unfold State.enterService
  (try dsimp only [State.fresh, State.freeVal])
  repeat' (first | with_reducible assumption | with_reducible apply State.setRf_keeps | with_reducible apply State.setRbit_keeps | with_reducible apply State.unitEvent_keeps | with_reducible apply State.fencedBit_keeps | intro _ | (with_reducible refine Keeps.ite ?_ ?_) | split | (with_reducible refine Keeps.upd ?_ rfl rfl rfl ?_; rotate_left; (fail_if_success with_reducible exact Moved.refl _); exact Moved.any _ _) | dsimp only)

theorem execServiceEntry_keeps {s0 : State} (d unit : Nat) (s : State) (hk_s : Keeps s0 s) : KeepsRes s0 (execServiceEntry d unit s) := by
  unfold execServiceEntry
  (try dsimp only [State.fresh, State.freeVal])
  repeat' (first | with_reducible assumption | with_reducible apply onDie_keeps | with_reducible apply State.enterService_keeps | intro _ | (with_reducible refine Keeps.ite ?_ ?_) | split | (with_reducible refine KeepsRes.next ?_) | (with_reducible refine Keeps.upd ?_ rfl rfl rfl ?_; rotate_left; (fail_if_success with_reducible exact Moved.refl _); exact Moved.any _ _) | dsimp only)

theorem State.linkTrained_keeps {s0 : State} (s : State) (d k : Nat) (hk_s : Keeps s0 s) : Keeps s0 (State.linkTrained s d k) := by
  unfold State.linkTrained
  (try dsimp only [State.fresh, State.freeVal])
  repeat' (first | with_reducible assumption | with_reducible apply State.meshNote_keeps | with_reducible apply State.linkBoth_keeps | with_reducible apply State.enterService_keeps | intro _ | (with_reducible refine Keeps.ite ?_ ?_) | split | (with_reducible refine Keeps.upd ?_ rfl rfl rfl ?_; rotate_left; (fail_if_success with_reducible exact Moved.refl _); exact Moved.any _ _) | dsimp only)

theorem State.linkTrainFailed_keeps {s0 : State} (s : State) (d k : Nat) (hk_s : Keeps s0 s) : Keeps s0 (State.linkTrainFailed s d k) := by
  unfold State.linkTrainFailed
  (try dsimp only [State.fresh, State.freeVal])
  repeat' (first | with_reducible assumption | with_reducible apply State.linkBoth_keeps | with_reducible apply State.fence_keeps | intro _ | (with_reducible refine Keeps.ite ?_ ?_) | split | (with_reducible refine Keeps.snd ‹_› ?_) | (with_reducible refine Keeps.fst ‹_› ?_) | (with_reducible refine Keeps.upd ?_ rfl rfl rfl ?_; rotate_left; (fail_if_success with_reducible exact Moved.refl _); exact Moved.any _ _) | dsimp only)

theorem execUcieRetrainEnd_keeps {s0 : State} (d k : Nat) (ok : Bool) (s : State) (hk_s : Keeps s0 s) : KeepsRes s0 (execUcieRetrainEnd d k ok s) := by
  unfold execUcieRetrainEnd
  (try dsimp only [State.fresh, State.freeVal])
  repeat' (first | with_reducible assumption | with_reducible apply onDie_keeps | with_reducible apply State.linkTrained_keeps | with_reducible apply State.linkTrainFailed_keeps | intro _ | (with_reducible refine Keeps.ite ?_ ?_) | split | (with_reducible refine KeepsRes.next ?_) | (with_reducible refine Keeps.upd ?_ rfl rfl rfl ?_; rotate_left; (fail_if_success with_reducible exact Moved.refl _); exact Moved.any _ _) | dsimp only)

end Sys2Proof.Machine
end

