-- ==== Sys2Proof/Laws/KeepsRegRead.lean ====
section
/-! SUPPORT. What the operations of Machine/RegRead.lean keep: the queue, the part and the invariant. -/

namespace Sys2Proof.Machine

theorem execCounterLoRead_keeps {s0 : State} (d off : Nat) (wide : Bool) (s : State) (hk_s : Keeps s0 s) : KeepsRes s0 (execCounterLoRead d off wide s) := by
  unfold execCounterLoRead
  (try dsimp only [State.fresh, State.freeVal])
  repeat' (first | with_reducible assumption | with_reducible apply live_keeps | with_reducible apply State.setRegN_keeps | with_reducible apply State.bumpFree_keeps | with_reducible apply State.emit_keeps | intro _ | (with_reducible refine Keeps.ite ?_ ?_) | split | (with_reducible refine KeepsRes.next ?_) | (with_reducible refine Keeps.upd ?_ rfl rfl rfl ?_; rotate_left; (fail_if_success with_reducible exact Moved.refl _); exact Moved.any _ _) | dsimp only)

end Sys2Proof.Machine
end

