-- ==== Sys2Proof/Laws/KeepsPower.lean ====
section
/-! SUPPORT. What the operations of Machine/Power.lean keep: the queue, the part and the invariant. -/

namespace Sys2Proof.Machine

theorem State.pwrEvent_keeps {s0 : State} (s : State) (d code : Nat) (payload : List Byte) (hk_s : Keeps s0 s) : Keeps s0 (State.pwrEvent s d code payload) := by
  unfold State.pwrEvent
  (try dsimp only [State.fresh, State.freeVal])
  repeat' (first | with_reducible assumption | with_reducible apply State.bump_keeps | with_reducible apply State.eventAll_keeps | intro _ | (with_reducible refine Keeps.ite ?_ ?_) | split | (with_reducible refine Keeps.upd ?_ rfl rfl rfl ?_; rotate_left; (fail_if_success with_reducible exact Moved.refl _); exact Moved.any _ _) | dsimp only)

theorem State.pwrClear_keeps {s0 : State} (s : State) (d code : Nat) (hk_s : Keeps s0 s) : Keeps s0 (State.pwrClear s d code) := by
  unfold State.pwrClear
  (try dsimp only [State.fresh, State.freeVal])
  repeat' (first | with_reducible assumption | intro _ | (with_reducible refine Keeps.ite ?_ ?_) | split | (with_reducible refine Keeps.upd ?_ rfl rfl rfl ?_; rotate_left; (fail_if_success with_reducible exact Moved.refl _); exact Moved.any _ _) | dsimp only)

theorem State.setCal_keeps {s0 : State} (s : State) (c : Cal) (hk_s : Keeps s0 s) : Keeps s0 (State.setCal s c) := by
  unfold State.setCal
  (try dsimp only [State.fresh, State.freeVal])
  repeat' (first | with_reducible assumption | intro _ | (with_reducible refine Keeps.ite ?_ ?_) | split | (with_reducible refine Keeps.upd ?_ rfl rfl rfl ?_; rotate_left; (fail_if_success with_reducible exact Moved.refl _); exact Moved.any _ _) | dsimp only)

theorem State.setBrakes_keeps {s0 : State} (s : State) (d : Nat) (f : Nat → Nat) (hk_s : Keeps s0 s) : Keeps s0 (State.setBrakes s d f) := by
  unfold State.setBrakes
  (try dsimp only [State.fresh, State.freeVal])
  repeat' (first | with_reducible assumption | with_reducible apply State.setRegN_keeps | with_reducible apply Keeps.foldl | with_reducible apply Keeps.foldlFst | with_reducible apply Keeps.foldlSnd | intro _ | (with_reducible refine Keeps.ite ?_ ?_) | split | (with_reducible refine Keeps.upd ?_ rfl rfl rfl ?_; rotate_left; (fail_if_success with_reducible exact Moved.refl _); exact Moved.any _ _) | dsimp only)

theorem State.sensorBrake_keeps {s0 : State} (s : State) (d : Nat) (hk_s : Keeps s0 s) : Keeps s0 (State.sensorBrake s d) := by
  unfold State.sensorBrake
  (try dsimp only [State.fresh, State.freeVal])
  repeat' (first | with_reducible assumption | with_reducible apply State.freeVal_keeps | with_reducible apply State.setBrakes_keeps | intro _ | (with_reducible refine Keeps.ite ?_ ?_) | split | (with_reducible refine Keeps.snd ‹_› ?_) | (with_reducible refine Keeps.fst ‹_› ?_) | (with_reducible refine Keeps.upd ?_ rfl rfl rfl ?_; rotate_left; (fail_if_success with_reducible exact Moved.refl _); exact Moved.any _ _) | dsimp only)

theorem State.residual_keeps {s0 : State} (s : State) (c : Cal) (hk_s : Keeps s0 s) : Keeps s0 (State.residual s c).2 := by
  unfold State.residual
  (try dsimp only [State.fresh, State.freeVal])
  repeat' (first | with_reducible assumption | with_reducible apply State.freeVal_keeps | intro _ | (with_reducible refine Keeps.ite ?_ ?_) | split | (with_reducible refine Keeps.snd ‹_› ?_) | (with_reducible refine Keeps.fst ‹_› ?_) | (with_reducible refine Keeps.upd ?_ rfl rfl rfl ?_; rotate_left; (fail_if_success with_reducible exact Moved.refl _); exact Moved.any _ _) | dsimp only)

theorem State.judgeCal_keeps {s0 : State} (s : State) (d : Nat) (q : Rat) (hk_s : Keeps s0 s) : Keeps s0 (State.judgeCal s d q) := by
  unfold State.judgeCal
  (try dsimp only [State.fresh, State.freeVal])
  repeat' (first | with_reducible assumption | with_reducible apply State.setRegN_keeps | with_reducible apply State.setRbit_keeps | with_reducible apply State.bump_keeps | with_reducible apply State.pwrEvent_keeps | with_reducible apply State.pwrClear_keeps | with_reducible apply State.setCal_keeps | intro _ | (with_reducible refine Keeps.ite ?_ ?_) | split | (with_reducible refine Keeps.upd ?_ rfl rfl rfl ?_; rotate_left; (fail_if_success with_reducible exact Moved.refl _); exact Moved.any _ _) | dsimp only)

theorem State.calibrate_keeps {s0 : State} (s : State) (d x : Nat) (hk_s : Keeps s0 s) : Keeps s0 (State.calibrate s d x) := by
  unfold State.calibrate
  (try dsimp only [State.fresh, State.freeVal])
  repeat' (first | with_reducible assumption | with_reducible apply State.setRegN_keeps | with_reducible apply State.bump_keeps | with_reducible apply State.setCal_keeps | with_reducible apply State.residual_keeps | with_reducible apply State.judgeCal_keeps | intro _ | (with_reducible refine Keeps.ite ?_ ?_) | split | (with_reducible refine Keeps.snd ‹_› ?_) | (with_reducible refine Keeps.fst ‹_› ?_) | (with_reducible refine Keeps.upd ?_ rfl rfl rfl ?_; rotate_left; (fail_if_success with_reducible exact Moved.refl _); exact Moved.any _ _) | dsimp only)

theorem execSensorRead_keeps {s0 : State} (d : Nat) (mw : Option Nat) (s : State) (hk_s : Keeps s0 s) : KeepsRes s0 (execSensorRead d mw s) := by
  unfold execSensorRead
  (try dsimp only [State.fresh, State.freeVal])
  repeat' (first | with_reducible assumption | with_reducible apply onDie_keeps | with_reducible apply State.setRegN_keeps | with_reducible apply State.sensorBrake_keeps | with_reducible apply State.calibrate_keeps | intro _ | (with_reducible refine Keeps.ite ?_ ?_) | split | (with_reducible refine KeepsRes.next ?_) | (with_reducible refine Keeps.upd ?_ rfl rfl rfl ?_; rotate_left; (fail_if_success with_reducible exact Moved.refl _); exact Moved.any _ _) | dsimp only)

theorem State.learn_keeps {s0 : State} (s : State) (d e u : Nat) (hk_s : Keeps s0 s) : Keeps s0 (State.learn s d e u) := by
  unfold State.learn
  (try dsimp only [State.fresh, State.freeVal])
  repeat' (first | with_reducible assumption | with_reducible apply State.setRegN_keeps | intro _ | (with_reducible refine Keeps.ite ?_ ?_) | split | (with_reducible refine Keeps.snd ‹_› ?_) | (with_reducible refine Keeps.fst ‹_› ?_) | (with_reducible refine Keeps.upd ?_ rfl rfl rfl ?_; rotate_left; (fail_if_success with_reducible exact Moved.refl _); exact Moved.any _ _) | dsimp only)

theorem State.brakeUpdate_keeps {s0 : State} (s : State) (d : Nat) (us : List Nat) (hk_s : Keeps s0 s) : Keeps s0 (State.brakeUpdate s d us) := by
  unfold State.brakeUpdate
  (try dsimp only [State.fresh, State.freeVal])
  repeat' (first | with_reducible assumption | with_reducible apply State.setBrakes_keeps | intro _ | (with_reducible refine Keeps.ite ?_ ?_) | split | (with_reducible refine Keeps.upd ?_ rfl rfl rfl ?_; rotate_left; (fail_if_success with_reducible exact Moved.refl _); exact Moved.any _ _) | dsimp only)

theorem State.noteBrakes_keeps {s0 : State} (s : State) (bs : List Nat) (hk_s : Keeps s0 s) : Keeps s0 (State.noteBrakes s bs) := by
  unfold State.noteBrakes
  (try dsimp only [State.fresh, State.freeVal])
  repeat' (first | with_reducible assumption | intro _ | (with_reducible refine Keeps.ite ?_ ?_) | split | (with_reducible refine Keeps.snd ‹_› ?_) | (with_reducible refine Keeps.fst ‹_› ?_) | (with_reducible refine Keeps.upd ?_ rfl rfl rfl ?_; rotate_left; (fail_if_success with_reducible exact Moved.refl _); exact Moved.any _ _) | dsimp only)

theorem execActivityWindow_keeps {s0 : State} (d : Nat) (a : Activity) (s : State) (hk_s : Keeps s0 s) : KeepsRes s0 (execActivityWindow d a s) := by
  unfold execActivityWindow
  (try dsimp only [State.fresh, State.freeVal])
  repeat' (first | with_reducible assumption | with_reducible apply onDie_keeps | with_reducible apply State.setRegN_keeps | with_reducible apply State.setCal_keeps | with_reducible apply State.learn_keeps | with_reducible apply State.brakeUpdate_keeps | with_reducible apply State.noteBrakes_keeps | with_reducible apply Keeps.foldl | with_reducible apply Keeps.foldlFst | with_reducible apply Keeps.foldlSnd | intro _ | (with_reducible refine Keeps.ite ?_ ?_) | split | (with_reducible refine Keeps.snd ‹_› ?_) | (with_reducible refine Keeps.fst ‹_› ?_) | (with_reducible refine KeepsRes.next ?_) | (with_reducible refine Keeps.upd ?_ rfl rfl rfl ?_; rotate_left; (fail_if_success with_reducible exact Moved.refl _); exact Moved.any _ _) | dsimp only)

theorem State.capUpdate_keeps {s0 : State} (s : State) (hk_s : Keeps s0 s) : Keeps s0 (State.capUpdate s) := by
  unfold State.capUpdate
  (try dsimp only [State.fresh, State.freeVal])
  repeat' (first | with_reducible assumption | with_reducible apply State.setRegN_keeps | intro _ | (with_reducible refine Keeps.ite ?_ ?_) | split | (with_reducible refine Keeps.upd ?_ rfl rfl rfl ?_; rotate_left; (fail_if_success with_reducible exact Moved.refl _); exact Moved.any _ _) | dsimp only)

theorem State.allocateDie_keeps {s0 : State} (s : State) (d : Nat) (hk_s : Keeps s0 s) : Keeps s0 (State.allocateDie s d) := by
  unfold State.allocateDie
  (try dsimp only [State.fresh, State.freeVal])
  repeat' (first | with_reducible assumption | with_reducible apply State.setRegN_keeps | with_reducible apply State.freeVal_keeps | with_reducible apply Keeps.foldl | with_reducible apply Keeps.foldlFst | with_reducible apply Keeps.foldlSnd | intro _ | (with_reducible refine Keeps.ite ?_ ?_) | split | (with_reducible refine Keeps.snd ‹_› ?_) | (with_reducible refine Keeps.fst ‹_› ?_) | (with_reducible refine Keeps.upd ?_ rfl rfl rfl ?_; rotate_left; (fail_if_success with_reducible exact Moved.refl _); exact Moved.any _ _) | dsimp only)

theorem State.allocate_keeps {s0 : State} (s : State) (hk_s : Keeps s0 s) : Keeps s0 (State.allocate s) := by
  unfold State.allocate
  (try dsimp only [State.fresh, State.freeVal])
  repeat' (first | with_reducible assumption | with_reducible apply State.allocateDie_keeps | with_reducible apply Keeps.foldl | with_reducible apply Keeps.foldlFst | with_reducible apply Keeps.foldlSnd | intro _ | (with_reducible refine Keeps.ite ?_ ?_) | split | (with_reducible refine Keeps.upd ?_ rfl rfl rfl ?_; rotate_left; (fail_if_success with_reducible exact Moved.refl _); exact Moved.any _ _) | dsimp only)

theorem execCapAllocation_keeps {s0 : State} (s : State) (hk_s : Keeps s0 s) : KeepsRes s0 (execCapAllocation s) := by
  unfold execCapAllocation
  (try dsimp only [State.fresh, State.freeVal])
  repeat' (first | with_reducible assumption | with_reducible apply onDie_keeps | with_reducible apply State.allocate_keeps | intro _ | (with_reducible refine Keeps.ite ?_ ?_) | split | (with_reducible refine KeepsRes.next ?_) | (with_reducible refine Keeps.upd ?_ rfl rfl rfl ?_; rotate_left; (fail_if_success with_reducible exact Moved.refl _); exact Moved.any _ _) | dsimp only)

theorem execCapExceeded_keeps {s0 : State} (mw : Nat) (s : State) (hk_s : Keeps s0 s) : KeepsRes s0 (execCapExceeded mw s) := by
  unfold execCapExceeded
  (try dsimp only [State.fresh, State.freeVal])
  repeat' (first | with_reducible assumption | with_reducible apply onDie_keeps | with_reducible apply State.setRbit_keeps | with_reducible apply State.bump_keeps | with_reducible apply State.pwrEvent_keeps | with_reducible apply State.pwrClear_keeps | intro _ | (with_reducible refine Keeps.ite ?_ ?_) | split | (with_reducible refine KeepsRes.next ?_) | (with_reducible refine Keeps.upd ?_ rfl rfl rfl ?_; rotate_left; (fail_if_success with_reducible exact Moved.refl _); exact Moved.any _ _) | dsimp only)

theorem State.askVolt_keeps {s0 : State} (s : State) (j d : Nat) (hk_s : Keeps s0 s) : Keeps s0 (State.askVolt s j d) := by
  unfold State.askVolt
  (try dsimp only [State.fresh, State.freeVal])
  repeat' (first | with_reducible assumption | intro _ | (with_reducible refine Keeps.ite ?_ ?_) | split | (with_reducible refine Keeps.upd ?_ rfl rfl rfl ?_; rotate_left; (fail_if_success with_reducible exact Moved.refl _); exact Moved.any _ _) | dsimp only)

theorem State.clkBit_keeps {s0 : State} (s : State) (i : Nat) (b : Bool) (hk_s : Keeps s0 s) : Keeps s0 (State.clkBit s i b) := by
  unfold State.clkBit
  (try dsimp only [State.fresh, State.freeVal])
  repeat' (first | with_reducible assumption | with_reducible apply State.setRbit_keeps | with_reducible apply State.eachDie_keeps | with_reducible apply Keeps.eachDie | intro _ | (with_reducible refine Keeps.ite ?_ ?_) | split | (with_reducible refine Keeps.upd ?_ rfl rfl rfl ?_; rotate_left; (fail_if_success with_reducible exact Moved.refl _); exact Moved.any _ _) | dsimp only)

theorem State.startFreq_keeps {s0 : State} (s : State) (j : Nat) (hk_s : Keeps s0 s) : Keeps s0 (State.startFreq s j) := by
  unfold State.startFreq
  (try dsimp only [State.fresh, State.freeVal])
  repeat' (first | with_reducible assumption | with_reducible apply State.askVolt_keeps | with_reducible apply State.clkBit_keeps | with_reducible apply Keeps.foldl | with_reducible apply Keeps.foldlFst | with_reducible apply Keeps.foldlSnd | intro _ | (with_reducible refine Keeps.ite ?_ ?_) | split | (with_reducible refine Keeps.upd ?_ rfl rfl rfl ?_; rotate_left; (fail_if_success with_reducible exact Moved.refl _); exact Moved.any _ _) | dsimp only)

theorem State.wantFreq_keeps {s0 : State} (s : State) (j : Nat) (force : Bool) (hk_s : Keeps s0 s) : Keeps s0 (State.wantFreq s j force) := by
  unfold State.wantFreq
  (try dsimp only [State.fresh, State.freeVal])
  repeat' (first | with_reducible assumption | with_reducible apply State.startFreq_keeps | intro _ | (with_reducible refine Keeps.ite ?_ ?_) | split | (with_reducible refine Keeps.upd ?_ rfl rfl rfl ?_; rotate_left; (fail_if_success with_reducible exact Moved.refl _); exact Moved.any _ _) | dsimp only)

theorem State.wakeFreq_keeps {s0 : State} (s : State) (hk_s : Keeps s0 s) : Keeps s0 (State.wakeFreq s) := by
  unfold State.wakeFreq
  (try dsimp only [State.fresh, State.freeVal])
  repeat' (first | with_reducible assumption | with_reducible apply State.wantFreq_keeps | intro _ | (with_reducible refine Keeps.ite ?_ ?_) | split | (with_reducible refine Keeps.snd ‹_› ?_) | (with_reducible refine Keeps.fst ‹_› ?_) | (with_reducible refine Keeps.upd ?_ rfl rfl rfl ?_; rotate_left; (fail_if_success with_reducible exact Moved.refl _); exact Moved.any _ _) | dsimp only)

theorem State.settleFreq_keeps {s0 : State} (s : State) (hk_s : Keeps s0 s) : Keeps s0 (State.settleFreq s) := by
  unfold State.settleFreq
  (try dsimp only [State.fresh, State.freeVal])
  repeat' (first | with_reducible assumption | with_reducible apply State.clkBit_keeps | with_reducible apply State.wakeFreq_keeps | intro _ | (with_reducible refine Keeps.ite ?_ ?_) | split | (with_reducible refine Keeps.upd ?_ rfl rfl rfl ?_; rotate_left; (fail_if_success with_reducible exact Moved.refl _); exact Moved.any _ _) | dsimp only)

theorem execFreqSwitch_keeps {s0 : State} (s : State) (hk_s : Keeps s0 s) : KeepsRes s0 (execFreqSwitch s) := by
  unfold execFreqSwitch
  (try dsimp only [State.fresh, State.freeVal])
  repeat' (first | with_reducible assumption | with_reducible apply onDie_keeps | with_reducible apply State.setRf_keeps | with_reducible apply State.eachDie_keeps | with_reducible apply State.bump_keeps | with_reducible apply State.askVolt_keeps | with_reducible apply State.settleFreq_keeps | with_reducible apply Keeps.eachDie | with_reducible apply Keeps.foldl | with_reducible apply Keeps.foldlFst | with_reducible apply Keeps.foldlSnd | intro _ | (with_reducible refine Keeps.ite ?_ ?_) | split | (with_reducible refine Keeps.snd ‹_› ?_) | (with_reducible refine Keeps.fst ‹_› ?_) | (with_reducible refine KeepsRes.next ?_) | (with_reducible refine Keeps.upd ?_ rfl rfl rfl ?_; rotate_left; (fail_if_success with_reducible exact Moved.refl _); exact Moved.any _ _) | dsimp only)

theorem execFreqDecision_keeps {s0 : State} (s : State) (hk_s : Keeps s0 s) : KeepsRes s0 (execFreqDecision s) := by
  unfold execFreqDecision
  (try dsimp only [State.fresh, State.freeVal])
  repeat' (first | with_reducible assumption | with_reducible apply onDie_keeps | with_reducible apply State.eachDie_keeps | with_reducible apply State.bump_keeps | with_reducible apply State.startFreq_keeps | with_reducible apply Keeps.eachDie | intro _ | (with_reducible refine Keeps.ite ?_ ?_) | split | (with_reducible refine Keeps.snd ‹_› ?_) | (with_reducible refine Keeps.fst ‹_› ?_) | (with_reducible refine KeepsRes.next ?_) | (with_reducible refine Keeps.upd ?_ rfl rfl rfl ?_; rotate_left; (fail_if_success with_reducible exact Moved.refl _); exact Moved.any _ _) | dsimp only)

theorem State.breakCadence_keeps {s0 : State} (s : State) (cause : Nat) (hk_s : Keeps s0 s) : Keeps s0 (State.breakCadence s cause) := by
  unfold State.breakCadence
  (try dsimp only [State.fresh, State.freeVal])
  repeat' (first | with_reducible assumption | with_reducible apply State.pwrEvent_keeps | with_reducible apply State.clkBit_keeps | intro _ | (with_reducible refine Keeps.ite ?_ ?_) | split | (with_reducible refine Keeps.upd ?_ rfl rfl rfl ?_; rotate_left; (fail_if_success with_reducible exact Moved.refl _); exact Moved.any _ _) | dsimp only)

theorem execCadenceBroken_keeps {s0 : State} (cause : Nat) (s : State) (hk_s : Keeps s0 s) : KeepsRes s0 (execCadenceBroken cause s) := by
  unfold execCadenceBroken
  (try dsimp only [State.fresh, State.freeVal])
  repeat' (first | with_reducible assumption | with_reducible apply onDie_keeps | with_reducible apply State.breakCadence_keeps | intro _ | (with_reducible refine Keeps.ite ?_ ?_) | split | (with_reducible refine KeepsRes.next ?_) | (with_reducible refine Keeps.upd ?_ rfl rfl rfl ?_; rotate_left; (fail_if_success with_reducible exact Moved.refl _); exact Moved.any _ _) | dsimp only)

theorem State.modeWrite_keeps {s0 : State} (s : State) (mode : Bool) (hk_s : Keeps s0 s) : Keeps s0 (State.modeWrite s mode) := by
  unfold State.modeWrite
  (try dsimp only [State.fresh, State.freeVal])
  repeat' (first | with_reducible assumption | with_reducible apply State.setRegN_keeps | with_reducible apply State.pwrClear_keeps | with_reducible apply State.clkBit_keeps | with_reducible apply State.wantFreq_keeps | intro _ | (with_reducible refine Keeps.ite ?_ ?_) | split | (with_reducible refine Keeps.upd ?_ rfl rfl rfl ?_; rotate_left; (fail_if_success with_reducible exact Moved.refl _); exact Moved.any _ _) | dsimp only)

theorem execClkModeWrite_keeps {s0 : State} (mode : Bool) (s : State) (hk_s : Keeps s0 s) : KeepsRes s0 (execClkModeWrite mode s) := by
  unfold execClkModeWrite
  (try dsimp only [State.fresh, State.freeVal])
  repeat' (first | with_reducible assumption | with_reducible apply onDie_keeps | with_reducible apply State.modeWrite_keeps | intro _ | (with_reducible refine Keeps.ite ?_ ?_) | split | (with_reducible refine KeepsRes.next ?_) | (with_reducible refine Keeps.upd ?_ rfl rfl rfl ?_; rotate_left; (fail_if_success with_reducible exact Moved.refl _); exact Moved.any _ _) | dsimp only)

theorem State.limitWrite_keeps {s0 : State} (s : State) (fmin fmax : Nat) (hk_s : Keeps s0 s) : Keeps s0 (State.limitWrite s fmin fmax) := by
  unfold State.limitWrite
  (try dsimp only [State.fresh, State.freeVal])
  repeat' (first | with_reducible assumption | with_reducible apply State.setRegN_keeps | with_reducible apply State.eachDie_keeps | with_reducible apply State.wantFreq_keeps | with_reducible apply State.breakCadence_keeps | with_reducible apply Keeps.eachDie | intro _ | (with_reducible refine Keeps.ite ?_ ?_) | split | (with_reducible refine Keeps.upd ?_ rfl rfl rfl ?_; rotate_left; (fail_if_success with_reducible exact Moved.refl _); exact Moved.any _ _) | dsimp only)

theorem State.warnOn_keeps {s0 : State} (s : State) (d src : Nat) (hk_s : Keeps s0 s) : Keeps s0 (State.warnOn s d src) := by
  unfold State.warnOn
  (try dsimp only [State.fresh, State.freeVal])
  repeat' (first | with_reducible assumption | with_reducible apply State.setRbit_keeps | with_reducible apply State.eachDie_keeps | with_reducible apply State.bump_keeps | with_reducible apply State.pwrEvent_keeps | with_reducible apply State.setBrakes_keeps | with_reducible apply State.clkBit_keeps | with_reducible apply Keeps.eachDie | intro _ | (with_reducible refine Keeps.ite ?_ ?_) | split | (with_reducible refine Keeps.upd ?_ rfl rfl rfl ?_; rotate_left; (fail_if_success with_reducible exact Moved.refl _); exact Moved.any _ _) | dsimp only)

theorem State.warnOff_keeps {s0 : State} (s : State) (d src : Nat) (hk_s : Keeps s0 s) : Keeps s0 (State.warnOff s d src) := by
  unfold State.warnOff
  (try dsimp only [State.fresh, State.freeVal])
  repeat' (first | with_reducible assumption | with_reducible apply State.setRbit_keeps | intro _ | (with_reducible refine Keeps.ite ?_ ?_) | split | (with_reducible refine Keeps.upd ?_ rfl rfl rfl ?_; rotate_left; (fail_if_success with_reducible exact Moved.refl _); exact Moved.any _ _) | dsimp only)

theorem execUvwAssert_keeps {s0 : State} (d : Nat) (s : State) (hk_s : Keeps s0 s) : KeepsRes s0 (execUvwAssert d s) := by
  unfold execUvwAssert
  (try dsimp only [State.fresh, State.freeVal])
  repeat' (first | with_reducible assumption | with_reducible apply onDie_keeps | with_reducible apply State.warnOn_keeps | intro _ | (with_reducible refine Keeps.ite ?_ ?_) | split | (with_reducible refine KeepsRes.next ?_) | (with_reducible refine Keeps.upd ?_ rfl rfl rfl ?_; rotate_left; (fail_if_success with_reducible exact Moved.refl _); exact Moved.any _ _) | dsimp only)

theorem execUvwClear_keeps {s0 : State} (d : Nat) (s : State) (hk_s : Keeps s0 s) : KeepsRes s0 (execUvwClear d s) := by
  unfold execUvwClear
  (try dsimp only [State.fresh, State.freeVal])
  repeat' (first | with_reducible assumption | with_reducible apply onDie_keeps | with_reducible apply State.warnOff_keeps | intro _ | (with_reducible refine Keeps.ite ?_ ?_) | split | (with_reducible refine KeepsRes.next ?_) | (with_reducible refine Keeps.upd ?_ rfl rfl rfl ?_; rotate_left; (fail_if_success with_reducible exact Moved.refl _); exact Moved.any _ _) | dsimp only)

theorem execUvwHoldEnd_keeps {s0 : State} (s : State) (hk_s : Keeps s0 s) : KeepsRes s0 (execUvwHoldEnd s) := by
  unfold execUvwHoldEnd
  (try dsimp only [State.fresh, State.freeVal])
  repeat' (first | with_reducible assumption | with_reducible apply onDie_keeps | with_reducible apply State.eachDie_keeps | with_reducible apply State.bump_keeps | with_reducible apply State.pwrClear_keeps | with_reducible apply State.clkBit_keeps | with_reducible apply State.wakeFreq_keeps | with_reducible apply Keeps.eachDie | intro _ | (with_reducible refine Keeps.ite ?_ ?_) | split | (with_reducible refine KeepsRes.next ?_) | (with_reducible refine Keeps.upd ?_ rfl rfl rfl ?_; rotate_left; (fail_if_success with_reducible exact Moved.refl _); exact Moved.any _ _) | dsimp only)

theorem execVrRdyRise_keeps {s0 : State} (d : Nat) (s : State) (hk_s : Keeps s0 s) : KeepsRes s0 (execVrRdyRise d s) := by
  unfold execVrRdyRise
  (try dsimp only [State.fresh, State.freeVal])
  repeat' (first | with_reducible assumption | with_reducible apply onDie_keeps | with_reducible apply State.settleFreq_keeps | with_reducible apply State.warnOff_keeps | intro _ | (with_reducible refine Keeps.ite ?_ ?_) | split | (with_reducible refine KeepsRes.next ?_) | (with_reducible refine Keeps.upd ?_ rfl rfl rfl ?_; rotate_left; (fail_if_success with_reducible exact Moved.refl _); exact Moved.any _ _) | dsimp only)

theorem execVrRdyFall_keeps {s0 : State} (d : Nat) (s : State) (hk_s : Keeps s0 s) : KeepsRes s0 (execVrRdyFall d s) := by
  unfold execVrRdyFall
  (try dsimp only [State.fresh, State.freeVal])
  repeat' (first | with_reducible assumption | with_reducible apply onDie_keeps | with_reducible apply State.warnOn_keeps | intro _ | (with_reducible refine Keeps.ite ?_ ?_) | split | (with_reducible refine KeepsRes.next ?_) | (with_reducible refine Keeps.upd ?_ rfl rfl rfl ?_; rotate_left; (fail_if_success with_reducible exact Moved.refl _); exact Moved.any _ _) | dsimp only)

theorem State.stickyAdd_keeps {s0 : State} (s : State) (kind d : Nat) (detail : List Byte) (hk : Keeps s0 s) :
    Keeps s0 (s.stickyAdd kind d detail) := by
  unfold State.stickyAdd
  dsimp only
  apply Keeps.sticky hk
  rw [List.length_drop]
  omega

theorem State.trip_keeps {s0 : State} (s : State) (d sensor : Nat) (temp : Int) (hk_s : Keeps s0 s) : Keeps s0 (State.trip s d sensor temp) := by
  unfold State.trip
  (try dsimp only [State.fresh, State.freeVal])
  repeat' (first | with_reducible assumption | with_reducible apply State.setRegN_keeps | with_reducible apply State.eachDie_keeps | with_reducible apply State.emit_keeps | with_reducible apply State.portDown_keeps | with_reducible apply State.hostDown_keeps | with_reducible apply State.stickyAdd_keeps | with_reducible apply Keeps.eachDie | intro _ | (with_reducible refine Keeps.ite ?_ ?_) | split | (with_reducible refine Keeps.upd ?_ rfl rfl rfl ?_; rotate_left; (fail_if_success with_reducible exact Moved.refl _); exact Moved.any _ _) | dsimp only)

theorem State.throttle_keeps {s0 : State} (s : State) (d : Nat) (ts : List Int) (hk_s : Keeps s0 s) : Keeps s0 (State.throttle s d ts) := by
  unfold State.throttle
  (try dsimp only [State.fresh, State.freeVal])
  repeat' (first | with_reducible assumption | with_reducible apply State.setRbit_keeps | with_reducible apply State.pwrEvent_keeps | with_reducible apply State.pwrClear_keeps | intro _ | (with_reducible refine Keeps.ite ?_ ?_) | split | (with_reducible refine Keeps.snd ‹_› ?_) | (with_reducible refine Keeps.fst ‹_› ?_) | (with_reducible refine Keeps.upd ?_ rfl rfl rfl ?_; rotate_left; (fail_if_success with_reducible exact Moved.refl _); exact Moved.any _ _) | dsimp only)

theorem execThermalRead_keeps {s0 : State} (d : Nat) (sensors : List Int) (s : State) (hk_s : Keeps s0 s) : KeepsRes s0 (execThermalRead d sensors s) := by
  unfold execThermalRead
  (try dsimp only [State.fresh, State.freeVal])
  repeat' (first | with_reducible assumption | with_reducible apply onIsland_keeps | with_reducible apply State.setRegN_keeps | with_reducible apply State.trip_keeps | with_reducible apply State.throttle_keeps | intro _ | (with_reducible refine Keeps.ite ?_ ?_) | split | (with_reducible refine Keeps.snd ‹_› ?_) | (with_reducible refine Keeps.fst ‹_› ?_) | (with_reducible refine KeepsRes.next ?_) | (with_reducible refine Keeps.upd ?_ rfl rfl rfl ?_; rotate_left; (fail_if_success with_reducible exact Moved.refl _); exact Moved.any _ _) | dsimp only)

theorem execThrottleStep_keeps {s0 : State} (d : Nat) (s : State) (hk_s : Keeps s0 s) : KeepsRes s0 (execThrottleStep d s) := by
  unfold execThrottleStep
  (try dsimp only [State.fresh, State.freeVal])
  repeat' (first | with_reducible assumption | with_reducible apply onDie_keeps | with_reducible apply State.bump_keeps | with_reducible apply State.allocate_keeps | with_reducible apply State.breakCadence_keeps | intro _ | (with_reducible refine Keeps.ite ?_ ?_) | split | (with_reducible refine KeepsRes.next ?_) | (with_reducible refine Keeps.upd ?_ rfl rfl rfl ?_; rotate_left; (fail_if_success with_reducible exact Moved.refl _); exact Moved.any _ _) | dsimp only)

theorem execFanFail_keeps {s0 : State} (rpm : Nat) (s : State) (hk_s : Keeps s0 s) : KeepsRes s0 (execFanFail rpm s) := by
  unfold execFanFail
  (try dsimp only [State.fresh, State.freeVal])
  repeat' (first | with_reducible assumption | with_reducible apply onIsland_keeps | with_reducible apply State.setRegN_keeps | with_reducible apply State.pwrEvent_keeps | intro _ | (with_reducible refine Keeps.ite ?_ ?_) | split | (with_reducible refine KeepsRes.next ?_) | (with_reducible refine Keeps.upd ?_ rfl rfl rfl ?_; rotate_left; (fail_if_success with_reducible exact Moved.refl _); exact Moved.any _ _) | dsimp only)

theorem execFanRecover_keeps {s0 : State} (rpm : Nat) (s : State) (hk_s : Keeps s0 s) : KeepsRes s0 (execFanRecover rpm s) := by
  unfold execFanRecover
  (try dsimp only [State.fresh, State.freeVal])
  repeat' (first | with_reducible assumption | with_reducible apply onIsland_keeps | with_reducible apply State.setRegN_keeps | with_reducible apply State.pwrClear_keeps | intro _ | (with_reducible refine Keeps.ite ?_ ?_) | split | (with_reducible refine KeepsRes.next ?_) | (with_reducible refine Keeps.upd ?_ rfl rfl rfl ?_; rotate_left; (fail_if_success with_reducible exact Moved.refl _); exact Moved.any _ _) | dsimp only)

theorem State.setDomain_keeps {s0 : State} (s : State) (d dom : Nat) (b : Bool) (hk_s : Keeps s0 s) : Keeps s0 (State.setDomain s d dom b) := by
  unfold State.setDomain
  (try dsimp only [State.fresh, State.freeVal])
  repeat' (first | with_reducible assumption | with_reducible apply State.setRegPair_keeps | intro _ | (with_reducible refine Keeps.ite ?_ ?_) | split | (with_reducible refine Keeps.upd ?_ rfl rfl rfl ?_; rotate_left; (fail_if_success with_reducible exact Moved.refl _); exact Moved.any _ _) | dsimp only)

theorem State.wakeDomain_keeps {s0 : State} (s : State) (d dom : Nat) (hk_s : Keeps s0 s) : Keeps s0 (State.wakeDomain s d dom) := by
  unfold State.wakeDomain
  (try dsimp only [State.fresh, State.freeVal])
  repeat' (first | with_reducible assumption | with_reducible apply State.bump_keeps | with_reducible apply State.bumpFree_keeps | with_reducible apply State.setDomain_keeps | intro _ | (with_reducible refine Keeps.ite ?_ ?_) | split | (with_reducible refine Keeps.upd ?_ rfl rfl rfl ?_; rotate_left; (fail_if_success with_reducible exact Moved.refl _); exact Moved.any _ _) | dsimp only)

theorem execDomainStart_keeps {s0 : State} (d dom : Nat) (s : State) (hk_s : Keeps s0 s) : KeepsRes s0 (execDomainStart d dom s) := by
  unfold execDomainStart
  (try dsimp only [State.fresh, State.freeVal])
  repeat' (first | with_reducible assumption | with_reducible apply onDie_keeps | with_reducible apply State.wakeDomain_keeps | with_reducible apply Keeps.foldl | with_reducible apply Keeps.foldlFst | with_reducible apply Keeps.foldlSnd | intro _ | (with_reducible refine Keeps.ite ?_ ?_) | split | (with_reducible refine KeepsRes.next ?_) | (with_reducible refine Keeps.upd ?_ rfl rfl rfl ?_; rotate_left; (fail_if_success with_reducible exact Moved.refl _); exact Moved.any _ _) | dsimp only)

theorem execDomainStop_keeps {s0 : State} (d dom : Nat) (s : State) (hk_s : Keeps s0 s) : KeepsRes s0 (execDomainStop d dom s) := by
  unfold execDomainStop
  (try dsimp only [State.fresh, State.freeVal])
  repeat' (first | with_reducible assumption | with_reducible apply onDie_keeps | with_reducible apply State.bump_keeps | with_reducible apply State.setDomain_keeps | intro _ | (with_reducible refine Keeps.ite ?_ ?_) | split | (with_reducible refine KeepsRes.next ?_) | (with_reducible refine Keeps.upd ?_ rfl rfl rfl ?_; rotate_left; (fail_if_success with_reducible exact Moved.refl _); exact Moved.any _ _) | dsimp only)

end Sys2Proof.Machine
end

