-- ==== Sys2Proof/Laws/KeepsRegWrite.lean ====
section
/-! SUPPORT. What the operations of Machine/RegWrite.lean keep: the queue, the part and the invariant. -/

namespace Sys2Proof.Machine

theorem State.ringStart_keeps {s0 : State} (s : State) (r : Nat) (hk_s : Keeps s0 s) : Keeps s0 (State.ringStart s r) := by
  unfold State.ringStart
  (try dsimp only [State.fresh, State.freeVal])
  repeat' (first | with_reducible assumption | with_reducible apply State.resetRing_keeps | intro _ | (with_reducible refine Keeps.ite ?_ ?_) | split | (with_reducible refine Keeps.upd ?_ rfl rfl rfl ?_; rotate_left; (fail_if_success with_reducible exact Moved.refl _); exact Moved.any _ _) | dsimp only)

theorem State.ringStop_keeps {s0 : State} (s : State) (r : Nat) (hk_s : Keeps s0 s) : Keeps s0 (State.ringStop s r) := by
  unfold State.ringStop
  (try dsimp only [State.fresh, State.freeVal])
  repeat' (first | with_reducible assumption | with_reducible apply State.setRing_keeps | intro _ | (with_reducible refine Keeps.ite ?_ ?_) | split | (with_reducible refine Keeps.upd ?_ rfl rfl rfl ?_; rotate_left; (fail_if_success with_reducible exact Moved.refl _); exact Moved.any _ _) | dsimp only)

theorem State.ringCfgWrite_keeps {s0 : State} (s : State) (r v : Nat) (hk_s : Keeps s0 s) : Keeps s0 (State.ringCfgWrite s r v) := by
  unfold State.ringCfgWrite
  (try dsimp only [State.fresh, State.freeVal])
  repeat' (first | with_reducible assumption | with_reducible apply State.setRing_keeps | with_reducible apply State.ringStart_keeps | with_reducible apply State.ringStop_keeps | intro _ | (with_reducible refine Keeps.ite ?_ ?_) | split | (with_reducible refine Keeps.upd ?_ rfl rfl rfl ?_; rotate_left; (fail_if_success with_reducible exact Moved.refl _); exact Moved.any _ _) | dsimp only)

theorem execRingEnable_keeps {s0 : State} (ring : Nat) (cfg : W32) (s : State) (hk_s : Keeps s0 s) : KeepsRes s0 (execRingEnable ring cfg s) := by
  unfold execRingEnable
  (try dsimp only [State.fresh, State.freeVal])
  repeat' (first | with_reducible assumption | with_reducible apply onDie_keeps | with_reducible apply State.ringCfgWrite_keeps | intro _ | (with_reducible refine Keeps.ite ?_ ?_) | split | (with_reducible refine KeepsRes.next ?_) | (with_reducible refine Keeps.upd ?_ rfl rfl rfl ?_; rotate_left; (fail_if_success with_reducible exact Moved.refl _); exact Moved.any _ _) | dsimp only)

theorem execRingDisable_keeps {s0 : State} (ring : Nat) (s : State) (hk_s : Keeps s0 s) : KeepsRes s0 (execRingDisable ring s) := by
  unfold execRingDisable
  (try dsimp only [State.fresh, State.freeVal])
  repeat' (first | with_reducible assumption | with_reducible apply onDie_keeps | with_reducible apply State.ringStop_keeps | intro _ | (with_reducible refine Keeps.ite ?_ ?_) | split | (with_reducible refine KeepsRes.next ?_) | (with_reducible refine Keeps.upd ?_ rfl rfl rfl ?_; rotate_left; (fail_if_success with_reducible exact Moved.refl _); exact Moved.any _ _) | dsimp only)

theorem State.evqCfgWrite_keeps {s0 : State} (s : State) (p v : Nat) (hk_s : Keeps s0 s) : Keeps s0 (State.evqCfgWrite s p v) := by
  unfold State.evqCfgWrite
  (try dsimp only [State.fresh, State.freeVal])
  repeat' (first | with_reducible assumption | with_reducible apply State.setRegN_keeps | intro _ | (with_reducible refine Keeps.ite ?_ ?_) | split | (with_reducible refine Keeps.upd ?_ rfl rfl rfl ?_; rotate_left; (fail_if_success with_reducible exact Moved.refl _); exact Moved.any _ _) | dsimp only)

theorem execEvqEnable_keeps {s0 : State} (p : Nat) (cfg : W32) (s : State) (hk_s : Keeps s0 s) : KeepsRes s0 (execEvqEnable p cfg s) := by
  unfold execEvqEnable
  (try dsimp only [State.fresh, State.freeVal])
  repeat' (first | with_reducible assumption | with_reducible apply onDie_keeps | with_reducible apply State.evqCfgWrite_keeps | intro _ | (with_reducible refine Keeps.ite ?_ ?_) | split | (with_reducible refine KeepsRes.next ?_) | (with_reducible refine Keeps.upd ?_ rfl rfl rfl ?_; rotate_left; (fail_if_success with_reducible exact Moved.refl _); exact Moved.any _ _) | dsimp only)

theorem State.peakClear_keeps {s0 : State} (s : State) (d v : Nat) (hk_s : Keeps s0 s) : Keeps s0 (State.peakClear s d v) := by
  unfold State.peakClear
  (try dsimp only [State.fresh, State.freeVal])
  repeat' (first | with_reducible assumption | with_reducible apply State.setRegN_keeps | with_reducible apply Keeps.foldl | with_reducible apply Keeps.foldlFst | with_reducible apply Keeps.foldlSnd | intro _ | (with_reducible refine Keeps.ite ?_ ?_) | split | (with_reducible refine Keeps.upd ?_ rfl rfl rfl ?_; rotate_left; (fail_if_success with_reducible exact Moved.refl _); exact Moved.any _ _) | dsimp only)

theorem execSeqActPeakClr_keeps {s0 : State} (d : Nat) (value : W32) (s : State) (hk_s : Keeps s0 s) : KeepsRes s0 (execSeqActPeakClr d value s) := by
  unfold execSeqActPeakClr
  (try dsimp only [State.fresh, State.freeVal])
  repeat' (first | with_reducible assumption | with_reducible apply onDie_keeps | with_reducible apply State.peakClear_keeps | intro _ | (with_reducible refine Keeps.ite ?_ ?_) | split | (with_reducible refine KeepsRes.next ?_) | (with_reducible refine Keeps.upd ?_ rfl rfl rfl ?_; rotate_left; (fail_if_success with_reducible exact Moved.refl _); exact Moved.any _ _) | dsimp only)

theorem State.rasLogClear_keeps {s0 : State} (s : State) (d v : Nat) (hk_s : Keeps s0 s) : Keeps s0 (State.rasLogClear s d v) := by
  unfold State.rasLogClear
  (try dsimp only [State.fresh, State.freeVal])
  repeat' (first | with_reducible assumption | with_reducible apply State.setRegN_keeps | intro _ | (with_reducible refine Keeps.ite ?_ ?_) | split | (with_reducible refine Keeps.upd ?_ rfl rfl rfl ?_; rotate_left; (fail_if_success with_reducible exact Moved.refl _); exact Moved.any _ _) | dsimp only)

theorem execRasLogClr_keeps {s0 : State} (d : Nat) (value : W32) (s : State) (hk_s : Keeps s0 s) : KeepsRes s0 (execRasLogClr d value s) := by
  unfold execRasLogClr
  (try dsimp only [State.fresh, State.freeVal])
  repeat' (first | with_reducible assumption | with_reducible apply onDie_keeps | with_reducible apply State.rasLogClear_keeps | intro _ | (with_reducible refine Keeps.ite ?_ ?_) | split | (with_reducible refine KeepsRes.next ?_) | (with_reducible refine Keeps.upd ?_ rfl rfl rfl ?_; rotate_left; (fail_if_success with_reducible exact Moved.refl _); exact Moved.any _ _) | dsimp only)

theorem State.lostClear_keeps {s0 : State} (s : State) (d v : Nat) (hk_s : Keeps s0 s) : Keeps s0 (State.lostClear s d v) := by
  unfold State.lostClear
  (try dsimp only [State.fresh, State.freeVal])
  repeat' (first | with_reducible assumption | with_reducible apply State.setRegN_keeps | with_reducible apply State.setCtr_keeps | intro _ | (with_reducible refine Keeps.ite ?_ ?_) | split | (with_reducible refine Keeps.upd ?_ rfl rfl rfl ?_; rotate_left; (fail_if_success with_reducible exact Moved.refl _); exact Moved.any _ _) | dsimp only)

theorem execGrdLostClr_keeps {s0 : State} (d : Nat) (value : W32) (s : State) (hk_s : Keeps s0 s) : KeepsRes s0 (execGrdLostClr d value s) := by
  unfold execGrdLostClr
  (try dsimp only [State.fresh, State.freeVal])
  repeat' (first | with_reducible assumption | with_reducible apply onDie_keeps | with_reducible apply State.lostClear_keeps | intro _ | (with_reducible refine Keeps.ite ?_ ?_) | split | (with_reducible refine KeepsRes.next ?_) | (with_reducible refine Keeps.upd ?_ rfl rfl rfl ?_; rotate_left; (fail_if_success with_reducible exact Moved.refl _); exact Moved.any _ _) | dsimp only)

theorem State.clearCounters_keeps {s0 : State} (s : State) (d off v incs : Nat) (hk_s : Keeps s0 s) : Keeps s0 (State.clearCounters s d off v incs) := by
  unfold State.clearCounters
  (try dsimp only [State.fresh, State.freeVal])
  repeat' (first | with_reducible assumption | with_reducible apply State.setCtr_keeps | with_reducible apply Keeps.foldl | with_reducible apply Keeps.foldlFst | with_reducible apply Keeps.foldlSnd | intro _ | (with_reducible refine Keeps.ite ?_ ?_) | split | (with_reducible refine Keeps.upd ?_ rfl rfl rfl ?_; rotate_left; (fail_if_success with_reducible exact Moved.refl _); exact Moved.any _ _) | dsimp only)

theorem execCounterClear_keeps {s0 : State} (d off : Nat) (value : W32) (incs : W32) (s : State) (hk_s : Keeps s0 s) : KeepsRes s0 (execCounterClear d off value incs s) := by
  unfold execCounterClear
  (try dsimp only [State.fresh, State.freeVal])
  repeat' (first | with_reducible assumption | with_reducible apply onDie_keeps | with_reducible apply State.clearCounters_keeps | intro _ | (with_reducible refine Keeps.ite ?_ ?_) | split | (with_reducible refine KeepsRes.next ?_) | (with_reducible refine Keeps.upd ?_ rfl rfl rfl ?_; rotate_left; (fail_if_success with_reducible exact Moved.refl _); exact Moved.any _ _) | dsimp only)

theorem State.clearBits_keeps {s0 : State} (s : State) (d off v sets : Nat) (hk_s : Keeps s0 s) : Keeps s0 (State.clearBits s d off v sets) := by
  unfold State.clearBits
  (try dsimp only [State.fresh, State.freeVal])
  repeat' (first | with_reducible assumption | with_reducible apply State.setRegN_keeps | with_reducible apply State.land_keeps | intro _ | (with_reducible refine Keeps.ite ?_ ?_) | split | (with_reducible refine Keeps.snd ‹_› ?_) | (with_reducible refine Keeps.fst ‹_› ?_) | (with_reducible refine Keeps.upd ?_ rfl rfl rfl ?_; rotate_left; (fail_if_success with_reducible exact Moved.refl _); exact Moved.any _ _) | dsimp only)

theorem execW1cClear_keeps {s0 : State} (d off : Nat) (value : W32) (sets : W32) (s : State) (hk_s : Keeps s0 s) : KeepsRes s0 (execW1cClear d off value sets s) := by
  unfold execW1cClear
  (try dsimp only [State.fresh, State.freeVal])
  repeat' (first | with_reducible assumption | with_reducible apply onDie_keeps | with_reducible apply State.clearBits_keeps | intro _ | (with_reducible refine Keeps.ite ?_ ?_) | split | (with_reducible refine KeepsRes.next ?_) | (with_reducible refine Keeps.upd ?_ rfl rfl rfl ?_; rotate_left; (fail_if_success with_reducible exact Moved.refl _); exact Moved.any _ _) | dsimp only)

theorem State.hstCtrlWrite_keeps {s0 : State} (s : State) (v : Nat) (hk_s : Keeps s0 s) : Keeps s0 (State.hstCtrlWrite s v) := by
  unfold State.hstCtrlWrite
  (try dsimp only [State.fresh, State.freeVal])
  repeat' (first | with_reducible assumption | with_reducible apply State.setRbit_keeps | with_reducible apply State.biasStart_keeps | with_reducible apply State.biasStop_keeps | intro _ | (with_reducible refine Keeps.ite ?_ ?_) | split | (with_reducible refine Keeps.upd ?_ rfl rfl rfl ?_; rotate_left; (fail_if_success with_reducible exact Moved.refl _); exact Moved.any _ _) | dsimp only)

theorem State.flCtrlWrite_keeps {s0 : State} (s : State) (d v : Nat) (hk_s : Keeps s0 s) : Keeps s0 (State.flCtrlWrite s d v) := by
  unfold State.flCtrlWrite
  (try dsimp only [State.fresh, State.freeVal])
  repeat' (first | with_reducible assumption | with_reducible apply State.setRegN_keeps | with_reducible apply State.emit_keeps | with_reducible apply State.flashGone_keeps | intro _ | (with_reducible refine Keeps.ite ?_ ?_) | split | (with_reducible refine Keeps.upd ?_ rfl rfl rfl ?_; rotate_left; (fail_if_success with_reducible exact Moved.refl _); exact Moved.any _ _) | dsimp only)

theorem State.wroteOnly_keeps {s0 : State} (s : State) (d off v : Nat) (hk : Keeps s0 s) : ∀ t, s.wroteOnly d off v = some t → Keeps s0 t := by
  unfold State.wroteOnly
  refine keeps_optIte (keeps_some (State.peakClear_keeps _ _ _ hk)) (keeps_optIte (keeps_some (State.rasLogClear_keeps _ _ _ hk)) (keeps_optIte (keeps_some (State.lostClear_keeps _ _ _ hk)) ?_))
  refine keeps_optIte (keeps_some (Keeps.ite (State.fence_keeps _ _ _ _ hk) hk)) (keeps_optIte (keeps_some (State.giveBack_keeps _ _ _ hk)) (keeps_optIte (keeps_some (State.declare_keeps _ _ hk)) ?_))
  refine keeps_optIte (keeps_some (State.d2dCmdWrite_keeps _ _ _ hk)) (keeps_optIte ?_ ?_)
  · have h1 : Keeps s0 (if bit v 0 = true then s.retrainPort d else s) := Keeps.ite (State.retrainPort_keeps _ _ hk) hk
    exact keeps_some (Keeps.ite (State.widenStart_keeps _ _ h1) h1)
  · refine keeps_optIte (keeps_some (Keeps.ite (State.biasCmd_keeps _ _ hk) (Keeps.ite (State.biasCmd_keeps _ _ hk) hk))) ?_
    exact keeps_optIte (keeps_some (State.clearCounters_keeps _ _ _ _ _ hk)) keeps_none

theorem State.regStore_keeps {s0 : State} (s : State) (d off v : Nat) (hk_s : Keeps s0 s) : Keeps s0 (State.regStore s d off v) := by
  unfold State.regStore
  (try dsimp only [State.fresh, State.freeVal])
  repeat' (first | with_reducible assumption | with_reducible apply State.setRegN_keeps | with_reducible apply State.wheelOff_keeps | with_reducible apply State.cmtOff_keeps | with_reducible apply State.xtOff_keeps | with_reducible apply State.partCfgWrite_keeps | with_reducible apply State.partMaskWrite_keeps | with_reducible apply State.weirCtrlWrite_keeps | with_reducible apply State.srvCtrlWrite_keeps | with_reducible apply State.capUpdate_keeps | with_reducible apply State.modeWrite_keeps | with_reducible apply State.ringCfgWrite_keeps | with_reducible apply State.evqCfgWrite_keeps | with_reducible apply State.hstCtrlWrite_keeps | with_reducible apply State.flCtrlWrite_keeps | intro _ | (with_reducible refine Keeps.ite ?_ ?_) | split | (with_reducible refine Keeps.snd ‹_› ?_) | (with_reducible refine Keeps.fst ‹_› ?_) | (with_reducible refine Keeps.upd ?_ rfl rfl rfl ?_; rotate_left; (fail_if_success with_reducible exact Moved.refl _); exact Moved.any _ _) | dsimp only)

theorem State.guardSet_keeps {s0 : State} (s : State) (d off v : Nat) (hk_s : Keeps s0 s) : Keeps s0 (State.guardSet s d off v) := by
  unfold State.guardSet
  (try dsimp only [State.fresh, State.freeVal])
  repeat' (first | with_reducible assumption | with_reducible apply State.setRegN_keeps | with_reducible apply State.capUpdate_keeps | intro _ | (with_reducible refine Keeps.ite ?_ ?_) | split | (with_reducible refine Keeps.upd ?_ rfl rfl rfl ?_; rotate_left; (fail_if_success with_reducible exact Moved.refl _); exact Moved.any _ _) | dsimp only)

theorem State.guardLimit_keeps {s0 : State} (s : State) (fmin fmax : Nat) (hk_s : Keeps s0 s) : Keeps s0 (State.guardLimit s fmin fmax) := by
  unfold State.guardLimit
  (try dsimp only [State.fresh, State.freeVal])
  repeat' (first | with_reducible assumption | with_reducible apply State.eachDie_keeps | with_reducible apply State.limitWrite_keeps | with_reducible apply State.guardSet_keeps | with_reducible apply Keeps.eachDie | intro _ | (with_reducible refine Keeps.ite ?_ ?_) | split | (with_reducible refine Keeps.upd ?_ rfl rfl rfl ?_; rotate_left; (fail_if_success with_reducible exact Moved.refl _); exact Moved.any _ _) | dsimp only)

theorem State.hostWrite_keeps {s0 : State} (s : State) (off v : Nat) (hk : Keeps s0 s) : ∀ t, s.hostWrite off v = some t → Keeps s0 t := by
  intro t e
  unfold State.hostWrite at e
  repeat' (split at e)
  all_goals (first | (cases e; done) | skip)
  all_goals (injection e with e; rw [← e])
  · apply State.sendPending_keeps
    exact hk.same rfl rfl rfl rfl rfl rfl rfl
  · exact hk.same rfl rfl rfl rfl rfl rfl rfl

theorem State.vfWrite_keeps {s0 : State} (s : State) (n off v : Nat) (hk_s : Keeps s0 s) : Keeps s0 (State.vfWrite s n off v) := by
  unfold State.vfWrite
  (try dsimp only [State.fresh, State.freeVal])
  repeat' (first | with_reducible assumption | with_reducible apply State.setRegN_keeps | with_reducible apply State.mbBell_keeps | with_reducible apply State.sendPending_keeps | intro _ | (with_reducible refine Keeps.ite ?_ ?_) | split | (with_reducible refine Keeps.snd ‹_› ?_) | (with_reducible refine Keeps.fst ‹_› ?_) | (with_reducible refine Keeps.upd ?_ rfl rfl rfl ?_; rotate_left; (fail_if_success with_reducible exact Moved.refl _); exact Moved.any _ _) | dsimp only)

theorem State.sysWrite_keeps {s0 : State} (s : State) (m : Master) (d off v : Nat) (hk : Keeps s0 s) : Keeps s0 (s.sysWrite m d off v) := by
  unfold State.sysWrite
  have hh : ∀ t, (if d = 0 then s.hostWrite off v else none) = some t → Keeps s0 t :=
    keeps_optIte (State.hostWrite_keeps s off v hk) keeps_none
  have hw := State.wroteOnly_keeps s d off v hk
  split
  · exact hk
  · split
    · exact hh _ ‹_›
    · exact hw _ ‹_›
    · exact State.mbBell_keeps _ _ _ _ hk
    · exact hk
    · dsimp only
      repeat' (first | with_reducible assumption | with_reducible apply Keeps.ite | with_reducible apply State.lostWrite_keeps | with_reducible apply State.guardLimit_keeps | with_reducible apply State.guardSet_keeps | with_reducible apply State.clearBits_keeps | with_reducible apply State.lockedWrite_keeps | with_reducible apply State.regStore_keeps | with_reducible apply State.setTdi_keeps | split)

theorem State.regWrite1_keeps {s0 : State} (s : State) (w : RegWrite) (hk_s : Keeps s0 s) : Keeps s0 (State.regWrite1 s w) := by
  unfold State.regWrite1
  (try dsimp only [State.fresh, State.freeVal])
  repeat' (first | with_reducible assumption | with_reducible apply State.vfWrite_keeps | with_reducible apply State.sysWrite_keeps | intro _ | (with_reducible refine Keeps.ite ?_ ?_) | split | (with_reducible refine Keeps.snd ‹_› ?_) | (with_reducible refine Keeps.fst ‹_› ?_) | (with_reducible refine Keeps.upd ?_ rfl rfl rfl ?_; rotate_left; (fail_if_success with_reducible exact Moved.refl _); exact Moved.any _ _) | dsimp only)

theorem State.twoBells_keeps {s0 : State} (s : State) (m : Nat) (a b : RegWrite) (hk_s : Keeps s0 s) : Keeps s0 (State.twoBells s m a b) := by
  unfold State.twoBells
  (try dsimp only [State.fresh, State.freeVal])
  repeat' (first | with_reducible assumption | with_reducible apply State.setRbit_keeps | with_reducible apply State.lostWrite_keeps | with_reducible apply State.mbBell_keeps | intro _ | (with_reducible refine Keeps.ite ?_ ?_) | split | (with_reducible refine Keeps.snd ‹_› ?_) | (with_reducible refine Keeps.fst ‹_› ?_) | (with_reducible refine Keeps.upd ?_ rfl rfl rfl ?_; rotate_left; (fail_if_success with_reducible exact Moved.refl _); exact Moved.any _ _) | dsimp only)

theorem State.regWrite2_keeps {s0 : State} (s : State) (a b : RegWrite) (hk_s : Keeps s0 s) : Keeps s0 (State.regWrite2 s a b) := by
  unfold State.regWrite2
  (try dsimp only [State.fresh, State.freeVal])
  repeat' (first | with_reducible assumption | with_reducible apply State.lostWrite_keeps | with_reducible apply State.regWrite1_keeps | with_reducible apply State.twoBells_keeps | intro _ | (with_reducible refine Keeps.ite ?_ ?_) | split | (with_reducible refine Keeps.snd ‹_› ?_) | (with_reducible refine Keeps.fst ‹_› ?_) | (with_reducible refine Keeps.upd ?_ rfl rfl rfl ?_; rotate_left; (fail_if_success with_reducible exact Moved.refl _); exact Moved.any _ _) | dsimp only)

theorem execRegisterWrite_keeps {s0 : State} (w : RegWrite) (rival : Option RegWrite) (s : State) (hk_s : Keeps s0 s) : KeepsRes s0 (execRegisterWrite w rival s) := by
  unfold execRegisterWrite
  (try dsimp only [State.fresh, State.freeVal])
  repeat' (first | with_reducible assumption | with_reducible apply live_keeps | with_reducible apply State.regWrite1_keeps | with_reducible apply State.regWrite2_keeps | intro _ | (with_reducible refine Keeps.ite ?_ ?_) | split | (with_reducible refine Keeps.snd ‹_› ?_) | (with_reducible refine Keeps.fst ‹_› ?_) | (with_reducible refine KeepsRes.next ?_) | (with_reducible refine Keeps.upd ?_ rfl rfl rfl ?_; rotate_left; (fail_if_success with_reducible exact Moved.refl _); exact Moved.any _ _) | dsimp only)

theorem State.afterFence_keeps {s0 : State} (s t : State) (d : Nat) (w : RegWrite) (hk_s : Keeps s0 s) (hk_t : Keeps s0 t) : Keeps s0 (State.afterFence s t d w) := by
  unfold State.afterFence
  (try dsimp only [State.fresh, State.freeVal])
  repeat' (first | with_reducible assumption | with_reducible apply State.lostWrite_keeps | with_reducible apply State.regWrite1_keeps | intro _ | (with_reducible refine Keeps.ite ?_ ?_) | split | (with_reducible refine Keeps.snd ‹_› ?_) | (with_reducible refine Keeps.fst ‹_› ?_) | (with_reducible refine Keeps.upd ?_ rfl rfl rfl ?_; rotate_left; (fail_if_success with_reducible exact Moved.refl _); exact Moved.any _ _) | dsimp only)

theorem State.fenceMeeting_keeps {s0 : State} (s : State) (hit : Bool) (d u cause : Nat) (rival : Option RegWrite) (hk_s : Keeps s0 s) : Keeps s0 (State.fenceMeeting s hit d u cause rival) := by
  unfold State.fenceMeeting
  (try dsimp only [State.fresh, State.freeVal])
  repeat' (first | with_reducible assumption | with_reducible apply State.fence_keeps | with_reducible apply State.afterFence_keeps | intro _ | (with_reducible refine Keeps.ite ?_ ?_) | split | (with_reducible refine Keeps.snd ‹_› ?_) | (with_reducible refine Keeps.fst ‹_› ?_) | (with_reducible refine Keeps.upd ?_ rfl rfl rfl ?_; rotate_left; (fail_if_success with_reducible exact Moved.refl _); exact Moved.any _ _) | dsimp only)

theorem execUnitFence_keeps {s0 : State} (x : FenceAt) (unit cause : Nat) (s : State) (hk_s : Keeps s0 s) : KeepsRes s0 (execUnitFence x unit cause s) := by
  unfold execUnitFence
  (try dsimp only [State.fresh, State.freeVal])
  repeat' (first | with_reducible assumption | with_reducible apply onDie_keeps | with_reducible apply State.fenceMeeting_keeps | intro _ | (with_reducible refine Keeps.ite ?_ ?_) | split | (with_reducible refine KeepsRes.next ?_) | (with_reducible refine Keeps.upd ?_ rfl rfl rfl ?_; rotate_left; (fail_if_success with_reducible exact Moved.refl _); exact Moved.any _ _) | dsimp only)

theorem execProgressWatchdog_keeps {s0 : State} (x : FenceAt) (unit : Nat) (s : State) (hk_s : Keeps s0 s) : KeepsRes s0 (execProgressWatchdog x unit s) := by
  unfold execProgressWatchdog
  (try dsimp only [State.fresh, State.freeVal])
  repeat' (first | with_reducible assumption | with_reducible apply onDie_keeps | with_reducible apply State.fenceMeeting_keeps | intro _ | (with_reducible refine Keeps.ite ?_ ?_) | split | (with_reducible refine KeepsRes.next ?_) | (with_reducible refine Keeps.upd ?_ rfl rfl rfl ?_; rotate_left; (fail_if_success with_reducible exact Moved.refl _); exact Moved.any _ _) | dsimp only)

theorem execRasFence_keeps {s0 : State} (x : FenceAt) (value : W32) (s : State) (hk_s : Keeps s0 s) : KeepsRes s0 (execRasFence x value s) := by
  unfold execRasFence
  (try dsimp only [State.fresh, State.freeVal])
  repeat' (first | with_reducible assumption | with_reducible apply onDie_keeps | with_reducible apply State.fenceMeeting_keeps | intro _ | (with_reducible refine Keeps.ite ?_ ?_) | split | (with_reducible refine KeepsRes.next ?_) | (with_reducible refine Keeps.upd ?_ rfl rfl rfl ?_; rotate_left; (fail_if_success with_reducible exact Moved.refl _); exact Moved.any _ _) | dsimp only)

end Sys2Proof.Machine
end

