-- ==== Sys2Proof/Laws/KeepsReset.lean ====
section
/-! SUPPORT. What the operations of Machine/Reset.lean keep: the queue, the part and the invariant. -/

namespace Sys2Proof.Machine

theorem State.dropRegs_keeps {s0 : State} (s : State) (d : Nat) (keep : Nat → Bool) (hk_s : Keeps s0 s) : Keeps s0 (State.dropRegs s d keep) := by
  unfold State.dropRegs
  (try dsimp only [State.fresh, State.freeVal])
  repeat' (first | with_reducible assumption | intro _ | (with_reducible refine Keeps.ite ?_ ?_) | split | (with_reducible refine Keeps.upd ?_ rfl rfl rfl ?_; rotate_left; (fail_if_success with_reducible exact Moved.refl _); exact Moved.any _ _) | dsimp only)

theorem State.rasAfterWarm_keeps {s0 : State} (s : State) (d : Nat) (hk_s : Keeps s0 s) : Keeps s0 (State.rasAfterWarm s d) := by
  unfold State.rasAfterWarm
  (try dsimp only [State.fresh, State.freeVal])
  repeat' (first | with_reducible assumption | with_reducible apply State.setRegN_keeps | with_reducible apply State.fencedBit_keeps | with_reducible apply Keeps.foldl | with_reducible apply Keeps.foldlFst | with_reducible apply Keeps.foldlSnd | intro _ | (with_reducible refine Keeps.ite ?_ ?_) | split | (with_reducible refine Keeps.upd ?_ rfl rfl rfl ?_; rotate_left; (fail_if_success with_reducible exact Moved.refl _); exact Moved.any _ _) | dsimp only)

theorem State.clearDie_keeps {s0 : State} (s : State) (d : Nat) (hk_s : Keeps s0 s) : Keeps s0 (State.clearDie s d) := by
  unfold State.clearDie
  (try dsimp only [State.fresh, State.freeVal])
  repeat' (first | with_reducible assumption | intro _ | (with_reducible refine Keeps.ite ?_ ?_) | split | (with_reducible refine Keeps.upd ?_ rfl rfl rfl ?_; rotate_left; (fail_if_success with_reducible exact Moved.refl _); exact Moved.any _ _) | dsimp only)

theorem State.hostReset_keeps {s0 : State} (s : State) (hk_s : Keeps s0 s) : Keeps s0 (State.hostReset s) := by
  unfold State.hostReset
  (try dsimp only [State.fresh, State.freeVal])
  repeat' (first | with_reducible assumption | with_reducible apply State.hostDown_keeps | intro _ | (with_reducible refine Keeps.ite ?_ ?_) | split | (with_reducible refine Keeps.upd ?_ rfl rfl rfl ?_; rotate_left; (fail_if_success with_reducible exact Moved.refl _); exact Moved.any _ _) | dsimp only)

theorem State.clearPackage_keeps {s0 : State} (s : State) (hk_s : Keeps s0 s) : Keeps s0 (State.clearPackage s) := by
  unfold State.clearPackage
  (try dsimp only [State.fresh, State.freeVal])
  repeat' (first | with_reducible assumption | with_reducible apply State.hostReset_keeps | intro _ | (with_reducible refine Keeps.ite ?_ ?_) | split | (with_reducible refine Keeps.upd ?_ rfl rfl rfl ?_; rotate_left; (fail_if_success with_reducible exact Moved.refl _); exact Moved.any _ _) | dsimp only)

theorem State.coldPackage_keeps {s0 : State} (s : State) (hk : Keeps s0 s) : Keeps s0 s.coldPackage := by
  unfold State.coldPackage
  have h1 : Keeps s0 { s with grd := { Grd.reset with slots := s.grd.slots, sticky := s.grd.sticky }, measLog := MeasLog.reset, measuring := [], ras := { s.ras with degraded := [] }, eths := s.eths.map fun (e : Eth) => { e with sas := [] } } := by
    refine ⟨hk.pending, hk.part, fun i => ?_⟩
    obtain ⟨hm, hl, hs, hf, hb⟩ := hk.inv i
    exact ⟨hm, Nat.zero_le _, hs, List.nodup_nil, fun x hx => by cases hx⟩
  have h2 := Keeps.ite (c := (s.tripped || s.stage_ == 0xF) = true) (State.emit_keeps _ (.pin "FAULT_N" 0 true) h1) h1
  exact Keeps.same h2 rfl rfl rfl rfl rfl rfl rfl

theorem State.resetDie_keeps {s0 : State} (s : State) (d : Nat) (cold : Bool) (hk_s : Keeps s0 s) : Keeps s0 (State.resetDie s d cold) := by
  unfold State.resetDie
  (try dsimp only [State.fresh, State.freeVal])
  repeat' (first | with_reducible assumption | with_reducible apply State.wipe_keeps | with_reducible apply State.dropRegs_keeps | with_reducible apply State.rasAfterWarm_keeps | with_reducible apply State.clearDie_keeps | with_reducible apply State.clearPackage_keeps | intro _ | (with_reducible refine Keeps.ite ?_ ?_) | split | (with_reducible refine Keeps.upd ?_ rfl rfl rfl ?_; rotate_left; (fail_if_success with_reducible exact Moved.refl _); exact Moved.any _ _) | dsimp only)

theorem State.startReset_keeps {s0 : State} (s : State) (ds : List Nat) (cold : Bool) (cause : Nat) (hk_s : Keeps s0 s) : Keeps s0 (State.startReset s ds cold cause) := by
  unfold State.startReset
  (try dsimp only [State.fresh, State.freeVal])
  repeat' (first | with_reducible assumption | with_reducible apply State.emit_keeps | with_reducible apply State.abandonPort_keeps | with_reducible apply State.resetDie_keeps | with_reducible apply Keeps.foldl | with_reducible apply Keeps.foldlFst | with_reducible apply Keeps.foldlSnd | intro _ | (with_reducible refine Keeps.ite ?_ ?_) | split | (with_reducible refine Keeps.upd ?_ rfl rfl rfl ?_; rotate_left; (fail_if_success with_reducible exact Moved.refl _); exact Moved.any _ _) | dsimp only)

theorem State.coldStart_keeps {s0 : State} (s : State) (cause : Nat) (straps : W32) (hk_s : Keeps s0 s) : Keeps s0 (State.coldStart s cause straps) := by
  unfold State.coldStart
  (try dsimp only [State.fresh, State.freeVal])
  repeat' (first | with_reducible assumption | with_reducible apply State.setRegN_keeps | with_reducible apply State.coldPackage_keeps | with_reducible apply State.startReset_keeps | with_reducible apply Keeps.foldl | with_reducible apply Keeps.foldlFst | with_reducible apply Keeps.foldlSnd | intro _ | (with_reducible refine Keeps.ite ?_ ?_) | split | (with_reducible refine Keeps.upd ?_ rfl rfl rfl ?_; rotate_left; (fail_if_success with_reducible exact Moved.refl _); exact Moved.any _ _) | dsimp only)

theorem execPowerOn_keeps {s0 : State} (straps : W32) (s : State) (hk_s : Keeps s0 s) : KeepsRes s0 (execPowerOn straps s) := by
  unfold execPowerOn
  (try dsimp only [State.fresh, State.freeVal])
  repeat' (first | with_reducible assumption | with_reducible apply State.coldStart_keeps | intro _ | (with_reducible refine Keeps.ite ?_ ?_) | split | (with_reducible refine KeepsRes.next ?_) | (with_reducible refine Keeps.upd ?_ rfl rfl rfl ?_; rotate_left; (fail_if_success with_reducible exact Moved.refl _); exact Moved.any _ _) | dsimp only)

theorem State.flashLost_keeps {s0 : State} (s : State) (hk_s : Keeps s0 s) : Keeps s0 (State.flashLost s) := by
  unfold State.flashLost
  (try dsimp only [State.fresh, State.freeVal])
  repeat' (first | with_reducible assumption | with_reducible apply State.blurUnit_keeps | with_reducible apply Keeps.foldl | with_reducible apply Keeps.foldlFst | with_reducible apply Keeps.foldlSnd | intro _ | (with_reducible refine Keeps.ite ?_ ?_) | split | (with_reducible refine Keeps.upd ?_ rfl rfl rfl ?_; rotate_left; (fail_if_success with_reducible exact Moved.refl _); exact Moved.any _ _) | dsimp only)

theorem execPwrgoodFall_keeps {s0 : State} (s : State) (hk_s : Keeps s0 s) : KeepsRes s0 (execPwrgoodFall s) := by
  unfold execPwrgoodFall
  (try dsimp only [State.fresh, State.freeVal])
  repeat' (first | with_reducible assumption | with_reducible apply State.coldPackage_keeps | with_reducible apply State.startReset_keeps | with_reducible apply State.flashLost_keeps | intro _ | (with_reducible refine Keeps.ite ?_ ?_) | split | (with_reducible refine KeepsRes.next ?_) | (with_reducible refine Keeps.upd ?_ rfl rfl rfl ?_; rotate_left; (fail_if_success with_reducible exact Moved.refl _); exact Moved.any _ _) | dsimp only)

theorem execColdReset_keeps {s0 : State} (pin : Bool) (straps : W32) (s : State) (hk_s : Keeps s0 s) : KeepsRes s0 (execColdReset pin straps s) := by
  unfold execColdReset
  (try dsimp only [State.fresh, State.freeVal])
  repeat' (first | with_reducible assumption | with_reducible apply State.coldStart_keeps | intro _ | (with_reducible refine Keeps.ite ?_ ?_) | split | (with_reducible refine KeepsRes.next ?_) | (with_reducible refine Keeps.upd ?_ rfl rfl rfl ?_; rotate_left; (fail_if_success with_reducible exact Moved.refl _); exact Moved.any _ _) | dsimp only)

theorem execWarmReset_keeps {s0 : State} (pin : Bool) (s : State) (hk_s : Keeps s0 s) : KeepsRes s0 (execWarmReset pin s) := by
  unfold execWarmReset
  (try dsimp only [State.fresh, State.freeVal])
  repeat' (first | with_reducible assumption | with_reducible apply live_keeps | with_reducible apply State.startReset_keeps | intro _ | (with_reducible refine Keeps.ite ?_ ?_) | split | (with_reducible refine KeepsRes.next ?_) | (with_reducible refine Keeps.upd ?_ rfl rfl rfl ?_; rotate_left; (fail_if_success with_reducible exact Moved.refl _); exact Moved.any _ _) | dsimp only)

theorem State.warmDie_keeps {s0 : State} (s : State) (d : Nat) (hk_s : Keeps s0 s) : Keeps s0 (State.warmDie s d) := by
  unfold State.warmDie
  (try dsimp only [State.fresh, State.freeVal])
  repeat' (first | with_reducible assumption | with_reducible apply State.setRegN_keeps | with_reducible apply State.setRbit_keeps | with_reducible apply State.meshNote_keeps | with_reducible apply State.torusDown_keeps | with_reducible apply State.startReset_keeps | intro _ | (with_reducible refine Keeps.ite ?_ ?_) | split | (with_reducible refine Keeps.snd ‹_› ?_) | (with_reducible refine Keeps.fst ‹_› ?_) | (with_reducible refine Keeps.upd ?_ rfl rfl rfl ?_; rotate_left; (fail_if_success with_reducible exact Moved.refl _); exact Moved.any _ _) | dsimp only)

theorem execDieWarmReset_keeps {s0 : State} (d : Nat) (s : State) (hk_s : Keeps s0 s) : KeepsRes s0 (execDieWarmReset d s) := by
  unfold execDieWarmReset
  (try dsimp only [State.fresh, State.freeVal])
  repeat' (first | with_reducible assumption | with_reducible apply onIsland_keeps | with_reducible apply State.warmDie_keeps | intro _ | (with_reducible refine Keeps.ite ?_ ?_) | split | (with_reducible refine KeepsRes.next ?_) | (with_reducible refine Keeps.upd ?_ rfl rfl rfl ?_; rotate_left; (fail_if_success with_reducible exact Moved.refl _); exact Moved.any _ _) | dsimp only)

theorem execHostFundamentalReset_keeps {s0 : State} (s : State) (hk_s : Keeps s0 s) : KeepsRes s0 (execHostFundamentalReset s) := by
  unfold execHostFundamentalReset
  (try dsimp only [State.fresh, State.freeVal])
  repeat' (first | with_reducible assumption | with_reducible apply live_keeps | with_reducible apply State.hostReset_keeps | intro _ | (with_reducible refine Keeps.ite ?_ ?_) | split | (with_reducible refine KeepsRes.next ?_) | (with_reducible refine Keeps.upd ?_ rfl rfl rfl ?_; rotate_left; (fail_if_success with_reducible exact Moved.refl _); exact Moved.any _ _) | dsimp only)

theorem execFlrPf_keeps {s0 : State} (s : State) (hk_s : Keeps s0 s) : KeepsRes s0 (execFlrPf s) := by
  unfold execFlrPf
  (try dsimp only [State.fresh, State.freeVal])
  repeat' (first | with_reducible assumption | with_reducible apply onDie_keeps | intro _ | (with_reducible refine Keeps.ite ?_ ?_) | split | (with_reducible refine KeepsRes.next ?_) | (with_reducible refine Keeps.upd ?_ rfl rfl rfl ?_; rotate_left; (fail_if_success with_reducible exact Moved.refl _); exact Moved.any _ _) | dsimp only)

theorem execGuardRestart_keeps {s0 : State} (d : Nat) (s : State) (hk : Keeps s0 s) : KeepsRes s0 (execGuardRestart d s) := by
  unfold execGuardRestart
  refine onIsland_keeps _ _ _ hk ?_
  refine Keeps.ite hk ?_
  dsimp only
  have h1 := State.dropRegs_keeps s d (fun (off : Nat) => off < 0x10000 || 0x20000 ≤ off || [Reg.grdStatus, Reg.grdFuseSvn, Reg.grdId, Reg.grdMeasCount].contains off) hk
  refine Keeps.ite h1 ?_
  apply Keeps.foldl
  · intro s x h
    exact State.mbGuardAnswer_keeps s _ _ h
  · have h2 := State.setRegN_keeps _ 0 Reg.grdStatus (Nat.land ((s.dropRegs d (fun (off : Nat) => off < 0x10000 || 0x20000 ≤ off || [Reg.grdStatus, Reg.grdFuseSvn, Reg.grdId, Reg.grdMeasCount].contains off)).regN 0 Reg.grdStatus) 0x3B) h1
    refine ⟨h2.pending, h2.part, fun i => ?_⟩
    obtain ⟨hm, hl, hs, hf, hb⟩ := h2.inv i
    exact ⟨hm, hl, hs, List.nodup_nil, fun x hx => by cases hx⟩

theorem execTestReset_keeps {s0 : State} (s : State) (hk_s : Keeps s0 s) : KeepsRes s0 (execTestReset s) := by
  unfold execTestReset
  (try dsimp only [State.fresh, State.freeVal])
  repeat' (first | with_reducible assumption | intro _ | (with_reducible refine Keeps.ite ?_ ?_) | split | (with_reducible refine KeepsRes.next ?_) | (with_reducible refine Keeps.upd ?_ rfl rfl rfl ?_; rotate_left; (fail_if_success with_reducible exact Moved.refl _); exact Moved.any _ _) | dsimp only)

theorem State.guardAgain_keeps {s0 : State} (s : State) (d : Nat) (hk_s : Keeps s0 s) : Keeps s0 (State.guardAgain s d) := by
  unfold State.guardAgain
  (try dsimp only [State.fresh, State.freeVal])
  repeat' (first | with_reducible assumption | with_reducible apply State.capUpdate_keeps | with_reducible apply Keeps.foldl | with_reducible apply Keeps.foldlFst | with_reducible apply Keeps.foldlSnd | intro _ | (with_reducible refine Keeps.ite ?_ ?_) | split | (with_reducible refine Keeps.upd ?_ rfl rfl rfl ?_; rotate_left; (fail_if_success with_reducible exact Moved.refl _); exact Moved.any _ _) | dsimp only)

theorem State.releaseDie_keeps {s0 : State} (s : State) (d : Nat) (hk_s : Keeps s0 s) : Keeps s0 (State.releaseDie s d) := by
  unfold State.releaseDie
  (try dsimp only [State.fresh, State.freeVal])
  repeat' (first | with_reducible assumption | with_reducible apply State.setRegN_keeps | with_reducible apply State.guardAgain_keeps | intro _ | (with_reducible refine Keeps.ite ?_ ?_) | split | (with_reducible refine Keeps.upd ?_ rfl rfl rfl ?_; rotate_left; (fail_if_success with_reducible exact Moved.refl _); exact Moved.any _ _) | dsimp only)

theorem execResetEnd_keeps {s0 : State} (s : State) (hk_s : Keeps s0 s) : KeepsRes s0 (execResetEnd s) := by
  unfold execResetEnd
  (try dsimp only [State.fresh, State.freeVal])
  repeat' (first | with_reducible assumption | with_reducible apply State.releaseDie_keeps | with_reducible apply Keeps.foldl | with_reducible apply Keeps.foldlFst | with_reducible apply Keeps.foldlSnd | intro _ | (with_reducible refine Keeps.ite ?_ ?_) | split | (with_reducible refine KeepsRes.next ?_) | (with_reducible refine Keeps.upd ?_ rfl rfl rfl ?_; rotate_left; (fail_if_success with_reducible exact Moved.refl _); exact Moved.any _ _) | dsimp only)

theorem State.endMute_keeps {s0 : State} (s : State) (id : Nat) (hk_s : Keeps s0 s) : Keeps s0 (State.endMute s id) := by
  unfold State.endMute
  (try dsimp only [State.fresh, State.freeVal])
  repeat' (first | with_reducible assumption | with_reducible apply State.modWork_keeps | intro _ | (with_reducible refine Keeps.ite ?_ ?_) | split | (with_reducible refine Keeps.upd ?_ rfl rfl rfl ?_; rotate_left; (fail_if_success with_reducible exact Moved.refl _); exact Moved.any _ _) | dsimp only)

theorem execFlrVf_keeps {s0 : State} (fn : Nat) (s : State) (hk_s : Keeps s0 s) : KeepsRes s0 (execFlrVf fn s) := by
  unfold execFlrVf
  (try dsimp only [State.fresh, State.freeVal])
  repeat' (first | with_reducible assumption | with_reducible apply onDie_keeps | with_reducible apply State.setRbit_keeps | with_reducible apply State.eachDie_keeps | with_reducible apply State.partCfgWrite_keeps | with_reducible apply State.ringStop_keeps | with_reducible apply State.endMute_keeps | with_reducible apply Keeps.eachDie | with_reducible apply Keeps.foldl | with_reducible apply Keeps.foldlFst | with_reducible apply Keeps.foldlSnd | intro _ | (with_reducible refine Keeps.ite ?_ ?_) | split | (with_reducible refine KeepsRes.next ?_) | (with_reducible refine Keeps.upd ?_ rfl rfl rfl ?_; rotate_left; (fail_if_success with_reducible exact Moved.refl _); exact Moved.any _ _) | dsimp only)

end Sys2Proof.Machine
end

