-- ==== Sys2Proof/Laws/KeepsBoot.lean ====
section
/-! SUPPORT. What the operations of Machine/Boot.lean keep: the queue, the part and the invariant. -/

namespace Sys2Proof.Machine

theorem State.setGen_keeps {s0 : State} (s : State) (off v : Nat) (hk_s : Keeps s0 s) : Keeps s0 (State.setGen s off v) := by
  unfold State.setGen
  (try dsimp only [State.fresh, State.freeVal])
  repeat' (first | with_reducible assumption | with_reducible apply State.setRegN_keeps | with_reducible apply State.eachDie_keeps | with_reducible apply Keeps.eachDie | intro _ | (with_reducible refine Keeps.ite ?_ ?_) | split | (with_reducible refine Keeps.upd ?_ rfl rfl rfl ?_; rotate_left; (fail_if_success with_reducible exact Moved.refl _); exact Moved.any _ _) | dsimp only)

theorem State.setStage_keeps {s0 : State} (s : State) (v : Nat) (hk_s : Keeps s0 s) : Keeps s0 (State.setStage s v) := by
  unfold State.setStage
  (try dsimp only [State.fresh, State.freeVal])
  repeat' (first | with_reducible assumption | with_reducible apply State.setGen_keeps | intro _ | (with_reducible refine Keeps.ite ?_ ?_) | split | (with_reducible refine Keeps.upd ?_ rfl rfl rfl ?_; rotate_left; (fail_if_success with_reducible exact Moved.refl _); exact Moved.any _ _) | dsimp only)

theorem State.bootFail_keeps {s0 : State} (s : State) (why : Nat) (hk_s : Keeps s0 s) : Keeps s0 (State.bootFail s why) := by
  unfold State.bootFail
  (try dsimp only [State.fresh, State.freeVal])
  repeat' (first | with_reducible assumption | with_reducible apply State.setGen_keeps | intro _ | (with_reducible refine Keeps.ite ?_ ?_) | split | (with_reducible refine Keeps.upd ?_ rfl rfl rfl ?_; rotate_left; (fail_if_success with_reducible exact Moved.refl _); exact Moved.any _ _) | dsimp only)

theorem execGuardBoot_keeps {s0 : State} (okA okB : Bool) (s : State) (hk_s : Keeps s0 s) : KeepsRes s0 (execGuardBoot okA okB s) := by
  unfold execGuardBoot
  (try dsimp only [State.fresh, State.freeVal])
  repeat' (first | with_reducible assumption | with_reducible apply onDie_keeps | with_reducible apply State.setRegN_keeps | with_reducible apply State.setRbit_keeps | with_reducible apply State.eachDie_keeps | with_reducible apply State.emit_keeps | with_reducible apply State.stickyAdd_keeps | with_reducible apply State.setGen_keeps | with_reducible apply State.bootFail_keeps | with_reducible apply Keeps.eachDie | intro _ | (with_reducible refine Keeps.ite ?_ ?_) | split | (with_reducible refine Keeps.snd ‹_› ?_) | (with_reducible refine Keeps.fst ‹_› ?_) | (with_reducible refine KeepsRes.next ?_) | (with_reducible refine Keeps.upd ?_ rfl rfl rfl ?_; rotate_left; (fail_if_success with_reducible exact Moved.refl _); exact Moved.any _ _) | dsimp only)

theorem State.trainLinks_keeps {s0 : State} (s : State) (d : Nat) (hk_s : Keeps s0 s) : Keeps s0 (State.trainLinks s d) := by
  unfold State.trainLinks
  (try dsimp only [State.fresh, State.freeVal])
  repeat' (first | with_reducible assumption | with_reducible apply State.linkBoth_keeps | with_reducible apply Keeps.foldl | with_reducible apply Keeps.foldlFst | with_reducible apply Keeps.foldlSnd | intro _ | (with_reducible refine Keeps.ite ?_ ?_) | split | (with_reducible refine Keeps.snd ‹_› ?_) | (with_reducible refine Keeps.fst ‹_› ?_) | (with_reducible refine Keeps.upd ?_ rfl rfl rfl ?_; rotate_left; (fail_if_success with_reducible exact Moved.refl _); exact Moved.any _ _) | dsimp only)

theorem State.enumerate_keeps {s0 : State} (s : State) (d : Nat) (hk_s : Keeps s0 s) : Keeps s0 (State.enumerate s d) := by
  unfold State.enumerate
  (try dsimp only [State.fresh, State.freeVal])
  repeat' (first | with_reducible assumption | with_reducible apply State.setRegN_keeps | with_reducible apply State.setGen_keeps | with_reducible apply State.trainLinks_keeps | intro _ | (with_reducible refine Keeps.ite ?_ ?_) | split | (with_reducible refine Keeps.upd ?_ rfl rfl rfl ?_; rotate_left; (fail_if_success with_reducible exact Moved.refl _); exact Moved.any _ _) | dsimp only)

theorem execDieEnumeration_keeps {s0 : State} (selfTestOk : Bool) (s : State) (hk_s : Keeps s0 s) : KeepsRes s0 (execDieEnumeration selfTestOk s) := by
  unfold execDieEnumeration
  (try dsimp only [State.fresh, State.freeVal])
  repeat' (first | with_reducible assumption | with_reducible apply onDie_keeps | with_reducible apply State.eachDie_keeps | with_reducible apply State.meshNote_keeps | with_reducible apply State.setGen_keeps | with_reducible apply State.setStage_keeps | with_reducible apply State.bootFail_keeps | with_reducible apply State.enumerate_keeps | with_reducible apply Keeps.eachDie | intro _ | (with_reducible refine Keeps.ite ?_ ?_) | split | (with_reducible refine KeepsRes.next ?_) | (with_reducible refine Keeps.upd ?_ rfl rfl rfl ?_; rotate_left; (fail_if_success with_reducible exact Moved.refl _); exact Moved.any _ _) | dsimp only)

theorem execEnumerationTimeout_keeps {s0 : State} (d : Nat) (s : State) (hk_s : Keeps s0 s) : KeepsRes s0 (execEnumerationTimeout d s) := by
  unfold execEnumerationTimeout
  (try dsimp only [State.fresh, State.freeVal])
  repeat' (first | with_reducible assumption | with_reducible apply onDie_keeps | with_reducible apply State.fence_keeps | intro _ | (with_reducible refine Keeps.ite ?_ ?_) | split | (with_reducible refine KeepsRes.next ?_) | (with_reducible refine Keeps.upd ?_ rfl rfl rfl ?_; rotate_left; (fail_if_success with_reducible exact Moved.refl _); exact Moved.any _ _) | dsimp only)

theorem State.showKey_keeps {s0 : State} (s : State) (hk_s : Keeps s0 s) : Keeps s0 (State.showKey s) := by
  unfold State.showKey
  (try dsimp only [State.fresh, State.freeVal])
  repeat' (first | with_reducible assumption | with_reducible apply State.setGen_keeps | intro _ | (with_reducible refine Keeps.ite ?_ ?_) | split | (with_reducible refine Keeps.upd ?_ rfl rfl rfl ?_; rotate_left; (fail_if_success with_reducible exact Moved.refl _); exact Moved.any _ _) | dsimp only)

theorem State.startDiscovery_keeps {s0 : State} (s : State) (hk_s : Keeps s0 s) : Keeps s0 (State.startDiscovery s) := by
  unfold State.startDiscovery
  (try dsimp only [State.fresh, State.freeVal])
  repeat' (first | with_reducible assumption | with_reducible apply State.setRegN_keeps | with_reducible apply State.setGen_keeps | with_reducible apply State.setStage_keeps | with_reducible apply State.showKey_keeps | with_reducible apply Keeps.foldl | with_reducible apply Keeps.foldlFst | with_reducible apply Keeps.foldlSnd | intro _ | (with_reducible refine Keeps.ite ?_ ?_) | split | (with_reducible refine Keeps.upd ?_ rfl rfl rfl ?_; rotate_left; (fail_if_success with_reducible exact Moved.refl _); exact Moved.any _ _) | dsimp only)

theorem execPortEnableAuto_keeps {s0 : State} (s : State) (hk_s : Keeps s0 s) : KeepsRes s0 (execPortEnableAuto s) := by
  unfold execPortEnableAuto
  (try dsimp only [State.fresh, State.freeVal])
  repeat' (first | with_reducible assumption | with_reducible apply onDie_keeps | with_reducible apply State.startDiscovery_keeps | intro _ | (with_reducible refine Keeps.ite ?_ ?_) | split | (with_reducible refine KeepsRes.next ?_) | (with_reducible refine Keeps.upd ?_ rfl rfl rfl ?_; rotate_left; (fail_if_success with_reducible exact Moved.refl _); exact Moved.any _ _) | dsimp only)

theorem State.holdOut_keeps {s0 : State} (s : State) (d : Nat) (why : Option Nat) (hk_s : Keeps s0 s) : Keeps s0 (State.holdOut s d why) := by
  unfold State.holdOut
  (try dsimp only [State.fresh, State.freeVal])
  repeat' (first | with_reducible assumption | with_reducible apply State.setGen_keeps | intro _ | (with_reducible refine Keeps.ite ?_ ?_) | split | (with_reducible refine Keeps.snd ‹_› ?_) | (with_reducible refine Keeps.fst ‹_› ?_) | (with_reducible refine Keeps.upd ?_ rfl rfl rfl ?_; rotate_left; (fail_if_success with_reducible exact Moved.refl _); exact Moved.any _ _) | dsimp only)

theorem State.sendDisc_keeps {s0 : State} (s : State) (d : Nat) (hk_s : Keeps s0 s) : Keeps s0 (State.sendDisc s d) := by
  unfold State.sendDisc
  (try dsimp only [State.fresh, State.freeVal])
  repeat' (first | with_reducible assumption | with_reducible apply State.sendItem_keeps | intro _ | (with_reducible refine Keeps.ite ?_ ?_) | split | (with_reducible refine Keeps.upd ?_ rfl rfl rfl ?_; rotate_left; (fail_if_success with_reducible exact Moved.refl _); exact Moved.any _ _) | dsimp only)

theorem State.discChanged_keeps {s0 : State} (s : State) (hk_s : Keeps s0 s) : Keeps s0 (State.discChanged s) := by
  unfold State.discChanged
  (try dsimp only [State.fresh, State.freeVal])
  repeat' (first | with_reducible assumption | with_reducible apply State.showKey_keeps | intro _ | (with_reducible refine Keeps.ite ?_ ?_) | split | (with_reducible refine Keeps.upd ?_ rfl rfl rfl ?_; rotate_left; (fail_if_success with_reducible exact Moved.refl _); exact Moved.any _ _) | dsimp only)

theorem execDiscoverySendTimer_keeps {s0 : State} (d : Nat) (s : State) (hk_s : Keeps s0 s) : KeepsRes s0 (execDiscoverySendTimer d s) := by
  unfold execDiscoverySendTimer
  (try dsimp only [State.fresh, State.freeVal])
  repeat' (first | with_reducible assumption | with_reducible apply onDie_keeps | with_reducible apply State.sendDisc_keeps | intro _ | (with_reducible refine Keeps.ite ?_ ?_) | split | (with_reducible refine KeepsRes.next ?_) | (with_reducible refine Keeps.upd ?_ rfl rfl rfl ?_; rotate_left; (fail_if_success with_reducible exact Moved.refl _); exact Moved.any _ _) | dsimp only)

theorem State.discAdopt_keeps {s0 : State} (s : State) (d : Nat) (f : DiscFrame) (hk_s : Keeps s0 s) : Keeps s0 (State.discAdopt s d f) := by
  unfold State.discAdopt
  (try dsimp only [State.fresh, State.freeVal])
  repeat' (first | with_reducible assumption | with_reducible apply State.discChanged_keeps | intro _ | (with_reducible refine Keeps.ite ?_ ?_) | split | (with_reducible refine Keeps.upd ?_ rfl rfl rfl ?_; rotate_left; (fail_if_success with_reducible exact Moved.refl _); exact Moved.any _ _) | dsimp only)

theorem State.discMerge_keeps {s0 : State} (s : State) (d : Nat) (f : DiscFrame) (hk_s : Keeps s0 s) : Keeps s0 (State.discMerge s d f) := by
  unfold State.discMerge
  (try dsimp only [State.fresh, State.freeVal])
  repeat' (first | with_reducible assumption | with_reducible apply State.discChanged_keeps | intro _ | (with_reducible refine Keeps.ite ?_ ?_) | split | (with_reducible refine Keeps.upd ?_ rfl rfl rfl ?_; rotate_left; (fail_if_success with_reducible exact Moved.refl _); exact Moved.any _ _) | dsimp only)

theorem State.firstFrame_keeps {s0 : State} (s : State) (d : Nat) (f : DiscFrame) (hk_s : Keeps s0 s) : Keeps s0 (State.firstFrame s d f) := by
  unfold State.firstFrame
  (try dsimp only [State.fresh, State.freeVal])
  repeat' (first | with_reducible assumption | with_reducible apply State.setRbit_keeps | with_reducible apply State.holdOut_keeps | intro _ | (with_reducible refine Keeps.ite ?_ ?_) | split | (with_reducible refine Keeps.upd ?_ rfl rfl rfl ?_; rotate_left; (fail_if_success with_reducible exact Moved.refl _); exact Moved.any _ _) | dsimp only)

theorem State.discEstab_keeps {s0 : State} (s : State) (d : Nat) (f : DiscFrame) (hk_s : Keeps s0 s) : Keeps s0 (State.discEstab s d f) := by
  unfold State.discEstab
  (try dsimp only [State.fresh, State.freeVal])
  repeat' (first | with_reducible assumption | with_reducible apply State.holdOut_keeps | with_reducible apply State.sendDisc_keeps | intro _ | (with_reducible refine Keeps.ite ?_ ?_) | split | (with_reducible refine Keeps.upd ?_ rfl rfl rfl ?_; rotate_left; (fail_if_success with_reducible exact Moved.refl _); exact Moved.any _ _) | dsimp only)

theorem State.discTake_keeps {s0 : State} (s : State) (d : Nat) (f : DiscFrame) (hk_s : Keeps s0 s) : Keeps s0 (State.discTake s d f) := by
  unfold State.discTake
  (try dsimp only [State.fresh, State.freeVal])
  repeat' (first | with_reducible assumption | with_reducible apply State.sendDisc_keeps | with_reducible apply State.discAdopt_keeps | with_reducible apply State.discMerge_keeps | with_reducible apply State.firstFrame_keeps | with_reducible apply State.discEstab_keeps | intro _ | (with_reducible refine Keeps.ite ?_ ?_) | split | (with_reducible refine Keeps.snd ‹_› ?_) | (with_reducible refine Keeps.fst ‹_› ?_) | (with_reducible refine Keeps.upd ?_ rfl rfl rfl ?_; rotate_left; (fail_if_success with_reducible exact Moved.refl _); exact Moved.any _ _) | dsimp only)

theorem execDiscoveryFrame_keeps {s0 : State} (d : Nat) (f : DiscFrame) (s : State) (hk_s : Keeps s0 s) : KeepsRes s0 (execDiscoveryFrame d f s) := by
  unfold execDiscoveryFrame
  (try dsimp only [State.fresh, State.freeVal])
  repeat' (first | with_reducible assumption | with_reducible apply onDie_keeps | with_reducible apply State.takeRx_keeps | with_reducible apply State.loseUnreached_keeps | with_reducible apply State.discTake_keeps | intro _ | (with_reducible refine Keeps.ite ?_ ?_) | split | (with_reducible refine KeepsRes.next ?_) | (with_reducible refine Keeps.upd ?_ rfl rfl rfl ?_; rotate_left; (fail_if_success with_reducible exact Moved.refl _); exact Moved.any _ _) | dsimp only)

theorem execDiscoveryValid_keeps {s0 : State} (s : State) (hk_s : Keeps s0 s) : KeepsRes s0 (execDiscoveryValid s) := by
  unfold execDiscoveryValid
  (try dsimp only [State.fresh, State.freeVal])
  repeat' (first | with_reducible assumption | with_reducible apply onDie_keeps | with_reducible apply State.setGen_keeps | with_reducible apply State.setStage_keeps | with_reducible apply State.holdOut_keeps | with_reducible apply State.discChanged_keeps | with_reducible apply Keeps.foldl | with_reducible apply Keeps.foldlFst | with_reducible apply Keeps.foldlSnd | intro _ | (with_reducible refine Keeps.ite ?_ ?_) | split | (with_reducible refine Keeps.snd ‹_› ?_) | (with_reducible refine Keeps.fst ‹_› ?_) | (with_reducible refine KeepsRes.next ?_) | (with_reducible refine Keeps.upd ?_ rfl rfl rfl ?_; rotate_left; (fail_if_success with_reducible exact Moved.refl _); exact Moved.any _ _) | dsimp only)

theorem execPortLinkUp_keeps {s0 : State} (d : Nat) (s : State) (hk_s : Keeps s0 s) : KeepsRes s0 (execPortLinkUp d s) := by
  unfold execPortLinkUp
  (try dsimp only [State.fresh, State.freeVal])
  repeat' (first | with_reducible assumption | with_reducible apply onDie_keeps | with_reducible apply State.loseFrames_keeps | with_reducible apply State.linkUpNow_keeps | with_reducible apply State.setStage_keeps | with_reducible apply State.sendDisc_keeps | intro _ | (with_reducible refine Keeps.ite ?_ ?_) | split | (with_reducible refine KeepsRes.next ?_) | (with_reducible refine Keeps.upd ?_ rfl rfl rfl ?_; rotate_left; (fail_if_success with_reducible exact Moved.refl _); exact Moved.any _ _) | dsimp only)

theorem execPortHoldoutTimeout_keeps {s0 : State} (d : Nat) (s : State) (hk_s : Keeps s0 s) : KeepsRes s0 (execPortHoldoutTimeout d s) := by
  unfold execPortHoldoutTimeout
  (try dsimp only [State.fresh, State.freeVal])
  repeat' (first | with_reducible assumption | with_reducible apply onDie_keeps | with_reducible apply State.loseUnreached_keeps | with_reducible apply State.holdOut_keeps | intro _ | (with_reducible refine Keeps.ite ?_ ?_) | split | (with_reducible refine KeepsRes.next ?_) | (with_reducible refine Keeps.upd ?_ rfl rfl rfl ?_; rotate_left; (fail_if_success with_reducible exact Moved.refl _); exact Moved.any _ _) | dsimp only)

theorem execPortLinkDown_keeps {s0 : State} (d : Nat) (s : State) (hk_s : Keeps s0 s) : KeepsRes s0 (execPortLinkDown d s) := by
  unfold execPortLinkDown
  (try dsimp only [State.fresh, State.freeVal])
  repeat' (first | with_reducible assumption | with_reducible apply onDie_keeps | with_reducible apply State.modEth_keeps | with_reducible apply State.modWire_keeps | with_reducible apply State.portDown_keeps | with_reducible apply State.queueRouted_keeps | with_reducible apply State.loseUnreached_keeps | with_reducible apply Keeps.foldl | with_reducible apply Keeps.foldlFst | with_reducible apply Keeps.foldlSnd | intro _ | (with_reducible refine Keeps.ite ?_ ?_) | split | (with_reducible refine KeepsRes.next ?_) | (with_reducible refine Keeps.upd ?_ rfl rfl rfl ?_; rotate_left; (fail_if_success with_reducible exact Moved.refl _); exact Moved.any _ _) | dsimp only)

theorem execHbmTrainingEnd_keeps {s0 : State} (d : Nat) (ok : Bool) (s : State) (hk_s : Keeps s0 s) : KeepsRes s0 (execHbmTrainingEnd d ok s) := by
  unfold execHbmTrainingEnd
  (try dsimp only [State.fresh, State.freeVal])
  repeat' (first | with_reducible assumption | with_reducible apply onDie_keeps | with_reducible apply State.setRegN_keeps | with_reducible apply State.fence_keeps | intro _ | (with_reducible refine Keeps.ite ?_ ?_) | split | (with_reducible refine KeepsRes.next ?_) | (with_reducible refine Keeps.upd ?_ rfl rfl rfl ?_; rotate_left; (fail_if_success with_reducible exact Moved.refl _); exact Moved.any _ _) | dsimp only)

theorem execDriveEnumerate_keeps {s0 : State} (d : Nat) (accept : Bool) (lbas rate granted mqes mdts : Nat) (s : State) (hk_s : Keeps s0 s) : KeepsRes s0 (execDriveEnumerate d accept lbas rate granted mqes mdts s) := by
  unfold execDriveEnumerate
  (try dsimp only [State.fresh, State.freeVal])
  repeat' (first | with_reducible assumption | with_reducible apply onDie_keeps | with_reducible apply State.setRegN_keeps | with_reducible apply State.setRegPair_keeps | with_reducible apply State.wipe_keeps | with_reducible apply State.fence_keeps | intro _ | (with_reducible refine Keeps.ite ?_ ?_) | split | (with_reducible refine KeepsRes.next ?_) | (with_reducible refine Keeps.upd ?_ rfl rfl rfl ?_; rotate_left; (fail_if_success with_reducible exact Moved.refl _); exact Moved.any _ _) | dsimp only)

end Sys2Proof.Machine
end

