-- ==== Sys2Proof/Laws/KeepsGuard.lean ====
section
/-! SUPPORT. What the operations of Machine/Guard.lean keep: the queue, the part and the invariant. -/

namespace Sys2Proof.Machine

theorem State.answer_keeps {s0 : State} (s : State) (path : GPath) (b : List Byte) (refusal : Nat) (result : List Byte) (hk_s : Keeps s0 s) : Keeps s0 (State.answer s path b refusal result) := by
  unfold State.answer
  (try dsimp only [State.fresh, State.freeVal])
  repeat' (first | with_reducible assumption | with_reducible apply State.emit_keeps | with_reducible apply State.mbGuardAnswer_keeps | intro _ | (with_reducible refine Keeps.ite ?_ ?_) | split | (with_reducible refine Keeps.snd ‹_› ?_) | (with_reducible refine Keeps.fst ‹_› ?_) | (with_reducible refine Keeps.upd ?_ rfl rfl rfl ?_; rotate_left; (fail_if_success with_reducible exact Moved.refl _); exact Moved.any _ _) | dsimp only)

theorem State.deny_keeps {s0 : State} (s : State) (code : Nat) (hk_s : Keeps s0 s) : Keeps s0 (State.deny s code).st := by
  unfold State.deny
  (try dsimp only [State.fresh, State.freeVal])
  repeat' (first | with_reducible assumption | intro _ | (with_reducible refine Keeps.ite ?_ ?_) | split | (with_reducible refine Keeps.upd ?_ rfl rfl rfl ?_; rotate_left; (fail_if_success with_reducible exact Moved.refl _); exact Moved.any _ _) | dsimp only)

theorem State.setGrd_keeps {s0 : State} (s : State) (i : Nat) (b : Bool) (hk_s : Keeps s0 s) : Keeps s0 (State.setGrd s i b) := by
  unfold State.setGrd
  (try dsimp only [State.fresh, State.freeVal])
  repeat' (first | with_reducible assumption | with_reducible apply State.setRbit_keeps | intro _ | (with_reducible refine Keeps.ite ?_ ?_) | split | (with_reducible refine Keeps.upd ?_ rfl rfl rfl ?_; rotate_left; (fail_if_success with_reducible exact Moved.refl _); exact Moved.any _ _) | dsimp only)

theorem State.opClk_keeps {s0 : State} (s : State) (b : List Byte) (hk_s : Keeps s0 s) : Keeps s0 (State.opClk s b).st := by
  unfold State.opClk
  (try dsimp only [State.fresh, State.freeVal])
  repeat' (first | with_reducible assumption | with_reducible apply State.guardLimit_keeps | with_reducible apply State.deny_keeps | intro _ | (with_reducible refine Keeps.ite ?_ ?_) | split | (with_reducible refine Keeps.upd ?_ rfl rfl rfl ?_; rotate_left; (fail_if_success with_reducible exact Moved.refl _); exact Moved.any _ _) | dsimp only)

theorem State.opCeil_keeps {s0 : State} (s : State) (b : List Byte) (hk_s : Keeps s0 s) : Keeps s0 (State.opCeil s b).st := by
  unfold State.opCeil
  (try dsimp only [State.fresh, State.freeVal])
  repeat' (first | with_reducible assumption | with_reducible apply State.guardSet_keeps | with_reducible apply State.deny_keeps | intro _ | (with_reducible refine Keeps.ite ?_ ?_) | split | (with_reducible refine Keeps.upd ?_ rfl rfl rfl ?_; rotate_left; (fail_if_success with_reducible exact Moved.refl _); exact Moved.any _ _) | dsimp only)

theorem State.opTherm_keeps {s0 : State} (s : State) (b : List Byte) (hk_s : Keeps s0 s) : Keeps s0 (State.opTherm s b).st := by
  unfold State.opTherm
  (try dsimp only [State.fresh, State.freeVal])
  repeat' (first | with_reducible assumption | with_reducible apply State.eachDie_keeps | with_reducible apply State.throttle_keeps | with_reducible apply State.guardSet_keeps | with_reducible apply State.deny_keeps | with_reducible apply Keeps.eachDie | intro _ | (with_reducible refine Keeps.ite ?_ ?_) | split | (with_reducible refine Keeps.upd ?_ rfl rfl rfl ?_; rotate_left; (fail_if_success with_reducible exact Moved.refl _); exact Moved.any _ _) | dsimp only)

theorem State.opDisc_keeps {s0 : State} (s : State) (b : List Byte) (hk_s : Keeps s0 s) : Keeps s0 (State.opDisc s b).st := by
  unfold State.opDisc
  (try dsimp only [State.fresh, State.freeVal])
  repeat' (first | with_reducible assumption | with_reducible apply State.eachDie_keeps | with_reducible apply State.guardSet_keeps | with_reducible apply State.deny_keeps | with_reducible apply Keeps.eachDie | intro _ | (with_reducible refine Keeps.ite ?_ ?_) | split | (with_reducible refine Keeps.upd ?_ rfl rfl rfl ?_; rotate_left; (fail_if_success with_reducible exact Moved.refl _); exact Moved.any _ _) | dsimp only)

theorem State.opStart_keeps {s0 : State} (s : State) (hk_s : Keeps s0 s) : Keeps s0 (State.opStart s).st := by
  unfold State.opStart
  (try dsimp only [State.fresh, State.freeVal])
  repeat' (first | with_reducible assumption | with_reducible apply State.startDiscovery_keeps | with_reducible apply State.deny_keeps | intro _ | (with_reducible refine Keeps.ite ?_ ?_) | split | (with_reducible refine Keeps.upd ?_ rfl rfl rfl ?_; rotate_left; (fail_if_success with_reducible exact Moved.refl _); exact Moved.any _ _) | dsimp only)

theorem State.opReset_keeps {s0 : State} (s : State) (b : List Byte) (hk_s : Keeps s0 s) : Keeps s0 (State.opReset s b).st := by
  unfold State.opReset
  (try dsimp only [State.fresh, State.freeVal])
  repeat' (first | with_reducible assumption | with_reducible apply State.deny_keeps | intro _ | (with_reducible refine Keeps.ite ?_ ?_) | split | (with_reducible refine Keeps.upd ?_ rfl rfl rfl ?_; rotate_left; (fail_if_success with_reducible exact Moved.refl _); exact Moved.any _ _) | dsimp only)

theorem State.opLog_keeps {s0 : State} (s : State) (b : List Byte) (hk_s : Keeps s0 s) : Keeps s0 (State.opLog s b).st := by
  unfold State.opLog
  (try dsimp only [State.fresh, State.freeVal])
  repeat' (first | with_reducible assumption | with_reducible apply State.deny_keeps | intro _ | (with_reducible refine Keeps.ite ?_ ?_) | split | (with_reducible refine Keeps.upd ?_ rfl rfl rfl ?_; rotate_left; (fail_if_success with_reducible exact Moved.refl _); exact Moved.any _ _) | dsimp only)

theorem State.eraseSlot_keeps {s0 : State} (s : State) (k : Nat) (hk_s : Keeps s0 s) : Keeps s0 (State.eraseSlot s k) := by
  unfold State.eraseSlot
  (try dsimp only [State.fresh, State.freeVal])
  repeat' (first | with_reducible assumption | intro _ | (with_reducible refine Keeps.ite ?_ ?_) | split | (with_reducible refine Keeps.upd ?_ rfl rfl rfl ?_; rotate_left; (fail_if_success with_reducible exact Moved.refl _); exact Moved.any _ _) | dsimp only)

theorem State.opFwBegin_keeps {s0 : State} (s : State) (b : List Byte) (hk_s : Keeps s0 s) : Keeps s0 (State.opFwBegin s b).st := by
  unfold State.opFwBegin
  (try dsimp only [State.fresh, State.freeVal])
  repeat' (first | with_reducible assumption | with_reducible apply State.deny_keeps | with_reducible apply State.setGrd_keeps | with_reducible apply State.eraseSlot_keeps | intro _ | (with_reducible refine Keeps.ite ?_ ?_) | split | (with_reducible refine Keeps.upd ?_ rfl rfl rfl ?_; rotate_left; (fail_if_success with_reducible exact Moved.refl _); exact Moved.any _ _) | dsimp only)

theorem State.opFwWrite_keeps {s0 : State} (s : State) (b : List Byte) (hk_s : Keeps s0 s) : Keeps s0 (State.opFwWrite s b).st := by
  unfold State.opFwWrite
  (try dsimp only [State.fresh, State.freeVal])
  repeat' (first | with_reducible assumption | with_reducible apply State.deny_keeps | with_reducible apply Keeps.foldl | with_reducible apply Keeps.foldlFst | with_reducible apply Keeps.foldlSnd | intro _ | (with_reducible refine Keeps.ite ?_ ?_) | split | (with_reducible refine Keeps.snd ‹_› ?_) | (with_reducible refine Keeps.fst ‹_› ?_) | (with_reducible refine Keeps.upd ?_ rfl rfl rfl ?_; rotate_left; (fail_if_success with_reducible exact Moved.refl _); exact Moved.any _ _) | dsimp only)

theorem State.opFwCommit_keeps {s0 : State} (s : State) (hk_s : Keeps s0 s) : Keeps s0 (State.opFwCommit s).st := by
  unfold State.opFwCommit
  (try dsimp only [State.fresh, State.freeVal])
  repeat' (first | with_reducible assumption | with_reducible apply State.fresh_keeps | with_reducible apply State.stickyAdd_keeps | with_reducible apply State.deny_keeps | with_reducible apply State.setGrd_keeps | intro _ | (with_reducible refine Keeps.ite ?_ ?_) | split | (with_reducible refine Keeps.snd ‹_› ?_) | (with_reducible refine Keeps.fst ‹_› ?_) | (with_reducible refine Keeps.upd ?_ rfl rfl rfl ?_; rotate_left; (fail_if_success with_reducible exact Moved.refl _); exact Moved.any _ _) | dsimp only)

theorem State.opNonce_keeps {s0 : State} (s : State) (hk_s : Keeps s0 s) : Keeps s0 (State.opNonce s).st := by
  unfold State.opNonce
  (try dsimp only [State.fresh, State.freeVal])
  repeat' (first | with_reducible assumption | with_reducible apply State.fresh_keeps | intro _ | (with_reducible refine Keeps.ite ?_ ?_) | split | (with_reducible refine Keeps.snd ‹_› ?_) | (with_reducible refine Keeps.fst ‹_› ?_) | (with_reducible refine Keeps.upd ?_ rfl rfl rfl ?_; rotate_left; (fail_if_success with_reducible exact Moved.refl _); exact Moved.any _ _) | dsimp only)

theorem State.opUnlock_keeps {s0 : State} (s : State) (b : List Byte) (hk_s : Keeps s0 s) : Keeps s0 (State.opUnlock s b).st := by
  unfold State.opUnlock
  (try dsimp only [State.fresh, State.freeVal])
  repeat' (first | with_reducible assumption | with_reducible apply State.stickyAdd_keeps | with_reducible apply State.deny_keeps | with_reducible apply State.setGrd_keeps | intro _ | (with_reducible refine Keeps.ite ?_ ?_) | split | (with_reducible refine Keeps.snd ‹_› ?_) | (with_reducible refine Keeps.fst ‹_› ?_) | (with_reducible refine Keeps.upd ?_ rfl rfl rfl ?_; rotate_left; (fail_if_success with_reducible exact Moved.refl _); exact Moved.any _ _) | dsimp only)

theorem State.opSvn_keeps {s0 : State} (s : State) (hk_s : Keeps s0 s) : Keeps s0 (State.opSvn s).st := by
  unfold State.opSvn
  (try dsimp only [State.fresh, State.freeVal])
  repeat' (first | with_reducible assumption | with_reducible apply State.setRegN_keeps | with_reducible apply State.eachDie_keeps | with_reducible apply State.stickyAdd_keeps | with_reducible apply State.deny_keeps | with_reducible apply Keeps.eachDie | intro _ | (with_reducible refine Keeps.ite ?_ ?_) | split | (with_reducible refine Keeps.upd ?_ rfl rfl rfl ?_; rotate_left; (fail_if_success with_reducible exact Moved.refl _); exact Moved.any _ _) | dsimp only)

theorem State.opcode_keeps {s0 : State} (s : State) (b : List Byte) (hk_s : Keeps s0 s) : Keeps s0 (State.opcode s b).st := by
  unfold State.opcode
  (try dsimp only [State.fresh, State.freeVal])
  repeat' (first | with_reducible assumption | with_reducible apply State.guardSet_keeps | with_reducible apply State.opClk_keeps | with_reducible apply State.opCeil_keeps | with_reducible apply State.opTherm_keeps | with_reducible apply State.opDisc_keeps | with_reducible apply State.opStart_keeps | with_reducible apply State.opReset_keeps | with_reducible apply State.opLog_keeps | with_reducible apply State.opFwBegin_keeps | with_reducible apply State.opFwWrite_keeps | with_reducible apply State.opFwCommit_keeps | with_reducible apply State.opNonce_keeps | with_reducible apply State.opUnlock_keeps | with_reducible apply State.opSvn_keeps | intro _ | (with_reducible refine Keeps.ite ?_ ?_) | split | (with_reducible refine Keeps.snd ‹_› ?_) | (with_reducible refine Keeps.fst ‹_› ?_) | (with_reducible refine Keeps.upd ?_ rfl rfl rfl ?_; rotate_left; (fail_if_success with_reducible exact Moved.refl _); exact Moved.any _ _) | dsimp only)

theorem State.guardReply_keeps {s0 : State} (s : State) (c : PathClass) (b : List Byte) (hk_s : Keeps s0 s) : Keeps s0 (State.guardReply s c b).st := by
  unfold State.guardReply
  (try dsimp only [State.fresh, State.freeVal])
  repeat' (first | with_reducible assumption | with_reducible apply State.deny_keeps | with_reducible apply State.opcode_keeps | intro _ | (with_reducible refine Keeps.ite ?_ ?_) | split | (with_reducible refine Keeps.upd ?_ rfl rfl rfl ?_; rotate_left; (fail_if_success with_reducible exact Moved.refl _); exact Moved.any _ _) | dsimp only)

theorem State.guardServe_keeps {s0 : State} (s : State) (path : GPath) (b : List Byte) (hk_s : Keeps s0 s) : Keeps s0 (State.guardServe s path b) := by
  unfold State.guardServe
  (try dsimp only [State.fresh, State.freeVal])
  repeat' (first | with_reducible assumption | with_reducible apply State.answer_keeps | with_reducible apply State.guardReply_keeps | intro _ | (with_reducible refine Keeps.ite ?_ ?_) | split | (with_reducible refine Keeps.snd ‹_› ?_) | (with_reducible refine Keeps.fst ‹_› ?_) | (with_reducible refine Keeps.upd ?_ rfl rfl rfl ?_; rotate_left; (fail_if_success with_reducible exact Moved.refl _); exact Moved.any _ _) | dsimp only)

theorem State.guardOp_keeps {s0 : State} (s : State) (r : GReq) (op : Nat) (hk_s : Keeps s0 s) : KeepsRes s0 (State.guardOp s r op) := by
  unfold State.guardOp
  (try dsimp only [State.fresh, State.freeVal])
  repeat' (first | with_reducible assumption | with_reducible apply live_keeps | with_reducible apply State.guardServe_keeps | intro _ | (with_reducible refine Keeps.ite ?_ ?_) | split | (with_reducible refine KeepsRes.next ?_) | (with_reducible refine Keeps.upd ?_ rfl rfl rfl ?_; rotate_left; (fail_if_success with_reducible exact Moved.refl _); exact Moved.any _ _) | dsimp only)

theorem execGuardQuery_keeps {s0 : State} (r : GReq) (s : State) (hk_s : Keeps s0 s) : KeepsRes s0 (execGuardQuery r s) := by
  unfold execGuardQuery
  (try dsimp only [State.fresh, State.freeVal])
  repeat' (first | with_reducible assumption | with_reducible apply State.guardOp_keeps | intro _ | (with_reducible refine Keeps.ite ?_ ?_) | split | (with_reducible refine KeepsRes.next ?_) | (with_reducible refine Keeps.upd ?_ rfl rfl rfl ?_; rotate_left; (fail_if_success with_reducible exact Moved.refl _); exact Moved.any _ _) | dsimp only)

theorem execSetClkLimit_keeps {s0 : State} (r : GReq) (s : State) (hk_s : Keeps s0 s) : KeepsRes s0 (execSetClkLimit r s) := by
  unfold execSetClkLimit
  (try dsimp only [State.fresh, State.freeVal])
  repeat' (first | with_reducible assumption | with_reducible apply State.guardOp_keeps | intro _ | (with_reducible refine Keeps.ite ?_ ?_) | split | (with_reducible refine KeepsRes.next ?_) | (with_reducible refine Keeps.upd ?_ rfl rfl rfl ?_; rotate_left; (fail_if_success with_reducible exact Moved.refl _); exact Moved.any _ _) | dsimp only)

theorem execSetCapCeil_keeps {s0 : State} (r : GReq) (s : State) (hk_s : Keeps s0 s) : KeepsRes s0 (execSetCapCeil r s) := by
  unfold execSetCapCeil
  (try dsimp only [State.fresh, State.freeVal])
  repeat' (first | with_reducible assumption | with_reducible apply State.guardOp_keeps | intro _ | (with_reducible refine Keeps.ite ?_ ?_) | split | (with_reducible refine KeepsRes.next ?_) | (with_reducible refine Keeps.upd ?_ rfl rfl rfl ?_; rotate_left; (fail_if_success with_reducible exact Moved.refl _); exact Moved.any _ _) | dsimp only)

theorem execSetCapSb_keeps {s0 : State} (r : GReq) (s : State) (hk_s : Keeps s0 s) : KeepsRes s0 (execSetCapSb r s) := by
  unfold execSetCapSb
  (try dsimp only [State.fresh, State.freeVal])
  repeat' (first | with_reducible assumption | with_reducible apply State.guardOp_keeps | intro _ | (with_reducible refine Keeps.ite ?_ ?_) | split | (with_reducible refine KeepsRes.next ?_) | (with_reducible refine Keeps.upd ?_ rfl rfl rfl ?_; rotate_left; (fail_if_success with_reducible exact Moved.refl _); exact Moved.any _ _) | dsimp only)

theorem execSetTherm_keeps {s0 : State} (r : GReq) (s : State) (hk_s : Keeps s0 s) : KeepsRes s0 (execSetTherm r s) := by
  unfold execSetTherm
  (try dsimp only [State.fresh, State.freeVal])
  repeat' (first | with_reducible assumption | with_reducible apply State.guardOp_keeps | intro _ | (with_reducible refine Keeps.ite ?_ ?_) | split | (with_reducible refine KeepsRes.next ?_) | (with_reducible refine Keeps.upd ?_ rfl rfl rfl ?_; rotate_left; (fail_if_success with_reducible exact Moved.refl _); exact Moved.any _ _) | dsimp only)

theorem execSetDisc_keeps {s0 : State} (r : GReq) (s : State) (hk_s : Keeps s0 s) : KeepsRes s0 (execSetDisc r s) := by
  unfold execSetDisc
  (try dsimp only [State.fresh, State.freeVal])
  repeat' (first | with_reducible assumption | with_reducible apply State.guardOp_keeps | intro _ | (with_reducible refine Keeps.ite ?_ ?_) | split | (with_reducible refine KeepsRes.next ?_) | (with_reducible refine Keeps.upd ?_ rfl rfl rfl ?_; rotate_left; (fail_if_success with_reducible exact Moved.refl _); exact Moved.any _ _) | dsimp only)

theorem execStartDisc_keeps {s0 : State} (r : GReq) (s : State) (hk_s : Keeps s0 s) : KeepsRes s0 (execStartDisc r s) := by
  unfold execStartDisc
  (try dsimp only [State.fresh, State.freeVal])
  repeat' (first | with_reducible assumption | with_reducible apply State.guardOp_keeps | intro _ | (with_reducible refine Keeps.ite ?_ ?_) | split | (with_reducible refine KeepsRes.next ?_) | (with_reducible refine Keeps.upd ?_ rfl rfl rfl ?_; rotate_left; (fail_if_success with_reducible exact Moved.refl _); exact Moved.any _ _) | dsimp only)

theorem execGuardReset_keeps {s0 : State} (r : GReq) (s : State) (hk_s : Keeps s0 s) : KeepsRes s0 (execGuardReset r s) := by
  unfold execGuardReset
  (try dsimp only [State.fresh, State.freeVal])
  repeat' (first | with_reducible assumption | with_reducible apply State.guardOp_keeps | intro _ | (with_reducible refine Keeps.ite ?_ ?_) | split | (with_reducible refine KeepsRes.next ?_) | (with_reducible refine Keeps.upd ?_ rfl rfl rfl ?_; rotate_left; (fail_if_success with_reducible exact Moved.refl _); exact Moved.any _ _) | dsimp only)

theorem execGuardResetDelay_keeps {s0 : State} (s : State) (hk_s : Keeps s0 s) : KeepsRes s0 (execGuardResetDelay s) := by
  unfold execGuardResetDelay
  (try dsimp only [State.fresh, State.freeVal])
  repeat' (first | with_reducible assumption | with_reducible apply live_keeps | with_reducible apply State.startReset_keeps | with_reducible apply State.coldStart_keeps | with_reducible apply State.warmDie_keeps | intro _ | (with_reducible refine Keeps.ite ?_ ?_) | split | (with_reducible refine Keeps.snd ‹_› ?_) | (with_reducible refine Keeps.fst ‹_› ?_) | (with_reducible refine KeepsRes.next ?_) | (with_reducible refine Keeps.upd ?_ rfl rfl rfl ?_; rotate_left; (fail_if_success with_reducible exact Moved.refl _); exact Moved.any _ _) | dsimp only)

theorem execReadLog_keeps {s0 : State} (r : GReq) (s : State) (hk_s : Keeps s0 s) : KeepsRes s0 (execReadLog r s) := by
  unfold execReadLog
  (try dsimp only [State.fresh, State.freeVal])
  repeat' (first | with_reducible assumption | with_reducible apply State.guardOp_keeps | intro _ | (with_reducible refine Keeps.ite ?_ ?_) | split | (with_reducible refine KeepsRes.next ?_) | (with_reducible refine Keeps.upd ?_ rfl rfl rfl ?_; rotate_left; (fail_if_success with_reducible exact Moved.refl _); exact Moved.any _ _) | dsimp only)

theorem execFwBegin_keeps {s0 : State} (r : GReq) (s : State) (hk_s : Keeps s0 s) : KeepsRes s0 (execFwBegin r s) := by
  unfold execFwBegin
  (try dsimp only [State.fresh, State.freeVal])
  repeat' (first | with_reducible assumption | with_reducible apply State.guardOp_keeps | intro _ | (with_reducible refine Keeps.ite ?_ ?_) | split | (with_reducible refine KeepsRes.next ?_) | (with_reducible refine Keeps.upd ?_ rfl rfl rfl ?_; rotate_left; (fail_if_success with_reducible exact Moved.refl _); exact Moved.any _ _) | dsimp only)

theorem execFwWrite_keeps {s0 : State} (r : GReq) (s : State) (hk_s : Keeps s0 s) : KeepsRes s0 (execFwWrite r s) := by
  unfold execFwWrite
  (try dsimp only [State.fresh, State.freeVal])
  repeat' (first | with_reducible assumption | with_reducible apply State.guardOp_keeps | intro _ | (with_reducible refine Keeps.ite ?_ ?_) | split | (with_reducible refine KeepsRes.next ?_) | (with_reducible refine Keeps.upd ?_ rfl rfl rfl ?_; rotate_left; (fail_if_success with_reducible exact Moved.refl _); exact Moved.any _ _) | dsimp only)

theorem execFwCommit_keeps {s0 : State} (r : GReq) (s : State) (hk_s : Keeps s0 s) : KeepsRes s0 (execFwCommit r s) := by
  unfold execFwCommit
  (try dsimp only [State.fresh, State.freeVal])
  repeat' (first | with_reducible assumption | with_reducible apply State.guardOp_keeps | intro _ | (with_reducible refine Keeps.ite ?_ ?_) | split | (with_reducible refine KeepsRes.next ?_) | (with_reducible refine Keeps.upd ?_ rfl rfl rfl ?_; rotate_left; (fail_if_success with_reducible exact Moved.refl _); exact Moved.any _ _) | dsimp only)

theorem execDebugNonce_keeps {s0 : State} (r : GReq) (s : State) (hk_s : Keeps s0 s) : KeepsRes s0 (execDebugNonce r s) := by
  unfold execDebugNonce
  (try dsimp only [State.fresh, State.freeVal])
  repeat' (first | with_reducible assumption | with_reducible apply State.guardOp_keeps | intro _ | (with_reducible refine Keeps.ite ?_ ?_) | split | (with_reducible refine KeepsRes.next ?_) | (with_reducible refine Keeps.upd ?_ rfl rfl rfl ?_; rotate_left; (fail_if_success with_reducible exact Moved.refl _); exact Moved.any _ _) | dsimp only)

theorem execDebugUnlock_keeps {s0 : State} (r : GReq) (s : State) (hk_s : Keeps s0 s) : KeepsRes s0 (execDebugUnlock r s) := by
  unfold execDebugUnlock
  (try dsimp only [State.fresh, State.freeVal])
  repeat' (first | with_reducible assumption | with_reducible apply State.guardOp_keeps | intro _ | (with_reducible refine Keeps.ite ?_ ?_) | split | (with_reducible refine KeepsRes.next ?_) | (with_reducible refine Keeps.upd ?_ rfl rfl rfl ?_; rotate_left; (fail_if_success with_reducible exact Moved.refl _); exact Moved.any _ _) | dsimp only)

theorem execSvnAdvance_keeps {s0 : State} (r : GReq) (s : State) (hk_s : Keeps s0 s) : KeepsRes s0 (execSvnAdvance r s) := by
  unfold execSvnAdvance
  (try dsimp only [State.fresh, State.freeVal])
  repeat' (first | with_reducible assumption | with_reducible apply State.guardOp_keeps | intro _ | (with_reducible refine Keeps.ite ?_ ?_) | split | (with_reducible refine KeepsRes.next ?_) | (with_reducible refine Keeps.upd ?_ rfl rfl rfl ?_; rotate_left; (fail_if_success with_reducible exact Moved.refl _); exact Moved.any _ _) | dsimp only)

theorem execGuardUnknownOpcode_keeps {s0 : State} (r : GReq) (s : State) (hk_s : Keeps s0 s) : KeepsRes s0 (execGuardUnknownOpcode r s) := by
  unfold execGuardUnknownOpcode
  (try dsimp only [State.fresh, State.freeVal])
  repeat' (first | with_reducible assumption | with_reducible apply live_keeps | with_reducible apply State.guardServe_keeps | intro _ | (with_reducible refine Keeps.ite ?_ ?_) | split | (with_reducible refine KeepsRes.next ?_) | (with_reducible refine Keeps.upd ?_ rfl rfl rfl ?_; rotate_left; (fail_if_success with_reducible exact Moved.refl _); exact Moved.any _ _) | dsimp only)

end Sys2Proof.Machine
end

