-- ==== Sys2Proof/Laws/KeepsSpdm.lean ====
section
/-! SUPPORT. What the operations of Machine/Spdm.lean keep: the queue, the part and the invariant. -/

namespace Sys2Proof.Machine

theorem State.modSpdm_keeps {s0 : State} (s : State) (doe : Bool) (f : Spdm → Spdm) (hk_s : Keeps s0 s) : Keeps s0 (State.modSpdm s doe f) := by
  unfold State.modSpdm
  (try dsimp only [State.fresh, State.freeVal])
  repeat' (first | with_reducible assumption | intro _ | (with_reducible refine Keeps.ite ?_ ?_) | split | (with_reducible refine Keeps.upd ?_ rfl rfl rfl ?_; rotate_left; (fail_if_success with_reducible exact Moved.refl _); exact Moved.any _ _) | dsimp only)

theorem State.countSess_keeps {s0 : State} (s : State) (hk_s : Keeps s0 s) : Keeps s0 (State.countSess s) := by
  unfold State.countSess
  (try dsimp only [State.fresh, State.freeVal])
  repeat' (first | with_reducible assumption | with_reducible apply State.setRegN_keeps | intro _ | (with_reducible refine Keeps.ite ?_ ?_) | split | (with_reducible refine Keeps.upd ?_ rfl rfl rfl ?_; rotate_left; (fail_if_success with_reducible exact Moved.refl _); exact Moved.any _ _) | dsimp only)

theorem State.setSess_keeps {s0 : State} (s : State) (l : List Sess) (hk : Keeps s0 s) (hf : s0.Inv → (l.map fun x => x.id).Nodup)
    (hb : s0.Inv → ∀ x ∈ l, x.id < 4) : Keeps s0 (s.setSess l) := by
  unfold State.setSess State.countSess
  apply State.setRegN_keeps
  exact ⟨hk.pending, hk.part, fun i => ⟨(hk.inv i).memory, (hk.inv i).log, (hk.inv i).sticky, hf i, hb i⟩⟩

theorem State.spdmOut_keeps {s0 : State} (s : State) (doe : Bool) (sess : Option Nat) (b : List Byte) (hk_s : Keeps s0 s) : Keeps s0 (State.spdmOut s doe sess b) := by
  unfold State.spdmOut
  (try dsimp only [State.fresh, State.freeVal])
  repeat' (first | with_reducible assumption | with_reducible apply State.emit_keeps | intro _ | (with_reducible refine Keeps.ite ?_ ?_) | split | (with_reducible refine Keeps.upd ?_ rfl rfl rfl ?_; rotate_left; (fail_if_success with_reducible exact Moved.refl _); exact Moved.any _ _) | dsimp only)

theorem State.freeBytes_keeps {s0 : State} (s : State) (n : Nat) (hk_s : Keeps s0 s) : Keeps s0 (State.freeBytes s n).2 := by
  unfold State.freeBytes
  (try dsimp only [State.fresh, State.freeVal])
  repeat' (first | with_reducible assumption | with_reducible apply State.fresh_keeps | intro _ | (with_reducible refine Keeps.ite ?_ ?_) | split | (with_reducible refine Keeps.snd ‹_› ?_) | (with_reducible refine Keeps.fst ‹_› ?_) | (with_reducible refine Keeps.upd ?_ rfl rfl rfl ?_; rotate_left; (fail_if_success with_reducible exact Moved.refl _); exact Moved.any _ _) | dsimp only)

theorem State.dmtfBlock_keeps {s0 : State} (s : State) (i : Nat) (hk : Keeps s0 s) : Keeps s0 (s.dmtfBlock i).2 := by
  unfold State.dmtfBlock
  dsimp only
  split
  · exact hk
  · exact hk.same rfl rfl rfl rfl rfl rfl rfl

theorem State.getVersion_keeps {s0 : State} (s : State) (doe : Bool) (hk_s : Keeps s0 s) : Keeps s0 (State.getVersion s doe).2 := by
  unfold State.getVersion
  (try dsimp only [State.fresh, State.freeVal])
  repeat' (first | with_reducible assumption | with_reducible apply State.modSpdm_keeps | intro _ | (with_reducible refine Keeps.ite ?_ ?_) | split | (with_reducible refine Keeps.upd ?_ rfl rfl rfl ?_; rotate_left; (fail_if_success with_reducible exact Moved.refl _); exact Moved.any _ _) | dsimp only)

theorem State.getCapabilities_keeps {s0 : State} (s : State) (doe : Bool) (v : Nat) (hk_s : Keeps s0 s) : Keeps s0 (State.getCapabilities s doe v).2 := by
  unfold State.getCapabilities
  (try dsimp only [State.fresh, State.freeVal])
  repeat' (first | with_reducible assumption | with_reducible apply State.modSpdm_keeps | with_reducible apply State.freeBytes_keeps | intro _ | (with_reducible refine Keeps.ite ?_ ?_) | split | (with_reducible refine Keeps.snd ‹_› ?_) | (with_reducible refine Keeps.fst ‹_› ?_) | (with_reducible refine Keeps.upd ?_ rfl rfl rfl ?_; rotate_left; (fail_if_success with_reducible exact Moved.refl _); exact Moved.any _ _) | dsimp only)

theorem State.negotiate_keeps {s0 : State} (s : State) (doe : Bool) (v : Nat) (hk_s : Keeps s0 s) : Keeps s0 (State.negotiate s doe v).2 := by
  unfold State.negotiate
  (try dsimp only [State.fresh, State.freeVal])
  repeat' (first | with_reducible assumption | with_reducible apply State.modSpdm_keeps | with_reducible apply State.freeBytes_keeps | intro _ | (with_reducible refine Keeps.ite ?_ ?_) | split | (with_reducible refine Keeps.snd ‹_› ?_) | (with_reducible refine Keeps.fst ‹_› ?_) | (with_reducible refine Keeps.upd ?_ rfl rfl rfl ?_; rotate_left; (fail_if_success with_reducible exact Moved.refl _); exact Moved.any _ _) | dsimp only)

theorem State.getCertificate_keeps {s0 : State} (s : State) (v : Nat) (b : List Byte) (hk_s : Keeps s0 s) : Keeps s0 (State.getCertificate s v b).2 := by
  unfold State.getCertificate
  (try dsimp only [State.fresh, State.freeVal])
  repeat' (first | with_reducible assumption | intro _ | (with_reducible refine Keeps.ite ?_ ?_) | split | (with_reducible refine Keeps.upd ?_ rfl rfl rfl ?_; rotate_left; (fail_if_success with_reducible exact Moved.refl _); exact Moved.any _ _) | dsimp only)

theorem State.challenge_keeps {s0 : State} (s : State) (v : Nat) (b : List Byte) (hk_s : Keeps s0 s) : Keeps s0 (State.challenge s v b).2 := by
  unfold State.challenge
  (try dsimp only [State.fresh, State.freeVal])
  repeat' (first | with_reducible assumption | with_reducible apply State.freeBytes_keeps | intro _ | (with_reducible refine Keeps.ite ?_ ?_) | split | (with_reducible refine Keeps.snd ‹_› ?_) | (with_reducible refine Keeps.fst ‹_› ?_) | (with_reducible refine Keeps.upd ?_ rfl rfl rfl ?_; rotate_left; (fail_if_success with_reducible exact Moved.refl _); exact Moved.any _ _) | dsimp only)

theorem State.getMeasurements_keeps {s0 : State} (s : State) (v : Nat) (b : List Byte) (hk : Keeps s0 s) :
    Keeps s0 (s.getMeasurements v b).2 := by
  unfold State.getMeasurements
  dsimp only
  split
  · exact hk
  · refine State.freeBytes_keeps _ (34 + if bit (leAt b 2 1) 0 = true then 96 else 0) ?_
    refine Keeps.foldlSnd ?_ _ ?_
    · intro x i h
      exact State.dmtfBlock_keeps _ _ h
    · exact hk

theorem State.keyExchange_keeps {s0 : State} (s : State) (doe : Bool) (v : Nat) (b : List Byte) (hk : Keeps s0 s) :
    Keeps s0 (s.keyExchange doe v b).2 := by
  unfold State.keyExchange
  split
  · exact hk
  · split
    · exact hk
    · rename_i i hi
      have hlt : i < 4 := by simpa using List.mem_of_find?_eq_some hi
      have hno : (s.sessOf i).isNone = true := by simpa using List.find?_some hi
      have h1 := State.freeBytes_keeps s 276 hk
      refine State.setSess_keeps _ _ h1 (fun h => ?_) (fun h => ?_)
      · have e : ((s.freeBytes 276).2).grd.sess = s.grd.sess := rfl
        rw [e, List.map_append, List.nodup_append]
        refine ⟨(hk.inv h).fresh, by simp, ?_⟩
        intro a ha c hc
        simp only [List.map_cons, List.map_nil, List.mem_singleton] at hc
        subst hc
        intro hac
        subst hac
        obtain ⟨x, hx, hxa⟩ := List.mem_map.mp ha
        unfold State.sessOf at hno
        have := List.find?_eq_none.mp (Option.isNone_iff_eq_none.mp hno) x hx
        simp [hxa] at this
      · intro x hx
        rcases List.mem_append.mp hx with hx | hx
        · exact (hk.inv h).small x hx
        · rw [List.mem_singleton.mp hx]
          exact hlt

theorem State.finish_keeps {s0 : State} (s : State) (v i : Nat) (b : List Byte) (hk : Keeps s0 s) : Keeps s0 (s.finish v i b).2 := by
  unfold State.finish
  split
  · exact hk
  · split
    · exact State.setSess_keeps _ _ hk (fun h => (sess_filter_inv s (hk.inv h) _).1) (fun h => (sess_filter_inv s (hk.inv h) _).2)
    · refine State.setSess_keeps _ _ hk (fun h => ?_) (fun h => ?_)
      · have e : (s.grd.sess.map fun (x : Sess) => if x.id = i then { x with up := true } else x).map (fun x => x.id) = s.grd.sess.map fun x => x.id := by
          rw [List.map_map]
          apply List.map_congr_left
          intro x _
          dsimp only [Function.comp]
          split <;> rfl
        rw [e]
        exact (hk.inv h).fresh
      · intro x hx
        obtain ⟨y, hy, rfl⟩ := List.mem_map.mp hx
        have := (hk.inv h).small y hy
        split <;> exact this

theorem State.endSession_keeps {s0 : State} (s : State) (v i : Nat) (hk : Keeps s0 s) : Keeps s0 (s.endSession v i).2 :=
  State.setSess_keeps _ _ hk (fun h => (sess_filter_inv s (hk.inv h) _).1) (fun h => (sess_filter_inv s (hk.inv h) _).2)

theorem State.installSak_keeps {s0 : State} (s : State) (d : Nat) (a : Sa) (hk_s : Keeps s0 s) : Keeps s0 (State.installSak s d a) := by
  unfold State.installSak
  (try dsimp only [State.fresh, State.freeVal])
  repeat' (first | with_reducible assumption | with_reducible apply State.setAlert_keeps | with_reducible apply State.modEth_keeps | intro _ | (with_reducible refine Keeps.ite ?_ ?_) | split | (with_reducible refine Keeps.upd ?_ rfl rfl rfl ?_; rotate_left; (fail_if_success with_reducible exact Moved.refl _); exact Moved.any _ _) | dsimp only)

theorem State.setSa_keeps {s0 : State} (s : State) (d v : Nat) (hk_s : Keeps s0 s) : Keeps s0 (State.setSa s d v) := by
  unfold State.setSa
  (try dsimp only [State.fresh, State.freeVal])
  repeat' (first | with_reducible assumption | with_reducible apply State.land_keeps | with_reducible apply State.guardSet_keeps | intro _ | (with_reducible refine Keeps.ite ?_ ?_) | split | (with_reducible refine Keeps.upd ?_ rfl rfl rfl ?_; rotate_left; (fail_if_success with_reducible exact Moved.refl _); exact Moved.any _ _) | dsimp only)

theorem State.report_keeps {s0 : State} (s : State) (fn : Nat) (hk_s : Keeps s0 s) : Keeps s0 (State.report s fn).2 := by
  unfold State.report
  (try dsimp only [State.fresh, State.freeVal])
  repeat' (first | with_reducible assumption | with_reducible apply State.freeBytes_keeps | intro _ | (with_reducible refine Keeps.ite ?_ ?_) | split | (with_reducible refine Keeps.snd ‹_› ?_) | (with_reducible refine Keeps.fst ‹_› ?_) | (with_reducible refine Keeps.upd ?_ rfl rfl rfl ?_; rotate_left; (fail_if_success with_reducible exact Moved.refl _); exact Moved.any _ _) | dsimp only)

theorem State.tdiMove_keeps {s0 : State} (s : State) (fn code : Nat) (from_ : List Nat) (dest extra : Nat) (hk_s : Keeps s0 s) : Keeps s0 (State.tdiMove s fn code from_ dest extra).2 := by
  unfold State.tdiMove
  (try dsimp only [State.fresh, State.freeVal])
  repeat' (first | with_reducible assumption | with_reducible apply State.setTdi_keeps | with_reducible apply State.freeBytes_keeps | intro _ | (with_reducible refine Keeps.ite ?_ ?_) | split | (with_reducible refine Keeps.snd ‹_› ?_) | (with_reducible refine Keeps.fst ‹_› ?_) | (with_reducible refine Keeps.upd ?_ rfl rfl rfl ?_; rotate_left; (fail_if_success with_reducible exact Moved.refl _); exact Moved.any _ _) | dsimp only)

theorem State.tdiLock_keeps {s0 : State} (s : State) (fn : Nat) (hk_s : Keeps s0 s) : Keeps s0 (State.tdiLock s fn).2 := by
  unfold State.tdiLock
  (try dsimp only [State.fresh, State.freeVal])
  repeat' (first | with_reducible assumption | with_reducible apply State.tdiMove_keeps | intro _ | (with_reducible refine Keeps.ite ?_ ?_) | split | (with_reducible refine Keeps.upd ?_ rfl rfl rfl ?_; rotate_left; (fail_if_success with_reducible exact Moved.refl _); exact Moved.any _ _) | dsimp only)

theorem State.tdiStart_keeps {s0 : State} (s : State) (fn : Nat) (hk_s : Keeps s0 s) : Keeps s0 (State.tdiStart s fn).2 := by
  unfold State.tdiStart
  (try dsimp only [State.fresh, State.freeVal])
  repeat' (first | with_reducible assumption | with_reducible apply State.tdiMove_keeps | intro _ | (with_reducible refine Keeps.ite ?_ ?_) | split | (with_reducible refine Keeps.upd ?_ rfl rfl rfl ?_; rotate_left; (fail_if_success with_reducible exact Moved.refl _); exact Moved.any _ _) | dsimp only)

theorem State.tdiStop_keeps {s0 : State} (s : State) (fn : Nat) (hk_s : Keeps s0 s) : Keeps s0 (State.tdiStop s fn).2 := by
  unfold State.tdiStop
  (try dsimp only [State.fresh, State.freeVal])
  repeat' (first | with_reducible assumption | with_reducible apply State.tdiMove_keeps | intro _ | (with_reducible refine Keeps.ite ?_ ?_) | split | (with_reducible refine Keeps.upd ?_ rfl rfl rfl ?_; rotate_left; (fail_if_success with_reducible exact Moved.refl _); exact Moved.any _ _) | dsimp only)

theorem State.ideKey_keeps {s0 : State} (s : State) (stream : Nat) (key : BitVec 256) (hk_s : Keeps s0 s) : Keeps s0 (State.ideKey s stream key).2 := by
  unfold State.ideKey
  (try dsimp only [State.fresh, State.freeVal])
  repeat' (first | with_reducible assumption | intro _ | (with_reducible refine Keeps.ite ?_ ?_) | split | (with_reducible refine Keeps.upd ?_ rfl rfl rfl ?_; rotate_left; (fail_if_success with_reducible exact Moved.refl _); exact Moved.any _ _) | dsimp only)

theorem State.pciServe_keeps {s0 : State} (s : State) (p : List Byte) (hk : Keeps s0 s) :
    ∀ x t, s.pciServe p = some (x, t) → Keeps s0 t := by
  intro x t e
  unfold State.pciServe at e
  dsimp only at e
  split at e
  · exact Keeps.snd (Option.some.inj e) (State.ideKey_keeps _ _ _ hk)
  · exact Keeps.snd (Option.some.inj e) (State.tdiLock_keeps _ _ hk)
  · exact Keeps.snd (Option.some.inj e) (State.report_keeps _ _ hk)
  · exact Keeps.snd (Option.some.inj e) (State.tdiStart_keeps _ _ hk)
  · exact Keeps.snd (Option.some.inj e) (State.tdiStop_keeps _ _ hk)
  · cases e

theorem State.vendorServe_keeps {s0 : State} (s : State) (doe : Bool) (sess : Option Nat) (v : Nat) (b : List Byte) (hk : Keeps s0 s) :
    Keeps s0 (s.vendorServe doe sess v b).2 := by
  unfold State.vendorServe
  dsimp only
  split
  · split
    · exact State.pciServe_keeps s _ hk _ _ ‹_›
    · exact hk
  · split
    · exact hk
    · exact State.installSak_keeps _ _ _ hk
    · exact State.setSa_keeps _ _ _ hk
    · exact State.guardServe_keeps _ _ _ hk
    · exact hk

theorem State.spdmCore_keeps {s0 : State} (s : State) (doe : Bool) (sess : Option Nat) (b : List Byte) (hk_s : Keeps s0 s) : Keeps s0 (State.spdmCore s doe sess b).2 := by
  unfold State.spdmCore
  (try dsimp only [State.fresh, State.freeVal])
  repeat' (first | with_reducible assumption | with_reducible apply State.getVersion_keeps | with_reducible apply State.getCapabilities_keeps | with_reducible apply State.negotiate_keeps | with_reducible apply State.getCertificate_keeps | with_reducible apply State.challenge_keeps | with_reducible apply State.getMeasurements_keeps | with_reducible apply State.keyExchange_keeps | with_reducible apply State.finish_keeps | with_reducible apply State.endSession_keeps | with_reducible apply State.vendorServe_keeps | intro _ | (with_reducible refine Keeps.ite ?_ ?_) | split | (with_reducible refine Keeps.snd ‹_› ?_) | (with_reducible refine Keeps.fst ‹_› ?_) | (with_reducible refine Keeps.upd ?_ rfl rfl rfl ?_; rotate_left; (fail_if_success with_reducible exact Moved.refl _); exact Moved.any _ _) | dsimp only)

theorem State.chunkSend_keeps {s0 : State} (s : State) (doe : Bool) (sess : Option Nat) (b : List Byte) (hk_s : Keeps s0 s) : Keeps s0 (State.chunkSend s doe sess b).2 := by
  unfold State.chunkSend
  (try dsimp only [State.fresh, State.freeVal])
  repeat' (first | with_reducible assumption | with_reducible apply State.modSpdm_keeps | with_reducible apply State.spdmCore_keeps | intro _ | (with_reducible refine Keeps.ite ?_ ?_) | split | (with_reducible refine Keeps.snd ‹_› ?_) | (with_reducible refine Keeps.fst ‹_› ?_) | (with_reducible refine Keeps.upd ?_ rfl rfl rfl ?_; rotate_left; (fail_if_success with_reducible exact Moved.refl _); exact Moved.any _ _) | dsimp only)

theorem State.chunkGet_keeps {s0 : State} (s : State) (doe : Bool) (b : List Byte) (hk_s : Keeps s0 s) : Keeps s0 (State.chunkGet s doe b).2 := by
  unfold State.chunkGet
  (try dsimp only [State.fresh, State.freeVal])
  repeat' (first | with_reducible assumption | with_reducible apply State.modSpdm_keeps | intro _ | (with_reducible refine Keeps.ite ?_ ?_) | split | (with_reducible refine Keeps.upd ?_ rfl rfl rfl ?_; rotate_left; (fail_if_success with_reducible exact Moved.refl _); exact Moved.any _ _) | dsimp only)

theorem State.spdmServe_keeps {s0 : State} (s : State) (doe : Bool) (sess : Option Nat) (b : List Byte) (hk_s : Keeps s0 s) : Keeps s0 (State.spdmServe s doe sess b) := by
  unfold State.spdmServe
  (try dsimp only [State.fresh, State.freeVal])
  repeat' (first | with_reducible assumption | with_reducible apply State.modSpdm_keeps | with_reducible apply State.spdmOut_keeps | with_reducible apply State.spdmCore_keeps | with_reducible apply State.chunkSend_keeps | with_reducible apply State.chunkGet_keeps | intro _ | (with_reducible refine Keeps.ite ?_ ?_) | split | (with_reducible refine Keeps.snd ‹_› ?_) | (with_reducible refine Keeps.fst ‹_› ?_) | (with_reducible refine Keeps.upd ?_ rfl rfl rfl ?_; rotate_left; (fail_if_success with_reducible exact Moved.refl _); exact Moved.any _ _) | dsimp only)

theorem State.spdmMsg_keeps {s0 : State} (s : State) (m : SpdmMsg) (code : Nat) (hk_s : Keeps s0 s) : KeepsRes s0 (State.spdmMsg s m code) := by
  unfold State.spdmMsg
  (try dsimp only [State.fresh, State.freeVal])
  repeat' (first | with_reducible assumption | with_reducible apply live_keeps | with_reducible apply State.spdmServe_keeps | intro _ | (with_reducible refine Keeps.ite ?_ ?_) | split | (with_reducible refine KeepsRes.next ?_) | (with_reducible refine Keeps.upd ?_ rfl rfl rfl ?_; rotate_left; (fail_if_success with_reducible exact Moved.refl _); exact Moved.any _ _) | dsimp only)

theorem execGetVersion_keeps {s0 : State} (m : SpdmMsg) (s : State) (hk_s : Keeps s0 s) : KeepsRes s0 (execGetVersion m s) := by
  unfold execGetVersion
  (try dsimp only [State.fresh, State.freeVal])
  repeat' (first | with_reducible assumption | with_reducible apply State.spdmMsg_keeps | intro _ | (with_reducible refine Keeps.ite ?_ ?_) | split | (with_reducible refine KeepsRes.next ?_) | (with_reducible refine Keeps.upd ?_ rfl rfl rfl ?_; rotate_left; (fail_if_success with_reducible exact Moved.refl _); exact Moved.any _ _) | dsimp only)

theorem execGetCapabilities_keeps {s0 : State} (m : SpdmMsg) (s : State) (hk_s : Keeps s0 s) : KeepsRes s0 (execGetCapabilities m s) := by
  unfold execGetCapabilities
  (try dsimp only [State.fresh, State.freeVal])
  repeat' (first | with_reducible assumption | with_reducible apply State.spdmMsg_keeps | intro _ | (with_reducible refine Keeps.ite ?_ ?_) | split | (with_reducible refine KeepsRes.next ?_) | (with_reducible refine Keeps.upd ?_ rfl rfl rfl ?_; rotate_left; (fail_if_success with_reducible exact Moved.refl _); exact Moved.any _ _) | dsimp only)

theorem execNegotiateAlgorithms_keeps {s0 : State} (m : SpdmMsg) (s : State) (hk_s : Keeps s0 s) : KeepsRes s0 (execNegotiateAlgorithms m s) := by
  unfold execNegotiateAlgorithms
  (try dsimp only [State.fresh, State.freeVal])
  repeat' (first | with_reducible assumption | with_reducible apply State.spdmMsg_keeps | intro _ | (with_reducible refine Keeps.ite ?_ ?_) | split | (with_reducible refine KeepsRes.next ?_) | (with_reducible refine Keeps.upd ?_ rfl rfl rfl ?_; rotate_left; (fail_if_success with_reducible exact Moved.refl _); exact Moved.any _ _) | dsimp only)

theorem execGetDigests_keeps {s0 : State} (m : SpdmMsg) (s : State) (hk_s : Keeps s0 s) : KeepsRes s0 (execGetDigests m s) := by
  unfold execGetDigests
  (try dsimp only [State.fresh, State.freeVal])
  repeat' (first | with_reducible assumption | with_reducible apply State.spdmMsg_keeps | intro _ | (with_reducible refine Keeps.ite ?_ ?_) | split | (with_reducible refine KeepsRes.next ?_) | (with_reducible refine Keeps.upd ?_ rfl rfl rfl ?_; rotate_left; (fail_if_success with_reducible exact Moved.refl _); exact Moved.any _ _) | dsimp only)

theorem execGetCertificate_keeps {s0 : State} (m : SpdmMsg) (s : State) (hk_s : Keeps s0 s) : KeepsRes s0 (execGetCertificate m s) := by
  unfold execGetCertificate
  (try dsimp only [State.fresh, State.freeVal])
  repeat' (first | with_reducible assumption | with_reducible apply State.spdmMsg_keeps | intro _ | (with_reducible refine Keeps.ite ?_ ?_) | split | (with_reducible refine KeepsRes.next ?_) | (with_reducible refine Keeps.upd ?_ rfl rfl rfl ?_; rotate_left; (fail_if_success with_reducible exact Moved.refl _); exact Moved.any _ _) | dsimp only)

theorem execChallenge_keeps {s0 : State} (m : SpdmMsg) (s : State) (hk_s : Keeps s0 s) : KeepsRes s0 (execChallenge m s) := by
  unfold execChallenge
  (try dsimp only [State.fresh, State.freeVal])
  repeat' (first | with_reducible assumption | with_reducible apply State.spdmMsg_keeps | intro _ | (with_reducible refine Keeps.ite ?_ ?_) | split | (with_reducible refine KeepsRes.next ?_) | (with_reducible refine Keeps.upd ?_ rfl rfl rfl ?_; rotate_left; (fail_if_success with_reducible exact Moved.refl _); exact Moved.any _ _) | dsimp only)

theorem execGetMeasurements_keeps {s0 : State} (m : SpdmMsg) (s : State) (hk_s : Keeps s0 s) : KeepsRes s0 (execGetMeasurements m s) := by
  unfold execGetMeasurements
  (try dsimp only [State.fresh, State.freeVal])
  repeat' (first | with_reducible assumption | with_reducible apply State.spdmMsg_keeps | intro _ | (with_reducible refine Keeps.ite ?_ ?_) | split | (with_reducible refine KeepsRes.next ?_) | (with_reducible refine Keeps.upd ?_ rfl rfl rfl ?_; rotate_left; (fail_if_success with_reducible exact Moved.refl _); exact Moved.any _ _) | dsimp only)

theorem execKeyExchange_keeps {s0 : State} (m : SpdmMsg) (s : State) (hk_s : Keeps s0 s) : KeepsRes s0 (execKeyExchange m s) := by
  unfold execKeyExchange
  (try dsimp only [State.fresh, State.freeVal])
  repeat' (first | with_reducible assumption | with_reducible apply State.spdmMsg_keeps | intro _ | (with_reducible refine Keeps.ite ?_ ?_) | split | (with_reducible refine KeepsRes.next ?_) | (with_reducible refine Keeps.upd ?_ rfl rfl rfl ?_; rotate_left; (fail_if_success with_reducible exact Moved.refl _); exact Moved.any _ _) | dsimp only)

theorem execFinish_keeps {s0 : State} (m : SpdmMsg) (s : State) (hk_s : Keeps s0 s) : KeepsRes s0 (execFinish m s) := by
  unfold execFinish
  (try dsimp only [State.fresh, State.freeVal])
  repeat' (first | with_reducible assumption | with_reducible apply State.spdmMsg_keeps | intro _ | (with_reducible refine Keeps.ite ?_ ?_) | split | (with_reducible refine KeepsRes.next ?_) | (with_reducible refine Keeps.upd ?_ rfl rfl rfl ?_; rotate_left; (fail_if_success with_reducible exact Moved.refl _); exact Moved.any _ _) | dsimp only)

theorem execKeyUpdate_keeps {s0 : State} (m : SpdmMsg) (s : State) (hk_s : Keeps s0 s) : KeepsRes s0 (execKeyUpdate m s) := by
  unfold execKeyUpdate
  (try dsimp only [State.fresh, State.freeVal])
  repeat' (first | with_reducible assumption | with_reducible apply State.spdmMsg_keeps | intro _ | (with_reducible refine Keeps.ite ?_ ?_) | split | (with_reducible refine KeepsRes.next ?_) | (with_reducible refine Keeps.upd ?_ rfl rfl rfl ?_; rotate_left; (fail_if_success with_reducible exact Moved.refl _); exact Moved.any _ _) | dsimp only)

theorem execHeartbeat_keeps {s0 : State} (m : SpdmMsg) (s : State) (hk_s : Keeps s0 s) : KeepsRes s0 (execHeartbeat m s) := by
  unfold execHeartbeat
  (try dsimp only [State.fresh, State.freeVal])
  repeat' (first | with_reducible assumption | with_reducible apply State.spdmMsg_keeps | intro _ | (with_reducible refine Keeps.ite ?_ ?_) | split | (with_reducible refine KeepsRes.next ?_) | (with_reducible refine Keeps.upd ?_ rfl rfl rfl ?_; rotate_left; (fail_if_success with_reducible exact Moved.refl _); exact Moved.any _ _) | dsimp only)

theorem execEndSession_keeps {s0 : State} (m : SpdmMsg) (s : State) (hk_s : Keeps s0 s) : KeepsRes s0 (execEndSession m s) := by
  unfold execEndSession
  (try dsimp only [State.fresh, State.freeVal])
  repeat' (first | with_reducible assumption | with_reducible apply State.spdmMsg_keeps | intro _ | (with_reducible refine Keeps.ite ?_ ?_) | split | (with_reducible refine KeepsRes.next ?_) | (with_reducible refine Keeps.upd ?_ rfl rfl rfl ?_; rotate_left; (fail_if_success with_reducible exact Moved.refl _); exact Moved.any _ _) | dsimp only)

theorem execChunkSend_keeps {s0 : State} (m : SpdmMsg) (s : State) (hk_s : Keeps s0 s) : KeepsRes s0 (execChunkSend m s) := by
  unfold execChunkSend
  (try dsimp only [State.fresh, State.freeVal])
  repeat' (first | with_reducible assumption | with_reducible apply State.spdmMsg_keeps | intro _ | (with_reducible refine Keeps.ite ?_ ?_) | split | (with_reducible refine KeepsRes.next ?_) | (with_reducible refine Keeps.upd ?_ rfl rfl rfl ?_; rotate_left; (fail_if_success with_reducible exact Moved.refl _); exact Moved.any _ _) | dsimp only)

theorem execChunkGet_keeps {s0 : State} (m : SpdmMsg) (s : State) (hk_s : Keeps s0 s) : KeepsRes s0 (execChunkGet m s) := by
  unfold execChunkGet
  (try dsimp only [State.fresh, State.freeVal])
  repeat' (first | with_reducible assumption | with_reducible apply State.spdmMsg_keeps | intro _ | (with_reducible refine Keeps.ite ?_ ?_) | split | (with_reducible refine KeepsRes.next ?_) | (with_reducible refine Keeps.upd ?_ rfl rfl rfl ?_; rotate_left; (fail_if_success with_reducible exact Moved.refl _); exact Moved.any _ _) | dsimp only)

theorem execVendorDefinedRequest_keeps {s0 : State} (m : SpdmMsg) (s : State) (hk_s : Keeps s0 s) : KeepsRes s0 (execVendorDefinedRequest m s) := by
  unfold execVendorDefinedRequest
  (try dsimp only [State.fresh, State.freeVal])
  repeat' (first | with_reducible assumption | with_reducible apply State.spdmMsg_keeps | intro _ | (with_reducible refine Keeps.ite ?_ ?_) | split | (with_reducible refine KeepsRes.next ?_) | (with_reducible refine Keeps.upd ?_ rfl rfl rfl ?_; rotate_left; (fail_if_success with_reducible exact Moved.refl _); exact Moved.any _ _) | dsimp only)

theorem execGetLog_keeps {s0 : State} (m : SpdmMsg) (s : State) (hk_s : Keeps s0 s) : KeepsRes s0 (execGetLog m s) := by
  unfold execGetLog
  (try dsimp only [State.fresh, State.freeVal])
  repeat' (first | with_reducible assumption | with_reducible apply State.spdmMsg_keeps | intro _ | (with_reducible refine Keeps.ite ?_ ?_) | split | (with_reducible refine KeepsRes.next ?_) | (with_reducible refine Keeps.upd ?_ rfl rfl rfl ?_; rotate_left; (fail_if_success with_reducible exact Moved.refl _); exact Moved.any _ _) | dsimp only)

theorem State.inSess_keeps {s0 : State} (s : State) (i : Nat) (doe : Bool) (t : State) (hk_s : Keeps s0 s) (hk_t : Keeps s0 t) : KeepsRes s0 (State.inSess s i doe t) := by
  unfold State.inSess
  (try dsimp only [State.fresh, State.freeVal])
  repeat' (first | with_reducible assumption | with_reducible apply live_keeps | intro _ | (with_reducible refine Keeps.ite ?_ ?_) | split | (with_reducible refine Keeps.snd ‹_› ?_) | (with_reducible refine Keeps.fst ‹_› ?_) | (with_reducible refine KeepsRes.next ?_) | (with_reducible refine Keeps.upd ?_ rfl rfl rfl ?_; rotate_left; (fail_if_success with_reducible exact Moved.refl _); exact Moved.any _ _) | dsimp only)

theorem execXsak_keeps {s0 : State} (session port : Nat) (tx : Bool) (an : Nat) (sak : BitVec 256) (salt : BitVec 96) (ssci : W32) (s : State) (hk_s : Keeps s0 s) : KeepsRes s0 (execXsak session port tx an sak salt ssci s) := by
  unfold execXsak
  (try dsimp only [State.fresh, State.freeVal])
  repeat' (first | with_reducible assumption | with_reducible apply State.installSak_keeps | with_reducible apply State.inSess_keeps | intro _ | (with_reducible refine Keeps.ite ?_ ?_) | split | (with_reducible refine KeepsRes.next ?_) | (with_reducible refine Keeps.upd ?_ rfl rfl rfl ?_; rotate_left; (fail_if_success with_reducible exact Moved.refl _); exact Moved.any _ _) | dsimp only)

theorem execXsaSet_keeps {s0 : State} (session port : Nat) (value : W32) (s : State) (hk_s : Keeps s0 s) : KeepsRes s0 (execXsaSet session port value s) := by
  unfold execXsaSet
  (try dsimp only [State.fresh, State.freeVal])
  repeat' (first | with_reducible assumption | with_reducible apply State.setSa_keeps | with_reducible apply State.inSess_keeps | intro _ | (with_reducible refine Keeps.ite ?_ ?_) | split | (with_reducible refine KeepsRes.next ?_) | (with_reducible refine Keeps.upd ?_ rfl rfl rfl ?_; rotate_left; (fail_if_success with_reducible exact Moved.refl _); exact Moved.any _ _) | dsimp only)

theorem State.sessAnswer_keeps {s0 : State} (s : State) (i : Nat) (r : List Byte × State) (hk_s : Keeps s0 s) (hk_r : Keeps s0 r.2) : KeepsRes s0 (State.sessAnswer s i r) := by
  unfold State.sessAnswer
  (try dsimp only [State.fresh, State.freeVal])
  repeat' (first | with_reducible assumption | with_reducible apply State.spdmOut_keeps | with_reducible apply State.inSess_keeps | intro _ | (with_reducible refine Keeps.ite ?_ ?_) | split | (with_reducible refine KeepsRes.next ?_) | (with_reducible refine Keeps.upd ?_ rfl rfl rfl ?_; rotate_left; (fail_if_success with_reducible exact Moved.refl _); exact Moved.any _ _) | dsimp only)

theorem execLockInterface_keeps {s0 : State} (session fn : Nat) (s : State) (hk_s : Keeps s0 s) : KeepsRes s0 (execLockInterface session fn s) := by
  unfold execLockInterface
  (try dsimp only [State.fresh, State.freeVal])
  repeat' (first | with_reducible assumption | with_reducible apply State.tdiLock_keeps | with_reducible apply State.sessAnswer_keeps | intro _ | (with_reducible refine Keeps.ite ?_ ?_) | split | (with_reducible refine KeepsRes.next ?_) | (with_reducible refine Keeps.upd ?_ rfl rfl rfl ?_; rotate_left; (fail_if_success with_reducible exact Moved.refl _); exact Moved.any _ _) | dsimp only)

theorem execStartInterfaceRequest_keeps {s0 : State} (session fn : Nat) (s : State) (hk_s : Keeps s0 s) : KeepsRes s0 (execStartInterfaceRequest session fn s) := by
  unfold execStartInterfaceRequest
  (try dsimp only [State.fresh, State.freeVal])
  repeat' (first | with_reducible assumption | with_reducible apply State.tdiStart_keeps | with_reducible apply State.sessAnswer_keeps | intro _ | (with_reducible refine Keeps.ite ?_ ?_) | split | (with_reducible refine KeepsRes.next ?_) | (with_reducible refine Keeps.upd ?_ rfl rfl rfl ?_; rotate_left; (fail_if_success with_reducible exact Moved.refl _); exact Moved.any _ _) | dsimp only)

theorem execStopInterfaceRequest_keeps {s0 : State} (session fn : Nat) (s : State) (hk_s : Keeps s0 s) : KeepsRes s0 (execStopInterfaceRequest session fn s) := by
  unfold execStopInterfaceRequest
  (try dsimp only [State.fresh, State.freeVal])
  repeat' (first | with_reducible assumption | with_reducible apply State.tdiStop_keeps | with_reducible apply State.sessAnswer_keeps | intro _ | (with_reducible refine Keeps.ite ?_ ?_) | split | (with_reducible refine KeepsRes.next ?_) | (with_reducible refine Keeps.upd ?_ rfl rfl rfl ?_; rotate_left; (fail_if_success with_reducible exact Moved.refl _); exact Moved.any _ _) | dsimp only)

theorem execIdeKm_keeps {s0 : State} (session stream : Nat) (key : BitVec 256) (s : State) (hk_s : Keeps s0 s) : KeepsRes s0 (execIdeKm session stream key s) := by
  unfold execIdeKm
  (try dsimp only [State.fresh, State.freeVal])
  repeat' (first | with_reducible assumption | with_reducible apply State.ideKey_keeps | with_reducible apply State.sessAnswer_keeps | intro _ | (with_reducible refine Keeps.ite ?_ ?_) | split | (with_reducible refine KeepsRes.next ?_) | (with_reducible refine Keeps.upd ?_ rfl rfl rfl ?_; rotate_left; (fail_if_success with_reducible exact Moved.refl _); exact Moved.any _ _) | dsimp only)

end Sys2Proof.Machine
end

