-- ==== Sys2Proof/Laws/Ports.lean ====
section
/-! SUPPORT. What a port and a sequenced link read as after a change of one. -/

namespace Sys2Proof.Machine

theorem find_mapIf {α : Type} (p : α → Bool) (f : α → α) (hf : ∀ x, p x = true → p (f x) = true) (l : List α) :
    (mapIf p f l).find? p = (l.find? p).map f := by
  unfold mapIf
  induction l with
  | nil => rfl
  | cons x l ih =>
    simp only [List.map_cons, List.find?_cons]
    by_cases h : p x = true
    · simp [h, hf x h]
    · have h' : p x = false := by simpa using h
      simp only [h', Bool.false_eq_true, if_false]
      exact ih

theorem find_mapIf_other {α : Type} (p q : α → Bool) (f : α → α) (hf : ∀ x, p x = true → q x = false ∧ q (f x) = false) (l : List α) :
    (mapIf p f l).find? q = l.find? q := by
  unfold mapIf
  induction l with
  | nil => rfl
  | cons x l ih =>
    simp only [List.map_cons, List.find?_cons]
    by_cases h : p x = true
    · simp only [h, if_true, hf x h]
      exact ih
    · rw [if_neg h, ih]

theorem find_none_of_any {α : Type} {p : α → Bool} {l : List α} (h : ¬ l.any p = true) : l.find? p = none := by
  rw [List.find?_eq_none]
  intro x hx hp
  exact h (List.any_eq_true.mpr ⟨x, hx, hp⟩)

theorem find_some_of_any {α : Type} {p : α → Bool} {l : List α} (h : l.any p = true) : ∃ x, l.find? p = some x := by
  obtain ⟨x, hx, hp⟩ := List.any_eq_true.mp h
  exact Option.isSome_iff_exists.mp (List.find?_isSome.mpr ⟨x, hx, hp⟩)

/-- A port after a change of it that keeps its die. -/
theorem eth_modEth (s : State) (d : Nat) (f : Eth → Eth) (hf : ∀ e, (f e).d = e.d) : (s.modEth d f).eth d = f (s.eth d) := by
  unfold State.modEth State.eth
  split
  · rename_i h
    obtain ⟨x, hx⟩ := find_some_of_any h
    dsimp only
    rw [find_mapIf _ f (fun x hp => by rw [hf]; exact hp), hx]
    rfl
  · rename_i h
    have hn := find_none_of_any h
    have hi : ((f (Eth.idle d)).d == d) = true := by rw [hf]; exact beq_self_eq_true d
    simp only [List.find?_append, hn, List.find?_cons, hi, Option.none_or, Option.getD_some, Option.getD_none]

/-- Another die's port is as before. -/
theorem eth_modEth_other (s : State) (d e : Nat) (f : Eth → Eth) (hf : ∀ x, (f x).d = x.d) (h : e ≠ d) : (s.modEth d f).eth e = s.eth e := by
  unfold State.modEth State.eth
  split
  · dsimp only
    rw [find_mapIf_other _ _ f (fun x hp => by
      have : x.d = d := by simpa using hp
      rw [hf, this]
      have : (d == e) = false := by simpa using h.symm
      exact ⟨this, this⟩)]
  · have hi : ((f (Eth.idle d)).d == e) = false := by
      rw [hf]
      simpa [Eth.idle] using h.symm
    simp only [List.find?_append, List.find?_cons, hi, List.find?_nil, Option.or_none]

/-- A change of a port changes only the ports. -/
theorem modEth_state (s : State) (d : Nat) (f : Eth → Eth) : ∃ l, s.modEth d f = { s with eths := l } := by
  unfold State.modEth
  split <;> exact ⟨_, rfl⟩

/-- A sequenced link after a change of it that keeps whose it is. -/
theorem wire_modWire (s : State) (d u : Nat) (f : Link → Link) (hf : ∀ l, l.d = d → l.unit = u → (f l).d = d ∧ (f l).unit = u) :
    (s.modWire d u f).wire d u = f (s.wire d u) := by
  unfold State.modWire State.wire
  dsimp only
  have hp : ∀ x : Link, (x.d == d && x.unit == u) = true → ((f x).d == d && (f x).unit == u) = true := by
    intro x hx
    simp only [Bool.and_eq_true, beq_iff_eq] at hx ⊢
    exact hf x hx.1 hx.2
  split
  · rename_i h
    obtain ⟨x, hx⟩ := find_some_of_any h
    dsimp only
    rw [find_mapIf _ f hp, hx]
    rfl
  · rename_i h
    have hn := find_none_of_any h
    have hi := hp (Link.idle d u) (by simp [Link.idle])
    simp only [List.find?_append, hn, List.find?_cons, hi, Option.none_or, Option.getD_some, Option.getD_none]

/-- Another link is as before. -/
theorem wire_modWire_other (s : State) (d u e v : Nat) (f : Link → Link) (hf : ∀ l, l.d = d → l.unit = u → (f l).d = d ∧ (f l).unit = u)
    (h : e ≠ d ∨ v ≠ u) : (s.modWire d u f).wire e v = s.wire e v := by
  unfold State.modWire State.wire
  dsimp only
  have hp : ∀ x : Link, (x.d == d && x.unit == u) = true → (x.d == e && x.unit == v) = false ∧ ((f x).d == e && (f x).unit == v) = false := by
    intro x hx
    simp only [Bool.and_eq_true, beq_iff_eq] at hx
    obtain ⟨h1, h2⟩ := hf x hx.1 hx.2
    rw [hx.1, hx.2, h1, h2]
    have : (d == e && u == v) = false := by
      rw [Bool.eq_false_iff]
      intro hc
      simp only [Bool.and_eq_true, beq_iff_eq] at hc
      omega
    exact ⟨this, this⟩
  split
  · dsimp only
    rw [find_mapIf_other _ _ f hp]
  · have hi := (hp (Link.idle d u) (by simp [Link.idle])).2
    simp only [List.find?_append, List.find?_cons, hi, List.find?_nil, Option.or_none]

/-- A change of a link changes only the links. -/
theorem modWire_state (s : State) (d u : Nat) (f : Link → Link) : ∃ l, s.modWire d u f = { s with wires := l } := by
  unfold State.modWire
  dsimp only
  split <;> exact ⟨_, rfl⟩

end Sys2Proof.Machine
end

