-- ==== Sys2Proof/WellFormed.lean ====
section
/-! DEFINITION. When a command is well formed: every operand lies in the range that the package's numbering gives it
(dies, rings, partitions, engines, ports, registers) and every frame or request in the range of its layout's fields. A
command of the outside world is always well formed; the meanings are total all the same. -/

namespace Sys2Proof.WellFormed

/-- Holds of an absent operand. -/
def optOk {α : Type} (f : α → Bool) : Option α → Bool
  | none => true
  | some x => f x

/-- A master names a virtual function, a die and a connection that can be (Table 18-10). -/
def masterOk : Master → Bool
  | .vf n => decide (1 ≤ n) && decide (n ≤ 16)
  | .remote d c => decide (d < 8) && decide (c < 2 ^ 20)
  | _ => true

/-- A doorbell write comes from a well-formed master. -/
def bellOk (b : Bell) : Bool := masterOk b.master

/-- A register write is four aligned bytes in a die's window (R610). -/
def regWriteOk (w : RegWrite) : Bool :=
  masterOk w.master && decide (w.die < 8) && decide (w.off < 2 ^ 24) && decide (w.off % 4 = 0)

/-- The fields of a vector instruction fit its word (R201). -/
def vfieldsOk (f : VFields) : Bool := decide (f.d < 32) && decide (f.a < 32) && decide (f.b < 32) && decide (f.c < 32)

/-- A frame's priority and addresses fit. -/
def frameOk (f : Frame) : Bool :=
  optOk (fun t => decide (t < 2 ^ 16)) f.tag && decide (f.dst < 2 ^ 48) && decide (f.src < 2 ^ 48) && decide (f.etype < 2 ^ 16)

/-- A link control frame's address and SEQ of acknowledgement fit their fields. -/
def linkCtlOk (x : LinkCtl) : Bool := decide (x.dst < 2 ^ 48) && decide (x.ack < 2 ^ 16)

/-- A transport packet's fields fit Tables 10-1 and 10-2. -/
def packetOk (k : Packet) : Bool :=
  decide (k.opcode < 256) && decide (k.dstConn < 2 ^ 24) && decide (k.prio < 8) && decide (k.psn < 2 ^ 24) &&
    decide (k.msn < 2 ^ 24) && decide (k.key < 2 ^ 32) && decide (k.roff < 2 ^ 64) && decide (k.synd < 256)

/-- A wheel frame's fields fit Table 11-5. -/
def wheelFrameOk (f : WheelFrame) : Bool :=
  decide (f.kind < 8) && decide (f.phase < 2) && decide (f.dir < 4) && decide (f.slice < 256) && decide (f.seq < 2 ^ 16) &&
    decide (f.group < 4096) && decide (f.srcRank < 1024) && decide (f.dstRank < 1024) && decide (f.ver < 4)

/-- A commit frame's fields fit Table 12-3. -/
def commitFrameOk (f : CommitFrame) : Bool :=
  decide (f.kind < 16) && decide (f.seq < 2 ^ 16) && decide (f.domain < 16) && decide (f.commit < 2 ^ 32) &&
    decide (f.srcRank < 2048) && decide (f.hold < 2 ^ 16) && decide (f.ver < 4)

/-- A discovery frame's role and part fit Table 17-3. -/
def discFrameOk (f : DiscFrame) : Bool := decide (f.role < 8) && decide (f.part < 16) && decide (f.serial < 2 ^ 64)

/-- A change frame's fields fit Table 19-3. -/
def changeFrameOk (f : ChangeFrame) : Bool := decide (f.kind < 16) && decide (f.role < 8) && decide (f.serial < 2 ^ 64)

/-- A guard request's path names a mailbox or a session that can be (R561). -/
def greqOk (r : GReq) : Bool :=
  match r.path with
  | .mailbox m => decide (m < 64)
  | .sb => true
  | .ses n => decide (n < 4)

/-- A bus request names a function and a BAR. -/
def busReqOk (r : BusReq) : Bool := decide (r.rid < 2 ^ 16) && decide (r.fn < 17) && decide (r.bar < 6)

/-- Whether a command is well formed. -/
def wf (i : Instr) : Bool :=
  match i with
  | .doorbellPi ring bell rival => decide (ring < 256) && bellOk bell && optOk bellOk rival
  | .doorbellCqHead ring bell rival => decide (ring < 256) && bellOk bell && optOk bellOk rival
  | .doorbellEvqHead ring bell rival => decide (ring < 256) && bellOk bell && optOk bellOk rival
  | .descriptorFetch ring _ => decide (ring < 256)
  | .descriptorAccept d => decide (d < 8)
  | .descriptorComplete _ => true
  | .msixUnmask fn vector => decide (fn < 17) && decide (vector < 336)
  | .nop _ => true
  | .copy _ => true
  | .copyInline _ => true
  | .layerMark _ => true
  | .place _ => true
  | .prefetch _ => true
  | .prefetchEntryIssue _ => true
  | .matrix _ => true
  | .stationaryLoad d e _ => decide (d < 8) && decide (e < 4)
  | .passStart d e _ _ _ => decide (d < 8) && decide (e < 4)
  | .passSkip d e => decide (d < 8) && decide (e < 4)
  | .drainRowTake x => decide (x.d < 8)
  | .convert _ => true
  | .histInit _ => true
  | .histClose _ => true
  | .histRearm _ => true
  | .histClear _ => true
  | .histFold _ => true
  | .vector _ => true
  | .veNop d v f => decide (d < 8) && decide (v < 2) && vfieldsOk f
  | .ld d v f => decide (d < 8) && decide (v < 2) && vfieldsOk f
  | .st d v f => decide (d < 8) && decide (v < 2) && vfieldsOk f
  | .movi d v f => decide (d < 8) && decide (v < 2) && vfieldsOk f
  | .add d v f => decide (d < 8) && decide (v < 2) && vfieldsOk f
  | .sub d v f => decide (d < 8) && decide (v < 2) && vfieldsOk f
  | .mul d v f => decide (d < 8) && decide (v < 2) && vfieldsOk f
  | .fma d v f => decide (d < 8) && decide (v < 2) && vfieldsOk f
  | .fnma d v f => decide (d < 8) && decide (v < 2) && vfieldsOk f
  | .max d v f => decide (d < 8) && decide (v < 2) && vfieldsOk f
  | .min d v f => decide (d < 8) && decide (v < 2) && vfieldsOk f
  | .maxnum d v f => decide (d < 8) && decide (v < 2) && vfieldsOk f
  | .minnum d v f => decide (d < 8) && decide (v < 2) && vfieldsOk f
  | .abs d v f => decide (d < 8) && decide (v < 2) && vfieldsOk f
  | .neg d v f => decide (d < 8) && decide (v < 2) && vfieldsOk f
  | .sellt d v f => decide (d < 8) && decide (v < 2) && vfieldsOk f
  | .exp d v f => decide (d < 8) && decide (v < 2) && vfieldsOk f
  | .rcp d v f => decide (d < 8) && decide (v < 2) && vfieldsOk f
  | .rsqrt d v f => decide (d < 8) && decide (v < 2) && vfieldsOk f
  | .ssum d v f => decide (d < 8) && decide (v < 2) && vfieldsOk f
  | .smaxa d v f => decide (d < 8) && decide (v < 2) && vfieldsOk f
  | .update _ => true
  | .stageReplay _ => true
  | .gate _ => true
  | .batchBuild _ x => decide (x.slot < 64)
  | .batchReplay d unit => decide (d < 8) && decide (unit < 16)
  | .routerCombine d p _ _ tokens _ ofmt rnd _ _ => decide (d < 8) && decide (p < 16) && decide (tokens.n < 16385) && decide (ofmt < 15) && decide (rnd < 3)
  | .allreduce _ => true
  | .reduceScatter _ => true
  | .allgather _ => true
  | .shift _ => true
  | .permute _ => true
  | .exchange _ => true
  | .ret _ => true
  | .groupSet _ => true
  | .connCreate _ => true
  | .connModify _ => true
  | .connDestroy _ => true
  | .connQuery _ => true
  | .register _ => true
  | .invalidate _ => true
  | .write _ => true
  | .writeInline _ => true
  | .send _ => true
  | .read _ => true
  | .postBuf _ => true
  | .flashRead _ => true
  | .flashWrite _ => true
  | .flashZero _ => true
  | .flashTrim _ => true
  | .flashFlush _ => true
  | .flashPieceComplete _ piece x => decide (piece < 4294967296) && decide (x.status < 65536)
  | .flashPieceTimeout _ _ => true
  | .flashAbortTimeout port => decide (port < 8)
  | .decode _ => true
  | .twin _ => true
  | .revert _ => true
  | .commit _ => true
  | .domainSet _ => true
  | .holdSet _ => true
  | .manifest _ _ => true
  | .manifestScan => true
  | .mbQuery m _ master => decide (m < 64) && masterOk master
  | .mbPause m _ master => decide (m < 64) && masterOk master
  | .mbResume m _ master => decide (m < 64) && masterOk master
  | .mbReset m _ master => decide (m < 64) && masterOk master
  | .mbEcho m _ master => decide (m < 64) && masterOk master
  | .mbGuard m _ master => decide (m < 64) && masterOk master
  | .guardQuery r => greqOk r
  | .setClkLimit r => greqOk r
  | .setCapCeil r => greqOk r
  | .setCapSb r => greqOk r
  | .setTherm r => greqOk r
  | .setDisc r => greqOk r
  | .startDisc r => greqOk r
  | .guardReset r => greqOk r
  | .guardResetDelay => true
  | .readLog r => greqOk r
  | .fwBegin r => greqOk r
  | .fwWrite r => greqOk r
  | .fwCommit r => greqOk r
  | .debugNonce r => greqOk r
  | .debugUnlock r => greqOk r
  | .svnAdvance r => greqOk r
  | .getVersion _ => true
  | .getCapabilities _ => true
  | .negotiateAlgorithms _ => true
  | .getDigests _ => true
  | .getCertificate _ => true
  | .challenge _ => true
  | .getMeasurements _ => true
  | .keyExchange _ => true
  | .finish _ => true
  | .keyUpdate _ => true
  | .heartbeat _ => true
  | .endSession _ => true
  | .chunkSend _ => true
  | .chunkGet _ => true
  | .vendorDefinedRequest _ => true
  | .getLog _ => true
  | .xsak _ port _ an _ _ _ => decide (port < 8) && decide (an < 4)
  | .xsaSet _ port _ => decide (port < 8)
  | .lockInterface _ fn => decide (fn < 17)
  | .ideKm _ _ _ => true
  | .measureObject obj => decide (obj < 1048576)
  | .frameReceive d f => decide (d < 8) && frameOk f
  | .frameTransmit d => decide (d < 8)
  | .pauseFrameReceive d f => decide (d < 8) && frameOk f
  | .pauseTimerExpire d prio => decide (d < 8) && decide (prio < 8)
  | .poolHighCross d _ => decide (d < 8)
  | .poolLowCross d _ => decide (d < 8)
  | .pauseRepeat d prio => decide (d < 8) && decide (prio < 8)
  | .ximelCapability d _ x => decide (d < 8) && linkCtlOk x
  | .ximelDataReceive d seq _ x => decide (d < 8) && decide (seq < 65536) && decide (x.prio < 8) && frameOk x.f
  | .ximelAckTimer d => decide (d < 8)
  | .ximelNakReceive d x => decide (d < 8) && linkCtlOk x
  | .ximelNakResend d => decide (d < 8)
  | .ximelReplayTimeout d => decide (d < 8)
  | .laneFail d lane => decide (d < 8) && decide (lane < 8)
  | .narrowRequestRepeat d => decide (d < 8)
  | .narrowRequest d lanes x => decide (d < 8) && decide (lanes.group < 8) && linkCtlOk x
  | .narrowAck d lanes x => decide (d < 8) && decide (lanes.group < 8) && linkCtlOk x
  | .narrowAckTimeout d => decide (d < 8)
  | .narrowAlign d _ => decide (d < 8)
  | .narrowAlignFail d => decide (d < 8)
  | .widen d => decide (d < 8)
  | .widenTrainEnd d _ => decide (d < 8)
  | .widenRequest x => decide (x.d < 8) && linkCtlOk x.x
  | .widenAck x => decide (x.d < 8) && linkCtlOk x.x
  | .retrain d => decide (d < 8)
  | .retrainDeferEnd d => decide (d < 8)
  | .portLinkUp d => decide (d < 8)
  | .portHoldoutTimeout d => decide (d < 8)
  | .sendPacket d k => decide (d < 8) && packetOk k
  | .writePacket d k => decide (d < 8) && packetOk k
  | .readReqPacket d k => decide (d < 8) && packetOk k
  | .readRespPacket d k => decide (d < 8) && packetOk k
  | .ackPacket d k => decide (d < 8) && packetOk k
  | .nakPacket d k => decide (d < 8) && packetOk k
  | .xtAckTimer d conn => decide (d < 8) && decide (conn < 1048576)
  | .xtNakResend d conn => decide (d < 8) && decide (conn < 1048576)
  | .retransmitTimeout d conn => decide (d < 8) && decide (conn < 1048576)
  | .rnrWait d conn => decide (d < 8) && decide (conn < 1048576)
  | .readRetryTimeout d conn => decide (d < 8) && decide (conn < 1048576)
  | .contextFetch d conn _ => decide (d < 8) && decide (conn < 1048576)
  | .fenceRelease d conn => decide (d < 8) && decide (conn < 1048576)
  | .receiveCompletion d conn => decide (d < 8) && decide (conn < 1048576)
  | .xtDisable d => decide (d < 8)
  | .wheelDataFrame d f => decide (d < 8) && wheelFrameOk f
  | .wheelCreditFrame d f => decide (d < 8) && wheelFrameOk f
  | .wheelCountsFrame d f => decide (d < 8) && wheelFrameOk f
  | .wheelStartFrame d f => decide (d < 8) && wheelFrameOk f
  | .wheelAckFrame d f => decide (d < 8) && wheelFrameOk f
  | .wheelNakFrame d f => decide (d < 8) && wheelFrameOk f
  | .wheelReplayTimeout d => decide (d < 8)
  | .collectiveTimeout _ => true
  | .wheelDisable d => decide (d < 8)
  | .voteReady group => decide (group < 64)
  | .prepareFrame d f => decide (d < 8) && commitFrameOk f
  | .decideFrame d f => decide (d < 8) && commitFrameOk f
  | .buddyPushStart group obj => decide (group < 64) && decide (obj < 1048576)
  | .pushFrame d f => decide (d < 8) && commitFrameOk f
  | .pushRevertFrame d f => decide (d < 8) && commitFrameOk f
  | .pushAckFrame d f => decide (d < 8) && commitFrameOk f
  | .cmtLinkAck d f => decide (d < 8) && commitFrameOk f
  | .cmtLinkNak d f => decide (d < 8) && commitFrameOk f
  | .commitStallTimer dom _ _ => decide (dom < 16)
  | .memberLost dom _ => decide (dom < 16)
  | .queryFrame d f => decide (d < 8) && commitFrameOk f
  | .reportFrame d f => decide (d < 8) && commitFrameOk f
  | .cmtDisable d => decide (d < 8)
  | .driveEnumerate d _ _ _ _ _ _ => decide (d < 8)
  | .refetchComplete d _ => decide (d < 8)
  | .sliceExpire d p => decide (d < 8) && decide (p < 16)
  | .contextSwitch d p _ => decide (d < 8) && decide (p < 16)
  | .partitionEnable d p _ => decide (d < 8) && decide (p < 16)
  | .partitionDisable d p => decide (d < 8) && decide (p < 16)
  | .partMaskWrite d p _ master => decide (d < 8) && decide (p < 16) && masterOk master
  | .weirGrant d path link _ _ => decide (d < 8) && decide (path < 7) && decide (link < 3)
  | .servingEnable p _ => decide (p < 16)
  | .servingStepBuild p => decide (p < 16)
  | .servingStepComplete p => decide (p < 16)
  | .bar2Read r => busReqOk r
  | .bar2Write r => busReqOk r
  | .peerRequest r _ => busReqOk r
  | .cxlMemRead dpa => decide (dpa < 281474976710656)
  | .cxlMemWrite dpa _ => decide (dpa < 281474976710656)
  | .cacheAnswer _ _ => true
  | .biasToShared => true
  | .biasToDevice => true
  | .biasEnable => true
  | .configRequest fn off _ => decide (fn < 17) && decide (off < 4096)
  | .activityWindow d _ => decide (d < 8)
  | .sensorRead d _ => decide (d < 8)
  | .capAllocation => true
  | .freqDecision => true
  | .freqSwitch => true
  | .vrRdyRise d => decide (d < 8)
  | .vrRdyFall d => decide (d < 8)
  | .uvwAssert d => decide (d < 8)
  | .uvwClear d => decide (d < 8)
  | .uvwHoldEnd => true
  | .clkModeWrite _ => true
  | .cadenceBroken _ => true
  | .capExceeded _ => true
  | .thermalRead d _ => decide (d < 8)
  | .throttleStep d => decide (d < 8)
  | .fanFail _ => true
  | .fanRecover _ => true
  | .domainStart d dom => decide (d < 8) && decide (dom < 44)
  | .domainStop d dom => decide (d < 8) && decide (dom < 44)
  | .powerOn _ => true
  | .pwrgoodFall => true
  | .coldReset _ _ => true
  | .warmReset _ => true
  | .dieWarmReset d => decide (d < 8)
  | .hostFundamentalReset => true
  | .flrPf => true
  | .flrVf fn => decide (fn < 17)
  | .guardRestart d => decide (d < 8)
  | .testReset => true
  | .resetEnd => true
  | .guardBoot _ _ => true
  | .dieEnumeration _ => true
  | .enumerationTimeout d => decide (d < 8)
  | .hostLinkTrain => true
  | .portEnableAuto => true
  | .discoveryFrame d f => decide (d < 8) && discFrameOk f
  | .discoverySendTimer d => decide (d < 8)
  | .discoveryValid => true
  | .scrubRead d _ _ _ => decide (d < 8)
  | .poisonFound _ _ => true
  | .ownerSearch d => decide (d < 8)
  | .rowRepair d _ _ => decide (d < 8)
  | .unitFence x unit _ => decide (x.d < 8) && decide (unit < 16) && optOk regWriteOk x.rival
  | .progressWatchdog x unit => decide (x.d < 8) && decide (unit < 16) && optOk regWriteOk x.rival
  | .rasFence x _ => decide (x.d < 8) && optOk regWriteOk x.rival
  | .rasReturn d _ => decide (d < 8)
  | .autoReturnTimer d unit => decide (d < 8) && decide (unit < 16)
  | .selfTestEnd d unit _ => decide (d < 8) && decide (unit < 16)
  | .serviceEntry d unit => decide (d < 8) && decide (unit < 16)
  | .meshChange => true
  | .meshChangeAck d => decide (d < 8)
  | .ucieRetrain d _ => decide (d < 8)
  | .ucieRetrainEnd d k _ => decide (d < 8) && decide (k < 3)
  | .torusLinkDown d => decide (d < 8)
  | .torusLinkUp d => decide (d < 8)
  | .linkDown d f => decide (d < 8) && changeFrameOk f
  | .linkUp d f => decide (d < 8) && changeFrameOk f
  | .pkgFailed d f => decide (d < 8) && changeFrameOk f
  | .rasDeclare _ => true
  | .ringEnable ring _ => decide (ring < 256)
  | .ringDisable ring => decide (ring < 256)
  | .evqEnable p _ => decide (p < 16)
  | .seqActPeakClr d _ => decide (d < 8)
  | .rasLogClr d _ => decide (d < 8)
  | .grdLostClr d _ => decide (d < 8)
  | .counterClear d off _ _ => decide (d < 8) && decide (off < 16777216)
  | .w1cClear d off _ _ => decide (d < 8) && decide (off < 16777216)
  | .registerWrite w rival => regWriteOk w && optOk regWriteOk rival
  | .counterLoRead d off _ => decide (d < 8) && decide (off < 16777216)
  | .hbmTrainingEnd d _ => decide (d < 8)
  | .hostLinkUp _ _ _ _ _ => true
  | .hostLinkDown => true
  | .portLinkDown d => decide (d < 8)
  | .ucieLinkLost d k => decide (d < 8) && decide (k < 3)
  | .wheelAckTimer d => decide (d < 8)
  | .wheelNakResend d => decide (d < 8)
  | .cmtReplayTimeout d => decide (d < 8)
  | .cmtAckTimer d => decide (d < 8)
  | .cmtNakResend d => decide (d < 8)
  | .startInterfaceRequest _ fn => decide (fn < 17)
  | .stopInterfaceRequest _ fn => decide (fn < 17)
  | .servingDisable p => decide (p < 16)
  | .mbBellRejected m _ master => decide (m < 64) && masterOk master
  | .unknownService m _ master => decide (m < 64) && masterOk master
  | .guardUnknownOpcode r => greqOk r

end Sys2Proof.WellFormed
end

