-- ==== Sys2Proof/Tests/Slice0.lean ====
section
/-! SUPPORT. Tests. Ill-formed commands that the check of each operand refuses; small checks of one command each against values read
from the spec; and for each statement a witness that its hypotheses can be met together, clause by clause, on small states. -/

namespace Sys2Proof.Tests

set_option Elab.async false

open Machine

/-! ## Helpers -/

/-- The state after reset with some registers set: die, offset, value. -/
def st (rs : List (Nat × Nat × Nat)) : State := rs.foldl (fun s x => s.setRegN x.1 x.2.1 x.2.2) State.reset

/-- A block of bytes with fields set: offset, length, value. -/
def blob (n : Nat) (fs : List (Nat × Nat × Nat)) : List Byte := fs.foldl (fun b x => spliceAt b x.1 (natLe x.2.1 x.2.2)) (List.replicate n 0)

/-- Descriptor 0 of ring 0, accepted and not started. -/
def wk (fs : List (Nat × Nat × Nat)) : Work :=
  ⟨0, 0, 0, 0, blob 64 fs, 0, 0, none, none, 0, false, none, 0, 0, false, false, false, Rec.empty, [], false, [], false⟩

/-- A state with one descriptor. -/
def has (s : State) (w : Work) : State := { s with seq := { s.seq with works := [w], nextId := 1 } }

/-- What a command leaves, or the state as it was where it does not answer a next state. -/
def after (c : Instr) (s : State) : State := match exec c s with | .next t => t | _ => s

/-- A die is up, by its three tests. -/
theorem up_of {s : State} {d : Nat} (h : (!s.tripped && decide (d < s.part.dies) && !s.inReset d) = true) : DieUp s d := by
  simp only [Bool.and_eq_true, Bool.not_eq_true', decide_eq_true_eq] at h
  exact ⟨h.1.1, h.1.2, h.2⟩

/-- Nothing holds some ranges, by its tests. -/
theorem clear_of {s : State} {rs : List Rng} (h : (rs.all (fun r => !s.refetching r && !s.measured r) &&
    (s.pagesOf rs).all fun x => decide (x.1 ∈ s.hst.answered)) = true) : Clear s rs := by
  simp only [Bool.and_eq_true, List.all_eq_true, Bool.not_eq_true', decide_eq_true_eq] at h
  exact ⟨h.1, h.2⟩

/-- A descriptor starts, by its tests. -/
theorem starts_of {s : State} {id : Nat} {k : Work → Bool} {w : Work} {rs : List Rng} {cs : List Nat}
    (h : (!s.tripped && decide (s.work id = some w) && k w && s.canStart w && decide (w.pre = 0) &&
      (s.rangesCodes w.die w.part rs).all (fun c => decide (c = 0)) && cs.all (fun c => decide (c = 0)) &&
      rs.all (fun r => !s.refetching r && !s.measured r) && (s.pagesOf rs).all fun x => decide (x.1 ∈ s.hst.answered)) = true) :
    Starts s id k w rs cs := by
  simp only [Bool.and_eq_true, List.all_eq_true, Bool.not_eq_true', decide_eq_true_eq] at h
  obtain ⟨⟨⟨⟨⟨⟨⟨⟨a, b⟩, c⟩, d⟩, e⟩, f⟩, g⟩, i⟩, j⟩ := h
  exact ⟨a, b, c, d, e, f, g, ⟨i, j⟩⟩


/-! ## Well-formed commands -/

/-- Each check refuses a command with one operand out of its range. -/
theorem test_ill_formed : [Instr.descriptorAccept 8, .descriptorFetch 256 1, .msixUnmask 17 0, .msixUnmask 0 336, .passSkip 0 4,
    .veNop 0 2 ⟨0, 0, 0, 0, false, false, false, 0⟩, .veNop 0 0 ⟨32, 0, 0, 0, false, false, false, 0⟩, .batchBuild 0 ⟨64, []⟩, .batchReplay 0 16,
    .routerCombine 0 16 0 0 ⟨1, []⟩ 1 0 0 false 0, .routerCombine 0 0 0 0 ⟨16385, []⟩ 1 0 0 false 0, .routerCombine 0 0 0 0 ⟨1, []⟩ 1 15 0 false 0,
    .routerCombine 0 0 0 0 ⟨1, []⟩ 1 0 3 false 0, .doorbellPi 0 ⟨.vf 17, 0⟩ none, .doorbellPi 0 ⟨.remote 8 0, 0⟩ none,
    .doorbellPi 0 ⟨.pf, 0⟩ (some ⟨.vf 0, 0⟩), .registerWrite ⟨.pf, 0, 2, 0, 15⟩ none, .registerWrite ⟨.pf, 0, 2 ^ 24, 0, 15⟩ none,
    .mbQuery 64 0 .pf, .guardQuery ⟨.ses 4, []⟩, .guardQuery ⟨.mailbox 64, []⟩, .xsak 0 0 true 4 0 0 0, .lockInterface 0 17,
    .measureObject 1048576, .laneFail 0 8, .narrowRequest 0 ⟨0, 8⟩ ⟨0, none, 0⟩, .narrowRequest 0 ⟨0, 0⟩ ⟨2 ^ 48, none, 0⟩, .pauseTimerExpire 0 8,
    .pauseFrameReceive 0 ⟨0, 0, some 65536, 0, [], 64, 0, 0, true, none⟩,
    .xtAckTimer 0 1048576, .voteReady 64, .memberLost 16 0, .flashPieceComplete 0 0 ⟨65536, []⟩, .sliceExpire 0 16, .weirGrant 0 7 0 0 [],
    .weirGrant 0 2 3 0 [], .bar2Read ⟨0, 17, 2, 0, 4, []⟩, .bar2Read ⟨0, 0, 6, 0, 4, []⟩, .bar2Read ⟨65536, 0, 2, 0, 4, []⟩, .cxlMemRead (2 ^ 48),
    .configRequest 0 4096 none, .domainStart 0 44, .unitFence ⟨0, none⟩ 16 0, .rasFence ⟨0, some ⟨.pf, 0, 2, 0, 15⟩⟩ 0, .ucieLinkLost 0 3, .counterLoRead 0 (2 ^ 24) false,
    .frameReceive 0 ⟨2 ^ 48, 0, none, 0, [], 64, 0, 0, true, none⟩].map WellFormed.wf = List.replicate 47 false := by decide +kernel

/-- A frame of each other kind with a field too wide for its layout is refused. -/
theorem test_ill_formed_frames :
    WellFormed.packetOk ⟨1, false, false, false, false, false, false, 0, 0, 2 ^ 24, 0, 0, 0, 0, 0, 0, 0, 0, []⟩ = false ∧
    WellFormed.wheelFrameOk ⟨8, 0, 0, false, false, 0, 0, 0, 0, 0, 0, 0, 0, 0, 0, 0, 0, 1, false, []⟩ = false ∧
    WellFormed.commitFrameOk ⟨0, false, 0, 0, 0, 16, 0, 0, 0, 0, 0, 0, 0, 0, 0, 1, []⟩ = false ∧
    WellFormed.discFrameOk ⟨0, 1, false, 8, 0, 0, 0, 0, (0, 0, 0), (0, 0, 0), (0, 0, 0), (0, 0, 0)⟩ = false ∧
    WellFormed.changeFrameOk ⟨0, 1, 8, 0, 0, 0, false, 0⟩ = false := by decide +kernel

/-- Commands with every operand at the end of its range are well formed. -/
theorem test_well_formed : [Instr.descriptorAccept 7, .doorbellPi 255 ⟨.vf 16, 0⟩ none, .msixUnmask 16 335, .registerWrite ⟨.guard, 7, 0xFFFFFC, 0, 15⟩ none,
    .domainStart 7 43, .narrowRequest 7 ⟨0, 7⟩ ⟨0, none, 0⟩, .weirGrant 7 6 2 0 []].all WellFormed.wf = true := by decide +kernel

/-! ## Small checks -/

/-- CRC-32C of the nine digits is the check value of the Castagnoli polynomial that R22 names. -/
theorem test_crc32c : crc32c [0x31, 0x32, 0x33, 0x34, 0x35, 0x36, 0x37, 0x38, 0x39] = 0xE3069283 := by decide +kernel

/-- FP32: 1 + 1 = 2, and the tie 2^24 + 1 rounds to the even 2^24 (R75). -/
theorem test_f32add : (f32add false false 0x3F800000 0x3F800000).1 = 0x40000000 ∧ (f32add false false 0x4B800000 0x3F800000).1 = 0x4B800000 := by
  decide +kernel

/-- Every die's GEN_ID names the part and the die (Table 20-2), and the CLK_LIMIT of reset is 0 to 13. -/
theorem test_reset_values : (State.reset.regN 3 Reg.genId) = 0x30811 ∧ State.reset.rf 0 Reg.clkLimit 0 4 = 0 ∧ State.reset.rf 0 Reg.clkLimit 4 4 = 13 := by
  decide +kernel

/-- A free-running index wraps: two before 2^32 to one after it is a distance of three (R408). -/
theorem test_modSub : modSub 32 1 (2 ^ 32 - 2) = 3 := by decide +kernel

/-! ## Witnesses: steps, registers and rings -/

/-- Ring 0 enabled with 16 slots and 16 records, and what else is given. -/
def ring0 (rs : List (Nat × Nat × Nat)) : State := st ((0, Reg.ringCfg 0, 1 + 2 ^ 14 + 2 ^ 19) :: rs)

/-- StepRunsFront: a queue with a command at its front, and an empty one. -/
theorem witness_StepRunsFront : ({ State.reset with pending := [Instr.nop 0] } : State).pending = Instr.nop 0 :: [] ∧ State.reset.pending = [] := by
  decide +kernel

/-- StepKeepsInvariant: a step from a state with the invariant. -/
theorem witness_StepKeepsInvariant : State.reset.Inv ∧ step State.reset = .next State.reset.tick :=
  ⟨⟨by decide, by decide, by decide, by decide, by decide⟩, rfl⟩

/-- CommandFrames: a command of each list answers a next state. -/
theorem witness_CommandFrames : (match exec (.rasLogClr 0 1) State.reset with | .next _ => true | _ => false) = true ∧
    (match exec (.veNop 0 0 ⟨0, 0, 0, 0, false, false, false, 0⟩) State.reset with | .next _ => true | _ => false) = true ∧
    (match exec (.pauseTimerExpire 0 0) State.reset with | .next _ => true | _ => false) = true := by decide +kernel

/-- TrippedPackage: a tripped package and a command that it ignores. -/
theorem witness_TrippedPackage : ({ State.reset with tripped := true } : State).tripped = true ∧
    (match exec (.nop 0) { State.reset with tripped := true } with | .next _ => true | _ => false) = true := by decide +kernel

/-- UnnamedOffsets: an offset inside a block and the last one of the unused range. -/
theorem witness_UnnamedOffsets : State.reset.tripped = false ∧ regDesc 0x40 = none ∧ State.reset.hostRead 0x40 = none ∧ regDesc (2 ^ 24 - 4) = none ∧
    State.reset.hostRead (2 ^ 24 - 4) = none := by decide +kernel

/-- A write of 1 to a register of die 0 by a master. -/
def wr (m : Master) (off : Nat) : RegWrite := ⟨m, 0, off, 1, 0xF⟩

/-- The tests of RegHit for a write to die 0 after reset. -/
theorem hit_of {s : State} {w : RegWrite} {r : RegDesc} (h : (!s.tripped && decide (w.be = 0xF) && decide (w.off % 4 = 0) && s.regReach w.master &&
    decide (w.die < s.part.dies) && !s.regInReset w.die w.off && !regElsewhere w.die w.off && decide (regDesc w.off = some r) &&
    (s.wroteOnly w.die w.off w.value.toNat).isNone && decide (rowAt w.off (Reg.mbBell 0) 0x10 64 = none) &&
    (s.hostWrite w.off w.value.toNat).isNone) = true) : RegHit s w r := by
  simp only [Bool.and_eq_true, Bool.not_eq_true', decide_eq_true_eq, Option.isNone_iff_eq_none] at h
  obtain ⟨⟨⟨⟨⟨⟨⟨⟨⟨⟨a, b⟩, c⟩, d⟩, e⟩, f⟩, g⟩, i⟩, j⟩, k⟩, l⟩ := h
  exact ⟨a, b, c, d, e, f, g, i, j, k, fun _ => l⟩

/-- RegisterWrites: a read-only, an RW, a W1C and an RWG register, each hit. -/
theorem witness_RegisterWrites_hit :
    (∃ r, RegHit State.reset (wr .pf Reg.genWarmCount) r ∧ r.rwg = 0 ∧ r.w1c = 0 ∧ r.rw = 0) ∧
    (∃ r, RegHit State.reset (wr .pf Reg.fanFailRpm) r ∧ r.rwg = 0 ∧ r.w1c = 0 ∧ r.rw ≠ 0 ∧ State.reset.regTdi 0 Reg.fanFailRpm = none ∧
      State.reset.regLocked 0 Reg.fanFailRpm = false) ∧
    (∃ r, RegHit State.reset (wr .pf Reg.seqPartErr) r ∧ r.rwg = 0 ∧ r.w1c ≠ 0) ∧
    (∃ r, RegHit State.reset (wr .pf Reg.thermLimits) r ∧ r.rwg ≠ 0 ∧ (wr .pf Reg.thermLimits).master ≠ .guard) ∧
    ∃ r, RegHit State.reset (wr .guard Reg.thermLimits) r ∧ r.rwg ≠ 0 ∧ Reg.thermLimits ≠ Reg.clkLimit ∧ Reg.thermLimits ≠ Reg.pwrCapSb ∧
      Reg.thermLimits ≠ Reg.pwrCapCeil :=
  ⟨⟨_, hit_of (r := ⟨Reg.genWarmCount, 1, 4, 1, 4, 0, 0, 0, 0, false, false⟩) (by decide +kernel), by decide +kernel⟩,
    ⟨_, hit_of (r := ⟨Reg.fanFailRpm, 1, 4, 1, 4, 0xffff, 0, 0, 0x1f4, false, true⟩) (by decide +kernel), by decide +kernel⟩,
    ⟨_, hit_of (r := ⟨Reg.seqPartErr, 1, 4, 1, 4, 0, 0xffff, 0, 0, false, false⟩) (by decide +kernel), by decide +kernel⟩,
    ⟨_, hit_of (r := ⟨Reg.thermLimits, 1, 4, 1, 4, 0, 0, 0xffff, 0x6e5f, false, false⟩) (by decide +kernel), by decide +kernel⟩,
    ⟨_, hit_of (r := ⟨Reg.thermLimits, 1, 4, 1, 4, 0, 0, 0xffff, 0x6e5f, false, false⟩) (by decide +kernel), by decide +kernel⟩⟩

/-- RegisterWrites: a locked register, a register of a locked interface, and writes turned away or paired. -/
theorem witness_RegisterWrites_rest :
    (ring0 []).regLocked 0 (Reg.ringBaseLo 0) = true ∧ (ring0 []).regTdi 0 (Reg.ringBaseLo 0) = some 0 ∧ (ring0 []).tdiLocked 0 = false ∧
    ({ State.reset with hst := { Hst.reset with tdi := [(1, 1)] } } : State).regTdi 0 (Reg.seqPartCfg 0) = some 0 ∧
    ({ State.reset with hst := { Hst.reset with tdi := [(1, 1)] } } : State).tdiLocked 0 = true ∧ (7 : BitVec 4) ≠ 0xF ∧
    State.reset.regReach .jtag = false ∧ regTarget (wr .pf 0) ≠ regTarget (wr .pf 4) := by decide +kernel

/-- RegisterWrites: the two locks, each hit by a write of the physical function. -/
theorem witness_RegisterWrites_locks : (∃ r, RegHit (ring0 []) (wr .pf (Reg.ringBaseLo 0)) r) ∧
    ∃ r, RegHit { State.reset with hst := { Hst.reset with tdi := [(1, 1)] } } (wr .pf (Reg.seqPartCfg 0)) r :=
  ⟨⟨⟨Reg.ringBaseLo 0, 32, 0x40, 1, 4, 0xfffff000, 0, 0, 0, false, false⟩, hit_of (by decide +kernel)⟩,
    ⟨⟨Reg.seqPartCfg 0, 16, 4, 1, 4, 0x1ffff, 0, 0, 0, false, false⟩, hit_of (by decide +kernel)⟩⟩

/-- CountersAndClears: the first and the last LO word of the map, an aligned offset of another kind, and a W1C register. -/
theorem witness_CountersAndClears : DieUp State.reset 0 ∧ isCtrLo Reg.grdLostCntLo = true ∧ isCtrLo (Reg.d2dCntLo 11) = true ∧
    State.reset.regInReset 0 (Reg.d2dCntLo 11) = false ∧ regElsewhere 0 (Reg.d2dCntLo 11) = false ∧ isCtrLo (Reg.d2dCntLo 11 + 4) = false ∧
    (regDesc Reg.seqPartErr).isSome = true ∧ bit (1 : W32).toNat 0 = true ∧ bit (2 : W32).toNat 0 = false :=
  ⟨up_of (by decide), by decide +kernel⟩

/-- Doorbells taken: PI at the last free slot, CQ_HEAD at the tail with ARM, and EVQ_HEAD at the tail. -/
theorem witness_Doorbells_taken :
    ((ring0 []).bellBarred 0 .pf = false ∧ (ring0 []).isServing 0 = false ∧ (ring0 []).ringOn 0 = true ∧
      modSub 32 16 ((ring0 []).ringPi 0) ≤ (ring0 []).ringSize 0 - modSub 32 ((ring0 []).ringPi 0) ((ring0 []).ringCi 0)) ∧
    (let s := ring0 [(0, Reg.cqTail 0, 5)];
      s.ringOn 0 = true ∧ 5 + 2 ^ 32 < 2 ^ 33 ∧ modSub 32 5 (s.cqHead 0) ≤ modSub 32 (s.cqTail 0) (s.cqHead 0)) ∧
    (let s := ring0 [(0, Reg.evqTail 0, 3)];
      s.ringPart 0 = 0 ∧ modSub 32 3 (s.regN 0 (Reg.evqHead (s.ringPart 0))) ≤ s.evqUsed (s.ringPart 0)) := by decide +kernel

/-- Doorbells turned away: a ring that is off, and a value of 34 bits. -/
theorem witness_Doorbells_rejected : State.reset.tripped = false ∧ State.reset.inReset (ringDie 0) = false ∧ State.reset.bellBarred 0 .pf = false ∧
    State.reset.ringOn 0 = false ∧ State.reset.isServing 0 = false ∧ (ring0 []).bellBarred 0 .pf = false ∧ 2 ^ 33 ≤ (2 ^ 33 : W64).toNat := by
  decide +kernel

/-- A fetched NOP at the head of ring 0. -/
def fetchedNop : State := { ring0 [(0, Reg.ringPi 0, 1), (0, Reg.seqPartCfg 0, 1)] with seq := { Seq.reset with fetched := [⟨0, 0, blob 64 [], false⟩] } }

/-- FetchAccept: a slot in HBM, a slot among the registers, a slot to accept, and the last vector. -/
theorem witness_FetchAccept :
    (let s := ring0 [(0, Reg.ringPi 0, 1)];
      0 < s.part.rings ∧ s.ringOn 0 = true ∧ s.nextFetch 0 ≠ s.ringPi 0 ∧ s.ringStat 0 2 = false ∧ s.slotReadable (s.slotAddr 0 (s.nextFetch 0)) = true) ∧
    (let s := ring0 [(0, Reg.ringPi 0, 1), (0, Reg.ringBaseHi 0, 0xF0)];
      s.ringOn 0 = true ∧ s.nextFetch 0 ≠ s.ringPi 0 ∧ s.ringStat 0 2 = false ∧ s.slotReadable (s.slotAddr 0 (s.nextFetch 0)) = false) ∧
    (fetchedNop.pickRing 0 = some 0 ∧ fetchedNop.headSlot 0 = some ⟨0, 0, blob 64 [], false⟩) ∧ State.reset.fnOn 0 = true := by decide +kernel

/-! ## Witnesses: descriptors -/

/-- Partition 0 owns half-die 0, and its context 0 runs on die 0. -/
def own0 (rs : List (Nat × Nat × Nat)) : State := st ((0, Reg.seqPartMask 0, 1) :: (0, Reg.seqPartStatus 0, 32) :: rs)

/-- That state with bytes written to memory: address and bytes. -/
def ownMem (rs : List (Nat × Nat × Nat)) (ms : List (Nat × List Byte)) : State := ms.foldl (fun s x => s.write x.1 x.2) (own0 rs)

/-- DescriptorRuns, and the NOP of DescriptorEffects. -/
theorem witness_nop : (∃ D, descOf (.nop 0) = some D ∧ D.id = 0) ∧ Starts (has (own0 []) (wk [])) 0 (ofKind 0) (wk []) [] (nopCodes (has (own0 []) (wk [])) (wk [])) :=
  ⟨⟨_, rfl, rfl⟩, starts_of (by decide +kernel)⟩

/-- DescriptorRefused: a NOP with a reserved byte set gets the parameter-error status. -/
theorem witness_DescriptorRefused : let w := wk [(8, 1, 1)]; let s := has (own0 []) w
    s.tripped = false ∧ s.work 0 = some w ∧ ofKind 0 w = true ∧ s.canStart w = true ∧
      1 = s.startCode w [] (nopCodes s w) := by decide +kernel

/-- COPY: to the line next above its source. -/
theorem witness_copy : let w := wk [(0, 1, 1), (14, 6, 64), (20, 4, 64)]; let s := has (own0 []) w
    s.memWf = true ∧ Starts s 0 (ofKind 1) w (copyRanges s w) (copyCodes s w) ∧ w.cpSrc + w.cpLen ≤ w.cpDst :=
  ⟨by decide +kernel, starts_of (by decide +kernel), by decide +kernel⟩

/-- COPY_INLINE of 48 bytes. -/
theorem witness_copyInline : let w := wk [(0, 1, 2), (14, 1, 48)]; let s := has (own0 []) w
    s.memWf = true ∧ Starts s 0 (ofKind 2) w (inlineRanges s w) (inlineCodes s w) := ⟨by decide +kernel, starts_of (by decide +kernel)⟩

/-- LAYER_MARK of layer 65,535. -/
theorem witness_layerMark : let w := wk [(0, 1, 3), (8, 2, 65535)]; let s := has (own0 []) w
    Starts s 0 (ofKind 3) w [] (markCodes s w) ∧ w.bit 10 0 = false := ⟨starts_of (by decide +kernel), by decide +kernel⟩

/-- PLACE of a record with VALID 0 over an object that is not in use. -/
theorem witness_place : let w := wk [(0, 1, 4), (8, 4, 5)]; let s := has (own0 []) w
    s.memWf = true ∧ Starts s 0 (ofKind 4) w [] (placeCodes s w) := ⟨by decide +kernel, starts_of (by decide +kernel)⟩

/-- PREFETCH of one entry. -/
theorem witness_prefetch : let w := wk [(0, 1, 5), (14, 2, 1), (17, 1, 2)]; let s := has (own0 []) w
    Starts s 0 (ofKind 5) w (pfRanges s w) (pfCodes s w) := starts_of (by decide +kernel)

/-- TWIN of object 5, which is not in use, off. -/
theorem witness_twin : let w := wk [(0, 1, 0x38), (8, 4, 5)]; let s := has (own0 [(0, Reg.cmtCtrl, 1)]) w
    s.memWf = true ∧ Starts s 0 (ofKind 0x38) w [] (twinSetCodes s w) := ⟨by decide +kernel, starts_of (by decide +kernel)⟩

/-- DOMAIN_SET of domain 14 with two members, of which this package is rank 0. -/
theorem witness_domainSet : let w := wk [(0, 1, 0x3B), (8, 1, 14), (10, 6, 64)]
    let s := has (ownMem [(0, Reg.cmtCtrl, 1), (0, Reg.cmtDomBaseLo, 4096), (0, Reg.cmtDomCount, 15)]
      [(64, blob 64 [(0, 1, 128), (1, 2, 2), (8, 6, 128)]), (128, blob 16 [(14, 1, 1)])]) w
    s.memWf = true ∧ Starts s 0 (ofKind 0x3B) w (domainSetRanges s w) (domainSetCodes s w) := ⟨by decide +kernel, starts_of (by decide +kernel)⟩

/-- GROUP_SET of a MESH group of two dies. -/
theorem witness_groupSet : let w := wk [(0, 1, 0x20), (8, 2, 7), (10, 6, 64)]
    let s := has (ownMem [(0, Reg.whlCtrl, 1), (0, Reg.whlGrpBaseLo, 4096), (0, Reg.whlGrpCount, 1)]
      [(64, blob 64 [(1, 1, 130), (8, 6, 128)]), (128, blob 16 [(14, 1, 1)])]) w
    s.memWf = true ∧ Starts s 0 (isColl (· == 7)) w (groupSetRanges s w) (groupSetCodes s w) := ⟨by decide +kernel, starts_of (by decide +kernel)⟩

/-- A state with the transport on, four contexts from 4096 and four regions from 8192. -/
def xt0 (ms : List (Nat × List Byte)) : State :=
  ownMem [(0, Reg.xtCtrl, 7), (0, Reg.xtCtxBaseLo, 4096), (0, Reg.xtCtxCount, 4), (0, Reg.xtRegBaseLo, 8192), (0, Reg.xtRegCount, 4)] ms

/-- A context template of partition 0: port 0, one retry, one read outstanding. -/
def tmpl (state : Nat) : List Byte := blob 64 [(3, 1, state), (32, 1, 0xF1), (34, 1, 1)]

/-- CONN_CREATE of the last connection. -/
theorem witness_connCreate : let w := wk [(0, 1, 0x28), (9, 3, 3), (12, 6, 64), (18, 3, 2 ^ 24 - 1)]; let s := has (xt0 [(64, tmpl 0)]) w
    s.memWf = true ∧ Starts s 0 (isConn 0) w (tmplRanges s w) (createCodes s w) := ⟨by decide +kernel, starts_of (by decide +kernel)⟩

/-- CONN_QUERY of a connection of partition 0. -/
theorem witness_connQuery : let w := wk [(0, 1, 0x28), (8, 1, 3), (12, 6, 64)]; let s := has (xt0 []) w
    s.memWf = true ∧ Starts s 0 (isConn 3) w (queryRanges s w) (queryCodes s w) := ⟨by decide +kernel, starts_of (by decide +kernel)⟩

/-- REGISTER of one byte in the last entry. -/
theorem witness_register : let w := wk [(0, 1, 0x29), (12, 3, 3), (16, 6, 64), (22, 6, 1), (28, 1, 3)]; let s := has (xt0 []) w
    s.memWf = true ∧ Starts s 0 (isRegion false) w [] (registerCodes s w) := ⟨by decide +kernel, starts_of (by decide +kernel)⟩

/-- INVALIDATE of an entry of partition 0. -/
theorem witness_invalidate : let w := wk [(0, 1, 0x29), (8, 1, 1), (12, 3, 3)]; let s := has (xt0 []) w
    s.memWf = true ∧ Starts s 0 (isRegion true) w [] (invalCodes s w) := ⟨by decide +kernel, starts_of (by decide +kernel)⟩


/-! ## Witnesses: every descriptor of Table 13-3 can start -/

/-- The hypotheses of DescriptorRuns, by their tests, for descriptor 0. -/
def startsOk (c : Instr) (s : State) (w : Work) : Bool :=
  match descOf c with
  | some D => D.id == 0 && !s.tripped && decide (s.work 0 = some w) && D.isKind w && s.canStart w && decide (w.pre = 0) &&
      (s.rangesCodes w.die w.part (D.ranges s w)).all (fun c => decide (c = 0)) && (D.codes s w).all (fun c => decide (c = 0)) &&
      (D.ranges s w).all (fun r => !s.refetching r && !s.measured r) && (s.pagesOf (D.ranges s w)).all fun x => decide (x.1 ∈ s.hst.answered)
  | none => false

/-- The tests give the hypotheses. -/
theorem startsOk_starts {c : Instr} {s : State} {w : Work} (h : startsOk c s w = true) :
    ∃ D, descOf c = some D ∧ Starts s D.id D.isKind w (D.ranges s w) (D.codes s w) := by
  unfold startsOk at h
  split at h
  · next D e =>
    simp only [Bool.and_eq_true, beq_iff_eq] at h
    obtain ⟨⟨⟨⟨⟨⟨⟨⟨⟨a, b⟩, c⟩, d⟩, e'⟩, f⟩, g⟩, i⟩, j⟩, k⟩ := h
    exact ⟨D, e, by rw [a]; exact starts_of (by simp only [Bool.and_eq_true]; exact ⟨⟨⟨⟨⟨⟨⟨⟨b, c⟩, d⟩, e'⟩, f⟩, g⟩, i⟩, j⟩, k⟩)⟩
  · exact absurd h (by simp)

/-- A history record of partition 0: FP16, 16 entries from 4096, INITIAL 1. -/
def hrec : List Byte := blob 64 [(5, 1, 1), (6, 2, 16), (8, 1, 1), (32, 6, 4096), (56, 4, 0x3F800000)]

/-- The four operations of HISTORY. -/
theorem witness_history : let s := ownMem [(0, Reg.cnvCtrl, 3), (0, Reg.cnvHistCount, 1)] [(0, hrec), (64, hrec)];
    ([Instr.histInit 0, .histClose 0, .histRearm 0, .histClear 0].zipIdx.all fun x =>
      let w := wk [(0, 1, 0x12), (8, 1, x.2), (12, 2, 1), (16, 6, 64)];
      startsOk x.1 (has s w) w) = true := by decide +kernel

/-- A volume of one drive with 1,000 units. -/
def vol0 : State := own0 [(0, Reg.flCtrl, 1), (0, Reg.flVol, 1), (0, Reg.flStatus, 9), (0, Reg.flDrvLbasLo, 1000)]

/-- The five operations of FLASH, on the last unit. -/
theorem witness_flash : ([Instr.flashRead 0, .flashWrite 0, .flashZero 0, .flashTrim 0, .flashFlush 0].zipIdx.all fun x =>
    let w := wk [(0, 1, 0x30), (8, 1, x.2), (10, 6, 999), (22, 4, 64)]; startsOk x.1 (has vol0 w) w) = true := by decide +kernel

/-- Connection 3 cached in a state. -/
def xtc (state : Nat) : State := { xt0 [(64, tmpl state)] with xt := ⟨[], [⟨0, 3, tmpl state ++ List.replicate 192 0⟩], [], []⟩ }

/-- The four transfers, and POST_BUF. -/
theorem witness_transfers : ([(Instr.write 0, 0x2A), (.writeInline 0, 0x2B), (.send 0, 0x2C), (.read 0, 0x2D)].all fun x =>
      let w := wk [(0, 1, x.2), (8, 3, 3), if x.2 = 0x2B then (22, 1, 32) else if x.2 = 0x2C then (18, 4, 64) else (28, 4, 64)];
      startsOk x.1 (has (xtc 1) w) w) = true ∧
    (let w := wk [(0, 1, 0x2E), (14, 4, 2 ^ 31)]; startsOk (.postBuf 0) (has (own0 []) w) w) = true := by decide +kernel

/-- MODIFY from ERROR to READY, and DESTROY. -/
theorem witness_connections : (let w := wk [(0, 1, 0x28), (8, 1, 5), (9, 3, 3), (12, 6, 64)]; startsOk (.connModify 0) ((has (xtc 2) w).write 64 (tmpl 1)) w) = true ∧
    (let w := wk [(0, 1, 0x28), (8, 1, 2), (9, 3, 3)]; startsOk (.connDestroy 0) (has (xtc 1) w) w) = true := by decide +kernel

/-- REVERT, COMMIT of a local group, and HOLD_SET. -/
theorem witness_commits :
    (let w := wk [(0, 1, 0x39), (8, 4, 1)];
      startsOk (.revert 0) (has (ownMem [(0, Reg.cmtCtrl, 1), (0, Reg.cmtTwinBaseLo, 4096)] [(4112, blob 16 [(6, 1, 9)])]) w) w) = true ∧
    (let w := wk [(0, 1, 0x3A), (8, 1, 15)]; startsOk (.commit 0) (has (own0 [(0, Reg.cmtCtrl, 1)]) w) w) = true ∧
    (let w := wk [(0, 1, 0x3C), (10, 6, 64)];
      startsOk (.holdSet 0) (has (ownMem [(0, Reg.cmtCtrl, 1), (0, Reg.cmtHoldCount, 1)] [(64, blob 32 [(8, 6, 4096), (16, 6, 64), (22, 1, 1)])]) w) w) = true := by
  decide +kernel

/-- The seven collectives, in a MESH group of two dies. -/
theorem witness_collectives :
    let s := ownMem [(0, Reg.whlCtrl, 1), (0, Reg.whlGrpBaseLo, 8192), (0, Reg.whlGrpCount, 1)] [(8192, blob 64 [(1, 1, 130), (8, 6, 12288)]), (12288, blob 16 [(14, 1, 1)])];
    ([Instr.allreduce 0, .reduceScatter 0, .allgather 0, .shift 0, .permute 0, .exchange 0, .ret 0].zipIdx.all fun x =>
      let w := wk [(0, 1, 0x20), (8, 2, x.2), (16, 6, 65536), (22, 6, 4096), (28, 6, 16384), (38, 4, 0x3F800000), (42, 2, 128), (44, 2, 1)];
      startsOk x.1 (has s w) w) = true := by decide +kernel

/-- MATRIX and CONVERT of one element each. -/
theorem witness_tiles :
    (let w := wk [(0, 1, 0x10), (14, 6, 65600), (20, 6, 131200), (26, 8, 1 + 2 ^ 11 + 2 ^ 31 + 2 ^ 54)];
      startsOk (.matrix 0) (has (ownMem [(0, Reg.meCtrl 0, 1), (0, Reg.cnvCtrl, 1)] [(2, natLe 2 0x0101), (65602, natLe 2 0x0101)]) w) w) = true ∧
    (let w := wk [(0, 1, 0x11), (14, 6, 65600), (20, 4, 1), (26, 1, 1)];
      startsOk (.convert 0) (has (ownMem [(0, Reg.cnvCtrl, 1)] [(2, natLe 2 0x0101)]) w) w) = true := by decide +kernel

/-- VECTOR with an empty program, and GATE of one token and one expert. -/
theorem witness_engines :
    (let w := wk [(0, 1, 0x13), (8, 4, 1), (18, 6, 4096), (24, 4, 1)];
      startsOk (.vector 0) (has (ownMem [(0, Reg.veCtrl 0, 1), (0, Reg.seqObjBaseLo, 8192)] [(8224, blob 32 [(0, 6, 1024), (8, 6, 64), (16, 4, 2 ^ 31)])]) w) w) = true ∧
    (let w := wk [(0, 1, 0x15), (14, 6, 65600), (20, 6, 131200), (26, 2, 1), (28, 2, 1), (30, 1, 1), (32, 1, 1), (33, 1, 1)];
      startsOk (.gate 0) (has (ownMem [(0, Reg.tokCtrl, 1)] [(2, natLe 2 0x0101), (65603, [1])]) w) w) = true := by decide +kernel

/-- An object of one FP32 tile from 2^20 · n, and a twin with its shadow behind it. -/
def tileObj (n : Nat) : List (Nat × List Byte) :=
  [(8192 + 32 * n, blob 32 [(0, 6, 2 ^ 20 * n), (8, 6, 65600), (16, 4, 2 ^ 31)]), (16384 + 16 * n, blob 16 [(0, 6, 2 ^ 20 * n + 2 ^ 19), (6, 1, 1)])]

/-- UPDATE of one entry: a weight of one element under rule 0. -/
theorem witness_update : (let w := wk [(0, 1, 0x14), (8, 4, 2 ^ 20)];
    startsOk (.update 0) (has (ownMem [(0, Reg.seqOwnCount, 1), (0, Reg.seqObjBaseLo, 8192), (0, Reg.cmtTwinBaseLo, 16384), (0, Reg.veCtrl 0, 1)]
      ([(0, blob 64 [(0, 4, 1), (4, 4, 2), (8, 4, 3), (12, 4, 4), (16, 8, 2 ^ 64 - 1), (24, 8, 2 ^ 64 - 1), (32, 2, 2 ^ 15), (36, 4, 0x10001), (40, 6, 64)]),
        (64, blob 64 [(6, 2, 1), (24, 4, 0x3F800000), (56, 4, 0x3F800000)])] ++ tileObj 1 ++ tileObj 2 ++ tileObj 3 ++ tileObj 4 ++
        [(2 ^ 20 + 2, natLe 2 0x0101), (2 ^ 21 + 2, natLe 2 0x0101)])) w) w) = true := by decide +kernel

/-- DECODE of a stream with no header. -/
theorem witness_decode : (let w := wk [(0, 1, 0x31), (9, 1, 8), (16, 4, 64), (20, 2, 1), (22, 2, 1), (24, 6, 65536), (30, 6, 4096)];
    let s := has (own0 [(0, Reg.trbCtrl, 1)]) w;
    !s.tripped && ofKind 0x31 w && s.canStart w && (s.rangesCodes 0 0 (decRanges s w)).all (· == 0) && (decCodes s w).all (· == 0)) = true := by decide +kernel

/-! ## Witnesses: manifests -/

theorem crcBit_lt {c : Nat} (h : c < 2 ^ 32) : crcBit c < 2 ^ 32 := by
  unfold crcBit
  split
  · exact Nat.xor_lt_two_pow (by omega) (by decide)
  · omega

theorem crcByte_lt {c : Nat} (h : c < 2 ^ 32) (b : Byte) : crcByte c b < 2 ^ 32 := by
  have : Nat.xor c b.toNat < 2 ^ 32 := Nat.xor_lt_two_pow h (by have := b.isLt; omega)
  unfold crcByte
  repeat apply crcBit_lt
  exact this

theorem crc32c_lt (bs : List Byte) : crc32c bs < 2 ^ 32 := by
  have : ∀ c : Nat, c < 2 ^ 32 → bs.foldl crcByte c < 2 ^ 32 := by
    induction bs with
    | nil => exact fun c h => h
    | cons b bs ih => exact fun c h => ih _ (crcByte_lt h b)
  exact Nat.xor_lt_two_pow (this _ (by decide)) (by decide)

theorem leNat_natLe4 {x : Nat} (h : x < 2 ^ 32) : leNat (natLe 4 x) = x := by
  simp only [natLe, leNat, BitVec.toNat_ofNat]
  omega

/-- The bytes of a manifest before its checksum, with a number and `k` zeros. -/
def manBody (n k : Nat) : List Byte := natLe 4 0x53434B50 ++ natLe 2 1 ++ natLe 2 0 ++ natLe 8 n ++ List.replicate k 0

theorem manBody_length (n k : Nat) : (manBody n k).length = 16 + k := by
  simp only [manBody, List.length_append, List.length_replicate]
  rfl

/-- A manifest of `20 + k` bytes. -/
def manUnit (n k : Nat) : List Byte := manBody n k ++ natLe 4 (crc32c (manBody n k))

theorem manUnit_length (n k : Nat) : (manUnit n k).length = 20 + k := by
  simp only [manUnit, List.length_append, manBody_length]
  simp only [natLe, List.length_cons, List.length_nil]
  omega

theorem manUnit_seq (n k : Nat) (h : n < 2 ^ 64) : leAt (manUnit n k) 8 8 = n := by
  show leNat (natLe 8 n) = n
  simp only [natLe, leNat, BitVec.toNat_ofNat]
  omega

/-- It is valid. -/
theorem manUnit_crc (n k j : Nat) (l : (manBody n k).length = j) : leAt (manUnit n k) j 4 = crc32c ((manUnit n k).take j) := by
  rw [manUnit, List.take_left' l, leAt, List.drop_left' l]
  exact leNat_natLe4 (crc32c_lt _)

theorem manUnit_ok (n k : Nat) (hk : k = 4076) (h : n < 2 ^ 64) (h0 : n ≠ 0) : manifestOk (manUnit n k) = true := by
  have c := manUnit_crc n k 4092 (by rw [manBody_length, hk])
  generalize hu : manUnit n k = u at c
  have a : leAt u 0 4 = 0x53434B50 := by rw [← hu]; exact (rfl : _ = leNat (natLe 4 0x53434B50)).trans (by decide)
  have b : leAt u 4 2 = 1 := by rw [← hu]; exact (rfl : _ = leNat (natLe 2 1)).trans (by decide)
  have e : leAt u 8 8 = n := by rw [← hu]; exact manUnit_seq n k h
  unfold manifestOk
  rw [a, b, e, ← c]
  simp [h0]

/-- The volume with the commit logic on, and a manifest in memory. -/
def manMem (k : Nat) : State := (vol0.setRegN 0 Reg.cmtCtrl 1).write 4096 (manUnit 1 k)

/-- A MANIFEST of it. -/
def manWork : Work := wk [(0, 1, 0x3D), (8, 6, 4096)]

theorem manCodes (k : Nat) (hk : k = 4076) : manifestCodes (has (manMem k) manWork) manWork =
    [need (manWork.addr 8 % 64 == 0 && manWork.zeroFrom 14 && true && decide ((has (manMem k) manWork).regPair 0 Reg.cmtManSeqLo < 1)),
      if (has (manMem k) manWork).rbit manWork.die Reg.cmtCtrl 0 && (has (manMem k) manWork).volReady 0 then 0 else 7,
      if (has (manMem k) manWork).volMeasured ((has (manMem k) manWork).manSlot 0) 2 then 255 else 0] := by
  have hb : (has (manMem k) manWork).bytes 4096 (20 + k) = manUnit 1 k := by
    rw [← manUnit_length 1 k]
    exact State.bytes_write (vol0.setRegN 0 Reg.cmtCtrl 1) (by decide +kernel) 4096 (manUnit 1 k) false
  have ha : manWork.addr 8 = 4096 := by decide +kernel
  have hl : 4096 = 20 + k := by omega
  have hb' : (has (manMem k) manWork).bytes (manWork.addr 8) 4096 = manUnit 1 k := by
    rw [ha, show (has (manMem k) manWork).bytes 4096 4096 = (has (manMem k) manWork).bytes 4096 (20 + k) from congrArg _ hl]
    exact hb
  unfold manifestCodes
  rw [hb']
  simp only [manUnit_ok 1 k hk (by decide) (by decide), manUnit_seq 1 k (by decide)]

/-- MANIFEST of a first checkpoint. -/
theorem witness_manifest : Starts (has (manMem 4076) manWork) 0 (ofKind 0x3D) manWork (manifestRanges (has (manMem 4076) manWork) manWork)
    (manifestCodes (has (manMem 4076) manWork) manWork) := by
  rw [manCodes 4076 rfl]
  exact starts_of (by decide +kernel)

/-! ## Witnesses: engines, deferred work and flash -/

/-- VectorEngine: an engine on, the last streams of LD and ST, and a stream that the descriptor does not name. -/
theorem witness_VectorEngine : let s := st [(0, Reg.veCtrl 0, 1)]
    DieUp s 0 ∧ s.veOn 0 0 = true ∧ (⟨3, 7, 0, 0, false, false, false, 0⟩ : VFields).a ≤ 7 ∧
      (⟨3, 7, 0, 0, false, false, false, 0⟩ : VFields).d ≤ 3 ∧ (s.ve 0 0).ins[7]? = none :=
  ⟨up_of (by decide), by decide +kernel, by decide, by decide, by decide +kernel⟩

/-- A pass of 1,024 rows that is run, or skipped. -/
def pass1 (skip : Bool) : Pass := ⟨0, false, 1024, 0, 1, skip, true, 0, false⟩

/-- An engine of die 0 with one pass, or with rows to drain. -/
def eng1 (skip : Bool) (at_ : Option Int) (prev : Option PassTime) (fifo : List DrainRows) : State :=
  { State.reset with engs := [⟨0, 3, [pass1 skip], at_, 0, prev, [], none, 0, 0, fifo, none⟩] }

/-- MatrixEngineEvents: a load with and without a pass before it, a pass to start, one to skip, and rows to drain. -/
theorem witness_MatrixEngineEvents : DieUp State.reset 0 ∧ ((eng1 false none none []).eng 0 3).queue = [pass1 false] ∧
    ((eng1 false none none []).eng 0 3).prev = none ∧ ((eng1 false none (some ⟨4, 0, 2, 4, 0⟩) []).eng 0 3).prev = some ⟨4, 0, 2, 4, 0⟩ ∧
    ((eng1 false none none []).eng 0 3).loadAt = none ∧ ((eng1 false (some 0) none []).eng 0 3).loadAt = some 0 ∧
    Nat.min (pass1 false).rows (((eng1 false (some 0) none []).eng 0 3).credits (pass1 false)) ≠ 0 ∧ ((eng1 false (some 0) none []).eng 0 3).issue = none ∧
    (pass1 false).last = true ∧ ((eng1 true none none []).eng 0 3).queue = [pass1 true] ∧ (pass1 true).skip = true ∧
    (let s := eng1 false none none [⟨0, 0, 1⟩];
      minBy (fun e => (e + 3 - kvGet 3 s.cnvLast 0) % 4) ([0, 1, 2, 3].filter fun e => !(s.eng 0 e).fifo.isEmpty) = some 3 ∧
        (s.eng 0 3).fifo = [⟨0, 0, 1⟩]) := ⟨up_of (by decide), by decide +kernel⟩

/-- A fold of nothing to a record, with or without poison. -/
def fold1 (addr : Nat) (poison : Bool) : Fold := ⟨0, 0, addr, ⟨.nan false, .nan false, 0, 0, 0, 0⟩, poison⟩

/-- An UPDATE with a stage on an engine of die 0. -/
def staged1 (u : Nat) : Work := { wk [(0, 1, 0x14)] with engine := some 4, started := true, stages := [(0, u)] }

/-- DeferredWork: folds poisoned, in HBM and outside it, a stage of an update on a fenced engine of each kind with and without another engine, a
fenced unit, and a word of the queue, good and bad. -/
theorem witness_DeferredWork :
    (∀ a, a ∈ [0, tsBase] → ∀ b : Bool, let s := { State.reset with folds := [fold1 a b] };
      s.folds.find? (fun f => f.id == 0) = some (fold1 a b) ∧ s.work 0 = none ∧ s.memWf = true ∧ inHbm s.part.dies a 64 = decide (a = 0)) ∧
    (∀ u, u ∈ [0, 4] → let s := has (own0 [(0, Reg.rasUnit u, 1)]) (staged1 u);
      s.work 0 = some (staged1 u) ∧ (staged1 u).kind = 0x14 ∧ (staged1 u).stages = [(0, u)] ∧ s.unitOut 0 u = true ∧ shareEngine (s.liveMes 0 0) u = none ∧
        ([0, 1].filter fun v => s.veOwned 0 0 v && s.veOn 0 v) = []) ∧
    (let s := has (own0 [(0, Reg.rasUnit 4, 1), (0, Reg.veCtrl 1, 1), (0, Reg.seqPartMask 0, 3)]) (staged1 4);
      minBy (s.queued 0) (([0, 1].filter fun v => s.veOwned 0 0 v && s.veOn 0 v).map (4 + ·)) = some 5) ∧
    (let s := has (own0 [(0, Reg.rasUnit 0, 1), (0, Reg.meCtrl 1, 1)]) (staged1 0); shareEngine (s.liveMes 0 0) 0 = some 1) ∧
    (own0 []).unitOut 0 4 = false ∧ (st [(0, Reg.rasUnit 5, 1)]).unitOut 0 5 = true ∧
    (let x : AWord := ⟨0, 7, 0, 0, 0, true, false, 0, 0, 0⟩; let s := { State.reset with aq := [x] }; s.aq.find? (fun y => y.d == 0) = some x) ∧
    badWords [] 1 = 0 ∧ badWords [0] 1 ≠ 0 := by decide +kernel

/-- A transfer with one piece in a state. -/
def xfer1 (fop pst : Nat) (w : Work) : State :=
  { has vol0 w with xfers := [⟨0, 0, fop, 999, 1, 0, false, [], [], [⟨0, 999, 1, 999, 0, 64, pst⟩]⟩] }

/-- Flash: pieces outstanding, being aborted and waiting for a re-fetch, ended well and ended by a drive's error. -/
theorem witness_Flash : let w := { wk [(0, 1, 0x30)] with started := true }
    (∀ fop, fop ≤ 1 → (xfer1 fop 0 w).tripped = false ∧ ((xfer1 fop 0 w).livePiece 0 0).isSome = true ∧
      ((xfer1 fop 0 w).livePiece 0 0).all (fun y => !(xfer1 fop 0 w).pieceWaits y.1 y.2) = true) ∧ fld 0 1 11 = 0 ∧ fld 0xFFFF 1 11 ≠ 0 ∧
      (xfer1 0 0 w).work 0 = some w ∧ w.res.status = 0 ∧ (((xfer1 0 1 w).livePiece 0 0).map fun y => y.2.st) = some 1 ∧ (xfer1 0 0 w).memWf = true ∧
      (xfer1 0 1 w).xfers.any (fun x => x.pieces.any fun p => p.port == 0 && p.st == 1) = true ∧
      (let s := { xfer1 0 0 w with refetch := [⟨0, 1, 0, 64, 999⟩] }; (s.livePiece 0 0).any (fun y => s.pieceWaits y.1 y.2) = true) := by
  decide +kernel

/-- Flash: an address of the bus that the drive of port 0 may not reach. -/
theorem witness_Flash_stray : ∃ a, State.reset.driveSees 0 a = false := by
  refine ⟨State.reset.regAddr 0 Reg.flQbaseLo + 2 ^ 22 + (Config.stageBus 0 + 2 ^ 23), ?_⟩
  unfold State.driveSees
  simp only [Bool.or_eq_false_iff, Bool.and_eq_false_iff, decide_eq_false_iff_not]
  omega

/-- Manifests 1 and 2 in the two slots at the start of the volume. -/
def manFlash (k : Nat) : State :=
  (vol0.flashStore 0 0 (manUnit 1 k)).flashStore 0 1 (manUnit 2 k)

/-- VolumeEvents: an entry to issue, a drive, a block to fetch again, a measurement with the log's last free entry and with a full log. -/
theorem witness_VolumeEvents :
    (let l : PfList := ⟨0, 0, 0, 64, 1, 0, false, 1, 0⟩;
      let s := { has (ownMem [(0, Reg.seqObjBaseLo, 4096)] [(64, blob 16 [(0, 4, 1), (4, 4, 2)]), (4128, blob 32 [(0, 6, 65536), (8, 6, 64), (16, 4, 2 ^ 31)]),
        (4160, blob 32 [(0, 6, 131072), (8, 6, 64), (16, 4, 2 ^ 31)])]) (wk [(0, 1, 5)]) with lists := [l] };
      let e := s.bytes 64 16; let a := s.obj 0 (leAt e 0 4 % 2 ^ 20); let b := s.obj 0 (leAt e 4 4 % 2 ^ 20);
      s.tripped = false ∧ s.lists.find? (fun l => l.id == 0) = some l ∧ s.work 0 = some (wk [(0, 1, 5)]) ∧ s.outstanding 0 < l.maxFly ∧
        s.layerOk l (leAt e 8 2) = true ∧ s.entryCode 0 0 e a b = 0 ∧ Clear s (a.srcRanges ++ [⟨b.base, b.len, true⟩])) ∧
    (let s := st [(0, Reg.flCtrl, 1)]; DieUp s 0 ∧ s.rbit 0 Reg.flCtrl 0 = true ∧ s.rbit 0 Reg.flStatus 3 = false ∧ s.unitOut 0 0x0D = false ∧ s.dieOut 0 = false) ∧
    (let b : Refetch := ⟨0, 1, 0, 64, 999⟩; let s := { vol0 with refetch := [b] };
      s.memWf = true ∧ s.refetch.find? (fun b => b.d == 0) = some b ∧ s.volReady 0 = true ∧ b.unit < s.volUnits 0) ∧
    (let m : Meas := ⟨1, 0, 0, false, 0, 64⟩; let s := { State.reset with measuring := [m] };
      s.measuring.find? (fun m => m.obj == 1) = some m ∧ s.measLog.entries.length < 8192) :=
  ⟨⟨by decide +kernel, by decide +kernel, by decide +kernel, by decide +kernel, by decide +kernel, by decide +kernel, clear_of (by decide +kernel)⟩,
    ⟨up_of (by decide), by decide +kernel⟩, by decide +kernel, by decide +kernel⟩

theorem flashBytes_store (s : State) (w : cellsWfFrom (fun _ => memDflt) 0 s.flash = true) (p l : Nat) (bs : List Byte) :
    (s.flashStore p l bs).flashBytes p l bs.length = bs := by
  apply List.ext_getElem
  · simp [State.flashBytes]
  · intro i h1 h2
    simp only [State.flashBytes, State.flashStore, List.getElem_map, List.getElem_range]
    exact cellsWrite_at w (flashKey p l 0) i bs h2

theorem flashBytes_before (s : State) (p l m n : Nat) (bs : List Byte) (h : 4096 * l + n ≤ 4096 * m) :
    (s.flashStore p m bs).flashBytes p l n = s.flashBytes p l n := by
  unfold State.flashBytes State.flashStore
  refine List.map_congr_left fun i hi => ?_
  exact cellsWrite_before (df := fun _ => memDflt) _ _ _ (by simp only [flashKey, List.mem_range] at *; omega)

/-- VolumeEvents: manifests 1 and 2 in the two slots at the start of the volume. -/
theorem witness_VolumeEvents_scan (k : Nat) (hk : k = 4076) : (manFlash k).tripped = false ∧ (manFlash k).volReady 0 = true ∧
    manifestOk ((manFlash k).volUnit 0 ((manFlash k).manSlot 0)) = true ∧ manifestOk ((manFlash k).volUnit 0 ((manFlash k).manSlot 1)) = true := by
  have a : (manFlash k).flashBytes 0 0 (20 + k) = manUnit 1 k := by
    rw [manFlash, flashBytes_before _ _ _ _ _ _ (by omega), ← manUnit_length 1 k]
    exact flashBytes_store vol0 (by decide +kernel) 0 0 _
  have b : (manFlash k).flashBytes 0 1 (20 + k) = manUnit 2 k := by
    rw [manFlash, ← manUnit_length 2 k]
    exact flashBytes_store _ (wf_cellsWrite (df := fun _ => memDflt) (by decide +kernel) _ _) 0 1 _
  have hl : 4096 = 20 + k := by omega
  have u0 : (manFlash k).unitAt 0 ((manFlash k).manSlot 0) = (0, 0) := (rfl : _ = vol0.unitAt 0 (vol0.manSlot 0)).trans (by decide +kernel)
  have u1 : (manFlash k).unitAt 0 ((manFlash k).manSlot 1) = (0, 1) := (rfl : _ = vol0.unitAt 0 (vol0.manSlot 1)).trans (by decide +kernel)
  refine ⟨(rfl : _ = vol0.tripped).trans (by decide), (rfl : _ = vol0.volReady 0).trans (by decide +kernel), ?_, ?_⟩
  · unfold State.volUnit
    rw [u0]
    simp only
    rw [hl, a]
    exact manUnit_ok 1 k hk (by decide) (by decide)
  · unfold State.volUnit
    rw [u1]
    simp only
    rw [hl, b]
    exact manUnit_ok 2 k hk (by decide) (by decide)

/-! ## Witnesses: bring-up, discovery and ports -/

/-- Images written to both slots of the boot flash, the later one in slot 1. -/
def booted : State := { State.reset with grd := { Grd.reset with slots := [(0, ⟨true, 1, 0, []⟩), (1, ⟨true, 2, 0, []⟩)] } }

/-- BringUp: the boots with and without a good image, the enumerations, the ports and HBM training. -/
theorem witness_BringUp : DieUp State.reset 0 ∧ DieUp State.reset 7 ∧ State.reset.guardRuns = false ∧ State.reset.stage_ = 0 ∧
    booted.bootSlot true true = some 1 ∧ booted.bootSlot true false = some 0 ∧ booted.bootSlot false false = none ∧ DieUp booted 0 ∧ booted.guardRuns = false ∧
    booted.stage_ = 0 ∧ (7 : Nat) ≠ 0 ∧
    (let s := st [(0, Reg.grdStatus, 1), (0, Reg.genBoot, 1), (0, Reg.rasCapLive, 0), (7, Reg.rasCapLive, 0)];
      DieUp s 0 ∧ DieUp s 7 ∧ s.guardRuns = true ∧ s.stage_ ≠ 0xF ∧ s.regN 0 Reg.rasCapLive = 0 ∧ s.regN 7 Reg.rasCapLive = 0) ∧
    (let s := st [(0, Reg.genBoot, 2), (0, Reg.genDiscCtrl, 1)]; DieUp s 0 ∧ s.stage_ = 2 ∧ s.discState = 0 ∧ s.rbit 0 Reg.genDiscCtrl 0 = true) ∧
    State.reset.rbit 7 Reg.hbmStatus 0 = false :=
  ⟨up_of (by decide), up_of (by decide), by decide +kernel, by decide +kernel, by decide +kernel, by decide +kernel, by decide +kernel,
    up_of (by decide), by decide +kernel, by decide +kernel, by decide, ⟨up_of (by decide), up_of (by decide), by decide +kernel⟩, ⟨up_of (by decide), by decide +kernel⟩, by decide +kernel⟩

/-- A discovery frame with serial number 5. -/
def disc5 : DiscFrame := ⟨0, 1, false, 0, 8, 0x11, 0, 5, (0, 0, 0), (0, 0, 0), (0, 0, 0), (1, 1, 1)⟩

/-- Discovery running with the link of port 5 up, which has been heard. -/
def disc1 : State := { st [(0, Reg.genDiscStatus, 1), (5, Reg.ethStatus, 1)] with disc := { Disc.reset with heard := [5] } }

/-- Discovery: a frame to send, a better key, the end, and links that come up, stay down and go down. -/
theorem witness_Discovery : DieUp disc1 0 ∧ DieUp disc1 5 ∧ disc1.discState = 1 ∧ 5 < disc1.part.torusPorts ∧ disc1.portUp 5 = true ∧
    disc1.heldOut 5 = false ∧ disc1.disc.heard.contains 5 = true ∧ disc1.disc.rank disc5 = 0 ∧ disc5.kind = 0 ∧ disc5.ver = 1 ∧
    (let s := st [(6, Reg.ethCtrl, 1)]; DieUp s 6 ∧ s.portUp 6 = false ∧ s.portMayUp 6 = true) ∧
    (let s := st [(5, Reg.ethCtrl, 1), (0, Reg.genDiscStatus, 1)]; s.rbit 5 Reg.ethCtrl 0 = true ∧ s.portUp 5 = false ∧ s.discState ≠ 0) ∧
    (let s := st [(6, Reg.ethStatus, 1)]; DieUp s 6 ∧ s.part.torusPorts ≤ 6 ∧ s.portUp 6 = true) :=
  ⟨up_of (by decide +kernel), up_of (by decide +kernel), by decide +kernel, by decide +kernel, by decide +kernel, by decide +kernel, by decide +kernel, by decide +kernel, rfl, rfl,
    ⟨up_of (by decide), by decide +kernel⟩, by decide +kernel, ⟨up_of (by decide), by decide +kernel⟩⟩

/-- A frame of 64 bytes to the broadcast address. -/
def frame1 (dst etype len : Nat) (fcs : Bool) : Frame := ⟨dst, 1, none, etype, [], len, 0, 0, fcs, none⟩

/-- Port 0 up, with a pool of `k` KiB for priority 0, its marks at 1 and 2 KiB, and what else is given. -/
def port0 (k : Nat) (rs : List (Nat × Nat × Nat)) : State := st ((0, Reg.ethStatus, 0xFFD) :: (0, Reg.ethPool 0, k) :: (0, Reg.ethWm 0, 0x10002) :: rs)

/-- A frame that a port hears, by the tests. -/
theorem heard_of {s : State} {d : Nat} {f : Frame} (h : (!s.tripped && decide (d < s.part.dies) && !s.inReset d && s.receives d &&
    decide (s.frameBroken d f = none) && decide (f.etype ≠ 0x88B5) && s.addressed d (s.frameFor d f) && s.macsecOk d f.macsec) = true) : Hears s d f := by
  simp only [Bool.and_eq_true, Bool.not_eq_true', decide_eq_true_eq] at h
  obtain ⟨⟨⟨⟨⟨⟨⟨a, b⟩, c⟩, e⟩, g⟩, i⟩, j⟩, k⟩ := h
  exact ⟨⟨a, b, c⟩, e, g, i, j, k⟩

/-- A port without MACsec can send. -/
theorem canSend_of {s : State} {d : Nat} (h : (s.secReady d && (s.txSa d).isNone) = true) : CanSend s d := by
  simp only [Bool.and_eq_true, Option.isNone_iff_eq_none] at h
  exact ⟨h.1, fun a e => by rw [h.2] at e; cases e⟩

/-- FrameReceipt: each check alone, a pool filled to its last byte and one byte over, a claimed frame, one for a transport that is off, one that no
place claims, and the host's buffer. -/
theorem witness_FrameReceipt : let s := port0 1 []
    (DieUp s 0 ∧ s.receives 0 = true ∧ s.ximelOn 0 = false ∧ s.frameBroken 0 (frame1 0 0 64 false) = some 2 ∧ s.frameBroken 0 (frame1 0 0 63 true) = some 3 ∧
      s.ctr 0 (ethCnt 2) + 1 < s.regN 0 (Reg.ethErrLimit 2) ∧ s.frameBroken 0 (frame1 (2 ^ 48 - 1) 0x88B6 1024 true) = none ∧
      s.addressed 0 (s.frameFor 0 (frame1 (2 ^ 48 - 1) 0x88B6 1024 true)) = true ∧ s.addressed 0 (s.frameFor 0 (frame1 5 0x88B6 1024 true)) = false ∧
      s.macsecOk 0 none = true ∧ (port0 1 [(0, Reg.ethCtrl, 17)]).macsecOk 0 none = false ∧
      s.ctr 0 (ethCnt 0xA) + 1 < s.regN 0 (Reg.ethErrLimit 0xA) ∧ s.poolUsed 0 0 + 1024 ≤ s.poolSize 0 0 ∧ s.poolSize 0 0 < s.poolUsed 0 0 + 1025 ∧
      s.ctr 0 (ethCnt 9) + 1 < s.regN 0 (Reg.ethErrLimit 9) ∧ s.claim 0 (frame1 (2 ^ 48 - 1) 0x88B6 1024 true) = some 0x88B6 ∧
      s.claim 0 (frame1 (2 ^ 48 - 1) 0x9000 64 true) = none ∧ unclaimable (frame1 (2 ^ 48 - 1) 0x9000 64 true) = false ∧
      unclaimable (frame1 (2 ^ 48 - 1) 0x8100 64 true) = true ∧ s.heldBuf 31 = none ∧ pauseOf (frame1 (2 ^ 48 - 1) 0x8808 64 true) = none ∧
      (let f : Frame := { frame1 (2 ^ 48 - 1) 0x0800 64 true with payload := blob 50 [(0, 1, 0x45), (9, 1, 17), (22, 2, 0xA0D7)] };
        s.claim 0 f = some 0x0800 ∧ s.xtDrop 0 f = some 0xB)) ∧
    (Hears s 0 (frame1 (2 ^ 48 - 1) 0x88B6 1024 true) ∧ Hears s 0 (frame1 0x0180C2000001 0x8808 64 true)) ∧
    (let w : Work := { wk [(0, 1, 0x2E), (14, 4, 64)] with ring := 31, started := true };
      let s := has (port0 1 [(0, Reg.ethCtrl, 33), (0, Reg.ringCfg 31, 1 + 2 + 2 ^ 14 + 2 ^ 19)]) w;
      s.heldBuf 31 = some w ∧ s.work 0 = some w ∧ s.ethCtrl 0 5 = true ∧ s.ringOn 31 = true ∧ s.ringRx 31 = true ∧
        (frameBytes (frame1 (2 ^ 48 - 1) 0x9000 64 true)).length ≤ w.f 14 4 ∧ s.memWf = true) :=
  ⟨⟨up_of (by decide), by decide +kernel⟩, ⟨heard_of (by decide +kernel), heard_of (by decide +kernel)⟩, by decide +kernel⟩

/-- A port up with frames of priorities 3 and 7 to send, with or without Ximel Link, and a link of it. -/
def tx2 (status : Nat) (ls : List Link) : State :=
  { st [(0, Reg.ethStatus, status)] with eths := [{ State.reset.eth 0 with
      txq := [⟨3, 0, false, none, .frame (frame1 0 0 64 true)⟩, ⟨7, 0, false, none, .wheel (WheelFrame.bare 1 0 0)⟩] }], wires := ls }

/-- A frame held with SEQ 9. -/
def held9 : Held := ⟨9, 1, ⟨7, 0, false, none, .wheel (WheelFrame.bare 1 0 0)⟩⟩

/-- FrameSending: the frame of priority 7 goes first, on Ximel Link and off it, or the one to be sent again. -/
theorem witness_FrameSending : DieUp (tx2 1 []) 0 ∧ (tx2 1 []).portUp 0 = true ∧ CanSend (tx2 1 []) 0 ∧ ((tx2 1 []).eth 0).retrain = none ∧
    (tx2 1 []).txNext 0 = some (.fresh 1 ⟨7, 0, false, none, .wheel (WheelFrame.bare 1 0 0)⟩) ∧ (tx2 1 []).ximelOn 0 = false ∧
    (TxItem.wheel (WheelFrame.bare 1 0 0)).wireUnit = some 1 ∧ (TxItem.frame (frame1 0 0 64 true)).wireUnit = none ∧
    (tx2 3 []).ximelOn 0 = true ∧ (tx2 3 []).txNext 0 = some (.fresh 1 ⟨7, 0, false, none, .wheel (WheelFrame.bare 1 0 0)⟩) ∧
    (tx2 3 [⟨0, 0, 10, [held9], [9], 0, false, false⟩]).txNext 0 = some (.replay 0 held9) ∧
    (tx2 3 []).ctr 0 (ethCnt 0xE) + 1 < (tx2 3 []).regN 0 (Reg.ethErrLimit 0xE) :=
  ⟨up_of (by decide +kernel), by decide +kernel, canSend_of (by decide +kernel), by decide +kernel⟩

/-- A PFC frame that pauses priority 0 for the longest time, or ends its pause. -/
def pfc1 (time : Nat) : Frame := { frame1 0x0180C2000001 0x8808 64 true with payload := natBe 2 0x0101 ++ natBe 2 1 ++ natBe 2 time ++ List.replicate 40 0 }

/-- Pauses: PFC on a port that is up, PFC off, a pool above its high mark and one below its low mark, under PFC and under PAUSE. -/
theorem witness_Pauses :
    (∀ m, m ∈ [8, 4] → let s := port0 4 [(0, Reg.ethCtrl, m)]; DieUp s 0 ∧ s.portUp 0 = true ∧ CanSend s 0 ∧ s.fcMode 0 = m / 4 ∧
      ∀ q, q ∈ [0, 65535] → Hears s 0 { pfc1 q with etype := 0x8808 } ∧ pauseOf (pfc1 q) = some ⟨true, [(0, q)]⟩) ∧
    (let s := { port0 4 [(0, Reg.ethCtrl, 8)] with eths := [{ (port0 4 []).eth 0 with rx := [(0x0800, 0, 4096)] }] };
      s.fcMode 0 = 2 ∧ s.poolHigh 0 0 = true ∧ [0].Nodup) ∧
    (let s := { port0 4 [(0, Reg.ethCtrl, 8)] with eths := [{ (port0 4 []).eth 0 with pausing := [0] }] };
      s.fcMode 0 = 2 ∧ s.poolLow 0 0 = true ∧ 0 ∈ (s.eth 0).pausing) ∧
    (let s := { port0 4 [(0, Reg.ethCtrl, 4)] with eths := [{ (port0 4 []).eth 0 with pausing := [0] }] };
      s.fcMode 0 = 1 ∧ (∀ p, p < 8 → s.poolLow 0 p = true) ∧ 0 ∈ (s.eth 0).pausing) ∧
    (let s := { port0 4 [(0, Reg.ethCtrl, 4), (0, Reg.ethPool 1, 4), (0, Reg.ethWm 1, 0x10002)] with eths := [{ (port0 4 []).eth 0 with rx := [(0x0800, 1, 2048)], pausing := [0, 1] }] };
      s.fcMode 0 = 1 ∧ s.poolLow 0 0 = true ∧ s.poolLow 0 1 = false) ∧
    (let s := { port0 4 [(0, Reg.ethCtrl, 8)] with eths := [{ (port0 4 []).eth 0 with rx := [(0x0800, 0, 4096)], pausing := [0] }] };
      s.fcMode 0 = 2 ∧ 0 ∈ (s.eth 0).pausing ∧ s.poolLow 0 0 = false) := by
  refine ⟨fun m hm => ?_, by decide +kernel⟩
  simp only [List.mem_cons, List.not_mem_nil, or_false] at hm
  rcases hm with rfl | rfl <;> refine ⟨up_of (by decide), by decide +kernel, canSend_of (by decide +kernel), by decide +kernel, fun q hq => ?_⟩ <;>
    simp only [List.mem_cons, List.not_mem_nil, or_false] at hq <;> rcases hq with rfl | rfl <;> exact ⟨heard_of (by decide +kernel), by decide +kernel⟩

/-- Port 0 up on Ximel Link at eight lanes, with two frames held in a link and its marks, and frames of 9,000 bytes allowed. -/
def ximel0 (unit count : Nat) (owed nakked : Bool) : State :=
  let f : TxFrame := ⟨3, 0, false, none, .frame (frame1 0 0 64 true)⟩
  { st [(0, Reg.ethStatus, if unit = 0 then 0xFFF else 0xFFD), (0, Reg.whlCtrl, 1), (0, Reg.cmtCtrl, 1)] with
    wires := [⟨0, unit, 1, [⟨4095, 0, f⟩, ⟨0, count, f⟩], [], 4095, owed, nakked⟩], eths := [{ State.reset.eth 0 with eff := [1, 0, 0, 9000] }] }

/-- A link control frame that a port hears, by the tests. -/
theorem ctlHeard_of {s : State} {d : Nat} {x : LinkCtl} (h : (!s.tripped && decide (d < s.part.dies) && !s.inReset d && s.receives d &&
    s.addressed d x.dst && s.macsecOk d x.macsec && decide ((s.eth d).retrain = none)) = true) : CtlHeard s d x := by
  simp only [Bool.and_eq_true, Bool.not_eq_true', decide_eq_true_eq] at h
  obtain ⟨⟨⟨⟨⟨⟨a, b⟩, c⟩, e⟩, g⟩, i⟩, j⟩ := h
  exact ⟨⟨a, b, c⟩, e, g, i, j⟩

/-- XimelReplay: a frame with the SEQ expected, one without and a broken one, the timers, a NAK of the last frame, and a frame that is worn out. -/
theorem witness_XimelReplay : let s := ximel0 0 0 true true
    DieUp s 0 ∧ CanSend s 0 ∧ CtlHeard s 0 ⟨2 ^ 48 - 1, none, 4095⟩ ∧ s.receives 0 = true ∧ s.ximelOn 0 = true ∧ s.deaf 0 = false ∧ (s.eth 0).retrain = none ∧
      s.frameBroken 0 (frame1 5 0 64 true) = none ∧ 4095 % 4096 = (s.wire 0 0).expect ∧ s.frameBroken 0 (frame1 5 0 64 false) = some 2 ∧
      s.ctr 0 (ethCnt 2) + 1 < s.regN 0 (Reg.ethErrLimit 2) ∧
      0 % 4096 ≠ (s.wire 0 0).expect ∧ (s.wire 0 0).owed = true ∧ (s.wire 0 0).nakked = true ∧
      ((s.wire 0 0).acked 4095).held ≠ [] ∧ ((s.wire 0 0).acked 4095).worn = false ∧ (s.wire 0 0).held ≠ [] ∧ (s.wire 0 0).worn = false ∧
      ((ximel0 0 8 true true).wire 0 0).worn = true :=
  ⟨up_of (by decide +kernel), canSend_of (by decide +kernel), ctlHeard_of (by decide +kernel), by decide +kernel⟩

/-- SequencedLinks: a link of the wheel and one of the commit logic, off Ximel Link. -/
theorem witness_SequencedLinks : ∀ u, u ∈ [1, 2] → let s := ximel0 u 0 true true
    s.ximelOn 0 = false ∧ (s.wire 0 u).held ≠ [] ∧ (s.wire 0 u).worn = false ∧ ((ximel0 u 8 true true).wire 0 u).worn = true ∧ (s.wire 0 u).owed = true ∧
      (s.wire 0 u).nakked = true ∧ s.rbit 0 Reg.cmtCtrl 0 = true ∧ s.rbit 0 Reg.whlCtrl 0 = true ∧ (∀ x ∈ s.whl.colls, x.d ≠ 0) ∧
      ((s.wire 0 u).acked 4095).held ≠ [] ∧ ((s.wire 0 u).acked 4095).worn = false ∧ 8256 ≤ s.ethMaxfrm 0 ∧
      s.carries 0 (.wheel (WheelFrame.bare 4 0 4095)) = true ∧ s.carries 0 (.commit (CommitFrame.bare 7 0 4095)) = true := by decide +kernel

/-- Port 0 up on Ximel Link with a width code, a narrowing and a training. -/
def lanes0 (status : Nat) (n : Option Narrow) (tr : Bool) : State :=
  { st [(0, Reg.ethStatus, status), (0, Reg.ethCtrl, 3)] with eths := [{ State.reset.eth 0 with narrow := n, training := tr, eff := [3, 0, 0, 9000] }] }

/-- A link control frame to the broadcast address. -/
def ctl1 : LinkCtl := ⟨2 ^ 48 - 1, none, 0⟩

/-- LinkWidth: capabilities, a lane that fails, requests, a narrowing of this end and one that has switched, widening, training and retraining. -/
theorem witness_LinkWidth :
    (let s := lanes0 0xFFF none false;
      DieUp s 0 ∧ CanSend s 0 ∧ CtlHeard s 0 ctl1 ∧ s.portUp 0 = true ∧ 0 < s.part.torusPorts ∧ s.ethCtrl 0 1 = true ∧ s.ximelOn 0 = true ∧ s.rf 0 Reg.ethStatus 2 2 ≠ 0 ∧
        firstGroup (addNew 7 (s.eth 0).failed) (Nat.max 1 (s.eth 0).floor) = some 1 ∧
        firstGroup (s.eth 0).failed (Nat.max (s.eth 0).floor (groupRank 2 1)) = some (groupRank 2 1) ∧ (s.eth 0).narrow = none ∧ (s.eth 0).retrain = none ∧
        s.prio7 0 = [] ∧ firstGroup (s.eth 0).failed (Nat.max 1 (Nat.max (s.eth 0).floor (groupRank (2 - 1) 0))) = some 3) ∧
    (let s := { lanes0 0xFFF none false with eths := [{ (lanes0 0xFFF none false).eth 0 with failed := [0] }] };
      firstGroup (s.eth 0).failed (Nat.max (s.eth 0).floor (groupRank 2 0)) = some 2 ∧ groupRank 2 0 = 1) ∧ (port0 1 []).ximelOn 0 = false ∧
    (let s := lanes0 0xFFF (some ⟨3, 0, true, false⟩) false;
      (s.eth 0).narrow = some ⟨3, 0, true, false⟩ ∧ CtlHeard s 0 ctl1 ∧ CanSend s 0 ∧ s.ximelOn 0 = true) ∧
    (let s := lanes0 0xFFF (some ⟨2, 0, true, true⟩) false;
      (s.eth 0).narrow = some ⟨2, 0, true, true⟩ ∧ s.ximelOn 0 = true ∧ ((s.wire 0 0).acked 0).worn = false ∧ (s.eth 0).retrain = none) ∧
    ((lanes0 0xFFF (some ⟨0, 0, true, false⟩) false).eth 0).narrow = some ⟨0, 0, true, false⟩ ∧
    (let s := lanes0 0x0F7 none false; s.portUp 0 = true ∧ s.ximelOn 0 = true ∧ s.rf 0 Reg.ethStatus 2 2 ≠ 3 ∧ (s.eth 0).narrow = none) ∧
    ((lanes0 0x0F7 none true).eth 0).training = true ∧ (lanes0 0x1FFF none false).rbit 0 Reg.ethStatus 12 = true ∧ (tx2 1 []).prio7 0 ≠ [] :=
  ⟨⟨up_of (by decide +kernel), canSend_of (by decide +kernel), ctlHeard_of (by decide +kernel), by decide +kernel, by decide +kernel, by decide +kernel, by decide +kernel,
      by decide +kernel, by decide +kernel, by decide +kernel, by decide +kernel, by decide +kernel, by decide +kernel, by decide +kernel⟩, by decide +kernel, by decide +kernel,
    ⟨by decide +kernel, ctlHeard_of (by decide +kernel), canSend_of (by decide +kernel), by decide +kernel⟩, by decide +kernel⟩

/-! ## Witnesses: remote access -/

/-- A connection whose context is cached in state READY, by the tests. -/
theorem atConn_of {s : State} {d c : Nat} (h : (!s.tripped && decide (d < s.part.dies) && !s.inReset d && s.xtOn d && decide (c < s.ctxCount d) && s.ctxIn d c &&
    s.cached c && decide (ctxState (s.ctx d c) = 1) && decide ((s.ctx d c).length = 256) && s.xtOn (ctxPort (s.ctx d c)) &&
    s.rbit (ctxPort (s.ctx d c)) Reg.xtCtrl (if bit (leAt (s.ctx d c) 3 1) 4 then 2 else 1) && !s.dieOut (ctxPort (s.ctx d c)) &&
    !s.cutPair d (ctxPort (s.ctx d c))) = true) : AtConn s d c := by
  simp only [Bool.and_eq_true, Bool.not_eq_true', decide_eq_true_eq] at h
  obtain ⟨⟨⟨⟨⟨⟨⟨⟨⟨⟨⟨⟨a, b⟩, c⟩, d⟩, e⟩, f⟩, g⟩, i⟩, j⟩, k⟩, l⟩, m⟩, n⟩ := h
  exact ⟨⟨a, b, c⟩, d, e, f, g, i, j, ⟨k, l⟩, m, n⟩

/-- Region 3 of 64 bytes, readable and writable, is valid, ring 0 is a receive ring, and a buffer of 64 bytes is posted on it. -/
def xtr (conn : Conn) (ws : List Work) : State :=
  let s := { (xtc 1).setRegN 0 (Reg.ringCfg 0) (3 + 2 ^ 14 + 2 ^ 19) with seq := { Seq.reset with works := ws, nextId := 9 } }
  let s := s.write 8288 (Region.bytes ⟨65536, 64, true, true, false, false, true, 0, 0⟩)
  { s with xt := { s.xt with conns := [conn] } }

/-- A posted buffer. -/
def buf1 : Work := { wk [(0, 1, 0x2E), (14, 4, 64)] with started := true }

/-- A packet of connection 3 with 64 bytes. -/
def pkt (op psn len : Nat) : Packet := { Packet.plain op (tmpl 1) psn 0 with dstConn := 3, key := 768, len := len, payload := if op < 2 then List.replicate 64 1 else [] }

/-- PacketsPlaced: a SEND, a WRITE and a READ_REQ of the whole region, and a WRITE with a bad key. -/
theorem witness_PacketsPlaced : let s := xtr (Conn.idle 3 0) [buf1]
    AtConn s 0 3 ∧ s.memWf = true ∧ (∀ op, op ≤ 2 → (pkt op 0 64).fence = false ∧ (pkt op 0 64).psn = ctxExp (s.ctx 0 3) ∧ s.received 0 3 0 = false) ∧
      s.packetCheck 0 3 (pkt 0 0 64) = (0, some buf1.id) ∧ s.work buf1.id = some buf1 ∧ (s.conn 3).inMsg 0 = none ∧
      s.packetCheck 0 3 (pkt 1 0 64) = (0, none) ∧ (s.region 0 3).bell = false ∧ s.packetCheck 0 3 (pkt 2 0 64) = (0, none) ∧
      s.packetCheck 0 3 { pkt 1 0 64 with key := 769 } = (0x11, none) := ⟨atConn_of (by decide +kernel), by decide +kernel⟩

/-- A connection with a message of three packets sent. -/
def conn1 (op : Nat) : Conn := ⟨3, [⟨0, op, 0, 2 ^ 24 - 1, 3, 2049, 3, []⟩], [], 2 ^ 24 - 1, 0, 0, none, [], true, true⟩

/-- PacketsAnswered: the last response of a read, an acknowledgement across the wrap of the PSN, NAKs, and packets that reach nothing. -/
theorem witness_PacketsAnswered : let w := { wk [(0, 1, 0x2D), (8, 3, 3), (28, 4, 2049)] with started := true }
    (let s := xtr (conn1 2) [w];
      AtConn s 0 3 ∧ s.memWf = true ∧ ((s.conn 3).msgs.find? fun m => m.op == 2 && m.msn == 0) = some ⟨0, 2, 0, 2 ^ 24 - 1, 3, 2049, 3, []⟩ ∧
        s.work 0 = some w ∧ modSub 24 1 (2 ^ 24 - 1) < 3) ∧
    (let s := xtr (conn1 1) [w];
      0 < modSub 24 2 (s.conn 3).acked ∧ modSub 24 2 (s.conn 3).acked < 2 ^ 23 ∧ (s.conn 3).msgs = [⟨0, 1, 0, 2 ^ 24 - 1, 3, 2049, 3, []⟩] ∧
        ({ s.conn 3 with acked := 2 }).msgDone ⟨0, 1, 0, 2 ^ 24 - 1, 3, 2049, 3, []⟩ = true ∧ leAt (s.ctx 0 3) 32 1 / 16 = 15) ∧
    State.reset.xtOn 0 = false ∧ (xtc 1).ctxCount 0 ≤ 4 := ⟨⟨atConn_of (by decide +kernel), by decide +kernel⟩, by decide +kernel⟩

/-- A fenced WRITE of connection 3, and a message wholly received. -/
def in1 (fence : Bool) : XIn := ⟨0, 1, if fence then some (2 ^ 24 - 1) else some 0, none, 0, if fence then [pkt 1 0 64] else [], true, 0, 64, none, false, !fence⟩

/-- TransportTimers: a context to fetch, timers of a message sent, its last retry, a wait after an RNR NAK, a read to ask again, a fence to open, and a message
to complete. -/
theorem witness_TransportTimers : let w := { wk [(0, 1, 0x2D), (8, 3, 3), (28, 4, 2049)] with started := true }
    (let s := { xt0 [] with xt := ⟨[], [], [], [(0, 3)]⟩ };
      DieUp s 0 ∧ (0, 3) ∈ s.xt.fetching ∧ s.cached 3 = false ∧ (s.ctxsOf 0).length < 4096 ∧ s.xt.misses = []) ∧
    (let s := xtr (conn1 2) [w];
      DieUp s 0 ∧ Sends s (s.ctx 0 3) ∧ (s.conn 3).owed = true ∧ (s.conn 3).nak = true ∧ ctxState (s.ctx 0 3) = 1 ∧ (s.conn 3).unacked = true ∧
        leAt (s.ctx 0 3) 32 1 % 16 ≤ (s.conn 3).tries + 1 ∧
        ((s.conn 3).msgs.find? fun m => m.op == 2 && decide (0 < m.sent) && decide (m.got.length < m.n)) = some ⟨0, 2, 0, 2 ^ 24 - 1, 3, 2049, 3, []⟩ ∧
        s.work 0 = some w ∧ ((List.range 3).find? fun i => !([] : List Nat).contains i) = some 0) ∧
    (let s := (xtr (conn1 2) [w]).setCtx 0 3 (spliceAt ((xtc 1).ctx 0 3) 32 [0xF2]);
      (s.conn 3).tries + 1 < leAt (s.ctx 0 3) 32 1 % 16) ∧
    (let s := xtr { conn1 2 with wait := some 0 } [w]; (s.conn 3).wait = some 0 ∧ ((s.conn 3).msgs.find? fun m => m.msn == 0).isSome = true) ∧
    (let s := xtr { Conn.idle 3 0 with ins := [in1 true] } [];
      s.memWf = true ∧ s.cached 3 = true ∧ (s.conn 3).ins = [in1 true] ∧ (in1 true).held = [pkt 1 0 64] ∧ (s.region 0 3).bell = false ∧ s.fenceOpen 0 3 (in1 true) = true) ∧
    (let s := xtr { Conn.idle 3 0 with ins := [in1 false] } [];
      (s.conn 3).inMsg (ctxRecvMsn (s.ctx 0 3)) = some (in1 false) ∧ (in1 false).whole = true ∧ (in1 false).notify = true) :=
  ⟨⟨up_of (by decide +kernel), by decide +kernel⟩, ⟨up_of (by decide +kernel), ⟨by decide +kernel, by decide +kernel⟩, by decide +kernel⟩, by decide +kernel⟩

/-! ## Witnesses: collectives and commits -/

/-- A MESH group of two dies, the collective of descriptor 0 running in it as number 5, and the descriptor. -/
def coll1 (cop : Nat) (open_ : Bool) : State × Work :=
  let s := ownMem [(0, Reg.whlCtrl, 1), (0, Reg.whlGrpBaseLo, 8192), (0, Reg.whlGrpCount, 1), (0, Reg.whlStageLo, 2 ^ 30)]
    [(8192, blob 64 [(1, 1, 130), (8, 6, 12288)]), (12288, blob 16 [(14, 1, 1)]), (24, natLe 4 1)]
  let w := { wk [(0, 1, 0x20), (8, 1, cop), (16, 6, 65536)] with started := true }
  ({ has s w with whl := ⟨[⟨0, 0, 0, 5, cop, 2, 0, [], [], open_, [], [], [], [], 0, none, [], [], [], [], [], [], 0, 0, 0, false, false⟩], [], []⟩ }, w)

/-- A frame to die 0 from die 1, of a collective number. -/
def wf (kind num : Nat) : WheelFrame := { WheelFrame.bare kind 0 0 with coll := num, srcRank := 1, last := true, piece := 1, mesh := true }

/-- A frame at a MESH group, by the tests. -/
theorem atMesh_of {s : State} {d : Nat} {f : WheelFrame} (h : (!s.tripped && decide (d < s.part.dies) && !s.inReset d && s.rbit d Reg.whlCtrl 0 &&
    f.mesh && decide (f.ver = 1) && (s.grp d f.group).valid && decide ((s.grp d f.group).axis = 0) && decide (f.dstRank = (s.grp d f.group).rank) && decide (f.srcRank < (s.grp d f.group).n) &&
    decide (f.srcRank ≠ (s.grp d f.group).rank)) = true) : AtMesh s d f := by
  simp only [Bool.and_eq_true, Bool.not_eq_true', decide_eq_true_eq] at h
  obtain ⟨⟨⟨⟨⟨⟨⟨⟨⟨⟨a, b⟩, c⟩, d⟩, e⟩, f⟩, g⟩, i⟩, j⟩, k⟩, l⟩ := h
  exact ⟨⟨a, b, c⟩, d, e, f, g, i, j, k, l⟩

/-- A tile of format 12 after its first byte. -/
def tile12 (k : Nat) : List Byte := 12 :: List.replicate k 0

/-- WheelFrames: the wheel off, an early frame, a credit, and a collective that times out. -/
theorem witness_WheelFrames : State.reset.rbit 0 Reg.whlCtrl 0 = false ∧
    (let s := (coll1 2 false).1;
      AtMesh s 0 (wf 2 6) ∧ (∀ x ∈ s.whl.colls, ¬ (x.d = 0 ∧ x.group = (wf 2 6).group ∧ x.num = 6)) ∧
      (wf 0 5).kind < 6 ∧ AtMesh s 0 (wf 1 5) ∧ s.whl.colls.find? (fun x => x.d == 0 && x.group == 0 && x.num == 5) = s.coll 0 ∧
      ((s.coll 0).map fun x => (x.id, x.open_, x.queue.length)) = some (0, false, 0) ∧ (∀ y ∈ s.whl.colls, y.d = 0 → y.id = 0) ∧
      s.work 0 = some (coll1 2 false).2 ∧ s.rbit 0 Reg.whlCtrl 0 = true) :=
  ⟨by decide +kernel, atMesh_of (by decide +kernel), by decide +kernel, by decide, atMesh_of (by decide +kernel), by decide +kernel⟩

/-- WheelFrames: the last tile of a SHIFT's piece. -/
theorem witness_WheelFrames_data (k : Nat) (hk : k = 8255) : let s := (coll1 3 true).1; let w := (coll1 3 true).2; let f := { wf 0 5 with payload := tile12 k }
    let u := s.staged 0
    AtMesh s 0 f ∧ s.memWf = true ∧ f.kind < 6 ∧ s.work 0 = some w ∧ w.cop = 3 ∧
      ((s.coll 0).map fun x => (x.d, x.num, x.open_, x.ins.length, x.spans.length)) = some (0, 5, true, 0, 0) ∧
      f.last = true ∧ f.piece < (u.grp 0 f.group).n ∧ f.index < (u.piece w f.piece).n ∧ f.payload.length = tileStride (leAt f.payload 0 1) ∧
      u.refetching ⟨0, f.payload.length, true⟩ = false ∧ ∀ c ∈ u.rangeCodes 0 w.part ⟨0, f.payload.length, true⟩, c = 0 := by
  have l : (tile12 k).length = 8256 := by rw [tile12, List.length_cons, List.length_replicate, hk]
  have m : AtMesh (coll1 3 true).1 0 (wf 0 5) := atMesh_of (by decide +kernel)
  refine ⟨⟨m.die, m.on, m.mine, m.ver, m.valid, m.mesh, m.here, m.src, m.other⟩, by decide +kernel, by show 0 < 6; decide, by decide +kernel, by decide +kernel, by decide +kernel,
    rfl, ?_, ?_, l.trans ((by decide +kernel : 8256 = tileStride 12)), ?_, ?_⟩
  · show (wf 0 5).piece < (((coll1 3 true).1.staged 0).grp 0 (wf 0 5).group).n
    decide +kernel
  · show (wf 0 5).index < (((coll1 3 true).1.staged 0).piece (coll1 3 true).2 (wf 0 5).piece).n
    decide +kernel
  · rfl
  · show ∀ c ∈ ((coll1 3 true).1.staged 0).rangeCodes 0 (coll1 3 true).2.part ⟨0, (tile12 k).length, true⟩, c = 0
    rw [l]
    decide +kernel

/-- A frame of a domain, by the tests. -/
theorem atDomain_of {s : State} {d : Nat} {f : CommitFrame} (h : (!s.tripped && decide (d < s.part.dies) && !s.inReset d && s.rbit d Reg.cmtCtrl 0 &&
    (s.ximelOn d || decide (f.seq % 4096 = (s.wire d 2).expect)) && (decide (6 ≤ d) || decide (f.dstXyz = s.selfXyz)) && (s.domRec f.domain).valid &&
    decide (f.gen = (s.domRec f.domain).gen) && s.rbit (s.domRec f.domain).die Reg.cmtCtrl 0 && decide (f.srcRank ∉ (s.dom f.domain).lost) &&
    decide (f.ver = 1) && !s.dieOut (s.domRec f.domain).die && !s.cutPair d (s.domRec f.domain).die) = true) : AtDomain s d f := by
  simp only [Bool.and_eq_true, Bool.or_eq_true, Bool.not_eq_true', decide_eq_true_eq] at h
  obtain ⟨⟨⟨⟨⟨⟨⟨⟨⟨⟨⟨⟨a, b⟩, c⟩, d⟩, e⟩, f⟩, g⟩, i⟩, j⟩, k⟩, l⟩, m⟩, n⟩ := h
  exact ⟨⟨a, b, c⟩, d, e, f, g, i, j, k, l, m, n⟩

/-- Domain 0 of two members in which this package has a rank and pushes to rank 1, with a hold entry of 64 bytes, two groups and what the domain holds. -/
def dom1 (rank flags : Nat) (gs : List Group) (ws : List Work) (y : Dom) : State :=
  let s := ownMem [(0, Reg.cmtCtrl, 1), (0, Reg.cmtDomBaseLo, 4096), (0, Reg.cmtDomCount, 1), (0, Reg.cmtHoldCount, 1), (0, Reg.cmtTwinBaseLo, 16384)]
    [(4096, blob 64 [(0, 1, 128), (1, 2, 2), (3, 2, rank), (6, 2, 2 ^ 15 + 1), (8, 6, 8192)]), (8192, blob 16 [(14, 1, 1)]),
      (0, blob 32 [(0, 6, 65536), (8, 6, 131072), (16, 6, 64), (22, 1, flags), (24, 2, 1)]), (16400, blob 16 [(6, 1, 7)])]
  { s with groups := gs, doms := [y], seq := { Seq.reset with works := ws, nextId := 1 }, eths := [{ s.eth 0 with eff := [1, 0, 0, 9000] }] }

/-- A commit frame from rank 1. -/
def cf (kind verdict : Nat) : CommitFrame := { CommitFrame.bare kind 0 0 with srcRank := 1, verdict := verdict, payload := if kind < 4 then List.replicate 64 1 else [] }

/-- A closed group whose COMMIT is descriptor 0, in a domain or local. -/
def grp1 (dom : Nat) (failed : Bool) : Group := ⟨0, 0, true, 1, failed, [], [], some 0, dom, 0, 0, 0⟩

/-- CommitRing: frames with the commit logic off, a PREPARE and a decision at either rank, votes of a local group, a wait, and CMT_DISABLE. -/
theorem witness_CommitRing : State.reset.rbit 0 Reg.cmtCtrl 0 = false ∧
    (∀ r, r ≤ 1 → AtDomain (dom1 r 1 [] [] (Dom.idle 0)) 0 (cf 0 1) ∧ (dom1 r 1 [] [] (Dom.idle 0)).dom 0 = Dom.idle 0 ∧
      ((dom1 r 1 [] [] (Dom.idle 0)).domRec 0).broken = false ∧ ((dom1 r 1 [] [] (Dom.idle 0)).domRec 0).rank = r ∧
      ((dom1 r 1 [] [] (Dom.idle 0)).domRec 0).done ≤ (cf 0 1).commit ∧ (dom1 r 1 [] [] (Dom.idle 0)).groupOf 0 0 = none) ∧
    (∀ b : Bool, let s := dom1 0 1 [grp1 0xF b] [wk [(0, 1, 0x3A)]] (Dom.idle 0);
      s.tripped = false ∧ s.groupAt 0 = some (grp1 0xF b) ∧ s.voteReady (grp1 0xF b) = true ∧ s.work 0 = some (wk [(0, 1, 0x3A)])) ∧
    (dom1 1 1 [grp1 0 false] [] (Dom.idle 0)).waits 0 0 0 = true ∧ (dom1 0 1 [grp1 0 false] [] (Dom.idle 0)).rbit 0 Reg.cmtCtrl 0 = true := by
  refine ⟨by decide +kernel, fun r hr => ?_, by decide +kernel, by decide +kernel, by decide +kernel⟩
  have : r = 0 ∨ r = 1 := by omega
  rcases this with rfl | rfl <;> exact ⟨atDomain_of (by decide +kernel), by decide +kernel⟩

/-- CommitTraffic: a twin to push, copies that arrive at a hold entry, the answer to a push, a member that is lost, and a recovery. -/
theorem witness_CommitTraffic :
    (let s := dom1 0 1 [grp1 0 false] [] (Dom.idle 0);
      s.tripped = false ∧ s.groupAt 0 = some (grp1 0 false) ∧ (grp1 0 false).closed = true ∧ (grp1 0 false).commit.isSome = true ∧ s.actionOn 0 1 = false ∧
        1 ∈ s.pushTwins (grp1 0 false) ∧ (∀ x ∈ (grp1 0 false).pushes, x.obj ≠ 1)) ∧
    (∀ f, f ∈ [1, 9] → let s := dom1 0 f [] [] (Dom.idle 0);
      s.memWf = true ∧ (s.hold 0).valid = true ∧ (s.hold 0).dom = (cf 2 0).domain ∧ (s.hold 0).partner = (cf 2 0).srcRank ∧
        (cf 2 0).offset + (cf 2 0).payload.length ≤ (s.hold 0).len ∧ (s.hold 0).staged = false ∧ (s.hold 0).prev = (f == 9) ∧ 8256 ≤ s.ethMaxfrm 0) ∧
    AtDomain (dom1 0 1 [] [] (Dom.idle 0)) 0 (cf 2 0) ∧
    (let s := dom1 0 1 [grp1 0 false] [] (Dom.idle 0);
      AtDomain s 0 (cf 4 1) ∧ s.groupOf 0 0 = some (grp1 0 false) ∧ (cf 4 1).srcRank = (s.domRec 0).buddy ∧ (s.domRec 0).valid = true ∧ 1 < (s.domRec 0).n ∧
        1 ≠ (s.domRec 0).rank ∧ 1 ∉ (s.dom 0).lost) ∧
    (let s := dom1 0 1 [] [] { Dom.idle 0 with leads := true };
      AtDomain s 0 (cf 6 1) ∧ AtDomain s 0 (cf 6 3) ∧ (s.dom 0).leads = true ∧ ∃ q ∈ s.survivors 0, kvFind (s.dom 0).ends q = none) := by
  refine ⟨⟨by decide +kernel, by decide +kernel, rfl, rfl, by decide +kernel, ?_, by decide⟩, by decide +kernel, atDomain_of (by decide +kernel),
    ⟨atDomain_of (by decide +kernel), by decide +kernel⟩, atDomain_of (by decide +kernel), atDomain_of (by decide +kernel), by decide +kernel, 1, by decide +kernel, by decide +kernel⟩
  unfold State.pushTwins
  rw [if_neg (by decide +kernel)]
  simp only [State.groupTwins, List.mem_filter, List.mem_range'_1]
  decide +kernel

/-! ## Witnesses: mailboxes, the guard and its sessions -/

/-- Mailbox 63 enabled for partition 0, with a request, and its state word. -/
def mb1 (req : List Byte) (state : Nat) : State :=
  ((List.range ((req.length + 3) / 4)).foldl (fun s i => s.setRegN 0 (Reg.mbData 63 i) (leAt req (4 * i) 4))
    (st [(0, Reg.mbCfg 63, 1), (0, Reg.mbState 63, state), (7, Reg.ringStatus 31, 2)]))

/-- Mailboxes: each service for the last ring with RESULT 0, an unknown one, a request to the guard, and a busy mailbox. -/
theorem witness_Mailboxes :
    (∀ sv, sv ∈ [1, 2, 3, 4] → let s := mb1 (blob 8 [(0, 1, sv), (4, 1, 255)]) 0;
      s.tripped = false ∧ s.mbReaches 63 .pf = true ∧ s.mbReaches 63 (.vf 1) = true ∧ s.mbBusy 63 = false ∧ leAt (s.mbBytes 63) 0 1 = sv ∧
        s.mbResult 63 (s.mbBytes 63) = 0) ∧
    (let s := mb1 (blob 8 [(0, 1, 5), (2, 2, 496)]) 0; leAt (s.mbBytes 63) 0 1 = 5 ∧ s.mbResult 63 (s.mbBytes 63) = 0) ∧
    leAt ((mb1 (blob 4 [(0, 1, 6)]) 0).mbBytes 63) 0 1 = 6 ∧ leAt ((mb1 (blob 4 [(0, 1, 16)]) 0).mbBytes 63) 0 1 = 16 ∧
    (mb1 (blob 4 [(0, 1, 1)]) 65536).mbBusy 63 = true := by decide +kernel

/-- The guard running in FEATURES stage, one session complete over the DOE mailbox, limits of the fuses, and what else is given. -/
def grd1 (g : Grd) : State :=
  { st [(0, Reg.grdStatus, 1), (0, Reg.genBoot, 5), (0, Reg.grdFuseSvn, 2 + 256 * 105), (0, Reg.grdId, 3)] with
    grd := { g with sess := [⟨0, true, true⟩], spdm := [⟨true, 3, [], [7]⟩] } }

/-- A request of a session or of the side band, with zeros for its arguments. -/
def greq (op n : Nat) : GReq := ⟨if op ∈ [3, 6, 15] then .ses 0 else .sb, blob (8 + n) [(0, 2, op), (2, 2, n)]⟩

/-- A request that the guard hears, by the tests. -/
theorem hears_of {s : State} {r : GReq} {c : PathClass} {op : Nat} (h : (!s.tripped && s.guardRuns && decide (s.pathClass r.path = some c) &&
    decide (reqOp (s.reqBytes r) = op) && reqKnown (s.reqBytes r) && opPath op c) = true) : GuardHears s r c op := by
  simp only [Bool.and_eq_true, Bool.not_eq_true', decide_eq_true_eq] at h
  obtain ⟨⟨⟨⟨⟨a, b⟩, c⟩, d⟩, e⟩, f⟩ := h
  exact ⟨a, b, c, d, e, f⟩

/-- GuardRequests: a request of each opcode that the guard hears, and ones of an unknown opcode and by a path that may not carry theirs. -/
theorem witness_GuardRequests : (∀ x, x ∈ ([(1, 0), (2, 2), (3, 2), (4, 2), (5, 2), (6, 4), (7, 0), (8, 2), (9, 5)] : List (Nat × Nat)) → ∃ c, GuardHears (grd1 Grd.reset) (greq x.1 x.2) c x.1) ∧
    (grd1 Grd.reset).pathClass .sb = some .sb ∧ reqKnown (blob 8 [(0, 2, 16)]) = false ∧ reqKnown (blob 8 [(0, 2, 1), (2, 2, 1)]) = false ∧
    (reqKnown (blob 10 [(0, 2, 3), (2, 2, 2)]) = true ∧ opPath 3 .sb = false) := by
  refine ⟨fun x hx => ?_, by decide +kernel⟩
  simp only [List.mem_cons, List.not_mem_nil, or_false] at hx
  rcases hx with rfl | rfl | rfl | rfl | rfl | rfl | rfl | rfl | rfl <;> first
    | exact ⟨.sb, hears_of (by decide +kernel)⟩
    | exact ⟨.ses, hears_of (by decide +kernel)⟩

/-- GuardRequests: settings inside and outside their ranges. -/
theorem witness_GuardRequests_settings : let s := grd1 Grd.reset
    limitOk 0 13 = true ∧ limitOk 5 4 = false ∧ s.rf 0 Reg.grdFuseSvn 8 8 = 105 ∧ ¬ (60 < 60 ∨ 105 < 60 ∨ 65 < 60 + 5 ∨ 115 < 65) ∧ s.discState = 0 ∧ 2 ≤ s.stage_ ∧
      s.stage_ ≠ 0xF ∧ s.grd.resetReq = none ∧ (grd1 { Grd.reset with resetReq := some (2, 7) }).grd.resetReq = some (2, 7) := by decide +kernel

/-- GuardFirmware: an update to begin, to write and to commit, a nonce, and an SVN to advance. -/
theorem witness_GuardFirmware : let u : FwUpd := ⟨8, 2, []⟩
    (∀ x, x ∈ ([(10, 5), (11, 4), (11, 452), (12, 0), (13, 0), (14, 96), (15, 0)] : List (Nat × Nat)) → ∃ c, GuardHears (grd1 Grd.reset) (greq x.1 x.2) c x.1) ∧
      (grd1 Grd.reset).grd.upd = none ∧ (grd1 Grd.reset).minSvn = 2 ∧ (grd1 { Grd.reset with upd := some u }).grd.upd = some u ∧
      (grd1 { Grd.reset with nonce := some [1] }).grd.nonce = some [1] ∧ (grd1 Grd.reset).minSvn < (grd1 Grd.reset).rf 0 Reg.grdId 0 8 := by
  refine ⟨fun x hx => ?_, by decide +kernel⟩
  simp only [List.mem_cons, List.not_mem_nil, or_false] at hx
  rcases hx with rfl | rfl | rfl | rfl | rfl | rfl | rfl <;> first
    | exact ⟨.sb, hears_of (by decide +kernel)⟩
    | exact ⟨.ses, hears_of (by decide +kernel)⟩

/-- A message over the DOE mailbox: version, request code, two parameters and what follows. -/
def msg (ses : Option Nat) (code p1 p2 : Nat) (rest : List Byte) : SpdmMsg := ⟨true, ses, [if code = 0x84 then 0x10 else 0x13, BitVec.ofNat 8 code, BitVec.ofNat 8 p1, BitVec.ofNat 8 p2] ++ rest⟩

/-- A message that the guard hears, by the tests. -/
theorem spdm_of {s : State} {m : SpdmMsg} {code steps : Nat} (h : (!s.tripped && s.spdmReach m && decide (leAt m.bytes 1 1 = code) && spdmVersion m.bytes &&
    decide (steps ≤ (s.spdmOf m.doe).phase) && m.session.all fun i => s.sessUp i) = true) : SpdmHears s m code steps := by
  simp only [Bool.and_eq_true, Bool.not_eq_true', decide_eq_true_eq] at h
  obtain ⟨⟨⟨⟨⟨a, b⟩, c⟩, d⟩, e⟩, f⟩ := h
  exact ⟨a, b, c, d, e, fun i hi => by rw [hi] at f; exact f⟩

/-- SpdmConnection: each request outside a session, a chunk that waits, and a vendor request in a session. -/
theorem witness_SpdmConnection : let s := grd1 Grd.reset
    (∀ x, x ∈ ([(0x84, 0), (0xE1, 1), (0xE3, 2), (0x81, 3), (0x82, 3), (0x83, 3), (0xE0, 3), (0x85, 3), (0x86, 3), (0xFE, 3)] : List (Nat × Nat)) →
      SpdmHears s (msg none x.1 0 0 []) x.1 x.2) ∧ (s.spdmOf true).left ≠ [] ∧ SpdmHears s (msg (some 0) 0xFE 0 0 []) 0xFE 3 := by
  refine ⟨fun x hx => ?_, by decide +kernel, spdm_of (by decide +kernel)⟩
  simp only [List.mem_cons, List.not_mem_nil, or_false] at hx
  rcases hx with rfl | rfl | rfl | rfl | rfl | rfl | rfl | rfl | rfl | rfl <;> exact spdm_of (by decide +kernel)

/-- SpdmSessions: a free session, none free, one to finish, and requests of one that is up. -/
theorem witness_SpdmSessions : SpdmHears (grd1 Grd.reset) (msg none 0xE4 0 0 []) 0xE4 3 ∧
    ((List.range 4).find? fun i => ((grd1 Grd.reset).sessOf i).isNone) = some 1 ∧
    (let s := { grd1 Grd.reset with grd := { (grd1 Grd.reset).grd with sess := (List.range 4).map fun i => ⟨i, true, false⟩ } };
      ((List.range 4).find? fun i => (s.sessOf i).isNone) = none ∧ s.sessUp 3 = false ∧ s.spdmReach (msg (some 3) 0xE5 0 0 []) = true ∧
        leAt (msg (some 3) 0xE5 0 0 []).bytes 1 1 = 0xE5 ∧ spdmVersion (msg (some 3) 0xE5 0 0 []).bytes = true ∧ 3 ≤ (s.spdmOf true).phase) ∧
    (∀ code, code ∈ [0xE9, 0xE8, 0xEC] → SpdmHears (grd1 Grd.reset) (msg (some 0) code 0 0 []) code 3) := by
  refine ⟨spdm_of (by decide +kernel), by decide +kernel, by decide +kernel, fun x hx => ?_⟩
  simp only [List.mem_cons, List.not_mem_nil, or_false] at hx
  rcases hx with rfl | rfl | rfl <;> exact spdm_of (by decide +kernel)

/-- InterfacesAndKeys: a session over the DOE mailbox, an interface in each state, and the last function, stream and association. -/
theorem witness_InterfacesAndKeys : let s := { grd1 Grd.reset with hst := { Hst.reset with tdi := [(1, 1), (2, 2), (3, 3)] } }
    OnDoe s 0 ∧ 16 ≤ s.part.parts ∧ s.tdi 16 = 0 ∧ s.tdi 1 = 1 ∧ s.tdi 2 = 2 ∧ s.tdi 3 = 3 ∧ s.sessUp 0 = true ∧ 7 < s.part.dies ∧ s.tdi 3 ∉ [1] :=
  ⟨⟨by decide +kernel, by decide +kernel, ⟨0, true, true⟩, by decide +kernel⟩, by decide +kernel⟩

/-! ## Witnesses: partitions, serving, completions and the host -/

/-- A ring of partition 0 and context 0 of die 0 with one slot waiting, and what else is given. -/
def part0 (ctx : Nat) (rs : List (Nat × Nat × Nat)) : State := st ((0, Reg.ringCfg 0, 1 + 64 * ctx + 2 ^ 14 + 2 ^ 19) :: (0, Reg.ringPi 0, 1) :: rs)

/-- Partitions: the enable of the last partition and of one that runs at once, a disable with work waiting, good and bad masks, and a switch between contexts. -/
theorem witness_Partitions : DieUp (part0 0 []) 0 ∧ 15 < (part0 0 []).part.parts ∧ (part0 0 []).rbit 0 (Reg.seqPartCfg 0) 0 = false ∧ (part0 0 []).runnable 0 0 0 = true ∧
    (let s := has (own0 [(0, Reg.seqPartCfg 0, 1)]) (wk []); s.rbit 0 (Reg.seqPartCfg 0) 0 = true ∧ wk [] ∈ s.seq.works) ∧
    State.reset.maskBad 0 0 65535 = false ∧ (st [(0, Reg.seqPartMask 1, 1)]).maskBad 0 0 1 = true ∧ Master.system .pf = true ∧
    (let s := { part0 15 [(0, Reg.seqPartCfg 0, 3), (0, Reg.seqPartStatus 0, 48)] with seq := { Seq.reset with switchTo := [(0, 15)] } };
      s.partOn 0 0 = true ∧ s.rbit 0 (Reg.seqPartStatus 0) 4 = true ∧ s.engineBusy 0 0 = false ∧ kvFind s.seq.switchTo 0 = some 15) ∧
    (let s := part0 15 [(0, Reg.seqPartCfg 0, 3), (0, Reg.seqPartStatus 0, 32)];
      s.partOn 0 0 = true ∧ s.sliceOf 0 0 ≠ 0 ∧ s.rbit 0 (Reg.seqPartStatus 0) 4 = false ∧ s.rbit 0 (Reg.seqPartStatus 0) 5 = true ∧ s.nextCtx 0 0 = some 15) :=
  ⟨up_of (by decide), by decide +kernel⟩

/-- WeirGrants: requests of two partitions at the last link of path 2, by rotation and by the buckets. -/
theorem witness_WeirGrants : DieUp State.reset 7 ∧ State.reset.weirRate 7 2 ≠ 0 ∧ State.reset.rbit 7 Reg.weirCtrl 2 = false ∧
    State.reset.weirPick 7 2 3 [⟨some 15, 64⟩, ⟨some 0, 64⟩] = some ⟨some 0, 64⟩ ∧
    (let s := st [(7, Reg.weirCtrl, 4)]; s.rbit 7 Reg.weirCtrl 2 = true ∧ (s.fillWeir 7 2 3 1).weirPick 7 2 3 [⟨some 15, 64⟩] = some ⟨some 15, 64⟩) :=
  ⟨up_of (by decide), by decide +kernel⟩

/-- A serving stream with one entry of model 0, which is resident or not, and the entries of another stream. -/
def srv0 (on model other : Nat) : State :=
  ownMem [(0, Reg.seqSrvCtrl 0, on), (0, Reg.seqSrvCount 0, 1), (0, Reg.seqSrvBaseLo 0, 4096), (0, Reg.seqSrvLimits 0, 65537), (0, Reg.seqSrvCtrl 1, 1), (0, Reg.seqSrvCount 1, other)]
    [(0, [BitVec.ofNat 8 model]), (4099, [128])]

/-- ServingStream: an enable up to the last entry and one too many, a disable, a build with no row and with one, and a step that ends. -/
theorem witness_ServingStream : ((srv0 0 2 16383).srvOn 0 = false ∧ (srv0 0 2 16383).srvTotal + (srv0 0 2 16383).srvCount 0 ≤ 16384) ∧
    16384 < (srv0 0 2 16384).srvTotal + (srv0 0 2 16384).srvCount 0 ∧
    (let s := srv0 1 0 1; s.tripped = false ∧ s.srvOn 0 = true ∧ (s.srv 0).inFlight = false ∧ s.serves = true ∧ (s.scan 0 ((List.range 64).map s.modelEntry)).rows = []) ∧
    (((srv0 1 2 1).scan 0 ((List.range 64).map (srv0 1 2 1).modelEntry)).rows.getLast?.isSome = true) ∧
    (let s := { srv0 1 2 1 with srvs := [⟨0, 0, true, [], [], [], 0, 0, 0, [], []⟩] }; (s.srv 0).inFlight = true ∧ (s.srv 0).toCopy = [] ∧ (s.srv 0).left = 0) := by
  decide +kernel

/-- Completions: a descriptor that has ended, and the last slot of an EXCHANGE's batch (DECODE: witness_decode). -/
theorem witness_Completions :
    (let w := { wk [] with started := true, ended := true }; let s := has (ring0 []) w;
      s.tripped = false ∧ s.coll 0 = none ∧ s.work 0 = some w ∧ s.canComplete w = true ∧ w.grp = false ∧ w.entry = none ∧ w.again = false ∧ s.memWf = true) ∧
    (let w := { wk [] with started := true, ended := true, again := true }; let s := has (ring0 []) w; s.work 0 = some w ∧ s.canComplete w = true) ∧
    (let w := { wk [(0, 1, 0x20), (8, 1, 5), (48, 6, 4096)] with started := true };
      let x : Coll := ⟨0, 0, 0, 5, 5, 1, 0, [0], [], true, [], [], [], [], 1, some 1, [(0, List.replicate 63 0 ++ [1])], [], [0], [], [], [], 0, 0, 0, false, false⟩;
      let s := { has (ownMem [] [(6112, blob 4 [(0, 1, 128), (2, 2, 512)])]) w with whl := ⟨[x], [], []⟩ };
      s.coll 0 = some x ∧ s.work 0 = some w ∧ w.cop = 5 ∧ w.cSlots ≠ 0 ∧ (s.slotEnt w 63).valid = true ∧ 63 ∉ x.built ∧ x.open_ = true ∧ 0 < x.total 63 ∧
        x.slotDone 63 = true ∧ s.workQueue (s.slotEnt w 63).die + (s.slotEnt w 63).n ≤ 512) := by decide +kernel

/-- The host link up in CXL with CXL.mem and CXL.cache, and what else is given. -/
def host1 (rs : List (Nat × Nat × Nat)) : State := own0 ((0, Reg.hstStatus, 1 + 1024 + 2048 + 4096) :: (0, Reg.genBoot, 5) :: (0, Reg.hstBiasBaseLo, 2 ^ 20) :: rs)

/-- BAR2 requests, by the tests. -/
theorem atBar2_of {s : State} {r : BusReq} (h : (!s.tripped && decide (0 < s.part.dies) && !s.inReset 0 && s.linkUp && s.fnOn r.fn && decide (r.bar = 2) && decide (r.len ≠ 0) &&
    decide (r.off + r.len ≤ 2 ^ s.bar2Bits (r.fn != 0))) = true) : AtBar2 s r := by
  simp only [Bool.and_eq_true, Bool.not_eq_true', decide_eq_true_eq] at h
  obtain ⟨⟨⟨⟨⟨⟨⟨a, b⟩, c⟩, d⟩, e⟩, f⟩, g⟩, i⟩ := h
  exact ⟨⟨a, b, c⟩, d, e, f, g, i⟩

/-- A request of a function or of a peer for the bytes from an offset. -/
def breq (fn bar off len : Nat) : BusReq := ⟨9, fn, bar, off, len, []⟩

/-- BusRequests: the physical function and a virtual one inside and past the HBM, a locked partition, and a peer with a region, without one, and by another BAR. -/
theorem witness_BusRequests : let last := hbmSize * 8 - 64; let s := { host1 [(0, Reg.seqPartCfg 0, 1)] with hst := { Hst.reset with cfg := [(cfgSriov, 1), (cfgRebar false, 19 * 256)] } }
    (AtBar2 s (breq 0 2 last 64) ∧ AtBar2 s (breq 1 2 0 64) ∧ AtBar2 s (breq 0 2 (last + 64) 64) ∧ s.peerEntries 9 = [] ∧ inHbm s.part.dies last 64 = true ∧ inHbm s.part.dies last 65 = false ∧
      s.busMay (breq 0 2 last 64) ∧ s.busMay (breq 1 2 0 64) ∧ s.memOut last 64 = false ∧ s.memWf = true ∧
      (halvesOf s.part.dies last 64).all (fun u => s.ownsHalf 0 0 u) = false ∧ s.inShared 0 last 64 = false) ∧
    { host1 [(0, Reg.seqPartCfg 0, 1)] with hst := { Hst.reset with tdi := [(1, 1)] } }.lockedIn 0 64 ≠ [] ∧
    (let s := (host1 [(0, Reg.hstCtrl, 2), (0, Reg.hstPeerId 15, 2 ^ 31 + 9), (0, Reg.hstPeerKey 15, 0), (0, Reg.xtRegBaseLo, 8192), (0, Reg.xtRegCount, 1)]).write 8192
        (Region.bytes ⟨65536, 64, true, true, false, true, true, 0, 0⟩);
      s.linkUp = true ∧ s.peerEntries 9 ≠ [] ∧ s.peerPasses (breq 0 2 65536 64) false = true ∧ s.peerPasses (breq 0 2 65536 64) true = true ∧
        s.peerPasses (breq 0 2 65536 65) true = false ∧ (breq 0 0 0 4).bar ≠ 2 ∧ s.memOut 65536 64 = false ∧ s.memWf = true) := by
  refine ⟨⟨atBar2_of (by decide +kernel), atBar2_of (by decide +kernel), atBar2_of (by decide +kernel), by decide +kernel, by decide +kernel, by decide +kernel, .inl (by decide +kernel), .inr (by decide +kernel), by decide +kernel⟩, by decide +kernel⟩

/-- CxlRequests: the last line of the HBM, shared and device-owned, and a line past it. -/
theorem witness_CxlRequests : DieUp (host1 []) 0 ∧ (host1 []).memOn = true ∧ (host1 []).biasReady = true ∧ inHbm 8 (hbmSize * 8 - 64) 64 = true ∧ inHbm 8 (hbmSize * 8) 64 = false ∧
    (host1 []).pageShared ((hbmSize * 8 - 64) / 4096) = false ∧ ((host1 []).write (2 ^ 20 + (hbmSize * 8 - 64) / 4096 / 8) [255]).pageShared ((hbmSize * 8 - 64) / 4096) = true ∧
    (host1 []).hst.flip = none ∧ (host1 []).memOut (hbmSize * 8 - 64) 64 = false ∧ (host1 []).memWf = true ∧ State.reset.biasReady = false := ⟨up_of (by decide), by decide +kernel⟩

/-- BiasCommands: an enable, a running command, a range up to the last page and one past it, a page asked for, and the last page of a command. -/
theorem witness_BiasCommands : (State.reset.memWf = true ∧ State.reset.rbit 0 Reg.hstCtrl 2 = false) ∧ (st [(0, Reg.hstBiasStatus, 1)]).rbit 0 Reg.hstBiasStatus 0 = true ∧
    (let s := host1 [(0, Reg.hstBiasFirst, hbmSize * 8 / 4096 - 1), (0, Reg.hstBiasCount, 1)];
      s.rbit 0 Reg.hstBiasStatus 0 = false ∧ s.rf 0 Reg.hstBiasFirst 0 27 + s.rf 0 Reg.hstBiasCount 0 27 ≤ s.hbmPages ∧ s.biasReady = true ∧ s.rf 0 Reg.hstBiasCount 0 27 ≠ 0) ∧
    (let s := host1 [(0, Reg.hstBiasFirst, hbmSize * 8 / 4096 - 1), (0, Reg.hstBiasCount, 2)]; s.hbmPages < s.rf 0 Reg.hstBiasFirst 0 27 + s.rf 0 Reg.hstBiasCount 0 27) ∧
    (let s := { host1 [] with hst := { Hst.reset with asked := [5] } }; s.linkUp = true ∧ 5 ∈ s.hst.asked ∧ s.hst.flip = none) ∧
    (let s := { host1 [] with hst := { Hst.reset with flip := some ⟨true, 5, 0, 0⟩ } }; s.linkUp = true ∧ s.hst.flip = some ⟨true, 5, 0, 0⟩ ∧ s.biasReady = true) := by
  decide +kernel

/-- HostLink: training, and configuration requests before the guard is ready and after, to a read-only dword and to a written one. -/
theorem witness_HostLink : DieUp State.reset 0 ∧ State.reset.rst.host = false ∧ ({ State.reset with hst := { Hst.reset with training := true } } : State).hst.training = true ∧
    (16 : Nat) ∈ [1, 2, 4, 8, 16] ∧ (let s := st [(0, Reg.hstStatus, 1)]; s.linkUp = true ∧ s.fnOn 0 = true ∧ s.stage_ < 2) ∧
    (let s := host1 []; s.linkUp = true ∧ 2 ≤ s.stage_ ∧ s.stage_ ≠ 0xF ∧ s.cfgTakes 0 0 1 = false ∧ s.cfgTakes 0 0x10 1 = true ∧ s.hostLost = false) := ⟨up_of (by decide), by decide +kernel⟩

/-- RingSwitches: the last ring off and on, and the last event queue off. -/
theorem witness_RingSwitches : DieUp State.reset (ringDie 255) ∧ State.reset.ringOn 255 = false ∧ (st [(7, Reg.ringCfg 31, 1)]).ringOn 255 = true ∧
    State.reset.rbit 0 (Reg.evqCfg 15) 0 = false := ⟨up_of (by decide), by decide +kernel⟩

/-! ## Witnesses: resets, power and faults -/

/-- ColdResets: PWRGOOD on and off, and a reset of the package that waits. -/
theorem witness_ColdResets : State.reset.rst.off = false ∧ ({ State.reset with rst := ⟨[], [], false, true⟩ } : State).rst.off = true ∧ State.reset.grd.resetReq = none ∧
    (grd1 { Grd.reset with resetReq := some (0, 0) }).grd.resetReq = some (0, 0) ∧ (grd1 Grd.reset).tripped = false := by decide +kernel

/-- WarmResets: resets of the package and of the last die by the guard, memory kept, and an end of a reset with a setting to return. -/
theorem witness_WarmResets : DieUp State.reset 7 ∧ State.reset.part.torusPorts ≤ 7 ∧ (∀ d, d < State.reset.part.dies → State.reset.rbit d Reg.hbmCtrl 0 = State.reset.rbit d Reg.hbmStatus 2) ∧
    (grd1 { Grd.reset with resetReq := some (1, 0) }).grd.resetReq = some (1, 0) ∧ (grd1 { Grd.reset with resetReq := some (2, 7) }).grd.resetReq = some (2, 7) ∧
    (let s := { State.reset with rst := ⟨[(0, true), (7, true)], [(0, 1), (7, 32)], false, false⟩, grd := { Grd.reset with rwg := [(regKey 0 Reg.thermLimits, 1)] } };
      s.rst.off = false ∧ (s.rst.dies.map Prod.fst).Nodup ∧ (s.grd.rwg.map Prod.fst).Nodup ∧
        ∀ x ∈ s.grd.rwg, x.1 % 2 ^ 24 ≠ Reg.genRstCause ∧ x.1 % 2 ^ 24 ≠ Reg.genWarmCount ∧ x.1 % 2 ^ 24 ≠ Reg.pwrCapEff) :=
  ⟨up_of (by decide), by decide +kernel⟩

/-- PartialResets: guards out of reset, and the last virtual function. -/
theorem witness_PartialResets : DieUp State.reset 0 ∧ (7 : Nat) < State.reset.part.dies ∧ State.reset.inReset 7 = false ∧ State.reset.inReset 0 = false ∧
    State.reset.mbSeq = [] ∧ 16 ≤ State.reset.part.parts := ⟨up_of (by decide), by decide +kernel⟩

/-- PowerControl: a die with and without windows since its last reading, brakes on and held, a share, and the cap met and exceeded. -/
theorem witness_PowerControl : DieUp State.reset 7 ∧ (State.reset.cal 7).n = 0 ∧ (st [(7, Reg.pwrStatus, 0)]).onSensor 7 = false ∧
    (let s := { State.reset with pwr := { Pwr.reset with cals := [{ Cal.idle 7 with n := 1 }] } }; (s.cal 7).n ≠ 0) ∧
    (st [(0, Reg.clkStatus, 32)]).holding = true ∧ State.reset.holding = false ∧ (st [(7, Reg.pwrCtrl, 0)]).rbit 7 Reg.pwrCtrl 0 = false ∧
    (st [(7, Reg.pwrCtrl, 1)]).rbit 7 Reg.pwrCtrl 0 = true ∧ 7 ∈ State.reset.powerDies ∧ ((st [(7, Reg.pwrCtrl, 0)]).dieShare 7).isSome = true ∧
    (let s := st ((0, Reg.pwrCapEff, 100) :: ((List.range 8).flatMap fun d => (List.range 4).map fun e => (d, Reg.pwrBrake e, 56)));
      1000 * s.rf 0 Reg.pwrCapEff 0 16 < 100001 ∧ (s.powerDies.all fun d => (List.range 4).all fun e => s.rf d (Reg.pwrBrake e) 0 6 == 56) = true ∧
        ¬ 1000 * s.rf 0 Reg.pwrCapEff 0 16 < 100000) := ⟨up_of (by decide), by decide +kernel⟩

/-- Clocks at a frequency index, in a mode, with a range and a change. -/
def clk1 (i mode : Nat) (p : Pwr) : State :=
  { st [(0, Reg.clkStatus, i), (0, Reg.clkCtrl, mode), (0, Reg.clkLimit, 16 * 13), (0, Reg.clkOpp 8, 1000 + 65536 * 800), (0, Reg.clkOpp 9, 1000 + 65536 * 800)] with pwr := p }

/-- FrequencyChanges: a step down and one up at the ends of their conditions, switches down and up, cadence mode on, off and refused, and regulators ready. -/
theorem witness_FrequencyChanges : DieUp (clk1 8 0 Pwr.reset) 0 ∧ (clk1 8 0 Pwr.reset).pwr.freqTo = none ∧ (clk1 8 0 Pwr.reset).freqIdx = 8 ∧
    (let s := clk1 8 0 { Pwr.reset with freqTo := some 7 }; s.pwr.freqTo = some 7 ∧ s.pwr.switched = false ∧ 7 ≤ s.freqIdx) ∧
    (let s := clk1 8 0 { Pwr.reset with freqTo := some 9, reached := List.range 8 }; s.pwr.freqTo = some 9 ∧ s.powerDies.all (fun d => s.pwr.reached.contains d) = true ∧ s.freqIdx < 9) ∧
    (let s := clk1 8 0 { Pwr.reset with brakes := (9, 1, 1) };
      s.rbit 0 Reg.clkCtrl 0 = false ∧ s.holding = false ∧ s.pwr.brakes.2.1 ≠ 0 ∧ 8 * s.pwr.brakes.2.1 < s.pwr.brakes.1 ∧ s.rf 0 Reg.clkLimit 0 4 < s.freqIdx) ∧
    (let s := clk1 8 0 { Pwr.reset with brakes := (8, 1, 0) }; s.pwr.brakes.1 ≤ 8 * s.pwr.brakes.2.1 ∧ s.pwr.brakes.2.2 = 0 ∧ s.freqIdx < s.rf 0 Reg.clkLimit 4 4) ∧
    (clk1 7 1 Pwr.reset).cadence = true ∧ (clk1 7 0 Pwr.reset).cadence = false ∧ (clk1 7 1 Pwr.reset).rbit 0 Reg.clkCtrl 0 = true ∧
    (let s := clk1 8 0 Pwr.reset; s.rf 0 Reg.clkLimit 0 4 ≤ 7 ∧ 7 ≤ s.rf 0 Reg.clkLimit 4 4 ∧ s.freqIdx ≠ 7) ∧ 7 < (st [(0, Reg.clkLimit, 8 + 16 * 13)]).rf 0 Reg.clkLimit 0 4 ∧
    (let s := clk1 8 0 { Pwr.reset with freqTo := some 9, switched := true, reached := List.range 7 };
      s.pwr.freqTo = some 9 ∧ s.pwr.switched = true ∧ s.pwr.freqWant = none ∧ (∀ e ∈ s.powerDies, e ≠ 7 → e ∈ s.pwr.reached)) :=
  ⟨up_of (by decide), by decide +kernel⟩

/-- FrequencyChanges: the estimate of a package whose only die in power draws nothing lets a step up. -/
theorem witness_FrequencyChanges_up : let s := { clk1 8 0 { Pwr.reset with brakes := (8, 1, 0) } with rst := ⟨(List.range' 1 7).map fun d => (d, false), [], false, false⟩ }
    s.powerDies = [0] ∧ s.estAt s.freqIdx (s.freqIdx + 1) ≤ 950 * (s.rf 0 Reg.pwrCapEff 0 16 : Rat) := by decide +kernel

/-- RegulatorWarnings: a warning that is new, one that stands, and a hold with no warning left. -/
theorem witness_RegulatorWarnings : DieUp State.reset 7 ∧ 15 ∉ State.reset.pwr.warn ∧ State.reset.pwr.freqTo = none ∧ State.reset.holding = false ∧
    15 ∈ ({ State.reset with pwr := { Pwr.reset with warn := [14, 15] } } : State).pwr.warn ∧ ((st [(0, Reg.clkStatus, 32)]).holding = true ∧ (st [(0, Reg.clkStatus, 32)]).pwr.warn = []) :=
  ⟨up_of (by decide), by decide +kernel⟩

/-- Heat: sensors at the trip temperature and below it, a level to raise and to lower, and the fan's limit. -/
theorem witness_Heat : let s := { st [(0, Reg.thermLimits, 95 + 256 * 110)] with pwr := { Pwr.reset with hot := [(0, 1)], level := [(0, 1)], cooling := [0] } }
    DieUp s 0 ∧ (∃ k x, ([880, 8] : List Int)[k]? = some x ∧ (8 * (s.rf 0 Reg.thermLimits 8 8 : Nat) : Int) ≤ x ∧ bit (kvGet 0 s.pwr.hot 0) k = true) ∧
      ¬ (8 * (s.rf 0 Reg.thermLimits 8 8 : Nat) : Int) ≤ 879 ∧ (st [(0, Reg.pwrStatus, 4)]).rbit 0 Reg.pwrStatus 2 = true ∧ s.rbit 0 Reg.pwrStatus 2 = false ∧
      0 ∈ s.pwr.cooling ∧ kvGet 0 s.pwr.level 0 ≠ 0 ∧ s.rf 0 Reg.fanFailRpm 0 16 = 500 :=
  ⟨up_of (by decide), ⟨0, 880, by decide +kernel⟩, by decide +kernel⟩

/-- ClockDomains: a domain that the die has and one that it has not, one that may stop, and one that a hold keeps. -/
theorem witness_ClockDomains : let s := st [(0, Reg.clkRunLo, 2 ^ 12 + 1), (0, Reg.clkIdle, 1)]
    DieUp s 0 ∧ s.domainThere 0 12 = true ∧ s.domainThere 0 44 = false ∧
      ¬ (12 = 0 ∨ s.domainOn 0 12 = false ∨ s.rf 0 Reg.clkIdle 0 16 = 0 ∨ bit (s.regPair 0 Reg.clkHoldLo) 12 = true ∨ s.domainBusy 0 12 = true ∨
        (5 ≤ 12 ∧ 12 ≤ 7 ∧ ((List.range 44).any fun x => s.domainOn 0 x && fastDomain x && x != 12 && !(5 ≤ x && x ≤ 7 : Bool)) = true)) ∧
      bit ((st [(0, Reg.clkHoldLo, 2 ^ 12)]).regPair 0 Reg.clkHoldLo) 12 = true := ⟨up_of (by decide), by decide +kernel⟩

/-- MemoryFaults: the last line of the HBM and the first of a tile store, the scrubber at its last line, a search, and a row with one spare, with two and with none. -/
theorem witness_MemoryFaults : let last := hbmSize * 8 / 64 - 1
    DieUp State.reset (State.reset.memDie (last * 64)) ∧ State.reset.poisoned last = false ∧ inHbm 8 (last * 64) 64 = true ∧ inTs 8 (tsBase / 64 * 64) 64 = true ∧
      ({ State.reset with poison := [(last, true)] } : State).poisoned last = true ∧ State.reset.poison = [] ∧
      (let s := { st [(7, Reg.rasCtrl, 1 + 256 * 8)] with ras := { Ras.reset with scrub := [(14, scrubLines false - 1)] } };
        s.rbit 7 Reg.rasCtrl 0 = true ∧ s.dieOut 7 = false ∧ scrubLines false ≤ kvGet 0 s.ras.scrub 14 + 1 ∧ (s.unitOut 7 0x0E || s.rbit 7 Reg.hbmStatus 1) = false ∧
          kvGet 0 s.ras.scrub 14 < scrubLines false) ∧ (st [(7, Reg.rasUnit 14, 1)]).unitOut 7 0x0E = true ∧
      (let s := { State.reset with ras := { Ras.reset with searches := [(7, last, true)] } }; s.ras.searches.find? (fun y => y.1 == 7) = some (7, last, true)) ∧
      (∀ left, left ≤ 2 → let s := { st [(7, Reg.rasCtrl, 256 * 8), (7, Reg.rasTsSpares 3, left * 2 ^ 28)] with ras := { Ras.reset with rowErrs := [(rowKey 7 31 2047, 8)] } };
        s.dieOut 7 = false ∧ s.fencedRow 7 (65536 * 2047 + 512 * 31) 1 = false ∧ s.rf 7 (Reg.rasTsSpares (31 / 8)) (4 * (31 % 8)) 4 = left ∧ s.rowNeeds 7 31 2047 = true ∧
          (List.range 64).find? (fun i => !s.rbit 7 (Reg.rasTsFenced i) 31) = some 0) ∧
      (st [(7, Reg.rasCtrl, 256 * 8)]).rowNeeds 7 31 2047 = false := ⟨up_of (by decide +kernel), by decide +kernel⟩

/-- DieMesh: no view and one that waits, links up, down, retraining and fenced, and the failures before the third. -/
theorem witness_DieMesh : State.reset.ras.views = [] ∧
    (let s := { State.reset with ras := { Ras.reset with views := [([0, 1], [1])], owe := [0] } }; s.ras.views = [([0, 1], [1])] ∧ s.ras.owe ≠ []) ∧
    (let s := { State.reset with ras := { Ras.reset with views := [([0, 1], [1])] } }; s.ras.owe = [] ∧ ([0, 1] : List Nat).Nodup) ∧ DieUp State.reset 0 ∧
    (∃ x, State.reset.farEnd 0 0 = some x) ∧ (st [(0, Reg.d2dStatus, 1)]).rbit 0 Reg.d2dStatus 0 = true ∧ (st [(0, Reg.d2dStatus, 1)]).linkFenced 0 0 = false ∧
    (st [(0, Reg.rasUnit 9, 1)]).linkFenced 0 0 = true ∧ (st [(0, Reg.d2dLink 0, 32)]).rbit 0 (Reg.d2dLink 0) 5 = true ∧ State.reset.rbit 0 (Reg.d2dLink 0) 5 = false ∧
    (let s := { State.reset with ras := { Ras.reset with fails := [(0, 2)] } }; 3 ≤ kvGet 0 s.ras.fails (4 * 0 + 0) + 1) ∧ kvGet 0 State.reset.ras.fails 0 + 1 < 3 :=
  ⟨by decide +kernel, by decide +kernel, by decide +kernel, up_of (by decide), ⟨_, rfl⟩, by decide +kernel⟩

/-- TorusChanges: a link that goes down and one that comes up, change frames new and seen, and this package declared failed. -/
theorem witness_TorusChanges : (let s := st [(0, Reg.genDiscStatus, 2), (5, Reg.ethStatus, 1)];
      DieUp s 5 ∧ 5 < s.part.torusPorts ∧ s.discValid = true ∧ (s.selfXyz, s.torus.next) ∉ s.torus.seen ∧ (s.selfXyz, 5) ∉ s.torus.down ∧ DieUp s 0) ∧
    (let s := { st [(0, Reg.genDiscStatus, 2), (5, Reg.ethCtrl, 1)] with torus := ⟨[(0, 5)], [], [(3, 4)], 65535⟩ };
      s.discValid = true ∧ (s.selfXyz, s.torus.next) ∉ s.torus.seen ∧ (s.selfXyz, 5) ∈ s.torus.down ∧ s.portUp 5 = false ∧ s.portMayUp 5 = true ∧
        s.rbit 0 Reg.rasStatus 3 = false ∧ s.dieOut 0 = false ∧ (3, 4) ∈ s.torus.seen ∧ (3, 5) ∉ s.torus.seen) ∧
    (let s := st [(0, Reg.genSerialLo, 5), (0, Reg.genSerialHi, 0), (0, Reg.rasDeclareLo, 5)]; 2 ^ 32 * (0 : W32).toNat + s.regN 0 Reg.rasDeclareLo = s.serial) :=
  ⟨⟨up_of (by decide), by decide +kernel, by decide +kernel, by decide +kernel, by decide +kernel, up_of (by decide)⟩, by decide +kernel⟩

/-- Fencing: units in each state, the last unit of each kind, a cause that fits and one that does not, and a unit whose test has passed. -/
theorem witness_Fencing : DieUp State.reset 7 ∧ 8 ∈ unitCauses 0x0F ∧ 9 ∉ unitCauses 0x0F ∧ State.reset.unitThere 7 0x0F = true ∧ State.reset.unitState 7 0x0F = 0 ∧
    (∀ k, k ≤ 3 → (st [(7, Reg.rasUnit 0x0C, k)]).unitState 7 0x0C = k ∧ (st [(7, Reg.rasUnit 9, k)]).unitState 7 9 = k ∧ (st [(7, Reg.rasUnit 8, k)]).unitState 7 8 = k) ∧
    State.reset.unitThere 7 9 = true ∧ (∃ x, State.reset.farEnd 7 0 = some x) ∧ State.reset.dieOut 7 = false ∧ (st [(7, Reg.rasCtrl, 2)]).rbit 7 Reg.rasCtrl 1 = true ∧
    State.reset.rbit 7 Reg.rasCtrl 1 = false ∧ (7, 8) ∉ State.reset.ras.passed ∧ (7, 8) ∈ ({ State.reset with ras := { Ras.reset with passed := [(7, 8)] } } : State).ras.passed ∧
    (let w := { wk [(0, 1, 0x10)] with on := 7, engine := some 3, started := true }; ∃ w' ∈ (has State.reset w).seq.works, w'.on = 7 ∧ w'.engine = some 3 ∧ w'.ended = false) ∧
    (let w : RegWrite := ⟨.pf, 7, engineCtrl 3, 1, 0xF⟩; (1 : Nat) ∈ unitCauses 3 ∧ State.reset.unitOut 7 3 = false ∧ State.reset.contends w = true ∧
      regTarget w = (7, engineCtrl 3) ∧ State.reset.rbit 7 (engineCtrl 3) 0 = false) :=
  ⟨up_of (by decide), by decide +kernel, by decide +kernel, by decide +kernel, by decide +kernel, by decide +kernel, by decide +kernel, ⟨_, rfl⟩, by decide +kernel, by decide +kernel, by decide +kernel,
    by decide +kernel, by decide +kernel, ⟨_, List.mem_cons_self .., by decide +kernel⟩, by decide +kernel⟩

end Sys2Proof.Tests
end

/-! PROOF. Offsets that no table names (R611): whatever acts on a register, be it a counter, a word that is only written or a
mailbox's bell, stands in the register tables, so an unnamed offset is none of them. -/

section
namespace Sys2Proof.Machine

/-- An offset that no table names is no register of the tables. -/
theorem ne_of_regDesc_eq_none {off a : Nat} (h : regDesc off = none) (ha : (regDesc a).isSome) : off ≠ a := by
  rintro rfl
  simp [h] at ha

theorem isCtrLo_eq_false {off : Nat} (h : regDesc off = none) : isCtrLo off = false := by
  simp [isCtrLo, h]

/-! ## Registers that act on a write -/

theorem clearRows_named : ∀ r ∈ clearRows, (regDesc r.1).isSome := by decide

/-- Only a write to a clearing register clears counters. -/
theorem clearedBy_eq_nil {off : Nat} (h : regDesc off = none) (v : Nat) : clearedBy off v = [] := by
  have hrows : (clearRows.find? fun r => r.1 == off) = none :=
    List.find?_eq_none.2 fun r hr => by
      simpa using (ne_of_regDesc_eq_none h (clearRows_named r hr)).symm
  have hsch : off ≠ Reg.seqSchCntClr := ne_of_regDesc_eq_none h (by decide)
  have hweir : off ≠ Reg.weirCntClr := ne_of_regDesc_eq_none h (by decide)
  simp [clearedBy, hrows, hsch, hweir]

/-- The registers whose write is a command of its own (`State.wroteOnly`), but for the clearing registers of counters. -/
def commandRegs : List Nat :=
  [Reg.seqActPeakClr, Reg.rasLogClr, Reg.grdLostClr, Reg.rasFence, Reg.rasReturn, Reg.rasDeclareHi, Reg.d2dCmd, Reg.ethCmd, Reg.hstBiasCmd]

theorem commandRegs_named : ∀ a ∈ commandRegs, (regDesc a).isSome := by decide

theorem State.wroteOnly_eq_none (s : State) (d v : Nat) {off : Nat} (h : regDesc off = none) : s.wroteOnly d off v = none := by
  have hne : ∀ a ∈ commandRegs, off ≠ a := fun a ha => ne_of_regDesc_eq_none h (commandRegs_named a ha)
  simp only [commandRegs, List.forall_mem_cons] at hne
  simp [State.wroteOnly, clearedBy_eq_nil h, hne]

theorem rowAt_eq_some {off base stride n i : Nat} (h : rowAt off base stride n = some i) : i < n ∧ off = base + stride * i := by
  simp only [rowAt, Option.ite_none_right_eq_some, Option.some.injEq, Bool.and_eq_true, decide_eq_true_eq] at h
  obtain ⟨⟨⟨hbase, hmod⟩, hlt⟩, rfl⟩ := h
  have hdiv := Nat.mul_div_cancel' (Nat.dvd_of_mod_eq_zero hmod)
  exact ⟨hlt, by omega⟩

theorem mbBell_named : ∀ m < 64, (regDesc (Reg.mbBell m)).isSome := by decide

theorem rowAt_mbBell_eq_none {off : Nat} (h : regDesc off = none) : rowAt off (Reg.mbBell 0) 0x10 64 = none := by
  refine Option.eq_none_iff_forall_ne_some.2 fun m hm => ?_
  obtain ⟨hlt, hoff⟩ := rowAt_eq_some hm
  exact ne_of_regDesc_eq_none h (mbBell_named m hlt) hoff

/-! ## The host's structures in die 0's window -/

theorem State.not_host_of_hostRead_eq_none {s : State} {off : Nat} (h : s.hostRead off = none) :
    rowAt off 0x188000 4 1344 = none ∧ ¬ ((0x181000 ≤ off && off < 0x182000) || (0x18E000 ≤ off && off < 0x190000)) = true := by
  unfold State.hostRead at h
  split at h
  · cases h
  · cases h
  · next hmsix _ =>
    exact ⟨Option.eq_none_iff_forall_ne_some.2 hmsix, fun hcxl => by
      rw [if_pos hcxl] at h
      cases h⟩

/-- A write reaches the host's structures only where a read does. -/
theorem State.hostWrite_eq_none {s : State} {off : Nat} (v : Nat) (h : s.hostRead off = none) : s.hostWrite off v = none := by
  obtain ⟨hmsix, hcxl⟩ := State.not_host_of_hostRead_eq_none h
  simp only [State.hostWrite, hmsix]
  exact if_neg hcxl

/-! ## One read and one write -/

section
variable {s : State} {d off : Nat}

theorem State.regRead_eq_zero (h : regDesc off = none) (hh : d = 0 → s.hostRead off = none) : s.regRead d off = 0 := by
  have hhost : (if d = 0 then s.hostRead off else none) = none := by simpa using hh
  simp [State.regRead, h, hhost]

theorem State.sysWrite_eq_self (m : Master) (v : Nat) (h : regDesc off = none) (hh : d = 0 → s.hostRead off = none) :
    s.sysWrite m d off v = s := by
  have hhost : (if d = 0 then s.hostWrite off v else none) = none := by
    simpa using fun hd => State.hostWrite_eq_none v (hh hd)
  simp [State.sysWrite, hhost, s.wroteOnly_eq_none d v h, rowAt_mbBell_eq_none h, h]

/-- A write of any master but a virtual function is discarded, as `State.sysWrite` leaves the state. -/
theorem State.regWrite1_eq_self {w : RegWrite} (hm : ∀ n, w.master ≠ .vf n)
    (hw : s.sysWrite w.master w.die (w.off / 4 * 4) w.value.toNat = s) : s.regWrite1 w = s := by
  unfold State.regWrite1
  split
  · rfl
  · split
    · next n hn => exact absurd hn (hm n)
    · split
      · exact hw
      · rfl

end

end Sys2Proof.Machine

section
open Sys2Proof Sys2Proof.Machine

/-- Settles O7: an unnamed offset is no counter, no word that acts on a write and no bell, so a read finds zero and a write finds
nothing to reach. -/
theorem unnamedOffsets : Obligations.UnnamedOffsets := by
  intro s d off hlive _ halign hdesc hhost
  have hword : off / 4 * 4 = off := by omega
  constructor
  · calc exec (.counterLoRead d off false) s = execCounterLoRead d off false s := rfl
      _ = .next (s.emit (.readData 0)) := by
        simp [execCounterLoRead, live_eq hlive, hword, isCtrLo_eq_false hdesc, State.regRead_eq_zero hdesc hhost]
  · rintro w rfl rfl hmaster
    have hsys : s.sysWrite w.master w.die (w.off / 4 * 4) w.value.toNat = s := by
      rw [hword]
      exact State.sysWrite_eq_self _ _ hdesc hhost
    calc exec (.registerWrite w none) s = live s (s.regWrite1 w) := rfl
      _ = .next s := by rw [live_eq hlive, State.regWrite1_eq_self hmaster hsys]

end
end

/-! PROOF. What holds of every command alike: it completes, it keeps the invariant, the part and the queue, and after a thermal trip it
changes nothing unless it is a reset, a thermal read, an event of the fan or a guard restart. -/

section
namespace Sys2Proof.Machine

/-- Whatever a command does keeps the queue, the part and the invariant: one law of `Laws/Keeps*.lean` for each command. -/
theorem exec_keeps (c : Instr) (s : State) : KeepsRes s (exec c s) :=
  have h := Keeps.rfl' s
  match c with
  | .doorbellPi _ _ _ => execDoorbellPi_keeps _ _ _ _ h
  | .doorbellCqHead _ _ _ => execDoorbellCqHead_keeps _ _ _ _ h
  | .doorbellEvqHead _ _ _ => execDoorbellEvqHead_keeps _ _ _ _ h
  | .descriptorFetch _ _ => execDescriptorFetch_keeps _ _ _ h
  | .descriptorAccept _ => execDescriptorAccept_keeps _ _ h
  | .descriptorComplete _ => execDescriptorComplete_keeps _ _ h
  | .msixUnmask _ _ => execMsixUnmask_keeps _ _ _ h
  | .nop _ => execNop_keeps _ _ h
  | .copy _ => execCopy_keeps _ _ h
  | .copyInline _ => execCopyInline_keeps _ _ h
  | .layerMark _ => execLayerMark_keeps _ _ h
  | .place _ => execPlace_keeps _ _ h
  | .prefetch _ => execPrefetch_keeps _ _ h
  | .prefetchEntryIssue _ => execPrefetchEntryIssue_keeps _ _ h
  | .matrix _ => execMatrix_keeps _ _ h
  | .stationaryLoad _ _ _ => execStationaryLoad_keeps _ _ _ _ h
  | .passStart _ _ _ _ _ => execPassStart_keeps _ _ _ _ _ _ h
  | .passSkip _ _ => execPassSkip_keeps _ _ _ h
  | .drainRowTake _ => execDrainRowTake_keeps _ _ h
  | .convert _ => execConvert_keeps _ _ h
  | .histInit _ => execHistInit_keeps _ _ h
  | .histClose _ => execHistClose_keeps _ _ h
  | .histRearm _ => execHistRearm_keeps _ _ h
  | .histClear _ => execHistClear_keeps _ _ h
  | .histFold _ => execHistFold_keeps _ _ h
  | .vector _ => execVector_keeps _ _ h
  | .veNop _ _ f => execVeNop_keeps _ _ f _ h
  | .ld _ _ _ => execLd_keeps _ _ _ _ h
  | .st _ _ _ => execSt_keeps _ _ _ _ h
  | .movi _ _ _ => execMovi_keeps _ _ _ _ h
  | .add _ _ _ => execAdd_keeps _ _ _ _ h
  | .sub _ _ _ => execSub_keeps _ _ _ _ h
  | .mul _ _ _ => execMul_keeps _ _ _ _ h
  | .fma _ _ _ => execFma_keeps _ _ _ _ h
  | .fnma _ _ _ => execFnma_keeps _ _ _ _ h
  | .max _ _ _ => execMax_keeps _ _ _ _ h
  | .min _ _ _ => execMin_keeps _ _ _ _ h
  | .maxnum _ _ _ => execMaxnum_keeps _ _ _ _ h
  | .minnum _ _ _ => execMinnum_keeps _ _ _ _ h
  | .abs _ _ _ => execAbs_keeps _ _ _ _ h
  | .neg _ _ _ => execNeg_keeps _ _ _ _ h
  | .sellt _ _ _ => execSellt_keeps _ _ _ _ h
  | .exp _ _ _ => execExp_keeps _ _ _ _ h
  | .rcp _ _ _ => execRcp_keeps _ _ _ _ h
  | .rsqrt _ _ _ => execRsqrt_keeps _ _ _ _ h
  | .ssum _ _ _ => execSsum_keeps _ _ _ _ h
  | .smaxa _ _ _ => execSmaxa_keeps _ _ _ _ h
  | .update _ => execUpdate_keeps _ _ h
  | .stageReplay _ => execStageReplay_keeps _ _ h
  | .gate _ => execGate_keeps _ _ h
  | .batchBuild _ _ => execBatchBuild_keeps _ _ _ h
  | .batchReplay _ _ => execBatchReplay_keeps _ _ _ h
  | .routerCombine _ _ _ _ _ _ _ _ _ _ => execRouterCombine_keeps _ _ _ _ _ _ _ _ _ _ _ h
  | .allreduce _ => execAllreduce_keeps _ _ h
  | .reduceScatter _ => execReduceScatter_keeps _ _ h
  | .allgather _ => execAllgather_keeps _ _ h
  | .shift _ => execShift_keeps _ _ h
  | .permute _ => execPermute_keeps _ _ h
  | .exchange _ => execExchange_keeps _ _ h
  | .ret _ => execRet_keeps _ _ h
  | .groupSet _ => execGroupSet_keeps _ _ h
  | .connCreate _ => execConnCreate_keeps _ _ h
  | .connModify _ => execConnModify_keeps _ _ h
  | .connDestroy _ => execConnDestroy_keeps _ _ h
  | .connQuery _ => execConnQuery_keeps _ _ h
  | .register _ => execRegister_keeps _ _ h
  | .invalidate _ => execInvalidate_keeps _ _ h
  | .write _ => execWrite_keeps _ _ h
  | .writeInline _ => execWriteInline_keeps _ _ h
  | .send _ => execSend_keeps _ _ h
  | .read _ => execRead_keeps _ _ h
  | .postBuf _ => execPostBuf_keeps _ _ h
  | .flashRead _ => execFlashRead_keeps _ _ h
  | .flashWrite _ => execFlashWrite_keeps _ _ h
  | .flashZero _ => execFlashZero_keeps _ _ h
  | .flashTrim _ => execFlashTrim_keeps _ _ h
  | .flashFlush _ => execFlashFlush_keeps _ _ h
  | .flashPieceComplete _ _ _ => execFlashPieceComplete_keeps _ _ _ _ h
  | .flashPieceTimeout _ _ => execFlashPieceTimeout_keeps _ _ _ h
  | .flashAbortTimeout _ => execFlashAbortTimeout_keeps _ _ h
  | .decode _ => execDecode_keeps _ _ h
  | .twin _ => execTwin_keeps _ _ h
  | .revert _ => execRevert_keeps _ _ h
  | .commit _ => execCommit_keeps _ _ h
  | .domainSet _ => execDomainSet_keeps _ _ h
  | .holdSet _ => execHoldSet_keeps _ _ h
  | .manifest _ _ => execManifest_keeps _ _ _ h
  | .manifestScan => execManifestScan_keeps _ h
  | .mbQuery _ _ _ => execMbQuery_keeps _ _ _ _ h
  | .mbPause _ _ _ => execMbPause_keeps _ _ _ _ h
  | .mbResume _ _ _ => execMbResume_keeps _ _ _ _ h
  | .mbReset _ _ _ => execMbReset_keeps _ _ _ _ h
  | .mbEcho _ _ _ => execMbEcho_keeps _ _ _ _ h
  | .mbGuard _ _ _ => execMbGuard_keeps _ _ _ _ h
  | .guardQuery _ => execGuardQuery_keeps _ _ h
  | .setClkLimit _ => execSetClkLimit_keeps _ _ h
  | .setCapCeil _ => execSetCapCeil_keeps _ _ h
  | .setCapSb _ => execSetCapSb_keeps _ _ h
  | .setTherm _ => execSetTherm_keeps _ _ h
  | .setDisc _ => execSetDisc_keeps _ _ h
  | .startDisc _ => execStartDisc_keeps _ _ h
  | .guardReset _ => execGuardReset_keeps _ _ h
  | .guardResetDelay => execGuardResetDelay_keeps _ h
  | .readLog _ => execReadLog_keeps _ _ h
  | .fwBegin _ => execFwBegin_keeps _ _ h
  | .fwWrite _ => execFwWrite_keeps _ _ h
  | .fwCommit _ => execFwCommit_keeps _ _ h
  | .debugNonce _ => execDebugNonce_keeps _ _ h
  | .debugUnlock _ => execDebugUnlock_keeps _ _ h
  | .svnAdvance _ => execSvnAdvance_keeps _ _ h
  | .getVersion _ => execGetVersion_keeps _ _ h
  | .getCapabilities _ => execGetCapabilities_keeps _ _ h
  | .negotiateAlgorithms _ => execNegotiateAlgorithms_keeps _ _ h
  | .getDigests _ => execGetDigests_keeps _ _ h
  | .getCertificate _ => execGetCertificate_keeps _ _ h
  | .challenge _ => execChallenge_keeps _ _ h
  | .getMeasurements _ => execGetMeasurements_keeps _ _ h
  | .keyExchange _ => execKeyExchange_keeps _ _ h
  | .finish _ => execFinish_keeps _ _ h
  | .keyUpdate _ => execKeyUpdate_keeps _ _ h
  | .heartbeat _ => execHeartbeat_keeps _ _ h
  | .endSession _ => execEndSession_keeps _ _ h
  | .chunkSend _ => execChunkSend_keeps _ _ h
  | .chunkGet _ => execChunkGet_keeps _ _ h
  | .vendorDefinedRequest _ => execVendorDefinedRequest_keeps _ _ h
  | .getLog _ => execGetLog_keeps _ _ h
  | .xsak _ _ _ _ _ _ _ => execXsak_keeps _ _ _ _ _ _ _ _ h
  | .xsaSet _ _ _ => execXsaSet_keeps _ _ _ _ h
  | .lockInterface _ _ => execLockInterface_keeps _ _ _ h
  | .ideKm _ _ _ => execIdeKm_keeps _ _ _ _ h
  | .measureObject _ => execMeasureObject_keeps _ _ h
  | .frameReceive _ _ => execFrameReceive_keeps _ _ _ h
  | .frameTransmit _ => execFrameTransmit_keeps _ _ h
  | .pauseFrameReceive _ _ => execPauseFrameReceive_keeps _ _ _ h
  | .pauseTimerExpire _ _ => execPauseTimerExpire_keeps _ _ _ h
  | .poolHighCross _ _ => execPoolHighCross_keeps _ _ _ h
  | .poolLowCross _ _ => execPoolLowCross_keeps _ _ _ h
  | .pauseRepeat _ _ => execPauseRepeat_keeps _ _ _ h
  | .ximelCapability _ _ _ => execXimelCapability_keeps _ _ _ _ h
  | .ximelDataReceive _ _ _ _ => execXimelDataReceive_keeps _ _ _ _ _ h
  | .ximelAckTimer _ => execXimelAckTimer_keeps _ _ h
  | .ximelNakReceive _ _ => execXimelNakReceive_keeps _ _ _ h
  | .ximelNakResend _ => execXimelNakResend_keeps _ _ h
  | .ximelReplayTimeout _ => execXimelReplayTimeout_keeps _ _ h
  | .laneFail _ _ => execLaneFail_keeps _ _ _ h
  | .narrowRequestRepeat _ => execNarrowRequestRepeat_keeps _ _ h
  | .narrowRequest _ _ _ => execNarrowRequest_keeps _ _ _ _ h
  | .narrowAck _ _ _ => execNarrowAck_keeps _ _ _ _ h
  | .narrowAckTimeout _ => execNarrowAckTimeout_keeps _ _ h
  | .narrowAlign _ _ => execNarrowAlign_keeps _ _ _ h
  | .narrowAlignFail _ => execNarrowAlignFail_keeps _ _ h
  | .widen _ => execWiden_keeps _ _ h
  | .widenTrainEnd _ _ => execWidenTrainEnd_keeps _ _ _ h
  | .widenRequest _ => execWidenRequest_keeps _ _ h
  | .widenAck _ => execWidenAck_keeps _ _ h
  | .retrain _ => execRetrain_keeps _ _ h
  | .retrainDeferEnd _ => execRetrainDeferEnd_keeps _ _ h
  | .portLinkUp _ => execPortLinkUp_keeps _ _ h
  | .portHoldoutTimeout _ => execPortHoldoutTimeout_keeps _ _ h
  | .sendPacket _ _ => execSendPacket_keeps _ _ _ h
  | .writePacket _ _ => execWritePacket_keeps _ _ _ h
  | .readReqPacket _ _ => execReadReqPacket_keeps _ _ _ h
  | .readRespPacket _ _ => execReadRespPacket_keeps _ _ _ h
  | .ackPacket _ _ => execAckPacket_keeps _ _ _ h
  | .nakPacket _ _ => execNakPacket_keeps _ _ _ h
  | .xtAckTimer _ _ => execXtAckTimer_keeps _ _ _ h
  | .xtNakResend _ _ => execXtNakResend_keeps _ _ _ h
  | .retransmitTimeout _ _ => execRetransmitTimeout_keeps _ _ _ h
  | .rnrWait _ _ => execRnrWait_keeps _ _ _ h
  | .readRetryTimeout _ _ => execReadRetryTimeout_keeps _ _ _ h
  | .contextFetch _ _ _ => execContextFetch_keeps _ _ _ _ h
  | .fenceRelease _ _ => execFenceRelease_keeps _ _ _ h
  | .receiveCompletion _ _ => execReceiveCompletion_keeps _ _ _ h
  | .xtDisable _ => execXtDisable_keeps _ _ h
  | .wheelDataFrame _ _ => execWheelDataFrame_keeps _ _ _ h
  | .wheelCreditFrame _ _ => execWheelCreditFrame_keeps _ _ _ h
  | .wheelCountsFrame _ _ => execWheelCountsFrame_keeps _ _ _ h
  | .wheelStartFrame _ _ => execWheelStartFrame_keeps _ _ _ h
  | .wheelAckFrame _ _ => execWheelAckFrame_keeps _ _ _ h
  | .wheelNakFrame _ _ => execWheelNakFrame_keeps _ _ _ h
  | .wheelReplayTimeout _ => execWheelReplayTimeout_keeps _ _ h
  | .collectiveTimeout _ => execCollectiveTimeout_keeps _ _ h
  | .wheelDisable _ => execWheelDisable_keeps _ _ h
  | .voteReady _ => execVoteReady_keeps _ _ h
  | .prepareFrame _ _ => execPrepareFrame_keeps _ _ _ h
  | .decideFrame _ _ => execDecideFrame_keeps _ _ _ h
  | .buddyPushStart _ _ => execBuddyPushStart_keeps _ _ _ h
  | .pushFrame _ _ => execPushFrame_keeps _ _ _ h
  | .pushRevertFrame _ _ => execPushRevertFrame_keeps _ _ _ h
  | .pushAckFrame _ _ => execPushAckFrame_keeps _ _ _ h
  | .cmtLinkAck _ _ => execCmtLinkAck_keeps _ _ _ h
  | .cmtLinkNak _ _ => execCmtLinkNak_keeps _ _ _ h
  | .commitStallTimer _ _ _ => execCommitStallTimer_keeps _ _ _ _ h
  | .memberLost _ _ => execMemberLost_keeps _ _ _ h
  | .queryFrame _ _ => execQueryFrame_keeps _ _ _ h
  | .reportFrame _ _ => execReportFrame_keeps _ _ _ h
  | .cmtDisable _ => execCmtDisable_keeps _ _ h
  | .driveEnumerate _ _ _ _ _ _ _ => execDriveEnumerate_keeps _ _ _ _ _ _ _ _ h
  | .refetchComplete _ _ => execRefetchComplete_keeps _ _ _ h
  | .sliceExpire _ _ => execSliceExpire_keeps _ _ _ h
  | .contextSwitch _ _ _ => execContextSwitch_keeps _ _ _ _ h
  | .partitionEnable _ _ _ => execPartitionEnable_keeps _ _ _ _ h
  | .partitionDisable _ _ => execPartitionDisable_keeps _ _ _ h
  | .partMaskWrite _ _ _ _ => execPartMaskWrite_keeps _ _ _ _ _ h
  | .weirGrant _ _ _ _ _ => execWeirGrant_keeps _ _ _ _ _ _ h
  | .servingEnable _ _ => execServingEnable_keeps _ _ _ h
  | .servingStepBuild _ => execServingStepBuild_keeps _ _ h
  | .servingStepComplete _ => execServingStepComplete_keeps _ _ h
  | .bar2Read _ => execBar2Read_keeps _ _ h
  | .bar2Write _ => execBar2Write_keeps _ _ h
  | .peerRequest _ _ => execPeerRequest_keeps _ _ _ h
  | .cxlMemRead _ => execCxlMemRead_keeps _ _ h
  | .cxlMemWrite _ _ => execCxlMemWrite_keeps _ _ _ h
  | .cacheAnswer _ _ => execCacheAnswer_keeps _ _ _ h
  | .biasToShared => execBiasToShared_keeps _ h
  | .biasToDevice => execBiasToDevice_keeps _ h
  | .biasEnable => execBiasEnable_keeps _ h
  | .configRequest _ _ _ => execConfigRequest_keeps _ _ _ _ h
  | .activityWindow _ _ => execActivityWindow_keeps _ _ _ h
  | .sensorRead _ _ => execSensorRead_keeps _ _ _ h
  | .capAllocation => execCapAllocation_keeps _ h
  | .freqDecision => execFreqDecision_keeps _ h
  | .freqSwitch => execFreqSwitch_keeps _ h
  | .vrRdyRise _ => execVrRdyRise_keeps _ _ h
  | .vrRdyFall _ => execVrRdyFall_keeps _ _ h
  | .uvwAssert _ => execUvwAssert_keeps _ _ h
  | .uvwClear _ => execUvwClear_keeps _ _ h
  | .uvwHoldEnd => execUvwHoldEnd_keeps _ h
  | .clkModeWrite _ => execClkModeWrite_keeps _ _ h
  | .cadenceBroken _ => execCadenceBroken_keeps _ _ h
  | .capExceeded _ => execCapExceeded_keeps _ _ h
  | .thermalRead _ _ => execThermalRead_keeps _ _ _ h
  | .throttleStep _ => execThrottleStep_keeps _ _ h
  | .fanFail _ => execFanFail_keeps _ _ h
  | .fanRecover _ => execFanRecover_keeps _ _ h
  | .domainStart _ _ => execDomainStart_keeps _ _ _ h
  | .domainStop _ _ => execDomainStop_keeps _ _ _ h
  | .powerOn _ => execPowerOn_keeps _ _ h
  | .pwrgoodFall => execPwrgoodFall_keeps _ h
  | .coldReset _ _ => execColdReset_keeps _ _ _ h
  | .warmReset _ => execWarmReset_keeps _ _ h
  | .dieWarmReset _ => execDieWarmReset_keeps _ _ h
  | .hostFundamentalReset => execHostFundamentalReset_keeps _ h
  | .flrPf => execFlrPf_keeps _ h
  | .flrVf _ => execFlrVf_keeps _ _ h
  | .guardRestart _ => execGuardRestart_keeps _ _ h
  | .testReset => execTestReset_keeps _ h
  | .resetEnd => execResetEnd_keeps _ h
  | .guardBoot _ _ => execGuardBoot_keeps _ _ _ h
  | .dieEnumeration _ => execDieEnumeration_keeps _ _ h
  | .enumerationTimeout _ => execEnumerationTimeout_keeps _ _ h
  | .hostLinkTrain => execHostLinkTrain_keeps _ h
  | .portEnableAuto => execPortEnableAuto_keeps _ h
  | .discoveryFrame _ _ => execDiscoveryFrame_keeps _ _ _ h
  | .discoverySendTimer _ => execDiscoverySendTimer_keeps _ _ h
  | .discoveryValid => execDiscoveryValid_keeps _ h
  | .scrubRead _ _ _ _ => execScrubRead_keeps _ _ _ _ _ h
  | .poisonFound _ _ => execPoisonFound_keeps _ _ _ h
  | .ownerSearch _ => execOwnerSearch_keeps _ _ h
  | .rowRepair _ _ _ => execRowRepair_keeps _ _ _ _ h
  | .unitFence _ _ _ => execUnitFence_keeps _ _ _ _ h
  | .progressWatchdog _ _ => execProgressWatchdog_keeps _ _ _ h
  | .rasFence _ _ => execRasFence_keeps _ _ _ h
  | .rasReturn _ _ => execRasReturn_keeps _ _ _ h
  | .autoReturnTimer _ _ => execAutoReturnTimer_keeps _ _ _ h
  | .selfTestEnd _ _ _ => execSelfTestEnd_keeps _ _ _ _ h
  | .serviceEntry _ _ => execServiceEntry_keeps _ _ _ h
  | .meshChange => execMeshChange_keeps _ h
  | .meshChangeAck _ => execMeshChangeAck_keeps _ _ h
  | .ucieRetrain _ _ => execUcieRetrain_keeps _ _ _ h
  | .ucieRetrainEnd _ _ _ => execUcieRetrainEnd_keeps _ _ _ _ h
  | .torusLinkDown _ => execTorusLinkDown_keeps _ _ h
  | .torusLinkUp _ => execTorusLinkUp_keeps _ _ h
  | .linkDown _ _ => execLinkDown_keeps _ _ _ h
  | .linkUp _ _ => execLinkUp_keeps _ _ _ h
  | .pkgFailed _ _ => execPkgFailed_keeps _ _ _ h
  | .rasDeclare _ => execRasDeclare_keeps _ _ h
  | .ringEnable _ _ => execRingEnable_keeps _ _ _ h
  | .ringDisable _ => execRingDisable_keeps _ _ h
  | .evqEnable _ _ => execEvqEnable_keeps _ _ _ h
  | .seqActPeakClr _ _ => execSeqActPeakClr_keeps _ _ _ h
  | .rasLogClr _ _ => execRasLogClr_keeps _ _ _ h
  | .grdLostClr _ _ => execGrdLostClr_keeps _ _ _ h
  | .counterClear _ _ _ _ => execCounterClear_keeps _ _ _ _ _ h
  | .w1cClear _ _ _ _ => execW1cClear_keeps _ _ _ _ _ h
  | .registerWrite _ _ => execRegisterWrite_keeps _ _ _ h
  | .counterLoRead _ _ _ => execCounterLoRead_keeps _ _ _ _ h
  | .hbmTrainingEnd _ _ => execHbmTrainingEnd_keeps _ _ _ h
  | .hostLinkUp _ _ _ _ _ => execHostLinkUp_keeps _ _ _ _ _ _ h
  | .hostLinkDown => execHostLinkDown_keeps _ h
  | .portLinkDown _ => execPortLinkDown_keeps _ _ h
  | .ucieLinkLost _ _ => execUcieLinkLost_keeps _ _ _ h
  | .wheelAckTimer _ => execWheelAckTimer_keeps _ _ h
  | .wheelNakResend _ => execWheelNakResend_keeps _ _ h
  | .cmtReplayTimeout _ => execCmtReplayTimeout_keeps _ _ h
  | .cmtAckTimer _ => execCmtAckTimer_keeps _ _ h
  | .cmtNakResend _ => execCmtNakResend_keeps _ _ h
  | .startInterfaceRequest _ _ => execStartInterfaceRequest_keeps _ _ _ h
  | .stopInterfaceRequest _ _ => execStopInterfaceRequest_keeps _ _ _ h
  | .servingDisable _ => execServingDisable_keeps _ _ h
  | .mbBellRejected _ seq _ => execMbBellRejected_keeps _ seq _ _ h
  | .unknownService _ _ _ => execUnknownService_keeps _ _ _ _ h
  | .guardUnknownOpcode _ => execGuardUnknownOpcode_keeps _ _ h

/-! ## Completion -/

theorem ite_next {p : Prop} [Decidable p] {a b : Res} (ha : ∃ t, a = .next t) (hb : ∃ t, b = .next t) :
    ∃ t, (if p then a else b) = .next t := by
  split
  · exact ha
  · exact hb

/-- Every meaning ends in `live`, `onDie`, `onIsland` or a plain next state. Five of them choose between two such ends. -/
theorem exec_next (c : Instr) (s : State) : ∃ t, exec c s = .next t := by
  cases c with
  | ld => exact ite_next ⟨_, rfl⟩ ⟨_, rfl⟩
  | st => exact ite_next ⟨_, rfl⟩ ⟨_, rfl⟩
  | ssum => exact ite_next ⟨_, rfl⟩ ⟨_, rfl⟩
  | smaxa => exact ite_next ⟨_, rfl⟩ ⟨_, rfl⟩
  | getLog => exact ite_next ⟨_, rfl⟩ ⟨_, rfl⟩
  | _ => exact ⟨_, rfl⟩

/-! ## A tripped package -/

theorem live_tripped {s t : State} (h : s.tripped = true) : live s t = .next s := by
  unfold live
  rw [if_pos h]

theorem onDie_tripped {s t : State} {d : Nat} (h : s.tripped = true) : onDie s d t = .next s := by
  simp [onDie, onIsland, h]

/-- The commands whose units run on after a thermal trip: those that reset, the thermal sensors, the fan and the guard (R527, R533). -/
def outlivesTrip : Instr → Bool
  | .powerOn _ | .coldReset _ _ | .pwrgoodFall | .resetEnd | .thermalRead _ _ | .fanFail _ | .fanRecover _ | .guardRestart _ => true
  | _ => false

theorem exec_tripped {c : Instr} {s : State} (hc : outlivesTrip c = false) (h : s.tripped = true) : exec c s = .next s := by
  cases c with
  | powerOn | coldReset | pwrgoodFall | resetEnd | thermalRead | fanFail | fanRecover | guardRestart => cases hc
  | ld => exact (ite_congr rfl (fun _ => onDie_tripped h) fun _ => onDie_tripped h).trans (ite_self _)
  | st => exact (ite_congr rfl (fun _ => onDie_tripped h) fun _ => onDie_tripped h).trans (ite_self _)
  | ssum => exact (ite_congr rfl (fun _ => onDie_tripped h) fun _ => onDie_tripped h).trans (ite_self _)
  | smaxa => exact (ite_congr rfl (fun _ => onDie_tripped h) fun _ => onDie_tripped h).trans (ite_self _)
  | getLog => exact (ite_congr rfl (fun _ => live_tripped h) fun _ => rfl).trans (ite_self _)
  | dieWarmReset d => simp [exec, execDieWarmReset, onIsland, h]
  | testReset => rfl
  | _ => first | exact live_tripped h | exact onDie_tripped h

/-! ## The state after reset -/

theorem reset_reg (d off : Nat) : State.reset.reg d off = resetValue .t8 d off := rfl

theorem reset_regN_ringCfg (r : Nat) : State.reset.regN (ringDie r) (Reg.ringCfg (ringNo r)) = 0 := by
  have hrow : ∀ i < 32, resetValue .t8 (ringDie r) (Reg.ringCfg i) = 0 := by
    intro i hi
    interval_cases i <;> rfl
  rw [State.regN, reset_reg, hrow (ringNo r) (Nat.mod_lt _ (by decide))]
  rfl

theorem reset_regN_seqPartCfg (d : Nat) {p : Nat} (h : p < 16) : State.reset.regN d (Reg.seqPartCfg p) = 0 := by
  interval_cases p <;> rfl

theorem reset_regN_ethStatus (d : Nat) : State.reset.regN d Reg.ethStatus = 0 := rfl

end Sys2Proof.Machine

section
open Sys2Proof Sys2Proof.Machine

/-- Settles O3: the law of each command, on the state with the queue's rest. -/
theorem stepKeepsInvariant : Obligations.StepKeepsInvariant := by
  intro s t hinv hstep
  unfold step at hstep
  split at hstep
  · next hq =>
    cases hstep
    exact ⟨⟨hinv.memory, hinv.log, hinv.sticky, hinv.fresh, hinv.small⟩, rfl, by simp [hq]⟩
  · next c rest hq =>
    obtain ⟨hpending, hpart, hkeep⟩ := (exec_keeps c _).keeps t hstep
    exact ⟨hkeep ⟨hinv.memory, hinv.log, hinv.sticky, hinv.fresh, hinv.small⟩, hpart, by rw [hpending, hq]; rfl⟩

/-- Settles O4. -/
theorem commandsComplete : Obligations.CommandsComplete := by
  intro c s
  exact exec_next c s

/-- Settles O6. -/
theorem trippedPackage : Obligations.TrippedPackage := by
  intro c s t htrip hexec hon hcold hfall hend hread hfail hrecover hguard
  have hc : outlivesTrip c = false := by
    cases c with
    | powerOn x => exact absurd rfl (hon x)
    | coldReset p x => exact absurd rfl (hcold p x)
    | pwrgoodFall => exact absurd rfl hfall
    | resetEnd => exact absurd rfl hend
    | thermalRead d x => exact absurd rfl (hread d x)
    | fanFail r => exact absurd rfl (hfail r)
    | fanRecover r => exact absurd rfl (hrecover r)
    | guardRestart d => exact absurd rfl (hguard d)
    | _ => rfl
  rw [exec_tripped hc htrip] at hexec
  exact (Host.Outcome.next.inj hexec).symm

/-- Settles O1. -/
theorem stepRunsFront : Obligations.StepRunsFront := by
  refine ⟨fun s c rest hq => ?_, fun s hq => ?_⟩
  · simp only [step, hq]
  · unfold step
    split
    · rfl
    · next hcons => exact absurd (hq.symm.trans hcons) (List.cons_ne_nil _ _).symm

/-- Settles O2. -/
theorem resetState : Obligations.ResetState := by
  refine ⟨⟨rfl, by decide, by decide, by decide, by decide⟩, rfl, rfl, rfl, rfl, rfl, reset_reg, fun _ _ => rfl, fun r _ => ?_,
    fun d p hp => ?_, rfl, fun d => ?_, rfl, rfl⟩
  · unfold State.ringOn State.ringReg
    rw [reset_regN_ringCfg]
    rfl
  · unfold State.partOn State.rbit
    rw [reset_regN_seqPartCfg d hp]
    exact Bool.and_false _
  · rw [State.portUp, State.rbit, reset_regN_ethStatus]
    rfl

end
end

/-! PROOF. How a claim about one command is met: a command on a die that is up does its effect; an effect is followed through folds and
through updates that leave memory or registers as they were. -/

section
namespace Sys2Proof.Machine

/-! ## Commands on a die that is up -/

theorem onDie_eq {s t : State} {d : Nat} (h : DieUp s d) : onDie s d t = .next t := by
  simp [onDie, onIsland, h.live, h.there, h.up]

theorem onIsland_eq {s t : State} {d : Nat} (h : d < s.part.dies) : onIsland s d t = .next t := by
  simp [onIsland, h]

theorem Does.of_eq {c : Instr} {s t : State} {P : State → Prop} (h : exec c s = .next t) (hP : P t) : Does c s P := ⟨t, h, hP⟩

theorem Does.onDie {c : Instr} {s t : State} {P : State → Prop} {d : Nat} (hd : DieUp s d) (h : exec c s = onDie s d t) (hP : P t) : Does c s P :=
  ⟨t, h.trans (onDie_eq hd), hP⟩

theorem Does.live {c : Instr} {s t : State} {P : State → Prop} (hs : s.tripped = false) (h : exec c s = live s t) (hP : P t) : Does c s P :=
  ⟨t, h.trans (live_eq hs), hP⟩

/-- What a command on a die leaves is the state before or its effect. -/
theorem onDie_cases {s t u : State} {d : Nat} (h : onDie s d u = .next t) : t = s ∨ t = u := by
  unfold onDie onIsland at h
  have h := Host.Outcome.next.inj h
  split at h
  · split at h
    · exact .inl h.symm
    · exact .inr h.symm
  · exact .inl h.symm

theorem live_cases {s t u : State} (h : live s u = .next t) : t = s ∨ t = u := by
  unfold live at h
  have h := Host.Outcome.next.inj h
  split at h
  · exact .inl h.symm
  · exact .inr h.symm

/-! ## Folds -/

/-- What every step of a fold keeps, the fold keeps. -/
theorem foldl_keeps {α β : Type} {P : β → Prop} {f : β → α → β} (hf : ∀ b a, P b → P (f b a)) (l : List α) {b : β} (h : P b) : P (l.foldl f b) := by
  induction l generalizing b with
  | nil => exact h
  | cons a l ih => exact ih (hf b a h)

/-! ## Memory and registers that stay -/

theorem State.byte_congr {s t : State} (hm : t.mem = s.mem) (hw : t.wiped = s.wiped) (a : Nat) : t.byte a = s.byte a := by
  simp [State.byte, hm, State.dflt_congr hw]

theorem SameMem.of_eq {s t : State} (hm : t.mem = s.mem) (hw : t.wiped = s.wiped) : SameMem s t := State.byte_congr hm hw

theorem SameMem.trans {s t u : State} (h : SameMem s t) (g : SameMem t u) : SameMem s u := fun x => (g x).trans (h x)

theorem State.reg_congr {s t : State} (hr : t.regs = s.regs) (hp : t.part = s.part) (d off : Nat) : t.reg d off = s.reg d off := by
  simp [State.reg, hr, hp]

theorem State.regN_congr {s t : State} (hr : t.regs = s.regs) (hp : t.part = s.part) (d off : Nat) : t.regN d off = s.regN d off := by
  simp [State.regN, State.reg_congr hr hp]

theorem RegsBut.refl (s : State) (ks : List Nat) : RegsBut s s ks := fun _ _ _ => rfl

theorem RegsBut.of_eq {s t : State} {ks : List Nat} (hr : t.regs = s.regs) (hp : t.part = s.part) : RegsBut s t ks :=
  fun d off _ => State.reg_congr hr hp d off

theorem RegsBut.trans {s t u : State} {ks : List Nat} (h : RegsBut s t ks) (g : RegsBut t u ks) : RegsBut s u ks :=
  fun d off hk => (g d off hk).trans (h d off hk)

theorem RegsBut.mono {s t : State} {ks ls : List Nat} (h : RegsBut s t ks) (hsub : ∀ k ∈ ks, k ∈ ls) : RegsBut s t ls :=
  fun d off hk => h d off fun hmem => hk (hsub _ hmem)

theorem RegsBut.regN {s t : State} {ks : List Nat} (h : RegsBut s t ks) {d off : Nat} (hk : regKey d off ∉ ks) : t.regN d off = s.regN d off := by
  rw [State.regN, h d off hk, State.regN]

theorem RegsBut.setRegN {s t : State} {ks : List Nat} (h : RegsBut s t ks) {d off : Nat} (hk : regKey d off ∈ ks) (v : Nat) :
    RegsBut s (t.setRegN d off v) ks := fun e o ho =>
  (State.reg_setReg_other t d off e o (BitVec.ofNat 32 v) fun heq => ho (heq ▸ hk)).trans (h e o ho)

theorem RegsBut.setRf {s t : State} {ks : List Nat} (h : RegsBut s t ks) {d off : Nat} (hk : regKey d off ∈ ks) (lo len v : Nat) :
    RegsBut s (t.setRf d off lo len v) ks := h.setRegN hk _

theorem RegsBut.setRbit {s t : State} {ks : List Nat} (h : RegsBut s t ks) {d off : Nat} (hk : regKey d off ∈ ks) (i : Nat) (b : Bool) :
    RegsBut s (t.setRbit d off i b) ks := h.setRegN hk _

/-- A state whose registers are those of another reads as it does. -/
theorem RegsBut.congr {s t u : State} {ks : List Nat} (h : RegsBut s t ks) (hr : u.regs = t.regs) (hp : u.part = t.part) : RegsBut s u ks :=
  h.trans (.of_eq hr hp)

/-! ## Registers of one die -/

@[simp] theorem regKey_eq_iff (d a b : Nat) : regKey d a = regKey d b ↔ a = b := by simp [regKey]

/-- Registers of two dies have two keys. -/
theorem regKey_ne_die {d e off o : Nat} (hoff : off < 2 ^ 24) (ho : o < 2 ^ 24) (h : d ≠ e) : regKey d off ≠ regKey e o :=
  State.regKey_ne hoff ho (.inl h)

theorem State.regN_setRegN (s : State) (d off v e o : Nat) :
    (s.setRegN d off v).regN e o = if regKey e o = regKey d off then v % 2 ^ 32 else s.regN e o := by
  split
  · rename_i h
    simp [State.regN, State.setRegN, State.setReg, State.reg, h, kvFind_kvPut_same]
  · rename_i h
    exact State.regN_setRegN_other s d off e o v h

@[simp] theorem b2n_true : b2n true = 1 := rfl
@[simp] theorem b2n_false : b2n false = 0 := rfl

/-- The fields of a ring's registers that say where it stands. -/
def ringFields : List (Nat → Nat) := [Reg.ringCfg, Reg.ringStatus, Reg.ringPi, Reg.ringCi, Reg.cqTail, Reg.cqHead]

/-- The registers of rings lie in one block. -/
theorem ringField_block {f : Nat → Nat} (hf : f ∈ ringFields) (r : Nat) : 0x110000 ≤ f (ringNo r) ∧ f (ringNo r) < 0x110800 := by
  have hr : ringNo r < 32 := Nat.mod_lt _ (by decide)
  simp only [ringFields, List.mem_cons, List.not_mem_nil, or_false] at hf
  rcases hf with rfl | rfl | rfl | rfl | rfl | rfl <;>
    simp only [Reg.ringCfg, Reg.ringStatus, Reg.ringPi, Reg.ringCi, Reg.cqTail, Reg.cqHead] <;> omega

/-- A ring's registers are as before where only registers outside the block of rings change. -/
theorem RegsBut.ringReg {s t : State} {ks : List Nat} (h : RegsBut s t ks) (hks : ∀ k ∈ ks, k % 2 ^ 24 < 0x110000 ∨ 0x110800 ≤ k % 2 ^ 24)
    {f : Nat → Nat} (hf : f ∈ ringFields) (r : Nat) : t.ringReg r f = s.ringReg r f := by
  refine h.regN fun hmem => ?_
  have hk := hks _ hmem
  have hb := ringField_block hf r
  unfold regKey at hk
  omega

/-! ## Works that end -/

theorem work_endWork_other (s : State) {id j : Nat} (c : Rec → Rec) (h : j ≠ id) : (s.endWork id c).work j = s.work j :=
  work_modWork_other s id j _ (fun _ => rfl) h

/-- Ending works by their numbers leaves everything but the works. -/
theorem endEach_state (l : List Work) (st : Nat) (s : State) :
    ∃ ws, l.foldl (fun s w => s.endStatus w.id st) s = { s with seq := { s.seq with works := ws } } := by
  induction l generalizing s with
  | nil => exact ⟨_, rfl⟩
  | cons w l ih =>
    obtain ⟨ws, e⟩ := ih (s.endStatus w.id st)
    exact ⟨ws, e⟩

/-- A work that has ended with a status keeps it while others end with the same. -/
theorem endEach_stays (l : List Work) (st : Nat) {s : State} {id : Nat} {v : Work} (hv : s.work id = some v) (he : v.ended = true)
    (hs : v.res.status = st) : ∃ v, (l.foldl (fun s w => s.endStatus w.id st) s).work id = some v ∧ v.ended = true ∧ v.res.status = st := by
  induction l generalizing s v with
  | nil => exact ⟨v, hv, he, hs⟩
  | cons w l ih =>
    by_cases hw : id = w.id
    · subst hw
      exact ih (s := s.endStatus w.id st) (by rw [State.endStatus, work_endWork, hv]; rfl) rfl rfl
    · exact ih (s := s.endStatus w.id st) (by rw [State.endStatus, work_endWork_other _ _ hw]; exact hv) he hs

/-- Every work of a list of those that are there ends with the status. -/
theorem endEach_ends (l : List Work) (st : Nat) {s : State} (hl : ∀ w ∈ l, (s.work w.id).isSome = true) :
    ∀ w ∈ l, ∃ v, (l.foldl (fun s w => s.endStatus w.id st) s).work w.id = some v ∧ v.ended = true ∧ v.res.status = st := by
  induction l generalizing s with
  | nil => intro w hw; cases hw
  | cons x l ih =>
    intro w hw
    rcases List.mem_cons.mp hw with rfl | hw
    · obtain ⟨v, hv⟩ := Option.isSome_iff_exists.mp (hl w (by simp))
      exact endEach_stays l st (s := s.endStatus w.id st) (by rw [State.endStatus, work_endWork, hv]; rfl) rfl rfl
    · refine ih (s := s.endStatus x.id st) (fun y hy => ?_) w hw
      by_cases hxy : y.id = x.id
      · rw [State.endStatus, hxy, work_endWork, Option.isSome_map]
        exact hl x (by simp)
      · rw [State.endStatus, work_endWork_other _ _ hxy]
        exact hl y (by simp [hy])

theorem work_isSome_of_mem {s : State} {w : Work} (h : w ∈ s.seq.works) : (s.work w.id).isSome = true :=
  List.find?_isSome.mpr ⟨w, h, by simp⟩

/-! ## Fields beside the one that is set -/

theorem fld_eq_mod_div (n lo len : Nat) : fld n lo len = n % 2 ^ (lo + len) / 2 ^ lo := by
  rw [fld, Nat.pow_add, Nat.mod_mul_right_div_self]

/-- A field below or above the one that is set keeps its value. -/
theorem fld_setFld_other (n lo len v a l : Nat) (h : a + l ≤ lo ∨ lo + len ≤ a) : fld (setFld n lo len v) a l = fld n a l := by
  rw [setFld_eq]
  rcases h with h | h
  · have low : (n % 2 ^ lo + 2 ^ lo * (v % 2 ^ len) + 2 ^ (lo + len) * (n / 2 ^ (lo + len))) % 2 ^ lo = n % 2 ^ lo := by
      rw [Nat.pow_add, Nat.mul_assoc, Nat.add_assoc, ← Nat.mul_add, Nat.add_mul_mod_self_left, Nat.mod_mod]
    have hdvd : 2 ^ (a + l) ∣ 2 ^ lo := Nat.pow_dvd_pow 2 h
    rw [fld_eq_mod_div, fld_eq_mod_div, ← Nat.mod_mod_of_dvd _ hdvd, low, Nat.mod_mod_of_dvd _ hdvd]
  · have high : (n % 2 ^ lo + 2 ^ lo * (v % 2 ^ len) + 2 ^ (lo + len) * (n / 2 ^ (lo + len))) / 2 ^ (lo + len) = n / 2 ^ (lo + len) := by
      rw [Nat.add_mul_div_left _ _ (Nat.two_pow_pos _), Nat.div_eq_of_lt, Nat.zero_add]
      have h1 : n % 2 ^ lo < 2 ^ lo := Nat.mod_lt _ (Nat.two_pow_pos lo)
      have h2 : v % 2 ^ len < 2 ^ len := Nat.mod_lt _ (Nat.two_pow_pos len)
      calc n % 2 ^ lo + 2 ^ lo * (v % 2 ^ len) < 2 ^ lo + 2 ^ lo * (v % 2 ^ len) := by omega
        _ = 2 ^ lo * (v % 2 ^ len + 1) := by rw [Nat.mul_add, Nat.mul_one, Nat.add_comm]
        _ ≤ 2 ^ lo * 2 ^ len := Nat.mul_le_mul_left _ h2
        _ = 2 ^ (lo + len) := (Nat.pow_add ..).symm
    obtain ⟨m, rfl⟩ := Nat.exists_eq_add_of_le h
    have hdiv : ∀ x, x / 2 ^ (lo + len + m) = x / 2 ^ (lo + len) / 2 ^ m := fun x => by rw [Nat.pow_add 2 (lo + len) m, Nat.div_div_eq_div_mul]
    unfold fld
    rw [hdiv, hdiv, high]

theorem bit_setFld_other (n lo len v i : Nat) (h : i < lo ∨ lo + len ≤ i) : bit (setFld n lo len v) i = bit n i := by
  rw [bit_eq_fld, bit_eq_fld, fld_setFld_other _ _ _ _ _ _ (by omega)]

theorem bit_setBit (n i j : Nat) (b : Bool) : bit (setBit n i b) j = if j = i then b else bit n j := by
  split
  · rename_i h
    subst h
    exact bit_setFld_same n j b
  · exact bit_setFld_other _ _ _ _ _ (by omega)

namespace State

variable (s : State) (d off : Nat)

theorem regN_setRf (lo len v : Nat) (h : lo + len ≤ 32) : (s.setRf d off lo len v).regN d off = setFld (s.regN d off) lo len v := by
  rw [setRf, regN_setRegN_same, Nat.mod_eq_of_lt (setFld_lt (s.regN_lt d off) h)]

theorem rf_setRf_other {lo len : Nat} (v a l : Nat) (h : lo + len ≤ 32) (hd : a + l ≤ lo ∨ lo + len ≤ a) :
    (s.setRf d off lo len v).rf d off a l = s.rf d off a l := by
  rw [rf, regN_setRf _ _ _ _ _ _ h, fld_setFld_other _ _ _ _ _ _ hd, rf]

theorem rbit_setRf_other {lo len : Nat} (v i : Nat) (h : lo + len ≤ 32) (hd : i < lo ∨ lo + len ≤ i) :
    (s.setRf d off lo len v).rbit d off i = s.rbit d off i := by
  rw [rbit, regN_setRf _ _ _ _ _ _ h, bit_setFld_other _ _ _ _ _ hd, rbit]

theorem rbit_setRbit {i : Nat} (j : Nat) (b : Bool) (h : i < 32) : (s.setRbit d off i b).rbit d off j = if j = i then b else s.rbit d off j := by
  split
  · rename_i hj
    subst hj
    exact rbit_setRbit_same s d off j b h
  · exact rbit_setRf_other s d off _ j (by omega) (by omega)

theorem regPair_lt : s.regPair d off < 2 ^ 64 := by
  have h1 := s.regN_lt d off
  have h2 := s.regN_lt d (off + 4)
  unfold regPair
  omega

theorem regPair_setRegPair (v : Nat) : (s.setRegPair d off v).regPair d off = v % 2 ^ 64 := by
  unfold setRegPair regPair
  rw [regN_setRegN_same, regN_setRegN_other _ _ _ _ _ _ (by simp), regN_setRegN_same]
  omega

end State

theorem bit_of_lt {n i : Nat} (h : n < 2 ^ i) : bit n i = false := by
  simp [bit, Nat.div_eq_of_lt h]

theorem bit_mod {n i k : Nat} (h : i < k) : bit (n % 2 ^ k) i = bit n i := by
  have hdvd : 2 ^ (i + 1) ∣ 2 ^ k := Nat.pow_dvd_pow 2 h
  rw [bit_eq_fld, bit_eq_fld, fld_eq_mod_div, fld_eq_mod_div, Nat.mod_mod_of_dvd _ hdvd]

theorem RegsBut.setRegPair {s t : State} {ks : List Nat} (h : RegsBut s t ks) {d off : Nat} (hlo : regKey d off ∈ ks) (hhi : regKey d (off + 4) ∈ ks)
    (v : Nat) : RegsBut s (t.setRegPair d off v) ks := (h.setRegN hlo _).setRegN hhi _

end Sys2Proof.Machine
end

/-! PROOF. Descriptors: one that no check refuses runs its body, and one that a check refuses ends with the lowest code. -/

section
namespace Sys2Proof.Machine

/-- A refused descriptor gives its die up, with its record and nothing else written. -/
theorem refused_leaves {s : State} {w : Work} (hw : s.work w.id = some w) (k : Nat) (b : Bool) :
    let t := (s.refuse w k b).leaveIdle w.on w.part
    Ended t w.id { w.res with status := k } ∧ t.mem = s.mem ∧ RegsBut s t [regKey w.on (Reg.seqPartStatus w.part)] := by
  obtain ⟨hended, hmem, hregs⟩ := ended_refuse hw k b
  refine ⟨ended_leaveIdle hended _ _, (leaveIdle_mem _ _ _).trans hmem, fun e o ho => ?_⟩
  rw [leaveIdle_reg _ _ _ _ _ (by simpa using ho)]
  exact State.reg_congr hregs (State.refuse_keeps s w k b (Keeps.rfl' s)).part e o

end Sys2Proof.Machine

open Sys2Proof Sys2Proof.Machine

/-- Settles O12: every descriptor command starts its descriptor, or starts a transfer that leaves no context fetch behind. -/
theorem descriptorRuns : Obligations.DescriptorRuns := by
  intro c D s w hD h
  rcases desc_exec hD s with e | ⟨k, hk, e⟩
  · rw [e, live_eq h.up, begin_starts D.ranges D.codes D.body h]
  · obtain ⟨id, isKind, ranges, codes, body⟩ := D
    injection hk with _ h1 h2 h3 h4
    subst h1 h2 h3 h4
    rw [e, live_eq h.up, beginXfer_starts h]

/-- Settles O13: a descriptor whose checks give a code is refused with the lowest one. -/
theorem descriptorRefused : Obligations.DescriptorRefused := by
  intro c D s w k hD hs hw hk hcan e h0
  have hid := work_id hw
  rcases desc_exec hD s with ex | ⟨n, hn, ex⟩
  · obtain ⟨b, hb⟩ := begin_refuses D.isKind D.ranges D.codes D.body hw hk hcan (e ▸ h0)
    refine .live hs ex ?_
    rw [hb, ← e, ← hid]
    exact refused_leaves (hid ▸ hw) k b
  · obtain ⟨id, isKind, ranges, codes, body⟩ := D
    injection hn with _ h1 h2 h3 h4
    subst h1 h2 h3 h4
    obtain ⟨b, hb⟩ := beginXfer_refused hw hk hcan e h0
    refine .live hs ex ?_
    rw [hb, ← hid]
    exact refused_leaves (hid ▸ hw) k b

end

/-! PROOF. What commands leave unchanged: the register commands, the vector instructions, and the timers of a port. -/

section
namespace Sys2Proof.Machine

/-! ## Register commands -/

/-- From `s` to `t` registers, counters, what leaves the package and the free values used may change, and nothing else. -/
def OnlyRegs (s t : State) : Prop := ∃ r c o n, t = { s with regs := r, ctrs := c, out := o, freeCtr := n }

namespace OnlyRegs

variable {s t u : State}

theorem refl (s : State) : OnlyRegs s s := ⟨_, _, _, _, rfl⟩

theorem frame (h : OnlyRegs s t) : t = { s with regs := t.regs, ctrs := t.ctrs, out := t.out, freeCtr := t.freeCtr } := by
  obtain ⟨r, c, o, n, rfl⟩ := h
  rfl

theorem trans (h : OnlyRegs s t) (g : OnlyRegs t u) : OnlyRegs s u := by
  obtain ⟨r, c, o, n, rfl⟩ := h
  obtain ⟨r', c', o', n', rfl⟩ := g
  exact ⟨_, _, _, _, rfl⟩

theorem setRegN (s : State) (d off v : Nat) : OnlyRegs s (s.setRegN d off v) := ⟨_, _, _, _, rfl⟩
theorem setRegPair (s : State) (d off v : Nat) : OnlyRegs s (s.setRegPair d off v) := ⟨_, _, _, _, rfl⟩
theorem setCtr (s : State) (d off v : Nat) : OnlyRegs s (s.setCtr d off v) := ⟨_, _, _, _, rfl⟩
theorem bumpFree (s : State) (d off : Nat) : OnlyRegs s (s.bumpFree d off) := ⟨_, _, _, _, rfl⟩
theorem emit (s : State) (o : Output) : OnlyRegs s (s.emit o) := ⟨_, _, _, _, rfl⟩
theorem dropRegs (s : State) (p : Nat × W32 → Bool) : OnlyRegs s { s with regs := s.regs.filter p } := ⟨_, _, _, _, rfl⟩

theorem foldl {α : Type} {f : State → α → State} (hf : ∀ s a, OnlyRegs s (f s a)) (l : List α) (s : State) : OnlyRegs s (l.foldl f s) :=
  foldl_keeps (P := OnlyRegs s) (fun t a h => h.trans (hf t a)) l (refl s)

theorem ite {c : Prop} [Decidable c] (h : OnlyRegs s t) (g : OnlyRegs s u) : OnlyRegs s (if c then t else u) := by
  split
  · exact h
  · exact g

end OnlyRegs

theorem wakeDomain_onlyRegs (s : State) (d dom : Nat) : OnlyRegs s (s.wakeDomain d dom) := by
  unfold State.wakeDomain
  exact .ite (((OnlyRegs.setRegPair _ _ _ _).trans (.setCtr _ _ _ _)).trans (.bumpFree _ _ _)) (.refl s)

theorem evqCfgWrite_onlyRegs (s : State) (p v : Nat) : OnlyRegs s (s.evqCfgWrite p v) := by
  unfold State.evqCfgWrite
  refine .ite (.setRegN _ _ _ _) ?_
  dsimp only
  exact .ite (((OnlyRegs.setRegN _ _ _ _).trans (.setRegN _ _ _ _)).trans (.setRegN _ _ _ _)) (.setRegN _ _ _ _)

theorem rasLogClear_onlyRegs (s : State) (d v : Nat) : OnlyRegs s (s.rasLogClear d v) :=
  .ite ((OnlyRegs.dropRegs s _).trans (.setRegN _ _ _ _)) (.refl s)

theorem lostClear_onlyRegs (s : State) (d v : Nat) : OnlyRegs s (s.lostClear d v) :=
  .ite (((OnlyRegs.dropRegs s _).trans (.setRegN _ _ _ _)).trans (.setCtr _ _ _ _)) (.refl s)

theorem clearBits_onlyRegs (s : State) (d off v sets : Nat) : OnlyRegs s (s.clearBits d off v sets) := by
  unfold State.clearBits
  split
  · exact .setRegN _ _ _ _
  · exact .refl s

theorem OnlyRegs.of_onDie {s t u : State} {d : Nat} (h : onDie s d u = .next t) (hu : OnlyRegs s u) : OnlyRegs s t := by
  rcases onDie_cases h with rfl | rfl
  · exact .refl _
  · exact hu

theorem counterLoRead_onlyRegs {s t : State} {d off : Nat} {wide : Bool} (h : execCounterLoRead d off wide s = .next t) : OnlyRegs s t := by
  rcases live_cases h with rfl | rfl
  · exact .refl _
  · have seen : ∀ p : Bool, OnlyRegs s (if p = true then s.bumpFree d (off / 4 * 4) else s) := fun _ => .ite (.bumpFree _ _ _) (.refl s)
    exact ((seen _).trans (.ite (.setRegN _ _ _ _) (.refl _))).trans (.emit _ _)

theorem domainStart_onlyRegs {s t : State} {d dom : Nat} (h : execDomainStart d dom s = .next t) : OnlyRegs s t :=
  .of_onDie h (.ite (.refl s) ((wakeDomain_onlyRegs s d dom).trans (.foldl (fun s x => wakeDomain_onlyRegs s d x) _ _)))

theorem domainStop_onlyRegs {s t : State} {d dom : Nat} (h : execDomainStop d dom s = .next t) : OnlyRegs s t :=
  .of_onDie h (.ite (.refl s) ((OnlyRegs.setRegPair _ _ _ _).trans (.setCtr _ _ _ _)))

/-! ## Vector instructions -/

/-- From `s` to `t` vector engines and counters may change, and nothing else. -/
def OnlyVes (s t : State) : Prop := ∃ v c, t = { s with ves := v, ctrs := c }

theorem OnlyVes.frame {s t : State} (h : OnlyVes s t) : t = { s with ves := t.ves, ctrs := t.ctrs } := by
  obtain ⟨v, c, rfl⟩ := h
  rfl

theorem onDie_self {s t : State} {d : Nat} (h : onDie s d s = .next t) : t = s := by
  rcases onDie_cases h with h | h <;> exact h

theorem OnlyVes.idle {s t : State} {d : Nat} (h : onDie s d s = .next t) : OnlyVes s t := by
  rw [onDie_self h]
  exact ⟨_, _, rfl⟩

theorem issue_onlyVes {s t : State} {d v : Nat} {four : Bool} {run : Ve → Ve} (h : s.issue d v four run = .next t) : OnlyVes s t := by
  rcases onDie_cases h with rfl | rfl
  · exact ⟨_, _, rfl⟩
  · split <;> exact ⟨_, _, rfl⟩

/-- An instruction that a test keeps from being issued. -/
theorem guarded_onlyVes {s t : State} {d v : Nat} {four p : Bool} {run : Ve → Ve}
    (h : (if p = true then onDie s d s else s.issue d v four run) = .next t) : OnlyVes s t := by
  split at h
  · exact .idle h
  · exact issue_onlyVes h

theorem ld_onlyVes {s t : State} {d v : Nat} {f : VFields} (h : execLd d v f s = .next t) : OnlyVes s t := by
  unfold execLd at h
  exact guarded_onlyVes h

theorem st_onlyVes {s t : State} {d v : Nat} {f : VFields} (h : execSt d v f s = .next t) : OnlyVes s t := by
  unfold execSt at h
  exact guarded_onlyVes h

theorem ssum_onlyVes {s t : State} {d v : Nat} {f : VFields} (h : execSsum d v f s = .next t) : OnlyVes s t := by
  unfold execSsum at h
  exact guarded_onlyVes h

theorem smaxa_onlyVes {s t : State} {d v : Nat} {f : VFields} (h : execSmaxa d v f s = .next t) : OnlyVes s t := by
  unfold execSmaxa at h
  exact guarded_onlyVes h

/-! ## Timers of a port -/

/-- From `s` to `t` ports, links, counters, what leaves the package and the guard's notes may change, and of the registers GRD_STATUS of
die 0 alone. -/
def OnlyPorts (s t : State) : Prop :=
  (∃ e w c o g r, t = { s with eths := e, wires := w, ctrs := c, out := o, grd := g, regs := r }) ∧ RegsBut s t [regKey 0 Reg.grdStatus]

namespace OnlyPorts

variable {s t u : State}

theorem refl (s : State) : OnlyPorts s s := ⟨⟨_, _, _, _, _, _, rfl⟩, .refl _ _⟩

theorem frame (h : OnlyPorts s t) :
    t = { s with eths := t.eths, wires := t.wires, ctrs := t.ctrs, out := t.out, grd := t.grd, regs := t.regs } ∧ RegsBut s t [regKey 0 Reg.grdStatus] := by
  obtain ⟨⟨e, w, c, o, g, r, rfl⟩, hr⟩ := h
  exact ⟨rfl, hr⟩

theorem trans (h : OnlyPorts s t) (g : OnlyPorts t u) : OnlyPorts s u := by
  obtain ⟨⟨e, w, c, o, gr, r, rfl⟩, hr⟩ := h
  obtain ⟨⟨e', w', c', o', gr', r', rfl⟩, hr'⟩ := g
  exact ⟨⟨_, _, _, _, _, _, rfl⟩, hr.trans hr'⟩

theorem modEth (s : State) (d : Nat) (f : Eth → Eth) : OnlyPorts s (s.modEth d f) := by
  obtain ⟨l, e⟩ := modEth_state s d f
  rw [e]
  exact ⟨⟨_, _, _, _, _, _, rfl⟩, .of_eq rfl rfl⟩

theorem modWire (s : State) (d u : Nat) (f : Link → Link) : OnlyPorts s (s.modWire d u f) := by
  obtain ⟨l, e⟩ := modWire_state s d u f
  rw [e]
  exact ⟨⟨_, _, _, _, _, _, rfl⟩, .of_eq rfl rfl⟩

theorem bump (s : State) (d off n : Nat) : OnlyPorts s (s.bump d off n) := ⟨⟨_, _, _, _, _, _, rfl⟩, .of_eq rfl rfl⟩

theorem emit (s : State) (o : Output) : OnlyPorts s (s.emit o) := ⟨⟨_, _, _, _, _, _, rfl⟩, .of_eq rfl rfl⟩

theorem setGrd (s : State) (g : Grd) : OnlyPorts s { s with grd := g } := ⟨⟨_, _, _, _, _, _, rfl⟩, .of_eq rfl rfl⟩

theorem setAlert (s : State) (i : Nat) (b : Bool) : OnlyPorts s (s.setAlert i b) := by
  have h : OnlyPorts s (s.setRbit 0 Reg.grdStatus i b) :=
    ⟨⟨_, _, _, _, _, _, rfl⟩, (RegsBut.refl s [regKey 0 Reg.grdStatus]).setRbit (List.mem_singleton.mpr rfl) i b⟩
  unfold State.setAlert
  dsimp only
  split
  · exact h
  · exact h.trans (emit _ _)

theorem nextPn (s : State) (d : Nat) : OnlyPorts s (s.nextPn d).2 := by
  unfold State.nextPn
  split
  · dsimp only
    split
    · exact ((modEth s d _).trans (setGrd _ _)).trans (setAlert _ _ _)
    · exact modEth s d _
  · exact refl s

theorem sendFrame (s : State) (d : Nat) (f : TxFrame) (link : Option LinkHdr) : OnlyPorts s (s.sendFrame d f link) := by
  unfold State.sendFrame
  split
  · exact refl s
  · exact ((nextPn s d).trans (bump _ _ _ _)).trans (emit _ _)

theorem ximelCtl (s : State) (d kind width group etype : Nat) : OnlyPorts s (s.ximelCtl d kind width group etype) :=
  (modWire s d 0 _).trans (sendFrame _ _ _ _)

theorem sendMacCtl (s : State) (d : Nat) (x : PauseFrame) : OnlyPorts s (s.sendMacCtl d x) := by
  unfold State.sendMacCtl
  dsimp only
  split
  · exact ((bump s _ _ _).trans (modWire _ _ _ _)).trans (sendFrame _ _ _ _)
  · exact (bump s _ _ _).trans (sendFrame _ _ _ _)

theorem sendPause (s : State) (d : Nat) (ps : List Nat) (time : Nat) : OnlyPorts s (s.sendPause d ps time) := by
  unfold State.sendPause
  split
  · exact sendMacCtl s d _
  · split
    · exact sendMacCtl s d _
    · exact refl s

theorem of_onDie {d : Nat} (h : onDie s d u = .next t) (hu : OnlyPorts s u) : OnlyPorts s t := by
  rcases onDie_cases h with rfl | rfl
  · exact refl _
  · exact hu

theorem poolHighCross {d : Nat} {ps : List Nat} (h : execPoolHighCross d ps s = .next t) : OnlyPorts s t := by
  refine of_onDie h ?_
  dsimp only
  split
  · exact refl s
  · exact (modEth s d _).trans (sendPause _ _ _ _)

theorem poolLowCross {d : Nat} {ps : List Nat} (h : execPoolLowCross d ps s = .next t) : OnlyPorts s t := by
  refine of_onDie h ?_
  dsimp only
  split
  · exact refl s
  · split
    · exact (modEth s d _).trans (sendPause _ _ _ _)
    · exact modEth s d _

theorem pauseRepeat {d p : Nat} (h : execPauseRepeat d p s = .next t) : OnlyPorts s t := by
  refine of_onDie h ?_
  split
  · exact sendPause s d _ _
  · exact refl s

theorem ximelAckTimer {d : Nat} (h : execXimelAckTimer d s = .next t) : OnlyPorts s t := by
  refine of_onDie h ?_
  split
  · exact ximelCtl s d _ _ _ _
  · exact refl s

theorem ximelNakResend {d : Nat} (h : execXimelNakResend d s = .next t) : OnlyPorts s t := by
  refine of_onDie h ?_
  split
  · exact ximelCtl s d _ _ _ _
  · exact refl s

end OnlyPorts

end Sys2Proof.Machine

open Sys2Proof Sys2Proof.Machine

/-- Settles O5: one relation per group of commands says which fields they may write, and it composes along each command's definition. -/
theorem commandFrames : Obligations.CommandFrames := by
  refine ⟨fun c s t h => ?_, fun s t d i b x y c hc h => ?_, fun s t d v f c hc h => ?_, fun s t d i ps c hc h => ?_⟩
  · obtain ⟨hpending, hpart, -⟩ := (exec_keeps c s).keeps t h
    exact ⟨hpending, hpart⟩
  · simp only [List.mem_cons, List.not_mem_nil, or_false] at hc
    apply OnlyRegs.frame
    rcases hc with rfl | rfl | rfl | rfl | rfl | rfl | rfl | rfl | rfl
    · exact counterLoRead_onlyRegs h
    · exact .of_onDie h (.ite (.refl s) (.foldl (fun s _ => .setCtr s _ _ _) _ _))
    · exact .of_onDie h (.ite (.refl s) (clearBits_onlyRegs _ _ _ _ _))
    · exact .of_onDie h (.foldl (fun s _ => .setRegN s _ _ _) _ _)
    · exact .of_onDie h (rasLogClear_onlyRegs _ _ _)
    · exact .of_onDie h (lostClear_onlyRegs _ _ _)
    · exact domainStart_onlyRegs h
    · exact domainStop_onlyRegs h
    · exact .of_onDie h (.ite (evqCfgWrite_onlyRegs _ _ _) (.refl s))
  · simp only [List.mem_cons, List.not_mem_nil, or_false] at hc
    apply OnlyVes.frame
    rcases hc with rfl | rfl | rfl | rfl | rfl | rfl | rfl | rfl | rfl | rfl | rfl | rfl | rfl | rfl | rfl | rfl | rfl | rfl | rfl | rfl | rfl
    · exact issue_onlyVes (show execVeNop d v f s = _ from h)
    · exact ld_onlyVes h
    · exact st_onlyVes h
    · exact issue_onlyVes (show execMovi d v f s = _ from h)
    · exact issue_onlyVes (show execAdd d v f s = _ from h)
    · exact issue_onlyVes (show execSub d v f s = _ from h)
    · exact issue_onlyVes (show execMul d v f s = _ from h)
    · exact issue_onlyVes (show execFma d v f s = _ from h)
    · exact issue_onlyVes (show execFnma d v f s = _ from h)
    · exact issue_onlyVes (show execMax d v f s = _ from h)
    · exact issue_onlyVes (show execMin d v f s = _ from h)
    · exact issue_onlyVes (show execMaxnum d v f s = _ from h)
    · exact issue_onlyVes (show execMinnum d v f s = _ from h)
    · exact issue_onlyVes (show execAbs d v f s = _ from h)
    · exact issue_onlyVes (show execNeg d v f s = _ from h)
    · exact issue_onlyVes (show execSellt d v f s = _ from h)
    · exact issue_onlyVes (show execExp d v f s = _ from h)
    · exact issue_onlyVes (show execRcp d v f s = _ from h)
    · exact issue_onlyVes (show execRsqrt d v f s = _ from h)
    · exact ssum_onlyVes h
    · exact smaxa_onlyVes h
  · simp only [List.mem_cons, List.not_mem_nil, or_false] at hc
    apply OnlyPorts.frame
    rcases hc with rfl | rfl | rfl | rfl | rfl | rfl
    · exact .of_onDie h (.modEth _ _ _)
    · exact .poolHighCross h
    · exact .poolLowCross h
    · exact .pauseRepeat h
    · exact .ximelAckTimer h
    · exact .ximelNakResend h

end

/-! PROOF. Interfaces of virtual functions: a request that puts one back to CONFIG_UNLOCKED takes out one entry of a list that may hold two. -/

section
namespace Sys2Proof.Machine

/-- The guard runs with a session over the DOE mailbox, and the list of interface states names function 1 twice. -/
def lockedTwice : State :=
  { State.reset with
    regs := [(regKey 0 Reg.grdStatus, 1)]
    grd := { Grd.reset with sess := [⟨0, true, true⟩] }
    hst := { Hst.reset with tdi := [(1, 1), (1, 1)] } }

theorem lockedTwice_onDoe : OnDoe lockedTwice 0 := ⟨rfl, by decide, ⟨0, true, true⟩, rfl, rfl, rfl⟩

/-- STOP_INTERFACE_REQUEST takes out the first entry, and the interface reads as locked as before. -/
theorem lockedTwice_stays {t : State} (h : exec (.stopInterfaceRequest 0 1) lockedTwice = .next t) : t.tdi 1 = 1 := by
  cases h
  decide

end Sys2Proof.Machine

open Sys2Proof Sys2Proof.Machine

/-- Refutes O39: where the list of interface states is not in its canonical form and names a function twice, stopping the interface
leaves the second entry, so that its state is not CONFIG_UNLOCKED. -/
theorem not_interfacesAndKeys : ¬ Obligations.InterfacesAndKeys := by
  intro h
  obtain ⟨t, ht, hdest, -⟩ := (h.1 lockedTwice 0 1 (.stopInterfaceRequest 0 1) [0, 1, 2, 3] 0 lockedTwice_onDoe (by decide) (by decide) (by simp)).1 (by decide)
  rw [lockedTwice_stays ht] at hdest
  exact absurd hdest (by decide)

end

/-! PROOF. Partitions, contexts and the grants of the weirs. -/

section
namespace Sys2Proof.Machine

/-! ## The status of a partition -/

section
variable (s : State) (d p c : Nat) (sw run : Bool)

theorem regN_setPartStatus : (s.setPartStatus d p c sw run).regN d (Reg.seqPartStatus p) = c % 16 + 16 * b2n sw + 32 * b2n run := by
  unfold State.setPartStatus
  rw [State.regN_setRegN_same, Nat.mod_eq_of_lt]
  cases sw <;> cases run <;> simp only [b2n_true, b2n_false] <;> omega

@[simp] theorem curCtx_setPartStatus : (s.setPartStatus d p c sw run).curCtx d p = c % 16 := by
  unfold State.curCtx State.rf
  rw [regN_setPartStatus]
  unfold fld
  cases sw <;> cases run <;> simp only [b2n_true, b2n_false] <;> omega

@[simp] theorem switching_setPartStatus : (s.setPartStatus d p c sw run).rbit d (Reg.seqPartStatus p) 4 = sw := by
  unfold State.rbit
  rw [regN_setPartStatus]
  have : c % 16 < 16 := Nat.mod_lt _ (by decide)
  cases sw <;> cases run <;> simp only [bit, b2n_true, b2n_false, beq_iff_eq, beq_eq_false_iff_ne] <;> omega

@[simp] theorem running_setPartStatus : (s.setPartStatus d p c sw run).rbit d (Reg.seqPartStatus p) 5 = run := by
  unfold State.rbit
  rw [regN_setPartStatus]
  have : c % 16 < 16 := Nat.mod_lt _ (by decide)
  cases sw <;> cases run <;> simp only [bit, b2n_true, b2n_false, beq_iff_eq, beq_eq_false_iff_ne] <;> omega

@[simp] theorem mem_setPartStatus : (s.setPartStatus d p c sw run).mem = s.mem := rfl
@[simp] theorem seq_setPartStatus : (s.setPartStatus d p c sw run).seq = s.seq := rfl
@[simp] theorem part_setPartStatus : (s.setPartStatus d p c sw run).part = s.part := rfl

theorem regsBut_setPartStatus : RegsBut s (s.setPartStatus d p c sw run) [regKey d (Reg.seqPartStatus p)] :=
  (RegsBut.refl s _).setRegN (List.mem_singleton.mpr rfl) _

end

/-! ## Who runs next -/

/-- Whether a context is runnable follows the rings' registers and the descriptors. -/
theorem runnable_congr {s t : State} (hring : ∀ f ∈ ringFields, ∀ r, t.ringReg r f = s.ringReg r f) (hworks : t.seq.works = s.seq.works)
    (d p c : Nat) : t.runnable d p c = s.runnable d p c := by
  have hcfg := hring Reg.ringCfg (by simp [ringFields])
  have hpi := hring Reg.ringPi (by simp [ringFields])
  have hci := hring Reg.ringCi (by simp [ringFields])
  unfold State.runnable State.ringOn State.ringPart State.ringCtx State.ringCi State.ringPi
  simp only [hcfg, hpi, hci, hworks]


theorem leaveIdle_regsBut (s : State) (d p : Nat) : RegsBut s (s.leaveIdle d p) [regKey d (Reg.seqPartStatus p)] :=
  fun e o ho => leaveIdle_reg s d p e o (by simpa using ho)

/-- With no context running, the one named runs at once where it is runnable. -/
theorem leaveIdle_runs {s : State} {d p : Nat} (hon : s.partOn d p = true) (hsw : s.rbit d (Reg.seqPartStatus p) 4 = false)
    (hrun : s.rbit d (Reg.seqPartStatus p) 5 = false) (hr : s.runnable d p (s.curCtx d p) = true) :
    s.leaveIdle d p = s.setPartStatus d p (s.curCtx d p) false true := by
  have hsw' : bit (s.regN d (Reg.seqPartStatus p)) 4 = false := hsw
  have hrun' : bit (s.regN d (Reg.seqPartStatus p)) 5 = false := hrun
  have hr' : s.runnable d p (fld (s.regN d (Reg.seqPartStatus p)) 0 4) = true := hr
  simp only [State.leaveIdle, hon, hsw', hrun', hr', Bool.not_true, Bool.or_self, Bool.and_false, Bool.false_eq_true, if_false, if_true]
  rfl

/-- While a switch waits, giving up the die changes nothing. -/
theorem leaveIdle_switching {s : State} {d p : Nat} (hsw : s.rbit d (Reg.seqPartStatus p) 4 = true) : s.leaveIdle d p = s := by
  have hsw' : bit (s.regN d (Reg.seqPartStatus p)) 4 = true := hsw
  simp [State.leaveIdle, hsw']

/-! ## Enabling and disabling -/

section
variable (s : State) (d p : Nat)

theorem partCfg_block (hp : p < 16) : 0x100700 ≤ Reg.seqPartCfg p ∧ Reg.seqPartCfg p < 0x100740 := by
  simp only [Reg.seqPartCfg]; omega

theorem partStatus_block (hp : p < 16) : 0x100780 ≤ Reg.seqPartStatus p ∧ Reg.seqPartStatus p < 0x1007C0 := by
  simp only [Reg.seqPartStatus]; omega

theorem partStart_regsBut : RegsBut s (s.partStart d p) [regKey d (Reg.seqPartStatus p)] :=
  (regsBut_setPartStatus s d p 0 false false).trans (leaveIdle_regsBut _ d p)

theorem partStart_mem : (s.partStart d p).mem = s.mem := leaveIdle_mem _ d p

/-- A partition just enabled whose context 0 is runnable runs it. -/
theorem partStart_runs {s : State} {d p : Nat} (hp : p < 16) (hon : s.partOn d p = true) (hr : s.runnable d p 0 = true) :
    (s.partStart d p).curCtx d p = 0 ∧ (s.partStart d p).rbit d (Reg.seqPartStatus p) 5 = true := by
  have hb := regsBut_setPartStatus s d p 0 false false
  have hs := partStatus_block p hp
  have hcfg : (s.setPartStatus d p 0 false false).regN d (Reg.seqPartCfg p) = s.regN d (Reg.seqPartCfg p) :=
    hb.regN (by simp [Reg.seqPartCfg, Reg.seqPartStatus])
  have hrun : (s.setPartStatus d p 0 false false).runnable d p ((s.setPartStatus d p 0 false false).curCtx d p) = true := by
    rw [curCtx_setPartStatus, runnable_congr (fun f hf r => hb.ringReg (by simp [regKey]; omega) hf r) rfl]
    exact hr
  have hon' : (s.setPartStatus d p 0 false false).partOn d p = true := by
    unfold State.partOn State.rbit at hon ⊢
    rw [hcfg]
    exact hon
  unfold State.partStart
  rw [leaveIdle_runs hon' (switching_setPartStatus ..) (running_setPartStatus ..) hrun]
  exact ⟨by simp, by simp⟩

end

/-- A work that is in the list is found by its number. -/
theorem partStop_ends {s : State} {d p : Nat} {w : Work} (hw : w ∈ s.seq.works) (hon : w.on = d) (hp : w.part = p) (hst : w.started = false)
    (hen : w.ended = false) (hentry : w.entry = none) : ∃ v, (s.partStop d p).work w.id = some v ∧ v.ended = true ∧ v.res.status = 7 := by
  unfold State.partStop
  dsimp only
  refine endEach_ends _ 7 (fun x hx => ?_) w ?_
  · exact work_isSome_of_mem (s := s) (List.mem_of_mem_filter hx)
  · exact List.mem_filter.mpr ⟨hw, by simp [hon, hp, hst, hen, hentry]⟩

theorem partStop_fields (s : State) (d p : Nat) : ∃ q, s.partStop d p = { s.setPartStatus d p (s.curCtx d p) false false with seq := q } := by
  unfold State.partStop
  dsimp only
  obtain ⟨ws, e⟩ := endEach_state (s.seq.works.filter fun w => w.on == d && w.part == p && !w.started && !w.ended && w.entry.isNone) 7
    (({ s with seq.switchTo := kvErase s.seq.switchTo (16 * d + p) } : State).setPartStatus d p (s.curCtx d p) false false)
  exact ⟨_, e⟩

theorem partitionEnable_does (s : State) (d p slice : Nat) (hd : DieUp s d) (hp : p < 16) : Does (.partitionEnable d p slice) s fun t =>
    t.regN d (Reg.seqPartCfg p) = 1 + 2 * (slice % 2 ^ 16) ∧ t.mem = s.mem ∧
    (s.rbit d (Reg.seqPartCfg p) 0 = false → p < s.part.parts → s.runnable d p 0 = true → t.curCtx d p = 0 ∧ t.rbit d (Reg.seqPartStatus p) 5 = true) := by
  refine .onDie hd rfl ?_
  rw [if_pos hp]
  have hv : (1 + 2 * (slice % 2 ^ 16)) % 2 ^ 17 % 2 ^ 32 = 1 + 2 * (slice % 2 ^ 16) := by omega
  have hbit : bit (1 + 2 * (slice % 2 ^ 16)) 0 = true := by simp only [bit, beq_iff_eq]; omega
  set u := s.setRegN d (Reg.seqPartCfg p) ((1 + 2 * (slice % 2 ^ 16)) % 2 ^ 17) with hu
  have hcfg : u.regN d (Reg.seqPartCfg p) = 1 + 2 * (slice % 2 ^ 16) := by rw [hu, State.regN_setRegN_same, hv]
  unfold State.partCfgWrite
  dsimp only
  rw [← hu, hbit]
  cases hwas : s.rbit d (Reg.seqPartCfg p) 0
  · have hne : regKey d (Reg.seqPartCfg p) ∉ [regKey d (Reg.seqPartStatus p)] := by simp [Reg.seqPartCfg, Reg.seqPartStatus]
    refine ⟨((partStart_regsBut u d p).regN hne).trans hcfg, partStart_mem u d p, fun _ hparts hr => partStart_runs hp ?_ ?_⟩
    · simp only [State.partOn, State.rbit, hcfg, hbit, Bool.and_true, decide_eq_true_eq]
      exact hparts
    · have hb : RegsBut s u [regKey d (Reg.seqPartCfg p)] := (RegsBut.refl s _).setRegN (List.mem_singleton.mpr rfl) _
      have hblock := partCfg_block p hp
      rw [runnable_congr (fun f hf r => hb.ringReg (by simp [regKey]; omega) hf r) rfl]
      exact hr
  · exact ⟨hcfg, rfl, fun h => absurd h (by simp)⟩

theorem partitionDisable_does (s : State) (d p : Nat) (hd : DieUp s d) (hp : p < 16) (hwas : s.rbit d (Reg.seqPartCfg p) 0 = true) :
    Does (.partitionDisable d p) s fun t =>
    t.rbit d (Reg.seqPartCfg p) 0 = false ∧ t.rbit d (Reg.seqPartStatus p) 5 = false ∧ t.mem = s.mem ∧
    ∀ w ∈ s.seq.works, w.on = d → w.part = p → w.started = false → w.ended = false → w.entry = none →
      ∃ v, t.work w.id = some v ∧ v.ended = true ∧ v.res.status = 7 := by
  refine .onDie hd rfl ?_
  rw [if_pos hp]
  have hbit : bit (setBit (s.regN d (Reg.seqPartCfg p)) 0 false) 0 = false := bit_setFld_same _ 0 false
  have hlow : bit (setBit (s.regN d (Reg.seqPartCfg p)) 0 false % 2 ^ 17 % 2 ^ 32) 0 = false := by
    simp only [bit, beq_eq_false_iff_ne] at hbit ⊢
    omega
  unfold State.partCfgWrite
  dsimp only
  rw [hwas, hbit]
  set u := s.setRegN d (Reg.seqPartCfg p) (setBit (s.regN d (Reg.seqPartCfg p)) 0 false % 2 ^ 17) with hu
  obtain ⟨q, e⟩ := partStop_fields u d p
  have hne : regKey d (Reg.seqPartCfg p) ∉ [regKey d (Reg.seqPartStatus p)] := by simp [Reg.seqPartCfg, Reg.seqPartStatus]
  refine ⟨?_, ?_, ?_, fun w hw hon hpart hst hen hentry => partStop_ends (s := u) hw hon hpart hst hen hentry⟩
  · change (u.partStop d p).rbit d (Reg.seqPartCfg p) 0 = false
    rw [e]
    change bit ((u.setPartStatus d p (u.curCtx d p) false false).regN d (Reg.seqPartCfg p)) 0 = false
    rw [(regsBut_setPartStatus u d p _ _ _).regN hne, hu, State.regN_setRegN_same]
    exact hlow
  · change (u.partStop d p).rbit d (Reg.seqPartStatus p) 5 = false
    rw [e]
    exact running_setPartStatus u d p _ _ _
  · change (u.partStop d p).mem = s.mem
    rw [e]
    rfl

theorem partMaskWrite_does (s : State) (d p : Nat) (v : W32) (who : Master) (hd : DieUp s d) (hp : p < 16) (hwho : Master.system who = true) :
    (s.maskBad d p (v.toNat % 2 ^ 16) = false → exec (.partMaskWrite d p v who) s = .next (s.setRegN d (Reg.seqPartMask p) (v.toNat % 2 ^ 16))) ∧
    (s.maskBad d p (v.toNat % 2 ^ 16) = true → Does (.partMaskWrite d p v who) s fun t => t.rbit d Reg.seqPartErr p = true ∧
      t.regN d (Reg.seqPartMask p) = s.regN d (Reg.seqPartMask p) ∧ t.mem = s.mem) := by
  have hexec : exec (.partMaskWrite d p v who) s = onDie s d (s.partMaskWrite d p (v.toNat % 2 ^ 16)) := by
    change onDie s d _ = _
    rw [if_pos (by simp [hp, hwho])]
  refine ⟨fun hbad => ?_, fun hbad => .onDie hd hexec ?_⟩
  · rw [hexec, onDie_eq hd]
    rw [State.partMaskWrite, if_neg (by rw [hbad]; decide)]
  · rw [State.partMaskWrite, if_pos hbad]
    exact ⟨State.rbit_setRbit_same s d _ p true (by omega), State.regN_setRegN_other _ _ _ _ _ _ (by simp [Reg.seqPartMask, Reg.seqPartErr]; omega), rfl⟩

/-! ## Switches of contexts -/

theorem contextSwitch_does (s : State) (d p c ns : Nat) (hd : DieUp s d) (hon : s.partOn d p = true) (hsw : s.rbit d (Reg.seqPartStatus p) 4 = true)
    (hidle : s.engineBusy d p = false) (hto : kvFind s.seq.switchTo (16 * d + p) = some c) : Does (.contextSwitch d p ns) s fun t =>
      t.curCtx d p = c % 16 ∧ t.rbit d (Reg.seqPartStatus p) 4 = false ∧ t.rbit d (Reg.seqPartStatus p) 5 = true ∧ t.mem = s.mem ∧
      t.ctr d (Reg.seqSchCntLo p 0) = Nat.min ctrMax (s.ctr d (Reg.seqSchCntLo p 0) + 1) ∧
      t.ctr d (Reg.seqSchCntLo p 2) = Nat.min ctrMax (s.ctr d (Reg.seqSchCntLo p 2) + ns) := by
  refine .onDie hd rfl ?_
  dsimp only
  rw [hon, leaveIdle_switching hsw, hsw, hidle]
  set u := ({ s with seq.switchTo := kvErase s.seq.switchTo (16 * d + p) } : State).setPartStatus d p c false true with hu
  set x := (u.bump d (Reg.seqSchCntLo p 0) 1).bump d (Reg.seqSchCntLo p 2) ns with hx
  have hx0 : x.ctr d (Reg.seqSchCntLo p 0) = Nat.min ctrMax (s.ctr d (Reg.seqSchCntLo p 0) + 1) := by
    rw [hx, State.ctr_bump_other _ _ _ _ _ _ (by simp [Reg.seqSchCntLo]), State.ctr_bump_same]
    rfl
  have hx2 : x.ctr d (Reg.seqSchCntLo p 2) = Nat.min ctrMax (s.ctr d (Reg.seqSchCntLo p 2) + ns) := by
    rw [hx, State.ctr_bump_same, State.ctr_bump_other _ _ _ _ _ _ (by simp [Reg.seqSchCntLo])]
    rfl
  have hstat : x.curCtx d p = c % 16 ∧ x.rbit d (Reg.seqPartStatus p) 4 = false ∧ x.rbit d (Reg.seqPartStatus p) 5 = true :=
    ⟨curCtx_setPartStatus _ d p c false true, switching_setPartStatus _ d p c false true, running_setPartStatus _ d p c false true⟩
  simp only [Bool.not_true, Bool.false_eq_true, if_false, Bool.not_false, Bool.and_self, if_true, State.endSwitch, hto]
  rw [← hu, ← hx]
  split
  · refine ⟨hstat.1, hstat.2.1, hstat.2.2, rfl, ?_, ?_⟩
    · rw [State.ctr_bump_other _ _ _ _ _ _ (by simp [Reg.seqSchCntLo]), hx0]
    · rw [State.ctr_bump_other _ _ _ _ _ _ (by simp [Reg.seqSchCntLo]), hx2]
  · exact ⟨hstat.1, hstat.2.1, hstat.2.2, rfl, hx0, hx2⟩

theorem sliceExpire_does (s : State) (d p c : Nat) (hd : DieUp s d) (hon : s.partOn d p = true) (hslice : s.sliceOf d p ≠ 0)
    (hsw : s.rbit d (Reg.seqPartStatus p) 4 = false) (hrun : s.rbit d (Reg.seqPartStatus p) 5 = true) (hnext : s.nextCtx d p = some c) :
    Does (.sliceExpire d p) s fun t => t.rbit d (Reg.seqPartStatus p) 4 = true ∧
      t.curCtx d p = s.curCtx d p ∧ kvFind t.seq.switchTo (16 * d + p) = some c ∧ t.mem = s.mem := by
  refine .onDie hd rfl ?_
  have e : s.sliceEnd d p = s.beginSwitch d p c := by simp [State.sliceEnd, hon, hslice, hsw, hnext, hrun]
  rw [e]
  refine ⟨switching_setPartStatus s d p _ _ _, ?_, kvFind_kvPut_same _ _ _, rfl⟩
  refine (curCtx_setPartStatus s d p _ true true).trans (Nat.mod_eq_of_lt ?_)
  exact fld_lt _ 0 4

/-! ## Weirs -/

theorem setBucket_state (s : State) (b : Bucket) : ∃ l, s.setBucket b = { s with buckets := l } := ⟨_, rfl⟩

theorem fillWeir_state (s : State) (d path link ns : Nat) : ∃ l, s.fillWeir d path link ns = { s with buckets := l } := by
  refine foldl_keeps (P := fun t => ∃ l, t = { s with buckets := l }) (fun t p h => ?_) _ ⟨s.buckets, rfl⟩
  obtain ⟨l, rfl⟩ := h
  exact ⟨_, rfl⟩

/-- A partition's buckets after they are put back. -/
theorem bucket_setBucket (s : State) {b : Bucket} {d path link p : Nat} (hd : b.d = d) (hpath : b.path = path) (hlink : b.link = link) (hp : b.p = p) :
    (s.setBucket b).bucket d path link p = b := by
  subst hd hpath hlink hp
  unfold State.bucket State.setBucket
  dsimp only
  rw [List.find?_append, List.find?_eq_none.mpr]
  · simp
  · intro x hx
    have := (List.mem_filter.mp hx).2
    rw [Bool.not_eq_true'] at this
    rw [this]
    decide

theorem bucket_key (s : State) (d path link p : Nat) :
    (s.bucket d path link p).d = d ∧ (s.bucket d path link p).path = path ∧ (s.bucket d path link p).link = link ∧ (s.bucket d path link p).p = p := by
  unfold State.bucket
  cases h : s.buckets.find? fun b => b.d == d && b.path == path && b.link == link && b.p == p with
  | none => exact ⟨rfl, rfl, rfl, rfl⟩
  | some b =>
    have := List.find?_some h
    simp only [Bool.and_eq_true, beq_iff_eq] at this
    obtain ⟨⟨⟨h1, h2⟩, h3⟩, h4⟩ := this
    exact ⟨h1, h2, h3, h4⟩

/-- Without regulation a grant changes the rotation and the counter alone. -/
theorem weirTake_free {s : State} {d path link p : Nat} (h : s.rbit d Reg.weirCtrl path = false) (size : Nat) : s.weirTake d path link p size =
    ({ s with lastGrant := kvPut s.lastGrant (weirKey d path link) p }).bump d (Reg.weirBytesLo path p) ((size + 63) / 64) := by
  simp [State.weirTake, h]

theorem weirTake_charges {s : State} {d path link p : Nat} (h : s.rbit d Reg.weirCtrl path = true) (size : Nat) :
    ((s.weirTake d path link p size).bucket d path link p).guar = (s.bucket d path link p).guar - (size * 256 : Nat) ∧
    (s.weirTake d path link p size).ctr d (Reg.weirBytesLo path p) = Nat.min ctrMax (s.ctr d (Reg.weirBytesLo path p) + (size + 63) / 64) ∧
    (s.weirTake d path link p size).regs = s.regs := by
  obtain ⟨h1, h2, h3, h4⟩ := bucket_key s d path link p
  unfold State.weirTake
  dsimp only
  rw [h, if_pos rfl]
  refine ⟨?_, State.ctr_bump_same _ _ _ _, rfl⟩
  change ((s.setBucket _).bucket d path link p).guar = _
  rw [bucket_setBucket]
  exacts [h1, h2, h3, h4]

end Sys2Proof.Machine

open Sys2Proof Sys2Proof.Machine

/-- Settles O40: each clause follows one command through the registers that it writes. -/
theorem partitions : Obligations.Partitions := by
  refine ⟨partitionEnable_does, partitionDisable_does, partMaskWrite_does, fun s d p c ns hd hp => contextSwitch_does s d p c ns hd,
    fun s d p c hd hp => sliceExpire_does s d p c hd⟩

/-- Settles O41: an unregulated weir notes whom it granted, and a regulated one charges the buckets that the time before has filled. -/
theorem weirGrants : Obligations.WeirGrants := by
  intro s d path link ns waiting r p hd hrate hlink
  refine ⟨fun hoff hpick hpart => .onDie hd rfl ?_, fun hon hpick hpart => .onDie hd rfl ?_⟩
  · dsimp only
    rw [if_neg hrate, if_neg (by rw [hoff]; decide), hpick]
    dsimp only
    rw [hpart]
    dsimp only
    rw [weirTake_free hoff]
    refine ⟨?_, rfl, State.ctr_bump_same _ _ _ _, rfl, rfl⟩
    unfold kvGet
    exact congrArg (Option.getD · 15) (kvFind_kvPut_same _ _ _)
  · dsimp only
    rw [if_neg hrate, if_pos hon, hpick]
    dsimp only
    rw [hpart]
    dsimp only
    obtain ⟨l, e⟩ := fillWeir_state s d path (if path = 2 then link else 0) ns
    have hon' : (s.fillWeir d path (if path = 2 then link else 0) ns).rbit d Reg.weirCtrl path = true := by rw [e]; exact hon
    obtain ⟨hguar, hctr, hregs⟩ := weirTake_charges (link := if path = 2 then link else 0) (p := p) hon' r.size
    refine ⟨hguar, ?_, ?_⟩
    · rw [hctr, e]; rfl
    · rw [hregs, e]

end

/-! PROOF. Clock domains that start and stop. -/

section
namespace Sys2Proof.Machine

/-- Which domains run after one of them starts or stops. -/
theorem domainOn_setDomain (s : State) (d dom x : Nat) (b : Bool) (h : dom < 64) :
    (s.setDomain d dom b).domainOn d x = if x = dom then b else s.domainOn d x := by
  unfold State.domainOn State.setDomain
  rw [State.regPair_setRegPair]
  by_cases hx : x < 64
  · rw [bit_mod hx, bit_setBit]
  · have hlt : s.regPair d Reg.clkRunLo < 2 ^ x := (s.regPair_lt d _).trans_le (Nat.pow_le_pow_right (by decide) (by omega))
    rw [if_neg (by omega), bit_of_lt hlt, bit_of_lt ((Nat.mod_lt _ (by decide)).trans_le (Nat.pow_le_pow_right (by decide) (by omega)))]

@[simp] theorem domainOn_bump (s : State) (d off n e x : Nat) : (s.bump d off n).domainOn e x = s.domainOn e x := rfl
@[simp] theorem domainOn_bumpFree (s : State) (d off e x : Nat) : (s.bumpFree d off).domainOn e x = s.domainOn e x := rfl

/-- Waking a domain that the die has leaves it running and every other as it was. -/
theorem domainOn_wakeDomain {s : State} {d dom : Nat} (h : s.domainThere d dom = true) (x : Nat) :
    (s.wakeDomain d dom).domainOn d x = if x = dom then true else s.domainOn d x := by
  have hdom : dom < 44 := by
    simp only [State.domainThere, Bool.and_eq_true, decide_eq_true_eq] at h
    exact h.1.1
  unfold State.wakeDomain
  rw [h]
  cases hon : s.domainOn d dom
  · rw [if_pos (by rfl), domainOn_bumpFree, domainOn_bump, domainOn_setDomain _ _ _ _ _ (by omega)]
  · rw [if_neg (by simp)]
    split
    · rename_i hx
      rw [hx, hon]
    · rfl

theorem domainThere_wakeDomain (s : State) (d dom e x : Nat) : (s.wakeDomain d dom).domainThere e x = s.domainThere e x := by
  obtain ⟨r, c, o, n, h⟩ := wakeDomain_onlyRegs s d dom
  rw [h]
  rfl

/-- Every die has domains 5 to 7. -/
theorem domainThere_fabric (s : State) (d : Nat) {x : Nat} (hlo : 5 ≤ x) (hhi : x ≤ 7) : s.domainThere d x = true := by
  simp only [State.domainThere]
  have h1 : decide (x < 44) = true := by simp; omega
  have h2 : (x == 2) = false := by simp; omega
  have h3 : decide (41 ≤ x) = false := by simp; omega
  have h4 : decide (38 ≤ x) = false := by simp; omega
  simp [h1, h2, h3, h4]

theorem domainStart_does (s : State) (d dom : Nat) (hd : DieUp s d) (h : s.domainThere d dom = true) : Does (.domainStart d dom) s fun t =>
    t.domainOn d dom = true ∧ t.mem = s.mem ∧
      (fastDomain dom = true → t.domainOn d 5 = true ∧ t.domainOn d 6 = true ∧ t.domainOn d 7 = true) ∧
      ∀ x, x ≠ dom → ¬ (5 ≤ x ∧ x ≤ 7) → t.domainOn d x = s.domainOn d x := by
  refine .onDie hd rfl ?_
  rw [if_neg (by rw [h]; decide)]
  have hmem : ∀ l : List Nat, (l.foldl (fun s x => s.wakeDomain d x) (s.wakeDomain d dom)).mem = s.mem := fun l => by
    obtain ⟨r, c, o, n, e⟩ := (wakeDomain_onlyRegs s d dom).trans (.foldl (fun s x => wakeDomain_onlyRegs s d x) l _)
    rw [e]
  refine ⟨?_, hmem _, fun hfast => ?_, fun x hx hno => ?_⟩
  all_goals
    have w0 := domainOn_wakeDomain h
    have w5 := domainOn_wakeDomain (s := s.wakeDomain d dom) (domainThere_fabric _ d (x := 5) (by decide) (by decide))
    have w6 := domainOn_wakeDomain (s := (s.wakeDomain d dom).wakeDomain d 5) (domainThere_fabric _ d (x := 6) (by decide) (by decide))
    have w7 := domainOn_wakeDomain (s := ((s.wakeDomain d dom).wakeDomain d 5).wakeDomain d 6) (domainThere_fabric _ d (x := 7) (by decide) (by decide))
  · split
    · simp [w0, w5, w6, w7]
    · simp [w0]
  · rw [if_pos hfast]
    simp [w5, w6, w7]
  · have h5 : x ≠ 5 := by omega
    have h6 : x ≠ 6 := by omega
    have h7 : x ≠ 7 := by omega
    split
    · simp [w0, w5, w6, w7, hx, h5, h6, h7]
    · simp [w0, hx]

end Sys2Proof.Machine

open Sys2Proof Sys2Proof.Machine

/-- Settles O56: waking and stopping a domain set one bit of CLK_RUN. -/
theorem clockDomains : Obligations.ClockDomains := by
  intro s d dom hd
  refine ⟨fun h => ?_, domainStart_does s d dom hd, fun hstays => ?_, fun hdom hstays => .onDie hd rfl ?_⟩
  · change onDie s d _ = _
    rw [onDie_eq hd, if_pos (by rw [h]; rfl)]
  · change onDie s d _ = _
    rw [onDie_eq hd]
    dsimp only
    rw [if_pos]
    rcases hstays with h | h | h | h | h | ⟨h1, h2, h3⟩ <;> simp_all
  · dsimp only
    rw [if_neg]
    · refine ⟨?_, fun x hx => ?_, State.ctr_bump_same _ _ _ _, rfl⟩
      · rw [domainOn_bump, domainOn_setDomain _ _ _ _ _ hdom, if_pos rfl]
      · rw [domainOn_bump, domainOn_setDomain _ _ _ _ _ hdom, if_neg hx]
    · intro h
      apply hstays
      simp only [Bool.or_eq_true, Bool.and_eq_true, decide_eq_true_eq, Bool.not_eq_true'] at h
      tauto

end

/-! PROOF. What posting an event leaves unchanged, and then rings: enabling, doorbells, fetching and accepting. -/

section
namespace Sys2Proof.Machine

/-! ## Counters that accesses and events leave alone -/

namespace State

variable (s : State)

theorem ctr_congr {s t : State} (h : t.ctrs = s.ctrs) (d off : Nat) : t.ctr d off = s.ctr d off := by
  simp [ctr, h]

theorem ctr_bumpFree_other (d off e o : Nat) (h : regKey e o ≠ regKey d off) : (s.bumpFree d off).ctr e o = s.ctr e o :=
  ctr_bump_other _ d off _ e o h

/-- Accesses count in the blocks of the tile stores and the HBM alone. -/
theorem access_ctr_other (wr : Bool) (a len e o : Nat) (ho : o < 2 ^ 24) (hblock : o < 0xA0000 ∨ 0xC0000 ≤ o) :
    (s.access wr a len).ctr e o = s.ctr e o := by
  have hts : ∀ d i, i < 3 → regKey e o ≠ regKey d (Reg.tsCntLo i) := fun d i hi => regKey_ne ho (by unfold Reg.tsCntLo; omega) (by unfold Reg.tsCntLo; omega)
  have hhbm : ∀ d, regKey e o ≠ regKey d (Reg.hbmCntLo (b2n wr)) := fun d =>
    regKey_ne ho (by unfold Reg.hbmCntLo b2n; split <;> omega) (by unfold Reg.hbmCntLo b2n; split <;> omega)
  unfold access
  split
  · rfl
  · split
    · refine foldl_keeps (P := fun t : State => t.ctr e o = s.ctr e o) (fun t d h => ?_) _ rfl
      dsimp only
      split
      · exact (ctr_bump_other _ _ _ _ _ _ (hhbm d)).trans h
      · exact h
    · split
      · dsimp only
        rw [ctr_bumpFree_other _ _ _ _ _ (hts _ 2 (by decide)), ctr_bump_other _ _ _ _ _ _ (hts _ _ (by unfold b2n; split <;> omega))]
      · rfl

theorem hostReq_ctr (p : Option Nat) (wr data : Bool) (a len e o : Nat) : (s.hostReq p wr data a len).ctr e o = s.ctr e o := by
  obtain ⟨x, h⟩ := hostReq_state s p wr data a len
  rw [h]
  rfl

theorem write_ctr (a : Nat) (bs : List Byte) (tag : Bool) (e o : Nat) : (s.write a bs tag).ctr e o = s.ctr e o :=
  ctr_congr (write_ctrs s a bs tag) e o

theorem interrupt_ctr (p v e o : Nat) : (s.interrupt p v).ctr e o = s.ctr e o := by
  obtain ⟨h, x, eq⟩ := s.interrupt_state p v
  rw [eq]
  rfl

/-- Writing an event record counts it, and accesses to memory. -/
theorem evqWrite_ctr_other (p code d src : Nat) (payload : List Byte) (e o : Nat) (ho : o < 2 ^ 24) (hblock : o < 0xA0000 ∨ 0xC0000 ≤ o)
    (h : o ≠ Reg.ringCntLo 5) : (s.evqWrite p code d src payload).ctr e o = s.ctr e o := by
  have hne : regKey e o ≠ regKey d (Reg.ringCntLo 5) := regKey_ne ho (by decide) (.inr h)
  unfold evqWrite
  dsimp only
  generalize hu : State.bump _ d (Reg.ringCntLo 5) 1 = u
  have hctr : u.ctr e o = s.ctr e o := by
    rw [← hu, ctr_bump_other _ _ _ _ _ _ hne, ctr_setRegN, hostReq_ctr, access_ctr_other _ _ _ _ _ _ ho hblock, write_ctr, write_ctr]
  split
  · exact (interrupt_ctr _ _ _ _ _).trans hctr
  · exact hctr

/-- Posting an event counts it as written or lost, and accesses to memory. -/
theorem event_ctr_other (p code d src : Nat) (payload : List Byte) (e o : Nat) (ho : o < 2 ^ 24) (hblock : o < 0xA0000 ∨ 0xC0000 ≤ o)
    (h5 : o ≠ Reg.ringCntLo 5) (h6 : o ≠ Reg.ringCntLo 6) : (s.event p code d src payload).ctr e o = s.ctr e o := by
  unfold event
  split
  · exact s.evqWrite_ctr_other p code d src payload e o ho hblock h5
  · exact ctr_bump_other _ _ _ _ _ _ (regKey_ne ho (by decide) (.inr h6))

theorem event_regsBut (p code d src : Nat) (payload : List Byte) : RegsBut s (s.event p code d src payload) [regKey 0 (Reg.evqTail p)] :=
  fun e o h => s.event_reg p code d src payload e o (by simpa using h)

theorem evqWrite_regsBut (p code d src : Nat) (payload : List Byte) : RegsBut s (s.evqWrite p code d src payload) [regKey 0 (Reg.evqTail p)] := by
  obtain ⟨m, po, c, k, q, h, o, e⟩ := s.evqWrite_state p code d src payload
  rw [e]
  exact ((RegsBut.refl s _).setRegN (List.mem_singleton.mpr rfl) _).congr rfl rfl

end State

/-! ## Registers of a ring -/

theorem ringPart_lt (s : State) (r : Nat) : s.ringPart r < 16 := fld_lt _ 2 4

/-- Distinct fields of a ring are distinct registers. -/
theorem ringReg_setRing_other (s : State) (r v : Nat) {f g : Nat → Nat} (h : g (ringNo r) ≠ f (ringNo r)) :
    (s.setRing r f v).ringReg r g = s.ringReg r g := State.regN_setRegN_other _ _ _ _ _ _ (by simpa using h)

theorem ringReg_setRing_same (s : State) (r v : Nat) (f : Nat → Nat) : (s.setRing r f v).ringReg r f = v % 2 ^ 32 :=
  State.regN_setRegN_same _ _ _ _

/-- A ring whose configuration reads as before is as it was in all that follows from it. -/
theorem ringOn_of_cfg {s t : State} {r : Nat} (h : t.ringReg r Reg.ringCfg = s.ringReg r Reg.ringCfg) :
    t.ringOn r = s.ringOn r ∧ t.ringPart r = s.ringPart r := by
  simp [State.ringOn, State.ringPart, h]

/-! ## Enabling and disabling -/

theorem fixLog2_lt {v lo w : Nat} (h : v < 2 ^ w) (hw : lo + 5 ≤ w) : fixLog2 v lo < 2 ^ w := by
  unfold fixLog2
  split
  · exact h
  · exact setFld_lt h hw

theorem bit_fixLog2 (v lo i : Nat) (h : i < lo) : bit (fixLog2 v lo) i = bit v i := by
  unfold fixLog2
  split
  · rfl
  · exact bit_setFld_other _ _ _ _ _ (.inl h)

/-- The four indices of a ring set to 0, and its two error bits. -/
theorem clearedRing_reads (u : State) (r : Nat) :
    let t := (((((u.setRing r Reg.ringPi 0).setRing r Reg.ringCi 0).setRing r Reg.cqTail 0).setRing r Reg.cqHead 0).setRingStat r 2 false).setRingStat r 3 false
    t.ringReg r Reg.ringCfg = u.ringReg r Reg.ringCfg ∧ t.ringPi r = 0 ∧ t.ringCi r = 0 ∧ t.cqTail r = 0 ∧ t.cqHead r = 0 ∧
      t.ringStat r 2 = false ∧ t.ringStat r 3 = false := by
  set v := (((u.setRing r Reg.ringPi 0).setRing r Reg.ringCi 0).setRing r Reg.cqTail 0).setRing r Reg.cqHead 0 with hv
  have hkeep : ∀ f : Nat → Nat, f (ringNo r) ≠ Reg.ringStatus (ringNo r) →
      ((v.setRingStat r 2 false).setRingStat r 3 false).ringReg r f = v.ringReg r f := fun f hf =>
    (State.regN_setRegN_other _ _ _ _ _ _ (by simpa using hf)).trans (State.regN_setRegN_other _ _ _ _ _ _ (by simpa using hf))
  have hcfg : v.ringReg r Reg.ringCfg = u.ringReg r Reg.ringCfg := by
    rw [hv, ringReg_setRing_other _ _ _ (by simp [Reg.ringCfg, Reg.cqHead]), ringReg_setRing_other _ _ _ (by simp [Reg.ringCfg, Reg.cqTail]),
      ringReg_setRing_other _ _ _ (by simp [Reg.ringCfg, Reg.ringCi]), ringReg_setRing_other _ _ _ (by simp [Reg.ringCfg, Reg.ringPi])]
  have hpi : v.ringReg r Reg.ringPi = 0 := by
    rw [hv, ringReg_setRing_other _ _ _ (by simp [Reg.ringPi, Reg.cqHead]), ringReg_setRing_other _ _ _ (by simp [Reg.ringPi, Reg.cqTail]),
      ringReg_setRing_other _ _ _ (by simp [Reg.ringPi, Reg.ringCi]), ringReg_setRing_same]
    rfl
  have hci : v.ringReg r Reg.ringCi = 0 := by
    rw [hv, ringReg_setRing_other _ _ _ (by simp [Reg.ringCi, Reg.cqHead]), ringReg_setRing_other _ _ _ (by simp [Reg.ringCi, Reg.cqTail]), ringReg_setRing_same]
    rfl
  have htail : v.ringReg r Reg.cqTail = 0 := by
    rw [hv, ringReg_setRing_other _ _ _ (by simp [Reg.cqTail, Reg.cqHead]), ringReg_setRing_same]
    rfl
  have hhead : v.ringReg r Reg.cqHead = 0 := by
    rw [hv, ringReg_setRing_same]
    rfl
  exact ⟨(hkeep _ (by simp [Reg.ringCfg, Reg.ringStatus])).trans hcfg, (hkeep _ (by simp [Reg.ringPi, Reg.ringStatus])).trans hpi,
    (hkeep _ (by simp [Reg.ringCi, Reg.ringStatus])).trans hci, (hkeep _ (by simp [Reg.cqTail, Reg.ringStatus])).trans htail,
    (hkeep _ (by simp [Reg.cqHead, Reg.ringStatus])).trans hhead,
    (State.rbit_setRbit _ _ _ 2 _ (by decide)).trans (State.rbit_setRbit_same _ _ _ 2 _ (by decide)), State.rbit_setRbit_same _ _ _ 3 _ (by decide)⟩

theorem resetRing_reads (s : State) (r : Nat) :
    (s.resetRing r).ringReg r Reg.ringCfg = s.ringReg r Reg.ringCfg ∧ (s.resetRing r).ringPi r = 0 ∧ (s.resetRing r).ringCi r = 0 ∧
      (s.resetRing r).cqTail r = 0 ∧ (s.resetRing r).cqHead r = 0 ∧ (s.resetRing r).ringStat r 2 = false ∧ (s.resetRing r).ringStat r 3 = false :=
  clearedRing_reads { s with seq.fetched := s.seq.fetched.filter fun x => x.ring != r } r

theorem resetRing_mem (s : State) (r : Nat) : (s.resetRing r).mem = s.mem := rfl

theorem ringStart_reads (s : State) (r : Nat) :
    (s.ringStart r).ringReg r Reg.ringCfg = s.ringReg r Reg.ringCfg ∧ (s.ringStart r).ringPi r = 0 ∧ (s.ringStart r).ringCi r = 0 ∧
      (s.ringStart r).cqTail r = 0 ∧ (s.ringStart r).cqHead r = 0 ∧ (s.ringStart r).ringStat r 2 = false ∧ (s.ringStart r).ringStat r 3 = false := by
  unfold State.ringStart
  exact resetRing_reads _ r

theorem ringStart_mem (s : State) (r : Nat) : (s.ringStart r).mem = s.mem := by
  unfold State.ringStart
  exact resetRing_mem _ r

/-- The value RING_CFG takes as a ring is enabled: 22 bits, ENABLE among them. -/
theorem enabledCfg (c : Nat) (v : Nat) (hv : fixLog2 (fixLog2 (setBit c 0 true % 2 ^ 22) 12) 17 = v) : v < 2 ^ 32 ∧ bit v 0 = true := by
  have hlt : fixLog2 (fixLog2 (setBit c 0 true % 2 ^ 22) 12) 17 < 2 ^ 22 :=
    fixLog2_lt (fixLog2_lt (Nat.mod_lt _ (by decide)) (by decide)) (by decide)
  refine ⟨hv ▸ hlt.trans (by decide), ?_⟩
  rw [← hv, bit_fixLog2 _ _ _ (by decide), bit_fixLog2 _ _ _ (by decide), bit_mod (by decide), bit_setBit, if_pos rfl]

theorem ringCfgWrite_on (s : State) (r v : Nat) (hoff : s.ringOn r = false) (hbit : bit v 0 = true) :
    s.ringCfgWrite r v = (s.setRing r Reg.ringCfg (fixLog2 (fixLog2 (v % 2 ^ 22) 12) 17)).ringStart r := by
  unfold State.ringCfgWrite
  rw [if_neg (by rw [hoff]; decide), if_pos hbit]

theorem ringEnable_does (s : State) (r : Nat) (cfg : W32) (hd : DieUp s (ringDie r)) (hoff : s.ringOn r = false) :
    Does (.ringEnable r cfg) s fun t => t.ringOn r = true ∧ t.ringPi r = 0 ∧ t.ringCi r = 0 ∧ t.cqHead r = 0 ∧
      t.cqTail r = 0 ∧ t.ringStat r 2 = false ∧ t.ringStat r 3 = false ∧ t.mem = s.mem ∧
      t.ringReg r Reg.ringCfg = fixLog2 (fixLog2 (setBit cfg.toNat 0 true % 2 ^ 22) 12) 17 := by
  refine .onDie hd rfl ?_
  have hbit : bit (setBit cfg.toNat 0 true) 0 = true := by rw [bit_setBit, if_pos rfl]
  rw [ringCfgWrite_on s r _ hoff hbit]
  generalize hv : fixLog2 (fixLog2 (setBit cfg.toNat 0 true % 2 ^ 22) 12) 17 = v
  obtain ⟨hlt, hv0⟩ := enabledCfg _ v hv
  obtain ⟨hcfg, hpi, hci, htail, hhead, h2, h3⟩ := ringStart_reads (s.setRing r Reg.ringCfg v) r
  have hcfg' := hcfg.trans ((ringReg_setRing_same s r v Reg.ringCfg).trans (Nat.mod_eq_of_lt hlt))
  refine ⟨?_, hpi, hci, hhead, htail, h2, h3, ringStart_mem _ r, hcfg'⟩
  unfold State.ringOn
  rw [hcfg', hv0]

theorem ringDisable_does (s : State) (r : Nat) (hd : DieUp s (ringDie r)) (hon : s.ringOn r = true) :
    Does (.ringDisable r) s fun t => t.ringOn r = false ∧ (∀ x ∈ t.seq.fetched, x.ring ≠ r) ∧ t.seq.works = s.seq.works ∧
      t.mem = s.mem ∧ t.ringPi r = s.ringPi r ∧ t.ringCi r = s.ringCi r ∧ RegsBut s t [regKey (ringDie r) (Reg.ringCfg (ringNo r))] := by
  refine .onDie hd rfl ?_
  rw [if_pos hon]
  refine ⟨?_, fun x hx => ?_, rfl, rfl, ringReg_setRing_other s r _ (by simp [Reg.ringPi, Reg.ringCfg]),
    ringReg_setRing_other s r _ (by simp [Reg.ringCi, Reg.ringCfg]), (RegsBut.refl s _).setRegN (List.mem_singleton.mpr rfl) _⟩
  · have e : (s.ringStop r).ringReg r Reg.ringCfg = setBit (s.ringReg r Reg.ringCfg) 0 false := by
      refine (ringReg_setRing_same s r _ Reg.ringCfg).trans (Nat.mod_eq_of_lt ?_)
      exact setFld_lt (s.regN_lt _ _) (by decide)
    unfold State.ringOn
    rw [e, bit_setBit, if_pos rfl]
  · simpa using (List.mem_filter.mp hx).2

theorem evqEnable_does (s : State) (p : Nat) (cfg : W32) (hd : DieUp s 0) (hp : p < 16) (hoff : s.rbit 0 (Reg.evqCfg p) 0 = false) :
    Does (.evqEnable p cfg) s fun t => t.rbit 0 (Reg.evqCfg p) 0 = true ∧ t.regN 0 (Reg.evqHead p) = 0 ∧ t.regN 0 (Reg.evqTail p) = 0 ∧
    t.regN 0 (Reg.evqCfg p) = fixLog2 (setBit cfg.toNat 0 true % 64) 1 ∧ t.mem = s.mem ∧
    RegsBut s t [regKey 0 (Reg.evqCfg p), regKey 0 (Reg.evqHead p), regKey 0 (Reg.evqTail p)] := by
  refine .onDie hd rfl ?_
  rw [if_pos hp]
  have hoff' : bit (s.regN 0 (Reg.evqCfg p)) 0 = false := hoff
  have hbit : bit (setBit cfg.toNat 0 true) 0 = true := by rw [bit_setBit, if_pos rfl]
  set v := fixLog2 (setBit cfg.toNat 0 true % 64) 1 with hv
  have hlt : v < 2 ^ 32 := (fixLog2_lt (w := 6) (Nat.mod_lt _ (by decide)) (by decide)).trans (by decide)
  have hv0 : bit v 0 = true := by
    rw [hv, bit_fixLog2 _ _ _ (by decide), show 64 = 2 ^ 6 from rfl, bit_mod (by decide), hbit]
  have e : s.evqCfgWrite p (setBit cfg.toNat 0 true) =
      ((s.setRegN 0 (Reg.evqCfg p) v).setRegN 0 (Reg.evqTail p) 0).setRegN 0 (Reg.evqHead p) 0 := by
    simp only [State.evqCfgWrite, hoff', hbit, if_true, Bool.false_eq_true, if_false]
    rfl
  rw [e]
  have hcfg : (((s.setRegN 0 (Reg.evqCfg p) v).setRegN 0 (Reg.evqTail p) 0).setRegN 0 (Reg.evqHead p) 0).regN 0 (Reg.evqCfg p) = v := by
    rw [State.regN_setRegN_other _ _ _ _ _ _ (by simp [Reg.evqCfg, Reg.evqHead]), State.regN_setRegN_other _ _ _ _ _ _ (by simp [Reg.evqCfg, Reg.evqTail]),
      State.regN_setRegN_same, Nat.mod_eq_of_lt hlt]
  refine ⟨?_, State.regN_setRegN_same _ _ _ _, ?_, hcfg, rfl, ?_⟩
  · unfold State.rbit
    rw [hcfg, hv0]
  · rw [State.regN_setRegN_other _ _ _ _ _ _ (by simp [Reg.evqTail, Reg.evqHead]), State.regN_setRegN_same]
    rfl
  · exact (((RegsBut.refl s _).setRegN (by simp) _).setRegN (by simp) _).setRegN (by simp) _

end Sys2Proof.Machine

open Sys2Proof Sys2Proof.Machine

/-- Settles O48: a ring or an event queue that goes on takes its configuration and starts its indices anew; one that goes off keeps them. -/
theorem ringSwitches : Obligations.RingSwitches := by
  refine ⟨fun s r cfg hd => ⟨ringEnable_does s r cfg hd, fun hon => ?_, ringDisable_does s r hd, fun hoff => ?_⟩, evqEnable_does⟩
  · change onDie s _ _ = _
    have hbit : bit (setBit cfg.toNat 0 true) 0 = true := by rw [bit_setBit, if_pos rfl]
    rw [onDie_eq hd, State.ringCfgWrite, if_pos hon, if_pos hbit]
  · change onDie s _ _ = _
    rw [onDie_eq hd, if_neg (by rw [hoff]; decide)]

end

/-! PROOF. Doorbells, taken and turned away; fetching, accepting and unmasking. -/

section
namespace Sys2Proof.Machine

/-! ## What a doorbell and the sequencer's choice of a context leave alone -/

/-- The registers that events and the running of contexts write lie outside the block of rings. -/
theorem seqPartStatus_outside (d : Nat) {p : Nat} (hp : p < 16) : ∀ k ∈ [regKey d (Reg.seqPartStatus p)], k % 2 ^ 24 < 0x110000 ∨ 0x110800 ≤ k % 2 ^ 24 := by
  intro k hk
  rw [List.mem_singleton.mp hk]
  unfold regKey Reg.seqPartStatus
  omega

theorem evqTail_outside {p : Nat} (hp : p < 16) : ∀ k ∈ [regKey 0 (Reg.evqTail p)], k % 2 ^ 24 < 0x110000 ∨ 0x110800 ≤ k % 2 ^ 24 := by
  intro k hk
  rw [List.mem_singleton.mp hk]
  unfold regKey Reg.evqTail
  omega

theorem leaveIdle_ring (s : State) (d : Nat) {p : Nat} (hp : p < 16) {f : Nat → Nat} (hf : f ∈ ringFields) (r : Nat) :
    (s.leaveIdle d p).ringReg r f = s.ringReg r f := (leaveIdle_regsBut s d p).ringReg (seqPartStatus_outside d hp) hf r

theorem leaveIdle_seq (s : State) (d p : Nat) : ∃ q, (s.leaveIdle d p).seq = { s.seq with switchTo := q } := by
  obtain ⟨r, q, e⟩ := leaveIdle_state s d p
  exact ⟨q, by rw [e]⟩

theorem leaveIdle_ctr (s : State) (d p e o : Nat) : (s.leaveIdle d p).ctr e o = s.ctr e o := by
  obtain ⟨r, q, h⟩ := leaveIdle_state s d p
  rw [h]
  rfl

theorem bell_alone {s : State} {r loc : Nat} {b : Bell} {act : State → Nat → Master → State} (hr : s.inReset (ringDie r) = false)
    (hb : s.bellBarred r b.master = false) : s.bell r loc b none act = act s b.value.toNat b.master := by
  unfold State.bell State.bell1
  rw [if_neg (by rw [hr]; decide)]
  dsimp only
  rw [if_neg (by rw [hb]; decide)]

/-! ## A doorbell that is taken -/

theorem bellPi_taken {s : State} {r v : Nat} {m : Master} (hserve : s.isServing r = false ∨ m = .sequencer) (hv : v < 2 ^ 32)
    (hon : s.ringOn r = true) (hroom : modSub 32 v (s.ringPi r) ≤ s.ringSize r - modSub 32 (s.ringPi r) (s.ringCi r)) :
    s.bellPi r v m = ((s.setRing r Reg.ringPi v).takenBell r).leaveIdle (ringDie r) (s.ringPart r) := by
  have hm : v % 2 ^ 32 = v := Nat.mod_eq_of_lt hv
  have hbar : ¬ ((s.isServing r && decide (m ≠ .sequencer)) = true) := by
    rcases hserve with h | h <;> simp [h]
  unfold State.bellPi
  dsimp only
  rw [hm, if_neg hbar, if_neg (by rw [Nat.div_eq_of_lt hv]; exact fun h => h rfl), if_neg (by rw [hon]; decide), if_pos hroom]

theorem bellPi_taken_does {s : State} {r v : Nat} (hv : v < 2 ^ 32) :
    let t := ((s.setRing r Reg.ringPi v).takenBell r).leaveIdle (ringDie r) (s.ringPart r)
    t.ringPi r = v ∧ t.ctr (ringDie r) (Reg.ringCntLo 2) = Nat.min ctrMax (s.ctr (ringDie r) (Reg.ringCntLo 2) + 1) ∧
      t.mem = s.mem ∧ t.seq.works = s.seq.works := by
  obtain ⟨q, hq⟩ := leaveIdle_seq ((s.setRing r Reg.ringPi v).takenBell r) (ringDie r) (s.ringPart r)
  refine ⟨?_, ?_, leaveIdle_mem _ _ _, by rw [hq]; rfl⟩
  · refine (leaveIdle_ring _ _ (ringPart_lt s r) (by simp [ringFields]) r).trans ?_
    exact (State.regN_setRegN_same _ _ _ _).trans (Nat.mod_eq_of_lt hv)
  · exact (leaveIdle_ctr _ _ _ _ _).trans (State.ctr_bump_same _ _ _ _)

theorem bellCq_taken {s : State} {r v : Nat} (hv : v < 2 ^ 33) (hon : s.ringOn r = true)
    (hroom : modSub 32 (v % 2 ^ 32) (s.cqHead r) ≤ modSub 32 (s.cqTail r) (s.cqHead r)) :
    s.bellCq r v = { (s.setRing r Reg.cqHead (v % 2 ^ 32)).takenBell r with seq := { s.seq with cqArm := armList s.seq.cqArm r (bit v 32) } } := by
  unfold State.bellCq
  dsimp only
  rw [if_neg (by rw [Nat.div_eq_of_lt hv]; exact fun h => h rfl), if_neg (by rw [hon]; decide), if_pos hroom]
  rfl

theorem bellEvq_taken {s : State} {r v : Nat} (hv : v < 2 ^ 33) (hon : s.ringOn r = true)
    (hroom : modSub 32 (v % 2 ^ 32) (s.regN 0 (Reg.evqHead (s.ringPart r))) ≤ s.evqUsed (s.ringPart r)) :
    s.bellEvq r v = State.postOverflow { (s.setRegN 0 (Reg.evqHead (s.ringPart r)) (v % 2 ^ 32)).takenBell r with
      seq := { s.seq with evqArm := armList s.seq.evqArm (s.ringPart r) (bit v 32) } } (s.ringPart r) (ringDie r) := by
  unfold State.bellEvq
  dsimp only
  rw [if_neg (by rw [Nat.div_eq_of_lt hv]; exact fun h => h rfl), if_neg (by rw [hon]; decide), if_pos hroom]
  rfl

theorem evqHead_ne_tail (p q : Nat) : regKey 0 (Reg.evqHead p) ≠ regKey 0 (Reg.evqTail q) := by
  unfold regKey Reg.evqHead Reg.evqTail
  omega

theorem postOverflow_reads (s : State) (p d : Nat) :
    (s.postOverflow p d).regN 0 (Reg.evqHead p) = s.regN 0 (Reg.evqHead p) ∧ (s.postOverflow p d).ctr d (Reg.ringCntLo 2) = s.ctr d (Reg.ringCntLo 2) := by
  unfold State.postOverflow
  dsimp only
  split
  · exact ⟨rfl, rfl⟩
  · refine ⟨(State.evqWrite_regsBut _ p _ _ _ _).regN ?_, State.evqWrite_ctr_other _ _ _ _ _ _ _ _ (by decide) (by decide) (by decide)⟩
    simpa using evqHead_ne_tail p p

theorem addNew_mem (x : Nat) (l : List Nat) : x ∈ addNew x l := by
  unfold addNew
  split
  · assumption
  · simp

/-! ## A doorbell that is turned away -/

theorem doorbellEvent_regsBut (s : State) (r v cause : Nat) : RegsBut s (s.doorbellEvent r v cause) [regKey 0 (Reg.evqTail (s.ringPart r))] :=
  s.event_regsBut _ _ _ _ _

theorem rejectBell_does (s : State) (r v cause : Nat) :
    let t := s.rejectBell r v cause
    t.ringStat r 3 = true ∧ t.ringPi r = s.ringPi r ∧ t.cqHead r = s.cqHead r ∧
      t.regN 0 (Reg.evqHead (s.ringPart r)) = s.regN 0 (Reg.evqHead (s.ringPart r)) ∧
      t.ctr (ringDie r) (Reg.ringCntLo 3) = Nat.min ctrMax (s.ctr (ringDie r) (Reg.ringCntLo 3) + 1) := by
  set u := (s.bump (ringDie r) (Reg.ringCntLo 3) 1).setRingStat r 3 true with hu
  have hev := doorbellEvent_regsBut u r v cause
  have hout := evqTail_outside (ringPart_lt u r)
  have hother : ∀ f ∈ ringFields, f (ringNo r) ≠ Reg.ringStatus (ringNo r) → (u.doorbellEvent r v cause).ringReg r f = s.ringReg r f := fun f hf hne =>
    (hev.ringReg hout hf r).trans (State.regN_setRegN_other _ _ _ _ _ _ (by simpa using hne))
  refine ⟨?_, hother Reg.ringPi (by simp [ringFields]) (by simp [Reg.ringPi, Reg.ringStatus]),
    hother Reg.cqHead (by simp [ringFields]) (by simp [Reg.cqHead, Reg.ringStatus]), ?_, ?_⟩
  · have h : (u.doorbellEvent r v cause).ringReg r Reg.ringStatus = u.ringReg r Reg.ringStatus := hev.ringReg hout (by simp [ringFields]) r
    change bit ((u.doorbellEvent r v cause).ringReg r Reg.ringStatus) 3 = true
    rw [h]
    exact State.rbit_setRbit_same _ _ _ 3 _ (by decide)
  · refine (hev.regN (by simpa using evqHead_ne_tail _ _)).trans (State.regN_setRegN_other _ _ _ _ _ _ ?_)
    have := ringField_block (f := Reg.ringStatus) (by simp [ringFields]) r
    have := ringPart_lt s r
    exact State.regKey_ne (by unfold Reg.evqHead; omega) (by omega) (.inr (by unfold Reg.evqHead; omega))
  · refine (State.event_ctr_other _ _ _ _ _ _ _ _ (by decide) (by decide) (by decide) (by decide)).trans ?_
    exact State.ctr_bump_same _ _ _ _


theorem bellPi_off {s : State} {r v : Nat} {m : Master} (hserve : s.isServing r = false) (h : s.ringOn r = false ∨ 2 ^ 33 ≤ v) :
    ∃ cause, s.bellPi r v m = s.rejectBell r v cause := by
  unfold State.bellPi
  dsimp only
  rw [if_neg (by simp [hserve])]
  split
  · exact ⟨_, rfl⟩
  · have hoff : s.ringOn r = false := h.resolve_right (by omega)
    rw [if_pos (by rw [hoff]; decide)]
    exact ⟨_, rfl⟩

theorem bellCq_off {s : State} {r v : Nat} (h : s.ringOn r = false ∨ 2 ^ 33 ≤ v) : ∃ cause, s.bellCq r v = s.rejectBell r v cause := by
  unfold State.bellCq
  dsimp only
  split
  · exact ⟨_, rfl⟩
  · have hoff : s.ringOn r = false := h.resolve_right (by omega)
    rw [if_pos (by rw [hoff]; decide)]
    exact ⟨_, rfl⟩

theorem bellEvq_off {s : State} {r v : Nat} (h : s.ringOn r = false ∨ 2 ^ 33 ≤ v) : ∃ cause, s.bellEvq r v = s.rejectBell r v cause := by
  unfold State.bellEvq
  dsimp only
  split
  · exact ⟨_, rfl⟩
  · have hoff : s.ringOn r = false := h.resolve_right (by omega)
    rw [if_pos (by rw [hoff]; decide)]
    exact ⟨_, rfl⟩

/-! ## Fetching -/

theorem hostReq_seq (s : State) (p : Option Nat) (wr data : Bool) (a len : Nat) : (s.hostReq p wr data a len).seq = s.seq := by
  obtain ⟨o, h⟩ := hostReq_state s p wr data a len
  rw [h]

theorem access_seq (s : State) (wr : Bool) (a len : Nat) : (s.access wr a len).seq = s.seq := by
  obtain ⟨c, k, h⟩ := State.access_state s wr a len
  rw [h]

/-- What is fetched stays fetched while more slots are read. -/
theorem fetchSlots_mem (r n : Nat) (s : State) {x : Slot} (hx : x ∈ s.seq.fetched) : x ∈ (State.fetchSlots r n s).seq.fetched := by
  induction n generalizing s with
  | zero => exact hx
  | succ n ih =>
    unfold State.fetchSlots
    dsimp only
    split
    · exact hx
    · split
      · refine ih _ ?_
        rw [hostReq_seq, access_seq]
        exact List.mem_append_left _ hx
      · obtain ⟨c, k, g, m, po, q, l, h, o, he, -⟩ := State.event_state (s.setRingStat r 2 true) (s.ringPart r) 0x05 (ringDie r) r
          (natLe 1 r ++ natLe 3 0 ++ natLe 6 (s.slotAddr r (s.nextFetch r)))
        rw [he]
        exact hx

theorem fetchSlots_reads {r n : Nat} {s : State} (hidx : s.nextFetch r ≠ s.ringPi r) (herr : s.ringStat r 2 = false)
    (hread : s.slotReadable (s.slotAddr r (s.nextFetch r)) = true) :
    (⟨r, s.nextFetch r, s.bytes (s.slotAddr r (s.nextFetch r)) 64, s.tagged (s.slotAddr r (s.nextFetch r)) 64⟩ : Slot) ∈
      (State.fetchSlots r (n + 1) s).seq.fetched := by
  unfold State.fetchSlots
  dsimp only
  rw [if_neg (by simp [hidx, herr]), if_pos hread]
  refine fetchSlots_mem r n _ ?_
  rw [hostReq_seq, access_seq]
  exact List.mem_append_right _ (List.mem_singleton.mpr rfl)

theorem fetchSlots_unreadable {r n : Nat} {s : State} (hidx : s.nextFetch r ≠ s.ringPi r) (herr : s.ringStat r 2 = false)
    (hread : s.slotReadable (s.slotAddr r (s.nextFetch r)) = false) :
    (State.fetchSlots r (n + 1) s).ringStat r 2 = true ∧ (State.fetchSlots r (n + 1) s).seq.fetched = s.seq.fetched := by
  unfold State.fetchSlots
  dsimp only
  rw [if_neg (by simp [hidx, herr]), if_neg (by rw [hread]; decide)]
  constructor
  · have h := (State.event_regsBut (s.setRingStat r 2 true) (s.ringPart r) 0x05 (ringDie r) r
      (natLe 1 r ++ natLe 3 0 ++ natLe 6 (s.slotAddr r (s.nextFetch r)))).ringReg (evqTail_outside (ringPart_lt s r)) (f := Reg.ringStatus) (by simp [ringFields]) r
    unfold State.ringStat
    rw [h]
    exact State.rbit_setRbit_same _ _ _ 2 _ (by decide)
  · obtain ⟨c, k, g, m, po, q, l, h, o, he, -⟩ := State.event_state (s.setRingStat r 2 true) (s.ringPart r) 0x05 (ringDie r) r
      (natLe 1 r ++ natLe 3 0 ++ natLe 6 (s.slotAddr r (s.nextFetch r)))
    rw [he]
    rfl

/-! ## Accepting -/

/-- What follows an acceptance keeps the index that it moved, the descriptors, their next number and the slots fetched. -/
structure RingKept (r : Nat) (s t : State) : Prop where
  ci : t.ringCi r = s.ringCi r
  works : t.seq.works = s.seq.works
  nextId : t.seq.nextId = s.seq.nextId
  fetched : t.seq.fetched = s.seq.fetched

theorem RingKept.trans {r : Nat} {s t u : State} (h : RingKept r s t) (g : RingKept r t u) : RingKept r s u :=
  ⟨g.ci.trans h.ci, g.works.trans h.works, g.nextId.trans h.nextId, g.fetched.trans h.fetched⟩

theorem RingKept.refl (r : Nat) (s : State) : RingKept r s s := ⟨rfl, rfl, rfl, rfl⟩

theorem bump_kept (r d off n : Nat) (s : State) : RingKept r s (s.bump d off n) := ⟨rfl, rfl, rfl, rfl⟩

theorem setSrv_kept (r : Nat) (x : Srv) (s : State) : RingKept r s (s.setSrv x) := ⟨rfl, rfl, rfl, rfl⟩

theorem setRingStat_kept (r q i : Nat) (b : Bool) (s : State) : RingKept r s (s.setRingStat q i b) := by
  refine ⟨State.regN_setRegN_other _ _ _ _ _ _ ?_, rfl, rfl, rfl⟩
  unfold regKey Reg.ringStatus Reg.ringCi ringNo
  omega

theorem setRingPi_kept (r q v : Nat) (s : State) : RingKept r s (s.setRing q Reg.ringPi v) := by
  refine ⟨State.regN_setRegN_other _ _ _ _ _ _ ?_, rfl, rfl, rfl⟩
  unfold regKey Reg.ringPi Reg.ringCi ringNo
  omega

theorem leaveIdle_kept (r d : Nat) {p : Nat} (hp : p < 16) (s : State) : RingKept r s (s.leaveIdle d p) := by
  obtain ⟨q, hq⟩ := leaveIdle_seq s d p
  exact ⟨leaveIdle_ring s d hp (by simp [ringFields]) r, by rw [hq], by rw [hq], by rw [hq]⟩

theorem doorbellEvent_kept (r q v cause : Nat) (s : State) : RingKept r s (s.doorbellEvent q v cause) := by
  obtain ⟨c, k, g, m, po, a, l, h, o, he, -⟩ := State.event_state s (s.ringPart q) 0x04 (ringDie q) q
    (natLe 1 q ++ natLe 3 0 ++ natLe 8 v ++ natLe 1 cause)
  refine ⟨(doorbellEvent_regsBut s q v cause).ringReg (evqTail_outside (ringPart_lt s q)) (by simp [ringFields]) r, ?_, ?_, ?_⟩ <;>
    (unfold State.doorbellEvent; rw [he])

theorem rejectBell_kept (r q v cause : Nat) (s : State) : RingKept r s (s.rejectBell q v cause) :=
  (bump_kept r _ _ 1 s).trans
    ((setRingStat_kept r q 3 true _).trans (doorbellEvent_kept r q v cause _))

theorem bellPi_kept (r q v : Nat) (m : Master) (s : State) : RingKept r s (s.bellPi q v m) := by
  unfold State.bellPi
  dsimp only
  split
  · exact (bump_kept r _ _ 1 s).trans (doorbellEvent_kept r q v 4 _)
  · split
    · exact rejectBell_kept r q v 1 s
    · split
      · exact rejectBell_kept r q v 2 s
      · split
        · exact (setRingPi_kept r q _ s).trans ((bump_kept r _ _ 1 _).trans (leaveIdle_kept r (ringDie q) (ringPart_lt s q) _))
        · exact rejectBell_kept r q v 0 s

theorem write_kept (r a : Nat) (bs : List Byte) (s : State) : RingKept r s (s.write a bs) :=
  ⟨State.write_regN s a bs false _ _, by rw [State.write_seq], by rw [State.write_seq], by rw [State.write_seq]⟩

theorem feedRing_kept (r p : Nat) (l : List (Nat × List Byte)) (s : State) : RingKept r s (s.feedRing p l) := by
  induction l generalizing s with
  | nil => exact ⟨rfl, rfl, rfl, rfl⟩
  | cons c rest ih =>
    unfold State.feedRing
    dsimp only
    split
    · exact ⟨rfl, rfl, rfl, rfl⟩
    · exact (write_kept r _ _ s).trans ((setSrv_kept r _ _).trans ((bellPi_kept r _ _ _ _).trans (ih _)))

theorem markGroupWait_kept (r d : Nat) (s : State) : RingKept r s (s.markGroupWait d) ∧ (s.markGroupWait d).mem = s.mem ∧
    (s.markGroupWait d).srvs = s.srvs := by
  unfold State.markGroupWait
  dsimp only
  refine foldl_keeps (P := fun t : State => RingKept r s t ∧ t.mem = s.mem ∧ t.srvs = s.srvs) (fun t i h => ?_) _ ⟨RingKept.refl r s, rfl, rfl⟩
  generalize (t.ringOpen (32 * d + i) && _) = w
  split
  · exact h
  · exact ⟨h.1.trans (setRingStat_kept r _ 5 _ t), h.2⟩

theorem parts_le (p : Part) : p.parts ≤ 16 := by
  cases p <;> decide

/-- The context switches after an acceptance. -/
theorem leaveEach_kept (r d n : Nat) (hn : n ≤ 16) (s : State) :
    let t := (List.range n).foldl (fun (s : State) p => s.leaveIdle d p) s
    RingKept r s t ∧ t.mem = s.mem ∧ t.srvs = s.srvs := by
  have h : ∀ (l : List Nat), (∀ p ∈ l, p < 16) → ∀ t : State, RingKept r s t ∧ t.mem = s.mem ∧ t.srvs = s.srvs →
      RingKept r s (l.foldl (fun (s : State) p => s.leaveIdle d p) t) ∧ (l.foldl (fun (s : State) p => s.leaveIdle d p) t).mem = s.mem ∧
        (l.foldl (fun (s : State) p => s.leaveIdle d p) t).srvs = s.srvs := by
    intro l
    induction l with
    | nil => exact fun _ t ht => ht
    | cons p l ih =>
      intro hl t ⟨hk, hm, hs⟩
      refine ih (fun q hq => hl q (List.mem_cons_of_mem _ hq)) _ ⟨hk.trans (leaveIdle_kept r d (hl p List.mem_cons_self) t), (leaveIdle_mem t d p).trans hm, ?_⟩
      obtain ⟨g, q, e⟩ := leaveIdle_state t d p
      change (t.leaveIdle d p).srvs = s.srvs
      rw [e]
      exact hs
  exact h _ (fun p hp => (List.mem_range.mp hp).trans_le hn) s ⟨RingKept.refl r s, rfl, rfl⟩

/-- The descriptor that joins the queue for a slot. -/
def acceptedWork (s : State) (x : Slot) : Work :=
  let k := leAt x.bytes 0 1
  let bad := !kindKnown k || (s.ringRx x.ring != (k == 0x2E))
  let st := if x.poison then 8 else if bad then 1 else 0
  ⟨s.seq.nextId, x.ring, ringDie x.ring, x.idx, x.bytes, s.ringPart x.ring, s.ringCtx x.ring, none, none, s.acceptCode x.ring x.bytes, x.poison || bad, none,
    0, 0, false, false, x.poison || bad, { Rec.empty with tag := leAt x.bytes 4 4, idx := x.idx, kind := k, status := st, poison := x.poison }, [], false, [], false⟩

theorem joinGroup_state (s : State) (p : Nat) (bytes : List Byte) : ∃ g, s.joinGroup p bytes = { s with groups := g } := by
  unfold State.joinGroup
  dsimp only
  split
  · split
    · exact ⟨_, rfl⟩
    · split
      · exact ⟨_, rfl⟩
      · exact ⟨_, rfl⟩
  · exact ⟨_, rfl⟩

/-- A state whose CI has moved past a slot that has joined the queue, before it joins a group. -/
def takenSlot (s : State) (x : Slot) : State :=
  let q := { s.seq with works := s.seq.works ++ [acceptedWork s x], nextId := s.seq.nextId + 1, lastRing := kvPut s.seq.lastRing (ringDie x.ring) (ringNo x.ring),
                        fetched := s.seq.fetched.filter fun y => !(y.ring == x.ring && y.idx == x.idx) }
  (State.setRing { s with seq := q } x.ring Reg.ringCi (s.ringCi x.ring + 1)).bump (ringDie x.ring) (Reg.ringCntLo 0) 1

theorem acceptSlot_eq (s : State) (x : Slot) :
    s.acceptSlot x = if (acceptedWork s x).ended then takenSlot s x else (takenSlot s x).joinGroup (s.ringPart x.ring) x.bytes := rfl

/-- Acceptance moves CI and takes the slot into the queue. -/
theorem acceptSlot_does (s : State) (x : Slot) : let t := s.acceptSlot x
    t.ringCi x.ring = (s.ringCi x.ring + 1) % 2 ^ 32 ∧ t.seq.works = s.seq.works ++ [acceptedWork s x] ∧ t.seq.nextId = s.seq.nextId + 1 ∧
      t.seq.fetched = (s.seq.fetched.filter fun y => !(y.ring == x.ring && y.idx == x.idx)) ∧ t.mem = s.mem ∧ t.srvs = s.srvs := by
  have hci : (takenSlot s x).ringCi x.ring = (s.ringCi x.ring + 1) % 2 ^ 32 := State.regN_setRegN_same _ _ _ _
  rw [acceptSlot_eq]
  split
  · exact ⟨hci, rfl, rfl, rfl, rfl, rfl⟩
  · obtain ⟨g, e⟩ := joinGroup_state (takenSlot s x) (s.ringPart x.ring) x.bytes
    rw [e]
    exact ⟨hci, rfl, rfl, rfl, rfl, rfl⟩

theorem headSlot_ring {s : State} {r : Nat} {x : Slot} (hx : s.headSlot r = some x) : x.ring = r := by
  have h := List.find?_some hx
  simp only [Bool.and_eq_true, beq_iff_eq] at h
  exact h.1

theorem descriptorAccept_does {s : State} {d r : Nat} {x : Slot} (hd : DieUp s d) (hpick : s.pickRing d = some r) (hx : s.headSlot r = some x) :
    Does (.descriptorAccept d) s fun t => t.ringCi r = (s.ringCi r + 1) % 2 ^ 32 ∧ t.seq.works = s.seq.works ++ [acceptedWork s x] ∧
      t.seq.nextId = s.seq.nextId + 1 ∧ x ∉ t.seq.fetched ∧ ((∀ y ∈ s.srvs, y.toCopy = []) → t.mem = s.mem) := by
  refine .onDie hd rfl ?_
  have hring := headSlot_ring hx
  obtain ⟨hci, hworks, hid, hfetched, hmem, hsrvs⟩ := acceptSlot_does s x
  obtain ⟨hk1, hm1, hs1⟩ := markGroupWait_kept r d (s.acceptSlot x)
  have hnext : s.acceptNext d = (s.acceptSlot x).markGroupWait d := by
    unfold State.acceptNext
    rw [hpick]
    dsimp only
    rw [hx]
  dsimp only
  rw [hnext]
  obtain ⟨hk2, hm2, hs2⟩ := leaveEach_kept r d ((s.acceptSlot x).markGroupWait d).part.parts (parts_le _) ((s.acceptSlot x).markGroupWait d)
  generalize List.foldl (fun (s : State) p => s.leaveIdle d p) ((s.acceptSlot x).markGroupWait d) _ = u at hk2 hm2 hs2 ⊢
  have hk3 : RingKept r u ((u.srvs.filter fun x => !x.toCopy.isEmpty).foldl (fun (s : State) x => s.feed x.p) u) :=
    foldl_keeps (P := RingKept r u) (fun t y h => h.trans (feedRing_kept r y.p _ t)) _ (RingKept.refl r u)
  have hk := hk1.trans (hk2.trans hk3)
  rw [hring] at hci
  refine ⟨hk.ci.trans hci, hk.works.trans hworks, hk.nextId.trans hid, ?_, fun hnone => ?_⟩
  · rw [hk.fetched, hfetched]
    simp
  · have hempty : (u.srvs.filter fun x => !x.toCopy.isEmpty) = [] := by
      rw [hs2, hs1, hsrvs]
      exact List.filter_eq_nil_iff.mpr fun y hy => by simp [hnone y hy]
    rw [hempty]
    exact hm2.trans (hm1.trans hmem)

end Sys2Proof.Machine

open Sys2Proof Sys2Proof.Machine

/-- Settles O10: a doorbell that is taken sets its index and is counted; one to a ring that is off, or too wide, is turned away with all indices kept. -/
theorem doorbells : Obligations.Doorbells := by
  refine ⟨⟨fun s r b ht hr hb hserve hv hon hroom => ?_, fun s r b ht hr hb hv hon hroom => ?_, fun s r b ht hr hb hv hon hroom => ?_⟩,
    fun s r b ht hr hb hoff c hc => ?_⟩
  · refine .live ht rfl ?_
    rw [bell_alone hr hb, bellPi_taken hserve hv hon hroom]
    exact bellPi_taken_does hv
  · refine .live ht rfl ?_
    rw [bell_alone hr hb, bellCq_taken hv hon hroom]
    refine ⟨?_, State.ctr_bump_same _ _ _ _, fun h => ?_, fun h => ?_, rfl⟩
    · exact (State.regN_setRegN_same _ _ _ _).trans (Nat.mod_mod _ _)
    · change r ∈ armList s.seq.cqArm r _
      rw [h]
      exact addNew_mem r _
    · change armList s.seq.cqArm r _ = _
      rw [h]
      rfl
  · refine .live ht rfl ?_
    rw [bell_alone hr hb, bellEvq_taken hv hon hroom]
    obtain ⟨hhead, hctr⟩ := postOverflow_reads { (s.setRegN 0 (Reg.evqHead (s.ringPart r)) (b.value.toNat % 2 ^ 32)).takenBell r with
      seq := { s.seq with evqArm := armList s.seq.evqArm (s.ringPart r) (bit b.value.toNat 32) } } (s.ringPart r) (ringDie r)
    refine ⟨hhead.trans ?_, hctr.trans (State.ctr_bump_same _ _ _ _)⟩
    exact (State.regN_setRegN_same _ _ _ _).trans (Nat.mod_mod _ _)
  · rcases hc with ⟨rfl, hserve⟩ | rfl | rfl
    · refine .live ht rfl ?_
      obtain ⟨cause, e⟩ := bellPi_off (m := b.master) hserve hoff
      rw [bell_alone hr hb, e]
      exact rejectBell_does s r _ cause
    · refine .live ht rfl ?_
      obtain ⟨cause, e⟩ := bellCq_off hoff
      rw [bell_alone hr hb, e]
      exact rejectBell_does s r _ cause
    · refine .live ht rfl ?_
      obtain ⟨cause, e⟩ := bellEvq_off hoff
      rw [bell_alone hr hb, e]
      exact rejectBell_does s r _ cause

/-- Settles O11: the next slot joins those fetched or stops its ring; the slot at the head joins the queue as its descriptor; a vector loses its mask. -/
theorem fetchAccept : Obligations.FetchAccept := by
  refine ⟨fun s r n ht hr hon hn hidx herr hread => ?_, fun s r n ht hr hon hn hidx herr hread => ?_, fun s d r x hd hpick hx => ?_,
    fun s fn v ht hv hfn => ?_⟩
  · refine .live ht rfl ?_
    rw [if_pos (by simp [hr, hon]), show Nat.min n 16 = Nat.min (n - 1) 15 + 1 by simp only [Nat.min_def]; split <;> split <;> omega]
    exact fetchSlots_reads hidx herr hread
  · refine .live ht rfl ?_
    rw [if_pos (by simp [hr, hon]), show Nat.min n 16 = Nat.min (n - 1) 15 + 1 by simp only [Nat.min_def]; split <;> split <;> omega]
    exact fetchSlots_unreadable hidx herr hread
  · have hring := headSlot_ring hx
    obtain ⟨t, ht, hci, hworks, hid, hx', hmem⟩ := descriptorAccept_does hd hpick hx
    refine ⟨t, ht, hci, hid, ⟨acceptedWork s x, by simp [hworks], rfl, hring, rfl, congrArg s.ringPart hring, fun hp => ?_, fun hp hk hrx => ?_⟩, hx', hmem⟩
    · simp [acceptedWork, hp]
    · rw [← hring] at hrx
      simp [acceptedWork, hp, hk, hrx]
  · refine .live ht rfl ?_
    rw [if_pos (by simp [hv, hfn])]
    have hbit : ∀ u : State, u.hst.msix = kvPut s.hst.msix (2048 * fn + (4 * v + 3)) (setBit (s.msixWord fn (4 * v + 3)) 0 false) →
        bit (u.msixWord fn (4 * v + 3)) 0 = false := fun u hu => by
      unfold State.msixWord kvGet
      rw [hu, kvFind_kvPut_same, Option.getD_some, bit_setBit, if_pos rfl]
    dsimp only
    split
    · exact hbit _ rfl
    · exact hbit _ rfl

end

/-! PROOF. Register writes. -/

section
namespace Sys2Proof.Machine

/-! ## Bits of a number with some of them taken out -/

theorem bit_eq_testBit (n i : Nat) : bit n i = n.testBit i := by
  rw [Nat.testBit_eq_decide_div_mod_eq]
  rfl

/-- Taking out of a number the bits that it shares with another clears those bits. -/
theorem testBit_sub_and (n y i : Nat) : (n - (n &&& y)).testBit i = (n.testBit i && !y.testBit i) := by
  have hle : n &&& y ≤ n := Nat.and_le_left
  have hdiv : (n &&& y) / 2 = n / 2 &&& y / 2 := Nat.and_div_two
  have hmod : (n &&& y) % 2 = 1 ↔ n % 2 = 1 ∧ y % 2 = 1 := Nat.and_mod_two_eq_one
  induction i generalizing n y with
  | zero =>
    rw [Nat.testBit_zero, Nat.testBit_zero, Nat.testBit_zero]
    by_cases hn : n % 2 = 1 <;> by_cases hy : y % 2 = 1 <;> simp only [hn, hy, and_self, and_true, true_and, iff_true, iff_false] at hmod <;>
      simp only [hn, hy, decide_true, decide_false, Bool.not_true, Bool.not_false, Bool.and_true, Bool.and_false, decide_eq_true_eq, decide_eq_false_iff_not] <;> omega
  | succ i ih =>
    rw [Nat.testBit_succ, Nat.testBit_succ, Nat.testBit_succ]
    have h : (n - (n &&& y)) / 2 = n / 2 - (n / 2 &&& y / 2) := by omega
    rw [h]
    exact ih _ _ Nat.and_le_left Nat.and_div_two Nat.and_mod_two_eq_one

theorem bit_clear (n v m i : Nat) : bit (n - Nat.land n (Nat.land v m)) i = (bit n i && !(bit v i && bit m i)) := by
  simp only [bit_eq_testBit]
  exact (testBit_sub_and n (v &&& m) i).trans (by rw [Nat.testBit_and])

/-! ## Where a write arrives -/

section
variable {s : State} {w : RegWrite} {r : RegDesc}

theorem registerWrite_hit (h : RegHit s w r) :
    exec (.registerWrite w none) s = .next (s.sysWrite w.master w.die w.off w.value.toNat) := by
  refine (live_eq h.up).trans (congrArg _ ?_)
  have hoff : w.off / 4 * 4 = w.off := Nat.div_mul_cancel (Nat.dvd_of_mod_eq_zero h.word)
  have hmay := h.may
  dsimp only
  unfold State.regWrite1
  rw [if_neg (not_not_intro h.whole), hoff]
  cases hm : w.master <;> rw [hm] at hmay
  case vf n => simp [State.regReach] at hmay
  all_goals exact if_pos hmay

/-- What a write does to a register that it reaches, by the kind of its bits. -/
def hitWrite (s : State) (m : Master) (d off v : Nat) (r : RegDesc) : State :=
  let locked := match s.regTdi d off with | some p => if s.tdiLocked p then some p else none | none => none
  let t := s.regStore d off (s.part.regFix d off (Nat.land v r.rw + (s.regN d off - Nat.land (s.regN d off) r.rw)))
  if r.rwg ≠ 0 then
    if m ≠ .guard then s.lostWrite d off 0 v m .guard
    else if off = Reg.clkLimit then (if limitOk (fld v 0 4) (fld v 4 4) then s.guardLimit (fld v 0 4) (fld v 4 4) else s)
    else s.guardSet d off (Nat.land v r.rwg)
  else if r.w1c ≠ 0 then s.clearBits d off v 0
  else if r.rw = 0 then s
  else if m = .pf && locked.isSome then s.lockedWrite (locked.getD 0)
  else if s.regLocked d off then s
  else match locked with | some p => if m = .guard then t.setTdi (p + 1) 3 else t | none => t

theorem sysWrite_hit (h : RegHit s w r) :
    s.sysWrite w.master w.die w.off w.value.toNat = hitWrite s w.master w.die w.off w.value.toNat r := by
  have hreach : (decide (s.part.dies ≤ w.die) || s.regInReset w.die w.off || regElsewhere w.die w.off) = false := by
    simp [h.die, h.runs, h.here]
  have hhost : (if w.die = 0 then s.hostWrite w.off w.value.toNat else none) = none := by
    split
    · exact h.host ‹_›
    · rfl
  unfold State.sysWrite
  simp only [hreach, hhost, h.plain, h.bell, h.row, Bool.false_eq_true, if_false]
  rfl

theorem registerWrite_eq (h : RegHit s w r) :
    exec (.registerWrite w none) s = .next (hitWrite s w.master w.die w.off w.value.toNat r) := by
  rw [registerWrite_hit h, sysWrite_hit h]

theorem hitWrite_lock (d off v : Nat) (hrwg : r.rwg = 0) (hw1c : r.w1c = 0) (hrw : r.rw ≠ 0) {p : Nat} (hp : s.regTdi d off = some p)
    (hl : s.tdiLocked p = true) : hitWrite s .pf d off v r = s.lockedWrite p := by
  simp [hitWrite, hrwg, hw1c, hrw, hp, hl]

/-- A register that no locked interface covers is written where it is not locked itself. -/
theorem hitWrite_open (m : Master) (d off v : Nat) (hrwg : r.rwg = 0) (hw1c : r.w1c = 0) (hrw : r.rw ≠ 0)
    (hfree : ∀ p, s.regTdi d off = some p → s.tdiLocked p = false) :
    hitWrite s m d off v r = if s.regLocked d off then s
      else s.regStore d off (s.part.regFix d off (Nat.land v r.rw + (s.regN d off - Nat.land (s.regN d off) r.rw))) := by
  have hnone : (match s.regTdi d off with | some p => if s.tdiLocked p then some p else none | none => none) = (none : Option Nat) := by
    cases hp : s.regTdi d off with
    | none => rfl
    | some p => exact if_neg (by rw [hfree p hp]; decide)
  unfold hitWrite
  dsimp only
  rw [if_neg (not_not_intro hrwg), if_neg (not_not_intro hw1c), if_neg hrw, hnone]
  simp

end

/-! ## What the writes do -/

theorem kvGet_kvSet_ne {α : Type} [DecidableEq α] {d v : α} (l : List (Nat × α)) (k : Nat) (h : v ≠ d) : kvGet d (kvSet d l k v) k = v := by
  unfold kvGet kvSet
  rw [if_neg h, kvFind_kvPut_same, Option.getD_some]

theorem lockedWrite_does (s : State) (p : Nat) :
    (s.lockedWrite p).tdi (p + 1) = 3 ∧ (s.lockedWrite p).ctr 0 (Reg.hstCntLo 7) = Nat.min ctrMax (s.ctr 0 (Reg.hstCntLo 7) + 1) :=
  ⟨kvGet_kvSet_ne (d := 0) (v := 3) s.hst.tdi (p + 1) (by decide), State.ctr_bump_same s 0 _ 1⟩

theorem clearBits_reads {s : State} {d off v : Nat} {r : RegDesc} (hrow : regDesc off = some r) :
    (∀ i, i < 32 → (s.clearBits d off v 0).rbit d off i = (s.rbit d off i && !(bit v i && bit r.w1c i))) ∧
      RegsBut s (s.clearBits d off v 0) [regKey d off] ∧ (s.clearBits d off v 0).mem = s.mem := by
  have e : s.clearBits d off v 0 = s.setRegN d off (s.regN d off - Nat.land (s.regN d off) (Nat.land v r.w1c)) := by
    unfold State.clearBits
    rw [hrow]
    dsimp only
    rw [show Nat.land 0 r.w1c = 0 from Nat.zero_and _]
    exact congrArg (s.setRegN d off) (Nat.or_zero _)
  rw [e]
  refine ⟨fun i _ => ?_, (RegsBut.refl s _).setRegN (List.mem_singleton.mpr rfl) _, rfl⟩
  unfold State.rbit
  rw [State.regN_setRegN_same, Nat.mod_eq_of_lt ((Nat.sub_le _ _).trans_lt (s.regN_lt d off)), bit_clear]

theorem lostWrite_does (s : State) (d target value : Nat) (l m : Master) :
    let t := s.lostWrite d target 0 value l m
    t.mem = s.mem ∧ t.ctr d Reg.grdLostCntLo = Nat.min ctrMax (s.ctr d Reg.grdLostCntLo + 1) ∧
      t.regN d (Reg.grdLostLog (s.rf d Reg.grdLostHead 0 5) 1) = target % 2 ^ 24 ∧
      RegsBut s t (regKey d Reg.grdLostHead :: (List.range 4).map fun k => regKey d (Reg.grdLostLog (s.rf d Reg.grdLostHead 0 5) k)) := by
  have hin : ∀ k, k < 4 → regKey d (Reg.grdLostLog (s.rf d Reg.grdLostHead 0 5) k) ∈
      regKey d Reg.grdLostHead :: (List.range 4).map fun k => regKey d (Reg.grdLostLog (s.rf d Reg.grdLostHead 0 5) k) := fun k hk =>
    List.mem_cons_of_mem _ (List.mem_map.mpr ⟨k, List.mem_range.mpr hk, rfl⟩)
  refine ⟨rfl, State.ctr_bump_same s d _ 1, ?_, ?_⟩
  · unfold State.lostWrite
    dsimp only
    rw [State.regN_setRegN_other _ _ _ _ _ _ (by simp [Reg.grdLostLog, Reg.grdLostHead]; omega),
      State.regN_setRegN_other _ _ _ _ _ _ (by simp [Reg.grdLostLog]), State.regN_setRegN_other _ _ _ _ _ _ (by simp [Reg.grdLostLog]),
      State.regN_setRegN_same]
    have : target % 2 ^ 24 < 2 ^ 24 := Nat.mod_lt _ (by decide)
    omega
  · have hbump : RegsBut s (s.bump d Reg.grdLostCntLo 1) (regKey d Reg.grdLostHead ::
        (List.range 4).map fun k => regKey d (Reg.grdLostLog (s.rf d Reg.grdLostHead 0 5) k)) := .of_eq rfl rfl
    exact ((((hbump.setRegN (hin 0 (by decide)) _).setRegN (hin 1 (by decide)) _).setRegN (hin 2 (by decide)) _).setRegN (hin 3 (by decide)) _).setRegN
      List.mem_cons_self _

theorem guardSet_does {s : State} {d off v : Nat} (h1 : off ≠ Reg.pwrCapSb) (h2 : off ≠ Reg.pwrCapCeil) :
    (s.guardSet d off v).regN d off = s.part.regFix d off v % 2 ^ 32 ∧ RegsBut s (s.guardSet d off v) [regKey d off] ∧ (s.guardSet d off v).mem = s.mem := by
  unfold State.guardSet
  dsimp only
  rw [if_neg (by simp [h1, h2])]
  exact ⟨State.regN_setRegN_same s d off _, ((RegsBut.refl s _).setRegN (List.mem_singleton.mpr rfl) _).congr rfl rfl, rfl⟩

end Sys2Proof.Machine

open Sys2Proof Sys2Proof.Machine

/-- Settles O8: a write that reaches a register does what the kind of its bits says; partial writes and those of other masters are discarded. -/
theorem registerWrites : Obligations.RegisterWrites := by
  refine ⟨fun s w r h => ⟨fun hrwg hw1c hrw => ?_, fun hrwg hw1c hrw hfree => ⟨fun hl => ?_, fun hl => ?_⟩, fun p hrwg hw1c hrw hm hp hl => ?_,
    fun hrwg hw1c => ?_, fun hrwg hm => ?_, fun hrwg hm h0 h1 h2 => ?_⟩, fun s w ht hw => ?_, fun s a b ht hab => ?_⟩
  · rw [registerWrite_eq h, hitWrite, if_neg (not_not_intro hrwg), if_neg (not_not_intro hw1c), if_pos hrw]
  · rw [registerWrite_eq h, hitWrite_open _ _ _ _ hrwg hw1c hrw hfree, if_pos hl]
  · rw [registerWrite_eq h, hitWrite_open _ _ _ _ hrwg hw1c hrw hfree, if_neg (by rw [hl]; decide)]
  · obtain ⟨htdi, hctr⟩ := lockedWrite_does s p
    refine ⟨s.lockedWrite p, ?_, rfl, rfl, htdi, hctr⟩
    rw [registerWrite_eq h, hm, hitWrite_lock _ _ _ hrwg hw1c hrw hp hl]
  · refine ⟨_, registerWrite_eq h, ?_⟩
    rw [hitWrite, if_neg (not_not_intro hrwg), if_pos hw1c]
    exact clearBits_reads h.row
  · refine ⟨_, registerWrite_eq h, ?_⟩
    rw [hitWrite, if_pos hrwg, if_pos hm]
    exact lostWrite_does s _ _ _ _ _
  · refine ⟨_, registerWrite_eq h, ?_⟩
    rw [hitWrite, if_pos hrwg, if_neg (not_not_intro hm), if_neg h0]
    exact guardSet_does h1 h2
  · refine (live_eq ht).trans (congrArg _ ?_)
    dsimp only
    unfold State.regWrite1
    rcases hw with hbe | ⟨hvf, hmay⟩
    · rw [if_pos hbe]
    · split
      · rfl
      · cases hm : w.master <;> rw [hm] at hmay
        case vf n => exact absurd hm (hvf n)
        all_goals exact if_neg (by rw [hmay]; decide)
  · refine (live_eq ht).trans (congrArg _ ?_)
    dsimp only
    unfold State.regWrite2
    exact if_pos (by simpa using hab)

end

/-! PROOF. The host's side: BAR2, peers, CXL.mem, the bias of pages and the host link. -/

section
namespace Sys2Proof.Machine

/-! ## Counting an access -/

namespace State

variable (s : State) (wr : Bool) (a len : Nat)

theorem access_reads : (s.access wr a len).bytes = s.bytes ∧ (s.access wr a len).tagged = s.tagged := by
  obtain ⟨c, n, e⟩ := s.access_state wr a len
  rw [e]
  exact ⟨rfl, rfl⟩

theorem access_mem : (s.access wr a len).mem = s.mem ∧ (s.access wr a len).wiped = s.wiped ∧ (s.access wr a len).memWf = s.memWf := by
  obtain ⟨c, n, e⟩ := s.access_state wr a len
  rw [e]
  exact ⟨rfl, rfl, rfl⟩

theorem access_regs : (s.access wr a len).regs = s.regs ∧ (s.access wr a len).part = s.part ∧ (s.access wr a len).out = s.out := by
  obtain ⟨c, n, e⟩ := s.access_state wr a len
  rw [e]
  exact ⟨rfl, rfl, rfl⟩

theorem access_hst : (s.access wr a len).hst = s.hst := by
  obtain ⟨c, n, e⟩ := s.access_state wr a len
  rw [e]

/-- What an access counts depends on the counters and the free values used alone. -/
theorem access_ctrs_congr {t : State} (hc : t.ctrs = s.ctrs) (hf : t.freeCtr = s.freeCtr) (hp : t.part = s.part) :
    (t.access wr a len).ctrs = (s.access wr a len).ctrs := by
  have hbump : ∀ (u v : State) (d off n : Nat), u.ctrs = v.ctrs → (u.bump d off n).ctrs = (v.bump d off n).ctrs := fun u v d off n h => by
    unfold State.bump State.setCtr State.ctr
    rw [h]
  have hfold : ∀ (l : List Nat) (u v : State), u.ctrs = v.ctrs →
      (l.foldl (fun (s : State) d =>
        let lo := Nat.max a (hbmSize * d)
        let hi := Nat.min (a + len) (hbmSize * (d + 1))
        if lo < hi then s.bump d (Reg.hbmCntLo (b2n wr)) ((hi - 1) / 64 + 1 - lo / 64) else s) u).ctrs =
      (l.foldl (fun (s : State) d =>
        let lo := Nat.max a (hbmSize * d)
        let hi := Nat.min (a + len) (hbmSize * (d + 1))
        if lo < hi then s.bump d (Reg.hbmCntLo (b2n wr)) ((hi - 1) / 64 + 1 - lo / 64) else s) v).ctrs := by
    intro l
    induction l with
    | nil => exact fun u v h => h
    | cons d l ih =>
      intro u v h
      refine ih _ _ ?_
      dsimp only
      split
      · exact hbump u v _ _ _ h
      · exact h
  unfold access
  rw [hp]
  split
  · exact hc
  · split
    · exact hfold _ t s hc
    · split
      · dsimp only
        unfold bumpFree freeVal
        have hfree : ∀ (u : State) (d off n : Nat), (u.bump d off n).freeCtr = u.freeCtr := fun _ _ _ _ => rfl
        rw [hfree, hfree, hf]
        exact hbump _ _ _ _ _ (hbump t s _ _ _ hc)
      · exact hc

end State

/-- Bytes written over states that read alike elsewhere. -/
theorem wrote_write {s : State} (hwf : s.memWf = true) (a : Nat) (bs : List Byte) : Wrote s (s.write a bs) a bs :=
  ⟨s.bytes_write hwf a bs false, fun x hx => s.byte_write_outside a bs false x hx⟩

theorem Wrote.of_mem {s t u v : State} {a : Nat} {bs : List Byte} (h : Wrote s t a bs) (hum : u.mem = s.mem) (huw : u.wiped = s.wiped)
    (hvm : v.mem = t.mem) (hvw : v.wiped = t.wiped) : Wrote u v a bs := by
  have hu := SameMem.of_eq hum huw
  have hv := SameMem.of_eq hvm hvw
  refine ⟨?_, fun x hx => (hv x).trans ((h.2 x hx).trans (hu x).symm)⟩
  have hb : v.bytes = t.bytes := by
    funext b n
    unfold State.bytes
    exact List.map_congr_left fun i _ => hv (b + i)
  rw [hb]
  exact h.1

/-! ## BAR2 -/

theorem serveBus_read {s : State} {r : BusReq} (hin : s.memOut r.off r.len = false) :
    s.serveBus r false = (s.access false r.off r.len).emit (.busData r.rid (s.bytes r.off r.len) (s.tagged r.off r.len)) := by
  obtain ⟨hb, ht⟩ := s.access_reads false r.off r.len
  unfold State.serveBus
  simp only [hin, Bool.false_eq_true, if_false, hb, ht]

theorem serveBus_write {s : State} {r : BusReq} (hin : s.memOut r.off r.len = false) :
    s.serveBus r true = (s.access true r.off r.len).write r.off (padTo r.len r.data) := by
  unfold State.serveBus
  simp only [hin, Bool.false_eq_true, if_false, if_true]

theorem length_padTo (n : Nat) (bs : List Byte) : (padTo n bs).length = n := by
  unfold padTo
  simp
  omega

theorem serveBus_write_does {s : State} {r : BusReq} (hwf : s.memWf = true) (hin : s.memOut r.off r.len = false) :
    Wrote s (s.serveBus r true) r.off (padTo r.len r.data) ∧ (s.serveBus r true).regs = s.regs ∧
      (s.serveBus r true).ctrs = (s.access true r.off r.len).ctrs ∧ (s.serveBus r true).out = s.out := by
  obtain ⟨hm, hw, hwf'⟩ := s.access_mem true r.off r.len
  obtain ⟨hr, -, ho⟩ := s.access_regs true r.off r.len
  rw [serveBus_write hin]
  refine ⟨(wrote_write (hwf'.trans hwf) _ _).of_mem hm.symm hw.symm rfl rfl, ?_, State.write_ctrs _ _ _ _, ?_⟩
  · rw [State.write_regs, hr]
  · rw [State.write_out, ho]

theorem bus2_host {s : State} {r : BusReq} (h : AtBar2 s r) (hpeer : s.peerEntries r.rid = []) (wr : Bool) : s.bus2 r wr = s.hostBus r wr := by
  have hinside : ¬ (2 ^ s.bar2Bits (r.fn != 0) < r.off + r.len) := Nat.not_lt.mpr h.inside
  unfold State.bus2
  rw [if_neg (by simp [h.link, h.fn, h.bar, h.len, hinside]), hpeer]
  exact if_pos rfl

theorem hostBus_may {s : State} {r : BusReq} (hhbm : inHbm s.part.dies r.off r.len = true) (hmay : s.busMay r) (wr : Bool) :
    s.hostBus r wr = s.serveBus r wr := by
  unfold State.hostBus
  dsimp only
  rw [if_neg (by rw [hhbm]; decide)]
  rcases hmay with ⟨h0, hl⟩ | ⟨h0, hall⟩
  · rw [if_pos h0, hl]
  · rw [if_neg h0, if_pos (by rw [hall]; rfl)]

theorem hostBus_refused {s : State} {r : BusReq} (h : inHbm s.part.dies r.off r.len = false ∨ (r.fn ≠ 0 ∧
    (halvesOf s.part.dies r.off r.len).all (fun u => s.ownsHalf 0 (r.fn - 1) u) = false ∧ s.inShared (r.fn - 1) r.off r.len = false)) (wr : Bool) :
    s.hostBus r wr = s.refuseBus r wr := by
  unfold State.hostBus
  dsimp only
  cases hhbm : inHbm s.part.dies r.off r.len
  · exact if_pos rfl
  · obtain ⟨h0, hall, hsh⟩ := h.resolve_left (by rw [hhbm]; decide)
    rw [if_neg (by decide), if_neg h0, if_neg (by rw [hall, hsh]; cases wr <;> decide)]

theorem hostBus_locked {s : State} {r : BusReq} (hhbm : inHbm s.part.dies r.off r.len = true) (h0 : r.fn = 0) (hl : s.lockedIn r.off r.len ≠ [])
    (wr : Bool) : s.hostBus r wr = if wr then (s.lockedIn r.off r.len).foldl State.lockedWrite s else s.refuseBus r wr := by
  unfold State.hostBus
  dsimp only
  rw [if_neg (by rw [hhbm]; decide), if_pos h0]
  split
  · exact absurd ‹_› hl
  · rfl

/-- Locked writes set the interfaces named to ERROR and count each. -/
theorem lockedWrites_does (l : List Nat) (s : State) : let t := l.foldl State.lockedWrite s
    t.mem = s.mem ∧ t.wiped = s.wiped ∧ t.regs = s.regs ∧ t.out = s.out ∧ (∀ p, p ∈ l ∨ s.tdi (p + 1) = 3 → t.tdi (p + 1) = 3) ∧
      (l ≠ [] → t.ctr 0 (Reg.hstCntLo 7) = Nat.min ctrMax (s.ctr 0 (Reg.hstCntLo 7) + l.length)) := by
  induction l generalizing s with
  | nil => exact ⟨rfl, rfl, rfl, rfl, fun p h => h.resolve_left (by simp), fun h => absurd rfl h⟩
  | cons q l ih =>
    obtain ⟨hm, hw, hr, ho, ht, hc⟩ := ih (s.lockedWrite q)
    obtain ⟨htdi, hctr⟩ := lockedWrite_does s q
    refine ⟨hm, hw, hr, ho, fun p hp => ht p ?_, fun _ => ?_⟩
    · rcases hp with hp | hp
      · rcases List.mem_cons.mp hp with rfl | hp
        · exact .inr htdi
        · exact .inl hp
      · by_cases hpq : p = q
        · exact .inr (hpq ▸ htdi)
        · exact .inr ((kvGet_kvSet_other 0 0 s.hst.tdi (q + 1) (p + 1) 3 (by omega)).trans hp)
    · rw [List.foldl_cons]
      cases l with
      | nil => exact hctr
      | cons p l =>
        refine (hc (by simp)).trans ?_
        rw [hctr]
        simp only [List.length_cons, Nat.min_def]
        split <;> split <;> split <;> omega

/-! ## Peers -/

theorem peer_eq {s : State} {r : BusReq} (hlink : s.linkUp = true) (hlen : r.len ≠ 0) (hpeer : s.peerEntries r.rid ≠ []) (wr : Bool) :
    (if !s.linkUp || (s.peerEntries r.rid).isEmpty || r.len = 0 then s else s.peerBus r wr) = s.peerBus r wr :=
  if_neg (by simp [hlink, hlen, hpeer])

theorem peerBus_served {s : State} {r : BusReq} {wr : Bool} (hbar : r.bar = 2) (hhbm : inHbm s.part.dies r.off r.len = true)
    (hpass : s.peerPasses r wr = true) : s.peerBus r wr = if wr then (s.serveBus r wr).bump 0 (Reg.hstCntLo 4) ((r.len + 63) / 64) else s.serveBus r wr := by
  unfold State.peerBus
  dsimp only
  rw [if_neg (not_not_intro hbar), if_neg (by rw [hhbm, hpass]; decide)]

theorem peerBus_refused {s : State} {r : BusReq} {wr : Bool} (hbar : r.bar = 2)
    (h : inHbm s.part.dies r.off r.len = false ∨ s.peerPasses r wr = false) :
    s.peerBus r wr = (s.bump 0 (Reg.hstCntLo 5) 1).refuseBus r wr := by
  unfold State.peerBus
  dsimp only
  rw [if_neg (not_not_intro hbar), if_pos (by rcases h with h | h <;> simp [h])]

theorem peerBus_otherBar {s : State} {r : BusReq} {wr : Bool} (hbar : r.bar ≠ 2) :
    s.peerBus r wr = if wr then s.bump 0 (Reg.hstCntLo 5) 1 else (s.bump 0 (Reg.hstCntLo 5) 1).emit (.busRefused r.rid) := by
  unfold State.peerBus
  exact if_pos hbar

theorem refuseBus_does (s : State) (r : BusReq) (wr : Bool) : let t := s.refuseBus r wr
    t.mem = s.mem ∧ t.regs = s.regs ∧ t.out = s.out ++ (if wr then [] else [.busRefused r.rid]) ∧
      t.ctr 0 (Reg.hstCntLo 6) = Nat.min ctrMax (s.ctr 0 (Reg.hstCntLo 6) + 1) ∧ ∀ i, i ≠ 6 → t.ctr 0 (Reg.hstCntLo i) = s.ctr 0 (Reg.hstCntLo i) := by
  have hother : ∀ i, i ≠ 6 → (s.bump 0 (Reg.hstCntLo 6) 1).ctr 0 (Reg.hstCntLo i) = s.ctr 0 (Reg.hstCntLo i) := fun i hi =>
    State.ctr_bump_other _ _ _ _ _ _ (by simp [Reg.hstCntLo]; omega)
  cases wr
  · exact ⟨rfl, rfl, rfl, State.ctr_bump_same s 0 _ 1, hother⟩
  · exact ⟨rfl, rfl, (List.append_nil _).symm, State.ctr_bump_same s 0 _ 1, hother⟩

/-! ## The bias of a page -/

/-- The byte of the bias table that holds a page's bit. -/
def biasAt (s : State) (n : Nat) : Nat := s.regAddr 0 Reg.hstBiasBaseLo + n / 8

theorem pageShared_eq (s : State) (n : Nat) : s.pageShared n = (s.biasReady && bit (s.byte (biasAt s n)).toNat (n % 8)) := rfl

theorem setBias_eq (s : State) (n : Nat) (b : Bool) :
    s.setBias n b = s.write (biasAt s n) [BitVec.ofNat 8 (setBit (s.byte (biasAt s n)).toNat (n % 8) b)] := rfl

theorem setBias_fields (s : State) (n : Nat) (b : Bool) : (s.setBias n b).regs = s.regs ∧ (s.setBias n b).ctrs = s.ctrs ∧
    (s.setBias n b).part = s.part ∧ (s.setBias n b).hst = s.hst ∧ (s.setBias n b).out = s.out := by
  rw [setBias_eq]
  exact ⟨State.write_regs _ _ _ _, State.write_ctrs _ _ _ _, State.write_part _ _ _ _, State.write_hst _ _ _ _, State.write_out _ _ _ _⟩

theorem setBias_memWf {s : State} (h : s.memWf = true) (n : Nat) (b : Bool) : (s.setBias n b).memWf = true := s.write_memWf h _ _ _

/-- Setting a page's bit sets that bit and leaves those of the other pages. -/
theorem pageShared_setBias {s : State} (hwf : s.memWf = true) (n m : Nat) (b : Bool) :
    (s.setBias n b).pageShared m = if m = n then s.biasReady && b else s.pageShared m := by
  obtain ⟨hr, -, hp, -, -⟩ := setBias_fields s n b
  have hready : (s.setBias n b).biasReady = s.biasReady := by
    unfold State.biasReady State.rbit
    rw [State.regN_congr hr hp]
  have hat : biasAt (s.setBias n b) m = biasAt s m := by
    unfold biasAt State.regAddr State.regPair
    rw [State.regN_congr hr hp, State.regN_congr hr hp]
  rw [pageShared_eq, hready, hat]
  by_cases hbyte : m / 8 = n / 8
  · have hsame : biasAt s m = biasAt s n := by unfold biasAt; rw [hbyte]
    have hlt : setBit (s.byte (biasAt s n)).toNat (n % 8) b < 2 ^ 8 := setFld_lt (s.byte (biasAt s n)).isLt (by omega)
    have hval : ((s.setBias n b).byte (biasAt s n)).toNat = setBit (s.byte (biasAt s n)).toNat (n % 8) b := by
      have h := s.byte_write_at hwf (biasAt s n) [BitVec.ofNat 8 (setBit (s.byte (biasAt s n)).toNat (n % 8) b)] false 0 (by simp)
      rw [setBias_eq]
      refine (congrArg BitVec.toNat h).trans ?_
      exact (BitVec.toNat_ofNat _ _).trans (Nat.mod_eq_of_lt hlt)
    rw [hsame, hval, bit_setBit]
    by_cases hm : m = n
    · subst hm
      rw [if_pos rfl, if_pos rfl]
    · rw [if_neg hm, if_neg (by omega), pageShared_eq, hsame]
  · have hne : m ≠ n := fun h => hbyte (h ▸ rfl)
    have hout : (s.setBias n b).byte (biasAt s m) = s.byte (biasAt s m) := by
      rw [setBias_eq]
      refine s.byte_write_outside _ _ false _ ?_
      rw [List.length_singleton]
      unfold biasAt
      omega
    rw [hout, if_neg hne, pageShared_eq]

/-! ## CXL.mem -/

theorem memTouch_shared {s : State} {n : Nat} (h : s.pageShared n = true) (hf : s.hst.flip = none) : s.memTouch n = s := by
  unfold State.memTouch State.flipTouched
  rw [if_pos h, hf]

theorem memTouch_owned {s : State} {n : Nat} (h : s.pageShared n = false) :
    s.memTouch n = (s.setBias n true).bump 0 (Reg.hstCntLo 0) 1 := by
  unfold State.memTouch
  rw [if_neg (by rw [h]; decide)]

theorem memRead_refused {s : State} {dpa : Nat} (hon : s.memOn = true)
    (h : inHbm s.part.dies (dpa / 64 * 64) 64 = false ∨ s.biasReady = false) : s.memRead dpa = s.memPoison (dpa / 64 * 64) := by
  unfold State.memRead
  dsimp only
  rw [if_neg (by rw [hon]; decide), if_pos (by rcases h with h | h <;> simp [h])]

theorem memWrite_refused {s : State} {dpa : Nat} {data : List Byte} (hon : s.memOn = true)
    (h : inHbm s.part.dies (dpa / 64 * 64) 64 = false ∨ s.biasReady = false) : s.memWrite dpa data = s.barRefuse := by
  unfold State.memWrite
  dsimp only
  rw [if_neg (by rw [hon]; decide), if_pos (by rcases h with h | h <;> simp [h])]

/-- A read that is not refused touches its page and then answers, with poison where the memory is out of service. -/
theorem memRead_served {s : State} {dpa : Nat} (hon : s.memOn = true) (hhbm : inHbm s.part.dies (dpa / 64 * 64) 64 = true) (hready : s.biasReady = true) :
    s.memRead dpa = let a := dpa / 64 * 64; let t := s.memTouch (a / 4096)
      if t.memOut a 64 then t.fresh.2.emit (.cxlData a ((List.range 64).map (Config.freeByte t.fresh.1)) true)
      else (t.emit (.cxlData a (t.bytes a 64) (t.tagged a 64))).access false a 64 := by
  unfold State.memRead
  dsimp only
  rw [if_neg (by rw [hon]; decide), if_neg (by rw [hhbm, hready]; decide)]

theorem memWrite_served {s : State} {dpa : Nat} {data : List Byte} (hon : s.memOn = true) (hhbm : inHbm s.part.dies (dpa / 64 * 64) 64 = true)
    (hready : s.biasReady = true) :
    s.memWrite dpa data = let a := dpa / 64 * 64; let t := s.memTouch (a / 4096)
      if t.memOut a 64 then t else (t.write a (padTo 64 data)).access true a 64 := by
  unfold State.memWrite
  dsimp only
  rw [if_neg (by rw [hon]; decide), if_neg (by rw [hhbm, hready]; decide)]

theorem memRead_touches {s : State} {dpa : Nat} (hon : s.memOn = true) (hhbm : inHbm s.part.dies (dpa / 64 * 64) 64 = true) (hready : s.biasReady = true)
    (hown : s.pageShared (dpa / 64 * 64 / 4096) = false) (hwf : s.memWf = true) : let t := s.memRead dpa
    t.pageShared (dpa / 64 * 64 / 4096) = true ∧ t.regs = s.regs ∧ t.ctr 0 (Reg.hstCntLo 0) = Nat.min ctrMax (s.ctr 0 (Reg.hstCntLo 0) + 1) := by
  set n := dpa / 64 * 64 / 4096 with hn
  have hshared : (s.setBias n true).pageShared n = true := by rw [pageShared_setBias hwf, if_pos rfl, hready]; rfl
  obtain ⟨hr, hc, -, -, -⟩ := setBias_fields s n true
  have hctr : ((s.setBias n true).bump 0 (Reg.hstCntLo 0) 1).ctr 0 (Reg.hstCntLo 0) = Nat.min ctrMax (s.ctr 0 (Reg.hstCntLo 0) + 1) := by
    rw [State.ctr_bump_same, State.ctr_congr hc]
  rw [memRead_served hon hhbm hready]
  dsimp only
  rw [← hn, memTouch_owned hown]
  split
  · exact ⟨hshared, hr, hctr⟩
  · generalize Output.cxlData _ _ _ = o
    refine ⟨?_, ?_, (State.access_ctr_other _ _ _ _ _ _ (by decide) (by decide)).trans hctr⟩
    · obtain ⟨c, k, e⟩ := State.access_state (((s.setBias n true).bump 0 (Reg.hstCntLo 0) 1).emit o) false (dpa / 64 * 64) 64
      rw [e]
      exact hshared
    · obtain ⟨c, k, e⟩ := State.access_state (((s.setBias n true).bump 0 (Reg.hstCntLo 0) 1).emit o) false (dpa / 64 * 64) 64
      rw [e]
      exact hr

end Sys2Proof.Machine

open Sys2Proof Sys2Proof.Machine

/-- Settles O44: a request through BAR2 is served where its function may touch the range and refused elsewhere; a peer's by the region whose key passes. -/
theorem busRequests : Obligations.BusRequests := by
  refine ⟨fun s r h hpeer => ⟨fun hhbm hmay hin => ⟨?_, fun hwf => ?_⟩, fun hbad => ⟨?_, ?_⟩, fun hhbm h0 hl => ⟨?_, ?_⟩⟩,
    fun s r hd hlink hlen hpeer => ⟨fun hbar hhbm hin => ⟨fun hpass => ?_, fun hpass hwf => ?_⟩, fun wr hbar hbad => ?_, fun wr hbar => ?_⟩⟩
  · refine (onDie_eq h.die).trans (congrArg _ ?_)
    rw [bus2_host h hpeer, hostBus_may hhbm hmay, serveBus_read hin]
  · refine .onDie h.die rfl ?_
    rw [bus2_host h hpeer, hostBus_may hhbm hmay]
    exact serveBus_write_does hwf hin
  · refine (onDie_eq h.die).trans (congrArg _ ?_)
    rw [bus2_host h hpeer, hostBus_refused hbad]
    rfl
  · refine (onDie_eq h.die).trans (congrArg _ ?_)
    rw [bus2_host h hpeer, hostBus_refused hbad]
    rfl
  · refine (onDie_eq h.die).trans (congrArg _ ?_)
    rw [bus2_host h hpeer, hostBus_locked hhbm h0 hl]
    rfl
  · refine .onDie h.die rfl ?_
    rw [bus2_host h hpeer, hostBus_locked hhbm h0 hl, if_pos rfl]
    obtain ⟨hm, hw, hr, ho, ht, hc⟩ := lockedWrites_does (s.lockedIn r.off r.len) s
    exact ⟨.of_eq hm hw, hr, ho, fun p hp => ht p (.inl hp), hc hl⟩
  · refine (onDie_eq hd).trans (congrArg _ ?_)
    rw [peer_eq hlink hlen hpeer, peerBus_served hbar hhbm hpass, if_neg (by decide), serveBus_read hin]
  · refine .onDie hd rfl ?_
    rw [peer_eq hlink hlen hpeer, peerBus_served hbar hhbm hpass, if_pos rfl]
    obtain ⟨hwrote, hr, hc, ho⟩ := serveBus_write_does hwf hin
    refine ⟨hwrote.of_mem rfl rfl rfl rfl, hr, ho, ?_⟩
    rw [State.ctr_bump_same, State.ctr_congr hc, State.access_ctr_other s true r.off r.len 0 _ (by decide) (by decide)]
  · refine .onDie hd rfl ?_
    rw [peer_eq hlink hlen hpeer, peerBus_refused hbar hbad]
    obtain ⟨hm, hr, ho, hc, hother⟩ := refuseBus_does (s.bump 0 (Reg.hstCntLo 5) 1) r wr
    refine ⟨hm, hr, ho, ?_, ?_⟩
    · rw [hother 5 (by decide), State.ctr_bump_same]
    · rw [hc, State.ctr_bump_other _ _ _ _ _ _ (by decide)]
  · refine .onDie hd rfl ?_
    rw [peer_eq hlink hlen hpeer, peerBus_otherBar hbar]
    cases wr
    · exact ⟨rfl, rfl, rfl, State.ctr_bump_same s 0 _ 1⟩
    · exact ⟨rfl, rfl, (List.append_nil _).symm, State.ctr_bump_same s 0 _ 1⟩

/-- Settles O45: a shared line reads and writes as memory holds it, a page owned by the device turns shared, and what is refused is counted. -/
theorem cxlRequests : Obligations.CxlRequests := by
  refine fun s dpa => fun hd hon => ⟨fun hhbm hready hsh hf hin => ⟨?_, fun data hwf => ?_⟩, fun hhbm hready hown hwf => ?_, fun hbad => ⟨?_, fun data => ?_⟩⟩
  · refine (onDie_eq hd).trans (congrArg _ ?_)
    rw [memRead_served hon hhbm hready]
    dsimp only
    rw [memTouch_shared hsh hf, if_neg (by rw [hin]; decide)]
  · refine .onDie hd rfl ?_
    rw [memWrite_served hon hhbm hready]
    dsimp only
    rw [memTouch_shared hsh hf, if_neg (by rw [hin]; decide)]
    obtain ⟨hr, -, ho⟩ := State.access_regs (s.write (dpa / 64 * 64) (padTo 64 data)) true (dpa / 64 * 64) 64
    obtain ⟨hm, hw, -⟩ := State.access_mem (s.write (dpa / 64 * 64) (padTo 64 data)) true (dpa / 64 * 64) 64
    refine ⟨(wrote_write hwf _ _).of_mem rfl rfl hm hw, hr.trans (State.write_regs _ _ _ _), ?_, ho.trans (State.write_out _ _ _ _)⟩
    refine State.access_ctrs_congr s true _ 64 (State.write_ctrs _ _ _ _) ?_ (State.write_part _ _ _ _)
    rw [State.write_fields]
  · exact .onDie hd rfl (memRead_touches hon hhbm hready hown hwf)
  · refine .onDie hd rfl ?_
    rw [memRead_refused hon hbad]
    exact ⟨⟨_, by rw [List.length_map, List.length_range], rfl⟩, rfl, rfl, State.ctr_bump_same s 0 _ 1⟩
  · refine (onDie_eq hd).trans (congrArg _ ?_)
    rw [memWrite_refused hon hbad]
    rfl

end

/-! PROOF. The commands of the bias table, the host's answers, and the host link. -/

section
namespace Sys2Proof.Machine

/-! ## Messages that leave one after another -/

/-- A list of messages leaves in its order, and nothing else changes. -/
theorem emitEach_eq (f : Nat → Output) (l : List Nat) (s : State) :
    l.foldl (fun (s : State) i => s.emit (f i)) s = { s with out := s.out ++ l.map f } := by
  induction l generalizing s with
  | nil => simp
  | cons i l ih =>
    rw [List.foldl_cons, ih]
    simp [State.emit, List.append_assoc]

theorem askPage_eq (s : State) (n : Nat) (own : Bool) :
    s.askPage n own = { (State.bump { s with hst := { s.hst with asked := addNew n s.hst.asked } } 0 (Reg.hstCntLo 3) 64) with
      out := s.out ++ (List.range 64).map fun i => Output.cacheReq (n * 64 + i) own } := by
  unfold State.askPage
  exact emitEach_eq (fun i => .cacheReq (n * 64 + i) own) _ _

/-! ## The bias table -/

/-- Pages to shared, one after the other. -/
theorem setBiases (first : Nat) (count : Nat) {s : State} (hwf : s.memWf = true) (hready : s.biasReady = true) :
    let t := (List.range count).foldl (fun (s : State) i => s.setBias (first + i) true) s
    t.memWf = true ∧ t.biasReady = true ∧ t.regs = s.regs ∧ t.part = s.part ∧ t.ctrs = s.ctrs ∧
      ∀ n, t.pageShared n = if first ≤ n ∧ n < first + count then true else s.pageShared n := by
  induction count with
  | zero => exact ⟨hwf, hready, rfl, rfl, rfl, fun n => (if_neg (by omega)).symm⟩
  | succ k ih =>
    rw [List.range_succ, List.foldl_append]
    generalize (List.range k).foldl (fun (s : State) i => s.setBias (first + i) true) s = u at ih ⊢
    obtain ⟨hwf', hready', hr, hp, hc, hn⟩ := ih
    obtain ⟨hr', hc', hp', -, -⟩ := setBias_fields u (first + k) true
    refine ⟨setBias_memWf hwf' _ _, ?_, hr'.trans hr, hp'.trans hp, hc'.trans hc, fun n => ?_⟩
    · exact (congrArg (fun v => bit v 12) (State.regN_congr hr' hp' 0 Reg.hstStatus)).trans hready'
    · refine (pageShared_setBias hwf' (first + k) n true).trans ?_
      rw [hn, hready']
      by_cases h : n = first + k
      · rw [if_pos h, if_pos (by omega)]
        rfl
      · rw [if_neg h]
        exact if_congr (by omega) rfl rfl

/-- Filtering a list by its keys takes out the keys that the filter refuses, and no other. -/
theorem kvFind_filter {α : Type} (p : Nat → Bool) (l : List (Nat × α)) (k : Nat) :
    kvFind (l.filter fun c => p c.1) k = if p k then kvFind l k else none := by
  induction l with
  | nil => exact (ite_self _).symm
  | cons c l ih =>
    rw [List.filter_cons]
    by_cases hc : c.1 = k
    · subst hc
      split
      · simp only [kvFind, if_pos]
      · rw [ih]
        simp [*]
    · split
      · simp only [kvFind, if_neg hc, ih]
      · simp only [kvFind, if_neg hc, ih]

/-- The table's bytes read 0 once bias is on, and no other byte changes. -/
theorem biasStart_byte {s : State} (hoff : s.rbit 0 Reg.hstCtrl 2 = false) (x : Nat) :
    s.biasStart.byte x = if s.regAddr 0 Reg.hstBiasBaseLo ≤ x ∧ x < s.regAddr 0 Reg.hstBiasBaseLo + s.hbmPages / 8 then 0 else s.byte x := by
  set a := s.regAddr 0 Reg.hstBiasBaseLo with ha
  set n := s.hbmPages / 8 with hn
  have hmem : s.biasStart.mem = s.mem.filter fun c => !(decide (a ≤ c.1) && decide (c.1 < a + n)) := by
    unfold State.biasStart
    rw [if_neg (by rw [hoff]; decide)]
    rfl
  have hwiped : s.biasStart.wiped = if s.wiped.isEmpty then [] else (a, n, none) :: s.wiped := by
    unfold State.biasStart
    rw [if_neg (by rw [hoff]; decide)]
    rfl
  have hfind : kvFind s.biasStart.mem x = if !(decide (a ≤ x) && decide (x < a + n)) then kvFind s.mem x else none := by
    rw [hmem]
    exact kvFind_filter (fun k => !(decide (a ≤ k) && decide (k < a + n))) s.mem x
  have hdflt : s.biasStart.dflt x = if a ≤ x ∧ x < a + n then 0 else s.dflt x := by
    unfold State.dflt State.wipedAt
    rw [hwiped]
    cases hw : s.wiped with
    | nil => simp [memDflt]
    | cons w l =>
      by_cases hx : a ≤ x ∧ x < a + n
      · simp [hx, memDflt]
      · have hx' : (decide (a ≤ x) && decide (x < a + n)) = false := by simpa using hx
        rw [if_neg hx]
        simp only [List.isEmpty_cons, Bool.false_eq_true, if_false]
        rw [List.find?_cons]
        dsimp only
        rw [hx']
  unfold State.byte kvGet
  rw [hfind, hdflt]
  by_cases hx : a ≤ x ∧ x < a + n
  · simp [hx]
  · have hx' : (decide (a ≤ x) && decide (x < a + n)) = false := by simpa using hx
    rw [if_neg hx, if_neg hx, hx']
    rfl

theorem hbmPages_eighth (s : State) {n : Nat} (h : n < s.hbmPages) : n / 8 < s.hbmPages / 8 := by
  unfold State.hbmPages hbmSize at h ⊢
  omega

theorem biasStart_does {s : State} (hoff : s.rbit 0 Reg.hstCtrl 2 = false) : let t := s.biasStart
    t.biasReady = true ∧ t.rbit 0 Reg.hstCtrl 2 = true ∧ (∀ n, n < s.hbmPages → t.pageShared n = false) ∧
      (∀ x, x < s.regAddr 0 Reg.hstBiasBaseLo ∨ s.regAddr 0 Reg.hstBiasBaseLo + s.hbmPages / 8 ≤ x → t.byte x = s.byte x) ∧
      RegsBut s t [regKey 0 Reg.hstCtrl, regKey 0 Reg.hstStatus] := by
  obtain ⟨u, hu, hbase⟩ : ∃ u : State, s.biasStart = (u.setRbit 0 Reg.hstCtrl 2 true).setRbit 0 Reg.hstStatus 12 true ∧ u.regs = s.regs ∧ u.part = s.part := by
    unfold State.biasStart
    rw [if_neg (by rw [hoff]; decide)]
    exact ⟨_, rfl, rfl, rfl⟩
  have hregs : RegsBut s s.biasStart [regKey 0 Reg.hstCtrl, regKey 0 Reg.hstStatus] := by
    rw [hu]
    exact ((RegsBut.of_eq hbase.1 hbase.2).setRbit (by simp) _ _).setRbit (by simp) _ _
  refine ⟨?_, ?_, fun n hn => ?_, fun x hx => ?_, hregs⟩
  · rw [hu]
    exact State.rbit_setRbit_same _ _ _ 12 _ (by decide)
  · rw [hu]
    refine (congrArg (fun v => bit v 2) (State.regN_setRegN_other _ _ _ _ _ _ (by decide))).trans ?_
    exact State.rbit_setRbit_same _ _ _ 2 _ (by decide)
  · have hat : biasAt s.biasStart n = biasAt s n := by
      unfold biasAt State.regAddr State.regPair
      rw [hregs.regN (by decide), hregs.regN (by decide)]
    have h8 := hbmPages_eighth s hn
    rw [pageShared_eq, hat, biasStart_byte hoff, if_pos (by unfold biasAt; omega)]
    simp [bit]
  · rw [biasStart_byte hoff, if_neg (by omega)]

/-! ## The commands -/

theorem biasCmd_shared {s : State} (hfree : s.rbit 0 Reg.hstBiasStatus 0 = false)
    (hin : s.rf 0 Reg.hstBiasFirst 0 27 + s.rf 0 Reg.hstBiasCount 0 27 ≤ s.hbmPages) (hready : s.biasReady = true) (hcount : s.rf 0 Reg.hstBiasCount 0 27 ≠ 0) :
    s.biasCmd false = (List.range (s.rf 0 Reg.hstBiasCount 0 27)).foldl (fun t i => t.setBias (s.rf 0 Reg.hstBiasFirst 0 27 + i) true) s := by
  unfold State.biasCmd
  dsimp only
  rw [if_neg (by rw [hfree]; decide), if_neg (by omega), if_neg (by simp [hready, hcount])]
  rfl

/-- The state that runs the command to device over `count` pages from `first`. -/
def flipping (s : State) (first count : Nat) : State :=
  let u := s.setRbit 0 Reg.hstBiasStatus 0 true
  { u with hst := { u.hst with flip := some ⟨true, first, count - 1, 0⟩ } }

theorem biasCmd_device {s : State} (hfree : s.rbit 0 Reg.hstBiasStatus 0 = false)
    (hin : s.rf 0 Reg.hstBiasFirst 0 27 + s.rf 0 Reg.hstBiasCount 0 27 ≤ s.hbmPages) (hready : s.biasReady = true) (hcount : s.rf 0 Reg.hstBiasCount 0 27 ≠ 0) :
    s.biasCmd true = (flipping s (s.rf 0 Reg.hstBiasFirst 0 27) (s.rf 0 Reg.hstBiasCount 0 27)).flipAsk (s.rf 0 Reg.hstBiasFirst 0 27) := by
  unfold State.biasCmd
  dsimp only
  rw [if_neg (by rw [hfree]; decide), if_neg (by omega), if_neg (by simp [hready, hcount])]
  rfl

theorem biasToDevice_does {s : State} (hfree : s.rbit 0 Reg.hstBiasStatus 0 = false)
    (hin : s.rf 0 Reg.hstBiasFirst 0 27 + s.rf 0 Reg.hstBiasCount 0 27 ≤ s.hbmPages) (hready : s.biasReady = true) (hcount : s.rf 0 Reg.hstBiasCount 0 27 ≠ 0) :
    let t := s.biasCmd true
    t.hst.flip = some ⟨true, s.rf 0 Reg.hstBiasFirst 0 27, s.rf 0 Reg.hstBiasCount 0 27 - 1, 0⟩ ∧ t.rbit 0 Reg.hstBiasStatus 0 = true ∧
      t.out = s.out ++ ((List.range 64).map fun i => Output.cacheReq (s.rf 0 Reg.hstBiasFirst 0 27 * 64 + i) true) ∧ t.mem = s.mem ∧
      RegsBut s t [regKey 0 Reg.hstBiasStatus] := by
  rw [biasCmd_device hfree hin hready hcount, State.flipAsk, askPage_eq]
  exact ⟨rfl, State.rbit_setRbit_same s 0 _ 0 _ (by decide), rfl, rfl, ((RegsBut.refl s _).setRbit (by simp) _ _).congr rfl rfl⟩

/-! ## The host's answers -/

theorem without_not_mem (x : Nat) (l : List Nat) : x ∉ without x l := by
  unfold without
  simp

/-- A state in which the host's answer for a page has come. -/
def answered (s : State) (page : Nat) : State :=
  { s with hst := { s.hst with asked := without page s.hst.asked, answered := addNew page s.hst.answered } }

theorem cacheIn_plain {s : State} {page : Nat} (hask : page ∈ s.hst.asked) (hflip : s.hst.flip = none) (data : Option (List Byte)) :
    s.cacheIn page data = answered (match data with | some b => s.write (4096 * page) (padTo 4096 b) | none => s) page := by
  have hasked : (!(false || s.hst.asked.contains page)) = false := by simp [hask]
  unfold State.cacheIn
  cases data with
  | none =>
    simp only [answered, hflip, hasked, Bool.false_eq_true, if_false]
  | some b =>
    simp only [answered, hflip, hasked, State.write_hst, Bool.false_eq_true, if_false]

theorem cacheIn_flip {s : State} {f : Flip} (hflip : s.hst.flip = some f) :
    s.cacheIn f.page none = ((s.setBias f.page false).bump 0 (Reg.hstCntLo 1) 1).flipNext f := by
  unfold State.cacheIn
  simp [hflip]

theorem regN_hst (u : State) (h : Hst) (d off : Nat) : ({ u with hst := h } : State).regN d off = u.regN d off := rfl

theorem biasClear_reads (u : State) : u.biasClear.hst.flip = u.hst.flip ∧ u.biasClear.ctrs = u.ctrs ∧
    u.biasClear.rbit 0 Reg.hstBiasStatus 0 = u.rbit 0 Reg.hstBiasStatus 0 ∧ ∀ n, u.biasClear.pageShared n = false := by
  have hregs : RegsBut u ((u.setRbit 0 Reg.hstCtrl 2 false).setRbit 0 Reg.hstStatus 12 false) [regKey 0 Reg.hstCtrl, regKey 0 Reg.hstStatus] :=
    ((RegsBut.refl u _).setRbit (by simp) _ _).setRbit (by simp) _ _
  have hsame : ∀ off, u.biasClear.regN 0 off = ((u.setRbit 0 Reg.hstCtrl 2 false).setRbit 0 Reg.hstStatus 12 false).regN 0 off :=
    fun off => by
      unfold State.biasClear
      exact regN_hst _ _ 0 off
  have hready : u.biasClear.biasReady = false := by
    unfold State.biasReady State.rbit
    rw [hsame]
    exact State.rbit_setRbit_same _ 0 _ 12 _ (by decide)
  have hflip : u.biasClear.hst.flip = u.hst.flip := by
    unfold State.biasClear
    rfl
  have hctrs : u.biasClear.ctrs = u.ctrs := by
    unfold State.biasClear
    rfl
  refine ⟨hflip, hctrs, ?_, fun n => ?_⟩
  · unfold State.rbit
    rw [hsame, hregs.regN (by decide)]
  rw [pageShared_eq, hready, Bool.false_and]

/-- A state whose bias command has ended. -/
def unflipped (u : State) : State := State.setRbit { u with hst := { u.hst with flip := none } } 0 Reg.hstBiasStatus 0 false

theorem biasEnd_eq (u : State) : u.biasEnd = if u.hst.biasOff then (unflipped u).biasClear else unflipped u := rfl

theorem unflipped_reads (u : State) : (unflipped u).hst.flip = none ∧ (unflipped u).ctrs = u.ctrs ∧ (unflipped u).rbit 0 Reg.hstBiasStatus 0 = false ∧
    ∀ n, (unflipped u).pageShared n = u.pageShared n := by
  have hregs : RegsBut u (unflipped u) [regKey 0 Reg.hstBiasStatus] :=
    (RegsBut.of_eq (t := { u with hst := { u.hst with flip := none } }) rfl rfl).setRbit (by simp) _ _
  refine ⟨rfl, rfl, State.rbit_setRbit_same _ 0 _ 0 _ (by decide), fun n => ?_⟩
  have hbyte : (unflipped u).byte = u.byte := rfl
  unfold State.pageShared State.regAddr State.regPair State.rbit
  rw [hregs.regN (by decide), hregs.regN (by decide), hregs.regN (by decide), hbyte]

/-- The end of a command makes no page shared. -/
theorem biasEnd_reads (u : State) : let t := u.biasEnd
    t.hst.flip = none ∧ t.rbit 0 Reg.hstBiasStatus 0 = false ∧ t.ctrs = u.ctrs ∧ ∀ n, u.pageShared n = false → t.pageShared n = false := by
  obtain ⟨hflip, hctrs, hstatus, hshared⟩ := unflipped_reads u
  obtain ⟨hflip', hctrs', hstatus', hshared'⟩ := biasClear_reads (unflipped u)
  rw [biasEnd_eq]
  split
  · exact ⟨hflip'.trans hflip, hstatus'.trans hstatus, hctrs'.trans hctrs, fun n _ => hshared' n⟩
  · exact ⟨hflip, hstatus, hctrs, fun n hn => (hshared n).trans hn⟩

/-- Where a command goes on after a page, or that it ends. -/
theorem flipNext_reads (u : State) (f : Flip) : let t := u.flipNext f
    (∀ n, u.pageShared n = false → t.pageShared n = false) ∧ t.ctr 0 (Reg.hstCntLo 1) = u.ctr 0 (Reg.hstCntLo 1) ∧
      (f.left = 0 → t.hst.flip = none ∧ t.rbit 0 Reg.hstBiasStatus 0 = false) ∧
      (f.left ≠ 0 → t.hst.flip = some { f with page := f.page + 1, left := f.left - 1, restarts := 0 }) := by
  unfold State.flipNext
  dsimp only
  split
  · obtain ⟨hflip, hstatus, hc, hn⟩ := biasEnd_reads { u with hst := { u.hst with asked := without f.page u.hst.asked } }
    exact ⟨hn, State.ctr_congr hc _ _, fun _ => ⟨hflip, hstatus⟩, fun h => absurd ‹_› h⟩
  · rw [State.flipAsk, askPage_eq]
    refine ⟨fun n hn => hn, ?_, fun h => absurd h ‹_›, fun _ => rfl⟩
    exact State.ctr_bump_other _ _ _ _ _ _ (by decide)

/-! ## The host link -/

/-- A field inside the low bits that are set reads as the value set. -/
theorem fld_setFld_low (n len v a l : Nat) (h : a + l ≤ len) : fld (setFld n 0 len v) a l = fld v a l := by
  have hlow : setFld n 0 len v % 2 ^ len = v % 2 ^ len := by
    rw [setFld_eq, Nat.zero_add, Nat.pow_zero, Nat.mod_one, Nat.zero_add, Nat.one_mul, Nat.add_mul_mod_self_left, Nat.mod_mod]
  have hdvd : 2 ^ (a + l) ∣ 2 ^ len := Nat.pow_dvd_pow 2 h
  rw [fld_eq_mod_div, fld_eq_mod_div, ← Nat.mod_mod_of_dvd _ hdvd, hlow, Nat.mod_mod_of_dvd _ hdvd]

theorem rf_setRf_low (s : State) (d off len v a l : Nat) (hlen : len ≤ 32) (h : a + l ≤ len) : (s.setRf d off 0 len v).rf d off a l = fld v a l := by
  unfold State.rf
  rw [State.regN_setRf _ _ _ _ _ _ (by omega), fld_setFld_low _ _ _ _ _ h]

theorem rbit_setRf_low (s : State) (d off len v i : Nat) (hlen : len ≤ 32) (h : i < len) : (s.setRf d off 0 len v).rbit d off i = bit v i := by
  unfold State.rbit
  rw [State.regN_setRf _ _ _ _ _ _ (by omega), bit_eq_fld, fld_setFld_low _ _ _ _ _ h, ← bit_eq_fld]

theorem sendPending_fields (s : State) (fn : Nat) : (s.sendPending fn).mem = s.mem ∧ (s.sendPending fn).regs = s.regs ∧ (s.sendPending fn).hst.cfg = s.hst.cfg := by
  unfold State.sendPending
  exact foldl_keeps (P := fun t : State => t.mem = s.mem ∧ t.regs = s.regs ∧ t.hst.cfg = s.hst.cfg) (f := fun (t : State) v =>
    ({ t with hst := { t.hst with pba := kvSet false t.hst.pba (512 * fn + v) false } } : State).sendVector fn v) (fun t v h => h) _ ⟨rfl, rfl, rfl⟩

/-- The word of HST_STATUS that a trained link gives has the fields of Table 15-1 in their places. -/
theorem linkWord_fields {rate width : Nat} (flit memEn cacheEn : Bool) (hr : rate ≤ 6) (hw : width ≤ 16) :
    let v := 1 + 2 * rate + 16 * width + 512 * b2n flit + 1024 * b2n memEn + 2048 * b2n cacheEn
    v < 2 ^ 12 ∧ bit v 0 = true ∧ fld v 1 3 = rate ∧ fld v 4 5 = width ∧ bit v 9 = flit ∧ bit v 10 = memEn ∧ bit v 11 = cacheEn := by
  have hb : ∀ b : Bool, b2n b ≤ 1 := fun b => by cases b <;> decide
  have h9 := hb flit
  have h10 := hb memEn
  have h11 := hb cacheEn
  have hbit : ∀ n : Nat, ∀ b : Bool, n % 2 = b2n b → (n % 2 == 1) = b := fun n b h => by
    rw [h]
    cases b <;> rfl
  unfold fld bit
  refine ⟨by omega, hbit _ true ?_, by omega, by omega, hbit _ _ ?_, hbit _ _ ?_, hbit _ _ ?_⟩
  · simp only [b2n_true]; omega
  · omega
  · omega
  · omega

end Sys2Proof.Machine

open Sys2Proof Sys2Proof.Machine

/-- Settles O46: the table's bits read 0 once bias is on; commands set bits or ask for lines page by page, and the host's answers let them go on. -/
theorem biasCommands : Obligations.BiasCommands := by
  intro s first count hd
  refine ⟨fun hwf hoff => .onDie hd rfl (biasStart_does hoff), fun hbusy => ⟨?_, ?_⟩, fun hfree hpast => ⟨?_, ?_⟩, fun hfree hin hready hcount => ⟨fun hwf => ?_, ?_⟩,
    fun page hlink hask hflip => ⟨?_, fun b hwf => ?_⟩, fun f hlink hflip hready hwf => ?_⟩
  · refine (onDie_eq hd).trans (congrArg _ ?_)
    exact if_pos hbusy
  · refine (onDie_eq hd).trans (congrArg _ ?_)
    exact if_pos hbusy
  · refine (onDie_eq hd).trans (congrArg _ ?_)
    exact (if_neg (by rw [hfree]; decide)).trans (if_pos hpast)
  · refine (onDie_eq hd).trans (congrArg _ ?_)
    exact (if_neg (by rw [hfree]; decide)).trans (if_pos hpast)
  · refine .onDie hd rfl ?_
    rw [biasCmd_shared hfree hin hready hcount]
    obtain ⟨-, -, hr, -, hc, hn⟩ := setBiases first count hwf hready
    exact ⟨fun n h1 h2 => (hn n).trans (if_pos ⟨h1, h2⟩), fun n h => (hn n).trans (if_neg (by omega)), hr, hc⟩
  · exact .onDie hd rfl (biasToDevice_does hfree hin hready hcount)
  · refine .onDie hd rfl ?_
    rw [if_pos hlink, cacheIn_plain hask hflip]
    exact ⟨without_not_mem _ _, addNew_mem _ _, rfl, rfl⟩
  · refine .onDie hd rfl ?_
    rw [if_pos hlink, cacheIn_plain hask hflip]
    exact ⟨(wrote_write hwf _ _).of_mem rfl rfl rfl rfl, without_not_mem _ _, addNew_mem _ _, State.write_regs _ _ _ _⟩
  · refine .onDie hd rfl ?_
    rw [if_pos hlink, cacheIn_flip hflip]
    obtain ⟨hn, hc, hlast, hgo⟩ := flipNext_reads ((s.setBias f.page false).bump 0 (Reg.hstCntLo 1) 1) f
    refine ⟨hn _ ?_, hc.trans ?_, hlast, hgo⟩
    · exact (pageShared_setBias hwf f.page f.page false).trans ((if_pos rfl).trans (Bool.and_false _))
    · rw [State.ctr_bump_same, State.ctr_congr (setBias_fields s f.page false).2.1]

/-- Settles O47: the link trains, comes up with what it trained to and goes down; configuration requests are retried, read and write. -/
theorem hostLink : Obligations.HostLink := by
  intro s hd
  refine ⟨fun hrst hlost => ?_, fun rate width flit memEn cacheEn htrain hrst hlost h1 h6 hwidth hflit => ?_, ?_, fun fn off hlink hfn hoff => ⟨fun hstage wr => ?_,
    fun h2 hF => ⟨?_, fun v => ⟨fun htake => ?_, fun htake => ?_⟩⟩⟩⟩
  · refine (onDie_eq hd).trans (congrArg _ ?_)
    exact if_neg (by rw [hrst, hlost]; decide)
  · refine .onDie hd rfl ?_
    have hw : width ≤ 16 := by
      simp only [List.mem_cons, List.not_mem_nil, or_false] at hwidth
      omega
    have hr6 : (decide (rate = 6) && !flit) = false := by
      cases hf : flit
      · rw [Bool.and_eq_false_imp]
        intro h
        exact absurd (hflit (of_decide_eq_true h)) (by rw [hf]; decide)
      · simp
    rw [if_neg (by simp only [htrain, hrst, hlost, hr6]; simp [hwidth]; omega)]
    obtain ⟨hlt, hv0, hv1, hv4, hv9, hv10, hv11⟩ := linkWord_fields flit memEn cacheEn h6 hw
    generalize 1 + 2 * rate + 16 * width + 512 * b2n flit + 1024 * b2n memEn + 2048 * b2n cacheEn = v at *
    have hrf : ∀ a l, a + l ≤ 12 → (s.setRf 0 Reg.hstStatus 0 12 v).rf 0 Reg.hstStatus a l = fld v a l := fun a l => rf_setRf_low s 0 _ 12 v a l (by decide)
    have hbit : ∀ i, i < 12 → (s.setRf 0 Reg.hstStatus 0 12 v).rbit 0 Reg.hstStatus i = bit v i := fun i => rbit_setRf_low s 0 _ 12 v i (by decide)
    exact ⟨(hbit 0 (by decide)).trans hv0, (hrf 1 3 (by decide)).trans hv1, (hrf 4 5 (by decide)).trans hv4, (hbit 9 (by decide)).trans hv9,
      (hbit 10 (by decide)).trans hv10, (hbit 11 (by decide)).trans hv11, State.rbit_setRf_other s 0 _ v 12 (by decide) (by decide), rfl,
      (RegsBut.refl s _).setRf (by simp) _ _ _⟩
  · refine .onDie hd rfl ⟨?_, rfl, rfl, rfl, ?_, (RegsBut.refl s _).setRf (by simp) _ _ _⟩
    · exact (rf_setRf_low s 0 Reg.hstStatus 12 0 0 12 (by decide) (by decide)).trans rfl
    · exact State.rbit_setRf_other s 0 Reg.hstStatus 0 12 (by decide) (by decide)
  · refine (onDie_eq hd).trans (congrArg _ ?_)
    rw [if_neg (by simp [hlink, hfn, hoff]), if_pos (by simpa using hstage)]
  · refine (onDie_eq hd).trans (congrArg _ ?_)
    rw [if_neg (by simp [hlink, hfn, hoff]), if_neg (by simp [hF]; omega)]
    rfl
  · refine (onDie_eq hd).trans (congrArg _ ?_)
    rw [if_neg (by simp [hlink, hfn, hoff]), if_neg (by simp [hF]; omega)]
    exact if_pos (by rw [htake]; rfl)
  · refine .onDie hd rfl ?_
    rw [if_neg (by simp [hlink, hfn, hoff]), if_neg (by simp [hF]; omega)]
    unfold State.cfgServe
    dsimp only
    rw [if_neg (by rw [htake]; decide)]
    exact sendPending_fields _ fn

end

/-! PROOF. Two layers that the events of power, faults and links share: what posting events leaves unchanged, and what an operation done on
each die of the part leaves. -/

section
namespace Sys2Proof.Machine

/-! ## Posting events -/

/-- Registers that posting an event never writes: all but the tails of the event queues. -/
abbrev QuietReg (o : Nat) : Prop := o < 2 ^ 24 ∧ (o < 0x110800 ∨ 0x110A00 ≤ o)

/-- Counters that posting an event never counts: those outside the memories' blocks, but for the events written and lost. -/
abbrev QuietCtr (o : Nat) : Prop := o < 2 ^ 24 ∧ (o < 0xA0000 ∨ 0xC0000 ≤ o) ∧ o ≠ Reg.ringCntLo 5 ∧ o ≠ Reg.ringCntLo 6

/-- From `s` to `t` events have been posted: memory, counters, queues' tails, pending vectors and what leaves the package may change. -/
structure Posts (s t : State) : Prop where
  frame : t = { s with regs := t.regs, ctrs := t.ctrs, freeCtr := t.freeCtr, mem := t.mem, poison := t.poison, out := t.out,
                       seq := { s.seq with evqArm := t.seq.evqArm, evLost := t.seq.evLost }, hst := { s.hst with pba := t.hst.pba } }
  reg : ∀ d o, QuietReg o → t.reg d o = s.reg d o
  ctr : ∀ d o, QuietCtr o → t.ctr d o = s.ctr d o

namespace Posts

variable {s t u : State}

theorem refl (s : State) : Posts s s := ⟨rfl, fun _ _ _ => rfl, fun _ _ _ => rfl⟩

theorem trans (h : Posts s t) (g : Posts t u) : Posts s u := by
  refine ⟨?_, fun d o ho => (g.reg d o ho).trans (h.reg d o ho), fun d o ho => (g.ctr d o ho).trans (h.ctr d o ho)⟩
  have e := g.frame
  rw [h.frame] at e
  exact e

theorem part (h : Posts s t) : t.part = s.part := by rw [h.frame]
theorem pending (h : Posts s t) : t.pending = s.pending := by rw [h.frame]
theorem wiped (h : Posts s t) : t.wiped = s.wiped := by rw [h.frame]
theorem refCount (h : Posts s t) : t.refCount = s.refCount := by rw [h.frame]
theorem works (h : Posts s t) : t.seq.works = s.seq.works := by rw [h.frame]
theorem groups (h : Posts s t) : t.groups = s.groups := by rw [h.frame]
theorem eths (h : Posts s t) : t.eths = s.eths := by rw [h.frame]
theorem wires (h : Posts s t) : t.wires = s.wires := by rw [h.frame]
theorem torus (h : Posts s t) : t.torus = s.torus := by rw [h.frame]
theorem pwr (h : Posts s t) : t.pwr = s.pwr := by rw [h.frame]
theorem rst (h : Posts s t) : t.rst = s.rst := by rw [h.frame]
theorem disc (h : Posts s t) : t.disc = s.disc := by rw [h.frame]
theorem grd (h : Posts s t) : t.grd = s.grd := by rw [h.frame]
theorem ras (h : Posts s t) : t.ras = s.ras := by rw [h.frame]
theorem tripped (h : Posts s t) : t.tripped = s.tripped := by rw [h.frame]
theorem hst (h : Posts s t) : t.hst = { s.hst with pba := t.hst.pba } := by
  have e := congrArg State.hst h.frame
  exact e

theorem regN (h : Posts s t) (d : Nat) {o : Nat} (ho : QuietReg o) : t.regN d o = s.regN d o := by
  rw [State.regN, h.reg d o ho, State.regN]

theorem rbit (h : Posts s t) (d : Nat) {o : Nat} (ho : QuietReg o) (i : Nat) : t.rbit d o i = s.rbit d o i := by
  rw [State.rbit, h.regN d ho, State.rbit]

theorem rf (h : Posts s t) (d : Nat) {o : Nat} (ho : QuietReg o) (lo len : Nat) : t.rf d o lo len = s.rf d o lo len := by
  rw [State.rf, h.regN d ho, State.rf]

theorem write (s : State) (a : Nat) (bs : List Byte) (tag : Bool) : Posts s (s.write a bs tag) := by
  refine ⟨?_, fun d o _ => s.write_reg a bs tag d o, fun d o _ => s.write_ctr a bs tag d o⟩
  rw [State.write_fields]

theorem access (s : State) (wr : Bool) (a len : Nat) : Posts s (s.access wr a len) := by
  refine ⟨?_, fun d o _ => ?_, fun d o ho => s.access_ctr_other wr a len d o ho.1 ho.2.1⟩
  all_goals
    obtain ⟨c, n, e⟩ := s.access_state wr a len
    rw [e]
  rfl

theorem hostReq (s : State) (p : Option Nat) (wr data : Bool) (a len : Nat) : Posts s (s.hostReq p wr data a len) := by
  obtain ⟨o, e⟩ := hostReq_state s p wr data a len
  rw [e]
  exact ⟨rfl, fun _ _ _ => rfl, fun _ _ _ => rfl⟩

theorem evqTail (s : State) {p : Nat} (hp : p < 16) (v : Nat) : Posts s (s.setRegN 0 (Reg.evqTail p) v) := by
  refine ⟨rfl, fun d o ho => State.reg_setReg_other _ _ _ _ _ _ (State.regKey_ne ho.1 ?_ (.inr ?_)), fun _ _ _ => rfl⟩
  · unfold Reg.evqTail
    omega
  · have := ho.2
    unfold Reg.evqTail
    omega

theorem bump (s : State) (d : Nat) {i : Nat} (hi : i = 5 ∨ i = 6) (n : Nat) : Posts s (s.bump d (Reg.ringCntLo i) n) := by
  refine ⟨rfl, fun _ _ _ => rfl, fun e o ho => State.ctr_bump_other _ _ _ _ _ _ (State.regKey_ne ho.1 ?_ (.inr ?_))⟩
  · unfold Reg.ringCntLo
    omega
  · obtain ⟨-, -, h5, h6⟩ := ho
    rcases hi with rfl | rfl
    · exact h5
    · exact h6

theorem seq (s : State) (a : List Nat) (l : List (Nat × Nat)) : Posts s { s with seq := { s.seq with evqArm := a, evLost := l } } :=
  ⟨rfl, fun _ _ _ => rfl, fun _ _ _ => rfl⟩

theorem interrupt (s : State) (p v : Nat) : Posts s (s.interrupt p v) := by
  unfold State.interrupt
  dsimp only
  generalize (if s.fnOn (p + 1) && s.msixEn (p + 1) then p + 1 else 0) = fn
  split
  · exact ⟨rfl, fun _ _ _ => rfl, fun _ _ _ => rfl⟩
  · exact ⟨rfl, fun _ _ _ => rfl, fun _ _ _ => rfl⟩

theorem evqWrite (s : State) {p : Nat} (hp : p < 16) (code d src : Nat) (payload : List Byte) : Posts s (s.evqWrite p code d src payload) := by
  unfold State.evqWrite
  dsimp only
  generalize s.regAddr 0 (Reg.evqBaseLo p) + 32 * (s.regN 0 (Reg.evqTail p) % s.evqSize p) = a
  generalize natLe 1 (1 - s.regN 0 (Reg.evqTail p) / s.evqSize p % 2) = own
  generalize natLe 1 code ++ natLe 1 d ++ natLe 2 src ++ padTo 27 payload = rec
  have h1 : Posts s (((s.write a rec).write (a + 31) own).access true a 32) := ((write s _ _ _).trans (write _ _ _ _)).trans (access _ _ _ _)
  have h2 := (h1.trans (hostReq _ none true false a 32)).trans ((evqTail _ hp (s.regN 0 (Reg.evqTail p) + 1)).trans (bump _ d (.inl rfl) 1))
  generalize State.bump _ d (Reg.ringCntLo 5) 1 = u at h2 ⊢
  split
  · exact (h2.trans (seq u _ u.seq.evLost)).trans (interrupt _ _ _)
  · exact h2

theorem event (s : State) {p : Nat} (hp : p < 16) (code d src : Nat) (payload : List Byte) : Posts s (s.event p code d src payload) := by
  unfold State.event
  split
  · exact evqWrite s hp code d src payload
  · exact (bump s d (.inr rfl) 1).trans (seq _ (s.bump d (Reg.ringCntLo 6) 1).seq.evqArm _)

theorem foldl {α : Type} {f : State → α → State} (l : List α) (hf : ∀ s, ∀ a ∈ l, Posts s (f s a)) (s : State) : Posts s (l.foldl f s) := by
  induction l generalizing s with
  | nil => exact refl s
  | cons a l ih => exact (hf s a List.mem_cons_self).trans (ih (fun s b hb => hf s b (List.mem_cons_of_mem _ hb)) _)

theorem partsOn_lt {s : State} {p : Nat} (h : p ∈ s.partsOn) : p < 16 :=
  (List.mem_range.mp (List.mem_of_mem_filter h)).trans_le (parts_le s.part)

theorem eventAll (s : State) (code d src : Nat) (payload : List Byte) : Posts s (s.eventAll code d src payload) :=
  foldl _ (fun t _ hp => event t (partsOn_lt hp) code d src payload) s

end Posts

/-! ## Changing registers alone -/

/-- From `s` to `t` registers may change, and nothing else. -/
structure SetsRegs (s t : State) : Prop where
  frame : t = { s with regs := t.regs }

namespace SetsRegs

variable {s t u : State}

theorem refl (s : State) : SetsRegs s s := ⟨rfl⟩

theorem trans (h : SetsRegs s t) (g : SetsRegs t u) : SetsRegs s u := by
  have e := g.frame
  rw [h.frame] at e
  exact ⟨e⟩

theorem setRegN (s : State) (d off v : Nat) : SetsRegs s (s.setRegN d off v) := ⟨rfl⟩
theorem setRbit (s : State) (d off i : Nat) (b : Bool) : SetsRegs s (s.setRbit d off i b) := ⟨rfl⟩

theorem foldl {α : Type} {f : State → α → State} (hf : ∀ s a, SetsRegs s (f s a)) (l : List α) (s : State) : SetsRegs s (l.foldl f s) :=
  foldl_keeps (P := SetsRegs s) (fun t a h => h.trans (hf t a)) l (refl s)

theorem part (h : SetsRegs s t) : t.part = s.part := by rw [h.frame]
theorem mem (h : SetsRegs s t) : t.mem = s.mem := by rw [h.frame]
theorem wiped (h : SetsRegs s t) : t.wiped = s.wiped := by rw [h.frame]
theorem ctrs (h : SetsRegs s t) : t.ctrs = s.ctrs := by rw [h.frame]
theorem pwr (h : SetsRegs s t) : t.pwr = s.pwr := by rw [h.frame]
theorem out (h : SetsRegs s t) : t.out = s.out := by rw [h.frame]
theorem tripped (h : SetsRegs s t) : t.tripped = s.tripped := by rw [h.frame]
theorem refCount (h : SetsRegs s t) : t.refCount = s.refCount := by rw [h.frame]

end SetsRegs

/-! ## An operation on each of some dies -/

/-- What an operation makes of each member of a list that holds none twice, where it disturbs neither the members before nor those to come. -/
theorem foldl_each {f : State → Nat → State} {B A : State → Nat → Prop} (hdo : ∀ t d, B t d → A (f t d) d)
    (hA : ∀ t d e, e ≠ d → A t e → A (f t d) e) (hB : ∀ t d e, e ≠ d → B t e → B (f t d) e) (l : List Nat) (hl : l.Nodup) {s : State}
    (hs : ∀ d ∈ l, B s d) : ∀ d ∈ l, A (l.foldl f s) d := by
  have hkeep : ∀ (l : List Nat) (t : State) (e : Nat), e ∉ l → A t e → A (l.foldl f t) e := by
    intro l
    induction l with
    | nil => exact fun t e _ h => h
    | cons d l ih =>
      intro t e he h
      exact ih _ e (fun hm => he (List.mem_cons_of_mem _ hm)) (hA t d e (fun h => he (h ▸ List.mem_cons_self)) h)
  induction l generalizing s with
  | nil => exact fun d hd => absurd hd List.not_mem_nil
  | cons d l ih =>
    obtain ⟨hd, hl⟩ := List.nodup_cons.mp hl
    intro e he
    rcases List.mem_cons.mp he with rfl | he
    · exact hkeep l _ e hd (hdo s e (hs e List.mem_cons_self))
    · exact ih hl (fun x hx => hB s d x (fun h => hd (h ▸ hx)) (hs x (List.mem_cons_of_mem _ hx))) e he

theorem eachDie_each {f : State → Nat → State} {B A : State → Nat → Prop} (hdo : ∀ t d, B t d → A (f t d) d)
    (hA : ∀ t d e, e ≠ d → A t e → A (f t d) e) (hB : ∀ t d e, e ≠ d → B t e → B (f t d) e) {s : State} (hs : ∀ d, B s d) {d : Nat} (hd : d < s.part.dies) :
    A (s.eachDie f) d :=
  foldl_each hdo hA hB _ List.nodup_range (fun d _ => hs d) d (List.mem_range.mpr hd)

/-- An operation that writes one register of its die leaves every other register. -/
theorem eachDie_regN_other {f : State → Nat → State} {off o : Nat} (ho : o < 2 ^ 24) (hoff : off < 2 ^ 24) (hne : o ≠ off)
    (hf : ∀ t d, RegsBut t (f t d) [regKey d off]) (s : State) (e : Nat) : (s.eachDie f).regN e o = s.regN e o :=
  foldl_keeps (P := fun t : State => t.regN e o = s.regN e o)
    (fun t d h => ((hf t d).regN (by simpa using State.regKey_ne ho hoff (.inr hne))).trans h) _ rfl

/-- A register that an operation gives a value on each die has it on each die. -/
theorem eachDie_regN_same {f : State → Nat → State} {off : Nat} (hoff : off < 2 ^ 24) (hf : ∀ t d, RegsBut t (f t d) [regKey d off]) {s : State}
    {v : Nat → Nat} (hv : ∀ t d, t.regN d off = s.regN d off → (f t d).regN d off = v d) {d : Nat} (hd : d < s.part.dies) :
    (s.eachDie f).regN d off = v d := by
  have hother : ∀ t d e, e ≠ d → (f t d).regN e off = t.regN e off := fun t d e he =>
    (hf t d).regN (by simpa using State.regKey_ne hoff hoff (.inl he))
  exact eachDie_each (A := fun t d => t.regN d off = v d) (B := fun t d => t.regN d off = s.regN d off) hv
    (fun t d e he h => (hother t d e he).trans h) (fun t d e he h => (hother t d e he).trans h) (fun _ => rfl) hd

/-- A counter that an operation counts once on each die. -/
theorem eachDie_ctr_same {f : State → Nat → State} {off n : Nat}
    (hf : ∀ t d, (f t d).ctr d off = Nat.min ctrMax (t.ctr d off + n)) (hother : ∀ t d e, e ≠ d → (f t d).ctr e off = t.ctr e off) {s : State}
    {d : Nat} (hd : d < s.part.dies) : (s.eachDie f).ctr d off = Nat.min ctrMax (s.ctr d off + n) :=
  eachDie_each (A := fun t d => t.ctr d off = Nat.min ctrMax (s.ctr d off + n)) (B := fun t d => t.ctr d off = s.ctr d off)
    (fun t d h => (hf t d).trans (by rw [h])) (fun t d e he h => (hother t d e he).trans h) (fun t d e he h => (hother t d e he).trans h) (fun _ => rfl) hd

end Sys2Proof.Machine
end

/-! PROOF. Power: clocks, regulator warnings, heat and the control of power. -/

section
namespace Sys2Proof.Machine

theorem dies_pos (p : Part) : 0 < p.dies := by
  cases p <;> decide

/-! ## Events of the power manager -/

/-- From `s` to `t` events of the power manager have been posted or have cleared: beside what events change, the list of conditions that last
and the count of merged events may change. -/
structure Notes (s t : State) : Prop where
  frame : t = { s with regs := t.regs, ctrs := t.ctrs, freeCtr := t.freeCtr, mem := t.mem, poison := t.poison, out := t.out,
                       seq := { s.seq with evqArm := t.seq.evqArm, evLost := t.seq.evLost }, hst := { s.hst with pba := t.hst.pba },
                       pwr := { s.pwr with active := t.pwr.active } }
  reg : ∀ d o, QuietReg o → t.reg d o = s.reg d o
  ctr : ∀ d o, QuietCtr o → o ≠ Reg.pwrCntLo 7 → t.ctr d o = s.ctr d o

namespace Notes

variable {s t u : State}

theorem refl (s : State) : Notes s s := ⟨rfl, fun _ _ _ => rfl, fun _ _ _ _ => rfl⟩

theorem trans (h : Notes s t) (g : Notes t u) : Notes s u := by
  refine ⟨?_, fun d o ho => (g.reg d o ho).trans (h.reg d o ho), fun d o ho h7 => (g.ctr d o ho h7).trans (h.ctr d o ho h7)⟩
  have e := g.frame
  rw [h.frame] at e
  exact e

theorem of_posts (h : Posts s t) : Notes s t := by
  refine ⟨?_, h.reg, fun d o ho _ => h.ctr d o ho⟩
  rw [h.pwr]
  exact h.frame

theorem active (s : State) (l : List (Nat × Nat)) : Notes s { s with pwr := { s.pwr with active := l } } := ⟨rfl, fun _ _ _ => rfl, fun _ _ _ _ => rfl⟩

theorem pwrClear (s : State) (d code : Nat) : Notes s (s.pwrClear d code) := active s _

theorem pwrEvent (s : State) (d code : Nat) (payload : List Byte) : Notes s (s.pwrEvent d code payload) := by
  unfold State.pwrEvent
  split
  · exact ⟨rfl, fun _ _ _ => rfl, fun e o ho h7 => State.ctr_bump_other _ _ _ _ _ _ (State.regKey_ne ho.1 (by decide) (.inr h7))⟩
  · exact (active s _).trans (of_posts (Posts.eventAll _ _ _ _ _))

theorem part (h : Notes s t) : t.part = s.part := by rw [h.frame]
theorem tripped (h : Notes s t) : t.tripped = s.tripped := by rw [h.frame]
theorem refCount (h : Notes s t) : t.refCount = s.refCount := by rw [h.frame]
theorem pwr (h : Notes s t) : t.pwr = { s.pwr with active := t.pwr.active } := by
  have e := congrArg State.pwr h.frame
  exact e

theorem regN (h : Notes s t) (d : Nat) {o : Nat} (ho : QuietReg o) : t.regN d o = s.regN d o := by
  rw [State.regN, h.reg d o ho, State.regN]

theorem rbit (h : Notes s t) (d : Nat) {o : Nat} (ho : QuietReg o) (i : Nat) : t.rbit d o i = s.rbit d o i := by
  rw [State.rbit, h.regN d ho, State.rbit]

theorem rf (h : Notes s t) (d : Nat) {o : Nat} (ho : QuietReg o) (lo len : Nat) : t.rf d o lo len = s.rf d o lo len := by
  rw [State.rf, h.regN d ho, State.rf]

end Notes

/-- A condition of which an event is posted lasts. -/
theorem mem_active_pwrEvent (s : State) (d code : Nat) (payload : List Byte) : (d, code) ∈ (s.pwrEvent d code payload).pwr.active := by
  unfold State.pwrEvent
  split
  · exact List.contains_iff_mem.mp ‹_›
  · rw [(Posts.eventAll _ _ _ _ _).pwr]
    exact List.mem_append_right _ (List.mem_singleton.mpr rfl)

theorem without_sub {α : Type} [DecidableEq α] {x y : α} {l : List α} : y ∈ without x l ↔ y ∈ l ∧ y ≠ x := by
  unfold without
  simp

/-! ## The clock status of every die -/

theorem clkBit_sets (s : State) (i : Nat) (b : Bool) : SetsRegs s (s.clkBit i b) := SetsRegs.foldl (fun t d => .setRbit t d _ i b) _ s

theorem clkBit_regN_other (s : State) (i : Nat) (b : Bool) (e : Nat) {o : Nat} (ho : o < 2 ^ 24) (h : o ≠ Reg.clkStatus) :
    (s.clkBit i b).regN e o = s.regN e o :=
  eachDie_regN_other ho (by decide) h (fun t d => (RegsBut.refl t _).setRbit (List.mem_singleton.mpr rfl) i b) s e

theorem clkBit_regN (s : State) {i : Nat} (b : Bool) (hi : i < 32) {d : Nat} (hd : d < s.part.dies) :
    (s.clkBit i b).regN d Reg.clkStatus = setBit (s.regN d Reg.clkStatus) i b := by
  refine eachDie_regN_same (v := fun d => setBit (s.regN d Reg.clkStatus) i b) (by decide)
    (fun t d => (RegsBut.refl t _).setRbit (List.mem_singleton.mpr rfl) i b) (fun t d h => ?_) hd
  rw [← h]
  exact State.regN_setRf t d Reg.clkStatus i 1 (b2n b) (by omega)

theorem clkBit_rbit (s : State) {i : Nat} (b : Bool) (hi : i < 32) (j : Nat) {d : Nat} (hd : d < s.part.dies) :
    (s.clkBit i b).rbit d Reg.clkStatus j = if j = i then b else s.rbit d Reg.clkStatus j := by
  unfold State.rbit
  rw [clkBit_regN s b hi hd, bit_setBit]

theorem clkBit_rf (s : State) {i : Nat} (b : Bool) (hi : i < 32) {lo len : Nat} (h : lo + len ≤ i) {d : Nat} (hd : d < s.part.dies) :
    (s.clkBit i b).rf d Reg.clkStatus lo len = s.rf d Reg.clkStatus lo len := by
  unfold State.rf
  rw [clkBit_regN s b hi hd]
  exact fld_setFld_other _ _ _ _ _ _ (.inl h)

theorem clkBit_freqIdx (s : State) {i : Nat} (b : Bool) (hi : i < 32) (h : 4 ≤ i) : (s.clkBit i b).freqIdx = s.freqIdx :=
  clkBit_rf s b hi (lo := 0) (len := 4) h (dies_pos _)

/-! ## Changes of frequency -/

/-- From `s` to `t` a change of frequency may have started or been asked for: registers but for bit 4 of CLK_STATUS, counters and memory stay. -/
structure Changes (s t : State) : Prop where
  frame : t = { s with regs := t.regs, pwr := { s.pwr with freqTo := t.pwr.freqTo, freqWant := t.pwr.freqWant, switched := t.pwr.switched,
                                                             reached := t.pwr.reached, vid := t.pwr.vid } }
  regs : ∀ d o, o < 2 ^ 24 → o ≠ Reg.clkStatus → t.regN d o = s.regN d o
  status : ∀ d j, d < s.part.dies → j ≠ 4 → t.rbit d Reg.clkStatus j = s.rbit d Reg.clkStatus j
  index : ∀ d, d < s.part.dies → t.rf d Reg.clkStatus 0 4 = s.rf d Reg.clkStatus 0 4

namespace Changes

variable {s t u : State}

theorem part (h : Changes s t) : t.part = s.part := by rw [h.frame]
theorem mem (h : Changes s t) : t.mem = s.mem := by rw [h.frame]
theorem ctrs (h : Changes s t) : t.ctrs = s.ctrs := by rw [h.frame]
theorem brakes (h : Changes s t) : t.pwr.brakes = s.pwr.brakes := by rw [h.frame]
theorem holdAt (h : Changes s t) : t.pwr.holdAt = s.pwr.holdAt := by rw [h.frame]

theorem refl (s : State) : Changes s s := ⟨rfl, fun _ _ _ _ => rfl, fun _ _ _ _ => rfl, fun _ _ => rfl⟩

theorem trans (h : Changes s t) (g : Changes t u) : Changes s u := by
  refine ⟨?_, fun d o ho hne => (g.regs d o ho hne).trans (h.regs d o ho hne), fun d j hd hj => ?_, fun d hd => ?_⟩
  · have e := g.frame
    rw [h.frame] at e
    exact e
  · exact (g.status d j (h.part ▸ hd) hj).trans (h.status d j hd hj)
  · exact (g.index d (h.part ▸ hd)).trans (h.index d hd)

/-- Updates of the manager's own notes. -/
theorem notes (s : State) (f w : Option Nat) (b : Bool) (r : List Nat) (v : List (Nat × Nat)) :
    Changes s { s with pwr := { s.pwr with freqTo := f, freqWant := w, switched := b, reached := r, vid := v } } :=
  ⟨rfl, fun _ _ _ _ => rfl, fun _ _ _ _ => rfl, fun _ _ => rfl⟩

theorem clkBit4 (s : State) (b : Bool) : Changes s (s.clkBit 4 b) := by
  refine ⟨?_, fun d o ho hne => clkBit_regN_other s 4 b d ho hne, fun d j hd hj => ?_, fun d hd => clkBit_rf s b (by decide) (by decide) hd⟩
  · rw [(clkBit_sets s 4 b).pwr]
    exact (clkBit_sets s 4 b).frame
  · rw [clkBit_rbit s b (by decide) j hd, if_neg hj]

theorem askVolt (s : State) (j d : Nat) : Changes s (s.askVolt j d) := by
  unfold State.askVolt
  dsimp only
  split
  · exact notes s _ _ _ _ _
  · exact notes s _ _ _ _ _

theorem foldl {f : State → Nat → State} (hf : ∀ s a, Changes s (f s a)) (l : List Nat) (s : State) : Changes s (l.foldl f s) :=
  foldl_keeps (P := Changes s) (fun t a h => h.trans (hf t a)) l (refl s)

theorem startFreq (s : State) (j : Nat) : Changes s (s.startFreq j) := by
  unfold State.startFreq
  dsimp only
  split
  · exact refl s
  · have h := (notes s (some j) s.pwr.freqWant false [] s.pwr.vid).trans (clkBit4 _ true)
    split
    · exact h.trans (foldl (fun t d => askVolt t j d) _ _)
    · exact h

theorem wantFreq (s : State) (j : Nat) (force : Bool) : Changes s (s.wantFreq j force) := by
  unfold State.wantFreq
  split
  · exact notes s s.pwr.freqTo (some j) s.pwr.switched s.pwr.reached s.pwr.vid
  · exact (notes s s.pwr.freqTo none s.pwr.switched s.pwr.reached s.pwr.vid).trans (startFreq _ j)

theorem wakeFreq (s : State) : Changes s s.wakeFreq := by
  unfold State.wakeFreq
  split
  · exact wantFreq s _ _
  · exact refl s

theorem settleFreq (s : State) : Changes s s.settleFreq := by
  unfold State.settleFreq
  split
  · exact ((notes s none s.pwr.freqWant false [] s.pwr.vid).trans (clkBit4 _ false)).trans (wakeFreq _)
  · exact refl s

end Changes

/-- A die that asks for its voltage changes what is noted of voltages alone. -/
theorem askVolts_state (j : Nat) (l : List Nat) (s : State) : ∃ r v, l.foldl (fun (s : State) d => s.askVolt j d) s =
    { s with pwr := { s.pwr with reached := r, vid := v } } := by
  induction l generalizing s with
  | nil => exact ⟨s.pwr.reached, s.pwr.vid, rfl⟩
  | cons d l ih =>
    obtain ⟨r, v, e⟩ := ih (s.askVolt j d)
    refine ⟨r, v, ?_⟩
    rw [List.foldl_cons, e]
    unfold State.askVolt
    dsimp only
    split <;> rfl

theorem startFreq_does (s : State) {j : Nat} (h : s.freqIdx ≠ j) : (s.startFreq j).pwr.freqTo = some j ∧
    ∀ d, d < s.part.dies → (s.startFreq j).rbit d Reg.clkStatus 4 = true := by
  have hbit : ∀ u : State, ∀ d, d < u.part.dies → (u.clkBit 4 true).rbit d Reg.clkStatus 4 = true := fun u d hd => by
    rw [clkBit_rbit u true (by decide) 4 hd, if_pos rfl]
  set u : State := { s with pwr := { s.pwr with freqTo := some j, switched := false, reached := [] } } with hu
  have hto : (u.clkBit 4 true).pwr.freqTo = some j := by rw [(clkBit_sets u 4 true).pwr]
  have e : s.startFreq j = if s.freqIdx < j then (u.clkBit 4 true).powerDies.foldl (fun s d => s.askVolt j d) (u.clkBit 4 true) else u.clkBit 4 true := by
    unfold State.startFreq
    dsimp only
    rw [if_neg h]
  rw [e]
  split
  · obtain ⟨r, v, h⟩ := askVolts_state j (u.clkBit 4 true).powerDies (u.clkBit 4 true)
    rw [h]
    exact ⟨hto, fun d hd => hbit u d hd⟩
  · exact ⟨hto, fun d hd => hbit u d hd⟩

theorem freqSwitch_does {s : State} {j : Nat} (hj : j < 16) (hto : s.pwr.freqTo = some j) (hsw : s.pwr.switched = false)
    (hup : j ≤ s.freqIdx ∨ s.powerDies.all (fun d => s.pwr.reached.contains d) = true) (hd : DieUp s 0) :
    Does .freqSwitch s fun t => t.mem = s.mem ∧ ∀ d, d < s.part.dies → t.rf d Reg.clkStatus 0 4 = j ∧
      t.ctr d (Reg.clkCntLo 2) = Nat.min ctrMax (s.ctr d (Reg.clkCntLo 2) + 1) := by
  refine .onDie hd rfl ?_
  rw [hto]
  dsimp only
  have hgo : ¬ ((s.pwr.switched || (decide (s.freqIdx < j) && !s.powerDies.all fun d => s.pwr.reached.contains d)) = true) := by
    rcases hup with h | h
    · simp [hsw, h]
    · rw [hsw, h]
      simp
  rw [if_neg hgo]
  set f : State → Nat → State := fun s d => (s.setRf d Reg.clkStatus 0 4 j).bump d (Reg.clkCntLo 2) 1 with hf
  have hstate : ∃ r c, s.eachDie f = { s with regs := r, ctrs := c } :=
    foldl_keeps (P := fun t : State => ∃ r c, t = { s with regs := r, ctrs := c }) (fun t d ⟨r, c, e⟩ => by rw [e]; exact ⟨_, _, rfl⟩) _ ⟨_, _, rfl⟩
  have hidx : ∀ d, d < s.part.dies → (s.eachDie f).rf d Reg.clkStatus 0 4 = j := fun d hd => by
    have h := eachDie_regN_same (f := f) (off := Reg.clkStatus) (v := fun d => setFld (s.regN d Reg.clkStatus) 0 4 j) (by decide)
      (fun t d => ((RegsBut.refl t _).setRf (List.mem_singleton.mpr rfl) _ _ _).congr rfl rfl) (fun t d h => by
        rw [← h]
        exact State.regN_setRf t d Reg.clkStatus 0 4 j (by decide)) hd
    unfold State.rf
    rw [h, fld_setFld_low _ _ _ _ _ (by decide)]
    unfold fld
    rw [Nat.pow_zero, Nat.div_one]
    exact Nat.mod_eq_of_lt hj
  have hctr : ∀ d, d < s.part.dies → (s.eachDie f).ctr d (Reg.clkCntLo 2) = Nat.min ctrMax (s.ctr d (Reg.clkCntLo 2) + 1) := fun d hd =>
    eachDie_ctr_same (f := f) (fun t d => State.ctr_bump_same _ d _ 1)
      (fun t d e he => State.ctr_bump_other _ _ _ _ _ _ (State.regKey_ne (by decide) (by decide) (.inl he))) hd
  generalize s.eachDie f = u at hstate hidx hctr ⊢
  obtain ⟨r, c, rfl⟩ := hstate
  have hdone : ∀ v : State, Changes { s with regs := r, ctrs := c } v → v.mem = s.mem ∧ ∀ d, d < s.part.dies → v.rf d Reg.clkStatus 0 4 = j ∧
      v.ctr d (Reg.clkCntLo 2) = Nat.min ctrMax (s.ctr d (Reg.clkCntLo 2) + 1) := fun v h =>
    ⟨h.mem, fun d hd => ⟨(h.index d hd).trans (hidx d hd), (State.ctr_congr h.ctrs d _).trans (hctr d hd)⟩⟩
  have hnote := Changes.notes { s with regs := r, ctrs := c } s.pwr.freqTo s.pwr.freqWant true s.pwr.reached s.pwr.vid
  split
  · exact hdone _ (hnote.trans (Changes.settleFreq _))
  · exact hdone _ ((hnote.trans (Changes.foldl (fun t d => Changes.askVolt t j d) _ _)).trans (Changes.settleFreq _))

/-- A state whose brake levels of the millisecond have been taken. -/
def brakesTaken (s : State) : State := { s with pwr := { s.pwr with brakes := (0, 0, 0) } }

theorem freqDecision_stays {s : State} (hd : DieUp s 0) (h : s.rbit 0 Reg.clkCtrl 0 = true ∨ s.pwr.freqTo ≠ none ∨ s.holding = true) :
    exec .freqDecision s = .next (brakesTaken s) := by
  refine (onDie_eq hd).trans (congrArg _ ?_)
  dsimp only
  refine if_pos ?_
  change (s.rbit 0 Reg.clkCtrl 0 || s.pwr.freqTo.isSome || s.holding || decide (s.pwr.brakes.2.1 = 0)) = true
  rcases h with h | h | h
  · simp [h]
  · simp [Option.isSome_iff_ne_none.mpr h]
  · simp [h]

section
variable {s : State} (hd : DieUp s 0) (hfree : s.rbit 0 Reg.clkCtrl 0 = false) (hto : s.pwr.freqTo = none) (hhold : s.holding = false)
  (hn : s.pwr.brakes.2.1 ≠ 0)
include hd hfree hto hhold hn

theorem freqDecision_lowers (ha : 8 * s.pwr.brakes.2.1 < s.pwr.brakes.1) (hi : s.rf 0 Reg.clkLimit 0 4 < s.freqIdx) :
    exec .freqDecision s = .next (((brakesTaken s).eachDie fun s d => s.bump d (Reg.pwrCntLo 6) 1).startFreq (s.freqIdx - 1)) := by
  refine (onDie_eq hd).trans (congrArg _ ?_)
  have hstay : ¬ ((s.rbit 0 Reg.clkCtrl 0 || s.pwr.freqTo.isSome || s.holding || decide (s.pwr.brakes.2.1 = 0)) = true) := by simp [hfree, hto, hhold, hn]
  refine (if_neg hstay).trans (if_pos ?_)
  change (decide (8 * s.pwr.brakes.2.1 < s.pwr.brakes.1) && decide (s.rf 0 Reg.clkLimit 0 4 < s.freqIdx)) = true
  simp [ha, hi]

theorem freqDecision_raises (ha : s.pwr.brakes.1 ≤ 8 * s.pwr.brakes.2.1) (hk : s.pwr.brakes.2.2 = 0) (hi : s.freqIdx < s.rf 0 Reg.clkLimit 4 4)
    (hest : s.estAt s.freqIdx (s.freqIdx + 1) ≤ 950 * (s.rf 0 Reg.pwrCapEff 0 16 : Rat)) :
    exec .freqDecision s = .next ((brakesTaken s).startFreq (s.freqIdx + 1)) := by
  refine (onDie_eq hd).trans (congrArg _ ?_)
  have hstay : ¬ ((s.rbit 0 Reg.clkCtrl 0 || s.pwr.freqTo.isSome || s.holding || decide (s.pwr.brakes.2.1 = 0)) = true) := by simp [hfree, hto, hhold, hn]
  have hlow : ¬ ((decide (8 * s.pwr.brakes.2.1 < s.pwr.brakes.1) && decide (s.rf 0 Reg.clkLimit 0 4 < s.freqIdx)) = true) := by
    simp only [Bool.and_eq_true, decide_eq_true_eq]
    omega
  refine (if_neg hstay).trans ((if_neg hlow).trans (if_pos ?_))
  change (decide (s.pwr.brakes.2.2 = 0) && decide (s.freqIdx < s.rf 0 Reg.clkLimit 4 4) &&
    decide (s.estAt s.freqIdx (s.freqIdx + 1) ≤ 950 * (s.rf 0 Reg.pwrCapEff 0 16 : Rat))) = true
  simp [hk, hi, hest]

end

/-- Steps down are counted on every die. -/
theorem countDown_does (s : State) : ∃ c, ((brakesTaken s).eachDie fun s d => s.bump d (Reg.pwrCntLo 6) 1) = { brakesTaken s with ctrs := c } ∧
    ∀ d, d < s.part.dies → ({ brakesTaken s with ctrs := c } : State).ctr d (Reg.pwrCntLo 6) = Nat.min ctrMax (s.ctr d (Reg.pwrCntLo 6) + 1) := by
  have hstate : ∃ c, ((brakesTaken s).eachDie fun s d => s.bump d (Reg.pwrCntLo 6) 1) = { brakesTaken s with ctrs := c } :=
    foldl_keeps (P := fun t : State => ∃ c, t = { brakesTaken s with ctrs := c }) (fun t d ⟨c, e⟩ => by rw [e]; exact ⟨_, rfl⟩) _ ⟨_, rfl⟩
  obtain ⟨c, e⟩ := hstate
  refine ⟨c, e, fun d hd => ?_⟩
  rw [← e]
  exact eachDie_ctr_same (s := brakesTaken s) (f := fun s d => s.bump d (Reg.pwrCntLo 6) 1) (fun t d => State.ctr_bump_same _ d _ 1)
    (fun t d e he => State.ctr_bump_other _ _ _ _ _ _ (State.regKey_ne (by decide) (by decide) (.inl he))) hd

/-! ## Cadence mode -/

theorem breakCadence_marks {s : State} (h : s.cadence = true) (cause : Nat) {d : Nat} (hd : d < s.part.dies) :
    (s.breakCadence cause).rbit d Reg.clkStatus 6 = true := by
  unfold State.breakCadence
  rw [if_pos h, (Notes.pwrEvent _ _ _ _).rbit d (by decide), clkBit_rbit s true (by decide) 6 hd, if_pos rfl]

/-- The state in which a write of MODE has been taken. -/
def modeTaken (s : State) (mode : Bool) : State := (((s.setRegN 0 Reg.clkCtrl (b2n mode)).clkBit 6 false).clkBit 7 false).pwrClear 0 0x26

theorem modeTaken_does (s : State) (mode : Bool) : let t := modeTaken s mode
    t.regN 0 Reg.clkCtrl = b2n mode ∧ t.freqIdx = s.freqIdx ∧ t.mem = s.mem ∧ t.part = s.part ∧ t.pwr.freqTo = s.pwr.freqTo ∧ t.holding = s.holding ∧
      ∀ d, d < s.part.dies → t.rbit d Reg.clkStatus 6 = false ∧ t.rbit d Reg.clkStatus 7 = false := by
  set u := s.setRegN 0 Reg.clkCtrl (b2n mode) with hu
  have hsets := (clkBit_sets u 6 false).trans (clkBit_sets _ 7 false)
  have hp : (u.clkBit 6 false).part = s.part := (clkBit_sets u 6 false).part
  have hb : b2n mode < 2 ^ 32 := by cases mode <;> decide
  refine ⟨?_, ?_, hsets.mem, hsets.part, ?_, ?_, fun d hd => ⟨?_, ?_⟩⟩
  · change ((u.clkBit 6 false).clkBit 7 false).regN 0 Reg.clkCtrl = _
    rw [clkBit_regN_other _ _ _ _ (by decide) (by decide), clkBit_regN_other _ _ _ _ (by decide) (by decide), hu, State.regN_setRegN_same,
      Nat.mod_eq_of_lt hb]
  · change ((u.clkBit 6 false).clkBit 7 false).freqIdx = _
    rw [clkBit_freqIdx _ _ (by decide) (by decide), clkBit_freqIdx _ _ (by decide) (by decide)]
    exact congrArg (fun v => fld v 0 4) (State.regN_setRegN_other _ _ _ _ _ _ (by decide))
  · change ((u.clkBit 6 false).clkBit 7 false).pwr.freqTo = _
    rw [hsets.pwr]
    rfl
  · change ((u.clkBit 6 false).clkBit 7 false).rbit 0 Reg.clkStatus 5 = _
    rw [clkBit_rbit _ _ (by decide) 5 (dies_pos _), if_neg (by decide), clkBit_rbit _ _ (by decide) 5 (dies_pos _), if_neg (by decide)]
    exact congrArg (fun v => bit v 5) (State.regN_setRegN_other _ _ _ _ _ _ (by decide))
  · change ((u.clkBit 6 false).clkBit 7 false).rbit d Reg.clkStatus 6 = _
    rw [clkBit_rbit _ _ (by decide) 6 (hp ▸ hd), if_neg (by decide), clkBit_rbit u _ (by decide) 6 hd, if_pos rfl]
  · change ((u.clkBit 6 false).clkBit 7 false).rbit d Reg.clkStatus 7 = _
    rw [clkBit_rbit _ _ (by decide) 7 (hp ▸ hd), if_pos rfl]

theorem modeWrite_taken {s : State} {mode : Bool} (h : mode = false ∨ s.rf 0 Reg.clkLimit 0 4 ≤ 7 ∧ 7 ≤ s.rf 0 Reg.clkLimit 4 4) :
    s.modeWrite mode = if mode then (modeTaken s mode).wantFreq 7 false else modeTaken s mode := by
  unfold State.modeWrite
  refine if_neg ?_
  rcases h with h | ⟨h1, h2⟩
  · simp [h]
  · have h1' : ¬ 7 < s.rf 0 Reg.clkLimit 0 4 := Nat.not_lt.mpr h1
    have h2' : ¬ s.rf 0 Reg.clkLimit 4 4 < 7 := Nat.not_lt.mpr h2
    simp [h1', h2']

theorem modeWrite_refused {s : State} (h : 7 < s.rf 0 Reg.clkLimit 0 4 ∨ s.rf 0 Reg.clkLimit 4 4 < 7) : s.modeWrite true = s.clkBit 7 true := by
  unfold State.modeWrite
  refine if_pos ?_
  rcases h with h | h <;> simp [h]

/-! ## The regulator -/

theorem warnOff_does (s : State) (d src : Nat) : let t := s.warnOff d src
    t.mem = s.mem ∧ t.part = s.part ∧ t.pwr = { s.pwr with warn := without (2 * d + src) s.pwr.warn } ∧ RegsBut s t [regKey d Reg.pwrStatus] ∧
      t.rst = s.rst := by
  unfold State.warnOff
  dsimp only
  split
  · exact ⟨rfl, rfl, rfl, .of_eq rfl rfl, rfl⟩
  · exact ⟨rfl, rfl, rfl, (RegsBut.of_eq rfl rfl).setRbit (List.mem_singleton.mpr rfl) _ _, rfl⟩

/-- The dies that share power follow the units out of service and the dies in reset. -/
theorem powerDies_congr {s t : State} (hp : t.part = s.part) (hr : t.rst = s.rst) (h : ∀ d, t.dieOut d = s.dieOut d) : t.powerDies = s.powerDies := by
  unfold State.powerDies State.inReset
  simp only [hp, hr, h]

theorem warnOff_powerDies (s : State) (d src : Nat) : (s.warnOff d src).powerDies = s.powerDies := by
  obtain ⟨-, hp, -, hregs, hrst⟩ := warnOff_does s d src
  refine powerDies_congr hp hrst fun e => ?_
  unfold State.dieOut State.unitOut State.unitState State.rf
  rw [hregs.regN (by simpa using State.regKey_ne (by decide) (by decide) (.inr (by decide)))]

/-- A state in which a die has reached its voltage. -/
def voltReached (s : State) (d : Nat) : State := { s with pwr := { s.pwr with reached := addNew d s.pwr.reached } }

theorem mem_addNew {α : Type} [DecidableEq α] {x y : α} {l : List α} : y ∈ addNew x l ↔ y = x ∨ y ∈ l := by
  unfold addNew
  split
  · exact ⟨.inr, fun h => h.elim (fun e => e ▸ ‹_›) id⟩
  · simp [or_comm]

theorem vrRdyRise_eq {s : State} {d : Nat} (hd : DieUp s d) : exec (.vrRdyRise d) s =
    .next (if s.pwr.freqTo.isSome && (s.pwr.switched || decide (s.freqIdx < s.pwr.freqTo.getD 0)) then (voltReached (s.warnOff d 1) d).settleFreq
      else s.warnOff d 1) := by
  refine (onDie_eq hd).trans (congrArg _ ?_)
  obtain ⟨-, -, hpwr, hregs, -⟩ := warnOff_does s d 1
  have hidx : (s.warnOff d 1).freqIdx = s.freqIdx := congrArg (fun v => fld v 0 4) (hregs.regN (by
    simpa using State.regKey_ne (by decide) (by decide) (.inr (by decide))))
  have hto : (s.warnOff d 1).pwr.freqTo = s.pwr.freqTo := by rw [hpwr]
  have hsw : (s.warnOff d 1).pwr.switched = s.pwr.switched := by rw [hpwr]
  exact if_congr (by rw [hidx, hto, hsw]) rfl rfl

theorem settleFreq_waits {s : State} (h : s.pwr.switched = false) : s.settleFreq = s := by
  unfold State.settleFreq
  exact if_neg (by simp [h])

/-- A change whose domains have switched and whose voltages are all reached ends. -/
theorem settleFreq_ends {s : State} (hto : s.pwr.freqTo.isSome = true) (hsw : s.pwr.switched = true) (hwant : s.pwr.freqWant = none)
    (hall : ∀ e ∈ s.powerDies, e ∈ s.pwr.reached) : s.settleFreq.pwr.freqTo = none ∧ s.settleFreq.mem = s.mem ∧
      ∀ e, e < s.part.dies → s.settleFreq.rbit e Reg.clkStatus 4 = false := by
  set u : State := { s with pwr := { s.pwr with freqTo := none, switched := false, reached := [] } } with hu
  have hpwr := (clkBit_sets u 4 false).pwr
  have e : s.settleFreq = u.clkBit 4 false := by
    unfold State.settleFreq
    have hr : s.powerDies.all (fun d => s.pwr.reached.contains d) = true := List.all_eq_true.mpr fun e he => List.contains_iff_mem.mpr (hall e he)
    refine (if_pos (by rw [hto, hsw, hr]; rfl)).trans ?_
    change (u.clkBit 4 false).wakeFreq = _
    have hw : (u.clkBit 4 false).pwr.freqWant = none := by rw [hpwr]; exact hwant
    unfold State.wakeFreq
    rw [hw]
  rw [e]
  refine ⟨by rw [hpwr], (clkBit_sets u 4 false).mem, fun d hd => ?_⟩
  rw [clkBit_rbit u false (by decide) 4 hd, if_pos rfl]

end Sys2Proof.Machine

open Sys2Proof Sys2Proof.Machine

/-- Settles O53: the index steps down or up by the brakes of a millisecond, a switch waits for its voltages, and cadence mode pins index 7. -/
theorem frequencyChanges : Obligations.FrequencyChanges := by
  intro s hd i
  refine ⟨fun hto => ?_, fun j hj hto hsw hup => freqSwitch_does hj hto hsw hup hd, fun hfree hto hhold hn => ⟨fun ha hi => ?_, fun ha hk hi hest => ?_⟩,
    fun h => freqDecision_stays hd h, fun cause hc => ⟨fun h => ?_, fun h => ?_⟩, fun h => ?_, ?_, fun h1 h2 hi hto hhold => ?_,
    fun d j hdd => ⟨fun hto => ?_, fun hto hij hsw => ?_, fun hto hsw hwant hall => ?_⟩⟩
  · refine (onDie_eq hd).trans (congrArg _ ?_)
    rw [hto]
  · obtain ⟨c, e, hctr⟩ := countDown_does s
    have hne : ({ brakesTaken s with ctrs := c } : State).freqIdx ≠ i - 1 := by
      change s.freqIdx ≠ i - 1
      omega
    obtain ⟨hto', hbit⟩ := startFreq_does _ hne
    have hch := Changes.startFreq ({ brakesTaken s with ctrs := c } : State) (i - 1)
    refine ⟨_, freqDecision_lowers hd hfree hto hhold hn ha hi, ?_⟩
    rw [e]
    exact ⟨hto', hch.brakes, hch.mem, hch.index 0 (dies_pos _), fun d hd => ⟨hbit d hd, (State.ctr_congr hch.ctrs d _).trans (hctr d hd)⟩⟩
  · have hne : (brakesTaken s).freqIdx ≠ i + 1 := by
      change s.freqIdx ≠ i + 1
      omega
    obtain ⟨hto', hbit⟩ := startFreq_does _ hne
    have hch := Changes.startFreq (brakesTaken s) (i + 1)
    exact ⟨_, freqDecision_raises hd hfree hto hhold hn ha hk hi hest, hto', hch.brakes, hch.mem, hch.index 0 (dies_pos _), hbit⟩
  · refine (onDie_eq hd).trans (congrArg _ ?_)
    exact (if_pos hc).trans (if_neg (by rw [h]; decide))
  · refine .onDie hd rfl ?_
    rw [if_pos hc]
    exact fun d hd => breakCadence_marks h cause hd
  · refine (onDie_eq hd).trans (congrArg _ ?_)
    exact modeWrite_refused h
  · refine .onDie hd rfl ?_
    rw [modeWrite_taken (.inl rfl), if_neg (by decide)]
    obtain ⟨hctrl, hidx, hmem, -, -, -, hbits⟩ := modeTaken_does s false
    exact ⟨hctrl, hidx, hmem, hbits⟩
  · refine .onDie hd rfl ?_
    rw [modeWrite_taken (.inr ⟨h1, h2⟩), if_pos rfl]
    obtain ⟨hctrl, hidx, hmem, hpart, hto', hhold', -⟩ := modeTaken_does s true
    have hch := Changes.wantFreq (modeTaken s true) 7 false
    refine ⟨(hch.regs 0 Reg.clkCtrl (by decide) (by decide)).trans hctrl, ?_, hch.mem.trans hmem⟩
    unfold State.wantFreq
    rw [if_neg (by rw [hto', hto, hhold', hhold]; decide)]
    refine (startFreq_does _ ?_).1
    exact fun h => hi (hidx.symm.trans h)
  · rw [vrRdyRise_eq hdd, if_neg (by rw [hto]; simp)]
  · obtain ⟨hmem, -, hpwr, -, -⟩ := warnOff_does s d 1
    refine ⟨_, vrRdyRise_eq hdd, ?_⟩
    rw [if_pos (by rw [hto]; simp [show s.freqIdx < j from hij]), settleFreq_waits (show (voltReached (s.warnOff d 1) d).pwr.switched = false from by
      unfold voltReached
      rw [hpwr]
      exact hsw)]
    refine ⟨addNew_mem _ _, ?_, hmem⟩
    unfold voltReached
    rw [hpwr]
    exact hto
  · obtain ⟨hmem, hpart, hpwr, -, -⟩ := warnOff_does s d 1
    refine ⟨_, vrRdyRise_eq hdd, ?_⟩
    rw [if_pos (by rw [hto, hsw]; rfl)]
    have hv : (voltReached (s.warnOff d 1) d).pwr = { s.pwr with warn := without (2 * d + 1) s.pwr.warn, reached := addNew d s.pwr.reached } := by
      unfold voltReached
      rw [hpwr]
    obtain ⟨h1, h2, h3⟩ := settleFreq_ends (s := voltReached (s.warnOff d 1) d) (by rw [hv]; simp [hto]) (by rw [hv]; exact hsw) (by rw [hv]; exact hwant)
      (fun e he => by
        have he' : e ∈ s.powerDies := warnOff_powerDies s d 1 ▸ he
        rw [hv]
        refine mem_addNew.mpr ?_
        by_cases hed : e = d
        · exact .inl hed
        · exact .inr (hall e he' hed))
    exact ⟨h1, h2.trans hmem, fun e he => h3 e (by
      change e < (s.warnOff d 1).part.dies
      rw [hpart]
      exact he)⟩

end

/-! PROOF. Regulator warnings, heat, and the control of power. -/

section
namespace Sys2Proof.Machine

/-! ## Brake levels -/

theorem setBrakes_sets (s : State) (d : Nat) (f : Nat → Nat) : SetsRegs s (s.setBrakes d f) := SetsRegs.foldl (fun t e => .setRegN t d _ (f e)) _ s

/-- The registers of the four brake levels. -/
abbrev BrakeReg (o : Nat) : Prop := 0x030040 ≤ o ∧ o < 0x030050

theorem setBrakes_regN_other (s : State) (d : Nat) (f : Nat → Nat) (e : Nat) {o : Nat} (ho : o < 2 ^ 24) (h : e ≠ d ∨ ¬ BrakeReg o) :
    (s.setBrakes d f).regN e o = s.regN e o := by
  have hl : ∀ l : List Nat, (∀ k ∈ l, k < 4) → ∀ t : State, (l.foldl (fun (s : State) e => s.setRegN d (Reg.pwrBrake e) (f e)) t).regN e o = t.regN e o := by
    intro l
    induction l with
    | nil => exact fun _ t => rfl
    | cons k l ih =>
      intro hk t
      have hk4 := hk k List.mem_cons_self
      refine (ih (fun x hx => hk x (List.mem_cons_of_mem _ hx)) _).trans (State.regN_setRegN_other _ _ _ _ _ _ (State.regKey_ne ho ?_ ?_))
      · unfold Reg.pwrBrake
        omega
      · refine h.imp id fun hb => ?_
        unfold Reg.pwrBrake
        omega
  exact hl _ (fun k hk => List.mem_range.mp hk) s

theorem setBrakes_regN (s : State) (d : Nat) (f : Nat → Nat) {e : Nat} (he : e < 4) : (s.setBrakes d f).regN d (Reg.pwrBrake e) = f e % 2 ^ 32 :=
  foldl_each (f := fun (s : State) e => s.setRegN d (Reg.pwrBrake e) (f e)) (A := fun t e => t.regN d (Reg.pwrBrake e) = f e % 2 ^ 32) (B := fun _ _ => True)
    (fun t e _ => State.regN_setRegN_same _ _ _ _)
    (fun t k e hne h => (State.regN_setRegN_other _ _ _ _ _ _ (by simp [Reg.pwrBrake]; omega)).trans h) (fun _ _ _ _ _ => trivial) _ List.nodup_range
    (fun _ _ => trivial) e (List.mem_range.mpr he)

theorem brakeAll_sets (s : State) (f : Nat → Nat) : SetsRegs s (s.eachDie fun s e => s.setBrakes e f) := SetsRegs.foldl (fun t e => setBrakes_sets t e f) _ s

theorem brakeAll_regN_other (s : State) (f : Nat → Nat) (e : Nat) {o : Nat} (ho : o < 2 ^ 24) (h : ¬ BrakeReg o) :
    (s.eachDie fun s e => s.setBrakes e f).regN e o = s.regN e o :=
  foldl_keeps (P := fun t : State => t.regN e o = s.regN e o) (fun t d ht => (setBrakes_regN_other t d f e ho (.inr h)).trans ht) _ rfl

theorem pwrBrake_lt {k : Nat} (h : k < 4) : Reg.pwrBrake k < 2 ^ 24 := by
  unfold Reg.pwrBrake
  omega

theorem brakeAll_regN (s : State) (f : Nat → Nat) {k : Nat} (hk : k < 4) {e : Nat} (he : e < s.part.dies) :
    (s.eachDie fun s e => s.setBrakes e f).regN e (Reg.pwrBrake k) = f k % 2 ^ 32 :=
  eachDie_each (f := fun s e => s.setBrakes e f) (A := fun t e => t.regN e (Reg.pwrBrake k) = f k % 2 ^ 32) (B := fun _ _ => True)
    (fun t d _ => setBrakes_regN t d f hk) (fun t d e hne h => (setBrakes_regN_other t d f e (pwrBrake_lt hk) (.inl hne)).trans h)
    (fun _ _ _ _ _ => trivial) (fun _ => trivial) he

theorem pwrBrake_quiet {k : Nat} (h : k < 4) : QuietReg (Reg.pwrBrake k) := by
  unfold QuietReg Reg.pwrBrake
  omega

/-! ## Warnings -/

/-- The registers after a warning, before its event. -/
def warnBrakes (s : State) (d src : Nat) : State :=
  let u := { s with pwr := { s.pwr with warn := s.pwr.warn ++ [2 * d + src], holdAt := some (s.pwr.holdAt.getD s.refCount) } }
  (((u.setRbit d Reg.pwrStatus 1 true).clkBit 5 true).eachDie fun s e => s.setBrakes e fun _ => 56).bump d (Reg.pwrCntLo 2) 1

theorem warnBrakes_does (s : State) (d src : Nat) : let t := warnBrakes s d src
    t.part = s.part ∧ 2 * d + src ∈ t.pwr.warn ∧ t.rbit d Reg.pwrStatus 1 = true ∧
      t.ctr d (Reg.pwrCntLo 2) = Nat.min ctrMax (s.ctr d (Reg.pwrCntLo 2) + 1) ∧
      ∀ e, e < s.part.dies → t.rbit e Reg.clkStatus 5 = true ∧ ∀ k, k < 4 → t.regN e (Reg.pwrBrake k) = 56 := by
  have hstate : ∀ u : State, SetsRegs u (((u.setRbit d Reg.pwrStatus 1 true).clkBit 5 true).eachDie fun s e => s.setBrakes e fun _ => 56) := fun u =>
    ((SetsRegs.setRbit u d _ 1 true).trans (clkBit_sets _ 5 true)).trans (brakeAll_sets _ _)
  unfold warnBrakes
  dsimp only
  generalize hw : State.mk .. = u
  have hu : u = { s with pwr := { s.pwr with warn := s.pwr.warn ++ [2 * d + src], holdAt := some (s.pwr.holdAt.getD s.refCount) } } := hw.symm
  have hset := hstate u
  have hpart : u.part = s.part := by rw [hu]
  have hwarn : u.pwr.warn = s.pwr.warn ++ [2 * d + src] := by rw [hu]
  have hctrs : u.ctrs = s.ctrs := by rw [hu]
  have hclk : ((u.setRbit d Reg.pwrStatus 1 true).clkBit 5 true).part = s.part := ((SetsRegs.setRbit u d _ 1 true).trans (clkBit_sets _ 5 true)).part.trans hpart
  refine ⟨hset.part.trans hpart, ?_, ?_, ?_, fun e he => ⟨?_, fun k hk => ?_⟩⟩
  · have h : (((u.setRbit d Reg.pwrStatus 1 true).clkBit 5 true).eachDie fun s e => s.setBrakes e fun _ => 56).pwr.warn = s.pwr.warn ++ [2 * d + src] := by
      rw [hset.pwr, hwarn]
    exact h ▸ List.mem_append_right _ (List.mem_singleton.mpr rfl)
  · have h := (brakeAll_regN_other ((u.setRbit d Reg.pwrStatus 1 true).clkBit 5 true) (fun _ => 56) d (o := Reg.pwrStatus) (by decide) (by decide)).trans
      (clkBit_regN_other (u.setRbit d Reg.pwrStatus 1 true) 5 true d (by decide) (by decide))
    exact (congrArg (fun v => bit v 1) h).trans (State.rbit_setRbit_same u d _ 1 true (by decide))
  · rw [State.ctr_bump_same, State.ctr_congr hset.ctrs, State.ctr_congr hctrs]
  · have h := brakeAll_regN_other ((u.setRbit d Reg.pwrStatus 1 true).clkBit 5 true) (fun _ => 56) e (o := Reg.clkStatus) (by decide) (by decide)
    refine (congrArg (fun v => bit v 5) h).trans ?_
    exact (clkBit_rbit (u.setRbit d Reg.pwrStatus 1 true) true (by decide) 5 (by exact hpart.symm ▸ he)).trans (if_pos rfl)
  · exact brakeAll_regN ((u.setRbit d Reg.pwrStatus 1 true).clkBit 5 true) (fun _ => 56) hk (hclk.symm ▸ he)

theorem warnOn_does {s : State} {d src : Nat} (h : 2 * d + src ∉ s.pwr.warn) : let t := s.warnOn d src
    2 * d + src ∈ t.pwr.warn ∧ t.rbit d Reg.pwrStatus 1 = true ∧ t.ctr d (Reg.pwrCntLo 2) = Nat.min ctrMax (s.ctr d (Reg.pwrCntLo 2) + 1) ∧
      ∀ e, e < s.part.dies → t.rbit e Reg.clkStatus 5 = true ∧ ∀ k, k < 4 → t.regN e (Reg.pwrBrake k) = 56 := by
  obtain ⟨-, hwarn, hstatus, hctr, hdies⟩ := warnBrakes_does s d src
  have e : ∃ l, s.warnOn d src = State.pwrEvent { warnBrakes s d src with pwr := { (warnBrakes s d src).pwr with droops := l } } d 0x22
      (natLe 4 (kvGet 0 (warnBrakes s d src).pwr.droops d + 1)) := by
    unfold State.warnOn
    rw [if_neg (by simpa using h)]
    exact ⟨_, rfl⟩
  obtain ⟨l, e⟩ := e
  rw [e]
  have hn := Notes.pwrEvent { warnBrakes s d src with pwr := { (warnBrakes s d src).pwr with droops := l } } d 0x22
    (natLe 4 (kvGet 0 (warnBrakes s d src).pwr.droops d + 1))
  refine ⟨?_, (hn.rbit d (by decide) 1).trans hstatus, (hn.ctr d _ (by decide) (by decide)).trans hctr, fun e he =>
    ⟨(hn.rbit e (by decide) 5).trans (hdies e he).1, fun k hk => (hn.regN e (pwrBrake_quiet hk)).trans ((hdies e he).2 k hk)⟩⟩
  rw [hn.pwr]
  exact hwarn

theorem uvwClear_does (s : State) (d : Nat) : let t := s.warnOff d 0
    2 * d ∉ t.pwr.warn ∧ (∀ x, x ≠ 2 * d → (x ∈ t.pwr.warn ↔ x ∈ s.pwr.warn)) ∧ t.mem = s.mem ∧
      (2 * d + 1 ∉ s.pwr.warn → t.rbit d Reg.pwrStatus 1 = false) ∧ (2 * d + 1 ∈ s.pwr.warn → t.regs = s.regs) := by
  obtain ⟨hmem, -, hpwr, -, -⟩ := warnOff_does s d 0
  refine ⟨?_, fun x hx => ?_, hmem, fun h => ?_, fun h => ?_⟩
  · rw [hpwr]
    exact without_not_mem _ _
  · rw [hpwr]
    simp [without_sub, hx]
  · unfold State.warnOff
    dsimp only
    rw [if_neg (by simp [without_sub, h])]
    exact State.rbit_setRbit_same _ d _ 1 false (by decide)
  · unfold State.warnOff
    dsimp only
    rw [if_pos (by simp [without_sub, h])]

/-- The count of a hold's time, on every die. -/
theorem holdCount_does (s : State) (us : Nat) : ∃ c a, (s.eachDie fun s d => (s.bump d (Reg.pwrCntLo 3) us).pwrClear d 0x22) =
    { s with ctrs := c, pwr := { s.pwr with active := a } } ∧
    ∀ e, e < s.part.dies → kvGet 0 c (regKey e (Reg.pwrCntLo 3)) = Nat.min ctrMax (s.ctr e (Reg.pwrCntLo 3) + us) := by
  set f : State → Nat → State := fun s d => (s.bump d (Reg.pwrCntLo 3) us).pwrClear d 0x22 with hf
  obtain ⟨c, a, e⟩ : ∃ c a, s.eachDie f = { s with ctrs := c, pwr := { s.pwr with active := a } } :=
    foldl_keeps (P := fun t : State => ∃ c a, t = { s with ctrs := c, pwr := { s.pwr with active := a } })
      (fun t d ⟨c, a, e⟩ => by rw [e]; exact ⟨_, _, rfl⟩) _ ⟨_, _, rfl⟩
  refine ⟨c, a, e, fun d hd => ?_⟩
  have h := eachDie_ctr_same (s := s) (f := f) (off := Reg.pwrCntLo 3) (n := us) (fun t d => State.ctr_bump_same _ d _ us)
    (fun t d e he => State.ctr_bump_other _ _ _ _ _ _ (State.regKey_ne (by decide) (by decide) (.inl he))) hd
  rw [e] at h
  exact h

theorem holdEnd_does {s : State} (hd : DieUp s 0) (hhold : s.holding = true) (hwarn : s.pwr.warn = []) :
    Does .uvwHoldEnd s fun t => t.pwr.holdAt = none ∧ t.mem = s.mem ∧
      ∀ e, e < s.part.dies → t.rbit e Reg.clkStatus 5 = false ∧ (∀ k, k < 4 → t.regN e (Reg.pwrBrake k) = s.regN e (Reg.pwrBrake k)) ∧
        t.ctr e (Reg.pwrCntLo 3) = Nat.min ctrMax (s.ctr e (Reg.pwrCntLo 3) + (s.refCount - s.pwr.holdAt.getD s.refCount) / 25) := by
  refine .onDie hd rfl ?_
  rw [if_neg (by simp [hhold, hwarn])]
  obtain ⟨c, a, e, hctr⟩ := holdCount_does s ((s.refCount - s.pwr.holdAt.getD s.refCount) / 25)
  dsimp only
  rw [e]
  set u : State := { s with ctrs := c, pwr := { s.pwr with active := a, holdAt := none } } with hu
  have hset := clkBit_sets u 5 false
  have hch := Changes.wakeFreq (u.clkBit 5 false)
  change (u.clkBit 5 false).wakeFreq.pwr.holdAt = none ∧ _
  refine ⟨?_, hch.mem.trans hset.mem, fun d hd => ⟨?_, fun k hk => ?_, ?_⟩⟩
  · rw [hch.holdAt, hset.pwr]
  · refine (hch.status d 5 (hset.part.symm ▸ hd) (by decide)).trans ?_
    rw [clkBit_rbit u false (by decide) 5 hd, if_pos rfl]
  · refine (hch.regs d _ (pwrBrake_lt hk) (by unfold Reg.pwrBrake Reg.clkStatus; omega)).trans ?_
    exact clkBit_regN_other u 5 false d (pwrBrake_lt hk) (by unfold Reg.pwrBrake Reg.clkStatus; omega)
  · rw [State.ctr_congr hch.ctrs, State.ctr_congr hset.ctrs]
    exact hctr d hd

/-! ## Heat -/

theorem portDown_state (s : State) (d : Nat) : ∃ es ws, s.portDown d =
    { s.setRegN d Reg.ethStatus (setFld (setFld (s.regN d Reg.ethStatus) 0 13 0) 13 1 (fld (s.regN d Reg.ethStatus) 13 1)) with eths := es, wires := ws } := by
  unfold State.portDown
  dsimp only
  generalize s.setRegN d Reg.ethStatus _ = u
  obtain ⟨ws, e⟩ := modWire_state u d 0 fun _ => Link.idle d 0
  generalize u.modWire d 0 _ = v at e ⊢
  obtain ⟨es, h⟩ := modEth_state v d fun e => { e with txq := ((u.wire d 0).held.filter fun h => h.f.item.routed).map (fun h => h.f) ++ e.txq }
  generalize State.modEth v d _ = w at h ⊢
  obtain ⟨es', h'⟩ := modEth_state w d fun e => { e with paused := [], pausing := [], narrow := none, training := false, retrain := none }
  exact ⟨es', ws, by rw [h', h, e]⟩

theorem portDown_regsBut (s : State) (d : Nat) : RegsBut s (s.portDown d) [regKey d Reg.ethStatus] := by
  obtain ⟨es, ws, e⟩ := portDown_state s d
  rw [e]
  exact ((RegsBut.refl s _).setRegN (List.mem_singleton.mpr rfl) _).congr rfl rfl

theorem portUp_portDown (s : State) (d : Nat) : (s.portDown d).portUp d = false := by
  obtain ⟨es, ws, e⟩ := portDown_state s d
  have h : (s.portDown d).regN d Reg.ethStatus = setFld (setFld (s.regN d Reg.ethStatus) 0 13 0) 13 1 (fld (s.regN d Reg.ethStatus) 13 1) := by
    rw [e]
    refine (State.regN_setRegN_same s d _ _).trans (Nat.mod_eq_of_lt ?_)
    exact setFld_lt (setFld_lt (s.regN_lt d _) (by decide)) (by decide)
  unfold State.portUp State.rbit
  rw [h, bit_setFld_other _ _ _ _ _ (.inl (by decide)), bit_eq_fld, fld_setFld_low _ _ _ _ _ (by decide)]
  rfl

/-- What a thermal trip does on a die: its fast domains stop and its transmitter goes idle. -/
def tripDie (s : State) (e : Nat) : State := ((s.setRegN e Reg.clkRunLo 1).setRegN e Reg.clkRunHi 0).portDown e

abbrev TripReg (o : Nat) : Prop := o = Reg.clkRunLo ∨ o = Reg.clkRunHi ∨ o = Reg.ethStatus

theorem tripDie_regN_other (s : State) (d e : Nat) {o : Nat} (ho : o < 2 ^ 24) (h : e ≠ d ∨ ¬ TripReg o) : (tripDie s d).regN e o = s.regN e o := by
  have hne : ∀ off, off < 2 ^ 24 → TripReg off → regKey e o ≠ regKey d off := fun off hoff ht =>
    State.regKey_ne ho hoff (h.imp id fun hn heq => hn (heq ▸ ht))
  refine ((portDown_regsBut _ d).regN (by simpa using hne _ (by decide) (.inr (.inr rfl)))).trans ?_
  rw [State.regN_setRegN_other _ _ _ _ _ _ (hne _ (by decide) (.inr (.inl rfl))), State.regN_setRegN_other _ _ _ _ _ _ (hne _ (by decide) (.inl rfl))]

theorem tripDie_does (s : State) (d : Nat) :
    (tripDie s d).regN d Reg.clkRunLo = 1 ∧ (tripDie s d).regN d Reg.clkRunHi = 0 ∧ (tripDie s d).portUp d = false := by
  have hkeep : ∀ o, o ≠ Reg.ethStatus → (tripDie s d).regN d o = ((s.setRegN d Reg.clkRunLo 1).setRegN d Reg.clkRunHi 0).regN d o := fun o ho =>
    (portDown_regsBut _ d).regN (by simpa using ho)
  refine ⟨?_, ?_, portUp_portDown _ d⟩
  · rw [hkeep _ (by decide), State.regN_setRegN_other _ _ _ _ _ _ (by simp [Reg.clkRunLo, Reg.clkRunHi]), State.regN_setRegN_same]
    rfl
  · rw [hkeep _ (by decide), State.regN_setRegN_same]
    rfl

/-- Every die stops. -/
theorem tripAll_does (s : State) : let t := s.eachDie tripDie
    (∃ r es ws, t = { s with regs := r, eths := es, wires := ws }) ∧ (∀ e o, o < 2 ^ 24 → ¬ TripReg o → t.regN e o = s.regN e o) ∧
      ∀ e, e < s.part.dies → t.regN e Reg.clkRunLo = 1 ∧ t.regN e Reg.clkRunHi = 0 ∧ t.portUp e = false := by
  refine ⟨?_, fun e o ho hn => ?_, fun e he => ?_⟩
  · refine foldl_keeps (P := fun t : State => ∃ r es ws, t = { s with regs := r, eths := es, wires := ws }) (fun t d ⟨r, es, ws, e⟩ => ?_) _ ⟨_, _, _, rfl⟩
    obtain ⟨es', ws', h⟩ := portDown_state ((t.setRegN d Reg.clkRunLo 1).setRegN d Reg.clkRunHi 0) d
    unfold tripDie
    rw [h, e]
    exact ⟨_, _, _, rfl⟩
  · exact foldl_keeps (P := fun t : State => t.regN e o = s.regN e o) (fun t d h => (tripDie_regN_other t d e ho (.inr hn)).trans h) _ rfl
  · refine eachDie_each (A := fun t e => t.regN e Reg.clkRunLo = 1 ∧ t.regN e Reg.clkRunHi = 0 ∧ t.portUp e = false) (B := fun _ _ => True)
      (fun t d _ => tripDie_does t d) (fun t d e hne ⟨h1, h2, h3⟩ => ⟨?_, ?_, ?_⟩) (fun _ _ _ _ _ => trivial) (fun _ => trivial) he
    · exact (tripDie_regN_other t d e (by decide) (.inl hne)).trans h1
    · exact (tripDie_regN_other t d e (by decide) (.inl hne)).trans h2
    · exact (congrArg (fun v => bit v 0) (tripDie_regN_other t d e (by decide) (.inl hne))).trans h3

theorem hostDown_regN_other (s : State) (e : Nat) {o : Nat} (ho : o < 2 ^ 24) (h : o ≠ Reg.hstStatus) : s.hostDown.regN e o = s.regN e o :=
  State.regN_setRegN_other s 0 _ _ _ _ (State.regKey_ne ho (by decide) (.inr h))

theorem stickyAdd_state (s : State) (kind d : Nat) (detail : List Byte) : ∃ g, s.stickyAdd kind d detail = { s with grd := g } := ⟨_, rfl⟩

theorem trip_does (s : State) (d k : Nat) (x : Int) : let t := s.trip d k x
    t.tripped = true ∧ t.linkUp = false ∧ t.out = s.out ++ [.pin "FAULT_N" 0 false] ∧ t.mem = s.mem ∧ t.regN d Reg.thermTemp = s.regN d Reg.thermTemp ∧
      ∀ e, e < s.part.dies → t.regN e Reg.clkRunLo = 1 ∧ t.regN e Reg.clkRunHi = 0 ∧ t.portUp e = false := by
  have e : s.trip d k x = ({ ((s.stickyAdd 1 d (natLe 4 k ++ natLe 4 (twos x 32))).eachDie tripDie).hostDown with tripped := true } : State).emit
      (.pin "FAULT_N" 0 false) := rfl
  obtain ⟨g, hsticky⟩ := stickyAdd_state s 1 d (natLe 4 k ++ natLe 4 (twos x 32))
  rw [e, hsticky]
  set v : State := { s with grd := g }
  obtain ⟨⟨r, es, ws, hstate⟩, hother, hdies⟩ := tripAll_does v
  generalize v.eachDie tripDie = u at hstate hother hdies
  have hout : u.out = s.out := by rw [hstate]
  have hmem : u.mem = s.mem := by rw [hstate]
  have hwrap : ∀ e o, (({ u.hostDown with tripped := true } : State).emit (.pin "FAULT_N" 0 false)).regN e o = u.hostDown.regN e o :=
    fun e o => State.regN_congr rfl rfl e o
  have hlink : u.hostDown.linkUp = false := rbit_setRf_low u 0 Reg.hstStatus 12 0 0 (by decide) (by decide)
  have hstop : ∀ e o, o < 2 ^ 24 → o ≠ Reg.hstStatus → (({ u.hostDown with tripped := true } : State).emit (.pin "FAULT_N" 0 false)).regN e o = u.regN e o :=
    fun e o ho hne => (hwrap e o).trans (hostDown_regN_other u e ho hne)
  refine ⟨rfl, (congrArg (fun v => bit v 0) (hwrap 0 Reg.hstStatus)).trans hlink, congrArg (· ++ _) hout, hmem, ?_, fun e he => ?_⟩
  · exact (hstop d _ (by decide) (by decide)).trans (hother d _ (by decide) (by decide))
  · obtain ⟨h1, h2, h3⟩ := hdies e he
    exact ⟨(hstop e _ (by decide) (by decide)).trans h1, (hstop e _ (by decide) (by decide)).trans h2,
      (congrArg (fun v => bit v 0) (hstop e Reg.ethStatus (by decide) (by decide))).trans h3⟩

/-- Throttling follows the hottest sensor. -/
theorem throttle_does (s : State) (d : Nat) (ts : List Int) : let t := s.throttle d ts
    t.tripped = s.tripped ∧ t.regN d Reg.thermTemp = s.regN d Reg.thermTemp ∧
      t.rbit d Reg.pwrStatus 2 = decide (8 * (s.rf d Reg.thermLimits 0 8 : Int) < (hottest ts).2) := by
  have hset : ∀ (u : State) (b : Bool), (u.setRbit d Reg.pwrStatus 2 b).rbit d Reg.pwrStatus 2 = b := fun u b =>
    State.rbit_setRbit_same u d _ 2 b (by decide)
  have hkeep : ∀ (u : State) (b : Bool), (u.setRbit d Reg.pwrStatus 2 b).regN d Reg.thermTemp = u.regN d Reg.thermTemp := fun u b =>
    State.regN_setRegN_other _ _ _ _ _ _ (by simp [Reg.thermTemp, Reg.pwrStatus])
  unfold State.throttle
  dsimp only
  generalize hu : State.mk .. = u
  have htemp : u.regN d Reg.thermTemp = s.regN d Reg.thermTemp := by rw [← hu]; rfl
  have htrip : u.tripped = s.tripped := by rw [← hu]
  split
  · rename_i hlim
    rw [decide_eq_true hlim]
    split
    · exact ⟨htrip, (hkeep u true).trans htemp, hset u true⟩
    · have hn := Notes.pwrEvent (u.setRbit d Reg.pwrStatus 2 true) d 0x23 (natLe 2 (hottest ts).1 ++ natLe 2 (twos (hottest ts).2 16))
      exact ⟨hn.tripped.trans htrip, (hn.regN d (by decide)).trans ((hkeep u true).trans htemp), (hn.rbit d (by decide) 2).trans (hset u true)⟩
  · rename_i hlim
    rw [decide_eq_false hlim]
    exact ⟨htrip, (hkeep u false).trans htemp, hset u false⟩

theorem hottest_lt {l : List Int} (h : l ≠ []) : (hottest l).1 < l.length := by
  induction l with
  | nil => exact absurd rfl h
  | cons x l ih =>
    cases l with
    | nil => exact Nat.zero_lt_one
    | cons y l =>
      have := ih (by simp)
      unfold hottest
      dsimp only
      split
      · simp
      · simpa using this

/-- The sensors of a reading at or above CRIT. -/
def hotSensors (crit : Int) (ts : List Int) : List Nat := (List.range ts.length).filter fun k => decide (crit ≤ (ts[k]?).getD 0)

theorem mem_hotSensors {crit : Int} {ts : List Int} {k : Nat} : k ∈ hotSensors crit ts ↔ ∃ x, ts[k]? = some x ∧ crit ≤ x := by
  unfold hotSensors
  rw [List.mem_filter, List.mem_range, decide_eq_true_eq]
  constructor
  · rintro ⟨hk, h⟩
    rw [List.getElem?_eq_getElem hk, Option.getD_some] at h
    exact ⟨_, List.getElem?_eq_getElem hk, h⟩
  · rintro ⟨x, hx, h⟩
    exact ⟨(List.getElem?_eq_some_iff.mp hx).1, by rw [hx]; exact h⟩

/-- A state in which a reading is stored and its hot sensors are noted. -/
def readingNoted (s : State) (d : Nat) (ts : List Int) (hot : List Nat) : State :=
  let u := s.setRegN d Reg.thermTemp (twos (hottest ts).2 16 + 65536 * (hottest ts).1)
  { u with pwr := { u.pwr with hot := kvSet 0 u.pwr.hot d (sumNat (hot.map fun k => 2 ^ k)) } }

theorem readingNoted_does {s : State} {d : Nat} {ts : List Int} (hot : List Nat) (hne : ts ≠ []) (hlen : ts.length ≤ 4) : let t := readingNoted s d ts hot
    t.regN d Reg.thermTemp = twos (hottest ts).2 16 + 65536 * (hottest ts).1 ∧ (∀ o, o ≠ Reg.thermTemp → t.regN d o = s.regN d o) ∧
      t.mem = s.mem ∧ t.out = s.out ∧ t.part = s.part ∧ t.tripped = s.tripped := by
  have htwos : twos (hottest ts).2 16 < 2 ^ 16 := by
    unfold twos
    have h1 := Int.emod_nonneg (hottest ts).2 (b := ((2 ^ 16 : Nat) : Int)) (by decide)
    have h2 := Int.emod_lt_of_pos (hottest ts).2 (b := ((2 ^ 16 : Nat) : Int)) (by decide)
    omega
  have hidx := hottest_lt hne
  refine ⟨?_, fun o ho => ?_, rfl, rfl, rfl, rfl⟩
  · exact (State.regN_setRegN_same s d _ _).trans (Nat.mod_eq_of_lt (by omega))
  · exact State.regN_setRegN_other _ _ _ _ _ _ (by simpa using ho)

theorem thermalRead_eq {s : State} {d : Nat} {sensors : List Int} (hd : DieUp s d) (hne : sensors ≠ []) :
    exec (.thermalRead d sensors) s = .next (let ts := sensors.take 4
      let hot := hotSensors (8 * (s.rf d Reg.thermLimits 8 8 : Nat)) ts
      match hot.find? (bit (kvGet 0 s.pwr.hot d)) with
      | some k => (readingNoted s d ts hot).trip d k ((ts[k]?).getD 0)
      | none => (readingNoted s d ts hot).throttle d ts) := by
  refine (onIsland_eq hd.there).trans (congrArg _ ?_)
  have hts : (sensors.take 4).isEmpty = false := by
    cases sensors with
    | nil => exact absurd rfl hne
    | cons x l => rfl
  have hlim : (s.setRegN d Reg.thermTemp (twos (hottest (sensors.take 4)).2 16 + 65536 * (hottest (sensors.take 4)).1)).rf d Reg.thermLimits 8 8 =
      s.rf d Reg.thermLimits 8 8 := congrArg (fun v => fld v 8 8) (State.regN_setRegN_other _ _ _ _ _ _ (by simp [Reg.thermTemp, Reg.thermLimits]))
  have hup : ¬ ((s.tripped || s.inReset d) = true) := by simp [hd.live, hd.up]
  dsimp only
  rw [if_neg (by rw [hts]; decide)]
  refine (if_neg hup).trans ?_
  rw [hlim]
  rfl

theorem thermalRead_does {s : State} {d : Nat} {sensors : List Int} (hd : DieUp s d) (hne : sensors ≠ []) : let ts := sensors.take 4
    let lim : Int := 8 * (s.rf d Reg.thermLimits 0 8 : Nat); let crit : Int := 8 * (s.rf d Reg.thermLimits 8 8 : Nat)
    Does (.thermalRead d sensors) s fun t => t.regN d Reg.thermTemp = twos (hottest ts).2 16 + 65536 * (hottest ts).1 ∧
      ((∃ k x, ts[k]? = some x ∧ crit ≤ x ∧ bit (kvGet 0 s.pwr.hot d) k = true) → t.tripped = true ∧ t.linkUp = false ∧
        t.out = s.out ++ [.pin "FAULT_N" 0 false] ∧ t.mem = s.mem ∧
        ∀ e, e < s.part.dies → t.regN e Reg.clkRunLo = 1 ∧ t.regN e Reg.clkRunHi = 0 ∧ t.portUp e = false) ∧
      ((∀ k x, ts[k]? = some x → crit ≤ x → bit (kvGet 0 s.pwr.hot d) k = false) → t.tripped = false ∧
        t.rbit d Reg.pwrStatus 2 = decide (lim < (hottest ts).2)) := by
  intro ts lim crit
  have hts : ts ≠ [] := by
    cases sensors with
    | nil => exact absurd rfl hne
    | cons x l => exact List.cons_ne_nil _ _
  have hlen : ts.length ≤ 4 := List.length_take_le _ _
  refine ⟨_, thermalRead_eq hd hne, ?_⟩
  dsimp only
  obtain ⟨htemp, hother, hmem, hout, hpart, htrip⟩ := readingNoted_does (s := s) (d := d) (hotSensors crit ts) hts hlen
  cases hfind : (hotSensors crit ts).find? (bit (kvGet 0 s.pwr.hot d)) with
  | some k =>
    obtain ⟨x, hx, hcrit⟩ := mem_hotSensors.mp (List.mem_of_find?_eq_some hfind)
    obtain ⟨h1, h2, h3, h4, h5, h6⟩ := trip_does (readingNoted s d ts (hotSensors crit ts)) d k ((ts[k]?).getD 0)
    refine ⟨h5.trans htemp, fun _ => ⟨h1, h2, by rw [h3, hout], h4.trans hmem, fun e he => h6 e (hpart.symm ▸ he)⟩, fun hnone => ?_⟩
    have hbit := List.find?_some hfind
    rw [hnone k x hx hcrit] at hbit
    cases hbit
  | none =>
    obtain ⟨h1, h2, h3⟩ := throttle_does (readingNoted s d ts (hotSensors crit ts)) d ts
    have hnone := List.find?_eq_none.mp hfind
    refine ⟨h2.trans htemp, fun ⟨k, x, hx, hcrit, hbit⟩ => absurd hbit (hnone k (mem_hotSensors.mpr ⟨x, hx, hcrit⟩)), fun _ => ⟨h1.trans (htrip.trans hd.live), ?_⟩⟩
    refine h3.trans ?_
    have hl : (readingNoted s d ts (hotSensors crit ts)).rf d Reg.thermLimits 0 8 = s.rf d Reg.thermLimits 0 8 :=
      congrArg (fun v => fld v 0 8) (hother _ (by decide))
    rw [hl]

/-! ## Shares of power -/

theorem allocateDie_state (s : State) (d : Nat) : ∃ r n, s.allocateDie d = { s with regs := r, freeCtr := n, pwr := { s.pwr with shares := (s.allocateDie d).pwr.shares } } := by
  unfold State.allocateDie
  split
  rename_i share u hu
  split at hu
  · obtain ⟨rfl, rfl⟩ := Prod.mk.inj hu
    exact ⟨_, _, rfl⟩
  · obtain ⟨rfl, rfl⟩ := Prod.mk.inj hu
    exact ⟨_, _, rfl⟩

/-- Sharing the cap changes registers, the engines' shares and the free values used. -/
theorem allocate_state (s : State) : ∃ r n sh, s.allocate = { s with regs := r, freeCtr := n, pwr := { s.pwr with shares := sh } } := by
  unfold State.allocate
  refine foldl_keeps (P := fun t : State => ∃ r n sh, t = { s with regs := r, freeCtr := n, pwr := { s.pwr with shares := sh } }) (fun t d ⟨r, n, sh, e⟩ => ?_) _
    ⟨_, _, _, rfl⟩
  obtain ⟨r', n', e'⟩ := allocateDie_state { t with regs := s.regs } d
  dsimp only
  rw [e', e]
  exact ⟨_, _, _, rfl⟩

theorem breakCadence_reads (s : State) (cause : Nat) : (s.breakCadence cause).pwr.level = s.pwr.level ∧
    ∀ d, (s.breakCadence cause).ctr d (Reg.pwrCntLo 4) = s.ctr d (Reg.pwrCntLo 4) := by
  unfold State.breakCadence
  split
  · have hn := Notes.pwrEvent (s.clkBit 6 true) 0 0x26 (natLe 4 cause)
    have hs := clkBit_sets s 6 true
    refine ⟨?_, fun d => (hn.ctr d _ (by decide) (by decide)).trans (State.ctr_congr hs.ctrs d _)⟩
    rw [hn.pwr, hs.pwr]
  · exact ⟨rfl, fun _ => rfl⟩

/-- A state in which a die's throttle level has been set, before the cap is shared anew. -/
def levelSet (s : State) (d v : Nat) : State := { s with pwr := { s.pwr with level := kvSet 0 s.pwr.level d v } }

theorem throttleStep_does {s : State} {d : Nat} (hd : DieUp s d) : let n := kvGet 0 s.pwr.level d
    (s.rbit d Reg.pwrStatus 2 = true → Does (.throttleStep d) s fun t => kvGet 0 t.pwr.level d = n + 1 ∧
      t.ctr d (Reg.pwrCntLo 4) = Nat.min ctrMax (s.ctr d (Reg.pwrCntLo 4) + 1)) ∧
    (s.rbit d Reg.pwrStatus 2 = false → d ∈ s.pwr.cooling → n ≠ 0 → Does (.throttleStep d) s fun t =>
      t.pwr.level = kvSet 0 s.pwr.level d (n - 1) ∧ t.mem = s.mem ∧ t.ctrs = s.ctrs) ∧
    (s.rbit d Reg.pwrStatus 2 = false → (d ∉ s.pwr.cooling ∨ n = 0) → exec (.throttleStep d) s = .next s) := by
  intro n
  refine ⟨fun hon => ?_, fun hoff hcool hn => ?_, fun hoff h => ?_⟩
  · refine .onDie hd rfl ?_
    dsimp only
    rw [if_pos hon]
    obtain ⟨hlevel, hctr⟩ := breakCadence_reads (s.bump d (Reg.pwrCntLo 4) 1) 2
    obtain ⟨r, k, sh, e⟩ := allocate_state (levelSet ((s.bump d (Reg.pwrCntLo 4) 1).breakCadence 2) d (n + 1))
    unfold levelSet at e
    rw [e]
    refine ⟨?_, (hctr d).trans (State.ctr_bump_same s d _ 1)⟩
    exact kvGet_kvSet_ne _ d (Nat.succ_ne_zero n)
  · refine .onDie hd rfl ?_
    dsimp only
    rw [if_neg (by rw [hoff]; decide), if_pos (by simp [hcool]; exact hn)]
    obtain ⟨r, k, sh, e⟩ := allocate_state (levelSet s d (n - 1))
    unfold levelSet at e
    rw [e]
    exact ⟨rfl, rfl, rfl⟩
  · refine (onDie_eq hd).trans (congrArg _ ?_)
    dsimp only
    rw [if_neg (by rw [hoff]; decide)]
    refine if_neg ?_
    rcases h with h | h
    · simp [h]
    · simp [show kvGet 0 s.pwr.level d = 0 from h]

/-! ## The fan -/

theorem fanFail_does {s : State} {rpm : Nat} (h : rpm < s.rf 0 Reg.fanFailRpm 0 16) : Does (.fanFail rpm) s fun t =>
    t.regN 0 Reg.fanStatus = rpm + 65536 ∧ (s.rbit 0 Reg.fanCtrl 0 = true → t.fanDuty = some 100) := by
  refine .of_eq (onIsland_eq (dies_pos _)) ?_
  have hrpm : rpm < 2 ^ 16 := h.trans (fld_lt _ _ 16)
  rw [if_neg (by omega)]
  dsimp only
  have hreg : (s.setRegN 0 Reg.fanStatus (rpm % 65536 + 65536)).regN 0 Reg.fanStatus = rpm + 65536 := by
    rw [State.regN_setRegN_same]
    omega
  have hctrl : (s.setRegN 0 Reg.fanStatus (rpm % 65536 + 65536)).regN 0 Reg.fanCtrl = s.regN 0 Reg.fanCtrl :=
    State.regN_setRegN_other _ _ _ _ _ _ (by simp [Reg.fanStatus, Reg.fanCtrl])
  have hall : ∀ t : State, t.regN 0 Reg.fanStatus = rpm + 65536 → t.regN 0 Reg.fanCtrl = s.regN 0 Reg.fanCtrl →
      t.regN 0 Reg.fanStatus = rpm + 65536 ∧ (s.rbit 0 Reg.fanCtrl 0 = true → t.fanDuty = some 100) := fun t h1 h2 => by
    refine ⟨h1, fun hon => ?_⟩
    have hon' : t.rbit 0 Reg.fanCtrl 0 = true := (congrArg (fun v => bit v 0) h2).trans hon
    have hfail : t.rbit 0 Reg.fanStatus 16 = true := by
      unfold State.rbit bit
      rw [h1, beq_iff_eq]
      omega
    unfold State.fanDuty
    rw [hon', hfail]
    rfl
  split
  · exact hall _ hreg hctrl
  · have hn := Notes.pwrEvent (s.setRegN 0 Reg.fanStatus (rpm % 65536 + 65536)) 0 0x25 (natLe 4 rpm)
    exact hall _ ((hn.regN 0 (by decide)).trans hreg) ((hn.regN 0 (by decide)).trans hctrl)

theorem fanRecover_does {s : State} {rpm : Nat} (h : s.rf 0 Reg.fanFailRpm 0 16 < rpm) : Does (.fanRecover rpm) s fun t =>
    t.regN 0 Reg.fanStatus = rpm % 65536 ∧ t.mem = s.mem ∧ RegsBut s t [regKey 0 Reg.fanStatus] ∧ (0, 0x25) ∉ t.pwr.active := by
  refine .of_eq (onIsland_eq (dies_pos _)) ?_
  rw [if_neg (by omega)]
  refine ⟨?_, rfl, ((RegsBut.refl s _).setRegN (List.mem_singleton.mpr rfl) _).congr rfl rfl, ?_⟩
  · exact (State.regN_setRegN_same s 0 _ _).trans (Nat.mod_eq_of_lt (by omega))
  · exact fun hm => (without_sub.mp hm).2 rfl

end Sys2Proof.Machine

open Sys2Proof Sys2Proof.Machine

/-- Settles O54: a warning brakes every engine of the package and holds, its end clears the die's bit, and the hold's time is counted once it is over. -/
theorem regulatorWarnings : Obligations.RegulatorWarnings := by
  intro s d hd
  refine ⟨fun c src hc hw => ?_, fun j hj => ?_, .onDie hd rfl (uvwClear_does s d), fun h0 h => ?_, holdEnd_does⟩
  · rcases hc with ⟨rfl, rfl⟩ | ⟨hto, rfl, rfl⟩
    · exact .onDie hd rfl (warnOn_does hw)
    · refine .onDie hd rfl ?_
      rw [if_neg (by rw [hto]; decide)]
      exact warnOn_does hw
  · refine (onDie_eq hd).trans (congrArg _ ?_)
    exact if_pos (by rw [hj]; rfl)
  · refine (onDie_eq h0).trans (congrArg _ ?_)
    refine if_pos ?_
    rcases h with h | h
    · simp [h]
    · simp [h]

/-- Settles O55: a reading is stored, CRIT twice on a sensor trips the package, and throttling and the fan follow their readings. -/
theorem heat : Obligations.Heat := by
  refine ⟨fun s d sensors hd hne => thermalRead_does hd hne, fun s d hd => throttleStep_does hd, fun s rpm => ⟨fun h => ?_, fanFail_does, fun h => ?_, fanRecover_does⟩⟩
  · exact (onIsland_eq (dies_pos _)).trans (congrArg _ (if_pos h))
  · exact (onIsland_eq (dies_pos _)).trans (congrArg _ (if_pos h))

end

/-! PROOF. The control of power: the fit to the sensor, the estimate and the brakes, the shares of the cap. -/

section
namespace Sys2Proof.Machine

/-! ## The fit of a die -/

theorem cal_congr {s t : State} (h : t.pwr.cals = s.pwr.cals) (d : Nat) : t.cal d = s.cal d := by
  unfold State.cal
  rw [h]

theorem cal_d (s : State) (d : Nat) : (s.cal d).d = d := by
  unfold State.cal
  cases h : s.pwr.cals.find? fun c => c.d == d with
  | none => rfl
  | some c => simpa using List.find?_some h

theorem cal_setCal (s : State) {c : Cal} {d : Nat} (h : c.d = d) : (s.setCal c).cal d = c := by
  subst h
  have hnone : (s.pwr.cals.filter fun x => x.d != c.d).find? (fun x => x.d == c.d) = none := by
    rw [List.find?_eq_none]
    intro x hx
    have := (List.mem_filter.mp hx).2
    simpa using this
  unfold State.cal State.setCal
  dsimp only
  rw [List.find?_append, hnone]
  simp

theorem mwOf_lt (x : Rat) : mwOf x < 2 ^ 32 := by
  unfold mwOf
  exact (Nat.min_le_left (2 ^ 32 - 1) x.floor.toNat).trans_lt (by decide)

/-- From `s` to `t` the fit of a die has been judged: what the sensor gave, the gain stored, its count and the fit itself stay. -/
structure Judged (d : Nat) (s t : State) : Prop where
  reg : ∀ o, QuietReg o → o ≠ Reg.pwrResid → o ≠ Reg.pwrStatus → t.regN d o = s.regN d o
  ctr : t.ctr d (Reg.pwrCntLo 0) = s.ctr d (Reg.pwrCntLo 0)
  gain : (t.cal d).g = (s.cal d).g
  offset : (t.cal d).o = (s.cal d).o
  windows : (t.cal d).n = (s.cal d).n

namespace Judged

variable {d : Nat} {s t u : State}

theorem trans (h : Judged d s t) (g : Judged d t u) : Judged d s u :=
  ⟨fun o ho h1 h2 => (g.reg o ho h1 h2).trans (h.reg o ho h1 h2), g.ctr.trans h.ctr, g.gain.trans h.gain, g.offset.trans h.offset, g.windows.trans h.windows⟩

theorem of_notes (h : Notes s t) : Judged d s t := by
  have e : t.cal d = s.cal d := cal_congr (by rw [h.pwr]) d
  exact ⟨fun o ho _ _ => h.regN d ho, h.ctr d _ (by decide) (by decide), by rw [e], by rw [e], by rw [e]⟩

theorem calm (d : Nat) (s : State) (k : Nat) : Judged d s (s.setCal { s.cal d with calm := k }) := by
  have e : (s.setCal { s.cal d with calm := k }).cal d = { s.cal d with calm := k } := cal_setCal s (cal_d s d)
  exact ⟨fun _ _ _ _ => rfl, rfl, by rw [e], by rw [e], by rw [e]⟩

theorem setRegN (d : Nat) (s : State) {o : Nat} (ho : o = Reg.pwrResid ∨ o = Reg.pwrStatus) (v : Nat) : Judged d s (s.setRegN d o v) := by
  refine ⟨fun o' _ h1 h2 => State.regN_setRegN_other _ _ _ _ _ _ ?_, rfl, rfl, rfl, rfl⟩
  rcases ho with rfl | rfl
  · simpa using h1
  · simpa using h2

theorem setStatus (d : Nat) (s : State) (i : Nat) (b : Bool) : Judged d s (s.setRbit d Reg.pwrStatus i b) := setRegN d s (.inr rfl) _

theorem bump (d : Nat) (s : State) (n : Nat) : Judged d s (s.bump d (Reg.pwrCntLo 1) n) :=
  ⟨fun _ _ _ _ => rfl, State.ctr_bump_other _ _ _ _ _ _ (by simp [Reg.pwrCntLo]), rfl, rfl, rfl⟩

theorem judgeCal (d : Nat) (s : State) (q : Rat) : Judged d s (s.judgeCal d q) := by
  unfold State.judgeCal
  dsimp only
  generalize (if q * 10000 < 9 then (s.cal d).calm + 1 else 0) = k
  have h := (calm d s k).trans
    (setRegN d _ (.inl rfl) (Nat.min 0xFFFF (isqrtFrom (q * 100000000).floor.toNat 32 0)))
  generalize State.setRegN _ d Reg.pwrResid _ = u at h ⊢
  split
  · refine h.trans (((setStatus d u 0 true).trans (bump d _ 1)).trans (of_notes ?_))
    exact (Notes.pwrClear _ _ _).trans (Notes.pwrEvent _ _ _ _)
  · split
    · refine h.trans ((setStatus d u 0 false).trans (of_notes ?_))
      exact (Notes.pwrClear _ _ _).trans (Notes.pwrEvent _ _ _ _)
    · exact h

end Judged

theorem Cal.fit_d (c : Cal) (x : Nat) (e : Rat) : (c.fit x e).d = c.d ∧ (c.fit x e).n = 0 := by
  unfold Cal.fit
  dsimp only
  split
  · exact ⟨rfl, rfl⟩
  · exact ⟨rfl, rfl⟩

/-- A window of calibration stores the fit that it makes. -/
theorem calibrate_does {s : State} {d x : Nat} (hn : (s.cal d).n ≠ 0) : let t := s.calibrate d x
    let c := (s.cal d).fit x (((s.cal d).sum : Rat) / ((s.cal d).n : Rat))
    t.regN d Reg.pwrSense = s.regN d Reg.pwrSense ∧ t.ctr d (Reg.pwrCntLo 0) = Nat.min ctrMax (s.ctr d (Reg.pwrCntLo 0) + 1) ∧
      t.regN d Reg.pwrCalGain = mwOf (c.g * 65536) ∧ (t.cal d).g = c.g ∧ (t.cal d).o = c.o ∧ (t.cal d).n = 0 := by
  intro t c
  set v := ((((s.setCal c).bump d (Reg.pwrCntLo 0) 1).setRegN d Reg.pwrCalGain (mwOf (c.g * 65536))).setRegN d Reg.pwrCalOfs (twos c.o.floor 32)) with hv
  have hcal : v.cal d = c := cal_setCal s ((Cal.fit_d _ _ _).1.trans (cal_d s d))
  obtain ⟨q, n, e⟩ : ∃ q n, t = State.judgeCal { v with freeCtr := n } d q := by
    have e : t = (v.residual c).2.judgeCal d (v.residual c).1 := by
      unfold t State.calibrate
      exact if_neg hn
    rw [e]
    unfold State.residual
    split
    · exact ⟨_, _, rfl⟩
    · exact ⟨_, v.freeCtr, rfl⟩
  have hj := Judged.judgeCal d { v with freeCtr := n } q
  rw [← e] at hj
  have hcal' : ({ v with freeCtr := n } : State).cal d = c := hcal
  refine ⟨(hj.reg _ (by decide) (by decide) (by decide)).trans ?_, hj.ctr.trans (State.ctr_bump_same (s.setCal c) d _ 1),
    (hj.reg _ (by decide) (by decide) (by decide)).trans ?_, hj.gain.trans (by rw [hcal']), hj.offset.trans (by rw [hcal']), hj.windows.trans ?_⟩
  · change v.regN d Reg.pwrSense = _
    rw [hv, State.regN_setRegN_other _ _ _ _ _ _ (by simp [Reg.pwrSense, Reg.pwrCalOfs]),
      State.regN_setRegN_other _ _ _ _ _ _ (by simp [Reg.pwrSense, Reg.pwrCalGain])]
    rfl
  · change v.regN d Reg.pwrCalGain = _
    rw [hv, State.regN_setRegN_other _ _ _ _ _ _ (by simp [Reg.pwrCalGain, Reg.pwrCalOfs]), State.regN_setRegN_same, Nat.mod_eq_of_lt (mwOf_lt _)]
  · rw [hcal']
    exact (Cal.fit_d _ _ _).2

/-- The brake on the sensor alone touches the brake levels. -/
theorem sensorBrake_reads (s : State) (d : Nat) : let t := s.sensorBrake d
    (∀ o, o < 2 ^ 24 → ¬ BrakeReg o → t.regN d o = s.regN d o) ∧ t.ctrs = s.ctrs ∧ t.pwr = s.pwr := by
  unfold State.sensorBrake
  split
  · exact ⟨fun _ _ _ => rfl, rfl, rfl⟩
  · dsimp only
    exact ⟨fun o ho hb => setBrakes_regN_other (s.freeVal 2).2 d _ d ho (.inr hb), (setBrakes_sets (s.freeVal 2).2 d _).ctrs,
      (setBrakes_sets (s.freeVal 2).2 d _).pwr⟩

theorem sensorRead_does {s : State} {d : Nat} (mw : Option Nat) (hd : DieUp s d) : Does (.sensorRead d mw) s fun t =>
    t.regN d Reg.pwrSense = mw.getD (s.regN d Reg.pwrSense) % 2 ^ 32 ∧
    ((s.cal d).n = 0 → s.onSensor d = false → t = s.setRegN d Reg.pwrSense (mw.getD (s.regN d Reg.pwrSense))) ∧
    ((s.cal d).n ≠ 0 → let c := (s.cal d).fit (mw.getD (s.regN d Reg.pwrSense)) (((s.cal d).sum : Rat) / ((s.cal d).n : Rat))
      t.ctr d (Reg.pwrCntLo 0) = Nat.min ctrMax (s.ctr d (Reg.pwrCntLo 0) + 1) ∧ t.regN d Reg.pwrCalGain = mwOf (c.g * 65536) ∧
      (t.cal d).g = c.g ∧ (t.cal d).o = c.o ∧ (t.cal d).n = 0) := by
  refine .onDie hd rfl ?_
  dsimp only
  generalize mw.getD (s.regN d Reg.pwrSense) = x
  set u := s.setRegN d Reg.pwrSense x with hu
  obtain ⟨hregs, hctrs, hpwr⟩ := sensorBrake_reads (u.calibrate d x) d
  have hcal : u.cal d = s.cal d := rfl
  have hsense : u.regN d Reg.pwrSense = x % 2 ^ 32 := State.regN_setRegN_same s d _ x
  by_cases hn : (s.cal d).n = 0
  · have e : u.calibrate d x = u := if_pos hn
    refine ⟨?_, fun _ hs => ?_, fun h => absurd hn h⟩
    · rw [hregs _ (by decide) (by decide), e, hsense]
    · have hs' : u.onSensor d = false := by
        have hkeep : ∀ e o, o < 2 ^ 24 → o ≠ Reg.pwrSense → u.regN e o = s.regN e o := fun e o ho hne =>
          State.regN_setRegN_other _ _ _ _ _ _ (State.regKey_ne ho (by decide) (.inr hne))
        rw [← hs]
        unfold State.onSensor State.cadence State.rbit
        rw [hkeep _ _ (by decide) (by decide), hkeep _ _ (by decide) (by decide), hkeep _ _ (by decide) (by decide)]
      rw [e]
      unfold State.sensorBrake
      exact if_pos (by rw [hs']; rfl)
  · obtain ⟨h1, h2, h3, h4, h5, h6⟩ := calibrate_does (s := u) (d := d) (x := x) hn
    have hcal' : ((u.calibrate d x).sensorBrake d).cal d = (u.calibrate d x).cal d := cal_congr (by rw [hpwr]) d
    refine ⟨?_, fun h => absurd h hn, fun _ => ⟨?_, ?_, ?_, ?_, ?_⟩⟩
    · rw [hregs _ (by decide) (by decide), h1, hsense]
    · exact (State.ctr_congr hctrs d _).trans h2
    · rw [hregs _ (by decide) (by decide), h3]
      rfl
    · rw [hcal']
      exact h4
    · rw [hcal']
      exact h5
    · rw [hcal']
      exact h6

/-! ## A window of activity -/

/-- The registers of learned demands. -/
abbrev PhaseReg (o : Nat) : Prop := 0x030200 ≤ o ∧ o < 0x030300

theorem engTag_lt {s : State} {d e t : Nat} (h : s.engTag d e = some t) : t < 64 := by
  unfold State.engTag at h
  obtain ⟨w, -, rfl⟩ := Option.map_eq_some_iff.mp h
  exact fld_lt _ 0 6

theorem learn_sets (s : State) (d e u : Nat) : SetsRegs s (s.learn d e u) := by
  unfold State.learn
  split
  · exact .refl s
  · split
    · exact .setRegN s _ _ _
    · exact .refl s

theorem learn_regN_other (s : State) (d e u f : Nat) {o : Nat} (ho : o < 2 ^ 24) (h : ¬ PhaseReg o) : (s.learn d e u).regN f o = s.regN f o := by
  unfold State.learn
  split
  · rfl
  · have ht := engTag_lt ‹_›
    split
    · refine State.regN_setRegN_other _ _ _ _ _ _ (State.regKey_ne ho ?_ (.inr ?_)) <;> unfold Reg.pwrPhase <;> omega
    · rfl

/-- Learning from a window writes the learned demands alone. -/
theorem learnEach_does (s : State) (d : Nat) (us : Nat → Nat) (l : List Nat) : let t := l.foldl (fun (s : State) e => s.learn d e (us e)) s
    SetsRegs s t ∧ ∀ f o, o < 2 ^ 24 → ¬ PhaseReg o → t.regN f o = s.regN f o :=
  ⟨SetsRegs.foldl (fun t e => learn_sets t d e (us e)) l s, fun f o ho h =>
    foldl_keeps (P := fun t : State => t.regN f o = s.regN f o) (fun t e ht => (learn_regN_other t d e (us e) f ho h).trans ht) l rfl⟩

/-- A state in which a window's estimate and its share of fixed power are stored. -/
def windowNoted (s : State) (d total rest : Nat) : State :=
  let c := s.cal d
  let u := (s.setCal { c with sum := c.sum + total, n := c.n + 1 }).setRegN d Reg.pwrEst (mwOf (c.g * (total : Rat) + c.o))
  { u with pwr := { u.pwr with fixed := kvSet 0 u.pwr.fixed d (mwOf ((u.gains d).1 * (rest : Rat) + (u.gains d).2)) } }

theorem windowNoted_does (s : State) (d total rest : Nat) : let t := windowNoted s d total rest
    t.regN d Reg.pwrEst = mwOf ((s.cal d).g * (total : Rat) + (s.cal d).o) ∧ (t.cal d).sum = (s.cal d).sum + total ∧ (t.cal d).n = (s.cal d).n + 1 ∧
      t.mem = s.mem ∧ t.ctrs = s.ctrs ∧ (∀ e o, o < 2 ^ 24 → o ≠ Reg.pwrEst → t.regN e o = s.regN e o) ∧ t.pwr.shares = s.pwr.shares := by
  have hcal : (windowNoted s d total rest).cal d = { s.cal d with sum := (s.cal d).sum + total, n := (s.cal d).n + 1 } := cal_setCal s (cal_d s d)
  refine ⟨?_, by rw [hcal], by rw [hcal], rfl, rfl, fun e o ho hne => ?_, rfl⟩
  · exact (State.regN_setRegN_same _ d _ _).trans (Nat.mod_eq_of_lt (mwOf_lt _))
  · exact State.regN_setRegN_other _ _ _ _ _ _ (State.regKey_ne ho (by decide) (.inr hne))

/-- The gains with which a die controls stay in a window. -/
theorem gains_window (s : State) (d total : Nat) (v : Nat) :
    ((s.setCal { s.cal d with sum := (s.cal d).sum + total, n := (s.cal d).n + 1 }).setRegN d Reg.pwrEst v).gains d = s.gains d := by
  set u := (s.setCal { s.cal d with sum := (s.cal d).sum + total, n := (s.cal d).n + 1 }).setRegN d Reg.pwrEst v with hu
  have hcal : u.cal d = { s.cal d with sum := (s.cal d).sum + total, n := (s.cal d).n + 1 } := cal_setCal s (cal_d s d)
  have hkeep : ∀ o, o < 2 ^ 24 → o ≠ Reg.pwrEst → u.regN 0 o = s.regN 0 o := fun o ho hne =>
    State.regN_setRegN_other _ _ _ _ _ _ (State.regKey_ne ho (by decide) (.inr hne))
  unfold State.gains State.cadence State.rbit
  rw [hcal, hkeep _ (by decide) (by decide), hkeep _ (by decide) (by decide)]

theorem noteBrakes_state (s : State) (bs : List Nat) : ∃ b, s.noteBrakes bs = { s with pwr := { s.pwr with brakes := b } } := ⟨_, rfl⟩

theorem brakeOf_lt (share u : Nat) : brakeOf share u < 2 ^ 32 := by
  unfold brakeOf
  split
  · decide
  · exact (Nat.min_le_left _ _).trans_lt (by decide)

theorem brakeUpdate_does (s : State) (d : Nat) (us : List Nat) : let t := s.brakeUpdate d us
    SetsRegs s t ∧ (∀ o, o < 2 ^ 24 → ¬ BrakeReg o → t.regN d o = s.regN d o) ∧ (s.holding = true → t = s) ∧
      (s.holding = false → s.rbit d Reg.pwrCtrl 0 = false → ∀ e, e < 4 → t.regN d (Reg.pwrBrake e) = 0) ∧
      (s.holding = false → s.rbit d Reg.pwrCtrl 0 = true → s.onSensor d = false → ∀ e, e < 4 →
        t.regN d (Reg.pwrBrake e) = brakeOf (s.engShare d e) ((us[e]?).getD 0)) := by
  have hset : ∀ f, SetsRegs s (s.setBrakes d f) ∧ ∀ o, o < 2 ^ 24 → ¬ BrakeReg o → (s.setBrakes d f).regN d o = s.regN d o := fun f =>
    ⟨setBrakes_sets s d f, fun o ho h => setBrakes_regN_other s d f d ho (.inr h)⟩
  unfold State.brakeUpdate
  split
  · rename_i hc
    refine ⟨.refl s, fun _ _ _ => rfl, fun _ => rfl, fun h1 h2 => ?_, fun h1 h2 h3 => ?_⟩
    · simp [h1, h2] at hc
    · simp [h1, h3] at hc
  · rename_i hc
    have hfree : s.holding = false := by
      cases h : s.holding
      · rfl
      · simp [h] at hc
    split
    · rename_i hctrl
      have hctrl' : s.rbit d Reg.pwrCtrl 0 = false := by simpa using hctrl
      exact ⟨(hset _).1, (hset _).2, fun h => absurd (hfree.symm.trans h) (by decide), fun _ _ e he => setBrakes_regN s d (fun _ => 0) he,
        fun _ h => absurd (hctrl'.symm.trans h) (by decide)⟩
    · rename_i hctrl
      refine ⟨(hset _).1, (hset _).2, fun h => absurd (hfree.symm.trans h) (by decide), fun _ h => absurd (by rw [h]; rfl) hctrl, fun _ _ _ e he => ?_⟩
      exact (setBrakes_regN s d (fun e => brakeOf (s.engShare d e) ((us[e]?).getD 0)) he).trans (Nat.mod_eq_of_lt (brakeOf_lt _ _))

/-- What each engine would have drawn unbraked in a window, with brake levels `bs` and gain `g`. -/
def draws (a : Activity) (bs : List Nat) (g : Rat) : List Nat :=
  (List.range 4).map fun e => unbraked ((((List.range 4).map fun e => (a.engines[e]?).getD 0)[e]?).getD 0) ((bs[e]?).getD 0) g

/-- The brake levels of a die's engines. -/
def brakeLevels (s : State) (d : Nat) : List Nat := (List.range 4).map fun e => s.rf d (Reg.pwrBrake e) 0 6

theorem draws_get (s : State) (d : Nat) (a : Activity) (g : Rat) {e : Nat} (he : e < 4) :
    ((draws a (brakeLevels s d) g)[e]?).getD 0 = unbraked ((a.engines[e]?).getD 0) (s.rf d (Reg.pwrBrake e) 0 6) g := by
  unfold draws brakeLevels
  simp [List.getElem?_range he]

theorem activityWindow_eq {s : State} {d : Nat} (a : Activity) (hd : DieUp s d) : ∃ b,
    exec (.activityWindow d a) s = .next (let v := windowNoted s d (sumNat ((List.range 4).map fun e => (a.engines[e]?).getD 0) + a.rest) a.rest
      let us := draws a (brakeLevels s d) (s.gains d).1
      let w := (List.range 4).foldl (fun (s : State) e => s.learn d e ((us[e]?).getD 0)) v
      ({ w with pwr := { w.pwr with brakes := b } } : State).brakeUpdate d us) := by
  set total := sumNat ((List.range 4).map fun e => (a.engines[e]?).getD 0) + a.rest with ht
  set v := windowNoted s d total a.rest with hv
  have hlevels : brakeLevels v d = brakeLevels s d := List.map_congr_left fun e he => by
    have he4 := List.mem_range.mp he
    have h := (windowNoted_does s d total a.rest).2.2.2.2.2.1 d (Reg.pwrBrake e) (pwrBrake_lt he4) (by unfold Reg.pwrBrake Reg.pwrEst; omega)
    unfold State.rf
    rw [← hv] at h
    rw [h]
  have e : exec (.activityWindow d a) s = onDie s d (
      let us := draws a (brakeLevels v d) (((s.setCal { s.cal d with sum := (s.cal d).sum + total, n := (s.cal d).n + 1 }).setRegN d Reg.pwrEst
        (mwOf ((s.cal d).g * (total : Rat) + (s.cal d).o))).gains d).1
      (((List.range 4).foldl (fun (s : State) e => s.learn d e ((us[e]?).getD 0)) v).noteBrakes (brakeLevels v d)).brakeUpdate d us) := rfl
  rw [e, onDie_eq hd, gains_window, hlevels]
  obtain ⟨b, hb⟩ := noteBrakes_state
    ((List.range 4).foldl (fun (s' : State) e => s'.learn d e (((draws a (brakeLevels s d) (s.gains d).1)[e]?).getD 0)) v) (brakeLevels s d)
  exact ⟨b, congrArg (fun x : State => Host.Outcome.next (x.brakeUpdate d (draws a (brakeLevels s d) (s.gains d).1))) hb⟩

theorem activityWindow_does {s : State} {d : Nat} (a : Activity) (hd : DieUp s d) :
    let total := sumNat ((List.range 4).map fun e => (a.engines[e]?).getD 0) + a.rest
    Does (.activityWindow d a) s fun t =>
      t.regN d Reg.pwrEst = mwOf ((s.cal d).g * (total : Rat) + (s.cal d).o) ∧ (t.cal d).sum = (s.cal d).sum + total ∧ (t.cal d).n = (s.cal d).n + 1 ∧
      t.mem = s.mem ∧ t.ctrs = s.ctrs ∧
      (s.holding = true → ∀ e, e < 4 → t.regN d (Reg.pwrBrake e) = s.regN d (Reg.pwrBrake e)) ∧
      (s.holding = false → s.rbit d Reg.pwrCtrl 0 = false → ∀ e, e < 4 → t.regN d (Reg.pwrBrake e) = 0) ∧
      (s.holding = false → s.rbit d Reg.pwrCtrl 0 = true → s.onSensor d = false → ∀ e, e < 4 → t.regN d (Reg.pwrBrake e) =
        brakeOf (s.engShare d e) (unbraked ((a.engines[e]?).getD 0) (s.rf d (Reg.pwrBrake e) 0 6) (s.gains d).1)) := by
  intro total
  obtain ⟨b, e⟩ := activityWindow_eq a hd
  refine ⟨_, e, ?_⟩
  dsimp only
  obtain ⟨hest, hsum, hn, hmem, hctrs, hother, hshares⟩ := windowNoted_does s d total a.rest
  obtain ⟨hset, hlearn⟩ := learnEach_does (windowNoted s d total a.rest) d (fun e => ((draws a (brakeLevels s d) (s.gains d).1)[e]?).getD 0) (List.range 4)
  generalize (List.range 4).foldl _ (windowNoted s d total a.rest) = w at hset hlearn ⊢
  have hw : ∀ f o, o < 2 ^ 24 → o ≠ Reg.pwrEst → ¬ PhaseReg o → w.regN f o = s.regN f o := fun f o ho hne hp => (hlearn f o ho hp).trans (hother f o ho hne)
  have hpw : w.pwr = (windowNoted s d total a.rest).pwr := hset.pwr
  set x : State := { w with pwr := { w.pwr with brakes := b } } with hx
  have hreg : ∀ f o, o < 2 ^ 24 → o ≠ Reg.pwrEst → ¬ PhaseReg o → x.regN f o = s.regN f o := hw
  have hcal : x.cal d = (windowNoted s d total a.rest).cal d := cal_congr (by rw [hx, hpw]) d
  have hhold : x.holding = s.holding := congrArg (fun v => bit v 5) (hreg 0 Reg.clkStatus (by decide) (by decide) (by decide))
  have hctrl : x.rbit d Reg.pwrCtrl 0 = s.rbit d Reg.pwrCtrl 0 := congrArg (fun v => bit v 0) (hreg d Reg.pwrCtrl (by decide) (by decide) (by decide))
  have hsensor : x.onSensor d = s.onSensor d := by
    unfold State.onSensor State.cadence State.rbit
    rw [hreg _ _ (by decide) (by decide) (by decide), hreg _ _ (by decide) (by decide) (by decide), hreg _ _ (by decide) (by decide) (by decide)]
  have hshare : ∀ e, x.engShare d e = s.engShare d e := fun e => by
    unfold State.engShare
    rw [hx, hpw, hshares]
  obtain ⟨hset', hbrake, hstay, hoff, hon⟩ := brakeUpdate_does x d (draws a (brakeLevels s d) (s.gains d).1)
  have hcal' := (cal_congr (by rw [hset'.pwr]) d).trans hcal
  refine ⟨?_, by rw [hcal']; exact hsum, by rw [hcal']; exact hn, ?_, ?_, fun h e he => ?_, fun h1 h2 e he => hoff (hhold.trans h1) (hctrl.trans h2) e he,
    fun h1 h2 h3 e he => ?_⟩
  · rw [hbrake _ (by decide) (by decide)]
    exact (hlearn d _ (by decide) (by decide)).trans hest
  · rw [hset'.mem]
    exact hset.mem.trans hmem
  · rw [hset'.ctrs]
    exact hset.ctrs.trans hctrs
  · rw [hstay (hhold.trans h)]
    exact hreg d _ (pwrBrake_lt he) (by unfold Reg.pwrBrake Reg.pwrEst; omega) (by unfold PhaseReg Reg.pwrBrake; omega)
  · rw [hon (hhold.trans h1) (hctrl.trans h2) (hsensor.trans h3) e he, hshare, draws_get s d a _ he]

/-! ## Sharing the cap -/

/-- From `s` to `t` registers, the engines' shares and the free values used may change: what a die's share is taken from stays. -/
def Shares (s t : State) : Prop := ∃ r n sh, t = { s with regs := r, freeCtr := n, pwr := { s.pwr with shares := sh } }

/-- The shares of a die's engines, of its share. -/
theorem engShares_get (f : Nat → Nat) (d : Nat) (l : List (Nat × Nat)) {e : Nat} (he : e < 4) (hne : f e ≠ 0) :
    kvGet 0 ((List.range 4).foldl (fun l e => kvSet 0 l (4 * d + e) (f e)) l) (4 * d + e) = f e := by
  have h : ∀ (ks : List Nat) (l : List (Nat × Nat)), e ∈ ks ∨ kvGet 0 l (4 * d + e) = f e →
      kvGet 0 (ks.foldl (fun l e => kvSet 0 l (4 * d + e) (f e)) l) (4 * d + e) = f e := by
    intro ks
    induction ks with
    | nil => exact fun l h => h.resolve_left List.not_mem_nil
    | cons k ks ih =>
      intro l h
      refine ih _ ?_
      by_cases hk : e = k
      · subst hk
        exact .inr (kvGet_kvSet_ne l _ hne)
      · rcases h with h | h
        · exact .inl ((List.mem_cons.mp h).resolve_left hk)
        · exact .inr ((kvGet_kvSet_other 0 0 l _ _ _ (by omega)).trans h)
  exact h _ l (.inl (List.mem_range.mpr he))

theorem engShares_other (f : Nat → Nat) (d c : Nat) (l : List (Nat × Nat)) {e : Nat} (he : e < 4) (hne : c ≠ d) :
    kvGet 0 ((List.range 4).foldl (fun l e => kvSet 0 l (4 * d + e) (f e)) l) (4 * c + e) = kvGet 0 l (4 * c + e) := by
  have h : ∀ (ks : List Nat), (∀ k ∈ ks, k < 4) → ∀ l : List (Nat × Nat),
      kvGet 0 (ks.foldl (fun l e => kvSet 0 l (4 * d + e) (f e)) l) (4 * c + e) = kvGet 0 l (4 * c + e) := by
    intro ks
    induction ks with
    | nil => exact fun _ _ => rfl
    | cons k ks ih =>
      intro hks l
      have hk := hks k List.mem_cons_self
      exact (ih (fun x hx => hks x (List.mem_cons_of_mem _ hx)) _).trans (kvGet_kvSet_other 0 0 l _ _ _ (by omega))
  exact h _ (fun k hk => List.mem_range.mp hk) l

/-- One die's part of sharing the cap. -/
def allocateStep (s t : State) (d : Nat) : State :=
  let u := ({ t with regs := s.regs } : State).allocateDie d
  { u with regs := kvPut t.regs (regKey d Reg.pwrShare) (u.reg d Reg.pwrShare) }

theorem allocate_eq (s : State) : s.allocate = s.powerDies.foldl (allocateStep s) s := rfl

/-- Sharing a die's power stores its share and those of its engines, taken from the demands as they stood before. -/
theorem allocateStep_does {s t : State} (h : Shares s t) (d : Nat) : ∃ share n, (∀ x, s.dieShare d = some x →
      share = x - kvGet 0 s.pwr.level d * (s.fixedOf d + s.dieDemand d) / 16) ∧
    allocateStep s t d = { s with regs := kvPut t.regs (regKey d Reg.pwrShare) (BitVec.ofNat 32 share), freeCtr := n,
                                  pwr := { s.pwr with shares := (List.range 4).foldl (fun l e => kvSet 0 l (4 * d + e) (s.shareOf d e share)) t.pwr.shares } } := by
  obtain ⟨r, n, sh, rfl⟩ := h
  have hsame : ∀ m, ({ s with freeCtr := m, pwr := { s.pwr with shares := sh } } : State).shareOf = s.shareOf := fun m => rfl
  have hshare : ({ s with freeCtr := n, pwr := { s.pwr with shares := sh } } : State).dieShare d = s.dieShare d := rfl
  have hreg : ∀ (u : State) (v : Nat), (u.setRegN d Reg.pwrShare v).reg d Reg.pwrShare = BitVec.ofNat 32 v := fun u v => State.reg_setReg_same _ _ _ _
  cases hx : s.dieShare d with
  | some x =>
    refine ⟨x - kvGet 0 s.pwr.level d * (s.fixedOf d + s.dieDemand d) / 16, n, fun y hy => by rw [Option.some.inj hy], ?_⟩
    unfold allocateStep State.allocateDie
    rw [show (({ ({ s with regs := r, freeCtr := n, pwr := { s.pwr with shares := sh } } : State) with regs := s.regs } : State).dieShare d) = some x from hshare.trans hx]
    dsimp only
    rw [hreg]
    rfl
  | none =>
    refine ⟨Config.freeBits n 32 % 2 ^ 32 - kvGet 0 s.pwr.level d * (s.fixedOf d + s.dieDemand d) / 16, n + 1, fun y hy => absurd hy (by simp), ?_⟩
    unfold allocateStep State.allocateDie
    rw [show (({ ({ s with regs := r, freeCtr := n, pwr := { s.pwr with shares := sh } } : State) with regs := s.regs } : State).dieShare d) = none from hshare.trans hx]
    dsimp only
    rw [hreg]
    rfl

theorem powerDies_nodup (s : State) : s.powerDies.Nodup := List.nodup_range.filter _

theorem allocate_does (s : State) : s.allocate.mem = s.mem ∧ s.allocate.ctrs = s.ctrs ∧ ∀ d x, d ∈ s.powerDies → s.dieShare d = some x →
    let share := x - kvGet 0 s.pwr.level d * (s.fixedOf d + s.dieDemand d) / 16
    s.allocate.regN d Reg.pwrShare = share % 2 ^ 32 ∧ ∀ e, e < 4 → s.shareOf d e share ≠ 0 → s.allocate.engShare d e = s.shareOf d e share := by
  obtain ⟨r, n, sh, e⟩ := allocate_state s
  refine ⟨by rw [e], by rw [e], fun d x hd hx => ?_⟩
  rw [allocate_eq]
  have h := foldl_each (f := allocateStep s) (B := fun t _ => Shares s t)
    (A := fun t d => Shares s t ∧ ∀ x, s.dieShare d = some x → t.regN d Reg.pwrShare = (x - kvGet 0 s.pwr.level d * (s.fixedOf d + s.dieDemand d) / 16) % 2 ^ 32 ∧
      ∀ e, e < 4 → s.shareOf d e (x - kvGet 0 s.pwr.level d * (s.fixedOf d + s.dieDemand d) / 16) ≠ 0 →
        t.engShare d e = s.shareOf d e (x - kvGet 0 s.pwr.level d * (s.fixedOf d + s.dieDemand d) / 16))
    (fun t d ht => ?_) (fun t d c hne ⟨ht, hc⟩ => ?_) (fun t d c _ ht => ?_) s.powerDies (powerDies_nodup s) (s := s) (fun _ _ => ⟨_, _, _, rfl⟩) d hd
  · exact h.2 x hx
  · obtain ⟨share, n, hshare, e⟩ := allocateStep_does ht d
    rw [e]
    refine ⟨⟨_, _, _, rfl⟩, fun x hx => ?_⟩
    rw [← hshare x hx]
    refine ⟨?_, fun e he hne => engShares_get (fun e => s.shareOf d e share) d _ he hne⟩
    unfold State.regN State.reg
    dsimp only
    rw [kvFind_kvPut_same]
    exact BitVec.toNat_ofNat _ _
  · obtain ⟨share, n, hshare, e⟩ := allocateStep_does ht d
    rw [e]
    refine ⟨⟨_, _, _, rfl⟩, fun x hx => ?_⟩
    obtain ⟨h1, h2⟩ := hc x hx
    refine ⟨?_, fun e he hne' => (engShares_other (fun e => s.shareOf d e share) d c _ he hne).trans (h2 e he hne')⟩
    refine Eq.trans ?_ h1
    unfold State.regN State.reg
    dsimp only
    rw [kvFind_kvPut_other _ _ _ _ (State.regKey_ne (by decide) (by decide) (.inl hne))]
    obtain ⟨r, n, sh, rfl⟩ := ht
    rfl
  · obtain ⟨share, n, hshare, e⟩ := allocateStep_does ht d
    rw [e]
    exact ⟨_, _, _, rfl⟩

/-! ## The cap exceeded -/

theorem capExceeded_does {s : State} {mw : Nat} (hd : DieUp s 0)
    (h : 1000 * s.rf 0 Reg.pwrCapEff 0 16 < mw ∧ s.powerDies.all (fun d => (List.range 4).all fun e => s.rf d (Reg.pwrBrake e) 0 6 == 56) = true) :
    Does (.capExceeded mw) s fun t => t.rbit 0 Reg.pwrStatus 3 = true ∧
      t.ctr 0 (Reg.pwrCntLo 5) = Nat.min ctrMax (s.ctr 0 (Reg.pwrCntLo 5) + 10) ∧ (0, 0x24) ∈ t.pwr.active := by
  refine .onDie hd rfl ?_
  dsimp only
  rw [if_pos (by rw [h.2, decide_eq_true h.1]; rfl)]
  set u := (s.setRbit 0 Reg.pwrStatus 3 true).bump 0 (Reg.pwrCntLo 5) 10 with hu
  have hn := Notes.pwrEvent u 0 0x24 (natLe 4 mw ++ natLe 4 (s.rf 0 Reg.pwrCapEff 0 16))
  refine ⟨(hn.rbit 0 (by decide) 3).trans (State.rbit_setRbit_same s 0 _ 3 _ (by decide)), (hn.ctr 0 _ (by decide) (by decide)).trans ?_, mem_active_pwrEvent _ _ _ _⟩
  exact State.ctr_bump_same (s.setRbit 0 Reg.pwrStatus 3 true) 0 _ 10

theorem capExceeded_clears {s : State} {mw : Nat} (hd : DieUp s 0)
    (h : ¬ (1000 * s.rf 0 Reg.pwrCapEff 0 16 < mw ∧ s.powerDies.all (fun d => (List.range 4).all fun e => s.rf d (Reg.pwrBrake e) 0 6 == 56) = true)) :
    exec (.capExceeded mw) s = .next ((s.setRbit 0 Reg.pwrStatus 3 false).pwrClear 0 0x24) := by
  refine (onDie_eq hd).trans (congrArg _ (if_neg fun hc => h ?_))
  rw [Bool.and_eq_true, decide_eq_true_eq] at hc
  exact hc

end Sys2Proof.Machine

open Sys2Proof Sys2Proof.Machine

/-- Settles O52: a reading fits the estimate once windows have come, a window sets the brakes, the cap is shared by demand, and its excess is reported. -/
theorem powerControl : Obligations.PowerControl :=
  ⟨fun _ _ mw hd => sensorRead_does mw hd, fun _ _ a hd => activityWindow_does a hd, fun s hd => .onDie hd rfl (allocate_does s),
    fun _ _ hd => ⟨capExceeded_does hd, capExceeded_clears hd⟩⟩

end

/-! PROOF. Numbers spelled by bytes, and the mailboxes. -/

section

namespace Sys2Proof.Machine

open Sys2Proof

/-! ## Numbers at a place of a list of bytes -/

theorem getD_drop {α : Type} (l : List α) (k j : Nat) (d : α) : (l.drop k).getD j d = l.getD (k + j) d := by
  simp [List.getD_eq_getElem?_getD]

theorem leNat_take_succ (l : List Byte) (n : Nat) : leNat (l.take (n + 1)) = (l.getD 0 0).toNat + 256 * leNat ((l.drop 1).take n) := by
  cases l with
  | nil => simp [leNat]
  | cons b l => rfl

/-- A number is its first byte and the number after it. -/
theorem leAt_succ (b : List Byte) (o n : Nat) : leAt b o (n + 1) = (b.getD o 0).toNat + 256 * leAt b (o + 1) n := by
  rw [leAt, leNat_take_succ, getD_drop, List.drop_drop, leAt, Nat.add_zero]

@[simp] theorem leAt_zero (b : List Byte) (o : Nat) : leAt b o 0 = 0 := rfl

theorem leAt_one (b : List Byte) (o : Nat) : leAt b o 1 = (b.getD o 0).toNat := by
  rw [leAt_succ, leAt_zero, Nat.mul_zero, Nat.add_zero]

theorem leAt_lt (b : List Byte) (o n : Nat) : leAt b o n < 256 ^ n := by
  induction n generalizing o with
  | zero => exact Nat.one_pos
  | succ n ih =>
    rw [leAt_succ, pow_succ]
    have := ih (o + 1)
    have := (b.getD o 0).isLt
    omega

theorem leAt4_lt (b : List Byte) (o : Nat) : leAt b o 4 < 2 ^ 32 := (leAt_lt b o 4).trans_eq (by norm_num)

/-- Numbers spelled by equal bytes are equal. -/
theorem leAt_congr {b c : List Byte} {o p n : Nat} (h : ∀ j, j < n → b.getD (o + j) 0 = c.getD (p + j) 0) : leAt b o n = leAt c p n := by
  induction n generalizing o p with
  | zero => rfl
  | succ n ih =>
    have h0 : b.getD o 0 = c.getD p 0 := h 0 (Nat.succ_pos n)
    rw [leAt_succ, leAt_succ, h0, ih (p := p + 1) fun j hj => by
      rw [Nat.add_assoc, Nat.add_assoc, Nat.add_comm 1 j]
      exact h (j + 1) (Nat.succ_lt_succ hj)]

theorem length_spliceAt {b v : List Byte} {o : Nat} (h : o + v.length ≤ b.length) : (spliceAt b o v).length = b.length := by
  simp only [spliceAt, List.length_append, List.length_take, List.length_drop]
  omega

/-- A splice at a place of the list reads as what is spliced in inside it and as the list outside. -/
theorem getD_spliceAt {b v : List Byte} {o : Nat} (h : o ≤ b.length) (j : Nat) :
    (spliceAt b o v).getD j 0 = if o ≤ j ∧ j < o + v.length then v.getD (j - o) 0 else b.getD j 0 := by
  have hlen : (b.take o).length = o := by simp [h]
  rw [spliceAt, List.append_assoc]
  rcases Nat.lt_or_ge j o with hj | hj
  · rw [if_neg (by omega), List.getD_append _ _ _ _ (by omega)]
    simp [List.getD_eq_getElem?_getD, hj]
  · rw [List.getD_append_right _ _ _ _ (by omega), hlen]
    by_cases hv : j < o + v.length
    · rw [if_pos ⟨hj, hv⟩, List.getD_append _ _ _ _ (by omega)]
    · rw [if_neg (by omega), List.getD_append_right _ _ _ _ (by omega), getD_drop]
      congr 1
      omega

theorem length_natLe (n x : Nat) : (natLe n x).length = n := by
  induction n generalizing x with
  | zero => rfl
  | succ n ih => simp [natLe, ih]

theorem leNat_natLe (n x : Nat) : leNat (natLe n x) = x % 256 ^ n := by
  induction n generalizing x with
  | zero => simp [natLe, leNat, Nat.mod_one]
  | succ n ih =>
    have hp : (256 : ℕ) ^ (n + 1) = 256 * 256 ^ n := pow_succ' 256 n
    rw [natLe, leNat, ih, BitVec.toNat_ofNat, hp, Nat.mod_mul]

theorem leNat_natLe_of_lt {x : Nat} (h : x < 2 ^ 32) : leNat (natLe 4 x) = x :=
  (leNat_natLe 4 x).trans (Nat.mod_eq_of_lt (h.trans_eq (by norm_num)))

/-- The pieces of one length that a list is put together from stand at the multiples of the length. -/
theorem flatMap_piece {α : Type} {f : α → List Byte} {k : Nat} (hf : ∀ a, (f a).length = k) (l : List α) (i : Nat) (h : i < l.length) :
    ((l.flatMap f).drop (k * i)).take k = f l[i] := by
  induction l generalizing i with
  | nil => exact absurd h (Nat.not_lt_zero _)
  | cons a l ih =>
    cases i with
    | zero =>
      rw [Nat.mul_zero, List.drop_zero, List.flatMap_cons, List.take_append_of_le_length (hf a).ge, List.take_of_length_le (hf a).le]
      rfl
    | succ i =>
      have h0 : (f a).drop (k * (i + 1)) = [] := List.drop_eq_nil_of_le (by rw [hf, Nat.mul_succ]; omega)
      rw [List.flatMap_cons, List.drop_append, h0, List.nil_append, hf, Nat.mul_succ, Nat.add_sub_cancel]
      exact ih i (Nat.lt_of_succ_lt_succ h)

/-! ## The bytes of a mailbox -/

theorem leAt_mbBytes (s : State) (m : Nat) {i : Nat} (hi : i < 128) : leAt (s.mbBytes m) (4 * i) 4 = s.regN 0 (Reg.mbData m i) := by
  unfold leAt State.mbBytes
  rw [flatMap_piece (fun i => length_natLe 4 _) _ i (by simpa using hi), List.getElem_range]
  exact leNat_natLe_of_lt (BitVec.isLt _)

theorem length_mbBytes (s : State) (m : Nat) : (s.mbBytes m).length = 512 := by
  simp [State.mbBytes, List.length_flatMap, length_natLe]

/-- The registers of MB_DATA hold the bytes written, and every other register keeps its value. -/
theorem setMbBytes_does (s : State) (m : Nat) (hm : m < 64) (b : List Byte) : SetsRegs s (s.setMbBytes m b) ∧
    (∀ i, i < 128 → (s.setMbBytes m b).regN 0 (Reg.mbData m i) = leAt b (4 * i) 4) ∧
    ∀ d o, o < 2 ^ 24 → (o < 0x118000 ∨ 0x120000 ≤ o) → (s.setMbBytes m b).regN d o = s.regN d o := by
  unfold State.setMbBytes
  refine ⟨SetsRegs.foldl (fun t i => SetsRegs.setRegN t _ _ _) _ s, fun i hi => ?_, fun d o hlt ho => ?_⟩
  · have hne : ∀ i j, j ≠ i → Reg.mbData m j ≠ Reg.mbData m i := fun i j h => by
      unfold Reg.mbData
      omega
    refine foldl_each (A := fun t i => t.regN 0 (Reg.mbData m i) = leAt b (4 * i) 4) (B := fun _ _ => True)
      (fun t i _ => (State.regN_setRegN_same t _ _ _).trans (Nat.mod_eq_of_lt (leAt4_lt b _)))
      (fun t i j hj h => (State.regN_setRegN_other _ _ _ _ _ _ (by simpa using hne i j hj)).trans h) (fun _ _ _ _ h => h)
      _ List.nodup_range (fun _ _ => trivial) i (List.mem_range.mpr hi)
  · refine List.foldlRecOn (motive := fun t : State => t.regN d o = s.regN d o) _ _ rfl fun t h i hi => ?_
    have hi := List.mem_range.mp hi
    refine (State.regN_setRegN_other t _ _ _ _ _ (State.regKey_ne hlt ?_ (.inr ?_))).trans h <;> unfold Reg.mbData <;> omega

/-! ## Answers of the mailboxes -/

/-- The bytes that an answer leaves in a mailbox. -/
def mbReply (b : List Byte) (result : Nat) (body : List Byte) : List Byte :=
  let c := spliceAt b 1 (natLe 1 result ++ natLe 2 body.length)
  if body.isEmpty then c else spliceAt c 16 body

theorem head_mbReply (b : List Byte) (hb : 16 ≤ b.length) (result : Nat) (body : List Byte) : (mbReply b result body).getD 1 0 = BitVec.ofNat 8 result := by
  have h : (spliceAt b 1 (natLe 1 result ++ natLe 2 body.length)).getD 1 0 = BitVec.ofNat 8 result := by
    rw [getD_spliceAt (by omega), if_pos (by simp [length_natLe])]
    rfl
  unfold mbReply
  dsimp only
  split
  · exact h
  · rw [getD_spliceAt (by rw [length_spliceAt (by simp [length_natLe]; omega)]; omega), if_neg (by omega), h]

/-- An answer leaves the words past the head of the request, but for those that its body takes. -/
theorem getD_mbReply {b : List Byte} (hb : 16 ≤ b.length) (result : Nat) (body : List Byte) {j : Nat} (hj : 4 ≤ j) :
    (mbReply b result body).getD j 0 = if 16 ≤ j ∧ j < 16 + body.length then body.getD (j - 16) 0 else b.getD j 0 := by
  have hc : (spliceAt b 1 (natLe 1 result ++ natLe 2 body.length)).getD j 0 = b.getD j 0 := by
    rw [getD_spliceAt (by omega), if_neg (by simp [length_natLe]; omega)]
  have hlen : (spliceAt b 1 (natLe 1 result ++ natLe 2 body.length)).length = b.length := length_spliceAt (by simp [length_natLe]; omega)
  unfold mbReply
  dsimp only
  split
  · next h =>
    rw [hc, if_neg (by rw [List.isEmpty_iff.mp h, List.length_nil]; omega)]
  · rw [getD_spliceAt (by omega), hc]

/-- The number that a body of 32-bit words holds at a word. -/
theorem mbReply_word {b : List Byte} (hb : 16 ≤ b.length) (result : Nat) (ws : List Nat) {k : Nat} (hk : k < ws.length) (hw : ws[k] < 2 ^ 32) :
    leAt (mbReply b result (ws.flatMap fun x => natLe 4 x)) (4 * (4 + k)) 4 = ws[k] := by
  have hlen : (ws.flatMap fun x => natLe 4 x).length = 4 * ws.length := by
    simp [List.length_flatMap, length_natLe, Nat.mul_comm]
  have hbody : leAt (mbReply b result (ws.flatMap fun x => natLe 4 x)) (4 * (4 + k)) 4 = leAt (ws.flatMap fun x => natLe 4 x) (4 * k) 4 := by
    refine leAt_congr fun j hj => ?_
    rw [getD_mbReply hb result _ (by omega), if_pos (by omega)]
    congr 1
    omega
  rw [hbody, leAt, flatMap_piece (fun x => length_natLe 4 x) _ _ hk]
  exact leNat_natLe_of_lt hw

/-- A body that is the request's own leaves the words past the head. -/
theorem mbReply_echo {b : List Byte} (hb : 16 ≤ b.length) (result len : Nat) {i : Nat} (hi : 4 ≤ i) :
    leAt (mbReply b result ((b.drop 16).take len)) (4 * i) 4 = leAt b (4 * i) 4 := by
  refine leAt_congr fun j _ => ?_
  rw [getD_mbReply hb result _ (by omega)]
  split
  · next h =>
    have hlen : 4 * i + j - 16 < len := by
      have := h.2
      rw [List.length_take] at this
      omega
    rw [List.getD_eq_getElem?_getD, List.getElem?_take_of_lt hlen, ← List.getD_eq_getElem?_getD, getD_drop]
    congr 1
    omega
  · rfl

theorem mbReply_result {b : List Byte} (hb : 16 ≤ b.length) {result : Nat} (hr : result < 256) (body : List Byte) :
    fld (leAt (mbReply b result body) (4 * 0) 4) 8 8 = result := by
  have h : (BitVec.ofNat 8 result).toNat = result := by
    rw [BitVec.toNat_ofNat, Nat.mod_eq_of_lt hr]
  rw [Nat.mul_zero, leAt_succ, leAt_succ, Nat.zero_add, head_mbReply b hb, h, fld_eq_mod_div]
  have := ((mbReply b result body).getD 0 0).isLt
  omega

theorem mbAnswer_raises (v : State) (m : Nat) : ∃ h o, (if v.rbit 0 (Reg.mbCfg m) 5 = true then v.interrupt (v.mbPart m) (272 + m) else v) =
    { v with hst := h, out := o } := by
  split
  · exact State.interrupt_state _ _ _
  · exact ⟨v.hst, v.out, rfl⟩

/-- An answer sets the registers of its mailbox and may raise an interrupt. -/
theorem mbAnswer_state (s : State) (m seq result : Nat) (body : List Byte) : ∃ h o, s.mbAnswer m seq result body =
    { (s.setMbBytes m (mbReply (s.mbBytes m) result body)).setRegN 0 (Reg.mbState m) seq with hst := h, out := o } := by
  have hr : mbReply (s.mbBytes m) result body = if body.isEmpty = true then spliceAt (s.mbBytes m) 1 (natLe 1 result ++ natLe 2 body.length)
      else spliceAt (spliceAt (s.mbBytes m) 1 (natLe 1 result ++ natLe 2 body.length)) 16 body := rfl
  unfold State.mbAnswer
  dsimp only
  rw [← hr]
  exact mbAnswer_raises _ m

theorem mbAnswered_regN {t u : State} {m seq h o} (e : t = { u.setRegN 0 (Reg.mbState m) seq with hst := h, out := o }) (d off : Nat) :
    t.regN d off = (u.setRegN 0 (Reg.mbState m) seq).regN d off := by
  rw [e]
  exact State.regN_congr rfl rfl d off

theorem mbAnswered_frame {t u : State} {m seq h o} (e : t = { u.setRegN 0 (Reg.mbState m) seq with hst := h, out := o }) :
    t.ctrs = u.ctrs ∧ t.mem = u.mem ∧ t.wiped = u.wiped := by
  rw [e]
  exact ⟨rfl, rfl, rfl⟩

theorem mbAnswer_does (s : State) {m seq : Nat} (hm : m < 64) (hseq : seq < 2 ^ 32) (result : Nat) (body : List Byte) :
    let t := s.mbAnswer m seq result body
    t.regN 0 (Reg.mbState m) = seq ∧ (∀ i, i < 128 → t.regN 0 (Reg.mbData m i) = leAt (mbReply (s.mbBytes m) result body) (4 * i) 4) ∧
      (∀ d o, o < 0x110800 → t.regN d o = s.regN d o) ∧ t.ctrs = s.ctrs ∧ SameMem s t := by
  obtain ⟨hset, hdata, hother⟩ := setMbBytes_does s m hm (mbReply (s.mbBytes m) result body)
  obtain ⟨h, o, e⟩ := mbAnswer_state s m seq result body
  obtain ⟨hctrs, hmem, hwiped⟩ := mbAnswered_frame e
  refine ⟨?_, fun i hi => ?_, fun d off hoff => ?_, hctrs.trans hset.ctrs, .of_eq (hmem.trans hset.mem) (hwiped.trans hset.wiped)⟩
  · rw [mbAnswered_regN e, State.regN_setRegN_same, Nat.mod_eq_of_lt hseq]
  · rw [mbAnswered_regN e, State.regN_setRegN_other, hdata i hi]
    simp only [ne_eq, regKey_eq_iff, Reg.mbData, Reg.mbState]
    omega
  · rw [mbAnswered_regN e, State.regN_setRegN_other, hother d off (by omega) (by omega)]
    refine State.regKey_ne (by omega) ?_ (.inr ?_) <;> unfold Reg.mbState <;> omega

/-! ## Bells -/

/-- A bell of a request whose mailbox is free: counted, its REJECTED cleared. -/
def State.mbRung (s : State) (m : Nat) : State := (s.bump 0 (Reg.ringCntLo 7) 1).setRbit 0 (Reg.mbState m) 17 false

theorem mbBytes_congr {s t : State} {m : Nat} (h : ∀ i, i < 128 → t.regN 0 (Reg.mbData m i) = s.regN 0 (Reg.mbData m i)) : t.mbBytes m = s.mbBytes m := by
  unfold State.mbBytes
  refine List.flatMap_congr fun i hi => ?_
  rw [h i (List.mem_range.mp hi)]

theorem mbRung_regN (s : State) (m : Nat) {d off : Nat} (h : regKey d off ≠ regKey 0 (Reg.mbState m)) : (s.mbRung m).regN d off = s.regN d off :=
  State.regN_setRegN_other (s.bump 0 (Reg.ringCntLo 7) 1) _ _ _ _ _ h

theorem mbRung_bytes (s : State) (m : Nat) : (s.mbRung m).mbBytes m = s.mbBytes m :=
  mbBytes_congr fun i _ => mbRung_regN s m (by simp only [ne_eq, regKey_eq_iff, Reg.mbData, Reg.mbState]; omega)

theorem mbRung_low (s : State) {m : Nat} (hm : m < 64) (d : Nat) {o : Nat} (ho : o < 0x111000) : (s.mbRung m).regN d o = s.regN d o := by
  refine mbRung_regN s m (State.regKey_ne (by omega) ?_ (.inr ?_)) <;> unfold Reg.mbState <;> omega

theorem mbCfg_ne (a b : Nat) : Reg.mbCfg a ≠ Reg.mbState b := by
  unfold Reg.mbCfg Reg.mbState
  omega

theorem ringReg_low {s t : State} (h : ∀ d o, o < 0x110800 → t.regN d o = s.regN d o) (r : Nat) {f : Nat → Nat} (hf : f ∈ ringFields) :
    t.ringReg r f = s.ringReg r f := by
  exact h _ _ (ringField_block hf r).2

theorem mbRung_result (s : State) {m : Nat} (hm : m < 64) : (s.mbRung m).mbResult m (s.mbBytes m) = s.mbResult m (s.mbBytes m) := by
  have hring : ∀ r, ∀ f ∈ ringFields, (s.mbRung m).ringReg r f = s.ringReg r f := fun r f hf =>
    ringReg_low (fun d o ho => mbRung_low s hm d (by omega)) r hf
  have hpart : ∀ r, (s.mbRung m).ringPart r = s.ringPart r := fun r => by
    rw [State.ringPart, hring r _ (by simp [ringFields]), State.ringPart]
  have hstat : ∀ r, (s.mbRung m).ringStat r 1 = s.ringStat r 1 := fun r => by
    rw [State.ringStat, hring r _ (by simp [ringFields]), State.ringStat]
  have hcfg : (s.mbRung m).mbPart m = s.mbPart m := by
    rw [State.mbPart, State.rf, mbRung_regN s m (by simpa using mbCfg_ne m m), State.mbPart, State.rf]
  unfold State.mbResult
  simp only [hpart, hstat, hcfg]
  rfl

theorem mbResult_lt (s : State) (m : Nat) (b : List Byte) : s.mbResult m b < 256 := by
  unfold State.mbResult
  dsimp only
  repeat' split
  all_goals omega

/-- The registers of a ring that doorbells and services write. -/
def ringKeys (r : Nat) : List Nat := ringFields.map fun f => regKey (ringDie r) (f (ringNo r))

theorem mem_ringKeys {f : Nat → Nat} (hf : f ∈ ringFields) (r : Nat) : regKey (ringDie r) (f (ringNo r)) ∈ ringKeys r :=
  List.mem_map_of_mem (f := fun f : Nat → Nat => regKey (ringDie r) (f (ringNo r))) hf

theorem ringKeys_setRing {s t : State} {r : Nat} (h : RegsBut s t (ringKeys r)) {f : Nat → Nat} (hf : f ∈ ringFields) (v : Nat) :
    RegsBut s (t.setRing r f v) (ringKeys r) := h.setRegN (mem_ringKeys hf r) v

theorem ringKeys_setRingStat {s t : State} {r : Nat} (h : RegsBut s t (ringKeys r)) (i : Nat) (b : Bool) :
    RegsBut s (t.setRingStat r i b) (ringKeys r) := h.setRbit (mem_ringKeys (by simp [ringFields]) r) i b

theorem mbData_not_ringKey {m i : Nat} (hm : m < 64) (hi : i < 128) (r : Nat) : regKey 0 (Reg.mbData m i) ∉ ringKeys r := by
  intro h
  obtain ⟨f, hf, e⟩ := List.mem_map.mp h
  have := ringField_block hf r
  unfold regKey Reg.mbData at e
  omega

theorem resetRing_frame (s : State) (r : Nat) : (s.resetRing r).ctrs = s.ctrs ∧ (s.resetRing r).wiped = s.wiped := by
  simp [State.resetRing, State.setRing, State.setRingStat]

/-- What a service leaves of the state besides its ring. -/
structure MbServed (s t : State) (r : Nat) : Prop where
  regs : RegsBut s t (ringKeys r)
  ctrs : t.ctrs = s.ctrs
  mem  : SameMem s t

namespace MbServed

variable {s t : State} {r : Nat}

theorem data (h : MbServed s t r) {m i : Nat} (hm : m < 64) (hi : i < 128) : t.regN 0 (Reg.mbData m i) = s.regN 0 (Reg.mbData m i) :=
  h.regs.regN (mbData_not_ringKey hm hi r)

theorem bytes (h : MbServed s t r) {m : Nat} (hm : m < 64) : t.mbBytes m = s.mbBytes m := mbBytes_congr fun _ hi => h.data hm hi

theorem refl (s : State) (r : Nat) : MbServed s s r := ⟨.refl s _, rfl, fun _ => rfl⟩

theorem stat (s : State) (r i : Nat) (b : Bool) : MbServed s (s.setRingStat r i b) r :=
  ⟨ringKeys_setRingStat (.refl s _) i b, rfl, fun _ => rfl⟩

theorem reset (s : State) (r : Nat) : MbServed s (s.resetRing r) r := by
  refine ⟨?_, (resetRing_frame s r).1, .of_eq (resetRing_mem s r) (resetRing_frame s r).2⟩
  unfold State.resetRing
  have h0 : RegsBut s { s with seq.fetched := s.seq.fetched.filter fun x => x.ring != r } (ringKeys r) := .of_eq rfl rfl
  revert h0
  generalize ({ s with seq.fetched := s.seq.fetched.filter fun x => x.ring != r } : State) = u
  intro h0
  have hpi := ringKeys_setRing h0 (f := Reg.ringPi) (by simp [ringFields]) 0
  have hci := ringKeys_setRing hpi (f := Reg.ringCi) (by simp [ringFields]) 0
  have htail := ringKeys_setRing hci (f := Reg.cqTail) (by simp [ringFields]) 0
  have hhead := ringKeys_setRing htail (f := Reg.cqHead) (by simp [ringFields]) 0
  exact ringKeys_setRingStat (ringKeys_setRingStat hhead 2 false) 3 false

theorem act (s : State) (sv r : Nat) (body : List Byte) : MbServed s (s.mbAct sv r body).2 r := by
  unfold State.mbAct
  split
  · exact refl s r
  · exact stat s r 1 true
  · exact stat s r 1 false
  · exact reset s r
  · exact refl s r

end MbServed

/-- The state that a request for a service leaves: its answer, and where RESULT is 0 what the service does. -/
def State.mbDone (s : State) (m seq : Nat) : State :=
  let b := s.mbBytes m
  let res := s.mbResult m b
  if res ≠ 0 then (s.mbRung m).mbAnswer m seq res []
  else
    let a := (s.mbRung m).mbAct (leAt b 0 1) (leAt b 4 1) ((b.drop 16).take (leAt b 2 2))
    a.2.mbAnswer m seq 0 a.1

theorem mbBell_done {s : State} {m seq : Nat} {who : Master} (hreach : s.mbReaches m who = true) (hbusy : s.mbBusy m = false)
    (hm : m < 64) (hsv : leAt (s.mbBytes m) 0 1 ≠ 0x10) : s.mbBell m seq who = s.mbDone m seq := by
  unfold State.mbBell
  have hrung : (s.bump 0 (Reg.ringCntLo 7) 1).setRbit 0 (Reg.mbState m) 17 false = s.mbRung m := rfl
  dsimp only
  rw [hreach, hbusy, if_neg (by simp), if_neg (by simp), hrung, mbRung_bytes, mbRung_result s hm, if_neg hsv]
  rfl

theorem mbDone_does (s : State) {m seq : Nat} (hm : m < 64) (hseq : seq < 2 ^ 32) :
    let t := s.mbDone m seq
    t.regN 0 (Reg.mbState m) = seq ∧ fld (t.regN 0 (Reg.mbData m 0)) 8 8 = s.mbResult m (s.mbBytes m) ∧
      t.ctr 0 (Reg.ringCntLo 7) = Nat.min ctrMax (s.ctr 0 (Reg.ringCntLo 7) + 1) ∧ SameMem s t := by
  have hb : 16 ≤ (s.mbBytes m).length := by rw [length_mbBytes]; decide
  have hctr : (s.mbRung m).ctr 0 (Reg.ringCntLo 7) = Nat.min ctrMax (s.ctr 0 (Reg.ringCntLo 7) + 1) := State.ctr_bump_same s 0 _ 1
  have hend : ∀ u res body, u.mbBytes m = s.mbBytes m → u.ctrs = (s.mbRung m).ctrs → SameMem s u → res < 256 → res = s.mbResult m (s.mbBytes m) →
      let t := u.mbAnswer m seq res body
      t.regN 0 (Reg.mbState m) = seq ∧ fld (t.regN 0 (Reg.mbData m 0)) 8 8 = s.mbResult m (s.mbBytes m) ∧
        t.ctr 0 (Reg.ringCntLo 7) = Nat.min ctrMax (s.ctr 0 (Reg.ringCntLo 7) + 1) ∧ SameMem s t := by
    intro u res body hbytes hctrs hmem hlt hres
    obtain ⟨hstate, hdata, -, hc, hm'⟩ := mbAnswer_does u hm hseq res body
    refine ⟨hstate, ?_, (State.ctr_congr (hc.trans hctrs) _ _).trans hctr, hmem.trans hm'⟩
    rw [hdata 0 (by decide), hbytes, mbReply_result hb hlt, hres]
  unfold State.mbDone
  dsimp only
  split
  · exact hend _ _ _ (mbRung_bytes s m) rfl (fun _ => rfl) (mbResult_lt s m _) rfl
  · next h =>
    have hact := MbServed.act (s.mbRung m) (leAt (s.mbBytes m) 0 1) (leAt (s.mbBytes m) 4 1) (((s.mbBytes m).drop 16).take (leAt (s.mbBytes m) 2 2))
    exact hend _ _ _ ((hact.bytes hm).trans (mbRung_bytes s m)) hact.ctrs hact.mem (by decide) (not_not.mp h).symm

/-! ## What the services do -/

theorem mbDone_ok {s : State} {m : Nat} (h : s.mbResult m (s.mbBytes m) = 0) {sv : Nat} (hsv : leAt (s.mbBytes m) 0 1 = sv) {out : List Byte} {u : State}
    (hact : (s.mbRung m).mbAct sv (leAt (s.mbBytes m) 4 1) (((s.mbBytes m).drop 16).take (leAt (s.mbBytes m) 2 2)) = (out, u)) (seq : Nat) :
    s.mbDone m seq = u.mbAnswer m seq 0 out := by
  unfold State.mbDone
  dsimp only
  rw [if_neg (not_not.mpr h), hsv, hact]

theorem mbAnswer_ring {s : State} {m seq : Nat} (hm : m < 64) (hseq : seq < 2 ^ 32) (result : Nat) (body : List Byte) {f : Nat → Nat} (hf : f ∈ ringFields)
    (r : Nat) : (s.mbAnswer m seq result body).ringReg r f = s.ringReg r f :=
  ringReg_low (fun d o ho => (mbAnswer_does s hm hseq result body).2.2.1 d o ho) r hf

theorem mbAnswer_stat {s : State} {m seq : Nat} (hm : m < 64) (hseq : seq < 2 ^ 32) (result : Nat) (body : List Byte) (r i : Nat) :
    (s.mbAnswer m seq result body).ringStat r i = s.ringStat r i := by
  rw [State.ringStat, mbAnswer_ring hm hseq result body (by simp [ringFields]), State.ringStat]

theorem mbRung_ring (s : State) {m : Nat} (hm : m < 64) {f : Nat → Nat} (hf : f ∈ ringFields) (r : Nat) : (s.mbRung m).ringReg r f = s.ringReg r f :=
  ringReg_low (fun d o ho => mbRung_low s hm d (by omega)) r hf

theorem mbBytes_long (s : State) (m : Nat) : 16 ≤ (s.mbBytes m).length := (length_mbBytes s m).symm ▸ (by decide)

/-- MB_QUERY answers with the indices of its ring. -/
theorem mbDone_query {s : State} {m seq : Nat} (hm : m < 64) (hseq : seq < 2 ^ 32) (h : s.mbResult m (s.mbBytes m) = 0)
    (hsv : leAt (s.mbBytes m) 0 1 = 1) :
    let t := s.mbDone m seq
    t.regN 0 (Reg.mbData m 4) = s.ringPi (leAt (s.mbBytes m) 4 1) ∧ t.regN 0 (Reg.mbData m 5) = s.ringCi (leAt (s.mbBytes m) 4 1) ∧
      t.regN 0 (Reg.mbData m 6) = s.cqTail (leAt (s.mbBytes m) 4 1) ∧ t.regN 0 (Reg.mbData m 7) = s.cqHead (leAt (s.mbBytes m) 4 1) := by
  set r := leAt (s.mbBytes m) 4 1 with hr
  set u := s.mbRung m with hu
  set ws := [u.ringPi r, u.ringCi r, u.cqTail r, u.cqHead r, u.ringStatusNow r, u.accepted r] with hws
  have hdone : s.mbDone m seq = u.mbAnswer m seq 0 (ws.flatMap fun x => natLe 4 x) := mbDone_ok h hsv rfl seq
  have hdata := (mbAnswer_does u hm hseq 0 (ws.flatMap fun x => natLe 4 x)).2.1
  have hword : ∀ k (hk : k < ws.length), ws[k] < 2 ^ 32 → 4 + k < 128 → (s.mbDone m seq).regN 0 (Reg.mbData m (4 + k)) = ws[k] := fun k hk hlt hk' => by
    rw [hdone, hdata _ hk', mbReply_word (mbBytes_long u m) 0 ws hk hlt]
  exact ⟨(hword 0 (by simp [ws]) (BitVec.isLt _) (by decide)).trans (mbRung_ring s hm (f := Reg.ringPi) (by simp [ringFields]) r),
    (hword 1 (by simp [ws]) (BitVec.isLt _) (by decide)).trans (mbRung_ring s hm (f := Reg.ringCi) (by simp [ringFields]) r),
    (hword 2 (by simp [ws]) (BitVec.isLt _) (by decide)).trans (mbRung_ring s hm (f := Reg.cqTail) (by simp [ringFields]) r),
    (hword 3 (by simp [ws]) (BitVec.isLt _) (by decide)).trans (mbRung_ring s hm (f := Reg.cqHead) (by simp [ringFields]) r)⟩

/-- MB_PAUSE and MB_RESUME set PAUSED of their ring. -/
theorem mbDone_pause {s : State} {m seq : Nat} (hm : m < 64) (hseq : seq < 2 ^ 32) (h : s.mbResult m (s.mbBytes m) = 0) {b : Bool}
    (hsv : leAt (s.mbBytes m) 0 1 = if b then 2 else 3) : (s.mbDone m seq).ringStat (leAt (s.mbBytes m) 4 1) 1 = b := by
  have e : s.mbDone m seq = ((s.mbRung m).setRingStat (leAt (s.mbBytes m) 4 1) 1 b).mbAnswer m seq 0 [] := by
    cases b
    · exact mbDone_ok h hsv rfl seq
    · exact mbDone_ok h hsv rfl seq
  rw [e, mbAnswer_stat hm hseq]
  exact State.rbit_setRbit_same _ _ _ 1 b (by decide)

/-- MB_RESET sets the indices of its ring to 0 and clears its errors. -/
theorem mbDone_reset {s : State} {m seq : Nat} (hm : m < 64) (hseq : seq < 2 ^ 32) (h : s.mbResult m (s.mbBytes m) = 0)
    (hsv : leAt (s.mbBytes m) 0 1 = 4) :
    let t := s.mbDone m seq
    let r := leAt (s.mbBytes m) 4 1
    t.ringPi r = 0 ∧ t.ringCi r = 0 ∧ t.cqTail r = 0 ∧ t.cqHead r = 0 ∧ t.ringStat r 2 = false ∧ t.ringStat r 3 = false := by
  have e : s.mbDone m seq = ((s.mbRung m).resetRing (leAt (s.mbBytes m) 4 1)).mbAnswer m seq 0 [] := mbDone_ok h hsv rfl seq
  obtain ⟨-, hpi, hci, htail, hhead, h2, h3⟩ := resetRing_reads (s.mbRung m) (leAt (s.mbBytes m) 4 1)
  dsimp only
  rw [e]
  exact ⟨(mbAnswer_ring hm hseq 0 [] (f := Reg.ringPi) (by simp [ringFields]) _).trans hpi,
    (mbAnswer_ring hm hseq 0 [] (f := Reg.ringCi) (by simp [ringFields]) _).trans hci,
    (mbAnswer_ring hm hseq 0 [] (f := Reg.cqTail) (by simp [ringFields]) _).trans htail,
    (mbAnswer_ring hm hseq 0 [] (f := Reg.cqHead) (by simp [ringFields]) _).trans hhead,
    (mbAnswer_stat hm hseq 0 [] _ 2).trans h2, (mbAnswer_stat hm hseq 0 [] _ 3).trans h3⟩

/-- MB_ECHO keeps the body. -/
theorem mbDone_echo {s : State} {m seq : Nat} (hm : m < 64) (hseq : seq < 2 ^ 32) (h : s.mbResult m (s.mbBytes m) = 0)
    (hsv : leAt (s.mbBytes m) 0 1 = 5) {i : Nat} (hi : 4 ≤ i) (hlt : i < 128) :
    (s.mbDone m seq).regN 0 (Reg.mbData m i) = s.regN 0 (Reg.mbData m i) := by
  have e : s.mbDone m seq = (s.mbRung m).mbAnswer m seq 0 (((s.mbBytes m).drop 16).take (leAt (s.mbBytes m) 2 2)) := mbDone_ok h hsv rfl seq
  rw [e, (mbAnswer_does (s.mbRung m) hm hseq 0 _).2.1 i hlt, mbRung_bytes, mbReply_echo (mbBytes_long s m) 0 _ hi, leAt_mbBytes s m hlt]

/-! ## The commands -/

theorem mbService_next {s : State} {m : Nat} {seq : BitVec 16} {who : Master} {f : Nat → Bool} (hs : s.tripped = false)
    (hf : f (leAt (s.mbBytes m) 0 1) = true) : s.mbService m seq who f = .next (s.mbBell m seq.toNat who) := by
  unfold State.mbService
  rw [live_eq hs, if_pos hf]

theorem mbReaches_lt {s : State} {m : Nat} {who : Master} (h : s.mbReaches m who = true) : m < 64 := by
  simp only [State.mbReaches, Bool.and_eq_true, decide_eq_true_eq] at h
  exact h.1.1

theorem mbBell_busy {s : State} {m seq : Nat} {who : Master} (hreach : s.mbReaches m who = true) (hbusy : s.mbBusy m = true) :
    s.mbBell m seq who = s.setRbit 0 (Reg.mbState m) 17 true := by
  unfold State.mbBell
  rw [hreach, hbusy, if_neg (by simp), if_pos rfl]

/-- A GUARD request leaves its mailbox busy and records who asked. -/
theorem mbGuard_waits {s : State} {m : Nat} {seq : BitVec 16} {who : Master} (hs : s.tripped = false) (hreach : s.mbReaches m who = true)
    (hbusy : s.mbBusy m = false) (hsv : leAt (s.mbBytes m) 0 1 = 0x10) :
    Does (.mbGuard m seq who) s fun t => t.mbBusy m = true ∧ kvFind t.mbSeq m = some (seq.toNat, isVf who) ∧ SameMem s t := by
  have hbell : s.mbBell m seq.toNat who = { (s.mbRung m).setRbit 0 (Reg.mbState m) 16 true with mbSeq := kvPut s.mbSeq m (seq.toNat, isVf who) } := by
    have hrung : (s.bump 0 (Reg.ringCntLo 7) 1).setRbit 0 (Reg.mbState m) 17 false = s.mbRung m := rfl
    unfold State.mbBell
    dsimp only
    rw [hreach, hbusy, if_neg (by simp), if_neg (by simp), hrung, mbRung_bytes, if_pos hsv]
    rfl
  have hexec : exec (.mbGuard m seq who) s = .next (s.mbBell m seq.toNat who) := mbService_next (f := (· == 0x10)) hs (by rw [hsv]; rfl)
  refine ⟨_, hexec, ?_⟩
  rw [hbell]
  refine ⟨?_, kvFind_kvPut_same _ _ _, fun _ => rfl⟩
  exact State.rbit_setRbit_same (s.mbRung m) 0 (Reg.mbState m) 16 true (by decide)

end Sys2Proof.Machine

open Sys2Proof Sys2Proof.Machine

/-- A service's command runs the bell of a request for it. -/
theorem mbService_runs {s : State} {m : Nat} {seq : BitVec 16} {who : Master} {c : Instr} {sv k : Nat} (hs : s.tripped = false) (hsv : leAt (s.mbBytes m) 0 1 = sv)
    (hc : (c, k) ∈ [(Instr.mbQuery m seq who, 1), (.mbPause m seq who, 2), (.mbResume m seq who, 3), (.mbReset m seq who, 4),
        (.mbEcho m seq who, 5), (.unknownService m seq who, 6)]) (hk : k = sv ∨ k = 6 ∧ (sv = 0 ∨ 5 < sv ∧ sv ≠ 0x10)) :
    exec c s = .next (s.mbBell m seq.toNat who) ∧ sv ≠ 0x10 := by
  simp only [List.mem_cons, Prod.mk.injEq, List.not_mem_nil, or_false] at hc
  have hmatch : ∀ f : Nat → Bool, f sv = true → s.mbService m seq who f = .next (s.mbBell m seq.toNat who) := fun f hf => mbService_next hs (hsv ▸ hf)
  rcases hc with ⟨rfl, rfl⟩ | ⟨rfl, rfl⟩ | ⟨rfl, rfl⟩ | ⟨rfl, rfl⟩ | ⟨rfl, rfl⟩ | ⟨rfl, rfl⟩
  · exact ⟨hmatch (· == 1) (by simp; omega), by omega⟩
  · exact ⟨hmatch (· == 2) (by simp; omega), by omega⟩
  · exact ⟨hmatch (· == 3) (by simp; omega), by omega⟩
  · exact ⟨hmatch (· == 4) (by simp; omega), by omega⟩
  · exact ⟨hmatch (· == 5) (by simp; omega), by omega⟩
  · exact ⟨hmatch (fun v => v == 0 || (decide (5 < v) && v != 0x10)) (by simp; omega), by omega⟩

/-- Settles O34: a bell that finds its mailbox free answers with RESULT and SEQ after its service, and one that finds it busy is rejected. -/
theorem mailboxes : Obligations.Mailboxes := by
  refine ⟨fun s m seq who c sv hs hreach hbusy hsv => ⟨fun k hc hk => ?_, fun h => ?_⟩, fun s m seq who c hs hreach hbusy hc => ?_⟩
  · have hm := mbReaches_lt hreach
    have hseq : seq.toNat < 2 ^ 32 := seq.isLt.trans (by decide)
    obtain ⟨hexec, hne⟩ := mbService_runs hs hsv hc hk
    rw [mbBell_done hreach hbusy hm (hsv ▸ hne)] at hexec
    obtain ⟨hstate, hresult, hctr, hmem⟩ := mbDone_does s hm hseq
    subst hsv
    exact ⟨_, hexec, hstate, hresult, hctr, hmem, fun h0 => ⟨mbDone_query hm hseq h0, fun h => mbDone_pause hm hseq h0 (b := true) h,
      fun h => mbDone_pause hm hseq h0 (b := false) h, mbDone_reset hm hseq h0, fun h i => mbDone_echo hm hseq h0 h⟩⟩
  · exact mbGuard_waits hs hreach hbusy (hsv.trans h)
  · have hdata : ∀ i, (s.setRbit 0 (Reg.mbState m) 17 true).regN 0 (Reg.mbData m i) = s.regN 0 (Reg.mbData m i) := fun i =>
      State.regN_setRegN_other _ _ _ _ _ _ (by simp only [ne_eq, regKey_eq_iff, Reg.mbData, Reg.mbState]; omega)
    have hset := State.rbit_setRbit_same s 0 (Reg.mbState m) 17 true (by decide)
    refine ⟨s.setRbit 0 (Reg.mbState m) 17 true, ?_, hset, fun i _ => hdata i, fun _ => rfl, rfl⟩
    rcases hc with rfl | ⟨rfl, hsv⟩
    · exact (live_eq hs).trans (congrArg _ (if_pos (by rw [hreach, hbusy]; rfl)))
    · exact (mbService_next (f := (· == 1)) hs (by rw [hsv]; rfl)).trans (congrArg _ (mbBell_busy hreach hbusy))

end

/-! PROOF. Requests to the guard: refusals, settings, firmware, debug and the security version. -/

section

namespace Sys2Proof.Machine

open Sys2Proof

/-! ## The guard hears a request and answers it -/

/-- A request that the guard hears is answered with what its opcode replies. -/
theorem guardOp_hears {s : State} {r : GReq} {c : PathClass} {op : Nat} (h : GuardHears s r c op) : s.guardOp r op =
    .next ((s.opcode (s.reqBytes r)).st.answer r.path (s.reqBytes r) (s.opcode (s.reqBytes r)).code (s.opcode (s.reqBytes r)).result) := by
  unfold State.guardOp State.guardServe State.guardReply
  rw [live_eq h.up, if_pos h.isOp, if_pos h.runs, h.path]
  dsimp only
  rw [h.known, h.isOp, h.may]
  rfl

theorem answers_of {s : State} {r : GReq} {c : PathClass} {op : Nat} {i : Instr} (h : GuardHears s r c op) (hexec : exec i s = s.guardOp r op)
    {code : Nat} {result : List Byte} {u : State} (hreply : s.opcode (s.reqBytes r) = ⟨code, result, u⟩) : Answers i s r code result u := by
  unfold Answers
  rw [hexec, guardOp_hears h, hreply]

/-- A request that is unknown or may not come by its path is refused. -/
theorem guardServe_refuses {s : State} {path : GPath} {b : List Byte} {c : PathClass} (hruns : s.guardRuns = true) (hpath : s.pathClass path = some c) :
    (reqKnown b = false → s.guardServe path b = s.answer path b 1 []) ∧
      (reqKnown b = true → opPath (reqOp b) c = false → s.guardServe path b = s.answer path b 2 []) := by
  unfold State.guardServe State.guardReply
  rw [if_pos hruns, hpath]
  dsimp only
  exact ⟨fun h => by rw [h]; rfl, fun h h2 => by rw [h, h2]; rfl⟩

/-- The commands that carry a request run it where its bytes hold their opcode. -/
theorem guardOps_exec {r : GReq} {p : Instr × Nat} (hp : p ∈ guardOps r) (s : State) : exec p.1 s = s.guardOp r p.2 := by
  simp only [guardOps, List.mem_cons, List.not_mem_nil, or_false] at hp
  rcases hp with rfl | rfl | rfl | rfl | rfl | rfl | rfl | rfl | rfl | rfl | rfl | rfl | rfl | rfl | rfl <;> rfl

theorem guardOps_refused {s : State} {r : GReq} {c : PathClass} (hs : s.tripped = false) (hruns : s.guardRuns = true)
    (hpath : s.pathClass r.path = some c) {p : Instr × Nat} (hp : p ∈ guardOps r) (hop : reqOp (s.reqBytes r) = p.2) :
    (reqKnown (s.reqBytes r) = false → Answers p.1 s r 1 [] s) ∧
      (reqKnown (s.reqBytes r) = true → opPath p.2 c = false → Answers p.1 s r 2 [] s) := by
  obtain ⟨h1, h2⟩ := guardServe_refuses (b := s.reqBytes r) hruns hpath
  have hexec : exec p.1 s = .next (s.guardServe r.path (s.reqBytes r)) := by
    rw [guardOps_exec hp, State.guardOp, live_eq hs, if_pos hop]
  unfold Answers
  rw [hexec]
  exact ⟨fun h => by rw [h1 h], fun h hc => by rw [h2 h (hop ▸ hc)]⟩

theorem guardUnknownOpcode_refused {s : State} {r : GReq} {c : PathClass} (hs : s.tripped = false) (hruns : s.guardRuns = true)
    (hpath : s.pathClass r.path = some c) (hb : reqKnown (s.reqBytes r) = false) : Answers (.guardUnknownOpcode r) s r 1 [] s := by
  refine (live_eq hs).trans (congrArg _ ?_)
  rw [hb, if_neg (by simp), (guardServe_refuses hruns hpath).1 hb]

/-! ## Settings -/

section settings

variable {s : State} {r : GReq} {c : PathClass}

theorem guardQuery_answers (h : GuardHears s r c 0x1) : Answers (.guardQuery r) s r 0 s.queryWords s :=
  answers_of h rfl (by unfold State.opcode; rw [h.isOp]; rfl)

theorem setClkLimit_answers (h : GuardHears s r c 0x2) :
    (limitOk (leAt (s.reqBytes r) 8 1) (leAt (s.reqBytes r) 9 1) = true →
      Answers (.setClkLimit r) s r 0 [] (s.guardLimit (leAt (s.reqBytes r) 8 1) (leAt (s.reqBytes r) 9 1))) ∧
    (limitOk (leAt (s.reqBytes r) 8 1) (leAt (s.reqBytes r) 9 1) = false → Answers (.setClkLimit r) s r 3 [] s) := by
  have e : s.opcode (s.reqBytes r) = s.opClk (s.reqBytes r) := by unfold State.opcode; rw [h.isOp]; rfl
  exact ⟨fun hok => answers_of h rfl (e.trans (if_pos hok)), fun hok => answers_of h rfl (e.trans (if_neg (by rw [hok]; decide)))⟩

theorem setCapCeil_answers (h : GuardHears s r c 0x3) :
    (leAt (s.reqBytes r) 8 2 ≤ s.part.design → Answers (.setCapCeil r) s r 0 [] (s.guardSet 0 Reg.pwrCapCeil (leAt (s.reqBytes r) 8 2))) ∧
    (s.part.design < leAt (s.reqBytes r) 8 2 → Answers (.setCapCeil r) s r 4 [] s) := by
  have e : s.opcode (s.reqBytes r) = s.opCeil (s.reqBytes r) := by unfold State.opcode; rw [h.isOp]; rfl
  exact ⟨fun hok => answers_of h rfl (e.trans (if_neg (Nat.not_lt.mpr hok))), fun hok => answers_of h rfl (e.trans (if_pos hok))⟩

theorem setCapSb_answers (h : GuardHears s r c 0x4) : Answers (.setCapSb r) s r 0 [] (s.guardSet 0 Reg.pwrCapSb (leAt (s.reqBytes r) 8 2)) :=
  answers_of h rfl (by unfold State.opcode; rw [h.isOp]; rfl)

/-- A register that the guard sets on each die holds the value as its fields store it. -/
theorem guardSet_eachDie {s : State} {off v w : Nat} (hoff : off < 2 ^ 24) (h1 : off ≠ Reg.pwrCapSb) (h2 : off ≠ Reg.pwrCapCeil)
    (hfix : ∀ (p : Part) d, p.regFix d off v % 2 ^ 32 = w) {d : Nat} (hd : d < s.part.dies) : (s.eachDie fun s d => s.guardSet d off v).regN d off = w :=
  eachDie_regN_same (v := fun _ => w) hoff (fun _ _ => (guardSet_does h1 h2).2.1) (fun t d _ => (guardSet_does h1 h2).1.trans (hfix t.part d)) hd

/-- THERM_LIMITS stores a throttle and a critical temperature of Table 16-9. -/
theorem fixTherm_stores {x y : Nat} (h1 : 60 ≤ x) (h2 : x ≤ 105) (h3 : x + 5 ≤ y) (h4 : y ≤ 115) : fixTherm (x + 256 * y) = x + 256 * y := by
  have hx : fld (x + 256 * y) 0 8 = x := by
    rw [fld_eq_mod_div]
    omega
  have hy : fld (x + 256 * y) 8 8 = y := by
    rw [fld_eq_mod_div]
    omega
  have hfst : fixField (x + 256 * y) 0 8 (fun x => decide (60 ≤ x) && decide (x ≤ 105)) 95 = x + 256 * y := by
    unfold fixField
    rw [hx, if_pos (by simp [h1, h2])]
  unfold fixTherm
  rw [hfst]
  dsimp only
  unfold fixField
  rw [hx, hy, if_pos (by simp [h3, h4])]

theorem setTherm_answers (h : GuardHears s r c 0x5) (x y : Nat) (hx : leAt (s.reqBytes r) 8 1 = x) (hy : leAt (s.reqBytes r) 9 1 = y) :
    let bad := x < 60 ∨ 105 < x ∨ y < x + 5 ∨ 115 < y
    (bad → Answers (.setTherm r) s r 3 [] s) ∧
    (¬ bad → s.rf 0 Reg.grdFuseSvn 8 8 < y → Answers (.setTherm r) s r 4 [] s) ∧
    (¬ bad → y ≤ s.rf 0 Reg.grdFuseSvn 8 8 → ∃ u, Answers (.setTherm r) s r 0 [] u ∧ ∀ d, d < s.part.dies → u.regN d Reg.thermLimits = x + 256 * y) := by
  have e : s.opcode (s.reqBytes r) = s.opTherm (s.reqBytes r) := by unfold State.opcode; rw [h.isOp]; rfl
  unfold State.opTherm at e
  rw [hx, hy] at e
  refine ⟨fun hbad => answers_of h rfl (e.trans (if_pos (by simpa [or_assoc, and_assoc] using hbad))), fun hbad hsvn => ?_, fun hbad hsvn => ?_⟩
  · exact answers_of h rfl (e.trans ((if_neg (by simpa [or_assoc, and_assoc] using hbad)).trans (if_pos hsvn)))
  · refine ⟨_, answers_of h rfl (e.trans ((if_neg (by simpa [or_assoc, and_assoc] using hbad)).trans (if_neg (Nat.not_lt.mpr hsvn)))), fun d hd => ?_⟩
    refine guardSet_eachDie (by decide) (by decide) (by decide) (fun p d => ?_) hd
    have hfix : p.regFix d Reg.thermLimits (x + 256 * y) = fixTherm (x + 256 * y) := rfl
    rw [hfix, fixTherm_stores (by omega) (by omega) (by omega) (by omega)]
    omega

/-- GEN_DISC_CTRL stores a QUIET that is not 0. -/
theorem fixDisc_stores {x y : Nat} (h1 : x ≤ 1) (h2 : 1 ≤ y) (h3 : y ≤ 4095) : fixField (x + 16 * y) 4 12 (· != 0) 1 = x + 16 * y := by
  have hy : fld (x + 16 * y) 4 12 = y := by
    rw [fld_eq_mod_div]
    omega
  unfold fixField
  rw [hy, if_pos (by simp; omega)]

theorem setDisc_answers (h : GuardHears s r c 0x6) (x y : Nat) (hx : leAt (s.reqBytes r) 8 1 = x) (hy : leAt (s.reqBytes r) 10 2 = y) :
    (x ≤ 1 → 1 ≤ y → y ≤ 4095 → ∃ u, Answers (.setDisc r) s r 0 [] u ∧ ∀ d, d < s.part.dies → u.regN d Reg.genDiscCtrl = x + 16 * y) ∧
    ((1 < x ∨ y = 0 ∨ 4095 < y) → Answers (.setDisc r) s r 3 [] s) := by
  have e : s.opcode (s.reqBytes r) = s.opDisc (s.reqBytes r) := by unfold State.opcode; rw [h.isOp]; rfl
  unfold State.opDisc at e
  rw [hx, hy] at e
  refine ⟨fun h1 h2 h3 => ⟨_, answers_of h rfl (e.trans (if_neg (by simp; omega))), fun d hd => ?_⟩, fun hbad => ?_⟩
  · refine guardSet_eachDie (by decide) (by decide) (by decide) (fun p d => ?_) hd
    have hfix : p.regFix d Reg.genDiscCtrl (x + 16 * y) = fixField (x + 16 * y) 4 12 (· != 0) 1 := rfl
    rw [hfix, fixDisc_stores h1 h2 h3]
    omega
  · exact answers_of h rfl (e.trans (if_pos (by simpa [or_assoc] using hbad)))

theorem startDisc_answers (h : GuardHears s r c 0x7) :
    (s.discState = 0 → 2 ≤ s.stage_ → s.stage_ ≠ 0xF → Answers (.startDisc r) s r 0 [] s.startDiscovery) ∧
    ((s.discState ≠ 0 ∨ s.stage_ < 2 ∨ s.stage_ = 0xF) → Answers (.startDisc r) s r 9 [] s) := by
  have e : s.opcode (s.reqBytes r) = s.opStart := by unfold State.opcode; rw [h.isOp]; rfl
  unfold State.opStart at e
  exact ⟨fun h1 h2 h3 => answers_of h rfl (e.trans (if_neg (by simp [h1, h3]; omega))),
    fun hbad => answers_of h rfl (e.trans (if_pos (by simpa [or_assoc] using hbad)))⟩

theorem guardReset_answers (h : GuardHears s r c 0x8) (hk : leAt (s.reqBytes r) 8 1 ≤ 2)
    (hd : leAt (s.reqBytes r) 8 1 = 2 → leAt (s.reqBytes r) 9 1 < s.part.dies) :
    (s.grd.resetReq = none →
      Answers (.guardReset r) s r 0 [] { s with grd := { s.grd with resetReq := some (leAt (s.reqBytes r) 8 1, leAt (s.reqBytes r) 9 1) } }) ∧
    (∀ x, s.grd.resetReq = some x → Answers (.guardReset r) s r 5 [] s) := by
  have e : s.opcode (s.reqBytes r) = s.opReset (s.reqBytes r) := by unfold State.opcode; rw [h.isOp]; rfl
  unfold State.opReset at e
  rw [if_neg (by simp; omega)] at e
  exact ⟨fun hreq => answers_of h rfl (e.trans (if_neg (by simp [hreq]))), fun x hreq => answers_of h rfl (e.trans (if_pos (by simp [hreq])))⟩

theorem readLog_answers (h : GuardHears s r c 0x9) (h1 : 1 ≤ leAt (s.reqBytes r) 12 1) (h7 : leAt (s.reqBytes r) 12 1 ≤ 7) :
    Answers (.readLog r) s r 0 ((s.grd.sticky.drop (leAt (s.reqBytes r) 8 4)).take (leAt (s.reqBytes r) 12 1)).flatten s := by
  have e : s.opcode (s.reqBytes r) = s.opLog (s.reqBytes r) := by unfold State.opcode; rw [h.isOp]; rfl
  unfold State.opLog at e
  exact answers_of h rfl (e.trans (if_neg (by simp; omega)))

end settings

end Sys2Proof.Machine

open Sys2Proof Sys2Proof.Machine

/-- Settles O35: a request that may not come is refused, and each setting does what its opcode replies. -/
theorem guardRequests : Obligations.GuardRequests :=
  ⟨fun _ _ _ hs hruns hpath => ⟨fun _ hp hop => guardOps_refused hs hruns hpath hp hop, guardUnknownOpcode_refused hs hruns hpath⟩,
    fun _ _ _ => ⟨guardQuery_answers, setClkLimit_answers, setCapCeil_answers, setCapSb_answers, fun h => setTherm_answers h _ _ rfl rfl,
      fun h => setDisc_answers h _ _ rfl rfl, startDisc_answers, guardReset_answers, readLog_answers⟩⟩

end

/-! PROOF. Requests to the guard: firmware updates, the debug unlock and the security version. -/

section

namespace Sys2Proof.Machine

open Sys2Proof

/-! ## The sticky log beside the registers -/

theorem rbit_stickyAdd (s : State) (kind d : Nat) (detail : List Byte) (e o i : Nat) : (s.stickyAdd kind d detail).rbit e o i = s.rbit e o i := by
  obtain ⟨g, hg⟩ := stickyAdd_state s kind d detail
  rw [hg]
  rfl

theorem rf_stickyAdd (s : State) (kind d : Nat) (detail : List Byte) (e o lo len : Nat) : (s.stickyAdd kind d detail).rf e o lo len = s.rf e o lo len := by
  obtain ⟨g, hg⟩ := stickyAdd_state s kind d detail
  rw [hg]
  rfl

theorem rbit_setGrd_same (s : State) {i : Nat} (hi : i < 32) (b : Bool) : (s.setGrd i b).rbit 0 Reg.grdStatus i = b :=
  State.rbit_setRbit_same s 0 Reg.grdStatus i b hi

theorem rbit_setGrd_other (s : State) {i j : Nat} (hi : i < 32) (h : j ≠ i) (b : Bool) : (s.setGrd i b).rbit 0 Reg.grdStatus j = s.rbit 0 Reg.grdStatus j :=
  (State.rbit_setRbit s 0 Reg.grdStatus j b hi).trans (if_neg h)

/-! ## Firmware updates -/

section firmware

variable {s : State} {r : GReq} {c : PathClass}

/-- The state that FW_BEGIN leaves: the slot that does not run is void, and an update of a length and a version runs. -/
def State.fwBegun (s : State) (len svn : Nat) : State :=
  let t := (s.eraseSlot (1 - s.runSlot)).setGrd 3 false
  ({ t with grd := { t.grd with upd := some ⟨len, svn, []⟩ } } : State).setGrd 2 true

theorem fwBegun_does (s : State) (len svn : Nat) : (s.fwBegun len svn).grd.upd = some ⟨len, svn, []⟩ ∧
    (s.fwBegun len svn).slotValid (1 - s.runSlot) = false ∧ (s.fwBegun len svn).rbit 0 Reg.grdStatus 2 = true ∧
    (s.fwBegun len svn).rbit 0 Reg.grdStatus 3 = false := by
  have hslot : kvFind (s.fwBegun len svn).grd.slots (1 - s.runSlot) = some ⟨false, s.slotSeq (1 - s.runSlot), s.slotSvn (1 - s.runSlot), []⟩ :=
    kvFind_kvPut_same _ _ _
  refine ⟨rfl, ?_, State.rbit_setRbit_same _ 0 Reg.grdStatus 2 true (by decide), ?_⟩
  · rw [State.slotValid, hslot]
  · exact (State.rbit_setRbit _ 0 Reg.grdStatus 3 true (by decide)).trans (State.rbit_setRbit_same (s.eraseSlot (1 - s.runSlot)) 0 Reg.grdStatus 3 false (by decide))

theorem fwBegin_answers (h : GuardHears s r c 0xA) (len svn : Nat) (hlen : leAt (s.reqBytes r) 8 4 = len) (hsvn : leAt (s.reqBytes r) 12 1 = svn)
    (h0 : len ≠ 0) (hmax : len ≤ 24 * 2 ^ 20) :
    (s.grd.upd = none → s.minSvn ≤ svn → ∃ u, Answers (.fwBegin r) s r 0 [] u ∧ u.grd.upd = some ⟨len, svn, []⟩ ∧
      u.slotValid (1 - s.runSlot) = false ∧ u.rbit 0 Reg.grdStatus 2 = true ∧ u.rbit 0 Reg.grdStatus 3 = false) ∧
    (s.grd.upd = none → svn < s.minSvn → Answers (.fwBegin r) s r 7 [] s) ∧ (∀ x, s.grd.upd = some x → Answers (.fwBegin r) s r 5 [] s) := by
  have e : s.opcode (s.reqBytes r) = s.opFwBegin (s.reqBytes r) := by unfold State.opcode; rw [h.isOp]; rfl
  unfold State.opFwBegin at e
  rw [hlen, hsvn, if_neg (by simp [h0]; omega)] at e
  refine ⟨fun hu hok => ⟨s.fwBegun len svn, answers_of h rfl (e.trans ?_), fwBegun_does s len svn⟩, fun hu hlt => answers_of h rfl (e.trans ?_),
    fun x hu => answers_of h rfl (e.trans ?_)⟩
  · rw [hu, if_neg (by simp), if_neg (Nat.not_lt.mpr hok)]
    rfl
  · rw [hu, if_neg (by simp), if_pos hlt]
    rfl
  · rw [hu, if_pos (by simp)]
    rfl

/-- A list of bytes put at consecutive keys is found there, and every other key keeps its value. -/
theorem kvFind_putBytes {α : Type} (bytes : List α) (off : Nat) (n : Nat) (data : List (Nat × α)) (a : Nat) :
    kvFind ((bytes.zipIdx n).foldl (fun m x => kvPut m (off + x.2) x.1) data) a =
      if h : off + n ≤ a ∧ a < off + n + bytes.length then some (bytes[a - (off + n)]'(by omega)) else kvFind data a := by
  induction bytes generalizing n data with
  | nil =>
    rw [dif_neg (fun h => by rw [List.length_nil] at h; omega)]
    rfl
  | cons b bytes ih =>
    rw [List.zipIdx_cons, List.foldl_cons, ih]
    by_cases ha : a = off + n
    · subst ha
      rw [dif_neg (by omega), dif_pos (by simp), kvFind_kvPut_same]
      simp
    · rw [kvFind_kvPut_other _ _ _ _ ha]
      by_cases hin : off + (n + 1) ≤ a ∧ a < off + (n + 1) + bytes.length
      · rw [dif_pos hin, dif_pos (by simp; omega)]
        obtain ⟨k, rfl⟩ := Nat.exists_eq_add_of_le hin.1
        simp [show off + (n + 1) + k - (off + n) = k + 1 by omega]
      · rw [dif_neg hin, dif_neg (by simp; omega)]

theorem fwWrite_answers (h : GuardHears s r c 0xB) (off : Nat) (bytes : List Byte) (hoff : leAt (s.reqBytes r) 8 4 = off)
    (hbytes : ((s.reqBytes r).drop 12).take (reqLen (s.reqBytes r) - 4) = bytes) :
    (s.grd.upd = none → Answers (.fwWrite r) s r 9 [] s) ∧
    (∀ x, s.grd.upd = some x → off + bytes.length ≤ x.len → ∃ u y, Answers (.fwWrite r) s r 0 [] u ∧
      u.grd.upd = some y ∧ y.len = x.len ∧ y.svn = x.svn ∧
      (∀ i, (h : i < bytes.length) → kvFind y.data (off + i) = some bytes[i]) ∧
      ∀ a, (a < off ∨ off + bytes.length ≤ a) → kvFind y.data a = kvFind x.data a) := by
  have e : s.opcode (s.reqBytes r) = s.opFwWrite (s.reqBytes r) := by unfold State.opcode; rw [h.isOp]; rfl
  unfold State.opFwWrite at e
  rw [hoff, hbytes] at e
  refine ⟨fun hu => answers_of h rfl (e.trans (by rw [hu]; rfl)), fun x hu hfit => ?_⟩
  rw [hu] at e
  refine ⟨_, _, answers_of h rfl (e.trans (if_neg (Nat.not_lt.mpr hfit))), rfl, rfl, rfl, fun i hi => ?_, fun a ha => ?_⟩
  · dsimp only
    rw [kvFind_putBytes, dif_pos (by omega)]
    simp
  · dsimp only
    rw [kvFind_putBytes, dif_neg (by omega)]

theorem fwCommit_answers (h : GuardHears s r c 0xC) :
    (s.grd.upd = none → Answers (.fwCommit r) s r 9 [] s) ∧
    (∀ x, s.grd.upd = some x → s.minSvn ≤ x.svn →
      if Config.fwSigned (x.image s.freeCtr) x.svn = true then ∃ u, Answers (.fwCommit r) s r 0 [] u ∧ u.grd.upd = none ∧
        kvFind u.grd.slots (1 - s.runSlot) = some ⟨true, s.slotSeq s.runSlot + 1, x.svn, x.image s.freeCtr⟩ ∧
        u.rbit 0 Reg.grdStatus 3 = true ∧ u.rbit 0 Reg.grdStatus 2 = false
      else Answers (.fwCommit r) s r 6 [] s) := by
  have e : s.opcode (s.reqBytes r) = s.opFwCommit := by unfold State.opcode; rw [h.isOp]; rfl
  unfold State.opFwCommit at e
  refine ⟨fun hu => answers_of h rfl (e.trans (by rw [hu]; rfl)), fun x hu hsvn => ?_⟩
  rw [hu] at e
  dsimp only at e
  split
  · next hsigned =>
    rw [show s.fresh.1 = s.freeCtr from rfl, hsigned, if_neg (by simp), if_neg (Nat.not_lt.mpr hsvn)] at e
    refine ⟨_, answers_of h rfl e, rfl, kvFind_kvPut_same _ _ _, ?_, ?_⟩
    · rw [rbit_stickyAdd, rbit_setGrd_other _ (by decide) (by decide), rbit_setGrd_same _ (by decide)]
    · rw [rbit_stickyAdd, rbit_setGrd_same _ (by decide)]
  · next hsigned =>
    have hsigned' : (!Config.fwSigned (x.image s.fresh.1) x.svn) = true := by
      rw [show s.fresh.1 = s.freeCtr from rfl, Bool.eq_false_of_not_eq_true hsigned]
      rfl
    exact answers_of h rfl (e.trans (if_pos hsigned'))

/-! ## Debug and the security version -/

theorem debugNonce_answers (h : GuardHears s r c 0xD) :
    ∃ u n, Answers (.debugNonce r) s r 0 n u ∧ n.length = 48 ∧ u.grd.nonce = some n ∧ u.freeCtr = s.freeCtr + 1 := by
  have e : s.opcode (s.reqBytes r) = s.opNonce := by unfold State.opcode; rw [h.isOp]; rfl
  exact ⟨_, _, answers_of h rfl e, by simp, rfl, rfl⟩

theorem debugUnlock_answers (h : GuardHears s r c 0xE) :
    (s.grd.nonce = none → Answers (.debugUnlock r) s r 6 [] s) ∧
    ∀ n, s.grd.nonce = some n → if (Config.debugAllowed && Config.tokenOk s.serial n (((s.reqBytes r).drop 8).take 96)) = true then
        ∃ u, Answers (.debugUnlock r) s r 0 [] u ∧ u.grd.nonce = none ∧ u.rbit 0 Reg.grdStatus 1 = true
      else Answers (.debugUnlock r) s r 6 [] s := by
  have e : s.opcode (s.reqBytes r) = s.opUnlock (s.reqBytes r) := by unfold State.opcode; rw [h.isOp]; rfl
  unfold State.opUnlock at e
  refine ⟨fun hn => answers_of h rfl (e.trans (by rw [hn]; rfl)), fun n hn => ?_⟩
  rw [hn] at e
  dsimp only at e
  have hrefuse : (!Config.debugAllowed || !Config.tokenOk s.serial n (((s.reqBytes r).drop 8).take 96)) =
      !(Config.debugAllowed && Config.tokenOk s.serial n (((s.reqBytes r).drop 8).take 96)) := (Bool.not_and _ _).symm
  rw [hrefuse] at e
  split
  · next hok =>
    rw [hok, if_neg (by simp)] at e
    exact ⟨_, answers_of h rfl e, rfl, (rbit_stickyAdd _ _ _ _ _ _ _).trans (rbit_setGrd_same _ (by decide) _)⟩
  · next hno =>
    exact answers_of h rfl (e.trans (if_pos (by rw [Bool.not_eq_true] at hno; rw [hno]; rfl)))

theorem svnAdvance_answers (h : GuardHears s r c 0xF) : (s.rf 0 Reg.grdId 0 8 ≤ s.minSvn → Answers (.svnAdvance r) s r 9 [] s) ∧
    (s.minSvn < s.rf 0 Reg.grdId 0 8 → ∃ u, Answers (.svnAdvance r) s r 0 [] u ∧
      ∀ d, d < s.part.dies → u.rf d Reg.grdFuseSvn 0 8 = s.rf 0 Reg.grdId 0 8) := by
  have e : s.opcode (s.reqBytes r) = s.opSvn := by unfold State.opcode; rw [h.isOp]; rfl
  unfold State.opSvn at e
  dsimp only at e
  refine ⟨fun hle => answers_of h rfl (e.trans (if_pos hle)), fun hlt => ⟨_, answers_of h rfl (e.trans (if_neg (Nat.not_le.mpr hlt))), fun d hd => ?_⟩⟩
  have hsvn : s.rf 0 Reg.grdId 0 8 % 2 ^ 8 = s.rf 0 Reg.grdId 0 8 := Nat.mod_eq_of_lt (fld_lt _ 0 8)
  revert hsvn
  generalize s.rf 0 Reg.grdId 0 8 = svn
  intro hsvn
  have hset := eachDie_each (s := s) (f := fun s d => s.setRegN d Reg.grdFuseSvn (setFld (s.regN d Reg.grdFuseSvn) 0 8 svn))
    (A := fun t d => t.rf d Reg.grdFuseSvn 0 8 = svn) (B := fun _ _ => True)
    (fun t d _ => (State.rf_setRf_same t d Reg.grdFuseSvn 0 8 svn (by decide)).trans hsvn)
    (fun t d c hne hc => (State.rf_setRegN_other t d _ _ c _ 0 8 (State.regKey_ne (by decide) (by decide) (.inl hne))).trans hc) (fun _ _ _ _ _ => trivial)
    (fun _ => trivial) hd
  exact (rf_stickyAdd _ _ _ _ _ _ _ _).trans hset

end firmware

end Sys2Proof.Machine

open Sys2Proof Sys2Proof.Machine

/-- Settles O36: an update begins, is written and is committed, a nonce unlocks debug with its token, and the security version advances. -/
theorem guardFirmware : Obligations.GuardFirmware :=
  fun _ _ _ => ⟨fun h h0 hmax => fwBegin_answers h _ _ rfl rfl h0 hmax, fun h => fwWrite_answers h _ _ rfl rfl, fwCommit_answers, debugNonce_answers,
    debugUnlock_answers, svnAdvance_answers⟩

end

/-! PROOF. The guard's SPDM responder: negotiation, certificates, measurements, chunks, vendor messages and sessions. -/

section

namespace Sys2Proof.Machine

open Sys2Proof

/-! ## Connections and what is sent -/

/-- The connection of a transport after a change of it. -/
theorem spdmOf_modSpdm (s : State) (doe : Bool) (f : Spdm → Spdm) (hf : (f (s.spdmOf doe)).doe = doe) : (s.modSpdm doe f).spdmOf doe = f (s.spdmOf doe) := by
  have hnone : (s.grd.spdm.filter fun x => x.doe != doe).find? (fun x => x.doe == doe) = none := by
    rw [List.find?_eq_none]
    intro x hx
    have := (List.mem_filter.mp hx).2
    simpa using this
  unfold State.modSpdm State.spdmOf
  dsimp only
  rw [List.find?_append, hnone]
  unfold State.spdmOf at hf
  simp [hf]

theorem spdmOf_doe (s : State) (doe : Bool) : (s.spdmOf doe).doe = doe := by
  unfold State.spdmOf
  cases h : s.grd.spdm.find? fun x => x.doe == doe with
  | none => rfl
  | some x => simpa using List.find?_some h

theorem spdmOf_setTaken (s : State) (doe : Bool) (x : List Byte) :
    ((s.modSpdm doe fun c => { c with taken := x }).spdmOf doe).taken = x :=
  congrArg Spdm.taken (spdmOf_modSpdm s doe (fun c => { c with taken := x }) (spdmOf_doe s doe))

/-- What sending a response leaves: the connection but for what waits in chunks, and everything besides the connections and what leaves
the package. -/
theorem spdmSend_does (s : State) (m : SpdmMsg) (r : List Byte) : let t := s.spdmSend m r
    (∃ g o, t = { s with grd := { s.grd with spdm := g }, out := o }) ∧ (t.spdmOf m.doe).phase = (s.spdmOf m.doe).phase ∧
      (t.spdmOf m.doe).taken = (s.spdmOf m.doe).taken := by
  dsimp only
  unfold State.spdmSend State.spdmOut
  split
  · exact ⟨⟨_, _, rfl⟩, rfl, rfl⟩
  · have h : ∀ x, ((s.modSpdm m.doe fun x => { x with left := r }).emit x).spdmOf m.doe = { s.spdmOf m.doe with left := r } := fun x =>
      spdmOf_modSpdm s m.doe (fun x => { x with left := r }) (spdmOf_doe s m.doe)
    rw [h]
    exact ⟨⟨_, _, rfl⟩, rfl, rfl⟩

/-- What a response leaves of the state besides its connection. -/
theorem spdmSend_frame (s : State) (m : SpdmMsg) (r : List Byte) : (s.spdmSend m r).regs = s.regs ∧ (s.spdmSend m r).mem = s.mem ∧
    (s.spdmSend m r).freeCtr = s.freeCtr ∧ (s.spdmSend m r).grd.sess = s.grd.sess ∧ (s.spdmSend m r).hst = s.hst ∧ (s.spdmSend m r).part = s.part := by
  obtain ⟨g, o, e⟩ := (spdmSend_does s m r).1
  rw [e]
  exact ⟨rfl, rfl, rfl, rfl, rfl, rfl⟩

/-! ## A request that the guard hears -/

/-- What a request that may come now is answered with, by its code. -/
def State.spdmArm (s : State) (m : SpdmMsg) (code : Nat) : List Byte × State :=
  let v := leAt m.bytes 0 1
  match code, m.session with
  | 0x84, _ => s.getVersion m.doe
  | 0xE1, _ => s.getCapabilities m.doe v
  | 0xE3, _ => s.negotiate m.doe v
  | 0x81, _ => (spdmHead v 0x01 0 1 ++ sha384 s.certs, s)
  | 0x82, _ => s.getCertificate v m.bytes
  | 0x83, _ => s.challenge v m.bytes
  | 0xE0, _ => s.getMeasurements v m.bytes
  | 0xE4, _ => s.keyExchange m.doe v m.bytes
  | 0xE5, some i => s.finish v i m.bytes
  | 0xE9, _ => (spdmHead v 0x69 (leAt m.bytes 2 1) (leAt m.bytes 3 1), s)
  | 0xE8, _ => (spdmHead v 0x68 0 0, s)
  | 0xEC, some i => s.endSession v i
  | 0xFE, _ => s.vendorServe m.doe m.session v m.bytes
  | _, _ => (spdmError v 7 code, s)

/-- When a request of a code may come: the negotiation is far enough, and it is in a session where it must be and in none where it must not. -/
structure SpdmMay (s : State) (m : SpdmMsg) (code : Nat) : Prop where
  up      : s.tripped = false
  reach   : s.spdmReach m = true
  isCode  : leAt m.bytes 1 1 = code
  version : spdmVersion m.bytes = true
  phase   : spdmNeeds code ≤ (s.spdmOf m.doe).phase
  opens   : spdmOpens code = true → m.session = none
  inner   : spdmInner code = true → m.session.isSome = true
  session : code ≠ 0xE5 → ∀ i, m.session = some i → s.sessUp i = true

theorem SpdmHears.may {s : State} {m : SpdmMsg} {code steps : Nat} (h : SpdmHears s m code steps) (hneeds : spdmNeeds code ≤ steps)
    (hopens : spdmOpens code = false ∨ m.session = none) (hinner : spdmInner code = false ∨ m.session.isSome = true) : SpdmMay s m code :=
  ⟨h.up, h.reach, h.code, h.version, hneeds.trans h.phase, fun ho => hopens.resolve_left (by simp [ho]), fun hi => hinner.resolve_left (by simp [hi]),
    fun _ => h.session⟩

theorem spdmCore_arm {s : State} {m : SpdmMsg} {code : Nat} (h : SpdmMay s m code) : s.spdmCore m.doe m.session m.bytes = s.spdmArm m code := by
  have hopens : (spdmOpens code && m.session.isSome) = false := by
    cases ho : spdmOpens code with
    | false => rfl
    | true => rw [h.opens ho]; rfl
  have hinner : (spdmInner code && m.session.isNone) = false := by
    cases hi : spdmInner code with
    | false => rfl
    | true => rw [Option.isNone_eq_false_iff.mpr (h.inner hi)]; rfl
  have hsess : ¬ ((decide (code ≠ 0xE5) && (match m.session with | some i => !s.sessUp i | none => false)) = true) := by
    rw [Bool.and_eq_true, decide_eq_true_eq]
    rintro ⟨hne, hup⟩
    cases hs : m.session with
    | none => rw [hs] at hup; exact absurd hup (by simp)
    | some i => rw [hs] at hup; simp [h.session hne i hs] at hup
  have hphase : ¬ ((decide ((s.spdmOf m.doe).phase < spdmNeeds code) || spdmOpens code && m.session.isSome || spdmInner code && m.session.isNone) = true) := by
    rw [hopens, hinner]
    simpa using h.phase
  unfold State.spdmCore
  dsimp only
  rw [h.version, if_neg (by decide), h.isCode, if_neg hphase]
  exact (if_neg hsess).trans rfl

/-- A request that may come is answered with what its code says. -/
theorem spdmMsg_answers {s : State} {m : SpdmMsg} {code : Nat} (h : SpdmMay s m code) (h5 : code ≠ 0x85) (h6 : code ≠ 0x86) :
    s.spdmMsg m code = .next ((s.spdmArm m code).2.spdmSend m (s.spdmArm m code).1) := by
  unfold State.spdmMsg
  rw [live_eq h.up, if_pos (by rw [h.reach, decide_eq_true h.isCode]; rfl)]
  unfold State.spdmServe
  rw [h.isCode]
  dsimp only
  split
  · exact absurd rfl h6
  · rw [if_pos h5, spdmCore_arm h]
    rfl

/-- The state that a request leaves and what it is answered with. -/
theorem spdmMsg_next {s : State} {m : SpdmMsg} {code : Nat} (h : SpdmMay s m code) (h5 : code ≠ 0x85) (h6 : code ≠ 0x86) {r : List Byte} {u : State}
    (harm : s.spdmArm m code = (r, u)) : s.spdmMsg m code = .next (u.spdmSend m r) := by
  rw [spdmMsg_answers h h5 h6, harm]

/-! ## Negotiation and certificates -/

section connection

variable {s : State} {m : SpdmMsg}

theorem getVersion_answers (h : SpdmHears s m 0x84 0) (hs : m.session = none) :
    exec (.getVersion m) s = .next ((s.modSpdm m.doe fun _ => ⟨m.doe, 1, [], []⟩).spdmSend m [0x10, 0x04, 0, 0, 0, 2, 0x00, 0x12, 0x00, 0x13]) :=
  spdmMsg_next (h.may (by decide) (.inr hs) (.inl rfl)) (by decide) (by decide) rfl

/-- A step of the negotiation that uses free bytes. -/
theorem spdmPhase_does (s : State) (m : SpdmMsg) (n k : Nat) (r : List Byte) :
    let t := ((s.freeBytes n).2.modSpdm m.doe fun c => { c with phase := k }).spdmSend m r
    (t.spdmOf m.doe).phase = k ∧ t.freeCtr = s.freeCtr + 1 ∧ t.regs = s.regs ∧ t.mem = s.mem := by
  dsimp only
  obtain ⟨hregs, hmem, hctr, -⟩ := spdmSend_frame ((s.freeBytes n).2.modSpdm m.doe fun c => { c with phase := k }) m r
  rw [(spdmSend_does _ m r).2.1, spdmOf_modSpdm _ m.doe (fun c => { c with phase := k }) (spdmOf_doe _ m.doe), hregs, hmem, hctr]
  exact ⟨rfl, rfl, rfl, rfl⟩

theorem getCapabilities_does (h : SpdmHears s m 0xE1 1) (hs : m.session = none) : Does (.getCapabilities m) s fun t =>
    (t.spdmOf m.doe).phase = 2 ∧ t.freeCtr = s.freeCtr + 1 ∧ t.regs = s.regs ∧ t.mem = s.mem :=
  ⟨_, spdmMsg_next (h.may (by decide) (.inr hs) (.inl rfl)) (by decide) (by decide) rfl, spdmPhase_does s m 16 2 _⟩

theorem negotiateAlgorithms_does (h : SpdmHears s m 0xE3 2) (hs : m.session = none) : Does (.negotiateAlgorithms m) s fun t =>
    (t.spdmOf m.doe).phase = 3 ∧ t.freeCtr = s.freeCtr + 1 ∧ t.regs = s.regs ∧ t.mem = s.mem :=
  ⟨_, spdmMsg_next (h.may (by decide) (.inr hs) (.inl rfl)) (by decide) (by decide) rfl, spdmPhase_does s m 48 3 _⟩

theorem getDigests_answers (h : SpdmHears s m 0x81 3) :
    exec (.getDigests m) s = .next (s.spdmSend m (spdmHead (leAt m.bytes 0 1) 0x01 0 1 ++ sha384 s.certs)) :=
  spdmMsg_next (h.may (by decide) (.inl rfl) (.inl rfl)) (by decide) (by decide) rfl

theorem getCertificate_answers (h : SpdmHears s m 0x82 3) (hslot : leAt m.bytes 2 1 % 16 = 0) :
    exec (.getCertificate m) s = .next (s.spdmSend m (if s.certs.length < leAt m.bytes 4 2 then spdmError (leAt m.bytes 0 1) 1 0
      else spdmHead (leAt m.bytes 0 1) 0x02 0 0 ++ natLe 2 ((s.certs.drop (leAt m.bytes 4 2)).take (leAt m.bytes 6 2)).length ++
        natLe 2 (s.certs.length - leAt m.bytes 4 2 - ((s.certs.drop (leAt m.bytes 4 2)).take (leAt m.bytes 6 2)).length) ++
        (s.certs.drop (leAt m.bytes 4 2)).take (leAt m.bytes 6 2))) := by
  have harm : s.spdmArm m 0x82 = s.getCertificate (leAt m.bytes 0 1) m.bytes := rfl
  unfold State.getCertificate at harm
  dsimp only at harm
  rw [hslot] at harm
  refine spdmMsg_next (h.may (by decide) (.inl rfl) (.inl rfl)) (by decide) (by decide) (harm.trans ?_)
  by_cases hoff : s.certs.length < leAt m.bytes 4 2
  · rw [if_pos (by simp [hoff]), if_pos hoff]
  · rw [if_neg (by simp; omega), if_neg hoff]

/-- A nonce, a summary where asked and a signature, all of them free bytes. -/
theorem challenge_answers (h : SpdmHears s m 0x83 3) (hslot : leAt m.bytes 2 1 % 16 = 0) :
    ∃ x : List Byte, x.length = 130 + (if leAt m.bytes 3 1 = 0 then 0 else 48) ∧
      exec (.challenge m) s = .next ({ s with freeCtr := s.freeCtr + 1 }.spdmSend m (spdmHead (leAt m.bytes 0 1) 0x03 0 1 ++ sha384 s.certs ++ x)) := by
  have harm : s.spdmArm m 0x83 = s.challenge (leAt m.bytes 0 1) m.bytes := rfl
  unfold State.challenge at harm
  rw [hslot, if_neg (by decide)] at harm
  refine ⟨(s.freeBytes (32 + (if leAt m.bytes 3 1 = 0 then 0 else 48) + 2 + 96)).1, ?_,
    spdmMsg_next (h.may (by decide) (.inl rfl) (.inl rfl)) (by decide) (by decide) (harm.trans rfl)⟩
  simp only [State.freeBytes, List.length_map, List.length_range]
  omega

/-! ## Measurements -/

/-- What GET_MEASUREMENTS names. -/
def measNamed (op : Nat) : List Nat := if op = 0xFF then [1, 2, 3, 4, 5, 6] else if op = 0 then [] else [op]

theorem getMeasurements_unsigned (h : SpdmHears s m 0xE0 3) (hsign : bit (leAt m.bytes 2 1) 0 = false) {op : Nat} (hop : leAt m.bytes 3 1 = op)
    (hknown : ¬ (6 < op ∧ op ≠ 0xFF)) {body : List Byte}
    (hbody : (measNamed op).foldl (fun (x : List Byte × State) i => ((x.1 ++ (x.2.dmtfBlock i).1), (x.2.dmtfBlock i).2)) ([], s) = (body, s)) :
    ∃ x : List Byte, x.length = 34 ∧ exec (.getMeasurements m) s = .next ({ s with freeCtr := s.freeCtr + 1 }.spdmSend m
      (spdmHead (leAt m.bytes 0 1) 0x60 (if op = 0 then 6 else 0) 0 ++ natLe 1 (measNamed op).length ++ natLe 3 body.length ++ body ++ x)) := by
  have harm : s.spdmArm m 0xE0 = s.getMeasurements (leAt m.bytes 0 1) m.bytes := rfl
  unfold State.getMeasurements at harm
  dsimp only at harm
  rw [hop, hsign, if_neg (by simpa using hknown)] at harm
  refine ⟨(s.freeBytes 34).1, by simp [State.freeBytes],
    spdmMsg_next (h.may (by decide) (.inl rfl) (.inl rfl)) (by decide) (by decide) (harm.trans ?_)⟩
  unfold measNamed at hbody ⊢
  rw [hbody]
  rfl

theorem getMeasurements_answers (h : SpdmHears s m 0xE0 3) (hsign : bit (leAt m.bytes 2 1) 0 = false) :
    (leAt m.bytes 3 1 = 0 → ∃ x : List Byte, x.length = 34 ∧
      exec (.getMeasurements m) s = .next ({ s with freeCtr := s.freeCtr + 1 }.spdmSend m (spdmHead (leAt m.bytes 0 1) 0x60 6 0 ++ natLe 4 0 ++ x))) ∧
    (∀ i, leAt m.bytes 3 1 = i → i = 1 ∨ i = 2 → ∃ x : List Byte, x.length = 34 ∧
      exec (.getMeasurements m) s = .next ({ s with freeCtr := s.freeCtr + 1 }.spdmSend m (spdmHead (leAt m.bytes 0 1) 0x60 0 0 ++ natLe 1 1 ++
        natLe 3 ((s.measBlock i).length + 7) ++ (natLe 1 i ++ natLe 1 1 ++ natLe 2 ((s.measBlock i).length + 3) ++ natLe 1 (i - 1) ++
          natLe 2 (s.measBlock i).length ++ s.measBlock i) ++ x))) ∧
    (6 < leAt m.bytes 3 1 → leAt m.bytes 3 1 ≠ 0xFF → exec (.getMeasurements m) s = .next (s.spdmSend m (spdmError (leAt m.bytes 0 1) 1 0))) := by
  refine ⟨fun hop => getMeasurements_unsigned h hsign hop (by decide) (body := []) rfl, fun i hop hi => ?_, fun h6 hff => ?_⟩
  · have hblock : s.dmtfBlock i = (natLe 1 i ++ natLe 1 1 ++ natLe 2 ((s.measBlock i).length + 3) ++ natLe 1 (i - 1) ++
        natLe 2 (s.measBlock i).length ++ s.measBlock i, s) := by
      unfold State.dmtfBlock
      rw [if_pos (by omega)]
    have hnamed : measNamed i = [i] := by
      unfold measNamed
      rw [if_neg (by omega), if_neg (by omega)]
    have hlen : (s.dmtfBlock i).1.length = (s.measBlock i).length + 7 := by
      rw [hblock]
      simp only [List.length_append, length_natLe]
      omega
    obtain ⟨x, hx, hexec⟩ := getMeasurements_unsigned h hsign hop (by omega) (body := (s.dmtfBlock i).1) (by rw [hnamed]; exact Prod.ext rfl (congrArg (fun y => y.2) hblock))
    refine ⟨x, hx, ?_⟩
    rw [hexec, hlen, hblock, hnamed, if_neg (by omega)]
    rfl
  · have harm : s.spdmArm m 0xE0 = s.getMeasurements (leAt m.bytes 0 1) m.bytes := rfl
    unfold State.getMeasurements at harm
    exact spdmMsg_next (h.may (by decide) (.inl rfl) (.inl rfl)) (by decide) (by decide) (harm.trans (if_pos (by simp [h6, hff])))

/-! ## Chunks -/

theorem chunkSend_does (h : SpdmHears s m 0x85 3) (hlast : bit (leAt m.bytes 2 1) 0 = false) : Does (.chunkSend m) s fun t =>
    (t.spdmOf m.doe).taken = (if leAt m.bytes 4 2 = 0 then (m.bytes.drop 16).take (leAt m.bytes 8 4)
      else (s.spdmOf m.doe).taken ++ (m.bytes.drop 12).take (leAt m.bytes 8 4)) ∧ t.regs = s.regs := by
  have hserve : s.spdmServe m.doe m.session m.bytes = (s.chunkSend m.doe m.session m.bytes).2.spdmSend m (s.chunkSend m.doe m.session m.bytes).1 := by
    unfold State.spdmServe
    rw [h.code, decide_eq_true h.phase]
    rfl
  have hexec : exec (.chunkSend m) s = .next (s.spdmServe m.doe m.session m.bytes) := by
    refine (live_eq h.up).trans (congrArg _ (if_pos ?_))
    rw [h.reach, decide_eq_true h.code]
    rfl
  have hsend : (s.chunkSend m.doe m.session m.bytes).2 = s.modSpdm m.doe fun c => { c with
      taken := (if leAt m.bytes 4 2 = 0 then [] else (s.spdmOf m.doe).taken) ++ (m.bytes.drop (if leAt m.bytes 4 2 = 0 then 16 else 12)).take (leAt m.bytes 8 4) } := by
    unfold State.chunkSend
    dsimp only
    rw [hlast]
    rfl
  refine ⟨_, hexec.trans (congrArg _ hserve), ?_, (spdmSend_frame _ _ _).1.trans (by rw [hsend]; rfl)⟩
  rw [(spdmSend_does _ _ _).2.2, hsend, spdmOf_setTaken]
  split
  · rfl
  · rfl

theorem chunkGet_does (h : SpdmHears s m 0x86 3) (hleft : (s.spdmOf m.doe).left ≠ []) : Does (.chunkGet m) s fun t =>
    (t.spdmOf m.doe).left = (s.spdmOf m.doe).left.drop (Nat.max 1 Config.spdmMax) ∧ t.out.length = s.out.length + 1 ∧ t.regs = s.regs := by
  have hserve : s.spdmServe m.doe m.session m.bytes = (s.chunkGet m.doe m.bytes).2.spdmOut m.doe m.session (s.chunkGet m.doe m.bytes).1 := by
    unfold State.spdmServe
    rw [h.code, decide_eq_true h.phase]
    rfl
  have hexec : exec (.chunkGet m) s = .next (s.spdmServe m.doe m.session m.bytes) := by
    refine (live_eq h.up).trans (congrArg _ (if_pos ?_))
    rw [h.reach, decide_eq_true h.code]
    rfl
  have hget : (s.chunkGet m.doe m.bytes).2 = s.modSpdm m.doe fun c => { c with left := (s.spdmOf m.doe).left.drop (Nat.max 1 Config.spdmMax) } := by
    unfold State.chunkGet
    dsimp only
    rw [if_neg (by simpa using hleft)]
  refine ⟨_, hexec.trans (congrArg _ hserve), ?_⟩
  rw [hget]
  refine ⟨?_, by simp [State.spdmOut, State.emit, State.modSpdm], rfl⟩
  exact congrArg Spdm.left (spdmOf_modSpdm s m.doe (fun c => { c with left := (s.spdmOf m.doe).left.drop (Nat.max 1 Config.spdmMax) }) (spdmOf_doe s m.doe))

/-! ## Vendor messages -/

theorem vendor_answers (h : SpdmHears s m 0xFE 3) (hstd : leAt m.bytes 4 2 ≠ 3) :
    (leAt (vendorLoad m.bytes) 0 1 = 1 → ∀ c, c = .getLog m ∨ c = .vendorDefinedRequest m →
      exec c s = .next (s.spdmSend m (vendorHead (leAt m.bytes 0 1) m.bytes ((vendorLoad m.bytes).take 1 ++ s.measLog.entries.flatten)))) ∧
    (∀ i, m.session = some i → leAt (vendorLoad m.bytes) 0 1 = 4 →
      exec (.vendorDefinedRequest m) s = .next ((s.guardServe (.ses i) ((vendorLoad m.bytes).drop 1)).spdmSend m
        (vendorHead (leAt m.bytes 0 1) m.bytes ((vendorLoad m.bytes).take 1)))) := by
  have hmay := h.may (by decide) (.inl rfl) (.inl rfl)
  have harm : s.spdmArm m 0xFE = s.vendorServe m.doe m.session (leAt m.bytes 0 1) m.bytes := rfl
  unfold State.vendorServe at harm
  dsimp only at harm
  rw [if_neg hstd] at harm
  refine ⟨fun h1 c hc => ?_, fun i hi h4 => ?_⟩
  · rw [h1] at harm
    have hmsg := spdmMsg_next hmay (by decide) (by decide) harm
    rcases hc with rfl | rfl
    · exact (if_pos h1).trans hmsg
    · exact hmsg
  · rw [h4, hi] at harm
    exact spdmMsg_next hmay (by decide) (by decide) harm

/-! ## Sessions -/

theorem setSess_sess (s : State) (l : List Sess) : (s.setSess l).grd.sess = l := rfl

/-- GRD_STATUS.SESSIONS counts the sessions that are up. -/
theorem setSess_count (s : State) (l : List Sess) : (s.setSess l).rf 0 Reg.grdStatus 6 3 = (l.filter fun x => x.up).length % 8 :=
  State.rf_setRf_same { s with grd := { s.grd with sess := l } } 0 Reg.grdStatus 6 3 _ (by decide)

/-- Sessions that a request sets stay as its answer is sent, and SESSIONS counts those that are up. -/
theorem setSess_sent (s : State) (l : List Sess) (m : SpdmMsg) (r : List Byte) : let t := (s.setSess l).spdmSend m r
    t.grd.sess = l ∧ t.rf 0 Reg.grdStatus 6 3 = (t.grd.sess.filter fun x => x.up).length % 8 ∧ t.mem = s.mem ∧ t.hst = s.hst ∧ t.freeCtr = s.freeCtr := by
  obtain ⟨hregs, hmem, hctr, hsess, hhst, hpart⟩ := spdmSend_frame (s.setSess l) m r
  have hrf : ((s.setSess l).spdmSend m r).rf 0 Reg.grdStatus 6 3 = (s.setSess l).rf 0 Reg.grdStatus 6 3 :=
    congrArg (fld · 6 3) (State.regN_congr hregs hpart 0 Reg.grdStatus)
  refine ⟨hsess, ?_, hmem, hhst, hctr⟩
  rw [hrf, hsess, setSess_count, setSess_sess]

theorem keyExchange_does (h : SpdmHears s m 0xE4 3) (hs : m.session = none) (hsum : leAt m.bytes 3 1 = 0) :
    (∀ i, ((List.range 4).find? fun i => (s.sessOf i).isNone) = some i → Does (.keyExchange m) s fun t =>
      t.grd.sess = s.grd.sess ++ [⟨i, m.doe, false⟩] ∧ t.freeCtr = s.freeCtr + 1 ∧ t.mem = s.mem) ∧
    (((List.range 4).find? fun i => (s.sessOf i).isNone) = none →
      exec (.keyExchange m) s = .next (s.spdmSend m (spdmError (leAt m.bytes 0 1) 0x0A 0))) := by
  have hmay := h.may (by decide) (.inr hs) (.inl rfl)
  have harm : s.spdmArm m 0xE4 = s.keyExchange m.doe (leAt m.bytes 0 1) m.bytes := rfl
  unfold State.keyExchange at harm
  rw [hsum, if_neg (by decide)] at harm
  refine ⟨fun i hi => ?_, fun hnone => ?_⟩
  · rw [hi] at harm
    obtain ⟨hsess, -, hmem, -, hctr⟩ := setSess_sent (s.freeBytes 276).2 (s.grd.sess ++ [⟨i, m.doe, false⟩]) m
      (spdmHead (leAt m.bytes 0 1) 0x64 0 0 ++ natLe 2 i ++ (s.freeBytes 276).1)
    exact ⟨_, spdmMsg_next hmay (by decide) (by decide) harm, hsess, hctr, hmem⟩
  · rw [hnone] at harm
    exact spdmMsg_next hmay (by decide) (by decide) harm

theorem finish_does {i : Nat} (hs : s.tripped = false) (hreach : s.spdmReach m = true) (hcode : leAt m.bytes 1 1 = 0xE5)
    (hversion : spdmVersion m.bytes = true) (hphase : 3 ≤ (s.spdmOf m.doe).phase) (hsess : m.session = some i) (hup : s.sessUp i = false) :
    Does (.finish m) s fun t =>
      t.grd.sess = (if Config.finishOk i m.bytes = true then s.grd.sess.map (fun (x : Sess) => if x.id = i then { x with up := true } else x)
        else s.grd.sess.filter fun x => x.id != i) ∧
      t.rf 0 Reg.grdStatus 6 3 = (t.grd.sess.filter fun x => x.up).length % 8 ∧ t.mem = s.mem := by
  have hmay : SpdmMay s m 0xE5 := ⟨hs, hreach, hcode, hversion, hphase, fun h => absurd h (by decide), fun _ => by rw [hsess]; rfl, fun h => absurd rfl h⟩
  have harm : s.spdmArm m 0xE5 = s.finish (leAt m.bytes 0 1) i m.bytes := by
    unfold State.spdmArm
    rw [hsess]
    rfl
  unfold State.finish at harm
  rw [hup, if_neg (by decide)] at harm
  by_cases hok : Config.finishOk i m.bytes = true
  · rw [hok, if_neg (by decide)] at harm
    obtain ⟨h1, h2, h3, -⟩ := setSess_sent s (s.grd.sess.map fun (x : Sess) => if x.id = i then { x with up := true } else x) m (spdmHead (leAt m.bytes 0 1) 0x65 0 0)
    exact ⟨_, spdmMsg_next hmay (by decide) (by decide) harm, h1.trans (if_pos hok).symm, h2, h3⟩
  · rw [Bool.eq_false_of_not_eq_true hok, if_pos (by decide)] at harm
    obtain ⟨h1, h2, h3, -⟩ := setSess_sent s (s.grd.sess.filter fun x => x.id != i) m (spdmError (leAt m.bytes 0 1) 6 0)
    exact ⟨_, spdmMsg_next hmay (by decide) (by decide) harm, h1.trans (if_neg hok).symm, h2, h3⟩

theorem keyUpdate_answers {i : Nat} (hs : m.session = some i) (h : SpdmHears s m 0xE9 3) :
    exec (.keyUpdate m) s = .next (s.spdmSend m (spdmHead (leAt m.bytes 0 1) 0x69 (leAt m.bytes 2 1) (leAt m.bytes 3 1))) :=
  spdmMsg_next (h.may (by decide) (.inl rfl) (.inr (by rw [hs]; rfl))) (by decide) (by decide) rfl

theorem heartbeat_answers {i : Nat} (hs : m.session = some i) (h : SpdmHears s m 0xE8 3) :
    exec (.heartbeat m) s = .next (s.spdmSend m (spdmHead (leAt m.bytes 0 1) 0x68 0 0)) :=
  spdmMsg_next (h.may (by decide) (.inl rfl) (.inr (by rw [hs]; rfl))) (by decide) (by decide) rfl

theorem endSession_does {i : Nat} (hs : m.session = some i) (h : SpdmHears s m 0xEC 3) : Does (.endSession m) s fun t =>
    t.grd.sess = s.grd.sess.filter (fun x => x.id != i) ∧ s.hst.tdi = t.hst.tdi ∧ t.hst.ide = s.hst.ide ∧
      t.rf 0 Reg.grdStatus 6 3 = (t.grd.sess.filter fun x => x.up).length % 8 ∧ t.mem = s.mem := by
  have harm : s.spdmArm m 0xEC = s.endSession (leAt m.bytes 0 1) i := by
    unfold State.spdmArm
    rw [hs]
    rfl
  obtain ⟨h1, h2, h3, h4, -⟩ := setSess_sent s (s.grd.sess.filter fun x => x.id != i) m (spdmHead (leAt m.bytes 0 1) 0x6C 0 0)
  exact ⟨_, spdmMsg_next (h.may (by decide) (.inl rfl) (.inr (by rw [hs]; rfl))) (by decide) (by decide) harm, h1, congrArg Hst.tdi h4.symm, congrArg Hst.ide h4, h2, h3⟩

end connection

end Sys2Proof.Machine

open Sys2Proof Sys2Proof.Machine

/-- Settles O37: each request of a connection that may come now is answered with what its code says. -/
theorem spdmConnection : Obligations.SpdmConnection := fun _ _ =>
  ⟨getVersion_answers, getCapabilities_does, negotiateAlgorithms_does, getDigests_answers, getCertificate_answers, challenge_answers,
    getMeasurements_answers, chunkSend_does, chunkGet_does, vendor_answers⟩

/-- Settles O38: KEY_EXCHANGE opens the least free session, FINISH opens or ends it, and END_SESSION ends it. -/
theorem spdmSessions : Obligations.SpdmSessions := fun _ _ =>
  ⟨keyExchange_does, fun _ => finish_does, fun _ hs => ⟨keyUpdate_answers hs, heartbeat_answers hs, endSession_does hs⟩⟩

end

/-! PROOF. What running work leaves of the state: the registers and counters of the RAS block, of the mesh and of the host link, the
views of the package, and the steps by which work ends, is lost and is told to others. -/

section

namespace Sys2Proof.Machine

open Sys2Proof

/-- A register that running work does not write: none of the event queues, RAS_STATUS or GRD_STATUS. -/
abbrev CalmReg (o : Nat) : Prop := QuietReg o ∧ o ≠ Reg.rasStatus ∧ o ≠ Reg.grdStatus

/-- A counter that running work does not count: those from the RAS block on, but for ROUTE_DROPS. -/
abbrev CalmCtr (o : Nat) : Prop := 0x170000 ≤ o ∧ o < 2 ^ 24 ∧ o ≠ Reg.rasCntLo 7

/-- `t` is `s` with work gone on: descriptors, collectives, commit domains, memory, the queues of the ports, events and messages may differ. -/
structure Calm (s t : State) : Prop where
  part     : t.part = s.part
  torus    : t.torus = s.torus
  disc     : t.disc = s.disc
  rst      : t.rst = s.rst
  refCount : t.refCount = s.refCount
  tripped  : t.tripped = s.tripped
  ras      : t.ras = { s.ras with degraded := t.ras.degraded, merged := t.ras.merged }
  reg      : ∀ d o, CalmReg o → t.reg d o = s.reg d o
  ctr      : ∀ d o, CalmCtr o → t.ctr d o = s.ctr d o

namespace Calm

variable {s t u : State}

theorem refl (s : State) : Calm s s := ⟨rfl, rfl, rfl, rfl, rfl, rfl, rfl, fun _ _ _ => rfl, fun _ _ _ => rfl⟩

theorem trans (h : Calm s t) (g : Calm t u) : Calm s u where
  part := g.part.trans h.part
  torus := g.torus.trans h.torus
  disc := g.disc.trans h.disc
  rst := g.rst.trans h.rst
  refCount := g.refCount.trans h.refCount
  tripped := g.tripped.trans h.tripped
  ras := by
    have e := g.ras
    rw [h.ras] at e
    exact e
  reg d o ho := (g.reg d o ho).trans (h.reg d o ho)
  ctr d o ho := (g.ctr d o ho).trans (h.ctr d o ho)

theorem of_posts (h : Posts s t) : Calm s t where
  part := h.part
  torus := h.torus
  disc := h.disc
  rst := h.rst
  refCount := h.refCount
  tripped := h.tripped
  ras := by rw [h.ras]
  reg d o ho := h.reg d o ho.1
  ctr d o ho := h.ctr d o ⟨ho.2.1, .inr (by omega), by unfold Reg.ringCntLo; omega, by unfold Reg.ringCntLo; omega⟩

theorem foldl {α : Type} {f : State → α → State} (l : List α) (hf : ∀ t, ∀ a ∈ l, Calm t (f t a)) (s : State) : Calm s (l.foldl f s) :=
  List.foldlRecOn (motive := Calm s) l f (refl s) fun t ht a ha => ht.trans (hf t a ha)

theorem ite {c : Prop} [Decidable c] (h : Calm s t) (g : Calm s u) : Calm s (if c then t else u) := by
  split
  · exact h
  · exact g

/-! ## Reads -/

theorem regN (h : Calm s t) (d : Nat) {o : Nat} (ho : CalmReg o) : t.regN d o = s.regN d o := by rw [State.regN, h.reg d o ho, State.regN]
theorem rbit (h : Calm s t) (d : Nat) {o : Nat} (ho : CalmReg o) (i : Nat) : t.rbit d o i = s.rbit d o i := by rw [State.rbit, h.regN d ho, State.rbit]
theorem rf (h : Calm s t) (d : Nat) {o : Nat} (ho : CalmReg o) (lo len : Nat) : t.rf d o lo len = s.rf d o lo len := by
  rw [State.rf, h.regN d ho, State.rf]

theorem unitState (h : Calm s t) (d : Nat) {u : Nat} (hu : u ≤ 0x0F) : t.unitState d u = s.unitState d u :=
  h.rf d (by unfold CalmReg QuietReg Reg.rasUnit Reg.rasStatus Reg.grdStatus; omega) 0 2

theorem unitOut (h : Calm s t) (d : Nat) {u : Nat} (hu : u ≤ 0x0F) : t.unitOut d u = s.unitOut d u := by
  rw [State.unitOut, h.unitState d hu, State.unitOut]

theorem dieOut (h : Calm s t) (d : Nat) : t.dieOut d = s.dieOut d := h.unitOut d le_rfl

theorem portUp (h : Calm s t) (d : Nat) : t.portUp d = s.portUp d := h.rbit d (by decide) 0

/-! ## Parts of the state that work changes -/

theorem grd (s : State) (g : Grd) : Calm s { s with grd := g } := ⟨rfl, rfl, rfl, rfl, rfl, rfl, rfl, fun _ _ _ => rfl, fun _ _ _ => rfl⟩
theorem groups (s : State) (l : List Group) : Calm s { s with groups := l } := ⟨rfl, rfl, rfl, rfl, rfl, rfl, rfl, fun _ _ _ => rfl, fun _ _ _ => rfl⟩
theorem whl (s : State) (w : Whl) : Calm s { s with whl := w } := ⟨rfl, rfl, rfl, rfl, rfl, rfl, rfl, fun _ _ _ => rfl, fun _ _ _ => rfl⟩
theorem xfers (s : State) (l : List Xfer) : Calm s { s with xfers := l } := ⟨rfl, rfl, rfl, rfl, rfl, rfl, rfl, fun _ _ _ => rfl, fun _ _ _ => rfl⟩

/-! ## Memory, events and counters -/

theorem write (s : State) (a : Nat) (bs : List Byte) (tag : Bool) : Calm s (s.write a bs tag) := of_posts (.write s a bs tag)

theorem fresh (s : State) : Calm s s.fresh.2 := ⟨rfl, rfl, rfl, rfl, rfl, rfl, rfl, fun _ _ _ => rfl, fun _ _ _ => rfl⟩

theorem scramble (s : State) (a len : Nat) : Calm s (s.scramble a len) := (fresh s).trans (write s.fresh.2 a _ false)

theorem wipe (s : State) (a len : Nat) : Calm s (s.wipe a len) := ⟨rfl, rfl, rfl, rfl, rfl, rfl, rfl, fun _ _ _ => rfl, fun _ _ _ => rfl⟩

theorem event (s : State) {p : Nat} (hp : p < 16) (code d src : Nat) (payload : List Byte) : Calm s (s.event p code d src payload) :=
  of_posts (.event s hp code d src payload)

theorem eventAll (s : State) (code d src : Nat) (payload : List Byte) : Calm s (s.eventAll code d src payload) := of_posts (.eventAll s code d src payload)

theorem bump (s : State) (d : Nat) {off : Nat} (h : off < 0x170000 ∨ off = Reg.rasCntLo 7) (n : Nat) : Calm s (s.bump d off n) := by
  refine ⟨rfl, rfl, rfl, rfl, rfl, rfl, rfl, fun _ _ _ => rfl, fun e o ho => State.ctr_bump_other _ _ _ _ _ _ (State.regKey_ne ho.2.1 ?_ (.inr ?_))⟩
  · unfold Reg.rasCntLo at h
    omega
  · obtain ⟨hlo, -, hne⟩ := ho
    rcases h with h | h
    · omega
    · rw [h]
      exact hne

theorem rasStatus (s : State) (d i : Nat) (b : Bool) : Calm s (s.setRbit d Reg.rasStatus i b) :=
  ⟨rfl, rfl, rfl, rfl, rfl, rfl, rfl, fun _ _ ho => State.reg_setReg_other _ _ _ _ _ _ (State.regKey_ne ho.1.1 (by decide) (.inr ho.2.1)), fun _ _ _ => rfl⟩

theorem setAlert (s : State) (i : Nat) (b : Bool) : Calm s (s.setAlert i b) := by
  have h : Calm s (s.setRbit 0 Reg.grdStatus i b) := ⟨rfl, rfl, rfl, rfl, rfl, rfl, rfl,
    fun _ _ ho => State.reg_setReg_other _ _ _ _ _ _ (State.regKey_ne ho.1.1 (by decide) (.inr ho.2.2)), fun _ _ _ => rfl⟩
  exact ite h ⟨h.part, h.torus, h.disc, h.rst, h.refCount, h.tripped, h.ras, h.reg, h.ctr⟩

/-- A DEGRADED event; its partition is named where the resource is an engine's kind. -/
theorem degrade (s : State) (d : Nat) {res b7 : Nat} (h : res = 4 → b7 < 16) (b6 : Nat) : Calm s (s.degrade d res b6 b7) := by
  unfold State.degrade
  dsimp only
  split
  · exact rasStatus s d 0 true
  · have h0 : Calm s { s.setRbit d Reg.rasStatus 0 true with ras := { s.ras with degraded := s.ras.degraded ++ [[d, res, b6, b7]] } } := by
      have hs := rasStatus s d 0 true
      exact ⟨rfl, rfl, rfl, rfl, rfl, rfl, rfl, hs.reg, hs.ctr⟩
    split
    · next h4 => exact h0.trans (event _ (h h4) _ _ _ _)
    · exact h0.trans (eventAll _ _ _ _ _)

/-! ## Descriptors, engines, domains and queues -/

theorem modWork (s : State) (id : Nat) (f : Work → Work) : Calm s (s.modWork id f) :=
  ⟨rfl, rfl, rfl, rfl, rfl, rfl, rfl, fun _ _ _ => rfl, fun _ _ _ => rfl⟩

theorem endWork (s : State) (id : Nat) (c : Rec → Rec) : Calm s (s.endWork id c) := modWork s id _
theorem endStatus (s : State) (id status : Nat) : Calm s (s.endStatus id status) := modWork s id _

theorem setEng (s : State) (x : Eng) : Calm s (s.setEng x) := ⟨rfl, rfl, rfl, rfl, rfl, rfl, rfl, fun _ _ _ => rfl, fun _ _ _ => rfl⟩

theorem modDom (s : State) (m : Nat) (f : Dom → Dom) : Calm s (s.modDom m f) :=
  ite ⟨rfl, rfl, rfl, rfl, rfl, rfl, rfl, fun _ _ _ => rfl, fun _ _ _ => rfl⟩ ⟨rfl, rfl, rfl, rfl, rfl, rfl, rfl, fun _ _ _ => rfl, fun _ _ _ => rfl⟩

theorem modGroup (s : State) (slot : Nat) (f : Group → Group) : Calm s (s.modGroup slot f) :=
  ⟨rfl, rfl, rfl, rfl, rfl, rfl, rfl, fun _ _ _ => rfl, fun _ _ _ => rfl⟩

theorem modEth (s : State) (d : Nat) (f : Eth → Eth) : Calm s (s.modEth d f) :=
  ite ⟨rfl, rfl, rfl, rfl, rfl, rfl, rfl, fun _ _ _ => rfl, fun _ _ _ => rfl⟩ ⟨rfl, rfl, rfl, rfl, rfl, rfl, rfl, fun _ _ _ => rfl, fun _ _ _ => rfl⟩

theorem modWire (s : State) (d k : Nat) (f : Link → Link) : Calm s (s.modWire d k f) :=
  ite ⟨rfl, rfl, rfl, rfl, rfl, rfl, rfl, fun _ _ _ => rfl, fun _ _ _ => rfl⟩ ⟨rfl, rfl, rfl, rfl, rfl, rfl, rfl, fun _ _ _ => rfl, fun _ _ _ => rfl⟩

theorem queueTx (s : State) (d : Nat) (f : TxFrame) : Calm s (s.queueTx d f) := modEth s d _

theorem queueRouted (s : State) (d : Nat) (f : TxFrame) : Calm s (s.queueRouted d f) := ite (refl s) (ite (queueTx s d f) (modEth s d _))

theorem sendRouted (s : State) (prio : Nat) (via : Option Nat) (item : TxItem) : Calm s (s.sendRouted prio via item) := by
  unfold State.sendRouted
  split
  · exact queueRouted s _ _
  · exact bump s 0 (.inr rfl) 1

theorem sendSide (s : State) (prio mac : Nat) (item : TxItem) : Calm s (s.sendSide prio mac item) := queueRouted s _ _

theorem cmtSend (s : State) (m dest : Nat) (f : CommitFrame) : Calm s (s.cmtSend m dest f) := ite (sendSide s _ _ _) (sendRouted s _ _ _)

theorem cmtCount (s : State) (d : Nat) {i : Nat} (h : i < 8) (n : Nat) : Calm s (s.cmtCount d i n) :=
  bump s d (.inl (by unfold Reg.cmtCntLo; omega)) n

/-! ## Groups and decisions of the commit logic -/

theorem abortGroup (s : State) (slot : Nat) : Calm s (s.abortGroup slot) := foldl _ (fun t _ _ => (scramble t _ _).trans (write _ _ _ false)) s

theorem commitGroup (s : State) (slot : Nat) : Calm s (s.commitGroup slot).2.2 := foldl _ (fun t _ _ => (write t _ _ false).trans (write _ _ _ false)) s

theorem resolve (s : State) (g : Group) (d : Nat) (x : Verdict) : Calm s (s.resolve g d x) := by
  unfold State.resolve
  dsimp only
  have hend : ∀ (n : Nat) (t : State), Calm s t → ∀ i < 8, ∀ f c k, Calm s ((((t.modGroup g.slot f).cmtCount d i 1).cmtCount d 3 n).endWork k c) :=
    fun n t h i hi f c k => (((h.trans (modGroup t _ f)).trans (cmtCount _ d hi 1)).trans (cmtCount _ d (by decide) n)).trans (endWork _ k c)
  split
  · exact hend _ _ (commitGroup s g.slot) 0 (by decide) _ _ _
  · exact hend _ _ (abortGroup s g.slot) 1 (by decide) _ _ _

theorem applyHolds (s : State) (m : Nat) (x : Verdict) : Calm s (s.applyHolds m x) := foldl _ (fun t _ _ => write t _ _ false) s

theorem decide_ (s : State) (m : Nat) (x : Verdict) : Calm s (s.decide_ m x) := ite (refl s) (modDom s m _)

theorem applyLoop (m fuel : Nat) (s : State) : Calm s (State.applyLoop m fuel s) := by
  induction fuel generalizing s with
  | zero => exact refl s
  | succ fuel ih =>
    unfold State.applyLoop
    dsimp only
    split
    · exact refl s
    · next x _ =>
      refine ite (refl s) (Calm.trans ?_ (ih _))
      have hstep : ∀ t, Calm s t → ∀ a v f, Calm s (((t.applyHolds m x).writeN a 4 v).modDom m f) := fun t h _ _ _ =>
        ((h.trans (applyHolds t m x)).trans (write _ _ _ false)).trans (modDom _ m _)
      have hres : Calm s (match s.groupOf m x.k with | some g => s.resolve g (s.domRec m).die x | none => s) := by
        split
        · exact resolve s _ _ _
        · exact refl s
      split
      · exact (hstep _ hres _ _ _).trans (cmtSend _ m _ _)
      · exact hstep _ hres _ _ _

theorem sendQueries (s : State) (m : Nat) (dest : List Nat) : Calm s (s.sendQueries m dest) := foldl _ (fun t _ _ => cmtSend t m _ _) s

theorem leadOnce (s : State) (m : Nat) : Calm s (s.leadOnce m) := by
  unfold State.leadOnce
  dsimp only
  refine ite (refl s) (ite (modDom s m _) ((foldl _ (fun t k _ => Calm.trans (foldl _ (fun t q _ => ?_) t) (decide_ _ m _)) s).trans (applyLoop m _ _)))
  exact (modDom t m _).trans (cmtSend _ m _ _)

theorem leadOn (s : State) (m : Nat) : Calm s (s.leadOn m) := (leadOnce s m).trans (leadOnce _ m)

theorem startRecovery (s : State) (m : Nat) : Calm s (s.startRecovery m) := by
  unfold State.startRecovery
  dsimp only
  have hstop := modDom s m fun y => { y with stopped := true, prepared := [], decided := y.decided.filter fun v => v.cause == 2, reports := [], ends := [], leads := false }
  exact ite hstop ((((hstop.trans (modDom _ m _)).trans (cmtCount _ _ (by decide) 1)).trans (sendQueries _ m _)).trans (leadOn _ m))

/-- A domain's record names one of 16 partitions. -/
theorem domRec_part (s : State) (m : Nat) : (s.domRec m).part < 16 := by
  unfold State.domRec
  split
  · exact Nat.mod_lt _ (by decide)
  · exact Nat.mod_lt _ (by decide)

theorem loseHolder (s : State) (m : Nat) : Calm s (s.loseHolder m) := by
  unfold State.loseHolder
  dsimp only
  exact ((groups s _).trans (modDom _ m _)).trans (event _ (domRec_part s m) _ _ _ _)

theorem loseMember (s : State) (m k : Nat) : Calm s (s.loseMember m k) := by
  unfold State.loseMember
  dsimp only
  have hlost : Calm s ((s.writeN (s.domAddr m + 24) 1 1).modDom m fun y => { y with lost := y.lost ++ [k] }) := (write s _ _ false).trans (modDom _ m _)
  exact ite (refl s) ((ite (hlost.trans (loseHolder _ m)) hlost).trans (startRecovery _ m))

theorem loseDomMembers (s : State) (pick : Member → Bool) : Calm s (s.loseDomMembers pick) :=
  foldl _ (fun t m _ => foldl _ (fun u k _ => ite (loseMember u m k) (refl u)) t) s

/-! ## Collectives -/

theorem endColl (s : State) (id status : Nat) : Calm s (s.endColl id status) := by
  unfold State.endColl
  split
  · exact refl s
  · next c _ =>
    have hcnt : Calm s (State.bump { s with whl := { s.whl with colls := s.whl.colls.filter fun x => x.id != id } } c.d (Reg.whlCntLo 0) 1) :=
      (whl s _).trans (bump _ c.d (off := Reg.whlCntLo 0) (.inl (by decide)) 1)
    exact (ite (hcnt.trans (foldl _ (fun t _ _ => scramble t _ _) _)) hcnt).trans (endWork _ id _)

theorem endColls (s : State) (pick : Coll → Bool) (status : Nat) : Calm s (s.endColls pick status) := foldl _ (fun t _ _ => endColl t _ _) s

theorem loseMembers (s : State) : Calm s s.loseMembers := endColls s _ _
theorem loseFrames (s : State) : Calm s s.loseFrames := endColls s _ _
theorem loseUnreached (s : State) : Calm s s.loseUnreached := (loseMembers s).trans (loseDomMembers _ _)

/-! ## Work that loses its memory, its engine or its die -/

theorem endEach (s : State) (l : List Work) (status : Nat) : Calm s (l.foldl (fun s w => s.endStatus w.id status) s) := foldl l (fun t _ _ => endStatus t _ _) s

theorem memLost (s : State) : Calm s s.memLost := by
  have h := (endColls s (fun c => ((s.seq.works.filter fun w => w.started && !w.ended && (s.workRanges w).any fun r => r.len != 0 && s.memOut r.a r.len).map
    fun w => w.id).contains c.id) 7).trans (endEach _ ((s.seq.works.filter fun w => w.started && !w.ended && (s.workRanges w).any
      fun r => r.len != 0 && s.memOut r.a r.len).filter fun w => w.kind != 0x20) 7)
  exact ⟨h.part, h.torus, h.disc, h.rst, h.refCount, h.tripped, h.ras, h.reg, h.ctr⟩

theorem rePass (s : State) (w : Work) (v : Nat) : Calm s (s.rePass w v) := (setEng s _).trans (modWork _ _ _)

theorem restartOne (s : State) (d u : Nat) (w : Work) : Calm s (s.restartOne d u w) := by
  unfold State.restartOne
  refine ite (endStatus s _ _) (ite ?_ ?_)
  · split
    · exact endStatus s _ _
    · exact ite (rePass s _ _) (modWork s _ _)
  · split
    · exact endStatus s _ _
    · exact modWork s _ _

theorem restartUnit (s : State) (d u : Nat) : Calm s (s.restartUnit d u) := (ite (setEng s _) (refl s)).trans (foldl _ (fun t _ _ => restartOne t _ _ _) _)

theorem ownerOf_lt {s : State} {d u p : Nat} (h : s.ownerOf d u = some p) : p < 16 :=
  (List.mem_range.mp (List.mem_of_find?_eq_some h)).trans_le (parts_le s.part)

theorem lastOfKind (s : State) (d u : Nat) : Calm s (s.lastOfKind d u) := by
  unfold State.lastOfKind
  split
  · exact refl s
  · next p hp =>
    obtain ⟨v, -, hv⟩ := Option.bind_eq_some_iff.mp hp
    exact ite (degrade s d (fun _ => ownerOf_lt hv) u) (refl s)

theorem setPiece (s : State) (id i st : Nat) : Calm s (s.setPiece id i st) :=
  ⟨rfl, rfl, rfl, rfl, rfl, rfl, rfl, fun _ _ _ => rfl, fun _ _ _ => rfl⟩

theorem settleXfer (s : State) (id : Nat) : Calm s (s.settleXfer id) := by
  unfold State.settleXfer
  split
  · exact ite ((xfers s _).trans (endWork _ id _)) (refl s)
  · exact refl s

theorem abandonPort (s : State) (port : Nat) : Calm s (s.abandonPort port) :=
  foldl _ (fun t _ _ => ((modWork t _ _).trans (setPiece _ _ _ _)).trans (settleXfer _ _)) s

theorem domainsLost (s : State) (d : Nat) : Calm s (s.domainsLost d) := by
  unfold State.domainsLost
  dsimp only
  refine (foldl _ (fun t g _ => (abortGroup t _).trans (modGroup _ _ _)) s).trans (foldl _ (fun t m _ => ite (refl t) ?_) _)
  exact (write t _ _ false).trans (modDom _ m _)

/-! ## Frames that wait for another route -/

theorem takeRouted (s : State) (d : Nat) : Calm s (s.takeRouted d).2 := by
  unfold State.takeRouted
  dsimp only
  exact modEth s d _

theorem requeue (s : State) : Calm s s.requeue := by
  have hpair : ∀ (l : List Nat) (a : List TxFrame × State), Calm s a.2 →
      Calm s (l.foldl (fun (a : List TxFrame × State) d => (a.1 ++ (a.2.takeRouted d).1, (a.2.takeRouted d).2)) a).2 := by
    intro l
    induction l with
    | nil => exact fun a h => h
    | cons d l ih => exact fun a h => ih _ (h.trans (takeRouted a.2 d))
  exact (hpair _ ([], s) (refl s)).trans (foldl _ (fun t _ _ => sendRouted t _ _ _) _)

theorem unhold (s : State) (d : Nat) : Calm s (s.unhold d) := by
  unfold State.unhold
  exact ((modEth s d _).trans (modWire _ d 1 _)).trans (modWire _ d 2 _)

theorem reroute (s : State) : Calm s s.reroute := (foldl _ (fun t d _ => unhold t d) s).trans (requeue _)

theorem floodChange (s : State) (f : ChangeFrame) (p : Option Nat) : Calm s (s.floodChange f p) := foldl _ (fun t d _ => queueTx t d _) s

theorem peerFailed (s : State) (xyz serial : Nat) : Calm s (s.peerFailed xyz serial) := by
  unfold State.peerFailed
  exact ((eventAll s _ _ _ _).trans (loseUnreached _)).trans (loseDomMembers _ _)

theorem nextPn (s : State) (d : Nat) : Calm s (s.nextPn d).2 := by
  unfold State.nextPn
  split
  · next a _ =>
    have h := modEth s d fun e => { e with sas := mapIf (fun x => x.tx && x.an == a.an) (fun x => { x with pn := a.pn + 1 }) e.sas }
    exact ite ((h.trans (grd _ _)).trans (setAlert _ 4 true)) h
  · exact refl s

theorem sendFrame (s : State) (d : Nat) (f : TxFrame) (link : Option LinkHdr) : Calm s (s.sendFrame d f link) := by
  unfold State.sendFrame
  have h := (nextPn s d).trans (bump _ d (off := ethCnt 1) (.inl (by decide)) 1)
  exact ite (refl s) ⟨h.part, h.torus, h.disc, h.rst, h.refCount, h.tripped, h.ras, h.reg, h.ctr⟩

end Calm

end Sys2Proof.Machine

end

/-! PROOF. Poison finds, the patrol scrubber, owner searches and the repair of tile-store rows. -/

section

namespace Sys2Proof.Machine

open Sys2Proof

/-! ## Lists of values without two entries for a key -/

theorem kvFind_kvErase_nodup {α : Type} {l : List (Nat × α)} (h : (l.map Prod.fst).Nodup) (k : Nat) : kvFind (kvErase l k) k = none := by
  induction l with
  | nil => rfl
  | cons x l ih =>
    obtain ⟨j, v⟩ := x
    obtain ⟨hj, hl⟩ := List.nodup_cons.mp h
    unfold kvErase
    split
    · next e =>
      subst e
      have : ∀ l : List (Nat × α), j ∉ l.map Prod.fst → kvFind l j = none := by
        intro l
        induction l with
        | nil => exact fun _ => rfl
        | cons y l ihl =>
          obtain ⟨i, w⟩ := y
          intro hn
          rw [List.map_cons, List.mem_cons, not_or] at hn
          unfold kvFind
          rw [if_neg (Ne.symm hn.1)]
          exact ihl hn.2
      exact this l hj
    · next hne =>
      unfold kvFind
      rw [if_neg hne]
      exact ih hl

theorem kvGet_kvSet_nodup {α : Type} [DecidableEq α] (dflt : α) {l : List (Nat × α)} (h : (l.map Prod.fst).Nodup) (k : Nat) (v : α) :
    kvGet dflt (kvSet dflt l k v) k = v := by
  by_cases hv : v = dflt
  · unfold kvSet kvGet
    rw [if_pos hv, kvFind_kvErase_nodup h, hv]
    rfl
  · exact kvGet_kvSet_ne l k hv

/-! ## Error counters that saturate -/

theorem satEvent_calm (s : State) {p : Nat} (hp : p < 16) (d off i : Nat) : Calm s (s.satEvent p d off i) := by
  unfold State.satEvent
  refine .ite (.refl s) (Calm.trans ?_ (.event _ hp _ _ _ _))
  exact ⟨rfl, rfl, rfl, rfl, rfl, rfl, rfl, fun _ _ _ => rfl, fun _ _ _ => rfl⟩

theorem saturated_calm (s : State) (d off i : Nat) : Calm s (s.saturated d off i) := .foldl _ (fun t _ hp => satEvent_calm t (Posts.partsOn_lt hp) d off i) s

/-- An error counter counts, and posts its saturation. -/
theorem bumpErr_calm (s : State) (d off i n : Nat) : Calm (s.bump d off n) (s.bumpErr d off i n) := .ite (saturated_calm _ d off i) (.refl _)

theorem bumpErr_bump {s : State} {d off n : Nat} (i : Nat) (h : s.ctr d off + n < ctrMax) : s.bumpErr d off i n = s.bump d off n := by
  have hctr : (s.bump d off n).ctr d off = s.ctr d off + n := (State.ctr_bump_same s d off n).trans (Nat.min_eq_right h.le)
  unfold State.bumpErr
  dsimp only
  rw [if_neg]
  rw [hctr, Bool.and_eq_true, decide_eq_true_eq]
  exact fun hc => h.ne hc.1

/-! ## Poison found -/

/-- The counter of a find: 1 for a line of HBM, 3 for one of a tile store. -/
def State.findCtr (s : State) (line : Nat) : Nat := if inHbm s.part.dies (line * 64) 64 then 1 else 3

/-- A find before its search is queued. -/
def State.findMarked (s : State) (line : Nat) : State :=
  ((s.markLine line true).bumpErr (s.memDie (line * 64)) (Reg.rasCntLo (s.findCtr line)) (s.findCtr line) 1).setRbit (s.memDie (line * 64)) Reg.rasStatus 1 true

theorem foundBad_eq {s : State} {line : Nat} (hp : s.poisoned line = false)
    (hin : inHbm s.part.dies (line * 64) 64 = true ∨ inTs s.part.dies (line * 64) 64 = true) (demand : Bool) :
    ∃ bad, s.foundBad line demand = { s.findMarked line with ras := { (s.findMarked line).ras with
      badRows := bad, searches := (s.findMarked line).ras.searches ++ [(s.memDie (line * 64), line, demand)] } } := by
  unfold State.foundBad
  rw [if_neg]
  · exact ⟨_, rfl⟩
  · rw [hp]
    rcases hin with h | h <;> simp [h]

/-- A find leaves the views, the scrubber and the registers but for RAS_STATUS. -/
theorem findMarked_frame (s : State) (line : Nat) : (s.findMarked line).part = s.part ∧
    (s.findMarked line).ras = { s.ras with degraded := (s.findMarked line).ras.degraded, merged := (s.findMarked line).ras.merged } ∧
    ∀ d o, CalmReg o → (s.findMarked line).reg d o = s.reg d o := by
  have h := (bumpErr_calm (s.markLine line true) (s.memDie (line * 64)) (Reg.rasCntLo (s.findCtr line)) (s.findCtr line) 1).trans
    (.rasStatus _ (s.memDie (line * 64)) 1 true)
  exact ⟨h.part, h.ras, h.reg⟩

theorem poisonFound_again {s : State} {line : Nat} (demand : Bool) (hd : DieUp s (s.memDie (line * 64))) (hp : s.poisoned line = true) :
    exec (.poisonFound line demand) s = .next s := by
  refine (onDie_eq hd).trans (congrArg _ (if_pos ?_))
  rw [hp]
  rfl

theorem poisonFound_does {s : State} {line : Nat} (demand : Bool) (hd : DieUp s (s.memDie (line * 64))) (hp : s.poisoned line = false)
    (hin : inHbm s.part.dies (line * 64) 64 = true ∨ inTs s.part.dies (line * 64) 64 = true) (hnodup : (s.poison.map Prod.fst).Nodup)
    (hctr : s.ctr (s.memDie (line * 64)) (Reg.rasCntLo (s.findCtr line)) + 1 < ctrMax) :
    Does (.poisonFound line demand) s fun t => t.poisoned line = true ∧ t.rbit (s.memDie (line * 64)) Reg.rasStatus 1 = true ∧
      t.ras.searches = s.ras.searches ++ [(s.memDie (line * 64), line, demand)] ∧
      t.ctr (s.memDie (line * 64)) (Reg.rasCntLo (s.findCtr line)) = s.ctr (s.memDie (line * 64)) (Reg.rasCntLo (s.findCtr line)) + 1 ∧ t.mem = s.mem := by
  refine .onDie hd rfl ?_
  obtain ⟨bad, e⟩ := foundBad_eq hp hin demand
  have hmark : s.findMarked line =
      ((s.markLine line true).bump (s.memDie (line * 64)) (Reg.rasCntLo (s.findCtr line)) 1).setRbit (s.memDie (line * 64)) Reg.rasStatus 1 true := by
    unfold State.findMarked
    rw [bumpErr_bump _ (by exact hctr)]
  rw [e, hmark]
  refine ⟨kvGet_kvSet_nodup _ hnodup line true, State.rbit_setRbit_same _ _ _ 1 true (by decide), rfl, ?_, rfl⟩
  exact (State.ctr_bump_same (s.markLine line true) _ _ 1).trans (Nat.min_eq_right hctr.le)

/-! ## The patrol scrubber -/

/-- Where a scrubber reads next. -/
def State.scrubAddr (s : State) (d : Nat) (ts : Bool) : Nat :=
  let off := 64 * kvGet 0 s.ras.scrub (2 * d + b2n ts)
  if ts then tsBase + tsStride * d + off else hbmSize * d + off

/-- Whether a scrubber skips its next line. -/
def State.scrubSkips (s : State) (d : Nat) (ts : Bool) : Bool :=
  if ts then s.fencedRow d (64 * kvGet 0 s.ras.scrub (2 * d + b2n ts)) 64 else s.unitOut d 0x0E || s.rbit d Reg.hbmStatus 1

/-- What a scrubber counts of a line that it corrects, at an offset. -/
def State.scrubCounts (s : State) (d : Nat) (ts : Bool) (off n : Nat) : State :=
  let s := s.bump d (Reg.rasCntLo (if ts then 2 else 0)) n
  let s := if ts then s else s.bump d (Reg.hbmCntLo 2) n
  let k := rowKey d (off / 512 % 32) (off / 65536)
  if ts then { s with ras := { s.ras with rowErrs := kvSet 0 s.ras.rowErrs k (kvGet 0 s.ras.rowErrs k + n) } } else s

/-- A line that is read and found uncorrectable, or corrected. -/
def State.scrubLine (s : State) (d : Nat) (ts : Bool) (n : Nat) (bad : Bool) : State :=
  let t := s.access false (s.scrubAddr d ts) 64
  if bad then t.foundBad (lineOf (s.scrubAddr d ts)) false else t.scrubCounts d ts (64 * kvGet 0 s.ras.scrub (2 * d + b2n ts)) n

theorem access_ras (s : State) (wr : Bool) (a len : Nat) : (s.access wr a len).ras = s.ras := (Posts.access s wr a len).ras

theorem scrubRead_off {s : State} {d : Nat} (hd : DieUp s d) (hoff : s.rbit d Reg.rasCtrl 0 = false) (ts : Bool) (n : Nat) (bad : Bool) :
    exec (.scrubRead d ts n bad) s = .next s := by
  refine (onDie_eq hd).trans (congrArg _ (if_pos ?_))
  rw [hoff]
  rfl

theorem scrubRead_runs {s : State} {d : Nat} (hd : DieUp s d) (hon : s.rbit d Reg.rasCtrl 0 = true) (hdie : s.dieOut d = false) (ts : Bool) (n : Nat)
    (bad : Bool) : exec (.scrubRead d ts n bad) s = .next ((if s.scrubSkips d ts = true then s else s.scrubLine d ts n bad).scrubStep d ts) := by
  refine (onDie_eq hd).trans (congrArg _ ((if_neg ?_).trans ?_))
  · rw [hon, hdie]
    decide
  · rfl

/-- What the reading of a line leaves: the scrubber's place and the registers but for RAS_STATUS. -/
structure ScrubRead (s t : State) : Prop where
  part  : t.part = s.part
  scrub : t.ras.scrub = s.ras.scrub
  reg   : ∀ d o, CalmReg o → t.reg d o = s.reg d o

theorem ScrubRead.trans {s t u : State} (h : ScrubRead s t) (g : ScrubRead t u) : ScrubRead s u :=
  ⟨g.part.trans h.part, g.scrub.trans h.scrub, fun d o ho => (g.reg d o ho).trans (h.reg d o ho)⟩

theorem ScrubRead.refl (s : State) : ScrubRead s s := ⟨rfl, rfl, fun _ _ _ => rfl⟩

theorem ScrubRead.of_calm {s t : State} (h : Calm s t) : ScrubRead s t := ⟨h.part, by rw [h.ras], h.reg⟩

theorem foundBad_scrubRead (s : State) (line : Nat) (demand : Bool) : ScrubRead s (s.foundBad line demand) := by
  by_cases h : (s.poisoned line || !(inHbm s.part.dies (line * 64) 64 || inTs s.part.dies (line * 64) 64)) = true
  · unfold State.foundBad
    rw [if_pos h]
    exact .refl s
  · simp only [Bool.or_eq_true, Bool.not_eq_true', Bool.or_eq_false_iff, not_or, not_and, Bool.not_eq_false, Bool.not_eq_true] at h
    obtain ⟨hp, hin⟩ := h
    have hin' : inHbm s.part.dies (line * 64) 64 = true ∨ inTs s.part.dies (line * 64) 64 = true := by
      by_cases hh : inHbm s.part.dies (line * 64) 64 = true
      · exact .inl hh
      · exact .inr (hin (by simpa using hh))
    obtain ⟨bad, e⟩ := foundBad_eq hp hin' demand
    obtain ⟨hpart, hras, hreg⟩ := findMarked_frame s line
    rw [e]
    have hscrub : (s.findMarked line).ras.scrub = s.ras.scrub := by rw [hras]
    exact ⟨hpart, hscrub, hreg⟩

theorem scrubCounts_frame (s : State) (d : Nat) (ts : Bool) (off n : Nat) : ScrubRead s (s.scrubCounts d ts off n) ∧
    (s.scrubCounts d ts off n).poison = s.poison ∧ (s.scrubCounts d ts off n).mem = s.mem := by
  cases ts <;> exact ⟨⟨rfl, rfl, fun _ _ _ => rfl⟩, rfl, rfl⟩

theorem scrubLine_scrubRead (s : State) (d : Nat) (ts : Bool) (n : Nat) (bad : Bool) : ScrubRead s (s.scrubLine d ts n bad) := by
  have hacc : ScrubRead s (s.access false (s.scrubAddr d ts) 64) := .of_calm (.of_posts (.access s _ _ _))
  unfold State.scrubLine
  dsimp only
  split
  · exact hacc.trans (foundBad_scrubRead _ _ _)
  · exact hacc.trans (scrubCounts_frame _ d ts _ n).1

theorem scrubRead_reads (s : State) (d : Nat) (ts : Bool) (n : Nat) (bad : Bool) : ScrubRead s (if s.scrubSkips d ts = true then s else s.scrubLine d ts n bad) := by
  split
  · exact .refl s
  · exact scrubLine_scrubRead s d ts n bad

/-- A scrubber's step inside a pass, and at its end. -/
theorem scrubStep_does {s t : State} (h : ScrubRead s t) (d : Nat) (ts : Bool) :
    (kvGet 0 s.ras.scrub (2 * d + b2n ts) + 1 < scrubLines ts →
      kvGet 0 (t.scrubStep d ts).ras.scrub (2 * d + b2n ts) = kvGet 0 s.ras.scrub (2 * d + b2n ts) + 1) ∧
    (scrubLines ts ≤ kvGet 0 s.ras.scrub (2 * d + b2n ts) + 1 → (t.scrubStep d ts).ras.scrub = kvSet 0 s.ras.scrub (2 * d + b2n ts) 0 ∧
      (t.scrubStep d ts).rf d Reg.rasScrubPass (if ts then 16 else 0) 16 = Nat.min 0xFFFF (s.rf d Reg.rasScrubPass (if ts then 16 else 0) 16 + 1)) := by
  have hpass : t.rf d Reg.rasScrubPass (if ts then 16 else 0) 16 = s.rf d Reg.rasScrubPass (if ts then 16 else 0) 16 := by
    rw [State.rf, State.regN, h.reg d _ (by decide), State.rf, State.regN]
  unfold State.scrubStep
  dsimp only
  rw [h.scrub]
  refine ⟨fun hin => ?_, fun hend => ?_⟩
  · rw [if_pos hin]
    exact kvGet_kvSet_ne _ _ (Nat.succ_ne_zero _)
  · rw [if_neg (Nat.not_lt.mpr hend)]
    refine ⟨congrArg (fun l => kvSet 0 l (2 * d + b2n ts) 0) h.scrub, ?_⟩
    refine (State.rf_setRf_same t d Reg.rasScrubPass _ 16 _ (by cases ts <;> decide)).trans ?_
    rw [hpass, Nat.mod_eq_of_lt]
    exact (Nat.min_le_left _ _).trans_lt (by decide)

theorem scrubStep_frame (s : State) (d : Nat) (ts : Bool) : (s.scrubStep d ts).ctrs = s.ctrs ∧ (s.scrubStep d ts).poison = s.poison ∧
    (s.scrubStep d ts).mem = s.mem ∧ (s.scrubStep d ts).ras.searches = s.ras.searches := by
  unfold State.scrubStep
  dsimp only
  split
  · exact ⟨rfl, rfl, rfl, rfl⟩
  · exact ⟨rfl, rfl, rfl, rfl⟩

/-- A scrubber reads only lines of its own die. -/
theorem scrubAddr_line {s : State} {d : Nat} (hd : d < s.part.dies) {ts : Bool} (hx : kvGet 0 s.ras.scrub (2 * d + b2n ts) < scrubLines ts) :
    s.memDie (lineOf (s.scrubAddr d ts) * 64) = d ∧
      (inHbm s.part.dies (lineOf (s.scrubAddr d ts) * 64) 64 = true ∨ inTs s.part.dies (lineOf (s.scrubAddr d ts) * 64) 64 = true) := by
  have hdies : s.part.dies ≤ 8 := by cases s.part <;> decide
  unfold State.scrubAddr State.memDie spaceOf inHbm inTs lineOf
  revert hx
  generalize kvGet 0 s.ras.scrub (2 * d + b2n ts) = x
  generalize s.part.dies = n at hd hdies
  cases ts with
  | false =>
    intro hx
    simp only [scrubLines, hbmSize, Bool.false_eq_true, if_false] at hx ⊢
    rw [if_pos (by omega)]
    refine ⟨?_, .inl ?_⟩
    · dsimp only
      omega
    · rw [decide_eq_true_eq]
      omega
  | true =>
    intro hx
    simp only [scrubLines, hbmSize, tsBase, tsStride, tsSize, if_true] at hx ⊢
    rw [if_neg (by omega), if_neg (by omega), if_pos (by omega), if_pos (by omega)]
    refine ⟨?_, .inr ?_⟩
    · dsimp only
      omega
    · simp only [Bool.and_eq_true, decide_eq_true_eq]
      omega

theorem access_poison (s : State) (wr : Bool) (a len : Nat) : (s.access wr a len).poison = s.poison := by
  obtain ⟨c, n, e⟩ := s.access_state wr a len
  rw [e]

theorem scrubRead_counts (s : State) (d n : Nat) (ts : Bool) : let t := (s.scrubLine d ts n false).scrubStep d ts
    t.poison = s.poison ∧ t.mem = s.mem ∧
      t.ctr d (Reg.rasCntLo (if ts then 2 else 0)) = Nat.min ctrMax (s.ctr d (Reg.rasCntLo (if ts then 2 else 0)) + n) := by
  dsimp only
  obtain ⟨hctrs, hpoison, hmem, -⟩ := scrubStep_frame (s.scrubLine d ts n false) d ts
  have hread : s.scrubLine d ts n false = (s.access false (s.scrubAddr d ts) 64).scrubCounts d ts (64 * kvGet 0 s.ras.scrub (2 * d + b2n ts)) n := rfl
  obtain ⟨-, hp, hm⟩ := scrubCounts_frame (s.access false (s.scrubAddr d ts) 64) d ts (64 * kvGet 0 s.ras.scrub (2 * d + b2n ts)) n
  have hcount : ∀ u : State, (u.scrubCounts d ts (64 * kvGet 0 s.ras.scrub (2 * d + b2n ts)) n).ctr d (Reg.rasCntLo (if ts then 2 else 0)) =
      Nat.min ctrMax (u.ctr d (Reg.rasCntLo (if ts then 2 else 0)) + n) := by
    intro u
    cases ts with
    | false => exact (State.ctr_bump_other _ _ _ _ _ _ (by simp [Reg.rasCntLo, Reg.hbmCntLo])).trans (State.ctr_bump_same u d _ n)
    | true => exact State.ctr_bump_same u d _ n
  have hacc := (Calm.of_posts (.access s false (s.scrubAddr d ts) 64)).ctr d (Reg.rasCntLo (if ts then 2 else 0)) (by cases ts <;> decide)
  rw [hread] at hctrs hpoison hmem ⊢
  refine ⟨hpoison.trans (hp.trans (access_poison s _ _ _)), hmem.trans (hm.trans (State.access_mem s _ _ _).1), ?_⟩
  rw [State.ctr_congr hctrs, hcount, hacc]

theorem scrubRead_finds {s : State} {d : Nat} (hd : d < s.part.dies) {ts : Bool} (hx : kvGet 0 s.ras.scrub (2 * d + b2n ts) < scrubLines ts)
    (hp : s.poisoned (lineOf (s.scrubAddr d ts)) = false) (n : Nat) :
    ((s.scrubLine d ts n true).scrubStep d ts).ras.searches = s.ras.searches ++ [(d, lineOf (s.scrubAddr d ts), false)] := by
  have hline : s.scrubLine d ts n true = (s.access false (s.scrubAddr d ts) 64).foundBad (lineOf (s.scrubAddr d ts)) false := rfl
  rw [(scrubStep_frame _ d ts).2.2.2, hline]
  obtain ⟨c, k, e⟩ := s.access_state false (s.scrubAddr d ts) 64
  obtain ⟨hdie, hin⟩ := scrubAddr_line hd hx
  rw [e]
  obtain ⟨bad, hbad⟩ := foundBad_eq (s := { s with ctrs := c, freeCtr := k }) (line := lineOf (s.scrubAddr d ts)) hp hin false
  have hras := (findMarked_frame { s with ctrs := c, freeCtr := k } (lineOf (s.scrubAddr d ts))).2.1
  rw [hbad]
  dsimp only
  rw [hras]
  exact congrArg (fun e => s.ras.searches ++ [(e, lineOf (s.scrubAddr d ts), false)]) hdie

theorem scrubRead_does {s : State} {d : Nat} (hd : DieUp s d) (hon : s.rbit d Reg.rasCtrl 0 = true) (hdie : s.dieOut d = false) (ts : Bool) (n : Nat)
    (bad : Bool) : let x := kvGet 0 s.ras.scrub (2 * d + b2n ts)
    (x + 1 < scrubLines ts → Does (.scrubRead d ts n bad) s fun t => kvGet 0 t.ras.scrub (2 * d + b2n ts) = x + 1) ∧
    (scrubLines ts ≤ x + 1 → Does (.scrubRead d ts n bad) s fun t => t.ras.scrub = kvSet 0 s.ras.scrub (2 * d + b2n ts) 0 ∧
      t.rf d Reg.rasScrubPass (if ts then 16 else 0) 16 = Nat.min 0xFFFF (s.rf d Reg.rasScrubPass (if ts then 16 else 0) 16 + 1)) ∧
    (s.scrubSkips d ts = true → Does (.scrubRead d ts n bad) s fun t => t.ctrs = s.ctrs ∧ t.poison = s.poison ∧ t.mem = s.mem) ∧
    (s.scrubSkips d ts = false → bad = false → Does (.scrubRead d ts n bad) s fun t => t.poison = s.poison ∧ t.mem = s.mem ∧
      t.ctr d (Reg.rasCntLo (if ts then 2 else 0)) = Nat.min ctrMax (s.ctr d (Reg.rasCntLo (if ts then 2 else 0)) + n)) ∧
    (s.scrubSkips d ts = false → bad = true → s.poisoned (lineOf (s.scrubAddr d ts)) = false → x < scrubLines ts → Does (.scrubRead d ts n bad) s fun t =>
      t.ras.searches = s.ras.searches ++ [(d, lineOf (s.scrubAddr d ts), false)]) := by
  have hrun := scrubRead_runs hd hon hdie ts n bad
  obtain ⟨hin, hend⟩ := scrubStep_does (scrubRead_reads s d ts n bad) d ts
  refine ⟨fun h => ⟨_, hrun, hin h⟩, fun h => ⟨_, hrun, hend h⟩, fun hskip => ?_, fun hskip hbad => ?_, fun hskip hbad hp hx => ?_⟩
  · rw [if_pos hskip] at hrun
    obtain ⟨h1, h2, h3, -⟩ := scrubStep_frame s d ts
    exact ⟨_, hrun, h1, h2, h3⟩
  · rw [if_neg (by rw [hskip]; decide), hbad] at hrun
    exact ⟨_, hbad ▸ hrun, scrubRead_counts s d n ts⟩
  · rw [if_neg (by rw [hskip]; decide), hbad] at hrun
    exact ⟨_, hbad ▸ hrun, scrubRead_finds hd.there hx hp n⟩

/-! ## Owner searches -/

theorem refetchFor_calm (s : State) (d obj a : Nat) : Calm s (s.refetchFor d obj a).2 := by
  unfold State.refetchFor
  dsimp only
  split
  · exact .refl s
  · split
    · exact (Calm.bump s d (off := Reg.flCntLo 7) (.inl (by decide)) 1).trans (.rasStatus _ d 2 true)
    · exact ⟨rfl, rfl, rfl, rfl, rfl, rfl, rfl, fun _ _ _ => rfl, fun _ _ _ => rfl⟩

theorem rasLogAdd_ras (s : State) (d addr src refetch owner : Nat) : (s.rasLogAdd d addr src refetch owner).ras = s.ras := rfl

theorem releaseKept_ras (s : State) (pick : Kept → Bool) : (s.releaseKept pick).ras = s.ras := by
  unfold State.releaseKept
  exact foldl_keeps (P := fun t : State => t.ras = s.ras) (f := fun t (k : Kept) =>
    t.setRegN k.d (Reg.seqRetainUsed k.p) (t.rf k.d (Reg.seqRetainUsed k.p) 0 24 - k.units)) (fun _ _ h => h) (s.kept.filter pick) rfl

/-- An object's record names one of 16 partitions. -/
theorem obj_part_lt (s : State) (d o : Nat) : (s.obj d o).part < 16 := by
  unfold State.obj
  split
  · exact fld_lt _ 12 4
  · exact fld_lt _ 12 4

theorem reportOwner_searches (s : State) (d a src obj : Nat) : (s.reportOwner d a src obj).ras.searches = s.ras.searches := by
  unfold State.reportOwner
  dsimp only
  rw [releaseKept_ras, (Posts.event _ (obj_part_lt s d obj) _ _ _ _).ras, rasLogAdd_ras, (refetchFor_calm s d obj a).ras]

theorem ownerSearch_none {s : State} {d : Nat} (hd : DieUp s d) (h : ∀ y ∈ s.ras.searches, y.1 ≠ d) : exec (.ownerSearch d) s = .next s := by
  have hfind : (s.ras.searches.find? fun x => x.1 == d) = none := by
    rw [List.find?_eq_none]
    intro y hy
    simpa using h y hy
  refine (onDie_eq hd).trans (congrArg _ ?_)
  rw [hfind]

/-- The state in which a search that ends looks for owners. -/
def State.searchEnd (s : State) (d : Nat) (x : Nat × Nat × Bool) : State :=
  ({ s with ras := { s.ras with searches := s.ras.searches.erase x } } : State).setRbit d Reg.rasStatus 1
    ((s.ras.searches.erase x).any fun y => y.1 == d)

theorem searchEnd_reg (s : State) (d : Nat) (x : Nat × Nat × Bool) {e o : Nat} (ho : CalmReg o) : (s.searchEnd d x).reg e o = s.reg e o :=
  (Calm.rasStatus { s with ras := { s.ras with searches := s.ras.searches.erase x } } d 1 _).reg e o ho

/-- An object's record is what memory holds at its place. -/
theorem obj_congr {s t : State} (hpart : t.part = s.part) (hmem : SameMem s t) {d : Nat} (hlo : t.reg d Reg.seqObjBaseLo = s.reg d Reg.seqObjBaseLo)
    (hhi : t.reg d (Reg.seqObjBaseLo + 4) = s.reg d (Reg.seqObjBaseLo + 4)) (o : Nat) : t.obj d o = s.obj d o := by
  have haddr : t.objAddr d o = s.objAddr d o := by
    unfold State.objAddr State.regAddr State.regPair State.regN
    rw [hlo, hhi]
  have hbytes : t.bytes (s.objAddr d o) 32 = s.bytes (s.objAddr d o) 32 := List.map_congr_left fun i _ => hmem _
  unfold State.obj State.objIn
  rw [haddr, hpart, hbytes]

theorem ownersAt_congr {s t : State} {d : Nat} (h : ∀ o, t.obj d o = s.obj d o) (a : Nat) : t.ownersAt d a = s.ownersAt d a := by
  unfold State.ownersAt
  simp only [h]

theorem searchEnd_obj (s : State) (d : Nat) (x : Nat × Nat × Bool) (o : Nat) : (s.searchEnd d x).obj d o = s.obj d o :=
  obj_congr (s := s) (t := s.searchEnd d x) rfl (.of_eq rfl rfl) (searchEnd_reg s d x (o := Reg.seqObjBaseLo) (by decide))
    (searchEnd_reg s d x (o := Reg.seqObjBaseLo + 4) (by decide)) o

theorem searchEnd_owners (s : State) (d : Nat) (x : Nat × Nat × Bool) (a : Nat) : (s.searchEnd d x).ownersAt d a = s.ownersAt d a :=
  ownersAt_congr (searchEnd_obj s d x) a

theorem rasLogAdd_does (s : State) (d addr src refetch owner : Nat) : let t := s.rasLogAdd d addr src refetch owner
    let i := s.rf d Reg.rasLogHead 0 6
    t.regN d (Reg.rasLog i 0) = s.refCount % 2 ^ 32 ∧ t.regN d (Reg.rasLog i 1) = addr % 2 ^ 32 ∧ t.regN d (Reg.rasLog i 3) = owner % 2 ^ 32 ∧
      t.regN d Reg.rasLogHead = (i + 1) % 64 := by
  have hi : s.rf d Reg.rasLogHead 0 6 < 64 := fld_lt _ 0 6
  unfold State.rasLogAdd
  dsimp only
  revert hi
  generalize s.rf d Reg.rasLogHead 0 6 = i
  intro hi
  have hhead : ∀ w, w < 4 → Reg.rasLog i w ≠ Reg.rasLogHead := fun w hw => by
    unfold Reg.rasLog Reg.rasLogHead
    omega
  have hne : ∀ v w, v ≠ w → Reg.rasLog i v ≠ Reg.rasLog i w := fun v w h => by
    unfold Reg.rasLog
    omega
  simp only [State.regN_setRegN, regKey_eq_iff, hhead 0 (by decide), hhead 1 (by decide), hhead 3 (by decide), hne 0 3 (by decide), hne 0 2 (by decide),
    hne 0 1 (by decide), hne 1 3 (by decide), hne 1 2 (by decide), if_false, if_true, true_and]
  omega

theorem ownerSearch_does {s : State} {d : Nat} (hd : DieUp s d) {x : Nat × Nat × Bool} (hx : s.ras.searches.find? (fun y => y.1 == d) = some x) :
    Does (.ownerSearch d) s fun t => t.ras.searches = s.ras.searches.erase x ∧
      (s.ownersAt d (x.2.1 * 64) = [] → let i := s.rf d Reg.rasLogHead 0 6
        t.regN d (Reg.rasLog i 0) = s.refCount % 2 ^ 32 ∧ t.regN d (Reg.rasLog i 1) = x.2.1 * 64 % 2 ^ 32 ∧ t.regN d (Reg.rasLog i 3) = 0xFFFFFFFF ∧
        t.regN d Reg.rasLogHead = (i + 1) % 64) := by
  have howners := searchEnd_owners s d x (x.2.1 * 64)
  have hexec : exec (.ownerSearch d) s = .next (match s.ownersAt d (x.2.1 * 64) with
      | [] => ((s.searchEnd d x).rasLogAdd d (x.2.1 * 64) (b2n x.2.2) 0 0xFFFFFFFF).eventAll 0x10 d srcRas (poisonPayload (x.2.1 * 64) (b2n x.2.2) 0xFFFFFFFF 0)
      | os => os.foldl (fun s o => s.reportOwner d (x.2.1 * 64) (b2n x.2.2) o) (s.searchEnd d x)) := by
    refine (onDie_eq hd).trans (congrArg _ ?_)
    rw [hx, ← howners]
    rfl
  cases ho : s.ownersAt d (x.2.1 * 64) with
  | nil =>
    rw [ho] at hexec
    have hpost := Posts.eventAll ((s.searchEnd d x).rasLogAdd d (x.2.1 * 64) (b2n x.2.2) 0 0xFFFFFFFF) 0x10 d srcRas
      (poisonPayload (x.2.1 * 64) (b2n x.2.2) 0xFFFFFFFF 0)
    have hhead : (s.searchEnd d x).rf d Reg.rasLogHead 0 6 = s.rf d Reg.rasLogHead 0 6 := by
      rw [State.rf, State.regN, searchEnd_reg s d x (by decide), State.rf, State.regN]
    have hlog := rasLogAdd_does (s.searchEnd d x) d (x.2.1 * 64) (b2n x.2.2) 0 0xFFFFFFFF
    dsimp only at hlog
    rw [hhead] at hlog
    have hi : s.rf d Reg.rasLogHead 0 6 < 64 := fld_lt _ 0 6
    have hquiet : ∀ w, w < 4 → QuietReg (Reg.rasLog (s.rf d Reg.rasLogHead 0 6) w) := fun w hw => by
      unfold QuietReg Reg.rasLog
      omega
    obtain ⟨h0, h1, h3, h4⟩ := hlog
    refine ⟨_, hexec, by rw [hpost.ras]; rfl, fun _ => ⟨(hpost.regN d (hquiet 0 (by decide))).trans h0, (hpost.regN d (hquiet 1 (by decide))).trans h1,
      (hpost.regN d (hquiet 3 (by decide))).trans h3, (hpost.regN d (by decide)).trans h4⟩⟩
  | cons o os =>
    rw [ho] at hexec
    refine ⟨_, hexec, ?_, fun h => absurd h (by simp)⟩
    exact foldl_keeps (P := fun t : State => t.ras.searches = s.ras.searches.erase x)
      (fun t p h => (reportOwner_searches t d (x.2.1 * 64) (b2n x.2.2) p).trans h) (o :: os) rfl

/-! ## Repair of rows -/

/-- DEGRADED is set with the event of a lost resource. -/
theorem degrade_status (s : State) (d : Nat) {res b7 : Nat} (h : res = 4 → b7 < 16) (b6 : Nat) : (s.degrade d res b6 b7).rbit d Reg.rasStatus 0 = true := by
  have hset : (s.setRbit d Reg.rasStatus 0 true).rbit d Reg.rasStatus 0 = true := State.rbit_setRbit_same s d _ 0 true (by decide)
  unfold State.degrade
  dsimp only
  split
  · exact hset
  · split
    · next h4 => exact ((Posts.event _ (h h4) _ _ _ _).rbit d (by decide) 0).trans hset
    · exact ((Posts.eventAll _ _ _ _ _).rbit d (by decide) 0).trans hset

/-- A row whose repair starts: its corrected errors and its mark are taken back. -/
def State.rowTaken (s : State) (d bank row : Nat) : State :=
  { s with ras := { s.ras with rowErrs := kvSet 0 s.ras.rowErrs (rowKey d bank row) 0, badRows := without (rowKey d bank row) s.ras.badRows } }

/-- A row repaired by a spare. -/
def State.rowSpared (s : State) (d bank row left : Nat) : State :=
  ((s.rowTaken d bank row).setRf d (Reg.rasTsSpares (bank / 8)) (4 * (bank % 8)) 4 (left - 1)).bump d (Reg.rasCntLo 5) 1

theorem repairRow_spare {s : State} {d bank row left : Nat} (hl : s.rf d (Reg.rasTsSpares (bank / 8)) (4 * (bank % 8)) 4 = left) (h0 : 0 < left) :
    s.repairRow d bank row = if left = 1 then (s.rowSpared d bank row left).degrade d 1 ((2048 * bank + row) % 256) ((2048 * bank + row) / 256)
      else s.rowSpared d bank row left := by
  unfold State.repairRow
  dsimp only
  rw [hl, if_pos h0]
  rfl

theorem repairRow_fence {s : State} {d bank row i : Nat} (hl : s.rf d (Reg.rasTsSpares (bank / 8)) (4 * (bank % 8)) 4 = 0)
    (hi : (List.range 64).find? (fun i => !s.rbit d (Reg.rasTsFenced i) 31) = some i) :
    s.repairRow d bank row = (((s.rowTaken d bank row).setRegN d (Reg.rasTsFenced i) (2048 * bank + row + 2 ^ 31)).memLost).degrade d 0
      ((2048 * bank + row) % 256) ((2048 * bank + row) / 256) := by
  have hi' : (List.range 64).find? (fun i => !(s.rowTaken d bank row).rbit d (Reg.rasTsFenced i) 31) = some i := hi
  unfold State.repairRow
  dsimp only
  rw [hl, if_neg (by decide)]
  change (match (List.range 64).find? (fun i => !(s.rowTaken d bank row).rbit d (Reg.rasTsFenced i) 31) with | some i => _ | none => _) = _
  rw [hi']
  rfl

/-- A row that RAS_TS_FENCED names is fenced. -/
theorem fencedRow_of_reg {s : State} {d i bank row : Nat} (hi : i < 64) (hbank : bank < 32) (hrow : row < 2048)
    (h : s.regN d (Reg.rasTsFenced i) = 2 ^ 31 + 2048 * bank + row) : s.fencedRow d (65536 * row + 512 * bank) 1 = true := by
  unfold State.fencedRow
  rw [List.any_eq_true]
  refine ⟨i, List.mem_range.mpr hi, ?_⟩
  have hr : fld (2 ^ 31 + 2048 * bank + row) 0 11 = row := by
    rw [fld_eq_mod_div]
    omega
  have hb : fld (2 ^ 31 + 2048 * bank + row) 11 5 = bank := by
    rw [fld_eq_mod_div]
    omega
  have h31 : bit (2 ^ 31 + 2048 * bank + row) 31 = true := by
    unfold bit
    rw [beq_iff_eq]
    omega
  dsimp only
  rw [h, hr, hb, h31]
  rw [Bool.true_and, List.any_eq_true]
  refine ⟨0, List.mem_range.mpr (by decide), ?_⟩
  simp

theorem rowRepair_runs {s : State} {d bank row : Nat} (hd : DieUp s d) (hbank : bank < 32) (hrow : row < 2048) (hdie : s.dieOut d = false)
    (hrowok : s.fencedRow d (65536 * row + 512 * bank) 1 = false) :
    exec (.rowRepair d bank row) s = .next (if s.rowNeeds d bank row = true then s.repairRow d bank row else s) := by
  refine (onDie_eq hd).trans (congrArg _ ?_)
  rw [hrowok, hdie, decide_eq_true hbank, decide_eq_true hrow]
  simp

theorem rowSpared_does {s : State} {d bank row left : Nat} (hl : s.rf d (Reg.rasTsSpares (bank / 8)) (4 * (bank % 8)) 4 = left) :
    let t := s.rowSpared d bank row left
    t.rf d (Reg.rasTsSpares (bank / 8)) (4 * (bank % 8)) 4 = left - 1 ∧ t.ctr d (Reg.rasCntLo 5) = Nat.min ctrMax (s.ctr d (Reg.rasCntLo 5) + 1) ∧
      t.ras.rowErrs = kvSet 0 s.ras.rowErrs (rowKey d bank row) 0 ∧ t.mem = s.mem := by
  have hlt : left < 16 := hl ▸ fld_lt _ (4 * (bank % 8)) 4
  refine ⟨(State.rf_setRf_same (s.rowTaken d bank row) d _ _ 4 _ (by omega)).trans (Nat.mod_eq_of_lt (by omega)), ?_, rfl, rfl⟩
  exact State.ctr_bump_same ((s.rowTaken d bank row).setRf d (Reg.rasTsSpares (bank / 8)) (4 * (bank % 8)) 4 (left - 1)) d (Reg.rasCntLo 5) 1

theorem rowRepair_spares {s : State} {d bank row left : Nat} (hd : DieUp s d) (hbank : bank < 32) (hrow : row < 2048) (hdie : s.dieOut d = false)
    (hrowok : s.fencedRow d (65536 * row + 512 * bank) 1 = false) (hl : s.rf d (Reg.rasTsSpares (bank / 8)) (4 * (bank % 8)) 4 = left)
    (hneeds : s.rowNeeds d bank row = true) (h0 : 0 < left) : Does (.rowRepair d bank row) s fun t =>
      t.rf d (Reg.rasTsSpares (bank / 8)) (4 * (bank % 8)) 4 = left - 1 ∧ t.ctr d (Reg.rasCntLo 5) = Nat.min ctrMax (s.ctr d (Reg.rasCntLo 5) + 1) ∧
      t.ras.rowErrs = kvSet 0 s.ras.rowErrs (rowKey d bank row) 0 ∧ (1 < left → t.mem = s.mem) ∧ (left = 1 → t.rbit d Reg.rasStatus 0 = true) := by
  have hexec := (rowRepair_runs hd hbank hrow hdie hrowok).trans (congrArg _ ((if_pos hneeds).trans (repairRow_spare hl h0)))
  obtain ⟨hrf, hctr, herrs, hmem⟩ := rowSpared_does (row := row) hl
  by_cases h1 : left = 1
  · rw [if_pos h1] at hexec
    have hcalm := Calm.degrade (s.rowSpared d bank row left) d (res := 1) (b7 := (2048 * bank + row) / 256) (fun h => absurd h (by decide)) ((2048 * bank + row) % 256)
    refine ⟨_, hexec, (hcalm.rf d ?_ _ 4).trans hrf, (hcalm.ctr d _ (by decide)).trans hctr, ?_, fun h => absurd h1 h.ne', fun _ => ?_⟩
    · unfold CalmReg QuietReg Reg.rasTsSpares Reg.rasStatus Reg.grdStatus
      omega
    · rw [hcalm.ras]
      exact herrs
    · exact degrade_status _ d (fun h => absurd h (by decide)) _
  · rw [if_neg h1] at hexec
    exact ⟨_, hexec, hrf, hctr, herrs, fun _ => hmem, fun h => absurd h h1⟩

theorem rowRepair_fences {s : State} {d bank row i : Nat} (hd : DieUp s d) (hbank : bank < 32) (hrow : row < 2048) (hdie : s.dieOut d = false)
    (hrowok : s.fencedRow d (65536 * row + 512 * bank) 1 = false) (hl : s.rf d (Reg.rasTsSpares (bank / 8)) (4 * (bank % 8)) 4 = 0)
    (hneeds : s.rowNeeds d bank row = true) (hi : (List.range 64).find? (fun i => !s.rbit d (Reg.rasTsFenced i) 31) = some i) :
    Does (.rowRepair d bank row) s fun t => t.regN d (Reg.rasTsFenced i) = 2 ^ 31 + 2048 * bank + row ∧ t.rbit d Reg.rasStatus 0 = true ∧
      t.fencedRow d (65536 * row + 512 * bank) 1 = true := by
  have hexec := (rowRepair_runs hd hbank hrow hdie hrowok).trans (congrArg _ ((if_pos hneeds).trans (repairRow_fence hl hi)))
  have hlt : i < 64 := List.mem_range.mp (List.mem_of_find?_eq_some hi)
  have hcalm := (Calm.memLost ((s.rowTaken d bank row).setRegN d (Reg.rasTsFenced i) (2048 * bank + row + 2 ^ 31))).trans
    (.degrade _ d (res := 0) (b7 := (2048 * bank + row) / 256) (fun h => absurd h (by decide)) ((2048 * bank + row) % 256))
  have hreg : CalmReg (Reg.rasTsFenced i) := by
    unfold CalmReg QuietReg Reg.rasTsFenced Reg.rasStatus Reg.grdStatus
    omega
  have hval := (hcalm.regN d hreg).trans (State.regN_setRegN_same (s.rowTaken d bank row) d (Reg.rasTsFenced i) (2048 * bank + row + 2 ^ 31))
  rw [show (2048 * bank + row + 2 ^ 31) % 2 ^ 32 = 2 ^ 31 + 2048 * bank + row by omega] at hval
  exact ⟨_, hexec, hval, degrade_status _ d (fun h => absurd h (by decide)) _, fencedRow_of_reg hlt hbank hrow hval⟩

end Sys2Proof.Machine

open Sys2Proof Sys2Proof.Machine

/-- Settles O57: a new find is marked and searched, the scrubber goes on, a search logs its line, and a row takes a spare or is fenced. -/
theorem memoryFaults : Obligations.MemoryFaults := by
  refine ⟨fun s line demand hd => ⟨poisonFound_again demand hd, fun hp hin hnodup hctr => poisonFound_does demand hd hp hin hnodup hctr⟩,
    fun s d ts n bad hd => ⟨fun hoff => scrubRead_off hd hoff ts n bad, fun hon hdie => scrubRead_does hd hon hdie ts n bad⟩,
    fun s d hd => ⟨ownerSearch_none hd, fun x hx => ownerSearch_does hd hx⟩,
    fun s d bank row hd hbank hrow hdie hok => ⟨fun hno => ?_, rowRepair_spares hd hbank hrow hdie hok rfl,
      fun i hneeds hl hi => rowRepair_fences hd hbank hrow hdie hok hl hneeds hi⟩⟩
  rw [rowRepair_runs hd hbank hrow hdie hok, hno, if_neg (by decide)]

end

/-! PROOF. Changes of the die mesh, and the training of UCIe links. -/

section

namespace Sys2Proof.Machine

open Sys2Proof

/-! ## Mesh changes -/

/-- The registers that a die sets as it applies a mesh change. -/
def State.meshRegs (s : State) (d : Nat) : State :=
  let x := sumNat ((s.part.meshBits s.ras.view d).1.map fun e => 2 ^ e)
  let y := sumNat ((s.part.meshBits s.ras.view d).2.map fun e => 2 ^ e)
  let t := (s.setRf d Reg.d2dStatus 8 8 x).setRf d Reg.d2dStatus 16 8 y
  t.setRegN d Reg.rasEpoch (t.regN d Reg.rasEpoch + 1)

theorem meshApply_calm (s : State) (d : Nat) : Calm (s.meshRegs d) (s.meshApply d) := by
  unfold State.meshApply State.meshRegs
  exact Calm.foldl _ (fun t e _ => .degrade t d (fun h => absurd h (by decide)) e) _

/-- The views that die 0 numbers and sends stay as a die applies one of them. -/
structure MeshOn (s t : State) : Prop where
  part : t.part = s.part
  ras  : t.ras = { s.ras with degraded := t.ras.degraded, merged := t.ras.merged }

theorem meshApply_on (s : State) (d : Nat) : MeshOn s (s.meshApply d) :=
  have h := meshApply_calm s d
  ⟨h.part, h.ras⟩

theorem MeshOn.trans {s t u : State} (h : MeshOn s t) (g : MeshOn t u) : MeshOn s u := by
  refine ⟨g.part.trans h.part, ?_⟩
  have e := g.ras
  rw [h.ras] at e
  exact e

/-- What a mesh change leaves in a die's registers. -/
structure MeshApplied (s t : State) (v : List Nat × List Nat) (d : Nat) : Prop where
  epoch : t.regN d Reg.rasEpoch = (s.regN d Reg.rasEpoch + 1) % 2 ^ 32
  alt   : t.rf d Reg.d2dStatus 8 8 = sumNat ((s.part.meshBits v d).1.map fun e => 2 ^ e) % 256
  cut   : t.rf d Reg.d2dStatus 16 8 = sumNat ((s.part.meshBits v d).2.map fun e => 2 ^ e) % 256

theorem meshRegs_does (s : State) (d : Nat) : MeshApplied s (s.meshRegs d) s.ras.view d := by
  have hne : regKey d Reg.d2dStatus ≠ regKey d Reg.rasEpoch := State.regKey_ne (by decide) (by decide) (.inr (by decide))
  unfold State.meshRegs
  generalize hx : sumNat ((s.part.meshBits s.ras.view d).1.map fun e => 2 ^ e) = x
  generalize hy : sumNat ((s.part.meshBits s.ras.view d).2.map fun e => 2 ^ e) = y
  dsimp only
  refine ⟨(State.regN_setRegN_same _ _ _ _).trans ?_, (State.rf_setRegN_other _ _ _ _ _ _ 8 8 hne).trans ?_,
    (State.rf_setRegN_other _ _ _ _ _ _ 16 8 hne).trans ?_⟩
  · have hepoch : ((s.setRf d Reg.d2dStatus 8 8 x).setRf d Reg.d2dStatus 16 8 y).regN d Reg.rasEpoch = s.regN d Reg.rasEpoch :=
      (State.regN_setRegN_other _ _ _ _ _ _ hne.symm).trans (State.regN_setRegN_other _ _ _ _ _ _ hne.symm)
    rw [hepoch]
  · rw [hx]
    exact (State.rf_setRf_other _ d _ y 8 8 (by decide) (.inl (by decide))).trans (State.rf_setRf_same s d _ 8 8 x (by decide))
  · rw [hy]
    exact State.rf_setRf_same _ d _ 16 8 y (by decide)

theorem meshRegs_other (s : State) {d e o : Nat} (he : e ≠ d) (ho : o < 2 ^ 24) : (s.meshRegs d).regN e o = s.regN e o := by
  have hk : ∀ off, off < 2 ^ 24 → regKey e o ≠ regKey d off := fun off hoff => State.regKey_ne ho hoff (.inl he)
  unfold State.meshRegs
  exact (State.regN_setRegN_other _ _ _ _ _ _ (hk _ (by decide))).trans ((State.regN_setRegN_other _ _ _ _ _ _ (hk _ (by decide))).trans
    (State.regN_setRegN_other _ _ _ _ _ _ (hk _ (by decide))))

/-- A die that applies a view sets its own registers and leaves those of every other die. -/
theorem meshApply_does (s : State) (d : Nat) : MeshApplied s (s.meshApply d) s.ras.view d := by
  have h := meshRegs_does s d
  have hc := meshApply_calm s d
  exact ⟨(hc.regN d (by decide)).trans h.epoch, (hc.rf d (by decide) 8 8).trans h.alt, (hc.rf d (by decide) 16 8).trans h.cut⟩

theorem meshApply_other (s : State) {d e : Nat} (he : e ≠ d) {o : Nat} (ho : CalmReg o) : (s.meshApply d).regN e o = s.regN e o :=
  ((meshApply_calm s d).regN e ho).trans (meshRegs_other s he ho.1.1)

theorem MeshApplied.congr {s t u : State} {v : List Nat × List Nat} {d : Nat} (h : MeshApplied s t v d) (hr : ∀ o, CalmReg o → u.regN d o = t.regN d o) :
    MeshApplied s u v d := by
  have hrf : ∀ lo len, u.rf d Reg.d2dStatus lo len = t.rf d Reg.d2dStatus lo len := fun lo len => by
    rw [State.rf, hr _ (by decide), State.rf]
  exact ⟨(hr _ (by decide)).trans h.epoch, (hrf 8 8).trans h.alt, (hrf 16 8).trans h.cut⟩

/-- Each die of a list without repetitions applies the view once. -/
theorem meshApply_each (s : State) {l : List Nat} (hl : l.Nodup) : MeshOn s (l.foldl State.meshApply s) ∧
    ∀ d ∈ l, MeshApplied s (l.foldl State.meshApply s) s.ras.view d := by
  have hon : MeshOn s (l.foldl State.meshApply s) := foldl_keeps (P := MeshOn s) (fun t d h => h.trans (meshApply_on t d)) l ⟨rfl, rfl⟩
  refine ⟨hon, foldl_each (A := fun t d => MeshApplied s t s.ras.view d)
    (B := fun t d => MeshOn s t ∧ ∀ o, CalmReg o → t.regN d o = s.regN d o) (fun t d ht => ?_) (fun t d e he h => ?_) (fun t d e he h => ?_) l hl
    (fun d _ => ⟨⟨rfl, rfl⟩, fun _ _ => rfl⟩)⟩
  · obtain ⟨hton, hreg⟩ := ht
    have hview : t.ras.view = s.ras.view := by rw [hton.ras]
    obtain ⟨hepoch, halt, hcut⟩ := meshApply_does t d
    rw [hview, hton.part] at halt hcut
    exact ⟨hepoch.trans (by rw [hreg _ (by decide)]), halt, hcut⟩
  · exact h.congr fun o ho => meshApply_other t he ho
  · exact ⟨h.1.trans (meshApply_on t d), fun o ho => (meshApply_other t he ho).trans (h.2 o ho)⟩

theorem meshChange_does {s : State} (hs : s.tripped = false) {v : List Nat × List Nat} {rest : List (List Nat × List Nat)} (hv : s.ras.views = v :: rest)
    (howe : s.ras.owe = []) (hnodup : v.1.Nodup) : Does .meshChange s fun t => t.ras.views = rest ∧ t.ras.view = v ∧ t.ras.owe = v.1 ∧
      ∀ d ∈ v.1, t.regN d Reg.rasEpoch = (s.regN d Reg.rasEpoch + 1) % 2 ^ 32 ∧
        t.rf d Reg.d2dStatus 8 8 = sumNat ((s.part.meshBits v d).1.map fun e => 2 ^ e) % 256 ∧
        t.rf d Reg.d2dStatus 16 8 = sumNat ((s.part.meshBits v d).2.map fun e => 2 ^ e) % 256 := by
  generalize hu : ({ s with ras := { s.ras with views := rest, view := v, owe := v.1 } } : State) = u
  have hexec : exec .meshChange s = .next (v.1.foldl State.meshApply u).loseUnreached := by
    refine (live_eq hs).trans (congrArg _ ?_)
    rw [hv]
    dsimp only
    rw [if_neg (by rw [howe]; decide), hu]
  obtain ⟨hon, heach⟩ := meshApply_each u hnodup
  have hcalm := Calm.loseUnreached (v.1.foldl State.meshApply u)
  have hras := (hon.trans ⟨hcalm.part, hcalm.ras⟩).ras
  refine ⟨_, hexec, by rw [hras, ← hu], by rw [hras, ← hu], by rw [hras, ← hu], fun d hd => ?_⟩
  obtain ⟨hepoch, halt, hcut⟩ := (heach d hd).congr fun o ho => hcalm.regN d ho
  subst hu
  exact ⟨hepoch, halt, hcut⟩

theorem meshChange_waits {s : State} (hs : s.tripped = false) :
    (s.ras.views = [] → exec .meshChange s = .next s) ∧
    (∀ v rest, s.ras.views = v :: rest → s.ras.owe ≠ [] → exec .meshChange s = .next s) := by
  refine ⟨fun hv => (live_eq hs).trans (congrArg _ ?_), fun v rest hv howe => (live_eq hs).trans (congrArg _ ?_)⟩
  · rw [hv]
  · rw [hv]
    exact if_pos (by simpa using howe)

/-! ## The two ends of a link -/

/-- The links of a part lead to other dies, and no further than the part goes. -/
theorem links_other (p : Part) : ∀ d < p.dies, ∀ e ∈ p.links d, e ≠ d := by
  cases p <;> decide

/-- Both ends of a link stand in the tables of their dies. -/
theorem farEnd_ends {s : State} {d k e j : Nat} (h : s.farEnd d k = some (e, j)) :
    e ∈ s.part.links d ∧ k < (s.part.links d).length ∧ j < (s.part.links e).length := by
  unfold State.farEnd at h
  cases hk : (s.part.links d)[k]? with
  | none => rw [hk] at h; exact absurd h (by simp)
  | some x =>
    rw [hk] at h
    obtain ⟨i, hi, hij⟩ := Option.map_eq_some_iff.mp h
    obtain ⟨rfl, rfl⟩ := Prod.mk.inj hij
    obtain ⟨hlt, hget⟩ := List.getElem?_eq_some_iff.mp hk
    exact ⟨hget ▸ List.getElem_mem hlt, hlt, (List.findIdx?_eq_some_iff_getElem.mp hi).1⟩

/-- The far end of a link is on another die. -/
theorem farEnd_ne {s : State} {d k e j : Nat} (hd : d < s.part.dies) (h : s.farEnd d k = some (e, j)) : e ≠ d :=
  links_other s.part d hd e (farEnd_ends h).1

/-- A part has at most three links on a die. -/
theorem links_le (p : Part) (d : Nat) : (p.links d).length ≤ 3 := by
  unfold Part.links
  simp only [List.length_append]
  split <;> split <;> split <;> simp

theorem farEnd_lt {s : State} {d k e j : Nat} (h : s.farEnd d k = some (e, j)) : k < 3 ∧ j < 3 :=
  ⟨(farEnd_ends h).2.1.trans_le (links_le _ _), (farEnd_ends h).2.2.trans_le (links_le _ _)⟩

/-- How the ends of a link read: up or down, and retraining or not. -/
structure LinkReads (s : State) (d k : Nat) (up retraining : Bool) : Prop where
  up    : s.rbit d Reg.d2dStatus k = up
  train : s.rbit d (Reg.d2dLink k) 5 = retraining

theorem d2dLink_lt {k : Nat} (hk : k < 3) : Reg.d2dLink k < 2 ^ 24 := by
  unfold Reg.d2dLink
  omega

theorem linkBits_reads (s : State) (d : Nat) {k : Nat} (hk : k < 3) (up retraining : Bool) : LinkReads (s.linkBits d k up retraining) d k up retraining := by
  have hne : regKey d Reg.d2dStatus ≠ regKey d (Reg.d2dLink k) := by
    rw [ne_eq, regKey_eq_iff]
    unfold Reg.d2dStatus Reg.d2dLink
    omega
  refine ⟨?_, State.rbit_setRbit_same _ d _ 5 _ (by decide)⟩
  exact (State.rbit_setRegN_other _ _ _ _ _ _ k hne).trans ((State.rbit_setRegN_other _ _ _ _ _ _ k hne).trans
    (State.rbit_setRbit_same s d _ k up (by omega)))

theorem linkBits_other (s : State) {d e : Nat} (he : e ≠ d) {k : Nat} (hk : k < 3) (up retraining : Bool) {o : Nat} (ho : o < 2 ^ 24) :
    (s.linkBits d k up retraining).regN e o = s.regN e o := by
  have hkey : ∀ off, off < 2 ^ 24 → regKey e o ≠ regKey d off := fun off hoff => State.regKey_ne ho hoff (.inl he)
  exact (State.regN_setRegN_other _ _ _ _ _ _ (hkey _ (d2dLink_lt hk))).trans ((State.regN_setRegN_other _ _ _ _ _ _ (hkey _ (d2dLink_lt hk))).trans
    (State.regN_setRegN_other _ _ _ _ _ _ (hkey _ (by decide))))

/-- The retrains counted at an end stay as its bits are set. -/
theorem linkBits_count (s : State) (d : Nat) (k : Nat) (up retraining : Bool) :
    (s.linkBits d k up retraining).rf d (Reg.d2dLink k) 8 8 = s.rf d (Reg.d2dLink k) 8 8 := by
  have hne : regKey d (Reg.d2dLink k) ≠ regKey d Reg.d2dStatus := by
    rw [ne_eq, regKey_eq_iff]
    unfold Reg.d2dStatus Reg.d2dLink
    omega
  exact (State.rf_setRf_other _ d _ _ 8 8 (by decide) (.inr (by decide))).trans ((State.rf_setRf_other _ d _ _ 8 8 (by decide) (.inr (by decide))).trans
    (State.rf_setRegN_other _ _ _ _ _ _ 8 8 hne))

theorem LinkReads.congr {s t : State} {d k : Nat} {a b : Bool} (h : LinkReads s d k a b) (hr : ∀ o, o < 2 ^ 24 → t.regN d o = s.regN d o) (hk : k < 3) :
    LinkReads t d k a b := by
  refine ⟨?_, ?_⟩
  · rw [State.rbit, hr _ (by decide)]
    exact h.up
  · rw [State.rbit, hr _ (d2dLink_lt hk)]
    exact h.train

theorem linkBits_sets (s : State) (d k : Nat) (up retraining : Bool) : SetsRegs s (s.linkBits d k up retraining) :=
  ((SetsRegs.setRbit s _ _ _ _).trans (.setRbit _ _ _ _ _)).trans (.setRbit _ _ _ _ _)

theorem linkBoth_sets (s : State) (d k : Nat) (up retraining : Bool) : SetsRegs s (s.linkBoth d k up retraining) := by
  unfold State.linkBoth
  split
  · exact (linkBits_sets s _ _ _ _).trans (linkBits_sets _ _ _ _ _)
  · exact .refl s

/-- The bits of a link stand in the mesh's registers. -/
theorem linkBits_low (s : State) (d : Nat) {k : Nat} (hk : k < 3) (up retraining : Bool) (e : Nat) {o : Nat} (ho : o < 0x190000) :
    (s.linkBits d k up retraining).regN e o = s.regN e o := by
  have hkey : ∀ off, off = Reg.d2dStatus ∨ off = Reg.d2dLink k → regKey e o ≠ regKey d off := fun off hoff => by
    rcases hoff with rfl | rfl
    · exact State.regKey_ne (by omega) (by decide) (.inr (by unfold Reg.d2dStatus; omega))
    · exact State.regKey_ne (by omega) (d2dLink_lt hk) (.inr (by unfold Reg.d2dLink; omega))
  exact (State.regN_setRegN_other _ _ _ _ _ _ (hkey _ (.inr rfl))).trans ((State.regN_setRegN_other _ _ _ _ _ _ (hkey _ (.inr rfl))).trans
    (State.regN_setRegN_other _ _ _ _ _ _ (hkey _ (.inl rfl))))

theorem unitReg_low {u : Nat} (hu : u ≤ 0x0F) : Reg.rasUnit u < 0x190000 := by
  unfold Reg.rasUnit
  omega

/-- Both ends of a link read alike, and the retrains counted there stay. -/
theorem linkBoth_does {s : State} {d k e j : Nat} (h : s.farEnd d k = some (e, j)) (he : e ≠ d) (hk : k < 3) (hj : j < 3) (up retraining : Bool) :
    let t := s.linkBoth d k up retraining
    SetsRegs s t ∧ LinkReads t d k up retraining ∧ LinkReads t e j up retraining ∧ t.rf d (Reg.d2dLink k) 8 8 = s.rf d (Reg.d2dLink k) 8 8 := by
  have heq : s.linkBoth d k up retraining = (s.linkBits d k up retraining).linkBits e j up retraining := by
    unfold State.linkBoth
    rw [h]
  dsimp only
  rw [heq]
  refine ⟨(linkBits_sets s _ _ _ _).trans (linkBits_sets _ _ _ _ _), (linkBits_reads s d hk up retraining).congr (fun o ho => linkBits_other _ he.symm hj _ _ ho) hk, linkBits_reads _ e hj _ _, ?_⟩
  rw [State.rf, linkBits_other _ he.symm hj _ _ (d2dLink_lt hk)]
  exact linkBits_count s d k up retraining

theorem meshNote_state (s : State) : ∃ v, s.meshNote = { s with ras := { s.ras with views := v } } := by
  unfold State.meshNote
  dsimp only
  split
  · exact ⟨_, rfl⟩
  · exact ⟨_, rfl⟩

theorem meshNote_regN (s : State) (d o : Nat) : s.meshNote.regN d o = s.regN d o := by
  obtain ⟨v, e⟩ := meshNote_state s
  rw [e]
  rfl

theorem meshNote_frame (s : State) : s.meshNote.mem = s.mem ∧ s.meshNote.ctrs = s.ctrs ∧ s.meshNote.part = s.part := by
  obtain ⟨v, e⟩ := meshNote_state s
  rw [e]
  exact ⟨rfl, rfl, rfl⟩

/-! ## Retraining -/

theorem countRetrain_reads {s : State} {d k : Nat} {up retraining : Bool} (h : LinkReads s d k up retraining) :
    LinkReads (s.countRetrain d k) d k up retraining := by
  have hne : regKey d Reg.d2dStatus ≠ regKey d (Reg.d2dLink k) := by
    rw [ne_eq, regKey_eq_iff]
    unfold Reg.d2dStatus Reg.d2dLink
    omega
  exact ⟨(State.rbit_setRegN_other s _ _ _ _ _ k hne).trans h.up, (State.rbit_setRf_other s d _ _ 5 (by decide) (.inl (by decide))).trans h.train⟩

theorem countRetrain_other (s : State) {d e : Nat} (he : e ≠ d) {k : Nat} (hk : k < 3) {o : Nat} (ho : o < 2 ^ 24) :
    (s.countRetrain d k).regN e o = s.regN e o ∧ (s.countRetrain d k).ctr e o = s.ctr e o := by
  refine ⟨State.regN_setRegN_other s _ _ _ _ _ (State.regKey_ne ho (d2dLink_lt hk) (.inl he)), State.ctr_bump_other _ _ _ _ _ _ (State.regKey_ne ho ?_ (.inl he))⟩
  unfold Reg.d2dCntLo
  omega

theorem countRetrain_counts (s : State) (d : Nat) (k : Nat) :
    (s.countRetrain d k).rf d (Reg.d2dLink k) 8 8 = Nat.min 255 (s.rf d (Reg.d2dLink k) 8 8 + 1) ∧
      (s.countRetrain d k).ctr d (Reg.d2dCntLo (4 * k + 3)) = Nat.min ctrMax (s.ctr d (Reg.d2dCntLo (4 * k + 3)) + 1) := by
  refine ⟨(State.rf_setRf_same s d _ 8 8 _ (by decide)).trans (Nat.mod_eq_of_lt ((Nat.min_le_left _ _).trans_lt (by decide))), ?_⟩
  exact State.ctr_bump_same (s.setRf d (Reg.d2dLink k) 8 8 (Nat.min 255 (s.rf d (Reg.d2dLink k) 8 8 + 1))) d _ 1

/-- A link that goes down to retrain reads so at both ends, and its retrain is counted. -/
theorem linkRetrain_does {s : State} {d k e j : Nat} (h : s.farEnd d k = some (e, j)) (he : e ≠ d) (hk : k < 3) (hj : j < 3) :
    let t := s.linkRetrain d k
    t.mem = s.mem ∧ t.rf d (Reg.d2dLink k) 8 8 = Nat.min 255 (s.rf d (Reg.d2dLink k) 8 8 + 1) ∧
      t.ctr d (Reg.d2dCntLo (4 * k + 3)) = Nat.min ctrMax (s.ctr d (Reg.d2dCntLo (4 * k + 3)) + 1) ∧
      LinkReads t d k false true ∧ LinkReads t e j false true := by
  obtain ⟨hset, hd, hfar, hcnt⟩ := linkBoth_does h he hk hj false true
  have heq : s.linkRetrain d k = (((s.linkBoth d k false true).countRetrain d k).countRetrain e j).meshNote := by
    unfold State.linkRetrain
    rw [h]
  dsimp only
  rw [heq]
  revert hset hd hfar hcnt
  generalize s.linkBoth d k false true = u
  intro hset hd hfar hcnt
  obtain ⟨hmem, hctrs, -⟩ := meshNote_frame ((u.countRetrain d k).countRetrain e j)
  have hother := fun o (ho : o < 2 ^ 24) => countRetrain_other (u.countRetrain d k) he.symm hj ho
  obtain ⟨hrf, hctr⟩ := countRetrain_counts u d k
  have hfar' : LinkReads (u.countRetrain d k) e j false true := hfar.congr (fun o ho => (countRetrain_other u he hk ho).1) hj
  refine ⟨hmem.trans hset.mem, ?_, ?_, ?_, ?_⟩
  · rw [State.rf, meshNote_regN, (hother _ (d2dLink_lt hk)).1]
    exact hrf.trans (by rw [hcnt])
  · rw [State.ctr_congr hctrs, (hother _ (by unfold Reg.d2dCntLo; omega)).2, hctr, State.ctr_congr hset.ctrs]
  · exact (countRetrain_reads hd).congr (fun o ho => (meshNote_regN _ d o).trans (hother o ho).1) hk
  · exact (countRetrain_reads hfar').congr (fun o _ => meshNote_regN _ e o) hj

theorem bitsOf_two_pow {k : Nat} (hk : k < 3) : bitsOf (BitVec.ofNat 32 (2 ^ k)).toNat 3 = [k] := by
  match k, hk with
  | 0, _ => decide
  | 1, _ => decide
  | 2, _ => decide

/-- Both commands retrain a link that is up and not fenced, and leave any other. -/
theorem ucieRetrain_runs {s : State} {d k : Nat} (hd : DieUp s d) (hk : k < 3) {c : Instr}
    (hc : c = .ucieRetrain d (BitVec.ofNat 32 (2 ^ k)) ∨ c = .ucieLinkLost d k) :
    exec c s = .next (if (s.rbit d Reg.d2dStatus k && !s.linkFenced d k) = true then s.linkRetrain d k else s) := by
  rcases hc with rfl | rfl
  · refine (onDie_eq hd).trans (congrArg _ ?_)
    unfold State.d2dCmdWrite
    rw [bitsOf_two_pow hk]
    rfl
  · refine (onDie_eq hd).trans (congrArg _ ?_)
    rw [decide_eq_true hk, Bool.true_and]

/-! ## The registers of a fence -/

/-- What a fence writes of its own: the unit's register, CAP_LIVE, the counter, FENCED of an engine and the units that passed. -/
def State.fenceRegs (s : State) (d u cause : Nat) : State :=
  let n := Nat.min 15 (s.rf d (Reg.rasUnit u) 2 4 + 1)
  let s := s.setRegN d (Reg.rasUnit u) ((if 3 ≤ n then 3 else 1) + 4 * n + 256 * cause)
  let s := s.setRbit d Reg.rasCapLive u false
  let s := s.bump d (Reg.rasCntLo 6) 1
  let s := s.fencedBit d u true
  { s with ras := { s.ras with passed := without (d, u) s.ras.passed } }

theorem unitEvent_calm (s : State) (d u code : Nat) (payload : List Byte) : Calm s (s.unitEvent d u code payload) := by
  unfold State.unitEvent
  split
  · next p hp =>
    obtain ⟨v, -, hv⟩ := Option.bind_eq_some_iff.mp hp
    exact .event s (Calm.ownerOf_lt hv) _ _ _ _
  · exact .eventAll s _ _ _ _

theorem fenceMark_calm (s : State) (d u cause : Nat) : Calm (s.fenceRegs d u cause) (s.fenceMark d u cause) := unitEvent_calm _ _ _ _ _

theorem fencedBit_sets (s : State) (d u : Nat) (b : Bool) : SetsRegs s (s.fencedBit d u b) := by
  unfold State.fencedBit
  split
  · exact .setRbit s _ _ _ _
  · split
    · exact .setRbit s _ _ _ _
    · exact .refl s

/-- FENCED stands in the status register of an engine, below the RAS block. -/
theorem fencedBit_regN (s : State) (d u : Nat) (b : Bool) (e : Nat) {o : Nat} (ho : 0x170000 ≤ o ∧ o < 2 ^ 24) :
    (s.fencedBit d u b).regN e o = s.regN e o := by
  unfold State.fencedBit
  split
  · exact State.regN_setRegN_other _ _ _ _ _ _ (State.regKey_ne ho.2 (by unfold Reg.meStatus; omega) (.inr (by unfold Reg.meStatus; omega)))
  · split
    · exact State.regN_setRegN_other _ _ _ _ _ _ (State.regKey_ne ho.2 (by unfold Reg.veStatus; omega) (.inr (by unfold Reg.veStatus; omega)))
    · rfl

theorem rasUnit_lt {u : Nat} (hu : u ≤ 0x0F) : Reg.rasUnit u < 2 ^ 24 := by
  unfold Reg.rasUnit
  omega

/-- The registers from the RAS block on, but for the unit's own and CAP_LIVE, stay through a fence. -/
theorem fenceRegs_other (s : State) {d u : Nat} (hu : u ≤ 0x0F) (cause : Nat) {e o : Nat} (ho : 0x170000 ≤ o ∧ o < 2 ^ 24)
    (hunit : e ≠ d ∨ o ≠ Reg.rasUnit u) (hcap : e ≠ d ∨ o ≠ Reg.rasCapLive) : (s.fenceRegs d u cause).regN e o = s.regN e o := by
  unfold State.fenceRegs
  refine (fencedBit_regN _ d u true e ho).trans ((State.regN_setRegN_other _ _ _ _ _ _ (State.regKey_ne ho.2 (by decide) hcap)).trans
    (State.regN_setRegN_other _ _ _ _ _ _ (State.regKey_ne ho.2 (rasUnit_lt hu) hunit)))

/-- The register of a fenced unit: its state, how often it was fenced, and the cause. -/
theorem fenceRegs_unit (s : State) {d u : Nat} (hu : u ≤ 0x0F) (cause : Nat) : let n := Nat.min 15 (s.rf d (Reg.rasUnit u) 2 4 + 1)
    (s.fenceRegs d u cause).regN d (Reg.rasUnit u) = ((if 3 ≤ n then 3 else 1) + 4 * n + 256 * cause) % 2 ^ 32 ∧
      (s.fenceRegs d u cause).rbit d Reg.rasCapLive u = false ∧
      (s.fenceRegs d u cause).ctr d (Reg.rasCntLo 6) = Nat.min ctrMax (s.ctr d (Reg.rasCntLo 6) + 1) := by
  have hr : 0x170000 ≤ Reg.rasUnit u ∧ Reg.rasUnit u < 2 ^ 24 := by
    unfold Reg.rasUnit
    omega
  have hne : Reg.rasUnit u ≠ Reg.rasCapLive := by
    unfold Reg.rasUnit Reg.rasCapLive
    omega
  unfold State.fenceRegs
  dsimp only
  refine ⟨(fencedBit_regN _ d u true d hr).trans ((State.regN_setRegN_other _ _ _ _ _ _ (State.regKey_ne hr.2 (by decide) (.inr hne))).trans
    (State.regN_setRegN_same _ _ _ _)), ?_, ?_⟩
  · exact (congrArg (bit · u) (fencedBit_regN _ d u true d (o := Reg.rasCapLive) (by decide))).trans (State.rbit_setRbit_same _ d Reg.rasCapLive u false (by omega))
  · exact (State.ctr_congr (fencedBit_sets _ d u true).ctrs d _).trans (State.ctr_bump_same (State.setRbit (s.setRegN d _ _) d Reg.rasCapLive u false) d _ 1)

theorem fenceRegs_out (s : State) {d u : Nat} (hu : u ≤ 0x0F) (cause : Nat) : (s.fenceRegs d u cause).unitOut d u = true := by
  obtain ⟨hreg, -, -⟩ := fenceRegs_unit s (d := d) hu cause
  have hstate : (s.fenceRegs d u cause).unitState d u ≠ 0 := by
    rw [State.unitState, State.rf, hreg, fld_eq_mod_div]
    split <;> omega
  exact bne_iff_ne.mpr hstate

/-- `t` is `s` with units fenced: what was out of service, or a link down, is so still. -/
structure FenceOn (s t : State) : Prop where
  part : t.part = s.part
  out  : ∀ d u, u ≤ 0x0F → s.unitOut d u = true → t.unitOut d u = true
  down : ∀ d i, s.rbit d Reg.d2dStatus i = false → t.rbit d Reg.d2dStatus i = false

theorem FenceOn.refl (s : State) : FenceOn s s := ⟨rfl, fun _ _ _ h => h, fun _ _ h => h⟩

theorem FenceOn.trans {s t u : State} (h : FenceOn s t) (g : FenceOn t u) : FenceOn s u :=
  ⟨g.part.trans h.part, fun d v hv ho => g.out d v hv (h.out d v hv ho), fun d i hi => g.down d i (h.down d i hi)⟩

theorem FenceOn.of_calm {s t : State} (h : Calm s t) : FenceOn s t :=
  ⟨h.part, fun d _ hu ho => (h.unitOut d hu).trans ho, fun d i hi => (h.rbit d (by decide) i).trans hi⟩

theorem fenceRegs_on (s : State) {d u : Nat} (hu : u ≤ 0x0F) (cause : Nat) : FenceOn s (s.fenceRegs d u cause) := by
  have hpart : (s.fenceRegs d u cause).part = s.part := (fencedBit_sets _ d u true).part
  refine ⟨hpart, fun e v hv ho => ?_, fun e i hi => ?_⟩
  · by_cases h : e = d ∧ v = u
    · obtain ⟨rfl, rfl⟩ := h
      exact fenceRegs_out s hu cause
    · have hreg := fenceRegs_other s hu cause (e := e) (o := Reg.rasUnit v) (by unfold Reg.rasUnit; omega) 
        (by by_cases he : e = d
            · exact .inr fun hru => h ⟨he, by unfold Reg.rasUnit at hru; omega⟩
            · exact .inl he) (.inr (by unfold Reg.rasUnit Reg.rasCapLive; omega))
      rw [State.unitOut, State.unitState, State.rf, hreg]
      exact ho
  · have hreg := fenceRegs_other s (d := d) hu cause (e := e) (o := Reg.d2dStatus) (by decide) (.inr (by unfold Reg.d2dStatus Reg.rasUnit; omega)) (.inr (by decide))
    rw [State.rbit, hreg]
    exact hi

theorem fenceMark_on (s : State) {d u : Nat} (hu : u ≤ 0x0F) (cause : Nat) : FenceOn s (s.fenceMark d u cause) :=
  (fenceRegs_on s hu cause).trans (.of_calm (fenceMark_calm s d u cause))

theorem fenceMark_out (s : State) {d u : Nat} (hu : u ≤ 0x0F) (cause : Nat) : (s.fenceMark d u cause).unitOut d u = true :=
  ((fenceMark_calm s d u cause).unitOut d hu).trans (fenceRegs_out s hu cause)

/-! ## Links that go down for good -/

/-- Setting the bits of one end of a link to down leaves every unit's register, and every link that is down. -/
theorem linkBits_on (s : State) (d : Nat) {k : Nat} (hk : k < 3) (retraining : Bool) : FenceOn s (s.linkBits d k false retraining) := by
  refine ⟨(linkBits_sets s d k false retraining).part, fun e u hu ho => ?_, fun e i hi => ?_⟩
  · rw [State.unitOut, State.unitState, State.rf, linkBits_low s d hk false retraining e (unitReg_low hu)]
    exact ho
  · have hlink : (s.linkBits d k false retraining).rbit e Reg.d2dStatus i = (s.setRbit d Reg.d2dStatus k false).rbit e Reg.d2dStatus i := by
      have hkey : regKey e Reg.d2dStatus ≠ regKey d (Reg.d2dLink k) :=
        State.regKey_ne (by decide) (d2dLink_lt hk) (.inr (by unfold Reg.d2dStatus Reg.d2dLink; omega))
      exact (State.rbit_setRegN_other _ _ _ _ _ _ i hkey).trans (State.rbit_setRegN_other _ _ _ _ _ _ i hkey)
    rw [hlink]
    by_cases he : e = d
    · rw [he] at hi ⊢
      refine (State.rbit_setRbit s d Reg.d2dStatus i false (i := k) (by omega)).trans ?_
      split
      · rfl
      · exact hi
    · exact (State.rbit_setRegN_other _ _ _ _ _ _ i (State.regKey_ne (by decide) (by decide) (.inl he))).trans hi

theorem linkDown_on (s : State) (d k : Nat) (retraining : Bool) : FenceOn s (s.linkBoth d k false retraining) := by
  unfold State.linkBoth
  split
  · next e j h =>
    obtain ⟨hk, hj⟩ := farEnd_lt h
    exact (linkBits_on s d hk _).trans (linkBits_on _ e hj _)
  · exact .refl s

theorem meshNote_on (s : State) : FenceOn s s.meshNote := by
  obtain ⟨v, e⟩ := meshNote_state s
  rw [e]
  exact ⟨rfl, fun _ _ _ h => h, fun _ _ h => h⟩

/-- Fencing a UCIe link's end puts it out of service, and brings nothing back. -/
theorem fenceLink_does {s : State} {d u : Nat} (hu : 9 ≤ u) (hu' : u < 0x0C) (hthere : s.unitThere d u = true) (cause : Nat) :
    FenceOn s (s.fence d u cause) ∧ (s.fence d u cause).unitOut d u = true := by
  have hone : s.fence d u cause = s.fenceOne d u cause := if_pos (by omega)
  rw [hone]
  unfold State.fenceOne
  by_cases hst : s.unitState d u = 1 ∨ s.unitState d u = 3
  · rw [if_pos (by rw [hthere]; simpa using hst)]
    refine ⟨.refl s, bne_iff_ne.mpr ?_⟩
    omega
  · have heffect : (s.fenceMark d u cause).fenceEffect d u = ((s.fenceMark d u cause).linkBoth d (u - 9) false false).meshNote := by
      unfold State.fenceEffect
      rw [if_neg (by omega), if_neg (by omega), if_pos hu']
    rw [if_neg (by rw [hthere]; simpa using hst), heffect]
    have hgo := (linkDown_on (s.fenceMark d u cause) d (u - 9) false).trans (meshNote_on _)
    exact ⟨(fenceMark_on s (by omega) cause).trans hgo, hgo.out d u (by omega) (fenceMark_out s (by omega) cause)⟩

/-! ## The end of a training -/

/-- A training that fails for the third time fences both ends of the link. -/
theorem linkTrainFailed_does {s : State} {d k e j : Nat} (hd : d < s.part.dies) (h : s.farEnd d k = some (e, j))
    (hn : 3 ≤ kvGet 0 s.ras.fails (4 * d + k) + 1) : let t := s.linkTrainFailed d k
    t.unitOut d (9 + k) = true ∧ t.unitOut e (9 + j) = true ∧ t.rbit d Reg.d2dStatus k = false ∧ t.rbit e Reg.d2dStatus j = false := by
  have he := farEnd_ne hd h
  obtain ⟨-, hkl, hjl⟩ := farEnd_ends h
  obtain ⟨hk, hj⟩ := farEnd_lt h
  let s1 : State := { s with ras := { s.ras with fails := kvSet 0 s.ras.fails (4 * d + k) 0 } }
  have h1 : s1.farEnd d k = some (e, j) := h
  obtain ⟨hset, hnear, hfar, -⟩ := linkBoth_does h1 he hk hj false false
  have heq : s.linkTrainFailed d k = ((s1.linkBoth d k false false).fence d (9 + k) 4).fence e (9 + j) 4 := by
    have hfar2 : (s1.linkBoth d k false false).farEnd d k = some (e, j) := by
      unfold State.farEnd
      rw [hset.part]
      exact h1
    unfold State.linkTrainFailed
    dsimp only
    rw [if_neg (by omega), hfar2]
  have hthere : ∀ (t : State), t.part = s.part → t.unitThere d (9 + k) = true ∧ t.unitThere e (9 + j) = true := fun t ht => by
    unfold State.unitThere
    rw [ht]
    simp only [Nat.add_sub_cancel_left, decide_eq_true hkl, decide_eq_true hjl, Bool.or_true, Bool.and_true, decide_eq_true_eq]
    omega
  dsimp only
  rw [heq]
  revert hset hnear hfar
  generalize hu : s1.linkBoth d k false false = u
  intro hset hnear hfar
  obtain ⟨hon1, hout1⟩ := fenceLink_does (s := u) (d := d) (u := 9 + k) (by omega) (by omega) (hthere u hset.part).1 4
  obtain ⟨hon2, hout2⟩ := fenceLink_does (s := u.fence d (9 + k) 4) (d := e) (u := 9 + j) (by omega) (by omega)
    (hthere _ (hon1.part.trans hset.part)).2 4
  have hon := hon1.trans hon2
  exact ⟨hon2.out d _ (by omega) hout1, hout2, hon.down d k hnear.up, hon.down e j hfar.up⟩

theorem farEnd_congr {s t : State} (h : t.part = s.part) {d k : Nat} : t.farEnd d k = s.farEnd d k := by
  unfold State.farEnd
  rw [h]

theorem linkBoth_unit (s : State) (d k : Nat) (up retraining : Bool) (a : Nat) {v : Nat} (hv : v ≤ 0x0F) :
    (s.linkBoth d k up retraining).unitState a v = s.unitState a v := by
  unfold State.unitState State.rf
  refine congrArg (fld · 0 2) ?_
  unfold State.linkBoth
  split
  · next e j h =>
    obtain ⟨hk, hj⟩ := farEnd_lt h
    exact (linkBits_low _ e hj _ _ a (unitReg_low hv)).trans (linkBits_low s d hk _ _ a (unitReg_low hv))
  · rfl

/-- A training that ends well brings both ends up. -/
theorem linkTrained_does {s : State} {d k e j : Nat} (hd : d < s.part.dies) (h : s.farEnd d k = some (e, j)) (hf : s.linkFenced d k = false) :
    let t := s.linkTrained d k
    t.mem = s.mem ∧ LinkReads t d k true false ∧ LinkReads t e j true false := by
  have he := farEnd_ne hd h
  obtain ⟨hk, hj⟩ := farEnd_lt h
  let s1 : State := { s with ras := { s.ras with fails := kvSet 0 s.ras.fails (4 * d + k) 0 } }
  have h1 : s1.farEnd d k = some (e, j) := h
  have heq : s.linkTrained d k = ((s1.linkBoth d k false false).linkBoth d k true false).meshNote := by
    have hunit := fun (a : Nat) {v : Nat} (hv : v ≤ 0x0F) => linkBoth_unit s1 d k false false a hv
    have hown : s.unitOut d (9 + k) = false := by
      unfold State.linkFenced at hf
      rw [h] at hf
      simp only [Bool.or_eq_false_iff] at hf
      exact hf.1.1.1
    have hnone : (s1.linkBoth d k false false).unitState d (9 + k) ≠ 1 := by
      rw [hunit d (v := 9 + k) (by omega)]
      exact fun h1 => absurd (hown.symm.trans (bne_iff_ne.mpr (h1.trans_ne (by decide)))) (by decide)
    have hfence : (s1.linkBoth d k false false).linkFenced d k = false := by
      unfold State.linkFenced State.dieOut State.unitOut
      rw [farEnd_congr (linkBoth_sets s1 d k false false).part, h1]
      dsimp only
      rw [hunit d (v := 9 + k) (by omega), hunit e (v := 9 + j) (by omega), hunit d (v := 0x0F) le_rfl, hunit e (v := 0x0F) le_rfl]
      unfold State.linkFenced State.dieOut State.unitOut at hf
      rw [h] at hf
      exact hf
    unfold State.linkTrained
    dsimp only
    rw [if_neg hnone, hfence]
    exact if_neg (by decide)
  have hset := linkBoth_sets s1 d k false false
  dsimp only
  rw [heq]
  revert hset
  generalize s1.linkBoth d k false false = u
  intro hset
  have hfar : u.farEnd d k = some (e, j) := (farEnd_congr hset.part).trans h1
  obtain ⟨hset2, hnear, hend, -⟩ := linkBoth_does hfar he hk hj true false
  exact ⟨(meshNote_frame _).1.trans (hset2.mem.trans hset.mem), hnear.congr (fun o _ => meshNote_regN _ d o) hk, hend.congr (fun o _ => meshNote_regN _ e o) hj⟩

theorem ucieRetrainEnd_skips {s : State} {d k : Nat} (hd : DieUp s d) (ok : Bool) (h : s.rbit d (Reg.d2dLink k) 5 = false) :
    exec (.ucieRetrainEnd d k ok) s = .next s := by
  refine (onDie_eq hd).trans (congrArg _ (if_pos ?_))
  rw [h, Bool.and_false]
  rfl

theorem ucieRetrainEnd_runs {s : State} {d k : Nat} (hd : DieUp s d) (hk : k < 3) (ok : Bool) (h : s.rbit d (Reg.d2dLink k) 5 = true) :
    exec (.ucieRetrainEnd d k ok) s = .next (if ok = true then s.linkTrained d k else s.linkTrainFailed d k) := by
  refine (onDie_eq hd).trans (congrArg _ (if_neg ?_))
  rw [h, decide_eq_true hk]
  decide

end Sys2Proof.Machine

open Sys2Proof Sys2Proof.Machine

/-- Settles O58: a mesh change is applied once by each die of its view; a link's two ends go down, come up and are fenced together. -/
theorem dieMesh : Obligations.DieMesh := by
  unfold Obligations.DieMesh
  refine ⟨fun s hs => ?_, fun s d hd => onDie_eq hd, fun s d k e j hd hk hfar => ?_⟩
  · exact ⟨(meshChange_waits hs).1, (meshChange_waits hs).2, fun v rest hv howe hnodup => meshChange_does hs hv howe hnodup⟩
  · have hdie : d < s.part.dies := hd.2
    have he := farEnd_ne hdie hfar
    have hj := (farEnd_lt hfar).2
    refine ⟨fun c hc => ⟨fun hno => ?_, fun hup hin => ?_⟩, fun ok h => ucieRetrainEnd_skips hd ok h, fun h hin => ?_, fun h hn => ?_, fun h hn => ?_⟩
    · refine (ucieRetrain_runs hd hk hc).trans (congrArg _ (if_neg ?_))
      rcases hno with hno | hno
      · rw [hno, Bool.false_and]
        decide
      · rw [hno, Bool.not_true, Bool.and_false]
        decide
    · obtain ⟨hmem, hrf, hctr, hnear, hend⟩ := linkRetrain_does hfar he hk hj
      refine ⟨_, (ucieRetrain_runs hd hk hc).trans (congrArg _ (if_pos ?_)), hmem, hrf, hctr, hnear.up, hnear.train, hend.up, hend.train⟩
      rw [hup, hin]
      rfl
    · obtain ⟨hmem, hnear, hend⟩ := linkTrained_does hdie hfar hin
      exact ⟨_, (ucieRetrainEnd_runs hd hk true h).trans (congrArg _ (if_pos rfl)), hmem, hnear.up, hnear.train, hend.up, hend.train⟩
    · exact (ucieRetrainEnd_runs hd hk false h).trans (congrArg _ ((if_neg (by decide)).trans (if_pos hn)))
    · exact ⟨_, (ucieRetrainEnd_runs hd hk false h).trans (congrArg _ (if_neg (by decide))), linkTrainFailed_does hdie hfar hn⟩

end

/-! PROOF. Fencing units, the write that meets a fence, and the return to service. -/

section

namespace Sys2Proof.Machine

open Sys2Proof

/-! ## The control register of an engine -/

/-- A register whose writes only store: no other rule stands at its offset. -/
structure PlainReg (off rw : Nat) : Prop where
  row   : ∃ r, regDesc off = some r ∧ r.rw = rw ∧ r.rwg = 0 ∧ r.w1c = 0
  host  : ∀ (s : State) (v : Nat), s.hostWrite off v = none
  only  : ∀ (s : State) (d v : Nat), s.wroteOnly d off v = none
  bell  : rowAt off (Reg.mbBell 0) 0x10 64 = none
  tdi   : ∀ (s : State) (d : Nat), s.regTdi d off = none
  store : ∀ (s : State) (d v : Nat), s.regStore d off v = s.setRegN d off v
  fix   : ∀ (p : Part) (d v : Nat), p.regFix d off v = v

theorem engineCtrl_plain {u : Nat} (hu : u < 6) : ∃ rw, rw % 2 = 1 ∧ PlainReg (engineCtrl u) rw := by
  match u, hu with
  | 0, _ => exact ⟨7, rfl, ⟨_, rfl, rfl, rfl, rfl⟩, fun _ _ => rfl, fun _ _ _ => rfl, rfl, fun _ _ => rfl, fun _ _ _ => rfl, fun _ _ _ => rfl⟩
  | 1, _ => exact ⟨7, rfl, ⟨_, rfl, rfl, rfl, rfl⟩, fun _ _ => rfl, fun _ _ _ => rfl, rfl, fun _ _ => rfl, fun _ _ _ => rfl, fun _ _ _ => rfl⟩
  | 2, _ => exact ⟨7, rfl, ⟨_, rfl, rfl, rfl, rfl⟩, fun _ _ => rfl, fun _ _ _ => rfl, rfl, fun _ _ => rfl, fun _ _ _ => rfl, fun _ _ _ => rfl⟩
  | 3, _ => exact ⟨7, rfl, ⟨_, rfl, rfl, rfl, rfl⟩, fun _ _ => rfl, fun _ _ _ => rfl, rfl, fun _ _ => rfl, fun _ _ _ => rfl, fun _ _ _ => rfl⟩
  | 4, _ => exact ⟨1, rfl, ⟨_, rfl, rfl, rfl, rfl⟩, fun _ _ => rfl, fun _ _ _ => rfl, rfl, fun _ _ => rfl, fun _ _ _ => rfl, fun _ _ _ => rfl⟩
  | 5, _ => exact ⟨1, rfl, ⟨_, rfl, rfl, rfl, rfl⟩, fun _ _ => rfl, fun _ _ _ => rfl, rfl, fun _ _ => rfl, fun _ _ _ => rfl, fun _ _ _ => rfl⟩

/-- A write to a register that only stores does nothing, or stores its writable bits. -/
theorem sysWrite_plain {off rw : Nat} (h : PlainReg off rw) (s : State) (m : Master) (d v : Nat) :
    s.sysWrite m d off v = s ∨ s.sysWrite m d off v = s.setRegN d off (Nat.land v rw + (s.regN d off - Nat.land (s.regN d off) rw)) := by
  obtain ⟨r, hr, rfl, hrwg, hw1c⟩ := h.row
  have hhost : (if d = 0 then s.hostWrite off v else none) = none := by
    split
    · exact h.host s v
    · rfl
  unfold State.sysWrite
  rw [hhost, h.only, h.bell, hr, h.tdi]
  dsimp only
  rw [h.fix, h.store, if_neg (not_not_intro hrwg), if_neg (not_not_intro hw1c)]
  split
  · exact .inl rfl
  · split
    · exact .inl rfl
    · rw [if_neg (by simp)]
      split
      · exact .inl rfl
      · exact .inr rfl

/-- What a masked write leaves in bit 0 of a register whose bit 0 is writable. -/
theorem masked_even {v old rw : Nat} (hrw : rw % 2 = 1) (hv : v % 2 = 0) : (Nat.land v rw + (old - Nat.land old rw)) % 2 = 0 := by
  have h1 : (v &&& rw) % 2 = 0 := by
    have := Nat.and_mod_two_eq_one (a := v) (b := rw)
    omega
  have h2 : (old &&& rw) % 2 = old % 2 := by
    have := Nat.and_mod_two_eq_one (a := old) (b := rw)
    omega
  have hle : old &&& rw ≤ old := Nat.and_le_left
  show ((v &&& rw) + (old - (old &&& rw))) % 2 = 0
  omega

/-! ## A write that is lost to the hardware -/

/-- The log of lost writes stands in the guard's block. -/
theorem lostWrite_other (s : State) (d target reason value : Nat) (l m : Master) (e : Nat) {o : Nat} (ho : 0x40000 ≤ o ∧ o < 2 ^ 24) :
    (s.lostWrite d target reason value l m).regN e o = s.regN e o := by
  have hi : s.rf d Reg.grdLostHead 0 5 < 32 := by
    rw [State.rf, fld_eq_mod_div]
    omega
  have hlog : ∀ k, k < 4 → regKey e o ≠ regKey d (Reg.grdLostLog (s.rf d Reg.grdLostHead 0 5) k) := fun k hk =>
    State.regKey_ne ho.2 (by unfold Reg.grdLostLog; omega) (.inr (by unfold Reg.grdLostLog; omega))
  unfold State.lostWrite
  dsimp only
  rw [State.regN_setRegN_other _ _ _ _ _ _ (State.regKey_ne ho.2 (by decide) (.inr (by unfold Reg.grdLostHead; omega))),
    State.regN_setRegN_other _ _ _ _ _ _ (hlog 3 (by decide)), State.regN_setRegN_other _ _ _ _ _ _ (hlog 2 (by decide)),
    State.regN_setRegN_other _ _ _ _ _ _ (hlog 1 (by decide)), State.regN_setRegN_other _ _ _ _ _ _ (hlog 0 (by decide))]
  rfl

/-- What the log entry of a lost write reads, at the place before the head. -/
theorem lostWrite_logs (s : State) (d : Nat) {target reason value : Nat} (ht : target < 2 ^ 24) (hr : reason < 256) (hv : value < 2 ^ 32) (l m : Master) :
    let t := s.lostWrite d target reason value l m
    let i := (t.rf d Reg.grdLostHead 0 5 + 31) % 32
    t.regN d (Reg.grdLostLog i 1) = target + 2 ^ 24 * reason ∧ t.regN d (Reg.grdLostLog i 2) = value := by
  have hi : s.rf d Reg.grdLostHead 0 5 < 32 := by
    rw [State.rf, fld_eq_mod_div]
    omega
  have hhead : (s.lostWrite d target reason value l m).rf d Reg.grdLostHead 0 5 = (s.rf d Reg.grdLostHead 0 5 + 1) % 32 := by
    refine (State.rf_setRegN_same _ _ _ _ _ _).trans ?_
    rw [fld_eq_mod_div]
    omega
  dsimp only
  rw [hhead, show ((s.rf d Reg.grdLostHead 0 5 + 1) % 32 + 31) % 32 = s.rf d Reg.grdLostHead 0 5 by omega]
  unfold State.lostWrite
  dsimp only
  generalize s.rf d Reg.grdLostHead 0 5 = i at hi
  have hlog : ∀ k n, k < 4 → n < 4 → k ≠ n → regKey d (Reg.grdLostLog i k) ≠ regKey d (Reg.grdLostLog i n) := fun k n hk hn hne =>
    State.regKey_ne (by unfold Reg.grdLostLog; omega) (by unfold Reg.grdLostLog; omega) (.inr (by unfold Reg.grdLostLog; omega))
  have hend : ∀ k, k < 4 → regKey d (Reg.grdLostLog i k) ≠ regKey d Reg.grdLostHead := fun k hk =>
    State.regKey_ne (by unfold Reg.grdLostLog; omega) (by decide) (.inr (by unfold Reg.grdLostLog Reg.grdLostHead; omega))
  refine ⟨?_, ?_⟩
  · rw [State.regN_setRegN_other _ _ _ _ _ _ (hend 1 (by decide)), State.regN_setRegN_other _ _ _ _ _ _ (hlog 1 3 (by decide) (by decide) (by decide)),
      State.regN_setRegN_other _ _ _ _ _ _ (hlog 1 2 (by decide) (by decide) (by decide)), State.regN_setRegN_same, Nat.mod_eq_of_lt ht, Nat.mod_eq_of_lt (by omega)]
  · rw [State.regN_setRegN_other _ _ _ _ _ _ (hend 2 (by decide)), State.regN_setRegN_other _ _ _ _ _ _ (hlog 2 3 (by decide) (by decide) (by decide)),
      State.regN_setRegN_same, Nat.mod_eq_of_lt hv]

/-- A write to an engine's control register comes from a master that is no virtual function. -/
theorem regTarget_engine {w : RegWrite} {d u : Nat} (hu : u < 6) (h : regTarget w = (d, engineCtrl u)) :
    isVf w.master = false ∧ w.die = d ∧ w.off / 4 * 4 = engineCtrl u := by
  have hlo : 0x40000 ≤ engineCtrl u ∧ engineCtrl u < 0x100000 := by
    unfold engineCtrl Reg.meCtrl Reg.veCtrl
    split <;> omega
  unfold regTarget at h
  dsimp only at h
  split at h
  · exfalso
    split at h
    · have := (Prod.mk.inj h).2
      unfold Reg.mbData at this
      omega
    · have := (Prod.mk.inj h).2
      unfold Reg.mbBell at this
      omega
    · have := (Prod.mk.inj h).2
      omega
  · next hvf => exact ⟨by simpa using hvf, (Prod.mk.inj h).1, (Prod.mk.inj h).2⟩

/-- The write of an even value to an engine's control register does nothing or stores an even value. -/
theorem regWrite1_engine (t : State) {w : RegWrite} {d u : Nat} (hu : u < 6) (hvf : isVf w.master = false) (hd : w.die = d) (ho : w.off / 4 * 4 = engineCtrl u)
    (hv : w.value.toNat % 2 = 0) : ∃ x, x % 2 = 0 ∧ (t.regWrite1 w = t ∨ t.regWrite1 w = t.setRegN d (engineCtrl u) x) := by
  obtain ⟨rw', hrw, hplain⟩ := engineCtrl_plain hu
  have hsys := fun m => sysWrite_plain hplain t m d w.value.toNat
  refine ⟨_, masked_even (old := t.regN d (engineCtrl u)) hrw hv, ?_⟩
  unfold State.regWrite1
  split
  · exact .inl rfl
  · split
    · next n hm => exact absurd (hm ▸ hvf) (by simp [isVf])
    · rw [hd, ho]
      split
      · exact hsys _
      · exact .inl rfl

/-! ## What a fence leaves of the units' registers -/

/-- The registers of the units, CAP_LIVE and the count of fences stay. -/
structure UnitsOn (s t : State) : Prop where
  part : t.part = s.part
  unit : ∀ d u, u ≤ 0x0F → t.regN d (Reg.rasUnit u) = s.regN d (Reg.rasUnit u)
  live : ∀ d, t.regN d Reg.rasCapLive = s.regN d Reg.rasCapLive
  ctr  : ∀ d, t.ctr d (Reg.rasCntLo 6) = s.ctr d (Reg.rasCntLo 6)

namespace UnitsOn

variable {s t u : State}

theorem refl (s : State) : UnitsOn s s := ⟨rfl, fun _ _ _ => rfl, fun _ => rfl, fun _ => rfl⟩

theorem trans (h : UnitsOn s t) (g : UnitsOn t u) : UnitsOn s u :=
  ⟨g.part.trans h.part, fun d v hv => (g.unit d v hv).trans (h.unit d v hv), fun d => (g.live d).trans (h.live d), fun d => (g.ctr d).trans (h.ctr d)⟩

theorem foldl {α : Type} {f : State → α → State} (hf : ∀ t a, UnitsOn t (f t a)) (l : List α) (s : State) : UnitsOn s (l.foldl f s) :=
  foldl_keeps (P := UnitsOn s) (fun t a h => h.trans (hf t a)) l (refl s)

theorem of_calm (h : Calm s t) : UnitsOn s t :=
  ⟨h.part, fun d u hu => h.regN d (by unfold CalmReg QuietReg Reg.rasUnit Reg.rasStatus Reg.grdStatus; omega), fun d => h.regN d (by decide),
    fun d => h.ctr d _ (by decide)⟩

theorem setRegN (s : State) (d : Nat) {o : Nat} (v : Nat) (h : o < 2 ^ 24 ∧ o ≠ Reg.rasCapLive ∧ (o < 0x170040 ∨ 0x170080 ≤ o)) : UnitsOn s (s.setRegN d o v) := by
  refine ⟨rfl, fun e u hu => State.regN_setRegN_other _ _ _ _ _ _ (State.regKey_ne (rasUnit_lt hu) h.1 (.inr ?_)),
    fun e => State.regN_setRegN_other _ _ _ _ _ _ (State.regKey_ne (by decide) h.1 (.inr h.2.1.symm)), fun _ => rfl⟩
  unfold Reg.rasUnit
  omega

theorem of_eq (hp : t.part = s.part) (hr : t.regs = s.regs) (hc : t.ctrs = s.ctrs) : UnitsOn s t :=
  ⟨hp, fun d _ _ => State.regN_congr hr hp d _, fun d => State.regN_congr hr hp d _, fun _ => State.ctr_congr hc _ _⟩

theorem ite {c : Prop} [Decidable c] (h : UnitsOn s t) (g : UnitsOn s u) : UnitsOn s (if c then t else u) := by
  split
  · exact h
  · exact g

theorem portDown (s : State) (d : Nat) : UnitsOn s (s.portDown d) := by
  obtain ⟨es, ws, e⟩ := portDown_state s d
  rw [e]
  exact (setRegN s d _ (o := Reg.ethStatus) (by decide)).trans (of_eq rfl rfl rfl)

theorem linkBits (s : State) (d : Nat) {k : Nat} (hk : k < 3) (up retraining : Bool) : UnitsOn s (s.linkBits d k up retraining) := by
  have h := linkBits_sets s d k up retraining
  exact ⟨h.part, fun e _ hu => linkBits_low s d hk _ _ e (unitReg_low hu), fun e => linkBits_low s d hk _ _ e (by decide), fun _ => State.ctr_congr h.ctrs _ _⟩

theorem linkBoth (s : State) (d k : Nat) (up retraining : Bool) : UnitsOn s (s.linkBoth d k up retraining) := by
  unfold State.linkBoth
  split
  · next e j h =>
    obtain ⟨hk, hj⟩ := farEnd_lt h
    exact (linkBits s d hk _ _).trans (linkBits _ e hj _ _)
  · exact refl s

theorem meshNote (s : State) : UnitsOn s s.meshNote := by
  obtain ⟨v, e⟩ := meshNote_state s
  rw [e]
  exact of_eq rfl rfl rfl

end UnitsOn

/-! ## Changes of the torus -/

/-- A change has been seen, and each die in service has counted its epoch. -/
def State.changeSeen (s : State) (f : ChangeFrame) : State :=
  let s := { s with torus := { s.torus with seen := s.torus.seen ++ [(f.origin, f.seq)] } }
  s.eachDie fun s d => if s.dieOut d then s else s.setRegN d Reg.rasEpoch (s.regN d Reg.rasEpoch + 1)

/-- A change that does not name this package is noted, and then only work goes on. -/
theorem change_calm {s : State} {f : ChangeFrame} (p : Option Nat) (hseen : (f.origin, f.seq) ∉ s.torus.seen)
    (hself : ¬(f.kind = 2 ∧ f.serial = (s.changeSeen f).serial)) : Calm ((s.changeSeen f).applyView f) (s.change f p) := by
  have hrest := ((Calm.floodChange ((s.changeSeen f).applyView f) f p).trans (.reroute _)).trans (.loseUnreached _)
  unfold State.change
  dsimp only
  rw [if_neg (by simpa using hseen)]
  split
  · next h => exact absurd ((Bool.and_eq_true_iff.mp h).imp of_decide_eq_true of_decide_eq_true) hself
  · split
    · exact hrest.trans (.peerFailed _ _ _)
    · split
      · exact hrest.trans (Calm.foldl _ (fun _ _ _ => .peerFailed _ _ _) _)
      · exact hrest

theorem changeSeen_units (s : State) (f : ChangeFrame) : UnitsOn s (s.changeSeen f) := by
  unfold State.changeSeen State.eachDie
  have hseen : UnitsOn s { s with torus := { s.torus with seen := s.torus.seen ++ [(f.origin, f.seq)] } } := .of_eq rfl rfl rfl
  refine hseen.trans (.foldl (fun t d => ?_) _ _)
  exact .ite (.refl t) (.setRegN t d (o := Reg.rasEpoch) _ (by decide))

theorem applyView_units (s : State) (f : ChangeFrame) : UnitsOn s (s.applyView f) :=
  .ite (.of_eq rfl rfl rfl) (.ite (.of_eq rfl rfl rfl) (.of_eq rfl rfl rfl))

theorem change_units (s : State) {f : ChangeFrame} (hk : f.kind ≠ 2) (p : Option Nat) : UnitsOn s (s.change f p) := by
  by_cases hseen : (f.origin, f.seq) ∈ s.torus.seen
  · have hskip : s.change f p = s := by
      unfold State.change
      exact if_pos (by simpa using hseen)
    rw [hskip]
    exact .refl s
  · exact ((changeSeen_units s f).trans (applyView_units _ f)).trans (.of_calm (change_calm p hseen fun h => hk h.1))

/-- A change of a link leaves the units as they are. -/
theorem originate_units (s : State) {kind : Nat} (hk : kind ≠ 2) (role subject : Nat) (side : Bool) (serial : Nat) :
    UnitsOn s (s.originate kind role subject side serial) := by
  have h0 : UnitsOn s { s with torus := { s.torus with next := (s.torus.next + 1) % 65536 } } := .of_eq rfl rfl rfl
  exact h0.trans (change_units _ (f := ⟨kind, 1, role, s.torus.next, s.selfXyz, subject, side, serial⟩) hk none)

theorem torusDown_units (s : State) (d : Nat) : UnitsOn s (s.torusDown d) := by
  unfold State.torusDown
  dsimp only
  have hdown := (UnitsOn.portDown s d).trans (UnitsOn.of_eq (t := { s.portDown d with disc := { (s.portDown d).disc with heard := without d (s.portDown d).disc.heard } }) rfl rfl rfl)
  exact .ite (hdown.trans (originate_units _ (by decide) _ _ _ _)) hdown

theorem flashGone_units (s : State) (d : Nat) : UnitsOn s (s.flashGone d) := by
  unfold State.flashGone
  dsimp only
  refine (UnitsOn.of_calm (.abandonPort s d)).trans ((UnitsOn.of_eq rfl rfl rfl).trans ((UnitsOn.setRegN _ d 0 (o := Reg.flStatus) (by decide)).trans (.of_eq rfl rfl rfl)))

theorem dieWorkLost_units (s : State) (d : Nat) : UnitsOn s (s.dieWorkLost d) := by
  have h := ((Calm.endColls s (fun c => c.d == d) 7).trans (.domainsLost _ d)).trans (.endEach _ (((s.endColls (fun c => c.d == d) 7).domainsLost d).seq.works.filter
    fun w => !w.ended && (w.on == d || ringDie w.ring == d)) 7)
  exact (UnitsOn.of_calm h).trans (.of_eq rfl rfl rfl)

theorem silence_units (s : State) : UnitsOn s (s.eachDie fun s d => (s.portDown d).modEth d fun e => { e with txq := [] }) :=
  .foldl (fun t d => (UnitsOn.portDown t d).trans (.of_calm (.modEth _ d _))) _ s

theorem hostGone_units (s : State) : UnitsOn s { s.hostDown.setRbit 0 Reg.grdStatus 0 false with hst := { s.hostDown.hst with training := false } } := by
  have hdown : UnitsOn s s.hostDown := (UnitsOn.setRegN s 0 _ (o := Reg.hstStatus) (by decide)).trans (.of_eq rfl rfl rfl)
  exact (hdown.trans (UnitsOn.setRegN s.hostDown 0 _ (o := Reg.grdStatus) (by decide))).trans (.of_eq rfl rfl rfl)

theorem packageLost_units (s : State) : UnitsOn s s.packageLost := by
  have hsent := fun (f : TxFrame) (l : List Nat) => UnitsOn.foldl (f := fun s d => s.sendFrame d f none) (fun t d => .of_calm (.sendFrame t d f none)) l s
  exact ((hsent _ _).trans (hostGone_units _)).trans (silence_units _)

/-- What a fence does besides leaves the units' registers as the fence set them. -/
theorem fenceEffect_units (s : State) (d u : Nat) : UnitsOn s (s.fenceEffect d u) := by
  unfold State.fenceEffect
  refine .ite (.of_calm ((Calm.restartUnit s d u).trans (.lastOfKind _ d u))) (.ite (.of_calm (.restartUnit s d u)) (.ite ?_ (.ite ?_ (.ite ?_ (.ite ?_ (.refl s))))))
  · exact (UnitsOn.linkBoth s d _ _ _).trans (.meshNote _)
  · exact (UnitsOn.ite (torusDown_units s d) (.portDown s d)).trans (.of_calm (.degrade _ d (fun h => absurd h (by decide)) _))
  · exact flashGone_units s d
  · exact ((UnitsOn.of_calm (.memLost s)).trans (.of_calm (.wipe _ _ _))).trans (.setRegN _ d _ (by decide))

/-! ## Units out of service -/

/-- No unit out of service comes back. -/
structure OutOn (s t : State) : Prop where
  part : t.part = s.part
  out  : ∀ d u, u ≤ 0x0F → s.unitOut d u = true → t.unitOut d u = true

theorem OutOn.refl (s : State) : OutOn s s := ⟨rfl, fun _ _ _ h => h⟩

theorem OutOn.trans {s t u : State} (h : OutOn s t) (g : OutOn t u) : OutOn s u :=
  ⟨g.part.trans h.part, fun d v hv ho => g.out d v hv (h.out d v hv ho)⟩

theorem UnitsOn.unitState {s t : State} (h : UnitsOn s t) (d : Nat) {u : Nat} (hu : u ≤ 0x0F) : t.unitState d u = s.unitState d u := by
  rw [State.unitState, State.rf, h.unit d u hu]
  rfl

theorem UnitsOn.outOn {s t : State} (h : UnitsOn s t) : OutOn s t := by
  refine ⟨h.part, fun d u hu ho => ?_⟩
  rw [State.unitOut, h.unitState d hu]
  exact ho

theorem unitThere_le {s : State} {d u : Nat} (h : s.unitThere d u = true) : u ≤ 0x0F := by
  unfold State.unitThere at h
  exact of_decide_eq_true (Bool.and_eq_true_iff.mp h).1

theorem unitThere_congr {s t : State} (h : t.part = s.part) (d u : Nat) : t.unitThere d u = s.unitThere d u := by
  unfold State.unitThere
  rw [h]

theorem fenceOne_mark {s : State} {d u : Nat} (hthere : s.unitThere d u = true) (hst : s.unitState d u = 0 ∨ s.unitState d u = 2) (cause : Nat) :
    s.fenceOne d u cause = (s.fenceMark d u cause).fenceEffect d u := by
  unfold State.fenceOne
  rw [hthere]
  refine if_neg ?_
  rcases hst with h | h <;> simp [h]

theorem fenceOne_skip {s : State} {d u : Nat} (h : s.unitState d u = 1 ∨ s.unitState d u = 3) (cause : Nat) : s.fenceOne d u cause = s := by
  unfold State.fenceOne
  refine if_pos ?_
  rcases h with h | h <;> simp [h]

theorem fenceMark_outOn (s : State) {d u : Nat} (hu : u ≤ 0x0F) (cause : Nat) : OutOn s (s.fenceMark d u cause) :=
  ⟨(fenceMark_on s hu cause).part, (fenceMark_on s hu cause).out⟩

theorem unitState_cases (s : State) (d u : Nat) : (s.unitState d u = 0 ∨ s.unitState d u = 2) ∨ (s.unitState d u = 1 ∨ s.unitState d u = 3) := by
  unfold State.unitState State.rf
  rw [fld_eq_mod_div]
  omega

/-- A fence brings nothing back, and leaves the unit out of service. -/
theorem fenceOne_out (s : State) (d u cause : Nat) : OutOn s (s.fenceOne d u cause) ∧ (s.unitThere d u = true → (s.fenceOne d u cause).unitOut d u = true) := by
  by_cases hthere : s.unitThere d u = true
  · have hu := unitThere_le hthere
    rcases unitState_cases s d u with hst | hst
    · rw [fenceOne_mark hthere hst]
      have heff := (fenceEffect_units (s.fenceMark d u cause) d u).outOn
      exact ⟨(fenceMark_outOn s hu cause).trans heff, fun _ => heff.out d u hu (fenceMark_out s hu cause)⟩
    · rw [fenceOne_skip hst]
      exact ⟨.refl s, fun _ => bne_iff_ne.mpr (by omega)⟩
  · have hskip : s.fenceOne d u cause = s := by
      unfold State.fenceOne
      exact if_pos (by simp [hthere])
    rw [hskip]
    exact ⟨.refl s, fun h => absurd h hthere⟩

/-- Fencing each unit of a list leaves every one that the die has out of service. -/
theorem fenceEach_out (d cause : Nat) : ∀ (l : List Nat) (s : State), OutOn s (l.foldl (fun s v => s.fenceOne d v cause) s) ∧
    ∀ v ∈ l, s.unitThere d v = true → (l.foldl (fun s v => s.fenceOne d v cause) s).unitOut d v = true := by
  intro l
  induction l with
  | nil => exact fun s => ⟨.refl s, fun _ h => absurd h (List.not_mem_nil)⟩
  | cons u l ih =>
    intro s
    obtain ⟨hon, hout⟩ := fenceOne_out s d u cause
    obtain ⟨hrest, hl⟩ := ih (s.fenceOne d u cause)
    refine ⟨hon.trans hrest, fun v hv hthere => ?_⟩
    rcases List.mem_cons.mp hv with rfl | hv
    · exact hrest.out d v (unitThere_le hthere) (hout hthere)
    · exact hl v hv ((unitThere_congr hon.part d v).trans hthere)

/-- A die fenced whole has every one of its units out of service. -/
theorem fenceDie_out {s : State} {d : Nat} (hst : s.unitState d 0x0F = 0 ∨ s.unitState d 0x0F = 2) (cause : Nat) :
    (s.fence d 0x0F cause).unitOut d 0x0F = true ∧ ∀ v, v < 0x0F → s.unitThere d v = true → (s.fence d 0x0F cause).unitOut d v = true := by
  let s1 := ((s.fenceMark d 0x0F cause).dieWorkLost d).memLost
  have h1 : OutOn (s.fenceMark d 0x0F cause) s1 := ((dieWorkLost_units _ d).trans (.of_calm (.memLost _))).outOn
  obtain ⟨hon, hout⟩ := fenceEach_out d cause (List.range 0x0F) s1
  let s2 := (List.range 0x0F).foldl (fun s v => s.fenceOne d v cause) s1
  let s3 := ((s2.degrade d 3 0x0F 0).meshNote).loseUnreached
  have h3 : OutOn s2 s3 := (((UnitsOn.of_calm (.degrade s2 d (fun h => absurd h (by decide)) _)).trans (.meshNote _)).trans (.of_calm (.loseUnreached _))).outOn
  have hend : OutOn s3 (if d = 0 then s3.packageLost else s3) := (UnitsOn.ite (packageLost_units s3) (.refl s3)).outOn
  have heq : s.fence d 0x0F cause = if d = 0 then s3.packageLost else s3 := by
    unfold State.fence
    rw [if_neg (by decide), if_neg (by rcases hst with h | h <;> simp [h])]
  rw [heq]
  have hlast := h3.trans hend
  have hpart : s1.part = s.part := h1.part.trans (fenceMark_outOn s le_rfl cause).part
  exact ⟨(hon.trans hlast).out d _ le_rfl (h1.out d _ le_rfl (fenceMark_out s le_rfl cause)),
    fun v hv hthere => hlast.out d v (by omega) (hout v (List.mem_range.mpr hv) ((unitThere_congr hpart d v).trans hthere))⟩

/-! ## The commands that fence -/

/-- A command that fences a unit, by a check, by a write or by the watchdog. -/
def Fences (c : Instr) (s : State) (d u cause : Nat) : Prop :=
  c = .unitFence ⟨d, none⟩ u cause ∧ cause ∈ unitCauses u ∨ (∃ v : W32, c = .rasFence ⟨d, none⟩ v ∧ v.toNat % 256 = u ∧ cause = 9) ∨
    c = .progressWatchdog ⟨d, none⟩ u ∧ cause = 3 ∧ u < 9 ∧ ∃ w ∈ s.seq.works, w.on = d ∧ w.engine = some u ∧ w.ended = false

theorem watchdog_hit {s : State} {d u : Nat} (hu : u < 9) (h : ∃ w ∈ s.seq.works, w.on = d ∧ w.engine = some u ∧ w.ended = false) :
    (decide (u < 9) && s.seq.works.any fun w => w.on == d && w.engine == some u && !w.ended) = true := by
  obtain ⟨w, hw, hon, heng, hend⟩ := h
  refine Bool.and_eq_true_iff.mpr ⟨decide_eq_true hu, List.any_eq_true.mpr ⟨w, hw, ?_⟩⟩
  simp [hon, heng, hend]

theorem exec_fences {c : Instr} {s : State} {d u cause : Nat} (hd : DieUp s d) (h : Fences c s d u cause) : exec c s = .next (s.fence d u cause) := by
  rcases h with ⟨rfl, hcause⟩ | ⟨v, rfl, hv, rfl⟩ | ⟨rfl, rfl, hu, hw⟩
  · refine (onDie_eq hd).trans (congrArg _ (if_pos ?_))
    exact List.contains_iff_mem.mpr hcause
  · exact (onDie_eq hd).trans (congrArg _ (by rw [← hv]; rfl))
  · refine (onDie_eq hd).trans (congrArg _ (if_pos ?_))
    exact watchdog_hit hu hw

theorem fence_skip {s : State} {d u : Nat} (h : s.unitState d u = 1 ∨ s.unitState d u = 3) (cause : Nat) : s.fence d u cause = s := by
  unfold State.fence
  by_cases hu : u = 0x0F
  · rw [if_neg (not_not_intro hu), if_pos (by rw [hu] at h; rcases h with h | h <;> simp [h])]
  · rw [if_pos hu, fenceOne_skip h]

/-- The registers that a fence of one unit sets, and the units of a die fenced whole. -/
theorem fence_does {s : State} {d u : Nat} (hthere : s.unitThere d u = true) (hst : s.unitState d u = 0 ∨ s.unitState d u = 2) (cause : Nat) :
    let n := Nat.min 15 (s.rf d (Reg.rasUnit u) 2 4 + 1)
    let t := s.fence d u cause
    t.unitOut d u = true ∧
      (u ≠ 0x0F → t.regN d (Reg.rasUnit u) = ((if 3 ≤ n then 3 else 1) + 4 * n + 256 * cause) % 2 ^ 32 ∧ t.rbit d Reg.rasCapLive u = false ∧
        t.ctr d (Reg.rasCntLo 6) = Nat.min ctrMax (s.ctr d (Reg.rasCntLo 6) + 1)) ∧
      (u = 0x0F → ∀ v, v < 0x0F → s.unitThere d v = true → t.unitOut d v = true) := by
  have hu := unitThere_le hthere
  dsimp only
  by_cases hf : u = 0x0F
  · subst hf
    obtain ⟨hself, hall⟩ := fenceDie_out hst cause
    exact ⟨hself, fun h => absurd rfl h, fun _ => hall⟩
  · have heq : s.fence d u cause = (s.fenceMark d u cause).fenceEffect d u := (if_pos hf).trans (fenceOne_mark hthere hst cause)
    have hon : UnitsOn (s.fenceRegs d u cause) (s.fence d u cause) := by
      rw [heq]
      exact (UnitsOn.of_calm (fenceMark_calm s d u cause)).trans (fenceEffect_units _ d u)
    obtain ⟨hreg, hlive, hctr⟩ := fenceRegs_unit s (d := d) hu cause
    refine ⟨hon.outOn.out d u hu (fenceRegs_out s hu cause), fun _ => ⟨(hon.unit d u hu).trans hreg, ?_, (hon.ctr d).trans hctr⟩, fun h => absurd h hf⟩
    rw [State.rbit, hon.live d]
    exact hlive

/-! ## A write that meets the fence of its engine -/

theorem engineCtrl_lt {u : Nat} (hu : u < 6) : 0x40000 ≤ engineCtrl u ∧ engineCtrl u < 0x100000 ∧ engineCtrl u % 0x10000 = 0 := by
  unfold engineCtrl Reg.meCtrl Reg.veCtrl
  split <;> omega

/-- FENCED of an engine stands in its status register, not in one that begins a page. -/
theorem fencedBit_ctrl (s : State) (d u : Nat) (b : Bool) (e : Nat) {o : Nat} (ho : o < 2 ^ 24 ∧ o % 0x10000 = 0) :
    (s.fencedBit d u b).regN e o = s.regN e o := by
  unfold State.fencedBit
  split
  · exact State.regN_setRegN_other _ _ _ _ _ _ (State.regKey_ne ho.1 (by unfold Reg.meStatus; omega) (.inr (by unfold Reg.meStatus; omega)))
  · split
    · exact State.regN_setRegN_other _ _ _ _ _ _ (State.regKey_ne ho.1 (by unfold Reg.veStatus; omega) (.inr (by unfold Reg.veStatus; omega)))
    · rfl

/-- The fence of an engine leaves its control register. -/
theorem fenceEngine_ctrl (s : State) {d u : Nat} (hu : u < 6) (cause : Nat) : (s.fence d u cause).regN d (engineCtrl u) = s.regN d (engineCtrl u) := by
  obtain ⟨hlo, hhi, hpage⟩ := engineCtrl_lt hu
  have hcalm : CalmReg (engineCtrl u) := by
    unfold CalmReg QuietReg Reg.rasStatus Reg.grdStatus
    omega
  have hregs : (s.fenceRegs d u cause).regN d (engineCtrl u) = s.regN d (engineCtrl u) := by
    have hne : ∀ o, o < 2 ^ 24 → o ≠ engineCtrl u → regKey d (engineCtrl u) ≠ regKey d o := fun o ho h => State.regKey_ne (by omega) ho (.inr h.symm)
    unfold State.fenceRegs
    exact (fencedBit_ctrl _ d u true d ⟨by omega, hpage⟩).trans ((State.regN_setRegN_other _ _ _ _ _ _ (hne Reg.rasCapLive (by decide) (by unfold Reg.rasCapLive; omega))).trans
      (State.regN_setRegN_other _ _ _ _ _ _ (hne (Reg.rasUnit u) (rasUnit_lt (by omega)) (by unfold Reg.rasUnit; omega))))
  have heq : s.fence d u cause = s.fenceOne d u cause := if_pos (by omega)
  rw [heq]
  unfold State.fenceOne
  split
  · rfl
  · have heff : (s.fenceMark d u cause).fenceEffect d u = ((s.fenceMark d u cause).restartUnit d u).lastOfKind d u := if_pos hu
    rw [heff]
    exact (((fenceMark_calm s d u cause).trans ((Calm.restartUnit _ d u).trans (.lastOfKind _ d u))).regN d hcalm).trans hregs

/-- An ENABLE that is written as its engine is fenced is lost to the hardware and logged. -/
theorem afterFence_lost {s t : State} {d u : Nat} {w : RegWrite} (hu : u < 6) (hin : s.unitOut d u = false) (hout : t.unitOut d u = true)
    (hctrl : t.regN d (engineCtrl u) = s.regN d (engineCtrl u)) (hcon : s.contends w = true) (htarget : regTarget w = (d, engineCtrl u))
    (hbit : w.value.toNat % 2 = 1) (hoff : s.rbit d (engineCtrl u) 0 = false) :
    let r := s.afterFence t d w
    let i := (r.rf d Reg.grdLostHead 0 5 + 31) % 32
    r.unitOut d u = true ∧ r.rbit d (engineCtrl u) 0 = false ∧ r.regN d (Reg.grdLostLog i 1) = engineCtrl u + 2 ^ 24 ∧
      r.regN d (Reg.grdLostLog i 2) = w.value.toNat := by
  obtain ⟨hvf, hwd, hwo⟩ := regTarget_engine hu htarget
  obtain ⟨hlo, hhi, hpage⟩ := engineCtrl_lt hu
  have hnew : (newlyOut s t d).any (fun u' => engineCtrl u' == engineCtrl u) = true := by
    refine List.any_eq_true.mpr ⟨u, List.mem_filter.mpr ⟨List.mem_range.mpr hu, ?_⟩, beq_self_eq_true _⟩
    rw [hin, hout]
    rfl
  have heq : s.afterFence t d w = (t.regWrite1 { w with value := BitVec.ofNat 32 (setBit w.value.toNat 0 (s.rbit d (engineCtrl u) 0)) }).lostWrite
      d (engineCtrl u) 1 w.value.toNat w.master .hardware := by
    unfold State.afterFence
    rw [htarget]
    refine if_pos ?_
    rw [hcon, hnew]
    simp [bit, hbit]
  have heven : (BitVec.ofNat 32 (setBit w.value.toNat 0 (s.rbit d (engineCtrl u) 0))).toNat % 2 = 0 := by
    rw [hoff, BitVec.toNat_ofNat]
    unfold setBit setFld
    rw [fld_eq_mod_div]
    simp only [Bool.false_eq_true, if_false]
    omega
  obtain ⟨x, hx, hw⟩ := regWrite1_engine t (w := { w with value := BitVec.ofNat 32 (setBit w.value.toNat 0 (s.rbit d (engineCtrl u) 0)) }) hu hvf hwd hwo heven
  have hunit : Reg.rasUnit u < 2 ^ 24 ∧ 0x100000 ≤ Reg.rasUnit u := by
    unfold Reg.rasUnit
    omega
  have hread : (t.regWrite1 { w with value := BitVec.ofNat 32 (setBit w.value.toNat 0 (s.rbit d (engineCtrl u) 0)) }).unitOut d u = true ∧
      (t.regWrite1 { w with value := BitVec.ofNat 32 (setBit w.value.toNat 0 (s.rbit d (engineCtrl u) 0)) }).rbit d (engineCtrl u) 0 = false := by
    rcases hw with hw | hw
    · rw [hw]
      refine ⟨hout, ?_⟩
      rw [State.rbit, hctrl]
      exact hoff
    · rw [hw]
      refine ⟨?_, ?_⟩
      · rw [State.unitOut, State.unitState, State.rf, State.regN_setRegN_other _ _ _ _ _ _ (State.regKey_ne hunit.1 (by omega) (.inr (by omega)))]
        exact hout
      · rw [State.rbit, State.regN_setRegN_same, bit_eq_testBit, Nat.testBit_zero]
        exact decide_eq_false (by omega)
  rw [heq]
  revert hread
  generalize t.regWrite1 { w with value := BitVec.ofNat 32 (setBit w.value.toNat 0 (s.rbit d (engineCtrl u) 0)) } = r
  intro ⟨hrout, hren⟩
  obtain ⟨hlog1, hlog2⟩ := lostWrite_logs r d (target := engineCtrl u) (reason := 1) (value := w.value.toNat) (by omega) (by decide) w.value.isLt w.master .hardware
  refine ⟨?_, ?_, hlog1, hlog2⟩
  · rw [State.unitOut, State.unitState, State.rf, lostWrite_other r d _ _ _ _ _ d ⟨by omega, hunit.1⟩]
    exact hrout
  · rw [State.rbit, lostWrite_other r d _ _ _ _ _ d ⟨hlo, by omega⟩]
    exact hren

/-! ## The return to service -/

/-- A command that gives a unit back. -/
def Returns (c : Instr) (s : State) (d u : Nat) : Prop :=
  (∃ v : W32, c = .rasReturn d v ∧ v.toNat % 256 = u) ∨ s.rbit d Reg.rasCtrl 1 = true ∧ c = .autoReturnTimer d u

theorem exec_returns {c : Instr} {s : State} {d u : Nat} (hd : DieUp s d) (h : Returns c s d u) : exec c s = .next (s.giveBack d u) := by
  rcases h with ⟨v, rfl, hv⟩ | ⟨hon, rfl⟩
  · exact (onDie_eq hd).trans (congrArg _ (by rw [hv]))
  · exact (onDie_eq hd).trans (congrArg _ (if_pos hon))

/-- What a fenced unit of a die in service does as it is given back. -/
theorem giveBack_fenced {s : State} {d u : Nat} (hu : u ≠ 0x0F) (hthere : s.unitThere d u = true) (hdie : s.dieOut d = false) (hst : s.unitState d u = 1) :
    s.giveBack d u = if (decide (9 ≤ u) && decide (u < 0x0C)) = true then s.linkBoth d (u - 9) false true
      else if u = 0x0C then { s with ras := { s.ras with passed := addNew (d, u) s.ras.passed } } else s.setRf d (Reg.rasUnit u) 0 2 2 := by
  unfold State.giveBack
  refine if_neg ?_
  simp [hu, hthere, hdie, hst]

theorem giveBack_skip {s : State} {d u : Nat} (hst : s.unitState d u ≠ 1) : s.giveBack d u = s := by
  unfold State.giveBack
  refine if_pos ?_
  simp [hst]

theorem setUnitState_does (s : State) {d u v : Nat} (hv : v < 4) : (s.setRf d (Reg.rasUnit u) 0 2 v).unitState d u = v ∧
    RegsBut s (s.setRf d (Reg.rasUnit u) 0 2 v) [regKey d (Reg.rasUnit u)] :=
  ⟨(State.rf_setRf_same s d _ 0 2 v (by decide)).trans (Nat.mod_eq_of_lt hv), (RegsBut.refl s _).setRegN (List.mem_singleton.mpr rfl) _⟩

theorem returns_does {c : Instr} {s : State} {d u : Nat} (hd : DieUp s d) (hu : u ≠ 0x0F) (hthere : s.unitThere d u = true) (hdie : s.dieOut d = false)
    (h : Returns c s d u) :
    (s.unitState d u ≠ 1 → exec c s = .next s) ∧
    (s.unitState d u = 1 → (u < 9 ∨ 0x0D ≤ u) → Does c s fun t => t.unitState d u = 2 ∧ RegsBut s t [regKey d (Reg.rasUnit u)] ∧ t.mem = s.mem) ∧
    (s.unitState d u = 1 → u = 0x0C → Does c s fun t => (d, u) ∈ t.ras.passed ∧ t.regs = s.regs ∧ t.mem = s.mem) ∧
    (∀ e j, s.unitState d u = 1 → 9 ≤ u → u < 0x0C → s.farEnd d (u - 9) = some (e, j) → Does c s fun t => t.mem = s.mem ∧
      t.rbit d (Reg.d2dLink (u - 9)) 5 = true ∧ t.rbit e (Reg.d2dLink j) 5 = true) := by
  have hexec := exec_returns hd h
  refine ⟨fun hst => ?_, fun hst hrange => ?_, fun hst hport => ?_, fun e j hst hlo hhi hfar => ?_⟩
  · rw [hexec, giveBack_skip hst]
  · have heq : s.giveBack d u = s.setRf d (Reg.rasUnit u) 0 2 2 := by
      rw [giveBack_fenced hu hthere hdie hst, if_neg (by simp; omega), if_neg (by omega)]
    obtain ⟨hunit, hregs⟩ := setUnitState_does s (d := d) (u := u) (v := 2) (by decide)
    exact ⟨_, hexec.trans (congrArg _ heq), hunit, hregs, rfl⟩
  · have heq : s.giveBack d u = { s with ras := { s.ras with passed := addNew (d, u) s.ras.passed } } := by
      rw [giveBack_fenced hu hthere hdie hst, if_neg (by simp; omega), if_pos hport]
    exact ⟨_, hexec.trans (congrArg _ heq), mem_addNew.mpr (.inl rfl), rfl, rfl⟩
  · have heq : s.giveBack d u = s.linkBoth d (u - 9) false true := by
      rw [giveBack_fenced hu hthere hdie hst, if_pos (by simp; omega)]
    obtain ⟨hk, hj⟩ := farEnd_lt hfar
    obtain ⟨hset, hnear, hend, -⟩ := linkBoth_does hfar (farEnd_ne hd.2 hfar) hk hj false true
    exact ⟨_, hexec.trans (congrArg _ heq), hset.mem, hnear.train, hend.train⟩

/-! ## The self-test, and entering service -/

theorem selfTestEnd_does {s : State} {d u : Nat} (hd : DieUp s d) (hu : u ≤ 0x0F) :
    (∀ pass, s.unitState d u ≠ 2 → exec (.selfTestEnd d u pass) s = .next s) ∧
    (s.unitState d u = 2 → (Does (.selfTestEnd d u true) s fun t => (d, u) ∈ t.ras.passed ∧ t.regs = s.regs ∧ t.mem = s.mem) ∧
      Does (.selfTestEnd d u false) s fun t => t.unitState d u = 1 ∧ t.ras = s.ras ∧ t.mem = s.mem) := by
  refine ⟨fun pass hst => (onDie_eq hd).trans (congrArg _ (if_pos (by simp [hst]))), fun hst => ?_⟩
  have hgo : ¬ ((decide (0x0F < u) || decide (s.unitState d u ≠ 2)) = true) := by
    simp [hst]
    omega
  refine ⟨⟨_, (onDie_eq hd).trans (congrArg _ ((if_neg hgo).trans (if_pos rfl))), mem_addNew.mpr (.inl rfl), rfl, rfl⟩, ?_⟩
  exact ⟨_, (onDie_eq hd).trans (congrArg _ ((if_neg hgo).trans (if_neg (by decide)))), (setUnitState_does s (by decide)).1, rfl, rfl⟩

/-- A unit that enters service reads active and live, and has passed no more. -/
theorem enterService_does (s : State) {d u : Nat} (hu : u ≤ 0x0F) :
    (s.enterService d u).unitState d u = 0 ∧ (s.enterService d u).rbit d Reg.rasCapLive u = true ∧ (d, u) ∉ (s.enterService d u).ras.passed := by
  let s0 : State := { s with ras := { s.ras with passed := without (d, u) s.ras.passed } }
  let s1 := s0.setRf d (Reg.rasUnit u) 0 2 0
  let s2 := s1.setRbit d Reg.rasCapLive u true
  let s3 := s2.fencedBit d u false
  have hcalm : Calm s3 (s.enterService d u) := unitEvent_calm s3 d u 0x12 _
  have hunit : regKey d (Reg.rasUnit u) ≠ regKey d Reg.rasCapLive := State.regKey_ne (rasUnit_lt hu) (by decide) (.inr (by unfold Reg.rasUnit Reg.rasCapLive; omega))
  refine ⟨(hcalm.unitState d hu).trans ?_, (hcalm.rbit d (by decide) u).trans ?_, ?_⟩
  · have h3 : s3.unitState d u = s1.unitState d u := by
      refine (congrArg (fld · 0 2) (fencedBit_regN s2 d u false d ⟨?_, rasUnit_lt hu⟩)).trans (State.rf_setRegN_other s1 _ _ _ _ _ 0 2 hunit)
      unfold Reg.rasUnit
      omega
    exact h3.trans (setUnitState_does s0 (by decide)).1
  · refine (congrArg (bit · u) (fencedBit_regN s2 d u false d (o := Reg.rasCapLive) (by decide))).trans ?_
    exact State.rbit_setRbit_same s1 d Reg.rasCapLive u true (by omega)
  · rw [hcalm.ras]
    have hras : s3.ras = s0.ras := (congrArg State.ras (fencedBit_sets s2 d u false).frame :)
    dsimp only
    rw [hras]
    exact fun h => (without_sub.mp h).2 rfl

theorem serviceEntry_does {s : State} {d u : Nat} (hd : DieUp s d) (hu : u ≤ 0x0F) :
    ((d, u) ∉ s.ras.passed → exec (.serviceEntry d u) s = .next s) ∧
    ((d, u) ∈ s.ras.passed → Does (.serviceEntry d u) s fun t => t.unitState d u = 0 ∧ t.rbit d Reg.rasCapLive u = true ∧ (d, u) ∉ t.ras.passed) := by
  refine ⟨fun hno => (onDie_eq hd).trans (congrArg _ (if_neg ?_)), fun hin => ⟨_, (onDie_eq hd).trans (congrArg _ (if_pos ?_)), enterService_does s hu⟩⟩
  · exact fun h => hno (List.contains_iff_mem.mp h)
  · exact List.contains_iff_mem.mpr hin

end Sys2Proof.Machine

open Sys2Proof Sys2Proof.Machine

/-- Settles O60: a fence sets its unit's registers and no later step of it brings a unit back; the write that meets it is lost and logged. -/
theorem fencing : Obligations.Fencing := by
  unfold Obligations.Fencing
  refine ⟨fun s d u cause hd => ⟨fun c hc => ⟨exec_fences hd hc, fun hthere hst => ?_, fun hst => ?_⟩, fun hcause => ?_, fun w => ⟨fun hcause => ?_, fun v hv => ?_,
    fun hu hw => ?_, fun hu hcause hin hcon htarget hbit hoff => ?_⟩⟩, fun s d u hd hu hthere hdie => ⟨fun c hc => returns_does hd hu hthere hdie hc, fun hoff => ?_⟩,
    fun s d u hd hu => ?_⟩
  · exact ⟨_, exec_fences hd hc, fence_does hthere hst cause⟩
  · rw [exec_fences hd hc, fence_skip hst]
  · exact (onDie_eq hd).trans (congrArg _ (if_neg fun h => hcause (List.contains_iff_mem.mp h)))
  · exact (onDie_eq hd).trans (congrArg (fun t => Host.Outcome.next (s.afterFence t d w)) (if_pos (List.contains_iff_mem.mpr hcause)))
  · exact (onDie_eq hd).trans (congrArg _ (by rw [← hv]; rfl))
  · exact (onDie_eq hd).trans (congrArg (fun t => Host.Outcome.next (s.afterFence t d w)) (if_pos (watchdog_hit hu hw)))
  · have hthere : s.unitThere d u = true := by
      unfold State.unitThere
      simp only [Bool.and_eq_true, Bool.or_eq_true, decide_eq_true_eq]
      omega
    have hst : s.unitState d u = 0 := by
      simpa [State.unitOut] using hin
    refine ⟨_, (onDie_eq hd).trans (congrArg (fun t => Host.Outcome.next (s.afterFence t d w)) (if_pos (List.contains_iff_mem.mpr hcause))), ?_⟩
    exact afterFence_lost hu hin (fence_does hthere (.inl hst) cause).1 (fenceEngine_ctrl s hu cause) hcon htarget hbit hoff
  · exact (onDie_eq hd).trans (congrArg _ (if_neg (by rw [hoff]; decide)))
  · exact ⟨(selfTestEnd_does hd hu).1, (selfTestEnd_does hd hu).2, (serviceEntry_does hd hu).1, (serviceEntry_does hd hu).2⟩

end

/-! PROOF. Changes of the torus, and packages declared failed. -/

section

namespace Sys2Proof.Machine

open Sys2Proof

/-! ## A change that is seen -/

theorem changeSeen_sets (s : State) (f : ChangeFrame) :
    SetsRegs { s with torus := { s.torus with seen := s.torus.seen ++ [(f.origin, f.seq)] } } (s.changeSeen f) := by
  unfold State.changeSeen State.eachDie
  refine SetsRegs.foldl (fun t d => ?_) _ _
  split
  · exact .refl t
  · exact .setRegN t d _ _

theorem changeSeen_torus (s : State) (f : ChangeFrame) : (s.changeSeen f).torus = { s.torus with seen := s.torus.seen ++ [(f.origin, f.seq)] } := by
  have h := (changeSeen_sets s f).frame
  exact (congrArg State.torus h :)

theorem epochUp_regsBut (t : State) (d : Nat) :
    RegsBut t (if t.dieOut d then t else t.setRegN d Reg.rasEpoch (t.regN d Reg.rasEpoch + 1)) [regKey d Reg.rasEpoch] := by
  split
  · exact .refl t _
  · exact (RegsBut.refl t _).setRegN (List.mem_singleton.mpr rfl) _

theorem changeSeen_regN (s : State) (f : ChangeFrame) (e : Nat) {o : Nat} (ho : o < 2 ^ 24) (hne : o ≠ Reg.rasEpoch) :
    (s.changeSeen f).regN e o = s.regN e o :=
  eachDie_regN_other (f := fun s d => if s.dieOut d then s else s.setRegN d Reg.rasEpoch (s.regN d Reg.rasEpoch + 1)) ho (by decide) hne epochUp_regsBut
    { s with torus := { s.torus with seen := s.torus.seen ++ [(f.origin, f.seq)] } } e

/-- Each die in service counts the epoch of a change. -/
theorem changeSeen_epoch (s : State) (f : ChangeFrame) {e : Nat} (he : e < s.part.dies) (hout : s.dieOut e = false) :
    (s.changeSeen f).regN e Reg.rasEpoch = (s.regN e Reg.rasEpoch + 1) % 2 ^ 32 := by
  have hother : ∀ (t : State) (d e o : Nat), e ≠ d → o < 2 ^ 24 →
      (if t.dieOut d then t else t.setRegN d Reg.rasEpoch (t.regN d Reg.rasEpoch + 1)).regN e o = t.regN e o := fun t d e o he ho =>
    (epochUp_regsBut t d).regN (by simpa using State.regKey_ne ho (by decide) (.inl he))
  refine eachDie_each (f := fun s d => if s.dieOut d then s else s.setRegN d Reg.rasEpoch (s.regN d Reg.rasEpoch + 1))
    (B := fun t d => t.regN d Reg.rasEpoch = s.regN d Reg.rasEpoch ∧ t.dieOut d = s.dieOut d)
    (A := fun t d => s.dieOut d = false → t.regN d Reg.rasEpoch = (s.regN d Reg.rasEpoch + 1) % 2 ^ 32)
    (fun t d ht hin => ?_) (fun t d e he h hin => (hother t d e _ he (by decide)).trans (h hin)) (fun t d e he h => ?_)
    (s := { s with torus := { s.torus with seen := s.torus.seen ++ [(f.origin, f.seq)] } }) (fun d => ⟨rfl, rfl⟩) he hout
  · rw [if_neg (by rw [ht.2, hin]; decide), State.regN_setRegN_same, ht.1]
  · refine ⟨(hother t d e _ he (by decide)).trans h.1, Eq.trans ?_ h.2⟩
    exact congrArg (fun v => fld v 0 2 != 0) (hother t d e (Reg.rasUnit 0x0F) he (by decide))

theorem applyView_sets (s : State) (f : ChangeFrame) : (s.applyView f).regs = s.regs ∧ (s.applyView f).part = s.part := by
  unfold State.applyView
  dsimp only
  split
  · exact ⟨rfl, rfl⟩
  · split
    · exact ⟨rfl, rfl⟩
    · exact ⟨rfl, rfl⟩

/-- Whom a change speaks of: the package at its coordinates, or one beside the torus. -/
def frameWhom (f : ChangeFrame) : Nat := if f.side then 2 ^ 14 else f.subject

/-- What a change that does not name this package leaves: the change is seen and noted, epochs are counted, and only work goes on. -/
structure ChangeDone (s t : State) (f : ChangeFrame) : Prop where
  seen   : (f.origin, f.seq) ∈ t.torus.seen
  next   : t.torus.next = s.torus.next
  down   : f.kind = 0 → (frameWhom f, f.role) ∈ t.torus.down
  up     : f.kind = 1 → (frameWhom f, f.role) ∉ t.torus.down
  failed : f.kind = 2 → (frameWhom f, f.serial) ∈ t.torus.failed
  reg    : ∀ e o, CalmReg o → o ≠ Reg.rasEpoch → t.regN e o = s.regN e o
  epoch  : ∀ e, e < s.part.dies → s.dieOut e = false → t.regN e Reg.rasEpoch = (s.regN e Reg.rasEpoch + 1) % 2 ^ 32

theorem applyView_torus (s : State) (f : ChangeFrame) : (s.applyView f).torus.seen = s.torus.seen ∧ (s.applyView f).torus.next = s.torus.next ∧
    (f.kind = 0 → (frameWhom f, f.role) ∈ (s.applyView f).torus.down) ∧ (f.kind = 1 → (frameWhom f, f.role) ∉ (s.applyView f).torus.down) ∧
    (f.kind = 2 → (frameWhom f, f.serial) ∈ (s.applyView f).torus.failed) := by
  unfold State.applyView frameWhom
  dsimp only
  split
  · next h => exact ⟨rfl, rfl, fun _ => mem_addNew.mpr (.inl rfl), fun h1 => by omega, fun h2 => by omega⟩
  · split
    · exact ⟨rfl, rfl, fun h0 => by omega, fun _ h => (without_sub.mp h).2 rfl, fun h2 => by omega⟩
    · exact ⟨rfl, rfl, fun h0 => by omega, fun h1 => by omega, fun _ => mem_addNew.mpr (.inl rfl)⟩

theorem serial_changeSeen (s : State) (f : ChangeFrame) : (s.changeSeen f).serial = s.serial := by
  unfold State.serial State.regPair
  rw [changeSeen_regN s f 0 (by decide) (by decide), changeSeen_regN s f 0 (by decide) (by decide)]

theorem change_does {s : State} {f : ChangeFrame} (p : Option Nat) (hseen : (f.origin, f.seq) ∉ s.torus.seen)
    (hself : ¬(f.kind = 2 ∧ f.serial = s.serial)) : ChangeDone s (s.change f p) f := by
  have hcalm := change_calm p hseen (by rw [serial_changeSeen]; exact hself)
  obtain ⟨hs, hn, hd, hu, hf⟩ := applyView_torus (s.changeSeen f) f
  have htorus := changeSeen_torus s f
  have hreg : ∀ e o, CalmReg o → (s.change f p).regN e o = (s.changeSeen f).regN e o := fun e o ho =>
    (hcalm.regN e ho).trans (State.regN_congr (applyView_sets _ f).1 (applyView_sets _ f).2 e o)
  refine ⟨?_, ?_, fun h => ?_, fun h => ?_, fun h => ?_, fun e o ho hne => (hreg e o ho).trans (changeSeen_regN s f e ho.1.1 hne),
    fun e he hout => (hreg e _ (by decide)).trans (changeSeen_epoch s f he hout)⟩
  · rw [hcalm.torus, hs, htorus]
    exact List.mem_append_right _ (List.mem_singleton.mpr rfl)
  · rw [hcalm.torus, hn, htorus]
  · rw [hcalm.torus]
    exact hd h
  · rw [hcalm.torus]
    exact hu h
  · rw [hcalm.torus]
    exact hf h

theorem change_skip {s : State} {f : ChangeFrame} (p : Option Nat) (h : (f.origin, f.seq) ∈ s.torus.seen) : s.change f p = s := by
  unfold State.change
  exact if_pos (by simpa using h)

/-! ## Links of the torus that go down and come up -/

theorem discValid_congr {s t : State} (h : t.regN 0 Reg.genDiscStatus = s.regN 0 Reg.genDiscStatus) : t.discValid = s.discValid := by
  unfold State.discValid State.rf
  rw [h]

theorem selfXyz_congr {s t : State} (h : t.regN 0 Reg.whlCoord = s.regN 0 Reg.whlCoord) : t.selfXyz = s.selfXyz := by
  unfold State.selfXyz
  rw [h]

/-- A change of its own link that the package originates. -/
theorem originate_link {s : State} {kind : Nat} (role : Nat) (hk : kind ≠ 2) (hseen : (s.selfXyz, s.torus.next) ∉ s.torus.seen) :
    let t := s.originate kind role s.selfXyz false s.serial
    (∀ e, t.portUp e = s.portUp e) ∧ (kind = 0 → (s.selfXyz, role) ∈ t.torus.down) ∧ (kind = 1 → (s.selfXyz, role) ∉ t.torus.down) ∧
      t.torus.next = (s.torus.next + 1) % 65536 ∧ (s.selfXyz, s.torus.next) ∈ t.torus.seen := by
  have h := change_does (s := { s with torus := { s.torus with next := (s.torus.next + 1) % 65536 } })
    (f := ⟨kind, 1, role, s.torus.next, s.selfXyz, s.selfXyz, false, s.serial⟩) none hseen (fun h => hk h.1)
  exact ⟨fun e => congrArg (bit · 0) (h.reg e Reg.ethStatus (by decide) (by decide)), h.down, h.up, h.next, h.seen⟩

theorem torusLinkDown_does {s : State} {d : Nat} (hd : DieUp s d) (hport : d < s.part.torusPorts) (hvalid : s.discValid = true)
    (hseen : (s.selfXyz, s.torus.next) ∉ s.torus.seen) (hdown : (s.selfXyz, d) ∉ s.torus.down) :
    Does (.torusLinkDown d) s fun t => t.portUp d = false ∧ (s.selfXyz, d) ∈ t.torus.down ∧
      t.torus.next = (s.torus.next + 1) % 65536 ∧ (s.selfXyz, s.torus.next) ∈ t.torus.seen := by
  obtain ⟨es, ws, hstate⟩ := portDown_state s d
  have hregs := portDown_regsBut s d
  let u : State := { s.portDown d with disc := { (s.portDown d).disc with heard := without d (s.portDown d).disc.heard } }
  have htorus : u.torus = s.torus := (congrArg State.torus hstate :)
  have hxyz : u.selfXyz = s.selfXyz := selfXyz_congr (hregs.regN (by simpa using State.regKey_ne (by decide) (by decide) (.inr (by decide))))
  have hdisc : u.discValid = s.discValid := discValid_congr (hregs.regN (by simpa using State.regKey_ne (by decide) (by decide) (.inr (by decide))))
  have heq : s.torusDown d = u.originate 0 d u.selfXyz false u.serial := by
    refine if_pos ?_
    show (u.discValid && !u.torus.down.contains (u.selfXyz, d)) = true
    rw [hdisc, hvalid, htorus, hxyz]
    simpa using hdown
  obtain ⟨hup, hin, -, hnext, hsee⟩ := originate_link (s := u) (kind := 0) d (by decide) (by rw [hxyz, htorus]; exact hseen)
  rw [hxyz, htorus] at hnext hsee
  rw [hxyz] at hin
  refine ⟨_, (onDie_eq hd).trans (congrArg _ ((if_pos hport).trans heq)), (hup d).trans (portUp_portDown s d), ?_, ?_, ?_⟩
  · rw [hxyz]; exact hin rfl
  · rw [hxyz]; exact hnext
  · rw [hxyz]; exact hsee

/-- The parts of the state that the queues and links of a port do not hold. -/
theorem modEth_frame (s : State) (d : Nat) (f : Eth → Eth) : (s.modEth d f).regs = s.regs ∧ (s.modEth d f).part = s.part ∧ (s.modEth d f).torus = s.torus := by
  obtain ⟨l, h⟩ := modEth_state s d f
  rw [h]
  exact ⟨rfl, rfl, rfl⟩

theorem modWire_frame (s : State) (d k : Nat) (f : Link → Link) : (s.modWire d k f).regs = s.regs ∧ (s.modWire d k f).part = s.part ∧ (s.modWire d k f).torus = s.torus := by
  obtain ⟨l, h⟩ := modWire_state s d k f
  rw [h]
  exact ⟨rfl, rfl, rfl⟩

/-- The port's status as its link comes up, and its latched settings. -/
def State.linkReady (s : State) (d : Nat) : State :=
  let s := s.latchEth d
  let s := s.modEth d fun e => { e with failed := [], floor := 0 }
  s.modWire d 0 fun _ => Link.idle d 0

theorem linkReady_frame (s : State) (d : Nat) : (s.linkReady d).regs = s.regs ∧ (s.linkReady d).part = s.part ∧ (s.linkReady d).torus = s.torus := by
  obtain ⟨hr, hp, ht⟩ := modEth_frame s d fun e => { e with eff := [s.regN d Reg.ethCtrl, s.regN d Reg.ethMacLo, s.regN d Reg.ethMacHi, s.regN d Reg.ethMaxfrm] }
  obtain ⟨hr2, hp2, ht2⟩ := modEth_frame (s.latchEth d) d fun e => { e with failed := [], floor := 0 }
  obtain ⟨hr3, hp3, ht3⟩ := modWire_frame ((s.latchEth d).modEth d fun e => { e with failed := [], floor := 0 }) d 0 fun _ => Link.idle d 0
  exact ⟨hr3.trans (hr2.trans hr), hp3.trans (hp2.trans hp), ht3.trans (ht2.trans ht)⟩

theorem ximelCtl_calm (s : State) (d kind width group etype : Nat) : Calm s (s.ximelCtl d kind width group etype) := by
  unfold State.ximelCtl
  exact (Calm.modWire s d 0 _).trans (.sendFrame _ d _ _)

theorem bit_zero_mod (v : Nat) : bit (v % 2 ^ 32) 0 = bit v 0 := by
  rw [bit_eq_testBit, bit_eq_testBit, Nat.testBit_zero, Nat.testBit_zero, Nat.mod_mod_of_dvd v (by decide)]

/-- What a link that comes up leaves: the port reads up; the torus and every calm register but the port's status stay. -/
theorem linkUpNow_does (s : State) (d : Nat) : (s.linkUpNow d).torus = s.torus ∧ (s.linkUpNow d).portUp d = true ∧
    ∀ e o, CalmReg o → o ≠ Reg.ethStatus → (s.linkUpNow d).regN e o = s.regN e o := by
  obtain ⟨hr, hp, ht⟩ := linkReady_frame s d
  let v := setFld (setFld (setFld ((s.linkReady d).regN d Reg.ethStatus) 0 2 1) 2 2 3) 4 8 0xFF
  let u := (s.linkReady d).setRegN d Reg.ethStatus v
  have hcalm : Calm u (s.linkUpNow d) := Calm.ite (ximelCtl_calm u d 7 0 0 _) (.refl u)
  have hv : bit v 0 = true := by
    have h1 : bit v 0 = bit (setFld ((s.linkReady d).regN d Reg.ethStatus) 0 2 1) 0 :=
      (bit_setFld_other _ 4 8 _ 0 (.inl (by decide))).trans (bit_setFld_other _ 2 2 _ 0 (.inl (by decide)))
    rw [h1, bit_eq_fld, fld_setFld_low _ _ _ _ _ (by decide)]
    rfl
  refine ⟨hcalm.torus.trans ht, (hcalm.portUp d).trans ?_, fun e o ho hne => (hcalm.regN e ho).trans
    ((State.regN_setRegN_other _ _ _ _ _ _ (State.regKey_ne ho.1.1 (by decide) (.inr hne))).trans (State.regN_congr hr hp e o))⟩
  exact (congrArg (bit · 0) (State.regN_setRegN_same (s.linkReady d) d Reg.ethStatus v)).trans ((bit_zero_mod v).trans hv)

/-- A port held out only because it came up late joins. -/
def State.lateJoin (s : State) (d : Nat) : State :=
  if !s.rbit 0 Reg.genDiscStatus (16 + d) && !s.rbit 0 Reg.genDiscStatus (24 + d) then s.eachDie fun s e => s.setRbit e Reg.genDiscStatus (8 + d) false else s

theorem lateJoin_does (s : State) {d : Nat} (hd : d < 8) : (s.lateJoin d).torus = s.torus ∧ (s.lateJoin d).discValid = s.discValid ∧
    ∀ e o, o < 2 ^ 24 → o ≠ Reg.genDiscStatus → (s.lateJoin d).regN e o = s.regN e o := by
  unfold State.lateJoin
  split
  · refine ⟨(congrArg State.torus (SetsRegs.foldl (fun t e => .setRbit t e _ _ _) _ s).frame :), congrArg (· == 2) ?_, fun e o ho hne => ?_⟩
    · refine foldl_keeps (P := fun t : State => t.rf 0 Reg.genDiscStatus 0 2 = s.rf 0 Reg.genDiscStatus 0 2) (fun t e h => Eq.trans ?_ h) _ rfl
      by_cases he0 : e = 0
      · rw [he0]
        exact State.rf_setRf_other t 0 _ _ 0 2 (by omega) (.inl (by omega))
      · exact State.rf_setRegN_other t _ _ _ _ _ 0 2 (State.regKey_ne (by decide) (by decide) (.inl (Ne.symm he0)))
    · exact eachDie_regN_other (off := Reg.genDiscStatus) ho (by decide) hne (fun t e => (RegsBut.refl t _).setRegN (List.mem_singleton.mpr rfl) _) s e
  · exact ⟨rfl, rfl, fun _ _ _ _ => rfl⟩

theorem torusPorts_le (p : Part) : p.torusPorts ≤ 8 := by cases p <;> decide

/-- A port that comes up and joins reads up; the torus, the coordinates and the state of discovery stay. -/
theorem linkJoin_does (s : State) {d : Nat} (hd : d < 8) : let v := ((s.linkUpNow d).loseFrames).lateJoin d
    v.torus = s.torus ∧ v.portUp d = true ∧ v.discValid = s.discValid ∧ v.selfXyz = s.selfXyz := by
  obtain ⟨ht0, hup0, hr0⟩ := linkUpNow_does s d
  have hlose := Calm.loseFrames (s.linkUpNow d)
  obtain ⟨ht, hdv, hr⟩ := lateJoin_does ((s.linkUpNow d).loseFrames) hd
  have hreg : ∀ o, CalmReg o → o ≠ Reg.ethStatus → ((s.linkUpNow d).loseFrames).regN 0 o = s.regN 0 o := fun o ho hne => (hlose.regN 0 ho).trans (hr0 0 o ho hne)
  refine ⟨ht.trans (hlose.torus.trans ht0), (congrArg (bit · 0) (hr d Reg.ethStatus (by decide) (by decide))).trans ((hlose.portUp d).trans hup0),
    hdv.trans (discValid_congr (hreg _ (by decide) (by decide))), selfXyz_congr ((hr 0 _ (by decide) (by decide)).trans (hreg _ (by decide) (by decide)))⟩

theorem torusLinkUp_does {s : State} {d : Nat} (hd : DieUp s d) (hport : d < s.part.torusPorts) (hvalid : s.discValid = true)
    (hseen : (s.selfXyz, s.torus.next) ∉ s.torus.seen) (hdown : (s.selfXyz, d) ∈ s.torus.down) (hoff : s.portUp d = false) (hmay : s.portMayUp d = true) :
    Does (.torusLinkUp d) s fun t => t.portUp d = true ∧ (s.selfXyz, d) ∉ t.torus.down ∧ t.torus.next = (s.torus.next + 1) % 65536 ∧
      (s.selfXyz, s.torus.next) ∈ t.torus.seen := by
  let v := ((s.linkUpNow d).loseFrames).lateJoin d
  obtain ⟨hvt, hvup, hdisc, hxyz⟩ := linkJoin_does s (hport.trans_le (torusPorts_le s.part))
  have hbody : (if v.discValid && v.torus.down.contains (v.selfXyz, d) then v.originate 1 d v.selfXyz false v.serial else v) =
      v.originate 1 d v.selfXyz false v.serial := by
    refine if_pos ?_
    rw [hdisc, hvalid, hvt, hxyz]
    simpa using hdown
  have heq : exec (.torusLinkUp d) s = .next (v.originate 1 d v.selfXyz false v.serial) := by
    refine (onDie_eq hd).trans (congrArg _ ?_)
    have hu : (if s.portUp d then s else (s.linkUpNow d).loseFrames) = (s.linkUpNow d).loseFrames := if_neg (by rw [hoff]; decide)
    rw [if_neg (by simp [hport, hmay]), ← hbody, hu]
    rfl
  obtain ⟨hup, -, hnot, hnext, hsee⟩ := originate_link (s := v) (kind := 1) d (by decide) (by rw [hxyz, hvt]; exact hseen)
  refine ⟨_, heq, (hup d).trans hvup, ?_, ?_, ?_⟩
  · rw [← hxyz]; exact hnot rfl
  · rw [hnext, hvt]
  · rw [← hxyz, ← hvt]; exact hsee

/-! ## A package that is declared failed -/

/-- A die's registers, as work ends, stay; so does the part. -/
abbrev SameRegs (s t : State) : Prop := t.regs = s.regs ∧ t.part = s.part

theorem scramble_sameRegs (s : State) (a len : Nat) : SameRegs s (s.scramble a len) := ⟨State.write_regs _ _ _ _, State.write_part _ _ _ _⟩

theorem endColl_sameRegs (s : State) (id status : Nat) : SameRegs s (s.endColl id status) := by
  unfold State.endColl
  split
  · exact ⟨rfl, rfl⟩
  · split
    · exact foldl_keeps (f := fun t (r : Nat × Nat) => t.scramble r.1 r.2) (P := SameRegs s)
        (fun t r h => ⟨(scramble_sameRegs t r.1 r.2).1.trans h.1, (scramble_sameRegs t r.1 r.2).2.trans h.2⟩) _ ⟨rfl, rfl⟩
    · exact ⟨rfl, rfl⟩

theorem endColls_sameRegs (s : State) (pick : Coll → Bool) (status : Nat) : SameRegs s (s.endColls pick status) :=
  foldl_keeps (P := SameRegs s) (fun t _ h => ⟨(endColl_sameRegs t _ _).1.trans h.1, (endColl_sameRegs t _ _).2.trans h.2⟩) _ ⟨rfl, rfl⟩

theorem endWorks_sameRegs (s : State) (l : List Work) (status : Nat) : SameRegs s (l.foldl (fun s w => s.endStatus w.id status) s) :=
  foldl_keeps (f := fun (s : State) (w : Work) => s.endStatus w.id status) (P := SameRegs s) (fun _ _ h => ⟨h.1, h.2⟩) l ⟨rfl, rfl⟩

theorem unitEvent_posts (s : State) (d u code : Nat) (payload : List Byte) : Posts s (s.unitEvent d u code payload) := by
  unfold State.unitEvent
  split
  · next p hp =>
    obtain ⟨v, -, hv⟩ := Option.bind_eq_some_iff.mp hp
    exact .event s (Calm.ownerOf_lt hv) _ _ _ _
  · exact .eventAll s _ _ _ _

/-- RAS_STATUS stays through the fence of a unit. -/
theorem fenceMark_status (s : State) {d u : Nat} (hu : u ≤ 0x0F) (cause : Nat) (e i : Nat) : (s.fenceMark d u cause).rbit e Reg.rasStatus i = s.rbit e Reg.rasStatus i := by
  have hpost : (s.fenceMark d u cause).reg e Reg.rasStatus = (s.fenceRegs d u cause).reg e Reg.rasStatus :=
    (unitEvent_posts (s.fenceRegs d u cause) d u 0x11 _).reg e Reg.rasStatus (by decide)
  have hregs := fenceRegs_other s (d := d) hu cause (e := e) (o := Reg.rasStatus) (by decide) (.inr (by unfold Reg.rasStatus Reg.rasUnit; omega)) (.inr (by decide))
  rw [State.rbit, State.regN, hpost]
  exact congrArg (bit · i) hregs

/-- The ports of a package go down and drop what they had to send. -/
def State.silence (s : State) : State := s.eachDie fun s d => (s.portDown d).modEth d fun e => { e with txq := [] }

theorem silenceDie_regsBut (t : State) (d : Nat) : RegsBut t ((t.portDown d).modEth d fun e => { e with txq := [] }) [regKey d Reg.ethStatus] := by
  obtain ⟨es, h⟩ := modEth_state (t.portDown d) d fun e => { e with txq := [] }
  rw [h]
  exact (portDown_regsBut t d).congr rfl rfl

theorem silence_does (s : State) : (∀ e, e < s.part.dies → s.silence.portUp e = false) ∧ (∀ e o, o < 2 ^ 24 → o ≠ Reg.ethStatus → s.silence.regN e o = s.regN e o) ∧
    s.silence.engs = s.engs ∧ s.silence.xfers = s.xfers ∧ s.silence.lists = s.lists := by
  refine ⟨fun e he => ?_, fun e o ho hne => eachDie_regN_other ho (by decide) hne silenceDie_regsBut s e, ?_⟩
  · refine eachDie_each (A := fun t d => t.portUp d = false) (B := fun _ _ => True) (fun t d _ => ?_) (fun t d e he h => ?_) (fun _ _ _ _ _ => trivial) (fun _ => trivial) he
    · obtain ⟨es, h⟩ := modEth_state (t.portDown d) d fun e => { e with txq := [] }
      rw [h]
      exact portUp_portDown t d
    · exact (congrArg (bit · 0) ((silenceDie_regsBut t d).regN (by simpa using State.regKey_ne (by decide) (by decide) (.inl he)))).trans h
  · refine foldl_keeps (P := fun t : State => t.engs = s.engs ∧ t.xfers = s.xfers ∧ t.lists = s.lists) (fun t d h => ?_) _ ⟨rfl, rfl, rfl⟩
    obtain ⟨es, ws, hdown⟩ := portDown_state t d
    obtain ⟨es', h'⟩ := modEth_state (t.portDown d) d fun e => { e with txq := [] }
    rw [h', hdown]
    exact h

/-- What a package does that is declared failed. -/
theorem declaredFailed_does (s : State) : let t := s.declaredFailed
    t.rbit 0 Reg.rasStatus 3 = true ∧ t.unitOut 0 0x0F = true ∧ t.engs = [] ∧ t.xfers = [] ∧ t.lists = [] ∧ ∀ e, e < s.part.dies → t.portUp e = false := by
  let s1 := s.setRbit 0 Reg.rasStatus 3 true
  let s2 := if s1.dieOut 0 then s1 else s1.fenceMark 0 0x0F 0xA
  let s3 := s2.endColls (fun _ => true) 7
  let s4 := (s3.seq.works.filter fun w => !w.ended).foldl (fun s w => s.endStatus w.id 7) s3
  let s5 : State := { s4 with engs := [], lists := [], xfers := [] }
  have h1 : s1.rbit 0 Reg.rasStatus 3 = true := State.rbit_setRbit_same s 0 _ 3 true (by decide)
  have h2 : s2.rbit 0 Reg.rasStatus 3 = true ∧ s2.unitOut 0 0x0F = true ∧ s2.part = s.part := by
    by_cases hout : s1.dieOut 0 = true
    · have he : s2 = s1 := if_pos hout
      rw [he]
      exact ⟨h1, hout, rfl⟩
    · have he : s2 = s1.fenceMark 0 0x0F 0xA := if_neg hout
      rw [he]
      exact ⟨(fenceMark_status s1 le_rfl _ 0 3).trans h1, fenceMark_out s1 le_rfl _, (fenceMark_on s1 le_rfl _).part⟩
  obtain ⟨hr3, hp3⟩ := endColls_sameRegs s2 (fun _ => true) 7
  obtain ⟨hr4, hp4⟩ := endWorks_sameRegs s3 (s3.seq.works.filter fun w => !w.ended) 7
  have hreg : ∀ o, s5.regN 0 o = s2.regN 0 o := fun o => State.regN_congr (hr4.trans hr3) (hp4.trans hp3) 0 o
  obtain ⟨hports, hregs, heng, hx, hl⟩ := silence_does s5
  have hpart : s5.part = s.part := (hp4.trans hp3).trans h2.2.2
  refine ⟨?_, ?_, heng, hx, hl, fun e he => hports e (by rw [hpart]; exact he)⟩
  · exact (congrArg (bit · 3) ((hregs 0 Reg.rasStatus (by decide) (by decide)).trans (hreg _))).trans h2.1
  · exact (congrArg (fun v => fld v 0 2 != 0) ((hregs 0 (Reg.rasUnit 0x0F) (by decide) (by decide)).trans (hreg _))).trans h2.2.1

/-- A change that names this package ends its work and silences it. -/
theorem change_self {s : State} {f : ChangeFrame} (p : Option Nat) (hseen : (f.origin, f.seq) ∉ s.torus.seen) (hk : f.kind = 2) (hserial : f.serial = s.serial) :
    ∃ u : State, s.change f p = u.declaredFailed ∧ u.part = s.part := by
  have hsame : f.serial = (s.changeSeen f).serial := hserial.trans (serial_changeSeen s f).symm
  have hpart : (s.changeSeen f).part = s.part := (changeSeen_sets s f).part
  unfold State.change
  dsimp only
  rw [if_neg (by simpa using hseen)]
  split
  · split
    · have hcalm := Calm.foldl (f := fun s d => s.sendFrame d (changeTx (decide (s.part.torusPorts ≤ d)) f) none) ((s.changeSeen f).changePorts 2)
        (fun t d _ => .sendFrame t d _ none) (s.changeSeen f)
      exact ⟨_, rfl, hcalm.part.trans hpart⟩
    · exact ⟨_, rfl, hpart⟩
  · next h => exact absurd (Bool.and_eq_true_iff.mpr ⟨decide_eq_true hk, decide_eq_true hsame⟩) h

/-! ## Change frames that arrive -/

/-- The frame that a command of its kind takes: a reserved kind stays, any other is the command's. -/
def frameAs (k : Nat) (f : ChangeFrame) : ChangeFrame := { f with kind := if 3 ≤ f.kind then f.kind else k }

/-- A frame that arrives at a package that serves is taken from the port, and applied where its kind is not reserved. -/
theorem changeIn_eq {s : State} {d : Nat} (hstatus : s.rbit 0 Reg.rasStatus 3 = false) (hout : s.dieOut 0 = false) (f : ChangeFrame) :
    s.changeIn d f = if 3 ≤ f.kind then s.takeRx d 0x88B9 else (s.takeRx d 0x88B9).change f (some d) := by
  obtain ⟨l, h⟩ := modEth_state s d fun e =>
    match e.rx.findIdx? fun x => x.1 == 0x88B9 with
    | some i => { e with rx := e.rx.take i ++ e.rx.drop (i + 1) }
    | none => e
  have htake : s.takeRx d 0x88B9 = { s with eths := l } := h
  unfold State.changeIn
  rw [htake]
  by_cases hk : 3 ≤ f.kind
  · rw [if_pos hk]
    exact if_pos (by simp [hk])
  · rw [if_neg hk]
    refine if_neg ?_
    have h1 : State.rbit { s with eths := l } 0 Reg.rasStatus 3 = false := hstatus
    have h2 : State.dieOut { s with eths := l } 0 = false := hout
    simp [hk, h1, h2]

/-- The commands by which a change frame arrives, with the kind that each gives it. -/
theorem exec_changes {s : State} {d : Nat} (hd : DieUp s d) (f : ChangeFrame) : exec (.linkDown d f) s = .next (s.changeIn d (frameAs 0 f)) ∧
    exec (.linkUp d f) s = .next (s.changeIn d (frameAs 1 f)) ∧ exec (.pkgFailed d f) s = .next (s.changeIn d (frameAs 2 f)) :=
  ⟨onDie_eq hd, onDie_eq hd, onDie_eq hd⟩

theorem changeIn_drops {s : State} {d : Nat} (hstatus : s.rbit 0 Reg.rasStatus 3 = false) (hout : s.dieOut 0 = false) {f : ChangeFrame}
    (h : 3 ≤ f.kind ∨ (f.origin, f.seq) ∈ s.torus.seen) (k : Nat) : s.changeIn d (frameAs k f) = s.takeRx d 0x88B9 := by
  rw [changeIn_eq hstatus hout]
  split
  · rfl
  · next hk =>
    rcases h with h | h
    · exact absurd (h.trans_eq (if_pos h).symm) hk
    · exact change_skip _ ((Calm.modEth s d _).torus ▸ h)

/-- A frame of a kind below 3 that has not been seen is applied to the state that has taken it. -/
theorem changeIn_applies {s : State} {d : Nat} (hstatus : s.rbit 0 Reg.rasStatus 3 = false) (hout : s.dieOut 0 = false) {f : ChangeFrame} (hk : f.kind < 3)
    {k : Nat} (hk3 : k < 3) : s.changeIn d (frameAs k f) = (s.takeRx d 0x88B9).change { f with kind := k } (some d) := by
  have hframe : frameAs k f = { f with kind := k } := by
    unfold frameAs
    rw [if_neg (by omega)]
  rw [changeIn_eq hstatus hout, hframe]
  exact if_neg (Nat.not_le.mpr hk3)

theorem takeRx_calm (s : State) (d c : Nat) : Calm s (s.takeRx d c) := .modEth s d _

theorem serial_calm {s t : State} (h : Calm s t) : t.serial = s.serial := by
  unfold State.serial State.regPair
  rw [h.regN 0 (by decide), h.regN 0 (by decide)]

/-- What an arrived frame that does not name this package leaves. -/
theorem changeIn_does {s : State} {d : Nat} (hstatus : s.rbit 0 Reg.rasStatus 3 = false) (hout : s.dieOut 0 = false) {f : ChangeFrame} (hk : f.kind < 3)
    (hseen : (f.origin, f.seq) ∉ s.torus.seen) {k : Nat} (hk3 : k < 3) (hself : ¬(k = 2 ∧ f.serial = s.serial)) :
    let t := s.changeIn d (frameAs k f)
    (f.origin, f.seq) ∈ t.torus.seen ∧ (k = 0 → (frameWhom f, f.role) ∈ t.torus.down) ∧ (k = 1 → (frameWhom f, f.role) ∉ t.torus.down) ∧
      (k = 2 → (frameWhom f, f.serial) ∈ t.torus.failed) ∧
      ∀ e, e < s.part.dies → s.dieOut e = false → t.regN e Reg.rasEpoch = (s.regN e Reg.rasEpoch + 1) % 2 ^ 32 := by
  have hcalm := takeRx_calm s d 0x88B9
  have h := change_does (s := s.takeRx d 0x88B9) (f := { f with kind := k }) (some d) (by rw [hcalm.torus]; exact hseen) (by rw [serial_calm hcalm]; exact hself)
  dsimp only
  rw [changeIn_applies hstatus hout hk hk3]
  refine ⟨h.seen, h.down, h.up, h.failed, fun e he hin => ?_⟩
  rw [h.epoch e (by rw [hcalm.part]; exact he) (by rw [hcalm.dieOut]; exact hin), hcalm.regN e (by decide)]

theorem pkgFailed_self {s : State} {d : Nat} (hd : DieUp s d) (hstatus : s.rbit 0 Reg.rasStatus 3 = false) (hout : s.dieOut 0 = false) {f : ChangeFrame}
    (hk : f.kind < 3) (hseen : (f.origin, f.seq) ∉ s.torus.seen) (hserial : f.serial = s.serial) :
    Does (.pkgFailed d f) s fun t => t.rbit 0 Reg.rasStatus 3 = true ∧ t.unitOut 0 0x0F = true ∧ t.engs = [] ∧ t.xfers = [] ∧
      t.lists = [] ∧ ∀ e, e < s.part.dies → t.portUp e = false := by
  have hcalm := takeRx_calm s d 0x88B9
  obtain ⟨u, hu, hpart⟩ := change_self (s := s.takeRx d 0x88B9) (f := { f with kind := 2 }) (some d) (by rw [hcalm.torus]; exact hseen) rfl
    (by rw [serial_calm hcalm]; exact hserial)
  refine ⟨_, (exec_changes hd f).2.2, ?_⟩
  rw [changeIn_applies hstatus hout hk (by decide), hu]
  have h := declaredFailed_does u
  rw [hpart, hcalm.part] at h
  exact h

/-! ## A package that the host declares failed -/

theorem rasDeclare_self {s : State} {hi : W32} (hd : DieUp s 0) (hseen : (s.selfXyz, s.torus.next) ∉ s.torus.seen)
    (hserial : 2 ^ 32 * hi.toNat + s.regN 0 Reg.rasDeclareLo = s.serial) :
    Does (.rasDeclare hi) s fun t => t.rbit 0 Reg.rasStatus 3 = true ∧ t.unitOut 0 0x0F = true ∧ ∀ e, e < s.part.dies → t.portUp e = false := by
  obtain ⟨u, hu, hpart⟩ := change_self (s := { s with torus := { s.torus with next := (s.torus.next + 1) % 65536 } })
    (f := ⟨2, 1, 0, s.torus.next, s.selfXyz, s.selfXyz, false, s.serial⟩) none hseen rfl rfl
  have heq : s.declare hi.toNat = u.declaredFailed := by
    unfold State.declare
    dsimp only
    rw [if_pos hserial, hserial]
    exact hu
  obtain ⟨hstatus, hout, -, -, -, hports⟩ := declaredFailed_does u
  exact ⟨_, (onDie_eq hd).trans (congrArg _ heq), hstatus, hout, fun e he => hports e (by rw [hpart]; exact he)⟩

theorem rasDeclare_other {s : State} {hi : W32} (hd : DieUp s 0) (hseen : (s.selfXyz, s.torus.next) ∉ s.torus.seen) {serial : Nat}
    (hs : 2 ^ 32 * hi.toNat + s.regN 0 Reg.rasDeclareLo = serial) (hother : serial ≠ s.serial) :
    Does (.rasDeclare hi) s fun t => ((match Config.peerXyz serial with | some xyz => xyz % 2 ^ 14 | none => 2 ^ 14), serial) ∈ t.torus.failed := by
  have hdone := fun (subject : Nat) (side : Bool) => (change_does (s := { s with torus := { s.torus with next := (s.torus.next + 1) % 65536 } })
    (f := ⟨2, 1, 0, s.torus.next, s.selfXyz, subject, side, serial⟩) none hseen (fun h => hother h.2)).failed rfl
  refine ⟨_, onDie_eq hd, ?_⟩
  unfold State.declare
  dsimp only
  rw [hs, if_neg hother]
  cases Config.peerXyz serial with
  | some xyz => exact hdone (xyz % 2 ^ 14) false
  | none => exact hdone 0 true

end Sys2Proof.Machine

open Sys2Proof Sys2Proof.Machine

/-- Settles O59: a change is seen once, noted and counted by epoch, after which only work goes on; one that names this package silences it. -/
theorem torusChanges : Obligations.TorusChanges := by
  unfold Obligations.TorusChanges
  refine ⟨fun s d hd hport hvalid hseen => ⟨fun hdown => torusLinkDown_does hd hport hvalid hseen hdown, fun hdown hoff hmay =>
    torusLinkUp_does hd hport hvalid hseen hdown hoff hmay⟩, fun s d f hd hstatus hout => ⟨fun h c hc => ?_, fun hk hseen => ?_⟩,
    fun s hi hd hseen => ⟨fun h => rasDeclare_self hd hseen h, fun h => rasDeclare_other hd hseen rfl h⟩⟩
  · obtain ⟨h0, h1, h2⟩ := exec_changes hd f
    rcases hc with rfl | rfl | rfl
    · rw [h0, changeIn_drops hstatus hout h]
    · rw [h1, changeIn_drops hstatus hout h]
    · rw [h2, changeIn_drops hstatus hout h]
  · obtain ⟨h0, h1, h2⟩ := exec_changes hd f
    refine ⟨?_, ?_, fun hserial => ?_, fun hserial => pkgFailed_self hd hstatus hout hk hseen hserial⟩
    · obtain ⟨hsee, hdown, -, -, hepoch⟩ := changeIn_does (d := d) hstatus hout hk hseen (k := 0) (by decide) (fun h => absurd h.1 (by decide))
      exact ⟨_, h0, hdown rfl, hsee, hepoch⟩
    · obtain ⟨hsee, -, hup, -, hepoch⟩ := changeIn_does (d := d) hstatus hout hk hseen (k := 1) (by decide) (fun h => absurd h.1 (by decide))
      exact ⟨_, h1, hup rfl, hsee, hepoch⟩
    · obtain ⟨hsee, -, -, hfailed, -⟩ := changeIn_does (d := d) hstatus hout hk hseen (k := 2) (by decide) (fun h => hserial h.2)
      exact ⟨_, h2, hfailed rfl, hsee⟩

end

/-! PROOF. Resets: what a reset of dies reaches and what it keeps, partial resets, and the end of a reset. -/

section

namespace Sys2Proof.Machine

open Sys2Proof

/-! ## Memory outside a range left undefined -/

/-- A search skips what a filter drops, where the filter drops no member that the search would stop at. -/
theorem find?_filter_of_keeps {α : Type} {p q : α → Bool} (h : ∀ a, p a = true → q a = true) (l : List α) : (l.filter q).find? p = l.find? p := by
  rw [List.find?_filter]
  congr 1
  funext a
  cases hp : p a with
  | false => simp
  | true => simp [h a hp]

theorem wipe_byte (s : State) {a len x : Nat} (h : x < a ∨ a + len ≤ x) : (s.wipe a len).byte x = s.byte x := by
  have hout : (decide (x < a) || decide (a + len ≤ x)) = true := by
    simpa using h
  have hmem : kvFind (s.wipe a len).mem x = kvFind s.mem x :=
    (kvFind_filter (fun k => decide (k < a) || decide (a + len ≤ k)) s.mem x).trans (if_pos hout)
  have hwiped : (s.wipe a len).wipedAt x = s.wipedAt x := by
    unfold State.wipedAt
    refine congrArg (fun o : Option (Nat × Nat × Option Nat) => o.bind fun w => w.2.2) ?_
    refine (List.find?_cons_of_neg ?_).trans (find?_filter_of_keeps (fun w hw => ?_) s.wiped)
    · simp only [Bool.and_eq_true, decide_eq_true_eq]
      omega
    · simp only [Bool.and_eq_true, Bool.or_eq_true, decide_eq_true_eq] at hw ⊢
      omega
  unfold State.byte kvGet State.dflt
  rw [hmem, hwiped]

/-! ## Registers that a reset drops -/

/-- What `dropRegs` leaves of a key: whatever is another die's or kept. -/
theorem dropRegs_find (s : State) (d : Nat) (keep : Nat → Bool) (e : Nat) {off : Nat} (ho : off < 2 ^ 24) :
    kvFind (s.dropRegs d keep).regs (regKey e off) = (if e ≠ d ∨ keep off = true then kvFind s.regs (regKey e off) else none) ∧
      kvFind (s.dropRegs d keep).ctrs (regKey e off) = (if e ≠ d ∨ keep off = true then kvFind s.ctrs (regKey e off) else none) := by
  have hdiv : regKey e off / 2 ^ 24 = e := by
    unfold regKey
    omega
  have hmod : regKey e off % 2 ^ 24 = off := by
    unfold regKey
    omega
  have hstay : (decide (regKey e off / 2 ^ 24 ≠ d) || keep (regKey e off % 2 ^ 24)) = true ↔ e ≠ d ∨ keep off = true := by
    rw [hdiv, hmod, Bool.or_eq_true, decide_eq_true_eq]
  refine ⟨(kvFind_filter (fun k => decide (k / 2 ^ 24 ≠ d) || keep (k % 2 ^ 24)) s.regs _).trans ?_,
    (kvFind_filter (fun k => decide (k / 2 ^ 24 ≠ d) || keep (k % 2 ^ 24)) s.ctrs _).trans ?_⟩
  · exact if_congr hstay rfl rfl
  · exact if_congr hstay rfl rfl

theorem dropRegs_kept (s : State) {d : Nat} {keep : Nat → Bool} {e off : Nat} (ho : off < 2 ^ 24) (h : e ≠ d ∨ keep off = true) :
    (s.dropRegs d keep).reg e off = s.reg e off ∧ (s.dropRegs d keep).ctr e off = s.ctr e off := by
  obtain ⟨hr, hc⟩ := dropRegs_find s d keep e ho
  rw [if_pos h] at hr hc
  unfold State.reg State.ctr kvGet
  rw [hr, hc]
  exact ⟨rfl, rfl⟩

theorem dropRegs_reset (s : State) {d : Nat} {keep : Nat → Bool} {off : Nat} (ho : off < 2 ^ 24) (h : keep off = false) :
    (s.dropRegs d keep).reg d off = resetValue s.part d off ∧ (s.dropRegs d keep).ctr d off = 0 := by
  obtain ⟨hr, hc⟩ := dropRegs_find s d keep d ho
  rw [if_neg (by simp [h])] at hr hc
  unfold State.reg State.ctr kvGet
  rw [hr, hc]
  exact ⟨rfl, rfl⟩

/-! ## What runs on a die is gone -/

/-- The fields that the reset of a die's units does not reach. -/
structure Spared (s t : State) : Prop where
  part    : t.part = s.part
  rst     : t.rst = s.rst
  grd     : t.grd = s.grd
  log     : t.measLog = s.measLog
  tripped : t.tripped = s.tripped

theorem Spared.refl (s : State) : Spared s s := ⟨rfl, rfl, rfl, rfl, rfl⟩

theorem Spared.trans {s t u : State} (h : Spared s t) (g : Spared t u) : Spared s u :=
  ⟨g.part.trans h.part, g.rst.trans h.rst, g.grd.trans h.grd, g.log.trans h.log, g.tripped.trans h.tripped⟩

theorem Spared.foldl {α : Type} {f : State → α → State} (hf : ∀ t a, Spared t (f t a)) (l : List α) (s : State) : Spared s (l.foldl f s) :=
  foldl_keeps (P := Spared s) (fun t a h => h.trans (hf t a)) l (refl s)

theorem Spared.of_sets {s t : State} (h : SetsRegs s t) : Spared s t :=
  ⟨h.part, (congrArg State.rst h.frame :), (congrArg State.grd h.frame :), (congrArg State.measLog h.frame :), h.tripped⟩

/-- Memory and counters as they were. -/
structure SameStore (s t : State) : Prop where
  mem   : t.mem = s.mem
  wiped : t.wiped = s.wiped
  ctrs  : t.ctrs = s.ctrs

theorem SameStore.trans {s t u : State} (h : SameStore s t) (g : SameStore t u) : SameStore s u :=
  ⟨g.mem.trans h.mem, g.wiped.trans h.wiped, g.ctrs.trans h.ctrs⟩

theorem SameStore.byte {s t : State} (h : SameStore s t) (x : Nat) : t.byte x = s.byte x := State.byte_congr h.mem h.wiped x

theorem clearDie_does (s : State) (d : Nat) : Spared s (s.clearDie d) ∧ SameStore s (s.clearDie d) ∧ (s.clearDie d).regs = s.regs :=
  ⟨⟨rfl, rfl, rfl, rfl, rfl⟩, ⟨rfl, rfl, rfl⟩, rfl⟩

theorem clearPackage_does (s : State) : Spared s s.clearPackage ∧ SameStore s s.clearPackage ∧ RegsBut s s.clearPackage [regKey 0 Reg.hstStatus] :=
  ⟨⟨rfl, rfl, rfl, rfl, rfl⟩, ⟨rfl, rfl, rfl⟩, ((RegsBut.refl s _).setRegN (List.mem_singleton.mpr rfl) _).congr rfl rfl⟩

/-- The registers of the RAS block and of the engines that a warm reset sets again. -/
def warmSets : List Nat := Reg.rasStatus :: ((List.range 16).map Reg.rasUnit ++ (List.range 4).map Reg.meStatus ++ (List.range 2).map Reg.veStatus)

theorem fencedBit_regsBut (s : State) (d u : Nat) (b : Bool) : RegsBut s (s.fencedBit d u b) (warmSets.map (regKey d)) := by
  have hin : ∀ o ∈ warmSets, regKey d o ∈ warmSets.map (regKey d) := fun o ho => List.mem_map_of_mem ho
  unfold State.fencedBit
  split
  · next h =>
    exact (RegsBut.refl s _).setRbit (hin _ (List.mem_cons_of_mem _ (List.mem_append_left _ (List.mem_append_right _
      (List.mem_map_of_mem (List.mem_range.mpr h)))))) _ _
  · split
    · exact (RegsBut.refl s _).setRbit (hin _ (List.mem_cons_of_mem _ (List.mem_append_right _
        (List.mem_map_of_mem (List.mem_range.mpr (by omega)))))) _ _
    · exact .refl s _

theorem rasAfterWarm_does (s : State) (d : Nat) : SetsRegs s (s.rasAfterWarm d) ∧ RegsBut s (s.rasAfterWarm d) (warmSets.map (regKey d)) := by
  unfold State.rasAfterWarm
  have h0 : RegsBut s (s.setRegN d Reg.rasStatus (s.regN d Reg.rasStatus % 2)) (warmSets.map (regKey d)) :=
    (RegsBut.refl s _).setRegN (List.mem_map_of_mem List.mem_cons_self) _
  refine ⟨(SetsRegs.setRegN s d _ _).trans (SetsRegs.foldl (fun t u => ?_) _ _), ?_⟩
  · dsimp only
    split
    · exact .refl t
    · exact (SetsRegs.setRegN t d _ _).trans (fencedBit_sets _ d u _)
  · refine List.foldlRecOn (motive := fun t => RegsBut s t (warmSets.map (regKey d))) _ _ h0 fun t ht u hu => ?_
    dsimp only
    split
    · exact ht
    · refine (ht.setRegN ?_ _).trans (fencedBit_regsBut _ d u _)
      exact List.mem_map_of_mem (List.mem_cons_of_mem _ (List.mem_append_left _ (List.mem_append_left _ (List.mem_map_of_mem hu))))

/-! ## The reset of a die -/

/-- What a reset of a die leaves of its registers and counters. -/
structure DieReset (s t : State) (d : Nat) (cold : Bool) : Prop where
  ctr  : ∀ off, off < 2 ^ 24 → (if cold then coldKeeps off else warmKeeps off) = false → t.ctr d off = 0
  reg  : ∀ off, off < 2 ^ 24 → (if cold then coldKeeps off else warmKeeps off) = false → (cold = true ∨ off ∉ warmSets) → t.reg d off = resetValue s.part d off
  kept : ∀ off, off < 2 ^ 24 → cold = false → warmKeeps off = true → off ∉ warmSets → off ≠ Reg.hstStatus → t.reg d off = s.reg d off

/-- The registers and counters of a die stay. -/
def SameDie (s t : State) (e : Nat) : Prop := ∀ off, off < 2 ^ 24 → t.reg e off = s.reg e off ∧ t.ctr e off = s.ctr e off

theorem SameDie.trans {s t u : State} {e : Nat} (h : SameDie s t e) (g : SameDie t u e) : SameDie s u e := fun off ho =>
  ⟨(g off ho).1.trans (h off ho).1, (g off ho).2.trans (h off ho).2⟩

theorem SameDie.of_regsBut {s t : State} {ks : List Nat} (h : RegsBut s t ks) (hc : t.ctrs = s.ctrs) {d e : Nat} (hks : ∀ k ∈ ks, k / 2 ^ 24 = d) (he : e ≠ d) :
    SameDie s t e := fun off ho => by
  refine ⟨h e off fun hk => he ?_, State.ctr_congr hc _ _⟩
  have hdiv : regKey e off / 2 ^ 24 = e := by
    unfold regKey
    omega
  exact hdiv.symm.trans (hks _ hk)

/-- Whether the split mode of a die's HBM is about to change. -/
def State.splits (s : State) (d : Nat) : Bool := s.rbit d Reg.hbmCtrl 0 != s.rbit d Reg.hbmStatus 2

/-- The state of a die whose work is gone, before its registers drop. -/
def State.cleared (s : State) (d : Nat) : State := if d = 0 then (s.clearDie d).clearPackage else s.clearDie d

theorem cleared_does (s : State) (d : Nat) : Spared s (s.cleared d) ∧ SameStore s (s.cleared d) ∧ RegsBut s (s.cleared d) [regKey d Reg.hstStatus] := by
  obtain ⟨hs, hst, hr⟩ := clearDie_does s d
  unfold State.cleared
  split
  · next h =>
    obtain ⟨hs2, hst2, hr2⟩ := clearPackage_does (s.clearDie d)
    exact ⟨hs.trans hs2, hst.trans hst2, (RegsBut.of_eq hr hs.part).trans (h ▸ hr2)⟩
  · exact ⟨hs, hst, .of_eq hr hs.part⟩

/-- The state of a die with its registers dropped. -/
def State.dropped (s : State) (d : Nat) (cold : Bool) : State := if cold then s.dropRegs d coldKeeps else (s.dropRegs d warmKeeps).rasAfterWarm d

theorem resetDie_eq (s : State) (d : Nat) (cold : Bool) : s.resetDie d cold =
    if cold || s.splits d then (((s.cleared d).dropped d cold).wipe (tsBase + tsStride * d) tsSize).wipe (hbmSize * d) hbmSize
    else ((s.cleared d).dropped d cold).wipe (tsBase + tsStride * d) tsSize := rfl

theorem warmSets_keys (d : Nat) : ∀ k ∈ warmSets.map (regKey d), k / 2 ^ 24 = d := by
  intro k hk
  obtain ⟨o, ho, rfl⟩ := List.mem_map.mp hk
  have hlt : ∀ o ∈ warmSets, o < 2 ^ 24 := by decide
  have := hlt o ho
  unfold regKey
  omega

theorem regKey_mem_map {d o : Nat} {l : List Nat} (h : o ∉ l) : regKey d o ∉ l.map (regKey d) := fun hm => by
  obtain ⟨x, hx, he⟩ := List.mem_map.mp hm
  exact h (by rw [regKey_eq_iff] at he; exact he ▸ hx)

theorem dropped_does (s : State) (d : Nat) (cold : Bool) : Spared s (s.dropped d cold) ∧ (s.dropped d cold).mem = s.mem ∧ (s.dropped d cold).wiped = s.wiped ∧
    DieReset s (s.dropped d cold) d cold ∧ ∀ e, e ≠ d → SameDie s (s.dropped d cold) e := by
  cases cold with
  | true =>
    refine ⟨⟨rfl, rfl, rfl, rfl, rfl⟩, rfl, rfl, ⟨fun off ho hk => (dropRegs_reset s ho hk).2, fun off ho hk _ => (dropRegs_reset s ho hk).1,
      fun off ho h => absurd h (by decide)⟩, fun e he off ho => dropRegs_kept s ho (.inl he)⟩
  | false =>
    have hdrop : Spared s (s.dropRegs d warmKeeps) := ⟨rfl, rfl, rfl, rfl, rfl⟩
    obtain ⟨hset, hbut⟩ := rasAfterWarm_does (s.dropRegs d warmKeeps) d
    have hother : ∀ e, e ≠ d → SameDie (s.dropRegs d warmKeeps) ((s.dropRegs d warmKeeps).rasAfterWarm d) e := fun e he =>
      .of_regsBut hbut hset.ctrs (warmSets_keys d) he
    refine ⟨hdrop.trans (.of_sets hset), hset.mem, hset.wiped, ⟨fun off ho hk => ?_, fun off ho hk hn => ?_, fun off ho _ hk hn _ => ?_⟩,
      fun e he => SameDie.trans (fun off ho => dropRegs_kept s ho (.inl he)) (hother e he)⟩
    · exact (State.ctr_congr hset.ctrs _ _).trans (dropRegs_reset s ho hk).2
    · exact (hbut d off (regKey_mem_map (hn.resolve_left (by decide)))).trans (dropRegs_reset s ho hk).1
    · exact (hbut d off (regKey_mem_map hn)).trans (dropRegs_kept s ho (.inr hk)).1

theorem wipe_frame (s : State) (a len : Nat) : Spared s (s.wipe a len) ∧ (s.wipe a len).regs = s.regs ∧ (s.wipe a len).ctrs = s.ctrs :=
  ⟨⟨rfl, rfl, rfl, rfl, rfl⟩, rfl, rfl⟩

theorem DieReset.congr {s t u : State} {d : Nat} {cold : Bool} (h : DieReset s t d cold) (g : SameDie t u d) : DieReset s u d cold :=
  ⟨fun off ho hk => (g off ho).2.trans (h.ctr off ho hk), fun off ho hk hn => (g off ho).1.trans (h.reg off ho hk hn),
    fun off ho hc hk hn hh => (g off ho).1.trans (h.kept off ho hc hk hn hh)⟩

theorem SameDie.of_eq {s t : State} (hr : t.regs = s.regs) (hc : t.ctrs = s.ctrs) (hp : t.part = s.part) (e : Nat) : SameDie s t e :=
  fun off _ => ⟨State.reg_congr hr hp e off, State.ctr_congr hc e off⟩

/-- What a reset of a die reaches, and what it leaves: the guard's state, the other dies, and HBM through a warm reset that keeps its split mode. -/
theorem resetDie_does (s : State) (d : Nat) (cold : Bool) : Spared s (s.resetDie d cold) ∧ DieReset s (s.resetDie d cold) d cold ∧
    (∀ e, e ≠ d → SameDie s (s.resetDie d cold) e) ∧ (cold = false → s.splits d = false → ∀ x, x < tsBase → (s.resetDie d cold).byte x = s.byte x) := by
  obtain ⟨hs1, hst1, hr1⟩ := cleared_does s d
  obtain ⟨hs2, hm2, hw2, hreset, hother⟩ := dropped_does (s.cleared d) d cold
  obtain ⟨hs3, hr3, hc3⟩ := wipe_frame ((s.cleared d).dropped d cold) (tsBase + tsStride * d) tsSize
  obtain ⟨hs4, hr4, hc4⟩ := wipe_frame (((s.cleared d).dropped d cold).wipe (tsBase + tsStride * d) tsSize) (hbmSize * d) hbmSize
  have hspared := (hs1.trans hs2).trans hs3
  have hdrop : Spared s (s.resetDie d cold) ∧ ∀ e, SameDie ((s.cleared d).dropped d cold) (s.resetDie d cold) e := by
    rw [resetDie_eq]
    split
    · exact ⟨hspared.trans hs4, fun e => SameDie.trans (.of_eq hr3 hc3 hs3.part e) (.of_eq hr4 hc4 hs4.part e)⟩
    · exact ⟨hspared, .of_eq hr3 hc3 hs3.part⟩
  have hclear : ∀ off, off < 2 ^ 24 → off ≠ Reg.hstStatus → (s.cleared d).reg d off = s.reg d off := fun off ho hne =>
    hr1 d off (by simpa using (State.regKey_ne ho (by decide) (.inr hne) : regKey d off ≠ regKey d Reg.hstStatus))
  refine ⟨hdrop.1, ?_, fun e he => ?_, fun hcold hsplit x hx => ?_⟩
  · have h := hreset.congr (hdrop.2 d)
    exact ⟨h.ctr, fun off ho hk hn => by rw [h.reg off ho hk hn, hs1.part], fun off ho hc hk hn hh => (h.kept off ho hc hk hn hh).trans (hclear off ho hh)⟩
  · refine SameDie.trans (SameDie.trans (.of_regsBut hr1 hst1.ctrs (d := d) (fun k hk => ?_) he) (hother e he)) (hdrop.2 e)
    rw [List.mem_singleton.mp hk]
    unfold regKey Reg.hstStatus
    omega
  · rw [resetDie_eq, if_neg (by rw [hcold, hsplit]; decide)]
    exact (wipe_byte _ (.inl (by omega))).trans ((State.byte_congr hm2 hw2 x).trans (hst1.byte x))

/-! ## The start of a reset -/

/-- Only work, and what leaves the package, has changed. -/
structure WorkOnly (s t : State) : Prop where
  spared : Spared s t
  store  : SameStore s t
  regs   : t.regs = s.regs

theorem WorkOnly.trans {s t u : State} (h : WorkOnly s t) (g : WorkOnly t u) : WorkOnly s u :=
  ⟨h.spared.trans g.spared, h.store.trans g.store, g.regs.trans h.regs⟩

theorem WorkOnly.refl (s : State) : WorkOnly s s := ⟨.refl s, ⟨rfl, rfl, rfl⟩, rfl⟩

theorem WorkOnly.foldl {α : Type} {f : State → α → State} (hf : ∀ t a, WorkOnly t (f t a)) (l : List α) (s : State) : WorkOnly s (l.foldl f s) :=
  foldl_keeps (P := WorkOnly s) (fun t a h => h.trans (hf t a)) l (refl s)

theorem modWork_workOnly (s : State) (id : Nat) (f : Work → Work) : WorkOnly s (s.modWork id f) := ⟨⟨rfl, rfl, rfl, rfl, rfl⟩, ⟨rfl, rfl, rfl⟩, rfl⟩

theorem setPiece_workOnly (s : State) (id i st : Nat) : WorkOnly s (s.setPiece id i st) := ⟨⟨rfl, rfl, rfl, rfl, rfl⟩, ⟨rfl, rfl, rfl⟩, rfl⟩

theorem settleXfer_workOnly (s : State) (id : Nat) : WorkOnly s (s.settleXfer id) := by
  unfold State.settleXfer
  split
  · split
    · exact ⟨⟨rfl, rfl, rfl, rfl, rfl⟩, ⟨rfl, rfl, rfl⟩, rfl⟩
    · exact .refl s
  · exact .refl s

theorem abandonPort_workOnly (s : State) (port : Nat) : WorkOnly s (s.abandonPort port) := by
  unfold State.abandonPort
  exact .foldl (fun t z => ((modWork_workOnly t _ _).trans (setPiece_workOnly _ _ _ _)).trans (settleXfer_workOnly _ _)) _ s

/-- What the flash port of a die has outstanding is abandoned, and its drive held in reset. -/
def State.holdDrive (s : State) (d : Nat) : State :=
  if s.rbit d Reg.flCtrl 0 then (s.abandonPort d).emit (.pin "FL_DRV_RST_N" d false) else s.abandonPort d

theorem holdDrive_workOnly (s : State) (d : Nat) : WorkOnly s (s.holdDrive d) := by
  unfold State.holdDrive
  split
  · exact (abandonPort_workOnly s d).trans ⟨⟨rfl, rfl, rfl, rfl, rfl⟩, ⟨rfl, rfl, rfl⟩, rfl⟩
  · exact abandonPort_workOnly s d

/-- The dies marked in reset, and their causes. -/
def markDies (l : List (Nat × Bool)) (ds : List Nat) (cold : Bool) : List (Nat × Bool) := ds.foldl (fun l d => markDie l d cold) l

def addCause (l : List (Nat × Nat)) (ds : List Nat) (cause : Nat) : List (Nat × Nat) := ds.foldl (fun l d => kvPut l d (setBit (kvGet 0 l d) cause true)) l

theorem startReset_eq (s : State) (ds : List Nat) (cold : Bool) (cause : Nat) : s.startReset ds cold cause =
    (let t := ds.foldl (fun s d => s.resetDie d cold) (ds.foldl State.holdDrive s)
     { t with rst := { t.rst with dies := markDies t.rst.dies ds cold, causes := addCause t.rst.causes ds cause } }) := rfl

theorem markDie_any (l : List (Nat × Bool)) (d : Nat) (cold : Bool) (e : Nat) :
    ((markDie l d cold).any fun x => x.1 == e) = (decide (e = d) || l.any fun x => x.1 == e) := by
  unfold markDie
  split
  · next h =>
    have hmap : (mapIf (fun x : Nat × Bool => x.1 == d) (fun x => (d, x.2 || cold)) l).any (fun x => x.1 == e) = l.any fun x => x.1 == e := by
      unfold mapIf
      rw [List.any_map]
      congr 1
      funext x
      simp only [Function.comp]
      split
      · next hx => rw [show d = x.1 from (beq_iff_eq.mp hx).symm]
      · rfl
    rw [hmap]
    by_cases he : e = d
    · rw [he, h, decide_eq_true rfl, Bool.or_true]
    · rw [decide_eq_false he, Bool.false_or]
  · rw [List.any_append, Bool.or_comm]
    congr 1
    rw [List.any_cons, List.any_nil, Bool.or_false]
    exact decide_eq_decide.mpr eq_comm

theorem markDies_any (ds : List Nat) (cold : Bool) (e : Nat) : ∀ l : List (Nat × Bool),
    ((markDies l ds cold).any fun x => x.1 == e) = (decide (e ∈ ds) || l.any fun x => x.1 == e) := by
  induction ds with
  | nil => simp [markDies]
  | cons d ds ih =>
    intro l
    refine (ih (markDie l d cold)).trans ?_
    rw [markDie_any, ← Bool.or_assoc]
    congr 1
    simp only [List.mem_cons, Bool.decide_or]
    exact Bool.or_comm _ _

theorem kvGet_kvPut {α : Type} (dflt : α) (l : List (Nat × α)) (k x : Nat) (v : α) : kvGet dflt (kvPut l k v) x = if x = k then v else kvGet dflt l x := by
  unfold kvGet
  split
  · next h => rw [h, kvFind_kvPut_same, Option.getD_some]
  · next h => rw [kvFind_kvPut_other _ _ _ _ h]

/-- A cause is among those of each die that the reset reaches, and no cause is lost. -/
theorem addCause_bit (ds : List Nat) (cause i : Nat) (e : Nat) : ∀ l : List (Nat × Nat),
    bit (kvGet 0 (addCause l ds cause) e) i = (decide (e ∈ ds ∧ i = cause) || bit (kvGet 0 l e) i) := by
  induction ds with
  | nil => simp [addCause]
  | cons d ds ih =>
    intro l
    refine (ih _).trans ?_
    rw [kvGet_kvPut]
    by_cases hd : e = d
    · rw [if_pos hd, bit_setBit, hd]
      by_cases hi : i = cause
      · simp [hi]
      · simp [hi]
    · rw [if_neg hd]
      simp [hd]

/-- What a reset of some dies leaves. -/
structure Started (s t : State) (ds : List Nat) (cold : Bool) (cause : Nat) : Prop where
  part    : t.part = s.part
  grd     : t.grd = s.grd
  log     : t.measLog = s.measLog
  tripped : t.tripped = s.tripped
  off     : t.rst.off = s.rst.off
  marked  : ∀ e, t.inReset e = (decide (e ∈ ds) || s.inReset e)
  causes  : ∀ e i, bit (kvGet 0 t.rst.causes e) i = (decide (e ∈ ds ∧ i = cause) || bit (kvGet 0 s.rst.causes e) i)
  dies    : ∀ d ∈ ds, DieReset s t d cold
  others  : ∀ e, e ∉ ds → SameDie s t e
  hbm     : cold = false → (∀ d ∈ ds, s.splits d = false) → ∀ x, x < tsBase → t.byte x = s.byte x

/-- A die whose registers stay reads as it did when a reset of it is described from there. -/
theorem DieReset.from {s t u : State} {d : Nat} {cold : Bool} (h : DieReset t u d cold) (g : SameDie s t d) (hp : t.part = s.part) : DieReset s u d cold :=
  ⟨h.ctr, fun off ho hk hn => by rw [h.reg off ho hk hn, hp], fun off ho hc hk hn hh => (h.kept off ho hc hk hn hh).trans (g off ho).1⟩

theorem splits_congr {s t : State} {d : Nat} (h : SameDie s t d) : t.splits d = s.splits d := by
  unfold State.splits State.rbit State.regN
  rw [(h Reg.hbmCtrl (by decide)).1, (h Reg.hbmStatus (by decide)).1]

theorem resetEach_spared (ds : List Nat) (cold : Bool) (s : State) : Spared s (ds.foldl (fun s d => s.resetDie d cold) s) :=
  .foldl (fun t d => (resetDie_does t d cold).1) ds s

theorem resetEach_others (ds : List Nat) (cold : Bool) {e : Nat} (he : e ∉ ds) (s : State) : SameDie s (ds.foldl (fun s d => s.resetDie d cold) s) e :=
  List.foldlRecOn (motive := fun t => SameDie s t e) ds _ (fun _ _ => ⟨rfl, rfl⟩) fun t ht d hd =>
    ht.trans ((resetDie_does t d cold).2.2.1 e fun h => he (h ▸ hd))

theorem resetEach_dies {ds : List Nat} (hds : ds.Nodup) (cold : Bool) (s : State) : ∀ d ∈ ds, DieReset s (ds.foldl (fun s d => s.resetDie d cold) s) d cold :=
  foldl_each (A := fun t d => DieReset s t d cold) (B := fun t d => t.part = s.part ∧ SameDie s t d)
    (fun t d h => (resetDie_does t d cold).2.1.from h.2 h.1)
    (fun t d e he h => h.congr ((resetDie_does t d cold).2.2.1 e he))
    (fun t d e he h => ⟨(resetDie_does t d cold).1.part.trans h.1, h.2.trans ((resetDie_does t d cold).2.2.1 e he)⟩) ds hds
    (fun _ _ => ⟨rfl, fun _ _ => ⟨rfl, rfl⟩⟩)

theorem resetEach_hbm {ds : List Nat} (hds : ds.Nodup) (s : State) (h : ∀ d ∈ ds, s.splits d = false) :
    ∀ x, x < tsBase → (ds.foldl (fun s d => s.resetDie d false) s).byte x = s.byte x := by
  induction ds generalizing s with
  | nil => exact fun _ _ => rfl
  | cons d ds ih =>
    obtain ⟨hnot, hds⟩ := List.nodup_cons.mp hds
    obtain ⟨-, -, hother, hbyte⟩ := resetDie_does s d false
    intro x hx
    refine (ih hds (s.resetDie d false) (fun e he => ?_) x hx).trans (hbyte rfl (h d List.mem_cons_self) x hx)
    rw [splits_congr (hother e fun hed => hnot (hed ▸ he))]
    exact h e (List.mem_cons_of_mem _ he)

theorem startReset_does (s : State) {ds : List Nat} (hds : ds.Nodup) (cold : Bool) (cause : Nat) : Started s (s.startReset ds cold cause) ds cold cause := by
  have hwork := WorkOnly.foldl holdDrive_workOnly ds s
  have hsame : ∀ e, SameDie s (ds.foldl State.holdDrive s) e := .of_eq hwork.regs hwork.store.ctrs hwork.spared.part
  have hspared := resetEach_spared ds cold (ds.foldl State.holdDrive s)
  have hreset := resetEach_dies hds cold (ds.foldl State.holdDrive s)
  have hothers := fun e (he : e ∉ ds) => resetEach_others ds cold he (ds.foldl State.holdDrive s)
  have hall := hwork.spared.trans hspared
  rw [startReset_eq]
  refine ⟨hall.part, hall.grd, hall.log, hall.tripped, ?_, fun e => ?_, fun e i => ?_, fun d hd => ?_, fun e he => (hsame e).trans (hothers e he),
    fun hcold hsplit x hx => ?_⟩
  · exact (congrArg Rst.off hall.rst :)
  · refine (markDies_any ds cold e _).trans ?_
    rw [hall.rst]
    rfl
  · refine (addCause_bit ds cause i e _).trans ?_
    rw [hall.rst]
  · have h := (hreset d hd).from (hsame d) hwork.spared.part
    exact ⟨h.ctr, h.reg, h.kept⟩
  · subst hcold
    refine (resetEach_hbm hds (ds.foldl State.holdDrive s) (fun d hd => ?_) x hx).trans (hwork.store.byte x)
    rw [splits_congr (hsame d)]
    exact hsplit d hd

/-! ## Cold resets -/

theorem coldPackage_does (s : State) : s.coldPackage.tripped = false ∧ s.coldPackage.part = s.part ∧ s.coldPackage.rst = s.rst ∧
    s.coldPackage.grd.slots = s.grd.slots ∧ s.coldPackage.grd.sticky = s.grd.sticky ∧ s.coldPackage.measLog = MeasLog.reset := by
  unfold State.coldPackage
  dsimp only
  split
  · exact ⟨rfl, rfl, rfl, rfl, rfl, rfl⟩
  · exact ⟨rfl, rfl, rfl, rfl, rfl, rfl⟩

/-- After a trip AFTER_TRIP joins the causes. -/
def State.afterTrip (s : State) (was : Bool) : State :=
  if was then { s with rst := { s.rst with causes := s.rst.causes.map fun x => (x.1, setBit x.2 6 true) } } else s

/-- The straps sampled at each die. -/
def State.sampled (s : State) (ds : List Nat) (straps : W32) : State := ds.foldl (fun s d => s.setRegN d Reg.genStraps (straps.toNat % 65536)) s

theorem coldStart_eq (s : State) (cause : Nat) (straps : W32) : s.coldStart cause straps =
    ((s.coldPackage.startReset (List.range s.part.dies) true cause).afterTrip s.tripped).sampled (List.range s.part.dies) straps := rfl

theorem kvFind_map {α : Type} (f : α → α) (l : List (Nat × α)) (k : Nat) :
    kvFind (l.map fun x => (x.1, f x.2)) k = (kvFind l k).map f := by
  induction l with
  | nil => rfl
  | cons x l ih =>
    obtain ⟨y, v⟩ := x
    show (if y = k then some (f v) else kvFind (l.map fun x => (x.1, f x.2)) k) = (if y = k then some v else kvFind l k).map f
    split
    · rfl
    · exact ih

theorem afterTrip_does (s : State) (was : Bool) : (s.afterTrip was).rst.off = s.rst.off ∧ (s.afterTrip was).rst.dies = s.rst.dies ∧
    (s.afterTrip was).regs = s.regs ∧ (s.afterTrip was).ctrs = s.ctrs ∧ (s.afterTrip was).part = s.part ∧ (s.afterTrip was).grd = s.grd ∧
    (s.afterTrip was).measLog = s.measLog ∧ (s.afterTrip was).tripped = s.tripped ∧
    ∀ e i, bit (kvGet 0 s.rst.causes e) i = true → bit (kvGet 0 (s.afterTrip was).rst.causes e) i = true ∧
      (was = true → bit (kvGet 0 (s.afterTrip was).rst.causes e) 6 = true) := by
  cases was with
  | false => exact ⟨rfl, rfl, rfl, rfl, rfl, rfl, rfl, rfl, fun e i h => ⟨h, fun h => absurd h (by decide)⟩⟩
  | true =>
    refine ⟨rfl, rfl, rfl, rfl, rfl, rfl, rfl, rfl, fun e i h => ?_⟩
    have hmap := kvFind_map (fun v => setBit v 6 true) s.rst.causes e
    cases hf : kvFind s.rst.causes e with
    | none =>
      unfold kvGet at h
      rw [hf] at h
      simp [bit] at h
    | some v =>
      rw [hf] at hmap
      have hget : kvGet 0 (s.afterTrip true).rst.causes e = setBit v 6 true := by
        unfold kvGet
        exact congrArg (Option.getD · 0) hmap
      unfold kvGet at h
      rw [hf] at h
      rw [hget, bit_setBit, bit_setBit]
      refine ⟨?_, fun _ => if_pos rfl⟩
      split
      · rfl
      · exact h

theorem sampled_does (s : State) {ds : List Nat} (hds : ds.Nodup) (straps : W32) : SetsRegs s (s.sampled ds straps) ∧
    (∀ d ∈ ds, (s.sampled ds straps).regN d Reg.genStraps = straps.toNat % 65536) ∧
    ∀ e off, off < 2 ^ 24 → off ≠ Reg.genStraps → (s.sampled ds straps).reg e off = s.reg e off := by
  refine ⟨.foldl (fun t d => .setRegN t d _ _) ds s, ?_, fun e off ho hne => ?_⟩
  · refine foldl_each (A := fun t d => t.regN d Reg.genStraps = straps.toNat % 65536) (B := fun _ _ => True) (fun t d _ => ?_) (fun t d e he h => ?_)
      (fun _ _ _ _ _ => trivial) ds hds fun _ _ => trivial
    · rw [State.regN_setRegN_same]
      omega
    · exact (State.regN_setRegN_other _ _ _ _ _ _ (State.regKey_ne (by decide) (by decide) (.inl he))).trans h
  · exact foldl_keeps (P := fun t : State => t.reg e off = s.reg e off)
      (fun t d h => (State.reg_setReg_other _ _ _ _ _ _ (State.regKey_ne ho (by decide) (.inr hne))).trans h) ds rfl

/-- What a cold start leaves. -/
structure ColdStarted (s t : State) (cause straps : Nat) : Prop where
  tripped : t.tripped = false
  slots   : t.grd.slots = s.grd.slots
  sticky  : t.grd.sticky = s.grd.sticky
  log     : t.measLog = MeasLog.reset
  dies    : ∀ d, d < s.part.dies → t.inReset d = true ∧ bit (kvGet 0 t.rst.causes d) cause = true ∧
    (s.tripped = true → bit (kvGet 0 t.rst.causes d) 6 = true) ∧ t.regN d Reg.genStraps = straps % 65536 ∧
    (∀ off, off < 2 ^ 24 → off ≠ Reg.grdFuseSvn → t.ctr d off = 0) ∧
    ∀ off, off < 2 ^ 24 → off ≠ Reg.genStraps → off ≠ Reg.grdFuseSvn → t.reg d off = resetValue s.part d off

theorem coldStart_does (s : State) (cause : Nat) (straps : W32) :
    ColdStarted s (s.coldStart cause straps) cause straps.toNat ∧ (s.coldStart cause straps).rst.off = s.rst.off := by
  obtain ⟨ht, hp, hrst, hslots, hsticky, hlog⟩ := coldPackage_does s
  have hstart := startReset_does s.coldPackage (ds := List.range s.part.dies) List.nodup_range true cause
  obtain ⟨hoff, hdies, hregs, hctrs, hpart, hgrd, hml, htr, hcauses⟩ := afterTrip_does (s.coldPackage.startReset (List.range s.part.dies) true cause) s.tripped
  obtain ⟨hset, hstraps, hother⟩ := sampled_does ((s.coldPackage.startReset (List.range s.part.dies) true cause).afterTrip s.tripped)
    (ds := List.range s.part.dies) List.nodup_range straps
  rw [coldStart_eq]
  have hsp := Spared.of_sets hset
  refine ⟨⟨hsp.tripped.trans (htr.trans (hstart.tripped.trans ht)), ?_, ?_, hsp.log.trans (hml.trans (hstart.log.trans hlog)), fun d hd => ?_⟩, ?_⟩
  rotate_right
  · rw [hsp.rst, hoff, hstart.off, hrst]
  · rw [hsp.grd, hgrd, hstart.grd, hslots]
  · rw [hsp.grd, hgrd, hstart.grd, hsticky]
  · have hmem : d ∈ List.range s.part.dies := List.mem_range.mpr hd
    have hreset := hstart.dies d hmem
    obtain ⟨hcause, htrip⟩ := hcauses d cause (by rw [hstart.causes]; simp [hd])
    have hkeep : ∀ off, off ≠ Reg.grdFuseSvn → (if (true : Bool) then coldKeeps off else warmKeeps off) = false := fun off hne =>
      (if_pos rfl).trans (beq_eq_false_iff_ne.mpr hne)
    refine ⟨?_, ?_, fun hs => ?_, hstraps d hmem, fun off ho hne => ?_, fun off ho h1 h2 => ?_⟩
    · unfold State.inReset
      rw [hsp.rst, hdies]
      exact (hstart.marked d).trans (by simp [hd])
    · rw [hsp.rst]
      exact hcause
    · rw [hsp.rst]
      exact htrip hs
    · exact (State.ctr_congr hset.ctrs _ _).trans ((State.ctr_congr hctrs _ _).trans (hreset.ctr off ho (hkeep off hne)))
    · refine (hother d off ho h1).trans ((State.reg_congr hregs hpart d off).trans ((hreset.reg off ho (hkeep off h2) (.inl rfl)).trans ?_))
      rw [hp]

theorem coldCommand_does {s : State} {c : Instr} {cause : Nat} {straps : W32} (hc : c = .powerOn straps ∧ cause = 0 ∨
    s.rst.off = false ∧ c = .coldReset true straps ∧ cause = 1 ∨ s.rst.off = false ∧ c = .coldReset false straps ∧ cause = 2) :
    ∃ t, exec c s = .next t ∧ ColdStarted s t cause straps.toNat ∧ t.rst.off = false := by
  rcases hc with ⟨rfl, rfl⟩ | ⟨hoff, rfl, rfl⟩ | ⟨hoff, rfl, rfl⟩
  · have hp := (coldStart_does s 0 straps).1
    exact ⟨_, rfl, ⟨hp.tripped, hp.slots, hp.sticky, hp.log, hp.dies⟩, rfl⟩
  · obtain ⟨hp, hsame⟩ := coldStart_does s 1 straps
    exact ⟨s.coldStart 1 straps, congrArg Host.Outcome.next (if_neg (by rw [hoff]; decide)), hp, hsame.trans hoff⟩
  · obtain ⟨hp, hsame⟩ := coldStart_does s 2 straps
    exact ⟨s.coldStart 2 straps, congrArg Host.Outcome.next (if_neg (by rw [hoff]; decide)), hp, hsame.trans hoff⟩

theorem pwrgoodFall_does (s : State) : Does .pwrgoodFall s fun t => t.rst.off = true ∧ t.tripped = false ∧ ∀ d, d < s.part.dies → t.inReset d = true := by
  obtain ⟨ht, hp, hrst, -, -, -⟩ := coldPackage_does s.flashLost
  have hstart := startReset_does s.flashLost.coldPackage (ds := List.range s.part.dies) List.nodup_range true 0
  refine ⟨_, rfl, rfl, ?_, fun d hd => ?_⟩
  · exact hstart.tripped.trans ht
  · exact (hstart.marked d).trans (by simp [hd])

theorem guardColdReset_does {s : State} {d : Nat} (hs : s.tripped = false) (hreq : s.grd.resetReq = some (0, d)) : Does .guardResetDelay s fun t =>
    ∀ e, e < s.part.dies → t.inReset e = true ∧ bit (kvGet 0 t.rst.causes e) 2 = true ∧ t.regN e Reg.genStraps = s.regN 0 Reg.genStraps % 65536 := by
  refine ⟨({ s with grd := { s.grd with resetReq := none } } : State).coldStart 2 (s.reg 0 Reg.genStraps), (live_eq hs).trans (congrArg _ ?_), fun e he => ?_⟩
  · rw [hreq]
    rfl
  · obtain ⟨hin, hcause, -, hstraps, -, -⟩ := (coldStart_does ({ s with grd := { s.grd with resetReq := none } } : State) 2 (s.reg 0 Reg.genStraps)).1.dies e he
    exact ⟨hin, hcause, hstraps⟩

end Sys2Proof.Machine

open Sys2Proof Sys2Proof.Machine

/-- Settles O49: a cold start drops every register of every die but the fuses, whatever starts it. -/
theorem coldResets : Obligations.ColdResets := by
  unfold Obligations.ColdResets
  refine ⟨fun s c cause straps hc => ?_, fun s pin straps hoff => congrArg _ (if_pos hoff), pwrgoodFall_does, fun s hs hreq => ?_,
    fun s d hs hreq => guardColdReset_does hs hreq, fun s => rfl⟩
  · obtain ⟨t, ht, h, hoff⟩ := coldCommand_does hc
    exact ⟨t, ht, h.tripped, hoff, h.slots, h.sticky, h.log, h.dies⟩
  · refine (live_eq hs).trans (congrArg _ ?_)
    rw [hreq]

end

/-! PROOF. Warm resets, the end of a reset, and resets of parts of the package. -/

section

namespace Sys2Proof.Machine

open Sys2Proof

/-! ## Warm resets -/

theorem hbm_below (p : Part) : hbmSize * p.dies ≤ tsBase := by cases p <;> decide

theorem splits_false {s : State} {d : Nat} (h : s.rbit d Reg.hbmCtrl 0 = s.rbit d Reg.hbmStatus 2) : s.splits d = false := by
  unfold State.splits
  rw [h]
  exact bne_self_eq_false _

/-- Of the registers that a warm reset sets again, the RAS block's are among those that it keeps. -/
theorem warmSets_engines {off : Nat} (hk : warmKeeps off = false) (hme : off ∉ (List.range 4).map Reg.meStatus) (hve : off ∉ (List.range 2).map Reg.veStatus) :
    off ∉ warmSets := by
  have hras : ∀ o ∈ Reg.rasStatus :: (List.range 16).map Reg.rasUnit, warmKeeps o = true := by decide
  intro h
  unfold warmSets at h
  rcases List.mem_cons.mp h with h | h
  · exact absurd (hras off (h ▸ List.mem_cons_self)) (by rw [hk]; decide)
  · rcases List.mem_append.mp h with h | h
    · rcases List.mem_append.mp h with h | h
      · exact absurd (hras off (List.mem_cons_of_mem _ h)) (by rw [hk]; decide)
      · exact hme h
    · exact hve h

theorem lowReg_kept {off : Nat} (h : lowReg off = true) : warmKeeps off = true ∧ off ∉ warmSets ∧ off ≠ Reg.hstStatus := by
  have hsets : ∀ o ∈ Reg.hstStatus :: warmSets, lowReg o = false := by decide
  have hnot : ∀ o ∈ Reg.hstStatus :: warmSets, off ≠ o := fun o ho he => absurd (hsets o ho) (by rw [← he, h]; decide)
  refine ⟨?_, fun hm => hnot off (List.mem_cons_of_mem _ hm) rfl, hnot _ List.mem_cons_self⟩
  unfold warmKeeps
  rw [h]
  rfl

/-- What a warm reset of some dies leaves of each. -/
theorem warmDie_reads {s t : State} {ds : List Nat} {cause d : Nat} (h : Started s t ds false cause) (hd : d ∈ ds) :
    t.inReset d = true ∧ bit (kvGet 0 t.rst.causes d) cause = true ∧ (∀ off, off < 2 ^ 24 → warmKeeps off = false → t.ctr d off = 0) ∧
      (∀ off, off < 2 ^ 24 → lowReg off = true → t.reg d off = s.reg d off) ∧
      ∀ off, off < 2 ^ 24 → warmKeeps off = false → off ∉ (List.range 4).map Reg.meStatus → off ∉ (List.range 2).map Reg.veStatus →
        t.reg d off = resetValue s.part d off := by
  have hdie := h.dies d hd
  refine ⟨(h.marked d).trans (by simp [hd]), (h.causes d cause).trans (by simp [hd]), fun off ho hk => hdie.ctr off ho hk, fun off ho hlow => ?_,
    fun off ho hk hme hve => hdie.reg off ho hk (.inr (warmSets_engines hk hme hve))⟩
  obtain ⟨hk, hn, hh⟩ := lowReg_kept hlow
  exact hdie.kept off ho rfl hk hn hh

theorem warmPackage_does (s : State) (cause : Nat) : let t := s.startReset (List.range s.part.dies) false cause
    (∀ d, d < s.part.dies → t.inReset d = true ∧ bit (kvGet 0 t.rst.causes d) cause = true ∧ (∀ off, off < 2 ^ 24 → warmKeeps off = false → t.ctr d off = 0) ∧
      (∀ off, off < 2 ^ 24 → lowReg off = true → t.reg d off = s.reg d off) ∧
      ∀ off, off < 2 ^ 24 → warmKeeps off = false → off ∉ (List.range 4).map Reg.meStatus → off ∉ (List.range 2).map Reg.veStatus →
        t.reg d off = resetValue s.part d off) ∧
    ((∀ d, d < s.part.dies → s.rbit d Reg.hbmCtrl 0 = s.rbit d Reg.hbmStatus 2) → ∀ x, x < hbmSize * s.part.dies → t.byte x = s.byte x) := by
  have h := startReset_does s (ds := List.range s.part.dies) List.nodup_range false cause
  exact ⟨fun d hd => warmDie_reads h (List.mem_range.mpr hd),
    fun hsplit x hx => h.hbm rfl (fun d hd => splits_false (hsplit d (List.mem_range.mp hd))) x (hx.trans_le (hbm_below s.part))⟩

/-- A warm reset of one die whose torus link is down, or that is die 0. -/
theorem warmDie_does {s : State} {d : Nat} (hoff : s.rst.off = false) (hlink : d = 0 ∨ s.part.torusPorts ≤ d ∨ s.portUp d = false) :
    let t := s.warmDie d
    t.inReset d = true ∧ bit (kvGet 0 t.rst.causes d) 5 = true ∧ (∀ e, e ≠ d → t.inReset e = s.inReset e) ∧
      (∀ e off, e ≠ d → off < 2 ^ 24 → t.reg e off = s.reg e off) ∧
      (s.rbit d Reg.hbmCtrl 0 = s.rbit d Reg.hbmStatus 2 → ∀ x, x < hbmSize * s.part.dies → t.byte x = s.byte x) := by
  have h := startReset_does s (ds := [d]) (List.nodup_singleton d) false 5
  have hend : ∃ t, s.warmDie d = t ∧ t.rst = (s.startReset [d] false 5).rst ∧ (∀ e off, e ≠ d → off < 2 ^ 24 → t.reg e off = (s.startReset [d] false 5).reg e off) ∧
      t.mem = (s.startReset [d] false 5).mem ∧ t.wiped = (s.startReset [d] false 5).wiped := by
    refine ⟨_, rfl, ?_⟩
    have hstay : (if d ≠ 0 && decide (d < s.part.torusPorts) && s.portUp d && !s.inReset 0 then s.torusDown d else s) = s := by
      refine if_neg fun hc => ?_
      simp only [Bool.and_eq_true, decide_eq_true_eq] at hc
      obtain ⟨⟨⟨hd, hport⟩, hup⟩, -⟩ := hc
      rcases hlink with h | h | h
      · exact hd h
      · omega
      · exact absurd (h.symm.trans hup) (by decide)
    unfold State.warmDie
    rw [if_neg (by rw [hoff]; decide)]
    dsimp only
    rw [hstay]
    split
    · obtain ⟨v, hv⟩ := meshNote_state (s.startReset [d] false 5)
      rw [hv]
      exact ⟨rfl, fun _ _ _ _ => rfl, rfl, rfl⟩
    · next hd =>
      have hd : d = 0 := not_not.mp hd
      split
      · refine ⟨rfl, fun e off he ho => ?_, rfl, rfl⟩
        have hkey : ∀ o, o < 2 ^ 24 → regKey e off ≠ regKey 0 o := fun o hlt => State.regKey_ne ho hlt (.inl (hd ▸ he))
        exact (State.reg_setReg_other _ _ _ _ _ _ (hkey _ (by decide))).trans (State.reg_setReg_other _ _ _ _ _ _ (hkey _ (by decide)))
      · exact ⟨rfl, fun _ _ _ _ => rfl, rfl, rfl⟩
  obtain ⟨t, ht, hrst, hreg, hmem, hwiped⟩ := hend
  dsimp only
  rw [ht]
  have hin : ∀ e, t.inReset e = (s.startReset [d] false 5).inReset e := fun e => by
    unfold State.inReset
    rw [hrst]
  refine ⟨(hin d).trans ((h.marked d).trans (by simp)), ?_, fun e he => (hin e).trans ((h.marked e).trans (by simp [he])),
    fun e off he ho => (hreg e off he ho).trans (h.others e (by simp [he]) off ho).1, fun hsplit x hx => ?_⟩
  · rw [hrst]
    exact (h.causes d 5).trans (by simp)
  · refine (State.byte_congr hmem hwiped x).trans (h.hbm rfl (fun e he => ?_) x (hx.trans_le (hbm_below s.part)))
    rw [List.mem_singleton.mp he]
    exact splits_false hsplit

theorem warmCommand_does {s : State} {c : Instr} {cause : Nat} (hs : s.tripped = false) (hoff : s.rst.off = false)
    (hc : c = .warmReset true ∧ cause = 3 ∨ c = .warmReset false ∧ cause = 4 ∨ c = .guardResetDelay ∧ cause = 4 ∧ ∃ d, s.grd.resetReq = some (1, d)) :
    exec c s = .next (s.startReset (List.range s.part.dies) false cause) ∨
      exec c s = .next (({ s with grd := { s.grd with resetReq := none } } : State).startReset (List.range s.part.dies) false cause) := by
  rcases hc with ⟨rfl, rfl⟩ | ⟨rfl, rfl⟩ | ⟨rfl, rfl, d, hreq⟩
  · exact .inl ((live_eq hs).trans (congrArg _ (if_neg (by rw [hoff]; decide))))
  · exact .inl ((live_eq hs).trans (congrArg _ (if_neg (by rw [hoff]; decide))))
  · refine .inr ((live_eq hs).trans (congrArg _ ?_))
    rw [hreq]
    rfl

theorem dieCommand_does {s : State} {c : Instr} {d : Nat} (hd : DieUp s d) (hc : c = .dieWarmReset d ∨ c = .guardResetDelay ∧ s.grd.resetReq = some (2, d)) :
    exec c s = .next (s.warmDie d) ∨ exec c s = .next (({ s with grd := { s.grd with resetReq := none } } : State).warmDie d) := by
  rcases hc with rfl | ⟨rfl, hreq⟩
  · refine .inl (congrArg Host.Outcome.next ((if_pos hd.2).trans (if_neg ?_)))
    rw [hd.live]
    decide
  · refine .inr ((live_eq hd.live).trans (congrArg _ ?_))
    rw [hreq]
    rfl

/-! ## The end of a reset -/

/-- The guard's fields of a die, written again. -/
def State.rwgAgain (s : State) (d : Nat) : State :=
  (s.grd.rwg.filter fun x => x.1 / 2 ^ 24 == d).foldl (fun s x => { s with regs := kvPut s.regs x.1 x.2 }) s

theorem kvFind_puts {l : List (Nat × W32)} (hl : (l.map Prod.fst).Nodup) : ∀ s : State,
    (∀ x ∈ l, kvFind (l.foldl (fun s x => { s with regs := kvPut s.regs x.1 x.2 }) s).regs x.1 = some x.2) ∧
      ∀ k, k ∉ l.map Prod.fst → kvFind (l.foldl (fun s x => { s with regs := kvPut s.regs x.1 x.2 }) s).regs k = kvFind s.regs k := by
  induction l with
  | nil => exact fun s => ⟨fun _ h => absurd h List.not_mem_nil, fun _ _ => rfl⟩
  | cons y l ih =>
    obtain ⟨hnot, hl⟩ := List.nodup_cons.mp hl
    intro s
    obtain ⟨hin, hout⟩ := ih hl { s with regs := kvPut s.regs y.1 y.2 }
    refine ⟨fun x hx => ?_, fun k hk => ?_⟩
    · rcases List.mem_cons.mp hx with rfl | hx
      · exact (hout x.1 hnot).trans (kvFind_kvPut_same _ _ _)
      · exact hin x hx
    · have hne : k ≠ y.1 := fun h => hk (h ▸ List.mem_cons_self)
      exact (hout k fun h => hk (List.mem_cons_of_mem _ h)).trans (kvFind_kvPut_other _ _ _ _ hne)

theorem puts_frame (l : List (Nat × W32)) (s : State) : SetsRegs s (l.foldl (fun s x => { s with regs := kvPut s.regs x.1 x.2 }) s) :=
  .foldl (fun _ _ => ⟨rfl⟩) l s

/-- The count of warm resets, where every cause is a warm one. -/
def warmCount (c n : Nat) : Nat := if c % 8 = 0 ∧ c ≠ 0 then Nat.min 0xFFFF (n + 1) else n

/-- What a die's release from reset sets of its registers. -/
structure Released (s t : State) (d : Nat) : Prop where
  cause : t.regN d Reg.genRstCause = kvGet 0 s.rst.causes d % 2 ^ 32
  count : t.regN d Reg.genWarmCount = warmCount (kvGet 0 s.rst.causes d) (s.regN d Reg.genWarmCount)
  again : ∀ x ∈ s.grd.rwg, x.1 / 2 ^ 24 = d → kvFind t.regs x.1 = some x.2

theorem kvFind_setRegN_other (s : State) {d off v k : Nat} (h : k ≠ regKey d off) : kvFind (s.setRegN d off v).regs k = kvFind s.regs k :=
  kvFind_kvPut_other _ _ _ _ h

theorem regKey_div (d : Nat) {off : Nat} (h : off < 2 ^ 24) : regKey d off / 2 ^ 24 = d ∧ regKey d off % 2 ^ 24 = off := by
  unfold regKey
  omega

theorem regN_find {s t : State} {d off : Nat} (h : kvFind t.regs (regKey d off) = kvFind s.regs (regKey d off)) (hp : t.part = s.part) :
    t.regN d off = s.regN d off := by
  unfold State.regN State.reg
  rw [h, hp]

/-- The causes and the count that a die's release writes. -/
def State.causeSet (s : State) (d : Nat) : State :=
  let c := kvGet 0 s.rst.causes d
  let s := s.setRegN d Reg.genRstCause c
  if c % 8 = 0 && c ≠ 0 then s.setRegN d Reg.genWarmCount (Nat.min 0xFFFF (s.regN d Reg.genWarmCount + 1)) else s

theorem releaseDie_eq (s : State) (d : Nat) :
    s.releaseDie d = if d = 0 then ((s.causeSet d).rwgAgain d).capUpdate else (s.causeSet d).rwgAgain d := rfl

theorem causeSet_does (s : State) (d : Nat) : SetsRegs s (s.causeSet d) ∧ (s.causeSet d).regN d Reg.genRstCause = kvGet 0 s.rst.causes d % 2 ^ 32 ∧
    (s.causeSet d).regN d Reg.genWarmCount = warmCount (kvGet 0 s.rst.causes d) (s.regN d Reg.genWarmCount) ∧
    ∀ k, k / 2 ^ 24 ≠ d → kvFind (s.causeSet d).regs k = kvFind s.regs k := by
  have hne : ∀ k off, off < 2 ^ 24 → k / 2 ^ 24 ≠ d → k ≠ regKey d off := fun k off ho hk he => hk (he ▸ (regKey_div d ho).1)
  have hcount : (s.setRegN d Reg.genRstCause (kvGet 0 s.rst.causes d)).regN d Reg.genWarmCount = s.regN d Reg.genWarmCount :=
    State.regN_setRegN_other _ _ _ _ _ _ (State.regKey_ne (by decide) (by decide) (.inr (by decide)))
  unfold State.causeSet warmCount
  dsimp only
  split
  · next h =>
    simp only [Bool.and_eq_true, decide_eq_true_eq] at h
    rw [if_pos h]
    refine ⟨(SetsRegs.setRegN s d _ _).trans (.setRegN _ d _ _), ?_, ?_, fun k hk => ?_⟩
    · exact (State.regN_setRegN_other _ _ _ _ _ _ (State.regKey_ne (by decide) (by decide) (.inr (by decide)))).trans (State.regN_setRegN_same _ _ _ _)
    · rw [State.regN_setRegN_same, hcount]
      exact Nat.mod_eq_of_lt ((Nat.min_le_left _ _).trans_lt (by decide))
    · exact (kvFind_setRegN_other _ (hne k _ (by decide) hk)).trans (kvFind_setRegN_other _ (hne k _ (by decide) hk))
  · next h =>
    simp only [Bool.and_eq_true, decide_eq_true_eq] at h
    rw [if_neg h]
    exact ⟨.setRegN s d _ _, State.regN_setRegN_same _ _ _ _, hcount, fun k hk => kvFind_setRegN_other _ (hne k _ (by decide) hk)⟩

/-- No field of the guard is one that the end of a reset writes itself. -/
def FreeOfEnd (l : List (Nat × W32)) : Prop :=
  ∀ x ∈ l, x.1 % 2 ^ 24 ≠ Reg.genRstCause ∧ x.1 % 2 ^ 24 ≠ Reg.genWarmCount ∧ x.1 % 2 ^ 24 ≠ Reg.pwrCapEff

theorem rwgAgain_does {s : State} (d : Nat) (hn : (s.grd.rwg.map Prod.fst).Nodup) : SetsRegs s (s.rwgAgain d) ∧
    (∀ x ∈ s.grd.rwg, x.1 / 2 ^ 24 = d → kvFind (s.rwgAgain d).regs x.1 = some x.2) ∧
    ∀ k, (∀ x ∈ s.grd.rwg, x.1 / 2 ^ 24 = d → k ≠ x.1) → kvFind (s.rwgAgain d).regs k = kvFind s.regs k := by
  have hsub : ((s.grd.rwg.filter fun x => x.1 / 2 ^ 24 == d).map Prod.fst).Nodup := hn.sublist (List.filter_sublist.map _)
  obtain ⟨hin, hout⟩ := kvFind_puts hsub s
  refine ⟨puts_frame _ s, fun x hx hd => hin x (List.mem_filter.mpr ⟨hx, beq_iff_eq.mpr hd⟩), fun k hk => hout k fun hm => ?_⟩
  obtain ⟨x, hx, rfl⟩ := List.mem_map.mp hm
  obtain ⟨hx, hd⟩ := List.mem_filter.mp hx
  exact hk x hx (beq_iff_eq.mp hd) rfl

theorem releaseDie_does {s : State} (d : Nat) (hn : (s.grd.rwg.map Prod.fst).Nodup) (hfree : FreeOfEnd s.grd.rwg) :
    SetsRegs s (s.releaseDie d) ∧ Released s (s.releaseDie d) d ∧ ∀ k, k / 2 ^ 24 ≠ d → kvFind (s.releaseDie d).regs k = kvFind s.regs k := by
  obtain ⟨hset1, hcause, hcount, hother1⟩ := causeSet_does s d
  have hgrd : (s.causeSet d).grd = s.grd := (Spared.of_sets hset1).grd
  obtain ⟨hset2, hin, hout⟩ := rwgAgain_does (s := s.causeSet d) d (by rw [hgrd]; exact hn)
  rw [hgrd] at hin hout
  have hcap : ∃ u, s.releaseDie d = u ∧ SetsRegs ((s.causeSet d).rwgAgain d) u ∧
      ∀ k, (k / 2 ^ 24 ≠ d ∨ k % 2 ^ 24 ≠ Reg.pwrCapEff) → kvFind u.regs k = kvFind ((s.causeSet d).rwgAgain d).regs k := by
    refine ⟨_, rfl, ?_⟩
    rw [releaseDie_eq]
    split
    · next h0 =>
      refine ⟨.setRegN _ 0 _ _, fun k hk => kvFind_setRegN_other _ fun he => ?_⟩
      have := regKey_div 0 (off := Reg.pwrCapEff) (by decide)
      rw [← he] at this
      rcases hk with hk | hk
      · exact hk (this.1.trans h0.symm)
      · exact hk this.2
    · exact ⟨.refl _, fun _ _ => rfl⟩
  obtain ⟨u, hu, hset3, hkeep⟩ := hcap
  rw [hu]
  have hpart : u.part = (s.causeSet d).part := (hset2.trans hset3).part
  have hown : ∀ off, off < 2 ^ 24 → off ≠ Reg.pwrCapEff → (∀ x ∈ s.grd.rwg, x.1 % 2 ^ 24 ≠ off) → u.regN d off = (s.causeSet d).regN d off := fun off ho hne hx => by
    refine regN_find ((hkeep _ (.inr ?_)).trans (hout _ fun x hm _ he => hx x hm ?_)) hpart
    · rw [(regKey_div d ho).2]
      exact hne
    · rw [← he, (regKey_div d ho).2]
  refine ⟨(hset1.trans hset2).trans hset3, ⟨?_, ?_, fun x hx hd => ?_⟩, fun k hk => ?_⟩
  · exact (hown _ (by decide) (by decide) fun x hx => (hfree x hx).1).trans hcause
  · exact (hown _ (by decide) (by decide) fun x hx => (hfree x hx).2.1).trans hcount
  · exact (hkeep _ (.inr (hfree x hx).2.2)).trans (hin x hx hd)
  · exact (hkeep k (.inl hk)).trans ((hout k fun x _ hd he => hk (he ▸ hd)).trans (hother1 k hk))

theorem releaseEach_does {s : State} (hn : (s.grd.rwg.map Prod.fst).Nodup) (hfree : FreeOfEnd s.grd.rwg) {ds : List Nat} (hds : ds.Nodup) :
    SetsRegs s (ds.foldl State.releaseDie s) ∧ ∀ d ∈ ds, Released s (ds.foldl State.releaseDie s) d := by
  have hstep : ∀ (t : State) (d : Nat), SetsRegs s t → SetsRegs t (t.releaseDie d) ∧ Released t (t.releaseDie d) d ∧
      ∀ k, k / 2 ^ 24 ≠ d → kvFind (t.releaseDie d).regs k = kvFind t.regs k := fun t d ht => by
    have hg := (Spared.of_sets ht).grd
    exact releaseDie_does d (by rw [hg]; exact hn) (by rw [hg]; exact hfree)
  have hsets : SetsRegs s (ds.foldl State.releaseDie s) :=
    foldl_keeps (P := SetsRegs s) (fun t d ht => ht.trans (hstep t d ht).1) ds (.refl s)
  refine ⟨hsets, fun d hd => (foldl_each (A := fun t d => SetsRegs s t ∧ Released s t d) (B := fun t d => SetsRegs s t ∧ ∀ k, k / 2 ^ 24 = d → kvFind t.regs k = kvFind s.regs k)
    (fun t d h => ?_) (fun t d e he h => ?_) (fun t d e he h => ?_) ds hds (fun d _ => ⟨.refl s, fun _ _ => rfl⟩) d hd).2⟩
  · obtain ⟨h1, hrel, -⟩ := hstep t d h.1
    have hsp := Spared.of_sets h.1
    refine ⟨h.1.trans h1, ⟨by rw [hrel.cause, hsp.rst], ?_, fun x hx hd => hrel.again x (by rw [hsp.grd]; exact hx) hd⟩⟩
    rw [hrel.count, hsp.rst, regN_find (h.2 _ (regKey_div d (by decide)).1) hsp.part]
  · obtain ⟨h1, -, hoth⟩ := hstep t d h.1
    have hreg : ∀ off, off < 2 ^ 24 → (t.releaseDie d).regN e off = t.regN e off := fun off ho =>
      regN_find (hoth _ (by rw [(regKey_div e ho).1]; exact he)) h1.part
    exact ⟨h.1.trans h1, (hreg _ (by decide)).trans h.2.cause, (hreg _ (by decide)).trans h.2.count,
      fun x hx hd => (hoth _ (by rw [hd]; exact he)).trans (h.2.again x hx hd)⟩
  · obtain ⟨h1, -, hoth⟩ := hstep t d h.1
    exact ⟨h.1.trans h1, fun k hk => (hoth k (by rw [hk]; exact he)).trans (h.2 k hk)⟩

theorem resetEnd_does {s : State} (hoff : s.rst.off = false) (hds : (s.rst.dies.map Prod.fst).Nodup) (hn : (s.grd.rwg.map Prod.fst).Nodup)
    (hfree : FreeOfEnd s.grd.rwg) : ∃ t, exec .resetEnd s = .next t ∧ t.rst = ⟨[], [], false, false⟩ ∧ t.mem = s.mem ∧
      ∀ d ∈ s.rst.dies.map Prod.fst, Released s t d := by
  obtain ⟨hset, hrel⟩ := releaseEach_does hn hfree hds
  refine ⟨{ (s.rst.dies.map Prod.fst).foldl State.releaseDie s with rst := ⟨[], [], false, false⟩ }, ?_, rfl, hset.mem,
    fun d hd => ⟨(hrel d hd).cause, (hrel d hd).count, (hrel d hd).again⟩⟩
  rw [List.foldl_map]
  exact congrArg Host.Outcome.next (if_neg (by rw [hoff]; decide))

end Sys2Proof.Machine

open Sys2Proof Sys2Proof.Machine

/-- Settles O50: a warm reset of dies keeps the guard's registers and HBM; its end writes the causes, the count and the guard's fields. -/
theorem warmResets : Obligations.WarmResets := by
  unfold Obligations.WarmResets
  refine ⟨fun s c cause hs hoff hc => ?_, fun s d hd hoff hlink c hc => ?_, fun s hoff hds hn hfree => ?_, fun s hoff => congrArg _ (if_pos hoff)⟩
  · rcases warmCommand_does hs hoff hc with h | h
    · exact ⟨_, h, warmPackage_does s cause⟩
    · exact ⟨_, h, warmPackage_does { s with grd := { s.grd with resetReq := none } } cause⟩
  · rcases dieCommand_does hd hc with h | h
    · exact ⟨_, h, warmDie_does hoff hlink⟩
    · exact ⟨_, h, warmDie_does (s := { s with grd := { s.grd with resetReq := none } }) hoff hlink⟩
  · obtain ⟨t, ht, hrst, hmem, hrel⟩ := resetEnd_does hoff hds hn hfree
    exact ⟨t, ht, hrst, hmem, fun d hd => ⟨(hrel d hd).cause, (hrel d hd).count, (hrel d hd).again⟩⟩

end

/-! PROOF. Resets of the host link, of functions and of a guard. -/

section

namespace Sys2Proof.Machine

open Sys2Proof

/-! ## The host link, and the guard of a die -/

theorem hostFundamentalReset_does {s : State} (hs : s.tripped = false) : Does .hostFundamentalReset s fun t =>
    t.linkUp = false ∧ t.rst.host = true ∧ t.hst.training = false ∧ t.hst.cfg = [] ∧ t.hst.msix = [] ∧ t.hst.pba = [] ∧ t.hst.ide = [] ∧ t.hst.tdi = [] ∧
      t.mem = s.mem ∧ t.seq = s.seq ∧ RegsBut s t [regKey 0 Reg.hstStatus] := by
  have hlink : (s.setRf 0 Reg.hstStatus 0 12 0).rbit 0 Reg.hstStatus 0 = false := by
    rw [rbit_setRf_low s 0 _ 12 0 0 (by decide) (by decide)]
    rfl
  exact .live hs rfl ⟨hlink, rfl, rfl, rfl, rfl, rfl, rfl, rfl, rfl, rfl, ((RegsBut.refl s _).setRegN (List.mem_singleton.mpr rfl) _).congr rfl rfl⟩

/-- The offsets that a restart of a guard leaves: all outside its block, and four inside. -/
def guardKeeps (off : Nat) : Bool := off < 0x10000 || 0x20000 ≤ off || [Reg.grdStatus, Reg.grdFuseSvn, Reg.grdId, Reg.grdMeasCount].contains off

theorem guardKeeps_false {off : Nat} (hlo : 0x10000 ≤ off) (hhi : off < 0x20000) (hnot : off ∉ [Reg.grdStatus, Reg.grdFuseSvn, Reg.grdId, Reg.grdMeasCount]) :
    guardKeeps off = false := by
  unfold guardKeeps
  rw [decide_eq_false (by omega), decide_eq_false (by omega), List.contains_eq_mem, decide_eq_false hnot]
  rfl

theorem guardRestart_die {s : State} {d : Nat} (hd : d < s.part.dies) (hin : s.inReset d = false) (hne : d ≠ 0) : Does (.guardRestart d) s fun t =>
    (∀ off, 0x10000 ≤ off → off < 0x20000 → off ∉ [Reg.grdStatus, Reg.grdFuseSvn, Reg.grdId, Reg.grdMeasCount] → t.reg d off = resetValue s.part d off) ∧
    (∀ e off, off < 2 ^ 24 → (e ≠ d ∨ off < 0x10000 ∨ 0x20000 ≤ off) → t.reg e off = s.reg e off) ∧ t.mem = s.mem ∧ t.grd = s.grd := by
  have hexec : exec (.guardRestart d) s = .next (s.dropRegs d guardKeeps) :=
    congrArg Host.Outcome.next ((if_pos hd).trans ((if_neg (by rw [hin]; decide)).trans (if_pos hne)))
  refine ⟨_, hexec, fun off hlo hhi hnot => (dropRegs_reset s (by omega) (guardKeeps_false hlo hhi hnot)).1, fun e off ho h => (dropRegs_kept s ho ?_).1, rfl, rfl⟩
  rcases h with h | h | h
  · exact .inl h
  · exact .inr (by unfold guardKeeps; simp [h])
  · exact .inr (by unfold guardKeeps; simp [h])

/-- The guard of die 0 after its restart, before it answers for the requests that it has dropped. -/
def State.guardCleared (s : State) : State :=
  let s := s.dropRegs 0 guardKeeps
  let s := s.setRegN 0 Reg.grdStatus (Nat.land (s.regN 0 Reg.grdStatus) 0x3B)
  { s with grd := { s.grd with upd := none, nonce := none, resetReq := none, spdm := [], sess := [] } }

/-- The answer to each mailbox whose request the guard has dropped. -/
def State.dropAnswer (s : State) (m : Nat) : State :=
  let b := s.mbBytes m
  s.mbGuardAnswer m ((b.drop 16).take 2 ++ natLe 1 5 ++ natLe 1 0 ++ (b.drop 20).take 4)

theorem setMbBytes_sets (s : State) (m : Nat) (b : List Byte) : SetsRegs s (s.setMbBytes m b) := by
  unfold State.setMbBytes
  exact SetsRegs.foldl (fun t i => SetsRegs.setRegN t _ _ _) _ s

theorem mbAnswer_frame (s : State) (m seq result : Nat) (body : List Byte) : (s.mbAnswer m seq result body).grd = s.grd ∧ (s.mbAnswer m seq result body).mem = s.mem := by
  obtain ⟨h, o, e⟩ := mbAnswer_state s m seq result body
  have hset := (setMbBytes_sets s m (mbReply (s.mbBytes m) result body)).trans (.setRegN _ 0 (Reg.mbState m) seq)
  revert e hset
  generalize (s.setMbBytes m (mbReply (s.mbBytes m) result body)).setRegN 0 (Reg.mbState m) seq = v
  intro e hset
  rw [e]
  exact ⟨(Spared.of_sets hset).grd, hset.mem⟩

theorem dropAnswer_frame (s : State) (m : Nat) : (s.dropAnswer m).grd = s.grd ∧ (s.dropAnswer m).mem = s.mem := by
  unfold State.dropAnswer State.mbGuardAnswer
  dsimp only
  split
  · exact mbAnswer_frame ({ s with mbSeq := kvErase s.mbSeq m } : State) m _ _ _
  · exact ⟨rfl, rfl⟩

theorem guardRestart_zero {s : State} (hin : s.inReset 0 = false) : Does (.guardRestart 0) s fun t =>
    t.grd.upd = none ∧ t.grd.nonce = none ∧ t.grd.resetReq = none ∧ t.grd.sess = [] ∧ t.grd.spdm = [] ∧ t.grd.slots = s.grd.slots ∧
      t.grd.sticky = s.grd.sticky ∧ t.mem = s.mem ∧
      (s.mbSeq = [] → ∀ off, 0x10000 ≤ off → off < 0x20000 → off ∉ [Reg.grdStatus, Reg.grdFuseSvn, Reg.grdId, Reg.grdMeasCount] →
        t.reg 0 off = resetValue s.part 0 off) := by
  have hexec : exec (.guardRestart 0) s = .next (s.mbSeq.foldl (fun s x => s.dropAnswer x.1) s.guardCleared) :=
    congrArg Host.Outcome.next ((if_pos (dies_pos s.part)).trans ((if_neg (by rw [hin]; decide)).trans (if_neg (by decide))))
  obtain ⟨hgrd, hmem⟩ := foldl_keeps (f := fun (s : State) (x : Nat × Nat × Bool) => s.dropAnswer x.1)
    (P := fun t : State => t.grd = s.guardCleared.grd ∧ t.mem = s.guardCleared.mem)
    (fun t x h => ⟨(dropAnswer_frame t x.1).1.trans h.1, (dropAnswer_frame t x.1).2.trans h.2⟩) s.mbSeq (b := s.guardCleared) ⟨rfl, rfl⟩
  refine ⟨_, hexec, ?_⟩
  dsimp only
  rw [hgrd, hmem]
  refine ⟨rfl, rfl, rfl, rfl, rfl, rfl, rfl, rfl, fun hseq off hlo hhi hnot => ?_⟩
  rw [hseq]
  have hne : regKey 0 off ≠ regKey 0 Reg.grdStatus := State.regKey_ne (by omega) (by decide) (.inr fun h => hnot (h ▸ List.mem_cons_self))
  exact (State.reg_setReg_other _ _ _ _ _ _ hne).trans (dropRegs_reset s (by omega) (guardKeeps_false hlo hhi hnot)).1

/-! ## A virtual function's reset -/

/-- The registers outside a block stay, and so do memory and what the host link holds. -/
structure Outside (lo hi : Nat) (s t : State) : Prop where
  part : t.part = s.part
  mem  : t.mem = s.mem
  hst  : t.hst = s.hst
  reg  : ∀ e o, o < 2 ^ 24 → (o < lo ∨ hi ≤ o) → t.regN e o = s.regN e o

theorem Outside.refl (lo hi : Nat) (s : State) : Outside lo hi s s := ⟨rfl, rfl, rfl, fun _ _ _ _ => rfl⟩

theorem Outside.trans {lo hi : Nat} {s t u : State} (h : Outside lo hi s t) (g : Outside lo hi t u) : Outside lo hi s u :=
  ⟨g.part.trans h.part, g.mem.trans h.mem, g.hst.trans h.hst, fun e o ho hr => (g.reg e o ho hr).trans (h.reg e o ho hr)⟩

theorem Outside.foldl {α : Type} {lo hi : Nat} {f : State → α → State} (l : List α) (hf : ∀ t, ∀ a ∈ l, Outside lo hi t (f t a)) (s : State) :
    Outside lo hi s (l.foldl f s) :=
  List.foldlRecOn (motive := Outside lo hi s) l f (.refl lo hi s) fun t ht a ha => ht.trans (hf t a ha)

theorem Outside.setRegN {lo hi : Nat} (s : State) (d : Nat) {off : Nat} (v : Nat) (h : lo ≤ off ∧ off < hi) (hhi : hi ≤ 2 ^ 24) :
    Outside lo hi s (s.setRegN d off v) :=
  ⟨rfl, rfl, rfl, fun _ _ ho hr => State.regN_setRegN_other _ _ _ _ _ _ (State.regKey_ne ho (by omega) (.inr (by omega)))⟩

/-- A partition goes off on a die where it was on. -/
def State.partOff (s : State) (p d : Nat) : State :=
  if s.rbit d (Reg.seqPartCfg p) 0 then s.partCfgWrite d p (setBit (s.regN d (Reg.seqPartCfg p)) 0 false) else s

theorem partOff_does (s : State) {p : Nat} (hp : p < 16) (d : Nat) :
    (s.partOff p d).rbit d (Reg.seqPartCfg p) 0 = false ∧ Outside 0x100700 0x1007C0 s (s.partOff p d) ∧
      ∀ e, e ≠ d → (s.partOff p d).regN e (Reg.seqPartCfg p) = s.regN e (Reg.seqPartCfg p) := by
  unfold State.partOff
  split
  · next hwas =>
    have hbit : bit (setBit (s.regN d (Reg.seqPartCfg p)) 0 false) 0 = false := bit_setFld_same _ 0 false
    have hcb := partCfg_block p hp
    have hsb := partStatus_block p hp
    let u := s.setRegN d (Reg.seqPartCfg p) (setBit (s.regN d (Reg.seqPartCfg p)) 0 false % 2 ^ 17)
    have heq : s.partCfgWrite d p (setBit (s.regN d (Reg.seqPartCfg p)) 0 false) = u.partStop d p := by
      unfold State.partCfgWrite
      dsimp only
      rw [hwas, hbit]
      rfl
    obtain ⟨q, e⟩ := partStop_fields u d p
    have hkey : ∀ a, regKey a (Reg.seqPartCfg p) ∉ [regKey d (Reg.seqPartStatus p)] := fun a => by
      simpa using State.regKey_ne (by omega) (by omega) (.inr (by unfold Reg.seqPartCfg Reg.seqPartStatus; omega))
    have hcfg : ∀ a, (u.partStop d p).regN a (Reg.seqPartCfg p) = u.regN a (Reg.seqPartCfg p) := fun a => by
      rw [e]
      exact (regsBut_setPartStatus u d p _ _ _).regN (hkey a)
    rw [heq]
    have hu : Outside 0x100700 0x1007C0 s u := .setRegN s d _ (by omega) (by decide)
    refine ⟨?_, hu.trans (?_ : Outside 0x100700 0x1007C0 u (u.partStop d p)), fun a ha => (hcfg a).trans ?_⟩
    · rw [State.rbit, hcfg d, State.regN_setRegN_same]
      simp only [bit, beq_eq_false_iff_ne] at hbit ⊢
      omega
    · rw [e]
      refine ⟨rfl, rfl, rfl, fun a o ho hr => (regsBut_setPartStatus u d p _ _ _).regN ?_⟩
      simpa using State.regKey_ne ho (by omega) (.inr (by omega))
    · exact State.regN_setRegN_other _ _ _ _ _ _ (State.regKey_ne (by omega) (by omega) (.inl ha))
  · next hwas => exact ⟨by simpa using hwas, .refl _ _ s, fun _ _ => rfl⟩

theorem partsOff_does (s : State) {p : Nat} (hp : p < 16) : Outside 0x100700 0x1007C0 s (s.eachDie fun s d => s.partOff p d) ∧
    ∀ d, d < s.part.dies → (s.eachDie fun s d => s.partOff p d).rbit d (Reg.seqPartCfg p) 0 = false :=
  ⟨.foldl _ (fun t d _ => (partOff_does t hp d).2.1) s, fun _ hd => eachDie_each (A := fun t d => t.rbit d (Reg.seqPartCfg p) 0 = false) (B := fun _ _ => True)
    (fun t d _ => (partOff_does t hp d).1) (fun t d e he h => (congrArg (bit · 0) ((partOff_does t hp d).2.2 e he)).trans h) (fun _ _ _ _ _ => trivial)
    (fun _ => trivial) hd⟩

theorem Outside.ringReg {lo hi : Nat} {s t : State} (h : Outside lo hi s t) {f : Nat → Nat} (r : Nat) (hf : f (ringNo r) < 2 ^ 24 ∧ (f (ringNo r) < lo ∨ hi ≤ f (ringNo r))) :
    t.ringReg r f = s.ringReg r f := h.reg _ _ hf.1 hf.2

theorem ringCfg_block (r : Nat) : 0x110000 ≤ Reg.ringCfg (ringNo r) ∧ Reg.ringCfg (ringNo r) < 0x110800 := by
  unfold Reg.ringCfg ringNo
  omega

theorem ringStop_does (s : State) (r : Nat) : (s.ringStop r).ringOn r = false ∧ Outside 0x110000 0x110800 s (s.ringStop r) ∧
    ∀ q, q ≠ r → (s.ringStop r).ringReg q Reg.ringCfg = s.ringReg q Reg.ringCfg := by
  have hblock := ringCfg_block r
  refine ⟨?_, ⟨rfl, rfl, rfl, (Outside.setRegN s (ringDie r) (setBit (s.ringReg r Reg.ringCfg) 0 false) hblock (by decide)).reg⟩, fun q hq => ?_⟩
  · have h := ringReg_setRing_same s r (setBit (s.ringReg r Reg.ringCfg) 0 false) Reg.ringCfg
    have hbit : bit (setBit (s.ringReg r Reg.ringCfg) 0 false) 0 = false := bit_setFld_same _ 0 false
    exact (congrArg (bit · 0) h).trans ((bit_zero_mod _).trans hbit)
  · have hb := ringCfg_block q
    refine State.regN_setRegN_other _ _ _ _ _ _ ?_
    rw [ne_eq, regKey]
    unfold regKey Reg.ringCfg ringDie ringNo at *
    omega

/-- The rings of a partition, stopped. -/
theorem ringsStop_does (s : State) (l : List Nat) (hl : l.Nodup) : Outside 0x110000 0x110800 s (l.foldl State.ringStop s) ∧
    (∀ r ∈ l, (l.foldl State.ringStop s).ringOn r = false) ∧ ∀ r, r ∉ l → (l.foldl State.ringStop s).ringReg r Reg.ringCfg = s.ringReg r Reg.ringCfg := by
  refine ⟨.foldl l (fun t r _ => (ringStop_does t r).2.1) s, foldl_each (A := fun t r => t.ringOn r = false) (B := fun _ _ => True) (fun t r _ => (ringStop_does t r).1)
    (fun t r q hq h => (congrArg (bit · 0) ((ringStop_does t r).2.2 q hq)).trans h) (fun _ _ _ _ _ => trivial) l hl (fun _ _ => trivial), fun r hr => ?_⟩
  exact List.foldlRecOn (motive := fun t => t.ringReg r Reg.ringCfg = s.ringReg r Reg.ringCfg) l State.ringStop rfl fun t ht q hq =>
    ((ringStop_does t q).2.2 r fun h => hr (h ▸ hq)).trans ht

theorem mbCfg_block {m : Nat} (hm : m < 64) : 0x111000 ≤ Reg.mbCfg m ∧ Reg.mbCfg m < 0x111400 := by
  unfold Reg.mbCfg
  omega

/-- The mailboxes of a partition, off. -/
theorem mailboxesOff_does (s : State) (l : List Nat) (hl : l.Nodup) (h64 : ∀ m ∈ l, m < 64) :
    Outside 0x111000 0x111400 s (l.foldl (fun s m => s.setRbit 0 (Reg.mbCfg m) 0 false) s) ∧
      ∀ m ∈ l, (l.foldl (fun s m => s.setRbit 0 (Reg.mbCfg m) 0 false) s).rbit 0 (Reg.mbCfg m) 0 = false := by
  refine ⟨.foldl l (fun t m hm => .setRegN t 0 _ (mbCfg_block (h64 m hm)) (by decide)) s, ?_⟩
  refine foldl_each (f := fun (s : State) m => s.setRbit 0 (Reg.mbCfg m) 0 false) (A := fun t m => t.rbit 0 (Reg.mbCfg m) 0 = false) (B := fun _ _ => True)
    (fun t m _ => State.rbit_setRbit_same t 0 _ 0 false (by decide)) (fun t m n hn h => Eq.trans ?_ h) (fun _ _ _ _ _ => trivial) l hl (fun _ _ => trivial)
  refine State.rbit_setRegN_other _ _ _ _ _ _ 0 ?_
  rw [ne_eq, regKey_eq_iff]
  unfold Reg.mbCfg
  omega

/-- What ends with no record leaves the registers, memory and what the host link holds. -/
theorem endMutes_does (l : List Nat) (s : State) : (l.foldl State.endMute s).mem = s.mem ∧ (l.foldl State.endMute s).hst = s.hst ∧
    ∀ e o, (l.foldl State.endMute s).regN e o = s.regN e o := by
  obtain ⟨hm, hh, hr, hp⟩ := foldl_keeps (f := State.endMute) (P := fun t : State => t.mem = s.mem ∧ t.hst = s.hst ∧ t.regs = s.regs ∧ t.part = s.part)
    (fun _ _ h => h) l (b := s) ⟨rfl, rfl, rfl, rfl⟩
  exact ⟨hm, hh, fun e o => State.regN_congr hr hp e o⟩

/-- What the host link holds for a function is dropped. -/
def State.dropFn (s : State) (fn : Nat) : State :=
  let own := fun (k n : Nat) => k / n == fn
  { s with hst := { s.hst with msix := s.hst.msix.filter (fun x => !own x.1 2048), pba := s.hst.pba.filter (fun x => !own x.1 512), cfg := s.hst.cfg.filter fun x => !own x.1 4096 } }

theorem flrVf_does {s : State} {fn : Nat} (hd : DieUp s 0) (h1 : 1 ≤ fn) (hfn : fn ≤ s.part.parts) : Does (.flrVf fn) s fun t =>
    (∀ d, d < s.part.dies → t.rbit d (Reg.seqPartCfg (fn - 1)) 0 = false) ∧ t.rbit 0 (Reg.evqCfg (fn - 1)) 0 = false ∧
    (∀ r, r < s.part.rings → s.ringPart r = fn - 1 → t.ringOn r = false) ∧
    (∀ m, m < 64 → s.mbPart m = fn - 1 → t.rbit 0 (Reg.mbCfg m) 0 = false) ∧
    (∀ x ∈ t.hst.msix, x.1 / 2048 ≠ fn) ∧ (∀ x ∈ t.hst.cfg, x.1 / 4096 ≠ fn) ∧ t.mem = s.mem := by
  have hp : fn - 1 < 16 := by
    have := parts_le s.part
    omega
  generalize hpe : fn - 1 = p at hp ⊢
  let s1 := s.eachDie fun s d => s.partOff p d
  let rings := (List.range s1.part.rings).filter fun r => s1.ringOn r && s1.ringPart r == p
  let s2 := rings.foldl State.ringStop s1
  let s3 := s2.setRbit 0 (Reg.evqCfg p) 0 false
  let boxes := (List.range 64).filter fun m => s3.mbPart m == p
  let s4 := boxes.foldl (fun s m => s.setRbit 0 (Reg.mbCfg m) 0 false) s3
  let ids := (s4.seq.works.filter fun w => w.part == p && s4.usesHost w).map fun w => w.id
  let s5 := ids.foldl State.endMute s4
  have hexec : exec (.flrVf fn) s = .next (s5.dropFn fn) := by
    refine (onDie_eq hd).trans (congrArg _ ?_)
    subst hpe
    refine if_neg ?_
    simp only [Bool.or_eq_true, decide_eq_true_eq]
    omega
  obtain ⟨h1o, h1p⟩ := partsOff_does s hp
  have hnr : rings.Nodup := List.nodup_range.filter _
  obtain ⟨h2o, h2r, h2s⟩ := ringsStop_does s1 rings hnr
  have h3o : Outside 0x110800 0x110A00 s2 s3 := .setRegN s2 0 _ (by unfold Reg.evqCfg; omega) (by decide)
  obtain ⟨h4o, h4m⟩ := mailboxesOff_does s3 boxes (List.nodup_range.filter _) fun m hm => List.mem_range.mp (List.mem_of_mem_filter hm)
  obtain ⟨h5m, h5h, h5r⟩ := endMutes_does ids s4
  have hend : ∀ e o, o < 0x110800 → s5.regN e o = s2.regN e o := fun e o ho =>
    (h5r e o).trans ((h4o.reg e o (by omega) (.inl (by omega))).trans (h3o.reg e o (by omega) (.inl ho)))
  have hblock := partCfg_block p hp
  refine ⟨_, hexec, fun d hd => ?_, ?_, fun r hr hpart => ?_, fun m hm hpart => ?_, fun x hx => ?_, fun x hx => ?_, ?_⟩
  · exact (congrArg (bit · 0) ((hend d _ (by omega)).trans (h2o.reg d _ (by omega) (.inl (by omega))))).trans (h1p d hd)
  · have h : s3.rbit 0 (Reg.evqCfg p) 0 = false := State.rbit_setRbit_same s2 0 _ 0 false (by decide)
    exact (congrArg (bit · 0) ((h5r 0 _).trans (h4o.reg 0 _ (by unfold Reg.evqCfg; omega) (.inl (by unfold Reg.evqCfg; omega))))).trans h
  · have hb := ringCfg_block r
    have hcfg : s1.ringReg r Reg.ringCfg = s.ringReg r Reg.ringCfg := h1o.ringReg r ⟨by omega, .inr (by omega)⟩
    have hlast : s2.ringOn r = false := by
      by_cases hon : s1.ringOn r = true
      · refine h2r r (List.mem_filter.mpr ⟨List.mem_range.mpr (by rw [h1o.part]; exact hr), ?_⟩)
        rw [hon, Bool.true_and, State.ringPart, hcfg]
        exact beq_iff_eq.mpr hpart
      · refine (congrArg (bit · 0) (h2s r fun hm => hon ?_)).trans (Bool.eq_false_iff.mpr hon)
        exact (Bool.and_eq_true_iff.mp (List.mem_filter.mp hm).2).1
    exact (congrArg (bit · 0) (hend (ringDie r) _ hb.2)).trans hlast
  · have hb := mbCfg_block hm
    have hcfg : s3.mbPart m = s.mbPart m := by
      unfold State.mbPart State.rf
      rw [h3o.reg 0 _ (by omega) (.inr (by omega)), h2o.reg 0 _ (by omega) (.inr (by omega)), h1o.reg 0 _ (by omega) (.inr (by omega))]
    exact (congrArg (bit · 0) (h5r 0 _)).trans (h4m m (List.mem_filter.mpr ⟨List.mem_range.mpr hm, beq_iff_eq.mpr (hcfg.trans hpart)⟩))
  · simpa using (List.mem_filter.mp hx).2
  · simpa using (List.mem_filter.mp hx).2
  · exact h5m.trans (h4o.mem.trans (h2o.mem.trans h1o.mem))

end Sys2Proof.Machine

open Sys2Proof Sys2Proof.Machine

/-- Settles O51: resets of the link, of a function and of a guard each reach their own block and leave the rest. -/
theorem partialResets : Obligations.PartialResets := by
  unfold Obligations.PartialResets
  exact ⟨fun s hs => hostFundamentalReset_does hs, fun s hd => onDie_eq hd, fun s d hd hin hne => guardRestart_die hd hin hne,
    fun s hin => guardRestart_zero hin, fun s fn hd h1 hfn => flrVf_does hd h1 hfn⟩

end

/-! PROOF. Bring-up of the dies, and discovery of the torus. -/

section

namespace Sys2Proof.Machine

open Sys2Proof

/-! ## Registers set alike on every die -/

theorem setGen_sets (s : State) (off v : Nat) : SetsRegs s (s.setGen off v) := .foldl (fun t d => .setRegN t d _ _) _ s

theorem setGen_same (s : State) {off : Nat} (ho : off < 2 ^ 24) (v : Nat) {d : Nat} (hd : d < s.part.dies) : (s.setGen off v).regN d off = v % 2 ^ 32 :=
  eachDie_regN_same ho (fun t _ => (RegsBut.refl t _).setRegN (List.mem_singleton.mpr rfl) _) (v := fun _ => v % 2 ^ 32) (fun t d _ => State.regN_setRegN_same t d off v) hd

theorem setGen_other (s : State) {off : Nat} (ho : off < 2 ^ 24) (v e : Nat) {o : Nat} (hoo : o < 2 ^ 24) (hne : o ≠ off) :
    (s.setGen off v).regN e o = s.regN e o :=
  eachDie_regN_other hoo ho hne (fun t _ => (RegsBut.refl t _).setRegN (List.mem_singleton.mpr rfl) _) s e

theorem setStage_sets (s : State) (v : Nat) : SetsRegs s (s.setStage v) := setGen_sets s _ _

theorem setStage_stage (s : State) {v : Nat} (hv : v < 16) : (s.setStage v).stage_ = v := by
  have h := setGen_same s (off := Reg.genBoot) (by decide) (setFld (s.regN 0 Reg.genBoot) 0 4 v) (dies_pos s.part)
  rw [Nat.mod_eq_of_lt (setFld_lt (s.regN_lt 0 _) (by decide))] at h
  exact (congrArg (fld · 0 4) h).trans ((fld_setFld_same _ 0 4 v).trans (Nat.mod_eq_of_lt hv))

theorem setStage_other (s : State) (v e : Nat) {o : Nat} (ho : o < 2 ^ 24) (hne : o ≠ Reg.genBoot) : (s.setStage v).regN e o = s.regN e o :=
  setGen_other s (by decide) _ e ho hne

theorem SetsRegs.sameMem {s t : State} (h : SetsRegs s t) : SameMem s t := .of_eq h.mem h.wiped

/-! ## The guards boot -/

/-- GEN_BOOT as a slot boots, or as bring-up fails. -/
theorem bootWord_reads (n k : Nat) : fld (setFld (setFld n 0 4 1) 4 1 k) 0 4 = 1 ∧ fld (setFld (setFld n 0 4 1) 4 1 k) 4 1 = k % 2 :=
  ⟨(fld_setFld_other _ 4 1 _ 0 4 (.inl (by decide))).trans (fld_setFld_same _ 0 4 1), fld_setFld_same _ 4 1 k⟩

theorem failWord_reads (n why : Nat) (hw : why < 8) : fld (setFld (setFld n 0 4 0xF) 5 3 why) 0 4 = 0xF ∧ fld (setFld (setFld n 0 4 0xF) 5 3 why) 5 3 = why :=
  ⟨(fld_setFld_other _ 5 3 _ 0 4 (.inl (by decide))).trans (fld_setFld_same _ 0 4 0xF), (fld_setFld_same _ 5 3 why).trans (Nat.mod_eq_of_lt hw)⟩

theorem bootFail_does (s : State) {why : Nat} (hw : why < 8) : SetsRegs s (s.bootFail why) ∧ (s.bootFail why).stage_ = 0xF ∧ (s.bootFail why).rf 0 Reg.genBoot 5 3 = why := by
  have h := setGen_same s (off := Reg.genBoot) (by decide) (setFld (setFld (s.regN 0 Reg.genBoot) 0 4 0xF) 5 3 why) (dies_pos s.part)
  rw [Nat.mod_eq_of_lt (setFld_lt (setFld_lt (s.regN_lt 0 _) (by decide)) (by decide))] at h
  obtain ⟨hstage, hfail⟩ := failWord_reads (s.regN 0 Reg.genBoot) why hw
  exact ⟨setGen_sets s _ _, (congrArg (fld · 0 4) h).trans hstage, (congrArg (fld · 5 3) h).trans hfail⟩

theorem guardBoot_fails {s : State} {okA okB : Bool} (hd : DieUp s 0) (hrun : s.guardRuns = false) (hstage : s.stage_ = 0) (hslot : s.bootSlot okA okB = none) :
    Does (.guardBoot okA okB) s fun t => t.stage_ = 0xF ∧ t.rf 0 Reg.genBoot 5 3 = 1 ∧ t.out = s.out ++ [.pin "FAULT_N" 0 false] ∧ SameMem s t := by
  obtain ⟨hset, hst, hf⟩ := bootFail_does s (why := 1) (by decide)
  obtain ⟨g, hg⟩ := stickyAdd_state (s.bootFail 1) 2 0 [1]
  have hexec : exec (.guardBoot okA okB) s = .next (((s.bootFail 1).stickyAdd 2 0 [1]).emit (.pin "FAULT_N" 0 false)) := by
    refine (onDie_eq hd).trans (congrArg _ ?_)
    rw [if_neg (by simp [hrun, hstage]), hslot]
  refine ⟨_, hexec, ?_⟩
  rw [hg]
  exact ⟨hst, hf, congrArg (· ++ _) hset.out, hset.sameMem⟩

/-- The guard of a die runs an image. -/
def State.guardOn (s : State) (k d : Nat) : State :=
  let s := s.setRbit d Reg.grdStatus 0 true
  s.setRegN d Reg.grdId (setFld (setFld (s.regN d Reg.grdId) 0 8 (s.slotSvn k)) 8 1 k)

theorem guardOn_does (s : State) (k d : Nat) : SetsRegs s (s.guardOn k d) ∧ (s.guardOn k d).rbit d Reg.grdStatus 0 = true ∧
    (s.guardOn k d).rf d Reg.grdId 0 8 = s.slotSvn k % 256 ∧ (s.guardOn k d).rf d Reg.grdId 8 1 = k % 2 ∧
    ∀ e o, o < 2 ^ 24 → (e ≠ d ∨ o ≠ Reg.grdStatus ∧ o ≠ Reg.grdId) → (s.guardOn k d).regN e o = s.regN e o := by
  have hsets : SetsRegs s (s.setRbit d Reg.grdStatus 0 true) := .setRbit s d _ _ _
  have hsvn : (s.setRbit d Reg.grdStatus 0 true).slotSvn k = s.slotSvn k := rfl
  have hid : (s.guardOn k d).regN d Reg.grdId = setFld (setFld ((s.setRbit d Reg.grdStatus 0 true).regN d Reg.grdId) 0 8 (s.slotSvn k)) 8 1 k := by
    unfold State.guardOn
    rw [State.regN_setRegN_same, hsvn]
    exact Nat.mod_eq_of_lt (setFld_lt (setFld_lt (State.regN_lt _ _ _) (by decide)) (by decide))
  refine ⟨hsets.trans (.setRegN _ d _ _), ?_, ?_, ?_, fun e o ho h => ?_⟩
  · exact (State.rbit_setRegN_other _ _ _ _ _ _ 0 (State.regKey_ne (by decide) (by decide) (.inr (by decide)))).trans (State.rbit_setRbit_same s d _ 0 true (by decide))
  · rw [State.rf, hid]
    exact (fld_setFld_other _ 8 1 _ 0 8 (.inl (by decide))).trans (fld_setFld_same _ 0 8 _)
  · rw [State.rf, hid]
    exact fld_setFld_same _ 8 1 k
  · have hkey : ∀ off, off < 2 ^ 24 → (e ≠ d ∨ o ≠ off) → regKey e o ≠ regKey d off := fun off hoff h => State.regKey_ne ho hoff h
    refine (State.regN_setRegN_other _ _ _ _ _ _ (hkey _ (by decide) (h.imp id (·.2)))).trans
      (State.regN_setRegN_other _ _ _ _ _ _ (hkey _ (by decide) (h.imp id (·.1))))

theorem guardBoot_runs {s : State} {okA okB : Bool} {k : Nat} (hd : DieUp s 0) (hrun : s.guardRuns = false) (hstage : s.stage_ = 0) (hslot : s.bootSlot okA okB = some k) :
    Does (.guardBoot okA okB) s fun t => t.stage_ = 1 ∧ t.rf 0 Reg.genBoot 4 1 = k % 2 ∧
      (∀ d, d < s.part.dies → t.rbit d Reg.grdStatus 0 = true ∧ t.rf d Reg.grdId 0 8 = s.slotSvn k % 256 ∧ t.rf d Reg.grdId 8 1 = k % 2) ∧ SameMem s t := by
  let u := s.setGen Reg.genBoot (setFld (setFld (s.regN 0 Reg.genBoot) 0 4 1) 4 1 k)
  have hu := setGen_sets s Reg.genBoot (setFld (setFld (s.regN 0 Reg.genBoot) 0 4 1) 4 1 k)
  have hgrd : u.grd = s.grd := (Spared.of_sets hu).grd
  have hboot := setGen_same s (off := Reg.genBoot) (by decide) (setFld (setFld (s.regN 0 Reg.genBoot) 0 4 1) 4 1 k) (dies_pos s.part)
  rw [Nat.mod_eq_of_lt (setFld_lt (setFld_lt (s.regN_lt 0 _) (by decide)) (by decide))] at hboot
  obtain ⟨hst, hslotBit⟩ := bootWord_reads (s.regN 0 Reg.genBoot) k
  have hexec : exec (.guardBoot okA okB) s = .next (u.eachDie fun s d => s.guardOn k d) := by
    refine (onDie_eq hd).trans (congrArg _ ?_)
    rw [if_neg (by simp [hrun, hstage]), hslot]
    rfl
  have hsets : SetsRegs u (u.eachDie fun s d => s.guardOn k d) := .foldl (fun t d => (guardOn_does t k d).1) _ u
  have hkeep : (u.eachDie fun s d => s.guardOn k d).regN 0 Reg.genBoot = u.regN 0 Reg.genBoot :=
    foldl_keeps (P := fun t : State => t.regN 0 Reg.genBoot = u.regN 0 Reg.genBoot)
      (fun t d h => ((guardOn_does t k d).2.2.2.2 0 _ (by decide) (.inr (by decide))).trans h) _ rfl
  have hsvn : ∀ t : State, t.grd = s.grd → t.slotSvn k = s.slotSvn k := fun t h => by
    unfold State.slotSvn
    rw [h]
  refine ⟨_, hexec, (congrArg (fld · 0 4) (hkeep.trans hboot)).trans hst, (congrArg (fld · 4 1) (hkeep.trans hboot)).trans hslotBit, fun d hd => ?_,
    (hu.trans hsets).sameMem⟩
  refine eachDie_each (f := fun s d => s.guardOn k d) (B := fun t _ => t.grd = s.grd)
    (A := fun t d => t.rbit d Reg.grdStatus 0 = true ∧ t.rf d Reg.grdId 0 8 = s.slotSvn k % 256 ∧ t.rf d Reg.grdId 8 1 = k % 2)
    (fun t d h => ?_) (fun t d e he h => ?_) (fun t d e he h => (Spared.of_sets (guardOn_does t k d).1).grd.trans h) (fun _ => hgrd)
    (by rw [hu.part]; exact hd)
  · obtain ⟨-, h1, h2, h3, -⟩ := guardOn_does t k d
    exact ⟨h1, h2.trans (by rw [hsvn t h]), h3⟩
  · have hreg := fun o (ho : o < 2 ^ 24) => (guardOn_does t k d).2.2.2.2 e o ho (.inl he)
    exact ⟨(congrArg (bit · 0) (hreg _ (by decide))).trans h.1, (congrArg (fld · 0 8) (hreg _ (by decide))).trans h.2.1,
      (congrArg (fld · 8 1) (hreg _ (by decide))).trans h.2.2⟩

/-! ## Enumeration -/

theorem dieEnumeration_fails {s : State} (hd : DieUp s 0) (hrun : s.guardRuns = true) (hstage : s.stage_ ≠ 0xF) :
    Does (.dieEnumeration false) s fun t => t.stage_ = 0xF ∧ t.rf 0 Reg.genBoot 5 3 = 2 ∧ SameMem s t := by
  obtain ⟨hset, hst, hf⟩ := bootFail_does s (why := 2) (by decide)
  have hexec : exec (.dieEnumeration false) s = .next (s.bootFail 2) :=
    (onDie_eq hd).trans (congrArg _ ((if_neg (by simp [hrun, hstage])).trans (if_pos rfl)))
  exact ⟨_, hexec, hst, hf, hset.sameMem⟩

theorem dieEnumeration_full {s : State} (hd : DieUp s 0) (hrun : s.guardRuns = true) (hstage : s.stage_ ≠ 0xF) (hcap : s.regN 0 Reg.rasCapLive = 0) :
    Does (.dieEnumeration true) s fun t => t.stage_ = 2 ∧ t.regN 0 Reg.genDiscStatus = 0 ∧ t.regN 0 Reg.genDiscRootLo = 0 ∧ t.regN 0 Reg.genDiscRootHi = 0 := by
  let u := ((s.setGen Reg.genBoot (setFld (s.regN 0 Reg.genBoot) 8 8 0)).eachDie State.enumerate).meshNote
  let v1 := u.setGen Reg.genDiscStatus 0
  let v2 := v1.setGen Reg.genDiscRootLo 0
  let v3 := v2.setGen Reg.genDiscRootHi 0
  have hexec : exec (.dieEnumeration true) s = .next (v3.setStage 2) := by
    refine (onDie_eq hd).trans (congrArg _ ?_)
    rw [if_neg (by simp [hrun, hstage]), if_neg (by decide)]
    dsimp only
    rw [if_pos hcap, if_pos hcap]
  have h1 : v1.regN 0 Reg.genDiscStatus = 0 := setGen_same u (by decide) 0 (dies_pos _)
  have h2 : v2.regN 0 Reg.genDiscRootLo = 0 := setGen_same v1 (by decide) 0 (dies_pos _)
  have h3 : v3.regN 0 Reg.genDiscRootHi = 0 := setGen_same v2 (by decide) 0 (dies_pos _)
  refine ⟨_, hexec, setStage_stage v3 (by decide), ?_, ?_, ?_⟩
  · exact (setStage_other v3 2 0 (by decide) (by decide)).trans ((setGen_other v2 (by decide) 0 0 (by decide) (by decide)).trans
      ((setGen_other v1 (by decide) 0 0 (by decide) (by decide)).trans h1))
  · exact (setStage_other v3 2 0 (by decide) (by decide)).trans ((setGen_other v2 (by decide) 0 0 (by decide) (by decide)).trans h2)
  · exact (setStage_other v3 2 0 (by decide) (by decide)).trans h3

/-! ## The start of discovery -/

theorem showKey_does (s : State) : SetsRegs s s.showKey ∧ s.showKey.rf 0 Reg.genDiscStatus 0 2 = s.rf 0 Reg.genDiscStatus 0 2 ∧
    ∀ e o, o < 2 ^ 24 → o ≠ Reg.genDiscRootLo → o ≠ Reg.genDiscRootHi → o ≠ Reg.genDiscStatus → s.showKey.regN e o = s.regN e o := by
  let u := (s.setGen Reg.genDiscRootLo (s.disc.serial % 2 ^ 32)).setGen Reg.genDiscRootHi (s.disc.serial / 2 ^ 32)
  have hu : SetsRegs s u := (setGen_sets s _ _).trans (setGen_sets _ _ _)
  have huo : ∀ e o, o < 2 ^ 24 → o ≠ Reg.genDiscRootLo → o ≠ Reg.genDiscRootHi → u.regN e o = s.regN e o := fun e o ho h1 h2 =>
    (setGen_other _ (by decide) _ e ho h2).trans (setGen_other s (by decide) _ e ho h1)
  let w := setBit (u.regN 0 Reg.genDiscStatus) 2 (u.disc.serial == u.serial)
  have heq : s.showKey = u.setGen Reg.genDiscStatus w := rfl
  have hw : w < 2 ^ 32 := setFld_lt (u.regN_lt 0 _) (by decide)
  rw [heq]
  refine ⟨hu.trans (setGen_sets u _ _), ?_, fun e o ho h1 h2 h3 => (setGen_other u (by decide) w e ho h3).trans (huo e o ho h1 h2)⟩
  have hset := setGen_same u (off := Reg.genDiscStatus) (by decide) w (dies_pos u.part)
  rw [Nat.mod_eq_of_lt hw] at hset
  refine (congrArg (fld · 0 2) hset).trans ((fld_setFld_other _ 2 1 _ 0 2 (.inl (by decide))).trans ?_)
  rw [huo 0 _ (by decide) (by decide) (by decide)]
  rfl

/-- The key of the package's own, and its torus ports enabled. -/
def State.discBegun (s : State) : State :=
  let u := s.startXyz
  let s := { s with disc := { Disc.reset with noroot := b2n (!s.rbit 0 Reg.genStraps 0), serial := s.serial, u := u, min := u, max := u }, torus := ⟨[], [], [], 0⟩ }
  ((List.range s.part.torusPorts).filter s.dieReached).foldl (fun s d => s.setRegN d Reg.ethCtrl 1) s

theorem startDiscovery_eq (s : State) : s.startDiscovery = ((s.discBegun.setGen Reg.genDiscStatus 1).showKey).setStage 3 := rfl

/-- Registers set on the dies of a list. -/
theorem setEach_does (off v : Nat) (ho : off < 2 ^ 24) (l : List Nat) (s : State) : SetsRegs s (l.foldl (fun s d => s.setRegN d off v) s) ∧
    ∀ d ∈ l, (l.foldl (fun s d => s.setRegN d off v) s).regN d off = v % 2 ^ 32 := by
  refine ⟨.foldl (fun t d => .setRegN t d _ _) l s, ?_⟩
  induction l generalizing s with
  | nil => exact fun d hd => absurd hd List.not_mem_nil
  | cons e l ih =>
    intro d hd
    by_cases hl : d ∈ l
    · exact ih (s.setRegN e off v) d hl
    · have hde : d = e := (List.mem_cons.mp hd).resolve_right hl
      rw [hde] at hl ⊢
      have hkeep : ((l.foldl (fun s d => s.setRegN d off v) (s.setRegN e off v)).regN e off) = (s.setRegN e off v).regN e off :=
        List.foldlRecOn (motive := fun t : State => t.regN e off = (s.setRegN e off v).regN e off) l _ rfl fun t ht a ha =>
          (State.regN_setRegN_other _ _ _ _ _ _ (State.regKey_ne ho ho (.inl fun (h : e = a) => hl (by rw [h]; exact ha)))).trans ht
      exact hkeep.trans (State.regN_setRegN_same _ _ _ _)

theorem portEnableAuto_does {s : State} (hd : DieUp s 0) (hstage : s.stage_ = 2) (hdisc : s.discState = 0) (hctrl : s.rbit 0 Reg.genDiscCtrl 0 = true) :
    Does .portEnableAuto s fun t => t.stage_ = 3 ∧ t.discState = 1 ∧ t.disc.serial = s.serial ∧
      (∀ d, d < s.part.torusPorts → s.dieReached d = true → t.regN d Reg.ethCtrl = 1) ∧ SameMem s t := by
  let s0 : State := { s with disc := { Disc.reset with noroot := b2n (!s.rbit 0 Reg.genStraps 0), serial := s.serial, u := s.startXyz, min := s.startXyz, max := s.startXyz }, torus := ⟨[], [], [], 0⟩ }
  obtain ⟨hset0, heth⟩ := setEach_does Reg.ethCtrl 1 (by decide) ((List.range s.part.torusPorts).filter s.dieReached) s0
  have hset0 : SetsRegs s0 s.discBegun := hset0
  let v := s.discBegun.setGen Reg.genDiscStatus 1
  obtain ⟨hkey, hstate, hkeep⟩ := showKey_does v
  have hall : SetsRegs s0 s.startDiscovery := ((hset0.trans (setGen_sets _ _ _)).trans hkey).trans (setStage_sets _ 3)
  have hv : v.regN 0 Reg.genDiscStatus = 1 := setGen_same s.discBegun (by decide) 1 (dies_pos _)
  have hexec : exec .portEnableAuto s = .next s.startDiscovery :=
    (onDie_eq hd).trans (congrArg _ (if_pos (by rw [hstage, hdisc, hctrl]; decide)))
  refine ⟨_, hexec, setStage_stage _ (by decide), ?_, ?_, fun d hd hr => ?_, ?_⟩
  · refine (congrArg (fld · 0 2) (setStage_other v.showKey 3 0 (o := Reg.genDiscStatus) (by decide) (by decide))).trans (hstate.trans ?_)
    rw [State.rf, hv]
    rfl
  · have hdiscField : s.startDiscovery.disc = s0.disc := (congrArg State.disc hall.frame :)
    rw [hdiscField]
  · refine (setStage_other v.showKey 3 d (by decide) (by decide)).trans ((hkeep d _ (by decide) (by decide) (by decide) (by decide)).trans
      ((setGen_other s.discBegun (by decide) 1 d (by decide) (by decide)).trans ?_))
    exact heth d (List.mem_filter.mpr ⟨List.mem_range.mpr hd, hr⟩)
  · exact .of_eq hall.mem hall.wiped

/-! ## HBM training -/

theorem hbmTrainingEnd_does {s : State} {d : Nat} (hd : DieUp s d) (h : s.rbit d Reg.hbmStatus 0 = false) :
    (Does (.hbmTrainingEnd d true) s fun t => t.regN d Reg.hbmStatus = 1 + 4 * s.rf d Reg.hbmCtrl 0 1 ∧ SameMem s t) ∧
      exec (.hbmTrainingEnd d false) s = .next ((s.setRegN d Reg.hbmStatus 2).fence d 0x0E 5) := by
  have hno : ¬ (s.rbit d Reg.hbmStatus 0 = true) := by
    rw [h]
    decide
  refine ⟨⟨s.setRegN d Reg.hbmStatus (1 + 4 * s.rf d Reg.hbmCtrl 0 1), (onDie_eq hd).trans (congrArg _ ((if_neg hno).trans (if_pos rfl))), ?_,
    (SetsRegs.setRegN s d _ _).sameMem⟩, (onDie_eq hd).trans (congrArg _ ((if_neg hno).trans (if_neg (by decide))))⟩
  rw [State.regN_setRegN_same, State.rf, fld_eq_mod_div]
  omega

end Sys2Proof.Machine

open Sys2Proof Sys2Proof.Machine

/-- Settles O20: each step of bring-up writes its stage and fields on every die, or names why it stops. -/
theorem bringUp : Obligations.BringUp := by
  unfold Obligations.BringUp
  refine ⟨fun s okA okB k hd hrun hstage hslot => guardBoot_runs hd hrun hstage hslot, fun s okA okB hd hrun hstage hslot => guardBoot_fails hd hrun hstage hslot,
    fun s hd hrun hstage => dieEnumeration_fails hd hrun hstage, fun s hd hrun hstage hcap => dieEnumeration_full hd hrun hstage hcap,
    fun s d hd hne hrun hcap => (onDie_eq hd).trans (congrArg _ (if_neg (by simp [hne, hrun, hcap]))),
    fun s hd hstage hdisc hctrl => portEnableAuto_does hd hstage hdisc hctrl, fun s d hd h => hbmTrainingEnd_does hd h⟩

end

/-! PROOF. Discovery of the torus, and the links of its ports. -/

section

namespace Sys2Proof.Machine

open Sys2Proof

/-! ## Frames that the package sends and takes -/

theorem sendDisc_calm (s : State) (d : Nat) : Calm { s with disc := (s.sendDisc d).disc } (s.sendDisc d) := by
  unfold State.sendDisc
  split
  · have h := Calm.queueTx { s with disc := { s.disc with owes := without d s.disc.owes } } d ⟨7, 0, false, none, .disc (s.discTx d)⟩
    have hd : (State.sendItem { s with disc := { s.disc with owes := without d s.disc.owes } } d 7 0 (.disc (s.discTx d))).disc =
        { s.disc with owes := without d s.disc.owes } := h.disc
    rw [hd]
    exact h
  · exact .refl s

theorem discoverySendTimer_does {s : State} {d : Nat} (hd : DieUp s d) (hwhen : s.discState = 1 ∨ d ∈ s.disc.owes) (hport : d < s.part.torusPorts)
    (hup : s.portUp d = true) (hheld : s.heldOut d = false) (hstate : s.discState ≠ 0) : Does (.discoverySendTimer d) s fun t =>
    d ∉ t.disc.owes ∧ t = ({ s with disc := { s.disc with owes := without d s.disc.owes } } : State).sendItem d 7 0 (.disc (s.discTx d)) := by
  have hsend : s.sendDisc d = ({ s with disc := { s.disc with owes := without d s.disc.owes } } : State).sendItem d 7 0 (.disc (s.discTx d)) :=
    if_pos (by simp [hport, hup, hheld, hstate])
  have hexec : exec (.discoverySendTimer d) s = .next (s.sendDisc d) := (onDie_eq hd).trans (congrArg _ (if_pos (by simpa using hwhen)))
  refine ⟨_, hexec.trans (congrArg _ hsend), ?_, rfl⟩
  have hdisc := (Calm.queueTx { s with disc := { s.disc with owes := without d s.disc.owes } } d ⟨7, 0, false, none, .disc (s.discTx d)⟩).disc
  exact fun hm => (without_sub.mp (hdisc ▸ hm)).2 rfl

/-- The state that adopts a better key, which every torus port owes on. -/
theorem discAdopt_disc (s : State) (d : Nat) (f : DiscFrame) : (s.discAdopt d f).disc =
    (let u := if s.strapped then s.disc.u else candidate d f.u
     { s.disc with estab := f.estab, noroot := f.noroot, serial := f.serial, u := u, min := zip3 min f.min u, max := zip3 max f.max u, g := f.g,
                   owes := List.range s.part.torusPorts }) := rfl

theorem discTakes {s : State} {d : Nat} {f : DiscFrame} (hport : d < s.part.torusPorts) (hup : s.portUp d = true) (hheld : s.heldOut d = false)
    (hstate : s.discState = 1) (hkind : f.kind = 0) (hver : f.ver = 1) :
    ¬ ((s.part.torusPorts ≤ d || !s.portUp d || s.heldOut d || s.discState = 0 || f.kind ≠ 0 || f.ver ≠ 1) = true) := by
  simp [hup, hheld, hstate, hkind, hver, hport]

theorem discoveryFrame_adopts {s : State} {d : Nat} {f : DiscFrame} (hd : DieUp s d) (hport : d < s.part.torusPorts) (hup : s.portUp d = true)
    (hheld : s.heldOut d = false) (hstate : s.discState = 1) (hheard : s.disc.heard.contains d = true) (hrank : s.disc.rank f = 0) (hkind : f.kind = 0)
    (hver : f.ver = 1) : Does (.discoveryFrame d f) s fun t => t.disc.serial = f.serial ∧ t.disc.noroot = f.noroot ∧ t.disc.estab = f.estab ∧ t.disc.g = f.g ∧
      t.disc.u = (if s.strapped then s.disc.u else candidate d f.u) ∧ t.disc.owes = List.range s.part.torusPorts := by
  obtain ⟨l, htake⟩ := modEth_state s d fun e =>
    match e.rx.findIdx? fun x => x.1 == 0x88B8 with
    | some i => { e with rx := e.rx.take i ++ e.rx.drop (i + 1) }
    | none => e
  have htake : s.takeRx d 0x88B8 = { s with eths := l } := htake
  let s1 : State := { s with eths := l }
  let s2 : State := { s1 with disc := { s.disc with peers := kvPut s.disc.peers d f.u } }
  let t : State := { s2.discAdopt d f with disc := { (s2.discAdopt d f).disc with peers := [(d, f.u)] } }
  have hrank2 : s2.disc.rank f = 0 := hrank
  have hheld1 : s1.heldOut d = false := hheld
  have hstate2 : s2.discState = 1 := hstate
  have hdisc : s1.discTake d f = t := by
    unfold State.discTake
    dsimp only
    rw [if_pos hheard, if_neg (by rw [hheld1]; decide)]
    have hpeer : (if f.noroot = s1.disc.noroot && f.serial = s1.disc.serial || s1.disc.rank f = 0 then
        { s1 with disc := { s1.disc with peers := kvPut s1.disc.peers d f.u } } else s1) = s2 := if_pos (by simp [show s1.disc.rank f = 0 from hrank])
    rw [hpeer, if_neg (by rw [hstate2]; decide), hrank2]
    rfl
  have hexec : exec (.discoveryFrame d f) s = .next t.loseUnreached := by
    refine (onDie_eq hd).trans (congrArg _ ?_)
    rw [htake, ← hdisc]
    exact if_neg (discTakes (s := s1) hport hup hheld hstate hkind hver)
  have hcalm := (Calm.loseUnreached t).disc
  refine ⟨_, hexec, ?_⟩
  dsimp only
  rw [hcalm]
  exact ⟨rfl, rfl, rfl, rfl, rfl, rfl⟩

/-! ## Coordinates that become valid -/

theorem fld_low_mod (v : Nat) : fld (v % 2 ^ 32) 0 2 = fld v 0 2 := by
  rw [fld_eq_mod_div, fld_eq_mod_div]
  omega

/-- Holding a port out writes bits above the state of discovery. -/
theorem holdOut_low (s : State) (d : Nat) (why : Option Nat) (h : ∀ lo, why = some lo → 2 ≤ lo + d) :
    (s.holdOut d why).rf 0 Reg.genDiscStatus 0 2 = s.rf 0 Reg.genDiscStatus 0 2 := by
  have hlow : fld (setBit (s.regN 0 Reg.genDiscStatus) (8 + d) true) 0 2 = s.rf 0 Reg.genDiscStatus 0 2 := fld_setFld_other _ _ 1 _ 0 2 (.inl (by omega))
  cases why with
  | none => exact (congrArg (fld · 0 2) (setGen_same s (by decide) _ (dies_pos s.part))).trans ((fld_low_mod _).trans hlow)
  | some lo =>
    exact (congrArg (fld · 0 2) (setGen_same s (by decide) _ (dies_pos s.part))).trans
      ((fld_low_mod _).trans ((fld_setFld_other _ _ 1 _ 0 2 (.inl (by have := h lo rfl; omega))).trans hlow))

theorem holdOut_sets (s : State) (d : Nat) (why : Option Nat) : SetsRegs s (s.holdOut d why) := setGen_sets s _ _

theorem holdOut_other (s : State) (d : Nat) (why : Option Nat) (e : Nat) {o : Nat} (ho : o < 2 ^ 24) (hne : o ≠ Reg.genDiscStatus) :
    (s.holdOut d why).regN e o = s.regN e o := setGen_other s (by decide) _ e ho hne

/-- The coordinates and sizes written on every die, and discovery at its end. -/
def State.discPlaced (s : State) : State :=
  let x := { s.disc with estab := true }
  let at_ := fun (a n : Nat) => (axisOf x.u a % (n : Int)).toNat
  let s := { s with disc := x }
  let s := s.setGen Reg.whlCoord (at_ 0 x.dims.1 % 64 + 256 * (at_ 1 x.dims.2.1 % 16) + 65536 * (at_ 2 x.dims.2.2 % 16) + 2 ^ 31)
  let s := s.setGen Reg.whlDims (x.dims.1 % 128 + 256 * (x.dims.2.1 % 32) + 65536 * (x.dims.2.2 % 32))
  (s.setGen Reg.genDiscStatus (setFld (s.regN 0 Reg.genDiscStatus) 0 2 2)).setStage 5

/-- The ports whose peer has another place are held out. -/
def State.discChecked (s : State) (peers : List (Nat × Int × Int × Int)) (x : Disc) : State :=
  (peers.filter fun y => s.portUp y.1 && !s.heldOut y.1 && !x.peerRight y.1 y.2).foldl (fun s y => s.holdOut y.1 (some 24)) s

theorem discoveryValid_exec {s : State} (hd : DieUp s 0) (hstate : s.discState = 1) :
    exec .discoveryValid s = .next ((s.discPlaced.discChecked s.disc.peers { s.disc with estab := true }).discChanged) :=
  (onDie_eq hd).trans (congrArg _ (if_neg (by rw [hstate]; decide)))

theorem discPlaced_does (s : State) : SetsRegs { s with disc := { s.disc with estab := true } } s.discPlaced ∧ s.discPlaced.stage_ = 5 ∧
    s.discPlaced.rf 0 Reg.genDiscStatus 0 2 = 2 ∧
    s.discPlaced.regN 0 Reg.whlDims = ((s.disc.dims).1 % 128 + 256 * ((s.disc.dims).2.1 % 32) + 65536 * ((s.disc.dims).2.2 % 32)) := by
  let s0 : State := { s with disc := { s.disc with estab := true } }
  unfold State.discPlaced
  dsimp only
  generalize hcoord : (axisOf s.disc.u 0 % (_ : Int)).toNat % 64 + _ + _ + 2 ^ 31 = coord
  let s1 := s0.setGen Reg.whlCoord coord
  let s2 := s1.setGen Reg.whlDims ((s.disc.dims).1 % 128 + 256 * ((s.disc.dims).2.1 % 32) + 65536 * ((s.disc.dims).2.2 % 32))
  let s3 := s2.setGen Reg.genDiscStatus (setFld (s2.regN 0 Reg.genDiscStatus) 0 2 2)
  have h2 := setGen_same s1 (off := Reg.whlDims) (by decide) ((s.disc.dims).1 % 128 + 256 * ((s.disc.dims).2.1 % 32) + 65536 * ((s.disc.dims).2.2 % 32)) (dies_pos s1.part)
  have h3 := setGen_same s2 (off := Reg.genDiscStatus) (by decide) (setFld (s2.regN 0 Reg.genDiscStatus) 0 2 2) (dies_pos s2.part)
  refine ⟨(((setGen_sets s0 _ _).trans (setGen_sets s1 _ _)).trans (setGen_sets s2 _ _)).trans (setStage_sets s3 5), setStage_stage s3 (by decide), ?_, ?_⟩
  · refine (congrArg (fld · 0 2) (setStage_other s3 5 0 (o := Reg.genDiscStatus) (by decide) (by decide))).trans ((congrArg (fld · 0 2) h3).trans ((fld_low_mod _).trans ?_))
    exact fld_setFld_same _ 0 2 2
  · refine (setStage_other s3 5 0 (by decide) (by decide)).trans ((setGen_other s2 (by decide) _ 0 (by decide) (by decide)).trans (h2.trans (Nat.mod_eq_of_lt ?_)))
    omega

theorem discChecked_does (s : State) (peers : List (Nat × Int × Int × Int)) (x : Disc) : SetsRegs s (s.discChecked peers x) ∧
    (s.discChecked peers x).rf 0 Reg.genDiscStatus 0 2 = s.rf 0 Reg.genDiscStatus 0 2 ∧
    ∀ o, o < 2 ^ 24 → o ≠ Reg.genDiscStatus → (s.discChecked peers x).regN 0 o = s.regN 0 o := by
  refine ⟨SetsRegs.foldl (f := fun (s : State) (y : Nat × Int × Int × Int) => s.holdOut y.1 (some 24)) (fun t y => holdOut_sets t y.1 _) _ s, ?_, fun o ho hne => ?_⟩
  · refine foldl_keeps (f := fun (s : State) (y : Nat × Int × Int × Int) => s.holdOut y.1 (some 24))
      (P := fun t : State => t.rf 0 Reg.genDiscStatus 0 2 = s.rf 0 Reg.genDiscStatus 0 2) (fun t y h => Eq.trans ?_ h) _ rfl
    exact holdOut_low t y.1 (some 24) fun lo hlo => by
      have : lo = 24 := (Option.some.inj hlo).symm
      omega
  · exact foldl_keeps (f := fun (s : State) (y : Nat × Int × Int × Int) => s.holdOut y.1 (some 24)) (P := fun t : State => t.regN 0 o = s.regN 0 o)
      (fun t y h => (holdOut_other t y.1 _ 0 ho hne).trans h) _ rfl

theorem discoveryValid_does {s : State} (hd : DieUp s 0) (hstate : s.discState = 1) : Does .discoveryValid s fun t =>
    t.discState = 2 ∧ t.stage_ = 5 ∧ t.disc.estab = true ∧
      t.regN 0 Reg.whlDims = ((s.disc.dims).1 % 128 + 256 * ((s.disc.dims).2.1 % 32) + 65536 * ((s.disc.dims).2.2 % 32)) ∧ SameMem s t := by
  obtain ⟨hset1, hstage, hdone, hdims⟩ := discPlaced_does s
  obtain ⟨hset2, hlow2, hreg2⟩ := discChecked_does s.discPlaced s.disc.peers { s.disc with estab := true }
  refine ⟨_, discoveryValid_exec hd hstate, ?_⟩
  generalize s.discPlaced.discChecked s.disc.peers { s.disc with estab := true } = u at *
  obtain ⟨hset3, hlow3, hreg3⟩ := showKey_does u
  have hreg : ∀ o, o < 2 ^ 24 → o ≠ Reg.genDiscRootLo → o ≠ Reg.genDiscRootHi → o ≠ Reg.genDiscStatus → u.discChanged.regN 0 o = s.discPlaced.regN 0 o :=
    fun o ho h1 h2 h3 => (hreg3 0 o ho h1 h2 h3).trans (hreg2 o ho h3)
  have hall := hset1.trans hset2
  have hdisc : u.disc.estab = true := congrArg Disc.estab (congrArg State.disc hall.frame :)
  refine ⟨hlow3.trans (hlow2.trans hdone), (congrArg (fld · 0 4) (hreg _ (by decide) (by decide) (by decide) (by decide))).trans hstage, hdisc,
    (hreg _ (by decide) (by decide) (by decide) (by decide)).trans hdims, ?_⟩
  exact .of_eq (hset3.mem.trans hall.mem) (hset3.wiped.trans hall.wiped)

/-! ## Links of ports -/

theorem portLinkUp_does {s : State} {d : Nat} (hd : DieUp s d) (hoff : s.portUp d = false) (hmay : s.portMayUp d = true) :
    Does (.portLinkUp d) s fun t => t.portUp d = true := by
  have hup : ((s.linkUpNow d).loseFrames).portUp d = true := ((Calm.loseFrames (s.linkUpNow d)).portUp d).trans (linkUpNow_does s d).2.1
  refine ⟨_, (onDie_eq hd).trans (congrArg _ (if_neg (by simp [hoff, hmay]))), ?_⟩
  generalize (s.linkUpNow d).loseFrames = u at hup
  dsimp only
  split
  · exact hup
  · refine ((sendDisc_calm _ d).portUp d).trans ?_
    split
    · exact (congrArg (bit · 0) (setStage_other u 4 d (o := Reg.ethStatus) (by decide) (by decide))).trans hup
    · exact hup

theorem portHoldoutTimeout_does {s : State} {d : Nat} (hd : DieUp s d) (hport : d < s.part.torusPorts) (hen : s.rbit d Reg.ethCtrl 0 = true)
    (hoff : s.portUp d = false) (hstate : s.discState ≠ 0) :
    Does (.portHoldoutTimeout d) s fun t => t.heldOut d = true ∧ ∀ e, e ≠ d → t.heldOut e = s.heldOut e := by
  have hcalm := Calm.loseUnreached (s.holdOut d none)
  have hset := setGen_same s (off := Reg.genDiscStatus) (by decide) (setBit (s.regN 0 Reg.genDiscStatus) (8 + d) true) (dies_pos s.part)
  have hdl := hport.trans_le (torusPorts_le s.part)
  have hlt : setBit (s.regN 0 Reg.genDiscStatus) (8 + d) true < 2 ^ 32 := setFld_lt (s.regN_lt 0 _) (by omega)
  rw [Nat.mod_eq_of_lt hlt] at hset
  have hheld : ∀ e, ((s.holdOut d none).loseUnreached).heldOut e = bit (setBit (s.regN 0 Reg.genDiscStatus) (8 + d) true) (8 + e) := fun e =>
    (hcalm.rbit 0 (by decide) _).trans (congrArg (bit · (8 + e)) hset)
  refine ⟨_, (onDie_eq hd).trans (congrArg _ (if_pos (by simp [hport, hen, hoff, hstate]))), (hheld d).trans ?_, fun e he => (hheld e).trans ?_⟩
  · rw [bit_setBit, if_pos rfl]
  · rw [bit_setBit, if_neg (by omega)]
    rfl

theorem portLinkDown_does {s : State} {d : Nat} (hd : DieUp s d) (hside : s.part.torusPorts ≤ d) (hup : s.portUp d = true) :
    Does (.portLinkDown d) s fun t => t.portUp d = false ∧ ∀ e, e ≠ d → t.portUp e = s.portUp e := by
  have hother : ∀ e, e ≠ d → (s.portDown d).portUp e = s.portUp e := fun e he =>
    congrArg (bit · 0) ((portDown_regsBut s d).regN (by simpa using State.regKey_ne (by decide) (by decide) (.inl he)))
  have hdown := portUp_portDown s d
  refine ⟨_, (onDie_eq hd).trans (congrArg _ (if_neg (by simp [hup, hside]))), ?_⟩
  generalize s.portDown d = u at hother hdown
  dsimp only
  have hcalm : ∀ (fs q : List TxFrame), Calm u (fs.foldl (fun s f => s.queueRouted s.sidePort f)
      (((u.modEth d fun e => { e with txq := q }).modWire d 1 fun _ => Link.idle d 1).modWire d 2 fun _ => Link.idle d 2)).loseUnreached := fun fs q =>
    ((((Calm.modEth u d _).trans (.modWire _ d 1 _)).trans (.modWire _ d 2 _)).trans
      (Calm.foldl (f := fun s f => s.queueRouted s.sidePort f) fs (fun t f _ => .queueRouted t _ f) _)).trans (.loseUnreached _)
  exact ⟨((hcalm _ _).portUp d).trans hdown, fun e he => ((hcalm _ _).portUp e).trans (hother e he)⟩

end Sys2Proof.Machine

open Sys2Proof Sys2Proof.Machine

/-- Settles O21: each step of discovery changes the key, the coordinates or one port's mark, and work goes on. -/
theorem discovery : Obligations.Discovery := by
  unfold Obligations.Discovery
  exact ⟨fun s d hd hwhen hport hup hheld hstate => discoverySendTimer_does hd hwhen hport hup hheld hstate,
    fun s d f hd hport hup hheld hstate hheard hrank hkind hver => discoveryFrame_adopts hd hport hup hheld hstate hheard hrank hkind hver,
    fun s hd hstate => discoveryValid_does hd hstate, fun s d hd hoff hmay => portLinkUp_does hd hoff hmay,
    fun s d hd hport hen hoff hstate => portHoldoutTimeout_does hd hport hen hoff hstate, fun s d hd hside hup => portLinkDown_does hd hside hup⟩

end

section
/-! PROOF. Serving streams: what a write to the control register leaves, what a build counts and lists, and what feeding the ring
keeps of the stream. -/

namespace Sys2Proof.Machine

theorem srv_setSrv (s : State) (x : Srv) : (s.setSrv x).srv x.p = x := by
  unfold State.srv State.setSrv
  dsimp only
  rw [List.find?_append, List.find?_eq_none.mpr fun y hy => by simpa using (List.mem_filter.mp hy).2]
  simp

theorem srv_p (s : State) (p : Nat) : (s.srv p).p = p := by
  unfold State.srv
  cases h : s.srvs.find? fun x => x.p == p with
  | none => rfl
  | some x => simpa using List.find?_some h

theorem srv_congr {s t : State} (h : t.srvs = s.srvs) (p : Nat) : t.srv p = s.srv p := by
  unfold State.srv
  rw [h]

theorem srv_event (s : State) (p code d src : Nat) (payload : List Byte) : (s.event p code d src payload).srvs = s.srvs := by
  obtain ⟨c, k, g, m, po, q, l, h, o, he, -⟩ := State.event_state s p code d src payload
  rw [he]

theorem nameVictim_regN (s : State) (p : Nat) {o : Nat} (h : o < 0x100A40 ∨ 0x100C00 ≤ o) (ho : o < 2 ^ 24) (hp : p < 16) :
    (s.nameVictim p).regN 0 o = s.regN 0 o :=
  State.regN_setRegN_other _ _ _ _ _ _ (State.regKey_ne ho (by unfold Reg.seqModelVictim; omega) (.inr (by unfold Reg.seqModelVictim; omega)))

/-! ## Enabling and disabling -/

theorem servingEnable_exec {s : State} {p : Nat} {v : W32} (ht : s.tripped = false) (hp : p < 16) (hv : bit v.toNat 0 = true) :
    exec (.servingEnable p v) s = .next (s.srvCtrlWrite p v.toNat) :=
  (live_eq ht).trans (congrArg _ (if_pos (by simp [hp, hv])))

theorem srvCtrlWrite_full {s : State} {p v : Nat} (hv : bit v 0 = true) (hoff : s.srvOn p = false) (hfull : 16384 < s.srvTotal + s.srvCount p) :
    s.srvCtrlWrite p v = s :=
  (if_neg (by rw [show bit (s.regN 0 (Reg.seqSrvCtrl p)) 0 = false from hoff]; decide)).trans ((if_neg (by simp [hv])).trans (if_pos hfull))

/-- The state of a stream that was just enabled. -/
def State.srvStarted (s : State) (p v : Nat) : State :=
  let s := s.setRegN 0 (Reg.seqSrvCtrl p) (v % 2 ^ 9)
  let s := s.setRegN 0 (Reg.seqSrvStep p) 0
  s.setSrv { s.srv p with last := s.srvCount p - 1 }

theorem srvCtrlWrite_starts {s : State} {p v : Nat} (hv : bit v 0 = true) (hoff : s.srvOn p = false) (hroom : s.srvTotal + s.srvCount p ≤ 16384) :
    s.srvCtrlWrite p v = s.srvStarted p v :=
  (if_neg (by rw [show bit (s.regN 0 (Reg.seqSrvCtrl p)) 0 = false from hoff]; decide)).trans
    ((if_neg (by simp [hv])).trans (if_neg (by omega)))

theorem srvStarted_does (s : State) (p v : Nat) : (s.srvStarted p v).regN 0 (Reg.seqSrvCtrl p) = v % 2 ^ 9 ∧
    (s.srvStarted p v).regN 0 (Reg.seqSrvStep p) = 0 ∧ ((s.srvStarted p v).srv p).last = s.srvCount p - 1 := by
  let s1 := s.setRegN 0 (Reg.seqSrvCtrl p) (v % 2 ^ 9)
  let s2 := s1.setRegN 0 (Reg.seqSrvStep p) 0
  have hcount : s2.regN 0 (Reg.seqSrvCount p) = s.regN 0 (Reg.seqSrvCount p) :=
    (State.regN_setRegN_other _ _ _ _ _ _ (by unfold regKey Reg.seqSrvStep Reg.seqSrvCount; omega)).trans
      (State.regN_setRegN_other _ _ _ _ _ _ (by unfold regKey Reg.seqSrvCtrl Reg.seqSrvCount; omega))
  refine ⟨?_, State.regN_setRegN_same s1 0 (Reg.seqSrvStep p) 0, ?_⟩
  · have hne : regKey 0 (Reg.seqSrvCtrl p) ≠ regKey 0 (Reg.seqSrvStep p) := by
      unfold regKey Reg.seqSrvStep Reg.seqSrvCtrl
      omega
    refine (State.regN_setRegN_other s1 0 _ _ _ _ hne).trans ?_
    exact (State.regN_setRegN_same s 0 _ _).trans (Nat.mod_eq_of_lt (by omega))
  · have h := srv_setSrv s2 { s2.srv p with last := s2.srvCount p - 1 }
    rw [show ({ s2.srv p with last := s2.srvCount p - 1 } : Srv).p = p from srv_p s2 p] at h
    exact (congrArg Srv.last h).trans (congrArg (fun n => fld n 0 15 - 1) hcount)

theorem servingDisable_does {s : State} {p : Nat} (ht : s.tripped = false) (hp : p < 16) (hon : s.srvOn p = true) :
    Does (.servingDisable p) s fun t => t.srvOn p = false ∧ t.srvs = s.srvs ∧ t.mem = s.mem := by
  let v := setBit (s.regN 0 (Reg.seqSrvCtrl p)) 0 false
  have hoff : bit v 0 = false := (bit_setBit _ 0 0 false).trans (if_pos rfl)
  let u := s.setRegN 0 (Reg.seqSrvCtrl p) (setBit (s.regN 0 (Reg.seqSrvCtrl p)) 0 (bit v 0))
  have hwrite : s.srvCtrlWrite p v = u.nameVictim p := (if_pos hon).trans (if_neg (by rw [hoff]; decide))
  refine ⟨u.nameVictim p, (live_eq ht).trans (congrArg _ ((if_pos (by simp [hp, hon])).trans hwrite)), ?_, rfl, rfl⟩
  refine (congrArg (bit · 0) (nameVictim_regN u p (.inl (by unfold Reg.seqSrvCtrl; omega)) (by unfold Reg.seqSrvCtrl; omega) hp)).trans ?_
  have hreg := State.regN_setRegN_same s 0 (Reg.seqSrvCtrl p) (setBit (s.regN 0 (Reg.seqSrvCtrl p)) 0 (bit v 0))
  refine (congrArg (bit · 0) hreg).trans ?_
  rw [bit_zero_mod, bit_setBit, if_pos rfl, hoff]

/-! ## What feeding the ring keeps -/

/-- A step keeps what the stream of a partition has in flight, and the counter of the rows batched. -/
structure StreamKept (p : Nat) (s t : State) : Prop where
  inFlight : (t.srv p).inFlight = (s.srv p).inFlight
  last : (t.srv p).last = (s.srv p).last
  included : (t.srv p).included = (s.srv p).included
  ctr : t.ctr 0 (Reg.seqSchCntLo p 4) = s.ctr 0 (Reg.seqSchCntLo p 4)

namespace StreamKept

variable {p : Nat} {s t u : State}

theorem refl (p : Nat) (s : State) : StreamKept p s s := ⟨rfl, rfl, rfl, rfl⟩

theorem trans (h : StreamKept p s t) (g : StreamKept p t u) : StreamKept p s u :=
  ⟨g.inFlight.trans h.inFlight, g.last.trans h.last, g.included.trans h.included, g.ctr.trans h.ctr⟩

theorem of_srvs (hs : t.srvs = s.srvs) (hc : t.ctr 0 (Reg.seqSchCntLo p 4) = s.ctr 0 (Reg.seqSchCntLo p 4)) : StreamKept p s t := by
  have h := srv_congr hs p
  exact ⟨congrArg Srv.inFlight h, congrArg Srv.last h, congrArg Srv.included h, hc⟩

theorem write (p a : Nat) (bs : List Byte) (s : State) : StreamKept p s (s.write a bs) := by
  refine of_srvs ?_ (State.ctr_congr (State.write_ctrs s a bs false) _ _)
  rw [State.write_fields]

theorem ringBump (hp : p < 16) (d i n : Nat) (s : State) : StreamKept p s (s.bump d (Reg.ringCntLo i) n) :=
  of_srvs rfl (State.ctr_bump_other _ _ _ _ _ _ (by unfold regKey Reg.seqSchCntLo Reg.ringCntLo; omega))

theorem doorbellEvent (hp : p < 16) (r v cause : Nat) (s : State) : StreamKept p s (s.doorbellEvent r v cause) :=
  of_srvs (srv_event s _ _ _ _ _) (State.event_ctr_other s _ _ _ _ _ _ _ (by unfold Reg.seqSchCntLo; omega)
    (.inr (by unfold Reg.seqSchCntLo; omega)) (by unfold Reg.seqSchCntLo Reg.ringCntLo; omega) (by unfold Reg.seqSchCntLo Reg.ringCntLo; omega))

theorem rejectBell (hp : p < 16) (r v cause : Nat) (s : State) : StreamKept p s (s.rejectBell r v cause) :=
  ((ringBump hp (ringDie r) 3 1 s).trans (show StreamKept p (s.bump (ringDie r) (Reg.ringCntLo 3) 1) ((s.bump (ringDie r) (Reg.ringCntLo 3) 1).setRingStat r 3 true) from
    of_srvs rfl rfl)).trans
    (doorbellEvent hp r v cause _)

theorem leaveIdle (p d q : Nat) (s : State) : StreamKept p s (s.leaveIdle d q) := by
  obtain ⟨r, c, h⟩ := leaveIdle_state s d q
  exact of_srvs (by rw [h]) (leaveIdle_ctr s d q _ _)

theorem bellPi (hp : p < 16) (r v : Nat) (m : Master) (s : State) : StreamKept p s (s.bellPi r v m) := by
  unfold State.bellPi
  dsimp only
  split
  · exact (ringBump hp _ 3 1 s).trans (doorbellEvent hp r v 4 _)
  · split
    · exact rejectBell hp r v 1 s
    · split
      · exact rejectBell hp r v 2 s
      · split
        · exact ((of_srvs rfl rfl : StreamKept p s (s.setRing r Reg.ringPi _)).trans (ringBump hp _ 2 1 _)).trans (leaveIdle p _ _ _)
        · exact rejectBell hp r v 0 s

/-- Putting the stream back with other copies. -/
theorem setSrv {x : Srv} (hx : x.p = p) (h1 : x.inFlight = (s.srv p).inFlight) (h2 : x.last = (s.srv p).last) (h3 : x.included = (s.srv p).included) :
    StreamKept p s (s.setSrv x) := by
  have h : (s.setSrv x).srv p = x := hx ▸ srv_setSrv s x
  exact ⟨(congrArg Srv.inFlight h).trans h1, (congrArg Srv.last h).trans h2, (congrArg Srv.included h).trans h3, rfl⟩

theorem feedRing (hp : p < 16) (l : List (Nat × List Byte)) (s : State) : StreamKept p s (s.feedRing p l) := by
  induction l generalizing s with
  | nil => exact setSrv (srv_p s p) rfl rfl rfl
  | cons c rest ih =>
    unfold State.feedRing
    dsimp only
    split
    · exact setSrv (srv_p s p) rfl rfl rfl
    · refine (write p _ _ s).trans (StreamKept.trans (setSrv ?_ ?_ ?_ ?_) ((bellPi hp _ _ _ _).trans (ih _)))
      · exact srv_p _ p
      · rfl
      · rfl
      · rfl

end StreamKept

/-! ## Building a step -/

/-- Memory and its poison marks may change, and nothing else does. -/
def OnlyMem (s t : State) : Prop := t = { s with mem := t.mem, poison := t.poison }

namespace OnlyMem

variable {s t u : State}

theorem refl (s : State) : OnlyMem s s := rfl

theorem trans (h : OnlyMem s t) (g : OnlyMem t u) : OnlyMem s u := by
  unfold OnlyMem at *
  rw [h] at g
  exact g

theorem write (s : State) (a : Nat) (bs : List Byte) : OnlyMem s (s.write a bs) := by
  unfold OnlyMem
  conv_lhs => rw [State.write_fields]
  rw [State.write_mem]

theorem ite {c : Prop} [Decidable c] (h : OnlyMem s t) (g : OnlyMem s u) : OnlyMem s (if c then t else u) := by
  split
  · exact h
  · exact g

theorem regs (h : OnlyMem s t) : t.regs = s.regs := by rw [h]
theorem ctrs (h : OnlyMem s t) : t.ctrs = s.ctrs := by rw [h]
theorem srvs (h : OnlyMem s t) : t.srvs = s.srvs := by rw [h]
theorem part (h : OnlyMem s t) : t.part = s.part := by rw [h]

theorem foldl {α : Type} {f : State → α → State} (hf : ∀ t a, OnlyMem t (f t a)) (l : List α) (s : State) : OnlyMem s (l.foldl f s) :=
  foldl_keeps (P := OnlyMem s) (fun t a h => h.trans (hf t a)) l (refl s)

theorem writeSeqs (s : State) (m n : Nat) : OnlyMem s (s.writeSeqs m n) := ite (write s _ _) (refl s)

theorem serveModel (s : State) (p : Nat) (ents : List (List Byte)) (x : Scan) (m : Nat) : OnlyMem s (s.serveModel p ents x m).1 :=
  ite (write s _ _) (refl s)

end OnlyMem

/-- The batch records of the models, written one after the other, and the copies of their templates. -/
def State.serveModels (s : State) (p : Nat) (ents : List (List Byte)) (x : Scan) (models : List Nat) : State × List (Nat × List Byte) :=
  models.foldl (fun (a : State × List (Nat × List Byte)) m =>
    let (s, l) := a.1.serveModel p ents x m
    (s, a.2 ++ l)) (s, [])

theorem serveModels_onlyMem (s : State) (p : Nat) (ents : List (List Byte)) (x : Scan) (models : List Nat) :
    OnlyMem s (s.serveModels p ents x models).1 := by
  unfold State.serveModels
  generalize ([] : List (Nat × List Byte)) = l0
  induction models generalizing s l0 with
  | nil => exact .refl s
  | cons m ms ih => exact (OnlyMem.serveModel s p ents x m).trans (ih _ _)

section
variable {s : State} {p : Nat}

theorem buildStep_none (hon : s.srvOn p = true) (hidle : (s.srv p).inFlight = false) (hserves : s.serves = true)
    (hx : (s.scan p ((List.range 64).map s.modelEntry)).rows.getLast? = none) :
    OnlyMem (s.bump 0 (Reg.seqSchCntLo p 5) (s.scan p ((List.range 64).map s.modelEntry)).wait) (s.buildStep p) := by
  unfold State.buildStep
  rw [if_neg (by simp [hon, hidle, hserves])]
  dsimp only
  rw [hx]
  exact .foldl (fun t m => .writeSeqs t m _) _ _

/-- The stream of a step just built. -/
def builtSrv (p : Nat) (r : SRow) (x : Scan) (copies : List (Nat × List Byte)) (pi : Nat) (models : List Nat) : Srv :=
  ⟨p, r.i, true, x.rows.map fun r => (r.i, r.model, r.pos), [], copies, pi, 0, 0, x.seqs, models⟩

theorem buildStep_some (hon : s.srvOn p = true) (hidle : (s.srv p).inFlight = false) (hserves : s.serves = true) {x : Scan}
    (hx : s.scan p ((List.range 64).map s.modelEntry) = x) {r : SRow} (hr : x.rows.getLast? = some r) : ∃ (u : State) (copies : List (Nat × List Byte))
      (pi : Nat) (models : List Nat), OnlyMem ((s.bump 0 (Reg.seqSchCntLo p 5) x.wait).bump 0 (Reg.seqSchCntLo p 4) x.rows.length) u ∧
      s.buildStep p = (u.setSrv (builtSrv p r x copies pi models)).feed p := by
  let u0 := (s.bump 0 (Reg.seqSchCntLo p 5) x.wait).bump 0 (Reg.seqSchCntLo p 4) x.rows.length
  let models := (List.range 64).filter fun m => decide (0 < x.count m)
  let v := u0.serveModels p ((List.range 64).map s.modelEntry) x models
  refine ⟨v.1, v.2, v.1.ringPi (v.1.servingRing p), models, serveModels_onlyMem _ _ _ _ _, ?_⟩
  unfold State.buildStep
  rw [if_neg (by simp [hon, hidle, hserves])]
  dsimp only
  rw [hx, hr]
  rfl

end

theorem servingStepBuild_waits {s : State} {p : Nat} (ht : s.tripped = false) (hp : p < 16) (hon : s.srvOn p = true)
    (hidle : (s.srv p).inFlight = false) (hserves : s.serves = true) (hx : (s.scan p ((List.range 64).map s.modelEntry)).rows = []) :
    Does (.servingStepBuild p) s fun t => (t.srv p).inFlight = false ∧ t.ctr 0 (Reg.seqSchCntLo p 5) =
      Nat.min ctrMax (s.ctr 0 (Reg.seqSchCntLo p 5) + (s.scan p ((List.range 64).map s.modelEntry)).wait) ∧ t.regs = s.regs := by
  have h := buildStep_none hon hidle hserves (hx ▸ rfl)
  refine ⟨_, (live_eq ht).trans (congrArg _ (if_pos hp)), ?_, ?_, h.regs⟩
  · exact (congrArg Srv.inFlight (srv_congr (s := s) h.srvs p)).trans hidle
  · exact (State.ctr_congr h.ctrs 0 _).trans (State.ctr_bump_same _ _ _ _)

theorem servingStepBuild_builds {s : State} {p : Nat} (ht : s.tripped = false) (hp : p < 16) (hon : s.srvOn p = true)
    (hidle : (s.srv p).inFlight = false) (hserves : s.serves = true) {x : Scan} (hx : s.scan p ((List.range 64).map s.modelEntry) = x) {r : SRow}
    (hr : x.rows.getLast? = some r) : Does (.servingStepBuild p) s fun t => (t.srv p).inFlight = true ∧ (t.srv p).last = r.i ∧
      (t.srv p).included = x.rows.map (fun r => (r.i, r.model, r.pos)) ∧
      t.ctr 0 (Reg.seqSchCntLo p 4) = Nat.min ctrMax (s.ctr 0 (Reg.seqSchCntLo p 4) + x.rows.length) := by
  obtain ⟨u, copies, pi, models, hu, hbuild⟩ := buildStep_some hon hidle hserves hx hr
  have hsrv : (u.setSrv (builtSrv p r x copies pi models)).srv p = builtSrv p r x copies pi models := srv_setSrv u _
  have hkept : StreamKept p (u.setSrv (builtSrv p r x copies pi models)) (s.buildStep p) := hbuild ▸ .feedRing hp _ _
  refine ⟨_, (live_eq ht).trans (congrArg _ (if_pos hp)), hkept.inFlight.trans (congrArg Srv.inFlight hsrv),
    hkept.last.trans (congrArg Srv.last hsrv), hkept.included.trans (congrArg Srv.included hsrv), hkept.ctr.trans ?_⟩
  refine (State.ctr_congr (s := (s.bump 0 (Reg.seqSchCntLo p 5) x.wait).bump 0 (Reg.seqSchCntLo p 4) x.rows.length) hu.ctrs 0 _).trans
    ((State.ctr_bump_same _ _ _ _).trans ?_)
  rw [State.ctr_bump_other _ _ _ _ _ _ (by unfold regKey Reg.seqSchCntLo; omega)]

/-! ## Completing a step -/

/-- What a step that has completed writes before its stream is put back: positions, counts of the models, and SEQS. -/
def State.stepWrites (s : State) (p : Nat) (x : Srv) : State :=
  let s := x.included.foldl (fun s e => s.advance p e) s
  let s := x.models.foldl (fun s m => s.useModel m) s
  (s.scanned p x.seqs).foldl (fun s m => s.writeSeqs m (kvGet 0 x.seqs m)) s

theorem finishStep_ends {s : State} {p : Nat} (hfly : (s.srv p).inFlight = true) (hcopy : (s.srv p).toCopy = []) (hleft : (s.srv p).left = 0) :
    ∃ (u : State) (x : Srv), x.p = p ∧ u = s.setSrv x ∧ s.finishStep p =
      ((((u.stepWrites p x).setRegN 0 (Reg.seqSrvStep p) ((u.stepWrites p x).regN 0 (Reg.seqSrvStep p) + 1)).bump 0 (Reg.seqSchCntLo p 3) 1).setSrv
        { x with inFlight := false, included := [], models := [], copied := 0 }).nameVictim p := by
  let x : Srv := { s.srv p with toCopy := [] }
  have hx : x.p = p := srv_p s p
  have hu : (s.setSrv x).srv p = x := (congrArg (s.setSrv x).srv hx).symm.trans (srv_setSrv s x)
  have hfeed : (if (s.srv p).inFlight then s.feed p else s) = s.setSrv x := by
    rw [if_pos hfly, State.feed, hcopy]
    rfl
  refine ⟨s.setSrv x, x, hx, rfl, ?_⟩
  unfold State.finishStep
  rw [hfeed]
  dsimp only
  rw [hu, if_neg (by simp [x, hfly, hleft])]
  rfl

theorem stepWrites_does (s : State) (p : Nat) (x : Srv) : (s.stepWrites p x).regs = s.regs ∧ (s.stepWrites p x).part = s.part ∧
    (s.stepWrites p x).ctr 0 (Reg.seqSchCntLo p 3) = s.ctr 0 (Reg.seqSchCntLo p 3) := by
  let P : State → Prop := fun t => t.regs = s.regs ∧ t.part = s.part ∧ t.ctr 0 (Reg.seqSchCntLo p 3) = s.ctr 0 (Reg.seqSchCntLo p 3)
  have hmem : ∀ t u : State, OnlyMem t u → P t → P u := fun t u h g => ⟨h.regs.trans g.1, h.part.trans g.2.1, (State.ctr_congr h.ctrs 0 _).trans g.2.2⟩
  have h1 : P (x.included.foldl (fun s e => s.advance p e) s) := by
    refine foldl_keeps (f := fun (s : State) (e : Nat × Nat × Nat) => s.advance p e) (P := P) (fun t e h => ?_) _ ⟨rfl, rfl, rfl⟩
    unfold State.advance
    dsimp only
    split
    · obtain ⟨hr, hpart, hc⟩ := hmem t _ (.write t _ _) h
      exact ⟨hr, hpart, (State.ctr_bump_other _ _ _ _ _ _ (by unfold regKey Reg.seqSchCntLo; omega)).trans hc⟩
    · exact hmem t _ (.write t _ _) h
  have h2 : ∀ t : State, P t → P (x.models.foldl (fun s m => s.useModel m) t) := fun t h =>
    foldl_keeps (f := fun (s : State) m => s.useModel m) (P := P) (fun t m g => hmem t _ ((OnlyMem.write t _ _).trans (.write _ _ _)) g) _ h
  exact hmem _ _ (.foldl (fun t m => .writeSeqs t m _) _ _) (h2 _ h1)

theorem servingStepComplete_does {s : State} {p : Nat} (ht : s.tripped = false) (hp : p < 16) (hfly : (s.srv p).inFlight = true)
    (hcopy : (s.srv p).toCopy = []) (hleft : (s.srv p).left = 0) : Does (.servingStepComplete p) s fun t => (t.srv p).inFlight = false ∧
      (t.srv p).included = [] ∧ t.regN 0 (Reg.seqSrvStep p) = (s.regN 0 (Reg.seqSrvStep p) + 1) % 2 ^ 32 ∧
      t.ctr 0 (Reg.seqSchCntLo p 3) = Nat.min ctrMax (s.ctr 0 (Reg.seqSchCntLo p 3) + 1) := by
  obtain ⟨u, x, hx, hu, hfin⟩ := finishStep_ends hfly hcopy hleft
  obtain ⟨hregs, hpart, hctr⟩ := stepWrites_does u p x
  refine ⟨_, (live_eq ht).trans (congrArg _ ((if_pos hp).trans hfin)), ?_⟩
  generalize u.stepWrites p x = v at *
  let y : Srv := { x with inFlight := false, included := [], models := [], copied := 0 }
  let w := (v.setRegN 0 (Reg.seqSrvStep p) (v.regN 0 (Reg.seqSrvStep p) + 1)).bump 0 (Reg.seqSchCntLo p 3) 1
  have hy : (w.setSrv y).srv p = y := (congrArg (w.setSrv y).srv hx).symm.trans (srv_setSrv w y)
  have hstep : v.regN 0 (Reg.seqSrvStep p) = s.regN 0 (Reg.seqSrvStep p) :=
    State.regN_congr (s := s) (hregs.trans (hu ▸ rfl)) (hpart.trans (hu ▸ rfl)) 0 _
  refine ⟨congrArg Srv.inFlight hy, congrArg Srv.included hy, ?_, ?_⟩
  · refine (nameVictim_regN _ p (.inl (by unfold Reg.seqSrvStep; omega)) (by unfold Reg.seqSrvStep; omega) hp).trans ?_
    exact (State.regN_setRegN_same v 0 _ _).trans (by rw [hstep])
  · refine (State.ctr_bump_same _ _ _ _).trans (congrArg (fun n => Nat.min ctrMax (n + 1)) ?_)
    exact hctr.trans (hu ▸ rfl)

end Sys2Proof.Machine

open Sys2Proof Sys2Proof.Machine

/-- Settles O42: a stream starts within the limit, a build lists or counts what its scan finds, and feeding the ring keeps the stream. -/
theorem servingStream : Obligations.ServingStream := by
  unfold Obligations.ServingStream
  refine ⟨fun s p v ht hp hv hoff => ⟨fun hroom => ?_, fun hfull => ?_⟩, fun s p ht hp hon => servingDisable_does ht hp hon,
    fun s p ht hp hon hidle hserves => ⟨fun hx => servingStepBuild_waits ht hp hon hidle hserves hx,
      fun r hr => servingStepBuild_builds ht hp hon hidle hserves rfl hr⟩,
    fun s p ht hp hfly hcopy hleft => servingStepComplete_does ht hp hfly hcopy hleft⟩
  · obtain ⟨hctrl, hstep, hlast⟩ := srvStarted_does s p v.toNat
    exact ⟨_, (servingEnable_exec ht hp hv).trans (congrArg _ (srvCtrlWrite_starts hv hoff hroom)), hctrl, hstep, hlast, rfl⟩
  · exact (servingEnable_exec ht hp hv).trans (congrArg _ (srvCtrlWrite_full hv hoff hfull))

end

section
/-! PROOF. Completion records, batches of experts that are built, and decoded pictures. -/

namespace Sys2Proof.Machine

/-! ## Memory written and nothing else -/

namespace OnlyMem

theorem batches {s t : State} (h : OnlyMem s t) : t.batches = s.batches := by rw [h]

theorem writeTag (s : State) (a : Nat) (bs : List Byte) (tag : Bool) : OnlyMem s (s.write a bs tag) := by
  unfold OnlyMem
  conv_lhs => rw [State.write_fields]
  rw [State.write_mem]

theorem writeTile (s : State) (a : Nat) (t : NewTile) (code scale : Nat → Nat) (mt : Option (Nat → Nat → Nat)) :
    OnlyMem s (s.writeTile a t code scale mt) := (write s (a + 64) _).trans (write _ a _)

theorem poisonRows (s : State) (x : Nat × Nat × Nat × Nat) : OnlyMem s (s.poisonRows x) := by
  obtain ⟨a, m, n, f⟩ := x
  exact foldl (fun t q => writeTile t _ _ _ _ _) _ s

theorem poisonOutput (s : State) (w : Work) : OnlyMem s (s.poisonOutput w) :=
  ite (poisonRows s _) (foldl (fun t _ => writeTag t _ _ true) _ s)

theorem putRow (s : State) (w : Work) (row : Nat) (b : List Byte) (bad : Bool) : OnlyMem s (s.putRow w row b bad) :=
  foldl (fun t _ => ite (writeTag t _ _ bad) ((writeTag t _ _ bad).trans (writeTag _ _ _ bad))) _ s

theorem putReduced (s : State) (w : Work) (k t : Nat) (h : Hdr) (one bad : Bool) (code : Nat → Nat) :
    OnlyMem s (s.putReduced w k t h one bad code).1 := by
  unfold State.putReduced
  dsimp only
  split
  · exact writeTile s _ _ _ _ _
  · exact writeTile s _ _ _ _ _

end OnlyMem

/-! ## What a collective's work keeps -/

/-- A step keeps the batches that are built and not released. -/
structure BatchesKept (s t : State) : Prop where
  eq : t.batches = s.batches

namespace BatchesKept

variable {s t u : State}

theorem refl (s : State) : BatchesKept s s := ⟨rfl⟩

theorem trans (h : BatchesKept s t) (g : BatchesKept t u) : BatchesKept s u := ⟨g.eq.trans h.eq⟩

theorem of_mem (h : OnlyMem s t) : BatchesKept s t := ⟨h.batches⟩

theorem ite {c : Prop} [Decidable c] (h : BatchesKept s t) (g : BatchesKept s u) : BatchesKept s (if c then t else u) := by
  split
  · exact h
  · exact g

theorem foldl {α : Type} {f : State → α → State} (hf : ∀ t a, BatchesKept t (f t a)) (l : List α) (s : State) : BatchesKept s (l.foldl f s) :=
  foldl_keeps (P := BatchesKept s) (fun t a h => h.trans (hf t a)) l (refl s)

theorem event (s : State) (p code d src : Nat) (payload : List Byte) : BatchesKept s (s.event p code d src payload) := by
  obtain ⟨c, k, g, m, po, q, l, h, o, he, -⟩ := State.event_state s p code d src payload
  exact ⟨by rw [he]⟩

theorem bump (s : State) (d off n : Nat) : BatchesKept s (s.bump d off n) := ⟨rfl⟩

theorem satEvent (s : State) (p d off i : Nat) : BatchesKept s (s.satEvent p d off i) := by
  unfold State.satEvent
  split
  · exact refl s
  · dsimp only
    generalize hu : ({ s with ras := _ } : State) = u
    have h : BatchesKept s u := ⟨hu ▸ rfl⟩
    exact h.trans (event u _ _ _ _ _)

theorem bumpErr (s : State) (d off i n : Nat) : BatchesKept s (s.bumpErr d off i n) := by
  unfold State.bumpErr
  dsimp only
  split
  · exact (bump s d off n).trans (foldl (f := fun (s : State) p => s.satEvent p d off i) (fun t p => satEvent t p d off i) _ _)
  · exact bump s d off n

theorem countPoisoned (s : State) (d n : Nat) : BatchesKept s (s.countPoisoned d n) := ite (refl s) ((bumpErr s _ _ _ _).trans (bumpErr _ _ _ _ _))

theorem joinGroup (s : State) (p : Nat) (bytes : List Byte) : BatchesKept s (s.joinGroup p bytes) := by
  unfold State.joinGroup
  dsimp only
  split
  · split
    · exact ⟨rfl⟩
    · exact ite ⟨rfl⟩ (refl s)
  · exact refl s

theorem issueBatch (s : State) (b : Batch) (ws : List Work) : BatchesKept s (s.issueBatch b ws) := by
  refine trans (trans ?_ (countPoisoned _ _ _)) (foldl (fun t w => of_mem (.poisonOutput t w)) _ _)
  exact ⟨rfl⟩

end BatchesKept

/-- The work of collectives keeps the batches, the re-fetches, the count of timeouts, and every descriptor that is no running collective. -/
structure Pumped (s t : State) : Prop where
  batches : t.batches = s.batches
  refetch : t.refetch = s.refetch
  timeouts : ∀ d, t.ctr d (Reg.whlCntLo 5) = s.ctr d (Reg.whlCntLo 5)
  idle : ∀ id, s.coll id = none → t.coll id = none ∧ t.work id = s.work id

namespace Pumped

variable {s t u : State}

theorem refl (s : State) : Pumped s s := ⟨rfl, rfl, fun _ => rfl, fun _ h => ⟨h, rfl⟩⟩

theorem trans (h : Pumped s t) (g : Pumped t u) : Pumped s u := by
  refine ⟨g.batches.trans h.batches, g.refetch.trans h.refetch, fun d => (g.timeouts d).trans (h.timeouts d), fun id hid => ?_⟩
  obtain ⟨hc, hw⟩ := h.idle id hid
  exact ⟨(g.idle id hc).1, (g.idle id hc).2.trans hw⟩

/-- A step that leaves collectives and descriptors alone. -/
theorem of_eq (hb : t.batches = s.batches) (hr : t.refetch = s.refetch) (hc : t.ctrs = s.ctrs) (hw : t.whl = s.whl) (hs : t.seq = s.seq) : Pumped s t := by
  refine ⟨hb, hr, fun d => State.ctr_congr hc d _, fun id hid => ⟨?_, ?_⟩⟩
  · unfold State.coll
    rw [hw]
    exact hid
  · unfold State.work
    rw [hs]

theorem of_mem (h : OnlyMem s t) : Pumped s t :=
  of_eq h.batches (by rw [h]) h.ctrs (by rw [h]) (by rw [h])

theorem ite {c : Prop} [Decidable c] (h : Pumped s t) (g : Pumped s u) : Pumped s (if c then t else u) := by
  split
  · exact h
  · exact g

theorem foldl {α : Type} {f : State → α → State} (hf : ∀ t a, Pumped t (f t a)) (l : List α) (s : State) : Pumped s (l.foldl f s) :=
  foldl_keeps (P := Pumped s) (fun t a h => h.trans (hf t a)) l (refl s)

theorem onColl (s : State) (id : Nat) {f : State → Work → Coll → Grp → State} (hf : ∀ w c g, Pumped s (f s w c g)) :
    Pumped s (s.onColl id f) := by
  unfold State.onColl
  split
  · exact hf _ _ _
  · exact refl s

theorem coll_modColl {s : State} {i : Nat} (id : Nat) {f : Coll → Coll} (hf : ∀ c, (f c).id = c.id) (h : s.coll i = none) : (s.modColl id f).coll i = none := by
  refine List.find?_eq_none.mpr fun x hx => ?_
  obtain ⟨y, hy, rfl⟩ := List.mem_map.mp hx
  have hne := List.find?_eq_none.mp h y hy
  dsimp only
  split
  · rw [hf]
    exact hne
  · exact hne

theorem modColl (s : State) (id : Nat) (f : Coll → Coll) (hf : ∀ c, (f c).id = c.id := by intro _; rfl) : Pumped s (s.modColl id f) :=
  ⟨rfl, rfl, fun _ => rfl, fun _ h => ⟨coll_modColl id hf h, rfl⟩⟩

/-- Counting in a counter that is not the one of timeouts. -/
theorem bump (s : State) (d : Nat) {off : Nat} (h : ∀ e, regKey e (Reg.whlCntLo 5) ≠ regKey d off) (n : Nat) : Pumped s (s.bump d off n) :=
  ⟨rfl, rfl, fun e => State.ctr_bump_other s d off n e _ (h e), fun _ hid => ⟨hid, rfl⟩⟩

theorem whlBump (s : State) (d : Nat) {i : Nat} (h : i ≠ 5) (hi : i < 64) (n : Nat) : Pumped s (s.bump d (Reg.whlCntLo i) n) :=
  bump s d (fun e => by unfold regKey Reg.whlCntLo; omega) n

theorem queueRouted (s : State) (d : Nat) (f : TxFrame) : Pumped s (s.queueRouted d f) := by
  have h : ∀ g, Pumped s (s.modEth d g) := fun g => by
    obtain ⟨l, e⟩ := modEth_state s d g
    rw [e]
    exact of_eq rfl rfl rfl rfl rfl
  exact ite (refl s) (ite (h _) (h _))

theorem sendRouted (s : State) (prio : Nat) (via : Option Nat) (item : TxItem) : Pumped s (s.sendRouted prio via item) := by
  unfold State.sendRouted
  split
  · exact queueRouted s _ _
  · exact bump s 0 (fun e => by unfold regKey Reg.whlCntLo Reg.rasCntLo; omega) 1

theorem whlSend (s : State) (c : Coll) (dest : Nat) (f : WheelFrame) : Pumped s (s.whlSend c dest f) := by
  unfold State.whlSend
  dsimp only
  split
  · split
    · exact of_eq rfl rfl rfl rfl rfl
    · exact refl s
  · exact ite (queueRouted s _ _) (sendRouted s _ _ _)

theorem grantTo (s : State) (id r : Nat) : Pumped s (s.grantTo id r) :=
  onColl s id fun _ c _ => ite ((modColl s id _).trans (whlSend _ c r _)) (refl s)

theorem spent (s : State) (id r : Nat) : Pumped s (s.spent id r) := (modColl s id _).trans (grantTo _ id r)

theorem noteColl (s : State) (id flags : Nat) (bad crc : Bool) : Pumped s (s.noteColl id flags bad crc) := modColl s id _

theorem queueColl (s : State) (id : Nat) (x : CSend) : Pumped s (s.queueColl id x) := modColl s id _

theorem whlMismatch (s : State) (d : Nat) : Pumped s (s.whlMismatch d) := whlBump s d (by decide) (by decide) 1

theorem freeVal (s : State) (n : Nat) : Pumped s (s.freeVal n).2 := of_eq rfl rfl rfl rfl rfl

theorem scramble (s : State) (a len : Nat) : Pumped s (s.scramble a len) :=
  (show Pumped s s.fresh.2 from of_eq rfl rfl rfl rfl rfl).trans (of_mem (.write s.fresh.2 a _))

theorem accessRefused (s : State) (w : Work) : Pumped s (s.accessRefused w) :=
  bump s w.die (fun e => by unfold regKey Reg.whlCntLo Reg.seqSchCntLo; omega) 1

theorem dropColl (s : State) (id : Nat) : Pumped s { s with whl := { s.whl with colls := s.whl.colls.filter fun x => x.id != id } } :=
  ⟨rfl, rfl, fun _ => rfl, fun _ h => ⟨List.find?_eq_none.mpr fun y hy => List.find?_eq_none.mp h y (List.mem_filter.mp hy).1, rfl⟩⟩

theorem endColl (s : State) (id status : Nat) : Pumped s (s.endColl id status) := by
  unfold State.endColl
  split
  · exact refl s
  · rename_i c hc
    dsimp only
    have hcount := (dropColl s id).trans (whlBump _ c.d (i := 0) (by decide) (by decide) 1)
    generalize hu : (if status = 0x12 || status = 0x14 then _ else _ : State) = u
    have h : Pumped s u := hu ▸ ite (hcount.trans (foldl (f := fun (s : State) (r : Nat × Nat) => s.scramble r.1 r.2) (fun t r => scramble t r.1 r.2) _ _)) hcount
    refine ⟨h.batches, h.refetch, h.timeouts, fun i hi => ?_⟩
    obtain ⟨hnone, hwork⟩ := h.idle i hi
    have hne : i ≠ id := fun e => by
      rw [e, hc] at hi
      cases hi
    exact ⟨hnone, (work_endWork_other u _ hne).trans hwork⟩

theorem placeTile (s : State) (id a : Nat) (b : List Byte) (bad : Bool) : Pumped s (s.placeTile id a b bad) :=
  onColl s id fun w _ _ => ite ((ite (accessRefused s w) (refl s)).trans (endColl _ id _)) ((of_mem (.writeTag s a b bad)).trans (noteColl _ id _ _ _))

theorem reduceStep (s : State) (id k t : Nat) (minus : Bool) (part : Option (List Byte × Bool)) : Pumped s (s.reduceStep id k t minus part) :=
  onColl s id fun w c g => by
    dsimp only
    generalize s.addTile w k t part = r
    generalize hv : (if part.isSome = true then s.bump c.d (Reg.whlCntLo 2) 1 else s) = v
    have hsv : Pumped s v := hv ▸ ite (whlBump s c.d (by decide) (by decide) 1) (refl s)
    have hput := of_mem (OnlyMem.putReduced (v.noteColl id r.2.1 r.2.2.1 r.2.2.2.1) w k t r.2.2.2.2 (g.n == 1) r.2.2.1 r.1)
    exact hsv.trans ((noteColl v id _ _ _).trans (ite (ite ((hput.trans (noteColl _ id _ _ _)).trans (queueColl _ id _)) (hput.trans (noteColl _ id _ _ _)))
      (queueColl _ id _)))

theorem tileIn (s : State) (id : Nat) (x : CIn) : Pumped s (s.tileIn id x) :=
  onColl s id fun w c g => by
    dsimp only
    have hmod := modColl s id fun c => { c with got := c.got + 1 }
    refine ite (whlMismatch s c.d) (hmod.trans (ite (reduceStep _ id _ _ _ _) (ite ?_ (ite (placeTile _ id _ _ _) (placeTile _ id _ _ _)))))
    exact ite (placeTile _ id _ _ _) ((placeTile _ id _ _ _).trans (queueColl _ id _))

theorem writeRows (s : State) (id b : Nat) : Pumped s (s.writeRows id b) :=
  onColl s id fun w c g => by
    refine ite (refl s) (trans (foldl (fun t j => ?_) _ _) (modColl _ id _))
    exact (freeVal t 40).trans (of_mem (.writeTile _ _ _ _ _ _))

theorem placeRow (s : State) (id src i : Nat) (b : List Byte) (bad : Bool) : Pumped s (s.placeRow id src i b bad) :=
  onColl s id fun w c g => by
    refine ite ?_ (ite (modColl s id _) ?_)
    · exact (of_mem (.putRow s w _ _ bad)).trans ((modColl _ id _).trans (writeRows _ id _))
    · exact ((modColl s id _).trans (modColl _ id _)).trans (foldl (fun t b => writeRows t id b) _ _)

theorem rowIn (s : State) (id : Nat) (x : CIn) : Pumped s (s.rowIn id x) :=
  onColl s id fun _ c _ => ite (whlMismatch s c.d) (placeRow s id _ _ _ _)

theorem land (s : State) (id : Nat) (x : CIn) : Pumped s (s.land id x) :=
  onColl s id fun _ _ _ => ite (refl s) (((modColl s id _).trans (ite (tileIn _ id x) (rowIn _ id x))).trans (spent _ id _))

theorem sendData (s : State) (w : Work) (c : Coll) (x : CSend) : Pumped s (s.sendData w c x) :=
  have h : ∀ (g : List Byte × Nat → WheelFrame) (l : List (List Byte × Nat)), Pumped s (l.foldl (fun s y => s.whlSend c x.dst (g y)) s) :=
    fun g l => foldl (f := fun (s : State) y => s.whlSend c x.dst (g y)) (fun t _ => whlSend t c x.dst _) l s
  ite ((h _ _).trans ((whlBump _ c.d (by decide) (by decide) 1).trans (noteColl _ c.id _ _ _))) (h _ _)

theorem pumpColl (id fuel : Nat) (s : State) : Pumped s (State.pumpColl id fuel s) := by
  induction fuel generalizing s with
  | zero => exact refl s
  | succ fuel ih =>
    unfold State.pumpColl
    split
    · split
      · exact refl s
      · split
        · exact refl s
        · exact ite (refl s) (((modColl s id _).trans (sendData _ _ _ _)).trans (ih _))
    · exact refl s

theorem claimKept (s : State) (d p obj budget : Nat) : Pumped s (s.claimKept d p obj budget) := ite (of_eq rfl rfl rfl rfl rfl) (refl s)

theorem settleColl (s : State) (id : Nat) : Pumped s (s.settleColl id) :=
  onColl s id fun w c _ => by
    refine ite (trans (ite ?_ (refl s)) (endColl _ id _)) (refl s)
    split
    · exact claimKept s _ _ _ _
    · exact refl s

theorem pumpDie (s : State) (d : Nat) : Pumped s (s.pumpDie d) := by
  refine foldl (fun t c => ?_) _ s
  exact ((foldl (f := fun (s : State) x => s.land c.id x) (fun t x => land t c.id x) _ t).trans (pumpColl c.id _ _)).trans (settleColl _ c.id)

end Pumped


/-! ## Building a batch -/

/-- The batch of a slot: its copies are numbered after it. -/
def State.slotBatch (s : State) (w : Work) (c : Coll) (sl : Nat) (parity : List Nat) : Batch :=
  let e := s.slotEnt w sl
  let copies := (List.range e.n).map fun i => batchCopy w e (c.total sl) (c.first sl) (s.bytes (e.tmpl + 64 * i) 64)
  let ws := copies.zipIdx.map fun x =>
    batchWork w (s.seq.nextId + 1 + x.2) s.seq.nextId e.die (!s.rbit e.die Reg.tokCtrl 0) (parity.any fun k => k / 8 == x.2) x.1.1
  ⟨s.seq.nextId, e.die, w.part, ws, parity, copies.flatMap Prod.snd⟩

theorem slotBatch_ids (s : State) (w : Work) (c : Coll) (sl : Nat) (parity : List Nat) :
    (s.slotBatch w c sl parity).ids = (List.range (s.slotEnt w sl).n).map (s.seq.nextId + 1 + ·) := by
  have hid : ∀ {α : Type} (l : List α) (g : α × Nat → Work) (n : Nat), (∀ x, (g x).id = n + x.2) →
      (l.zipIdx.map g).map Work.id = (List.range l.length).map (n + ·) := by
    intro α l g n hg
    apply List.ext_getElem (by simp)
    intro i h1 h2
    simp [hg]
  unfold Batch.ids State.slotBatch
  dsimp only
  rw [hid _ _ (s.seq.nextId + 1) fun _ => rfl]
  simp

theorem buildBatch_does {s : State} {id sl : Nat} {parity : List Nat} {w : Work} {x : Coll} (hc : s.coll id = some x) (hw : s.work id = some w)
    (hcop : w.cop = 5) (hslots : w.cSlots ≠ 0) (hsl : sl < 64) (hvalid : (s.slotEnt w sl).valid = true) (hnew : sl ∉ x.built) (hopen : x.open_ = true)
    (htotal : 0 < x.total sl) (hdone : x.slotDone sl = true) (hroom : s.workQueue (s.slotEnt w sl).die + (s.slotEnt w sl).n ≤ 512) :
    (s.buildBatch id sl parity).batches = s.batches ++ [s.slotBatch w x sl parity] := by
  let b := s.slotBatch w x sl parity
  let u : State := { s with batches := s.batches ++ [b], seq := { s.seq with nextId := s.seq.nextId + 1 + (s.slotEnt w sl).n } }
  have hbuild : s.buildBatch id sl parity = ((((b.works.filter fun w => !w.ended).foldl (fun s x => s.joinGroup x.part x.bytes)
      (u.issueBatch b b.works)).modColl id fun c => { c with built := c.built ++ [sl] }).pumpDie x.d) := by
    unfold State.buildBatch State.onColl
    rw [hc, hw]
    dsimp only
    rw [if_neg (by simp [hcop, hslots, hsl, hvalid, hnew, hopen, hdone]; omega)]
    rfl
  have hissue := BatchesKept.issueBatch u b b.works
  rw [hbuild]
  refine (Pumped.pumpDie _ x.d).batches.trans ((Pumped.modColl _ id _).batches.trans (BatchesKept.eq (hissue.trans ?_)))
  exact .foldl (f := fun (s : State) (x : Work) => s.joinGroup x.part x.bytes) (fun t x => .joinGroup t _ _) _ _

/-! ## Completion records -/

theorem complete_ready {s : State} {id : Nat} {w : Work} (hc : s.coll id = none) (hw : s.work id = some w) (hcan : s.canComplete w = true) :
    s.complete id = if w.again then ((s.retry.dropWork id).batchDone w).leaveIdle w.on w.part else
      (((((((s.retry.writeRec w.ring w.res w.irq).dropWork id).popDone id).groupDone w).entryDone w).batchDone w).servingDone w).leaveIdle w.on w.part := by
  unfold State.complete
  rw [hc]
  dsimp only
  rw [hw]
  dsimp only
  rw [if_neg (by simp [hcan])]

/-- The address of the record that a completion queue takes next. -/
def State.recAddr (s : State) (r : Nat) : Nat := s.regAddr (ringDie r) (Reg.cqBaseLo (ringNo r)) + 32 * (s.cqTail r % s.cqSize r)

/-- The OWN bit that the record carries. -/
def State.recOwn (s : State) (r : Nat) : List Byte := natLe 1 (1 - s.cqTail r / s.cqSize r % 2)

/-- The record in memory, its accesses counted and sent. -/
def State.recStored (s : State) (r : Nat) (c : Rec) : State :=
  (((s.write (s.recAddr r) c.bytes).write (s.recAddr r + 31) (s.recOwn r)).access true (s.recAddr r) 32).hostReq none true false (s.recAddr r) 32

/-- The record counted, the tail moved on, and its flags taken into those of the partition. -/
def State.recCounted (s : State) (r tail : Nat) (c : Rec) : State :=
  let s := (s.setRing r Reg.cqTail (tail + 1)).bump (ringDie r) (Reg.ringCntLo 1) 1
  s.setRegN (ringDie r) (Reg.cnvFlags (s.ringPart r)) (Nat.lor (s.regN (ringDie r) (Reg.cnvFlags (s.ringPart r))) c.flags)

theorem writeRec_eq (s : State) (r : Nat) (c : Rec) (irq : Bool) : ∃ p, s.writeRec r c irq =
    let t := (s.recStored r c).recCounted r (s.cqTail r) c
    if irq || r ∈ t.seq.cqArm then ({ t with seq := { t.seq with cqArm := without r t.seq.cqArm } }).interrupt p r else t := by
  unfold State.writeRec State.recCounted State.recStored State.recAddr State.recOwn
  exact ⟨_, rfl⟩

theorem length_recBytes (c : Rec) : c.bytes.length = 31 := by simp [Rec.bytes, length_natLe]

theorem recStored_frame (s : State) (r : Nat) (c : Rec) : (s.recStored r c).regs = s.regs ∧ (s.recStored r c).part = s.part ∧
    (s.recStored r c).wiped = s.wiped ∧ (s.recStored r c).seq = s.seq ∧
    (s.recStored r c).mem = ((s.write (s.recAddr r) c.bytes).write (s.recAddr r + 31) (s.recOwn r)).mem := by
  unfold State.recStored
  generalize hu : (s.write (s.recAddr r) c.bytes).write (s.recAddr r + 31) (s.recOwn r) = u
  have hfields : u = { s with mem := u.mem, poison := u.poison } := hu ▸ (OnlyMem.write s _ _).trans (.write _ _ _)
  obtain ⟨ct, n, hacc⟩ := State.access_state u true (s.recAddr r) 32
  obtain ⟨o, hreq⟩ := hostReq_state (u.access true (s.recAddr r) 32) none true false (s.recAddr r) 32
  rw [hreq, hacc]
  exact ⟨(congrArg State.regs hfields :), (congrArg State.part hfields :), (congrArg State.wiped hfields :), (congrArg State.seq hfields :), rfl⟩

/-- Bytes stored after bytes stored. -/
theorem Wrote.append {s t u : State} {a : Nat} {bs cs : List Byte} (h : Wrote s t a bs) (g : Wrote t u (a + bs.length) cs) : Wrote s u a (bs ++ cs) := by
  refine ⟨?_, fun x hx => (g.2 x ?_).trans (h.2 x ?_)⟩
  · have hsplit : u.bytes a (bs.length + cs.length) = u.bytes a bs.length ++ u.bytes (a + bs.length) cs.length := by
      unfold State.bytes
      rw [List.range_add, List.map_append, List.map_map]
      simp [Function.comp_def, Nat.add_assoc]
    have hlow : u.bytes a bs.length = t.bytes a bs.length :=
      List.map_congr_left fun i hi => g.2 _ (.inl (by have := List.mem_range.mp hi; omega))
    rw [List.length_append, hsplit, g.1, hlow, h.1]
  · rw [List.length_append] at hx
    omega
  · rw [List.length_append] at hx
    omega

theorem recStored_wrote {s : State} (hwf : s.memWf = true) (r : Nat) (c : Rec) : Wrote s (s.recStored r c) (s.recAddr r) (c.bytes ++ s.recOwn r) := by
  obtain ⟨-, -, hwiped, -, hmem⟩ := recStored_frame s r c
  have hlen := length_recBytes c
  have hsecond := wrote_write (s.write_memWf hwf (s.recAddr r) c.bytes false) (s.recAddr r + c.bytes.length) (s.recOwn r)
  have h := (wrote_write hwf (s.recAddr r) c.bytes).append hsecond
  refine h.of_mem rfl rfl (hmem.trans (by rw [hlen])) (hwiped.trans ?_)
  rw [State.write_wiped, State.write_wiped]

theorem recStored_ctr (s : State) (r : Nat) (c : Rec) (d : Nat) : (s.recStored r c).ctr d (Reg.ringCntLo 1) = s.ctr d (Reg.ringCntLo 1) := by
  unfold State.recStored
  rw [State.hostReq_ctr, State.access_ctr_other _ _ _ _ _ _ (by decide) (by decide), State.write_ctr, State.write_ctr]

theorem recCounted_does (s : State) (r tail : Nat) (c : Rec) : (s.recCounted r tail c).cqTail r = (tail + 1) % 2 ^ 32 ∧
    (s.recCounted r tail c).ctr (ringDie r) (Reg.ringCntLo 1) = Nat.min ctrMax (s.ctr (ringDie r) (Reg.ringCntLo 1) + 1) ∧
    (s.recCounted r tail c).regN (ringDie r) (Reg.cnvFlags (s.ringPart r)) = Nat.lor (s.regN (ringDie r) (Reg.cnvFlags (s.ringPart r))) c.flags % 2 ^ 32 := by
  let t := (s.setRing r Reg.cqTail (tail + 1)).bump (ringDie r) (Reg.ringCntLo 1) 1
  have hpart : t.ringPart r = s.ringPart r := congrArg (fld · 2 4) (State.regN_setRegN_other s (ringDie r) (Reg.cqTail (ringNo r)) (ringDie r)
    (Reg.ringCfg (ringNo r)) _ (by unfold regKey Reg.cqTail Reg.ringCfg; omega))
  have hne : regKey (ringDie r) (Reg.cqTail (ringNo r)) ≠ regKey (ringDie r) (Reg.cnvFlags (t.ringPart r)) := by
    unfold regKey Reg.cqTail Reg.cnvFlags ringNo
    omega
  refine ⟨?_, State.ctr_bump_same _ _ _ _, ?_⟩
  · exact (State.regN_setRegN_other t _ _ _ _ _ hne).trans (State.regN_setRegN_same s _ _ _)
  · have hset := State.regN_setRegN_same t (ringDie r) (Reg.cnvFlags (t.ringPart r)) (Nat.lor (t.regN (ringDie r) (Reg.cnvFlags (t.ringPart r))) c.flags)
    have hold : t.regN (ringDie r) (Reg.cnvFlags (t.ringPart r)) = s.regN (ringDie r) (Reg.cnvFlags (t.ringPart r)) :=
      State.regN_setRegN_other s _ _ _ _ _ hne.symm
    rw [← hpart, ← hold]
    exact hset

/-- What a completed descriptor without group or list is done with: its record in memory, the queue's tail, counter and flags. -/
structure Recorded (s t : State) (id r : Nat) (c : Rec) : Prop where
  work : t.work id = none
  stored : Wrote s t (s.recAddr r) (c.bytes ++ s.recOwn r)
  tail : t.cqTail r = (s.cqTail r + 1) % 2 ^ 32
  ctr : t.ctr (ringDie r) (Reg.ringCntLo 1) = Nat.min ctrMax (s.ctr (ringDie r) (Reg.ringCntLo 1) + 1)
  flags : t.regN (ringDie r) (Reg.cnvFlags (s.ringPart r)) = Nat.lor (s.regN (ringDie r) (Reg.cnvFlags (s.ringPart r))) c.flags % 2 ^ 32

theorem writeRec_does {s : State} (hwf : s.memWf = true) (r : Nat) (c : Rec) (irq : Bool) (t : State) (id : Nat) (hwork : t.work id = none)
    (hmem : t.mem = (s.writeRec r c irq).mem) (hwiped : t.wiped = (s.writeRec r c irq).wiped) (hregs : t.regs = (s.writeRec r c irq).regs)
    (hpart : t.part = (s.writeRec r c irq).part) (hctrs : t.ctrs = (s.writeRec r c irq).ctrs) : Recorded s t id r c := by
  obtain ⟨hsr, hsp, hsw, -, -⟩ := recStored_frame s r c
  obtain ⟨htail, hctr, hflags⟩ := recCounted_does (s.recStored r c) r (s.cqTail r) c
  have hring : (s.recStored r c).ringPart r = s.ringPart r := congrArg (fld · 2 4) (State.regN_congr hsr hsp _ _)
  rw [hring, State.regN_congr hsr hsp] at hflags
  rw [recStored_ctr] at hctr
  let u := (s.recStored r c).recCounted r (s.cqTail r) c
  have hkeep : (s.writeRec r c irq).mem = u.mem ∧ (s.writeRec r c irq).wiped = u.wiped ∧ (s.writeRec r c irq).regs = u.regs ∧
      (s.writeRec r c irq).part = u.part ∧ (s.writeRec r c irq).ctrs = u.ctrs := by
    obtain ⟨p, hp⟩ := writeRec_eq s r c irq
    rw [hp]
    dsimp only
    split
    · obtain ⟨h, o, he⟩ := State.interrupt_state { u with seq := { u.seq with cqArm := without r u.seq.cqArm } } p r
      rw [he]
      exact ⟨rfl, rfl, rfl, rfl, rfl⟩
    · exact ⟨rfl, rfl, rfl, rfl, rfl⟩
  obtain ⟨km, kw, kr, kp, kc⟩ := hkeep
  have hreg : ∀ d o, t.regN d o = u.regN d o := State.regN_congr (hregs.trans kr) (hpart.trans kp)
  exact ⟨hwork, (recStored_wrote hwf r c).of_mem rfl rfl (hmem.trans km) (hwiped.trans kw), (hreg _ _).trans htail,
    (State.ctr_congr (hctrs.trans kc) _ _).trans hctr, (hreg _ _).trans hflags⟩

/-- A context that gives up a die leaves what was recorded. -/
theorem Recorded.leaveIdle {s t : State} {id r : Nat} {c : Rec} (h : Recorded s t id r c) (d p : Nat) : Recorded s (t.leaveIdle d p) id r c := by
  by_cases hp : t.partOn d p = true
  · have hp16 : p < 16 := by
      unfold State.partOn at hp
      have := parts_le t.part
      have hlt : p < t.part.parts := by simpa using (Bool.and_eq_true_iff.mp hp).1
      omega
    obtain ⟨q, hq⟩ := leaveIdle_seq t d p
    obtain ⟨rg, sw, he⟩ := leaveIdle_state t d p
    have hflags : (t.leaveIdle d p).regN (ringDie r) (Reg.cnvFlags (s.ringPart r)) = t.regN (ringDie r) (Reg.cnvFlags (s.ringPart r)) := by
      refine (leaveIdle_regsBut t d p).regN ?_
      have hne : regKey (ringDie r) (Reg.cnvFlags (s.ringPart r)) ≠ regKey d (Reg.seqPartStatus p) := by
        have := ringPart_lt s r
        unfold regKey Reg.cnvFlags Reg.seqPartStatus
        omega
      simpa using hne
    refine ⟨(leaveIdle_work t d p id).trans h.work, h.stored.of_mem rfl rfl (leaveIdle_mem t d p) (by rw [he]), ?_, (leaveIdle_ctr t d p _ _).trans h.ctr,
      hflags.trans h.flags⟩
    exact (leaveIdle_ring t d hp16 (f := Reg.cqTail) (by simp [ringFields]) r).trans h.tail
  · have hsame : t.leaveIdle d p = t := by
      unfold State.leaveIdle
      exact if_pos (by simp [hp])
    rw [hsame]
    exact h

theorem dropWork_work (s : State) (id : Nat) : (s.dropWork id).work id = none :=
  List.find?_eq_none.mpr fun w hw => by simpa using (List.mem_filter.mp hw).2

theorem batchDone_state (s : State) (w : Work) : ∃ b, s.batchDone w = { s with batches := b } := by
  unfold State.batchDone
  split
  · dsimp only
    split
    · exact ⟨_, rfl⟩
    · exact ⟨_, rfl⟩
  · exact ⟨s.batches, rfl⟩

theorem servingDone_state (s : State) (w : Work) : ∃ v, s.servingDone w = { s with srvs := v } := by
  unfold State.servingDone
  split
  · exact ⟨s.srvs, rfl⟩
  · exact ⟨_, rfl⟩

theorem completed_recorded {s : State} (hwf : s.memWf = true) {id : Nat} {w : Work} (hgrp : w.grp = false) (hent : w.entry = none) :
    Recorded s ((((((((s.retry.writeRec w.ring w.res w.irq).dropWork id).popDone id).groupDone w).entryDone w).batchDone w).servingDone w).leaveIdle w.on w.part)
      id w.ring w.res := by
  let t := ((s.retry.writeRec w.ring w.res w.irq).dropWork id).popDone id
  have hgroup : t.groupDone w = t := if_pos (by simp [hgrp])
  have hentry : t.entryDone w = t := by
    unfold State.entryDone
    rw [hent]
  obtain ⟨b, hb⟩ := batchDone_state t w
  obtain ⟨v, hv⟩ := servingDone_state (t.batchDone w) w
  have hdone : ((((t.groupDone w).entryDone w).batchDone w).servingDone w) = { t with batches := b, srvs := v } := by
    rw [hgroup, hentry, hv, hb]
  refine Recorded.leaveIdle ?_ w.on w.part
  rw [hdone]
  have h : Recorded s.retry { t with batches := b, srvs := v } id w.ring w.res :=
    writeRec_does (s := s.retry) hwf w.ring w.res w.irq _ id (dropWork_work _ id) rfl rfl rfl rfl rfl
  exact ⟨h.work, h.stored.of_mem rfl rfl rfl rfl, h.tail, h.ctr, h.flags⟩

/-! ## Decoded pictures -/

theorem decTile_onlyMem (s : State) (c : Dec) (p : Pic) (ftz tag : Bool) (t : Nat × Nat × Nat × Nat) : OnlyMem s (s.decTile c p ftz tag t).1 := by
  obtain ⟨no, ch, i, j⟩ := t
  exact .writeTile s _ _ _ _ _

theorem decTiles_onlyMem (s : State) (c : Dec) (p : Pic) (ftz tag : Bool) (l : List (Nat × Nat × Nat × Nat)) (f : Nat) :
    OnlyMem s (l.foldl (fun (a : State × Nat) t =>
      let (s, g) := a.1.decTile c p ftz tag t
      (s, Nat.lor a.2 g)) (s, f)).1 := by
  induction l generalizing s f with
  | nil => exact .refl s
  | cons t l ih => exact (decTile_onlyMem s c p ftz tag t).trans (ih _ _)

/-- A DECODE that runs writes tiles, counts its picture, and ends with its status. -/
theorem decBody_shape (s : State) (w : Work) : ∃ (u : State) (f : Work → Work) (g : Rec → Rec) (a b : Nat), (∀ x, (f x).id = x.id ∧ (f x).res = x.res) ∧
    (∀ r, (g r).status = (s.picture w.dec).status ∧ (g r).detail1 = (s.picture w.dec).err) ∧ OnlyMem (s.modWork w.id f) u ∧
    s.decBody w = ((((u.bump w.die (Reg.trbCntLo 0) ((s.picture w.dec).w * (s.picture w.dec).h)).bump w.die (Reg.trbCntLo 1) 1).bump w.die (Reg.trbCntLo 2) a).bump
      w.die (Reg.trbCntLo 4) b).endWork w.id g :=
  ⟨_, fun x => { x with engine := some (6 + (s.chooseTrib w w.dec.trib).2) },
    fun r => { r with status := (s.picture w.dec).status, flags := Nat.lor r.flags _, poison := r.poison || _, detail1 := (s.picture w.dec).err }, _, _,
    fun _ => ⟨rfl, rfl⟩, fun _ => ⟨rfl, rfl⟩, decTiles_onlyMem _ _ _ _ _ _ _, rfl⟩

theorem touch_ctr_other (s : State) (wr : Bool) (a len e o : Nat) (ho : o < 2 ^ 24) (hblock : o < 0xA0000 ∨ 0xC0000 ≤ o) :
    (s.touch wr a len).ctr e o = s.ctr e o := by
  have hts : ∀ d i, i < 3 → regKey e o ≠ regKey d (Reg.tsCntLo i) := fun d i hi =>
    State.regKey_ne ho (by unfold Reg.tsCntLo; omega) (.inr (by unfold Reg.tsCntLo; omega))
  have hhbm : ∀ d, regKey e o ≠ regKey d (Reg.hbmCntLo (b2n wr)) := fun d =>
    State.regKey_ne ho (by unfold Reg.hbmCntLo b2n; split <;> omega) (.inr (by unfold Reg.hbmCntLo b2n; split <;> omega))
  unfold State.touch
  split
  · rfl
  · split
    · refine foldl_keeps (P := fun t : State => t.ctr e o = s.ctr e o) (fun t d h => ?_) _ rfl
      split
      · exact (State.ctr_bumpFree_other _ _ _ _ _ (hhbm d)).trans h
      · exact h
    · split
      · refine (State.ctr_bumpFree_other _ _ _ _ _ (hts _ 2 (by omega))).trans (State.ctr_bumpFree_other _ _ _ _ _ (hts _ (b2n wr) ?_))
        unfold b2n
        split <;> omega
      · rfl

theorem touched_ctr_other (s : State) (w : Work) (rs : List Rng) (e o : Nat) (ho : o < 2 ^ 24) (hblock : o < 0xA0000 ∨ 0xC0000 ≤ o) :
    (s.touched w rs).ctr e o = s.ctr e o := by
  unfold State.touched
  split
  · rfl
  · refine foldl_keeps (P := fun t : State => t.ctr e o = s.ctr e o) (fun t r h => ?_) _ rfl
    exact (State.hostReq_ctr _ _ _ _ _ _ _ _).trans ((touch_ctr_other t r.wr r.a r.len e o ho hblock).trans h)

theorem picture_congr {s t : State} (hm : t.mem = s.mem) (hw : t.wiped = s.wiped) (c : Dec) : t.picture c = s.picture c := by
  have hstream : t.stream c = s.stream c := by
    unfold State.stream
    simp only [State.byte_congr hm hw]
  unfold State.picture
  rw [hstream]

/-- What a DECODE that has run leaves. -/
structure Decoded (s t : State) (id : Nat) (w : Work) : Prop where
  ended : ∃ v, t.work id = some v ∧ v.ended = true ∧ v.res.status = (s.picture w.dec).status ∧ v.res.detail1 = (s.picture w.dec).err
  regs : RegsBut s t [regKey w.on (Reg.seqPartStatus w.part)]
  pixels : t.ctr w.die (Reg.trbCntLo 0) = Nat.min ctrMax (s.ctr w.die (Reg.trbCntLo 0) + (s.picture w.dec).w * (s.picture w.dec).h)
  count : t.ctr w.die (Reg.trbCntLo 1) = Nat.min ctrMax (s.ctr w.die (Reg.trbCntLo 1) + 1)

theorem decBody_decoded {s : State} {w : Work} (hw : s.work w.id = some w) : ∃ v, (s.decBody w).work w.id = some v ∧ v.ended = true ∧
    v.res.status = (s.picture w.dec).status ∧ v.res.detail1 = (s.picture w.dec).err := by
  obtain ⟨u, f, g, a, b, hf, hg, hu, hbody⟩ := decBody_shape s w
  have hmod : (s.modWork w.id f).work w.id = some (f w) := by
    rw [work_modWork s w.id f fun x => (hf x).1, hw]
    rfl
  have hwork : u.work w.id = some (f w) := by
    rw [hu]
    exact hmod
  rw [hbody, work_endWork]
  exact ⟨_, congrArg (Option.map _) hwork, rfl, (hg _).1, (hg _).2⟩

theorem decBody_ctr (s : State) (w : Work) : (s.decBody w).regs = s.regs ∧ (s.decBody w).part = s.part ∧
    (s.decBody w).ctr w.die (Reg.trbCntLo 0) = Nat.min ctrMax (s.ctr w.die (Reg.trbCntLo 0) + (s.picture w.dec).w * (s.picture w.dec).h) ∧
    (s.decBody w).ctr w.die (Reg.trbCntLo 1) = Nat.min ctrMax (s.ctr w.die (Reg.trbCntLo 1) + 1) := by
  obtain ⟨u, f, g, a, b, hf, hg, hu, hbody⟩ := decBody_shape s w
  have hne : ∀ i j, i ≠ j → i < 5 → j < 5 → regKey w.die (Reg.trbCntLo i) ≠ regKey w.die (Reg.trbCntLo j) := by
    intro i j h hi hj
    unfold regKey Reg.trbCntLo
    omega
  let u0 := u.bump w.die (Reg.trbCntLo 0) ((s.picture w.dec).w * (s.picture w.dec).h)
  let u1 := u0.bump w.die (Reg.trbCntLo 1) 1
  have hctr : ∀ i, u.ctr w.die (Reg.trbCntLo i) = s.ctr w.die (Reg.trbCntLo i) := fun i => State.ctr_congr (s := s) hu.ctrs _ _
  rw [hbody]
  refine ⟨hu.regs, hu.part, ?_, ?_⟩
  · refine (State.ctr_bump_other _ _ _ _ _ _ (hne 0 4 (by omega) (by omega) (by omega))).trans ((State.ctr_bump_other u1 _ _ _ _ _
      (hne 0 2 (by omega) (by omega) (by omega))).trans ((State.ctr_bump_other u0 _ _ _ _ _ (hne 0 1 (by omega) (by omega) (by omega))).trans ?_))
    exact (State.ctr_bump_same u _ _ _).trans (by rw [hctr 0])
  · refine (State.ctr_bump_other _ _ _ _ _ _ (hne 1 4 (by omega) (by omega) (by omega))).trans ((State.ctr_bump_other u1 _ _ _ _ _
      (hne 1 2 (by omega) (by omega) (by omega))).trans ((State.ctr_bump_same u0 _ _ _).trans ?_))
    rw [State.ctr_bump_other u _ _ _ _ _ (hne 1 0 (by omega) (by omega) (by omega)), hctr 1]

theorem decode_begin {s : State} {id : Nat} {w : Work} (h : Starts s id (ofKind 0x31) w (decRanges s w) (decCodes s w)) :
    Decoded s (s.begin id (ofKind 0x31) decRanges decCodes State.decBody) id w := by
  have hid : w.id = id := by simpa using List.find?_some h.work
  let v := ((s.touched w (decRanges s w)).latch w).1
  let x := ((s.touched w (decRanges s w)).latch w).2
  obtain ⟨c, n, o, ht⟩ := touched_state s w (decRanges s w)
  obtain ⟨q, m, hl⟩ := latch_state (s.touched w (decRanges s w)) w
  obtain ⟨f1, f2, f3, f4, hx⟩ := latch_work_fields (s.touched w (decRanges s w)) w
  have hvw : v.work x.id = some x := by
    have hxid : x.id = w.id := by
      show ((s.touched w (decRanges s w)).latch w).2.id = w.id
      rw [hx]
    rw [hxid]
    exact latch_work ((touched_work s w _ w.id).trans (hid ▸ h.work))
  have hpic : v.picture x.dec = s.picture w.dec := by
    have hdec : x.dec = w.dec := by
      show ((s.touched w (decRanges s w)).latch w).2.dec = w.dec
      rw [hx]
      rfl
    rw [hdec]
    refine picture_congr ?_ ?_ _
    · exact (congrArg State.mem hl :).trans (congrArg State.mem ht :)
    · exact (congrArg State.wiped hl :).trans (congrArg State.wiped ht :)
  have hdie : x.die = w.die := by
    show ((s.touched w (decRanges s w)).latch w).2.die = w.die
    rw [hx]
    rfl
  obtain ⟨e, hework, heend, hest, hedet⟩ := decBody_decoded hvw
  obtain ⟨hregs, hpart, hpix, hcnt⟩ := decBody_ctr v x
  obtain ⟨hst, ou, hrel⟩ := released_state s (decRanges s w) (v.decBody x)
  have hctr : ∀ i, i < 5 → v.ctr w.die (Reg.trbCntLo i) = s.ctr w.die (Reg.trbCntLo i) := fun i hi =>
    (State.ctr_congr (s := s.touched w (decRanges s w)) (congrArg State.ctrs hl :) _ _).trans
      (touched_ctr_other s w _ _ _ (by unfold Reg.trbCntLo; omega) (.inr (by unfold Reg.trbCntLo; omega)))
  rw [hpic] at hest hedet hpix
  rw [hdie] at hpix hcnt
  have hxid : x.id = id := (show x.id = w.id by
    show ((s.touched w (decRanges s w)).latch w).2.id = w.id
    rw [hx]).trans hid
  rw [begin_starts decRanges decCodes State.decBody h]
  refine ⟨⟨e, ?_, heend, hest, hedet⟩, ?_, ?_, ?_⟩
  · rw [leaveIdle_work, hrel]
    exact hxid ▸ hework
  · refine RegsBut.trans ?_ (leaveIdle_regsBut _ w.on w.part)
    rw [hrel]
    refine RegsBut.of_eq (hregs.trans ?_) (hpart.trans ?_)
    · exact (congrArg State.regs hl :).trans (congrArg State.regs ht :)
    · exact (congrArg State.part hl :).trans (congrArg State.part ht :)
  · rw [leaveIdle_ctr, hrel, ← hctr 0 (by omega)]
    exact (State.ctr_congr (s := v.decBody x) rfl _ _).trans hpix
  · rw [leaveIdle_ctr, hrel, ← hctr 1 (by omega)]
    refine Eq.trans ?_ hcnt
    exact State.ctr_congr (s := v.decBody x) (t := { v.decBody x with hst := hst, out := ou }) rfl _ _

theorem decode_does {s : State} {id : Nat} {w : Work} (h : Starts s id (ofKind 0x31) w (decRanges s w) (decCodes s w)) :
    Does (.decode id) s fun t => Decoded s t id w := by
  have hd := decode_begin h
  obtain ⟨v, hv, hrest⟩ := hd.ended
  let u := s.begin id (fun w => w.kind == 0x31) decRanges decCodes State.decBody
  have hvu : u.work id = some v := hv
  have hexec : execDecode id s = live s (if !w.ended && v.ended && v.res.status = 0x0E then u.bump v.on (Reg.trbCntLo 3) 1 else u) := by
    unfold execDecode
    dsimp only
    rw [h.work, hvu]
  refine ⟨_, (show exec (.decode id) s = execDecode id s from rfl).trans (hexec.trans (live_eq h.up)), ?_⟩
  dsimp only
  split
  · refine ⟨⟨v, hv, hrest⟩, hd.regs, ?_, ?_⟩
    · exact (State.ctr_bump_other u _ _ _ _ _ (by unfold regKey Reg.trbCntLo; omega)).trans hd.pixels
    · exact (State.ctr_bump_other u _ _ _ _ _ (by unfold regKey Reg.trbCntLo; omega)).trans hd.count
  · exact hd

end Sys2Proof.Machine

open Sys2Proof Sys2Proof.Machine

/-- Settles O43: a completed descriptor's record goes to its queue's tail, a whole slot becomes a batch, and DECODE ends with its picture's status. -/
theorem completions : Obligations.Completions := by
  unfold Obligations.Completions
  refine ⟨fun s id w ht hc hw hcan => ?_, fun s id sl parity w x ht hc hw hcop hslots hsl hvalid hnew hopen htotal hdone hroom => ?_,
    fun s id w h => ?_⟩
  · have hexec : ∀ b, w.again = b → exec (.descriptorComplete id) s = .next (if b then ((s.retry.dropWork id).batchDone w).leaveIdle w.on w.part else
        (((((((s.retry.writeRec w.ring w.res w.irq).dropWork id).popDone id).groupDone w).entryDone w).batchDone w).servingDone w).leaveIdle w.on w.part) :=
      fun b hb => (live_eq ht).trans (congrArg _ (hb ▸ complete_ready hc hw hcan))
    refine ⟨hexec false, hexec true, fun hag hgrp hent hwf => ⟨_, hexec false hag, ?_⟩⟩
    have h := completed_recorded (id := id) hwf hgrp hent
    exact ⟨h.work, h.stored, h.tail, h.ctr, h.flags⟩
  · exact ⟨_, live_eq ht, _, buildBatch_does hc hw hcop hslots hsl hvalid hnew hopen htotal hdone hroom, rfl, rfl, rfl, rfl, slotBatch_ids s w x sl parity⟩
  · obtain ⟨t, hexec, hd⟩ := decode_does h
    exact ⟨t, hexec, hd.ended, hd.regs, hd.pixels, hd.count⟩

end

section
/-! PROOF. Wheel frames: what is dropped or kept for later, what a credit and a data frame of SHIFT do, and how collectives end. -/

namespace Sys2Proof.Machine

/-! ## Collectives by their numbers -/

theorem coll_modColl_same {s : State} {id : Nat} {c : Coll} {f : Coll → Coll} (h : s.coll id = some c) (hf : ∀ c, (f c).id = c.id) :
    (s.modColl id f).coll id = some (f c) := by
  have hid : (fun x : Coll => (if x.id == id then f x else x).id == id) = fun x => x.id == id := by
    funext x
    by_cases hx : (x.id == id) = true
    · rw [if_pos hx, hf]
    · rw [if_neg hx]
  have hc : c.id = id := by simpa using List.find?_some h
  have hfind := congrArg (Option.map fun x => if x.id == id then f x else x) h
  refine (List.find?_map ..).trans ?_
  rw [show ((fun x : Coll => x.id == id) ∘ fun x => if x.id == id then f x else x) = fun x => x.id == id from hid]
  refine hfind.trans ?_
  rw [Option.map_some, if_pos (by simpa using hc)]

theorem onColl_some {s : State} {id : Nat} {c : Coll} {w : Work} (hc : s.coll id = some c) (hw : s.work id = some w)
    (f : State → Work → Coll → Grp → State) : s.onColl id f = f s w c (s.grp c.d c.group) := by
  unfold State.onColl
  rw [hc, hw]

/-! ## Frames to a wheel that is off -/

theorem takeRx_state (s : State) (d c : Nat) : ∃ l, s.takeRx d c = { s with eths := l } := modEth_state s d _

/-- What a frame that the wheel drops leaves. -/
def WheelDrops (s : State) (d : Nat) (t : State) : Prop :=
  t.ctr d (Reg.whlCntLo 4) = Nat.min ctrMax (s.ctr d (Reg.whlCntLo 4) + 1) ∧ t.whl = s.whl ∧ t.wires = s.wires ∧ SameMem s t ∧ t.regs = s.regs

theorem whlMismatch_drops {s u : State} (d : Nat) (h : u = s ∨ ∃ l, u = { s with eths := l }) : WheelDrops s d (u.whlMismatch d) := by
  rcases h with rfl | ⟨l, rfl⟩
  · exact ⟨State.ctr_bump_same _ _ _ _, rfl, rfl, .of_eq rfl rfl, rfl⟩
  · exact ⟨State.ctr_bump_same _ _ _ _, rfl, rfl, .of_eq rfl rfl, rfl⟩

theorem wheelIn_off {s : State} {d : Nat} (f : WheelFrame) (hoff : s.rbit d Reg.whlCtrl 0 = false) : WheelDrops s d (s.wheelIn d f) := by
  have hs : (if f.mesh then s else s.takeRx d 0x88B6) = s ∨ ∃ l, (if f.mesh then s else s.takeRx d 0x88B6) = { s with eths := l } := by
    split
    · exact .inl rfl
    · exact .inr (takeRx_state s d _)
  unfold State.wheelIn
  generalize (if f.mesh then s else s.takeRx d 0x88B6) = u at hs
  have hoffu : u.rbit d Reg.whlCtrl 0 = false := by
    rcases hs with rfl | ⟨l, rfl⟩
    · exact hoff
    · exact hoff
  dsimp only
  rw [if_pos (by simp [hoffu])]
  exact whlMismatch_drops d hs

theorem wheelLink_off {s : State} {d : Nat} (act : State → State) (hoff : s.rbit d Reg.whlCtrl 0 = false) : WheelDrops s d (s.wheelLink d act) := by
  obtain ⟨l, hl⟩ := takeRx_state s d 0x88B6
  unfold State.wheelLink
  dsimp only
  rw [hl, if_neg (by rw [show State.rbit { s with eths := l } d Reg.whlCtrl 0 = false from hoff]; decide)]
  exact whlMismatch_drops d (.inr ⟨l, rfl⟩)

theorem wheelOff_drops {s : State} {d : Nat} {f : WheelFrame} {c : Instr} (hd : DieUp s d) (hoff : s.rbit d Reg.whlCtrl 0 = false)
    (hc : c ∈ [Instr.wheelDataFrame d f, .wheelCreditFrame d f, .wheelCountsFrame d f, .wheelStartFrame d f, .wheelAckFrame d f, .wheelNakFrame d f]) :
    Does c s (WheelDrops s d) := by
  have hin : ∀ {c : Instr} {g : WheelFrame}, exec c s = onDie s d (s.wheelIn d g) → Does c s (WheelDrops s d) := fun hexec =>
    ⟨_, hexec.trans (onDie_eq hd), wheelIn_off _ hoff⟩
  have hlink : ∀ {c : Instr} {act : State → State}, exec c s = onDie s d (s.wheelLink d act) → Does c s (WheelDrops s d) := fun hexec =>
    ⟨_, hexec.trans (onDie_eq hd), wheelLink_off _ hoff⟩
  simp only [List.mem_cons, List.not_mem_nil, or_false] at hc
  rcases hc with rfl | rfl | rfl | rfl | rfl | rfl
  · exact hin (g := { f with kind := if 6 ≤ f.kind then f.kind else 0 }) rfl
  · exact hin (g := { f with kind := 1 }) rfl
  · exact hin (g := { f with kind := 2 }) rfl
  · exact hin (g := { f with kind := 3 }) rfl
  · exact hlink (act := fun s => s.linkAckIn d 1 f.ack) rfl
  · exact hlink (act := fun s => s.linkNakIn d 1 f.ack) rfl

/-! ## Frames by the die mesh -/

/-- A frame of a kind in use that comes by the mesh goes to the collective of its group, or to the frames kept. -/
theorem wheelIn_mesh {s : State} {d : Nat} {f : WheelFrame} (h : AtMesh s d f) {k : Nat} (hk : k < 6) :
    s.wheelIn d { f with kind := k } = s.localFrame d (s.grp d f.group) { f with kind := k } := by
  have hs : (if ({ f with kind := k } : WheelFrame).mesh then s else s.takeRx d 0x88B6) = s := if_pos h.mine
  unfold State.wheelIn
  rw [hs]
  dsimp only
  rw [if_neg (by simp [h.on, h.ver]; omega), if_pos h.mine, if_pos h.mesh]

theorem localFrame_found {s : State} {d : Nat} {f : WheelFrame} (h : AtMesh s d f) (k : Nat) {c : Coll}
    (hfind : (s.whl.colls.find? fun x => x.d == d && x.group == f.group && x.num == f.coll) = some c) :
    s.localFrame d (s.grp d f.group) { f with kind := k } = (s.collFrame c.id { f with kind := k }).pumpDie d := by
  unfold State.localFrame
  rw [if_neg (by simp [h.valid, h.here, h.src, h.other])]
  dsimp only
  rw [hfind]

theorem localFrame_kept {s : State} {d : Nat} {f : WheelFrame} (h : AtMesh s d f) {k : Nat} (hk : k = 2 ∨ k = 3)
    (hfind : (s.whl.colls.find? fun x => x.d == d && x.group == f.group && x.num == f.coll) = none) :
    s.localFrame d (s.grp d f.group) { f with kind := k } = { s with whl := { s.whl with early := s.whl.early ++ [(d, { f with kind := k })] } } := by
  unfold State.localFrame
  rw [if_neg (by simp [h.valid, h.here, h.src, h.other])]
  dsimp only
  rw [hfind]
  exact if_pos (by rcases hk with rfl | rfl <;> simp)

theorem meshFrame_early {s : State} {d : Nat} {f : WheelFrame} {c : Instr} {k : Nat} (h : AtMesh s d f)
    (hc : (c, k) ∈ [(Instr.wheelCountsFrame d f, 2), (.wheelStartFrame d f, 3)]) (hnone : ∀ x ∈ s.whl.colls, ¬ (x.d = d ∧ x.group = f.group ∧ x.num = f.coll)) :
    exec c s = .next { s with whl := { s.whl with early := s.whl.early ++ [(d, { f with kind := k })] } } := by
  have hfind : (s.whl.colls.find? fun x => x.d == d && x.group == f.group && x.num == f.coll) = none :=
    List.find?_eq_none.mpr fun x hx => by simpa [and_assoc] using hnone x hx
  simp only [List.mem_cons, List.not_mem_nil, or_false, Prod.mk.injEq] at hc
  rcases hc with ⟨rfl, rfl⟩ | ⟨rfl, rfl⟩
  · exact (onDie_eq h.die).trans (congrArg _ ((wheelIn_mesh h (by decide)).trans (localFrame_kept h (.inl rfl) hfind)))
  · exact (onDie_eq h.die).trans (congrArg _ ((wheelIn_mesh h (by decide)).trans (localFrame_kept h (.inr rfl) hfind)))

theorem meshFrame_runs {s : State} {d : Nat} {f : WheelFrame} {c : Instr} {k : Nat} {x : Coll} (h : AtMesh s d f) (hkind : f.kind < 6)
    (hc : (c, k) ∈ [(Instr.wheelDataFrame d f, 0), (.wheelCreditFrame d f, 1), (.wheelCountsFrame d f, 2), (.wheelStartFrame d f, 3)])
    (hfind : (s.whl.colls.find? fun x => x.d == d && x.group == f.group && x.num == f.coll) = some x) :
    exec c s = .next ((s.collFrame x.id { f with kind := k }).pumpDie d) := by
  have hrun : ∀ {c : Instr} {k : Nat}, k < 6 → exec c s = onDie s d (s.wheelIn d { f with kind := k }) →
      exec c s = .next ((s.collFrame x.id { f with kind := k }).pumpDie d) := fun hk hexec =>
    hexec.trans ((onDie_eq h.die).trans (congrArg _ ((wheelIn_mesh h hk).trans (localFrame_found h _ hfind))))
  have hdata : (if 6 ≤ f.kind then f.kind else 0) = 0 := if_neg (by omega)
  simp only [List.mem_cons, List.not_mem_nil, or_false, Prod.mk.injEq] at hc
  rcases hc with ⟨rfl, rfl⟩ | ⟨rfl, rfl⟩ | ⟨rfl, rfl⟩ | ⟨rfl, rfl⟩
  · refine hrun (by decide) ?_
    exact congrArg (fun n => onDie s d (s.wheelIn d { f with kind := n })) hdata
  · exact hrun (by decide) rfl
  · exact hrun (by decide) rfl
  · exact hrun (by decide) rfl

/-! ## Sending, which leaves memory alone -/

/-- No tile or row waits for a collective of the die. -/
def State.NoneWait (s : State) (d : Nat) : Prop := ∀ y ∈ s.whl.colls, y.d = d → y.ins = []

/-- Sending and settling keep memory, and bring no tile or row in. -/
structure SendsOnly (s t : State) : Prop where
  mem : t.mem = s.mem
  wiped : t.wiped = s.wiped
  waits : ∀ d, s.NoneWait d → t.NoneWait d

namespace SendsOnly

variable {s t u : State}

theorem refl (s : State) : SendsOnly s s := ⟨rfl, rfl, fun _ h => h⟩

theorem trans (h : SendsOnly s t) (g : SendsOnly t u) : SendsOnly s u := ⟨g.mem.trans h.mem, g.wiped.trans h.wiped, fun d hd => g.waits d (h.waits d hd)⟩

theorem of_eq (hm : t.mem = s.mem) (hw : t.wiped = s.wiped) (hc : t.whl = s.whl) : SendsOnly s t := by
  refine ⟨hm, hw, fun d hd => ?_⟩
  unfold State.NoneWait
  rw [hc]
  exact hd

theorem ite {c : Prop} [Decidable c] (h : SendsOnly s t) (g : SendsOnly s u) : SendsOnly s (if c then t else u) := by
  split
  · exact h
  · exact g

theorem foldl {α : Type} {f : State → α → State} (hf : ∀ t a, SendsOnly t (f t a)) (l : List α) (s : State) : SendsOnly s (l.foldl f s) :=
  foldl_keeps (P := SendsOnly s) (fun t a h => h.trans (hf t a)) l (refl s)

theorem onColl (s : State) (id : Nat) {f : State → Work → Coll → Grp → State} (hf : ∀ w c g, SendsOnly s (f s w c g)) : SendsOnly s (s.onColl id f) := by
  unfold State.onColl
  split
  · exact hf _ _ _
  · exact refl s

theorem modColl (s : State) (id : Nat) (f : Coll → Coll) (hf : ∀ c, (f c).d = c.d ∧ (f c).ins = c.ins := by intro _; exact ⟨rfl, rfl⟩) :
    SendsOnly s (s.modColl id f) := by
  refine ⟨rfl, rfl, fun d hd y hy hyd => ?_⟩
  obtain ⟨z, hz, rfl⟩ := List.mem_map.mp hy
  dsimp only at hyd ⊢
  split
  · rename_i hid
    rw [if_pos hid, (hf z).1] at hyd
    exact (hf z).2.trans (hd z hz hyd)
  · rename_i hid
    rw [if_neg hid] at hyd
    exact hd z hz hyd

theorem bump (s : State) (d off n : Nat) : SendsOnly s (s.bump d off n) := of_eq rfl rfl rfl

theorem queueRouted (s : State) (d : Nat) (f : TxFrame) : SendsOnly s (s.queueRouted d f) := by
  have h : ∀ g, SendsOnly s (s.modEth d g) := fun g => by
    obtain ⟨l, e⟩ := modEth_state s d g
    rw [e]
    exact of_eq rfl rfl rfl
  exact ite (refl s) (ite (h _) (h _))

theorem sendRouted (s : State) (prio : Nat) (via : Option Nat) (item : TxItem) : SendsOnly s (s.sendRouted prio via item) := by
  unfold State.sendRouted
  split
  · exact queueRouted s _ _
  · exact bump s 0 _ 1

theorem whlSend (s : State) (c : Coll) (dest : Nat) (f : WheelFrame) : SendsOnly s (s.whlSend c dest f) := by
  unfold State.whlSend
  dsimp only
  split
  · split
    · exact of_eq rfl rfl rfl
    · exact refl s
  · exact ite (queueRouted s _ _) (sendRouted s _ _ _)

theorem grantTo (s : State) (id r : Nat) : SendsOnly s (s.grantTo id r) :=
  onColl s id fun _ c _ => ite ((modColl s id _).trans (whlSend _ c r _)) (refl s)

theorem spent (s : State) (id r : Nat) : SendsOnly s (s.spent id r) := (modColl s id _).trans (grantTo _ id r)

theorem noteColl (s : State) (id flags : Nat) (bad crc : Bool) : SendsOnly s (s.noteColl id flags bad crc) := modColl s id _

theorem sendData (s : State) (w : Work) (c : Coll) (x : CSend) : SendsOnly s (s.sendData w c x) :=
  have h : ∀ (g : List Byte × Nat → WheelFrame) (l : List (List Byte × Nat)), SendsOnly s (l.foldl (fun s y => s.whlSend c x.dst (g y)) s) :=
    fun g l => foldl (f := fun (s : State) y => s.whlSend c x.dst (g y)) (fun t _ => whlSend t c x.dst _) l s
  ite ((h _ _).trans ((bump _ c.d _ 1).trans (noteColl _ c.id _ _ _))) (h _ _)

theorem pumpColl (id fuel : Nat) (s : State) : SendsOnly s (State.pumpColl id fuel s) := by
  induction fuel generalizing s with
  | zero => exact refl s
  | succ fuel ih =>
    unfold State.pumpColl
    split
    · split
      · exact refl s
      · split
        · exact refl s
        · exact ite (refl s) (((modColl s id _).trans (sendData _ _ _ _)).trans (ih _))
    · exact refl s

/-- A collective that ends otherwise than for a lost peer or a timeout leaves its destination as it is. -/
theorem endColl (s : State) (id : Nat) {status : Nat} (h : status ≠ 0x12 ∧ status ≠ 0x14) : SendsOnly s (s.endColl id status) := by
  unfold State.endColl
  split
  · exact refl s
  · dsimp only
    rw [if_neg (by simp [h])]
    exact ⟨rfl, rfl, fun d hd y hy hyd => hd y (List.mem_filter.mp hy).1 hyd⟩

theorem settleColl (s : State) (id : Nat) : SendsOnly s (s.settleColl id) :=
  onColl s id fun w c _ => by
    have hkept : ∀ d p o b, SendsOnly s (s.claimKept d p o b) := fun d p o b => ite (of_eq rfl rfl rfl) (refl s)
    refine ite (trans (ite ?_ (refl s)) (endColl _ id ?_)) (refl s)
    · split
      · exact hkept _ _ _ _
      · exact refl s
    · split
      · decide
      · decide

/-- With nothing that waits to be written, running a die's collectives on only sends. -/
theorem pumpDie {s : State} {d : Nat} (h : s.NoneWait d) : SendsOnly s (s.pumpDie d) := by
  have hall : ∀ (l : List Coll), (∀ c ∈ l, c.ins = []) → ∀ t, SendsOnly t (l.foldl (fun s c =>
      let s := (c.ins.filter fun x => x.full).foldl (fun s x => s.land c.id x) s
      (State.pumpColl c.id (c.queue.length + 1) s).settleColl c.id) t) := by
    intro l
    induction l with
    | nil => exact fun _ t => refl t
    | cons c l ih =>
      intro hl t
      have hc : ((c.ins.filter fun x => x.full).foldl (fun (s : State) x => s.land c.id x) t) = t := by
        rw [hl c List.mem_cons_self]
        rfl
      refine trans ?_ (ih (fun b hb => hl b (List.mem_cons_of_mem _ hb)) _)
      dsimp only
      rw [hc]
      exact (pumpColl c.id _ t).trans (settleColl _ c.id)
  refine hall _ (fun c hc => ?_) s
  obtain ⟨hmem, hd⟩ := List.mem_filter.mp hc
  exact h c hmem (by simpa using hd)

end SendsOnly

/-! ## A credit -/

/-- Running collectives on that have nothing to do changes nothing. -/
theorem pumpDie_idle {s : State} {d : Nat} (h : s.NoneWait d)
    (hidle : ∀ y ∈ s.whl.colls, y.d = d → ∀ z, s.coll y.id = some z → z.queue = [] ∧ z.open_ = false) : s.pumpDie d = s := by
  have hone : ∀ c ∈ s.whl.colls.filter fun c => c.d == d, (let t := (c.ins.filter fun x => x.full).foldl (fun s x => s.land c.id x) s
      (State.pumpColl c.id (c.queue.length + 1) t).settleColl c.id) = s := by
    intro c hc
    obtain ⟨hmem, hcd⟩ := List.mem_filter.mp hc
    have hcd : c.d = d := by simpa using hcd
    rw [h c hmem hcd]
    have hpump : State.pumpColl c.id (c.queue.length + 1) s = s := by
      unfold State.pumpColl
      split
      · rename_i z w hz hw
        rw [(hidle c hmem hcd z hz).1]
        rfl
      · rfl
    have hsettle : s.settleColl c.id = s := by
      unfold State.settleColl State.onColl
      split
      · rename_i z w hz hw
        dsimp only
        rw [if_neg (by simp [(hidle c hmem hcd z hz).2])]
      · rfl
    exact (congrArg (State.settleColl · c.id) hpump).trans hsettle
  have hfold : ∀ l : List Coll, (∀ c ∈ l, (let t := (c.ins.filter fun x => x.full).foldl (fun s x => s.land c.id x) s
      (State.pumpColl c.id (c.queue.length + 1) t).settleColl c.id) = s) → l.foldl (fun s c =>
      let s := (c.ins.filter fun x => x.full).foldl (fun s x => s.land c.id x) s
      (State.pumpColl c.id (c.queue.length + 1) s).settleColl c.id) s = s := by
    intro l
    induction l with
    | nil => exact fun _ => rfl
    | cons c l ih =>
      intro hl
      rw [List.foldl_cons, hl c List.mem_cons_self]
      exact ih fun b hb => hl b (List.mem_cons_of_mem _ hb)
  exact hfold _ hone

theorem find_die {s : State} {d : Nat} {f : WheelFrame} {x : Coll}
    (hfind : (s.whl.colls.find? fun x => x.d == d && x.group == f.group && x.num == f.coll) = some x) : x.d = d ∧ x.group = f.group := by
  have h := List.find?_some hfind
  simp only [Bool.and_eq_true, beq_iff_eq] at h
  exact h.1

theorem creditFrame_adds {s : State} {d : Nat} {f : WheelFrame} {x : Coll} (h : AtMesh s d f)
    (hfind : (s.whl.colls.find? fun x => x.d == d && x.group == f.group && x.num == f.coll) = some x) (hcoll : s.coll x.id = some x) (hqueue : x.queue = [])
    (hins : x.ins = []) (honly : ∀ y ∈ s.whl.colls, y.d = d → y = x) (hopen : x.open_ = false) : Does (.wheelCreditFrame d f) s fun t =>
      ∃ y, t.coll x.id = some y ∧ kvGet 0 y.credit f.srcRank = kvGet 0 x.credit f.srcRank + f.credit := by
  let g := fun c : Coll => { c with credit := kvPut c.credit f.srcRank (kvGet 0 c.credit f.srcRank + f.credit) }
  let t := s.modColl x.id g
  have hcredit : s.collFrame x.id { f with kind := 1 } = t := by
    show s.creditIn x.id { f with kind := 1 } = t
    unfold State.creditIn
    rw [hcoll]
    dsimp only
    rw [hqueue, if_neg (by simp)]
  have ht : t.coll x.id = some (g x) := coll_modColl_same hcoll fun _ => rfl
  have hmod : ∀ y ∈ t.whl.colls, y.d = d → y = g x ∨ y = x := by
    intro y hy hyd
    obtain ⟨z, hz, rfl⟩ := List.mem_map.mp hy
    dsimp only at hyd ⊢
    split
    · rename_i hid
      rw [if_pos hid] at hyd
      exact .inl (congrArg g (honly z hz hyd))
    · rename_i hid
      rw [if_neg hid] at hyd
      exact .inr (honly z hz hyd)
  have hidle : t.pumpDie d = t := by
    refine pumpDie_idle (fun y hy hyd => ?_) fun y hy hyd z hz => ?_
    · rcases hmod y hy hyd with rfl | rfl
      · exact hins
      · exact hins
    · have hid : y.id = x.id := by
        rcases hmod y hy hyd with rfl | rfl
        · rfl
        · rfl
      rw [hid, ht] at hz
      cases hz
      exact ⟨hqueue, hopen⟩
  refine ⟨t, (onDie_eq h.die).trans (congrArg _ ((wheelIn_mesh h (by decide)).trans ((localFrame_found h 1 hfind).trans ?_))), g x, ht, ?_⟩
  · exact (congrArg (State.pumpDie · d) hcredit).trans hidle
  · exact (kvGet_kvPut 0 _ _ _ _).trans (if_pos rfl)

/-! ## A data frame of SHIFT -/

theorem wrote_tag {s : State} (hwf : s.memWf = true) (a : Nat) (bs : List Byte) (tag : Bool) : Wrote s (s.write a bs tag) a bs :=
  ⟨s.bytes_write hwf a bs tag, fun x hx => s.byte_write_outside a bs tag x hx⟩

theorem wipe_memWf {s : State} (h : s.memWf = true) (a len : Nat) : (s.wipe a len).memWf = true := by
  let u : State := { s with measLog := { s.measLog with entries := [] }, grd := { s.grd with sticky := [], sess := [] } }
  have hu : u.Inv := ⟨h, Nat.zero_le _, Nat.zero_le _, List.nodup_nil, fun x hx => absurd hx (by simp [u])⟩
  exact ((State.wipe_keeps u a len ⟨rfl, rfl, fun i => i⟩).inv hu).memory

theorem staged_does {s : State} (hwf : s.memWf = true) (d : Nat) : (s.staged d).memWf = true ∧ (s.staged d).whl = s.whl ∧ (s.staged d).seq = s.seq ∧
    ∀ x, x < s.regAddr d Reg.whlStageLo ∨ s.regAddr d Reg.whlStageLo + 2 ^ 26 ≤ x → (s.staged d).byte x = s.byte x := by
  unfold State.staged
  dsimp only
  split
  · exact ⟨wipe_memWf hwf _ _, rfl, rfl, fun x hx => wipe_byte s hx⟩
  · exact ⟨hwf, rfl, rfl, fun _ _ => rfl⟩

/-- The tile that the last slice of a data frame makes whole. -/
def shiftTile (f : WheelFrame) : CIn := ⟨f.srcRank, f.phase, f.dir, f.piece, f.index, f.payload, f.poison, true⟩

theorem sliceIn_whole {s : State} {f : WheelFrame} {x : Coll} {w : Work} (hcoll : s.coll x.id = some x) (hwork : s.work x.id = some w)
    (hopen : x.open_ = true) (hins : x.ins = []) (hlast : f.last = true) (k : Nat) :
    s.sliceIn x.id { f with kind := k } = ((s.staged x.d).modColl x.id fun c => { c with ins := [shiftTile f] }).land x.id (shiftTile f) := by
  unfold State.sliceIn
  rw [onColl_some hcoll hwork]
  dsimp only
  rw [hins, if_neg (by simp [hopen]), if_pos hlast, hlast]
  rfl

/-- Where a tile of SHIFT is written. -/
def shiftAddr (spans : List (Nat × Nat × Nat)) (f : WheelFrame) : Nat :=
  ((spans.find? fun y => y.1 == f.srcRank).map fun y => y.2.1).getD 0 + f.index * tileStride (leAt f.payload 0 1)

theorem placeTile_stores {u : State} {id a : Nat} {c : Coll} {w : Work} {b : List Byte} (bad : Bool) (hcoll : u.coll id = some c)
    (hwork : u.work id = some w) (hcodes : ∀ k ∈ u.rangeCodes c.d w.part ⟨a, b.length, true⟩, k = 0) :
    SendsOnly (u.write a b bad) (u.placeTile id a b bad) := by
  unfold State.placeTile
  rw [onColl_some hcoll hwork]
  dsimp only
  rw [lowest_eq_zero.mpr hcodes, if_neg (by decide)]
  exact .noteColl _ id _ _ _

/-- A whole tile of SHIFT goes to the place that its sender's span names. -/
theorem tileIn_shift {u : State} {id : Nat} {c : Coll} {w : Work} {f : WheelFrame} (hcoll : u.coll id = some c) (hwork : u.work id = some w)
    (hcop : w.cop = 3) (hpiece : f.piece < (u.grp c.d c.group).n) (hindex : f.index < (u.piece w f.piece).n)
    (hlen : f.payload.length = tileStride (leAt f.payload 0 1)) : u.tileIn id (shiftTile f) =
      (u.modColl id fun c => { c with got := c.got + 1 }).placeTile id (shiftAddr c.spans f) f.payload f.poison := by
  have hp : ¬ (u.grp c.d c.group).n ≤ (shiftTile f).piece := Nat.not_le.mpr hpiece
  have hi : ¬ (u.piece w (shiftTile f).piece).n ≤ (shiftTile f).index := Nat.not_le.mpr hindex
  have hl : ¬ (shiftTile f).bytes.length ≠ tileStride (leAt (shiftTile f).bytes 0 1) := fun h => h hlen
  have h4 : ¬ w.cop = 4 := by omega
  unfold State.tileIn
  rw [onColl_some hcoll hwork]
  dsimp only
  rw [if_neg h4, if_neg (by simp [hp, hi, hl]), if_neg (by simp [hcop]), if_neg (by simp [hcop]), if_pos hcop]
  rfl

theorem land_whole {u : State} {id : Nat} {c : Coll} {w : Work} {f : WheelFrame} (hcoll : u.coll id = some c) (hwork : u.work id = some w)
    (hcop : w.cop = 3) (hlen : f.payload.length = tileStride (leAt f.payload 0 1))
    (hclear : u.refetching ⟨shiftAddr c.spans f, f.payload.length, true⟩ = false) : u.land id (shiftTile f) =
      ((u.modColl id fun c => { c with ins := c.ins.erase (shiftTile f) }).tileIn id (shiftTile f)).spent id f.srcRank := by
  have hland : u.landing w c (u.grp c.d c.group) (shiftTile f) = ⟨shiftAddr c.spans f, f.payload.length, true⟩ := by
    unfold State.landing
    dsimp only
    rw [if_neg (by simp [hcop]), if_neg (by omega), if_pos hcop, hlen]
    rfl
  unfold State.land
  rw [onColl_some hcoll hwork, hland, hclear, if_neg (by decide)]
  dsimp only
  rw [if_pos (by omega)]
  rfl

theorem grp_modColl (s : State) (id : Nat) (f : Coll → Coll) (d g : Nat) : (s.modColl id f).grp d g = s.grp d g := rfl

theorem piece_modColl (s : State) (id : Nat) (f : Coll → Coll) (w : Work) (k : Nat) : (s.modColl id f).piece w k = s.piece w k := rfl

theorem rangeCodes_modColl (s : State) (id : Nat) (f : Coll → Coll) (d p : Nat) (r : Rng) : (s.modColl id f).rangeCodes d p r = s.rangeCodes d p r := rfl

/-- The state that takes a tile of SHIFT: nothing waits any more, and one more tile has come. -/
def State.tileTaken (u : State) (id : Nat) (f : WheelFrame) : State :=
  ((u.modColl id fun c => { c with ins := [shiftTile f] }).modColl id fun c => { c with ins := c.ins.erase (shiftTile f) }).modColl id
    fun c => { c with got := c.got + 1 }

/-- A tile of SHIFT that arrived whole is stored at its place. -/
theorem land_shift {u : State} {f : WheelFrame} {x : Coll} {w : Work} (hcoll : u.coll x.id = some x) (hwork : u.work x.id = some w) (hcop : w.cop = 3)
    (hpiece : f.piece < (u.grp x.d x.group).n) (hindex : f.index < (u.piece w f.piece).n) (hlen : f.payload.length = tileStride (leAt f.payload 0 1))
    (hclear : u.refetching ⟨shiftAddr x.spans f, f.payload.length, true⟩ = false)
    (hcodes : ∀ c ∈ u.rangeCodes x.d w.part ⟨shiftAddr x.spans f, f.payload.length, true⟩, c = 0) :
    SendsOnly ((u.tileTaken x.id f).write (shiftAddr x.spans f) f.payload f.poison)
      ((u.modColl x.id fun c => { c with ins := [shiftTile f] }).land x.id (shiftTile f)) := by
  let u1 := u.modColl x.id fun c => { c with ins := [shiftTile f] }
  let u2 := u1.modColl x.id fun c => { c with ins := c.ins.erase (shiftTile f) }
  have h1 : u1.coll x.id = some { x with ins := [shiftTile f] } := coll_modColl_same hcoll fun _ => rfl
  have h2 : u2.coll x.id = some { x with ins := [shiftTile f].erase (shiftTile f) } := coll_modColl_same h1 fun _ => rfl
  have h3 : (u.tileTaken x.id f).coll x.id = some { x with ins := [shiftTile f].erase (shiftTile f), got := x.got + 1 } :=
    coll_modColl_same h2 fun _ => rfl
  have hcodes3 : ∀ c ∈ (u.tileTaken x.id f).rangeCodes x.d w.part ⟨shiftAddr x.spans f, f.payload.length, true⟩, c = 0 := by
    unfold State.tileTaken
    rw [rangeCodes_modColl, rangeCodes_modColl, rangeCodes_modColl]
    exact hcodes
  have hplace := placeTile_stores (a := shiftAddr x.spans f) (b := f.payload) f.poison h3 hwork hcodes3
  have hpiece2 : f.piece < (u2.grp x.d x.group).n := by
    rw [grp_modColl, grp_modColl]
    exact hpiece
  have hindex2 : f.index < (u2.piece w f.piece).n := by
    rw [piece_modColl, piece_modColl]
    exact hindex
  rw [land_whole h1 hwork hcop hlen hclear, tileIn_shift h2 hwork hcop hpiece2 hindex2 hlen]
  exact hplace.trans (.spent _ x.id f.srcRank)

theorem dataFrame_stores {s : State} {d : Nat} {f : WheelFrame} {x : Coll} {w : Work} (h : AtMesh s d f) (hwf : s.memWf = true) (hkind : f.kind < 6)
    (hfind : (s.whl.colls.find? fun x => x.d == d && x.group == f.group && x.num == f.coll) = some x) (hcoll : s.coll x.id = some x)
    (hwork : s.work x.id = some w) (hcop : w.cop = 3) (hopen : x.open_ = true) (hins : x.ins = []) (honly : ∀ y ∈ s.whl.colls, y.d = d → y = x)
    (hlast : f.last = true) (hpiece : f.piece < ((s.staged d).grp d f.group).n) (hindex : f.index < ((s.staged d).piece w f.piece).n)
    (hlen : f.payload.length = tileStride (leAt f.payload 0 1)) (hclear : (s.staged d).refetching ⟨shiftAddr x.spans f, f.payload.length, true⟩ = false)
    (hcodes : ∀ c ∈ (s.staged d).rangeCodes d w.part ⟨shiftAddr x.spans f, f.payload.length, true⟩, c = 0) :
    Does (.wheelDataFrame d f) s fun t => Wrote (s.staged d) t (shiftAddr x.spans f) f.payload ∧
      ∀ a, a < s.regAddr d Reg.whlStageLo ∨ s.regAddr d Reg.whlStageLo + 2 ^ 26 ≤ a → (s.staged d).byte a = s.byte a := by
  obtain ⟨hxd, hgroup⟩ := find_die hfind
  obtain ⟨huwf, huwhl, huseq, hstage⟩ := staged_does hwf d
  have hexec := meshFrame_runs (k := 0) h hkind List.mem_cons_self hfind
  have hslice : s.collFrame x.id { f with kind := 0 } = ((s.staged d).modColl x.id fun c => { c with ins := [shiftTile f] }).land x.id (shiftTile f) :=
    (sliceIn_whole hcoll hwork hopen hins hlast 0).trans (by rw [hxd])
  generalize s.staged d = u at *
  have hucoll : u.coll x.id = some x := by
    unfold State.coll
    rw [huwhl]
    exact hcoll
  have huwork : u.work x.id = some w := by
    unfold State.work
    rw [huseq]
    exact hwork
  have hv := land_shift hucoll huwork hcop (by rwa [hxd, hgroup]) hindex hlen hclear (by rwa [hxd])
  have hwait : ((u.tileTaken x.id f).write (shiftAddr x.spans f) f.payload f.poison).NoneWait d := by
    intro y hy hyd
    have hwhl : ((u.tileTaken x.id f).write (shiftAddr x.spans f) f.payload f.poison).whl = (u.tileTaken x.id f).whl := by rw [State.write_fields]
    rw [hwhl] at hy
    obtain ⟨y2, hy2, rfl⟩ := List.mem_map.mp hy
    obtain ⟨y1, hy1, rfl⟩ := List.mem_map.mp hy2
    obtain ⟨y0, hy0, rfl⟩ := List.mem_map.mp hy1
    rw [huwhl] at hy0
    by_cases hid : (y0.id == x.id) = true
    · simp [hid]
    · simp only [hid, Bool.false_eq_true, if_false] at hyd ⊢
      rw [honly y0 hy0 hyd]
      exact hins
  have hpump := SendsOnly.pumpDie (hv.waits d hwait)
  refine ⟨_, hexec.trans (congrArg (fun t : State => Host.Outcome.next (t.pumpDie d)) hslice), ?_, hstage⟩
  refine (wrote_tag huwf (shiftAddr x.spans f) f.payload f.poison).of_mem rfl rfl ?_ ?_
  · refine (hpump.mem.trans hv.mem).trans ?_
    rw [State.write_mem, State.write_mem]
    rfl
  · refine (hpump.wiped.trans hv.wiped).trans ?_
    rw [State.write_wiped, State.write_wiped]
    rfl

/-! ## How collectives end -/

theorem endColl_none (s : State) (id status : Nat) : (s.endColl id status).coll id = none := by
  unfold State.endColl
  split
  · assumption
  · refine List.find?_eq_none.mpr fun y hy => ?_
    have hmem : ∀ (u : State) (c : Rec → Rec), (u.endWork id c).whl = u.whl := fun _ _ => rfl
    rw [hmem] at hy
    have hfold : ∀ (l : List (Nat × Nat)) (u : State), (l.foldl (fun (s : State) r => s.scramble r.1 r.2) u).whl = u.whl := fun l u =>
      foldl_keeps (P := fun t : State => t.whl = u.whl) (fun t r ht => by
        unfold State.scramble
        dsimp only
        rw [State.write_fields]
        exact ht) l rfl
    have hy : y ∈ s.whl.colls.filter fun x => x.id != id := by
      split at hy
      · rwa [hfold] at hy
      · exact hy
    simpa using (List.mem_filter.mp hy).2

theorem collectiveTimeout_does {s : State} {id : Nat} {x : Coll} {w : Work} (ht : s.tripped = false) (hcoll : s.coll id = some x) (hwork : s.work id = some w) :
    Does (.collectiveTimeout id) s fun t => t.coll id = none ∧ t.ctr x.d (Reg.whlCntLo 5) = Nat.min ctrMax (s.ctr x.d (Reg.whlCntLo 5) + 1) ∧
      Ended t id { w.res with status := 0x14, flags := x.flags, poison := x.poison, checksum := x.crc, detail0 := x.num } := by
  let s1 := s.bump x.d (Reg.whlCntLo 5) 1
  have hexec : exec (.collectiveTimeout id) s = .next ((s1.endColl id 0x14).pumpDie x.d) := by
    refine (live_eq ht).trans (congrArg _ ?_)
    rw [hcoll]
  have hend := Pumped.endColl s1 id 0x14
  have hpump := Pumped.pumpDie (s1.endColl id 0x14) x.d
  obtain ⟨hnone, hkeep⟩ := hpump.idle id (endColl_none s1 id 0x14)
  refine ⟨_, hexec, hnone, ((hpump.timeouts x.d).trans (hend.timeouts x.d)).trans (State.ctr_bump_same _ _ _ _), ?_⟩
  have hended : Ended (s1.endColl id 0x14) id { w.res with status := 0x14, flags := x.flags, poison := x.poison, checksum := x.crc, detail0 := x.num } := by
    unfold State.endColl
    rw [show s1.coll id = some x from hcoll]
    dsimp only
    refine ended_endWork ?_ _
    rw [if_pos (by decide)]
    refine foldl_keeps (P := fun t : State => t.work id = some w) (fun t r ht => ?_) _ hwork
    unfold State.scramble
    dsimp only
    rw [State.write_work]
    exact ht
  obtain ⟨v, hv, hrest⟩ := hended
  exact ⟨v, hkeep.trans hv, hrest⟩

/-- Ending collectives leaves none of those numbers, and registers and memory as they were. -/
theorem endColls_does (s : State) (pick : Coll → Bool) {status : Nat} (h : status ≠ 0x12 ∧ status ≠ 0x14) :
    (∀ x ∈ (s.endColls pick status).whl.colls, x ∈ s.whl.colls ∧ pick x = false) ∧ (s.endColls pick status).whl.early = s.whl.early ∧
      (s.endColls pick status).regs = s.regs ∧ (s.endColls pick status).part = s.part ∧ SameMem s (s.endColls pick status) := by
  have hsends : SendsOnly s (s.endColls pick status) := SendsOnly.foldl (f := fun (s : State) (c : Coll) => s.endColl c.id status) (fun t c => .endColl t c.id h) _ s
  have hone : ∀ (t : State) (id : Nat), (∀ x ∈ (t.endColl id status).whl.colls, x ∈ t.whl.colls ∧ x.id ≠ id) ∧ (t.endColl id status).whl.early = t.whl.early ∧
      (t.endColl id status).regs = t.regs ∧ (t.endColl id status).part = t.part := by
    intro t id
    unfold State.endColl
    split
    · rename_i hnone
      exact ⟨fun x hx => ⟨hx, by simpa using List.find?_eq_none.mp hnone x hx⟩, rfl, rfl, rfl⟩
    · dsimp only
      rw [if_neg (by simp [h])]
      exact ⟨fun x hx => ⟨(List.mem_filter.mp hx).1, by simpa using (List.mem_filter.mp hx).2⟩, rfl, rfl, rfl⟩
  have hall : ∀ (l : List Coll) (t : State), (∀ x ∈ (l.foldl (fun s c => s.endColl c.id status) t).whl.colls, x ∈ t.whl.colls ∧ ∀ c ∈ l, x.id ≠ c.id) ∧
      (l.foldl (fun s c => s.endColl c.id status) t).whl.early = t.whl.early ∧ (l.foldl (fun s c => s.endColl c.id status) t).regs = t.regs ∧
      (l.foldl (fun s c => s.endColl c.id status) t).part = t.part := by
    intro l
    induction l with
    | nil => exact fun t => ⟨fun x hx => ⟨hx, fun c hc => absurd hc (by simp)⟩, rfl, rfl, rfl⟩
    | cons c l ih =>
      intro t
      obtain ⟨hm, he, hr, hp⟩ := ih (t.endColl c.id status)
      obtain ⟨hm1, he1, hr1, hp1⟩ := hone t c.id
      refine ⟨fun x hx => ?_, he.trans he1, hr.trans hr1, hp.trans hp1⟩
      obtain ⟨hx1, hx2⟩ := hm x hx
      refine ⟨(hm1 x hx1).1, fun b hb => ?_⟩
      rcases List.mem_cons.mp hb with rfl | hb
      · exact (hm1 x hx1).2
      · exact hx2 b hb
  obtain ⟨hm, he, hr, hp⟩ := hall (s.whl.colls.filter pick) s
  refine ⟨fun x hx => ⟨(hm x hx).1, ?_⟩, he, hr, hp, .of_eq hsends.mem hsends.wiped⟩
  by_contra hpick
  exact (hm x hx).2 x (List.mem_filter.mpr ⟨(hm x hx).1, by simpa using hpick⟩) rfl

theorem wheelDisable_does {s : State} {d : Nat} (hd : DieUp s d) (hon : s.rbit d Reg.whlCtrl 0 = true) : Does (.wheelDisable d) s fun t =>
    t.rbit d Reg.whlCtrl 0 = false ∧ (∀ x ∈ t.whl.colls, x.d ≠ d) ∧ (∀ x ∈ t.whl.early, x.1 ≠ d) ∧ SameMem s t := by
  let s1 := s.setRbit d Reg.whlCtrl 0 false
  obtain ⟨hcolls, hearly, hregs, hpart, hmem⟩ := endColls_does s1 (fun c => c.d == d) (status := 7) (by decide)
  refine ⟨s.wheelOff d, (onDie_eq hd).trans (congrArg _ (if_pos hon)), ?_, fun x hx => ?_, fun x hx => ?_, hmem⟩
  · exact (congrArg (bit · 0) (State.regN_congr (t := s.wheelOff d) hregs hpart d Reg.whlCtrl)).trans (State.rbit_setRbit_same s d _ 0 false (by decide))
  · simpa using (hcolls x hx).2
  · simpa using (List.mem_filter.mp hx).2

end Sys2Proof.Machine

open Sys2Proof Sys2Proof.Machine

/-- Settles O30: a frame of the mesh is dropped, kept for later or run, and ending collectives touches no other memory. -/
theorem wheelFrames : Obligations.WheelFrames := by
  unfold Obligations.WheelFrames
  refine ⟨fun s d f c hd hoff hc => wheelOff_drops hd hoff hc, fun s d f c k h hc hnone => meshFrame_early h hc hnone,
    fun s d f c k x h hk hc hfind => meshFrame_runs h hk hc hfind,
    fun s d f x h hfind hcoll hqueue hins honly hopen => creditFrame_adds h hfind hcoll hqueue hins honly hopen, ?_,
    fun s id x w ht hcoll hwork => collectiveTimeout_does ht hcoll hwork, fun s d hd hon => wheelDisable_does hd hon⟩
  intro s u d f x w h hwf hk hu hfind hcoll hwork hcop hopen hins honly hlast hpiece hindex hlen a hclear hcodes
  subst hu
  exact dataFrame_stores h hwf hk hfind hcoll hwork hcop hopen hins honly hlast hpiece hindex hlen hclear hcodes

end

section
/-! PROOF. Prefetch entries, drives that enumerate, re-fetches, measurements and scans of manifests. -/

namespace Sys2Proof.Machine

/-! ## What loads and transfers keep -/

/-- A load or a transfer keeps descriptors and lists, and the count of entries issued. -/
structure Fetches (s t : State) : Prop where
  seq : t.seq = s.seq
  lists : t.lists = s.lists
  ctr : ∀ d, t.ctr d (Reg.seqCntLo 2) = s.ctr d (Reg.seqCntLo 2)

namespace Fetches

variable {s t u : State}

theorem refl (s : State) : Fetches s s := ⟨rfl, rfl, fun _ => rfl⟩

theorem trans (h : Fetches s t) (g : Fetches t u) : Fetches s u :=
  ⟨g.seq.trans h.seq, g.lists.trans h.lists, fun d => (g.ctr d).trans (h.ctr d)⟩

theorem of_eq (hs : t.seq = s.seq) (hl : t.lists = s.lists) (hc : t.ctrs = s.ctrs) : Fetches s t := ⟨hs, hl, fun d => State.ctr_congr hc d _⟩

theorem of_mem (h : OnlyMem s t) : Fetches s t := of_eq (by rw [h]) (by rw [h]) h.ctrs

theorem ite {c : Prop} [Decidable c] (h : Fetches s t) (g : Fetches s u) : Fetches s (if c then t else u) := by
  split
  · exact h
  · exact g

theorem foldl {α : Type} {f : State → α → State} (hf : ∀ t a, Fetches t (f t a)) (l : List α) (s : State) : Fetches s (l.foldl f s) :=
  foldl_keeps (P := Fetches s) (fun t a h => h.trans (hf t a)) l (refl s)

theorem scramble (s : State) (a len : Nat) : Fetches s (s.scramble a len) :=
  (show Fetches s s.fresh.2 from of_eq rfl rfl rfl).trans (of_mem (.write s.fresh.2 a _))

theorem markLine (s : State) (line : Nat) (b : Bool) : Fetches s (s.markLine line b) := of_eq rfl rfl rfl

theorem copyLines (s : State) (src dst len : Nat) : Fetches s (s.copyLines src dst len) := by
  refine ite (scramble s dst len) ((of_mem (.write s dst _)).trans (foldl (fun t x => ?_) _ _))
  exact markLine t _ _

theorem blurUnit (s : State) (port lba : Nat) : Fetches s (s.blurUnit port lba) := of_eq rfl rfl rfl

theorem blurMoved (s : State) (y : Xfer) (hits : List (Nat × Nat)) (p : Piece) : Fetches s (s.blurMoved y hits p) := by
  refine ite (refl s) (foldl (fun t r => ?_) _ s)
  exact scramble t _ _

theorem clash (s : State) (y : Xfer) (hits : List (Nat × Nat)) : Fetches s (s.clash y hits) :=
  (foldl (f := fun (s : State) v => s.blurUnit (s.unitAt y.d v).1 (s.unitAt y.d v).2) (fun t _ => blurUnit t _ _) _ s).trans
    (foldl (f := fun (s : State) p => s.blurMoved y hits p) (fun t p => blurMoved t y hits p) _ _)

theorem flBump (s : State) (d n : Nat) : Fetches s (s.bump d (Reg.flCntLo 2) n) :=
  ⟨rfl, rfl, fun e => State.ctr_bump_other _ _ _ _ _ _ (by unfold regKey Reg.seqCntLo Reg.flCntLo; omega)⟩

theorem startXfer (s : State) (x : Xfer) : Fetches s (s.startXfer x) := by
  unfold State.startXfer
  dsimp only
  refine trans (trans (foldl (f := fun (s : State) (p : Piece) => s.bump p.port (Reg.flCntLo 2) 1) (fun t p => flBump t p.port 1) _ s)
    (foldl (fun t y => clash t y _) _ _)) (of_eq rfl rfl rfl)

end Fetches

/-! ## Prefetch entries -/

/-- The state that has issued an entry of a list. -/
def State.entryIssued (s : State) (w : Work) (id i status : Nat) (ended : Bool) : State :=
  let s := { s with lists := mapIf (fun x => x.id == id) (fun x => { x with next := x.next + 1 }) s.lists }
  (s.bump w.die (Reg.seqCntLo 2) 1).addEntry w i status ended

/-- What an entry that was issued leaves: its descriptor, the list one further, and the count. -/
structure Issued (s t : State) (w : Work) (id i : Nat) : Prop where
  work : ∃ v ∈ t.seq.works, v.id = s.seq.nextId ∧ v.entry = some i ∧ v.batch = some w.id
  lists : t.lists = mapIf (fun x => x.id == id) (fun x => { x with next := x.next + 1 }) s.lists
  ctr : t.ctr w.die (Reg.seqCntLo 2) = Nat.min ctrMax (s.ctr w.die (Reg.seqCntLo 2) + 1)

theorem entryIssued_does (s : State) (w : Work) (id i status : Nat) (ended : Bool) : Issued s (s.entryIssued w id i status ended) w id i :=
  ⟨⟨_, List.mem_append_right _ (List.mem_singleton.mpr rfl), rfl, rfl, rfl⟩, rfl, State.ctr_bump_same { s with lists := _ } _ _ _⟩

namespace Issued

variable {s t u : State} {w : Work} {id i : Nat}

theorem fetches (h : Issued s t w id i) (g : Fetches t u) : Issued s u w id i :=
  ⟨by rw [g.seq]; exact h.work, g.lists.trans h.lists, (g.ctr w.die).trans h.ctr⟩

theorem modWork (h : Issued s t w id i) (me : Nat) (f : Work → Work) (hf : ∀ v, (f v).id = v.id ∧ (f v).entry = v.entry ∧ (f v).batch = v.batch) :
    Issued s (t.modWork me f) w id i := by
  obtain ⟨v, hv, hid, hentry, hbatch⟩ := h.work
  refine ⟨⟨_, List.mem_map_of_mem (f := fun x => if x.id == me then f x else x) hv, ?_⟩, h.lists, h.ctr⟩
  split
  · exact ⟨(hf v).1.trans hid, (hf v).2.1.trans hentry, (hf v).2.2.trans hbatch⟩
  · exact ⟨hid, hentry, hbatch⟩

end Issued

/-- What runs once nothing holds the ranges of an entry: a transfer from the volume, or a copy. -/
def State.entryRuns (s : State) (w : Work) (l : PfList) (id so do_ : Nat) (src dst : ObjRec) : State :=
  if src.tier = 2 then
    (s.entryIssued w id l.next 0 false).startXfer ⟨s.seq.nextId, w.die, 0, src.vlba, unitsOf src.len, dst.base, false, [], [so, do_],
      s.cutPieces w.die (unitsOf src.len) src.vlba (unitsOf src.len) 0 src.len⟩
  else
    ((s.entryIssued w id l.next 0 true).copyLines src.base dst.base src.len).modWork s.seq.nextId fun v => { v with res := { v.res with poison := s.tagged src.base src.len } }

theorem entryRuns_does (s : State) (w : Work) (l : PfList) (id so do_ : Nat) (src dst : ObjRec) : Issued s (s.entryRuns w l id so do_ src dst) w id l.next := by
  unfold State.entryRuns
  split
  · exact (entryIssued_does s w id l.next 0 false).fetches (.startXfer _ _)
  · exact ((entryIssued_does s w id l.next 0 true).fetches (.copyLines _ _ _ _)).modWork _ _ fun _ => ⟨rfl, rfl, rfl⟩

theorem prefetchEntryIssue_exec {s : State} {id : Nat} {l : PfList} {w : Work} (ht : s.tripped = false)
    (hlist : s.lists.find? (fun l => l.id == id) = some l) (hwork : s.work id = some w) (hmore : l.next < l.count) (hfly : s.outstanding id < l.maxFly)
    (hlayer : s.layerOk l (leAt (s.bytes (l.list + 16 * l.next) 16) 8 2) = true) {so do_ : Nat}
    (hso : leAt (s.bytes (l.list + 16 * l.next) 16) 0 4 % 2 ^ 20 = so) (hdo : leAt (s.bytes (l.list + 16 * l.next) 16) 4 4 % 2 ^ 20 = do_)
    (hcode : s.entryCode w.die l.part (s.bytes (l.list + 16 * l.next) 16) (s.obj w.die so) (s.obj w.die do_) = 0) :
    exec (.prefetchEntryIssue id) s = .next (s.onRanges w ((s.obj w.die so).srcRanges ++ [⟨(s.obj w.die do_).base, (s.obj w.die do_).len, true⟩])
      fun u => u.entryRuns w l id so do_ (s.obj w.die so) (s.obj w.die do_)) := by
  subst hso
  subst hdo
  refine (live_eq ht).trans (congrArg _ ?_)
  rw [hlist, hwork]
  dsimp only
  rw [if_neg (by simp [hmore, hfly, hlayer]), if_neg (by rw [hcode]; decide)]
  rfl

theorem prefetchEntryIssue_does {s : State} {id : Nat} {l : PfList} {w : Work} (ht : s.tripped = false)
    (hlist : s.lists.find? (fun l => l.id == id) = some l) (hwork : s.work id = some w) (hmore : l.next < l.count) (hfly : s.outstanding id < l.maxFly)
    (hlayer : s.layerOk l (leAt (s.bytes (l.list + 16 * l.next) 16) 8 2) = true) {so do_ : Nat}
    (hso : leAt (s.bytes (l.list + 16 * l.next) 16) 0 4 % 2 ^ 20 = so) (hdo : leAt (s.bytes (l.list + 16 * l.next) 16) 4 4 % 2 ^ 20 = do_)
    (hcode : s.entryCode w.die l.part (s.bytes (l.list + 16 * l.next) 16) (s.obj w.die so) (s.obj w.die do_) = 0)
    (hclear : Clear s ((s.obj w.die so).srcRanges ++ [⟨(s.obj w.die do_).base, (s.obj w.die do_).len, true⟩])) :
    Does (.prefetchEntryIssue id) s fun t => Issued s t w id l.next := by
  refine ⟨_, prefetchEntryIssue_exec ht hlist hwork hmore hfly hlayer hso hdo hcode, ?_⟩
  rw [onRanges_clear w hclear]
  generalize (s.obj w.die so).srcRanges ++ _ = rs
  obtain ⟨c, n, o, hu⟩ := touched_state s w rs
  have h := entryRuns_does (s.touched w rs) w l id so do_ (s.obj w.die so) (s.obj w.die do_)
  generalize (s.touched w rs).entryRuns w l id so do_ _ _ = v at h
  obtain ⟨hst, ou, hrel⟩ := released_state s rs v
  have hnext : (s.touched w rs).seq.nextId = s.seq.nextId := by rw [hu]
  have hlists : (s.touched w rs).lists = s.lists := by rw [hu]
  rw [hrel]
  refine ⟨hnext ▸ h.work, hlists ▸ h.lists, ?_⟩
  refine (State.ctr_congr (s := v) (t := { v with hst := hst, out := ou }) rfl _ _).trans (h.ctr.trans ?_)
  rw [touched_ctr_other s w rs _ _ (by decide) (.inr (by decide))]

/-! ## A drive that enumerates -/

theorem driveEnumerate_does {s : State} {d lbas rate granted mqes mdts : Nat} (hd : DieUp s d) (hon : s.rbit d Reg.flCtrl 0 = true)
    (hfree : s.rbit d Reg.flStatus 3 = false) (hunit : s.unitOut d 0x0D = false) (hdie : s.dieOut d = false) (hlo : 1 ≤ rate) (hhi : rate ≤ 3)
    (hlbas : 0 < lbas) (hmax : lbas ≤ maxLbas) (hgrant : 1 ≤ granted) :
    Does (.driveEnumerate d true lbas rate granted mqes mdts) s fun t => t.regN d Reg.flStatus = 1 + 2 * rate + 8 ∧
      t.drives = s.drives.filter (fun x => x.d != d) ++ [⟨d, mdts, Nat.min 16 granted, Nat.min 1024 (mqes + 1)⟩] ∧
      ∀ x, (x < s.regPair d Reg.flQbaseLo ∨ s.regPair d Reg.flQbaseLo + 2 ^ 22 ≤ x) → t.byte x = s.byte x := by
  let s1 := s.setRegN d Reg.flStatus (1 + 2 * rate + 8)
  let s2 := s1.setRegPair d Reg.flDrvLbasLo lbas
  let s3 : State := { s2 with drives := s.drives.filter (fun x => x.d != d) ++ [⟨d, mdts, Nat.min 16 granted, Nat.min 1024 (mqes + 1)⟩] }
  have hother : ∀ o, o < 2 ^ 24 → o ≠ Reg.flDrvLbasLo → o ≠ Reg.flDrvLbasLo + 4 → s3.regN d o = s1.regN d o := fun o ho h1 h2 =>
    (State.regN_setRegN_other _ _ _ _ _ _ (State.regKey_ne ho (by decide) (.inr h2))).trans
      (State.regN_setRegN_other _ _ _ _ _ _ (State.regKey_ne ho (by decide) (.inr h1)))
  have hbase : s3.regPair d Reg.flQbaseLo = s.regPair d Reg.flQbaseLo := by
    have h : ∀ o, o < 2 ^ 24 → o ≠ Reg.flDrvLbasLo → o ≠ Reg.flDrvLbasLo + 4 → o ≠ Reg.flStatus → s3.regN d o = s.regN d o := fun o ho h1 h2 h3 =>
      (hother o ho h1 h2).trans (State.regN_setRegN_other _ _ _ _ _ _ (State.regKey_ne ho (by decide) (.inr h3)))
    unfold State.regPair
    rw [h _ (by decide) (by decide) (by decide) (by decide), h _ (by decide) (by decide) (by decide) (by decide)]
  have hstatus : s3.regN d Reg.flStatus = 1 + 2 * rate + 8 :=
    (hother _ (by decide) (by decide) (by decide)).trans ((State.regN_setRegN_same s d _ _).trans (Nat.mod_eq_of_lt (by omega)))
  refine ⟨if hbmSize * d ≤ s3.regPair d Reg.flQbaseLo && s3.regPair d Reg.flQbaseLo + 2 ^ 22 ≤ hbmSize * (d + 1)
    then s3.wipe (s3.regPair d Reg.flQbaseLo) (2 ^ 22) else s3, (onDie_eq hd).trans (congrArg _ ?_), ?_⟩
  · rw [if_neg (by simp [hon, hfree, hunit, hdie]; omega), if_pos (by simp [hlbas, hmax, hgrant])]
    rfl
  · split
    · exact ⟨hstatus, rfl, fun x hx => wipe_byte s3 (hbase ▸ hx)⟩
    · exact ⟨hstatus, rfl, fun _ _ => rfl⟩

/-! ## A re-fetch that succeeds -/

/-- The registers of volumes and drives. -/
theorem volume_congr {s t : State} (hp : t.part = s.part) (hreg : ∀ d o, o < 2 ^ 24 → o ≠ Reg.rasStatus → t.reg d o = s.reg d o) (d : Nat) :
    t.volReady d = s.volReady d ∧ t.volUnits d = s.volUnits d ∧ ∀ v, t.unitAt d v = s.unitAt d v := by
  have hreg' : ∀ d o, o < 2 ^ 24 → o ≠ Reg.rasStatus → t.regN d o = s.regN d o := fun d o h1 h2 => congrArg BitVec.toNat (hreg d o h1 h2)
  have hports : t.volPorts d = s.volPorts d := congrArg (fun n => bitsOf (fld n 0 8) 8) (hreg' d Reg.flVol (by decide) (by decide))
  have hstripe : t.volStripe d = s.volStripe d := congrArg (fun n => 2 ^ fld n 8 4) (hreg' d Reg.flVol (by decide) (by decide))
  have hbit : ∀ p, t.rbit p Reg.flStatus 3 = s.rbit p Reg.flStatus 3 := fun p => congrArg (bit · 3) (hreg' p Reg.flStatus (by decide) (by decide))
  have hlbas : ∀ p, t.regPair p Reg.flDrvLbasLo = s.regPair p Reg.flDrvLbasLo := fun p => by
    unfold State.regPair
    rw [hreg' p _ (by decide) (by decide), hreg' p _ (by decide) (by decide)]
  refine ⟨?_, ?_, fun v => ?_⟩
  · unfold State.volReady
    simp only [hports, hp, hbit, hreg _ Reg.flVol (by decide) (by decide)]
  · unfold State.volUnits
    simp only [hports, hstripe, hlbas]
  · unfold State.unitAt
    simp only [hports, hstripe]

/-- The state of a re-fetch that is over: its block is no longer queued, and its die no longer says so. -/
def State.refetchTaken (s : State) (d : Nat) (b : Refetch) : State := { s with refetch := s.refetch.erase b }.setRbit d Reg.rasStatus 2 false

theorem refetchTaken_volume (s : State) (d : Nat) (b : Refetch) : (s.refetchTaken d b).volReady d = s.volReady d ∧
    (s.refetchTaken d b).volUnits d = s.volUnits d ∧ ∀ v, (s.refetchTaken d b).unitAt d v = s.unitAt d v :=
  volume_congr (s := s) (t := s.refetchTaken d b) rfl (fun _ _ ho hne => State.reg_setReg_other _ _ _ _ _ _ (State.regKey_ne ho (by decide) (.inr hne))) d

theorem refetchEnd_stores {s : State} {d : Nat} {b : Refetch} (hfind : s.refetch.find? (fun b => b.d == d) = some b) (hready : s.volReady d = true)
    (hunit : b.unit < s.volUnits d) : ∃ v : State, s.refetchEnd d true = v.access true b.addr b.len ∧ v.refetch = s.refetch.erase b ∧ v.whl = s.whl ∧
      v.mem = (s.write b.addr ((s.flashBytes (s.unitAt d b.unit).1 (s.unitAt d b.unit).2 4096).take b.len)).mem ∧ v.wiped = s.wiped := by
  obtain ⟨hr, hu, hat⟩ := refetchTaken_volume s d b
  let bs := (s.flashBytes (s.unitAt d b.unit).1 (s.unitAt d b.unit).2 4096).take b.len
  let v := (s.refetchTaken d b).write b.addr bs
  have hfields : v = { s.refetchTaken d b with mem := v.mem, poison := v.poison } := OnlyMem.write _ _ _
  refine ⟨((v.bump d (Reg.flCntLo 5) 1).bump (s.unitAt d b.unit).1 (Reg.flCntLo 0) 1).bump (s.unitAt d b.unit).1 (Reg.flCntLo 2) 1, ?_,
    (congrArg State.refetch hfields :), (congrArg State.whl hfields :), ?_, (congrArg State.wiped hfields :)⟩
  · unfold State.refetchEnd
    rw [hfind]
    dsimp only
    rw [show (({ s with refetch := s.refetch.erase b } : State).setRbit d Reg.rasStatus 2 false).unitAt d b.unit = s.unitAt d b.unit from hat b.unit]
    exact if_pos (by
      rw [show (({ s with refetch := s.refetch.erase b } : State).setRbit d Reg.rasStatus 2 false).volReady d = true from hr.trans hready,
        show (({ s with refetch := s.refetch.erase b } : State).setRbit d Reg.rasStatus 2 false).volUnits d = s.volUnits d from hu]
      simpa using hunit)
  · exact (State.write_mem (s.refetchTaken d b) b.addr bs false).trans (State.write_mem s b.addr bs false).symm

theorem pumpDie_none {s : State} (h : s.whl.colls = []) (d : Nat) : s.pumpDie d = s := by
  unfold State.pumpDie
  rw [h]
  rfl

theorem refetchComplete_does {s : State} {d : Nat} {b : Refetch} (hd : DieUp s d) (hwf : s.memWf = true)
    (hfind : s.refetch.find? (fun b => b.d == d) = some b) (hready : s.volReady d = true) (hunit : b.unit < s.volUnits d) :
    Does (.refetchComplete d true) s fun t => t.refetch = s.refetch.erase b ∧
      (s.whl.colls = [] → Wrote s t b.addr ((s.flashBytes (s.unitAt d b.unit).1 (s.unitAt d b.unit).2 4096).take b.len)) := by
  obtain ⟨v, hend, hrefetch, hwhl, hmem, hwiped⟩ := refetchEnd_stores hfind hready hunit
  obtain ⟨c, n, hacc⟩ := State.access_state v true b.addr b.len
  refine ⟨_, onDie_eq hd, ?_, fun hnone => ?_⟩
  · refine (Pumped.foldl (f := State.pumpDie) (fun t d => .pumpDie t d) _ _).refetch.trans ?_
    rw [hend, hacc]
    exact hrefetch
  · have hcolls : (s.refetchEnd d true).whl.colls = [] := by
      rw [hend, hacc]
      exact (congrArg Whl.colls hwhl).trans hnone
    have hsame : (List.range s.part.dies).foldl State.pumpDie (s.refetchEnd d true) = s.refetchEnd d true :=
      foldl_keeps (P := fun t : State => t = s.refetchEnd d true) (fun t e h => by rw [h]; exact pumpDie_none hcolls e) _ rfl
    rw [hsame, hend, hacc]
    exact (wrote_write hwf b.addr _).of_mem rfl rfl hmem (hwiped.trans (State.write_wiped s b.addr _ false).symm)

/-! ## Measurements -/

theorem setAlert_does (s : State) : (s.setAlert 5 true).rbit 0 Reg.grdStatus 5 = true ∧ (s.setAlert 5 true).measLog = s.measLog ∧
    (s.setAlert 5 true).measuring = s.measuring ∧ (s.setAlert 5 true).mem = s.mem ∧ (s.setAlert 5 true).wiped = s.wiped ∧
    (s.setAlert 5 true).regN 0 Reg.grdMeasCount = s.regN 0 Reg.grdMeasCount := by
  have hbit := State.rbit_setRbit_same s 0 Reg.grdStatus 5 true (by decide)
  have hcount : (s.setRbit 0 Reg.grdStatus 5 true).regN 0 Reg.grdMeasCount = s.regN 0 Reg.grdMeasCount :=
    State.regN_setRegN_other _ _ _ _ _ _ (by decide)
  unfold State.setAlert
  dsimp only
  split
  · exact ⟨hbit, rfl, rfl, rfl, rfl, hcount⟩
  · exact ⟨hbit, rfl, rfl, rfl, rfl, hcount⟩

theorem measAppend_does (s : State) (entry : List Byte) : (s.measAppend entry).measLog.value = sha384 (s.measLog.value ++ entry) ∧
    (s.measLog.entries.length < 8192 → (s.measAppend entry).measLog.entries = s.measLog.entries ++ [entry]) ∧
    (8192 ≤ s.measLog.entries.length → (s.measAppend entry).measLog.entries = s.measLog.entries ∧ (s.measAppend entry).rbit 0 Reg.grdStatus 5 = true) ∧
    (s.measAppend entry).regN 0 Reg.grdMeasCount = (s.regN 0 Reg.grdMeasCount + 1) % 2 ^ 32 ∧ (s.measAppend entry).measuring = s.measuring ∧
    SameMem s (s.measAppend entry) := by
  by_cases hfull : 8192 ≤ s.measLog.entries.length
  · let l : MeasLog := { s.measLog with entries := s.measLog.entries, value := sha384 (s.measLog.value ++ entry) }
    let u := ({ s with measLog := l } : State).setRegN 0 Reg.grdMeasCount (s.regN 0 Reg.grdMeasCount + 1)
    have heq : s.measAppend entry = u.setAlert 5 true := by
      unfold State.measAppend
      dsimp only
      rw [if_pos (by simpa using hfull), if_pos (by simpa using hfull)]
      rfl
    obtain ⟨hbit, hlog, hmeas, hmem, hwiped, hcount⟩ := setAlert_does u
    rw [heq]
    exact ⟨(congrArg MeasLog.value hlog :), fun h => absurd h (by omega), fun _ => ⟨(congrArg MeasLog.entries hlog :), hbit⟩,
      hcount.trans (State.regN_setRegN_same _ _ _ _), hmeas, .of_eq hmem hwiped⟩
  · let l : MeasLog := { s.measLog with entries := s.measLog.entries ++ [entry], value := sha384 (s.measLog.value ++ entry) }
    have heq : s.measAppend entry = ({ s with measLog := l } : State).setRegN 0 Reg.grdMeasCount (s.regN 0 Reg.grdMeasCount + 1) := by
      unfold State.measAppend
      dsimp only
      rw [if_neg (by simpa using hfull), if_neg (by simpa using hfull)]
      rfl
    rw [heq]
    exact ⟨rfl, fun _ => rfl, fun h => absurd h hfull, State.regN_setRegN_same _ _ _ _, rfl, .of_eq rfl rfl⟩

theorem measureObject_exec {s : State} {obj : Nat} {m : Meas} (ht : s.tripped = false) (hfind : s.measuring.find? (fun m => m.obj == obj) = some m) :
    exec (.measureObject obj) s = .next (({ s with measuring := s.measuring.erase m } : State).measAppend
      (measEntry 2 m.part m.d obj m.len (sha384 (if m.flash then s.volBytes m.d m.addr m.len else s.bytes m.addr m.len)))) := by
  refine (live_eq ht).trans (congrArg _ ?_)
  rw [hfind]

/-! ## A scan of manifests -/

theorem manifestScan_does {s : State} (ht : s.tripped = false) (hready : s.volReady 0 = true) (ha : manifestOk (s.volUnit 0 (s.manSlot 0)) = true)
    (hb : manifestOk (s.volUnit 0 (s.manSlot 1)) = true) : Does .manifestScan s fun t => t.regN 0 Reg.cmtManStatus =
        7 + (if leAt (s.volUnit 0 (s.manSlot 0)) 8 8 < leAt (s.volUnit 0 (s.manSlot 1)) 8 8 then 8 else 0) ∧ SameMem s t := by
  let sa := leAt (s.volUnit 0 (s.manSlot 0)) 8 8
  let sb := leAt (s.volUnit 0 (s.manSlot 1)) 8 8
  let v := 1 + 2 * b2n true + 4 * b2n true + 8 * b2n (true && (!true || decide (sa < sb)))
  have hv : v = 7 + (if sa < sb then 8 else 0) := by
    by_cases h : sa < sb
    · simp [v, h, b2n]
    · simp [v, h, b2n]
  let s1 := s.setRegN 0 Reg.cmtManStatus v
  have hscan : ∃ q, s.manScan = s1.setRegPair 0 Reg.cmtManSeqLo q := by
    unfold State.manScan
    rw [if_neg (by simp [hready])]
    dsimp only
    rw [ha, hb]
    exact ⟨_, rfl⟩
  obtain ⟨q, hq⟩ := hscan
  refine ⟨s1.setRegPair 0 Reg.cmtManSeqLo q, (live_eq ht).trans (congrArg _ hq), ?_, .of_eq rfl rfl⟩
  refine (State.regN_setRegN_other _ _ _ _ _ _ (by decide)).trans ((State.regN_setRegN_other _ _ _ _ _ _ (by decide)).trans
    ((State.regN_setRegN_same s 0 _ v).trans ((Nat.mod_eq_of_lt ?_).trans hv)))
  rw [hv]
  split <;> decide

end Sys2Proof.Machine

open Sys2Proof Sys2Proof.Machine

/-- Settles O19: an entry is issued with its descriptor, a drive's queues are set, a clean copy is written, the log grows, and the newer manifest counts. -/
theorem volumeEvents : Obligations.VolumeEvents := by
  unfold Obligations.VolumeEvents
  refine ⟨?_, fun s d lbas rate granted mqes mdts hd hon hfree hunit hdie hlo hhi hlbas hmax hgrant =>
      driveEnumerate_does hd hon hfree hunit hdie hlo hhi hlbas hmax hgrant,
    fun s d b hd hwf hfind hready hunit => refetchComplete_does hd hwf hfind hready hunit, ?_,
    fun s ht hready ha hb => manifestScan_does ht hready ha hb⟩
  · intro s id l w ht hlist hwork hmore hfly hlayer e a b hcode hclear
    obtain ⟨t, hexec, h⟩ := prefetchEntryIssue_does ht hlist hwork hmore hfly hlayer rfl rfl hcode hclear
    have hid : w.id = id := by simpa using List.find?_some hwork
    exact ⟨t, hexec, hid ▸ h.work, h.lists, h.ctr⟩
  · intro s obj m ht hfind entry
    exact ⟨_, measureObject_exec ht hfind, measAppend_does { s with measuring := s.measuring.erase m } entry⟩

end

section
/-! PROOF. Flash transfers: what starts, and what the end, the failure and the timeout of a piece leave. -/

namespace Sys2Proof.Machine

/-! ## The latched state -/

/-- The state on which the body of a descriptor runs: accesses counted and the descriptor latched. -/
theorem latched_frame (s : State) (w : Work) (rs : List Rng) : ∃ c n o q,
    ((s.touched w rs).latch w).1 = { s with ctrs := c, freeCtr := n, out := o, seq := { s.seq with works := q } } := by
  obtain ⟨c, n, o, ht⟩ := touched_state s w rs
  obtain ⟨q, m, hl⟩ := latch_state (s.touched w rs) w
  refine ⟨c, m, o, q, hl.trans ?_⟩
  rw [ht]

/-! ## A transfer that starts -/

theorem cutPieces_congr {s t : State} (hr : t.regs = s.regs) (hp : t.part = s.part) (hd : t.drives = s.drives) (d fuel v n off len : Nat) :
    t.cutPieces d fuel v n off len = s.cutPieces d fuel v n off len := by
  have hports : t.volPorts d = s.volPorts d := congrArg (fun n => bitsOf (fld n 0 8) 8) (State.regN_congr hr hp d Reg.flVol)
  have hstripe : t.volStripe d = s.volStripe d := congrArg (fun n => 2 ^ fld n 8 4) (State.regN_congr hr hp d Reg.flVol)
  have hunit : ∀ v, t.unitAt d v = s.unitAt d v := fun v => by
    unfold State.unitAt
    rw [hports, hstripe]
  have hmdts : ∀ p, t.mdts p = s.mdts p := fun p => by
    unfold State.mdts
    rw [hd]
  induction fuel generalizing v n off len with
  | zero => rfl
  | succ fuel ih =>
    unfold State.cutPieces
    simp only [hstripe, hunit, hmdts, ih]

/-- Leaving what two transfers clash on undefined changes no register. -/
theorem clash_regs (s : State) (y : Xfer) (hits : List (Nat × Nat)) : (s.clash y hits).regs = s.regs ∧ (s.clash y hits).part = s.part := by
  let P : State → Prop := fun t => t.regs = s.regs ∧ t.part = s.part
  have hscramble : ∀ (t : State) (a len : Nat), P t → P (t.scramble a len) := fun t a len h =>
    ⟨(OnlyMem.write t.fresh.2 a _).regs.trans h.1, (OnlyMem.write t.fresh.2 a _).part.trans h.2⟩
  have hblur : ∀ l : List Nat, P (l.foldl (fun s v => s.blurUnit (s.unitAt y.d v).1 (s.unitAt y.d v).2) s) := fun l =>
    foldl_keeps (f := fun (s : State) v => s.blurUnit (s.unitAt y.d v).1 (s.unitAt y.d v).2) (P := P) (fun t v h => h) l ⟨rfl, rfl⟩
  have hmoved : ∀ (t : State) (p : Piece), P t → P (t.blurMoved y hits p) := fun t p h => by
    unfold State.blurMoved
    split
    · exact h
    · exact foldl_keeps (P := P) (fun u r hu => hscramble u _ _ hu) _ h
  exact foldl_keeps (f := fun (s : State) p => s.blurMoved y hits p) (P := P) hmoved _ (hblur _)

/-- With nothing shared nothing is left undefined. -/
theorem clash_nil (s : State) (y : Xfer) : s.clash y [] = s :=
  foldl_keeps (f := fun (s : State) p => s.blurMoved y [] p) (P := fun t : State => t = s) (fun t p h => by
    unfold State.blurMoved
    split
    · exact h
    · exact h) y.pieces rfl

/-- The units that two transfers share, where one of them writes. -/
def xferHits (a b : Xfer) : List (Nat × Nat) := if fopWrites a.fop || fopWrites b.fop then overlap a.vlba a.units b.vlba b.units else []

theorem startXfer_eq (s : State) (x : Xfer) : s.startXfer x =
    let t := (x.pieces.foldl (fun s p => s.bump p.port (Reg.flCntLo 2) 1) s)
    let u := t.xfers.foldl (fun s y => s.clash y (xferHits x y)) t
    { u with xfers := u.xfers.map (fun y => { y with clash := y.clash ++ xferHits x y }) ++ [{ x with clash := u.xfers.flatMap fun y => xferHits x y }] } := rfl

theorem pieceBumps_frame (s : State) (l : List Piece) : ∃ c, l.foldl (fun s p => s.bump p.port (Reg.flCntLo 2) 1) s = { s with ctrs := c } :=
  foldl_keeps (f := fun (s : State) (p : Piece) => s.bump p.port (Reg.flCntLo 2) 1) (P := fun t : State => ∃ c, t = { s with ctrs := c })
    (fun t p h => by
      obtain ⟨c, hc⟩ := h
      rw [hc]
      exact ⟨_, rfl⟩) l ⟨s.ctrs, rfl⟩

theorem startXfer_does (s : State) (x : Xfer) : (∃ c, { x with clash := c } ∈ (s.startXfer x).xfers) ∧ (s.startXfer x).regs = s.regs ∧
    (s.startXfer x).part = s.part ∧ ((∀ y ∈ s.xfers, xferHits x y = []) → (s.startXfer x).mem = s.mem ∧ (s.startXfer x).wiped = s.wiped) := by
  rw [startXfer_eq]
  obtain ⟨c, hc⟩ := pieceBumps_frame s x.pieces
  rw [hc]
  dsimp only
  have hregs : ∀ (l : List Xfer) (t : State), (l.foldl (fun s y => s.clash y (xferHits x y)) t).regs = t.regs ∧
      (l.foldl (fun s y => s.clash y (xferHits x y)) t).part = t.part := fun l t =>
    foldl_keeps (f := fun (s : State) y => s.clash y (xferHits x y)) (P := fun u : State => u.regs = t.regs ∧ u.part = t.part)
      (fun u y h => ⟨(clash_regs u y _).1.trans h.1, (clash_regs u y _).2.trans h.2⟩) l ⟨rfl, rfl⟩
  refine ⟨⟨_, List.mem_append_right _ (List.mem_singleton.mpr rfl)⟩, (hregs _ _).1, (hregs _ _).2, fun hnone => ?_⟩
  have hsame : ∀ (l : List Xfer), (∀ y ∈ l, xferHits x y = []) → ∀ t : State, l.foldl (fun s y => s.clash y (xferHits x y)) t = t := by
    intro l
    induction l with
    | nil => exact fun _ _ => rfl
    | cons y l ih =>
      intro hl t
      rw [List.foldl_cons, hl y List.mem_cons_self, clash_nil]
      exact ih (fun z hz => hl z (List.mem_cons_of_mem _ hz)) t
  rw [hsame _ hnone]
  exact ⟨rfl, rfl⟩

theorem overlap_empty (a b m : Nat) : overlap a 0 b m = [] := by
  unfold overlap
  dsimp only
  rw [if_neg]
  have h1 := Nat.le_max_left a b
  have h2 := Nat.min_le_left (a + 0) (b + m)
  have h3 : Nat.max a b = max a b := rfl
  have h4 : Nat.min (a + 0) (b + m) = min (a + 0) (b + m) := rfl
  omega

/-- The transfer of a FLASH descriptor, without what it clashes with. -/
def Work.flXfer (s : State) (w : Work) : Xfer :=
  ⟨w.id, w.die, w.fop, w.flVlba, if w.fop = 4 then 0 else unitsOf w.flLen, w.flAddr, w.bit 8 3, [], [],
    if w.fop = 4 then (s.volPorts w.die).map fun p => (⟨p, 0, 0, 0, 0, 0, 0⟩ : Piece) else s.cutPieces w.die (unitsOf w.flLen) w.flVlba (unitsOf w.flLen) 0 w.flLen⟩

theorem flashBody_eq (s : State) (w : Work) : s.flashBody w = (s.stageIf w w.flObj).startXfer (w.flXfer (s.stageIf w w.flObj)) := rfl

theorem stageIf_onlyMem (s : State) (w : Work) (obj : Nat) : OnlyMem s (s.stageIf w obj) := .ite (.write s _ _) (.refl s)

/-- What a FLASH descriptor that starts leaves. -/
structure FlashStarted (s t : State) (id : Nat) (w : Work) : Prop where
  xfer : ∃ x ∈ t.xfers, x.id = id ∧ x.fop = w.fop ∧ x.vlba = w.flVlba ∧ x.addr = w.flAddr ∧ x.fua = w.bit 8 3 ∧
    (w.fop ≠ 4 → x.pieces = s.cutPieces w.die (unitsOf w.flLen) w.flVlba (unitsOf w.flLen) 0 w.flLen)
  mem : w.grp = false → (∀ y ∈ s.xfers, overlap w.flVlba (unitsOf w.flLen) y.vlba y.units = []) → SameMem s t
  regs : RegsBut s t [regKey w.on (Reg.seqPartStatus w.part)]

theorem flashBody_does {s v : State} {w x : Work} (hv : ∃ c n o q, v = { s with ctrs := c, freeCtr := n, out := o, seq := { s.seq with works := q } })
    (hx : ∃ f m k b, x = { w with started := true, ftz := f, det := m, srKey := k, drawn := b }) :
    (∃ y ∈ (v.flashBody x).xfers, y.id = w.id ∧ y.fop = w.fop ∧ y.vlba = w.flVlba ∧ y.addr = w.flAddr ∧ y.fua = w.bit 8 3 ∧
      (w.fop ≠ 4 → y.pieces = s.cutPieces w.die (unitsOf w.flLen) w.flVlba (unitsOf w.flLen) 0 w.flLen)) ∧
    (w.grp = false → (∀ y ∈ s.xfers, overlap w.flVlba (unitsOf w.flLen) y.vlba y.units = []) →
      (v.flashBody x).mem = s.mem ∧ (v.flashBody x).wiped = s.wiped) ∧ (v.flashBody x).regs = s.regs ∧ (v.flashBody x).part = s.part := by
  obtain ⟨c, n, o, q, rfl⟩ := hv
  obtain ⟨f, m, k, b, rfl⟩ := hx
  rw [flashBody_eq]
  generalize ({ w with started := true, ftz := f, det := m, srKey := k, drawn := b } : Work).flObj = obj
  let v : State := { s with ctrs := c, freeCtr := n, out := o, seq := { s.seq with works := q } }
  let x : Work := { w with started := true, ftz := f, det := m, srKey := k, drawn := b }
  have hu := stageIf_onlyMem v x obj
  have hdrives : (v.stageIf x obj).drives = s.drives := by rw [hu]
  have hxfers : (v.stageIf x obj).xfers = s.xfers := by rw [hu]
  obtain ⟨⟨cl, hmem⟩, hregs, hpart, hsame⟩ := startXfer_does (v.stageIf x obj) (x.flXfer (v.stageIf x obj))
  refine ⟨⟨_, hmem, rfl, rfl, rfl, rfl, rfl, fun h4 => ?_⟩, fun hgrp hnone => ?_, hregs.trans hu.regs, hpart.trans hu.part⟩
  · exact (if_neg h4).trans (cutPieces_congr (s := s) hu.regs hu.part hdrives _ _ _ _ _ _)
  · have hstage : v.stageIf x obj = v := if_neg (by rw [show x.grp = false from hgrp]; decide)
    obtain ⟨hm, hw⟩ := hsame fun y hy => by
      have hover : overlap w.flVlba (if w.fop = 4 then 0 else unitsOf w.flLen) y.vlba y.units = [] := by
        split
        · exact overlap_empty _ _ _
        · exact hnone y (hxfers ▸ hy)
      unfold xferHits
      split
      · exact hover
      · rfl
    exact ⟨hm.trans (congrArg State.mem hstage :), hw.trans (congrArg State.wiped hstage :)⟩

theorem flash_starts {c : Instr} {op : Nat → Bool} {s : State} {id : Nat} {w : Work} (hexec : exec c s = s.flash1 id op)
    (h : Starts s id (isFlash op) w (flashRanges s w) (flashCodes s w)) : Does c s fun t => FlashStarted s t id w := by
  have hid : w.id = id := by simpa using List.find?_some h.work
  let rs := flashRanges s w
  let v := ((s.touched w rs).latch w).1
  let x := ((s.touched w rs).latch w).2
  obtain ⟨hx, hmem, hregs, hpart⟩ := flashBody_does (s := s) (w := w) (latched_frame s w rs) (latch_work_fields (s.touched w rs) w)
  have hbegin := begin_starts flashRanges flashCodes State.flashBody h
  refine ⟨_, hexec.trans ((live_eq h.up).trans (congrArg _ hbegin)), ?_⟩
  generalize hb : ((s.touched w (flashRanges s w)).latch w).1.flashBody ((s.touched w (flashRanges s w)).latch w).2 = u
  have hb' : State.flashBody ((s.touched w rs).latch w).1 ((s.touched w rs).latch w).2 = u := hb
  rw [hb'] at hx hmem hregs hpart
  obtain ⟨hst, ou, hrel⟩ := released_state s (flashRanges s w) u
  obtain ⟨r, q, hidle⟩ := leaveIdle_state (s.released (flashRanges s w) u) w.on w.part
  refine ⟨?_, fun hgrp hnone => ?_, ?_⟩
  · rw [hidle, hrel]
    exact hid ▸ hx
  · obtain ⟨hm, hw⟩ := hmem hgrp hnone
    refine .of_eq ?_ ?_
    · rw [hidle, hrel]
      exact hm
    · rw [hidle, hrel]
      exact hw
  · refine RegsBut.trans ?_ (leaveIdle_regsBut _ w.on w.part)
    rw [hrel]
    exact RegsBut.of_eq hregs hpart

/-! ## A piece that the drive completes -/

/-- Accesses that a drive tried elsewhere are noted. -/
theorem strays_frame (s : State) (port : Nat) (l : List Nat) : ∃ r o, l.foldl (fun s a => s.stray port a) s = { s with ras := r, out := o } := by
  refine foldl_keeps (f := fun (s : State) a => s.stray port a) (P := fun t : State => ∃ r o, t = { s with ras := r, out := o }) (fun t a h => ?_) l ⟨s.ras, s.out, rfl⟩
  obtain ⟨r, o, rfl⟩ := h
  unfold State.stray
  split
  · exact ⟨r, o, rfl⟩
  · exact ⟨_, _, rfl⟩

theorem settleXfer_frame (s : State) (id : Nat) : (s.settleXfer id).mem = s.mem ∧ (s.settleXfer id).wiped = s.wiped ∧ (s.settleXfer id).regs = s.regs ∧
    (s.settleXfer id).ctrs = s.ctrs := by
  unfold State.settleXfer
  split
  · split
    · exact ⟨rfl, rfl, rfl, rfl⟩
    · exact ⟨rfl, rfl, rfl, rfl⟩
  · exact ⟨rfl, rfl, rfl, rfl⟩

theorem setDirty_frame (s : State) (port lba units : Nat) (on : Bool) : ∃ l, s.setDirty port lba units on = { s with dirty := l } :=
  foldl_keeps (P := fun t : State => ∃ l, t = { s with dirty := l }) (fun t i h => by
    obtain ⟨l, rfl⟩ := h
    exact ⟨_, rfl⟩) _ ⟨s.dirty, rfl⟩

/-- A piece of another operation than READ leaves memory as it is. -/
theorem pieceDone_mem {s : State} {x : Xfer} (p : Piece) (h : x.fop ≠ 0) : (s.pieceDone x p).mem = s.mem ∧ (s.pieceDone x p).wiped = s.wiped := by
  have hdirty : ∀ (t : State) port lba units on, (t.setDirty port lba units on).mem = t.mem ∧ (t.setDirty port lba units on).wiped = t.wiped :=
    fun t port lba units on => by
      obtain ⟨l, hl⟩ := setDirty_frame t port lba units on
      rw [hl]
      exact ⟨rfl, rfl⟩
  unfold State.pieceDone
  dsimp only
  split
  · rename_i h0
    exact absurd h0 h
  · exact hdirty _ _ _ _ _
  · exact hdirty _ _ _ _ _
  · exact hdirty _ _ _ _ _
  · exact ⟨rfl, rfl⟩

/-- A piece of a READ that clashes with nothing stores the drive's bytes. -/
theorem pieceDone_reads {s : State} {x : Xfer} (p : Piece) (h : x.fop = 0) (hclash : x.clash = []) : s.pieceDone x p =
    (s.fresh.2.write (x.addr + p.off) ((s.flashBytes p.port p.lba (4096 * p.units)).take p.bytes)).bump p.port (Reg.flCntLo 0) p.units := by
  have hblur : ∀ t bs, x.blur p t bs = bs := fun t bs => if_pos (by simp [hclash])
  unfold State.pieceDone
  rw [h]
  dsimp only
  rw [hblur]
  rfl

section
variable {s : State} {id piece status : Nat} {strays : List Nat} {x : Xfer} {p : Piece}

theorem flashPieceComplete_exec (ht : s.tripped = false) (hlive : s.livePiece id piece = some (x, p)) : exec (.flashPieceComplete id piece ⟨status, strays⟩) s =
    .next (if s.pieceWaits x p then s else
      let s := strays.foldl (fun s a => s.stray p.port a) s
      if p.st = 0 && fld status 1 11 = 0 then ((s.pieceDone x p).setPiece id piece 2).settleXfer id
      else (s.bump p.port (Reg.flCntLo 3) 1).failPiece x piece p (status % 65536)) := by
  refine (live_eq ht).trans (congrArg _ ?_)
  rw [hlive]

theorem livePiece_id (hlive : s.livePiece id piece = some (x, p)) : s.xfer id = some x ∧ x.id = id ∧ x.pieces[piece]? = some p ∧ p.over = false := by
  unfold State.livePiece at hlive
  split at hlive
  · rename_i y hy
    split at hlive
    · rename_i q hq
      split at hlive
      · cases hlive
      · rename_i hover
        cases hlive
        exact ⟨hy, by simpa using List.find?_some hy, hq, by simpa using hover⟩
    · cases hlive
  · cases hlive

theorem flashPieceComplete_does (ht : s.tripped = false) (hlive : s.livePiece id piece = some (x, p)) (hwait : s.pieceWaits x p = false) (hst : p.st = 0)
    (hok : fld status 1 11 = 0) : Does (.flashPieceComplete id piece ⟨status, strays⟩) s fun t =>
      t = (((strays.foldl (fun s a => s.stray p.port a) s).pieceDone x p).setPiece id piece 2).settleXfer id ∧
      (s.memWf = true → x.fop = 0 → x.clash = [] → Wrote s t (x.addr + p.off) ((s.flashBytes p.port p.lba (4096 * p.units)).take p.bytes)) ∧
      (x.fop ≠ 0 → SameMem s t) := by
  have hexec := (flashPieceComplete_exec (status := status) (strays := strays) ht hlive).trans
    (congrArg _ ((if_neg (by simp [hwait])).trans (if_pos (by simp [hst, hok]))))
  refine ⟨_, hexec, rfl, ?_⟩
  obtain ⟨r, o, hu⟩ := strays_frame s p.port strays
  rw [hu]
  let u : State := { s with ras := r, out := o }
  obtain ⟨hm, hw, -, -⟩ := settleXfer_frame ((u.pieceDone x p).setPiece id piece 2) id
  refine ⟨fun hwf hfop hclash => ?_, fun hfop => ?_⟩
  · have hdone := pieceDone_reads (s := u) p hfop hclash
    refine (wrote_write (s := s) hwf (x.addr + p.off) ((s.flashBytes p.port p.lba (4096 * p.units)).take p.bytes)).of_mem rfl rfl ?_ ?_
    · refine (hm.trans (congrArg State.mem hdone :)).trans ?_
      exact (State.write_mem u.fresh.2 _ _ _).trans (State.write_mem s _ _ _).symm
    · refine (hw.trans (congrArg State.wiped hdone :)).trans ?_
      exact (State.write_wiped u.fresh.2 _ _ _).trans (State.write_wiped s _ _ _).symm
  · obtain ⟨hm1, hw1⟩ := pieceDone_mem (s := u) p hfop
    exact .of_eq (hm.trans hm1) (hw.trans hw1)

/-! ## Pieces that fail -/

/-- What a failed piece makes of its descriptor. -/
def failRec (p : Piece) (dword : Nat) (w : Work) : Work :=
  if w.res.status = 0 then { w with res := { w.res with status := 0x0D, detail0 := p.port + 65536 * dword } } else w

theorem failRec_id (p : Piece) (dword : Nat) (w : Work) : (failRec p dword w).id = w.id := by
  unfold failRec
  split <;> rfl

theorem failPiece_eq (s : State) (x : Xfer) (i : Nat) (p : Piece) (dword : Nat) :
    s.failPiece x i p dword = ((s.modWork x.id (failRec p dword)).setPiece x.id i 3).settleXfer x.id := rfl

theorem failPiece_frame (s : State) (x : Xfer) (i : Nat) (p : Piece) (dword : Nat) : (s.failPiece x i p dword).mem = s.mem ∧
    (s.failPiece x i p dword).wiped = s.wiped ∧ (s.failPiece x i p dword).regs = s.regs ∧ (s.failPiece x i p dword).ctrs = s.ctrs :=
  settleXfer_frame ((s.modWork x.id (failRec p dword)).setPiece x.id i 3) x.id

/-- A transfer that is settled leaves the results of descriptors. -/
theorem settleXfer_res {s : State} {id : Nat} {v : Work} (h : s.work id = some v) : ∃ u, (s.settleXfer id).work id = some u ∧ u.res = v.res := by
  unfold State.settleXfer
  split
  · split
    · exact ⟨_, (work_endWork { s with xfers := _ } id _).trans (congrArg (Option.map _) h), rfl⟩
    · exact ⟨v, h, rfl⟩
  · exact ⟨v, h, rfl⟩

theorem flashPieceComplete_fails {w : Work} (ht : s.tripped = false) (hlive : s.livePiece id piece = some (x, p)) (hwait : s.pieceWaits x p = false)
    (hbad : p.st ≠ 0 ∨ fld status 1 11 ≠ 0) (hwork : s.work id = some w) (hres : w.res.status = 0) :
    Does (.flashPieceComplete id piece ⟨status, strays⟩) s fun t =>
      (∃ v, t.work id = some v ∧ v.res.status = 0x0D ∧ v.res.detail0 = p.port + 65536 * (status % 65536)) ∧ SameMem s t ∧ t.regs = s.regs ∧
      t.ctr p.port (Reg.flCntLo 3) = Nat.min ctrMax (s.ctr p.port (Reg.flCntLo 3) + 1) := by
  obtain ⟨-, hid, -, -⟩ := livePiece_id hlive
  have hnot : ¬ ((decide (p.st = 0) && decide (fld status 1 11 = 0)) = true) := by
    rcases hbad with h | h
    · simp [h]
    · simp [h]
  have hexec := (flashPieceComplete_exec (status := status) (strays := strays) ht hlive).trans (congrArg _ ((if_neg (by simp [hwait])).trans (if_neg hnot)))
  refine ⟨_, hexec, ?_⟩
  obtain ⟨r, o, hu⟩ := strays_frame s p.port strays
  rw [hu]
  let u : State := ({ s with ras := r, out := o } : State).bump p.port (Reg.flCntLo 3) 1
  obtain ⟨hm, hw, hr, hc⟩ := failPiece_frame u x piece p (status % 65536)
  refine ⟨?_, .of_eq hm hw, hr, (State.ctr_congr (s := u) hc _ _).trans (State.ctr_bump_same _ _ _ _)⟩
  have hmod : (u.modWork id (failRec p (status % 65536))).work id = some (failRec p (status % 65536) w) :=
    (work_modWork u id _ (failRec_id p _)).trans (congrArg (Option.map _) hwork)
  obtain ⟨v, hv, hvres⟩ := settleXfer_res (s := (u.modWork id (failRec p (status % 65536))).setPiece id piece 3) hmod
  have hfail : (failRec p (status % 65536) w).res = { w.res with status := 0x0D, detail0 := p.port + 65536 * (status % 65536) } :=
    congrArg Work.res (if_pos hres)
  refine ⟨v, ?_, (congrArg Rec.status (hvres.trans hfail) :), (congrArg Rec.detail0 (hvres.trans hfail) :)⟩
  rw [failPiece_eq, hid]
  exact hv

/-! ## Timeouts -/

theorem xfer_setPiece {y : Xfer} (h : s.xfer id = some y) (i st : Nat) : ∃ z, (s.setPiece id i st).xfer id = some z ∧
    z.pieces = y.pieces.zipIdx.map fun q => if q.2 = i then { q.1 with st := st } else q.1 := by
  let f : Xfer → Xfer := fun x => { x with pieces := x.pieces.zipIdx.map fun y => if y.2 = i then { y.1 with st := st } else y.1 }
  have hid : (fun x : Xfer => x.id == id) ∘ (fun x => if x.id == id then f x else x) = fun x => x.id == id := by
    funext x
    by_cases hx : (x.id == id) = true
    · show ((if x.id == id then f x else x).id == id) = _
      rw [if_pos hx]
    · show ((if x.id == id then f x else x).id == id) = _
      rw [if_neg hx]
  have hy : y.id = id := by simpa using List.find?_some h
  refine ⟨f y, ?_, rfl⟩
  refine (List.find?_map ..).trans ?_
  rw [hid]
  refine (congrArg (Option.map _) h).trans ?_
  rw [Option.map_some, if_pos (by simpa using hy)]

theorem flashPieceTimeout_does (ht : s.tripped = false) (hlive : s.livePiece id piece = some (x, p)) (hst : p.st = 0) :
    Does (.flashPieceTimeout id piece) s fun t => ((t.xfer id).bind fun y => (y.pieces[piece]?).map fun q => q.st) = some 1 ∧
      t.ctr p.port (Reg.flCntLo 4) = Nat.min ctrMax (s.ctr p.port (Reg.flCntLo 4) + 1) ∧ SameMem s t ∧ t.regs = s.regs := by
  obtain ⟨hx, -, hp, -⟩ := livePiece_id hlive
  obtain ⟨z, hz, hpieces⟩ := xfer_setPiece hx piece 1
  have hexec : exec (.flashPieceTimeout id piece) s = .next ((s.setPiece id piece 1).bump p.port (Reg.flCntLo 4) 1) := by
    refine (live_eq ht).trans (congrArg _ ?_)
    rw [hlive]
    exact if_pos hst
  refine ⟨_, hexec, ?_, State.ctr_bump_same (s.setPiece id piece 1) _ _ _, .of_eq rfl rfl, rfl⟩
  have hget : (z.pieces[piece]?).map (fun q => q.st) = some 1 := by
    rw [hpieces]
    simp [List.getElem?_zipIdx, hp]
  exact (congrArg (fun o : Option Xfer => o.bind fun y => (y.pieces[piece]?).map fun q : Piece => q.st) hz).trans hget

end

theorem failPort_frame (s : State) (port : Nat) : (s.failPort port).mem = s.mem ∧ (s.failPort port).wiped = s.wiped ∧ (s.failPort port).regs = s.regs :=
  foldl_keeps (f := fun (s : State) (z : Xfer × Piece × Nat) => s.failPiece z.1 z.2.2 z.2.1 0)
    (P := fun t : State => t.mem = s.mem ∧ t.wiped = s.wiped ∧ t.regs = s.regs) (fun t z h => by
      obtain ⟨hm, hw, hr, -⟩ := failPiece_frame t z.1 z.2.2 z.2.1 0
      exact ⟨hm.trans h.1, hw.trans h.2.1, hr.trans h.2.2⟩) _ ⟨rfl, rfl, rfl⟩

theorem stray_notes {s : State} {a p : Nat} (h : s.driveSees p a = false) : (s.stray p a).ras.strays = s.ras.strays ++ [(p, a)] ∧
    (s.stray p a).out = s.out ++ [.driveUr p a] := by
  have heq : s.stray p a = ({ s with ras := { s.ras with strays := s.ras.strays ++ [(p, a)] } } : State).emit (.driveUr p a) := if_neg (by simp [h])
  rw [heq]
  exact ⟨rfl, rfl⟩

end Sys2Proof.Machine

open Sys2Proof Sys2Proof.Machine

/-- Settles O18: a descriptor opens its transfer, and a piece that ends, waits, fails or is aborted touches only what its operation says. -/
theorem flash : Obligations.Flash := by
  unfold Obligations.Flash
  refine ⟨fun c op s id w hc h => ?_, fun s id piece status strays x p ht hlive hwait hst hok => flashPieceComplete_does ht hlive hwait hst hok,
    fun s id piece status strays x p w ht hlive hwait hbad hwork hres => flashPieceComplete_fails ht hlive hwait hbad hwork hres,
    fun s id piece status strays x p ht hlive hwait => (flashPieceComplete_exec ht hlive).trans (congrArg _ (if_pos hwait)),
    fun s a p h => stray_notes h, fun s id piece x p ht hlive hst => flashPieceTimeout_does ht hlive hst, fun s d hd hany => ?_⟩
  · have hexec : exec c s = s.flash1 id op := by
      simp only [List.mem_cons, List.not_mem_nil, or_false, Prod.mk.injEq] at hc
      rcases hc with ⟨rfl, rfl⟩ | ⟨rfl, rfl⟩ | ⟨rfl, rfl⟩ | ⟨rfl, rfl⟩ | ⟨rfl, rfl⟩
      · rfl
      · rfl
      · rfl
      · rfl
      · rfl
    obtain ⟨t, he, hs⟩ := flash_starts hexec h
    exact ⟨t, he, hs.xfer, hs.mem, hs.regs⟩
  · obtain ⟨hm, hw, hr⟩ := failPort_frame s d
    exact ⟨_, (onDie_eq hd).trans (congrArg _ (if_pos hany)), rfl, .of_eq hm hw, hr⟩

end

section
/-! PROOF. The sequenced links of the wheel and of the commit logic: replay, acknowledgement timers and received acknowledgements. -/

namespace Sys2Proof.Machine

/-! ## What the links of a port leave alone -/

/-- `t` differs from `s` in ports and sequenced links only. -/
structure OnlyLinks (s t : State) : Prop where
  eq : t = { s with eths := t.eths, wires := t.wires }

namespace OnlyLinks

variable {s t u : State}

theorem refl (s : State) : OnlyLinks s s := ⟨rfl⟩

theorem trans (h : OnlyLinks s t) (g : OnlyLinks t u) : OnlyLinks s u := by
  obtain ⟨h⟩ := h
  obtain ⟨g⟩ := g
  refine ⟨g.trans ?_⟩
  rw [h]

theorem modEth (s : State) (d : Nat) (f : Eth → Eth) : OnlyLinks s (s.modEth d f) := by
  obtain ⟨l, e⟩ := modEth_state s d f
  rw [e]
  exact ⟨rfl⟩

theorem modWire (s : State) (d u : Nat) (f : Link → Link) : OnlyLinks s (s.modWire d u f) := by
  obtain ⟨l, e⟩ := modWire_state s d u f
  rw [e]
  exact ⟨rfl⟩

theorem sameMem (h : OnlyLinks s t) : SameMem s t := by
  obtain ⟨h⟩ := h
  rw [h]
  exact .of_eq rfl rfl

theorem regs (h : OnlyLinks s t) : t.regs = s.regs := by
  obtain ⟨h⟩ := h
  rw [h]

theorem whl (h : OnlyLinks s t) : t.whl = s.whl := by
  obtain ⟨h⟩ := h
  rw [h]

theorem part (h : OnlyLinks s t) : t.part = s.part := by
  obtain ⟨h⟩ := h
  rw [h]

theorem ctrs (h : OnlyLinks s t) : t.ctrs = s.ctrs := by
  obtain ⟨h⟩ := h
  rw [h]

theorem out (h : OnlyLinks s t) : t.out = s.out := by
  obtain ⟨h⟩ := h
  rw [h]

theorem rbit (h : OnlyLinks s t) (d o i : Nat) : t.rbit d o i = s.rbit d o i := congrArg (bit · i) (State.regN_congr h.regs h.part d o)

end OnlyLinks

theorem modEth_wire (s : State) (d e u : Nat) (f : Eth → Eth) : (s.modEth d f).wire e u = s.wire e u := by
  obtain ⟨l, h⟩ := modEth_state s d f
  rw [h]
  rfl

theorem modWire_eth (s : State) (d u e : Nat) (f : Link → Link) : (s.modWire d u f).eth e = s.eth e := by
  obtain ⟨l, h⟩ := modWire_state s d u f
  rw [h]
  rfl

theorem ethSetting_congr {s t : State} (hr : t.regs = s.regs) (hp : t.part = s.part) {d : Nat} (he : (t.eth d).eff = (s.eth d).eff) (i : Nat) :
    t.ethSetting d i = s.ethSetting d i := by
  have hreg : ∀ o, t.regN d o = s.regN d o := State.regN_congr hr hp d
  have hup : t.portUp d = s.portUp d := congrArg (bit · 0) (hreg _)
  unfold State.ethSetting
  simp only [hreg, hup, he]

theorem carries_congr {s t : State} (hr : t.regs = s.regs) (hp : t.part = s.part) {d : Nat} (he : (t.eth d).eff = (s.eth d).eff) (item : TxItem) :
    t.carries d item = s.carries d item := by
  unfold State.carries State.ethMaxfrm
  simp only [ethSetting_congr hr hp he]

theorem carries_modWire (s : State) (d u e : Nat) (f : Link → Link) (item : TxItem) : (s.modWire d u f).carries e item = s.carries e item :=
  carries_congr (OnlyLinks.modWire s d u f).regs (OnlyLinks.modWire s d u f).part (by rw [modWire_eth]) item

theorem takeRx_eff (s : State) (d c : Nat) : ((s.takeRx d c).eth d).eff = (s.eth d).eff := by
  unfold State.takeRx
  rw [eth_modEth]
  · split
    · rfl
    · rfl
  · intro e
    split
    · rfl
    · rfl

/-! ## Frames sent again -/

theorem linkResend_eq {s : State} {d u : Nat} (hx : s.ximelOn d = false) (hheld : (s.wire d u).held ≠ []) (hworn : (s.wire d u).worn = false) :
    s.linkResend d u = s.modWire d u Link.resend := by
  refine (if_neg ?_).trans (if_neg ?_)
  · simp [hx, hheld]
  · simp [hworn]

theorem linkResend_does {s : State} {d u : Nat} (hx : s.ximelOn d = false) (hheld : (s.wire d u).held ≠ []) (hworn : (s.wire d u).worn = false) :
    ((s.linkResend d u).wire d u).replay = (s.wire d u).held.map (fun h => h.seq) ∧ ((s.linkResend d u).wire d u).held = (s.wire d u).held ∧
    s.linkResend d u = { s with wires := (s.linkResend d u).wires } := by
  rw [linkResend_eq hx hheld hworn, wire_modWire s d u Link.resend fun l hd hu => ⟨hd, hu⟩]
  refine ⟨rfl, rfl, ?_⟩
  obtain ⟨l, h⟩ := modWire_state s d u Link.resend
  rw [h]

theorem linkResend_worn {s : State} {d u : Nat} (hx : s.ximelOn d = false) (hheld : (s.wire d u).held ≠ []) (hworn : (s.wire d u).worn = true) :
    s.linkResend d u = s.retrainPort d := (if_neg (by simp [hx, hheld])).trans (if_pos hworn)

theorem linkAckIn_does {s : State} {d u : Nat} (ack : Nat) (hx : s.ximelOn d = false) : (s.linkAckIn d u ack).wire d u = (s.wire d u).acked ack ∧
    OnlyLinks s (s.linkAckIn d u ack) := by
  have heq : s.linkAckIn d u ack = s.modWire d u fun l => l.acked ack := if_neg (by simp [hx])
  rw [heq]
  exact ⟨wire_modWire s d u _ fun l hd hu => ⟨hd, hu⟩, .modWire s d u _⟩

theorem linkNakIn_does {s : State} {d u ack : Nat} (hx : s.ximelOn d = false) (hheld : ((s.wire d u).acked ack).held ≠ [])
    (hworn : ((s.wire d u).acked ack).worn = false) :
    ((s.linkNakIn d u ack).wire d u).replay = ((s.wire d u).acked ack).held.map (fun h => h.seq) ∧ OnlyLinks s (s.linkNakIn d u ack) := by
  obtain ⟨hwire, honly⟩ := linkAckIn_does (u := u) ack hx
  have hx' : (s.linkAckIn d u ack).ximelOn d = false := (honly.rbit _ _ _).trans hx
  rw [← hwire] at hheld hworn
  obtain ⟨hreplay, -, -⟩ := linkResend_does hx' hheld hworn
  refine ⟨hreplay.trans (by rw [hwire]), honly.trans ?_⟩
  unfold State.linkNakIn
  rw [linkResend_eq hx' hheld hworn]
  exact .modWire _ d u _

/-! ## Acknowledgements and NAKs sent -/

/-- The acknowledgement or NAK frame of a sequenced link. -/
def State.ctlItem (s : State) (d u : Nat) (nak : Bool) : TxItem :=
  if u = 1 then .wheel (WheelFrame.bare (if nak then 5 else 4) 0 (s.wire d u).ack) else .commit (CommitFrame.bare (if nak then 8 else 7) 0 (s.wire d u).ack)

theorem linkCtl_does {s : State} {d u : Nat} {nak : Bool} (h : s.carries d (s.ctlItem d u nak) = true) : ((s.linkCtl d u nak).wire d u).owed = false ∧
    SameMem s (s.linkCtl d u nak) ∧ (s.linkCtl d u nak).regs = s.regs ∧
    ((s.linkCtl d u nak).eth d).txq = (s.eth d).txq ++ [⟨7, 0, false, none, s.ctlItem d u nak⟩] := by
  let v := s.modWire d u fun l => { l with owed := false }
  have heq : s.linkCtl d u nak = v.modEth d fun e => { e with txq := e.txq ++ [⟨7, 0, false, none, s.ctlItem d u nak⟩] } :=
    if_pos ((carries_modWire s d u d _ _).trans h)
  have honly : OnlyLinks s (s.linkCtl d u nak) := by
    rw [heq]
    exact (OnlyLinks.modWire s d u _).trans (.modEth v d _)
  refine ⟨?_, honly.sameMem, honly.regs, ?_⟩
  · rw [heq, modEth_wire]
    exact congrArg Link.owed (wire_modWire s d u (fun l => { l with owed := false }) fun l hd hu => ⟨hd, hu⟩)
  · rw [heq]
    refine (congrArg Eth.txq (eth_modEth v d (fun e => { e with txq := e.txq ++ [⟨7, 0, false, none, s.ctlItem d u nak⟩] }) fun _ => rfl)).trans ?_
    rw [modWire_eth]

theorem linkAckTimer_eq {s : State} {d u : Nat} (hx : s.ximelOn d = false) (h : (s.wire d u).owed = true) : s.linkAckTimer d u = s.linkCtl d u false :=
  if_pos (by simp [hx, h])

theorem linkNakTimer_eq {s : State} {d u : Nat} (hx : s.ximelOn d = false) (h : (s.wire d u).nakked = true) : s.linkNakTimer d u = s.linkCtl d u true :=
  if_pos (by simp [hx, h])

/-! ## Acknowledgements and NAKs received -/

theorem pumpDie_away {s : State} {d : Nat} (h : ∀ x ∈ s.whl.colls, x.d ≠ d) : s.pumpDie d = s := by
  unfold State.pumpDie
  rw [List.filter_eq_nil_iff.mpr fun x hx => by simpa using h x hx]
  rfl

section
variable {s : State} {d : Nat}

theorem wheelLink_runs {act : State → State} (hon : s.rbit d Reg.whlCtrl 0 = true) (hmax : 8256 ≤ s.ethMaxfrm d)
    (hnone : ∀ x ∈ s.whl.colls, x.d ≠ d) (hact : OnlyLinks (s.takeRx d 0x88B6) (act (s.takeRx d 0x88B6))) :
    s.wheelLink d act = act (s.takeRx d 0x88B6) := by
  have htake : OnlyLinks s (s.takeRx d 0x88B6) := .modEth s d _
  have hcarries : (s.takeRx d 0x88B6).carries d (.wheel (WheelFrame.bare 4 0 0)) = true :=
    (carries_congr htake.regs htake.part (takeRx_eff s d _) _).trans (decide_eq_true hmax)
  refine ((if_pos ((htake.rbit _ _ _).trans hon)).trans (if_pos hcarries)).trans (pumpDie_away fun x hx => hnone x ?_)
  rwa [hact.whl, htake.whl] at hx

theorem cmtLink_runs {c : Instr} {act : State → State} (hd : DieUp s d) (hon : s.rbit d Reg.cmtCtrl 0 = true)
    (hexec : exec c s = onDie s d (if (s.takeRx d 0x88B7).rbit d Reg.cmtCtrl 0 then act (s.takeRx d 0x88B7) else (s.takeRx d 0x88B7).cmtCount d 7 1)) :
    exec c s = .next (act (s.takeRx d 0x88B7)) :=
  (hexec.trans (onDie_eq hd)).trans (congrArg _ (if_pos (((OnlyLinks.modEth s d _).rbit _ _ _).trans hon)))

/-- The links after a frame has been taken from the pools are those before. -/
theorem takeRx_links (s : State) (d c : Nat) : OnlyLinks s (s.takeRx d c) ∧ ∀ u, (s.takeRx d c).wire d u = s.wire d u :=
  ⟨.modEth s d _, fun u => modEth_wire s d d u _⟩

theorem ackFrame_does (c u ack : Nat) (hx : s.ximelOn d = false) : (((s.takeRx d c).linkAckIn d u ack).wire d u).held =
      (s.wire d u).held.filter (fun h => !ackCovers ack h.seq) ∧
    OnlyLinks (s.takeRx d c) ((s.takeRx d c).linkAckIn d u ack) ∧ SameMem s ((s.takeRx d c).linkAckIn d u ack) ∧
    ((s.takeRx d c).linkAckIn d u ack).regs = s.regs := by
  obtain ⟨htake, hw⟩ := takeRx_links s d c
  obtain ⟨hwire, honly⟩ := linkAckIn_does (s := s.takeRx d c) (u := u) ack ((htake.rbit _ _ _).trans hx)
  refine ⟨?_, honly, (htake.trans honly).sameMem, (htake.trans honly).regs⟩
  rw [hwire, hw]
  rfl

theorem nakFrame_does (c : Nat) {u ack : Nat} (hx : s.ximelOn d = false) (hheld : ((s.wire d u).acked ack).held ≠ [])
    (hworn : ((s.wire d u).acked ack).worn = false) : (((s.takeRx d c).linkNakIn d u ack).wire d u).replay =
      ((s.wire d u).acked ack).held.map (fun h => h.seq) ∧
    OnlyLinks (s.takeRx d c) ((s.takeRx d c).linkNakIn d u ack) ∧ SameMem s ((s.takeRx d c).linkNakIn d u ack) ∧
    ((s.takeRx d c).linkNakIn d u ack).regs = s.regs := by
  obtain ⟨htake, hw⟩ := takeRx_links s d c
  rw [← hw] at hheld hworn
  obtain ⟨hreplay, honly⟩ := linkNakIn_does ((htake.rbit _ _ _).trans hx) hheld hworn
  exact ⟨hreplay.trans (by rw [hw]), honly, (htake.trans honly).sameMem, (htake.trans honly).regs⟩

end

/-- The events of one sequenced link: its timeout, its acknowledgement timer and its NAK timer. -/
structure LinkEvents (s : State) (d u : Nat) (late owe nak : Instr) : Prop where
  late : exec late s = onDie s d (s.linkResend d u)
  owe : exec owe s = onDie s d (s.linkAckTimer d u)
  nak : exec nak s = onDie s d (s.linkNakTimer d u)

theorem linkEvents_of_mem {s : State} {d u : Nat} {late owe nak : Instr}
    (h : (u, late, owe, nak) ∈ [(1, Instr.wheelReplayTimeout d, Instr.wheelAckTimer d, Instr.wheelNakResend d),
      (2, .cmtReplayTimeout d, .cmtAckTimer d, .cmtNakResend d)]) : LinkEvents s d u late owe nak ∧ (u = 1 ∨ u = 2) := by
  simp only [List.mem_cons, List.not_mem_nil, or_false, Prod.mk.injEq] at h
  rcases h with ⟨rfl, rfl, rfl, rfl⟩ | ⟨rfl, rfl, rfl, rfl⟩
  · exact ⟨⟨rfl, rfl, rfl⟩, .inl rfl⟩
  · exact ⟨⟨rfl, rfl, rfl⟩, .inr rfl⟩

end Sys2Proof.Machine

open Sys2Proof Sys2Proof.Machine

/-- Settles O31: each event of a link is one of `linkResend`, `linkCtl`, `linkAckIn` and `linkNakIn`, which change ports and links only. -/
theorem sequencedLinks : Obligations.SequencedLinks := by
  unfold Obligations.SequencedLinks
  intro s d u late owe nak hd hx hmem ctl
  obtain ⟨hev, hu⟩ := linkEvents_of_mem (s := s) hmem
  refine ⟨fun hheld hworn => ⟨_, hev.late.trans (onDie_eq hd), linkResend_does hx hheld hworn⟩,
    fun hheld hworn => hev.late.trans ((onDie_eq hd).trans (congrArg _ (linkResend_worn hx hheld hworn))), fun hcar howed => ?_, fun hcar hnak => ?_,
    fun f hon => ?_, fun f hon hheld hworn => ?_, fun f hon hmax hnone => ?_, fun f hon hmax hnone hheld hworn => ?_⟩
  · exact ⟨_, hev.owe.trans ((onDie_eq hd).trans (congrArg _ (linkAckTimer_eq hx howed))), linkCtl_does (nak := false) hcar⟩
  · exact ⟨_, hev.nak.trans ((onDie_eq hd).trans (congrArg _ (linkNakTimer_eq hx hnak))), (linkCtl_does (nak := true) hcar).2⟩
  · obtain ⟨hheld, -, hmem, hregs⟩ := ackFrame_does 0x88B7 2 f.ack hx
    exact ⟨_, cmtLink_runs (act := fun s => s.linkAckIn d 2 f.ack) hd hon rfl, hheld, hmem, hregs⟩
  · obtain ⟨hreplay, -, hmem, hregs⟩ := nakFrame_does 0x88B7 hx hheld hworn
    exact ⟨_, cmtLink_runs (act := fun s => s.linkNakIn d 2 f.ack) hd hon rfl, hreplay, hmem, hregs⟩
  · obtain ⟨hheld, honly, hmem, hregs⟩ := ackFrame_does 0x88B6 1 f.ack hx
    exact ⟨_, (onDie_eq hd).trans (congrArg _ (wheelLink_runs hon hmax hnone honly)), hheld, hmem, hregs⟩
  · obtain ⟨hreplay, honly, hmem, hregs⟩ := nakFrame_does 0x88B6 hx hheld hworn
    exact ⟨_, (onDie_eq hd).trans (congrArg _ (wheelLink_runs hon hmax hnone honly)), hreplay, hmem, hregs⟩

end

section
/-! PROOF. Disabling the commit logic: a group whose partition number lies past every partition reads CMT_CTRL as its mask. -/

namespace Sys2Proof.Machine

/-- A group that is not closed, of the partition number whose mask register has the offset of CMT_CTRL. -/
def pastParts : Group := ⟨0, 48688, false, 0, false, [], [], none, 0xF, 0, 0, 0⟩

/-- The reset state with the commit logic of die 0 on and that group open. -/
def maskIsCtrl : State := { State.reset with regs := [(regKey 0 Reg.cmtCtrl, 1)], groups := [pastParts] }

theorem maskIsCtrl_dieUp : DieUp maskIsCtrl 0 := ⟨rfl, by decide, rfl⟩

/-- Once CMT_CTRL is clear the group's mask reads as empty, so that the group is left as it was. -/
theorem maskIsCtrl_off : (maskIsCtrl.cmtOff 0).groups = [pastParts] := by decide

end Sys2Proof.Machine

open Sys2Proof Sys2Proof.Machine

/-- Refutes O32: the masks of the groups' partitions are read after CMT_CTRL is written, so that a group whose partition number is past every
partition, and whose mask thus is CMT_CTRL of die 0, is neither closed nor aborted. -/
theorem not_commitRing : ¬ Obligations.CommitRing := by
  intro h
  obtain ⟨-, -, -, -, -, hdisable⟩ := h
  obtain ⟨t, ht, -, hgroups⟩ := hdisable maskIsCtrl 0 maskIsCtrl_dieUp (by decide)
  have heq : t = maskIsCtrl.cmtOff 0 := by
    have hexec : exec (.cmtDisable 0) maskIsCtrl = .next (maskIsCtrl.cmtOff 0) := (onDie_eq maskIsCtrl_dieUp).trans (congrArg _ (if_pos (by decide)))
    rw [hexec] at ht
    cases ht
    rfl
  rw [heq, maskIsCtrl_off] at hgroups
  exact absurd (hgroups pastParts (List.mem_singleton.mpr rfl) rfl (by decide)) (by decide)

end

section
/-! PROOF. History folds, update stages moved off a fenced engine, and rows combined by the token router. -/

namespace Sys2Proof.Machine

/-! ## History folds -/

section
variable {s : State} {id : Nat} {f : Fold} {bad : Bool}

theorem histFold_exec (ht : s.tripped = false) (hfind : s.folds.find? (fun f => f.id == id) = some f) (hend : ∀ w, s.work id = some w → w.ended = true)
    (hbad : bad = (f.poison || (s.work id).any fun w => w.res.poison)) : exec (.histFold id) s = .next (s.applyFold f bad) := by
  refine (live_eq ht).trans (congrArg _ ?_)
  rw [hfind]
  cases hw : s.work id with
  | none =>
    rw [hw] at hbad
    show s.applyFold f f.poison = _
    rw [hbad]
    simp
  | some w =>
    rw [hw] at hbad
    exact (if_pos (hend w hw)).trans (congrArg _ (by simp [hbad]))

theorem applyFold_poisoned (s : State) (f : Fold) : s.applyFold f true = ({ s with folds := s.folds.erase f } : State).bump (f.addr / hbmSize) (Reg.cnvCntLo 3) 1 :=
  rfl

/-- The record that a fold leaves at its address. -/
def Fold.folded (s : State) (f : Fold) : List Byte := ((HRec.ofBytes (s.bytes f.addr 64)).fold f.stats).bytes

theorem applyFold_in (s : State) {f : Fold} (h : inHbm s.part.dies f.addr 64 = true) : s.applyFold f false =
    (({ s with folds := s.folds.erase f } : State).write f.addr (f.folded s)).bump (f.addr / hbmSize) (Reg.cnvCntLo 2) 1 := if_pos h

theorem applyFold_out (s : State) {f : Fold} (h : inHbm s.part.dies f.addr 64 = false) : s.applyFold f false = { s with folds := s.folds.erase f } :=
  if_neg (by simp [h])

theorem applyFold_folds (s : State) (f : Fold) (bad : Bool) : (s.applyFold f bad).folds = s.folds.erase f ∧ (s.applyFold f bad).regs = s.regs := by
  cases bad with
  | true => exact ⟨rfl, rfl⟩
  | false =>
    cases h : inHbm s.part.dies f.addr 64 with
    | true =>
      rw [applyFold_in s h, show ({ s with folds := s.folds.erase f } : State).write f.addr (f.folded s) = _ from OnlyMem.write _ _ _]
      exact ⟨rfl, rfl⟩
    | false =>
      rw [applyFold_out s h]
      exact ⟨rfl, rfl⟩

end

/-! ## Stages moved off a fenced engine -/

section
variable {s : State} {id h u : Nat} {w : Work}

/-- The engine of a die that takes over the stages of one that is fenced. -/
def State.nextEngine (s : State) (p h u : Nat) : Option Nat :=
  let live := if u < 4 then s.liveMes h p else ([0, 1].filter fun v => s.veOwned h p v && s.veOn h v).map (4 + ·)
  if u < 4 then shareEngine live u else minBy (s.queued h) live

/-- A descriptor one of whose stages has moved to engine `v`. -/
def Work.moved (h u v : Nat) (y : Work) : Work :=
  { y with engine := if y.engine = some u && !(u < 4) then some v else y.engine, stages := nub (y.stages.map fun z => if z = (h, u) then (h, v) else z) }

/-- A descriptor one of whose stages finds no engine. -/
def Work.stranded (h u : Nat) (y : Work) : Work :=
  { y with stages := without (h, u) y.stages, res := { y.res with status := if y.res.status = 0 then 7 else y.res.status } }

theorem moveStage_to {v : Nat} (hout : s.unitOut h u = true) (hnext : s.nextEngine w.part h u = some v) : State.moveStage w s (h, u) =
    if u < 4 then s.modWork w.id (Work.moved h u v) else (s.modWork w.id (Work.moved h u v)).bump h (Reg.veCntLo (v - 4) 7) 1 := by
  refine (if_neg (by simp [hout])).trans ?_
  unfold State.nextEngine at hnext
  dsimp only at hnext
  rw [hnext]
  rfl

theorem moveStage_stays (hout : s.unitOut h u = true) (hnext : s.nextEngine w.part h u = none) :
    State.moveStage w s (h, u) = s.modWork w.id (Work.stranded h u) := by
  refine (if_neg (by simp [hout])).trans ?_
  unfold State.nextEngine at hnext
  dsimp only at hnext
  rw [hnext]
  rfl

theorem moveStage_frame (s : State) (w : Work) (x : Nat × Nat) : SameMem s (State.moveStage w s x) ∧ (State.moveStage w s x).regs = s.regs := by
  obtain ⟨h, u⟩ := x
  cases hout : s.unitOut h u with
  | false =>
    rw [show State.moveStage w s (h, u) = s from if_pos (by simp [hout])]
    exact ⟨.of_eq rfl rfl, rfl⟩
  | true =>
    cases hnext : s.nextEngine w.part h u with
    | none =>
      rw [moveStage_stays hout hnext]
      exact ⟨.of_eq rfl rfl, rfl⟩
    | some v =>
      rw [moveStage_to hout hnext]
      split
      · exact ⟨.of_eq rfl rfl, rfl⟩
      · exact ⟨.of_eq rfl rfl, rfl⟩

theorem moved_single {v : Nat} (hst : w.stages = [(h, u)]) : (w.moved h u v).stages = [(h, v)] := by
  unfold Work.moved
  rw [hst]
  simp [nub, addNew]

theorem stageReplay_does (ht : s.tripped = false) (hw : s.work id = some w) (hkind : w.kind = 0x14) (hon : w.started = true) (hst : w.stages = [(h, u)]) :
    Does (.stageReplay id) s fun t => SameMem s t ∧ t.regs = s.regs ∧ (s.unitOut h u = false → t = s) ∧
      (s.unitOut h u = true → ∀ v, s.nextEngine w.part h u = some v → ∃ y, t.work id = some y ∧ y.stages = [(h, v)] ∧ y.res = w.res ∧
        (4 ≤ u → w.engine = some u → y.engine = some v) ∧
        (4 ≤ u → t.ctr h (Reg.veCntLo (v - 4) 7) = Nat.min ctrMax (s.ctr h (Reg.veCntLo (v - 4) 7) + 1))) ∧
      (s.unitOut h u = true → s.nextEngine w.part h u = none →
        t.work id = some { w with stages := [], res := { w.res with status := if w.res.status = 0 then 7 else w.res.status } }) := by
  have hid : w.id = id := by simpa using List.find?_some hw
  have hexec : exec (.stageReplay id) s = .next (State.moveStage w s (h, u)) := by
    refine (live_eq ht).trans (congrArg _ ?_)
    rw [hw]
    refine (if_neg (by simp [hkind, hon])).trans ?_
    rw [hst]
    rfl
  have hwork : ∀ f : Work → Work, (∀ y, (f y).id = y.id) → (s.modWork w.id f).work id = some (f w) := fun f hf =>
    (work_modWork s w.id f hf ▸ congrArg (Option.map f) (hid ▸ hw) : (s.modWork w.id f).work w.id = some (f w)) ▸ congrArg _ hid.symm
  obtain ⟨hmem, hregs⟩ := moveStage_frame s w (h, u)
  refine ⟨_, hexec, hmem, hregs, fun hin => if_pos (by simp [hin]), fun hout v hnext => ?_, fun hout hnext => ?_⟩
  · rw [moveStage_to hout hnext]
    have hy := hwork (Work.moved h u v) fun _ => rfl
    refine ⟨w.moved h u v, ?_, moved_single hst, rfl, fun hu he => if_pos ?_, fun hu => ?_⟩
    · split
      · exact hy
      · exact hy
    · simp [he, hu]
    · rw [if_neg (by omega)]
      exact State.ctr_bump_same (s.modWork w.id (Work.moved h u v)) _ _ _
  · rw [moveStage_stays hout hnext, hwork (Work.stranded h u) fun _ => rfl]
    unfold Work.stranded
    rw [hst]
    simp [without]

end

/-! ## Rows written from an address up -/

/-- `t` differs from `s` in memory from `a` up and in the number of free values used. -/
structure Above (a : Nat) (s t : State) : Prop where
  eq    : t = { s with mem := t.mem, poison := t.poison, freeCtr := t.freeCtr }
  below : ∀ x, x < a → t.byte x = s.byte x

namespace Above

variable {a : Nat} {s t u : State}

theorem refl (a : Nat) (s : State) : Above a s s := ⟨rfl, fun _ _ => rfl⟩

theorem trans (h : Above a s t) (g : Above a t u) : Above a s u := by
  refine ⟨?_, fun x hx => (g.below x hx).trans (h.below x hx)⟩
  obtain ⟨h, -⟩ := h
  obtain ⟨g, -⟩ := g
  refine g.trans ?_
  rw [h]

theorem write (s : State) {a b : Nat} (h : a ≤ b) (bs : List Byte) : Above a s (s.write b bs) := by
  refine ⟨?_, fun x hx => s.byte_write_outside b bs false x (.inl (by omega))⟩
  have h : s.write b bs = { s with mem := (s.write b bs).mem, poison := (s.write b bs).poison } := OnlyMem.write s b bs
  have hfree : (s.write b bs).freeCtr = s.freeCtr := (congrArg State.freeCtr h :)
  rw [hfree]
  exact h

theorem fresh (a : Nat) (s : State) : Above a s s.fresh.2 := ⟨rfl, fun x _ => State.byte_congr rfl rfl x⟩

theorem freeVal (a : Nat) (s : State) (n : Nat) : Above a s (s.freeVal n).2 := ⟨rfl, fun x _ => State.byte_congr rfl rfl x⟩

theorem scramble (s : State) {a b : Nat} (h : a ≤ b) (len : Nat) : Above a s (s.scramble b len) := (fresh a s).trans (write _ h _)

theorem ite {c : Prop} [Decidable c] (h : Above a s t) (g : Above a s u) : Above a s (if c then t else u) := by
  split
  · exact h
  · exact g

theorem foldl {α : Type} {f : State → α → State} (hf : ∀ t x, Above a t (f t x)) (l : List α) (s : State) : Above a s (l.foldl f s) :=
  foldl_keeps (P := Above a s) (fun t x h => h.trans (hf t x)) l (refl a s)

theorem putTile (s : State) {a b : Nat} (h : a ≤ b) (t : NewTile) (x : Converted) : Above a s (s.putTile b t x) :=
  (write s (b := b + 64) (by omega) _).trans (write _ h _)

end Above

/-! ## ROUTER_COMBINE -/

/-- The words delivered are as many as there were, and only free values are used. -/
theorem deliverWords_does (s : State) (ws : List AWord) (parity : List Nat) : (s.deliverWords ws parity).1.length = ws.length ∧
    ∀ a, Above a s (s.deliverWords ws parity).2 := by
  have hgen : ∀ (l : List (AWord × Nat)) (x : List AWord × State), (∀ a, Above a s x.2) →
      (l.foldl (fun x y => if parity.contains y.2 then let (v, s) := x.2.freeVal 32; (x.1 ++ [{ y.1 with weight := v }], s) else (x.1 ++ [y.1], x.2)) x).1.length =
        x.1.length + l.length ∧
      ∀ a, Above a s (l.foldl (fun x y => if parity.contains y.2 then let (v, s) := x.2.freeVal 32; (x.1 ++ [{ y.1 with weight := v }], s) else (x.1 ++ [y.1], x.2)) x).2 := by
    intro l
    induction l with
    | nil => exact fun x hx => ⟨rfl, hx⟩
    | cons y l ih =>
      intro x hx
      rw [List.foldl_cons]
      split
      · obtain ⟨hl, hs⟩ := ih (x.1 ++ [{ y.1 with weight := (x.2.freeVal 32).1 }], (x.2.freeVal 32).2) fun a => (hx a).trans (.freeVal a x.2 32)
        refine ⟨hl.trans ?_, hs⟩
        simp only [List.length_append, List.length_cons, List.length_nil]
        omega
      · obtain ⟨hl, hs⟩ := ih (x.1 ++ [y.1], x.2) hx
        refine ⟨hl.trans ?_, hs⟩
        simp only [List.length_append, List.length_cons, List.length_nil]
        omega
  obtain ⟨hl, hs⟩ := hgen ws.zipIdx ([], s) fun a => .refl a s
  refine ⟨hl.trans ?_, hs⟩
  simp

/-! ## Error counters -/

/-- From `s` to `t` events have been posted and error counters that saturated noted. -/
structure Reports (s t : State) : Prop where
  frame : t = { s with regs := t.regs, ctrs := t.ctrs, freeCtr := t.freeCtr, mem := t.mem, poison := t.poison, out := t.out, seq := t.seq, hst := t.hst,
                       ras := t.ras }
  reg   : ∀ d o, QuietReg o → t.reg d o = s.reg d o
  ctr   : ∀ d o, QuietCtr o → t.ctr d o = s.ctr d o

namespace Reports

variable {s t u : State}

theorem refl (s : State) : Reports s s := ⟨rfl, fun _ _ _ => rfl, fun _ _ _ => rfl⟩

theorem trans (h : Reports s t) (g : Reports t u) : Reports s u := by
  refine ⟨?_, fun d o ho => (g.reg d o ho).trans (h.reg d o ho), fun d o ho => (g.ctr d o ho).trans (h.ctr d o ho)⟩
  have e := g.frame
  rw [h.frame] at e
  exact e

theorem of_posts (h : Posts s t) : Reports s t := by
  refine ⟨h.frame.trans ?_, h.reg, h.ctr⟩
  have hseq : t.seq = { s.seq with evqArm := t.seq.evqArm, evLost := t.seq.evLost } := congrArg State.seq h.frame
  have hhst : t.hst = { s.hst with pba := t.hst.pba } := h.hst
  rw [← hseq, ← hhst, ← h.ras]

theorem aq (h : Reports s t) : t.aq = s.aq := by rw [h.frame]
theorem eths (h : Reports s t) : t.eths = s.eths := by rw [h.frame]
theorem wires (h : Reports s t) : t.wires = s.wires := by rw [h.frame]
theorem part (h : Reports s t) : t.part = s.part := by rw [h.frame]
theorem grd (h : Reports s t) : t.grd = s.grd := by rw [h.frame]
theorem tripped (h : Reports s t) : t.tripped = s.tripped := by rw [h.frame]

theorem satEvent (s : State) {p : Nat} (hp : p < 16) (d off i : Nat) : Reports s (s.satEvent p d off i) := by
  unfold State.satEvent
  split
  · exact refl s
  · refine trans ?_ (of_posts (.event _ hp _ _ _ _))
    exact ⟨rfl, fun _ _ _ => rfl, fun _ _ _ => rfl⟩

theorem saturated (s : State) (d off i : Nat) : Reports s (s.saturated d off i) :=
  List.foldlRecOn (motive := Reports s) _ _ (refl s) fun t ht _ hp => ht.trans (satEvent t (Posts.partsOn_lt hp) d off i)

theorem bumpErr (s : State) (d off i n : Nat) : Reports (s.bump d off n) (s.bumpErr d off i n) := by
  unfold State.bumpErr
  dsimp only
  split
  · exact saturated _ d off i
  · exact refl _

end Reports

theorem countPoisoned_aq (s : State) (d n : Nat) : (s.countPoisoned d n).aq = s.aq := by
  unfold State.countPoisoned
  split
  · rfl
  · exact (Reports.bumpErr _ d (Reg.rasCntLo 4) 4 n).aq.trans (Reports.bumpErr s d (Reg.tokCntLo 5) 5 n).aq

theorem countPoisoned_ctr (s : State) (d : Nat) {n : Nat} (h : n ≠ 0) :
    (s.countPoisoned d n).ctr d (Reg.tokCntLo 5) = Nat.min ctrMax (s.ctr d (Reg.tokCntLo 5) + n) := by
  have hquiet : QuietCtr (Reg.tokCntLo 5) := by decide
  unfold State.countPoisoned
  rw [if_neg h, (Reports.bumpErr _ d (Reg.rasCntLo 4) 4 n).ctr d _ hquiet]
  rw [State.ctr_bump_other _ _ _ _ _ _ (by unfold regKey Reg.rasCntLo Reg.tokCntLo; omega), (Reports.bumpErr s d (Reg.tokCntLo 5) 5 n).ctr d _ hquiet]
  exact State.ctr_bump_same _ _ _ _

/-! ## ROUTER_COMBINE -/

/-- The router's words of the gate that it combines next. -/
def State.gateWords (s : State) (d : Nat) (first : AWord) : List AWord := s.aq.filter fun x => x.d == d && x.gate == first.gate

/-- The state once the words of a gate have been counted and taken. -/
def State.wordsTaken (s : State) (d n : Nat) (first : AWord) : State :=
  { s.countPoisoned d n with aq := (s.countPoisoned d n).aq.filter fun x => !(x.d == d && x.gate == first.gate) }

theorem routerCombine_exec {s : State} {d : Nat} {first : AWord} (p src dst : Nat) (tw : TokenWords) (width ofmt rnd : Nat) (sat : Bool) (step : W32)
    (hd : DieUp s d) (hfind : s.aq.find? (fun x => x.d == d) = some first) :
    ∃ u, exec (.routerCombine d p src dst tw width ofmt rnd sat step) s =
      .next (u.wordsTaken d (badWords tw.parity (s.gateWords d first).length) first) ∧ Above dst s u := by
  obtain ⟨hlen, habove⟩ := deliverWords_does s (s.gateWords d first) tw.parity
  have hdel : ∃ ws t, s.deliverWords (s.gateWords d first) tw.parity = (ws, t) ∧ ws.length = (s.gateWords d first).length ∧ Above dst s t :=
    ⟨_, _, rfl, hlen, habove dst⟩
  obtain ⟨ws, t, hdel, hlen, habove⟩ := hdel
  have hkey : ∀ (c : Bool) (key : Nat), Above dst t (if c then t.freeVal 64 else (key, t)).2 := fun c key => by
    cases c with
    | true => exact .freeVal dst t 64
    | false => exact .refl dst t
  rw [← hlen]
  refine ⟨?state, ?hexec, ?habove⟩
  case hexec =>
    show onDie s d _ = _
    rw [onDie_eq hd]
    refine congrArg Host.Outcome.next ?_
    dsimp only
    rw [hfind]
    dsimp only
    rw [show s.deliverWords (s.aq.filter fun x => x.d == d && x.gate == first.gate) tw.parity = (ws, t) from hdel]
    dsimp only
    rfl
  case habove =>
    exact .ite (habove.trans ((hkey _ _).trans (.foldl (fun r q => .putTile r (Nat.le_add_right _ _) _ _) _ _))) (habove.trans (.scramble t le_rfl _))

theorem routerCombine_does {s : State} {d : Nat} {first : AWord} (p src dst : Nat) (tw : TokenWords) (width ofmt rnd : Nat) (sat : Bool) (step : W32)
    (hd : DieUp s d) (hfind : s.aq.find? (fun x => x.d == d) = some first) :
    Does (.routerCombine d p src dst tw width ofmt rnd sat step) s fun t =>
      t.aq = s.aq.filter (fun x => !(x.d == d && x.gate == first.gate)) ∧
      (badWords tw.parity (s.gateWords d first).length = 0 → (∀ x, x < dst → t.byte x = s.byte x) ∧ t.regs = s.regs ∧ t.ctrs = s.ctrs) ∧
      (badWords tw.parity (s.gateWords d first).length ≠ 0 →
        t.ctr d (Reg.tokCntLo 5) = Nat.min ctrMax (s.ctr d (Reg.tokCntLo 5) + badWords tw.parity (s.gateWords d first).length)) := by
  obtain ⟨u, hexec, hu⟩ := routerCombine_exec p src dst tw width ofmt rnd sat step hd hfind
  have haq : u.aq = s.aq := by rw [hu.eq]
  have hctrs : u.ctrs = s.ctrs := by rw [hu.eq]
  refine ⟨_, hexec, ?_, fun hzero => ?_, fun hbad => ?_⟩
  · exact congrArg (List.filter _) ((countPoisoned_aq _ _ _).trans haq)
  · rw [hzero]
    exact ⟨fun x hx => hu.below x hx, (congrArg State.regs hu.eq :), hctrs⟩
  · exact (countPoisoned_ctr u d hbad).trans (by rw [State.ctr_congr hctrs])

end Sys2Proof.Machine

open Sys2Proof Sys2Proof.Machine

/-- Settles O17: a fold writes its record or is dropped, a stage moves to the next engine of its kind, and the rows combined lie from the
destination up. -/
theorem deferredWork : Obligations.DeferredWork := by
  unfold Obligations.DeferredWork
  refine ⟨fun s id f bad ht hwf hfind hend hbad => ?_, fun s id h u w ht hw hkind hon hst => stageReplay_does ht hw hkind hon hst, fun s d unit hd hunit hout => ?_,
    fun s d p src dst tokens width ofmt rnd sat step parity first hd hfind => routerCombine_does p src dst ⟨tokens, parity⟩ width ofmt rnd sat step hd hfind⟩
  · obtain ⟨hfolds, hregs⟩ := applyFold_folds s f bad
    refine ⟨_, histFold_exec ht hfind hend hbad, hfolds, hregs, fun hb => ?_, fun hb hin => ?_, fun hb hin => ?_⟩
    · rw [hb, applyFold_poisoned]
      exact ⟨.of_eq rfl rfl, State.ctr_bump_same _ _ _ _⟩
    · rw [hb, applyFold_in s hin]
      refine ⟨(wrote_write hwf f.addr (f.folded s)).of_mem rfl rfl ((State.write_mem _ _ _ _).trans (State.write_mem s _ _ _).symm)
        ((State.write_wiped _ _ _ _).trans (State.write_wiped s _ _ _).symm), (State.ctr_bump_same _ _ _ _).trans ?_⟩
      rw [State.write_ctr]
      rfl
    · rw [hb, applyFold_out s hin]
      exact .of_eq rfl rfl
  · exact (onDie_eq hd).trans (congrArg _ (if_neg (by simp [hout]; omega)))

end

section
/-! PROOF. The events of a matrix engine: loads, pass starts, skips and drained rows, and what the end of a descriptor on it leaves. -/

namespace Sys2Proof.Machine

/-! ## Engines and their state -/

theorem eng_is (s : State) (d e : Nat) : (s.eng d e).d = d ∧ (s.eng d e).e = e := by
  unfold State.eng
  cases h : s.engs.find? fun x => x.d == d && x.e == e with
  | none => exact ⟨rfl, rfl⟩
  | some x => simpa using List.find?_some h

theorem eng_setEng (s : State) (x : Eng) : (s.setEng x).eng x.d x.e = x := by
  unfold State.eng State.setEng
  dsimp only
  rw [List.find?_append, List.find?_eq_none.mpr fun y hy => by
    have := (List.mem_filter.mp hy).2
    simp only [Bool.not_eq_true', Bool.and_eq_false_iff, beq_eq_false_iff_ne] at this
    simp only [Bool.and_eq_true, beq_iff_eq, not_and]
    exact fun hd => this.resolve_left (not_not_intro hd)]
  simp

theorem feed_fields (x : Eng) : x.feed.d = x.d ∧ x.feed.e = x.e ∧ x.feed.queue = x.queue ∧ x.feed.prev = x.prev ∧ x.feed.loadAt = x.loadAt := by
  unfold Eng.feed
  split
  · exact ⟨rfl, rfl, rfl, rfl, rfl⟩
  · exact ⟨rfl, rfl, rfl, rfl, rfl⟩

theorem feed_none {x : Eng} (h : x.issue = none) : x.feed = x := by
  unfold Eng.feed
  rw [h]

theorem feed_some {x : Eng} {p : Pass} (h : x.issue = some p) : x.feed =
    { x with
      issue := if p.rows ≤ (if p.last then Nat.min p.rows (x.credits p) else p.rows) then none
        else some { p with rows := p.rows - if p.last then Nat.min p.rows (x.credits p) else p.rows }
      fifo := x.fifo ++ if p.last && (if p.last then Nat.min p.rows (x.credits p) else p.rows) != 0
        then p.drains.map fun k => ⟨k, p.id, if p.last then Nat.min p.rows (x.credits p) else p.rows⟩ else [] } := by
  unfold Eng.feed
  rw [h]

/-- Feeding looks at the pass that is issuing and at the FIFOs, and changes nothing else. -/
theorem feed_congr {x y : Eng} (hi : x.issue = y.issue) (hf : x.fifo = y.fifo) : x.feed.issue = y.feed.issue ∧ x.feed.fifo = y.feed.fifo := by
  have hcredits : ∀ p, x.credits p = y.credits p := fun p => by
    unfold Eng.credits Eng.fill
    rw [hf]
  cases h : x.issue with
  | none => rw [feed_none h, feed_none (hi ▸ h)]; exact ⟨hi, hf⟩
  | some p =>
    rw [feed_some h, feed_some (hi ▸ h)]
    dsimp only
    rw [hcredits, hf]
    exact ⟨rfl, rfl⟩

theorem done_feed_congr {x y : Eng} (hq : x.queue = y.queue) (hi : x.issue = y.issue) (hf : x.fifo = y.fifo) (id : Nat) : x.feed.done id = y.feed.done id := by
  obtain ⟨hi', hf'⟩ := feed_congr hi hf
  unfold Eng.done
  rw [(feed_fields x).2.2.1, (feed_fields y).2.2.1, hq, hi', hf']

/-! ## Output released -/

theorem writes_mem_congr {s t : State} (hm : t.mem = s.mem) (hw : t.wiped = s.wiped) (l : List (Nat × List Byte)) :
    (l.foldl (fun s x => s.write x.1 x.2) t).mem = (l.foldl (fun s x => s.write x.1 x.2) s).mem := by
  induction l generalizing s t with
  | nil => exact hm
  | cons x l ih =>
    refine ih ?_ ?_
    · rw [State.write_mem, State.write_mem, hm, State.dflt_congr hw]
    · rw [State.write_wiped, State.write_wiped, hw]

theorem release_mem_congr {s t : State} (hm : t.mem = s.mem) (hw : t.wiped = s.wiped) (hs : t.seq = s.seq) (id : Nat) : (t.release id).mem = (s.release id).mem := by
  have hwork : t.work id = s.work id := by
    unfold State.work
    rw [hs]
  unfold State.release
  rw [hwork]
  cases s.work id with
  | none => exact hm
  | some w => exact writes_mem_congr hm hw w.held

theorem release_frame (s : State) (id : Nat) : ∃ m p q, s.release id = { s with mem := m, poison := p, seq := q } ∧
    (s.release id).work id = (s.work id).map fun w => { w with held := [] } := by
  unfold State.release
  split
  · rename_i h
    exact ⟨s.mem, s.poison, s.seq, rfl, by rw [h]; rfl⟩
  · rename_i w hw
    have h : OnlyMem s (w.held.foldl (fun s x => s.write x.1 x.2) s) := OnlyMem.foldl (f := fun (s : State) (x : Nat × List Byte) => s.write x.1 x.2) (fun t x => .write t x.1 x.2) _ s
    generalize w.held.foldl (fun s x => s.write x.1 x.2) s = u at h
    refine ⟨u.mem, u.poison, (u.modWork id fun w => { w with held := [] }).seq, ?_, ?_⟩
    rotate_left
    · refine (work_modWork u id (fun w => { w with held := [] }) fun _ => rfl).trans ?_
      rw [h]
      rfl
    · unfold State.modWork
      rw [h]

/-! ## An engine that is settled -/

/-- What settling engine state `x` after work of descriptor `id` leaves. -/
structure Settled (s t : State) (x : Eng) (id : Nat) : Prop where
  eng     : t.eng x.d x.e = x ∨ x.queue = [] ∧ t.eng x.d x.e = x.rest
  regs    : t.regs = s.regs
  cnvLast : t.cnvLast = s.cnvLast
  ctr     : ∀ o, regKey x.d o ≠ regKey x.d (Reg.meCntLo x.e 8) → t.ctr x.d o = s.ctr x.d o
  settles : Settles s t x id

namespace Settled

variable {s t : State} {x : Eng} {id : Nat}

theorem queue (h : Settled s t x id) : (t.eng x.d x.e).queue = x.queue := by
  rcases h.eng with h | ⟨-, h⟩
  · rw [h]
  · rw [h]
    rfl

theorem fifo (h : Settled s t x id) : (t.eng x.d x.e).fifo = x.fifo := by
  rcases h.eng with h | ⟨-, h⟩
  · rw [h]
  · rw [h]
    rfl

theorem loadAt (h : Settled s t x id) (hx : x.loadAt = none) : (t.eng x.d x.e).loadAt = none := by
  rcases h.eng with h | ⟨-, h⟩
  · rw [h, hx]
  · rw [h]
    rfl

theorem prev (h : Settled s t x id) (hx : x.queue ≠ []) : (t.eng x.d x.e).prev = x.prev := by
  rcases h.eng with h | ⟨hq, -⟩
  · rw [h]
  · exact absurd hq hx

end Settled

/-- The state once a descriptor that has nothing left on an engine has ended. -/
def State.engEnded (s : State) (x : Eng) (id : Nat) : State := if x.done id then (s.release id).endStatus id 0 else s

theorem engEnded_frame (s : State) (x : Eng) (id : Nat) : ∃ m p q, s.engEnded x id = { s with mem := m, poison := p, seq := q } := by
  unfold State.engEnded
  split
  · obtain ⟨m, p, q, h, -⟩ := release_frame s id
    rw [h]
    exact ⟨m, p, _, rfl⟩
  · exact ⟨s.mem, s.poison, s.seq, rfl⟩

theorem engEnded_settles (s : State) (x : Eng) (id : Nat) : Settles s (s.engEnded x id) x id := by
  refine ⟨fun h => ?_, fun h => ?_⟩
  · rw [State.engEnded, if_neg (by simp [h])]
    exact .of_eq rfl rfl
  · rw [State.engEnded, if_pos h]
    refine ⟨rfl, fun w hw => ?_⟩
    obtain ⟨m, p, q, -, hwork⟩ := release_frame s id
    refine ⟨_, (work_endWork (s.release id) id fun c => { c with status := 0 }).trans (congrArg (Option.map _) (hwork.trans (congrArg (Option.map _) hw))), rfl, rfl⟩

theorem settles_of_eq {s t u : State} {x : Eng} {id : Nat} (h : Settles s t x id) (hm : u.mem = t.mem) (hw : u.wiped = t.wiped) (hs : u.seq = t.seq) :
    Settles s u x id := by
  have hwork : u.work id = t.work id := by
    unfold State.work
    rw [hs]
  refine ⟨fun hd => (h.1 hd).trans (.of_eq hm hw), fun hd => ⟨hm.trans (h.2 hd).1, fun w hv => ?_⟩⟩
  rw [hwork]
  exact (h.2 hd).2 w hv

theorem settleEng_settled (s : State) (x : Eng) (id tail : Nat) : Settled s (s.settleEng x id tail) x id := by
  have hset := engEnded_settles s x id
  obtain ⟨m, p, q, hu⟩ := engEnded_frame s x id
  have heq : s.settleEng x id tail = if x.queue.isEmpty && x.issue.isNone && x.fifo.isEmpty then
      ((s.engEnded x id).setEng x.rest).bump x.d (Reg.meCntLo x.e 8) (Nat.max tail (Nat.max x.tail x.bypass)) else (s.engEnded x id).setEng x := rfl
  rw [heq]
  split
  · rename_i hempty
    have hq : x.queue = [] := by
      simp only [Bool.and_eq_true, List.isEmpty_iff] at hempty
      exact hempty.1.1
    refine ⟨.inr ⟨hq, eng_setEng (s.engEnded x id) x.rest⟩, ?_, ?_, fun o ho => ?_, settles_of_eq hset rfl rfl rfl⟩
    · show (s.engEnded x id).regs = _
      rw [hu]
    · show (s.engEnded x id).cnvLast = _
      rw [hu]
    · refine (State.ctr_bump_other _ _ _ _ _ _ ho).trans (State.ctr_congr ?_ _ _)
      show (s.engEnded x id).ctrs = _
      rw [hu]
  · refine ⟨.inl (eng_setEng _ x), ?_, ?_, fun o _ => State.ctr_congr ?_ _ _, settles_of_eq hset rfl rfl rfl⟩
    · show (s.engEnded x id).regs = _
      rw [hu]
    · show (s.engEnded x id).cnvLast = _
      rw [hu]
    · show (s.engEnded x id).ctrs = _
      rw [hu]

/-- Settling an engine after counting leaves memory and the descriptors as settling without it does. -/
theorem settles_after {s u t : State} {x y : Eng} {id : Nat} (hm : u.mem = s.mem) (hw : u.wiped = s.wiped) (hs : u.seq = s.seq) (hd : y.done id = x.done id)
    (h : Settles u t x id) : Settles s t y id := by
  have hwork : u.work id = s.work id := by
    unfold State.work
    rw [hs]
  rw [Settles, hd]
  refine ⟨fun hdone => (SameMem.of_eq hm hw).trans (h.1 hdone), fun hdone => ⟨(h.2 hdone).1.trans (release_mem_congr hm hw hs id), fun w hv => ?_⟩⟩
  exact (h.2 hdone).2 w (hwork.trans hv)

/-! ## The events -/

section
variable {s : State} {d e : Nat} {p : Pass} {rest : List Pass}

/-- An engine with the load of its front pass placed. -/
def Eng.loaded (x : Eng) (staged : Nat) : Eng :=
  match x.prev with
  | none => { x with loadAt := some (-1), late := staged }
  | some t => { x with loadAt := some (max (t.start + 1) (max (t.load + t.lint) staged)) }

theorem loaded_fields (x : Eng) (staged : Nat) : (x.loaded staged).d = x.d ∧ (x.loaded staged).e = x.e ∧ (x.loaded staged).queue = x.queue := by
  unfold Eng.loaded
  split
  · exact ⟨rfl, rfl, rfl⟩
  · exact ⟨rfl, rfl, rfl⟩

theorem stationaryLoad_does (staged : Nat) (hd : DieUp s d) (hq : (s.eng d e).queue = p :: rest) (hl : (s.eng d e).loadAt = none) (hskip : p.skip = false) :
    Does (.stationaryLoad d e staged) s fun t =>
      ((s.eng d e).prev = none → (t.eng d e).loadAt = some (-1) ∧ (t.eng d e).late = staged) ∧
      (∀ y, (s.eng d e).prev = some y → (t.eng d e).loadAt = some (max (y.start + 1) (max (y.load + y.lint) staged))) ∧
      (t.eng d e).queue = p :: rest ∧ SameMem s t ∧ t.regs = s.regs ∧ t.ctrs = s.ctrs := by
  obtain ⟨hxd, hxe⟩ := eng_is s d e
  obtain ⟨hld, hle, hlq⟩ := loaded_fields (s.eng d e) staged
  have hexec : exec (.stationaryLoad d e staged) s = .next (s.setEng ((s.eng d e).loaded staged)) := by
    refine (onDie_eq hd).trans (congrArg _ ?_)
    unfold Eng.loaded
    dsimp only
    rw [hq, hl]
    dsimp only
    rw [if_neg (by simp [hskip])]
    cases (s.eng d e).prev with
    | none => rfl
    | some t => rfl
  have heng : (s.setEng ((s.eng d e).loaded staged)).eng d e = (s.eng d e).loaded staged := by
    have h := eng_setEng s ((s.eng d e).loaded staged)
    rwa [hld, hle, hxd, hxe] at h
  refine ⟨_, hexec, fun hprev => ?_, fun y hprev => ?_, ?_, .of_eq rfl rfl, rfl, rfl⟩
  · rw [heng, Eng.loaded, hprev]
    exact ⟨rfl, rfl⟩
  · rw [heng, Eng.loaded, hprev]
  · rw [heng, hlq, hq]

/-- Counting in counters of the engine other than one leaves that one. -/
theorem charges_ctr (s : State) {l : List (Nat × Nat)} {o : Nat} (h : ∀ x ∈ l, regKey d o ≠ regKey d (Reg.meCntLo e x.1)) :
    (l.foldl (fun s x => s.bump d (Reg.meCntLo e x.1) x.2) s).ctr d o = s.ctr d o :=
  List.foldlRecOn (motive := fun t => t.ctr d o = s.ctr d o) _ _ rfl fun t ht x hx => (State.ctr_bump_other t _ _ _ _ _ (h x hx)).trans ht

theorem charges_frame (s : State) (l : List (Nat × Nat)) : ∃ c, l.foldl (fun s x => s.bump d (Reg.meCntLo e x.1) x.2) s = { s with ctrs := c } :=
  foldl_keeps (f := fun (s : State) (x : Nat × Nat) => s.bump d (Reg.meCntLo e x.1) x.2) (P := fun t : State => ∃ c, t = { s with ctrs := c })
    (fun t x ⟨c, h⟩ => by
      rw [h]
      exact ⟨_, rfl⟩) l ⟨s.ctrs, rfl⟩

theorem chargeBubbles_index (g : Gaps) (b k : Waits) (last : Bool) (load acc : Nat) :
    ∀ x ∈ chargeBubbles g b k last load acc, x.1 = 1 ∨ x.1 = 2 ∨ x.1 = 3 ∨ x.1 = 4 ∨ x.1 = 5 ∨ x.1 = 8 := by
  unfold chargeBubbles
  simp

/-- What the start of a pass counts. -/
def State.passCounted (s : State) (d e n : Nat) (l : List (Nat × Nat)) (turn idle : Nat) : State :=
  (((l.foldl (fun s x => s.bump d (Reg.meCntLo e x.1) x.2) (s.bump d (Reg.meCntLo e 0) n)).bump d (Reg.meCntLo e 6) 1).bump d (Reg.meCntLo e 7) turn).bump d
    (Reg.meSkipLo e 1) idle

theorem passCounted_does (s : State) (n : Nat) {l : List (Nat × Nat)} (turn idle : Nat) (hl : ∀ x ∈ l, x.1 = 1 ∨ x.1 = 2 ∨ x.1 = 3 ∨ x.1 = 4 ∨ x.1 = 5 ∨ x.1 = 8) :
    (∃ c, s.passCounted d e n l turn idle = { s with ctrs := c }) ∧
    (s.passCounted d e n l turn idle).ctr d (Reg.meCntLo e 6) = Nat.min ctrMax (s.ctr d (Reg.meCntLo e 6) + 1) ∧
    (s.passCounted d e n l turn idle).ctr d (Reg.meCntLo e 0) = Nat.min ctrMax (s.ctr d (Reg.meCntLo e 0) + n) := by
  have hne : ∀ i j, i ≠ j → regKey d (Reg.meCntLo e i) ≠ regKey d (Reg.meCntLo e j) := fun i j h => by
    unfold regKey Reg.meCntLo
    omega
  have hskip : ∀ i, i < 9 → regKey d (Reg.meCntLo e i) ≠ regKey d (Reg.meSkipLo e 1) := fun i h => by
    unfold regKey Reg.meCntLo Reg.meSkipLo
    omega
  refine ⟨?_, ?_, ?_⟩
  · obtain ⟨c, h⟩ := charges_frame (d := d) (e := e) (s.bump d (Reg.meCntLo e 0) n) l
    unfold State.passCounted
    rw [h]
    exact ⟨_, rfl⟩
  · refine (State.ctr_bump_other _ _ _ _ _ _ (hskip 6 (by omega))).trans ((State.ctr_bump_other _ _ _ _ _ _ (hne 6 7 (by omega))).trans
      ((State.ctr_bump_same _ _ _ _).trans ?_))
    rw [charges_ctr _ fun x hx => hne 6 x.1 (by have := hl x hx; omega), State.ctr_bump_other _ _ _ _ _ _ (hne 6 0 (by omega))]
  · refine (State.ctr_bump_other _ _ _ _ _ _ (hskip 0 (by omega))).trans ((State.ctr_bump_other _ _ _ _ _ _ (hne 0 7 (by omega))).trans
      ((State.ctr_bump_other _ _ _ _ _ _ (hne 0 6 (by omega))).trans ?_))
    rw [charges_ctr _ fun x hx => hne 0 x.1 (by have := hl x hx; omega)]
    exact State.ctr_bump_same _ _ _ _

/-- The cycle at which the front pass starts once its load has been placed at `a`. -/
def Eng.startAt (x : Eng) (p : Pass) (a : Int) : Int :=
  maxOpt (match x.prev with | some t => max (t.start + t.busy) (a + 1) | none => a + 1) (x.accBound p)

/-- An engine whose front pass has started. -/
def Eng.begun (x : Eng) (p : Pass) (rest : List Pass) (t : PassTime) : Eng :=
  { x with queue := rest, loadAt := none, late := 0, prev := some t, starts := kvPut x.starts p.group t.start, issue := some p, tail := 639, bypass := 0, gearW := some p.gearW }

theorem passStart_exec (g : Gaps) (b k : Waits) {a : Int} (hd : DieUp s d) (hq : (s.eng d e).queue = p :: rest) (hl : (s.eng d e).loadAt = some a)
    (hskip : p.skip = false) (hi : (s.eng d e).issue = none) : ∃ l turn t, (∀ x ∈ l, x.1 = 1 ∨ x.1 = 2 ∨ x.1 = 3 ∨ x.1 = 4 ∨ x.1 = 5 ∨ x.1 = 8) ∧
      t.load = a ∧ t.lint = ((lintOf p.gearW : Nat) : Int) ∧ t.start = (s.eng d e).startAt p a ∧
      exec (.passStart d e g b k) s = .next ((s.passCounted d e ((p.rows - p.idle) * p.sigma) l turn p.idle).settleEng
        ((s.eng d e).begun p rest t).feed p.id 0) := by
  refine ⟨?l, ?turn, ?t, ?hl, ?load, ?lint, ?start, ?hexec⟩
  case hexec =>
    show onDie s d _ = _
    rw [onDie_eq hd]
    refine congrArg Host.Outcome.next ?_
    dsimp only
    rw [hq, hl]
    dsimp only
    rw [if_neg (by simp [hskip, hi])]
    rfl
  case hl => exact chargeBubbles_index _ _ _ _ _ _
  case load => rfl
  case lint => rfl
  case start => rfl

theorem passStart_does (g : Gaps) (b k : Waits) {a : Int} (hd : DieUp s d) (hq : (s.eng d e).queue = p :: rest) (hl : (s.eng d e).loadAt = some a)
    (hskip : p.skip = false) (hi : (s.eng d e).issue = none) : Does (.passStart d e g b k) s fun t => (t.eng d e).queue = rest ∧ (t.eng d e).loadAt = none ∧
      (rest ≠ [] → ∃ y, (t.eng d e).prev = some y ∧ y.load = a ∧ y.lint = lintOf p.gearW ∧ y.start = (s.eng d e).startAt p a) ∧
      (p.last = true → Nat.min p.rows ((s.eng d e).credits p) ≠ 0 → (t.eng d e).fifo =
        (s.eng d e).fifo ++ p.drains.map fun k => ⟨k, p.id, Nat.min p.rows ((s.eng d e).credits p)⟩) ∧
      t.ctr d (Reg.meCntLo e 6) = Nat.min ctrMax (s.ctr d (Reg.meCntLo e 6) + 1) ∧
      t.ctr d (Reg.meCntLo e 0) = Nat.min ctrMax (s.ctr d (Reg.meCntLo e 0) + (p.rows - p.idle) * p.sigma) ∧ t.regs = s.regs ∧
      Settles s t ({ s.eng d e with queue := rest, issue := some p } : Eng).feed p.id := by
  obtain ⟨hxd, hxe⟩ := eng_is s d e
  obtain ⟨l, turn, y, hlist, hload, hlint, hstart, hexec⟩ := passStart_exec g b k hd hq hl hskip hi
  obtain ⟨⟨c, hc⟩, hsix, hzero⟩ := passCounted_does (d := d) (e := e) s ((p.rows - p.idle) * p.sigma) turn p.idle hlist
  generalize s.passCounted d e ((p.rows - p.idle) * p.sigma) l turn p.idle = v at hexec hc hsix hzero
  obtain ⟨hfd, hfe, hfq, hfp, hfl⟩ := feed_fields ((s.eng d e).begun p rest y)
  have hs := settleEng_settled v ((s.eng d e).begun p rest y).feed p.id 0
  have hkey : ((s.eng d e).begun p rest y).feed.d = d := hfd.trans hxd
  have hkeye : ((s.eng d e).begun p rest y).feed.e = e := hfe.trans hxe
  have hctr : ∀ i, i < 8 → (v.settleEng ((s.eng d e).begun p rest y).feed p.id 0).ctr d (Reg.meCntLo e i) = v.ctr d (Reg.meCntLo e i) := fun i h => by
    have := hs.ctr (Reg.meCntLo e i)
    rw [hkey, hkeye] at this
    refine this ?_
    unfold regKey Reg.meCntLo
    omega
  have hqueue := hs.queue
  have hfifo := hs.fifo
  have hloadAt := hs.loadAt hfl
  have hprev := fun h => hs.prev (hfq.symm ▸ h)
  rw [hkey, hkeye] at hqueue hfifo hloadAt hprev
  refine ⟨_, hexec, hqueue.trans hfq, hloadAt, fun h => ⟨y, (hprev h).trans hfp, hload, hlint, hstart⟩, fun hlast hsome => ?_, (hctr 6 (by omega)).trans hsix,
    (hctr 0 (by omega)).trans hzero, ?_, settles_after ?_ ?_ ?_ (done_feed_congr rfl rfl rfl p.id) hs.settles⟩
  · rw [hfifo, feed_some (p := p) rfl]
    dsimp only
    rw [if_pos hlast]
    refine congrArg _ (if_pos ?_)
    simp only [hlast, Bool.true_and, bne_iff_ne, ne_eq]
    exact hsome
  · rw [hs.regs, hc]
  · rw [hc]
  · rw [hc]
  · rw [hc]

theorem passSkip_does (hd : DieUp s d) (hq : (s.eng d e).queue = p :: rest) (hskip : p.skip = true) (hi : (s.eng d e).issue = none) :
    Does (.passSkip d e) s fun t => (t.eng d e).queue = rest ∧ (rest ≠ [] → (t.eng d e).prev = some ((s.eng d e).skipTime p)) ∧
      t.ctr d (Reg.meSkipLo e 0) = Nat.min ctrMax (s.ctr d (Reg.meSkipLo e 0) + 1) ∧ t.regs = s.regs ∧
      Settles s t ({ s.eng d e with queue := rest, issue := some p } : Eng).feed p.id := by
  obtain ⟨hxd, hxe⟩ := eng_is s d e
  let y : Eng := { s.eng d e with
    queue := rest, prev := some ((s.eng d e).skipTime p), starts := kvPut (s.eng d e).starts p.group ((s.eng d e).skipTime p).start, issue := some p,
    bypass := (s.eng d e).bypass + if p.last then p.rows else 0 }
  have hexec : exec (.passSkip d e) s = .next ((s.bump d (Reg.meSkipLo e 0) 1).settleEng y.feed p.id 0) := by
    refine (onDie_eq hd).trans (congrArg _ ?_)
    dsimp only
    rw [hq]
    exact if_neg (by simp [hskip, hi])
  obtain ⟨hfd, hfe, hfq, hfp, -⟩ := feed_fields y
  have hs := settleEng_settled (s.bump d (Reg.meSkipLo e 0) 1) y.feed p.id 0
  have hqueue := hs.queue
  have hprev := fun h => hs.prev (hfq.symm ▸ h)
  have hctr := hs.ctr (Reg.meSkipLo e 0)
  rw [hfd.trans hxd, hfe.trans hxe] at hqueue hprev hctr
  refine ⟨_, hexec, hqueue.trans hfq, fun h => (hprev h).trans hfp, (hctr ?_).trans (State.ctr_bump_same _ _ _ _), hs.regs,
    settles_after (u := s.bump d (Reg.meSkipLo e 0) 1) rfl rfl rfl (done_feed_congr rfl rfl rfl p.id) hs.settles⟩
  unfold regKey Reg.meCntLo Reg.meSkipLo
  omega

theorem drainRowTake_does {tail : Nat} {r : DrainRows} {rest : List DrainRows} (hd : DieUp s d)
    (hmin : minBy (fun e => (e + 3 - kvGet 3 s.cnvLast d) % 4) ([0, 1, 2, 3].filter fun e => !(s.eng d e).fifo.isEmpty) = some e)
    (hfifo : (s.eng d e).fifo = r :: rest) : let f := if r.rows ≤ 1 then rest else { r with rows := r.rows - 1 } :: rest
    Does (.drainRowTake ⟨d, tail⟩) s fun t => ((s.eng d e).issue = none → (t.eng d e).fifo = f) ∧ (∃ l, (t.eng d e).fifo = f ++ l) ∧
      kvGet 3 t.cnvLast d = e ∧ t.ctr d (Reg.cnvCntLo 1) = Nat.min ctrMax (s.ctr d (Reg.cnvCntLo 1) + 1) ∧ t.regs = s.regs ∧
      Settles s t ({ s.eng d e with fifo := f } : Eng).feed r.id := by
  intro f
  obtain ⟨hxd, hxe⟩ := eng_is s d e
  let y : Eng := { s.eng d e with fifo := f }
  let v : State := ({ s with cnvLast := kvPut s.cnvLast d e } : State).bump d (Reg.cnvCntLo 1) 1
  have hexec : exec (.drainRowTake ⟨d, tail⟩) s = .next (v.settleEng y.feed r.id tail) := by
    refine (onDie_eq hd).trans (congrArg _ ?_)
    dsimp only
    rw [hmin]
    dsimp only
    rw [hfifo]
  obtain ⟨hfd, hfe, -, -, -⟩ := feed_fields y
  have hs := settleEng_settled v y.feed r.id tail
  have hq := hs.fifo
  have hctr := hs.ctr (Reg.cnvCntLo 1)
  rw [hfd.trans hxd, hfe.trans hxe] at hq hctr
  refine ⟨_, hexec, fun hi => ?_, ?_, ?_, (hctr ?_).trans (State.ctr_bump_same _ _ _ _), hs.regs, settles_after (u := v) rfl rfl rfl rfl hs.settles⟩
  · rw [hq, feed_none (x := y) hi]
  · rw [hq]
    cases hi : y.issue with
    | none =>
      rw [feed_none hi]
      exact ⟨[], (List.append_nil _).symm⟩
    | some p =>
      rw [feed_some hi]
      exact ⟨_, rfl⟩
  · rw [hs.cnvLast]
    exact (kvGet_kvPut 3 _ _ _ _).trans (if_pos rfl)
  · unfold regKey Reg.meCntLo Reg.cnvCntLo
    omega

end

end Sys2Proof.Machine

open Sys2Proof Sys2Proof.Machine

/-- Settles O16: every event ends in `settleEng`, which keeps the engine's queue and FIFOs and ends the descriptor that has left it. -/
theorem matrixEngineEvents : Obligations.MatrixEngineEvents := by
  unfold Obligations.MatrixEngineEvents
  exact ⟨fun s d e staged p rest hd hq hl hskip => stationaryLoad_does staged hd hq hl hskip,
    fun s d e g b k p rest a hd hq hl hskip hi => passStart_does g b k hd hq hl hskip hi,
    fun s d e p rest hd hq hskip hi => passSkip_does hd hq hskip hi, fun s d e tail r rest hd hmin hfifo => drainRowTake_does hd hmin hfifo⟩

end

section
/-! PROOF. What sending a frame leaves of a port, and the Ximel Link: sequence, acknowledgement and replay. -/

namespace Sys2Proof.Machine

/-! ## Changes of ports, links, counters and what leaves the package -/

/-- `t` differs from `s` in ports, links, counters and what has left the package only. -/
structure PortOnly (s t : State) : Prop where
  eq : t = { s with eths := t.eths, wires := t.wires, ctrs := t.ctrs, out := t.out }

namespace PortOnly

variable {s t u : State}

theorem refl (s : State) : PortOnly s s := ⟨rfl⟩

theorem trans (h : PortOnly s t) (g : PortOnly t u) : PortOnly s u := by
  obtain ⟨h⟩ := h
  obtain ⟨g⟩ := g
  refine ⟨g.trans ?_⟩
  rw [h]

theorem of_links (h : OnlyLinks s t) : PortOnly s t := by
  obtain ⟨h⟩ := h
  refine ⟨?_⟩
  rw [h]

theorem modEth (s : State) (d : Nat) (f : Eth → Eth) : PortOnly s (s.modEth d f) := of_links (.modEth s d f)
theorem modWire (s : State) (d u : Nat) (f : Link → Link) : PortOnly s (s.modWire d u f) := of_links (.modWire s d u f)
theorem bump (s : State) (d off n : Nat) : PortOnly s (s.bump d off n) := ⟨rfl⟩
theorem setCtr (s : State) (d off n : Nat) : PortOnly s (s.setCtr d off n) := ⟨rfl⟩
theorem emit (s : State) (o : Output) : PortOnly s (s.emit o) := ⟨rfl⟩

theorem ite {c : Prop} [Decidable c] (h : PortOnly s t) (g : PortOnly s u) : PortOnly s (if c then t else u) := by
  split
  · exact h
  · exact g

theorem regs (h : PortOnly s t) : t.regs = s.regs := by
  obtain ⟨h⟩ := h
  rw [h]

theorem part (h : PortOnly s t) : t.part = s.part := by
  obtain ⟨h⟩ := h
  rw [h]

theorem sameMem (h : PortOnly s t) : SameMem s t := by
  obtain ⟨h⟩ := h
  rw [h]
  exact .of_eq rfl rfl

theorem regN (h : PortOnly s t) (d o : Nat) : t.regN d o = s.regN d o := State.regN_congr h.regs h.part d o
theorem rbit (h : PortOnly s t) (d o i : Nat) : t.rbit d o i = s.rbit d o i := congrArg (bit · i) (h.regN d o)
theorem rf (h : PortOnly s t) (d o lo len : Nat) : t.rf d o lo len = s.rf d o lo len := congrArg (fld · lo len) (h.regN d o)

end PortOnly

/-! ## What sending looks at -/

/-- Two states look alike to what port `d` sends: the settings in force and the transmit association. -/
structure SamePort (s t : State) (d : Nat) : Prop where
  setting : ∀ i, t.ethSetting d i = s.ethSetting d i
  sa      : t.txSa d = s.txSa d

namespace SamePort

variable {s t u : State} {d : Nat}

theorem refl (s : State) (d : Nat) : SamePort s s d := ⟨fun _ => rfl, rfl⟩

theorem trans (h : SamePort s t d) (g : SamePort t u d) : SamePort s u d := ⟨fun i => (g.setting i).trans (h.setting i), g.sa.trans h.sa⟩

theorem of_eth (hr : t.regs = s.regs) (hp : t.part = s.part) (he : (t.eth d).eff = (s.eth d).eff) (hs : (t.eth d).sas = (s.eth d).sas) : SamePort s t d := by
  refine ⟨ethSetting_congr hr hp he, ?_⟩
  have hreg : t.regN d Reg.ethSecCtrl = s.regN d Reg.ethSecCtrl := State.regN_congr hr hp d _
  unfold State.txSa State.rbit State.rf
  rw [hreg, hs]

/-- A change of a port that keeps the settings and associations. -/
theorem modEth (s : State) (d : Nat) {f : Eth → Eth} (hd : ∀ e, (f e).d = e.d) (he : ∀ e, (f e).eff = e.eff) (hs : ∀ e, (f e).sas = e.sas) :
    SamePort s (s.modEth d f) d :=
  of_eth (OnlyLinks.modEth s d f).regs (OnlyLinks.modEth s d f).part (by rw [eth_modEth s d f hd, he]) (by rw [eth_modEth s d f hd, hs])

theorem modWire (s : State) (d e u : Nat) (f : Link → Link) : SamePort s (s.modWire e u f) d :=
  of_eth (OnlyLinks.modWire s e u f).regs (OnlyLinks.modWire s e u f).part (by rw [modWire_eth]) (by rw [modWire_eth])

theorem bump (s : State) (d e off n : Nat) : SamePort s (s.bump e off n) d := of_eth rfl rfl rfl rfl
theorem setCtr (s : State) (d e off n : Nat) : SamePort s (s.setCtr e off n) d := of_eth rfl rfl rfl rfl

theorem ctrl (h : SamePort s t d) (i : Nat) : t.ethCtrl d i = s.ethCtrl d i := congrArg (bit · i) (h.setting 0)
theorem fcMode (h : SamePort s t d) : t.fcMode d = s.fcMode d := congrArg (fld · 2 2) (h.setting 0)

theorem mac (h : SamePort s t d) : t.ethMac d = s.ethMac d := by
  unfold State.ethMac
  rw [h.setting, h.setting]

theorem canSend (h : SamePort s t d) (g : CanSend s d) : CanSend t d := by
  refine ⟨?_, fun a ha => g.fresh a (h.sa ▸ ha)⟩
  unfold State.secReady
  rw [h.ctrl, h.sa]
  exact g.ready

theorem sentOf (h : SamePort s t d) (f : TxFrame) (link : Option LinkHdr) : t.sentOf d f link = s.sentOf d f link := by
  have hpn : ∀ v : State, (v.nextPn d).1 = (if v.ethCtrl d 4 then v.txSa d else none).map fun a => (a, a.pn + 1) := fun v => by
    unfold State.nextPn
    split
    · rename_i a ha
      rw [ha]
      rfl
    · rename_i hn
      rw [hn]
      rfl
  have hsame : (t.nextPn d).1 = (s.nextPn d).1 := by rw [hpn, hpn, h.ctrl, h.sa]
  unfold State.sentOf
  rw [hsame, h.mac]

theorem ctlOf (h : SamePort s t d) (ha : (t.wire d 0).ack = (s.wire d 0).ack) (kind width group : Nat) : t.ctlOf d kind width group = s.ctlOf d kind width group := by
  unfold State.ctlOf
  rw [ha]
  exact h.sentOf _ _

end SamePort

/-! ## A frame sent -/

/-- A port after a change of its associations alone. -/
structure SameEth (x y : Eth) : Prop where
  eq : y = { x with sas := y.sas }

/-- A port whose transmit association has numbered one more frame. -/
def Eth.numbered (a : Sa) (e : Eth) : Eth := { e with sas := mapIf (fun x => x.tx && x.an == a.an) (fun x => { x with pn := a.pn + 1 }) e.sas }

theorem modEth_sameEth (s : State) (d : Nat) {f : Eth → Eth} (h : ∀ e, SameEth e (f e)) : SameEth (s.eth d) ((s.modEth d f).eth d) := by
  rw [eth_modEth s d f fun e => by rw [(h e).eq]]
  exact h _

/-- The state in which a rekey of port `d` has been reported. -/
def State.rekeyed (s : State) (d : Nat) : State := ({ s with grd := { s.grd with rekey := addNew d s.grd.rekey } } : State).setAlert 4 true

theorem nextPn_some {s : State} {d : Nat} {a : Sa} (h : (if s.ethCtrl d 4 then s.txSa d else none) = some a) :
    s.nextPn d = (some (a, a.pn + 1), if a.pn + 1 > 2 ^ 62 then (s.modEth d (Eth.numbered a)).rekeyed d else s.modEth d (Eth.numbered a)) := by
  unfold State.nextPn
  rw [h]
  rfl

theorem nextPn_none {s : State} {d : Nat} (h : (if s.ethCtrl d 4 then s.txSa d else none) = none) : s.nextPn d = (none, s) := by
  unfold State.nextPn
  rw [h]

theorem nextPn_does {s : State} {d : Nat} (h : CanSend s d) : OnlyLinks s (s.nextPn d).2 := by
  cases ha : (if s.ethCtrl d 4 then s.txSa d else none) with
  | none =>
    rw [nextPn_none ha]
    exact .refl s
  | some a =>
    have hsa : s.txSa d = some a := by
      split at ha
      · exact ha
      · cases ha
    have hpn := h.fresh a hsa
    rw [nextPn_some ha, if_neg (by omega)]
    exact .modEth s d _

/-- Reporting a rekey leaves ports, links and counters. -/
theorem rekeyed_frame (s : State) (d : Nat) : (s.rekeyed d).eths = s.eths ∧ (s.rekeyed d).wires = s.wires ∧ (s.rekeyed d).ctrs = s.ctrs := by
  unfold State.rekeyed State.setAlert
  dsimp only
  split
  · exact ⟨rfl, rfl, rfl⟩
  · exact ⟨rfl, rfl, rfl⟩

theorem numbered_frame (s : State) (d : Nat) (a : Sa) : SameEth (s.eth d) ((s.modEth d (Eth.numbered a)).eth d) ∧ (s.modEth d (Eth.numbered a)).wires = s.wires ∧
    (s.modEth d (Eth.numbered a)).ctrs = s.ctrs := by
  refine ⟨modEth_sameEth s d fun _ => ⟨rfl⟩, ?_⟩
  obtain ⟨l, hl⟩ := modEth_state s d (Eth.numbered a)
  rw [hl]
  exact ⟨rfl, rfl⟩

theorem nextPn_frame (s : State) (d : Nat) : SameEth (s.eth d) ((s.nextPn d).2.eth d) ∧ (s.nextPn d).2.wires = s.wires ∧ (s.nextPn d).2.ctrs = s.ctrs := by
  cases ha : (if s.ethCtrl d 4 then s.txSa d else none) with
  | none =>
    rw [nextPn_none ha]
    exact ⟨⟨rfl⟩, rfl, rfl⟩
  | some a =>
    obtain ⟨he, hw, hc⟩ := numbered_frame s d a
    rw [nextPn_some ha]
    dsimp only
    split
    · obtain ⟨he', hw', hc'⟩ := rekeyed_frame (s.modEth d (Eth.numbered a)) d
      refine ⟨?_, hw'.trans hw, hc'.trans hc⟩
      unfold State.eth at he ⊢
      rw [he']
      exact he
    · exact ⟨he, hw, hc⟩

section
variable {s : State} {d : Nat}

theorem sendFrame_eq (h : s.secReady d = true) (f : TxFrame) (link : Option LinkHdr) :
    s.sendFrame d f link = ((s.nextPn d).2.bump d (ethCnt 1) 1).emit (s.sentOf d f link) := if_neg (by simp [h])

/-- Whether a frame leaves or not, the port keeps all but its associations, and the links are as they were. -/
theorem sendFrame_frame (s : State) (d : Nat) (f : TxFrame) (link : Option LinkHdr) : SameEth (s.eth d) ((s.sendFrame d f link).eth d) ∧
    (s.sendFrame d f link).wires = s.wires ∧ ∀ e o, regKey e o ≠ regKey d (ethCnt 1) → (s.sendFrame d f link).ctr e o = s.ctr e o := by
  cases h : s.secReady d with
  | false =>
    rw [show s.sendFrame d f link = s from if_pos (by simp [h])]
    exact ⟨⟨rfl⟩, rfl, fun _ _ _ => rfl⟩
  | true =>
    rw [sendFrame_eq h]
    obtain ⟨he, hw, hc⟩ := nextPn_frame s d
    exact ⟨he, hw, fun e o ho => (State.ctr_bump_other (s.nextPn d).2 _ _ _ _ _ ho).trans (State.ctr_congr hc _ _)⟩

theorem sendFrame_wire (s : State) (d : Nat) (f : TxFrame) (link : Option LinkHdr) (e u : Nat) : (s.sendFrame d f link).wire e u = s.wire e u := by
  unfold State.wire
  rw [(sendFrame_frame s d f link).2.1]

/-- A port that can send sends: the frame is counted and leaves, and nothing else but the port's associations changes. -/
theorem sendFrame_does (h : CanSend s d) (f : TxFrame) (link : Option LinkHdr) : PortOnly s (s.sendFrame d f link) ∧
    (s.sendFrame d f link).out = s.out ++ [s.sentOf d f link] ∧ (s.sendFrame d f link).ctr d (ethCnt 1) = Nat.min ctrMax (s.ctr d (ethCnt 1) + 1) := by
  have hlinks := nextPn_does h
  rw [sendFrame_eq h.ready]
  refine ⟨((PortOnly.of_links hlinks).trans (.bump _ _ _ _)).trans (.emit _ _), congrArg (· ++ _) ?_, (State.ctr_bump_same (s.nextPn d).2 _ _ _).trans ?_⟩
  · show (s.nextPn d).2.out = s.out
    rw [hlinks.eq]
  · rw [State.ctr_congr hlinks.ctrs]

/-- A control frame leaves with the acknowledgement that the link owes. -/
theorem ximelCtl_does (h : CanSend s d) (kind width group : Nat) : PortOnly s (s.ximelCtl d kind width group 0) ∧
    (s.ximelCtl d kind width group 0).out = s.out ++ [s.ctlOf d kind width group] := by
  have hport := SamePort.modWire s d d 0 fun l => { l with owed := false }
  obtain ⟨honly, hout, -⟩ := sendFrame_does (hport.canSend h) ⟨7, 0, false, none, .ctl⟩ (some ⟨kind, 0, (s.wire d 0).ack, width, group, 0, 0⟩)
  refine ⟨(PortOnly.modWire s d 0 _).trans honly, hout.trans ?_⟩
  rw [hport.sentOf]
  refine congrArg (· ++ _) ?_
  obtain ⟨l, hl⟩ := modWire_state s d 0 fun l => { l with owed := false }
  rw [hl]

theorem ximelCtl_frame (s : State) (d kind width group etype : Nat) : SameEth (s.eth d) ((s.ximelCtl d kind width group etype).eth d) ∧
    (s.ximelCtl d kind width group etype).wire d 0 = { s.wire d 0 with owed := false } ∧
    ∀ e o, regKey e o ≠ regKey d (ethCnt 1) → (s.ximelCtl d kind width group etype).ctr e o = s.ctr e o := by
  obtain ⟨he, -, hc⟩ := sendFrame_frame (s.modWire d 0 fun l => { l with owed := false }) d ⟨7, 0, false, none, .ctl⟩
    (some ⟨kind, 0, (s.wire d 0).ack, width, group, 0, etype⟩)
  refine ⟨?_, ?_, fun e o ho => (hc e o ho).trans ?_⟩
  · rw [modWire_eth] at he
    exact he
  · exact (sendFrame_wire _ d _ _ d 0).trans (wire_modWire s d 0 (fun l => { l with owed := false }) fun l hd hu => ⟨hd, hu⟩)
  · exact State.ctr_congr (OnlyLinks.modWire s d 0 _).ctrs e o

end

/-! ## Error counters of a port -/

theorem frameBroken_counter {s : State} {d i : Nat} {f : Frame} (h : s.frameBroken d f = some i) : regKey d (ethCnt i) ≠ regKey d (ethCnt 5) := by
  have hi : i = 6 ∨ i = 2 ∨ i = 3 ∨ i = 4 := by
    unfold State.frameBroken at h
    generalize s.ethMaxfrm d + (if s.ximelOn d then 8 else 0) = top at h
    split at h
    · cases h
      exact .inl rfl
    · split at h
      · cases h
        exact .inr (.inl rfl)
      · split at h
        · cases h
          exact .inr (.inr (.inl rfl))
        · split at h
          · cases h
            exact .inr (.inr (.inr rfl))
          · cases h
  unfold regKey ethCnt Reg.ethCntLo
  omega


theorem ethErr_below {s : State} {d i n : Nat} (h : s.ctr d (ethCnt i) + n < s.regN d (Reg.ethErrLimit i)) :
    s.ethErr d i n = s.setCtr d (ethCnt i) (s.ctr d (ethCnt i) + n) := by
  have hmin : Nat.min (s.regN d (Reg.ethErrLimit i)) (s.ctr d (ethCnt i) + n) = s.ctr d (ethCnt i) + n := Nat.min_eq_right h.le
  refine (if_neg (by omega)).trans ?_
  rw [hmin]
  refine if_neg ?_
  rw [State.ctr_setCtr_same]
  omega

/-! ## Links -/

theorem wire_is (s : State) (d u : Nat) : (s.wire d u).d = d ∧ (s.wire d u).unit = u := by
  unfold State.wire
  cases h : s.wires.find? fun l => l.d == d && l.unit == u with
  | none => exact ⟨rfl, rfl⟩
  | some l => simpa using List.find?_some h

/-- A link that has been replaced by one of the same port and unit. -/
theorem wire_replaced (s : State) {d u : Nat} {l : Link} (hd : l.d = d) (hu : l.unit = u) : (s.modWire d u fun _ => l).wire d u = l :=
  wire_modWire s d u (fun _ => l) fun _ _ _ => ⟨hd, hu⟩

theorem wire_acked (s : State) (d u ack : Nat) : (s.modWire d u fun l => l.acked ack).wire d u = (s.wire d u).acked ack :=
  wire_modWire s d u _ fun _ hd hu => ⟨hd, hu⟩

theorem take_next {l : Link} {seq : Nat} (h : seq % 4096 = l.expect) :
    l.take seq true = (true, false, { l with expect := (l.expect + 1) % 4096, owed := true, nakked := false }) := if_pos (by simp [h])

theorem take_other {l : Link} {seq : Nat} (h : seq % 4096 ≠ l.expect) : l.take seq true = (false, !l.nakked, { l with nakked := true }) :=
  if_neg (by simp [h])

theorem take_broken (l : Link) (seq : Nat) : l.take seq false = (false, !l.nakked, { l with nakked := true }) := if_neg (by simp)

section
variable {s : State} {d : Nat}

theorem gone7_none (h : (s.eth d).retrain = none) (fs : List TxFrame) : s.gone7 d fs = s := by
  unfold State.gone7
  rw [h]

theorem ximelAck_eq (h : (s.eth d).retrain = none) (ack : Nat) : s.ximelAck d ack = s.modWire d 0 fun l => l.acked ack :=
  gone7_none ((congrArg Eth.retrain (modWire_eth s d 0 d _)).trans h) _

theorem ximelResend_eq (hheld : (s.wire d 0).held ≠ []) (hworn : (s.wire d 0).worn = false) : s.ximelResend d = s.modWire d 0 Link.resend :=
  (if_neg (by simp [hheld])).trans (if_neg (by simp [hworn]))

theorem wire_resend (s : State) (d u : Nat) : (s.modWire d u Link.resend).wire d u = (s.wire d u).resend := wire_modWire s d u _ fun _ hd hu => ⟨hd, hu⟩

/-! ## Numbered frames received -/

/-- What a numbered frame that is not taken makes of a port: the link is marked, and a NAK leaves unless one has. -/
def State.nakFrame (s : State) (d : Nat) : State :=
  let l := s.wire d 0
  let t := s.modWire d 0 fun _ => { l with nakked := true }
  if !l.nakked then t.ximelCtl d 2 0 0 0 else t

theorem nakFrame_marks (h : CanSend s d) : ((s.nakFrame d).wire d 0).expect = (s.wire d 0).expect ∧ ((s.nakFrame d).wire d 0).nakked = true ∧
    ((s.nakFrame d).wire d 0).held = (s.wire d 0).held ∧ ((s.nakFrame d).eth d).rx = (s.eth d).rx ∧ PortOnly s (s.nakFrame d) ∧
    (s.nakFrame d).out = s.out ++ if (s.wire d 0).nakked then [] else [s.ctlOf d 2 0 0] := by
  obtain ⟨hd, hu⟩ := wire_is s d 0
  have hmark := wire_replaced s (l := { s.wire d 0 with nakked := true }) hd hu
  have hport := SamePort.modWire s d d 0 fun _ => { s.wire d 0 with nakked := true }
  have honly := PortOnly.modWire s d 0 fun _ => { s.wire d 0 with nakked := true }
  have hrx : ((s.modWire d 0 fun _ => { s.wire d 0 with nakked := true }).eth d).rx = (s.eth d).rx := by rw [modWire_eth]
  have hout : (s.modWire d 0 fun _ => { s.wire d 0 with nakked := true }).out = s.out := (OnlyLinks.modWire s d 0 _).out
  unfold State.nakFrame
  dsimp only
  generalize s.modWire d 0 (fun _ => { s.wire d 0 with nakked := true }) = v at *
  cases hn : (s.wire d 0).nakked with
  | true =>
    rw [if_neg (by simp)]
    exact ⟨by rw [hmark], by rw [hmark], by rw [hmark], hrx, honly, by rw [hout]; simp⟩
  | false =>
    rw [if_pos (by simp)]
    obtain ⟨hctl, hctlOut⟩ := ximelCtl_does (hport.canSend h) 2 0 0
    obtain ⟨heth, hwire, -⟩ := ximelCtl_frame v d 2 0 0 0
    refine ⟨by rw [hwire, hmark], by rw [hwire, hmark], by rw [hwire, hmark], ?_, honly.trans hctl, ?_⟩
    · rw [heth.eq]
      exact hrx
    · rw [hctlOut, hout, hport.ctlOf (by rw [hmark]; rfl)]
      simp

/-- A numbered frame on the link, `t` being the state once its drop is counted or its acknowledgement taken. -/
theorem ximelData_eq {t : State} {seq ack p : Nat} {f : Frame} {b : Option Nat} (hon : s.ximelOn d = true) (hdeaf : s.deaf d = false) (hb : s.frameBroken d f = b)
    (ht : (if b.isNone then (s.countBroken d f b).ximelAck d ack else s.countBroken d f b) = t) (hont : t.ximelOn d = true) :
    s.ximelData d seq ack p f =
      let x := (t.wire d 0).take seq b.isNone
      let u := t.modWire d 0 fun _ => x.2.2
      if x.1 then u.deliver d p { f with len := f.len - 10 } else if x.2.1 then u.ximelCtl d 2 0 0 0 else u := by
  unfold State.ximelData
  rw [if_neg (by simp [hon, hdeaf]), hb]
  dsimp only
  rw [ht, if_neg (by simp [hont])]

theorem ximelOn_acked (s : State) (d ack : Nat) : (s.modWire d 0 fun l => l.acked ack).ximelOn d = s.ximelOn d := (OnlyLinks.modWire s d 0 _).rbit _ _ _

theorem ximelData_next {seq ack p : Nat} {f : Frame} (hon : s.ximelOn d = true) (hdeaf : s.deaf d = false) (hok : s.frameBroken d f = none)
    (hret : (s.eth d).retrain = none) (hseq : seq % 4096 = (s.wire d 0).expect) :
    s.ximelData d seq ack p f = ((s.modWire d 0 fun l => l.acked ack).modWire d 0 fun _ =>
      { (s.wire d 0).acked ack with expect := ((s.wire d 0).expect + 1) % 4096, owed := true, nakked := false }).deliver d p { f with len := f.len - 10 } := by
  rw [ximelData_eq hon hdeaf hok (ximelAck_eq hret ack) ((ximelOn_acked s d ack).trans hon), wire_acked, show (none : Option Nat).isNone = true from rfl,
    take_next (by exact hseq)]
  rfl

theorem ximelData_out {seq ack p : Nat} {f : Frame} (hon : s.ximelOn d = true) (hdeaf : s.deaf d = false) (hok : s.frameBroken d f = none)
    (hret : (s.eth d).retrain = none) (hseq : seq % 4096 ≠ (s.wire d 0).expect) :
    s.ximelData d seq ack p f = (s.modWire d 0 fun l => l.acked ack).nakFrame d := by
  rw [ximelData_eq hon hdeaf hok (ximelAck_eq hret ack) ((ximelOn_acked s d ack).trans hon), show (none : Option Nat).isNone = true from rfl,
    take_other (by rw [wire_acked]; exact hseq)]
  rfl

theorem ximelData_broken {seq ack p i : Nat} {f : Frame} (hon : s.ximelOn d = true) (hdeaf : s.deaf d = false) (hbad : s.frameBroken d f = some i)
    (hlim : s.ctr d (ethCnt i) + (if i = 6 then f.fecUncorr else 1) < s.regN d (Reg.ethErrLimit i)) :
    s.ximelData d seq ack p f = (s.setCtr d (ethCnt i) (s.ctr d (ethCnt i) + if i = 6 then f.fecUncorr else 1)).nakFrame d := by
  rw [ximelData_eq hon hdeaf hbad (ethErr_below hlim) (by exact hon), show (some i).isNone = false from rfl, take_broken]
  rfl

end

/-! ## The events of a Ximel Link -/

section
variable {s : State} {d seq ack prio : Nat} {f : Frame}

theorem ximelDataReceive_exec (hd : DieUp s d) (hon : s.receives d = true) :
    exec (.ximelDataReceive d seq ack ⟨prio, f⟩) s = .next ((s.bump d (ethCnt 5) f.fecCorr).ximelData d seq ack prio f) :=
  (onDie_eq hd).trans (congrArg _ (if_pos hon))

/-- What a control frame that passes rows 5 and 6 runs on: the packet number is noted, and on an active link its acknowledgement taken. -/
def State.ctlTaken (s : State) (d : Nat) (x : LinkCtl) : State :=
  if s.ximelOn d then (s.notePn d x.macsec).modWire d 0 fun l => l.acked x.ack else s.notePn d x.macsec

theorem notePn_links (s : State) (d : Nat) (m : Option (Nat × Nat × Bool)) : OnlyLinks s (s.notePn d m) := by
  unfold State.notePn
  split
  · exact .refl s
  · exact .modEth s d _

theorem notePn_wire (s : State) (d e u : Nat) (m : Option (Nat × Nat × Bool)) : (s.notePn d m).wire e u = s.wire e u := by
  unfold State.notePn
  split
  · rfl
  · exact modEth_wire s d e u _

theorem notePn_eth (s : State) (d : Nat) (m : Option (Nat × Nat × Bool)) : SameEth (s.eth d) ((s.notePn d m).eth d) := by
  unfold State.notePn
  split
  · exact ⟨rfl⟩
  · exact modEth_sameEth s d fun _ => ⟨rfl⟩

theorem notePn_retrain (s : State) (d : Nat) (m : Option (Nat × Nat × Bool)) : ((s.notePn d m).eth d).retrain = (s.eth d).retrain := by
  rw [(notePn_eth s d m).eq]

/-- Rows 5 and 6 passed, the acknowledgement of a control frame is taken before its effect. -/
theorem ctlIn_runs {x : LinkCtl} (h : CtlHeard s d x) (act : State → State) : s.ctlIn d x act = act (s.ctlTaken d x) := by
  have hret : ((s.notePn d x.macsec).eth d).retrain = none := (notePn_retrain s d x.macsec).trans h.settled
  have hon : (s.notePn d x.macsec).ximelOn d = s.ximelOn d := (notePn_links s d x.macsec).rbit _ _ _
  refine (if_neg (by simp [h.on])).trans ((if_neg (by simp [h.here])).trans ((if_neg (by simp [h.secure])).trans ?_))
  show act (if (s.notePn d x.macsec).ximelOn d = true then (s.notePn d x.macsec).ximelAck d x.ack else s.notePn d x.macsec) = _
  rw [ximelAck_eq hret, hon]
  rfl

theorem ctlTaken_links (s : State) (d : Nat) (x : LinkCtl) : OnlyLinks s (s.ctlTaken d x) := by
  unfold State.ctlTaken
  split
  · exact (notePn_links s d x.macsec).trans (.modWire _ d 0 _)
  · exact notePn_links s d x.macsec

theorem ctlTaken_wire {x : LinkCtl} (hon : s.ximelOn d = true) : (s.ctlTaken d x).wire d 0 = (s.wire d 0).acked x.ack := by
  rw [State.ctlTaken, if_pos hon, wire_acked, notePn_wire]

theorem ximelReplay_next (hd : DieUp s d) (hrx : s.receives d = true) (hon : s.ximelOn d = true) (hdeaf : s.deaf d = false) (hok : s.frameBroken d f = none)
    (hret : (s.eth d).retrain = none) (hseq : seq % 4096 = (s.wire d 0).expect) :
    ∃ u : State, exec (.ximelDataReceive d seq ack ⟨prio, f⟩) s = .next (u.deliver d prio { f with len := f.len - 10 }) ∧
      (u.wire d 0).expect = ((s.wire d 0).expect + 1) % 4096 ∧ (u.wire d 0).owed = true ∧ (u.wire d 0).nakked = false ∧
      (u.wire d 0).held = (s.wire d 0).held.filter (fun h => !ackCovers ack h.seq) ∧ SameMem s u ∧ u.regs = s.regs ∧ u.eths = s.eths ∧ u.out = s.out := by
  let v := s.bump d (ethCnt 5) f.fecCorr
  obtain ⟨hwd, hwu⟩ := wire_is s d 0
  have hw := wire_replaced (v.modWire d 0 fun l => l.acked ack) (d := d) (u := 0)
    (l := { (v.wire d 0).acked ack with expect := ((v.wire d 0).expect + 1) % 4096, owed := true, nakked := false }) hwd hwu
  refine ⟨_, (ximelDataReceive_exec hd hrx).trans (congrArg _ (ximelData_next (s := v) hon hdeaf hok hret hseq)), ?_⟩
  rw [hw]
  obtain ⟨l, hl⟩ := modWire_state v d 0 fun l => l.acked ack
  rw [hl]
  obtain ⟨l', hl'⟩ := modWire_state ({ v with wires := l } : State) d 0
    fun _ => { (v.wire d 0).acked ack with expect := ((v.wire d 0).expect + 1) % 4096, owed := true, nakked := false }
  rw [hl']
  exact ⟨rfl, rfl, rfl, rfl, .of_eq rfl rfl, rfl, rfl, rfl⟩

theorem ximelReplay_out (hd : DieUp s d) (hrx : s.receives d = true) (hon : s.ximelOn d = true) (hdeaf : s.deaf d = false) (hok : s.frameBroken d f = none)
    (hret : (s.eth d).retrain = none) (hseq : seq % 4096 ≠ (s.wire d 0).expect) (hcan : CanSend s d) : Does (.ximelDataReceive d seq ack ⟨prio, f⟩) s fun t =>
      (t.wire d 0).expect = (s.wire d 0).expect ∧ (t.wire d 0).nakked = true ∧ (t.eth d).rx = (s.eth d).rx ∧ SameMem s t ∧ t.regs = s.regs ∧
      t.out = s.out ++ (if (s.wire d 0).nakked then [] else [s.ctlOf d 2 0 0]) := by
  let v := s.bump d (ethCnt 5) f.fecCorr
  let u := v.modWire d 0 fun l => l.acked ack
  have hport : SamePort s u d := (SamePort.bump s d d (ethCnt 5) f.fecCorr).trans (.modWire v d d 0 _)
  have honly : PortOnly s u := (PortOnly.bump s d (ethCnt 5) f.fecCorr).trans (.modWire v d 0 _)
  have hwire : u.wire d 0 = (s.wire d 0).acked ack := wire_acked v d 0 ack
  obtain ⟨hexp, hnak, -, hrx', honly', hout⟩ := nakFrame_marks (hport.canSend hcan)
  refine ⟨_, (ximelDataReceive_exec hd hrx).trans (congrArg _ (ximelData_out (s := v) hon hdeaf hok hret hseq)), ?_, hnak, ?_, (honly.trans honly').sameMem,
    (honly.trans honly').regs, ?_⟩
  · rw [hexp, hwire]
    rfl
  · rw [hrx', show u.eth d = v.eth d from modWire_eth v d 0 d _]
    rfl
  · rw [hout, show u.out = s.out from (OnlyLinks.modWire v d 0 _).out, hport.ctlOf (by rw [hwire]; rfl), hwire]
    rfl

theorem ximelReplay_broken {i : Nat} (hd : DieUp s d) (hrx : s.receives d = true) (hon : s.ximelOn d = true) (hdeaf : s.deaf d = false) (hcan : CanSend s d)
    (hbad : s.frameBroken d f = some i) (hlim : s.ctr d (ethCnt i) + (if i = 6 then f.fecUncorr else 1) < s.regN d (Reg.ethErrLimit i)) :
    Does (.ximelDataReceive d seq ack ⟨prio, f⟩) s fun t => (t.wire d 0).expect = (s.wire d 0).expect ∧ (t.wire d 0).nakked = true ∧
      (t.wire d 0).held = (s.wire d 0).held ∧ (t.eth d).rx = (s.eth d).rx ∧ SameMem s t ∧ t.regs = s.regs := by
  let v := s.bump d (ethCnt 5) f.fecCorr
  have hctr : v.ctr d (ethCnt i) = s.ctr d (ethCnt i) := State.ctr_bump_other s d _ _ _ _ (frameBroken_counter hbad)
  let u := v.setCtr d (ethCnt i) (v.ctr d (ethCnt i) + if i = 6 then f.fecUncorr else 1)
  have hport : SamePort s u d := (SamePort.bump s d d (ethCnt 5) f.fecCorr).trans (.setCtr v d d (ethCnt i) _)
  have honly : PortOnly s u := (PortOnly.bump s d (ethCnt 5) f.fecCorr).trans (.setCtr v d (ethCnt i) _)
  obtain ⟨hexp, hnak, hheld, hrx', honly', -⟩ := nakFrame_marks (hport.canSend hcan)
  exact ⟨_, (ximelDataReceive_exec hd hrx).trans (congrArg _ (ximelData_broken (s := v) hon hdeaf hbad (by rw [hctr]; exact hlim))), hexp, hnak, hheld, hrx',
    (honly.trans honly').sameMem, (honly.trans honly').regs⟩

theorem ximelNakReceive_does {x : LinkCtl} (h : CtlHeard s d x) (hon : s.ximelOn d = true) (hheld : ((s.wire d 0).acked x.ack).held ≠ [])
    (hworn : ((s.wire d 0).acked x.ack).worn = false) : Does (.ximelNakReceive d x) s fun t =>
      t.wire d 0 = ((s.wire d 0).acked x.ack).resend ∧ t.ctrs = s.ctrs ∧ t.regs = s.regs ∧ SameMem s t := by
  have hwire := ctlTaken_wire (x := x) hon
  have hlinks := ctlTaken_links s d x
  rw [← hwire] at hheld hworn
  have hnak : (s.ctlTaken d x).ximelNak d = (s.ctlTaken d x).modWire d 0 Link.resend :=
    (if_pos ((hlinks.rbit _ _ _).trans hon)).trans (ximelResend_eq hheld hworn)
  refine ⟨_, (onDie_eq h.die).trans (congrArg _ ((ctlIn_runs h _).trans hnak)), ?_⟩
  have hall := hlinks.trans (.modWire (s.ctlTaken d x) d 0 Link.resend)
  exact ⟨(wire_resend _ d 0).trans (by rw [hwire]), hall.ctrs, hall.regs, hall.sameMem⟩

theorem ximelReplayTimeout_exec (hd : DieUp s d) (hon : s.ximelOn d = true) : exec (.ximelReplayTimeout d) s = .next (s.ximelResend d) :=
  (onDie_eq hd).trans (congrArg _ (if_pos hon))

end

end Sys2Proof.Machine

open Sys2Proof Sys2Proof.Machine

/-- Settles O25: what is not taken is NAKed once (`nakFrame`), what is acknowledged is released, and what is held is sent again in order. -/
theorem ximelReplay : Obligations.XimelReplay := by
  unfold Obligations.XimelReplay
  refine ⟨fun s d seq ack prio f hd hrx hon hdeaf hok hret => ⟨fun hseq => ximelReplay_next hd hrx hon hdeaf hok hret hseq,
      fun hseq hcan => ximelReplay_out hd hrx hon hdeaf hok hret hseq hcan⟩,
    fun s d seq ack prio i f hd hrx hon hdeaf hcan hbad hlim => ximelReplay_broken hd hrx hon hdeaf hcan hbad hlim, fun s d hd hcan hon howed => ?_,
    fun s d hd hcan hon hnak => ?_, fun s d x h hon hheld hworn => ximelNakReceive_does h hon hheld hworn, fun s d hd hon hheld hworn => ?_,
    fun s d hd hon hheld hworn => ?_⟩
  · obtain ⟨honly, hout⟩ := ximelCtl_does hcan 1 0 0
    refine ⟨_, (onDie_eq hd).trans (congrArg _ (if_pos (by simp [hon, howed]))), hout, ?_, honly.regs, honly.sameMem⟩
    rw [(ximelCtl_frame s d 1 0 0 0).2.1]
  · obtain ⟨honly, hout⟩ := ximelCtl_does hcan 2 0 0
    exact ⟨_, (onDie_eq hd).trans (congrArg _ (if_pos (by simp [hon, hnak]))), hout, honly.regs, honly.sameMem⟩
  · refine ⟨_, (ximelReplayTimeout_exec hd hon).trans (congrArg _ (ximelResend_eq hheld hworn)), wire_resend s d 0, ?_⟩
    obtain ⟨l, hl⟩ := modWire_state s d 0 Link.resend
    rw [hl]
  · exact (ximelReplayTimeout_exec hd hon).trans (congrArg _ ((if_neg (by simp [hheld])).trans (if_pos hworn)))

end

section
/-! PROOF. Frames that a port receives: the checks of Table 09-3 in order, and where a frame that passes them goes. -/

namespace Sys2Proof.Machine

/-! ## A range reached -/

/-- Reaching a range counts accesses, and may ask the host. -/
theorem reach_frame (s : State) (p : Nat) (wr : Bool) (a len : Nat) : (∃ c n o, s.reach p wr a len = { s with ctrs := c, freeCtr := n, out := o }) ∧
    ∀ d o, QuietCtr o → (s.reach p wr a len).ctr d o = s.ctr d o := by
  obtain ⟨c, n, hacc⟩ := s.access_state wr a len
  obtain ⟨o, hreq⟩ := hostReq_state (s.access wr a len) (some p) wr true a len
  have h : Posts s (s.reach p wr a len) := (Posts.access s wr a len).trans (Posts.hostReq _ (some p) wr true a len)
  refine ⟨⟨c, n, o, ?_⟩, h.ctr⟩
  unfold State.reach
  rw [hreq, hacc]

section
variable {s : State} {d : Nat} {f : Frame}

/-! ## The port once a frame has passed rows 1 to 6 -/

theorem notePn_port (s : State) (d : Nat) (m : Option (Nat × Nat × Bool)) : SamePort s (s.notePn d m) d := by
  have hlinks := notePn_links s d m
  have heff : ((s.notePn d m).eth d).eff = (s.eth d).eff := by rw [(notePn_eth s d m).eq]
  refine ⟨ethSetting_congr hlinks.regs hlinks.part heff, ?_⟩
  have hreg : (s.notePn d m).regN d Reg.ethSecCtrl = s.regN d Reg.ethSecCtrl := State.regN_congr hlinks.regs hlinks.part d _
  have hfind : ∀ an, (((s.notePn d m).eth d).sas.find? fun a => a.tx && a.an == an) = (s.eth d).sas.find? fun a => a.tx && a.an == an := fun an => by
    unfold State.notePn
    split
    · rfl
    · rw [eth_modEth s d (fun e => { e with sas := mapIf _ _ e.sas }) fun _ => rfl]
      refine find_mapIf_other _ _ _ (fun a ha => ?_) _
      have htx : a.tx = false := by
        simp only [Bool.and_eq_true, Bool.not_eq_true'] at ha
        exact ha.1
      simp [htx]
  unfold State.txSa State.rbit State.rf
  rw [hreg]
  simp only [hfind]

theorem heard_port (s : State) (d : Nat) (f : Frame) : SamePort s (s.heard d f) d := (SamePort.bump s d d (ethCnt 5) f.fecCorr).trans (notePn_port _ d f.macsec)

theorem heard_links (s : State) (d : Nat) (f : Frame) : OnlyLinks (s.bump d (ethCnt 5) f.fecCorr) (s.heard d f) := notePn_links _ d f.macsec

theorem heard_frame (s : State) (d : Nat) (f : Frame) : PortOnly s (s.heard d f) := (PortOnly.bump s d (ethCnt 5) f.fecCorr).trans (.of_links (heard_links s d f))

theorem heard_eth (s : State) (d : Nat) (f : Frame) : SameEth (s.eth d) ((s.heard d f).eth d) := notePn_eth (s.bump d (ethCnt 5) f.fecCorr) d f.macsec

theorem heard_ctr {i : Nat} (h : i ≠ 5) : (s.heard d f).ctr d (ethCnt i) = s.ctr d (ethCnt i) :=
  (State.ctr_congr (heard_links s d f).ctrs _ _).trans (State.ctr_bump_other _ _ _ _ _ _ (by unfold regKey ethCnt Reg.ethCntLo; omega))

/-- What MACsec adds to a frame changes its length alone. -/
theorem unprotect_eq (s : State) (d : Nat) (f : Frame) : ∃ n, s.unprotect d f = { f with len := n } := by
  unfold State.unprotect
  split
  · exact ⟨_, rfl⟩
  · exact ⟨f.len, rfl⟩

theorem unprotect_congr {t : State} (h : SamePort s t d) (f : Frame) : t.unprotect d f = s.unprotect d f := by
  unfold State.unprotect
  rw [h.ctrl]

/-! ## Frames that fail a check -/

theorem frameReceive_exec (hd : DieUp s d) (hrx : s.receives d = true) :
    exec (.frameReceive d f) s = .next ((s.bump d (ethCnt 5) f.fecCorr).frameIn d f) := (onDie_eq hd).trans (congrArg _ (if_pos hrx))

theorem frameIn_broken {i : Nat} (hbad : s.frameBroken d f = some i) (hoff : s.ximelOn d = false)
    (hlim : s.ctr d (ethCnt i) + (if i = 6 then f.fecUncorr else 1) < s.regN d (Reg.ethErrLimit i)) :
    s.frameIn d f = s.setCtr d (ethCnt i) (s.ctr d (ethCnt i) + if i = 6 then f.fecUncorr else 1) := by
  unfold State.frameIn
  rw [hbad]
  exact (if_neg (by simp [hoff])).trans (ethErr_below hlim)

theorem frameIn_intact (hok : s.frameBroken d f = none) (hplain : f.etype ≠ 0x88B5) : s.frameIn d f = s.deliver d (framePrio f) f := by
  unfold State.frameIn
  rw [hok]
  exact if_neg hplain

theorem frameReceive_broken {i : Nat} (hd : DieUp s d) (hrx : s.receives d = true) (hbad : s.frameBroken d f = some i) (hoff : s.ximelOn d = false)
    (hlim : s.ctr d (ethCnt i) + (if i = 6 then f.fecUncorr else 1) < s.regN d (Reg.ethErrLimit i)) :
    exec (.frameReceive d f) s = .next ((s.bump d (ethCnt 5) f.fecCorr).setCtr d (ethCnt i) (s.ctr d (ethCnt i) + if i = 6 then f.fecUncorr else 1)) := by
  have hctr : (s.bump d (ethCnt 5) f.fecCorr).ctr d (ethCnt i) = s.ctr d (ethCnt i) := State.ctr_bump_other s d _ _ _ _ (frameBroken_counter hbad)
  refine (frameReceive_exec hd hrx).trans (congrArg _ ((frameIn_broken (s := s.bump d (ethCnt 5) f.fecCorr) hbad hoff ?_).trans ?_))
  · rw [hctr]
    exact hlim
  · rw [hctr]

theorem deliver_elsewhere {p : Nat} (h : s.addressed d (s.frameFor d f) = false) : s.deliver d p f = s.bump d (ethCnt 7) 1 := if_pos (by
  rw [show (if (f.etype = 0x8808 && f.dst = 0x0180C2000001) then s.ethMac d else f.dst) = s.frameFor d f from rfl, h]
  rfl)

theorem deliver_insecure {p : Nat} (h : s.addressed d (s.frameFor d f) = true) (hsec : s.macsecOk d f.macsec = false) : s.deliver d p f = s.ethErr d 0xA 1 :=
  (if_neg (by
    rw [show (if (f.etype = 0x8808 && f.dst = 0x0180C2000001) then s.ethMac d else f.dst) = s.frameFor d f from rfl, h]
    simp)).trans (if_pos (by simp [hsec]))

theorem deliver_placed {p : Nat} (h : s.addressed d (s.frameFor d f) = true) (hsec : s.macsecOk d f.macsec = true) :
    s.deliver d p f = (s.notePn d f.macsec).place d p ((s.notePn d f.macsec).unprotect d f) :=
  (if_neg (by
    rw [show (if (f.etype = 0x8808 && f.dst = 0x0180C2000001) then s.ethMac d else f.dst) = s.frameFor d f from rfl, h]
    simp)).trans (if_neg (by simp [hsec]))

/-- A frame that passes rows 1 to 6 is placed as rows 7 to 9 say. -/
theorem frameReceive_hears (h : Hears s d f) : exec (.frameReceive d f) s = .next ((s.heard d f).place d (framePrio f) (s.unprotect d f)) := by
  let v := s.bump d (ethCnt 5) f.fecCorr
  refine (frameReceive_exec h.die h.on).trans (congrArg _ ((frameIn_intact (s := v) h.intact h.plain).trans ((deliver_placed (s := v) h.here h.secure).trans ?_)))
  rw [unprotect_congr (notePn_port v d f.macsec)]
  rfl

/-! ## Rows 7 to 9 -/

theorem pauseIn_other (h : ∀ x, pauseOf f = some x → s.fcMode d ≠ if x.pfc then 2 else 1) : s.pauseIn d f = s.bump d (ethCnt 0xB) 1 := by
  unfold State.pauseIn
  cases hx : pauseOf f with
  | none => rfl
  | some x => exact if_pos (h x hx)

theorem place_full {p : Nat} (hp : f.etype ≠ 0x8808) (h : s.poolSize d p < s.poolUsed d p + f.len) : s.place d p f = s.ethErr d 9 1 := (if_neg hp).trans (if_pos h)

theorem place_claimed {p c : Nat} (hp : f.etype ≠ 0x8808) (h : s.poolUsed d p + f.len ≤ s.poolSize d p) (hc : s.claim d f = some c)
    (hok : c = 0x0800 → s.xtDrop d f = none) :
    s.place d p f = (s.bump d (ethCnt 0) 1).modEth d fun e => { e with rx := e.rx ++ [(c, p, f.len)] } := by
  refine (if_neg hp).trans ((if_neg (by omega)).trans ?_)
  rw [hc]
  have hnone : (if c = 0x0800 then (s.bump d (ethCnt 0) 1).xtDrop d f else none) = none := by
    split
    · rename_i h8
      exact hok h8
    · rfl
  dsimp only
  rw [hnone]

theorem place_dropped {p : Nat} (hp : f.etype ≠ 0x8808) (h : s.poolUsed d p + f.len ≤ s.poolSize d p) (hc : s.claim d f = some 0x0800)
    (hdrop : s.xtDrop d f = some 0xB) : s.place d p f = (s.bump d (ethCnt 0) 1).bump d (Reg.xtCntLo 0xB) 1 := by
  refine (if_neg hp).trans ((if_neg (by omega)).trans ?_)
  rw [hc]
  dsimp only
  rw [if_pos rfl, show (s.bump d (ethCnt 0) 1).xtDrop d f = some 0xB from hdrop]
  rfl

theorem place_unclaimed {p : Nat} (hp : f.etype ≠ 0x8808) (h : s.poolUsed d p + f.len ≤ s.poolSize d p) (hc : s.claim d f = none) :
    s.place d p f = if unclaimable f then s.unclaimed d else s.hostRx d p f := by
  refine (if_neg hp).trans ((if_neg (by omega)).trans ?_)
  rw [hc]

theorem hostRx_none {p : Nat} (h : s.heldBuf (32 * d + 31) = none) : s.hostRx d p f = s.unclaimed d := by
  unfold State.hostRx
  dsimp only
  rw [h]

/-- A held buffer that has been filled with a frame, before its descriptor ends. -/
def State.filled (s : State) (d : Nat) (w : Work) (f : Frame) : State :=
  ((s.write (w.addr 8) (frameBytes f)).reach w.part true (w.addr 8) (frameBytes f).length).bump d (ethCnt 0) 1

theorem hostRx_filled {p : Nat} {w : Work} (h : s.heldBuf (32 * d + 31) = some w) (hctrl : s.ethCtrl d 5 = true) (hon : s.ringOn (32 * d + 31) = true)
    (hrx : s.ringRx (32 * d + 31) = true) (hlen : (frameBytes f).length ≤ w.f 14 4) :
    s.hostRx d p f = (s.filled d w f).endWork w.id fun c => { c with receive := true, detail0 := p, detail1 := (frameBytes f).length } := by
  unfold State.hostRx
  dsimp only
  rw [h]
  exact if_pos (by simp [hctrl, hon, hrx, hlen])

theorem filled_does (hwf : s.memWf = true) (w : Work) (f : Frame) : Wrote s (s.filled d w f) (w.addr 8) (frameBytes f) ∧ (s.filled d w f).seq = s.seq ∧
    (s.filled d w f).regs = s.regs ∧ (s.filled d w f).ctr d (ethCnt 0) = Nat.min ctrMax (s.ctr d (ethCnt 0) + 1) := by
  obtain ⟨⟨c, n, o, hreach⟩, hctr⟩ := reach_frame (s.write (w.addr 8) (frameBytes f)) w.part true (w.addr 8) (frameBytes f).length
  have hquiet : QuietCtr (ethCnt 0) := by decide
  have hcount : (s.filled d w f).ctr d (ethCnt 0) = Nat.min ctrMax (s.ctr d (ethCnt 0) + 1) := by
    refine (State.ctr_bump_same _ _ _ _).trans ?_
    rw [hctr d _ hquiet, State.write_ctr]
  have hwrite : OnlyMem s (s.write (w.addr 8) (frameBytes f)) := .write s _ _
  have hseq : (s.write (w.addr 8) (frameBytes f)).seq = s.seq := by rw [hwrite]
  refine ⟨(wrote_write hwf (w.addr 8) (frameBytes f)).of_mem rfl rfl ?_ ?_, ?_, ?_, hcount⟩
  all_goals
    unfold State.filled
    rw [hreach]
  · rfl
  · rfl
  · exact hseq
  · exact hwrite.regs

/-! ## The port's answers -/

/-- What a heard frame is judged by is as it was before the frame. -/
structure HeardSame (s : State) (d : Nat) (f : Frame) : Prop where
  size   : ∀ p, (s.heard d f).poolSize d p = s.poolSize d p
  used   : ∀ p, (s.heard d f).poolUsed d p = s.poolUsed d p
  claim  : (s.heard d f).claim d (s.unprotect d f) = s.claim d f
  drop   : (s.heard d f).xtDrop d (s.unprotect d f) = s.xtDrop d f
  held   : ∀ r, (s.heard d f).heldBuf r = s.heldBuf r
  ring   : ∀ r, (s.heard d f).ringOn r = s.ringOn r ∧ (s.heard d f).ringRx r = s.ringRx r
  etype  : (s.unprotect d f).etype = f.etype
  refuse : unclaimable (s.unprotect d f) = unclaimable f
  pause  : pauseOf (s.unprotect d f) = pauseOf f

theorem heard_same (s : State) (d : Nat) (f : Frame) : HeardSame s d f := by
  obtain ⟨n, hn⟩ := unprotect_eq s d f
  have hrx : ((s.heard d f).eth d).rx = (s.eth d).rx := by rw [(heard_eth s d f).eq]
  have hused : ∀ p, (s.heard d f).poolUsed d p = s.poolUsed d p := fun p => by
    unfold State.poolUsed
    rw [hrx]
  obtain ⟨heq⟩ := heard_frame s d f
  refine ⟨fun p => ?_, hused, ?_, ?_, fun r => ?_, fun r => ⟨?_, ?_⟩, by rw [hn], by rw [hn]; rfl, by rw [hn]; rfl⟩
  case refine_2 =>
    rw [hn, heq]
    rfl
  case refine_3 =>
    rw [hn, heq]
    rfl
  all_goals
    rw [heq]
    rfl

end

end Sys2Proof.Machine

open Sys2Proof Sys2Proof.Machine

/-- Settles O22: `frameReceive_broken` and `deliver_elsewhere` are rows 1 to 6, and `frameReceive_hears` leaves rows 7 to 9 to `place`. -/
theorem frameReceipt : Obligations.FrameReceipt := by
  unfold Obligations.FrameReceipt
  refine ⟨⟨fun s d i f hd hrx hbad hoff hlim => frameReceive_broken hd hrx hbad hoff hlim, fun s d f hd hrx hok hplain => ⟨fun haddr => ?_, fun haddr hsec hlim => ?_⟩,
    fun s d f h => ?_⟩, fun s d f h hp hroom => ?_⟩
  · exact (frameReceive_exec hd hrx).trans (congrArg _ ((frameIn_intact (s := s.bump d (ethCnt 5) f.fecCorr) hok hplain).trans
      (deliver_elsewhere (s := s.bump d (ethCnt 5) f.fecCorr) haddr)))
  · have hctr : (s.bump d (ethCnt 5) f.fecCorr).ctr d (ethCnt 0xA) = s.ctr d (ethCnt 0xA) :=
      State.ctr_bump_other s d _ _ _ _ (by unfold regKey ethCnt Reg.ethCntLo; omega)
    refine (frameReceive_exec hd hrx).trans (congrArg _ ((frameIn_intact (s := s.bump d (ethCnt 5) f.fecCorr) hok hplain).trans
      ((deliver_insecure (s := s.bump d (ethCnt 5) f.fecCorr) haddr hsec).trans ((ethErr_below ?_).trans ?_))))
    · rw [hctr]
      exact hlim
    · rw [hctr]
  · have hs := heard_same s d f
    refine ⟨fun hp hmode => (frameReceive_hears h).trans (congrArg _ ?_), fun hp hfull hlim => (frameReceive_hears h).trans (congrArg _ ?_)⟩
    · refine (if_pos (hs.etype.trans hp)).trans (pauseIn_other fun x hx => ?_)
      rw [(heard_port s d f).fcMode]
      exact hmode x (hs.pause ▸ hx)
    · have hctr := heard_ctr (s := s) (d := d) (f := f) (i := 9) (by decide)
      refine (place_full (hs.etype.symm ▸ hp) ?_).trans ((ethErr_below ?_).trans ?_)
      · rw [hs.size, hs.used]
        exact hfull
      · rw [hctr, (heard_frame s d f).regN]
        exact hlim
      · rw [hctr]
  · have hs := heard_same s d f
    have hp' : (s.unprotect d f).etype ≠ 0x8808 := hs.etype.symm ▸ hp
    have hroom' : (s.heard d f).poolUsed d (framePrio f) + (s.unprotect d f).len ≤ (s.heard d f).poolSize d (framePrio f) := by
      rw [hs.used, hs.size]
      exact hroom
    have hctr := heard_ctr (s := s) (d := d) (f := f) (i := 0) (by decide)
    refine ⟨fun c hc hok => ?_, fun hc hdrop => ?_, fun w hc hun hheld hwork hctrl hon hring hlen hwf => ?_, fun hc hnone => ?_⟩
    · refine ⟨_, (frameReceive_hears h).trans (congrArg _ (place_claimed hp' hroom' (hs.claim.trans hc) fun h8 => hs.drop.trans (hok h8))), ?_, ?_, ?_⟩
      · refine (congrArg Eth.rx (eth_modEth ((s.heard d f).bump d (ethCnt 0) 1) d
          (fun e => { e with rx := e.rx ++ [(c, framePrio f, (s.unprotect d f).len)] }) fun _ => rfl)).trans ?_
        show ((s.heard d f).eth d).rx ++ _ = _
        rw [(heard_eth s d f).eq]
      · rw [State.ctr_congr (OnlyLinks.modEth _ d _).ctrs, State.ctr_bump_same, hctr]
      · have honly := ((heard_frame s d f).trans (.bump _ d (ethCnt 0) 1)).trans
          (.modEth _ d fun e => { e with rx := e.rx ++ [(c, framePrio f, (s.unprotect d f).len)] })
        exact ⟨honly.sameMem, honly.regs, by rw [honly.eq]⟩
    · exact (frameReceive_hears h).trans (congrArg _ (place_dropped hp' hroom' (hs.claim.trans hc) (hs.drop.trans hdrop)))
    · have hplace : (s.heard d f).place d (framePrio f) (s.unprotect d f) = _ := (place_unclaimed hp' hroom' (hs.claim.trans hc)).trans
        ((if_neg (by rw [hs.refuse, hun]; decide)).trans (hostRx_filled ((hs.held _).trans hheld) ((heard_port s d f).ctrl 5 ▸ hctrl)
          ((hs.ring _).1.trans hon) ((hs.ring _).2.trans hring) hlen))
      obtain ⟨heq⟩ := heard_frame s d f
      have hwf' : (s.heard d f).memWf = true := by
        rw [heq]
        exact hwf
      obtain ⟨hwrote, hseq, hregs, hcount⟩ := filled_does (d := d) hwf' w (s.unprotect d f)
      refine ⟨_, (frameReceive_hears h).trans (congrArg _ hplace), ?_, ?_, hcount.trans (by rw [hctr]), hregs.trans (heard_frame s d f).regs⟩
      · refine hwrote.of_mem ?_ ?_ rfl rfl
        · rw [heq]
        · rw [heq]
      · have hw : ((s.heard d f).filled d w (s.unprotect d f)).work w.id = some w := by
          unfold State.work
          rw [hseq, heq]
          exact hwork
        refine ⟨_, (work_endWork _ w.id _).trans (congrArg (Option.map _) hw), rfl, rfl⟩
    · refine (frameReceive_hears h).trans (congrArg _ ((place_unclaimed hp' hroom' (hs.claim.trans hc)).trans ?_))
      split
      · rfl
      · rename_i hun
        rw [hs.refuse] at hun
        exact hostRx_none ((hs.held _).trans (hnone.resolve_left hun))

end

section
/-! PROOF. Which frame a port sends, and what sending a fresh frame and a replay leaves. -/

namespace Sys2Proof.Machine

/-! ## The frame that leaves next -/

theorem minBy_mem {α : Type} {key : α → Nat} {l : List α} {x : α} (h : minBy key l = some x) : x ∈ l := by
  induction l generalizing x with
  | nil => cases h
  | cons a l ih =>
    unfold minBy at h
    split at h
    · cases h
      exact List.mem_cons_self
    · rename_i b hb
      split at h
      · cases h
        exact List.mem_cons_of_mem _ (ih hb)
      · cases h
        exact List.mem_cons_self

section
variable {s : State} {d : Nat} {x : TxPick}

theorem txNext_mem (h : s.txNext d = some x) : x ∈ s.txPicks d ∧ ((∃ y ∈ s.txPicks d, y.prio = 7) → x.prio = 7) := by
  unfold State.txNext at h
  split at h
  · rename_i y hy
    cases h
    exact ⟨List.mem_of_find?_eq_some hy, fun _ => by simpa using List.find?_some hy⟩
  · rename_i hnone
    refine ⟨minBy_mem h, fun ⟨y, hy, hprio⟩ => ?_⟩
    exact absurd hprio (by simpa using List.find?_eq_none.mp hnone y hy)

theorem queueHead_fresh {p i : Nat} {f : TxFrame} (h : s.queueHead d p = some (.fresh i f)) :
    s.txReady d f = true ∧ (s.eth d).txq[i]? = some f ∧ ∀ j < i, ∀ g, (s.eth d).txq[j]? = some g → g.prio ≠ f.prio := by
  unfold State.queueHead at h
  dsimp only at h
  split at h
  · cases h
  · rename_i k hk
    split at h
    · rename_i g hg
      split at h
      · rename_i hready
        cases h
        obtain ⟨hlt, hp, hbefore⟩ := List.findIdx?_eq_some_iff_getElem.mp hk
        rw [List.getElem?_eq_getElem hlt] at hg
        cases hg
        refine ⟨hready, List.getElem?_eq_getElem hlt, fun j hj g hg => ?_⟩
        have hjlt : j < (s.eth d).txq.length := hj.trans hlt
        rw [List.getElem?_eq_getElem hjlt] at hg
        cases hg
        have hpi : ((s.eth d).txq[i]'hlt).prio = p := by simpa using hp
        have hpj := hbefore j hj
        rw [hpi]
        simpa using hpj
      · cases h
    · cases h

theorem txPicks_fresh {i : Nat} {f : TxFrame} (h : TxPick.fresh i f ∈ s.txPicks d) :
    s.txReady d f = true ∧ (s.eth d).txq[i]? = some f ∧ ∀ j < i, ∀ g, (s.eth d).txq[j]? = some g → g.prio ≠ f.prio := by
  unfold State.txPicks at h
  split at h
  · cases h
  · rcases List.mem_append.mp h with h | h
    · obtain ⟨u, -, hu⟩ := List.mem_filterMap.mp h
      obtain ⟨y, -, hy⟩ := Option.map_eq_some_iff.mp hu
      cases hy
    · obtain ⟨p, -, hp⟩ := List.mem_filterMap.mp h
      exact queueHead_fresh hp

/-! ## Numbered frames sent -/

/-- A frame as it leaves with a number: on an active Ximel Link with the numbers of the wheel and the commit logic zero. -/
def TxFrame.numberedAs (f : TxFrame) (u seq ack : Nat) : TxFrame := if u = 0 then { f with item := f.item.stamp 0 0 } else { f with item := f.item.stamp seq ack }

/-- The link header of a frame with a number. -/
def TxFrame.hdrAs (f : TxFrame) (u seq ack : Nat) : Option LinkHdr := if u = 0 then some (dataHdr seq ack { f with item := f.item.stamp 0 0 }) else none

theorem sendNumbered_eq (s : State) (d u seq ack : Nat) (f : TxFrame) :
    s.sendNumbered d u seq ack f = s.sendFrame d (f.numberedAs u seq ack) (f.hdrAs u seq ack) := by
  unfold State.sendNumbered TxFrame.numberedAs TxFrame.hdrAs
  split
  · rfl
  · rfl

theorem wireUnit_ne_zero {x : TxItem} {u : Nat} (h : x.wireUnit = some u) : u ≠ 0 := by
  unfold TxItem.wireUnit at h
  split at h
  · split at h
    · cases h
    · cases h
      decide
  · split at h
    · cases h
    · cases h
      decide
  · cases h

/-- What is left of a port that has sent a frame from a state `w` that differs from `s` in ports and links alone. -/
structure HasSent (s t w : State) (d : Nat) (f : TxFrame) (link : Option LinkHdr) : Prop where
  eth   : SameEth (w.eth d) (t.eth d)
  wires : t.wires = w.wires
  only  : PortOnly s t
  out   : t.out = s.out ++ [s.sentOf d f link]
  count : t.ctr d (ethCnt 1) = Nat.min ctrMax (s.ctr d (ethCnt 1) + 1)
  ctr   : ∀ i, i ≠ 1 → t.ctr d (ethCnt i) = s.ctr d (ethCnt i)

theorem sendFrame_hasSent {w : State} (hw : OnlyLinks s w) (hport : SamePort s w d) (h : CanSend s d) (f : TxFrame) (link : Option LinkHdr) :
    HasSent s (w.sendFrame d f link) w d f link := by
  obtain ⟨honly, hout, hcount⟩ := sendFrame_does (hport.canSend h) f link
  obtain ⟨heth, hwires, hctr⟩ := sendFrame_frame w d f link
  refine ⟨heth, hwires, (PortOnly.of_links hw).trans honly, ?_, ?_, fun i hi => ?_⟩
  · rw [hout, hw.out, hport.sentOf]
  · rw [hcount, State.ctr_congr hw.ctrs]
  · rw [hctr d _ (by unfold regKey ethCnt Reg.ethCntLo; omega), State.ctr_congr hw.ctrs]

/-- A link and its port when a frame has been numbered on it. -/
theorem wire_push (s : State) (d u : Nat) (f : TxFrame) : (s.modWire d u fun l => l.push f).wire d u = (s.wire d u).push f :=
  wire_modWire s d u (fun l => l.push f) fun _ hd hu => ⟨hd, hu⟩

/-! ## A fresh frame -/

/-- A port that has taken the frame at an index out of its queues. -/
def Eth.takeTx (i : Nat) (f : TxFrame) (e : Eth) : Eth := { e.dropTx i with last := if f.prio = 7 then e.last else f.prio }

theorem takeTx_port (s : State) (d i : Nat) (f : TxFrame) : SamePort s (s.modEth d (Eth.takeTx i f)) d := .modEth s d (fun _ => rfl) (fun _ => rfl) fun _ => rfl

theorem transmit_next (hd : DieUp s d) (hup : s.portUp d = true) (hnext : s.txNext d = some x) : exec (.frameTransmit d) s = .next (match x with
    | .replay u h =>
      let s := s.modEth d fun e => { e with last := if h.f.prio = 7 then e.last else h.f.prio }
      let s := s.modWire d u fun l => l.replayed h.seq
      (s.sendNumbered d u h.seq (s.wire d u).ack h.f).countReplay d u
    | .fresh i f =>
      let s := s.modEth d (Eth.takeTx i f)
      match (if s.ximelOn d then some 0 else f.item.wireUnit) with
      | none => (s.sendFrame d f none).gone7 d [f]
      | some u =>
        let l := s.wire d u
        let s := (s.modWire d u fun l => l.push f).sendNumbered d u l.next l.ack f
        if u = 0 then s else s.gone7 d [f]) := by
  refine (onDie_eq hd).trans (congrArg _ ((if_neg (by simp [hup])).trans ?_))
  cases x with
  | replay u h =>
    dsimp only
    rw [hnext]
  | fresh i f =>
    dsimp only
    rw [hnext]
    rfl

/-- The link that numbers a frame, if any. -/
def State.numbers (s : State) (d : Nat) (f : TxFrame) : Option Nat := if s.ximelOn d then some 0 else f.item.wireUnit

theorem transmit_plain {i : Nat} {f : TxFrame} (hd : DieUp s d) (hup : s.portUp d = true) (hnext : s.txNext d = some (.fresh i f)) (hcan : CanSend s d)
    (hret : (s.eth d).retrain = none) (hno : s.numbers d f = none) :
    Does (.frameTransmit d) s fun t => HasSent s t (s.modEth d (Eth.takeTx i f)) d f none := by
  have hlinks := OnlyLinks.modEth s d (Eth.takeTx i f)
  have hsent := sendFrame_hasSent hlinks (takeTx_port s d i f) hcan f none
  refine ⟨_, (transmit_next hd hup hnext).trans (congrArg _ ?_), hsent⟩
  dsimp only
  rw [show (s.modEth d (Eth.takeTx i f)).ximelOn d = s.ximelOn d from hlinks.rbit _ _ _, show (if s.ximelOn d then some 0 else f.item.wireUnit) = none from hno]
  refine gone7_none ?_ _
  rw [hsent.eth.eq, eth_modEth s d (Eth.takeTx i f) fun _ => rfl]
  exact hret

theorem transmit_numbered {i u : Nat} {f : TxFrame} (hd : DieUp s d) (hup : s.portUp d = true) (hnext : s.txNext d = some (.fresh i f)) (hcan : CanSend s d)
    (hret : (s.eth d).retrain = none) (hu : s.numbers d f = some u) : Does (.frameTransmit d) s fun t =>
      HasSent s t ((s.modEth d (Eth.takeTx i f)).modWire d u fun l => l.push f) d (f.numberedAs u (s.wire d u).next (s.wire d u).ack)
        (f.hdrAs u (s.wire d u).next (s.wire d u).ack) := by
  let v := s.modEth d (Eth.takeTx i f)
  have hlinks := OnlyLinks.modEth s d (Eth.takeTx i f)
  have hsent := sendFrame_hasSent (hlinks.trans (.modWire v d u fun l => l.push f)) ((takeTx_port s d i f).trans (.modWire v d d u _)) hcan
    (f.numberedAs u (s.wire d u).next (s.wire d u).ack) (f.hdrAs u (s.wire d u).next (s.wire d u).ack)
  have hretrain : (((v.modWire d u fun l => l.push f).sendFrame d (f.numberedAs u (s.wire d u).next (s.wire d u).ack)
      (f.hdrAs u (s.wire d u).next (s.wire d u).ack)).eth d).retrain = none := by
    rw [hsent.eth.eq, modWire_eth, eth_modEth s d (Eth.takeTx i f) fun _ => rfl]
    exact hret
  refine ⟨_, (transmit_next hd hup hnext).trans (congrArg _ ?_), hsent⟩
  dsimp only
  rw [show (s.modEth d (Eth.takeTx i f)).ximelOn d = s.ximelOn d from hlinks.rbit _ _ _, show (if s.ximelOn d then some 0 else f.item.wireUnit) = some u from hu]
  dsimp only
  rw [modEth_wire, sendNumbered_eq]
  split
  · rfl
  · exact gone7_none hretrain _

theorem hasSent_txq {t w : State} {i : Nat} {f g : TxFrame} {link : Option LinkHdr} (h : HasSent s t w d g link)
    (hw : w.eth d = (s.eth d).takeTx i f) : (t.eth d).txq = (s.eth d).txq.take i ++ (s.eth d).txq.drop (i + 1) ∧
      (t.eth d).last = if f.prio = 7 then (s.eth d).last else f.prio := by
  rw [h.eth.eq, hw]
  exact ⟨rfl, rfl⟩

/-! ## A replay -/

/-- What counting a replay changes: a counter that is not the one of frames sent. -/
theorem countReplay_does {u : Nat} (h : s.ctr d (ethCnt 0xE) + 1 < s.regN d (Reg.ethErrLimit 0xE)) : PortOnly s (s.countReplay d u) ∧
    (s.countReplay d u).eths = s.eths ∧ (s.countReplay d u).wires = s.wires ∧ (s.countReplay d u).ctr d (ethCnt 1) = s.ctr d (ethCnt 1) ∧
    (u = 0 → (s.countReplay d u).ctr d (ethCnt 0xE) = s.ctr d (ethCnt 0xE) + 1) := by
  have hkey : regKey d (ethCnt 1) ≠ regKey d (ethCnt 0xE) ∧ regKey d (ethCnt 1) ≠ regKey d (Reg.whlCntLo 6) := by
    unfold regKey ethCnt Reg.ethCntLo Reg.whlCntLo
    omega
  unfold State.countReplay
  split
  · rw [ethErr_below h]
    exact ⟨.setCtr s d _ _, rfl, rfl, State.ctr_setCtr_other s _ _ _ _ _ hkey.1, fun _ => State.ctr_setCtr_same s _ _ _⟩
  · rename_i h0
    split
    · exact ⟨.bump s d _ _, rfl, rfl, State.ctr_bump_other s _ _ _ _ _ hkey.2, fun h => absurd h h0⟩
    · exact ⟨.refl s, rfl, rfl, rfl, fun h => absurd h h0⟩

theorem transmit_replay {u : Nat} {h : Held} (hd : DieUp s d) (hup : s.portUp d = true) (hnext : s.txNext d = some (.replay u h)) (hcan : CanSend s d)
    (hlim : s.ctr d (ethCnt 0xE) + 1 < s.regN d (Reg.ethErrLimit 0xE)) : Does (.frameTransmit d) s fun t =>
      t.wire d u = (s.wire d u).replayed h.seq ∧ (t.eth d).txq = (s.eth d).txq ∧ t.ctr d (ethCnt 1) = Nat.min ctrMax (s.ctr d (ethCnt 1) + 1) ∧
      (u = 0 → t.ctr d (ethCnt 0xE) = s.ctr d (ethCnt 0xE) + 1) ∧ SameMem s t ∧ t.regs = s.regs := by
  let f : Eth → Eth := fun e => { e with last := if h.f.prio = 7 then e.last else h.f.prio }
  let v := s.modEth d f
  let w := v.modWire d u fun l => l.replayed h.seq
  have hlinks : OnlyLinks s w := (OnlyLinks.modEth s d f).trans (.modWire v d u _)
  have hport : SamePort s w d := (SamePort.modEth s d (f := f) (fun _ => rfl) (fun _ => rfl) fun _ => rfl).trans (.modWire v d d u _)
  have hsent := sendFrame_hasSent hlinks hport hcan (h.f.numberedAs u h.seq (w.wire d u).ack) (h.f.hdrAs u h.seq (w.wire d u).ack)
  have hexec := (transmit_next hd hup hnext).trans (congrArg (fun t : State => Host.Outcome.next (t.countReplay d u)) (sendNumbered_eq w d u h.seq (w.wire d u).ack h.f))
  generalize w.sendFrame d (h.f.numberedAs u h.seq (w.wire d u).ack) (h.f.hdrAs u h.seq (w.wire d u).ack) = t at hsent hexec
  obtain ⟨honly, heths, hwires, hone, hreplays⟩ := countReplay_does (s := t) (d := d) (u := u) (by rw [hsent.ctr _ (by decide), hsent.only.regN]; exact hlim)
  have hwire : (t.countReplay d u).wire d u = w.wire d u := by
    unfold State.wire
    rw [hwires, hsent.wires]
  have heth : (t.countReplay d u).eth d = t.eth d := by
    unfold State.eth
    rw [heths]
  refine ⟨_, hexec, hwire.trans ((wire_modWire v d u (fun l => l.replayed h.seq) fun _ hd hu => ⟨hd, hu⟩).trans ?_), ?_, hone.trans hsent.count,
    fun hu => (hreplays hu).trans (by rw [hsent.ctr _ (by decide)]), (hsent.only.trans honly).sameMem, (hsent.only.trans honly).regs⟩
  · rw [show v.wire d u = s.wire d u from modEth_wire s d d u f]
  · rw [heth, hsent.eth.eq]
    show (w.eth d).txq = _
    rw [show w.eth d = v.eth d from modWire_eth v d u d _, show v.eth d = f (s.eth d) from eth_modEth s d f fun _ => rfl]

end

end Sys2Proof.Machine

open Sys2Proof Sys2Proof.Machine

/-- Settles O23: a fresh frame leaves through `transmit_plain` or `transmit_numbered`, and a replay through `transmit_replay`. -/
theorem frameSending : Obligations.FrameSending := by
  unfold Obligations.FrameSending
  intro s d x hd hup hnext
  obtain ⟨hmem, hprio⟩ := txNext_mem hnext
  refine ⟨hmem, hprio, fun i f hx => txPicks_fresh (hx ▸ hmem), fun i f hx hcan hret => ?_, fun u h hx hcan hlim => transmit_replay hd hup (hx ▸ hnext) hcan hlim⟩
  subst hx
  have heth : ∀ u, ((s.modEth d (Eth.takeTx i f)).modWire d u fun l => l.push f).eth d = (s.eth d).takeTx i f := fun u => by
    rw [modWire_eth, eth_modEth s d (Eth.takeTx i f) fun _ => rfl]
  cases hnum : s.numbers d f with
  | none =>
    obtain ⟨t, hexec, h⟩ := transmit_plain hd hup hnext hcan hret hnum
    obtain ⟨htxq, hlast⟩ := hasSent_txq h (eth_modEth s d (Eth.takeTx i f) fun _ => rfl)
    refine ⟨t, hexec, htxq, hlast, h.count, h.only.sameMem, h.only.regs, fun _ _ => ⟨h.out, h.wires.trans ?_⟩, fun hon => ?_, fun u hoff hunit => ?_⟩
    · obtain ⟨l, hl⟩ := modEth_state s d (Eth.takeTx i f)
      rw [hl]
    · rw [State.numbers, if_pos hon] at hnum
      cases hnum
    · rw [State.numbers, if_neg (by simp [hoff]), hunit] at hnum
      cases hnum
  | some u =>
    obtain ⟨t, hexec, h⟩ := transmit_numbered hd hup hnext hcan hret hnum
    obtain ⟨htxq, hlast⟩ := hasSent_txq h (heth u)
    have hwire : t.wire d u = (s.wire d u).push f := by
      unfold State.wire
      rw [h.wires]
      refine (wire_push (s.modEth d (Eth.takeTx i f)) d u f).trans ?_
      rw [modEth_wire]
      rfl
    refine ⟨t, hexec, htxq, hlast, h.count, h.only.sameMem, h.only.regs, fun hoff hunit => ?_, fun hon => ?_, fun u' hoff hunit => ?_⟩
    · rw [State.numbers, if_neg (by simp [hoff]), hunit] at hnum
      cases hnum
    · rw [State.numbers, if_pos hon] at hnum
      cases hnum
      rw [hwire]
      exact ⟨rfl, rfl, h.out⟩
    · rw [State.numbers, if_neg (by simp [hoff]), hunit] at hnum
      cases hnum
      have hne : u ≠ 0 := wireUnit_ne_zero hunit
      have hout := h.out
      unfold TxFrame.numberedAs TxFrame.hdrAs at hout
      rw [if_neg hne, if_neg hne] at hout
      rw [hwire]
      exact ⟨rfl, rfl, hout⟩

end

section
/-! PROOF. Pauses received, and the pauses that a port sends as its pools rise and fall. -/

namespace Sys2Proof.Machine

/-! ## Lists of priorities -/

/-- The priorities paused once one entry of a pause frame has been taken. -/
def pauseStep (l : List Nat) (y : Nat × Nat) : List Nat := if y.2 = 0 then without y.1 l else addNew y.1 l

theorem pauseStep_other {l : List Nat} {y : Nat × Nat} {r : Nat} (h : r ≠ y.1) : r ∈ pauseStep l y ↔ r ∈ l := by
  unfold pauseStep
  split
  · rw [without_sub]
    exact ⟨And.left, fun hr => ⟨hr, h⟩⟩
  · rw [mem_addNew]
    exact ⟨fun hr => hr.resolve_left h, .inr⟩

theorem pauseSteps_other {times : List (Nat × Nat)} {r : Nat} (h : ∀ q, (r, q) ∉ times) (l : List Nat) : r ∈ times.foldl pauseStep l ↔ r ∈ l := by
  induction times generalizing l with
  | nil => exact Iff.rfl
  | cons y times ih =>
    have hy : r ≠ y.1 := fun he => h y.2 (he ▸ List.mem_cons_self)
    exact (ih (fun q hq => h q (List.mem_cons_of_mem _ hq)) _).trans (pauseStep_other hy)

/-- With each priority named once, the last word on a priority is its own entry. -/
theorem pauseSteps_named {times : List (Nat × Nat)} (hnd : (times.map Prod.fst).Nodup) {p q : Nat} (h : (p, q) ∈ times) (l : List Nat) :
    (q ≠ 0 → p ∈ times.foldl pauseStep l) ∧ (q = 0 → p ∉ times.foldl pauseStep l) := by
  induction times generalizing l with
  | nil => cases h
  | cons y times ih =>
    obtain ⟨hy, hnd⟩ := List.nodup_cons.mp hnd
    rcases List.mem_cons.mp h with rfl | h
    · have hrest : ∀ q', (p, q') ∉ times := fun q' hq' => hy (List.mem_map.mpr ⟨(p, q'), hq', rfl⟩)
      have hlast := pauseSteps_other hrest (pauseStep l (p, q))
      refine ⟨fun hq => hlast.mpr ?_, fun hq hp => ?_⟩
      · unfold pauseStep
        rw [if_neg hq, mem_addNew]
        exact .inl rfl
      · have := hlast.mp hp
        unfold pauseStep at this
        rw [if_pos hq, without_sub] at this
        exact this.2 rfl
    · exact ih hnd h _

theorem pauseOf_nodup {f : Frame} {x : PauseFrame} (h : pauseOf f = some x) : (x.times.map Prod.fst).Nodup := by
  have hkeys : ∀ (l : List Nat) (g : Nat → Nat), (l.map fun p => (p, g p)).map Prod.fst = l := fun l g => by
    rw [List.map_map]
    exact List.map_id l
  unfold pauseOf at h
  dsimp only at h
  split at h
  · cases h
    rw [hkeys]
    exact List.nodup_range
  · split at h
    · cases h
      rw [hkeys]
      exact List.nodup_range.filter _
    · cases h

theorem nub_of_nodup {α : Type} [DecidableEq α] {l : List α} (h : l.Nodup) : nub l = l := by
  have hgen : ∀ (l a : List α), (a ++ l).Nodup → l.foldl (fun a x => addNew x a) a = a ++ l := by
    intro l
    induction l with
    | nil => exact fun a _ => (List.append_nil a).symm
    | cons x l ih =>
      intro a ha
      have hx : x ∉ a := fun hm => (List.disjoint_of_nodup_append ha) hm List.mem_cons_self
      rw [List.foldl_cons, show addNew x a = a ++ [x] from if_neg hx, ih _ (by simpa using ha)]
      simp
  exact hgen l [] h

theorem mem_nub {α : Type} [DecidableEq α] {y : α} {l : List α} : y ∈ nub l ↔ y ∈ l := by
  have hgen : ∀ (l a : List α), y ∈ l.foldl (fun a x => addNew x a) a ↔ y ∈ a ∨ y ∈ l := by
    intro l
    induction l with
    | nil => exact fun a => ⟨.inl, fun h => h.resolve_right List.not_mem_nil⟩
    | cons x l ih =>
      intro a
      rw [List.foldl_cons, ih, mem_addNew, List.mem_cons]
      constructor
      · rintro ((h | h) | h)
        · exact .inr (.inl h)
        · exact .inl h
        · exact .inr (.inr h)
      · rintro (h | h | h)
        · exact .inl (.inr h)
        · exact .inl (.inl h)
        · exact .inr h
  exact (hgen l []).trans ⟨fun h => h.resolve_left List.not_mem_nil, .inr⟩

section
variable {s : State} {d : Nat} {f : Frame} {x : PauseFrame}

/-! ## Pauses received -/

/-- A port that has taken one entry of a pause frame. -/
def Eth.pauseBy (y : Nat × Nat) (e : Eth) : Eth := { e with paused := if y.2 = 0 then without y.1 e.paused else addNew y.1 e.paused }

theorem pausesTaken_does (times : List (Nat × Nat)) (s : State) : (∃ l, times.foldl (fun s y => s.modEth d (Eth.pauseBy y)) s = { s with eths := l }) ∧
    ((times.foldl (fun s y => s.modEth d (Eth.pauseBy y)) s).eth d).paused = times.foldl pauseStep (s.eth d).paused := by
  induction times generalizing s with
  | nil => exact ⟨⟨s.eths, rfl⟩, rfl⟩
  | cons y times ih =>
    obtain ⟨⟨l, hl⟩, hp⟩ := ih (s.modEth d (Eth.pauseBy y))
    obtain ⟨l', hl'⟩ := modEth_state s d (Eth.pauseBy y)
    refine ⟨⟨l, hl.trans (by rw [hl'])⟩, hp.trans ?_⟩
    rw [eth_modEth s d (Eth.pauseBy y) fun _ => rfl]
    rfl

theorem pauseIn_taken (hx : pauseOf f = some x) (hmode : s.fcMode d = if x.pfc then 2 else 1) :
    s.pauseIn d f = x.times.foldl (fun s y => s.modEth d (Eth.pauseBy y)) (s.bump d (ethCnt 0xC) 1) := by
  unfold State.pauseIn
  rw [hx]
  exact if_neg (not_not_intro hmode)

theorem heard_ethsCtrs (s : State) (d : Nat) (f : Frame) : ∃ l c, s.heard d f = { s with eths := l, ctrs := c } := by
  unfold State.heard State.notePn
  split
  · exact ⟨s.eths, _, rfl⟩
  · obtain ⟨l, hl⟩ := modEth_state (s.bump d (ethCnt 5) f.fecCorr) d fun e => { e with sas := mapIf _ _ e.sas }
    rw [hl]
    exact ⟨l, _, rfl⟩

theorem pauseFrame_exec (h : Hears s d { f with etype := 0x8808 }) :
    exec (.pauseFrameReceive d f) s = .next ((s.heard d f).pauseIn d (s.unprotect d { f with etype := 0x8808 })) := by
  have hs := heard_same s d { f with etype := 0x8808 }
  exact (frameReceive_hears h).trans (congrArg _ (if_pos hs.etype))

theorem pauseFrame_taken (h : Hears s d { f with etype := 0x8808 }) (hx : pauseOf f = some x) (hmode : s.fcMode d = if x.pfc then 2 else 1) :
    Does (.pauseFrameReceive d f) s fun t =>
      (∀ p q, (p, q) ∈ x.times → (q ≠ 0 → p ∈ (t.eth d).paused) ∧ (q = 0 → p ∉ (t.eth d).paused)) ∧
      (∀ r, (∀ q, (r, q) ∉ x.times) → (r ∈ (t.eth d).paused ↔ r ∈ (s.eth d).paused)) ∧
      t.ctr d (ethCnt 0xC) = Nat.min ctrMax (s.ctr d (ethCnt 0xC) + 1) ∧ t = { s with eths := t.eths, ctrs := t.ctrs } := by
  have hs := heard_same s d { f with etype := 0x8808 }
  have hpause : pauseOf (s.unprotect d { f with etype := 0x8808 }) = some x := hs.pause.trans hx
  obtain ⟨⟨l, hl⟩, hp⟩ := pausesTaken_does (d := d) x.times ((s.heard d f).bump d (ethCnt 0xC) 1)
  have hbefore : (((s.heard d f).bump d (ethCnt 0xC) 1).eth d).paused = (s.eth d).paused := by
    show ((s.heard d f).eth d).paused = _
    rw [(heard_eth s d f).eq]
  rw [hbefore] at hp
  refine ⟨_, (pauseFrame_exec h).trans (congrArg _ (pauseIn_taken hpause ((heard_port s d f).fcMode.trans hmode))), fun p q hpq => ?_, fun r hr => ?_, ?_, ?_⟩
  · rw [hp]
    exact pauseSteps_named (pauseOf_nodup hx) hpq _
  · rw [hp]
    exact pauseSteps_other hr _
  · rw [hl]
    exact (State.ctr_bump_same (s.heard d f) _ _ _).trans (by rw [heard_ctr (by decide)])
  · obtain ⟨l', c, hh⟩ := heard_ethsCtrs s d f
    rw [hl, hh]
    rfl

/-! ## Pauses sent -/

/-- A MAC Control frame leaves at once, with a number on an active Ximel Link. -/
theorem sendMacCtl_does (h : CanSend s d) (x : PauseFrame) : PortOnly s (s.sendMacCtl d x) ∧ (s.sendMacCtl d x).out = s.out ++ [s.pauseSent d x] ∧
    (s.sendMacCtl d x).ctr d (ethCnt 0xD) = Nat.min ctrMax (s.ctr d (ethCnt 0xD) + 1) ∧ SameEth (s.eth d) ((s.sendMacCtl d x).eth d) := by
  let v := s.bump d (ethCnt 0xD) 1
  let f : TxFrame := ⟨7, 0, false, none, .pause x⟩
  have hport : SamePort s v d := .bump s d d (ethCnt 0xD) 1
  have honly : PortOnly s v := .bump s d (ethCnt 0xD) 1
  have hcount : v.ctr d (ethCnt 0xD) = Nat.min ctrMax (s.ctr d (ethCnt 0xD) + 1) := State.ctr_bump_same s _ _ _
  cases hon : s.ximelOn d with
  | true =>
    have hsent := sendFrame_hasSent (s := v) (.modWire v d 0 fun l => l.push f) (.modWire v d d 0 _) (hport.canSend h) f
      (some (dataHdr (s.wire d 0).next (s.wire d 0).ack f))
    have heq : s.sendMacCtl d x = (v.modWire d 0 fun l => l.push f).sendFrame d f (some (dataHdr (s.wire d 0).next (s.wire d 0).ack f)) := if_pos hon
    rw [heq]
    refine ⟨honly.trans hsent.only, hsent.out.trans ?_, (hsent.ctr _ (by decide)).trans hcount, ?_⟩
    · rw [hport.sentOf]
      unfold State.pauseSent
      dsimp only
      rw [if_pos hon]
      rfl
    · have := hsent.eth
      rwa [modWire_eth] at this
  | false =>
    have hsent := sendFrame_hasSent (s := v) (.refl v) (.refl v d) (hport.canSend h) f none
    have heq : s.sendMacCtl d x = v.sendFrame d f none := if_neg (by rw [show (s.bump d (ethCnt 0xD) 1).ximelOn d = s.ximelOn d from rfl, hon]; decide)
    rw [heq]
    refine ⟨honly.trans hsent.only, hsent.out.trans ?_, (hsent.ctr _ (by decide)).trans hcount, hsent.eth⟩
    rw [hport.sentOf]
    unfold State.pauseSent
    dsimp only
    rw [hon]
    rfl

theorem pauseSent_congr {t : State} (h : SamePort s t d) (hw : t.wires = s.wires) (hr : t.regs = s.regs) (hp : t.part = s.part) (x : PauseFrame) :
    t.pauseSent d x = s.pauseSent d x := by
  have hwire : t.wire d 0 = s.wire d 0 := by
    unfold State.wire
    rw [hw]
  have hon : t.ximelOn d = s.ximelOn d := congrArg (bit · 1) (State.regN_congr hr hp d _)
  unfold State.pauseSent
  rw [hwire, hon]
  exact h.sentOf _ _

theorem sendPause_pfc (hmode : s.fcMode d = 2) (ps : List Nat) (time : Nat) : s.sendPause d ps time = s.sendMacCtl d ⟨true, ps.map fun p => (p, time)⟩ := if_pos hmode

theorem sendPause_link (hmode : s.fcMode d = 1) (ps : List Nat) (time : Nat) : s.sendPause d ps time = s.sendMacCtl d ⟨false, [(0, time)]⟩ :=
  (if_neg (by rw [hmode]; decide)).trans (if_pos hmode)

/-- The state in which a port has changed the pools for which it pauses. -/
def State.notePausing (s : State) (d : Nat) (g : List Nat → List Nat) : State := s.modEth d fun e => { e with pausing := g e.pausing }

/-- What a port that notes pauses keeps: what it sends, its pools, and what sending looks at. -/
theorem notesPauses (s : State) (d : Nat) (g : List Nat → List Nat) :
    SamePort s (s.notePausing d g) d ∧ PortOnly s (s.notePausing d g) ∧ (s.notePausing d g).wires = s.wires ∧ (s.notePausing d g).out = s.out ∧
      (s.notePausing d g).ctrs = s.ctrs ∧ ((s.notePausing d g).eth d).pausing = g (s.eth d).pausing ∧
      ∀ p, (s.notePausing d g).poolLow d p = s.poolLow d p := by
  let t := s.notePausing d g
  have heth : t.eth d = { s.eth d with pausing := g (s.eth d).pausing } := eth_modEth s d (fun e => { e with pausing := g e.pausing }) fun _ => rfl
  obtain ⟨l, hl⟩ := modEth_state s d fun e => { e with pausing := g e.pausing }
  have hstate : t = { s with eths := l } := hl
  have hlow : ∀ p, t.poolLow d p = s.poolLow d p := fun p => by
    have hused : t.poolUsed d p = s.poolUsed d p := by
      unfold State.poolUsed
      rw [heth]
    have hmarks : t.marks d p = s.marks d p := by
      rw [hstate]
      rfl
    unfold State.poolLow
    rw [hmarks, hused]
  have honly : OnlyLinks s t := .modEth s d _
  have hwires : t.wires = s.wires := by rw [hstate]
  exact ⟨.modEth s d (fun _ => rfl) (fun _ => rfl) fun _ => rfl, .of_links honly, hwires, honly.out, honly.ctrs, congrArg Eth.pausing heth, hlow⟩

section
variable {ps : List Nat}

theorem poolHighCross_does (hd : DieUp s d) (hup : s.portUp d = true) (hcan : CanSend s d) (hmode : s.fcMode d = 2) (hne : ps ≠ []) (hnd : ps.Nodup)
    (hhigh : ∀ p ∈ ps, s.poolHigh d p = true) : Does (.poolHighCross d ps) s fun t =>
      t.out = s.out ++ [s.pauseSent d ⟨true, ps.map fun p => (p, s.rf d Reg.ethPauseTime 0 16)⟩] ∧ (∀ p ∈ ps, p ∈ (t.eth d).pausing) ∧
      t.ctr d (ethCnt 0xD) = Nat.min ctrMax (s.ctr d (ethCnt 0xD) + 1) ∧ t.regs = s.regs ∧ SameMem s t := by
  have hps : (nub ps).filter (s.poolHigh d) = ps := by
    rw [nub_of_nodup hnd]
    exact List.filter_eq_self.mpr hhigh
  obtain ⟨hport, honly, hwires, hout, hctrs, hpausing, -⟩ := notesPauses s d fun l => nub (l ++ ps)
  have hexec : exec (.poolHighCross d ps) s =
      .next ((s.notePausing d fun l => nub (l ++ ps)).sendPause d ps (s.rf d Reg.ethPauseTime 0 16)) := by
    refine (onDie_eq hd).trans (congrArg _ ?_)
    dsimp only
    rw [hps]
    exact if_neg (by simp [hne, hmode, hup])
  rw [sendPause_pfc (hport.fcMode.trans hmode)] at hexec
  obtain ⟨honly', hout', hcount, heth⟩ := sendMacCtl_does (hport.canSend hcan) ⟨true, ps.map fun p => (p, s.rf d Reg.ethPauseTime 0 16)⟩
  refine ⟨_, hexec, ?_, fun p hp => ?_, hcount.trans (by rw [State.ctr_congr hctrs]), (honly.trans honly').regs, (honly.trans honly').sameMem⟩
  · rw [hout', hout, pauseSent_congr hport hwires honly.regs honly.part]
  · rw [heth.eq]
    show p ∈ ((s.notePausing d fun l => nub (l ++ ps)).eth d).pausing
    rw [hpausing, mem_nub]
    exact List.mem_append_right _ hp

/-- The port once the pauses of some pools have ended. -/
def State.pausesEnded (s : State) (d : Nat) (ps : List Nat) : State := s.notePausing d fun l => l.filter fun p => !ps.contains p

theorem poolLowCross_exec (hd : DieUp s d) {qs : List Nat} (hqs : ((nub ps).filter fun p => s.poolLow d p && (s.eth d).pausing.contains p) = qs) (hne : qs ≠ []) :
    exec (.poolLowCross d ps) s = .next (if s.fcMode d = 2 || (List.range 8).all (s.poolLow d) then (s.pausesEnded d qs).sendPause d qs 0 else s.pausesEnded d qs) := by
  obtain ⟨hport, -, -, -, -, -, hlow⟩ := notesPauses s d fun l => l.filter fun p => !qs.contains p
  refine (onDie_eq hd).trans (congrArg _ ?_)
  dsimp only
  rw [hqs]
  refine (if_neg (by simp [hne])).trans ?_
  show (if (s.pausesEnded d qs).fcMode d = 2 || (List.range 8).all ((s.pausesEnded d qs).poolLow d) then (s.pausesEnded d qs).sendPause d qs 0
    else s.pausesEnded d qs) = _
  rw [show (s.pausesEnded d qs).fcMode d = s.fcMode d from hport.fcMode, show (s.pausesEnded d qs).poolLow d = s.poolLow d from funext hlow]

theorem pausesEnded_gone (s : State) (d : Nat) {p : Nat} (hp : p ∈ ps) : p ∉ ((s.pausesEnded d ps).eth d).pausing := by
  obtain ⟨-, -, -, -, -, hpausing, -⟩ := notesPauses s d fun l => l.filter fun p => !ps.contains p
  rw [show ((s.pausesEnded d ps).eth d).pausing = _ from hpausing]
  intro h
  have := (List.mem_filter.mp h).2
  simp [hp] at this

theorem poolLowCross_pfc (hd : DieUp s d) (hcan : CanSend s d) (hmode : s.fcMode d = 2) (hne : ps ≠ []) (hnd : ps.Nodup)
    (hlow : ∀ p ∈ ps, s.poolLow d p = true ∧ p ∈ (s.eth d).pausing) : Does (.poolLowCross d ps) s fun t =>
      t.out = s.out ++ [s.pauseSent d ⟨true, ps.map fun p => (p, 0)⟩] ∧ (∀ p ∈ ps, p ∉ (t.eth d).pausing) ∧ t.regs = s.regs ∧ SameMem s t := by
  have hps : ((nub ps).filter fun p => s.poolLow d p && (s.eth d).pausing.contains p) = ps := by
    rw [nub_of_nodup hnd]
    exact List.filter_eq_self.mpr fun p hp => by simp [(hlow p hp).1, (hlow p hp).2]
  obtain ⟨hport, honly, hwires, hout, -, -, -⟩ := notesPauses s d fun l => l.filter fun p => !ps.contains p
  have hexec := (poolLowCross_exec hd hps hne).trans (congrArg _ (if_pos (by simp [hmode])))
  rw [sendPause_pfc (s := s.pausesEnded d ps) (hport.fcMode.trans hmode)] at hexec
  obtain ⟨honly', hout', -, heth⟩ := sendMacCtl_does (hport.canSend hcan) ⟨true, ps.map fun p => (p, 0)⟩
  refine ⟨_, hexec, ?_, fun p hp => ?_, (honly.trans honly').regs, (honly.trans honly').sameMem⟩
  · exact hout'.trans (by rw [hout, pauseSent_congr hport hwires honly.regs honly.part])
  · have hgone := pausesEnded_gone s d hp
    have heth' : SameEth ((s.pausesEnded d ps).eth d) (((s.pausesEnded d ps).sendMacCtl d ⟨true, ps.map fun p => (p, 0)⟩).eth d) := heth
    rw [heth'.eq]
    exact hgone

theorem poolLowCross_link (hd : DieUp s d) (hcan : CanSend s d) (hmode : s.fcMode d = 1)
    (hlow : ∀ p ∈ ps, s.poolLow d p = true ∧ p ∈ (s.eth d).pausing) (hne : ps ≠ []) : Does (.poolLowCross d ps) s fun t =>
      (∀ p ∈ ps, p ∉ (t.eth d).pausing) ∧ t.regs = s.regs ∧ SameMem s t ∧
      ((∀ p, p < 8 → s.poolLow d p = true) → t.out = s.out ++ [s.pauseSent d ⟨false, [(0, 0)]⟩]) ∧
      (∀ p, p < 8 → s.poolLow d p = false → t.out = s.out) := by
  generalize hqs : ((nub ps).filter fun p => s.poolLow d p && (s.eth d).pausing.contains p) = qs
  have hin : ∀ p ∈ ps, p ∈ qs := fun p hp => by
    rw [← hqs]
    exact List.mem_filter.mpr ⟨mem_nub.mpr hp, by simp [(hlow p hp).1, (hlow p hp).2]⟩
  have hqne : qs ≠ [] := by
    obtain ⟨p, hp⟩ := List.exists_mem_of_ne_nil ps hne
    exact List.ne_nil_of_mem (hin p hp)
  have hexec := poolLowCross_exec hd hqs hqne
  obtain ⟨hport, honly, hwires, hout, -, -, -⟩ := notesPauses s d fun l => l.filter fun p => !qs.contains p
  cases hall : (List.range 8).all (s.poolLow d) with
  | true =>
    rw [hall, if_pos (by simp), sendPause_link (s := s.pausesEnded d qs) (hport.fcMode.trans hmode)] at hexec
    obtain ⟨honly', hout', -, heth⟩ := sendMacCtl_does (hport.canSend hcan) ⟨false, [(0, 0)]⟩
    refine ⟨_, hexec, fun p hp => ?_, (honly.trans honly').regs, (honly.trans honly').sameMem, fun _ => ?_, fun p hp hhigh => ?_⟩
    · have heth' : SameEth ((s.pausesEnded d qs).eth d) (((s.pausesEnded d qs).sendMacCtl d ⟨false, [(0, 0)]⟩).eth d) := heth
      rw [heth'.eq]
      exact pausesEnded_gone s d (hin p hp)
    · exact hout'.trans (by rw [hout, pauseSent_congr hport hwires honly.regs honly.part])
    · have := List.all_eq_true.mp hall p (List.mem_range.mpr hp)
      rw [hhigh] at this
      cases this
  | false =>
    rw [hall, if_neg (by simp [hmode])] at hexec
    refine ⟨_, hexec, fun p hp => pausesEnded_gone s d (hin p hp), honly.regs, honly.sameMem, fun h => ?_, fun _ _ _ => hout⟩
    have : (List.range 8).all (s.poolLow d) = true := List.all_eq_true.mpr fun p hp => h p (List.mem_range.mp hp)
    rw [hall] at this
    cases this

end

end

end Sys2Proof.Machine

open Sys2Proof Sys2Proof.Machine

/-- Settles O24: a pause frame's entries are taken one by one, and every pause sent is one MAC Control frame (`sendMacCtl_does`). -/
theorem pauses : Obligations.Pauses := by
  unfold Obligations.Pauses
  refine ⟨fun s d f x h hx => ⟨fun hmode => pauseFrame_taken h hx hmode, fun hmode => ?_⟩, fun s d p hd => ?_,
    fun s d ps hd hup hcan hmode hne hnd hhigh => poolHighCross_does hd hup hcan hmode hne hnd hhigh,
    fun s d ps hd hcan hmode hne hnd hlow => poolLowCross_pfc hd hcan hmode hne hnd hlow,
    fun s d ps hd hcan hmode hlow hne => poolLowCross_link hd hcan hmode hlow hne, fun s d p hd hcan hmode hin hhigh => ?_⟩
  · have hs := heard_same s d { f with etype := 0x8808 }
    refine (pauseFrame_exec h).trans (congrArg _ (pauseIn_other fun y hy => ?_))
    rw [hs.pause.trans (show pauseOf { f with etype := 0x8808 } = some x from hx)] at hy
    cases hy
    rw [(heard_port s d f).fcMode]
    exact hmode
  · have heth := eth_modEth s d (fun e => { e with paused := without p e.paused }) fun _ => rfl
    refine ⟨_, onDie_eq hd, ?_, fun r hr => ?_, (PortOnly.modEth s d _).regs, (PortOnly.modEth s d _).sameMem⟩
    · rw [heth, without_sub]
      exact fun h => h.2 rfl
    · rw [heth, without_sub]
      exact ⟨And.left, fun h => ⟨h, hr⟩⟩
  · obtain ⟨honly, hout, -, -⟩ := sendMacCtl_does hcan ⟨true, [p].map fun p => (p, s.rf d Reg.ethPauseTime 0 16)⟩
    exact ⟨_, (onDie_eq hd).trans (congrArg _ ((if_pos (by simp [hin, hhigh])).trans (sendPause_pfc hmode _ _))), hout, honly.regs, honly.sameMem⟩

end

section
/-! PROOF. The width of a Ximel Link: capability, lane failures, the handshake of a narrowing and a widening, and retraining. -/

namespace Sys2Proof.Machine

/-! ## What a control frame looks at -/

/-- From `s` to `t` ports and links have changed, in nothing that a control frame of port `d` carries. -/
structure CtlAlike (s t : State) (d : Nat) : Prop where
  links : OnlyLinks s t
  port  : SamePort s t d
  ack   : (t.wire d 0).ack = (s.wire d 0).ack

namespace CtlAlike

variable {s t u : State} {d : Nat}

theorem refl (s : State) (d : Nat) : CtlAlike s s d := ⟨.refl s, .refl s d, rfl⟩

theorem trans (h : CtlAlike s t d) (g : CtlAlike t u d) : CtlAlike s u d := ⟨h.links.trans g.links, h.port.trans g.port, g.ack.trans h.ack⟩

theorem modEth (s : State) (d : Nat) {f : Eth → Eth} (hd : ∀ e, (f e).d = e.d) (he : ∀ e, (f e).eff = e.eff) (hs : ∀ e, (f e).sas = e.sas) :
    CtlAlike s (s.modEth d f) d := ⟨.modEth s d f, .modEth s d hd he hs, by rw [modEth_wire]⟩

theorem acked (s : State) (d ack : Nat) : CtlAlike s (s.modWire d 0 fun l => l.acked ack) d :=
  ⟨.modWire s d 0 _, .modWire s d d 0 _, by rw [wire_acked]; rfl⟩

theorem notePn (s : State) (d : Nat) (m : Option (Nat × Nat × Bool)) : CtlAlike s (s.notePn d m) d :=
  ⟨notePn_links s d m, notePn_port s d m, by rw [notePn_wire]⟩

theorem ctlTaken (s : State) (d : Nat) (x : LinkCtl) : CtlAlike s (s.ctlTaken d x) d := by
  unfold State.ctlTaken
  split
  · exact (notePn s d x.macsec).trans (acked _ d _)
  · exact notePn s d x.macsec

theorem ximelOn (h : CtlAlike s t d) : t.ximelOn d = s.ximelOn d := h.links.rbit _ _ _

end CtlAlike

variable {s t u : State} {d : Nat}

theorem ctlTaken_eth (s : State) (d : Nat) (x : LinkCtl) : SameEth (s.eth d) ((s.ctlTaken d x).eth d) := by
  unfold State.ctlTaken
  split
  · rw [modWire_eth]
    exact notePn_eth s d x.macsec
  · exact notePn_eth s d x.macsec

/-- A port and a step of its narrowing. -/
def Eth.aims (n : Narrow) (e : Eth) : Eth := { e with narrow := some n }

theorem aims_alike (s : State) (d : Nat) (n : Narrow) : CtlAlike s (s.modEth d (Eth.aims n)) d := .modEth s d (fun _ => rfl) (fun _ => rfl) fun _ => rfl

theorem aims_eth (s : State) (d : Nat) (n : Narrow) : (s.modEth d (Eth.aims n)).eth d = (s.eth d).aims n := eth_modEth s d (Eth.aims n) fun _ => rfl

/-- From `s` to `t` port `d` has sent the control frame of a kind for a group that it now aims at. -/
structure Aims (s t : State) (d kind : Nat) (n : Narrow) : Prop where
  only   : PortOnly s t
  narrow : (t.eth d).narrow = some n
  out    : t.out = s.out ++ [s.ctlOf d kind n.width n.group]

theorem Aims.alike {v : State} {kind : Nat} {n : Narrow} (hv : CtlAlike s v d) (h : Aims v t d kind n) : Aims s t d kind n :=
  ⟨(PortOnly.of_links hv.links).trans h.only, h.narrow, by rw [h.out, hv.port.ctlOf hv.ack, hv.links.out]⟩

/-- A port that aims at a group and says so. -/
theorem ximelCtl_aims (h : CanSend s d) {n : Narrow} (hn : (s.eth d).narrow = some n) (kind : Nat) : Aims s (s.ximelCtl d kind n.width n.group 0) d kind n := by
  obtain ⟨honly, hout⟩ := ximelCtl_does h kind n.width n.group
  exact ⟨honly, by rw [(ximelCtl_frame s d kind n.width n.group 0).1.eq]; exact hn, hout⟩

theorem aimed_aims (h : CanSend s d) (n : Narrow) (kind : Nat) : Aims s ((s.modEth d (Eth.aims n)).ximelCtl d kind n.width n.group 0) d kind n :=
  .alike (aims_alike s d n) (ximelCtl_aims ((aims_alike s d n).port.canSend h) (by rw [aims_eth]; rfl) kind)

theorem narrowAgree_aims (h : CanSend s d) (width group : Nat) :
    Aims s (s.narrowAgree d width group) d (if width = 3 then 6 else 4) ⟨width, group, false, true⟩ := by
  obtain ⟨honly, hout⟩ := ximelCtl_does h (if width = 3 then 6 else 4) width group
  refine ⟨honly.trans (.modEth _ d _), ?_, ?_⟩
  · show ((State.modEth _ d (Eth.aims ⟨width, group, false, true⟩)).eth d).narrow = _
    rw [aims_eth]
    rfl
  · exact (OnlyLinks.modEth _ d _).out.trans hout

/-- The lanes of a place in the order of groups, asked for by this end. -/
def askAt (i : Nat) : Narrow := ⟨(lanesAt i).1, (lanesAt i).2, true, false⟩

theorem startNarrow_aims (h : CanSend s d) {i : Nat} (hi : firstGroup (s.eth d).failed (Nat.max 1 (s.eth d).floor) = some i) :
    Aims s (s.startNarrow d) d 3 (askAt i) := by
  have hrun : s.startNarrow d = (s.modEth d fun e => { e with floor := i, narrow := some (askAt i) }).ximelCtl d 3 (askAt i).width (askAt i).group 0 := by
    unfold State.startNarrow
    rw [hi]
    rfl
  have hv : CtlAlike s (s.modEth d fun e => { e with floor := i, narrow := some (askAt i) }) d := .modEth s d (fun _ => rfl) (fun _ => rfl) fun _ => rfl
  rw [hrun]
  refine .alike hv (ximelCtl_aims (hv.port.canSend h) ?_ 3)
  rw [eth_modEth s d (fun e => { e with floor := i, narrow := some (askAt i) }) fun _ => rfl]

/-! ## A port that goes down -/

theorem portDown_sameMem (s : State) (d : Nat) : SameMem s (s.portDown d) := by
  obtain ⟨es, ws, e⟩ := portDown_state s d
  rw [e]
  exact .of_eq rfl rfl

theorem portDown_failed (s : State) (d : Nat) : ((s.portDown d).eth d).failed = (s.eth d).failed := by
  unfold State.portDown
  dsimp only
  rw [eth_modEth _ d (fun e => { e with paused := [], pausing := [], narrow := none, training := false, retrain := none }) fun _ => rfl]
  generalize ((State.wire _ d 0).held.filter _).map _ = back
  rw [eth_modEth _ d (fun e => { e with txq := back ++ e.txq }) fun _ => rfl]
  exact (congrArg Eth.failed (modWire_eth (s.setRegN d Reg.ethStatus _) d 0 d fun _ => Link.idle d 0) :)

theorem portUp_degrade (s : State) (d u : Nat) : (s.degrade d 2 u 0).portUp d = s.portUp d :=
  (Calm.degrade s d (by omega) u).rbit d (by decide) 0

/-- A fence of a port that is down leaves it down. -/
theorem fencePort_down {c : Nat} (h : s.portUp d = false) : (s.fence d 0x0C c).portUp d = false := by
  have hfence : s.fence d 0x0C c = s.fenceOne d 0x0C c := if_pos (by decide)
  rw [hfence, State.fenceOne]
  split
  · exact h
  · unfold State.fenceEffect
    rw [if_neg (by decide), if_neg (by decide), if_neg (by decide), if_pos rfl, portUp_degrade]
    have hmark : (s.fenceMark d 0x0C c).portUp d = false := by
      have hregs : (s.fenceRegs d 0x0C c).regN d Reg.ethStatus = s.regN d Reg.ethStatus := by
        have hkey : ∀ o, o = Reg.rasUnit 0x0C ∨ o = Reg.rasCapLive → regKey d Reg.ethStatus ≠ regKey d o := by
          rintro o (rfl | rfl) <;> exact State.regKey_ne (by decide) (by decide) (.inr (by decide))
        exact (State.regN_setRegN_other _ _ _ _ _ _ (hkey _ (.inr rfl))).trans (State.regN_setRegN_other _ _ _ _ _ _ (hkey _ (.inl rfl)))
      rw [State.portUp, (fenceMark_calm s d 0x0C c).rbit d (by decide) 0, State.rbit, hregs]
      exact h
    split
    · next hup => simp [hmark] at hup
    · exact portUp_portDown _ d

theorem fenceLost_down (s : State) (h : t.portUp d = false) : (s.fenceLost t d).portUp d = false := by
  unfold State.fenceLost
  split
  · exact fencePort_down h
  · exact h

theorem fenceLost_keeps_up (s : State) (h : t.portUp d = s.portUp d) : s.fenceLost t d = t := by
  refine if_neg ?_
  rw [h]
  cases s.portUp d <;> simp

theorem fenceLost_off (t : State) (h : s.ximelOn d = false) : s.fenceLost t d = t := if_neg (by simp [h])

/-! ## ETH_STATUS and discovery -/

/-- A bit of ETH_STATUS that does not tell whether the port is up changes nothing that the port sends. -/
theorem ethStatus_port (s : State) (d : Nat) {i : Nat} (hi : i < 32) (h0 : i ≠ 0) (b : Bool) : SamePort s (s.setRbit d Reg.ethStatus i b) d := by
  have hother : ∀ e o, o ≠ Reg.ethStatus → o < 2 ^ 24 → (s.setRbit d Reg.ethStatus i b).regN e o = s.regN e o := fun e o hne ho =>
    State.regN_setRegN_other _ _ _ _ _ _ (State.regKey_ne ho (by decide) (.inr hne))
  have hup : (s.setRbit d Reg.ethStatus i b).portUp d = s.portUp d := (State.rbit_setRbit s d Reg.ethStatus 0 b hi).trans (if_neg (Ne.symm h0))
  refine ⟨fun j => ?_, ?_⟩
  · have hreg : ∀ o, (if j = 0 then Reg.ethCtrl else if j = 1 then Reg.ethMacLo else if j = 2 then Reg.ethMacHi else Reg.ethMaxfrm) = o →
        (s.setRbit d Reg.ethStatus i b).regN d o = s.regN d o := by
      rintro o rfl
      refine hother d _ ?_ ?_
      · split_ifs <;> decide
      · split_ifs <;> decide
    unfold State.ethSetting
    rw [hreg _ rfl, hup]
    rfl
  · have hsec : (s.setRbit d Reg.ethStatus i b).regN d Reg.ethSecCtrl = s.regN d Reg.ethSecCtrl := hother d _ (by decide) (by decide)
    unfold State.txSa State.rbit State.rf
    rw [hsec]
    rfl

theorem ethStatus_sameMem (s : State) (d i : Nat) (b : Bool) : SameMem s (s.setRbit d Reg.ethStatus i b) := .of_eq rfl rfl

/-- A torus port held out is noted on every die. -/
def State.noteHeldOut (s : State) (d e : Nat) : State := (s.setRbit e Reg.genDiscStatus (16 + d) true).setRbit e Reg.genDiscStatus (8 + d) true

theorem noteHeldOut_does {v : State} (hd : d < 8) : SameMem v (v.eachDie fun s e => s.noteHeldOut d e) ∧
    ∀ e, e < v.part.dies → (v.eachDie fun s e => s.noteHeldOut d e).rbit e Reg.genDiscStatus (8 + d) = true := by
  constructor
  · exact foldl_keeps (P := SameMem v) (f := fun (s : State) e => s.noteHeldOut d e) (fun t e h => h.trans (.of_eq rfl rfl)) _ (.of_eq rfl rfl)
  · refine fun e he => eachDie_each (f := fun (s : State) e => s.noteHeldOut d e) (B := fun _ _ => True)
      (A := fun t e => t.rbit e Reg.genDiscStatus (8 + d) = true) ?_ ?_ (fun _ _ _ _ _ => trivial) (fun _ => trivial) he
    · exact fun t e _ => State.rbit_setRbit_same _ e _ _ true (by omega)
    · intro t e g hne h
      have hkey := State.regKey_ne (d := g) (off := Reg.genDiscStatus) (e := e) (o := Reg.genDiscStatus) (by decide) (by decide) (.inl hne)
      have hsame : (t.noteHeldOut d e).regN g Reg.genDiscStatus = t.regN g Reg.genDiscStatus :=
        (State.regN_setRegN_other _ _ _ _ _ _ hkey).trans (State.regN_setRegN_other _ _ _ _ _ _ hkey)
      rw [State.rbit, hsame]
      exact h

/-! ## The capability frame -/

theorem ximelCapability_exec {x : LinkCtl} (h : CtlHeard s d x) (p : Peer) :
    exec (.ximelCapability d p x) s = .next ((s.ctlTaken d x).ximelCap d p.part p.stepping p.offers) :=
  (onDie_eq h.die).trans (congrArg _ (ctlIn_runs h _))

theorem CtlHeard.up {x : LinkCtl} (h : CtlHeard s d x) : s.portUp d = true := (Bool.and_eq_true_iff.mp h.on).1

theorem ximelCap_up (hup : s.portUp d = true) (ht : d < s.part.torusPorts) (part step : Nat) (offers : Bool) :
    s.ximelCap d part step offers = if part ≠ s.part.dies || step ≠ 0x11 then (s.setRbit d Reg.ethStatus 13 true).eachDie fun s e => s.noteHeldOut d e
      else if s.ethCtrl d 1 && offers then (s.modWire d 0 fun _ => Link.idle d 0).setRbit d Reg.ethStatus 1 true else s := if_neg (by simp [hup]; omega)

theorem ximelCap_same (hup : s.portUp d = true) (ht : d < s.part.torusPorts) (offers : Bool) : s.ximelCap d s.part.dies 0x11 offers =
    if s.ethCtrl d 1 && offers then (s.modWire d 0 fun _ => Link.idle d 0).setRbit d Reg.ethStatus 1 true else s :=
  (ximelCap_up hup ht _ _ offers).trans (if_neg (by simp))

/-- Both ends offer the link: it is active, and numbered from 0. -/
theorem ximelCap_active (hup : s.portUp d = true) (ht : d < s.part.torusPorts) (hen : s.ethCtrl d 1 = true) : (s.ximelCap d s.part.dies 0x11 true).ximelOn d = true ∧
    (s.ximelCap d s.part.dies 0x11 true).wire d 0 = Link.idle d 0 ∧ SameMem s (s.ximelCap d s.part.dies 0x11 true) := by
  rw [ximelCap_same hup ht, if_pos (by simp [hen])]
  refine ⟨State.rbit_setRbit_same _ d _ 1 true (by decide), ?_, (OnlyLinks.modWire s d 0 _).sameMem.trans (ethStatus_sameMem _ d 1 true)⟩
  exact wire_replaced s (d := d) (u := 0) (l := Link.idle d 0) rfl rfl

theorem ximelCap_idle (hup : s.portUp d = true) (ht : d < s.part.torusPorts) {offers : Bool} (h : s.ethCtrl d 1 = false ∨ offers = false) :
    s.ximelCap d s.part.dies 0x11 offers = s := by
  rw [ximelCap_same hup ht, if_neg (by rcases h with h | h <;> simp [h])]

/-- Another part or stepping: the port is held out, and each die notes it. -/
theorem ximelCap_other (hup : s.portUp d = true) (ht : d < s.part.torusPorts) {part step : Nat} (h : part ≠ s.part.dies ∨ step ≠ 0x11) (offers : Bool) :
    SameMem s (s.ximelCap d part step offers) ∧ ∀ e, e < s.part.dies → (s.ximelCap d part step offers).rbit e Reg.genDiscStatus (8 + d) = true := by
  have hd : d < 8 := lt_of_lt_of_le ht (le_trans (Nat.min_le_left 6 _) (by decide))
  rw [ximelCap_up hup ht, if_pos (by simpa using h)]
  obtain ⟨hmem, hbit⟩ := noteHeldOut_does (v := s.setRbit d Reg.ethStatus 13 true) hd
  exact ⟨(ethStatus_sameMem s d 13 true).trans hmem, hbit⟩

theorem ximelCapability_does {x : LinkCtl} (h : CtlHeard s d x) (ht : d < s.part.torusPorts) (part step : Nat) (offers : Bool) :
    (part = s.part.dies → step = 0x11 → s.ethCtrl d 1 = true → offers = true → Does (.ximelCapability d ⟨part, step, offers⟩ x) s fun t =>
      t.ximelOn d = true ∧ (t.wire d 0).next = 0 ∧ (t.wire d 0).expect = 0 ∧ SameMem s t) ∧
    (part = s.part.dies → step = 0x11 → s.ethCtrl d 1 = false ∨ offers = false → Does (.ximelCapability d ⟨part, step, offers⟩ x) s fun t =>
      t.ximelOn d = s.ximelOn d ∧ t.regs = s.regs ∧ SameMem s t) ∧
    ((part ≠ s.part.dies ∨ step ≠ 0x11) → Does (.ximelCapability d ⟨part, step, offers⟩ x) s fun t => t.heldOut d = true ∧ SameMem s t ∧
      ∀ e, e < s.part.dies → t.rbit e Reg.genDiscStatus (8 + d) = true) := by
  have hv := CtlAlike.ctlTaken s d x
  have hexec := ximelCapability_exec h ⟨part, step, offers⟩
  have hup : (s.ctlTaken d x).portUp d = true := (hv.links.rbit _ _ _).trans h.up
  have hpart : (s.ctlTaken d x).part = s.part := hv.links.part
  have ht' : d < (s.ctlTaken d x).part.torusPorts := by rw [hpart]; exact ht
  refine ⟨?_, ?_, ?_⟩
  · rintro rfl rfl hen rfl
    obtain ⟨hon, hwire, hmem⟩ := ximelCap_active hup ht' ((hv.port.ctrl 1).trans hen)
    rw [hpart] at hon hwire hmem
    exact ⟨_, hexec, hon, by rw [hwire]; rfl, by rw [hwire]; rfl, hv.links.sameMem.trans hmem⟩
  · rintro rfl rfl hidle
    have hrun := ximelCap_idle hup ht' (hidle.imp_left (hv.port.ctrl 1).trans)
    rw [hpart] at hrun
    exact ⟨_, hexec.trans (congrArg _ hrun), hv.ximelOn, hv.links.regs, hv.links.sameMem⟩
  · intro hother
    obtain ⟨hmem, hbit⟩ := ximelCap_other hup ht' (part := part) (step := step) (by rw [hpart]; exact hother) offers
    rw [hpart] at hbit
    exact ⟨_, hexec, hbit 0 (Nat.zero_lt_of_lt h.die.there), hv.links.sameMem.trans hmem, hbit⟩

/-! ## Lanes that fail -/

/-- The port once a lane of it has been marked as failed. -/
def State.laneMarked (s : State) (d lane : Nat) : State := (s.setRbit d Reg.ethStatus (4 + lane) false).modEth d fun e => { e with failed := addNew lane e.failed }

theorem laneFail_eq {lane : Nat} (hup : s.portUp d = true) (hl : lane < 8) : s.laneFail d lane =
    if !(s.laneMarked d lane).ximelOn d || (s.laneMarked d lane).rf d Reg.ethStatus 2 2 = 0 then (s.laneMarked d lane).portDown d
    else (s.laneMarked d lane).startNarrow d := if_neg (by simp [hup]; omega)

theorem laneMarked_eth (s : State) (d lane : Nat) : (s.laneMarked d lane).eth d = { s.eth d with failed := addNew lane (s.eth d).failed } :=
  eth_modEth (s.setRbit d Reg.ethStatus (4 + lane) false) d (fun e => { e with failed := addNew lane e.failed }) fun _ => rfl

theorem laneMarked_links (s : State) (d lane : Nat) : OnlyLinks (s.setRbit d Reg.ethStatus (4 + lane) false) (s.laneMarked d lane) := .modEth _ d _

theorem laneMarked_port {lane : Nat} (hl : lane < 8) : SamePort s (s.laneMarked d lane) d :=
  (ethStatus_port s d (by omega) (by omega) false).trans (.modEth _ d (fun _ => rfl) (fun _ => rfl) fun _ => rfl)

theorem laneMarked_rbit {lane i : Nat} (hl : lane < 8) (hi : i < 4) : (s.laneMarked d lane).rbit d Reg.ethStatus i = s.rbit d Reg.ethStatus i :=
  ((laneMarked_links s d lane).rbit _ _ _).trans ((State.rbit_setRbit s d _ i false (by omega)).trans (if_neg (by omega)))

theorem laneMarked_rf {lane : Nat} (hl : lane < 8) : (s.laneMarked d lane).rf d Reg.ethStatus 2 2 = s.rf d Reg.ethStatus 2 2 := by
  refine (congrArg (fld · 2 2) (State.regN_congr (laneMarked_links s d lane).regs (laneMarked_links s d lane).part d _)).trans ?_
  exact State.rf_setRf_other s d _ _ 2 2 (by omega) (by omega)

theorem laneFail_exec {lane : Nat} (hd : DieUp s d) : exec (.laneFail d lane) s = .next (s.fenceLost (s.laneFail d lane) d) := onDie_eq hd

/-- Off Ximel Link a failed lane takes the port down. -/
theorem laneFail_off {lane : Nat} (hd : DieUp s d) (hup : s.portUp d = true) (hl : lane < 8) (hoff : s.ximelOn d = false) :
    Does (.laneFail d lane) s fun t => t.portUp d = false ∧ lane ∈ (t.eth d).failed ∧ SameMem s t := by
  have hrun : s.laneFail d lane = (s.laneMarked d lane).portDown d :=
    (laneFail_eq hup hl).trans (if_pos (by rw [State.ximelOn, laneMarked_rbit hl (by decide), ← State.ximelOn, hoff]; rfl))
  refine ⟨_, laneFail_exec hd, ?_⟩
  rw [fenceLost_off _ hoff, hrun]
  refine ⟨portUp_portDown _ d, ?_, ((ethStatus_sameMem s d _ false).trans (laneMarked_links s d lane).sameMem).trans (portDown_sameMem _ d)⟩
  rw [portDown_failed, laneMarked_eth]
  exact mem_addNew.mpr (.inl rfl)

theorem laneFail_narrows {lane i : Nat} (hd : DieUp s d) (hup : s.portUp d = true) (hl : lane < 8) (hon : s.ximelOn d = true) (hwide : s.rf d Reg.ethStatus 2 2 ≠ 0)
    (hi : firstGroup (addNew lane (s.eth d).failed) (Nat.max 1 (s.eth d).floor) = some i) (hcan : CanSend s d) :
    Does (.laneFail d lane) s fun t => (t.eth d).narrow = some (askAt i) ∧ t.rbit d Reg.ethStatus (4 + lane) = false ∧
      t.out = s.out ++ [s.ctlOf d 3 (lanesAt i).1 (lanesAt i).2] ∧ SameMem s t := by
  have hport := laneMarked_port (s := s) (d := d) hl
  have hlinks := laneMarked_links s d lane
  have hrun : s.laneFail d lane = (s.laneMarked d lane).startNarrow d :=
    (laneFail_eq hup hl).trans (if_neg (by rw [State.ximelOn, laneMarked_rbit hl (by decide), laneMarked_rf hl, ← State.ximelOn, hon]; simpa using hwide))
  have haims : Aims (s.laneMarked d lane) ((s.laneMarked d lane).startNarrow d) d 3 (askAt i) :=
    startNarrow_aims (hport.canSend hcan) (by rw [laneMarked_eth]; exact hi)
  have hack : ((s.laneMarked d lane).wire d 0).ack = (s.wire d 0).ack := congrArg Link.ack (modEth_wire (s.setRbit d Reg.ethStatus (4 + lane) false) d d 0 _)
  have hstays : ((s.laneMarked d lane).startNarrow d).portUp d = s.portUp d := (haims.only.rbit d _ 0).trans (laneMarked_rbit hl (by decide))
  refine ⟨_, laneFail_exec hd, ?_⟩
  rw [hrun, fenceLost_keeps_up s hstays]
  refine ⟨haims.narrow, ?_, ?_, ((ethStatus_sameMem s d _ false).trans hlinks.sameMem).trans haims.only.sameMem⟩
  · exact (haims.only.rbit d _ _).trans ((hlinks.rbit _ _ _).trans (State.rbit_setRbit_same s d _ _ false (by omega)))
  · rw [haims.out, hport.ctlOf hack, hlinks.out]
    rfl

/-! ## The handshake -/

theorem narrowRequest_exec {x : LinkCtl} (h : CtlHeard s d x) (lanes : Lanes) :
    exec (.narrowRequest d lanes x) s = .next ((s.ctlTaken d x).narrowAsked d lanes.width lanes.group) := (onDie_eq h.die).trans (congrArg _ (ctlIn_runs h _))

/-- The port once a group asked for sets the least that this end may choose. -/
def State.floorAt (s : State) (d rank : Nat) : State := s.modEth d fun e => { e with floor := Nat.max e.floor rank }

theorem floorAt_eth (s : State) (d rank : Nat) : (s.floorAt d rank).eth d = { s.eth d with floor := Nat.max (s.eth d).floor rank } :=
  eth_modEth s d (fun e => { e with floor := Nat.max e.floor rank }) fun _ => rfl

theorem floorAt_alike (s : State) (d rank : Nat) : CtlAlike s (s.floorAt d rank) d := .modEth s d (fun _ => rfl) (fun _ => rfl) fun _ => rfl

theorem narrowAsked_eq {width group : Nat} (hon : s.ximelOn d = true) (hw : width < 3) (hg : group < 8 / laneCount width) :
    s.narrowAsked d width group = if firstGroup (s.eth d).failed (Nat.max (s.eth d).floor (groupRank width group)) = some (groupRank width group)
      then (s.floorAt d (groupRank width group)).narrowAgree d width group else (s.floorAt d (groupRank width group)).startNarrow d := by
  refine (if_neg (by simp [hon]; omega)).trans ?_
  have hfirst : firstGroup ((s.floorAt d (groupRank width group)).eth d).failed ((s.floorAt d (groupRank width group)).eth d).floor =
      firstGroup (s.eth d).failed (Nat.max (s.eth d).floor (groupRank width group)) := by rw [floorAt_eth]
  by_cases h : firstGroup (s.eth d).failed (Nat.max (s.eth d).floor (groupRank width group)) = some (groupRank width group)
  · rw [if_pos h]
    exact if_pos (hfirst.trans h)
  · rw [if_neg h]
    exact if_neg (hfirst ▸ h)

/-- The full width is no answer to a request: the first place of a narrower group is past it. -/
theorem groupRank_pos {width : Nat} (h : width < 3) (group : Nat) : 1 ≤ groupRank width group := by
  unfold groupRank laneCount
  interval_cases width <;> omega

theorem narrowAsked_does {width group i : Nat} (hcan : CanSend s d) (hon : s.ximelOn d = true) (hw : width < 3) (hg : group < 8 / laneCount width)
    (hi : firstGroup (s.eth d).failed (Nat.max (s.eth d).floor (groupRank width group)) = some i) :
    (i = groupRank width group → Aims s (s.narrowAsked d width group) d 4 ⟨width, group, false, true⟩) ∧
    (i ≠ groupRank width group → Aims s (s.narrowAsked d width group) d 3 (askAt i)) := by
  have hv := floorAt_alike s d (groupRank width group)
  rw [narrowAsked_eq hon hw hg, hi]
  constructor
  · rintro rfl
    rw [if_pos rfl]
    have h := narrowAgree_aims (hv.port.canSend hcan) width group
    rw [if_neg (by omega)] at h
    exact .alike hv h
  · intro hne
    rw [if_neg (fun h => hne (Option.some.inj h))]
    refine .alike hv (startNarrow_aims (hv.port.canSend hcan) ?_)
    have hpos := groupRank_pos hw group
    rw [floorAt_eth, show Nat.max 1 (Nat.max (s.eth d).floor (groupRank width group)) = Nat.max (s.eth d).floor (groupRank width group) from
      Nat.max_eq_right (le_trans hpos (Nat.le_max_right _ _))]
    exact hi

theorem widenRequest_exec {x : LinkCtl} (h : CtlHeard s d x) : exec (.widenRequest ⟨d, x⟩) s = .next ((s.ctlTaken d x).widenAsked d) :=
  (onDie_eq h.die).trans (congrArg _ (ctlIn_runs h _))

/-- A narrowing that this end asked for, once its transmitter has switched. -/
theorem narrowSwitch_does {n : Narrow} (hn : (s.eth d).narrow = some n) (hmine : n.mine = true) : OnlyLinks s (s.narrowSwitch d) ∧
    ((s.narrowSwitch d).eth d).narrow = some { n with switched := true } := by
  unfold State.narrowSwitch State.modNarrow
  refine ⟨.modEth s d _, ?_⟩
  rw [eth_modEth s d (fun e => { e with narrow := e.narrow.map fun n => if n.mine then { n with switched := true } else n }) fun _ => rfl]
  show (s.eth d).narrow.map _ = _
  rw [hn]
  exact congrArg some (if_pos hmine)

theorem narrowAcked_eq {n : Narrow} (hn : (s.eth d).narrow = some n) : s.narrowAcked d n.width n.group = s.narrowSwitch d := by
  unfold State.narrowAcked
  rw [hn]
  exact if_pos (by simp)

theorem narrowAcked_runs {n : Narrow} {x : LinkCtl} {c : Instr} (hn : (s.eth d).narrow = some n) (hd : DieUp s d)
    (hc : c = .narrowAckTimeout d ∨ (c = .narrowAck d ⟨n.width, n.group⟩ x ∧ CtlHeard s d x) ∨ (c = .widenAck ⟨d, x⟩ ∧ CtlHeard s d x ∧ n.width = 3 ∧ n.group = 0)) :
    ∃ v, exec c s = .next (v.narrowSwitch d) ∧ OnlyLinks s v ∧ (v.eth d).narrow = some n := by
  have htaken : (((s.ctlTaken d x).eth d)).narrow = some n := by rw [(ctlTaken_eth s d x).eq]; exact hn
  rcases hc with rfl | ⟨rfl, hx⟩ | ⟨rfl, hx, hw, hg⟩
  · exact ⟨s, onDie_eq hd, .refl s, hn⟩
  · exact ⟨s.ctlTaken d x, (onDie_eq hd).trans (congrArg _ ((ctlIn_runs hx _).trans (narrowAcked_eq htaken))), ctlTaken_links s d x, htaken⟩
  · have h3 := narrowAcked_eq htaken
    rw [hw, hg] at h3
    exact ⟨s.ctlTaken d x, (onDie_eq hd).trans (congrArg _ ((ctlIn_runs hx _).trans h3)), ctlTaken_links s d x, htaken⟩

theorem narrowRequestRepeat_does {n : Narrow} (hd : DieUp s d) (hn : (s.eth d).narrow = some n) (hmine : n.mine = true) (hsw : n.switched = false)
    (hon : s.ximelOn d = true) (hcan : CanSend s d) :
    Does (.narrowRequestRepeat d) s fun t => t.regs = s.regs ∧ t.out = s.out ++ [s.ctlOf d (if n.width = 3 then 5 else 3) n.width n.group] := by
  have haims := ximelCtl_aims hcan hn (if n.width = 3 then 5 else 3)
  refine ⟨_, (onDie_eq hd).trans (congrArg _ ?_), haims.only.regs, haims.out⟩
  rw [hn]
  exact if_pos (by simp [hmine, hsw, hon])

/-! ## Alignment -/

theorem narrowAlignFail_exec (hd : DieUp s d) : exec (.narrowAlignFail d) s = .next (s.fenceLost (s.stepDown d) d) := onDie_eq hd

theorem stepDown_narrows {n : Narrow} {i : Nat} (hn : (s.eth d).narrow = some n) (hw : n.width ≠ 0) (hcan : CanSend s d)
    (hi : firstGroup (s.eth d).failed (Nat.max 1 (Nat.max (s.eth d).floor (groupRank (n.width - 1) 0))) = some i) : Aims s (s.stepDown d) d 3 (askAt i) := by
  have hrun : s.stepDown d = (s.floorAt d (groupRank (n.width - 1) 0)).startNarrow d := by
    unfold State.stepDown
    rw [hn]
    exact if_neg hw
  have hv := floorAt_alike s d (groupRank (n.width - 1) 0)
  rw [hrun]
  exact .alike hv (startNarrow_aims (hv.port.canSend hcan) (by rw [floorAt_eth]; exact hi))

theorem stepDown_last {n : Narrow} (hn : (s.eth d).narrow = some n) (hw : n.width = 0) : (s.stepDown d).portUp d = false := by
  have hrun : s.stepDown d = s.portDown d := by
    unfold State.stepDown
    rw [hn]
    exact if_pos hw
  rw [hrun]
  exact portUp_portDown s d

/-- The width in force once both ends are aligned. -/
def State.widthSet (s : State) (d : Nat) (n : Narrow) : State :=
  (s.setRf d Reg.ethStatus 2 2 n.width).setRf d Reg.ethStatus 4 8 (sumNat ((laneGroup n.width n.group).map fun l => 2 ^ l))

/-- What follows the width: a full width forgets the failed lanes, a narrower one is reported as degraded. -/
def State.widthNoted (s : State) (d : Nat) (n : Narrow) : State :=
  if n.width = 3 then s.modEth d fun e => { e with failed := [], floor := 0 } else s.narrowReport d

/-- The narrowing is over, and the peer is told the acknowledgement that is owed. -/
def State.narrowOver (s : State) (d : Nat) : State := (s.modEth d fun e => { e with narrow := none }).ximelCtl d 1 0 0 0

theorem narrowDone_eq {n : Narrow} {ack : Nat} (hn : (s.eth d).narrow = some n) (hsw : n.switched = true) (hon : s.ximelOn d = true)
    (hret : ((((((s.widthSet d n).widthNoted d n).narrowOver d).ximelAck d ack).ximelResend d).eth d).retrain = none) :
    s.narrowDone d ack = ((((s.widthSet d n).widthNoted d n).narrowOver d).ximelAck d ack).ximelResend d := by
  unfold State.narrowDone
  rw [hn]
  refine (if_neg (by simp [hsw, hon])).trans ?_
  show (match ((((((s.widthSet d n).widthNoted d n).narrowOver d).ximelAck d ack).ximelResend d).eth d).retrain with | some _ => _ | none => _) = _
  rw [hret]
  rfl

theorem widthSet_status (s : State) (d : Nat) (n : Narrow) : (s.widthSet d n).rf d Reg.ethStatus 2 2 = n.width % 4 ∧
    (s.widthSet d n).rf d Reg.ethStatus 4 8 = sumNat ((laneGroup n.width n.group).map fun l => 2 ^ l) % 256 :=
  ⟨(State.rf_setRf_other _ _ _ _ 2 2 (by omega) (by omega)).trans (State.rf_setRf_same _ _ _ _ _ _ (by decide)), State.rf_setRf_same _ _ _ _ _ _ (by decide)⟩

/-- What the end of a narrowing leaves of a port from the width on: the status, its links but for what they owe, and no retrain asked for. -/
structure Aligned (s t : State) (d : Nat) : Prop where
  status  : t.regN d Reg.ethStatus = s.regN d Reg.ethStatus
  wire    : ∃ o, t.wire d 0 = { s.wire d 0 with owed := o }
  retrain : (t.eth d).retrain = (s.eth d).retrain

theorem Aligned.trans (h : Aligned s t d) (g : Aligned t u d) : Aligned s u d := by
  obtain ⟨o, ho⟩ := g.wire
  obtain ⟨o', ho'⟩ := h.wire
  exact ⟨g.status.trans h.status, ⟨o, by rw [ho, ho']⟩, g.retrain.trans h.retrain⟩

/-- The state from which a narrowing is reported: a free value has been taken, the narrowing counted and RAS_STATUS set. -/
def State.narrowCounted (s : State) (d : Nat) : State := ((s.freeVal 32).2.bump d (ethCnt 0xF) 1).setRbit d Reg.rasStatus 0 true

theorem narrowReport_posts (s : State) (d : Nat) : Posts (s.narrowCounted d) (s.narrowReport d) := .eventAll _ _ _ _ _

theorem narrowReport_aligned (s : State) (d : Nat) : Aligned s (s.narrowReport d) d := by
  have hpost := narrowReport_posts s d
  refine ⟨(hpost.regN d (by decide)).trans ?_, ⟨(s.wire d 0).owed, ?_⟩, ?_⟩
  · exact State.regN_setRegN_other _ _ _ _ _ _ (State.regKey_ne (by decide) (by decide) (.inr (by decide)))
  · unfold State.wire
    rw [hpost.wires]
    rfl
  · unfold State.eth
    rw [hpost.eths]
    rfl

theorem narrowReport_does (s : State) (d : Nat) : (s.narrowReport d).rbit d Reg.rasStatus 0 = true ∧
    (s.narrowReport d).ctr d (ethCnt 0xF) = Nat.min ctrMax (s.ctr d (ethCnt 0xF) + 1) := by
  have hpost := narrowReport_posts s d
  exact ⟨(hpost.rbit d (by decide) 0).trans (State.rbit_setRbit_same _ d _ 0 true (by decide)),
    (hpost.ctr d _ (by decide)).trans (State.ctr_bump_same (s.freeVal 32).2 d _ 1)⟩

theorem widthNoted_aligned (s : State) (d : Nat) (n : Narrow) : Aligned s (s.widthNoted d n) d := by
  unfold State.widthNoted
  split
  · refine ⟨State.regN_congr (OnlyLinks.modEth s d _).regs (OnlyLinks.modEth s d _).part _ _, ⟨_, modEth_wire s d d 0 _⟩, ?_⟩
    rw [eth_modEth s d (fun e => { e with failed := [], floor := 0 }) fun _ => rfl]
  · exact narrowReport_aligned s d

theorem ximelCtl_keepsReg (s : State) (d kind width group : Nat) {o : Nat} (ho : o < 2 ^ 24) (hne : o ≠ Reg.grdStatus) :
    (s.ximelCtl d kind width group 0).regN d o = s.regN d o :=
  (OnlyPorts.ximelCtl s d kind width group 0).frame.2.regN (by simpa using State.regKey_ne ho (by decide) (.inr hne))

theorem ximelCtl_sameMem (s : State) (d kind width group : Nat) : SameMem s (s.ximelCtl d kind width group 0) := by
  obtain ⟨e, -⟩ := (OnlyPorts.ximelCtl s d kind width group 0).frame
  generalize s.ximelCtl d kind width group 0 = t at e ⊢
  rw [e]
  exact .of_eq rfl rfl

theorem narrowOver_eth (s : State) (d : Nat) : ((s.narrowOver d).eth d).narrow = none ∧ ((s.narrowOver d).eth d).retrain = (s.eth d).retrain := by
  unfold State.narrowOver
  rw [(ximelCtl_frame _ d 1 0 0 0).1.eq, eth_modEth s d (fun e => { e with narrow := none }) fun _ => rfl]
  exact ⟨rfl, rfl⟩

theorem narrowOver_regN (s : State) (d : Nat) {o : Nat} (ho : o < 2 ^ 24) (hne : o ≠ Reg.grdStatus) : (s.narrowOver d).regN d o = s.regN d o :=
  (ximelCtl_keepsReg _ d 1 0 0 ho hne).trans (State.regN_congr (OnlyLinks.modEth s d _).regs (OnlyLinks.modEth s d _).part _ _)

theorem narrowOver_aligned (s : State) (d : Nat) : Aligned s (s.narrowOver d) d :=
  ⟨narrowOver_regN s d (by decide) (by decide), ⟨false, (ximelCtl_frame _ d 1 0 0 0).2.1.trans (by rw [modEth_wire])⟩, (narrowOver_eth s d).2⟩

theorem narrowOver_sameMem (s : State) (d : Nat) : SameMem s (s.narrowOver d) := (OnlyLinks.modEth s d _).sameMem.trans (ximelCtl_sameMem _ d 1 0 0)

theorem narrowOver_ctr (s : State) (d : Nat) {i : Nat} (h : i ≠ 1) : (s.narrowOver d).ctr d (ethCnt i) = s.ctr d (ethCnt i) :=
  ((ximelCtl_frame _ d 1 0 0 0).2.2 d _ (by rw [Ne, regKey_eq_iff]; unfold ethCnt Reg.ethCntLo; omega)).trans (State.ctr_congr (OnlyLinks.modEth s d _).ctrs _ _)

/-- An acknowledgement and a replay that wears no frame out change links alone. -/
theorem ackResend_links {ack : Nat} (hret : (s.eth d).retrain = none) (hworn : ((s.wire d 0).acked ack).worn = false) :
    OnlyLinks s ((s.ximelAck d ack).ximelResend d) ∧ ((s.ximelAck d ack).ximelResend d).eth d = s.eth d := by
  rw [ximelAck_eq hret]
  have hw := wire_acked s d 0 ack
  have hlinks := OnlyLinks.modWire s d 0 fun l => l.acked ack
  by_cases hheld : ((s.modWire d 0 fun l => l.acked ack).wire d 0).held = []
  · have hrun : (s.modWire d 0 fun l => l.acked ack).ximelResend d = s.modWire d 0 fun l => l.acked ack := if_pos (by rw [hheld]; rfl)
    rw [hrun]
    exact ⟨hlinks, modWire_eth s d 0 d _⟩
  · rw [ximelResend_eq hheld (by rw [hw]; exact hworn)]
    exact ⟨hlinks.trans (.modWire _ d 0 _), (modWire_eth _ d 0 d _).trans (modWire_eth s d 0 d _)⟩

theorem narrowAlign_does {n : Narrow} {ack : Nat} (hd : DieUp s d) (hn : (s.eth d).narrow = some n) (hsw : n.switched = true) (hon : s.ximelOn d = true)
    (hworn : ((s.wire d 0).acked ack).worn = false) (hret : (s.eth d).retrain = none) :
    Does (.narrowAlign d ack) s fun t => (t.eth d).narrow = none ∧ t.rf d Reg.ethStatus 2 2 = n.width % 4 ∧
      t.rf d Reg.ethStatus 4 8 = sumNat ((laneGroup n.width n.group).map fun l => 2 ^ l) % 256 ∧
      (n.width = 3 → SameMem s t) ∧ (n.width ≠ 3 → t.rbit d Reg.rasStatus 0 = true ∧
        t.ctr d (ethCnt 0xF) = Nat.min ctrMax (s.ctr d (ethCnt 0xF) + 1)) := by
  have hal : Aligned (s.widthSet d n) (((s.widthSet d n).widthNoted d n).narrowOver d) d := (widthNoted_aligned _ d n).trans (narrowOver_aligned _ d)
  have hnarrow := (narrowOver_eth ((s.widthSet d n).widthNoted d n) d).1
  have hretrain : ((((s.widthSet d n).widthNoted d n).narrowOver d).eth d).retrain = none := hal.retrain.trans hret
  obtain ⟨o, ho⟩ := hal.wire
  obtain ⟨hlinks, heth⟩ := ackResend_links (ack := ack) hretrain (by rw [ho]; exact hworn)
  refine ⟨_, (onDie_eq hd).trans (congrArg _ (narrowDone_eq hn hsw hon (by rw [heth]; exact hretrain))), by rw [heth]; exact hnarrow, ?_, ?_, ?_, ?_⟩
  · exact ((congrArg (fld · 2 2) ((State.regN_congr hlinks.regs hlinks.part d _).trans hal.status)) :).trans (widthSet_status s d n).1
  · exact ((congrArg (fld · 4 8) ((State.regN_congr hlinks.regs hlinks.part d _).trans hal.status)) :).trans (widthSet_status s d n).2
  · intro hw
    have hnoted : SameMem s ((s.widthSet d n).widthNoted d n) := by
      rw [State.widthNoted, if_pos hw]
      exact (SameMem.of_eq (s := s) (t := s.widthSet d n) rfl rfl).trans (OnlyLinks.modEth _ d _).sameMem
    exact (hnoted.trans (narrowOver_sameMem _ d)).trans hlinks.sameMem
  · intro hw
    have hnoted : (s.widthSet d n).widthNoted d n = (s.widthSet d n).narrowReport d := if_neg hw
    obtain ⟨hras, hctr⟩ := narrowReport_does (s.widthSet d n) d
    rw [hnoted] at hlinks ⊢
    refine ⟨(hlinks.rbit d _ 0).trans ?_, (State.ctr_congr hlinks.ctrs _ _).trans ((narrowOver_ctr _ d (by decide)).trans hctr)⟩
    rw [State.rbit, narrowOver_regN _ d (by decide) (by decide)]
    exact hras

/-! ## Widening and retraining -/

theorem widen_does (hd : DieUp s d) (hup : s.portUp d = true) (hon : s.ximelOn d = true) (hwide : s.rf d Reg.ethStatus 2 2 ≠ 3) (hn : (s.eth d).narrow = none) :
    Does (.widen d) s fun t => (t.eth d).training = true ∧ t.rbit d Reg.ethStatus 15 = false ∧ SameMem s t := by
  have hbit : ∀ i, i < 15 → (s.setRbit d Reg.ethStatus 15 false).rbit d Reg.ethStatus i = s.rbit d Reg.ethStatus i := fun i hi =>
    (State.rbit_setRbit s d _ i false (by decide)).trans (if_neg (by omega))
  have hrf : (s.setRbit d Reg.ethStatus 15 false).rf d Reg.ethStatus 2 2 = s.rf d Reg.ethStatus 2 2 := State.rf_setRf_other s d _ _ 2 2 (by omega) (by omega)
  have hrun : s.widenStart d = (s.setRbit d Reg.ethStatus 15 false).modEth d fun e => { e with training := true } := by
    refine if_pos ?_
    have heth : (s.setRbit d Reg.ethStatus 15 false).eth d = s.eth d := rfl
    simp only [State.portUp, State.ximelOn, hbit 0 (by decide), hbit 1 (by decide), hrf, heth, hn] at hup hon ⊢
    simp [hup, hon, hwide]
  have hlinks := OnlyLinks.modEth (s.setRbit d Reg.ethStatus 15 false) d fun e => { e with training := true }
  refine ⟨_, (onDie_eq hd).trans (congrArg _ hrun), ?_, (hlinks.rbit d _ 15).trans (State.rbit_setRbit_same s d _ 15 false (by decide)),
    (ethStatus_sameMem s d 15 false).trans hlinks.sameMem⟩
  rw [eth_modEth (s.setRbit d Reg.ethStatus 15 false) d (fun e => { e with training := true }) fun _ => rfl]

/-- The port once its lanes have trained. -/
def State.trained (s : State) (d : Nat) : State := s.modEth d fun e => { e with training := false }

theorem trained_alike (s : State) (d : Nat) : CtlAlike s (s.trained d) d := .modEth s d (fun _ => rfl) (fun _ => rfl) fun _ => rfl

theorem widenTrainEnd_exec (hd : DieUp s d) (htr : (s.eth d).training = true) (lanes : List Nat) : exec (.widenTrainEnd d lanes) s =
    .next (if (List.range 8).all fun l => lanes.contains l then ((s.trained d).modEth d (Eth.aims ⟨3, 0, true, false⟩)).ximelCtl d 5 3 0 0
      else (s.trained d).setRbit d Reg.ethStatus 15 true) :=
  (onDie_eq hd).trans (congrArg _ (if_neg (by simp [htr])))

theorem widenTrainEnd_all {lanes : List Nat} (hd : DieUp s d) (htr : (s.eth d).training = true) (h : ∀ l, l < 8 → l ∈ lanes) (hcan : CanSend s d) :
    Does (.widenTrainEnd d lanes) s fun t => (t.eth d).narrow = some ⟨3, 0, true, false⟩ ∧ t.regs = s.regs ∧ t.out = s.out ++ [s.ctlOf d 5 3 0] := by
  have hv := trained_alike s d
  have haims := (aimed_aims (hv.port.canSend hcan) ⟨3, 0, true, false⟩ 5).alike hv
  refine ⟨_, (widenTrainEnd_exec hd htr lanes).trans (congrArg _ (if_pos ?_)), haims.narrow, haims.only.regs, haims.out⟩
  simpa using h

theorem widenTrainEnd_lost {lanes : List Nat} {l : Nat} (hd : DieUp s d) (htr : (s.eth d).training = true) (hl : l < 8) (h : l ∉ lanes) :
    Does (.widenTrainEnd d lanes) s fun t => t.rbit d Reg.ethStatus 15 = true ∧ (t.eth d).training = false ∧ SameMem s t := by
  refine ⟨_, (widenTrainEnd_exec hd htr lanes).trans (congrArg _ (if_neg ?_)), State.rbit_setRbit_same _ d _ 15 true (by decide), ?_,
    (trained_alike s d).links.sameMem.trans (ethStatus_sameMem _ d 15 true)⟩
  · simp only [List.all_eq_true, List.mem_range, List.contains_iff_mem, not_forall]
    exact ⟨l, hl, h⟩
  · exact (congrArg Eth.training (eth_modEth s d (fun e => { e with training := false }) fun _ => rfl) :)

theorem retrain_exec (hd : DieUp s d) (hup : s.portUp d = true) (hn : (s.eth d).narrow = none) (hret : (s.eth d).retrain = none) :
    exec (.retrain d) s = .next ((s.modEth d fun e => { e with retrain := some (s.prio7 d) }).retrainNow d (s.prio7 d)) :=
  (onDie_eq hd).trans (congrArg _ ((if_neg (by simp [hup, hret])).trans (if_neg (by simp [hn]))))

theorem retrain_idle (hd : DieUp s d) (hup : s.portUp d = true) (hn : (s.eth d).narrow = none) (hret : (s.eth d).retrain = none) (h : s.prio7 d = []) :
    Does (.retrain d) s fun t => t.portUp d = false ∧ SameMem s t :=
  ⟨_, (retrain_exec hd hup hn hret).trans (congrArg _ (if_pos (by rw [h]; rfl))), portUp_portDown _ d, (OnlyLinks.modEth s d _).sameMem.trans (portDown_sameMem _ d)⟩

theorem retrain_waits (hd : DieUp s d) (hup : s.portUp d = true) (hn : (s.eth d).narrow = none) (hret : (s.eth d).retrain = none) (h : s.prio7 d ≠ []) :
    Does (.retrain d) s fun t => t.portUp d = true ∧ t.rbit d Reg.ethStatus 12 = true ∧ (t.eth d).retrain = some (s.prio7 d) ∧ SameMem s t := by
  have hlinks := OnlyLinks.modEth s d fun e => { e with retrain := some (s.prio7 d) }
  refine ⟨_, (retrain_exec hd hup hn hret).trans (congrArg _ (if_neg (by simpa using h))), ?_, State.rbit_setRbit_same _ d _ 12 true (by decide), ?_,
    hlinks.sameMem.trans (ethStatus_sameMem _ d 12 true)⟩
  · exact ((State.rbit_setRbit _ d _ 0 true (by decide)).trans (if_neg (by decide))).trans ((hlinks.rbit d _ 0).trans hup)
  · exact (congrArg Eth.retrain (eth_modEth s d (fun e => { e with retrain := some (s.prio7 d) }) fun _ => rfl) :)

end Sys2Proof.Machine

open Sys2Proof Sys2Proof.Machine

/-- Settles O26: each event of the link's width is one step on the state that its control frame has been taken on; what such a frame carries
is the same there, and a fence of a port that is down leaves it down. -/
theorem linkWidth : Obligations.LinkWidth := by
  unfold Obligations.LinkWidth
  refine ⟨fun s d part step offers x hx ht => ximelCapability_does hx ht part step offers, ?lanes, ?requests, ?narrowing, ?widening, ?trained, ?retrain, ?deferred⟩
  case lanes =>
    exact fun s d lane hd hup hl => ⟨laneFail_off hd hup hl, fun i hon hwide hi hcan => laneFail_narrows hd hup hl hon hwide hi hcan⟩
  case requests =>
    intro s d width group i x hx hcan hon
    have hv := CtlAlike.ctlTaken s d x
    have hcan' := hv.port.canSend hcan
    have hon' := hv.ximelOn.trans hon
    constructor
    · intro hw hg hi
      obtain ⟨hagree, hown⟩ := narrowAsked_does hcan' hon' hw hg (by rw [(ctlTaken_eth s d x).eq]; exact hi)
      refine ⟨_, narrowRequest_exec hx _, ?_, fun h => ⟨(hagree h).narrow, ((hagree h).alike hv).out⟩, fun h => ⟨(hown h).narrow, ((hown h).alike hv).out⟩⟩
      by_cases h : i = groupRank width group
      · exact ((hagree h).alike hv).only.regs
      · exact ((hown h).alike hv).only.regs
    · have haims := (narrowAgree_aims hcan' 3 0).alike hv
      exact ⟨_, (widenRequest_exec hx).trans (congrArg _ (if_pos hon')), haims.narrow, haims.only.regs, haims.out⟩
  case narrowing =>
    refine fun s d n hd hn => ⟨?_, fun hmine hsw hon hcan => narrowRequestRepeat_does hd hn hmine hsw hon hcan,
      fun ack hsw hon hworn hret => narrowAlign_does hd hn hsw hon hworn hret, ?_, ?_⟩
    · intro hmine x c hc
      obtain ⟨v, hexec, hlinks, hnv⟩ := narrowAcked_runs hn hd hc
      obtain ⟨hsw, hnarrow⟩ := narrowSwitch_does hnv hmine
      exact ⟨_, hexec, hnarrow, (hlinks.trans hsw).regs, (hlinks.trans hsw).out⟩
    · exact fun hw => ⟨_, narrowAlignFail_exec hd, fenceLost_down s (stepDown_last hn hw)⟩
    · intro i hw hup hcan hi
      have haims := stepDown_narrows hn hw hcan hi
      refine ⟨_, narrowAlignFail_exec hd, ?_⟩
      rw [fenceLost_keeps_up s (haims.only.rbit d _ 0)]
      exact ⟨haims.narrow, haims.out, haims.only.regs⟩
  case widening => exact fun s d hd hup hon hwide hn => widen_does hd hup hon hwide hn
  case trained =>
    exact fun s d lanes hd htr => ⟨fun h hcan => widenTrainEnd_all hd htr h hcan, fun l hl h => widenTrainEnd_lost hd htr hl h⟩
  case retrain => exact fun s d hd hup hn hret => ⟨retrain_idle hd hup hn hret, retrain_waits hd hup hn hret⟩
  case deferred =>
    exact fun s d hd h => ⟨_, (onDie_eq hd).trans (congrArg _ (if_pos h)), portUp_portDown s d, portDown_sameMem s d⟩

end

section
/-! PROOF. The transport of remote access: what its steps may change, its contexts and connections, and what answers do at the sender. -/

namespace Sys2Proof.Machine

/-! ## A packet that waits to leave -/

theorem Queued.modEth {s : State} {d : Nat} {P : Packet → Prop} (h : Queued s d P) (e : Nat) {f : Eth → Eth} (hd : ∀ x, (f x).d = x.d)
    (hq : ∀ x g, g ∈ x.txq → g ∈ (f x).txq) : Queued (s.modEth e f) d P := by
  obtain ⟨g, hg, hrest⟩ := h
  refine ⟨g, ?_, hrest⟩
  by_cases he : d = e
  · subst he
    rw [eth_modEth s d f hd]
    exact hq _ g hg
  · rw [eth_modEth_other s e d f hd he]
    exact hg

theorem Queued.of_eths {s t : State} {d : Nat} {P : Packet → Prop} (h : Queued s d P) (he : t.eths = s.eths) : Queued t d P := by
  unfold Queued State.eth
  rw [he]
  exact h

/-- A frame joins the transmit queue, ahead of those that are not in front where it is. -/
theorem mem_queueTx (s : State) (d : Nat) (f g : TxFrame) : g ∈ ((s.queueTx d f).eth d).txq ↔ g = f ∨ g ∈ (s.eth d).txq := by
  unfold State.queueTx
  rw [eth_modEth s d (fun e => if f.front then { e with txq := (e.txq.filter fun x => x.front) ++ [f] ++ e.txq.filter fun x => !x.front } else { e with txq := e.txq ++ [f] })
    fun e => by split <;> rfl]
  split
  · simp only [List.mem_append, List.mem_filter, List.mem_singleton]
    cases g.front <;> simp [or_comm]
  · simp [or_comm]

theorem Queued.queueTx {s : State} {d : Nat} {P : Packet → Prop} (h : Queued s d P) (e : Nat) (f : TxFrame) : Queued (s.queueTx e f) d P := by
  obtain ⟨g, hg, hrest⟩ := h
  refine ⟨g, ?_, hrest⟩
  by_cases he : d = e
  · subst he
    exact (mem_queueTx s d f g).mpr (.inr hg)
  · unfold State.queueTx
    rw [eth_modEth_other s e d (fun e => if f.front then { e with txq := (e.txq.filter fun x => x.front) ++ [f] ++ e.txq.filter fun x => !x.front } else { e with txq := e.txq ++ [f] })
      (fun e => by split <;> rfl) he]
    exact hg

/-- A port once the oldest frame of a unit has been taken out of its pools. -/
def Eth.tookRx (c : Nat) (e : Eth) : Eth :=
  match e.rx.findIdx? fun x => x.1 == c with
  | some i => { e with rx := e.rx.take i ++ e.rx.drop (i + 1) }
  | none => e

theorem Eth.tookRx_keeps (c : Nat) (e : Eth) : (Eth.tookRx c e).d = e.d ∧ (Eth.tookRx c e).txq = e.txq := by
  unfold Eth.tookRx
  split
  · exact ⟨rfl, rfl⟩
  · exact ⟨rfl, rfl⟩

/-! ## What a connection's steps may change -/

/-- From `s` to `t` a connection has talked: ports, counters, what leaves the package, connections beyond their contexts and descriptors may
have changed, and no packet that waited to leave is gone. -/
structure Chats (s t : State) : Prop where
  eq     : t = { s with eths := t.eths, ctrs := t.ctrs, freeCtr := t.freeCtr, out := t.out, xt := { s.xt with conns := t.xt.conns },
                        seq := { s.seq with works := t.seq.works } }
  queued : ∀ d P, Queued s d P → Queued t d P

namespace Chats

variable {s t u : State}

theorem refl (s : State) : Chats s s := ⟨rfl, fun _ _ => id⟩

theorem trans (h : Chats s t) (g : Chats t u) : Chats s u := by
  refine ⟨?_, fun d P hq => g.queued d P (h.queued d P hq)⟩
  have e := g.eq
  rw [h.eq] at e
  exact e

theorem ite {c : Prop} [Decidable c] (h : Chats s t) (g : Chats s u) : Chats s (if c then t else u) := by
  split
  · exact h
  · exact g

theorem bump (s : State) (d o n : Nat) : Chats s (s.bump d o n) := ⟨rfl, fun _ _ => id⟩

theorem reach (s : State) (p : Nat) (wr : Bool) (a len : Nat) : Chats s (s.reach p wr a len) := by
  obtain ⟨⟨c, n, o, e⟩, -⟩ := reach_frame s p wr a len
  rw [e]
  exact ⟨rfl, fun _ _ => id⟩

theorem modConn (s : State) (c : Nat) (f : Conn → Conn) : Chats s (s.modConn c f) := by
  unfold State.modConn
  exact ite ⟨rfl, fun _ _ => id⟩ ⟨rfl, fun _ _ => id⟩

theorem modIn (s : State) (c msn : Nat) (f : XIn → XIn) : Chats s (s.modIn c msn f) := modConn s c _

theorem modWork (s : State) (id : Nat) (f : Work → Work) : Chats s (s.modWork id f) := ⟨rfl, fun _ _ h => h⟩
theorem endWork (s : State) (id : Nat) (f : Rec → Rec) : Chats s (s.endWork id f) := modWork s id _
theorem endStatus (s : State) (id st : Nat) : Chats s (s.endStatus id st) := modWork s id _

theorem queueTx (s : State) (d : Nat) (f : TxFrame) : Chats s (s.queueTx d f) := by
  have hq : ∀ e P, Queued s e P → Queued (s.queueTx d f) e P := fun e P h => h.queueTx d f
  unfold State.queueTx at hq ⊢
  obtain ⟨l, hl⟩ := modEth_state s d fun e => if f.front then { e with txq := (e.txq.filter fun x => x.front) ++ [f] ++ e.txq.filter fun x => !x.front }
    else { e with txq := e.txq ++ [f] }
  dsimp only at hq ⊢
  rw [hl] at hq ⊢
  exact ⟨rfl, hq⟩

theorem takeRx (s : State) (d c : Nat) : Chats s (s.takeRx d c) := by
  have hq : ∀ e P, Queued s e P → Queued (s.modEth d (Eth.tookRx c)) e P := fun e P h => h.modEth d (Eth.tookRx_keeps c · |>.1) fun x g hg => by
    rw [(Eth.tookRx_keeps c x).2]
    exact hg
  show Chats s (s.modEth d (Eth.tookRx c))
  obtain ⟨l, hl⟩ := modEth_state s d (Eth.tookRx c)
  rw [hl] at hq ⊢
  exact ⟨rfl, hq⟩

theorem sendPacket (s : State) (b : List Byte) (k : Packet) (front : Bool) : Chats s (s.sendPacket b k front) := by
  unfold State.sendPacket
  exact ite ((bump s _ _ _).trans (queueTx _ _ _)) (refl s)

theorem sendAck (s : State) (d c : Nat) : Chats s (s.sendAck d c) := (modConn s c _).trans (sendPacket _ _ _ _)
theorem sendNak (s : State) (d c synd msn : Nat) : Chats s (s.sendNak d c synd msn) := (bump s _ _ _).trans (sendPacket _ _ _ _)

theorem foldl {α : Type} {f : State → α → State} (l : List α) (hf : ∀ t a, Chats t (f t a)) (s : State) : Chats s (l.foldl f s) :=
  foldl_keeps (P := Chats s) (fun t a h => h.trans (hf t a)) l (refl s)

theorem pump (d c : Nat) (n : Nat) (s : State) : Chats s (State.pump d c n s) := by
  induction n generalizing s with
  | zero => exact refl s
  | succ n ih =>
    unfold State.pump
    refine ite (refl s) ?_
    split
    · exact refl s
    · split
      · exact refl s
      · exact ((sendPacket s _ _ _).trans (modConn _ c _)).trans (ih _)

theorem resend (s : State) (d c : Nat) (pick : Nat → Bool) : Chats s (s.resend d c pick) := by
  refine foldl _ (fun t m => ?_) s
  dsimp only
  split
  · exact refl t
  · exact foldl _ (fun v i => ite ((bump v _ _ _).trans (sendPacket _ _ _ _)) (refl v)) t

theorem settleMsgs (c n : Nat) (s : State) : Chats s (State.settleMsgs c n s) := by
  induction n generalizing s with
  | zero => exact refl s
  | succ n ih =>
    unfold State.settleMsgs
    split
    · exact refl s
    · exact ite (((modConn s c _).trans (endWork _ _ _)).trans (ih _)) (refl s)

theorem flushMsgs (s : State) (c : Nat) (msn : Option Nat) (status detail : Nat) : Chats s (s.flushMsgs c msn status detail) :=
  (foldl _ (fun t _ => ite (endWork t _ _) (endStatus t _ _)) s).trans (modConn _ c _)

theorem flushConn (s : State) (c : Nat) (msn : Option Nat) (status detail : Nat) : Chats s (s.flushConn c msn status detail) :=
  (flushMsgs s c msn status detail).trans (modConn _ c _)

theorem ackTo (s : State) (d c psn : Nat) : Chats s (s.ackTo d c psn) :=
  ((ite (modConn s c _) (refl s)).trans (settleMsgs c _ _)).trans (pump d c _ _)

theorem countSynd (s : State) (d synd : Nat) : Chats s (s.countSynd d synd) := by
  unfold State.countSynd
  split
  case h_6 => exact refl s
  all_goals exact bump s d _ 1

end Chats

/-- From `s` to `t` a connection has talked: ports, counters, what leaves the package, connections, their contexts at hand and
descriptors may have changed, the same contexts are at hand, and no packet that waited to leave is gone. -/
structure Talks (s t : State) : Prop where
  eq     : t = { s with eths := t.eths, ctrs := t.ctrs, freeCtr := t.freeCtr, out := t.out, xt := { s.xt with conns := t.xt.conns, ctxs := t.xt.ctxs },
                        seq := { s.seq with works := t.seq.works } }
  cached : ∀ c, t.cached c = s.cached c
  queued : ∀ d P, Queued s d P → Queued t d P

theorem Chats.talks {s t : State} (h : Chats s t) : Talks s t := by
  have e := h.eq
  refine ⟨?_, fun c => ?_, h.queued⟩
  · rw [e]
  · rw [e]
    rfl

namespace Talks

variable {s t u : State}

theorem refl (s : State) : Talks s s := ⟨rfl, fun _ => rfl, fun _ _ => id⟩

theorem trans (h : Talks s t) (g : Talks t u) : Talks s u := by
  refine ⟨?_, fun c => (g.cached c).trans (h.cached c), fun d P hq => g.queued d P (h.queued d P hq)⟩
  have e := g.eq
  rw [h.eq] at e
  exact e

theorem regs (h : Talks s t) : t.regs = s.regs := by rw [h.eq]
theorem part (h : Talks s t) : t.part = s.part := by rw [h.eq]
theorem mem (h : Talks s t) : t.mem = s.mem := by rw [h.eq]
theorem wiped (h : Talks s t) : t.wiped = s.wiped := by rw [h.eq]
theorem poison (h : Talks s t) : t.poison = s.poison := by rw [h.eq]
theorem sameMem (h : Talks s t) : SameMem s t := .of_eq h.mem h.wiped

theorem regN (h : Talks s t) (d o : Nat) : t.regN d o = s.regN d o := State.regN_congr h.regs h.part d o
theorem rbit (h : Talks s t) (d o i : Nat) : t.rbit d o i = s.rbit d o i := congrArg (bit · i) (h.regN d o)
theorem rf (h : Talks s t) (d o lo len : Nat) : t.rf d o lo len = s.rf d o lo len := congrArg (fld · lo len) (h.regN d o)

theorem bytes (h : Talks s t) (a n : Nat) : t.bytes a n = s.bytes a n := by
  unfold State.bytes
  exact List.map_congr_left fun i _ => h.sameMem (a + i)

theorem xtOn (h : Talks s t) (d : Nat) : t.xtOn d = s.xtOn d := h.rbit d _ 0

theorem sends (h : Talks s t) {b : List Byte} (hb : Sends s b) : Sends t b := ⟨(h.xtOn _).trans hb.on, (h.rbit _ _ _).trans hb.ver⟩

theorem ctxAddr (h : Talks s t) (d c : Nat) : t.ctxAddr d c = s.ctxAddr d c := by
  unfold State.ctxAddr State.regAddr State.regPair
  rw [h.regN, h.regN]

/-- A context at hand is set at hand. -/
theorem setCtx (s : State) (d : Nat) {c : Nat} (hc : s.cached c = true) (b : List Byte) : Talks s (s.setCtx d c b) := by
  have hrun : s.setCtx d c b = { s with xt := { s.xt with ctxs := mapIf (fun x => x.c == c) (fun x => { x with bytes := b }) s.xt.ctxs } } := if_pos hc
  rw [hrun]
  refine ⟨rfl, fun c' => ?_, fun _ _ => id⟩
  have hany : ∀ l : List Ctx, (mapIf (fun x => x.c == c) (fun x : Ctx => { x with bytes := b }) l).any (fun x => x.c == c') = l.any fun x => x.c == c' := fun l => by
    rw [mapIf, List.any_map]
    refine congrArg l.any (funext fun x => ?_)
    dsimp only [Function.comp]
    split <;> rfl
  exact hany s.xt.ctxs

theorem ctxPut (s : State) (d : Nat) {c : Nat} (hc : s.cached c = true) (o : Nat) (v : List Byte) : Talks s (s.ctxPut d c o v) := setCtx s d hc _

theorem touchCtx (s : State) (c : Nat) : Talks s (s.touchCtx c) := by
  refine ⟨rfl, fun c' => ?_, fun _ _ => id⟩
  have hany : (s.touchCtx c).cached c' = ((s.xt.ctxs.filter fun x => x.c != c) ++ s.xt.ctxs.filter fun x => x.c == c).any fun x => x.c == c' := rfl
  rw [hany, Bool.eq_iff_iff]
  simp only [State.cached, List.any_eq_true, List.mem_append, List.mem_filter, bne_iff_ne, beq_iff_eq]
  constructor
  · rintro ⟨x, hx | hx, he⟩
    · exact ⟨x, hx.1, he⟩
    · exact ⟨x, hx.1, he⟩
  · rintro ⟨x, hx, he⟩
    by_cases h : x.c = c
    · exact ⟨x, .inr ⟨hx, h⟩, he⟩
    · exact ⟨x, .inl ⟨hx, h⟩, he⟩

theorem connError (s : State) (d : Nat) {c : Nat} (hc : s.cached c = true) (synd psn : Nat) (msn : Option Nat) (status : Nat) :
    Talks s (s.connError d c synd psn msn status) := by
  have h1 := ctxPut s d hc 3 (natLe 1 (leAt (s.ctx d c) 3 1 / 8 * 8 + 2))
  have h2 := ctxPut (s.ctxPut d c 3 (natLe 1 (leAt (s.ctx d c) 3 1 / 8 * 8 + 2))) d ((h1.cached c).trans hc) 80 (natLe 1 synd ++ natLe 3 psn)
  exact (h1.trans h2).trans (Chats.flushConn _ c msn status synd).talks

end Talks

/-! ## Contexts -/

variable {s t u : State} {d c : Nat}

theorem Chats.ctx (h : Chats s t) (d c : Nat) : t.ctx d c = s.ctx d c := by
  have hbytes := h.talks.bytes
  have haddr := h.talks.ctxAddr d c
  have hin : t.ctxIn d c = s.ctxIn d c := by
    unfold State.ctxIn
    rw [haddr, h.talks.part]
  have hctxs : t.xt.ctxs = s.xt.ctxs := by rw [h.eq]
  unfold State.ctx
  rw [hctxs, hin, haddr, hbytes]

/-- A context at hand is the same from every die. -/
theorem ctx_any (hc : s.cached c = true) (d e : Nat) : s.ctx d c = s.ctx e c := by
  obtain ⟨x, hx⟩ := List.find?_isSome.mpr (List.any_eq_true.mp hc) |> Option.isSome_iff_exists.mp
  unfold State.ctx
  rw [hx]

theorem ctx_setCtx (hc : s.cached c = true) (d e : Nat) (b : List Byte) : (s.setCtx d c b).ctx e c = b := by
  have hrun : s.setCtx d c b = { s with xt := { s.xt with ctxs := mapIf (fun x => x.c == c) (fun x => { x with bytes := b }) s.xt.ctxs } } := if_pos hc
  obtain ⟨x, hx⟩ := List.find?_isSome.mpr (List.any_eq_true.mp hc) |> Option.isSome_iff_exists.mp
  have hfind : (mapIf (fun x => x.c == c) (fun x : Ctx => { x with bytes := b }) s.xt.ctxs).find? (fun x => x.c == c) = some { x with bytes := b } := by
    rw [find_mapIf (fun x : Ctx => x.c == c) (fun x : Ctx => { x with bytes := b }) fun _ h => h, hx]
    rfl
  rw [hrun]
  unfold State.ctx
  dsimp only
  rw [hfind]

theorem ctx_ctxPut (hc : s.cached c = true) (d e o : Nat) (v : List Byte) : (s.ctxPut d c o v).ctx e c = spliceAt (s.ctx d c) o v := ctx_setCtx hc d e _

theorem ctx_touchCtx (s : State) (d c : Nat) : (s.touchCtx c).ctx d c = s.ctx d c := by
  have hnone : (s.xt.ctxs.filter fun x => x.c != c).find? (fun x => x.c == c) = none := by
    refine List.find?_eq_none.mpr fun x hx => ?_
    simpa using (List.mem_filter.mp hx).2
  have hfind : (s.touchCtx c).xt.ctxs.find? (fun x => x.c == c) = s.xt.ctxs.find? fun x => x.c == c := by
    show ((s.xt.ctxs.filter fun x => x.c != c) ++ s.xt.ctxs.filter fun x => x.c == c).find? (fun x => x.c == c) = _
    rw [List.find?_append, hnone, List.find?_filter]
    simp
    rfl
  unfold State.ctx
  rw [hfind]
  rfl

/-- The bytes of a context outside those set. -/
theorem leAt_spliceAt_low {b v : List Byte} {o p n : Nat} (ho : o ≤ b.length) (h : p + n ≤ o) : leAt (spliceAt b o v) p n = leAt b p n :=
  leAt_congr fun j hj => (getD_spliceAt ho _).trans (if_neg (by omega))

/-- A byte that a splice sets. -/
theorem leAt_spliceAt_byte {b v : List Byte} {o : Nat} (ho : o ≤ b.length) (hv : 0 < v.length) : leAt (spliceAt b o v) o 1 = (v.getD 0 0).toNat := by
  rw [leAt_one, getD_spliceAt ho, if_pos ⟨le_refl _, by omega⟩, Nat.sub_self]

/-! ## Connections beyond their contexts -/

theorem conn_congr (h : t.xt.conns = s.xt.conns) (c : Nat) : t.conn c = s.conn c := by
  unfold State.conn
  rw [h]

theorem conn_is (s : State) (c : Nat) : (s.conn c).c = c := by
  unfold State.conn
  cases hfind : s.xt.conns.find? fun x => x.c == c with
  | none => rfl
  | some x => exact beq_iff_eq.mp (List.find?_some (p := fun x : Conn => x.c == c) hfind)

theorem conn_modConn (s : State) (c : Nat) (f : Conn → Conn) (hf : ∀ x, (f x).c = x.c) : (s.modConn c f).conn c = f (s.conn c) := by
  unfold State.modConn State.conn
  split
  · dsimp only
    rename_i hany
    obtain ⟨x, hx⟩ := List.find?_isSome.mpr (List.any_eq_true.mp hany) |> Option.isSome_iff_exists.mp
    rw [find_mapIf _ _ (fun x h => by rw [hf]; exact h), hx]
    rfl
  · rename_i hany
    have hnone : (s.xt.conns.find? fun x => x.c == c) = none := by
      refine List.find?_eq_none.mpr fun x hx hp => hany (List.any_eq_true.mpr ⟨x, hx, hp⟩)
    dsimp only
    rw [List.find?_append, hnone, List.find?_cons_of_pos (by rw [hf]; exact beq_self_eq_true c)]
    rfl

theorem queueTx_xt (s : State) (d : Nat) (f : TxFrame) : (s.queueTx d f).xt = s.xt := by
  unfold State.queueTx
  dsimp only
  rw [(OnlyLinks.modEth s d _).eq]

theorem sendPacket_xt (s : State) (b : List Byte) (k : Packet) (front : Bool) : (s.sendPacket b k front).xt = s.xt := by
  refine (apply_ite State.xt _ _ _).trans ?_
  rw [queueTx_xt]
  exact ite_self _

theorem conn_sendPacket (s : State) (b : List Byte) (k : Packet) (front : Bool) (c : Nat) : (s.sendPacket b k front).conn c = s.conn c :=
  conn_congr (congrArg Xt.conns (sendPacket_xt s b k front)) c

/-- A connection once the next packet of a message has been sent. -/
def Conn.sentOne (id : Nat) (x : Conn) : Conn := { x with msgs := mapIf (fun y => y.id == id) (fun y => { y with sent := y.sent + 1 }) x.msgs }

/-- A connection once its first message has ended. -/
def Conn.settled (id : Nat) (rest : List XMsg) (x : Conn) : Conn := { x with msgs := rest, done := x.done ++ [id] }

theorem conn_sentOne (s : State) (c id : Nat) : (s.modConn c (Conn.sentOne id)).conn c = (s.conn c).sentOne id := conn_modConn s c _ fun _ => rfl

theorem conn_settled (s : State) (c id : Nat) (rest : List XMsg) : (s.modConn c (Conn.settled id rest)).conn c = (s.conn c).settled id rest :=
  conn_modConn s c (Conn.settled id rest) fun _ => rfl

/-- Sending what the window allows changes how far the messages of the connection have been sent. -/
theorem pump_conn (d c n : Nat) (s : State) : ∃ ms, (State.pump d c n s).conn c = { s.conn c with msgs := ms } := by
  induction n generalizing s with
  | zero => exact ⟨_, rfl⟩
  | succ n ih =>
    unfold State.pump
    extract_lets b
    split
    · exact ⟨_, rfl⟩
    · split
      · exact ⟨_, rfl⟩
      · next m _ =>
        split
        · exact ⟨_, rfl⟩
        · next w _ =>
          extract_lets s1 s2
          obtain ⟨ms, h⟩ := ih s2
          rw [h, show s2.conn c = (s1.conn c).sentOne m.id from conn_sentOne s1 c m.id, conn_sendPacket]
          exact ⟨ms, rfl⟩

theorem settleMsgs_cons {m : XMsg} {rest : List XMsg} (hm : (s.conn c).msgs = m :: rest) (n : Nat) : State.settleMsgs c (n + 1) s =
    if (s.conn c).msgDone m then State.settleMsgs c n ((s.modConn c (Conn.settled m.id rest)).endWork m.id fun r => r) else s := by
  conv_lhs => unfold State.settleMsgs
  rw [hm]
  rfl

theorem settleMsgs_nil (hm : (s.conn c).msgs = []) (n : Nat) : State.settleMsgs c n s = s := by
  cases n with
  | zero => rfl
  | succ n =>
    unfold State.settleMsgs
    rw [hm]

/-- Ending the leading messages takes them off the connection and notes their descriptors. -/
theorem settleMsgs_conn (c n : Nat) (s : State) : ∃ ms ds, (State.settleMsgs c n s).conn c = { s.conn c with msgs := ms, done := (s.conn c).done ++ ds } := by
  have hsame : ∃ ms ds, s.conn c = { s.conn c with msgs := ms, done := (s.conn c).done ++ ds } := ⟨(s.conn c).msgs, [], by rw [List.append_nil]⟩
  induction n generalizing s with
  | zero => exact hsame
  | succ n ih =>
    cases hm : (s.conn c).msgs with
    | nil =>
      rw [settleMsgs_nil hm]
      exact hsame
    | cons m rest =>
      rw [settleMsgs_cons hm]
      split
      · obtain ⟨ms, ds, h⟩ := ih ((s.modConn c (Conn.settled m.id rest)).endWork m.id fun r => r) ⟨_, [], by rw [List.append_nil]⟩
        have hend : ((s.modConn c (Conn.settled m.id rest)).endWork m.id fun r => r).conn c = (s.conn c).settled m.id rest := conn_settled s c m.id rest
        rw [h, hend]
        exact ⟨ms, m.id :: ds, by rw [Conn.settled, List.append_assoc]; rfl⟩
      · exact hsame

theorem endWork_ended {i : Nat} (h : ∃ v, s.work i = some v ∧ v.ended = true) (j : Nat) (f : Rec → Rec) : ∃ v, (s.endWork j f).work i = some v ∧ v.ended = true := by
  obtain ⟨v, hv, hended⟩ := h
  by_cases hj : i = j
  · subst hj
    exact ⟨_, by rw [work_endWork, hv]; rfl, rfl⟩
  · exact ⟨v, by rw [work_endWork_other s f hj, hv], hended⟩

theorem work_of_seq (h : t.seq = s.seq) (i : Nat) : t.work i = s.work i := by
  unfold State.work
  rw [h]

theorem settleMsgs_ended (c n : Nat) {s : State} {i : Nat} (h : ∃ v, s.work i = some v ∧ v.ended = true) :
    ∃ v, (State.settleMsgs c n s).work i = some v ∧ v.ended = true := by
  induction n generalizing s with
  | zero => exact h
  | succ n ih =>
    cases hm : (s.conn c).msgs with
    | nil =>
      rw [settleMsgs_nil hm]
      exact h
    | cons m rest =>
      rw [settleMsgs_cons hm]
      split
      · refine ih (endWork_ended ?_ _ _)
        rw [work_of_seq (modConn_seq s c _)]
        exact h
      · exact h

/-- The first message is done: its descriptor ends. -/
theorem settleMsgs_first {m : XMsg} {rest : List XMsg} {w : Work} (hm : (s.conn c).msgs = m :: rest) (hdone : (s.conn c).msgDone m = true) (hw : s.work m.id = some w) (n : Nat) :
    m.id ∈ ((State.settleMsgs c (n + 1) s).conn c).done ∧ ∃ v, (State.settleMsgs c (n + 1) s).work m.id = some v ∧ v.ended = true := by
  rw [settleMsgs_cons hm, if_pos hdone]
  constructor
  · obtain ⟨ms, ds, h⟩ := settleMsgs_conn c n ((s.modConn c (Conn.settled m.id rest)).endWork m.id fun r => r)
    have hend : ((s.modConn c (Conn.settled m.id rest)).endWork m.id fun r => r).conn c = (s.conn c).settled m.id rest := conn_settled s c m.id rest
    rw [h, hend]
    simp [Conn.settled]
  · have hwork : (s.modConn c (Conn.settled m.id rest)).work m.id = some w := (work_of_seq (modConn_seq s c _) _).trans hw
    obtain ⟨v, hv, hended, -⟩ := ended_endWork hwork fun r => r
    exact settleMsgs_ended c n ⟨v, hv, hended⟩

/-! ## A packet that finds its connection -/

/-- The state that a packet acts on once its connection is found: the frame has left the pools, the packet and the hit are counted, and the
context is the one used last. -/
def State.atConn (s : State) (d c : Nat) : State :=
  (((s.takeRx d 0x0800).bump (ctxPort (s.ctx d c)) (xtCnt 5) 1).touchCtx c).bump (ctxPort (s.ctx d c)) (xtCnt 1) 1

/-- What a packet does on a ready connection, by opcode. -/
def State.served (s : State) (d c : Nat) (k : Packet) : State :=
  match k.opcode with
  | 0 => s.dataPacket d c k
  | 1 => s.dataPacket d c k
  | 2 => s.dataPacket d c k
  | 3 => s.respIn d c k
  | 4 => s.ackIn d c k
  | _ => s.nakIn d c k

theorem atConn_ctx (hc : s.cached c = true) (e : Nat) : (s.atConn d c).ctx e c = s.ctx d c := by
  have hchat : Chats s ((s.takeRx d 0x0800).bump (ctxPort (s.ctx d c)) (xtCnt 5) 1) := (Chats.takeRx s d 0x0800).trans (.bump _ _ _ _)
  exact ((Chats.bump _ _ _ _).ctx e c).trans ((ctx_touchCtx _ e c).trans ((hchat.ctx e c).trans (ctx_any hc e d)))

theorem atConn_talks (s : State) (d c : Nat) : Talks s (s.atConn d c) :=
  (((Chats.takeRx s d 0x0800).trans (.bump _ _ _ _)).talks.trans (.touchCtx _ c)).trans (Chats.bump _ _ _ _).talks

theorem atConn_same (s : State) (d c : Nat) : (s.atConn d c).xt.conns = s.xt.conns ∧ (s.atConn d c).seq = s.seq := by
  have h : ∀ v : State, Chats s v → v.xt.conns = s.xt.conns → v.seq = s.seq → ((((v.bump (ctxPort (s.ctx d c)) (xtCnt 5) 1).touchCtx c).bump (ctxPort (s.ctx d c)) (xtCnt 1) 1)).xt.conns =
      s.xt.conns ∧ ((((v.bump (ctxPort (s.ctx d c)) (xtCnt 5) 1).touchCtx c).bump (ctxPort (s.ctx d c)) (xtCnt 1) 1)).seq = s.seq := fun v _ h1 h2 => ⟨h1, h2⟩
  have hlinks := (takeRx_links s d 0x0800).1
  exact h _ (.takeRx s d 0x0800) (by rw [hlinks.eq]) (by rw [hlinks.eq])

theorem atConn_conn (s : State) (d c : Nat) : (s.atConn d c).conn c = s.conn c := conn_congr (atConn_same s d c).1 c

theorem atConn_work (s : State) (d c i : Nat) : (s.atConn d c).work i = s.work i := work_of_seq (atConn_same s d c).2 i

/-- The state in which the transport of the connection's PORT die finds the context. -/
def State.hit (s : State) (d c : Nat) : State := ((s.takeRx d 0x0800).bump (ctxPort (s.ctx d c)) (xtCnt 5) 1).touchCtx c

theorem hit_ctx (hc : s.cached c = true) (e : Nat) : (s.hit d c).ctx e c = s.ctx d c := by
  have hchat : Chats s ((s.takeRx d 0x0800).bump (ctxPort (s.ctx d c)) (xtCnt 5) 1) := (Chats.takeRx s d 0x0800).trans (.bump _ _ _ _)
  exact (ctx_touchCtx _ e c).trans ((hchat.ctx e c).trans (ctx_any hc e d))

theorem packetRun_served {k : Packet} (hc : s.cached c = true) (hready : ctxState (s.ctx d c) = 1) :
    (s.hit d c).packetRun (ctxPort (s.ctx d c)) c k = (s.atConn d c).served (ctxPort (s.ctx d c)) c k := by
  unfold State.packetRun State.onConn
  rw [hit_ctx hc, if_neg (by rw [hready]; decide), if_neg (by rw [hready]; decide)]
  rfl

/-- A packet that reaches its connection acts on it. -/
theorem packetIn_served {k : Packet} (h : AtConn s d k.dstConn) : s.packetIn d k =
    (s.atConn d k.dstConn).served (ctxPort (s.ctx d k.dstConn)) k.dstConn k := by
  have hctx : (s.takeRx d 0x0800).ctx d k.dstConn = s.ctx d k.dstConn := (Chats.takeRx s d 0x0800).ctx d k.dstConn
  have hlinks := (takeRx_links s d 0x0800).1
  rw [← packetRun_served h.cached h.ready, State.hit]
  unfold State.packetIn
  dsimp only
  rw [hctx]
  generalize s.takeRx d 0x0800 = v at hlinks ⊢
  have hon : v.xtOn d = true := (hlinks.rbit _ _ _).trans h.on
  have hcount : v.ctxCount d = s.ctxCount d := congrArg (fld · 0 21) (State.regN_congr hlinks.regs hlinks.part _ _)
  have hin : v.ctxIn d k.dstConn = true := by
    rw [hlinks.eq]
    exact h.inside
  have hcached : v.cached k.dstConn = true := by
    rw [hlinks.eq]
    exact h.cached
  have hout : v.dieOut (ctxPort (s.ctx d k.dstConn)) = false := by
    rw [hlinks.eq]
    exact h.port
  have hcut : v.cutPair d (ctxPort (s.ctx d k.dstConn)) = false := by
    rw [hlinks.eq]
    exact h.joined
  have hport : v.xtOn (ctxPort (s.ctx d k.dstConn)) = true := (hlinks.rbit _ _ _).trans h.sends.on
  have hless := h.count
  rw [if_neg (by rw [hon, hin, hcount]; simp; omega), hcached]
  simp only [if_true]
  rw [if_neg (by rw [hout, hcut]; decide), if_neg (by rw [hport]; decide)]

/-! ## Packets that answer -/

theorem Talks.memWf (h : Talks s t) (hwf : s.memWf = true) : t.memWf = true := by
  rw [h.eq]
  exact hwf

/-- A store between steps of a connection. -/
theorem Wrote.of_talks {v : State} {a : Nat} {bs : List Byte} (h : Talks s u) (hw : Wrote u v a bs) (g : Talks v t) : Wrote s t a bs :=
  hw.of_mem h.mem.symm h.wiped.symm g.mem g.wiped

/-- The state after a response has been placed. -/
def State.respPlaced (s : State) (d c i : Nat) (w : Work) (k : Packet) : State := s.write (w.addr 22 + i * ctxMtu (s.ctx d c)) k.payload k.poison

theorem respIn_chats {k : Packet} {m : XMsg} {w : Work} (hm : ((s.conn c).msgs.find? fun m => m.op == 2 && m.msn == k.msn) = some m) (hw : s.work m.id = some w)
    (hi : modSub 24 k.psn m.psn < m.n) (hnew : modSub 24 k.psn m.psn ∉ m.got) : Chats (s.respPlaced d c (modSub 24 k.psn m.psn) w k) (s.respIn d c k) := by
  unfold State.respIn
  rw [hm]
  dsimp only
  rw [if_neg (by simp only [Bool.or_eq_true, decide_eq_true_eq, List.contains_iff_mem, not_or]; exact ⟨by omega, hnew⟩), hw]
  dsimp only
  have hpoison : Chats (s.respPlaced d c (modSub 24 k.psn m.psn) w k) (if k.poison then (s.respPlaced d c (modSub 24 k.psn m.psn) w k).modWork m.id
      fun w => { w with res := { w.res with poison := true } } else s.respPlaced d c (modSub 24 k.psn m.psn) w k) := .ite (.modWork _ _ _) (.refl _)
  exact ((hpoison.trans (.modConn _ c _)).trans (.settleMsgs c _ _)).trans (.pump d c _ _)

theorem readRespPacket_does {k : Packet} {m : XMsg} {w : Work} (h : AtConn s d k.dstConn) (hwf : s.memWf = true)
    (hm : ((s.conn k.dstConn).msgs.find? fun m => m.op == 2 && m.msn == k.msn) = some m) (hw : s.work m.id = some w)
    (hi : modSub 24 k.psn m.psn < m.n) (hnew : modSub 24 k.psn m.psn ∉ m.got) : Does (.readRespPacket d k) s fun t => t.regs = s.regs ∧
      Wrote s t (w.addr 22 + modSub 24 k.psn m.psn * ctxMtu (s.ctx d k.dstConn)) k.payload := by
  have hu := atConn_talks s d k.dstConn
  have hchat := respIn_chats (s := s.atConn d k.dstConn) (d := ctxPort (s.ctx d k.dstConn)) (c := k.dstConn) (k := { k with opcode := 3 }) (by rw [atConn_conn]; exact hm)
    (by rw [atConn_work]; exact hw) hi hnew
  refine ⟨_, (onDie_eq h.die).trans (congrArg _ (packetIn_served (k := { k with opcode := 3 }) h)), ?_, ?_⟩
  · exact hchat.talks.regs.trans ((State.write_regs _ _ _ _).trans hu.regs)
  · refine Wrote.of_talks hu ?_ hchat.talks
    unfold State.respPlaced
    rw [atConn_ctx h.cached]
    exact wrote_tag (hu.memWf hwf) _ _ _

/-! ## Acknowledgements -/

/-- A connection once every PSN below one has been acknowledged. -/
def Conn.ackedTo (psn : Nat) (x : Conn) : Conn := { x with acked := psn, tries := 0, rnr := 0 }

/-- The state once an acknowledgement has been noted. -/
def State.ackNoted (s : State) (c psn : Nat) : State :=
  if 0 < modSub 24 psn (s.conn c).acked && modSub 24 psn (s.conn c).acked < 2 ^ 23 then s.modConn c (Conn.ackedTo psn) else s

theorem ackTo_eq (s : State) (d c psn : Nat) : ∃ n, s.ackTo d c psn =
    State.pump d c n (State.settleMsgs c ((s.ackNoted c psn).conn c).msgs.length (s.ackNoted c psn)) := ⟨1024, rfl⟩

theorem ackNoted_conn (s : State) (c psn : Nat) : ∃ a n r, (s.ackNoted c psn).conn c = { s.conn c with acked := a, tries := n, rnr := r } := by
  unfold State.ackNoted
  split
  · exact ⟨psn, 0, 0, conn_modConn s c (Conn.ackedTo psn) fun _ => rfl⟩
  · exact ⟨_, _, _, rfl⟩

/-- What an acknowledgement leaves of its connection: what it receives, and what it waits for. -/
theorem ackTo_wait (s : State) (d c psn : Nat) : ((s.ackTo d c psn).conn c).wait = (s.conn c).wait := by
  obtain ⟨fuel, hrun⟩ := ackTo_eq s d c psn
  obtain ⟨ms, hpump⟩ := pump_conn d c fuel (State.settleMsgs c ((s.ackNoted c psn).conn c).msgs.length (s.ackNoted c psn))
  obtain ⟨ms', ds, hsettle⟩ := settleMsgs_conn c ((s.ackNoted c psn).conn c).msgs.length (s.ackNoted c psn)
  obtain ⟨a, n, r, hnoted⟩ := ackNoted_conn s c psn
  rw [hrun, hpump, hsettle, hnoted]

theorem msgDone_acked {x y : Conn} (h : x.acked = y.acked) (m : XMsg) : x.msgDone m = y.msgDone m := by
  unfold Conn.msgDone
  rw [h]

theorem ackNoted_moved {psn : Nat} (h0 : 0 < modSub 24 psn (s.conn c).acked) (h1 : modSub 24 psn (s.conn c).acked < 2 ^ 23) :
    s.ackNoted c psn = s.modConn c (Conn.ackedTo psn) := if_pos (by simp only [Bool.and_eq_true, decide_eq_true_eq]; exact ⟨h0, h1⟩)

theorem settlePump_acked (d c n k : Nat) (s : State) : ((State.pump d c n (State.settleMsgs c k s)).conn c).acked = (s.conn c).acked := by
  obtain ⟨ms, hpump⟩ := pump_conn d c n (State.settleMsgs c k s)
  obtain ⟨ms', ds, hsettle⟩ := settleMsgs_conn c k s
  rw [hpump, hsettle]

theorem settlePump_first {m : XMsg} {rest : List XMsg} {w : Work} (hm : (s.conn c).msgs = m :: rest) (hdone : (s.conn c).msgDone m = true)
    (hw : s.work m.id = some w) (n : Nat) : m.id ∈ ((State.pump d c n (State.settleMsgs c (s.conn c).msgs.length s)).conn c).done ∧
      ∃ v, (State.pump d c n (State.settleMsgs c (s.conn c).msgs.length s)).work m.id = some v ∧ v.ended = true := by
  obtain ⟨hmem, v, hv, hended⟩ := settleMsgs_first hm hdone hw rest.length
  rw [hm, List.length_cons]
  obtain ⟨ms, hpump⟩ := pump_conn d c n (State.settleMsgs c (rest.length + 1) s)
  rw [hpump]
  exact ⟨hmem, v, (work_of_seq (pump_seq d c n _) _).trans hv, hended⟩

/-- An acknowledgement that moves on: the connection notes its PSN, and the first message ends where it is covered. -/
theorem ackTo_moves {psn : Nat} (h0 : 0 < modSub 24 psn (s.conn c).acked) (h1 : modSub 24 psn (s.conn c).acked < 2 ^ 23) : ((s.ackTo d c psn).conn c).acked = psn ∧
    ∀ m rest w, (s.conn c).msgs = m :: rest → s.work m.id = some w → ((s.conn c).ackedTo psn).msgDone m = true →
      m.id ∈ ((s.ackTo d c psn).conn c).done ∧ ∃ v, (s.ackTo d c psn).work m.id = some v ∧ v.ended = true := by
  have hconn : (s.ackNoted c psn).conn c = (s.conn c).ackedTo psn := by
    rw [ackNoted_moved h0 h1]
    exact conn_modConn s c (Conn.ackedTo psn) fun _ => rfl
  have hwork : ∀ i, (s.ackNoted c psn).work i = s.work i := fun i => by
    rw [ackNoted_moved h0 h1]
    exact work_of_seq (modConn_seq s c _) _
  obtain ⟨fuel, hrun⟩ := ackTo_eq s d c psn
  generalize s.ackNoted c psn = v at hconn hwork hrun
  rw [hrun]
  refine ⟨(settlePump_acked d c fuel _ v).trans (by rw [hconn]; rfl), fun m rest w hm hw hdone => settlePump_first (rest := rest) ?_ ?_ ((hwork _).trans hw) fuel⟩
  · rw [hconn]
    exact hm
  · rw [hconn]
    exact hdone

/-- The kinds of packet one by one; the match is split, so that no unit's fuel is unfolded. -/
theorem served_ack {k : Packet} (h : k.opcode = 4) (s : State) (d c : Nat) : s.served d c k = s.ackIn d c k := by
  unfold State.served
  split
  case h_5 => rfl
  case h_6 => contradiction
  all_goals omega

theorem ackPacket_exec {k : Packet} (h : AtConn s d k.dstConn) :
    exec (.ackPacket d k) s = .next ((s.atConn d k.dstConn).ackTo (ctxPort (s.ctx d k.dstConn)) k.dstConn k.psn) :=
  (onDie_eq h.die).trans (congrArg _ ((packetIn_served (k := { k with opcode := 4 }) h).trans (served_ack rfl _ _ _)))

theorem ackPacket_does {k : Packet} (h : AtConn s d k.dstConn) (h0 : 0 < modSub 24 k.psn (s.conn k.dstConn).acked)
    (h1 : modSub 24 k.psn (s.conn k.dstConn).acked < 2 ^ 23) : Does (.ackPacket d k) s fun t => (t.conn k.dstConn).acked = k.psn ∧
      SameMem s t ∧ t.regs = s.regs ∧ ∀ m rest w, (s.conn k.dstConn).msgs = m :: rest → s.work m.id = some w →
        ({ s.conn k.dstConn with acked := k.psn }).msgDone m = true → m.id ∈ (t.conn k.dstConn).done ∧ ∃ v, t.work m.id = some v ∧ v.ended = true := by
  have hu := atConn_talks s d k.dstConn
  have hchat := (Chats.ackTo (s.atConn d k.dstConn) (ctxPort (s.ctx d k.dstConn)) k.dstConn k.psn).talks
  have hconn := atConn_conn s d k.dstConn
  obtain ⟨hacked, hends⟩ := ackTo_moves (s := s.atConn d k.dstConn) (d := ctxPort (s.ctx d k.dstConn)) (c := k.dstConn) (psn := k.psn) (by rw [hconn]; exact h0) (by rw [hconn]; exact h1)
  refine ⟨_, ackPacket_exec h, hacked, hu.sameMem.trans hchat.sameMem, hchat.regs.trans hu.regs, ?_⟩
  intro m rest w hm hw hdone
  refine hends m rest w (by rw [hconn]; exact hm) (by rw [atConn_work]; exact hw) ?_
  rw [hconn]
  exact (msgDone_acked (x := (s.conn k.dstConn).ackedTo k.psn) (y := { s.conn k.dstConn with acked := k.psn }) rfl m).trans hdone

/-! ## NAKs -/

theorem flushMsgs_conn (s : State) (c : Nat) (msn : Option Nat) (status detail : Nat) : ((s.flushMsgs c msn status detail).conn c).msgs = [] :=
  congrArg Conn.msgs (conn_modConn _ c (fun x => { x with msgs := [], done := x.done ++ (s.conn c).msgs.map (fun m => m.id), wait := none }) fun _ => rfl)

theorem flushConn_conn (s : State) (c : Nat) (msn : Option Nat) (status detail : Nat) : ((s.flushConn c msn status detail).conn c).msgs = [] :=
  (congrArg Conn.msgs (conn_modConn (s.flushMsgs c msn status detail) c (fun x => { x with ins := [], owed := false, nak := false }) fun _ => rfl)).trans
    (flushMsgs_conn s c msn status detail)

/-- A connection in error: its context says so, and it sends no message. -/
theorem connError_does (hc : s.cached c = true) (hlen : (s.ctx d c).length = 256) (synd psn : Nat) (msn : Option Nat) (status : Nat) (e : Nat) :
    ctxState ((s.connError d c synd psn msn status).ctx e c) = 2 ∧ ((s.connError d c synd psn msn status).conn c).msgs = [] := by
  refine ⟨?_, flushConn_conn _ c msn status synd⟩
  have hc1 := ((Talks.ctxPut s d hc 3 (natLe 1 (leAt (s.ctx d c) 3 1 / 8 * 8 + 2))).cached c).trans hc
  have hrun : (s.connError d c synd psn msn status).ctx e c =
      spliceAt (spliceAt (s.ctx d c) 3 (natLe 1 (leAt (s.ctx d c) 3 1 / 8 * 8 + 2))) 80 (natLe 1 synd ++ natLe 3 psn) := by
    refine ((Chats.flushConn _ c msn status synd).ctx e c).trans ?_
    rw [ctx_ctxPut hc1, ctx_ctxPut hc]
  have hlen1 : (spliceAt (s.ctx d c) 3 (natLe 1 (leAt (s.ctx d c) 3 1 / 8 * 8 + 2))).length = 256 := by
    rw [length_spliceAt (by rw [length_natLe, hlen]; decide), hlen]
  have hbyte : leAt ((s.connError d c synd psn msn status).ctx e c) 3 1 = (leAt (s.ctx d c) 3 1 / 8 * 8 + 2) % 256 := by
    rw [hrun, leAt_spliceAt_low (by rw [hlen1]; decide) (by decide), leAt_spliceAt_byte (by rw [hlen]; decide) (by rw [length_natLe]; decide)]
    rfl
  unfold ctxState
  rw [hbyte]
  omega

theorem nakPacket_exec {k : Packet} (h : AtConn s d k.dstConn) :
    exec (.nakPacket d k) s = .next ((s.atConn d k.dstConn).nakIn (ctxPort (s.ctx d k.dstConn)) k.dstConn { k with opcode := 5 }) :=
  (onDie_eq h.die).trans (congrArg _ (packetIn_served (k := { k with opcode := 5 }) h))

theorem nakIn_fatal {k : Packet} (h1 : k.synd ≠ 1) (h2 : k.synd ≠ 2) : s.nakIn d c k = (s.ackTo d c k.psn).connError d c k.synd k.psn (some k.msn) 0x10 := by
  unfold State.nakIn
  split
  · exact absurd ‹_› h1
  · exact absurd ‹_› h2
  · rfl

theorem nakPacket_fatal {k : Packet} (h : AtConn s d k.dstConn) (h1 : k.synd ≠ 1) (h2 : k.synd ≠ 2) :
    Does (.nakPacket d k) s fun t => ctxState (t.ctx d k.dstConn) = 2 ∧ (t.conn k.dstConn).msgs = [] ∧ SameMem s t ∧ t.regs = s.regs := by
  have hu := atConn_talks s d k.dstConn
  have hchat := Chats.ackTo (s.atConn d k.dstConn) (ctxPort (s.ctx d k.dstConn)) k.dstConn k.psn
  have hc : ((s.atConn d k.dstConn).ackTo (ctxPort (s.ctx d k.dstConn)) k.dstConn k.psn).cached k.dstConn = true :=
    (hchat.talks.cached _).trans ((hu.cached _).trans h.cached)
  have hlen : (((s.atConn d k.dstConn).ackTo (ctxPort (s.ctx d k.dstConn)) k.dstConn k.psn).ctx (ctxPort (s.ctx d k.dstConn)) k.dstConn).length = 256 := by
    rw [hchat.ctx, atConn_ctx h.cached]
    exact h.whole
  obtain ⟨hstate, hmsgs⟩ := connError_does hc hlen k.synd k.psn (some k.msn) 0x10 d
  have htalks := (hu.trans hchat.talks).trans (.connError _ (ctxPort (s.ctx d k.dstConn)) hc k.synd k.psn (some k.msn) 0x10)
  refine ⟨_, (nakPacket_exec h).trans (congrArg _ (nakIn_fatal (k := { k with opcode := 5 }) h1 h2)), hstate, hmsgs, htalks.sameMem, htalks.regs⟩

theorem nakIn_waits {k : Packet} (h2 : k.synd = 2) (hlim : leAt (s.ctx d c) 32 1 / 16 = 15) : Chats s (s.nakIn d c k) ∧ ((s.nakIn d c k).conn c).wait = some k.msn := by
  have hchat := Chats.ackTo s d c k.psn
  unfold State.nakIn
  rw [h2]
  generalize s.ackTo d c k.psn = v at hchat ⊢
  split
  · next h => exact absurd h (by decide)
  · dsimp only
    rw [hlim]
    split
    · next hwait => exact ⟨hchat, hwait⟩
    · rw [if_neg (by simp)]
      exact ⟨hchat.trans (.modConn _ c _), congrArg Conn.wait (conn_modConn v c (fun x => { x with rnr := x.rnr + 1, wait := some k.msn }) fun _ => rfl)⟩
  · next h => exact absurd rfl h

/-! ## Packets for no connection here -/

theorem packetIn_lost {k : Packet} (h : s.xtOn d = false ∨ s.ctxCount d ≤ k.dstConn) : s.packetIn d k = (s.takeRx d 0x0800).bump d (xtCnt 0xB) 1 := by
  have hlinks := (takeRx_links s d 0x0800).1
  unfold State.packetIn
  dsimp only
  generalize s.takeRx d 0x0800 = v at hlinks ⊢
  have hon : v.xtOn d = s.xtOn d := hlinks.rbit _ _ _
  have hcount : v.ctxCount d = s.ctxCount d := congrArg (fld · 0 21) (State.regN_congr hlinks.regs hlinks.part _ _)
  refine if_pos ?_
  rw [hon, hcount]
  rcases h with h | h
  · simp [h]
  · simp [h]

theorem packet_lost {k : Packet} {n : Nat} (h : s.xtOn d = false ∨ s.ctxCount d ≤ k.dstConn) : (s.packetIn d { k with opcode := n }).ctr d (xtCnt 0xB) = Nat.min ctrMax (s.ctr d (xtCnt 0xB) + 1) ∧
    (s.packetIn d { k with opcode := n }).xt = s.xt ∧ SameMem s (s.packetIn d { k with opcode := n }) ∧ (s.packetIn d { k with opcode := n }).regs = s.regs ∧
    (s.packetIn d { k with opcode := n }).seq = s.seq := by
  rw [packetIn_lost (k := { k with opcode := n }) h]
  have hlinks := (takeRx_links s d 0x0800).1
  refine ⟨(State.ctr_bump_same _ _ _ _).trans (by rw [State.ctr_congr hlinks.ctrs]), ?_, hlinks.sameMem, hlinks.regs, ?_⟩
  · show (s.takeRx d 0x0800).xt = s.xt
    rw [hlinks.eq]
  · show (s.takeRx d 0x0800).seq = s.seq
    rw [hlinks.eq]

end Sys2Proof.Machine

open Sys2Proof Sys2Proof.Machine

/-- Settles O28: a packet that finds its connection acts on the state in which only the pools, counters and the order of the cache have moved;
settling and sending what the window allows change neither memory nor registers. -/
theorem packetsAnswered : Obligations.PacketsAnswered := by
  unfold Obligations.PacketsAnswered
  refine ⟨?response, ?ack, ?fatal, ?waits, ?lost⟩
  case response => exact fun s d k m w h hwf hm hw hi hnew => readRespPacket_does h hwf hm hw hi hnew
  case ack => exact fun s d k h h0 h1 => ackPacket_does h h0 h1
  case fatal => exact fun s d k h h1 h2 => nakPacket_fatal h h1 h2
  case waits =>
    intro s d k h h2 hlim
    have hu := atConn_talks s d k.dstConn
    obtain ⟨hchat, hwait⟩ := nakIn_waits (s := s.atConn d k.dstConn) (d := ctxPort (s.ctx d k.dstConn)) (c := k.dstConn) (k := { k with opcode := 5 }) h2
      (by rw [atConn_ctx h.cached]; exact hlim)
    exact ⟨_, nakPacket_exec h, hwait, hu.sameMem.trans hchat.talks.sameMem, hchat.talks.regs.trans hu.regs⟩
  case lost =>
    intro s d k c hd h hmem
    simp only [List.mem_cons, List.not_mem_nil, or_false] at hmem
    rcases hmem with rfl | rfl | rfl | rfl | rfl | rfl
    all_goals exact ⟨_, onDie_eq hd, packet_lost h⟩

end

section
/-! PROOF. Packets that store and answer at the receiver of remote access. -/

namespace Sys2Proof.Machine

variable {s t u : State} {d c : Nat}

/-! ## What the checks read -/

theorem Talks.region (h : Talks s t) (d i : Nat) : t.region d i = s.region d i := by
  have haddr : t.regnAddr d i = s.regnAddr d i := by
    unfold State.regnAddr State.regAddr State.regPair
    rw [h.regN, h.regN]
  unfold State.region State.regnIn
  rw [haddr, h.part, h.bytes]

theorem Talks.keyCheck (h : Talks s t) (d part key roff len : Nat) (wr : Bool) : t.keyCheck d part key roff len wr = s.keyCheck d part key roff len wr := by
  have hcount : t.regnCount d = s.regnCount d := h.rf d _ 0 17
  unfold State.keyCheck
  dsimp only
  rw [h.region, hcount]

/-- Room in a completion queue is counted from the contexts at hand, in whatever order they stand. -/
theorem cqRoom_order {s : State} {l : List Ctx} (hl : ∀ x, x ∈ l ↔ x ∈ s.xt.ctxs) (e : List Eth) (a : List (Nat × Nat)) (n : Nat) (o : List Output) (r : Nat) :
    ({ s with eths := e, ctrs := a, freeCtr := n, out := o, xt := { s.xt with ctxs := l } } : State).cqRoom r = s.cqRoom r := by
  have hany : ∀ p : Ctx → Bool, l.any p = s.xt.ctxs.any p := fun p => by
    rw [Bool.eq_iff_iff, List.any_eq_true, List.any_eq_true]
    simp only [hl]
  have hnotify : ({ s with eths := e, ctrs := a, freeCtr := n, out := o, xt := { s.xt with ctxs := l } } : State).notifyOwed r = s.notifyOwed r := by
    unfold State.notifyOwed
    simp only [hany]
  unfold State.cqRoom State.cqOwed
  rw [hnotify]
  rfl

/-- From `s` to `t` no more has changed than ports, counters, what leaves the package and the order of the contexts at hand. -/
structure Touched (s t : State) (c : Nat) : Prop where
  talks : Talks s t
  conns : t.xt.conns = s.xt.conns
  seq   : t.seq = s.seq
  ctxs  : ∀ x, x ∈ t.xt.ctxs ↔ x ∈ s.xt.ctxs
  ctx   : ∀ e, t.ctx e c = s.ctx e c

theorem Touched.cqRoom (h : Touched s t c) (r : Nat) : t.cqRoom r = s.cqRoom r := by
  have e := h.talks.eq
  have hseq := h.seq
  have hconns := h.conns
  have hshape : t = { s with eths := t.eths, ctrs := t.ctrs, freeCtr := t.freeCtr, out := t.out, xt := { s.xt with ctxs := t.xt.ctxs } } := by
    refine e.trans ?_
    rw [hseq, hconns]
  rw [hshape]
  exact cqRoom_order h.ctxs _ _ _ _ r

theorem atConn_touched (hc : s.cached c = true) (d : Nat) : Touched s (s.atConn d c) c where
  talks := atConn_talks s d c
  conns := (atConn_same s d c).1
  seq := (atConn_same s d c).2
  ctx e := (atConn_ctx hc e).trans (ctx_any hc d e)
  ctxs x := by
    have hctxs : (s.takeRx d 0x0800).xt.ctxs = s.xt.ctxs := by rw [(takeRx_links s d 0x0800).1.eq]
    have hrun : (s.atConn d c).xt.ctxs = ((s.takeRx d 0x0800).xt.ctxs.filter fun x => x.c != c) ++ (s.takeRx d 0x0800).xt.ctxs.filter fun x => x.c == c := rfl
    rw [hrun, hctxs, List.mem_append, List.mem_filter, List.mem_filter]
    by_cases h : x.c = c
    · simp [h]
    · simp [h]

/-- Of the state a check reads memory, registers, the connection, its context and the descriptors. -/
theorem Touched.packetCheck (h : Touched s t c) (d : Nat) (k : Packet) : t.packetCheck d c k = s.packetCheck d c k := by
  have hconn : t.conn c = s.conn c := conn_congr h.conns c
  have hwork : t.work = s.work := funext (work_of_seq h.seq)
  have hring : ∀ r, t.ringOn r = s.ringOn r ∧ t.ringRx r = s.ringRx r := fun r => by
    rw [h.talks.eq]
    exact ⟨rfl, rfl⟩
  have hfree : ∀ r msn, t.freeBuf d c r msn = s.freeBuf d c r msn := fun r msn => by
    unfold State.freeBuf
    dsimp only
    rw [h.conns, h.ctx, hconn, (hring r).1, (hring r).2, h.seq]
  unfold State.packetCheck
  dsimp only
  rw [h.ctx, hconn, hwork, (hring _).1, h.cqRoom, h.talks.keyCheck, h.talks.keyCheck, hfree]

theorem received_congr (hconn : t.conn c = s.conn c) (hctx : t.ctx d c = s.ctx d c) (psn : Nat) : t.received d c psn = s.received d c psn := by
  unfold State.received
  rw [hconn, hctx]

/-! ## The bytes of a context that packets leave -/

/-- From `s` to `t` a connection has talked, and the first 64 bytes of its context, which is whole, are as before. -/
structure HeadKept (s t : State) (c : Nat) : Prop where
  talks : Talks s t
  whole : ∀ e, (t.ctx e c).length = 256
  head  : ∀ e p n, p + n ≤ 64 → leAt (t.ctx e c) p n = leAt (s.ctx e c) p n

namespace HeadKept

theorem refl (hlen : ∀ e, (s.ctx e c).length = 256) : HeadKept s s c := ⟨(Chats.refl s).talks, hlen, fun _ _ _ _ => rfl⟩

theorem trans (h : HeadKept s t c) (g : HeadKept t u c) : HeadKept s u c :=
  ⟨h.talks.trans g.talks, g.whole, fun e p n hp => (g.head e p n hp).trans (h.head e p n hp)⟩

theorem of_chats (h : Chats s t) (hlen : ∀ e, (s.ctx e c).length = 256) : HeadKept s t c :=
  ⟨h.talks, fun e => by rw [h.ctx]; exact hlen e, fun e p n _ => by rw [h.ctx]⟩

theorem ctxPut (hc : s.cached c = true) (hlen : ∀ e, (s.ctx e c).length = 256) (d : Nat) {o : Nat} {v : List Byte} (ho : 64 ≤ o) (hv : o + v.length ≤ 256) :
    HeadKept s (s.ctxPut d c o v) c := by
  refine ⟨.ctxPut s d hc o v, fun e => ?_, fun e p n hp => ?_⟩
  · rw [ctx_ctxPut hc, length_spliceAt (by rw [hlen]; exact hv), hlen]
  · rw [ctx_ctxPut hc, leAt_spliceAt_low (by rw [hlen]; omega) (by omega), ctx_any hc d e]

theorem cached (h : HeadKept s t c) (hc : s.cached c = true) : t.cached c = true := (h.talks.cached c).trans hc

theorem port (h : HeadKept s t c) (e : Nat) : ctxPort (t.ctx e c) = ctxPort (s.ctx e c) := congrArg (· % 8) (h.head e 4 1 (by decide))
theorem mtu (h : HeadKept s t c) (e : Nat) : ctxMtu (t.ctx e c) = ctxMtu (s.ctx e c) := congrArg (fun x => 1024 * 2 ^ (x / 16 % 4)) (h.head e 5 1 (by decide))

theorem sends (h : HeadKept s t c) {e : Nat} (hs : Sends s (s.ctx e c)) : Sends t (t.ctx e c) := by
  constructor
  · rw [h.port, h.talks.xtOn]
    exact hs.on
  · rw [h.port, h.head e 3 1 (by decide), h.talks.rbit]
    exact hs.ver

theorem setBitmap (hc : s.cached c = true) (hlen : ∀ e, (s.ctx e c).length = 256) (d psn : Nat) (v : Bool) : HeadKept s (s.setBitmap d c psn v) c :=
  ctxPut hc hlen d (by omega) (by rw [length_natLe]; omega)

theorem markRun (hc : s.cached c = true) (hlen : ∀ e, (s.ctx e c).length = 256) (d psn n : Nat) : HeadKept s (s.markRun d c psn n) c := by
  refine ctxPut hc hlen d (by decide) ?_
  rw [List.length_flatMap]
  simp [length_natLe]

theorem advanceExp (d n : Nat) (hc : s.cached c = true) (hlen : ∀ e, (s.ctx e c).length = 256) : HeadKept s (State.advanceExp d c n s) c := by
  induction n generalizing s with
  | zero => exact refl hlen
  | succ n ih =>
    unfold State.advanceExp
    dsimp only
    split
    · have h1 := setBitmap hc hlen d (ctxExp (s.ctx d c)) false
      have h2 := h1.trans (ctxPut (h1.cached hc) h1.whole d (o := 68) (v := natLe 3 (ctxExp (s.ctx d c) + 1)) (by decide) (by rw [length_natLe]; decide))
      have h3 := h2.trans (of_chats (.modConn _ c fun x => { x with nak := false }) h2.whole)
      exact h3.trans (ih (h3.cached hc) h3.whole)
    · split
      · next m _ =>
        have h1 := ctxPut hc hlen d (o := 68) (v := natLe 3 ((m.last.getD (ctxExp (s.ctx d c)) + 1) % 2 ^ 24)) (by decide) (by rw [length_natLe]; decide)
        have h2 := h1.trans (of_chats (.modConn _ c fun x => { x with nak := false }) h1.whole)
        exact h2.trans (ih (h2.cached hc) h2.whole)
      · exact refl hlen

end HeadKept

theorem Talks.advanceMsn (d n : Nat) (hc : s.cached c = true) : Talks s (State.advanceMsn d c n s) := by
  induction n generalizing s with
  | zero => exact (Chats.refl s).talks
  | succ n ih =>
    unfold State.advanceMsn
    dsimp only
    split
    · split
      · have h1 := (Chats.modConn s c fun x => { x with ins := x.ins.filter fun y => y.msn != ctxRecvMsn (s.ctx d c) }).talks
        have h2 := h1.trans (.ctxPut _ d ((h1.cached c).trans hc) 76 (natLe 3 (ctxRecvMsn (s.ctx d c) + 1)))
        exact h2.trans (ih ((h2.cached c).trans hc))
      · exact (Chats.refl s).talks
    · exact (Chats.refl s).talks

theorem Talks.placedIn (hc : s.cached c = true) (d msn n : Nat) : Talks s (s.placedIn d c msn n) := by
  have h := ((Chats.modIn s c msn fun m => { m with placed := m.placed + n }).trans (.modIn _ c msn fun m => { m with whole := m.complete })).talks
  exact h.trans (.advanceMsn d _ ((h.cached c).trans hc))

/-! ## The message of a packet -/

theorem ctxPut_conn (s : State) (d c o : Nat) (v : List Byte) (e : Nat) : (s.ctxPut d c o v).conn e = s.conn e := by
  refine conn_congr ?_ e
  unfold State.ctxPut State.setCtx
  split
  · rfl
  · rw [State.write_fields]

theorem conn_forget (s : State) (c : Nat) : ((s.modConn c fun x => { x with nak := false }).conn c).ins = (s.conn c).ins :=
  (congrArg Conn.ins (conn_modConn s c (fun x => { x with nak := false }) fun _ => rfl) :)

/-- EXP_PSN advances without a change of the messages being received. -/
theorem advanceExp_ins (d n : Nat) (s : State) : ((State.advanceExp d c n s).conn c).ins = (s.conn c).ins := by
  induction n generalizing s with
  | zero => rfl
  | succ n ih =>
    unfold State.advanceExp
    dsimp only
    split
    · rw [ih, conn_forget, ctxPut_conn]
      exact congrArg Conn.ins (ctxPut_conn s d c _ _ c)
    · split
      · rw [ih, conn_forget, ctxPut_conn]
      · rfl

/-- The record of the message of a packet, before the packet is noted: one that is there, or a new one with a buffer. -/
def State.msgOf (s : State) (c : Nat) (k : Packet) (buf : Option Nat) : XIn :=
  ((s.conn c).inMsg k.msn).getD ⟨k.msn, k.opcode, none, none, 0, [], false, 0, 0, buf, false, false⟩

/-- The state with a record in the place of the one of its message. -/
def State.putMsg (s : State) (c : Nat) (k : Packet) (m : XIn) : State :=
  if ((s.conn c).inMsg k.msn).isSome then s.modIn c k.msn fun _ => m else s.modConn c fun x => { x with ins := x.ins ++ [m] }

/-- How many PSNs a packet takes. -/
def State.psnsOf (s : State) (d c : Nat) (k : Packet) : Nat := if k.opcode = 2 then (k.len + ctxMtu (s.ctx d c) - 1) / ctxMtu (s.ctx d c) else 1

/-- The PSNs of a packet marked, and EXP_PSN advanced. -/
def State.markPsns (s : State) (d c n : Nat) (k : Packet) : State :=
  State.advanceExp d c (1025 + ((if k.opcode = 2 then s.markRun d c k.psn n else s.setBitmap d c k.psn true).conn c).ins.length)
    (if k.opcode = 2 then s.markRun d c k.psn n else s.setBitmap d c k.psn true)

/-- The state once an accepted packet has been noted, before it is placed. -/
def State.notedIn (s : State) (d c : Nat) (k : Packet) (buf : Option Nat) : State :=
  (s.putMsg c k ((s.msgOf c k buf).note k (s.psnsOf d c k))).markPsns d c (s.psnsOf d c k) k

/-- What a packet placed owes its sender: an acknowledgement now, or one in time. -/
def State.owes (s : State) (d c : Nat) (k : Packet) : State := if k.ackReq then s.sendAck d c else s.modConn c fun x => { x with owed := true }

theorem note_keeps (m : XIn) (k : Packet) (n : Nat) : (m.note k n).msn = m.msn ∧ (m.note k n).buf = m.buf := ⟨rfl, rfl⟩

theorem inMsg_msn {x : Conn} {msn : Nat} {m : XIn} (h : x.inMsg msn = some m) : m.msn = msn := beq_iff_eq.mp (List.find?_some (p := fun m : XIn => m.msn == msn) h)

theorem msgOf_msn (s : State) (c : Nat) (k : Packet) (buf : Option Nat) : (s.msgOf c k buf).msn = k.msn := by
  unfold State.msgOf
  cases h : (s.conn c).inMsg k.msn with
  | none => rfl
  | some m => exact inMsg_msn h

/-- A record put is the one that its message then has. -/
theorem putMsg_inMsg {k : Packet} {m : XIn} (hm : m.msn = k.msn) : ((s.putMsg c k m).conn c).inMsg k.msn = some m := by
  unfold State.putMsg
  cases h : (s.conn c).inMsg k.msn with
  | none =>
    rw [if_neg (by simp), conn_modConn s c (fun x => { x with ins := x.ins ++ [m] }) fun _ => rfl]
    show ((s.conn c).ins ++ [m]).find? _ = _
    rw [List.find?_append, show (s.conn c).ins.find? _ = none from h, List.find?_cons_of_pos (by simpa using hm)]
    rfl
  | some x =>
    rw [if_pos (by simp), State.modIn, conn_modConn s c (fun x => { x with ins := mapIf (fun m => m.msn == k.msn) (fun _ => m) x.ins }) fun _ => rfl]
    show (mapIf (fun m : XIn => m.msn == k.msn) (fun _ => m) (s.conn c).ins).find? (fun m => m.msn == k.msn) = _
    rw [find_mapIf (fun m : XIn => m.msn == k.msn) (fun _ => m) (fun _ _ => by simpa using hm), show (s.conn c).ins.find? _ = some x from h]
    rfl

theorem markPsns_ins (s : State) (d c n : Nat) (k : Packet) : ((s.markPsns d c n k).conn c).ins = (s.conn c).ins := by
  refine (advanceExp_ins d _ _).trans ?_
  split
  · exact congrArg Conn.ins (ctxPut_conn s d c _ _ c)
  · exact congrArg Conn.ins (ctxPut_conn s d c _ _ c)

theorem notedIn_inMsg (s : State) (d c : Nat) (k : Packet) (buf : Option Nat) :
    ((s.notedIn d c k buf).conn c).inMsg k.msn = some ((s.msgOf c k buf).note k (s.psnsOf d c k)) := by
  have hins : ((s.notedIn d c k buf).conn c).inMsg k.msn = ((s.putMsg c k ((s.msgOf c k buf).note k (s.psnsOf d c k))).conn c).inMsg k.msn := by
    unfold Conn.inMsg
    rw [State.notedIn, markPsns_ins]
  rw [hins]
  exact putMsg_inMsg ((note_keeps _ _ _).1.trans (msgOf_msn s c k buf))

theorem Chats.putMsg (s : State) (c : Nat) (k : Packet) (m : XIn) : Chats s (s.putMsg c k m) := .ite (.modIn s c _ _) (.modConn s c _)

theorem Chats.owes (s : State) (d c : Nat) (k : Packet) : Chats s (s.owes d c k) := .ite (.sendAck s d c) (.modConn s c _)

theorem notedIn_kept (hc : s.cached c = true) (hlen : ∀ e, (s.ctx e c).length = 256) (d : Nat) (k : Packet) (buf : Option Nat) : HeadKept s (s.notedIn d c k buf) c := by
  have h1 := HeadKept.of_chats (Chats.putMsg s c k ((s.msgOf c k buf).note k (s.psnsOf d c k))) hlen
  have h2 := h1.trans (u := if k.opcode = 2 then (s.putMsg c k ((s.msgOf c k buf).note k (s.psnsOf d c k))).markRun d c k.psn (s.psnsOf d c k)
    else (s.putMsg c k ((s.msgOf c k buf).note k (s.psnsOf d c k))).setBitmap d c k.psn true) (by
      split
      · exact .markRun (h1.cached hc) h1.whole d _ _
      · exact .setBitmap (h1.cached hc) h1.whole d _ _)
  exact h2.trans (.advanceExp d _ (h2.cached hc) h2.whole)

/-! ## The packet that is expected -/

theorem modSub_self {w a : Nat} : modSub w a a = 0 := by
  unfold modSub
  rw [show a % 2 ^ w + 2 ^ w - a % 2 ^ w = 2 ^ w by omega, Nat.mod_self]

/-- The expected packet that no check refuses is noted, placed and owed an acknowledgement. -/
theorem dataPacket_placed {k : Packet} {buf : Option Nat} (hexp : k.psn = ctxExp (s.ctx d c)) (hnew : s.received d c k.psn = false)
    (hcheck : s.packetCheck d c k = (0, buf)) (hfence : k.fence = false) :
    s.dataPacket d c k = ((s.notedIn d c k buf).placePacket d c k (s.psnsOf d c k)).owes d c k := by
  have hdist : modSub 24 k.psn (ctxExp (s.ctx d c)) = 0 := by rw [hexp, modSub_self]
  unfold State.dataPacket
  dsimp only
  rw [hdist, hnew, hcheck, hfence]
  refine (if_neg (by decide)).trans ((if_neg (by simp)).trans ((if_neg (by decide)).trans ?_))
  refine (if_neg (by simp)).trans ((if_neg (by simp)).trans ((if_neg (by simp)).trans ?_))
  rfl

/-- The expected packet that a check refuses, other than for want of room. -/
theorem dataPacket_refused {k : Packet} {buf : Option Nat} {synd : Nat} (hexp : k.psn = ctxExp (s.ctx d c)) (hnew : s.received d c k.psn = false)
    (hcheck : s.packetCheck d c k = (synd, buf)) (h0 : synd ≠ 0) (h2 : synd ≠ 2) : s.dataPacket d c k = s.refusePacket d c synd k := by
  have hdist : modSub 24 k.psn (ctxExp (s.ctx d c)) = 0 := by rw [hexp, modSub_self]
  unfold State.dataPacket
  dsimp only
  rw [hdist, hnew, hcheck]
  refine (if_neg (by decide)).trans ((if_neg (by simp)).trans ((if_neg (by decide)).trans ?_))
  exact (if_neg h2).trans (if_pos h0)

/-! ## Where a packet goes -/

theorem placeSend_wrote {k : Packet} {m : XIn} {w : Work} (hwf : s.memWf = true) (hm : (s.conn c).inMsg k.msn = some m) (hbuf : m.buf = some w.id) (hw : s.work w.id = some w) :
    Wrote s (s.placeSend c k) (w.addr 8 + k.moff) k.payload ∧ (s.placeSend c k).regs = s.regs ∧ (s.placeSend c k).xt = s.xt := by
  have hrun : s.placeSend c k = (s.write (w.addr 8 + k.moff) k.payload k.poison).reach w.part true (w.addr 8 + k.moff) k.payload.length := by
    unfold State.placeSend
    rw [hm]
    dsimp only [Option.bind_some]
    rw [hbuf]
    dsimp only [Option.bind_some]
    rw [hw]
  have hreach := Chats.reach (s.write (w.addr 8 + k.moff) k.payload k.poison) w.part true (w.addr 8 + k.moff) k.payload.length
  obtain ⟨⟨c', n, o, e⟩, -⟩ := reach_frame (s.write (w.addr 8 + k.moff) k.payload k.poison) w.part true (w.addr 8 + k.moff) k.payload.length
  rw [hrun]
  refine ⟨Wrote.of_talks (Chats.refl s).talks (wrote_tag hwf _ _ _) hreach.talks, hreach.talks.regs.trans (State.write_regs _ _ _ _), ?_⟩
  rw [e]
  show (s.write _ _ _).xt = s.xt
  rw [State.write_fields]

theorem placeWrite_wrote {k : Packet} (hwf : s.memWf = true) (hbell : (s.region d (k.key / 256)).bell = false) :
    Wrote s (s.placeWrite d c k) ((s.region d (k.key / 256)).base + k.roff) k.payload ∧ (s.placeWrite d c k).regs = s.regs ∧ (s.placeWrite d c k).xt = s.xt := by
  have hrun : s.placeWrite d c k = (s.write ((s.region d (k.key / 256)).base + k.roff) k.payload k.poison).reach (ctxPart (s.ctx d c)) true
      ((s.region d (k.key / 256)).base + k.roff) k.payload.length := by
    unfold State.placeWrite
    dsimp only
    rw [if_neg (by rw [hbell]; decide)]
  generalize (s.region d (k.key / 256)).base + k.roff = a at hrun ⊢
  have hreach := Chats.reach (s.write a k.payload k.poison) (ctxPart (s.ctx d c)) true a k.payload.length
  obtain ⟨⟨c', n, o, e⟩, -⟩ := reach_frame (s.write a k.payload k.poison) (ctxPart (s.ctx d c)) true a k.payload.length
  rw [hrun]
  refine ⟨Wrote.of_talks (Chats.refl s).talks (wrote_tag hwf _ _ _) hreach.talks, hreach.talks.regs.trans (State.write_regs _ _ _ _), ?_⟩
  rw [e]
  show (s.write _ _ _).xt = s.xt
  rw [State.write_fields]

/-- A store whose packet then counts as placed, and is owed an acknowledgement. -/
theorem placed_wrote {v : State} {a n : Nat} {bs : List Byte} {k : Packet} (hw : Wrote s v a bs) (hr : v.regs = s.regs) (hx : v.xt = s.xt) (hc : s.cached c = true) (msn : Nat) :
    Wrote s ((v.placedIn d c msn n).owes d c k) a bs ∧ ((v.placedIn d c msn n).owes d c k).regs = s.regs := by
  have hcv : v.cached c = true := by
    unfold State.cached
    rw [hx]
    exact hc
  have h := (Talks.placedIn hcv d msn n).trans (Chats.owes (v.placedIn d c msn n) d c k).talks
  exact ⟨.of_talks (Chats.refl s).talks hw h, h.regs.trans hr⟩

theorem sendPacket_queued {b : List Byte} (h : Sends s b) (k : Packet) (front : Bool) {P : Packet → Prop} (hP : P k) : Queued (s.sendPacket b k front) (ctxPort b) P := by
  refine ⟨⟨ctxPrio b, if s.part.torusPorts ≤ ctxPort b then beAt b 24 6 else 0, front, none, .packet k (s.ipHead b k.msn)⟩, ?_, k, _, rfl, hP⟩
  have hrun : s.sendPacket b k front = (s.bump (ctxPort b) (xtCnt 0) 1).queueTx (ctxPort b)
      ⟨ctxPrio b, if s.part.torusPorts ≤ ctxPort b then beAt b 24 6 else 0, front, none, .packet k (s.ipHead b k.msn)⟩ := if_pos (by rw [h.on, h.ver]; rfl)
  rw [hrun]
  exact (mem_queueTx _ _ _ _).mpr (.inl rfl)

/-- One response packet of a read. -/
def State.respPacket (s : State) (b : List Byte) (k : Packet) (n a i : Nat) : Packet :=
  { Packet.plain 3 b ((k.psn + i) % 2 ^ 24) k.msn with
    first := decide (k.moff + i * ctxMtu b = 0), last := decide (i + 1 = n), moff := k.moff + i * ctxMtu b,
    payload := s.bytes (a + i * ctxMtu b) (Nat.min (ctxMtu b) (k.len - i * ctxMtu b)),
    poison := s.tagged (a + i * ctxMtu b) (Nat.min (ctxMtu b) (k.len - i * ctxMtu b)) }

/-- A response packet leaves once its range has been reached. -/
def State.respOne (s : State) (b : List Byte) (k : Packet) (n a i : Nat) : State :=
  let t := s.reach (ctxPart b) false (a + i * ctxMtu b) (Nat.min (ctxMtu b) (k.len - i * ctxMtu b))
  t.sendPacket b (t.respPacket b k n a i) false

theorem respOne_chats (s : State) (b : List Byte) (k : Packet) (n a i : Nat) : Chats s (s.respOne b k n a i) := (Chats.reach s _ _ _ _).trans (.sendPacket _ _ _ _)

theorem respond_eq (s : State) (d c : Nat) (k : Packet) : s.respond d c k =
    (List.range ((k.len + ctxMtu (s.ctx d c) - 1) / ctxMtu (s.ctx d c))).foldl
      (fun t i => t.respOne (s.ctx d c) k ((k.len + ctxMtu (s.ctx d c) - 1) / ctxMtu (s.ctx d c)) ((s.region d (k.key / 256)).base + k.roff) i) s := rfl

theorem ctxMtu_pos (b : List Byte) : 0 < ctxMtu b := by
  unfold ctxMtu
  positivity

/-- A read of some bytes is answered: its first packet waits to leave. -/
theorem respond_does {k : Packet} (hs : Sends s (s.ctx d c)) (hlen : 1 ≤ k.len) : Chats s (s.respond d c k) ∧
    Queued (s.respond d c k) (ctxPort (s.ctx d c)) fun p => p.opcode = 3 ∧ p.psn = k.psn % 2 ^ 24 ∧ p.moff = k.moff ∧
      p.payload = s.bytes ((s.region d (k.key / 256)).base + k.roff) (Nat.min (ctxMtu (s.ctx d c)) k.len) := by
  have hpos := ctxMtu_pos (s.ctx d c)
  rw [respond_eq]
  generalize s.ctx d c = b at *
  generalize (s.region d (k.key / 256)).base + k.roff = a
  obtain ⟨n, hn⟩ : ∃ n, (k.len + ctxMtu b - 1) / ctxMtu b = n + 1 :=
    ⟨_, (Nat.succ_pred_eq_of_pos (Nat.div_pos (by omega) hpos)).symm⟩
  rw [hn, List.range_succ_eq_map, List.foldl_cons]
  have hreach := Chats.reach s (ctxPart b) false (a + 0 * ctxMtu b) (Nat.min (ctxMtu b) (k.len - 0 * ctxMtu b))
  have hrest := Chats.foldl (f := fun t i => t.respOne b k (n + 1) a i) ((List.range n).map Nat.succ) (fun t i => respOne_chats t b k (n + 1) a i) (s.respOne b k (n + 1) a 0)
  refine ⟨(respOne_chats s b k (n + 1) a 0).trans hrest, hrest.queued _ _ (sendPacket_queued (hreach.talks.sends hs) _ false ?_)⟩
  refine ⟨rfl, rfl, by simp [State.respPacket], ?_⟩
  show State.bytes _ (a + 0 * ctxMtu b) _ = _
  rw [hreach.talks.bytes]
  simp

/-! ## The expected packet of a ready connection -/

/-- A packet that a ready connection expects reaches it. -/
structure Expected (s : State) (d : Nat) (k : Packet) : Prop where
  conn  : AtConn s d k.dstConn
  fence : k.fence = false
  exp   : k.psn = ctxExp (s.ctx d k.dstConn)
  new   : s.received (ctxPort (s.ctx d k.dstConn)) k.dstConn k.psn = false

theorem served_data {k : Packet} (h : k.opcode < 3) (s : State) (d c : Nat) : s.served d c k = s.dataPacket d c k := by
  have hcases : k.opcode = 0 ∨ k.opcode = 1 ∨ k.opcode = 2 := by omega
  unfold State.served
  split
  case h_4 => omega
  case h_5 => omega
  case h_6 n0 n1 n2 _ _ => exact (hcases.elim n0 fun h => h.elim n1 n2).elim
  all_goals rfl

/-- The state that a packet finds is the one before in all that its checks read. -/
theorem Expected.found {k : Packet} (h : Expected s d k) : k.psn = ctxExp ((s.atConn d k.dstConn).ctx (ctxPort (s.ctx d k.dstConn)) k.dstConn) ∧
    (s.atConn d k.dstConn).received (ctxPort (s.ctx d k.dstConn)) k.dstConn k.psn = false := by
  have ht := atConn_touched h.conn.cached d
  refine ⟨?_, ?_⟩
  · rw [atConn_ctx h.conn.cached]
    exact h.exp
  · rw [received_congr (atConn_conn s d k.dstConn) (ht.ctx _)]
    exact h.new

/-- An expected packet that its check lets through is placed. -/
theorem Expected.placed {k : Packet} (h : Expected s d k) (hop : k.opcode < 3) {buf : Option Nat}
    (hcheck : s.packetCheck (ctxPort (s.ctx d k.dstConn)) k.dstConn k = (0, buf)) : s.packetIn d k =
    (((s.atConn d k.dstConn).notedIn (ctxPort (s.ctx d k.dstConn)) k.dstConn k buf).placePacket (ctxPort (s.ctx d k.dstConn)) k.dstConn k
      ((s.atConn d k.dstConn).psnsOf (ctxPort (s.ctx d k.dstConn)) k.dstConn k)).owes (ctxPort (s.ctx d k.dstConn)) k.dstConn k := by
  obtain ⟨hexp, hnew⟩ := h.found
  rw [packetIn_served h.conn, served_data hop, dataPacket_placed hexp hnew (((atConn_touched h.conn.cached d).packetCheck _ _).trans hcheck) h.fence]

theorem Expected.refused {k : Packet} (h : Expected s d k) (hop : k.opcode < 3) {buf : Option Nat} {synd : Nat}
    (hcheck : s.packetCheck (ctxPort (s.ctx d k.dstConn)) k.dstConn k = (synd, buf)) (h0 : synd ≠ 0) (h2 : synd ≠ 2) :
    s.packetIn d k = (s.atConn d k.dstConn).refusePacket (ctxPort (s.ctx d k.dstConn)) k.dstConn synd k := by
  obtain ⟨hexp, hnew⟩ := h.found
  rw [packetIn_served h.conn, served_data hop, dataPacket_refused hexp hnew (((atConn_touched h.conn.cached d).packetCheck _ _).trans hcheck) h0 h2]

/-- The state in which an expected packet is placed. -/
theorem Expected.kept {k : Packet} (h : Expected s d k) (buf : Option Nat) :
    HeadKept s ((s.atConn d k.dstConn).notedIn (ctxPort (s.ctx d k.dstConn)) k.dstConn k buf) k.dstConn := by
  have ht := atConn_touched h.conn.cached d
  have hlen : ∀ e, (s.ctx e k.dstConn).length = 256 := fun e => by
    rw [ctx_any h.conn.cached e d]
    exact h.conn.whole
  have hlen' : ∀ e, ((s.atConn d k.dstConn).ctx e k.dstConn).length = 256 := fun e => by
    rw [ht.ctx]
    exact hlen e
  have hfirst : HeadKept s (s.atConn d k.dstConn) k.dstConn := ⟨ht.talks, hlen', fun e p n _ => by rw [ht.ctx]⟩
  exact hfirst.trans (notedIn_kept ((ht.talks.cached _).trans h.conn.cached) hlen' _ k buf)

theorem advanceExp_seq (d c n : Nat) (s : State) : (State.advanceExp d c n s).seq = s.seq := by
  induction n generalizing s with
  | zero => rfl
  | succ n ih =>
    unfold State.advanceExp
    dsimp only
    split
    · rw [ih, modConn_seq, ctxPut_seq]
      exact ctxPut_seq _ _ _ _ _
    · split
      · rw [ih, modConn_seq, ctxPut_seq]
      · rfl

theorem notedIn_work (s : State) (d c : Nat) (k : Packet) (buf : Option Nat) (i : Nat) : (s.notedIn d c k buf).work i = s.work i := by
  refine work_of_seq ?_ i
  have hput : ∀ m, (s.putMsg c k m).seq = s.seq := fun m => by
    unfold State.putMsg
    split
    · exact modConn_seq _ _ _
    · exact modConn_seq _ _ _
  unfold State.notedIn State.markPsns
  rw [advanceExp_seq]
  split
  · exact (ctxPut_seq _ _ _ _ _).trans (hput _)
  · exact (ctxPut_seq _ _ _ _ _).trans (hput _)

theorem sendPacket_does {k : Packet} {w : Work} (h : Expected s d k) (hwf : s.memWf = true)
    (hcheck : s.packetCheck (ctxPort (s.ctx d k.dstConn)) k.dstConn { k with opcode := 0 } = (0, some w.id)) (hw : s.work w.id = some w)
    (hbuf : ∀ m, (s.conn k.dstConn).inMsg k.msn = some m → m.buf = some w.id) :
    Does (.sendPacket d k) s fun t => Wrote s t (w.addr 8 + k.moff) k.payload ∧ t.regs = s.regs := by
  have h' : Expected s d { k with opcode := 0 } := ⟨h.conn, h.fence, h.exp, h.new⟩
  have hkept := h'.kept (some w.id)
  have hmsg := notedIn_inMsg (s.atConn d k.dstConn) (ctxPort (s.ctx d k.dstConn)) k.dstConn { k with opcode := 0 } (some w.id)
  have hmsgBuf : (((s.atConn d k.dstConn).msgOf k.dstConn { k with opcode := 0 } (some w.id)).note { k with opcode := 0 }
      ((s.atConn d k.dstConn).psnsOf (ctxPort (s.ctx d k.dstConn)) k.dstConn { k with opcode := 0 })).buf = some w.id := by
    rw [(note_keeps _ _ _).2, State.msgOf, atConn_conn]
    cases hin : (s.conn k.dstConn).inMsg k.msn with
    | none => rfl
    | some m => exact hbuf m hin
  have hwork := (notedIn_work (s.atConn d k.dstConn) (ctxPort (s.ctx d k.dstConn)) k.dstConn { k with opcode := 0 } (some w.id) w.id).trans ((atConn_work s d k.dstConn w.id).trans hw)
  obtain ⟨hwrote, hregs, hxt⟩ := placeSend_wrote (hkept.talks.memWf hwf) hmsg hmsgBuf hwork
  obtain ⟨hall, hregs'⟩ := placed_wrote (d := ctxPort (s.ctx d k.dstConn)) (k := { k with opcode := 0 }) (n := 1) hwrote hregs hxt (hkept.cached h.conn.cached) k.msn
  exact ⟨_, (onDie_eq h.conn.die).trans (congrArg _ (h'.placed (by simp) hcheck)), hall.of_mem hkept.talks.mem.symm hkept.talks.wiped.symm rfl rfl, hregs'.trans hkept.talks.regs⟩

theorem writePacket_does {k : Packet} (h : Expected s d k) (hwf : s.memWf = true)
    (hcheck : s.packetCheck (ctxPort (s.ctx d k.dstConn)) k.dstConn { k with opcode := 1 } = (0, none))
    (hbell : (s.region (ctxPort (s.ctx d k.dstConn)) (k.key / 256)).bell = false) :
    Does (.writePacket d k) s fun t => Wrote s t ((s.region (ctxPort (s.ctx d k.dstConn)) (k.key / 256)).base + k.roff) k.payload ∧ t.regs = s.regs := by
  have h' : Expected s d { k with opcode := 1 } := ⟨h.conn, h.fence, h.exp, h.new⟩
  have hkept := h'.kept none
  have hregion := hkept.talks.region (ctxPort (s.ctx d k.dstConn)) (k.key / 256)
  obtain ⟨hwrote, hregs, hxt⟩ := placeWrite_wrote (c := k.dstConn) (k := { k with opcode := 1 }) (hkept.talks.memWf hwf) (by rw [hregion]; exact hbell)
  obtain ⟨hall, hregs'⟩ := placed_wrote (d := ctxPort (s.ctx d k.dstConn)) (k := { k with opcode := 1 }) (n := 1) hwrote hregs hxt (hkept.cached h.conn.cached) k.msn
  rw [hregion] at hall
  exact ⟨_, (onDie_eq h.conn.die).trans (congrArg _ (h'.placed (by simp) hcheck)), hall.of_mem hkept.talks.mem.symm hkept.talks.wiped.symm rfl rfl, hregs'.trans hkept.talks.regs⟩

theorem readReqPacket_does {k : Packet} (h : Expected s d k) (hpsn : k.psn < 2 ^ 24) (hlen : 1 ≤ k.len)
    (hcheck : s.packetCheck (ctxPort (s.ctx d k.dstConn)) k.dstConn { k with opcode := 2 } = (0, none)) :
    Does (.readReqPacket d k) s fun t => SameMem s t ∧ t.regs = s.regs ∧
      Queued t (ctxPort (s.ctx d k.dstConn)) fun p => p.opcode = 3 ∧ p.psn = k.psn ∧ p.moff = k.moff ∧
        p.payload = s.bytes ((s.region (ctxPort (s.ctx d k.dstConn)) (k.key / 256)).base + k.roff) (Nat.min (ctxMtu (s.ctx d k.dstConn)) k.len) := by
  have h' : Expected s d { k with opcode := 2 } := ⟨h.conn, h.fence, h.exp, h.new⟩
  have hkept := h'.kept none
  have hctx := ctx_any h.conn.cached d (ctxPort (s.ctx d k.dstConn))
  obtain ⟨hchat, hqueued⟩ := respond_does (k := { k with opcode := 2 }) (hkept.sends (e := ctxPort (s.ctx d k.dstConn)) (by rw [← hctx]; exact h.conn.sends)) hlen
  have hplaced := Talks.placedIn ((hchat.talks.cached _).trans (hkept.cached h.conn.cached)) (ctxPort (s.ctx d k.dstConn)) k.msn
    ((s.atConn d k.dstConn).psnsOf (ctxPort (s.ctx d k.dstConn)) k.dstConn { k with opcode := 2 })
  have hrest := hplaced.trans (Chats.owes _ (ctxPort (s.ctx d k.dstConn)) k.dstConn { k with opcode := 2 }).talks
  have hall := (hkept.talks.trans hchat.talks).trans hrest
  refine ⟨_, (onDie_eq h.conn.die).trans (congrArg _ (h'.placed (by simp) hcheck)), hall.sameMem, hall.regs, hrest.queued _ _ ?_⟩
  rw [hkept.port, hkept.mtu, ← hctx, hkept.talks.region, hkept.talks.bytes, Nat.mod_eq_of_lt hpsn] at hqueued
  exact hqueued

theorem writePacket_refused {k : Packet} {synd : Nat} (h : Expected s d k)
    (hcheck : s.packetCheck (ctxPort (s.ctx d k.dstConn)) k.dstConn { k with opcode := 1 } = (synd, none)) (h0 : synd ≠ 0) (h2 : synd ≠ 2) :
    Does (.writePacket d k) s fun t => SameMem s t ∧ t.regs = s.regs ∧ ctxState (t.ctx d k.dstConn) = 2 ∧
      Queued t (ctxPort (s.ctx d k.dstConn)) fun p => p.opcode = 5 ∧ p.synd = synd := by
  have h' : Expected s d { k with opcode := 1 } := ⟨h.conn, h.fence, h.exp, h.new⟩
  have ht := atConn_touched h.conn.cached d
  have hctx : (s.atConn d k.dstConn).ctx (ctxPort (s.ctx d k.dstConn)) k.dstConn = s.ctx d k.dstConn := atConn_ctx h.conn.cached _
  have hcount := Chats.countSynd (s.atConn d k.dstConn) (ctxPort ((s.atConn d k.dstConn).ctx (ctxPort (s.ctx d k.dstConn)) k.dstConn)) synd
  generalize hv : (s.atConn d k.dstConn).countSynd (ctxPort ((s.atConn d k.dstConn).ctx (ctxPort (s.ctx d k.dstConn)) k.dstConn)) synd = v at hcount
  have hvctx : v.ctx (ctxPort (s.ctx d k.dstConn)) k.dstConn = s.ctx d k.dstConn := (hcount.ctx _ _).trans hctx
  have hnak := Chats.sendNak v (ctxPort (s.ctx d k.dstConn)) k.dstConn synd k.msn
  have hvtalks := ht.talks.trans hcount.talks
  have hqueued : Queued (v.sendNak (ctxPort (s.ctx d k.dstConn)) k.dstConn synd k.msn) (ctxPort (s.ctx d k.dstConn)) fun p => p.opcode = 5 ∧ p.synd = synd := by
    unfold State.sendNak
    dsimp only
    rw [hvctx]
    exact sendPacket_queued (hvtalks.sends h.conn.sends |> (Chats.bump v _ _ _).talks.sends) _ false ⟨rfl, rfl⟩
  have hc := ((hvtalks.trans hnak.talks).cached k.dstConn).trans h.conn.cached
  have herr := Talks.connError (v.sendNak (ctxPort (s.ctx d k.dstConn)) k.dstConn synd k.msn) (ctxPort (s.ctx d k.dstConn)) hc synd k.psn none 0
  have hstate := (connError_does (d := ctxPort (s.ctx d k.dstConn)) hc (by rw [hnak.ctx, hvctx]; exact h.conn.whole) synd k.psn none 0 d).1
  have hall := (hvtalks.trans hnak.talks).trans herr
  have hrun : s.packetIn d { k with opcode := 1 } = (v.sendNak (ctxPort (s.ctx d k.dstConn)) k.dstConn synd k.msn).connError (ctxPort (s.ctx d k.dstConn)) k.dstConn synd k.psn none 0 := by
    rw [h'.refused (by simp) hcheck h0 h2, State.refusePacket]
    exact congrArg (fun z : State => (z.sendNak (ctxPort (s.ctx d k.dstConn)) k.dstConn synd k.msn).connError (ctxPort (s.ctx d k.dstConn)) k.dstConn synd k.psn none 0) hv
  exact ⟨_, (onDie_eq h.conn.die).trans (congrArg _ hrun), hall.sameMem, hall.regs, hstate, herr.queued _ _ hqueued⟩

end Sys2Proof.Machine

open Sys2Proof Sys2Proof.Machine

/-- Settles O27: the expected packet is noted on a context whose first 64 bytes stay, its bytes are stored once, and what follows a store
changes neither memory nor registers. -/
theorem packetsPlaced : Obligations.PacketsPlaced := by
  unfold Obligations.PacketsPlaced
  intro s d k hconn hwf hfence hpsn hexp hnew
  have h : Expected s d k := ⟨hconn, hfence, hexp, hnew⟩
  exact ⟨fun w hcheck hw hbuf => sendPacket_does h hwf hcheck hw hbuf, fun hcheck hbell => writePacket_does h hwf hcheck hbell,
    fun hcheck hlen => readReqPacket_does h hpsn hlen hcheck, fun synd hcheck h0 h2 => writePacket_refused h hcheck h0 h2⟩

end

section
/-! PROOF. Context fetches, timers, fences and receive completions of remote access, and what disabling it drops. -/

namespace Sys2Proof.Machine

variable {s t u : State} {d c : Nat}

/-! ## Context fetches -/

theorem evict_room (h : (s.ctxsOf d).length < 4096) : s.evict d = s := if_pos h

/-- A context loaded where it is not at hand: the 256 bytes of its entry. -/
theorem loadCtx_does (hroom : (s.ctxsOf d).length < 4096) (hc : s.cached c = false) : (s.loadCtx d c).cached c = true ∧
    (s.loadCtx d c).ctx d c = s.bytes (s.ctxAddr d c) 256 ∧ SameMem s (s.loadCtx d c) ∧ (s.loadCtx d c).regs = s.regs := by
  have hrun : s.loadCtx d c = { s with xt := { s.xt with ctxs := s.xt.ctxs ++ [(⟨d, c, s.bytes (s.ctxAddr d c) 256⟩ : Ctx)] } } := by
    unfold State.loadCtx
    rw [evict_room hroom]
  have hnone : s.xt.ctxs.find? (fun x => x.c == c) = none := by
    refine List.find?_eq_none.mpr fun x hx hp => ?_
    exact absurd (List.any_eq_true.mpr ⟨x, hx, hp⟩) (by rw [show s.xt.ctxs.any _ = false from hc]; decide)
  rw [hrun]
  refine ⟨?_, ?_, .of_eq rfl rfl, rfl⟩
  · show (s.xt.ctxs ++ [_]).any _ = true
    simp
  · unfold State.ctx
    dsimp only
    rw [List.find?_append, hnone, List.find?_cons_of_pos (by simp)]
    rfl

/-- The state from which a fetched context is loaded: it is no longer being fetched, and no packet waits for it. -/
def State.fetchEnded (s : State) (d c : Nat) : State :=
  { s.retry with xt := { s.xt with misses := s.xt.misses.filter fun (m : Miss) => !(m.d == d && m.c == c), fetching := without (d, c) s.xt.fetching } }

theorem contextFetch_does (hd : DieUp s d) (hf : (d, c) ∈ s.xt.fetching) (hc : s.cached c = false) (hroom : (s.ctxsOf d).length < 4096)
    (hnone : ∀ m ∈ s.xt.misses, m.d ≠ d ∨ m.c ≠ c) : exec (.contextFetch d c true) s = .next ((s.fetchEnded d c).loadCtx d c) := by
  have hwait : (s.xt.misses.filter fun m => m.d == d && m.c == c) = [] := by
    refine List.filter_eq_nil_iff.mpr fun m hm => ?_
    have h := hnone m hm
    simp only [Bool.and_eq_true, beq_iff_eq, not_and]
    exact fun hmd hmc => h.elim (· hmd) (· hmc)
  have hfull : (s.fetchEnded d c).cacheFull d = false := by
    unfold State.cacheFull
    rw [Bool.and_eq_false_iff]
    exact .inl (decide_eq_false (by show ¬ 4096 ≤ (s.ctxsOf d).length; omega))
  refine (onDie_eq hd).trans (congrArg _ ?_)
  rw [if_neg (by simpa using hf)]
  dsimp only
  show (if (!true) = true then _ else if (!(s.fetchEnded d c).cached c && (s.fetchEnded d c).cacheFull d) = true then _ else
    (s.xt.misses.filter fun m => m.d == d && m.c == c).foldl _ (if (s.fetchEnded d c).cached c = true then s.fetchEnded d c else (s.fetchEnded d c).loadCtx d c)) = _
  rw [hwait, hfull, if_neg (by decide), if_neg (by simp)]
  exact if_neg (by show ¬ s.cached c = true; rw [hc]; decide)

/-! ## Timers -/

theorem resend_xt (s : State) (d c : Nat) (pick : Nat → Bool) : (s.resend d c pick).xt = s.xt := by
  refine foldl_keeps (P := fun t : State => t.xt = s.xt) (fun t m h => ?_) _ rfl
  dsimp only
  split
  · exact h
  · refine foldl_keeps (P := fun t : State => t.xt = s.xt) (fun v i hv => ?_) _ h
    split
    · exact (sendPacket_xt _ _ _ _).trans hv
    · exact hv

/-- Ending the descriptors of some messages with a status. -/
theorem endMsgs_work (st i : Nat) (l : List XMsg) {s : State} {w : Work} (hw : s.work i = some w) :
    ∃ v, (l.foldl (fun s m => s.endStatus m.id st) s).work i = some v ∧ (i ∈ l.map (fun m => m.id) → v.ended = true ∧ v.res = { w.res with status := st }) ∧
      (i ∉ l.map (fun m => m.id) → v = w) := by
  induction l generalizing s w with
  | nil => exact ⟨w, hw, fun h => absurd h List.not_mem_nil, fun _ => rfl⟩
  | cons m l ih =>
    rw [List.foldl_cons]
    by_cases hi : i = m.id
    · subst hi
      obtain ⟨v, hv, hin, hout⟩ := ih (s := s.endStatus m.id st) (w := { w with started := true, ended := true, res := { w.res with status := st } })
        ((work_endWork s m.id _).trans (by rw [hw]; rfl))
      refine ⟨v, hv, fun _ => ?_, fun h => absurd List.mem_cons_self h⟩
      by_cases h : m.id ∈ l.map fun m => m.id
      · exact hin h
      · rw [hout h]
        exact ⟨rfl, rfl⟩
    · obtain ⟨v, hv, hin, hout⟩ := ih (s := s.endStatus m.id st) ((work_endWork_other s _ hi).trans hw)
      refine ⟨v, hv, fun h => hin ?_, fun h => hout fun hl => h (List.mem_cons_of_mem _ hl)⟩
      exact (List.mem_cons.mp h).resolve_left hi

/-- An error of a connection that sends no message changes no descriptor. -/
theorem connError_seq {synd psn status : Nat} {msn : Option Nat} (h : (s.conn c).msgs = []) : (s.connError d c synd psn msn status).seq = s.seq := by
  have hconn : ∀ v : State, v.conn c = s.conn c → v.seq = s.seq → (v.flushConn c msn status synd).seq = s.seq := fun v hv hs => by
    unfold State.flushConn State.flushMsgs
    rw [modConn_seq, hv, h]
    exact (modConn_seq v c _).trans hs
  unfold State.connError
  refine hconn _ ?_ ?_
  · rw [ctxPut_conn, ctxPut_conn]
  · rw [ctxPut_seq, ctxPut_seq]

/-- The messages of a connection that has tried too often end late. -/
def State.lateMsgs (s : State) (c : Nat) : State :=
  ((s.conn c).msgs.foldl (fun s m => s.endStatus m.id 0x11) s).modConn c fun y => { y with msgs := [], done := y.done ++ (s.conn c).msgs.map (fun m => m.id) }

theorem retransmit_exec (hd : DieUp s d) (hready : ctxState (s.ctx d c) = 1) (hun : (s.conn c).unacked = true) : exec (.retransmitTimeout d c) s = .next (
    if leAt (s.ctx d c) 32 1 % 16 ≤ (s.conn c).tries + 1 then
      ((s.bump (ctxPort (s.ctx d c)) (xtCnt 4) 1).lateMsgs c).connError d c 0x22 (s.conn c).acked none 0
    else ((s.bump (ctxPort (s.ctx d c)) (xtCnt 4) 1).modConn c fun y => { y with tries := y.tries + 1 }).resend d c
      fun p => decide (modSub 24 p (s.conn c).acked < 2 ^ 23)) :=
  (onDie_eq hd).trans (congrArg _ (if_neg (by simp [hready, hun])))

theorem retransmit_again (hd : DieUp s d) (hready : ctxState (s.ctx d c) = 1) (hun : (s.conn c).unacked = true)
    (h : (s.conn c).tries + 1 < leAt (s.ctx d c) 32 1 % 16) : Does (.retransmitTimeout d c) s fun t => (t.conn c).tries = (s.conn c).tries + 1 ∧
      (t.conn c).msgs = (s.conn c).msgs ∧ SameMem s t ∧ t.regs = s.regs := by
  let v := (s.bump (ctxPort (s.ctx d c)) (xtCnt 4) 1).modConn c fun y => { y with tries := y.tries + 1 }
  have hv : v.conn c = { s.conn c with tries := (s.conn c).tries + 1 } :=
    conn_modConn (s.bump (ctxPort (s.ctx d c)) (xtCnt 4) 1) c (fun y => { y with tries := y.tries + 1 }) fun _ => rfl
  have hchat : Chats s (v.resend d c fun p => decide (modSub 24 p (s.conn c).acked < 2 ^ 23)) := ((Chats.bump s _ _ _).trans (.modConn _ c _)).trans (.resend v d c _)
  have hconn : (v.resend d c fun p => decide (modSub 24 p (s.conn c).acked < 2 ^ 23)).conn c = v.conn c := conn_congr (congrArg Xt.conns (resend_xt v d c _)) c
  refine ⟨_, (retransmit_exec hd hready hun).trans (congrArg _ (if_neg (by omega))), ?_, ?_, hchat.talks.sameMem, hchat.talks.regs⟩
  · exact (congrArg Conn.tries (hconn.trans hv) :)
  · exact (congrArg Conn.msgs (hconn.trans hv) :)

theorem retransmit_late (hd : DieUp s d) (hready : ctxState (s.ctx d c) = 1) (hun : (s.conn c).unacked = true)
    (h : leAt (s.ctx d c) 32 1 % 16 ≤ (s.conn c).tries + 1) : Does (.retransmitTimeout d c) s fun t => (t.conn c).msgs = [] ∧
      ∀ m ∈ (s.conn c).msgs, ∀ w, s.work m.id = some w → Ended t m.id { w.res with status := 0x11 } := by
  refine ⟨_, (retransmit_exec hd hready hun).trans (congrArg _ (if_pos h)), flushConn_conn _ c none 0 0x22, fun m hm w hw => ?_⟩
  obtain ⟨v, hv, hin, -⟩ := endMsgs_work 0x11 m.id (s.conn c).msgs (s := s.bump (ctxPort (s.ctx d c)) (xtCnt 4) 1) hw
  obtain ⟨hended, hres⟩ := hin (List.mem_map.mpr ⟨m, hm, rfl⟩)
  have hmsgs : (((s.bump (ctxPort (s.ctx d c)) (xtCnt 4) 1).lateMsgs c).conn c).msgs = [] :=
    (congrArg Conn.msgs (conn_modConn _ c (fun y => { y with msgs := [], done := y.done ++ (s.conn c).msgs.map (fun m => m.id) }) fun _ => rfl) :)
  refine ⟨v, (work_of_seq (connError_seq hmsgs) _).trans ((work_of_seq (modConn_seq _ c _) _).trans hv), hended, hres⟩

theorem rnrWait_does {n : Nat} {m : XMsg} (hd : DieUp s d) (hw : (s.conn c).wait = some n) (hm : ((s.conn c).msgs.find? fun m => m.msn == n) = some m) :
    Does (.rnrWait d c) s fun t => (t.conn c).wait = none ∧ SameMem s t ∧ t.regs = s.regs := by
  let v := s.modConn c fun x => { x with wait := none }
  have hchat : Chats s (v.resend d c fun p => decide (modSub 24 p m.psn < m.n)) := (Chats.modConn s c _).trans (.resend v d c _)
  have hconn : (v.resend d c fun p => decide (modSub 24 p m.psn < m.n)).conn c = v.conn c := conn_congr (congrArg Xt.conns (resend_xt v d c _)) c
  refine ⟨_, (onDie_eq hd).trans (congrArg _ ?_), ?_, hchat.talks.sameMem, hchat.talks.regs⟩
  · rw [hw, Option.bind_some, hm]
  · exact (congrArg Conn.wait (hconn.trans (conn_modConn s c (fun x => { x with wait := none }) fun _ => rfl)) :)

/-- The request of a read from its missing packet `i` on. -/
def State.retryPacket (s : State) (b : List Byte) (m : XMsg) (w : Work) (i : Nat) : Packet :=
  let k := s.packetOf b m w 0
  { k with psn := (m.psn + i) % 2 ^ 24, moff := i * ctxMtu b, roff := k.roff + i * ctxMtu b, len := k.len - i * ctxMtu b }

theorem readRetry_does {i : Nat} {m : XMsg} {w : Work} (hd : DieUp s d) (hs : Sends s (s.ctx d c))
    (hm : ((s.conn c).msgs.find? fun m => m.op == 2 && decide (0 < m.sent) && decide (m.got.length < m.n)) = some m) (hw : s.work m.id = some w)
    (hi : ((List.range m.n).find? fun i => !m.got.contains i) = some i) : Does (.readRetryTimeout d c) s fun t => SameMem s t ∧ t.regs = s.regs ∧
      Queued t (ctxPort (s.ctx d c)) fun p => p.opcode = 2 ∧ p.psn = (m.psn + i) % 2 ^ 24 ∧ p.roff = w.f 16 6 + i * ctxMtu (s.ctx d c) := by
  have hop : m.op = 2 := by
    have h := List.find?_some (p := fun m : XMsg => m.op == 2 && decide (0 < m.sent) && decide (m.got.length < m.n)) hm
    simp only [Bool.and_eq_true, beq_iff_eq] at h
    exact h.1.1
  have hpacket : (s.packetOf (s.ctx d c) m w 0).opcode = 2 ∧ (s.packetOf (s.ctx d c) m w 0).roff = w.f 16 6 := by
    unfold State.packetOf
    dsimp only
    rw [if_pos hop]
    exact ⟨hop, rfl⟩
  have hbump := Chats.bump s (ctxPort (s.ctx d c)) (xtCnt 2) 1
  refine ⟨(s.bump (ctxPort (s.ctx d c)) (xtCnt 2) 1).sendPacket (s.ctx d c) (s.retryPacket (s.ctx d c) m w i) true,
    (onDie_eq hd).trans (congrArg _ ?_), (hbump.trans (.sendPacket _ _ _ _)).talks.sameMem, (hbump.trans (.sendPacket _ _ _ _)).talks.regs,
    sendPacket_queued (hbump.talks.sends hs) _ true ⟨hpacket.1, rfl, ?_⟩⟩
  · dsimp only
    rw [hm]
    dsimp only
    rw [hw, hi]
    rfl
  · show (s.packetOf (s.ctx d c) m w 0).roff + _ = _
    rw [hpacket.2]

theorem ackTimer_does (hd : DieUp s d) (hs : Sends s (s.ctx d c)) (h : (s.conn c).owed = true) : Does (.xtAckTimer d c) s fun t =>
    (t.conn c).owed = false ∧ SameMem s t ∧ t.regs = s.regs ∧
      Queued t (ctxPort (s.ctx d c)) fun p => p.opcode = 4 ∧ p.psn = ctxExp (s.ctx d c) ∧ p.aMsn = modSub 24 (ctxRecvMsn (s.ctx d c)) 1 := by
  have hchat := Chats.sendAck s d c
  have hmod := Chats.modConn s c fun x => { x with owed := false }
  refine ⟨_, (onDie_eq hd).trans (congrArg _ (if_pos h)), ?_, hchat.talks.sameMem, hchat.talks.regs, sendPacket_queued (hmod.talks.sends hs) _ false ⟨rfl, rfl, rfl⟩⟩
  exact (congrArg Conn.owed ((conn_sendPacket _ _ _ _ c).trans (conn_modConn s c (fun x => { x with owed := false }) fun _ => rfl)) :)

theorem nakResend_does (hd : DieUp s d) (hs : Sends s (s.ctx d c)) (h : (s.conn c).nak = true) : Does (.xtNakResend d c) s fun t =>
    SameMem s t ∧ t.regs = s.regs ∧ Queued t (ctxPort (s.ctx d c)) fun p => p.opcode = 5 ∧ p.synd = 1 ∧ p.psn = ctxExp (s.ctx d c) := by
  have hchat := Chats.sendNak s d c 1 (ctxRecvMsn (s.ctx d c))
  have hbump := Chats.bump s (ctxPort (s.ctx d c)) (xtCnt 3) 1
  exact ⟨_, (onDie_eq hd).trans (congrArg _ (if_pos h)), hchat.talks.sameMem, hchat.talks.regs, sendPacket_queued (hbump.talks.sends hs) _ false ⟨rfl, rfl, rfl⟩⟩

/-! ## Fences -/

theorem Chats.settleInval (s : State) : Chats s s.settleInval := .foldl (f := fun (s : State) (w : Work) => s.endStatus w.id 0) _ (fun t w => .endStatus t w.id 0) s

theorem fenceRelease_does {m : XIn} {k : Packet} (hd : DieUp s d) (hwf : s.memWf = true) (hc : s.cached c = true) (hins : (s.conn c).ins = [m]) (hheld : m.held = [k])
    (hop : k.opcode = 1) (hbell : (s.region d (k.key / 256)).bell = false) (hopen : s.fenceOpen d c m = true) : Does (.fenceRelease d c) s fun t =>
      Wrote s t ((s.region d (k.key / 256)).base + k.roff) k.payload ∧ t.regs = s.regs := by
  let v := s.modIn c m.msn fun x => { x with held := [] }
  have hv : Chats s v := .modIn s c _ _
  have hregion := hv.talks.region d (k.key / 256)
  obtain ⟨hwrote, hregs, hxt⟩ := placeWrite_wrote (s := v) (d := d) (c := c) (k := k) (hv.talks.memWf hwf) (by rw [hregion]; exact hbell)
  have hcp : (v.placeWrite d c k).cached c = true := by
    unfold State.cached
    rw [hxt]
    exact (hv.talks.cached c).trans hc
  have hrest := (Talks.placedIn hcp d k.msn 1).trans (Chats.settleInval _).talks
  have hplace : v.placePacket d c k 1 = (v.placeWrite d c k).placedIn d c k.msn 1 := by
    unfold State.placePacket
    split
    · omega
    · rfl
    · contradiction
  have hrun : exec (.fenceRelease d c) s = .next ((v.placePacket d c k 1).settleInval) := by
    refine (onDie_eq hd).trans (congrArg _ ?_)
    dsimp only
    rw [hins, List.filter_cons_of_pos (by rw [hheld]; rfl)]
    show State.settleInval (if s.fenceOpen d c m = true then _ else _) = _
    rw [if_pos hopen, hheld]
    show State.settleInval (State.placePacket _ d c k (if k.opcode = 2 then _ else 1)) = _
    rw [if_neg (by omega)]
  refine ⟨_, hrun, ?_⟩
  rw [hplace]
  refine ⟨?_, hrest.regs.trans (hregs.trans hv.talks.regs)⟩
  rw [hregion] at hwrote
  exact .of_talks hv.talks hwrote hrest

/-! ## Receive completions -/

theorem Chats.dropWork (s : State) (id : Nat) : Chats s (s.dropWork id) := ⟨rfl, fun _ _ h => h⟩

theorem write_xt (s : State) (a : Nat) (bs : List Byte) (tag : Bool) : (s.write a bs tag).xt = s.xt := by rw [State.write_fields]

/-- What writing a record keeps: connections, contexts and descriptors; and the tail moves on. -/
theorem writeRec_keeps (s : State) (r : Nat) (x : Rec) (irq : Bool) : (s.writeRec r x irq).xt = s.xt ∧ (s.writeRec r x irq).seq.works = s.seq.works ∧
    (s.writeRec r x irq).cqTail r = (s.cqTail r + 1) % 2 ^ 32 := by
  obtain ⟨hsr, hsp, -, hseq, -⟩ := recStored_frame s r x
  have hxt : (s.recStored r x).xt = s.xt := by
    unfold State.recStored
    obtain ⟨o, hreq⟩ := hostReq_state (((s.write (s.recAddr r) x.bytes).write (s.recAddr r + 31) (s.recOwn r)).access true (s.recAddr r) 32) none true false (s.recAddr r) 32
    obtain ⟨ct, n, hacc⟩ := State.access_state ((s.write (s.recAddr r) x.bytes).write (s.recAddr r + 31) (s.recOwn r)) true (s.recAddr r) 32
    rw [hreq, hacc]
    exact (write_xt _ _ _ _).trans (write_xt s _ _ _)
  obtain ⟨htail, -, -⟩ := recCounted_does (s.recStored r x) r (s.cqTail r) x
  obtain ⟨p, hp⟩ := writeRec_eq s r x irq
  let v := (s.recStored r x).recCounted r (s.cqTail r) x
  have hv : v.xt = s.xt ∧ v.seq.works = s.seq.works := ⟨hxt, congrArg Seq.works hseq⟩
  rw [hp]
  dsimp only
  split
  · obtain ⟨h, o, he⟩ := State.interrupt_state { v with seq := { v.seq with cqArm := without r v.seq.cqArm } } p r
    rw [he]
    exact ⟨hv.1, hv.2, htail⟩
  · exact ⟨hv.1, hv.2, htail⟩

theorem advanceMsn_seq (d c n : Nat) (s : State) : (State.advanceMsn d c n s).seq = s.seq := by
  induction n generalizing s with
  | zero => rfl
  | succ n ih =>
    unfold State.advanceMsn
    dsimp only
    split
    · split
      · rw [ih, ctxPut_seq, modConn_seq]
      · rfl
    · rfl

/-- A connection without the message of an MSN. -/
def Conn.without (msn : Nat) (x : Conn) : Conn := { x with ins := x.ins.filter fun y => y.msn != msn }

theorem without_inMsg {x : Conn} (msn : Nat) {r : Nat} (h : msn = r ∨ x.inMsg r = none) : (x.without msn).inMsg r = none := by
  refine List.find?_eq_none.mpr fun m hm hp => ?_
  obtain ⟨hmem, hne⟩ := List.mem_filter.mp hm
  rcases h with rfl | h
  · simp at hne hp
    exact hne hp
  · exact List.find?_eq_none.mp h m hmem hp

theorem advanceMsn_inMsg {r : Nat} (d n : Nat) {s : State} (h : (s.conn c).inMsg r = none) : ((State.advanceMsn d c n s).conn c).inMsg r = none := by
  induction n generalizing s with
  | zero => exact h
  | succ n ih =>
    unfold State.advanceMsn
    dsimp only
    split
    · split
      · refine ih ?_
        rw [ctxPut_conn]
        show ((s.modConn c (Conn.without (ctxRecvMsn (s.ctx d c)))).conn c).inMsg r = none
        rw [conn_modConn s c (Conn.without (ctxRecvMsn (s.ctx d c))) fun _ => rfl]
        exact without_inMsg _ (.inr h)
      · exact h
    · exact h

/-- The record of a receive completion. -/
def State.recvRec (s : State) (m : XIn) (r : Nat) : Rec :=
  { Rec.empty with tag := (match m.buf.bind s.work with | some w => w.f 4 4 | none => 0),
                   idx := (match m.buf.bind s.work with | some w => w.idx | none => 0xFFFFFFFF), kind := 0x2E,
                   poison := m.poison, receive := true, detail0 := r,
                   detail1 := m.len + 2 ^ 32 * m.imm.toNat }

/-- The state in which the record of a receive completion is written: the message is gone, and its buffer with it. -/
def State.recvTaken (s : State) (d c : Nat) (m : XIn) : State :=
  let t := (s.modConn c (Conn.without (ctxRecvMsn (s.ctx d c)))).ctxPut d c 76 (natLe 3 (ctxRecvMsn (s.ctx d c) + 1))
  match m.buf.bind s.work with | some w => t.dropWork w.id | none => t

theorem recvTaken_does (hc : s.cached c = true) (m : XIn) : Talks s (s.recvTaken d c m) ∧ ((s.recvTaken d c m).conn c).inMsg (ctxRecvMsn (s.ctx d c)) = none ∧
    ∀ w, m.buf.bind s.work = some w → (s.recvTaken d c m).work w.id = none := by
  let t := (s.modConn c (Conn.without (ctxRecvMsn (s.ctx d c)))).ctxPut d c 76 (natLe 3 (ctxRecvMsn (s.ctx d c) + 1))
  have hmod := (Chats.modConn s c (Conn.without (ctxRecvMsn (s.ctx d c)))).talks
  have ht : Talks s t := hmod.trans (.ctxPut _ d ((hmod.cached c).trans hc) 76 _)
  have hin : (t.conn c).inMsg (ctxRecvMsn (s.ctx d c)) = none := by
    rw [ctxPut_conn, conn_modConn s c (Conn.without (ctxRecvMsn (s.ctx d c))) fun _ => rfl]
    exact without_inMsg _ (.inl rfl)
  unfold State.recvTaken
  dsimp only
  cases m.buf.bind s.work with
  | none => exact ⟨ht, hin, fun w h => absurd h (by simp)⟩
  | some w =>
    refine ⟨ht.trans (Chats.dropWork t w.id).talks, hin, fun x h => ?_⟩
    obtain rfl := Option.some.inj h
    exact dropWork_work t w.id

/-- The state in which the record of a receive completion has been written. -/
def State.recvWritten (s : State) (d c : Nat) (m : XIn) : State :=
  (s.recvTaken d c m).writeRec (ctxRing (s.ctx d c)) (s.recvRec m (ctxRecvMsn (s.ctx d c))) (match m.buf.bind s.work with | some w => w.irq | none => false)

theorem receiveCompletion_exec {m : XIn} (hd : DieUp s d) (hm : (s.conn c).inMsg (ctxRecvMsn (s.ctx d c)) = some m) (hw : m.whole = true) (hop : m.op = 0 ∨ m.notify = true) :
    exec (.receiveCompletion d c) s = .next (State.advanceMsn d c ((s.recvWritten d c m).conn c).ins.length (s.recvWritten d c m)) := by
  refine (onDie_eq hd).trans (congrArg _ ?_)
  dsimp only
  rw [hm]
  exact if_neg (by rcases hop with h | h <;> simp [hw, h])

theorem receiveCompletion_does {m : XIn} (hd : DieUp s d) (hc : s.cached c = true) (hm : (s.conn c).inMsg (ctxRecvMsn (s.ctx d c)) = some m) (hw : m.whole = true)
    (hop : m.op = 0 ∨ m.notify = true) : Does (.receiveCompletion d c) s fun t =>
      t.cqTail (ctxRing (s.ctx d c)) = (s.cqTail (ctxRing (s.ctx d c)) + 1) % 2 ^ 32 ∧ (t.conn c).inMsg (ctxRecvMsn (s.ctx d c)) = none ∧
      (∀ w, m.buf.bind s.work = some w → t.work w.id = none) := by
  obtain ⟨htaken, hin, hworks⟩ := recvTaken_does (d := d) hc m
  obtain ⟨hxt, hseq, htail⟩ := writeRec_keeps (s.recvTaken d c m) (ctxRing (s.ctx d c)) (s.recvRec m (ctxRecvMsn (s.ctx d c)))
    (match m.buf.bind s.work with | some w => w.irq | none => false)
  refine ⟨_, receiveCompletion_exec hd hm hw hop, ?_⟩
  generalize hv : s.recvWritten d c m = v
  generalize (v.conn c).ins.length = n
  rw [show (s.recvTaken d c m).writeRec _ _ _ = v from hv] at hxt hseq htail
  have hcv : v.cached c = true := by
    unfold State.cached
    rw [hxt]
    exact (htaken.cached c).trans hc
  have hrest := Talks.advanceMsn d n hcv
  have hring : ∀ a b : State, Talks a b → ∀ r, b.cqTail r = a.cqTail r := fun a b h r => h.regN _ _
  refine ⟨?_, advanceMsn_inMsg d n ?_, fun w hw => ?_⟩
  · rw [hring _ _ hrest, htail, hring _ _ htaken]
  · rw [conn_congr (congrArg Xt.conns hxt)]
    exact hin
  · rw [work_of_seq (advanceMsn_seq d c n v)]
    unfold State.work
    rw [hseq]
    exact hworks w hw

/-! ## Disabling the transport -/

theorem dropCtx_ctxs (s : State) (c : Nat) : (s.dropCtx c).xt.ctxs = s.xt.ctxs.filter fun y => y.c != c := by
  unfold State.dropCtx
  split
  · exact congrArg (fun l : List Ctx => l.filter fun y => y.c != c) (congrArg Xt.ctxs (write_xt s _ _ _))
  · next hnone =>
    refine (List.filter_eq_self.mpr fun x hx => ?_).symm
    simpa using List.find?_eq_none.mp hnone x hx

theorem dropCtx_regs (s : State) (c : Nat) : (s.dropCtx c).regs = s.regs ∧ (s.dropCtx c).part = s.part := by
  unfold State.dropCtx
  split
  · exact ⟨State.write_regs _ _ _ _, State.write_part _ _ _ _⟩
  · exact ⟨rfl, rfl⟩

/-- A connection whose context leaves the cache ends what it sends. -/
def State.flushDrop (s : State) (c : Nat) : State := (s.flushMsgs c none 0 0).dropCtx c

theorem flushDrop_regs (l : List Nat) (s : State) : (l.foldl State.flushDrop s).regs = s.regs ∧ (l.foldl State.flushDrop s).part = s.part :=
  foldl_keeps (P := fun t : State => t.regs = s.regs ∧ t.part = s.part) (fun t c h =>
    ⟨(dropCtx_regs _ c).1.trans ((Chats.flushMsgs t c none 0 0).talks.regs.trans h.1), (dropCtx_regs _ c).2.trans ((Chats.flushMsgs t c none 0 0).talks.part.trans h.2)⟩) l ⟨rfl, rfl⟩

/-- The contexts that are left at hand are those of other connections. -/
theorem flushDrop_ctxs (l : List Nat) (s : State) {x : Ctx} (h : x ∈ (l.foldl State.flushDrop s).xt.ctxs) : x ∈ s.xt.ctxs ∧ x.c ∉ l := by
  induction l generalizing s with
  | nil => exact ⟨h, List.not_mem_nil⟩
  | cons c l ih =>
    obtain ⟨hmem, hl⟩ := ih (s.flushDrop c) h
    have hctxs : (s.flushMsgs c none 0 0).xt.ctxs = s.xt.ctxs := by rw [(Chats.flushMsgs s c none 0 0).eq]
    rw [State.flushDrop, dropCtx_ctxs, hctxs, List.mem_filter] at hmem
    exact ⟨hmem.1, fun hin => (List.mem_cons.mp hin).elim (by simpa using hmem.2) hl⟩

theorem xtDisable_does (hd : DieUp s d) : Does (.xtDisable d) s fun t => t.xtOn d = false ∧ t.ctxsOf d = [] ∧
    (∀ m ∈ t.xt.misses, m.d ≠ d) ∧ ∀ x ∈ t.xt.fetching, x.1 ≠ d := by
  let v := s.setRbit d Reg.xtCtrl 0 false
  let l := (s.ctxsOf d).map fun x => x.c
  obtain ⟨hregs, hpart⟩ := flushDrop_regs l v
  refine ⟨_, onDie_eq hd, ?_, ?_, fun m hm => ?_, fun x hx => ?_⟩
  · show (l.foldl State.flushDrop v).rbit d Reg.xtCtrl 0 = false
    rw [State.rbit, State.regN_congr hregs hpart]
    exact State.rbit_setRbit_same s d Reg.xtCtrl 0 false (by decide)
  · refine List.filter_eq_nil_iff.mpr fun x hx hxd => ?_
    obtain ⟨hmem, hc⟩ := flushDrop_ctxs l v (x := x) hx
    exact hc (List.mem_map.mpr ⟨x, List.mem_filter.mpr ⟨hmem, hxd⟩, rfl⟩)
  · have h := (List.mem_filter.mp hm).2
    simpa using h
  · have h := (List.mem_filter.mp hx).2
    simpa using h

end Sys2Proof.Machine

open Sys2Proof Sys2Proof.Machine

/-- Settles O29: each timer sends from the context as it is; a completion writes one record after its message and buffer are gone; disabling
drops every context that the die holds. -/
theorem transportTimers : Obligations.TransportTimers := by
  unfold Obligations.TransportTimers
  refine ⟨?fetch, ?ack, ?nak, ?retransmit, ?rnr, ?retry, ?fence, ?receive, ?disable⟩
  case fetch =>
    intro s d c hd hf hc hroom hnone
    have hload := loadCtx_does (s := s.fetchEnded d c) (d := d) (c := c) hroom hc
    exact ⟨_, contextFetch_does hd hf hc hroom hnone, hload⟩
  case ack => exact fun s d c hd hs h => ackTimer_does hd hs h
  case nak => exact fun s d c hd hs h => nakResend_does hd hs h
  case retransmit => exact fun s d c hd hready hun => ⟨retransmit_again hd hready hun, retransmit_late hd hready hun⟩
  case rnr => exact fun s d c n m hd hw hm => rnrWait_does hd hw hm
  case retry => exact fun s d c i m w hd hs hm hw hi => readRetry_does hd hs hm hw hi
  case fence => exact fun s d c m k hd hwf hc hins hheld hop hbell hopen => fenceRelease_does hd hwf hc hins hheld hop hbell hopen
  case receive => exact fun s d c m hd hc hm hw hop => receiveCompletion_does hd hc hm hw hop
  case disable => exact fun s d hd => xtDisable_does hd

end

section
/-! PROOF. The recovery of a commit ring: what becomes of a domain's lost members. -/

namespace Sys2Proof.Machine

variable {s t u : State} {d m : Nat}

/-! ## What a commit frame that leaves changes -/

/-- From `s` to `t` commit frames have been queued: ports may have changed, and of the counters ROUTE_DROPS of die 0. -/
structure QueuesCmt (s t : State) : Prop where
  eq  : t = { s with eths := t.eths, ctrs := t.ctrs }
  ctr : ∀ e o, regKey e o ≠ regKey 0 (Reg.rasCntLo 7) → t.ctr e o = s.ctr e o

namespace QueuesCmt

theorem refl (s : State) : QueuesCmt s s := ⟨rfl, fun _ _ _ => rfl⟩

theorem trans (h : QueuesCmt s t) (g : QueuesCmt t u) : QueuesCmt s u := by
  refine ⟨?_, fun e o ho => (g.ctr e o ho).trans (h.ctr e o ho)⟩
  have e := g.eq
  rw [h.eq] at e
  exact e

theorem ite {c : Prop} [Decidable c] (h : QueuesCmt s t) (g : QueuesCmt s u) : QueuesCmt s (if c then t else u) := by
  split
  · exact h
  · exact g

theorem modEth (s : State) (d : Nat) (f : Eth → Eth) : QueuesCmt s (s.modEth d f) := by
  obtain ⟨l, e⟩ := modEth_state s d f
  rw [e]
  exact ⟨rfl, fun _ _ _ => rfl⟩

theorem queueRouted (s : State) (d : Nat) (f : TxFrame) : QueuesCmt s (s.queueRouted d f) := ite (refl s) (ite (modEth s d _) (modEth s d _))

theorem cmtSend (s : State) (m dest : Nat) (f : CommitFrame) : QueuesCmt s (s.cmtSend m dest f) := by
  refine ite (queueRouted s _ _) ?_
  unfold State.sendRouted
  split
  · exact queueRouted s _ _
  · exact ⟨rfl, fun e o ho => State.ctr_bump_other s _ _ _ _ _ ho⟩

theorem foldl {α : Type} {f : State → α → State} (l : List α) (hf : ∀ t a, QueuesCmt t (f t a)) (s : State) : QueuesCmt s (l.foldl f s) :=
  foldl_keeps (P := QueuesCmt s) (fun t a h => h.trans (hf t a)) l (refl s)

theorem sameMem (h : QueuesCmt s t) : SameMem s t := by
  rw [h.eq]
  exact .of_eq rfl rfl

theorem mem (h : QueuesCmt s t) : t.mem = s.mem ∧ t.wiped = s.wiped := by
  rw [h.eq]
  exact ⟨rfl, rfl⟩

theorem regs (h : QueuesCmt s t) : t.regs = s.regs := by rw [h.eq]
theorem groups (h : QueuesCmt s t) : t.groups = s.groups := by rw [h.eq]
theorem doms (h : QueuesCmt s t) : t.doms = s.doms := by rw [h.eq]

end QueuesCmt

/-! ## The state of a domain -/

theorem dom_congr (h : t.doms = s.doms) (m : Nat) : t.dom m = s.dom m := by
  unfold State.dom
  rw [h]

theorem dom_modDom (s : State) (m : Nat) (f : Dom → Dom) (hf : ∀ x, (f x).dom = x.dom) : (s.modDom m f).dom m = f (s.dom m) := by
  unfold State.modDom State.dom
  dsimp only
  split
  · rename_i hany
    obtain ⟨x, hx⟩ := List.find?_isSome.mpr (List.any_eq_true.mp hany) |> Option.isSome_iff_exists.mp
    dsimp only
    rw [find_mapIf (fun x : Dom => x.dom == m) f fun x h => by rw [hf]; exact h, hx]
    rfl
  · rename_i hany
    have hnone : (s.doms.find? fun x => x.dom == m) = none :=
      List.find?_eq_none.mpr fun x hx hp => hany (List.any_eq_true.mpr ⟨x, hx, hp⟩)
    dsimp only
    rw [List.find?_append, hnone, List.find?_cons_of_pos (by rw [hf]; exact beq_self_eq_true m)]
    rfl

theorem modDom_state (s : State) (m : Nat) (f : Dom → Dom) : ∃ l, s.modDom m f = { s with doms := l } := by
  unfold State.modDom
  dsimp only
  split
  · exact ⟨_, rfl⟩
  · exact ⟨_, rfl⟩

/-- From `s` to `t` the members lost of a domain, whether its ring has stopped, and the ends reported are as before. -/
structure DomKept (s t : State) (m : Nat) : Prop where
  lost    : (t.dom m).lost = (s.dom m).lost
  stopped : (t.dom m).stopped = (s.dom m).stopped
  ends    : (t.dom m).ends = (s.dom m).ends

namespace DomKept

theorem refl (s : State) (m : Nat) : DomKept s s m := ⟨rfl, rfl, rfl⟩

theorem trans (h : DomKept s t m) (g : DomKept t u m) : DomKept s u m := ⟨g.lost.trans h.lost, g.stopped.trans h.stopped, g.ends.trans h.ends⟩

theorem of_doms (h : t.doms = s.doms) (m : Nat) : DomKept s t m := by
  have e := dom_congr h m
  exact ⟨by rw [e], by rw [e], by rw [e]⟩

theorem ite {c : Prop} [Decidable c] (h : DomKept s t m) (g : DomKept s u m) : DomKept s (if c then t else u) m := by
  split
  · exact h
  · exact g

theorem foldl {α : Type} {f : State → α → State} (l : List α) (hf : ∀ t a, DomKept t (f t a) m) (s : State) : DomKept s (l.foldl f s) m :=
  foldl_keeps (P := fun t => DomKept s t m) (fun t a h => h.trans (hf t a)) l (refl s m)

theorem modDom (s : State) (m : Nat) {f : Dom → Dom} (hd : ∀ x, (f x).dom = x.dom) (hl : ∀ x, (f x).lost = x.lost) (hs : ∀ x, (f x).stopped = x.stopped)
    (he : ∀ x, (f x).ends = x.ends) : DomKept s (s.modDom m f) m := by
  have e := dom_modDom s m f hd
  exact ⟨by rw [e, hl], by rw [e, hs], by rw [e, he]⟩

theorem cmtSend (s : State) (n dest : Nat) (f : CommitFrame) (m : Nat) : DomKept s (s.cmtSend n dest f) m := of_doms (QueuesCmt.cmtSend s n dest f).doms m

theorem decide_ (s : State) (m : Nat) (x : Verdict) : DomKept s (s.decide_ m x) m := ite (refl s m) (modDom s m (fun _ => rfl) (fun _ => rfl) (fun _ => rfl) fun _ => rfl)

end DomKept

/-! ## Decisions applied -/

theorem write_doms (s : State) (a : Nat) (bs : List Byte) (tag : Bool) : (s.write a bs tag).doms = s.doms := by rw [State.write_fields]

theorem foldl_doms {α : Type} {f : State → α → State} (l : List α) (hf : ∀ t a, (f t a).doms = t.doms) (s : State) : (l.foldl f s).doms = s.doms :=
  foldl_keeps (P := fun t : State => t.doms = s.doms) (fun t a h => (hf t a).trans h) l rfl

theorem commitGroup_doms (s : State) (slot : Nat) : (s.commitGroup slot).2.2.doms = s.doms :=
  foldl_doms _ (fun t _ => (write_doms (t.setObjBase 0 _ _) _ _ false).trans (write_doms t _ _ false)) s

theorem abortGroup_doms (s : State) (slot : Nat) : (s.abortGroup slot).doms = s.doms :=
  foldl_doms _ (fun t _ => (write_doms (t.scramble _ _) _ _ false).trans (write_doms t.fresh.2 _ _ false)) s

theorem settled_doms (v : State) (slot d i n k : Nat) (f : Group → Group) (c : Rec → Rec) :
    ((((v.modGroup slot f).cmtCount d i 1).cmtCount d 3 n).endWork k c).doms = v.doms := rfl

theorem resolve_doms (s : State) (g : Group) (d : Nat) (x : Verdict) : (s.resolve g d x).doms = s.doms := by
  unfold State.resolve
  dsimp only
  rw [settled_doms]
  split
  · exact commitGroup_doms s g.slot
  · exact abortGroup_doms s g.slot

theorem applyHolds_doms (s : State) (m : Nat) (x : Verdict) : (s.applyHolds m x).doms = s.doms := foldl_doms _ (fun t _ => write_doms t _ _ false) s

/-- The state of a domain once a decision has been applied. -/
def Dom.tookOn (x : Verdict) (y : Dom) : Dom :=
  { y with
    decided := y.decided.filter (fun v => v.k != x.k), applied := y.applied ++ [x],
    prepared := y.prepared.filter (fun v => v.k != x.k), stalled := y.stalled.filter (fun z => z.2 != x.k) }

/-- The state of a domain once a survivor has been told a commit's verdict. -/
def Dom.told (q k : Nat) (y : Dom) : Dom := { y with reports := y.reports.filter (fun z => !(z.1 == q && z.2.1 == k)) ++ [(q, k, 3)] }

/-- A decision applied to the group of its commit, where it has started here. -/
def State.resolvedBy (s : State) (m : Nat) (x : Verdict) : State :=
  match s.groupOf m x.k with
  | some g => s.resolve g (s.domRec m).die x
  | none => s

theorem resolvedBy_doms (s : State) (m : Nat) (x : Verdict) : (s.resolvedBy m x).doms = s.doms := by
  unfold State.resolvedBy
  split
  · exact resolve_doms s _ _ x
  · rfl

/-- DONE moved past a decision that has been applied, and the decision reported to the leader of a recovery. -/
def State.movedPast (s : State) (m done : Nat) (x : Verdict) : State :=
  let s := (s.writeN (s.domAddr m + 20) 4 (done + 1)).modDom m (Dom.tookOn x)
  match (s.dom m).leader with
  | some l => s.cmtSend m l (reportFrame x)
  | none => s

theorem movedPast_kept (s : State) (m done : Nat) (x : Verdict) : DomKept s (s.movedPast m done x) m := by
  have hmod : DomKept s ((s.writeN (s.domAddr m + 20) 4 (done + 1)).modDom m (Dom.tookOn x)) m :=
    (DomKept.of_doms (write_doms s _ _ false) m).trans (.modDom _ m (f := Dom.tookOn x) (fun _ => rfl) (fun _ => rfl) (fun _ => rfl) fun _ => rfl)
  unfold State.movedPast
  dsimp only
  split
  · exact hmod.trans (.cmtSend _ m _ _ m)
  · exact hmod

theorem applyLoop_kept (m n : Nat) (s : State) : DomKept s (State.applyLoop m n s) m := by
  induction n generalizing s with
  | zero => exact .refl s m
  | succ n ih =>
    unfold State.applyLoop
    dsimp only
    split
    · exact .refl s m
    · next x _ =>
      have happlied : DomKept s ((s.resolvedBy m x).applyHolds m x) m := .of_doms ((applyHolds_doms _ m x).trans (resolvedBy_doms s m x)) m
      exact .ite (.refl s m) ((happlied.trans (movedPast_kept _ m (s.domRec m).done x)).trans (ih _))

/-! ## Recovery -/

theorem leadOnce_kept (s : State) (m : Nat) : DomKept s (s.leadOnce m) m := by
  unfold State.leadOnce
  dsimp only
  refine .ite (.refl s m) (.ite (.modDom s m (fun _ => rfl) (fun _ => rfl) (fun _ => rfl) fun _ => rfl) (.trans ?_ (applyLoop_kept m _ _)))
  refine .foldl _ (fun t k => .trans ?_ (.decide_ _ m _)) s
  exact .foldl (f := fun (v : State) q => (v.modDom m (Dom.told q k)).cmtSend m q _) _ (fun v q =>
    (DomKept.modDom v m (f := Dom.told q k) (fun _ => rfl) (fun _ => rfl) (fun _ => rfl) fun _ => rfl).trans (.cmtSend _ m q _ m)) t

theorem leadOn_kept (s : State) (m : Nat) : DomKept s (s.leadOn m) m := (leadOnce_kept s m).trans (leadOnce_kept _ m)

/-- While a survivor's end has not come, the leader waits. -/
theorem leadOn_waits (h : ∃ q ∈ s.survivors m, kvFind (s.dom m).ends q = none) : s.leadOn m = s := by
  obtain ⟨q, hq, hnone⟩ := h
  have hany : ((s.survivors m).any fun q => (kvFind (s.dom m).ends q).isNone) = true := List.any_eq_true.mpr ⟨q, hq, by rw [hnone]; rfl⟩
  have honce : s.leadOnce m = s := if_pos (by rw [hany, Bool.or_true])
  rw [State.leadOn, honce, honce]

theorem sendQueries_kept (s : State) (m : Nat) (dest : List Nat) : DomKept s (s.sendQueries m dest) m := .foldl _ (fun t _ => .cmtSend t m _ _ m) s

/-- The ring of a domain stopped, with nothing under way. -/
def Dom.halted (y : Dom) : Dom := { y with stopped := true, prepared := [], decided := y.decided.filter fun v => v.cause == 2, reports := [], ends := [], leads := false }

/-- The state of a domain whose recovery this member leads. -/
def Dom.leading (y : Dom) : Dom := { y with leads := true, leader := none }

theorem startRecovery_does (s : State) (m : Nat) : ((s.startRecovery m).dom m).lost = (s.dom m).lost ∧ ((s.startRecovery m).dom m).stopped = true := by
  have hhalt : (s.modDom m Dom.halted).dom m = (s.dom m).halted := dom_modDom s m Dom.halted fun _ => rfl
  have hkept : DomKept (s.modDom m Dom.halted) (s.startRecovery m) m := by
    refine .ite (.refl _ m) ?_
    have hlead : DomKept (s.modDom m Dom.halted) (((s.modDom m Dom.halted).modDom m Dom.leading).cmtCount (s.domRec m).die 2 1) m :=
      (DomKept.modDom _ m (f := Dom.leading) (fun _ => rfl) (fun _ => rfl) (fun _ => rfl) fun _ => rfl).trans
        (.of_doms (s := (s.modDom m Dom.halted).modDom m Dom.leading) (t := ((s.modDom m Dom.halted).modDom m Dom.leading).cmtCount (s.domRec m).die 2 1) rfl m)
    exact (hlead.trans (sendQueries_kept _ m _)).trans (leadOn_kept _ m)
  exact ⟨hkept.lost.trans (by rw [hhalt]; rfl), hkept.stopped.trans (by rw [hhalt]; rfl)⟩

theorem loseHolder_lost (s : State) (m : Nat) : ((s.loseHolder m).dom m).lost = (s.dom m).lost := by
  unfold State.loseHolder
  dsimp only
  generalize mapIf _ (fun g : Group => { g with cause := 3 }) s.groups = l
  have hevent : ∀ v : State, (v.event (s.domRec m).part 0x03 (s.domRec m).die srcCmt (natLe 1 m ++ natLe 1 0 ++ natLe 2 (s.domRec m).buddy)).doms = v.doms := fun v => by
    rw [(Posts.event v (Calm.domRec_part s m) _ _ _ _).frame]
  rw [dom_congr (hevent _) m, dom_modDom _ m (fun y => { y with noHolder := true }) fun _ => rfl]
  rfl

theorem loseMember_does {k : Nat} (hv : (s.domRec m).valid = true) (hk : k < (s.domRec m).n) (hr : k ≠ (s.domRec m).rank) (hl : k ∉ (s.dom m).lost) :
    k ∈ ((s.loseMember m k).dom m).lost ∧ ((s.loseMember m k).dom m).stopped = true := by
  let v := (s.writeN (s.domAddr m + 24) 1 1).modDom m fun y => { y with lost := y.lost ++ [k] }
  have hvlost : k ∈ (v.dom m).lost := by
    rw [dom_modDom (s.writeN (s.domAddr m + 24) 1 1) m (fun y => { y with lost := y.lost ++ [k] }) fun _ => rfl]
    exact List.mem_append_right _ (List.mem_singleton.mpr rfl)
  have hrun : s.loseMember m k = (if (s.domRec m).pushes && (s.domRec m).buddy = k && !(v.dom m).noHolder then v.loseHolder m else v).startRecovery m :=
    if_neg (by simp [hv, hr, hl]; omega)
  obtain ⟨hlost, hstop⟩ := startRecovery_does (if (s.domRec m).pushes && (s.domRec m).buddy = k && !(v.dom m).noHolder then v.loseHolder m else v) m
  rw [hrun]
  refine ⟨?_, hstop⟩
  rw [hlost]
  split
  · rw [loseHolder_lost]
    exact hvlost
  · exact hvlost

end Sys2Proof.Machine
end

section
/-! PROOF. Commit frames that arrive, buddy copies, and the frames of a recovery. -/

namespace Sys2Proof.Machine

variable {s t u v : State} {d m : Nat} {f : CommitFrame}

/-! ## A commit frame that a domain takes -/

/-- The next frame of a sequenced link is taken. -/
theorem linkTake_next {u seq ack : Nat} (h : s.ximelOn d = true ∨ seq % 4096 = (s.wire d u).expect) :
    (s.linkTake d u seq ack).1 = true ∧ OnlyLinks s (s.linkTake d u seq ack).2 := by
  unfold State.linkTake
  split
  · exact ⟨rfl, .refl s⟩
  · rename_i hx
    have hseq : seq % 4096 = ((s.modWire d u fun l => l.acked ack).wire d u).expect := by
      rw [wire_acked]
      exact h.resolve_left hx
    dsimp only
    rw [take_next hseq]
    refine ⟨rfl, ?_⟩
    rw [if_neg Bool.false_ne_true]
    exact (OnlyLinks.modWire s d u _).trans (.modWire _ d u _)

theorem torusPorts_six (p : Part) : p.torusPorts ≤ 6 := Nat.min_le_left 6 p.dies

/-- A frame for a domain of this package reaches it through its port's link. -/
theorem cmtIn_runs (h : AtDomain s d f) {k : Nat} (hk : k < 9) (hmax : k = 2 → 8256 ≤ s.ethMaxfrm d) :
    ∃ v, OnlyLinks s v ∧ ∀ act, s.cmtIn d { f with kind := k } act = act v (s.domRec f.domain) := by
  obtain ⟨htake, hw⟩ := takeRx_links s d 0x88B7
  obtain ⟨hok, hlink⟩ := linkTake_next (s := s.takeRx d 0x88B7) (d := d) (u := 2) (seq := f.seq) (ack := f.ack) (by
    rw [hw]
    exact h.seq.imp (fun hx => (htake.rbit _ _ _).trans hx) id)
  have hv := htake.trans hlink
  have hcarries : (s.takeRx d 0x88B7).carries d (.commit { f with kind := k }) = true := by
    refine (carries_congr htake.regs htake.part (takeRx_eff s d _) _).trans ?_
    by_cases hk2 : k = 2
    · exact Bool.or_eq_true_iff.mpr (.inr (decide_eq_true (hmax hk2)))
    · exact Bool.or_eq_true_iff.mpr (.inl (by simpa using hk2))
  refine ⟨((s.takeRx d 0x88B7).linkTake d 2 f.seq f.ack).2, hv, fun act => ?_⟩
  unfold State.cmtIn
  dsimp only
  rw [if_neg (by rw [htake.rbit, h.on, h.ver]; simp; omega), if_neg (by rw [hcarries]; simp), hok]
  generalize ((s.takeRx d 0x88B7).linkTake d 2 f.seq f.ack).2 = v at hv ⊢
  have hrec : v.domRec f.domain = s.domRec f.domain := by rw [hv.eq]; rfl
  have hdom : v.dom f.domain = s.dom f.domain := by rw [hv.eq]; rfl
  have hxyz : v.selfXyz = s.selfXyz := by rw [hv.eq]; rfl
  have hout : ∀ e, v.dieOut e = s.dieOut e := fun e => by rw [hv.eq]; rfl
  have hcut : ∀ e, v.cutPair d e = s.cutPair d e := fun e => by rw [hv.eq]; rfl
  rw [if_neg (by simp), hxyz, hv.part, hrec, hdom, hout, hcut, hv.rbit, h.valid, h.home, h.joined, h.runs, if_neg, if_neg (by simp), if_neg (by simp), if_neg]
  · simp [h.gen, h.found]
  · have := torusPorts_six s.part
    rcases h.here with hd | hx
    · simp; omega
    · simp [hx]

theorem cmtFrame_runs {c : Instr} {act : State → DomRec → State} (h : AtDomain s d f) {k : Nat} (hk : k < 9) (hmax : k = 2 → 8256 ≤ s.ethMaxfrm d)
    (hexec : exec c s = onDie s d (s.cmtIn d { f with kind := k } act)) : ∃ v, OnlyLinks s v ∧ exec c s = .next (act v (s.domRec f.domain)) := by
  obtain ⟨v, hv, hact⟩ := cmtIn_runs h hk hmax
  exact ⟨v, hv, hexec.trans ((onDie_eq h.die).trans (congrArg _ (hact act)))⟩

theorem OnlyLinks.memWf (h : OnlyLinks s v) : v.memWf = s.memWf := by
  rw [h.eq]
  rfl

theorem OnlyLinks.wrote {a : Nat} {bs : List Byte} (h : OnlyLinks s v) (g : Wrote v t a bs) : Wrote s t a bs := by
  refine g.of_mem ?_ ?_ rfl rfl
  · rw [h.eq]
  · rw [h.eq]

/-! ## Pushes started -/

/-- From `s` to `t` the push of twin `o` has been noted in its group, as under way or as failed; memory reads as before. -/
structure NotesPush (s : State) (g : Group) (o : Nat) (t : State) : Prop where
  mem    : SameMem s t
  groups : t.groups = mapIf (fun x => x.slot == g.slot) (fun x => { x with
    pushes := x.pushes ++ [⟨o, (s.twin 0 o).revert, if s.pushRoute (s.domMember (s.domRec g.dom) (s.domRec g.dom).buddy) then 1 else 3⟩] }) s.groups

theorem NotesPush.queues {g : Group} {o : Nat} (h : NotesPush s g o t) (q : QueuesCmt t u) : NotesPush s g o u :=
  ⟨h.mem.trans q.sameMem, q.groups.trans h.groups⟩

theorem holds_else {α : Type} {P : α → Prop} {c : Prop} [Decidable c] {a b : α} (hc : ¬ c) (h : P b) : P (if c then a else b) := by
  rw [if_neg hc]
  exact h

theorem startPush_notes {g : Group} {o : Nat} (hclosed : g.closed = true) (hcommit : g.commit.isSome = true) (hact : s.actionOn g.slot o = false)
    (htwin : o ∈ s.pushTwins g) (hnew : ∀ x ∈ g.pushes, x.obj ≠ o) : NotesPush s g o (s.startPush g o) := by
  have hsome : g.commit.isNone = false := by simpa using hcommit
  have hnone : (g.pushes.any fun x => x.obj == o) = false := by simpa using hnew
  unfold State.startPush
  refine holds_else (by simp [hclosed, hsome, hact, htwin, hnone]) ?_
  have hnoted : NotesPush s g o (s.modGroup g.slot fun x => { x with
      pushes := x.pushes ++ [⟨o, (s.twin 0 o).revert, if s.pushRoute (s.domMember (s.domRec g.dom) (s.domRec g.dom).buddy) then 1 else 3⟩] }) :=
    ⟨.of_eq rfl rfl, rfl⟩
  have hcounted : ∀ n, NotesPush s g o ((s.modGroup g.slot fun x => { x with
      pushes := x.pushes ++ [⟨o, (s.twin 0 o).revert, if s.pushRoute (s.domMember (s.domRec g.dom) (s.domRec g.dom).buddy) then 1 else 3⟩] }).cmtCount
        (s.domRec g.dom).die 4 n) := fun _ => ⟨.of_eq rfl rfl, rfl⟩
  dsimp only
  generalize (s.modGroup g.slot fun x => { x with
      pushes := x.pushes ++ [⟨o, (s.twin 0 o).revert, if s.pushRoute (s.domMember (s.domRec g.dom) (s.domRec g.dom).buddy) then 1 else 3⟩] }) = v at hnoted hcounted ⊢
  split
  · exact hnoted
  · split
    · exact hnoted.queues (.cmtSend v _ _ _)
    · exact (hcounted _).queues (.foldl _ (fun t _ => .cmtSend t _ _ _) _)

theorem buddyPushStart_does {slot o : Nat} {g : Group} (hup : s.tripped = false) (hg : s.groupAt slot = some g) (hclosed : g.closed = true)
    (hcommit : g.commit.isSome = true) (hact : s.actionOn g.slot o = false) (htwin : o ∈ s.pushTwins g) (hnew : ∀ x ∈ g.pushes, x.obj ≠ o) :
    Does (.buddyPushStart slot o) s (NotesPush s g o) := by
  have hexec : exec (.buddyPushStart slot o) s = live s (match s.groupAt slot with | some g => s.startPush g o | none => s) := rfl
  refine ⟨s.startPush g o, ?_, startPush_notes hclosed hcommit hact htwin hnew⟩
  rw [hexec, live_eq hup, hg]

/-! ## Push frames at the holder -/

/-- A hold entry staged under a commit, by data or by a revert. -/
def Hold.stagedBy (h : Hold) (k : Nat) (rev : Bool) : Hold := { h with staged := true, stage := k, prev := h.prev && rev, revert := rev }

/-- Where a push frame's data goes: the side that is not current. -/
def Hold.place (h : Hold) (off : Nat) : Nat := (if h.side then h.side0 else h.side1) + off

/-- The hold entry of a push frame is this domain's and its sender's, has room for the frame, and is not staged. -/
structure HoldFits (s : State) (f : CommitFrame) : Prop where
  valid   : (s.hold f.hold).valid = true
  dom     : (s.hold f.hold).dom = f.domain
  partner : (s.hold f.hold).partner = f.srcRank
  room    : f.offset + f.payload.length ≤ (s.hold f.hold).len
  staged  : (s.hold f.hold).staged = false

theorem HoldFits.links (h : HoldFits s f) (hv : OnlyLinks s v) : HoldFits v f ∧ v.hold f.hold = s.hold f.hold := by
  have e : v.hold f.hold = s.hold f.hold := by
    rw [hv.eq]
    rfl
  exact ⟨⟨by rw [e, h.valid], by rw [e, h.dom], by rw [e, h.partner], by rw [e]; exact h.room, by rw [e, h.staged]⟩, e⟩

theorem pushIn_data (h : HoldFits s f) (hk : f.kind = 2) (r : DomRec) :
    QueuesCmt ((((s.setHold f.hold ((s.hold f.hold).stagedBy f.commit false)).write ((s.hold f.hold).place f.offset) f.payload f.poison)).cmtCount r.die 5
      (f.payload.length / 64)) (s.pushIn f r) := by
  unfold State.pushIn
  refine holds_else (by simp [h.valid, h.dom, h.partner, h.staged, hk, h.room]) ?_
  dsimp only
  rw [h.staged, hk, if_neg Bool.false_ne_true]
  exact holds_else Bool.false_ne_true (.ite (.cmtSend _ _ _ _) (.refl _))

theorem pushIn_revert (h : HoldFits s f) (hk : f.kind = 3) (hprev : (s.hold f.hold).prev = true) (r : DomRec) :
    QueuesCmt (s.setHold f.hold ((s.hold f.hold).stagedBy f.commit true)) (s.pushIn f r) := by
  unfold State.pushIn
  refine holds_else (by simp [h.valid, h.dom, h.partner, h.staged, hk, h.room, hprev]) ?_
  dsimp only
  rw [h.staged, hk]
  exact .cmtSend _ _ _ _

theorem length_holdBytes (h : Hold) : h.bytes.length = 32 := by simp [Hold.bytes, length_natLe]

theorem cmtCnt_ne_rasCnt (d : Nat) : regKey d (Reg.cmtCntLo 5) ≠ regKey 0 (Reg.rasCntLo 7) :=
  State.regKey_ne (by simp [Reg.cmtCntLo]) (by simp [Reg.rasCntLo]) (.inr (by simp [Reg.cmtCntLo, Reg.rasCntLo]))

theorem pushFrame_does (h : AtDomain s d f) (hwf : s.memWf = true) (hf : HoldFits s f) (hmax : 8256 ≤ s.ethMaxfrm d) : Does (.pushFrame d f) s fun t =>
    t.bytes ((s.hold f.hold).place f.offset) f.payload.length = f.payload ∧
    (∀ x, (x < (s.hold f.hold).place f.offset ∨ (s.hold f.hold).place f.offset + f.payload.length ≤ x) →
      (x < s.holdAddr f.hold ∨ s.holdAddr f.hold + 32 ≤ x) → t.byte x = s.byte x) ∧
    t.ctr (s.domRec f.domain).die (Reg.cmtCntLo 5) = Nat.min ctrMax (s.ctr (s.domRec f.domain).die (Reg.cmtCntLo 5) + f.payload.length / 64) ∧
      t.regs = s.regs := by
  obtain ⟨v, hv, hexec⟩ := cmtFrame_runs h (c := .pushFrame d f) (k := 2) (by omega) (fun _ => hmax) rfl
  obtain ⟨hfits, hhold⟩ := hf.links hv
  have hq := pushIn_data (f := { f with kind := 2 }) ⟨hfits.valid, hfits.dom, hfits.partner, hfits.room, hfits.staged⟩ rfl (s.domRec f.domain)
  dsimp only at hq
  rw [hhold] at hq
  have haddr : v.holdAddr f.hold = s.holdAddr f.hold := by
    rw [hv.eq]
    rfl
  have hvwf := hv.memWf.trans hwf
  generalize (s.hold f.hold).stagedBy f.commit false = x at hq
  have hheld : Wrote v (v.setHold f.hold x) (s.holdAddr f.hold) x.bytes := haddr ▸ wrote_write hvwf _ _
  have hdata : Wrote (v.setHold f.hold x) (v.pushIn { f with kind := 2 } (s.domRec f.domain)) ((s.hold f.hold).place f.offset) f.payload :=
    (wrote_tag (v.write_memWf hvwf _ _ false) _ f.payload f.poison).of_mem rfl rfl hq.mem.1 hq.mem.2
  refine ⟨_, hexec, hdata.1, fun a ha hout => (hdata.2 a ha).trans ((hheld.2 a ?_).trans (hv.sameMem a)), ?_, ?_⟩
  · rwa [length_holdBytes]
  · refine (hq.ctr _ _ (cmtCnt_ne_rasCnt _)).trans ((State.ctr_bump_same _ _ _ _).trans ?_)
    have hctrs : ((v.setHold f.hold x).write ((s.hold f.hold).place f.offset) f.payload f.poison).ctrs = s.ctrs :=
      (State.write_ctrs _ _ _ _).trans ((State.write_ctrs _ _ _ _).trans hv.ctrs)
    rw [State.ctr_congr hctrs]
  · exact hq.regs.trans ((State.write_regs _ _ _ _).trans ((State.write_regs _ _ _ _).trans hv.regs))

theorem pushRevertFrame_does (h : AtDomain s d f) (hwf : s.memWf = true) (hf : HoldFits s f) (hprev : (s.hold f.hold).prev = true) :
    Does (.pushRevertFrame d f) s fun t => t.regs = s.regs ∧ Wrote s t (s.holdAddr f.hold) ((s.hold f.hold).stagedBy f.commit true).bytes := by
  obtain ⟨v, hv, hexec⟩ := cmtFrame_runs h (c := .pushRevertFrame d f) (k := 3) (by omega) (by simp) rfl
  obtain ⟨hfits, hhold⟩ := hf.links hv
  have hq := pushIn_revert (f := { f with kind := 3 }) ⟨hfits.valid, hfits.dom, hfits.partner, hfits.room, hfits.staged⟩ rfl (hhold ▸ hprev) (s.domRec f.domain)
  have haddr : v.holdAddr f.hold = s.holdAddr f.hold := by
    rw [hv.eq]
    rfl
  refine ⟨_, hexec, hq.regs.trans ((State.write_regs _ _ _ _).trans hv.regs), hv.wrote ?_⟩
  refine (wrote_write (hv.memWf.trans hwf) _ _).of_mem rfl rfl (hq.mem.1.trans ?_) (hq.mem.2.trans ?_)
  · rw [← haddr, ← hhold]
    rfl
  · rw [← haddr, ← hhold]
    rfl

/-! ## Acknowledgements of pushes -/

theorem pushAckFrame_does {g : Group} (h : AtDomain s d f) (hg : s.groupOf f.domain f.commit = some g) (hbuddy : f.srcRank = (s.domRec f.domain).buddy) :
    Does (.pushAckFrame d f) s fun t => SameMem s t ∧ t.regs = s.regs ∧ t.groups = mapIf (fun x => x.slot == g.slot) (fun x => { x with
      pushes := mapIf (fun y => y.st == 1 && (s.twin 0 y.obj).hold == f.hold) (fun y => { y with st := if f.verdict = 1 then 2 else 3 }) x.pushes }) s.groups := by
  obtain ⟨v, hv, hexec⟩ := cmtFrame_runs h (c := .pushAckFrame d f) (k := 4) (by omega) (by simp) rfl
  have hgroup : v.groupOf f.domain f.commit = some g := by
    rw [hv.eq]
    exact hg
  have htwin : ∀ o, v.twin 0 o = s.twin 0 o := fun o => by
    rw [hv.eq]
    rfl
  have hgroups : v.groups = s.groups := by rw [hv.eq]
  dsimp only at hexec
  simp only [hgroup, if_neg (not_not.mpr hbuddy), htwin] at hexec
  refine ⟨_, hexec, hv.sameMem.trans (.of_eq rfl rfl), hv.regs, ?_⟩
  rw [← hgroups]
  rfl

/-! ## Frames of a recovery -/

/-- The state of a domain whose ring a query has stopped. -/
def Dom.queried (src : Nat) (y : Dom) : Dom :=
  { y with stopped := true, prepared := [], decided := y.decided.filter (fun v => v.cause == 2), leader := some src, leads := false }

theorem queryFrame_does (h : AtDomain s d f) (hwf : s.memWf = true) : Does (.queryFrame d f) s fun t =>
    (t.dom f.domain).stopped = true ∧ (t.dom f.domain).leader = some f.srcRank ∧ (t.dom f.domain).leads = false ∧
      (t.dom f.domain).prepared = [] ∧ Wrote s t (s.domAddr f.domain + 24) [1] ∧ t.regs = s.regs := by
  obtain ⟨v, hv, hexec⟩ := cmtFrame_runs h (c := .queryFrame d f) (k := 5) (by omega) (by simp) rfl
  let w := (v.writeN (v.domAddr f.domain + 24) 1 1).modDom f.domain (Dom.queried f.srcRank)
  have hq : QueuesCmt w (v.queryIn f (s.domRec f.domain)) := by
    refine .trans ?_ (.cmtSend _ f.domain _ _)
    exact .foldl _ (fun t _ => .cmtSend t _ _ _) w
  have hdom : (v.queryIn f (s.domRec f.domain)).dom f.domain =
      Dom.queried f.srcRank ((v.writeN (v.domAddr f.domain + 24) 1 1).dom f.domain) :=
    (dom_congr hq.doms f.domain).trans (dom_modDom _ f.domain (Dom.queried f.srcRank) fun _ => rfl)
  have haddr : v.domAddr f.domain = s.domAddr f.domain := by
    rw [hv.eq]
    rfl
  obtain ⟨l, hw⟩ : ∃ l, w = { v.writeN (v.domAddr f.domain + 24) 1 1 with doms := l } := modDom_state _ _ _
  refine ⟨_, hexec, by rw [hdom]; rfl, by rw [hdom]; rfl, by rw [hdom]; rfl, by rw [hdom]; rfl, ?_, ?_⟩
  · refine hv.wrote ((wrote_write (hv.memWf.trans hwf) (s.domAddr f.domain + 24) [1]).of_mem rfl rfl (hq.mem.1.trans ?_) (hq.mem.2.trans ?_))
    · rw [hw, haddr]
      rfl
    · rw [hw, haddr]
      rfl
  · rw [hq.regs, hw]
    exact (State.write_regs _ _ _ _).trans hv.regs

/-- The end of a survivor's report. -/
def Dom.ended (q next : Nat) (y : Dom) : Dom := { y with ends := kvPut y.ends q next }

/-- A survivor's report of one commit. -/
def Dom.heard (q k x : Nat) (y : Dom) : Dom := { y with reports := y.reports.filter (fun z => !(z.1 == q && z.2.1 == k)) ++ [(q, k, x)] }

theorem reportFrame_runs (h : AtDomain s d f) (hlead : (s.dom f.domain).leads = true) : ∃ v, OnlyLinks s v ∧ exec (.reportFrame d f) s =
    .next ((v.modDom f.domain fun y => if f.verdict = 3 then y.ended f.srcRank f.commit else y.heard f.srcRank f.commit f.verdict).leadOn f.domain) := by
  obtain ⟨v, hv, hexec⟩ := cmtFrame_runs h (c := .reportFrame d f) (k := 6) (by omega) (by simp) rfl
  have hdom : (v.dom f.domain).leads = true := by
    rw [hv.eq]
    exact hlead
  exact ⟨v, hv, hexec.trans (congrArg _ (if_neg (by simp [hdom])))⟩

theorem reportFrame_ends (h : AtDomain s d f) (hlead : (s.dom f.domain).leads = true) (hend : f.verdict = 3) :
    Does (.reportFrame d f) s fun t => kvFind (t.dom f.domain).ends f.srcRank = some f.commit := by
  obtain ⟨v, _, hexec⟩ := reportFrame_runs h hlead
  simp only [if_pos hend] at hexec
  refine ⟨_, hexec, ?_⟩
  refine (congrArg (kvFind · f.srcRank) (leadOn_kept _ _).ends).trans ?_
  rw [dom_modDom v f.domain (Dom.ended f.srcRank f.commit) fun _ => rfl]
  exact kvFind_kvPut_same _ _ _

theorem reportFrame_waits (h : AtDomain s d f) (hlead : (s.dom f.domain).leads = true) (hmid : f.verdict ≠ 3)
    (hwait : ∃ q ∈ s.survivors f.domain, kvFind (s.dom f.domain).ends q = none) : Does (.reportFrame d f) s fun t =>
      (f.srcRank, f.commit, f.verdict) ∈ (t.dom f.domain).reports ∧ SameMem s t ∧ t.regs = s.regs := by
  obtain ⟨v, hv, hexec⟩ := reportFrame_runs h hlead
  simp only [if_neg hmid] at hexec
  have hdom := dom_modDom v f.domain (Dom.heard f.srcRank f.commit f.verdict) fun _ => rfl
  have hbase : v.dom f.domain = s.dom f.domain := by
    rw [hv.eq]
    rfl
  obtain ⟨l, hl⟩ := modDom_state v f.domain (Dom.heard f.srcRank f.commit f.verdict)
  have hrec : (v.modDom f.domain (Dom.heard f.srcRank f.commit f.verdict)).domRec f.domain = s.domRec f.domain := by
    rw [hl, hv.eq]
    rfl
  have hsurv : (v.modDom f.domain (Dom.heard f.srcRank f.commit f.verdict)).survivors f.domain = s.survivors f.domain := by
    unfold State.survivors
    rw [hrec, hdom, hbase]
    rfl
  have hstay : (v.modDom f.domain (Dom.heard f.srcRank f.commit f.verdict)).leadOn f.domain = v.modDom f.domain (Dom.heard f.srcRank f.commit f.verdict) := by
    refine leadOn_waits ?_
    rw [hsurv, hdom, hbase]
    exact hwait
  refine ⟨_, hexec.trans (congrArg _ hstay), ?_, ?_, ?_⟩
  · rw [hdom]
    exact List.mem_append_right _ (List.mem_singleton.mpr rfl)
  · rw [hl]
    exact hv.sameMem.trans (.of_eq rfl rfl)
  · rw [hl]
    exact hv.regs

end Sys2Proof.Machine

open Sys2Proof Sys2Proof.Machine

/-- Settles O33: the frames of a domain pass its port's link first (`cmtFrame_runs`); frames that leave change ports and ROUTE_DROPS alone. -/
theorem commitTraffic : Obligations.CommitTraffic := by
  refine ⟨⟨fun s slot o g hup hg hclosed hcommit hact htwin hnew => ?_, fun s d f h hwf hvalid hdom hpartner hroom hstaged => ⟨fun hmax => ?_, fun hprev => ?_⟩,
    fun s d f g h hg hbuddy => pushAckFrame_does h hg hbuddy⟩, fun s m k hup hvalid hk hrank hlost => ?_, fun s d f h hwf => queryFrame_does h hwf,
    fun s d f h hlead => ⟨reportFrame_ends h hlead, reportFrame_waits h hlead⟩⟩
  · obtain ⟨t, hexec, hmem, hgroups⟩ := buddyPushStart_does hup hg hclosed hcommit hact htwin hnew
    exact ⟨t, hexec, hmem, hgroups⟩
  · exact pushFrame_does h hwf ⟨hvalid, hdom, hpartner, hroom, hstaged⟩ hmax
  · obtain ⟨t, hexec, hregs, hwrote⟩ := pushRevertFrame_does h hwf ⟨hvalid, hdom, hpartner, hroom, hstaged⟩ hprev
    rw [Hold.stagedBy, hprev] at hwrote
    exact ⟨t, hexec, hregs, hwrote⟩
  · exact ⟨s.loseMember m k, live_eq hup, loseMember_does hvalid hk hrank hlost⟩

end
